-- ==== Sys2Proof/Word.lean ====
section
/-! DEFINITION. The word types of the module and their plainest arithmetic. -/

namespace Sys2Proof

/-- A byte of any memory of the module. -/
abbrev Byte := BitVec 8

/-- A BAR0 register word (R9: every register is 32 bits wide). -/
abbrev Word := BitVec 32

/-- A 64-bit quantity (R14 pairs, check values, FP64 words). -/
abbrev Dword := BitVec 64

end Sys2Proof
end

