-- ==== Sys2Proof/Syntax.lean ====
section
/-! DEFINITION. The commands of the block: what the host, the BMC, neighbours, memories, timers and the block's own engines
bring about, one constructor per row of the opcode table, and the operands that carry what comes from outside. -/

namespace Sys2Proof

/-- Errors the memories' codes find in what a command reads (03_cores.md R97; 10_memory_tiers.md R250, R251): HBM sectors
corrected and not corrected, by device address as the command reads them (stack-linear for the patrol scrub and for DBG_MEM
SPACE 1), and SRAM byte offsets of words corrected and not corrected. -/
structure Ecc where
  ce : List Nat
  ue : List Nat
  sramCe : List Nat
  sramUe : List Nat
deriving DecidableEq, Repr

/-- A write that reaches BAR0 (00_scope.md R9, R11): its data, its size in bytes, and the bits and increments that the register's unit set
in the same cycle. -/
structure BusWrite where
  data : Nat
  bytes : Nat
  hw : Nat
deriving DecidableEq, Repr

/-- A read that reaches BAR0 (00_scope.md R9): its offset and its size in bytes. -/
structure BusRead where
  off : Nat
  bytes : Nat
deriving DecidableEq, Repr

/-- What the management die last sampled of the 56 V input (17_power_reset.md R425): millivolts and milliamperes. -/
structure InputSample where
  mv : Nat
  ma : Nat
deriving DecidableEq, Repr

/-- How a lane of a fabric port has failed (12_fabric_ports.md R328): its signal lost for 2 us, FEC symbol lock lost, too many FEC symbol
errors. -/
inductive LaneFault where
  | signal
  | symbolLock
  | symbolErrors
deriving DecidableEq, Repr

/-- What is wrong with a TLP that arrives, with dword 0 of its header: an ECRC error, poison (14_host_interface.md R365), or a request
the device does not support, such as an AtomicOp (R364). -/
inductive TlpBad where
  | ecrc (dw0 : Nat)
  | poisoned (dw0 : Nat)
  | unsupported (dw0 : Nat)
deriving DecidableEq, Repr

/-- The engine that runs an element instruction: a core's vector unit or a groom unit. -/
inductive Engine where
  | core (n : Nat)
  | groom (n : Nat)
deriving DecidableEq, Repr

/-- The fields of an element-program instruction beside its opcode (07_groom_units.md R164): destination, three source
codes (for CVT, SRND and NACC with the meanings R167 gives them), FTZ, WIDE, negation of A. -/
structure ElemWord where
  dst : Nat
  a : Nat
  b : Nat
  c : Nat
  ftz : Bool
  wide : Bool
  nega : Bool
deriving DecidableEq, Repr

/-- A request outstanding at a CXL port when its link is lost (10_memory_tiers.md R264): port-local addresses. -/
inductive LoftReq where
  | read (addr len : Nat)
  | write (addr : Nat) (data : List (Option Byte))
deriving DecidableEq, Repr

/-- A flit as the far end sent it (12_fabric_ports.md Table 12-1): `ok` its FEC codeword decoded and its CRC agrees; kind;
sequence number; the ACK and CREDIT fields; the transport header and payload. -/
structure FlitIn where
  ok : Bool
  fec : Bool
  kind : Nat
  seq : Nat
  ackValid : Bool
  nak : Bool
  ackSeq : Nat
  credits : List Nat
  testBad : Bool
  dest : Nat
  src : Nat
  type : Nat
  cls : Nat
  vl : Nat
  poison : Bool
  retx : Bool
  last : Bool
  hops : Nat
  e2e : Nat
  tag : Nat
  addr : Nat
  len : Nat
  payload : List Byte
deriving DecidableEq, Repr

/-- The body of a CONTROL flit (12_fabric_ports.md R323). -/
structure CtlRec where
  module : Nat
  port : Nat
  state : Nat
  epoch : Nat
  period : Nat
  active : Bool
  hash : List Byte
  routeGen : Nat
deriving DecidableEq, Repr

/-- What a start-up meets (17_power_reset.md Table 17-4; 16_security_and_update.md R394 to R396): cores that fail the
self-test with the part that failed, stacks that fail training, expanders found (port, capacity, width, speed code, of a
type the controller supports), slots and components whose image fails R396 beyond what the store shows, processor classes
whose self-test fails, whether the counter record fails its check (R403), and the address straps SB_ADDR1 and SB_ADDR0
(19_package_and_pins.md R477). -/
structure Boot where
  coreFail : List (Nat × Nat)
  stackFail : List Nat
  expanders : List (Nat × Nat × Nat × Nat × Bool)
  imageFail : List Nat
  classFail : List Nat
  counterBad : Bool
  straps : Nat
deriving DecidableEq, Repr

/-- What the host writes to MSI-X (14_host_interface.md R377): one table entry with its Mask bit clear, or MSI-X Enable set with
Function Mask clear; an entry's Mask bit set, Function Mask set, MSI-X Enable clear. -/
inductive Unmask where
  | entry (vector addr data : Nat)
  | function
  | mask (vector : Nat)
  | maskAll
  | disable
deriving DecidableEq, Repr

/-- Paths to the management die (14_host_interface.md R382). -/
inductive Path where
  | bar0 | vdm | sideband
deriving DecidableEq, Repr

/-- How an attestation object came: DOE, or the vendor-defined MCTP message of a binding, with its REQ_ID. -/
inductive AttPath where
  | doe (req : Nat)
  | mctp (sideband : Bool) (req : Nat)
deriving DecidableEq, Repr

/-- MCTP requests other than PLDM's and the vendor's (14_host_interface.md R380, Table 14-7): control requests, and a message of a type
the endpoint does not support, with the error completion code that type defines, if it defines one. -/
inductive MctpReq where
  | setEid (eid : Nat)
  | getEid
  | getVersion
  | getTypes
  | discovery
  | other (code : Nat)
  | foreign (type : Nat) (completion : Option Nat)
deriving DecidableEq, Repr

/-- PLDM monitoring and control requests (14_host_interface.md Table 14-7). -/
inductive PldmReq where
  | readTemp (sensor : Nat)
  | readPower
  | readVoltage
  | setCap (watts : Nat)
  | other (code : Nat)
deriving DecidableEq, Repr


/-- The commands of the block: one constructor per row of the opcode table. -/
inductive Instr where
  /-- REGISTER_WRITE (R10): A BAR0 write to a register field that has no row of its own acts according to its access code (RW, W1C, W1S, RWP, RWL). -/
  | registerWrite (off : Nat) (word : BusWrite)
  /-- READ_LO_SNAPSHOT (R14): Reading the _LO half of a 64-bit pair captures the _HI half for the following _HI read. -/
  | readLoSnapshot (read : BusRead)
  /-- WRITE_HI_COMMIT (R14): Writing the _HI half commits a 64-bit pair with the _LO value written last. -/
  | writeHiCommit (off : Nat) (val : Nat)
  /-- PENDING_FIELD_APPLY (R12): At the next tick boundary the last value written to an RWP field takes effect. -/
  | pendingFieldApply
  /-- BAR2_WRITE (R371): A host BAR2 write reaches device memory under the address map, slot, bank and poison rules. -/
  | bar2Write (off : Nat) (data : List (Option Byte)) (ecc : Ecc) (tlp : Option TlpBad)
  /-- BAR2_READ (R371): A host BAR2 read returns device memory, 0xFF bytes for poisoned sectors, or freeze readout data. -/
  | bar2Read (off : Nat) (len : Nat) (ecc : Ecc) (tlp : Option TlpBad)
  /-- SLOT_OPEN (R44): The OPEN command puts an EMPTY, PROVEN or FAILED slot into LOADING. -/
  | slotOpen (slot : Nat)
  /-- SLOT_PROVE (R46): The PROVE command starts proof of a LOADING slot and clears the slot's length, epoch, fail and hash registers. -/
  | slotProve (slot : Nat)
  /-- SLOT_CLEAR (R44): The CLEAR command returns a slot that is neither ACTIVE nor PROVING to EMPTY. -/
  | slotClear (slot : Nat)
  /-- PROOF_COMPLETE (R47): Proof finishes its ordered checks, and the slot becomes PROVEN or FAILED with a result code and fail offset. -/
  | proofComplete (slot : Nat) (ecc : Ecc)
  /-- PLATE_ACTIVATE (R49): OP = ACTIVATE requests activation of a PROVEN slot at a target tick, or is refused with NOT_PROVEN. -/
  | plateActivate (slot : Nat)
  /-- PLATE_DEACTIVATE (R51): OP = DEACTIVATE becomes the pending request, replacing any pending activation. -/
  | plateDeactivate
  /-- PLATE_CANCEL (R51): OP = CANCEL withdraws the pending request with result CANCELLED. -/
  | plateCancel
  /-- ACTIVATION_TAKES_EFFECT (R50): At the first boundary at or after the target with no step in progress, every unit switches to the slot's configuration context. -/
  | activationTakesEffect
  /-- DEACTIVATION_TAKES_EFFECT (R51): At the first boundary with no step in progress, the active plate ends, forwarding stops and the slot becomes PROVEN. -/
  | deactivationTakesEffect
  /-- ROUTE_UPDATE_TAKES_EFFECT (R53): A ROUTE_UPDATE replaces the route tables and tick tree at the first boundary at or after its target, and its slot becomes EMPTY. -/
  | routeUpdateTakesEffect
  /-- TICK_BOUNDARY (R55): The tick master ends a tick of PERIOD_US × 700 core cycles, and the counter increments at the boundary. -/
  | tickBoundary (input : InputSample) (energy : Nat)
  /-- TCK_PERIOD_WRITE (R56): A write of TCK_PERIOD is discarded with BAD_PERIOD outside 2 to 64, and otherwise takes effect at the next boundary. -/
  | tckPeriodWrite (val : Nat)
  /-- UPSTREAM_FAILOVER (R61): When the upstream port goes down, the tick master holds phase and moves to the first valid alternate within one tick. -/
  | upstreamFailover
  /-- TICK_IN_EDGE (R64): A TICK_IN edge within ±1 core cycle marks a boundary under EXTERNAL and ends holdover. -/
  | tickInEdge (err : Int)
  /-- TICK_IN_LOST (R64): When no acceptable edge has arrived 1 µs after the expected boundary, the tick master enters holdover. -/
  | tickInLost
  /-- BARRIER_SIGNAL (R69): A signal counts towards a named barrier, and the barrier completes at its expected count. -/
  | barrierSignal (id : Nat)
  /-- STEP_TIMEOUT (R73): When the step's tick count reaches MAX_STEP_TICKS with stables not at END, the step faults. -/
  | stepTimeout
  /-- KERNEL_START (R78): The sequencer starts the next descriptor of a frame once the previous one has completed, after the SYNC barrier when set. -/
  | kernelStart (core : Nat)
  /-- KERNEL_COMPLETE (R78): A kernel completes once all its SRAM writes are made and its device-memory writes are accepted. -/
  | kernelComplete (core : Nat)
  /-- MATMUL (R85): Matrix product C = A × B, accumulated in groups of four in ascending k. -/
  | matmul (core : Nat) (ecc : Ecc)
  /-- CONV (R86): Implicit-matrix 1-D or 2-D convolution, accumulated in MATMUL order. -/
  | conv (core : Nat) (ecc : Ecc)
  /-- ATTN_FORWARD (R218): ATTN phase FORWARD processes key blocks into the running softmax state. -/
  | attnForward (core : Nat) (ecc : Ecc)
  /-- ATTN_MERGE (R225): ATTN phase MERGE combines the partial states of split ranks in ascending order. -/
  | attnMerge (core : Nat) (ecc : Ecc)
  /-- ATTN_BACKWARD (R244): ATTN phase BACKWARD recomputes P and accumulates dQ, dK and dV. -/
  | attnBackward (core : Nat) (ecc : Ecc)
  /-- ATTN_KV_GRAD (R245): ATTN phase KV_GRAD writes the dK and dV accumulators to their outputs. -/
  | attnKvGrad (core : Nat) (ecc : Ecc)
  /-- ELEMENT (R87): Runs an element program over D0 elements on 32 lanes. -/
  | element (core : Nat) (ecc : Ecc)
  /-- REDUCE (R88): Reduces a matrix along one axis with a fixed lane and tree order. -/
  | reduce (core : Nat) (ecc : Ecc)
  /-- SCAN (R130): Reads a tensor part, writes its partial watch record, and sends it to the watch table. -/
  | scan (core : Nat) (ecc : Ecc)
  /-- GATHER (R89): Copies indexed table rows to the output rows. -/
  | gather (core : Nat) (ecc : Ecc)
  /-- SCATTER (R90): Writes or adds source rows into indexed table rows. -/
  | scatter (core : Nat) (ecc : Ecc)
  /-- TRANSPOSE (R93): Writes the transpose of a matrix to another SRAM place. -/
  | transpose (core : Nat) (ecc : Ecc)
  /-- COPY (R93): Moves rows of bytes between own SRAM, device memory and peer SRAM. -/
  | copy (core : Nat) (ecc : Ecc)
  /-- TOPK (R91): Selects the k best values of each row, with their indices. -/
  | topk (core : Nat) (ecc : Ecc)
  /-- END (R164): Element-program instruction that ends the element's run. -/
  | elemEnd (eng : Engine) (w : ElemWord)
  /-- MOV (R165): Element-program instruction that copies A, rounded. -/
  | mov (eng : Engine) (w : ElemWord)
  /-- ADD (R165): Element-program instruction that computes A + B. -/
  | add (eng : Engine) (w : ElemWord)
  /-- SUB (R165): Element-program instruction that computes A − B. -/
  | sub (eng : Engine) (w : ElemWord)
  /-- MUL (R165): Element-program instruction that computes A × B. -/
  | mul (eng : Engine) (w : ElemWord)
  /-- FMA (R165): Element-program instruction that computes A × B + C with one rounding. -/
  | fma (eng : Engine) (w : ElemWord)
  /-- FMS (R165): Element-program instruction that computes C − A × B with one rounding. -/
  | fms (eng : Engine) (w : ElemWord)
  /-- DIV (R166): Element-program instruction that computes A / B, correctly rounded. -/
  | div (eng : Engine) (w : ElemWord)
  /-- RECIP (R166): Element-program instruction that computes 1 / A within one last place. -/
  | recip (eng : Engine) (w : ElemWord)
  /-- SQRT (R166): Element-program instruction that computes sqrt(A), correctly rounded. -/
  | sqrt (eng : Engine) (w : ElemWord)
  /-- RSQRT (R166): Element-program instruction that computes 1 / sqrt(A). -/
  | rsqrt (eng : Engine) (w : ElemWord)
  /-- EXP2 (R166): Element-program instruction that computes 2^A. -/
  | exp2 (eng : Engine) (w : ElemWord)
  /-- LOG2 (R166): Element-program instruction that computes log2(A). -/
  | log2 (eng : Engine) (w : ElemWord)
  /-- TANH (R166): Element-program instruction that computes tanh(A). -/
  | tanh (eng : Engine) (w : ElemWord)
  /-- MAX (R166): Element-program instruction that computes max(A, B). -/
  | max (eng : Engine) (w : ElemWord)
  /-- MIN (R166): Element-program instruction that computes min(A, B). -/
  | min (eng : Engine) (w : ElemWord)
  /-- ABS (R165): Element-program instruction that computes abs(A). -/
  | abs (eng : Engine) (w : ElemWord)
  /-- NEG (R165): Element-program instruction that computes −A. -/
  | neg (eng : Engine) (w : ElemWord)
  /-- SIGN (R165): Element-program instruction that gives the sign of A. -/
  | sign (eng : Engine) (w : ElemWord)
  /-- CLAMP (R165): Element-program instruction that computes min(max(A, B), C). -/
  | clamp (eng : Engine) (w : ElemWord)
  /-- CMPLT (R166): Element-program instruction that gives 1.0 if A < B, else +0. -/
  | cmplt (eng : Engine) (w : ElemWord)
  /-- CMPEQ (R166): Element-program instruction that gives 1.0 if A = B, else +0. -/
  | cmpeq (eng : Engine) (w : ElemWord)
  /-- SEL (R165): Element-program instruction that selects B or C by A. -/
  | sel (eng : Engine) (w : ElemWord)
  /-- CVT (R167): Element-program instruction that rounds A to a target format. -/
  | cvt (eng : Engine) (w : ElemWord)
  /-- SRND (R167): Element-program instruction that rounds A to a target format with keyed stochastic rounding. -/
  | srnd (eng : Engine) (w : ElemWord)
  /-- NACC (R167): Element-program instruction that adds A × B into a norm accumulator in FP64. -/
  | nacc (eng : Engine) (w : ElemWord)
  /-- KERNEL_HANG (R95): A kernel running beyond CORE_WDOG.TICKS boundaries is declared hung, and its stable is reset. -/
  | kernelHang (core : Nat)
  /-- STABLE_RESET (R96): CORE_CTRL.STABLE_RESET resets every core of the stable and may fault the step. -/
  | stableReset (core : Nat)
  /-- CORE_BIST (R99): CORE_CTRL.BIST starts the self-test of a fenced or unused core. -/
  | coreBist (core : Nat)
  /-- BIST_COMPLETE (R99): The self-test finishes, and a pass clears FENCED while a failure keeps it. -/
  | bistComplete (core : Nat) (fail : Option Nat)
  /-- CORE_CLR_SAT (R94): CORE_CTRL.CLR_SAT clears CORE_MSAT and CORE_VSAT. -/
  | coreClrSat (core : Nat)
  /-- WATCH_PARTIAL_MERGE (R131): A SCAN or groom partial merges into its watch record at the HBM controller. -/
  | watchPartialMerge (tensor : Nat) (part : List Byte) (ecc : Ecc)
  /-- STASH_PLACE (R157): A stash context places a record instance in pages, in a loft spill, or after drops, once its barrier completes. -/
  | stashPlace (stream : Nat)
  /-- PAD_CLR_LOW (R161): HBM_PAD_CTRL.CLR_LOW sets HBM_PAD_LOW to the present free page count. -/
  | padClrLow
  /-- STEPSZ_NEXT_WRITE (R178): A write of GRM_STEPSZ_NEXT stages a step size, or is discarded when it is not finite. -/
  | stepszNextWrite (val : Nat)
  /-- STEP_NEXT_WRITE (R178): A write of GRM_STEP_NEXT arms the step pair and commits staged constants. -/
  | stepNextWrite (val : Nat)
  /-- KDATA_WRITE (R180): A write of GRM_KDATA[k] stages a constant and sets its pending bit. -/
  | kdataWrite (k : Nat) (val : Nat)
  /-- KSET_WRITE (R180): A write of GRM_KSET selects the constant set, and is discarded while values are pending. -/
  | ksetWrite (val : Nat)
  /-- STEP_START (R179): At a boundary with an armed pair and no step busy, the step starts or the pair is refused. -/
  | stepStart
  /-- GROOM_PASS_START (R174): A binding's pass begins once its WAIT barrier completes. -/
  | groomPassStart (binding : Nat)
  /-- GROOM_SLICE_PROCESS (R175): The groom unit processes the next reduced slice in schedule order and runs the program over its elements. -/
  | groomSliceProcess (unit : Nat) (ecc : Ecc)
  /-- GROOM_PASS_COMPLETE (R176): After the last slice, held runs are processed, accumulators are combined and SIGNAL is given. -/
  | groomPassComplete (unit : Nat) (ecc : Ecc)
  /-- GRM_CLR_SAT (R124): GRM_CTRL.CLR_SAT clears GRM_SAT. -/
  | grmClrSat (unit : Nat)
  /-- RECONCILE_COPY (R184): After the verdict, a ROW binding copies the touched rows from the live view to the shadow view. -/
  | reconcileCopy (binding : Nat) (ecc : Ecc)
  /-- SEND_REDUCTION_RECORD (R188): When all step work is complete, or at once on a local fault, the module sends its reduction record. -/
  | sendReductionRecord
  /-- NORM_RECORD_RECEIVED (R192): A node combines a child's reduction record and forwards it up the tree. -/
  | normRecordReceived
  /-- VERDICT_RECEIVED (R195): A module receives the root's verdict record and schedules its verdict actions for a boundary guard. -/
  | verdictReceived
  /-- VERDICT_ACTIONS (R201): In the boundary guard the module carries out the verdict's actions on banks, residual, ledger, watch, norms and paddock. -/
  | verdictActions (ecc : Ecc)
  /-- VERDICT_TIMEOUT (R197): No verdict within VERDICT_TICKS makes the module take FAULT. -/
  | verdictTimeout
  /-- DEFERRED_PASS (R209): A deferred binding applies the checked ledger entries of step m − D during step m. -/
  | deferredPass (binding : Nat) (ecc : Ecc)
  /-- DRAIN_PASS (R211): While a plate change is pending, drain passes apply every committed ledger step not yet applied. -/
  | drainPass (ecc : Ecc)
  /-- PATROL_SCRUB (R250): The periodic patrol scrub reads every sector of every stack, correcting as it goes. -/
  | patrolScrub (ecc : Ecc)
  /-- HBM_STACK_DOWN (R253): A controller that loses its stack marks it FAILED and poisons every later access. -/
  | hbmStackDown (stack : Nat) (training : Bool)
  /-- LOFT_LINK_DOWN (R264): A CXL port losing its link holds its requests and retrains. -/
  | loftLinkDown (port : Nat) (held : List LoftReq)
  /-- LOFT_LINK_RETURN (R264): After retraining, the held loft requests are reissued in order. -/
  | loftLinkReturn (port : Nat)
  /-- LOFT_LINK_LOST (R264): A link not back within 500 µs poisons the held reads, discards the held writes and keeps the port DOWN. -/
  | loftLinkLost (port : Nat)
  /-- LOFT_RETRAIN (R264): LFT_CTRL.RETRAIN retrains a CXL port. -/
  | loftRetrain (port : Nat) (width : Nat) (speed : Nat)
  /-- LFT_CFG_WRITE (R263): A write of the loft mode is discarded whole when its SET is invalid for the part. -/
  | lftCfgWrite (val : Nat)
  /-- LOFT_POISON (R265): A poisoned CXL data response is treated as a poisoned sector. -/
  | loftPoison (port : Nat) (addr : Nat) (inStep : Bool)
  /-- LOFT_VIRAL (R265): A viral indication poisons every later read from the port. -/
  | loftViral (port : Nat)
  /-- LOFT_DEV_EVENT (R262): The management firmware reads an expander event record and raises an event. -/
  | loftDevEvent (port : Nat) (log : Nat) (head : Nat)
  /-- POOL_MOVE_UP (R268): A move-up request pins a pool object, allocating pages and reading it from the loft if needed. -/
  | poolMoveUp (home : Nat) (user : Nat)
  /-- POOL_UNPIN (R268): A user unpins an object, resetting its age and starting the write-back of written deferred objects. -/
  | poolUnpin (home : Nat) (user : Nat)
  /-- MOVE_UP_COMPLETE (R267): The loft read of a MOVING_UP object completes, and the object becomes HBM, pinned. -/
  | moveUpComplete (home : Nat) (ecc : Ecc)
  /-- WRITEBACK_COMPLETE (R267): The write-back of an EVICTING object completes, and the object becomes LOFT. -/
  | writebackComplete (home : Nat) (ecc : Ecc)
  /-- POOL_EXHAUSTED (R270): A move-up that has waited LFT_POOL_WAIT ticks is withdrawn and faults the step. -/
  | poolExhausted (home : Nat) (user : Nat)
  /-- REMOTE_WRITE (R249): A WRITE transfer from another module is applied to a PLAIN or SHED region, or refused. -/
  | remoteWrite (ecc : Ecc)
  /-- READ_REQ (R336): The link die serves a remote READ_REQ and returns READ_RESP flits. -/
  | readReq (ecc : Ecc)
  /-- READ_RESP (R336): READ_RESP data arrives for an outstanding remote read. -/
  | readResp
  /-- STREAM_TILE_START (R280): A stream context starts a tile once its predecessor, window, barrier and step conditions hold. -/
  | streamTileStart (stream : Nat) (ecc : Ecc)
  /-- STREAM_TILE_DELIVERED (R280): All of a tile's bytes are accepted, its window becomes READY and its signal is given. -/
  | streamTileDelivered (stream : Nat) (ecc : Ecc)
  /-- ETCH_BLOCK_EXPAND (R299): The expander checks, decrypts and decodes one staged etched block. -/
  | etchBlockExpand (engine : Nat) (ecc : Ecc)
  /-- DECODE_TABLE_LOAD (R304): STM_TBL_CMD.LOAD loads a decode table into the non-current slot of the selected engines. -/
  | decodeTableLoad (ecc : Ecc)
  /-- DECODE_TABLE_SWITCH (R304): At the next boundary, an accepted table slot becomes current. -/
  | decodeTableSwitch (engine : Nat)
  /-- STM_CLR_SAT (R301): STM_CTRL.CLR_SAT clears STM_XSAT. -/
  | stmClrSat (engine : Nat)
  /-- PROBE_TIMER (R308): A DOWN port sends training frames for 100 µs in every 10 ms. -/
  | probeTimer (port : Nat)
  /-- SIGNAL_DETECTED (R308): A DOWN port that detects a neighbour's signal starts TRAINING. -/
  | signalDetected (port : Nat)
  /-- TRAINING_END (R321): Training ends with the port in QUARANTINE at x8 or x4, or FAILED. -/
  | trainingEnd (port : Nat) (lanes : Nat) (failed : Nat) (delay : Nat)
  /-- FLIT_RECEIVED (R314): The link layer checks a received flit, accepts or NAKs it, and takes its ACK and credits. -/
  | flitReceived (port : Nat) (f : FlitIn)
  /-- LINK_RETRY_TIMEOUT (R315): After 2 µs without acknowledgement, the transmitter retransmits from the oldest unacknowledged flit. -/
  | linkRetryTimeout (port : Nat)
  /-- CREDIT_WAIT_LONG (R313): Flits waiting without credit for more than 100 µs raise an event. -/
  | creditWaitLong (port : Nat) (cls : Nat) (vl : Nat) (us : Nat)
  /-- CONTROL_FLIT_RECEIVED (R323): A CONTROL flit updates the neighbour's identity, epoch and hash, and confirms or drops ACTIVE. -/
  | controlFlitReceived (port : Nat) (body : CtlRec)
  /-- MARK_RECEIVED (R317): The neighbour's marked flit arrives, and the port records its arrival and echoes it. -/
  | markReceived (port : Nat) (arrival : Int) (phase : Nat) (count : Nat) (period : Nat)
  /-- ECHO_RECEIVED (R318): The echo arrives, and the port computes the one-way delay and offset. -/
  | echoReceived (port : Nat) (arrival : Int) (turn : Nat)
  /-- LANE_FAILURE (R328): A lane failure in one half takes the port into RETRAIN at x4. -/
  | laneFailure (port : Nat) (lanes : Nat) (why : LaneFault)
  /-- RETRAIN_COMPLETE (R321): x4 training completes, and the port returns to ACTIVE and retransmits. -/
  | retrainComplete (port : Nat) (lastAccepted : Nat)
  /-- RETRAIN_TIMEOUT (R321): x4 not trained within 400 µs takes the port DOWN. -/
  | retrainTimeout (port : Nat)
  /-- PORT_LINK_LOSS (R329): A loss of both halves, or the end of retry, takes the port DOWN and reroutes its flits. -/
  | portLinkLoss (port : Nat) (cause : Nat)
  /-- PORT_RESET (R327): FAB_CTRL.RESET reroutes, discards the retry buffer, and retrains the port. -/
  | portReset (port : Nat)
  /-- TEST_START (R320): FAB_CTRL.TEST_START sends TEST flits and clears the test counts. -/
  | testStart (port : Nat)
  /-- TEST_STOP (R320): FAB_CTRL.TEST_STOP stops TEST flits. -/
  | testStop (port : Nat)
  /-- E2E_ACK (R335): An E2E_ACK advances the originator's acknowledged point for a flow. -/
  | e2eAck
  /-- E2E_ACK_DUE (R335): Within 2 µs of the oldest unacknowledged applied flit, the destination sends E2E_ACK. -/
  | e2eAckDue (src : Nat) (cls : Nat)
  /-- E2E_TIMEOUT (R335): After 100 µs without acknowledgement, the originator retransmits the flow's unacknowledged flits. -/
  | e2eTimeout (dest : Nat) (cls : Nat)
  /-- EXCHANGE (R347): A gradient exchange reads its slices, accumulates or compresses them, and sums and delivers the results. -/
  | exchange (op : Nat) (ecc : Ecc)
  /-- ROWS (R354): A row exchange checks, sums and delivers the union of the listed rows. -/
  | rows (op : Nat) (ecc : Ecc)
  /-- ALLREDUCE (R355): A plain all-reduction of data is written to DATA on the members. -/
  | allreduce (op : Nat) (ecc : Ecc)
  /-- FENCE (R356): A fence exchanges tokens and signals DONE when every token has arrived. -/
  | fence (op : Nat)
  /-- COLL_FLIT (R359): A receiving reducer applies, holds or discards a COLL flit by its step and attempt. -/
  | collFlit (ecc : Ecc)
  /-- COL_CLR_SAT (R339): COL_RCTRL.CLR_SAT clears COL_RSAT. -/
  | colClrSat (reducer : Nat)
  /-- HOST_LINK_TRAINED (R362): The PCIe link trains to the best common width and rate. -/
  | hostLinkTrained (width : Nat) (speed : Nat)
  /-- FLR (R366): A Function Level Reset causes a function reset. -/
  | flr
  /-- HOT_RESET (R366): A PCIe hot reset causes a function reset. -/
  | hotReset
  /-- DL_DOWN (R366): A DL_Down causes a function reset. -/
  | dlDown
  /-- PERST_ASSERT (R449): PERST# assertion holds a fundamental reset, or enters OFF from SLEEP. -/
  | perstAssert
  /-- PERST_DEASSERT (R366): PERST# deassertion runs the start-up and releases the host interface within 900 ms. -/
  | perstDeassert (boot : Boot)
  /-- POWER_APPLIED (R424): Input power starts a cold reset with rails, self-test, training and the boot chain. -/
  | powerApplied (boot : Boot)
  /-- BAR2_BASE_WRITE (R370): A TOP_BAR2_BASE write sets the window base, or is discarded with BASE_BAD. -/
  | bar2BaseWrite (hi : Bool) (val : Nat)
  /-- BAR2_RESIZE (R370): A Resizable BAR change sets the BAR2 size and clears TOP_BAR2_BASE. -/
  | bar2Resize (lg : Nat)
  /-- RING_CTRL_WRITE (R372): An EVT_RING_CTRL write acts field by field on COALESCE_US, ENABLE and LOG2_SIZE. -/
  | ringCtrlWrite (val : Nat)
  /-- RING_ADDR_WRITE (R372): A write of EVT_RING_BASE or EVT_SHADOW is discarded with RING_BUSY while the ring is enabled. -/
  | ringAddrWrite (off : Nat) (val : Nat)
  /-- RING_CONS_WRITE (R374): A host EVT_RING_CONS write frees ring space, or is discarded with CONS_BAD. -/
  | ringConsWrite (val : Nat)
  /-- EVENT_PRODUCED (R488): The event unit accepts a record, assigns its ALIVE and logs it, or drops it beyond the tick limit. -/
  | eventProduced
  /-- RING_RECORD_WRITE (R373): When the ring has room, a queued record is written, and the producer shadow is updated. -/
  | ringRecordWrite
  /-- EVENT_DROPPED (R375): At the first boundary after drops, the event unit produces an EVENT_DROPPED record. -/
  | eventDropped
  /-- COALESCE_EXPIRY (R378): At the end of the coalescing interval, a pending class vector is sent. -/
  | coalesceExpiry (cls : Nat)
  /-- MSIX_UNMASK (R377): Unmasking a vector with its pending bit set sends the message. -/
  | msixUnmask (what : Unmask)
  /-- LOG_ACK_WRITE (R490): An EVT_LOG_ACK write marks log records as read, or is discarded when it moves backward. -/
  | logAckWrite (val : Nat)
  /-- DOE_REQUEST (R379): The DOE mailbox accepts a request object, or discards it with DOE Error. -/
  | doeRequest (protocol : Nat) (object : List Byte)
  /-- DOE_ABORT (R379): A DOE Abort discards the object in progress. -/
  | doeAbort
  /-- GET_INFO (R398): The attestation command returns identity, versions and signature counts. -/
  | getInfo (via : AttPath)
  /-- GET_ENDORSEMENT (R401): The attestation command returns the endorsement record. -/
  | getEndorsement (via : AttPath)
  /-- GET_MEASUREMENTS (R397): The attestation command returns M0 to M7 and the measurement log. -/
  | getMeasurements (via : AttPath)
  /-- GET_QUOTE (R399): The attestation command signs a quote over the nonce, or answers BUSY, REFUSED or EXHAUSTED. -/
  | getQuote (via : AttPath) (nonce : List Byte) (wait : Nat)
  /-- GET_KEM_KEY (R393): The attestation command returns the ML-KEM encapsulation key. -/
  | getKemKey (via : AttPath)
  /-- LOAD_KEY (R405): The attestation command decapsulates and unwraps a content key for a key slot. -/
  | loadKey (via : AttPath) (slot : Nat) (ciphertext : List Byte) (iv : List Byte) (wrapped : List Byte)
  /-- CLEAR_KEY (R405): The attestation command clears a key slot, or answers KEY_BUSY during a step. -/
  | clearKey (via : AttPath) (slot : Nat)
  /-- KEY_SLOT_APPLY (R405): At the next tick boundary an accepted content key takes effect. -/
  | keySlotApply
  /-- MCTP_CONTROL (R380): An MCTP control message is served for discovery, EID assignment and version support. -/
  | mctpControl (sideband : Bool) (req : MctpReq)
  /-- PLDM_MONITORING (R380): A PLDM monitoring message reads sensors or sets the power cap. -/
  | pldmMonitoring (sideband : Bool) (req : PldmReq)
  /-- EVENT_LOG_READ (R490): The BMC reads and acknowledges management log records through the vendor-defined message. -/
  | eventLogRead (sideband : Bool) (index : Nat) (ack : Option Nat)
  /-- FWU_BEGIN (R414): The command opens a firmware update session, or is refused with BUSY. -/
  | fwuBegin (path : Path)
  /-- FWU_HEADER (R415): The command presents and checks an image header. -/
  | fwuHeader (path : Path) (data : List Byte)
  /-- FWU_LIST (R415): The command presents and checks the block hash list. -/
  | fwuList (path : Path) (data : List Byte)
  /-- FWU_BLOCK (R415): The command presents, checks and stores one block record. -/
  | fwuBlock (path : Path) (data : List Byte)
  /-- FWU_END (R417): The command finishes checks and compatibility, and marks the slot TRIAL. -/
  | fwuEnd (path : Path)
  /-- FWU_ACTIVATE (R419): The command performs a soft reset into the TRIAL slot, or is refused while a plate is active. -/
  | fwuActivate (path : Path) (boot : Boot)
  /-- FWU_ABORT (R414): The command ends the session and discards what it wrote. -/
  | fwuAbort (path : Path)
  /-- NONCE (R410): The command draws a fresh 32-byte nonce into SEC_NONCE. -/
  | nonce (path : Path)
  /-- NONCE_EXPIRY (R410): A nonce lapses 600 s after it was drawn. -/
  | nonceExpiry
  /-- DBG_UNLOCK (R408): The command checks a debug token and opens OWNER or VENDOR debug. -/
  | dbgUnlock (path : Path) (token : List Byte)
  /-- DBG_RELOCK (R409): The command ends the debug unlock. -/
  | dbgRelock (path : Path)
  /-- UNLOCK_EXPIRY (R409): A debug unlock ends when its DURATION runs out. -/
  | unlockExpiry
  /-- SET_POLICY (R407): The command applies a checked policy record at once. -/
  | setPolicy (path : Path) (record : List Byte)
  /-- FW_CONFIRM (R420): A TRIAL boot with all self-tests passed and a proof OK becomes CONFIRMED, and SVN fuses are blown. -/
  | fwConfirm
  /-- FW_CONFIRM_TIMEOUT (R420): A trial window ending unconfirmed sets CONFIRM_TIMEOUT. -/
  | fwConfirmTimeout
  /-- SUPPLY_WARN_ASSERT (R432): The warning detector asserts, and the floor setting and P1 budget apply within 2 µs. -/
  | supplyWarnAssert (mv : Nat)
  /-- SUPPLY_WARN_CLEAR (R432): The warning detector clears, the 1 ms hold begins, and SUPPLY_WARN is raised. -/
  | supplyWarnClear (mv : Nat) (us : Nat)
  /-- WARN_HOLD_EXPIRY (R432): At the end of the hold, the budget ramps back to the active budget over 2 ms. -/
  | warnHoldExpiry
  /-- SUPPLY_PARK (R433): A warning lasting more than 20 ms stops new steps and requests PARK. -/
  | supplyPark (mv : Nat)
  /-- SUPPLY_RESET_ASSERT (R434): The reset detector asserts, and a cold reset begins at once. -/
  | supplyResetAssert (mv : Nat)
  /-- TEMP_SAMPLE (R435): The 100 µs temperature reading is compared with the throttle and critical levels. -/
  | tempSample (sensor : Nat) (degC : Int)
  /-- THERMAL_STEP_TIMER (R436): Every 1 ms over the throttle level, or every 10 ms below it, the budget moves by one sixteenth. -/
  | thermalStepTimer
  /-- THERMTRIP (R438): A sensor above its trip level asserts THERMTRIP_N and turns every rail off. -/
  | thermtrip (sensor : Nat) (degC : Int)
  /-- PROFILE_REQUEST (R430): A power-profile request is applied at the next boundary, or refused. -/
  | profileRequest (path : Path) (req : Nat)
  /-- CAP_WRITE (R430): A PWR_CAP write sets the power cap, or is discarded for values from 1 to 899. -/
  | capWrite (path : Path) (watts : Nat)
  /-- DEFAULT_PROFILE_WRITE (R430): A PWR_DEFAULT write sets the persistent profile and cooling, under the refusal rules. -/
  | defaultProfileWrite (path : Path) (val : Nat)
  /-- PARK_REQUEST (R446): PWR_STATE_REQ = PARK requests PARK at the next boundary with no step busy. -/
  | parkRequest (path : Path)
  /-- PARK_ENTRY (R446): The module gates cores, self-refreshes HBM and takes every fabric port DOWN. -/
  | parkEntry
  /-- ACTIVE_REQUEST (R447): PWR_STATE_REQ = ACTIVE leaves PARK, unless a warning or critical level is present. -/
  | activeRequest (path : Path)
  /-- FABRIC_WAKE (R447): Training frames on an active port leave PARK when FABRIC_WAKE is set. -/
  | fabricWake (port : Nat)
  /-- IDLE_ENTRY (R445): After IDLE_TICKS boundaries without a step, the module enters IDLE. -/
  | idleEntry
  /-- SOFT_RESET (R442): PWR_CTRL.SOFT_RESET or a BMC reset request runs the boot chain and reinitialises every non-MG unit. -/
  | softReset (path : Path) (key : Nat) (boot : Boot)
  /-- D3HOT_ENTRY (R448): The host's D3hot write places the module in SLEEP. -/
  | d3hotEntry
  /-- D0_ENTRY (R448): The host's D0 write returns the module to IDLE within 60 ms. -/
  | d0Entry
  /-- BMC_WAKE_REQUEST (R448): In SLEEP, a BMC wake request asserts WAKE#. -/
  | bmcWakeRequest
  /-- WAKE_TIMEOUT (R448): WAKE# is released after 1 s without a D0 write. -/
  | wakeTimeout
  /-- MGMT_WATCHDOG (R444): After 10 ms without service, the management firmware restarts within 200 µs. -/
  | mgmtWatchdog (core : Nat)
  /-- DBG_HALT (R455): DBG_HALT_CTRL HALT stops the addressed cores or the device at the next kernel boundary. -/
  | dbgHalt (scope : Nat) (target : Nat)
  /-- DBG_RESUME (R457): DBG_HALT_CTRL RESUME releases the addressed cores and units. -/
  | dbgResume (scope : Nat) (target : Nat)
  /-- DBG_STEP (R457): DBG_HALT_CTRL STEP runs one kernel on each addressed halted core. -/
  | dbgStep (scope : Nat) (target : Nat)
  /-- DBG_MEM_READ (R460): DBG_MEM READ reads one 64-byte sector from the chosen space. -/
  | dbgMemRead (ecc : Ecc)
  /-- DBG_MEM_WRITE (R460): DBG_MEM WRITE writes one 64-byte sector to the chosen space. -/
  | dbgMemWrite (ecc : Ecc)
  /-- FRZ_N_ASSERT (R461): FRZ_N passing its filter stops the functional clocks at the freeze edge. -/
  | frzNAssert
  /-- FRZ_CTRL_FREEZE (R461): DBG_FRZ_CTRL.FREEZE produces the same freeze under unlock. -/
  | frzCtrlFreeze
  /-- READOUT_READY (R462): The freeze readout becomes ready, DBG_STATUS.FROZEN is set and FROZEN is raised. -/
  | readoutReady
  /-- FRZ_MEMREAD (R464): DBG_FRZ_CTRL.MEMREAD restarts the yard, memory dies and CXL ports for memory reads. -/
  | frzMemread
  /-- TRACE_START (R466): DBG_TRACE_CTRL.START clears the trace buffer and starts the trace. -/
  | traceStart
  /-- TRACE_STOP (R466): DBG_TRACE_CTRL.STOP stops the trace. -/
  | traceStop
  /-- IDCODE (R453): The TAP instruction selects the 32-bit IDCODE register. -/
  | idcode
  /-- SAMPLE_PRELOAD (R453): The TAP instruction samples or preloads the boundary register. -/
  | samplePreload
  /-- EXTEST (R454): The TAP instruction drives the boundary register while PERST# is asserted, and otherwise acts as BYPASS. -/
  | extest
  /-- TAP_CLAMP (R454): The TAP CLAMP instruction holds the boundary outputs while PERST# is asserted. -/
  | tapClamp
  /-- HIGHZ (R454): The TAP instruction tri-states the boundary outputs while PERST# is asserted. -/
  | highz
  /-- DBG_ACCESS (R454): At Update-DR the TAP makes one BAR0 access and reports it at the next Capture-DR. -/
  | dbgAccess (write : Bool) (off : Nat) (data : Nat)
  /-- BYPASS (R453): The TAP instruction selects the 1-bit bypass register. -/
  | bypass
  /-- TAP_RESET (R453): TRST_N resets the TAP controller alone. -/
  | tapReset
  /-- CHK_START (R389): CHK_CTRL.START starts a host check job, or is refused on a busy or plate-owned unit. -/
  | chkStart (unit : Nat) (ecc : Ecc)
  /-- CHK_ABORT (R389): CHK_CTRL.ABORT ends a host job with outcome ABORTED. -/
  | chkAbort (unit : Nat)
  /-- CHK_PLATE_JOB_START (R390): A plate check job starts once per step when its START barrier completes. -/
  | chkPlateJobStart (job : Nat) (ecc : Ecc)
  /-- CHK_JOB_COMPLETE (R388): A check job ends with its outcome, result and MSI-X vector. -/
  | chkJobComplete (unit : Nat)
  /-- FLIT_SLOT (R312): At each 1.28 ns flit slot a port's transmitter sends the first ready of retransmission, CTL, SCH, BE or IDLE, with the BE turn after 63 waiting slots, and carries any MARK, ECHO, ACK and credits. -/
  | flitSlot (port : Nat) (phase : Nat) (turn : Nat)
  /-- FRZ_N_DEASSERT (R465): FRZ_N rising clears DBG_STATUS.FRZ_PIN and does not thaw the device, and it withdraws a freeze not yet honoured. -/
  | frzNDeassert
  /-- RAIL_FAULT (R424): A rail leaving regulation deasserts PWR_GOOD within 5 µs. -/
  | railFault
  /-- EXPANDER_HOT_ADD (R262): An expander attached to a CXL port trains it while no plate is active, and is refused and kept DOWN while a plate is active. -/
  | expanderHotAdd (port : Nat) (capacity : Nat) (width : Nat) (speed : Nat) (ok : Bool)
  /-- I3C_ADDRESS_ASSIGN (R477): The I3C bus owner assigns the module a dynamic address in place of its static address. -/
  | i3cAddressAssign (addr : Nat)
deriving DecidableEq, Repr

end Sys2Proof
end

