-- ==== Sys2Proof/Machine/Crc.lean ====
section
/-! DEFINITION. The check values of 15_check_units.md R383 (CRC-32C and CRC-64) and the SHA-256 digest that plates, run
tags, measurements and images use. -/

namespace Sys2Proof.Machine

/-- One bit of a reflected CRC register of any width. -/
def crcBit (poly c : Nat) : Nat := if c % 2 = 1 then c / 2 ^^^ poly else c / 2

/-- Take one byte, least significant bit first (R383). -/
def crcByte (poly c : Nat) (b : Byte) : Nat :=
  let c0 := c ^^^ b.toNat
  crcBit poly (crcBit poly (crcBit poly (crcBit poly (crcBit poly (crcBit poly (crcBit poly (crcBit poly c0)))))))

/-- The reflected polynomials of Table 15-1. -/
def crc32cPoly : Nat := 0x82F63B78
/-- The reflected CRC-64 polynomial of Table 15-1. -/
def crc64Poly : Nat := 0xC96C5795D7870F42

/-- The register after a run of bytes, no initial value and no final exclusive-or (R384: a job continues from it). -/
def crcRun (poly c : Nat) (bs : List Byte) : Nat := bs.foldl (crcByte poly) c

/-- CRC-32C of a run of bytes (R383). -/
def crc32c (bs : List Byte) : Nat := crcRun crc32cPoly 0xFFFFFFFF bs ^^^ 0xFFFFFFFF

/-- CRC-64 of a run of bytes (R383). -/
def crc64 (bs : List Byte) : Nat := crcRun crc64Poly 0xFFFFFFFFFFFFFFFF bs ^^^ 0xFFFFFFFFFFFFFFFF

/-- Little-endian value of a run of bytes. -/
def leNat : List Byte → Nat
  | [] => 0
  | b :: bs => b.toNat + 256 * leNat bs

/-- `n` little-endian bytes of a value. -/
def leBytes : Nat → Nat → List Byte
  | 0, _ => []
  | n + 1, v => BitVec.ofNat 8 v :: leBytes n (v / 256)

/-- The eight words of a 256-bit number, its most significant 32 bits first. -/
def wordsOf (n : Nat) : List Word := (List.range 8).map (fun i => BitVec.ofNat 32 (n / 2 ^ (32 * (7 - i))))

/-- The round constants of SHA-256 (FIPS 180-4), eight to a row. -/
def shaRows : List Nat :=
  [0x428a2f9871374491b5c0fbcfe9b5dba53956c25b59f111f1923f82a4ab1c5ed5,
   0xd807aa9812835b01243185be550c7dc372be5d7480deb1fe9bdc06a7c19bf174,
   0xe49b69c1efbe47860fc19dc6240ca1cc2de92c6f4a7484aa5cb0a9dc76f988da,
   0x983e5152a831c66db00327c8bf597fc7c6e00bf3d5a7914706ca635114292967,
   0x27b70a852e1b21384d2c6dfc53380d13650a7354766a0abb81c2c92e92722c85,
   0xa2bfe8a1a81a664bc24b8b70c76c51a3d192e819d6990624f40e3585106aa070,
   0x19a4c1161e376c082748774c34b0bcb5391c0cb34ed8aa4a5b9cca4f682e6ff3,
   0x748f82ee78a5636f84c878148cc7020890befffaa4506cebbef9a3f7c67178f2]

/-- The round constants of SHA-256, one to a round. -/
def shaK : List Word := shaRows.flatMap wordsOf

/-- SHA-256 initial hash value. -/
def shaInit : List Word := wordsOf 0x6a09e667bb67ae853c6ef372a54ff53a510e527f9b05688c1f83d9ab5be0cd19

/-- Right rotation of a word. -/
def rotr (x : Word) (n : Nat) : Word := (x >>> n) ||| (x <<< (32 - n))

/-- The next message-schedule word from the last sixteen, newest first. -/
def shaNextW (w : List Word) : Word :=
  let a := w.getD 1 0
  let b := w.getD 14 0
  let s1 := rotr a 17 ^^^ rotr a 19 ^^^ (a >>> 10)
  let s0 := rotr b 7 ^^^ rotr b 18 ^^^ (b >>> 3)
  s1 + w.getD 6 0 + s0 + w.getD 15 0

/-- Extend the message schedule by `n` words; newest first. -/
def shaExpand : Nat → List Word → List Word
  | 0, w => w
  | n + 1, w => shaExpand n (shaNextW w :: w)

/-- One round on the eight working words. -/
def shaRound (v : List Word) (kw : Word × Word) : List Word :=
  match v with
  | [a, b, c, d, e, f, g, h] =>
    let s1 := rotr e 6 ^^^ rotr e 11 ^^^ rotr e 25
    let ch := (e &&& f) ^^^ (~~~e &&& g)
    let t1 := h + s1 + ch + kw.1 + kw.2
    let s0 := rotr a 2 ^^^ rotr a 13 ^^^ rotr a 22
    let mj := (a &&& b) ^^^ (a &&& c) ^^^ (b &&& c)
    [t1 + s0 + mj, a, b, c, d + t1, e, f, g]
  | _ => v

/-- Big-endian words of a run of bytes. -/
def beWords : List Byte → List Word
  | a :: b :: c :: d :: r => (a ++ b ++ c ++ d : BitVec 32) :: beWords r
  | _ => []

/-- Compress one 64-byte block into the hash value. -/
def shaBlock (h : List Word) (blk : List Byte) : List Word :=
  let w := (shaExpand 48 (beWords blk).reverse).reverse
  let v := (shaK.zip w).foldl shaRound h
  List.zipWith (· + ·) h v

/-- Compress `n` blocks. -/
def shaBlocks : Nat → List Word → List Byte → List Word
  | 0, h, _ => h
  | n + 1, h, bs => shaBlocks n (shaBlock h (bs.take 64)) (bs.drop 64)

/-- `n` big-endian bytes of a value. -/
def beBytes (n v : Nat) : List Byte := (leBytes n v).reverse

/-- SHA-256 of a run of bytes (FIPS 180-4), as 32 bytes. -/
def sha256 (bs : List Byte) : List Byte :=
  let l := bs.length
  let padded := bs ++ [0x80] ++ List.replicate ((119 - l % 64) % 64) 0 ++ beBytes 8 (8 * l)
  (shaBlocks (padded.length / 64) shaInit padded).flatMap (fun w => beBytes 4 w.toNat)

end Sys2Proof.Machine
end

