-- ==== Sys2Proof/Config.lean ====
section
/-! DEFINITION. What one implementation fixes and the spec leaves open: constants without a body (free values), which no
proof can look into. -/

namespace Sys2Proof.Config

/-- TOP_ID.REV, the silicon revision (14_host_interface.md: "per silicon"). -/
opaque revision : BitVec 8

/-- The choice RECIP, RSQRT, EXP2, LOG2 and TANH make among the results that lie within one last place of the exact
value (07_groom_units.md R166): a fixed function of the operation and of its operand's sign, significand and exponent. -/
opaque sfuPick : Nat → Bool → Nat → Int → Nat

/-- What a byte of a memory reads as while its content has no defined value (00_scope.md R17; 17_power_reset.md Table
17-7): a function of the epoch (which a reset that makes contents undefined advances), the space and the address. -/
opaque undefByte : Nat → Nat → Nat → Byte

/-- The UID fuses (16_security_and_update.md Table 16-1). -/
opaque uid : BitVec 64

/-- The VENDOR_PK_HASH fuses (Table 16-1). -/
opaque vendorPkHash : List Byte

/-- The vendor HSS public key that VENDOR_PK_HASH is the hash of (R392, R396): records and tokens do not carry it. -/
opaque vendorKey : List Byte

/-- The ROM version digest of R397. -/
opaque romDigest : List Byte

/-- HSS/LMS verification (R392): public key, message, signature. -/
opaque hssVerify : List Byte → List Byte → List Byte → Bool

/-- The device attestation signature of index q over a message (R392, R402). -/
opaque attSign : Nat → List Byte → List Byte

/-- The endorsement record with the vendor's signature (R401). -/
opaque endorsement : List Byte

/-- AES-256-GCM opening (R405, R412): key, IV, additional data, ciphertext followed by its tag; none where the tag fails. -/
opaque gcmOpen : List Byte → List Byte → List Byte → List Byte → Option (List Byte)

/-- The FW_KEY fuses (Table 16-1). -/
opaque fwKey : List Byte

/-- The ML-KEM-1024 encapsulation key of the pair with this serial number (R393). -/
opaque kemKey : Nat → List Byte

/-- ML-KEM-1024 decapsulation under the pair with this serial number (R405); none where it fails. -/
opaque kemDecap : Nat → List Byte → Option (List Byte)

/-- What an empty key slot holds as AES key bytes (11_streams.md R298 names no result for a block under one), by slot. -/
opaque emptyKey : Nat → List Byte

/-- The draws of the CTR_DRBG (R393, R410): 32 bytes by draw number. -/
opaque drbg : Nat → List Byte

/-- The governor's per-eighth energy estimate (17_power_reset.md R428): eighths to take for an excess, by energy and B. -/
opaque eighths : Nat → Nat → Nat

/-- The layout of YARD_ROUTES, which the spec does not give: the first byte offset of a record that reserves a yard link
above 95 % in some frame, for a section's bytes (Table 02-4 code 0x0E). -/
opaque yardOver : List Byte → Option Nat

/-- The implementation section of the readout image of a die (18_debug.md R463), by die and the tick of the freeze. -/
opaque readoutImpl : Nat → Nat → List Byte

/-- The boundary register's cells as the pins drive them (18_debug.md R453), by sampling number. -/
opaque boundaryCells : Nat → Nat

/-- A value the spec leaves open where a machine goes on, by the number of such values taken before (the state's `fresh`). -/
opaque freeWord : Nat → Nat

end Sys2Proof.Config
end

