-- ==== Sys2Proof/Machine/Kv.lean ====
section
/-! DEFINITION. Sparse tables keyed by a natural number, kept as a list of pairs whose keys strictly rise. Registers,
memory bytes, cores, stables, ports and the like are such tables; an unlisted key has the value its owner names. -/

namespace Sys2Proof.Machine

/-- A sparse table: pairs of a key and a value, keys strictly rising. -/
abbrev Kv (α : Type) := List (Nat × α)

/-- The value listed at key `k`. -/
def kvGet? {α : Type} : Kv α → Nat → Option α
  | [], _ => none
  | (k', v) :: m, k => if k = k' then some v else kvGet? m k

/-- The value listed at key `k`, or `d` where none is. -/
def kvGetD {α : Type} (m : Kv α) (k : Nat) (d : α) : α := (kvGet? m k).getD d

/-- List `v` at key `k`, in key order, replacing what was listed there. -/
def kvSet {α : Type} : Kv α → Nat → α → Kv α
  | [], k, v => [(k, v)]
  | (k', v') :: m, k, v =>
    if k < k' then (k, v) :: (k', v') :: m
    else if k = k' then (k, v) :: m
    else (k', v') :: kvSet m k v

/-- List nothing at key `k`. -/
def kvDel {α : Type} (m : Kv α) (k : Nat) : Kv α := m.filter (fun e => e.1 ≠ k)

/-- Keep the entries whose key satisfies `p`. -/
def kvKeep {α : Type} (m : Kv α) (p : Nat → Bool) : Kv α := m.filter (fun e => p e.1)

/-- Every key of `m` lies above `k`, and the keys of `m` strictly rise. -/
def kvWfFrom {α : Type} : Nat → Kv α → Bool
  | _, [] => true
  | k, (k', _) :: m => decide (k < k') && kvWfFrom k' m

/-- The canonical form of a sparse table: strictly rising keys. -/
def kvWf {α : Type} : Kv α → Bool
  | [] => true
  | (k, _) :: m => kvWfFrom k m

/-- A set of natural numbers, kept as a strictly rising list. -/
abbrev NatSet := List Nat

/-- Add `k` to the set. -/
def setAdd : NatSet → Nat → NatSet
  | [], k => [k]
  | k' :: m, k => if k < k' then k :: k' :: m else if k = k' then k :: m else k' :: setAdd m k

/-- Take `k` out of the set. -/
def setDel (m : NatSet) (k : Nat) : NatSet := m.filter (fun x => x ≠ k)

/-- Every member of `m` lies above `k`, and the members strictly rise. -/
def setWfFrom : Nat → NatSet → Bool
  | _, [] => true
  | k, k' :: m => decide (k < k') && setWfFrom k' m

/-- The canonical form of a set: strictly rising members. -/
def setWf : NatSet → Bool
  | [] => true
  | k :: m => setWfFrom k m

end Sys2Proof.Machine
end

