-- ==== Sys2Proof/Machine/Memory.lean ====
section
/-! DEFINITION. One byte-addressed memory: the bytes listed, in canonical form, and the epoch of its undefined content.
A byte that is not listed has no defined value and reads as the free value of its place and epoch. -/

namespace Sys2Proof.Machine

/-- The spaces a memory may be: what tells the free values of two memories apart. -/
inductive MemSpace where
  | hbm | loft | sram | acc
deriving DecidableEq, Repr

/-- Number of a space, for the free value. -/
def MemSpace.code : MemSpace → Nat
  | .hbm => 0 | .loft => 1 | .sram => 2 | .acc => 3

/-- A memory: listed bytes by address; how often a reset made the content undefined; the poisoned units (64-byte sectors
of HBM and loft, 10_memory_tiers.md R251; 4-byte words of SRAM, 03_cores.md R97). -/
structure Memory where
  space : MemSpace
  cells : Kv Byte
  epoch : Nat
  poison : NatSet
deriving DecidableEq, Repr

/-- What an unlisted byte reads as: a free value (17_power_reset.md Table 17-7, "Undefined"). -/
def Memory.undef (m : Memory) (a : Nat) : Byte := Config.undefByte m.epoch m.space.code a

/-- The byte at address `a`. -/
def Memory.get (m : Memory) (a : Nat) : Byte := (kvGet? m.cells a).getD (m.undef a)

/-- Store one byte, in canonical form: a byte equal to what an unlisted address reads as is not listed. -/
def Memory.set (m : Memory) (a : Nat) (v : Byte) : Memory :=
  { m with cells := if v = m.undef a then kvDel m.cells a else kvSet m.cells a v }

/-- The canonical form of a memory: addresses strictly rise, no entry equals what an unlisted address reads as, and the
poisoned units strictly rise. -/
def Memory.wf (m : Memory) : Bool :=
  kvWf m.cells && m.cells.all (fun e => decide (e.2 ≠ m.undef e.1)) && setWf m.poison

/-- `n` bytes from address `a`. -/
def Memory.read (m : Memory) (a : Nat) : Nat → List Byte
  | 0 => []
  | n + 1 => m.get a :: m.read (a + 1) n

/-- Store the bytes from address `a` on. -/
def Memory.writeBytes (m : Memory) (a : Nat) : List Byte → Memory
  | [] => m
  | b :: bs => (m.set a b).writeBytes (a + 1) bs

/-- Mark the unit `u` poisoned. -/
def Memory.mark (m : Memory) (u : Nat) : Memory := { m with poison := setAdd m.poison u }

/-- Take the poison mark off the unit `u`. -/
def Memory.unmark (m : Memory) (u : Nat) : Memory := { m with poison := setDel m.poison u }

/-- Store bytes where poison is kept by 4-byte words: every word that they cover wholly loses its mark. -/
def Memory.putWords (m : Memory) (a : Nat) (data : List Byte) : Memory :=
  let first := (a + 3) / 4
  (List.range ((a + data.length) / 4 - first)).foldl (fun s i => s.unmark (first + i)) (m.writeBytes a data)

/-- A reset that leaves the content in place but undefined: nothing is listed any more, in a new epoch, and no unit is
poisoned. -/
def Memory.forget (m : Memory) : Memory := ⟨m.space, [], m.epoch + 1, []⟩

/-- A memory that nothing has written. -/
def Memory.fresh (sp : MemSpace) : Memory := ⟨sp, [], 0, []⟩

end Sys2Proof.Machine
end

