-- ==== Sys2Proof/Machine/Flags.lean ====
section
/-! DEFINITION. The sticky arithmetic flags and the saturation count of an engine (04_number_formats.md R124, Table 04-8):
what one operation sets, how operations combine, and how the result meets an engine's sticky register. -/

namespace Sys2Proof.Machine

/-- What an operation, or a run of operations, set: OVF, UNF, INX, INV and the number of elements clamped. -/
structure Fl where
  ovf : Bool := false
  unf : Bool := false
  inx : Bool := false
  inv : Bool := false
  sat : Nat := 0
deriving DecidableEq, Repr

/-- No flag and no clamp. -/
def Fl.none : Fl := {}

/-- The flags of two operations of one engine together. -/
def Fl.join (a b : Fl) : Fl :=
  ⟨a.ovf || b.ovf, a.unf || b.unf, a.inx || b.inx, a.inv || b.inv, a.sat + b.sat⟩

/-- INV alone. -/
def Fl.invalid (b : Bool) : Fl := { inv := b }

/-- The flag bits as a sticky register lays them out: [3] INV, [2] INX, [1] UNF, [0] OVF. -/
def Fl.bits (f : Fl) : Nat := f.inv.toNat * 8 + f.inx.toNat * 4 + f.unf.toNat * 2 + f.ovf.toNat

/-- A 32-bit count that saturates at 0xFFFF_FFFF. -/
def satAdd32 (a n : Nat) : Nat := min (a + n) 0xFFFFFFFF

/-- A 16-bit count that saturates at 0xFFFF. -/
def satAdd16 (a n : Nat) : Nat := min (a + n) 0xFFFF

/-- An 8-bit count that saturates at 0xFF. -/
def satAdd8 (a n : Nat) : Nat := min (a + n) 0xFF

end Sys2Proof.Machine
end

