-- ==== Sys2Proof/Machine/Num.lean ====
section
/-! DEFINITION. Number formats and arithmetic (04_number_formats.md R100 to R125): the formats and their encodings, exact
values, the one rounding of every engine, conversions, and keyed stochastic rounding. An exact value is a signed
multiple of a power of two, an infinity or NaN; every operation is exact and is rounded once where the manual names a
rounding point. -/

namespace Sys2Proof.Machine

/-- The formats of Table 04-1 (R100). -/
inductive Fmt where
  | fp32 | bf16 | fp16 | e4m3 | e5m2 | int8 | uint8 | int4 | uint4 | fp4 | tail48 | int32 | fp64
deriving DecidableEq, Repr

/-- The format of a code; codes 0xD to 0xF are reserved (R100). -/
def Fmt.ofCode : Nat → Option Fmt
  | 0 => some .fp32 | 1 => some .bf16 | 2 => some .fp16 | 3 => some .e4m3 | 4 => some .e5m2 | 5 => some .int8
  | 6 => some .uint8 | 7 => some .int4 | 8 => some .uint4 | 9 => some .fp4 | 10 => some .tail48 | 11 => some .int32
  | 12 => some .fp64 | _ => none

/-- The code of a format (Table 04-1). -/
def Fmt.code : Fmt → Nat
  | .fp32 => 0 | .bf16 => 1 | .fp16 => 2 | .e4m3 => 3 | .e5m2 => 4 | .int8 => 5 | .uint8 => 6 | .int4 => 7
  | .uint4 => 8 | .fp4 => 9 | .tail48 => 10 | .int32 => 11 | .fp64 => 12

/-- Width of an element in bits (Table 04-1). -/
def Fmt.bits : Fmt → Nat
  | .fp32 => 32 | .bf16 => 16 | .fp16 => 16 | .e4m3 => 8 | .e5m2 => 8 | .int8 => 8 | .uint8 => 8 | .int4 => 4
  | .uint4 => 4 | .fp4 => 4 | .tail48 => 48 | .int32 => 32 | .fp64 => 64

/-- Bytes that `n` elements of a row occupy, two 4-bit elements to a byte (R101). -/
def Fmt.rowBytes (f : Fmt) (n : Nat) : Nat := (n * f.bits + 7) / 8

/-- The formats that are not integers. -/
def Fmt.isFloat : Fmt → Bool
  | .int8 | .uint8 | .int4 | .uint4 | .int32 => false
  | _ => true

/-- The shape of a floating format (R102): exponent bits, fraction bits, bias, whether it has infinity and NaN. -/
structure FloatSpec where
  ebits : Nat
  frac : Nat
  bias : Nat
  hasInf : Bool
  hasNan : Bool
deriving DecidableEq, Repr

/-- Table 04-2. -/
def Fmt.spec : Fmt → FloatSpec
  | .bf16 => ⟨8, 7, 127, true, true⟩
  | .fp16 => ⟨5, 10, 15, true, true⟩
  | .e4m3 => ⟨4, 3, 7, false, true⟩
  | .e5m2 => ⟨5, 2, 15, true, true⟩
  | .fp4 => ⟨2, 1, 1, false, false⟩
  | .tail48 => ⟨8, 39, 127, true, true⟩
  | .fp64 => ⟨11, 52, 1023, true, true⟩
  | _ => ⟨8, 23, 127, true, true⟩

/-- Least and greatest value of an integer format (R105). -/
def Fmt.intRange : Fmt → Int × Int
  | .int8 => (-128, 127)
  | .uint8 => (0, 255)
  | .int4 => (-8, 7)
  | .uint4 => (0, 15)
  | _ => (-2147483648, 2147483647)

/-- An exact value: NaN, an infinity, or (−1)^neg × m × 2^e; a zero (m = 0) keeps its sign. -/
inductive Val where
  | nan
  | inf (neg : Bool)
  | fin (neg : Bool) (m : Nat) (e : Int)
deriving DecidableEq, Repr

/-- The positive zero. -/
def Val.zero : Val := .fin false 0 0

/-- One. -/
def Val.one : Val := .fin false 1 0

/-- An integer as an exact value. -/
def Val.ofInt (i : Int) : Val := .fin (decide (i < 0)) i.natAbs 0

/-- A natural number as an exact value. -/
def Val.ofNat (n : Nat) : Val := .fin false n 0

/-- 2 to a natural power, given as an integer that the caller knows to be non-negative. -/
def pow2i (e : Int) : Nat := 2 ^ e.toNat

/-- Reads a floating code (R102, R103, R104, R106). -/
def FloatSpec.decode (f : FloatSpec) (c : Nat) : Val :=
  let neg := decide (c / 2 ^ (f.ebits + f.frac) % 2 = 1)
  let e := c / 2 ^ f.frac % 2 ^ f.ebits
  let fr := c % 2 ^ f.frac
  let top := 2 ^ f.ebits - 1
  if f.hasInf && e == top then (if fr = 0 then .inf neg else .nan)
  else if f.hasNan && !f.hasInf && e == top && fr == 2 ^ f.frac - 1 then .nan
  else if e = 0 then .fin neg fr (1 - (f.bias : Int) - f.frac)
  else .fin neg (2 ^ f.frac + fr) ((e : Int) - f.bias - f.frac)

/-- Reads an integer code as two's complement or unsigned (R105). -/
def Fmt.decodeInt (f : Fmt) (c : Nat) : Int :=
  let c := c % 2 ^ f.bits
  if f.intRange.1 < 0 && decide (2 ^ (f.bits - 1) ≤ c) then (c : Int) - 2 ^ f.bits else c

/-- The exact value of a code. A TAIL48 code whose head is infinity or NaN ignores its tail on read (R107). -/
def Fmt.decode (f : Fmt) (c : Nat) : Val :=
  match f with
  | .tail48 =>
    let h := c / 2 ^ 16 % 2 ^ 32
    if h / 2 ^ 23 % 2 ^ 8 = 255 then (Fmt.spec .fp32).decode h else (Fmt.spec .tail48).decode (c % 2 ^ 48)
  | .fp32 | .bf16 | .fp16 | .e4m3 | .e5m2 | .fp4 | .fp64 => f.spec.decode (c % 2 ^ f.bits)
  | .int8 | .uint8 | .int4 | .uint4 | .int32 => Val.ofInt (f.decodeInt c)

/-- Is the value a subnormal of the format's range (R115: an input operand is judged in the format in which it is read)? -/
def Val.subnormalIn (v : Val) (f : FloatSpec) : Bool :=
  match v with
  | .fin _ m e => decide (m ≠ 0) && decide ((Nat.log2 m : Int) + e < 1 - (f.bias : Int))
  | _ => false

/-- A subnormal input reads as zero of its sign (R115). -/
def Val.flushIn (v : Val) (f : FloatSpec) : Val :=
  match v with
  | .fin neg _ _ => if v.subnormalIn f then .fin neg 0 0 else v
  | _ => v

/-- Reads an operand in its stored format, with FTZ when selected; FTZ has no effect on integers or FP4 (R115). -/
def Fmt.decodeFtz (f : Fmt) (ftz : Bool) (c : Nat) : Val :=
  if ftz && f.isFloat && f != .fp4 then (f.decode c).flushIn f.spec else f.decode c

/-- Which neighbour a rounding takes: nearest with ties to even (R110), or keyed stochastic with 32 drawn bits (R123). -/
inductive Rnd where
  | nearest
  | srnd (r : Nat)
deriving DecidableEq, Repr

/-- Overflow handling of an output (R112). -/
inductive OvfMode where
  | sat | ieee
deriving DecidableEq, Repr

/-- The default mode of a format (R112). -/
def Fmt.defaultOvf : Fmt → OvfMode
  | .e4m3 | .e5m2 | .fp4 => .sat
  | _ => .ieee

/-- The mode that a descriptor's OVF_MODE selects: 0 default, 1 SAT, 2 IEEE (R112). -/
def Fmt.ovfOf (f : Fmt) (ovfMode : Nat) : OvfMode :=
  if ovfMode = 1 then .sat else if ovfMode = 2 then .ieee else f.defaultOvf

/-- A code with the flags its rounding set. -/
structure Coded where
  code : Nat
  fl : Fl
deriving DecidableEq, Repr

/-- Splits m × 2^e at the place 2^l: the whole part, the remainder, and the unit in which the remainder is counted. -/
def splitAt (m : Nat) (e l : Int) : Nat × Nat × Nat :=
  if l ≤ e then (m * pow2i (e - l), 0, 1)
  else (m / pow2i (l - e), m % pow2i (l - e), pow2i (l - e))

/-- Does nearest-even rounding move `n + rem / unit` up (R110)? -/
def nearestUp (n rem unit : Nat) : Bool :=
  decide (unit < 2 * rem) || (decide (2 * rem = unit) && decide (n % 2 = 1))

/-- Does the chosen rounding move the value away from zero (R110, R123)? -/
def Rnd.up (rnd : Rnd) (n rem unit : Nat) : Bool :=
  match rnd with
  | .nearest => nearestUp n rem unit
  | .srnd r => decide (2 ^ 32 ≤ rem * 2 ^ 32 / unit + r)

/-- Largest finite code of a format without its sign (Table 04-2). -/
def FloatSpec.maxCode (f : FloatSpec) : Nat :=
  if f.hasInf then (2 ^ f.ebits - 1) * 2 ^ f.frac - 1
  else if f.hasNan then 2 ^ (f.ebits + f.frac) - 2
  else 2 ^ (f.ebits + f.frac) - 1

/-- Infinity without its sign. -/
def FloatSpec.infCode (f : FloatSpec) : Nat := (2 ^ f.ebits - 1) * 2 ^ f.frac

/-- The canonical NaN (Table 04-2); FP4 has none and takes +0 (R112). -/
def FloatSpec.nanCode (f : FloatSpec) : Nat :=
  if f.hasInf then (2 ^ f.ebits - 1) * 2 ^ f.frac + 2 ^ (f.frac - 1)
  else if f.hasNan then 2 ^ (f.ebits + f.frac) - 1
  else 0

/-- The sign bit of a format. -/
def FloatSpec.signCode (f : FloatSpec) (neg : Bool) : Nat := if neg then 2 ^ (f.ebits + f.frac) else 0

/-- An overflow, or an infinity given to a finite-only result (R112, Table 04-4). -/
def FloatSpec.overflow (f : FloatSpec) (mode : OvfMode) (neg : Bool) : Coded :=
  match mode with
  | .sat => ⟨f.signCode neg + f.maxCode, { inx := true, sat := 1 }⟩
  | .ieee =>
    if f.hasInf then ⟨f.signCode neg + f.infCode, { ovf := true, inx := true }⟩
    else if f.hasNan then ⟨f.nanCode, { ovf := true, inx := true }⟩
    else ⟨f.signCode neg + f.maxCode, { ovf := true, inx := true }⟩

/-- The code, sign apart, of `n` units of the last place 2^l, where 2^l is the last place of the binade of exponent
`ex` (never below the smallest normal's); carries into the next binade come out right. -/
def FloatSpec.pack (f : FloatSpec) (ex : Int) (n : Nat) : Nat :=
  if n < 2 ^ f.frac then n else (ex + f.bias).toNat * 2 ^ f.frac + (n - 2 ^ f.frac)

/-- Rounds an exact value to a floating format (R109 to R115, R123). -/
def FloatSpec.round (f : FloatSpec) (mode : OvfMode) (ftz : Bool) (rnd : Rnd) (v : Val) : Coded :=
  match v with
  | .nan => if f.hasNan then ⟨f.nanCode, .none⟩ else ⟨0, .invalid true⟩
  | .inf neg =>
    if f.hasInf && mode == .ieee then ⟨f.signCode neg + f.infCode, .none⟩ else f.overflow mode neg
  | .fin neg m e =>
    if m = 0 then ⟨f.signCode neg, .none⟩
    else
      let emin : Int := 1 - f.bias
      let eTop : Int := (Nat.log2 m : Int) + e
      let tiny := decide (eTop < emin)
      if tiny && ftz then ⟨f.signCode neg, { inx := true }⟩
      else
        let ex := if tiny then emin else eTop
        let (n, rem, unit) := splitAt m e (ex - f.frac)
        let inexact := decide (rem ≠ 0)
        let near := f.pack ex (n + (nearestUp n rem unit).toNat)
        if f.maxCode < near then f.overflow mode neg
        else
          let chosen := min (f.pack ex (n + (rnd.up n rem unit).toNat)) f.maxCode
          ⟨f.signCode neg + chosen, { unf := tiny && inexact, inx := inexact }⟩

/-- Rounds an exact value to an integer format, which always saturates (R113). -/
def Fmt.roundInt (f : Fmt) (rnd : Rnd) (v : Val) : Coded :=
  let (lo, hi) := f.intRange
  let enc (i : Int) : Nat := (i % (2 ^ f.bits : Nat)).toNat
  match v with
  | .nan => ⟨0, .invalid true⟩
  | .inf neg => ⟨enc (if neg then lo else hi), { inx := true, sat := 1 }⟩
  | .fin neg m e =>
    let (n, rem, unit) := splitAt m e 0
    let a := n + (rnd.up n rem unit).toNat
    let i : Int := if neg then -(a : Int) else a
    if i < lo then ⟨enc lo, { inx := true, sat := 1 }⟩
    else if hi < i then ⟨enc hi, { inx := true, sat := 1 }⟩
    else ⟨enc i, { inx := decide (rem ≠ 0) }⟩

/-- Rounds an exact value to any format; FTZ has no effect on integers or FP4 (R115). -/
def Fmt.round (f : Fmt) (mode : OvfMode) (ftz : Bool) (rnd : Rnd) (v : Val) : Coded :=
  if f.isFloat then f.spec.round mode (ftz && f != .fp4) rnd v else f.roundInt rnd v

/-- Rounds to FP32 under IEEE rules, nearest, as an instruction's or an accumulator's result is (R110, R117). -/
def roundFp32 (ftz : Bool) (v : Val) : Coded := (Fmt.spec .fp32).round .ieee ftz .nearest v

/-- Rounds to FP64 under IEEE rules, nearest. -/
def roundFp64 (v : Val) : Coded := (Fmt.spec .fp64).round .ieee false .nearest v

/-- The value an FP32 code holds. -/
def fp32 (c : Nat) : Val := Fmt.decode .fp32 c

/-- The value an FP64 code holds. -/
def fp64 (c : Nat) : Val := Fmt.decode .fp64 c

/-- A result with the INV condition of Table 04-8. -/
abbrev ValInv := Val × Bool

/-- The negation; NaN stays NaN (R108). -/
def Val.neg : Val → Val
  | .nan => .nan
  | .inf n => .inf (!n)
  | .fin n m e => .fin (!n) m e

/-- The magnitude. -/
def Val.abs : Val → Val
  | .nan => .nan
  | .inf _ => .inf false
  | .fin _ m e => .fin false m e

/-- Is it NaN? -/
def Val.isNan : Val → Bool
  | .nan => true
  | _ => false

/-- Is it finite? -/
def Val.isFin : Val → Bool
  | .fin .. => true
  | _ => false

/-- Is it a zero of either sign? -/
def Val.isZero : Val → Bool
  | .fin _ m _ => m = 0
  | _ => false

/-- The sign. -/
def Val.isNeg : Val → Bool
  | .nan => false
  | .inf n => n
  | .fin n _ _ => n

/-- A signed multiple of 2^e: the exact sum of two finite values at their smaller exponent. -/
def signedAt (neg : Bool) (m : Nat) (e at_ : Int) : Int :=
  let a : Int := m * pow2i (e - at_)
  if neg then -a else a

/-- The exact sum (R109): opposite zeros give +0, x + (−x) gives +0. -/
def Val.add (a b : Val) : ValInv :=
  match a, b with
  | .nan, _ => (.nan, false)
  | _, .nan => (.nan, false)
  | .inf x, .inf y => if x = y then (.inf x, false) else (.nan, true)
  | .inf x, _ => (.inf x, false)
  | _, .inf y => (.inf y, false)
  | .fin na ma ea, .fin nb mb eb =>
    if ma = 0 then (if mb = 0 then (.fin (na && nb) 0 0, false) else (.fin nb mb eb, false))
    else if mb = 0 then (.fin na ma ea, false)
    else
      let e := min ea eb
      let t := signedAt na ma ea e + signedAt nb mb eb e
      (.fin (decide (t < 0)) t.natAbs e, false)

/-- The exact difference. -/
def Val.sub (a b : Val) : ValInv := a.add b.neg

/-- The exact product; 0 × ∞ is NaN and sets INV. -/
def Val.mul (a b : Val) : ValInv :=
  match a, b with
  | .nan, _ => (.nan, false)
  | _, .nan => (.nan, false)
  | .inf x, .inf y => (.inf (x != y), false)
  | .inf x, .fin n m _ => if m = 0 then (.nan, true) else (.inf (x != n), false)
  | .fin n m _, .inf y => if m = 0 then (.nan, true) else (.inf (n != y), false)
  | .fin na ma ea, .fin nb mb eb => (.fin (na != nb) (ma * mb) (ea + eb), false)

/-- The exact a × b + c; a NaN among the operands gives NaN without INV (R108). -/
def Val.fma (a b c : Val) : ValInv :=
  if c.isNan then (.nan, false)
  else
    let p := a.mul b
    let r := p.1.add c
    (r.1, p.2 || r.2)

/-- The exact a × b + c × d as one operation; a NaN among the operands gives NaN without INV (R108). -/
def Val.mulAdd2 (a b c d : Val) : ValInv :=
  if a.isNan || b.isNan || c.isNan || d.isNan then (.nan, false)
  else
    let p := a.mul b
    let q := c.mul d
    let r := p.1.add q.1
    (r.1, p.2 || q.2 || r.2)

/-- Extra quotient bits that make the remainder's effect on any rounding of this manual exact. -/
def quotBits : Nat := 256

/-- The quotient of finite non-zero magnitudes, to `quotBits` further bits with a last bit that says whether anything
remains below them: every format of the manual rounds it as it would the exact quotient. -/
def quotMag (ma : Nat) (ea : Int) (mb : Nat) (eb : Int) : Nat × Int :=
  let k := quotBits + Nat.log2 mb
  let q := ma * 2 ^ k / mb
  let r := ma * 2 ^ k % mb
  (2 * q + (if r = 0 then 0 else 1), ea - eb - k - 1)

/-- A quotient with the conditions of Table 04-8: the value, INV, and OVF for a finite non-zero value divided by zero. -/
def Val.div (a b : Val) : Val × Bool × Bool :=
  match a, b with
  | .nan, _ => (.nan, false, false)
  | _, .nan => (.nan, false, false)
  | .inf _, .inf _ => (.nan, true, false)
  | .inf x, .fin n _ _ => (.inf (x != n), false, false)
  | .fin n _ _, .inf y => (.fin (n != y) 0 0, false, false)
  | .fin na ma ea, .fin nb mb eb =>
    if mb = 0 then (if ma = 0 then (.nan, true, false) else (.inf (na != nb), false, true))
    else if ma = 0 then (.fin (na != nb) 0 0, false, false)
    else
      let (q, e) := quotMag ma ea mb eb
      (.fin (na != nb) q e, false, false)

/-- Whole square root of `n`, found bit by bit from bit `b` down. -/
def isqrtFrom : Nat → Nat → Nat → Nat
  | 0, n, acc => if (acc + 1) * (acc + 1) ≤ n then acc + 1 else acc
  | b + 1, n, acc =>
    let c := acc + 2 ^ (b + 1)
    isqrtFrom b n (if c * c ≤ n then c else acc)

/-- Whole square root of `n`. -/
def isqrt (n : Nat) : Nat := isqrtFrom (Nat.log2 n / 2 + 1) n 0

/-- The square root to many bits, with a last bit that says whether anything remains: exact for every rounding. SQRT of
−0 is −0; of a negative non-zero value, NaN with INV (Table 04-8). -/
def Val.sqrt (a : Val) : ValInv :=
  match a with
  | .nan => (.nan, false)
  | .inf n => if n then (.nan, true) else (.inf false, false)
  | .fin n m e =>
    if m = 0 then (.fin n 0 0, false)
    else if n then (.nan, true)
    else
      let odd : Nat := if e % 2 = 0 then 0 else 1
      let k := 2 * quotBits
      let x := m * 2 ^ (k + odd)
      let r := isqrt x
      (.fin false (2 * r + (if r * r = x then 0 else 1)) ((e - odd - k) / 2 - 1), false)

/-- Exact comparison of two values that are not NaN. -/
def Val.ltB (a b : Val) : Bool :=
  match a, b with
  | .nan, _ => false
  | _, .nan => false
  | .inf x, .inf y => x && !y
  | .inf x, _ => x
  | _, .inf y => !y
  | .fin na ma ea, .fin nb mb eb =>
    let e := min ea eb
    decide (signedAt na ma ea e < signedAt nb mb eb e)

/-- Exact equality of two values that are not NaN; the zeros are equal. -/
def Val.eqB (a b : Val) : Bool := !a.isNan && !b.isNan && !(a.ltB b) && !(b.ltB a)

/-- MAX (R108): NaN if either is NaN; +0 for zeros of opposite sign. -/
def Val.max (a b : Val) : Val :=
  if a.isNan || b.isNan then .nan
  else if a.isZero && b.isZero then .fin (a.isNeg && b.isNeg) 0 0
  else if a.ltB b then b else a

/-- MIN (R108): NaN if either is NaN; −0 for zeros of opposite sign. -/
def Val.min (a b : Val) : Val :=
  if a.isNan || b.isNan then .nan
  else if a.isZero && b.isZero then .fin (a.isNeg || b.isNeg) 0 0
  else if b.ltB a then b else a

/-- The integer value of an exact value known to be an integer in range (0 for anything else). -/
def Val.toInt (v : Val) : Int :=
  match v with
  | .fin n m e => let a : Int := if 0 ≤ e then m * pow2i e else m / pow2i (-e); if n then -a else a
  | _ => 0

/-- An FP32 scale is valid when finite, non-zero and normal (R118). -/
def validScale (c : Nat) : Bool :=
  decide (1 ≤ c / 2 ^ 23 % 256) && decide (c / 2 ^ 23 % 256 ≤ 254)

/-- The internal format of the combined scale: 11 exponent bits of bias 1,023 and a 24-bit significand (R119). -/
def scaleSpec : FloatSpec := ⟨11, 23, 1023, true, true⟩

/-- The combined scale q = sO / (sA × sB), rounded once (R119); `none` when a scale is invalid (R118). -/
def combinedScale (sA sB sO : Nat) : Option Val :=
  if validScale sA && validScale sB && validScale sO then
    let d := ((fp32 sA).mul (fp32 sB)).1
    let q := ((fp32 sO).div d).1
    some (scaleSpec.decode (scaleSpec.round .ieee false .nearest q).code)
  else none

/-- The exclusive-or, shift and multiply step of R122. -/
def mix64 (z0 : Nat) : Nat :=
  let z1 := (z0 ^^^ z0 / 2 ^ 30) * 0xBF58476D1CE4E5B9 % 2 ^ 64
  let z2 := (z1 ^^^ z1 / 2 ^ 27) * 0x94D049BB133111EB % 2 ^ 64
  z2 ^^^ z2 / 2 ^ 31

/-- The 32 bits drawn for an output element (R122). -/
def srndBits (seed tensor index step : Nat) : Nat :=
  let h1 := mix64 (seed ^^^ index)
  let h2 := mix64 (h1 ^^^ (tensor * 2 ^ 32 + step))
  h2 / 2 ^ 32

/-- The 8-bit code to which a 4-bit code of operand B expands exactly, with the format it takes (R116, Table 04-5). -/
def expand4 (f : Fmt) (c : Nat) : Fmt × Nat :=
  match f with
  | .int4 => (.int8, if c % 16 < 8 then c % 16 else c % 16 + 240)
  | .uint4 => (.uint8, c % 16)
  | .fp4 =>
    let m := c % 8
    let s := if c % 16 < 8 then 0 else 128
    (.e4m3, s + (if m = 0 then 0 else if m = 1 then 0x30 else 0x34 + 4 * (m - 1)))
  | _ => (f, c)

end Sys2Proof.Machine
end

