-- ==== Sys2Proof/Machine/ElemTypes.lean ====
section
/-! DEFINITION. Element programs as data (07_groom_units.md R164, Tables 07-2 to 07-5): opcodes, instructions, and the
element an engine holds while a program runs. -/

namespace Sys2Proof.Machine

/-- The opcodes of Table 07-5. -/
inductive ElemOp where
  | eEnd | mov | add | sub | mul | fma | fms | div | recip | sqrt | rsqrt | exp2 | log2 | tanh | max | min | abs | neg
  | sign | clamp | cmplt | cmpeq | sel | cvt | srnd | nacc
deriving DecidableEq, Repr

/-- One instruction word of Table 07-2. -/
structure ElemInstr where
  op : ElemOp
  dst : Nat
  a : Nat
  b : Nat
  c : Nat
  ftz : Bool
  wide : Bool
  nega : Bool
deriving DecidableEq, Repr

/-- The element that an engine's program runs over: its registers, inputs, outputs, what the specials read, the norm
accumulators by lane × 4 + k (FP64 codes), and the flags set so far. -/
structure Elem where
  v : List Val
  ins : List (Option Val)
  outs : List (Option Val)
  consts : List Nat
  k0 : Nat
  index : Nat
  step : Nat
  rowstep : Nat
  bc1 : Nat
  bc2 : Nat
  lane : Nat
  seed : Nat
  tensor : Nat
  keyIndex : Nat
  acc : Kv Nat
  fl : Fl
deriving DecidableEq, Repr

end Sys2Proof.Machine
end

