-- ==== Sys2Proof/Machine/PlateTypes.lean ====
section
/-! DEFINITION. The contents of a plate as data: what each section of a plate image says, one structure per record of the
manual's section layouts. A slot's configuration context is such a plate (02_plate_and_tick.md R46). -/

namespace Sys2Proof.Machine

/-- KIND of a plate (Table 02-1). -/
inductive PlateKind where
  | full | routeUpdate
deriving DecidableEq, Repr

/-- The header fields that matter after proof (Table 02-1). -/
structure PlateHeader where
  kind : PlateKind
  variant : Nat
  epoch : Nat
  periodUs : Nat
  moduleId : Nat
  tickRoot : Nat
  minFw : Nat
  baseHash : List Byte
deriving DecidableEq, Repr

/-- A frame record (R66). -/
inductive Frame where
  | work (rep kfirst kcount budget : Nat) (waitA waitB signal window : Nat) (kstride wstride : Nat)
  | loop (rep back kstride wstride : Nat)
  | fin
deriving DecidableEq, Repr

/-- A stable record with its own frame list, from its first record to END (R65, R66). -/
structure StableRec where
  id : Nat
  faultPolicy : Bool
  slipLimit : Nat
  cores : NatSet
  frames : List Frame
deriving DecidableEq, Repr

/-- Where an operand lies (Table 03-3). -/
inductive Space where
  | sram | device | peer | none
deriving DecidableEq, Repr

/-- An operand reference (Table 03-3). -/
structure Operand where
  space : Space
  addr : Nat
  peer : Nat
  fmt : Nat
  trans : Bool
  pitch : Nat
  rankStride : Int
deriving DecidableEq, Repr

/-- Kernel opcodes (Table 03-4). -/
inductive KOp where
  | matmul | conv | attn | element | reduce | scan | gather | scatter | transpose | copy | topk
deriving DecidableEq, Repr

/-- Code of a kernel opcode (Table 03-4). -/
def KOp.code : KOp → Nat
  | .matmul => 1 | .conv => 2 | .attn => 3 | .element => 4 | .reduce => 5 | .scan => 6 | .gather => 7 | .scatter => 8
  | .transpose => 9 | .copy => 10 | .topk => 11

/-- A kernel descriptor (Table 03-2). -/
structure Kernel where
  op : KOp
  ftz : Bool
  ovfMode : Nat
  srnd : Bool
  accum : Bool
  sync : Bool
  d0 : Nat
  d1 : Nat
  d2 : Nat
  a : Operand
  b : Operand
  c : Operand
  d : Operand
  scaleOff : Option Nat
  tensor : Nat
  prog : List ElemInstr
  constSet : Nat
  param : List Byte
deriving DecidableEq, Repr

/-- A tensor record (Table 04-9). -/
structure TensorRec where
  id : Nat
  fmt : Nat
  ftz : Bool
  ovfMode : Nat
  srnd : Bool
  isParam : Bool
  lag : Nat
  elements : Nat
  margin : Nat
  initScale : Nat
deriving DecidableEq, Repr

/-- SRC of a stream entry (Table 07-8). -/
inductive EntrySrc where
  | none | plane | slice
deriving DecidableEq, Repr

/-- A stream entry of a binding (Table 07-8). -/
structure StreamEntry where
  addr : Nat
  fmt : Nat
  src : EntrySrc
  wc : Bool
  master : Bool
deriving DecidableEq, Repr

/-- A stream binding (Table 07-7). -/
structure Binding where
  tensor : Nat
  unit : Nat
  row : Bool
  masked : Bool
  group : Nat
  prog : List ElemInstr
  constSet : Nat
  first : Nat
  count : Nat
  ins : List StreamEntry
  outs : List StreamEntry
  mask : Nat
  rows : Nat
  rowLen : Nat
  wait : Nat
  signal : Nat
deriving DecidableEq, Repr

/-- A preconditioner record (Table 07-9). -/
structure Precond where
  id : Nat
  unit : Nat
  dim : Nat
  buf : Nat
  resid : Nat
  tol : Nat
  barrier : Nat
  initValid : Bool
deriving DecidableEq, Repr

/-- The GROOM section (Table 07-6). -/
structure GroomSec where
  bindings : List Binding
  preconds : List Precond
  bcOrigin : Nat
  b1 : Nat
  b2 : Nat
deriving DecidableEq, Repr

/-- Clip modes (Table 08-4). -/
inductive ClipMode where
  | unclipped | last | tolerant
deriving DecidableEq, Repr

/-- The STEP_CONFIG section (Table 08-3); `replayFrame` lists the stables that take part in a replay. -/
structure StepCfg where
  mode : ClipMode
  reuse : Bool
  contrib : Bool
  microBatches : Nat
  clipMax : Nat
  ceiling : Nat
  tol : Nat
  maxStepTicks : Nat
  verdictTicks : Nat
  participants : Nat
  replayFrame : Kv Nat
  replayReset : NatSet
deriving DecidableEq, Repr

/-- Modes of a check job (R384). -/
inductive ChkMode where
  | scan | snoop | scanSnoop
deriving DecidableEq, Repr

/-- A check job's parameters, of a plate record (Table 15-2) or of a unit's registers. -/
structure ChkJob where
  unit : Nat
  mode : ChkMode
  crc64 : Bool
  compare : Bool
  alive : Bool
  stepFault : Bool
  stream : Nat
  start : Nat
  done : Nat
  addr : Nat
  len : Nat
  slen : Nat
  recBytes : Nat
  aliveFirst : Nat
  expect : Nat
  aliveOff : Nat
deriving DecidableEq, Repr

end Sys2Proof.Machine
end

