-- ==== Sys2Proof/Machine/PlacementTypes.lean ====
section
/-! DEFINITION. The contents of a plate that lay out memory, streams, the fabric and collectives, and the plate itself: one
structure per record of the manual's section layouts. -/

namespace Sys2Proof.Machine

/-- A shed window record (10_memory_tiers.md R260). -/
structure WinRec where
  id : Nat
  off : Nat
  len : Nat
  release : Nat
deriving DecidableEq, Repr

/-- A paddock record entry (06_backward_pass.md Table 06-4). -/
structure PadRec where
  id : Nat
  layer : Nat
  tensor : Nat
  maxBytes : Nat
  inWindow : Nat
  gateWindow : Nat
  recBarrier : Nat
  eligible : Bool
  noSpill : Bool
  dropRank : Nat
deriving DecidableEq, Repr

/-- Region kinds (10_memory_tiers.md Table 10-3). -/
inductive RegionKind where
  | plain | state | deferred | loftState | residual | ledger | shed | paddock | pool | poolLoft | watch | norm | precond
deriving DecidableEq, Repr

/-- The kind of a code (Table 10-3). -/
def RegionKind.ofCode : Nat → Option RegionKind
  | 0 => some .plain | 1 => some .state | 2 => some .deferred | 3 => some .loftState | 4 => some .residual
  | 5 => some .ledger | 6 => some .shed | 7 => some .paddock | 8 => some .pool | 9 => some .poolLoft
  | 10 => some .watch | 11 => some .norm | 12 => some .precond | _ => none

/-- A placement region (Table 10-2) with its attached table: windows of SHED, records of PADDOCK, floors of POOL. -/
structure Region where
  id : Nat
  kind : RegionKind
  banked : Bool
  onStacks : List Nat
  granule : Nat
  owner : Nat
  base : Nat
  length : Nat
  phys : Nat
  objBytes : Nat
  windows : List WinRec
  records : List PadRec
  floors : List Nat
deriving DecidableEq, Repr

/-- First device address of the loft (Table 10-1). -/
def loftBase : Nat := 0x1000_0000_0000

/-- Does the region lie in the loft? -/
def Region.loft (r : Region) : Bool := decide (loftBase ≤ r.base)

/-- Stream context kinds (11_streams.md Table 11-3). -/
inductive StreamKind where
  | fill | copy | stash | unstash | walk
deriving DecidableEq, Repr

/-- A stream descriptor (Table 11-2); `none` where a field says none. -/
structure StreamDesc where
  kind : StreamKind
  expand : Bool
  early : Bool
  cvt : Option (Nat × Nat)
  id : Nat
  tiles : Nat
  src : Nat
  dst : Nat
  srcStride : Int
  tileBytes : Nat
  winBase : Nat
  ring : Nat
  key : Nat
  wait : Option Nat
  waitStride : Nat
  signal : Option Nat
  signalStride : Nat
  dlBase : Nat
  dlStride : Nat
  dlStable : Option Nat
  replayTile : Option Nat
  aux : Nat
  release : Option Nat
  uses : Nat
deriving DecidableEq, Repr

/-- FABRIC_ROUTES (12_fabric_ports.md Table 12-7): per destination the five choice bytes. -/
structure RouteTab where
  dests : Nat
  hopLimit : Nat
  active : NatSet
  nbr : Kv (Nat × Nat)
  choices : Kv (List Nat)
deriving DecidableEq, Repr

/-- Kinds of a collective operation (13_collectives.md Table 13-2). -/
inductive CollKind where
  | exchange | rows | allreduce | fence
deriving DecidableEq, Repr

/-- Patterns of a collective operation (Table 13-2). -/
inductive CollPattern where
  | direct | ring | tree
deriving DecidableEq, Repr

/-- Compression of an exchange (Table 13-4). -/
inductive CollComp where
  | dense | topk | sign
deriving DecidableEq, Repr

/-- A slice entry (Table 13-3): bytes 0–3, 4–7, 8–9, 10–11, and where the slice lies. -/
structure SliceEnt where
  a : Nat
  b : Nat
  c : Nat
  d : Nat
  core : Nat
  off : Nat
deriving DecidableEq, Repr

/-- An operation record with its member list and slice table (Table 13-2). -/
structure CollOp where
  kind : CollKind
  pattern : CollPattern
  fanout : Nat
  comp : CollComp
  wire16 : Bool
  homeOnly : Bool
  reducer : Nat
  tensor : Nat
  members : List Nat
  self : Nat
  homeBase : Nat
  slices : List SliceEnt
  binding : Option Nat
  inBar : Nat
  relBar : Option Nat
  doneBar : Option Nat
  barStride : Nat
  density : Nat
  fmtIn : Nat
  fmtOut : Nat
  resid : Nat
  data : Nat
deriving DecidableEq, Repr

/-- The COLLECTIVES section (Table 13-1): link records as module and port mask. -/
structure CollSec where
  ops : List CollOp
  links : List (Nat × NatSet)
  normChildren : List Nat
  normRoot : Bool
  normParent : Nat
deriving DecidableEq, Repr

/-- A decode table (11_streams.md Table 11-8). -/
structure DecTable where
  gen : Nat
  lengths : List Nat
deriving DecidableEq, Repr

/-- A DECODE record (R303). -/
structure DecRec where
  engines : NatSet
  slot : Nat
  table : DecTable
deriving DecidableEq, Repr

/-- A plate: its header, its hash, whether a verified signature was present, the run seed, and its sections. -/
structure Plate where
  hdr : PlateHeader
  hash : List Byte
  signed : Bool
  seed : Nat
  stables : List StableRec
  regions : List Region
  barriers : Kv Nat
  kernels : List Kernel
  streams : List StreamDesc
  routes : Option RouteTab
  colls : CollSec
  groom : GroomSec
  checks : List ChkJob
  decode : List DecRec
  tensors : List TensorRec
  cfg : StepCfg
  tickTree : Option Nat
  consts : List (List Nat)
deriving DecidableEq, Repr

end Sys2Proof.Machine
end

