-- ==== Sys2Proof/Machine/UnitTypes.lean ====
section
/-! DEFINITION. The state of the units of the module that execute plates: events, tick, slots, stables, step, cores. One
structure per unit; registers that only software and one field matter to are in the register file instead. -/

namespace Sys2Proof.Machine

/-- Containment classes (00_scope.md R20), in the order of their codes (20_events.md Table 20-1). -/
inductive EvClass where
  | corrected | contained | step | device
deriving DecidableEq, Repr

/-- An event record (20_events.md Table 20-1). -/
structure EvRec where
  tick : Nat
  cycle : Nat
  code : Nat
  cls : EvClass
  prior : Bool
  source : Nat
  d0 : Nat
  d1 : Nat
  d2 : Nat
  alive : Nat
deriving DecidableEq, Repr

/-- The output side of the event unit on MG (20_events.md R488 to R490; 14_host_interface.md R375): records accepted in
this tick; the log by index; the persistent tail; the queue towards the ring; drops since the last EVENT_DROPPED. -/
structure EvtUnit where
  accepted : Nat
  log : Kv EvRec
  tail : List EvRec
  queue : List EvRec
  dropsSince : Nat
deriving DecidableEq, Repr

/-- The tick master (02_plate_and_tick.md R55 to R64). `adopt` is an upstream count to take at the next boundary; `valid`
counts the consecutive ticks in which each port carried valid markers showing this module's period and count; `offset` is in
ps; `trim` is the core cycles by which the tick in progress is lengthened (1) or shortened (-1); `edgeSeen` says under UPSTREAM
that a port is in use, under EXTERNAL that an edge was accepted; `periodBad` holds the ports that showed another period; `longer` and `shorter` hold the ticks trimmed in the last 65,536. -/
structure TickUnit where
  running : Bool
  count : Nat
  cycle : Nat
  trim : Int
  periodNext : Option Nat
  source : Nat
  port : Nat
  offset : Int
  aligned : Bool
  holdover : Bool
  edgeSeen : Bool
  adopt : Option Nat
  valid : Kv Nat
  periodBad : NatSet
  longer : NatSet
  shorter : NatSet
deriving DecidableEq, Repr

/-- Slot states (Table 02-3). -/
inductive SlotState where
  | empty | loading | proving | proven | active | failed
deriving DecidableEq, Repr

/-- Code of a slot state (Table 02-3). -/
def SlotState.code : SlotState → Nat
  | .empty => 0 | .loading => 1 | .proving => 2 | .proven => 3 | .active => 4 | .failed => 5

/-- The pending request (R51). -/
structure PendReq where
  activate : Bool
  slot : Nat
  target : Nat
deriving DecidableEq, Repr

/-- A stable's schedule position: record, repetition and loop pass (R66). -/
structure StablePos where
  recIx : Nat
  rep : Nat
  pass : Nat
deriving DecidableEq, Repr

/-- Frame states of a stable (PLT_STABLE_FRAME.STATE). -/
inductive StableState where
  | run | slip | fin | fenced
deriving DecidableEq, Repr

/-- A stable of the active plate (R67 to R73, R203, R204): its state, the position of the frame in progress or next, the
frame index, whether a frame is in progress, the position saved for a replay, whether the late event of this run of slips
was raised, slips in the current step, and whether the last frame completed has not yet been left, so that FRAME still shows
it. -/
structure StableRun where
  st : StableState
  pos : StablePos
  frame : Nat
  busy : Bool
  saved : Option (StablePos × Nat)
  late : Bool
  slips : Nat
  lag : Bool
deriving DecidableEq, Repr

/-- Stables, barriers and signals in flight (R67 to R70); the fencings of the active plate's cores: core, cause and stable (03_cores.md
R98). -/
structure Sched where
  barriers : Kv Nat
  sigs : List Nat
  stables : Kv StableRun
  fences : List (Nat × Nat × Nat)
deriving DecidableEq, Repr

/-- Step phases (Table 08-1). -/
inductive Phase where
  | idle | run | await | replay | actions
deriving DecidableEq, Repr

/-- Code of a phase (Table 08-1). -/
def Phase.code : Phase → Nat
  | .idle => 0 | .run => 1 | .await => 2 | .replay => 3 | .actions => 4

/-- Verdicts (08_step_commit.md Table 08-2). -/
inductive VKind where
  | commit | replay | skip | fault
deriving DecidableEq, Repr

/-- Code of a verdict (Table 08-2). -/
def VKind.code : VKind → Nat
  | .commit => 1 | .replay => 2 | .skip => 3 | .fault => 4

/-- A reduction record on its way up (Table 08-2, bytes 0x00 to 0x5B). -/
structure RedRec where
  step : Nat
  epoch : Nat
  attempt : Nat
  fault : Bool
  mismatch : Bool
  disagree : Bool
  expectSet : Bool
  cause : Nat
  source : Nat
  count : Nat
  sumsq : Nat
  tag : Nat
  expect : Nat
deriving DecidableEq, Repr

/-- A verdict record on its way down (Table 08-2, bytes 0x5C to 0x77, with the cause and its source). -/
structure VerdictRec where
  kind : VKind
  clip : Nat
  gnorm : Nat
  rootTick : Nat
  cause : Nat
  source : Nat
deriving DecidableEq, Repr

/-- What the device keeps of a step started (R182, R209). -/
structure StepHist where
  step : Nat
  size : Nat
  bc1 : Nat
  bc2 : Nat
  clip : Nat
  committed : Bool
  attempt : Nat
deriving DecidableEq, Repr

/-- The step in progress and what arms the next one (07_groom_units.md R178 to R182; 08_step_commit.md R187 to R212):
`armTick` is the tick in whose first core cycle the pair was armed, `clip` the factor of the attempt, `ledger` the pairs of a
committed step and a deferred binding whose entries are not yet applied, `start` the number of the step's first boundary, `defLost`
the bindings whose deferred pass was lost (R212), `drainStep` the step that a drain is applying (R211). -/
structure StepUnit where
  phase : Phase
  start : Nat
  attempt : Nat
  ticks : Nat
  waitTicks : Nat
  cause : Option (Nat × Nat)
  own : Option RedRec
  children : List (Nat × RedRec)
  up : Option RedRec
  firstSumsq : Option Nat
  verdict : Option VerdictRec
  actTick : Nat
  armed : Option (Nat × Option Nat)
  szFresh : Bool
  armTick : Option Nat
  clip : Nat
  consts : Kv Nat
  hist : List StepHist
  passesDone : NatSet
  passesRun : NatSet
  opsDone : NatSet
  residRun : NatSet
  defRun : NatSet
  ledger : List (Nat × Nat)
  draining : Bool
  events : List (Nat × Nat)
  defLost : NatSet
  drainStep : Option Nat
deriving DecidableEq, Repr

/-- Why a core is halted (18_debug.md DBG_CORE_INFO.REASON). -/
structure HaltReason where
  request : Bool
  brk : Bool
  watch : Bool
  bp : Nat
deriving DecidableEq, Repr

/-- A core (03_cores.md R78 to R99; 18_debug.md R455 to R458): kernels of the frame completed; the kernel running and
whether its work is done; boundaries it has run; the element its vector unit holds; halts; self-test running. -/
structure CoreRun where
  kpos : Nat
  run : Option Nat
  done : Bool
  ticks : Nat
  elem : Option Elem
  halt : Option HaltReason
  haltReq : Option HaltReason
  skipBp : Bool
  stepOne : Bool
  bist : Bool
deriving DecidableEq, Repr

/-- A core at rest. -/
def CoreRun.rest : CoreRun := ⟨0, none, false, 0, none, none, none, false, false, false⟩

end Sys2Proof.Machine
end

