-- ==== Sys2Proof/Machine/UnitTypes2.lean ====
section
/-! DEFINITION. The state of the units that tie the module to its surroundings: the host port with MSI-X, DOE and MCTP, what
the module has sent to the outside, and power. -/

namespace Sys2Proof.Machine

/-- What the module sends to the outside. The record of it is the model's: one entry per message, in the order sent. -/
inductive Out where
  /-- A posted write to host memory (R364, R373). -/
  | hostWrite (addr : Nat) (data : List Byte)
  /-- An MSI-X message (R377). -/
  | msix (vector addr data : Nat)
  /-- The completion of a BAR read (R371), or of a TAP BAR0 access. -/
  | completion (data : List Byte)
  /-- A completion that carries Completer Abort (R365). -/
  | abort
  /-- A DOE response object (R379), by the request's message type. -/
  | doe (kind : Nat) (data : List Byte)
  /-- An MCTP response (R380), on binding 0 (VDM) or 1 (sideband). -/
  | mctp (binding kind : Nat) (data : List Byte)
  /-- A flit sent on a fabric port (R312). -/
  | flit (port : Nat) (data : List Byte)
  /-- Training frames begin on a fabric port (R308); the spec gives no layout for them. -/
  | trainFrame (port : Nat)
  /-- An edge on an output pin: 0 TICK_OUT, 1 THERMTRIP_N, 2 WAKE_N. -/
  | pin (name : Nat) (level : Bool)
  /-- The TAP's boundary or identification register shifted out (R453). -/
  | tap (data : Nat)
deriving DecidableEq, Repr

/-- An MSI-X table entry (R377). -/
structure MsixEntry where
  addr : Nat
  data : Nat
  mask : Bool
deriving DecidableEq, Repr

/-- An MSI-X entry after a PCIe reset (R377). -/
def MsixEntry.reset : MsixEntry := ⟨0, 0, true⟩

/-- The DOE mailbox (R379): the object being served, and DOE Error. -/
structure DoeUnit where
  busy : Option Nat
  error : Bool
deriving DecidableEq, Repr

/-- The host port (R362 to R382): the trained link, BAR2 size, MSI-X, classes within their coalescing interval and those
with a message to send at its end, DOE, MCTP endpoint IDs by binding, the I3C dynamic address, the sideband's static address as sampled, the errors AER has recorded by their bit of the PCIe Uncorrectable Error Status, dword 0
of the first one's header, whether a verdict's vector 4 waits for a record of class STEP (R378), and what was sent. -/
structure HostUnit where
  linkUp : Bool
  bar2Log2 : Nat
  msixEnable : Bool
  funcMask : Bool
  entries : Kv MsixEntry
  pba : NatSet
  coalOpen : NatSet
  coalDue : NatSet
  doe : DoeUnit
  eids : Kv Nat
  i3c : Option Nat
  sbAddr : Nat
  aer : NatSet
  aerHead : Option Nat
  verdictDue : Bool
  out : List Out
deriving DecidableEq, Repr

/-- Power states (Table 17-6). -/
inductive PState where
  | active | idle | park | sleep | off
deriving DecidableEq, Repr

/-- Code of a power state in PWR_STATUS.STATE. -/
def PState.code : PState → Nat
  | .active => 0 | .idle => 1 | .park => 2 | .sleep => 3 | .off => 3

/-- The supply warning's course (R432): none, asserted, held at the P1 budget, ramping with the boundaries left. -/
inductive DipPhase where
  | none | asserted | hold | ramp (left : Nat)
deriving DecidableEq, Repr

/-- The power unit (17_power_reset.md): `powered` the rails are on, `rails` every rail is in regulation
(PWR_GOOD), `perst` PERST# is asserted, `started` the host interface has been released since the last cold reset,
`ready` PWR_STATUS.READY, the dip's course with its minimum and duration, PARK requested, steps forbidden until PARK,
consecutive low-energy ticks (R428), temperatures in °C by sensor, the sixteenths of B taken by R436 and whether an episode
runs, a critical episode's sensors, the trip latch, the trip and supply-reset records due at the next start-up, boundaries
without a step, and the BMC wake request. -/
structure PwrUnit where
  powered : Bool
  rails : Bool
  perst : Bool
  started : Bool
  ready : Bool
  state : PState
  dip : DipPhase
  dipMin : Nat
  dipUs : Nat
  parkReq : Bool
  noSteps : Bool
  lowTicks : Nat
  temps : Kv Int
  cut : Nat
  episode : Bool
  critical : NatSet
  trip : Bool
  prior : List EvRec
  idleCount : Nat
  bmcWake : Bool
deriving DecidableEq, Repr

end Sys2Proof.Machine
end

