-- ==== Sys2Proof/Machine/MemTypes.lean ====
section
/-! DEFINITION. The state of plates and slots, memory, pool, paddock, streams, groom units, reducers, check units, ports,
security and debug. One structure per unit. -/

namespace Sys2Proof.Machine

/-- A plate slot (02_plate_and_tick.md R43 to R48): state, configuration context, what PROVE sampled of CHECK_EXPECT and
PLT_EXPECT_HASH (R46). -/
structure Slot where
  st : SlotState
  plate : Option Plate
  expect : Option (List Byte)
deriving DecidableEq, Repr

/-- An empty slot. -/
def Slot.empty : Slot := ⟨.empty, none, none⟩

/-- Plates (R42 to R54): the two slots, the active one, the pending request, the regions of the FULL plate last active
with their SEL and generations when no plate is (R259). -/
structure PlateUnit where
  slot0 : Slot
  slot1 : Slot
  active : Option Nat
  pending : Option PendReq
  prevRegions : List Region
  sel : Kv Bool
  gen : Kv Nat
deriving DecidableEq, Repr

/-- A CXL port (R262 to R265): expander capacity seen, refused device, held requests, whether the hold ended in
LOFT_LINK_LOST, an expander added while a plate was active (capacity, width, speed code, of a supported type). -/
structure LoftPort where
  capacity : Nat
  refused : Bool
  held : List LoftReq
  lost : Bool
  due : Option (Nat × Nat × Nat × Bool)
deriving DecidableEq, Repr

/-- A port with no expander. -/
def LoftPort.none : LoftPort := ⟨0, false, [], false, .none⟩

/-- Memory (R247 to R265): HBM by stack-linear address, loft by port × 8 TiB + port-local address, core SRAM by
core × 768 KiB + offset, the accumulator files of the cores' matrix cells by core × 64 KiB + cell × 16 KiB + offset (03_cores.md
R74); the loft ports. -/
structure MemUnit where
  hbm : Memory
  loft : Memory
  sram : Memory
  acc : Memory
  loftPorts : Kv LoftPort
deriving DecidableEq, Repr

/-- Object states (Table 10-5). -/
inductive ObjState where
  | loft | movingUp | hbm | evicting
deriving DecidableEq, Repr

/-- A pool object (R266 to R269), keyed by home address: size, owner, groom unit of a DEFERRED object, state, pins, age,
written, write-back started, pages held. -/
structure PoolObj where
  size : Nat
  owner : Nat
  unit : Option Nat
  st : ObjState
  pins : Nat
  age : Nat
  dirty : Bool
  wbStarted : Bool
  pages : List Nat
deriving DecidableEq, Repr

/-- A move-up request waiting for pages or for a write-back (R269, R270): object, requester, boundaries waited. -/
structure PoolWait where
  home : Nat
  user : Nat
  ticks : Nat
deriving DecidableEq, Repr

/-- The shared pool (R266 to R273): objects by home address, free pages of POOL, free pages of POOL_LOFT, waiters. -/
structure PoolUnit where
  objs : Kv PoolObj
  free : NatSet
  spillFree : NatSet
  waits : List PoolWait
deriving DecidableEq, Repr

/-- Where a paddock record instance lies (06_backward_pass.md R157, R158). -/
inductive PadPlace where
  | pages (ps : List Nat)
  | spill (ps : List Nat)
  | dropped
deriving DecidableEq, Repr

/-- A record instance, keyed by record × 256 + micro-batch: its place, size, and whether its unstash or recompute began. -/
structure PadInst where
  place : PadPlace
  size : Nat
  begun : Bool
deriving DecidableEq, Repr

/-- The paddock (R155 to R161): instances, free pages, and the step's counts of spills and drops. -/
structure PadUnit where
  insts : Kv PadInst
  free : NatSet
  spilled : Nat
  dropped : Nat
deriving DecidableEq, Repr

/-- Window states (10_memory_tiers.md R261). -/
inductive WinState where
  | empty | filling | ready
deriving DecidableEq, Repr

/-- A window (R261; 11_streams.md R281): state, frame completions left before it empties by use, and the stream, tile and
step number of what it holds. -/
structure Win where
  st : WinState
  uses : Nat
  stream : Nat
  tile : Nat
  step : Nat
deriving DecidableEq, Repr

/-- A tile in flight (R280): its number, the step it belongs to, its deadline's base where it started before its own step began
(R286); the tags of its remote reads (R288); how far the fetch of an etched tile has come, with what it has fetched, how many
of its blocks it has staged and how many more it has asked for (R287); the homes of the pool objects it has pinned (R289); where poison it met came from (R290). -/
structure TileRun where
  tile : Nat
  step : Nat
  early : Option Nat
  tags : List Nat
  phase : Nat
  fetched : List (Byte × Bool)
  staged : Nat
  asked : Nat
  homes : List Nat
  bad : Option Nat
deriving DecidableEq, Repr

/-- A stream context (R280 to R286): next tile, whether that tile belongs to the step after the present one, tiles in flight in
ascending order, tiles delivered of the step `next` belongs to, the boundary from which tiles of the next step may start, the
walk block as read (empty where a read of it or of its list met poison) and whether the walk overflows. -/
structure CtxRun where
  next : Nat
  ahead : Bool
  flight : List TileRun
  done : Nat
  gate : Option Nat
  walk : List Byte
  overflow : Bool
deriving DecidableEq, Repr

/-- A context that waits for a step to begin. -/
def CtxRun.rest : CtxRun := ⟨0, true, [], 0, none, [], false⟩

/-- A staged etched block (R299, R305): context, tile and step, block index, offset of its output in the window, raw bytes
expected, whether the tensor header failed, whether payloads are encrypted and the tensor's ID, the table slot its count is
held against, whether no slot and no load had its generation when it was staged, the bytes staged. -/
structure EtchJob where
  ctx : Nat
  tile : Nat
  step : Nat
  block : Nat
  off : Nat
  raw : Nat
  hdrBad : Bool
  enc : Bool
  tensor : Nat
  ref : Option Nat
  gone : Bool
  data : List (Byte × Bool)
deriving DecidableEq, Repr

/-- A stream engine (R276, R303 to R305): contexts, staged blocks, the two table slots, the current one, the accepted
load. -/
structure StmEngine where
  ctxs : Kv CtxRun
  staged : List EtchJob
  tab0 : Option DecTable
  tab1 : Option DecTable
  cur : Nat
  load : Option DecTable
deriving DecidableEq, Repr

/-- An engine at rest. -/
def StmEngine.rest : StmEngine := ⟨[], [], none, none, 0, none⟩

/-- The stream engines and the windows, by window ID. -/
structure StmUnit where
  engines : Kv StmEngine
  wins : Kv Win
deriving DecidableEq, Repr

/-- A slice in a groom unit's slice buffer (07_groom_units.md R174, R183): operation, slice index, its FP32 values with
poison, and for a row delivery the row indices. -/
structure GSlice where
  op : Nat
  slice : Nat
  rows : Option (List Nat)
  vals : List (Nat × Bool)
deriving DecidableEq, Repr

/-- A pass in progress (R174 to R176): binding, slices processed, position in the slice in progress, norm accumulators A0–A3 by
lane × 4 + k, the global-norm partial by lane, the watch counts so far (TOTAL, ZEROS, SATS, NONFIN, AMAX), whether poison
reached an output, elements accumulated; of a deferred pass the step it applies (08_step_commit.md R209) and whether its first
write-back has started (10_memory_tiers.md R272); the mask sectors it has read, by address (06_backward_pass.md R147). -/
structure GPass where
  binding : Nat
  taken : Nat
  pos : Nat
  acc : Kv Nat
  gl : Kv Nat
  watch : List Nat
  poisoned : Bool
  elems : Nat
  applies : Option Nat
  bound : Bool
  masks : Kv (List (Byte × Bool))
deriving DecidableEq, Repr

/-- A pass of a binding before its first element: of the step's own gradient, or of the step a deferred pass applies. -/
def GPass.start (binding : Nat) (applies : Option Nat) : GPass :=
  ⟨binding, 0, 0, [], [], [0, 0, 0, 0, 0], false, 0, applies, false, []⟩

/-- What a finished pass leaves until the verdict: A0 to A3, the global-norm partial, the watch counts, the step applied, and
whether it was a deferred pass, elements accumulated. -/
structure PassDone where
  sums : List Nat
  gnorm : Nat
  watch : List Nat
  step : Nat
  deferred : Bool
  elems : Nat
deriving DecidableEq, Repr

/-- A groom unit (R162, R174 to R186): the pass in progress, slices waiting, the element its lanes hold, what finished passes of
the step left by binding, rows touched by binding, elements processed in the step. -/
structure GroomRun where
  pass : Option GPass
  buffer : List GSlice
  elem : Option Elem
  results : Kv PassDone
  touched : Kv NatSet
  count : Nat
deriving DecidableEq, Repr

/-- A groom unit at rest. -/
def GroomRun.rest : GroomRun := ⟨none, [], none, [], [], 0⟩

/-- The groom units, the accepted residuals of preconditioner records (R186), and the reconciles due (R184). -/
structure GroomUnit where
  units : Kv GroomRun
  accepted : Kv Bool
  reconcile : List Nat
deriving DecidableEq, Repr

/-- The value of a contribution, partial or result of a slice: FP32 codes with their poison, by row for a ROWS operation. -/
structure Contrib where
  rows : Option (List Nat)
  vals : List (Nat × Bool)
deriving DecidableEq, Repr

/-- States of an operation (COL_OP_INFO.STATE). -/
inductive OpState where
  | idle | waitInput | sending | waitResult | done
deriving DecidableEq, Repr

/-- Code of an operation's state. -/
def OpState.code : OpState → Nat
  | .idle => 0 | .waitInput => 1 | .sending => 2 | .waitResult => 3 | .done => 4

/-- The sum of a slice being formed: how many members' values are in it, and their sum (13_collectives.md R343, R344). -/
structure SlicePart where
  next : Nat
  sum : Option Contrib
deriving DecidableEq, Repr

/-- An operation of the step (13_collectives.md R343 to R356): state, micro-batch being served or next, per slice the module's own
contribution while it waits to be summed, the sum being formed and the result once it is known, the slices delivered or written,
and whether COLL_NONFINITE was raised. -/
structure OpRun where
  st : OpState
  mb : Nat
  held : Kv Contrib
  parts : Kv SlicePart
  results : Kv Contrib
  delivered : NatSet
  nonfinite : Bool
deriving DecidableEq, Repr

/-- An operation that has not begun. -/
def OpRun.rest : OpRun := ⟨.idle, 0, [], [], [], [], false⟩

/-- A transfer being assembled from flits (Table 13-6): source, operation, slice, micro-batch, form, bytes by flit. -/
structure CollXfer where
  src : Nat
  op : Nat
  slice : Nat
  mb : Nat
  attempt : Nat
  step : Nat
  form : Nat
  parts : Kv (List Byte)
  last : Option Nat
  poisoned : Bool
deriving DecidableEq, Repr

/-- The collective engine (R339 to R361): operations, transfers in assembly or held for a later step or attempt, ledger
norm partials of the reducers (R208), reducer buffers' high-water marks. -/
structure CollUnit where
  ops : Kv OpRun
  xfers : List CollXfer
  ledgerNorm : Kv Nat
  high : Kv Nat
  staleRaised : Bool
deriving DecidableEq, Repr

/-- States of a check unit (CHK_STATUS.STATE). -/
inductive ChkState where
  | idle | scan | waitAttach | snoop
deriving DecidableEq, Repr

/-- Code of a check unit's state. -/
def ChkState.code : ChkState → Nat
  | .idle => 0 | .scan => 1 | .waitAttach => 2 | .snoop => 3

/-- A check unit's job (15_check_units.md R384 to R390): the job, the plate record it is of, whether its scan has been read, the
CRC register, bytes processed, the low byte of an alive count met, the next alive count, the record that failed with the
value found there, a poison met, the stream abandoned. -/
structure ChkRun where
  st : ChkState
  job : ChkJob
  plateJob : Option Nat
  scanned : Bool
  crc : Nat
  count : Nat
  low : Nat
  alive : Nat
  bad : Option Nat
  found : Nat
  poisoned : Bool
  abandoned : Bool
deriving DecidableEq, Repr

/-- The check units and the plate jobs started in the step. -/
structure ChkUnit where
  runs : Kv ChkRun
  started : NatSet
deriving DecidableEq, Repr

/-- The transport header and payload of a flit (12_fabric_ports.md Table 12-1, bytes 0x18 to 0xF7); `via` is the port a flit
in transit came in by, kept with it while it waits (R331, R332). -/
structure TFlit where
  dest : Nat
  src : Nat
  type : Nat
  cls : Nat
  vl : Nat
  poison : Bool
  retx : Bool
  last : Bool
  hops : Nat
  seq : Nat
  tag : Nat
  addr : Nat
  len : Nat
  payload : List Byte
  via : Option Nat
deriving DecidableEq, Repr

/-- Kinds of a flit (Table 12-2). -/
inductive FlitKind where
  | idle | payload | test | control | reserved
deriving DecidableEq, Repr

/-- Port states (Table 12-5). -/
inductive PortState where
  | disabled | down | training | quarantine | active | retrain | failed
deriving DecidableEq, Repr

/-- Code of a port state (Table 12-5). -/
def PortState.code : PortState → Nat
  | .disabled => 0 | .down => 1 | .training => 2 | .quarantine => 3 | .active => 4 | .retrain => 5 | .failed => 6

/-- A fabric port (R306 to R329): state, width in lanes, half kept, training attempts, training frames being sent and for how many
boundaries, neighbour as last reported, ACTIVE confirmed (R325),
transmit credits by class × 2 + VL, entries freed and not yet returned, flits queued, retry buffer (sequence and flit),
sequence to retransmit from, next transmit and receive sequence numbers, verdict to send (acknowledge or NAK), retry rounds
without progress, slots BE has waited, test mode, the mark and echo to send, the port's own mark sent (phase in ps, tick number) and the neighbour's received (arrival in
ps, phase, tick number, period) (R317, R318), once-only flags, PAYLOAD flits sent and received in the tick, the pattern generator of
TEST flits, the lanes that failed since the last port reset (R322, R328). -/
structure Port where
  st : PortState
  lanes : Nat
  half : Nat
  attempts : Nat
  probing : Bool
  nbr : Option CtlRec
  confirmed : Bool
  loopback : Bool
  credits : Kv Nat
  freed : Kv Nat
  queue : List TFlit
  retry : List (Nat × TFlit)
  resend : Option Nat
  txSeq : Nat
  rxSeq : Nat
  ackDue : Option Bool
  nakSent : Bool
  rounds : Nat
  beWait : Nat
  test : Bool
  ctlDue : Bool
  markDue : Bool
  echoDue : Bool
  ownMark : Option (Int × Nat)
  nbrMark : Option (Int × Nat × Nat × Nat)
  skew : Option (Nat × Int)
  creditRaised : Bool
  txCount : Nat
  rxCount : Nat
  prbs : Nat
  failedLanes : Nat
  probeTicks : Nat
deriving DecidableEq, Repr

/-- A port before anything has happened on it. -/
def Port.rest (st : PortState) : Port :=
  ⟨st, 0, 0, 0, false, none, false, false, [], [], [], [], none, 0, 0, none, false, 0, 0, false, false, false, false, none,
    none, none, false, 0, 0, 0x7FFFFFFF, 0, 0⟩

/-- A flow this module originates (R333, R335), keyed by destination × 4 + class: next sequence number,
flits unacknowledged, flits waiting for room, timeouts without progress. -/
structure TxFlow where
  next : Nat
  unacked : List TFlit
  waiting : List TFlit
  timeouts : Nat
deriving DecidableEq, Repr

/-- A flow this module receives (R334, R335), keyed by origin × 4 + class: cumulative point, numbers applied beyond it,
how far the cumulative point has advanced since the last E2E_ACK, an applied flit not yet acknowledged. -/
structure RxFlow where
  cum : Nat
  above : NatSet
  since : Nat
  due : Bool
deriving DecidableEq, Repr

/-- A remote read this module has outstanding (R336), keyed by tag: destination of the data (a device address, or a core
and SRAM offset), length, bytes received by offset, poison. -/
structure RemRead where
  module : Nat
  len : Nat
  got : Kv (List (Byte × Bool))
  poisoned : Bool
deriving DecidableEq, Repr

/-- The fabric (R306 to R338): ports, flows, flits delivered locally and not yet handled with their ingress ports, remote reads outstanding,
once-per-tick flags, flows given up and not acknowledged since, and the flits given up whose transfers have still to complete
poisoned (R335). -/
structure FabUnit where
  ports : Kv Port
  tx : Kv TxFlow
  rx : Kv RxFlow
  inbox : List (Nat × TFlit)
  reads : Kv RemRead
  nextTag : Nat
  ttlRaised : Bool
  unreachRaised : Bool
  lostTo : NatSet
  lost : List TFlit
deriving DecidableEq, Repr

/-- A trace record (18_debug.md Table 18-3). -/
structure TraceRec where
  tick : Nat
  cycle : Nat
  kind : Nat
  inst : Nat
  d0 : Nat
  d1 : Nat
  d2 : Nat
  d3 : Nat
deriving DecidableEq, Repr

/-- The debug module (R451 to R466): functional clocks stopped (R462), FRZ_N asserted, a freeze not yet honoured, readout
ready, MEMREAD, device halt in force, the trace's records by index with its state (0 OFF, 1 RUN, 2 STOPPED), records left
after the trigger, watches that raised WATCH_HIT this tick, the TAP's previous access (data, refused), whether
the freeze came from DBG_FRZ_CTRL, whether a device STEP is being made (R457), and the TAP's instruction (R453). -/
structure DbgUnit where
  stopped : Bool
  frzPin : Bool
  frzWait : Bool
  ready : Bool
  memread : Bool
  devHalt : Bool
  trace : Kv TraceRec
  traceSt : Nat
  post : Option Nat
  watchRaised : NatSet
  tapLast : Option (Nat × Bool)
  frzReg : Bool
  devStep : Bool
  tapIr : Nat
deriving DecidableEq, Repr

end Sys2Proof.Machine
end

