-- ==== Sys2Proof/Machine/RegFile.lean ====
section
/-! DEFINITION. BAR0 registers as data: what a register table row says, the store of register words, and the reading and
writing of one field. A register word that nothing has changed has the reset value of its table row. -/

namespace Sys2Proof.Machine

/-- Access codes of a register field (00_scope.md R10, Table 00-4). -/
inductive Access where
  | rw | ro | w1c | w1s | wo | rwp | rwl
deriving DecidableEq, Repr

/-- Retention of a register (00_scope.md R17; 17_power_reset.md R450): the class, and for a volatile register the
innermost reset kind at which its table says it takes its default. -/
inductive Retention where
  | persistent | sticky | plate | vola | volaFunction | volaSoft | volaFundamental | volaActivation
deriving DecidableEq, Repr

/-- Whether a register stands alone or is a half of a 64-bit pair (R14). -/
inductive RegKind where
  | plain | lo | hi
deriving DecidableEq, Repr

/-- One field of a register: bits [hi:lo], access code and reset value. -/
structure FieldSpec where
  hi : Nat
  lo : Nat
  acc : Access
  reset : Nat
deriving DecidableEq, Repr

/-- One row of the register tables: offset of instance 0, up to two instance dimensions with their strides. -/
structure RegSpec where
  base : Nat
  n1 : Nat
  s1 : Nat
  n2 : Nat
  s2 : Nat
  ret : Retention
  kind : RegKind
  fields : List FieldSpec
deriving DecidableEq, Repr

/-- A named field of a register. -/
structure Fld where
  reg : RegSpec
  hi : Nat
  lo : Nat
deriving DecidableEq, Repr

/-- BAR0 offset of instance (i, j). -/
def RegSpec.addr (r : RegSpec) (i j : Nat) : Nat := r.base + i * r.s1 + j * r.s2

/-- First instance number of the register at offset `off`. -/
def RegSpec.index1 (r : RegSpec) (off : Nat) : Nat := if r.s1 = 0 then 0 else (off - r.base) / r.s1

/-- Second instance number of the register at offset `off`. -/
def RegSpec.index2 (r : RegSpec) (off : Nat) : Nat :=
  if r.s2 = 0 then 0 else (off - r.base - r.index1 off * r.s1) / r.s2

/-- Does an instance of the register lie at offset `off`? -/
def RegSpec.holds (r : RegSpec) (off : Nat) : Bool :=
  decide (r.base ≤ off) && decide (r.index1 off < r.n1) && decide (r.index2 off < r.n2)
    && decide (r.addr (r.index1 off) (r.index2 off) = off)

/-- The reset word: every field at its reset value, reserved bits 0 (R15). -/
def RegSpec.resetWord (r : RegSpec) : Nat := (r.fields.map (fun f => f.reset * 2 ^ f.lo)).sum

/-- The registers' words: those that differ from their reset value, by BAR0 offset; the values written to pending
fields and not yet in effect (R12); the last value written to each _LO half (R14); the snapshot of each _HI half that
reading its _LO half took (R14). -/
structure RegFile where
  store : Kv Nat
  pend : Kv Nat
  due : Kv Nat
  lo : Kv Nat
  snap : Kv Nat
deriving DecidableEq, Repr

/-- Every register at its reset value. -/
def RegFile.empty : RegFile := ⟨[], [], [], [], []⟩

/-- The word of a register instance. -/
def RegFile.read (rf : RegFile) (r : RegSpec) (i j : Nat) : Nat := kvGetD rf.store (r.addr i j) r.resetWord

/-- Store the word of a register instance; a word equal to the reset word is not listed. -/
def RegFile.write (rf : RegFile) (r : RegSpec) (i j v : Nat) : RegFile :=
  { rf with store := if v = r.resetWord then kvDel rf.store (r.addr i j) else kvSet rf.store (r.addr i j) v }

/-- Bits [hi:lo] of `w`. -/
def bitsOf (w hi lo : Nat) : Nat := w / 2 ^ lo % 2 ^ (hi + 1 - lo)

/-- `w` with bits [hi:lo] replaced by the low bits of `v`. -/
def setBits (w hi lo v : Nat) : Nat :=
  w / 2 ^ (hi + 1) * 2 ^ (hi + 1) + v % 2 ^ (hi + 1 - lo) * 2 ^ lo + w % 2 ^ lo

/-- The value of a field of instance (i, j). -/
def RegFile.get (rf : RegFile) (f : Fld) (i j : Nat) : Nat := bitsOf (rf.read f.reg i j) f.hi f.lo

/-- Set a field of instance (i, j). -/
def RegFile.set (rf : RegFile) (f : Fld) (i j v : Nat) : RegFile :=
  rf.write f.reg i j (setBits (rf.read f.reg i j) f.hi f.lo v)

end Sys2Proof.Machine
end

