-- ==== Sys2Proof/Machine/RegMap.lean ====
section
/-! DEFINITION. The register map of BAR0: every register of the manual's register tables, with its offset, instances,
retention class and fields (bits, access code, reset value), and names for the fields the meanings use. -/

namespace Sys2Proof.Machine

/-- 14_host_interface.md, R2. -/
def Reg.TOP_ID : RegSpec :=
  ⟨0x0, 1, 0, 1, 0, .persistent, .plain, [⟨31, 16, .ro, 0x4010⟩, ⟨15, 8, .ro, Config.revision.toNat⟩, ⟨0, 0, .ro, 0⟩]⟩
/-- 14_host_interface.md, R362. -/
def Reg.TOP_LINK : RegSpec :=
  ⟨0x4, 1, 0, 1, 0, .vola, .plain, [⟨8, 8, .ro, 0⟩, ⟨7, 4, .ro, 0⟩, ⟨2, 0, .ro, 0⟩]⟩
/-- 14_host_interface.md, R370. -/
def Reg.TOP_BAR2_BASE_LO : RegSpec :=
  ⟨0x8, 1, 0, 1, 0, .volaFunction, .lo, [⟨31, 0, .rw, 0⟩]⟩
/-- 14_host_interface.md, R370. -/
def Reg.TOP_BAR2_BASE_HI : RegSpec :=
  ⟨0xC, 1, 0, 1, 0, .volaFunction, .hi, [⟨15, 0, .rw, 0⟩]⟩
/-- 14_host_interface.md, R382. -/
def Reg.TOP_MGMT : RegSpec :=
  ⟨0x10, 1, 0, 1, 0, .persistent, .plain, [⟨0, 0, .ro, 0⟩]⟩
/-- 14_host_interface.md, R370,R372,R374. -/
def Reg.TOP_HOST_ERR : RegSpec :=
  ⟨0x14, 1, 0, 1, 0, .sticky, .plain, [⟨2, 2, .w1c, 0⟩, ⟨1, 1, .w1c, 0⟩, ⟨0, 0, .w1c, 0⟩]⟩
/-- 02_plate_and_tick.md, R44. -/
def Reg.PLT_SLOT_CMD : RegSpec :=
  ⟨0x100000, 2, 0x100, 1, 0, .vola, .plain, [⟨1, 0, .wo, 0⟩]⟩
/-- 02_plate_and_tick.md, R43. -/
def Reg.PLT_SLOT_STATUS : RegSpec :=
  ⟨0x100004, 2, 0x100, 1, 0, .plate, .plain, [⟨17, 17, .ro, 0⟩, ⟨16, 16, .ro, 0⟩, ⟨15, 8, .ro, 0⟩, ⟨2, 0, .ro, 0⟩]⟩
/-- 02_plate_and_tick.md, R48. -/
def Reg.PLT_SLOT_LEN : RegSpec :=
  ⟨0x100008, 2, 0x100, 1, 0, .plate, .plain, [⟨31, 0, .ro, 0⟩]⟩
/-- 02_plate_and_tick.md, R48. -/
def Reg.PLT_SLOT_EPOCH : RegSpec :=
  ⟨0x10000C, 2, 0x100, 1, 0, .plate, .plain, [⟨31, 0, .ro, 0⟩]⟩
/-- 02_plate_and_tick.md, R497. -/
def Reg.PLT_SLOT_FAIL : RegSpec :=
  ⟨0x100010, 2, 0x100, 1, 0, .plate, .plain, [⟨31, 0, .ro, 0⟩]⟩
/-- 02_plate_and_tick.md, R48. -/
def Reg.PLT_SLOT_HASH : RegSpec :=
  ⟨0x100020, 2, 0x100, 8, 4, .plate, .plain, [⟨31, 0, .ro, 0⟩]⟩
/-- 02_plate_and_tick.md, R46. -/
def Reg.PLT_EXPECT_HASH : RegSpec :=
  ⟨0x100200, 8, 4, 1, 0, .volaFunction, .plain, [⟨31, 0, .rw, 0⟩]⟩
/-- 02_plate_and_tick.md, R46. -/
def Reg.PLT_CTRL : RegSpec :=
  ⟨0x100220, 1, 0, 1, 0, .volaFunction, .plain, [⟨1, 1, .ro, 0⟩, ⟨0, 0, .rw, 0⟩]⟩
/-- 02_plate_and_tick.md, R49. -/
def Reg.PLT_ACT_TICK_LO : RegSpec :=
  ⟨0x100300, 1, 0, 1, 0, .volaFunction, .lo, [⟨31, 0, .rw, 0⟩]⟩
/-- 02_plate_and_tick.md, R49. -/
def Reg.PLT_ACT_TICK_HI : RegSpec :=
  ⟨0x100304, 1, 0, 1, 0, .volaFunction, .hi, [⟨15, 0, .rw, 0⟩]⟩
/-- 02_plate_and_tick.md, R49,R51. -/
def Reg.PLT_ACTIVATE : RegSpec :=
  ⟨0x100308, 1, 0, 1, 0, .vola, .plain, [⟨2, 1, .wo, 0⟩, ⟨0, 0, .wo, 0⟩]⟩
/-- 02_plate_and_tick.md, R51,R187. -/
def Reg.PLT_STATUS : RegSpec :=
  ⟨0x100310, 1, 0, 1, 0, .plate, .plain, [⟨5, 5, .ro, 0⟩, ⟨4, 4, .ro, 0⟩, ⟨3, 3, .ro, 0⟩, ⟨2, 2, .ro, 0⟩, ⟨1, 1, .ro, 0⟩, ⟨0, 0, .ro, 0⟩]⟩
/-- 02_plate_and_tick.md, R52. -/
def Reg.PLT_ACT_RESULT : RegSpec :=
  ⟨0x100314, 1, 0, 1, 0, .plate, .plain, [⟨2, 0, .ro, 0⟩]⟩
/-- 02_plate_and_tick.md, R50. -/
def Reg.PLT_ACT_DONE_LO : RegSpec :=
  ⟨0x100318, 1, 0, 1, 0, .plate, .lo, [⟨31, 0, .ro, 0⟩]⟩
/-- 02_plate_and_tick.md, R50. -/
def Reg.PLT_ACT_DONE_HI : RegSpec :=
  ⟨0x10031C, 1, 0, 1, 0, .plate, .hi, [⟨15, 0, .ro, 0⟩]⟩
/-- 02_plate_and_tick.md, R41. -/
def Reg.PLT_ROUTE_GEN : RegSpec :=
  ⟨0x100320, 1, 0, 1, 0, .plate, .plain, [⟨31, 0, .ro, 0⟩]⟩
/-- 02_plate_and_tick.md, R44. -/
def Reg.PLT_ERR : RegSpec :=
  ⟨0x100324, 1, 0, 1, 0, .sticky, .plain, [⟨1, 1, .w1c, 0⟩, ⟨0, 0, .w1c, 0⟩]⟩
/-- 02_plate_and_tick.md, R259. -/
def Reg.PLT_FULL_GEN : RegSpec :=
  ⟨0x100328, 1, 0, 1, 0, .sticky, .plain, [⟨15, 0, .ro, 0⟩]⟩
/-- 02_plate_and_tick.md, R71. -/
def Reg.PLT_SLIP_COUNT : RegSpec :=
  ⟨0x100400, 256, 4, 1, 0, .volaActivation, .plain, [⟨31, 24, .ro, 0⟩, ⟨23, 0, .ro, 0⟩]⟩
/-- 02_plate_and_tick.md, R67. -/
def Reg.PLT_STABLE_FRAME : RegSpec :=
  ⟨0x100800, 256, 4, 1, 0, .volaActivation, .plain, [⟨26, 24, .ro, 0⟩, ⟨23, 0, .ro, 0⟩]⟩
/-- 02_plate_and_tick.md, R56. -/
def Reg.TCK_PERIOD : RegSpec :=
  ⟨0x200000, 1, 0, 1, 0, .volaSoft, .plain, [⟨6, 0, .rwl, 8⟩]⟩
/-- 02_plate_and_tick.md, R57. -/
def Reg.TCK_COUNT_LO : RegSpec :=
  ⟨0x200004, 1, 0, 1, 0, .volaSoft, .lo, [⟨31, 0, .ro, 0⟩]⟩
/-- 02_plate_and_tick.md, R57. -/
def Reg.TCK_COUNT_HI : RegSpec :=
  ⟨0x200008, 1, 0, 1, 0, .volaSoft, .hi, [⟨15, 0, .ro, 0⟩]⟩
/-- 02_plate_and_tick.md, R57. -/
def Reg.TCK_CYCLE : RegSpec :=
  ⟨0x20000C, 1, 0, 1, 0, .vola, .plain, [⟨15, 0, .ro, 0⟩]⟩
/-- 02_plate_and_tick.md, R58. -/
def Reg.TCK_SOURCE : RegSpec :=
  ⟨0x200010, 1, 0, 1, 0, .volaSoft, .plain, [⟨1, 0, .rwl, 0⟩]⟩
/-- 02_plate_and_tick.md, R62. -/
def Reg.TCK_UPSTREAM : RegSpec :=
  ⟨0x200014, 1, 0, 1, 0, .volaSoft, .plain, [⟨31, 31, .rwl, 0⟩, ⟨29, 24, .rwl, 0⟩, ⟨23, 23, .rwl, 0⟩, ⟨21, 16, .rwl, 0⟩, ⟨15, 15, .rwl, 0⟩, ⟨13, 8, .rwl, 0⟩, ⟨7, 7, .rwl, 0⟩, ⟨5, 0, .rwl, 0⟩]⟩
/-- 02_plate_and_tick.md, R59,R61,R64. -/
def Reg.TCK_STATUS : RegSpec :=
  ⟨0x200018, 1, 0, 1, 0, .vola, .plain, [⟨31, 24, .ro, 0⟩, ⟨9, 4, .ro, 0⟩, ⟨3, 2, .ro, 0⟩, ⟨1, 1, .ro, 0⟩, ⟨0, 0, .ro, 0⟩]⟩
/-- 02_plate_and_tick.md, R56,R60,R61,R64. -/
def Reg.TCK_ERR : RegSpec :=
  ⟨0x20001C, 1, 0, 1, 0, .sticky, .plain, [⟨3, 3, .w1c, 0⟩, ⟨2, 2, .w1c, 0⟩, ⟨1, 1, .w1c, 0⟩, ⟨0, 0, .w1c, 0⟩]⟩
/-- 02_plate_and_tick.md, R55. -/
def Reg.TCK_TRIM : RegSpec :=
  ⟨0x200020, 1, 0, 1, 0, .vola, .plain, [⟨31, 16, .ro, 0⟩, ⟨15, 0, .ro, 0⟩]⟩
/-- 02_plate_and_tick.md, R64. -/
def Reg.TCK_OUT_CTRL : RegSpec :=
  ⟨0x200024, 1, 0, 1, 0, .volaSoft, .plain, [⟨0, 0, .rw, 0⟩]⟩
/-- 05_numeric_watch.md, R127. -/
def Reg.NUM_WATCH_BASE_LO : RegSpec :=
  ⟨0x300000, 1, 0, 1, 0, .plate, .lo, [⟨31, 0, .ro, 0⟩]⟩
/-- 05_numeric_watch.md, R127. -/
def Reg.NUM_WATCH_BASE_HI : RegSpec :=
  ⟨0x300004, 1, 0, 1, 0, .plate, .hi, [⟨15, 0, .ro, 0⟩]⟩
/-- 05_numeric_watch.md, R137. -/
def Reg.NUM_NORM_BASE_LO : RegSpec :=
  ⟨0x300008, 1, 0, 1, 0, .plate, .lo, [⟨31, 0, .ro, 0⟩]⟩
/-- 05_numeric_watch.md, R137. -/
def Reg.NUM_NORM_BASE_HI : RegSpec :=
  ⟨0x30000C, 1, 0, 1, 0, .plate, .hi, [⟨15, 0, .ro, 0⟩]⟩
/-- 05_numeric_watch.md, R139. -/
def Reg.NUM_SAT_THRESH : RegSpec :=
  ⟨0x300010, 1, 0, 1, 0, .volaFunction, .plain, [⟨15, 0, .rwp, 0⟩]⟩
/-- 05_numeric_watch.md, R139. -/
def Reg.NUM_ZERO_THRESH : RegSpec :=
  ⟨0x300014, 1, 0, 1, 0, .volaFunction, .plain, [⟨15, 0, .rwp, 0⟩]⟩
/-- 05_numeric_watch.md, R139. -/
def Reg.NUM_RATIO_THRESH : RegSpec :=
  ⟨0x300018, 1, 0, 1, 0, .volaFunction, .plain, [⟨31, 0, .rwp, 0⟩]⟩
/-- 05_numeric_watch.md, R139. -/
def Reg.NUM_STICKY : RegSpec :=
  ⟨0x30001C, 1, 0, 1, 0, .sticky, .plain, [⟨4, 4, .w1c, 0⟩, ⟨3, 3, .w1c, 0⟩, ⟨2, 2, .w1c, 0⟩, ⟨1, 1, .w1c, 0⟩, ⟨0, 0, .w1c, 0⟩]⟩
/-- 05_numeric_watch.md, R139. -/
def Reg.NUM_DROPPED : RegSpec :=
  ⟨0x300020, 1, 0, 1, 0, .sticky, .plain, [⟨31, 0, .w1c, 0⟩]⟩
/-- 07_groom_units.md, R174. -/
def Reg.GRM_STATUS : RegSpec :=
  ⟨0x400000, 12, 0x10000, 1, 0, .vola, .plain, [⟨27, 16, .ro, 0⟩, ⟨2, 0, .ro, 0⟩]⟩
/-- 07_groom_units.md, R124. -/
def Reg.GRM_FLAGS : RegSpec :=
  ⟨0x400004, 12, 0x10000, 1, 0, .volaFunction, .plain, [⟨3, 3, .w1c, 0⟩, ⟨2, 2, .w1c, 0⟩, ⟨1, 1, .w1c, 0⟩, ⟨0, 0, .w1c, 0⟩]⟩
/-- 07_groom_units.md, R124. -/
def Reg.GRM_SAT : RegSpec :=
  ⟨0x400008, 12, 0x10000, 1, 0, .volaFunction, .plain, [⟨31, 0, .ro, 0⟩]⟩
/-- 07_groom_units.md, R124. -/
def Reg.GRM_CTRL : RegSpec :=
  ⟨0x40000C, 12, 0x10000, 1, 0, .vola, .plain, [⟨0, 0, .wo, 0⟩]⟩
/-- 07_groom_units.md, register table. -/
def Reg.GRM_ELEMS_LO : RegSpec :=
  ⟨0x400010, 12, 0x10000, 1, 0, .volaFunction, .lo, [⟨31, 0, .ro, 0⟩]⟩
/-- 07_groom_units.md, register table. -/
def Reg.GRM_ELEMS_HI : RegSpec :=
  ⟨0x400014, 12, 0x10000, 1, 0, .volaFunction, .hi, [⟨15, 0, .ro, 0⟩]⟩
/-- 07_groom_units.md, R162. -/
def Reg.GRM_UTIL : RegSpec :=
  ⟨0x400018, 12, 0x10000, 1, 0, .vola, .plain, [⟨16, 0, .ro, 0⟩]⟩
/-- 07_groom_units.md, R186. -/
def Reg.GRM_FALLBACK : RegSpec :=
  ⟨0x40001C, 12, 0x10000, 1, 0, .sticky, .plain, [⟨31, 0, .ro, 0⟩]⟩
/-- 07_groom_units.md, R178. -/
def Reg.GRM_STEPSZ_NEXT : RegSpec :=
  ⟨0x4C0000, 1, 0, 1, 0, .volaFunction, .plain, [⟨31, 0, .rw, 0⟩]⟩
/-- 07_groom_units.md, R178. -/
def Reg.GRM_STEP_NEXT : RegSpec :=
  ⟨0x4C0004, 1, 0, 1, 0, .volaFunction, .plain, [⟨31, 0, .rw, 0⟩]⟩
/-- 07_groom_units.md, R19,R179. -/
def Reg.GRM_STEPSZ : RegSpec :=
  ⟨0x4C0008, 1, 0, 1, 0, .volaFunction, .plain, [⟨31, 0, .ro, 0⟩]⟩
/-- 07_groom_units.md, R179. -/
def Reg.GRM_STEP : RegSpec :=
  ⟨0x4C000C, 1, 0, 1, 0, .volaSoft, .plain, [⟨31, 0, .rwl, 0⟩]⟩
/-- 07_groom_units.md, R178,R179. -/
def Reg.GRM_STEP_STATUS : RegSpec :=
  ⟨0x4C0010, 1, 0, 1, 0, .volaFunction, .plain, [⟨3, 3, .w1c, 0⟩, ⟨2, 2, .w1c, 0⟩, ⟨1, 1, .ro, 0⟩, ⟨0, 0, .ro, 0⟩]⟩
/-- 07_groom_units.md, R181. -/
def Reg.GRM_BC1 : RegSpec :=
  ⟨0x4C0014, 1, 0, 1, 0, .volaFunction, .plain, [⟨31, 0, .ro, 0⟩]⟩
/-- 07_groom_units.md, R181. -/
def Reg.GRM_BC2 : RegSpec :=
  ⟨0x4C0018, 1, 0, 1, 0, .volaFunction, .plain, [⟨31, 0, .ro, 0⟩]⟩
/-- 07_groom_units.md, R182. -/
def Reg.GRM_STEPSZ_HIST : RegSpec :=
  ⟨0x4C0020, 4, 4, 1, 0, .volaFunction, .plain, [⟨31, 0, .ro, 0⟩]⟩
/-- 07_groom_units.md, R180. -/
def Reg.GRM_KSET : RegSpec :=
  ⟨0x4C0040, 1, 0, 1, 0, .volaFunction, .plain, [⟨15, 0, .rw, 0⟩]⟩
/-- 07_groom_units.md, R180. -/
def Reg.GRM_KPEND : RegSpec :=
  ⟨0x4C0044, 1, 0, 1, 0, .volaFunction, .plain, [⟨31, 0, .ro, 0⟩]⟩
/-- 07_groom_units.md, R186. -/
def Reg.GRM_PRECOND_FB : RegSpec :=
  ⟨0x4C0048, 1, 0, 1, 0, .sticky, .plain, [⟨31, 0, .ro, 0⟩]⟩
/-- 07_groom_units.md, R180. -/
def Reg.GRM_KDATA : RegSpec :=
  ⟨0x4C0080, 32, 4, 1, 0, .volaFunction, .plain, [⟨31, 0, .rw, 0⟩]⟩
/-- 08_step_commit.md, R187. -/
def Reg.GRM_PHASE : RegSpec :=
  ⟨0x4C0100, 1, 0, 1, 0, .volaFunction, .plain, [⟨8, 8, .ro, 0⟩, ⟨2, 0, .ro, 0⟩]⟩
/-- 08_step_commit.md, R201. -/
def Reg.GRM_VERDICT : RegSpec :=
  ⟨0x4C0104, 1, 0, 1, 0, .volaFunction, .plain, [⟨31, 16, .ro, 0⟩, ⟨4, 4, .ro, 0⟩, ⟨2, 0, .ro, 0⟩]⟩
/-- 08_step_commit.md, R201. -/
def Reg.GRM_VERDICT_STEP : RegSpec :=
  ⟨0x4C0108, 1, 0, 1, 0, .volaFunction, .plain, [⟨31, 0, .ro, 0⟩]⟩
/-- 08_step_commit.md, R195. -/
def Reg.GRM_VERDICT_TICK_LO : RegSpec :=
  ⟨0x4C010C, 1, 0, 1, 0, .volaFunction, .lo, [⟨31, 0, .ro, 0⟩]⟩
/-- 08_step_commit.md, R195. -/
def Reg.GRM_VERDICT_TICK_HI : RegSpec :=
  ⟨0x4C0110, 1, 0, 1, 0, .volaFunction, .hi, [⟨15, 0, .ro, 0⟩]⟩
/-- 08_step_commit.md, R194. -/
def Reg.GRM_GNORM_LO : RegSpec :=
  ⟨0x4C0114, 1, 0, 1, 0, .volaFunction, .lo, [⟨31, 0, .ro, 0⟩]⟩
/-- 08_step_commit.md, R194. -/
def Reg.GRM_GNORM_HI : RegSpec :=
  ⟨0x4C0118, 1, 0, 1, 0, .volaFunction, .hi, [⟨31, 0, .ro, 0⟩]⟩
/-- 08_step_commit.md, R199. -/
def Reg.GRM_CLIP : RegSpec :=
  ⟨0x4C011C, 1, 0, 1, 0, .volaActivation, .plain, [⟨31, 0, .ro, 0x3F800000⟩]⟩
/-- 08_step_commit.md, R199. -/
def Reg.GRM_CLIP_PRED : RegSpec :=
  ⟨0x4C0120, 1, 0, 1, 0, .volaActivation, .plain, [⟨31, 0, .ro, 0x3F800000⟩]⟩
/-- 08_step_commit.md, R209. -/
def Reg.GRM_CLIP_HIST : RegSpec :=
  ⟨0x4C0124, 4, 4, 1, 0, .volaFunction, .plain, [⟨31, 0, .ro, 0⟩]⟩
/-- 08_step_commit.md, R191. -/
def Reg.GRM_RUN_DIGEST : RegSpec :=
  ⟨0x4C0140, 8, 4, 1, 0, .volaSoft, .plain, [⟨31, 0, .rwl, 0⟩]⟩
/-- 08_step_commit.md, R191. -/
def Reg.GRM_RUN_TAG : RegSpec :=
  ⟨0x4C0160, 8, 4, 1, 0, .plate, .plain, [⟨31, 0, .ro, 0⟩]⟩
/-- 08_step_commit.md, R201. -/
def Reg.GRM_VCOUNT : RegSpec :=
  ⟨0x4C0180, 4, 4, 1, 0, .sticky, .plain, [⟨31, 0, .ro, 0⟩]⟩
/-- 08_step_commit.md, R211. -/
def Reg.GRM_LEDGER : RegSpec :=
  ⟨0x4C0190, 1, 0, 1, 0, .plate, .plain, [⟨8, 8, .ro, 0⟩, ⟨2, 0, .ro, 0⟩]⟩
/-- 11_streams.md, R280. -/
def Reg.STM_ENG_STATUS : RegSpec :=
  ⟨0x600000, 64, 0x400, 1, 0, .vola, .plain, [⟨15, 0, .ro, 0⟩]⟩
/-- 11_streams.md, R303,R304. -/
def Reg.STM_TBL : RegSpec :=
  ⟨0x600004, 64, 0x400, 1, 0, .plate, .plain, [⟨19, 19, .ro, 0⟩, ⟨18, 18, .ro, 0⟩, ⟨17, 17, .ro, 0⟩, ⟨16, 16, .ro, 0⟩, ⟨15, 8, .ro, 0⟩, ⟨7, 0, .ro, 0⟩]⟩
/-- 11_streams.md, R305. -/
def Reg.STM_TBL_REF : RegSpec :=
  ⟨0x600008, 64, 0x400, 1, 0, .vola, .plain, [⟨31, 16, .ro, 0⟩, ⟨15, 0, .ro, 0⟩]⟩
/-- 11_streams.md, R301. -/
def Reg.STM_XFLAGS : RegSpec :=
  ⟨0x60000C, 64, 0x400, 1, 0, .volaFunction, .plain, [⟨3, 3, .w1c, 0⟩, ⟨2, 2, .w1c, 0⟩, ⟨1, 1, .w1c, 0⟩, ⟨0, 0, .w1c, 0⟩]⟩
/-- 11_streams.md, R301. -/
def Reg.STM_XSAT : RegSpec :=
  ⟨0x600010, 64, 0x400, 1, 0, .volaFunction, .plain, [⟨31, 0, .ro, 0⟩]⟩
/-- 11_streams.md, R301. -/
def Reg.STM_CTRL : RegSpec :=
  ⟨0x600014, 64, 0x400, 1, 0, .vola, .plain, [⟨0, 0, .wo, 0⟩]⟩
/-- 11_streams.md, R290,R294,R299,R304,R305. -/
def Reg.STM_ERR : RegSpec :=
  ⟨0x600018, 64, 0x400, 1, 0, .sticky, .plain, [⟨6, 6, .w1c, 0⟩, ⟨5, 5, .w1c, 0⟩, ⟨4, 4, .w1c, 0⟩, ⟨3, 3, .w1c, 0⟩, ⟨2, 2, .w1c, 0⟩, ⟨1, 1, .w1c, 0⟩, ⟨0, 0, .w1c, 0⟩]⟩
/-- 11_streams.md, R280. -/
def Reg.STM_CTX_STATUS : RegSpec :=
  ⟨0x600100, 64, 0x400, 16, 0x10, .vola, .plain, [⟨31, 29, .ro, 0⟩, ⟨23, 0, .ro, 0⟩]⟩
/-- 11_streams.md, R287. -/
def Reg.STM_CTX_LATE : RegSpec :=
  ⟨0x600104, 64, 0x400, 16, 0x10, .volaActivation, .plain, [⟨31, 0, .ro, 0⟩]⟩
/-- 11_streams.md, R304. -/
def Reg.STM_TBL_ADDR_LO : RegSpec :=
  ⟨0x610000, 1, 0, 1, 0, .volaFunction, .lo, [⟨31, 0, .rw, 0⟩]⟩
/-- 11_streams.md, R304. -/
def Reg.STM_TBL_ADDR_HI : RegSpec :=
  ⟨0x610004, 1, 0, 1, 0, .volaFunction, .hi, [⟨15, 0, .rw, 0⟩]⟩
/-- 11_streams.md, R304. -/
def Reg.STM_TBL_MASK_LO : RegSpec :=
  ⟨0x610008, 1, 0, 1, 0, .volaFunction, .lo, [⟨31, 0, .rw, 0⟩]⟩
/-- 11_streams.md, R304. -/
def Reg.STM_TBL_MASK_HI : RegSpec :=
  ⟨0x61000C, 1, 0, 1, 0, .volaFunction, .hi, [⟨31, 0, .rw, 0⟩]⟩
/-- 11_streams.md, R304. -/
def Reg.STM_TBL_CMD : RegSpec :=
  ⟨0x610010, 1, 0, 1, 0, .vola, .plain, [⟨0, 0, .wo, 0⟩]⟩
/-- 11_streams.md, R304. -/
def Reg.STM_TBL_RESULT_LO : RegSpec :=
  ⟨0x610014, 1, 0, 1, 0, .volaFunction, .lo, [⟨31, 0, .ro, 0⟩]⟩
/-- 11_streams.md, R304. -/
def Reg.STM_TBL_RESULT_HI : RegSpec :=
  ⟨0x610018, 1, 0, 1, 0, .volaFunction, .hi, [⟨31, 0, .ro, 0⟩]⟩
/-- 10_memory_tiers.md, R253. -/
def Reg.HBM_STACK_STATUS : RegSpec :=
  ⟨0x800000, 12, 0x100, 1, 0, .vola, .plain, [⟨2, 0, .ro, 0⟩]⟩
/-- 10_memory_tiers.md, R250,R251. -/
def Reg.HBM_ECC : RegSpec :=
  ⟨0x800004, 12, 0x100, 1, 0, .sticky, .plain, [⟨23, 16, .ro, 0⟩, ⟨15, 0, .ro, 0⟩]⟩
/-- 10_memory_tiers.md, R251. -/
def Reg.HBM_UE_ADDR_LO : RegSpec :=
  ⟨0x800008, 12, 0x100, 1, 0, .sticky, .lo, [⟨31, 0, .ro, 0⟩]⟩
/-- 10_memory_tiers.md, R251. -/
def Reg.HBM_UE_ADDR_HI : RegSpec :=
  ⟨0x80000C, 12, 0x100, 1, 0, .sticky, .hi, [⟨15, 0, .ro, 0⟩]⟩
/-- 10_memory_tiers.md, R251. -/
def Reg.HBM_POISON : RegSpec :=
  ⟨0x800010, 12, 0x100, 1, 0, .plate, .plain, [⟨31, 0, .ro, 0⟩]⟩
/-- 10_memory_tiers.md, R250. -/
def Reg.HBM_SCRUB : RegSpec :=
  ⟨0x810000, 1, 0, 1, 0, .volaSoft, .plain, [⟨8, 8, .ro, 0⟩, ⟨7, 0, .rw, 24⟩]⟩
/-- 10_memory_tiers.md, R257. -/
def Reg.HBM_BANK_SEL : RegSpec :=
  ⟨0x810004, 1, 0, 1, 0, .vola, .plain, [⟨11, 0, .rw, 0⟩]⟩
/-- 10_memory_tiers.md, R257,R259. -/
def Reg.HBM_BANK_INFO : RegSpec :=
  ⟨0x810008, 1, 0, 1, 0, .plate, .plain, [⟨31, 16, .ro, 0⟩, ⟨3, 3, .ro, 0⟩, ⟨2, 2, .ro, 0⟩, ⟨1, 1, .ro, 0⟩, ⟨0, 0, .ro, 0⟩]⟩
/-- 06_backward_pass.md, R157. -/
def Reg.HBM_PAD_TOTAL : RegSpec :=
  ⟨0x81F000, 1, 0, 1, 0, .plate, .plain, [⟨31, 0, .ro, 0⟩]⟩
/-- 06_backward_pass.md, R161. -/
def Reg.HBM_PAD_FREE : RegSpec :=
  ⟨0x81F004, 1, 0, 1, 0, .vola, .plain, [⟨31, 0, .ro, 0⟩]⟩
/-- 06_backward_pass.md, R161. -/
def Reg.HBM_PAD_LOW : RegSpec :=
  ⟨0x81F008, 1, 0, 1, 0, .vola, .plain, [⟨31, 0, .ro, 0⟩]⟩
/-- 06_backward_pass.md, R158. -/
def Reg.HBM_PAD_STEP : RegSpec :=
  ⟨0x81F00C, 1, 0, 1, 0, .volaFunction, .plain, [⟨31, 16, .ro, 0⟩, ⟨15, 0, .ro, 0⟩]⟩
/-- 06_backward_pass.md, R160. -/
def Reg.HBM_PAD_EXHAUST : RegSpec :=
  ⟨0x81F010, 1, 0, 1, 0, .sticky, .plain, [⟨31, 0, .ro, 0⟩]⟩
/-- 06_backward_pass.md, R161. -/
def Reg.HBM_PAD_CTRL : RegSpec :=
  ⟨0x81F014, 1, 0, 1, 0, .vola, .plain, [⟨0, 0, .wo, 0⟩]⟩
/-- 10_memory_tiers.md, R262,R264. -/
def Reg.LFT_PORT_STATUS : RegSpec :=
  ⟨0xA00000, 4, 0x100, 1, 0, .vola, .plain, [⟨19, 19, .ro, 0⟩, ⟨18, 16, .ro, 0⟩, ⟨12, 8, .ro, 0⟩, ⟨2, 0, .ro, 0⟩]⟩
/-- 10_memory_tiers.md, R262. -/
def Reg.LFT_PORT_CAP_LO : RegSpec :=
  ⟨0xA00004, 4, 0x100, 1, 0, .sticky, .lo, [⟨31, 0, .ro, 0⟩]⟩
/-- 10_memory_tiers.md, R262. -/
def Reg.LFT_PORT_CAP_HI : RegSpec :=
  ⟨0xA00008, 4, 0x100, 1, 0, .sticky, .hi, [⟨15, 0, .ro, 0⟩]⟩
/-- 10_memory_tiers.md, R264,R265. -/
def Reg.LFT_PORT_ERR : RegSpec :=
  ⟨0xA0000C, 4, 0x100, 1, 0, .sticky, .plain, [⟨4, 4, .w1c, 0⟩, ⟨3, 3, .w1c, 0⟩, ⟨2, 2, .w1c, 0⟩, ⟨1, 1, .w1c, 0⟩, ⟨0, 0, .w1c, 0⟩]⟩
/-- 10_memory_tiers.md, R263. -/
def Reg.LFT_CFG : RegSpec :=
  ⟨0xA10000, 1, 0, 1, 0, .sticky, .plain, [⟨7, 4, .rwl, 0⟩, ⟨0, 0, .rwl, 0⟩]⟩
/-- 10_memory_tiers.md, R264. -/
def Reg.LFT_CTRL : RegSpec :=
  ⟨0xA10004, 1, 0, 1, 0, .vola, .plain, [⟨3, 0, .wo, 0⟩]⟩
/-- 10_memory_tiers.md, R270. -/
def Reg.LFT_POOL_WAIT : RegSpec :=
  ⟨0xA10008, 1, 0, 1, 0, .volaSoft, .plain, [⟨15, 0, .rwl, 64⟩]⟩
/-- 10_memory_tiers.md, R266. -/
def Reg.LFT_POOL_TOTAL : RegSpec :=
  ⟨0xA1000C, 1, 0, 1, 0, .plate, .plain, [⟨31, 0, .ro, 0⟩]⟩
/-- 10_memory_tiers.md, R268. -/
def Reg.LFT_POOL_FREE : RegSpec :=
  ⟨0xA10010, 1, 0, 1, 0, .plate, .plain, [⟨31, 0, .ro, 0⟩]⟩
/-- 10_memory_tiers.md, R157. -/
def Reg.LFT_SPILL_FREE : RegSpec :=
  ⟨0xA10014, 1, 0, 1, 0, .plate, .plain, [⟨31, 0, .ro, 0⟩]⟩
/-- 10_memory_tiers.md, R268. -/
def Reg.LFT_POOL_EVICT : RegSpec :=
  ⟨0xA10018, 1, 0, 1, 0, .plate, .plain, [⟨31, 0, .ro, 0⟩]⟩
/-- 10_memory_tiers.md, R269. -/
def Reg.LFT_POOL_CANCEL : RegSpec :=
  ⟨0xA1001C, 1, 0, 1, 0, .plate, .plain, [⟨31, 0, .ro, 0⟩]⟩
/-- 10_memory_tiers.md, R266. -/
def Reg.LFT_POOL_OWNER : RegSpec :=
  ⟨0xA10100, 16, 4, 1, 0, .plate, .plain, [⟨31, 0, .ro, 0⟩]⟩
/-- 12_fabric_ports.md, R320,R321. -/
def Reg.FAB_STATUS : RegSpec :=
  ⟨0xC00000, 64, 0x1000, 1, 0, .vola, .plain, [⟨23, 16, .ro, 0⟩, ⟨9, 9, .ro, 0⟩, ⟨8, 8, .ro, 0⟩, ⟨5, 4, .ro, 0⟩, ⟨2, 0, .ro, 1⟩]⟩
/-- 12_fabric_ports.md, R323. -/
def Reg.FAB_NBR : RegSpec :=
  ⟨0xC00004, 64, 0x1000, 1, 0, .vola, .plain, [⟨21, 16, .ro, 0⟩, ⟨15, 0, .ro, 0⟩]⟩
/-- 12_fabric_ports.md, R323. -/
def Reg.FAB_NBR_EPOCH : RegSpec :=
  ⟨0xC00008, 64, 0x1000, 1, 0, .vola, .plain, [⟨31, 0, .ro, 0⟩]⟩
/-- 12_fabric_ports.md, R323. -/
def Reg.FAB_NBR_HASH : RegSpec :=
  ⟨0xC00010, 64, 0x1000, 8, 4, .vola, .plain, [⟨31, 0, .ro, 0⟩]⟩
/-- 12_fabric_ports.md, R327,R320. -/
def Reg.FAB_CTRL : RegSpec :=
  ⟨0xC00030, 64, 0x1000, 1, 0, .vola, .plain, [⟨2, 2, .wo, 0⟩, ⟨1, 1, .wo, 0⟩, ⟨0, 0, .wo, 0⟩]⟩
/-- 12_fabric_ports.md, R318. -/
def Reg.FAB_SKEW : RegSpec :=
  ⟨0xC00034, 64, 0x1000, 1, 0, .vola, .plain, [⟨31, 16, .ro, 0⟩, ⟨15, 0, .ro, 0⟩]⟩
/-- 12_fabric_ports.md, R313,R319,R325,R328. -/
def Reg.FAB_ERR : RegSpec :=
  ⟨0xC00038, 64, 0x1000, 1, 0, .sticky, .plain, [⟨5, 5, .w1c, 0⟩, ⟨4, 4, .w1c, 0⟩, ⟨3, 3, .w1c, 0⟩, ⟨2, 2, .w1c, 0⟩, ⟨1, 1, .w1c, 0⟩, ⟨0, 0, .w1c, 0⟩]⟩
/-- 12_fabric_ports.md, R310. -/
def Reg.FAB_CRC : RegSpec :=
  ⟨0xC0003C, 64, 0x1000, 1, 0, .sticky, .plain, [⟨31, 0, .ro, 0⟩]⟩
/-- 12_fabric_ports.md, R315. -/
def Reg.FAB_REPLAY : RegSpec :=
  ⟨0xC00040, 64, 0x1000, 1, 0, .sticky, .plain, [⟨31, 0, .ro, 0⟩]⟩
/-- 12_fabric_ports.md, R310. -/
def Reg.FAB_FEC_UNCORR : RegSpec :=
  ⟨0xC00044, 64, 0x1000, 1, 0, .sticky, .plain, [⟨31, 0, .ro, 0⟩]⟩
/-- 12_fabric_ports.md, register table. -/
def Reg.FAB_UTIL : RegSpec :=
  ⟨0xC00048, 64, 0x1000, 1, 0, .vola, .plain, [⟨31, 16, .ro, 0⟩, ⟨15, 0, .ro, 0⟩]⟩
/-- 12_fabric_ports.md, R320. -/
def Reg.FAB_TEST_CNT : RegSpec :=
  ⟨0xC0004C, 64, 0x1000, 1, 0, .vola, .plain, [⟨31, 16, .ro, 0⟩, ⟨15, 0, .ro, 0⟩]⟩
/-- 12_fabric_ports.md, R32. -/
def Reg.FAB_ID : RegSpec :=
  ⟨0xC40000, 1, 0, 1, 0, .sticky, .plain, [⟨15, 0, .rwl, 0⟩]⟩
/-- 12_fabric_ports.md, R320. -/
def Reg.FAB_ACTIVE_LO : RegSpec :=
  ⟨0xC40004, 1, 0, 1, 0, .vola, .lo, [⟨31, 0, .ro, 0⟩]⟩
/-- 12_fabric_ports.md, R320. -/
def Reg.FAB_ACTIVE_HI : RegSpec :=
  ⟨0xC40008, 1, 0, 1, 0, .vola, .hi, [⟨31, 0, .ro, 0⟩]⟩
/-- 12_fabric_ports.md, R335. -/
def Reg.FAB_E2E_LOST : RegSpec :=
  ⟨0xC4000C, 1, 0, 1, 0, .sticky, .plain, [⟨31, 0, .ro, 0⟩]⟩
/-- 12_fabric_ports.md, R334. -/
def Reg.FAB_DUP : RegSpec :=
  ⟨0xC40010, 1, 0, 1, 0, .sticky, .plain, [⟨31, 0, .ro, 0⟩]⟩
/-- 12_fabric_ports.md, R331. -/
def Reg.FAB_UNREACH : RegSpec :=
  ⟨0xC40014, 1, 0, 1, 0, .sticky, .plain, [⟨31, 0, .ro, 0⟩]⟩
/-- 12_fabric_ports.md, R331. -/
def Reg.FAB_TTL : RegSpec :=
  ⟨0xC40018, 1, 0, 1, 0, .sticky, .plain, [⟨31, 0, .ro, 0⟩]⟩
/-- 12_fabric_ports.md, R331. -/
def Reg.FAB_ROUTE_SEL : RegSpec :=
  ⟨0xC40020, 1, 0, 1, 0, .vola, .plain, [⟨15, 0, .rw, 0⟩]⟩
/-- 12_fabric_ports.md, R331. -/
def Reg.FAB_ROUTE_INFO : RegSpec :=
  ⟨0xC40024, 1, 0, 1, 0, .plate, .plain, [⟨14, 14, .ro, 0⟩, ⟨13, 8, .ro, 0⟩, ⟨2, 0, .ro, 7⟩]⟩
/-- 13_collectives.md, R346. -/
def Reg.COL_RSTATUS : RegSpec :=
  ⟨0xD00000, 8, 0x1000, 1, 0, .vola, .plain, [⟨16, 16, .ro, 0⟩, ⟨15, 0, .ro, 0⟩]⟩
/-- 13_collectives.md, R339. -/
def Reg.COL_RFLAGS : RegSpec :=
  ⟨0xD00004, 8, 0x1000, 1, 0, .volaFunction, .plain, [⟨3, 3, .w1c, 0⟩, ⟨2, 2, .w1c, 0⟩, ⟨1, 1, .w1c, 0⟩, ⟨0, 0, .w1c, 0⟩]⟩
/-- 13_collectives.md, R339. -/
def Reg.COL_RSAT : RegSpec :=
  ⟨0xD00008, 8, 0x1000, 1, 0, .volaFunction, .plain, [⟨31, 0, .ro, 0⟩]⟩
/-- 13_collectives.md, R339. -/
def Reg.COL_RCTRL : RegSpec :=
  ⟨0xD0000C, 8, 0x1000, 1, 0, .vola, .plain, [⟨0, 0, .wo, 0⟩]⟩
/-- 13_collectives.md, R344. -/
def Reg.COL_RBUF : RegSpec :=
  ⟨0xD00010, 8, 0x1000, 1, 0, .volaActivation, .plain, [⟨31, 16, .ro, 0⟩, ⟨15, 0, .ro, 0⟩]⟩
/-- 13_collectives.md, R352. -/
def Reg.COL_STEP_OPS : RegSpec :=
  ⟨0xD10000, 1, 0, 1, 0, .volaFunction, .plain, [⟨31, 16, .ro, 0⟩, ⟨15, 0, .ro, 0⟩]⟩
/-- 13_collectives.md, R350,R354,R359. -/
def Reg.COL_ERR : RegSpec :=
  ⟨0xD10004, 1, 0, 1, 0, .sticky, .plain, [⟨2, 2, .w1c, 0⟩, ⟨1, 1, .w1c, 0⟩, ⟨0, 0, .w1c, 0⟩]⟩
/-- 13_collectives.md, R359. -/
def Reg.COL_STALE : RegSpec :=
  ⟨0xD10008, 1, 0, 1, 0, .sticky, .plain, [⟨31, 0, .ro, 0⟩]⟩
/-- 13_collectives.md, R347. -/
def Reg.COL_OP_SEL : RegSpec :=
  ⟨0xD1000C, 1, 0, 1, 0, .vola, .plain, [⟨15, 0, .rw, 0⟩]⟩
/-- 13_collectives.md, R347. -/
def Reg.COL_OP_INFO : RegSpec :=
  ⟨0xD10010, 1, 0, 1, 0, .plate, .plain, [⟨31, 29, .ro, 0⟩, ⟨23, 16, .ro, 0⟩, ⟨12, 0, .ro, 0⟩]⟩
/-- 15_check_units.md, R389. -/
def Reg.CHK_CTRL : RegSpec :=
  ⟨0xE00000, 8, 0x100, 1, 0, .vola, .plain, [⟨1, 1, .wo, 0⟩, ⟨0, 0, .wo, 0⟩]⟩
/-- 15_check_units.md, R384. -/
def Reg.CHK_CFG : RegSpec :=
  ⟨0xE00004, 8, 0x100, 1, 0, .volaFunction, .plain, [⟨25, 16, .rw, 0⟩, ⟨4, 4, .rw, 0⟩, ⟨3, 3, .rw, 0⟩, ⟨2, 2, .rw, 0⟩, ⟨1, 0, .rw, 0⟩]⟩
/-- 15_check_units.md, R384. -/
def Reg.CHK_ADDR_LO : RegSpec :=
  ⟨0xE00008, 8, 0x100, 1, 0, .volaFunction, .lo, [⟨31, 0, .rw, 0⟩]⟩
/-- 15_check_units.md, R384. -/
def Reg.CHK_ADDR_HI : RegSpec :=
  ⟨0xE0000C, 8, 0x100, 1, 0, .volaFunction, .hi, [⟨15, 0, .rw, 0⟩]⟩
/-- 15_check_units.md, R384. -/
def Reg.CHK_LEN_LO : RegSpec :=
  ⟨0xE00010, 8, 0x100, 1, 0, .volaFunction, .lo, [⟨31, 0, .rw, 0⟩]⟩
/-- 15_check_units.md, R384. -/
def Reg.CHK_LEN_HI : RegSpec :=
  ⟨0xE00014, 8, 0x100, 1, 0, .volaFunction, .hi, [⟨15, 0, .rw, 0⟩]⟩
/-- 15_check_units.md, R384. -/
def Reg.CHK_SLEN_LO : RegSpec :=
  ⟨0xE00018, 8, 0x100, 1, 0, .volaFunction, .lo, [⟨31, 0, .rw, 0⟩]⟩
/-- 15_check_units.md, R384. -/
def Reg.CHK_SLEN_HI : RegSpec :=
  ⟨0xE0001C, 8, 0x100, 1, 0, .volaFunction, .hi, [⟨15, 0, .rw, 0⟩]⟩
/-- 15_check_units.md, R387. -/
def Reg.CHK_REC : RegSpec :=
  ⟨0xE00020, 8, 0x100, 1, 0, .volaFunction, .plain, [⟨19, 0, .rw, 0⟩]⟩
/-- 15_check_units.md, R387. -/
def Reg.CHK_ALIVE : RegSpec :=
  ⟨0xE00024, 8, 0x100, 1, 0, .volaFunction, .plain, [⟨31, 16, .ro, 0⟩, ⟨15, 0, .rw, 0⟩]⟩
/-- 15_check_units.md, R388. -/
def Reg.CHK_EXPECT_LO : RegSpec :=
  ⟨0xE00028, 8, 0x100, 1, 0, .volaFunction, .lo, [⟨31, 0, .rw, 0⟩]⟩
/-- 15_check_units.md, R388. -/
def Reg.CHK_EXPECT_HI : RegSpec :=
  ⟨0xE0002C, 8, 0x100, 1, 0, .volaFunction, .hi, [⟨31, 0, .rw, 0⟩]⟩
/-- 15_check_units.md, R388. -/
def Reg.CHK_RESULT_LO : RegSpec :=
  ⟨0xE00030, 8, 0x100, 1, 0, .volaFunction, .lo, [⟨31, 0, .ro, 0⟩]⟩
/-- 15_check_units.md, R388. -/
def Reg.CHK_RESULT_HI : RegSpec :=
  ⟨0xE00034, 8, 0x100, 1, 0, .volaFunction, .hi, [⟨31, 0, .ro, 0⟩]⟩
/-- 15_check_units.md, R388. -/
def Reg.CHK_DONE_LO : RegSpec :=
  ⟨0xE00038, 8, 0x100, 1, 0, .volaFunction, .lo, [⟨31, 0, .ro, 0⟩]⟩
/-- 15_check_units.md, R388. -/
def Reg.CHK_DONE_HI : RegSpec :=
  ⟨0xE0003C, 8, 0x100, 1, 0, .volaFunction, .hi, [⟨15, 0, .ro, 0⟩]⟩
/-- 15_check_units.md, R387. -/
def Reg.CHK_BAD_REC : RegSpec :=
  ⟨0xE00040, 8, 0x100, 1, 0, .volaFunction, .plain, [⟨31, 0, .ro, 0⟩]⟩
/-- 15_check_units.md, R388. -/
def Reg.CHK_STATUS : RegSpec :=
  ⟨0xE00044, 8, 0x100, 1, 0, .volaFunction, .plain, [⟨8, 8, .ro, 0⟩, ⟨7, 7, .ro, 0⟩, ⟨6, 4, .ro, 0⟩, ⟨2, 0, .ro, 0⟩]⟩
/-- 15_check_units.md, R387. -/
def Reg.CHK_ALIVE_OFF : RegSpec :=
  ⟨0xE00048, 8, 0x100, 1, 0, .volaFunction, .plain, [⟨19, 0, .rw, 0⟩]⟩
/-- 15_check_units.md, R388,R389. -/
def Reg.CHK_ERR : RegSpec :=
  ⟨0xE00800, 1, 0, 1, 0, .sticky, .plain, [⟨31, 24, .w1c, 0⟩, ⟨23, 16, .w1c, 0⟩, ⟨15, 8, .w1c, 0⟩, ⟨7, 0, .w1c, 0⟩]⟩
/-- 14_host_interface.md, R372. -/
def Reg.EVT_RING_BASE_LO : RegSpec :=
  ⟨0xF00000, 1, 0, 1, 0, .volaFunction, .lo, [⟨31, 12, .rw, 0⟩]⟩
/-- 14_host_interface.md, R372. -/
def Reg.EVT_RING_BASE_HI : RegSpec :=
  ⟨0xF00004, 1, 0, 1, 0, .volaFunction, .hi, [⟨31, 0, .rw, 0⟩]⟩
/-- 14_host_interface.md, R372. -/
def Reg.EVT_SHADOW_LO : RegSpec :=
  ⟨0xF00008, 1, 0, 1, 0, .volaFunction, .lo, [⟨31, 2, .rw, 0⟩]⟩
/-- 14_host_interface.md, R372. -/
def Reg.EVT_SHADOW_HI : RegSpec :=
  ⟨0xF0000C, 1, 0, 1, 0, .volaFunction, .hi, [⟨31, 0, .rw, 0⟩]⟩
/-- 14_host_interface.md, R372. -/
def Reg.EVT_RING_CTRL : RegSpec :=
  ⟨0xF00010, 1, 0, 1, 0, .volaFunction, .plain, [⟨15, 8, .rw, 0⟩, ⟨5, 1, .rw, 6⟩, ⟨0, 0, .rw, 0⟩]⟩
/-- 14_host_interface.md, R373. -/
def Reg.EVT_RING_PROD : RegSpec :=
  ⟨0xF00014, 1, 0, 1, 0, .volaFunction, .plain, [⟨31, 0, .ro, 0⟩]⟩
/-- 14_host_interface.md, R374. -/
def Reg.EVT_RING_CONS : RegSpec :=
  ⟨0xF00018, 1, 0, 1, 0, .volaFunction, .plain, [⟨31, 0, .rw, 0⟩]⟩
/-- 14_host_interface.md, R375. -/
def Reg.EVT_QUEUED : RegSpec :=
  ⟨0xF0001C, 1, 0, 1, 0, .volaFundamental, .plain, [⟨10, 0, .ro, 0⟩]⟩
/-- 14_host_interface.md, R375. -/
def Reg.EVT_DROPPED : RegSpec :=
  ⟨0xF00020, 1, 0, 1, 0, .sticky, .plain, [⟨31, 0, .ro, 0⟩]⟩
/-- 20_events.md, R488. -/
def Reg.EVT_CLASS_COUNT : RegSpec :=
  ⟨0xF00040, 4, 4, 1, 0, .sticky, .plain, [⟨31, 0, .ro, 0⟩]⟩
/-- 20_events.md, R488. -/
def Reg.EVT_ALIVE : RegSpec :=
  ⟨0xF00050, 1, 0, 1, 0, .sticky, .plain, [⟨31, 0, .ro, 0⟩]⟩
/-- 20_events.md, R490. -/
def Reg.EVT_LOG_HEAD : RegSpec :=
  ⟨0xF00054, 1, 0, 1, 0, .sticky, .plain, [⟨31, 0, .ro, 0⟩]⟩
/-- 20_events.md, R490. -/
def Reg.EVT_LOG_ACK : RegSpec :=
  ⟨0xF00058, 1, 0, 1, 0, .sticky, .plain, [⟨31, 0, .rw, 0⟩]⟩
/-- 20_events.md, R490. -/
def Reg.EVT_LOG_SEL : RegSpec :=
  ⟨0xF0005C, 1, 0, 1, 0, .vola, .plain, [⟨31, 0, .rw, 0⟩]⟩
/-- 20_events.md, R490. -/
def Reg.EVT_LOG_DATA : RegSpec :=
  ⟨0xF00060, 8, 4, 1, 0, .vola, .plain, [⟨31, 0, .ro, 0⟩]⟩
/-- 17_power_reset.md, R442,R430. -/
def Reg.PWR_STATUS : RegSpec :=
  ⟨0x1000000, 1, 0, 1, 0, .vola, .plain, [⟨15, 15, .ro, 0⟩, ⟨14, 14, .ro, 0⟩, ⟨13, 13, .ro, 0⟩, ⟨12, 12, .ro, 0⟩, ⟨11, 11, .ro, 0⟩, ⟨10, 10, .ro, 0⟩, ⟨9, 8, .ro, 1⟩, ⟨2, 0, .ro, 1⟩]⟩
/-- 17_power_reset.md, R430. -/
def Reg.PWR_PROFILE : RegSpec :=
  ⟨0x1000004, 1, 0, 1, 0, .volaFundamental, .plain, [⟨1, 0, .rwp, 1⟩]⟩
/-- 17_power_reset.md, R430. -/
def Reg.PWR_DEFAULT : RegSpec :=
  ⟨0x1000008, 1, 0, 1, 0, .persistent, .plain, [⟨2, 2, .rw, 0⟩, ⟨1, 0, .rw, 1⟩]⟩
/-- 17_power_reset.md, R430. -/
def Reg.PWR_CAP : RegSpec :=
  ⟨0x100000C, 1, 0, 1, 0, .volaFundamental, .plain, [⟨11, 0, .rwp, 0⟩]⟩
/-- 17_power_reset.md, R426. -/
def Reg.PWR_BUDGET : RegSpec :=
  ⟨0x1000010, 1, 0, 1, 0, .vola, .plain, [⟨23, 0, .ro, 0⟩]⟩
/-- 17_power_reset.md, R425. -/
def Reg.PWR_ENERGY : RegSpec :=
  ⟨0x1000014, 1, 0, 1, 0, .vola, .plain, [⟨23, 0, .ro, 0⟩]⟩
/-- 17_power_reset.md, R425. -/
def Reg.PWR_INPUT : RegSpec :=
  ⟨0x1000018, 1, 0, 1, 0, .vola, .plain, [⟨31, 16, .ro, 0⟩, ⟨15, 0, .ro, 0⟩]⟩
/-- 17_power_reset.md, R427. -/
def Reg.PWR_DUTY : RegSpec :=
  ⟨0x100001C, 1, 0, 1, 0, .vola, .plain, [⟨7, 4, .ro, 8⟩, ⟨3, 0, .ro, 8⟩]⟩
/-- 17_power_reset.md, R446,R447. -/
def Reg.PWR_STATE_REQ : RegSpec :=
  ⟨0x1000020, 1, 0, 1, 0, .vola, .plain, [⟨1, 0, .wo, 0⟩]⟩
/-- 17_power_reset.md, R445,R447,R449. -/
def Reg.PWR_CFG : RegSpec :=
  ⟨0x1000024, 1, 0, 1, 0, .volaFundamental, .plain, [⟨17, 17, .rw, 0⟩, ⟨16, 16, .rw, 0⟩, ⟨15, 0, .rw, 125⟩]⟩
/-- 17_power_reset.md, R436. -/
def Reg.PWR_THERM_THRESH : RegSpec :=
  ⟨0x1000028, 1, 0, 1, 0, .volaSoft, .plain, [⟨15, 8, .rw, 90⟩, ⟨7, 0, .rw, 95⟩]⟩
/-- 17_power_reset.md, R435. -/
def Reg.PWR_TEMP_SEL : RegSpec :=
  ⟨0x100002C, 1, 0, 1, 0, .vola, .plain, [⟨5, 0, .rw, 0⟩]⟩
/-- 17_power_reset.md, R435. -/
def Reg.PWR_TEMP : RegSpec :=
  ⟨0x1000030, 1, 0, 1, 0, .vola, .plain, [⟨21, 16, .ro, 0⟩, ⟨15, 8, .ro, 0⟩, ⟨7, 0, .ro, 0⟩]⟩
/-- 17_power_reset.md, R432. -/
def Reg.PWR_DIP_MIN : RegSpec :=
  ⟨0x1000034, 1, 0, 1, 0, .sticky, .plain, [⟨15, 0, .ro, 0⟩]⟩
/-- 17_power_reset.md, R432. -/
def Reg.PWR_DIP_US : RegSpec :=
  ⟨0x1000038, 1, 0, 1, 0, .sticky, .plain, [⟨31, 0, .ro, 0⟩]⟩
/-- 17_power_reset.md, R430,R432,R433,R436,R437,R447. -/
def Reg.PWR_ERR : RegSpec :=
  ⟨0x100003C, 1, 0, 1, 0, .sticky, .plain, [⟨5, 5, .w1c, 0⟩, ⟨4, 4, .w1c, 0⟩, ⟨3, 3, .w1c, 0⟩, ⟨2, 2, .w1c, 0⟩, ⟨1, 1, .w1c, 0⟩, ⟨0, 0, .w1c, 0⟩]⟩
/-- 17_power_reset.md, R429. -/
def Reg.PWR_THROTTLE_SLIPS : RegSpec :=
  ⟨0x1000040, 1, 0, 1, 0, .volaFunction, .plain, [⟨31, 0, .ro, 0⟩]⟩
/-- 17_power_reset.md, R444. -/
def Reg.PWR_WDOG : RegSpec :=
  ⟨0x1000044, 1, 0, 1, 0, .sticky, .plain, [⟨31, 0, .ro, 0⟩]⟩
/-- 17_power_reset.md, register table. -/
def Reg.PWR_RESET_CAUSE : RegSpec :=
  ⟨0x1000048, 1, 0, 1, 0, .vola, .plain, [⟨15, 8, .ro, 1⟩, ⟨2, 0, .ro, 1⟩]⟩
/-- 17_power_reset.md, R442. -/
def Reg.PWR_CTRL : RegSpec :=
  ⟨0x100004C, 1, 0, 1, 0, .vola, .plain, [⟨31, 16, .wo, 0⟩, ⟨0, 0, .wo, 0⟩]⟩
/-- 16_security_and_update.md, R409,R410,R420. -/
def Reg.SEC_STATUS : RegSpec :=
  ⟨0x1100000, 1, 0, 1, 0, .vola, .plain, [⟨7, 7, .ro, 0⟩, ⟨6, 6, .ro, 0⟩, ⟨5, 5, .ro, 0⟩, ⟨4, 4, .ro, 0⟩, ⟨3, 3, .ro, 0⟩, ⟨2, 2, .ro, 0⟩, ⟨1, 1, .ro, 0⟩, ⟨0, 0, .ro, 0⟩]⟩
/-- 16_security_and_update.md, R406. -/
def Reg.SEC_POLICY : RegSpec :=
  ⟨0x1100004, 1, 0, 1, 0, .persistent, .plain, [⟨13, 8, .ro, 5⟩, ⟨4, 4, .ro, 0⟩, ⟨3, 3, .ro, 0⟩, ⟨2, 2, .ro, 0⟩, ⟨1, 1, .ro, 0⟩, ⟨0, 0, .ro, 0⟩]⟩
/-- 16_security_and_update.md, R421. -/
def Reg.SEC_SVN : RegSpec :=
  ⟨0x1100008, 1, 0, 1, 0, .persistent, .plain, [⟨22, 16, .ro, 0⟩, ⟨6, 0, .ro, 0⟩]⟩
/-- 16_security_and_update.md, R411. -/
def Reg.SEC_FW_BUNDLE : RegSpec :=
  ⟨0x110000C, 1, 0, 1, 0, .vola, .plain, [⟨31, 0, .ro, 0⟩]⟩
/-- 16_security_and_update.md, R411. -/
def Reg.SEC_FW_VER : RegSpec :=
  ⟨0x1100010, 5, 4, 1, 0, .vola, .plain, [⟨31, 0, .ro, 0⟩]⟩
/-- 16_security_and_update.md, R391. -/
def Reg.SEC_UID_LO : RegSpec :=
  ⟨0x1100024, 1, 0, 1, 0, .persistent, .lo, [⟨31, 0, .ro, 0⟩]⟩
/-- 16_security_and_update.md, R391. -/
def Reg.SEC_UID_HI : RegSpec :=
  ⟨0x1100028, 1, 0, 1, 0, .persistent, .hi, [⟨31, 0, .ro, 0⟩]⟩
/-- 16_security_and_update.md, R402. -/
def Reg.SEC_ATT_NEXT : RegSpec :=
  ⟨0x110002C, 1, 0, 1, 0, .persistent, .plain, [⟨20, 0, .ro, 0⟩]⟩
/-- 16_security_and_update.md, R402. -/
def Reg.SEC_ATT_MARKS : RegSpec :=
  ⟨0x1100030, 1, 0, 1, 0, .persistent, .plain, [⟨8, 0, .ro, 0⟩]⟩
/-- 16_security_and_update.md, R420. -/
def Reg.SEC_CONFIRM : RegSpec :=
  ⟨0x1100034, 1, 0, 1, 0, .vola, .plain, [⟨9, 0, .ro, 0⟩]⟩
/-- 16_security_and_update.md, R405. -/
def Reg.SEC_KEYSLOTS : RegSpec :=
  ⟨0x1100038, 1, 0, 1, 0, .plate, .plain, [⟨15, 0, .ro, 0⟩]⟩
/-- 16_security_and_update.md, R410. -/
def Reg.SEC_NONCE : RegSpec :=
  ⟨0x1100040, 8, 4, 1, 0, .volaSoft, .plain, [⟨31, 0, .ro, 0⟩]⟩
/-- 16_security_and_update.md, Table 16-7. -/
def Reg.SEC_CMD : RegSpec :=
  ⟨0x1100080, 1, 0, 1, 0, .vola, .plain, [⟨7, 0, .wo, 0⟩]⟩
/-- 16_security_and_update.md, R407. -/
def Reg.SEC_DATA_LEN : RegSpec :=
  ⟨0x1100084, 1, 0, 1, 0, .vola, .plain, [⟨17, 0, .rw, 0⟩]⟩
/-- 16_security_and_update.md, Table 16-7. -/
def Reg.SEC_CMD_STATUS : RegSpec :=
  ⟨0x1100088, 1, 0, 1, 0, .vola, .plain, [⟨31, 31, .ro, 0⟩, ⟨23, 16, .ro, 0⟩, ⟨7, 0, .ro, 0⟩]⟩
/-- 16_security_and_update.md, R414. -/
def Reg.SEC_FWU_STATUS : RegSpec :=
  ⟨0x110008C, 1, 0, 1, 0, .volaSoft, .plain, [⟨31, 28, .ro, 0⟩, ⟨27, 24, .ro, 0⟩, ⟨23, 20, .ro, 0⟩, ⟨15, 0, .ro, 0⟩]⟩
/-- 16_security_and_update.md, R395,R403,R405,R407,R414,R420. -/
def Reg.SEC_ERR : RegSpec :=
  ⟨0x1100090, 1, 0, 1, 0, .sticky, .plain, [⟨5, 5, .w1c, 0⟩, ⟨4, 4, .w1c, 0⟩, ⟨3, 3, .w1c, 0⟩, ⟨2, 2, .w1c, 0⟩, ⟨1, 1, .w1c, 0⟩, ⟨0, 0, .w1c, 0⟩]⟩
/-- 16_security_and_update.md, R397. -/
def Reg.SEC_MEAS : RegSpec :=
  ⟨0x1100100, 8, 0x20, 8, 4, .vola, .plain, [⟨31, 0, .ro, 0⟩]⟩
/-- 16_security_and_update.md, R406. -/
def Reg.SEC_PKEY_HASH : RegSpec :=
  ⟨0x1100200, 4, 0x20, 8, 4, .persistent, .plain, [⟨31, 0, .ro, 0⟩]⟩
/-- 16_security_and_update.md, R407. -/
def Reg.SEC_DATA : RegSpec :=
  ⟨0x1120000, 32768, 4, 1, 0, .vola, .plain, [⟨31, 0, .rw, 0⟩]⟩
/-- 18_debug.md, R451,R455,R462. -/
def Reg.DBG_STATUS : RegSpec :=
  ⟨0x1200000, 1, 0, 1, 0, .volaSoft, .plain, [⟨27, 16, .ro, 0⟩, ⟨8, 8, .ro, 0⟩, ⟨7, 6, .ro, 0⟩, ⟨5, 5, .ro, 0⟩, ⟨4, 4, .ro, 0⟩, ⟨3, 3, .ro, 0⟩, ⟨2, 2, .ro, 0⟩, ⟨1, 0, .ro, 0⟩]⟩
/-- 18_debug.md, R455. -/
def Reg.DBG_HALT_CTRL : RegSpec :=
  ⟨0x1200004, 1, 0, 1, 0, .vola, .plain, [⟨31, 30, .wo, 0⟩, ⟨29, 28, .wo, 0⟩, ⟨11, 0, .wo, 0⟩]⟩
/-- 18_debug.md, R455. -/
def Reg.DBG_CORE_SEL : RegSpec :=
  ⟨0x1200008, 1, 0, 1, 0, .vola, .plain, [⟨11, 0, .rw, 0⟩]⟩
/-- 18_debug.md, R458. -/
def Reg.DBG_CORE_INFO : RegSpec :=
  ⟨0x120000C, 1, 0, 1, 0, .vola, .plain, [⟨31, 31, .ro, 0⟩, ⟨30, 28, .ro, 0⟩, ⟨27, 24, .ro, 0⟩, ⟨23, 0, .ro, 0⟩]⟩
/-- 18_debug.md, R458. -/
def Reg.DBG_BP_IDX : RegSpec :=
  ⟨0x1200040, 8, 8, 1, 0, .volaSoft, .plain, [⟨31, 0, .rw, 0⟩]⟩
/-- 18_debug.md, R458. -/
def Reg.DBG_BP_CFG : RegSpec :=
  ⟨0x1200044, 8, 8, 1, 0, .volaSoft, .plain, [⟨31, 31, .rw, 0⟩, ⟨30, 29, .rw, 0⟩, ⟨28, 27, .rw, 0⟩, ⟨11, 0, .rw, 0⟩]⟩
/-- 18_debug.md, R459. -/
def Reg.DBG_WATCH_BASE_LO : RegSpec :=
  ⟨0x1200100, 8, 0x20, 1, 0, .volaSoft, .lo, [⟨31, 0, .rw, 0⟩]⟩
/-- 18_debug.md, R459. -/
def Reg.DBG_WATCH_BASE_HI : RegSpec :=
  ⟨0x1200104, 8, 0x20, 1, 0, .volaSoft, .hi, [⟨15, 0, .rw, 0⟩]⟩
/-- 18_debug.md, R459. -/
def Reg.DBG_WATCH_LIMIT_LO : RegSpec :=
  ⟨0x1200108, 8, 0x20, 1, 0, .volaSoft, .lo, [⟨31, 0, .rw, 0⟩]⟩
/-- 18_debug.md, R459. -/
def Reg.DBG_WATCH_LIMIT_HI : RegSpec :=
  ⟨0x120010C, 8, 0x20, 1, 0, .volaSoft, .hi, [⟨15, 0, .rw, 0⟩]⟩
/-- 18_debug.md, R459. -/
def Reg.DBG_WATCH_CFG : RegSpec :=
  ⟨0x1200110, 8, 0x20, 1, 0, .volaSoft, .plain, [⟨31, 31, .rw, 0⟩, ⟨4, 2, .rw, 0⟩, ⟨1, 0, .rw, 0⟩]⟩
/-- 18_debug.md, R459. -/
def Reg.DBG_WATCH_HITS : RegSpec :=
  ⟨0x1200114, 8, 0x20, 1, 0, .volaSoft, .plain, [⟨31, 0, .ro, 0⟩]⟩
/-- 18_debug.md, R460. -/
def Reg.DBG_MEM_ADDR_LO : RegSpec :=
  ⟨0x1200200, 1, 0, 1, 0, .volaSoft, .lo, [⟨31, 0, .rw, 0⟩]⟩
/-- 18_debug.md, R460. -/
def Reg.DBG_MEM_ADDR_HI : RegSpec :=
  ⟨0x1200204, 1, 0, 1, 0, .volaSoft, .hi, [⟨15, 0, .rw, 0⟩]⟩
/-- 18_debug.md, R460. -/
def Reg.DBG_MEM_CTRL : RegSpec :=
  ⟨0x1200208, 1, 0, 1, 0, .volaSoft, .plain, [⟨31, 30, .wo, 0⟩, ⟨29, 28, .rw, 0⟩, ⟨27, 24, .rw, 0⟩, ⟨11, 0, .rw, 0⟩]⟩
/-- 18_debug.md, R460. -/
def Reg.DBG_MEM_STATUS : RegSpec :=
  ⟨0x120020C, 1, 0, 1, 0, .volaSoft, .plain, [⟨31, 31, .ro, 0⟩, ⟨2, 0, .ro, 0⟩]⟩
/-- 18_debug.md, R460. -/
def Reg.DBG_MEM_DATA : RegSpec :=
  ⟨0x1200240, 16, 4, 1, 0, .volaSoft, .plain, [⟨31, 0, .rw, 0⟩]⟩
/-- 18_debug.md, R461,R464. -/
def Reg.DBG_FRZ_CTRL : RegSpec :=
  ⟨0x1200300, 1, 0, 1, 0, .volaSoft, .plain, [⟨2, 2, .w1s, 0⟩, ⟨1, 1, .wo, 0⟩]⟩
/-- 18_debug.md, R462. -/
def Reg.DBG_FRZ_TICK_LO : RegSpec :=
  ⟨0x1200304, 1, 0, 1, 0, .volaSoft, .lo, [⟨31, 0, .ro, 0⟩]⟩
/-- 18_debug.md, R462. -/
def Reg.DBG_FRZ_TICK_HI : RegSpec :=
  ⟨0x1200308, 1, 0, 1, 0, .volaSoft, .hi, [⟨15, 0, .ro, 0⟩]⟩
/-- 18_debug.md, R462. -/
def Reg.DBG_FRZ_CYCLE : RegSpec :=
  ⟨0x120030C, 1, 0, 1, 0, .volaSoft, .plain, [⟨15, 0, .ro, 0⟩]⟩
/-- 18_debug.md, R463. -/
def Reg.DBG_RO_SEL : RegSpec :=
  ⟨0x1200310, 1, 0, 1, 0, .volaSoft, .plain, [⟨5, 0, .rw, 0⟩]⟩
/-- 18_debug.md, R463. -/
def Reg.DBG_RO_LEN_LO : RegSpec :=
  ⟨0x1200314, 1, 0, 1, 0, .volaSoft, .lo, [⟨31, 0, .ro, 0⟩]⟩
/-- 18_debug.md, R463. -/
def Reg.DBG_RO_LEN_HI : RegSpec :=
  ⟨0x1200318, 1, 0, 1, 0, .volaSoft, .hi, [⟨31, 0, .ro, 0⟩]⟩
/-- 18_debug.md, R466. -/
def Reg.DBG_TRACE_CTRL : RegSpec :=
  ⟨0x1200400, 1, 0, 1, 0, .volaSoft, .plain, [⟨27, 16, .rw, 0⟩, ⟨15, 8, .rw, 0⟩, ⟨2, 2, .rw, 0⟩, ⟨1, 1, .wo, 0⟩, ⟨0, 0, .wo, 0⟩]⟩
/-- 18_debug.md, R466. -/
def Reg.DBG_TRACE_TRIG : RegSpec :=
  ⟨0x1200404, 1, 0, 1, 0, .volaSoft, .plain, [⟨31, 16, .rw, 0⟩, ⟨15, 0, .rw, 0⟩]⟩
/-- 18_debug.md, R466. -/
def Reg.DBG_TRACE_PTR : RegSpec :=
  ⟨0x1200408, 1, 0, 1, 0, .volaSoft, .plain, [⟨31, 31, .ro, 0⟩, ⟨18, 0, .ro, 0⟩]⟩
/-- 18_debug.md, R466. -/
def Reg.DBG_TRACE_DROP : RegSpec :=
  ⟨0x120040C, 1, 0, 1, 0, .volaSoft, .plain, [⟨31, 0, .ro, 0⟩]⟩
/-- 18_debug.md, R451,R454,R455. -/
def Reg.DBG_ERR : RegSpec :=
  ⟨0x1200410, 1, 0, 1, 0, .sticky, .plain, [⟨3, 3, .w1c, 0⟩, ⟨2, 2, .w1c, 0⟩, ⟨1, 1, .w1c, 0⟩, ⟨0, 0, .w1c, 0⟩]⟩
/-- 03_cores.md, R22. -/
def Reg.CORE_ID : RegSpec :=
  ⟨0x2000000, 3072, 0x2000, 1, 0, .persistent, .plain, [⟨23, 19, .ro, 0⟩, ⟨18, 15, .ro, 0⟩, ⟨14, 12, .ro, 0⟩, ⟨11, 0, .ro, 0⟩]⟩
/-- 03_cores.md, R96. -/
def Reg.CORE_STATUS : RegSpec :=
  ⟨0x2000004, 3072, 0x2000, 1, 0, .vola, .plain, [⟨27, 24, .ro, 0⟩, ⟨23, 16, .ro, 0⟩, ⟨15, 4, .ro, 0⟩, ⟨3, 3, .ro, 0⟩, ⟨2, 0, .ro, 2⟩]⟩
/-- 03_cores.md, R94,R96,R99. -/
def Reg.CORE_CTRL : RegSpec :=
  ⟨0x2000008, 3072, 0x2000, 1, 0, .vola, .plain, [⟨2, 2, .wo, 0⟩, ⟨1, 1, .wo, 0⟩, ⟨0, 0, .wo, 0⟩]⟩
/-- 03_cores.md, R78. -/
def Reg.CORE_KERNEL : RegSpec :=
  ⟨0x200000C, 3072, 0x2000, 1, 0, .vola, .plain, [⟨31, 0, .ro, 0⟩]⟩
/-- 03_cores.md, R94. -/
def Reg.CORE_MFLAGS : RegSpec :=
  ⟨0x2000010, 3072, 0x2000, 1, 0, .volaFunction, .plain, [⟨3, 3, .w1c, 0⟩, ⟨2, 2, .w1c, 0⟩, ⟨1, 1, .w1c, 0⟩, ⟨0, 0, .w1c, 0⟩]⟩
/-- 03_cores.md, R94,R89. -/
def Reg.CORE_VFLAGS : RegSpec :=
  ⟨0x2000014, 3072, 0x2000, 1, 0, .volaFunction, .plain, [⟨4, 4, .w1c, 0⟩, ⟨3, 3, .w1c, 0⟩, ⟨2, 2, .w1c, 0⟩, ⟨1, 1, .w1c, 0⟩, ⟨0, 0, .w1c, 0⟩]⟩
/-- 03_cores.md, R94. -/
def Reg.CORE_MSAT : RegSpec :=
  ⟨0x2000018, 3072, 0x2000, 1, 0, .volaFunction, .plain, [⟨31, 0, .ro, 0⟩]⟩
/-- 03_cores.md, R94. -/
def Reg.CORE_VSAT : RegSpec :=
  ⟨0x200001C, 3072, 0x2000, 1, 0, .volaFunction, .plain, [⟨31, 0, .ro, 0⟩]⟩
/-- 03_cores.md, R97. -/
def Reg.CORE_ECC : RegSpec :=
  ⟨0x2000020, 3072, 0x2000, 1, 0, .sticky, .plain, [⟨23, 16, .ro, 0⟩, ⟨15, 0, .ro, 0⟩]⟩
/-- 03_cores.md, R98,R99. -/
def Reg.CORE_FENCE : RegSpec :=
  ⟨0x2000024, 3072, 0x2000, 1, 0, .sticky, .plain, [⟨5, 4, .ro, 0⟩, ⟨3, 1, .ro, 0⟩, ⟨0, 0, .ro, 0⟩]⟩
/-- 03_cores.md, R95. -/
def Reg.CORE_WDOG : RegSpec :=
  ⟨0x2000028, 3072, 0x2000, 1, 0, .volaSoft, .plain, [⟨7, 0, .rwl, 64⟩]⟩
/-- 03_cores.md, R78. -/
def Reg.CORE_UTIL : RegSpec :=
  ⟨0x200002C, 3072, 0x2000, 1, 0, .vola, .plain, [⟨31, 16, .ro, 0⟩, ⟨15, 0, .ro, 0⟩]⟩

/-- Part 1 of the register table. -/
def Reg.table1 : List RegSpec := [Reg.TOP_ID, Reg.TOP_LINK, Reg.TOP_BAR2_BASE_LO, Reg.TOP_BAR2_BASE_HI, Reg.TOP_MGMT, Reg.TOP_HOST_ERR, Reg.PLT_SLOT_CMD, Reg.PLT_SLOT_STATUS, Reg.PLT_SLOT_LEN, Reg.PLT_SLOT_EPOCH, Reg.PLT_SLOT_FAIL, Reg.PLT_SLOT_HASH, Reg.PLT_EXPECT_HASH, Reg.PLT_CTRL, Reg.PLT_ACT_TICK_LO, Reg.PLT_ACT_TICK_HI, Reg.PLT_ACTIVATE, Reg.PLT_STATUS, Reg.PLT_ACT_RESULT, Reg.PLT_ACT_DONE_LO, Reg.PLT_ACT_DONE_HI, Reg.PLT_ROUTE_GEN, Reg.PLT_ERR, Reg.PLT_FULL_GEN, Reg.PLT_SLIP_COUNT, Reg.PLT_STABLE_FRAME, Reg.TCK_PERIOD, Reg.TCK_COUNT_LO, Reg.TCK_COUNT_HI, Reg.TCK_CYCLE, Reg.TCK_SOURCE, Reg.TCK_UPSTREAM, Reg.TCK_STATUS, Reg.TCK_ERR, Reg.TCK_TRIM, Reg.TCK_OUT_CTRL, Reg.NUM_WATCH_BASE_LO, Reg.NUM_WATCH_BASE_HI, Reg.NUM_NORM_BASE_LO, Reg.NUM_NORM_BASE_HI]

/-- Part 2 of the register table. -/
def Reg.table2 : List RegSpec := [Reg.NUM_SAT_THRESH, Reg.NUM_ZERO_THRESH, Reg.NUM_RATIO_THRESH, Reg.NUM_STICKY, Reg.NUM_DROPPED, Reg.GRM_STATUS, Reg.GRM_FLAGS, Reg.GRM_SAT, Reg.GRM_CTRL, Reg.GRM_ELEMS_LO, Reg.GRM_ELEMS_HI, Reg.GRM_UTIL, Reg.GRM_FALLBACK, Reg.GRM_STEPSZ_NEXT, Reg.GRM_STEP_NEXT, Reg.GRM_STEPSZ, Reg.GRM_STEP, Reg.GRM_STEP_STATUS, Reg.GRM_BC1, Reg.GRM_BC2, Reg.GRM_STEPSZ_HIST, Reg.GRM_KSET, Reg.GRM_KPEND, Reg.GRM_PRECOND_FB, Reg.GRM_KDATA, Reg.GRM_PHASE, Reg.GRM_VERDICT, Reg.GRM_VERDICT_STEP, Reg.GRM_VERDICT_TICK_LO, Reg.GRM_VERDICT_TICK_HI, Reg.GRM_GNORM_LO, Reg.GRM_GNORM_HI, Reg.GRM_CLIP, Reg.GRM_CLIP_PRED, Reg.GRM_CLIP_HIST, Reg.GRM_RUN_DIGEST, Reg.GRM_RUN_TAG, Reg.GRM_VCOUNT, Reg.GRM_LEDGER, Reg.STM_ENG_STATUS]

/-- Part 3 of the register table. -/
def Reg.table3 : List RegSpec := [Reg.STM_TBL, Reg.STM_TBL_REF, Reg.STM_XFLAGS, Reg.STM_XSAT, Reg.STM_CTRL, Reg.STM_ERR, Reg.STM_CTX_STATUS, Reg.STM_CTX_LATE, Reg.STM_TBL_ADDR_LO, Reg.STM_TBL_ADDR_HI, Reg.STM_TBL_MASK_LO, Reg.STM_TBL_MASK_HI, Reg.STM_TBL_CMD, Reg.STM_TBL_RESULT_LO, Reg.STM_TBL_RESULT_HI, Reg.HBM_STACK_STATUS, Reg.HBM_ECC, Reg.HBM_UE_ADDR_LO, Reg.HBM_UE_ADDR_HI, Reg.HBM_POISON, Reg.HBM_SCRUB, Reg.HBM_BANK_SEL, Reg.HBM_BANK_INFO, Reg.HBM_PAD_TOTAL, Reg.HBM_PAD_FREE, Reg.HBM_PAD_LOW, Reg.HBM_PAD_STEP, Reg.HBM_PAD_EXHAUST, Reg.HBM_PAD_CTRL, Reg.LFT_PORT_STATUS, Reg.LFT_PORT_CAP_LO, Reg.LFT_PORT_CAP_HI, Reg.LFT_PORT_ERR, Reg.LFT_CFG, Reg.LFT_CTRL, Reg.LFT_POOL_WAIT, Reg.LFT_POOL_TOTAL, Reg.LFT_POOL_FREE, Reg.LFT_SPILL_FREE, Reg.LFT_POOL_EVICT]

/-- Part 4 of the register table. -/
def Reg.table4 : List RegSpec := [Reg.LFT_POOL_CANCEL, Reg.LFT_POOL_OWNER, Reg.FAB_STATUS, Reg.FAB_NBR, Reg.FAB_NBR_EPOCH, Reg.FAB_NBR_HASH, Reg.FAB_CTRL, Reg.FAB_SKEW, Reg.FAB_ERR, Reg.FAB_CRC, Reg.FAB_REPLAY, Reg.FAB_FEC_UNCORR, Reg.FAB_UTIL, Reg.FAB_TEST_CNT, Reg.FAB_ID, Reg.FAB_ACTIVE_LO, Reg.FAB_ACTIVE_HI, Reg.FAB_E2E_LOST, Reg.FAB_DUP, Reg.FAB_UNREACH, Reg.FAB_TTL, Reg.FAB_ROUTE_SEL, Reg.FAB_ROUTE_INFO, Reg.COL_RSTATUS, Reg.COL_RFLAGS, Reg.COL_RSAT, Reg.COL_RCTRL, Reg.COL_RBUF, Reg.COL_STEP_OPS, Reg.COL_ERR, Reg.COL_STALE, Reg.COL_OP_SEL, Reg.COL_OP_INFO, Reg.CHK_CTRL, Reg.CHK_CFG, Reg.CHK_ADDR_LO, Reg.CHK_ADDR_HI, Reg.CHK_LEN_LO, Reg.CHK_LEN_HI, Reg.CHK_SLEN_LO]

/-- Part 5 of the register table. -/
def Reg.table5 : List RegSpec := [Reg.CHK_SLEN_HI, Reg.CHK_REC, Reg.CHK_ALIVE, Reg.CHK_EXPECT_LO, Reg.CHK_EXPECT_HI, Reg.CHK_RESULT_LO, Reg.CHK_RESULT_HI, Reg.CHK_DONE_LO, Reg.CHK_DONE_HI, Reg.CHK_BAD_REC, Reg.CHK_STATUS, Reg.CHK_ALIVE_OFF, Reg.CHK_ERR, Reg.EVT_RING_BASE_LO, Reg.EVT_RING_BASE_HI, Reg.EVT_SHADOW_LO, Reg.EVT_SHADOW_HI, Reg.EVT_RING_CTRL, Reg.EVT_RING_PROD, Reg.EVT_RING_CONS, Reg.EVT_QUEUED, Reg.EVT_DROPPED, Reg.EVT_CLASS_COUNT, Reg.EVT_ALIVE, Reg.EVT_LOG_HEAD, Reg.EVT_LOG_ACK, Reg.EVT_LOG_SEL, Reg.EVT_LOG_DATA, Reg.PWR_STATUS, Reg.PWR_PROFILE, Reg.PWR_DEFAULT, Reg.PWR_CAP, Reg.PWR_BUDGET, Reg.PWR_ENERGY, Reg.PWR_INPUT, Reg.PWR_DUTY, Reg.PWR_STATE_REQ, Reg.PWR_CFG, Reg.PWR_THERM_THRESH, Reg.PWR_TEMP_SEL]

/-- Part 6 of the register table. -/
def Reg.table6 : List RegSpec := [Reg.PWR_TEMP, Reg.PWR_DIP_MIN, Reg.PWR_DIP_US, Reg.PWR_ERR, Reg.PWR_THROTTLE_SLIPS, Reg.PWR_WDOG, Reg.PWR_RESET_CAUSE, Reg.PWR_CTRL, Reg.SEC_STATUS, Reg.SEC_POLICY, Reg.SEC_SVN, Reg.SEC_FW_BUNDLE, Reg.SEC_FW_VER, Reg.SEC_UID_LO, Reg.SEC_UID_HI, Reg.SEC_ATT_NEXT, Reg.SEC_ATT_MARKS, Reg.SEC_CONFIRM, Reg.SEC_KEYSLOTS, Reg.SEC_NONCE, Reg.SEC_CMD, Reg.SEC_DATA_LEN, Reg.SEC_CMD_STATUS, Reg.SEC_FWU_STATUS, Reg.SEC_ERR, Reg.SEC_MEAS, Reg.SEC_PKEY_HASH, Reg.SEC_DATA, Reg.DBG_STATUS, Reg.DBG_HALT_CTRL, Reg.DBG_CORE_SEL, Reg.DBG_CORE_INFO, Reg.DBG_BP_IDX, Reg.DBG_BP_CFG, Reg.DBG_WATCH_BASE_LO, Reg.DBG_WATCH_BASE_HI, Reg.DBG_WATCH_LIMIT_LO, Reg.DBG_WATCH_LIMIT_HI, Reg.DBG_WATCH_CFG, Reg.DBG_WATCH_HITS]

/-- Part 7 of the register table. -/
def Reg.table7 : List RegSpec := [Reg.DBG_MEM_ADDR_LO, Reg.DBG_MEM_ADDR_HI, Reg.DBG_MEM_CTRL, Reg.DBG_MEM_STATUS, Reg.DBG_MEM_DATA, Reg.DBG_FRZ_CTRL, Reg.DBG_FRZ_TICK_LO, Reg.DBG_FRZ_TICK_HI, Reg.DBG_FRZ_CYCLE, Reg.DBG_RO_SEL, Reg.DBG_RO_LEN_LO, Reg.DBG_RO_LEN_HI, Reg.DBG_TRACE_CTRL, Reg.DBG_TRACE_TRIG, Reg.DBG_TRACE_PTR, Reg.DBG_TRACE_DROP, Reg.DBG_ERR, Reg.CORE_ID, Reg.CORE_STATUS, Reg.CORE_CTRL, Reg.CORE_KERNEL, Reg.CORE_MFLAGS, Reg.CORE_VFLAGS, Reg.CORE_MSAT, Reg.CORE_VSAT, Reg.CORE_ECC, Reg.CORE_FENCE, Reg.CORE_WDOG, Reg.CORE_UTIL]

/-- Every register of BAR0, in the order of the block map (14_host_interface.md Table 14-4). -/
def Reg.table : List RegSpec :=
  Reg.table1 ++ Reg.table2 ++ Reg.table3 ++ Reg.table4 ++ Reg.table5 ++ Reg.table6 ++ Reg.table7

/-- TOP_LINK.FLIT. -/
def Fld.TOP_LINK_FLIT : Fld := ⟨Reg.TOP_LINK, 8, 8⟩
/-- TOP_LINK.WIDTH. -/
def Fld.TOP_LINK_WIDTH : Fld := ⟨Reg.TOP_LINK, 7, 4⟩
/-- TOP_LINK.SPEED. -/
def Fld.TOP_LINK_SPEED : Fld := ⟨Reg.TOP_LINK, 2, 0⟩
/-- TOP_BAR2_BASE_LO.BASE. -/
def Fld.TOP_BAR2_BASE_LO_BASE : Fld := ⟨Reg.TOP_BAR2_BASE_LO, 31, 0⟩
/-- TOP_BAR2_BASE_HI.BASE. -/
def Fld.TOP_BAR2_BASE_HI_BASE : Fld := ⟨Reg.TOP_BAR2_BASE_HI, 15, 0⟩
/-- TOP_HOST_ERR.CONS_BAD. -/
def Fld.TOP_HOST_ERR_CONS_BAD : Fld := ⟨Reg.TOP_HOST_ERR, 2, 2⟩
/-- TOP_HOST_ERR.RING_BUSY. -/
def Fld.TOP_HOST_ERR_RING_BUSY : Fld := ⟨Reg.TOP_HOST_ERR, 1, 1⟩
/-- TOP_HOST_ERR.BASE_BAD. -/
def Fld.TOP_HOST_ERR_BASE_BAD : Fld := ⟨Reg.TOP_HOST_ERR, 0, 0⟩
/-- PLT_SLOT_STATUS.KIND. -/
def Fld.PLT_SLOT_STATUS_KIND : Fld := ⟨Reg.PLT_SLOT_STATUS, 17, 17⟩
/-- PLT_SLOT_STATUS.SIGNED. -/
def Fld.PLT_SLOT_STATUS_SIGNED : Fld := ⟨Reg.PLT_SLOT_STATUS, 16, 16⟩
/-- PLT_SLOT_STATUS.RESULT. -/
def Fld.PLT_SLOT_STATUS_RESULT : Fld := ⟨Reg.PLT_SLOT_STATUS, 15, 8⟩
/-- PLT_SLOT_LEN.LEN. -/
def Fld.PLT_SLOT_LEN_LEN : Fld := ⟨Reg.PLT_SLOT_LEN, 31, 0⟩
/-- PLT_SLOT_EPOCH.EPOCH. -/
def Fld.PLT_SLOT_EPOCH_EPOCH : Fld := ⟨Reg.PLT_SLOT_EPOCH, 31, 0⟩
/-- PLT_SLOT_FAIL.FAIL. -/
def Fld.PLT_SLOT_FAIL_FAIL : Fld := ⟨Reg.PLT_SLOT_FAIL, 31, 0⟩
/-- PLT_SLOT_HASH.HASH. -/
def Fld.PLT_SLOT_HASH_HASH : Fld := ⟨Reg.PLT_SLOT_HASH, 31, 0⟩
/-- PLT_EXPECT_HASH.HASH. -/
def Fld.PLT_EXPECT_HASH_HASH : Fld := ⟨Reg.PLT_EXPECT_HASH, 31, 0⟩
/-- PLT_CTRL.CHECK_EXPECT. -/
def Fld.PLT_CTRL_CHECK_EXPECT : Fld := ⟨Reg.PLT_CTRL, 0, 0⟩
/-- PLT_ACT_TICK_LO.TARGET. -/
def Fld.PLT_ACT_TICK_LO_TARGET : Fld := ⟨Reg.PLT_ACT_TICK_LO, 31, 0⟩
/-- PLT_ACT_TICK_HI.TARGET. -/
def Fld.PLT_ACT_TICK_HI_TARGET : Fld := ⟨Reg.PLT_ACT_TICK_HI, 15, 0⟩
/-- PLT_ACT_RESULT.RESULT. -/
def Fld.PLT_ACT_RESULT_RESULT : Fld := ⟨Reg.PLT_ACT_RESULT, 2, 0⟩
/-- PLT_ACT_DONE_LO.TICK. -/
def Fld.PLT_ACT_DONE_LO_TICK : Fld := ⟨Reg.PLT_ACT_DONE_LO, 31, 0⟩
/-- PLT_ACT_DONE_HI.TICK. -/
def Fld.PLT_ACT_DONE_HI_TICK : Fld := ⟨Reg.PLT_ACT_DONE_HI, 15, 0⟩
/-- PLT_ROUTE_GEN.GEN. -/
def Fld.PLT_ROUTE_GEN_GEN : Fld := ⟨Reg.PLT_ROUTE_GEN, 31, 0⟩
/-- PLT_ERR.WRITE_REFUSED. -/
def Fld.PLT_ERR_WRITE_REFUSED : Fld := ⟨Reg.PLT_ERR, 1, 1⟩
/-- PLT_ERR.CMD_REFUSED. -/
def Fld.PLT_ERR_CMD_REFUSED : Fld := ⟨Reg.PLT_ERR, 0, 0⟩
/-- PLT_FULL_GEN.GEN. -/
def Fld.PLT_FULL_GEN_GEN : Fld := ⟨Reg.PLT_FULL_GEN, 15, 0⟩
/-- PLT_SLIP_COUNT.CONSEC. -/
def Fld.PLT_SLIP_COUNT_CONSEC : Fld := ⟨Reg.PLT_SLIP_COUNT, 31, 24⟩
/-- PLT_SLIP_COUNT.TOTAL. -/
def Fld.PLT_SLIP_COUNT_TOTAL : Fld := ⟨Reg.PLT_SLIP_COUNT, 23, 0⟩
/-- TCK_PERIOD.PERIOD_US. -/
def Fld.TCK_PERIOD_PERIOD_US : Fld := ⟨Reg.TCK_PERIOD, 6, 0⟩
/-- TCK_SOURCE.SRC. -/
def Fld.TCK_SOURCE_SRC : Fld := ⟨Reg.TCK_SOURCE, 1, 0⟩
/-- TCK_ERR.COUNT_MISMATCH. -/
def Fld.TCK_ERR_COUNT_MISMATCH : Fld := ⟨Reg.TCK_ERR, 3, 3⟩
/-- TCK_ERR.ALIGN_LOST. -/
def Fld.TCK_ERR_ALIGN_LOST : Fld := ⟨Reg.TCK_ERR, 2, 2⟩
/-- TCK_ERR.TICK_IN_LOST. -/
def Fld.TCK_ERR_TICK_IN_LOST : Fld := ⟨Reg.TCK_ERR, 1, 1⟩
/-- TCK_ERR.BAD_PERIOD. -/
def Fld.TCK_ERR_BAD_PERIOD : Fld := ⟨Reg.TCK_ERR, 0, 0⟩
/-- TCK_OUT_CTRL.ENABLE. -/
def Fld.TCK_OUT_CTRL_ENABLE : Fld := ⟨Reg.TCK_OUT_CTRL, 0, 0⟩
/-- NUM_WATCH_BASE_LO.BASE. -/
def Fld.NUM_WATCH_BASE_LO_BASE : Fld := ⟨Reg.NUM_WATCH_BASE_LO, 31, 0⟩
/-- NUM_WATCH_BASE_HI.BASE. -/
def Fld.NUM_WATCH_BASE_HI_BASE : Fld := ⟨Reg.NUM_WATCH_BASE_HI, 15, 0⟩
/-- NUM_NORM_BASE_LO.BASE. -/
def Fld.NUM_NORM_BASE_LO_BASE : Fld := ⟨Reg.NUM_NORM_BASE_LO, 31, 0⟩
/-- NUM_NORM_BASE_HI.BASE. -/
def Fld.NUM_NORM_BASE_HI_BASE : Fld := ⟨Reg.NUM_NORM_BASE_HI, 15, 0⟩
/-- NUM_SAT_THRESH.LIMIT. -/
def Fld.NUM_SAT_THRESH_LIMIT : Fld := ⟨Reg.NUM_SAT_THRESH, 15, 0⟩
/-- NUM_ZERO_THRESH.LIMIT. -/
def Fld.NUM_ZERO_THRESH_LIMIT : Fld := ⟨Reg.NUM_ZERO_THRESH, 15, 0⟩
/-- NUM_RATIO_THRESH.T. -/
def Fld.NUM_RATIO_THRESH_T : Fld := ⟨Reg.NUM_RATIO_THRESH, 31, 0⟩
/-- NUM_STICKY.NORM_NONFINITE. -/
def Fld.NUM_STICKY_NORM_NONFINITE : Fld := ⟨Reg.NUM_STICKY, 4, 4⟩
/-- NUM_STICKY.INCOMPLETE. -/
def Fld.NUM_STICKY_INCOMPLETE : Fld := ⟨Reg.NUM_STICKY, 3, 3⟩
/-- NUM_STICKY.OVERCOUNT. -/
def Fld.NUM_STICKY_OVERCOUNT : Fld := ⟨Reg.NUM_STICKY, 2, 2⟩
/-- NUM_STICKY.CLAMPED. -/
def Fld.NUM_STICKY_CLAMPED : Fld := ⟨Reg.NUM_STICKY, 1, 1⟩
/-- NUM_STICKY.NONFINITE. -/
def Fld.NUM_STICKY_NONFINITE : Fld := ⟨Reg.NUM_STICKY, 0, 0⟩
/-- NUM_DROPPED.COUNT. -/
def Fld.NUM_DROPPED_COUNT : Fld := ⟨Reg.NUM_DROPPED, 31, 0⟩
/-- GRM_FLAGS.INV. -/
def Fld.GRM_FLAGS_INV : Fld := ⟨Reg.GRM_FLAGS, 3, 3⟩
/-- GRM_SAT.COUNT. -/
def Fld.GRM_SAT_COUNT : Fld := ⟨Reg.GRM_SAT, 31, 0⟩
/-- GRM_ELEMS_LO.COUNT. -/
def Fld.GRM_ELEMS_LO_COUNT : Fld := ⟨Reg.GRM_ELEMS_LO, 31, 0⟩
/-- GRM_ELEMS_HI.COUNT. -/
def Fld.GRM_ELEMS_HI_COUNT : Fld := ⟨Reg.GRM_ELEMS_HI, 15, 0⟩
/-- GRM_FALLBACK.COUNT. -/
def Fld.GRM_FALLBACK_COUNT : Fld := ⟨Reg.GRM_FALLBACK, 31, 0⟩
/-- GRM_STEPSZ_NEXT.SZ. -/
def Fld.GRM_STEPSZ_NEXT_SZ : Fld := ⟨Reg.GRM_STEPSZ_NEXT, 31, 0⟩
/-- GRM_STEP_NEXT.STEP. -/
def Fld.GRM_STEP_NEXT_STEP : Fld := ⟨Reg.GRM_STEP_NEXT, 31, 0⟩
/-- GRM_STEPSZ.SZ. -/
def Fld.GRM_STEPSZ_SZ : Fld := ⟨Reg.GRM_STEPSZ, 31, 0⟩
/-- GRM_STEP.STEP. -/
def Fld.GRM_STEP_STEP : Fld := ⟨Reg.GRM_STEP, 31, 0⟩
/-- GRM_STEP_STATUS.BAD_SZ. -/
def Fld.GRM_STEP_STATUS_BAD_SZ : Fld := ⟨Reg.GRM_STEP_STATUS, 3, 3⟩
/-- GRM_STEP_STATUS.STALE. -/
def Fld.GRM_STEP_STATUS_STALE : Fld := ⟨Reg.GRM_STEP_STATUS, 2, 2⟩
/-- GRM_STEP_STATUS.SZ_VALID. -/
def Fld.GRM_STEP_STATUS_SZ_VALID : Fld := ⟨Reg.GRM_STEP_STATUS, 1, 1⟩
/-- GRM_BC1.BC. -/
def Fld.GRM_BC1_BC : Fld := ⟨Reg.GRM_BC1, 31, 0⟩
/-- GRM_BC2.BC. -/
def Fld.GRM_BC2_BC : Fld := ⟨Reg.GRM_BC2, 31, 0⟩
/-- GRM_STEPSZ_HIST.SZ. -/
def Fld.GRM_STEPSZ_HIST_SZ : Fld := ⟨Reg.GRM_STEPSZ_HIST, 31, 0⟩
/-- GRM_KSET.SET. -/
def Fld.GRM_KSET_SET : Fld := ⟨Reg.GRM_KSET, 15, 0⟩
/-- GRM_KPEND.PEND. -/
def Fld.GRM_KPEND_PEND : Fld := ⟨Reg.GRM_KPEND, 31, 0⟩
/-- GRM_PRECOND_FB.COUNT. -/
def Fld.GRM_PRECOND_FB_COUNT : Fld := ⟨Reg.GRM_PRECOND_FB, 31, 0⟩
/-- GRM_KDATA.VALUE. -/
def Fld.GRM_KDATA_VALUE : Fld := ⟨Reg.GRM_KDATA, 31, 0⟩
/-- GRM_VERDICT.CAUSE. -/
def Fld.GRM_VERDICT_CAUSE : Fld := ⟨Reg.GRM_VERDICT, 31, 16⟩
/-- GRM_VERDICT.REPLAYED. -/
def Fld.GRM_VERDICT_REPLAYED : Fld := ⟨Reg.GRM_VERDICT, 4, 4⟩
/-- GRM_VERDICT.VERDICT. -/
def Fld.GRM_VERDICT_VERDICT : Fld := ⟨Reg.GRM_VERDICT, 2, 0⟩
/-- GRM_VERDICT_STEP.STEP. -/
def Fld.GRM_VERDICT_STEP_STEP : Fld := ⟨Reg.GRM_VERDICT_STEP, 31, 0⟩
/-- GRM_VERDICT_TICK_LO.TICK. -/
def Fld.GRM_VERDICT_TICK_LO_TICK : Fld := ⟨Reg.GRM_VERDICT_TICK_LO, 31, 0⟩
/-- GRM_VERDICT_TICK_HI.TICK. -/
def Fld.GRM_VERDICT_TICK_HI_TICK : Fld := ⟨Reg.GRM_VERDICT_TICK_HI, 15, 0⟩
/-- GRM_GNORM_LO.GNORM. -/
def Fld.GRM_GNORM_LO_GNORM : Fld := ⟨Reg.GRM_GNORM_LO, 31, 0⟩
/-- GRM_GNORM_HI.GNORM. -/
def Fld.GRM_GNORM_HI_GNORM : Fld := ⟨Reg.GRM_GNORM_HI, 31, 0⟩
/-- GRM_CLIP.FACTOR. -/
def Fld.GRM_CLIP_FACTOR : Fld := ⟨Reg.GRM_CLIP, 31, 0⟩
/-- GRM_CLIP_PRED.FACTOR. -/
def Fld.GRM_CLIP_PRED_FACTOR : Fld := ⟨Reg.GRM_CLIP_PRED, 31, 0⟩
/-- GRM_CLIP_HIST.FACTOR. -/
def Fld.GRM_CLIP_HIST_FACTOR : Fld := ⟨Reg.GRM_CLIP_HIST, 31, 0⟩
/-- GRM_RUN_DIGEST.DIGEST. -/
def Fld.GRM_RUN_DIGEST_DIGEST : Fld := ⟨Reg.GRM_RUN_DIGEST, 31, 0⟩
/-- GRM_RUN_TAG.TAG. -/
def Fld.GRM_RUN_TAG_TAG : Fld := ⟨Reg.GRM_RUN_TAG, 31, 0⟩
/-- GRM_VCOUNT.COUNT. -/
def Fld.GRM_VCOUNT_COUNT : Fld := ⟨Reg.GRM_VCOUNT, 31, 0⟩
/-- STM_XSAT.COUNT. -/
def Fld.STM_XSAT_COUNT : Fld := ⟨Reg.STM_XSAT, 31, 0⟩
/-- STM_ERR.WALK_OVERFLOW. -/
def Fld.STM_ERR_WALK_OVERFLOW : Fld := ⟨Reg.STM_ERR, 6, 6⟩
/-- STM_ERR.KV_PAGE. -/
def Fld.STM_ERR_KV_PAGE : Fld := ⟨Reg.STM_ERR, 5, 5⟩
/-- STM_ERR.POISON. -/
def Fld.STM_ERR_POISON : Fld := ⟨Reg.STM_ERR, 4, 4⟩
/-- STM_ERR.ETCH_BAD. -/
def Fld.STM_ERR_ETCH_BAD : Fld := ⟨Reg.STM_ERR, 3, 3⟩
/-- STM_ERR.TABLE_GONE. -/
def Fld.STM_ERR_TABLE_GONE : Fld := ⟨Reg.STM_ERR, 2, 2⟩
/-- STM_ERR.TABLE_BAD. -/
def Fld.STM_ERR_TABLE_BAD : Fld := ⟨Reg.STM_ERR, 1, 1⟩
/-- STM_ERR.TABLE_BUSY. -/
def Fld.STM_ERR_TABLE_BUSY : Fld := ⟨Reg.STM_ERR, 0, 0⟩
/-- STM_CTX_LATE.COUNT. -/
def Fld.STM_CTX_LATE_COUNT : Fld := ⟨Reg.STM_CTX_LATE, 31, 0⟩
/-- STM_TBL_ADDR_LO.ADDR. -/
def Fld.STM_TBL_ADDR_LO_ADDR : Fld := ⟨Reg.STM_TBL_ADDR_LO, 31, 0⟩
/-- STM_TBL_ADDR_HI.ADDR. -/
def Fld.STM_TBL_ADDR_HI_ADDR : Fld := ⟨Reg.STM_TBL_ADDR_HI, 15, 0⟩
/-- STM_TBL_MASK_LO.MASK. -/
def Fld.STM_TBL_MASK_LO_MASK : Fld := ⟨Reg.STM_TBL_MASK_LO, 31, 0⟩
/-- STM_TBL_MASK_HI.MASK. -/
def Fld.STM_TBL_MASK_HI_MASK : Fld := ⟨Reg.STM_TBL_MASK_HI, 31, 0⟩
/-- STM_TBL_RESULT_LO.REFUSED. -/
def Fld.STM_TBL_RESULT_LO_REFUSED : Fld := ⟨Reg.STM_TBL_RESULT_LO, 31, 0⟩
/-- STM_TBL_RESULT_HI.REFUSED. -/
def Fld.STM_TBL_RESULT_HI_REFUSED : Fld := ⟨Reg.STM_TBL_RESULT_HI, 31, 0⟩
/-- HBM_STACK_STATUS.STATE. -/
def Fld.HBM_STACK_STATUS_STATE : Fld := ⟨Reg.HBM_STACK_STATUS, 2, 0⟩
/-- HBM_ECC.UE. -/
def Fld.HBM_ECC_UE : Fld := ⟨Reg.HBM_ECC, 23, 16⟩
/-- HBM_ECC.CE. -/
def Fld.HBM_ECC_CE : Fld := ⟨Reg.HBM_ECC, 15, 0⟩
/-- HBM_UE_ADDR_LO.ADDR. -/
def Fld.HBM_UE_ADDR_LO_ADDR : Fld := ⟨Reg.HBM_UE_ADDR_LO, 31, 0⟩
/-- HBM_UE_ADDR_HI.ADDR. -/
def Fld.HBM_UE_ADDR_HI_ADDR : Fld := ⟨Reg.HBM_UE_ADDR_HI, 15, 0⟩
/-- HBM_SCRUB.HOURS. -/
def Fld.HBM_SCRUB_HOURS : Fld := ⟨Reg.HBM_SCRUB, 7, 0⟩
/-- HBM_BANK_SEL.REGION. -/
def Fld.HBM_BANK_SEL_REGION : Fld := ⟨Reg.HBM_BANK_SEL, 11, 0⟩
/-- HBM_PAD_TOTAL.PAGES. -/
def Fld.HBM_PAD_TOTAL_PAGES : Fld := ⟨Reg.HBM_PAD_TOTAL, 31, 0⟩
/-- HBM_PAD_LOW.PAGES. -/
def Fld.HBM_PAD_LOW_PAGES : Fld := ⟨Reg.HBM_PAD_LOW, 31, 0⟩
/-- HBM_PAD_STEP.SPILLED. -/
def Fld.HBM_PAD_STEP_SPILLED : Fld := ⟨Reg.HBM_PAD_STEP, 31, 16⟩
/-- HBM_PAD_STEP.DROPPED. -/
def Fld.HBM_PAD_STEP_DROPPED : Fld := ⟨Reg.HBM_PAD_STEP, 15, 0⟩
/-- HBM_PAD_EXHAUST.COUNT. -/
def Fld.HBM_PAD_EXHAUST_COUNT : Fld := ⟨Reg.HBM_PAD_EXHAUST, 31, 0⟩
/-- LFT_PORT_STATUS.VIRAL. -/
def Fld.LFT_PORT_STATUS_VIRAL : Fld := ⟨Reg.LFT_PORT_STATUS, 19, 19⟩
/-- LFT_PORT_STATUS.SPEED. -/
def Fld.LFT_PORT_STATUS_SPEED : Fld := ⟨Reg.LFT_PORT_STATUS, 18, 16⟩
/-- LFT_PORT_STATUS.WIDTH. -/
def Fld.LFT_PORT_STATUS_WIDTH : Fld := ⟨Reg.LFT_PORT_STATUS, 12, 8⟩
/-- LFT_PORT_STATUS.STATE. -/
def Fld.LFT_PORT_STATUS_STATE : Fld := ⟨Reg.LFT_PORT_STATUS, 2, 0⟩
/-- LFT_PORT_CAP_LO.BYTES. -/
def Fld.LFT_PORT_CAP_LO_BYTES : Fld := ⟨Reg.LFT_PORT_CAP_LO, 31, 0⟩
/-- LFT_PORT_CAP_HI.BYTES. -/
def Fld.LFT_PORT_CAP_HI_BYTES : Fld := ⟨Reg.LFT_PORT_CAP_HI, 15, 0⟩
/-- LFT_PORT_ERR.DEV_EVENT. -/
def Fld.LFT_PORT_ERR_DEV_EVENT : Fld := ⟨Reg.LFT_PORT_ERR, 4, 4⟩
/-- LFT_PORT_ERR.VIRAL. -/
def Fld.LFT_PORT_ERR_VIRAL : Fld := ⟨Reg.LFT_PORT_ERR, 3, 3⟩
/-- LFT_PORT_ERR.POISON. -/
def Fld.LFT_PORT_ERR_POISON : Fld := ⟨Reg.LFT_PORT_ERR, 2, 2⟩
/-- LFT_PORT_ERR.LINK_LOST. -/
def Fld.LFT_PORT_ERR_LINK_LOST : Fld := ⟨Reg.LFT_PORT_ERR, 1, 1⟩
/-- LFT_PORT_ERR.LINK_DOWN. -/
def Fld.LFT_PORT_ERR_LINK_DOWN : Fld := ⟨Reg.LFT_PORT_ERR, 0, 0⟩
/-- LFT_CFG.SET. -/
def Fld.LFT_CFG_SET : Fld := ⟨Reg.LFT_CFG, 7, 4⟩
/-- LFT_CFG.MODE. -/
def Fld.LFT_CFG_MODE : Fld := ⟨Reg.LFT_CFG, 0, 0⟩
/-- LFT_POOL_WAIT.TICKS. -/
def Fld.LFT_POOL_WAIT_TICKS : Fld := ⟨Reg.LFT_POOL_WAIT, 15, 0⟩
/-- LFT_POOL_TOTAL.COUNT. -/
def Fld.LFT_POOL_TOTAL_COUNT : Fld := ⟨Reg.LFT_POOL_TOTAL, 31, 0⟩
/-- LFT_POOL_EVICT.COUNT. -/
def Fld.LFT_POOL_EVICT_COUNT : Fld := ⟨Reg.LFT_POOL_EVICT, 31, 0⟩
/-- LFT_POOL_CANCEL.COUNT. -/
def Fld.LFT_POOL_CANCEL_COUNT : Fld := ⟨Reg.LFT_POOL_CANCEL, 31, 0⟩
/-- FAB_STATUS.CAUSE. -/
def Fld.FAB_STATUS_CAUSE : Fld := ⟨Reg.FAB_STATUS, 23, 16⟩
/-- FAB_ERR.CREDIT_WAIT. -/
def Fld.FAB_ERR_CREDIT_WAIT : Fld := ⟨Reg.FAB_ERR, 5, 5⟩
/-- FAB_ERR.FAILED. -/
def Fld.FAB_ERR_FAILED : Fld := ⟨Reg.FAB_ERR, 4, 4⟩
/-- FAB_ERR.DOWN. -/
def Fld.FAB_ERR_DOWN : Fld := ⟨Reg.FAB_ERR, 3, 3⟩
/-- FAB_ERR.DEGRADED. -/
def Fld.FAB_ERR_DEGRADED : Fld := ⟨Reg.FAB_ERR, 2, 2⟩
/-- FAB_ERR.NBR_MISMATCH. -/
def Fld.FAB_ERR_NBR_MISMATCH : Fld := ⟨Reg.FAB_ERR, 1, 1⟩
/-- FAB_ERR.SKEW. -/
def Fld.FAB_ERR_SKEW : Fld := ⟨Reg.FAB_ERR, 0, 0⟩
/-- FAB_CRC.COUNT. -/
def Fld.FAB_CRC_COUNT : Fld := ⟨Reg.FAB_CRC, 31, 0⟩
/-- FAB_REPLAY.COUNT. -/
def Fld.FAB_REPLAY_COUNT : Fld := ⟨Reg.FAB_REPLAY, 31, 0⟩
/-- FAB_FEC_UNCORR.COUNT. -/
def Fld.FAB_FEC_UNCORR_COUNT : Fld := ⟨Reg.FAB_FEC_UNCORR, 31, 0⟩
/-- FAB_UTIL.RX. -/
def Fld.FAB_UTIL_RX : Fld := ⟨Reg.FAB_UTIL, 31, 16⟩
/-- FAB_UTIL.TX. -/
def Fld.FAB_UTIL_TX : Fld := ⟨Reg.FAB_UTIL, 15, 0⟩
/-- FAB_TEST_CNT.ERRORS. -/
def Fld.FAB_TEST_CNT_ERRORS : Fld := ⟨Reg.FAB_TEST_CNT, 31, 16⟩
/-- FAB_TEST_CNT.FLITS. -/
def Fld.FAB_TEST_CNT_FLITS : Fld := ⟨Reg.FAB_TEST_CNT, 15, 0⟩
/-- FAB_ID.MODULE. -/
def Fld.FAB_ID_MODULE : Fld := ⟨Reg.FAB_ID, 15, 0⟩
/-- FAB_E2E_LOST.COUNT. -/
def Fld.FAB_E2E_LOST_COUNT : Fld := ⟨Reg.FAB_E2E_LOST, 31, 0⟩
/-- FAB_DUP.COUNT. -/
def Fld.FAB_DUP_COUNT : Fld := ⟨Reg.FAB_DUP, 31, 0⟩
/-- FAB_UNREACH.COUNT. -/
def Fld.FAB_UNREACH_COUNT : Fld := ⟨Reg.FAB_UNREACH, 31, 0⟩
/-- FAB_TTL.COUNT. -/
def Fld.FAB_TTL_COUNT : Fld := ⟨Reg.FAB_TTL, 31, 0⟩
/-- FAB_ROUTE_SEL.DEST. -/
def Fld.FAB_ROUTE_SEL_DEST : Fld := ⟨Reg.FAB_ROUTE_SEL, 15, 0⟩
/-- COL_RSTATUS.OP. -/
def Fld.COL_RSTATUS_OP : Fld := ⟨Reg.COL_RSTATUS, 15, 0⟩
/-- COL_RSAT.COUNT. -/
def Fld.COL_RSAT_COUNT : Fld := ⟨Reg.COL_RSAT, 31, 0⟩
/-- COL_ERR.STALE. -/
def Fld.COL_ERR_STALE : Fld := ⟨Reg.COL_ERR, 2, 2⟩
/-- COL_ERR.FORMAT. -/
def Fld.COL_ERR_FORMAT : Fld := ⟨Reg.COL_ERR, 1, 1⟩
/-- COL_ERR.NONFINITE. -/
def Fld.COL_ERR_NONFINITE : Fld := ⟨Reg.COL_ERR, 0, 0⟩
/-- COL_STALE.COUNT. -/
def Fld.COL_STALE_COUNT : Fld := ⟨Reg.COL_STALE, 31, 0⟩
/-- COL_OP_SEL.OP. -/
def Fld.COL_OP_SEL_OP : Fld := ⟨Reg.COL_OP_SEL, 15, 0⟩
/-- CHK_CFG.STREAM. -/
def Fld.CHK_CFG_STREAM : Fld := ⟨Reg.CHK_CFG, 25, 16⟩
/-- CHK_CFG.ALIVE. -/
def Fld.CHK_CFG_ALIVE : Fld := ⟨Reg.CHK_CFG, 4, 4⟩
/-- CHK_CFG.COMPARE. -/
def Fld.CHK_CFG_COMPARE : Fld := ⟨Reg.CHK_CFG, 3, 3⟩
/-- CHK_CFG.POLY. -/
def Fld.CHK_CFG_POLY : Fld := ⟨Reg.CHK_CFG, 2, 2⟩
/-- CHK_CFG.MODE. -/
def Fld.CHK_CFG_MODE : Fld := ⟨Reg.CHK_CFG, 1, 0⟩
/-- CHK_ADDR_LO.ADDR. -/
def Fld.CHK_ADDR_LO_ADDR : Fld := ⟨Reg.CHK_ADDR_LO, 31, 0⟩
/-- CHK_ADDR_HI.ADDR. -/
def Fld.CHK_ADDR_HI_ADDR : Fld := ⟨Reg.CHK_ADDR_HI, 15, 0⟩
/-- CHK_LEN_LO.LEN. -/
def Fld.CHK_LEN_LO_LEN : Fld := ⟨Reg.CHK_LEN_LO, 31, 0⟩
/-- CHK_LEN_HI.LEN. -/
def Fld.CHK_LEN_HI_LEN : Fld := ⟨Reg.CHK_LEN_HI, 15, 0⟩
/-- CHK_SLEN_LO.SLEN. -/
def Fld.CHK_SLEN_LO_SLEN : Fld := ⟨Reg.CHK_SLEN_LO, 31, 0⟩
/-- CHK_SLEN_HI.SLEN. -/
def Fld.CHK_SLEN_HI_SLEN : Fld := ⟨Reg.CHK_SLEN_HI, 15, 0⟩
/-- CHK_REC.RECORD_BYTES. -/
def Fld.CHK_REC_RECORD_BYTES : Fld := ⟨Reg.CHK_REC, 19, 0⟩
/-- CHK_ALIVE.LAST. -/
def Fld.CHK_ALIVE_LAST : Fld := ⟨Reg.CHK_ALIVE, 31, 16⟩
/-- CHK_ALIVE.FIRST. -/
def Fld.CHK_ALIVE_FIRST : Fld := ⟨Reg.CHK_ALIVE, 15, 0⟩
/-- CHK_EXPECT_LO.EXPECT. -/
def Fld.CHK_EXPECT_LO_EXPECT : Fld := ⟨Reg.CHK_EXPECT_LO, 31, 0⟩
/-- CHK_EXPECT_HI.EXPECT. -/
def Fld.CHK_EXPECT_HI_EXPECT : Fld := ⟨Reg.CHK_EXPECT_HI, 31, 0⟩
/-- CHK_RESULT_LO.RESULT. -/
def Fld.CHK_RESULT_LO_RESULT : Fld := ⟨Reg.CHK_RESULT_LO, 31, 0⟩
/-- CHK_RESULT_HI.RESULT. -/
def Fld.CHK_RESULT_HI_RESULT : Fld := ⟨Reg.CHK_RESULT_HI, 31, 0⟩
/-- CHK_DONE_LO.DONE. -/
def Fld.CHK_DONE_LO_DONE : Fld := ⟨Reg.CHK_DONE_LO, 31, 0⟩
/-- CHK_DONE_HI.DONE. -/
def Fld.CHK_DONE_HI_DONE : Fld := ⟨Reg.CHK_DONE_HI, 15, 0⟩
/-- CHK_BAD_REC.BAD_REC. -/
def Fld.CHK_BAD_REC_BAD_REC : Fld := ⟨Reg.CHK_BAD_REC, 31, 0⟩
/-- CHK_STATUS.PLATE. -/
def Fld.CHK_STATUS_PLATE : Fld := ⟨Reg.CHK_STATUS, 8, 8⟩
/-- CHK_STATUS.OUTCOME. -/
def Fld.CHK_STATUS_OUTCOME : Fld := ⟨Reg.CHK_STATUS, 6, 4⟩
/-- CHK_ALIVE_OFF.ALIVE_OFF. -/
def Fld.CHK_ALIVE_OFF_ALIVE_OFF : Fld := ⟨Reg.CHK_ALIVE_OFF, 19, 0⟩
/-- CHK_ERR.REFUSED. -/
def Fld.CHK_ERR_REFUSED : Fld := ⟨Reg.CHK_ERR, 31, 24⟩
/-- CHK_ERR.POISON. -/
def Fld.CHK_ERR_POISON : Fld := ⟨Reg.CHK_ERR, 23, 16⟩
/-- CHK_ERR.ALIVE. -/
def Fld.CHK_ERR_ALIVE : Fld := ⟨Reg.CHK_ERR, 15, 8⟩
/-- CHK_ERR.MISMATCH. -/
def Fld.CHK_ERR_MISMATCH : Fld := ⟨Reg.CHK_ERR, 7, 0⟩
/-- EVT_RING_BASE_LO.ADDR. -/
def Fld.EVT_RING_BASE_LO_ADDR : Fld := ⟨Reg.EVT_RING_BASE_LO, 31, 12⟩
/-- EVT_RING_BASE_HI.ADDR. -/
def Fld.EVT_RING_BASE_HI_ADDR : Fld := ⟨Reg.EVT_RING_BASE_HI, 31, 0⟩
/-- EVT_SHADOW_LO.ADDR. -/
def Fld.EVT_SHADOW_LO_ADDR : Fld := ⟨Reg.EVT_SHADOW_LO, 31, 2⟩
/-- EVT_SHADOW_HI.ADDR. -/
def Fld.EVT_SHADOW_HI_ADDR : Fld := ⟨Reg.EVT_SHADOW_HI, 31, 0⟩
/-- EVT_RING_CTRL.COALESCE_US. -/
def Fld.EVT_RING_CTRL_COALESCE_US : Fld := ⟨Reg.EVT_RING_CTRL, 15, 8⟩
/-- EVT_RING_CTRL.LOG2_SIZE. -/
def Fld.EVT_RING_CTRL_LOG2_SIZE : Fld := ⟨Reg.EVT_RING_CTRL, 5, 1⟩
/-- EVT_RING_CTRL.ENABLE. -/
def Fld.EVT_RING_CTRL_ENABLE : Fld := ⟨Reg.EVT_RING_CTRL, 0, 0⟩
/-- EVT_RING_PROD.INDEX. -/
def Fld.EVT_RING_PROD_INDEX : Fld := ⟨Reg.EVT_RING_PROD, 31, 0⟩
/-- EVT_RING_CONS.INDEX. -/
def Fld.EVT_RING_CONS_INDEX : Fld := ⟨Reg.EVT_RING_CONS, 31, 0⟩
/-- EVT_DROPPED.COUNT. -/
def Fld.EVT_DROPPED_COUNT : Fld := ⟨Reg.EVT_DROPPED, 31, 0⟩
/-- EVT_CLASS_COUNT.COUNT. -/
def Fld.EVT_CLASS_COUNT_COUNT : Fld := ⟨Reg.EVT_CLASS_COUNT, 31, 0⟩
/-- EVT_ALIVE.NEXT. -/
def Fld.EVT_ALIVE_NEXT : Fld := ⟨Reg.EVT_ALIVE, 31, 0⟩
/-- EVT_LOG_HEAD.INDEX. -/
def Fld.EVT_LOG_HEAD_INDEX : Fld := ⟨Reg.EVT_LOG_HEAD, 31, 0⟩
/-- EVT_LOG_ACK.INDEX. -/
def Fld.EVT_LOG_ACK_INDEX : Fld := ⟨Reg.EVT_LOG_ACK, 31, 0⟩
/-- EVT_LOG_SEL.INDEX. -/
def Fld.EVT_LOG_SEL_INDEX : Fld := ⟨Reg.EVT_LOG_SEL, 31, 0⟩
/-- PWR_PROFILE.REQ. -/
def Fld.PWR_PROFILE_REQ : Fld := ⟨Reg.PWR_PROFILE, 1, 0⟩
/-- PWR_DEFAULT.COOLING. -/
def Fld.PWR_DEFAULT_COOLING : Fld := ⟨Reg.PWR_DEFAULT, 2, 2⟩
/-- PWR_DEFAULT.PROFILE. -/
def Fld.PWR_DEFAULT_PROFILE : Fld := ⟨Reg.PWR_DEFAULT, 1, 0⟩
/-- PWR_CAP.WATTS. -/
def Fld.PWR_CAP_WATTS : Fld := ⟨Reg.PWR_CAP, 11, 0⟩
/-- PWR_BUDGET.UJ. -/
def Fld.PWR_BUDGET_UJ : Fld := ⟨Reg.PWR_BUDGET, 23, 0⟩
/-- PWR_ENERGY.UJ. -/
def Fld.PWR_ENERGY_UJ : Fld := ⟨Reg.PWR_ENERGY, 23, 0⟩
/-- PWR_INPUT.MV. -/
def Fld.PWR_INPUT_MV : Fld := ⟨Reg.PWR_INPUT, 15, 0⟩
/-- PWR_INPUT.CURRENT. -/
def Fld.PWR_INPUT_CURRENT : Fld := ⟨Reg.PWR_INPUT, 31, 16⟩
/-- PWR_DUTY.DH. -/
def Fld.PWR_DUTY_DH : Fld := ⟨Reg.PWR_DUTY, 7, 4⟩
/-- PWR_DUTY.DM. -/
def Fld.PWR_DUTY_DM : Fld := ⟨Reg.PWR_DUTY, 3, 0⟩
/-- PWR_CFG.OFF_ON_PERST. -/
def Fld.PWR_CFG_OFF_ON_PERST : Fld := ⟨Reg.PWR_CFG, 17, 17⟩
/-- PWR_CFG.FABRIC_WAKE. -/
def Fld.PWR_CFG_FABRIC_WAKE : Fld := ⟨Reg.PWR_CFG, 16, 16⟩
/-- PWR_CFG.IDLE_TICKS. -/
def Fld.PWR_CFG_IDLE_TICKS : Fld := ⟨Reg.PWR_CFG, 15, 0⟩
/-- PWR_THERM_THRESH.HBM_C. -/
def Fld.PWR_THERM_THRESH_HBM_C : Fld := ⟨Reg.PWR_THERM_THRESH, 15, 8⟩
/-- PWR_THERM_THRESH.LOGIC_C. -/
def Fld.PWR_THERM_THRESH_LOGIC_C : Fld := ⟨Reg.PWR_THERM_THRESH, 7, 0⟩
/-- PWR_TEMP_SEL.SENSOR. -/
def Fld.PWR_TEMP_SEL_SENSOR : Fld := ⟨Reg.PWR_TEMP_SEL, 5, 0⟩
/-- PWR_DIP_MIN.MV. -/
def Fld.PWR_DIP_MIN_MV : Fld := ⟨Reg.PWR_DIP_MIN, 15, 0⟩
/-- PWR_DIP_US.US. -/
def Fld.PWR_DIP_US_US : Fld := ⟨Reg.PWR_DIP_US, 31, 0⟩
/-- PWR_ERR.CRITICAL. -/
def Fld.PWR_ERR_CRITICAL : Fld := ⟨Reg.PWR_ERR, 5, 5⟩
/-- PWR_ERR.THROTTLE. -/
def Fld.PWR_ERR_THROTTLE : Fld := ⟨Reg.PWR_ERR, 4, 4⟩
/-- PWR_ERR.SUPPLY_PARK. -/
def Fld.PWR_ERR_SUPPLY_PARK : Fld := ⟨Reg.PWR_ERR, 3, 3⟩
/-- PWR_ERR.SUPPLY_WARN. -/
def Fld.PWR_ERR_SUPPLY_WARN : Fld := ⟨Reg.PWR_ERR, 2, 2⟩
/-- PWR_ERR.STATE. -/
def Fld.PWR_ERR_STATE : Fld := ⟨Reg.PWR_ERR, 1, 1⟩
/-- PWR_ERR.PROFILE. -/
def Fld.PWR_ERR_PROFILE : Fld := ⟨Reg.PWR_ERR, 0, 0⟩
/-- PWR_THROTTLE_SLIPS.COUNT. -/
def Fld.PWR_THROTTLE_SLIPS_COUNT : Fld := ⟨Reg.PWR_THROTTLE_SLIPS, 31, 0⟩
/-- PWR_WDOG.COUNT. -/
def Fld.PWR_WDOG_COUNT : Fld := ⟨Reg.PWR_WDOG, 31, 0⟩
/-- PWR_RESET_CAUSE.SOURCE. -/
def Fld.PWR_RESET_CAUSE_SOURCE : Fld := ⟨Reg.PWR_RESET_CAUSE, 15, 8⟩
/-- PWR_RESET_CAUSE.KIND. -/
def Fld.PWR_RESET_CAUSE_KIND : Fld := ⟨Reg.PWR_RESET_CAUSE, 2, 0⟩
/-- SEC_STATUS.NONCE_VALID. -/
def Fld.SEC_STATUS_NONCE_VALID : Fld := ⟨Reg.SEC_STATUS, 7, 7⟩
/-- SEC_STATUS.SLOT. -/
def Fld.SEC_STATUS_SLOT : Fld := ⟨Reg.SEC_STATUS, 1, 1⟩
/-- SEC_POLICY.OWNER_DEBUG. -/
def Fld.SEC_POLICY_OWNER_DEBUG : Fld := ⟨Reg.SEC_POLICY, 4, 4⟩
/-- SEC_POLICY.ATT_MIN. -/
def Fld.SEC_POLICY_ATT_MIN : Fld := ⟨Reg.SEC_POLICY, 13, 8⟩
/-- SEC_POLICY.LOCKED. -/
def Fld.SEC_POLICY_LOCKED : Fld := ⟨Reg.SEC_POLICY, 3, 3⟩
/-- SEC_POLICY.BLOCKWISE. -/
def Fld.SEC_POLICY_BLOCKWISE : Fld := ⟨Reg.SEC_POLICY, 2, 2⟩
/-- SEC_POLICY.SIDEBAND. -/
def Fld.SEC_POLICY_SIDEBAND : Fld := ⟨Reg.SEC_POLICY, 1, 1⟩
/-- SEC_POLICY.REQUIRE_SIGNED. -/
def Fld.SEC_POLICY_REQUIRE_SIGNED : Fld := ⟨Reg.SEC_POLICY, 0, 0⟩
/-- SEC_SVN.SLOT_MIN. -/
def Fld.SEC_SVN_SLOT_MIN : Fld := ⟨Reg.SEC_SVN, 22, 16⟩
/-- SEC_SVN.FUSED. -/
def Fld.SEC_SVN_FUSED : Fld := ⟨Reg.SEC_SVN, 6, 0⟩
/-- SEC_FW_BUNDLE.BUNDLE. -/
def Fld.SEC_FW_BUNDLE_BUNDLE : Fld := ⟨Reg.SEC_FW_BUNDLE, 31, 0⟩
/-- SEC_FW_VER.VERSION. -/
def Fld.SEC_FW_VER_VERSION : Fld := ⟨Reg.SEC_FW_VER, 31, 0⟩
/-- SEC_ATT_NEXT.NEXT. -/
def Fld.SEC_ATT_NEXT_NEXT : Fld := ⟨Reg.SEC_ATT_NEXT, 20, 0⟩
/-- SEC_ATT_MARKS.MARKS. -/
def Fld.SEC_ATT_MARKS_MARKS : Fld := ⟨Reg.SEC_ATT_MARKS, 8, 0⟩
/-- SEC_CONFIRM.SECONDS. -/
def Fld.SEC_CONFIRM_SECONDS : Fld := ⟨Reg.SEC_CONFIRM, 9, 0⟩
/-- SEC_NONCE.NONCE. -/
def Fld.SEC_NONCE_NONCE : Fld := ⟨Reg.SEC_NONCE, 31, 0⟩
/-- SEC_DATA_LEN.BYTES. -/
def Fld.SEC_DATA_LEN_BYTES : Fld := ⟨Reg.SEC_DATA_LEN, 17, 0⟩
/-- SEC_CMD_STATUS.CODE. -/
def Fld.SEC_CMD_STATUS_CODE : Fld := ⟨Reg.SEC_CMD_STATUS, 23, 16⟩
/-- SEC_CMD_STATUS.RESULT. -/
def Fld.SEC_CMD_STATUS_RESULT : Fld := ⟨Reg.SEC_CMD_STATUS, 7, 0⟩
/-- SEC_ERR.KEY_REFUSED. -/
def Fld.SEC_ERR_KEY_REFUSED : Fld := ⟨Reg.SEC_ERR, 5, 5⟩
/-- SEC_ERR.TOKEN_BAD. -/
def Fld.SEC_ERR_TOKEN_BAD : Fld := ⟨Reg.SEC_ERR, 4, 4⟩
/-- SEC_ERR.COUNTER_SKIP. -/
def Fld.SEC_ERR_COUNTER_SKIP : Fld := ⟨Reg.SEC_ERR, 3, 3⟩
/-- SEC_ERR.CONFIRM_TIMEOUT. -/
def Fld.SEC_ERR_CONFIRM_TIMEOUT : Fld := ⟨Reg.SEC_ERR, 2, 2⟩
/-- SEC_ERR.FALLBACK. -/
def Fld.SEC_ERR_FALLBACK : Fld := ⟨Reg.SEC_ERR, 1, 1⟩
/-- SEC_ERR.FWU_FAILED. -/
def Fld.SEC_ERR_FWU_FAILED : Fld := ⟨Reg.SEC_ERR, 0, 0⟩
/-- SEC_MEAS.MEAS. -/
def Fld.SEC_MEAS_MEAS : Fld := ⟨Reg.SEC_MEAS, 31, 0⟩
/-- SEC_PKEY_HASH.HASH. -/
def Fld.SEC_PKEY_HASH_HASH : Fld := ⟨Reg.SEC_PKEY_HASH, 31, 0⟩
/-- SEC_DATA.DATA. -/
def Fld.SEC_DATA_DATA : Fld := ⟨Reg.SEC_DATA, 31, 0⟩
/-- DBG_STATUS.TRACE_TRIG. -/
def Fld.DBG_STATUS_TRACE_TRIG : Fld := ⟨Reg.DBG_STATUS, 8, 8⟩
/-- DBG_CORE_SEL.CORE. -/
def Fld.DBG_CORE_SEL_CORE : Fld := ⟨Reg.DBG_CORE_SEL, 11, 0⟩
/-- DBG_BP_IDX.INDEX. -/
def Fld.DBG_BP_IDX_INDEX : Fld := ⟨Reg.DBG_BP_IDX, 31, 0⟩
/-- DBG_BP_CFG.EN. -/
def Fld.DBG_BP_CFG_EN : Fld := ⟨Reg.DBG_BP_CFG, 31, 31⟩
/-- DBG_BP_CFG.MATCH. -/
def Fld.DBG_BP_CFG_MATCH : Fld := ⟨Reg.DBG_BP_CFG, 30, 29⟩
/-- DBG_BP_CFG.ACTION. -/
def Fld.DBG_BP_CFG_ACTION : Fld := ⟨Reg.DBG_BP_CFG, 28, 27⟩
/-- DBG_BP_CFG.TARGET. -/
def Fld.DBG_BP_CFG_TARGET : Fld := ⟨Reg.DBG_BP_CFG, 11, 0⟩
/-- DBG_WATCH_BASE_LO.BASE. -/
def Fld.DBG_WATCH_BASE_LO_BASE : Fld := ⟨Reg.DBG_WATCH_BASE_LO, 31, 0⟩
/-- DBG_WATCH_BASE_HI.BASE. -/
def Fld.DBG_WATCH_BASE_HI_BASE : Fld := ⟨Reg.DBG_WATCH_BASE_HI, 15, 0⟩
/-- DBG_WATCH_LIMIT_LO.LIMIT. -/
def Fld.DBG_WATCH_LIMIT_LO_LIMIT : Fld := ⟨Reg.DBG_WATCH_LIMIT_LO, 31, 0⟩
/-- DBG_WATCH_LIMIT_HI.LIMIT. -/
def Fld.DBG_WATCH_LIMIT_HI_LIMIT : Fld := ⟨Reg.DBG_WATCH_LIMIT_HI, 15, 0⟩
/-- DBG_WATCH_CFG.EN. -/
def Fld.DBG_WATCH_CFG_EN : Fld := ⟨Reg.DBG_WATCH_CFG, 31, 31⟩
/-- DBG_WATCH_CFG.ACTION. -/
def Fld.DBG_WATCH_CFG_ACTION : Fld := ⟨Reg.DBG_WATCH_CFG, 4, 2⟩
/-- DBG_WATCH_CFG.TYPE. -/
def Fld.DBG_WATCH_CFG_TYPE : Fld := ⟨Reg.DBG_WATCH_CFG, 1, 0⟩
/-- DBG_WATCH_HITS.COUNT. -/
def Fld.DBG_WATCH_HITS_COUNT : Fld := ⟨Reg.DBG_WATCH_HITS, 31, 0⟩
/-- DBG_MEM_ADDR_LO.ADDR. -/
def Fld.DBG_MEM_ADDR_LO_ADDR : Fld := ⟨Reg.DBG_MEM_ADDR_LO, 31, 0⟩
/-- DBG_MEM_ADDR_HI.ADDR. -/
def Fld.DBG_MEM_ADDR_HI_ADDR : Fld := ⟨Reg.DBG_MEM_ADDR_HI, 15, 0⟩
/-- DBG_MEM_CTRL.SPACE. -/
def Fld.DBG_MEM_CTRL_SPACE : Fld := ⟨Reg.DBG_MEM_CTRL, 29, 28⟩
/-- DBG_MEM_CTRL.STACK. -/
def Fld.DBG_MEM_CTRL_STACK : Fld := ⟨Reg.DBG_MEM_CTRL, 27, 24⟩
/-- DBG_MEM_CTRL.CORE. -/
def Fld.DBG_MEM_CTRL_CORE : Fld := ⟨Reg.DBG_MEM_CTRL, 11, 0⟩
/-- DBG_MEM_STATUS.RESULT. -/
def Fld.DBG_MEM_STATUS_RESULT : Fld := ⟨Reg.DBG_MEM_STATUS, 2, 0⟩
/-- DBG_MEM_DATA.DATA. -/
def Fld.DBG_MEM_DATA_DATA : Fld := ⟨Reg.DBG_MEM_DATA, 31, 0⟩
/-- DBG_FRZ_TICK_LO.TICK. -/
def Fld.DBG_FRZ_TICK_LO_TICK : Fld := ⟨Reg.DBG_FRZ_TICK_LO, 31, 0⟩
/-- DBG_FRZ_TICK_HI.TICK. -/
def Fld.DBG_FRZ_TICK_HI_TICK : Fld := ⟨Reg.DBG_FRZ_TICK_HI, 15, 0⟩
/-- DBG_FRZ_CYCLE.CYCLE. -/
def Fld.DBG_FRZ_CYCLE_CYCLE : Fld := ⟨Reg.DBG_FRZ_CYCLE, 15, 0⟩
/-- DBG_RO_SEL.DIE. -/
def Fld.DBG_RO_SEL_DIE : Fld := ⟨Reg.DBG_RO_SEL, 5, 0⟩
/-- DBG_TRACE_CTRL.SOURCES. -/
def Fld.DBG_TRACE_CTRL_SOURCES : Fld := ⟨Reg.DBG_TRACE_CTRL, 27, 16⟩
/-- DBG_TRACE_CTRL.STABLE. -/
def Fld.DBG_TRACE_CTRL_STABLE : Fld := ⟨Reg.DBG_TRACE_CTRL, 15, 8⟩
/-- DBG_TRACE_CTRL.MODE. -/
def Fld.DBG_TRACE_CTRL_MODE : Fld := ⟨Reg.DBG_TRACE_CTRL, 2, 2⟩
/-- DBG_TRACE_TRIG.EVENT. -/
def Fld.DBG_TRACE_TRIG_EVENT : Fld := ⟨Reg.DBG_TRACE_TRIG, 31, 16⟩
/-- DBG_TRACE_TRIG.POST. -/
def Fld.DBG_TRACE_TRIG_POST : Fld := ⟨Reg.DBG_TRACE_TRIG, 15, 0⟩
/-- DBG_TRACE_PTR.WRAPPED. -/
def Fld.DBG_TRACE_PTR_WRAPPED : Fld := ⟨Reg.DBG_TRACE_PTR, 31, 31⟩
/-- DBG_TRACE_PTR.NEXT. -/
def Fld.DBG_TRACE_PTR_NEXT : Fld := ⟨Reg.DBG_TRACE_PTR, 18, 0⟩
/-- DBG_ERR.HALT. -/
def Fld.DBG_ERR_HALT : Fld := ⟨Reg.DBG_ERR, 3, 3⟩
/-- DBG_ERR.MEM. -/
def Fld.DBG_ERR_MEM : Fld := ⟨Reg.DBG_ERR, 2, 2⟩
/-- DBG_ERR.EXTEST. -/
def Fld.DBG_ERR_EXTEST : Fld := ⟨Reg.DBG_ERR, 1, 1⟩
/-- DBG_ERR.LOCKED. -/
def Fld.DBG_ERR_LOCKED : Fld := ⟨Reg.DBG_ERR, 0, 0⟩
/-- CORE_KERNEL.INDEX. -/
def Fld.CORE_KERNEL_INDEX : Fld := ⟨Reg.CORE_KERNEL, 31, 0⟩
/-- CORE_VFLAGS.IDX. -/
def Fld.CORE_VFLAGS_IDX : Fld := ⟨Reg.CORE_VFLAGS, 4, 4⟩
/-- CORE_MSAT.COUNT. -/
def Fld.CORE_MSAT_COUNT : Fld := ⟨Reg.CORE_MSAT, 31, 0⟩
/-- CORE_VSAT.COUNT. -/
def Fld.CORE_VSAT_COUNT : Fld := ⟨Reg.CORE_VSAT, 31, 0⟩
/-- CORE_ECC.UE. -/
def Fld.CORE_ECC_UE : Fld := ⟨Reg.CORE_ECC, 23, 16⟩
/-- CORE_ECC.CE. -/
def Fld.CORE_ECC_CE : Fld := ⟨Reg.CORE_ECC, 15, 0⟩
/-- CORE_FENCE.BIST. -/
def Fld.CORE_FENCE_BIST : Fld := ⟨Reg.CORE_FENCE, 5, 4⟩
/-- CORE_FENCE.CAUSE. -/
def Fld.CORE_FENCE_CAUSE : Fld := ⟨Reg.CORE_FENCE, 3, 1⟩
/-- CORE_FENCE.FENCED. -/
def Fld.CORE_FENCE_FENCED : Fld := ⟨Reg.CORE_FENCE, 0, 0⟩
/-- CORE_WDOG.TICKS. -/
def Fld.CORE_WDOG_TICKS : Fld := ⟨Reg.CORE_WDOG, 7, 0⟩

/-- The register that holds BAR0 offset `off`, with its two instance numbers (R9: none at a hole). -/
def Reg.at? (off : Nat) : Option (RegSpec × Nat × Nat) :=
  (Reg.table.find? (fun r => r.holds off)).map (fun r => (r, r.index1 off, r.index2 off))

end Sys2Proof.Machine
end

