-- ==== Sys2Proof/Machine/SecTypes.lean ====
section
/-! DEFINITION. The state of the security engine: boot slots and images, keys, the measurement log, the update session. -/

namespace Sys2Proof.Machine

/-- Marks of a boot slot (16_security_and_update.md R395). -/
inductive SlotMark where
  | confirmed | trial | tried | invalid
deriving DecidableEq, Repr

/-- An installed or received component image (R411, Table 16-6): versions, SVN, compatibility ranges by component, hash of
the plaintext, the plaintext. -/
structure FwImage where
  version : Nat
  bundle : Nat
  svn : Nat
  compat : List (Nat × Nat)
  hash : List Byte
  plain : List Byte
deriving DecidableEq, Repr

/-- Code of a path (SEC_FWU_STATUS.PATH). -/
def pathCode : Path → Nat
  | .bar0 => 0 | .vdm => 1 | .sideband => 2

/-- Stages of an update session (SEC_FWU_STATUS.STAGE). -/
inductive FwuStage where
  | opened | header | blocks | ended
deriving DecidableEq, Repr

/-- The update session (R414 to R418): path, stage, current component, its header and signature, its block hash list, the
blocks' hashes and plaintext so far, images finished. -/
structure FwuSession where
  path : Path
  stage : FwuStage
  comp : Nat
  header : List Byte
  list : List Byte
  hashes : List Byte
  plain : List Byte
  blocks : Nat
  images : Kv FwImage
  checks : List (List Byte × List Byte × List Byte)
deriving DecidableEq, Repr

/-- An entry of the measurement log (R397). -/
structure MeasEntry where
  reg : Nat
  kind : Nat
  tick : Nat
  digest : List Byte
deriving DecidableEq, Repr

/-- The security engine (R391 to R422): marks of boot slots A and B, images by slot × 8 + component, the counter record's
OPEN flag, the measurement log, key slots and those accepted for the next boundary, the ML-KEM pair's serial number, draws
made from the DRBG, whether VENDOR cleared both, enrolled plate keys, the debug unlock (0 none, 1 OWNER, 2 VENDOR), the
session, ROM recovery mode, the booted slot's self-tests passed, a proof OK since boot, the trial window open, whether ATT_KEY_LOW was
raised, the policy record last accepted (none on a new device), whether the unlock's DURATION ends it, and the boot slot
confirmed last, which boots where both are CONFIRMED. -/
structure SecUnit where
  markA : SlotMark
  markB : SlotMark
  images : Kv FwImage
  counterOpen : Bool
  log : List MeasEntry
  keys : Kv (List Byte)
  keysDue : Kv (List Byte)
  kem : Nat
  drawn : Nat
  cleared : Bool
  plateKeys : Kv (List Byte)
  unlock : Nat
  session : Option FwuSession
  recovery : Bool
  testsOk : Bool
  proofOk : Bool
  window : Bool
  keyLowRaised : Bool
  policyRec : List Byte
  unlockTimed : Bool
  prefer : Nat
deriving DecidableEq, Repr

/-- The image a new device carries for each component: version, bundle and SVN 0, compatible with every version, an empty
plaintext (DESIGN CHOICE: the spec names no installed firmware). -/
def FwImage.factory : FwImage :=
  ⟨0, 0, 0, [(0, 0xFFFFFFFF), (0, 0xFFFFFFFF), (0, 0xFFFFFFFF), (0, 0xFFFFFFFF), (0, 0xFFFFFFFF)], [], []⟩

/-- The security engine of a new device: slot A CONFIRMED, slot B INVALID (DESIGN CHOICE), no keys. -/
def SecUnit.reset : SecUnit :=
  { markA := .confirmed, markB := .invalid,
    images := [(0, .factory), (1, .factory), (2, .factory), (3, .factory), (4, .factory)],
    counterOpen := false, log := [], keys := [], keysDue := [], kem := 0, drawn := 0, cleared := false, plateKeys := [],
    unlock := 0, session := none, recovery := false, testsOk := false, proofOk := false, window := false,
    keyLowRaised := false, policyRec := [], unlockTimed := false, prefer := 0 }

end Sys2Proof.Machine
end

