-- ==== Sys2Proof/Machine/State.lean ====
section
/-! DEFINITION. The whole state of the block: the module, the event unit's output side, and the queue of commands that wait;
the state right after reset; why a command may stop. -/

namespace Sys2Proof.Machine

/-- The module: every unit but the output side of the event unit. `variant` is the fuse of R2 (true: SLX-4010-C); `evIn`
holds the event records raised and not yet taken by the event unit, in the order of 20_events.md R488; `fresh` is the
model's own counter for free values. -/
structure Mod where
  variant : Bool
  regs : RegFile
  evIn : List EvRec
  host : HostUnit
  pwr : PwrUnit
  tick : TickUnit
  plt : PlateUnit
  sched : Sched
  cores : Kv CoreRun
  step : StepUnit
  mem : MemUnit
  pool : PoolUnit
  pad : PadUnit
  stm : StmUnit
  groom : GroomUnit
  coll : CollUnit
  chk : ChkUnit
  fab : FabUnit
  sec : SecUnit
  dbg : DbgUnit
  fresh : Nat
deriving DecidableEq, Repr

/-- The state: the commands that wait, first in first out; the event unit's output side (20_events.md R488 to R490); the
module. -/
structure State where
  pending : List Instr
  evq : EvtUnit
  m : Mod
deriving DecidableEq, Repr

/-- Why a command faults. No command of this block does: an access the spec gives no effect completes without effect
(R9, R247), and a command out of its place changes nothing. -/
inductive Fault where
  /-- Raised by no command: the spec names no fault that stops the block. Safe. -/
  | none
deriving DecidableEq, Repr

/-- Why a command is refused. -/
inductive Refusal where
  /-- Raised by the dispatcher for a command whose meaning is not written. Safe: nothing can be proved of what follows. -/
  | notModelled (mnemonic : String)
deriving DecidableEq, Repr

/-- The event unit's output side with nothing in it. -/
def EvtUnit.empty : EvtUnit := ⟨0, [], [], [], 0⟩

/-- The tick master before the tick starts (02_plate_and_tick.md R57; 17_power_reset.md Table 17-5). -/
def TickUnit.reset : TickUnit := ⟨false, 0, 0, 0, none, 0, 0, 0, false, false, false, none, [], [], [], []⟩

/-- The step unit with no step (08_step_commit.md Table 08-1 IDLE). -/
def StepUnit.reset : StepUnit :=
  { phase := .idle, start := 0, attempt := 0, ticks := 0, waitTicks := 0, cause := none, own := none, children := [], up := none,
    firstSumsq := none, verdict := none, actTick := 0, armed := none, szFresh := false, armTick := none, clip := 0x3F800000,
    consts := [], hist := [], passesDone := [], passesRun := [], opsDone := [], residRun := [], defRun := [], ledger := [],
    draining := false, events := [], defLost := [], drainStep := none }

/-- The host port before the link trains; BAR2 at its smallest size (DESIGN CHOICE: the spec gives no size at reset) and
the straps pulled down (19_package_and_pins.md R477). -/
def HostUnit.reset : HostUnit := ⟨false, 30, false, false, [], [], [], [], ⟨none, false⟩, [], none, 0x48, [], none, false, []⟩

/-- Power right after a cold reset has begun: no rail on, nothing released. -/
def PwrUnit.reset : PwrUnit :=
  ⟨false, false, false, false, false, .idle, .none, 0, 0, false, false, 0, [], 0, false, [], false, [], 0, false⟩

/-- The fabric after a cold reset: every port DOWN (FAB_STATUS.STATE resets to 1). -/
def FabUnit.reset : FabUnit := ⟨[], [], [], [], [], 0, false, false, [], []⟩

/-- The debug module after a cold reset. -/
def DbgUnit.reset : DbgUnit := ⟨false, false, false, false, false, false, [], 0, none, [], none, false, false, 0x01⟩

/-- The module right after a cold reset. -/
def Mod.reset : Mod :=
  { variant := false, regs := .empty, evIn := [], host := .reset, pwr := .reset, tick := .reset,
    plt := ⟨.empty, .empty, none, none, [], [], []⟩, sched := ⟨[], [], [], []⟩, cores := [], step := .reset,
    mem := ⟨.fresh .hbm, .fresh .loft, .fresh .sram, .fresh .acc, []⟩, pool := ⟨[], [], [], []⟩, pad := ⟨[], [], 0, 0⟩,
    stm := ⟨[], []⟩, groom := ⟨[], [], []⟩, coll := ⟨[], [], [], [], false⟩, chk := ⟨[], []⟩, fab := .reset,
    sec := .reset, dbg := .reset, fresh := 0 }

/-- The machine right after reset: a cold reset has begun and POWER_APPLIED has not yet run the start-up. -/
def State.reset : State := { pending := [], evq := .empty, m := .reset }

/-- Apply a change of the module. -/
def State.on (s : State) (f : Mod → Mod) : State := { s with m := f s.m }

end Sys2Proof.Machine
end

