-- ==== Sys2Proof/Machine/Ops.lean ====
section
/-! DEFINITION. The operations every family shares: fields of registers, raising events, faulting a step, signals, the
active plate, where an address lies, reading and writing device memory and core SRAM with poison, MSI-X. -/

namespace Sys2Proof.Machine

/-! ### Register fields -/

/-- The value of a field. -/
def Mod.fget (m : Mod) (f : Fld) (i : Nat := 0) (j : Nat := 0) : Nat := m.regs.get f i j

/-- Set a field. -/
def Mod.fset (m : Mod) (f : Fld) (v : Nat) (i : Nat := 0) (j : Nat := 0) : Mod := { m with regs := m.regs.set f i j v }

/-- The largest value of a field. -/
def Fld.max (f : Fld) : Nat := 2 ^ (f.hi + 1 - f.lo) - 1

/-- Add to a field that saturates. -/
def Mod.fsat (m : Mod) (f : Fld) (n : Nat := 1) (i : Nat := 0) (j : Nat := 0) : Mod :=
  m.fset f (min (m.fget f i j + n) f.max) i j

/-- Add to a field that wraps. -/
def Mod.fcount (m : Mod) (f : Fld) (n : Nat := 1) (i : Nat := 0) (j : Nat := 0) : Mod := m.fset f (m.fget f i j + n) i j

/-- Set bits of a field that accumulates flags. -/
def Mod.forBits (m : Mod) (f : Fld) (v : Nat) (i : Nat := 0) (j : Nat := 0) : Mod := m.fset f (m.fget f i j ||| v) i j

/-- The value of a 64-bit pair (R14). -/
def Mod.get64 (m : Mod) (lo hi : Fld) (i : Nat := 0) : Nat := m.fget lo i + 2 ^ 32 * m.fget hi i

/-- Set a 64-bit pair. -/
def Mod.set64 (m : Mod) (lo hi : Fld) (v : Nat) (i : Nat := 0) : Mod := (m.fset lo v i).fset hi (v / 2 ^ 32) i

/-! ### Time -/

/-- Core cycles in a tick of the period in force (02_plate_and_tick.md R55). -/
def Mod.tickLen (m : Mod) : Nat := (m.fget Fld.TCK_PERIOD_PERIOD_US * 700 + m.tick.trim).toNat

/-- Core cycles of the boundary guard (R55). -/
def guardCycles : Nat := 280

/-- Is the present moment in the boundary guard? -/
def Mod.inGuard (m : Mod) : Bool := decide (m.tickLen ≤ m.tick.cycle + guardCycles)

/-- Does the present moment lie at a tick boundary? -/
def Mod.atBoundary (m : Mod) : Bool := m.tick.running && m.tick.cycle == 0

/-! ### Which part of the block answers -/

/-- May the units outside the management die act? They do in ACTIVE and IDLE, once READY, while not frozen
and not in ROM recovery
mode (17_power_reset.md Table 17-6, R442; 18_debug.md R462; 16_security_and_update.md R422). -/
def Mod.running (m : Mod) : Bool :=
  m.pwr.ready && !m.dbg.stopped && !m.sec.recovery && (m.pwr.state == .active || m.pwr.state == .idle)

/-- Is the management die up: rails on, not in SLEEP's or OFF's depth, and PERST# not holding a reset? -/
def Mod.mgUp (m : Mod) : Bool := m.pwr.powered && m.pwr.state != .off

/-- Does the BAR0 block that holds offset `off` answer (14_host_interface.md R367; 17_power_reset.md R442; 18_debug.md R463;
16_security_and_update.md R422)? -/
def Mod.answers (m : Mod) (off : Nat) : Bool :=
  m.mgUp && !m.pwr.perst && m.pwr.state != .sleep
    && (m.pwr.ready || off / 0x100000 == 0x10)
    && (!m.dbg.stopped || off < 0x300000 || (decide (0xF00000 ≤ off) && decide (off < 0x1300000)))
    && (!m.sec.recovery || off / 0x100000 == 0x11 || off == 0)

/-! ### Events -/

/-- Block number of an event code (20_events.md R491). -/
def EvRec.block (r : EvRec) : Nat := r.code / 256

/-- Does `a` come strictly after `b` in the order of R488? -/
def EvRec.after (a b : EvRec) : Bool :=
  if a.tick ≠ b.tick then decide (b.tick < a.tick)
  else if a.cycle ≠ b.cycle then decide (b.cycle < a.cycle)
  else if a.block ≠ b.block then decide (b.block < a.block)
  else decide (b.source < a.source)

/-- Insert a record in the order of R488, behind those of equal keys. -/
def evInsert (r : EvRec) : List EvRec → List EvRec
  | [] => [r]
  | x :: xs => if x.after r then r :: x :: xs else x :: evInsert r xs

/-- Raise an event of a class settled now (R487). -/
def Mod.raise (m : Mod) (cls : EvClass) (code source : Nat) (d0 : Nat := 0) (d1 : Nat := 0) (d2 : Nat := 0) : Mod :=
  let r : EvRec :=
    ⟨m.tick.count, m.tick.cycle, code, cls, false, source % 2 ^ 16, d0 % 2 ^ 32, d1 % 2 ^ 32, d2 % 2 ^ 32, 0⟩
  { m with evIn := evInsert r m.evIn }

/-- Is a step in progress whose verdict has not yet been formed on the module (R487)? -/
def Mod.stepOpen (m : Mod) : Bool :=
  (m.step.phase == .run || m.step.phase == .await || m.step.phase == .replay) && m.step.verdict.isNone

/-- This module's ID (12_fabric_ports.md FAB_ID). -/
def Mod.self (m : Mod) : Nat := m.fget Fld.FAB_ID_MODULE

/-- A local cause of FAULT (08_step_commit.md R188): the first one is kept with the module at which it arose. -/
def Mod.fault (m : Mod) (code : Nat) : Mod :=
  { m with step := { m.step with cause := m.step.cause <|> some (code, m.self) } }

/-- Raise an event listed with class STEP and another class: STEP, faulting the step, where the cause belongs to an open
step; else the other class (R487). -/
def Mod.raiseDual (m : Mod) (belongs : Bool) (other : EvClass) (code source : Nat) (d0 : Nat := 0) (d1 : Nat := 0)
    (d2 : Nat := 0) : Mod :=
  if belongs && m.stepOpen then (m.raise .step code source d0 d1 d2).fault code else m.raise other code source d0 d1 d2

/-- Raise an event listed with class STEP alone: CONTAINED with no open step (R487). -/
def Mod.raiseStep (m : Mod) (code source : Nat) (d0 : Nat := 0) (d1 : Nat := 0) (d2 : Nat := 0) : Mod :=
  m.raiseDual true .contained code source d0 d1 d2

/-- Low 32 bits. -/
def lo32 (n : Nat) : Nat := n % 2 ^ 32

/-- Bits 63 to 32. -/
def hi32 (n : Nat) : Nat := n / 2 ^ 32 % 2 ^ 32

/-! ### MSI-X -/

/-- Record something sent to the outside. -/
def Mod.emit (m : Mod) (o : Out) : Mod := { m with host := { m.host with out := m.host.out ++ [o] } }

/-- Signal an MSI-X vector (14_host_interface.md R377): the message is posted, or its pending bit set while it is masked;
nothing while MSI-X is disabled. -/
def Mod.msix (m : Mod) (v : Nat) : Mod :=
  let e := kvGetD m.host.entries v .reset
  if !m.host.msixEnable then m
  else if m.host.funcMask || e.mask then { m with host := { m.host with pba := setAdd m.host.pba v } }
  else m.emit (.msix v e.addr e.data)

/-! ### The active plate, barriers and signals -/

/-- A slot of the plate unit. -/
def PlateUnit.slot (p : PlateUnit) (i : Nat) : Slot := if i = 0 then p.slot0 else p.slot1

/-- Replace a slot. -/
def PlateUnit.setSlot (p : PlateUnit) (i : Nat) (x : Slot) : PlateUnit :=
  if i = 0 then { p with slot0 := x } else { p with slot1 := x }

/-- The active plate (R50). -/
def Mod.plate? (m : Mod) : Option Plate := m.plt.active.bind (fun i => (m.plt.slot i).plate)

/-- Is a plate active? -/
def Mod.plateActive (m : Mod) : Bool := m.plt.active.isSome

/-- Regions of the active plate. -/
def Mod.regions (m : Mod) : List Region := (m.plate?.map (·.regions)).getD []

/-- Is a step of the active plate in progress (PLT_STATUS.STEP_BUSY, 08_step_commit.md R187)? -/
def Mod.stepBusy (m : Mod) : Bool := m.step.phase != .idle

/-- The expected count of a barrier; none where the plate does not declare it (02_plate_and_tick.md R69). -/
def Mod.barrierExpect (m : Mod) (b : Nat) : Option Nat := m.plate?.bind (fun p => kvGet? p.barriers b)

/-- Is the barrier complete in the current step (R69)? -/
def Mod.barrierDone (m : Mod) (b : Nat) : Bool :=
  match m.barrierExpect b with
  | some n => decide (n ≤ kvGetD m.sched.barriers b 0)
  | none => false

/-- Is the barrier complete, or is none named? -/
def Mod.waitDone (m : Mod) (b : Nat) : Bool := b == 0xFFFF || m.barrierDone b

/-- Put a signal to a barrier in flight (R69); 0xFFFF names none. -/
def Mod.signal (m : Mod) (b : Nat) : Mod :=
  if b = 0xFFFF then m else { m with sched := { m.sched with sigs := m.sched.sigs ++ [b] } }

/-- The tensor record of an ID. -/
def Mod.tensor? (m : Mod) (t : Nat) : Option TensorRec := m.plate?.bind (fun p => p.tensors.find? (fun r => r.id == t))

/-- A core's state. -/
def Mod.core (m : Mod) (c : Nat) : CoreRun := kvGetD m.cores c .rest

/-- Replace a core's state. -/
def Mod.setCore (m : Mod) (c : Nat) (x : CoreRun) : Mod := { m with cores := kvSet m.cores c x }

/-- The stable of the active plate that a core belongs to. -/
def Mod.stableOf (m : Mod) (c : Nat) : Option StableRec :=
  m.plate?.bind (fun p => p.stables.find? (fun s => s.cores.contains c))

/-- The rank of a core: its place among the cores of its stable, ascending (03_cores.md R80). -/
def StableRec.rank (s : StableRec) (c : Nat) : Nat := (s.cores.takeWhile (fun x => x != c)).length

/-! ### Where an address lies -/

/-- Bytes of HBM (Table 10-1). -/
def hbmSize : Nat := 0x90_0000_0000

/-- Bytes of one stack (R248). -/
def stackSize : Nat := 0xC_0000_0000

/-- Bytes of the space one CXL port serves in SEPARATE mode (R263). -/
def loftPortSize : Nat := 0x0800_0000_0000

/-- Bytes of one core's SRAM (03_cores.md R74). -/
def sramSize : Nat := 0xC0000

/-- A place in memory: an HBM byte by its stack-linear address, a loft byte by port × 8 TiB + port-local address, or a
reserved address (R247). -/
inductive Loc where
  | hbm (k : Nat)
  | loft (k : Nat)
  | reserved
deriving DecidableEq, Repr

/-- Bytes of device address space a region takes: twice its length where it is banked (R257). -/
def Region.extent (r : Region) : Nat := if r.banked then 2 * r.length else r.length

/-- Does the region hold device address `a`? -/
def Region.holds (r : Region) (a : Nat) : Bool := decide (r.base ≤ a) && decide (a < r.base + r.extent)

/-- The region of the active plate that holds device address `a`. -/
def Mod.region? (m : Mod) (a : Nat) : Option Region := m.regions.find? (fun r => r.holds a)

/-- SEL of a region (R257). -/
def Mod.sel (m : Mod) (r : Region) : Bool := kvGetD m.plt.sel r.id false

/-- The stack-linear address of device address `a` in HBM region `r` with SEL `sel` (R256). -/
def hbmMap (r : Region) (sel : Bool) (a : Nat) : Nat :=
  let v := decide (r.base + r.length ≤ a)
  let o := a - r.base - (if v then r.length else 0)
  let n := r.onStacks.length
  let g := 2 ^ r.granule
  let c := o / g
  let bank := if v != sel then r.length / n else 0
  r.onStacks.getD (c % n) 0 * stackSize + r.phys + bank + c / n * g + o % g

/-- The physical loft address of device address `a` in banked loft region `r` (R257). -/
def loftMap (r : Region) (sel : Bool) (a : Nat) : Nat :=
  let v := decide (r.base + r.length ≤ a)
  let o := a - r.base - (if v then r.length else 0)
  r.base + (if v != sel then r.length else 0) + o

/-- Ports of LFT_CFG.SET, ascending (R263). -/
def Mod.loftSet (m : Mod) : List Nat := (List.range 4).filter (fun c => (m.fget Fld.LFT_CFG_SET).testBit c)

/-- Capacity a port serves; 0 with no expander or a refused one (R263). -/
def Mod.loftCap (m : Mod) (c : Nat) : Nat :=
  let p := kvGetD m.mem.loftPorts c .none
  if p.refused then 0 else p.capacity

/-- The port and port-local address that serve a physical loft address under the loft mode in force (R263). -/
def Mod.loftServe (m : Mod) (a : Nat) : Option (Nat × Nat) :=
  let o := a - loftBase
  if m.fget Fld.LFT_CFG_MODE = 0 then
    let c := o / loftPortSize
    let l := o % loftPortSize
    if c < 4 && decide (l < m.loftCap c) then some (c, l) else none
  else
    let ports := m.loftSet
    let k := ports.length
    let least := (ports.map m.loftCap).foldl min loftPortSize
    if k = 0 ∨ k * least ≤ o then none
    else
      let blk := o / 4096
      some (ports.getD (blk % k) 0, blk / k * 4096 + o % 4096)

/-- Where a physical loft address lies. -/
def Mod.loftLoc (m : Mod) (a : Nat) : Loc :=
  match m.loftServe a with
  | some (c, l) => .loft (c * loftPortSize + l)
  | none => .reserved

/-- Where device address `a` lies (R247, R248, R256, R257, R263). -/
def Mod.locate (m : Mod) (a : Nat) : Loc :=
  if a < hbmSize then
    match m.region? a with
    | some r => .hbm (hbmMap r (m.sel r) a)
    | none => .hbm a
  else if loftBase ≤ a ∧ a < 0x3000_0000_0000 then
    match m.region? a with
    | some r => if r.banked then m.loftLoc (loftMap r (m.sel r) a) else m.loftLoc a
    | none => m.loftLoc a
  else .reserved

/-- Do the two views of a banked region hold `a` in its live view? The address of the same byte in the shadow view. -/
def Mod.shadowOf (m : Mod) (a : Nat) : Option Nat :=
  match m.region? a with
  | some r => if r.banked && decide (a < r.base + r.length) then some (a + r.length) else none
  | none => none

/-! ### Device memory -/

/-- Does the stack that holds stack-linear address `k` answer (R253)? -/
def Mod.stackFailed (m : Mod) (k : Nat) : Bool := m.fget Fld.HBM_STACK_STATUS_STATE (k / stackSize) == 4

/-- Is every read of the port poisoned: viral (R265), or its link lost (R264)? -/
def Mod.loftBad (m : Mod) (c : Nat) : Bool :=
  m.fget Fld.LFT_PORT_STATUS_VIRAL c == 1 || (kvGetD m.mem.loftPorts c .none).lost

/-- The byte at a place, and whether its sector reads as poisoned; a reserved address reads as all ones (R247). -/
def Mod.byteAt (m : Mod) : Loc → Byte × Bool
  | .hbm k => (m.mem.hbm.get k, m.mem.hbm.poison.contains (k / 64) || m.stackFailed k)
  | .loft k => (m.mem.loft.get k, m.mem.loft.poison.contains (k / 64) || m.loftBad (k / loftPortSize))
  | .reserved => (0xFF, false)

/-- `n` bytes from device address `a`, each with its sector's poison. -/
def Mod.devRead (m : Mod) (a : Nat) : Nat → List (Byte × Bool)
  | 0 => []
  | n + 1 => m.byteAt (m.locate a) :: m.devRead (a + 1) n

/-- The bytes of a read. -/
def rdBytes (xs : List (Byte × Bool)) : List Byte := xs.map (·.1)

/-- Is any byte of a read poisoned? -/
def rdPoison (xs : List (Byte × Bool)) : Bool := xs.any (·.2)

/-- Has the link of the port that serves loft place `k` been lost (R264)? -/
def Mod.loftLost (m : Mod) (k : Nat) : Bool := (kvGetD m.mem.loftPorts (k / loftPortSize) .none).lost

/-- Is a write to a place discarded: of a FAILED stack (R253), of a lost port (R264), of a reserved address (R247)? -/
def Mod.discards (m : Mod) : Loc → Bool
  | .hbm k => m.stackFailed k
  | .loft k => m.loftLost k
  | .reserved => true

/-- Store one byte at a place whose writes are not discarded. -/
def Mod.putByte (m : Mod) (l : Loc) (v : Byte) : Mod :=
  if m.discards l then m
  else match l with
    | .hbm k => { m with mem := { m.mem with hbm := m.mem.hbm.set k v } }
    | .loft k => { m with mem := { m.mem with loft := m.mem.loft.set k v } }
    | .reserved => m

/-- Mark the sector of a place poisoned (R251), where writes to it are not discarded. -/
def Mod.markLoc (m : Mod) (l : Loc) : Mod :=
  if m.discards l then m
  else match l with
    | .hbm k => { m with mem := { m.mem with hbm := m.mem.hbm.mark (k / 64) } }
    | .loft k => { m with mem := { m.mem with loft := m.mem.loft.mark (k / 64) } }
    | .reserved => m

/-- Take the poison mark off the sector of a place, where writes to it are not discarded (R251, R253, R264). -/
def Mod.unmarkLoc (m : Mod) (l : Loc) : Mod :=
  if m.discards l then m
  else match l with
    | .hbm k => { m with mem := { m.mem with hbm := m.mem.hbm.unmark (k / 64) } }
    | .loft k => { m with mem := { m.mem with loft := m.mem.loft.unmark (k / 64) } }
    | .reserved => m

/-- Mark the sector of device address `a` poisoned. -/
def Mod.devMark (m : Mod) (a : Nat) : Mod := m.markLoc (m.locate a)

/-- Store the bytes present from address `a` on, at the places `loc` gives. -/
def Mod.putBytes (loc : Nat → Loc) (m : Mod) (a : Nat) : List (Option Byte) → Mod
  | [] => m
  | none :: bs => Mod.putBytes loc m (a + 1) bs
  | some b :: bs => Mod.putBytes loc (m.putByte (loc a) b) (a + 1) bs

/-- Sectors a write of `n` bytes at `a` covers wholly: their first addresses, given that every byte is present. -/
def fullSectors (a n : Nat) : List Nat :=
  let first := (a + 63) / 64
  let last := (a + n) / 64
  (List.range (last - first)).map (fun i => (first + i) * 64)

/-- Write at the places `loc` gives: bytes first, then the poison marks of sectors covered wholly come off (R251). -/
def Mod.writeAt (loc : Nat → Loc) (m : Mod) (a : Nat) (data : List (Option Byte)) : Mod :=
  let m1 := Mod.putBytes loc m a data
  (fullSectors a data.length).foldl (fun x s =>
    if ((data.drop (s - a)).take 64).all Option.isSome then x.unmarkLoc (loc s) else x) m1

/-- Write bytes at device address `a`. -/
def Mod.devWrite (m : Mod) (a : Nat) (data : List Byte) : Mod := Mod.writeAt m.locate m a (data.map some)

/-- Write bytes, those with the poison mark as 0xFF with their sectors marked (R252). -/
def Mod.devWriteP (m : Mod) (a : Nat) (data : List (Byte × Bool)) : Mod :=
  let m1 := m.devWrite a (data.map (fun x => if x.2 then 0xFF else x.1))
  (List.range data.length).foldl (fun x i => if (data.getD i (0, false)).2 then x.devMark (a + i) else x) m1

/-- Sectors that a write of `n` bytes at `a` covers only in part, which the controller reads to merge it (R251). -/
def partialRanges (a n : Nat) : List (Nat × Nat) :=
  if n = 0 then []
  else (if a % 64 = 0 then [] else [(a / 64 * 64, 64)]) ++ (if (a + n) % 64 = 0 then [] else [((a + n) / 64 * 64, 64)])

/-- A little-endian value of `n` bytes in device memory. -/
def Mod.devNat (m : Mod) (a n : Nat) : Nat := leNat (rdBytes (m.devRead a n))

/-- A corrected HBM error at stack-linear address `k` (R250): counted and raised. -/
def Mod.foundCe (m : Mod) (k : Nat) : Mod :=
  let st := k / stackSize
  let l := k % stackSize
  if m.stackFailed k then m else (m.fsat Fld.HBM_ECC_CE 1 st).raise .corrected 0x0901 st (lo32 l) (hi32 l)

/-- An HBM error not corrected at stack-linear address `k` (R251): the sector becomes poisoned; when it is first found so,
it is counted, its address recorded and HBM_UE raised. -/
def Mod.foundUe (m : Mod) (belongs : Bool) (k : Nat) : Mod :=
  let st := k / stackSize
  let l := k / 64 * 64 % stackSize
  if m.mem.hbm.poison.contains (k / 64) || m.stackFailed k then m
  else
    let m1 := (m.markLoc (.hbm k)).fsat Fld.HBM_ECC_UE 1 st
    let m2 := m1.set64 Fld.HBM_UE_ADDR_LO_ADDR Fld.HBM_UE_ADDR_HI_ADDR (k / 64 * 64) st
    m2.raiseDual belongs .contained 0x0902 st (lo32 l) (hi32 l) (m.fget Fld.GRM_STEP_STEP)

/-- The HBM errors a command meets in the device ranges it reads, each range an address and a length. -/
def Mod.eccDev (m : Mod) (belongs : Bool) (ranges : List (Nat × Nat)) (ecc : Ecc) : Mod :=
  let hit := fun a => ranges.any (fun r => decide (r.1 / 64 ≤ a / 64) && decide (a / 64 * 64 < r.1 + r.2))
  let m1 := (ecc.ce.filter hit).foldl (fun x a => match x.locate a with | .hbm k => x.foundCe k | _ => x) m
  (ecc.ue.filter hit).foldl (fun x a => match x.locate a with | .hbm k => x.foundUe belongs k | _ => x) m1

/-- The sectors that a range touches, each by its first address. -/
def sectorsOf (a n : Nat) : List Nat := if n = 0 then [] else (List.range ((a + n - 1) / 64 + 1 - a / 64)).map (fun i => (a / 64 + i) * 64)

/-- The port-local address of the first poisoned sector that port `c`, whose link is not lost, answers a read of ranges with. -/
def Mod.loftPoisonAt (m : Mod) (c : Nat) (ranges : List (Nat × Nat)) : Option Nat :=
  (ranges.flatMap (fun r => if loftBase ≤ r.1 then sectorsOf r.1 r.2 else [])).findSome? (fun a => match m.locate a with
    | .loft k => if k / loftPortSize == c && !m.loftLost k && (m.byteAt (.loft k)).2 then some (k % loftPortSize) else none
    | _ => none)

/-- Poisoned data responses to a read of ranges (R265): LOFT_POISON is raised once for each port the read reaches, with the first of
the sectors (DEDUCED, log 97). -/
def Mod.loftMet (m : Mod) (belongs : Bool) (ranges : List (Nat × Nat)) : Mod :=
  (List.range 4).foldl (fun (x : Mod) c => match x.loftPoisonAt c ranges with
    | some a => (x.fset Fld.LFT_PORT_ERR_POISON 1 c).raiseDual belongs .contained 0x0A03 c (lo32 a) (hi32 a)
    | none => x) m

/-- What a read of device ranges meets: HBM errors (R250, R251), poisoned loft data (R265). -/
def Mod.readDev (m : Mod) (belongs : Bool) (ranges : List (Nat × Nat)) (ecc : Ecc) : Mod :=
  (m.eccDev belongs ranges ecc).loftMet belongs ranges

/-- The merge reads of a write of `n` bytes at `a` (R251). -/
def Mod.mergeDev (m : Mod) (belongs : Bool) (a n : Nat) (ecc : Ecc) : Mod := m.eccDev belongs (partialRanges a n) ecc

/-- The code a step ends with that reads poison at a device address (R252, R265): HBM_UE's, LOFT_POISON's, or LOFT_LINK_LOST's
where the port's link is lost (DEDUCED, log 97). -/
def Mod.poisonCode (m : Mod) (a : Nat) : Nat :=
  match m.locate a with
  | .loft k => if m.loftLost k then 0x0A02 else 0x0A03
  | _ => 0x0902

/-- A read of device memory by a unit, after what the command meets: the module, the bytes and their poison. A
poisoned read that belongs to an open step faults the step (R252). -/
def Mod.unitRead (m : Mod) (belongs : Bool) (a n : Nat) (ecc : Ecc) : Mod × List (Byte × Bool) :=
  let m1 := m.readDev belongs [(a, n)] ecc
  let d := m1.devRead a n
  (if rdPoison d && belongs && m1.stepOpen then m1.fault (m1.poisonCode (a + (d.takeWhile (fun x => !x.2)).length)) else m1, d)

/-- CXL ports whose hold keeps a range of device addresses from completing now (R264). -/
def Mod.heldPort (m : Mod) (a n : Nat) : Option Nat :=
  let port := fun (x : Nat) => match m.locate x with
    | .loft k =>
      let c := k / loftPortSize
      if m.fget Fld.LFT_PORT_STATUS_STATE c ≠ 3 ∧ !(kvGetD m.mem.loftPorts c .none).lost then some c else none
    | _ => none
  if n = 0 then none
  else ((List.range ((a + n - 1) / 4096 + 1 - a / 4096)).filterMap (fun i => port (max a ((a / 4096 + i) * 4096)))).head?

/-! ### Core SRAM -/

/-- One byte of a core's SRAM with its word's poison (03_cores.md R97). -/
def Mod.sramByte (m : Mod) (c a : Nat) : Byte × Bool :=
  (m.mem.sram.get (c * sramSize + a), m.mem.sram.poison.contains ((c * sramSize + a) / 4))

/-- `n` bytes of a core's SRAM. -/
def Mod.sramRead (m : Mod) (c a : Nat) : Nat → List (Byte × Bool)
  | 0 => []
  | n + 1 => m.sramByte c a :: m.sramRead c (a + 1) n

/-- Store bytes of a core's SRAM; a write of a whole word takes its poison mark off (R97). -/
def Mod.sramWrite (m : Mod) (c a : Nat) (data : List Byte) : Mod :=
  { m with mem := { m.mem with sram := m.mem.sram.putWords (c * sramSize + a) data } }

/-- Store scattered bytes of a core's SRAM, address by address; words all four of whose bytes are stored lose their mark. -/
def Mod.sramPut (m : Mod) (c : Nat) (ws : List (Nat × Byte)) : Mod :=
  let b := c * sramSize
  let s1 := ws.foldl (fun (s : Memory) w => s.set (b + w.1) w.2) m.mem.sram
  let whole := fun (w : Nat) => (List.range 4).all (fun i => ws.any (fun x => b + x.1 == w * 4 + i))
  let s2 := s1.poison.foldl (fun (s : Memory) w => if whole w then s.unmark w else s) s1
  { m with mem := { m.mem with sram := s2 } }

/-- Apply a change of the module while the units outside the management die run. -/
def State.unit (s : State) (f : Mod → Mod) : State := s.on (fun m => if m.running then f m else m)

/-- Apply a change of the module through register offset `off`, where its block answers. -/
def State.reg (s : State) (off : Nat) (f : Mod → Mod) : State := s.on (fun m => if m.answers off then f m else m)

end Sys2Proof.Machine
end

