-- ==== Sys2Proof/Machine/Operands.lean ====
section
/-! DEFINITION. What a write does to a register by the access codes of its fields (00_scope.md R9 to R15): the operand forms
of this block's commands. -/

namespace Sys2Proof.Machine

/-- A W1C field of value `o` after a write of `x`, of which the unit that owns it set `h` in the same cycle (R11): a bit set so remains
set, and an increment made so is applied after the clear. -/
def w1cAfter (o x h : Nat) : Nat :=
  let own := min h o
  (o - own) - ((o - own) &&& x) + own

/-- The word with one field written by value `v`: `locked` while a plate is active (R10, R13, Table 00-4). A pending field
keeps its value (R12). `hw` holds what the register's unit set or counted in the cycle of the write (R11). -/
def FieldSpec.apply (f : FieldSpec) (locked : Bool) (old v : Nat) (hw : Nat := 0) : Nat :=
  let x := bitsOf v f.hi f.lo
  let o := bitsOf old f.hi f.lo
  match f.acc with
  | .rw => setBits old f.hi f.lo x
  | .w1c => setBits old f.hi f.lo (w1cAfter o x (bitsOf hw f.hi f.lo))
  | .w1s => setBits old f.hi f.lo (o ||| x)
  | .rwl => if locked then old else setBits old f.hi f.lo x
  | .ro | .wo | .rwp => old

/-- The word of a register after a write of `v`. -/
def RegSpec.apply (r : RegSpec) (locked : Bool) (old v : Nat) (hw : Nat := 0) : Nat :=
  r.fields.foldl (fun w f => f.apply locked w v hw) old

/-- Has the register a field of this access code? -/
def RegSpec.has (r : RegSpec) (a : Access) : Bool := r.fields.any (fun f => f.acc == a)

/-- Raise LOCKED_WRITE (R13) where the write meets a locked field. -/
def Mod.lockedWrite (m : Mod) (r : RegSpec) (off v : Nat) : Mod :=
  if m.plateActive && r.has .rwl then m.raise .corrected 0x0101 0 off v else m

/-- Write one register word by its fields' access codes, leaving pending fields to the next boundary. -/
def Mod.wordWrite (m : Mod) (r : RegSpec) (i j v : Nat) (hw : Nat := 0) : Mod :=
  let off := r.addr i j
  let m1 := m.lockedWrite r off v
  let m2 := { m1 with regs := m1.regs.write r i j (r.apply m1.plateActive (m1.regs.read r i j) v hw) }
  if r.has .rwp then { m2 with regs := { m2.regs with pend := kvSet m2.regs.pend off v } } else m2

/-- A 32-bit write at a register's offset (R14 for pairs): a _LO half is kept until its _HI half is written, which commits
both. A write to a half of a read-only pair has no effect, on the snapshot of its _HI half neither. -/
def Mod.regWrite (m : Mod) (off v : Nat) (hw : Nat := 0) : Mod :=
  match Reg.at? off with
  | none => m
  | some (r, i, j) =>
    match r.kind with
    | .plain => m.wordWrite r i j v hw
    | .lo => if r.has .ro then m else { m with regs := { m.regs with lo := kvSet m.regs.lo off v } }
    | .hi =>
      match Reg.at? (off - 4) with
      | some (l, li, lj) =>
        if l.has .ro then m else
        let low := kvGetD m.regs.lo (off - 4) (m.regs.read l li lj)
        let m2 := (m.wordWrite l li lj low).wordWrite r i j v
        { m2 with regs := { m2.regs with snap := kvDel m2.regs.snap off } }
      | none => m

/-- Is the access a naturally aligned one within BAR0 (R9)? -/
def bar0Aligned (off : Nat) : Bool := off % 4 == 0 && decide (off < 0x4000000)

/-- A write to the registers of a disabled port has no effect (R3). -/
def Mod.disabledReg (m : Mod) (off : Nat) : Bool :=
  m.variant && ((decide (0xC10000 ≤ off) && decide (off < 0xC40000)) || (decide (0xA00200 ≤ off) && decide (off < 0xA00400)))

/-- Apply the pending values due (R12): the fields with code RWP take the value written last before the boundary. -/
def Mod.applyDue (m : Mod) : Mod :=
  let m1 := m.regs.due.reverse.foldl (fun (x : Mod) e =>
    match Reg.at? e.1 with
    | some (r, i, j) =>
      let w := r.fields.foldl (fun w f => if f.acc == .rwp then setBits w f.hi f.lo (bitsOf e.2 f.hi f.lo) else w)
        (x.regs.read r i j)
      { x with regs := x.regs.write r i j w }
    | none => x) m
  { m1 with regs := { m1.regs with due := [] } }

/-- What a boundary does to the pending values of `old`, the registers being `rf` by then: they become due. -/
def RegFile.boundary (rf old : RegFile) : RegFile :=
  { rf with pend := [], due := old.pend.reverse.foldl (fun d e => kvSet d e.1 e.2) old.due }

/-- Which retention classes return to default at a reset: 0 activation, 1 function, 2 soft, 3 fundamental, 4 cold (R17;
17_power_reset.md R450). A volatile register that lists no level defaults at soft reset and beyond (DESIGN CHOICE). -/
def Retention.defaultsAt : Retention → Nat → Bool
  | .persistent, _ => false
  | .sticky, k => decide (4 ≤ k)
  | .plate, k => decide (2 ≤ k)
  | .vola, k => decide (2 ≤ k)
  | .volaFunction, k => decide (1 ≤ k)
  | .volaSoft, k => decide (2 ≤ k)
  | .volaFundamental, k => decide (3 ≤ k)
  | .volaActivation, _ => true

/-- The register at an offset defaults at a reset of kind `k`. -/
def offDefaults (k off : Nat) : Bool :=
  match Reg.at? off with
  | some (r, _, _) => r.ret.defaultsAt k
  | none => true

/-- Every register whose class says so returns to its default. -/
def RegFile.defaults (rf : RegFile) (k : Nat) : RegFile :=
  { store := kvKeep rf.store (fun off => !offDefaults k off), pend := kvKeep rf.pend (fun off => !offDefaults k off),
    due := kvKeep rf.due (fun off => !offDefaults k off), lo := kvKeep rf.lo (fun off => !offDefaults k off),
    snap := kvKeep rf.snap (fun off => !offDefaults k off) }

/-- Registers of one kind of instance return to their defaults: those of `rs` at instance `i`. -/
def RegFile.defaultInst (rf : RegFile) (rs : List RegSpec) (i : Nat) : RegFile :=
  rs.foldl (fun f r => (List.range r.n2).foldl (fun g j => g.write r i j r.resetWord) f) rf

end Sys2Proof.Machine
end

