-- ==== Sys2Proof/Machine/Trace.lean ====
section
/-! DEFINITION. The trace buffer (18_debug.md R466, Table 18-3): writing a record of a kind the sources enable, the trigger. -/

namespace Sys2Proof.Machine

/-- Records the trace buffer holds (R466). -/
def traceSize : Nat := 524288

/-- A trigger (R466): TRACE_TRIG is set, and the trace stops POST records later. -/
def Mod.traceTrigger (m : Mod) : Mod :=
  if m.dbg.traceSt = 1 ∧ m.dbg.post = none then
    let p := m.fget Fld.DBG_TRACE_TRIG_POST
    let m1 := m.fset Fld.DBG_STATUS_TRACE_TRIG 1
    { m1 with dbg := { m1.dbg with post := some p, traceSt := if p = 0 then 2 else 1 } }
  else m

/-- Write one trace record of a kind, when the trace runs and SOURCES enables the kind (R466). In mode STOP_FULL the trace
stops when the buffer is full. -/
def Mod.trace (m : Mod) (kind inst : Nat) (d0 : Nat := 0) (d1 : Nat := 0) (d2 : Nat := 0) (d3 : Nat := 0) : Mod :=
  if m.dbg.traceSt = 1 && (m.fget Fld.DBG_TRACE_CTRL_SOURCES).testBit (kind - 1) then
    let ix := m.fget Fld.DBG_TRACE_PTR_NEXT
    let r : TraceRec := ⟨m.tick.count, m.tick.cycle, kind, inst, lo32 d0, lo32 d1, lo32 d2, lo32 d3⟩
    let m1 := { m with dbg := { m.dbg with trace := kvSet m.dbg.trace ix r } }
    let m2 := m1.fset Fld.DBG_TRACE_PTR_NEXT ((ix + 1) % traceSize)
    let full := ix + 1 == traceSize
    let m3 := if full then m2.fset Fld.DBG_TRACE_PTR_WRAPPED 1 else m2
    let stop1 := full && m.fget Fld.DBG_TRACE_CTRL_MODE == 1
    let m4 := if stop1 then { m3 with dbg := { m3.dbg with traceSt := 2 } } else m3
    match m4.dbg.post with
    | some (n + 1) => { m4 with dbg := { m4.dbg with post := some n, traceSt := if n = 0 then 2 else m4.dbg.traceSt } }
    | _ => m4
  else m

/-- TRACE_START: the buffer is cleared and the trace runs (R466); under an unlock only (R451). -/
def Mod.traceStart (m : Mod) : Mod :=
  let m1 := { m with dbg := { m.dbg with trace := [], traceSt := 1, post := none } }
  ((m1.fset Fld.DBG_TRACE_PTR_NEXT 0).fset Fld.DBG_TRACE_PTR_WRAPPED 0).fset Fld.DBG_STATUS_TRACE_TRIG 0

/-- TRACE_STOP: the trace stops (R466). -/
def Mod.traceStop (m : Mod) : Mod := if m.dbg.traceSt = 1 then { m with dbg := { m.dbg with traceSt := 2 } } else m

/-- A write to a DBG register other than DBG_STATUS and DBG_ERR acts only under an unlock; without one it is discarded and
DBG_ERR.LOCKED set (R451). -/
def Mod.dbgGate (m : Mod) (f : Mod → Mod) : Mod := if m.sec.unlock = 0 then m.fset Fld.DBG_ERR_LOCKED 1 else f m

/-- TRACE_START (R466). -/
def execTraceStart (s : State) : Host.Outcome State Fault Refusal :=
  .next (s.reg Reg.DBG_TRACE_CTRL.base (fun m => m.dbgGate Mod.traceStart))

/-- TRACE_STOP (R466). -/
def execTraceStop (s : State) : Host.Outcome State Fault Refusal :=
  .next (s.reg Reg.DBG_TRACE_CTRL.base (fun m => m.dbgGate Mod.traceStop))

end Sys2Proof.Machine
end

