-- ==== Sys2Proof/Machine/DbgOps.lean ====
section
/-! DEFINITION. Halts of cores and of the device, and the yard's data watches (18_debug.md R455 to R459), as the units that are
halted or watched see them. -/

namespace Sys2Proof.Machine

/-- Do two address ranges (start, length) meet? -/
def rangesMeet (a n b k : Nat) : Bool := decide (a < b + k) && decide (b < a + n)

/-- Two reasons together (R458: a breakpoint and a halt on one core record both). -/
def HaltReason.join (a b : HaltReason) : HaltReason :=
  ⟨a.request || b.request, a.brk || b.brk, a.watch || b.watch, if a.brk then a.bp else b.bp⟩

/-- A core becomes halted, or is halted for one more reason. -/
def CoreRun.stop (x : CoreRun) (r : HaltReason) : CoreRun :=
  { x with halt := some (match x.halt with | some q => q.join r | none => r), haltReq := none }

/-- Code of a reason in DBG_CORE_INFO. -/
def HaltReason.code (r : HaltReason) : Nat := r.request.toNat + 2 * r.brk.toNat + 4 * r.watch.toNat

/-- HALT of one core (R455): at its next kernel boundary; at once where no kernel runs. -/
def Mod.haltCore (m : Mod) (r : HaltReason) (c : Nat) : Mod :=
  let x := m.core c
  if x.run.isNone then (m.setCore c (x.stop r)).trace 9 c r.code (m.fget Fld.CORE_KERNEL_INDEX c)
  else m.setCore c { x with haltReq := some (match x.haltReq with | some q => q.join r | none => r) }

/-- May a core be halted: in a stable, and not fenced (R455)? -/
def Mod.haltable (m : Mod) (c : Nat) : Bool := (m.stableOf c).isSome && m.fget Fld.CORE_FENCE_FENCED c == 0

/-- HALT of the cores of a list; one that is fenced or in no stable is not halted and sets DBG_ERR.HALT. -/
def Mod.haltCores (m : Mod) (r : HaltReason) (cs : List Nat) : Mod :=
  cs.foldl (fun x c => if x.haltable c then x.haltCore r c else x.fset Fld.DBG_ERR_HALT 1) m

/-- Cores of the stables of the active plate. -/
def Mod.stableCores (m : Mod) : List Nat := (m.plate?.map (fun p => p.stables.flatMap (·.cores))).getD []

/-- HALT of the device (R455): every core of a stable but the fenced ones, and the other units. -/
def Mod.haltDevice (m : Mod) (r : HaltReason) : Mod :=
  let m1 := m.haltCores r m.stableCores
  { m1 with dbg := { m1.dbg with devHalt := true } }

/-- Are the units other than cores stopped by a device halt (R455)? They run while a device STEP is being made (R457). -/
def Mod.unitsHalted (m : Mod) : Bool := m.dbg.devHalt && !(m.dbg.devStep && m.cores.any (fun e => e.2.stepOne))

/-- The accesses a watch selects (DBG_WATCH_CFG.TYPE): [0] reads, [1] writes. -/
def Mod.watchMatches (m : Mod) (w a n : Nat) (write : Bool) : Bool :=
  let base := m.get64 Fld.DBG_WATCH_BASE_LO_BASE Fld.DBG_WATCH_BASE_HI_BASE w
  let lim := m.get64 Fld.DBG_WATCH_LIMIT_LO_LIMIT Fld.DBG_WATCH_LIMIT_HI_LIMIT w
  m.fget Fld.DBG_WATCH_CFG_EN w == 1 && (m.fget Fld.DBG_WATCH_CFG_TYPE w).testBit (if write then 1 else 0)
    && decide (0 < n) && decide (base ≤ lim) && rangesMeet a n base (lim + 1 - base)

/-- What one watch does on a match (R459): counted; EVENT at most once per tick; HALT; TRIGGER. -/
def Mod.watchHit (m : Mod) (w a : Nat) (write : Bool) (src : Nat) : Mod :=
  let typ := if write then 2 else 1
  let act := m.fget Fld.DBG_WATCH_CFG_ACTION w
  let m1 := (m.fsat Fld.DBG_WATCH_HITS_COUNT 1 w).trace 8 w (lo32 a) (hi32 a) typ src
  let m2 := if act.testBit 0 && !m1.dbg.watchRaised.contains w then
      Mod.raise { m1 with dbg := { m1.dbg with watchRaised := setAdd m1.dbg.watchRaised w } } .corrected 0x1103 w (lo32 a) (hi32 a) typ
    else m1
  let m3 := if act.testBit 1 then m2.haltDevice ⟨false, false, true, 0⟩ else m2
  if act.testBit 2 then m3.traceTrigger else m3

/-- The sources of a yard access, for the trace's WATCH record (DESIGN CHOICE: the spec does not number them). -/
inductive YardSrc where
  | host | core | stream | reducer | check | fabric | pool | debug
deriving DecidableEq, Repr

/-- Number of a yard source. -/
def YardSrc.code : YardSrc → Nat
  | .host => 0 | .core => 1 | .stream => 2 | .reducer => 3 | .check => 4 | .fabric => 5 | .pool => 6 | .debug => 7

/-- An access of `n` bytes at device address `a` that the yard carries to an HBM or loft controller: every watch that matches
acts (R459). -/
def Mod.yard (m : Mod) (src : YardSrc) (a n : Nat) (write : Bool) : Mod :=
  (List.range 8).foldl (fun x w => if m.watchMatches w a n write then x.watchHit w a write src.code else x) m

end Sys2Proof.Machine
end

