-- ==== Sys2Proof/Machine/Events.lean ====
section
/-! DEFINITION. The event unit and the event ring (20_events.md R486 to R490; 14_host_interface.md R372 to R378): accepting
and dropping records, the ring, the log, MSI-X class vectors. -/

namespace Sys2Proof.Machine

/-- Code of EVENT_DROPPED. -/
def codeDropped : Nat := 0x0D04

/-- Code of a class (Table 20-1). -/
def EvClass.code : EvClass → Nat
  | .corrected => 0 | .contained => 1 | .step => 2 | .device => 3

/-- The 32 bytes of a record (Table 20-1). -/
def EvRec.bytes (r : EvRec) : List Byte :=
  leBytes 6 r.tick ++ leBytes 2 r.cycle ++ leBytes 2 r.code ++ leBytes 1 r.cls.code ++ leBytes 1 (if r.prior then 1 else 0)
    ++ leBytes 2 r.source ++ leBytes 2 0 ++ leBytes 4 r.d0 ++ leBytes 4 r.d1 ++ leBytes 4 r.d2 ++ leBytes 4 r.alive

/-- Records the log keeps (R490). -/
def logSize : Nat := 4096

/-- Records the persistent tail keeps (R490). -/
def tailSize : Nat := 32

/-- Records of a tick the event unit accepts (R489). -/
def acceptLimit : Nat := 256

/-- Places of the queue for records other than EVENT_DROPPED (R375). -/
def queuePlaces : Nat := 1023

/-- The last `n` of a list. -/
def lastN {α : Type} (n : Nat) (xs : List α) : List α := xs.drop (xs.length - n)

/-- Records in the queue other than EVENT_DROPPED. -/
def EvtUnit.others (e : EvtUnit) : Nat := (e.queue.filter (fun r => r.code != codeDropped)).length

/-- Does an EVENT_DROPPED wait in the queue? -/
def EvtUnit.dropWaits (e : EvtUnit) : Bool := e.queue.any (fun r => r.code == codeDropped)

/-- Write a record to the log at index `ix`, keeping the last 4,096, and to the tail when its class is DEVICE (R490); a PRIOR
record comes from the tail. -/
def EvtUnit.logIn (e : EvtUnit) (ix : Nat) (r : EvRec) : EvtUnit :=
  { e with log := lastN logSize (e.log ++ [(ix, r)]), tail := if r.cls = .device ∧ !r.prior then lastN tailSize (e.tail ++ [r]) else e.tail }

/-- Queue a record for the ring, or count a drop when the other 1,023 places are full (R375). -/
def EvtUnit.enqueue (e : EvtUnit) (r : EvRec) : EvtUnit :=
  if e.others < queuePlaces then { e with queue := e.queue ++ [r] } else { e with dropsSince := e.dropsSince + 1 }

/-- Count a record produced: ALIVE and the class count advance (R488). -/
def Mod.produced (m : Mod) (c : EvClass) : Mod :=
  (m.fcount Fld.EVT_ALIVE_NEXT).fsat Fld.EVT_CLASS_COUNT_COUNT 1 c.code

/-- Count a record dropped (R375, R489). -/
def Mod.countDrop (m : Mod) : Mod := m.fsat Fld.EVT_DROPPED_COUNT

/-- A record produced is counted, takes an index of the log, and the trace sees it and may be triggered by its code (R488, R490;
18_debug.md R466). -/
def Mod.recordIn (m : Mod) (r : EvRec) : Mod :=
  let m1 := (m.produced r.cls).fcount Fld.EVT_LOG_HEAD_INDEX
  let m2 := m1.trace 1 r.source (r.code + 2 ^ 16 * r.cls.code) r.d0 r.d1 r.d2
  let trig := m2.fget Fld.DBG_TRACE_TRIG_EVENT
  if trig ≠ 0 ∧ trig = r.code then m2.traceTrigger else m2

/-- Accept a record (R488 to R490): it takes its ALIVE, is logged, and goes towards the ring, except in ROM recovery mode
(16_security_and_update.md R422). -/
def State.accept (s : State) (r : EvRec) : State :=
  let r1 := { r with alive := s.m.fget Fld.EVT_ALIVE_NEXT }
  let m3 := s.m.recordIn r
  let e1 := s.evq.logIn (s.m.fget Fld.EVT_LOG_HEAD_INDEX) r1
  if s.m.sec.recovery then { s with evq := e1, m := m3 }
  else { s with evq := e1.enqueue r1, m := if e1.others < queuePlaces then m3 else m3.countDrop }

/-- Is the class one that R489 drops beyond the tick's limit? -/
def EvClass.droppable (c : EvClass) : Bool := c == .corrected || c == .contained

/-- Take the first record of a droppable class out of a list. -/
def takeDroppable : List EvRec → Option (EvRec × List EvRec)
  | [] => none
  | r :: rs =>
    if r.cls.droppable then some (r, rs)
    else match takeDroppable rs with
      | some (d, rest) => some (d, r :: rest)
      | none => none

/-- Drop a record beyond the tick's limit (R489): ALIVE advances and the drop is counted, for block NUM in NUM_DROPPED too. -/
def State.dropRec (s : State) (r : EvRec) : State :=
  let m1 := (s.m.produced r.cls).countDrop
  { s with evq := { s.evq with dropsSince := s.evq.dropsSince + 1 },
           m := if r.block = 5 then m1.fsat Fld.NUM_DROPPED_COUNT else m1 }

/-- EVENT_PRODUCED: the event unit takes the next record raised, in the order of R488. It accepts 256 in a tick; then it
drops those of class CORRECTED or CONTAINED, and those of class STEP or DEVICE wait (R489). -/
def execEventProduced (s : State) : Host.Outcome State Fault Refusal :=
  if !s.m.mgUp then .next s
  else match s.m.evIn with
    | [] => .next s
    | r :: rs =>
      if s.evq.accepted < acceptLimit then
        .next (State.accept { s with evq := { s.evq with accepted := s.evq.accepted + 1 }, m := { s.m with evIn := rs } } r)
      else match takeDroppable (r :: rs) with
        | some (d, rest) => .next (State.dropRec { s with m := { s.m with evIn := rest } } d)
        | none => .next s

/-- EVENT_DROPPED: at the first boundary after drops, while none waits in the queue, the event unit produces the record that
announces them (R375). It does not count against the tick's limit. -/
def execEventDropped (s : State) : Host.Outcome State Fault Refusal :=
  if s.m.mgUp && s.m.atBoundary && decide (0 < s.evq.dropsSince) && !s.evq.dropWaits then
    let r : EvRec := ⟨s.m.tick.count, 0, codeDropped, .corrected, false, 0, lo32 s.evq.dropsSince,
      s.m.fget Fld.EVT_DROPPED_COUNT, 0, s.m.fget Fld.EVT_ALIVE_NEXT⟩
    let m1 := s.m.recordIn r
    let e1 := s.evq.logIn (s.m.fget Fld.EVT_LOG_HEAD_INDEX) r
    .next { s with m := m1, evq := { e1 with queue := e1.queue ++ [r], dropsSince := 0 } }
  else .next s

/-- Records the ring holds: 2^LOG2_SIZE (R372). -/
def Mod.ringSize (m : Mod) : Nat := 2 ^ m.fget Fld.EVT_RING_CTRL_LOG2_SIZE

/-- Records in the ring not consumed: PROD − CONS modulo 2^32 (R373). -/
def Mod.ringFill (m : Mod) : Nat :=
  (m.fget Fld.EVT_RING_PROD_INDEX + 2 ^ 32 - m.fget Fld.EVT_RING_CONS_INDEX) % 2 ^ 32

/-- Host address of the ring (R372): bits [11:0] of the low half read 0. -/
def Mod.ringBase (m : Mod) : Nat :=
  m.fget Fld.EVT_RING_BASE_LO_ADDR * 4096 + 2 ^ 32 * m.fget Fld.EVT_RING_BASE_HI_ADDR

/-- Host address of the producer shadow (R372). -/
def Mod.shadowAddr (m : Mod) : Nat := m.fget Fld.EVT_SHADOW_LO_ADDR * 4 + 2 ^ 32 * m.fget Fld.EVT_SHADOW_HI_ADDR

/-- MSI-X vector of a class (Table 14-5). -/
def EvClass.vector : EvClass → Nat
  | .device => 0 | .step => 1 | .contained => 2 | .corrected => 3

/-- Signal a class vector under the coalescing interval (R378): at once when no interval runs, else at its end. -/
def Mod.classVector (m : Mod) (c : EvClass) : Mod :=
  let v := c.vector
  if m.fget Fld.EVT_RING_CTRL_COALESCE_US = 0 then m.msix v
  else if m.host.coalOpen.contains v then { m with host := { m.host with coalDue := setAdd m.host.coalDue v } }
  else
    let m1 := m.msix v
    { m1 with host := { m1.host with coalOpen := setAdd m1.host.coalOpen v } }

/-- Is the ring enabled with room for a record (R373)? -/
def Mod.ringOpen (m : Mod) : Bool := m.fget Fld.EVT_RING_CTRL_ENABLE == 1 && decide (m.ringFill < m.ringSize)

/-- Does a record of class STEP go to the ring next, so that vector 1 comes before a verdict's vector 4 (R378)? -/
def State.stepRecordWaits (s : State) : Bool :=
  s.m.ringOpen && (s.m.evIn.any (fun r => r.cls == .step) || s.evq.queue.any (fun r => r.cls == .step))

/-- Vector 4 of a verdict that has taken effect is signalled, once no record of class STEP goes before it (R377, R378). -/
def State.verdictSend (s : State) : State :=
  if s.m.host.verdictDue && !s.stepRecordWaits then
    s.on (fun m => Mod.msix { m with host := { m.host with verdictDue := false } } 4)
  else s

/-- RING_RECORD_WRITE: with the ring enabled and not full, the record at the front of the queue is written at its index, then
PROD to the shadow, then the class vector is signalled (R373, R375, R377). -/
def execRingRecordWrite (s : State) : Host.Outcome State Fault Refusal :=
  match s.evq.queue with
  | [] => .next s
  | r :: rs =>
    if s.m.mgUp && s.m.ringOpen then
      let i := s.m.fget Fld.EVT_RING_PROD_INDEX
      let m1 := s.m.emit (.hostWrite (s.m.ringBase + 32 * (i % s.m.ringSize)) r.bytes)
      let m2 := m1.fcount Fld.EVT_RING_PROD_INDEX
      let m3 := m2.emit (.hostWrite m2.shadowAddr (leBytes 4 (m2.fget Fld.EVT_RING_PROD_INDEX)))
      .next (State.verdictSend { s with evq := { s.evq with queue := rs }, m := m3.classVector r.cls })
    else .next s

/-- COALESCE_EXPIRY: at the end of a class's interval a message due is sent and a new interval begins; with none due the
interval is over (R378). -/
def execCoalesceExpiry (cls : Nat) (s : State) : Host.Outcome State Fault Refusal :=
  .next (s.on (fun m =>
    if m.host.coalDue.contains cls then
      let m1 := m.msix cls
      { m1 with host := { m1.host with coalDue := setDel m1.host.coalDue cls } }
    else { m with host := { m.host with coalOpen := setDel m.host.coalOpen cls } }))

/-- A write of EVT_LOG_ACK (R490): one behind the present value is discarded. -/
def Mod.logAck (m : Mod) (v : Nat) : Mod :=
  if v < m.fget Fld.EVT_LOG_ACK_INDEX then m else m.fset Fld.EVT_LOG_ACK_INDEX v

/-- LOG_ACK_WRITE (R490). -/
def execLogAckWrite (val : Nat) (s : State) : Host.Outcome State Fault Refusal :=
  .next (s.reg Reg.EVT_LOG_ACK.base (fun m => m.logAck (lo32 val)))

/-- The bytes the log shows for an index (R490): a record older than 4,096, or not yet produced, reads as zero. -/
def EvtUnit.shown (e : EvtUnit) (ix : Nat) : List Byte :=
  match kvGet? e.log ix with
  | some r => r.bytes
  | none => leBytes 32 0

/-- Does the sideband answer (14_host_interface.md R381)? -/
def Mod.sidebandUp (m : Mod) : Bool := m.mgUp

/-- Does an MCTP binding answer: the sideband, or VDM while the link is up (R380, R381)? -/
def Mod.mctpUp (m : Mod) (sideband : Bool) : Bool := m.mgUp && (sideband || (m.host.linkUp && !m.pwr.perst))

/-- Number of a binding in what is sent. -/
def bindingCode (sideband : Bool) : Nat := if sideband then 1 else 0

/-- EVENT_LOG_READ: the vendor-defined message returns a log record and may acknowledge records (R490; Table 14-7). -/
def execEventLogRead (sideband : Bool) (index : Nat) (ack : Option Nat) (s : State) : Host.Outcome State Fault Refusal :=
  .next (s.on (fun m =>
    if m.mctpUp sideband then
      let m1 := m.emit (.mctp (bindingCode sideband) 0x7E (s.evq.shown index))
      match ack with
      | some v => m1.logAck (lo32 v)
      | none => m1
    else m))

/-- A write of EVT_RING_CTRL, field by field (R372). -/
def Mod.ringCtrl (m : Mod) (v : Nat) : Mod :=
  let on := m.fget Fld.EVT_RING_CTRL_ENABLE == 1
  let cur := m.fget Fld.EVT_RING_CTRL_LOG2_SIZE
  let lg := bitsOf v 5 1
  let m1 := (m.fset Fld.EVT_RING_CTRL_COALESCE_US (bitsOf v 15 8)).fset Fld.EVT_RING_CTRL_ENABLE (bitsOf v 0 0)
  if on then (if lg = cur then m1 else m1.fset Fld.TOP_HOST_ERR_RING_BUSY 1)
  else if lg < 6 ∨ 16 < lg then m1
  else m1.fset Fld.EVT_RING_CTRL_LOG2_SIZE lg

/-- RING_CTRL_WRITE (R372). -/
def execRingCtrlWrite (val : Nat) (s : State) : Host.Outcome State Fault Refusal :=
  .next (s.reg Reg.EVT_RING_CTRL.base (fun m => m.ringCtrl (lo32 val)))

/-- A write of EVT_RING_BASE or EVT_SHADOW (R372): discarded with RING_BUSY while ENABLE is 1. -/
def Mod.ringAddr (m : Mod) (off v : Nat) : Mod :=
  if m.fget Fld.EVT_RING_CTRL_ENABLE = 1 then m.fset Fld.TOP_HOST_ERR_RING_BUSY 1 else m.regWrite off v

/-- Is the offset a half of EVT_RING_BASE or EVT_SHADOW? -/
def isRingAddr (off : Nat) : Bool := decide (Reg.EVT_RING_BASE_LO.base ≤ off) && decide (off ≤ Reg.EVT_SHADOW_HI.base) && off % 4 == 0

/-- RING_ADDR_WRITE (R372). -/
def execRingAddrWrite (off val : Nat) (s : State) : Host.Outcome State Fault Refusal :=
  .next (if isRingAddr off then s.reg off (fun m => m.ringAddr off (lo32 val)) else s)

/-- A write of EVT_RING_CONS (R374): discarded with CONS_BAD beyond PROD or behind the previous CONS. -/
def Mod.ringCons (m : Mod) (v : Nat) : Mod :=
  let c := m.fget Fld.EVT_RING_CONS_INDEX
  if (v + 2 ^ 32 - c) % 2 ^ 32 ≤ m.ringFill then m.fset Fld.EVT_RING_CONS_INDEX v else m.fset Fld.TOP_HOST_ERR_CONS_BAD 1

/-- RING_CONS_WRITE (R374). -/
def execRingConsWrite (val : Nat) (s : State) : Host.Outcome State Fault Refusal :=
  .next (s.reg Reg.EVT_RING_CONS.base (fun m => m.ringCons (lo32 val)))

/-- Send the messages of pending vectors that are no longer masked, in ascending order (R377). -/
def Mod.sendPending (m : Mod) : Mod :=
  m.host.pba.foldl (fun x v =>
    let e := kvGetD x.host.entries v .reset
    if x.host.msixEnable && !x.host.funcMask && !e.mask then
      let x1 := x.emit (.msix v e.addr e.data)
      { x1 with host := { x1.host with pba := setDel x1.host.pba v } }
    else x) m

/-- MSIX_UNMASK: the host clears a vector's Mask bit, writing its address and data, or enables the function; pending
messages are sent (R377). The same writes set the masks again. -/
def execMsixUnmask (what : Unmask) (s : State) : Host.Outcome State Fault Refusal :=
  .next (s.on (fun m =>
    match what with
    | .entry v addr data =>
      if v < 128 then
        Mod.sendPending { m with host := { m.host with entries := kvSet m.host.entries v ⟨addr, data, false⟩ } }
      else m
    | .function => Mod.sendPending { m with host := { m.host with msixEnable := true, funcMask := false } }
    | .mask v =>
      let e := kvGetD m.host.entries v .reset
      if v < 128 then { m with host := { m.host with entries := kvSet m.host.entries v { e with mask := true } } } else m
    | .maskAll => { m with host := { m.host with funcMask := true } }
    | .disable => { m with host := { m.host with msixEnable := false } }))

end Sys2Proof.Machine
end

