-- ==== Sys2Proof/Machine/Fabric.lean ====
section
/-! DEFINITION. Fabric ports, forwarding and end-to-end delivery (12_fabric_ports.md): shared operations. -/

namespace Sys2Proof.Machine

/-- State of a port before anything has happened on it (R3, Table 12-5). -/
def Mod.portRest (m : Mod) (p : Nat) : Port := Port.rest (if m.variant && decide (16 ≤ p) then .disabled else .down)

/-- A port. -/
def Mod.port (m : Mod) (p : Nat) : Port := kvGetD m.fab.ports p (m.portRest p)

/-- Replace a port. -/
def Mod.setPort (m : Mod) (p : Nat) (x : Port) : Mod := { m with fab := { m.fab with ports := kvSet m.fab.ports p x } }

/-- The route table of the active plate. -/
def Mod.routes (m : Mod) : Option RouteTab := m.plate?.bind (·.routes)

/-- Ports the active plate names in ACTIVE_PORTS (R330). -/
def Mod.activePorts (m : Mod) : NatSet := (m.routes.map (·.active)).getD []

/-- EPOCH of the active FULL plate, or 0 with none (R323). -/
def Mod.epoch (m : Mod) : Nat := (m.plate?.map (·.hdr.epoch)).getD 0

/-- Hash of the active FULL plate, or zeros. -/
def Mod.plateHash (m : Mod) : List Byte := (m.plate?.map (·.hash)).getD (leBytes 32 0)

/-- Does the state carry route choices (R331)? -/
def PortState.carries (s : PortState) : Bool := s == .active || s == .retrain

/-! ### Routing -/

/-- The choice bytes of a destination (R330); IDs at or above DESTS are unreachable. -/
def RouteTab.of (t : RouteTab) (dest : Nat) : List Nat :=
  if dest < t.dests then kvGetD t.choices dest [0xFF, 0xFF, 0xFF, 0xFF, 0xFF] else []

/-- The first choice that qualifies for a destination (R331): its number, port and VL action. -/
def Mod.choose (m : Mod) (ingress : Option Nat) (dest : Nat) : Option (Nat × Nat × Nat) :=
  let cs := (m.routes.map (fun t => t.of dest)).getD []
  ((List.range cs.length).zip cs).findSome? (fun c =>
    let p := c.2 % 64
    if c.2 ≠ 0xFF ∧ (m.port p).st.carries ∧ some p ≠ ingress then some (c.1, p, c.2 / 64) else none)

/-- A virtual lane after a VL action (R330). -/
def vlAfter (action vl : Nat) : Nat := if action = 1 then 0 else if action = 2 then 1 else vl

/-- Queue a flit on a port. -/
def Mod.enqueue (m : Mod) (p : Nat) (f : TFlit) : Mod :=
  let x := m.port p
  m.setPort p { x with queue := x.queue ++ [f] }

/-- Source of an event about a flit: its ingress port, 0xFFFF for originated ones. -/
def ingressCode (i : Option Nat) : Nat := i.getD 0xFFFF

/-- Place a flit by the first choice that qualifies, or discard it as unreachable (R331). -/
def Mod.place (m : Mod) (ingress : Option Nat) (f : TFlit) : Mod :=
  match m.choose ingress f.dest with
  | some (_, p, act) => m.enqueue p { f with hops := f.hops - 1, vl := vlAfter act f.vl, via := ingress }
  | none =>
    let m1 := m.fsat Fld.FAB_UNREACH_COUNT
    if m.fab.unreachRaised then m1
    else Mod.raise { m1 with fab := { m1.fab with unreachRaised := true } } .contained 0x0B06 (ingressCode ingress) f.dest 1

/-- A transit flit that arrives with HOPS of 1 is discarded (R331). -/
def Mod.transit (m : Mod) (ingress : Nat) (f : TFlit) : Mod :=
  if f.hops ≤ 1 then
    let m1 := m.fsat Fld.FAB_TTL_COUNT
    if m.fab.ttlRaised then m1
    else Mod.raise { m1 with fab := { m1.fab with ttlRaised := true } } .contained 0x0B07 ingress f.dest f.src
  else m.place (some ingress) f

/-- Ports of a link record that carry now, ascending (R358). -/
def Mod.linkPorts (m : Mod) (dest : Nat) : List Nat :=
  match (m.plate?.map (·.colls.links)).bind (fun ls => ls.find? (fun l => l.1 == dest)) with
  | some l => l.2.filter (fun p => (m.port p).st.carries)
  | none => []

/-- VL action of a destination's choice C0 (R358). -/
def Mod.c0Action (m : Mod) (dest : Nat) : Nat := ((m.routes.map (fun t => t.of dest)).getD []).headD 0 / 64

/-- Place an originated COLL or NORM flit: on a port of the neighbour's link record chosen by slice and flit index, else by
R331 (R358, R361). -/
def Mod.placeColl (m : Mod) (stripe : Nat) (f : TFlit) : Mod :=
  let ps := m.linkPorts f.dest
  if ps.length = 0 then m.place none f
  else
    let p := ps.getD (stripe % ps.length) 0
    m.enqueue p { f with hops := f.hops - 1, vl := vlAfter (m.c0Action f.dest) f.vl }

/-! ### Leaving a state -/

/-- Re-route every flit waiting for a port and every unacknowledged one, in their original order, each as it first came (R331,
R332). -/
def Mod.reroute (m : Mod) (fs : List TFlit) : Mod := fs.foldl (fun x f => x.place f.via { f with hops := f.hops + 1 }) m

/-- Flits a port still owes: those of its retry buffer, then those queued (R332). -/
def Port.owed (x : Port) : List TFlit := x.retry.map (·.2) ++ x.queue

/-- A port changes state (Table 12-6): CAUSE is recorded; leaving ACTIVE or RETRAIN for DOWN, FAILED or QUARANTINE raises
PORT_DOWN when the plate names the port and the cause is neither PLATE (10) nor RESET (8), and its flits are routed again
(R321, R332). The lanes that failed are remembered until a port reset (R322). -/
def Mod.portTo (m : Mod) (p : Nat) (st : PortState) (cause : Nat) : Mod :=
  let x := m.port p
  if x.st = .disabled then m
  else
    let leaves := x.st.carries && !st.carries
    let owed := if leaves then x.owed else []
    let y := if leaves then { x with queue := [], retry := [], resend := none, confirmed := false } else x
    let z := if st = .down ∨ st = .failed then
      { Port.rest st with half := y.half, prbs := y.prbs, txCount := y.txCount, rxCount := y.rxCount,
                          creditRaised := y.creditRaised, failedLanes := if cause = 8 then 0 else y.failedLanes } else { y with st := st }
    let m1 := (m.setPort p z).fset Fld.FAB_STATUS_CAUSE cause p
    let m2 := if st = .failed then m1.fset Fld.FAB_ERR_FAILED 1 p else m1
    let m3 := if leaves && m.activePorts.contains p && cause != 10 && cause != 8 then
      (m2.fset Fld.FAB_ERR_DOWN 1 p).raise .contained 0x0B01 p cause st.code ((x.nbr.map (·.module)).getD 0) else m2
    (m3.trace 7 p st.code cause).reroute owed

/-- A port reaches QUARANTINE from TRAINING with full credits and fresh sequence numbers (R311, R321). -/
def Port.trained (x : Port) : Port :=
  { x with st := .quarantine, attempts := 0, probing := false,
           credits := [(0, 256), (1, 256), (2, 32), (3, 32), (4, 16), (5, 16)], freed := [], queue := [], retry := [],
           resend := none, txSeq := 0, rxSeq := 0, ackDue := none, nakSent := false, rounds := 0, beWait := 0 }

/-- Raise PORT_DEGRADED with the lanes that failed and the half kept (R322, R328). -/
def Mod.degraded (m : Mod) (p failed half : Nat) : Mod :=
  (m.fset Fld.FAB_ERR_DEGRADED 1 p).raise .contained 0x0B02 p failed half

/-- The half of the lanes that is kept when the lanes of the mask have failed (R307): the other one, none where both halves hold
a failed lane. -/
def keptHalf (failed : Nat) : Option Nat :=
  if failed % 16 = 0 then some 0 else if failed / 16 % 16 = 0 then some 1 else none

/-- The first CONTROL flit has been exchanged by a port whose lanes are trained: it enters QUARANTINE; one at x4 raises
PORT_DEGRADED with the half kept (R321, R322). -/
def Mod.exchanged (m : Mod) (p : Nat) : Mod :=
  let x := m.port p
  if x.st = .training ∧ x.lanes ≠ 0 ∧ x.nbr.isSome ∧ ¬ x.ctlDue then
    let m1 := (m.setPort p x.trained).trace 7 p 3 0
    if x.lanes = 4 then m1.degraded p x.failedLanes x.half else m1
  else m

/-- May a port in QUARANTINE enter ACTIVE under these routes at an activation (R324)? The offset counts in units of 10 ps. -/
def Mod.admits (m : Mod) (t : RouteTab) (p : Nat) : Bool :=
  let x := m.port p
  match x.nbr, kvGet? t.nbr p, x.skew with
  | some n, some e, some k =>
    x.st == .quarantine && t.active.contains p && n.module == e.1 && n.port == e.2 && n.module != m.self
      && n.period == m.fget Fld.TCK_PERIOD_PERIOD_US && decide (k.2.natAbs ≤ 1600)
  | _, _, _ => false

/-- What an activation does to every port (R321, R324): those it names and admits become ACTIVE, unconfirmed (R325); ACTIVE
ones it does not name return to QUARANTINE with cause PLATE; one in RETRAIN does so when its training ends (Table 12-6). -/
def Mod.portsActivate (m : Mod) (t : Option RouteTab) : Mod :=
  (List.range 64).foldl (fun x p =>
    let st := (x.port p).st
    match t with
    | some r =>
      if x.admits r p then (x.setPort p { x.port p with st := .active, confirmed := false }).trace 7 p 4 0
      else if st == .active && !r.active.contains p then x.portTo p .quarantine 10 else x
    | none => if st = .active then x.portTo p .quarantine 10 else x) m

/-- Every port that is not disabled goes DOWN with cause POWER (R308, Table 12-6). -/
def Mod.portsPower (m : Mod) : Mod :=
  (List.range 64).foldl (fun x p => if (x.port p).st = .disabled then x else x.portTo p .down 11) m

/-! ### End-to-end transport -/

/-- Key of a flow (R333). -/
def flowKey (module cls : Nat) : Nat := module * 4 + cls

/-- Flits a flow may have unacknowledged, and the window of a receiver (R333, R334). -/
def flowWindow : Nat := 16384

/-- A flow that has sent nothing. -/
def TxFlow.rest : TxFlow := ⟨0, [], [], 0⟩

/-- A flow that has received nothing. -/
def RxFlow.rest : RxFlow := ⟨0, [], 0, false⟩

/-- Striping index of a COLL flit: slice index plus flit index (R358); 0 for other types. -/
def TFlit.stripe (f : TFlit) : Nat := if f.type = 4 then f.addr / 2 ^ 16 % 2 ^ 12 + f.addr / 2 ^ 32 % 2 ^ 12 else 0

/-- Send a flit of a flow: COLL and NORM flits over link records, others by R331; one for this module itself is not sent. -/
def Mod.launch (m : Mod) (f : TFlit) : Mod := if f.type = 4 ∨ f.type = 5 then m.placeColl f.stripe f else m.place none f

/-- Originate a flit: it takes the flow's next sequence number and is kept until acknowledged; with 16,384 unacknowledged it
waits (R333). -/
def Mod.originate (m : Mod) (f : TFlit) : Mod :=
  let k := flowKey f.dest f.cls
  let w := kvGetD m.fab.tx k .rest
  let g := { f with src := m.self, seq := w.next % 2 ^ 32, hops := (m.routes.map (·.hopLimit)).getD 1, vl := 0, retx := false }
  let full := decide (flowWindow ≤ w.unacked.length)
  let w1 := { w with next := w.next + 1, unacked := if full then w.unacked else w.unacked ++ [g],
                     waiting := if full then w.waiting ++ [g] else w.waiting }
  let m1 := { m with fab := { m.fab with tx := kvSet m.fab.tx k w1 } }
  if full then m1 else m1.launch g

/-- Originate flits in order. -/
def Mod.originateAll (m : Mod) (fs : List TFlit) : Mod := fs.foldl Mod.originate m

/-- Cut bytes into payloads of 192. -/
def cut192 : Nat → List Byte → List (List Byte)
  | 0, _ => []
  | _ + 1, [] => []
  | n + 1, bs => bs.take 192 :: cut192 n (bs.drop 192)

/-- Payloads of a transfer: at least one. -/
def payloads (bs : List Byte) : List (List Byte) := if bs.length = 0 then [[]] else cut192 (bs.length / 192 + 1) bs

/-- An E2E_ACK for a received flow (Table 12-3): outside every flow itself. -/
def Mod.sendAck (m : Mod) (src cls : Nat) : Mod :=
  let k := flowKey src cls
  let r := kvGetD m.fab.rx k .rest
  let f : TFlit := ⟨src, m.self, 6, 2, 0, false, false, true, (m.routes.map (·.hopLimit)).getD 1, 0, cls,
    (r.cum + 2 ^ 32 - 1) % 2 ^ 32, 0, [], none⟩
  Mod.place { m with fab := { m.fab with rx := kvSet m.fab.rx k { r with since := 0, due := false } } } none f

/-- Advance a cumulative point over the numbers applied beyond it. -/
def advance : Nat → NatSet → Nat → Nat × NatSet
  | 0, above, cum => (cum, above)
  | n + 1, above, cum => if above.contains cum then advance n (setDel above cum) (cum + 1) else (cum, above)

/-- How far a 32-bit sequence number lies beyond a receiver's cumulative point (R333). -/
def RxFlow.ahead (r : RxFlow) (seq : Nat) : Nat := (seq + 2 ^ 32 - r.cum % 2 ^ 32) % 2 ^ 32

/-- Give back the buffer entry a flit held at its ingress port (R314). -/
def Mod.freeEntry (m : Mod) (ingress : Nat) (f : TFlit) : Mod :=
  if 64 ≤ ingress then m
  else
    let x := m.port ingress
    let k := f.cls * 2 + f.vl
    m.setPort ingress { x with freed := kvSet x.freed k (kvGetD x.freed k 0 + 1) }

/-- Is a flit of the same flow and number waiting to be applied? -/
def FabUnit.waiting (u : FabUnit) (f : TFlit) : Bool :=
  u.inbox.any (fun e => e.2.type != 6 && e.2.src == f.src && e.2.cls == f.cls && e.2.seq == f.seq)

/-- A flit for this module (R333, R334): it waits to be applied, in any order, within the window; a duplicate is discarded and
counted in FAB_DUP, and so is a flit beyond the window or of a flow too many; a flit discarded frees its buffer entry. -/
def Mod.deliver (m : Mod) (ingress : Nat) (f : TFlit) : Mod :=
  if f.type = 6 then { m with fab := { m.fab with inbox := m.fab.inbox ++ [(ingress, f)] } }
  else
    let k := flowKey f.src f.cls
    let isNew := (kvGet? m.fab.rx k).isNone
    let r := kvGetD m.fab.rx k .rest
    if isNew && decide (flowWindow ≤ m.fab.rx.length) then m.freeEntry ingress f
    else if 2 ^ 31 ≤ r.ahead f.seq ∨ r.above.contains (r.cum + r.ahead f.seq) then
      (Mod.fsat { m with fab := { m.fab with rx := kvSet m.fab.rx k { r with due := true } } } Fld.FAB_DUP_COUNT).freeEntry ingress f
    else if flowWindow ≤ r.ahead f.seq then m.freeEntry ingress f
    else if m.fab.waiting f then (m.fsat Fld.FAB_DUP_COUNT).freeEntry ingress f
    else { m with fab := { m.fab with rx := kvSet m.fab.rx k r, inbox := m.fab.inbox ++ [(ingress, f)] } }

/-- A flit of a flow has been applied (R334, R335): the cumulative point advances over it, and after every 64 flits that advance
it an E2E_ACK is sent. -/
def Mod.applied (m : Mod) (f : TFlit) : Mod :=
  if f.type = 6 then m
  else
    let k := flowKey f.src f.cls
    let r := kvGetD m.fab.rx k .rest
    let (c, a) := advance (r.above.length + 1) (setAdd r.above (r.cum + r.ahead f.seq)) r.cum
    let r1 : RxFlow := { cum := c, above := a, since := r.since + (c - r.cum), due := true }
    let m1 := { m with fab := { m.fab with rx := kvSet m.fab.rx k r1 } }
    if 64 ≤ r1.since then m1.sendAck f.src f.cls else m1

/-- Take the first flit delivered locally that satisfies `p` out of the inbox. -/
def takeInbox (p : TFlit → Bool) : List (Nat × TFlit) → Option ((Nat × TFlit) × List (Nat × TFlit))
  | [] => none
  | x :: xs =>
    if p x.2 then some (x, xs)
    else match takeInbox p xs with
      | some (y, r) => some (y, x :: r)
      | none => none

/-- Take the first local flit that satisfies `p`, freeing its buffer entry: the command that takes it applies it (R334). -/
def Mod.takeFlit (m : Mod) (p : TFlit → Bool) : Option (TFlit × Mod) :=
  match takeInbox p m.fab.inbox with
  | some (x, rest) => some (x.2, (Mod.freeEntry { m with fab := { m.fab with inbox := rest } } x.1 x.2).applied x.2)
  | none => none

/-! ### Flits on the wire -/

/-- Code of a flit kind (Table 12-2). -/
def FlitKind.code : FlitKind → Nat
  | .idle => 0 | .payload => 1 | .test => 2 | .control => 3 | .reserved => 4

/-- Pad with zeros to `n` bytes. -/
def padTo (n : Nat) (bs : List Byte) : List Byte := bs.take n ++ List.replicate (n - bs.length) 0

/-- Body of a PAYLOAD flit (Table 12-1, bytes 0x18 to 0xF7). -/
def TFlit.body (f : TFlit) : List Byte :=
  let tf := f.cls + 4 * f.vl + (if f.poison then 8 else 0) + (if f.retx then 16 else 0) + (if f.last then 32 else 0)
  leBytes 2 f.dest ++ leBytes 2 f.src ++ leBytes 1 f.type ++ leBytes 1 tf ++ leBytes 1 f.hops ++ leBytes 1 0
    ++ leBytes 4 f.seq ++ leBytes 4 f.tag ++ leBytes 8 f.addr ++ leBytes 2 f.len ++ leBytes 6 0 ++ padTo 192 f.payload

/-- One step of PRBS31 (x^31 + x^28 + 1): the next bit, and the register. -/
def prbsStep (s : Nat) : Nat × Nat :=
  let b := (s / 2 ^ 30 + s / 2 ^ 27) % 2
  (b, s % 2 ^ 30 * 2 + b)

/-- `n` bits of PRBS31, least significant first, and the register after them. -/
def prbsBits : Nat → Nat → Nat × Nat
  | 0, s => (0, s)
  | n + 1, s =>
    let (b, s1) := prbsStep s
    let (v, s2) := prbsBits n s1
    (b + 2 * v, s2)

/-- Body of a CONTROL flit (R323). -/
def Mod.controlBody (m : Mod) (p : Nat) : List Byte :=
  padTo 224 (leBytes 2 m.self ++ leBytes 1 p ++ leBytes 1 (m.port p).st.code ++ leBytes 4 m.epoch
    ++ leBytes 1 (m.fget Fld.TCK_PERIOD_PERIOD_US) ++ leBytes 1 (if m.plateActive then 1 else 0) ++ leBytes 2 0
    ++ m.plateHash ++ leBytes 4 (m.fget Fld.PLT_ROUTE_GEN_GEN))

/-- Credits of a port for a class and VL. -/
def Port.credit (x : Port) (cls vl : Nat) : Nat := kvGetD x.credits (cls * 2 + vl) 0

/-- The first queued flit of a class that holds a credit, and the queue without it. -/
def Port.takeClass (x : Port) (cls : Nat) : Option (TFlit × Port) :=
  match x.queue.find? (fun f => f.cls == cls && decide (0 < x.credit f.cls f.vl)) with
  | some f =>
    let k := f.cls * 2 + f.vl
    some (f, { x with queue := x.queue.erase f, credits := kvSet x.credits k (x.credit f.cls f.vl - 1) })
  | none => none

/-- Flits the retry buffer holds (R315). -/
def retrySize : Nat := 1024

/-- A new PAYLOAD flit is sent: numbered and kept in the retry buffer (R315). -/
def Port.sendNew (x : Port) (f : TFlit) : Nat × Port :=
  (x.txSeq, { x with retry := x.retry ++ [(x.txSeq, f)], txSeq := (x.txSeq + 1) % 4096, txCount := x.txCount + 1 })

/-- What a port's transmitter sends in a slot (R312): kind, sequence number, flit, and the port after. -/
def Port.pickSlot (x : Port) : FlitKind × Nat × Option TFlit × Port :=
  let beReady := x.st == .active && x.confirmed && x.queue.any (fun f => f.cls == 1)
  let may := x.st == .active && x.confirmed && decide (x.retry.length < retrySize)
  let pay := fun (c : Nat) (y : Port) => match if may then y.takeClass c else none with
    | some (f, z) => let (n, w) := z.sendNew f; some (FlitKind.payload, n, some f, w)
    | none => none
  let waited := { x with beWait := if beReady then x.beWait + 1 else 0 }
  let again := match if x.st == .active then x.resend else none with
    | some n => (x.retry.drop n).head?.map (fun e =>
        (FlitKind.payload, e.1, some e.2,
          { waited with resend := if n + 1 < x.retry.length then some (n + 1) else none, txCount := x.txCount + 1 }))
    | none => none
  let be := fun (y : Port) => pay 1 { y with beWait := 0 }
  let test := if x.test && (x.st == .quarantine || x.st == .active) then some (FlitKind.test, 0, (none : Option TFlit), waited) else none
  if x.ctlDue && x.st != .retrain then (.control, 0, none, { waited with ctlDue := false })
  else if 63 ≤ x.beWait ∧ x.resend = none then
    ((pay 2 waited) <|> (be x) <|> (pay 0 waited) <|> test).getD (.idle, 0, none, waited)
  else (again <|> pay 2 waited <|> pay 0 waited <|> be x <|> test).getD (.idle, 0, none, waited)

/-- Credits returned in one flit: at most 31 of each class and VL (Table 12-1), and those left. -/
def Port.returnCredits (x : Port) : Nat × Port :=
  let g := fun (k : Nat) => min 31 (kvGetD x.freed k 0)
  ((List.range 6).foldl (fun w k => w + g k * 2 ^ (5 * k)) 0,
    { x with freed := (List.range 6).foldl (fun fr k => kvSet fr k (kvGetD x.freed k 0 - g k)) x.freed })

/-- Does a port send flits: one in QUARANTINE or ACTIVE, and for marks one in RETRAIN or with its lanes trained in TRAINING
(R317, R320, R321)? -/
def Port.sends (x : Port) : Bool :=
  x.st == .quarantine || x.st == .active || x.st == .retrain || x.st == .training && x.lanes != 0

/-- FLIT_SLOT's work on port `p` (R309, R312, R314, R317): the flit chosen is sent with the acknowledgement and credits due,
a MARK with phase `phase` when one is due, an ECHO with turn `turn` when one is due; a CONTROL flit sent in TRAINING completes
the exchange when the neighbour's has come. -/
def Mod.flitSlot (m : Mod) (p phase turn : Nat) : Mod :=
  let x := m.port p
  if !x.sends then m
  else
    let (kind, seq, fl, y) := x.pickSlot
    let (cr, z) := y.returnCredits
    let ackSeq := (z.rxSeq + 4095) % 4096
    let ackW := ackSeq + (match z.ackDue with | some true => 4096 | some false => 8192 | none => 0)
    let lf := (if z.markDue then 1 else 0) + (if z.echoDue then 2 else 0)
    let mi := if z.markDue then m.tick.count + 2 ^ 48 * m.fget Fld.TCK_PERIOD_PERIOD_US else 0
    let (tb, sr) := if kind = .test then prbsBits 1792 z.prbs else (0, z.prbs)
    let body := match kind, fl with
      | .payload, some f => f.body
      | .control, _ => m.controlBody p
      | .test, _ => leBytes 224 tb
      | _, _ => leBytes 224 0
    let head := leBytes 2 (seq + 4096 * kind.code) ++ leBytes 2 ackW ++ leBytes 4 cr ++ leBytes 1 lf ++ leBytes 1 0
      ++ leBytes 2 (if z.markDue then phase else 0) ++ leBytes 2 (if z.echoDue then turn else 0) ++ leBytes 2 0 ++ leBytes 8 mi
    let bytes := head ++ body
    let w := { z with ackDue := none, nakSent := z.nakSent || z.ackDue == some false, markDue := false, echoDue := false,
                      ownMark := if z.markDue then some ((phase : Int), m.tick.count) else z.ownMark, prbs := sr }
    ((m.setPort p w).emit (.flit p (bytes ++ leBytes 8 (crc64 bytes)))).exchanged p

/-- Drop from the retry buffer every flit up to the acknowledged one; whether any went (R314, R315). -/
def Port.acked (x : Port) (seq : Nat) : Port :=
  if x.retry.any (fun e => e.1 == seq) then
    let rest := (x.retry.dropWhile (fun e => e.1 != seq)).drop 1
    let gone := x.retry.length - rest.length
    { x with retry := rest, rounds := 0,
             resend := match x.resend with
               | some n => if rest.length ≤ n - gone then none else some (n - gone)
               | none => none }
  else x

/-- Start a go-back-N round on port `p`, or take it DOWN with cause REPLAY after eight without progress (R315). -/
def Mod.retryRound (m : Mod) (p : Nat) : Mod :=
  let x := m.port p
  if x.retry.length = 0 then m
  else if 8 ≤ x.rounds then m.portTo p .down 2
  else (m.setPort p { x with resend := some 0, rounds := x.rounds + 1 }).fsat Fld.FAB_REPLAY_COUNT 1 p

end Sys2Proof.Machine
end

