-- ==== Sys2Proof/Machine/Measure.lean ====
section
/-! DEFINITION. The measurement registers and their log (16_security_and_update.md R397). -/

namespace Sys2Proof.Machine

/-- The value of measurement register `r`. -/
def Mod.meas (m : Mod) (r : Nat) : List Byte := (List.range 8).flatMap (fun w => leBytes 4 (m.fget Fld.SEC_MEAS_MEAS r w))

/-- Set measurement register `r`. -/
def Mod.setMeas (m : Mod) (r : Nat) (v : List Byte) : Mod :=
  (List.range 8).foldl (fun x w => x.fset Fld.SEC_MEAS_MEAS (leNat ((v.drop (4 * w)).take 4)) r w) m

/-- Extend a measurement register: M = SHA-256(M ‖ d), with an entry in the log. -/
def Mod.extend (m : Mod) (r kind : Nat) (d : List Byte) : Mod :=
  let m1 := m.setMeas r (sha256 (m.meas r ++ d))
  { m1 with sec := { m1.sec with log := m1.sec.log ++ [⟨r, kind, m.tick.count, d⟩] } }

/-- M7 cleared when the plates are cleared (R397). -/
def Mod.clearPlateMeas (m : Mod) : Mod := m.setMeas 7 (List.replicate 32 0)

/-- A 32-bit field of an HSS public key (RFC 8554: most significant byte first, PRESUMED). -/
def hssField (pk : List Byte) (i : Nat) : Nat := leNat (((pk.drop (4 * i)).take 4).reverse)

/-- Does a public key hold the parameters the device accepts (R392, Table 16-2): 60 bytes, the level count, and the level-1 types? The vendor
key has two levels of H15, a plate-signing key one or two of H10 or H15. -/
def hssKeyOk (vendor : Bool) (pk : List Byte) : Bool :=
  pk.length == 60 && hssField pk 2 == 3
    && (if vendor then hssField pk 0 == 2 && hssField pk 1 == 7
        else (hssField pk 0 == 1 || hssField pk 0 == 2) && (hssField pk 1 == 6 || hssField pk 1 == 7))

/-- A signature verifies under a key whose parameters the device accepts (R392). -/
def hssOk (vendor : Bool) (pk msg sig : List Byte) : Bool := hssKeyOk vendor pk && Config.hssVerify pk msg sig

end Sys2Proof.Machine
end

