-- ==== Sys2Proof/Machine/Sfu.lean ====
section
/-! DEFINITION. The special functions RECIP, RSQRT, EXP2, LOG2 and TANH (07_groom_units.md R166): the exact value to many
bits, and the result, which lies within one last place of it and is a fixed function of the operand. Which of the
permitted results is returned is left open by the manual: Config.sfuPick chooses and has no body. -/

namespace Sys2Proof.Machine

/-- Fraction bits of the fixed-point work below. -/
def fxBits : Nat := 400

/-- One in fixed point. -/
def fxOne : Nat := 2 ^ fxBits

/-- The sum of `n` further terms of the exponential series of `x` (fixed point), from term `t` = x^k / k!. -/
def fxExpSum : Nat → Nat → Nat → Nat → Nat
  | 0, _, _, _ => 0
  | n + 1, k, x, t => t + fxExpSum n (k + 1) x (t * x / fxOne / (k + 1))

/-- exp(x) of a fixed-point x below 1, truncated far below any last place. -/
def fxExp (x : Nat) : Nat := fxExpSum 90 0 x fxOne

/-- The sum of `n` terms 1 / (k 2^k) in fixed point from k on: ln 2. -/
def fxLn2Sum : Nat → Nat → Nat
  | 0, _ => 0
  | n + 1, k => fxOne / (k * 2 ^ k) + fxLn2Sum n (k + 1)

/-- ln 2 in fixed point. -/
def fxLn2 : Nat := fxLn2Sum 400 1

/-- `n` binary digits of log2 of a fixed-point y in [1, 2), most significant first, appended to `acc`. -/
def fxLog2 : Nat → Nat → Nat → Nat
  | 0, _, acc => acc
  | n + 1, y, acc =>
    let s := y * y / fxOne
    if 2 * fxOne ≤ s then fxLog2 n (s / 2) (2 * acc + 1) else fxLog2 n s (2 * acc)

/-- m × 2^e in fixed point, truncated. -/
def fxOf (m : Nat) (e : Int) : Nat :=
  if 0 ≤ e + fxBits then m * pow2i (e + fxBits) else m / pow2i (-(e + fxBits))

/-- A magnitude known to lie in [lo, lo + 2^e): its significand with a last bit that stands for the part cut off. -/
def cutMag (m : Nat) (e : Int) : Nat × Int := (2 * m + 1, e - 1)

/-- A power of two of a magnitude |x| = m × 2^e with its sign: 2^x, with a last bit for the part cut off; exact where x
is an integer. -/
def exp2Mag (neg : Bool) (m : Nat) (e : Int) : Nat × Int :=
  let (whole, frac, unit) := splitAt m e 0
  if frac = 0 then (1, if neg then -(whole : Int) else whole)
  else
    let f := frac * fxOne / unit
    let g := if neg then fxOne - f else f
    let n : Int := if neg then -(whole : Int) - 1 else whole
    cutMag (fxExp (g * fxLn2 / fxOne)) (n - fxBits)

/-- The result of FP32 rounding "within one last place" of the magnitude m × 2^e (m's last bit standing for anything cut
off): the codes permitted are the two neighbours, or the value itself and its two neighbours when it is exact. -/
def withinOne (ftz neg : Bool) (pick m : Nat) (e : Int) : Coded :=
  let f := Fmt.spec .fp32
  if m = 0 then ⟨f.signCode neg, .none⟩
  else
    let emin : Int := 1 - f.bias
    let eTop : Int := (Nat.log2 m : Int) + e
    let tiny := decide (eTop < emin)
    if tiny && ftz then ⟨f.signCode neg, { inx := true }⟩
    else if 128 ≤ eTop then f.overflow .ieee neg
    else
      let ex := if tiny then emin else eTop
      let (n, rem, _) := splitAt m e (ex - f.frac)
      let t := f.pack ex n
      let code :=
        if rem = 0 then (if pick % 3 = 0 then t else if pick % 3 = 1 then t + 1 else t - 1)
        else (if pick % 2 = 0 then t else t + 1)
      let inexact := decide (rem ≠ 0) || decide (code ≠ t)
      ⟨f.signCode neg + code, { ovf := decide (f.infCode ≤ code), unf := tiny && inexact, inx := inexact }⟩

/-- The choice of function `fn` at the operand (−1)^neg × m × 2^e: a function of the operand's value, whatever significand and exponent
stand for it (R166). -/
def sfuChoice (fn : Nat) (neg : Bool) (m : Nat) (e : Int) : Nat :=
  if m = 0 then Config.sfuPick fn neg 0 0
  else Config.sfuPick fn neg (m * 2 ^ 64 / 2 ^ Nat.log2 m) (e + Nat.log2 m)

/-- RECIP (Table 04-8: RECIP of zero is an infinity and sets OVF). -/
def sfuRecip (ftz : Bool) (a : Val) : Coded :=
  match a with
  | .nan => ⟨(Fmt.spec .fp32).nanCode, .none⟩
  | .inf n => ⟨(Fmt.spec .fp32).signCode n, .none⟩
  | .fin n m e =>
    if m = 0 then ⟨(Fmt.spec .fp32).signCode n + (Fmt.spec .fp32).infCode, { ovf := true }⟩
    else
      let (q, k) := quotMag 1 0 m e
      withinOne ftz n (sfuChoice 0 n m e) q k

/-- RSQRT (Table 04-8: of a negative non-zero value, NaN with INV; of −0, −∞). -/
def sfuRsqrt (ftz : Bool) (a : Val) : Coded :=
  let f := Fmt.spec .fp32
  match a with
  | .nan => ⟨f.nanCode, .none⟩
  | .inf n => if n then ⟨f.nanCode, .invalid true⟩ else ⟨0, .none⟩
  | .fin n m e =>
    if m = 0 then ⟨f.signCode n + f.infCode, .none⟩
    else if n then ⟨f.nanCode, .invalid true⟩
    else
      let (q, k) := quotMag 1 0 m e
      match (Val.fin false q k).sqrt.1 with
      | .fin _ r j => withinOne ftz false (sfuChoice 1 n m e) r j
      | _ => ⟨f.nanCode, .none⟩

/-- EXP2 (EXP2 of −∞ is +0). -/
def sfuExp2 (ftz : Bool) (a : Val) : Coded :=
  let f := Fmt.spec .fp32
  match a with
  | .nan => ⟨f.nanCode, .none⟩
  | .inf n => if n then ⟨0, .none⟩ else ⟨f.infCode, .none⟩
  | .fin n m e =>
    if m = 0 then withinOne ftz false (sfuChoice 2 n m e) 1 0
    else if 10 ≤ (Nat.log2 m : Int) + e then
      (if n then withinOne ftz false (sfuChoice 2 n m e) 1 (-1000) else f.overflow .ieee false)
    else
      let (r, k) := exp2Mag n m e
      withinOne ftz false (sfuChoice 2 n m e) r k

/-- LOG2 (of a zero, −∞ with OVF; of a negative value, NaN with INV). -/
def sfuLog2 (ftz : Bool) (a : Val) : Coded :=
  let f := Fmt.spec .fp32
  match a with
  | .nan => ⟨f.nanCode, .none⟩
  | .inf n => if n then ⟨f.nanCode, .invalid true⟩ else ⟨f.infCode, .none⟩
  | .fin n m e =>
    if m = 0 then ⟨f.signCode true + f.infCode, { ovf := true }⟩
    else if n then ⟨f.nanCode, .invalid true⟩
    else
      let top := (Nat.log2 m : Int) + e
      let y := m * fxOne / 2 ^ Nat.log2 m
      if y = fxOne then
        withinOne ftz (decide (top < 0)) (sfuChoice 3 n m e) top.natAbs 0
      else
        let d := 200
        let l : Int := top * (2 ^ d : Nat) + fxLog2 d y 0
        if 0 ≤ l then
          let (r, k) := cutMag l.toNat (-(d : Int))
          withinOne ftz false (sfuChoice 3 n m e) r k
        else
          let (r, k) := cutMag ((-l).toNat - 1) (-(d : Int))
          withinOne ftz true (sfuChoice 3 n m e) r k

/-- TANH, from 2^(2|x| / ln 2). -/
def sfuTanh (ftz : Bool) (a : Val) : Coded :=
  let f := Fmt.spec .fp32
  match a with
  | .nan => ⟨f.nanCode, .none⟩
  | .inf n => withinOne ftz n (sfuChoice 4 n 1 1000) 1 0
  | .fin n m e =>
    if m = 0 then ⟨f.signCode n, .none⟩
    else
      let pick := sfuChoice 4 n m e
      let top := (Nat.log2 m : Int) + e
      if top < -60 then
        let (r, k) := cutMag (m * 2 ^ 64 - 1) (e - 64)
        withinOne ftz n pick r k
      else if 7 ≤ top then
        let (r, k) := cutMag (2 ^ 100 - 1) (-100)
        withinOne ftz n pick r k
      else
        let x := 2 * fxOf m e * fxOne / fxLn2
        let whole := x / fxOne
        let ex := fxExp (x % fxOne * fxLn2 / fxOne) * 2 ^ whole
        let (r, k) := cutMag ((ex - fxOne) * fxOne / (ex + fxOne)) (-(fxBits : Int))
        withinOne ftz n pick r k

end Sys2Proof.Machine
end

