-- ==== Sys2Proof/Machine/Elem.lean ====
section
/-! DEFINITION. The element-program language (07_groom_units.md R164 to R167): reading operands, computing each opcode
with its one rounding, writing destinations, and running a program over one element. -/

namespace Sys2Proof.Machine

/-- A fresh element: every V register reads +0 (R164), no output written. -/
def Elem.fresh (ins : List (Option Val)) (consts : List Nat) (k0 index step rowstep bc1 bc2 lane seed tensor
    keyIndex : Nat) (acc : Kv Nat) (fl : Fl) : Elem :=
  { v := List.replicate 16 Val.zero, ins, outs := List.replicate 4 none, consts, k0, index, step, rowstep, bc1, bc2,
    lane, seed, tensor, keyIndex, acc, fl }

/-- Rounds to FP32 without touching flags: INDEX, STEP and ROWSTEP are presented so (R165). -/
def presentFp32 (n : Nat) : Val := fp32 (roundFp32 false (Val.ofNat n)).code

/-- The value of a source operand (Table 07-3). -/
def Elem.src (x : Elem) (code : Nat) : Val :=
  if code < 16 then x.v.getD code Val.zero
  else if code = 16 then fp32 x.k0
  else if code < 48 then fp32 (x.consts.getD (code - 16) 0)
  else if code < 52 then (x.ins.getD (code - 48) none).getD Val.zero
  else if code < 56 then (x.outs.getD (code - 52) none).getD Val.zero
  else if code = 56 then Val.zero
  else if code = 57 then Val.one
  else if code = 58 then presentFp32 x.index
  else if code = 59 then presentFp32 x.step
  else if code = 60 then presentFp32 x.rowstep
  else if code = 61 then fp32 x.bc1
  else if code = 62 then fp32 x.bc2
  else Val.ofNat x.lane

/-- An operand as the instruction reads it: with FTZ a magnitude below 2^−126 reads as zero of its sign (R115). -/
def Elem.opd (x : Elem) (ftz : Bool) (code : Nat) : Val :=
  if ftz then (x.src code).flushIn (Fmt.spec .fp32) else x.src code

/-- Operand A, negated exactly when the instruction says NEGA (Table 07-2). -/
def Elem.opdA (x : Elem) (i : ElemInstr) : Val :=
  if i.nega then (x.opd i.ftz i.a).neg else x.opd i.ftz i.a

/-- Rounds an instruction's exact result to FP32, or with WIDE to 39 fraction bits (R165), in IEEE mode. -/
def roundInstr (ftz wide : Bool) (v : Val) : Val × Fl :=
  let f := if wide then Fmt.tail48 else Fmt.fp32
  let r := f.spec.round .ieee ftz .nearest v
  (f.decode r.code, r.fl)

/-- Writes a result: V0–V15 or OUT0–OUT3 (Table 07-4). -/
def Elem.put (x : Elem) (dst : Nat) (v : Val) : Elem :=
  if dst < 16 then { x with v := x.v.set dst v }
  else if dst < 20 then { x with outs := x.outs.set (dst - 16) (some v) }
  else x

/-- Records flags of an operation. -/
def Elem.flag (x : Elem) (f : Fl) : Elem := { x with fl := x.fl.join f }

/-- Rounds `r` (exact value and INV), writes it and records the flags. -/
def Elem.finish (x : Elem) (i : ElemInstr) (r : ValInv) (extra : Fl) : Elem :=
  let q := roundInstr i.ftz i.wide r.1
  (x.put i.dst q.1).flag ((Fl.invalid r.2).join (extra.join q.2))

/-- Writes a coded FP32 result of a special function. -/
def Elem.finishCode (x : Elem) (i : ElemInstr) (r : Coded) : Elem := (x.put i.dst (fp32 r.code)).flag r.fl

/-- SIGN: +1, −1, or A when A is zero or NaN (Table 07-5). -/
def Val.signum (a : Val) : Val :=
  if a.isNan || a.isZero then a else .fin a.isNeg 1 0

/-- A comparison's result: 1.0 or +0 (R166). -/
def boolVal (b : Bool) : Val := if b then Val.one else Val.zero

/-- CVT and SRND (R167): round to the format with its default overflow mode and keep the rounded value. -/
def Elem.convert (x : Elem) (i : ElemInstr) (rnd : Rnd) : Elem :=
  match Fmt.ofCode (i.b % 16) with
  | none => x
  | some f =>
    let r := f.round f.defaultOvf i.ftz rnd (x.opdA i)
    (x.put i.dst (f.decode r.code)).flag r.fl

/-- NACC (R167): accumulator k of this lane plus the exact product, rounded once to FP64; with FTZ a result below FP32's
smallest normal is written as zero (R115). -/
def Elem.accumulate (x : Elem) (i : ElemInstr) : Elem :=
  let key := x.lane * 4 + (i.dst - 20)
  let r := (x.opdA i).fma (x.opd i.ftz i.b) (fp64 (kvGetD x.acc key 0))
  let flushed := i.ftz && r.1.subnormalIn (Fmt.spec .fp32)
  let v := if flushed then r.1.flushIn (Fmt.spec .fp32) else r.1
  let q := roundFp64 v
  { x with acc := kvSet x.acc key q.code }.flag ((Fl.invalid r.2).join (q.fl.join { inx := flushed }))

/-- One instruction on one element (R165 to R167). END changes nothing here: what ends with it is the run. -/
def Elem.exec (x : Elem) (i : ElemInstr) : Elem :=
  let a := x.opdA i
  let b := x.opd i.ftz i.b
  let c := x.opd i.ftz i.c
  match i.op with
  | .eEnd => x
  | .mov => x.finish i (a, false) .none
  | .add => x.finish i (a.add b) .none
  | .sub => x.finish i (a.sub b) .none
  | .mul => x.finish i (a.mul b) .none
  | .fma => x.finish i (a.fma b c) .none
  | .fms => x.finish i (a.neg.fma b c) .none
  | .div => let q := a.div b; x.finish i (q.1, q.2.1) { ovf := q.2.2 }
  | .recip => x.finishCode i (sfuRecip i.ftz a)
  | .sqrt => x.finish i a.sqrt .none
  | .rsqrt => x.finishCode i (sfuRsqrt i.ftz a)
  | .exp2 => x.finishCode i (sfuExp2 i.ftz a)
  | .log2 => x.finishCode i (sfuLog2 i.ftz a)
  | .tanh => x.finishCode i (sfuTanh i.ftz a)
  | .max => x.finish i (a.max b, false) .none
  | .min => x.finish i (a.min b, false) .none
  | .abs => x.finish i (a.abs, false) .none
  | .neg => x.finish i (a.neg, false) .none
  | .sign => x.finish i (a.signum, false) .none
  | .clamp => x.finish i ((a.max b).min c, false) .none
  | .cmplt => x.finish i (boolVal (a.ltB b), false) .none
  | .cmpeq => x.finish i (boolVal (a.eqB b), false) .none
  | .sel => x.finish i (if !a.isNan && !a.isZero then b else c, false) .none
  | .cvt => x.convert i .nearest
  | .srnd => x.convert i (.srnd (srndBits x.seed x.tensor x.keyIndex x.step))
  | .nacc => x.accumulate i

/-- A program on one element, from its first instruction to END, with no branches (R164). -/
def Elem.run (x : Elem) (prog : List ElemInstr) : Elem := prog.foldl Elem.exec x

/-- Reads an instruction word (Table 07-2); reserved opcodes give none (R168). -/
def ElemInstr.ofWord (w : Nat) : Option ElemInstr :=
  let op : Option ElemOp := match w / 2 ^ 26 % 64 with
    | 0 => some .eEnd | 1 => some .mov | 2 => some .add | 3 => some .sub | 4 => some .mul | 5 => some .fma
    | 6 => some .fms | 7 => some .div | 8 => some .recip | 9 => some .sqrt | 10 => some .rsqrt | 11 => some .exp2
    | 12 => some .log2 | 13 => some .tanh | 14 => some .max | 15 => some .min | 16 => some .abs | 17 => some .neg
    | 18 => some .sign | 19 => some .clamp | 20 => some .cmplt | 21 => some .cmpeq | 22 => some .sel | 23 => some .cvt
    | 24 => some .srnd | 25 => some .nacc | _ => none
  op.map (fun o => ⟨o, w / 2 ^ 21 % 32, w / 2 ^ 15 % 64, w / 2 ^ 9 % 64, w / 2 ^ 3 % 64,
    decide (w % 2 = 1), decide (w / 2 % 2 = 1), decide (w / 4 % 2 = 1)⟩)

/-- How many source operands an opcode uses (Table 07-5). -/
def ElemOp.arity : ElemOp → Nat
  | .eEnd => 0
  | .mov | .recip | .sqrt | .rsqrt | .exp2 | .log2 | .tanh | .abs | .neg | .sign | .cvt | .srnd => 1
  | .add | .sub | .mul | .div | .max | .min | .cmplt | .cmpeq | .nacc => 2
  | .fma | .fms | .clamp | .sel => 3

/-- May the opcode carry WIDE (R165)? -/
def ElemOp.mayWide : ElemOp → Bool
  | .mov | .add | .sub | .fma | .fms | .neg | .abs | .max | .min => true
  | _ => false

/-- The special functions of Table 03-1. -/
def ElemOp.special : ElemOp → Bool
  | .div | .recip | .sqrt | .rsqrt | .exp2 | .log2 | .tanh => true
  | _ => false

/-- The streams a program may name (R168). -/
structure Streams where
  ins : List Bool
  outs : List Bool
  wideOk : Bool
deriving DecidableEq, Repr

/-- May this instruction read source code `c`, given the outputs written before it (R168)? -/
def Streams.readOk (s : Streams) (written : List Nat) (c : Nat) : Bool :=
  if 48 ≤ c && c < 52 then s.ins.getD (c - 48) false
  else if 52 ≤ c && c < 56 then written.contains (c - 52)
  else true

/-- Is one instruction acceptable (R168), with `written` the outputs written before it? -/
def Streams.instrOk (s : Streams) (written : List Nat) (i : ElemInstr) : Bool :=
  let n := i.op.arity
  let isCvt := i.op == .cvt || i.op == .srnd
  let fieldsOk := (decide (1 ≤ n) || (i.a == 0 && !i.nega && i.dst == 0 && !i.ftz))
    && (decide (2 ≤ n) || isCvt || i.b == 0) && (decide (3 ≤ n) || i.c == 0)
  let dstOk := if i.op == .nacc then decide (20 ≤ i.dst) && decide (i.dst < 24)
    else decide (i.dst < 16) || (decide (i.dst < 20) && s.outs.getD (i.dst - 16) false) || i.op == .eEnd
  let fmtOk := !isCvt || (decide (i.b < 13) && i.b != 10 && i.b != 12)
  let readsOk := (decide (n < 1) || s.readOk written i.a) && (decide (n < 2) || s.readOk written i.b)
    && (decide (n < 3) || s.readOk written i.c)
  let onceOk := !(decide (16 ≤ i.dst) && decide (i.dst < 20) && i.op != .nacc && i.op != .eEnd
    && written.contains (i.dst - 16))
  fieldsOk && dstOk && fmtOk && readsOk && onceOk && (!i.wide || (s.wideOk && i.op.mayWide))

/-- The outputs written by the instructions, checking each (R168): none where one is refused. -/
def Streams.check (s : Streams) : List Nat → List ElemInstr → Option (List Nat)
  | w, [] => some w
  | w, i :: r =>
    if s.instrOk w i then
      s.check (if decide (16 ≤ i.dst) && decide (i.dst < 20) && i.op != .nacc && i.op != .eEnd
        then (i.dst - 16) :: w else w) r
    else none

/-- END is the last instruction and no other (R164). -/
def endPlaced : List ElemInstr → Bool
  | [] => false
  | [i] => i.op == .eEnd
  | i :: r => i.op != .eEnd && endPlaced r

/-- Is the program acceptable to proof (R168)? -/
def Streams.progOk (s : Streams) (p : List ElemInstr) : Bool :=
  endPlaced p && (match s.check [] p with
    | none => false
    | some w => (List.range 4).all (fun k => !s.outs.getD k false || w.contains k))

/-- Does the program read any of K1 to K31 (R494)? -/
def readsConst (p : List ElemInstr) : Bool :=
  p.any (fun i => (decide (1 ≤ i.op.arity) && decide (17 ≤ i.a) && decide (i.a < 48))
    || (decide (2 ≤ i.op.arity) && decide (17 ≤ i.b) && decide (i.b < 48))
    || (decide (3 ≤ i.op.arity) && decide (17 ≤ i.c) && decide (i.c < 48)))

/-- An exact result rounded once in the precision of `f`, with the flags so far. -/
def scalarRound (f : FloatSpec) (fl : Fl) (v : ValInv) : Val × Fl :=
  let r := f.round .ieee false .nearest v.1
  (f.decode r.code, fl.join ((Fl.invalid v.2).join r.fl))

/-- One pass of the bias-correction loop of R181 over the remaining bits of t, with the flags of its roundings (R124). -/
def biasPow (f : FloatSpec) (b : Val) (t : Nat) : Nat → Val × Fl → Val × Fl
  | 0, p => p
  | bit + 1, p =>
    let sq := scalarRound f p.2 (p.1.mul p.1)
    biasPow f b t bit (if t / 2 ^ bit % 2 = 1 then scalarRound f sq.2 (sq.1.mul b) else sq)

/-- The bias-correction factor of R181 in the precision of `f`, as an FP32 code with its flags. -/
def biasFactor (f : FloatSpec) (b : Val) (t : Nat) : Coded :=
  if t = 0 then ⟨0x3F800000, .none⟩
  else
    let p := biasPow f b t 32 (Val.one, .none)
    let d := scalarRound f p.2 (Val.one.sub p.1)
    let q := Val.one.div d.1
    let x := scalarRound f (d.2.join { ovf := q.2.2 }) (q.1, q.2.1)
    let r := roundFp32 false x.1
    ⟨r.code, x.2.join r.fl⟩

/-- BC factor of a step: FP64 on the scalar side, t = (STEP − BC_ORIGIN + 1) mod 2^32 (R181). -/
def stepBias (b64 step origin : Nat) : Coded :=
  biasFactor (Fmt.spec .fp64) (fp64 b64) ((step + 2 ^ 32 - origin % 2 ^ 32 + 1) % 2 ^ 32)

/-- BC factor of a row: FP32, with b rounded first to FP32 and t = ROWSTEP (R181). -/
def rowBias (b64 rowstep : Nat) : Coded :=
  let b := roundFp32 false (fp64 b64)
  let r := biasFactor (Fmt.spec .fp32) (fp32 b.code) rowstep
  ⟨r.code, b.fl.join r.fl⟩

end Sys2Proof.Machine
end

