-- ==== Sys2Proof/Machine/Kernels.lean ====
section
/-! DEFINITION. What each kernel computes (03_cores.md R74 to R93, except the attention kernel and the kernels that reach
device memory), over a core's own SRAM given as a reading function: operands by rows with pitch, transposed reads,
fixed accumulation orders, output rounding and packing. A kernel's effect is a list of byte writes to its SRAM, the
flags of its matrix and vector paths, and the poisoned words it read (R97). -/

namespace Sys2Proof.Machine

/-- Reads a byte of the core's SRAM: its value and whether its word is poisoned. -/
abbrev SramRead := Nat → Byte × Bool

/-- What a kernel leaves: writes in order, flags of the two paths. -/
structure KResult where
  writes : List (Nat × Byte)
  mfl : Fl
  vfl : Fl
deriving DecidableEq, Repr

/-- What a kernel draws on beside its operands (R83, R84, R87): rank, constants in force, step number, step size, bias
factors and run seed. -/
structure KEnv where
  rank : Nat
  consts : List Nat
  k0 : Nat
  step : Nat
  bc1 : Nat
  bc2 : Nat
  seed : Nat
deriving DecidableEq, Repr

/-- An operand as a kernel writes it: TRANS says how an operand is read (Table 03-3), and a written one ignores it (DESIGN CHOICE). -/
def Operand.flat (o : Operand) : Operand := { o with trans := false }

/-- The address of an operand for a rank (R80). -/
def Operand.base (o : Operand) (rank : Nat) : Nat := ((o.addr : Int) + rank * o.rankStride).toNat

/-- The format an operand names, FP32 where the code is none (proof refuses those). -/
def Operand.format (o : Operand) : Fmt := (Fmt.ofCode o.fmt).getD .fp32

/-- `n` bytes from an address, with whether any lies in a poisoned word. -/
def readRun (rd : SramRead) (a : Nat) : Nat → List Byte × Bool
  | 0 => ([], false)
  | n + 1 => let b := rd a; let r := readRun rd (a + 1) n; (b.1 :: r.1, b.2 || r.2)

/-- The code of element `c` of a row at byte `a`, two 4-bit elements to a byte (R101), with poison. -/
def readCode (rd : SramRead) (f : Fmt) (a c : Nat) : Nat × Bool :=
  if f.bits = 4 then
    let b := rd (a + c / 2)
    (if c % 2 = 0 then b.1.toNat % 16 else b.1.toNat / 16, b.2)
  else
    let r := readRun rd (a + c * (f.bits / 8)) (f.bits / 8)
    (leNat r.1, r.2)

/-- The value of element (i, j) of an operand as the kernel sees it, transposed when TRANS is set (R79). -/
def readElem (rd : SramRead) (o : Operand) (rank : Nat) (ftz : Bool) (i j : Nat) : Val × Bool :=
  let (r, c) := if o.trans then (j, i) else (i, j)
  let q := readCode rd o.format (o.base rank + r * o.pitch) c
  (o.format.decodeFtz ftz q.1, q.2)

/-- An output element: its code, or the mark of a poisoned dependence. -/
abbrev OutElem := Option Nat

/-- The code that stands for a poisoned output: NaN, or zero for integers and FP4 (R97). -/
def Fmt.poisonCode (f : Fmt) : Nat := if f.isFloat then f.spec.nanCode else 0

/-- The code written for an output element. -/
def Fmt.outCode (f : Fmt) (x : OutElem) : Nat := x.getD f.poisonCode

/-- Bytes of a row of codes, packed by R101. -/
def packRow (f : Fmt) : List Nat → List Byte
  | [] => []
  | c :: r =>
    if f.bits = 4 then
      match r with
      | [] => [BitVec.ofNat 8 (c % 16)]
      | d :: r' => BitVec.ofNat 8 (c % 16 + 16 * (d % 16)) :: packRow f r'
    else leBytes (f.bits / 8) c ++ packRow f r

/-- Byte writes from address `a` on. -/
def writesAt : Nat → List Byte → List (Nat × Byte)
  | _, [] => []
  | a, b :: r => (a, b) :: writesAt (a + 1) r

/-- Writes a row of output elements of an operand. -/
def rowWrites (o : Operand) (rank row : Nat) (xs : List OutElem) : List (Nat × Byte) :=
  writesAt (o.base rank + row * o.pitch) (packRow o.format (xs.map o.format.outCode))

/-- The rounding a descriptor selects for output element `j` (R83, R122). -/
def Kernel.rnd (k : Kernel) (env : KEnv) (j : Nat) : Rnd :=
  if k.srnd then .srnd (srndBits env.seed k.tensor (env.rank * 2 ^ 32 + j) env.step) else .nearest

/-- Rounds an exact result to the output format under the descriptor (R110 to R115). -/
def Kernel.roundOut (k : Kernel) (env : KEnv) (o : Operand) (j : Nat) (v : Val) : Coded :=
  o.format.round (o.format.ovfOf k.ovfMode) k.ftz (k.rnd env j) v

/-- Adds to an INT32 accumulator, which saturates and sets OVF (R85), and INX as every saturation does (Table 04-8). -/
def accInt (acc : Int) (x : Int) : Int × Fl :=
  let s := acc + x
  if s < -2147483648 then (-2147483648, { ovf := true, inx := true })
  else if 2147483647 < s then (2147483647, { ovf := true, inx := true })
  else (s, .none)

/-- The exact sum of a list of values; where one of them is NaN the sum is NaN without INV (R108). -/
def exactSum : List Val → ValInv
  | [] => (Val.zero, false)
  | v :: r =>
    if (v :: r).any Val.isNan then (.nan, false)
    else r.foldl (fun s x => let t := s.1.add x; (t.1, s.2 || t.2)) (v, false)

/-- Exact sum of a group of products (R85): each product is an operation of its own (R117). -/
def sumProducts (ps : List (Val × Val)) : ValInv :=
  let xs := ps.map (fun p => p.1.mul p.2)
  let s := exactSum (xs.map (·.1))
  (s.1, s.2 || xs.any (·.2))

/-- Adds a group's exact 4-term value into the accumulator with one rounding (R85, R117). -/
def accGroup (ftz integer : Bool) (acc : Val) (ps : List (Val × Val)) : Val × Fl :=
  let s := sumProducts ps
  if integer then
    let r := accInt acc.toInt s.1.toInt
    (Val.ofInt r.1, r.2)
  else
    let t := acc.add s.1
    let q := roundFp32 ftz t.1
    (fp32 q.code, (Fl.invalid (s.2 || t.2)).join q.fl)

/-- Pads a list of products to a multiple of four with zeros and accumulates in groups (R85). -/
def accAll (ftz integer : Bool) : Nat → Val → Fl → List (Val × Val) → Val × Fl
  | 0, acc, fl, _ => (acc, fl)
  | n + 1, acc, fl, ps =>
    if ps.isEmpty then (acc, fl)
    else
      let g := (ps ++ List.replicate 3 (Val.zero, Val.zero)).take 4
      let r := accGroup ftz integer acc g
      accAll ftz integer n r.1 (fl.join r.2) (ps.drop 4)

/-- The scales a descriptor names (R83, R118, R119): the combined scale, whether one is invalid, whether one is poisoned. -/
def readScales (rd : SramRead) (off : Option Nat) : Val × Bool × Bool :=
  match off with
  | none => (Val.one, false, false)
  | some o =>
    let a := readRun rd o 4
    let b := readRun rd (o + 4) 4
    let c := readRun rd (o + 8) 4
    if a.2 || b.2 || c.2 then (Val.one, false, true)
    else match combinedScale (leNat a.1) (leNat b.1) (leNat c.1) with
      | none => (Val.one, true, false)
      | some q => (q, false, false)

/-- The epilogue of one element (R119, R496): the FP32 value as IN0, the program, OUT0 rounded to C's format. -/
def runEpilogue (k : Kernel) (env : KEnv) (j : Nat) (v : Val) : Coded :=
  let x := (Elem.fresh [some v, none, none, none] env.consts env.k0 j env.step 0 env.bc1 env.bc2 (j % 32) env.seed
    k.tensor (env.rank * 2 ^ 32 + j) [] .none).run k.prog
  let r := k.roundOut env k.c j ((x.outs.getD 0 none).getD Val.zero)
  ⟨r.code, x.fl.join r.fl⟩

/-- The products of one output element, each operand with its poison. -/
abbrev Products := List ((Val × Bool) × (Val × Bool))

/-- The final accumulator of one output element (R74, R85): its value, the flags of the accumulation from the start `a0`, and whether
it depends on a poisoned word. -/
def matAcc (k : Kernel) (integer : Bool) (a0 : Val × Fl × Bool) (ps : Products) : Val × Fl × Bool :=
  let acc := accAll k.ftz integer (ps.length + 1) a0.1 a0.2.1 (ps.map (fun p => (p.1.1, p.2.1)))
  (acc.1, acc.2, a0.2.2 || ps.any (fun p => p.1.2 || p.2.2))

/-- One output element of MATMUL or CONV from its accumulator (R83, R85, R119): code or poison, matrix flags, vector flags; `qp` says that
a scale is poisoned. -/
def matElem (k : Kernel) (env : KEnv) (q : Val) (qp : Bool) (acc : Val × Fl × Bool) (d : Option (Val × Bool)) (j : Nat) :
    OutElem × Fl × Fl :=
  if qp || acc.2.2 || (d.map (·.2)).getD false then (none, acc.2.1, .none)
  else
    let m := acc.1.mul q
    let s := match d with
      | none => m
      | some dv => let t := m.1.add dv.1; (t.1, m.2 || t.2)
    let fl0 := acc.2.1.join (Fl.invalid s.2)
    if k.prog.isEmpty then
      let r := k.roundOut env k.c j s.1
      (some r.code, fl0.join r.fl, .none)
    else
      let r32 := roundFp32 k.ftz s.1
      let e := runEpilogue k env j (fp32 r32.code)
      (some e.code, fl0.join r32.fl, e.fl)

/-- Gathers the elements of one output row. -/
def gatherRow (k : Kernel) (row : Nat) (env : KEnv) (xs : List (OutElem × Fl × Fl)) : KResult :=
  ⟨rowWrites k.c env.rank row (xs.map (·.1)), xs.foldl (fun f x => f.join x.2.1) .none,
    xs.foldl (fun f x => f.join x.2.2) .none⟩

/-- Two parts of a kernel's result in order. -/
def KResult.andThen (a b : KResult) : KResult := ⟨a.writes ++ b.writes, a.mfl.join b.mfl, a.vfl.join b.vfl⟩

/-- No effect. -/
def KResult.empty : KResult := ⟨[], .none, .none⟩

/-- Runs `f` for every row below `n`, in order. -/
def forRows (n : Nat) (f : Nat → KResult) : KResult :=
  (List.range n).foldl (fun r i => r.andThen (f i)) .empty

/-- Every element of the output takes NaN or 0, and INV is set: an invalid scale (R118). -/
def invalidScale (k : Kernel) (env : KEnv) (rows cols : Nat) : KResult :=
  let w := forRows rows (fun m => ⟨rowWrites k.c env.rank m (List.replicate cols none), .none, .none⟩)
  { w with mfl := .invalid true }

/-- The starting value of an accumulator, with its flags and poison: +0, or with ACCUM the existing C as a value of FP32 or INT32 (R85),
converted by Table 04-6 where its format is no narrower one of the same kind. -/
def startAcc (rd : SramRead) (k : Kernel) (env : KEnv) (m n : Nat) (integer : Bool) : Val × Fl × Bool :=
  if k.accum then
    let c := readElem rd k.c.flat env.rank k.ftz m n
    let f := if integer then Fmt.int32 else Fmt.fp32
    let q := f.round .ieee k.ftz .nearest c.1
    (f.decode q.code, q.fl, c.2)
  else (Val.zero, .none, false)

/-- The D operand of element (m, n): absent, or FP32, broadcast over rows when the parameter says so (Table 03-4). -/
def readD (rd : SramRead) (k : Kernel) (env : KEnv) (bcast : Bool) (m n : Nat) : Option (Val × Bool) :=
  match k.d.space with
  | .none => none
  | _ => some (readElem rd k.d env.rank k.ftz (if bcast then 0 else m) n)

/-- An element of operand B, a 4-bit code expanded exactly to 8 bits first (R75, R116). -/
def readB (rd : SramRead) (k : Kernel) (env : KEnv) (i j : Nat) : Val × Bool :=
  if k.b.format.bits = 4 then
    let (r, c) := if k.b.trans then (j, i) else (i, j)
    let q := readCode rd k.b.format (k.b.base env.rank + r * k.b.pitch) c
    let e := expand4 k.b.format q.1
    (e.1.decodeFtz k.ftz e.2, q.2)
  else readElem rd k.b env.rank k.ftz i j

/-- The rows and columns of a matrix-path kernel's output, the products of each element and whether D stands once for all rows. -/
structure MatForm where
  rows : Nat
  cols : Nat
  prods : Nat → Nat → Products
  bcast : Bool

/-- The accumulator of output element (m, n). -/
def MatForm.acc (x : MatForm) (rd : SramRead) (k : Kernel) (env : KEnv) (m n : Nat) : Val × Fl × Bool :=
  matAcc k (!k.a.format.isFloat) (startAcc rd k env m n (!k.a.format.isFloat)) (x.prods m n)

/-- What a matrix-path kernel writes and flags (R83, R85, R118). -/
def MatForm.run (x : MatForm) (rd : SramRead) (k : Kernel) (env : KEnv) : KResult :=
  let sc := readScales rd k.scaleOff
  if sc.2.1 then invalidScale k env x.rows x.cols
  else
    forRows x.rows (fun m => gatherRow k m env ((List.range x.cols).map (fun n =>
      matElem k env sc.1 sc.2.2 (x.acc rd k env m n) (readD rd k env x.bcast m n) (m * x.cols + n))))

/-- The place of output element (m, n) of `cols` columns in a core's accumulator files (R74): cell MCj holds columns 4j to 4j + 3 of each
16-column group. The order of the 4,096 entries of a cell's file, row by row and group by group and from the first again where there
are more, is a DESIGN CHOICE. -/
def accSlot (cols m n : Nat) : Nat :=
  n % 16 / 4 * 16384 + 4 * (((m * ((cols + 15) / 16) + n / 16) * 4 + n % 4) % 4096)

/-- What the accumulator files hold after a matrix-path kernel: each element's final FP32 or INT32 accumulator, NaN or 0 where it depends on a
poisoned word. With an invalid scale nothing is accumulated (DESIGN CHOICE). -/
def MatForm.accWrites (x : MatForm) (rd : SramRead) (k : Kernel) (env : KEnv) : List (Nat × Byte) :=
  let f := if k.a.format.isFloat then Fmt.fp32 else Fmt.int32
  if (readScales rd k.scaleOff).2.1 then []
  else (List.range x.rows).flatMap (fun m => (List.range x.cols).flatMap (fun n =>
    let a := x.acc rd k env m n
    writesAt (accSlot x.cols m n) (leBytes 4 (if a.2.2 then f.poisonCode else (f.round .ieee false .nearest a.1).code))))

/-- MATMUL (R85): D0 = M, D1 = N, D2 = K. -/
def matmulForm (rd : SramRead) (k : Kernel) (env : KEnv) : MatForm :=
  ⟨k.d0, k.d1, fun m n => (List.range k.d2).map (fun kk => (readElem rd k.a env.rank k.ftz m kk, readB rd k env kk n)),
    (k.param.getD 0 0).toNat % 2 == 1⟩

/-- MATMUL's result (R85). -/
def kMatmul (rd : SramRead) (k : Kernel) (env : KEnv) : KResult := (matmulForm rd k env).run rd k env

/-- A parameter byte. -/
def Kernel.p8 (k : Kernel) (i : Nat) : Nat := (k.param.getD i 0).toNat

/-- A 16-bit parameter. -/
def Kernel.p16 (k : Kernel) (i : Nat) : Nat := k.p8 i + 256 * k.p8 (i + 1)

/-- The input pixel, as a row of A, that a tap of CONV reads for output pixel `m`; none outside the image. -/
def convPixel (k : Kernel) (m ky kx : Nat) : Option Nat :=
  let ih := k.p16 12
  let iw := k.p16 14
  let y : Int := (m / k.d2 % k.d1 * k.p8 6 + ky * k.p8 8 : Nat) - (k.p8 10 : Int)
  let x : Int := (m % k.d2 * k.p8 7 + kx * k.p8 9 : Nat) - (k.p8 11 : Int)
  if 0 ≤ y ∧ y < ih ∧ 0 ≤ x ∧ x < iw then some ((m / (k.d1 * k.d2) * ih + y.toNat) * iw + x.toNat) else none

/-- One tap of CONV: the products of one (ky, kx) over the input channels, padded to a multiple of four (R86); an input
position outside the image reads as zero. -/
def convTap (rd : SramRead) (k : Kernel) (env : KEnv) (m oc ky kx : Nat) : Products :=
  let ic := k.p16 0
  let ps := (List.range ic).map (fun c =>
    ((match convPixel k m ky kx with | some row => readElem rd k.a env.rank k.ftz row c | none => (Val.zero, false)),
      readB rd k env oc ((ky * k.p8 5 + kx) * ic + c)))
  ps ++ List.replicate ((4 - ic % 4) % 4) ((Val.zero, false), (Val.zero, false))

/-- CONV (R86): pixels are rows of A and C, output channels are rows of B; K runs over (ky, kx, ic), ic fastest. -/
def convForm (rd : SramRead) (k : Kernel) (env : KEnv) : MatForm :=
  ⟨k.d0 * k.d1 * k.d2, k.p16 2, fun m n => (List.range (k.p8 4)).flatMap (fun ky => (List.range (k.p8 5)).flatMap (fun kx =>
    convTap rd k env m n ky kx)), true⟩

/-- CONV's result (R86). -/
def kConv (rd : SramRead) (k : Kernel) (env : KEnv) : KResult := (convForm rd k env).run rd k env

/-- An operand reference held in PARAM (Table 03-4: IN3 and OUT1 of ELEMENT). -/
def operandOf (bs : List Byte) : Operand :=
  let addr := leNat (bs.take 6)
  let mode := (bs.getD 6 0).toNat
  let sp := mode / 32 % 4
  let stride := leNat ((bs.drop 12).take 4)
  { space := if sp = 0 then .sram else if sp = 1 then .device else if sp = 2 then .peer else .none
    addr := if sp = 2 then addr % 2 ^ 32 else addr
    peer := if sp = 2 then addr / 2 ^ 32 else 0
    fmt := mode % 16
    trans := decide (mode / 16 % 2 = 1)
    pitch := leNat ((bs.drop 8).take 4)
    rankStride := if stride < 2 ^ 31 then (stride : Int) else (stride : Int) - 2 ^ 32 }

/-- The input streams IN0 to IN3 of an ELEMENT kernel (R87). -/
def Kernel.inputs (k : Kernel) : List Operand := [k.a, k.b, k.d, operandOf (k.param.take 16)]

/-- The output streams OUT0 and OUT1 (R87). -/
def Kernel.out1 (k : Kernel) : Operand := operandOf ((k.param.drop 16).take 16)

/-- Does the program hold a NACC? -/
def hasNacc (p : List ElemInstr) : Bool := p.any (fun i => i.op == .nacc)

/-- The element `i` of an ELEMENT kernel before its program runs, and whether an input word was poisoned. With FLAGS.FTZ an
input that is subnormal in its stream's format reads as zero (04_number_formats.md R115). -/
def elemLoad (rd : SramRead) (k : Kernel) (env : KEnv) (i : Nat) (acc : Kv Nat) (fl : Fl) : Elem × Bool :=
  let ins := k.inputs.map (fun o => match o.space with
    | .none => (none, false)
    | _ => let q := readCode rd o.format (o.base env.rank) i
           (some (o.format.decodeFtz k.ftz q.1), q.2))
  (Elem.fresh (ins.map (·.1)) env.consts env.k0 i env.step 0 env.bc1 env.bc2 (i % 32) env.seed k.tensor
    (env.rank * 2 ^ 32 + i) acc fl, ins.any (·.2))

/-- A stream write of one element: whole bytes, or the half of a byte that a 4-bit element takes, the other half as it
was (`old`), or 0 in the last byte of an odd count (R101). -/
def streamWrite (o : Operand) (rank i count : Nat) (old : Byte) (code : Nat) : List (Nat × Byte) :=
  let f := o.format
  if f.bits = 4 then
    let v := if i % 2 = 0 then (code % 16) + (if i + 1 = count then 0 else old.toNat / 16 * 16)
      else old.toNat % 16 + 16 * (code % 16)
    [(o.base rank + i / 2, BitVec.ofNat 8 v)]
  else writesAt (o.base rank + i * (f.bits / 8)) (leBytes (f.bits / 8) code)

/-- The writes of one finished element: OUT0, and OUT1 where the program has no NACC (R87), with their flags. -/
def elemStore (rd : SramRead) (k : Kernel) (env : KEnv) (x : Elem) (poisoned : Bool) : List (Nat × Byte) × Fl :=
  let one (o : Operand) (n : Nat) : List (Nat × Byte) × Fl :=
    match o.space, x.outs.getD n none with
    | .none, _ => ([], .none)
    | _, none => ([], .none)
    | _, some v =>
      let r := k.roundOut env o x.index v
      let code := if poisoned then o.format.poisonCode else r.code
      (streamWrite o env.rank x.index k.d0 (rd (o.base env.rank + x.index / 2)).1 code,
        if poisoned then .none else r.fl)
  let a := one k.c 0
  let b := if hasNacc k.prog then ([], .none) else one k.out1 1
  (a.1 ++ b.1, a.2.join b.2)

/-- SRAM as a kernel that writes as it goes sees it: the writes made so far over what was there. A word stays poisoned until all four
of its bytes are written (R97). -/
def overlay (rd : SramRead) (ws : Kv Byte) : SramRead := fun a =>
  match kvGet? ws a with
  | some b => (b, (rd a).2 && !(List.range 4).all (fun i => (kvGet? ws (a / 4 * 4 + i)).isSome))
  | none => rd a

/-- Combines the accumulators of the lanes in ascending lane order, in FP64 (R87, R176). -/
def combineLanes (acc : Kv Nat) (lanes k : Nat) : Nat × Fl :=
  (List.range lanes).foldl (fun (r : Nat × Fl) lane =>
    let s := (fp64 r.1).add (fp64 (kvGetD acc (lane * 4 + k) 0))
    let q := roundFp64 s.1
    (q.code, r.2.join ((Fl.invalid s.2).join q.fl))) (0, .none)

/-- The accumulators after an element: those that the program's NACC name are NaN where an input was poisoned (R97). -/
def Elem.accAfter (x : Elem) (prog : List ElemInstr) (poisoned : Bool) : Kv Nat :=
  if poisoned then
    prog.foldl (fun a i => if i.op == .nacc then kvSet a (x.lane * 4 + (i.dst - 20)) (Fmt.spec .fp64).nanCode else a) x.acc
  else x.acc

/-- One element of an ELEMENT kernel from load to END. -/
def elemOne (rd : SramRead) (k : Kernel) (env : KEnv) (st : Kv Byte × Kv Nat × Fl × Bool) (i : Nat) :
    Kv Byte × Kv Nat × Fl × Bool :=
  let rd' := overlay rd st.1
  let l := elemLoad rd' k env i st.2.1 st.2.2.1
  let x := l.1.run k.prog
  let w := elemStore rd' k env x l.2
  (w.1.foldl (fun m p => kvSet m p.1 p.2) st.1, x.accAfter k.prog l.2, if l.2 then st.2.2.1 else x.fl.join w.2, st.2.2.2 || l.2)

/-- The norm accumulators written at the end of an ELEMENT kernel with NACC (R87). -/
def elemNorms (k : Kernel) (env : KEnv) (acc : Kv Nat) : List (Nat × Byte) × Fl :=
  if hasNacc k.prog then
    match k.out1.space with
    | .none => ([], .none)
    | _ =>
      let cs := (List.range 4).map (combineLanes acc 32)
      (writesAt (k.out1.base env.rank) (cs.flatMap (fun c => leBytes 8 c.1)),
        cs.foldl (fun f c => f.join c.2) .none)
  else ([], .none)

/-- ELEMENT (R87): elements in ascending index. -/
def kElement (rd : SramRead) (k : Kernel) (env : KEnv) : KResult :=
  let st := (List.range k.d0).foldl (elemOne rd k env) ([], [], .none, false)
  let n := elemNorms k env st.2.1
  ⟨st.1 ++ n.1, .none, st.2.2.1.join n.2⟩

/-- One lane's partial of SUM or SUMSQ: +0, then its elements in ascending order (R88). -/
def lanePartial (ftz integer sq : Bool) (xs : List Val) : Val × Fl :=
  xs.foldl (fun (st : Val × Fl) x =>
    if integer then
      let v := x.toInt
      let r := accInt st.1.toInt (if sq then v * v else v)
      (Val.ofInt r.1, st.2.join r.2)
    else
      let s := if sq then x.fma x st.1 else st.1.add x
      let q := roundFp32 ftz s.1
      (fp32 q.code, st.2.join ((Fl.invalid s.2).join q.fl))) (Val.zero, .none)

/-- Combines neighbours pairwise (R88). -/
def pairUp (ftz integer : Bool) : List (Val × Fl) → List (Val × Fl)
  | a :: b :: r =>
    (if integer then
      let t := accInt a.1.toInt b.1.toInt
      (Val.ofInt t.1, a.2.join (b.2.join t.2))
    else
      let s := a.1.add b.1
      let q := roundFp32 ftz s.1
      (fp32 q.code, a.2.join (b.2.join ((Fl.invalid s.2).join q.fl)))) :: pairUp ftz integer r
  | xs => xs

/-- The elements j, j + 32, … of a line. -/
def laneOf (xs : List Val) (lane : Nat) : List Val :=
  (List.range ((xs.length + 31 - lane) / 32)).map (fun i => xs.getD (lane + 32 * i) Val.zero)

/-- The result of REDUCE over one line (R88): OP 0 SUM, 1 SUMSQ, 2 MAX, 3 MIN, 4 AMAX. -/
def reduceLine (op : Nat) (ftz integer : Bool) (xs : List Val) : Val × Fl :=
  if xs.isEmpty then (Val.zero, .none)
  else if op ≤ 1 then
    let l0 := (List.range 32).map (fun lane => lanePartial ftz integer (op == 1) (laneOf xs lane))
    let l5 := pairUp ftz integer (pairUp ftz integer (pairUp ftz integer (pairUp ftz integer (pairUp ftz integer l0))))
    l5.getD 0 (Val.zero, .none)
  else if xs.any Val.isNan then (.nan, .none)
  else
    let ys := if op = 4 then xs.map Val.abs else xs
    match ys with
    | [] => (Val.zero, .none)
    | y :: r => (r.foldl (fun m x => if op = 3 then m.min x else m.max x) y, .none)

/-- REDUCE (R88): results stand one after another at C. -/
def kReduce (rd : SramRead) (k : Kernel) (env : KEnv) : KResult :=
  let byRow := k.p8 1 == 0
  let (lines, len) := if byRow then (k.d0, k.d1) else (k.d1, k.d0)
  let integer := !k.a.format.isFloat
  let xs : List (OutElem × Fl × Fl) := (List.range lines).map (fun l =>
    let es := (List.range len).map (fun j =>
      if byRow then readElem rd k.a env.rank k.ftz l j else readElem rd k.a env.rank k.ftz j l)
    if es.any (·.2) then (none, .none, .none)
    else
      let r := reduceLine (k.p8 0) k.ftz integer (es.map (·.1))
      let q := k.roundOut env k.c l r.1
      (some q.code, .none, r.2.join q.fl))
  gatherRow k 0 env xs

/-- TRANSPOSE (R93): bytes of the element size of A's format; a poisoned source element gives 0xFF bytes (R97). -/
def kTranspose (rd : SramRead) (k : Kernel) (env : KEnv) : KResult :=
  let sz := k.a.format.bits / 8
  forRows k.d0 (fun r => ⟨(List.range k.d1).flatMap (fun c =>
    let b := readRun rd (k.a.base env.rank + (if k.a.trans then c else r) * k.a.pitch + (if k.a.trans then r else c) * sz) sz
    writesAt (k.c.base env.rank + c * k.c.pitch + r * sz) (if b.2 then List.replicate sz 0xFF else b.1)), .none, .none⟩)

/-- Is candidate (v, c) better than (w, d): larger (or smaller), then the lower column (R91)? -/
def topBetter (small : Bool) (a b : Val × Nat) : Bool :=
  if small then a.1.ltB b.1 || (a.1.eqB b.1 && decide (a.2 < b.2))
  else b.1.ltB a.1 || (a.1.eqB b.1 && decide (a.2 < b.2))

/-- Inserts a candidate in order, best first. -/
def topInsert (small : Bool) (x : Val × Nat) : List (Val × Nat) → List (Val × Nat)
  | [] => [x]
  | y :: r => if topBetter small x y then x :: y :: r else y :: topInsert small x r

/-- The k best of a row, NaN never selected, the remaining places NaN with index −1 (R91). -/
def topRow (small : Bool) (k : Nat) (xs : List Val) : List (Val × Option Nat) :=
  let cs := ((List.range xs.length).map (fun i => (xs.getD i .nan, i))).filter (fun p => !p.1.isNan)
  let best := (cs.foldl (fun l x => topInsert small x l) []).take k
  best.map (fun p => (p.1, some p.2)) ++ List.replicate (k - best.length) (.nan, none)

/-- TOPK (R91): values to C, INT32 indices to D; a row with a poisoned element gives poisoned values and index 0 (R97). -/
def kTopk (rd : SramRead) (k : Kernel) (env : KEnv) : KResult :=
  let small := k.p8 0 % 2 == 1
  forRows k.d0 (fun r =>
    let es := (List.range k.d1).map (fun c => readElem rd k.a env.rank k.ftz r c)
    let bad := es.any (·.2)
    let best := topRow small k.d2 (es.map (·.1))
    let qs := (List.range k.d2).map (fun j => k.roundOut env k.c (r * k.d2 + j) (best.getD j (.nan, none)).1)
    let vals : List OutElem := qs.map (fun q => if bad then none else some q.code)
    let idx : List Nat := best.map (fun p => if bad then 0 else match p.2 with | some i => i | none => 0xFFFFFFFF)
    ⟨rowWrites k.c env.rank r vals ++ writesAt (k.d.base env.rank + r * k.d.pitch) (idx.flatMap (leBytes 4)), .none,
      if bad then .none else qs.foldl (fun f q => f.join q.fl) .none⟩)

/-- A SCAN partial (05_numeric_watch.md R130). -/
structure ScanPart where
  total : Nat
  zeros : Nat
  sats : Nat
  nonfin : Nat
  amax : Nat
deriving DecidableEq, Repr

/-- A magnitude rounded up to FP32, never below it: +∞ for one above FP32's largest finite value (R130, R134). -/
def roundUpFp32 (v : Val) : Nat :=
  match v with
  | .fin _ m e =>
    if m = 0 then 0
    else
      let f := Fmt.spec .fp32
      let emin : Int := 1 - f.bias
      let eTop : Int := (Nat.log2 m : Int) + e
      let ex := if eTop < emin then emin else eTop
      let (n, rem, _) := splitAt m e (ex - f.frac)
      min (f.pack ex (n + (if rem = 0 then 0 else 1))) f.infCode
  | _ => 0

/-- Would the conversion of `v` to the target clamp (R130)? -/
def wouldClamp (target : Fmt) (v : Val) : Bool :=
  if target.isFloat then
    let r := target.spec.round .sat false .nearest v
    decide (r.fl.sat ≠ 0)
  else decide ((target.roundInt .nearest v).fl.sat ≠ 0)

/-- One element into a SCAN partial (R130); `so` is the scale in force. -/
def ScanPart.add (p : ScanPart) (target : Fmt) (so : Val) (x : Val × Bool) : ScanPart :=
  if x.2 || !x.1.isFin then { p with total := p.total + 1, nonfin := p.nonfin + 1 }
  else
    { total := p.total + 1
      zeros := p.zeros + x.1.isZero.toNat
      sats := p.sats + (wouldClamp target (x.1.mul so).1).toNat
      nonfin := p.nonfin
      amax := max p.amax (roundUpFp32 x.1.abs) }

/-- The partial record's bytes, SCALE, ID, PENDING_SCALE and PREV_SCALE written as 0 (Table 05-1). -/
def ScanPart.bytes (p : ScanPart) (step : Nat) : List Byte :=
  leBytes 4 0 ++ leBytes 4 p.amax ++ leBytes 4 step ++ leBytes 4 0 ++ leBytes 8 p.total ++ leBytes 8 p.zeros
    ++ leBytes 8 p.sats ++ leBytes 8 p.nonfin ++ leBytes 16 0

/-- SCAN's partial over D0 elements of A (R129, R130). -/
def kScanPart (rd : SramRead) (k : Kernel) (env : KEnv) (target : Fmt) : ScanPart :=
  let so := match k.scaleOff with
    | none => Val.one
    | some o => fp32 (leNat (readRun rd (o + 8) 4).1)
  (List.range k.d0).foldl (fun p i =>
    let q := readCode rd k.a.format (k.a.base env.rank) i
    p.add target so (k.a.format.decodeFtz k.ftz q.1, q.2)) ⟨0, 0, 0, 0, 0⟩

/-- SCAN (R130): the partial record in the core's own SRAM at C. -/
def kScan (rd : SramRead) (k : Kernel) (env : KEnv) (target : Fmt) : KResult :=
  ⟨writesAt (k.c.base env.rank) ((kScanPart rd k env target).bytes env.step), .none, .none⟩

/-- PAGE_BYTES of a paged buffer's slots (09_attention.md R240). -/
def Kernel.pageBytes (k : Kernel) : Nat := (64 + 64 * k.b.format.rowBytes k.d2 + 64 * k.d.format.rowBytes k.d2 + 63) / 64 * 64

/-- The address ranges that an operand of `rows` rows of `cols` elements covers: (start, length) per row. -/
def Operand.extent (o : Operand) (rank rows cols : Nat) : List (Nat × Nat) :=
  let (r, c) := if o.trans then (cols, rows) else (rows, cols)
  (List.range r).map (fun i => (o.base rank + i * o.pitch, o.format.rowBytes c))

/-- The bytes of element (i, j) of an operand: start and length. -/
def Operand.elemRange (o : Operand) (rank i j : Nat) : Nat × Nat :=
  let r := if o.trans then j else i
  let c := if o.trans then i else j
  (o.base rank + r * o.pitch + c * o.format.bits / 8, (o.format.bits + 7) / 8)

/-- The ranges of SRAM that a kernel reads of its own-SRAM operands: operands absent or elsewhere give none, and rows and pixels that no
output needs are not read. COPY, GATHER and SCATTER meet their errors row by row (Mod.opdRead). -/
def Kernel.readExtent (k : Kernel) (rank : Nat) : List (Nat × Nat) :=
  let sr (o : Operand) (xs : List (Nat × Nat)) : List (Nat × Nat) := if o.space = .sram then xs else []
  let when_ (b : Bool) (xs : List (Nat × Nat)) : List (Nat × Nat) := if b then xs else []
  let stream (o : Operand) : List (Nat × Nat) := sr o [(o.base rank, o.format.rowBytes k.d0)]
  let scales : List (Nat × Nat) := match k.scaleOff with | some o => [(o, 12)] | none => []
  match k.op with
  | .matmul =>
    when_ (k.d0 != 0 && k.d1 != 0) (sr k.a (k.a.extent rank k.d0 k.d2) ++ sr k.b (k.b.extent rank k.d2 k.d1)
      ++ when_ k.accum (sr k.c (k.c.flat.extent rank k.d0 k.d1))
      ++ sr k.d (k.d.extent rank (if k.p8 0 % 2 = 1 then 1 else k.d0) k.d1)) ++ scales
  | .conv =>
    let rows := k.d0 * k.d1 * k.d2
    when_ (rows != 0 && k.p16 2 != 0) (sr k.a ((List.range rows).flatMap (fun m => (List.range (k.p8 4)).flatMap (fun ky =>
          (List.range (k.p8 5)).flatMap (fun kx => match convPixel k m ky kx with
            | some r => (List.range (k.p16 0)).map (fun c => k.a.elemRange rank r c)
            | none => []))))
      ++ sr k.b (k.b.extent rank (k.p16 2) (k.p8 4 * k.p8 5 * k.p16 0))
      ++ when_ k.accum (sr k.c (k.c.flat.extent rank rows (k.p16 2)))
      ++ sr k.d (k.d.extent rank 1 (k.p16 2))) ++ scales
  | .attn => []
  | .element => k.inputs.flatMap stream
  | .reduce => sr k.a (k.a.extent rank k.d0 k.d1)
  | .scan => stream k.a ++ (match k.scaleOff with | some o => [(o + 8, 4)] | none => [])
  | .gather | .scatter | .copy => []
  | .transpose => sr k.a (k.a.extent rank k.d0 k.d1)
  | .topk => sr k.a (k.a.extent rank k.d0 k.d1)

/-- Does any of the ranges hold the 4-byte word at offset `w × 4`? -/
def touchesWord (xs : List (Nat × Nat)) (w : Nat) : Bool :=
  xs.any (fun r => decide (0 < r.2) && decide (r.1 < 4 * w + 4) && decide (4 * w < r.1 + r.2))

end Sys2Proof.Machine
end

