-- ==== Sys2Proof/Machine/PlateParse.lean ====
section
/-! DEFINITION. Reading a plate image (02_plate_and_tick.md R38, R39 and the section layouts of every chapter): each section
as typed records beside their offsets. Reading is total; PlateCheck.lean says which images proof refuses. -/

namespace Sys2Proof.Machine

/-! ### Bytes -/

/-- Little-endian value of `n` bytes at offset `o`. -/
def bN (b : List Byte) (o n : Nat) : Nat := leNat ((b.drop o).take n)

/-- Are the `n` bytes at offset `o` all zero? -/
def zeroAt (b : List Byte) (o n : Nat) : Bool := ((b.drop o).take n).all (fun x => x == 0)

/-- A 32-bit two's-complement value. -/
def signed32 (n : Nat) : Int := if n < 2 ^ 31 then (n : Int) else (n : Int) - 2 ^ 32

/-- `count` records of `size` bytes from offset `start`, each with its offset. -/
def recsAt (b : List Byte) (start size count : Nat) : List (Nat × List Byte) :=
  (List.range count).map (fun i => (start + size * i, (b.drop (start + size * i)).take size))

/-- The set bits of a run of bytes, bit i of byte j being 8 × j + i. -/
def bitsSet (bs : List Byte) : NatSet :=
  ((List.range bs.length).zip bs).flatMap (fun e =>
    (List.range 8).filterMap (fun i => if e.2.toNat.testBit i then some (8 * e.1 + i) else none))

/-- `v`, or none where it is the value that says none. -/
def notCode (no v : Nat) : Option Nat := if v = no then none else some v

/-! ### Header and directory -/

/-- A directory entry (R39): its offset in the image, type, flags, and the section's place and check value. -/
structure DirEnt where
  pos : Nat
  type : Nat
  flags : Nat
  off : Nat
  len : Nat
  crc : Nat
deriving DecidableEq, Repr

/-- The directory of an image. -/
def directory (b : List Byte) : List DirEnt :=
  (recsAt b 0x80 16 (bN b 0x0C 2)).map (fun r => ⟨r.1, bN r.2 0 2, bN r.2 2 2, bN r.2 4 4, bN r.2 8 4, bN r.2 12 4⟩)

/-- A section: its offset in the image and its bytes; the empty section where the directory names none. -/
def plateSection? (b : List Byte) (t : Nat) : Option (Nat × List Byte) :=
  ((directory b).find? (fun d => d.type == t)).map (fun d => (d.off, (b.drop d.off).take d.len))

/-- A section's offset, or 0. -/
def secOff (b : List Byte) (t : Nat) : Nat := ((plateSection? b t).map (·.1)).getD 0

/-- A section's bytes, or none. -/
def secData (b : List Byte) (t : Nat) : List Byte := ((plateSection? b t).map (·.2)).getD []

/-- The header (Table 02-1). -/
def headerOf (b : List Byte) : PlateHeader :=
  { kind := if bN b 8 1 = 1 then .routeUpdate else .full, variant := bN b 9 1, epoch := bN b 0x14 4,
    periodUs := bN b 0x18 2, moduleId := bN b 0x1A 2, tickRoot := bN b 0x1C 2, minFw := bN b 0x20 4,
    baseHash := (b.drop 0x40).take 32 }

/-! ### STABLES, SCHEDULE, BARRIERS (R65, R66, R69) -/

/-- A frame record; none where it is malformed. -/
def frameOf (b : List Byte) : Option Frame :=
  let ok := bN b 1 1 == 0
  match bN b 0 1 with
  | 1 =>
    if ok && zeroAt b 0x1A 6 && decide (bN b 8 2 ≤ 64) then
      some (.work (bN b 2 2) (bN b 4 4) (bN b 8 2) (bN b 10 2) (bN b 12 2) (bN b 14 2) (bN b 16 2) (bN b 18 2)
        (bN b 0x14 4) (bN b 0x18 2))
    else none
  | 2 =>
    if ok && zeroAt b 8 12 && zeroAt b 0x1A 6 && decide (1 ≤ bN b 4 4) then
      some (.loop (bN b 2 2) (bN b 4 4) (bN b 0x14 4) (bN b 0x18 2))
    else none
  | 3 => if ok && zeroAt b 2 30 then some .fin else none
  | _ => none

/-- A stable's frame list from a SCHEDULE offset to END: each record's offset with the record. -/
def framesFrom (s : List Byte) : Nat → Nat → List (Nat × Option Frame)
  | 0, _ => []
  | n + 1, off =>
    if s.length < off + 32 then [(off, none)]
    else match frameOf ((s.drop off).take 32) with
      | some .fin => [(off, some .fin)]
      | f => (off, f) :: framesFrom s n (off + 32)

/-- The stable records of an image, each with its offset in the image and its frames with theirs. -/
def stablesOf (b : List Byte) : List (Nat × StableRec × List (Nat × Option Frame)) :=
  let s := secData b 1
  let sch := secData b 4
  (recsAt s 0 400 (s.length / 400)).map (fun r =>
    let fs := framesFrom sch (sch.length / 32 + 1) (bN r.2 4 4)
    (secOff b 1 + r.1,
      { id := bN r.2 0 1, faultPolicy := bN r.2 1 1 == 1, slipLimit := if bN r.2 2 1 = 0 then 8 else bN r.2 2 1,
        cores := bitsSet (r.2.drop 16), frames := fs.filterMap (·.2) },
      fs.map (fun f => (secOff b 4 + f.1, f.2))))

/-- The barrier records: offset, ID, count. -/
def barriersOf (b : List Byte) : List (Nat × Nat × Nat) :=
  let s := secData b 5
  (recsAt s 0 8 (s.length / 8)).map (fun r => (secOff b 5 + r.1, bN r.2 0 2, bN r.2 2 2))

/-! ### KERNELS and element programs (R495, Table 03-2, R164) -/

/-- A kernel opcode (Table 03-4). -/
def KOp.ofCode : Nat → Option KOp
  | 1 => some .matmul | 2 => some .conv | 3 => some .attn | 4 => some .element | 5 => some .reduce | 6 => some .scan
  | 7 => some .gather | 8 => some .scatter | 9 => some .transpose | 10 => some .copy | 11 => some .topk | _ => none

/-- The program of `len` words at offset `off` of a section; a reserved opcode reads as END. -/
def programAt (s : List Byte) (off len : Nat) : List ElemInstr :=
  (recsAt s off 4 len).map (fun r => (ElemInstr.ofWord (leNat r.2)).getD ⟨.eEnd, 0, 0, 0, 0, false, false, false⟩)

/-- Is every word of the program there and of an opcode that is not reserved? -/
def programThere (s : List Byte) (off len : Nat) : Bool :=
  decide (off % 4 = 0) && decide (off + 4 * len ≤ s.length)
    && (recsAt s off 4 len).all (fun r => (ElemInstr.ofWord (leNat r.2)).isSome)

/-- A kernel descriptor (Table 03-2) of KERNELS section `s`. -/
def kernelOf (s b : List Byte) : Kernel :=
  let fl := bN b 1 1
  { op := (KOp.ofCode (bN b 0 1)).getD .copy, ftz := fl.testBit 0, ovfMode := fl / 2 % 4, srnd := fl.testBit 3,
    accum := fl.testBit 4, sync := fl.testBit 5, d0 := bN b 4 4, d1 := bN b 8 4, d2 := bN b 12 4,
    a := operandOf ((b.drop 0x10).take 16), b := operandOf ((b.drop 0x20).take 16),
    c := operandOf ((b.drop 0x30).take 16), d := operandOf ((b.drop 0x40).take 16),
    scaleOff := notCode 0xFFFFFFFF (bN b 0x50 4), tensor := bN b 0x54 4 % 2 ^ 20,
    prog := programAt s (bN b 0x58 4) (bN b 0x5C 1), constSet := bN b 0x5E 2, param := (b.drop 0x60).take 32 }

/-- The kernel descriptors, each with its offset in the image and its bytes. -/
def kernelsOf (b : List Byte) : List (Nat × List Byte × Kernel) :=
  let s := secData b 6
  (recsAt s 16 128 (min (bN s 0 4) (s.length / 128))).map (fun r => (secOff b 6 + r.1, r.2, kernelOf s r.2))

/-! ### PLACEMENT (R254, R260, R266, Table 06-4) -/

/-- A window record (R260). -/
def winOf (b : List Byte) : WinRec := ⟨bN b 0 2, bN b 4 4, bN b 8 4, bN b 12 2⟩

/-- A paddock record entry (Table 06-4). -/
def padOf (b : List Byte) : PadRec :=
  ⟨bN b 0 2, bN b 2 2, bN b 4 4 % 2 ^ 20, bN b 8 4, bN b 12 2, bN b 14 2, bN b 16 2, (bN b 18 1).testBit 0,
    (bN b 18 1).testBit 1, bN b 19 1⟩

/-- A region from its descriptor and its attached table. -/
def regionOf (d t : List Byte) : Region :=
  let kind := (RegionKind.ofCode (bN d 2 1)).getD .plain
  { id := bN d 0 2, kind := kind, banked := (bN d 3 1).testBit 0,
    onStacks := (List.range 16).filter (fun i => (bN d 4 2).testBit i), granule := bN d 6 1, owner := bN d 7 1,
    base := bN d 8 6, length := bN d 0x10 6, phys := bN d 0x18 8 % 2 ^ 36, objBytes := bN d 0x24 4,
    windows := if kind = .shed then (recsAt t 0 16 (t.length / 16)).map (fun r => winOf r.2) else [],
    records := if kind = .paddock then (recsAt t 0 32 (t.length / 32)).map (fun r => padOf r.2) else [],
    floors := if kind = .pool then (recsAt t 0 4 (t.length / 4)).map (fun r => leNat r.2) else [] }

/-- The region descriptors from a section offset on: offset, descriptor bytes, table bytes. -/
def regionRecs (s : List Byte) : Nat → Nat → List (Nat × List Byte × List Byte)
  | 0, _ => []
  | n + 1, off =>
    let d := (s.drop off).take 64
    let len := bN d 0x20 4
    (off, d, (s.drop (off + 64)).take len) :: regionRecs s n ((off + 64 + len + 63) / 64 * 64)

/-- The regions of an image: offset in the image, descriptor bytes, table bytes, region. -/
def regionsOf (b : List Byte) : List (Nat × List Byte × List Byte × Region) :=
  let s := secData b 3
  (regionRecs s (min (bN s 0 4) 4096) 64).map (fun r => (secOff b 3 + r.1, r.2.1, r.2.2, regionOf r.2.1 r.2.2))

/-! ### STREAMS and DECODE (Table 11-2, R302, R303) -/

/-- The kind of a stream descriptor (Table 11-3). -/
def StreamKind.ofCode : Nat → Option StreamKind
  | 1 => some .fill | 2 => some .copy | 3 => some .stash | 4 => some .unstash | 5 => some .walk | _ => none

/-- A stream descriptor. -/
def streamOf (b : List Byte) : StreamDesc :=
  let fl := bN b 1 1
  { kind := (StreamKind.ofCode (bN b 0 1)).getD .copy, expand := fl.testBit 0, early := fl.testBit 2,
    cvt := if fl.testBit 3 then some (bN b 0x3F 1 % 16, bN b 0x3F 1 / 16) else none, id := bN b 2 2 % 1024,
    tiles := bN b 4 4, src := bN b 8 8, dst := bN b 0x10 8, srcStride := signed32 (bN b 0x18 4), tileBytes := bN b 0x1C 4,
    winBase := bN b 0x20 2, ring := bN b 0x22 1, key := bN b 0x23 1 % 16, wait := notCode 0xFFFF (bN b 0x24 2),
    waitStride := bN b 0x26 2, signal := notCode 0xFFFF (bN b 0x28 2), signalStride := bN b 0x2A 2, dlBase := bN b 0x2C 4,
    dlStride := bN b 0x30 2, dlStable := if (bN b 0x32 2).testBit 8 then some (bN b 0x32 1) else none,
    replayTile := notCode 0xFFFFFFFF (bN b 0x34 4), aux := bN b 0x38 4, release := notCode 0xFFFF (bN b 0x3C 2),
    uses := bN b 0x3E 1 }

/-- The stream descriptors: offset, bytes, descriptor. -/
def streamsOf (b : List Byte) : List (Nat × List Byte × StreamDesc) :=
  let s := secData b 7
  (recsAt s 16 64 (min (bN s 0 4) 1024)).map (fun r => (secOff b 7 + r.1, r.2, streamOf r.2))

/-- The source of tile `t` (Table 11-2, SRC and SRC_STRIDE). -/
def StreamDesc.srcAt (d : StreamDesc) (t : Nat) : Nat := (((d.src : Int) + t * d.srcStride) % 2 ^ 64).toNat

/-- The destination of tile `t` of a COPY (Table 11-3). -/
def StreamDesc.dstAt (d : StreamDesc) (t : Nat) : Nat := (d.dst + t * d.tileBytes) % 2 ^ 64

/-- The code lengths of a decode table: symbol 2i in the low half of byte 16 + i. -/
def tableLengths (t : List Byte) : List Nat := ((t.drop 16).take 128).flatMap (fun x => [x.toNat % 16, x.toNat / 16])

/-- Is a decode table valid (R302)? -/
def tableValid (t : List Byte) : Bool :=
  bN t 0 4 == 0x54584C53 && zeroAt t 5 3 && zeroAt t 12 4 && bN t 8 4 == crc32c ((t.drop 16).take 128)
    && ((tableLengths t).map (fun l => if l = 0 then 0 else 2 ^ (15 - l))).sum == 2 ^ 15

/-- A decode table. -/
def tableOf (t : List Byte) : DecTable := ⟨bN t 4 1, tableLengths t⟩

/-- The DECODE records: offset, bytes, record. -/
def decodeOf (b : List Byte) : List (Nat × List Byte × DecRec) :=
  let s := secData b 12
  (recsAt s 0 160 (s.length / 160)).map (fun r => (secOff b 12 + r.1, r.2, ⟨bitsSet (r.2.take 8), bN r.2 8 2, tableOf (r.2.drop 16)⟩))

/-! ### FABRIC_ROUTES and COLLECTIVES (Table 12-7, Tables 13-1 to 13-3) -/

/-- The route table. -/
def routesOf (b : List Byte) : Option RouteTab :=
  (plateSection? b 8).map (fun x =>
    let s := x.2
    { dests := bN s 0 4, hopLimit := bN s 4 1, active := bitsSet ((s.drop 8).take 8),
      nbr := (List.range 64).filterMap (fun p =>
        let w := bN s (0x40 + 4 * p) 4
        if w.testBit 31 then some (p, w % 2 ^ 16, w / 2 ^ 16 % 64) else none),
      choices := (recsAt s 0x140 8 (min (bN s 0 4) (s.length / 8))).map (fun r =>
        ((r.1 - 0x140) / 8, (r.2.take 5).map BitVec.toNat)) })

/-- An operation record with its members and slices, of a COLLECTIVES section. -/
def collOpOf (s b : List Byte) : CollOp :=
  let pat := bN b 1 1
  let comp := bN b 2 1
  { kind := match bN b 0 1 with | 2 => .rows | 3 => .allreduce | 4 => .fence | _ => .exchange
    pattern := match pat % 4 with | 1 => .ring | 2 => .tree | _ => .direct
    fanout := pat / 4 + 1
    comp := match comp % 4 with | 1 => .topk | 2 => .sign | _ => .dense
    wire16 := comp.testBit 2, homeOnly := comp.testBit 3, reducer := bN b 3 1, tensor := bN b 4 4 % 2 ^ 20
    members := (recsAt s (bN s 0x14 4 + bN b 0x10 4) 2 (min (bN b 8 4) (s.length / 2))).map (fun r => leNat r.2)
    self := bN b 0x0C 4, homeBase := bN b 0x14 4
    slices := (recsAt s (bN s 0x18 4 + 16 * bN b 0x1C 4) 16 (min (bN b 0x18 2) (s.length / 16))).map (fun r =>
      ⟨bN r.2 0 4, bN r.2 4 4, bN r.2 8 2, bN r.2 10 2, bN r.2 12 4 % 4096, bN r.2 12 4 / 4096⟩)
    binding := notCode 0xFFFF (bN b 0x1A 2), inBar := bN b 0x20 2, relBar := notCode 0xFFFF (bN b 0x22 2)
    doneBar := notCode 0xFFFF (bN b 0x24 2), barStride := bN b 0x26 2, density := bN b 0x28 2
    fmtIn := bN b 0x2A 1 % 16, fmtOut := bN b 0x2A 1 / 16, resid := bN b 0x30 6, data := bN b 0x38 6 }

/-- The operation records: offset, bytes, operation. -/
def collOpsOf (b : List Byte) : List (Nat × List Byte × CollOp) :=
  let s := secData b 9
  (recsAt s (bN s 0x0C 4) 64 (min (bN s 0 4) (s.length / 64))).map (fun r => (secOff b 9 + r.1, r.2, collOpOf s r.2))

/-- The COLLECTIVES section; a link record is a module ID in bytes 0–1 and a port mask in bytes 8–15. -/
def collsOf (b : List Byte) : CollSec :=
  let s := secData b 9
  { ops := (collOpsOf b).map (fun r => r.2.2),
    links := (recsAt s (bN s 0x10 4) 16 (min (bN s 4 2) 64)).map (fun r => (bN r.2 0 2, bitsSet (r.2.drop 8))),
    normChildren := (recsAt s (bN s 0x1C 4) 2 (bN s 6 1)).map (fun r => leNat r.2),
    normRoot := (bN s 7 1).testBit 0 || s.isEmpty, normParent := bN s 8 2 }

/-! ### GROOM, CHECK, TENSORS, STEP_CONFIG, CONSTANTS (Tables 07-6 to 07-9, 15-2, 04-9, 08-3; R494) -/

/-- A stream entry (Table 07-8). -/
def entryOf (b : List Byte) : StreamEntry :=
  let w := leNat b
  ⟨w % 2 ^ 48, w / 2 ^ 48 % 16, (match w / 2 ^ 52 % 8 with | 1 => .plane | 2 => .slice | _ => .none), w.testBit 55,
    w.testBit 56⟩

/-- A stream binding (Table 07-7) of GROOM section `s`. -/
def bindingOf (s b : List Byte) : Binding :=
  { tensor := bN b 0 4 % 2 ^ 20, unit := bN b 4 1, row := bN b 5 1 % 4 == 1, masked := (bN b 5 1).testBit 2,
    group := bN b 6 2 % 4096, prog := programAt s (bN b 8 4) (bN b 12 1), constSet := bN b 14 2, first := bN b 0x10 6,
    count := bN b 0x18 6, ins := (recsAt b 0x20 8 4).map (fun r => entryOf r.2),
    outs := (recsAt b 0x40 8 4).map (fun r => entryOf r.2), mask := bN b 0x60 6, rows := bN b 0x68 6,
    rowLen := bN b 0x70 4, wait := bN b 0x74 2, signal := bN b 0x76 2 }

/-- The stream bindings: offset, bytes, binding. -/
def bindingsOf (b : List Byte) : List (Nat × List Byte × Binding) :=
  let s := secData b 10
  (recsAt s (bN s 0x18 4) 128 (min (bN s 0 2) 4096)).map (fun r => (secOff b 10 + r.1, r.2, bindingOf s r.2))

/-- A preconditioner record (Table 07-9). -/
def precondOf (b : List Byte) : Precond :=
  ⟨bN b 0 2, bN b 2 1, bN b 4 4, bN b 8 6, bN b 0x10 6, bN b 0x18 4, bN b 0x1C 2, (bN b 0x1E 1).testBit 0⟩

/-- The preconditioner records: offset, bytes, record. -/
def precondsOf (b : List Byte) : List (Nat × List Byte × Precond) :=
  let s := secData b 10
  (recsAt s (bN s 0x1C 4) 32 (min (bN s 2 2) 256)).map (fun r => (secOff b 10 + r.1, r.2, precondOf r.2))

/-- The GROOM section. -/
def groomOf (b : List Byte) : GroomSec :=
  let s := secData b 10
  ⟨(bindingsOf b).map (fun r => r.2.2), (precondsOf b).map (fun r => r.2.2), bN s 4 4, bN s 8 8, bN s 0x10 8⟩

/-- A mode of a check job. -/
def ChkMode.ofCode : Nat → ChkMode
  | 1 => .snoop | 2 => .scanSnoop | _ => .scan

/-- A check job record (Table 15-2). -/
def checkOf (b : List Byte) : ChkJob :=
  let md := bN b 1 1
  { unit := bN b 0 1, mode := .ofCode (md % 4), crc64 := md.testBit 2, compare := md.testBit 3, alive := md.testBit 4,
    stepFault := md.testBit 5, stream := bN b 2 2 % 1024, start := bN b 4 2, done := bN b 6 2, addr := bN b 8 6,
    len := bN b 0x10 6, slen := bN b 0x18 6, recBytes := bN b 0x20 4, aliveFirst := bN b 0x26 2, expect := bN b 0x28 8,
    aliveOff := bN b 0x30 4 % 2 ^ 20 }

/-- The check job records: offset, bytes, job. -/
def checksOf (b : List Byte) : List (Nat × List Byte × ChkJob) :=
  let s := secData b 11
  (recsAt s 16 64 (min (bN s 0 4) 1024)).map (fun r => (secOff b 11 + r.1, r.2, checkOf r.2))

/-- A tensor record (Table 04-9). -/
def tensorOf (b : List Byte) : TensorRec :=
  let md := bN b 5 1
  ⟨bN b 0 4 % 2 ^ 20, bN b 4 1 % 16, md.testBit 0, md / 2 % 4, md.testBit 3, md.testBit 4, bN b 6 1, bN b 8 6, bN b 0x10 4,
    bN b 0x14 4⟩

/-- The tensor records: offset, bytes, record. -/
def tensorsOf (b : List Byte) : List (Nat × List Byte × TensorRec) :=
  let s := secData b 13
  (recsAt s 16 32 (min (bN s 8 4) (s.length / 32))).map (fun r => (secOff b 13 + r.1, r.2, tensorOf r.2))

/-- The STEP_CONFIG section (Table 08-3). -/
def stepCfgOf (b : List Byte) : StepCfg :=
  let s := secData b 14
  { mode := match bN s 0 1 with | 1 => .last | 2 => .tolerant | _ => .unclipped
    reuse := (bN s 1 1).testBit 0, contrib := (bN s 1 1).testBit 1, microBatches := bN s 2 2, clipMax := bN s 4 4
    ceiling := bN s 8 4, tol := bN s 12 4, maxStepTicks := bN s 16 4
    verdictTicks := if bN s 20 4 = 0 then 1000 else bN s 20 4, participants := bN s 24 4
    replayFrame := (recsAt s 0x20 4 256).filterMap (fun r =>
      if leNat r.2 = 0xFFFFFFFF then none else some ((r.1 - 0x20) / 4, leNat r.2 % 2 ^ 24))
    replayReset := bitsSet ((s.drop 0x420).take 128) }

/-- The constant sets (R494). -/
def constsOf (b : List Byte) : List (List Nat) :=
  let s := secData b 16
  (recsAt s 0 128 (s.length / 128)).map (fun r => (recsAt r.2 0 4 32).map (fun w => leNat w.2))

/-- The plate an image holds. -/
def plateOf (b : List Byte) (signed : Bool) : Plate :=
  { hdr := headerOf b, hash := sha256 b, signed := signed, seed := bN (secData b 13) 0 8,
    stables := (stablesOf b).map (fun r => r.2.1), regions := (regionsOf b).map (fun r => r.2.2.2),
    barriers := (barriersOf b).foldl (fun m r => kvSet m r.2.1 r.2.2) [], kernels := (kernelsOf b).map (fun r => r.2.2),
    streams := (streamsOf b).map (fun r => r.2.2), routes := routesOf b, colls := collsOf b, groom := groomOf b,
    checks := (checksOf b).map (fun r => r.2.2), decode := (decodeOf b).map (fun r => r.2.2),
    tensors := (tensorsOf b).map (fun r => r.2.2), cfg := stepCfgOf b,
    tickTree := (plateSection? b 15).map (fun x => bN x.2 0 4), consts := constsOf b }

end Sys2Proof.Machine
end

