-- ==== Sys2Proof/Machine/PlateCheck.lean ====
section
/-! DEFINITION. The checks of a proof (02_plate_and_tick.md R46, Tables 02-4 and 02-6): for each result the image offsets at
which its check fails, in the order the offsets are reported. The first failing record of a check is reported; within
DESCRIPTOR and PLACEMENT the sections are taken in the order of their type codes (DESIGN CHOICE). -/

namespace Sys2Proof.Machine

/-- The offsets of a list at which a condition is bad. -/
def badAt (xs : List (Bool × Nat)) : List Nat := (xs.filter (·.1)).map (·.2)

/-- The offsets of the records that a test refuses. -/
def refused {α : Type} (ok : α → Bool) (xs : List (Nat × α)) : List Nat := (xs.filter (fun x => !ok x.2)).map (·.1)

/-- Are the keys of a list distinct? -/
def distinct : List Nat → Bool
  | [] => true
  | x :: xs => !xs.contains x && distinct xs

/-- Is the record at the head of a list the first with its key? Offsets of the later ones. -/
def repeatedAt (key : α → Nat) : List Nat → List (Nat × α) → List Nat
  | _, [] => []
  | seen, x :: xs => if seen.contains (key x.2) then x.1 :: repeatedAt key seen xs else repeatedAt key (key x.2 :: seen) xs

/-- Do two byte ranges (start, length) meet? -/
def meets (a b : Nat × Nat) : Bool := decide (a.1 < b.1 + b.2) && decide (b.1 < a.1 + a.2)

/-! ### Header, length, layout, sections (checks 0x01 to 0x05) -/

/-- HEADER: the header fields found wrong, in the order of Table 02-1. -/
def headerBad (b : List Byte) : List Nat :=
  let full := bN b 8 1 == 0
  let signed := (bN b 10 2).testBit 0
  badAt [(bN b 0 4 != 0x50584C53, 0), (bN b 4 2 != 1, 4), (bN b 6 2 != 128, 6), (decide (1 < bN b 8 1), 8),
    (bN b 9 1 != 0 && bN b 9 1 != 1 && bN b 9 1 != 0xFF, 9), (decide (1 < bN b 10 2), 10),
    (bN b 12 2 == 0 || decide (64 < bN b 12 2), 12), (!zeroAt b 14 2, 14),
    (decide (bN b 0x18 2 < 2) || decide (64 < bN b 0x18 2), 0x18), (!zeroAt b 0x1E 2, 0x1E), (!zeroAt b 0x24 28, 0x24),
    (full && !zeroAt b 0x40 32, 0x40), ((bN b 0x60 4 != 0) != signed, 0x60), (!zeroAt b 0x64 24, 0x64),
    (bN b 0x7C 4 != crc32c (b.take 0x7C), 0x7C)]

/-- LENGTH. -/
def lengthBad (b : List Byte) : List Nat :=
  let n := bN b 0x10 4
  badAt [(n % 64 != 0 || decide (2 ^ 28 < n), 0x10), (decide (2 ^ 28 < n + bN b 0x60 4), 0x60)]

/-- Is the section type one of Table 02-2? -/
def knownType (t : Nat) : Bool := decide (1 ≤ t) && decide (t ≤ 16)

/-- The offset of the first non-zero byte of the image in no section, header or directory. -/
def strayByte (b : List Byte) (ds : List DirEnt) : List Nat :=
  let covered := fun i => decide (i < 0x80 + 16 * ds.length) || ds.any (fun d => decide (d.off ≤ i) && decide (i < d.off + d.len))
  (((List.range b.length).zip b).filter (fun e => e.2 != 0 && !covered e.1)).map (·.1)

/-- LAYOUT: bounds, overlap, reserved types and flags of the directory, then stray bytes. -/
def layoutBad (b : List Byte) : List Nat :=
  let ds := directory b
  let top := 0x80 + 16 * ds.length
  let bad := fun (d : DirEnt) => !knownType d.type || d.flags != 0 || d.off % 64 != 0 || decide (d.off < top)
    || decide (b.length < d.off + d.len) || decide (b.length < top)
    || ds.any (fun e => decide (e.pos < d.pos) && meets (e.off, e.len) (d.off, d.len))
  (ds.filter bad).map (·.pos) ++ strayByte b ds

/-- SECTION_CRC. -/
def sectionCrcBad (b : List Byte) : List Nat :=
  ((directory b).filter (fun d => d.crc != crc32c ((b.drop d.off).take d.len))).map (·.pos)

/-- Types a FULL plate must carry (Table 02-2). -/
def requiredTypes : List Nat := [1, 2, 3, 4, 6, 13, 14]

/-- SECTION_SET. -/
def sectionSetBad (b : List Byte) : List Nat :=
  let ds := directory b
  let ru := (headerOf b).kind == .routeUpdate
  repeatedAt (fun (d : DirEnt) => d.type) [] (ds.map (fun d => (d.pos, d)))
    ++ ((ds.filter (fun d => ru && d.type != 8 && d.type != 15)).map (·.pos))
    ++ badAt [(!ru && requiredTypes.any (fun t => !ds.any (fun d => d.type == t)), 0x80)]

/-! ### Units the plate names (checks 0x0A and 0x0C) -/

/-- The NEIGHBOUR entries of FABRIC_ROUTES that name a port: image offset and port. -/
def nbrEntries (b : List Byte) : List (Nat × Nat) :=
  ((routesOf b).map (fun t => t.nbr.map (fun e => (secOff b 8 + 0x40 + 4 * e.1, e.1)))).getD []

/-- The places that name a fabric port: NEIGHBOUR entries, ACTIVE_PORTS, link records, the tick tree. -/
def namedPorts (b : List Byte) : List (Nat × Nat) :=
  let s := secData b 9
  let act := ((routesOf b).map (fun t => t.active.map (fun p => (secOff b 8 + 8, p)))).getD []
  let links := (recsAt s (bN s 0x10 4) 16 (min (bN s 4 2) 64)).flatMap (fun r =>
    (bitsSet (r.2.drop 8)).map (fun p => (secOff b 9 + r.1, p)))
  let w := bN (secData b 15) 0 4
  let tree := (List.range 4).filterMap (fun i =>
    if (w / 2 ^ (8 * i)).testBit 7 then some (secOff b 15, w / 2 ^ (8 * i) % 64) else none)
  nbrEntries b ++ act ++ links ++ tree

/-- The choices C0 to C4 of FABRIC_ROUTES as places that name a port. -/
def choicePorts (b : List Byte) : List (Nat × Nat) :=
  ((routesOf b).map (fun t => t.choices.flatMap (fun e =>
    (e.2.filter (· != 0xFF)).map (fun c => (secOff b 8 + 0x140 + 8 * e.1, c % 64))))).getD []

/-- The CXL ports that a loft region's addresses lie behind, under the loft mode in force (R263). -/
def Mod.regionPorts (m : Mod) (r : Region) : List Nat :=
  if !r.loft then []
  else if m.fget Fld.LFT_CFG_MODE = 0 then
    (List.range 4).filter (fun c => meets (loftBase + c * loftPortSize, loftPortSize) (r.base, r.extent))
  else m.loftSet

/-- The places that name a unit disabled on SLX-4010-C (R3): LP16 and above, loft behind the CXL ports of XD1. A route choice names its port
in a portable plate; in another, one over a port that this part lacks is ROUTE's (12_fabric_ports.md R330). -/
def Mod.namesDisabled (m : Mod) (b : List Byte) : List Nat :=
  ((namedPorts b ++ if (headerOf b).variant = 1 then choicePorts b else []).filter (fun e => decide (16 ≤ e.2))).map (·.1)
    ++ ((regionsOf b).filter (fun r => (m.regionPorts r.2.2.2).any (fun c => decide (2 ≤ c)))).map (·.1)

/-- VARIANT. -/
def Mod.variantBad (m : Mod) (b : List Byte) : List Nat :=
  let v := (headerOf b).variant
  badAt [(v == 0 && m.variant, 9)] ++ (if v = 1 ∨ m.variant then m.namesDisabled b else [])

/-- Is a core fenced, or its self-test running (R98, R99)? -/
def Mod.coreFenced (m : Mod) (c : Nat) : Bool := m.fget Fld.CORE_FENCE_FENCED c == 1 || (m.core c).bist

/-- Is a unit of a region fenced: a stack FAILED (DEDUCED: a stack that no longer answers counts as fenced)? -/
def Mod.regionFenced (m : Mod) (r : Region) : Bool :=
  !r.loft && r.onStacks.any (fun s => m.fget Fld.HBM_STACK_STATUS_STATE s == 4)

/-- FENCED: stable records, region descriptors, NEIGHBOUR entries that name a fenced unit. -/
def Mod.fencedBad (m : Mod) (b : List Byte) : List Nat :=
  ((stablesOf b).filter (fun s => s.2.1.cores.any m.coreFenced)).map (·.1)
    ++ ((regionsOf b).filter (fun r => m.regionFenced r.2.2.2)).map (·.1)
    ++ ((nbrEntries b).filter (fun e => (m.port e.2).st == .failed)).map (·.1)

/-- Does a plate name a unit fenced since its proof (R52)? -/
def Mod.plateFenced (m : Mod) (p : Plate) : Bool :=
  p.stables.any (fun s => s.cores.any m.coreFenced) || p.regions.any m.regionFenced
    || (p.routes.map (fun t => t.nbr.any (fun e => (m.port e.1).st == .failed))).getD false

/-! ### Barriers -/

/-- Is a barrier declared, or is none named? -/
def declared (bars : List Nat) (x : Nat) : Bool := x == 0xFFFF || bars.contains x

/-- Are the `n` barriers that a field with a stride takes all declared (R69)? -/
def declaredAll (bars : List Nat) (x : Option Nat) (stride n : Nat) : Bool :=
  match x with
  | none => true
  | some b => if stride = 0 then bars.contains b else decide (n ≤ 1024) && (List.range n).all (fun i => bars.contains (b + i * stride))

/-- IDs the BARRIERS section declares. -/
def declaredBars (b : List Byte) : List Nat := (barriersOf b).map (fun r => r.2.1)

/-- BARRIERS records: ID, count and reserved bytes, no ID twice. -/
def barriersBad (b : List Byte) : List Nat :=
  let s := secData b 5
  ((recsAt s 0 8 (s.length / 8)).filter (fun r => decide (1023 < bN r.2 0 2) || bN r.2 2 2 == 0 || !zeroAt r.2 4 4)).map
      (fun r => secOff b 5 + r.1)
    ++ repeatedAt (fun (r : Nat × Nat) => r.1) [] (barriersOf b)
    ++ badAt [(s.length % 8 != 0, secOff b 5)]

/-! ### SCHEDULE (check 0x11) -/

/-- The LOOP that repeats the frame at place `i` of a list: its REPEAT and strides; (0, 0, 0) outside any loop. -/
def loopOver (fs : List Frame) (i : Nat) : Nat × Nat × Nat :=
  match ((List.range fs.length).zip fs).find? (fun e => decide (i < e.1) && (match e.2 with | .loop .. => true | _ => false)) with
  | some (j, .loop rep back ks ws) => if j ≤ i + back then (rep, ks, ws) else (0, 0, 0)
  | _ => (0, 0, 0)

/-- Is the frame at place `i` well formed: its LOOP body within the list and without a LOOP, its budget, every descriptor
and window it names (R55, R66), its barriers (R69)? -/
def frameOk (limit count : Nat) (bars : List Nat) (fs : List Frame) (i : Nat) (f : Frame) : Bool :=
  match f with
  | .fin => true
  | .loop _ back _ _ =>
    decide (back ≤ i) && ((fs.drop (i - back)).take back).all (fun x => match x with | .work .. => true | _ => false)
  | .work rep kfirst kcount budget wa wb sg win ks ws =>
    let l := loopOver fs i
    let lastK := kfirst + rep * ks + l.1 * l.2.1 + kcount
    let lastW := win + rep * ws + l.1 * l.2.2
    decide (budget ≤ limit) && (kcount == 0 || decide (lastK ≤ count)) && (win == 0xFFFF || decide (lastW ≤ 65534))
      && declared bars wa && declared bars wb && declared bars sg

/-- SCHEDULE: stables that share a core or whose first frame is at no record of the section, malformed frame records. -/
def scheduleBad (b : List Byte) : List Nat :=
  let ss := stablesOf b
  let limit := (headerOf b).periodUs * 700 - guardCycles
  let count := (kernelsOf b).length
  let bars := declaredBars b
  let shares := fun (s : Nat × StableRec × List (Nat × Option Frame)) => ss.any (fun t => decide (t.1 < s.1)
    && t.2.1.cores.any (fun c => s.2.1.cores.contains c))
  let offs := (recsAt (secData b 1) 0 400 ((secData b 1).length / 400)).filter (fun r => bN r.2 4 4 % 32 != 0)
  ((ss.filter shares).map (·.1)) ++ offs.map (fun r => secOff b 1 + r.1) ++ ss.flatMap (fun s =>
    let fs := s.2.1.frames
    ((List.range s.2.2.length).zip s.2.2).filterMap (fun e => match e.2.2 with
      | none => some e.2.1
      | some f => if frameOk limit count bars fs e.1 f then none else some e.2.1))

/-! ### Kernels (R75, R79 to R92, R214 to R239) -/

/-- Does repetition r ≤ `rep` and pass p ≤ `l.1` of a frame name descriptor `i`? -/
def frameNames (f : Frame) (l : Nat × Nat × Nat) (i : Nat) : Bool :=
  match f with
  | .work rep kfirst kcount _ _ _ _ _ ks _ =>
    (List.range (rep + 1)).any (fun r =>
      let first := kfirst + r * ks
      decide (first ≤ i) &&
        (let d := i - first
         let p := if l.2.1 = 0 then 0 else min l.1 (d / l.2.1)
         decide (d - p * l.2.1 < kcount)))
  | _ => false

/-- Core counts of the stables whose frames name descriptor `i`. -/
def kernelUsers (ss : List StableRec) (i : Nat) : List Nat :=
  (ss.filter (fun s => ((List.range s.frames.length).zip s.frames).any (fun e => frameNames e.2 (loopOver s.frames e.1) i))).map
    (fun s => s.cores.length)

/-- Rows and row bytes an operand of `r` rows by `c` elements covers. -/
def Operand.shape (o : Operand) (r c : Nat) : Nat × Nat := if o.trans then (c, o.format.rowBytes r) else (r, o.format.rowBytes c)

/-- The operands of a kernel with the rows and row bytes each covers, and whether it is written: a written one as it is written, without
TRANS. The norm record of an ELEMENT kernel with NACC is 32 bytes of FP64 whatever FMT says (R87). -/
def Kernel.areas (k : Kernel) : List (Operand × (Nat × Nat) × Bool) :=
  let one := fun (o : Operand) (n : Nat) => (o, (1, n))
  let rd := fun (x : Operand × (Nat × Nat)) => (x.1, x.2, false)
  let wr := fun (x : Operand × (Nat × Nat)) => (x.1.flat, x.2, true)
  let st := fun (o : Operand) => one o (o.format.rowBytes k.d0)
  let table := fun (o : Operand) (n : Nat) => (o, (n, k.d1))
  match k.op with
  | .matmul => [rd (k.a, k.a.shape k.d0 k.d2), rd (k.b, k.b.shape k.d2 k.d1), wr (k.c, k.c.flat.shape k.d0 k.d1),
      rd (k.d, k.d.shape (if k.p8 0 % 2 = 1 then 1 else k.d0) k.d1)]
  | .conv => [rd (k.a, k.a.shape (k.d0 * k.p16 12 * k.p16 14) (k.p16 0)),
      rd (k.b, k.b.shape (k.p16 2) (k.p8 4 * k.p8 5 * k.p16 0)), wr (k.c, k.c.flat.shape (k.d0 * k.d1 * k.d2) (k.p16 2)),
      rd (k.d, k.d.shape 1 (k.p16 2))]
  | .attn =>
    let ph := k.p8 0 % 4
    let paged := (k.p8 0).testBit 4
    let out := fun (o : Operand) (rows : Nat) => wr (o, o.flat.shape rows k.d2)
    let q := [rd (k.a, k.a.shape k.d0 k.d2), out k.c k.d0]
    if ph = 0 then q ++ (if paged then [rd (k.b, (k.d1 / 64, k.pageBytes))] else [rd (k.b, k.b.shape k.d1 k.d2), rd (k.d, k.d.shape k.d1 k.d2)])
    else if ph = 1 then [out k.c k.d0]
    else if ph = 2 then q ++ [rd (k.b, k.b.shape k.d1 k.d2), rd (k.d, k.d.shape k.d1 k.d2)]
    else [out k.c k.d1, out k.d k.d1]
  | .element => k.inputs.map (fun o => rd (st o)) ++ [wr (st k.c),
      wr (if hasNacc k.prog then one { k.out1 with fmt := 12 } 32 else st k.out1)]
  | .reduce => [rd (k.a, k.a.shape k.d0 k.d1), wr (one k.c (k.c.format.rowBytes (if k.p8 1 = 0 then k.d0 else k.d1)))]
  | .scan => [rd (st k.a), wr (one k.c 64)]
  | .gather => [rd (table k.a k.d2), rd (one k.b (4 * k.d0)), wr (table k.c k.d0)]
  | .scatter => [rd (table k.a k.d0), rd (one k.b (4 * k.d0)), wr (table k.c k.d2)]
  | .transpose => [rd (k.a, k.a.shape k.d0 k.d1), wr (k.c, (k.d1, k.a.format.rowBytes k.d0))]
  | .copy => [rd (k.a, (k.d1, k.d0)), wr (k.c, (k.d1, k.d0))]
  | .topk => [rd (k.a, k.a.shape k.d0 k.d1), wr (k.c, (k.d0, k.c.format.rowBytes k.d2)), wr (k.d, (k.d0, 4 * k.d2))]

/-- The rows that an operand area covers, for a rank: start and length each. -/
def areaRows (o : Operand) (rank : Nat) (sh : Nat × Nat) : List (Nat × Nat) :=
  (List.range sh.1).map (fun i => (o.base rank + i * o.pitch, sh.2))

/-- Bytes from an area's first byte to its last. -/
def areaSpan (o : Operand) (sh : Nat × Nat) : Nat := if sh.1 = 0 ∨ sh.2 = 0 then 0 else (sh.1 - 1) * o.pitch + sh.2

/-- Does the area lie in its space for a rank (R80, R92)? -/
def areaFits (o : Operand) (rank : Nat) (sh : Nat × Nat) : Bool :=
  let b := (o.addr : Int) + rank * o.rankStride
  match o.space with
  | .none => true
  | .device => decide (0 ≤ b) && decide (b + areaSpan o sh ≤ hbmSize)
  | .sram | .peer => decide (0 ≤ b) && decide (b + areaSpan o sh ≤ sramSize)

/-- The 16 bytes of an operand reference hold no reserved value (Table 03-3, R100); `anyFmt` where its FMT is ignored (R87). -/
def operandOk (b : List Byte) (anyFmt : Bool := false) : Bool :=
  let sp := bN b 6 1 / 32 % 4
  !(bN b 6 1).testBit 7 && zeroAt b 7 1 && (anyFmt || decide (bN b 6 1 % 16 < 13))
    && (if sp = 0 then decide (bN b 0 6 < 2 ^ 20) else if sp = 2 then decide (bN b 0 6 % 2 ^ 32 < 2 ^ 20) else true)

/-- A format a kernel operand may have (R100): not TAIL48 and not FP64. -/
def plainFmt (o : Operand) : Bool := o.space == .none || (o.fmt != 10 && o.fmt != 12)

/-- Is the format one of four bits? -/
def fourBit (o : Operand) : Bool := o.fmt == 7 || o.fmt == 8 || o.fmt == 9

/-- May A and B meet on the matrix path (R75)? -/
def matrixPair (a b : Nat) : Bool :=
  let fa := [1, 2, 3, 4].contains a
  let ia := [5, 6].contains a
  let fb := [1, 2, 3, 4, 9].contains b
  let ib := [5, 6, 7, 8].contains b
  (fa && fb && !(a == 1 && b == 2) && !(a == 2 && b == 1)) || (ia && ib)

/-- Does a written area meet one that rank `n` reads in a way the chapter forbids (R85, R87)? -/
def Kernel.overlapBad (k : Kernel) (n : Nat) : Bool :=
  let as := k.areas.filter (fun x => x.1.space == .sram)
  let same := fun (x y : Operand) => k.op == .element && x.base n == y.base n && x.format.bits == y.format.bits
  (k.op == .matmul || k.op == .conv || k.op == .element || k.op == .transpose) &&
    (as.filter (fun x => x.2.2)).any (fun w => (as.filter (fun x => !x.2.2)).any (fun r =>
      !same w.1 r.1 && (areaRows w.1 n w.2.1).any (fun p => (areaRows r.1 n r.2.1).any (fun q => meets p q))))

/-- The operands of an ATTN kernel by phase (Table 09-1): Q, K and V in BF16, FP16, E4M3 or E5M2 (R236), BF16 not against FP16, and no FP16
at all in BACKWARD, whose products have a BF16 partner (R244; 03_cores.md R75; DEDUCED); outputs in a format of R221 (for dK and dV as
for O and dQ; DEDUCED). C may be absent while LAST is clear. -/
def attnOperandsOk (k : Kernel) : Bool :=
  let ph := k.p8 0 % 4
  let paged := (k.p8 0).testBit 4
  let here := fun (o : Operand) => o.space == .sram
  let away := fun (o : Operand) => o.space == .none
  let inFmt := fun (o : Operand) => decide (1 ≤ o.fmt) && decide (o.fmt ≤ 4)
  let outFmt := fun (o : Operand) => here o && decide (o.fmt ≤ 4)
  let c := outFmt k.c || (away k.c && !(k.p8 0).testBit 3)
  let qk := here k.a && here k.b && inFmt k.a && inFmt k.b && inFmt k.d && (k.a.fmt, k.b.fmt) != (1, 2) && (k.a.fmt, k.b.fmt) != (2, 1)
  match ph with
  | 0 => qk && c && (if paged then away k.d && decide (k.pageBytes ≤ k.b.pitch) else here k.d)
  | 1 => away k.a && away k.b && away k.d && c
  | 2 => qk && c && here k.d && [k.a, k.b, k.d].all (fun o => o.fmt != 2)
  | _ => away k.a && away k.b && outFmt k.c && outFmt k.d

/-- Dimensions, formats and parameters of ATTN (R214, R215, R231, R233, R237 to R239). -/
def attnOk (k : Kernel) : Bool :=
  let p0 := k.p8 0
  let ph := p0 % 4
  let paged := p0.testBit 4
  let mask := k.p8 1 % 8
  let rope := k.p8 1 / 8 % 4
  let g := k.p8 2
  let rot := k.p16 4
  let sm := fp32 (bN k.param 8 4)
  let state := bN k.param 16 4
  let size := (4 * k.d0 * (k.d2 + 3) + 127) / 128 * 128
  let eight := fun (o : Operand) => o.fmt == 3 || o.fmt == 4
  let sixteen := fun (o : Operand) => o.fmt == 1 || o.fmt == 2
  !p0.testBit 7 && !(k.p8 1).testBit 7 && zeroAt k.param 6 2 && rope != 3 && decide (mask ≤ 5)
    && decide (1 ≤ g) && decide (g ≤ 16) && decide (1 ≤ k.p8 3) && decide (k.p8 3 ≤ 64)
    && sm.isFin && !sm.isZero && !sm.isNeg
    && k.d0 % g == 0 && decide (k.d0 ≤ 256) && k.d2 % 16 == 0 && decide (16 ≤ k.d2) && decide (k.d2 ≤ 256)
    && (ph == 1 || (k.d1 % 64 == 0 && decide (64 ≤ k.d1) && decide (k.d1 ≤ 1024)))
    && (ph != 1 || (decide (2 ≤ k.d1) && decide (k.d1 ≤ 64)))
    && !(paged && (decide (2 ≤ ph) || mask == 4 || mask == 5))
    && (!paged || zeroAt k.param 24 4) && (decide (2 ≤ ph) || zeroAt k.param 28 4)
    && (if mask = 2 ∨ mask = 3 then decide (1 ≤ bN k.param 12 4) else zeroAt k.param 12 4)
    && decide (state + (if ph = 1 then k.d1 else 1) * size ≤ sramSize) && state % 4 == 0 && decide (bN k.param 20 4 + 32 ≤ sramSize)
    && (decide (ph < 2) || decide (bN k.param 28 4 + (2 * k.d0 * k.d2 + 127) / 128 * 128 + (4 * k.d1 * k.d2 + 127) / 128 * 128
      + 4 * k.d1 * k.d2 ≤ sramSize))
    && (rope == 0 || (rot % 2 == 0 && decide (2 ≤ rot) && decide (rot ≤ k.d2)))
    && (ph % 2 == 1 || ((!p0.testBit 5 || (sixteen k.a && eight k.b && !(k.p8 1).testBit 6)) && (!p0.testBit 6 || !sixteen k.d)))
    && attnOperandsOk k

/-- Convolution geometry (R86). -/
def convOk (k : Kernel) : Bool :=
  let p := k.p8
  let out := fun (i pad dil ker str : Nat) => (i + 2 * pad - dil * (ker - 1) - 1) / str + 1
  decide (1 ≤ p 4) && decide (1 ≤ p 5) && decide (1 ≤ p 6) && decide (1 ≤ p 7) && decide (1 ≤ p 8) && decide (1 ≤ p 9)
    && zeroAt k.param 16 16 && decide (p 8 * (p 4 - 1) + 1 ≤ k.p16 12 + 2 * p 10)
    && decide (p 9 * (p 5 - 1) + 1 ≤ k.p16 14 + 2 * p 11)
    && k.d1 == out (k.p16 12) (p 10) (p 8) (p 4) (p 6) && k.d2 == out (k.p16 14) (p 11) (p 9) (p 5) (p 7)

/-- The streams a kernel's program may name (R87, R496). -/
def Kernel.streams (k : Kernel) : Streams :=
  if k.op = .element then
    ⟨k.inputs.map (fun o => o.space != .none),
      [k.c.space != .none, k.out1.space != .none && !hasNacc k.prog, false, false], false⟩
  else ⟨[true, false, false, false], [true, false, false, false], false⟩

/-- Does the program draw stochastic bits? -/
def usesSrnd (p : List ElemInstr) : Bool := p.any (fun i => i.op == .srnd)

/-- What each opcode asks of its fields and operands. -/
def Kernel.opOk (k : Kernel) : Bool :=
  let there := fun (o : Operand) => o.space != .none
  let noPar := zeroAt k.param 0 32
  let flat := !fourBit k.c && plainFmt k.c
  match k.op with
  | .matmul => there k.a && there k.b && there k.c && matrixPair k.a.fmt k.b.fmt && flat && (!there k.d || k.d.fmt == 0)
      && decide (k.p8 0 ≤ 1) && zeroAt k.param 1 31
  | .conv => there k.a && there k.b && there k.c && matrixPair k.a.fmt k.b.fmt && flat && (!there k.d || k.d.fmt == 0) && convOk k
  | .attn => attnOk k
  | .element => k.inputs.all plainFmt && plainFmt k.c && (hasNacc k.prog || plainFmt k.out1) && operandOk (k.param.take 16)
      && operandOk ((k.param.drop 16).take 16) (hasNacc k.prog)
  | .reduce => there k.a && there k.c && plainFmt k.a && flat && !fourBit k.a && decide (k.p8 0 ≤ 4) && decide (k.p8 1 ≤ 1)
      && zeroAt k.param 2 30
  | .scan => there k.a && there k.c && [0, 1, 2, 3, 4, 5, 6, 11].contains k.a.fmt && noPar
  | .gather => there k.a && there k.b && there k.c && k.b.fmt == 11 && noPar
  | .scatter => there k.a && there k.b && there k.c && k.b.fmt == 11 && decide (k.p8 0 ≤ 1)
      && zeroAt k.param 1 31 && (k.p8 0 == 0 || ([0, 1, 11].contains k.c.fmt && plainFmt k.a && !fourBit k.a))
  | .transpose => there k.a && there k.c && plainFmt k.a && !fourBit k.a && noPar
  | .copy => there k.a && there k.c && noPar
  | .topk => there k.a && there k.c && there k.d && plainFmt k.a && !fourBit k.a && flat && k.d.fmt == 11 && decide (k.p8 0 ≤ 1)
      && zeroAt k.param 1 31 && decide (1 ≤ k.d2) && decide (k.d2 ≤ min k.d1 4096)

/-- Does a kernel use its TENSOR field (R125)? -/
def Kernel.usesTensor (k : Kernel) : Bool := k.op == .scan || k.srnd || usesSrnd k.prog

/-- Is a kernel descriptor acceptable: `users` the core counts of the stables that run it? -/
def kernelOk (s : List Byte) (tensors : List Nat) (sets progStart : Nat) (users : List Nat) (d : List Byte) (k : Kernel) : Bool :=
  let ops := [0x10, 0x20, 0x30, 0x40].map (fun o => (d.drop o).take 16)
  let moves := k.op == .copy || k.op == .gather || k.op == .scatter
  let len := bN d 0x5C 1
  let ranks := 0 :: users.flatMap (fun n => [0, n - 1])
  (KOp.ofCode (bN d 0 1)).isSome && decide (bN d 1 1 < 64) && k.ovfMode != 3 && zeroAt d 2 2 && zeroAt d 0x5D 1
    && decide (bN d 0x54 4 < 2 ^ 20) && ops.all operandOk
    && (moves || k.areas.all (fun x => x.1.space == .sram || x.1.space == .none))
    && k.areas.all (fun x => ranks.all (fun r => areaFits x.1 r x.2.1))
    && k.areas.all (fun x => x.1.space != .peer || users.all (fun n => decide (x.1.peer < n)))
    && (match k.scaleOff with
      | some o => (match k.op with
        | .matmul | .conv | .scan => o % 4 == 0 && decide (o + 12 ≤ sramSize)
        | .attn => o % 4 == 0 && decide (o + 16 ≤ sramSize)
        | _ => true)
      | none => true)
    && k.opOk && !k.overlapBad 0 && !users.any (fun n => (List.range n).any k.overlapBad)
    && (if len = 0 then k.op != .element
        else (k.op == .element || k.op == .matmul || k.op == .conv) && decide (len ≤ 64) && decide (progStart ≤ bN d 0x58 4)
          && programThere s (bN d 0x58 4) len && k.streams.progOk k.prog)
    && (!readsConst k.prog || decide (k.constSet < sets)) && (!k.usesTensor || tensors.contains k.tensor)

/-- KERNELS descriptors refused. -/
def kernelsBad (b : List Byte) : List Nat :=
  let s := secData b 6
  let n := bN s 0 4
  let ks := kernelsOf b
  let ts := (tensorsOf b).map (fun t => t.2.2.id)
  let ss := (stablesOf b).map (fun x => x.2.1)
  badAt [(n == 0 || decide (2 ^ 24 < n) || decide (s.length < 16 + 128 * n) || !zeroAt s 4 12, secOff b 6)]
    ++ (((List.range ks.length).zip ks).filter (fun e =>
        !kernelOk s ts (constsOf b).length (16 + 128 * n) (kernelUsers ss e.1) e.2.2.1 e.2.2.2)).map (fun e => e.2.1)

/-! ### Placement and streams (R254 to R260, R155, R278, R279) -/

/-- Values a region descriptor may hold, by its tier (Table 10-2). -/
def Region.fieldsOk (r : Region) : Bool :=
  let obj := if r.kind = .plain ∧ r.loft then r.objBytes % 65536 == 0 && decide (r.objBytes ≤ 2 ^ 26)
      && (if r.objBytes = 0 then r.owner == 0 else decide (2 ≤ r.owner) && decide (r.owner ≤ 15))
    else r.owner == 0 && r.objBytes == (if r.kind = .poolLoft then 65536 else 0)
  obj && r.length % 65536 == 0
    && (if r.loft then r.onStacks.isEmpty && r.granule == 0 && r.phys == 0
        else !r.onStacks.isEmpty && r.onStacks.all (fun s => decide (s < 12)) && [8, 12, 16, 20].contains r.granule
          && (r.kind != .pool || decide (16 ≤ r.granule)) && r.phys % 65536 == 0)

/-- Is a window record of a region acceptable (R260, R69)? -/
def windowOk (bars : List Nat) (r : Region) (b : List Byte) : Bool :=
  let w := winOf b
  zeroAt b 2 2 && zeroAt b 14 2 && decide (w.id ≤ 65534) && w.off % 64 == 0 && w.len % 64 == 0 && decide (64 ≤ w.len)
    && decide (w.len ≤ 2 ^ 26) && decide (w.off + w.len ≤ r.length) && declared bars w.release

/-- Is a paddock record entry acceptable (R155, R69; its TENSOR declared, 04_number_formats.md R125)? -/
def padOk (bars ts : List Nat) (b : List Byte) : Bool :=
  let p := padOf b
  decide (p.id ≤ 16383) && ts.contains (bN b 4 4) && p.maxBytes % 64 == 0 && decide (p.maxBytes ≤ 2 ^ 28)
    && zeroAt b 20 12 && decide (bN b 18 1 ≤ 3) && declared bars p.recBarrier
    && (!p.eligible || (p.gateWindow != 0xFFFF && p.recBarrier != 0xFFFF))

/-- Reserved values of a region descriptor, and the length of its attached table. -/
def regionOk (d t : List Byte) (r : Region) : Bool :=
  (RegionKind.ofCode (bN d 2 1)).isSome && decide (bN d 3 1 ≤ 1) && decide (r.id ≤ 4095) && zeroAt d 14 2 && zeroAt d 22 2
    && decide (bN d 0x18 8 < 2 ^ 36) && zeroAt d 0x28 24 && r.fieldsOk
    && decide (t.length = bN d 0x20 4)
    && (match r.kind with
      | .shed => t.length % 16 == 0
      | .paddock => t.length % 32 == 0 && decide (t.length ≤ 32 * 16384)
      | .pool => t.length == 64 && bN t 0 4 == 0
      | _ => t.isEmpty)

/-- The windows of an image: shed windows, paddock IN_WINDOWs and GATE_WINDOWs. -/
def windowIds (rs : List Region) : List Nat :=
  rs.flatMap (fun r => r.windows.map (·.id) ++ (r.records.map (·.inWindow)).filter (· != 0xFFFF)
    ++ (r.records.map (·.gateWindow)).filter (· != 0xFFFF))

/-- Do two windows of a region meet? -/
def WinRec.clash (a c : WinRec) : Bool := meets (a.off, a.len) (c.off, c.len)

/-- The record tables of an image: region, offset of the record, its bytes. -/
def tableRecs (b : List Byte) (kind : RegionKind) (size : Nat) : List (Nat × Region × List Byte) :=
  ((regionsOf b).filter (fun r => r.2.2.2.kind == kind)).flatMap (fun r =>
    (recsAt r.2.2.1 0 size (r.2.2.1.length / size)).map (fun e => (r.1 + 64 + e.1, r.2.2.2, e.2)))

/-- Window and paddock records that break R260, R155 or R69; of two with one ID, or that meet, the later. -/
def tablesBad (b : List Byte) : List Nat :=
  let bars := declaredBars b
  let ts := (tensorsOf b).map (fun t => t.2.2.id)
  let ws := tableRecs b .shed 16
  let ps := tableRecs b .paddock 32
  let ids := windowIds ((regionsOf b).map (fun r => r.2.2.2))
  let more := fun (i : Nat) => decide (1 < (ids.filter (· == i)).length)
  (ws.filter (fun e => !windowOk bars e.2.1 e.2.2
      || ws.any (fun q => decide (q.1 < e.1) && ((winOf q.2.2).id == (winOf e.2.2).id
        || (q.2.1.id == e.2.1.id && (winOf q.2.2).clash (winOf e.2.2)))))).map (·.1)
    ++ (ps.filter (fun e => !padOk bars ts e.2.2 || more (padOf e.2.2).inWindow || more (padOf e.2.2).gateWindow)).map (·.1)
    ++ repeatedAt (fun (e : Region × List Byte) => (padOf e.2).id) [] ps

/-- Region descriptors with reserved values, and their table records that break a rule. -/
def regionsBad (b : List Byte) : List Nat :=
  let rs := regionsOf b
  badAt [(bN (secData b 3) 0 4 == 0 || decide (4096 < bN (secData b 3) 0 4) || !zeroAt (secData b 3) 4 12, secOff b 3)]
    ++ (rs.filter (fun r => !regionOk r.2.1 r.2.2.1 r.2.2.2)).map (·.1)
    ++ repeatedAt (fun (r : List Byte × List Byte × Region) => r.2.2.id) [] rs
    ++ tablesBad b

/-- Windows of a stream's ring. -/
def StreamDesc.windows (d : StreamDesc) : List Nat :=
  if d.kind = .fill ∨ d.kind = .walk then (List.range d.ring).map (fun j => d.winBase + j) else []

/-- Bytes a tile takes in its window: converted where CVT is set (R301). -/
def StreamDesc.windowBytes (d : StreamDesc) : Nat :=
  match d.cvt with
  | some (f, g) =>
    let bits := fun c => ((Fmt.ofCode c).getD .fp32).bits
    d.tileBytes * 8 / bits f * bits g / 8
  | none => d.tileBytes

/-- Is a stream descriptor acceptable (R278, R279)? -/
def streamOk (rs : List Region) (ss : List StableRec) (bars : List Nat) (u : Nat) (all : List StreamDesc) (b : List Byte)
    (d : StreamDesc) : Bool :=
  let wins := rs.flatMap (·.windows)
  let pads := rs.flatMap (·.records)
  let ranks := ((ss.find? (fun s => s.id == d.aux % 256)).map (fun s => s.cores.length)).getD 0
  let others := all.filter (fun e => e.id != d.id)
  let pad := pads.find? (fun p => p.id == d.winBase)
  let fl := bN b 1 1
  let cvtFmt := fun c => decide (c < 10) && c != 10
  (StreamKind.ofCode (bN b 0 1)).isSome && decide (fl < 16) && !fl.testBit 1 && decide (bN b 2 2 < 1024)
    && decide (1 ≤ d.tiles) && decide (d.tiles ≤ 2 ^ 24) && decide (bN b 0x23 1 < 16) && decide (bN b 0x32 2 < 512)
    && decide (1 ≤ d.tileBytes) && d.tileBytes % (if d.expand then 4096 else 64) == 0
    && (d.expand || d.kind == .stash || d.kind == .unstash || d.aux == 0)
    && (!d.expand || d.kind == .fill) && (d.cvt.isNone || d.expand)
    && (match d.cvt with | some (f, g) => cvtFmt f && cvtFmt g | none => true)
    && (match d.replayTile with | some t => decide (t < d.tiles) | none => true)
    && (match d.kind with
      | .fill => decide (1 ≤ d.ring) && decide (d.ring ≤ 16) && d.dst == 0
          && d.windows.all (fun w => (wins.find? (fun x => x.id == w)).any (fun x => decide (d.windowBytes ≤ x.len))
            && !others.any (fun e => e.windows.contains w))
      | .copy => d.ring == 0
      | .stash => d.ring == 0 && d.dst == 0 && d.tiles == u && pad.any (fun p => decide (d.tileBytes ≤ p.maxBytes))
          && ranks != 0 && d.tileBytes % (64 * ranks) == 0 && decide (d.src % 2 ^ 20 + d.tileBytes / ranks ≤ sramSize)
      | .unstash => d.ring == 1 && pad.any (fun p => decide (d.tileBytes ≤ p.maxBytes)
            && !others.any (fun e => e.windows.contains p.inWindow || (e.kind == .unstash && e.winBase == d.winBase)))
          && ranks != 0 && d.tileBytes % (64 * ranks) == 0 && decide (d.dst % 2 ^ 20 + d.tileBytes / ranks ≤ sramSize)
      | .walk => decide (1 ≤ d.ring) && decide (d.ring ≤ 16) && decide (d.dst % 2 ^ 20 + d.ring * d.tileBytes ≤ sramSize)
          && d.windows.all (fun w => !(windowIds rs).contains w && !others.any (fun e => e.windows.contains w)))
    && ((d.kind != .fill && d.kind != .walk && d.kind != .unstash) || decide (1 ≤ d.uses))
    && declaredAll bars d.wait d.waitStride d.tiles && declaredAll bars d.signal d.signalStride d.tiles
    && (d.kind != .walk || declaredAll bars d.release 1 d.ring) && (d.kind != .unstash || declaredAll bars d.release 0 1)

/-- The region that holds an address range. -/
def regionOf? (rs : List Region) (a n : Nat) : Option Region :=
  rs.find? (fun r => decide (r.base ≤ a) && decide (a + n ≤ r.base + r.extent))

/-- The ranges a stream reads on its SRC's module: every tile's, an etched header, the walk block (Table 11-2). -/
def StreamDesc.sources (d : StreamDesc) : List (Nat × Nat) :=
  if d.expand then [(d.src, 64)]
  else match d.kind with
    | .fill | .copy => (List.range (if d.srcStride = 0 then min d.tiles 1 else d.tiles)).map (fun t => (d.srcAt t, d.tileBytes))
    | .walk => [(d.src, 1)]
    | .stash | .unstash => []

/-- STREAMS descriptors refused. -/
def streamsBad (b : List Byte) : List Nat :=
  let s := secData b 7
  let ds := streamsOf b
  let rs := (regionsOf b).map (fun r => r.2.2.2)
  let ss := (stablesOf b).map (fun x => x.2.1)
  let all := ds.map (fun d => d.2.2)
  let lagZero := fun (d : StreamDesc) => d.early && d.sources.any (fun x => x.1 / 2 ^ 48 == (headerOf b).moduleId
    && (regionOf? rs (x.1 % 2 ^ 48) 1).any (fun r => r.kind == .state))
  if s.isEmpty then []
  else badAt [(bN s 0 4 == 0 || decide (1024 < bN s 0 4) || !zeroAt s 4 12 || decide (s.length < 16 + 64 * bN s 0 4), secOff b 7)]
    ++ (ds.filter (fun d => !streamOk rs ss (declaredBars b) (stepCfgOf b).microBatches all d.2.1 d.2.2 || lagZero d.2.2)).map (·.1)
    ++ repeatedAt (fun (d : List Byte × StreamDesc) => d.2.id) [] ds

/-! ### Routes, collectives, groom, checks, tables, tensors, step configuration -/

/-- FABRIC_ROUTES entries refused with DESCRIPTOR (R330). -/
def Mod.routesBad (m : Mod) (b : List Byte) : List Nat :=
  match plateSection? b 8 with
  | none => []
  | some (o, s) =>
    let n := bN s 0 4
    badAt [(n == 0 || decide (65536 < n) || bN s 4 1 == 0 || !zeroAt s 5 3 || !zeroAt s 0x10 48
        || s.length != 0x140 + 8 * n, o)]
      ++ badAt ((List.range 64).map (fun p => (bN s (0x40 + 4 * p) 4 / 2 ^ 22 % 2 ^ 9 != 0, o + 0x40 + 4 * p)))
      ++ ((recsAt s 0x140 8 (min n (s.length / 8))).filter (fun r =>
        !zeroAt r.2 5 3 || (r.1 == 0x140 + 8 * m.self && (r.2.take 5).any (fun c => c != 0xFF))
          || (r.2.take 5).any (fun c => c != 0xFF && decide (192 ≤ c.toNat)))).map (fun r => o + r.1)

/-- ROUTE: a choice over a port the variant does not have (R330), or a choice or a link record's port mask, which both place payload
(13_collectives.md R358), over a cable back to this module (R34, R326). -/
def Mod.routeBad (m : Mod) (b : List Byte) : List Nat :=
  let s := secData b 9
  ((choicePorts b).filter (fun e => (m.variant && decide (16 ≤ e.2)) || (m.port e.2).loopback)).map (·.1)
    ++ ((recsAt s (bN s 0x10 4) 16 (min (bN s 4 2) 64)).filter (fun r =>
        (bitsSet (r.2.drop 8)).any (fun p => (m.port p).loopback))).map (fun r => secOff b 9 + r.1)

/-- Is a module linked or routed (R342, R361)? -/
def reachable (cs : CollSec) (rt : Option RouteTab) (x : Nat) : Bool :=
  cs.links.any (fun l => l.1 == x) || (rt.map (fun t => (t.of x).any (fun c => c != 0xFF))).getD false

/-- A slice as a rectangle: first row, first column, rows, columns. -/
def SliceEnt.meets (x y : SliceEnt) : Bool := Machine.meets (x.a, x.c) (y.a, y.c) && Machine.meets (x.b, x.d) (y.b, y.d)

/-- Bytes of a slice in its core's SRAM, by the operation's kind (R341). -/
def CollOp.sliceBytes (op : CollOp) (rowLen : Nat) (x : SliceEnt) : Nat :=
  let size := if op.fmtIn = 0 then 4 else 2
  match op.kind with
  | .exchange => x.c * x.d * size
  | .rows => 4 + 4 * x.a + x.a * rowLen * size
  | .allreduce => x.b * size
  | .fence => 0

/-- Do some of a slice's elements lie in a binding, and do all? Rows of the tensor are `rowLen` elements. -/
def SliceEnt.inBinding (x : SliceEnt) (rowLen : Nat) (bd : Option Binding) : Bool × Bool :=
  let rows := (List.range x.c).map (fun r => ((x.a + r) * rowLen + x.b, x.d))
  match bd with
  | none => (false, false)
  | some g => (rows.any (Machine.meets (g.first, g.count)),
      rows.all (fun p => decide (g.first ≤ p.1) && decide (p.1 + p.2 ≤ g.first + g.count)))

/-- Is slice entry `n` of an operation acceptable (R341, R342, R148, R149)? -/
def sliceOk (cs : CollSec) (bd : Option Binding) (t : Option TensorRec) (ss : List StableRec) (op : CollOp) (n : Nat) (x : SliceEnt) :
    Bool :=
  let rowLen := (bd.map (·.rowLen)).getD 1
  let elems := (t.map (·.elements)).getD 0
  let rows := elems / rowLen
  let others := (cs.ops.filter (fun q => q.kind == .exchange && q.tensor == op.tensor)).flatMap (·.slices)
  let home := if op.pattern = .tree then 0 else (op.homeBase + n) % op.members.length
  let mine := !op.homeOnly || home == op.self
  let at_ := x.inBinding rowLen bd
  ss.any (fun s => s.cores.contains x.core) && decide (x.off + op.sliceBytes rowLen x ≤ sramSize)
    && (match op.kind with
      | .exchange => decide (1 ≤ x.c) && decide (1 ≤ x.d) && decide (x.b + x.d ≤ rowLen) && decide (x.a + x.c ≤ rows)
          && (x.c % 4 == 0 || x.a + x.c == rows) && (x.d % 16 == 0 || x.b + x.d == rowLen)
          && decide (op.sliceBytes rowLen x ≤ 65536) && decide ((others.filter (fun y => x.meets y)).length ≤ 1)
          && (if mine then !at_.1 || at_.2 else !at_.1)
      | .rows => decide (1 ≤ x.a) && decide (x.a ≤ 4096) && x.b == 0 && x.c == 0 && x.d == 0
          && decide (op.sliceBytes rowLen x ≤ 786432)
      | .allreduce => decide (1 ≤ x.b) && decide (x.b ≤ 16384) && x.c == 0 && x.d == 0
      | .fence => true)

/-- Is an operation record acceptable, its slices apart (R340 to R342)? The last micro-batch's DONE_BAR is the one an EXCHANGE
or a ROWS operation signals. -/
def collOpOk (m : Mod) (cs : CollSec) (rt : Option RouteTab) (gs : GroomSec) (ts : List TensorRec) (bars : List Nat) (u : Nat)
    (s b : List Byte) (op : CollOp) : Bool :=
  let bd := op.binding.bind (fun i => gs.bindings[i]?)
  let t := ts.find? (fun x => x.id == op.tensor)
  decide (1 ≤ bN b 0 1) && decide (bN b 0 1 ≤ 4) && decide (bN b 1 1 % 4 ≤ 2) && decide (bN b 2 1 % 4 ≤ 2) && decide (bN b 2 1 < 16)
    && decide (op.reducer < 8) && decide (bN b 4 4 < 2 ^ 20) && decide (1 ≤ bN b 8 4) && decide (bN b 8 4 ≤ 65536)
    && zeroAt b 0x2B 5 && zeroAt b 0x36 2 && zeroAt b 0x3E 2
    && decide (bN s 0x14 4 + bN b 0x10 4 + 2 * bN b 8 4 ≤ s.length)
    && decide (bN s 0x18 4 + 16 * (bN b 0x1C 4 + bN b 0x18 2) ≤ s.length)
    && distinct op.members && op.members[op.self]? == some m.self
    && op.members.all (fun x => x == m.self || reachable cs rt x)
    && (op.comp == .dense || (op.pattern != .ring && op.kind == .exchange))
    && (op.comp == .topk) == decide (1 ≤ op.density) && decide (op.density ≤ 32768)
    && (op.kind == .exchange || op.resid == 0) && (op.kind == .allreduce || op.data == 0)
    && (op.kind != .rows || op.pattern == .direct || op.pattern == .tree)
    && (op.kind == .fence) == (op.slices.length == 0) && decide (op.slices.length ≤ 4096)
    && (op.kind == .fence || ((op.fmtIn == 0 || op.fmtIn == 1) && (op.kind != .allreduce || op.fmtOut == 0 || op.fmtOut == 1)))
    && (match op.kind with
      | .exchange => t.isSome && bd.any (fun g => !g.row && g.tensor == op.tensor)
      | .rows => t.isSome && bd.any (fun g => g.row && g.tensor == op.tensor)
          && decide ((cs.ops.filter (fun q => q.kind == .rows && q.binding == op.binding)).length ≤ 1)
      | .allreduce | .fence => true)
    && declaredAll bars (some op.inBar) op.barStride u && declaredAll bars op.relBar op.barStride u
    && (match op.kind with
      | .exchange | .rows => declaredAll bars (op.doneBar.map (· + (u - 1) * op.barStride)) 0 1
      | .allreduce | .fence => declaredAll bars op.doneBar op.barStride u)

/-- The slice entries of an operation, with their offsets in the image. -/
def collSlices (b d : List Byte) (op : CollOp) : List (Nat × SliceEnt) :=
  ((List.range op.slices.length).zip op.slices).map (fun e =>
    (secOff b 9 + bN (secData b 9) 0x18 4 + 16 * (bN d 0x1C 4 + e.1), e.2))

/-- COLLECTIVES records refused (R340 to R342, R361). -/
def Mod.collsBad (m : Mod) (b : List Byte) : List Nat :=
  match plateSection? b 9 with
  | none => []
  | some (o, s) =>
    let cs := collsOf b
    let rt := routesOf b
    badAt [(decide (65535 < bN s 0 4) || decide (64 < bN s 4 2) || decide (64 < bN s 6 1) || decide (1 < bN s 7 1)
        || !zeroAt s 10 2 || !zeroAt s 0x20 32 || bN s 0x0C 4 % 64 != 0 || bN s 0x10 4 % 16 != 0 || bN s 0x14 4 % 4 != 0
        || bN s 0x18 4 % 16 != 0 || decide (s.length < bN s 0x0C 4 + 64 * bN s 0 4)
        || decide (s.length < bN s 0x10 4 + 16 * bN s 4 2) || decide (s.length < bN s 0x1C 4 + 2 * bN s 6 1)
        || cs.normChildren.any (fun c => c == m.self || !reachable cs rt c)
        || (!cs.normRoot && (cs.normParent == m.self || !reachable cs rt cs.normParent)), o)]
      ++ ((recsAt s (bN s 0x10 4) 16 (min (bN s 4 2) 64)).filter (fun r => !zeroAt r.2 2 6)).map (fun r => o + r.1)
      ++ (collOpsOf b).flatMap (fun r =>
        let gs := groomOf b
        let ts := (tensorsOf b).map (fun t => t.2.2)
        let op := r.2.2
        let bd := op.binding.bind (fun i => gs.bindings[i]?)
        let sl := collSlices b r.2.1 op
        badAt [(!collOpOk m cs rt gs ts (declaredBars b) (stepCfgOf b).microBatches s r.2.1 op, r.1)]
          ++ (((List.range sl.length).zip sl).filter (fun e => !sliceOk cs bd (ts.find? (fun x => x.id == op.tensor))
            ((stablesOf b).map (fun x => x.2.1)) op e.1 e.2.2)).map (fun e => e.2.1))

/-- Insert an interval by its start. -/
def insertRun (x : Nat × Nat) : List (Nat × Nat) → List (Nat × Nat)
  | [] => [x]
  | y :: ys => if x.1 ≤ y.1 then x :: y :: ys else y :: insertRun x ys

/-- The element runs a binding's slices cover: first element and count, ascending. -/
def sliceRuns (cs : List CollOp) (ix : Nat) (g : Binding) : List (Nat × Nat) :=
  ((cs.filter (fun op => op.binding == some ix && op.kind == .exchange)).flatMap (fun op => op.slices.flatMap (fun x =>
    (List.range x.c).map (fun k => ((x.a + k) * g.rowLen + x.b, x.d))))).foldl (fun l x => insertRun x l) []

/-- The runs between element `at_` and `fin` that no interval of an ascending list covers (R174). -/
def gapRuns (fin : Nat) : Nat → List (Nat × Nat) → List (Nat × Nat)
  | p, [] => if p < fin then [(p, fin - p)] else []
  | p, x :: xs =>
    if fin ≤ x.1 then (if p < fin then [(p, fin - p)] else [])
    else if p < x.1 then (p, x.1 - p) :: gapRuns fin (x.1 + x.2) xs
    else gapRuns fin (max p (x.1 + x.2)) xs

/-- The held runs of a binding (R174). -/
def heldRuns (cs : List CollOp) (ix : Nat) (g : Binding) : List (Nat × Nat) :=
  if g.row then [] else gapRuns (g.first + g.count) g.first (sliceRuns cs ix g)

/-- Reserved bits and formats of a stream entry (Table 07-8). -/
def entryOk (out : Bool) (b : List Byte) (e : StreamEntry) : Bool :=
  let w := leNat b
  decide (w / 2 ^ 57 = 0) && decide (w / 2 ^ 52 % 8 ≤ 2) && (!out || e.src != .slice) && (out || !e.wc)
    && decide (e.fmt < 12) && (e.src == .plane || e.addr == 0) && (!e.master || e.fmt == 10)

/-- Is a binding acceptable (R168 to R170)? -/
def bindingOk (s : List Byte) (ts : List TensorRec) (sets : Nat) (bars : List Nat) (gs : List Binding) (runs : Nat)
    (b : List Byte) (g : Binding) : Bool :=
  let t := ts.find? (fun x => x.id == g.tensor)
  let mIn := g.ins.filter (·.master)
  let mOut := g.outs.filter (·.master)
  let wc := g.outs.filter (·.wc)
  let slice := g.ins.filter (fun e => e.src == .slice)
  let st : Streams := ⟨g.ins.map (fun e => e.src != .none), g.outs.map (fun e => e.src != .none), true⟩
  decide (bN b 0 4 < 2 ^ 20) && decide (g.unit < 12) && decide (bN b 5 1 < 8) && decide (bN b 5 1 % 4 ≤ 1)
    && decide (bN b 6 2 < 4096) && zeroAt b 13 1 && zeroAt b 0x16 2 && zeroAt b 0x1E 2 && zeroAt b 0x66 2 && zeroAt b 0x6E 2
    && zeroAt b 0x78 8 && g.first % 2 == 0 && (!g.masked || g.first % 8 == 0)
    && decide (1 ≤ g.rowLen) && decide (g.rowLen ≤ 2 ^ 24)
    && ((recsAt b 0x20 8 4).zip g.ins).all (fun e => entryOk false e.1.2 e.2)
    && ((recsAt b 0x40 8 4).zip g.outs).all (fun e => entryOk true e.1.2 e.2)
    && decide (1 ≤ bN b 12 1) && decide (bN b 12 1 ≤ 64) && programThere s (bN b 8 4) (bN b 12 1) && st.progOk g.prog
    && (!readsConst g.prog || decide (g.constSet < sets))
    && t.any (fun x => x.isParam && decide (g.first + g.count ≤ x.elements)
      && wc.all (fun e => e.fmt == x.fmt) && (!g.row || x.lag == 0))
    && slice.length == 1 && slice.all (fun e => e.fmt == 0 || e.fmt == 1)
    && mIn.length == 1 && mOut.length == 1 && mIn.map (·.addr) == mOut.map (·.addr) && wc.length == 1
    && (!g.row || (!g.masked && g.first % g.rowLen == 0 && g.count % g.rowLen == 0))
    && decide ((gs.filter (fun h => h.tensor == g.tensor && meets (h.first, h.count) (g.first, g.count))).length ≤ 1)
    && declared bars g.wait && declared bars g.signal && decide (runs ≤ 4096)

/-- GROOM records refused. -/
def groomBad (b : List Byte) : List Nat :=
  match plateSection? b 10 with
  | none => []
  | some (o, s) =>
    let gs := groomOf b
    let bars := declaredBars b
    let bs := bindingsOf b
    let frac := fun c => (fp64 c).isFin && !(fp64 c).isNeg && (fp64 c).ltB Val.one
    badAt [(decide (4096 < bN s 0 2) || decide (256 < bN s 2 2) || !zeroAt s 0x20 32 || !frac gs.b1 || !frac gs.b2
        || bN s 0x18 4 % 64 != 0 || bN s 0x1C 4 % 32 != 0 || decide (s.length < bN s 0x18 4 + 128 * bN s 0 2)
        || decide (s.length < bN s 0x1C 4 + 32 * bN s 2 2), o)]
      ++ (((List.range bs.length).zip bs).filter (fun e => !bindingOk s ((tensorsOf b).map (fun t => t.2.2)) (constsOf b).length
        bars gs.bindings (heldRuns (collsOf b).ops e.1 e.2.2.2).length e.2.2.1 e.2.2.2)).map (fun e => e.2.1)
      ++ ((precondsOf b).filter (fun r =>
        let tol := fp32 r.2.2.tol
        decide (255 < r.2.2.id) || decide (12 ≤ r.2.2.unit) || r.2.2.dim == 0 || decide (8192 < r.2.2.dim)
          || !tol.isFin || tol.isZero || tol.isNeg || !declared bars r.2.2.barrier || decide (1 < bN r.2.1 0x1E 1)
          || !zeroAt r.2.1 0x1F 1)).map (·.1)
      ++ repeatedAt (fun (r : List Byte × Precond) => r.2.id) [] (precondsOf b)

/-- Does a job break R387: record size, alive offset, whole records? -/
def ChkJob.aliveBad (j : ChkJob) : Bool :=
  j.alive && (j.recBytes % 16 != 0 || decide (j.recBytes < 16) || decide (1048560 < j.recBytes) || j.aliveOff % 2 != 0
    || decide (j.recBytes < j.aliveOff + 2) || j.len % j.recBytes != 0 || (j.mode != .scan && j.slen % j.recBytes != 0))

/-- CHECK records refused (R390). -/
def checksBad (b : List Byte) : List Nat :=
  let s := secData b 11
  let rs := (regionsOf b).map (fun r => r.2.2.2)
  let bars := declaredBars b
  if s.isEmpty then []
  else badAt [(bN s 0 4 == 0 || decide (1024 < bN s 0 4) || !zeroAt s 4 12, secOff b 11)]
    ++ ((checksOf b).filter (fun r =>
      let j := r.2.2
      decide (7 < j.unit) || decide (bN r.2.1 1 1 ≥ 64) || decide (bN r.2.1 1 1 % 4 = 3) || decide (bN r.2.1 2 2 ≥ 1024)
        || !zeroAt r.2.1 0x24 2 || decide (bN r.2.1 0x30 4 ≥ 2 ^ 20) || !zeroAt r.2.1 0x34 12 || j.aliveBad
        || (j.mode != .snoop && (regionOf? rs j.addr j.len).isNone) || !bars.contains j.start || !declared bars j.done)).map (·.1)

/-- DECODE records refused (R302, R303). -/
def decodeBad (b : List Byte) : List Nat :=
  ((decodeOf b).filter (fun r => !tableValid (r.2.1.drop 16) || decide (1 < r.2.2.slot) || !zeroAt r.2.1 10 6)).map (·.1)

/-- TENSORS records refused (R100, R125, R126 but for placement). -/
def tensorsBad (b : List Byte) : List Nat :=
  let s := secData b 13
  let n := bN s 8 4
  let ts := tensorsOf b
  let ids := ts.map (fun t => t.2.2.id)
  badAt [(n == 0 || decide (1048576 < n) || !zeroAt s 12 4 || decide (s.length < 16 + 32 * n), secOff b 13)]
    ++ (((List.range ts.length).zip ts).filter (fun e =>
      let t := e.2.2.2
      let d := e.2.2.1
      let mg := fp32 t.margin
      decide (bN d 0 4 ≥ 2 ^ 20) || !([0, 1, 2, 3, 4, 5, 6, 7, 8, 9, 11].contains (bN d 4 1)) || decide (bN d 5 1 ≥ 32) || t.ovfMode == 3 || !zeroAt d 7 1
        || !zeroAt d 14 2 || !zeroAt d 0x18 8 || decide (4 < t.lag) || (!t.isParam && t.lag != 0)
        || !mg.isFin || mg.isZero || mg.isNeg || !validScale t.initScale
        || decide (0 < e.1) && decide (t.id ≤ ids.getD (e.1 - 1) 0))).map (fun e => e.2.1)

/-- LAG against placement (R126): the master of a binding's tensor lies in HBM exactly when LAG is 0. -/
def lagBad (b : List Byte) : List Nat :=
  let gs := (groomOf b).bindings
  ((tensorsOf b).filter (fun t => gs.any (fun g => g.tensor == t.2.2.id
    && (g.ins.filter (·.master)).any (fun e => (decide (loftBase ≤ e.addr)) != decide (0 < t.2.2.lag))))).map (·.1)

/-- STEP_CONFIG refused (R198). -/
def stepCfgBad (b : List Byte) : List Nat :=
  let s := secData b 14
  let c := stepCfgOf b
  let ceil := fp32 c.ceiling
  let clip := fp32 c.clipMax
  let tol := fp32 c.tol
  let ss := (stablesOf b).map (fun x => x.2.1)
  let frames := fun (st : StableRec) => ((List.range st.frames.length).zip st.frames).foldl (fun n e => match e.2 with
    | .work rep .. => n + (rep + 1) * ((loopOver st.frames e.1).1 + 1)
    | _ => n) 0
  badAt [(decide (2 < bN s 0 1) || decide (3 < bN s 1 1) || c.microBatches == 0 || decide (256 < c.microBatches)
    || !ceil.isFin || ceil.isZero || ceil.isNeg || !clip.isFin || (clip.isNeg && !clip.isZero)
    || !tol.isFin || (tol.isNeg && !tol.isZero) || (fp32 0x3F000000).ltB tol || (!tol.isZero && c.mode != .tolerant)
    || c.participants == 0 || decide (65536 < c.participants) || !zeroAt s 0x1C 4
    || c.replayReset.any (fun i => !(declaredBars b).contains i), secOff b 14)]
    ++ (c.replayFrame.filter (fun e => !ss.any (fun st => st.id == e.1 && decide (e.2 < frames st)))).map (fun e =>
      secOff b 14 + 0x20 + 4 * e.1)

/-- CONSTANTS refused (R494). -/
def constsBad (b : List Byte) : List Nat :=
  match plateSection? b 16 with
  | none => []
  | some (o, s) => badAt [(s.length == 0 || s.length % 128 != 0 || decide (65536 * 128 < s.length), o)]

/-- STABLES records refused (R65). -/
def stablesBad (b : List Byte) : List Nat :=
  let s := secData b 1
  badAt [(s.length == 0 || s.length % 400 != 0 || decide (256 * 400 < s.length), secOff b 1)]
    ++ ((recsAt s 0 400 (s.length / 400)).filter (fun r => decide (1 < bN r.2 1 1) || !zeroAt r.2 3 1 || !zeroAt r.2 8 8)).map
      (fun r => secOff b 1 + r.1)
    ++ repeatedAt (fun (s : StableRec × List (Nat × Option Frame)) => s.1.id) [] (stablesOf b)

/-- TICK_TREE refused: the reserved bits of the TCK_UPSTREAM layout (DEDUCED: the section holds that word). -/
def tickTreeBad (b : List Byte) : List Nat :=
  match plateSection? b 15 with
  | none => []
  | some (o, s) => badAt [(s.length < 4 || (bN s 0 4 &&& 0x40404040) != 0 || !zeroAt s 4 (s.length - 4), o)]

/-- The modules that stream and collective descriptors name, with the descriptor's place: a stream's source and a COPY's destination, an
operation's members, the neighbours of the norm. -/
def namedModules (b : List Byte) : List (Nat × Nat) :=
  let cs := collsOf b
  (streamsOf b).flatMap (fun d =>
      let x := d.2.2
      (x.sources.map (fun y => (d.1, y.1 / 2 ^ 48))) ++ (if x.kind = .copy then [(d.1, x.dst / 2 ^ 48)] else []))
    ++ (collOpsOf b).flatMap (fun r => r.2.2.members.map (fun x => (r.1, x)))
    ++ (cs.normChildren ++ (if cs.normRoot then [] else [cs.normParent])).map (fun x => (secOff b 9, x))

/-- The place of the first name that makes more than `limit` distinct modules other than `own`. -/
def pastLimit (own limit : Nat) : List Nat → List (Nat × Nat) → List Nat
  | _, [] => []
  | seen, (o, x) :: r =>
    if x = own || seen.contains x then pastLimit own limit seen r
    else if seen.length = limit then [o]
    else pastLimit own limit (x :: seen) r

/-- Remote destinations beyond 8,192 (R330). -/
def Mod.destsBad (m : Mod) (b : List Byte) : List Nat := pastLimit m.self 8192 [] (namedModules b)

/-- DESCRIPTOR. -/
def Mod.descriptorBad (m : Mod) (b : List Byte) : List Nat :=
  (if (headerOf b).kind = .full then
    stablesBad b ++ regionsBad b ++ barriersBad b ++ kernelsBad b ++ streamsBad b
   else [])
    ++ m.routesBad b
    ++ (if (headerOf b).kind = .full then
      m.collsBad b ++ m.destsBad b ++ groomBad b ++ checksBad b ++ decodeBad b ++ tensorsBad b ++ lagBad b ++ stepCfgBad b ++ constsBad b
     else [])
    ++ tickTreeBad b

/-! ### Placement (check 0x10) -/

/-- Tier, banking and stack count of a kind (Table 10-3), the size of NORM, and whole granules on every stack (R256). -/
def Region.kindOk (r : Region) : Bool :=
  let one := r.onStacks.length == 1
  let tier : Bool := match r.kind with
    | .plain => !r.banked
    | .state | .precond => !r.loft && one && r.banked
    | .deferred => r.loft && r.banked
    | .loftState | .ledger | .poolLoft => r.loft && !r.banked
    | .residual => r.banked
    | .shed | .paddock | .pool | .watch => !r.loft && !r.banked
    | .norm => !r.loft && !r.banked && r.length == 524288
  tier && (r.loft || r.length % (r.onStacks.length * 2 ^ r.granule) == 0)

/-- Stack-local bytes an HBM region takes in each member stack. -/
def Region.stackBytes (r : Region) : Nat := r.extent / max 1 r.onStacks.length

/-- Does a region lie in populated memory under the loft mode in force (R263)? -/
def Mod.populated (m : Mod) (r : Region) : Bool :=
  if r.loft then
    let o := r.base - loftBase
    let e := o + r.extent
    if m.fget Fld.LFT_CFG_MODE = 0 then
      decide (e ≤ 4 * loftPortSize) && (List.range 4).all (fun c =>
        !meets (c * loftPortSize, loftPortSize) (o, r.extent) || decide (min e ((c + 1) * loftPortSize) ≤ c * loftPortSize + m.loftCap c))
    else
      let ports := m.loftSet
      decide (e ≤ ports.length * (ports.map m.loftCap).foldl min loftPortSize)
  else decide (r.base + r.extent ≤ hbmSize) && decide (r.phys + r.stackBytes ≤ stackSize)

/-- Do two regions meet in device range or physical extent? -/
def Region.clash (x y : Region) : Bool :=
  meets (x.base, x.extent) (y.base, y.extent)
    || (!x.loft && !y.loft && x.onStacks.any (fun s => y.onStacks.contains s) && meets (x.phys, x.stackBytes) (y.phys, y.stackBytes))

/-- Does a region meet the slot regions (R42, R248)? -/
def Region.inSlots (r : Region) : Bool :=
  !r.loft && (meets (r.base, r.extent) (0x8F_E000_0000, 0x2000_0000)
    || (r.onStacks.contains 11 && meets (r.phys, r.stackBytes) (0xB_E000_0000, 0x2000_0000)))

/-- Kinds of which a plate may have one region. -/
def RegionKind.single (k : RegionKind) : Bool := k == .pool || k == .poolLoft || k == .watch || k == .norm

/-- Region descriptors refused. -/
def Mod.placeRegions (m : Mod) (b : List Byte) : List Nat :=
  let rs := regionsOf b
  let maxId := (tensorsOf b).foldl (fun n t => max n (t.2.2.id + 1)) 0
  (rs.filter (fun r =>
    let x := r.2.2.2
    !x.kindOk || !m.populated x || x.inSlots || (x.kind == .watch && decide (x.length < 64 * maxId))
      || rs.any (fun q => decide (q.1 < r.1) && (q.2.2.2.clash x || (x.kind.single && q.2.2.2.kind == x.kind))))).map (·.1)

/-- The device ranges a kernel's operands name, for every rank of each user, with whether they are written. -/
def kernelRanges (k : Kernel) (users : List Nat) : List (Nat × Nat × Bool) :=
  (k.areas.filter (fun x => x.1.space == .device)).flatMap (fun x =>
    (users.flatMap List.range).map (fun r => (x.1.base r, areaSpan x.1 x.2.1, x.2.2)))

/-- Kernel descriptors that name memory in no region, or write a banked one (R255). -/
def placeKernels (b : List Byte) (rs : List Region) : List Nat :=
  let ss := (stablesOf b).map (fun x => x.2.1)
  let ks := kernelsOf b
  (((List.range ks.length).zip ks).filter (fun e => (kernelRanges e.2.2.2 (kernelUsers ss e.1)).any (fun r =>
    decide (0 < r.2.1) && (match regionOf? rs r.1 r.2.1 with
      | none => true
      | some x => (r.2.2 && x.banked) || x.kind == .paddock)))).map (fun e => e.2.1)

/-- Stream descriptors that name memory in no region, or write a banked one. -/
def placeStreams (b : List Byte) (rs : List Region) : List Nat :=
  let own := (headerOf b).moduleId
  ((streamsOf b).filter (fun d =>
    let x := d.2.2
    let src := x.sources.any (fun y => y.1 / 2 ^ 48 == own && (regionOf? rs (y.1 % 2 ^ 48) y.2).isNone)
    let dst := x.kind == .copy && (List.range x.tiles).any (fun t => x.dstAt t / 2 ^ 48 == own
      && (match regionOf? rs (x.dstAt t % 2 ^ 48) x.tileBytes with | none => true | some r => r.banked))
    src || dst)).map (·.1)

/-- Bindings and preconditioners whose planes lie in no region or outside its live view, in one of the wrong kind or in another
stack (R170), and preconditioners whose buffer's region is not reserved to them (R186). -/
def placeGroom (b : List Byte) (rs : List Region) : List Nat :=
  let ts := (tensorsOf b).map (fun t => t.2.2)
  let size := fun (e : StreamEntry) (g : Binding) => (((Fmt.ofCode e.fmt).getD .fp32).bits * g.count + 7) / 8
  let ok := fun (lag unit : Nat) (wc : Bool) (a n : Nat) => match regionOf? rs a n with
    | none => false
    | some r => decide (a + n ≤ r.base + r.length) && (if lag = 0 then r.kind == .state && r.onStacks == [unit]
      else if wc then r.kind == .deferred else r.kind == .loftState)
  let buf := fun (p : Precond) => regionOf? rs p.buf (4 * p.dim * p.dim)
  ((bindingsOf b).filter (fun r =>
    let g := r.2.2
    let lag := ((ts.find? (fun t => t.id == g.tensor)).map (·.lag)).getD 0
    let planes := (g.ins ++ g.outs).filter (fun e => e.src == .plane)
    planes.any (fun e => !ok lag g.unit e.wc e.addr (size e g))
      || (g.masked && !ok lag g.unit false g.mask ((g.count + 7) / 8))
      || (g.row && !ok lag g.unit false g.rows (8 * (g.count / g.rowLen))))).map (·.1)
    ++ ((precondsOf b).filter (fun r => match buf r.2.2 with
      | none => true
      | some x => x.kind != .precond || x.onStacks != [r.2.2.unit] || (regionOf? rs r.2.2.resid 4).isNone
        || decide (x.base + x.length < r.2.2.buf + 4 * r.2.2.dim * r.2.2.dim)
        || (precondsOf b).any (fun q => decide (q.1 < r.1) && (buf q.2.2).any (fun y => y.base == x.base)))).map (·.1)

/-- Bytes of an EXCHANGE's residual: a record for each slice, an 8-byte tag and BF16 values padded to 64 bytes (R347). -/
def CollOp.residBytes (op : CollOp) : Nat := (op.slices.map (fun x => (8 + 2 * (x.c * x.d) + 63) / 64 * 64)).sum

/-- Operations whose residual, and slices whose result, lies in no region or in one of the wrong kind (R340). -/
def placeColls (b : List Byte) (rs : List Region) : List Nat :=
  (collOpsOf b).flatMap (fun r =>
    let op := r.2.2
    let size := if op.fmtOut = 0 then 4 else 2
    badAt [(op.kind == .exchange && !(regionOf? rs op.resid op.residBytes).any (fun x =>
        x.kind == .residual && decide (op.resid + op.residBytes ≤ x.base + x.length)), r.1)]
      ++ (if op.kind = .allreduce then ((collSlices b r.2.1 op).filter (fun e =>
        !(regionOf? rs (op.data + e.2.a * size) (e.2.b * size)).any (fun x => x.kind == .plain && !x.loft))).map (·.1)
      else []))

/-- The live-view ranges of STATE and RESIDUAL regions that a plate's passes and exchanges rewrite: planes, masks, row counts
and residuals. -/
def coveredRanges (b : List Byte) : List (Nat × Nat) :=
  let size := fun (e : StreamEntry) (g : Binding) => (((Fmt.ofCode e.fmt).getD .fp32).bits * g.count + 7) / 8
  ((bindingsOf b).flatMap (fun r =>
    let g := r.2.2
    ((g.ins ++ g.outs).filter (fun e => e.src == .plane)).map (fun e => (e.addr, size e g))
      ++ (if g.masked then [(g.mask, (g.count + 7) / 8)] else [])
      ++ (if g.row then [(g.rows, 8 * (g.count / g.rowLen))] else [])))
    ++ ((collOpsOf b).filter (fun r => r.2.2.kind == .exchange)).map (fun r => (r.2.2.resid, r.2.2.residBytes))

/-- A range put into its place of a list in ascending order. -/
def rangeInsert (x : Nat × Nat) : List (Nat × Nat) → List (Nat × Nat)
  | [] => [x]
  | y :: r => if x.1 ≤ y.1 then x :: y :: r else y :: rangeInsert x r

/-- Do ranges in ascending order leave a whole 64-byte sector free between `pos` and the last of them, or `slack` bytes after it? -/
def rangeHole (stop slack : Nat) : Nat → List (Nat × Nat) → Bool
  | pos, [] => decide (pos + slack ≤ stop)
  | pos, x :: r => decide ((pos + 63) / 64 * 64 + 64 ≤ x.1) || rangeHole stop slack (max pos (x.1 + x.2)) r

/-- Is a banked STATE or RESIDUAL region covered only in part (R200)? Some range reaches it and leaves a sector of it free; the bytes
that end a sector, and those that fill LENGTH up to its unit, are padding (DEDUCED, log 80). -/
def Region.partCovered (r : Region) (xs : List (Nat × Nat)) : Bool :=
  let unit := if r.loft then 65536 else Nat.lcm 65536 (r.onStacks.length * 2 ^ r.granule)
  let mine := (xs.filter (fun x => decide (0 < x.2) && meets (r.base, r.length) x)).foldr rangeInsert []
  r.banked && (r.kind == .state || r.kind == .residual) && !mine.isEmpty && rangeHole (r.base + r.length) unit r.base mine

/-- Regions covered only in part (R200). -/
def placeCover (b : List Byte) : List Nat :=
  let xs := coveredRanges b
  ((regionsOf b).filter (fun r => r.2.2.2.partCovered xs)).map (·.1)

/-- PLACEMENT. -/
def Mod.placementBad (m : Mod) (b : List Byte) : List Nat :=
  let rs := (regionsOf b).map (fun r => r.2.2.2)
  if (headerOf b).kind = .full then m.placeRegions b ++ placeKernels b rs ++ placeStreams b rs ++ placeColls b rs ++ placeGroom b rs ++ placeCover b
  else []

/-! ### The whole proof -/

/-- The base plate of a ROUTE_UPDATE, checked at proof (0x12). -/
def Mod.baseBad (m : Mod) (b : List Byte) : List Nat :=
  let h := headerOf b
  if h.kind = .full then []
  else badAt [(m.plate?.map (·.hash) != some h.baseHash, 0x40), (m.epoch != h.epoch, 0x14)]

/-- Does an enrolled key verify the trailer over the plate hash (R40, R406)? -/
def Mod.trailerOk (m : Mod) (hash trailer : List Byte) : Bool :=
  m.sec.plateKeys.any (fun k => hssOk false k.2 hash trailer)

/-- The checks after LAYOUT, in the order of Table 02-4: result code and the offsets at which it fails. `tail` is the
trailer with its poison, `expect` what PROVE sampled. -/
def Mod.lateChecks (m : Mod) (b : List Byte) (tail : List (Byte × Bool)) (expect : Option (List Byte)) : List (Nat × List Nat) :=
  let h := headerOf b
  let signed := (bN b 10 2).testBit 0
  let full := h.kind == .full
  let y := if full then (Config.yardOver (secData b 2)).toList.map (fun o => secOff b 2 + o) else []
  [(0x04, sectionCrcBad b), (0x05, sectionSetBad b),
   (0x06, badAt [(m.fget Fld.SEC_POLICY_REQUIRE_SIGNED == 1 && !signed, 0x0A)]),
   (0x13, if signed && rdPoison tail then [(b.length + (tail.takeWhile (fun x => !x.2)).length) / 64 * 64] else []),
   (0x07, badAt [(signed && !m.trailerOk (sha256 b) (rdBytes tail), b.length)]),
   (0x08, badAt [(expect.any (fun e => e != sha256 b), 0)]), (0x09, badAt [(h.moduleId != m.self, 0x1A)]),
   (0x0A, m.variantBad b), (0x0B, badAt [(decide (m.fget Fld.SEC_FW_BUNDLE_BUNDLE < h.minFw), 0x20)]), (0x0C, m.fencedBad b),
   (0x0D, m.descriptorBad b), (0x0E, y), (0x0F, m.routeBad b), (0x10, m.placementBad b),
   (0x11, if full then scheduleBad b else []), (0x12, m.baseBad b)]

/-- The first check that fails, with the offset it reports. -/
def firstBad : List (Nat × List Nat) → Nat × Nat
  | [] => (0, 0)
  | (_, []) :: r => firstBad r
  | (c, o :: _) :: _ => (c, o)

/-- What a proof finds (R46): result, offset, how far it came (0 HEADER failed, 1 LEN and EPOCH known, 2 the hash too), and
the image. `rd` reads the slot region: bytes with their poison. -/
def Mod.proof (m : Mod) (rd : Nat → Nat → List (Byte × Bool)) (expect : Option (List Byte)) : Nat × Nat × Nat × List Byte :=
  let head := rd 0 128
  let hb := rdBytes head
  if rdPoison head then (0x13, (head.takeWhile (fun x => !x.2)).length / 64 * 64, 0, hb)
  else match headerBad hb with
    | o :: _ => (0x01, o, 0, hb)
    | [] => match lengthBad hb with
      | o :: _ => (0x02, o, 1, hb)
      | [] =>
        let img := rd 0 (bN hb 0x10 4)
        let b := rdBytes img
        if rdPoison img then (0x13, (img.takeWhile (fun x => !x.2)).length / 64 * 64, 1, b)
        else match layoutBad b with
          | o :: _ => (0x03, o, 1, b)
          | [] =>
            let r := firstBad (m.lateChecks b (rd b.length (bN b 0x60 4)) expect)
            (r.1, r.2, 2, b)

end Sys2Proof.Machine
end

