-- ==== Sys2Proof/Machine/Frames.lean ====
section
/-! DEFINITION. Stables and their frames (02_plate_and_tick.md R65 to R73), windows and paddock instances as frames see them
(10_memory_tiers.md R261; 11_streams.md R281; 06_backward_pass.md R159 to R161), signals and barriers. -/

namespace Sys2Proof.Machine

/-! ### Positions in a schedule -/

/-- The position after a record is left: the next record, or the first of a LOOP's body while passes are left (R66). -/
def nextRecord (fs : List Frame) (i pass : Nat) : StablePos :=
  match fs[i + 1]? with
  | some (.loop rep back _ _) => if pass < rep then ⟨i + 1 - back, 0, pass + 1⟩ else ⟨i + 2, 0, 0⟩
  | _ => ⟨i + 1, 0, pass⟩

/-- The position after the frame at a position (R66). -/
def nextPos (fs : List Frame) (p : StablePos) : StablePos :=
  match fs[p.recIx]? with
  | some (.work rep ..) => if p.rep < rep then { p with rep := p.rep + 1 } else nextRecord fs p.recIx p.pass
  | _ => p

/-- What the frame at a position runs and names: first descriptor, count, barriers, window (R66). -/
structure FrameNow where
  kfirst : Nat
  kcount : Nat
  waitA : Nat
  waitB : Nat
  signal : Nat
  window : Nat
deriving DecidableEq, Repr

/-- The frame at a position; none at END. -/
def frameNow (fs : List Frame) (p : StablePos) : Option FrameNow :=
  match fs[p.recIx]? with
  | some (.work _ kfirst kcount _ wa wb sg win ks ws) =>
    let l := loopOver fs p.recIx
    some ⟨kfirst + p.rep * ks + p.pass * l.2.1, kcount, wa, wb, sg,
      if win = 0xFFFF then win else win + p.rep * ws + p.pass * l.2.2⟩
  | _ => none

/-! ### State of a stable -/

/-- A stable's state. -/
def Mod.stable? (m : Mod) (id : Nat) : Option StableRun := kvGet? m.sched.stables id

/-- Replace a stable's state. -/
def Mod.setStable (m : Mod) (id : Nat) (x : StableRun) : Mod :=
  { m with sched := { m.sched with stables := kvSet m.sched.stables id x } }

/-- The stable records of the active plate, in ascending ID. -/
def Mod.stables (m : Mod) : List StableRec :=
  (m.plate?.map (·.stables)).getD [] |>.foldl (fun (l : List StableRec) s => insertBy s l) []
where
  /-- Insert by ID. -/
  insertBy (s : StableRec) : List StableRec → List StableRec
    | [] => [s]
    | t :: ts => if s.id ≤ t.id then s :: t :: ts else t :: insertBy s ts

/-- Has a stable ended its frames, or is it fenced? -/
def StableRun.ended (x : StableRun) : Bool := x.st == .fin || x.st == .fenced

/-- Does the stable take part in the current attempt (R73, R203)? -/
def Mod.takesPart (m : Mod) (id : Nat) : Bool :=
  m.step.attempt == 0 || (m.plate?.map (fun p => (kvGet? p.cfg.replayFrame id).isSome)).getD false

/-- Has every stable ended? -/
def Mod.allEnded (m : Mod) : Bool := m.sched.stables.all (fun e => e.2.ended)

/-- Is the step in progress in a phase that runs frames? -/
def Mod.framesRun (m : Mod) : Bool := m.step.phase == .run || m.step.phase == .replay

/-- Is any core of the module halted (18_debug.md R456)? -/
def Mod.anyHalted (m : Mod) : Bool := m.cores.any (fun e => e.2.halt.isSome)

/-! ### Windows -/

/-- A window's state. -/
def Mod.win (m : Mod) (w : Nat) : Win := kvGetD m.stm.wins w ⟨.empty, 0, 0, 0, 0⟩

/-- Replace a window's state; an EMPTY window is not listed. -/
def Mod.setWin (m : Mod) (w : Nat) (x : Win) : Mod :=
  { m with stm := { m.stm with wins := if x.st = .empty then kvDel m.stm.wins w else kvSet m.stm.wins w x } }

/-- Empty a window. -/
def Mod.emptyWin (m : Mod) (w : Nat) : Mod := { m with stm := { m.stm with wins := kvDel m.stm.wins w } }

/-- Is the window READY, or is none named (R67 condition 3)? -/
def Mod.winReady (m : Mod) (w : Nat) : Bool := w == 0xFFFF || (m.win w).st == .ready

/-- A frame that names a window completes: one use less; the window empties when none is left (11_streams.md R281). -/
def Mod.winUsed (m : Mod) (w : Nat) : Mod :=
  let x := m.win w
  if w = 0xFFFF ∨ x.st ≠ .ready ∨ x.uses = 0 then m
  else if x.uses = 1 then m.emptyWin w else m.setWin w { x with uses := x.uses - 1 }

/-- The barrier that empties a window: of its SHED record or of the descriptor that declares it (R260, R281). -/
def Mod.winRelease (m : Mod) (w : Nat) : Option Nat :=
  let shed := (m.regions.flatMap (·.windows)).find? (fun x => x.id == w)
  match shed with
  | some x => notCode 0xFFFF x.release
  | none => (m.plate?.bind (fun p => p.streams.find? (fun d => d.windows.contains w
      || (d.kind == .unstash && p.regions.any (fun r => r.records.any (fun q => q.id == d.winBase && q.inWindow == w)))))).bind
      (fun d => d.release.map (fun b => if d.kind = .walk then b + (w - d.winBase) else b))

/-- Uses a window has when it becomes READY: those of the descriptor that fills it where no barrier releases it (R281). -/
def Mod.winUses (m : Mod) (w : Nat) (d : StreamDesc) : Nat := if (m.winRelease w).isSome then 0 else d.uses

/-! ### Paddock instances -/

/-- Key of a record instance: record × 256 + micro-batch. -/
def padKey (record mb : Nat) : Nat := record * 256 + mb

/-- Paddock records of the active plate. -/
def Mod.padRecs (m : Mod) : List PadRec := m.regions.flatMap (·.records)

/-- The UNSTASH descriptor of a record. -/
def Mod.unstashOf (m : Mod) (record : Nat) : Option StreamDesc :=
  m.plate?.bind (fun p => p.streams.find? (fun d => d.kind == .unstash && d.winBase == record))

/-- The state of a stream context. -/
def Mod.ctx (m : Mod) (stream : Nat) : CtxRun :=
  kvGetD (kvGetD m.stm.engines (stream / 16) .rest).ctxs (stream % 16) .rest

/-- Replace a context's state. -/
def Mod.setCtx (m : Mod) (stream : Nat) (x : CtxRun) : Mod :=
  let e := kvGetD m.stm.engines (stream / 16) .rest
  { m with stm := { m.stm with engines := kvSet m.stm.engines (stream / 16) { e with ctxs := kvSet e.ctxs (stream % 16) x } } }

/-- The micro-batch of a record whose tile its UNSTASH context delivers next (DEDUCED: an unstash context's tile number is the
micro-batch). -/
def Mod.padNext (m : Mod) (record : Nat) : Nat :=
  match m.unstashOf record with
  | some d =>
    let c := m.ctx d.id
    (c.flight.head?.map (·.tile)).getD c.next
  | none => ((m.pad.insts.filter (fun e => e.1 / 256 == record)).head?.map (fun e => e.1 % 256)).getD 0

/-- The current micro-batch of a record for its recompute frames (R159): the one whose instance its IN_WINDOW holds, delivered and
not yet consumed; else the next one delivered. -/
def Mod.padMb (m : Mod) (record : Nat) : Nat :=
  match m.padRecs.find? (fun r => r.id == record) with
  | some r =>
    let w := m.win r.inWindow
    if w.st = .ready ∧ w.step = m.fget Fld.GRM_STEP_STEP then w.tile else m.padNext record
  | none => m.padNext record

/-- Is a record's instance of the current micro-batch dropped? -/
def Mod.padDropped (m : Mod) (record : Nat) : Bool :=
  (kvGet? m.pad.insts (padKey record (m.padMb record))).any (fun i => i.place == .dropped)

/-- Is the instance that a record's UNSTASH context delivers next dropped? -/
def Mod.nextDropped (m : Mod) (record : Nat) : Bool :=
  (kvGet? m.pad.insts (padKey record (m.padNext record))).any (fun i => i.place == .dropped)

/-- Release an instance: its pages or spill pages are free again (R161). -/
def PadUnit.release (p : PadUnit) (key : Nat) : PadUnit :=
  match kvGet? p.insts key with
  | some ⟨.pages ps, _, _⟩ => { p with insts := kvDel p.insts key, free := ps.foldl setAdd p.free }
  | some _ => { p with insts := kvDel p.insts key }
  | none => p

/-- Pool pages an instance's spill object holds in POOL_LOFT. -/
def PadUnit.spillPages (p : PadUnit) (key : Nat) : List Nat :=
  match kvGet? p.insts key with
  | some ⟨.spill ps, _, _⟩ => ps
  | _ => []

/-- Release an instance with its spill object (R158, R161). -/
def Mod.padRelease (m : Mod) (key : Nat) : Mod :=
  { m with pool := { m.pool with spillFree := (m.pad.spillPages key).foldl setAdd m.pool.spillFree },
           pad := m.pad.release key }

/-- Release every instance of the step (R160, R161). -/
def Mod.padReleaseAll (m : Mod) : Mod := m.pad.insts.foldl (fun x e => x.padRelease e.1) m

/-- The last micro-batch of a step. -/
def Mod.lastMb (m : Mod) : Nat := ((m.plate?.map (·.cfg.microBatches)).getD 1) - 1

/-- Is a WORK frame that names window `w` a recompute frame to be passed (R159)? The recompute of a dropped instance begins
when the frame is run. -/
def Mod.gatePassed (m : Mod) (w : Nat) : Bool :=
  w != 0xFFFF && m.padRecs.any (fun r => r.gateWindow == w && !m.padDropped r.id)

/-- Is window `w` a gate window? -/
def Mod.isGate (m : Mod) (w : Nat) : Bool := w != 0xFFFF && m.padRecs.any (fun r => r.gateWindow == w)

/-- Mark the recompute of the instances behind a gate window as begun (R158). -/
def Mod.beginRecompute (m : Mod) (w : Nat) : Mod :=
  (m.padRecs.filter (fun r => r.gateWindow == w)).foldl (fun x r =>
    let k := padKey r.id (x.padMb r.id)
    match kvGet? x.pad.insts k with
    | some i => { x with pad := { x.pad with insts := kvSet x.pad.insts k { i with begun := true } } }
    | none => x) m

/-! ### Frames at a boundary -/

/-- Save the position where the stable meets its REPLAY_FRAME (08_step_commit.md R204). -/
def Mod.savePos (m : Mod) (id : Nat) (x : StableRun) : StableRun :=
  match m.plate?.bind (fun p => kvGet? p.cfg.replayFrame id) with
  | some f => if x.frame = f ∧ x.saved = none then { x with saved := some (x.pos, x.frame) } else x
  | none => x

/-- Pass the recompute frames that are not to be run at this boundary, giving their signals (R159). -/
def Mod.passGates (fs : List Frame) (id : Nat) : Nat → Mod → Mod
  | 0, m => m
  | n + 1, m =>
    match m.stable? id with
    | some x =>
      match frameNow fs x.pos with
      | some f =>
        if !x.busy && !x.ended && m.gatePassed f.window then
          let y := m.savePos id x
          let z := { y with pos := nextPos fs y.pos, frame := y.frame + 1, lag := false }
          let w := if (frameNow fs z.pos).isNone then { z with st := .fin } else z
          Mod.passGates fs id n ((m.setStable id w).signal f.signal)
        else m
      | none => m
    | none => m

/-- Conditions of R67 that fail at this boundary, as bits [2:0]; a kernel left running by a step that ended with a fault counts as
one of the previous frame's (R68). -/
def Mod.frameFails (m : Mod) (s : StableRec) (x : StableRun) (f : FrameNow) : Nat :=
  (if x.busy || s.cores.any (fun c => (m.core c).run.isSome) then 1 else 0) + (if m.waitDone f.waitA && m.waitDone f.waitB then 0 else 2)
    + (if m.isGate f.window || m.winReady f.window then 0 else 4)

/-- Is a core of the stable halted (R456)? -/
def Mod.stableHalted (m : Mod) (s : StableRec) : Bool := s.cores.any (fun c => (m.core c).halt.isSome || (m.core c).haltReq.isSome)

/-- Were the duties below 8/8 in the tick that ended (17_power_reset.md R429)? -/
def Mod.throttled (m : Mod) : Bool := decide (m.fget Fld.PWR_DUTY_DM < 8) || decide (m.fget Fld.PWR_DUTY_DH < 8)

/-- A slip (R71, R429, R456): counted; under WAIT one late event per run of slips; under FAULT the step faults. -/
def Mod.slip (m : Mod) (s : StableRec) (x : StableRun) (f : FrameNow) (fails : Nat) (throttled : Bool) : Mod :=
  let id := s.id
  let consec := min (m.fget Fld.PLT_SLIP_COUNT_CONSEC id + 1) 255
  let m1 := (m.fset Fld.PLT_SLIP_COUNT_CONSEC consec id).fsat Fld.PLT_SLIP_COUNT_TOTAL 1 id
  let m2 := if throttled then m1.fsat Fld.PWR_THROTTLE_SLIPS_COUNT else m1
  let m3 := m2.trace 5 id consec
  let stream := (fails / 4) % 2 == 1
  let code := if stream then 0x0206 else 0x0205
  let d2 := fails + (if stream then f.window * 2 ^ 16 else 0)
  let ix := if x.busy then x.frame + 1 else x.frame
  let wait := !s.faultPolicy || throttled || m.stableHalted s
  if wait then
    let due := !x.late && decide (s.slipLimit ≤ consec)
    let m4 := m3.setStable id { x with st := .slip, late := x.late || due, slips := x.slips + 1 }
    if due then m4.raise .contained code id ix consec d2 else m4
  else ((m3.setStable id { x with st := .slip, slips := x.slips + 1 }).raise .step code id ix consec d2).fault code

/-- A frame completes: its signal and its window's use are given, and the stable moves on; at its END it waits (R67, R69,
R281). -/
def Mod.frameDone (m : Mod) (s : StableRec) : Mod :=
  match m.stable? s.id with
  | some x =>
    match frameNow s.frames x.pos with
    | some f =>
      if !x.busy then m
      else
        let p := nextPos s.frames x.pos
        let fin := (frameNow s.frames p).isNone
        let y := { x with busy := false, pos := if fin then x.pos else p, frame := x.frame + 1, lag := true,
                          st := if fin then .fin else x.st }
        ((m.setStable s.id y).signal f.signal).winUsed f.window
    | none => m
  | none => m

/-- Start a frame (R67): the cores of the stable take its kernels from the first; an idle frame completes at once. -/
def Mod.frameStart (m : Mod) (s : StableRec) (x : StableRun) (f : FrameNow) : Mod :=
  let y := m.savePos s.id x
  let m1 := (m.setStable s.id { y with st := .run, busy := true, late := false, lag := false }).fset Fld.PLT_SLIP_COUNT_CONSEC 0 s.id
  let m2 := if m1.isGate f.window then m1.beginRecompute f.window else m1
  let m3 := m2.trace 2 s.id x.frame
  if f.kcount = 0 ∨ s.cores.isEmpty then m3.frameDone s
  else s.cores.foldl (fun z c => z.setCore c { z.core c with kpos := 0, run := none, done := false }) m3

/-- A boundary's verdict on one stable, evaluated on the state at the boundary: nothing, a start, or a slip. -/
inductive FrameVerdict where
  | rest
  | start (x : StableRun) (f : FrameNow)
  | late (x : StableRun) (f : FrameNow) (fails : Nat)
deriving DecidableEq, Repr

/-- What the boundary makes of a stable (R67, R71): the frame due is the one after a frame that still runs; a stable whose last frame
still runs has none due. -/
def Mod.frameVerdict (m : Mod) (s : StableRec) : FrameVerdict :=
  match m.stable? s.id with
  | some x =>
    if x.ended then .rest
    else match frameNow s.frames (if x.busy then nextPos s.frames x.pos else x.pos) with
      | some f =>
        let fails := m.frameFails s x f
        if fails = 0 && !m.stableHalted s then .start x f else .late x f fails
      | none => .rest
  | none => .rest

/-- At a boundary a stable that has reached END leaves its last frame: its index counts every frame executed (R67). -/
def Mod.endIndex (m : Mod) : Mod :=
  { m with sched := { m.sched with stables := m.sched.stables.map (fun e =>
      (e.1, if e.2.ended then { e.2 with lag := false } else e.2)) } }

/-- Every stable goes to END (06_backward_pass.md R160). -/
def Mod.endStables (m : Mod) : Mod :=
  { m with sched := { m.sched with stables := m.sched.stables.map (fun e =>
      (e.1, if e.2.st = .fenced then e.2 else { e.2 with st := .fin, busy := false })) } }

/-- The frames of a boundary: recompute frames are passed, slips counted first, then frames start unless the step has a fault;
a step with a fault sends every stable to END (R67, R71, R160). -/
def Mod.frameBoundary (m : Mod) : Mod :=
  if !m.framesRun && m.step.phase != .await then m
  else if m.step.cause.isSome then m.endStables
  else if !m.framesRun then m
  else
    let ss := m.stables
    let thr := m.throttled
    let m1 := ss.foldl (fun x s => Mod.passGates s.frames s.id 65536 x) m
    let vs := ss.map (fun s => (s, m1.frameVerdict s))
    let m2 := vs.foldl (fun x v => match v.2 with | .late y f fails => x.slip v.1 y f fails thr | _ => x) m1
    if m2.step.cause.isSome then m2
    else vs.foldl (fun x v => match v.2 with | .start y f => x.frameStart v.1 y f | _ => x) m2

/-! ### Signals (R69, R70) -/

/-- The deadline of tile `t` (11_streams.md R286); `early` is the boundary from which it could start before its own step. -/
def Mod.tileDeadline (m : Mod) (d : StreamDesc) (t : Nat) (early : Option Nat) : Nat :=
  let own := d.dlBase + t * d.dlStride
  match early with
  | some g => g + own
  | none => m.step.start + own + ((d.dlStable.bind m.stable?).map (·.slips)).getD 0

/-- A tile delivered in a tick later than its deadline is counted (11_streams.md R287). -/
def Mod.tileLate (m : Mod) (d : StreamDesc) (t : Nat) (early : Option Nat) : Mod :=
  if m.tileDeadline d t early < m.tick.count then m.fsat Fld.STM_CTX_LATE_COUNT 1 (d.id / 16) (d.id % 16) else m

/-- What completes with a barrier: the windows it releases empty (R260, R281); a dropped instance's IN_WINDOW becomes READY, its
tile is delivered and the instance released unless it is of the last micro-batch (R159, R161). -/
def Mod.barrierComplete (m : Mod) (b : Nat) : Mod :=
  let m1 := (m.stm.wins.filter (fun e => m.winRelease e.1 == some b)).foldl (fun x e => x.emptyWin e.1) m
  (m1.padRecs.filter (fun r => r.recBarrier == b && m1.nextDropped r.id)).foldl (fun x r =>
    let mb := x.padNext r.id
    let k := padKey r.id mb
    let y := if mb < x.lastMb then x.padRelease k else x
    match x.unstashOf r.id with
    | some d =>
      let c := y.ctx d.id
      let z := y.setCtx d.id { c with flight := c.flight.filter (fun t => t.tile != mb), done := c.done + 1,
                                      next := max c.next (mb + 1) }
      let late := (c.flight.find? (fun t => t.tile == mb)).bind (·.early)
      let w := (z.setWin r.inWindow ⟨.ready, z.winUses r.inWindow d, d.id, mb, z.fget Fld.GRM_STEP_STEP⟩).tileLate d mb late
      match d.signal with
      | some g => w.signal (g + mb * d.signalStride)
      | none => w
    | none => y.setWin r.inWindow ⟨.ready, 0, 0, mb, y.fget Fld.GRM_STEP_STEP⟩) m1

/-- A barrier receives a signal (R69, R70). A signal to one that is complete is BARRIER_OVERRUN. -/
def Mod.barrierHit (m : Mod) (b : Nat) : Mod :=
  match m.barrierExpect b with
  | none => m
  | some n =>
    if m.barrierDone b then m.raiseStep 0x0204 b n (m.fget Fld.GRM_STEP_STEP)
    else
      let c := kvGetD m.sched.barriers b 0 + 1
      let m1 := { m with sched := { m.sched with barriers := kvSet m.sched.barriers b c } }
      if c = n then m1.barrierComplete b else m1

/-- Take one signal out of those in flight. -/
def takeSignal (b : Nat) : List Nat → Option (List Nat)
  | [] => none
  | x :: xs => if x = b then some xs else (takeSignal b xs).map (fun r => x :: r)

/-- BARRIER_SIGNAL: one signal in flight reaches its barrier. -/
def execBarrierSignal (id : Nat) (s : State) : Host.Outcome State Fault Refusal :=
  .next (s.unit (fun m => match takeSignal id m.sched.sigs with
    | some rest => Mod.barrierHit { m with sched := { m.sched with sigs := rest } } id
    | none => m))

/-- STEP_TIMEOUT (R73): the step has run MAX_STEP_TICKS ticks and a stable that takes part has not reached END. A count of 0
disables the limit; it does not run while a core is halted (18_debug.md R456). -/
def execStepTimeout (s : State) : Host.Outcome State Fault Refusal :=
  .next (s.unit (fun m =>
    let lim := (m.plate?.map (·.cfg.maxStepTicks)).getD 0
    let open_ := (m.sched.stables.filter (fun e => !e.2.ended && m.takesPart e.1)).length
    if m.atBoundary && m.framesRun && decide (0 < lim) && decide (lim ≤ m.step.ticks) && decide (0 < open_) && m.step.cause.isNone
    then m.raiseStep 0x0701 0 (m.fget Fld.GRM_STEP_STEP) lim open_ else m))

end Sys2Proof.Machine
end

