-- ==== Sys2Proof/Machine/Check.lean ====
section
/-! DEFINITION. The check-value units (15_check_units.md R383 to R390): jobs over memory and over what a stream context writes,
alive counters, endings; the family "check". -/

namespace Sys2Proof.Machine

/-! ### A job's bytes -/

/-- Bytes of a job: of its scan, of its snoop, of both. -/
def ChkJob.total (j : ChkJob) : Nat := (if j.mode = .snoop then 0 else j.len) + (if j.mode = .scan then 0 else j.slen)

/-- Has the job met an end before its last byte? -/
def ChkRun.broken (x : ChkRun) : Bool := x.bad.isSome || x.poisoned || x.abandoned

/-- Has the job nothing more to process? -/
def ChkRun.finished (x : ChkRun) : Bool := x.broken || x.count == x.job.total

/-- Take a byte into the CRC register. -/
def ChkJob.crcStep (j : ChkJob) (c : Nat) (b : Byte) : Nat := crcByte (if j.crc64 then crc64Poly else crc32cPoly) c b

/-- Check the alive count that the byte at position `count` completes (R387). -/
def ChkRun.aliveStep (x : ChkRun) (b : Byte) : ChkRun :=
  let j := x.job
  if !j.alive || j.recBytes == 0 then x
  else
    let p := x.count % j.recBytes
    if p = j.aliveOff then { x with low := b.toNat }
    else if p = j.aliveOff + 1 then
      let v := x.low + 256 * b.toNat
      if v = x.alive then { x with alive := (v + 1) % 2 ^ 16 } else { x with bad := some (x.count / j.recBytes), found := v }
    else x

/-- One byte with its poison: a poisoned one ends the job (R385). -/
def ChkRun.byte (x : ChkRun) (b : Byte × Bool) : ChkRun :=
  if x.finished then x
  else if b.2 then { x with poisoned := true }
  else
    let y := x.aliveStep b.1
    { y with crc := x.job.crcStep x.crc b.1, count := x.count + 1 }

/-- Bytes in order. -/
def ChkRun.feed (x : ChkRun) (bs : List (Byte × Bool)) : ChkRun := bs.foldl ChkRun.byte x

/-- The result: the register after the final exclusive-or (R383). -/
def ChkRun.result (x : ChkRun) : Nat := if x.job.crc64 then x.crc ^^^ 0xFFFFFFFFFFFFFFFF else x.crc ^^^ 0xFFFFFFFF

/-- A job that has processed nothing. -/
def ChkRun.fresh (j : ChkJob) (plateJob : Option Nat) : ChkRun :=
  { st := if j.mode = .snoop then .waitAttach else .scan, job := j, plateJob := plateJob, scanned := j.mode = .snoop,
    crc := if j.crc64 then 0xFFFFFFFFFFFFFFFF else 0xFFFFFFFF, count := 0, low := 0, alive := j.aliveFirst, bad := none, found := 0,
    poisoned := false, abandoned := false }

/-! ### Starting and ending -/

/-- A unit's job, where one runs. -/
def Mod.chkRun? (m : Mod) (v : Nat) : Option ChkRun := kvGet? m.chk.runs v

/-- Replace a unit's job. -/
def Mod.setChk (m : Mod) (v : Nat) (x : ChkRun) : Mod := { m with chk := { m.chk with runs := kvSet m.chk.runs v x } }

/-- Does the active plate's CHECK section name the unit (R389)? -/
def Mod.chkOwned (m : Mod) (v : Nat) : Bool := ((m.plate?.map (·.checks)).getD []).any (fun j => j.unit == v)

/-- A refused start (R389): 0 of the host, 1 of a plate job. -/
def Mod.chkRefused (m : Mod) (v kind job : Nat) : Mod :=
  (m.forBits Fld.CHK_ERR_REFUSED (2 ^ v)).raise .corrected 0x0E04 v kind job

/-- The scan of a job: LEN bytes through the yard as best-effort traffic (R384, R385), where no lost link holds them. -/
def Mod.chkScan (m : Mod) (v : Nat) (ecc : Ecc) : Mod :=
  match m.chkRun? v with
  | some x =>
    if x.scanned || (m.heldPort x.job.addr x.job.len).isSome then m
    else
      let m1 := (m.yard .check x.job.addr x.job.len false).readDev x.plateJob.isSome [(x.job.addr, x.job.len)] ecc
      let y := x.feed (m1.devRead x.job.addr x.job.len)
      let st := if x.job.mode = .scanSnoop && !y.broken then ChkState.waitAttach else .scan
      m1.setChk v { y with scanned := true, st := st }
  | none => m

/-- A job's parameters in its unit's registers, as a plate job shows them. -/
def Mod.chkShow (m : Mod) (v : Nat) (j : ChkJob) : Mod :=
  let mode := match j.mode with | .scan => 0 | .snoop => 1 | .scanSnoop => 2
  let m1 := ((((m.fset Fld.CHK_CFG_STREAM j.stream v).fset Fld.CHK_CFG_ALIVE j.alive.toNat v).fset Fld.CHK_CFG_COMPARE
    j.compare.toNat v).fset Fld.CHK_CFG_POLY j.crc64.toNat v).fset Fld.CHK_CFG_MODE mode v
  let m2 := ((m1.set64 Fld.CHK_ADDR_LO_ADDR Fld.CHK_ADDR_HI_ADDR j.addr v).set64 Fld.CHK_LEN_LO_LEN Fld.CHK_LEN_HI_LEN j.len v).set64
    Fld.CHK_SLEN_LO_SLEN Fld.CHK_SLEN_HI_SLEN j.slen v
  let m3 := (m2.fset Fld.CHK_REC_RECORD_BYTES j.recBytes v).fset Fld.CHK_ALIVE_FIRST j.aliveFirst v
  (m3.set64 Fld.CHK_EXPECT_LO_EXPECT Fld.CHK_EXPECT_HI_EXPECT j.expect v).fset Fld.CHK_ALIVE_OFF_ALIVE_OFF j.aliveOff v

/-- The job a unit's registers describe (R384, R387); none for the reserved mode. -/
def Mod.chkRegs (m : Mod) (v : Nat) : Option ChkJob :=
  let mode := match m.fget Fld.CHK_CFG_MODE v with | 0 => some ChkMode.scan | 1 => some .snoop | 2 => some .scanSnoop | _ => none
  mode.map (fun md =>
    { unit := v, mode := md, crc64 := m.fget Fld.CHK_CFG_POLY v == 1, compare := m.fget Fld.CHK_CFG_COMPARE v == 1,
      alive := m.fget Fld.CHK_CFG_ALIVE v == 1, stepFault := false, stream := m.fget Fld.CHK_CFG_STREAM v, start := 0xFFFF,
      done := 0xFFFF, addr := m.get64 Fld.CHK_ADDR_LO_ADDR Fld.CHK_ADDR_HI_ADDR v, len := m.get64 Fld.CHK_LEN_LO_LEN Fld.CHK_LEN_HI_LEN v,
      slen := m.get64 Fld.CHK_SLEN_LO_SLEN Fld.CHK_SLEN_HI_SLEN v, recBytes := m.fget Fld.CHK_REC_RECORD_BYTES v,
      aliveFirst := m.fget Fld.CHK_ALIVE_FIRST v, expect := m.get64 Fld.CHK_EXPECT_LO_EXPECT Fld.CHK_EXPECT_HI_EXPECT v,
      aliveOff := m.fget Fld.CHK_ALIVE_OFF_ALIVE_OFF v })

/-- A host start from the registers (R384, R389): refused on a busy unit, on one the plate names, for the reserved mode and for
parameters that break R387. -/
def Mod.chkHostStart (m : Mod) (v : Nat) (ecc : Ecc) : Mod :=
  match m.chkRegs v with
  | none => m.chkRefused v 0 0
  | some j =>
    if (m.chkRun? v).isSome || m.chkOwned v || j.aliveBad then m.chkRefused v 0 0
    else (m.setChk v (ChkRun.fresh j none)).chkScan v ecc

/-- CHK_START (R384, R389). -/
def execChkStart (unit : Nat) (ecc : Ecc) (s : State) : Host.Outcome State Fault Refusal :=
  .next (s.reg (Reg.CHK_CTRL.addr unit 0) (fun m => m.chkHostStart unit ecc))

/-- A plate job whose START barrier has completed starts, once per step (R390); refused on a busy unit, it signals DONE. -/
def Mod.chkPlateStart (m : Mod) (ix : Nat) (ecc : Ecc) : Mod :=
  match m.plate?.bind (fun p => p.checks[ix]?) with
  | some j =>
    if m.stepBusy && m.barrierDone j.start && !m.chk.started.contains ix then
      let m1 := { m with chk := { m.chk with started := setAdd m.chk.started ix } }
      if (m.chkRun? j.unit).isSome then (m1.chkRefused j.unit 1 ix).signal j.done
      else ((m1.chkShow j.unit j).setChk j.unit (ChkRun.fresh j (some ix))).chkScan j.unit ecc
    else m
  | none => m

/-- CHK_PLATE_JOB_START (R390). -/
def execChkPlateJobStart (job : Nat) (ecc : Ecc) (s : State) : Host.Outcome State Fault Refusal :=
  .next (s.unit (fun m => m.chkPlateStart job ecc))

/-- The event of an ending (R388): CONTAINED, or STEP for a plate job with STEP_FAULT. -/
def Mod.chkEvent (m : Mod) (v : Nat) (x : ChkRun) (code d0 d1 d2 : Nat) : Mod :=
  if x.plateJob.isSome && x.job.stepFault then m.raiseStep code v d0 d1 d2 else m.raise .contained code v d0 d1 d2

/-- Outcome codes of a job that has ended by itself (CHK_STATUS.OUTCOME). -/
def ChkRun.outcome (x : ChkRun) : Nat :=
  if x.bad.isSome then 3 else if x.poisoned then 4 else if x.abandoned then 5
  else if !x.job.compare then 7 else if x.result = x.job.expect then 1 else 2

/-- The last alive count a job has accepted (CHK_ALIVE.LAST); none before the first. -/
def ChkRun.lastAlive (x : ChkRun) : Option Nat :=
  if x.job.alive && (match x.bad with | some r => r != 0 | none => decide (x.job.aliveOff + 2 ≤ x.count)) then
    some ((x.alive + 2 ^ 16 - 1) % 2 ^ 16)
  else none

/-- A job ends with an outcome (R388): result, bytes and outcome are written, CHK_ERR and the event follow for MISMATCH, ALIVE and
POISON, then MSI-X 8 + v; a plate job signals DONE (R390). -/
def Mod.chkEnd (m : Mod) (v : Nat) (x : ChkRun) (outcome : Nat) : Mod :=
  let m0 := { m with chk := { m.chk with runs := kvDel m.chk.runs v } }
  let m1 := (m0.set64 Fld.CHK_RESULT_LO_RESULT Fld.CHK_RESULT_HI_RESULT x.result v).set64 Fld.CHK_DONE_LO_DONE Fld.CHK_DONE_HI_DONE
    x.count v
  let m1a := match x.lastAlive with
    | some a => m1.fset Fld.CHK_ALIVE_LAST a v
    | none => m1
  let m2 := (m1a.fset Fld.CHK_STATUS_OUTCOME outcome v).fset Fld.CHK_STATUS_PLATE x.plateJob.isSome.toNat v
  let m3 := match outcome with
    | 2 => (m2.forBits Fld.CHK_ERR_MISMATCH (2 ^ v)).chkEvent v x 0x0E01 (lo32 x.result) (hi32 x.result) x.plateJob.isSome.toNat
    | 3 =>
      let r := x.bad.getD 0
      ((m2.fset Fld.CHK_BAD_REC_BAD_REC r v).forBits Fld.CHK_ERR_ALIVE (2 ^ v)).chkEvent v x 0x0E02 r (x.alive + 2 ^ 16 * x.found) 0
    | 4 => (m2.forBits Fld.CHK_ERR_POISON (2 ^ v)).chkEvent v x 0x0E03 (lo32 x.count) 0 0
    | _ => m2
  let m4 := if x.plateJob.isSome then m3.signal x.job.done else m3
  m4.msix (8 + v)

/-- CHK_JOB_COMPLETE: a job with nothing more to process ends (R388); a scan that a lost link held is read first. -/
def execChkJobComplete (unit : Nat) (s : State) : Host.Outcome State Fault Refusal :=
  .next (s.unit (fun m =>
    let m1 := m.chkScan unit ⟨[], [], [], []⟩
    match m1.chkRun? unit with
    | some x => if x.finished && (x.scanned || x.broken || x.job.total == 0) then m1.chkEnd unit x x.outcome else m1
    | none => m1))

/-- CHK_CTRL.ABORT ends a host job with outcome ABORTED; it is ignored for a plate job (R389). -/
def Mod.chkAbort (m : Mod) (v : Nat) : Mod :=
  match m.chkRun? v with
  | some x => if x.plateJob.isSome then m else m.chkEnd v x 6
  | none => m

/-- CHK_ABORT (R389). -/
def execChkAbort (unit : Nat) (s : State) : Host.Outcome State Fault Refusal :=
  .next (s.reg (Reg.CHK_CTRL.addr unit 0) (fun m => m.chkAbort unit))

/-! ### Snooping -/

/-- What one unit takes of the bytes that pass a stream's snoop tap: a unit that waits to attach to the stream does so with the
first of them (R384, R386). -/
def ChkRun.snooped (x : ChkRun) (stream : Nat) (bs : List (Byte × Bool)) : ChkRun :=
  if (x.st == .waitAttach || x.st == .snoop) && x.job.stream == stream && !x.finished && x.scanned then
    { x.feed bs with st := .snoop }
  else x

/-- Bytes a stream context writes pass the snoop tap of its stream ID (11_streams.md R290). -/
def Mod.snoop (m : Mod) (stream : Nat) (bs : List (Byte × Bool)) : Mod :=
  { m with chk := { m.chk with runs := m.chk.runs.map (fun e => (e.1, e.2.snooped stream bs)) } }

/-- A stream context abandons its tiles (R386): a job attached to it that has not had all its bytes ends ABANDONED. -/
def Mod.snoopAbandon (m : Mod) (stream : Nat) : Mod :=
  { m with chk := { m.chk with runs := m.chk.runs.map (fun e =>
      (e.1, if e.2.st == .snoop && e.2.job.stream == stream && !e.2.finished then { e.2 with abandoned := true } else e.2)) } }

/-- Every stream context stops (11_streams.md R285): what is attached to any ends ABANDONED. -/
def Mod.snoopAbandonAll (m : Mod) : Mod :=
  { m with chk := { m.chk with runs := m.chk.runs.map (fun e =>
      (e.1, if e.2.st == .snoop && !e.2.finished then { e.2 with abandoned := true } else e.2)) } }

/-- CHK_STATUS.STATE of a unit. -/
def Mod.chkState (m : Mod) (v : Nat) : Nat := ((m.chkRun? v).map (fun x => x.st.code)).getD 0

end Sys2Proof.Machine
end

