-- ==== Sys2Proof/Machine/HostPort.lean ====
section
/-! DEFINITION. The host port (14_host_interface.md): link training, the BAR2 window and its accesses, DOE, MCTP control,
the sideband address. -/

namespace Sys2Proof.Machine

/-- HOST_LINK_TRAINED: the link trains; TOP_LINK records the result, and below Gen6 x8 HOST_LINK_DEGRADED is raised (R362).
Widths are 1, 2, 4, 8; speeds 1 to 6; FLIT mode is used at 64 GT/s. -/
def execHostLinkTrained (width speed : Nat) (s : State) : Host.Outcome State Fault Refusal :=
  .next (s.on (fun m =>
    if m.mgUp && m.pwr.started && !m.pwr.perst && [1, 2, 4, 8].contains width && decide (1 ≤ speed) && decide (speed ≤ 6) then
      let m1 := { m with host := { m.host with linkUp := true } }
      let m2 := ((m1.fset Fld.TOP_LINK_WIDTH width).fset Fld.TOP_LINK_SPEED speed).fset Fld.TOP_LINK_FLIT
        (if speed = 6 then 1 else 0)
      if width = 8 ∧ speed = 6 then m2 else m2.raise .corrected 0x0D01 0 (m2.regs.read Reg.TOP_LINK 0 0)
    else m))

/-- Bytes of the BAR2 window (Table 14-3). -/
def Mod.bar2Size (m : Mod) : Nat := 2 ^ m.host.bar2Log2

/-- Device address of BAR2 offset 0 (R370). -/
def Mod.bar2Base (m : Mod) : Nat := m.get64 Fld.TOP_BAR2_BASE_LO_BASE Fld.TOP_BAR2_BASE_HI_BASE

/-- A write of a half of TOP_BAR2_BASE (R370, R14): the _HI half commits both; a base that is no multiple of the BAR2 size
is discarded and BASE_BAD set. -/
def Mod.bar2BaseWrite (m : Mod) (hi : Bool) (v : Nat) : Mod :=
  if hi then
    let low := kvGetD m.regs.lo Reg.TOP_BAR2_BASE_LO.base (m.fget Fld.TOP_BAR2_BASE_LO_BASE)
    let base := low + 2 ^ 32 * (v % 2 ^ 16)
    if base % m.bar2Size = 0 then
      Mod.set64 { m with regs := { m.regs with snap := kvDel m.regs.snap Reg.TOP_BAR2_BASE_HI.base } } Fld.TOP_BAR2_BASE_LO_BASE
        Fld.TOP_BAR2_BASE_HI_BASE base
    else m.fset Fld.TOP_HOST_ERR_BASE_BAD 1
  else { m with regs := { m.regs with lo := kvSet m.regs.lo Reg.TOP_BAR2_BASE_LO.base v } }

/-- BAR2_BASE_WRITE (R370). -/
def execBar2BaseWrite (hi : Bool) (val : Nat) (s : State) : Host.Outcome State Fault Refusal :=
  .next (s.reg Reg.TOP_BAR2_BASE_LO.base (fun m => m.bar2BaseWrite hi (lo32 val)))

/-- BAR2_RESIZE: a new size clears TOP_BAR2_BASE (R370). -/
def execBar2Resize (log2 : Nat) (s : State) : Host.Outcome State Fault Refusal :=
  .next (s.on (fun m =>
    if 30 ≤ log2 ∧ log2 ≤ 39 ∧ log2 ≠ m.host.bar2Log2 then
      Mod.set64 { m with host := { m.host with bar2Log2 := log2 } } Fld.TOP_BAR2_BASE_LO_BASE Fld.TOP_BAR2_BASE_HI_BASE 0
    else m))

/-! ### BAR2 accesses -/

/-- First device address of the slot regions (02_plate_and_tick.md R42). -/
def slotBase : Nat := 0x8F_E000_0000

/-- Bytes of one slot region (R42). -/
def slotSize : Nat := 0x1000_0000

/-- The slot whose region holds a device address. -/
def slotOf (a : Nat) : Option Nat :=
  if slotBase ≤ a ∧ a < slotBase + slotSize then some 0
  else if slotBase + slotSize ≤ a ∧ a < slotBase + 2 * slotSize then some 1 else none

/-- May BAR2 accesses reach device memory: ready, in ACTIVE or IDLE, and not frozen unless MEMREAD is set (17_power_reset.md
R442, R446, R448; 18_debug.md R463, R464)? -/
def Mod.bar2Up (m : Mod) : Bool :=
  m.mgUp && m.pwr.ready && !m.pwr.perst && !m.sec.recovery && m.pwr.state != .sleep
    && (if m.dbg.stopped then m.dbg.memread else m.pwr.state == .active || m.pwr.state == .idle)

/-- Does a BAR2 access at device address `a` complete without effect: a reserved address, or one outside every region while
a plate is active (10_memory_tiers.md R247, R248)? -/
def Mod.bar2Void (m : Mod) (a : Nat) : Bool :=
  m.locate a == .reserved || (m.plateActive && (m.region? a).isNone && (slotOf a).isNone)

/-- How BAR2 maps a device address: through the active plate's regions, and stack-linearly where none holds it (R248). -/
def Mod.bar2Loc (m : Mod) (a : Nat) : Loc := if m.bar2Void a then .reserved else m.locate a

/-- A sector that a write covers only in part is read to be merged (R251): the ranges such a write reads. -/
def partialSectors (a : Nat) (data : List (Option Byte)) : List (Nat × Nat) :=
  let n := data.length
  if n = 0 then []
  else ((List.range ((a + n - 1) / 64 + 1 - a / 64)).map (fun i => (a / 64 + i) * 64)).filterMap (fun sct =>
    let whole := decide (a ≤ sct) && decide (sct + 64 ≤ a + n) && ((data.drop (sct - a)).take 64).all Option.isSome
    if whole then none else some (sct, 64))

/-- Hold a request at a CXL port (10_memory_tiers.md R264). -/
def Mod.holdReq (m : Mod) (c : Nat) (q : LoftReq) : Mod :=
  let p := kvGetD m.mem.loftPorts c .none
  { m with mem := { m.mem with loftPorts := kvSet m.mem.loftPorts c { p with held := p.held ++ [q] } } }

/-- The address a loft address has on the port that serves it (10_memory_tiers.md R263). -/
def Mod.portLocal (m : Mod) (a : Nat) : Nat := match m.locate a with | .loft k => k % loftPortSize | _ => 0

/-- Write bytes through BAR2 at a device address after the merge reads that makes (10_memory_tiers.md R251), or hold the write at a
CXL port whose link is down (R264); one without effect (R248) reaches no controller. -/
def Mod.putOrHold (m : Mod) (a : Nat) (data : List (Option Byte)) (ecc : Ecc) : Mod :=
  if m.bar2Void a then m
  else match m.heldPort a data.length with
    | some c => m.holdReq c (.write (m.portLocal a) data)
    | none => Mod.writeAt m.bar2Loc (m.eccDev false (partialSectors a data) ecc) a data

/-- A BAR2 write at device address `a`, or one made as BAR2 makes it (R371): discarded in a slot region that is not LOADING, with SLOT_WRITE_REFUSED
(02_plate_and_tick.md R43, R44); in the live view of a banked region it writes both banks (10_memory_tiers.md R258). -/
def Mod.bar2WriteAt (m : Mod) (a : Nat) (data : List (Option Byte)) (ecc : Ecc) (src : YardSrc := .host) : Mod :=
  match slotOf a with
  | some sl =>
    if (m.plt.slot sl).st = .loading then
      let m1 := (m.yard src a data.length true).eccDev false (partialSectors a data) ecc
      Mod.writeAt (fun x => .hbm x) m1 a data
    else (m.fset Fld.PLT_ERR_WRITE_REFUSED 1).raise .corrected 0x0202 sl (lo32 a) (hi32 a) (m.plt.slot sl).st.code
  | none =>
    let m1 := (if m.bar2Void a then m else m.yard src a data.length true).putOrHold a data ecc
    match m1.shadowOf a with
    | some y => m1.putOrHold y data ecc
    | none => m1

/-- Does the host port receive TLPs: firmware runs, the link is trained, and PERST# does not hold it? -/
def Mod.tlpUp (m : Mod) : Bool := m.mgUp && m.host.linkUp && !m.pwr.perst

/-- D0 and D1 of HOST_TLP_ERR (20_events.md, code 0x0D03). -/
def tlpWords : TlpBad → Nat × Nat
  | .ecrc h => (0, h)
  | .poisoned h => (1, h)
  | .unsupported h => (2, h)

/-- The bit of an error in AER's Uncorrectable Error Status (PRESUMED: the PCI Express Base Specification's layout). -/
def aerBit : TlpBad → Nat
  | .poisoned _ => 12
  | .ecrc _ => 19
  | .unsupported _ => 20

/-- AER records an error, and the header of the first one (R365). -/
def Mod.aerRecord (m : Mod) (b : TlpBad) : Mod :=
  { m with host := { m.host with aer := setAdd m.host.aer (aerBit b), aerHead := m.host.aerHead <|> some (tlpWords b).2 } }

/-- A TLP received with an ECRC error, or poisoned, is discarded whole, AER records it and HOST_TLP_ERR is raised (R365); an unsupported
request is discarded too and recorded (R364). -/
def Mod.tlpDiscard (m : Mod) (b : TlpBad) : Mod :=
  match b with
  | .unsupported _ => m.aerRecord b
  | _ => (m.aerRecord b).raise .corrected 0x0D03 0 (tlpWords b).1 (tlpWords b).2

/-- BAR2_WRITE: `data` holds the bytes the TLP's byte enables select (R371), `tlp` what is wrong with it (R365). -/
def execBar2Write (off : Nat) (data : List (Option Byte)) (ecc : Ecc) (tlp : Option TlpBad) (s : State) :
    Host.Outcome State Fault Refusal :=
  .next (s.on (fun m =>
    match tlp with
    | some b => if m.tlpUp then m.tlpDiscard b else m
    | none =>
    if m.bar2Up && decide (off + data.length ≤ m.bar2Size) then Mod.bar2WriteAt m (m.bar2Base + off) data ecc
    else m))

/-- The bytes a BAR2 read returns: 0xFF for every byte of a poisoned sector (R371) and of an access without effect. -/
def Mod.bar2Bytes (m : Mod) (a n : Nat) : List Byte :=
  (List.range n).map (fun i =>
    let l := m.bar2Loc (a + i)
    let x := m.byteAt l
    if x.2 then 0xFF else x.1)

/-! ### DOE and MCTP -/

/-- A DOE error: the object is discarded and DOE Error set (R379). -/
def Mod.doeError (m : Mod) : Mod := { m with host := { m.host with doe := ⟨none, true⟩ } }

/-- Requests of the attestation protocol (16_security_and_update.md Table 16-3): bytes of each object. -/
def attLen : Nat → Option Nat
  | 1 => some 8 | 2 => some 8 | 3 => some 8 | 4 => some 40 | 5 => some 8 | 6 => some (8 + 4 + 1568 + 12 + 48)
  | 7 => some 12 | _ => none

/-- The DOE Discovery response for an index (PRESUMED: the PCI Express Base Specification's layout): vendor, data object type, next index.
The mailbox supports Discovery itself and the attestation protocol (R379). -/
def doeDiscovery (index : Nat) : List Byte :=
  if index = 0 then leBytes 2 1 ++ leBytes 1 0 ++ leBytes 1 1
  else if index = 1 then leBytes 2 0x1F9B ++ leBytes 1 1 ++ leBytes 1 0
  else leBytes 2 0xFFFF ++ leBytes 1 0 ++ leBytes 1 0

/-- DOE_REQUEST: an object of up to 16 KiB of a supported protocol is accepted; DOE Discovery (0) is answered with the
protocols, an attestation request (1) waits for its command or is answered BAD_REQUEST; any other is discarded with DOE Error
(R379, 16_security_and_update.md R398). -/
def execDoeRequest (protocol : Nat) (object : List Byte) (s : State) : Host.Outcome State Fault Refusal :=
  .next (s.on (fun m =>
    if !(m.mgUp && m.host.linkUp && !m.pwr.perst) then m
    else if 16384 < object.length ∨ m.host.doe.busy.isSome ∨ 1 < protocol then m.doeError
    else if protocol = 0 then
      (m.emit (.doe 0 (doeDiscovery (object.getD 0 0).toNat))).msix 16
    else
      let code := (object.getD 1 0).toNat
      let req := leNat ((object.drop 2).take 2)
      let len := leNat ((object.drop 4).take 4)
      if (object.getD 0 0).toNat = 1 ∧ attLen code = some object.length ∧ len = object.length then
        { m with host := { m.host with doe := ⟨some req, false⟩ } }
      else
        (m.emit (.doe (code + 0x80) (leBytes 1 1 ++ leBytes 1 (code + 0x80) ++ leBytes 2 req ++ leBytes 4 12
          ++ leBytes 1 2 ++ leBytes 3 0))).msix 16))

/-- DOE_ABORT: the object in progress is discarded (R379). -/
def execDoeAbort (s : State) : Host.Outcome State Fault Refusal :=
  .next (s.on (fun m => { m with host := { m.host with doe := ⟨none, false⟩ } }))

/-- MCTP_CONTROL: the bus owner of a binding assigns its EID, and the endpoint answers discovery, version and message-type
requests; any other is answered with an error completion code (R380; code 5, ERROR_UNSUPPORTED_CMD, PRESUMED). A message of a type the
endpoint does not support is answered with that type's code where it defines one, and else discarded. -/
def execMctpControl (sideband : Bool) (req : MctpReq) (s : State) : Host.Outcome State Fault Refusal :=
  .next (s.on (fun m =>
    if !m.mctpUp sideband then m
    else
      let b := bindingCode sideband
      let eid := leBytes 1 (kvGetD m.host.eids b 0)
      match req with
      | .setEid e =>
        Mod.emit { m with host := { m.host with eids := kvSet m.host.eids b (e % 256) } } (.mctp b 0 (leBytes 1 0 ++ leBytes 1 (e % 256)))
      | .getEid => m.emit (.mctp b 0 (leBytes 1 0 ++ eid))
      | .getVersion => m.emit (.mctp b 0 (leBytes 1 0 ++ leBytes 1 1))
      | .getTypes => m.emit (.mctp b 0 (leBytes 1 0 ++ leBytes 1 3 ++ leBytes 1 0x00 ++ leBytes 1 0x01 ++ leBytes 1 0x7E))
      | .discovery => m.emit (.mctp b 0 (leBytes 1 0))
      | .other _ => m.emit (.mctp b 0 (leBytes 1 5))
      | .foreign ty (some c) => m.emit (.mctp b ty (leBytes 1 c))
      | .foreign _ none => m))

/-- I3C_ADDRESS_ASSIGN: the bus owner's dynamic address takes the place of the static one (19_package_and_pins.md R477). -/
def execI3cAddressAssign (addr : Nat) (s : State) : Host.Outcome State Fault Refusal :=
  .next (s.on (fun m => if m.sidebandUp then { m with host := { m.host with i3c := some addr } } else m))

end Sys2Proof.Machine
end

