-- ==== Sys2Proof/Machine/TickOps.lean ====
section
/-! DEFINITION. The tick master's choice of source and upstream port (02_plate_and_tick.md R58 to R63), shared by the tick's
commands, the register writes and the activations that load TCK_UPSTREAM. -/

namespace Sys2Proof.Machine

/-- The upstream ports marked valid in TCK_UPSTREAM, in the order PRIMARY, ALT1, ALT2, ALT3 (R62). -/
def Mod.upstreams (m : Mod) : List Nat :=
  let w := m.regs.read Reg.TCK_UPSTREAM 0 0
  (List.range 4).filterMap (fun i => if (w / 2 ^ (8 * i)).testBit 7 then some (w / 2 ^ (8 * i) % 64) else none)

/-- Is a port trained, so that it carries markers (Table 12-5)? -/
def PortState.trainedUp (s : PortState) : Bool := s == .active || s == .retrain || s == .quarantine

/-- May a port serve as an upstream now: trained, and not showing another period (R63)? -/
def Mod.upstreamUsable (m : Mod) (p : Nat) : Bool := (m.port p).st.trainedUp && !m.tick.periodBad.contains p

/-- The first valid upstream port that may serve. -/
def Mod.firstUpstream (m : Mod) : Option Nat := m.upstreams.find? m.upstreamUsable

/-- TCK_STATUS.ALIGNED: always 1 under LOCAL (R59). -/
def Mod.aligned (m : Mod) : Bool := m.tick.source == 0 || m.tick.aligned

/-- The trim an offset from the upstream neighbour calls for (R59, Table 12-4): a neighbour ahead by more than 4 ns shortens the
tick by a core cycle, one behind by more than 4 ns lengthens it. -/
def trimFor (off : Int) : Int := if off < -4000 then -1 else if 4000 < off then 1 else 0

/-- The tick master takes a measurement of its upstream port, in ps (R59 to R61): the tick in progress is trimmed towards it;
ALIGNED is set within ±4 ns, unless the port's markers do not show this module's count, and cleared with TICK_ALIGN_LOST beyond
±16 ns. -/
def Mod.upstreamOffset (m : Mod) (p : Nat) (off : Int) : Mod :=
  let m1 := { m with tick := { m.tick with offset := off, trim := trimFor off } }
  if off.natAbs ≤ 4000 then
    if 0 < kvGetD m.tick.valid p 0 then { m1 with tick := { m1.tick with aligned := true } } else m1
  else if 16000 < off.natAbs ∧ m.tick.aligned then
    (Mod.fset { m1 with tick := { m1.tick with aligned := false } } Fld.TCK_ERR_ALIGN_LOST 1).raise .contained 0x0302 p
      (off / 1000 % 2 ^ 32).toNat 0
  else m1

/-- Move to an upstream port (R61, R62): phase, count and ALIGNED stay, unless the offset last measured on the port exceeds
±16 ns. -/
def Mod.moveUpstream (m : Mod) (p : Nat) : Mod :=
  let m1 := { m with tick := { m.tick with port := p, edgeSeen := true } }
  match (m.port p).skew with
  | some k => m1.upstreamOffset p (k.2 * 10)
  | none => m1

/-- Take a source into use (R58): the count and phase go on; alignment is measured anew. A module already
under UPSTREAM keeps the port it follows while that is still listed (R62 takes others back). -/
def Mod.takeSource (m : Mod) (src : Nat) : Mod :=
  let t := m.tick
  match src with
  | 0 => { m with tick := { t with source := 0, port := 0, aligned := true, holdover := false, edgeSeen := false } }
  | 1 =>
    let p := m.firstUpstream
    if t.source = 1 ∧ t.edgeSeen then
      if m.upstreams.contains t.port then m
      else match p with
        | some q => m.moveUpstream q
        | none => { m with tick := { t with edgeSeen := false, aligned := false } }
    else { m with tick := { t with source := 1, port := p.getD (m.upstreams.headD 0), edgeSeen := p.isSome,
                                   aligned := false, holdover := false, adopt := none } }
  | _ => if t.source = 2 then m
    else { m with tick := { t with source := 2, port := 0, aligned := false, holdover := false, edgeSeen := false } }

/-- A write of TCK_UPSTREAM's word by an activation (TCK_UPSTREAM register text). -/
def Mod.loadUpstream (m : Mod) (w : Nat) : Mod := { m with regs := m.regs.write Reg.TCK_UPSTREAM 0 0 (w % 2 ^ 32) }

/-- What an activation of a plate with a TICK_TREE section does to the tick master: TCK_UPSTREAM is loaded, and SRC becomes
UPSTREAM unless this module is the plate's tick root. -/
def Mod.takeTickTree (m : Mod) (tree : Option Nat) (root : Nat) : Mod :=
  match tree with
  | none => m
  | some w =>
    let m1 := m.loadUpstream w
    if root = m.self then m1 else (m1.fset Fld.TCK_SOURCE_SRC 1).takeSource 1

end Sys2Proof.Machine
end

