-- ==== Sys2Proof/Machine/Tiers.lean ====
section
/-! DEFINITION. The memory tiers beside the pool (10_memory_tiers.md R250 to R265): the patrol scrub, stacks that stop
answering, CXL links and expanders. -/

namespace Sys2Proof.Machine

/-! ### HBM -/

/-- PATROL_SCRUB: a scrub round reads every sector of every stack (R250); what it finds is given by stack-linear address and
belongs to no step (R251). A period of 0 disables it. -/
def execPatrolScrub (ecc : Ecc) (s : State) : Host.Outcome State Fault Refusal :=
  .next (s.unit (fun m =>
    if m.fget Fld.HBM_SCRUB_HOURS = 0 then m
    else
      let alive := fun (k : Nat) => decide (k < hbmSize) && !m.stackFailed k
      let m1 := (ecc.ce.filter alive).foldl (fun x k => x.foundCe k) m
      (ecc.ue.filter alive).foldl (fun x k => x.foundUe false k) m1))

/-- A controller loses its stack: 0 its training failed, 1 it stopped responding (R253). -/
def Mod.stackDown (m : Mod) (st cause : Nat) : Mod :=
  (m.fset Fld.HBM_STACK_STATUS_STATE 4 st).raise .device 0x0903 st cause

/-- HBM_STACK_DOWN (R253). -/
def execHbmStackDown (stack : Nat) (training : Bool) (s : State) : Host.Outcome State Fault Refusal :=
  .next (s.unit (fun m => if m.fget Fld.HBM_STACK_STATUS_STATE stack = 4 then m else m.stackDown stack (if training then 0 else 1)))

/-! ### Loft ports -/

/-- A CXL port. -/
def Mod.loftPort (m : Mod) (c : Nat) : LoftPort := kvGetD m.mem.loftPorts c .none

/-- Replace a CXL port. -/
def Mod.setLoftPort (m : Mod) (c : Nat) (p : LoftPort) : Mod :=
  { m with mem := { m.mem with loftPorts := kvSet m.mem.loftPorts c p } }

/-- Is the port disabled on this part (00_scope.md R3)? -/
def Mod.loftDisabled (m : Mod) (c : Nat) : Bool := m.variant && decide (2 ≤ c)

/-- The state, width and speed a port reports. -/
def Mod.loftReport (m : Mod) (c st width speed : Nat) : Mod :=
  ((m.fset Fld.LFT_PORT_STATUS_STATE st c).fset Fld.LFT_PORT_STATUS_WIDTH width c).fset Fld.LFT_PORT_STATUS_SPEED speed c

/-- Requests that a port held end without reaching the expander (R264): reads complete with poison, writes are discarded. -/
def Mod.heldEnd (m : Mod) (held : List LoftReq) : Mod :=
  held.foldl (fun (x : Mod) q => match q with
    | .read _ n => x.emit (.completion (List.replicate n 0xFF))
    | .write .. => x) m

/-- A port takes an expander into use (R262): one of a supported type brings the port UP with its capacity; a refused one leaves
it FAILED; a capacity of 0 is the removal of the one it had, and leaves it DOWN. -/
def Mod.loftAttach (m0 : Mod) (c capacity width speed : Nat) (ok : Bool) : Mod :=
  let p := m0.loftPort c
  let m := m0.heldEnd p.held
  if m.loftDisabled c then m
  else if capacity = 0 then
    ((m.setLoftPort c .none).set64 Fld.LFT_PORT_CAP_LO_BYTES Fld.LFT_PORT_CAP_HI_BYTES 0 c).loftReport c 1 0 0
  else if ok then
    let m1 := m.setLoftPort c { p with capacity := capacity, refused := false, lost := false, held := [], due := none }
    (m1.set64 Fld.LFT_PORT_CAP_LO_BYTES Fld.LFT_PORT_CAP_HI_BYTES capacity c).loftReport c 3 width speed
  else (m.setLoftPort c { p with capacity := capacity, refused := true, held := [], due := none }).loftReport c 4 0 0

/-- A port loses its link with requests outstanding, which are held (R264); it then reports state `st`. -/
def Mod.linkDown (m : Mod) (port st : Nat) (held : List LoftReq) : Mod :=
  let m1 := (m.setLoftPort port { m.loftPort port with held := held }).fset Fld.LFT_PORT_STATUS_STATE st port
  (m1.fset Fld.LFT_PORT_ERR_LINK_DOWN 1 port).raise .contained 0x0A01 port held.length

/-- EXPANDER_HOT_ADD: an expander is attached to a port or, with capacity 0, removed from it (Table 10-4, DESIGN CHOICE: the table of
commands has no other row). While a plate is active either is refused, and the port stays DOWN until deactivation (R262). -/
def execExpanderHotAdd (port capacity width speed : Nat) (ok : Bool) (s : State) : Host.Outcome State Fault Refusal :=
  .next (s.unit (fun m =>
    let p := m.loftPort port
    let gone := p.capacity == 0 || p.due.isSome
    if m.loftDisabled port || gone == (capacity == 0) then m
    else if m.plateActive then
      let m1 := if m.fget Fld.LFT_PORT_STATUS_STATE port = 3 then m.linkDown port 1 p.held else m
      m1.setLoftPort port { m1.loftPort port with due := some (capacity, width, speed, ok) }
    else m.loftAttach port capacity width speed ok))

/-- Expanders added while the plate was active come into use at its deactivation (R262). -/
def Mod.loftDueAll (m : Mod) : Mod :=
  (List.range 4).foldl (fun x c => match (x.loftPort c).due with
    | some (cap, w, sp, ok) => x.loftAttach c cap w sp ok
    | none => x) m

/-- LOFT_LINK_DOWN: a port loses its link; its outstanding requests are held and it re-trains (R264). -/
def execLoftLinkDown (port : Nat) (held : List LoftReq) (s : State) : Host.Outcome State Fault Refusal :=
  .next (s.unit (fun m =>
    if m.fget Fld.LFT_PORT_STATUS_STATE port = 3 then
      m.linkDown port 2 held
    else m))

/-- A held request is reissued (R264): a read returns its data, 0xFF for poisoned bytes (14_host_interface.md R371). -/
def Mod.reissue (m : Mod) (c : Nat) (q : LoftReq) : Mod :=
  match q with
  | .read a n =>
    let xs := (List.range n).map (fun i => m.byteAt (.loft (c * loftPortSize + a + i)))
    let bad := (a + (xs.takeWhile (fun x => !x.2)).length) / 64 * 64
    let m1 := if rdPoison xs then (m.fset Fld.LFT_PORT_ERR_POISON 1 c).raise .contained 0x0A03 c (lo32 bad) (hi32 bad) else m
    m1.emit (.completion (xs.map (fun x => if x.2 then 0xFF else x.1)))
  | .write a data => Mod.writeAt (fun x => .loft (c * loftPortSize + x)) m a data

/-- The requests a port holds are reissued in their original order (R264). -/
def Mod.reissueAll (m : Mod) (port : Nat) : Mod :=
  let p := m.loftPort port
  p.held.foldl (fun x q => x.reissue port q) (m.setLoftPort port { p with held := [] })

/-- LOFT_LINK_RETURN: the link is back; held requests are reissued (R264). -/
def execLoftLinkReturn (port : Nat) (s : State) : Host.Outcome State Fault Refusal :=
  .next (s.unit (fun m =>
    if m.fget Fld.LFT_PORT_STATUS_STATE port = 2 then (m.fset Fld.LFT_PORT_STATUS_STATE 3 port).reissueAll port else m))

/-- Is a held request a read? -/
def isHeldRead : LoftReq → Bool
  | .read .. => true
  | .write .. => false

/-- LOFT_LINK_LOST: the link has not returned within 500 µs; held reads complete with poison, held writes are discarded, and the
port stays DOWN until it is retrained (R264). -/
def execLoftLinkLost (port : Nat) (s : State) : Host.Outcome State Fault Refusal :=
  .next (s.unit (fun m =>
    let p := m.loftPort port
    if m.fget Fld.LFT_PORT_STATUS_STATE port = 2 ∨ (m.fget Fld.LFT_PORT_STATUS_STATE port = 1 ∧ 0 < p.capacity ∧ p.due.isSome ∧ !p.lost) then
      let reads := (p.held.filter isHeldRead).length
      let m2 := ((m.setLoftPort port { p with held := [], lost := true }).loftReport port 1 0 0).heldEnd p.held
      (m2.fset Fld.LFT_PORT_ERR_LINK_LOST 1 port).raiseStep 0x0A02 port reads (p.held.length - reads)
    else m))

/-- LFT_CTRL.RETRAIN of a port (R264): it trains at a width and speed, and what it held is reissued; VIRAL is that received since the
last retrain. A width of 0 is no training: a port that was UP goes on training, any other stays as it is. A port without an
expander, or that waits for deactivation (R262), stays as it is. -/
def Mod.loftRetrain (m : Mod) (c width speed : Nat) : Mod :=
  let p := m.loftPort c
  if m.loftDisabled c || p.capacity == 0 || p.refused || p.due.isSome then m
  else
    let m1 := m.fset Fld.LFT_PORT_STATUS_VIRAL 0 c
    if width = 0 then (if m.fget Fld.LFT_PORT_STATUS_STATE c = 3 then m1.loftReport c 2 0 0 else m1)
    else ((m1.setLoftPort c { p with lost := false }).loftReport c 3 width speed).reissueAll c

/-- LOFT_RETRAIN (R264). -/
def execLoftRetrain (port width speed : Nat) (s : State) : Host.Outcome State Fault Refusal :=
  .next (s.reg Reg.LFT_CTRL.base (fun m => m.loftRetrain port width speed))

/-- A write of LFT_CFG (R263): one with MODE 1 is discarded whole when its SET names neither two nor four ports, or a port
disabled on the part. -/
def Mod.loftCfg (m : Mod) (v : Nat) : Mod :=
  let set := bitsOf v 7 4
  let n := ((List.range 4).filter (fun c => set.testBit c)).length
  let bad := v % 2 == 1 && ((n != 2 && n != 4) || (m.variant && decide (4 ≤ set)))
  if bad && !m.plateActive then m else m.wordWrite Reg.LFT_CFG 0 0 v

/-- LFT_CFG_WRITE (R263). -/
def execLftCfgWrite (val : Nat) (s : State) : Host.Outcome State Fault Refusal :=
  .next (s.reg Reg.LFT_CFG.base (fun m => m.loftCfg (lo32 val)))

/-- LOFT_POISON: a poisoned data response for a port-local address, which belongs to the open step where `inStep` says so; the
sector is treated as a poisoned HBM sector (R265). -/
def execLoftPoison (port addr : Nat) (inStep : Bool) (s : State) : Host.Outcome State Fault Refusal :=
  .next (s.unit (fun m =>
    if m.fget Fld.LFT_PORT_STATUS_STATE port = 3 then
      let m1 := (m.markLoc (.loft (port * loftPortSize + addr))).fset Fld.LFT_PORT_ERR_POISON 1 port
      m1.raiseDual inStep .contained 0x0A03 port (lo32 addr) (hi32 addr)
    else m))

/-- LOFT_VIRAL: every later read from the port is poisoned (R265). -/
def execLoftViral (port : Nat) (s : State) : Host.Outcome State Fault Refusal :=
  .next (s.unit (fun m =>
    if m.fget Fld.LFT_PORT_STATUS_STATE port = 3 then
      ((m.fset Fld.LFT_PORT_STATUS_VIRAL 1 port).fset Fld.LFT_PORT_ERR_VIRAL 1 port).raise .device 0x0A04 port
    else m))

/-- LOFT_DEV_EVENT: the management firmware reads an event record of an expander (R262): log and its first four bytes. -/
def execLoftDevEvent (port log head : Nat) (s : State) : Host.Outcome State Fault Refusal :=
  .next (s.unit (fun m =>
    if m.fget Fld.LFT_PORT_STATUS_STATE port = 3 then
      (m.fset Fld.LFT_PORT_ERR_DEV_EVENT 1 port).raise .corrected 0x0A05 port log head
    else m))

end Sys2Proof.Machine
end

