-- ==== Sys2Proof/Machine/Plates.lean ====
section
/-! DEFINITION. Plate slots, proof and activation (02_plate_and_tick.md R42 to R54): the family "plates". -/

namespace Sys2Proof.Machine

/-! ### Slot commands -/

/-- Events of the plate unit and MSI-X 6 at the end of a request (R49, R51, R52): result, and ACT_REFUSED where refused. -/
def Mod.actRefused (m : Mod) (slot target result : Nat) : Mod :=
  ((m.fset Fld.PLT_ACT_RESULT_RESULT result).raise .corrected 0x0203 slot result (lo32 target)).msix 6

/-- Withdraw the pending request with result CANCELLED (R45, R51, R54). -/
def Mod.cancelPending (m : Mod) : Mod :=
  match m.plt.pending with
  | none => m
  | some r => ({ m with plt := { m.plt with pending := none } }).actRefused r.slot r.target 5

/-- Cancel a pending activation of the slot that an OPEN or CLEAR takes (R45). -/
def Mod.cancelFor (m : Mod) (slot : Nat) : Mod :=
  match m.plt.pending with
  | some r => if r.activate && r.slot == slot then m.cancelPending else m
  | none => m

/-- Set a slot's state and content. -/
def Mod.setSlot (m : Mod) (slot : Nat) (x : Slot) : Mod := { m with plt := m.plt.setSlot slot x }

/-- A slot command that its state does not accept (R44). -/
def Mod.slotRefused (m : Mod) (slot cmd : Nat) : Mod :=
  (m.fset Fld.PLT_ERR_CMD_REFUSED 1).raise .corrected 0x0201 slot cmd (m.plt.slot slot).st.code

/-- The expected hash PROVE samples: none while CHECK_EXPECT is 0 (R46). -/
def Mod.sampleExpect (m : Mod) : Option (List Byte) :=
  if m.fget Fld.PLT_CTRL_CHECK_EXPECT = 1 then
    some ((List.range 8).flatMap (fun i => leBytes 4 (m.fget Fld.PLT_EXPECT_HASH_HASH i)))
  else none

/-- Registers of a slot that a proof writes, cleared at PROVE (R48). -/
def Mod.clearSlotRegs (m : Mod) (slot : Nat) : Mod :=
  let m1 := ((m.fset Fld.PLT_SLOT_LEN_LEN 0 slot).fset Fld.PLT_SLOT_EPOCH_EPOCH 0 slot).fset Fld.PLT_SLOT_FAIL_FAIL 0 slot
  (List.range 8).foldl (fun x w => x.fset Fld.PLT_SLOT_HASH_HASH 0 slot w) m1

/-- A slot command (R44): 1 OPEN, 2 PROVE, 3 CLEAR; other values have no effect. -/
def Mod.slotCmd (m : Mod) (slot cmd : Nat) : Mod :=
  let st := (m.plt.slot slot).st
  match cmd with
  | 1 => if st = .empty ∨ st = .proven ∨ st = .failed then (m.cancelFor slot).setSlot slot ⟨.loading, none, none⟩
    else m.slotRefused slot 1
  | 2 => if st = .loading then (m.clearSlotRegs slot).setSlot slot ⟨.proving, none, m.sampleExpect⟩ else m.slotRefused slot 2
  | 3 => if st = .active ∨ st = .proving then m.slotRefused slot 3 else (m.cancelFor slot).setSlot slot .empty
  | _ => m

/-- SLOT_OPEN (R44). -/
def execSlotOpen (slot : Nat) (s : State) : Host.Outcome State Fault Refusal :=
  .next (s.reg (Reg.PLT_SLOT_CMD.addr slot 0) (fun m => m.slotCmd slot 1))

/-- SLOT_PROVE (R44, R46, R48). -/
def execSlotProve (slot : Nat) (s : State) : Host.Outcome State Fault Refusal :=
  .next (s.reg (Reg.PLT_SLOT_CMD.addr slot 0) (fun m => m.slotCmd slot 2))

/-- SLOT_CLEAR (R44). -/
def execSlotClear (slot : Nat) (s : State) : Host.Outcome State Fault Refusal :=
  .next (s.reg (Reg.PLT_SLOT_CMD.addr slot 0) (fun m => m.slotCmd slot 3))

/-! ### Proof -/

/-- Write the plate hash to PLT_SLOT_HASH, byte 0 in [7:0] of word 0. -/
def Mod.writeSlotHash (m : Mod) (slot : Nat) (h : List Byte) : Mod :=
  (List.range 8).foldl (fun x w => x.fset Fld.PLT_SLOT_HASH_HASH (leNat ((h.drop (4 * w)).take 4)) slot w) m

/-- The end of a proof of a slot (R43, R46, R48, R497): result, registers, state and MSI-X 5; an OK proof counts for the
firmware's confirmation (16_security_and_update.md R420). -/
def Mod.proofDone (m : Mod) (slot : Nat) (ecc : Ecc) : Mod :=
  let base := slotBase + slot * slotSize
  let m0 := m.eccDev false [(base, slotSize)] ecc
  let x := m0.plt.slot slot
  let p := m0.proof (fun o n => m0.devRead (base + o) n) x.expect
  let b := p.2.2.2
  let m1 := ((m0.fset Fld.PLT_SLOT_STATUS_RESULT p.1 slot).fset Fld.PLT_SLOT_FAIL_FAIL p.2.1 slot)
  let m2 := if p.2.2.1 = 0 then m1
    else (m1.fset Fld.PLT_SLOT_LEN_LEN (bN b 0x10 4) slot).fset Fld.PLT_SLOT_EPOCH_EPOCH (bN b 0x14 4) slot
  let m3 := if p.2.2.1 = 2 then m2.writeSlotHash slot (sha256 b) else m2
  let signed := (bN b 10 2).testBit 0
  let kind := if (headerOf b).kind = .routeUpdate then 1 else 0
  let m4 := if p.1 = 0 then
      let y := ((m3.fset Fld.PLT_SLOT_STATUS_SIGNED signed.toNat slot).fset Fld.PLT_SLOT_STATUS_KIND kind slot).setSlot slot
        ⟨.proven, some (plateOf b signed), none⟩
      { y with sec := { y.sec with proofOk := true } }
    else (m3.fset Fld.PLT_SLOT_STATUS_SIGNED 0 slot).setSlot slot ⟨.failed, none, none⟩
  m4.msix 5

/-- PROOF_COMPLETE: the management die and the security engine finish the proof of a slot (R46). -/
def execProofComplete (slot : Nat) (ecc : Ecc) (s : State) : Host.Outcome State Fault Refusal :=
  .next (s.unit (fun m => if (m.plt.slot slot).st = .proving then m.proofDone slot ecc else m))

/-! ### Requests -/

/-- The target tick number (R49). -/
def Mod.actTarget (m : Mod) : Nat := m.get64 Fld.PLT_ACT_TICK_LO_TARGET Fld.PLT_ACT_TICK_HI_TARGET

/-- A write of PLT_ACTIVATE (R49, R51): 1 ACTIVATE, 2 DEACTIVATE, 3 CANCEL; other values have no effect. -/
def Mod.actCmd (m : Mod) (op slot : Nat) : Mod :=
  match op with
  | 1 =>
    if (m.plt.slot slot).st = .proven then { m with plt := { m.plt with pending := some ⟨true, slot, m.actTarget⟩ } }
    else m.actRefused slot m.actTarget 1
  | 2 =>
    let pendAct := m.plt.pending.any (·.activate)
    if m.plateActive || pendAct then { m with plt := { m.plt with pending := some ⟨false, m.plt.active.getD 0, 0⟩ } } else m
  | 3 => m.cancelPending
  | _ => m

/-- PLATE_ACTIVATE (R49, R51). -/
def execPlateActivate (slot : Nat) (s : State) : Host.Outcome State Fault Refusal :=
  .next (s.reg Reg.PLT_ACTIVATE.base (fun m => m.actCmd 1 slot))

/-- PLATE_DEACTIVATE (R51). -/
def execPlateDeactivate (s : State) : Host.Outcome State Fault Refusal :=
  .next (s.reg Reg.PLT_ACTIVATE.base (fun m => m.actCmd 2 0))

/-- PLATE_CANCEL (R51). -/
def execPlateCancel (s : State) : Host.Outcome State Fault Refusal :=
  .next (s.reg Reg.PLT_ACTIVATE.base (fun m => m.actCmd 3 0))

/-! ### Taking effect -/

/-- Is every committed update applied, its chunks written back (08_step_commit.md R211; 10_memory_tiers.md R272)? -/
def Mod.drained (m : Mod) : Bool :=
  m.step.ledger.isEmpty && !m.step.draining && !m.pool.objs.any (fun e => e.2.unit.isSome && (e.2.dirty || e.2.st == .evicting))

/-- Is the region the same as one of another plate, so that it is carried over (R259)? -/
def Region.sameAs (r q : Region) : Bool :=
  r.kind == q.kind && r.banked == q.banked && r.onStacks == q.onStacks && r.granule == q.granule && r.base == q.base
    && r.length == q.length && r.phys == q.phys

/-- SEL and generations of the new plate's regions (R259). -/
def PlateUnit.carry (p : PlateUnit) (new : List Region) (full : Nat) : PlateUnit :=
  let old := fun (r : Region) => p.prevRegions.find? (fun q => r.sameAs q)
  { p with
    prevRegions := new
    sel := new.foldl (fun k r => match old r with
      | some q => if kvGetD p.sel q.id false then kvSet k r.id true else k
      | none => k) []
    gen := new.foldl (fun k r =>
      if r.kind = .residual ∨ r.kind = .ledger then kvSet k r.id ((old r).map (fun q => kvGetD p.gen q.id 0) |>.getD full) else k) [] }

/-- Base address of the region of a kind, 0 where the plate has none. -/
def regionBase (rs : List Region) (k : RegionKind) : Nat := ((rs.find? (fun r => r.kind == k)).map (·.base)).getD 0

/-- Pages of 64 KiB in the regions of a kind. -/
def regionPages (rs : List Region) (k : RegionKind) : Nat := ((rs.filter (fun r => r.kind == k)).map (·.length)).sum / 65536

/-- The watch record of a tensor at activation (05_numeric_watch.md R128). -/
def watchInit (t : TensorRec) : List Byte :=
  leBytes 4 t.initScale ++ leBytes 8 0 ++ leBytes 4 1 ++ leBytes 32 0 ++ leBytes 4 t.id ++ leBytes 4 t.initScale ++ leBytes 8 0

/-- Write every declared tensor's watch record. -/
def Mod.initWatch (m : Mod) (p : Plate) : Mod :=
  match p.regions.find? (fun r => r.kind == .watch) with
  | none => m
  | some r => p.tensors.foldl (fun x t => x.devWrite (r.base + 64 * t.id) (watchInit t)) m

/-- The table slots of one engine after an activation (11_streams.md R303). -/
def engineTables (p : Plate) (e : Nat) : StmEngine :=
  (p.decode.filter (fun d => d.engines.contains e)).foldl (fun x d =>
    if d.slot = 0 then { x with tab0 := some d.table, cur := 0 } else { x with tab1 := some d.table, cur := 1 }) .rest

/-- The stream engines of a plate that has just become active (R285, R303). -/
def stmInit (p : Plate) : StmUnit :=
  ⟨(List.range 64).foldl (fun k e => if engineTables p e = .rest then k else kvSet k e (engineTables p e)) [], []⟩

/-- Every stable at END with frame index 0 (R67). -/
def stablesInit (p : Plate) : Kv StableRun :=
  p.stables.foldl (fun k s => kvSet k s.id ⟨.fin, ⟨0, 0, 0⟩, 0, false, none, false, 0, false⟩) []

/-- Cores between plates: frames and kernels forgotten, self-tests and halts kept. -/
def coresInit (cs : Kv CoreRun) : Kv CoreRun :=
  (cs.map (fun e => (e.1, { CoreRun.rest with bist := e.2.bist, halt := e.2.halt, haltReq := e.2.haltReq }))).filter
    (fun e => e.2 != .rest)

/-- The step unit between plates: no step, the armed pair and its history kept. -/
def StepUnit.idle (u : StepUnit) : StepUnit :=
  { StepUnit.reset with armed := u.armed, armTick := u.armTick, szFresh := u.szFresh, hist := u.hist }

/-- Low word and high word of an address pair. -/
def Mod.setBase (m : Mod) (lo hi : Fld) (a : Nat) : Mod := m.set64 lo hi a

/-- The units that hold a plate's run, started anew for plate `p` (R50, R67, R259; 06_backward_pass.md R155;
10_memory_tiers.md R266; 11_streams.md R285, R303; 08_step_commit.md R191, R199). -/
def Mod.startPlate (m : Mod) (p : Plate) : Mod :=
  let pages := regionPages p.regions .paddock
  let pool := regionPages p.regions .pool
  let m1 := { m with
    regs := m.regs.defaults 0
    sched := ⟨[], [], stablesInit p, []⟩
    cores := coresInit m.cores
    step := m.step.idle
    pool := ⟨[], List.range pool, List.range (regionPages p.regions .poolLoft), []⟩
    pad := ⟨[], List.range pages, 0, 0⟩
    stm := stmInit p
    groom := ⟨[], p.groom.preconds.foldl (fun k (r : Precond) => kvSet k r.id r.initValid) [], []⟩
    coll := ⟨[], [], [], [], false⟩
    chk := { m.chk with started := [] }
    fab := { m.fab with lost := [] } }
  let tag := sha256 (leBytes 2 m.self ++ p.hash)
  let m2 := (List.range 8).foldl (fun x w => x.fset Fld.GRM_RUN_TAG_TAG (leNat ((tag.drop (4 * w)).take 4)) w) m1
  let m3 := (m2.setBase Fld.NUM_WATCH_BASE_LO_BASE Fld.NUM_WATCH_BASE_HI_BASE (regionBase p.regions .watch)).setBase
    Fld.NUM_NORM_BASE_LO_BASE Fld.NUM_NORM_BASE_HI_BASE (regionBase p.regions .norm)
  let m4 := (m3.fset Fld.HBM_PAD_TOTAL_PAGES pages).fset Fld.HBM_PAD_LOW_PAGES pages
  let m5 := ((m4.fset Fld.LFT_POOL_TOTAL_COUNT pool).fset Fld.LFT_POOL_EVICT_COUNT 0).fset Fld.LFT_POOL_CANCEL_COUNT 0
  m5.snoopAbandonAll.initWatch p

/-- An activation of a FULL plate takes effect (R50, R259). -/
def Mod.activateFull (m : Mod) (slot : Nat) (p : Plate) : Mod :=
  let full := (m.fget Fld.PLT_FULL_GEN_GEN + 1) % 2 ^ 16
  let prev := match m.plt.active with
    | some i => m.plt.setSlot i { m.plt.slot i with st := .proven }
    | none => m.plt
  let plt := (prev.setSlot slot { prev.slot slot with st := .active }).carry p.regions full
  let m1 := { m with plt := { plt with active := some slot, pending := none } }
  let m2 := (m1.fset Fld.PLT_FULL_GEN_GEN full).fset Fld.PLT_ROUTE_GEN_GEN 0
  let m3 := (m2.startPlate p).takeTickTree p.tickTree p.hdr.tickRoot
  let m4 := (m3.portsActivate p.routes).extend 7 0 p.hash
  ((m4.set64 Fld.PLT_ACT_DONE_LO_TICK Fld.PLT_ACT_DONE_HI_TICK m.tick.count).fset Fld.PLT_ACT_RESULT_RESULT 0).msix 6

/-- Result of R52 for a pending activation of plate `p`, 0 when it takes effect. -/
def Mod.actCheck (m : Mod) (p : Plate) : Nat :=
  if p.hdr.periodUs ≠ m.fget Fld.TCK_PERIOD_PERIOD_US then 2
  else if p.routes.isSome && !m.aligned then 3
  else if m.plateFenced p then 4
  else if p.hdr.kind = .routeUpdate ∧ (m.plate?.map (·.hash) ≠ some p.hdr.baseHash ∨ m.epoch ≠ p.hdr.epoch) then 6
  else 0

/-- The pending activation due at this boundary, with its plate: any request for a slot that is not PROVEN, a FULL plate with
no step in progress and every update applied (R50, 08_step_commit.md R211), a ROUTE_UPDATE at once (R53). -/
def Mod.dueActivation (m : Mod) (kind : PlateKind) : Option (PendReq × Option Plate) :=
  match m.plt.pending with
  | some r =>
    if m.atBoundary && r.activate && decide (r.target ≤ m.tick.count) then
      let x := m.plt.slot r.slot
      match x.plate with
      | some p =>
        if x.st = .proven ∧ p.hdr.kind = kind ∧ (kind = .routeUpdate ∨ (!m.stepBusy && m.drained) = true) then some (r, some p)
        else none
      | none => if kind = .full then some (r, none) else none
    else none
  | none => none

/-- ACTIVATION_TAKES_EFFECT: a pending activation of a FULL plate at the first boundary that meets R50; it takes effect, or
is refused under R52 with the active plate unchanged. -/
def execActivationTakesEffect (s : State) : Host.Outcome State Fault Refusal :=
  .next (s.unit (fun m => match m.dueActivation .full with
    | none => m
    | some (r, none) => ({ m with plt := { m.plt with pending := none } }).actRefused r.slot r.target 1
    | some (r, some p) =>
      if m.actCheck p = 0 then m.activateFull r.slot p
      else ({ m with plt := { m.plt with pending := none } }).actRefused r.slot r.target (m.actCheck p)))

/-- Stop the units that held the plate's run: no plate is active (R51; 01_architecture.md R33). -/
def Mod.stopPlate (m : Mod) : Mod :=
  let m1 := { m with sched := ⟨[], [], [], []⟩, cores := coresInit m.cores, step := m.step.idle, stm := ⟨[], []⟩,
                     groom := ⟨[], [], []⟩, coll := ⟨[], [], [], [], false⟩ }
  (m1.snoopAbandonAll.portsActivate none).loftDueAll

/-- DEACTIVATION_TAKES_EFFECT: a pending deactivation at the first boundary with no step in progress (R51). -/
def execDeactivationTakesEffect (s : State) : Host.Outcome State Fault Refusal :=
  .next (s.unit (fun m => match m.plt.pending with
    | some r =>
      if m.atBoundary && !r.activate && !m.stepBusy && m.drained then
        let m0 := { m with plt := { m.plt with pending := none } }
        let m1 := match m0.plt.active with
          | some i =>
            let p1 := m0.plt.setSlot i { m0.plt.slot i with st := .proven }
            Mod.stopPlate { m0 with plt := { p1 with active := none } }
          | none => m0
        (m1.fset Fld.PLT_ACT_RESULT_RESULT 0).msix 6
      else m
    | none => m))

/-- The active plate under a route update (R53). -/
def Plate.merge (p u : Plate) : Plate :=
  { p with routes := u.routes <|> p.routes, tickTree := u.tickTree <|> p.tickTree }

/-- A ROUTE_UPDATE takes effect (R41, R53): route tables and tick tree replaced, its slot EMPTY, PLT_ROUTE_GEN advanced. -/
def Mod.applyRoutes (m : Mod) (slot : Nat) (u : Plate) : Mod :=
  let plt := match m.plt.active with
    | some i => m.plt.setSlot i { m.plt.slot i with plate := (m.plt.slot i).plate.map (fun (q : Plate) => Plate.merge q u) }
    | none => m.plt
  let m1 := { m with plt := { plt.setSlot slot .empty with pending := none } }
  let m2 := (m1.fcount Fld.PLT_ROUTE_GEN_GEN).takeTickTree u.tickTree u.hdr.tickRoot
  let m3 := m2.portsActivate m2.routes
  ((m3.set64 Fld.PLT_ACT_DONE_LO_TICK Fld.PLT_ACT_DONE_HI_TICK m.tick.count).fset Fld.PLT_ACT_RESULT_RESULT 0).msix 6

/-- ROUTE_UPDATE_TAKES_EFFECT: a pending ROUTE_UPDATE at the first boundary at or after its target (R53), or its refusal
(R52). -/
def execRouteUpdateTakesEffect (s : State) : Host.Outcome State Fault Refusal :=
  .next (s.unit (fun m => match m.dueActivation .routeUpdate with
    | some (r, some p) =>
      if m.actCheck p = 0 then m.applyRoutes r.slot p
      else ({ m with plt := { m.plt with pending := none } }).actRefused r.slot r.target (m.actCheck p)
    | _ => m))

end Sys2Proof.Machine
end

