-- ==== Sys2Proof/Machine/Freeze.lean ====
section
/-! DEFINITION. The freeze (18_debug.md R461 to R465). The family "debug": its rows about the freeze. -/

namespace Sys2Proof.Machine

/-- HBM stacks in state `a` go to state `b` (HBM_STACK_STATUS: 2 UP, 3 SELF_REFRESH). -/
def Mod.hbmTo (m : Mod) (a b : Nat) : Mod :=
  (List.range 12).foldl (fun (x : Mod) i =>
    if x.fget Fld.HBM_STACK_STATUS_STATE i = a then x.fset Fld.HBM_STACK_STATUS_STATE b i else x) m

/-- Is a freeze honoured now (R461): in ACTIVE, IDLE and PARK, with the host interface released? -/
def Mod.freezable (m : Mod) : Bool :=
  m.pwr.ready && !m.dbg.stopped && (m.pwr.state == .active || m.pwr.state == .idle || m.pwr.state == .park)

/-- A pending activation is cancelled (02_plate_and_tick.md R54). -/
def Mod.cancelActivation (m : Mod) : Mod :=
  if m.plt.pending.any (fun r => r.activate) then m.cancelPending else m

/-- The freeze edge F (R462): the functional clocks stop, HBM goes to self-refresh, every port goes DOWN, and MG records the tick
and cycle. Where MEMREAD is set by then, the memories run on (DESIGN CHOICE). -/
def Mod.freeze (m : Mod) : Mod :=
  let m1 := { m with dbg := { m.dbg with stopped := true, frzWait := false, ready := false } }
  let m2 := (m1.set64 Fld.DBG_FRZ_TICK_LO_TICK Fld.DBG_FRZ_TICK_HI_TICK m.tick.count).fset Fld.DBG_FRZ_CYCLE_CYCLE m.tick.cycle
  let m3 := m2.cancelActivation.portsPower
  if m.dbg.memread then m3 else m3.hbmTo 2 3

/-- A freeze that waited for the guard's end is made (R461). -/
def Mod.freezeWaiting (m : Mod) : Mod := if m.dbg.frzWait && m.freezable then m.freeze else m

/-- FRZ_N, still asserted when the freeze can be honoured, freezes the device (R461, R465). -/
def Mod.freezePin (m : Mod) : Mod := if m.dbg.frzPin && m.freezable then m.freeze else m

/-- A freeze is asked for, from the register where `reg` says so: at once, or at the guard's end (R461). -/
def Mod.freezeAsk (m : Mod) (reg : Bool) : Mod :=
  if !m.freezable then m
  else
    let m1 := { m with dbg := { m.dbg with frzReg := reg || (m.dbg.frzWait && m.dbg.frzReg) } }
    if m.tick.running && m.inGuard then { m1 with dbg := { m1.dbg with frzWait := true } } else m1.freeze

/-- FRZ_N_ASSERT (R461). -/
def execFrzNAssert (s : State) : Host.Outcome State Fault Refusal :=
  .next (s.on (fun m =>
    if m.dbg.frzPin then m else Mod.freezeAsk { m with dbg := { m.dbg with frzPin := true } } false))

/-- FRZ_N_DEASSERT: the device does not thaw (R465), and what the pin asked for and waits for the guard's end is withdrawn. -/
def execFrzNDeassert (s : State) : Host.Outcome State Fault Refusal :=
  .next (s.on (fun m => { m with dbg := { m.dbg with frzPin := false, frzWait := m.dbg.frzWait && m.dbg.frzReg } }))

/-- FRZ_CTRL_FREEZE: DBG_FRZ_CTRL.FREEZE under unlock (R461, R451). -/
def execFrzCtrlFreeze (s : State) : Host.Outcome State Fault Refusal :=
  .next (s.reg Reg.DBG_FRZ_CTRL.base (fun m => m.dbgGate (fun x => x.freezeAsk true)))

/-- READOUT_READY: DBG_STATUS.FROZEN is set and FROZEN raised (R462). -/
def execReadoutReady (s : State) : Host.Outcome State Fault Refusal :=
  .next (s.on (fun m =>
    if m.mgUp && m.dbg.stopped && !m.dbg.ready then
      Mod.raise { m with dbg := { m.dbg with ready := true } } .device 0x1101 0 (m.fget Fld.DBG_FRZ_TICK_LO_TICK)
        (m.fget Fld.DBG_FRZ_CYCLE_CYCLE) (if m.dbg.frzReg then 1 else 0)
    else m))

/-- DBG_FRZ_CTRL.MEMREAD written: the bit is set (R10, W1S), and in a frozen device the memories restart (R464). -/
def Mod.memRead (m : Mod) : Mod :=
  let m1 := { m with dbg := { m.dbg with memread := true } }
  if m.dbg.stopped && !m.dbg.memread then m1.hbmTo 3 2 else m1

/-- FRZ_MEMREAD (R464). -/
def execFrzMemread (s : State) : Host.Outcome State Fault Refusal :=
  .next (s.reg Reg.DBG_FRZ_CTRL.base (fun m => m.dbgGate Mod.memRead))

end Sys2Proof.Machine
end

