-- ==== Sys2Proof/Machine/Boot.lean ====
section
/-! DEFINITION. The boot chain (16_security_and_update.md R393 to R397, R402, R403, R420 to R422) that cold, fundamental and soft
reset each run. -/

namespace Sys2Proof.Machine

/-- Mark of boot slot `i`: 0 A, 1 B. -/
def SecUnit.mark (u : SecUnit) (i : Nat) : SlotMark := if i = 0 then u.markA else u.markB

/-- Set the mark of boot slot `i`. -/
def SecUnit.setMark (u : SecUnit) (i : Nat) (k : SlotMark) : SecUnit := if i = 0 then { u with markA := k } else { u with markB := k }

/-- Set the mark of boot slot `i`. -/
def Mod.setMark (m : Mod) (i : Nat) (k : SlotMark) : Mod := { m with sec := m.sec.setMark i k }

/-- Boot slots of the part: A and B on SLX-4010-F, one on SLX-4010-C (R418). -/
def Mod.bootSlots (m : Mod) : List Nat := if m.variant then [0] else [0, 1]

/-- The image of a component in a boot slot. -/
def SecUnit.image? (u : SecUnit) (slot comp : Nat) : Option FwImage := kvGet? u.images (slot * 8 + comp)

/-- The fused security version. -/
def Mod.fusedSvn (m : Mod) : Nat := m.fget Fld.SEC_SVN_FUSED

/-- Does every image of a slot meet R396? A signature or hash that fails is what `boot` names. -/
def Mod.slotBoots (m : Mod) (boot : Boot) (slot : Nat) : Bool :=
  (List.range 5).all (fun c => match m.sec.image? slot c with
    | some i => decide (m.fusedSvn ≤ i.svn) && !boot.imageFail.contains (slot * 8 + c)
    | none => false)

/-- The first slot with a mark. -/
def Mod.slotMarked (m : Mod) (k : SlotMark) : Option Nat := m.bootSlots.find? (fun i => m.sec.mark i == k)

/-- The CONFIRMED slot that boots: the one confirmed last where both are (R420: the other stays as the fallback). -/
def Mod.confirmedSlot (m : Mod) : Option Nat :=
  if m.sec.mark m.sec.prefer = .confirmed then some m.sec.prefer else m.slotMarked .confirmed

/-- Slot selection (R395, R420), with the slot booted and the slot whose trial ended unconfirmed. On SLX-4010-F a TRIAL slot is
marked TRIED and booted; a TRIED slot is INVALID; else the CONFIRMED slot boots. On SLX-4010-C the one slot boots, and again
in TRIAL. A slot that fails verification is INVALID and selection starts again. -/
def Mod.selectSlot (boot : Boot) : Nat → Mod → Option Nat → Mod × Option Nat × Option Nat
  | 0, m, gone => (m, none, gone)
  | n + 1, m, gone =>
    let attempt := fun (x : Mod) (i : Nat) =>
      if x.slotBoots boot i then (x, some i, gone) else Mod.selectSlot boot n (x.setMark i .invalid) gone
    match m.slotMarked .trial with
    | some i => attempt (if m.variant then m else m.setMark i .tried) i
    | none => match m.slotMarked .tried with
      | some i => Mod.selectSlot boot n (m.setMark i .invalid) (some i)
      | none => match m.confirmedSlot with
        | some i => attempt m i
        | none => (m, none, gone)

/-- Indices of the attestation key (R392). -/
def attIndices : Nat := 2 ^ 20

/-- ATT_KEY_LOW, raised once when fewer than 16,384 indices remain (R404). -/
def Mod.keyLow (m : Mod) : Mod :=
  let left := attIndices - m.fget Fld.SEC_ATT_NEXT_NEXT
  if left < 16384 ∧ !m.sec.keyLowRaised then
    Mod.raise { m with sec := { m.sec with keyLowRaised := true } } .corrected 0x0F06 0 left
  else m

/-- The counter record at boot (R402, R403): with OPEN set, or where the record fails its check, the next index skips to what the fuses
cover. -/
def Mod.counterCheck (m : Mod) (bad : Bool) : Mod :=
  if m.sec.counterOpen || bad then
    let old := m.fget Fld.SEC_ATT_NEXT_NEXT
    let next := 4096 * m.fget Fld.SEC_ATT_MARKS_MARKS
    let m1 := (m.fset Fld.SEC_ATT_NEXT_NEXT next).fset Fld.SEC_ERR_COUNTER_SKIP 1
    (Mod.raise { m1 with sec := { m1.sec with counterOpen := false } } .corrected 0x0F05 0 next (if bad then 0xFFFFFFFF else old)).keyLow
  else m

/-- The UID, VARIANT, SVN and ATT_MARK fuse values as M0 hashes them (R397; their layout is DESIGN CHOICE): SVN and ATT_MARK as
the masks of their blown bits. -/
def Mod.fuseBytes (m : Mod) : List Byte :=
  leBytes 8 Config.uid.toNat ++ leBytes 1 m.variant.toNat ++ leBytes 8 (2 ^ m.fusedSvn - 1)
    ++ leBytes 32 (2 ^ m.fget Fld.SEC_ATT_MARKS_MARKS - 1)

/-- The measurements formed anew (R397), for the slot booted. -/
def Mod.measureBoot (m : Mod) (slot : Option Nat) : Mod :=
  let m1 := (List.range 8).foldl (fun (x : Mod) r => x.setMeas r (List.replicate 32 0)) { m with sec := { m.sec with log := [] } }
  let m2 := (m1.extend 0 0 Config.romDigest).extend 0 1 (sha256 m1.fuseBytes)
  let m3 := match slot with
    | some i => (List.range 5).foldl (fun (x : Mod) c => match x.sec.image? i c with
        | some im => x.extend (c + 1) 2 im.hash
        | none => x) m2
    | none => m2
  m3.extend 6 3 (sha256 m3.sec.policyRec)

/-- Versions of the slot booted (SEC_FW_BUNDLE, SEC_FW_VER, SEC_SVN.SLOT_MIN, SEC_STATUS.SLOT). -/
def Mod.showSlot (m : Mod) (slot : Option Nat) : Mod :=
  let im := fun (c : Nat) => slot.bind (fun i => m.sec.image? i c)
  let least := ((List.range 5).map (fun c => ((im c).map (·.svn)).getD 0)).foldl min 64
  let m1 := (List.range 5).foldl (fun (x : Mod) c => x.fset Fld.SEC_FW_VER_VERSION (((im c).map (·.version)).getD 0) c) m
  ((m1.fset Fld.SEC_FW_BUNDLE_BUNDLE (((im 4).map (·.bundle)).getD 0)).fset Fld.SEC_SVN_SLOT_MIN least).fset
    Fld.SEC_STATUS_SLOT (slot.getD 0)

/-- Does the booted slot await confirmation (SEC_STATUS.TRIAL): TRIED on SLX-4010-F, TRIAL on SLX-4010-C? -/
def Mod.trialBoot (m : Mod) (slot : Nat) : Bool := m.sec.mark slot == (if m.variant then SlotMark.trial else .tried)

/-- The boot chain (R394). -/
def Mod.bootChain (m : Mod) (boot : Boot) : Mod :=
  let u := { m.sec with kem := m.sec.kem + 1, cleared := false, session := none, testsOk := boot.classFail.isEmpty, proofOk := false,
                        keysDue := [] }
  let p := Mod.selectSlot boot 8 { m with sec := u } none
  let trial := p.2.1.any p.1.trialBoot
  let m1 := ((p.1.showSlot p.2.1).counterCheck boot.counterBad).measureBoot p.2.1
  let m2 := { m1 with sec := { m1.sec with recovery := p.2.1.isNone, window := trial } }.fset Fld.SEC_CONFIRM_SECONDS
    (if trial then 600 else 0)
  let m3 := match p.2.2 with
    | some g => (m2.fset Fld.SEC_ERR_FALLBACK 1).raise .corrected 0x0F02 0 g (m2.fget Fld.SEC_FW_BUNDLE_BUNDLE)
    | none => m2
  if p.2.1.isNone then m3.raise .device 0x0F04 0 else m3

end Sys2Proof.Machine
end

