-- ==== Sys2Proof/Machine/Attn.lean ====
section
/-! DEFINITION. The attention kernel (09_attention.md R214 to R245) over a core's own SRAM given as a reading function:
the context block and length table, masks, rotary embedding, the forward block with its running state, the merge of split
ranks, and the backward pass. A poisoned word reads as NaN (03_cores.md R97). -/

namespace Sys2Proof.Machine

/-! ### Rotary angles -/

/-- The alternating series of arctan(1/x) in fixed point, `n` terms from 1 / ((2k + 1) x^(2k + 1)), with `t` = 1 / x^(2k+1). -/
def fxAtanSum : Nat → Nat → Nat → Nat → Int
  | 0, _, _, _ => 0
  | n + 1, k, x, t =>
    let u : Int := (t / (2 * k + 1) : Nat)
    (if k % 2 = 0 then u else -u) + fxAtanSum n (k + 1) x (t / (x * x))

/-- π in fixed point (Machin's formula). -/
def fxPi : Nat := (4 * (4 * fxAtanSum 90 0 5 (fxOne / 5) - fxAtanSum 30 0 239 (fxOne / 239))).toNat

/-- An alternating series of even or odd powers of a fixed-point angle: `t` is its k-th term's magnitude. -/
def fxTrigSum : Nat → Nat → Nat → Nat → Int
  | 0, _, _, _ => 0
  | n + 1, k, x, t => (t : Int) - fxTrigSum n (k + 2) x (t * x / fxOne * x / fxOne / ((k + 1) * (k + 2)))

/-- Sine of an angle in [0, π/2], fixed point. -/
def fxSin (x : Nat) : Nat := (fxTrigSum 60 1 x x).toNat

/-- Cosine of an angle in [0, π/2], fixed point. -/
def fxCos (x : Nat) : Nat := (fxTrigSum 60 0 x fxOne).toNat

/-- cos(2πt) or sin(2πt) within one last place (R233), for a finite t in [0, 1]. -/
def turnTrig (ftz sine : Bool) (t : Val) : Coded :=
  match t with
  | .fin _ m e =>
    let x := 4 * fxOf m e
    let q := (x / fxOne + (if sine then 0 else 1)) % 4
    let r := x % fxOne
    let ang := r * fxPi / (2 * fxOne)
    let odd := q % 2 == 1
    let neg := decide (2 ≤ q)
    let v := if odd then fxCos ang else fxSin ang
    let pick := sfuChoice (if sine then 6 else 5) false m e
    if r = 0 then
      if odd then ⟨(Fmt.spec .fp32).signCode neg + 0x3F800000, .none⟩ else ⟨0, .none⟩
    else
      let c := cutMag v (-(fxBits : Int))
      withinOne ftz neg pick c.1 c.2
  | _ => ⟨(Fmt.spec .fp32).nanCode, .none⟩

/-- The fraction part of an exact value, in [0, 1). -/
def Val.fracPart : Val → Val
  | .fin neg m e =>
    if 0 ≤ e then Val.zero
    else
      let u := pow2i (-e)
      let r := m % u
      .fin false (if neg && r != 0 then u - r else r) e
  | _ => .nan

/-- An exact value rounded to FP32: its code and flags. -/
def r32 (ftz : Bool) (v : ValInv) : Nat × Fl :=
  let q := roundFp32 ftz v.1
  (q.code, (Fl.invalid v.2).join q.fl)

/-- A rotation of one vector by the angles of a position (R233 to R235); `back` rotates by −t. `fmt` is the product format
the results are rounded to after FP32. -/
def rotate (ftz : Bool) (half : Bool) (freqs : List Val) (pos : Nat) (back : Bool) (fmt : Option Fmt) (xs : List Val) :
    List Val × Fl :=
  let n := freqs.length
  let trig := freqs.map (fun f =>
    let p := (Val.ofNat pos).mul f
    let r := r32 ftz (p.1.fracPart, p.2 || (!p.1.isNan && !p.1.isFin))
    let t := fp32 r.1
    let c := turnTrig ftz false t
    let s := turnTrig ftz true t
    (fp32 c.code, if back then (fp32 s.code).neg else fp32 s.code, r.2.join (c.fl.join s.fl)))
  let ys := (List.range xs.length).map (fun e =>
    let x := xs.getD e .nan
    if 2 * n ≤ e then (x, Fl.none)
    else
      let i := if half then e % n else e / 2
      let first := if half then decide (e < n) else e % 2 == 0
      let a := xs.getD (if half then i else 2 * i) .nan
      let b := xs.getD (if half then i + n else 2 * i + 1) .nan
      let cs := trig.getD i (.nan, .nan, .none)
      let y := r32 ftz (if first then a.mulAdd2 cs.1 b.neg cs.2.1 else a.mulAdd2 cs.2.1 b cs.1)
      match fmt with
      | none => (fp32 y.1, cs.2.2.join y.2)
      | some f =>
        let w := f.round f.defaultOvf ftz .nearest (fp32 y.1)
        (f.decode w.code, cs.2.2.join (y.2.join w.fl)))
  (ys.map (·.1), ys.foldl (fun f y => f.join y.2) .none)

/-! ### Parameters and the context block -/

/-- PARAM of ATTN (Table 09-2). -/
structure AttnP where
  phase : Nat
  first : Bool
  last : Bool
  paged : Bool
  qnarrow : Bool
  p8 : Bool
  mask : Nat
  rope : Nat
  ropeQ : Bool
  ropeK : Bool
  group : Nat
  ways : Nat
  rot : Nat
  sm : Val
  win : Nat
  state : Nat
  ctx : Nat
  kpos : Nat
  grad : Nat
deriving DecidableEq, Repr

/-- Read PARAM. -/
def Kernel.attnP (k : Kernel) : AttnP :=
  let w := fun i => leNat ((k.param.drop i).take 4)
  let b0 := k.p8 0
  let b1 := k.p8 1
  { phase := b0 % 4, first := b0.testBit 2, last := b0.testBit 3, paged := b0.testBit 4, qnarrow := b0.testBit 5,
    p8 := b0.testBit 6, mask := b1 % 8, rope := b1 / 8 % 4, ropeQ := b1.testBit 5, ropeK := b1.testBit 6,
    group := k.p8 2, ways := k.p8 3, rot := k.p16 4, sm := fp32 (w 8), win := w 12, state := w 16, ctx := w 20,
    kpos := w 24, grad := w 28 }

/-- The state area's size SZ (R217). -/
def Kernel.attnSz (k : Kernel) : Nat := (4 * k.d0 * (k.d2 + 3) + 127) / 128 * 128

/-- Offset of dK in the SRAM (the gradient area, after dO). -/
def Kernel.dkOff (k : Kernel) : Nat := k.attnP.grad + (2 * k.d0 * k.d2 + 127) / 128 * 128

/-- Offset of dV in the SRAM. -/
def Kernel.dvOff (k : Kernel) : Nat := k.dkOff + (4 * k.d1 * k.d2 + 127) / 128 * 128

/-- The context block (Table 09-3). -/
structure AttnCtx where
  lenOff : Nat
  freqOff : Nat
  maskOff : Nat
  pitch : Nat
  seqs : Nat
  pos0 : Nat
deriving DecidableEq, Repr

/-- A length-table entry (Table 09-4), and whether it keeps R228 and R229. -/
structure LenEnt where
  row : Nat
  count : Nat
  kvLen : Nat
  pos : Nat
  seq : Nat
  ok : Bool
deriving DecidableEq, Repr

/-- A little-endian value of `n` bytes in SRAM. -/
def rdNat (rd : SramRead) (a n : Nat) : Nat := leNat (readRun rd a n).1

/-- An FP32 value in SRAM, read with FTZ when selected (R115); NaN where a word is poisoned. -/
def rdF32 (rd : SramRead) (ftz : Bool) (a : Nat) : Val :=
  let r := readRun rd a 4
  if r.2 then .nan else Fmt.decodeFtz .fp32 ftz (leNat r.1)

/-- An FP32 code in SRAM, a subnormal one as zero of its sign with FTZ (R115); the canonical NaN where a word is poisoned. -/
def rdCode (rd : SramRead) (ftz : Bool) (a : Nat) : Nat :=
  let r := readRun rd a 4
  let c := leNat r.1
  if r.2 then (Fmt.spec .fp32).nanCode else if ftz && c / 2 ^ 23 % 256 == 0 then c / 2 ^ 31 * 2 ^ 31 else c

/-- A 32-bit word in SRAM; the FP32 NaN's code where it is poisoned, which no page position equals (R97, R242). -/
def rdWord (rd : SramRead) (a : Nat) : Nat := let r := readRun rd a 4; if r.2 then (Fmt.spec .fp32).nanCode else leNat r.1

/-- Does an area named by the context block lie within the SRAM? -/
def ctxAreaOk (off len : Nat) : Bool := off == 0xFFFFFFFF || decide (off + len ≤ 0xC0000)

/-- The context block; none where it is malformed (R229). -/
def attnCtx (rd : SramRead) (k : Kernel) : Option AttnCtx :=
  let p := k.attnP
  let r := readRun rd p.ctx 32
  let n := fun o w => leNat ((r.1.drop o).take w)
  let c : AttnCtx := ⟨n 0 4, n 4 4, n 8 4, n 12 4, n 16 2, n 20 4⟩
  let explicit := p.mask == 4 || p.mask == 5
  let ok := !r.2 && n 18 2 == 0 && n 24 8 == 0 && c.pitch % 4 == 0
    && (if p.paged then c.lenOff != 0xFFFFFFFF && decide (1 ≤ c.seqs) && decide (c.seqs ≤ 1024) else c.lenOff == 0xFFFFFFFF)
    && ctxAreaOk c.lenOff (16 * c.seqs) && ctxAreaOk c.freqOff (2 * p.rot)
    && ctxAreaOk c.maskOff ((k.d0 - 1) * c.pitch + k.d1 / 8)
    && (p.rope == 0 || c.freqOff != 0xFFFFFFFF) && (!explicit || c.maskOff != 0xFFFFFFFF)
  if ok then some c else none

/-- The length table's entries from number `i` on, `low` the first row the next entry may take. -/
def lenTable (rd : SramRead) (k : Kernel) (off : Nat) : Nat → Nat → Nat → List LenEnt
  | 0, _, _ => []
  | n + 1, i, low =>
    let p := k.attnP
    let a := off + 16 * i
    let row := rdNat rd a 2
    let count := rdNat rd (a + 2) 2
    let kv := rdNat rd (a + 4) 4
    let pos := rdNat rd (a + 8) 4
    let ok := !(readRun rd a 16).2 && row % p.group == 0 && count % p.group == 0 && decide (kv ≤ 2 ^ 24)
      && decide (low ≤ row) && decide (pos + count / p.group ≤ 2 ^ 24) && decide (row + count ≤ k.d0)
    ⟨row, count, kv, pos, rdNat rd (a + 12) 4, ok⟩ :: lenTable rd k off n (i + 1) (max low (row + count))

/-! ### Blocks of keys -/

/-- A block of 64 keys with what decides which rows see it: position of key 0, its index in the buffer, valid tokens, KV_LEN,
the rows it applies to and the query position of the first of them, and the scales. -/
structure ABlock where
  keys : List (List Val)
  vals : List (List Val)
  k0 : Nat
  j0 : Nat
  count : Nat
  kvLen : Nat
  rowLo : Nat
  rowN : Nat
  qpos0 : Nat
  sK : Val
  sV : Val
deriving DecidableEq, Repr

/-- Is key `j` of a block masked for a row (R230 to R232)? None where that hangs on a poisoned word of the explicit mask (03_cores.md
R97). -/
def attnMasked (rd : SramRead) (p : AttnP) (c : AttnCtx) (b : ABlock) (row j : Nat) : Option Bool :=
  let qp := b.qpos0 + (row - b.rowLo) / p.group
  let kp := b.k0 + j
  let bj := b.j0 + j
  let w := rd (c.maskOff + row * c.pitch + bj / 8)
  let bit := w.1.toNat.testBit (bj % 8)
  let away := decide (b.kvLen ≤ kp) || decide (b.count ≤ j) || (p.mask == 5 && decide (qp < kp))
  let seen := match p.mask with
    | 0 => true
    | 1 => decide (kp ≤ qp)
    | 2 => decide (qp < kp + p.win) && decide (kp ≤ qp)
    | 3 => decide (kp < p.win) || decide (kp ≤ qp)
    | _ => bit
  if away then some true
  else if (p.mask == 4 || p.mask == 5) && w.2 then none
  else some (!seen)

/-- A stored row of `n` elements at address `a`; a poisoned element reads as NaN. -/
def rowVals (rd : SramRead) (f : Fmt) (ftz : Bool) (a n : Nat) : List Val :=
  (List.range n).map (fun c => let q := readCode rd f a c; if q.2 then .nan else f.decodeFtz ftz q.1)

/-- Row `i` of an operand of `n` columns, with TRANS; poisoned elements read as NaN. -/
def opdRow (rd : SramRead) (o : Operand) (rank : Nat) (ftz : Bool) (i n : Nat) : List Val :=
  (List.range n).map (fun c => let q := readElem rd o rank ftz i c; if q.2 then .nan else q.1)

/-- The format in which an operand enters a product with a partner: an 8-bit operand takes a 16-bit partner's (R236). -/
def productFmt (own partner : Fmt) : Fmt := if own.bits = 8 && partner.bits == 16 then partner else own

/-- The scales of R216: the four values, whether all that the kernel uses may be used, and whether one of those is invalid (R118) and
not merely poisoned. -/
structure AScales where
  vals : List Val
  ok : Bool
  inv : Bool
deriving DecidableEq, Repr

/-- The scales sQ, sK, sO and sV, of which a kernel uses those of numbers `used`. -/
def attnScales (rd : SramRead) (k : Kernel) (used : List Nat) : AScales :=
  match k.scaleOff with
  | none => ⟨[Val.one, Val.one, Val.one, Val.one], true, false⟩
  | some o =>
    let xs := (List.range 4).map (fun i => readRun rd (o + 4 * i) 4)
    let at_ := fun (i : Nat) => xs.getD i ([], true)
    ⟨xs.map (fun x => if x.2 then Val.nan else fp32 (leNat x.1)), used.all (fun i => !(at_ i).2 && validScale (leNat (at_ i).1)),
      used.any (fun i => !(at_ i).2 && !validScale (leNat (at_ i).1))⟩

/-- The matrix flags of a kernel's scales. -/
def AScales.fl (s : AScales) : Fl := .invalid s.inv

/-- Scale number `i`. -/
def AScales.at (s : AScales) (i : Nat) : Val := s.vals.getD i Val.one

/-- A combined scale in the internal format of R119. -/
def internalScale (v : Val) : Val := scaleSpec.decode (scaleSpec.round .ieee false .nearest v).code

/-! ### The running state -/

/-- One row of the state area (R217), as FP32 codes; X as its word. -/
structure ARow where
  m : Nat
  l : Nat
  x : Nat
  o : List Nat
deriving DecidableEq, Repr

/-- FP32 −∞. -/
def negInf : Nat := 0xFF800000
/-- The canonical FP32 NaN. -/
def nan32 : Nat := 0x7FC00000
/-- LOG2E of R218. -/
def log2e : Val := fp32 0x3FB8AA3B

/-- Is an FP32 code NaN? -/
def isNan32 (c : Nat) : Bool := (fp32 c).isNan

/-- Read a row of a state area at `a`. -/
def readARow (rd : SramRead) (k : Kernel) (a row : Nat) : ARow :=
  let n := k.d0
  let f := k.ftz
  ⟨rdCode rd f (a + 4 * row), rdCode rd f (a + 4 * n + 4 * row), rdWord rd (a + 8 * n + 4 * row),
    (List.range k.d2).map (fun d => rdCode rd f (a + 12 * n + 4 * (row * k.d2 + d)))⟩

/-- The writes of a state area: M, L and O of every row, and the words of X that the kernel changed. -/
def stateWrites (rd : SramRead) (k : Kernel) (a : Nat) (rows : List ARow) : List (Nat × Byte) :=
  let xAt := fun (i : Nat) => a + 8 * k.d0 + 4 * i
  writesAt a (rows.flatMap (fun r => leBytes 4 r.m) ++ rows.flatMap (fun r => leBytes 4 r.l))
    ++ (List.range rows.length).flatMap (fun i =>
      let x := (rows.getD i ⟨0, 0, 0, []⟩).x
      if x = rdWord rd (xAt i) then [] else writesAt (xAt i) (leBytes 4 x))
    ++ writesAt (a + 12 * k.d0) (rows.flatMap (fun r => r.o.flatMap (leBytes 4)))

/-- exp2(rnd32((a − b) × LOG2E)) with flags. -/
def expDiff (ftz : Bool) (a b : Val) : Nat × Fl :=
  let d := a.sub b
  let p := d.1.mul log2e
  let t := r32 ftz (p.1, d.2 || p.2)
  let e := sfuExp2 ftz (fp32 t.1)
  (e.code, t.2.join e.fl)

/-- A dot product in the order of R85, from zero. -/
def dotVals (ftz : Bool) (xs ys : List Val) : Val × Fl := accAll ftz false (xs.length + 1) Val.zero .none (xs.zip ys)

/-- The scores of a row against a block (R218): none where masked, NaN where the mask is poisoned. -/
def attnScores (ftz : Bool) (q : List Val) (qk : Val) (keys : List (List Val)) (masked : Nat → Option Bool) :
    List (Option Val) × Fl :=
  let ss := (List.range 64).map (fun j => match masked j with
    | some true => (none, Fl.none)
    | none => (some Val.nan, Fl.none)
    | some false =>
      let a := dotVals ftz q (keys.getD j [])
      let s := r32 ftz (a.1.mul qk)
      (some (fp32 s.1), a.2.join s.2))
  (ss.map (·.1), ss.foldl (fun f s => f.join s.2) .none)

/-- rnd_p of R238, with V's format. -/
def rndP (ftz p8 : Bool) (v : Fmt) (x : Val) : Val × Fl :=
  let go := fun (f : Fmt) (y : Val) => let r := f.round f.defaultOvf ftz .nearest y; (f.decode r.code, r.fl)
  if v == .fp16 then go .fp16 x
  else if p8 then go .e4m3 (x.mul (Val.ofNat 256)).1
  else go .bf16 x

/-- Map FP32 codes through a rounded operation, joining flags. -/
def mapCodes (f : Nat → Nat × Fl) (xs : List Nat) : List Nat × Fl :=
  let ys := xs.map f
  (ys.map (·.1), ys.foldl (fun a y => a.join y.2) .none)

/-- A score as the value the procedure sees: −∞ where masked. -/
def scoreVal (x : Option Val) : Val := x.getD (.inf true)

/-- One block into one row's state (R218 to R220): the row, matrix flags, vector flags. -/
def forwardBlock (ftz p8 : Bool) (vf : Fmt) (invSv : Val) (vals : List (List Val)) (sc : List (Option Val)) (st : ARow) :
    ARow × Fl × Fl :=
  let s := sc.map scoreVal
  if isNan32 st.m then (st, .none, .none)
  else if s.any (fun x => x.isNan || x == .inf false) then ({ st with m := nan32 }, .none, .none)
  else
    let mb := s.foldl Val.max (.inf true)
    let m0 := fp32 st.m
    let up := m0.ltB mb
    let a := expDiff ftz m0 mb
    let st1 : ARow × Fl := if up then
        let o := mapCodes (fun c => r32 ftz ((fp32 c).mul (fp32 a.1))) st.o
        let l := r32 ftz ((fp32 st.l).mul (fp32 a.1))
        ({ st with m := (roundFp32 false mb).code, l := l.1, o := o.1 }, a.2.join (o.2.join l.2))
      else (st, .none)
    let m1 := fp32 st1.1.m
    if m1 == .inf true then (st1.1, .none, st1.2)
    else
      let ps := s.map (fun x => if x == .inf true then (Val.zero, Fl.none)
        else let e := expDiff ftz x m1; let p := rndP ftz p8 vf (fp32 e.1); (p.1, e.2.join p.2))
      let pv := ps.map (·.1)
      let vfl := ps.foldl (fun f p => f.join p.2) st1.2
      let bl := dotVals ftz pv (List.replicate 64 Val.one)
      let os := (List.range st1.1.o.length).map (fun d =>
        let bo := dotVals ftz pv (vals.map (fun r => r.getD d .nan))
        let y := r32 ftz (bo.1.mul invSv)
        let z := r32 ftz ((fp32 (st1.1.o.getD d 0)).add (fp32 y.1))
        (z.1, bo.2.join (y.2.join z.2)))
      let l := r32 ftz ((fp32 st1.1.l).add bl.1)
      ({ st1.1 with l := l.1, o := os.map (·.1) }, os.foldl (fun f o => f.join o.2) (bl.2.join l.2), vfl)

/-- The output of a row at LAST (R221), its element d standing at place row × D2 + d of the output (R83): the output codes, the state's L,
matrix flags. -/
def attnOut (k : Kernel) (env : KEnv) (sO : Val) (row : Nat) (st : ARow) : List Nat × Nat × Fl :=
  if isNan32 st.m then (List.replicate k.d2 k.c.format.spec.nanCode, st.l, .none)
  else if st.m = negInf then (List.replicate k.d2 0, 0, .none)
  else
    let cs := (List.range st.o.length).map (fun d =>
      let n := (fp32 (st.o.getD d 0)).mul sO
      let q := n.1.div (fp32 st.l)
      let r := k.roundOut env k.c (row * k.d2 + d) q.1
      (r.code, ({ ovf := q.2.2, inv := n.2 || q.2.1 } : Fl).join r.fl))
    (cs.map (·.1), st.l, cs.foldl (fun a c => a.join c.2) .none)

/-- What an attention kernel leaves: writes and flags, the length entry of R229 (none of them: all ones for the context
block), and the slot and reason of R242. -/
structure AResult where
  res : KResult
  lenBad : Option Nat
  kvBad : Option (Nat × Nat)
deriving DecidableEq, Repr

/-- The writes and flags of rows finished by LAST, with their state. -/
def finishRows (rd : SramRead) (k : Kernel) (env : KEnv) (sO : Val) (rows : List ARow) (mfl vfl : Fl) : KResult :=
  let a := k.attnP.state
  if k.attnP.last then
    let outs := (List.range rows.length).map (fun i => attnOut k env sO i (rows.getD i ⟨0, 0, 0, []⟩))
    let rows' := (rows.zip outs).map (fun x => { x.1 with l := x.2.2.1 })
    ⟨stateWrites rd k a rows' ++ (List.range rows.length).flatMap (fun i =>
        rowWrites k.c env.rank i ((outs.getD i ([], 0, .none)).1.map some)),
      outs.foldl (fun f o => f.join o.2.2) mfl, vfl⟩
  else ⟨stateWrites rd k a rows, mfl, vfl⟩

/-! ### Queries -/

/-- Queries of the kernel: each row's values as the product sees them, the query scale factor w of its block, and whether the
row's block is non-finite under QNARROW (R235 to R237). -/
structure AQuery where
  q : List Val
  raw : List Val
  w : Val
  bad : Bool
deriving DecidableEq, Repr

/-- The factor w of a query block: 448 / amax in FP32, clamped to the normal range; 1.0 for an all-zero block (R237);
with INX where the rounding, or the clamp, changed it. -/
def narrowW (amax : Val) : Val × Fl :=
  if amax.isZero then (Val.one, .none)
  else
    let r := roundFp32 false ((Val.ofNat 448).div amax).1
    (fp32 (max 0x00800000 (min 0x7F7FFFFF r.code)), { inx := r.fl.inx })

/-- All query rows: `qpos r` their positions. -/
def attnQueries (rd : SramRead) (k : Kernel) (rank : Nat) (freqs : List Val) (qpos : Nat → Nat) : List AQuery × Fl :=
  let p := k.attnP
  let pf := if p.qnarrow then k.a.format else productFmt k.a.format k.b.format
  let rows := (List.range k.d0).map (fun r =>
    let x := opdRow rd k.a rank k.ftz r k.d2
    if p.rope != 0 && p.ropeQ then rotate k.ftz (p.rope == 2) freqs (qpos r) false (some pf) x else (x, Fl.none))
  let fl := rows.foldl (fun f r => f.join r.2) Fl.none
  let vs := rows.map (·.1)
  if !p.qnarrow then (vs.map (fun v => ⟨v, v, Val.one, false⟩), fl)
  else
    let one := fun (r : Nat) =>
      let blk := (vs.drop (r / 16 * 16)).take 16
      let bad := blk.any (fun v => v.any (fun x => !x.isFin))
      let amax := (blk.flatMap (fun v => v)).foldl (fun a x => if x.isFin then a.max x.abs else a) Val.zero
      let w := narrowW amax
      let cs := (vs.getD r []).map (fun x => Fmt.e4m3.round .sat k.ftz .nearest (x.mul w.1).1)
      (({ q := cs.map (fun c => Fmt.e4m3.decode c.code), raw := vs.getD r [], w := w.1, bad } : AQuery),
        cs.foldl (fun f c => f.join c.fl) (if r % 16 = 0 then w.2 else Fl.none))
    let qs := (List.range k.d0).map one
    (qs.map (·.1), qs.foldl (fun f q => f.join q.2) fl)

/-- The rotary frequencies (R233). -/
def attnFreqs (rd : SramRead) (k : Kernel) (c : AttnCtx) : List Val :=
  if k.attnP.rope = 0 then [] else (List.range (k.attnP.rot / 2)).map (fun i => rdF32 rd k.ftz (c.freqOff + 4 * i))

/-- Rotate the keys of a block by their positions where ROPE_K is set. -/
def rotKeys (k : Kernel) (freqs : List Val) (k0 : Nat) (fmt : Fmt) (keys : List (List Val)) : List (List Val) × Fl :=
  let p := k.attnP
  if p.rope != 0 && p.ropeK then
    let ys := (List.range keys.length).map (fun j => rotate k.ftz (p.rope == 2) freqs (k0 + j) false (some fmt) (keys.getD j []))
    (ys.map (·.1), ys.foldl (fun f y => f.join y.2) Fl.none)
  else (keys, .none)

/-- The blocks of a dense buffer (R218, R223), with the vector flags of rotating keys. -/
def denseBlocks (rd : SramRead) (k : Kernel) (rank : Nat) (c : AttnCtx) (freqs : List Val) (sK sV : Val) : List ABlock × Fl :=
  let p := k.attnP
  let base := p.kpos + rank % p.ways * k.d1
  let pf := productFmt k.b.format k.a.format
  let bs := (List.range (k.d1 / 64)).map (fun i =>
    let ks := rotKeys k freqs (base + 64 * i) pf ((List.range 64).map (fun j => opdRow rd k.b rank k.ftz (64 * i + j) k.d2))
    (({ keys := ks.1, vals := (List.range 64).map (fun j => opdRow rd k.d rank k.ftz (64 * i + j) k.d2), k0 := base + 64 * i,
        j0 := 64 * i, count := 64, kvLen := 2 ^ 32, rowLo := 0, rowN := k.d0, qpos0 := c.pos0, sK, sV } : ABlock), ks.2))
  (bs.map (·.1), bs.foldl (fun f b => f.join b.2) Fl.none)

/-- Process one block for the rows it applies to. -/
def forwardRows (rd : SramRead) (k : Kernel) (c : AttnCtx) (sQ : Val) (qs : List AQuery) (b : ABlock)
    (st : List ARow × Fl × Fl) : List ARow × Fl × Fl :=
  let p := k.attnP
  let invSv := internalScale (Val.one.div b.sV).1
  let xs := (List.range st.1.length).map (fun r =>
    let row := st.1.getD r ⟨0, 0, 0, []⟩
    if b.rowLo ≤ r ∧ r < b.rowLo + b.rowN then
      let q := qs.getD r ⟨[], [], Val.one, false⟩
      if q.bad then ({ row with m := nan32 }, Fl.none, Fl.none)
      else if isNan32 row.m then (row, .none, .none)
      else
        let den := ((sQ.mul q.w).1.mul b.sK).1
        let qk := internalScale (p.sm.div den).1
        let sc := attnScores k.ftz q.q qk b.keys (attnMasked rd p c b r)
        let y := forwardBlock k.ftz p.p8 k.d.format invSv b.vals sc.1 row
        (y.1, sc.2.join y.2.1, y.2.2)
    else (row, .none, .none))
  (xs.map (·.1), xs.foldl (fun f x => f.join x.2.1) st.2.1, xs.foldl (fun f x => f.join x.2.2) st.2.2)

/-- Every row's M set to NaN. -/
def nanRows (rows : List ARow) (p : Nat → Bool) : List ARow :=
  (List.range rows.length).map (fun r => let x := rows.getD r ⟨0, 0, 0, []⟩; if p r then { x with m := nan32 } else x)

/-- A filled slot's checks (R242): the entry it belongs to, or the reason of its mismatch with the rows it spoils. -/
def slotCheck (rd : SramRead) (k : Kernel) (ents : List LenEnt) (rows : List ARow) (a : Nat) :
    Except (Nat × Option LenEnt) LenEnt :=
  let hdr := readRun rd a 64
  let n := fun o w => leNat ((hdr.1.drop o).take w)
  match ents.find? (fun e => e.seq == n 8 4) with
  | none => .error (1, none)
  | some e =>
    if hdr.2 || n 0x12 1 == 0xFF then .error (5, some e)
    else if decide (0 < e.count) && n 0xC 4 != (rows.getD e.row ⟨0, 0, 0, []⟩).x then .error (2, some e)
    else if n 0x12 1 != k.b.fmt + 16 * k.d.fmt then .error (3, some e)
    else if n 0x16 2 != k.d2 then .error (4, some e)
    else .ok e

/-- One slot of a paged buffer (R242): the state, the flags and the first mismatch so far. -/
def pagedSlot (rd : SramRead) (k : Kernel) (rank : Nat) (c : AttnCtx) (freqs : List Val) (sQ : Val) (qs : List AQuery)
    (ents : List LenEnt) (st : (List ARow × Fl × Fl) × Option (Nat × Nat)) (i : Nat) :
    (List ARow × Fl × Fl) × Option (Nat × Nat) :=
  let a := k.b.base rank + i * k.b.pitch
  let rows := st.1.1
  if rdNat rd (a + 0x10) 2 = 0 then st
  else
    match slotCheck rd k ents rows a with
    | .error (why, e) =>
      let hit := fun r => match e with | none => true | some x => decide (x.row ≤ r) && decide (r < x.row + x.count)
      ((nanRows rows hit, st.1.2), st.2 <|> some (i, why))
    | .ok e =>
      let kb := k.b.format.rowBytes k.d2
      let first := rdNat rd (a + 0xC) 4
      let sKc := rdNat rd a 4
      let sVc := rdNat rd (a + 4) 4
      let own := fun r => decide (e.row ≤ r) && decide (r < e.row + e.count)
      let adv := fun (rs : List ARow) => (List.range rs.length).map (fun r =>
        let x := rs.getD r ⟨0, 0, 0, []⟩; if own r then { x with x := (x.x + 64) % 2 ^ 32 } else x)
      if !(validScale sKc && validScale sVc) then
        ((adv (nanRows rows own), st.1.2.1.join (.invalid true), st.1.2.2), st.2)
      else
        let ks := rotKeys k freqs first (productFmt k.b.format k.a.format)
          ((List.range 64).map (fun j => rowVals rd k.b.format k.ftz (a + 0x40 + j * kb) k.d2))
        let b : ABlock :=
          { keys := ks.1
            vals := (List.range 64).map (fun j =>
              rowVals rd k.d.format k.ftz (a + 0x40 + 64 * kb + j * k.d.format.rowBytes k.d2) k.d2)
            k0 := first, j0 := 64 * i, count := rdNat rd (a + 0x10) 2, kvLen := e.kvLen, rowLo := e.row, rowN := e.count,
            qpos0 := e.pos, sK := fp32 sKc, sV := fp32 sVc }
        let y := forwardRows rd k c sQ qs b (rows, st.1.2.1, st.1.2.2.join ks.2)
        ((adv y.1, y.2), st.2)

/-- The entry whose rows hold row `r`. -/
def lenEntryOf (ents : List LenEnt) (r : Nat) : Option LenEnt := ents.find? (fun e => decide (e.row ≤ r) && decide (r < e.row + e.count))

/-- The state FORWARD starts from: FIRST initialises it (R217, R242). -/
def forwardStart (rd : SramRead) (k : Kernel) (rank : Nat) (ents : List LenEnt) : List ARow :=
  let p := k.attnP
  (List.range k.d0).map (fun r =>
    let x := readARow rd k p.state r
    if p.first then
      let next := if p.paged then
          match lenEntryOf ents r with
          | some e => 64 * (rank % p.ways * ((e.kvLen + 63) / 64) / p.ways)
          | none => x.x
        else x.x
      ⟨negInf, 0, next, List.replicate k.d2 0⟩
    else x)

/-- FORWARD (R218 to R224, R229 to R242). sK and sV of a paged kernel stand in the page headers (R216); sO is used at LAST. -/
def attnForward (rd : SramRead) (k : Kernel) (env : KEnv) : AResult :=
  let p := k.attnP
  let rank := env.rank
  let sc := attnScales rd k (if p.paged then [0, 2] else [0, 1, 2, 3])
  let spoil := fun (rows : List ARow) => finishRows rd k env (sc.at 2) (nanRows rows (fun _ => true)) sc.fl .none
  match attnCtx rd k with
  | none => ⟨spoil (forwardStart rd k rank []), some 0xFFFFFFFF, none⟩
  | some c =>
    let table := if p.paged then lenTable rd k c.lenOff c.seqs 0 0 else []
    let ents := table.filter (·.ok)
    let broken := table.filter (fun e => !e.ok)
    let lenBad := ((List.range table.length).find? (fun i => !(table.getD i ⟨0, 0, 0, 0, 0, true⟩).ok))
    let rows0 := nanRows (forwardStart rd k rank ents)
      (fun r => broken.any (fun e => decide (e.row ≤ r) && decide (r < e.row + e.count)))
    let freqs := attnFreqs rd k c
    let qpos := fun r => if p.paged then
        match lenEntryOf ents r with | some e => e.pos + (r - e.row) / p.group | none => 0
      else c.pos0 + r / p.group
    let qs := attnQueries rd k rank freqs qpos
    if !sc.ok then ⟨spoil rows0, lenBad, none⟩
    else if p.paged then
      let y := (List.range (k.d1 / 64)).foldl (pagedSlot rd k rank c freqs (sc.at 0) qs.1 table) ((rows0, Fl.none, qs.2), none)
      ⟨finishRows rd k env (sc.at 2) y.1.1 y.1.2.1 y.1.2.2, lenBad, y.2⟩
    else
      let bs := denseBlocks rd k rank c freqs (sc.at 1) (sc.at 3)
      let y := bs.1.foldl (fun st b => forwardRows rd k c (sc.at 0) qs.1 b st) (rows0, Fl.none, qs.2.join bs.2)
      ⟨finishRows rd k env (sc.at 2) y.1 y.2.1 y.2.2, lenBad, none⟩

/-- One step of the merge of a row (R225), with vector flags. -/
def mergeRow (ftz : Bool) (st seg : ARow) : ARow × Fl :=
  if isNan32 st.m || isNan32 seg.m then ({ st with m := nan32 }, .none)
  else
    let ms := fp32 st.m
    let mg := fp32 seg.m
    let m1 := ms.max mg
    if m1 == .inf true then (st, .none)
    else
      let a := if ms.ltB m1 then expDiff ftz ms m1 else (0x3F800000, Fl.none)
      let b := if mg.ltB m1 then expDiff ftz mg m1 else (0x3F800000, Fl.none)
      let mix := fun (x y : Nat) => r32 ftz ((fp32 x).mulAdd2 (fp32 a.1) (fp32 y) (fp32 b.1))
      let os := (st.o.zip seg.o).map (fun e => mix e.1 e.2)
      let l := mix st.l seg.l
      ({ st with m := (roundFp32 false m1).code, l := l.1, o := os.map (·.1) },
        os.foldl (fun f o => f.join o.2) (a.2.join (b.2.join l.2)))

/-- MERGE (R225). -/
def attnMerge (rd : SramRead) (k : Kernel) (env : KEnv) : AResult :=
  let p := k.attnP
  let sz := k.attnSz
  let rows := (List.range k.d0).map (fun r =>
    (List.range (k.d1 - 1)).foldl (fun (st : ARow × Fl) i =>
      let y := mergeRow k.ftz st.1 (readARow rd k (p.state + (i + 1) * sz) r)
      (y.1, st.2.join y.2)) (readARow rd k p.state r, Fl.none))
  let sc := attnScales rd k (if p.paged then [0, 2] else [0, 1, 2, 3])
  let rs := if sc.ok then rows.map (·.1) else nanRows (rows.map (·.1)) (fun _ => true)
  ⟨finishRows rd k env (sc.at 2) rs sc.fl (rows.foldl (fun f r => f.join r.2) Fl.none), none, none⟩

/-! ### The backward pass -/

/-- What a block of the backward pass holds for one row: P, P and dS rounded to BF16, with flags of the two paths. -/
structure ABack where
  p : List Val
  ds : List Val
  mfl : Fl
  vfl : Fl
deriving DecidableEq, Repr

/-- A value rounded to BF16. -/
def bf16Val (ftz : Bool) (v : Val) : Val × Fl := let r := Fmt.bf16.round .ieee ftz .nearest v; (Fmt.bf16.decode r.code, r.fl)

/-- Is the row one that no key was seen for, which adds nothing to any gradient (R244)? -/
def ARow.blank (st : ARow) : Bool := (fp32 st.l).isZero && !isNan32 st.m

/-- P and dS of one row and block (R244); a row whose M is NaN gives NaN throughout. -/
def backRow (rd : SramRead) (k : Kernel) (c : AttnCtx) (sQ invSv : Val) (b : ABlock) (r : Nat) (q : AQuery) (st : ARow)
    (dO : List Val) : ABack :=
  let p := k.attnP
  if isNan32 st.m || q.bad then ⟨List.replicate 64 .nan, List.replicate 64 .nan, .none, .none⟩
  else if st.blank then ⟨List.replicate 64 Val.zero, List.replicate 64 Val.zero, .none, .none⟩
  else
    let qk := internalScale (p.sm.div ((sQ.mul q.w).1.mul b.sK).1).1
    let sc := attnScores k.ftz q.q qk b.keys (attnMasked rd p c b r)
    let l := fp32 st.l
    let xs := (List.range 64).map (fun j =>
      let s := scoreVal (sc.1.getD j none)
      let pj : Nat × Fl := if s == .inf true then (0, .none)
        else
          let e := expDiff k.ftz s (fp32 st.m)
          let d := (fp32 e.1).div l
          let q := r32 k.ftz (d.1, d.2.1)
          (q.1, e.2.join (q.2.join { ovf := d.2.2 }))
      let dv := dotVals k.ftz dO (b.vals.getD j [])
      let dp := r32 k.ftz (dv.1.mul invSv)
      let df := r32 k.ftz ((fp32 dp.1).sub (Fmt.decodeFtz .fp32 k.ftz st.x))
      let ds := r32 k.ftz ((fp32 pj.1).mul (fp32 df.1))
      let pb := bf16Val k.ftz (fp32 pj.1)
      let db := bf16Val k.ftz (fp32 ds.1)
      (pb.1, db.1, dv.2.join dp.2, pj.2.join (df.2.join (ds.2.join (pb.2.join db.2)))))
    ⟨xs.map (·.1), xs.map (·.2.1), xs.foldl (fun f x => f.join x.2.2.1) sc.2, xs.foldl (fun f x => f.join x.2.2.2) .none⟩

/-- An FP32 accumulator plus a scaled block product: each rounded once (R216, R244). -/
def addScaled (ftz : Bool) (acc : Nat) (v : Val × Fl) (scale : Option Val) : Nat × Fl :=
  let y : Nat × Fl := match scale with | none => ((roundFp32 ftz v.1).code, .none) | some s => r32 ftz (v.1.mul s)
  let z := r32 ftz ((fp32 acc).add (fp32 y.1))
  (z.1, v.2.join (y.2.join z.2))

/-- The gradient accumulators of a backward kernel: dQ by rows, dK and dV by keys, with flags of the two paths. -/
structure AGrad where
  rows : List ARow
  dk : List (List Nat)
  dv : List (List Nat)
  mfl : Fl
  vfl : Fl
deriving DecidableEq, Repr

/-- One block of the backward pass (R244). -/
def backBlock (rd : SramRead) (k : Kernel) (c : AttnCtx) (sQ : Val) (qs : List AQuery) (dO : List (List Val)) (g : AGrad)
    (b : ABlock) : AGrad :=
  let p := k.attnP
  let invSv := internalScale (Val.one.div b.sV).1
  let hs := (List.range k.d0).map (fun r =>
    backRow rd k c sQ invSv b r (qs.getD r ⟨[], [], Val.one, false⟩) (g.rows.getD r ⟨0, 0, 0, []⟩) (dO.getD r []))
  let sQd := internalScale (p.sm.div b.sK).1
  let sKd := internalScale (p.sm.div sQ).1
  let rows := (List.range k.d0).map (fun r =>
    let st := g.rows.getD r ⟨0, 0, 0, []⟩
    let h := hs.getD r ⟨[], [], .none, .none⟩
    if st.blank then (st, Fl.none)
    else
      let os := (List.range k.d2).map (fun d =>
        addScaled k.ftz (st.o.getD d 0) (dotVals k.ftz h.ds (b.keys.map (fun r => r.getD d .nan))) (some sQd))
      ({ st with o := os.map (·.1) }, os.foldl (fun f o => f.join o.2) Fl.none))
  let col := fun (old : List (List Nat)) (pick : ABack → List Val) (rowV : List (List Val)) (scale : Option Val) =>
    (List.range k.d1).map (fun i =>
      let was := old.getD i []
      if i < b.j0 ∨ b.j0 + 64 ≤ i then (was, Fl.none)
      else
        let xs := hs.map (fun h => (pick h).getD (i - b.j0) .nan)
        let ys := (List.range k.d2).map (fun d =>
          let vs := (List.range rowV.length).map (fun r =>
            if (g.rows.getD r ⟨0, 0, 0, []⟩).blank then Val.zero else (rowV.getD r []).getD d .nan)
          addScaled k.ftz (was.getD d 0) (dotVals k.ftz xs vs) scale)
        (ys.map (·.1), ys.foldl (fun f y => f.join y.2) Fl.none))
  let dk := col g.dk (·.ds) (qs.map (·.raw)) (some sKd)
  let dv := col g.dv (·.p) dO none
  let fl := fun (xs : List (List Nat × Fl)) => xs.foldl (fun f x => f.join x.2) Fl.none
  { rows := rows.map (·.1), dk := dk.map (·.1), dv := dv.map (·.1)
    mfl := hs.foldl (fun f h => f.join h.mfl) (g.mfl.join ((rows.foldl (fun f x => f.join x.2) Fl.none).join ((fl dk).join (fl dv))))
    vfl := hs.foldl (fun f h => f.join h.vfl) g.vfl }

/-- A vector rounded once to an operand's format, its first element at place `j` of the kernel's output (R83), under the descriptor. -/
def outVec (k : Kernel) (env : KEnv) (o : Operand) (j : Nat) (xs : List Val) : List Nat × Fl :=
  let cs := (List.range xs.length).map (fun d => k.roundOut env o (j + d) (xs.getD d .nan))
  (cs.map (·.code), cs.foldl (fun a c => a.join c.fl) Fl.none)

/-- BACKWARD (R244, R245). -/
def attnBackward (rd : SramRead) (k : Kernel) (env : KEnv) : AResult :=
  let p := k.attnP
  let rank := env.rank
  let ctx := attnCtx rd k
  let c := ctx.getD ⟨0xFFFFFFFF, 0xFFFFFFFF, 0xFFFFFFFF, 0, 0, 0⟩
  let sc := attnScales rd k [0, 1, 2, 3]
  let freqs := if ctx.isNone then [] else attnFreqs rd k c
  let rows0 := (List.range k.d0).map (fun r =>
    let x := readARow rd k p.state r
    let y := if p.first then { x with o := List.replicate k.d2 0 } else x
    if ctx.isNone || !sc.ok then { y with m := nan32 } else y)
  let qs := attnQueries rd k rank freqs (fun r => c.pos0 + r / p.group)
  let bs := denseBlocks rd k rank c freqs (sc.at 1) (sc.at 3)
  let dO := (List.range k.d0).map (fun r => rowVals rd .bf16 k.ftz (p.grad + 2 * r * k.d2) k.d2)
  let mat := fun (off : Nat) =>
    (List.range k.d1).map (fun j => (List.range k.d2).map (fun d => rdCode rd k.ftz (off + 4 * (j * k.d2 + d))))
  let g := bs.1.foldl (backBlock rd k c (sc.at 0) qs.1 dO) ⟨rows0, mat k.dkOff, mat k.dvOff, sc.fl, qs.2.join bs.2⟩
  let outs := if !p.last then [] else (List.range k.d0).map (fun r =>
    let st := g.rows.getD r ⟨0, 0, 0, []⟩
    let v := st.o.map fp32
    if isNan32 st.m then (List.replicate k.d2 k.c.format.spec.nanCode, Fl.none, Fl.none)
    else
      let y := if p.rope != 0 && p.ropeQ then rotate k.ftz (p.rope == 2) freqs (c.pos0 + r / p.group) true none v else (v, Fl.none)
      let z := outVec k env k.c (r * k.d2) y.1
      (z.1, z.2, y.2))
  let ws := stateWrites rd k p.state g.rows ++ writesAt k.dkOff (g.dk.flatMap (fun r => r.flatMap (leBytes 4)))
    ++ writesAt k.dvOff (g.dv.flatMap (fun r => r.flatMap (leBytes 4)))
    ++ (List.range outs.length).flatMap (fun i => rowWrites k.c rank i ((outs.getD i ([], .none, .none)).1.map some))
  ⟨⟨ws, outs.foldl (fun f o => f.join o.2.1) g.mfl, outs.foldl (fun f o => f.join o.2.2) g.vfl⟩,
    if ctx.isNone then some 0xFFFFFFFF else none, none⟩

/-- KV_GRAD (R245): every row of the outputs is NaN where the context block is malformed (R229) or a scale is invalid (R118). The places of
D's elements follow those of C's (DESIGN CHOICE). -/
def attnKvGrad (rd : SramRead) (k : Kernel) (env : KEnv) : AResult :=
  let p := k.attnP
  let rank := env.rank
  let ctx := attnCtx rd k
  let c := ctx.getD ⟨0xFFFFFFFF, 0xFFFFFFFF, 0xFFFFFFFF, 0, 0, 0⟩
  let sc := attnScales rd k [0, 1, 2, 3]
  let freqs := if ctx.isNone then [] else attnFreqs rd k c
  let base := p.kpos + rank % p.ways * k.d1
  let one := fun (o : Operand) (off first : Nat) (rot : Bool) (j : Nat) =>
    let v := (List.range k.d2).map (fun d => fp32 (rdCode rd k.ftz (off + 4 * (j * k.d2 + d))))
    let y := if rot then rotate k.ftz (p.rope == 2) freqs (base + j) true none v else (v, Fl.none)
    if ctx.isNone || !sc.ok then (⟨rowWrites o rank j (List.replicate k.d2 none), .none, .none⟩ : KResult)
    else
      let z := outVec k env o (first + j * k.d2) y.1
      ⟨rowWrites o rank j (z.1.map some), z.2, y.2⟩
  let r := (forRows k.d1 (one k.c k.dkOff 0 (p.rope != 0 && p.ropeK))).andThen
    (forRows k.d1 (one k.d k.dvOff (k.d1 * k.d2) false))
  ⟨{ r with mfl := r.mfl.join sc.fl }, if ctx.isNone then some 0xFFFFFFFF else none, none⟩

/-- The areas of SRAM that a sound context block names and an attention kernel reads: the length table, the frequency table, the explicit
mask's rows. -/
def Kernel.ctxExtent (k : Kernel) (rd : SramRead) : List (Nat × Nat) :=
  let p := k.attnP
  match attnCtx rd k with
  | none => []
  | some c =>
    (if p.paged then [(c.lenOff, 16 * c.seqs)] else []) ++ (if p.rope = 0 then [] else [(c.freqOff, 2 * p.rot)])
      ++ (if p.mask = 4 ∨ p.mask = 5 then (List.range k.d0).map (fun r => (c.maskOff + r * c.pitch, k.d1 / 8)) else [])

/-- The ranges of a slot: its header, and the rest of the page where the slot holds one (R242). -/
def Kernel.slotExtent (k : Kernel) (rd : SramRead) (rank i : Nat) : List (Nat × Nat) :=
  let a := k.b.base rank + i * k.b.pitch
  if rdNat rd (a + 0x10) 2 = 0 then [(a, 64)] else [(a, k.pageBytes)]

/-- The SRAM ranges an attention kernel reads. FORWARD with FIRST reads no M, L or O (R217). -/
def Kernel.attnExtent (k : Kernel) (rd : SramRead) (rank : Nat) : List (Nat × Nat) :=
  let p := k.attnP
  let scales : List (Nat × Nat) := match k.scaleOff with
    | some o => if p.paged then [(o, 4), (o + 8, 4)] else [(o, 16)]
    | none => []
  let kv := k.b.extent rank k.d1 k.d2 ++ k.d.extent rank k.d1 k.d2
  let state : List (Nat × Nat) := [(p.state, 4 * k.d0 * (k.d2 + 3))]
  let ctx := (p.ctx, 32) :: k.ctxExtent rd
  let grads : List (Nat × Nat) := [(k.dkOff, 4 * k.d1 * k.d2), (k.dvOff, 4 * k.d1 * k.d2)]
  match p.phase with
  | 0 => k.a.extent rank k.d0 k.d2 ++ (if p.paged then (List.range (k.d1 / 64)).flatMap (k.slotExtent rd rank) else kv)
      ++ (if p.first then [] else state) ++ ctx ++ scales
  | 1 => (List.range k.d1).map (fun i => (p.state + i * k.attnSz, 4 * k.d0 * (k.d2 + 3))) ++ scales
  | 2 => k.a.extent rank k.d0 k.d2 ++ kv ++ state ++ ctx ++ scales ++ (p.grad, 2 * k.d0 * k.d2) :: grads
  | _ => ctx ++ grads ++ scales

end Sys2Proof.Machine
end

