-- ==== Sys2Proof/Machine/Watch.lean ====
section
/-! DEFINITION. The watch table and the norm table (05_numeric_watch.md R127 to R139): merging a partial, choosing a scale,
writing a norm record, the events and sticky bits of the NUM block. -/

namespace Sys2Proof.Machine

/-- Raise a NUM event, at most once per tensor or group per step (R139). -/
def Mod.numEvent (m : Mod) (code id d1 d2 : Nat) : Mod :=
  if m.step.events.contains (code, id) then m
  else Mod.raise { m with step := { m.step with events := (code, id) :: m.step.events } } .contained code 0 id (lo32 d1)
    (lo32 d2)

/-- A watch record's fields (Table 05-1). -/
structure WatchRec where
  scale : Nat
  amax : Nat
  step : Nat
  flags : Nat
  total : Nat
  zeros : Nat
  sats : Nat
  nonfin : Nat
  id : Nat
  pending : Nat
  prev : Nat
deriving DecidableEq, Repr

/-- Read a record. -/
def WatchRec.ofBytes (b : List Byte) : WatchRec :=
  let n := fun (o w : Nat) => leNat ((b.drop o).take w)
  ⟨n 0 4, n 4 4, n 8 4, n 12 4, n 0x10 6, n 0x18 6, n 0x20 6, n 0x28 6, n 0x30 4, n 0x34 4, n 0x38 4⟩

/-- The bytes of a record. -/
def WatchRec.bytes (r : WatchRec) : List Byte :=
  leBytes 4 r.scale ++ leBytes 4 r.amax ++ leBytes 4 r.step ++ leBytes 4 r.flags ++ leBytes 6 r.total ++ leBytes 2 0
    ++ leBytes 6 r.zeros ++ leBytes 2 0 ++ leBytes 6 r.sats ++ leBytes 2 0 ++ leBytes 6 r.nonfin ++ leBytes 2 0
    ++ leBytes 4 r.id ++ leBytes 4 r.pending ++ leBytes 4 r.prev ++ leBytes 4 0

/-- Set bit `b` of FLAGS. -/
def WatchRec.flag (r : WatchRec) (b : Nat) : WatchRec := { r with flags := r.flags ||| 2 ^ b }

/-- fmt_max of a target format (Table 05-2). -/
def fmtMax : Fmt → Option Nat
  | .e4m3 => some 448 | .e5m2 => some 57344 | .fp4 => some 6 | .fp16 => some 65504 | .int8 => some 127
  | .uint8 => some 255 | .int4 => some 7 | .uint4 => some 15
  | .fp32 | .bf16 | .int32 | .tail48 | .fp64 => none

/-- The scale rule of R132: the new scale, or none where the previous one is kept, and the flag bits [3:1] it sets. -/
def scaleRule (fmt : Fmt) (margin nonfin amax : Nat) : Option Nat × Nat :=
  if nonfin > 0 then (none, 2)
  else
    match fmtMax fmt with
    | none => (some 0x3F800000, if amax = 0 then 4 else 0)
    | some mx =>
      if amax = 0 then (some 0x3F800000, 4)
      else
        let s := (roundFp32 false ((Val.ofNat mx).div ((fp32 amax).mul (fp32 margin)).1).1).code
        if 0x7F7FFFFF < s then (some 0x7F7FFFFF, 8)
        else if s < 0x00800000 then (some 0x00800000, 8)
        else (some s, 0)

/-- The completion of an accumulation (R132; for a parameter tensor R135); the scales of a tensor of a ROW binding stay as they are
(07_groom_units.md R185). -/
def WatchRec.complete (r : WatchRec) (t : TensorRec) (row : Bool) : WatchRec :=
  let c := scaleRule ((Fmt.ofCode t.fmt).getD .fp32) t.margin r.nonfin r.amax
  let q := { r with prev := r.scale, flags := r.flags ||| c.2 ||| 1 }
  if row then q
  else if t.isParam then { q with pending := c.1.getD r.pending }
  else { q with scale := c.1.getD r.scale }

/-- The record reopened for a partial's step (R131). -/
def WatchRec.reopen (r : WatchRec) (step source : Nat) : WatchRec :=
  { r with total := 0, zeros := 0, sats := 0, nonfin := 0, amax := 0, step := step,
           flags := r.flags / 64 * 64 + source * 32 }

/-- The record with a partial's counts added (R131). -/
def WatchRec.join (r p : WatchRec) : WatchRec :=
  { r with total := r.total + p.total, zeros := r.zeros + p.zeros, sats := r.sats + p.sats,
           nonfin := r.nonfin + p.nonfin, amax := max r.amax p.amax }

/-- Events and sticky bits of a record that has completed (R139, Table 05-4). -/
def Mod.watchEvents (m : Mod) (id : Nat) (r : WatchRec) (newScale : Nat) : Mod :=
  let sat := m.fget Fld.NUM_SAT_THRESH_LIMIT
  let zr := m.fget Fld.NUM_ZERO_THRESH_LIMIT
  let m1 := if r.nonfin > 0 then (m.fset Fld.NUM_STICKY_NONFINITE 1).numEvent 0x0501 id r.nonfin r.step else m
  let m2 := if sat ≠ 0 ∧ r.total * sat < r.sats * 65536 then m1.numEvent 0x0502 id r.sats r.total else m1
  let m3 := if zr ≠ 0 ∧ r.total * zr < r.zeros * 65536 then m2.numEvent 0x0503 id r.zeros r.total else m2
  if r.flags.testBit 3 then (m3.fset Fld.NUM_STICKY_CLAMPED 1).numEvent 0x0504 id newScale r.amax else m3

/-- Does a ROW binding of the active plate name the tensor (07_groom_units.md R185)? -/
def Mod.rowTensor (m : Mod) (tensor : Nat) : Bool :=
  ((m.plate?.map (·.groom.bindings)).getD []).any (fun g => g.row && g.tensor == tensor)

/-- Does the active plate declare a watch table (R127)? -/
def Mod.hasWatch (m : Mod) : Bool := m.regions.any (fun r => r.kind == .watch)

/-- A partial merges into a tensor's watch record at its HBM controller (R131 to R133), after the errors the read meets. A
partial of a tensor that is not declared, or under a plate without a watch table, merges nowhere; a record that reads as poisoned
stays as it is. -/
def Mod.watchMerge (m : Mod) (tensor : Nat) (p : WatchRec) (source : Nat) (ecc : Ecc) : Mod :=
  match if m.hasWatch then m.tensor? tensor else none with
  | none => m
  | some t =>
    let a := regionBase m.regions .watch + 64 * tensor
    let rd := m.unitRead true a 64 ecc
    let m0 := rd.1
    if rdPoison rd.2 then m0
    else
      let r := WatchRec.ofBytes (rdBytes rd.2)
      let isDone := r.flags.testBit 0
      let opens := isDone || r.step != p.step
      let m1 := if opens && !isDone then
          (m0.fset Fld.NUM_STICKY_INCOMPLETE 1).numEvent 0x0506 tensor r.step r.total
        else m0
      let r1 := if opens then r.reopen p.step source else r
      if t.elements < r1.total + p.total then
        ((m1.fset Fld.NUM_STICKY_OVERCOUNT 1).numEvent 0x0505 tensor p.total p.step).devWrite a (r1.flag 4).bytes
      else
        let r2 := r1.join p
        if r2.total = t.elements then
          let r3 := r2.complete t (m.rowTensor tensor)
          (m1.watchEvents tensor r3 (if t.isParam then r3.pending else r3.scale)).devWrite a r3.bytes
        else m1.devWrite a r2.bytes
where
  /-- Base address of the region of a kind. -/
  regionBase (rs : List Region) (k : RegionKind) : Nat := ((rs.find? (fun r => r.kind == k)).map (·.base)).getD 0

/-- A tensor's working copy has been derived and taken: PENDING_SCALE becomes SCALE (R135). -/
def Mod.takePending (m : Mod) (tensor : Nat) (ecc : Ecc) : Mod :=
  let a := Mod.watchMerge.regionBase m.regions .watch + 64 * tensor
  if m.hasWatch && (m.tensor? tensor).isSome && !m.rowTensor tensor then
    let m1 := m.eccDev true [(a, 64)] ecc
    m1.devWriteP a (m1.devRead (a + 0x34) 4)
  else m

/-- WATCH_PARTIAL_MERGE: a partial record's bytes reach the controller of the tensor's watch record (R131). -/
def execWatchPartialMerge (tensor : Nat) (part : List Byte) (ecc : Ecc) (s : State) : Host.Outcome State Fault Refusal :=
  .next (s.unit (fun m =>
    let p := WatchRec.ofBytes part
    m.watchMerge tensor p ((p.flags / 32) % 2) ecc))

/-! ### Norm records -/

/-- Is an FP64 code finite? -/
def finite64 (c : Nat) : Bool := c / 2 ^ 52 % 2048 != 2047

/-- Is the update ratio of R139 exceeded: A2 > t² × A0 in FP64? -/
def ratioHigh (t a0 a2 : Nat) : Bool :=
  let tt := fp64 (roundFp64 ((fp32 t).mul (fp32 t)).1).code
  (fp64 (roundFp64 (tt.mul (fp64 a0)).1).code).ltB (fp64 a2)

/-- Write a group's norm record for a step (R137, R138) and compare it with the thresholds (R139). `flags` holds VALID,
DISCARDED, REPLAYED and DEFERRED; NONFINITE is added here. -/
def Mod.normWrite (m : Mod) (group step elements : Nat) (a : List Nat) (flags : Nat) : Mod :=
  match m.regions.find? (fun r => r.kind == .norm) with
  | none => m
  | some r =>
    let bad := (List.range 4).filter (fun k => !finite64 (a.getD k 0))
    let fl := flags + (if bad.isEmpty then 0 else 8)
    let bytes := a.flatMap (leBytes 8) ++ leBytes 8 elements ++ leBytes 4 step ++ leBytes 2 group ++ leBytes 2 fl
      ++ leBytes 16 0
    let m1 := m.devWrite (r.base + (group + 4096 * (step % 2)) * 64) bytes
    let t := m.fget Fld.NUM_RATIO_THRESH_T
    let a0 := a.getD 0 0
    let a2 := a.getD 2 0
    let root := (roundFp32 false ((fp64 a2).div (fp64 a0)).1.sqrt.1).code
    let m2 := if t ≠ 0 && !flags.testBit 1 && ratioHigh t a0 a2 then m1.numEvent 0x0507 group step root else m1
    if bad.isEmpty then m2
    else (m2.fset Fld.NUM_STICKY_NORM_NONFINITE 1).numEvent 0x0508 group step ((bad.map (2 ^ ·)).sum)

end Sys2Proof.Machine
end

