-- ==== Sys2Proof/Machine/Cores.lean ====
section
/-! DEFINITION. The cores (03_cores.md R76 to R99): starting and completing kernels, SRAM errors, what each kernel does to its
core, fencing, stable reset, self-test; 18_debug.md R455 to R458 as the sequencer sees them. The family "kernels" but for
the element instructions. -/

namespace Sys2Proof.Machine

/-! ### The kernel a core runs -/

/-- A kernel descriptor of the active plate. -/
def Mod.kernel? (m : Mod) (i : Nat) : Option Kernel := m.plate?.bind (fun p => p.kernels[i]?)

/-- The stable of a core with its state, when a frame is in progress on it. -/
def Mod.busyStable (m : Mod) (c : Nat) : Option (StableRec × FrameNow) :=
  match m.stableOf c with
  | some s =>
    match m.stable? s.id with
    | some x => if x.busy && !x.ended then (frameNow s.frames x.pos).map (fun f => (s, f)) else none
    | none => none
  | none => none

/-- Is the core's FENCED bit set? -/
def Mod.coreFencedBit (m : Mod) (c : Nat) : Bool := m.fget Fld.CORE_FENCE_FENCED c == 1

/-- May a kernel with SYNC start on a core: has every core of the stable completed the previous kernel of the frame (R81)? -/
def Mod.syncMet (m : Mod) (s : StableRec) (kpos : Nat) : Bool := s.cores.all (fun c => decide (kpos ≤ (m.core c).kpos))

/-- Does breakpoint `i` match descriptor `k` on core `c` of stable `s` (18_debug.md R458)? -/
def Mod.bpMatches (m : Mod) (i c k : Nat) (s : StableRec) : Bool :=
  let t := m.fget Fld.DBG_BP_CFG_TARGET i
  let mt := m.fget Fld.DBG_BP_CFG_MATCH i
  m.fget Fld.DBG_BP_CFG_EN i == 1 && m.fget Fld.DBG_BP_IDX_INDEX i == k
    && (mt == 0 || (mt == 1 && t == s.id) || (mt == 2 && t == c))

/-- A breakpoint matches (R458): the core halts, its halt scope follows, DBG_BREAK is raised. -/
def Mod.bpHit (m : Mod) (i c k : Nat) (s : StableRec) : Mod :=
  let r : HaltReason := ⟨false, true, false, i⟩
  let m1 := m.haltCore r c
  let m2 := match m.fget Fld.DBG_BP_CFG_ACTION i with
    | 0 => m1
    | 1 => m1.haltCores r (s.cores.filter (fun x => x != c))
    | _ => m1.haltDevice r
  m2.raise .corrected 0x1102 c k i

/-- A trace record of a kernel, written only for the stable the trace selects (18_debug.md Table 18-3). -/
def Mod.traceKernel (m : Mod) (kind c k : Nat) (s : StableRec) : Mod :=
  if m.fget Fld.DBG_TRACE_CTRL_STABLE = s.id then m.trace kind c k else m

/-- A pair of a plate's constant set, with the constants that STEP_START committed over it (07_groom_units.md R180). -/
def Mod.constsOf (m : Mod) (set : Nat) : List Nat :=
  let base := (m.plate?.bind (fun p => p.consts[set]?)).getD []
  (List.range 32).map (fun k => kvGetD m.step.consts (set * 32 + k) (base.getD k 0))

/-- What a kernel draws on beside its operands (R83, R84, R87). -/
def Mod.kEnv (m : Mod) (rank : Nat) (k : Kernel) : KEnv :=
  ⟨rank, m.constsOf k.constSet, m.fget Fld.GRM_STEPSZ_SZ, m.fget Fld.GRM_STEP_STEP, m.fget Fld.GRM_BC1_BC,
    m.fget Fld.GRM_BC2_BC, (m.plate?.map (·.seed)).getD 0⟩

/-- A core's SRAM as its kernels read it. -/
def Mod.sramRd (m : Mod) (c : Nat) : SramRead := m.sramByte c

/-- The first element of an ELEMENT kernel, loaded as the kernel starts; none where D0 is 0. -/
def Mod.loadElem (m : Mod) (c : Nat) (k : Kernel) (env : KEnv) (i : Nat) (acc : Kv Nat) : Option Elem :=
  if i < k.d0 then some (elemLoad (m.sramRd c) k env i acc .none).1 else none

/-- A kernel starts on a core (R78, R81, R458), where its stable runs a frame, the core is at rest and neither halted, fenced
nor waiting for SYNC. -/
def Mod.kernelStart (m : Mod) (c : Nat) : Mod :=
  match m.busyStable c with
  | none => m
  | some (s, f) =>
    let x := m.core c
    let i := f.kfirst + x.kpos
    match m.kernel? i with
    | none => m
    | some k =>
      if x.run.isSome || decide (f.kcount ≤ x.kpos) || x.halt.isSome || x.haltReq.isSome || m.coreFencedBit c
          || (k.sync && decide (0 < x.kpos) && !m.syncMet s x.kpos) then m
      else
        let hits := (List.range 8).filter (fun b => !x.skipBp && m.bpMatches b c i s)
        if hits.isEmpty then
          let e := if k.op = .element then m.loadElem c k (m.kEnv (s.rank c) k) 0 [] else none
          let m1 := m.setCore c { x with run := some i, done := false, ticks := 0, skipBp := false, elem := e }
          (m1.fset Fld.CORE_KERNEL_INDEX i c).traceKernel 3 c i s
        else hits.foldl (fun y b => y.bpHit b c i s) m

/-- KERNEL_START (R78). -/
def execKernelStart (core : Nat) (s : State) : Host.Outcome State Fault Refusal := .next (s.unit (fun m => m.kernelStart core))

/-- Has every core of the stable completed the frame's kernels? -/
def Mod.frameFinished (m : Mod) (s : StableRec) (f : FrameNow) : Bool :=
  s.cores.all (fun c => (m.core c).run.isNone && decide (f.kcount ≤ (m.core c).kpos))

/-- A kernel completes on a core (R78): its sequencer moves on, a halt asked for takes effect (R455, R457), and the stable's
frame completes with its last kernel. A kernel still running when its step ended with a fault completes too (02_plate_and_tick.md
R68; 06_backward_pass.md R160). -/
def Mod.kernelComplete (m : Mod) (c : Nat) : Mod :=
  let x := m.core c
  match m.stableOf c, x.run with
  | some s, some i =>
    if !x.done then m
    else
      let y := { x with run := none, done := false, kpos := x.kpos + 1, ticks := 0, elem := none, stepOne := false }
      let m1 := (m.setCore c y).traceKernel 4 c i s
      let m2 := match x.haltReq with
        | some r => (m1.setCore c (y.stop r)).trace 9 c r.code i
        | none => if x.stepOne then (m1.setCore c (y.stop ⟨true, false, false, 0⟩)).trace 9 c 1 i else m1
      match m.busyStable c with
      | some (_, f) => if m2.frameFinished s f then m2.frameDone s else m2
      | none => m2
  | _, _ => m

/-- KERNEL_COMPLETE (R78). -/
def execKernelComplete (core : Nat) (s : State) : Host.Outcome State Fault Refusal :=
  .next (s.unit (fun m => m.kernelComplete core))

/-! ### SRAM errors and fencing -/

/-- The stables of the active plate that hold a core become FENCED (R98). -/
def Mod.fenceStable (m : Mod) (c : Nat) : Mod :=
  match m.stableOf c with
  | some s =>
    match m.stable? s.id with
    | some x => m.setStable s.id { x with st := .fenced, busy := false }
    | none => m
  | none => m

/-- A core is fenced for a cause (R98): 1 self-test at cold reset, 2 requested self-test, 3 second uncorrectable error. A core of
the active plate fences its stable, faults the step and raises CORE_FENCED, in every later step of the plate too (Mod.fencedRaise). -/
def Mod.fenceCore (m : Mod) (c cause : Nat) : Mod :=
  if m.coreFencedBit c then m
  else
    let m1 := (m.fset Fld.CORE_FENCE_FENCED 1 c).fset Fld.CORE_FENCE_CAUSE cause c
    let x := m1.core c
    let m2 := m1.setCore c { CoreRun.rest with kpos := x.kpos, bist := x.bist }
    match m.stableOf c with
    | some s => (Mod.fenceStable { m2 with sched := { m2.sched with fences := m2.sched.fences ++ [(c, cause, s.id)] } } c).raiseStep 0x0406 c cause s.id (m.fget Fld.GRM_STEP_STEP)
    | none => m2

/-- Bank of an SRAM offset (R76). -/
def sramBank (a : Nat) : Nat := (a % 128 / 4 + a / 128) % 32

/-- The SRAM errors a kernel meets in the ranges it reads on core `c` (R97): corrected ones are counted and raised; every
poisoned word read raises SRAM_UE and faults the step, counted where first found; the second one counted fences the core. -/
def Mod.sramErrors (m : Mod) (c i : Nat) (ranges : List (Nat × Nat)) (ecc : Ecc) : Mod :=
  let m1 := (ecc.sramCe.filter (fun a => touchesWord ranges (a / 4))).foldl (fun x a =>
    (x.fsat Fld.CORE_ECC_CE 1 c).raise .corrected 0x0404 c a (sramBank a)) m
  let m2 := (ecc.sramUe.filter (fun a => touchesWord ranges (a / 4))).foldl (fun x a =>
    let w := (c * sramSize + a) / 4
    if x.mem.sram.poison.contains w then x
    else { x with mem := { x.mem with sram := x.mem.sram.mark w } }.fsat Fld.CORE_ECC_UE 1 c) m1
  let lo := c * sramSize / 4
  let hit := m2.mem.sram.poison.filter (fun w => decide (lo ≤ w) && decide (w < lo + sramSize / 4) && touchesWord ranges (w - lo))
  let m3 := hit.foldl (fun x w => x.raiseStep 0x0405 c (4 * (w - lo)) i) m2
  if 2 ≤ m3.fget Fld.CORE_ECC_UE c ∧ m.fget Fld.CORE_ECC_UE c < 2 then m3.fenceCore c 3 else m3

/-- What a kernel's result does to its core: SRAM writes, sticky flags and saturation counts of the two paths (R94). -/
def Mod.kernelResult (m : Mod) (c : Nat) (r : KResult) : Mod :=
  let m1 := m.sramPut c r.writes
  let w := fun (x : Mod) (reg : RegSpec) (f : Fl) =>
    { x with regs := x.regs.write reg c 0 (x.regs.read reg c 0 ||| f.bits) }
  let m2 := w (w m1 Reg.CORE_MFLAGS r.mfl) Reg.CORE_VFLAGS r.vfl
  (m2.fsat Fld.CORE_MSAT_COUNT r.mfl.sat c).fsat Fld.CORE_VSAT_COUNT r.vfl.sat c

/-- The kernel that a core runs and has not yet worked off, with its stable and descriptor index. -/
def Mod.running? (m : Mod) (c : Nat) : Option (StableRec × Nat × Kernel) :=
  match m.stableOf c, (m.core c).run with
  | some s, some i =>
    if (m.core c).done || m.coreFencedBit c then none else (m.kernel? i).map (fun k => (s, i, k))
  | _, _ => none

/-- The work of a kernel is done: what is left is its completion. -/
def Mod.workDone (m : Mod) (c : Nat) : Mod :=
  if m.coreFencedBit c then m else m.setCore c { m.core c with done := true, elem := none }

/-- The whole work of a kernel of opcode `op` on a core, `f` being what it computes once the errors it meets are known. -/
def Mod.kernelOn (m : Mod) (c : Nat) (op : KOp) (ecc : Ecc) (ok : Kernel → Bool)
    (f : Mod → StableRec → Nat → Kernel → Mod) : Mod :=
  match m.running? c with
  | some (s, i, k) =>
    if k.op = op && ok k then
      let ext := if k.op = .attn then k.attnExtent (m.sramRd c) (s.rank c) else k.readExtent (s.rank c)
      let m1 := m.sramErrors c i ext ecc
      (f m1 s i k).workDone c
    else m
  | none => m

/-- A kernel that computes on its own SRAM alone. -/
def Mod.sramKernel (m : Mod) (c : Nat) (op : KOp) (ecc : Ecc) (f : SramRead → Kernel → KEnv → KResult) : Mod :=
  m.kernelOn c op ecc (fun _ => true) (fun x s _ k => x.kernelResult c (f (x.sramRd c) k (x.kEnv (s.rank c) k)))

/-- Bytes of a core's accumulator files: four of 16 KiB (Table 03-1). -/
def accSize : Nat := 0x10000

/-- Store bytes of a core's accumulator files (R74). -/
def Mod.accPut (m : Mod) (c : Nat) (ws : List (Nat × Byte)) : Mod :=
  { m with mem := { m.mem with acc := ws.foldl (fun (s : Memory) w => s.set (c * accSize + w.1) w.2) m.mem.acc } }

/-- What a core's accumulator files hold is forgotten: ATTN accumulates its blocks there, and the manual does not say where. -/
def Mod.accForget (m : Mod) (c : Nat) : Mod :=
  let lo := c * accSize
  { m with mem := { m.mem with acc := { m.mem.acc with
      cells := kvKeep m.mem.acc.cells (fun a => decide (a < lo) || decide (lo + accSize ≤ a)) } } }

/-- A kernel of the matrix path: its result, and the accumulators it leaves in the cells (R74). -/
def Mod.matKernel (m : Mod) (c : Nat) (op : KOp) (ecc : Ecc) (f : SramRead → Kernel → KEnv → MatForm) : Mod :=
  m.kernelOn c op ecc (fun _ => true) (fun x s _ k =>
    let env := x.kEnv (s.rank c) k
    let form := f (x.sramRd c) k env
    (x.kernelResult c (form.run (x.sramRd c) k env)).accPut c (form.accWrites (x.sramRd c) k env))

/-- MATMUL (R85). -/
def execMatmul (core : Nat) (ecc : Ecc) (s : State) : Host.Outcome State Fault Refusal :=
  .next (s.unit (fun m => m.matKernel core .matmul ecc matmulForm))

/-- CONV (R86). -/
def execConv (core : Nat) (ecc : Ecc) (s : State) : Host.Outcome State Fault Refusal :=
  .next (s.unit (fun m => m.matKernel core .conv ecc convForm))

/-- ELEMENT (R87), from its first element: where element instructions have already stored an element, nothing. -/
def execElement (core : Nat) (ecc : Ecc) (s : State) : Host.Outcome State Fault Refusal :=
  .next (s.unit (fun m =>
    if ((m.core core).elem.map (·.index)).getD 0 = 0 then m.sramKernel core .element ecc kElement else m))

/-- REDUCE (R88). -/
def execReduce (core : Nat) (ecc : Ecc) (s : State) : Host.Outcome State Fault Refusal :=
  .next (s.unit (fun m => m.sramKernel core .reduce ecc kReduce))

/-- TRANSPOSE (R93). -/
def execTranspose (core : Nat) (ecc : Ecc) (s : State) : Host.Outcome State Fault Refusal :=
  .next (s.unit (fun m => m.sramKernel core .transpose ecc kTranspose))

/-- TOPK (R91). -/
def execTopk (core : Nat) (ecc : Ecc) (s : State) : Host.Outcome State Fault Refusal :=
  .next (s.unit (fun m => m.sramKernel core .topk ecc kTopk))

/-- SCAN's work: the partial record in SRAM and its merge into the watch record (05_numeric_watch.md R130, R131). -/
def Mod.scanWork (m : Mod) (c : Nat) (s : StableRec) (k : Kernel) (ecc : Ecc) : Mod :=
  let target := ((m.tensor? k.tensor).bind (fun t => Fmt.ofCode t.fmt)).getD .fp32
  let env := m.kEnv (s.rank c) k
  let part := (kScanPart (m.sramRd c) k env target).bytes env.step
  let m1 := m.kernelResult c (kScan (m.sramRd c) k env target)
  (m1.yard .core (m1.get64 Fld.NUM_WATCH_BASE_LO_BASE Fld.NUM_WATCH_BASE_HI_BASE + 64 * k.tensor) 64 true).watchMerge k.tensor
    (WatchRec.ofBytes part) 0 ecc

/-- SCAN (05_numeric_watch.md R130). -/
def execScan (core : Nat) (ecc : Ecc) (s : State) : Host.Outcome State Fault Refusal :=
  .next (s.unit (fun m => m.kernelOn core .scan ecc (fun _ => true) (fun x st _ k => x.scanWork core st k ecc)))

/-! ### Attention -/

/-- What an attention kernel leaves on its core: its writes and flags, ATTN_LENGTH and ATTN_KV_MISMATCH (09_attention.md
R229, R242). -/
def Mod.attnResult (m : Mod) (c i : Nat) (r : AResult) : Mod :=
  let m1 := m.kernelResult c r.res
  let m2 := match r.lenBad with
    | some e => (m1.fset Fld.CORE_VFLAGS_IDX 1 c).raise .contained 0x0408 c i e
    | none => m1
  match r.kvBad with
  | some (slot, why) => m2.raise .contained 0x0409 c i slot why
  | none => m2

/-- An attention kernel of one phase. -/
def Mod.attnKernel (m : Mod) (c phase : Nat) (ecc : Ecc) (f : SramRead → Kernel → KEnv → AResult) : Mod :=
  m.kernelOn c .attn ecc (fun k => k.attnP.phase == phase) (fun x s i k =>
    (x.attnResult c i (f (x.sramRd c) k (x.kEnv (s.rank c) k))).accForget c)

/-- ATTN, phase FORWARD (09_attention.md R218). -/
def execAttnForward (core : Nat) (ecc : Ecc) (s : State) : Host.Outcome State Fault Refusal :=
  .next (s.unit (fun m => m.attnKernel core 0 ecc attnForward))

/-- ATTN, phase MERGE (R225). -/
def execAttnMerge (core : Nat) (ecc : Ecc) (s : State) : Host.Outcome State Fault Refusal :=
  .next (s.unit (fun m => m.attnKernel core 1 ecc attnMerge))

/-- ATTN, phase BACKWARD (R244). -/
def execAttnBackward (core : Nat) (ecc : Ecc) (s : State) : Host.Outcome State Fault Refusal :=
  .next (s.unit (fun m => m.attnKernel core 2 ecc attnBackward))

/-- ATTN, phase KV_GRAD (R245). -/
def execAttnKvGrad (core : Nat) (ecc : Ecc) (s : State) : Host.Outcome State Fault Refusal :=
  .next (s.unit (fun m => m.attnKernel core 3 ecc attnKvGrad))

/-! ### Kernels that reach other spaces -/

/-- The core whose SRAM an operand in SPACE 0 or 2 names. -/
def opdCore (s : StableRec) (c : Nat) (o : Operand) : Nat := if o.space = .peer then s.cores.getD o.peer c else c

/-- Read `n` bytes of an operand at an address of its space, meeting the errors there. -/
def Mod.opdRead (m : Mod) (c i : Nat) (s : StableRec) (o : Operand) (a n : Nat) (ecc : Ecc) : Mod × List (Byte × Bool) :=
  match o.space with
  | .device => (m.yard .core a n false).unitRead true a n ecc
  | .sram | .peer =>
    let p := opdCore s c o
    let m1 := m.sramErrors p i [(a, n)] ecc
    (m1, m1.sramRead p a n)
  | .none => (m, [])

/-- Write bytes to an operand at an address of its space, poisoned ones as 0xFF, their sectors marked in device memory
(R97; 10_memory_tiers.md R252). -/
def Mod.opdWrite (m : Mod) (c : Nat) (s : StableRec) (o : Operand) (a : Nat) (data : List (Byte × Bool)) (ecc : Ecc) : Mod :=
  match o.space with
  | .device => ((m.yard .core a data.length true).mergeDev true a data.length ecc).devWriteP a data
  | .sram | .peer => m.sramWrite (opdCore s c o) a (data.map (fun x => if x.2 then 0xFF else x.1))
  | .none => m

/-- COPY's work, row by row (R93). -/
def Mod.copyWork (m : Mod) (c i : Nat) (s : StableRec) (k : Kernel) (ecc : Ecc) : Mod :=
  let r := s.rank c
  (List.range k.d1).foldl (fun x row =>
    let rd := x.opdRead c i s k.a (k.a.base r + row * k.a.pitch) k.d0 ecc
    rd.1.opdWrite c s k.c (k.c.base r + row * k.c.pitch) rd.2 ecc) m

/-- COPY (R93). -/
def execCopy (core : Nat) (ecc : Ecc) (s : State) : Host.Outcome State Fault Refusal :=
  .next (s.unit (fun m => m.kernelOn core .copy ecc (fun _ => true) (fun x st i k => x.copyWork core i st k ecc)))

/-- A signed 32-bit index and whether its word is poisoned. -/
def indexOf (d : List (Byte × Bool)) : Int × Bool :=
  let n := leNat (rdBytes d)
  (if n < 2 ^ 31 then (n : Int) else (n : Int) - 2 ^ 32, rdPoison d)

/-- The first index out of range: flagged and raised once per kernel (R89). -/
def Mod.indexRange (m : Mod) (c i : Nat) (bad : Option (Nat × Nat)) : Mod :=
  match bad with
  | some (row, ix) => (m.fset Fld.CORE_VFLAGS_IDX 1 c).raise .contained 0x0401 c i row ix
  | none => m

/-- GATHER's work (R89): rows in ascending i; a row of a poisoned index is written as poisoned. -/
def Mod.gatherWork (m : Mod) (c i : Nat) (s : StableRec) (k : Kernel) (ecc : Ecc) : Mod :=
  let r := s.rank c
  let y := (List.range k.d0).foldl (fun (st : Mod × Option (Nat × Nat)) row =>
    let q := st.1.opdRead c i s k.b (k.b.base r + 4 * row) 4 ecc
    let ix := indexOf q.2
    let out := k.c.base r + row * k.c.pitch
    if ix.2 then (q.1.opdWrite c s k.c out (List.replicate k.d1 (0xFF, true)) ecc, st.2)
    else if 0 ≤ ix.1 ∧ ix.1 < k.d2 then
      let rd := q.1.opdRead c i s k.a (k.a.base r + ix.1.toNat * k.a.pitch) k.d1 ecc
      (rd.1.opdWrite c s k.c out rd.2 ecc, st.2)
    else (q.1.opdWrite c s k.c out (List.replicate k.d1 (0x00, false)) ecc, st.2 <|> some (row, leNat (rdBytes q.2)))) (m, none)
  y.1.indexRange c i y.2

/-- GATHER (R89). -/
def execGather (core : Nat) (ecc : Ecc) (s : State) : Host.Outcome State Fault Refusal :=
  .next (s.unit (fun m => m.kernelOn core .gather ecc (fun _ => true) (fun x st i k => x.gatherWork core i st k ecc)))

/-- One element of SCATTER with MODE ADD (R89): the bytes written, whether they stand for poisoned device data, and flags. An element that
depends on poisoned device memory is 0xFF bytes (10_memory_tiers.md R252), one that depends on a poisoned SRAM word NaN or 0 (R97). -/
def scatterAdd (k : Kernel) (env : KEnv) (j : Nat) (src dst : Nat × Bool) : List (Byte × Bool) × Fl :=
  let f := k.c.format
  let sz := f.bits / 8
  let put := fun (c : Nat) => (leBytes sz c).map (fun b => (b, false))
  if (src.2 && k.a.space == .device) || (dst.2 && k.c.space == .device) then (List.replicate sz (0xFF, true), .none)
  else if src.2 || dst.2 then (put f.poisonCode, .none)
  else
    let a := k.a.format.decodeFtz k.ftz src.1
    let b := f.decodeFtz k.ftz dst.1
    if f.isFloat then
      let t := r32 k.ftz (b.add a)
      let q := k.roundOut env k.c j (fp32 t.1)
      (put q.code, t.2.join q.fl)
    else
      let x := Fmt.int32.round .ieee k.ftz .nearest a
      let t := accInt b.toInt (Fmt.int32.decodeInt x.code)
      let q := k.roundOut env k.c j (Val.ofInt t.1)
      (put q.code, x.fl.join (t.2.join q.fl))

/-- SCATTER's work (R89, R90): rows in ascending i; a row of a poisoned index is written nowhere. -/
def Mod.scatterWork (m : Mod) (c i : Nat) (s : StableRec) (k : Kernel) (ecc : Ecc) : Mod :=
  let r := s.rank c
  let env := m.kEnv r k
  let isAdd := k.p8 0 == 1
  let sz := k.c.format.bits / 8
  let n := if sz = 0 then 0 else k.d1 / sz
  let y := (List.range k.d0).foldl (fun (st : Mod × Option (Nat × Nat) × Fl) row =>
    let q := st.1.opdRead c i s k.b (k.b.base r + 4 * row) 4 ecc
    let ix := indexOf q.2
    if ix.2 then (q.1, st.2)
    else if 0 ≤ ix.1 ∧ ix.1 < k.d2 then
      let src := q.1.opdRead c i s k.a (k.a.base r + row * k.a.pitch) k.d1 ecc
      let dst := k.c.base r + ix.1.toNat * k.c.pitch
      if isAdd then
        let old := src.1.opdRead c i s k.c dst k.d1 ecc
        let at_ := fun (d : List (Byte × Bool)) (f : Fmt) (e : Nat) =>
          let b := (d.drop (e * (f.bits / 8))).take (f.bits / 8)
          (leNat (rdBytes b), rdPoison b)
        let xs := (List.range n).map (fun e => scatterAdd k env (row * n + e) (at_ src.2 k.a.format e) (at_ old.2 k.c.format e))
        (old.1.opdWrite c s k.c dst (xs.flatMap (·.1)) ecc, st.2.1, xs.foldl (fun f x => f.join x.2) st.2.2)
      else (src.1.opdWrite c s k.c dst src.2 ecc, st.2)
    else (q.1, st.2.1 <|> some (row, leNat (rdBytes q.2)), st.2.2)) (m, none, .none)
  (y.1.kernelResult c ⟨[], .none, y.2.2⟩).indexRange c i y.2.1

/-- SCATTER (R89, R90). -/
def execScatter (core : Nat) (ecc : Ecc) (s : State) : Host.Outcome State Fault Refusal :=
  .next (s.unit (fun m => m.kernelOn core .scatter ecc (fun _ => true) (fun x st i k => x.scatterWork core i st k ecc)))

/-! ### Watchdog, stable reset, self-test -/

/-- The stable of a core is reset (R96); `how` is 0 for the register, 1 for the watchdog. A self-test of one of its cores runs on (R99). -/
def Mod.stableReset (m : Mod) (c how : Nat) : Mod :=
  match m.stableOf c with
  | none => m
  | some s =>
    let m1 := s.cores.foldl (fun x c =>
      let lo := c * sramSize
      let sr := { x.mem.sram with cells := kvKeep x.mem.sram.cells (fun a => decide (a < lo) || decide (lo + sramSize ≤ a)),
                                  poison := x.mem.sram.poison.filter (fun w => decide (4 * w < lo) || decide (lo + sramSize ≤ 4 * w)) }
      let y := { x with mem := { x.mem with sram := sr }, cores := kvSet x.cores c { CoreRun.rest with bist := (x.core c).bist } }
      { y with regs := y.regs.defaultInst [Reg.CORE_STATUS, Reg.CORE_KERNEL, Reg.CORE_UTIL] c }) m
    let m2 := match m1.stable? s.id with
      | some x => if x.st == StableState.fenced then m1 else m1.setStable s.id { x with st := .fin, busy := false }
      | none => m1
    m2.raiseDual true .corrected 0x0403 c s.id how (m.fget Fld.GRM_STEP_STEP)

/-- STABLE_RESET: CORE_CTRL.STABLE_RESET of any core of the stable (R96). -/
def execStableReset (core : Nat) (s : State) : Host.Outcome State Fault Refusal :=
  .next (s.reg (Reg.CORE_CTRL.addr core 0) (fun m => m.stableReset core 0))

/-- KERNEL_HANG: a kernel that has run for more than CORE_WDOG.TICKS boundaries (R95), while no core of the module is halted
(18_debug.md R456). -/
def execKernelHang (core : Nat) (s : State) : Host.Outcome State Fault Refusal :=
  .next (s.unit (fun m =>
    let x := m.core core
    let lim := m.fget Fld.CORE_WDOG_TICKS core
    match x.run, m.stableOf core with
    | some i, some st =>
      if lim ≠ 0 ∧ lim < x.ticks ∧ !m.anyHalted then
        (m.raiseStep 0x0402 core i st.id x.ticks).stableReset core 1
      else m
    | _, _ => m))

/-- The self-test of a core starts (R99): of a fenced core or one in no stable of the active plate. Its SRAM content is
destroyed. -/
def Mod.bistStart (m : Mod) (c : Nat) : Mod :=
  if (m.coreFencedBit c || (m.stableOf c).isNone) && !(m.core c).bist then
    let m1 := m.setCore c { m.core c with bist := true }
    let lo := c * sramSize
    let sr := { m1.mem.sram with cells := kvKeep m1.mem.sram.cells (fun a => decide (a < lo) || decide (lo + sramSize ≤ a)),
                                 poison := m1.mem.sram.poison.filter (fun w => decide (4 * w < lo) || decide (lo + sramSize ≤ 4 * w)) }
    { m1 with mem := { m1.mem with sram := sr } }.fset Fld.CORE_FENCE_BIST 1 c
  else m

/-- CORE_BIST (R99). -/
def execCoreBist (core : Nat) (s : State) : Host.Outcome State Fault Refusal :=
  .next (s.reg (Reg.CORE_CTRL.addr core 0) (fun m => m.bistStart core))

/-- BIST_COMPLETE: a pass clears FENCED, a failure keeps or sets it and raises BIST_FAIL with the part that failed (R99). -/
def execBistComplete (core : Nat) (fail : Option Nat) (s : State) : Host.Outcome State Fault Refusal :=
  .next (s.unit (fun m =>
    if !(m.core core).bist then m
    else
      let m1 := m.setCore core { m.core core with bist := false }
      match fail with
      | none => ((m1.fset Fld.CORE_FENCE_BIST 2 core).fset Fld.CORE_FENCE_FENCED 0 core).fset Fld.CORE_FENCE_CAUSE 0 core
      | some part =>
        let m2 := m1.fset Fld.CORE_FENCE_BIST 3 core
        let m3 := if m2.coreFencedBit core then m2 else m2.fenceCore core 2
        m3.raise .corrected 0x0407 core part))

/-- CORE_CLR_SAT: CORE_CTRL.CLR_SAT clears the two saturation counts (R94). -/
def execCoreClrSat (core : Nat) (s : State) : Host.Outcome State Fault Refusal :=
  .next (s.reg (Reg.CORE_CTRL.addr core 0) (fun m => (m.fset Fld.CORE_MSAT_COUNT 0 core).fset Fld.CORE_VSAT_COUNT 0 core))

end Sys2Proof.Machine
end

