-- ==== Sys2Proof/Machine/Groom.lean ====
section
/-! DEFINITION. The groom units (07_groom_units.md R162 to R186; 06_backward_pass.md R145, R146): passes over a binding's
elements, slice by slice, the held path, rows, reconcile copies, preconditioner checks, and the passes of deferred bindings
as far as they are passes. -/

namespace Sys2Proof.Machine

/-! ### Bindings and slices -/

/-- A stream binding of the active plate, by its number. -/
def Mod.binding? (m : Mod) (b : Nat) : Option Binding := m.plate?.bind (fun p => p.groom.bindings[b]?)

/-- The bindings of the active plate with their numbers. -/
def Mod.bindings (m : Mod) : List (Nat × Binding) :=
  let bs := (m.plate?.map (·.groom.bindings)).getD []
  (List.range bs.length).zip bs

/-- LAG of a binding's tensor (04_number_formats.md R126). -/
def Mod.lagOf (m : Mod) (g : Binding) : Nat := ((m.tensor? g.tensor).map (·.lag)).getD 0

/-- The operations of the active plate with their indices. -/
def Mod.collOps (m : Mod) : List (Nat × CollOp) :=
  let os := (m.plate?.map (·.colls.ops)).getD []
  (List.range os.length).zip os

/-- The member at which slice `s` of an operation is summed (13_collectives.md R343). -/
def CollOp.home (o : CollOp) (s : Nat) : Nat :=
  if o.pattern = .tree then 0 else if o.members.length = 0 then 0
  else if o.kind = .rows then o.homeBase % o.members.length else (o.homeBase + s) % o.members.length

/-- Is slice `s` of the operation delivered to this module (R345, R352)? -/
def CollOp.delivers (o : CollOp) (s : Nat) : Bool := !o.homeOnly || o.home s == o.self

/-- The slices of a binding in the order of the collective schedule (R174): operation and slice index. -/
def Mod.slicesOf (m : Mod) (b : Nat) : List (Nat × Nat) :=
  (m.collOps.filter (fun e => e.2.binding == some b)).flatMap (fun e =>
    ((List.range e.2.slices.length).filter e.2.delivers).map (fun s => (e.1, s)))

/-- A groom unit's state. -/
def Mod.groomUnit (m : Mod) (u : Nat) : GroomRun := kvGetD m.groom.units u .rest

/-- Replace a groom unit's state. -/
def Mod.setGroom (m : Mod) (u : Nat) (x : GroomRun) : Mod :=
  { m with groom := { m.groom with units := kvSet m.groom.units u x } }

/-! ### State planes -/

/-- Bytes of a pool page. -/
def pageSize : Nat := 65536

/-- The POOL region. -/
def Mod.poolRegion (m : Mod) : Option Region := m.regions.find? (fun r => r.kind == .pool)

/-- Device address of a pool page. -/
def Mod.pageAddr (m : Mod) (p : Nat) : Nat := (m.poolRegion.map (·.base)).getD 0 + p * pageSize

/-- The pinned DEFERRED object in HBM through which a groom unit reaches a byte of loft state (10_memory_tiers.md R271). -/
def Mod.chunkOf (m : Mod) (u a : Nat) : Option (Nat × PoolObj) :=
  m.pool.objs.find? (fun e => e.2.unit == some u && e.2.st == .hbm && decide (0 < e.2.pins) && decide (e.1 ≤ a)
    && decide (a < e.1 + e.2.size))

/-- Where a groom unit finds a byte of state: state in HBM at its own address, state in the loft in the HBM copy of its object. -/
def Mod.stateAddr (m : Mod) (u a : Nat) : Nat :=
  match m.chunkOf u a with
  | some (home, o) => m.pageAddr (o.pages.getD ((a - home) / pageSize) 0) + (a - home) % pageSize
  | none => a

/-- Can the unit reach `n` bytes of state now: they lie in HBM, or in a pinned object each? -/
def Mod.stateReady (m : Mod) (u a n : Nat) : Bool :=
  decide (a < loftBase) || (List.range n).all (fun k => (m.chunkOf u (a + k)).isSome)

/-- `n` bytes of state as a groom unit reads them. -/
def Mod.stateRead (m : Mod) (u a n : Nat) : List (Byte × Bool) :=
  if a < loftBase then m.devRead a n
  else (List.range n).map (fun k => m.byteAt (m.locate (m.stateAddr u (a + k))))

/-- State as a groom unit writes it; an object written so is written back (10_memory_tiers.md R271). -/
def Mod.stateWrite (m : Mod) (u a : Nat) (data : List (Byte × Bool)) : Mod :=
  if a < loftBase then m.devWriteP a data
  else
    let m1 := ((List.range data.length).zip data).foldl (fun (x : Mod) e => x.devWriteP (x.stateAddr u (a + e.1)) [e.2]) m
    match m.chunkOf u a with
    | some (home, o) => { m1 with pool := { m1.pool with objs := kvSet m1.pool.objs home { o with dirty := true } } }
    | none => m1

/-- A write that will cover sectors wholly takes their poison marks off (10_memory_tiers.md R251): the output runs of state in HBM
that a command begins to write. -/
def Mod.openRuns (m : Mod) (runs : List (Nat × Nat)) : Mod :=
  runs.foldl (fun (x : Mod) r => (fullSectors r.1 r.2).foldl (fun (y : Mod) s => y.unmarkLoc (y.locate s)) x) m

/-! ### One element -/

/-- What the elements of a pass share (R175, R181, R182): step whose gradient is applied, step size, bias factors, clip factor,
whether values enter the global norm. -/
structure PassEnv where
  step : Nat
  k0 : Nat
  bc1 : Nat
  bc2 : Nat
  clip : Nat
  norm : Bool
deriving DecidableEq, Repr

/-- The environment of a pass of a LAG 0 binding in the current attempt. -/
def Mod.passEnv (m : Mod) : PassEnv :=
  ⟨m.fget Fld.GRM_STEP_STEP, m.fget Fld.GRM_STEPSZ_SZ, m.fget Fld.GRM_BC1_BC, m.fget Fld.GRM_BC2_BC, m.step.clip, true⟩

/-- Where an element of a plane lies: byte address and, for 4-bit formats, which half. -/
def planeAt (e : StreamEntry) (first i : Nat) : Nat × Bool :=
  let f := (Fmt.ofCode e.fmt).getD .fp32
  (e.addr + (i - first) * f.bits / 8, (i - first) % 2 == 1)

/-- The format of a stream entry. -/
def StreamEntry.format (e : StreamEntry) : Fmt := (Fmt.ofCode e.fmt).getD .fp32

/-- Bytes an element of a plane touches. -/
def StreamEntry.elemBytes (e : StreamEntry) : Nat := (e.format.bits + 7) / 8

/-- The code of a plane's element, with its poison, as unit `u` reads it. -/
def Mod.planeCode (m : Mod) (u : Nat) (e : StreamEntry) (first i : Nat) : Nat × Bool :=
  let p := planeAt e first i
  let d := m.stateRead u p.1 e.elemBytes
  let n := leNat (rdBytes d)
  (if e.format.bits = 4 then (if p.2 then n / 16 else n % 16) else n, rdPoison d)

/-- Where a pass writes what a plane's element at a live address becomes: the shadow view, or the place itself in a region that
is not banked (R171; 10_memory_tiers.md R272). -/
def Mod.outAt (m : Mod) (a : Nat) : Nat := (m.shadowOf a).getD a

/-- Store an element's code in an output plane of a binding, poisoned if any input was (R173). The unused bits beside the last
element of an odd run of 4-bit elements are written as 0 (04_number_formats.md R101). -/
def Mod.planePut (m : Mod) (u : Nat) (e : StreamEntry) (g : Binding) (i code : Nat) (poisoned : Bool) : Mod :=
  let p := planeAt e g.first i
  let a := m.outAt p.1
  let bytes : List Byte := if e.format.bits = 4 then
      let old := leNat (rdBytes (m.stateRead u a 1))
      [BitVec.ofNat 8 (if p.2 then old % 16 + 16 * (code % 16)
        else if i + 1 = g.first + g.count then code % 16 else old / 16 * 16 + code % 16)]
    else leBytes e.elemBytes code
  m.stateWrite u a (bytes.map (fun b => (b, poisoned)))

/-- PENDING_SCALE of a tensor (05_numeric_watch.md R135); a plate without a watch table leaves it at INIT_SCALE (R128). -/
def Mod.pendingScale (m : Mod) (t : Nat) : Nat :=
  match m.regions.find? (fun r => r.kind == .watch) with
  | some r => m.devNat (r.base + 64 * t + 0x34) 4
  | none => ((m.tensor? t).map (·.initScale)).getD 0x3F800000

/-- The working-copy code of a value (R172): × PENDING_SCALE, rounded once under the tensor's MODE; with FTZ a value subnormal in
TAIL48 reads as zero (04_number_formats.md R115). -/
def Mod.workCopy (m : Mod) (t : TensorRec) (step i : Nat) (v : Val) : Coded :=
  let f := (Fmt.ofCode t.fmt).getD .fp32
  let x := if t.ftz then v.flushIn (Fmt.spec .tail48) else v
  let p := x.mul (fp32 (m.pendingScale t.id))
  let rnd := if t.srnd then Rnd.srnd (srndBits ((m.plate?.map (·.seed)).getD 0) t.id i step) else .nearest
  let r := f.round (f.ovfOf t.ovfMode) t.ftz rnd p.1
  ⟨r.code, (Fl.invalid p.2).join r.fl⟩

/-- A default tensor record, for a binding whose tensor the plate does not declare (proof refuses those). -/
def TensorRec.none : TensorRec := ⟨0, 0, false, 0, false, true, 0, 0, 0x3F800000, 0x3F800000⟩

/-- Address of the mask byte of an element (R145). -/
def maskAt (g : Binding) (i : Nat) : Nat := g.mask + (i - g.first) / 8

/-- A pass reads each 64-byte sector of its mask once (R147): the sector of an element is kept from its first use on. -/
def Mod.maskLoad (m : Mod) (u : Nat) (g : Binding) (i : Nat) (ps : GPass) : GPass :=
  let s := maskAt g i / 64 * 64
  if g.masked && (kvGet? ps.masks s).isNone then { ps with masks := kvSet ps.masks s (m.stateRead u s 64) } else ps

/-- Is an element trained (R145), and was its mask sector poisoned? -/
def GPass.trained (ps : GPass) (g : Binding) (i : Nat) : Bool × Bool :=
  if g.masked then
    let b := (kvGetD ps.masks (maskAt g i / 64 * 64) []).getD (maskAt g i % 64) (0, false)
    (b.1.toNat.testBit ((i - g.first) % 8), b.2)
  else (true, false)

/-- Add an element to the watch counts (R134, R146): its working-copy code, clamps, new master. -/
def watchAdd (w : List Nat) (f : Fmt) (code sat : Nat) (master : Val) : List Nat :=
  [w.getD 0 0 + 1, w.getD 1 0 + (f.decode code).isZero.toNat, w.getD 2 0 + sat, w.getD 3 0 + (!master.isFin).toNat,
    if master.isFin then Nat.max (w.getD 4 0) (roundUpFp32 master.abs) else w.getD 4 0]

/-- Join flags into a groom unit's sticky registers. -/
def Mod.groomFlags (m : Mod) (u : Nat) (f : Fl) : Mod :=
  let w := m.regs.read Reg.GRM_FLAGS u 0
  ({ m with regs := m.regs.write Reg.GRM_FLAGS u 0 (w ||| f.bits) }).fsat Fld.GRM_SAT_COUNT f.sat u

/-- An accumulator of a lane plus an exact square, rounded once to FP64. -/
def addSquare (acc : Kv Nat) (key : Nat) (v : Val) : Kv Nat × Fl :=
  let s := v.fma v (fp64 (kvGetD acc key 0))
  let q := roundFp64 s.1
  (kvSet acc key q.code, (Fl.invalid s.2).join q.fl)

/-- A held element (R146, R173): matching planes copied, the working copy re-derived, the master's square added to A0, the
watch counts. `j` is its position, on lane j mod 512; `mp` says that its mask byte was poisoned. An uncorrectable error in what is
read poisons every output of the element (R173). -/
def Mod.heldElem (m : Mod) (u : Nat) (g : Binding) (env : PassEnv) (i j : Nat) (mp : Bool) (ps : GPass) : Mod × GPass :=
  let t := (m.tensor? g.tensor).getD .none
  let mas := match g.ins.find? (·.master) with
    | some e => m.planeCode u e g.first i
    | none => (0, false)
  let mv := Fmt.tail48.decode mas.1
  let wc := m.workCopy t env.step i mv
  let from_ := fun (e : StreamEntry) => (g.ins.find? (fun x => x.src == .plane && x.addr == e.addr)).map (fun x => m.planeCode u x g.first i)
  let outs := g.outs.filter (fun e => e.src == .plane)
  let bad := mp || outs.any (fun e => if e.wc then mas.2 else ((from_ e).getD (0, false)).2)
  let m1 := outs.foldl (fun (y : Mod) e =>
    y.planePut u e g i (if bad then e.format.poisonCode else if e.wc then wc.code else ((from_ e).getD (0, false)).1) bad) m
  let a0 := addSquare ps.acc (j % 512 * 4) mv
  let ps1 := { ps with poisoned := ps.poisoned || bad }
  if bad then (m1, ps1)
  else
    (m1.groomFlags u (wc.fl.join a0.2),
      { ps1 with elems := ps.elems + 1, acc := a0.1, watch := if g.row then ps.watch else watchAdd ps.watch ((Fmt.ofCode t.fmt).getD .fp32) wc.code wc.fl.sat mv })

/-- The slice value as the program sees it: c × g, rounded once to FP32 (R175), with the flags of that rounding. -/
def clipped (clip : Nat) (v : Val) : Val × Fl :=
  if clip = 0x3F800000 then (v, .none)
  else
    let p := (fp32 clip).mul v
    let r := roundFp32 false p.1
    (fp32 r.code, (Fl.invalid p.2).join r.fl)

/-- Load a trained element before its program runs (R164, R175, R183): the element, and whether an input is poisoned. `rowstep` is
the row's count after this update, with its poison. -/
def Mod.trainLoad (m : Mod) (u : Nat) (g : Binding) (env : PassEnv) (i j : Nat) (v : Nat × Bool) (rowstep : Nat × Bool)
    (ps : GPass) : Elem × Bool :=
  let c := clipped env.clip (fp32 v.1)
  let ins := g.ins.map (fun e => match e.src with
    | .none => (none, false)
    | .plane => let c := m.planeCode u e g.first i; (some (e.format.decode c.1), c.2)
    | .slice => (some c.1, v.2))
  let hdr := (m.plate?.map (fun p => (p.groom.b1, p.groom.b2, p.seed))).getD (0, 0, 0)
  let bc : Coded × Coded := if g.row then (rowBias hdr.1 rowstep.1, rowBias hdr.2.1 rowstep.1) else (⟨env.bc1, .none⟩, ⟨env.bc2, .none⟩)
  (Elem.fresh (ins.map (·.1)) (m.constsOf g.constSet) env.k0 i env.step (if g.row then rowstep.1 else 0) bc.1.code bc.2.code (j % 512)
    hdr.2.2 g.tensor i ps.acc (c.2.join (bc.1.fl.join bc.2.fl)), rowstep.2 || ins.any (·.2))

/-- Store a trained element whose program has run: outputs to the shadow view, accumulators, watch counts, the global-norm
partial (R171, R172, R175). -/
def Mod.trainStore (m : Mod) (u : Nat) (g : Binding) (env : PassEnv) (i j : Nat) (v : Nat × Bool) (x : Elem) (bad : Bool)
    (ps : GPass) : Mod × GPass :=
  let t := (m.tensor? g.tensor).getD .none
  let outs := (g.outs.zip x.outs).filter (fun e => e.1.src == .plane)
  let codes := outs.map (fun e =>
    let val := e.2.getD Val.zero
    if e.1.wc then (e.1, m.workCopy t env.step i val)
    else (e.1, e.1.format.round e.1.format.defaultOvf false .nearest val))
  let m1 := codes.foldl (fun (y : Mod) e => y.planePut u e.1 g i (if bad then e.1.format.poisonCode else e.2.code) bad) m
  if bad then (m1, { ps with poisoned := true })
  else
    let fl := codes.foldl (fun f e => f.join e.2.fl) x.fl
    let mas := match codes.find? (fun e => e.1.master) with | some e => Fmt.tail48.decode e.2.code | none => Val.zero
    let wc := match codes.find? (fun e => e.1.wc) with | some e => e.2 | none => ⟨0, .none⟩
    let gl := if env.norm then addSquare ps.gl (j % 512) (fp32 v.1) else (ps.gl, .none)
    (m1.groomFlags u (fl.join gl.2),
      { ps with elems := ps.elems + 1, acc := x.acc, gl := gl.1,
                watch := if g.row then ps.watch else watchAdd ps.watch ((Fmt.ofCode t.fmt).getD .fp32) wc.code wc.fl.sat mas })

/-- One element of a slice, at position `j`: held where its mask bit says so, else trained (R145, R174). -/
def Mod.passElem (m : Mod) (u : Nat) (g : Binding) (env : PassEnv) (i j : Nat) (v : Nat × Bool) (rowstep : Nat × Bool)
    (ps : GPass) : Mod × GPass :=
  let q := m.maskLoad u g i ps
  let tr := q.trained g i
  if !tr.1 then m.heldElem u g env i j tr.2 q
  else
    let l := m.trainLoad u g env i j v rowstep q
    m.trainStore u g env i j v (l.1.run g.prog) (l.2 || tr.2) q

/-! ### Rows -/

/-- Address of the count of a row (R183): 8 bytes per row of the binding. -/
def rowCountAt (g : Binding) (r : Nat) : Nat := g.rows + 8 * (r - g.first / max g.rowLen 1)

/-- The element index at position `j` of a slice, with the row count to write when it opens a row of a ROW binding. -/
def elemIndex (g : Binding) (e : SliceEnt) (sl : GSlice) (j : Nat) : Nat :=
  match sl.rows with
  | some rs => rs.getD (j / max g.rowLen 1) 0 * g.rowLen + j % max g.rowLen 1
  | none => (e.a + j / max e.d 1) * g.rowLen + e.b + j % max e.d 1

/-- A row arrives (R183): its count is read from the live view and n + 1 written to the shadow view; the row is touched. A count
that reads as poisoned poisons what is written (R173). -/
def Mod.openRow (m : Mod) (u b : Nat) (g : Binding) (r : Nat) : Mod :=
  let a := rowCountAt g r
  let d := m.devRead a 4
  let m1 := m.devWriteP (m.outAt a) ((leBytes 8 ((leNat (rdBytes d) + 1) % 2 ^ 32)).map (fun x => (x, rdPoison d)))
  let x := m1.groomUnit u
  m1.setGroom u { x with touched := kvSet x.touched b (setAdd (kvGetD x.touched b []) r) }

/-- ROWSTEP of the row an element lies in: the count after this update, and whether the count reads as poisoned. -/
def Mod.rowStep (m : Mod) (g : Binding) (i : Nat) : Nat × Bool :=
  if g.row then
    let d := m.devRead (rowCountAt g (i / max g.rowLen 1)) 4
    ((leNat (rdBytes d) + 1) % 2 ^ 32, rdPoison d)
  else (0, false)

/-- The device ranges a pass reads for an element, in the live view. -/
def elemRanges (g : Binding) (i : Nat) : List (Nat × Nat) :=
  (g.ins.filter (fun e => e.src == .plane)).map (fun e => ((planeAt e g.first i).1, 8))
    ++ (if g.masked then [(maskAt g i, 1)] else []) ++ (if g.row then [(rowCountAt g (i / max g.rowLen 1), 8)] else [])

/-- The runs of adjacent elements of a slice: first element and length. -/
def elemRuns (g : Binding) (e : SliceEnt) (sl : GSlice) : List (Nat × Nat) :=
  let n := sl.vals.length
  match sl.rows with
  | some rs => (List.range (n / max g.rowLen 1)).map (fun k => (rs.getD k 0 * g.rowLen, g.rowLen))
  | none =>
    if e.d = g.rowLen then [(elemIndex g e sl 0, n)]
    else (List.range (n / max e.d 1)).map (fun k => (elemIndex g e sl (k * e.d), e.d))

/-- The device ranges that outputs of runs of elements are written to. -/
def Mod.outRuns (m : Mod) (g : Binding) (runs : List (Nat × Nat)) : List (Nat × Nat) :=
  (g.outs.filter (fun e => e.src == .plane)).flatMap (fun e => runs.map (fun r =>
    (m.outAt (planeAt e g.first r.1).1, (e.format.bits * r.2 + 7) / 8)))

/-- The sectors that writing ranges makes the controller read (10_memory_tiers.md R251). A unit writes each run of adjacent
elements of an output plane as one (DESIGN CHOICE). -/
def mergeReads (ranges : List (Nat × Nat)) : List (Nat × Nat) := ranges.flatMap (fun r => partialRanges r.1 r.2)

/-- A pass stopped on poison faults the step (R173; 10_memory_tiers.md R252). -/
def Mod.passPoison (m : Mod) (was now : Bool) : Mod := if now && !was && m.stepOpen then m.fault 0x0902 else m

/-! ### Passes -/

/-- May the groom units work: frames run, the step has no fault, no device halt (R160; 18_debug.md R455)? -/
def Mod.groomRuns (m : Mod) : Bool := m.framesRun && m.step.cause.isNone && !m.unitsHalted

/-- GROOM_PASS_START (R174, R184): the pass of a LAG 0 binding begins once its WAIT barrier is complete. -/
def Mod.passStart (m : Mod) (b : Nat) : Mod :=
  match m.binding? b with
  | none => m
  | some g =>
    let x := m.groomUnit g.unit
    if m.groomRuns && m.lagOf g == 0 && x.pass.isNone && !m.step.passesDone.contains b && m.waitDone g.wait
        && !m.groom.reconcile.contains b then
      let m1 := m.setGroom g.unit { x with pass := some (.start b none), elem := none }
      { m1 with step := { m1.step with passesRun := setAdd m1.step.passesRun b } }
    else m

/-- GROOM_PASS_START. -/
def execGroomPassStart (binding : Nat) (s : State) : Host.Outcome State Fault Refusal :=
  .next (s.unit (fun m => m.passStart binding))

/-- The pass in progress on a unit with its binding and the next slice of the schedule that has arrived. -/
def Mod.nextSlice (m : Mod) (u : Nat) : Option (GPass × Binding × SliceEnt × GSlice) :=
  let x := m.groomUnit u
  match x.pass with
  | none => none
  | some ps =>
    match m.binding? ps.binding, (m.slicesOf ps.binding)[ps.taken]? with
    | some g, some (o, s) =>
      match if ps.applies.isNone then x.buffer.find? (fun y => y.op == o && y.slice == s) else none,
          (m.plate?.bind (fun p => p.colls.ops[o]?)).bind (fun op => op.slices[s]?) with
      | some sl, some e => some (ps, g, e, sl)
      | _, _ => none
    | _, _ => none

/-- A slice has been processed: it leaves the buffer. -/
def Mod.sliceTaken (m : Mod) (u : Nat) (ps : GPass) (sl : GSlice) : Mod :=
  let x := m.groomUnit u
  m.setGroom u { x with pass := some { ps with taken := ps.taken + 1, pos := 0 }, elem := none,
                        buffer := x.buffer.filter (fun y => !(y.op == sl.op && y.slice == sl.slice)),
                        count := x.count + sl.vals.length }

/-- A slice's first element: the sectors its outputs cover wholly will be written. -/
def Mod.sliceOpen (m : Mod) (ps : GPass) (g : Binding) (e : SliceEnt) (sl : GSlice) : Mod :=
  if ps.pos = 0 then m.openRuns (m.outRuns g (elemRuns g e sl)) else m

/-- Process the elements of a slice from position `ps.pos` on (R174, R175). -/
def Mod.sliceWork (m : Mod) (u : Nat) (ps : GPass) (g : Binding) (e : SliceEnt) (sl : GSlice) (env : PassEnv) : Mod × GPass :=
  (List.range (sl.vals.length - ps.pos)).foldl (fun (st : Mod × GPass) k =>
    let j := ps.pos + k
    let i := elemIndex g e sl j
    let m1 := if g.row && j % max g.rowLen 1 == 0 then st.1.openRow u ps.binding g (i / max g.rowLen 1) else st.1
    m1.passElem u g env i j (sl.vals.getD j (0, false)) (m1.rowStep g i) st.2) (m.sliceOpen ps g e sl, ps)

/-- GROOM_SLICE_PROCESS: the unit takes the next slice of its pass in schedule order (R174, R175). -/
def Mod.sliceProcess (m : Mod) (u : Nat) (ecc : Ecc) : Mod :=
  match m.groomRuns, m.nextSlice u with
  | true, some (ps, g, e, sl) =>
    let reads := (List.range sl.vals.length).flatMap (fun j => elemRanges g (elemIndex g e sl j))
    let m1 := m.eccDev true (reads ++ mergeReads (m.outRuns g (elemRuns g e sl))) ecc
    let y := m1.sliceWork u ps g e sl m1.passEnv
    (y.1.passPoison ps.poisoned y.2.poisoned).sliceTaken u y.2 sl
  | _, _ => m

/-- Combine the lanes of an accumulator in ascending order in FP64 (R176). -/
def combine512 (acc : Kv Nat) (stride k : Nat) : Nat × Fl :=
  (List.range 512).foldl (fun (r : Nat × Fl) lane =>
    let s := (fp64 r.1).add (fp64 (kvGetD acc (lane * stride + k) 0))
    let q := roundFp64 s.1
    (q.code, r.2.join ((Fl.invalid s.2).join q.fl))) (0, .none)

/-- The runs of a binding that no slice covers (R174). -/
def Mod.passRuns (m : Mod) (b : Nat) (g : Binding) : List (Nat × Nat) := heldRuns ((m.plate?.map (·.colls.ops)).getD []) b g

/-- The elements of runs, in order. -/
def runElems (runs : List (Nat × Nat)) : List (Nat × Nat) := runs.flatMap (fun r => (List.range r.2).map (fun j => (r.1 + j, j)))

/-- The end of a pass whose elements have all been processed (R176): accumulators combined, the result left to the verdict. -/
def Mod.passEnd (m : Mod) (u : Nat) (ps : GPass) (step : Nat) : Mod :=
  let sums := (List.range 4).map (combine512 ps.acc 4)
  let gl := combine512 ps.gl 1 0
  let m1 := m.groomFlags u (sums.foldl (fun f s => f.join s.2) gl.2)
  let x := m1.groomUnit u
  m1.setGroom u { x with pass := none, elem := none,
                         results := kvSet x.results ps.binding ⟨sums.map (·.1), gl.1, ps.watch, step, ps.applies.isSome, ps.elems⟩ }

/-- The held path over the runs no slice covers, and the end of a pass (R173, R174, R176). -/
def Mod.passFinish (m : Mod) (u : Nat) (ps : GPass) (g : Binding) (env : PassEnv) : Mod :=
  let runs := m.passRuns ps.binding g
  let y := (runElems runs).foldl (fun (z : Mod × GPass) r => z.1.heldElem u g env r.1 r.2 false z.2)
    (m.openRuns (m.outRuns g runs), ps)
  let m1 := y.1.passPoison ps.poisoned y.2.poisoned
  let x := m1.groomUnit u
  (m1.setGroom u { x with count := x.count + (runs.map (·.2)).sum }).passEnd u y.2 env.step

/-- GROOM_PASS_COMPLETE: after the last slice the held runs are processed, accumulators combined and SIGNAL given. -/
def Mod.passComplete (m : Mod) (u : Nat) (ecc : Ecc) : Mod :=
  match m.groomRuns, (m.groomUnit u).pass with
  | true, some ps =>
    match m.binding? ps.binding with
    | some g =>
      if ps.taken = (m.slicesOf ps.binding).length ∧ ps.applies = none then
        let runs := m.passRuns ps.binding g
        let reads := (runElems runs).flatMap (fun r => elemRanges g r.1)
        let m1 := (m.eccDev true (reads ++ mergeReads (m.outRuns g runs)) ecc).passFinish u ps g m.passEnv
        Mod.signal { m1 with step := { m1.step with passesDone := setAdd m1.step.passesDone ps.binding } } g.signal
      else m
    | none => m
  | _, _ => m

/-- GROOM_PASS_COMPLETE. -/
def execGroomPassComplete (unit : Nat) (ecc : Ecc) (s : State) : Host.Outcome State Fault Refusal :=
  .next (s.unit (fun m => m.passComplete unit ecc))

/-- GRM_CLR_SAT: GRM_CTRL.CLR_SAT clears GRM_SAT (04_number_formats.md R124). -/
def execGrmClrSat (unit : Nat) (s : State) : Host.Outcome State Fault Refusal :=
  .next (s.reg (Reg.GRM_CTRL.addr unit 0) (fun m => m.fset Fld.GRM_SAT_COUNT 0 unit))

/-! ### Reconcile copies -/

/-- Copy one touched row of a ROW binding, in every output plane and the row-count plane, from the live to the shadow view
(R184). -/
def Mod.reconcileRow (m : Mod) (g : Binding) (r : Nat) : Mod :=
  let i := r * g.rowLen
  let m1 := (g.outs.filter (fun e => e.src == .plane)).foldl (fun (x : Mod) e =>
    let a := (planeAt e g.first i).1
    let n := e.format.rowBytes g.rowLen
    x.devWriteP (x.outAt a) (x.devRead a n)) m
  let a := rowCountAt g r
  m1.devWriteP (m1.outAt a) (m1.devRead a 8)

/-- Are the verdict actions at an end: no reconcile copy and no drain outstanding? -/
def Mod.actionsOver (m : Mod) : Bool := m.groom.reconcile.isEmpty && !m.step.draining

/-- The reconcile copy of the rows touched by a ROW binding in the step (R184). -/
def Mod.reconcileCopy (m : Mod) (b : Nat) (ecc : Ecc) : Mod :=
  match m.binding? b with
  | some g =>
    if m.groom.reconcile.contains b then
      let x := m.groomUnit g.unit
      let rows := kvGetD x.touched b []
      let reads := rows.flatMap (fun r => (rowCountAt g r, 8) :: (g.outs.filter (fun e => e.src == .plane)).map (fun e =>
        ((planeAt e g.first (r * g.rowLen)).1, e.format.rowBytes g.rowLen)))
      let ranges := reads ++ mergeReads (reads.map (fun r => (m.outAt r.1, r.2)))
      let m1 := rows.foldl (fun (y : Mod) r => y.reconcileRow g r) (m.eccDev true ranges ecc)
      let z := m1.groomUnit g.unit
      let m2 := m1.setGroom g.unit { z with touched := kvDel z.touched b, count := z.count + rows.length * g.rowLen }
      { m2 with groom := { m2.groom with reconcile := setDel m2.groom.reconcile b } }
    else m
  | none => m

/-! ### Preconditioners -/

/-- Write the identity into the live view of a preconditioner, as one run (R186). -/
def Mod.writeIdentity (m : Mod) (r : Precond) (ecc : Ecc) : Mod :=
  let body := (List.range r.dim).flatMap (fun i => (List.range r.dim).flatMap (fun j => leBytes 4 (if i = j then 0x3F800000 else 0)))
  (m.mergeDev true r.buf body.length ecc).devWrite r.buf body

/-- Invert SEL of the region that holds an address (10_memory_tiers.md R257). -/
def Mod.flipAt (m : Mod) (a : Nat) : Mod :=
  match m.region? a with
  | some r => if r.banked then { m with plt := { m.plt with sel := if m.sel r then kvDel m.plt.sel r.id else kvSet m.plt.sel r.id true } }
    else m
  | none => m

/-- The check of one preconditioner record at a committing verdict (R186): the candidate is taken, or the previous one kept and
the fallback counted and raised. -/
def Mod.precondCheck (m0 : Mod) (r : Precond) (ecc : Ecc) : Mod :=
  let y := m0.unitRead false r.resid 4 ecc
  let m := y.1
  let d := y.2
  let v := fp32 (leNat (rdBytes d))
  let ok := !rdPoison d && v.isFin && !((fp32 r.tol).ltB v)
  if ok then
    let m1 := m.flipAt r.buf
    { m1 with groom := { m1.groom with accepted := kvSet m1.groom.accepted r.id true } }
  else
    let had := kvGetD m.groom.accepted r.id r.initValid
    let m1 := if had then m else m.writeIdentity r ecc
    let m2 := ((m1.fsat Fld.GRM_FALLBACK_COUNT 1 r.unit).fsat Fld.GRM_PRECOND_FB_COUNT).fset Fld.GRM_FLAGS_INV 1 r.unit
    m2.raise .corrected 0x0602 r.unit (r.id + (if had then 0 else 256)) (leNat (rdBytes d)) (m.fget Fld.GRM_STEP_STEP)

/-- The preconditioner checks of a step that commits: records whose BARRIER completed in it. -/
def Mod.precondChecks (m : Mod) (ecc : Ecc) : Mod :=
  ((m.plate?.map (·.groom.preconds)).getD []).foldl (fun (x : Mod) r => if m.barrierDone r.barrier then x.precondCheck r ecc else x) m

end Sys2Proof.Machine
end

