-- ==== Sys2Proof/Machine/Ledger.lean ====
section
/-! DEFINITION. Where ledger entries lie and what they hold (08_step_commit.md R206, R207). -/

namespace Sys2Proof.Machine

/-- Parameter tensors of LAG 1 to 4, in ascending ID. -/
def Mod.deferredIds (m : Mod) : NatSet :=
  (((m.plate?.map (·.tensors)).getD []).filter (fun t => t.isParam && decide (0 < t.lag))).foldl (fun ids t => setAdd ids t.id) []

/-- The LEDGER region of a deferred tensor: the regions of kind LEDGER in ascending ID belong to the deferred tensors in ascending
ID (DESIGN CHOICE: the spec gives each deferred tensor a ledger region and names no field that says which). -/
def Mod.ledgerRegion (m : Mod) (tensor : Nat) : Option Region :=
  let rs := m.regions.filter (fun r => r.kind == .ledger)
  let ids := rs.foldl (fun k r => setAdd k r.id) []
  (ids[(m.deferredIds.takeWhile (fun x => x != tensor)).length]?).bind (fun i => rs.find? (fun r => r.id == i))

/-- The slices of a tensor in the order of the collective schedule: operation, slice index, entry. -/
def Mod.tensorSlices (m : Mod) (tensor : Nat) : List (Nat × Nat × SliceEnt) :=
  (m.collOps.filter (fun o => o.2.kind == .exchange && o.2.tensor == tensor)).flatMap (fun o =>
    ((List.range o.2.slices.length).zip o.2.slices).map (fun e => (o.1, e.1, e.2)))

/-- Bytes of a slice's values in BF16, padded to 64. -/
def SliceEnt.bf16Bytes (e : SliceEnt) : Nat := (2 * e.c * e.d + 63) / 64 * 64

/-- Bytes of a ledger entry. -/
def SliceEnt.entryBytes (e : SliceEnt) : Nat := 64 + e.bf16Bytes

/-- Offset within a frame and position of the entry of a slice of an operation. -/
def entryPlace (op slice : Nat) : List (Nat × Nat × SliceEnt) → Nat → Nat → Option (Nat × Nat)
  | [], _, _ => none
  | (o, s, e) :: rest, off, pos =>
    if o = op ∧ s = slice then some (off, pos) else entryPlace op slice rest (off + e.entryBytes) (pos + 1)

/-- Bytes of a frame of a tensor. -/
def Mod.frameBytes (m : Mod) (tensor : Nat) : Nat := ((m.tensorSlices tensor).map (fun x => x.2.2.entryBytes)).sum

/-- Device address and position of the ledger entry of a slice in step `n`: frame n mod (D + 1). -/
def Mod.ledgerAt (m : Mod) (tensor op slice n : Nat) : Option (Nat × Nat) :=
  match m.ledgerRegion tensor, entryPlace op slice (m.tensorSlices tensor) 0 0 with
  | some r, some p =>
    let d := ((m.tensor? tensor).map (·.lag)).getD 0
    some (r.base + n % (d + 1) * m.frameBytes tensor + p.1, p.2)
  | _, _ => none

/-- Generation of a region (10_memory_tiers.md R259). -/
def Mod.regionGen (m : Mod) (r : Region) : Nat := kvGetD m.plt.gen r.id 0

/-- What a ledger entry's header says (Table 08-6). -/
structure LedgerHdr where
  step : Nat
  tensor : Nat
  k0 : Nat
  n0 : Nat
  rows : Nat
  cols : Nat
  scale : Nat
  attempt : Nat
  nonfinite : Bool
  alive : Nat
  gen : Nat
  crc : Nat
deriving DecidableEq, Repr

/-- The 64 bytes of a header. -/
def LedgerHdr.bytes (h : LedgerHdr) : List Byte :=
  leBytes 4 h.step ++ leBytes 4 h.tensor ++ leBytes 4 h.k0 ++ leBytes 4 h.n0 ++ leBytes 2 h.rows ++ leBytes 2 h.cols
    ++ leBytes 4 h.scale ++ leBytes 1 h.attempt ++ leBytes 1 h.nonfinite.toNat ++ leBytes 2 h.alive ++ leBytes 2 h.gen
    ++ leBytes 2 0 ++ leBytes 4 h.crc ++ leBytes 28 0

/-- Read a header. -/
def LedgerHdr.ofBytes (b : List Byte) : LedgerHdr :=
  let n := fun (o w : Nat) => leNat ((b.drop o).take w)
  ⟨n 0 4, n 4 4, n 8 4, n 0xC 4, n 0x10 2, n 0x12 2, n 0x14 4, n 0x18 1, n 0x19 1 % 2 == 1, n 0x1A 2, n 0x1C 2, n 0x20 4⟩

end Sys2Proof.Machine
end

