-- ==== Sys2Proof/Machine/Pool.lean ====
section
/-! DEFINITION. The shared pool (10_memory_tiers.md R266 to R273): moving objects up, pinning, eviction, write-back. The family
"pool". -/

namespace Sys2Proof.Machine

/-! ### Objects -/

/-- Pages an object of a size takes (R267). -/
def pagesFor (n : Nat) : Nat := (n + pageSize - 1) / pageSize

/-- Stack of a pool page: POOL regions have granules of 64 KiB or more, so a page lies in one stack. -/
def Mod.pageStack (m : Mod) (p : Nat) : Nat :=
  match m.poolRegion with
  | some r => hbmMap r (m.sel r) (r.base + p * pageSize) / stackSize
  | none => 0

/-- Resident floor of an owner (R266). -/
def Mod.poolFloor (m : Mod) (owner : Nat) : Nat := ((m.poolRegion.map (·.floors)).getD []).getD owner 0

/-- What a move-up request asks for: size, owner, the groom unit of a DEFERRED object, and whether the object is created in HBM
without a read. -/
structure PoolWant where
  size : Nat
  owner : Nat
  unit : Option Nat
  create : Bool
deriving DecidableEq, Repr

/-- Elements of a chunk of a plane (R271). -/
def chunkElems : Nat := 131072

/-- Size of the chunk of a run of `n` elements of `bits` bits at `addr` whose home is `home` (R271). -/
def chunkAt (addr bits n home : Nat) : Option Nat :=
  let cb := chunkElems * bits / 8
  if addr ≤ home ∧ cb ≠ 0 ∧ (home - addr) % cb = 0 ∧ (home - addr) / cb * chunkElems < n then
    some ((min chunkElems (n - (home - addr) / cb * chunkElems) * bits + 7) / 8)
  else none

/-- The DEFERRED object of a binding at a home address: a chunk of a plane or of the mask, or a ledger entry (R271). An output
chunk lies where the pass writes it; one that no input shares is created without a read (R268). -/
def Mod.deferredObj (m : Mod) (g : Binding) (home : Nat) : Option (Nat × Bool) :=
  let plane := fun (e : StreamEntry) (at_ : Nat) => if e.src = .plane ∧ loftBase ≤ e.addr then chunkAt at_ e.format.bits g.count home else none
  let ins := g.ins.findSome? (fun e => plane e e.addr)
  let outs := g.outs.findSome? (fun e => plane e (m.outAt e.addr))
  let mask := if g.masked then chunkAt g.mask 1 g.count home else none
  let entry := (m.tensorSlices g.tensor).findSome? (fun x =>
    (List.range (m.lagOf g + 1)).findSome? (fun n => match m.ledgerAt g.tensor x.1 x.2.1 n with
      | some p => if p.1 = home then some x.2.2.entryBytes else none
      | none => none))
  match ins <|> mask <|> entry with
  | some n => some (n, false)
  | none => outs.map (fun n => (n, true))

/-- The object at a home address as a requester may ask for it: groom units (0 to 11) ask for DEFERRED objects, stream engines
(16 + s) for objects of pooled PLAIN regions. -/
def Mod.poolWant (m : Mod) (home user : Nat) : Option PoolWant :=
  if user < 12 then
    (m.bindings.filter (fun g => g.2.unit == user && decide (0 < m.lagOf g.2))).findSome? (fun g =>
      (m.deferredObj g.2 home).map (fun o => ⟨o.1, 1, some user, o.2⟩))
  else
    match m.regions.find? (fun r => r.kind == .plain && r.loft && r.objBytes != 0 && r.holds home) with
    | some r => if (home - r.base) % r.objBytes = 0 then some ⟨min r.objBytes (r.base + r.length - home), r.owner, none, false⟩ else none
    | none => none

/-- An object that is not in LOFT. -/
def Mod.poolObj? (m : Mod) (home : Nat) : Option PoolObj := kvGet? m.pool.objs home

/-- Replace an object. -/
def Mod.setObj (m : Mod) (home : Nat) (o : PoolObj) : Mod := { m with pool := { m.pool with objs := kvSet m.pool.objs home o } }

/-- An object returns to LOFT: its pages are free again. -/
def Mod.dropObj (m : Mod) (home : Nat) : Mod :=
  match m.poolObj? home with
  | some o => { m with pool := { m.pool with objs := kvDel m.pool.objs home, free := o.pages.foldl setAdd m.pool.free } }
  | none => m

/-- Pages an owner holds (LFT_POOL_OWNER). -/
def PoolUnit.resident (p : PoolUnit) (owner : Nat) : Nat :=
  (p.objs.map (fun e => if e.2.owner = owner then e.2.pages.length else 0)).sum

/-! ### Pages and eviction (R268) -/

/-- Free pages a request may take: in the stack of its groom unit, or any. -/
def Mod.freePages (m : Mod) (unit : Option Nat) : List Nat :=
  match unit with
  | some u => m.pool.free.filter (fun p => m.pageStack p == u)
  | none => m.pool.free

/-- Pages of an owner's objects in state HBM: its resident pages (Table 10-5). -/
def PoolUnit.inHbm (p : PoolUnit) (owner : Nat) : Nat :=
  (p.objs.map (fun e => if e.2.owner = owner ∧ e.2.st = .hbm then e.2.pages.length else 0)).sum

/-- May an object be evicted for a request: unpinned, in HBM, with a page in the stack, its owner not falling below its floor? -/
def Mod.evictable (m : Mod) (unit : Option Nat) (o : PoolObj) : Bool :=
  o.st == .hbm && o.pins == 0 && (match unit with | some u => o.pages.any (fun p => m.pageStack p == u) | none => true)
    && decide (m.poolFloor o.owner + o.pages.length ≤ m.pool.inHbm o.owner)

/-- The older of two candidates, the lower home address at equal ages; the list rises in home address. -/
def oldest : List (Nat × PoolObj) → Option (Nat × PoolObj)
  | [] => none
  | e :: rest => match oldest rest with
    | some f => if e.2.age < f.2.age then some f else some e
    | none => some e

/-- Evict one object: a clean one is freed at once, a written one waits for its write-back. -/
def Mod.evictOne (m : Mod) (unit : Option Nat) : Option Mod :=
  (oldest (m.pool.objs.filter (fun e => m.evictable unit e.2))).map (fun e =>
    let m1 := m.fsat Fld.LFT_POOL_EVICT_COUNT
    if e.2.dirty then m1.setObj e.1 { e.2 with st := .evicting, wbStarted := false } else m1.dropObj e.1)

/-- Pages of the request's stack, or of any, that write-backs will free. -/
def Mod.queuedPages (m : Mod) (unit : Option Nat) : Nat :=
  (m.pool.objs.map (fun e => if e.2.st = .evicting then
    (e.2.pages.filter (fun p => match unit with | some u => m.pageStack p == u | none => true)).length else 0)).sum

/-- Evict until `need` pages are free or will be. -/
def Mod.evictFor (unit : Option Nat) (need : Nat) : Nat → Mod → Mod
  | 0, m => m
  | n + 1, m =>
    if need ≤ (m.freePages unit).length + m.queuedPages unit then m
    else match m.evictOne unit with
      | some x => Mod.evictFor unit need n x
      | none => m

/-- A move-up request (R268, R269): the module and whether it was served; one that is not waits. An object created without a read
holds no poison of what its pages held before (DESIGN CHOICE). -/
def Mod.moveUpTry (m : Mod) (home : Nat) (w : PoolWant) : Mod × Bool :=
  match m.poolObj? home with
  | some o =>
    match o.st with
    | .hbm | .movingUp => (m.setObj home { o with pins := o.pins + 1, age := 0 }, true)
    | .evicting =>
      if o.wbStarted then (m, false)
      else ((m.setObj home { o with st := .hbm, pins := o.pins + 1, age := 0 }).fsat Fld.LFT_POOL_CANCEL_COUNT, true)
    | .loft => (m, false)
  | none =>
    let need := pagesFor w.size
    let m1 := Mod.evictFor w.unit need m.pool.objs.length m
    let ps := (m1.freePages w.unit).take need
    if ps.length = need then
      let o : PoolObj := ⟨w.size, w.owner, w.unit, if w.create then .hbm else .movingUp, 1, 0, false, false, ps⟩
      let m2 := if w.create then m1.openRuns (ps.map (fun p => (m1.pageAddr p, pageSize))) else m1
      (Mod.setObj { m2 with pool := { m2.pool with free := m2.pool.free.filter (fun p => !ps.contains p) } } home o, true)
    else (m1, false)

/-- The chunk an object belongs to (R271): a run of 131,072 elements of a binding, in every plane and the mask; a ledger entry
belongs to none. -/
def Mod.chunkId (m : Mod) (user home : Nat) : Option (Nat × Nat) :=
  (m.bindings.filter (fun g => g.2.unit == user && decide (0 < m.lagOf g.2))).findSome? (fun g =>
    let run := fun (at_ bits : Nat) => if (chunkAt at_ bits g.2.count home).isSome then some (g.1, (home - at_) / (chunkElems * bits / 8)) else none
    let planes := fun (es : List StreamEntry) (f : Nat → Nat) =>
      (es.filter (fun e => e.src == .plane)).findSome? (fun e => run (f e.addr) e.format.bits)
    planes g.2.ins id <|> planes g.2.outs m.outAt <|> (if g.2.masked then run g.2.mask 1 else none))

/-- Has a groom unit two chunks pinned already, the object's not among them (R271)? -/
def Mod.chunksFull (m : Mod) (home user : Nat) : Bool :=
  match if user < 12 then m.chunkId user home else none with
  | none => false
  | some k =>
    let held := ((m.pool.objs.filter (fun e => e.2.unit == some user && decide (0 < e.2.pins))).filterMap (fun e => m.chunkId user e.1)).eraseDups
    decide (2 ≤ held.length) && !held.contains k

/-- A request of a user for the object at a home address; it waits where it cannot be served. -/
def Mod.moveUp (m : Mod) (home user : Nat) : Mod :=
  match if m.chunksFull home user then none else m.poolWant home user with
  | none => m
  | some w =>
    let r := m.moveUpTry home w
    if r.2 then r.1 else { r.1 with pool := { r.1.pool with waits := r.1.pool.waits ++ [⟨home, user, 0⟩] } }

/-- Serve the requests that wait, in their order. -/
def Mod.retryWaits (m : Mod) : Mod :=
  m.pool.waits.foldl (fun (x : Mod) w => match if x.chunksFull w.home w.user then none else x.poolWant w.home w.user with
    | none => { x with pool := { x.pool with waits := x.pool.waits ++ [w] } }
    | some want =>
      let r := x.moveUpTry w.home want
      if r.2 then r.1 else { r.1 with pool := { r.1.pool with waits := r.1.pool.waits ++ [w] } })
    { m with pool := { m.pool with waits := [] } }

/-- POOL_MOVE_UP (R268, R269). -/
def execPoolMoveUp (home user : Nat) (s : State) : Host.Outcome State Fault Refusal :=
  .next (s.unit (fun m => m.moveUp home user))

/-- A groom unit's deferred pass has its first write-back started, and runs to completion (R272). -/
def Mod.bindPass (m : Mod) (u : Nat) : Mod :=
  match (m.groomUnit u).pass with
  | some ps => if ps.applies.isSome then m.setGroom u { m.groomUnit u with pass := some { ps with bound := true } } else m
  | none => m

/-- A written DEFERRED object moves to EVICTING and its write-back starts at once (R271). -/
def Mod.writeBack (m : Mod) (home : Nat) (o : PoolObj) : Mod :=
  ((m.setObj home { o with st := .evicting, wbStarted := true, pins := 0 }).fsat Fld.LFT_POOL_EVICT_COUNT).bindPass (o.unit.getD 12)

/-- A user is done with an object (R268); a DEFERRED object that was written moves to EVICTING at its last unpin, and its
write-back starts at once (R271). -/
def Mod.unpin (m : Mod) (home : Nat) : Mod :=
  match m.poolObj? home with
  | some o =>
    if o.pins = 0 then m
    else
      let p := { o with pins := o.pins - 1, age := 0 }
      (if p.pins = 0 ∧ p.dirty ∧ p.owner = 1 then m.writeBack home p else m.setObj home p).retryWaits
  | none => m

/-- POOL_UNPIN (R268). -/
def execPoolUnpin (home _user : Nat) (s : State) : Host.Outcome State Fault Refusal := .next (s.unit (fun m => m.unpin home))

/-! ### Data -/

/-- Copy between an object's home and its pages, page by page, with poison (R267; R252). -/
def Mod.poolCopy (m : Mod) (home : Nat) (o : PoolObj) (up : Bool) : Mod :=
  ((List.range o.pages.length).zip o.pages).foldl (fun (x : Mod) e =>
    let a := home + e.1 * pageSize
    let b := x.pageAddr e.2
    let n := min pageSize (o.size - e.1 * pageSize)
    let src := if up then a else b
    let dst := if up then b else a
    let y := (x.yard .pool src n false).yard .pool dst n true
    y.devWriteP dst (y.devRead src n)) m

/-- The device ranges of an object's HBM copy. -/
def Mod.objRanges (m : Mod) (o : PoolObj) : List (Nat × Nat) := o.pages.map (fun p => (m.pageAddr p, pageSize))

/-- The last bytes of an object, where they fill no whole sector of their page. -/
def Mod.objTail (m : Mod) (o : PoolObj) : List (Nat × Nat) :=
  match o.pages.getLast? with
  | some p => partialRanges (m.pageAddr p) (o.size - (o.pages.length - 1) * pageSize)
  | none => []

/-- MOVE_UP_COMPLETE: the read from the loft completes; the object is in HBM (R267). -/
def execMoveUpComplete (home : Nat) (ecc : Ecc) (s : State) : Host.Outcome State Fault Refusal :=
  .next (s.unit (fun m => match m.poolObj? home with
    | some o =>
      if o.st = .movingUp ∧ m.heldPort home o.size = none then
        (((m.readDev true [(home, o.size)] ecc).eccDev true (m.objTail o) ecc).poolCopy home o true).setObj home { o with st := .hbm }
      else m
    | none => m))

/-- The boundary at or after the present moment (11_streams.md R286). -/
def Mod.gateTick (m : Mod) : Nat := if m.tick.cycle = 0 then m.tick.count else (m.tick.count + 1) % 2 ^ 48

/-- Is a step known not to have committed (11_streams.md R282)? -/
def Mod.notCommitted (m : Mod) (n : Nat) : Bool := !m.step.hist.any (fun h => h.step == n && h.committed)

/-- Has the deferred pass that writes a DEFERRED region completed in the step? -/
def Mod.passRan (m : Mod) (r : Region) : Bool :=
  m.bindings.any (fun b => m.step.defRun.contains b.1 && m.step.passesDone.contains b.1
    && b.2.outs.any (fun e => e.wc && r.holds e.addr))

/-- Was a deferred pass of the step that was to write the region lost (08_step_commit.md R212)? -/
def Mod.passLost (m : Mod) (r : Region) : Bool :=
  m.bindings.any (fun b => m.step.defLost.contains b.1 && b.2.outs.any (fun e => e.wc && r.holds e.addr))

/-- May tiles of the next step read a source address now, their context's last tile of this step having been delivered
(11_streams.md R282)? -/
def Mod.earlySource (m : Mod) (a : Nat) : Bool :=
  match m.region? a with
  | some r =>
    if r.kind = .deferred then
      m.passRan r || (m.bindings.filter (fun b => b.2.outs.any (fun e => e.wc && r.holds e.addr))).all (fun b =>
        m.notCommitted ((m.fget Fld.GRM_STEP_STEP + 2 ^ 32 - m.lagOf b.2) % 2 ^ 32))
    else true
  | none => true

/-- The sources of an EARLY descriptor's tiles that lie on this module may be read for the next step (11_streams.md R282). -/
def Mod.earlyReady (m : Mod) (d : StreamDesc) : Bool :=
  (List.range (if d.srcStride = 0 || d.expand then min d.tiles 1 else d.tiles)).all (fun t =>
    d.srcAt t / 2 ^ 48 % 2 ^ 16 != m.self || m.earlySource (d.srcAt t % 2 ^ 48))

/-- Has the final verdict boundary of the last step passed (11_streams.md R282)? A drain that may still flip a DEFERRED source holds
its context back (DEDUCED, log 99). -/
def Mod.verdictPast (m : Mod) (d : StreamDesc) : Bool :=
  m.step.phase == .idle || (m.step.phase == .actions && decide ((m.step.actTick : Nat) < m.tick.count)
    && !(m.step.draining && (m.region? (d.src % 2 ^ 48)).any (fun r => r.kind == .deferred)))

/-- A context whose tiles of this step have all started turns to the next step, from the boundary on at which its tiles may
start: after a verdict, or under EARLY (11_streams.md R282). -/
def Mod.gateOne (m : Mod) (d : StreamDesc) : Mod :=
  let c := m.ctx d.id
  let free := m.verdictPast d || (d.early && c.done == d.tiles && m.earlyReady d)
  if !c.ahead && c.next == d.tiles && free then
    m.setCtx d.id { c with ahead := true, next := 0, done := 0, gate := some m.gateTick }
  else m

/-- The stream descriptors of the active plate. -/
def Mod.streams (m : Mod) : List StreamDesc := (m.plate?.map (·.streams)).getD []

/-- Every context that may turn to the next step does. -/
def Mod.gates (m : Mod) : Mod := m.streams.foldl Mod.gateOne m

/-- A verdict boundary: contexts may start tiles of the next step from here on (11_streams.md R282). -/
def Mod.gatesAll (m : Mod) : Mod :=
  (m.streams.foldl (fun (x : Mod) d =>
    let c := x.ctx d.id
    if c.ahead && c.gate.isNone && m.verdictPast d then x.setCtx d.id { c with gate := some x.gateTick } else x) m).gates

/-- Deferred passes of the step whose write-backs have all completed are complete (R271). -/
def Mod.deferredSettle (m : Mod) : Mod :=
  Mod.gates <| m.step.defRun.foldl (fun (x : Mod) b => match x.binding? b with
    | some g =>
      if x.step.passesDone.contains b || x.pool.objs.any (fun e => e.2.unit == some g.unit && (e.2.st == .evicting || e.2.dirty)) then x
      else
        let y := { x with step := { x.step with passesDone := setAdd x.step.passesDone b } }
        if x.stepOpen then y.signal g.signal else y
    | none => x) m

/-- POOL_EXHAUSTED: a request that has waited LFT_POOL_WAIT.TICKS boundaries, and for which no page can be evicted, faults the step
and is withdrawn (R270). -/
def execPoolExhausted (home user : Nat) (s : State) : Host.Outcome State Fault Refusal :=
  .next (s.unit (fun m =>
    match m.pool.waits.find? (fun w => w.home == home && w.user == user), m.poolWant home user with
    | some w, some want =>
      if (decide (m.fget Fld.LFT_POOL_WAIT_TICKS ≤ w.ticks) && (m.poolObj? home).isNone && (m.evictOne want.unit).isNone
          && decide ((m.freePages want.unit).length + m.queuedPages want.unit < pagesFor want.size)) = true then
        Mod.raiseStep { m with pool := { m.pool with waits := m.pool.waits.erase w } } 0x0A06 user want.owner (pagesFor want.size)
          m.pool.free.length
      else m
    | _, _ => m))

/-- A tick boundary: ages and waits count, queued write-backs start. -/
def PoolUnit.boundary (p : PoolUnit) : PoolUnit :=
  { p with objs := p.objs.map (fun e => (e.1, { e.2 with age := e.2.age + 1, wbStarted := e.2.wbStarted || e.2.st == .evicting })),
           waits := p.waits.map (fun w => { w with ticks := w.ticks + 1 }) }

/-- A function reset (R273): pins are released, objects moving up return to LOFT, requests are withdrawn. What a groom unit has
written goes home, as at any last unpin, and its pass runs on (R271, R272). -/
def Mod.poolReset (m : Mod) : Mod :=
  let m1 := (m.pool.objs.filter (fun e => e.2.st == .movingUp)).foldl (fun (x : Mod) e => x.dropObj e.1) m
  let m2 : Mod := { m1 with pool := { m1.pool with waits := [], objs := m1.pool.objs.map (fun e => (e.1, { e.2 with pins := 0 })) } }
  (m2.pool.objs.filter (fun e => e.2.st == .hbm && e.2.dirty && e.2.owner == 1)).foldl (fun (x : Mod) e => x.writeBack e.1 e.2) m2

/-- Is every object that the bytes touch resident? -/
def Mod.objsReady (m : Mod) (homes : List Nat) : Bool := homes.all (fun h => (m.poolObj? h).any (fun o => o.st == .hbm))

/-- Homes of the pooled objects that a range of a pooled PLAIN region touches (11_streams.md R289). -/
def Mod.homesOf (m : Mod) (a n : Nat) : List Nat :=
  match m.regions.find? (fun r => r.kind == .plain && r.loft && r.objBytes != 0 && r.holds a) with
  | some r =>
    if n = 0 then []
    else
      let first := (a - r.base) / r.objBytes
      let last := (a + n - 1 - r.base) / r.objBytes
      (List.range (last + 1 - first)).map (fun i => r.base + (first + i) * r.objBytes)
  | none => []

/-- The HBM copy's address of a byte of a resident object; else the address itself. -/
def Mod.poolAddr (m : Mod) (a : Nat) : Nat :=
  match m.homesOf a 1 with
  | h :: _ => match m.poolObj? h with
    | some o => if o.st = .hbm then m.pageAddr (o.pages.getD ((a - h) / pageSize) 0) + (a - h) % pageSize else a
    | none => a
  | [] => a

/-- `n` bytes as a stream reads them: from the HBM copies of resident objects. -/
def Mod.poolRead (m : Mod) (a : Nat) : Nat → List (Byte × Bool)
  | 0 => []
  | n + 1 => m.byteAt (m.locate (m.poolAddr a)) :: m.poolRead (a + 1) n

end Sys2Proof.Machine
end

