-- ==== Sys2Proof/Machine/Paddock.lean ====
section
/-! DEFINITION. The paddock (06_backward_pass.md R155 to R161): placing a record instance, spilling, dropping, exhaustion. The
family "paddock". -/

namespace Sys2Proof.Machine

/-- PADDOCK regions of the active plate. -/
def Mod.padRegions (m : Mod) : List Region := m.regions.filter (fun r => r.kind == .paddock)

/-- First page number and pages of the PADDOCK region that declares a record; pages are numbered through the regions in the
order of the placement section. -/
def padRange (record : Nat) : List Region → Nat → Nat × Nat
  | [], _ => (0, 0)
  | r :: rs, start =>
    let n := r.length / pageSize
    if r.records.any (fun q => q.id == record) then (start, n) else padRange record rs (start + n)

/-- Device address of a paddock page. -/
def padPageAddr : List Region → Nat → Nat
  | [], _ => 0
  | r :: rs, p => if p < r.length / pageSize then r.base + p * pageSize else padPageAddr rs (p - r.length / pageSize)

/-- Device address of a page of POOL_LOFT. -/
def Mod.spillAddr (m : Mod) (p : Nat) : Nat :=
  ((m.regions.find? (fun r => r.kind == .poolLoft)).map (·.base)).getD 0 + p * pageSize

/-- A paddock record of the active plate. -/
def Mod.padRec? (m : Mod) (record : Nat) : Option PadRec := m.padRecs.find? (fun r => r.id == record)

/-- The device addresses of an instance's bytes, as runs. -/
def Mod.padRuns (m : Mod) (i : PadInst) : List (Nat × Nat) :=
  let runs := fun (addr : Nat → Nat) (ps : List Nat) => ((List.range ps.length).zip ps).map (fun e =>
    (addr e.2, min pageSize (i.size - e.1 * pageSize)))
  match i.place with
  | .pages ps => runs (padPageAddr m.padRegions) ps
  | .spill ps => runs m.spillAddr ps
  | .dropped => []

/-- HBM_PAD_LOW follows the free pages down. -/
def Mod.padLow (m : Mod) : Mod :=
  m.fset Fld.HBM_PAD_LOW_PAGES (min (m.fget Fld.HBM_PAD_LOW_PAGES) m.pad.free.length)

/-- Set an instance. -/
def Mod.setInst (m : Mod) (key : Nat) (i : PadInst) : Mod := { m with pad := { m.pad with insts := kvSet m.pad.insts key i } }

/-- Step 1 of R157: pages of the record's PADDOCK region. -/
def Mod.placePages (m : Mod) (r : PadRec) (key size : Nat) : Option Mod :=
  let range := padRange r.id m.padRegions 0
  let ps := (m.pad.free.filter (fun p => decide (range.1 ≤ p) && decide (p < range.1 + range.2))).take (pagesFor size)
  if ps.length = pagesFor size then
    some ((Mod.setInst { m with pad := { m.pad with free := m.pad.free.filter (fun p => !ps.contains p) } } key
      ⟨.pages ps, size, false⟩).padLow)
  else none

/-- The first run of `n` free pages of POOL_LOFT: a spill object is one object, at one home address. -/
def freeRun (free : NatSet) (n : Nat) : Option (List Nat) :=
  (free.find? (fun p => (List.range n).all (fun i => free.contains (p + i)))).map (fun p => (List.range n).map (fun i => p + i))

/-- Step 2 of R157: a spill object in the loft, unless NO_SPILL is set. -/
def Mod.placeSpill (m : Mod) (r : PadRec) (key size : Nat) : Option Mod :=
  if r.noSpill then none
  else (freeRun m.pool.spillFree (pagesFor size)).map (fun ps =>
    let m1 := { m with pool := { m.pool with spillFree := m.pool.spillFree.filter (fun p => !ps.contains p) } }
    Mod.setInst { m1 with pad := { m1.pad with spilled := m1.pad.spilled + 1 } } key ⟨.spill ps, size, false⟩)

/-- Steps 1 and 2 of R157. -/
def Mod.placeNow (m : Mod) (r : PadRec) (key size : Nat) : Option Mod := m.placePages r key size <|> m.placeSpill r key size

/-- The instances of a drop unit: those of the eligible records of a layer in a micro-batch, placed and not dropped (R158). -/
def Mod.dropUnit (m : Mod) (layer mb : Nat) : List (Nat × PadInst) :=
  m.pad.insts.filter (fun e => e.1 % 256 == mb && e.2.place != .dropped
    && m.padRecs.any (fun r => r.id == e.1 / 256 && r.eligible && r.layer == layer))

/-- May the unit be dropped: has none of its unstashes or recomputes begun? -/
def Mod.dropOk (m : Mod) (layer mb : Nat) : Bool :=
  let us := m.pad.insts.filter (fun e => e.1 % 256 == mb
    && m.padRecs.any (fun r => r.id == e.1 / 256 && r.eligible && r.layer == layer))
  us.all (fun e => !e.2.begun)

/-- Drop a unit (R158): its pages and spill objects are released, STASH_DROPPED names its lowest record. -/
def Mod.dropLayer (m : Mod) (layer mb record : Nat) : Mod :=
  let us := m.dropUnit layer mb
  let m1 := us.foldl (fun (x : Mod) e => (x.padRelease e.1).setInst e.1 { e.2 with place := .dropped }) m
  let src := ((us.map (fun e => e.1 / 256)).head?).getD record
  Mod.raise { m1 with pad := { m1.pad with dropped := m1.pad.dropped + 1 } } .contained 0x0702 src layer mb (m.fget Fld.GRM_STEP_STEP)

/-- A drop unit with its order: lowest DROP_RANK of its records, micro-batch, layer (R158). -/
def Mod.dropKeys (m : Mod) : List (Nat × Nat × Nat) :=
  let us := (m.pad.insts.filter (fun e => e.2.place != .dropped)).filterMap (fun e =>
    (m.padRecs.find? (fun r => r.id == e.1 / 256 && r.eligible)).map (fun r => (r.layer, e.1 % 256)))
  (us.filter (fun u => m.dropOk u.1 u.2)).map (fun u =>
    let ranks := (m.dropUnit u.1 u.2).filterMap (fun e => (m.padRecs.find? (fun r => r.id == e.1 / 256)).map (·.dropRank))
    (ranks.foldl min 255, u.2, u.1))

/-- The unit to drop next. -/
def leastDrop : List (Nat × Nat × Nat) → Option (Nat × Nat × Nat)
  | [] => none
  | u :: rest => match leastDrop rest with
    | some v => if v.1 < u.1 ∨ (v.1 = u.1 ∧ (v.2.1 < u.2.1 ∨ (v.2.1 = u.2.1 ∧ v.2.2 < u.2.2))) then some v else some u
    | none => some u

/-- The next unit dropped for a record, if one may be (R158). -/
def Mod.dropNext (m : Mod) (r : PadRec) : Option Mod := (leastDrop m.dropKeys).map (fun u => m.dropLayer u.2.2 u.2.1 r.id)

/-- Step 3 of R157 for the units of other layers: drop, then try steps 1 and 2 again. -/
def Mod.placeDropping (r : PadRec) (key size : Nat) : Nat → Mod → Mod × Bool
  | 0, m => (m, false)
  | n + 1, m =>
    match m.dropNext r with
    | none => (m, false)
    | some m1 => match m1.placeNow r key size with
      | some x => (x, true)
      | none => Mod.placeDropping r key size n m1

/-- A record cannot be placed (R160): STASH_EXHAUSTED, the step's verdict becomes FAULT, every instance is released. -/
def Mod.stashExhausted (m : Mod) (r : PadRec) (mb size : Nat) : Mod :=
  ((m.raiseStep 0x0703 r.id r.layer mb (pagesFor size)).fsat Fld.HBM_PAD_EXHAUST_COUNT).padReleaseAll

/-- Place the instance of a record in a micro-batch (R157, R158): an eligible record's own unit is dropped first, and the record
is then not written. -/
def Mod.placeRecord (m : Mod) (r : PadRec) (mb size : Nat) : Mod :=
  let key := padKey r.id mb
  match m.placeNow r key size with
  | some x => x
  | none =>
    if r.eligible && m.dropOk r.layer mb then
      (m.setInst key ⟨.pages [], size, false⟩).dropLayer r.layer mb r.id
    else match Mod.placeDropping r key size (m.pad.insts.length + 1) m with
      | (x, true) => x
      | (x, false) => x.stashExhausted r mb size

/-- The stream descriptor of a stream ID. -/
def Mod.stream? (m : Mod) (id : Nat) : Option StreamDesc := m.plate?.bind (fun p => p.streams.find? (fun d => d.id == id))

/-- The barrier that tile `t` of a descriptor waits for is complete, or it names none (11_streams.md R280). -/
def Mod.tileWaitDone (m : Mod) (d : StreamDesc) (t : Nat) : Bool :=
  match d.wait with
  | some b => m.barrierDone (b + t * d.waitStride)
  | none => true

/-- May the stream engines work: a plate is active, and no device halt stops them (18_debug.md R455)? -/
def Mod.streamsRun (m : Mod) : Bool := m.plateActive && !m.unitsHalted

/-- STASH_PLACE: a stash context places the next instance of its record once its producing barrier completes (R157). -/
def execStashPlace (stream : Nat) (s : State) : Host.Outcome State Fault Refusal :=
  .next (s.unit (fun m => match m.stream? stream with
    | some d =>
      let t := (m.ctx stream).next
      match m.padRec? d.winBase with
      | some r =>
        if d.kind = .stash ∧ m.streamsRun ∧ m.framesRun ∧ m.step.cause.isNone ∧ !(m.ctx stream).ahead ∧ t < d.tiles ∧ m.tileWaitDone d t
            ∧ (kvGet? m.pad.insts (padKey r.id t)).isNone then
          m.placeRecord r t d.tileBytes
        else m
      | none => m
    | none => m))

/-- PAD_CLR_LOW: HBM_PAD_CTRL.CLR_LOW sets HBM_PAD_LOW to the present free pages. -/
def execPadClrLow (s : State) : Host.Outcome State Fault Refusal :=
  .next (s.reg Reg.HBM_PAD_CTRL.base (fun m => m.fset Fld.HBM_PAD_LOW_PAGES m.pad.free.length))

end Sys2Proof.Machine
end

