-- ==== Sys2Proof/Machine/CollState.lean ====
section
/-! DEFINITION. The operations of the collective engine as the step sees them (13_collectives.md R347, R354, R360): at its start, at
a replay, at a verdict that ends it. -/

namespace Sys2Proof.Machine

/-- Micro-batch an operation serves first: the last for ROWS (R354), else 0. -/
def Mod.firstMb (m : Mod) (o : CollOp) : Nat := if o.kind = .rows then m.lastMb else 0

/-- Every operation waits for its input, from the micro-batch `f` gives. -/
def Mod.opsFrom (m : Mod) (f : CollOp → Nat) : Kv OpRun :=
  m.collOps.map (fun e => (e.1, { OpRun.rest with st := .waitInput, mb := f e.2 }))

/-- A step number as a transfer's TAG holds it (Table 13-6). -/
def tagStep (n : Nat) : Nat := n % 2 ^ 15

/-- A step starts: every operation waits for its input; transfers that came early are kept (R359). -/
def Mod.collStart (m : Mod) : Mod :=
  let now := tagStep (m.fget Fld.GRM_STEP_STEP)
  { m with coll := { m.coll with ops := m.opsFrom m.firstMb, ledgerNorm := [], xfers := m.coll.xfers.filter (fun x => x.step == now) } }

/-- A REPLAY boundary (R360): the last micro-batch's state of every operation is abandoned, with its contributions; the operations
are served again with ATTEMPT 1. -/
def Mod.collReplay (m : Mod) : Mod :=
  let now := tagStep (m.fget Fld.GRM_STEP_STEP)
  { m with coll := { m.coll with ops := m.opsFrom (fun _ => m.lastMb), ledgerNorm := [],
                                 xfers := m.coll.xfers.filter (fun x => !(x.step == now && x.attempt == 0)) } }

/-- A SKIP or FAULT boundary (R360): every operation of the step is abandoned. -/
def Mod.collAbandon (m : Mod) : Mod :=
  let now := tagStep (m.fget Fld.GRM_STEP_STEP)
  { m with coll := { m.coll with ops := [], ledgerNorm := [], xfers := m.coll.xfers.filter (fun x => x.step != now) } }

/-- A function reset (R360): every operation is abandoned and the buffers are emptied. -/
def Mod.collReset (m : Mod) : Mod := { m with coll := { m.coll with ops := [], xfers := [], ledgerNorm := [], high := [] } }

end Sys2Proof.Machine
end

