-- ==== Sys2Proof/Machine/CollSum.lean ====
section
/-! DEFINITION. The arithmetic and the wire forms of the reducers (13_collectives.md R343, R348 to R351, R354, Tables 13-4 and
13-6): values of a slice are FP32 codes with their poison. -/

namespace Sys2Proof.Machine

/-! ### Arithmetic -/

/-- Apply a rounding to every element, joining the flags. -/
def mapFl {α : Type} (f : α → (Nat × Bool) × Fl) (xs : List α) : List (Nat × Bool) × Fl :=
  xs.foldr (fun a r => ((f a).1 :: r.1, (f a).2.join r.2)) ([], .none)

/-- The sum of two elements, exact and rounded once to FP32 in IEEE mode without FTZ (R343). -/
def sumElem (a b : Nat × Bool) : (Nat × Bool) × Fl :=
  let s := (fp32 a.1).add (fp32 b.1)
  let q := roundFp32 false s.1
  ((q.code, a.2 || b.2), (Fl.invalid s.2).join q.fl)

/-- Sums of two slices, element by element. -/
def sumVals (xs ys : List (Nat × Bool)) : List (Nat × Bool) × Fl := mapFl (fun p => sumElem p.1 p.2) (xs.zip ys)

/-- An element rounded once to BF16 in IEEE mode without FTZ and widened exactly. -/
def bf16Elem (a : Nat × Bool) : (Nat × Bool) × Fl :=
  let q := (Fmt.spec .bf16).round .ieee false .nearest (fp32 a.1)
  ((q.code * 65536, a.2), q.fl)

/-- An FP32 element as a reducer writes it: every NaN is the canonical one (04_number_formats.md R108). -/
def fp32Elem (a : Nat × Bool) : Nat × Bool := if (fp32 a.1).isNan then ((Fmt.spec .fp32).nanCode, a.2) else a

/-- Elements rounded to a delivery or wire format: BF16, or FP32. -/
def toFormat (half : Bool) (xs : List (Nat × Bool)) : List (Nat × Bool) × Fl :=
  if half then mapFl bf16Elem xs else (xs.map fp32Elem, .none)

/-- The difference of two elements, exact and rounded once to BF16 (R348). -/
def feedbackElem (e v : Nat × Bool) : (Nat × Bool) × Fl :=
  let s := (fp32 e.1).sub (fp32 v.1)
  let q := (Fmt.spec .bf16).round .ieee false .nearest s.1
  ((q.code * 65536, e.2 || v.2), (Fl.invalid s.2).join q.fl)

/-- Is an unpoisoned element not finite (R350)? -/
def anyNonfinite (xs : List (Nat × Bool)) : Bool := xs.any (fun x => !x.2 && !(fp32 x.1).isFin)

/-! ### Compression (R348, R349) -/

/-- Elements TOPK sends of `n` (R349). -/
def topkCount (density n : Nat) : Nat := max 1 ((n * density + 65535) / 65536)

/-- The positions of the `k` largest magnitudes, ties to the lower position, ascending (R349). -/
def topkSelect (k : Nat) (xs : List (Nat × Bool)) : List Nat :=
  let mags := xs.map (fun x => x.1 % 2 ^ 31)
  (List.range mags.length).filter (fun p =>
    let a := mags.getD p 0
    decide (((List.range mags.length).filter (fun q =>
      let b := mags.getD q 0
      decide (a < b) || (b == a && decide (q < p)))).length < k))

/-- Any poison reaches every element of a TOPK or SIGN slice, whose values depend on all of them. -/
def spreadPoison (xs : List (Nat × Bool)) : List (Nat × Bool) :=
  let bad := xs.any (·.2)
  xs.map (fun x => (x.1, x.2 || bad))

/-- The TOPK value: e at the selected positions, +0 elsewhere. -/
def topkVals (k : Nat) (xs : List (Nat × Bool)) : List (Nat × Bool) :=
  let sel := topkSelect k xs
  spreadPoison ((List.range xs.length).map (fun p => (if sel.contains p then (xs.getD p (0, false)).1 else 0, (xs.getD p (0, false)).2)))

/-- The magnitude SIGN sends: the FP64 sum of |e| in ascending position, divided by n and rounded once to FP32 (R349). -/
def signMag (xs : List (Nat × Bool)) : Nat × Fl :=
  let s := xs.foldl (fun (r : Nat × Fl) x =>
    let t := (fp64 r.1).add (fp32 x.1).abs
    let q := roundFp64 t.1
    (q.code, r.2.join ((Fl.invalid t.2).join q.fl))) (0, .none)
  let d := (fp64 s.1).div (Val.ofNat xs.length)
  let q := roundFp32 false d.1
  (q.code, s.2.join q.fl)

/-- The SIGN value: −a where e < 0, else +a. -/
def signVals (a : Nat) (xs : List (Nat × Bool)) : List (Nat × Bool) :=
  spreadPoison (xs.map (fun x => (if (fp32 x.1).ltB .zero then a % 2 ^ 31 + 2 ^ 31 else a, x.2)))

/-- The sent value v of a slice (Table 13-4); a slice with a value that is not finite is sent as it is (R350). -/
def CollOp.sent (o : CollOp) (e : List (Nat × Bool)) : List (Nat × Bool) × Fl :=
  if anyNonfinite e then (e, .none)
  else match o.comp with
    | .dense => toFormat o.wire16 e
    | .topk => (topkVals (topkCount o.density e.length) e, .none)
    | .sign => let a := signMag e; (signVals a.1 e, a.2)

/-! ### Rows (R354) -/

/-- The value of a row operation as rows: index and values. -/
def Contrib.byRow (c : Contrib) (len : Nat) : List (Nat × List (Nat × Bool)) :=
  ((List.range (c.rows.getD []).length).zip (c.rows.getD [])).map (fun r => (r.2, (c.vals.drop (r.1 * len)).take len))

/-- Rows in ascending order: the union of two lists, rows present in both summed. -/
def mergeRows : Nat → List (Nat × List (Nat × Bool)) → List (Nat × List (Nat × Bool)) → List (Nat × List (Nat × Bool)) × Fl
  | 0, xs, _ => (xs, .none)
  | _, [], ys => (ys, .none)
  | _, xs, [] => (xs, .none)
  | n + 1, x :: xs, y :: ys =>
    if x.1 < y.1 then let r := mergeRows n xs (y :: ys); (x :: r.1, r.2)
    else if y.1 < x.1 then let r := mergeRows n (x :: xs) ys; (y :: r.1, r.2)
    else
      let s := sumVals x.2 y.2
      let r := mergeRows n xs ys
      ((x.1, s.1) :: r.1, s.2.join r.2)

/-- The sum of two contributions of a slice: dense, or over rows of `len` elements. -/
def Contrib.sum (len : Nat) (a b : Contrib) : Contrib × Fl :=
  if a.rows.isSome then
    let xs := a.byRow len
    let ys := b.byRow len
    let r := mergeRows (xs.length + ys.length) xs ys
    (⟨some (r.1.map (·.1)), r.1.flatMap (·.2)⟩, r.2)
  else
    let r := sumVals a.vals b.vals
    (⟨none, r.1⟩, r.2)

/-- Sums in the order of a list (R343). -/
def sumAll (len : Nat) : List Contrib → Option (Contrib × Fl)
  | [] => none
  | c :: cs => some (cs.foldl (fun (r : Contrib × Fl) x => let s := r.1.sum len x; (s.1, r.2.join s.2)) (c, .none))

/-- A contribution in a delivery or wire format. -/
def Contrib.toFormat (half : Bool) (c : Contrib) : Contrib × Fl :=
  let r := Machine.toFormat half c.vals
  ({ c with vals := r.1 }, r.2)

/-! ### Wire forms (Tables 13-4 and 13-6) -/

/-- Bytes with one poison mark. -/
def marked (bad : Bool) (bs : List Byte) : List (Byte × Bool) := bs.map (fun b => (b, bad))

/-- Dense bytes of values in FP32 or, where every value is a BF16 one, BF16. -/
def denseBytes (half : Bool) (xs : List (Nat × Bool)) : List (Byte × Bool) :=
  xs.flatMap (fun x => marked x.2 (if half then leBytes 2 (x.1 / 65536) else leBytes 4 x.1))

/-- Bits of a list, least significant first, in bytes. -/
def packBits : Nat → List Bool → List Byte
  | 0, _ => []
  | n + 1, bs =>
    BitVec.ofNat 8 (((List.range 8).map (fun i => (bs.getD i false).toNat * 2 ^ i)).sum) :: packBits n (bs.drop 8)

/-- TOPK's bytes: the count, then position and value of each entry. -/
def topkBytes (k : Nat) (xs : List (Nat × Bool)) : List (Byte × Bool) :=
  let sel := topkSelect k xs
  marked (xs.any (·.2)) (leBytes 4 sel.length ++ leBytes 4 0
    ++ sel.flatMap (fun p => leBytes 4 p ++ leBytes 4 (xs.getD p (0, false)).1))

/-- SIGN's bytes: a, then one bit per element. -/
def signBytes (xs : List (Nat × Bool)) : List (Byte × Bool) :=
  marked (xs.any (·.2)) (leBytes 4 ((xs.getD 0 (0, false)).1 % 2 ^ 31)
    ++ packBits ((xs.length + 7) / 8) (xs.map (fun x => x.1.testBit 31)))

/-- A row value's bytes: the count, the indices, the rows. -/
def rowBytes (half : Bool) (c : Contrib) : List (Byte × Bool) :=
  let rs := c.rows.getD []
  marked false (leBytes 4 rs.length ++ rs.flatMap (leBytes 4)) ++ denseBytes half c.vals

/-- FORM codes (Table 13-6): a dense form, and a result. -/
def denseForm (half : Bool) : Nat := if half then 1 else 0

/-- FORM of a result. -/
def resultForm (half : Bool) : Nat := if half then 6 else 5

/-- Element `i` of dense bytes, widened exactly to FP32. -/
def denseElem (half : Bool) (b : List (Byte × Bool)) (i : Nat) : Nat × Bool :=
  let d := if half then (b.drop (2 * i)).take 2 else (b.drop (4 * i)).take 4
  (if half then leNat (rdBytes d) * 65536 else leNat (rdBytes d), rdPoison d)

/-- Values of dense bytes. -/
def denseVals (half : Bool) (b : List (Byte × Bool)) (n : Nat) : List (Nat × Bool) := (List.range n).map (denseElem half b)

/-- Expand a TOPK contribution (R351). -/
def topkExpand (b : List (Byte × Bool)) (n : Nat) : List (Nat × Bool) :=
  let w := fun (o : Nat) => leNat (rdBytes ((b.drop o).take 4))
  let es := (List.range (w 0)).map (fun i => (w (8 + 8 * i), w (12 + 8 * i)))
  (List.range n).map (fun p => (((es.find? (fun e => e.1 == p)).map (·.2)).getD 0, rdPoison b))

/-- Expand a SIGN contribution. -/
def signExpand (b : List (Byte × Bool)) (n : Nat) : List (Nat × Bool) :=
  let a := leNat (rdBytes (b.take 4))
  (List.range n).map (fun i =>
    (a + (if (b.getD (4 + i / 8) (0, false)).1.toNat.testBit (i % 8) then 2 ^ 31 else 0), rdPoison b))

/-- Read rows whose count and indices stand first, the indices in a list of `room` places and the rows after it: a core's area
(R341), or a transfer, whose list is as long as its count. -/
def rowRead (half : Bool) (room : Option Nat) (b : List (Byte × Bool)) (len : Nat) : Contrib :=
  let c := leNat (rdBytes (b.take 4))
  let k := room.getD c
  ⟨some ((List.range (min c k)).map (fun i => leNat (rdBytes ((b.drop (4 + 4 * i)).take 4)))),
    denseVals half (b.drop (4 + 4 * k)) (min c k * len)⟩

/-- Bytes of a row value with `c` rows. -/
def rowLength (half : Bool) (c len : Nat) : Nat := 4 + 4 * c + c * len * (if half then 2 else 4)

end Sys2Proof.Machine
end

