-- ==== Sys2Proof/Machine/Aes.lean ====
section
/-! DEFINITION. AES-256 (FIPS 197) and the counter mode of etched blocks (11_streams.md R298). -/

namespace Sys2Proof.Machine

/-- Multiplication by x in GF(2^8). -/
def gfDouble (a : Nat) : Nat := if a < 128 then 2 * a else (2 * a - 256) ^^^ 0x1B

/-- Multiplication in GF(2^8), over the low `n` bits of the second factor. -/
def gfMulFrom : Nat → Nat → Nat → Nat
  | 0, _, _ => 0
  | n + 1, a, b => (if b % 2 = 1 then a else 0) ^^^ gfMulFrom n (gfDouble a) (b / 2)

/-- Multiplication in GF(2^8). -/
def gfMul (a b : Nat) : Nat := gfMulFrom 8 a b

/-- The inverse in GF(2^8), a^254; 0 for 0. -/
def gfInv (a : Nat) : Nat :=
  let a2 := gfMul a a
  let a3 := gfMul a2 a
  let a12 := gfMul (gfMul a3 a3) (gfMul a3 a3)
  let a15 := gfMul a12 a3
  let a30 := gfMul a15 a15
  let a60 := gfMul a30 a30
  let a120 := gfMul a60 a60
  let a240 := gfMul a120 a120
  gfMul (gfMul a240 a12) a2

/-- A byte turned left by `n`. -/
def rotByte (a n : Nat) : Nat := a * 2 ^ n % 256 + a * 2 ^ n / 256

/-- SubBytes on one byte. -/
def aesSub (a : Nat) : Nat :=
  let b := gfInv a
  b ^^^ rotByte b 1 ^^^ rotByte b 2 ^^^ rotByte b 3 ^^^ rotByte b 4 ^^^ 0x63

/-- Bytewise exclusive-or. -/
def xorBytes (a b : List Nat) : List Nat := List.zipWith (· ^^^ ·) a b

/-- The next word of the key schedule: word `i` from the word before it and the word eight before. -/
def aesNextWord (i : Nat) (prev back : List Nat) : List Nat :=
  let t := if i % 8 = 0 then
      match (prev.drop 1 ++ prev.take 1).map aesSub with
      | a :: r => (a ^^^ 2 ^ (i / 8 - 1)) :: r
      | [] => []
    else if i % 8 = 4 then prev.map aesSub else prev
  xorBytes t back

/-- Extend the key schedule by `n` words, newest first, the next being word `i`. -/
def aesExpand : Nat → Nat → List (List Nat) → List (List Nat)
  | 0, _, ws => ws
  | n + 1, i, ws => aesExpand n (i + 1) (aesNextWord i (ws.getD 0 []) (ws.getD 7 []) :: ws)

/-- The 60 words of the key schedule of a 32-byte key, in order. -/
def aesSchedule (key : List Nat) : List (List Nat) :=
  (aesExpand 52 8 ((List.range 8).map (fun i => (key.drop (28 - 4 * i)).take 4))).reverse

/-- Round key `r`. -/
def aesRoundKey (ws : List (List Nat)) (r : Nat) : List Nat := ((ws.drop (4 * r)).take 4).flatten

/-- ShiftRows on the 16 bytes of the state, column by column. -/
def aesShift (s : List Nat) : List Nat := (List.range 16).map (fun i => s.getD ((i + 4 * (i % 4)) % 16) 0)

/-- MixColumns on one column. -/
def aesMixCol (c : List Nat) : List Nat :=
  (List.range 4).map (fun i => gfDouble (c.getD i 0) ^^^ (gfDouble (c.getD ((i + 1) % 4) 0) ^^^ c.getD ((i + 1) % 4) 0)
    ^^^ c.getD ((i + 2) % 4) 0 ^^^ c.getD ((i + 3) % 4) 0)

/-- MixColumns. -/
def aesMix (s : List Nat) : List Nat := (List.range 4).flatMap (fun c => aesMixCol ((s.drop (4 * c)).take 4))

/-- One round before the last. -/
def aesRound (ws : List (List Nat)) (s : List Nat) (r : Nat) : List Nat :=
  xorBytes (aesMix (aesShift (s.map aesSub))) (aesRoundKey ws r)

/-- AES-256 encryption of one 16-byte block. -/
def aes256 (key : List Byte) (block : List Byte) : List Byte :=
  let ws := aesSchedule (key.map BitVec.toNat)
  let s0 := xorBytes (block.map BitVec.toNat) (aesRoundKey ws 0)
  let s := (List.range 13).foldl (fun s r => aesRound ws s (r + 1)) s0
  (xorBytes (aesShift (s.map aesSub)) (aesRoundKey ws 14)).map (BitVec.ofNat 8)

/-- The counter block of payload unit `u` of block `b` of a tensor (Table 11-7). -/
def ctrBlock (tensor b u : Nat) : List Byte := leBytes 4 tensor ++ leBytes 4 b ++ leBytes 4 0 ++ beBytes 4 u

/-- Payload units in counter mode: `n` of them, from unit `u` on. -/
def ctrRun (key : List Byte) (tensor b : Nat) : Nat → Nat → List Byte → List Byte
  | 0, _, _ => []
  | n + 1, u, bs =>
    List.zipWith (fun x y => x ^^^ y) (bs.take 16) (aes256 key (ctrBlock tensor b u)) ++ ctrRun key tensor b n (u + 1) (bs.drop 16)

/-- A payload decrypted (R298). -/
def etchDecrypt (key : List Byte) (tensor b : Nat) (payload : List Byte) : List Byte :=
  ctrRun key tensor b (payload.length / 16 + 1) 0 payload

end Sys2Proof.Machine
end

