-- ==== Sys2Proof/Machine/Etch.lean ====
section
/-! DEFINITION. Etched blocks as data (11_streams.md R295 to R302): tensor headers, block checks, canonical codes, decoding,
conversion of expanded elements. -/

namespace Sys2Proof.Machine

/-- What an etched tensor's header says (Table 11-5). -/
structure EtchHdr where
  ok : Bool
  tensor : Nat
  blocks : Nat
  lastRaw : Nat
  indexOff : Nat
  dataOff : Nat
  enc : Bool
deriving DecidableEq, Repr

/-- Read a header; MAGIC and HDR_CRC are checked, and a poisoned one fails (R299). -/
def EtchHdr.ofBytes (d : List (Byte × Bool)) : EtchHdr :=
  let b := d.map (·.1)
  let n := fun (o w : Nat) => leNat ((b.drop o).take w)
  ⟨n 0 4 == 0x45584C53 && n 0x3C 4 == crc32c (b.take 0x3C) && !d.any (·.2), n 4 4 % 2 ^ 20, n 8 4, n 0xC 4,
    n 0x10 8 % 2 ^ 48, n 0x18 8 % 2 ^ 48, n 0x21 1 % 2 == 1⟩

/-- Raw bytes of block `b` (R296). -/
def EtchHdr.raw (h : EtchHdr) (b : Nat) : Nat := if b + 1 = h.blocks then h.lastRaw else 4096

/-- Fields of a block header (Table 11-6). -/
def blkGen (b : List Byte) : Nat := leNat (b.take 1)
/-- MODE byte of a block. -/
def blkMode (b : List Byte) : Nat := leNat ((b.drop 1).take 1)
/-- RAW_LEN of a block. -/
def blkRaw (b : List Byte) : Nat := leNat ((b.drop 2).take 2)
/-- CODED_LEN of a block. -/
def blkCoded (b : List Byte) : Nat := leNat ((b.drop 4).take 2)
/-- ALIVE of a block. -/
def blkAlive (b : List Byte) : Nat := leNat ((b.drop 6).take 2)
/-- CRC of a block. -/
def blkCrc (b : List Byte) : Nat := leNat ((b.drop 8).take 4)

/-- Bytes to stage of a block whose header is given: at most 4,112 (R296). -/
def blkStage (hdr : List Byte) : Nat := max 16 (min 4112 (blkCoded hdr))

/-- `n` rounded up to a multiple of 16. -/
def up16 (n : Nat) : Nat := (n + 15) / 16 * 16

/-- Do RAW_LEN and CODED_LEN agree with R296: the raw length the block must have, 1 to 4,096, a coded length within its limits and, for a
block that is not coded, of just the payload its mode has? -/
def blkLengthsOk (b : List Byte) (raw : Nat) : Bool :=
  let c := blkCoded b
  blkRaw b == raw && decide (1 ≤ raw) && decide (raw ≤ 4096) && decide (16 ≤ c) && c % 16 == 0 && decide (c ≤ 16 + up16 raw)
    && (blkMode b % 4 != 0 || c == 16 + up16 raw) && (blkMode b % 4 != 2 || c == 16)

/-- Codewords by symbol: length and canonical code (R297), for the symbols of length `n` from code `code` on. -/
def canonAt (n code : Nat) : List (Nat × Nat) → List (Nat × Nat × Nat) × Nat
  | [] => ([], code)
  | (sym, l) :: rest =>
    if l = n then
      let r := canonAt n (code + 1) rest
      ((code, n, sym) :: r.1, r.2)
    else canonAt n code rest

/-- The canonical codewords of lengths `n`, `n` + 1, … (R297): code, length, symbol. -/
def canonFrom (lens : List (Nat × Nat)) : Nat → Nat → Nat → List (Nat × Nat × Nat)
  | 0, _, _ => []
  | k + 1, n, code =>
    let r := canonAt n code lens
    r.1 ++ canonFrom lens k (n + 1) (2 * r.2)

/-- The canonical code of 256 lengths. -/
def canonical (lengths : List Nat) : List (Nat × Nat × Nat) := canonFrom ((List.range lengths.length).zip lengths) 15 1 0

/-- Decode `want` symbols from a bit string, having read `len` bits of value `code` of the next; none where it ends first. -/
def decodeBits (codes : List (Nat × Nat × Nat)) : Nat → Nat → Nat → List Bool → Option (List Byte)
  | want, _, _, [] => if want = 0 then some [] else none
  | want, code, len, b :: bs =>
    if want = 0 then some []
    else
      let c := 2 * code + b.toNat
      match codes.find? (fun e => e.1 == c && e.2.1 == len + 1) with
      | some e => (decodeBits codes (want - 1) 0 0 bs).map (fun r => BitVec.ofNat 8 e.2.2 :: r)
      | none => decodeBits codes want c (len + 1) bs

/-- The bits of bytes, from bit 0 of each upward. -/
def bitString (bs : List Byte) : List Bool := bs.flatMap (fun b => (List.range 8).map (fun i => b.getLsbD i))

/-- A CODED payload decoded (R296, R297). -/
def etchDecode (t : DecTable) (raw : Nat) (payload : List Byte) : Option (List Byte) :=
  decodeBits (canonical t.lengths) raw 0 0 (bitString payload)

/-- Elements of a run of bytes in a format, least bits first. -/
def elemsOf (f : Fmt) (bs : List Byte) : List Nat :=
  if f.bits = 4 then bs.flatMap (fun b => [b.toNat % 16, b.toNat / 16])
  else (List.range (bs.length * 8 / f.bits)).map (fun i => leNat ((bs.drop (i * (f.bits / 8))).take (f.bits / 8)))

/-- Bytes of a run of elements. -/
def elemBytes (f : Fmt) : List Nat → List Byte
  | [] => []
  | [c] => if f.bits = 4 then leBytes 1 (c % 16) else leBytes (f.bits / 8) c
  | c :: d :: rest =>
    if f.bits = 4 then leBytes 1 (c % 16 + 16 * (d % 16)) ++ elemBytes f rest else leBytes (f.bits / 8) c ++ elemBytes f (d :: rest)

/-- Expanded elements converted to the window format (R301): default overflow mode, no FTZ. -/
def etchConvert (cvt : Option (Nat × Nat)) (bs : List Byte) : List Byte × Fl :=
  match cvt with
  | none => (bs, .none)
  | some (a, b) =>
    let f := (Fmt.ofCode a).getD .fp32
    let g := (Fmt.ofCode b).getD .fp32
    let cs := (elemsOf f bs).map (fun c => g.round g.defaultOvf false .nearest (f.decode c))
    (elemBytes g (cs.map (·.code)), cs.foldl (fun fl c => fl.join c.fl) .none)

/-- Bytes that `n` raw bytes take in the window (R301). -/
def cvtBytes (cvt : Option (Nat × Nat)) (n : Nat) : Nat :=
  match cvt with
  | none => n
  | some (a, b) =>
    let bits := fun c => ((Fmt.ofCode c).getD .fp32).bits
    (n * 8 / bits a * bits b + 7) / 8

/-- A decode table is valid (R302): the reason it is not, 0 MAGIC or CRC, 1 lengths. -/
def tableFault (t : List Byte) : Option Nat :=
  let n := fun (o w : Nat) => leNat ((t.drop o).take w)
  if n 0 4 ≠ 0x54584C53 ∨ n 8 4 ≠ crc32c ((t.drop 16).take 128) then some 0
  else
    let lens : List Nat := ((t.drop 16).take 128).flatMap (fun b => [b.toNat % 16, b.toNat / 16])
    if (lens.map (fun (l : Nat) => if l = 0 then (0 : Nat) else 2 ^ (15 - l))).sum = 2 ^ 15 then none else some 1

end Sys2Proof.Machine
end

