-- ==== Sys2Proof/Machine/FabricPorts.lean ====
section
/-! DEFINITION. The commands of the fabric ports (12_fabric_ports.md R306 to R337): training, flits received and sent,
markers, faults, end-to-end acknowledgement, remote memory accesses. -/

namespace Sys2Proof.Machine

/-- PROBE_TIMER: a DOWN port of a running module begins its training frames of the next 10 ms (R308); they end after 100 µs. -/
def execProbeTimer (port : Nat) (s : State) : Host.Outcome State Fault Refusal :=
  .next (s.unit (fun m =>
    let x := m.port port
    if x.st = .down then (m.setPort port { x with probing := true, probeTicks := 0 }).emit (.trainFrame port) else m))

/-- SIGNAL_DETECTED: a DOWN port that detects its neighbour's signal starts TRAINING (R308, Table 12-6). -/
def execSignalDetected (port : Nat) (s : State) : Host.Outcome State Fault Refusal :=
  .next (s.unit (fun m =>
    let x := m.port port
    if x.st = .down then (m.setPort port { x with st := .training, probing := false, attempts := 0, lanes := 0, nbr := none }).trace 7 port 2 0 else m))

/-- TRAINING_END: an attempt ends with `lanes` trained: 8; 4 on one half, with the mask of the lanes that failed; any other count
when the attempt fails. `delay` is the measured one-way delay in ns. A port whose lanes are trained sends its first CONTROL flit,
and leaves TRAINING when it has the neighbour's too. A port degraded since its last port reset stays at x4. No four lanes of one
half, or three attempts that fail, take the port to FAILED (R307, R316, R321, R322, Table 12-6). -/
def execTrainingEnd (port lanes failed delay : Nat) (s : State) : Host.Outcome State Fault Refusal :=
  .next (s.unit (fun m =>
    let x := m.port port
    if x.st ≠ .training then m
    else
      let bad := x.failedLanes ||| failed
      match keptHalf bad with
      | none => m.portTo port .failed 3
      | some half =>
        if lanes = 8 ∨ lanes = 4 then
          if 500 < delay then m.portTo port .failed 9
          else
            m.setPort port { x with lanes := if lanes = 8 ∧ bad = 0 then 8 else 4, half := half, failedLanes := bad,
                                    ctlDue := true }
        else if 2 ≤ x.attempts then m.portTo port .failed 3
        else m.setPort port { x with attempts := x.attempts + 1, lanes := 0, ctlDue := false, nbr := none }))

/-- The transport header and payload of a received flit. -/
def flitTransport (f : FlitIn) : TFlit :=
  ⟨f.dest, f.src, f.type, f.cls, f.vl, f.poison, f.retx, f.last, f.hops, f.e2e, f.tag, f.addr, f.len, f.payload, none⟩

/-- A flit is refused: counted in FAB_CRC and answered with NAK (R310). -/
def Mod.refuseFlit (m : Mod) (p : Nat) (f : FlitIn) : Mod :=
  let x := m.port p
  let m1 := (m.setPort p { x with ackDue := some false }).fsat Fld.FAB_CRC_COUNT 1 p
  if f.fec then m1.fsat Fld.FAB_FEC_UNCORR_COUNT 1 p else m1

/-- What a good flit's ACK and CREDIT fields do (R311, R314, R315). -/
def Mod.takeLinkHeader (m : Mod) (p : Nat) (f : FlitIn) : Mod :=
  let x := m.port p
  let credits := (List.range 6).foldl (fun c k => kvSet c k (kvGetD c k 0 + f.credits.getD k 0)) x.credits
  let y := { x with credits := credits }
  if f.ackValid then m.setPort p (y.acked f.ackSeq)
  else if f.nak then (m.setPort p (y.acked f.ackSeq)).retryRound p
  else m.setPort p y

/-- A PAYLOAD flit: accepted when its SEQ is the next one expected, else discarded and answered with NAK only if none has been
sent since the last flit accepted (R314). An accepted flit for this module is delivered; any other is forwarded (R331). -/
def Mod.takePayload (m : Mod) (p : Nat) (f : FlitIn) : Mod :=
  let x := m.port p
  if x.st ≠ .active then m
  else if f.seq = x.rxSeq then
    let m1 := m.setPort p { x with rxSeq := (x.rxSeq + 1) % 4096, ackDue := some true, nakSent := false, rxCount := x.rxCount + 1 }
    let t := flitTransport f
    if t.dest = m.self then m1.deliver p t else (m1.transit p t).freeEntry p t
  else if x.nakSent ∨ x.ackDue = some false then m
  else m.setPort p { x with ackDue := some false }

/-- A TEST flit is counted, with an error when its pattern is wrong (R309, FAB_TEST_CNT). -/
def Mod.takeTest (m : Mod) (p : Nat) (f : FlitIn) : Mod :=
  if (m.port p).st ≠ .quarantine ∧ (m.port p).st ≠ .active then m else
  let m1 := m.fsat Fld.FAB_TEST_CNT_FLITS 1 p
  if f.testBad then m1.fsat Fld.FAB_TEST_CNT_ERRORS 1 p else m1

/-- FLIT_RECEIVED: a flit that fails its CRC, lies in an uncorrectable FEC codeword or has a reserved KIND is refused, and its
ACK and CREDIT fields are ignored; of any other these are taken, and a PAYLOAD or TEST flit is handled (R310, R314). -/
def execFlitReceived (port : Nat) (f : FlitIn) (s : State) : Host.Outcome State Fault Refusal :=
  .next (s.unit (fun m =>
    if !((m.port port).st == .quarantine || (m.port port).st.carries) then m
    else if !f.ok || f.fec || decide (3 < f.kind) then m.refuseFlit port f
    else
      let m1 := m.takeLinkHeader port f
      if f.kind = 1 then m1.takePayload port f else if f.kind = 2 then m1.takeTest port f else m1))

/-- FLIT_SLOT (R312). -/
def execFlitSlot (port phase turn : Nat) (s : State) : Host.Outcome State Fault Refusal :=
  .next (s.unit (fun m => m.flitSlot port phase turn))

/-- LINK_RETRY_TIMEOUT: 2 µs with unacknowledged flits and no acknowledgement (R315). -/
def execLinkRetryTimeout (port : Nat) (s : State) : Host.Outcome State Fault Refusal :=
  .next (s.unit (fun m => if (m.port port).st = .active then m.retryRound port else m))

/-- CREDIT_WAIT_LONG: flits of a class and VL have waited without credit for more than 100 µs; at most once per port per
step (R313). -/
def execCreditWaitLong (port cls vl us : Nat) (s : State) : Host.Outcome State Fault Refusal :=
  .next (s.unit (fun m =>
    let x := m.port port
    if 100 < us && !x.creditRaised && x.queue.any (fun f => f.cls == cls && f.vl == vl) && x.credit cls vl == 0 then
      ((m.setPort port { x with creditRaised := true }).fset Fld.FAB_ERR_CREDIT_WAIT 1 port).raise .contained 0x0B05 port
        (cls + 4 * vl) us
    else m))

/-- A module and port as NBR_MISMATCH's detail words hold them. -/
def identWord (module port : Nat) : Nat := module + 2 ^ 16 * port

/-- CONTROL_FLIT_RECEIVED: the neighbour's identity, epoch and hash are copied; an ACTIVE port is confirmed by a report of
ACTIVE under a plate of equal EPOCH, and returns to QUARANTINE with NBR_STATE by any other, with NBR_MISMATCH when the identity
no longer matches (R323, R325, R326). One that reaches a port in TRAINING whose lanes are trained is the first of the exchange
(R321). -/
def execControlFlitReceived (port : Nat) (body : CtlRec) (s : State) : Host.Outcome State Fault Refusal :=
  .next (s.unit (fun m =>
    let x := m.port port
    if !(x.st == .quarantine || x.st == .active || x.st == .training && x.lanes != 0) then m
    else
      let m1 := m.setPort port { x with nbr := some body, loopback := body.module == m.self }
      if x.st ≠ .active then m1.exchanged port
      else
        match (m.routes.map (·.nbr)).bind (fun t => kvGet? t port) with
        | some e =>
          if e.1 ≠ body.module ∨ e.2 ≠ body.port then
            ((m1.portTo port .quarantine 6).fset Fld.FAB_ERR_NBR_MISMATCH 1 port).raise .contained 0x0B03 port
              (identWord e.1 e.2) (identWord body.module body.port) body.epoch
          else if body.state = 4 ∧ body.active ∧ body.epoch = m.epoch then
            m1.setPort port { m1.port port with confirmed := true }
          else m1.portTo port .quarantine 5
        | none => m1.portTo port .quarantine 5))

/-! ### Markers -/

/-- Is the port the upstream port in use (02_plate_and_tick.md R59)? -/
def Mod.isUpstream (m : Mod) (p : Nat) : Bool := m.tick.source == 1 && m.tick.port == p && m.tick.edgeSeen

/-- Raise TICK_PERIOD_MISMATCH once for a port whose markers show another period (R63). -/
def Mod.periodMismatch (m : Mod) (p period : Nat) : Mod :=
  if m.tick.periodBad.contains p then m
  else Mod.raise { m with tick := { m.tick with periodBad := setAdd m.tick.periodBad p } } .contained 0x0303 p period
    (m.fget Fld.TCK_PERIOD_PERIOD_US)

/-- The number of the boundary a mark arriving now belongs to: the nearest one (R318). -/
def Mod.nearBoundary (m : Mod) : Nat :=
  if m.tickLen ≤ 2 * m.tick.cycle then (m.tick.count + 1) % 2 ^ 48 else m.tick.count

/-- The upstream markers carry another count (R60): adopted at the next boundary while no plate is active, else reported. -/
def Mod.countMismatch (m : Mod) (p count : Nat) : Mod :=
  if m.plateActive then
    (Mod.fset { m with tick := { m.tick with aligned := false } } Fld.TCK_ERR_COUNT_MISMATCH 1).raise .device 0x0301 p
      (lo32 m.nearBoundary) (lo32 count)
  else
    let step := if m.nearBoundary = m.tick.count then 1 else 0
    { m with tick := { m.tick with adopt := some ((count + step) % 2 ^ 48) } }

/-- MARK_RECEIVED: the neighbour's marked flit arrives at `arrival` ps from this module's boundary, with its MARK_PHASE, tick
number and period; the arrival is recorded and the echo becomes due (R317). A mark of another period is reported once (R63);
one of another count on the upstream port is handled by R60. -/
def execMarkReceived (port : Nat) (arrival : Int) (phase count period : Nat) (s : State) : Host.Outcome State Fault Refusal :=
  .next (s.unit (fun m =>
    let x := m.port port
    if !(x.st == .quarantine || x.st.carries || x.st == .training) then m
    else
      let m1 := m.setPort port { x with nbrMark := some (arrival, phase, count, period), echoDue := true }
      if period ≠ m.fget Fld.TCK_PERIOD_PERIOD_US then
        Mod.periodMismatch { m1 with tick := { m1.tick with valid := kvSet m1.tick.valid port 0 } } port period
      else if count ≠ m.nearBoundary then
        let m2 := { m1 with tick := { m1.tick with valid := kvSet m1.tick.valid port 0 } }
        if m.isUpstream port then m2.countMismatch port count else m2
      else
        { m1 with tick := { m1.tick with valid := kvSet m1.tick.valid port (kvGetD m1.tick.valid port 0 + 1) } }))

/-- ECHO_RECEIVED: the echo arrives at `arrival` ps from this module's boundary with ECHO_TURN `turn`; delay and offset are
computed and reported (R318); a delay beyond 500 ns fails the port (R316), an offset beyond 16 ns takes it out of ACTIVE
(R319). A measurement whose two marks are not of one tick number, as when a marked flit was lost, is discarded. -/
def execEchoReceived (port : Nat) (arrival : Int) (turn : Nat) (s : State) : Host.Outcome State Fault Refusal :=
  .next (s.unit (fun m =>
    let x := m.port port
    match x.ownMark, x.nbrMark with
    | some (ts, own), some (ta, phase, count, _) =>
      if own ≠ count then m.setPort port { x with ownMark := none }
      else if !(x.st == .quarantine || x.st.carries || x.st == .training) then m
      else
        let delay := ((arrival - ts) - turn) / 2
        let off := ta - delay - phase
        let m1 := m.setPort port { x with skew := some ((delay / 10).toNat, off / 10), ownMark := none }
        let m2 := if m.isUpstream port then m1.upstreamOffset port off else m1
        if 500000 < delay then m2.portTo port .failed 9
        else if 16000 < off.natAbs then
          let m3 := (m2.fset Fld.FAB_ERR_SKEW 1 port).raise .contained 0x0B04 port ((off / 10) % 2 ^ 32).toNat (delay / 10).toNat
          if x.st = .active then m3.portTo port .quarantine 4 else m3
        else m2
    | _, _ => m))

/-! ### Faults and resets of a port -/

/-- LANE_FAILURE: with every failed lane in one half, an ACTIVE port enters RETRAIN at x4 on the other half, keeping its retry
buffer, and raises PORT_DEGRADED (R328); failed lanes in both halves, or one in the half a degraded port keeps, take it DOWN
(R329). A lane of the half that is out of use changes nothing.
What R328 does is the same for each way a lane fails. -/
def execLaneFailure (port lanes : Nat) (_why : LaneFault) (s : State) : Host.Outcome State Fault Refusal :=
  .next (s.unit (fun m =>
    let x := m.port port
    let bad := x.failedLanes ||| lanes
    if !x.st.carries || lanes % 256 == 0 then m
    else match keptHalf bad with
      | none => (m.setPort port { x with failedLanes := bad }).portTo port .down 3
      | some half =>
        if x.lanes = 4 then m.setPort port { x with failedLanes := bad }
        else
          let y := { x with st := .retrain, lanes := 4, half := half, failedLanes := bad, ownMark := none, nbrMark := none }
          (((m.setPort port y).fset Fld.FAB_STATUS_CAUSE 3 port).trace 7 port 5 3).degraded port lanes half))

/-- RETRAIN_COMPLETE: x4 trained; the port returns to ACTIVE and retransmits from the neighbour's last accepted SEQ (R328). One that
an activation no longer names goes on to QUARANTINE (Table 12-6). -/
def execRetrainComplete (port lastAccepted : Nat) (s : State) : Host.Outcome State Fault Refusal :=
  .next (s.unit (fun m =>
    let x := m.port port
    if x.st ≠ .retrain then m
    else
      let y := x.acked lastAccepted
      let m1 := (m.setPort port { y with st := .active, resend := if y.retry.length = 0 then none else some 0 }).trace 7 port 4 3
      if m.activePorts.contains port then m1 else m1.portTo port .quarantine 10))

/-- RETRAIN_TIMEOUT: x4 not trained within 400 µs (Table 12-6). -/
def execRetrainTimeout (port : Nat) (s : State) : Host.Outcome State Fault Refusal :=
  .next (s.unit (fun m => if (m.port port).st = .retrain then m.portTo port .down 3 else m))

/-- PORT_LINK_LOSS: loss of signal (1), the end of retry (2) or loss of lanes of both halves (3) takes the port DOWN (R329);
loss of signal takes one in QUARANTINE DOWN (Table 12-6). -/
def execPortLinkLoss (port cause : Nat) (s : State) : Host.Outcome State Fault Refusal :=
  .next (s.unit (fun m =>
    let st := (m.port port).st
    if st.carries then m.portTo port .down (if cause = 2 ∨ cause = 3 then cause else 1)
    else if st = .quarantine then m.portTo port .down 1
    else m))

/-- Volatile registers of a port that a port reset returns to their defaults (R327); the state's own follow from it. -/
def portRegs : List RegSpec := [Reg.FAB_TEST_CNT, Reg.FAB_UTIL]

/-- FAB_CTRL.RESET (R327): flits are routed again, the retry buffer is discarded, volatile registers default, the port goes
DOWN with cause RESET; it trains again when a signal is detected. -/
def Mod.portReset (m : Mod) (p : Nat) : Mod :=
  let m1 := m.portTo p .down 8
  { m1 with regs := m1.regs.defaultInst portRegs p }

/-- PORT_RESET (R327). -/
def execPortReset (port : Nat) (s : State) : Host.Outcome State Fault Refusal :=
  .next (s.reg Reg.FAB_CTRL.base (fun m => m.portReset port))

/-- FAB_CTRL.TEST_START (R320): TEST flits on a port in QUARANTINE or ACTIVE; the test counts are cleared. -/
def Mod.testStart (m : Mod) (p : Nat) : Mod :=
  let x := m.port p
  if x.st = .quarantine ∨ x.st = .active then
    ((m.setPort p { x with test := true }).fset Fld.FAB_TEST_CNT_FLITS 0 p).fset Fld.FAB_TEST_CNT_ERRORS 0 p
  else m

/-- TEST_START (R320). -/
def execTestStart (port : Nat) (s : State) : Host.Outcome State Fault Refusal :=
  .next (s.reg Reg.FAB_CTRL.base (fun m => m.testStart port))

/-- FAB_CTRL.TEST_STOP (R320). -/
def Mod.testStop (m : Mod) (p : Nat) : Mod := m.setPort p { m.port p with test := false }

/-- TEST_STOP (R320). -/
def execTestStop (port : Nat) (s : State) : Host.Outcome State Fault Refusal :=
  .next (s.reg Reg.FAB_CTRL.base (fun m => m.testStop port))

/-! ### End-to-end acknowledgement -/

/-- Flits that waited for room are sent while the flow has room (R333). -/
def TxFlow.refill (w : TxFlow) : TxFlow × List TFlit :=
  let n := flowWindow - w.unacked.length
  ({ w with unacked := w.unacked ++ w.waiting.take n, waiting := w.waiting.drop n }, w.waiting.take n)

/-- E2E_ACK's work: the first acknowledgement delivered advances the acknowledged point of its flow (R335). -/
def Mod.e2eAck (m : Mod) : Mod :=
  match m.takeFlit (fun f => f.type == 6) with
  | none => m
  | some (f, m1) =>
    let k := flowKey f.src (f.tag % 4)
    let w := kvGetD m1.fab.tx k .rest
    if w.unacked.any (fun g => g.seq == f.addr % 2 ^ 32) then
      let rest := (w.unacked.dropWhile (fun g => g.seq != f.addr % 2 ^ 32)).drop 1
      let (w1, out) := TxFlow.refill { w with unacked := rest, timeouts := 0 }
      out.foldl Mod.launch { m1 with fab := { m1.fab with tx := kvSet m1.fab.tx k w1, lostTo := setDel m1.fab.lostTo k } }
    else m1

/-- E2E_ACK_DUE: within 2 µs of the oldest applied flit not yet acknowledged, the destination sends E2E_ACK (R335). -/
def execE2eAckDue (src cls : Nat) (s : State) : Host.Outcome State Fault Refusal :=
  .next (s.unit (fun m => if (kvGetD m.fab.rx (flowKey src cls) .rest).due then m.sendAck src cls else m))

/-- A remote read whose request was given up completes, every byte poisoned (R335). -/
def FabUnit.readLost (u : FabUnit) (f : TFlit) : FabUnit :=
  if f.type ≠ 2 then u
  else match kvGet? u.reads f.tag with
    | some r => { u with reads := kvSet u.reads f.tag { r with got := [(0, List.replicate r.len ((0xFF : Byte), true))], poisoned := true } }
    | none => u

/-- A flow is given up (R335): its unacknowledged transfers complete poisoned. -/
def FabUnit.giveUp (u : FabUnit) (k : Nat) (w : TxFlow) : FabUnit :=
  let fs := w.unacked ++ w.waiting
  let v := fs.foldl FabUnit.readLost u
  { v with tx := kvSet v.tx k { w with unacked := [], waiting := [], timeouts := 0 }, lostTo := setAdd v.lostTo k,
           lost := v.lost ++ fs.filter (fun f => f.type == 1) }

/-- E2E_TIMEOUT: 100 µs without acknowledgement; the originator sends every unacknowledged flit again with RETX, and after
four timeouts without progress stops, its transfers poisoned, raising E2E_LOST (R335). -/
def execE2eTimeout (dest cls : Nat) (s : State) : Host.Outcome State Fault Refusal :=
  .next (s.unit (fun m =>
    let k := flowKey dest cls
    let w := kvGetD m.fab.tx k .rest
    match w.unacked with
    | [] => m
    | g :: _ =>
      if 3 ≤ w.timeouts then
        let m1 := { m with fab := m.fab.giveUp k w }
        (m1.fsat Fld.FAB_E2E_LOST_COUNT).raiseDual true .contained 0x0B08 0 dest cls g.seq
      else
        let again := w.unacked.map (fun f => { f with retx := true })
        let w1 : TxFlow := { w with unacked := again, timeouts := w.timeouts + 1 }
        again.foldl Mod.launch { m with fab := { m.fab with tx := kvSet m.fab.tx k w1 } }))

/-! ### Remote memory accesses -/

/-- May a remote write reach device address `a` (10_memory_tiers.md R249)? -/
def Mod.remoteWritable (m : Mod) (a : Nat) : Bool :=
  match m.region? a with
  | some r => r.kind == .plain || r.kind == .shed
  | none => false

/-- May a remote read reach device address `a` (R249)? -/
def Mod.remoteReadable (m : Mod) (a : Nat) : Bool :=
  match m.region? a with
  | some r => (r.kind == .plain || r.kind == .shed || r.kind == .state || r.kind == .deferred)
      && decide (a < r.base + r.length)
  | none => false

/-- The addresses at which a remote access of `n` bytes at `a` is judged (R249): one in each 64-byte sector it touches, its
first and its last. -/
def accessPoints (a n : Nat) : List Nat :=
  (a :: (a + (n - 1)) :: (List.range ((n + 63) / 64)).map (fun i => a / 64 * 64 + 64 * (i + 1))).filter
    (fun x => decide (a ≤ x) && decide (x < a + max n 1))

/-- Raise REMOTE_REFUSED for a requesting module (R249). -/
def Mod.remoteRefused (m : Mod) (src a : Nat) (write : Bool) : Mod :=
  m.raise .contained 0x0904 src (lo32 a) (hi32 a) (if write then 1 else 0)

/-- REMOTE_WRITE: the first WRITE flit delivered is applied to a PLAIN or SHED region, or refused (R249); one with POISON
marks the three sectors it covers (R337). -/
def execRemoteWrite (ecc : Ecc) (s : State) : Host.Outcome State Fault Refusal :=
  .next (s.unit (fun m =>
    match m.takeFlit (fun f => f.type == 1) with
    | none => m
    | some (f, m1) =>
      if !(accessPoints f.addr f.len).all m1.remoteWritable then m1.remoteRefused f.src f.addr true
      else if (m1.heldPort f.addr f.len).isSome then m
      else if f.poison then [0, 64, 128].foldl (fun x d => x.devMark (f.addr + d)) m1
      else
        let data := f.payload.take f.len
        ((m1.yard .fabric f.addr data.length true).mergeDev false f.addr data.length ecc).devWrite f.addr data))

/-- READ_RESP flits of a read: 192 bytes each at their offsets, LAST on the final one, POISON where a sector is poisoned. -/
def respFlits (req : TFlit) (data : List (Byte × Bool)) : Nat → Nat → List TFlit
  | 0, _ => []
  | n + 1, off =>
    if data.length ≤ off then []
    else
      let part := (data.drop off).take 192
      { req with dest := req.src, type := 3, poison := rdPoison part, last := decide (data.length ≤ off + 192), addr := off,
                 len := part.length, payload := rdBytes part } :: respFlits req data n (off + 192)

/-- READ_REQ: the first read request delivered is served from the live view of a region R249 allows, in READ_RESP flits of
the request's class and TAG; a refused one is answered with POISON (R249, R336, R337). -/
def execReadReq (ecc : Ecc) (s : State) : Host.Outcome State Fault Refusal :=
  .next (s.unit (fun m =>
    match m.takeFlit (fun f => f.type == 2) with
    | none => m
    | some (f, m1) =>
      let n := leNat (f.payload.take 4)
      if (accessPoints f.addr n).all m1.remoteReadable then
        if (m1.heldPort f.addr n).isSome then m
        else
        let m2 := (m1.yard .fabric f.addr n false).readDev false [(f.addr, n)] ecc
        m2.originateAll (respFlits f (m2.devRead f.addr n) (n / 192 + 1) 0)
      else
        let m2 := m1.remoteRefused f.src f.addr false
        m2.originateAll (respFlits f (List.replicate n ((0xFF : Byte), true)) (n / 192 + 1) 0)))

/-- Has a remote read received all its bytes? -/
def RemRead.complete (r : RemRead) : Bool := (r.got.map (fun e => e.2.length)).sum == r.len

/-- READ_RESP: the first response delivered is kept with the remote read its TAG names (R336), unless that has completed. -/
def execReadResp (s : State) : Host.Outcome State Fault Refusal :=
  .next (s.unit (fun m =>
    match m.takeFlit (fun f => f.type == 3) with
    | none => m
    | some (f, m1) =>
      match kvGet? m1.fab.reads f.tag with
      | some r =>
        if r.complete then m1
        else
        let r1 := { r with got := kvSet r.got f.addr ((f.payload.take f.len).map (fun b => (b, f.poison))), poisoned := r.poisoned || f.poison }
        { m1 with fab := { m1.fab with reads := kvSet m1.fab.reads f.tag r1 } }
      | none => m1))

/-- Ask another module for `n` bytes at `a` (R336): requests of up to 64 KiB, each with a tag of its own; the tags. -/
def Mod.askRemote (m : Mod) (module a : Nat) : Nat → Nat → Mod × List Nat
  | 0, _ => (m, [])
  | k + 1, n =>
    if n = 0 then (m, [])
    else
      let part := min n 65536
      let tag := m.fab.nextTag
      let f : TFlit := ⟨module, m.self, 2, 0, 0, false, false, true, 0, 0, tag, a, 4, leBytes 4 part, none⟩
      let m1 := { m with fab := { m.fab with nextTag := (tag + 1) % 2 ^ 24, reads := kvSet m.fab.reads tag ⟨module, part, [], false⟩ } }
      let (m2, ts) := (m1.originate f).askRemote module (a + part) k (n - part)
      (m2, tag :: ts)

/-- The bytes of a remote read with their poison, in order of offset. -/
def RemRead.bytes (r : RemRead) : List (Byte × Bool) :=
  (r.got.map (·.2)).flatten.map (fun b => (b.1, b.2 || r.poisoned && r.got.isEmpty))

/-- REMOTE_WRITE flits of bytes for a device address of another module: 192 bytes each, POISON where any is poisoned (R336,
R337). -/
def writeFlits (module self a : Nat) (data : List (Byte × Bool)) : Nat → List TFlit
  | 0 => []
  | n + 1 =>
    if data.isEmpty then []
    else
      let part := data.take 192
      ⟨module, self, 1, 0, 0, rdPoison part, false, decide (data.length ≤ 192), 0, 0, 0, a, part.length, rdBytes part, none⟩
        :: writeFlits module self (a + 192) (data.drop 192) n

end Sys2Proof.Machine
end

