-- ==== Sys2Proof/Machine/Streams.lean ====
section
/-! DEFINITION. Stream contexts and their tiles (11_streams.md R280 to R290): what starts and ends a tile, deadlines, where its
bytes come from and go, what becomes of tiles at a verdict, a replay and a reset. -/

namespace Sys2Proof.Machine

/-! ### Addresses -/

/-- The module of a fabric address (10_memory_tiers.md R249). -/
def fabModule (a : Nat) : Nat := a / 2 ^ 48 % 2 ^ 16

/-- The device address of a fabric address (R249). -/
def fabDev (a : Nat) : Nat := a % 2 ^ 48

/-- Is a fabric address another module's? One that carries the module's own ID is local (R249). -/
def Mod.remoteAddr (m : Mod) (a : Nat) : Bool := fabModule a != m.self

/-- The window tile `t` is delivered to; none for COPY and STASH (Table 11-3, R291). -/
def Mod.tileWindow (m : Mod) (d : StreamDesc) (t : Nat) : Option Nat :=
  match d.kind with
  | .fill | .walk => some (d.winBase + t % max d.ring 1)
  | .unstash => (m.padRec? d.winBase).map (·.inWindow)
  | .copy | .stash => none

/-- Device address of a shed window (10_memory_tiers.md R260). -/
def Mod.shedAddr (m : Mod) (w : Nat) : Nat :=
  (m.regions.findSome? (fun r => (r.windows.find? (fun x => x.id == w)).map (fun x => r.base + x.off))).getD 0

/-- A stable of the active plate by ID. -/
def Mod.stableRec? (m : Mod) (id : Nat) : Option StableRec := m.plate?.bind (fun p => p.stables.find? (fun s => s.id == id))

/-- The cores of a stable in ascending rank (03_cores.md R80). -/
def Mod.ranks (m : Mod) (id : Nat) : List Nat := ((m.stableRec? id).map (·.cores)).getD []

/-- The core whose SRAM a WALK context fills: rank DST[47:32] of stable DL_STABLE, or of stable 0 where that is not valid (DESIGN
CHOICE: the descriptor names a rank and no stable). -/
def Mod.walkCore (m : Mod) (d : StreamDesc) : Nat := (m.ranks (d.dlStable.getD 0)).getD (d.dst / 2 ^ 32 % 2 ^ 16) 0

/-- The low word of a tile's destination, as STREAM_POISON names it. -/
def Mod.dstLow (m : Mod) (d : StreamDesc) (t : Nat) : Nat :=
  match d.kind with
  | .fill => lo32 (m.shedAddr ((m.tileWindow d t).getD 0))
  | .copy => lo32 (d.dstAt t)
  | .walk => d.dst % 2 ^ 20 + t % max d.ring 1 * d.tileBytes
  | .unstash => d.dst % 2 ^ 20
  | .stash => ((kvGet? m.pad.insts (padKey d.winBase t)).bind (fun i => ((m.padRuns i).head?).map (fun r => lo32 r.1))).getD 0

/-! ### Engines -/

/-- A stream engine. -/
def Mod.engine (m : Mod) (e : Nat) : StmEngine := kvGetD m.stm.engines e .rest

/-- Replace an engine. -/
def Mod.setEngine (m : Mod) (e : Nat) (x : StmEngine) : Mod :=
  { m with stm := { m.stm with engines := kvSet m.stm.engines e x } }

/-- A slot's table. -/
def StmEngine.tab (x : StmEngine) (slot : Nat) : Option DecTable := if slot = 0 then x.tab0 else x.tab1

/-- The valid slot that holds a generation, the current one first (R305). -/
def StmEngine.slotOf (x : StmEngine) (gen : Nat) : Option Nat :=
  [x.cur, 1 - x.cur].find? (fun s => (x.tab s).any (fun t => t.gen == gen))

/-- Blocks counted against a slot (R305). -/
def StmEngine.refs (x : StmEngine) (slot : Nat) : Nat := (x.staged.filter (fun j => j.ref == some slot)).length

/-- The step that the tiles a context starts next belong to. -/
def Mod.tileStep (m : Mod) (c : CtxRun) : Nat :=
  if c.ahead then (m.fget Fld.GRM_STEP_STEP + 1) % 2 ^ 32 else m.fget Fld.GRM_STEP_STEP

/-! ### What a tile reads -/

/-- The device address a tile reads for address `a`: tiles of the next step read the bank of that step, the shadow view until the
final verdict flips what the step's deferred pass wrote (R282; 08_step_commit.md R210). -/
def Mod.tileSrc (m : Mod) (step a : Nat) : Nat :=
  match m.region? a with
  | some r =>
    if r.kind = .deferred ∧ step ≠ m.fget Fld.GRM_STEP_STEP ∧ m.stepBusy ∧ !m.step.draining ∧ m.passRan r ∧ !m.passLost r then
      (m.shadowOf a).getD a
    else a
  | none => a

/-- The homes of the pooled objects that ranges touch (R289). -/
def Mod.rangeHomes (m : Mod) (rs : List (Nat × Nat)) : List Nat := (rs.flatMap (fun r => m.homesOf r.1 r.2)).eraseDups

/-- Where a read of address `a` that met poison came from: 0 HBM, 1 the loft (Table 20-3, STREAM_POISON). -/
def Mod.poisonFrom (m : Mod) (a : Nat) : Nat := if loftBase ≤ a ∧ (m.homesOf a 1).isEmpty then 1 else 0

/-- The whole sectors that a range touches: what a request to another module names, whose length is a multiple of 64
(12_fabric_ports.md Table 12-3). -/
def sectorRange (q : Nat × Nat) : Nat × Nat := (q.1 / 64 * 64, (q.1 + q.2 + 63) / 64 * 64 - q.1 / 64 * 64)

/-- The bytes of ranges, cut out of those of the sectors they touch. -/
def cutRanges : List (Nat × Nat) → List (Byte × Bool) → List (Byte × Bool)
  | [], _ => []
  | q :: rest, data => (data.drop (q.1 % 64)).take q.2 ++ cutRanges rest (data.drop (sectorRange q).2)

/-- Ask for what a tile reads: move-ups of the pooled objects it touches (R289), or requests to the module it lies on (R288). -/
def Mod.fetchAsk (m : Mod) (d : StreamDesc) (r : TileRun) (module : Nat) (rs : List (Nat × Nat)) : Mod × TileRun :=
  if module ≠ m.self then
    (rs.map sectorRange).foldl (fun (z : Mod × TileRun) q =>
      let y := z.1.askRemote module q.1 (q.2 / 65536 + 1) q.2
      (y.1, { z.2 with tags := z.2.tags ++ y.2 })) (m, r)
  else
    let hs := (m.rangeHomes rs).filter (fun h => !r.homes.contains h)
    (hs.foldl (fun (x : Mod) h => x.moveUp h (16 + d.id / 16)) m, { r with homes := r.homes ++ hs })

/-- Has everything a tile asked for arrived? -/
def Mod.fetchReady (m : Mod) (r : TileRun) (module : Nat) (rs : List (Nat × Nat)) : Bool :=
  if module ≠ m.self then r.tags.all (fun t => (kvGet? m.fab.reads t).any (fun x => x.complete))
  else
    m.objsReady r.homes && rs.all (fun q => (m.rangeHomes [q]) != [] || (m.heldPort q.1 q.2).isNone)

/-- The device ranges a local read of ranges touches, for the errors it meets. -/
def Mod.fetchRanges (m : Mod) (rs : List (Nat × Nat)) : List (Nat × Nat) :=
  rs.flatMap (fun q => match m.homesOf q.1 q.2 with
    | [] => [q]
    | hs => hs.flatMap (fun h => ((m.poolObj? h).map m.objRanges).getD []))

/-- Forget remote reads. -/
def Mod.dropReads (m : Mod) (tags : List Nat) : Mod :=
  { m with fab := { m.fab with reads := tags.foldl kvDel m.fab.reads } }

/-- Read what has arrived: the module, the bytes, and where poison among them came from. -/
def Mod.fetchRead (m : Mod) (r : TileRun) (module : Nat) (rs : List (Nat × Nat)) (ecc : Ecc) :
    Mod × List (Byte × Bool) × Option Nat :=
  if module ≠ m.self then
    let data := cutRanges rs (r.tags.flatMap (fun t => ((kvGet? m.fab.reads t).map RemRead.bytes).getD []))
    (m.dropReads r.tags, data, if rdPoison data then some 2 else none)
  else
    let m1 := rs.foldl (fun (x : Mod) q => x.yard .stream q.1 q.2 false) m
    let m2 := m1.readDev true (m1.fetchRanges rs) ecc
    let parts := rs.map (fun q => (q.1, m2.poolRead q.1 q.2))
    let bad := (parts.find? (fun p => rdPoison p.2)).map (fun p => m2.poisonFrom p.1)
    (m2, parts.flatMap (·.2), bad)

/-! ### Etched tiles (R299, R305) -/

/-- Blocks of tile `t`: the first, and how many, until TILE_BYTES raw bytes or the last block. -/
def StreamDesc.blocksOf (d : StreamDesc) (h : EtchHdr) (t : Nat) : Nat × Nat :=
  let b : Int := (d.aux : Int) + t * d.srcStride
  if b < 0 ∨ (h.blocks : Int) ≤ b then (0, 0) else (b.toNat, min (d.tileBytes / 4096) (h.blocks - b.toNat))

/-- The header a tile has fetched. -/
def TileRun.hdr (r : TileRun) : EtchHdr := EtchHdr.ofBytes (r.fetched.take 64)

/-- Index entry `i` of those a tile has fetched; none where it read as poisoned. -/
def TileRun.indexAt (r : TileRun) (i : Nat) : Option Nat :=
  let e := (r.fetched.drop (64 + 4 * i)).take 4
  if rdPoison e then none else some (leNat (rdBytes e))

/-- The header of block `i` of the `n` blocks of a tile; poisoned where it read so, or where its index entry did. -/
def TileRun.blkHdr (r : TileRun) (n i : Nat) : List (Byte × Bool) := (r.fetched.drop (64 + 4 * n + 16 * i)).take 16

/-- Bytes to stage of block `i`; none of a block that cannot be found (R290). -/
def TileRun.blkBytes (r : TileRun) (n i : Nat) : Nat :=
  if rdPoison (r.blkHdr n i) then 0 else blkStage (rdBytes (r.blkHdr n i))

/-- The blocks a tile has asked for and not yet staged. -/
def TileRun.window (r : TileRun) : List Nat := (List.range r.asked).map (r.staged + ·)

/-- The ranges an etched tile reads in its phase: the header, the index entries, the block headers, the blocks asked for. -/
def StreamDesc.etchRanges (d : StreamDesc) (r : TileRun) : List (Nat × Nat) :=
  let a := fabDev d.src
  let h := r.hdr
  let bs := d.blocksOf h r.tile
  let blk := fun (k : Nat) => fabDev (a + h.dataOff + 16 * k)
  match r.phase with
  | 0 => [(a, 64)]
  | 1 => [(fabDev (a + h.indexOff + 4 * bs.1), 4 * bs.2)]
  | 2 => (List.range bs.2).filterMap (fun i => (r.indexAt i).map (fun k => (blk k, 16)))
  | _ => (r.window.filter (fun i => decide (0 < r.blkBytes bs.2 i))).filterMap (fun i =>
      (r.indexAt i).map (fun k => (blk k, r.blkBytes bs.2 i)))

/-- Block headers just read put in the places of their blocks, poisoned ones where an index entry is. -/
def TileRun.hdrsOf (r : TileRun) : List Nat → List (Byte × Bool) → List (Byte × Bool)
  | [], _ => []
  | i :: rest, data => match r.indexAt i with
    | some _ => data.take 16 ++ r.hdrsOf rest (data.drop 16)
    | none => List.replicate 16 ((0xFF : Byte), true) ++ r.hdrsOf rest data

/-- The job of block `i` of a tile with its bytes `blk`; one that cannot be found is staged as poison (R290). A CODED block is looked up
by its generation now (R305). -/
def StreamDesc.job (d : StreamDesc) (x : StmEngine) (r : TileRun) (i : Nat) (blk : List (Byte × Bool)) : EtchJob :=
  let h := r.hdr
  let bs := d.blocksOf h r.tile
  let b := rdBytes blk
  let coded := !rdPoison blk && blkMode b % 4 == 1
  let slot := if coded then x.slotOf (blkGen b) else none
  { ctx := d.id % 16, tile := r.tile, step := r.step, block := bs.1 + i, off := cvtBytes d.cvt (4096 * i), raw := h.raw (bs.1 + i),
    hdrBad := false, enc := h.enc, tensor := h.tensor, ref := slot,
    gone := coded && slot.isNone && !x.load.any (fun t => t.gen == blkGen b), data := blk }

/-- The jobs of the blocks just read. -/
def StreamDesc.jobs (d : StreamDesc) (x : StmEngine) (r : TileRun) : List Nat → List (Byte × Bool) → List EtchJob
  | [], _ => []
  | i :: rest, data =>
    let n := (d.blocksOf r.hdr r.tile).2
    let k := r.blkBytes n i
    d.job x r i (if k = 0 then List.replicate 16 ((0xFF : Byte), true) else data.take k) :: d.jobs x r rest (data.drop k)

/-- The one job of a tile whose tensor header fails its check (R299), or reads as poisoned (R290): the whole tile is poisoned. -/
def StreamDesc.hdrJob (d : StreamDesc) (r : TileRun) (poisoned : Bool) : EtchJob :=
  { ctx := d.id % 16, tile := r.tile, step := r.step, block := ((d.aux : Int) + r.tile * d.srcStride).toNat, off := 0, raw := d.tileBytes,
    hdrBad := !poisoned, enc := false, tensor := 0, ref := none, gone := false,
    data := if poisoned then [((0xFF : Byte), true)] else [] }

/-- Stage jobs in an engine. -/
def Mod.stage (m : Mod) (e : Nat) (js : List EtchJob) : Mod :=
  m.setEngine e { m.engine e with staged := (m.engine e).staged ++ js }

/-- Bytes of an engine's staging SRAM (Table 11-1). -/
def stagingSize : Nat := 512 * 1024

/-- Bytes of an engine's staging that blocks take, and that tiles other than `own` have asked for (R287). -/
def Mod.stagingUsed (m : Mod) (e : Nat) (own : Option (Nat × Nat × Nat)) : Nat :=
  let ds := m.streams.filter (fun d => d.id / 16 == e && d.expand)
  ((m.engine e).staged.map (fun j => j.data.length)).sum + (ds.map (fun d =>
    ((((m.ctx d.id).flight.filter (fun r => own != some (d.id, r.tile, r.step))).map (fun r =>
      (r.window.map (r.blkBytes (d.blocksOf r.hdr r.tile).2)).sum)).sum))).sum

/-- How many of the next blocks a room holds, given their sizes. -/
def blocksFit : List Nat → Nat → Nat
  | [], _ => 0
  | n :: rest, room => if n ≤ room then 1 + blocksFit rest (room - n) else 0

/-- How many of the next blocks of a tile are asked for: as many as staging has room for (R287). -/
def Mod.blocksNext (m : Mod) (d : StreamDesc) (r : TileRun) : Nat :=
  let n := (d.blocksOf r.hdr r.tile).2
  blocksFit ((List.range (n - r.staged)).map (fun k => max 16 (r.blkBytes n (r.staged + k))))
    (stagingSize - m.stagingUsed (d.id / 16) (some (d.id, r.tile, r.step)))

/-- A tile after a phase's bytes have come: those of its header, index entries or block headers. -/
def TileRun.phaseRead (r : TileRun) (n : Nat) (data : List (Byte × Bool)) : TileRun :=
  { r with phase := if r.phase = 2 && n == 0 then 4 else r.phase + 1,
           fetched := r.fetched ++ (if r.phase = 2 then r.hdrsOf (List.range n) data else data) }

/-- Take an etched tile as far as what has arrived, and the room in staging, allow: each phase's bytes are read and the next phase's
asked for (R287, R299). -/
def Mod.etchFetch (d : StreamDesc) (ecc : Ecc) : Nat → Mod → TileRun → Mod × TileRun
  | 0, m, r => (m, r)
  | k + 1, m, r =>
    let module := fabModule d.src
    let rs := d.etchRanges r
    if 4 ≤ r.phase then (m, r)
    else if r.phase = 3 ∧ r.asked = 0 then
      let r1 := { r with asked := m.blocksNext d r }
      if r1.asked = 0 then (m, r)
      else
        let y := m.fetchAsk d r1 module (d.etchRanges r1)
        Mod.etchFetch d ecc k y.1 y.2
    else if !m.fetchReady r module rs then (m, r)
    else
      let z := m.fetchRead r module rs ecc
      let r1 := { r with tags := [], bad := r.bad <|> z.2.2 }
      let e := d.id / 16
      if r.phase = 3 then
        let m1 := z.1.stage e (d.jobs (z.1.engine e) r r.window z.2.1)
        let r2 := { r1 with staged := r.staged + r.asked, asked := 0 }
        if (d.blocksOf r.hdr r.tile).2 ≤ r2.staged then (m1, { r2 with phase := 4, fetched := [] }) else Mod.etchFetch d ecc k m1 r2
      else
        let n := (d.blocksOf (r1.hdr) r.tile).2
        let r2 := r1.phaseRead n z.2.1
        if r.phase = 0 && !r2.hdr.ok then (z.1.stage e [d.hdrJob r (rdPoison z.2.1)], { r2 with phase := 4, fetched := [] })
        else
          let y := if r2.phase < 3 then z.1.fetchAsk d r2 module (d.etchRanges r2) else (z.1, r2)
          Mod.etchFetch d ecc k y.1 y.2

/-- Put a tile among those of an engine in the order the engine serves them (R287): lowest deadline first, equal ones as they come. -/
def queueInsert (x : Nat × StreamDesc × TileRun) : List (Nat × StreamDesc × TileRun) → List (Nat × StreamDesc × TileRun)
  | [] => [x]
  | y :: rest => if x.1 ≤ y.1 then x :: y :: rest else y :: queueInsert x rest

/-- The etched tiles that an engine still fetches, in the order it serves them. -/
def Mod.etchQueue (m : Mod) (e : Nat) : List (Nat × StreamDesc × TileRun) :=
  ((m.streams.filter (fun d => d.id / 16 == e && d.expand)).flatMap (fun d =>
    ((m.ctx d.id).flight.filter (fun r => decide (r.phase < 4))).map (fun r => (m.tileDeadline d r.tile r.early, d, r)))).foldr queueInsert []

/-- Replace a tile in flight. -/
def Mod.setRun (m : Mod) (d : StreamDesc) (r : TileRun) : Mod :=
  let c := m.ctx d.id
  m.setCtx d.id { c with flight := c.flight.map (fun x => if x.tile = r.tile ∧ x.step = r.step then r else x) }

/-- An engine takes its etched tiles in flight as far as they go. -/
def Mod.engineFetch (m : Mod) (e : Nat) (ecc : Ecc) : Mod :=
  (m.etchQueue e).foldl (fun (x : Mod) q =>
    let y := Mod.etchFetch q.2.1 ecc 16 x q.2.2
    y.1.setRun q.2.1 y.2) m

/-! ### Starting a tile -/

/-- May the tiles the context is at begin (R282; condition 4 of R280)? -/
def Mod.tilesMayBegin (m : Mod) (d : StreamDesc) (c : CtxRun) : Bool :=
  m.streamsRun && !(m.pwr.parkReq && !m.stepBusy) && decide (c.next < d.tiles)
    && (if c.ahead then c.gate.isSome && d.wait.isNone && d.kind != .stash && d.kind != .unstash else m.stepBusy && m.step.phase != .actions)

/-- Is the tile's window, if any, EMPTY (condition 2 of R280)? -/
def Mod.tileWinFree (m : Mod) (d : StreamDesc) (t : Nat) : Bool :=
  match m.tileWindow d t with
  | some w => (m.win w).st == .empty
  | none => true

/-- Has the record instance of a STASH or UNSTASH tile been placed (06_backward_pass.md R157)? -/
def Mod.tilePlaced (m : Mod) (d : StreamDesc) (t : Nat) : Bool :=
  (d.kind != .stash && d.kind != .unstash) || (kvGet? m.pad.insts (padKey d.winBase t)).isSome

/-- Two tiles' objects are pinned already (R289). -/
def CtxRun.pinsFull (c : CtxRun) : Bool := decide (2 ≤ (c.flight.filter (fun r => !r.homes.isEmpty)).length)

/-- Does the walk block keep to the limits of Table 11-4? -/
def walkOk (b : List Byte) : Bool :=
  let n := fun (o w : Nat) => leNat ((b.drop o).take w)
  b.length == 64 && n 0xC 4 % 64 == 0 && decide (64 ≤ n 0xC 4) && decide (n 0x14 2 < n 0x10 2) && decide (n 0x16 2 < n 0x12 2)
    && decide (1 ≤ n 0x20 2) && decide (n 0x20 2 ≤ 1024) && decide (1 ≤ n 0x22 1) && decide (n 0x22 1 ≤ 64)
    && decide (n 0x23 1 < n 0x22 1) && decide (1 ≤ n 0x24 2) && decide (n 0x24 2 ≤ 16) && decide (n 0xC 4 ≤ n 0x28 4)

/-- The blocks of a sequence in the share of split rank `r` of `ways` (09_attention.md R224). -/
def walkShare (ways r len : Nat) : List Nat :=
  let nb := (len + 63) / 64
  (List.range ((r + 1) * nb / ways - r * nb / ways)).map (fun i => r * nb / ways + i)

/-- What a walk takes, in order: SEQ tag, block, page-table address (R293), from a walk block and its sequence list. -/
def walkTakes (b list : List Byte) : List (Nat × Nat × Nat) :=
  let n := fun (o w : Nat) => leNat ((b.drop o).take w)
  (List.range (n 0x20 2)).flatMap (fun i =>
    let e := (list.drop (16 * i)).take 16
    (walkShare (n 0x22 1) (n 0x23 1) (leNat ((e.drop 4).take 4))).map (fun k => (leNat (e.take 4), k, leNat ((e.drop 8).take 6))))

/-- Address and bytes of the sequence list a walk block names. -/
def walkList (b : List Byte) : Nat × Nat := (leNat ((b.drop 0x18).take 6), 16 * leNat ((b.drop 0x20).take 2))

/-- Read the walk block, and with it the list for the count of blocks (R292, R294): the context then holds the block, or
nothing where either read is poisoned, which is STREAM_POISON too (R290). -/
def Mod.walkStart (m : Mod) (d : StreamDesc) (ecc : Ecc) : Mod :=
  let z := m.unitRead true (fabDev d.src) 64 ecc
  let b := rdBytes z.2
  let c := z.1.ctx d.id
  let broken := fun (x : Mod) (bad : Bool) =>
    let y := x.setCtx d.id { c with walk := if bad then [] else b, overflow := false }
    if bad then (y.fset Fld.STM_ERR_POISON 1 (d.id / 16)).raiseStep 0x0801 d.id 0 (y.dstLow d 0) 0 else y
  if rdPoison z.2 || !walkOk b then broken z.1 (rdPoison z.2)
  else
    let y := z.1.unitRead true (walkList b).1 (walkList b).2 ecc
    let blocks := (walkTakes b (rdBytes y.2)).length
    let room := d.tiles * leNat ((b.drop 0x24).take 2)
    if rdPoison y.2 then broken y.1 true
    else if room < blocks then
      ((y.1.setCtx d.id { c with walk := b, overflow := true }).fset Fld.STM_ERR_WALK_OVERFLOW 1 (d.id / 16)).raise .contained 0x0807 d.id
        blocks room
    else y.1.setCtx d.id { c with walk := b, overflow := false }

/-- Ask for what a tile just started reads: an etched tile's header, a plain tile's bytes. -/
def Mod.tileAsk (m : Mod) (d : StreamDesc) (r : TileRun) : Mod × TileRun :=
  match d.kind with
  | .fill | .copy =>
    if d.expand then m.fetchAsk d r (fabModule d.src) (d.etchRanges r)
    else m.fetchAsk d r (fabModule (d.srcAt r.tile)) [(fabDev (d.srcAt r.tile), d.tileBytes)]
  | _ => (m, r)

/-- A context starts its next tile where R280 allows it. -/
def Mod.tileStart (m : Mod) (d : StreamDesc) (ecc : Ecc) : Mod :=
  let c := m.ctx d.id
  let t := c.next
  if m.tilesMayBegin d c && m.tileWinFree d t && m.tileWaitDone d t && m.tilePlaced d t && !c.pinsFull then
    let step := m.tileStep c
    let m1 := match m.tileWindow d t with
      | some w => m.setWin w ⟨.filling, 0, d.id, t, step⟩
      | none => m
    let m2 := if d.kind = .walk ∧ t = 0 then m1.walkStart d ecc else m1
    let m3 := match d.kind, kvGet? m2.pad.insts (padKey d.winBase t) with
      | .unstash, some i => m2.setInst (padKey d.winBase t) { i with begun := true }
      | _, _ => m2
    let y := m3.tileAsk d ⟨t, step, if c.ahead then c.gate else none, [], 0, [], 0, 0, [], none⟩
    let c1 := y.1.ctx d.id
    ((y.1.setCtx d.id { c1 with next := t + 1, flight := c1.flight ++ [y.2] }).engineFetch (d.id / 16) ecc).gates
  else m

/-- STREAM_TILE_START (R280, R282). -/
def execStreamTileStart (stream : Nat) (ecc : Ecc) (s : State) : Host.Outcome State Fault Refusal :=
  .next (s.unit (fun m => match m.stream? stream with
    | some d => m.tileStart d ecc
    | none => m))

/-! ### Ending tiles -/

/-- Unpin what a tile has pinned, and withdraw what it waits for (R289). -/
def Mod.tileUnpin (m : Mod) (d : StreamDesc) (r : TileRun) : Mod :=
  r.homes.foldl (fun (x : Mod) h =>
    match x.pool.waits.find? (fun w => w.home == h && w.user == 16 + d.id / 16) with
    | some w => { x with pool := { x.pool with waits := x.pool.waits.erase w } }
    | none => x.unpin h) m

/-- Abandon tiles of a context: what they pinned, asked for and staged is given up. -/
def Mod.tilesAbandon (m : Mod) (d : StreamDesc) (rs : List TileRun) : Mod :=
  rs.foldl (fun (x : Mod) r =>
    let y := (x.tileUnpin d r).dropReads r.tags
    let e := y.engine (d.id / 16)
    y.setEngine (d.id / 16) { e with staged := e.staged.filter (fun j => !(j.ctx == d.id % 16 && j.tile == r.tile && j.step == r.step)) }) m

/-- Empty the windows a context has filled or is filling, those whose content meets `p`. -/
def Mod.emptyOf (m : Mod) (d : StreamDesc) (p : Win → Bool) : Mod :=
  { m with stm := { m.stm with wins := m.stm.wins.filter (fun e => !(e.2.stream == d.id && p e.2)) } }

/-- The verdict actions of SKIP or FAULT on a context (R283): undelivered tiles of the ended step are abandoned, its windows
empty, and the context begins the next step at tile 0; tiles of the next step already started are kept. -/
def Mod.ctxVerdict (m : Mod) (d : StreamDesc) : Mod :=
  let n := m.fget Fld.GRM_STEP_STEP
  let c := m.ctx d.id
  let lost := c.flight.filter (fun r => r.step == n)
  let m1 := (m.tilesAbandon d lost).emptyOf d (fun w => w.step == n)
  let m2 := if lost.isEmpty && (c.ahead || c.done == d.tiles) then m1 else m1.snoopAbandon d.id
  let kept := c.flight.filter (fun r => r.step != n)
  m2.setCtx d.id (if c.ahead then { c with flight := kept } else { CtxRun.rest with flight := kept })

/-- The verdict actions of SKIP or FAULT on every context (R283). -/
def Mod.stmVerdict (m : Mod) : Mod := m.streams.foldl Mod.ctxVerdict m

/-- A REPLAY verdict boundary on a context that has a REPLAY_TILE (R284). -/
def Mod.ctxReplay (m : Mod) (d : StreamDesc) : Mod :=
  match d.replayTile with
  | some t =>
    let c := m.ctx d.id
    let m1 := (m.tilesAbandon d c.flight).emptyOf d (fun _ => true)
    let m2 := if c.flight.isEmpty then m1 else m1.snoopAbandon d.id
    m2.setCtx d.id { c with next := t, done := t, ahead := false, gate := none, flight := [] }
  | none => m

/-- A REPLAY verdict boundary (R284). -/
def Mod.stmReplay (m : Mod) : Mod := m.streams.foldl Mod.ctxReplay m

/-- A step starts: contexts already at its tiles go on, the others begin it at tile 0. -/
def Mod.stmStepStart (m : Mod) : Mod :=
  m.streams.foldl (fun (x : Mod) d =>
    let c := x.ctx d.id
    x.setCtx d.id (if c.ahead then { c with ahead := false, gate := none } else { c with next := 0, done := 0, gate := none })) m

/-- A function reset or beyond (R285): every context stops, staging is emptied, every window returns to EMPTY. -/
def Mod.stmReset (m : Mod) : Mod :=
  let tags := m.stm.engines.flatMap (fun e => e.2.ctxs.flatMap (fun c => c.2.flight.flatMap (·.tags)))
  let m1 := (m.dropReads tags).snoopAbandonAll
  { m1 with stm := ⟨m1.stm.engines.map (fun e => (e.1, { e.2 with ctxs := [], staged := [] })), []⟩ }

/-- A tile is delivered (R280, R281, R287, R289 to R291): its window becomes READY, its signal is given, STREAM_POISON where
poison was met, what it pinned is released. -/
def Mod.tileDone (m : Mod) (d : StreamDesc) (r : TileRun) : Mod :=
  let c := m.ctx d.id
  let m1 := m.setCtx d.id { c with flight := c.flight.drop 1, done := if r.step = m.tileStep c then c.done + 1 else c.done }
  let m2 := match m1.tileWindow d r.tile with
    | some w => m1.setWin w ⟨.ready, m1.winUses w d, d.id, r.tile, r.step⟩
    | none => m1
  let m3 := match d.signal with
    | some g => m2.signal (g + r.tile * d.signalStride)
    | none => m2
  let m4 := m3.tileLate d r.tile r.early
  let m5 := match r.bad with
    | some k => (m4.fset Fld.STM_ERR_POISON 1 (d.id / 16)).raiseStep 0x0801 d.id r.tile (m4.dstLow d r.tile) k
    | none => m4
  let m6 := ((m5.tileUnpin d r).dropReads r.tags)
  let m7 := if d.kind = .unstash ∧ r.tile < m6.lastMb then m6.padRelease (padKey d.winBase r.tile) else m6
  m7.gates

end Sys2Proof.Machine
end

