-- ==== Sys2Proof/Machine/Deferred.lean ====
section
/-! DEFINITION. Deferred updates (08_step_commit.md R206 to R212; 10_memory_tiers.md R271, R272): the pass that applies a committed
step's ledger entries, and what a pass leaves to the verdict: bank flips, watch merges, norm records. -/

namespace Sys2Proof.Machine

/-! ### Ledger entries -/

/-- A ledger entry as a deferred pass reads it: its FP32 values with the flags of their rounding, a failed check, or poison. -/
inductive Entry where
  | vals (vs : List Nat) (fl : Fl)
  | bad
  | poisoned
deriving DecidableEq, Repr

/-- A value of an entry as the program sees it: c × (b / s), rounded once to FP32 (R209), with its flags. -/
def entryVal (clip scale b : Nat) : Coded :=
  let q := (Fmt.decode .bf16 b).div (fp32 scale)
  let p := (fp32 clip).mul q.1
  let r := roundFp32 false p.1
  ⟨r.code, (Fl.invalid (q.2.1 || p.2)).join r.fl⟩

/-- Does an entry's header pass the checks of R209: STEP, the step's final ATTEMPT, TENSOR, GEN, ALIVE and CRC? -/
def LedgerHdr.passes (h : LedgerHdr) (step attempt tensor gen pos : Nat) (payload : List Byte) : Bool :=
  h.step == step && h.attempt == attempt && h.tensor % 2 ^ 20 == tensor && h.gen == gen && h.alive == pos % 2 ^ 16
    && h.crc == crc32c payload

/-- Read the entry of a slice of the gradient of step `st` through its object. -/
def Mod.entryRead (m : Mod) (g : Binding) (op slice : Nat) (e : SliceEnt) (st : StepHist) : Entry :=
  match m.ledgerAt g.tensor op slice st.step, m.ledgerRegion g.tensor with
  | some p, some r =>
    let d := m.stateRead g.unit p.1 e.entryBytes
    let b := rdBytes d
    let h := LedgerHdr.ofBytes b
    if rdPoison d then .poisoned
    else if h.passes st.step st.attempt g.tensor (m.regionGen r) p.2 (b.drop 64) then
      let vs := (List.range (e.c * e.d)).map (fun i => entryVal st.clip h.scale (leNat ((b.drop (64 + 2 * i)).take 2)))
      .vals (vs.map (·.code)) (vs.foldl (fun f v => f.join v.fl) .none)
    else .bad
  | _, _ => .bad

/-- A slice entry of an operation of the active plate. -/
def Mod.sliceEnt? (m : Mod) (op slice : Nat) : Option SliceEnt := (m.plate?.bind (fun p => p.colls.ops[op]?)).bind (fun o => o.slices[slice]?)

/-! ### The pass -/

/-- How far a deferred pass gets: to its end, to an element or entry whose objects are not there, or to a stop (R212: 0 a check
failed, 1 poison). -/
inductive PassWay where
  | whole
  | waits
  | lost (reason : Nat)
deriving DecidableEq, Repr

/-- Are the chunks of everything the pass reads and writes for an element in HBM and pinned (10_memory_tiers.md R271)? -/
def Mod.elemReady (m : Mod) (g : Binding) (i : Nat) : Bool :=
  (g.ins.filter (fun e => e.src == .plane)).all (fun e => m.stateReady g.unit (planeAt e g.first i).1 e.elemBytes)
    && (g.outs.filter (fun e => e.src == .plane)).all (fun e => m.stateReady g.unit (m.outAt (planeAt e g.first i).1) e.elemBytes)
    && (!g.masked || m.stateReady g.unit (maskAt g i) 1)

/-- One element of a deferred pass at position `j` of its slice, or of a run that no slice covers. -/
def Mod.deferredElem (m : Mod) (g : Binding) (env : PassEnv) (i j : Nat) (v : Option Nat) (ps : GPass) : Mod × GPass :=
  let y := match v with
    | some x => m.passElem g.unit g env i j (x, false) (0, false) ps
    | none => m.heldElem g.unit g env i j false ps
  let u := y.1.groomUnit g.unit
  (y.1.setGroom g.unit { u with count := u.count + 1 }, { y.2 with pos := ps.pos + 1 })

/-- Elements of a deferred pass, index, position and value each, for as long as their chunks are there. -/
def Mod.deferredElems (g : Binding) (env : PassEnv) : List (Nat × Nat × Option Nat) → Mod → GPass → Mod × GPass × PassWay
  | [], m, ps => (m, ps, .whole)
  | x :: rest, m, ps =>
    if m.elemReady g x.1 then
      let y := m.deferredElem g env x.1 x.2.1 x.2.2 ps
      if y.2.poisoned then (y.1, y.2, .lost 1) else Mod.deferredElems g env rest y.1 y.2
    else (m, ps, .waits)

/-- The slices of a deferred pass from where it stands on, each from its ledger entry, then the runs that no slice covers (R209). -/
def Mod.deferredSlices (b : Nat) (g : Binding) (env : PassEnv) (st : StepHist) : List (Nat × Nat) → Mod → GPass → Mod × GPass × PassWay
  | [], m, ps =>
    Mod.deferredElems g env (((runElems (m.passRuns b g)).drop ps.pos).map (fun r => (r.1, r.2, none))) m ps
  | x :: rest, m, ps =>
    match m.sliceEnt? x.1 x.2, m.ledgerAt g.tensor x.1 x.2 st.step with
    | some e, some p =>
      if m.stateReady g.unit p.1 e.entryBytes then
        match m.entryRead g x.1 x.2 e st with
        | .bad => (m, ps, .lost 0)
        | .poisoned => (m, ps, .lost 1)
        | .vals vs fl =>
          let sl : GSlice := ⟨x.1, x.2, none, vs.map (fun v => (v, false))⟩
          let todo := ((List.range vs.length).map (fun j => (elemIndex g e sl j, j, some (vs.getD j 0)))).drop ps.pos
          let y := Mod.deferredElems g env todo (m.groomFlags g.unit fl) ps
          match y.2.2 with
          | .whole => Mod.deferredSlices b g env st rest y.1 { y.2.1 with taken := y.2.1.taken + 1, pos := 0 }
          | _ => y
      else (m, ps, .waits)
    | _, _ => (m, ps, .lost 0)

/-- The DEFERRED objects of a unit that are in HBM: where its deferred pass may meet errors. -/
def Mod.unitObjRanges (m : Mod) (u : Nat) : List (Nat × Nat) :=
  (m.pool.objs.filter (fun e => e.2.unit == some u && e.2.st == .hbm)).flatMap (fun e => m.objRanges e.2)

/-- Raise DEFERRED_LOST (R212): 0 a check failed, 1 poison; the step in progress ends with FAULT. -/
def Mod.deferredLost (m : Mod) (g : Binding) (step reason : Nat) : Mod :=
  let m1 := m.raise .device 0x070B 0 g.tensor step reason
  if m1.stepOpen then m1.fault 0x070B else m1

/-- The entries of a step for a binding are no longer waiting. -/
def Mod.entriesDone (m : Mod) (step b : Nat) : Mod :=
  { m with step := { m.step with ledger := m.step.ledger.filter (fun e => e != (step, b)) } }

/-- A deferred pass goes on as far as it can (R209, R212): values enter no global norm; at its end the result is left to the
verdict and the pass is complete once every write-back is (10_memory_tiers.md R271); one that is lost ends, and what it wrote does
not come live. -/
def Mod.deferredGo (m : Mod) (b : Nat) (g : Binding) (st : StepHist) (ps : GPass) (ecc : Ecc) : Mod :=
  let env : PassEnv := ⟨st.step, st.size, st.bc1, st.bc2, 0x3F800000, false⟩
  let m1 := m.eccDev true (m.unitObjRanges g.unit) ecc
  let y := Mod.deferredSlices b g env st ((m1.slicesOf b).drop ps.taken) m1 ps
  let u := y.1.groomUnit g.unit
  match y.2.2 with
  | .waits => y.1.setGroom g.unit { u with pass := some y.2.1 }
  | .whole =>
    let m2 := (y.1.passEnd g.unit y.2.1 st.step).entriesDone st.step b
    Mod.deferredSettle { m2 with step := { m2.step with defRun := setAdd m2.step.defRun b } }
  | .lost reason =>
    let m2 := ((y.1.setGroom g.unit { u with pass := none }).entriesDone st.step b).deferredLost g st.step reason
    { m2 with step := { m2.step with defLost := setAdd m2.step.defLost b } }

/-- What the device keeps of a step (R182). -/
def Mod.histOf (m : Mod) (n : Nat) : Option StepHist := m.step.hist.find? (fun h => h.step == n)

/-- DEFERRED_PASS's work (R209): in step m a deferred binding applies step m − D, where that step committed and its entries are not
yet applied; the pass begins, or goes on. One whose first write-back has started goes on whatever the step's outcome
(10_memory_tiers.md R272). -/
def Mod.deferredPass (m : Mod) (b : Nat) (ecc : Ecc) : Mod :=
  match m.binding? b with
  | none => m
  | some g =>
    match (m.groomUnit g.unit).pass with
    | some ps =>
      match if ps.binding = b ∧ (m.groomRuns || (ps.bound && !m.unitsHalted)) = true then ps.applies.bind m.histOf else none with
      | some st => m.deferredGo b g st ps ecc
      | none => m
    | none =>
      let d := m.lagOf g
      let n := (m.fget Fld.GRM_STEP_STEP + 2 ^ 32 - d) % 2 ^ 32
      match m.histOf n with
      | none => m
      | some st =>
        if m.groomRuns && decide (0 < d) && st.committed && m.step.ledger.contains (n, b) && m.waitDone g.wait then
          m.deferredGo b g st (.start b (some n)) ecc
        else m

/-- DEFERRED_PASS (R209). -/
def execDeferredPass (binding : Nat) (ecc : Ecc) (s : State) : Host.Outcome State Fault Refusal :=
  .next (s.unit (fun m => m.deferredPass binding ecc))

/-! ### What passes leave -/

/-- Flip each banked region that holds one of the addresses, once (R200; 10_memory_tiers.md R257). -/
def Mod.flipAll (m : Mod) (addrs : List Nat) : Mod :=
  (addrs.foldl (fun (z : Mod × NatSet) a => match m.region? a with
    | some r => if r.banked && !z.2.contains r.id then (z.1.flipAt a, setAdd z.2 r.id) else z
    | none => z) (m, [])).1

/-- Addresses a binding's pass writes in the live view: its output planes and row counts. -/
def Binding.written (g : Binding) : List Nat :=
  (g.outs.filter (fun e => e.src == .plane)).map (·.addr) ++ (if g.row then [g.rows] else [])

/-- Addresses written by the passes of bindings. -/
def Mod.writtenBy (m : Mod) (bs : List Nat) : List Nat := bs.flatMap (fun b => ((m.binding? b).map Binding.written).getD [])

/-- A finished pass's watch partial (05_numeric_watch.md R134). -/
def PassDone.partial_ (d : PassDone) : WatchRec :=
  let n := fun i => d.watch.getD i 0
  ⟨0, n 4, d.step, 0, n 0, n 1, n 2, n 3, 0, 0, 0⟩

/-- Results of passes with their bindings, in ascending unit and then binding. -/
def Mod.passResults (m : Mod) : List (Nat × PassDone) := m.groom.units.flatMap (fun e => e.2.results)

/-- The tensors whose working copies the results that meet `p` derive. -/
def Mod.derivedBy (m : Mod) (p : PassDone → Bool) : NatSet :=
  ((m.passResults.filter (fun e => p e.2)).filterMap (fun e => m.binding? e.1)).foldl (fun ids g =>
    if g.outs.any (·.wc) then setAdd ids g.tensor else ids) []

/-- What the passes whose results meet `p` leave in the watch table: PENDING_SCALE becomes SCALE where a working copy was derived,
then their partials merge; a ROW binding sends none (R135, R136; 07_groom_units.md R185). -/
def Mod.mergeAll (m : Mod) (p : PassDone → Bool) (ecc : Ecc) : Mod :=
  (m.passResults.filter (fun e => p e.2)).foldl (fun (x : Mod) e => match x.binding? e.1 with
    | some g => if g.row then x else x.watchMerge g.tensor e.2.partial_ 1 ecc
    | none => x) ((m.derivedBy p).foldl (fun (x : Mod) t => x.takePending t ecc) m)

/-- The deferred regions that passes of bindings wrote flip, but for those that a lost pass was to write (R210, R212). -/
def Mod.flipDeferred (m : Mod) (done lost : List Nat) : Mod :=
  let kept := (m.writtenBy lost).filterMap (fun a => (m.region? a).map (·.id))
  m.flipAll ((m.writtenBy done).filter (fun a => !(m.region? a).any (fun r => kept.contains r.id)))

/-- FP64 sum rounded once, with its flags. -/
def add64 (a : Coded) (b : Nat) : Coded :=
  let s := (fp64 a.code).add (fp64 b)
  let r := roundFp64 s.1
  ⟨r.code, a.fl.join ((Fl.invalid s.2).join r.fl)⟩

/-- FP64 sum of a list in order, starting at +0. -/
def sum64 (xs : List Nat) : Coded := xs.foldl add64 ⟨0, .none⟩

/-- The norm groups of results that meet `p`, ascending. -/
def Mod.normGroups (m : Mod) (p : PassDone → Bool) : NatSet :=
  (m.passResults.filter (fun e => p e.2)).foldl (fun ids e => match m.binding? e.1 with
    | some g => setAdd ids g.group
    | none => ids) []

/-- Write the norm record of a group from the results that meet `p` (05_numeric_watch.md R138): bindings of a unit in ascending
number on the unit's scalar side, which keeps their flags (R176), then units in ascending order. -/
def Mod.normGroup (m : Mod) (group flags : Nat) (p : PassDone → Bool) : Mod :=
  let mine := fun (e : Nat × PassDone) => p e.2 && (m.binding? e.1).any (fun g => g.group == group)
  let units := (m.groom.units.filter (fun e => e.2.results.any mine)).map (fun e => (e.1, (List.range 4).map (fun k =>
    sum64 ((e.2.results.filter mine).map (fun r => r.2.sums.getD k 0)))))
  let m1 := units.foldl (fun (x : Mod) e => x.groomFlags e.1 (e.2.foldl (fun f c => f.join c.fl) .none)) m
  let sums := (List.range 4).map (fun k => (sum64 (units.map (fun e => ((e.2.map (·.code)).getD k 0)))).code)
  let rs := m.passResults.filter mine
  m1.normWrite group ((rs.head?.map (fun e => e.2.step)).getD 0) ((rs.map (fun e => e.2.elems)).sum) sums flags

/-- Write the norm records of every group with results that meet `p`. -/
def Mod.normAll (m : Mod) (flags : Nat) (p : PassDone → Bool) : Mod := (m.normGroups p).foldl (fun (x : Mod) g => x.normGroup g flags p) m

/-! ### Drain passes -/

/-- Is a FULL activation or a deactivation pending (R211)? -/
def Mod.changePending (m : Mod) : Bool :=
  m.plt.pending.any (fun r => !r.activate || (match (m.plt.slot r.slot).plate with | some p => p.hdr.kind == .full | none => true))

/-- The verdict actions are complete: STEP_BUSY clears and streams may turn to the next step (R187; 11_streams.md R282). -/
def Mod.actionsEnd (m : Mod) : Mod :=
  if m.step.phase == .actions && m.actionsOver && decide ((m.step.actTick : Nat) < m.tick.count) then
    Mod.gatesAll { m with step := { m.step with phase := .idle, draining := false } }
  else m

/-- RECONCILE_COPY: the rows touched by a ROW binding in the step (07_groom_units.md R184). -/
def execReconcileCopy (binding : Nat) (ecc : Ecc) (s : State) : Host.Outcome State Fault Refusal :=
  .next (s.unit (fun m => (m.reconcileCopy binding ecc).actionsEnd))

/-- A drained step is over once every binding's entries of it are applied or lost and every write-back is complete: its banks flip,
its watch merges and norm records are applied (R210, R211); the drain ends with the last step. -/
def Mod.drainSettle (m : Mod) (ecc : Ecc) : Mod :=
  match m.step.drainStep with
  | none => m
  | some n =>
    let p : PassDone → Bool := fun r => r.deferred && r.step == n
    if m.step.ledger.any (fun e => e.1 == n) || !m.step.defRun.all m.step.passesDone.contains then m
    else
      let m1 := ((m.flipDeferred m.step.defRun m.step.defLost).mergeAll p ecc).normAll 17 p
      let units := m1.groom.units.map (fun e => (e.1, { e.2 with results := e.2.results.filter (fun r => !p r.2) }))
      let m2 := { m1 with groom := { m1.groom with units := units } }
      let m3 := { m2 with step := { m2.step with defRun := [], passesDone := [], defLost := [], drainStep := none,
                                                 draining := !m2.step.ledger.isEmpty } }
      m3.actionsEnd

/-- A drain pass (R211): the entries of the oldest committed step not yet applied, binding by binding; each goes on as far as its
chunks are there. -/
def Mod.drainPass (m : Mod) (ecc : Ecc) : Mod :=
  match m.step.ledger with
  | [] => m
  | (n, b) :: _ =>
    match m.binding? b with
    | none => m
    | some g =>
      if m.changePending && (m.step.phase == .idle || m.step.phase == .actions) && (m.step.drainStep.isNone || m.step.drainStep == some n)
          && !m.unitsHalted then
        let ps := ((m.groomUnit g.unit).pass).getD (.start b (some n))
        if ps.binding = b ∧ ps.applies = some n then
          let st := (m.histOf n).getD ⟨n, 0, 0, 0, 0, false, 2⟩
          let m1 := { m with step := { m.step with phase := .actions, draining := true, drainStep := some n } }
          (m1.deferredGo b g st ps ecc).drainSettle ecc
        else m
      else m

/-- DRAIN_PASS (R211). -/
def execDrainPass (ecc : Ecc) (s : State) : Host.Outcome State Fault Refusal :=
  .next (s.unit (fun m => m.drainPass ecc))

/-- WRITEBACK_COMPLETE: an object whose write-back has started is written home and leaves HBM (R267, R269). -/
def execWritebackComplete (home : Nat) (ecc : Ecc) (s : State) : Host.Outcome State Fault Refusal :=
  .next (s.unit (fun m => match m.poolObj? home with
    | some o =>
      if o.st = .evicting ∧ o.wbStarted ∧ m.heldPort home o.size = none then
        (((m.eccDev true (m.objRanges o) ecc).poolCopy home o false).dropObj home).retryWaits.deferredSettle.drainSettle ecc
      else m
    | none => m))

end Sys2Proof.Machine
end

