-- ==== Sys2Proof/Machine/StreamData.lean ====
section
/-! DEFINITION. What stream contexts move (11_streams.md R288 to R305): the bytes of a tile, stash and unstash, page walks, the
expansion of etched blocks, decode tables. The family "streams". -/

namespace Sys2Proof.Machine

/-! ### Memory to memory -/

/-- Replace the tile at the head of a context's flight. -/
def Mod.setHead (m : Mod) (d : StreamDesc) (r : TileRun) : Mod :=
  let c := m.ctx d.id
  m.setCtx d.id { c with flight := r :: c.flight.drop 1 }

/-- Are bytes for another module still on their way (R280: accepted; 12_fabric_ports.md R335)? -/
def Mod.writesOpen (m : Mod) (module a n : Nat) : Bool :=
  let w := kvGetD m.fab.tx (flowKey module 0) .rest
  (w.unacked ++ w.waiting).any (fun f => f.type == 1 && decide (a ≤ f.addr) && decide (f.addr < a + n))

/-- Were bytes of this range, sent to another module, given up (12_fabric_ports.md R335)? -/
def isLostWrite (module a n : Nat) (f : TFlit) : Bool :=
  f.type == 1 && f.dest == module && decide (a ≤ f.addr) && decide (f.addr < a + n)

/-- A tile for another module ends: poisoned where any of its bytes were given up (R290; 12_fabric_ports.md R335). -/
def Mod.farDone (m : Mod) (d : StreamDesc) (r : TileRun) (module dst : Nat) : Mod :=
  let mine := isLostWrite module dst d.tileBytes
  Mod.tileDone { m with fab := { m.fab with lost := m.fab.lost.filter (fun f => !mine f) } } d
    { r with bad := r.bad <|> (if m.fab.lost.any mine then some 2 else none) }

/-- Has an engine's staging room for a request of a tile (R287)? -/
def Mod.stagingRoom (m : Mod) (d : StreamDesc) : Bool :=
  decide (m.stagingUsed (d.id / 16) none + min 4096 d.tileBytes ≤ stagingSize)

/-- Write a tile's bytes at a local device address; they pass the snoop tap (R290). -/
def Mod.tilePut (m : Mod) (d : StreamDesc) (a : Nat) (data : List (Byte × Bool)) (ecc : Ecc) : Mod :=
  (((m.yard .stream a data.length true).mergeDev true a data.length ecc).devWriteP a data).snoop d.id data

/-- Deliver a tile of a FILL or a COPY whose bytes have arrived; those for another module are sent first, and the tile is delivered
once they are acknowledged (R288). -/
def Mod.moveTile (m : Mod) (d : StreamDesc) (r : TileRun) (ecc : Ecc) : Mod :=
  let src := d.srcAt r.tile
  let rs := [(m.tileSrc r.step (fabDev src), d.tileBytes)]
  let dst := if d.kind = .fill then m.shedAddr ((m.tileWindow d r.tile).getD 0) else fabDev (d.dstAt r.tile)
  let far := d.kind == .copy && m.remoteAddr (d.dstAt r.tile)
  let module := fabModule (d.dstAt r.tile)
  if r.phase = 5 then (if m.writesOpen module dst d.tileBytes then m else m.farDone d r module dst)
  else if !m.fetchReady r (fabModule src) rs || (!far && (m.heldPort dst d.tileBytes).isSome) || !m.stagingRoom d then m
  else
    let z := m.fetchRead r (fabModule src) rs ecc
    let r1 := { r with tags := [], bad := r.bad <|> z.2.2 }
    if far then
      ((z.1.snoop d.id z.2.1).originateAll (writeFlits module m.self dst z.2.1 (d.tileBytes / 192 + 1))).setHead d { r1 with phase := 5 }
    else (z.1.tilePut d dst z.2.1 ecc).tileDone d r1

/-! ### Stash and unstash (R291) -/

/-- Is a core between kernels, so that the yard may have its SRAM (06_backward_pass.md R150)? -/
def Mod.sramFree (m : Mod) (c : Nat) : Bool := (m.core c).run.isNone

/-- Write bytes to a core's SRAM, poisoned ones as 0xFF (R290), not beyond its end. -/
def Mod.sramFill (m : Mod) (c a : Nat) (data : List (Byte × Bool)) : Mod :=
  m.sramWrite c a ((data.take (sramSize - a)).map (fun x => if x.2 then 0xFF else x.1))

/-- Store bytes over runs of device addresses. -/
def Mod.putRuns (d : StreamDesc) (ecc : Ecc) : Mod → List (Nat × Nat) → List (Byte × Bool) → Mod
  | m, [], _ => m
  | m, r :: rs, data => Mod.putRuns d ecc (m.tilePut d r.1 (data.take r.2) ecc) rs (data.drop r.2)

/-- Can every run be reached: no lost link holds it? -/
def Mod.runsFree (m : Mod) (rs : List (Nat × Nat)) : Bool := rs.all (fun r => (m.heldPort r.1 r.2).isNone)

/-- Deliver a STASH tile: the ranks' parts in ascending rank order into the instance's place; a dropped one moves nothing (R291).
An SRAM error met names no descriptor (DESIGN CHOICE: 0xFFFF_FFFF). -/
def Mod.stashTile (m : Mod) (d : StreamDesc) (r : TileRun) (ecc : Ecc) : Mod :=
  match kvGet? m.pad.insts (padKey d.winBase r.tile) with
  | none => m
  | some i =>
    let cs := m.ranks (d.aux % 256)
    let part := d.tileBytes / max cs.length 1
    let off := d.src % 2 ^ 20
    if i.place = .dropped then m.tileDone d r
    else if !cs.all m.sramFree || !m.runsFree (m.padRuns i) then m
    else
      let m1 := cs.foldl (fun (x : Mod) c => x.sramErrors c 0xFFFFFFFF [(off, part)] ecc) m
      (Mod.putRuns d ecc m1 (m1.padRuns i) (cs.flatMap (fun c => m1.sramRead c off part))).tileDone d r

/-- Write equal parts to the ranks' SRAM. -/
def Mod.fillRanks (off part : Nat) : Mod → List Nat → List (Byte × Bool) → Mod
  | m, [], _ => m
  | m, c :: cs, data => Mod.fillRanks off part (m.sramFill c off (data.take part)) cs (data.drop part)

/-- Deliver an UNSTASH tile; that of a dropped instance is delivered by its RECOMPUTE_BARRIER (R291). -/
def Mod.unstashTile (m : Mod) (d : StreamDesc) (r : TileRun) (ecc : Ecc) : Mod :=
  match kvGet? m.pad.insts (padKey d.winBase r.tile) with
  | none => m
  | some i =>
    let cs := m.ranks (d.aux % 256)
    let runs := m.padRuns i
    if i.place = .dropped || !cs.all m.sramFree || !m.runsFree runs then m
    else
      let m1 := runs.foldl (fun (x : Mod) q => x.yard .stream q.1 q.2 false) m
      let m2 := m1.readDev true runs ecc
      let data := runs.flatMap (fun q => m2.devRead q.1 q.2)
      let src := match i.place with | .spill _ => 1 | _ => 0
      let m3 := (Mod.fillRanks (d.dst % 2 ^ 20) (d.tileBytes / max cs.length 1) m2 cs data).snoop d.id data
      m3.tileDone d { r with bad := if rdPoison data then some src else none }

/-! ### Page walk (R292 to R294) -/

/-- The header of a slot written as poisoned. -/
def badSlot (seq b : Nat) : List Byte :=
  leBytes 8 0 ++ leBytes 4 seq ++ leBytes 4 (64 * b) ++ leBytes 2 64 ++ leBytes 1 0xFF ++ leBytes 45 0

/-- Bytes of a walk into a core's SRAM, past the snoop tap. -/
def Mod.walkPut (m : Mod) (d : StreamDesc) (a : Nat) (data : List Byte) : Mod :=
  let xs := data.map (fun b => (b, false))
  (m.sramFill (m.walkCore d) a xs).snoop d.id xs

/-- The device address of a page (09_attention.md R241) under a walk block. -/
def walkPage (b : List Byte) (p : Nat) : Nat :=
  let n := fun (o w : Nat) => leNat ((b.drop o).take w)
  n 0 6 + ((p * n 0x10 2 + n 0x14 2) * n 0x12 2 + n 0x16 2) * n 0xC 4

/-- Fill one slot: the page, or the poisoned form with whether it is the bad one to report (R293, R294). -/
def Mod.walkSlot (m : Mod) (d : StreamDesc) (b : List Byte) (a : Nat) (e : Nat × Nat × Nat) (ecc : Ecc) : Mod × Bool :=
  let n := fun (o w : Nat) => leNat ((b.drop o).take w)
  let t := m.unitRead true (e.2.2 + 4 * e.2.1) 4 ecc
  let p := leNat (rdBytes t.2)
  if rdPoison t.2 || decide (n 8 4 ≤ p) || p == 0xFFFFFFFF then (t.1.walkPut d a (badSlot e.1 e.2.1), true)
  else
    let z := t.1.unitRead true (walkPage b p) (n 0xC 4) ecc
    if rdPoison z.2 then (z.1.walkPut d a (badSlot e.1 e.2.1), true) else (z.1.walkPut d a (rdBytes z.2), false)

/-- Fill the slots of a buffer from slot `i` on, with the first bad page met. -/
def Mod.walkSlots (d : StreamDesc) (b : List Byte) (base : Nat) (ecc : Ecc) :
    Nat → Nat → List (Nat × Nat × Nat) → Mod → Option (Nat × Nat) → Mod × Option (Nat × Nat)
  | 0, _, _, m, bad => (m, bad)
  | k + 1, i, es, m, bad =>
    let a := base + i * leNat ((b.drop 0x28).take 4)
    match es with
    | [] => Mod.walkSlots d b base ecc k (i + 1) [] (m.walkPut d (a + 0x10) (leBytes 2 0)) bad
    | e :: rest =>
      let y := m.walkSlot d b a e ecc
      Mod.walkSlots d b base ecc k (i + 1) rest y.1 (bad <|> if y.2 then some (e.1, e.2.1) else none)

/-- Where the slots of a buffer lie under a walk block that breaks its limits (R292): by its SLOTS and PITCH where those keep to theirs,
else one at every 64 bytes, so that any slot a kernel reads is a poisoned one (DESIGN CHOICE, log 46). -/
def walkSlotsAt (b : List Byte) (base bytes : Nat) : List Nat :=
  let n := fun (o w : Nat) => leNat ((b.drop o).take w)
  let slots := n 0x24 2
  let pitch := n 0x28 4
  if 1 ≤ slots ∧ slots ≤ 16 ∧ 64 ≤ pitch ∧ n 0xC 4 ≤ pitch then (List.range slots).map (fun i => base + i * pitch)
  else (List.range (bytes / 64)).map (fun i => base + 64 * i)

/-- Write every slot of a buffer as poisoned, with SEQ 0xFFFF_FFFF (R294). -/
def Mod.walkBad (m : Mod) (d : StreamDesc) (at_ : List Nat) : Mod :=
  at_.foldl (fun (x : Mod) a => x.walkPut d a (badSlot 0xFFFFFFFF 0)) m

/-- Deliver a WALK tile. -/
def Mod.walkTile (m : Mod) (d : StreamDesc) (r : TileRun) (ecc : Ecc) : Mod :=
  let c := m.ctx d.id
  let b := c.walk
  let base := d.dst % 2 ^ 20 + r.tile % max d.ring 1 * d.tileBytes
  let slots := leNat ((b.drop 0x24).take 2)
  if !m.sramFree (m.walkCore d) then m
  else if b.isEmpty then (m.walkPut d base (List.replicate d.tileBytes 0xFF)).tileDone d r
  else if c.overflow || !walkOk b then (m.walkBad d (walkSlotsAt b base d.tileBytes)).tileDone d r
  else
    let z := m.unitRead true (walkList b).1 (walkList b).2 ecc
    if rdPoison z.2 then (z.1.walkPut d base (List.replicate d.tileBytes 0xFF)).tileDone d { r with bad := some 0 }
    else
      let es := ((walkTakes b (rdBytes z.2)).drop (r.tile * slots)).take slots
      let y := Mod.walkSlots d b base ecc slots 0 es z.1 none
      let m1 := match y.2 with
        | some (seq, blk) => (y.1.fset Fld.STM_ERR_KV_PAGE 1 (d.id / 16)).raise .contained 0x0806 d.id r.tile seq blk
        | none => y.1
      m1.tileDone d r

/-! ### Delivery -/

/-- Has every block of an etched tile been expanded? -/
def Mod.etchDone (m : Mod) (d : StreamDesc) (r : TileRun) : Bool :=
  r.phase == 4 && !(m.engine (d.id / 16)).staged.any (fun j => j.ctx == d.id % 16 && j.tile == r.tile && j.step == r.step)

/-- Has a tile a request that its engine's yard port could grant now (R287)? -/
def Mod.portReady (m : Mod) (d : StreamDesc) (r : TileRun) : Bool :=
  match d.kind with
  | .fill | .copy =>
    let src := d.srcAt r.tile
    let dst := if d.kind = .fill then m.shedAddr ((m.tileWindow d r.tile).getD 0) else fabDev (d.dstAt r.tile)
    let far := d.kind == .copy && m.remoteAddr (d.dstAt r.tile)
    !d.expand && r.phase != 5 && m.fetchReady r (fabModule src) [(m.tileSrc r.step (fabDev src), d.tileBytes)]
      && (far || (m.heldPort dst d.tileBytes).isNone) && m.stagingRoom d
  | .stash | .unstash => (kvGet? m.pad.insts (padKey d.winBase r.tile)).any (fun i =>
      i.place != .dropped && (m.ranks (d.aux % 256)).all m.sramFree && m.runsFree (m.padRuns i))
  | .walk => m.sramFree (m.walkCore d)

/-- Does another context of the engine come first at the yard port: a lower deadline, or an equal one and a lower context (R287)? -/
def Mod.portTaken (m : Mod) (d : StreamDesc) (r : TileRun) : Bool :=
  m.portReady d r && m.streams.any (fun e => e.id / 16 == d.id / 16 && e.id != d.id && match (m.ctx e.id).flight with
    | [] => false
    | q :: _ =>
      let x := m.tileDeadline e q.tile q.early
      let y := m.tileDeadline d r.tile r.early
      m.portReady e q && (decide (x < y) || (x == y && decide (e.id < d.id))))

/-- A context's oldest tile in flight is delivered where all of its bytes have come (R280) and the yard port grants it (R287). -/
def Mod.tileDeliver (m : Mod) (d : StreamDesc) (ecc : Ecc) : Mod :=
  let m0 := m.engineFetch (d.id / 16) ecc
  match (m0.ctx d.id).flight with
  | [] => m0
  | r :: _ =>
    if m0.portTaken d r then m0
    else match d.kind with
    | .fill => if d.expand then (if m0.etchDone d r then m0.tileDone d r else m0) else m0.moveTile d r ecc
    | .copy => m0.moveTile d r ecc
    | .stash => m0.stashTile d r ecc
    | .unstash => m0.unstashTile d r ecc
    | .walk => m0.walkTile d r ecc

/-- STREAM_TILE_DELIVERED (R280, R290, R291, R293). -/
def execStreamTileDelivered (stream : Nat) (ecc : Ecc) (s : State) : Host.Outcome State Fault Refusal :=
  .next (s.unit (fun m => match m.stream? stream with
    | some d => if m.streamsRun then m.tileDeliver d ecc else m
    | none => m))

/-! ### Expansion (R299, R301, R305) -/

/-- What a staged block expands to: raw bytes, a failed check with its code (Table 20-3, ETCH_BAD), a generation held in neither
slot, or poison. -/
inductive Expanded where
  | good (raw : List Byte)
  | bad (code : Nat)
  | gone
  | poisoned
deriving DecidableEq, Repr

/-- Does a block name the generation of a load that is not yet current (R305)? -/
def StmEngine.blocked (x : StmEngine) (j : EtchJob) : Bool :=
  let b := rdBytes j.data
  !j.hdrBad && !j.gone && !rdPoison j.data && j.ref.isNone && blkMode b % 4 == 1 && x.load.any (fun t => t.gen == blkGen b)

/-- Expand a block in the order of R299: checks, decryption, decoding by MODE. -/
def StmEngine.expand (x : StmEngine) (key : List Byte) (j : EtchJob) : Expanded :=
  let b := rdBytes j.data
  let payload := b.drop 16
  if j.hdrBad then .bad 0
  else if rdPoison j.data then .poisoned
  else if blkAlive b ≠ j.block % 2 ^ 16 then .bad 1
  else if !blkLengthsOk b j.raw then .bad 2
  else if blkCrc b ≠ crc32c (b.take 8 ++ payload) then .bad 3
  else if 3 ≤ blkMode b then .bad 4
  else
    let clear := if j.enc then etchDecrypt key j.tensor j.block payload else payload
    match blkMode b with
    | 0 => .good (clear.take j.raw)
    | 2 => .good (List.replicate j.raw 0)
    | _ => match if j.gone then none else j.ref.bind x.tab with
      | none => .gone
      | some t => match etchDecode t j.raw clear with
        | some bs => .good bs
        | none => .bad 5

/-- A tile of a context in flight. -/
def Mod.flightOf (m : Mod) (stream tile step : Nat) : Option TileRun :=
  (m.ctx stream).flight.find? (fun r => r.tile == tile && r.step == step)

/-- The deadline of a staged block (R286). -/
def Mod.jobDeadline (m : Mod) (e : Nat) (j : EtchJob) : Nat :=
  match m.stream? (16 * e + j.ctx), m.flightOf (16 * e + j.ctx) j.tile j.step with
  | some d, some r => m.tileDeadline d r.tile r.early
  | _, _ => 0

/-- The block with the lowest deadline, the lower context at equal ones; the list rises in context (R287). -/
def leastJob : List (Nat × EtchJob) → Option (Nat × EtchJob)
  | [] => none
  | e :: rest => match leastJob rest with
    | some f => if f.1 < e.1 then some f else some e
    | none => some e

/-- The block the expander takes next: the oldest of each context, none of one that waits for a load (R287, R305). -/
def Mod.pickJob (m : Mod) (e : Nat) : Option EtchJob :=
  let x := m.engine e
  let firsts := (List.range 16).filterMap (fun c => x.staged.find? (fun j => j.ctx == c))
  (leastJob ((firsts.filter (fun j => !x.blocked j)).map (fun j => (m.jobDeadline e j, j)))).map (·.2)

/-- Generations of an engine's slots as TABLE_GONE names them. -/
def StmEngine.gens (x : StmEngine) : Nat :=
  (x.tab0.map (·.gen)).getD 0 + 256 * (x.tab1.map (·.gen)).getD 0

/-- The key of a slot of the security engine (R298). -/
def Mod.etchKey (m : Mod) (slot : Nat) : List Byte := (kvGet? m.sec.keys slot).getD (Config.emptyKey slot)

/-- The tile of a failed block is poisoned (R290). -/
def Mod.markTile (m : Mod) (stream : Nat) (j : EtchJob) : Mod :=
  let c := m.ctx stream
  m.setCtx stream { c with flight := c.flight.map (fun r =>
    if r.tile = j.tile ∧ r.step = j.step then { r with bad := r.bad <|> some 3 } else r) }

/-- One block is expanded into its window; a failed one writes poison (R290, R299, R301). -/
def Mod.expandJob (m : Mod) (e : Nat) (d : StreamDesc) (j : EtchJob) (ecc : Ecc) : Mod :=
  let x := m.engine e
  let m1 := m.setEngine e { x with staged := x.staged.erase j }
  let dst := m.shedAddr ((m.tileWindow d j.tile).getD 0) + j.off
  let poison := List.replicate (cvtBytes d.cvt j.raw) ((0xFF : Byte), true)
  match x.expand (m.etchKey d.key) j with
  | .good raw =>
    let o := etchConvert d.cvt raw
    let w := m1.regs.read Reg.STM_XFLAGS e 0
    let m2 := ({ m1 with regs := m1.regs.write Reg.STM_XFLAGS e 0 (w ||| o.2.bits) }).fsat Fld.STM_XSAT_COUNT o.2.sat e
    m2.tilePut d dst (o.1.map (fun b => (b, false))) ecc
  | .bad code =>
    (((m1.fset Fld.STM_ERR_ETCH_BAD 1 e).raiseStep 0x0802 d.id j.block code j.tile).markTile d.id j).tilePut d dst poison ecc
  | .gone =>
    (((m1.fset Fld.STM_ERR_TABLE_GONE 1 e).raiseStep 0x0805 d.id j.block (blkGen (rdBytes j.data)) x.gens).markTile d.id j).tilePut d dst
      poison ecc
  | .poisoned => m1.tilePut d dst poison ecc

/-- ETCH_BLOCK_EXPAND: an engine's tiles are fetched as far as they go, then its expander takes one block (R287, R299). -/
def execEtchBlockExpand (engine : Nat) (ecc : Ecc) (s : State) : Host.Outcome State Fault Refusal :=
  .next (s.unit (fun m =>
    if !m.streamsRun then m
    else
      let m1 := m.engineFetch engine ecc
      match m1.pickJob engine with
      | some j => match m1.stream? (16 * engine + j.ctx) with
        | some d => m1.expandJob engine d j ecc
        | none => m1
      | none => m1))

/-! ### Decode tables (R302 to R305) -/

/-- A load refused on an engine: TABLE_BAD or TABLE_BUSY (R304). -/
def Mod.tableRefused (m : Mod) (e : Nat) (busy : Bool) (d0 d1 : Nat) : Mod :=
  if busy then (m.fset Fld.STM_ERR_TABLE_BUSY 1 e).raise .corrected 0x0804 e d0 d1
  else (m.fset Fld.STM_ERR_TABLE_BAD 1 e).raise .corrected 0x0803 e d0 d1

/-- A load on one engine: the module, and whether it was refused. -/
def Mod.tableLoad (m : Mod) (t : List (Byte × Bool)) (e : Nat) : Mod × Bool :=
  let x := m.engine e
  let b := rdBytes t
  let target := 1 - x.cur
  let gen := (tableOf b).gen
  match if rdPoison t then some 0 else tableFault b with
  | some k => (m.tableRefused e false gen k, true)
  | none =>
    if (x.tab x.cur).any (fun q => q.gen == gen) then (m.tableRefused e false gen 2, true)
    else if 0 < x.refs target then (m.tableRefused e true target (x.refs target), true)
    else
      let y := if target = 0 then { x with tab0 := none } else { x with tab1 := none }
      (m.setEngine e { y with load := some (tableOf b) }, false)

/-- STM_TBL_CMD.LOAD (R304). -/
def Mod.tableCmd (m : Mod) (ecc : Ecc) : Mod :=
  let a := m.get64 Fld.STM_TBL_ADDR_LO_ADDR Fld.STM_TBL_ADDR_HI_ADDR
  let mask := m.get64 Fld.STM_TBL_MASK_LO_MASK Fld.STM_TBL_MASK_HI_MASK
  let m1 := (m.yard .stream a 144 false).readDev false [(a, 144)] ecc
  let t := m1.devRead a 144
  let z := ((List.range 64).filter (fun e => mask.testBit e)).foldl (fun (z : Mod × Nat) e =>
    let y := z.1.tableLoad t e
    (y.1, if y.2 then z.2 + 2 ^ e else z.2)) (m1, 0)
  z.1.set64 Fld.STM_TBL_RESULT_LO_REFUSED Fld.STM_TBL_RESULT_HI_REFUSED z.2

/-- DECODE_TABLE_LOAD (R304). -/
def execDecodeTableLoad (ecc : Ecc) (s : State) : Host.Outcome State Fault Refusal :=
  .next (s.reg Reg.STM_TBL_CMD.base (fun m => m.tableCmd ecc))

/-- DECODE_TABLE_SWITCH: at a tick boundary the slot of an accepted load becomes current; the blocks that waited for its
generation count against it (R304, R305). -/
def execDecodeTableSwitch (engine : Nat) (s : State) : Host.Outcome State Fault Refusal :=
  .next (s.unit (fun m =>
    let x := m.engine engine
    match x.load with
    | some t =>
      if m.atBoundary then
        let target := 1 - x.cur
        let y := if target = 0 then { x with tab0 := some t } else { x with tab1 := some t }
        m.setEngine engine { y with cur := target, load := none, staged := x.staged.map (fun j =>
          if x.blocked j then { j with ref := some target } else j) }
      else m
    | none => m))

/-- STM_CTRL.CLR_SAT: the expander's saturation count (R301). -/
def execStmClrSat (engine : Nat) (s : State) : Host.Outcome State Fault Refusal :=
  .next (s.reg (Reg.STM_CTRL.addr engine 0) (fun m => m.fset Fld.STM_XSAT_COUNT 0 engine))

end Sys2Proof.Machine
end

