-- ==== Sys2Proof/Machine/Collectives.lean ====
section
/-! DEFINITION. The collective engine (13_collectives.md R339 to R360): operations served, transfers sent and received, sums formed
at homes, results delivered. The family "collective". -/

namespace Sys2Proof.Machine

/-! ### Who sends what to whom (R343, R345) -/

/-- Members of an operation. -/
def CollOp.size (o : CollOp) : Nat := max o.members.length 1

/-- Children of a member in a TREE. -/
def CollOp.kids (o : CollOp) (i : Nat) : List Nat := ((List.range o.fanout).map (fun f => i * o.fanout + 1 + f)).filter (fun c => decide (c < o.size))

/-- Members whose transfers member `i` needs for slice `s`, in the order it adds them. -/
def CollOp.feedsOf (o : CollOp) (s i : Nat) : List Nat :=
  let h := o.home s
  match o.pattern with
  | .direct => if i = h then (List.range o.size).filter (fun j => j != i) else []
  | .ring => if i = (h + 1) % o.size then [] else [(i + o.size - 1) % o.size]
  | .tree => o.kids i

/-- What this module needs for slice `s`. -/
def CollOp.feeds (o : CollOp) (s : Nat) : List Nat := o.feedsOf s o.self

/-- The member this module sends its contribution or partial of slice `s` to; none at the home. -/
def CollOp.sendsTo (o : CollOp) (s : Nat) : Option Nat :=
  let h := o.home s
  if o.self = h then none
  else match o.pattern with
    | .direct => some h
    | .ring => some ((o.self + 1) % o.size)
    | .tree => some ((o.self - 1) / o.fanout)

/-- The members whose values this module adds for slice `s`, in the order of R343. -/
def CollOp.turns (o : CollOp) (s : Nat) : List Nat :=
  match o.pattern with
  | .direct => if o.feeds s = [] then [o.self] else List.range o.size
  | .ring => o.feeds s ++ [o.self]
  | .tree => o.self :: o.feeds s

/-- Members this module passes a result of slice `s` to, in order (R345). -/
def CollOp.resultTo (o : CollOp) (s : Nat) : List Nat :=
  let h := o.home s
  if o.homeOnly then []
  else match o.pattern with
    | .direct => if o.self = h then (List.range o.size).filter (fun j => j != o.self) else []
    | .ring => if (o.self + 1) % o.size = h then [] else [(o.self + 1) % o.size]
    | .tree => o.kids o.self

/-- The member a result of slice `s` comes from; none at the home or where none comes. -/
def CollOp.resultFrom (o : CollOp) (s : Nat) : Option Nat :=
  let h := o.home s
  if o.homeOnly || o.self == h then none
  else match o.pattern with
    | .direct => some h
    | .ring => some ((o.self + o.size - 1) % o.size)
    | .tree => some ((o.self - 1) / o.fanout)

/-! ### Formats and lengths -/

/-- Is a format code BF16's? -/
def isBf16 (c : Nat) : Bool := Fmt.ofCode c == some .bf16

/-- Is the delivery format BF16 (R345)? -/
def Mod.deliverHalf (m : Mod) (o : CollOp) : Bool :=
  if o.kind = .allreduce then isBf16 o.fmtOut
  else (o.binding.bind m.binding?).any (fun g => g.ins.any (fun e => e.src == .slice && isBf16 e.fmt))

/-- Elements of a row of a ROWS operation. -/
def Mod.opRowLen (m : Mod) (o : CollOp) : Nat := ((o.binding.bind m.binding?).map (·.rowLen)).getD 1

/-- Elements of a dense slice (Table 13-3). -/
def CollOp.elems (o : CollOp) (e : SliceEnt) : Nat := if o.kind = .allreduce then e.b else e.c * e.d

/-- Bytes of a slice, or of a ROWS area, in SRAM (R341). -/
def Mod.sliceBytes (m : Mod) (o : CollOp) (e : SliceEnt) : Nat :=
  if o.kind = .rows then rowLength (isBf16 o.fmtIn) e.a (m.opRowLen o)
  else o.elems e * (if isBf16 o.fmtIn then 2 else 4)

/-- A slice entry of an operation. -/
def CollOp.ent (o : CollOp) (s : Nat) : SliceEnt := o.slices.getD s ⟨0, 0, 0, 0, 0, 0⟩

/-- Does member `i` send its own contribution of slice `s`, having nothing to add? -/
def CollOp.leaf (o : CollOp) (s i : Nat) : Bool := (o.feedsOf s i).isEmpty

/-- The form of a member's own contribution under COMP (Table 13-4). -/
def CollOp.compForm (o : CollOp) : Nat :=
  match o.comp with
  | .dense => denseForm o.wire16
  | .topk => 2
  | .sign => 3

/-- May member `i` send slice `s` in a form (R350, R359)? -/
def Mod.formOk (m : Mod) (o : CollOp) (s i form : Nat) : Bool :=
  if o.kind = .fence then form == 7
  else if 5 ≤ form then form == resultForm (m.deliverHalf o) && o.resultFrom s == some i
  else if !(o.feeds s).contains i then false
  else match o.kind with
    | .rows => form == 4
    | .allreduce => form == denseForm (if o.leaf s i then isBf16 o.fmtIn else o.wire16)
    | _ => if o.leaf s i then form == 0 || form == o.compForm else form == denseForm o.wire16

/-- Length of a transfer of member `i` (R359); a row value says its own by its count, a core's area is sent whole. -/
def Mod.formLength (m : Mod) (o : CollOp) (s i form : Nat) (b : List (Byte × Bool)) : Nat :=
  let e := o.ent s
  let n := o.elems e
  let c := leNat (rdBytes (b.take 4))
  if o.kind = .fence then 0
  else if o.kind = .rows then
    if form = 4 then (if o.leaf s i then m.sliceBytes o e else rowLength o.wire16 c (m.opRowLen o))
    else rowLength (m.deliverHalf o) c (m.opRowLen o)
  else match form with
    | 1 | 6 => 2 * n
    | 2 => 8 + 8 * topkCount o.density n
    | 3 => 4 + (n + 7) / 8
    | _ => 4 * n

/-- The value of a transfer of member `i` (R351). -/
def Mod.formRead (m : Mod) (o : CollOp) (s i form : Nat) (b : List (Byte × Bool)) : Contrib :=
  let e := o.ent s
  let n := o.elems e
  if o.kind = .rows then
    if form = 4 then
      (if o.leaf s i then rowRead (isBf16 o.fmtIn) (some e.a) b (m.opRowLen o) else rowRead o.wire16 none b (m.opRowLen o))
    else rowRead (m.deliverHalf o) none b (m.opRowLen o)
  else ⟨none, match form with
    | 1 | 6 => denseVals true b n
    | 2 => topkExpand b n
    | 3 => signExpand b n
    | _ => denseVals false b n⟩

/-! ### State of an operation -/

/-- The run of an operation. -/
def Mod.opRun (m : Mod) (k : Nat) : OpRun := kvGetD m.coll.ops k .rest

/-- Replace the run of an operation. -/
def Mod.setOp (m : Mod) (k : Nat) (x : OpRun) : Mod := { m with coll := { m.coll with ops := kvSet m.coll.ops k x } }

/-- A reducer's flags and saturations (R339; 04_number_formats.md R124). -/
def Mod.redFlags (m : Mod) (r : Nat) (f : Fl) : Mod :=
  let w := m.regs.read Reg.COL_RFLAGS r 0
  ({ m with regs := m.regs.write Reg.COL_RFLAGS r 0 (w ||| f.bits) }).fsat Fld.COL_RSAT_COUNT f.sat r

/-- Raise COLL_FORMAT: the step's verdict becomes FAULT (R354, R359). -/
def Mod.collFormat (m : Mod) (reducer op slice member : Nat) : Mod :=
  (m.fset Fld.COL_ERR_FORMAT 1).raiseStep 0x0C02 reducer op slice member

/-- Signal a barrier of an operation for its present micro-batch. -/
def Mod.opSignal (m : Mod) (o : CollOp) (bar : Option Nat) (mb : Nat) : Mod :=
  m.signal ((bar.map (fun b => b + mb * o.barStride)).getD 0xFFFF)

/-! ### Transfers sent (R357) -/

/-- The flits of a transfer from flit index `fi` on. -/
def collFlits (mk : Nat → List (Byte × Bool) → Bool → TFlit) : Nat → Nat → List (Byte × Bool) → List TFlit
  | 0, _, _ => []
  | n + 1, fi, data =>
    let last := decide (data.length ≤ 192)
    mk fi (data.take 192) last :: (if last then [] else collFlits mk n (fi + 1) (data.drop 192))

/-- ADDR of a COLL flit (Table 13-6). -/
def collAddr (op slice form flit : Nat) : Nat := op + slice * 2 ^ 16 + form * 2 ^ 28 + flit % 4096 * 2 ^ 32

/-- TAG of this module's COLL flits now. -/
def Mod.collTag (m : Mod) (mb : Nat) : Nat := mb % 256 + m.step.attempt % 2 * 256 + tagStep (m.fget Fld.GRM_STEP_STEP) * 512

/-- Send a transfer to a member: class SCH, a token in class CTL; a flit that holds poisoned data has POISON
(12_fabric_ports.md R337). -/
def Mod.sendXfer (m : Mod) (k : Nat) (o : CollOp) (s mb form i : Nat) (data : List (Byte × Bool)) : Mod :=
  let mk := fun (fi : Nat) (p : List (Byte × Bool)) (last : Bool) =>
    (⟨o.members.getD i 0, m.self, 4, if form = 7 then 2 else 0, 0, rdPoison p, false, last, 0, 0, m.collTag mb, collAddr k s form fi,
      p.length, rdBytes p, none⟩ : TFlit)
  m.originateAll (collFlits mk (data.length / 192 + 1) 0 data)

/-- Is a flit of the operation's present micro-batch still unacknowledged or waiting to be sent (R352)? -/
def Mod.collOpen (m : Mod) (k mb : Nat) : Bool :=
  let mine := fun (f : TFlit) => f.type == 4 && f.addr % 2 ^ 16 == k && f.tag == m.collTag mb
  m.fab.tx.any (fun e => e.2.unacked.any mine || e.2.waiting.any mine)

/-- This module's own contribution to a slice: sent at once where nothing is to be added to it and its home is elsewhere, else held
until the sum is formed (R343, R344). -/
def Mod.contribute (m : Mod) (k : Nat) (o : CollOp) (s mb form : Nat) (wire : List (Byte × Bool)) (c : Contrib) : Mod :=
  match o.feeds s, o.sendsTo s with
  | [], some t => m.sendXfer k o s mb form t wire
  | _, _ => let x := m.opRun k; m.setOp k { x with held := kvSet x.held s c }

/-! ### Transfers received (R359) -/

/-- Has a transfer all its flits? -/
def CollXfer.complete (x : CollXfer) : Bool := x.last == some (x.parts.length - 1) && !x.parts.isEmpty

/-- Bytes of a transfer, all with its poison. -/
def CollXfer.bytes (x : CollXfer) : List (Byte × Bool) := marked x.poisoned (x.parts.flatMap (·.2))

/-- The complete transfer that member `i` sent of slice `s` in the present micro-batch, a result or not. -/
def Mod.xferOf (m : Mod) (k : Nat) (o : CollOp) (s i : Nat) (result : Bool) : Option CollXfer :=
  let now := tagStep (m.fget Fld.GRM_STEP_STEP)
  m.coll.xfers.find? (fun x => x.op == k && x.slice == s && x.mb == (m.opRun k).mb && x.step == now && x.attempt == m.step.attempt
    && x.src == o.members.getD i 0 && (decide (5 ≤ x.form)) == result && x.complete)

/-- Take a transfer out of the buffer. -/
def Mod.dropXfer (m : Mod) (x : CollXfer) : Mod := { m with coll := { m.coll with xfers := m.coll.xfers.erase x } }

/-- Does a transfer hold a flit past its last one, or past the length its form and slice give (R359)? A row value says its length
itself. -/
def Mod.xferLong (m : Mod) (o : CollOp) (i : Nat) (x : CollXfer) : Bool :=
  x.last.any (fun l => x.parts.any (fun p => decide (l < p.1)))
    || (o.kind != .rows && x.parts.any (fun p => decide (0 < p.1) && decide (m.formLength o x.slice i x.form [] ≤ 192 * p.1)))

/-- Why a transfer of the present step and attempt does not agree with the operation (R359). -/
def Mod.xferBad (m : Mod) (x : CollXfer) : Bool :=
  match m.plate?.bind (fun p => p.colls.ops[x.op]?) with
  | none => true
  | some o => match o.members.findIdx? (fun i => i == x.src) with
    | none => true
    | some i =>
      decide (max o.slices.length 1 ≤ x.slice) || i == o.self || !m.formOk o x.slice i x.form
        || m.xferLong o i x || (x.complete && x.bytes.length != m.formLength o x.slice i x.form x.bytes)

/-- Transfers that do not agree are refused (R359). -/
def Mod.refuseBad (m : Mod) : Mod :=
  let now := tagStep (m.fget Fld.GRM_STEP_STEP)
  (m.coll.xfers.filter (fun x => x.step == now && x.attempt == m.step.attempt && m.xferBad x)).foldl (fun (y : Mod) x =>
    let o := m.plate?.bind (fun p => p.colls.ops[x.op]?)
    let i := (o.bind (fun o => o.members.findIdx? (fun i => i == x.src))).getD 0xFFFFFFFF
    (y.dropXfer x).collFormat ((o.map (·.reducer)).getD 0) x.op x.slice i) m

/-! ### Results (R345, R352, R354, R355) -/

/-- A value in the delivery format: its bytes. -/
def resultBytes (half : Bool) (c : Contrib) : List (Byte × Bool) := if c.rows.isSome then rowBytes half c else denseBytes half c.vals

/-- The result of a slice is known: kept, and passed on (R345). -/
def Mod.setResult (m : Mod) (k : Nat) (o : CollOp) (s : Nat) (c : Contrib) : Mod :=
  let x := m.opRun k
  let half := m.deliverHalf o
  (o.resultTo s).foldl (fun (y : Mod) i => y.sendXfer k o s x.mb (resultForm half) i (resultBytes half c))
    (m.setOp k { x with results := kvSet x.results s c })

/-- floor(log2) of the magnitude of a finite value that is not zero. -/
def Val.log2Floor : Val → Int
  | .fin _ m e => (Nat.log2 m : Int) + e
  | _ => 0

/-- The exponent e of a ledger entry's scale (08_step_commit.md R208); none where SCALE is 1.0. -/
def ledgerExp (vals : List (Nat × Bool)) : Option Int :=
  let mags := (vals.map (fun v => (fp32 v.1).abs)).filter (fun v => v.isFin && !v.isZero)
  match mags with
  | [] => none
  | v :: vs => some (max (-126) (min 127 ((vs.foldl Val.max v).log2Floor)))

/-- Write the ledger entry of a slice (08_step_commit.md R206 to R208) and add its squares to the reducer's ledger norm partial. -/
def Mod.ledgerWrite (m : Mod) (k : Nat) (o : CollOp) (s : Nat) (c : Contrib) : Mod :=
  let n := m.fget Fld.GRM_STEP_STEP
  match m.ledgerAt o.tensor k s n, m.ledgerRegion o.tensor with
  | some p, some r =>
    let e := o.ent s
    let x := (ledgerExp c.vals).getD 0
    let scale := (roundFp32 false (.fin false 1 (-x))).code
    let q := mapFl (fun (v : Nat × Bool) =>
      let t := (fp32 v.1).mul (.fin false 1 (-x))
      let b := (Fmt.spec .bf16).round .ieee false .nearest t.1
      ((b.code, v.2), (Fl.invalid t.2).join b.fl)) c.vals
    let vals := q.1.flatMap (fun v => marked v.2 (leBytes 2 v.1))
    let pay := vals ++ marked false (List.replicate (e.bf16Bytes - vals.length) 0)
    let h : LedgerHdr := ⟨n, o.tensor, e.a, e.b, e.c, e.d, scale, m.step.attempt, anyNonfinite c.vals, p.2 % 2 ^ 16, m.regionGen r,
      crc32c (rdBytes pay)⟩
    let sq := q.1.foldl (fun (a : Kv Nat × Fl) v =>
      let g := (Fmt.decode .bf16 v.1).mul (.fin false 1 x)
      let t := addSquare a.1 o.reducer g.1
      (t.1, a.2.join t.2)) (m.coll.ledgerNorm, .none)
    let m1 := (m.redFlags o.reducer (q.2.join sq.2)).yard .reducer p.1 e.entryBytes true
    let m2 := m1.devWriteP p.1 (marked false h.bytes ++ pay)
    { m2 with coll := { m2.coll with ledgerNorm := sq.1 } }
  | _, _ => m

/-- Write an ALLREDUCE result at DATA (R355). -/
def Mod.dataWrite (m : Mod) (o : CollOp) (s : Nat) (c : Contrib) (ecc : Ecc) : Mod :=
  let half := m.deliverHalf o
  let b := denseBytes half c.vals
  let a := o.data + (o.ent s).a * (if half then 2 else 4)
  let ends := (if a % 64 = 0 then [] else [(a, 1)]) ++ (if (a + b.length) % 64 = 0 then [] else [(a + b.length - 1, 1)])
  ((m.yard .reducer a b.length true).eccDev true ends ecc).devWriteP a b

/-- Hand a slice to its groom unit's buffer (R352). -/
def Mod.toGroom (m : Mod) (k : Nat) (o : CollOp) (s : Nat) (c : Contrib) : Mod :=
  match o.binding.bind m.binding? with
  | some g => let u := m.groomUnit g.unit; m.setGroom g.unit { u with buffer := u.buffer ++ [⟨k, s, c.rows, c.vals⟩] }
  | none => m

/-- Are results of the operation's binding entered in a ledger? -/
def Mod.toLedger (m : Mod) (o : CollOp) : Bool := o.kind == .exchange && (o.binding.bind m.binding?).any (fun g => decide (0 < m.lagOf g))

/-- Bytes of a groom unit's slice buffer (07_groom_units.md Table 07-1). -/
def groomBufferSize : Nat := 8 * 2 ^ 20

/-- Bytes a slice takes in the slice buffer: its values in the delivery format, and its row indices. -/
def sliceRoom (half : Bool) (rows : Option (List Nat)) (vals : List (Nat × Bool)) : Nat :=
  vals.length * (if half then 2 else 4) + 4 * (rows.getD []).length

/-- Bytes that wait in a groom unit's slice buffer. -/
def Mod.groomBytes (m : Mod) (u : Nat) : Nat :=
  ((m.groomUnit u).buffer.map (fun x =>
    sliceRoom (((m.plate?.bind (fun p => p.colls.ops[x.op]?)).map m.deliverHalf).getD false) x.rows x.vals)).sum

/-- May the result of slice `s` be delivered now: entries of a ledger are written in table order, and a lost link holds them; a full
slice buffer holds a delivery to it (07_groom_units.md R174)? -/
def Mod.mayDeliver (m : Mod) (k : Nat) (o : CollOp) (s : Nat) : Bool :=
  if m.toLedger o then
    ((List.range s).filter o.delivers).all (m.opRun k).delivered.contains
      && (match m.ledgerAt o.tensor k s (m.fget Fld.GRM_STEP_STEP) with
        | some p => (m.heldPort p.1 (o.ent s).entryBytes).isNone
        | none => true)
  else if o.kind = .allreduce then true
  else match o.binding.bind m.binding?, kvGet? (m.opRun k).results s with
    | some g, some c => decide (m.groomBytes g.unit + sliceRoom (m.deliverHalf o) c.rows c.vals ≤ groomBufferSize)
    | _, _ => true

/-- Deliver the result of a slice where it is due and known. -/
def Mod.deliverSlice (m : Mod) (k : Nat) (o : CollOp) (s : Nat) (ecc : Ecc) : Mod :=
  let x := m.opRun k
  match kvGet? x.results s with
  | none => m
  | some c =>
    if !o.delivers s || x.delivered.contains s || !m.mayDeliver k o s then m
    else
      let m1 := if o.kind = .allreduce then m.dataWrite o s c ecc else if m.toLedger o then m.ledgerWrite k o s c else m.toGroom k o s c
      let m2 := if c.vals.any (·.2) && m.stepOpen then m1.fault 0x0902 else m1
      m2.setOp k { x with delivered := setAdd x.delivered s }

/-! ### Progress of an operation -/

/-- The slices whose values of a member are summed together: a row operation sums a row over every area of the members that list it
(R354), in slice 0; any other operation sums each slice by itself. -/
def CollOp.together (o : CollOp) (s : Nat) : List Nat := if o.kind = .rows then List.range o.slices.length else [s]

/-- The value of member `i` for slice `s`, where it is there: the module's own once the operation is served, another's once its
transfers are complete; with the transfers it takes. -/
def Mod.turnValue (m : Mod) (k : Nat) (o : CollOp) (s i : Nat) : Option ((Contrib × Fl) × List CollXfer) :=
  let ss := o.together s
  if i = o.self then
    let cs := ss.filterMap (fun t => kvGet? (m.opRun k).held t)
    if cs.length = ss.length then (sumAll (m.opRowLen o) cs).map (fun c => (c, [])) else none
  else
    let xs := ss.filterMap (fun t => m.xferOf k o t i false)
    if xs.length = ss.length then
      (sumAll (m.opRowLen o) (xs.map (fun x => m.formRead o x.slice i x.form x.bytes))).map (fun c => (c, xs))
    else none

/-- Add the values whose turn has come (R343, R344). -/
def Mod.sumTurns (k : Nat) (o : CollOp) (s : Nat) : List Nat → Mod → Mod
  | [], m => m
  | i :: rest, m =>
    match m.turnValue k o s i with
    | none => m
    | some (c, xs) =>
      let x := m.opRun k
      let p := kvGetD x.parts s ⟨0, none⟩
      let r := match p.sum with
        | none => (c.1, Fl.none)
        | some a => a.sum (m.opRowLen o) c.1
      let m1 := xs.foldl Mod.dropXfer (m.setOp k { x with parts := kvSet x.parts s ⟨p.next + 1, some r.1⟩ })
      Mod.sumTurns k o s rest (m1.redFlags o.reducer (c.2.join r.2))

/-- A sum that is whole: a partial goes on to its member, the reduced value is rounded once to the delivery format and handed out
(R343, R345). Of a row operation the union goes as slice 0, and the other slices hold no row (DESIGN CHOICE). -/
def Mod.sumWhole (m : Mod) (k : Nat) (o : CollOp) (s : Nat) (c : Contrib) : Mod :=
  let x := m.opRun k
  let ss := o.together s
  let m1 := m.setOp k { x with held := kvKeep x.held (fun t => !ss.contains t), parts := kvDel x.parts s }
  let part := fun (t : Nat) (v : Contrib) => if t = s then v else ⟨some [], []⟩
  match o.sendsTo s with
  | some t =>
    let p := c.toFormat o.wire16
    ss.foldl (fun (y : Mod) u =>
      let v := part u p.1
      if o.kind = .rows then y.sendXfer k o u x.mb 4 t (rowBytes o.wire16 v)
      else y.sendXfer k o u x.mb (denseForm o.wire16) t (denseBytes o.wire16 v.vals)) (m1.redFlags o.reducer p.2)
  | none =>
    let r := c.toFormat (m.deliverHalf o)
    ss.foldl (fun (y : Mod) u => y.setResult k o u (part u r.1)) (m1.redFlags o.reducer r.2)

/-- Go on with the sum of a slice as far as the values that are there allow (R343, R344). -/
def Mod.sumSlice (m : Mod) (k : Nat) (o : CollOp) (s : Nat) : Mod :=
  if o.kind = .rows ∧ s ≠ 0 then m
  else
    let turns := o.turns s
    let m1 := Mod.sumTurns k o s (turns.drop (kvGetD (m.opRun k).parts s ⟨0, none⟩).next) m
    match kvGet? (m1.opRun k).parts s with
    | some ⟨n, some c⟩ => if n = turns.length then m1.sumWhole k o s c else m1
    | _ => m1

/-- Take a result that has arrived. -/
def Mod.takeResult (m : Mod) (k : Nat) (o : CollOp) (s : Nat) : Mod :=
  if (kvGet? (m.opRun k).results s).isSome then m
  else match o.resultFrom s with
    | none => m
    | some i => match m.xferOf k o s i true with
      | none => m
      | some t => (m.dropXfer t).setResult k o s (m.formRead o s i t.form t.bytes)

/-- Has the module a token from every other member? -/
def Mod.tokensHeld (m : Mod) (k : Nat) (o : CollOp) : Bool :=
  (List.range o.size).all (fun i => i == o.self || (m.xferOf k o 0 i true).isSome)

/-- The operation is complete for its micro-batch: DONE_BAR is signalled; ALLREDUCE and FENCE go on to the next one. -/
def Mod.opDone (m : Mod) (k : Nat) (o : CollOp) : Mod :=
  let x := m.opRun k
  let m1 := m.opSignal o o.doneBar x.mb
  let again := (o.kind == .allreduce || o.kind == .fence) && decide (x.mb < m.lastMb)
  if again then m1.setOp k { OpRun.rest with st := .waitInput, mb := x.mb + 1, nonfinite := x.nonfinite }
  else Mod.setOp { m1 with step := { m1.step with opsDone := setAdd m1.step.opsDone k } } k { x with st := .done }

/-- Is nothing left of the operation in this micro-batch (R352)? -/
def Mod.opOver (m : Mod) (k : Nat) (o : CollOp) : Bool :=
  let x := m.opRun k
  if o.kind = .fence then m.tokensHeld k o
  else x.held.isEmpty && ((List.range o.slices.length).filter o.delivers).all x.delivered.contains && !m.collOpen k x.mb

/-- Go on with an operation: one that has been served in full, one that waits for its input with the sums whose turn has come (R344). -/
def Mod.opProgress (m : Mod) (k : Nat) (o : CollOp) (ecc : Ecc) : Mod :=
  if (m.opRun k).st = .waitInput then (List.range o.slices.length).foldl (fun (y : Mod) s => y.sumSlice k o s) m
  else if (m.opRun k).st = .sending ∨ (m.opRun k).st = .waitResult then
    let m1 := (List.range o.slices.length).foldl (fun (y : Mod) s => ((y.sumSlice k o s).takeResult k o s).deliverSlice k o s ecc) m
    if m1.opOver k o then m1.opDone k o
    else
      let x := m1.opRun k
      m1.setOp k { x with st := if !x.held.isEmpty || m1.collOpen k x.mb then .sending else .waitResult }
  else m

/-- Go on with every operation, in ascending index (R346), unless the step has a fault (06_backward_pass.md R160). -/
def Mod.collProgress (m : Mod) (ecc : Ecc) : Mod :=
  if m.stepOpen && m.step.cause.isNone && !m.unitsHalted then m.collOps.foldl (fun (y : Mod) e => y.opProgress e.1 e.2 ecc) m.refuseBad else m

/-! ### The exchange residual (06_backward_pass.md R152, R153; R347) -/

/-- Bytes of a residual record: tag and BF16 values, padded to 64. -/
def SliceEnt.residBytes (e : SliceEnt) : Nat := (8 + 2 * e.c * e.d + 63) / 64 * 64

/-- Live address of the residual record of slice `s`. -/
def CollOp.residAt (o : CollOp) (s : Nat) : Nat := o.resid + ((o.slices.take s).map SliceEnt.residBytes).sum

/-- Generation of the RESIDUAL region of an operation. -/
def Mod.residGen (m : Mod) (o : CollOp) : Nat := ((m.region? o.resid).map m.regionGen).getD 0

/-- Is a residual tag valid for the read of micro-batch `mb` (06_backward_pass.md R153)? -/
def Mod.tagValid (m : Mod) (o : CollOp) (mb tag : Nat) : Bool :=
  let n := m.fget Fld.GRM_STEP_STEP
  tag / 2 ^ 48 == m.residGen o
    && (if mb = 0 then tag / 2 ^ 32 % 256 == 2 && tag % 2 ^ 32 == (n + 2 ^ 32 - 1) % 2 ^ 32
        else tag / 2 ^ 32 % 256 == 1 && tag % 2 ^ 32 == n && tag / 2 ^ 40 % 256 == mb - 1)

/-- Read the residual of a slice under the tag rule. -/
def Mod.residRead (m : Mod) (o : CollOp) (s mb : Nat) (ecc : Ecc) : Mod × List (Nat × Bool) :=
  let e := o.ent s
  let n := e.c * e.d
  let a := o.residAt s
  let y := (m.yard .reducer a (8 + 2 * n) false).unitRead true a (8 + 2 * n) ecc
  let tag := y.2.take 8
  (y.1, if rdPoison tag then List.replicate n (0, true)
        else if m.tagValid o mb (leNat (rdBytes tag)) then denseVals true (y.2.drop 8) n
        else List.replicate n (0, false))

/-- Write the residual of a slice with its tag: live (ACCUM), or in the shadow view (FEEDBACK). -/
def Mod.residWrite (m : Mod) (o : CollOp) (s mb : Nat) (feedback : Bool) (vals : List (Nat × Bool)) : Mod :=
  let e := o.ent s
  let a := o.residAt s
  let dst := if feedback then m.outAt a else a
  let tag := leBytes 4 (m.fget Fld.GRM_STEP_STEP) ++ leBytes 1 (if feedback then 2 else 1) ++ leBytes 1 mb ++ leBytes 2 (m.residGen o)
  let body := marked false tag ++ denseBytes true vals
  (m.yard .reducer dst e.residBytes true).devWriteP dst (body ++ marked false (List.replicate (e.residBytes - body.length) 0))

/-! ### Serving an operation (R346, R347, R354 to R356) -/

/-- Read a slice from its core's SRAM (06_backward_pass.md R150), as it stands there. -/
def Mod.sliceRead (m : Mod) (o : CollOp) (s : Nat) (ecc : Ecc) : Mod × List (Byte × Bool) :=
  let e := o.ent s
  let n := m.sliceBytes o e
  let m1 := m.sramErrors e.core 0xFFFFFFFF [(e.off, n)] ecc
  (m1, m1.sramRead e.core e.off n)

/-- May an operation of a kind be served now: its step open, its input barrier complete, its cores between kernels, the residual and
the ledger within reach? -/
def Mod.opReady (m : Mod) (k : Nat) (kind : CollKind) : Option CollOp :=
  match m.plate?.bind (fun p => p.colls.ops[k]?) with
  | none => none
  | some o =>
    let x := m.opRun k
    let held := kind == .exchange && (m.heldPort o.resid ((o.slices.map SliceEnt.residBytes).sum)).isSome
    if o.kind == kind && m.framesRun && m.step.cause.isNone && !m.unitsHalted && x.st == .waitInput
        && m.barrierDone (o.inBar + x.mb * o.barStride) && o.slices.all (fun e => m.sramFree e.core) && !held then some o else none

/-- The operation's slices have been read: the reducer shows it, and REL_BAR is given. -/
def Mod.opRead (m : Mod) (k : Nat) (o : CollOp) (mb : Nat) : Mod := (m.fset Fld.COL_RSTATUS_OP k o.reducer).opSignal o o.relBar mb

/-- ACCUMULATE of one slice (06_backward_pass.md R152). -/
def Mod.accumSlice (m : Mod) (o : CollOp) (mb : Nat) (ecc : Ecc) (s : Nat) : Mod :=
  let g := m.sliceRead o s ecc
  let r := g.1.residRead o s mb ecc
  let gs := denseVals (isBf16 o.fmtIn) g.2 (o.elems (o.ent s))
  let q := mapFl (fun (p : (Nat × Bool) × (Nat × Bool)) =>
    let t := (fp32 p.1.1).add (fp32 p.2.1)
    let b := (Fmt.spec .bf16).round .ieee false .nearest t.1
    ((b.code * 65536, p.1.2 || p.2.2), (Fl.invalid t.2).join b.fl)) (r.2.zip gs)
  (r.1.redFlags o.reducer q.2).residWrite o s mb false q.1

/-- Raise COLL_NONFINITE, once per operation (R350). -/
def Mod.nonfiniteOnce (m : Mod) (k : Nat) (o : CollOp) (s : Nat) : Mod :=
  let x := m.opRun k
  if x.nonfinite then m
  else ((m.setOp k { x with nonfinite := true }).fset Fld.COL_ERR_NONFINITE 1).raise .contained 0x0C01 o.reducer k s

/-- One slice of an exchange's last micro-batch (R348 to R350). -/
def Mod.exchangeSlice (m : Mod) (k : Nat) (o : CollOp) (mb : Nat) (ecc : Ecc) (s : Nat) : Mod :=
  let g := m.sliceRead o s ecc
  let r := g.1.residRead o s mb ecc
  let e := sumVals r.2 (denseVals (isBf16 o.fmtIn) g.2 (o.elems (o.ent s)))
  let v := o.sent e.1
  let f := mapFl (fun (p : (Nat × Bool) × (Nat × Bool)) => feedbackElem p.1 p.2) (e.1.zip v.1)
  let m1 := (r.1.redFlags o.reducer (e.2.join (v.2.join f.2))).residWrite o s mb true f.1
  let bad := anyNonfinite e.1
  let m2 := if bad then m1.nonfiniteOnce k o s else m1
  let wire := if bad then denseBytes false v.1 else match o.comp with
    | .dense => denseBytes o.wire16 v.1
    | .topk => topkBytes (topkCount o.density v.1.length) v.1
    | .sign => signBytes v.1
  m2.contribute k o s mb (if bad then 0 else o.compForm) wire ⟨none, v.1⟩

/-- EXCHANGE's work for the micro-batch whose input barrier is complete (R347, R348). -/
def Mod.exchange (m : Mod) (k : Nat) (ecc : Ecc) : Mod :=
  match m.opReady k .exchange with
  | none => m
  | some o =>
    let mb := (m.opRun k).mb
    let ss := List.range o.slices.length
    if mb < m.lastMb then
      let m1 := (ss.foldl (fun (y : Mod) s => y.accumSlice o mb ecc s) m).opRead k o mb
      m1.setOp k { m1.opRun k with mb := mb + 1 }
    else
      let m1 := (ss.foldl (fun (y : Mod) s => y.exchangeSlice k o mb ecc s) m).opRead k o mb
      let m2 := { m1 with step := { m1.step with residRun := setAdd m1.step.residRun k } }
      (m2.setOp k { m2.opRun k with st := .sending }).collProgress ecc

/-- EXCHANGE. -/
def execExchange (op : Nat) (ecc : Ecc) (s : State) : Host.Outcome State Fault Refusal :=
  .next (s.unit (fun m => m.exchange op ecc))

/-- Strictly ascending, and below a bound? -/
def ascending (bound : Nat) : List Nat → Bool
  | [] => true
  | [a] => decide (a < bound)
  | a :: b :: rest => decide (a < b) && ascending bound (b :: rest)

/-- Does a ROWS area pass its check (R354)? -/
def Mod.areaOk (m : Mod) (o : CollOp) (e : SliceEnt) (area : List (Byte × Bool)) : Bool :=
  let rows := ((m.tensor? o.tensor).map (·.elements)).getD 0 / max (m.opRowLen o) 1
  let c := leNat (rdBytes (area.take 4))
  decide (c ≤ e.a) && ascending rows ((rowRead false (some e.a) area 0).rows.getD [])

/-- ROWS's work (R354). -/
def Mod.rowsServe (m : Mod) (k : Nat) (ecc : Ecc) : Mod :=
  match m.opReady k .rows with
  | none => m
  | some o =>
    let mb := (m.opRun k).mb
    let half := isBf16 o.fmtIn
    let m1 := (List.range o.slices.length).foldl (fun (y : Mod) s =>
      let a := y.sliceRead o s ecc
      if a.1.areaOk o (o.ent s) a.2 then
        a.1.contribute k o s mb 4 a.2 (rowRead half (some (o.ent s).a) a.2 (y.opRowLen o))
      else a.1.collFormat o.reducer k s o.self) m
    let m2 := m1.opRead k o mb
    (m2.setOp k { m2.opRun k with st := .sending }).collProgress ecc

/-- ROWS. -/
def execRows (op : Nat) (ecc : Ecc) (s : State) : Host.Outcome State Fault Refusal :=
  .next (s.unit (fun m => m.rowsServe op ecc))

/-- ALLREDUCE's work for the micro-batch whose input barrier is complete (R355). -/
def Mod.allreduce (m : Mod) (k : Nat) (ecc : Ecc) : Mod :=
  match m.opReady k .allreduce with
  | none => m
  | some o =>
    let mb := (m.opRun k).mb
    let half := isBf16 o.fmtIn
    let m1 := (List.range o.slices.length).foldl (fun (y : Mod) s =>
      let a := y.sliceRead o s ecc
      let vals := denseVals half a.2 (o.elems (o.ent s))
      a.1.contribute k o s mb (denseForm half) (denseBytes half vals) ⟨none, vals⟩) m
    let m2 := m1.opRead k o mb
    (m2.setOp k { m2.opRun k with st := .sending }).collProgress ecc

/-- ALLREDUCE. -/
def execAllreduce (op : Nat) (ecc : Ecc) (s : State) : Host.Outcome State Fault Refusal :=
  .next (s.unit (fun m => m.allreduce op ecc))

/-- No error met. -/
def noEcc : Ecc := ⟨[], [], [], []⟩

/-- FENCE's work (R356): a token to every other member once the input barrier is complete. -/
def Mod.fenceServe (m : Mod) (k : Nat) : Mod :=
  match m.opReady k .fence with
  | none => m
  | some o =>
    let mb := (m.opRun k).mb
    let m1 := ((List.range o.size).filter (fun i => i != o.self)).foldl (fun (y : Mod) i => y.sendXfer k o 0 mb 7 i []) m
    let m2 := m1.fset Fld.COL_RSTATUS_OP k o.reducer
    (m2.setOp k { m2.opRun k with st := .waitResult }).collProgress noEcc

/-- FENCE. -/
def execFence (op : Nat) (s : State) : Host.Outcome State Fault Refusal := .next (s.unit (fun m => m.fenceServe op))

/-! ### Flits received (R359) -/

/-- Is a transfer of this step and attempt, up to the boundary at which the step's verdict takes effect? -/
def Mod.collNow (m : Mod) (step attempt : Nat) : Bool :=
  (m.framesRun || m.step.phase == .await || (m.step.phase == .actions && decide (m.tick.count ≤ m.step.actTick)))
    && step == tagStep (m.fget Fld.GRM_STEP_STEP) && attempt == m.step.attempt

/-- Is it held: of the next step, or of attempt 1 before this module's REPLAY boundary? -/
def Mod.collLater (m : Mod) (step attempt : Nat) : Bool :=
  step == tagStep (m.fget Fld.GRM_STEP_STEP + 1)
    || (step == tagStep (m.fget Fld.GRM_STEP_STEP) && attempt == 1 && m.step.attempt == 0 && m.stepBusy
        && !m.step.verdict.any (fun v => m.step.phase == .actions && v.kind != .replay))

/-- The reducer of an operation of the active plate. -/
def Mod.reducerOf (m : Mod) (k : Nat) : Nat := ((m.plate?.bind (fun p => p.colls.ops[k]?)).map (·.reducer)).getD 0

/-- Bytes in a reducer's buffer: those of transfers that wait (R344). -/
def Mod.reducerBytes (m : Mod) (r : Nat) : Nat :=
  ((m.coll.xfers.filter (fun x => m.reducerOf x.op == r)).map (fun x => (x.parts.map (fun p => p.2.length)).sum)).sum

/-- Bytes of a reducer's buffer (R339). -/
def reducerSize : Nat := 32 * 2 ^ 20

/-- A flit joins its transfer. -/
def CollXfer.join (x : CollXfer) (f : TFlit) : CollXfer :=
  let i := f.addr / 2 ^ 32 % 4096
  { x with parts := kvSet x.parts i (f.payload.take f.len), last := if f.last then some i else x.last, poisoned := x.poisoned || f.poison }

/-- Does a flit belong to a transfer? -/
def CollXfer.owns (x : CollXfer) (f : TFlit) : Bool :=
  x.src == f.src && x.op == f.addr % 2 ^ 16 && x.slice == f.addr / 2 ^ 16 % 4096 && x.form == f.addr / 2 ^ 28 % 16
    && x.mb == f.tag % 256 && x.attempt == f.tag / 256 % 2 && x.step == f.tag / 512 % 2 ^ 15

/-- A transfer with no flit yet. -/
def CollXfer.start (f : TFlit) : CollXfer :=
  ⟨f.src, f.addr % 2 ^ 16, f.addr / 2 ^ 16 % 4096, f.tag % 256, f.tag / 256 % 2, f.tag / 512 % 2 ^ 15, f.addr / 2 ^ 28 % 16, [], none, false⟩

/-- Put a flit into the buffer, with the buffer's high-water mark. -/
def Mod.bufferFlit (m : Mod) (f : TFlit) : Mod :=
  let xs := if m.coll.xfers.any (fun x => x.owns f) then m.coll.xfers.map (fun x => if x.owns f then x.join f else x)
    else m.coll.xfers ++ [(CollXfer.start f).join f]
  let m1 := { m with coll := { m.coll with xfers := xs } }
  let r := m.reducerOf (f.addr % 2 ^ 16)
  { m1 with coll := { m1.coll with high := kvSet m1.coll.high r (max (kvGetD m1.coll.high r 0) (m1.reducerBytes r)) } }

/-- A flit of no use is discarded and counted; COLL_STALE at most once per tick. -/
def Mod.collStale (m : Mod) (f : TFlit) : Mod :=
  let m1 := (m.fsat Fld.COL_STALE_COUNT).fset Fld.COL_ERR_STALE 1
  if m.coll.staleRaised then m1
  else Mod.raise { m1 with coll := { m1.coll with staleRaised := true } } .corrected 0x0C03 (m.reducerOf (f.addr % 2 ^ 16)) (f.addr % 2 ^ 16) f.tag

/-- Need a flit of this step not wait in the buffer: a token, a result due, or a value whose turn it is (R344)? -/
def Mod.collInTurn (m : Mod) (f : TFlit) : Bool :=
  let k := f.addr % 2 ^ 16
  let s := f.addr / 2 ^ 16 % 4096
  match m.plate?.bind (fun p => p.colls.ops[k]?) with
  | none => true
  | some o =>
    let t := if o.kind = .rows then 0 else s
    let turn := ((o.turns t)[(kvGetD (m.opRun k).parts t ⟨0, none⟩).next]?).map (fun i => o.members.getD i 0)
    f.len == 0 || decide (5 ≤ f.addr / 2 ^ 28 % 16) || (turn == some f.src && f.tag % 256 == (m.opRun k).mb)

/-- What becomes of a flit (R359): whether it is of this step and attempt, to be held, or of no use; one that must wait where the
buffer is full is not taken yet (R344). -/
def Mod.collTakes (m : Mod) (f : TFlit) : Bool :=
  let step := f.tag / 512 % 2 ^ 15
  let attempt := f.tag / 256 % 2
  let now := m.collNow step attempt
  f.type == 4 && (!(now || m.collLater step attempt) || (now && m.collInTurn f)
    || decide (m.reducerBytes (m.reducerOf (f.addr % 2 ^ 16)) + f.len ≤ reducerSize))

/-- COLL_FLIT's work. -/
def Mod.collFlit (m : Mod) (ecc : Ecc) : Mod :=
  match if m.unitsHalted then none else m.takeFlit m.collTakes with
  | none => m
  | some (f, m1) =>
    let step := f.tag / 512 % 2 ^ 15
    let attempt := f.tag / 256 % 2
    if m.collNow step attempt then (m1.bufferFlit f).collProgress ecc
    else if m.collLater step attempt then m1.bufferFlit f
    else m1.collStale f

/-- COLL_FLIT. -/
def execCollFlit (ecc : Ecc) (s : State) : Host.Outcome State Fault Refusal := .next (s.unit (fun m => m.collFlit ecc))

/-- E2E_ACK (12_fabric_ports.md R335); an operation that waited for it goes on (R352). -/
def execE2eAck (s : State) : Host.Outcome State Fault Refusal := .next (s.unit (fun m => m.e2eAck.collProgress noEcc))

/-- GROOM_SLICE_PROCESS (07_groom_units.md R174, R175): the slice leaves the buffer, and deliveries that waited for room go on. -/
def execGroomSliceProcess (unit : Nat) (ecc : Ecc) (s : State) : Host.Outcome State Fault Refusal :=
  .next (s.unit (fun m => (m.sliceProcess unit ecc).collProgress noEcc))

/-- COL_RCTRL.CLR_SAT (R339). -/
def execColClrSat (reducer : Nat) (s : State) : Host.Outcome State Fault Refusal :=
  .next (s.reg (Reg.COL_RCTRL.addr reducer 0) (fun m => m.fset Fld.COL_RSAT_COUNT 0 reducer))

end Sys2Proof.Machine
end

