-- ==== Sys2Proof/Machine/StepStart.lean ====
section
/-! DEFINITION. Arming and starting a step (07_groom_units.md R178 to R182): the family "step", up to the step's first boundary. -/

namespace Sys2Proof.Machine

/-! ### Arming -/

/-- Is an FP32 code finite? -/
def finite32 (c : Nat) : Bool := c / 2 ^ 23 % 256 != 255

/-- A write of GRM_STEPSZ_NEXT (R178): one that is not finite is discarded. -/
def Mod.stepszWrite (m : Mod) (v : Nat) : Mod :=
  if finite32 v then
    let m1 := m.fset Fld.GRM_STEPSZ_NEXT_SZ v
    { m1 with step := { m1.step with szFresh := true } }
  else (m.fset Fld.GRM_STEP_STATUS_BAD_SZ 1).raise .corrected 0x0601 0 v

/-- STEPSZ_NEXT_WRITE (R178). -/
def execStepszNextWrite (val : Nat) (s : State) : Host.Outcome State Fault Refusal :=
  .next (s.reg Reg.GRM_STEPSZ_NEXT.base (fun m => m.stepszWrite val))

/-- A write of GRM_STEP_NEXT (R178): arms the pair, with the step size written since the last arming; one that lands in a
boundary's core cycle counts from the next boundary (R179). -/
def Mod.stepArm (m : Mod) (v : Nat) : Mod :=
  let m1 := m.fset Fld.GRM_STEP_NEXT_STEP v
  let sz := if m.step.szFresh then some (m.fget Fld.GRM_STEPSZ_NEXT_SZ) else none
  { m1 with step := { m1.step with armed := some (v % 2 ^ 32, sz), szFresh := false,
                                   armTick := if m.atBoundary then some m.tick.count else none } }

/-- STEP_NEXT_WRITE (R178). -/
def execStepNextWrite (val : Nat) (s : State) : Host.Outcome State Fault Refusal :=
  .next (s.reg Reg.GRM_STEP_NEXT.base (fun m => m.stepArm val))

/-- A write of GRM_KDATA[k] (R180). -/
def Mod.kdataWrite (m : Mod) (k v : Nat) : Mod := (m.fset Fld.GRM_KDATA_VALUE v k).forBits Fld.GRM_KPEND_PEND (2 ^ k)

/-- KDATA_WRITE (R180). -/
def execKdataWrite (k val : Nat) (s : State) : Host.Outcome State Fault Refusal :=
  .next (s.reg (Reg.GRM_KDATA.addr k 0) (fun m => m.kdataWrite k val))

/-- A write of GRM_KSET, discarded while values are pending (R180). -/
def Mod.ksetWrite (m : Mod) (v : Nat) : Mod := if m.fget Fld.GRM_KPEND_PEND = 0 then m.fset Fld.GRM_KSET_SET v else m

/-- KSET_WRITE (R180). -/
def execKsetWrite (val : Nat) (s : State) : Host.Outcome State Fault Refusal :=
  .next (s.reg Reg.GRM_KSET.base (fun m => m.ksetWrite val))

/-! ### Starting -/

/-- Does a FULL activation or a deactivation take effect at this boundary (R179; 02_plate_and_tick.md R50, R51)? -/
def Mod.plateChanges (m : Mod) : Bool :=
  (m.plt.pending.any (fun r => !r.activate) && m.drained)
    || (match m.dueActivation .full with | some (_, some p) => m.actCheck p == 0 | _ => false)
    || (m.get64 Fld.PLT_ACT_DONE_LO_TICK Fld.PLT_ACT_DONE_HI_TICK == m.tick.count && m.fget Fld.PLT_ROUTE_GEN_GEN == 0
        && m.step.phase == .idle && decide (0 < m.tick.count))

/-- Is the armed pair judged at this boundary (R179)? No step starts while the module is about to park
(17_power_reset.md R433, R437, R446). -/
def Mod.stepJudged (m : Mod) : Bool :=
  m.atBoundary && m.plateActive && !m.stepBusy && m.step.armed.isSome && m.step.armTick != some m.tick.count && !m.plateChanges
    && !m.pwr.parkReq && !m.pwr.noSteps

/-- Why an armed pair does not start (R179): 0 its number, 1 no step size. -/
def Mod.stepStale (m : Mod) (num : Nat) (sz : Option Nat) : Option Nat :=
  if num ≠ (m.fget Fld.GRM_STEP_STEP + 1) % 2 ^ 32 then some 0
  else if sz.isNone && !((m.plate?.map (·.cfg.reuse)).getD false && m.fget Fld.GRM_STEP_STATUS_SZ_VALID == 1) then some 1
  else none

/-- The pair is refused (R179): discarded, STALE set, STEPSZ_STALE raised with MSI-X 7. -/
def Mod.stepRefused (m : Mod) (num reason : Nat) : Mod :=
  let m1 := { m with step := { m.step with armed := none, armTick := none } }
  ((m1.fset Fld.GRM_STEP_STATUS_STALE 1).raise .contained 0x0704 0 num (m.fget Fld.GRM_STEP_STEP) reason).msix 7

/-- Shift a history register of four entries and enter a value. -/
def Mod.shiftHist (m : Mod) (f : Fld) (v : Nat) : Mod :=
  (((m.fset f (m.fget f 2) 3).fset f (m.fget f 1) 2).fset f (m.fget f 0) 1).fset f v 0

/-- The factor the last step applied, 0 where it did not commit (GRM_CLIP_HIST). -/
def Mod.lastClip (m : Mod) : Nat :=
  match m.step.hist with
  | h :: _ => if h.committed && h.step == m.fget Fld.GRM_STEP_STEP then h.clip else 0
  | [] => 0

/-- The prediction of the clip factor (08_step_commit.md R199). -/
def Mod.clipPred (m : Mod) : Nat :=
  match m.plate? with
  | some p => if p.cfg.mode = .unclipped then 0x3F800000 else m.fget Fld.GRM_CLIP_PRED_FACTOR
  | none => 0x3F800000

/-- Staged constants take effect in their set, where the plate holds it (R180). -/
def Mod.takeConsts (m : Mod) : Mod :=
  let set := m.fget Fld.GRM_KSET_SET
  let pend := m.fget Fld.GRM_KPEND_PEND
  let there := decide (set < ((m.plate?.map (·.consts)).getD []).length)
  let ks := if there then (List.range 32).filter pend.testBit else []
  let consts := ks.foldl (fun (c : Kv Nat) k => kvSet c (set * 32 + k) (m.fget Fld.GRM_KDATA_VALUE k)) m.step.consts
  { m with step := { m.step with consts := consts } }.fset Fld.GRM_KPEND_PEND 0

/-- Stables at the start of a step (02_plate_and_tick.md R67): at their first frame; a fenced one stays fenced. -/
def Mod.stablesStart (m : Mod) : Mod :=
  { m with sched := ⟨[], [], m.sched.stables.map (fun e =>
      (e.1, if e.2.st = .fenced then { e.2 with slips := 0 }
            else
              let fs := ((m.stableRec? e.1).map (·.frames)).getD []
              ⟨if (frameNow fs ⟨0, 0, 0⟩).isNone then .fin else .run, ⟨0, 0, 0⟩, 0, false, none, false, 0, false⟩)), m.sched.fences⟩ }

/-- Every fencing of a core of the plate before the step raises CORE_FENCED in it, with its cause (03_cores.md R98). -/
def Mod.fencedRaise (m : Mod) : Mod :=
  m.sched.fences.foldl (fun (x : Mod) e => x.raiseStep 0x0406 e.1 e.2.1 e.2.2 (x.fget Fld.GRM_STEP_STEP)) m

/-- The units that serve a step begin it (R174, R176; 06_backward_pass.md R154; 13_collectives.md R347; 15_check_units.md R390); a port may report a wait for credit again (12_fabric_ports.md R313). -/
def Mod.unitsStart (m : Mod) : Mod :=
  let groom := { m.groom with units := m.groom.units.map (fun e =>
    (e.1, { GroomRun.rest with touched := kvKeep e.2.touched (fun b => m.groom.reconcile.contains b) })) }
  let m1 := { m with groom := groom, pad := { m.pad with spilled := 0, dropped := 0 }, chk := { m.chk with started := [] } }
  { m1 with fab := { m1.fab with ports := m1.fab.ports.map (fun (e : Nat × Port) => (e.1, { e.2 with creditRaised := false })) } }
    |>.collStart.stmStepStart

/-- Flags of the scalar side's arithmetic for a step (04_number_formats.md R124): every groom unit has a scalar side, and each computes
the bias factors. -/
def Mod.scalarFlags (m : Mod) (f : Fl) : Mod :=
  { m with regs := (List.range 12).foldl (fun r u => r.write Reg.GRM_FLAGS u 0 (r.read Reg.GRM_FLAGS u 0 ||| f.bits)) m.regs }

/-- A step becomes current (R179 to R182). -/
def Mod.stepBegin (m : Mod) (num : Nat) (sz : Option Nat) : Mod :=
  let size := sz.getD (m.fget Fld.GRM_STEPSZ_SZ)
  let hdr := (m.plate?.map (fun p => (p.groom.bcOrigin, p.groom.b1, p.groom.b2))).getD (0, 0, 0)
  let bc1 := stepBias hdr.2.1 num hdr.1
  let bc2 := stepBias hdr.2.2 num hdr.1
  let m1 := (m.shiftHist Fld.GRM_CLIP_HIST_FACTOR m.lastClip).shiftHist Fld.GRM_STEPSZ_HIST_SZ (m.fget Fld.GRM_STEPSZ_SZ)
  let m2 := ((m1.fset Fld.GRM_STEP_STEP num).fset Fld.GRM_STEPSZ_SZ size).fset Fld.GRM_STEP_STATUS_SZ_VALID 1
  let m3 := (((m2.fset Fld.GRM_BC1_BC bc1.code).fset Fld.GRM_BC2_BC bc2.code).scalarFlags (bc1.fl.join bc2.fl)).takeConsts
  let u := m3.step
  let m4 := { m3 with
    step := { StepUnit.reset with
      phase := .run, start := m.tick.count, clip := m.clipPred, consts := u.consts, ledger := u.ledger, szFresh := u.szFresh,
      hist := ((⟨num, size, bc1.code, bc2.code, m.clipPred, false, 0⟩ : StepHist) :: u.hist).take 5 },
    pwr := { m3.pwr with state := .active, idleCount := 0 } }
  m4.unitsStart.stablesStart.fencedRaise

/-- STEP_START: the armed pair is judged at a boundary (R179); the first frames start in the step's first tick
(02_plate_and_tick.md R67). -/
def execStepStart (s : State) : Host.Outcome State Fault Refusal :=
  .next (s.unit (fun m =>
    match m.step.armed with
    | some (num, sz) =>
      if m.stepJudged then
        match m.stepStale num sz with
        | some r => m.stepRefused num r
        | none => (m.stepBegin num sz).frameBoundary
      else m
    | none => m))

end Sys2Proof.Machine
end

