-- ==== Sys2Proof/Machine/Verdict.lean ====
section
/-! DEFINITION. The fused global-norm reduction and the step's verdict (08_step_commit.md R188 to R205; 13_collectives.md R361): the
family "step", from the reduction record to the verdict's actions. -/

namespace Sys2Proof.Machine

/-! ### Records -/

/-- Bytes 0x00 to 0x5B of a reduction record (Table 08-2). -/
def RedRec.bytes (r : RedRec) : List Byte :=
  leBytes 4 r.step ++ leBytes 4 r.epoch ++ leBytes 1 r.attempt
    ++ leBytes 1 (r.fault.toNat + 2 * r.mismatch.toNat + 4 * r.disagree.toNat + 8 * r.expectSet.toNat) ++ leBytes 2 r.cause
    ++ leBytes 4 r.count ++ leBytes 8 r.sumsq ++ leBytes 32 r.tag ++ leBytes 32 r.expect ++ leBytes 2 r.source ++ leBytes 2 0

/-- Read a reduction record. -/
def RedRec.ofBytes (b : List Byte) : RedRec :=
  let n := fun (o w : Nat) => leNat ((b.drop o).take w)
  let f := n 9 1
  ⟨n 0 4, n 4 4, n 8 1, f.testBit 0, f.testBit 1, f.testBit 2, f.testBit 3, n 0xA 2, n 0x58 2, n 0xC 4, n 0x10 8, n 0x18 32, n 0x38 32⟩

/-- A record with its verdict (Table 08-2, bytes 0x5C to 0x77): 128 bytes. -/
def verdictBytes (r : RedRec) (v : VerdictRec) : List Byte :=
  { r with cause := v.cause, source := v.source }.bytes ++ leBytes 1 v.kind.code ++ leBytes 3 0 ++ leBytes 4 v.clip ++ leBytes 4 0
    ++ leBytes 8 v.gnorm ++ leBytes 8 v.rootTick ++ leBytes 8 0

/-- The verdict of a code (Table 08-2). -/
def VKind.ofCode : Nat → Option VKind
  | 1 => some .commit | 2 => some .replay | 3 => some .skip | 4 => some .fault | _ => none

/-- Read the verdict of a record. -/
def VerdictRec.ofBytes (b : List Byte) : Option VerdictRec :=
  let n := fun (o w : Nat) => leNat ((b.drop o).take w)
  (VKind.ofCode (n 0x5C 1)).map (fun k => ⟨k, n 0x60 4, n 0x68 8, n 0x70 6, n 0xA 2, n 0x58 2⟩)

/-- This module's run tag or digest, as one value. -/
def Mod.words8 (m : Mod) (f : Fld) : Nat := leNat ((List.range 8).flatMap (fun i => leBytes 4 (m.fget f i)))

/-- A groom unit's global-norm partial: its bindings' in ascending number (R176). -/
def Mod.unitNorm (m : Mod) (u : Nat) : Coded :=
  sum64 (((m.groomUnit u).results.filter (fun e => !e.2.deferred)).map (fun e => e.2.gnorm))

/-- The flags of forming the units' partials, kept with each unit (R124). -/
def Mod.normFlags (m : Mod) : Mod := (List.range 12).foldl (fun (x : Mod) u => x.groomFlags u (m.unitNorm u).fl) m

/-- The module's partial sum of squares (R189): the units' global-norm partials, then the reducers' ledger norm partials. -/
def Mod.ownSumsq (m : Mod) : Nat :=
  let all := (sum64 ((List.range 12).map (fun u => (m.unitNorm u).code) ++ (List.range 8).map (fun k => kvGetD m.coll.ledgerNorm k 0))).code
  if (m.plate?.map (·.cfg.contrib)).getD false then all else 0

/-- The module's own record now (R190, R191). -/
def Mod.ownRecord (m : Mod) : RedRec :=
  let digest := m.words8 Fld.GRM_RUN_DIGEST_DIGEST
  { step := m.fget Fld.GRM_STEP_STEP, epoch := m.epoch, attempt := m.step.attempt, fault := m.step.cause.isSome, mismatch := false,
    disagree := false, expectSet := digest != 0, cause := (m.step.cause.map (·.1)).getD 0, source := (m.step.cause.map (·.2)).getD 0,
    count := 1, sumsq := m.ownSumsq, tag := m.words8 Fld.GRM_RUN_TAG_TAG, expect := digest }

/-- Do two records belong to the same step, epoch and attempt? -/
def RedRec.sameStep (a b : RedRec) : Bool := a.step == b.step && a.epoch == b.epoch && a.attempt == b.attempt

/-- Combine a child's record into the own one (R192) on module `self`. -/
def RedRec.combine (self : Nat) (own child : RedRec) : RedRec :=
  let differs := !child.sameStep own
  let o1 := if differs && own.cause == 0 then { own with cause := 0x0708, source := self } else own
  let o2 := if child.fault && o1.cause == 0 then { o1 with cause := child.cause, source := child.source } else o1
  { o2 with
    fault := own.fault || child.fault || child.mismatch
    mismatch := own.mismatch || differs || child.mismatch
    disagree := own.disagree || child.expect != own.expect || child.disagree
    count := (own.count + child.count) % 2 ^ 32
    sumsq := (add64 ⟨own.sumsq, .none⟩ child.sumsq).code
    tag := own.tag ^^^ child.tag }

/-- The children in the norm tree. -/
def Mod.normChildren (m : Mod) : List Nat := (m.plate?.map (·.colls.normChildren)).getD []

/-- Is this module the root of the norm tree? One with no fabric route is its own root (R196; 01_architecture.md R35). -/
def Mod.isRoot (m : Mod) : Bool := (m.plate?.map (fun p => p.colls.normRoot || p.routes.isNone)).getD true

/-- The combined record as far as the children's have arrived, in the order the list gives them (R192). -/
def Mod.combined (m : Mod) : RedRec :=
  (m.normChildren.filterMap (fun c => (m.step.children.find? (fun e => e.1 == c)).map (·.2))).foldl (RedRec.combine m.self)
    (m.step.own.getD m.ownRecord)

/-- A NORM flit (13_collectives.md R361). -/
def Mod.normFlit (m : Mod) (dest : Nat) (data : List Byte) : TFlit :=
  ⟨dest, m.self, 5, 2, 0, false, false, true, 0, 0, 0, 0, 128, padTo 128 data, none⟩

/-! ### Forming the verdict -/

/-- Is an FP64 value above an FP32 ceiling, or not finite? -/
def absurd (ceiling g : Nat) : Bool := !finite64 g || (fp32 ceiling).ltB (fp64 g)

/-- The clip factor of a global norm (R194). -/
def trueFactor (c : StepCfg) (g : Nat) : Nat :=
  if (fp32 c.clipMax).isZero || !((fp32 c.clipMax).ltB (fp64 g)) then 0x3F800000
  else (roundFp32 false ((fp32 c.clipMax).div (fp64 g)).1).code

/-- Is abs(c − pred) at most tol × pred (R194, R199), in exact arithmetic? -/
def withinTol (tol c pred : Nat) : Bool :=
  let d := ((fp32 c).sub (fp32 pred)).1.abs
  let lim := ((fp32 tol).mul (fp32 pred)).1
  !(lim.ltB d)

/-- What the root makes of a combined record that carries no fault (R194): the verdict, its factor, and the global norm. -/
def normVerdict (c : StepCfg) (pred attempt sumsq : Nat) : VKind × Nat × Nat :=
  let g := (roundFp64 (fp64 sumsq).sqrt.1).code
  if absurd c.ceiling g then (.skip, 0, g)
  else
    let f := trueFactor c g
    if attempt = 1 then (.commit, f, g)
    else if c.mode = .tolerant then (if withinTol c.tol f pred then (.commit, pred, g) else (.replay, f, g))
    else (if f = pred then (.commit, f, g) else (.replay, f, g))

/-- The tick in whose guard a verdict that arrives now is acted on (R195). -/
def Mod.verdictTick (m : Mod) : Nat := if m.inGuard then (m.tick.count + 1) % 2 ^ 48 else m.tick.count

/-- The module holds a verdict. -/
def Mod.takeVerdict (m : Mod) (v : VerdictRec) : Mod :=
  { m with step := { m.step with verdict := some v, actTick := m.verdictTick } }

/-- A FAULT verdict formed by the root; no factor and no norm belong to it, so those words are free values. -/
def Mod.faultVerdict (m : Mod) (r : RedRec) : Mod × VerdictRec :=
  ({ m with fresh := m.fresh + 2 },
    ⟨.fault, Config.freeWord m.fresh % 2 ^ 32, Config.freeWord (m.fresh + 1) % 2 ^ 64, m.tick.count, r.cause, r.source⟩)

/-- The run tags disagree: a participant expects another fold, or the fold is not the one expected (R194). -/
def RedRec.tagsBad (r : RedRec) : Bool := r.disagree || (r.expectSet && r.tag != r.expect)

/-- Raise STEP_MISMATCH (R192, R194). -/
def Mod.stepMismatch (m : Mod) (bits count : Nat) : Mod := m.raiseStep 0x0708 m.self (m.fget Fld.GRM_STEP_STEP) bits count

/-- The root forms the verdict (R194). -/
def Mod.formVerdict (m : Mod) (r : RedRec) : Mod × VerdictRec :=
  match m.plate?.map (·.cfg) with
  | none => m.faultVerdict r
  | some c =>
    let mine := fun (x : Mod) (code : Nat) => x.faultVerdict { r with cause := code, source := m.self }
    if r.fault || r.mismatch then m.faultVerdict r
    else if r.count ≠ c.participants then mine (m.stepMismatch 8 r.count) 0x0708
    else if r.tagsBad then
      mine (m.stepMismatch ((if r.disagree then 2 else 0) + (if r.expectSet && r.tag != r.expect then 4 else 0)) r.count) 0x0708
    else if r.attempt = 1 ∧ some r.sumsq ≠ m.step.firstSumsq then
      mine (m.raiseStep 0x0709 0 r.step (hi32 (m.step.firstSumsq.getD 0)) (hi32 r.sumsq)) 0x0709
    else
      let v := normVerdict c m.clipPred r.attempt r.sumsq
      let m1 := if r.attempt = 0 then { m with step := { m.step with firstSumsq := some r.sumsq } } else m
      match v.1 with
      | .skip => ({ m1 with fresh := m1.fresh + 1 }, ⟨.skip, Config.freeWord m1.fresh % 2 ^ 32, v.2.2, m.tick.count, 0, 0⟩)
      | _ => (m1, ⟨v.1, v.2.1, v.2.2, m.tick.count, 0, 0⟩)

/-- Carry the reduction on (R192, R193): once every child's record and the own one are there, or at once for a fault or mismatch,
the root forms the verdict and sends it down, any other module sends its combined record up. -/
def Mod.normProgress (m : Mod) : Mod :=
  let r := m.combined
  let all := m.step.own.isSome && m.normChildren.all (fun c => m.step.children.any (fun e => e.1 == c))
  let early := r.fault || r.mismatch
  if !m.stepOpen || !(all || early) then m
  else if m.isRoot then
    let y := m.formVerdict r
    let m1 := y.1.takeVerdict y.2
    m.normChildren.foldl (fun (x : Mod) c => x.originate (x.normFlit c (verdictBytes r y.2))) m1
  else
    match m.step.up with
    | some u => if early && !(u.fault || u.mismatch) then
        Mod.originate { m with step := { m.step with up := some r } } (m.normFlit ((m.plate?.map (·.colls.normParent)).getD 0) r.bytes)
      else m
    | none =>
      Mod.originate { m with step := { m.step with up := some r } } (m.normFlit ((m.plate?.map (·.colls.normParent)).getD 0) r.bytes)

/-! ### Sending and receiving records -/

/-- Is every part of the step that R188 names complete? -/
def Mod.stepWorkDone (m : Mod) : Bool :=
  let lag0 := m.bindings.filter (fun b => m.lagOf b.2 == 0)
  let due := m.step.ledger.any (fun e => match m.binding? e.2 with
    | some g => e.1 == (m.fget Fld.GRM_STEP_STEP + 2 ^ 32 - m.lagOf g) % 2 ^ 32
    | none => false)
  m.allEnded && lag0.all (fun b => m.step.passesDone.contains b.1) && m.collOps.all (fun o => m.step.opsDone.contains o.1)
    && m.step.defRun.all m.step.passesDone.contains && !due

/-- SEND_REDUCTION_RECORD (R188): when the step's work is complete, or at once on a local cause of FAULT, the record is formed and
the phase becomes AWAIT; a cause that arises in AWAIT before the verdict sends the record again. -/
def Mod.sendRecord (m : Mod) : Mod :=
  let ready := m.framesRun && (m.step.cause.isSome || m.stepWorkDone)
  let again := m.step.phase == .await && m.step.cause.isSome && m.step.own.any (fun r => !r.fault)
  if m.step.verdict.isSome || !(ready || again) then m
  else
    let r := m.ownRecord
    let wait := if m.step.phase = .await then m.step.waitTicks else 0
    Mod.normProgress { m.normFlags with step := { m.step with own := some r, phase := .await, waitTicks := wait } }

/-- SEND_REDUCTION_RECORD. -/
def execSendReductionRecord (s : State) : Host.Outcome State Fault Refusal := .next (s.unit Mod.sendRecord)

/-- Is a record of an earlier step or attempt than the present one? -/
def Mod.oldRecord (m : Mod) (r : RedRec) : Bool :=
  let n := m.fget Fld.GRM_STEP_STEP
  let d := (n + 2 ^ 32 - r.step % 2 ^ 32) % 2 ^ 32
  (d != 0 && decide (d < 2 ^ 31)) || (d == 0 && decide (r.attempt < m.step.attempt))

/-- A child's record (R192): kept, replacing an earlier one of that child; one that differs in step, epoch or attempt raises
STEP_MISMATCH. -/
def Mod.childRecord (m : Mod) (child : Nat) (r : RedRec) : Mod :=
  let m1 := if r.sameStep m.ownRecord then m else m.stepMismatch 1 r.count
  let cs := m1.step.children.filter (fun e => e.1 != child) ++ [(child, r)]
  Mod.normProgress { m1 with step := { m1.step with children := cs } }

/-- Is a flit a child's record? -/
def isRecordFlit (f : TFlit) : Bool := f.type == 5 && (VerdictRec.ofBytes f.payload).isNone

/-- NORM_RECORD_RECEIVED: the first child's record delivered is combined while the step is open (R192, R193); one of an earlier step
or attempt is discarded. -/
def execNormRecordReceived (s : State) : Host.Outcome State Fault Refusal :=
  .next (s.unit (fun m =>
    if !m.stepOpen then m
    else match m.takeFlit isRecordFlit with
      | none => m
      | some (f, m1) =>
        let r := RedRec.ofBytes f.payload
        if m1.oldRecord r || !m1.normChildren.contains f.src then m1 else m1.childRecord f.src r))

/-- VERDICT_RECEIVED: the root's record arrives from the parent; it is passed on to the children and its verdict acted on in the
guard R195 gives. -/
def execVerdictReceived (s : State) : Host.Outcome State Fault Refusal :=
  .next (s.unit (fun m =>
    if !m.stepOpen then m
    else match m.takeFlit (fun f => f.type == 5 && !isRecordFlit f) with
      | none => m
      | some (f, m1) => match VerdictRec.ofBytes f.payload with
        | none => m1
        | some v =>
          let r := RedRec.ofBytes f.payload
          if r.step ≠ m1.fget Fld.GRM_STEP_STEP ∨ r.attempt ≠ m1.step.attempt then m1
          else (m1.normChildren.foldl (fun (x : Mod) c => x.originate (x.normFlit c f.payload)) m1).takeVerdict v))

/-- VERDICT_TIMEOUT: no verdict within VERDICT_TICKS ticks of the record (R197). -/
def execVerdictTimeout (s : State) : Host.Outcome State Fault Refusal :=
  .next (s.unit (fun m =>
    let lim := (m.plate?.map (·.cfg.verdictTicks)).getD 1000
    if m.step.phase = .await ∧ m.step.verdict.isNone ∧ lim ≤ m.step.waitTicks then
      let m1 := m.raise .device 0x070A 0 (m.fget Fld.GRM_STEP_STEP) m.step.attempt lim
      let y := m1.faultVerdict { m1.ownRecord with cause := 0x070A, source := m.self }
      y.1.takeVerdict y.2
    else m))

/-! ### Verdict actions (R200, R201, R203) -/

/-- Registers that any verdict sets: its norm, its count (GRM_VCOUNT). -/
def Mod.verdictSeen (m : Mod) (v : VerdictRec) : Mod :=
  (m.set64 Fld.GRM_GNORM_LO_GNORM Fld.GRM_GNORM_HI_GNORM v.gnorm).fsat Fld.GRM_VCOUNT_COUNT 1 (v.kind.code - 1)

/-- Registers a final verdict sets, its boundary being the next one. -/
def Mod.verdictRegs (m : Mod) (v : VerdictRec) : Mod :=
  let m1 := if v.kind = .fault then m.fset Fld.GRM_VERDICT_CAUSE v.cause else m
  let m2 := (m1.fset Fld.GRM_VERDICT_REPLAYED m.step.attempt).fset Fld.GRM_VERDICT_VERDICT v.kind.code
  let m3 := (m2.fset Fld.GRM_VERDICT_STEP_STEP (m.fget Fld.GRM_STEP_STEP)).set64 Fld.GRM_VERDICT_TICK_LO_TICK
    Fld.GRM_VERDICT_TICK_HI_TICK ((m.tick.count + 1) % 2 ^ 48)
  let m4 := (m3.fset Fld.HBM_PAD_STEP_SPILLED (min m.pad.spilled 0xFFFF)).fset Fld.HBM_PAD_STEP_DROPPED (min m.pad.dropped 0xFFFF)
  (List.range 12).foldl (fun (x : Mod) u => x.set64 Fld.GRM_ELEMS_LO_COUNT Fld.GRM_ELEMS_HI_COUNT ((m.groomUnit u).count % 2 ^ 48) u) m4

/-- What only a COMMIT does: banks and residuals flip, preconditioners are checked, the factor is taken, the step's ledger entries
become applicable. -/
def Mod.commitActions (m : Mod) (v : VerdictRec) (ecc : Ecc) : Mod :=
  let lag0 := m.step.passesRun
  let resid := m.step.residRun.filterMap (fun o => (m.plate?.bind (fun p => p.colls.ops[o]?)).map (·.resid))
  let m1 := (m.flipAll (m.writtenBy lag0 ++ resid)).precondChecks ecc
  let keep := (m.plate?.map (fun p => p.cfg.mode != ClipMode.unclipped)).getD false
  let m2 := m1.fset Fld.GRM_CLIP_FACTOR v.clip
  let m3 := if keep then m2.fset Fld.GRM_CLIP_PRED_FACTOR v.clip else m2
  let n := m.fget Fld.GRM_STEP_STEP
  let due := (m.bindings.filter (fun b => decide (0 < m.lagOf b.2))).map (fun b => (n, b.1))
  let hist := match m.step.hist with
    | h :: rest => { h with clip := v.clip, committed := true, attempt := m.step.attempt } :: rest
    | [] => []
  { m3 with step := { m3.step with ledger := m3.step.ledger ++ due, hist := hist } }

/-- The watch merges and norm records of a final verdict (R136, R138, R210): those of the deferred passes whatever the verdict,
those of LAG 0 passes merged on COMMIT, their norms written always. -/
def Mod.resultActions (m : Mod) (commit : Bool) (ecc : Ecc) : Mod :=
  let flags := if commit then (if m.step.attempt = 1 then 5 else 1) else 3
  let m1 := (m.mergeAll (fun r => r.deferred || commit) ecc).normAll flags (fun r => !r.deferred)
  m1.normAll 17 (fun r => r.deferred)

/-- The units after a final verdict: passes and slices given up, rows touched kept for the reconcile copies due (R184). -/
def Mod.groomVerdict (m : Mod) : Mod :=
  let rows := m.step.passesRun.filter (fun b => (m.binding? b).any (·.row))
  { m with groom := { m.groom with
      reconcile := rows
      units := m.groom.units.map (fun e => (e.1, { GroomRun.rest with touched := e.2.touched, count := e.2.count })) } }

/-- The event of a verdict that is not a COMMIT (Table 08-5). -/
def Mod.verdictEvent (m : Mod) (v : VerdictRec) : Mod :=
  let n := m.fget Fld.GRM_STEP_STEP
  match v.kind with
  | .commit => m
  | .replay => m.raise .corrected 0x0705 0 n v.clip m.clipPred
  | .skip => m.raise .step 0x0706 0 n (lo32 v.gnorm) (hi32 v.gnorm)
  | .fault => m.raise .step 0x0707 v.source n v.cause m.step.attempt

/-- The objects of a deferred pass that is given up before its first write-back: what it wrote is dropped and the homes stay as they
are, the rest is unpinned (DESIGN CHOICE). -/
def Mod.passDrop (m : Mod) (u : Nat) : Mod :=
  (m.pool.objs.filter (fun e => e.2.unit == some u && e.2.st == .hbm)).foldl (fun (x : Mod) e =>
    if e.2.dirty then x.dropObj e.1 else x.setObj e.1 { e.2 with pins := 0, age := 0 }) m

/-- Deferred passes that the verdict finds unfinished are given up. -/
def Mod.passesDrop (m : Mod) : Mod :=
  (m.groom.units.filter (fun e => e.2.pass.any (fun p => p.applies.isSome))).foldl (fun (x : Mod) e => x.passDrop e.1) m

/-- The actions of a final verdict in the guard (R200, R201). -/
def Mod.finalActions (m : Mod) (v : VerdictRec) (ecc : Ecc) : Mod :=
  let commit := v.kind == .commit
  let done := m.step.defRun.filter m.step.passesDone.contains
  let m1 := if commit then m.commitActions v ecc else m
  let m2 := (m1.flipDeferred done m.step.defLost).resultActions commit ecc
  let m3 := (m2.verdictRegs v).passesDrop.groomVerdict.padReleaseAll
  let m4 := { m3 with step := { m3.step with defRun := [], defLost := [] } }
  if commit then m4 else m4.endStables.collAbandon.stmVerdict

/-- Is a pass of deferred updates whose first write-back has started, or whose work is done, not yet complete
(10_memory_tiers.md R272)? -/
def Mod.writebacksOut (m : Mod) : Bool :=
  m.groom.units.any (fun e => e.2.pass.any (fun p => p.bound)) || !m.step.defRun.all m.step.passesDone.contains

/-- Vector 4 is due (14_host_interface.md R377). -/
def Mod.verdictVector (m : Mod) : Mod := { m with host := { m.host with verdictDue := true } }

/-- VERDICT_ACTIONS: in the guard R195 gives, the verdict takes effect; a REPLAY's own work begins at the boundary that follows. -/
def Mod.verdictActions (m : Mod) (ecc : Ecc) : Mod :=
  match m.step.verdict with
  | none => m
  | some v =>
    if (m.framesRun || m.step.phase == .await) && decide (m.step.actTick ≤ m.tick.count) && !m.writebacksOut then
      let m0 := { m with tick := { m.tick with cycle := max m.tick.cycle (m.tickLen - guardCycles) } }
      let m1 := m0.verdictSeen v
      let m2 := if v.kind = .replay then m1 else m1.finalActions v ecc
      let m3 := (m2.verdictEvent v).verdictVector.trace 6 0 v.kind.code (m.fget Fld.GRM_STEP_STEP)
      let drain := v.kind != .replay && m3.changePending && !m3.step.ledger.isEmpty
      { m3 with step := { m3.step with phase := .actions, actTick := m.tick.count, draining := drain } }
    else m

/-- VERDICT_ACTIONS. -/
def execVerdictActions (ecc : Ecc) (s : State) : Host.Outcome State Fault Refusal :=
  .next (s.unit (fun m => m.verdictActions ecc)).verdictSend

/-! ### Replay (R203 to R205) -/

/-- A stable at a replay: one that takes part and saved its position resumes there; any other stays at END. -/
def Mod.stableReplay (m : Mod) (id : Nat) (x : StableRun) : StableRun :=
  if x.st = .fenced then x
  else if (m.plate?.bind (fun p => kvGet? p.cfg.replayFrame id)).isSome then
    match x.saved with
    | some (p, f) => { x with st := .run, pos := p, frame := f, busy := false, late := false, lag := false }
    | none => x
  else x

/-- The boundary at which a REPLAY takes effect (R203). -/
def Mod.replayBegin (m : Mod) (v : VerdictRec) : Mod :=
  let reset := (m.plate?.map (·.cfg.replayReset)).getD []
  let lag0 := fun b => (m.binding? b).any (fun g => m.lagOf g == 0)
  let units := m.groom.units.map (fun e => (e.1, { e.2 with
    pass := none, buffer := [], elem := none, results := e.2.results.filter (fun r => r.2.deferred) }))
  let m1 := { m with
    sched := ⟨kvKeep m.sched.barriers (fun b => !reset.contains b), [], m.sched.stables.map (fun (e : Nat × StableRun) => (e.1, m.stableReplay e.1 e.2)), m.sched.fences⟩
    groom := { m.groom with units := units }
    step := { m.step with
      phase := .replay, attempt := 1, own := none, children := [], up := none, verdict := none, cause := none, waitTicks := 0,
      clip := v.clip, passesDone := m.step.passesDone.filter (fun b => !lag0 b),
      passesRun := m.step.passesRun, opsDone := [], residRun := [] } }
  m1.collReplay.stmReplay

/-- What a boundary does to a step whose verdict has been acted on: a REPLAY begins; else streams may turn to the next step
(11_streams.md R282), and the step is over once no reconcile copy and no drain remains (R187). -/
def Mod.stepBoundary (m : Mod) : Mod :=
  if m.step.phase = .actions then
    match m.step.verdict with
    | some v => if v.kind = .replay then m.replayBegin v else m.gatesAll.actionsEnd
    | none => m.gatesAll.actionsEnd
  else m

end Sys2Proof.Machine
end

