-- ==== Sys2Proof/Machine/Governor.lean ====
section
/-! DEFINITION. The governor (17_power_reset.md R426 to R428, R432, R436): the tick energy budget and the two duties. -/

namespace Sys2Proof.Machine

/-- Watts of a profile (Table 17-1). -/
def profileWatts (p : Nat) : Nat := if p = 3 then 1900 else if p = 2 then 1400 else 900

/-- The budget power: the smaller of the active profile's power and PWR_CAP when that is not zero (R426). -/
def Mod.budgetWatts (m : Mod) : Nat :=
  let w := profileWatts (m.fget Fld.PWR_PROFILE_REQ)
  let cap := m.fget Fld.PWR_CAP_WATTS
  if cap = 0 then w else min w cap

/-- The period in µs: watts times it give µJ. -/
def Mod.periodUs (m : Mod) : Nat := m.fget Fld.TCK_PERIOD_PERIOD_US

/-- What the floor setting draws at most, in watts (R428): the budget is not lowered beyond it (R436). -/
def floorWatts : Nat := 860

/-- The budget after what heat takes from it (R436). -/
def Mod.heatBudget (m : Mod) : Nat :=
  let full := m.budgetWatts * m.periodUs
  if m.pwr.cut = 0 then full
  else max (floorWatts * m.periodUs) (full - m.pwr.cut * (profileWatts (m.fget Fld.PWR_PROFILE_REQ) * m.periodUs) / 16)

/-- Boundaries the rise after a dip takes: 2 ms (R432). -/
def Mod.rampTicks (m : Mod) : Nat := max 1 (2000 / max m.periodUs 1)

/-- B in force: the P1 budget during a dip and its hold, then equal steps up to the active budget (R432). -/
def Mod.budget (m : Mod) : Nat :=
  let p1 := 900 * m.periodUs
  let b := m.heatBudget
  match m.pwr.dip with
  | .none => b
  | .asserted | .hold => min b p1
  | .ramp left =>
    let n := m.rampTicks
    min b (p1 + (m.budgetWatts * m.periodUs - p1) * (n - min left n) / n)

/-- Show B in PWR_BUDGET. -/
def Mod.setBudget (m : Mod) : Mod := m.fset Fld.PWR_BUDGET_UJ (min m.budget 0xFFFFFF)

/-- Lower the duties by one eighth (R428): d_m to 2/8, then d_h to 1/8, then d_m to 1/8. -/
def dutyDown (d : Nat × Nat) : Nat × Nat :=
  if 2 < d.1 then (d.1 - 1, d.2) else if 1 < d.2 then (d.1, d.2 - 1) else (1, 1)

/-- Raise the duties by one eighth: d_h, then d_m. -/
def dutyUp (d : Nat × Nat) : Nat × Nat :=
  if d.2 < 8 then (d.1, d.2 + 1) else if d.1 < 8 then (d.1 + 1, d.2) else d

/-- Lower by a number of eighths. -/
def dutyDownN : Nat → Nat × Nat → Nat × Nat
  | 0, d => d
  | n + 1, d => dutyDownN n (dutyDown d)

/-- The duties d_m and d_h in eighths. -/
def Mod.duties (m : Mod) : Nat × Nat := (m.fget Fld.PWR_DUTY_DM, m.fget Fld.PWR_DUTY_DH)

/-- Set the duties. -/
def Mod.setDuties (m : Mod) (d : Nat × Nat) : Mod := (m.fset Fld.PWR_DUTY_DM d.1).fset Fld.PWR_DUTY_DH d.2

/-- The floor setting (R428). -/
def Mod.floorSetting (m : Mod) : Mod := m.setDuties (1, 1)

/-- The control law at a boundary, for the energy of the tick that ended against the B in force in it (R428). -/
def Mod.govern (m : Mod) (energy : Nat) : Mod :=
  let b := m.fget Fld.PWR_BUDGET_UJ
  let d := m.duties
  if 98 * b < 100 * energy then
    Mod.setDuties { m with pwr := { m.pwr with lowTicks := 0 } } (dutyDownN (max 1 (min 16 (Config.eighths energy b))) d)
  else if 100 * energy < 90 * b then
    if 8 ≤ m.pwr.lowTicks + 1 then Mod.setDuties { m with pwr := { m.pwr with lowTicks := 0 } } (dutyUp d)
    else { m with pwr := { m.pwr with lowTicks := m.pwr.lowTicks + 1 } }
  else { m with pwr := { m.pwr with lowTicks := 0 } }

/-- A boundary's step of the rise after a dip. -/
def Mod.rampStep (m : Mod) : Mod :=
  match m.pwr.dip with
  | .ramp left => { m with pwr := { m.pwr with dip := if left ≤ 1 then .none else .ramp (left - 1) } }
  | _ => m

/-- What the governor does at a boundary. -/
def Mod.governBoundary (m : Mod) (energy : Nat) : Mod :=
  ((m.govern energy).rampStep.fset Fld.PWR_ENERGY_UJ (min energy 0xFFFFFF)).setBudget

end Sys2Proof.Machine
end

