-- ==== Sys2Proof/Machine/Tick.lean ====
section
/-! DEFINITION. The tick master (02_plate_and_tick.md R55 to R64) and what every boundary does. The family "tick". -/

namespace Sys2Proof.Machine

/-! ### The boundary -/

/-- The boundary's own part, in every power state but OFF (R55 to R57, R60): the count goes up by one or takes the upstream count
adopted, the cycle is 0, the trim of the tick that ends is recorded. -/
def Mod.tickCount (m : Mod) : Mod :=
  let t := m.tick
  let n := t.adopt.getD ((t.count + 1) % 2 ^ 48)
  let recent := fun (s : NatSet) => s.filter (fun x => decide ((n + 2 ^ 48 - x) % 2 ^ 48 < 65536))
  let m1 := { m with tick := { t with
    count := n, cycle := 0, adopt := none, periodNext := none, trim := 0
    longer := recent (if 0 < t.trim then setAdd t.longer t.count else t.longer)
    shorter := recent (if t.trim < 0 then setAdd t.shorter t.count else t.shorter) } }
  if m.fget Fld.TCK_OUT_CTRL_ENABLE = 1 then m1.emit (.pin 0 true) else m1

/-- A period written takes effect (R56). -/
def Mod.takePeriod (m : Mod) (next : Option Nat) : Mod :=
  match next with
  | some p => m.fset Fld.TCK_PERIOD_PERIOD_US p
  | none => m

/-- A port that showed no valid marker in the tick loses its run of valid ticks (R62). -/
def Mod.markersSeen (m : Mod) : Mod :=
  let n := m.tick.count
  let keep := fun (p : Nat) => match (m.port p).nbrMark with
    | some (_, _, c, _) => decide ((n + 2 ^ 48 - c) % 2 ^ 48 ≤ 1)
    | none => false
  { m with tick := { m.tick with valid := kvKeep m.tick.valid keep } }

/-- May an upstream port be taken back (R62): 1,024 ticks of valid markers showing this module's period and count, offset within
±16 ns? -/
def Mod.takeBackOk (m : Mod) (p : Nat) : Bool :=
  m.upstreamUsable p && decide (1024 ≤ kvGetD m.tick.valid p 0)
    && (match (m.port p).skew with | some k => decide (k.2.natAbs ≤ 1600) | none => false)

/-- The mark of a boundary becomes due on every port that is not DISABLED, DOWN or FAILED, the CONTROL flit on one in QUARANTINE or
ACTIVE (R317, R323); a window of training frames ends after 100 µs (R308). -/
def Port.boundary (period : Nat) (x : Port) : Port :=
  match x.st with
  | .disabled | .failed => x
  | .down => if x.probing then { x with probing := decide ((x.probeTicks + 1) * period < 100), probeTicks := x.probeTicks + 1 } else x
  | .training | .retrain => { x with markDue := true }
  | .quarantine | .active => { x with markDue := true, ctlDue := true }

/-- What a boundary makes due on the ports. -/
def Mod.portBoundary (m : Mod) : Mod :=
  let period := m.fget Fld.TCK_PERIOD_PERIOD_US
  { m with fab := { m.fab with ports := m.fab.ports.map (fun (e : Nat × Port) => (e.1, e.2.boundary period)) } }

/-- Under UPSTREAM a module that follows no port listed in TCK_UPSTREAM, because none could serve or the register changed,
takes the first that can (R58, R62). -/
def Mod.followUp (m : Mod) : Mod :=
  if m.tick.source = 1 ∧ ¬ (m.tick.edgeSeen = true ∧ m.upstreams.contains m.tick.port = true) then
    match m.firstUpstream with
    | some p => m.moveUpstream p
    | none => m
  else m

/-- While it follows a port that is not first in the order, the tick master takes back one that comes before it (R62). -/
def Mod.takeBack (m : Mod) : Mod :=
  if m.tick.source = 1 ∧ m.tick.edgeSeen then
    match (m.upstreams.takeWhile (fun p => p != m.tick.port)).find? m.takeBackOk with
    | some p => m.moveUpstream p
    | none => m
  else m

/-- Counts that hold for one tick start again: reports at most once per tick (R331, R359; 18_debug.md R459). -/
def Mod.perTick (m : Mod) : Mod :=
  { m with fab := { m.fab with ttlRaised := false, unreachRaised := false }, coll := { m.coll with staleRaised := false },
           dbg := { m.dbg with watchRaised := [] } }

/-- FAB_UTIL shows the PAYLOAD flits of the tick that ended. -/
def Mod.fabUtil (m : Mod) : Mod :=
  m.fab.ports.foldl (fun (x : Mod) e =>
    ((x.fset Fld.FAB_UTIL_TX (min e.2.txCount 0xFFFF) e.1).fset Fld.FAB_UTIL_RX (min e.2.rxCount 0xFFFF) e.1).setPort e.1
      { e.2 with txCount := 0, rxCount := 0 }) m

/-- Ticks counted: of the step and its wait for a verdict, of running kernels, of boundaries without a step (R73; 03_cores.md
R99; 08_step_commit.md R197; 17_power_reset.md R445; 18_debug.md R456). -/
def Mod.countTicks (m : Mod) : Mod :=
  let halted := m.anyHalted
  let step := if halted || m.step.phase == .idle then m.step
    else { m.step with ticks := m.step.ticks + 1, waitTicks := if m.step.phase = .await then m.step.waitTicks + 1 else m.step.waitTicks }
  let idle := if m.step.phase = .idle ∧ m.step.armed.isNone then m.pwr.idleCount + 1 else 0
  { m with step := step, pwr := { m.pwr with idleCount := idle },
           cores := m.cores.map (fun (e : Nat × CoreRun) => (e.1, if !halted && e.2.run.isSome then { e.2 with ticks := e.2.ticks + 1 } else e.2)) }

/-- What a boundary does to the units outside the management die; deliveries that a lost loft link held are tried again. -/
def Mod.unitBoundary (m : Mod) : Mod :=
  let m1 := m.countTicks.endIndex.stepBoundary.frameBoundary.fabUtil.collProgress noEcc
  { m1 with pool := m1.pool.boundary }

/-- A tick boundary of the module. -/
def Mod.boundary (m : Mod) (energy : Nat) : Mod :=
  let m1 := m.tickCount.perTick.freezeWaiting
  let m2 := (if m.running then m1.unitBoundary else m1).portBoundary
  (Mod.takePeriod { m2.markersSeen.takeBack.followUp with regs := m2.regs.boundary m.regs } m.tick.periodNext).governBoundary energy

/-- The input as the management die last sampled it (17_power_reset.md R425; PWR_INPUT): mV, and mA shown in units of 10. -/
def Mod.inputSample (m : Mod) (mv ma : Nat) : Mod :=
  (m.fset Fld.PWR_INPUT_MV (min mv 0xFFFF)).fset Fld.PWR_INPUT_CURRENT (min (ma / 10) 0xFFFF)

/-- TICK_BOUNDARY: the tick that drew `energy` µJ ends, with the trim the alignment loop gave it (R55, R59), and `input` is the last sample of the
input (17_power_reset.md R425); the event unit may accept 256 records again (20_events.md R489). -/
def execTickBoundary (input : InputSample) (energy : Nat) (s : State) : Host.Outcome State Fault Refusal :=
  .next (if s.m.tick.running then
      State.verdictSend { s with evq := { s.evq with accepted := 0 }, m := (s.m.boundary energy).inputSample input.mv input.ma }
    else s)

/-- PENDING_FIELD_APPLY: at a tick boundary the values written to pending fields in the tick before take effect (00_scope.md
R12), with the budget they give (17_power_reset.md R426, R430). -/
def execPendingFieldApply (s : State) : Host.Outcome State Fault Refusal :=
  .next (s.on (fun m => if m.atBoundary then m.applyDue.setBudget else m))

/-! ### Period and source -/

/-- A write of TCK_PERIOD (R56): locked while a plate is active. -/
def Mod.periodWrite (m : Mod) (v : Nat) : Mod :=
  let p := v % 2 ^ 7
  if m.plateActive then m.lockedWrite Reg.TCK_PERIOD Reg.TCK_PERIOD.base v
  else if 2 ≤ p ∧ p ≤ 64 then { m with tick := { m.tick with periodNext := some p } }
  else m.fset Fld.TCK_ERR_BAD_PERIOD 1

/-- TCK_PERIOD_WRITE (R56). -/
def execTckPeriodWrite (val : Nat) (s : State) : Host.Outcome State Fault Refusal :=
  .next (s.reg Reg.TCK_PERIOD.base (fun m => m.periodWrite val))

/-- A write of TCK_SOURCE (R58): 3 is discarded. -/
def Mod.sourceWrite (m : Mod) (v : Nat) : Mod :=
  if m.plateActive then m.lockedWrite Reg.TCK_SOURCE Reg.TCK_SOURCE.base v
  else if v % 4 = 3 then m else (m.fset Fld.TCK_SOURCE_SRC (v % 4)).takeSource (v % 4)

/-- Alignment is lost (R61): reported unless PARK took the ports down (17_power_reset.md R446). -/
def Mod.alignLost (m : Mod) (p d1 : Nat) : Mod :=
  let m1 := { m with tick := { m.tick with aligned := false } }
  if m.pwr.state = .park ∨ !m.tick.aligned then m1
  else (m1.fset Fld.TCK_ERR_ALIGN_LOST 1).raise .contained 0x0302 p (m.tick.offset / 1000 % 2 ^ 32).toNat d1

/-- UPSTREAM_FAILOVER: the upstream port in use is down; the first valid alternate takes over, or the module holds its phase with
alignment lost (R61). -/
def execUpstreamFailover (s : State) : Host.Outcome State Fault Refusal :=
  .next (s.on (fun m =>
    if m.tick.running && m.tick.source == 1 && m.tick.edgeSeen && !m.upstreamUsable m.tick.port then
      match m.firstUpstream with
      | some p => m.moveUpstream p
      | none => Mod.alignLost { m with tick := { m.tick with edgeSeen := false } } m.tick.port 1
    else m))

/-- TICK_IN_EDGE: an edge `err` core cycles after the expected boundary, within ±1, is accepted and ends holdover; the tick in
progress is trimmed towards it (R55, R64). -/
def execTickInEdge (err : Int) (s : State) : Host.Outcome State Fault Refusal :=
  .next (s.on (fun m =>
    if m.tick.running ∧ m.tick.source = 2 ∧ err.natAbs ≤ 1 then
      { m with tick := { m.tick with aligned := true, edgeSeen := true, holdover := false, trim := err } }
    else m))

/-- TICK_IN_LOST: 1 µs after the expected boundary no acceptable edge has arrived: holdover (R64). -/
def execTickInLost (s : State) : Host.Outcome State Fault Refusal :=
  .next (s.on (fun m =>
    if m.tick.running && m.tick.source == 2 && !m.tick.holdover then
      (Mod.fset { m with tick := { m.tick with holdover := true } } Fld.TCK_ERR_TICK_IN_LOST 1).raise .contained 0x0304 0 m.tick.count
    else m))

end Sys2Proof.Machine
end

