-- ==== Sys2Proof/Machine/Resets.lean ====
section
/-! DEFINITION. The resets (00_scope.md R17 to R19; 14_host_interface.md R366, R376, R377; 17_power_reset.md R434, R438, R440 to
R443, R449, R450). The family "resets". -/

namespace Sys2Proof.Machine

/-- Record the last reset in PWR_RESET_CAUSE. -/
def Mod.resetCause (m : Mod) (kind source : Nat) : Mod :=
  (m.fset Fld.PWR_RESET_CAUSE_KIND kind).fset Fld.PWR_RESET_CAUSE_SOURCE source

/-- The MSI-X capability, table and PBA at their PCIe reset values (R377). -/
def Mod.msixReset (m : Mod) : Mod :=
  { m with host := { m.host with msixEnable := false, funcMask := false, entries := [], pba := [] } }

/-- The DOE object in progress is discarded (R379), no coalescing interval runs and no vector waits. -/
def Mod.hostReset (m : Mod) : Mod :=
  { m with host := { m.host with doe := ⟨none, false⟩, coalOpen := [], coalDue := [], verdictDue := false } }

/-- The effects of a function reset on the module (R18, R19; 08_step_commit.md R202; 10_memory_tiers.md R273; 11_streams.md
R285; 13_collectives.md R360; 14_host_interface.md R376, R379; 15_check_units.md R389): a step in progress gets a local FAULT,
jobs and streams end, pins are released, core SRAM is undefined, and registers of that level default. -/
def Mod.functionReset (m : Mod) : Mod :=
  let m1 := if m.stepOpen then m.fault 0x0707 else m
  let m2 := { m1 with chk := { m1.chk with runs := [] },
                      step := { m1.step with armed := none, armTick := none, szFresh := false } }
  let m3 := m2.poolReset.stmReset.collReset.padReleaseAll
  let stables := m3.sched.stables.map (fun (e : Nat × StableRun) => (e.1, { e.2 with frame := 0, late := false, slips := 0, lag := false }))
  let m4 := { m3 with regs := m3.regs.defaults 1, mem := { m3.mem with sram := m3.mem.sram.forget, acc := m3.mem.acc.forget }, sched := { m3.sched with stables := stables } }
  m4.hostReset.fset Fld.HBM_PAD_LOW_PAGES (m4.fget Fld.HBM_PAD_TOTAL_PAGES)

/-- A function reset that the PCIe port brings about: absorbed while another reset runs (R440); forwarding and the tick go on
(R443). -/
def Mod.pcieFunctionReset (m : Mod) (source : Nat) : Mod :=
  if m.mgUp && m.pwr.ready then m.functionReset.msixReset.resetCause 4 source else m

/-- FLR (R366). -/
def execFlr (s : State) : Host.Outcome State Fault Refusal := .next (s.on (fun m => m.pcieFunctionReset 9))

/-- HOT_RESET (R366). -/
def execHotReset (s : State) : Host.Outcome State Fault Refusal := .next (s.on (fun m => m.pcieFunctionReset 10))

/-- DL_DOWN: a function reset that also raises HOST_LINK_DOWN; the link is down until it trains again (R366). -/
def execDlDown (s : State) : Host.Outcome State Fault Refusal :=
  .next (s.on (fun m =>
    if m.host.linkUp then
      Mod.pcieFunctionReset (Mod.raise { m with host := { m.host with linkUp := false } } .contained 0x0D02 0) 11
    else m))

/-! ### Soft reset and beyond -/

/-- Registers whose word a soft reset leaves: they show what a soft reset does not touch (R442, R449; 10_memory_tiers.md R253,
R262). -/
def softKept (off : Nat) : Bool :=
  off == Reg.TOP_LINK.base || Reg.HBM_STACK_STATUS.holds off || Reg.LFT_PORT_STATUS.holds off
    || [Reg.PWR_BUDGET.base, Reg.PWR_ENERGY.base, Reg.PWR_INPUT.base, Reg.PWR_DUTY.base].contains off

/-- The registers at a soft reset. -/
def RegFile.softReset (rf : RegFile) : RegFile :=
  { rf.defaults 2 with store := kvKeep rf.store (fun off => softKept off || !offDefaults 2 off) }

/-- The tick master at a soft reset: it runs on, its count is 0 (R57; TCK_COUNT). -/
def TickUnit.softReset (t : TickUnit) : TickUnit := { TickUnit.reset with running := t.running, cycle := t.cycle }

/-- The self-tests of cores that run (03_cores.md R99): CORE_FENCE.BIST shows them past a soft and a fundamental reset, and they go on
(DESIGN CHOICE). -/
def selfTesting (cs : Kv CoreRun) : Kv CoreRun := (cs.filter (fun e => e.2.bist)).map (fun e => (e.1, { CoreRun.rest with bist := true }))

/-- The state that a soft reset and every outer reset clear (R54, R450): plates, SEL, key slots, pool and contents of
memory, every unit outside MG. The debug module keeps its unlock and pins. -/
def Mod.clearUnits (m : Mod) : Mod :=
  let ports := m.mem.loftPorts.map (fun (e : Nat × LoftPort) => (e.1, { e.2 with held := [] }))
  { m with
    plt := ⟨.empty, .empty, none, none, [], [], []⟩, sched := ⟨[], [], [], []⟩, cores := selfTesting m.cores, step := .reset
    mem := ⟨m.mem.hbm.forget, m.mem.loft.forget, m.mem.sram.forget, m.mem.acc.forget, ports⟩
    pool := ⟨[], [], [], []⟩, pad := ⟨[], [], 0, 0⟩, stm := ⟨[], []⟩, groom := ⟨[], [], []⟩, coll := ⟨[], [], [], [], false⟩
    chk := ⟨[], []⟩, fab := .reset
    sec := { m.sec with keys := [], keysDue := [], session := none }
    tick := m.tick.softReset
    dbg := { DbgUnit.reset with frzPin := m.dbg.frzPin, tapLast := m.dbg.tapLast, tapIr := m.dbg.tapIr }
    pwr := { m.pwr with ready := false, idleCount := 0 } }

/-- What a soft reset does before its boot chain (R18, R442, R450): the effects of a function reset but those of the PCIe reset
itself, registers of its level at their defaults, ports DOWN with cause POWER (12_fabric_ports.md Table 12-6), slots EMPTY. -/
def Mod.softBegin (m : Mod) : Mod :=
  let m1 := Mod.portsPower { m with regs := m.regs.softReset }
  m1.hostReset.clearUnits

/-- The host interface is released (R394 step 5; 18_debug.md R465): READY, IDLE, and frozen again where FRZ_N is still asserted. A soft reset
leaves configuration space, and so a module in D3hot in SLEEP (R442, R448; DEDUCED). -/
def Mod.release (m : Mod) : Mod :=
  Mod.freezePin { m with pwr := { m.pwr with ready := true, started := true, state := if m.pwr.state = .sleep then .sleep else .idle } }

/-- A soft reset (R442): absorbed while another reset runs (R440). -/
def Mod.softReset (m : Mod) (source : Nat) (boot : Boot) : Mod :=
  if m.mgUp && m.pwr.ready then
    let m1 := if m.pwr.state = .sleep then m.softBegin else m.softBegin.hbmTo 3 2
    ((m1.loftDueAll.resetCause 3 source).bootChain boot).release
  else m

/-- Ends of an unlock that a fundamental reset brings (16_security_and_update.md R409). -/
def Mod.unlockLost (m : Mod) : Mod := { m with sec := { m.sec with unlock := 0, unlockTimed := false } }

/-- The registers at a fundamental reset, with the active profile at the persistent default (R19, R443). -/
def Mod.fundamentalRegs (m : Mod) : Mod :=
  Mod.fset { m with regs := m.regs.defaults 3 } Fld.PWR_PROFILE_REQ (m.fget Fld.PWR_DEFAULT_PROFILE)

/-- What a fundamental reset does before its training and boot chain (R18, R366, R443): everything of a soft reset, the link, the
MSI-X capability, AER and any unlock. -/
def Mod.fundamentalBegin (m : Mod) (source : Nat) : Mod :=
  let m1 := m.fundamentalRegs.portsPower
  let m2 := m1.hostReset.msixReset.clearUnits.unlockLost
  Mod.resetCause { m2 with host := { m2.host with linkUp := false, bar2Log2 := 30, aer := [], aerHead := none },
                           pwr := { m2.pwr with state := .idle, bmcWake := false } } 2 source

/-- HBM and loft training (10_memory_tiers.md R253, R262): stacks come UP but those that fail; expanders found are taken into use,
other ports are DOWN. -/
def Mod.train (m : Mod) (boot : Boot) : Mod :=
  let m1 := (List.range 12).foldl (fun (x : Mod) i =>
    if boot.stackFail.contains i then x.stackDown i 0 else x.fset Fld.HBM_STACK_STATUS_STATE 2 i) m
  let m2 := (List.range 4).foldl (fun (x : Mod) c => if x.loftDisabled c then x else x.loftReport c 1 0 0)
    { m1 with mem := { m1.mem with loftPorts := [] } }
  boot.expanders.foldl (fun (x : Mod) e => if e.1 < 4 then x.loftAttach e.1 e.2.1 e.2.2.1 e.2.2.2.1 e.2.2.2.2 else x) m2

/-- The rest of a fundamental reset: training, boot chain, host interface released (Table 17-4). -/
def Mod.fundamentalEnd (m : Mod) (boot : Boot) : Mod :=
  ((Mod.train (Mod.setBudget { m with tick := { m.tick with running := true } }) boot).bootChain boot).release

/-- The events whose cause arose before the last cold reset are raised with PRIOR (20_events.md, Table 20-3; R434, R438). -/
def Mod.raisePrior (m : Mod) : Mod :=
  let m1 := m.pwr.prior.foldl (fun (x : Mod) r => { x with evIn := evInsert { r with tick := x.tick.count, cycle := x.tick.cycle } x.evIn }) m
  { m1 with pwr := { m1.pwr with prior := [] } }

/-- A cold reset begins (R450): everything but the persistent class is lost. What the module has sent, and what the pins PERST#
and FRZ_N are driven to, stand outside it. -/
def Mod.coldBegin (m : Mod) (source : Nat) : Mod :=
  let sec := { m.sec with log := [], keys := [], keysDue := [], unlock := 0, unlockTimed := false, session := none, recovery := false, testsOk := false,
                          proofOk := false, window := false }
  let m1 := { m with
    regs := m.regs.defaults 4, evIn := []
    host := { HostUnit.reset with out := m.host.out, sbAddr := m.host.sbAddr }
    pwr := { PwrUnit.reset with perst := m.pwr.perst, trip := m.pwr.trip, prior := m.pwr.prior }
    tick := .reset, plt := ⟨.empty, .empty, none, none, [], [], []⟩, sched := ⟨[], [], [], []⟩, cores := [], step := .reset
    mem := ⟨m.mem.hbm.forget, m.mem.loft.forget, m.mem.sram.forget, m.mem.acc.forget, []⟩
    pool := ⟨[], [], [], []⟩, pad := ⟨[], [], 0, 0⟩, stm := ⟨[], []⟩, groom := ⟨[], [], []⟩, coll := ⟨[], [], [], [], false⟩
    chk := ⟨[], []⟩, fab := .reset, sec := sec, dbg := { DbgUnit.reset with frzPin := m.dbg.frzPin } }
  (m1.fset Fld.PWR_PROFILE_REQ (m1.fget Fld.PWR_DEFAULT_PROFILE)).resetCause 1 source

/-- The event unit's output side after a cold reset: the persistent tail is kept (R490). -/
def EvtUnit.cold (e : EvtUnit) : EvtUnit := { EvtUnit.empty with tail := e.tail }

/-- Why input power comes: 3 after a trip, 2 after the reset level, else 1. -/
def Mod.powerSource (m : Mod) : Nat :=
  if m.pwr.trip then 3 else if m.pwr.prior.any (fun r => r.code == 0x1003) then 2 else 1

/-- The core self-test of a cold reset (03_cores.md R98). -/
def Mod.selfTest (m : Mod) (boot : Boot) : Mod := boot.coreFail.foldl (fun (x : Mod) e => if e.1 < 3072 then x.fenceCore e.1 1 else x) m

/-- The start-up of a cold reset once the rails are in regulation (Table 17-5; 19_package_and_pins.md R477). -/
def Mod.coldEnd (m : Mod) (boot : Boot) : Mod :=
  let m1 := { m with pwr := { m.pwr with powered := true, rails := true, trip := false }, tick := { m.tick with running := true },
                     host := { m.host with sbAddr := 0x48 + boot.straps % 4 } }
  (((m1.setBudget.selfTest boot).train boot).bootChain boot).raisePrior.release

/-- POWER_APPLIED: input power comes, and the cold reset runs its course (Table 17-4). While the rails are up it has no effect. -/
def execPowerApplied (boot : Boot) (s : State) : Host.Outcome State Fault Refusal :=
  .next (if s.m.pwr.powered && s.m.pwr.rails then s
    else { s with evq := s.evq.cold, m := (s.m.coldBegin s.m.powerSource).coldEnd boot })

/-- A record of class DEVICE that is written to the persistent tail alone (R490; Table 20-3): its D2 is the low half of the tick. -/
def Mod.priorRec (m : Mod) (code source d0 : Nat) : EvRec :=
  ⟨m.tick.count, m.tick.cycle, code, .device, true, source, lo32 d0, 0, lo32 m.tick.count, 0⟩

/-- Write a record to the persistent tail, to be raised at the next start-up. -/
def State.toTail (s : State) (r : EvRec) : State :=
  { s with evq := { s.evq with tail := lastN tailSize (s.evq.tail ++ [r]) }, m := { s.m with pwr := { s.m.pwr with prior := s.m.pwr.prior ++ [r] } } }

/-- SUPPLY_RESET_ASSERT: the reset detector asserts, and a cold reset begins at once (R434). -/
def execSupplyResetAssert (mv : Nat) (s : State) : Host.Outcome State Fault Refusal :=
  .next (if s.m.pwr.powered then
      let low := if s.m.pwr.dip = .none then mv else min mv s.m.pwr.dipMin
      let s1 := s.toTail (s.m.priorRec 0x1003 0 low)
      { s1 with evq := s1.evq.cold, m := s1.m.coldBegin 2 }
    else s)

/-- THERMTRIP: hardware asserts THERMTRIP_N and turns every rail off; the condition is latched until the input returns (R438). -/
def execThermtrip (sensor : Nat) (degC : Int) (s : State) : Host.Outcome State Fault Refusal :=
  .next (if s.m.pwr.powered then
      let s1 := s.toTail (s.m.priorRec 0x1006 sensor degC.toNat)
      let m1 := s1.m.coldBegin 3
      { s1 with evq := s1.evq.cold, m := Mod.emit { m1 with pwr := { m1.pwr with trip := true } } (.pin 1 false) }
    else s)

/-- RAIL_FAULT: a rail leaves regulation, and PWR_GOOD is deasserted (R424). -/
def execRailFault (s : State) : Host.Outcome State Fault Refusal :=
  .next (s.on (fun m => { m with pwr := { m.pwr with rails := false } }))

/-- PERST_ASSERT: before the host interface is released it holds only the host port (R441); in SLEEP with OFF_ON_PERST the module
enters OFF; else a fundamental reset is held (R449). PERST# is ignored while PWR_GOOD is low (R479): its level counts when
PWR_GOOD asserts. -/
def execPerstAssert (s : State) : Host.Outcome State Fault Refusal :=
  .next (if s.m.pwr.perst then s
    else
      let m := { s.m with pwr := { s.m.pwr with perst := true } }
      if !m.mgUp || !m.pwr.rails || !m.pwr.started then { s with m := m }
      else if m.pwr.state == .sleep && m.fget Fld.PWR_CFG_OFF_ON_PERST == 1 then
        { s with m := { m with pwr := { m.pwr with state := .off, ready := false }, host := { m.host with linkUp := false },
                               tick := { m.tick with running := false }, sec := { m.sec with counterOpen := false } } }
      else { s with evq := { s.evq with queue := [] }, m := m.fundamentalBegin 4 })

/-- PERST_DEASSERT: leaves OFF through a fundamental reset, or ends the one held (R441, R449). -/
def execPerstDeassert (boot : Boot) (s : State) : Host.Outcome State Fault Refusal :=
  .next (if !s.m.pwr.perst then s
    else
      let m := { s.m with pwr := { s.m.pwr with perst := false } }
      if !m.pwr.powered || !m.pwr.rails then { s with m := m }
      else if m.pwr.state = .off then
        { s with evq := { s.evq with queue := [] }, m := (m.fundamentalBegin 5).fundamentalEnd boot }
      else if m.pwr.started && !m.pwr.ready then { s with m := m.fundamentalEnd boot }
      else { s with m := m })

end Sys2Proof.Machine
end

