-- ==== Sys2Proof/Machine/Mgmt.lean ====
section
/-! DEFINITION. The paths to the management die and what the policy forbids on them (14_host_interface.md R380 to R382); how an
update session ends (16_security_and_update.md R414). -/

namespace Sys2Proof.Machine

/-- Does a request on a path reach the management die: through BAR0 at register offset `off`, or through an MCTP binding? -/
def Mod.pathUp (m : Mod) (path : Path) (off : Nat) : Bool :=
  match path with
  | .bar0 => m.answers off
  | .vdm => m.mctpUp false
  | .sideband => m.mctpUp true

/-- Does policy SIDEBAND refuse a request of this path (R382)? -/
def Mod.pathRefused (m : Mod) (path : Path) : Bool := m.fget Fld.SEC_POLICY_SIDEBAND == 1 && path != .sideband

/-- MGMT_REFUSED for a request code (R382; the codes are DESIGN CHOICE: the register's offset, or the SEC_CMD code). -/
def Mod.mgmtRefused (m : Mod) (path : Path) (code : Nat) : Mod := m.raise .corrected 0x0D05 0 (pathCode path) code

/-- Apply a change that a request on a path asks for. -/
def State.via (s : State) (path : Path) (off : Nat) (f : Mod → Mod) : State := s.on (fun m => if m.pathUp path off then f m else m)

/-- FW_UPDATE_FAILED (R414 to R417) for a SEC_CMD code, its result and the component. -/
def Mod.fwuFailed (m : Mod) (cmd result comp : Nat) : Mod :=
  (m.fset Fld.SEC_ERR_FWU_FAILED 1).raise .corrected 0x0F01 0 cmd result comp

/-- The boot slot a session writes (R418): the one not booted, or the one slot of SLX-4010-C. -/
def Mod.targetSlot (m : Mod) : Nat := if m.variant then 0 else 1 - m.fget Fld.SEC_STATUS_SLOT

/-- An open session ends with FW_UPDATE_FAILED and what it wrote is discarded (R414, R418): on SLX-4010-F the slot it wrote is
INVALID. -/
def Mod.sessionLost (m : Mod) (cmd result : Nat) : Mod :=
  match m.sec.session with
  | some x =>
    let m1 := if m.variant then m else m.setMark m.targetSlot .invalid
    Mod.fwuFailed { m1 with sec := { m1.sec with session := none } } cmd result x.comp
  | none => m

end Sys2Proof.Machine
end

