-- ==== Sys2Proof/Machine/Power.lean ====
section
/-! DEFINITION. Supply dips, temperature, profiles and power states (17_power_reset.md R426 to R449). The family "power". -/

namespace Sys2Proof.Machine

/-! ### Supply -/

/-- SUPPLY_WARN_ASSERT: the warning detector asserts at a voltage: the floor setting, and B becomes the P1 budget; during a hold
or a rise everything starts again (R432 step 1). -/
def execSupplyWarnAssert (mv : Nat) (s : State) : Host.Outcome State Fault Refusal :=
  .next (s.on (fun m =>
    if m.mgUp then
      let least := if m.pwr.dip = .asserted then min mv m.pwr.dipMin else mv
      (Mod.floorSetting { m with pwr := { m.pwr with dip := .asserted, dipMin := least } }).fset Fld.PWR_INPUT_MV (min mv 0xFFFF)
    else m))

/-- SUPPLY_WARN_CLEAR: the detector clears, with the minimum voltage and the time below 48.5 V (R432 steps 3 and 5). -/
def execSupplyWarnClear (mv us : Nat) (s : State) : Host.Outcome State Fault Refusal :=
  .next (s.on (fun m =>
    if m.mgUp && m.pwr.dip == .asserted then
      let least := min mv m.pwr.dipMin
      let m1 := { m with pwr := { m.pwr with dip := .hold, dipMin := least, dipUs := us } }
      let m2 := ((m1.fset Fld.PWR_DIP_MIN_MV (min least 0xFFFF)).fset Fld.PWR_DIP_US_US (min us 0xFFFFFFFF)).fset Fld.PWR_ERR_SUPPLY_WARN 1
      m2.raise .corrected 0x1001 0 least us
    else m))

/-- WARN_HOLD_EXPIRY: the P1 budget was held for 1 ms, and B rises (R432 step 4). -/
def execWarnHoldExpiry (s : State) : Host.Outcome State Fault Refusal :=
  .next (s.on (fun m =>
    if m.mgUp && m.pwr.dip == .hold then { m with pwr := { m.pwr with dip := .ramp m.rampTicks } } else m))

/-- PARK is due and no further step starts; in PARK and SLEEP a request has no effect (R433, R437, R446). -/
def Mod.parkDue (m : Mod) : Mod :=
  if m.pwr.state = .active ∨ m.pwr.state = .idle then { m with pwr := { m.pwr with noSteps := true, parkReq := true } } else m

/-- SUPPLY_PARK: the warning detector stayed asserted for more than 20 ms (R433). -/
def execSupplyPark (mv : Nat) (s : State) : Host.Outcome State Fault Refusal :=
  .next (s.on (fun m =>
    if m.mgUp && m.pwr.dip == .asserted then
      let least := min mv m.pwr.dipMin
      let m1 := Mod.fset { m with pwr := { m.pwr with dipMin := least } } Fld.PWR_ERR_SUPPLY_PARK 1
      (m1.raise .contained 0x1002 0 least).parkDue
    else m))

/-! ### Temperature -/

/-- Is the sensor that of an HBM stack (R435)? -/
def isHbmSensor (sensor : Nat) : Bool := decide (40 ≤ sensor)

/-- The throttle level of a sensor, °C (Table 17-3; PWR_THERM_THRESH). -/
def Mod.throttleLevel (m : Mod) (sensor : Nat) : Nat :=
  if isHbmSensor sensor then m.fget Fld.PWR_THERM_THRESH_HBM_C else m.fget Fld.PWR_THERM_THRESH_LOGIC_C

/-- The critical level of a sensor, °C (Table 17-3). -/
def criticalLevel (sensor : Nat) : Int := if isHbmSensor sensor then 95 else 105

/-- Is a sensor above its throttle level? -/
def Mod.anyThrottle (m : Mod) : Bool := m.pwr.temps.any (fun (e : Nat × Int) => decide ((m.throttleLevel e.1 : Int) < e.2))

/-- Is every sensor at least 2 °C below its throttle level? -/
def Mod.allCool (m : Mod) : Bool := m.pwr.temps.all (fun (e : Nat × Int) => decide (e.2 + 2 ≤ (m.throttleLevel e.1 : Int)))

/-- A sensor passes its throttle level: THERMAL_THROTTLE once per episode (R436). -/
def Mod.throttleCheck (m : Mod) (sensor : Nat) (degC : Int) : Mod :=
  if (m.throttleLevel sensor : Int) < degC ∧ !m.pwr.episode then
    (Mod.fset { m with pwr := { m.pwr with episode := true } } Fld.PWR_ERR_THROTTLE 1).raise .corrected 0x1004 sensor degC.toNat
      (m.throttleLevel sensor)
  else m

/-- A sensor passes its critical level: the floor setting at once, THERMAL_CRITICAL, and PARK (R437). -/
def Mod.criticalCheck (m : Mod) (sensor : Nat) (degC : Int) : Mod :=
  if criticalLevel sensor < degC then
    if m.pwr.critical.contains sensor then m
    else
      let m1 := Mod.floorSetting { m with pwr := { m.pwr with critical := setAdd m.pwr.critical sensor } }
      ((m1.fset Fld.PWR_ERR_CRITICAL 1).raise .contained 0x1005 sensor degC.toNat).parkDue
  else { m with pwr := { m.pwr with critical := setDel m.pwr.critical sensor } }

/-- TEMP_SAMPLE: a reading of a sensor (R435 to R437). -/
def execTempSample (sensor : Nat) (degC : Int) (s : State) : Host.Outcome State Fault Refusal :=
  .next (s.on (fun m =>
    if m.mgUp && decide (sensor < 52) then
      (Mod.throttleCheck { m with pwr := { m.pwr with temps := kvSet m.pwr.temps sensor degC } } sensor degC).criticalCheck sensor degC
    else m))

/-- THERMAL_STEP_TIMER: 1 ms of an episode with a sensor above its level, or 10 ms with every sensor at least 2 °C below: B moves by
one sixteenth of the profile budget (R436). The episode ends when B is back at the budget of R426. -/
def execThermalStepTimer (s : State) : Host.Outcome State Fault Refusal :=
  .next (s.on (fun m =>
    if m.mgUp && m.pwr.episode then
      if m.anyThrottle then
        if floorWatts * m.periodUs < m.heatBudget then { m with pwr := { m.pwr with cut := m.pwr.cut + 1 } } else m
      else if m.allCool then
        { m with pwr := { m.pwr with cut := m.pwr.cut - 1, episode := decide (1 < m.pwr.cut) } }
      else m
    else m))

/-! ### Profiles -/

/-- PROFILE_REFUSED with its reason (R430); by policy MGMT_REFUSED too (R382). -/
def Mod.profileRefused (m : Mod) (path : Path) (off req reason : Nat) : Mod :=
  let m1 := if reason = 4 then m.mgmtRefused path off else m
  (m1.fset Fld.PWR_ERR_PROFILE 1).raise .corrected 0x1007 0 req (pathCode path) reason

/-- Why a profile is refused (R430): 4 path, 3 zero, 1 variant, 2 cooling; none where it is accepted. -/
def Mod.profileReason (m : Mod) (path : Path) (req cooling : Nat) : Option Nat :=
  if m.pathRefused path then some 4 else if req = 0 then some 3 else if req = 3 ∧ m.variant then some 1
  else if 2 ≤ req ∧ cooling = 1 then some 2 else none

/-- A request of the active profile (R430): it takes effect at the next boundary. -/
def Mod.profileRequest (m : Mod) (path : Path) (req : Nat) : Mod :=
  let off := Reg.PWR_PROFILE.base
  let r := req % 4
  match m.profileReason path r (m.fget Fld.PWR_DEFAULT_COOLING) with
  | some why => m.profileRefused path off r why
  | none => m.wordWrite Reg.PWR_PROFILE 0 0 r

/-- PROFILE_REQUEST (R430). -/
def execProfileRequest (path : Path) (req : Nat) (s : State) : Host.Outcome State Fault Refusal :=
  .next (s.via path Reg.PWR_PROFILE.base (fun m => m.profileRequest path req))

/-- A power cap (R430): a value from 1 to 899 is discarded. -/
def Mod.capWrite (m : Mod) (path : Path) (watts : Nat) : Mod :=
  let off := Reg.PWR_CAP.base
  let w := watts % 4096
  if m.pathRefused path then m.profileRefused path off w 4
  else if 1 ≤ w ∧ w ≤ 899 then m.profileRefused path off w 5
  else m.wordWrite Reg.PWR_CAP 0 0 w

/-- CAP_WRITE (R430). -/
def execCapWrite (path : Path) (watts : Nat) (s : State) : Host.Outcome State Fault Refusal :=
  .next (s.via path Reg.PWR_CAP.base (fun m => m.capWrite path watts))

/-- A write of PWR_DEFAULT (R430): COOLING is taken, and PROFILE under the rules of a profile request; nothing
on a path that R382 forbids. -/
def Mod.defaultWrite (m : Mod) (path : Path) (v : Nat) : Mod :=
  let off := Reg.PWR_DEFAULT.base
  let cooling := bitsOf v 2 2
  let req := v % 4
  let m1 := if m.pathRefused path then m else m.fset Fld.PWR_DEFAULT_COOLING cooling
  match m.profileReason path req cooling with
  | some why => m1.profileRefused path off req why
  | none => m1.fset Fld.PWR_DEFAULT_PROFILE req

/-- DEFAULT_PROFILE_WRITE (R430). -/
def execDefaultProfileWrite (path : Path) (val : Nat) (s : State) : Host.Outcome State Fault Refusal :=
  .next (s.via path Reg.PWR_DEFAULT.base (fun m => m.defaultWrite path val))

/-! ### Power states -/

/-- PARK is requested (R446). -/
def Mod.parkRequest (m : Mod) : Mod :=
  if m.pwr.state = .active ∨ m.pwr.state = .idle then { m with pwr := { m.pwr with parkReq := true } } else m

/-- PARK_REQUEST (R446). -/
def execParkRequest (path : Path) (s : State) : Host.Outcome State Fault Refusal :=
  .next (s.via path Reg.PWR_STATE_REQ.base Mod.parkRequest)

/-- Is a tile of a stream in flight? -/
def Mod.anyFlight (m : Mod) : Bool := m.stm.engines.any (fun e => e.2.ctxs.any (fun c => !c.2.flight.isEmpty))

/-- PARK_ENTRY: at a boundary with no step in progress, once the tiles in flight are finished (R446). A freeze defers it
(19_package_and_pins.md R480). -/
def execParkEntry (s : State) : Host.Outcome State Fault Refusal :=
  .next (s.unit (fun m =>
    if m.pwr.parkReq && m.atBoundary && !m.stepBusy && !m.anyFlight then
      (Mod.portsPower { m with pwr := { m.pwr with state := .park, parkReq := false, noSteps := false } }).hbmTo 2 3
    else m))

/-- PARK is left: the state becomes IDLE and HBM leaves self-refresh, but in a frozen device (R447). -/
def Mod.parkExit (m : Mod) : Mod :=
  let m1 := { m with pwr := { m.pwr with state := .idle, idleCount := 0 } }
  if m.dbg.stopped then m1 else m1.hbmTo 3 2

/-- ACTIVE is requested (R447): refused while the warning detector is asserted or a critical level is exceeded. Outside PARK it has
no effect. -/
def Mod.activeRequest (m : Mod) : Mod :=
  if m.pwr.state ≠ .park then m
  else if m.pwr.dip = .asserted ∨ !m.pwr.critical.isEmpty then
    (m.fset Fld.PWR_ERR_STATE 1).raise .corrected 0x1008 0 1 (if m.pwr.dip = .asserted then 0 else 1)
  else m.parkExit

/-- ACTIVE_REQUEST (R447). -/
def execActiveRequest (path : Path) (s : State) : Host.Outcome State Fault Refusal :=
  .next (s.via path Reg.PWR_STATE_REQ.base Mod.activeRequest)

/-- FABRIC_WAKE: training frames arrive on a port of the active plate's ACTIVE_PORTS (R447). -/
def execFabricWake (port : Nat) (s : State) : Host.Outcome State Fault Refusal :=
  .next (s.on (fun m =>
    if m.mgUp && m.pwr.ready && !m.dbg.stopped && m.pwr.state == .park && m.fget Fld.PWR_CFG_FABRIC_WAKE == 1 && m.activePorts.contains port then
      m.parkExit
    else m))

/-- IDLE_ENTRY: IDLE_TICKS boundaries with no step in progress and none armed, or no plate active (R445). -/
def execIdleEntry (s : State) : Host.Outcome State Fault Refusal :=
  .next (s.unit (fun m =>
    if m.pwr.state == .active && !m.stepBusy
        && (!m.plateActive || decide (max 1 (m.fget Fld.PWR_CFG_IDLE_TICKS) ≤ m.pwr.idleCount)) then
      { m with pwr := { m.pwr with state := .idle } }
    else m))

/-- SLEEP (R448): a step in progress ends with a local FAULT, ports go DOWN, HBM goes to self-refresh. -/
def Mod.sleepEnter (m : Mod) : Mod :=
  let m1 := if m.stepOpen then m.fault 0x0707 else m
  (Mod.portsPower { m1 with pwr := { m1.pwr with state := .sleep } }).hbmTo 2 3

/-- D3HOT_ENTRY: the host writes D3hot (R448). -/
def execD3hotEntry (s : State) : Host.Outcome State Fault Refusal :=
  .next (s.on (fun m =>
    if m.mgUp && m.pwr.ready && m.host.linkUp && !m.pwr.perst && m.pwr.state != .sleep then m.sleepEnter else m))

/-- D0_ENTRY: the host writes D0: IDLE again, WAKE# released, frozen where FRZ_N is asserted (R448; 18_debug.md R461). -/
def execD0Entry (s : State) : Host.Outcome State Fault Refusal :=
  .next (s.on (fun m =>
    if m.mgUp && m.pwr.ready && m.host.linkUp && !m.pwr.perst && m.pwr.state == .sleep then
      let m1 := m.parkExit
      let m2 := if m.pwr.bmcWake then Mod.emit { m1 with pwr := { m1.pwr with bmcWake := false } } (.pin 2 true) else m1
      m2.freezePin
    else m))

/-- BMC_WAKE_REQUEST: in SLEEP the module asserts WAKE# (R448). -/
def execBmcWakeRequest (s : State) : Host.Outcome State Fault Refusal :=
  .next (s.on (fun m =>
    if m.mgUp && m.pwr.state == .sleep && !m.pwr.bmcWake then Mod.emit { m with pwr := { m.pwr with bmcWake := true } } (.pin 2 false)
    else m))

/-- WAKE_TIMEOUT: WAKE# was asserted for 1 s (R448). -/
def execWakeTimeout (s : State) : Host.Outcome State Fault Refusal :=
  .next (s.on (fun m =>
    if m.pwr.bmcWake then Mod.emit { m with pwr := { m.pwr with bmcWake := false } } (.pin 2 true) else m))

/-- MGMT_WATCHDOG: the management firmware is restarted after 10 ms without service (R444): requests in progress are discarded, an
update session ends (16_security_and_update.md R414). -/
def execMgmtWatchdog (core : Nat) (s : State) : Host.Outcome State Fault Refusal :=
  .next (s.on (fun m =>
    if m.mgUp then
      let m1 := m.fsat Fld.PWR_WDOG_COUNT
      let m2 := m1.raise .corrected 0x1009 core 0 (m1.fget Fld.PWR_WDOG_COUNT)
      Mod.sessionLost { m2 with host := { m2.host with doe := ⟨none, m2.host.doe.error⟩ } } 0 0
    else m))

/-! ### Soft reset -/

/-- A request of a soft reset (R442, PWR_CTRL): through BAR0 it needs the key; the policy may forbid the path (R382). -/
def Mod.softRequest (m : Mod) (path : Path) (key : Nat) (boot : Boot) : Mod :=
  if path = .bar0 ∧ key ≠ 0x5EF7 then m
  else if m.pathRefused path then m.mgmtRefused path Reg.PWR_CTRL.base
  else m.softReset (if path = .bar0 then 6 else 7) boot

/-- SOFT_RESET (R442). -/
def execSoftReset (path : Path) (key : Nat) (boot : Boot) (s : State) : Host.Outcome State Fault Refusal :=
  .next (s.via path Reg.PWR_CTRL.base (fun m => m.softRequest path key boot))

end Sys2Proof.Machine
end

