-- ==== Sys2Proof/Machine/Attest.lean ====
section
/-! DEFINITION. The attestation protocol, content keys and monitoring (16_security_and_update.md R398 to R405;
14_host_interface.md Table 14-7). The family "security": its rows about attestation and keys. -/

namespace Sys2Proof.Machine

/-- May a request object be served: by DOE while it is the object in progress, by MCTP while the binding answers? -/
def Mod.attUp (m : Mod) (via : AttPath) : Bool :=
  match via with
  | .doe req => m.mgUp && m.host.doe.busy == some req
  | .mctp sideband _ => m.mctpUp sideband

/-- REQ_ID of a request. -/
def attReq : AttPath → Nat
  | .doe req => req
  | .mctp _ req => req

/-- A response object (R398): header with CODE + 0x80, STATUS, the seconds to wait, body. -/
def attObject (req code status wait : Nat) (body : List Byte) : List Byte :=
  leBytes 1 1 ++ leBytes 1 (code + 0x80) ++ leBytes 2 req ++ leBytes 4 (12 + body.length) ++ leBytes 1 status ++ leBytes 3 wait ++ body

/-- Answer a request (R379, R398): through DOE the mailbox is free again and vector 16 is signalled. -/
def Mod.attReply (m : Mod) (via : AttPath) (code status wait : Nat) (body : List Byte) : Mod :=
  let obj := attObject (attReq via) code status wait body
  match via with
  | .doe _ => Mod.msix (Mod.emit { m with host := { m.host with doe := ⟨none, m.host.doe.error⟩ } } (.doe (code + 0x80) obj)) 16
  | .mctp sideband _ => m.emit (.mctp (bindingCode sideband) 0x7E obj)

/-- Serve a request object. -/
def State.att (s : State) (via : AttPath) (f : Mod → Mod) : State := s.on (fun m => if m.attUp via then f m else m)

/-- What GET_INFO reports (Table 16-3; the widths of its words are DESIGN CHOICE). -/
def Mod.infoBody (m : Mod) : List Byte :=
  leBytes 8 Config.uid.toNat ++ leBytes 4 m.fusedSvn ++ (List.range 5).flatMap (fun c => leBytes 4 (m.fget Fld.SEC_FW_VER_VERSION c))
    ++ leBytes 4 (m.fget Fld.SEC_FW_BUNDLE_BUNDLE) ++ leBytes 4 (m.regs.read Reg.SEC_POLICY 0 0)
    ++ leBytes 4 (m.fget Fld.SEC_ATT_NEXT_NEXT) ++ leBytes 4 (m.fget Fld.SEC_ATT_MARKS_MARKS)

/-- GET_INFO (Table 16-3). -/
def execGetInfo (via : AttPath) (s : State) : Host.Outcome State Fault Refusal :=
  .next (s.att via (fun m => m.attReply via 1 0 0 m.infoBody))

/-- GET_ENDORSEMENT (R401). -/
def execGetEndorsement (via : AttPath) (s : State) : Host.Outcome State Fault Refusal :=
  .next (s.att via (fun m => m.attReply via 2 0 0 Config.endorsement))

/-- M0 to M7. -/
def Mod.allMeas (m : Mod) : List Byte := (List.range 8).flatMap m.meas

/-- An entry of the measurement log as GET_MEASUREMENTS gives it (R397; its layout is DESIGN CHOICE). -/
def MeasEntry.bytes (e : MeasEntry) : List Byte := leBytes 1 e.reg ++ leBytes 1 e.kind ++ leBytes 6 e.tick ++ e.digest

/-- GET_MEASUREMENTS (Table 16-3). -/
def execGetMeasurements (via : AttPath) (s : State) : Host.Outcome State Fault Refusal :=
  .next (s.att via (fun m => m.attReply via 3 0 0 (m.allMeas ++ m.sec.log.flatMap MeasEntry.bytes)))

/-- The body of a quote with index q (Table 16-4). -/
def Mod.quoteBody (m : Mod) (q : Nat) (nonce : List Byte) : List Byte :=
  let flags := (if m.sec.unlock = 1 then 1 else 0) + (if m.sec.unlock = 2 then 2 else 0) + (if m.sec.window then 4 else 0)
    + (if m.plateActive then 8 else 0)
  leBytes 4 0x51584C53 ++ leBytes 2 1 ++ leBytes 2 flags ++ leBytes 8 Config.uid.toNat ++ leBytes 4 q ++ leBytes 4 m.fusedSvn
    ++ leBytes 8 m.tick.count ++ leBytes 4 (m.fget Fld.SEC_FW_BUNDLE_BUNDLE) ++ leBytes 4 0 ++ padTo 32 nonce
    ++ sha256 (Config.kemKey m.sec.kem) ++ m.allMeas ++ leBytes 24 0

/-- Draw signature index q (R402, R404): the mark bit is blown when q is the first index not covered, the counter and OPEN are
written, and ATT_KEY_LOW is raised once. -/
def Mod.drawIndex (m : Mod) (q : Nat) : Mod :=
  let marks := m.fget Fld.SEC_ATT_MARKS_MARKS
  let m1 := if q = 4096 * marks then m.fset Fld.SEC_ATT_MARKS_MARKS (marks + 1) else m
  let m2 := m1.fset Fld.SEC_ATT_NEXT_NEXT (q + 1)
  Mod.keyLow { m2 with sec := { m2.sec with counterOpen := true } }

/-- Seconds left of the policy's ATT_MIN minutes (R399), of which a clock that the model does not hold leaves `wait`: none where the key has
never signed. -/
def Mod.quoteWait (m : Mod) (wait : Nat) : Nat :=
  if m.fget Fld.SEC_ATT_NEXT_NEXT = 0 then 0 else min wait (60 * m.fget Fld.SEC_POLICY_ATT_MIN)

/-- GET_QUOTE: `wait` is the seconds left of ATT_MIN since the last signature (R399, R400, R402, R404). A nonce that is not 32 bytes makes a
BAD_REQUEST (Table 16-3). -/
def execGetQuote (via : AttPath) (nonce : List Byte) (wait : Nat) (s : State) : Host.Outcome State Fault Refusal :=
  .next (s.att via (fun m =>
    let q := m.fget Fld.SEC_ATT_NEXT_NEXT
    let wait := m.quoteWait wait
    if nonce.length ≠ 32 then m.attReply via 4 2 0 []
    else if attIndices ≤ q then (m.raise .contained 0x0F07 0).attReply via 4 3 0 []
    else if 0 < wait then m.attReply via 4 1 wait []
    else if m.sec.unlock = 2 then m.attReply via 4 4 0 []
    else
      let body := m.quoteBody q nonce
      (m.drawIndex q).attReply via 4 0 0 (body ++ Config.attSign q body)))

/-- GET_KEM_KEY (R393). -/
def execGetKemKey (via : AttPath) (s : State) : Host.Outcome State Fault Refusal :=
  .next (s.att via (fun m => m.attReply via 5 0 0 (Config.kemKey m.sec.kem)))

/-- A key that cannot be unwrapped (R405): 0 decapsulation, 1 tag. -/
def Mod.keyRefused (m : Mod) (via : AttPath) (slot why : Nat) : Mod :=
  ((m.fset Fld.SEC_ERR_KEY_REFUSED 1).raise .corrected 0x0F08 0 slot why).attReply via 6 4 0 []

/-- The shared secret of a ciphertext; none while a VENDOR unlock has cleared the private key (R409). -/
def Mod.decap (m : Mod) (ciphertext : List Byte) : Option (List Byte) :=
  if m.sec.cleared then none else Config.kemDecap m.sec.kem ciphertext

/-- LOAD_KEY (R405): a slot above 15, or parts of other lengths than Table 16-3 gives, make a BAD_REQUEST. -/
def execLoadKey (via : AttPath) (slot : Nat) (ciphertext iv wrapped : List Byte) (s : State) : Host.Outcome State Fault Refusal :=
  .next (s.att via (fun m =>
    if 16 ≤ slot ∨ ciphertext.length ≠ 1568 ∨ iv.length ≠ 12 ∨ wrapped.length ≠ 48 then m.attReply via 6 2 0 []
    else if m.stepBusy then m.attReply via 6 5 0 []
    else match m.decap ciphertext with
      | none => m.keyRefused via slot 0
      | some secret =>
        match Config.gcmOpen secret iv (leBytes 1 slot ++ leBytes 8 Config.uid.toNat) wrapped with
        | none => m.keyRefused via slot 1
        | some key => Mod.attReply { m with sec := { m.sec with keysDue := kvSet m.sec.keysDue slot key } } via 6 0 0 []))

/-- CLEAR_KEY (Table 16-3, R405). -/
def execClearKey (via : AttPath) (slot : Nat) (s : State) : Host.Outcome State Fault Refusal :=
  .next (s.att via (fun m =>
    if 16 ≤ slot then m.attReply via 7 2 0 []
    else if m.stepBusy then m.attReply via 7 5 0 []
    else Mod.attReply { m with sec := { m.sec with keys := kvDel m.sec.keys slot, keysDue := kvDel m.sec.keysDue slot } } via 7 0 0 []))

/-- KEY_SLOT_APPLY: accepted keys take effect at a tick boundary (R405). -/
def execKeySlotApply (s : State) : Host.Outcome State Fault Refusal :=
  .next (s.on (fun m =>
    if m.mgUp && m.atBoundary then
      { m with sec := { m.sec with keys := m.sec.keysDue.foldl (fun k e => kvSet k e.1 e.2) m.sec.keys, keysDue := [] } }
    else m))

/-- The temperature of a sensor as telemetry gives it: below 0 reads 0 (PWR_TEMP); a sensor not yet read gives 0 (DESIGN
CHOICE). -/
def Mod.tempOf (m : Mod) (sensor : Nat) : Nat := (kvGetD m.pwr.temps sensor 0).toNat

/-- PLDM_MONITORING: sensors and the power cap (Table 14-7), answered with a completion code (PRESUMED: 5 for a request that is
not supported, 2 for a cap refused); the cap reaches PWR_CAP under the policy of the binding's path (R382, R430). -/
def execPldmMonitoring (sideband : Bool) (req : PldmReq) (s : State) : Host.Outcome State Fault Refusal :=
  .next (s.on (fun m =>
    if !m.mctpUp sideband then m
    else
      let b := bindingCode sideband
      match req with
      | .readTemp sensor => m.emit (.mctp b 1 (leBytes 1 0 ++ leBytes 2 (m.tempOf sensor)))
      | .readPower => m.emit (.mctp b 1 (leBytes 1 0 ++ leBytes 4 (m.fget Fld.PWR_ENERGY_UJ / max m.periodUs 1)))
      | .readVoltage => m.emit (.mctp b 1 (leBytes 1 0 ++ leBytes 2 (m.fget Fld.PWR_INPUT_MV)))
      | .setCap watts =>
        let path := if sideband then Path.sideband else .vdm
        let bad := m.pathRefused path || (decide (1 ≤ watts % 4096) && decide (watts % 4096 ≤ 899))
        (m.capWrite path watts).emit (.mctp b 1 (leBytes 1 (if bad then 2 else 0)))
      | .other _ => m.emit (.mctp b 1 (leBytes 1 5))))

end Sys2Proof.Machine
end

