-- ==== Sys2Proof/Machine/Debug.lean ====
section
/-! DEFINITION. Halt and step, memory access and the TAP's own instructions (18_debug.md R451 to R460). The family "debug" but for
the freeze and the trace. -/

namespace Sys2Proof.Machine

/-! ### Halt, resume, step -/

/-- The cores a scope addresses: 0 one core, 1 a stable, 2 the device; none for the reserved scope. -/
def Mod.scopeCores (m : Mod) (scope target : Nat) : List Nat :=
  match scope with
  | 0 => [target]
  | 1 => m.ranks target
  | 2 => m.stableCores
  | _ => []

/-- HALT (R455): a stable that the plate does not have is refused too. -/
def Mod.dbgHalt (m : Mod) (scope target : Nat) : Mod :=
  let r : HaltReason := ⟨true, false, false, 0⟩
  if scope = 2 then m.haltDevice r
  else if scope = 1 ∧ (m.stableRec? target).isNone then m.fset Fld.DBG_ERR_HALT 1
  else m.haltCores r (m.scopeCores scope target)

/-- DBG_HALT (R455). -/
def execDbgHalt (scope target : Nat) (s : State) : Host.Outcome State Fault Refusal :=
  .next (s.reg Reg.DBG_HALT_CTRL.base (fun m => m.dbgGate (fun x => x.dbgHalt (scope % 4) (target % 4096))))

/-- A core is released; one released at a breakpoint starts its kernel without matching again (R457, R458). -/
def CoreRun.resume (x : CoreRun) : CoreRun :=
  { x with halt := none, haltReq := none, stepOne := false, skipBp := x.skipBp || x.halt.any (·.brk) }

/-- Release cores. -/
def Mod.resumeCores (m : Mod) (cs : List Nat) : Mod :=
  cs.foldl (fun (x : Mod) c => if (kvGet? x.cores c).isSome then x.setCore c (x.core c).resume else x) m

/-- RESUME (R457). -/
def Mod.dbgResume (m : Mod) (scope target : Nat) : Mod :=
  let m1 := m.resumeCores (m.scopeCores scope target)
  if scope = 2 then { m1 with dbg := { m1.dbg with devHalt := false, devStep := false } } else m1

/-- DBG_RESUME (R457). -/
def execDbgResume (scope target : Nat) (s : State) : Host.Outcome State Fault Refusal :=
  .next (s.reg Reg.DBG_HALT_CTRL.base (fun m => m.dbgGate (fun x => x.dbgResume (scope % 4) (target % 4096))))

/-- A halted core is let run one kernel (R457). -/
def CoreRun.stepKernel (x : CoreRun) : CoreRun := if x.halt.isSome then { x with halt := none, stepOne := true, skipBp := true } else x

/-- STEP (R457): a core that is not halted ignores it; with device scope the other units run meanwhile. -/
def Mod.dbgStep (m : Mod) (scope target : Nat) : Mod :=
  let m1 := (m.scopeCores scope target).foldl (fun (x : Mod) c =>
    if (x.core c).halt.isSome then x.setCore c (x.core c).stepKernel else x) m
  { m1 with dbg := { m1.dbg with devStep := scope == 2 || (m.dbg.devStep && m.cores.any (fun e => e.2.stepOne)) } }

/-- DBG_STEP (R457). -/
def execDbgStep (scope target : Nat) (s : State) : Host.Outcome State Fault Refusal :=
  .next (s.reg Reg.DBG_HALT_CTRL.base (fun m => m.dbgGate (fun x => x.dbgStep (scope % 4) (target % 4096))))

/-- The end of a debug unlock (R452): halted cores resume, breakpoints and watches lose EN, the trace stops. -/
def Mod.unlockEffects (m : Mod) : Mod :=
  let m1 := m.resumeCores (m.cores.map (·.1))
  let m2 := { m1 with dbg := { m1.dbg with devHalt := false, devStep := false } }
  ((List.range 8).foldl (fun (x : Mod) i => (x.fset Fld.DBG_BP_CFG_EN 0 i).fset Fld.DBG_WATCH_CFG_EN 0 i) m2).traceStop

/-! ### Memory access (R460) -/

/-- Bytes of a trace record (Table 18-3). -/
def TraceRec.bytes (r : TraceRec) : List Byte :=
  leBytes 6 r.tick ++ leBytes 2 r.cycle ++ leBytes 1 r.kind ++ leBytes 1 0 ++ leBytes 2 r.inst ++ leBytes 4 r.d0 ++ leBytes 4 r.d1
    ++ leBytes 4 r.d2 ++ leBytes 4 r.d3 ++ leBytes 4 0

/-- A trace record from its bytes. -/
def TraceRec.ofBytes (b : List Byte) : TraceRec :=
  let n := fun (o k : Nat) => leNat ((b.drop o).take k)
  ⟨n 0 6, n 6 2, n 8 1, n 10 2, n 12 4, n 16 4, n 20 4, n 24 4⟩

/-- The trace buffer's bytes of one record. -/
def Mod.traceBytes (m : Mod) (i : Nat) : List Byte := ((kvGet? m.dbg.trace i).map TraceRec.bytes).getD (leBytes 32 0)

/-- The address of a command. -/
def Mod.dbgAddr (m : Mod) : Nat := m.get64 Fld.DBG_MEM_ADDR_LO_ADDR Fld.DBG_MEM_ADDR_HI_ADDR

/-- Is the address outside its space? -/
def Mod.memOutside (m : Mod) (space a : Nat) : Bool :=
  match space with
  | 0 => m.locate a == .reserved
  | 1 => decide (12 ≤ m.fget Fld.DBG_MEM_CTRL_STACK) || decide (stackSize ≤ a)
  | 2 => decide (3072 ≤ m.fget Fld.DBG_MEM_CTRL_CORE) || a % 64 != 0 || decide (sramSize ≤ a)
  | _ => decide (32 * traceSize ≤ a)

/-- Does the space's condition hold? Device memory must be reachable as BAR2 reaches it; HBM must run. -/
def Mod.memAllowed (m : Mod) (space a : Nat) : Bool :=
  match space with
  | 0 => m.pwr.state != .sleep && (if m.dbg.stopped then m.dbg.memread else m.pwr.state != .park)
      && (m.heldPort (a / 64 * 64) 64).isNone
  | 1 => !m.dbg.stopped && (m.pwr.state == .active || m.pwr.state == .idle)
  | 2 => m.dbg.stopped || (m.core (m.fget Fld.DBG_MEM_CTRL_CORE)).halt.isSome
  | _ => m.dbg.traceSt != 1

/-- The end of a memory command: 0 OK, 1 POISON, 2 REFUSED, 3 RANGE. -/
def Mod.memResult (m : Mod) (r : Nat) : Mod :=
  let m1 := m.fset Fld.DBG_MEM_STATUS_RESULT r
  if r = 2 then m1.fset Fld.DBG_ERR_MEM 1 else m1

/-- What a memory command meets in a core's SRAM (03_cores.md R97), outside any step. -/
def Mod.sramFound (m : Mod) (c a : Nat) (ecc : Ecc) : Mod :=
  let inside := fun (x : Nat) => decide (a ≤ x) && decide (x < a + 64)
  let m1 := (ecc.sramCe.filter inside).foldl (fun (x : Mod) _ => x.fsat Fld.CORE_ECC_CE 1 c) m
  (ecc.sramUe.filter inside).foldl (fun (x : Mod) o =>
    let w := (c * sramSize + o) / 4
    if x.mem.sram.poison.contains w then x
    else { x with mem := { x.mem with sram := x.mem.sram.mark w } }.fsat Fld.CORE_ECC_UE 1 c) m1

/-- The sector a read gives, after the errors it meets. -/
def Mod.memFetch (m : Mod) (space : Nat) (ecc : Ecc) : Mod × List (Byte × Bool) :=
  let a := m.dbgAddr / 64 * 64
  match space with
  | 0 =>
    let m1 := if m.bar2Void a then m else (m.yard .debug a 64 false).readDev false [(a, 64)] ecc
    (m1, (List.range 64).map (fun i => m1.byteAt (m1.bar2Loc (a + i))))
  | 1 =>
    let k := m.fget Fld.DBG_MEM_CTRL_STACK * stackSize + a
    let hit := fun (x : Nat) => x / 64 == k / 64
    let m1 := (ecc.ue.filter hit).foldl (fun (x : Mod) e => x.foundUe false e) ((ecc.ce.filter hit).foldl (fun (x : Mod) e => x.foundCe e) m)
    (m1, (List.range 64).map (fun i => m1.byteAt (.hbm (k + i))))
  | 2 =>
    let c := m.fget Fld.DBG_MEM_CTRL_CORE
    let m1 := m.sramFound c a ecc
    (m1, m1.sramRead c a 64)
  | _ => (m, (m.traceBytes (a / 32) ++ m.traceBytes (a / 32 + 1)).map (fun b => (b, false)))

/-- Put a sector into DBG_MEM_DATA: 0xFF bytes where it is poisoned. -/
def Mod.memShow (m : Mod) (d : List (Byte × Bool)) : Mod :=
  let bytes := if rdPoison d then List.replicate 64 0xFF else rdBytes d
  let m1 := (List.range 16).foldl (fun (x : Mod) i => x.fset Fld.DBG_MEM_DATA_DATA (leNat ((bytes.drop (4 * i)).take 4)) i) m
  m1.memResult (if rdPoison d then 1 else 0)

/-- A READ command (R460). -/
def Mod.memReadCmd (m : Mod) (ecc : Ecc) : Mod :=
  let space := m.fget Fld.DBG_MEM_CTRL_SPACE
  if m.memOutside space m.dbgAddr then m.memResult 3
  else if !m.memAllowed space m.dbgAddr then m.memResult 2
  else
    let r := m.memFetch space ecc
    r.1.memShow r.2

/-- DBG_MEM_READ (R460). -/
def execDbgMemRead (ecc : Ecc) (s : State) : Host.Outcome State Fault Refusal :=
  .next (s.reg Reg.DBG_MEM_CTRL.base (fun m => m.dbgGate (fun x => x.memReadCmd ecc)))

/-- The sector in DBG_MEM_DATA. -/
def Mod.memData (m : Mod) : List Byte := (List.range 16).flatMap (fun i => leBytes 4 (m.fget Fld.DBG_MEM_DATA_DATA i))

/-- Store a sector: the poison mark comes off (R460, R251). -/
def Mod.memStore (m : Mod) (space : Nat) (ecc : Ecc) : Mod :=
  let a := m.dbgAddr / 64 * 64
  let d := m.memData
  match space with
  | 0 =>
    match slotOf a with
    | some sl => if (m.plt.slot sl).st = .loading then (m.bar2WriteAt a (d.map some) ecc).memResult 0 else (m.bar2WriteAt a (d.map some) ecc).memResult 2
    | none => (m.bar2WriteAt a (d.map some) ecc .debug).memResult 0
  | 1 => (Mod.writeAt (fun x => .hbm x) m (m.fget Fld.DBG_MEM_CTRL_STACK * stackSize + a) (d.map some)).memResult 0
  | 2 => (m.sramWrite (m.fget Fld.DBG_MEM_CTRL_CORE) a d).memResult 0
  | _ =>
    let t := kvSet (kvSet m.dbg.trace (a / 32) (TraceRec.ofBytes (d.take 32))) (a / 32 + 1) (TraceRec.ofBytes (d.drop 32))
    Mod.memResult { m with dbg := { m.dbg with trace := t } } 0

/-- A WRITE command (R460). -/
def Mod.memWriteCmd (m : Mod) (ecc : Ecc) : Mod :=
  let space := m.fget Fld.DBG_MEM_CTRL_SPACE
  if m.memOutside space m.dbgAddr then m.memResult 3
  else if !m.memAllowed space m.dbgAddr then m.memResult 2
  else m.memStore space ecc

/-- DBG_MEM_WRITE (R460). -/
def execDbgMemWrite (ecc : Ecc) (s : State) : Host.Outcome State Fault Refusal :=
  .next (s.reg Reg.DBG_MEM_CTRL.base (fun m => m.dbgGate (fun x => x.memWriteCmd ecc)))

/-! ### The TAP -/

/-- Select a TAP instruction and shift its data register out. -/
def Mod.tapShift (m : Mod) (ir out : Nat) : Mod := Mod.emit { m with dbg := { m.dbg with tapIr := ir } } (.tap out)

/-- Apply a change while the TAP is powered. -/
def State.tap (s : State) (f : Mod → Mod) : State := s.on (fun m => if m.mgUp then f m else m)

/-- The 32 bits of IDCODE (Table 18-1). -/
def idcode : Nat := Config.revision.toNat % 16 * 2 ^ 28 + 0x4010 * 2 ^ 12 + 0x2B5 * 2 + 1

/-- IDCODE (Table 18-1). -/
def execIdcode (s : State) : Host.Outcome State Fault Refusal := .next (s.tap (fun m => m.tapShift 0x01 idcode))

/-- The boundary register sampled: its cells are those of the pins, a free value. -/
def Mod.tapSample (m : Mod) (ir : Nat) : Mod := Mod.tapShift { m with fresh := m.fresh + 1 } ir (Config.boundaryCells m.fresh)

/-- SAMPLE_PRELOAD (Table 18-1). -/
def execSamplePreload (s : State) : Host.Outcome State Fault Refusal := .next (s.tap (fun m => m.tapSample 0x02))

/-- EXTEST, CLAMP and HIGHZ act as BYPASS and set DBG_ERR.EXTEST while PERST# is not asserted (R454). -/
def Mod.tapPins (m : Mod) (f : Mod → Mod) : Mod := if m.pwr.perst then f m else (m.fset Fld.DBG_ERR_EXTEST 1).tapShift 0xFF 0

/-- EXTEST (R454). -/
def execExtest (s : State) : Host.Outcome State Fault Refusal := .next (s.tap (fun m => m.tapPins (fun x => x.tapSample 0x03)))

/-- CLAMP (R454). -/
def execTapClamp (s : State) : Host.Outcome State Fault Refusal := .next (s.tap (fun m => m.tapPins (fun x => x.tapShift 0x04 0)))

/-- HIGHZ (R454). -/
def execHighz (s : State) : Host.Outcome State Fault Refusal := .next (s.tap (fun m => m.tapPins (fun x => x.tapShift 0x05 0)))

/-- BYPASS, which every code not listed selects (R453). -/
def execBypass (s : State) : Host.Outcome State Fault Refusal := .next (s.tap (fun m => m.tapShift 0xFF 0))

/-- TAP_RESET: TRST_N resets the TAP controller alone (R453), which selects IDCODE. -/
def execTapReset (s : State) : Host.Outcome State Fault Refusal :=
  .next (s.on (fun m => { m with dbg := { m.dbg with tapIr := 0x01 } }))

end Sys2Proof.Machine
end

