-- ==== Sys2Proof/Machine/Update.lean ====
section
/-! DEFINITION. Firmware images and update sessions (16_security_and_update.md R411 to R422). The family "security": its rows
about firmware. -/

namespace Sys2Proof.Machine

/-! ### Commands and their results -/

/-- The object a command reads: through BAR0 the first SEC_DATA_LEN bytes of the data window, else what the message carries. -/
def Mod.object (m : Mod) (path : Path) (data : List Byte) : List Byte :=
  match path with
  | .bar0 =>
    let n := min (m.fget Fld.SEC_DATA_LEN_BYTES) 131072
    ((List.range ((n + 3) / 4)).flatMap (fun i => leBytes 4 (m.fget Fld.SEC_DATA_DATA i))).take n
  | _ => data

/-- The end of a command (Table 16-7): SEC_CMD_STATUS for BAR0, a response for MCTP; FWU commands (1 to 7) signal vector 17. -/
def Mod.cmdDone (m : Mod) (path : Path) (code result : Nat) : Mod :=
  let m1 := match path with
    | .bar0 => (m.fset Fld.SEC_CMD_STATUS_CODE code).fset Fld.SEC_CMD_STATUS_RESULT result
    | .vdm => m.emit (.mctp 0 1 (leBytes 1 result))
    | .sideband => m.emit (.mctp 1 1 (leBytes 1 result))
  if code ≤ 7 then m1.msix 17 else m1

/-- A session command fails (R414 to R417). -/
def Mod.fwuFail (m : Mod) (path : Path) (code result : Nat) : Mod :=
  (m.fwuFailed code result ((m.sec.session.map (·.comp)).getD 0)).cmdDone path code result

/-- Replace the session. -/
def Mod.setSession (m : Mod) (x : FwuSession) : Mod := { m with sec := { m.sec with session := some x } }

/-- A command of the session: it must come on the session's path (BUSY), and there must be a session (ORDER). -/
def Mod.inSession (m : Mod) (path : Path) (code : Nat) (f : FwuSession → Mod) : Mod :=
  match m.sec.session with
  | none => m.fwuFail path code 5
  | some x => if x.path = path then f x else m.fwuFail path code 1

/-! ### Images (R411, R412) -/

/-- A field of an image header (Table 16-6). -/
def hdrNat (h : List Byte) (off n : Nat) : Nat := leNat ((h.drop off).take n)

/-- Bytes of an image header part: fields, public key, signature. -/
def imageHdrLen : Nat := 0x140 + 5396

/-- Blocks of an image. -/
def hdrBlocks (h : List Byte) : Nat := hdrNat h 0x18 4

/-- Is the image a DELTA? -/
def hdrDelta (h : List Byte) : Bool := (hdrNat h 7 1).testBit 0

/-- Does a header break its format (Table 16-6)? -/
def hdrBad (h : List Byte) : Bool :=
  h.length != imageHdrLen || hdrNat h 0 4 != 0x46584C53 || hdrNat h 4 2 != 1 || decide (4 < hdrNat h 6 1) || decide (1 < hdrNat h 7 1)
    || decide (64 < hdrNat h 0x10 1) || hdrBlocks h == 0 || decide (1024 < hdrBlocks h) || decide (0x2000000 < hdrNat h 0x1C 4)
    || hdrNat h 0x13C 4 != 5396

/-- The public key, its hash and the signature verify (R396). -/
def hdrSigned (h : List Byte) : Bool :=
  let pk := (h.drop 0x100).take 60
  sha256 pk == Config.vendorPkHash && hssOk true pk (h.take 0x100) ((h.drop 0x140).take 5396)

/-- Result of the checks of R396 but TARGET_HASH: 2 SIGNATURE, 3 ROLLBACK, 0 none fails. -/
def Mod.hdrCheck (m : Mod) (h : List Byte) : Nat :=
  if !hdrSigned h then 2 else if hdrNat h 0x10 1 < m.fusedSvn then 3 else 0

/-- IV_PREFIX. -/
def hdrIv (h : List Byte) : List Byte := (h.drop 0x88).take 8

/-- A 32-bit value with its most significant byte first. -/
def be32 (n : Nat) : List Byte := (leBytes 4 n).reverse

/-- The plaintext of block record `i` (R412); none where the content key or the tag fails. -/
def blockPlain (h record : List Byte) (i : Nat) : Option (List Byte) :=
  match Config.gcmOpen Config.fwKey (hdrIv h ++ be32 0xFFFFFFFF) [] ((h.drop 0x90).take 48) with
  | some key => Config.gcmOpen key (hdrIv h ++ be32 i) (record.take 8) (record.drop 16)
  | none => none

/-- An image record of a header, once its plaintext is known. -/
def imageOf (h plain : List Byte) : FwImage :=
  ⟨hdrNat h 8 4, hdrNat h 0xC 4, hdrNat h 0x10 1,
    (List.range 5).map (fun c => (hdrNat h (0x60 + 8 * c) 4, hdrNat h (0x64 + 8 * c) 4)), (h.drop 0x20).take 32, plain⟩

/-- Apply a DELTA stream to its base (R413); none where a record reads beyond the base or the stream is malformed. -/
def applyDelta (base : List Byte) : Nat → List Byte → List Byte → Option (List Byte)
  | 0, _, out => some out
  | n + 1, d, out =>
    if d.length = 0 then some out
    else if d.length < 16 then none
    else
      let len := hdrNat d 4 4
      let src := hdrNat d 8 4
      match hdrNat d 0 1 with
      | 1 => if src + len ≤ base.length then applyDelta base n (d.drop 16) (out ++ (base.drop src).take len) else none
      | 2 =>
        if d.length < 16 + len then none
        else applyDelta base n (d.drop (16 + (len + 7) / 8 * 8)) (out ++ (d.drop 16).take len)
      | _ => none

/-! ### The session's commands -/

/-- The booted slot. -/
def Mod.bootedSlot (m : Mod) : Nat := m.fget Fld.SEC_STATUS_SLOT

/-- FWU_BEGIN (R414, R418; 14_host_interface.md R382): the slot it will write is INVALID meanwhile. -/
def Mod.fwuBegin (m : Mod) (path : Path) : Mod :=
  if m.pathRefused path then (m.mgmtRefused path 1).fwuFail path 1 1
  else if m.sec.session.isSome then m.fwuFail path 1 1
  else
    let m1 := if m.variant then m else m.setMark m.targetSlot .invalid
    (m1.setSession ⟨path, .opened, 0, [], [], [], [], 0, [], []⟩).cmdDone path 1 0

/-- FWU_BEGIN. -/
def execFwuBegin (path : Path) (s : State) : Host.Outcome State Fault Refusal :=
  .next (s.via path Reg.SEC_CMD.base (fun m => m.fwuBegin path))

/-- Are all blocks of the current image in? -/
def FwuSession.imageIn (x : FwuSession) : Bool := x.stage == .blocks && x.blocks == hdrBlocks x.header

/-- FWU_HEADER (R414, R415): images come in ascending component code. -/
def Mod.fwuHeader (m : Mod) (path : Path) (h : List Byte) : Mod :=
  m.inSession path 2 (fun x =>
    let comp := hdrNat h 6 1
    if !(x.stage == .opened || x.imageIn) then m.fwuFail path 2 5
    else if hdrBad h || (m.sec.recovery && hdrDelta h) then m.fwuFail path 2 8
    else if x.stage == .blocks && decide (comp ≤ x.comp) then m.fwuFail path 2 5
    else
      let bad := if m.fget Fld.SEC_POLICY_BLOCKWISE = 1 then 0 else m.hdrCheck h
      if bad ≠ 0 then m.fwuFail path 2 bad
      else (m.setSession { x with stage := .header, comp := comp, header := h, list := [], hashes := [], plain := [], blocks := 0 }).cmdDone path 2 0)

/-- FWU_HEADER. -/
def execFwuHeader (path : Path) (data : List Byte) (s : State) : Host.Outcome State Fault Refusal :=
  .next (s.via path Reg.SEC_CMD.base (fun m => m.fwuHeader path (m.object path data)))

/-- LIST_HASH of a header. -/
def hdrListHash (h : List Byte) : List Byte := (h.drop 0xC0).take 32

/-- FWU_LIST (R412, R415). -/
def Mod.fwuList (m : Mod) (path : Path) (list : List Byte) : Mod :=
  m.inSession path 3 (fun x =>
    if x.stage ≠ .header then m.fwuFail path 3 5
    else if list.length ≠ 32 * hdrBlocks x.header then m.fwuFail path 3 8
    else if m.fget Fld.SEC_POLICY_BLOCKWISE = 0 ∧ sha256 list ≠ hdrListHash x.header then m.fwuFail path 3 6
    else (m.setSession { x with stage := .blocks, list := list }).cmdDone path 3 0)

/-- FWU_LIST. -/
def execFwuList (path : Path) (data : List Byte) (s : State) : Host.Outcome State Fault Refusal :=
  .next (s.via path Reg.SEC_CMD.base (fun m => m.fwuList path (m.object path data)))

/-- Result of the checks of a block record on arrival (R412, R415, R416): 8 FORMAT, 5 ORDER, 6 HASH, 0 none. -/
def Mod.blockCheck (m : Mod) (x : FwuSession) (record : List Byte) : Nat :=
  let len := hdrNat record 4 4
  if record.length < 33 ∨ len = 0 ∨ 65536 < len ∨ record.length ≠ 32 + len then 8
  else if hdrNat record 0 4 ≠ x.blocks then 5
  else if m.fget Fld.SEC_POLICY_BLOCKWISE = 1 then
    if hdrNat record 8 4 ≠ crc32c (record.drop 16) then 6 else 0
  else if sha256 record ≠ (x.list.drop (32 * x.blocks)).take 32 then 6 else 0

/-- FWU_BLOCK (R412, R414 to R416): plaintext block i lies from byte 65,536 × i on. -/
def Mod.fwuBlock (m : Mod) (path : Path) (record : List Byte) : Mod :=
  m.inSession path 4 (fun x =>
    if x.stage ≠ .blocks ∨ x.blocks = hdrBlocks x.header then m.fwuFail path 4 5
    else
      let bad := m.blockCheck x record
      if bad ≠ 0 then m.fwuFail path 4 bad
      else match blockPlain x.header record x.blocks with
        | none => m.fwuFail path 4 6
        | some p =>
          let y := { x with blocks := x.blocks + 1, hashes := x.hashes ++ sha256 record, plain := padTo (65536 * x.blocks) x.plain ++ p }
          let z := if y.imageIn then
              { y with images := kvSet y.images y.comp (imageOf y.header y.plain), checks := y.checks ++ [(y.header, y.list, y.hashes)] }
            else y
          (m.setSession z).cmdDone path 4 0)

/-- FWU_BLOCK. -/
def execFwuBlock (path : Path) (data : List Byte) (s : State) : Host.Outcome State Fault Refusal :=
  .next (s.via path Reg.SEC_CMD.base (fun m => m.fwuBlock path (m.object path data)))

/-- The plaintext that an image results in (R413, R416): 7 BASE, 8 FORMAT, 6 HASH, or the plaintext. -/
def Mod.imageResult (m : Mod) (h raw : List Byte) : Except Nat (List Byte) :=
  let base := ((m.sec.image? m.bootedSlot (hdrNat h 6 1)).map (·.plain)).getD []
  let out := if hdrDelta h then
      if sha256 base ≠ (h.drop 0x40).take 32 then Except.error 7
      else match applyDelta base (raw.length + 1) raw [] with
        | some p => if hdrNat h 0x1C 4 < p.length then .error 8 else .ok p
        | none => .error 8
    else .ok raw
  match out with
  | .error e => .error e
  | .ok p =>
    if p.length ≠ hdrNat h 0x1C 4 then .error 8 else if sha256 p ≠ (h.drop 0x20).take 32 then .error 6 else .ok p

/-- Result of the checks FWU_END makes of one image (R416): 0 none fails; with what the image becomes. -/
def Mod.endCheck (m : Mod) (x : FwuSession) (c : List Byte × List Byte × List Byte) : Nat × Option FwImage :=
  let h := c.1
  let late := if m.fget Fld.SEC_POLICY_BLOCKWISE = 1 then
      if m.hdrCheck h ≠ 0 then m.hdrCheck h
      else if sha256 c.2.1 ≠ hdrListHash h ∨ c.2.1 ≠ c.2.2 then 6 else 0
    else 0
  if late ≠ 0 then (late, none)
  else match m.imageResult h (((kvGet? x.images (hdrNat h 6 1)).map (·.plain)).getD []) with
    | .error e => (e, none)
    | .ok p => (0, some (imageOf h p))

/-- Does every member's version lie within the range every other member gives for it (R417)? -/
def compatible (set : List FwImage) : Bool :=
  (List.range set.length).all (fun a => (List.range set.length).all (fun b =>
    a == b || (match set[a]?, set[b]? with
      | some x, some y => let r := y.compat.getD a (0, 0); decide (r.1 ≤ x.version) && decide (x.version ≤ r.2)
      | _, _ => false)))

/-- The five images of a session's result: the new ones and the installed ones (R417). -/
def Mod.resultSet (m : Mod) (new : Kv FwImage) : List FwImage :=
  (List.range 5).filterMap (fun c => match kvGet? new c with
    | some i => some i
    | none => if m.sec.recovery then none else m.sec.image? m.bootedSlot c)

/-- FWU_END fails: the session fails and ends (R416, R417). -/
def Mod.endFail (m : Mod) (path : Path) (result : Nat) : Mod := (m.sessionLost 5 result).cmdDone path 5 result

/-- The first result of FWU_END's checks that is not 0; 0 where every image passes. -/
def Mod.endBad (m : Mod) (x : FwuSession) : Nat := (((x.checks.map (fun c => m.endCheck x c)).find? (fun r => r.1 != 0)).map (·.1)).getD 0

/-- The images a session brings, by component. -/
def Mod.endNew (m : Mod) (x : FwuSession) : Kv FwImage :=
  x.checks.foldl (fun (k : Kv FwImage) c => match (m.endCheck x c).2 with
    | some i => kvSet k (hdrNat c.1 6 1) i
    | none => k) []

/-- FWU_END (R416 to R418): the images are written and the slot is TRIAL. -/
def Mod.fwuEnd (m : Mod) (path : Path) : Mod :=
  m.inSession path 5 (fun x =>
    if !x.imageIn then m.fwuFail path 5 5
    else if m.endBad x ≠ 0 then m.endFail path (m.endBad x)
    else
      let set := m.resultSet (m.endNew x)
      if set.length ≠ 5 then m.fwuFail path 5 5
      else if !compatible set then m.endFail path 4
      else
        let slot := m.targetSlot
        let images := (set.zip (List.range 5)).foldl (fun (k : Kv FwImage) e => kvSet k (slot * 8 + e.2) e.1) m.sec.images
        let m1 := Mod.setMark { m with sec := { m.sec with images := images } } slot .trial
        (m1.setSession { x with stage := .ended }).cmdDone path 5 0)

/-- FWU_END. -/
def execFwuEnd (path : Path) (s : State) : Host.Outcome State Fault Refusal :=
  .next (s.via path Reg.SEC_CMD.base (fun m => m.fwuEnd path))

/-- FWU_ACTIVATE (R419): a soft reset whose boot chain loads the TRIAL slot; refused while a plate is active. -/
def Mod.fwuActivate (m : Mod) (path : Path) (boot : Boot) : Mod :=
  m.inSession path 6 (fun x =>
    if x.stage ≠ .ended then m.fwuFail path 6 5
    else if m.plateActive then m.cmdDone path 6 9
    else (m.softReset 8 boot).cmdDone path 6 0)

/-- FWU_ACTIVATE. -/
def execFwuActivate (path : Path) (boot : Boot) (s : State) : Host.Outcome State Fault Refusal :=
  .next (s.via path Reg.SEC_CMD.base (fun m => m.fwuActivate path boot))

/-- FWU_ABORT (R414). -/
def Mod.fwuAbort (m : Mod) (path : Path) : Mod :=
  if m.sec.session.isNone then m.fwuFail path 7 5 else (m.sessionLost 7 0).cmdDone path 7 0

/-- FWU_ABORT. -/
def execFwuAbort (path : Path) (s : State) : Host.Outcome State Fault Refusal :=
  .next (s.via path Reg.SEC_CMD.base (fun m => m.fwuAbort path))

/-! ### Confirmation (R420, R421) -/

/-- The smallest SVN of a slot's images. -/
def SecUnit.slotSvn (u : SecUnit) (slot : Nat) : Nat :=
  ((List.range 5).map (fun c => ((u.image? slot c).map (·.svn)).getD 0)).foldl min 64

/-- FW_CONFIRM: within the window, self-tests passed and a proof OK: the slot is CONFIRMED and SVN fuses are blown. -/
def execFwConfirm (s : State) : Host.Outcome State Fault Refusal :=
  .next (s.on (fun m =>
    if m.mgUp && m.sec.window && m.sec.testsOk && m.sec.proofOk then
      let slot := m.bootedSlot
      let m1 := m.setMark slot .confirmed
      let m2 := { m1 with sec := { m1.sec with window := false, prefer := slot } }
      (m2.fset Fld.SEC_CONFIRM_SECONDS 0).fset Fld.SEC_SVN_FUSED (max m2.fusedSvn (m2.sec.slotSvn slot))
    else m))

/-- FW_CONFIRM_TIMEOUT: the window ends unconfirmed; the device keeps running. -/
def execFwConfirmTimeout (s : State) : Host.Outcome State Fault Refusal :=
  .next (s.on (fun m =>
    if m.mgUp && m.sec.window then
      let m1 := { m with sec := { m.sec with window := false } }
      ((m1.fset Fld.SEC_CONFIRM_SECONDS 0).fset Fld.SEC_ERR_CONFIRM_TIMEOUT 1).raise .device 0x0F03 0 m.bootedSlot
        ((!m.sec.testsOk).toNat + 2 * (!m.sec.proofOk).toNat)
    else m))

end Sys2Proof.Machine
end

