-- ==== Sys2Proof/Machine/Unlock.lean ====
section
/-! DEFINITION. Nonces, debug tokens and the security policy (16_security_and_update.md R406 to R410). The family "security": its
rows about the unlock and the policy. -/

namespace Sys2Proof.Machine

/-- NONCE (R410): a fresh draw; it replaces the one before. -/
def Mod.nonceDraw (m : Mod) (path : Path) : Mod :=
  let d := padTo 32 (Config.drbg m.sec.drawn)
  let m1 := (List.range 8).foldl (fun (x : Mod) i => x.fset Fld.SEC_NONCE_NONCE (leNat ((d.drop (4 * i)).take 4)) i) m
  (Mod.fset { m1 with sec := { m1.sec with drawn := m1.sec.drawn + 1 } } Fld.SEC_STATUS_NONCE_VALID 1).cmdDone path 8 0

/-- NONCE. -/
def execNonce (path : Path) (s : State) : Host.Outcome State Fault Refusal := .next (s.via path Reg.SEC_CMD.base (fun m => m.nonceDraw path))

/-- NONCE_EXPIRY: 600 s after it was drawn the nonce lapses (R410). -/
def execNonceExpiry (s : State) : Host.Outcome State Fault Refusal := .next (s.tap (fun m => m.fset Fld.SEC_STATUS_NONCE_VALID 0))

/-- Does an object carry the current nonce at offset 0x10 (R407, R408, R410)? -/
def Mod.nonceOk (m : Mod) (d : List Byte) : Bool :=
  m.fget Fld.SEC_STATUS_NONCE_VALID == 1
    && (d.drop 0x10).take 32 == (List.range 8).flatMap (fun i => leBytes 4 (m.fget Fld.SEC_NONCE_NONCE i))

/-- Does an object carry the device's UID at offset 8? -/
def uidOk (d : List Byte) : Bool := hdrNat d 8 8 == Config.uid.toNat

/-- SEC_TOKEN_BAD (R407, R408): 0 token or 1 policy record; 1 MAGIC, 2 UID, 3 nonce, 4 signature, 5 not allowed. -/
def Mod.tokenBad (m : Mod) (kind why : Nat) : Mod := (m.fset Fld.SEC_ERR_TOKEN_BAD 1).raise .corrected 0x0F0B 0 kind why

/-- Does the signer's key verify a body (R392, R407, R408)? -/
def Mod.signerOk (m : Mod) (signer : Nat) (body sig : List Byte) : Bool :=
  if signer = 0xFF then hssOk true Config.vendorKey body sig
  else match kvGet? m.sec.plateKeys signer with
    | some k => decide (signer < 4) && hssOk false k body sig
    | none => false

/-- A VENDOR unlock clears key slots, the ML-KEM private key and the DRBG state before it takes effect (R409). -/
def Mod.vendorClear (m : Mod) : Mod := { m with sec := { m.sec with keys := [], keysDue := [], cleared := true } }

/-- A VENDOR unlock that ends reseeds the DRBG and generates a new pair (R409). -/
def Mod.vendorOver (m : Mod) : Mod :=
  if m.sec.unlock = 2 then { m with sec := { m.sec with kem := m.sec.kem + 1, cleared := false } } else m

/-- The unlock ends (R409, R452). -/
def Mod.unlockEnd (m : Mod) : Mod :=
  if m.sec.unlock = 0 then m
  else
    let m1 := m.vendorOver
    Mod.unlockEffects { m1 with sec := { m1.sec with unlock := 0, unlockTimed := false } }

/-- Why a debug token is refused (R408); 0 where it is accepted. -/
def Mod.tokenCheck (m : Mod) (t : List Byte) : Nat :=
  let scope := hdrNat t 4 1
  let signer := hdrNat t 5 1
  if t.length < 64 ∨ hdrNat t 0 4 ≠ 0x44584C53 then 1
  else if !uidOk t then 2
  else if !m.nonceOk t then 3
  else if (scope ≠ 1 ∧ scope ≠ 2) ∨ (scope = 1 ∧ (m.fget Fld.SEC_POLICY_OWNER_DEBUG = 0 ∨ 3 < signer)) ∨ (scope = 2 ∧ signer ≠ 0xFF) then 5
  else if !m.signerOk signer (t.take 64) (t.drop 64) then 4 else 0

/-- A debug token is presented (R408, R409). -/
def Mod.dbgUnlock (m : Mod) (path : Path) (t : List Byte) : Mod :=
  let why := m.tokenCheck t
  if why ≠ 0 then (m.tokenBad 0 why).cmdDone path 9 10
  else
    let scope := hdrNat t 4 1
    let m1 := if scope = 2 then m.vendorClear else m.vendorOver
    let m2 := Mod.fset { m1 with sec := { m1.sec with unlock := scope, unlockTimed := decide (hdrNat t 0x30 4 ≠ 0) } } Fld.SEC_STATUS_NONCE_VALID 0
    (((m2.extend 6 5 (sha256 t)).raise .corrected 0x0F0A 0 scope (hdrNat t 0x30 4) (hdrNat t 5 1))).cmdDone path 9 0

/-- DBG_UNLOCK (R408). -/
def execDbgUnlock (path : Path) (token : List Byte) (s : State) : Host.Outcome State Fault Refusal :=
  .next (s.via path Reg.SEC_CMD.base (fun m => m.dbgUnlock path (m.object path token)))

/-- DBG_RELOCK (R409). -/
def execDbgRelock (path : Path) (s : State) : Host.Outcome State Fault Refusal :=
  .next (s.via path Reg.SEC_CMD.base (fun m => m.unlockEnd.cmdDone path 10 0))

/-- UNLOCK_EXPIRY: the token's DURATION, where it is not 0, has run out (R409). -/
def execUnlockExpiry (s : State) : Host.Outcome State Fault Refusal := .next (s.tap (fun m => if m.sec.unlockTimed then m.unlockEnd else m))

/-! ### Policy -/

/-- Why a policy record is refused beyond its length (R407); 0 where it is accepted. -/
def Mod.policyCheck (m : Mod) (d : List Byte) : Nat :=
  let signer := hdrNat d 4 1
  let word := hdrNat d 0x30 4
  if hdrNat d 0 4 ≠ 0x4F584C53 then 1
  else if !uidOk d then 2
  else if !m.nonceOk d then 3
  else if bitsOf word 13 8 = 0 ∨ 60 < bitsOf word 13 8 then 5
  else if m.fget Fld.SEC_POLICY_LOCKED = 1 ∧ !m.signerOk signer (d.take 304) (d.drop 304) then 4 else 0

/-- The plate-signing keys of a record: an all-zero entry is an empty slot (R407). -/
def policyKeys (d : List Byte) : Kv (List Byte) :=
  (List.range 4).filterMap (fun k =>
    let e := (d.drop (0x40 + 60 * k)).take 60
    if e.all (· == 0) then none else some (k, e))

/-- The policy word by its fields (SEC_POLICY). -/
def Mod.setPolicy (m : Mod) (w : Nat) : Mod :=
  { m with regs := m.regs.write Reg.SEC_POLICY 0 0 (Reg.SEC_POLICY.fields.foldl (fun a f => setBits a f.hi f.lo (bitsOf w f.hi f.lo)) 0) }

/-- SEC_PKEY_HASH: the SHA-256 of each enrolled key, zero when empty. -/
def Mod.showKeys (m : Mod) : Mod :=
  (List.range 4).foldl (fun (x : Mod) k =>
    let h := ((kvGet? m.sec.plateKeys k).map sha256).getD (leBytes 32 0)
    (List.range 8).foldl (fun (y : Mod) w => y.fset Fld.SEC_PKEY_HASH_HASH (leNat ((h.drop (4 * w)).take 4)) k w) x) m

/-- SET_POLICY (R407). -/
def Mod.policyRecord (m : Mod) (path : Path) (d : List Byte) : Mod :=
  if m.pathRefused path then (m.mgmtRefused path 11).cmdDone path 11 10
  else if m.plateActive then m.cmdDone path 11 9
  else if d.length < 304 then m.cmdDone path 11 8
  else
    let why := m.policyCheck d
    if why ≠ 0 then (m.tokenBad 1 why).cmdDone path 11 10
    else
      let body := d.take 304
      let m1 := (m.setPolicy (hdrNat d 0x30 4)).fset Fld.SEC_STATUS_NONCE_VALID 0
      let m2 := Mod.showKeys { m1 with sec := { m1.sec with plateKeys := policyKeys body, policyRec := body } }
      ((m2.extend 6 4 (sha256 body)).raise .corrected 0x0F09 0 (m2.regs.read Reg.SEC_POLICY 0 0) (hdrNat d 4 1)).cmdDone path 11 0

/-- SET_POLICY. -/
def execSetPolicy (path : Path) (record : List Byte) (s : State) : Host.Outcome State Fault Refusal :=
  .next (s.via path Reg.SEC_CMD.base (fun m => m.policyRecord path (m.object path record)))

end Sys2Proof.Machine
end

