-- ==== Sys2Proof/Machine/View.lean ====
section
/-! DEFINITION. What the registers of BAR0 read as: the stored word, with the read-only fields that show the units' state; the
lines the module drives by its state. -/

namespace Sys2Proof.Machine

/-- Bits that a truth value gives. -/
def bitAt (b : Bool) (lo : Nat) : Nat := if b then 2 ^ lo else 0

/-- A field placed at bit `lo`. -/
def atBit (v width lo : Nat) : Nat := v % 2 ^ width * 2 ^ lo

/-- A signed value as a field shows it, held to its range. -/
def signedField (v : Int) (width : Nat) : Nat :=
  let h : Int := 2 ^ (width - 1)
  (max (-h) (min (h - 1) v) % 2 ^ width).toNat

/-- Word `w` of a 32-byte value. -/
def wordAt (bs : List Byte) (w : Nat) : Nat := leNat ((bs.drop (4 * w)).take 4)

/-! ### TOP, PLT, TCK -/

/-- The views of blocks TOP, PLT and TCK: what they add to the stored word. -/
def Mod.viewA (m : Mod) (r : RegSpec) (i : Nat) : Option Nat :=
  let b := r.base
  let t := m.tick
  if b = Reg.TOP_ID.base then some (bitAt m.variant 0)
  else if b = Reg.TOP_MGMT.base then some (m.fget Fld.SEC_POLICY_SIDEBAND)
  else if b = Reg.PLT_SLOT_STATUS.base then some (m.plt.slot i).st.code
  else if b = Reg.PLT_CTRL.base then some (2 * m.fget Fld.SEC_POLICY_REQUIRE_SIGNED)
  else if b = Reg.PLT_STATUS.base then
    let p := m.plt.pending
    some (bitAt (p.any (fun q => !q.activate)) 5 + bitAt (m.plateActive && m.stepBusy) 4 + bitAt (p.any (fun q => q.activate && q.slot == 1)) 3
      + bitAt p.isSome 2 + bitAt (m.plt.active == some 1) 1 + bitAt m.plateActive 0)
  else if b = Reg.PLT_STABLE_FRAME.base then
    some (match kvGet? m.sched.stables i with
      | some x => atBit (x.frame - bitAt x.lag 0) 24 0 + (match x.st with | .run => 1 | .slip => 2 | .fin => 3 | .fenced => 4) * 2 ^ 24
      | none => 0)
  else if b = Reg.TCK_COUNT_LO.base then some (lo32 t.count)
  else if b = Reg.TCK_COUNT_HI.base then some (hi32 t.count)
  else if b = Reg.TCK_CYCLE.base then some (t.cycle % 2 ^ 16)
  else if b = Reg.TCK_STATUS.base then
    some (signedField (t.offset / 1000) 8 * 2 ^ 24 + atBit t.port 6 4 + atBit t.source 2 2 + bitAt t.holdover 1 + bitAt m.aligned 0)
  else if b = Reg.TCK_TRIM.base then some (min t.shorter.length 0xFFFF * 2 ^ 16 + min t.longer.length 0xFFFF)
  else none

/-! ### GRM, STM -/

/-- The state and binding of a groom unit (GRM_STATUS): a pass, a reconcile copy that is due, else IDLE. -/
def Mod.groomStatus (m : Mod) (g : Nat) : Nat :=
  match (kvGetD m.groom.units g .rest).pass with
  | some p => atBit p.binding 12 16 + (if p.applies.isSome && p.taken == (m.slicesOf p.binding).length then 2 else 1)
  | none =>
    match m.groom.reconcile.find? (fun b => (m.binding? b).any (fun x => x.unit == g)) with
    | some b => atBit b 12 16 + 3
    | none => 0

/-- The phase that GRM_PHASE shows: a verdict that has been acted on in a guard shows from its boundary on, until which the phase is
that of a module which has sent its record, or has not (Table 08-1). -/
def Mod.shownPhase (m : Mod) : Nat :=
  if m.step.phase = .actions ∧ m.tick.count ≤ m.step.actTick then
    (if m.step.own.isSome then 2 else if m.step.attempt = 1 then 3 else 1)
  else m.step.phase.code

/-- The state of a stream context (STM_CTX_STATUS): IDLE without a descriptor, DONE once every tile is delivered, EARLY with a
tile of the next step in flight, RUN with a tile in flight, else GATED. -/
def Mod.ctxStatus (m : Mod) (stream : Nat) : Nat :=
  match m.stream? stream with
  | none => 0
  | some d =>
    let c := m.ctx stream
    let st := if c.flight.any (fun t => t.early.isSome) then 4 else if !c.flight.isEmpty then 2
      else if !c.ahead && decide (d.tiles ≤ c.done) then 3 else 1
    st * 2 ^ 29 + atBit c.next 24 0

/-- The views of blocks GRM and STM. -/
def Mod.viewB (m : Mod) (r : RegSpec) (i j : Nat) : Option Nat :=
  let b := r.base
  if b = Reg.GRM_STATUS.base then some (m.groomStatus i)
  else if b = Reg.GRM_STEP_STATUS.base then some (bitAt m.step.armed.isSome 0)
  else if b = Reg.GRM_PHASE.base then some (bitAt (m.step.attempt == 1) 8 + m.shownPhase)
  else if b = Reg.GRM_LEDGER.base then
    some (bitAt m.step.draining 8 + min ((m.step.ledger.map (·.1)).eraseDups.length) 7)
  else if b = Reg.STM_ENG_STATUS.base then
    some (((List.range 16).map (fun c => bitAt (!(m.ctx (16 * i + c)).flight.isEmpty) c)).sum)
  else if b = Reg.STM_TBL.base then
    let e := m.engine i
    some (bitAt e.load.isSome 19 + atBit e.cur 1 18 + bitAt e.tab1.isSome 17 + bitAt e.tab0.isSome 16
      + atBit ((e.tab1.map (·.gen)).getD 0) 8 8 + atBit ((e.tab0.map (·.gen)).getD 0) 8 0)
  else if b = Reg.STM_TBL_REF.base then
    let e := m.engine i
    some (min (e.refs 1) 0xFFFF * 2 ^ 16 + min (e.refs 0) 0xFFFF)
  else if b = Reg.STM_CTX_STATUS.base then some (m.ctxStatus (16 * i + j))
  else none

/-! ### HBM, LFT, FAB -/

/-- The neighbour last reported on a port. -/
def Mod.nbrWord (m : Mod) (p : Nat) (f : CtlRec → Nat) : Nat := ((m.port p).nbr.map f).getD 0

/-- Bits of the ports of `ps` that are ACTIVE. -/
def Mod.activeBits (m : Mod) (ps : List Nat) : Nat :=
  (ps.map (fun p => bitAt ((m.port p).st == .active) (p % 32))).sum

/-- FAB_ROUTE_INFO (12_fabric_ports.md R331): the choice an originated flit would take now. -/
def Mod.routeInfo (m : Mod) : Nat :=
  let dest := m.fget Fld.FAB_ROUTE_SEL_DEST
  bitAt (dest == m.self) 14 + (match m.choose none dest with
    | some c => atBit c.2.1 6 8 + atBit c.1 3 0
    | none => 7)

/-- The views of blocks HBM, LFT and FAB. -/
def Mod.viewC (m : Mod) (r : RegSpec) (i j : Nat) : Option Nat :=
  let b := r.base
  if b = Reg.HBM_POISON.base then some (min (m.mem.hbm.poison.filter (fun k => k * 64 / stackSize == i)).length 0xFFFFFFFF)
  else if b = Reg.HBM_BANK_INFO.base then
    some (match m.regions.find? (fun x => x.id == m.fget Fld.HBM_BANK_SEL_REGION) with
      | some x => atBit (kvGetD m.plt.gen x.id 0) 16 16 + bitAt (decide (loftBase ≤ x.base)) 3 + bitAt (m.sel x) 2 + bitAt x.banked 1 + 1
      | none => 0)
  else if b = Reg.HBM_PAD_FREE.base then some (lo32 m.pad.free.length)
  else if b = Reg.LFT_POOL_FREE.base then some (lo32 m.pool.free.length)
  else if b = Reg.LFT_SPILL_FREE.base then some (lo32 m.pool.spillFree.length)
  else if b = Reg.LFT_POOL_OWNER.base then some (lo32 (m.pool.resident i))
  else if b = Reg.FAB_STATUS.base then
    let x := m.port i
    some (bitAt x.loopback 9 + bitAt (x.nbr.any (fun n => n.state == 4)) 8 + (if x.lanes = 8 then 2 else if x.lanes = 4 then 1 else 0) * 16 + x.st.code)
  else if b = Reg.FAB_NBR.base then some (m.nbrWord i (fun n => atBit n.port 6 16 + atBit n.module 16 0))
  else if b = Reg.FAB_NBR_EPOCH.base then some (m.nbrWord i (fun n => lo32 n.epoch))
  else if b = Reg.FAB_NBR_HASH.base then some (m.nbrWord i (fun n => wordAt n.hash j))
  else if b = Reg.FAB_SKEW.base then
    some (match (m.port i).skew with
      | some k => min k.1 0xFFFF * 2 ^ 16 + signedField k.2 16
      | none => 0)
  else if b = Reg.FAB_ACTIVE_LO.base then some (m.activeBits (List.range 32))
  else if b = Reg.FAB_ACTIVE_HI.base then some (m.activeBits ((List.range 32).map (· + 32)))
  else if b = Reg.FAB_ROUTE_INFO.base then some m.routeInfo
  else none

/-! ### COL, CHK, PWR -/

/-- Does a reducer serve an operation? -/
def Mod.reducerBusy (m : Mod) (r : Nat) : Bool :=
  m.coll.ops.any (fun e => m.reducerOf e.1 == r && (e.2.st == .sending || e.2.st == .waitResult))

/-- The hottest sensor and its temperature. -/
def Mod.hottest (m : Mod) : Nat × Nat :=
  m.pwr.temps.foldl (fun (a : Nat × Nat) (e : Nat × Int) => if a.2 < e.2.toNat then (e.1, e.2.toNat) else a) (0, 0)

/-- PWR_STATUS. -/
def Mod.powerStatus (m : Mod) : Nat :=
  let ramping := match m.pwr.dip with | .hold => true | .ramp _ => true | _ => false
  bitAt m.pwr.ready 15 + bitAt ramping 14 + bitAt (!m.pwr.critical.isEmpty) 13 + bitAt m.anyThrottle 12
    + bitAt (m.pwr.dip == .asserted) 11 + bitAt (decide (m.duties.1 < 8) || decide (m.duties.2 < 8)) 10
    + atBit (m.fget Fld.PWR_PROFILE_REQ) 2 8 + m.pwr.state.code

/-- The views of blocks COL, CHK and PWR; those whose stored word gives way to the view are marked. -/
def Mod.viewD (m : Mod) (r : RegSpec) (i : Nat) : Option (Nat × Bool) :=
  let b := r.base
  if b = Reg.COL_RSTATUS.base then some (bitAt (m.reducerBusy i) 16, false)
  else if b = Reg.COL_RBUF.base then
    some (min (kvGetD m.coll.high i 0 / 1024) 0xFFFF * 2 ^ 16 + min (m.reducerBytes i / 1024) 0xFFFF, false)
  else if b = Reg.COL_STEP_OPS.base then
    some (min (m.coll.ops.filter (fun e => e.2.st == .done)).length 0xFFFF * 2 ^ 16 + min m.collOps.length 0xFFFF, false)
  else if b = Reg.COL_OP_INFO.base then
    some (match kvGet? m.coll.ops (m.fget Fld.COL_OP_SEL_OP) with
      | some o => o.st.code * 2 ^ 29 + atBit o.mb 8 16 + atBit o.delivered.length 13 0
      | none => 0, false)
  else if b = Reg.CHK_STATUS.base then
    let owned := (m.plate?.map (·.checks)).any (fun cs => cs.any (fun c => c.unit == i))
    some (bitAt owned 7 + ((kvGet? m.chk.runs i).map (fun x => x.st.code)).getD 0, false)
  else if b = Reg.CHK_ALIVE.base then
    let last := ((kvGet? m.chk.runs i).bind ChkRun.lastAlive).getD (m.fget Fld.CHK_ALIVE_LAST i)
    some (last * 2 ^ 16 + m.fget Fld.CHK_ALIVE_FIRST i, true)
  else if b = Reg.PWR_STATUS.base then some (m.powerStatus, true)
  else if b = Reg.PWR_TEMP.base then
    let h := m.hottest
    some (atBit h.1 6 16 + min h.2 255 * 256 + min (m.tempOf (m.fget Fld.PWR_TEMP_SEL_SENSOR)) 255, false)
  else none

/-! ### SEC, DBG, CORE -/

/-- SEC_STATUS but for SLOT and NONCE_VALID. -/
def Mod.secStatus (m : Mod) : Nat :=
  let other := 1 - m.bootedSlot
  bitAt (decide (attIndices - m.fget Fld.SEC_ATT_NEXT_NEXT < 16384)) 6 + bitAt (m.sec.unlock == 2) 5 + bitAt (m.sec.unlock == 1) 4
    + bitAt m.sec.recovery 3 + bitAt m.sec.window 2 + bitAt (!m.variant && m.sec.mark other == .confirmed) 0

/-- SEC_FWU_STATUS. -/
def Mod.fwuStatus (m : Mod) : Nat :=
  match m.sec.session with
  | none => 0
  | some x =>
    let st := match x.stage with | .opened => 1 | .header => 2 | .blocks => 3 | .ended => 4
    st * 2 ^ 28 + atBit x.comp 4 24 + pathCode x.path * 2 ^ 20 + min x.blocks 0xFFFF

/-- Descriptor index a core runs next (DBG_CORE_INFO). -/
def Mod.nextKernel (m : Mod) (c : Nat) : Nat :=
  match m.busyStable c with
  | some (_, f) => f.kfirst + (m.core c).kpos + (m.core c).run.isSome.toNat
  | none => 0

/-- DBG_CORE_INFO of the core that DBG_CORE_SEL names. -/
def Mod.coreInfo (m : Mod) : Nat :=
  let c := m.fget Fld.DBG_CORE_SEL_CORE
  let h := (m.core c).halt
  bitAt h.isSome 31 + ((h.map (·.code)).getD 0) * 2 ^ 28 + atBit ((h.map (·.bp)).getD 0) 4 24 + atBit (m.nextKernel c) 24 0

/-- DBG_STATUS but for TRACE_TRIG. -/
def Mod.dbgStatus (m : Mod) : Nat :=
  min (m.cores.filter (fun e => e.2.halt.isSome)).length 0xFFF * 2 ^ 16 + atBit m.dbg.traceSt 2 6 + bitAt m.dbg.memread 5 + bitAt m.dbg.ready 4
    + bitAt m.dbg.frzPin 3 + bitAt m.dbg.devHalt 2 + atBit m.sec.unlock 2 0

/-- CORE_STATUS: FENCED, BIST, RUN, GATED outside ACTIVE, else IDLE. -/
def Mod.coreStatus (m : Mod) (c : Nat) : Nat :=
  let x := m.core c
  let op := match x.run with
    | some k => ((m.kernel? k).map (fun d => d.op.code)).getD 0
    | none => 0
  let st := if x.bist then 4 else if m.coreFencedBit c then 3 else if x.run.isSome then 1 else if m.pwr.state = .active ∧ !m.dbg.stopped then 0 else 2
  match m.stableOf c with
  | some s => atBit op 4 24 + atBit s.id 8 16 + atBit (s.rank c) 12 4 + 8 + st
  | none => atBit op 4 24 + st

/-- CORE_ID (01_architecture.md Table 01-2). -/
def coreId (c : Nat) : Nat := c / 128 * 2 ^ 19 + c % 16 * 2 ^ 15 + c % 128 / 16 * 2 ^ 12 + c

/-- The views of blocks SEC, DBG and CORE; those whose stored word gives way to the view are marked. -/
def Mod.viewE (m : Mod) (r : RegSpec) (i : Nat) : Option (Nat × Bool) :=
  let b := r.base
  if b = Reg.SEC_STATUS.base then some (m.secStatus, false)
  else if b = Reg.SEC_UID_LO.base then some (lo32 Config.uid.toNat, true)
  else if b = Reg.SEC_UID_HI.base then some (hi32 Config.uid.toNat, true)
  else if b = Reg.SEC_KEYSLOTS.base then some ((m.sec.keys.map (fun e => bitAt (decide (e.1 < 16)) e.1)).sum, false)
  else if b = Reg.SEC_FWU_STATUS.base then some (m.fwuStatus, false)
  else if b = Reg.DBG_STATUS.base then some (m.dbgStatus, false)
  else if b = Reg.DBG_CORE_INFO.base then some (m.coreInfo, false)
  else if b = Reg.DBG_FRZ_CTRL.base then some (bitAt m.dbg.memread 2, true)
  else if b = Reg.CORE_ID.base then some (coreId i, true)
  else if b = Reg.CORE_STATUS.base then some (m.coreStatus i, true)
  else none

/-! ### Every register -/

/-- The word of the event unit's registers that shows its queue or its log (R375, R490). -/
def State.viewEvt (s : State) (r : RegSpec) (i : Nat) : Option Nat :=
  if r.base = Reg.EVT_QUEUED.base then some s.evq.queue.length
  else if r.base = Reg.EVT_LOG_DATA.base then some (wordAt (s.evq.shown (s.m.fget Fld.EVT_LOG_SEL_INDEX)) i)
  else none

/-- What instance (i, j) of a register reads as: views take the place of the read-only fields that show a unit's state. -/
def State.regWord (s : State) (r : RegSpec) (i j : Nat) : Nat :=
  let m := s.m
  let w := m.regs.read r i j
  match m.viewA r i with
  | some v => w ||| v
  | none => match m.viewB r i j with
    | some v => w ||| v
    | none => match m.viewC r i j with
      | some v => if r.base = Reg.FAB_STATUS.base then atBit (m.fget Fld.FAB_STATUS_CAUSE i) 8 16 + v
        else if r.base = Reg.FAB_ROUTE_INFO.base then v else w ||| v
      | none => match m.viewD r i with
        | some (v, whole) => if whole then v else w ||| v
        | none => match m.viewE r i with
          | some (v, whole) => if whole then v else w ||| v
          | none => match s.viewEvt r i with
            | some v => v
            | none => w

/-! ### Lines driven by the state -/

/-- PWR_GOOD (R424). -/
def Mod.pwrGood (m : Mod) : Bool := m.pwr.powered && m.pwr.rails

/-- ALERT_N is asserted (17_power_reset.md R439): the warning detector, a level exceeded, or a DEVICE record unread in the log; before
PWR_GOOD it is high (19_package_and_pins.md R476). -/
def State.alert (s : State) : Bool :=
  s.m.pwrGood && (s.m.pwr.dip == .asserted || s.m.anyThrottle || !s.m.pwr.critical.isEmpty
    || s.evq.log.any (fun e => decide (s.m.fget Fld.EVT_LOG_ACK_INDEX ≤ e.1) && e.2.cls == .device))

/-- THERMTRIP_N is low (R438; 19_package_and_pins.md R475). -/
def Mod.tripped (m : Mod) : Bool := m.pwr.trip

/-- WAKE# is asserted, low (R448; 19_package_and_pins.md Table 19-4). -/
def Mod.wakeAsserted (m : Mod) : Bool := m.mgUp && m.pwr.state == .sleep && m.pwr.bmcWake

/-- CXL_PERST_N of port `c` is high (19_package_and_pins.md R476, R478): the module runs, PARK and SLEEP included, and the part has
the port. -/
def Mod.cxlPerstHigh (m : Mod) (c : Nat) : Bool :=
  m.pwrGood && m.pwr.started && !m.pwr.perst && m.pwr.state != .off && !(m.variant && decide (2 ≤ c))

/-- The fields of the PCIe configuration header (14_host_interface.md Table 14-2). -/
structure ConfigHeader where
  vendor : Nat
  device : Nat
  revision : Nat
  classCode : Nat
  subVendor : Nat
  subId : Nat
  serial : Nat
deriving DecidableEq, Repr

/-- PCI capabilities that the lists of R368 name. -/
inductive PciCap where
  | powerManagement | pciExpress | msix | aer | deviceSerial | resizableBar | dataLinkFeature | phy16 | phy32 | phy64 | laneMargining
  | flitLogging | doe
deriving DecidableEq, Repr

/-- The conventional capability list, in order (R368). -/
def convCaps : List PciCap := [.powerManagement, .pciExpress, .msix]

/-- The extended capability list, in order (R368). -/
def extCaps : List PciCap :=
  [.aer, .deviceSerial, .resizableBar, .dataLinkFeature, .phy16, .phy32, .phy64, .laneMargining, .flitLogging, .doe]

/-- The configuration header of this part (R368). -/
def Mod.configHeader (m : Mod) : ConfigHeader :=
  ⟨0x1F9B, 0x4010, Config.revision.toNat, 0x120000, 0x1F9B, if m.variant then 1 else 0, Config.uid.toNat⟩

end Sys2Proof.Machine
end

