-- ==== Sys2Proof/Machine/Readout.lean ====
section
/-! DEFINITION. The readout image of a die of a frozen device (18_debug.md R463). -/

namespace Sys2Proof.Machine

/-- The die that holds instance `i` of a register, numbered as the sensors of 17_power_reset.md R435 are (DESIGN CHOICE where the
manual does not place a register): tile dies 0 to 23, memory dies 24 to 27, link dies 28 to 35, loft dies 36 and 37, HD 38, MG 39. -/
def RegSpec.die (r : RegSpec) (i : Nat) : Nat :=
  match r.base / 0x100000 with
  | 0x0 | 0x1 | 0x2 | 0xF | 0x10 | 0x11 | 0x12 => 39
  | 0x4 => if r.base < 0x4C0000 then 24 + i / 3 else 38
  | 0x6 => if r.base < 0x610000 then 24 + i / 16 else 38
  | 0x8 => if r.base < 0x810000 then 24 + i / 3 else 38
  | 0xA => if r.base < 0xA10000 then 36 + i / 2 else 38
  | 0xC => if r.base < 0xC40000 then 28 + i / 8 else 38
  | 0xD => if r.base < 0xD10000 then 28 + i else 38
  | 0x3 | 0xE => 38
  | _ => i / 128

/-- Insert a register instance by its offset, ascending. -/
def insertReg (x : Nat × RegSpec × Nat × Nat) : List (Nat × RegSpec × Nat × Nat) → List (Nat × RegSpec × Nat × Nat)
  | [] => [x]
  | y :: ys => if x.1 < y.1 then x :: y :: ys else y :: insertReg x ys

/-- The instances of a register on a die. -/
def RegSpec.onDie (r : RegSpec) (d : Nat) : List (Nat × RegSpec × Nat × Nat) :=
  ((List.range r.n1).filter (fun i => r.die i == d)).flatMap (fun i => (List.range r.n2).map (fun j => (r.addr i j, r, i, j)))

/-- The registers of a die, in ascending offset. -/
def dieRegs (d : Nat) : List (Nat × RegSpec × Nat × Nat) := (Reg.table.flatMap (fun r => r.onDie d)).foldr insertReg []

/-- The register words of a die. -/
def State.dieWords (s : State) (d : Nat) : List Byte := (dieRegs d).flatMap (fun e => leBytes 4 (s.regWord e.2.1 e.2.2.1 e.2.2.2))

/-- The tick of the freeze. -/
def Mod.frzTick (m : Mod) : Nat := m.get64 Fld.DBG_FRZ_TICK_LO_TICK Fld.DBG_FRZ_TICK_HI_TICK

/-- The twelve CORE registers, in the order of their offsets. -/
def coreRegs : List RegSpec :=
  [Reg.CORE_ID, Reg.CORE_STATUS, Reg.CORE_CTRL, Reg.CORE_KERNEL, Reg.CORE_MFLAGS, Reg.CORE_VFLAGS, Reg.CORE_MSAT, Reg.CORE_VSAT, Reg.CORE_ECC,
    Reg.CORE_FENCE, Reg.CORE_WDOG, Reg.CORE_UTIL]

/-- A core in a tile die's section: its registers, its accumulator files, its SRAM. -/
def State.coreImage (s : State) (c : Nat) : List Byte :=
  coreRegs.flatMap (fun r => leBytes 4 (s.regWord r c 0)) ++ s.m.mem.acc.read (c * accSize) accSize
    ++ rdBytes (s.m.sramRead c 0 sramSize)

/-- The architectural section of a die. The trace buffer, which HD's image shows (R466), follows HD's registers (DESIGN CHOICE). -/
def State.archSection (s : State) (d : Nat) : List Byte :=
  if d < 24 then (List.range 128).flatMap (fun k => s.coreImage (128 * d + k))
  else if d = 38 then s.dieWords d ++ (List.range traceSize).flatMap s.m.traceBytes
  else s.dieWords d

/-- The first 32 bytes of an image's header (R463). -/
def imageHead (d tick cycle arch impl : Nat) : List Byte :=
  leBytes 4 0x52584C53 ++ leBytes 1 d ++ leBytes 3 0 ++ leBytes 6 tick ++ leBytes 2 cycle ++ leBytes 8 arch ++ leBytes 8 impl

/-- The readout image of a die (R463); its CRC-64 covers every byte but the CRC's own (DEDUCED from "the rest of the image"). -/
def State.image (s : State) (d : Nat) : List Byte :=
  let arch := s.archSection d
  let impl := Config.readoutImpl d s.m.frzTick
  let head := imageHead d s.m.frzTick (s.m.fget Fld.DBG_FRZ_CYCLE_CYCLE) arch.length impl.length
  let tail := leBytes 24 0 ++ arch ++ impl
  head ++ leBytes 8 (crc64 (head ++ tail)) ++ tail

/-- May the readout of the die that DBG_RO_SEL names be read (R451, R463, R464)? Die MG needs a VENDOR unlock. -/
def Mod.readoutOpen (m : Mod) : Bool :=
  let d := m.fget Fld.DBG_RO_SEL_DIE
  m.dbg.stopped && m.dbg.ready && !m.dbg.memread && m.sec.unlock != 0 && decide (d < 40) && (d != 39 || m.sec.unlock == 2)

/-- Bytes of the selected image (DBG_RO_LEN); 0 while no readout is open (DESIGN CHOICE). -/
def State.readoutLen (s : State) : Nat := if s.m.readoutOpen then (s.image (s.m.fget Fld.DBG_RO_SEL_DIE)).length else 0

/-- Bytes of the image from offset `off`: 0xFF beyond it and where the readout is not open (DESIGN CHOICE). -/
def State.readout (s : State) (off n : Nat) : List Byte :=
  if s.m.readoutOpen then
    let part := ((s.image (s.m.fget Fld.DBG_RO_SEL_DIE)).drop off).take n
    part ++ List.replicate (n - part.length) 0xFF
  else List.replicate n 0xFF

end Sys2Proof.Machine
end

