-- ==== Sys2Proof/Machine/Bar0.lean ====
section
/-! DEFINITION. BAR0 accesses and BAR2 reads (00_scope.md R9 to R15; 14_host_interface.md R367 to R371; 18_debug.md R451, R454, R463).
The family "registers" and the row BAR2_READ. -/

namespace Sys2Proof.Machine

/-! ### Writes -/

/-- Apply a change where a bit of a written word is 1. -/
def Mod.whenBit (m : Mod) (v b : Nat) (f : Mod → Mod) : Mod := if v.testBit b then f m else m

/-- Set the RW fields of a register from a written word. -/
def Mod.rwFields (m : Mod) (r : RegSpec) (i v : Nat) : Mod := m.wordWrite r i 0 v

/-- A field of a threshold is taken where it is in its range (R436: lower only, down to 70 °C). -/
def Mod.thermField (m : Mod) (f : Fld) (top x : Nat) : Mod := if 70 ≤ x ∧ x ≤ top then m.fset f x else m

/-- What a write does in blocks PLT, TCK, GRM and STM where the row of a field says more than its access code. -/
def Mod.routeA (m : Mod) (b i off v : Nat) : Option Mod :=
  if b = Reg.PLT_SLOT_CMD.base then some (m.slotCmd i (v % 4))
  else if b = Reg.PLT_ACTIVATE.base then some (m.actCmd (bitsOf v 2 1) (v % 2))
  else if b = Reg.TCK_PERIOD.base then some (m.periodWrite v)
  else if b = Reg.TCK_SOURCE.base then some (m.sourceWrite v)
  else if b = Reg.TOP_BAR2_BASE_LO.base then some (m.bar2BaseWrite false v)
  else if b = Reg.TOP_BAR2_BASE_HI.base then some (m.bar2BaseWrite true v)
  else if b = Reg.GRM_CTRL.base then some (m.whenBit v 0 (fun x => x.fset Fld.GRM_SAT_COUNT 0 i))
  else if b = Reg.GRM_STEPSZ_NEXT.base then some (m.stepszWrite v)
  else if b = Reg.GRM_STEP_NEXT.base then some (m.stepArm v)
  else if b = Reg.GRM_KDATA.base then some (m.kdataWrite i v)
  else if b = Reg.GRM_KSET.base then some (m.ksetWrite v)
  else if b = Reg.STM_CTRL.base then some (m.whenBit v 0 (fun x => x.fset Fld.STM_XSAT_COUNT 0 i))
  else if b = Reg.STM_TBL_CMD.base then some (m.whenBit v 0 (fun x => x.tableCmd ⟨[], [], [], []⟩))
  else if isRingAddr off then some (m.ringAddr off v)
  else none

/-- What a write does in blocks NUM, HBM, LFT, FAB, COL, CHK and EVT where the row of a field says more than its access code.
NUM_RATIO_THRESH discards a value that is not finite and positive; +0, which disables the comparison, is taken (DEDUCED, log 95). -/
def Mod.routeB (m : Mod) (b i v : Nat) : Option Mod :=
  if b = Reg.NUM_RATIO_THRESH.base && decide (0x7F800000 ≤ v) then some m
  else if b = Reg.HBM_PAD_CTRL.base then some (m.whenBit v 0 (fun x => x.fset Fld.HBM_PAD_LOW_PAGES x.pad.free.length))
  else if b = Reg.LFT_CFG.base then some (m.loftCfg v)
  else if b = Reg.FAB_CTRL.base then
    some (((m.whenBit v 0 (fun x => x.portReset i)).whenBit v 1 (fun x => x.testStart i)).whenBit v 2 (fun x => x.testStop i))
  else if b = Reg.COL_RCTRL.base then some (m.whenBit v 0 (fun x => x.fset Fld.COL_RSAT_COUNT 0 i))
  else if b = Reg.CHK_CTRL.base then
    some ((m.whenBit v 1 (fun x => x.chkAbort i)).whenBit v 0 (fun x => x.chkHostStart i ⟨[], [], [], []⟩))
  else if b = Reg.EVT_RING_CTRL.base then some (m.ringCtrl v)
  else if b = Reg.EVT_RING_CONS.base then some (m.ringCons v)
  else if b = Reg.EVT_LOG_ACK.base then some (m.logAck v)
  else none

/-- A SEC_CMD code on BAR0, with the data window as its object (Table 16-7); code 6 is the row FWU_ACTIVATE's, whose boot chain a
register write cannot carry. -/
def Mod.secCmd (m : Mod) (code : Nat) : Mod :=
  let d := m.object .bar0 []
  match code with
  | 1 => m.fwuBegin .bar0
  | 2 => m.fwuHeader .bar0 d
  | 3 => m.fwuList .bar0 d
  | 4 => m.fwuBlock .bar0 d
  | 5 => m.fwuEnd .bar0
  | 7 => m.fwuAbort .bar0
  | 8 => m.nonceDraw .bar0
  | 9 => m.dbgUnlock .bar0 d
  | 10 => m.unlockEnd.cmdDone .bar0 10 0
  | 11 => m.policyRecord .bar0 d
  | _ => m

/-- What a write does in blocks PWR, SEC and CORE where the row of a field says more than its access code. PWR_CTRL.SOFT_RESET is the
row SOFT_RESET's, and LFT_CTRL.RETRAIN the row LOFT_RETRAIN's. -/
def Mod.routeC (m : Mod) (b i v : Nat) : Option Mod :=
  if b = Reg.PWR_PROFILE.base then some (m.profileRequest .bar0 v)
  else if b = Reg.PWR_CAP.base then some (m.capWrite .bar0 v)
  else if b = Reg.PWR_DEFAULT.base then some (m.defaultWrite .bar0 v)
  else if b = Reg.PWR_STATE_REQ.base then
    some (if v % 4 = 1 then m.activeRequest else if v % 4 = 2 then m.parkRequest else m)
  else if b = Reg.PWR_THERM_THRESH.base then
    some ((m.thermField Fld.PWR_THERM_THRESH_HBM_C 90 (bitsOf v 15 8)).thermField Fld.PWR_THERM_THRESH_LOGIC_C 95 (bitsOf v 7 0))
  else if b = Reg.SEC_CMD.base then some (m.secCmd (v % 256))
  else if b = Reg.CORE_CTRL.base then
    some (((m.whenBit v 0 (fun x => x.stableReset i 0)).whenBit v 1 (fun x => x.bistStart i)).whenBit v 2
      (fun x => (x.fset Fld.CORE_MSAT_COUNT 0 i).fset Fld.CORE_VSAT_COUNT 0 i))
  else none

/-- What an unlocked write does in block DBG where the row of a field says more than its access code. -/
def Mod.routeD (m : Mod) (b i off v : Nat) (hw : Nat := 0) : Mod :=
  if b = Reg.DBG_HALT_CTRL.base then
    match bitsOf v 31 30 with
    | 1 => m.dbgHalt (bitsOf v 29 28) (bitsOf v 11 0)
    | 2 => m.dbgResume (bitsOf v 29 28) (bitsOf v 11 0)
    | 3 => m.dbgStep (bitsOf v 29 28) (bitsOf v 11 0)
    | _ => m
  else if b = Reg.DBG_MEM_CTRL.base then
    let m1 := m.rwFields Reg.DBG_MEM_CTRL i v
    match bitsOf v 31 30 with
    | 1 => m1.memReadCmd ⟨[], [], [], []⟩
    | 2 => m1.memWriteCmd ⟨[], [], [], []⟩
    | _ => m1
  else if b = Reg.DBG_FRZ_CTRL.base then (m.whenBit v 1 (fun x => x.freezeAsk true)).whenBit v 2 Mod.memRead
  else if b = Reg.DBG_TRACE_CTRL.base then
    ((m.rwFields Reg.DBG_TRACE_CTRL i v).whenBit v 1 Mod.traceStop).whenBit v 0 Mod.traceStart
  else m.regWrite off v hw

/-- May a register be written and read without an unlock (R451)? -/
def dbgOpen (off : Nat) : Bool := off / 0x100000 != 0x12 || off == Reg.DBG_STATUS.base || off == Reg.DBG_ERR.base

/-- A 32-bit write of `v` at an offset of BAR0 (R3, R9 to R15, R451). -/
def Mod.regRoute (m : Mod) (off v : Nat) (hw : Nat := 0) : Mod :=
  if m.disabledReg off then m
  else match Reg.at? off with
    | none => m
    | some (r, i, _) =>
      if !dbgOpen off then m.dbgGate (fun x => x.routeD r.base i off v hw)
      else match m.routeA r.base i off v with
        | some x => x
        | none => match m.routeB r.base i v with
          | some x => x
          | none => match m.routeC r.base i v with
            | some x => x
            | none => m.regWrite off v hw

/-- REGISTER_WRITE: an access with its size, and with what the register's unit set or counted in the same cycle (R9, R10,
R11, R369). -/
def execRegisterWrite (off : Nat) (word : BusWrite) (s : State) : Host.Outcome State Fault Refusal :=
  .next (s.reg off (fun m => if bar0Aligned off && word.bytes == 4 then m.regRoute off (lo32 word.data) word.hw else m))

/-- Is the register at an offset the _LO or the _HI half of a pair? -/
def halfAt (k : RegKind) (off : Nat) : Bool := (Reg.at? off).any (fun e => e.1.kind == k)

/-- WRITE_HI_COMMIT (R14). -/
def execWriteHiCommit (off val : Nat) (s : State) : Host.Outcome State Fault Refusal :=
  .next (s.reg off (fun m => if bar0Aligned off && halfAt .hi off then m.regRoute off (lo32 val) else m))

/-! ### Reads -/

/-- What register offset `off` reads as where its block answers (R14; DBG_RO_LEN by R463): without an unlock a DBG register but
DBG_STATUS and DBG_ERR reads as 0 (DESIGN CHOICE). -/
def State.regRead (s : State) (off : Nat) : Nat :=
  if s.m.sec.unlock == 0 && !dbgOpen off then 0
  else lo32 (match Reg.at? off with
    | none => 0
    | some (r, i, j) =>
      match kvGet? s.m.regs.snap off with
      | some w => w
      | none =>
        if off = Reg.DBG_RO_LEN_LO.base then lo32 s.readoutLen
        else if off = Reg.DBG_RO_LEN_HI.base then hi32 s.readoutLen
        else s.regWord r i j)

/-- The result of a BAR0 read (R9): all ones where the access is not aligned or the block does not answer. -/
def State.bar0Read (s : State) (off : Nat) : Nat :=
  if bar0Aligned off && s.m.answers off then s.regRead off else 0xFFFFFFFF

/-- Reading a _LO half captures its _HI half (R14). -/
def State.capture (s : State) (off : Nat) : State :=
  if bar0Aligned off && s.m.answers off && halfAt .lo off then
    let s0 := { s with m := { s.m with regs := { s.m.regs with snap := kvDel s.m.regs.snap (off + 4) } } }
    let hi := s0.regRead (off + 4)
    s0.on (fun m => { m with regs := { m.regs with snap := kvSet m.regs.snap (off + 4) hi } })
  else s

/-- READ_LO_SNAPSHOT: a read of a _LO half, completed with its value (R14). A read of another offset captures nothing, and one that is no
aligned 32-bit access completes with all ones (R9); in D3hot the read completes with Unsupported Request, shown as an empty completion
(R367). -/
def execReadLoSnapshot (read : BusRead) (s : State) : Host.Outcome State Fault Refusal :=
  .next (if s.m.mgUp && s.m.host.linkUp then
    if s.m.pwr.state = .sleep then s.on (fun m => m.emit (.completion []))
    else if read.bytes == 4 then
      let v := s.bar0Read read.off
      (s.capture read.off).on (fun m => m.emit (.completion (leBytes 4 v)))
    else s.on (fun m => m.emit (.completion (List.replicate read.bytes 0xFF)))
  else s)

/-! ### BAR2 reads -/

/-- The completion of a BAR2 read of `n` bytes at device address `a` (R371): a read that a CXL port holds completes when the port's link
does (10_memory_tiers.md R264). -/
def Mod.bar2ReadAt (m : Mod) (a n : Nat) (ecc : Ecc) : Mod :=
  match if m.bar2Void a then none else m.heldPort a n with
  | some c => m.holdReq c (.read (m.portLocal a) n)
  | none =>
    let m1 := if m.bar2Void a then m else (m.yard .host a n false).readDev false [(a, n)] ecc
    m1.emit (.completion (m1.bar2Bytes a n))

/-- What a broken non-posted request completes with: Completer Abort (R365), or Unsupported Request, shown as an empty completion
(R364). -/
def tlpEnd : TlpBad → Out
  | .unsupported _ => .completion []
  | _ => .abort

/-- BAR2_READ: Unsupported Request, shown as an empty completion, where the function is not in D0 or the window does not hold the bytes;
all ones where the device cannot serve it; the readout image of a frozen device (R371, R367; 18_debug.md R463). A request that arrives broken is discarded, and its completion
carries Completer Abort (R365). -/
def execBar2Read (off len : Nat) (ecc : Ecc) (tlp : Option TlpBad) (s : State) : Host.Outcome State Fault Refusal :=
  .next (
    let m := s.m
    if !m.tlpUp then s
    else match tlp with
    | some b => s.on (fun x => (x.tlpDiscard b).emit (tlpEnd b))
    | none =>
    if m.pwr.state = .sleep ∨ m.bar2Size < off + len then s.on (fun x => x.emit (.completion []))
    else if m.bar2Up then s.on (fun x => x.bar2ReadAt (x.bar2Base + off) len ecc)
    else if m.dbg.stopped then s.on (fun x => x.emit (.completion (s.readout off len)))
    else s.on (fun x => x.emit (.completion (List.replicate len 0xFF))))

/-! ### The TAP's access -/

/-- What the TAP may reach without a debug unlock (R451). -/
def tapOpen (off : Nat) : Bool :=
  off == 0 || off / 0x100000 == 0x11 || off == Reg.DBG_STATUS.base || off == Reg.DBG_ERR.base

/-- The register of DBG_ACCESS at Capture-DR (R454): the result of the access before, [32] DONE, [33] ERR. -/
def Mod.tapCapture (m : Mod) : Nat :=
  match m.dbg.tapLast with
  | some (v, err) => v + 2 ^ 32 + (if err then 2 ^ 33 else 0)
  | none => 0

/-- Keep the result of a TAP access. -/
def State.tapResult (s : State) (v : Nat) (err : Bool) : State := s.on (fun m => { m with dbg := { m.dbg with tapLast := some (v, err) } })

/-- A write that R451 refuses to a register of block DBG sets DBG_ERR.LOCKED. -/
def State.tapLocked (s : State) (write : Bool) (off : Nat) : State :=
  if write && !dbgOpen off && (Reg.at? off).isSome then s.on (fun m => m.fset Fld.DBG_ERR_LOCKED 1) else s

/-- The access made at Update-DR (R454), which PERST# does not hold; `shown` is what the register reads as. -/
def State.tapAccess (s : State) (write : Bool) (off data shown : Nat) : State :=
  if !bar0Aligned off || !Mod.answers { s.m with pwr := { s.m.pwr with perst := false } } off then s.tapResult 0xFFFFFFFF true
  else if s.m.sec.unlock == 0 && !tapOpen off then (s.tapLocked write off).tapResult 0xFFFFFFFF true
  else if write then (s.on (fun m => m.regRoute off data)).tapResult 0 false
  else (s.capture off).tapResult shown false

/-- DBG_ACCESS: the previous result is shifted out, then the access is made (R454). -/
def execDbgAccess (write : Bool) (off data : Nat) (s : State) : Host.Outcome State Fault Refusal :=
  .next (if s.m.mgUp then
    (s.on (fun m => m.tapShift 0x10 m.tapCapture)).tapAccess write (off % 2 ^ 26) (lo32 data) (s.regRead (off % 2 ^ 26)) else s)

end Sys2Proof.Machine
end

