-- ==== Sys2Proof/Machine/ElemRows.lean ====
section
/-! DEFINITION. The element instructions as commands (07_groom_units.md R164 to R167): one instruction of an element program
on the element an engine holds, a core's vector unit while it runs an ELEMENT kernel (03_cores.md R87) or a groom unit in a
pass (R174). The family "element". -/

namespace Sys2Proof.Machine

/-! ### A core's element -/

/-- An instruction other than END on the element of a core's ELEMENT kernel. -/
def Mod.coreElem (m : Mod) (c : Nat) (i : ElemInstr) : Mod :=
  match m.running? c, (m.core c).elem with
  | some (_, _, k), some x => if k.op = .element then m.setCore c { m.core c with elem := some (x.exec i) } else m
  | _, _ => m

/-- END on a core: the element's outputs are stored and the next element is loaded; after the last one the norm accumulators
are written and the kernel's work is done (03_cores.md R87). The poisoned words of the kernel's operands are found with its
first element. -/
def Mod.coreEnd (m : Mod) (c : Nat) : Mod :=
  match m.running? c, (m.core c).elem with
  | some (s, i, k), some x =>
    if k.op = .element then
      let m1 := if x.index = 0 then m.sramErrors c i (k.readExtent (s.rank c)) ⟨[], [], [], []⟩ else m
      let env := m1.kEnv (s.rank c) k
      let bad := (elemLoad (m1.sramRd c) k env x.index x.acc .none).2
      let w := elemStore (m1.sramRd c) k env x bad
      let m2 := m1.kernelResult c ⟨w.1, .none, if bad then .none else x.fl.join w.2⟩
      let acc := x.accAfter k.prog bad
      match m2.loadElem c k env (x.index + 1) acc with
      | some y => m2.setCore c { m2.core c with elem := some y }
      | none =>
        let n := elemNorms k env acc
        (m2.kernelResult c ⟨n.1, .none, n.2⟩).workDone c
    else m
  | _, _ => m

/-! ### A groom unit's element -/

/-- Put back a pass and the element its unit holds. -/
def Mod.setPass (m : Mod) (u : Nat) (ps : GPass) (x : Option Elem) : Mod :=
  m.setGroom u { m.groomUnit u with pass := some ps, elem := x }

/-- The row of a ROW binding that position `j` of a slice opens. -/
def Mod.openAt (m : Mod) (u : Nat) (ps : GPass) (g : Binding) (i j : Nat) : Mod :=
  if g.row && j % max g.rowLen 1 == 0 then m.openRow u ps.binding g (i / max g.rowLen 1) else m

/-- Pass the held elements from the pass's position on (R145). -/
def Mod.passHeld (u : Nat) (g : Binding) (e : SliceEnt) (sl : GSlice) (env : PassEnv) : Nat → Mod → GPass → Mod × GPass
  | 0, m, ps => (m, ps)
  | n + 1, m, ps =>
    let i := elemIndex g e sl ps.pos
    let q := if ps.pos < sl.vals.length then m.maskLoad u g i ps else ps
    if q.pos < sl.vals.length ∧ !(q.trained g i).1 then
      let y := ((m.sliceOpen q g e sl).openAt u q g i q.pos).heldElem u g env i q.pos (q.trained g i).2 q
      Mod.passHeld u g e sl env n y.1 { y.2 with pos := y.2.pos + 1 }
    else (m, q)

/-- After an element: held ones that follow are passed, and a slice at its end leaves the buffer. -/
def Mod.afterElem (m : Mod) (u : Nat) (was : Bool) (ps : GPass) (g : Binding) (e : SliceEnt) (sl : GSlice) : Mod :=
  let y := Mod.passHeld u g e sl m.passEnv sl.vals.length m ps
  let m1 := (y.1.passPoison was y.2.poisoned).setPass u y.2 none
  if sl.vals.length ≤ y.2.pos then m1.sliceTaken u y.2 sl else m1

/-- The element at the pass's position, loaded where the unit holds none: the module with its row opened and held elements
before it passed, the pass, the element. -/
def Mod.heldOrLoaded (m : Mod) (u : Nat) (ps : GPass) (g : Binding) (e : SliceEnt) (sl : GSlice) :
    Mod × GPass × Option Elem :=
  match (m.groomUnit u).elem with
  | some x => (m, ps, some x)
  | none =>
    let y := Mod.passHeld u g e sl m.passEnv sl.vals.length m ps
    if y.2.pos < sl.vals.length then
      let i := elemIndex g e sl y.2.pos
      let m1 := (y.1.sliceOpen y.2 g e sl).openAt u y.2 g i y.2.pos
      (m1, y.2, some (m1.trainLoad u g m.passEnv i y.2.pos (sl.vals.getD y.2.pos (0, false)) (m1.rowStep g i) y.2).1)
    else (y.1, y.2, none)

/-- An instruction other than END on a groom unit: it acts on the element at the pass's position of the next slice. -/
def Mod.groomElem (m : Mod) (u : Nat) (i : ElemInstr) : Mod :=
  match m.groomRuns, m.nextSlice u with
  | true, some (ps, g, e, sl) =>
    match m.heldOrLoaded u ps g e sl with
    | (m1, q, some x) => (m1.passPoison ps.poisoned q.poisoned).setPass u q (some (x.exec i))
    | (m1, q, none) => m1.afterElem u ps.poisoned q g e sl
  | _, _ => m

/-- END on a groom unit: the element's outputs, accumulators and watch counts are stored, and the pass moves on (R171, R174). -/
def Mod.groomEnd (m : Mod) (u : Nat) : Mod :=
  match m.groomRuns, m.nextSlice u with
  | true, some (ps, g, e, sl) =>
    match m.heldOrLoaded u ps g e sl with
    | (m1, q, some x) =>
      let j := q.pos
      let i := elemIndex g e sl j
      let v := sl.vals.getD j (0, false)
      let bad := (m1.trainLoad u g m1.passEnv i j v (m1.rowStep g i) q).2 || (q.trained g i).2
      let y := m1.trainStore u g m1.passEnv i j v x bad q
      y.1.afterElem u ps.poisoned { y.2 with pos := j + 1 } g e sl
    | (m1, q, none) => m1.afterElem u ps.poisoned q g e sl
  | _, _ => m

/-! ### The instructions -/

/-- The instruction word of an opcode with its other fields. -/
def instrOf (op : ElemOp) (w : ElemWord) : ElemInstr := ⟨op, w.dst, w.a, w.b, w.c, w.ftz, w.wide, w.nega⟩

/-- One instruction on the engine's element. -/
def Mod.elemStep (m : Mod) (eng : Engine) (i : ElemInstr) : Mod :=
  match eng with
  | .core c => m.coreElem c i
  | .groom u => m.groomElem u i

/-- The end of an element's run. -/
def Mod.elemEndStep (m : Mod) (eng : Engine) : Mod :=
  match eng with
  | .core c => m.coreEnd c
  | .groom u => m.groomEnd u

/-- END (R164): it has no operands. -/
def execElemEnd (eng : Engine) (_w : ElemWord) (s : State) : Host.Outcome State Fault Refusal :=
  .next (s.unit (fun m => m.elemEndStep eng))

/-- MOV (R165). -/
def execMov (eng : Engine) (w : ElemWord) (s : State) : Host.Outcome State Fault Refusal :=
  .next (s.unit (fun m => m.elemStep eng (instrOf .mov w)))

/-- ADD (R165). -/
def execAdd (eng : Engine) (w : ElemWord) (s : State) : Host.Outcome State Fault Refusal :=
  .next (s.unit (fun m => m.elemStep eng (instrOf .add w)))

/-- SUB (R165). -/
def execSub (eng : Engine) (w : ElemWord) (s : State) : Host.Outcome State Fault Refusal :=
  .next (s.unit (fun m => m.elemStep eng (instrOf .sub w)))

/-- MUL (R165). -/
def execMul (eng : Engine) (w : ElemWord) (s : State) : Host.Outcome State Fault Refusal :=
  .next (s.unit (fun m => m.elemStep eng (instrOf .mul w)))

/-- FMA (R165). -/
def execFma (eng : Engine) (w : ElemWord) (s : State) : Host.Outcome State Fault Refusal :=
  .next (s.unit (fun m => m.elemStep eng (instrOf .fma w)))

/-- FMS (R165). -/
def execFms (eng : Engine) (w : ElemWord) (s : State) : Host.Outcome State Fault Refusal :=
  .next (s.unit (fun m => m.elemStep eng (instrOf .fms w)))

/-- DIV (R166). -/
def execDiv (eng : Engine) (w : ElemWord) (s : State) : Host.Outcome State Fault Refusal :=
  .next (s.unit (fun m => m.elemStep eng (instrOf .div w)))

/-- RECIP (R166). -/
def execRecip (eng : Engine) (w : ElemWord) (s : State) : Host.Outcome State Fault Refusal :=
  .next (s.unit (fun m => m.elemStep eng (instrOf .recip w)))

/-- SQRT (R166). -/
def execSqrt (eng : Engine) (w : ElemWord) (s : State) : Host.Outcome State Fault Refusal :=
  .next (s.unit (fun m => m.elemStep eng (instrOf .sqrt w)))

/-- RSQRT (R166). -/
def execRsqrt (eng : Engine) (w : ElemWord) (s : State) : Host.Outcome State Fault Refusal :=
  .next (s.unit (fun m => m.elemStep eng (instrOf .rsqrt w)))

/-- EXP2 (R166). -/
def execExp2 (eng : Engine) (w : ElemWord) (s : State) : Host.Outcome State Fault Refusal :=
  .next (s.unit (fun m => m.elemStep eng (instrOf .exp2 w)))

/-- LOG2 (R166). -/
def execLog2 (eng : Engine) (w : ElemWord) (s : State) : Host.Outcome State Fault Refusal :=
  .next (s.unit (fun m => m.elemStep eng (instrOf .log2 w)))

/-- TANH (R166). -/
def execTanh (eng : Engine) (w : ElemWord) (s : State) : Host.Outcome State Fault Refusal :=
  .next (s.unit (fun m => m.elemStep eng (instrOf .tanh w)))

/-- MAX (R166). -/
def execMax (eng : Engine) (w : ElemWord) (s : State) : Host.Outcome State Fault Refusal :=
  .next (s.unit (fun m => m.elemStep eng (instrOf .max w)))

/-- MIN (R166). -/
def execMin (eng : Engine) (w : ElemWord) (s : State) : Host.Outcome State Fault Refusal :=
  .next (s.unit (fun m => m.elemStep eng (instrOf .min w)))

/-- ABS (R165). -/
def execAbs (eng : Engine) (w : ElemWord) (s : State) : Host.Outcome State Fault Refusal :=
  .next (s.unit (fun m => m.elemStep eng (instrOf .abs w)))

/-- NEG (R165). -/
def execNeg (eng : Engine) (w : ElemWord) (s : State) : Host.Outcome State Fault Refusal :=
  .next (s.unit (fun m => m.elemStep eng (instrOf .neg w)))

/-- SIGN (R165). -/
def execSign (eng : Engine) (w : ElemWord) (s : State) : Host.Outcome State Fault Refusal :=
  .next (s.unit (fun m => m.elemStep eng (instrOf .sign w)))

/-- CLAMP (R165). -/
def execClamp (eng : Engine) (w : ElemWord) (s : State) : Host.Outcome State Fault Refusal :=
  .next (s.unit (fun m => m.elemStep eng (instrOf .clamp w)))

/-- CMPLT (R166). -/
def execCmplt (eng : Engine) (w : ElemWord) (s : State) : Host.Outcome State Fault Refusal :=
  .next (s.unit (fun m => m.elemStep eng (instrOf .cmplt w)))

/-- CMPEQ (R166). -/
def execCmpeq (eng : Engine) (w : ElemWord) (s : State) : Host.Outcome State Fault Refusal :=
  .next (s.unit (fun m => m.elemStep eng (instrOf .cmpeq w)))

/-- SEL (R165). -/
def execSel (eng : Engine) (w : ElemWord) (s : State) : Host.Outcome State Fault Refusal :=
  .next (s.unit (fun m => m.elemStep eng (instrOf .sel w)))

/-- CVT (R167). -/
def execCvt (eng : Engine) (w : ElemWord) (s : State) : Host.Outcome State Fault Refusal :=
  .next (s.unit (fun m => m.elemStep eng (instrOf .cvt w)))

/-- SRND (R167). -/
def execSrnd (eng : Engine) (w : ElemWord) (s : State) : Host.Outcome State Fault Refusal :=
  .next (s.unit (fun m => m.elemStep eng (instrOf .srnd w)))

/-- NACC (R167). -/
def execNacc (eng : Engine) (w : ElemWord) (s : State) : Host.Outcome State Fault Refusal :=
  .next (s.unit (fun m => m.elemStep eng (instrOf .nacc w)))

end Sys2Proof.Machine
end

