-- ==== Sys2Proof/Machine/Dispatch.lean ====
section
/-! DEFINITION. The dispatcher: one arm per command, each one call of the command's meaning. -/

namespace Sys2Proof.Machine

/-- The effect of a command on everything but the queue. -/
def exec (i : Instr) (s : State) : Host.Outcome State Fault Refusal :=
  match i with
  | .registerWrite off word => Sys2Proof.Machine.execRegisterWrite off word s
  | .readLoSnapshot read => Sys2Proof.Machine.execReadLoSnapshot read s
  | .writeHiCommit off val => Sys2Proof.Machine.execWriteHiCommit off val s
  | .pendingFieldApply => Sys2Proof.Machine.execPendingFieldApply s
  | .bar2Write off data ecc tlp => Sys2Proof.Machine.execBar2Write off data ecc tlp s
  | .bar2Read off len ecc tlp => Sys2Proof.Machine.execBar2Read off len ecc tlp s
  | .slotOpen slot => Sys2Proof.Machine.execSlotOpen slot s
  | .slotProve slot => Sys2Proof.Machine.execSlotProve slot s
  | .slotClear slot => Sys2Proof.Machine.execSlotClear slot s
  | .proofComplete slot ecc => Sys2Proof.Machine.execProofComplete slot ecc s
  | .plateActivate slot => Sys2Proof.Machine.execPlateActivate slot s
  | .plateDeactivate => Sys2Proof.Machine.execPlateDeactivate s
  | .plateCancel => Sys2Proof.Machine.execPlateCancel s
  | .activationTakesEffect => Sys2Proof.Machine.execActivationTakesEffect s
  | .deactivationTakesEffect => Sys2Proof.Machine.execDeactivationTakesEffect s
  | .routeUpdateTakesEffect => Sys2Proof.Machine.execRouteUpdateTakesEffect s
  | .tickBoundary input energy => Sys2Proof.Machine.execTickBoundary input energy s
  | .tckPeriodWrite val => Sys2Proof.Machine.execTckPeriodWrite val s
  | .upstreamFailover => Sys2Proof.Machine.execUpstreamFailover s
  | .tickInEdge err => Sys2Proof.Machine.execTickInEdge err s
  | .tickInLost => Sys2Proof.Machine.execTickInLost s
  | .barrierSignal id => Sys2Proof.Machine.execBarrierSignal id s
  | .stepTimeout => Sys2Proof.Machine.execStepTimeout s
  | .kernelStart core => Sys2Proof.Machine.execKernelStart core s
  | .kernelComplete core => Sys2Proof.Machine.execKernelComplete core s
  | .matmul core ecc => Sys2Proof.Machine.execMatmul core ecc s
  | .conv core ecc => Sys2Proof.Machine.execConv core ecc s
  | .attnForward core ecc => Sys2Proof.Machine.execAttnForward core ecc s
  | .attnMerge core ecc => Sys2Proof.Machine.execAttnMerge core ecc s
  | .attnBackward core ecc => Sys2Proof.Machine.execAttnBackward core ecc s
  | .attnKvGrad core ecc => Sys2Proof.Machine.execAttnKvGrad core ecc s
  | .element core ecc => Sys2Proof.Machine.execElement core ecc s
  | .reduce core ecc => Sys2Proof.Machine.execReduce core ecc s
  | .scan core ecc => Sys2Proof.Machine.execScan core ecc s
  | .gather core ecc => Sys2Proof.Machine.execGather core ecc s
  | .scatter core ecc => Sys2Proof.Machine.execScatter core ecc s
  | .transpose core ecc => Sys2Proof.Machine.execTranspose core ecc s
  | .copy core ecc => Sys2Proof.Machine.execCopy core ecc s
  | .topk core ecc => Sys2Proof.Machine.execTopk core ecc s
  | .elemEnd eng w => Sys2Proof.Machine.execElemEnd eng w s
  | .mov eng w => Sys2Proof.Machine.execMov eng w s
  | .add eng w => Sys2Proof.Machine.execAdd eng w s
  | .sub eng w => Sys2Proof.Machine.execSub eng w s
  | .mul eng w => Sys2Proof.Machine.execMul eng w s
  | .fma eng w => Sys2Proof.Machine.execFma eng w s
  | .fms eng w => Sys2Proof.Machine.execFms eng w s
  | .div eng w => Sys2Proof.Machine.execDiv eng w s
  | .recip eng w => Sys2Proof.Machine.execRecip eng w s
  | .sqrt eng w => Sys2Proof.Machine.execSqrt eng w s
  | .rsqrt eng w => Sys2Proof.Machine.execRsqrt eng w s
  | .exp2 eng w => Sys2Proof.Machine.execExp2 eng w s
  | .log2 eng w => Sys2Proof.Machine.execLog2 eng w s
  | .tanh eng w => Sys2Proof.Machine.execTanh eng w s
  | .max eng w => Sys2Proof.Machine.execMax eng w s
  | .min eng w => Sys2Proof.Machine.execMin eng w s
  | .abs eng w => Sys2Proof.Machine.execAbs eng w s
  | .neg eng w => Sys2Proof.Machine.execNeg eng w s
  | .sign eng w => Sys2Proof.Machine.execSign eng w s
  | .clamp eng w => Sys2Proof.Machine.execClamp eng w s
  | .cmplt eng w => Sys2Proof.Machine.execCmplt eng w s
  | .cmpeq eng w => Sys2Proof.Machine.execCmpeq eng w s
  | .sel eng w => Sys2Proof.Machine.execSel eng w s
  | .cvt eng w => Sys2Proof.Machine.execCvt eng w s
  | .srnd eng w => Sys2Proof.Machine.execSrnd eng w s
  | .nacc eng w => Sys2Proof.Machine.execNacc eng w s
  | .kernelHang core => Sys2Proof.Machine.execKernelHang core s
  | .stableReset core => Sys2Proof.Machine.execStableReset core s
  | .coreBist core => Sys2Proof.Machine.execCoreBist core s
  | .bistComplete core fail => Sys2Proof.Machine.execBistComplete core fail s
  | .coreClrSat core => Sys2Proof.Machine.execCoreClrSat core s
  | .watchPartialMerge tensor part ecc => Sys2Proof.Machine.execWatchPartialMerge tensor part ecc s
  | .stashPlace stream => Sys2Proof.Machine.execStashPlace stream s
  | .padClrLow => Sys2Proof.Machine.execPadClrLow s
  | .stepszNextWrite val => Sys2Proof.Machine.execStepszNextWrite val s
  | .stepNextWrite val => Sys2Proof.Machine.execStepNextWrite val s
  | .kdataWrite k val => Sys2Proof.Machine.execKdataWrite k val s
  | .ksetWrite val => Sys2Proof.Machine.execKsetWrite val s
  | .stepStart => Sys2Proof.Machine.execStepStart s
  | .groomPassStart binding => Sys2Proof.Machine.execGroomPassStart binding s
  | .groomSliceProcess unit ecc => Sys2Proof.Machine.execGroomSliceProcess unit ecc s
  | .groomPassComplete unit ecc => Sys2Proof.Machine.execGroomPassComplete unit ecc s
  | .grmClrSat unit => Sys2Proof.Machine.execGrmClrSat unit s
  | .reconcileCopy binding ecc => Sys2Proof.Machine.execReconcileCopy binding ecc s
  | .sendReductionRecord => Sys2Proof.Machine.execSendReductionRecord s
  | .normRecordReceived => Sys2Proof.Machine.execNormRecordReceived s
  | .verdictReceived => Sys2Proof.Machine.execVerdictReceived s
  | .verdictActions ecc => Sys2Proof.Machine.execVerdictActions ecc s
  | .verdictTimeout => Sys2Proof.Machine.execVerdictTimeout s
  | .deferredPass binding ecc => Sys2Proof.Machine.execDeferredPass binding ecc s
  | .drainPass ecc => Sys2Proof.Machine.execDrainPass ecc s
  | .patrolScrub ecc => Sys2Proof.Machine.execPatrolScrub ecc s
  | .hbmStackDown stack training => Sys2Proof.Machine.execHbmStackDown stack training s
  | .loftLinkDown port held => Sys2Proof.Machine.execLoftLinkDown port held s
  | .loftLinkReturn port => Sys2Proof.Machine.execLoftLinkReturn port s
  | .loftLinkLost port => Sys2Proof.Machine.execLoftLinkLost port s
  | .loftRetrain port width speed => Sys2Proof.Machine.execLoftRetrain port width speed s
  | .lftCfgWrite val => Sys2Proof.Machine.execLftCfgWrite val s
  | .loftPoison port addr inStep => Sys2Proof.Machine.execLoftPoison port addr inStep s
  | .loftViral port => Sys2Proof.Machine.execLoftViral port s
  | .loftDevEvent port log head => Sys2Proof.Machine.execLoftDevEvent port log head s
  | .poolMoveUp home user => Sys2Proof.Machine.execPoolMoveUp home user s
  | .poolUnpin home user => Sys2Proof.Machine.execPoolUnpin home user s
  | .moveUpComplete home ecc => Sys2Proof.Machine.execMoveUpComplete home ecc s
  | .writebackComplete home ecc => Sys2Proof.Machine.execWritebackComplete home ecc s
  | .poolExhausted home user => Sys2Proof.Machine.execPoolExhausted home user s
  | .remoteWrite ecc => Sys2Proof.Machine.execRemoteWrite ecc s
  | .readReq ecc => Sys2Proof.Machine.execReadReq ecc s
  | .readResp => Sys2Proof.Machine.execReadResp s
  | .streamTileStart stream ecc => Sys2Proof.Machine.execStreamTileStart stream ecc s
  | .streamTileDelivered stream ecc => Sys2Proof.Machine.execStreamTileDelivered stream ecc s
  | .etchBlockExpand engine ecc => Sys2Proof.Machine.execEtchBlockExpand engine ecc s
  | .decodeTableLoad ecc => Sys2Proof.Machine.execDecodeTableLoad ecc s
  | .decodeTableSwitch engine => Sys2Proof.Machine.execDecodeTableSwitch engine s
  | .stmClrSat engine => Sys2Proof.Machine.execStmClrSat engine s
  | .probeTimer port => Sys2Proof.Machine.execProbeTimer port s
  | .signalDetected port => Sys2Proof.Machine.execSignalDetected port s
  | .trainingEnd port lanes failed delay => Sys2Proof.Machine.execTrainingEnd port lanes failed delay s
  | .flitReceived port f => Sys2Proof.Machine.execFlitReceived port f s
  | .linkRetryTimeout port => Sys2Proof.Machine.execLinkRetryTimeout port s
  | .creditWaitLong port cls vl us => Sys2Proof.Machine.execCreditWaitLong port cls vl us s
  | .controlFlitReceived port body => Sys2Proof.Machine.execControlFlitReceived port body s
  | .markReceived port arrival phase count period => Sys2Proof.Machine.execMarkReceived port arrival phase count period s
  | .echoReceived port arrival turn => Sys2Proof.Machine.execEchoReceived port arrival turn s
  | .laneFailure port lanes why => Sys2Proof.Machine.execLaneFailure port lanes why s
  | .retrainComplete port lastAccepted => Sys2Proof.Machine.execRetrainComplete port lastAccepted s
  | .retrainTimeout port => Sys2Proof.Machine.execRetrainTimeout port s
  | .portLinkLoss port cause => Sys2Proof.Machine.execPortLinkLoss port cause s
  | .portReset port => Sys2Proof.Machine.execPortReset port s
  | .testStart port => Sys2Proof.Machine.execTestStart port s
  | .testStop port => Sys2Proof.Machine.execTestStop port s
  | .e2eAck => Sys2Proof.Machine.execE2eAck s
  | .e2eAckDue src cls => Sys2Proof.Machine.execE2eAckDue src cls s
  | .e2eTimeout dest cls => Sys2Proof.Machine.execE2eTimeout dest cls s
  | .exchange op ecc => Sys2Proof.Machine.execExchange op ecc s
  | .rows op ecc => Sys2Proof.Machine.execRows op ecc s
  | .allreduce op ecc => Sys2Proof.Machine.execAllreduce op ecc s
  | .fence op => Sys2Proof.Machine.execFence op s
  | .collFlit ecc => Sys2Proof.Machine.execCollFlit ecc s
  | .colClrSat reducer => Sys2Proof.Machine.execColClrSat reducer s
  | .hostLinkTrained width speed => Sys2Proof.Machine.execHostLinkTrained width speed s
  | .flr => Sys2Proof.Machine.execFlr s
  | .hotReset => Sys2Proof.Machine.execHotReset s
  | .dlDown => Sys2Proof.Machine.execDlDown s
  | .perstAssert => Sys2Proof.Machine.execPerstAssert s
  | .perstDeassert boot => Sys2Proof.Machine.execPerstDeassert boot s
  | .powerApplied boot => Sys2Proof.Machine.execPowerApplied boot s
  | .bar2BaseWrite hi val => Sys2Proof.Machine.execBar2BaseWrite hi val s
  | .bar2Resize lg => Sys2Proof.Machine.execBar2Resize lg s
  | .ringCtrlWrite val => Sys2Proof.Machine.execRingCtrlWrite val s
  | .ringAddrWrite off val => Sys2Proof.Machine.execRingAddrWrite off val s
  | .ringConsWrite val => Sys2Proof.Machine.execRingConsWrite val s
  | .eventProduced => Sys2Proof.Machine.execEventProduced s
  | .ringRecordWrite => Sys2Proof.Machine.execRingRecordWrite s
  | .eventDropped => Sys2Proof.Machine.execEventDropped s
  | .coalesceExpiry cls => Sys2Proof.Machine.execCoalesceExpiry cls s
  | .msixUnmask what => Sys2Proof.Machine.execMsixUnmask what s
  | .logAckWrite val => Sys2Proof.Machine.execLogAckWrite val s
  | .doeRequest protocol object => Sys2Proof.Machine.execDoeRequest protocol object s
  | .doeAbort => Sys2Proof.Machine.execDoeAbort s
  | .getInfo via => Sys2Proof.Machine.execGetInfo via s
  | .getEndorsement via => Sys2Proof.Machine.execGetEndorsement via s
  | .getMeasurements via => Sys2Proof.Machine.execGetMeasurements via s
  | .getQuote via nonce wait => Sys2Proof.Machine.execGetQuote via nonce wait s
  | .getKemKey via => Sys2Proof.Machine.execGetKemKey via s
  | .loadKey via slot ciphertext iv wrapped => Sys2Proof.Machine.execLoadKey via slot ciphertext iv wrapped s
  | .clearKey via slot => Sys2Proof.Machine.execClearKey via slot s
  | .keySlotApply => Sys2Proof.Machine.execKeySlotApply s
  | .mctpControl sideband req => Sys2Proof.Machine.execMctpControl sideband req s
  | .pldmMonitoring sideband req => Sys2Proof.Machine.execPldmMonitoring sideband req s
  | .eventLogRead sideband index ack => Sys2Proof.Machine.execEventLogRead sideband index ack s
  | .fwuBegin path => Sys2Proof.Machine.execFwuBegin path s
  | .fwuHeader path data => Sys2Proof.Machine.execFwuHeader path data s
  | .fwuList path data => Sys2Proof.Machine.execFwuList path data s
  | .fwuBlock path data => Sys2Proof.Machine.execFwuBlock path data s
  | .fwuEnd path => Sys2Proof.Machine.execFwuEnd path s
  | .fwuActivate path boot => Sys2Proof.Machine.execFwuActivate path boot s
  | .fwuAbort path => Sys2Proof.Machine.execFwuAbort path s
  | .nonce path => Sys2Proof.Machine.execNonce path s
  | .nonceExpiry => Sys2Proof.Machine.execNonceExpiry s
  | .dbgUnlock path token => Sys2Proof.Machine.execDbgUnlock path token s
  | .dbgRelock path => Sys2Proof.Machine.execDbgRelock path s
  | .unlockExpiry => Sys2Proof.Machine.execUnlockExpiry s
  | .setPolicy path record => Sys2Proof.Machine.execSetPolicy path record s
  | .fwConfirm => Sys2Proof.Machine.execFwConfirm s
  | .fwConfirmTimeout => Sys2Proof.Machine.execFwConfirmTimeout s
  | .supplyWarnAssert mv => Sys2Proof.Machine.execSupplyWarnAssert mv s
  | .supplyWarnClear mv us => Sys2Proof.Machine.execSupplyWarnClear mv us s
  | .warnHoldExpiry => Sys2Proof.Machine.execWarnHoldExpiry s
  | .supplyPark mv => Sys2Proof.Machine.execSupplyPark mv s
  | .supplyResetAssert mv => Sys2Proof.Machine.execSupplyResetAssert mv s
  | .tempSample sensor degC => Sys2Proof.Machine.execTempSample sensor degC s
  | .thermalStepTimer => Sys2Proof.Machine.execThermalStepTimer s
  | .thermtrip sensor degC => Sys2Proof.Machine.execThermtrip sensor degC s
  | .profileRequest path req => Sys2Proof.Machine.execProfileRequest path req s
  | .capWrite path watts => Sys2Proof.Machine.execCapWrite path watts s
  | .defaultProfileWrite path val => Sys2Proof.Machine.execDefaultProfileWrite path val s
  | .parkRequest path => Sys2Proof.Machine.execParkRequest path s
  | .parkEntry => Sys2Proof.Machine.execParkEntry s
  | .activeRequest path => Sys2Proof.Machine.execActiveRequest path s
  | .fabricWake port => Sys2Proof.Machine.execFabricWake port s
  | .idleEntry => Sys2Proof.Machine.execIdleEntry s
  | .softReset path key boot => Sys2Proof.Machine.execSoftReset path key boot s
  | .d3hotEntry => Sys2Proof.Machine.execD3hotEntry s
  | .d0Entry => Sys2Proof.Machine.execD0Entry s
  | .bmcWakeRequest => Sys2Proof.Machine.execBmcWakeRequest s
  | .wakeTimeout => Sys2Proof.Machine.execWakeTimeout s
  | .mgmtWatchdog core => Sys2Proof.Machine.execMgmtWatchdog core s
  | .dbgHalt scope target => Sys2Proof.Machine.execDbgHalt scope target s
  | .dbgResume scope target => Sys2Proof.Machine.execDbgResume scope target s
  | .dbgStep scope target => Sys2Proof.Machine.execDbgStep scope target s
  | .dbgMemRead ecc => Sys2Proof.Machine.execDbgMemRead ecc s
  | .dbgMemWrite ecc => Sys2Proof.Machine.execDbgMemWrite ecc s
  | .frzNAssert => Sys2Proof.Machine.execFrzNAssert s
  | .frzCtrlFreeze => Sys2Proof.Machine.execFrzCtrlFreeze s
  | .readoutReady => Sys2Proof.Machine.execReadoutReady s
  | .frzMemread => Sys2Proof.Machine.execFrzMemread s
  | .traceStart => Sys2Proof.Machine.execTraceStart s
  | .traceStop => Sys2Proof.Machine.execTraceStop s
  | .idcode => Sys2Proof.Machine.execIdcode s
  | .samplePreload => Sys2Proof.Machine.execSamplePreload s
  | .extest => Sys2Proof.Machine.execExtest s
  | .tapClamp => Sys2Proof.Machine.execTapClamp s
  | .highz => Sys2Proof.Machine.execHighz s
  | .dbgAccess write off data => Sys2Proof.Machine.execDbgAccess write off data s
  | .bypass => Sys2Proof.Machine.execBypass s
  | .tapReset => Sys2Proof.Machine.execTapReset s
  | .chkStart unit ecc => Sys2Proof.Machine.execChkStart unit ecc s
  | .chkAbort unit => Sys2Proof.Machine.execChkAbort unit s
  | .chkPlateJobStart job ecc => Sys2Proof.Machine.execChkPlateJobStart job ecc s
  | .chkJobComplete unit => Sys2Proof.Machine.execChkJobComplete unit s
  | .flitSlot port phase turn => Sys2Proof.Machine.execFlitSlot port phase turn s
  | .frzNDeassert => Sys2Proof.Machine.execFrzNDeassert s
  | .railFault => Sys2Proof.Machine.execRailFault s
  | .expanderHotAdd port capacity width speed ok => Sys2Proof.Machine.execExpanderHotAdd port capacity width speed ok s
  | .i3cAddressAssign addr => Sys2Proof.Machine.execI3cAddressAssign addr s

end Sys2Proof.Machine
end

