-- ==== Sys2Proof/Machine/Step.lean ====
section
/-! DEFINITION. One step of the block: the command at the front of the queue, or one idle core cycle. -/

namespace Sys2Proof.Machine

/-- DESIGN CHOICE. With no command waiting the block idles; where the tick runs, a core cycle passes, but never the last of a tick: the next
tick begins with TICK_BOUNDARY alone (02_plate_and_tick.md R55). -/
def Mod.idleCycle (m : Mod) : Mod :=
  if m.tick.running && decide (m.tick.cycle + 1 < m.tickLen) then { m with tick := { m.tick with cycle := m.tick.cycle + 1 } } else m

/-- One step: the command at the front of the queue acts on the state with the queue's rest; on an empty queue the block idles. -/
def step (s : State) : Host.Outcome State Fault Refusal :=
  match s.pending with
  | [] => .next (s.on Mod.idleCycle)
  | c :: rest => exec c { s with pending := rest }

/-- The state with the command that a table word spells at the front of its queue; the table gives no row bits, so the state itself. -/
def State.withFetchWord (s : State) (nbits w : Nat) : State :=
  match decodeTableWord nbits w with
  | some c => { s with pending := c :: s.pending }
  | none => s

end Sys2Proof.Machine
end

