-- ==== Sys2Proof/Safety.lean ====
section
/-! DEFINITION. What holds of every run: the bounds of the event unit, the canonical form of the memories, and the words in which the
statements say what a command leaves. -/

namespace Sys2Proof.Machine

/-- The bounds of the event unit's output side (20_events.md R489, R490; 14_host_interface.md R375): a tick accepts at most 256 records,
the log keeps at most 4,096, the persistent tail 32, and the queue to the ring at most 1,023 beside EVENT_DROPPED. -/
def EvtUnit.bounded (e : EvtUnit) : Prop :=
  e.accepted ≤ acceptLimit ∧ e.log.length ≤ logSize ∧ e.tail.length ≤ tailSize ∧ e.others ≤ queuePlaces

/-- The four memories are in canonical form: HBM, loft, core SRAM, accumulator files. -/
def Mod.memWf (m : Mod) : Prop := m.mem.hbm.wf = true ∧ m.mem.loft.wf = true ∧ m.mem.sram.wf = true ∧ m.mem.acc.wf = true

/-- The invariant of every step: the event unit keeps its bounds and the memories their canonical form. -/
def State.Inv (s : State) : Prop := s.evq.bounded ∧ s.m.memWf

/-- The byte of device memory that device address `a` reaches. -/
def Mod.devByte (m : Mod) (a : Nat) : Byte := (m.byteAt (m.locate a)).1

/-- The record `r` has been raised and waits for the event unit. -/
def Mod.raised (m : Mod) (r : EvRec) : Prop := r ∈ m.evIn

/-- A record of the present moment waits for the event unit: its class, code, source and detail words. -/
def Mod.reports (m : Mod) (cls : EvClass) (code source d0 d1 d2 : Nat) : Prop :=
  ⟨m.tick.count, m.tick.cycle, code, cls, false, source % 2 ^ 16, lo32 d0, lo32 d1, lo32 d2, 0⟩ ∈ m.evIn

/-- `n` reports a cause found in `m` (20_events.md R487): with class STEP, and the step is to end with FAULT, where the verdict of a step is
open; with class `other` elsewhere. -/
def Mod.reportsCause (m n : Mod) (other : EvClass) (code source d0 d1 d2 : Nat) : Prop :=
  if m.stepOpen then n.reports .step code source d0 d1 d2 ∧ n.step.cause.isSome = true else n.reports other code source d0 d1 d2

/-- Every byte of core SRAM but those at the offsets `offs` of core `c` reads in `n` as in `m`. -/
def Mod.sramKeeps (m n : Mod) (c : Nat) (offs : List Nat) : Prop :=
  ∀ k, (∀ a ∈ offs, k ≠ c * sramSize + a) → n.mem.sram.get k = m.mem.sram.get k

/-- What a soft reset and every reset outside it leave of the state that is lost with it (17_power_reset.md Table 17-7; 02_plate_and_tick.md
R54): slots EMPTY and no plate active, no step, frame, tile, pool object, paddock instance, groom pass, collective operation or check job,
no content key and no update session, and memory without a defined content. -/
structure Mod.cleared (m n : Mod) : Prop where
  plt : n.plt = ⟨.empty, .empty, none, none, [], [], []⟩
  step : n.step = .reset
  sched : n.sched = ⟨[], [], [], []⟩
  pool : n.pool = ⟨[], [], [], []⟩
  pad : n.pad = ⟨[], [], 0, 0⟩
  stm : n.stm = ⟨[], []⟩
  groom : n.groom = ⟨[], [], []⟩
  coll : n.coll = ⟨[], [], [], [], false⟩
  chk : n.chk = ⟨[], []⟩
  keys : n.sec.keys = [] ∧ n.sec.keysDue = [] ∧ n.sec.session = none
  mem : n.mem.hbm = m.mem.hbm.forget ∧ n.mem.loft = m.mem.loft.forget ∧ n.mem.sram = m.mem.sram.forget
    ∧ n.mem.acc = m.mem.acc.forget

/-- The security engine answered a request object (16_security_and_update.md R398) with a code, a status, seconds to wait and a body: through
DOE, which is then free, or through the MCTP binding it came on. -/
def State.replied (s t : State) (via : AttPath) (code status wait : Nat) (body : List Byte) : Prop :=
  match via with
  | .doe req => t.m.host.doe.busy = none ∧ Out.doe (code + 0x80) (attObject req code status wait body) ∈ t.m.host.out
  | .mctp sideband req => t.m.host.out = s.m.host.out ++ [.mctp (bindingCode sideband) 0x7E (attObject req code status wait body)]

/-- A command of the security block ended (Table 16-7) with a result: in SEC_CMD_STATUS for BAR0, with a message for the others. -/
def State.ended (s t : State) (path : Path) (code result : Nat) : Prop :=
  match path with
  | .bar0 => t.m.fget Fld.SEC_CMD_STATUS_CODE = code ∧ t.m.fget Fld.SEC_CMD_STATUS_RESULT = result
  | .vdm => ∃ more, t.m.host.out = s.m.host.out ++ .mctp 0 1 (leBytes 1 result) :: more
  | .sideband => ∃ more, t.m.host.out = s.m.host.out ++ .mctp 1 1 (leBytes 1 result) :: more

/-! ### What a command may change -/

/-- The parts of the module. -/
inductive Part where
  /-- The variant fuse. -/
  | variant
  /-- The registers. -/
  | regs
  /-- The records raised and not yet taken by the event unit. -/
  | evIn
  /-- The host port and what has been sent outside. -/
  | host
  /-- Power. -/
  | pwr
  /-- The tick master. -/
  | tick
  /-- Plate slots, pending requests, SEL and generations. -/
  | plt
  /-- Stables, barriers and signals. -/
  | sched
  /-- The cores. -/
  | cores
  /-- The step in progress. -/
  | step
  /-- HBM, loft, core SRAM and the accumulator files. -/
  | mem
  /-- The pool. -/
  | pool
  /-- The paddock. -/
  | pad
  /-- Stream engines and windows. -/
  | stm
  /-- Groom units. -/
  | groom
  /-- Collectives. -/
  | coll
  /-- Check units. -/
  | chk
  /-- The fabric. -/
  | fab
  /-- The security engine. -/
  | sec
  /-- The debug module. -/
  | dbg
  /-- The model's counter of free values. -/
  | fresh
deriving DecidableEq, Repr

/-- `n` is `m` in every part that `ps` does not list. -/
structure Mod.sameBut (ps : List Part) (m n : Mod) : Prop where
  variant : Part.variant ∉ ps → n.variant = m.variant
  regs : Part.regs ∉ ps → n.regs = m.regs
  evIn : Part.evIn ∉ ps → n.evIn = m.evIn
  host : Part.host ∉ ps → n.host = m.host
  pwr : Part.pwr ∉ ps → n.pwr = m.pwr
  tick : Part.tick ∉ ps → n.tick = m.tick
  plt : Part.plt ∉ ps → n.plt = m.plt
  sched : Part.sched ∉ ps → n.sched = m.sched
  cores : Part.cores ∉ ps → n.cores = m.cores
  step : Part.step ∉ ps → n.step = m.step
  mem : Part.mem ∉ ps → n.mem = m.mem
  pool : Part.pool ∉ ps → n.pool = m.pool
  pad : Part.pad ∉ ps → n.pad = m.pad
  stm : Part.stm ∉ ps → n.stm = m.stm
  groom : Part.groom ∉ ps → n.groom = m.groom
  coll : Part.coll ∉ ps → n.coll = m.coll
  chk : Part.chk ∉ ps → n.chk = m.chk
  fab : Part.fab ∉ ps → n.fab = m.fab
  sec : Part.sec ∉ ps → n.sec = m.sec
  dbg : Part.dbg ∉ ps → n.dbg = m.dbg
  fresh : Part.fresh ∉ ps → n.fresh = m.fresh

/-- `t` is `s` but for the parts of the module that `ps` lists: the waiting commands and the event unit's output side stand. -/
structure State.sameBut (ps : List Part) (s t : State) : Prop where
  pending : t.pending = s.pending
  evq : t.evq = s.evq
  m : Mod.sameBut ps s.m t.m

/-- The parts of the module a command may change. -/
def footprint : Instr → List Part
  | .registerWrite .. | .writeHiCommit .. | .dbgAccess .. =>
    [.regs, .evIn, .host, .pwr, .tick, .plt, .sched, .cores, .step, .mem, .stm, .chk, .fab, .sec, .dbg]
  | .readLoSnapshot .. | .bar2Resize .. | .ringRecordWrite | .eventLogRead .. =>
    [.regs, .host]
  | .pendingFieldApply | .coreClrSat .. | .padClrLow | .kdataWrite .. | .ksetWrite .. | .grmClrSat .. | .stmClrSat .. | .colClrSat .. |
    .bar2BaseWrite .. | .ringCtrlWrite .. | .ringConsWrite .. | .logAckWrite .. | .nonceExpiry =>
    [.regs]
  | .bar2Write .. | .bar2Read .. =>
    [.regs, .evIn, .host, .cores, .step, .mem, .dbg]
  | .slotOpen .. | .slotProve .. | .slotClear .. | .plateActivate .. | .plateDeactivate | .plateCancel =>
    [.regs, .evIn, .host, .plt]
  | .proofComplete .. =>
    [.regs, .evIn, .host, .plt, .step, .mem, .sec]
  | .activationTakesEffect =>
    [.regs, .evIn, .host, .tick, .plt, .sched, .cores, .step, .mem, .pool, .pad, .stm, .groom, .coll, .chk, .fab, .sec, .dbg]
  | .deactivationTakesEffect =>
    [.regs, .evIn, .host, .plt, .sched, .cores, .step, .mem, .stm, .groom, .coll, .chk, .fab, .dbg]
  | .routeUpdateTakesEffect =>
    [.regs, .evIn, .host, .tick, .plt, .fab, .dbg]
  | .tickBoundary .. =>
    [.regs, .evIn, .host, .pwr, .tick, .plt, .sched, .cores, .step, .mem, .pool, .pad, .stm, .groom, .coll, .chk, .fab, .dbg]
  | .tckPeriodWrite .. | .upstreamFailover | .tickInLost =>
    [.regs, .evIn, .tick]
  | .tickInEdge .. =>
    [.tick]
  | .barrierSignal .. =>
    [.regs, .evIn, .sched, .step, .pool, .pad, .stm]
  | .stepTimeout =>
    [.evIn, .step]
  | .kernelStart .. =>
    [.regs, .evIn, .cores, .dbg]
  | .kernelComplete .. =>
    [.regs, .sched, .cores, .stm, .dbg]
  | .matmul .. | .conv .. | .attnForward .. | .attnMerge .. | .attnBackward .. | .attnKvGrad .. | .element .. | .reduce .. | .transpose ..
    | .topk .. | .kernelHang .. | .stableReset .. =>
    [.regs, .evIn, .sched, .cores, .step, .mem]
  | .scan .. | .gather .. | .scatter .. | .copy .. =>
    [.regs, .evIn, .sched, .cores, .step, .mem, .dbg]
  | .elemEnd .. =>
    [.regs, .evIn, .sched, .cores, .step, .mem, .pool, .groom]
  | .mov .. | .add .. | .sub .. | .mul .. | .fma .. | .fms .. | .div .. | .recip .. | .sqrt .. | .rsqrt .. | .exp2 .. | .log2 .. | .tanh
    .. | .max .. | .min .. | .abs .. | .neg .. | .sign .. | .clamp .. | .cmplt .. | .cmpeq .. | .sel .. | .cvt .. | .srnd .. | .nacc .. =>
    [.regs, .cores, .step, .mem, .pool, .groom]
  | .coreBist .. =>
    [.regs, .cores, .mem]
  | .bistComplete .. =>
    [.regs, .evIn, .sched, .cores, .step]
  | .watchPartialMerge .. | .patrolScrub .. | .loftPoison .. =>
    [.regs, .evIn, .step, .mem]
  | .stashPlace .. =>
    [.regs, .evIn, .step, .pool, .pad]
  | .stepszNextWrite .. =>
    [.regs, .evIn, .step]
  | .stepNextWrite .. =>
    [.regs, .step]
  | .stepStart =>
    [.regs, .evIn, .host, .pwr, .sched, .cores, .step, .pad, .stm, .groom, .coll, .chk, .fab, .dbg]
  | .groomPassStart .. =>
    [.step, .groom]
  | .groomSliceProcess .. =>
    [.regs, .evIn, .sched, .cores, .step, .mem, .pool, .groom, .coll, .fab, .dbg]
  | .groomPassComplete .. =>
    [.regs, .evIn, .sched, .step, .mem, .pool, .groom]
  | .reconcileCopy .. =>
    [.regs, .evIn, .step, .mem, .stm, .groom]
  | .sendReductionRecord | .normRecordReceived =>
    [.regs, .evIn, .step, .fab, .fresh]
  | .verdictReceived | .e2eTimeout .. =>
    [.regs, .evIn, .step, .fab]
  | .verdictActions .. =>
    [.regs, .evIn, .host, .tick, .plt, .sched, .step, .mem, .pool, .pad, .stm, .groom, .coll, .chk, .fab, .dbg]
  | .verdictTimeout =>
    [.evIn, .step, .fresh]
  | .deferredPass .. =>
    [.regs, .evIn, .sched, .step, .mem, .pool, .stm, .groom]
  | .drainPass .. =>
    [.regs, .evIn, .plt, .sched, .step, .mem, .pool, .stm, .groom]
  | .hbmStackDown .. | .lftCfgWrite .. | .loftViral .. | .loftDevEvent .. | .ringAddrWrite .. | .profileRequest .. | .capWrite .. |
    .defaultProfileWrite .. =>
    [.regs, .evIn]
  | .loftLinkDown .. =>
    [.regs, .evIn, .mem]
  | .loftLinkReturn .. | .loftRetrain .. | .expanderHotAdd .. =>
    [.regs, .evIn, .host, .mem]
  | .loftLinkLost .. =>
    [.regs, .evIn, .host, .step, .mem]
  | .poolMoveUp .. =>
    [.regs, .mem, .pool]
  | .poolUnpin .. =>
    [.regs, .mem, .pool, .groom]
  | .moveUpComplete .. =>
    [.regs, .evIn, .cores, .step, .mem, .pool, .dbg]
  | .writebackComplete .. =>
    [.regs, .evIn, .plt, .sched, .cores, .step, .mem, .pool, .stm, .groom, .dbg]
  | .poolExhausted .. =>
    [.regs, .evIn, .step, .pool]
  | .remoteWrite .. | .readReq .. =>
    [.regs, .evIn, .cores, .step, .mem, .fab, .dbg]
  | .readResp | .creditWaitLong .. | .e2eAckDue .. =>
    [.regs, .evIn, .fab]
  | .streamTileStart .. =>
    [.regs, .evIn, .cores, .step, .mem, .pool, .pad, .stm, .fab, .dbg]
  | .streamTileDelivered .. =>
    [.regs, .evIn, .sched, .cores, .step, .mem, .pool, .pad, .stm, .groom, .chk, .fab, .dbg]
  | .etchBlockExpand .. =>
    [.regs, .evIn, .cores, .step, .mem, .pool, .stm, .chk, .fab, .dbg]
  | .decodeTableLoad .. =>
    [.regs, .evIn, .cores, .step, .mem, .stm, .dbg]
  | .decodeTableSwitch .. =>
    [.stm]
  | .probeTimer .. =>
    [.host, .fab]
  | .signalDetected .. =>
    [.regs, .fab, .dbg]
  | .trainingEnd .. | .flitReceived .. | .linkRetryTimeout .. | .controlFlitReceived .. | .laneFailure .. | .retrainComplete .. |
    .retrainTimeout .. | .portLinkLoss .. | .portReset .. =>
    [.regs, .evIn, .fab, .dbg]
  | .markReceived .. =>
    [.regs, .evIn, .tick, .fab]
  | .echoReceived .. =>
    [.regs, .evIn, .tick, .fab, .dbg]
  | .testStart .. =>
    [.regs, .fab]
  | .testStop .. =>
    [.fab]
  | .e2eAck | .exchange .. | .rows .. | .allreduce .. | .fence .. | .collFlit .. =>
    [.regs, .evIn, .sched, .cores, .step, .mem, .groom, .coll, .fab, .dbg]
  | .hostLinkTrained .. | .pldmMonitoring .. =>
    [.regs, .evIn, .host]
  | .flr | .hotReset =>
    [.regs, .host, .sched, .step, .mem, .pool, .pad, .stm, .groom, .coll, .chk, .fab]
  | .dlDown =>
    [.regs, .evIn, .host, .sched, .step, .mem, .pool, .pad, .stm, .groom, .coll, .chk, .fab]
  | .perstAssert | .perstDeassert .. | .powerApplied .. | .fwuActivate .. | .supplyResetAssert .. | .thermtrip .. | .softReset .. =>
    [.regs, .evIn, .host, .pwr, .tick, .plt, .sched, .cores, .step, .mem, .pool, .pad, .stm, .groom, .coll, .chk, .fab, .sec, .dbg]
  | .eventProduced =>
    [.regs, .evIn, .dbg]
  | .eventDropped | .frzMemread | .traceStart | .traceStop =>
    [.regs, .dbg]
  | .coalesceExpiry .. | .msixUnmask .. | .doeRequest .. | .doeAbort | .getInfo .. | .getEndorsement .. | .getMeasurements .. | .getKemKey
    .. | .mctpControl .. | .i3cAddressAssign .. =>
    [.host]
  | .getQuote .. | .loadKey .. | .fwuBegin .. | .fwuHeader .. | .fwuList .. | .fwuBlock .. | .fwuEnd .. | .fwuAbort .. | .dbgUnlock .. |
    .setPolicy .. | .mgmtWatchdog .. =>
    [.regs, .evIn, .host, .sec]
  | .clearKey .. =>
    [.host, .sec]
  | .keySlotApply =>
    [.sec]
  | .nonce .. =>
    [.regs, .host, .sec]
  | .dbgRelock .. =>
    [.regs, .host, .cores, .sec, .dbg]
  | .unlockExpiry =>
    [.regs, .cores, .sec, .dbg]
  | .fwConfirm =>
    [.regs, .sec]
  | .fwConfirmTimeout =>
    [.regs, .evIn, .sec]
  | .supplyWarnAssert .. | .fabricWake .. =>
    [.regs, .pwr]
  | .supplyWarnClear .. | .supplyPark .. | .tempSample .. | .activeRequest .. =>
    [.regs, .evIn, .pwr]
  | .warnHoldExpiry | .thermalStepTimer | .parkRequest .. | .idleEntry | .railFault =>
    [.pwr]
  | .parkEntry =>
    [.regs, .evIn, .pwr, .fab, .dbg]
  | .d3hotEntry =>
    [.regs, .evIn, .pwr, .step, .fab, .dbg]
  | .d0Entry =>
    [.regs, .evIn, .host, .pwr, .plt, .fab, .dbg]
  | .bmcWakeRequest | .wakeTimeout =>
    [.host, .pwr]
  | .dbgHalt .. | .dbgResume .. | .dbgStep .. =>
    [.regs, .cores, .dbg]
  | .dbgMemRead .. | .dbgMemWrite .. =>
    [.regs, .evIn, .cores, .step, .mem, .dbg]
  | .frzNAssert | .frzCtrlFreeze =>
    [.regs, .evIn, .host, .plt, .fab, .dbg]
  | .readoutReady =>
    [.evIn, .dbg]
  | .idcode | .bypass =>
    [.host, .dbg]
  | .samplePreload =>
    [.host, .dbg, .fresh]
  | .extest =>
    [.regs, .host, .dbg, .fresh]
  | .tapClamp | .highz =>
    [.regs, .host, .dbg]
  | .tapReset | .frzNDeassert =>
    [.dbg]
  | .chkStart .. =>
    [.regs, .evIn, .cores, .step, .mem, .chk, .dbg]
  | .chkAbort .. =>
    [.regs, .evIn, .host, .sched, .step, .chk]
  | .chkPlateJobStart .. =>
    [.regs, .evIn, .sched, .cores, .step, .mem, .chk, .dbg]
  | .chkJobComplete .. =>
    [.regs, .evIn, .host, .sched, .cores, .step, .mem, .chk, .dbg]
  | .flitSlot .. =>
    [.regs, .evIn, .host, .fab, .dbg]

/-- May a command change the event unit's output side: the ring, the log and the tail, and what a tick or a reset does to them (20_events.md
R488 to R490)? -/
def movesEvents : Instr → Bool
  | .eventProduced | .eventDropped | .ringRecordWrite | .tickBoundary .. | .powerApplied .. | .supplyResetAssert .. | .thermtrip .. | .perstAssert | .perstDeassert .. => true
  | _ => false

/-! ### Words of the statements about registers -/

/-- Every register but those at the offsets of `offs` holds in `n` the word it holds in `m`. -/
def Mod.regsKeep (offs : List Nat) (m n : Mod) : Prop :=
  ∀ (r : RegSpec) (i j : Nat), r.addr i j ∉ offs → n.regs.read r i j = m.regs.read r i j

/-- `t` is `s` but for the registers at the offsets of `offs`. -/
def State.setsOnly (offs : List Nat) (s t : State) : Prop := State.sameBut [.regs] s t ∧ s.m.regsKeep offs t.m

/-- `t` is `s` but for the registers at the offsets of `offs` and records raised. -/
def State.setsAndRaises (offs : List Nat) (s t : State) : Prop := State.sameBut [.regs, .evIn] s t ∧ s.m.regsKeep offs t.m

/-- The registers whose rows say more of a write than the access codes of their fields do. -/
def actingBases : List Nat :=
  [Reg.NUM_RATIO_THRESH.base, Reg.PLT_SLOT_CMD.base, Reg.PLT_ACTIVATE.base, Reg.TCK_PERIOD.base, Reg.TCK_SOURCE.base, Reg.TOP_BAR2_BASE_LO.base,
   Reg.TOP_BAR2_BASE_HI.base, Reg.GRM_CTRL.base, Reg.GRM_STEPSZ_NEXT.base, Reg.GRM_STEP_NEXT.base, Reg.GRM_KDATA.base, Reg.GRM_KSET.base,
   Reg.STM_CTRL.base, Reg.STM_TBL_CMD.base, Reg.HBM_PAD_CTRL.base, Reg.LFT_CFG.base, Reg.FAB_CTRL.base, Reg.COL_RCTRL.base,
   Reg.CHK_CTRL.base, Reg.EVT_RING_CTRL.base, Reg.EVT_RING_CONS.base, Reg.EVT_LOG_ACK.base, Reg.PWR_PROFILE.base, Reg.PWR_CAP.base,
   Reg.PWR_DEFAULT.base, Reg.PWR_STATE_REQ.base, Reg.PWR_THERM_THRESH.base, Reg.SEC_CMD.base, Reg.CORE_CTRL.base]

/-- Offset `off` holds instance (i, j) of `r`, and a write does to it what the access codes of its fields say. -/
def plainReg (off : Nat) (r : RegSpec) (i j : Nat) : Prop :=
  Reg.at? off = some (r, i, j) ∧ r.base ∉ actingBases ∧ isRingAddr off = false ∧ dbgOpen off = true

/-- A BAR0 access to offset `off` meets a block that answers and a register of an enabled unit (R3, R9). -/
def State.reaches (s : State) (off : Nat) : Prop := s.m.answers off = true ∧ bar0Aligned off = true ∧ s.m.disabledReg off = false

end Sys2Proof.Machine
end

