-- ==== Sys2Proof/Certificates/Slice0/Obligations.lean ====
section
/-! DEFINITION. The statements about the model. Each docstring names the rules of the spec that its statement formalises; where a clause
rests on a choice of the model the docstring names the log entry. -/

section

open Sys2Proof Sys2Proof.Machine

/-! ### The queue, the invariant, what a command may change -/

/-- A step takes the command at the front of the queue and answers what the command does to the state with the queue's rest. -/
def Obligations.StepRunsFrontCommand : Prop :=
  ∀ (c : Instr) (rest : List Instr) (s : State), s.pending = c :: rest → step s = exec c { s with pending := rest }

/-- With no command waiting the block idles: at most the core cycle of the tick moves, and it stays within the tick (the model's choice,
log entry 2; R55 and R57 of 02_plate_and_tick.md bound the cycle). -/
def Obligations.EmptyQueueIdles : Prop :=
  ∀ s : State, s.pending = [] → ∃ t, step s = .next t ∧ State.sameBut [.tick] s t
    ∧ t.m.tick = { s.m.tick with cycle := if s.m.tick.running && decide (s.m.tick.cycle + 1 < s.m.tickLen) then s.m.tick.cycle + 1
                                          else s.m.tick.cycle }

/-- Every command completes in every state, takes no command from the queue and puts none into it, and leaves every part of the module that
its footprint does not list, and the event unit's output side but for the commands that carry events, ticks and resets. -/
def Obligations.CommandFootprint : Prop :=
  ∀ (c : Instr) (s : State), ∃ t, exec c s = .next t ∧ t.pending = s.pending ∧ Mod.sameBut (footprint c) s.m t.m
    ∧ (movesEvents c = false → t.evq = s.evq)

/-- The machine right after reset keeps the bounds of the event unit and the canonical form of its memories. -/
def Obligations.InvariantAtReset : Prop := State.reset.Inv

/-- Every step keeps the bounds of the event unit (R375, R489, R490) and the canonical form of the memories. -/
def Obligations.InvariantKept : Prop :=
  ∀ s t : State, s.Inv → step s = .next t → t.Inv

/-- Right after a cold reset every register that stores its own word holds its table row's reset value, reserved bits 0, no value is pending
and nothing is in the event unit's queue or log; no plate is active, no step is open and no unit runs until power is applied. -/
def Obligations.ResetState : Prop :=
  (∀ r ∈ Reg.table, ∀ i j, State.reset.m.regs.read r i j = r.resetWord) ∧
  (∀ r ∈ Reg.table, ∀ f ∈ r.fields, bitsOf r.resetWord f.hi f.lo = f.reset) ∧
  (∀ r ∈ Reg.table, ∀ k, (∀ f ∈ r.fields, k < f.lo ∨ f.hi < k) → r.resetWord.testBit k = false) ∧
  State.reset.m.regs.pend = [] ∧ State.reset.pending = [] ∧ State.reset.evq.queue = [] ∧ State.reset.evq.log = [] ∧
  State.reset.m.evIn = [] ∧ State.reset.m.plateActive = false ∧ State.reset.m.stepBusy = false ∧ State.reset.m.running = false ∧
  (∀ c, State.reset.m.core c = .rest) ∧ (∀ p, (State.reset.m.port p).st = .down) ∧
  (∀ off, State.reset.bar0Read off = 0xFFFFFFFF)

/-! ### Registers -/

/-- Every register lies at a 4-byte-aligned offset and reads as a 32-bit word; an access that is not a naturally aligned 32-bit access
completes without effect and such a read returns 0xFFFF_FFFF; an offset that holds no register reads as 0 and ignores writes (R9). -/
def Obligations.UnalignedAndHoles : Prop :=
  (∀ r ∈ Reg.table, ∀ i j, r.addr i j % 4 = 0) ∧
  (∀ (s : State) (off : Nat), s.bar0Read off < 2 ^ 32) ∧
  (∀ (s : State) (off v bytes hw : Nat), off % 4 ≠ 0 ∨ bytes ≠ 4 → exec (.registerWrite off ⟨v, bytes, hw⟩) s = .next s) ∧
  (∀ (s : State) (off : Nat), off % 4 ≠ 0 → s.bar0Read off = 0xFFFFFFFF) ∧
  (∀ (s : State) (off bytes : Nat), s.m.mgUp = true → s.m.host.linkUp = true → s.m.pwr.state ≠ .sleep → bytes ≠ 4 →
    ∃ t, exec (.readLoSnapshot ⟨off, bytes⟩) s = .next t ∧ t.m.host.out = s.m.host.out ++ [.completion (List.replicate bytes 0xFF)]
      ∧ State.sameBut [.host] s t) ∧
  (∀ (s : State) (off v bytes hw : Nat), s.m.answers off = true → bar0Aligned off = true → Reg.at? off = none →
    exec (.registerWrite off ⟨v, bytes, hw⟩) s = .next s ∧ s.bar0Read off = 0)

/-- What a write does to a field by its access code (R10, Table 00-4), `locked` while a plate is active (R13): RW takes the value written,
W1C clears where a 1 is written, W1S sets where a 1 is written, RO and WO keep what is stored, RWP keeps it until the boundary, RWL takes
the value unless locked; reserved bits keep theirs (R15). Where the unit sets a W1C bit in the cycle of the write, as `hw` tells, the bit
remains set (R11). -/
def Obligations.FieldAccessCodes : Prop :=
  ∀ r ∈ Reg.table, ∀ (locked : Bool) (old v : Nat),
    (∀ f ∈ r.fields, ∀ k, k < f.hi + 1 - f.lo →
      (r.apply locked old v).testBit (f.lo + k)
        = (match f.acc with
           | .rw => v.testBit (f.lo + k)
           | .ro | .wo | .rwp => old.testBit (f.lo + k)
           | .w1c => old.testBit (f.lo + k) && !v.testBit (f.lo + k)
           | .w1s => old.testBit (f.lo + k) || v.testBit (f.lo + k)
           | .rwl => if locked then old.testBit (f.lo + k) else v.testBit (f.lo + k))) ∧
    (∀ hw, ∀ f ∈ r.fields, f.acc = .w1c → f.hi = f.lo →
      (r.apply locked old v hw).testBit f.lo = (old.testBit f.lo && (hw.testBit f.lo || !v.testBit f.lo))) ∧
    (∀ k, (∀ f ∈ r.fields, k < f.lo ∨ f.hi < k) → (r.apply locked old v).testBit k = old.testBit k)

/-- REGISTER_WRITE of a register that stands alone and does no more than its access codes say: its word takes the value written by those
codes, `hw` telling what its unit set in the same cycle (R10, R11), and no other register changes.
A write to an RWL field while a plate is active is discarded: the field keeps its value and LOCKED_WRITE (block TOP, CORRECTED) is
raised with the offset and the value (R13). -/
def Obligations.RegisterWrites : Prop :=
  (∀ (s : State) (off v hw i j : Nat) (r : RegSpec), s.reaches off → plainReg off r i j → r.kind = .plain →
      ∃ t, exec (.registerWrite off ⟨v, 4, hw⟩) s = .next t
        ∧ t.m.regs.read r i j = r.apply s.m.plateActive (s.m.regs.read r i j) (v % 2 ^ 32) hw
        ∧ State.setsAndRaises [off] s t
        ∧ (s.m.plateActive = false → t.m.evIn = s.m.evIn)) ∧
  (∀ (s : State) (off v hw i j : Nat) (r : RegSpec) (f : FieldSpec), s.reaches off → dbgOpen off = true → Reg.at? off = some (r, i, j) →
      f ∈ r.fields → f.acc = .rwl → s.m.plateActive = true →
      ∃ t, exec (.registerWrite off ⟨v, 4, hw⟩) s = .next t
        ∧ bitsOf (t.m.regs.read r i j) f.hi f.lo = bitsOf (s.m.regs.read r i j) f.hi f.lo
        ∧ t.m.reports .corrected 0x0101 0 off v 0)

/-- A field with code RWP keeps the value in effect when it is written, however often, and the value written last is the one that the next
tick boundary makes due and PENDING_FIELD_APPLY puts into effect (R12). NUM_RATIO_THRESH discards a value that is not finite and
positive. -/
def Obligations.PendingFields : Prop :=
  (∀ (s : State) (off v w i j : Nat) (r : RegSpec), s.reaches off → plainReg off r i j → r.has .rwp = true →
    ∃ t u, exec (.registerWrite off ⟨v, 4, 0⟩) s = .next t ∧ exec (.registerWrite off ⟨w, 4, 0⟩) t = .next u
      ∧ (∀ f ∈ r.fields, f.acc = .rwp → bitsOf (u.m.regs.read r i j) f.hi f.lo = bitsOf (s.m.regs.read r i j) f.hi f.lo)
      ∧ kvGet? u.m.regs.pend off = some (w % 2 ^ 32)) ∧
  (∀ (s : State) (energy mv ma off v : Nat), s.m.tick.running = true → kvGet? s.m.regs.pend off = some v →
    ∃ t, exec (.tickBoundary ⟨mv, ma⟩ energy) s = .next t ∧ kvGet? t.m.regs.due off = some v) ∧
  (∀ (s : State) (v hw : Nat), s.reaches Reg.NUM_RATIO_THRESH.base → v < 2 ^ 32 →
    (0x7F800000 ≤ v → exec (.registerWrite Reg.NUM_RATIO_THRESH.base ⟨v, 4, hw⟩) s = .next s) ∧
    (v < 0x7F800000 → ∃ t, exec (.registerWrite Reg.NUM_RATIO_THRESH.base ⟨v, 4, hw⟩) s = .next t
      ∧ kvGet? t.m.regs.pend Reg.NUM_RATIO_THRESH.base = some v ∧ s.m.regsKeep [] t.m)) ∧
  (∀ (s : State) (off v i j : Nat) (r : RegSpec), s.m.atBoundary = true → Reg.at? off = some (r, i, j) →
    kvGet? s.m.regs.due off = some v →
    ∃ t, exec .pendingFieldApply s = .next t ∧ t.m.regs.due = []
      ∧ ∀ f ∈ r.fields, f.acc = .rwp → bitsOf (t.m.regs.read r i j) f.hi f.lo = bitsOf v f.hi f.lo)

/-- A 64-bit pair (R14): a write to the _LO half waits; WRITE_HI_COMMIT commits the _HI half with the _LO value most recently written,
whenever that was; READ_LO_SNAPSHOT keeps the _HI half, which a following read of it returns whatever the unit does meanwhile; a write to
the _HI half of a read-only pair has no effect, on what was kept neither. -/
def Obligations.RegisterPairs : Prop :=
  (∀ (s : State) (off v i j : Nat) (r : RegSpec), s.reaches off → plainReg off r i j → r.kind = .lo → r.has .ro = false →
    ∃ t, exec (.registerWrite off ⟨v, 4, 0⟩) s = .next t ∧ t.m.regs.store = s.m.regs.store ∧ kvGet? t.m.regs.lo off = some (v % 2 ^ 32)) ∧
  (∀ (s : State) (off v i j k l : Nat) (r q : RegSpec), s.reaches (off + 4) → plainReg (off + 4) r i j → r.kind = .hi →
    plainReg off q k l → q.has .ro = true → exec (.writeHiCommit (off + 4) v) s = .next s) ∧
  (∀ (s : State) (off v low i j k l : Nat) (r q : RegSpec), s.reaches (off + 4) → plainReg (off + 4) r i j → r.kind = .hi →
    plainReg off q k l → q.kind = .lo → q.has .ro = false → kvGet? s.m.regs.lo off = some low →
    ∃ t, exec (.writeHiCommit (off + 4) v) s = .next t
      ∧ t.m.regs.read q k l = q.apply s.m.plateActive (s.m.regs.read q k l) low
      ∧ t.m.regs.read r i j = r.apply s.m.plateActive (s.m.regs.read r i j) (v % 2 ^ 32)
      ∧ s.m.regsKeep [off, off + 4] t.m) ∧
  (∀ (s : State) (off : Nat), s.m.mgUp = true → s.m.host.linkUp = true → s.reaches off → halfAt .lo off = true →
    let live : State := { s with m := { s.m with regs := { s.m.regs with snap := kvDel s.m.regs.snap (off + 4) } } }
    ∃ t, exec (.readLoSnapshot ⟨off, 4⟩) s = .next t ∧ t.m.host.out = s.m.host.out ++ [.completion (leBytes 4 (s.bar0Read off))]
      ∧ t.m.regs.store = s.m.regs.store
      ∧ kvGet? t.m.regs.snap (off + 4) = some (live.regRead (off + 4))) ∧
  (∀ (s : State) (off w i j : Nat) (r : RegSpec), s.reaches off → dbgOpen off = true → Reg.at? off = some (r, i, j) →
    kvGet? s.m.regs.snap off = some w → s.bar0Read off = w % 2 ^ 32)

/-- The commands that clear a count: CORE_CTRL, GRM_CTRL, STM_CTRL and COL_RCTRL clear the saturation counts of their unit, and
HBM_PAD_CTRL sets the low-water mark of the paddock to the pages free now. No other register and nothing else changes. -/
def Obligations.ClearCounts : Prop :=
  ∀ (s : State) (u : Nat),
    (s.m.answers (Reg.CORE_CTRL.addr u 0) = true →
      ∃ t, exec (.coreClrSat u) s = .next t ∧ t.m.fget Fld.CORE_MSAT_COUNT u = 0 ∧ t.m.fget Fld.CORE_VSAT_COUNT u = 0
        ∧ State.setsOnly [Reg.CORE_MSAT.addr u 0, Reg.CORE_VSAT.addr u 0] s t) ∧
    (s.m.answers (Reg.GRM_CTRL.addr u 0) = true →
      ∃ t, exec (.grmClrSat u) s = .next t ∧ t.m.fget Fld.GRM_SAT_COUNT u = 0 ∧ State.setsOnly [Reg.GRM_SAT.addr u 0] s t) ∧
    (s.m.answers (Reg.STM_CTRL.addr u 0) = true →
      ∃ t, exec (.stmClrSat u) s = .next t ∧ t.m.fget Fld.STM_XSAT_COUNT u = 0 ∧ State.setsOnly [Reg.STM_XSAT.addr u 0] s t) ∧
    (s.m.answers (Reg.COL_RCTRL.addr u 0) = true →
      ∃ t, exec (.colClrSat u) s = .next t ∧ t.m.fget Fld.COL_RSAT_COUNT u = 0 ∧ State.setsOnly [Reg.COL_RSAT.addr u 0] s t) ∧
    (s.m.answers Reg.HBM_PAD_CTRL.base = true →
      ∃ t, exec .padClrLow s = .next t ∧ t.m.fget Fld.HBM_PAD_LOW_PAGES = s.m.pad.free.length % 2 ^ 32
        ∧ State.setsOnly [Reg.HBM_PAD_LOW.addr 0 0] s t)

/-- What the host writes before a step (R178, R180): a finite step size is taken, one that is not is discarded with BAD_SZ and
STEPSZ_BAD; a step number arms the step with the size written since; GRM_KDATA stages a constant and marks it pending; GRM_KSET is
discarded while a constant is pending. -/
def Obligations.StepRegisters : Prop :=
  (∀ (s : State) (v : Nat), s.m.answers Reg.GRM_STEPSZ_NEXT.base = true → v < 2 ^ 32 → v / 2 ^ 23 % 256 ≠ 255 →
    ∃ t, exec (.stepszNextWrite v) s = .next t ∧ t.m.fget Fld.GRM_STEPSZ_NEXT_SZ = v ∧ t.m.step = { s.m.step with szFresh := true }
      ∧ State.sameBut [.regs, .step] s t ∧ s.m.regsKeep [Reg.GRM_STEPSZ_NEXT.base] t.m) ∧
  (∀ (s : State) (v : Nat), s.m.answers Reg.GRM_STEPSZ_NEXT.base = true → v < 2 ^ 32 → v / 2 ^ 23 % 256 = 255 →
    ∃ t, exec (.stepszNextWrite v) s = .next t ∧ t.m.fget Fld.GRM_STEP_STATUS_BAD_SZ = 1 ∧ t.m.reports .corrected 0x0601 0 v 0 0
      ∧ State.setsAndRaises [Reg.GRM_STEP_STATUS.base] s t) ∧
  (∀ (s : State) (v : Nat), s.m.answers Reg.GRM_STEP_NEXT.base = true → v < 2 ^ 32 →
    ∃ t, exec (.stepNextWrite v) s = .next t ∧ t.m.fget Fld.GRM_STEP_NEXT_STEP = v
      ∧ t.m.step.armed = some (v, if s.m.step.szFresh then some (s.m.fget Fld.GRM_STEPSZ_NEXT_SZ) else none)
      ∧ t.m.step.szFresh = false ∧ t.m.step.phase = s.m.step.phase
      ∧ State.sameBut [.regs, .step] s t ∧ s.m.regsKeep [Reg.GRM_STEP_NEXT.base] t.m) ∧
  (∀ (s : State) (k v : Nat), s.m.answers (Reg.GRM_KDATA.addr k 0) = true → k < 32 → v < 2 ^ 32 →
    ∃ t, exec (.kdataWrite k v) s = .next t ∧ t.m.fget Fld.GRM_KDATA_VALUE k = v
      ∧ (∀ j, j < 32 → (t.m.fget Fld.GRM_KPEND_PEND).testBit j = ((s.m.fget Fld.GRM_KPEND_PEND).testBit j || decide (j = k)))
      ∧ State.setsOnly [Reg.GRM_KDATA.addr k 0, Reg.GRM_KPEND.base] s t) ∧
  (∀ (s : State) (v : Nat), s.m.answers Reg.GRM_KSET.base = true → s.m.fget Fld.GRM_KPEND_PEND = 0 →
    ∃ t, exec (.ksetWrite v) s = .next t ∧ t.m.fget Fld.GRM_KSET_SET = v % 2 ^ 16 ∧ State.setsOnly [Reg.GRM_KSET.base] s t) ∧
  (∀ (s : State) (v : Nat), s.m.fget Fld.GRM_KPEND_PEND ≠ 0 → exec (.ksetWrite v) s = .next s)

/-- TCK_PERIOD.PERIOD_US takes integer values from 2 to 64: a valid value written takes effect at the next boundary, any other is discarded
and sets TCK_ERR.BAD_PERIOD, and while a plate is active the period keeps its value (R56).
LFT_CFG (R263): while no plate is active a write takes effect, but one with MODE 1 is discarded whole when its SET names neither two nor
four ports, or a port disabled on SLX-4010-C; while a plate is active LFT_CFG keeps its value. -/
def Obligations.PeriodAndLoftConfig : Prop :=
  ((∀ (s : State) (v : Nat), s.m.answers Reg.TCK_PERIOD.base = true → s.m.plateActive = false → 2 ≤ v % 128 → v % 128 ≤ 64 →
      ∃ t, exec (.tckPeriodWrite v) s = .next t ∧ State.sameBut [.tick] s t
        ∧ t.m.tick = { s.m.tick with periodNext := some (v % 128) }) ∧
    (∀ (s : State) (energy mv ma p : Nat), s.m.tick.running = true → s.m.tick.periodNext = some p → p ≤ 64 →
      ∃ t, exec (.tickBoundary ⟨mv, ma⟩ energy) s = .next t ∧ t.m.fget Fld.TCK_PERIOD_PERIOD_US = p ∧ t.m.tick.periodNext = none) ∧
    (∀ (s : State) (v : Nat), s.m.answers Reg.TCK_PERIOD.base = true → s.m.plateActive = false → (v % 128 < 2 ∨ 64 < v % 128) →
      ∃ t, exec (.tckPeriodWrite v) s = .next t ∧ t.m.fget Fld.TCK_ERR_BAD_PERIOD = 1 ∧ State.setsOnly [Reg.TCK_ERR.base] s t) ∧
    (∀ (s : State) (v : Nat), s.m.plateActive = true →
      ∃ t, exec (.tckPeriodWrite v) s = .next t ∧ t.m.regs = s.m.regs ∧ t.m.tick = s.m.tick)) ∧
  (∀ (s : State) (v : Nat), s.m.answers Reg.LFT_CFG.base = true →
      let ports := (List.range 4).filter (fun c => (v / 16).testBit c)
      let bad : Prop := v % 2 = 1 ∧ (ports.length ≠ 2 ∧ ports.length ≠ 4 ∨ s.m.variant = true ∧ (2 ∈ ports ∨ 3 ∈ ports))
      (s.m.plateActive = false → bad → exec (.lftCfgWrite v) s = .next s) ∧
      (s.m.plateActive = false → ¬bad →
        ∃ t, exec (.lftCfgWrite v) s = .next t ∧ t.m.fget Fld.LFT_CFG_MODE = v % 2 ∧ t.m.fget Fld.LFT_CFG_SET = v / 16 % 16
          ∧ State.setsOnly [Reg.LFT_CFG.base] s t) ∧
      (s.m.plateActive = true →
        ∃ t, exec (.lftCfgWrite v) s = .next t ∧ t.m.fget Fld.LFT_CFG_MODE = s.m.fget Fld.LFT_CFG_MODE
          ∧ t.m.fget Fld.LFT_CFG_SET = s.m.fget Fld.LFT_CFG_SET ∧ t.m.reports .corrected 0x0101 0 Reg.LFT_CFG.base v 0))

/-- The window of BAR2 (R370): its base is committed by the _HI half where it is a multiple of the BAR2 size and is discarded with BASE_BAD
where it is not; a new size clears the base to 0. The event ring's registers (R372, R374; EVT_LOG_ACK): EVT_RING_CTRL acts field by field,
the addresses of ring and shadow are discarded with RING_BUSY while the ring is enabled, a CONS beyond PROD or behind the CONS before is
discarded with CONS_BAD, and EVT_LOG_ACK does not go back. -/
def Obligations.WindowAndRing : Prop :=
  (∀ (s : State) (v : Nat), s.m.answers Reg.TOP_BAR2_BASE_LO.base = true →
    ∃ t, exec (.bar2BaseWrite false v) s = .next t ∧ t.m.bar2Base = s.m.bar2Base
      ∧ kvGet? t.m.regs.lo Reg.TOP_BAR2_BASE_LO.base = some (v % 2 ^ 32) ∧ State.setsOnly [] s t) ∧
  (∀ (s : State) (v low : Nat), s.m.answers Reg.TOP_BAR2_BASE_LO.base = true → low < 2 ^ 32 →
    kvGet? s.m.regs.lo Reg.TOP_BAR2_BASE_LO.base = some low → (low + 2 ^ 32 * (v % 2 ^ 16)) % s.m.bar2Size = 0 →
    ∃ t, exec (.bar2BaseWrite true v) s = .next t ∧ t.m.bar2Base = low + 2 ^ 32 * (v % 2 ^ 16)
      ∧ State.setsOnly [Reg.TOP_BAR2_BASE_LO.base, Reg.TOP_BAR2_BASE_HI.base] s t) ∧
  (∀ (s : State) (v low : Nat), s.m.answers Reg.TOP_BAR2_BASE_LO.base = true →
    kvGet? s.m.regs.lo Reg.TOP_BAR2_BASE_LO.base = some low → (low + 2 ^ 32 * (v % 2 ^ 16)) % s.m.bar2Size ≠ 0 →
    ∃ t, exec (.bar2BaseWrite true v) s = .next t ∧ t.m.fget Fld.TOP_HOST_ERR_BASE_BAD = 1
      ∧ State.setsOnly [Reg.TOP_HOST_ERR.base] s t) ∧
  (∀ (s : State) (n : Nat), 30 ≤ n → n ≤ 39 → n ≠ s.m.host.bar2Log2 →
    ∃ t, exec (.bar2Resize n) s = .next t ∧ t.m.bar2Size = 2 ^ n ∧ t.m.bar2Base = 0 ∧ t.m.host = { s.m.host with bar2Log2 := n }
      ∧ State.sameBut [.regs, .host] s t ∧ s.m.regsKeep [Reg.TOP_BAR2_BASE_LO.base, Reg.TOP_BAR2_BASE_HI.base] t.m) ∧
  (∀ (s : State) (v : Nat), s.m.answers Reg.EVT_RING_CTRL.base = true →
    ∃ t, exec (.ringCtrlWrite v) s = .next t ∧ t.m.fget Fld.EVT_RING_CTRL_ENABLE = v % 2
      ∧ t.m.fget Fld.EVT_RING_CTRL_COALESCE_US = v / 2 ^ 8 % 2 ^ 8
      ∧ t.m.fget Fld.EVT_RING_CTRL_LOG2_SIZE
        = (if 6 ≤ v / 2 % 32 ∧ v / 2 % 32 ≤ 16 ∧ s.m.fget Fld.EVT_RING_CTRL_ENABLE = 0 then v / 2 % 32
           else s.m.fget Fld.EVT_RING_CTRL_LOG2_SIZE)
      ∧ (s.m.fget Fld.EVT_RING_CTRL_ENABLE = 1 → 6 ≤ v / 2 % 32 → v / 2 % 32 ≤ 16 → v / 2 % 32 ≠ s.m.fget Fld.EVT_RING_CTRL_LOG2_SIZE →
          t.m.fget Fld.TOP_HOST_ERR_RING_BUSY = 1)
      ∧ State.setsOnly [Reg.EVT_RING_CTRL.base, Reg.TOP_HOST_ERR.base] s t) ∧
  (∀ (s : State) (off v : Nat), isRingAddr off = true → s.m.answers off = true → s.m.fget Fld.EVT_RING_CTRL_ENABLE = 1 →
    ∃ t, exec (.ringAddrWrite off v) s = .next t ∧ t.m.fget Fld.TOP_HOST_ERR_RING_BUSY = 1
      ∧ State.setsOnly [Reg.TOP_HOST_ERR.base] s t) ∧
  (∀ (s : State) (low high : Nat), s.m.answers Reg.EVT_RING_BASE_LO.base = true → s.m.fget Fld.EVT_RING_CTRL_ENABLE = 0 →
    ∃ t u, exec (.ringAddrWrite Reg.EVT_RING_BASE_LO.base low) s = .next t ∧ exec (.ringAddrWrite Reg.EVT_RING_BASE_HI.base high) t = .next u
      ∧ u.m.ringBase = low % 2 ^ 32 / 4096 * 4096 + 2 ^ 32 * (high % 2 ^ 32)
      ∧ State.setsOnly [Reg.EVT_RING_BASE_LO.base, Reg.EVT_RING_BASE_HI.base] s u) ∧
  (∀ (s : State) (v : Nat), s.m.answers Reg.EVT_RING_CONS.base = true → v < 2 ^ 32 →
    ((v + 2 ^ 32 - s.m.fget Fld.EVT_RING_CONS_INDEX) % 2 ^ 32 ≤ s.m.ringFill →
      ∃ t, exec (.ringConsWrite v) s = .next t ∧ t.m.fget Fld.EVT_RING_CONS_INDEX = v ∧ State.setsOnly [Reg.EVT_RING_CONS.base] s t) ∧
    (s.m.ringFill < (v + 2 ^ 32 - s.m.fget Fld.EVT_RING_CONS_INDEX) % 2 ^ 32 →
      ∃ t, exec (.ringConsWrite v) s = .next t ∧ t.m.fget Fld.TOP_HOST_ERR_CONS_BAD = 1 ∧ State.setsOnly [Reg.TOP_HOST_ERR.base] s t)) ∧
  (∀ (s : State) (v : Nat), s.m.answers Reg.EVT_LOG_ACK.base = true → v < 2 ^ 32 →
    ∃ t, exec (.logAckWrite v) s = .next t
      ∧ t.m.fget Fld.EVT_LOG_ACK_INDEX = max v (s.m.fget Fld.EVT_LOG_ACK_INDEX) ∧ State.setsOnly [Reg.EVT_LOG_ACK.base] s t)

/-! ### Plates -/

/-- The slot commands (R44): OPEN is accepted in EMPTY, PROVEN and FAILED, PROVE in LOADING, CLEAR in every state except ACTIVE and PROVING;
a command given in any other state sets CMD_REFUSED and raises SLOT_CMD_REFUSED; a BAR2 write to a slot region that is not LOADING is
discarded, sets WRITE_REFUSED and raises SLOT_WRITE_REFUSED. -/
def Obligations.SlotCommands : Prop :=
  (∀ (s : State) (slot : Nat), slot < 2 → s.m.answers (Reg.PLT_SLOT_CMD.addr slot 0) = true →
    let st := (s.m.plt.slot slot).st
    let refused : Nat → State → Prop := fun cmd t => t.m.plt = s.m.plt ∧ t.m.fget Fld.PLT_ERR_CMD_REFUSED = 1
      ∧ t.m.reports .corrected 0x0201 slot cmd st.code 0 ∧ State.setsAndRaises [Reg.PLT_ERR.base] s t
    (∃ t, exec (.slotOpen slot) s = .next t ∧
      if st = .empty ∨ st = .proven ∨ st = .failed then
        t.m.plt.slot slot = ⟨.loading, none, none⟩ ∧ t.m.plt.slot (1 - slot) = s.m.plt.slot (1 - slot) ∧ t.m.plt.active = s.m.plt.active
      else refused 1 t) ∧
    (∃ t, exec (.slotProve slot) s = .next t ∧
      if st = .loading then
        (t.m.plt.slot slot).st = .proving ∧ (t.m.plt.slot slot).expect = s.m.sampleExpect
          ∧ t.m.plt.slot (1 - slot) = s.m.plt.slot (1 - slot) ∧ t.m.plt.pending = s.m.plt.pending
          ∧ t.m.fget Fld.PLT_SLOT_LEN_LEN slot = 0 ∧ t.m.fget Fld.PLT_SLOT_EPOCH_EPOCH slot = 0 ∧ t.m.fget Fld.PLT_SLOT_FAIL_FAIL slot = 0
          ∧ (∀ w < 8, t.m.fget Fld.PLT_SLOT_HASH_HASH slot w = 0)
          ∧ t.m.fget Fld.PLT_SLOT_STATUS_RESULT slot = s.m.fget Fld.PLT_SLOT_STATUS_RESULT slot
      else refused 2 t) ∧
    (∃ t, exec (.slotClear slot) s = .next t ∧
      if st ≠ .active ∧ st ≠ .proving then
        t.m.plt.slot slot = .empty ∧ t.m.plt.slot (1 - slot) = s.m.plt.slot (1 - slot) ∧ t.m.plt.active = s.m.plt.active
      else refused 3 t)) ∧
  (∀ (s : State) (off slot : Nat) (data : List (Option Byte)) (ecc : Ecc), s.m.bar2Up = true → off + data.length ≤ s.m.bar2Size →
    slotOf (s.m.bar2Base + off) = some slot → (s.m.plt.slot slot).st ≠ .loading →
    ∃ t, exec (.bar2Write off data ecc none) s = .next t ∧ t.m.fget Fld.PLT_ERR_WRITE_REFUSED = 1
      ∧ t.m.reports .corrected 0x0202 slot (s.m.bar2Base + off) ((s.m.bar2Base + off) / 2 ^ 32) (s.m.plt.slot slot).st.code
      ∧ State.setsAndRaises [Reg.PLT_ERR.base] s t)

/-- The requests (R45, R49, R51): ACTIVATE of a PROVEN slot replaces the pending request, of another slot state is refused at once with
NOT_PROVEN and leaves the pending request; DEACTIVATE becomes the pending request while a plate is active or an activation is pending and
has no effect otherwise; CANCEL withdraws the pending request with CANCELLED; an OPEN or a CLEAR of a PROVEN slot with a pending
activation cancels it. -/
def Obligations.ActivationRequests : Prop :=
  ∀ (s : State) (slot : Nat), s.m.answers Reg.PLT_ACTIVATE.base = true →
    ((s.m.plt.slot slot).st = .proven →
      exec (.plateActivate slot) s
        = .next { s with m := { s.m with plt := { s.m.plt with pending := some ⟨true, slot, s.m.actTarget⟩ } } }) ∧
    ((s.m.plt.slot slot).st ≠ .proven →
      ∃ t, exec (.plateActivate slot) s = .next t ∧ t.m.plt = s.m.plt ∧ t.m.fget Fld.PLT_ACT_RESULT_RESULT = 1
        ∧ t.m.reports .corrected 0x0203 slot 1 s.m.actTarget 0 ∧ s.m.regsKeep [Reg.PLT_ACT_RESULT.base] t.m) ∧
    (s.m.plateActive = true ∨ s.m.plt.pending.any (fun r => r.activate) = true →
      ∃ t r, exec .plateDeactivate s = .next t ∧ t = { s with m := { s.m with plt := { s.m.plt with pending := some r } } }
        ∧ r.activate = false) ∧
    (s.m.plateActive = false → s.m.plt.pending.any (fun r => r.activate) = false → exec .plateDeactivate s = .next s) ∧
    (∀ r, s.m.plt.pending = some r →
      ∃ t, exec .plateCancel s = .next t ∧ t.m.plt = { s.m.plt with pending := none } ∧ t.m.fget Fld.PLT_ACT_RESULT_RESULT = 5
        ∧ t.m.reports .corrected 0x0203 r.slot 5 r.target 0) ∧
    (s.m.plt.pending = none → exec .plateCancel s = .next s) ∧
    (∀ target, slot < 2 → s.m.answers (Reg.PLT_SLOT_CMD.addr slot 0) = true → (s.m.plt.slot slot).st = .proven →
      s.m.plt.pending = some ⟨true, slot, target⟩ →
      ∀ c, c = Instr.slotOpen slot ∨ c = Instr.slotClear slot →
        ∃ t, exec c s = .next t ∧ t.m.plt.pending = none ∧ t.m.fget Fld.PLT_ACT_RESULT_RESULT = 5
          ∧ t.m.reports .corrected 0x0203 slot 5 target 0)

/-- The conditions of R52, in their order.
A pending activation of a FULL plate takes effect at the first boundary at or after its target with no step in progress (R50): the slot
becomes ACTIVE, the one active before PROVEN, PLT_ACT_DONE records the boundary; where R52 gives a result other than OK it is refused, the
active plate unchanged, and before its target it waits. -/
def Obligations.ActivationsAndChecks : Prop :=
  (∀ (m : Mod) (p : Plate),
      (p.hdr.periodUs ≠ m.fget Fld.TCK_PERIOD_PERIOD_US → m.actCheck p = 2) ∧
      (p.hdr.periodUs = m.fget Fld.TCK_PERIOD_PERIOD_US →
        (p.routes.isSome = true → m.aligned = false → m.actCheck p = 3) ∧
        ((p.routes.isSome = true → m.aligned = true) →
          (m.plateFenced p = true → m.actCheck p = 4) ∧
          (m.plateFenced p = false →
            (p.hdr.kind = .full → m.actCheck p = 0) ∧
            (p.hdr.kind = .routeUpdate →
              (m.actCheck p = 0 ↔ ∃ q, m.plate? = some q ∧ q.hash = p.hdr.baseHash ∧ m.epoch = p.hdr.epoch)
              ∧ (m.actCheck p ≠ 0 → m.actCheck p = 6)))))) ∧
  (∀ (s : State) (slot target : Nat) (p : Plate), s.m.running = true → s.m.atBoundary = true → slot < 2 →
      s.m.plt.pending = some ⟨true, slot, target⟩ → s.m.plt.slot slot = ⟨.proven, some p, none⟩ → p.hdr.kind = .full →
      (target ≤ s.m.tick.count → s.m.stepBusy = false → s.m.drained = true → s.m.actCheck p = 0 →
        ∃ t, exec .activationTakesEffect s = .next t ∧ t.m.plt.active = some slot ∧ t.m.plt.pending = none
          ∧ (t.m.plt.slot slot).st = .active ∧ t.m.plate? = some p
          ∧ (s.m.plt.active = some (1 - slot) → t.m.plt.slot (1 - slot) = { s.m.plt.slot (1 - slot) with st := .proven })
          ∧ t.m.get64 Fld.PLT_ACT_DONE_LO_TICK Fld.PLT_ACT_DONE_HI_TICK = s.m.tick.count % 2 ^ 48
          ∧ t.m.fget Fld.PLT_ACT_RESULT_RESULT = 0
          ∧ t.m.stepBusy = false ∧ (∀ r ∈ p.stables, ∀ x, kvGet? t.m.sched.stables r.id = some x → x.st = .fin ∧ x.frame = 0)) ∧
      (target ≤ s.m.tick.count → s.m.stepBusy = false → s.m.drained = true → s.m.actCheck p ≠ 0 →
        ∃ t, exec .activationTakesEffect s = .next t ∧ t.m.plt = { s.m.plt with pending := none }
          ∧ t.m.fget Fld.PLT_ACT_RESULT_RESULT = s.m.actCheck p ∧ t.m.reports .corrected 0x0203 slot (s.m.actCheck p) target 0) ∧
      (s.m.tick.count < target ∨ s.m.stepBusy = true ∨ s.m.drained = false → exec .activationTakesEffect s = .next s))

/-- A route update takes effect at the first boundary at or after its target, steps in progress going on, and its slot returns to EMPTY
(R53); a deactivation ends the active plate at the first boundary with no step in progress, its slot becoming PROVEN (R51). -/
def Obligations.RouteUpdateAndDeactivation : Prop :=
  (∀ (s : State) (slot target : Nat) (p : Plate), s.m.running = true → s.m.atBoundary = true → slot < 2 →
    s.m.plt.pending = some ⟨true, slot, target⟩ → s.m.plt.slot slot = ⟨.proven, some p, none⟩ → p.hdr.kind = .routeUpdate →
    target ≤ s.m.tick.count → s.m.actCheck p = 0 →
    ∃ t, exec .routeUpdateTakesEffect s = .next t ∧ t.m.plt.slot slot = .empty ∧ t.m.plt.pending = none
      ∧ t.m.plt.active = s.m.plt.active ∧ t.m.step = s.m.step ∧ t.m.sched = s.m.sched ∧ t.m.cores = s.m.cores
      ∧ (∀ i q, s.m.plt.active = some i → i < 2 → i ≠ slot → (s.m.plt.slot i).plate = some q →
          t.m.plate? = some { q with routes := p.routes <|> q.routes, tickTree := p.tickTree <|> q.tickTree })
      ∧ t.m.fget Fld.PLT_ACT_RESULT_RESULT = 0) ∧
  (∀ (s : State) (slot target i : Nat), s.m.running = true → s.m.atBoundary = true → i < 2 →
    s.m.plt.pending = some ⟨false, slot, target⟩ → s.m.plt.active = some i → s.m.stepBusy = false → s.m.drained = true →
    ∃ t, exec .deactivationTakesEffect s = .next t ∧ t.m.plt.active = none ∧ t.m.plt.pending = none
      ∧ t.m.plt.slot i = { s.m.plt.slot i with st := .proven } ∧ t.m.plt.slot (1 - i) = s.m.plt.slot (1 - i)
      ∧ t.m.fget Fld.PLT_ACT_RESULT_RESULT = 0 ∧ t.m.mem.hbm = s.m.mem.hbm) ∧
  (∀ (s : State), s.m.stepBusy = true → exec .deactivationTakesEffect s = .next s)

/-- The end of a proof (R43, R46, R48, R497): the result found is reported with its offset, a slot proved OK is PROVEN and any other FAILED,
the other slot stands; a poisoned header sector ends it with POISON and a wrong MAGIC with HEADER at offset 0. -/
def Obligations.ProofCompletes : Prop :=
  ∀ (s : State) (slot : Nat) (ecc : Ecc), s.m.running = true → slot < 2 → (s.m.plt.slot slot).st = .proving →
    let base := slotBase + slot * slotSize
    ∃ t, exec (.proofComplete slot ecc) s = .next t
      ∧ t.m.plt.slot (1 - slot) = s.m.plt.slot (1 - slot) ∧ t.m.plt.active = s.m.plt.active
      ∧ (t.m.fget Fld.PLT_SLOT_STATUS_RESULT slot = 0 →
          (t.m.plt.slot slot).st = .proven ∧ (t.m.plt.slot slot).plate.isSome = true ∧ t.m.fget Fld.PLT_SLOT_FAIL_FAIL slot = 0)
      ∧ (t.m.fget Fld.PLT_SLOT_STATUS_RESULT slot ≠ 0 →
          t.m.plt.slot slot = ⟨.failed, none, none⟩ ∧ t.m.fget Fld.PLT_SLOT_STATUS_SIGNED slot = 0)
      ∧ (ecc = noEcc → rdPoison (s.m.devRead base 128) = true → t.m.fget Fld.PLT_SLOT_STATUS_RESULT slot = 0x13)
      ∧ (ecc = noEcc → rdPoison (s.m.devRead base 128) = false → bN (rdBytes (s.m.devRead base 128)) 0 4 ≠ 0x50584C53 →
          t.m.fget Fld.PLT_SLOT_STATUS_RESULT slot = 0x01 ∧ t.m.fget Fld.PLT_SLOT_FAIL_FAIL slot = 0)

/-! ### The tick -/

/-- TICK_BOUNDARY while the tick runs (R57, R489): the count goes up by one modulo 2^48, or takes the upstream count adopted, the cycle is
0, the event unit may accept 256 records again and the input sampled is shown; with no step, or with the units held, the memories stand.
The tick's other commands: under UPSTREAM, when the port in use goes down, the first valid alternate takes over, and where none remains ALIGNED clears,
TICK_ALIGN_LOST is raised and the phase is held (R61); under EXTERNAL an edge within one core cycle aligns the tick and ends holdover, one
further away is ignored, and without an edge the tick master enters holdover and raises TICK_IN_LOST (R64). The count and the cycle go on.
-/
def Obligations.TickBoundary : Prop :=
  (∀ (s : State) (energy mv ma : Nat), s.m.tick.running = true →
    ∃ t, exec (.tickBoundary ⟨mv, ma⟩ energy) s = .next t
      ∧ (s.m.tick.adopt = none → t.m.tick.count = (s.m.tick.count + 1) % 2 ^ 48)
      ∧ (∀ n, s.m.tick.adopt = some n → t.m.tick.count = n)
      ∧ t.m.tick.cycle = 0 ∧ t.m.tick.running = true ∧ t.m.tick.adopt = none
      ∧ t.evq = { s.evq with accepted := 0 }
      ∧ (s.m.running = false ∨ s.m.step.phase = .idle → t.m.mem = s.m.mem)
      ∧ (s.m.running = false → t.m.step = s.m.step ∧ t.m.cores = s.m.cores ∧ t.m.sched = s.m.sched)
      ∧ t.m.fget Fld.PWR_ENERGY_UJ = min energy 0xFFFFFF
      ∧ t.m.fget Fld.PWR_INPUT_MV = min mv 0xFFFF ∧ t.m.fget Fld.PWR_INPUT_CURRENT = min (ma / 10) 0xFFFF) ∧
  (∀ (s : State) (p : Nat), s.m.tick.running = true → s.m.tick.source = 1 → s.m.tick.edgeSeen = true →
    s.m.upstreamUsable s.m.tick.port = false → s.m.firstUpstream = some p →
    ∃ t, exec .upstreamFailover s = .next t ∧ t.m.tick.port = p ∧ t.m.tick.count = s.m.tick.count ∧ t.m.tick.cycle = s.m.tick.cycle
      ∧ ((s.m.port p).skew = none → t.m.aligned = s.m.aligned)) ∧
  (∀ (s : State), s.m.tick.running = true → s.m.tick.source = 1 → s.m.tick.edgeSeen = true →
    s.m.upstreamUsable s.m.tick.port = false → s.m.firstUpstream = none → s.m.pwr.state ≠ .park →
    ∃ t, exec .upstreamFailover s = .next t ∧ t.m.aligned = false ∧ t.m.tick.count = s.m.tick.count
      ∧ (s.m.aligned = true → t.m.fget Fld.TCK_ERR_ALIGN_LOST = 1
          ∧ ∃ d0, t.m.reports .contained 0x0302 s.m.tick.port d0 1 0)) ∧
  (∀ (s : State) (err : Int), s.m.tick.running = true → s.m.tick.source = 2 →
    (err.natAbs ≤ 1 →
      exec (.tickInEdge err) s
        = .next { s with m := { s.m with tick := { s.m.tick with aligned := true, edgeSeen := true, holdover := false, trim := err } } }) ∧
    (1 < err.natAbs → exec (.tickInEdge err) s = .next s) ∧
    (s.m.tick.holdover = false →
      ∃ t, exec .tickInLost s = .next t ∧ t.m.tick = { s.m.tick with holdover := true } ∧ t.m.fget Fld.TCK_ERR_TICK_IN_LOST = 1
        ∧ t.m.reports .contained 0x0304 0 s.m.tick.count 0 0 ∧ s.m.regsKeep [Reg.TCK_ERR.base] t.m))

/-! ### Cores and kernels -/

/-- The sequencer of a core runs one kernel at a time, in descriptor order (R78): KERNEL_START starts the next descriptor of the frame of a
core that is at rest and neither halted, fenced, stopped by a breakpoint nor waiting for SYNC (R81), and nothing starts while a kernel
runs; KERNEL_COMPLETE ends a kernel whose work is done and moves on. -/
def Obligations.KernelsInOrder : Prop :=
  (∀ (s : State) (c : Nat) (st : StableRec) (f : FrameNow) (k : Kernel), s.m.running = true → s.m.busyStable c = some (st, f) →
    s.m.kernel? (f.kfirst + (s.m.core c).kpos) = some k → (s.m.core c).run = none → (s.m.core c).kpos < f.kcount →
    (s.m.core c).halt = none → (s.m.core c).haltReq = none → s.m.coreFencedBit c = false →
    (k.sync = false ∨ (s.m.core c).kpos = 0 ∨ ∀ d ∈ st.cores, (s.m.core c).kpos ≤ (s.m.core d).kpos) →
    ((s.m.core c).skipBp = true ∨ ∀ b < 8, s.m.bpMatches b c (f.kfirst + (s.m.core c).kpos) st = false) →
    ∃ t, exec (.kernelStart c) s = .next t ∧ (t.m.core c).run = some (f.kfirst + (s.m.core c).kpos) ∧ (t.m.core c).done = false
      ∧ (t.m.core c).ticks = 0 ∧ (t.m.core c).kpos = (s.m.core c).kpos ∧ (∀ d, d ≠ c → t.m.core d = s.m.core d)
      ∧ t.m.mem = s.m.mem ∧ t.m.sched = s.m.sched) ∧
  (∀ (s : State) (c : Nat), (s.m.core c).run.isSome = true → exec (.kernelStart c) s = .next s) ∧
  (∀ (s : State) (c i : Nat) (st : StableRec), s.m.running = true → s.m.stableOf c = some st → (s.m.core c).run = some i →
    ((s.m.core c).done = true →
      ∃ t, exec (.kernelComplete c) s = .next t ∧ (t.m.core c).run = none ∧ (t.m.core c).kpos = (s.m.core c).kpos + 1
        ∧ (∀ d, d ≠ c → t.m.core d = s.m.core d) ∧ t.m.mem = s.m.mem) ∧
    ((s.m.core c).done = false → exec (.kernelComplete c) s = .next s))

/-- The kernels that compute on their core's own SRAM (MATMUL, CONV, ELEMENT, REDUCE, TRANSPOSE, TOPK, SCAN and the four phases of ATTN):
run on a core whose running kernel has their opcode, each completes its kernel's work, stores exactly the writes that
its operands, constants and descriptor give, and changes no other byte of any SRAM, no other core and, but for SCAN's watch record, no
device memory (R80, R84). -/
def Obligations.KernelWork : Prop :=
  ∀ (s : State) (c i : Nat) (st : StableRec) (k : Kernel), s.m.running = true → s.m.running? c = some (st, i, k) →
    let target := ((s.m.tensor? k.tensor).bind (fun t => Fmt.ofCode t.fmt)).getD .fp32
    ∀ e ∈ ([(.matmul c noEcc, .matmul, 0, kMatmul), (.conv c noEcc, .conv, 0, kConv), (.element c noEcc, .element, 0, kElement),
            (.reduce c noEcc, .reduce, 0, kReduce), (.transpose c noEcc, .transpose, 0, kTranspose), (.topk c noEcc, .topk, 0, kTopk),
            (.scan c noEcc, .scan, 0, fun rd k env => kScan rd k env target),
            (.attnForward c noEcc, .attn, 0, fun rd k env => (attnForward rd k env).res),
            (.attnMerge c noEcc, .attn, 1, fun rd k env => (attnMerge rd k env).res),
            (.attnBackward c noEcc, .attn, 2, fun rd k env => (attnBackward rd k env).res),
            (.attnKvGrad c noEcc, .attn, 3, fun rd k env => (attnKvGrad rd k env).res)] :
        List (Instr × KOp × Nat × (SramRead → Kernel → KEnv → KResult))),
      k.op = e.2.1 → (k.op = .attn → k.attnP.phase = e.2.2.1) → (k.op = .element → ((s.m.core c).elem.map (·.index)).getD 0 = 0) →
      let r := e.2.2.2 (s.m.sramRd c) k (s.m.kEnv (st.rank c) k)
      ∃ t, exec e.1 s = .next t ∧ (t.m.core c).done = true ∧ (t.m.core c).run = some i
        ∧ (∀ w ∈ r.writes, (r.writes.filter (fun x => x.1 == w.1)).length = 1 → t.m.mem.sram.get (c * sramSize + w.1) = w.2)
        ∧ s.m.sramKeeps t.m c (r.writes.map (·.1))
        ∧ (k.op ≠ .scan → (∀ d, d ≠ c → t.m.core d = s.m.core d) ∧ t.m.mem.hbm = s.m.mem.hbm ∧ t.m.mem.loft = s.m.mem.loft)

/-- The kernels that move rows (COPY, GATHER, SCATTER), meeting no error: each completes its kernel's work and writes only the space that
its operand C names; a row of one COPY reaches C as it stands in A, a poisoned byte as 0xFF; an index outside 0 to D2 − 1 selects no row,
GATHER writing zeros and SCATTER nothing, with IDX set and INDEX_RANGE raised (R89, R97). -/
def Obligations.KernelMoves : Prop :=
  ∀ (s : State) (c i : Nat) (st : StableRec) (k : Kernel), s.m.running = true → s.m.running? c = some (st, i, k) →
    (∀ e ∈ ([(.copy c noEcc, .copy), (.gather c noEcc, .gather), (.scatter c noEcc, .scatter)] : List (Instr × KOp)), k.op = e.2 →
      ∃ t, exec e.1 s = .next t ∧ (t.m.core c).done = true ∧ (t.m.core c).run = some i
        ∧ (k.c.space = .device → t.m.mem.sram = s.m.mem.sram)
        ∧ (k.c.space ≠ .device → t.m.mem.hbm = s.m.mem.hbm ∧ t.m.mem.loft = s.m.mem.loft)) ∧
    (k.op = .copy → k.d1 = 1 → k.a.space = .device → k.c.space = .sram →
      ∃ t, exec (.copy c noEcc) s = .next t ∧ ∀ x < k.d0,
        (t.m.sramByte c (k.c.base (st.rank c) + x)).1
          = (let b := s.m.byteAt (s.m.locate (k.a.base (st.rank c) + x)); if b.2 then 0xFF else b.1)) ∧
    (k.d0 = 1 → k.b.space = .sram → k.c.space = .sram → (k.op = .gather ∨ k.op = .scatter) →
      let ix := indexOf (s.m.sramRead c (k.b.base (st.rank c)) 4)
      ix.2 = false → (ix.1 < 0 ∨ (k.d2 : Int) ≤ ix.1) →
      ∃ t, exec (if k.op = .gather then .gather c noEcc else .scatter c noEcc) s = .next t
        ∧ t.m.fget Fld.CORE_VFLAGS_IDX c = 1
        ∧ (t.m.reports .contained 0x0401 c i 0 (leNat (rdBytes (s.m.sramRead c (k.b.base (st.rank c)) 4))))
        ∧ (k.op = .scatter → t.m.mem.sram.cells = s.m.mem.sram.cells)
        ∧ (k.op = .gather → ∀ x < k.d1, (t.m.sramByte c (k.c.base (st.rank c) + x)).1 = 0))

/-- A stable reset (R96), by CORE_CTRL.STABLE_RESET or by the watchdog (R95): every core of the stable abandons its kernel, a self-test in
progress going on, its SRAM content is forgotten (its poison marks with it, the model's choice, log entry 9), the stable's frame state becomes END, other cores and all other memory stand, and STABLE_RESET is raised, with class
STEP and the verdict to become FAULT where the step's verdict is open. A request to a core in no stable has no effect; a TICKS of 0
disables the watchdog. The self-test of a core (R99): it starts only where the core is fenced or belongs to no stable of the active plate,
and destroys the core's SRAM content; a pass clears FENCED, a failure keeps or sets it and raises BIST_FAIL. -/
def Obligations.CoreResets : Prop :=
  (∀ (s : State) (c : Nat) (st : StableRec), s.m.stableOf c = some st →
    ∀ how, how = 0 ∧ s.m.answers (Reg.CORE_CTRL.addr c 0) = true ∨
      how = 1 ∧ s.m.running = true ∧ (s.m.core c).run.isSome = true ∧ s.m.fget Fld.CORE_WDOG_TICKS c ≠ 0
        ∧ s.m.fget Fld.CORE_WDOG_TICKS c < (s.m.core c).ticks ∧ s.m.anyHalted = false →
    ∃ t, exec (if how = 0 then .stableReset c else .kernelHang c) s = .next t
      ∧ (∀ d ∈ st.cores, t.m.core d = { CoreRun.rest with bist := (s.m.core d).bist } ∧ ∀ a < sramSize, (t.m.sramByte d a) = (t.m.mem.sram.undef (d * sramSize + a), false))
      ∧ (∀ d, d ∉ st.cores → t.m.core d = s.m.core d ∧ ∀ a < sramSize, t.m.sramByte d a = s.m.sramByte d a)
      ∧ t.m.mem.hbm = s.m.mem.hbm ∧ t.m.mem.loft = s.m.mem.loft
      ∧ (∀ x, s.m.stable? st.id = some x → x.st ≠ .fenced → t.m.stable? st.id = some { x with st := .fin, busy := false })
      ∧ s.m.reportsCause t.m .corrected 0x0403 c st.id how (s.m.fget Fld.GRM_STEP_STEP)) ∧
  (∀ (s : State) (c : Nat), s.m.stableOf c = none → exec (.stableReset c) s = .next s) ∧
  (∀ (s : State) (c : Nat), s.m.fget Fld.CORE_WDOG_TICKS c = 0 → exec (.kernelHang c) s = .next s) ∧
  (∀ (s : State) (c : Nat), s.m.answers (Reg.CORE_CTRL.addr c 0) = true → (s.m.core c).bist = false →
    (s.m.coreFencedBit c = true ∨ s.m.stableOf c = none) →
    ∃ t, exec (.coreBist c) s = .next t ∧ (t.m.core c).bist = true ∧ t.m.fget Fld.CORE_FENCE_BIST c = 1
      ∧ (∀ a < sramSize, t.m.sramByte c a = (t.m.mem.sram.undef (c * sramSize + a), false))
      ∧ t.m.mem.hbm = s.m.mem.hbm ∧ t.m.mem.loft = s.m.mem.loft) ∧
  (∀ (s : State) (c : Nat), s.m.coreFencedBit c = false → s.m.stableOf c ≠ none → exec (.coreBist c) s = .next s) ∧
  (∀ (s : State) (c : Nat), s.m.running = true → (s.m.core c).bist = true →
    (∃ t, exec (.bistComplete c none) s = .next t ∧ (t.m.core c).bist = false ∧ t.m.fget Fld.CORE_FENCE_BIST c = 2
      ∧ t.m.fget Fld.CORE_FENCE_FENCED c = 0 ∧ State.sameBut [.regs, .cores] s t) ∧
    (∀ part, ∃ t, exec (.bistComplete c (some part)) s = .next t ∧ (t.m.core c).bist = false ∧ t.m.fget Fld.CORE_FENCE_BIST c = 3
      ∧ t.m.fget Fld.CORE_FENCE_FENCED c = 1 ∧ t.m.reports .corrected 0x0407 c part 0 0))

/-! ### Element programs and number formats -/

/-- The instructions of an element program on a core (R164, R165; Table 07-5): each of the 25 but END acts on the element that the vector
unit holds in an ELEMENT kernel, once and with no branch, and changes nothing else. END (R164, R87): the element's outputs are stored;
while elements of the kernel are left the next one is loaded, every V register reading +0, and after the last one the kernel's work is
done. -/
def Obligations.CoreElementInstructions : Prop :=
  (∀ (s : State) (w : ElemWord) (c n : Nat) (st : StableRec) (k : Kernel) (x : Elem), s.m.running = true →
    s.m.running? c = some (st, n, k) → k.op = .element → (s.m.core c).elem = some x →
    let does : Instr → ElemOp → Prop := fun i op =>
      let y := x.exec ⟨op, w.dst, w.a, w.b, w.c, w.ftz, w.wide, w.nega⟩
      exec i s = .next { s with m := s.m.setCore c { s.m.core c with elem := some y } }
    does (.mov (.core c) w) .mov ∧ does (.add (.core c) w) .add ∧ does (.sub (.core c) w) .sub ∧ does (.mul (.core c) w) .mul ∧
    does (.fma (.core c) w) .fma ∧ does (.fms (.core c) w) .fms ∧ does (.div (.core c) w) .div ∧ does (.recip (.core c) w) .recip ∧
    does (.sqrt (.core c) w) .sqrt ∧ does (.rsqrt (.core c) w) .rsqrt ∧ does (.exp2 (.core c) w) .exp2 ∧ does (.log2 (.core c) w) .log2 ∧
    does (.tanh (.core c) w) .tanh ∧ does (.max (.core c) w) .max ∧ does (.min (.core c) w) .min ∧ does (.abs (.core c) w) .abs ∧
    does (.neg (.core c) w) .neg ∧ does (.sign (.core c) w) .sign ∧ does (.clamp (.core c) w) .clamp ∧ does (.cmplt (.core c) w) .cmplt ∧
    does (.cmpeq (.core c) w) .cmpeq ∧ does (.sel (.core c) w) .sel ∧ does (.cvt (.core c) w) .cvt ∧ does (.srnd (.core c) w) .srnd ∧
    does (.nacc (.core c) w) .nacc) ∧
  (∀ (s : State) (w : ElemWord) (c n : Nat) (st : StableRec) (k : Kernel) (x : Elem), s.m.running = true →
    s.m.running? c = some (st, n, k) → k.op = .element → (s.m.core c).elem = some x →
    (x.index + 1 < k.d0 →
      ∃ t y, exec (.elemEnd (.core c) w) s = .next t ∧ (t.m.core c).elem = some y ∧ y.index = x.index + 1
        ∧ y.v = List.replicate 16 Val.zero ∧ (t.m.core c).done = false
        ∧ (∀ d, d ≠ c → t.m.core d = s.m.core d) ∧ t.m.mem.hbm = s.m.mem.hbm ∧ t.m.mem.loft = s.m.mem.loft) ∧
    (k.d0 ≤ x.index + 1 →
      ∃ t, exec (.elemEnd (.core c) w) s = .next t ∧ (t.m.core c).elem = none ∧ (t.m.core c).done = true
        ∧ (∀ d, d ≠ c → t.m.core d = s.m.core d) ∧ t.m.mem.hbm = s.m.mem.hbm ∧ t.m.mem.loft = s.m.mem.loft))

/-- The instructions of an element program on a groom unit in its pass (R164, R165, R174): each of the 25 but END acts on the element that
the unit holds, once and with no branch, and changes nothing else; where the unit holds none yet, on the next element of the slice that
takes part, which it loads. END leaves the element, no other unit changed. -/
def Obligations.GroomElementInstructions : Prop :=
  (∀ (s : State) (w : ElemWord) (u : Nat) (ps : GPass) (g : Binding) (sl : SliceEnt) (v : GSlice), s.m.running = true →
    s.m.groomRuns = true → s.m.nextSlice u = some (ps, g, sl, v) →
    let does : Instr → ElemOp → Prop := fun i op =>
      let e : ElemInstr := ⟨op, w.dst, w.a, w.b, w.c, w.ftz, w.wide, w.nega⟩
      (∀ x, (s.m.groomUnit u).elem = some x → exec i s = .next { s with m := s.m.setPass u ps (some (x.exec e)) }) ∧
      (∀ (q : GPass) (m1 : Mod) (x : Elem), (s.m.groomUnit u).elem = none → s.m.heldOrLoaded u ps g sl v = (m1, q, some x) →
        ∃ t, exec i s = .next t ∧ (t.m.groomUnit u).elem = some (x.exec e) ∧ (t.m.groomUnit u).pass = some q
          ∧ t.m.mem = m1.mem ∧ t.m.regs = m1.regs ∧ (∀ d, d ≠ u → t.m.groomUnit d = m1.groomUnit d))
    does (.mov (.groom u) w) .mov ∧ does (.add (.groom u) w) .add ∧ does (.sub (.groom u) w) .sub ∧ does (.mul (.groom u) w) .mul ∧
    does (.fma (.groom u) w) .fma ∧ does (.fms (.groom u) w) .fms ∧ does (.div (.groom u) w) .div ∧ does (.recip (.groom u) w) .recip ∧
    does (.sqrt (.groom u) w) .sqrt ∧ does (.rsqrt (.groom u) w) .rsqrt ∧ does (.exp2 (.groom u) w) .exp2 ∧
    does (.log2 (.groom u) w) .log2 ∧ does (.tanh (.groom u) w) .tanh ∧ does (.max (.groom u) w) .max ∧ does (.min (.groom u) w) .min ∧
    does (.abs (.groom u) w) .abs ∧ does (.neg (.groom u) w) .neg ∧ does (.sign (.groom u) w) .sign ∧ does (.clamp (.groom u) w) .clamp ∧
    does (.cmplt (.groom u) w) .cmplt ∧ does (.cmpeq (.groom u) w) .cmpeq ∧ does (.sel (.groom u) w) .sel ∧ does (.cvt (.groom u) w) .cvt ∧
    does (.srnd (.groom u) w) .srnd ∧ does (.nacc (.groom u) w) .nacc) ∧
  (∀ (s : State) (w : ElemWord) (u : Nat) (ps : GPass) (g : Binding) (sl : SliceEnt) (v : GSlice), s.m.running = true →
    s.m.groomRuns = true → s.m.nextSlice u = some (ps, g, sl, v) →
    ∃ t, exec (.elemEnd (.groom u) w) s = .next t ∧ (t.m.groomUnit u).elem = none
      ∧ (∀ d, d ≠ u → t.m.groomUnit d = s.m.groomUnit d) ∧ t.m.cores = s.m.cores)

/-- What an element instruction that writes a V register leaves (R164 to R166): no other V register, no output and no accumulator changes;
a comparison with a NaN operand gives +0 and −0 equals +0; MAX of −0 and +0 gives +0 and MIN −0; SEL takes C where A is zero or NaN and B
elsewhere; SIGN of zero or NaN is A. -/
def Obligations.ElementResults : Prop :=
  ∀ (x : Elem) (i : ElemInstr), i.dst < 16 → x.v.length = 16 → i.op ≠ .nacc → i.op ≠ .eEnd →
    let a := x.opdA i
    let b := x.opd i.ftz i.b
    let c := x.opd i.ftz i.c
    let y := x.exec i
    let r := y.v.getD i.dst Val.zero
    (∀ j, j ≠ i.dst → y.v.getD j Val.zero = x.v.getD j Val.zero) ∧ y.outs = x.outs ∧ y.acc = x.acc ∧ y.ins = x.ins ∧
    ((i.op = .cmplt ∨ i.op = .cmpeq) → (a.isNan = true ∨ b.isNan = true) → r.isZero = true ∧ r.isNeg = false) ∧
    (i.op = .cmpeq → a.isZero = true → b.isZero = true → r.eqB Val.one = true) ∧
    (i.op = .max → a.isZero = true → b.isZero = true → a.isNeg ≠ b.isNeg → r.isZero = true ∧ r.isNeg = false) ∧
    (i.op = .min → a.isZero = true → b.isZero = true → a.isNeg ≠ b.isNeg → r.isZero = true ∧ r.isNeg = true) ∧
    (i.op = .sel → r = (roundInstr i.ftz i.wide (if a.isNan || a.isZero then c else b)).1) ∧
    (i.op = .sign → a.isZero = true → r.isZero = true ∧ r.isNeg = a.isNeg) ∧
    (i.op = .sign → a.isNan = true → r.isNan = true)

/-- E4M3 has no infinity; its exponent field 0b1111 holds normal values except 0x7F and 0xFF, which are NaN, and its largest finite
magnitude is 448 (R103). FP4 E2M1 has neither infinity nor NaN; its eight magnitudes are 0, 0.5, 1, 1.5, 2, 3, 4 and 6 in the order of
their codes (R104). -/
def Obligations.SmallFormats : Prop :=
  (∀ c < 256, (∀ neg, Fmt.e4m3.decode c ≠ .inf neg) ∧ ((Fmt.e4m3.decode c).isNan = true ↔ c = 0x7F ∨ c = 0xFF)
    ∧ (Val.ofNat 448).ltB (Fmt.e4m3.decode c).abs = false) ∧
  (Fmt.e4m3.decode 0x7E).eqB (Val.ofNat 448) = true ∧
  (∀ c < 16, (Fmt.fp4.decode c).isFin = true ∧ (Fmt.fp4.decode c).isNeg = decide (8 ≤ c)
    ∧ ((Fmt.fp4.decode c).abs.mul (Val.ofNat 2)).1.eqB (Val.ofNat ([0, 1, 2, 3, 4, 6, 8, 12].getD (c % 8) 0)) = true)

/-! ### Groom units -/

/-- A pass of a groom unit (R174, R176, R184): it starts once its WAIT barrier is complete, on a unit at rest and at most once in an
attempt; it takes the slices of the collective schedule in their order, one after another, the room they leave in the buffer letting the
deliveries held back go on; after the last one it ends, keeps its
results, counts as complete and gives its SIGNAL. -/
def Obligations.GroomPasses : Prop :=
  (∀ (s : State) (b : Nat) (g : Binding), s.m.running = true → s.m.groomRuns = true → s.m.binding? b = some g → s.m.lagOf g = 0 →
    (s.m.groomUnit g.unit).pass = none → b ∉ s.m.step.passesDone → s.m.waitDone g.wait = true → b ∉ s.m.groom.reconcile →
    ∃ t p, exec (.groomPassStart b) s = .next t ∧ (t.m.groomUnit g.unit).pass = some p ∧ p.binding = b ∧ p.taken = 0 ∧ p.pos = 0
      ∧ p.acc = [] ∧ b ∈ t.m.step.passesRun ∧ (∀ d, d ≠ g.unit → t.m.groomUnit d = s.m.groomUnit d)
      ∧ State.sameBut [.groom, .step] s t) ∧
  (∀ (s : State) (b : Nat) (g : Binding), s.m.binding? b = some g →
    ((s.m.groomUnit g.unit).pass.isSome = true ∨ b ∈ s.m.step.passesDone ∨ s.m.waitDone g.wait = false) →
    exec (.groomPassStart b) s = .next s) ∧
  (∀ (s : State) (u : Nat) (ecc : Ecc) (ps : GPass) (g : Binding) (e : SliceEnt) (sl : GSlice), s.m.running = true →
    s.m.groomRuns = true → s.m.nextSlice u = some (ps, g, e, sl) →
    ∃ t q, exec (.groomSliceProcess u ecc) s = .next t ∧ (t.m.groomUnit u).pass = some q ∧ q.binding = ps.binding
      ∧ q.taken = ps.taken + 1 ∧ q.pos = 0 ∧ (t.m.groomUnit u).elem = none
      ∧ (∀ y ∈ (s.m.groomUnit u).buffer, ¬(y.op = sl.op ∧ y.slice = sl.slice) → y ∈ (t.m.groomUnit u).buffer)
      ∧ (∀ d, d ≠ u → (t.m.groomUnit d).pass = (s.m.groomUnit d).pass ∧ (t.m.groomUnit d).elem = (s.m.groomUnit d).elem
          ∧ ∀ y ∈ (s.m.groomUnit d).buffer, y ∈ (t.m.groomUnit d).buffer)) ∧
  (∀ (s : State) (u : Nat) (ecc : Ecc) (ps : GPass) (g : Binding), s.m.running = true → s.m.groomRuns = true →
    (s.m.groomUnit u).pass = some ps → s.m.binding? ps.binding = some g → ps.taken = (s.m.slicesOf ps.binding).length → ps.applies = none →
    ∃ t r, exec (.groomPassComplete u ecc) s = .next t ∧ (t.m.groomUnit u).pass = none ∧ (t.m.groomUnit u).elem = none
      ∧ kvGet? (t.m.groomUnit u).results ps.binding = some r ∧ r.step = s.m.fget Fld.GRM_STEP_STEP
      ∧ ps.binding ∈ t.m.step.passesDone
      ∧ t.m.sched.sigs = s.m.sched.sigs ++ (if g.signal = 0xFFFF then [] else [g.signal])
      ∧ t.m.mem.sram = s.m.mem.sram)

/-! ### Steps and verdicts -/

/-- STEP_START (R179, R182): at a boundary, with a plate active that does not change there and no step in progress, an armed pair of the
next number with a size written since the last arming becomes current, unless the module is about to park: the step runs its first
attempt, the device keeps its number and size, and every port may raise CREDIT_WAIT again (R313). An armed pair of another number, or without a size it may reuse, is discarded with
STALE and STEPSZ_STALE; while a step is in progress nothing starts. -/
def Obligations.StepStarts : Prop :=
  ∀ (s : State) (num : Nat) (sz : Option Nat), s.m.running = true → s.m.step.armed = some (num, sz) →
    let next := (s.m.fget Fld.GRM_STEP_STEP + 1) % 2 ^ 32
    let refused : Nat → Prop := fun reason => ∃ t, exec .stepStart s = .next t ∧ t.m.step = { s.m.step with armed := none, armTick := none }
      ∧ t.m.fget Fld.GRM_STEP_STATUS_STALE = 1 ∧ t.m.reports .contained 0x0704 0 num (s.m.fget Fld.GRM_STEP_STEP) reason
      ∧ s.m.regsKeep [Reg.GRM_STEP_STATUS.base] t.m ∧ State.sameBut [.regs, .evIn, .host, .step] s t
    (s.m.atBoundary = true → s.m.plateActive = true → s.m.stepBusy = false → s.m.step.armTick ≠ some s.m.tick.count →
      s.m.plateChanges = false → s.m.pwr.parkReq = false → s.m.pwr.noSteps = false →
      let reuse := (s.m.plate?.map (·.cfg.reuse)).getD false = true ∧ s.m.fget Fld.GRM_STEP_STATUS_SZ_VALID = 1
      (num = next → (sz ≠ none ∨ reuse) →
        ∃ t h, exec .stepStart s = .next t ∧ t.m.step.phase = .run ∧ t.m.step.attempt = 0 ∧ t.m.step.start = s.m.tick.count
          ∧ t.m.step.armed = none ∧ t.m.step.verdict = none ∧ t.m.step.hist = (h :: s.m.step.hist).take 5 ∧ h.step = num
          ∧ h.size = sz.getD (s.m.fget Fld.GRM_STEPSZ_SZ) ∧ h.committed = false ∧ t.m.plt = s.m.plt ∧ t.m.mem = s.m.mem
          ∧ t.m.pwr.state = .active ∧ ∀ e ∈ t.m.fab.ports, e.2.creditRaised = false) ∧
      (num ≠ next → refused 0) ∧ (num = next → sz = none → ¬reuse → refused 1)) ∧
    (s.m.stepBusy = true ∨ s.m.plateActive = false ∨ s.m.atBoundary = false → exec .stepStart s = .next s)

/-- BARRIER_SIGNAL and STEP_TIMEOUT (R69, R70, R73): a signal in flight adds one to its barrier's count; one to a complete barrier is
BARRIER_OVERRUN and leaves the count; one to a barrier the plate does not declare is dropped. A step whose stables have not all reached
END after MAX_STEP_TICKS ticks raises STEP_TIMEOUT, and its verdict is to be FAULT. -/
def Obligations.SignalsAndTimeout : Prop :=
  (∀ (s : State) (b : Nat), s.m.running = true → b ∈ s.m.sched.sigs →
    let sigs := s.m.sched.sigs.erase b
    let count := kvGetD s.m.sched.barriers b 0
    (∀ n, s.m.barrierExpect b = some n → count + 1 < n →
      exec (.barrierSignal b) s
        = .next { s with m := { s.m with sched := { s.m.sched with sigs := sigs, barriers := kvSet s.m.sched.barriers b (count + 1) } } }) ∧
    (∀ n, s.m.barrierExpect b = some n → count + 1 = n →
      ∃ t, exec (.barrierSignal b) s = .next t ∧ t.m.barrierDone b = true ∧ kvGetD t.m.sched.barriers b 0 = n
        ∧ t.m.sched.stables = s.m.sched.stables) ∧
    (∀ n, s.m.barrierExpect b = some n → n ≤ count →
      ∃ t, exec (.barrierSignal b) s = .next t ∧ t.m.sched = { s.m.sched with sigs := sigs }
        ∧ s.m.reportsCause t.m .contained 0x0204 b n (s.m.fget Fld.GRM_STEP_STEP) 0 ∧ State.sameBut [.evIn, .sched, .step] s t) ∧
    (s.m.barrierExpect b = none → exec (.barrierSignal b) s = .next { s with m := { s.m with sched := { s.m.sched with sigs := sigs } } })) ∧
  (∀ (s : State) (p : Plate), s.m.running = true → s.m.atBoundary = true → s.m.framesRun = true → s.m.plate? = some p →
    0 < p.cfg.maxStepTicks → p.cfg.maxStepTicks ≤ s.m.step.ticks → s.m.step.cause = none →
    let late := s.m.sched.stables.filter (fun e => !e.2.ended && s.m.takesPart e.1)
    (late ≠ [] →
      ∃ t, exec .stepTimeout s = .next t ∧ State.sameBut [.evIn, .step] s t
        ∧ s.m.reportsCause t.m .contained 0x0701 0 (s.m.fget Fld.GRM_STEP_STEP) p.cfg.maxStepTicks late.length) ∧
    (late = [] → exec .stepTimeout s = .next s))

/-- Combining a child's record (R192): FAULT, MISMATCH and DISAGREE are taken over, counts and sums of squares added, run tags folded by
exclusive or, and the first cause is kept.
What the root makes of the combined record (R194): FAULT for a fault, a mismatch, a wrong count, disagreeing tags or a replay that
diverged; else SKIP for a norm that is not finite or above the ceiling; else the factor c, 1.0 where clipping is off or the norm within
CLIP_MAX, and the threshold over the norm rounded once elsewhere, with COMMIT on a replay, or where c meets the prediction by the mode
of the plate, and REPLAY elsewhere. -/
def Obligations.RecordsAndVerdict : Prop :=
  (∀ (self : Nat) (own child : RedRec),
      let r := RedRec.combine self own child
      let differs : Prop := (child.step, child.epoch, child.attempt) ≠ (own.step, own.epoch, own.attempt)
      (r.mismatch = true ↔ own.mismatch = true ∨ differs ∨ child.mismatch = true) ∧
      (r.disagree = true ↔ own.disagree = true ∨ child.expect ≠ own.expect ∨ child.disagree = true) ∧
      (r.fault = true ↔ own.fault = true ∨ child.fault = true ∨ child.mismatch = true) ∧
      (own.cause ≠ 0 → r.cause = own.cause ∧ r.source = own.source) ∧
      (own.cause = 0 → differs → r.cause = 0x0708 ∧ r.source = self) ∧
      (own.cause = 0 → ¬differs → child.fault = true → r.cause = child.cause ∧ r.source = child.source) ∧
      r.count = (own.count + child.count) % 2 ^ 32 ∧ r.sumsq = (roundFp64 ((fp64 own.sumsq).add (fp64 child.sumsq)).1).code ∧
      r.tag = own.tag ^^^ child.tag ∧ r.step = own.step ∧ r.attempt = own.attempt) ∧
  (∀ (m : Mod) (p : Plate) (r : RedRec), m.plate? = some p →
      let cfg := p.cfg
      let v := (m.formVerdict r).2
      let bad : Prop := r.fault = true ∨ r.mismatch = true ∨ r.count ≠ cfg.participants ∨ r.disagree = true ∨
        (r.expectSet = true ∧ r.tag ≠ r.expect) ∨ (r.attempt = 1 ∧ m.step.firstSumsq ≠ some r.sumsq)
      let g := (roundFp64 (fp64 r.sumsq).sqrt.1).code
      let skip : Prop := finite64 g = false ∨ (fp32 cfg.ceiling).ltB (fp64 g) = true
      let c := if (fp32 cfg.clipMax).isZero = true ∨ (fp32 cfg.clipMax).ltB (fp64 g) = false then 0x3F800000
               else (roundFp32 false ((fp32 cfg.clipMax).div (fp64 g)).1).code
      let pred := if cfg.mode = .unclipped then 0x3F800000 else m.fget Fld.GRM_CLIP_PRED_FACTOR
      (bad → v.kind = .fault) ∧
      (¬bad → skip → v.kind = .skip ∧ v.gnorm = g) ∧
      (¬bad → ¬skip → v.gnorm = g ∧ v.rootTick = m.tick.count ∧
        (r.attempt = 1 → v.kind = .commit ∧ v.clip = c) ∧
        (r.attempt ≠ 1 → cfg.mode = .tolerant →
          (withinTol cfg.tol c pred = true → v.kind = .commit ∧ v.clip = pred) ∧
          (withinTol cfg.tol c pred = false → v.kind = .replay ∧ v.clip = c)) ∧
        (r.attempt ≠ 1 → cfg.mode ≠ .tolerant → (c = pred → v.kind = .commit) ∧ (c ≠ pred → v.kind = .replay) ∧ v.clip = c)))

/-- The reduction (R188, R193 to R195, R197): the record is sent once the step's work is complete or at once on a cause of FAULT, and a
module that is its own root forms the verdict from it; a child's record is kept, and one with FAULT or MISMATCH makes the root form the
verdict at once; the root's verdict for the present attempt is taken, to be acted on in this tick's guard or in the next one's; with no
verdict after VERDICT_TICKS ticks the module takes FAULT and raises VERDICT_TIMEOUT. -/
def Obligations.ReductionAndVerdict : Prop :=
  (∀ (s : State), s.m.running = true → s.m.framesRun = true → s.m.step.verdict = none →
    (s.m.step.cause ≠ none ∨ s.m.stepWorkDone = true →
      ∃ t, exec .sendReductionRecord s = .next t ∧ t.m.step.phase = .await ∧ t.m.step.own = some s.m.ownRecord ∧ t.m.step.waitTicks = 0
        ∧ t.m.mem = s.m.mem ∧ t.m.sched = s.m.sched
        ∧ (s.m.isRoot = true → s.m.normChildren = [] → t.m.step.verdict = some (s.m.formVerdict s.m.ownRecord).2)) ∧
    (s.m.step.cause = none → s.m.stepWorkDone = false → exec .sendReductionRecord s = .next s)) ∧
  (∀ (s : State) (f : TFlit) (m1 : Mod), s.m.running = true → s.m.stepOpen = true → s.m.takeFlit isRecordFlit = some (f, m1) →
    let r := RedRec.ofBytes f.payload
    (s.m.oldRecord r = false → f.src ∈ s.m.normChildren →
      ∃ t, exec .normRecordReceived s = .next t ∧ (f.src, r) ∈ t.m.step.children
        ∧ (∀ c q, c ≠ f.src → ((c, q) ∈ t.m.step.children ↔ (c, q) ∈ s.m.step.children)) ∧ t.m.mem = s.m.mem
        ∧ (s.m.isRoot = true → r.fault = true ∨ r.mismatch = true → t.m.step.verdict.isSome = true)) ∧
    (s.m.oldRecord r = true → exec .normRecordReceived s = .next { s with m := m1 })) ∧
  (∀ (s : State) (f : TFlit) (m1 : Mod) (v : VerdictRec), s.m.running = true → s.m.stepOpen = true →
    s.m.takeFlit (fun f => f.type == 5 && !isRecordFlit f) = some (f, m1) → VerdictRec.ofBytes f.payload = some v →
    (RedRec.ofBytes f.payload).step = s.m.fget Fld.GRM_STEP_STEP → (RedRec.ofBytes f.payload).attempt = s.m.step.attempt →
    ∃ t, exec .verdictReceived s = .next t ∧ t.m.step.verdict = some v
      ∧ t.m.step.actTick = (if s.m.inGuard then (s.m.tick.count + 1) % 2 ^ 48 else s.m.tick.count)
      ∧ t.m.mem = s.m.mem ∧ t.m.sched = s.m.sched) ∧
  (∀ (s : State) (p : Plate), s.m.running = true → s.m.step.phase = .await → s.m.step.verdict = none → s.m.plate? = some p →
    (p.cfg.verdictTicks ≤ s.m.step.waitTicks →
      ∃ t v, exec .verdictTimeout s = .next t ∧ t.m.step.verdict = some v ∧ v.kind = .fault ∧ v.cause = 0x070A ∧ v.source = s.m.self
        ∧ t.m.reports .device 0x070A 0 (s.m.fget Fld.GRM_STEP_STEP) s.m.step.attempt p.cfg.verdictTicks
        ∧ State.sameBut [.evIn, .step, .fresh] s t) ∧
    (s.m.step.waitTicks < p.cfg.verdictTicks → exec .verdictTimeout s = .next s))

/-- VERDICT_ACTIONS (R195, R200, R201, R203; Table 08-5): in the guard due, the step's actions run. REPLAY keeps every bank, the ledger and
memory and raises STEP_REPLAYED; SKIP and FAULT flip nothing where no deferred pass ran, keep the ledger and what was recorded of the
step, end every stable and raise STEP_SKIPPED or STEP_FAULTED; COMMIT records the factor applied and makes the ledger entries of the
step's deferred bindings applicable. Every verdict but REPLAY releases the paddock. -/
def Obligations.VerdictActions : Prop :=
  ∀ (s : State) (ecc : Ecc) (v : VerdictRec), s.m.running = true → s.m.step.verdict = some v →
    (s.m.framesRun = true ∨ s.m.step.phase = .await) → s.m.step.actTick ≤ s.m.tick.count → s.m.writebacksOut = false →
    ∃ t, exec (.verdictActions ecc) s = .next t ∧ t.m.step.phase = .actions ∧ t.m.step.verdict = some v
      ∧ t.m.tick.count = s.m.tick.count
      ∧ (v.kind = .replay → t.m.plt = s.m.plt ∧ t.m.sched = s.m.sched ∧ t.m.mem = s.m.mem ∧ t.m.pad = s.m.pad
          ∧ t.m.step.ledger = s.m.step.ledger ∧ t.m.step.hist = s.m.step.hist
          ∧ t.m.reports .corrected 0x0705 0 (s.m.fget Fld.GRM_STEP_STEP) v.clip s.m.clipPred)
      ∧ (v.kind = .skip ∨ v.kind = .fault → t.m.step.ledger = s.m.step.ledger ∧ t.m.step.hist = s.m.step.hist
          ∧ (s.m.step.defRun = [] → t.m.plt = s.m.plt) ∧ (∀ e ∈ t.m.sched.stables, e.2.ended = true) ∧ t.m.coll.ops = [])
      ∧ (v.kind = .skip → ∃ n, t.m.reports .step 0x0706 0 n (lo32 v.gnorm) (hi32 v.gnorm))
      ∧ (v.kind = .fault → ∃ n, t.m.reports .step 0x0707 v.source n v.cause s.m.step.attempt)
      ∧ (v.kind = .commit →
          t.m.step.ledger = s.m.step.ledger
            ++ (s.m.bindings.filter (fun b => decide (0 < s.m.lagOf b.2))).map (fun b => (s.m.fget Fld.GRM_STEP_STEP, b.1))
          ∧ ∀ h rest, s.m.step.hist = h :: rest →
              t.m.step.hist = { h with clip := v.clip, committed := true, attempt := s.m.step.attempt } :: rest)
      ∧ (v.kind ≠ .replay → t.m.pad.insts = [])

/-- Deferred updates (R209 to R212, R184; R271 of 10_memory_tiers.md): DEFERRED_PASS begins or goes on with the committed step its lag
behind and works through ledger entries and elements for as long as their chunks are there; at the end, and where the pass is lost, the
step's entries for the binding leave the ledger; a lost pass raises DEFERRED_LOST with its reason, 0 a failed check and 1 poison, and
ends an open step with FAULT; no bank flips before the verdict. A first entry that fails its checks or is poisoned changes no memory. A
drain pass takes the oldest ledger entries in the same way, and the actions last until none is left. A reconcile copy ends the copy due of
its binding alone, and after the last one the step is over. That a pass works only on chunks in HBM is log entry 99. -/
def Obligations.DeferredUpdates : Prop :=
  (∀ (s : State) (b : Nat) (ecc : Ecc) (g : Binding) (st : StepHist) (ps : GPass), s.m.running = true → s.m.binding? b = some g →
    s.m.groomRuns = true →
    (let n := (s.m.fget Fld.GRM_STEP_STEP + 2 ^ 32 - s.m.lagOf g) % 2 ^ 32
     ((s.m.groomUnit g.unit).pass = none ∧ 0 < s.m.lagOf g ∧ s.m.histOf n = some st ∧ st.committed = true ∧ (n, b) ∈ s.m.step.ledger
        ∧ s.m.waitDone g.wait = true ∧ ps = .start b (some n))
      ∨ ((s.m.groomUnit g.unit).pass = some ps ∧ ps.binding = b ∧ ps.applies.bind s.m.histOf = some st)) →
    let env : PassEnv := ⟨st.step, st.size, st.bc1, st.bc2, 0x3F800000, false⟩
    let m1 := s.m.eccDev true (s.m.unitObjRanges g.unit) ecc
    let y := Mod.deferredSlices b g env st ((m1.slicesOf b).drop ps.taken) m1 ps
    ∃ t, exec (.deferredPass b ecc) s = .next t ∧ t.m.plt = s.m.plt ∧ t.m.mem = y.1.mem
      ∧ (y.2.2 = .waits → t.m.step.ledger = s.m.step.ledger ∧ (t.m.groomUnit g.unit).pass = some y.2.1)
      ∧ (y.2.2 = .whole → t.m.step.ledger = s.m.step.ledger.filter (fun e => e != (st.step, b)) ∧ b ∈ t.m.step.defRun
          ∧ (t.m.groomUnit g.unit).pass = none)
      ∧ (∀ reason, y.2.2 = .lost reason → t.m.step.ledger = s.m.step.ledger.filter (fun e => e != (st.step, b)) ∧ b ∈ t.m.step.defLost
          ∧ (t.m.groomUnit g.unit).pass = none ∧ t.m.reports .device 0x070B 0 g.tensor st.step reason
          ∧ (s.m.stepOpen = true → t.m.step.cause.isSome = true))) ∧
  (∀ (s : State) (b : Nat) (g : Binding) (st : StepHist) (op sl : Nat) (rest : List (Nat × Nat)) (e : SliceEnt) (p : Nat × Nat),
    s.m.running = true → s.m.binding? b = some g → s.m.groomRuns = true → (s.m.groomUnit g.unit).pass = none → 0 < s.m.lagOf g →
    let n := (s.m.fget Fld.GRM_STEP_STEP + 2 ^ 32 - s.m.lagOf g) % 2 ^ 32
    s.m.histOf n = some st → st.committed = true → (n, b) ∈ s.m.step.ledger → s.m.waitDone g.wait = true →
    s.m.slicesOf b = (op, sl) :: rest → s.m.sliceEnt? op sl = some e → s.m.ledgerAt g.tensor op sl st.step = some p →
    s.m.stateReady g.unit p.1 e.entryBytes = true →
    (s.m.entryRead g op sl e st = .bad →
      ∃ t, exec (.deferredPass b noEcc) s = .next t ∧ t.m.mem = s.m.mem ∧ t.m.reports .device 0x070B 0 g.tensor st.step 0) ∧
    (s.m.entryRead g op sl e st = .poisoned →
      ∃ t, exec (.deferredPass b noEcc) s = .next t ∧ t.m.mem = s.m.mem ∧ t.m.reports .device 0x070B 0 g.tensor st.step 1)) ∧
  (∀ (s : State) (ecc : Ecc) (n b : Nat) (rest : List (Nat × Nat)) (g : Binding) (st : StepHist) (ps : GPass), s.m.running = true →
    s.m.step.ledger = (n, b) :: rest → s.m.binding? b = some g → s.m.histOf n = some st → s.m.changePending = true →
    (s.m.step.phase = .idle ∨ s.m.step.phase = .actions) → (s.m.step.drainStep = none ∨ s.m.step.drainStep = some n) →
    s.m.unitsHalted = false →
    ((s.m.groomUnit g.unit).pass = none ∧ ps = .start b (some n)
      ∨ (s.m.groomUnit g.unit).pass = some ps ∧ ps.binding = b ∧ ps.applies = some n) →
    let env : PassEnv := ⟨st.step, st.size, st.bc1, st.bc2, 0x3F800000, false⟩
    let m0 : Mod := { s.m with step := { s.m.step with phase := .actions, draining := true, drainStep := some n } }
    let m1 := m0.eccDev true (m0.unitObjRanges g.unit) ecc
    let y := Mod.deferredSlices b g env st ((m1.slicesOf b).drop ps.taken) m1 ps
    ∃ t, exec (.drainPass ecc) s = .next t
      ∧ (y.2.2 = .waits → t.m.step.ledger = s.m.step.ledger ∧ (t.m.groomUnit g.unit).pass = some y.2.1 ∧ t.m.plt = s.m.plt)
      ∧ (y.2.2 ≠ .waits → t.m.step.ledger = rest.filter (fun e => e != (n, b)) ∧ (t.m.groomUnit g.unit).pass = none)
      ∧ (t.m.step.ledger ≠ [] → t.m.step.phase = .actions ∧ t.m.step.draining = true)) ∧
  (∀ (s : State) (ecc : Ecc) (b : Nat) (g : Binding), s.m.running = true → s.m.binding? b = some g → b ∈ s.m.groom.reconcile →
    ∃ t, exec (.reconcileCopy b ecc) s = .next t ∧ (∀ x, x ∈ t.m.groom.reconcile ↔ x ∈ s.m.groom.reconcile ∧ x ≠ b)
      ∧ kvGet? (t.m.groomUnit g.unit).touched b = none ∧ t.m.step.ledger = s.m.step.ledger ∧ t.m.plt = s.m.plt
      ∧ (s.m.groom.reconcile = [b] → s.m.step.draining = false → s.m.step.phase = .actions → s.m.step.actTick < s.m.tick.count →
          t.m.step.phase = .idle))

/-! ### Watches -/

/-- WATCH_PARTIAL_MERGE (R131, R132) of a declared tensor whose record reads unpoisoned: the record is written whole; with the
accumulation open for the partial's step its counts are added and the larger AMAX kept, a record DONE or of another step starts from
zero first, and when TOTAL reaches ELEMENTS the record completes, PREV_SCALE taking SCALE. -/
def Obligations.WatchMerge : Prop :=
  ∀ (s : State) (tensor : Nat) (part : List Byte) (d : TensorRec), s.m.running = true → s.m.hasWatch = true → s.m.tensor? tensor = some d →
    let a := Mod.watchMerge.regionBase s.m.regions .watch + 64 * tensor
    let r := WatchRec.ofBytes (rdBytes (s.m.devRead a 64))
    let p := WatchRec.ofBytes part
    (∀ i < 64, ∃ k < hbmSize, s.m.locate (a + i) = .hbm k) → rdPoison (s.m.devRead a 64) = false →
    let fresh : Bool := r.flags.testBit 0 || r.step != p.step
    let total := (if fresh then 0 else r.total) + p.total
    ∃ (t : State) (q : WatchRec), exec (.watchPartialMerge tensor part noEcc) s = .next t ∧ t.m.mem = (s.m.devWrite a q.bytes).mem
      ∧ (total < d.elements → q.total = total ∧ q.zeros = (if fresh then 0 else r.zeros) + p.zeros
          ∧ q.sats = (if fresh then 0 else r.sats) + p.sats ∧ q.nonfin = (if fresh then 0 else r.nonfin) + p.nonfin
          ∧ q.amax = (if fresh then p.amax else max r.amax p.amax) ∧ q.scale = r.scale ∧ q.step = (if fresh then p.step else r.step))
      ∧ (total = d.elements → q.total = total ∧ q.flags.testBit 0 = true ∧ q.prev = r.scale)
      ∧ (d.elements < total → q.total = (if fresh then 0 else r.total) ∧ q.scale = r.scale ∧ t.m.fget Fld.NUM_STICKY_OVERCOUNT = 1)

/-! ### Memory -/

/-- Host writes through BAR2 (R248, R259, R371): with no plate active a write to HBM stores exactly the bytes its enables select, at their
stack-linear addresses; with a plate active the bytes go to the live place of their address and, where its region is banked, to the
shadow as well; a write to an address the device cannot serve completes without effect (R247). A write to a slot that is LOADING stores
its bytes whatever plate is active (R43). -/
def Obligations.HostWrites : Prop :=
  ∀ (s : State) (off : Nat) (data : List (Option Byte)), s.m.bar2Up = true → off + data.length ≤ s.m.bar2Size →
    let a := s.m.bar2Base + off
    let stored : State → Prop := fun t =>
      (∀ i b, data[i]? = some (some b) → t.m.mem.hbm.get (a + i) = b) ∧ (∀ i, data[i]? = some none → t.m.mem.hbm.get (a + i) = s.m.mem.hbm.get (a + i))
        ∧ (∀ k, k < a ∨ a + data.length ≤ k → t.m.mem.hbm.get k = s.m.mem.hbm.get k) ∧ t.m.mem.loft = s.m.mem.loft
        ∧ t.m.mem.sram = s.m.mem.sram
    (s.m.plateActive = false → a + data.length ≤ slotBase → (∀ i, i < data.length → s.m.stackFailed (a + i) = false) →
      ∃ t, exec (.bar2Write off data noEcc none) s = .next t ∧ stored t) ∧
    (∀ slot, slotOf a = some slot → (s.m.plt.slot slot).st = .loading → (∀ i, i < data.length → s.m.stackFailed (a + i) = false) →
      ∃ t, exec (.bar2Write off data noEcc none) s = .next t ∧ stored t) ∧
    (slotOf a = none → s.m.bar2Void a = false → s.m.heldPort a data.length = none →
      let m1 := s.m.yard .host a data.length true
      let m2 := Mod.writeAt m1.bar2Loc m1 a data
      (s.m.shadowOf a = none → ∃ t, exec (.bar2Write off data noEcc none) s = .next t ∧ t.m.mem = m2.mem ∧ t.m.plt = s.m.plt) ∧
      (∀ y, s.m.shadowOf a = some y → s.m.bar2Void y = false → s.m.heldPort y data.length = none →
        ∃ t, exec (.bar2Write off data noEcc none) s = .next t ∧ t.m.mem = (Mod.writeAt m2.bar2Loc m2 y data).mem ∧ t.m.plt = s.m.plt)) ∧
    (slotOf a = none → s.m.bar2Void a = true → s.m.shadowOf a = none → exec (.bar2Write off data noEcc none) s = .next s)

/-- Host reads through BAR2 (R248, R371): with no plate active a read of HBM returns what is stored, 0xFF for the bytes of a poisoned
sector; with a plate active what stands at the live place of each address; an address the device cannot serve reads as all ones (R247). A
TLP with an ECRC error, or poisoned, changes nothing but for the AER status and HOST_TLP_ERR, and a read of that kind completes with
Completer Abort (R365); a request the device does not support changes nothing but the AER status and completes with Unsupported Request,
shown as an empty completion (R364; the places of the AER bits are the model's, log entry 86). -/
def Obligations.HostReads : Prop :=
  ∀ (s : State) (off : Nat), s.m.bar2Up = true → s.m.host.linkUp = true →
    let a := s.m.bar2Base + off
    (∀ n, off + n ≤ s.m.bar2Size →
      (s.m.plateActive = false → a + n ≤ hbmSize →
        ∃ t, exec (.bar2Read off n noEcc none) s = .next t ∧ t.m.mem = s.m.mem
          ∧ t.m.host.out = s.m.host.out ++ [.completion ((List.range n).map (fun i =>
              if s.m.mem.hbm.poison.contains ((a + i) / 64) || s.m.stackFailed (a + i) then 0xFF else s.m.mem.hbm.get (a + i)))]) ∧
      (s.m.bar2Void a = false → s.m.heldPort a n = none →
        ∃ t, exec (.bar2Read off n noEcc none) s = .next t ∧ t.m.mem = s.m.mem
          ∧ t.m.host.out = s.m.host.out ++ [.completion ((List.range n).map (fun i =>
              let x := s.m.byteAt (s.m.bar2Loc (a + i))
              if x.2 then 0xFF else x.1))]) ∧
      (s.m.plateActive = false → hbmSize ≤ a → a + n ≤ loftBase →
        ∃ t, exec (.bar2Read off n noEcc none) s = .next t ∧ t.m.mem = s.m.mem
          ∧ t.m.host.out = s.m.host.out ++ [.completion (List.replicate n 0xFF)])) ∧
    (∀ (b : TlpBad) (ecc : Ecc),
      let noted : HostUnit := { s.m.host with aer := setAdd s.m.host.aer (aerBit b), aerHead := s.m.host.aerHead <|> some (tlpWords b).2 }
      let unsupported : Prop := ∃ h, b = .unsupported h
      (∀ data, ∃ t, exec (.bar2Write off data ecc (some b)) s = .next t ∧ t.m.host = noted
        ∧ (unsupported → State.sameBut [.host] s t)
        ∧ (¬unsupported → State.sameBut [.evIn, .host] s t ∧ t.m.reports .corrected 0x0D03 0 (tlpWords b).1 (tlpWords b).2 0)) ∧
      (∀ n, ∃ t, exec (.bar2Read off n ecc (some b)) s = .next t
        ∧ t.m.host = { noted with out := s.m.host.out ++ [tlpEnd b] }
        ∧ (unsupported → tlpEnd b = .completion [] ∧ State.sameBut [.host] s t)
        ∧ (¬unsupported → tlpEnd b = .abort ∧ State.sameBut [.evIn, .host] s t ∧ t.m.reports .corrected 0x0D03 0 (tlpWords b).1 (tlpWords b).2 0)))

/-- Errors in HBM (R250, R251, R253): a corrected one found by the patrol scrub is counted and raised and no byte changes; one not
corrected poisons its sector, is counted, keeps its address and is raised when first found and not again; a stack that stops answering
is FAILED, raises HBM_STACK_DOWN, and every read of it is poisoned. -/
def Obligations.HbmErrors : Prop :=
  (∀ (s : State) (k : Nat), s.m.running = true → s.m.fget Fld.HBM_SCRUB_HOURS ≠ 0 → k < hbmSize → s.m.stackFailed k = false →
    let st := k / stackSize
    (∃ t, exec (.patrolScrub ⟨[k], [], [], []⟩) s = .next t ∧ t.m.mem = s.m.mem
      ∧ t.m.fget Fld.HBM_ECC_CE st = min (s.m.fget Fld.HBM_ECC_CE st + 1) Fld.HBM_ECC_CE.max
      ∧ t.m.reports .corrected 0x0901 st (lo32 (k % stackSize)) (hi32 (k % stackSize)) 0) ∧
    (s.m.mem.hbm.poison.contains (k / 64) = false →
      ∃ t, exec (.patrolScrub ⟨[], [k], [], []⟩) s = .next t ∧ t.m.mem = { s.m.mem with hbm := s.m.mem.hbm.mark (k / 64) }
        ∧ t.m.fget Fld.HBM_ECC_UE st = min (s.m.fget Fld.HBM_ECC_UE st + 1) Fld.HBM_ECC_UE.max
        ∧ t.m.get64 Fld.HBM_UE_ADDR_LO_ADDR Fld.HBM_UE_ADDR_HI_ADDR st = k / 64 * 64
        ∧ t.m.reports .contained 0x0902 st (lo32 (k / 64 * 64 % stackSize)) (hi32 (k / 64 * 64 % stackSize)) (s.m.fget Fld.GRM_STEP_STEP)) ∧
    (s.m.mem.hbm.poison.contains (k / 64) = true → exec (.patrolScrub ⟨[], [k], [], []⟩) s = .next s)) ∧
  (∀ (s : State) (ecc : Ecc), s.m.fget Fld.HBM_SCRUB_HOURS = 0 → exec (.patrolScrub ecc) s = .next s) ∧
  (∀ (s : State) (st : Nat) (training : Bool), s.m.running = true → st < 12 →
    (s.m.fget Fld.HBM_STACK_STATUS_STATE st ≠ 4 →
      ∃ t, exec (.hbmStackDown st training) s = .next t ∧ t.m.fget Fld.HBM_STACK_STATUS_STATE st = 4
        ∧ t.m.reports .device 0x0903 st (if training then 0 else 1) 0 0 ∧ (∀ k, k / stackSize = st → (t.m.byteAt (.hbm k)).2 = true)
        ∧ State.setsAndRaises [Reg.HBM_STACK_STATUS.addr st 0] s t) ∧
    (s.m.fget Fld.HBM_STACK_STATUS_STATE st = 4 → exec (.hbmStackDown st training) s = .next s))

/-- CXL ports (R262, R264, R265): a port that loses its link trains again with its requests held and raises LOFT_LINK_DOWN; with the link
back it is UP, and the held requests have been reissued; lost for good it is DOWN, held reads complete poisoned, held writes are
discarded and LOFT_LINK_LOST is raised; a retrain brings it UP with VIRAL clear and reissues what it held; poison marks its sector; a
viral port reads poisoned throughout; an expander event is raised; an expander added while a plate is active waits for the deactivation;
one removed while a plate is active takes its link down, and with no plate active its capacity is gone (removal as EXPANDER_HOT_ADD of
capacity 0 is the model's choice, log entry 98). -/
def Obligations.LoftPorts : Prop :=
  (∀ (s : State) (c : Nat), s.m.running = true → c < 4 →
    let up : Prop := s.m.fget Fld.LFT_PORT_STATUS_STATE c = 3
    let p := s.m.loftPort c
    (up → ∀ held, ∃ t, exec (.loftLinkDown c held) s = .next t ∧ t.m.fget Fld.LFT_PORT_STATUS_STATE c = 2
      ∧ t.m.loftPort c = { p with held := held } ∧ t.m.fget Fld.LFT_PORT_ERR_LINK_DOWN c = 1
      ∧ t.m.reports .contained 0x0A01 c held.length 0 0 ∧ t.m.mem.loft = s.m.mem.loft ∧ t.m.mem.hbm = s.m.mem.hbm) ∧
    (s.m.fget Fld.LFT_PORT_STATUS_STATE c = 2 →
      (∃ t out, exec (.loftLinkReturn c) s = .next t ∧ t.m.fget Fld.LFT_PORT_STATUS_STATE c = 3 ∧ (t.m.loftPort c).held = []
        ∧ t.m.host.out = s.m.host.out ++ out ∧ out.length = (p.held.filter isHeldRead).length ∧ t.m.mem.hbm = s.m.mem.hbm) ∧
      (∀ (a : Nat) (data : List Byte), p.held = [.write a (data.map some)] → a + data.length ≤ loftPortSize → p.lost = false →
        ∃ t, exec (.loftLinkReturn c) s = .next t
          ∧ (∀ i b, data[i]? = some b → t.m.mem.loft.get (c * loftPortSize + a + i) = b)
          ∧ (∀ k, k < c * loftPortSize + a ∨ c * loftPortSize + a + data.length ≤ k → t.m.mem.loft.get k = s.m.mem.loft.get k)) ∧
      (∃ t, exec (.loftLinkLost c) s = .next t ∧ t.m.fget Fld.LFT_PORT_STATUS_STATE c = 1
        ∧ t.m.loftPort c = { p with held := [], lost := true } ∧ t.m.fget Fld.LFT_PORT_ERR_LINK_LOST c = 1
        ∧ t.m.host.out = s.m.host.out ++ p.held.filterMap (fun q => match q with
            | .read _ n => some (Out.completion (List.replicate n 0xFF)) | .write .. => none)
        ∧ (s.m.reportsCause t.m .contained 0x0A02 c (p.held.filter isHeldRead).length
            (p.held.length - (p.held.filter isHeldRead).length) 0)
        ∧ t.m.mem.loft = s.m.mem.loft ∧ t.m.mem.hbm = s.m.mem.hbm)) ∧
    (up → ∀ addr, (∃ t, exec (.loftPoison c addr false) s = .next t ∧ t.m.reports .contained 0x0A03 c (lo32 addr) (hi32 addr) 0
        ∧ (t.m.byteAt (.loft (c * loftPortSize + addr))).2 = true ∧ t.m.fget Fld.LFT_PORT_ERR_POISON c = 1
        ∧ t.m.mem.loft.cells = s.m.mem.loft.cells) ∧
      (∃ t, exec (.loftPoison c addr true) s = .next t ∧ (s.m.reportsCause t.m .contained 0x0A03 c (lo32 addr) (hi32 addr) 0)
        ∧ (t.m.byteAt (.loft (c * loftPortSize + addr))).2 = true)) ∧
    (up → ∃ t, exec (.loftViral c) s = .next t ∧ t.m.reports .device 0x0A04 c 0 0 0 ∧ t.m.fget Fld.LFT_PORT_ERR_VIRAL c = 1
      ∧ (∀ k, k / loftPortSize = c → (t.m.byteAt (.loft k)).2 = true)) ∧
    (up → ∀ log head, ∃ t, exec (.loftDevEvent c log head) s = .next t ∧ t.m.reports .corrected 0x0A05 c log head 0
      ∧ t.m.fget Fld.LFT_PORT_ERR_DEV_EVENT c = 1 ∧ State.setsAndRaises [Reg.LFT_PORT_ERR.addr c 0] s t) ∧
    (s.m.loftDisabled c = false → p.capacity = 0 → ∀ cap width speed ok, cap ≠ 0 →
      (s.m.plateActive = true → ¬up →
        exec (.expanderHotAdd c cap width speed ok) s
          = .next { s with m := s.m.setLoftPort c { p with due := some (cap, width, speed, ok) } }) ∧
      (s.m.plateActive = false → ∃ t, exec (.expanderHotAdd c cap width speed ok) s = .next t ∧ t.m.loftCap c = (if ok then cap else 0)
        ∧ t.m.fget Fld.LFT_PORT_STATUS_STATE c = (if ok then 3 else 4))) ∧
    (s.m.loftDisabled c = false → p.capacity ≠ 0 → p.due = none → ∀ width speed ok,
      (s.m.plateActive = true → up →
        ∃ t, exec (.expanderHotAdd c 0 width speed ok) s = .next t ∧ t.m.fget Fld.LFT_PORT_STATUS_STATE c = 1
          ∧ t.m.loftPort c = { p with due := some (0, width, speed, ok) } ∧ t.m.reports .contained 0x0A01 c p.held.length 0 0
          ∧ t.m.fget Fld.LFT_PORT_ERR_LINK_DOWN c = 1) ∧
      (s.m.plateActive = false →
        ∃ t, exec (.expanderHotAdd c 0 width speed ok) s = .next t ∧ t.m.loftCap c = 0 ∧ t.m.fget Fld.LFT_PORT_STATUS_STATE c = 1))) ∧
  (∀ (s : State) (c width speed : Nat), s.m.answers Reg.LFT_CTRL.base = true → c < 4 → s.m.loftDisabled c = false →
    (s.m.loftPort c).capacity ≠ 0 → (s.m.loftPort c).refused = false → (s.m.loftPort c).due = none →
    let st := s.m.fget Fld.LFT_PORT_STATUS_STATE c
    ∃ t, exec (.loftRetrain c width speed) s = .next t ∧ t.m.fget Fld.LFT_PORT_STATUS_VIRAL c = 0
      ∧ t.m.fget Fld.LFT_PORT_STATUS_STATE c = (if width = 0 then (if st = 3 then 2 else st) else 3)
      ∧ t.m.loftPort c = (if width = 0 then s.m.loftPort c else { s.m.loftPort c with lost := false, held := [] }))

/-- Pool objects (R267 to R271): a move-up request pins a resident object, cancels an eviction whose write-back has not started, waits for
one that has, and takes free pages for an absent object, which is then being read or, for a chunk that no input shares, resident at
once; an unpin takes one pin, the last one of a written deferred object starting its write-back; a read that completes leaves the object
resident; a write-back that completes frees its pages; a request that has waited too long, no page being evictable, is withdrawn with
POOL_EXHAUSTED. That an object created without a read holds no old poison is the model's choice (log entry 99). -/
def Obligations.PoolObjects : Prop :=
  (∀ (s : State) (home user : Nat) (w : PoolWant), s.m.running = true → s.m.chunksFull home user = false → s.m.poolWant home user = some w →
    (∀ o, s.m.poolObj? home = some o →
      (o.st = .hbm ∨ o.st = .movingUp →
        exec (.poolMoveUp home user) s = .next { s with m := s.m.setObj home { o with pins := o.pins + 1, age := 0 } }) ∧
      (o.st = .evicting → o.wbStarted = false →
        ∃ t, exec (.poolMoveUp home user) s = .next t ∧ t.m.pool = (s.m.setObj home { o with st := .hbm, pins := o.pins + 1, age := 0 }).pool
          ∧ t.m.fget Fld.LFT_POOL_CANCEL_COUNT = min (s.m.fget Fld.LFT_POOL_CANCEL_COUNT + 1) Fld.LFT_POOL_CANCEL_COUNT.max
          ∧ State.sameBut [.regs, .pool] s t) ∧
      (o.st = .evicting → o.wbStarted = true →
        exec (.poolMoveUp home user) s
          = .next { s with m := { s.m with pool := { s.m.pool with waits := s.m.pool.waits ++ [⟨home, user, 0⟩] } } })) ∧
    (s.m.poolObj? home = none → pagesFor w.size ≤ (s.m.freePages w.unit).length →
      ∃ t, exec (.poolMoveUp home user) s = .next t
        ∧ t.m.poolObj? home = some ⟨w.size, w.owner, w.unit, if w.create then .hbm else .movingUp, 1, 0, false, false,
            (s.m.freePages w.unit).take (pagesFor w.size)⟩
        ∧ (∀ p, p ∈ t.m.pool.free ↔ p ∈ s.m.pool.free ∧ p ∉ (s.m.freePages w.unit).take (pagesFor w.size))
        ∧ (∀ h, h ≠ home → t.m.poolObj? h = s.m.poolObj? h) ∧ t.m.pool.waits = s.m.pool.waits ∧ State.sameBut [.mem, .pool] s t
        ∧ (w.create = false → State.sameBut [.pool] s t))) ∧
  (∀ (s : State) (home user : Nat) (o : PoolObj), s.m.running = true → s.m.poolObj? home = some o → o.pins ≠ 0 → s.m.pool.waits = [] →
    (¬(o.pins = 1 ∧ o.dirty = true ∧ o.owner = 1) →
      exec (.poolUnpin home user) s = .next { s with m := s.m.setObj home { o with pins := o.pins - 1, age := 0 } }) ∧
    (o.pins = 1 → o.dirty = true → o.owner = 1 →
      ∃ t, exec (.poolUnpin home user) s = .next t
        ∧ t.m.poolObj? home = some { o with pins := 0, age := 0, st := .evicting, wbStarted := true } ∧ State.sameBut [.regs, .pool, .groom] s t)) ∧
  (∀ (s : State) (home : Nat) (ecc : Ecc) (o : PoolObj), s.m.running = true → s.m.poolObj? home = some o → s.m.heldPort home o.size = none →
    (o.st = .movingUp →
      ∃ t, exec (.moveUpComplete home ecc) s = .next t ∧ t.m.pool = (s.m.setObj home { o with st := .hbm }).pool ∧ t.m.sched = s.m.sched
        ∧ t.m.mem.sram = s.m.mem.sram) ∧
    (o.st = .evicting → o.wbStarted = true → s.m.pool.waits = [] →
      ∃ t, exec (.writebackComplete home ecc) s = .next t ∧ t.m.pool = (s.m.dropObj home).pool ∧ t.m.poolObj? home = none
        ∧ (∀ p ∈ o.pages, p ∈ t.m.pool.free) ∧ t.m.mem.sram = s.m.mem.sram)) ∧
  (∀ (s : State) (home user : Nat) (w : PoolWait) (want : PoolWant), s.m.running = true →
    s.m.pool.waits.find? (fun x => x.home == home && x.user == user) = some w → s.m.poolWant home user = some want →
    s.m.poolObj? home = none →
    (s.m.fget Fld.LFT_POOL_WAIT_TICKS ≤ w.ticks → s.m.evictOne want.unit = none →
      (s.m.freePages want.unit).length + s.m.queuedPages want.unit < pagesFor want.size →
      ∃ t, exec (.poolExhausted home user) s = .next t ∧ t.m.pool = { s.m.pool with waits := s.m.pool.waits.erase w }
        ∧ (s.m.reportsCause t.m .contained 0x0A06 user want.owner (pagesFor want.size) s.m.pool.free.length)
        ∧ State.sameBut [.evIn, .step, .pool] s t) ∧
    (w.ticks < s.m.fget Fld.LFT_POOL_WAIT_TICKS ∨ (s.m.evictOne want.unit).isSome = true →
      exec (.poolExhausted home user) s = .next s))

/-- STASH_PLACE (R157, R158, R160): a record's instance takes free pages of its region; where they do not suffice, a run of free pages of
POOL_LOFT unless NO_SPILL is set; where neither does, an eligible record's own layer is dropped in the micro-batch with STASH_DROPPED;
and where nothing may be dropped, STASH_EXHAUSTED is raised and every instance of the step is released. -/
def Obligations.PaddockPlacement : Prop :=
  ∀ (s : State) (stream : Nat) (d : StreamDesc) (r : PadRec), s.m.running = true → s.m.stream? stream = some d →
    s.m.padRec? d.winBase = some r → d.kind = .stash → s.m.streamsRun = true → s.m.framesRun = true → s.m.step.cause = none →
    (s.m.ctx stream).ahead = false → (s.m.ctx stream).next < d.tiles → s.m.tileWaitDone d (s.m.ctx stream).next = true →
    let mb := (s.m.ctx stream).next
    let key := padKey r.id mb
    let need := pagesFor d.tileBytes
    let range := padRange r.id s.m.padRegions 0
    let own := (s.m.pad.free.filter (fun p => decide (range.1 ≤ p) && decide (p < range.1 + range.2))).take need
    kvGet? s.m.pad.insts key = none →
    (own.length = need →
      ∃ t, exec (.stashPlace stream) s = .next t ∧ kvGet? t.m.pad.insts key = some ⟨.pages own, d.tileBytes, false⟩
        ∧ (∀ p, p ∈ t.m.pad.free ↔ p ∈ s.m.pad.free ∧ p ∉ own) ∧ (∀ k, k ≠ key → kvGet? t.m.pad.insts k = kvGet? s.m.pad.insts k)
        ∧ State.sameBut [.regs, .pad] s t) ∧
    (own.length ≠ need → r.noSpill = false → ∀ ps, freeRun s.m.pool.spillFree need = some ps →
      ∃ t, exec (.stashPlace stream) s = .next t ∧ kvGet? t.m.pad.insts key = some ⟨.spill ps, d.tileBytes, false⟩
        ∧ t.m.pad.spilled = s.m.pad.spilled + 1 ∧ (∀ p, p ∈ t.m.pool.spillFree ↔ p ∈ s.m.pool.spillFree ∧ p ∉ ps)
        ∧ State.sameBut [.pool, .pad] s t) ∧
    (own.length ≠ need → (r.noSpill = true ∨ freeRun s.m.pool.spillFree need = none) → r.eligible = true → s.m.dropOk r.layer mb = true →
      mb < 256 →
      ∃ t src i, exec (.stashPlace stream) s = .next t ∧ kvGet? t.m.pad.insts key = some i ∧ i.place = .dropped
        ∧ t.m.pad.dropped = s.m.pad.dropped + 1 ∧ t.m.reports .contained 0x0702 src r.layer mb (s.m.fget Fld.GRM_STEP_STEP)) ∧
    (own.length ≠ need → (r.noSpill = true ∨ freeRun s.m.pool.spillFree need = none) → r.eligible = false → s.m.dropKeys = [] →
      ∃ t, exec (.stashPlace stream) s = .next t ∧ t.m.pad.insts = []
        ∧ (s.m.reportsCause t.m .contained 0x0703 r.id r.layer mb need)
        ∧ t.m.fget Fld.HBM_PAD_EXHAUST_COUNT = min (s.m.fget Fld.HBM_PAD_EXHAUST_COUNT + 1) Fld.HBM_PAD_EXHAUST_COUNT.max)

/-! ### The fabric -/

/-- The states of a fabric port (R307, R308, R316, R321, R322, R327 to R329; Table 12-6): training frames and training from DOWN; a training
attempt that ends with lanes, after which the port's first CONTROL flit is due, without lanes, or with too long a delay, the half without
a failed lane being kept until a port reset; RETRAIN at half width keeping the retry buffer; what takes a port DOWN and with which cause,
PORT_DOWN being raised for one the plate names; a port reset. No other port's state changes. -/
def Obligations.FabricPortStates : Prop :=
  ∀ (s : State) (p : Nat), p < 64 →
    let x := s.m.port p
    let ends : Instr → PortState → Nat → Prop := fun c st cause =>
      ∃ t, exec c s = .next t ∧ (t.m.port p).st = st ∧ t.m.fget Fld.FAB_STATUS_CAUSE p = cause ∧ (t.m.port p).retry = []
        ∧ (∀ q, q ≠ p → (t.m.port q).st = (s.m.port q).st)
        ∧ (st = .down → x.st.carries = true → p ∈ s.m.activePorts → cause ≠ 8 →
            t.m.reports .contained 0x0B01 p cause PortState.down.code ((x.nbr.map (·.module)).getD 0) ∧ t.m.fget Fld.FAB_ERR_DOWN p = 1)
    let degraded : State → Nat → Nat → Prop := fun t lanes half => t.m.reports .contained 0x0B02 p lanes half 0 ∧ t.m.fget Fld.FAB_ERR_DEGRADED p = 1
    (s.m.running = true →
      (x.st = .down →
        exec (.probeTimer p) s = .next { s with m := (s.m.setPort p { x with probing := true, probeTicks := 0 }).emit (.trainFrame p) }) ∧
      (x.st = .down →
        ∃ t, exec (.signalDetected p) s = .next t
          ∧ t.m.port p = { x with st := .training, probing := false, attempts := 0, lanes := 0, nbr := none }
          ∧ (∀ q, q ≠ p → t.m.port q = s.m.port q)) ∧
      (x.st = .training → ∀ lanes failed delay,
        let bad := x.failedLanes ||| failed
        (keptHalf bad = none → ends (.trainingEnd p lanes failed delay) .failed 3) ∧
        (∀ half, keptHalf bad = some half →
          (lanes = 8 ∨ lanes = 4 → delay ≤ 500 →
            let y : Port := { x with lanes := if lanes = 8 ∧ bad = 0 then 8 else 4, half := half, failedLanes := bad, ctlDue := true }
            exec (.trainingEnd p lanes failed delay) s = .next { s with m := s.m.setPort p y }) ∧
          (lanes = 8 ∨ lanes = 4 → 500 < delay → ends (.trainingEnd p lanes failed delay) .failed 9) ∧
          (lanes ≠ 8 → lanes ≠ 4 → x.attempts < 2 →
            let y : Port := { x with attempts := x.attempts + 1, lanes := 0, ctlDue := false, nbr := none }
            exec (.trainingEnd p lanes failed delay) s = .next { s with m := s.m.setPort p y }) ∧
          (lanes ≠ 8 → lanes ≠ 4 → 2 ≤ x.attempts → ends (.trainingEnd p lanes failed delay) .failed 3))) ∧
      (x.st.carries = true → ∀ lanes why, lanes % 256 ≠ 0 →
        let bad := x.failedLanes ||| lanes
        (keptHalf bad = none → ends (.laneFailure p lanes why) .down 3) ∧
        (∀ half, keptHalf bad = some half →
          (x.lanes ≠ 4 →
            ∃ t, exec (.laneFailure p lanes why) s = .next t
              ∧ t.m.port p = { x with st := .retrain, lanes := 4, half := half, failedLanes := bad, ownMark := none, nbrMark := none }
              ∧ degraded t lanes half ∧ t.m.fget Fld.FAB_STATUS_CAUSE p = 3 ∧ (∀ q, q ≠ p → t.m.port q = s.m.port q)) ∧
          (x.lanes = 4 → exec (.laneFailure p lanes why) s = .next { s with m := s.m.setPort p { x with failedLanes := bad } }))) ∧
      (x.st = .retrain → ∀ seq,
        (p ∈ s.m.activePorts →
          ∃ t, exec (.retrainComplete p seq) s = .next t ∧ (t.m.port p).st = .active ∧ (t.m.port p).lanes = x.lanes
            ∧ (t.m.port p).retry = (x.acked seq).retry ∧ (t.m.port p).resend = (if (x.acked seq).retry = [] then none else some 0)
            ∧ (∀ q, q ≠ p → t.m.port q = s.m.port q)) ∧
        (p ∉ s.m.activePorts → ends (.retrainComplete p seq) .quarantine 10) ∧
        ends (.retrainTimeout p) .down 3) ∧
      (x.st.carries = true → ∀ cause, cause = 1 ∨ cause = 2 ∨ cause = 3 → ends (.portLinkLoss p cause) .down cause) ∧
      (x.st = .quarantine → ∀ cause, ∃ t, exec (.portLinkLoss p cause) s = .next t ∧ (t.m.port p).st = .down
        ∧ t.m.fget Fld.FAB_STATUS_CAUSE p = 1)) ∧
    (s.m.answers Reg.FAB_CTRL.base = true →
      (x.st.carries = true → ends (.portReset p) .down 8) ∧
      (x.st ≠ .disabled → ∃ t, exec (.portReset p) s = .next t ∧ (t.m.port p).st = .down ∧ (t.m.port p).failedLanes = 0))

/-- Flits received on a port (R310, R311, R314, R320, R331, R333, R334): one that fails its checks is refused with NAK and counted and takes
nothing with it; a good PAYLOAD flit of the next number is accepted by an ACTIVE port and acknowledged: a new one for this module waits
to be applied, a duplicate is counted and gives its buffer entry back, one for another module is forwarded with HOPS one less, or counted
where no choice qualifies or its HOPS are spent; one of another number is not taken and a NAK is sent at most once; a port in RETRAIN
takes none. -/
def Obligations.FlitsReceived : Prop :=
  ∀ (s : State) (p : Nat) (f : FlitIn), p < 64 → s.m.running = true →
    let x := s.m.port p
    (x.st = .quarantine ∨ x.st.carries = true → f.ok = false ∨ f.fec = true ∨ 3 < f.kind →
      ∃ t, exec (.flitReceived p f) s = .next t ∧ t.m.port p = { x with ackDue := some false } ∧ t.m.fab.inbox = s.m.fab.inbox
        ∧ t.m.fget Fld.FAB_CRC_COUNT p = min (s.m.fget Fld.FAB_CRC_COUNT p + 1) Fld.FAB_CRC_COUNT.max) ∧
    (f.ok = true → f.fec = false → f.kind = 1 → f.nak = false →
      (x.st = .active → f.seq = x.rxSeq →
        ∃ t, exec (.flitReceived p f) s = .next t ∧ (t.m.port p).rxSeq = (x.rxSeq + 1) % 4096 ∧ (t.m.port p).ackDue = some true
          ∧ (t.m.port p).nakSent = false ∧ (t.m.port p).st = x.st
          ∧ (∀ r, f.dest = s.m.self → f.type ≠ 6 → kvGet? s.m.fab.rx (flowKey f.src f.cls) = some r →
              let d := (f.e2e + 2 ^ 32 - r.cum % 2 ^ 32) % 2 ^ 32
              let dup : Prop := 2 ^ 31 ≤ d ∨ r.cum + d ∈ r.above ∨ d < flowWindow ∧ s.m.fab.waiting (flitTransport f) = true
              (d < flowWindow → ¬dup → t.m.fab.inbox = s.m.fab.inbox ++ [(p, flitTransport f)]) ∧
              (dup → t.m.fab.inbox = s.m.fab.inbox
                ∧ t.m.fget Fld.FAB_DUP_COUNT = min (s.m.fget Fld.FAB_DUP_COUNT + 1) Fld.FAB_DUP_COUNT.max
                ∧ kvGetD (t.m.port p).freed (f.cls * 2 + f.vl) 0 = kvGetD x.freed (f.cls * 2 + f.vl) 0 + 1))
          ∧ (f.dest ≠ s.m.self → t.m.fab.inbox = s.m.fab.inbox
              ∧ (1 < f.hops → ∀ c q act, s.m.choose (some p) f.dest = some (c, q, act) → (t.m.port q).queue = (s.m.port q).queue
                  ++ [{ flitTransport f with hops := f.hops - 1, vl := vlAfter act f.vl, via := some p }])
              ∧ (1 < f.hops → s.m.choose (some p) f.dest = none →
                  t.m.fget Fld.FAB_UNREACH_COUNT = min (s.m.fget Fld.FAB_UNREACH_COUNT + 1) Fld.FAB_UNREACH_COUNT.max)
              ∧ (f.hops ≤ 1 → t.m.fget Fld.FAB_TTL_COUNT = min (s.m.fget Fld.FAB_TTL_COUNT + 1) Fld.FAB_TTL_COUNT.max))) ∧
      (x.st = .active → f.seq ≠ x.rxSeq →
        ∃ t, exec (.flitReceived p f) s = .next t ∧ (t.m.port p).rxSeq = x.rxSeq ∧ t.m.fab.inbox = s.m.fab.inbox
          ∧ (t.m.port p).nakSent = x.nakSent ∧ (t.m.port p).ackDue = (if x.nakSent then x.ackDue else some false)) ∧
      (x.st = .retrain →
        ∃ t, exec (.flitReceived p f) s = .next t ∧ (t.m.port p).rxSeq = x.rxSeq ∧ t.m.fab.inbox = s.m.fab.inbox
          ∧ (t.m.port p).ackDue = x.ackDue))

/-- Flits sent on a port (R309, R312, R313, R315, R317, R320): each slot of a port that sends carries one flit of 256 bytes with its CRC,
with the acknowledgement due and, where a mark is due, the mark, whose phase and tick number are kept; a retry timeout sends the retry
buffer again and gives the port up after eight rounds; a long wait for credit is reported once; tests start and stop. -/
def Obligations.FlitsSent : Prop :=
  ∀ (s : State) (p : Nat), p < 64 →
    let x := s.m.port p
    (s.m.running = true →
      (∀ phase turn, (x.sends = true →
          ∃ t body, exec (.flitSlot p phase turn) s = .next t ∧ body.length = 248
            ∧ t.m.host.out = s.m.host.out ++ [.flit p (body ++ leBytes 8 (crc64 body))] ∧ (∀ q, q ≠ p → t.m.port q = s.m.port q)
            ∧ (x.st ≠ .training → (t.m.port p).st = x.st) ∧ (t.m.port p).ackDue = none ∧ (t.m.port p).markDue = false
            ∧ (x.markDue = true → (t.m.port p).ownMark = some ((phase : Int), s.m.tick.count))) ∧
        (x.sends = false → exec (.flitSlot p phase turn) s = .next s)) ∧
      (x.st = .active →
        (x.retry = [] → exec (.linkRetryTimeout p) s = .next s) ∧
        (x.retry ≠ [] → x.rounds < 8 →
          ∃ t, exec (.linkRetryTimeout p) s = .next t ∧ t.m.port p = { x with resend := some 0, rounds := x.rounds + 1 }
            ∧ t.m.fget Fld.FAB_REPLAY_COUNT p = min (s.m.fget Fld.FAB_REPLAY_COUNT p + 1) Fld.FAB_REPLAY_COUNT.max) ∧
        (x.retry ≠ [] → 8 ≤ x.rounds →
          ∃ t, exec (.linkRetryTimeout p) s = .next t ∧ (t.m.port p).st = .down ∧ t.m.fget Fld.FAB_STATUS_CAUSE p = 2)) ∧
      (∀ cls vl us, 100 < us → x.creditRaised = false → (∃ f ∈ x.queue, f.cls = cls ∧ f.vl = vl) → x.credit cls vl = 0 →
        ∃ t, exec (.creditWaitLong p cls vl us) s = .next t ∧ t.m.port p = { x with creditRaised := true }
          ∧ t.m.fget Fld.FAB_ERR_CREDIT_WAIT p = 1 ∧ t.m.reports .contained 0x0B05 p (cls + 4 * vl) us 0)) ∧
    (s.m.answers Reg.FAB_CTRL.base = true →
      (x.st = .quarantine ∨ x.st = .active →
        ∃ t, exec (.testStart p) s = .next t ∧ t.m.port p = { x with test := true } ∧ t.m.fget Fld.FAB_TEST_CNT_FLITS p = 0
          ∧ t.m.fget Fld.FAB_TEST_CNT_ERRORS p = 0) ∧
      exec (.testStop p) s = .next { s with m := s.m.setPort p { x with test := false } })

/-- What neighbours tell each other (R316 to R319, R321 to R323, R325, R326, R60, R63): CONTROL flits end the training of a port that has
sent its own, with PORT_DEGRADED at x4; they confirm an ACTIVE port under a plate of equal EPOCH and take it back to QUARANTINE otherwise,
with NBR_MISMATCH where the identity differs; a mark is recorded and its echo due, a mark of another period is reported once, one of
another count on the upstream port is reported under a plate and its count adopted without one; an echo for marks of one tick number
gives delay and offset, beyond 500 ns of delay the port fails and beyond 16 ns of offset an ACTIVE port returns to QUARANTINE with
PORT_SKEW. -/
def Obligations.NeighboursAndMarks : Prop :=
  ∀ (s : State) (p : Nat), p < 64 → s.m.running = true →
    let x := s.m.port p
    (∀ b : CtlRec,
      let y := { x with nbr := some b, loopback := b.module == s.m.self }
      (x.st = .quarantine → exec (.controlFlitReceived p b) s = .next { s with m := s.m.setPort p y }) ∧
      (x.st = .training → x.lanes ≠ 0 →
        (x.ctlDue = true → exec (.controlFlitReceived p b) s = .next { s with m := s.m.setPort p y }) ∧
        (x.ctlDue = false → ∃ t, exec (.controlFlitReceived p b) s = .next t ∧ t.m.port p = y.trained
          ∧ (x.lanes = 4 → t.m.reports .contained 0x0B02 p x.failedLanes x.half 0 ∧ t.m.fget Fld.FAB_ERR_DEGRADED p = 1))) ∧
      (∀ tab e, x.st = .active → s.m.routes = some tab → kvGet? tab.nbr p = some e →
        (e = (b.module, b.port) → b.state = 4 → b.active = true → b.epoch = s.m.epoch →
          ∃ t, exec (.controlFlitReceived p b) s = .next t ∧ t.m.port p = { y with confirmed := true } ∧ State.sameBut [.fab] s t) ∧
        (e = (b.module, b.port) → b.state ≠ 4 ∨ b.active = false ∨ b.epoch ≠ s.m.epoch →
          ∃ t, exec (.controlFlitReceived p b) s = .next t ∧ (t.m.port p).st = .quarantine ∧ (t.m.port p).confirmed = false
            ∧ t.m.fget Fld.FAB_STATUS_CAUSE p = 5) ∧
        (e ≠ (b.module, b.port) →
          ∃ t, exec (.controlFlitReceived p b) s = .next t ∧ (t.m.port p).st = .quarantine ∧ t.m.fget Fld.FAB_STATUS_CAUSE p = 6
            ∧ t.m.fget Fld.FAB_ERR_NBR_MISMATCH p = 1
            ∧ t.m.reports .contained 0x0B03 p (e.1 + 2 ^ 16 * e.2) (b.module + 2 ^ 16 * b.port) b.epoch))) ∧
    (∀ (arrival : Int) (phase count period : Nat), x.st = .quarantine ∨ x.st.carries = true ∨ x.st = .training →
      ∃ t, exec (.markReceived p arrival phase count period) s = .next t
        ∧ t.m.port p = { x with nbrMark := some (arrival, phase, count, period), echoDue := true }
        ∧ (period ≠ s.m.fget Fld.TCK_PERIOD_PERIOD_US → p ∉ s.m.tick.periodBad →
            t.m.reports .contained 0x0303 p period (s.m.fget Fld.TCK_PERIOD_PERIOD_US) 0)
        ∧ (period = s.m.fget Fld.TCK_PERIOD_PERIOD_US → count = s.m.nearBoundary →
            kvGetD t.m.tick.valid p 0 = kvGetD s.m.tick.valid p 0 + 1)
        ∧ (period = s.m.fget Fld.TCK_PERIOD_PERIOD_US → count ≠ s.m.nearBoundary → kvGetD t.m.tick.valid p 0 = 0
            ∧ (s.m.isUpstream p = true → s.m.plateActive = true → t.m.tick.aligned = false ∧ t.m.fget Fld.TCK_ERR_COUNT_MISMATCH = 1
                ∧ t.m.reports .device 0x0301 p (lo32 s.m.nearBoundary) (lo32 count) 0 ∧ t.m.tick.count = s.m.tick.count)
            ∧ (s.m.isUpstream p = true → s.m.plateActive = false → t.m.tick.adopt.isSome = true))) ∧
    (∀ (arrival ts ta : Int) (turn own phase count period : Nat), x.st = .quarantine ∨ x.st.carries = true ∨ x.st = .training →
      x.ownMark = some (ts, own) → x.nbrMark = some (ta, phase, count, period) →
      let delay := (arrival - ts - turn) / 2
      let off := ta - delay - phase
      (own ≠ count → exec (.echoReceived p arrival turn) s = .next { s with m := s.m.setPort p { x with ownMark := none } }) ∧
      (own = count → ∃ t, exec (.echoReceived p arrival turn) s = .next t
        ∧ (delay ≤ 500000 → off.natAbs ≤ 16000 → t.m.port p = { x with skew := some ((delay / 10).toNat, off / 10), ownMark := none })
        ∧ (500000 < delay → (t.m.port p).st = .failed ∧ t.m.fget Fld.FAB_STATUS_CAUSE p = 9)
        ∧ (delay ≤ 500000 → 16000 < off.natAbs → t.m.fget Fld.FAB_ERR_SKEW p = 1
            ∧ (t.m.reports .contained 0x0B04 p ((off / 10) % 2 ^ 32).toNat (delay / 10).toNat 0)
            ∧ (t.m.port p).st = (if x.st = .active then .quarantine else x.st))))

/-- End-to-end delivery and remote accesses (R249, R333 to R337): an acknowledgement ends the timeouts of its flow and takes what it covers
off those unacknowledged; one due is sent with the cumulative point; a timeout sends every unacknowledged flit again and the fourth in a
row gives the flow up with E2E_LOST, its remote reads complete and poisoned; a write reaches only PLAIN and SHED regions, poison as
poisoned sectors; a read is answered in flits of 192 bytes; an access of which R249 does not allow every sector is REMOTE_REFUSED and
writes nothing; a response is kept with the read its TAG names. An access that a loft port without link holds up waits (R264). -/
def Obligations.EndToEnd : Prop :=
  ∀ (s : State), s.m.running = true →
    (∀ f m1, s.m.takeFlit (fun f => f.type == 6) = some (f, m1) →
      let k := flowKey f.src (f.tag % 4)
      let w := kvGetD s.m.fab.tx k .rest
      (∃ g ∈ w.unacked, g.seq = f.addr % 2 ^ 32) →
      ∃ t, exec .e2eAck s = .next t ∧ (kvGetD t.m.fab.tx k .rest).timeouts = 0
        ∧ (s.m.stepOpen = false →
            let rest := (w.unacked.dropWhile (fun g => g.seq != f.addr % 2 ^ 32)).drop 1
            (kvGetD t.m.fab.tx k .rest).unacked = rest ++ w.waiting.take (flowWindow - rest.length)
              ∧ (kvGetD t.m.fab.tx k .rest).waiting = w.waiting.drop (flowWindow - rest.length))) ∧
    (∀ src cls,
      let k := flowKey src cls
      let r := kvGetD s.m.fab.rx k .rest
      (r.due = true → ∃ t, exec (.e2eAckDue src cls) s = .next t ∧ kvGet? t.m.fab.rx k = some { r with since := 0, due := false }
        ∧ (∀ c p act, s.m.choose none src = some (c, p, act) →
            ∃ f, (t.m.port p).queue = (s.m.port p).queue ++ [f] ∧ f.type = 6 ∧ f.dest = src ∧ f.tag = cls ∧ f.addr = (r.cum + 2 ^ 32 - 1) % 2 ^ 32)) ∧
      (r.due = false → exec (.e2eAckDue src cls) s = .next s)) ∧
    (∀ dest cls,
      let k := flowKey dest cls
      let w := kvGetD s.m.fab.tx k .rest
      (w.unacked = [] → exec (.e2eTimeout dest cls) s = .next s) ∧
      (∀ g rest, w.unacked = g :: rest →
        (w.timeouts < 3 → ∃ t, exec (.e2eTimeout dest cls) s = .next t ∧ kvGet? t.m.fab.tx k
            = some { w with unacked := w.unacked.map (fun f => { f with retx := true }), timeouts := w.timeouts + 1 }) ∧
        (3 ≤ w.timeouts → ∃ t, exec (.e2eTimeout dest cls) s = .next t
            ∧ kvGet? t.m.fab.tx k = some { w with unacked := [], waiting := [], timeouts := 0 } ∧ k ∈ t.m.fab.lostTo
            ∧ (s.m.reportsCause t.m .contained 0x0B08 0 dest cls g.seq)
            ∧ (∀ f ∈ w.unacked, f.type = 2 → ∀ r, kvGet? s.m.fab.reads f.tag = some r →
                ∃ q, kvGet? t.m.fab.reads f.tag = some q ∧ q.poisoned = true ∧ q.complete = true)))) ∧
    (∀ f m1, s.m.takeFlit (fun f => f.type == 1) = some (f, m1) →
      let data := f.payload.take f.len
      let allowed := (accessPoints f.addr f.len).all s.m.remoteWritable
      (allowed = true → (s.m.heldPort f.addr f.len).isSome = true → exec (.remoteWrite noEcc) s = .next s) ∧
      (allowed = false →
        ∃ t, exec (.remoteWrite noEcc) s = .next t ∧ t.m.mem = s.m.mem ∧ t.m.reports .contained 0x0904 f.src (lo32 f.addr) (hi32 f.addr) 1) ∧
      (allowed = true → s.m.heldPort f.addr f.len = none → f.poison = true →
        ∃ t, exec (.remoteWrite noEcc) s = .next t ∧ t.m.mem.hbm.cells = s.m.mem.hbm.cells ∧ t.m.mem.loft.cells = s.m.mem.loft.cells
          ∧ ∀ d, d = 0 ∨ d = 64 ∨ d = 128 → s.m.locate (f.addr + d) ≠ .reserved → (t.m.byteAt (t.m.locate (f.addr + d))).2 = true) ∧
      (allowed = true → s.m.heldPort f.addr f.len = none → f.poison = false →
        ∃ t, exec (.remoteWrite noEcc) s = .next t ∧ t.m.mem = ((m1.yard .fabric f.addr data.length true).devWrite f.addr data).mem)) ∧
    (∀ f m1 ecc, s.m.takeFlit (fun f => f.type == 2) = some (f, m1) →
      let n := leNat (f.payload.take 4)
      let allowed := (accessPoints f.addr n).all s.m.remoteReadable
      (allowed = true → (s.m.heldPort f.addr n).isSome = true → exec (.readReq ecc) s = .next s) ∧
      (allowed = false ∨ s.m.heldPort f.addr n = none →
        ∃ t, exec (.readReq ecc) s = .next t ∧ t.m.mem.hbm.cells = s.m.mem.hbm.cells ∧ t.m.mem.loft = s.m.mem.loft
          ∧ t.m.mem.sram = s.m.mem.sram
          ∧ (kvGetD t.m.fab.tx (flowKey f.src f.cls) .rest).next = (kvGetD s.m.fab.tx (flowKey f.src f.cls) .rest).next + (n + 191) / 192
          ∧ (allowed = false → t.m.reports .contained 0x0904 f.src (lo32 f.addr) (hi32 f.addr) 0))) ∧
    (∀ f m1, s.m.takeFlit (fun f => f.type == 3) = some (f, m1) →
      (∀ r, kvGet? s.m.fab.reads f.tag = some r →
        (r.complete = false →
          ∃ t, exec .readResp s = .next t ∧ kvGet? t.m.fab.reads f.tag
              = some { r with got := kvSet r.got f.addr ((f.payload.take f.len).map (fun b => (b, f.poison))), poisoned := r.poisoned || f.poison }
            ∧ State.sameBut [.regs, .evIn, .fab] s t) ∧
        (r.complete = true → exec .readResp s = .next { s with m := m1 })) ∧
      (kvGet? s.m.fab.reads f.tag = none → exec .readResp s = .next { s with m := m1 }))

/-! ### Collectives and streams -/

/-- The collective operations (R346, R347, R354 to R356, R359): one whose input barrier is complete is served: an EXCHANGE before the last
micro-batch accumulates and sends nothing; in the last one, and in each micro-batch of ROWS and ALLREDUCE, the slices are read, REL_BAR is
given and the operation goes on to its sums; a FENCE sends a token to every other member. One that is not ready does nothing. A COLL
flit of the present step and attempt joins its transfer, one of the next is kept, any other is counted stale; one whose turn has not
come waits while the reducer's buffer has no room for it (R344). -/
def Obligations.CollectiveOperations : Prop :=
  (∀ (s : State) (k : Nat) (ecc : Ecc) (o : CollOp), s.m.running = true →
    let mb := (s.m.opRun k).mb
    let rel : List Nat := (o.relBar.map (fun b => b + mb * o.barStride)).toList.filter (fun b => b != 0xFFFF)
    let served : State → Prop := fun t => (t.m.opRun k).st ≠ .waitInput ∨ (t.m.opRun k).mb = mb + 1
    (s.m.opReady k .exchange = some o →
      (mb < s.m.lastMb → ∃ t, exec (.exchange k ecc) s = .next t ∧ t.m.opRun k = { s.m.opRun k with mb := mb + 1 }
        ∧ t.m.sched.sigs = s.m.sched.sigs ++ rel ∧ t.m.fab = s.m.fab ∧ t.m.groom = s.m.groom) ∧
      (s.m.lastMb ≤ mb → ∃ t more, exec (.exchange k ecc) s = .next t ∧ (t.m.opRun k).st ≠ .waitInput ∧ k ∈ t.m.step.residRun
        ∧ t.m.sched.sigs = s.m.sched.sigs ++ rel ++ more)) ∧
    (s.m.opReady k .rows = some o → ∃ t more, exec (.rows k ecc) s = .next t ∧ (t.m.opRun k).st ≠ .waitInput
      ∧ t.m.sched.sigs = s.m.sched.sigs ++ rel ++ more) ∧
    (s.m.opReady k .allreduce = some o → ∃ t more, exec (.allreduce k ecc) s = .next t ∧ served t
      ∧ t.m.sched.sigs = s.m.sched.sigs ++ rel ++ more) ∧
    (s.m.opReady k .fence = some o → ∃ t, exec (.fence k) s = .next t ∧ served t
      ∧ ∀ i, i < o.size → i ≠ o.self →
          (kvGetD s.m.fab.tx (flowKey (o.members.getD i 0) 2) .rest).next < (kvGetD t.m.fab.tx (flowKey (o.members.getD i 0) 2) .rest).next) ∧
    (s.m.opReady k .exchange = none → exec (.exchange k ecc) s = .next s) ∧ (s.m.opReady k .rows = none → exec (.rows k ecc) s = .next s) ∧
    (s.m.opReady k .allreduce = none → exec (.allreduce k ecc) s = .next s) ∧ (s.m.opReady k .fence = none → exec (.fence k) s = .next s)) ∧
  (∀ (s : State) (ecc : Ecc) (p : Nat) (f : TFlit), s.m.running = true → s.m.fab.inbox = [(p, f)] →
    s.m.collNow (f.tag / 512 % 2 ^ 15) (f.tag / 256 % 2) = true ∨ s.m.collLater (f.tag / 512 % 2 ^ 15) (f.tag / 256 % 2) = true →
    s.m.collInTurn f = false → reducerSize < s.m.reducerBytes (s.m.reducerOf (f.addr % 2 ^ 16)) + f.len →
    exec (.collFlit ecc) s = .next s) ∧
  (∀ (s : State) (ecc : Ecc) (f : TFlit) (m1 : Mod), s.m.running = true → s.m.unitsHalted = false →
    s.m.takeFlit s.m.collTakes = some (f, m1) →
    let step := f.tag / 512 % 2 ^ 15
    let attempt := f.tag / 256 % 2
    let r := s.m.reducerOf (f.addr % 2 ^ 16)
    (s.m.collNow step attempt = true → ∃ t, exec (.collFlit ecc) s = .next t
      ∧ (m1.bufferFlit f).reducerBytes r ≤ kvGetD t.m.coll.high r 0) ∧
    (s.m.collNow step attempt = false → s.m.collLater step attempt = true → exec (.collFlit ecc) s = .next { s with m := m1.bufferFlit f }) ∧
    (s.m.collNow step attempt = false → s.m.collLater step attempt = false → ∃ t, exec (.collFlit ecc) s = .next t
      ∧ t.m.coll.xfers = s.m.coll.xfers ∧ t.m.coll.ops = s.m.coll.ops
      ∧ t.m.fget Fld.COL_STALE_COUNT = min (s.m.fget Fld.COL_STALE_COUNT + 1) Fld.COL_STALE_COUNT.max ∧ t.m.fget Fld.COL_ERR_STALE = 1))

/-- Stream contexts and engines (R280, R281, R287, R290, R291, R299, R302 to R305): a tile starts where its step, window and barrier allow,
its window filling; the oldest tile in flight is delivered once its bytes can be moved and no tile of a lower deadline has the yard port,
its window READY and its signal given; an etched one once its blocks are expanded; the expander takes one staged block, and one that fails its checks raises ETCH_BAD, one of an unknown generation TABLE_GONE; a decode table is loaded
into the slot that is not current, or refused; the slot of an accepted load becomes current at a tick boundary. -/
def Obligations.StreamsAndTables : Prop :=
  (∀ (s : State) (id : Nat) (d : StreamDesc) (ecc : Ecc), s.m.running = true → s.m.stream? id = some d →
    let c := s.m.ctx id
    (s.m.tilesMayBegin d c = true → s.m.tileWinFree d c.next = true → s.m.tileWaitDone d c.next = true → s.m.tilePlaced d c.next = true →
      c.pinsFull = false →
      ∃ t, exec (.streamTileStart id ecc) s = .next t
        ∧ (t.m.ctx id).flight.map (fun x => (x.tile, x.step)) = c.flight.map (fun x => (x.tile, x.step)) ++ [(c.next, s.m.tileStep c)]
        ∧ (∀ w, s.m.tileWindow d c.next = some w → (t.m.win w).st = .filling) ∧ t.m.sched = s.m.sched) ∧
    (s.m.tilesMayBegin d c = false ∨ s.m.tileWinFree d c.next = false ∨ s.m.tileWaitDone d c.next = false →
      exec (.streamTileStart id ecc) s = .next s) ∧
    (∀ r rest, s.m.streamsRun = true →
      let m0 := s.m.engineFetch (id / 16) ecc
      (m0.ctx id).flight = r :: rest →
      (d.expand = false ∧ r.phase ≠ 5 ∧ m0.portReady d r = true ∧ m0.portTaken d r = false
          ∧ (d.kind = .copy → s.m.remoteAddr (d.dstAt r.tile) = false))
        ∨ (d.kind = .stash ∧ ∃ i, kvGet? m0.pad.insts (padKey d.winBase r.tile) = some i ∧ i.place = .dropped)
        ∨ (d.kind = .fill ∧ d.expand = true ∧ m0.etchDone d r = true) →
      ∃ t, exec (.streamTileDelivered id ecc) s = .next t ∧ (t.m.ctx id).flight = rest
        ∧ (∀ w, s.m.tileWindow d r.tile = some w → (t.m.win w).st = .ready ∧ (t.m.win w).tile = r.tile ∧ (t.m.win w).step = r.step)
        ∧ t.m.sched.sigs = s.m.sched.sigs
            ++ ((d.signal.map (fun g => g + r.tile * d.signalStride)).toList.filter (fun b => b != 0xFFFF))) ∧
    (s.m.streamsRun = false → exec (.streamTileDelivered id ecc) s = .next s)) ∧
  (∀ (s : State) (e : Nat) (ecc : Ecc), s.m.running = true → s.m.streamsRun = true →
    let m1 := s.m.engineFetch e ecc
    (∀ j d, m1.pickJob e = some j → m1.stream? (16 * e + j.ctx) = some d →
      ∃ t, exec (.etchBlockExpand e ecc) s = .next t ∧ (t.m.engine e).staged = (m1.engine e).staged.erase j
        ∧ (∀ code, (m1.engine e).expand (m1.etchKey d.key) j = .bad code → m1.reportsCause t.m .contained 0x0802 d.id j.block code j.tile)
        ∧ ((m1.engine e).expand (m1.etchKey d.key) j = .gone →
            m1.reportsCause t.m .contained 0x0805 d.id j.block (blkGen (rdBytes j.data)) (m1.engine e).gens)) ∧
    (m1.pickJob e = none → exec (.etchBlockExpand e ecc) s = .next { s with m := m1 })) ∧
  (∀ (s : State) (e : Nat), s.m.answers Reg.STM_TBL_CMD.base = true → e < 64 →
    s.m.get64 Fld.STM_TBL_MASK_LO_MASK Fld.STM_TBL_MASK_HI_MASK = 2 ^ e →
    let a := s.m.get64 Fld.STM_TBL_ADDR_LO_ADDR Fld.STM_TBL_ADDR_HI_ADDR
    let b := (s.m.yard .stream a 144 false).devRead a 144
    let x := s.m.engine e
    let fault := if rdPoison b then some 0 else tableFault (rdBytes b)
    let gen := (tableOf (rdBytes b)).gen
    let same := (x.tab x.cur).any (fun q => q.gen == gen)
    let refusedMask := fun (t : State) => t.m.get64 Fld.STM_TBL_RESULT_LO_REFUSED Fld.STM_TBL_RESULT_HI_REFUSED
    (fault = none → same = false → x.refs (1 - x.cur) = 0 →
      ∃ t, exec (.decodeTableLoad noEcc) s = .next t ∧ (t.m.engine e).load = some (tableOf (rdBytes b)) ∧ (t.m.engine e).cur = x.cur
        ∧ (t.m.engine e).tab (1 - x.cur) = none ∧ refusedMask t = 0) ∧
    (∀ k, fault = some k → ∃ t, exec (.decodeTableLoad noEcc) s = .next t ∧ t.m.stm = s.m.stm ∧ refusedMask t = 2 ^ e
      ∧ t.m.fget Fld.STM_ERR_TABLE_BAD e = 1 ∧ t.m.reports .corrected 0x0803 e gen k 0) ∧
    (fault = none → same = false → 0 < x.refs (1 - x.cur) →
      ∃ t, exec (.decodeTableLoad noEcc) s = .next t ∧ t.m.stm = s.m.stm ∧ refusedMask t = 2 ^ e ∧ t.m.fget Fld.STM_ERR_TABLE_BUSY e = 1
        ∧ t.m.reports .corrected 0x0804 e (1 - x.cur) (x.refs (1 - x.cur)) 0)) ∧
  (∀ (s : State) (e : Nat), s.m.running = true →
    (∀ tab, (s.m.engine e).load = some tab → s.m.atBoundary = true →
      ∃ t, exec (.decodeTableSwitch e) s = .next t ∧ (t.m.engine e).cur = 1 - (s.m.engine e).cur ∧ (t.m.engine e).load = none
        ∧ (t.m.engine e).tab (1 - (s.m.engine e).cur) = some tab ∧ State.sameBut [.stm] s t) ∧
    ((s.m.engine e).load = none ∨ s.m.atBoundary = false → exec (.decodeTableSwitch e) s = .next s))

/-! ### Host port, resets, events -/

/-- HOST_LINK_TRAINED records width and speed, FLIT at 64 GT/s, and raises HOST_LINK_DEGRADED below Gen6 x8 (R362). DOE_REQUEST takes an
attestation object, answers DOE Discovery and a malformed request (BAD_REQUEST), and discards an object that is too long, of another
protocol, or that comes while one is served, with DOE Error; DOE_ABORT discards the object in progress (R379, R398). MCTP_CONTROL sets and
tells the endpoint ID (R380), I3C_ADDRESS_ASSIGN takes the bus owner's address (R477). PLDM_MONITORING answers telemetry and sets the cap
under the policy (R380, R382, R430). MSIX_UNMASK sends the messages that waited (R377); COALESCE_EXPIRY sends the one due, or ends the
interval (R378). -/
def Obligations.HostPortCommands : Prop :=
  (∀ (s : State) (width speed : Nat), s.m.mgUp = true → s.m.pwr.started = true → s.m.pwr.perst = false → width ∈ [1, 2, 4, 8] → 1 ≤ speed →
    speed ≤ 6 →
    ∃ t, exec (.hostLinkTrained width speed) s = .next t ∧ t.m.host = { s.m.host with linkUp := true }
      ∧ t.m.fget Fld.TOP_LINK_WIDTH = width ∧ t.m.fget Fld.TOP_LINK_SPEED = speed ∧ t.m.fget Fld.TOP_LINK_FLIT = (if speed = 6 then 1 else 0)
      ∧ State.sameBut [.regs, .evIn, .host] s t ∧ s.m.regsKeep [Reg.TOP_LINK.addr 0 0] t.m
      ∧ (width = 8 ∧ speed = 6 → t.m.evIn = s.m.evIn)
      ∧ (width ≠ 8 ∨ speed ≠ 6 → t.m.reports .corrected 0x0D01 0 (t.m.regs.read Reg.TOP_LINK 0 0) 0 0)) ∧
  (∀ (s : State) (protocol : Nat) (object : List Byte), s.m.mgUp = true → s.m.host.linkUp = true → s.m.pwr.perst = false →
    let code := (object.getD 1 0).toNat
    let req := leNat ((object.drop 2).take 2)
    let good := decide (object.getD 0 0 = 1) && attLen code == some object.length && leNat ((object.drop 4).take 4) == object.length
    ∃ t, exec (.doeRequest protocol object) s = .next t ∧ State.sameBut [.host] s t
      ∧ (16384 < object.length ∨ s.m.host.doe.busy ≠ none ∨ 1 < protocol → t.m.host = { s.m.host with doe := ⟨none, true⟩ })
      ∧ (object.length ≤ 16384 → s.m.host.doe.busy = none → protocol = 0 →
          Out.doe 0 (doeDiscovery (object.getD 0 0).toNat) ∈ t.m.host.out ∧ t.m.host.doe = s.m.host.doe)
      ∧ (object.length ≤ 16384 → s.m.host.doe.busy = none → protocol = 1 → good = true → t.m.host = { s.m.host with doe := ⟨some req, false⟩ })
      ∧ (object.length ≤ 16384 → s.m.host.doe.busy = none → protocol = 1 → good = false →
          Out.doe (code + 0x80) (attObject req code 2 0 []) ∈ t.m.host.out ∧ t.m.host.doe = s.m.host.doe)) ∧
  (∀ s : State, exec .doeAbort s = .next (s.on (fun m => { m with host := { m.host with doe := ⟨none, false⟩ } }))) ∧
  (∀ (s : State) (sideband : Bool) (e code : Nat), s.m.mctpUp sideband = true →
    let b := bindingCode sideband
    (∃ t, exec (.mctpControl sideband (.setEid e)) s = .next t ∧ kvGet? t.m.host.eids b = some (e % 256)
      ∧ (∀ k, k ≠ b → kvGet? t.m.host.eids k = kvGet? s.m.host.eids k)
      ∧ t.m.host.out = s.m.host.out ++ [.mctp b 0 (leBytes 1 0 ++ leBytes 1 (e % 256))] ∧ State.sameBut [.host] s t) ∧
    (∃ t, exec (.mctpControl sideband .getEid) s = .next t ∧ State.sameBut [.host] s t
      ∧ t.m.host = { s.m.host with out := s.m.host.out ++ [.mctp b 0 (leBytes 1 0 ++ leBytes 1 (kvGetD s.m.host.eids b 0))] }) ∧
    (∃ t, exec (.mctpControl sideband (.other code)) s = .next t ∧ State.sameBut [.host] s t
      ∧ t.m.host = { s.m.host with out := s.m.host.out ++ [.mctp b 0 (leBytes 1 5)] })) ∧
  (∀ (s : State) (addr : Nat), s.m.mgUp = true →
    exec (.i3cAddressAssign addr) s = .next (s.on (fun m => { m with host := { m.host with i3c := some addr } }))) ∧
  (∀ (s : State) (sideband : Bool) (sensor watts : Nat), s.m.mctpUp sideband = true →
    let b := bindingCode sideband
    let path := if sideband then Path.sideband else .vdm
    let refused := s.m.pathRefused path || (decide (1 ≤ watts % 4096) && decide (watts % 4096 ≤ 899))
    (∃ t, exec (.pldmMonitoring sideband (.readTemp sensor)) s = .next t ∧ State.sameBut [.host] s t
      ∧ t.m.host = { s.m.host with out := s.m.host.out ++ [.mctp b 1 (leBytes 1 0 ++ leBytes 2 (kvGetD s.m.pwr.temps sensor 0).toNat)] }) ∧
    (∃ t, exec (.pldmMonitoring sideband .readVoltage) s = .next t ∧ State.sameBut [.host] s t
      ∧ t.m.host = { s.m.host with out := s.m.host.out ++ [.mctp b 1 (leBytes 1 0 ++ leBytes 2 (s.m.fget Fld.PWR_INPUT_MV))] }) ∧
    (∃ t, exec (.pldmMonitoring sideband (.setCap watts)) s = .next t ∧ t.m.fget Fld.PWR_CAP_WATTS = s.m.fget Fld.PWR_CAP_WATTS
      ∧ (refused = false → kvGet? t.m.regs.pend (Reg.PWR_CAP.addr 0 0) = some (watts % 4096))
      ∧ (refused = true → t.m.regs.pend = s.m.regs.pend)
      ∧ t.m.host = { s.m.host with out := s.m.host.out ++ [.mctp b 1 (leBytes 1 (if refused then 2 else 0))] })) ∧
  (∀ (s : State) (v addr data : Nat), v < 128 →
    (∃ t, exec (.msixUnmask (.entry v addr data)) s = .next t ∧ State.sameBut [.host] s t ∧ kvGet? t.m.host.entries v = some ⟨addr, data, false⟩
      ∧ (s.m.host.msixEnable = true → s.m.host.funcMask = false → v ∈ s.m.host.pba → Out.msix v addr data ∈ t.m.host.out ∧ v ∉ t.m.host.pba)) ∧
    (∃ t, exec (.msixUnmask .function) s = .next t ∧ State.sameBut [.host] s t ∧ t.m.host.msixEnable = true ∧ t.m.host.funcMask = false
      ∧ (kvGet? s.m.host.entries v = some ⟨addr, data, false⟩ → v ∈ s.m.host.pba → Out.msix v addr data ∈ t.m.host.out ∧ v ∉ t.m.host.pba)
      ∧ ((kvGetD s.m.host.entries v .reset).mask = true → (v ∈ t.m.host.pba ↔ v ∈ s.m.host.pba)))) ∧
  (∀ (s : State) (cls : Nat), ∃ t, exec (.coalesceExpiry cls) s = .next t ∧ State.sameBut [.host] s t ∧ cls ∉ t.m.host.coalDue
    ∧ (cls ∈ s.m.host.coalDue → t.m.host.coalOpen = s.m.host.coalOpen
        ∧ ∀ addr data, s.m.host.msixEnable = true → s.m.host.funcMask = false → kvGet? s.m.host.entries cls = some ⟨addr, data, false⟩ →
            t.m.host.out = s.m.host.out ++ [.msix cls addr data])
    ∧ (cls ∉ s.m.host.coalDue → cls ∉ t.m.host.coalOpen ∧ t.m.host.out = s.m.host.out))

/-- The resets. FLR, a hot reset and DL_DOWN are function resets of cause 4 with sources 9, 10, 11 (R366): an open step faults with code
0x0707, jobs, streams, collectives and pins end, core SRAM is undefined, registers of that level default and no other changes, MSI-X and
the DOE object go (R376, R377, R379), and plate, tick, power and device memory stand (R443); DL_DOWN also raises HOST_LINK_DOWN. While a
reset runs they are absorbed (R440). SOFT_RESET and FWU_ACTIVATE clear what Table 17-7 says and end in IDLE, or in SLEEP where they found the
module there (R442, R450; log entry 104); the first needs the key of BAR0 and a path the policy allows (R382), the second an ended session and no active plate (R419). PERST_ASSERT holds a
fundamental reset, or only the host port before its release (R441), or enters OFF (R449); PERST_DEASSERT ends it. POWER_APPLIED runs a
cold reset and raises what the tail kept for it (R434, R438); SUPPLY_RESET_ASSERT and THERMTRIP begin one and write the tail; RAIL_FAULT
deasserts PWR_GOOD (R424). -/
def Obligations.ResetEffects : Prop :=
  (∀ s : State, s.m.mgUp = true → s.m.pwr.ready = true →
    let function := fun (t : State) (source : Nat) =>
      (s.m.stepOpen = true → t.m.step.cause = (s.m.step.cause <|> some (0x0707, s.m.self))) ∧
      (s.m.stepOpen = false → t.m.step.cause = s.m.step.cause) ∧
      t.m.chk.runs = [] ∧ t.m.stm.wins = [] ∧ (∀ e ∈ t.m.stm.engines, e.2.ctxs = [] ∧ e.2.staged = []) ∧ t.m.coll.ops = [] ∧
      t.m.pool.waits = [] ∧ (∀ o ∈ t.m.pool.objs, o.2.pins = 0 ∧ o.2.st ≠ .movingUp) ∧
      t.m.mem = { s.m.mem with sram := s.m.mem.sram.forget, acc := s.m.mem.acc.forget } ∧
      (∀ (off i j : Nat) (r : RegSpec), Reg.at? off = some (r, i, j) → off ≠ Reg.HBM_PAD_LOW.base → off ≠ Reg.PWR_RESET_CAUSE.base →
        off ≠ Reg.LFT_POOL_EVICT.base →
        t.m.regs.read r i j = if r.ret.defaultsAt 1 then r.resetWord else s.m.regs.read r i j) ∧
      t.m.host.msixEnable = false ∧ t.m.host.entries = [] ∧ t.m.host.pba = [] ∧ t.m.host.doe = ⟨none, false⟩ ∧
      t.m.fget Fld.PWR_RESET_CAUSE_KIND = 4 ∧ t.m.fget Fld.PWR_RESET_CAUSE_SOURCE = source ∧
      t.m.plt = s.m.plt ∧ t.m.tick = s.m.tick ∧ t.m.pwr = s.m.pwr ∧ t.m.cores = s.m.cores ∧ t.evq = s.evq
    (∃ t, exec .flr s = .next t ∧ function t 9 ∧ t.m.evIn = s.m.evIn) ∧
    (∃ t, exec .hotReset s = .next t ∧ function t 10 ∧ t.m.evIn = s.m.evIn) ∧
    (s.m.host.linkUp = true → ∃ t, exec .dlDown s = .next t ∧ function t 11 ∧ t.m.host.linkUp = false ∧ t.m.reports .contained 0x0D02 0 0 0 0)) ∧
  (∀ s : State, s.m.mgUp = false ∨ s.m.pwr.ready = false → exec .flr s = .next s ∧ exec .hotReset s = .next s) ∧
  (∀ s : State, s.m.host.linkUp = false → exec .dlDown s = .next s) ∧
  (∀ (s : State) (path : Path) (key : Nat) (boot : Boot), s.m.pathUp path Reg.PWR_CTRL.base = true → s.m.mgUp = true →
    (path = .bar0 → key = 0x5EF7) →
    (s.m.pathRefused path = false → s.m.pwr.ready = true →
      ∃ t, exec (.softReset path key boot) s = .next t ∧ s.m.cleared t.m ∧ t.m.pwr.ready = true
        ∧ t.m.pwr.state = (if s.m.pwr.state = .sleep then .sleep else .idle) ∧ t.m.tick.count = 0
        ∧ t.m.host.linkUp = s.m.host.linkUp ∧ t.m.host.entries = s.m.host.entries ∧ t.m.host.doe = ⟨none, false⟩
        ∧ t.m.fget Fld.PWR_RESET_CAUSE_KIND = 3 ∧ t.m.fget Fld.PWR_RESET_CAUSE_SOURCE = (if path = .bar0 then 6 else 7)) ∧
    (s.m.pathRefused path = false → s.m.pwr.ready = false → exec (.softReset path key boot) s = .next s) ∧
    (s.m.pathRefused path = true → ∃ t, exec (.softReset path key boot) s = .next t ∧ State.sameBut [.evIn] s t
      ∧ t.m.reports .corrected 0x0D05 0 (pathCode path) Reg.PWR_CTRL.base 0)) ∧
  (∀ (s : State) (key : Nat) (boot : Boot), key ≠ 0x5EF7 → exec (.softReset .bar0 key boot) s = .next s) ∧
  (∀ (s : State) (path : Path) (boot : Boot) (x : FwuSession), s.m.pathUp path Reg.SEC_CMD.base = true → s.m.mgUp = true →
    s.m.pwr.ready = true → s.m.sec.session = some x → x.path = path → x.stage = .ended →
    (s.m.plateActive = false → ∃ t, exec (.fwuActivate path boot) s = .next t ∧ s.m.cleared t.m ∧ t.m.pwr.ready = true
      ∧ t.m.pwr.state = (if s.m.pwr.state = .sleep then .sleep else .idle) ∧ t.m.fget Fld.PWR_RESET_CAUSE_KIND = 3 ∧ t.m.fget Fld.PWR_RESET_CAUSE_SOURCE = 8) ∧
    (s.m.plateActive = true → ∃ t, exec (.fwuActivate path boot) s = .next t ∧ State.sameBut [.regs, .host] s t
      ∧ (path = .bar0 → t.m.fget Fld.SEC_CMD_STATUS_RESULT = 9))) ∧
  (∀ s : State, s.m.pwr.perst = false →
    ((s.m.mgUp = false ∨ s.m.pwr.rails = false ∨ s.m.pwr.started = false) →
      exec .perstAssert s = .next (s.on (fun m => { m with pwr := { m.pwr with perst := true } }))) ∧
    (s.m.mgUp = true → s.m.pwr.rails = true → s.m.pwr.started = true →
      s.m.pwr.state ≠ .sleep ∨ s.m.fget Fld.PWR_CFG_OFF_ON_PERST = 0 →
      ∃ t, exec .perstAssert s = .next t ∧ s.m.cleared t.m ∧ t.m.pwr.perst = true ∧ t.m.pwr.ready = false ∧ t.m.host.linkUp = false
        ∧ t.m.host.msixEnable = false ∧ t.m.host.entries = [] ∧ t.m.sec.unlock = 0 ∧ t.evq.queue = [] ∧ t.evq.log = s.evq.log
        ∧ t.m.fget Fld.PWR_PROFILE_REQ = s.m.fget Fld.PWR_DEFAULT_PROFILE
        ∧ t.m.fget Fld.PWR_RESET_CAUSE_KIND = 2 ∧ t.m.fget Fld.PWR_RESET_CAUSE_SOURCE = 4) ∧
    (s.m.mgUp = true → s.m.pwr.rails = true → s.m.pwr.started = true → s.m.pwr.state = .sleep → s.m.fget Fld.PWR_CFG_OFF_ON_PERST = 1 →
      ∃ t, exec .perstAssert s = .next t ∧ t.m.pwr.state = .off ∧ t.m.pwr.ready = false ∧ t.m.tick.running = false ∧ t.m.regs = s.m.regs
        ∧ t.m.host.linkUp = false ∧ t.m.sec.counterOpen = false ∧ t.evq = s.evq)) ∧
  (∀ (s : State) (boot : Boot), s.m.pwr.perst = true → s.m.pwr.powered = true → s.m.pwr.rails = true →
    (s.m.pwr.state ≠ .off → s.m.pwr.started = false →
      exec (.perstDeassert boot) s = .next (s.on (fun m => { m with pwr := { m.pwr with perst := false } }))) ∧
    (s.m.pwr.state ≠ .off → s.m.pwr.started = true → s.m.pwr.ready = false →
      ∃ t, exec (.perstDeassert boot) s = .next t ∧ t.m.pwr.perst = false ∧ t.m.pwr.ready = true
        ∧ t.m.pwr.state = (if s.m.pwr.state = .sleep then .sleep else .idle) ∧ t.m.tick.running = true ∧ t.m.sec.session = none) ∧
    (s.m.pwr.state = .off → ∃ t, exec (.perstDeassert boot) s = .next t ∧ s.m.cleared t.m ∧ t.m.pwr.perst = false ∧ t.m.pwr.ready = true
      ∧ t.m.pwr.state = .idle ∧ t.evq.queue = [] ∧ t.m.fget Fld.PWR_RESET_CAUSE_KIND = 2 ∧ t.m.fget Fld.PWR_RESET_CAUSE_SOURCE = 5)) ∧
  (∀ (s : State) (boot : Boot),
    (s.m.pwr.powered = true ∧ s.m.pwr.rails = true → exec (.powerApplied boot) s = .next s) ∧
    (s.m.pwr.powered = false ∨ s.m.pwr.rails = false →
      ∃ t, exec (.powerApplied boot) s = .next t ∧ s.m.cleared t.m ∧ t.m.pwr.powered = true ∧ t.m.pwr.rails = true ∧ t.m.pwr.ready = true
        ∧ t.m.pwr.state = .idle ∧ t.m.tick.running = true ∧ t.m.tick.count = 0 ∧ t.m.host.sbAddr = 0x48 + boot.straps % 4
        ∧ t.m.host.out = s.m.host.out ∧ t.m.sec.unlock = 0 ∧ t.evq = { EvtUnit.empty with tail := s.evq.tail }
        ∧ t.m.pwr.prior = [] ∧ (∀ r ∈ s.m.pwr.prior, { r with tick := 0, cycle := 0 } ∈ t.m.evIn)
        ∧ t.m.fget Fld.PWR_RESET_CAUSE_KIND = 1
        ∧ t.m.fget Fld.PWR_RESET_CAUSE_SOURCE = (if s.m.pwr.trip then 3 else if ∃ r ∈ s.m.pwr.prior, r.code = 0x1003 then 2 else 1))) ∧
  (∀ (s : State) (mv sensor : Nat) (degC : Int), s.m.pwr.powered = true →
    let low := if s.m.pwr.dip = .none then mv else min mv s.m.pwr.dipMin
    let note := fun (code source d0 : Nat) => (⟨s.m.tick.count, s.m.tick.cycle, code, .device, true, source, lo32 d0, 0, lo32 s.m.tick.count, 0⟩ : EvRec)
    (∃ t, exec (.supplyResetAssert mv) s = .next t ∧ s.m.cleared t.m ∧ t.m.pwr.powered = false ∧ t.m.evIn = []
      ∧ t.evq = { EvtUnit.empty with tail := lastN tailSize (s.evq.tail ++ [note 0x1003 0 low]) }
      ∧ t.m.pwr.prior = s.m.pwr.prior ++ [note 0x1003 0 low]
      ∧ t.m.fget Fld.PWR_RESET_CAUSE_KIND = 1 ∧ t.m.fget Fld.PWR_RESET_CAUSE_SOURCE = 2) ∧
    (∃ t, exec (.thermtrip sensor degC) s = .next t ∧ s.m.cleared t.m ∧ t.m.pwr.powered = false ∧ t.m.pwr.trip = true
      ∧ t.m.host.out = s.m.host.out ++ [.pin 1 false]
      ∧ t.evq = { EvtUnit.empty with tail := lastN tailSize (s.evq.tail ++ [note 0x1006 sensor degC.toNat]) }
      ∧ t.m.pwr.prior = s.m.pwr.prior ++ [note 0x1006 sensor degC.toNat])) ∧
  (∀ s : State, exec .railFault s = .next (s.on (fun m => { m with pwr := { m.pwr with rails := false } })))

/-- EVENT_PRODUCED takes the next record: within the limit of 256 a tick it gets its ALIVE, counts in its class, enters the log at
EVT_LOG_HEAD, and waits for the ring, or is counted in EVT_DROPPED with 1,023 others waiting (R375, R488, R489, R490); a DEVICE record
enters the tail too. Beyond the limit the first CORRECTED or CONTAINED record is dropped, and others wait. EVENT_DROPPED announces the drops
at a boundary (R375). RING_RECORD_WRITE writes the front record at its index, then the shadow, then signals the class vector, while the ring
is enabled and not full (R373, R375, R377). EVENT_LOG_READ returns a record, zero where the log has none, and may acknowledge (R490). -/
def Obligations.EventRecords : Prop :=
  (∀ (s : State) (r : EvRec) (rest : List EvRec), s.m.mgUp = true → s.m.evIn = r :: rest →
    let alive := s.m.fget Fld.EVT_ALIVE_NEXT
    let r1 := { r with alive := alive }
    let head := s.m.fget Fld.EVT_LOG_HEAD_INDEX
    (s.evq.accepted < 256 →
      ∃ t, exec .eventProduced s = .next t ∧ t.m.evIn = rest ∧ t.evq.accepted = s.evq.accepted + 1
        ∧ t.m.fget Fld.EVT_ALIVE_NEXT = (alive + 1) % 2 ^ 32 ∧ t.m.fget Fld.EVT_LOG_HEAD_INDEX = (head + 1) % 2 ^ 32
        ∧ t.m.fget Fld.EVT_CLASS_COUNT_COUNT r.cls.code = min (s.m.fget Fld.EVT_CLASS_COUNT_COUNT r.cls.code + 1) 0xFFFFFFFF
        ∧ t.evq.log = lastN 4096 (s.evq.log ++ [(head, r1)])
        ∧ t.evq.tail = (if r.cls = .device ∧ r.prior = false then lastN 32 (s.evq.tail ++ [r1]) else s.evq.tail)
        ∧ (s.m.sec.recovery = false → s.evq.others < 1023 → t.evq.queue = s.evq.queue ++ [r1] ∧ t.evq.dropsSince = s.evq.dropsSince
            ∧ t.m.fget Fld.EVT_DROPPED_COUNT = s.m.fget Fld.EVT_DROPPED_COUNT)
        ∧ (s.m.sec.recovery = false → 1023 ≤ s.evq.others → t.evq.queue = s.evq.queue ∧ t.evq.dropsSince = s.evq.dropsSince + 1
            ∧ t.m.fget Fld.EVT_DROPPED_COUNT = min (s.m.fget Fld.EVT_DROPPED_COUNT + 1) 0xFFFFFFFF)
        ∧ State.sameBut [.regs, .evIn, .dbg] { s with evq := t.evq } t) ∧
    (256 ≤ s.evq.accepted → ∀ (a b : List EvRec) (d : EvRec), r :: rest = a ++ d :: b → d.cls.code < 2 → (∀ q ∈ a, 2 ≤ q.cls.code) →
      ∃ t, exec .eventProduced s = .next t ∧ t.m.evIn = a ++ b ∧ t.evq = { s.evq with dropsSince := s.evq.dropsSince + 1 }
        ∧ t.m.fget Fld.EVT_ALIVE_NEXT = (alive + 1) % 2 ^ 32
        ∧ t.m.fget Fld.EVT_DROPPED_COUNT = min (s.m.fget Fld.EVT_DROPPED_COUNT + 1) 0xFFFFFFFF
        ∧ (d.block = 5 → t.m.fget Fld.NUM_DROPPED_COUNT = min (s.m.fget Fld.NUM_DROPPED_COUNT + 1) 0xFFFFFFFF)
        ∧ t.m.fget Fld.EVT_LOG_HEAD_INDEX = head) ∧
    (256 ≤ s.evq.accepted → (∀ q ∈ r :: rest, 2 ≤ q.cls.code) → exec .eventProduced s = .next s)) ∧
  (∀ s : State, s.m.mgUp = true → s.m.atBoundary = true → 0 < s.evq.dropsSince → (∀ r ∈ s.evq.queue, r.code ≠ 0x0D04) →
    ∃ t r, exec .eventDropped s = .next t ∧ t.evq.queue = s.evq.queue ++ [r] ∧ t.evq.dropsSince = 0
      ∧ r.code = 0x0D04 ∧ r.cls = .corrected ∧ r.d0 = lo32 s.evq.dropsSince ∧ r.d1 = s.m.fget Fld.EVT_DROPPED_COUNT
      ∧ r.alive = s.m.fget Fld.EVT_ALIVE_NEXT ∧ t.m.fget Fld.EVT_ALIVE_NEXT = (r.alive + 1) % 2 ^ 32
      ∧ t.evq.log = lastN 4096 (s.evq.log ++ [(s.m.fget Fld.EVT_LOG_HEAD_INDEX, r)]) ∧ t.evq.accepted = s.evq.accepted) ∧
  (∀ s : State, (s.m.mgUp = false ∨ s.m.atBoundary = false ∨ s.evq.dropsSince = 0 ∨ ∃ r ∈ s.evq.queue, r.code = 0x0D04) →
    exec .eventDropped s = .next s) ∧
  (∀ (s : State) (r : EvRec) (rest : List EvRec), s.m.mgUp = true → s.evq.queue = r :: rest →
    let size := 2 ^ s.m.fget Fld.EVT_RING_CTRL_LOG2_SIZE
    let prod := s.m.fget Fld.EVT_RING_PROD_INDEX
    let fill := (prod + 2 ^ 32 - s.m.fget Fld.EVT_RING_CONS_INDEX) % 2 ^ 32
    let base := s.m.fget Fld.EVT_RING_BASE_LO_ADDR * 4096 + 2 ^ 32 * s.m.fget Fld.EVT_RING_BASE_HI_ADDR
    let shadow := s.m.fget Fld.EVT_SHADOW_LO_ADDR * 4 + 2 ^ 32 * s.m.fget Fld.EVT_SHADOW_HI_ADDR
    let wrote := s.m.host.out ++ [.hostWrite (base + 32 * (prod % size)) r.bytes, .hostWrite shadow (leBytes 4 ((prod + 1) % 2 ^ 32))]
    (s.m.fget Fld.EVT_RING_CTRL_ENABLE = 1 → fill < size →
      ∃ t, exec .ringRecordWrite s = .next t ∧ t.evq = { s.evq with queue := rest } ∧ t.m.fget Fld.EVT_RING_PROD_INDEX = (prod + 1) % 2 ^ 32
        ∧ s.m.regsKeep [Reg.EVT_RING_PROD.base] t.m
        ∧ (s.m.host.msixEnable = false → t.m.host.out = wrote)
        ∧ (∀ addr data, s.m.host.msixEnable = true → s.m.host.funcMask = false → s.m.fget Fld.EVT_RING_CTRL_COALESCE_US = 0 →
            kvGet? s.m.host.entries r.cls.vector = some ⟨addr, data, false⟩ →
            (s.m.host.verdictDue = false → t.m.host.out = wrote ++ [.msix r.cls.vector addr data])
              ∧ ∀ a4 d4, s.m.host.verdictDue = true → kvGet? s.m.host.entries 4 = some ⟨a4, d4, false⟩ →
                  (∀ q, q ∈ rest ∨ q ∈ s.m.evIn → q.cls ≠ .step) →
                  t.m.host.out = wrote ++ [.msix r.cls.vector addr data, .msix 4 a4 d4])) ∧
    (s.m.fget Fld.EVT_RING_CTRL_ENABLE = 0 ∨ size ≤ fill → exec .ringRecordWrite s = .next s)) ∧
  (∀ (s : State) (sideband : Bool) (index v : Nat), s.m.mctpUp sideband = true →
    let said := s.m.host.out ++ [Out.mctp (bindingCode sideband) 0x7E
      (match kvGet? s.evq.log index with | some r => r.bytes | none => List.replicate 32 0)]
    (∃ t, exec (.eventLogRead sideband index none) s = .next t ∧ t.m.host = { s.m.host with out := said } ∧ State.sameBut [.host] s t) ∧
    (∃ t, exec (.eventLogRead sideband index (some v)) s = .next t ∧ t.m.host = { s.m.host with out := said }
      ∧ t.m.fget Fld.EVT_LOG_ACK_INDEX = (if s.m.fget Fld.EVT_LOG_ACK_INDEX ≤ lo32 v then lo32 v else s.m.fget Fld.EVT_LOG_ACK_INDEX)
      ∧ s.m.regsKeep [Reg.EVT_LOG_ACK.base] t.m))

/-! ### Security and update -/

/-- The attestation protocol (R398): GET_INFO, GET_ENDORSEMENT, GET_MEASUREMENTS and GET_KEM_KEY answer OK with their bodies, the
measurements with M0 to M7 first (R397, R401, R393). GET_QUOTE answers EXHAUSTED at index 2^20 (R404), BUSY within ATT_MIN, REFUSED under
a VENDOR unlock (R399); else it signs a body of 384 bytes (R400), advances the index, blows mark F at the first index not covered, opens
the counter record (R402) and raises ATT_KEY_LOW once below 16,384 indices (R404). LOAD_KEY takes a key that unwraps, for the next
boundary, where KEY_SLOT_APPLY puts it into effect; CLEAR_KEY empties a slot; both answer BAD_REQUEST beyond slot 15 and STEP_BUSY in a
step (R405). -/
def Obligations.AttestationAndKeys : Prop :=
  (∀ (s : State) (via : AttPath), s.m.attUp via = true →
    (∃ t body, exec (.getInfo via) s = .next t ∧ s.replied t via 1 0 0 body ∧ body.take 8 = leBytes 8 Config.uid.toNat
      ∧ (body.drop 8).take 4 = leBytes 4 (s.m.fget Fld.SEC_SVN_FUSED) ∧ State.sameBut [.host] s t) ∧
    (∃ t, exec (.getEndorsement via) s = .next t ∧ s.replied t via 2 0 0 Config.endorsement ∧ State.sameBut [.host] s t) ∧
    (∃ t body, exec (.getMeasurements via) s = .next t ∧ s.replied t via 3 0 0 body
      ∧ body.drop 256 = s.m.sec.log.flatMap (fun e => leBytes 1 e.reg ++ leBytes 1 e.kind ++ leBytes 6 e.tick ++ e.digest)
      ∧ (∀ k, k < 8 → (body.drop (32 * k)).take 32 = s.m.meas k) ∧ State.sameBut [.host] s t) ∧
    (∃ t, exec (.getKemKey via) s = .next t ∧ s.replied t via 5 0 0 (Config.kemKey s.m.sec.kem) ∧ State.sameBut [.host] s t)) ∧
  (∀ (s : State) (via : AttPath) (nonce : List Byte) (wait : Nat), s.m.attUp via = true → nonce.length = 32 →
    let q := s.m.fget Fld.SEC_ATT_NEXT_NEXT
    let marks := s.m.fget Fld.SEC_ATT_MARKS_MARKS
    let left := if q = 0 then 0 else min wait (60 * s.m.fget Fld.SEC_POLICY_ATT_MIN)
    (2 ^ 20 ≤ q → ∃ t, exec (.getQuote via nonce wait) s = .next t ∧ s.replied t via 4 3 0 [] ∧ t.m.reports .contained 0x0F07 0 0 0 0
      ∧ t.m.sec = s.m.sec ∧ t.m.regs = s.m.regs) ∧
    (q < 2 ^ 20 → 0 < left → ∃ t, exec (.getQuote via nonce wait) s = .next t ∧ s.replied t via 4 1 left [] ∧ State.sameBut [.host] s t) ∧
    (q < 2 ^ 20 → left = 0 → s.m.sec.unlock = 2 → ∃ t, exec (.getQuote via nonce wait) s = .next t ∧ s.replied t via 4 4 0 []
      ∧ State.sameBut [.host] s t) ∧
    (q < 2 ^ 20 → left = 0 → s.m.sec.unlock ≠ 2 →
      ∃ (t : State) (body : List Byte), exec (.getQuote via nonce wait) s = .next t ∧ s.replied t via 4 0 0 (body ++ Config.attSign q body)
        ∧ body.length = 384 ∧ (body.drop 16).take 4 = leBytes 4 q ∧ (body.drop 40).take 32 = nonce
        ∧ t.m.fget Fld.SEC_ATT_NEXT_NEXT = q + 1 ∧ t.m.sec.counterOpen = true
        ∧ t.m.fget Fld.SEC_ATT_MARKS_MARKS = (if q = 4096 * marks then marks + 1 else marks)
        ∧ s.m.regsKeep [Reg.SEC_ATT_NEXT.base, Reg.SEC_ATT_MARKS.base] t.m
        ∧ (2 ^ 20 - (q + 1) < 16384 → s.m.sec.keyLowRaised = false → t.m.reports .corrected 0x0F06 0 (2 ^ 20 - (q + 1)) 0 0 ∧ t.m.sec.keyLowRaised = true)
        ∧ (16384 ≤ 2 ^ 20 - (q + 1) ∨ s.m.sec.keyLowRaised = true → t.m.evIn = s.m.evIn))) ∧
  (∀ (s : State) (via : AttPath) (nonce : List Byte) (wait : Nat), s.m.attUp via = true → nonce.length ≠ 32 →
    ∃ t, exec (.getQuote via nonce wait) s = .next t ∧ s.replied t via 4 2 0 [] ∧ State.sameBut [.host] s t) ∧
  (∀ (s : State) (via : AttPath) (slot : Nat) (ciphertext iv wrapped : List Byte), s.m.attUp via = true →
    let sized : Prop := ciphertext.length = 1568 ∧ iv.length = 12 ∧ wrapped.length = 48
    let secret := if s.m.sec.cleared then none else Config.kemDecap s.m.sec.kem ciphertext
    let key := secret.bind (fun x => Config.gcmOpen x iv (leBytes 1 slot ++ leBytes 8 Config.uid.toNat) wrapped)
    (16 ≤ slot ∨ ¬sized → ∃ t, exec (.loadKey via slot ciphertext iv wrapped) s = .next t ∧ s.replied t via 6 2 0 [] ∧ State.sameBut [.host] s t) ∧
    (slot < 16 → sized → s.m.stepBusy = true → ∃ t, exec (.loadKey via slot ciphertext iv wrapped) s = .next t ∧ s.replied t via 6 5 0 []
      ∧ State.sameBut [.host] s t) ∧
    (slot < 16 → sized → s.m.stepBusy = false → key = none → ∃ t, exec (.loadKey via slot ciphertext iv wrapped) s = .next t ∧ s.replied t via 6 4 0 []
      ∧ t.m.sec = s.m.sec ∧ t.m.fget Fld.SEC_ERR_KEY_REFUSED = 1
      ∧ t.m.reports .corrected 0x0F08 0 slot (if secret = none then 0 else 1) 0) ∧
    (∀ k, slot < 16 → sized → s.m.stepBusy = false → key = some k → ∃ t, exec (.loadKey via slot ciphertext iv wrapped) s = .next t
      ∧ s.replied t via 6 0 0 [] ∧ kvGet? t.m.sec.keysDue slot = some k ∧ t.m.sec.keys = s.m.sec.keys ∧ State.sameBut [.host, .sec] s t) ∧
    (slot < 16 → s.m.stepBusy = false → ∃ t, exec (.clearKey via slot) s = .next t ∧ s.replied t via 7 0 0 []
      ∧ kvGet? t.m.sec.keys slot = none ∧ kvGet? t.m.sec.keysDue slot = none
      ∧ (∀ k, k ≠ slot → kvGet? t.m.sec.keys k = kvGet? s.m.sec.keys k) ∧ State.sameBut [.host, .sec] s t) ∧
    (16 ≤ slot → ∃ t, exec (.clearKey via slot) s = .next t ∧ s.replied t via 7 2 0 [] ∧ State.sameBut [.host] s t) ∧
    (slot < 16 → s.m.stepBusy = true → ∃ t, exec (.clearKey via slot) s = .next t ∧ s.replied t via 7 5 0 [] ∧ State.sameBut [.host] s t)) ∧
  (∀ s : State, s.m.mgUp = true → s.m.atBoundary = true →
    ∃ t, exec .keySlotApply s = .next t ∧ t.m.sec.keysDue = [] ∧ State.sameBut [.sec] s t
      ∧ (∀ k key, (∃ e ∈ s.m.sec.keysDue, e.1 = k) → (∀ e ∈ s.m.sec.keysDue, e.1 = k → e.2 = key) → kvGet? t.m.sec.keys k = some key)
      ∧ (∀ k, (∀ e ∈ s.m.sec.keysDue, e.1 ≠ k) → kvGet? t.m.sec.keys k = kvGet? s.m.sec.keys k)) ∧
  (∀ s : State, s.m.mgUp = false ∨ s.m.atBoundary = false → exec .keySlotApply s = .next s)

/-- Update sessions and confirmation (R411 to R421). FWU_BEGIN opens a session and leaves the slot it will write INVALID, or answers BUSY; a
session command without a session answers ORDER, on another path BUSY, with FW_UPDATE_FAILED (R414). FWU_HEADER, FWU_LIST and FWU_BLOCK move
the session on when their checks pass, the result the check names otherwise (R411, R412, R415, R416). FWU_END writes the five images and
marks the slot TRIAL, or ends the session with the check's result or COMPAT (R416 to R418); FWU_ABORT and MGMT_WATCHDOG end it (R414,
R444). FW_CONFIRM confirms the slot and blows SVN fuses (R420, R421); FW_CONFIRM_TIMEOUT ends the window. -/
def Obligations.UpdateSessions : Prop :=
  (∀ (s : State) (path : Path), s.m.pathUp path Reg.SEC_CMD.base = true →
    (s.m.pathRefused path = false → s.m.sec.session = none →
      ∃ t, exec (.fwuBegin path) s = .next t ∧ s.ended t path 1 0
        ∧ t.m.sec.session = some ⟨path, .opened, 0, [], [], [], [], 0, [], []⟩
        ∧ (s.m.variant = false → t.m.sec.mark (1 - s.m.fget Fld.SEC_STATUS_SLOT) = .invalid) ∧ t.m.evIn = s.m.evIn) ∧
    (s.m.pathRefused path = true → ∃ t, exec (.fwuBegin path) s = .next t ∧ s.ended t path 1 1 ∧ t.m.sec = s.m.sec
      ∧ t.m.reports .corrected 0x0D05 0 (pathCode path) 1 0) ∧
    (s.m.pathRefused path = false → s.m.sec.session ≠ none → ∃ t, exec (.fwuBegin path) s = .next t ∧ s.ended t path 1 1 ∧ t.m.sec = s.m.sec) ∧
    (∀ data, ∀ c ∈ [(Instr.fwuHeader path data, 2), (.fwuList path data, 3), (.fwuBlock path data, 4), (.fwuEnd path, 5)],
      (s.m.sec.session = none → ∃ t, exec c.1 s = .next t ∧ s.ended t path c.2 5 ∧ t.m.sec = s.m.sec
        ∧ t.m.reports .corrected 0x0F01 0 c.2 5 0) ∧
      (∀ x, s.m.sec.session = some x → x.path ≠ path → ∃ t, exec c.1 s = .next t ∧ s.ended t path c.2 1 ∧ t.m.sec = s.m.sec
        ∧ t.m.reports .corrected 0x0F01 0 c.2 1 x.comp))) ∧
  (∀ (s : State) (path : Path) (data : List Byte) (x : FwuSession), s.m.pathUp path Reg.SEC_CMD.base = true →
    s.m.sec.session = some x → x.path = path →
    let h := s.m.object path data
    let comp := hdrNat h 6 1
    let blockwise := s.m.fget Fld.SEC_POLICY_BLOCKWISE == 1
    let fails := fun (c : Instr) (code result : Nat) =>
      ∃ t, exec c s = .next t ∧ s.ended t path code result ∧ t.m.sec = s.m.sec ∧ t.m.reports .corrected 0x0F01 0 code result x.comp
    let moves := fun (c : Instr) (code : Nat) (y : FwuSession) =>
      ∃ t, exec c s = .next t ∧ s.ended t path code 0 ∧ t.m.sec = { s.m.sec with session := some y } ∧ t.m.evIn = s.m.evIn
    (x.stage = .opened ∨ x.imageIn = true ∧ x.comp < comp → hdrBad h = false → s.m.sec.recovery = false ∨ hdrDelta h = false →
      blockwise = true ∨ s.m.hdrCheck h = 0 →
      moves (.fwuHeader path data) 2 { x with stage := .header, comp := comp, header := h, list := [], hashes := [], plain := [], blocks := 0 }) ∧
    (x.stage ≠ .opened → x.imageIn = false → fails (.fwuHeader path data) 2 5) ∧
    (x.stage = .opened ∨ x.imageIn = true → hdrBad h = true → fails (.fwuHeader path data) 2 8) ∧
    (x.stage = .opened → hdrBad h = false → s.m.sec.recovery = false → blockwise = false → s.m.hdrCheck h ≠ 0 →
      fails (.fwuHeader path data) 2 (s.m.hdrCheck h)) ∧
    (x.stage = .header → h.length = 32 * hdrBlocks x.header → blockwise = true ∨ sha256 h = hdrListHash x.header →
      moves (.fwuList path data) 3 { x with stage := .blocks, list := h }) ∧
    (x.stage ≠ .header → fails (.fwuList path data) 3 5) ∧
    (x.stage = .header → h.length ≠ 32 * hdrBlocks x.header → fails (.fwuList path data) 3 8) ∧
    (x.stage = .header → h.length = 32 * hdrBlocks x.header → blockwise = false → sha256 h ≠ hdrListHash x.header →
      fails (.fwuList path data) 3 6) ∧
    (∀ p, x.stage = .blocks → x.blocks < hdrBlocks x.header → s.m.blockCheck x h = 0 → blockPlain x.header h x.blocks = some p →
      ∃ (t : State) (y : FwuSession), exec (.fwuBlock path data) s = .next t ∧ s.ended t path 4 0 ∧ t.m.sec = { s.m.sec with session := some y }
        ∧ y.blocks = x.blocks + 1 ∧ y.hashes = x.hashes ++ sha256 h ∧ y.plain = padTo (65536 * x.blocks) x.plain ++ p
        ∧ (x.blocks + 1 = hdrBlocks x.header → kvGet? y.images x.comp = some (imageOf x.header y.plain))) ∧
    (x.stage ≠ .blocks ∨ x.blocks = hdrBlocks x.header → fails (.fwuBlock path data) 4 5) ∧
    (x.stage = .blocks → x.blocks ≠ hdrBlocks x.header → s.m.blockCheck x h ≠ 0 → fails (.fwuBlock path data) 4 (s.m.blockCheck x h)) ∧
    (x.stage = .blocks → x.blocks ≠ hdrBlocks x.header → s.m.blockCheck x h = 0 → blockPlain x.header h x.blocks = none →
      fails (.fwuBlock path data) 4 6)) ∧
  (∀ (s : State) (path : Path) (x : FwuSession), s.m.pathUp path Reg.SEC_CMD.base = true → s.m.sec.session = some x →
    let set := s.m.resultSet (s.m.endNew x)
    let lost := fun (t : State) => t.m.sec.session = none ∧ t.m.fget Fld.SEC_ERR_FWU_FAILED = 1
      ∧ (s.m.variant = false → t.m.sec.mark s.m.targetSlot = .invalid)
    (x.path = path → x.imageIn = true → s.m.endBad x = 0 → set.length = 5 → compatible set = true →
      ∃ t, exec (.fwuEnd path) s = .next t ∧ s.ended t path 5 0 ∧ t.m.sec.session = some { x with stage := .ended }
        ∧ t.m.sec.mark s.m.targetSlot = .trial ∧ (∀ c, c < 5 → t.m.sec.image? s.m.targetSlot c = set[c]?) ∧ t.m.evIn = s.m.evIn) ∧
    (x.path = path → x.imageIn = true → s.m.endBad x ≠ 0 → ∃ t, exec (.fwuEnd path) s = .next t ∧ s.ended t path 5 (s.m.endBad x) ∧ lost t) ∧
    (x.path = path → x.imageIn = true → s.m.endBad x = 0 → set.length = 5 → compatible set = false →
      ∃ t, exec (.fwuEnd path) s = .next t ∧ s.ended t path 5 4 ∧ lost t) ∧
    (x.path = path → x.imageIn = false → ∃ t, exec (.fwuEnd path) s = .next t ∧ s.ended t path 5 5 ∧ t.m.sec = s.m.sec) ∧
    (∃ t, exec (.fwuAbort path) s = .next t ∧ s.ended t path 7 0 ∧ lost t)) ∧
  (∀ (s : State) (path : Path), s.m.pathUp path Reg.SEC_CMD.base = true → s.m.sec.session = none →
    ∃ t, exec (.fwuAbort path) s = .next t ∧ s.ended t path 7 5 ∧ t.m.sec = s.m.sec) ∧
  (∀ (s : State) (core : Nat), s.m.mgUp = true → ∃ t, exec (.mgmtWatchdog core) s = .next t ∧ t.m.sec.session = none ∧ t.m.host.doe.busy = none
    ∧ t.m.fget Fld.PWR_WDOG_COUNT = min (s.m.fget Fld.PWR_WDOG_COUNT + 1) 0xFFFFFFFF
    ∧ t.m.reports .corrected 0x1009 core 0 (t.m.fget Fld.PWR_WDOG_COUNT) 0
    ∧ (s.m.sec.session = none → State.sameBut [.regs, .evIn, .host] s t ∧ s.m.regsKeep [Reg.PWR_WDOG.base] t.m)) ∧
  (∀ s : State, s.m.mgUp = true → s.m.sec.window = true →
    let slot := s.m.fget Fld.SEC_STATUS_SLOT
    (s.m.sec.testsOk = true → s.m.sec.proofOk = true →
      ∃ t, exec .fwConfirm s = .next t ∧ t.m.sec.mark slot = .confirmed ∧ t.m.sec.window = false ∧ t.m.sec.prefer = slot
        ∧ t.m.fget Fld.SEC_SVN_FUSED = max (s.m.fget Fld.SEC_SVN_FUSED) (s.m.sec.slotSvn slot)
        ∧ s.m.regsKeep [Reg.SEC_CONFIRM.base, Reg.SEC_SVN.base] t.m ∧ State.sameBut [.regs, .sec] s t) ∧
    (∃ t, exec .fwConfirmTimeout s = .next t ∧ t.m.sec = { s.m.sec with window := false } ∧ t.m.fget Fld.SEC_ERR_CONFIRM_TIMEOUT = 1
      ∧ t.m.reports .device 0x0F03 0 slot ((!s.m.sec.testsOk).toNat + 2 * (!s.m.sec.proofOk).toNat) 0)) ∧
  (∀ s : State, s.m.mgUp = false ∨ s.m.sec.window = false → exec .fwConfirm s = .next s ∧ exec .fwConfirmTimeout s = .next s) ∧
  (∀ s : State, s.m.mgUp = true → s.m.sec.window = true → s.m.sec.testsOk = false ∨ s.m.sec.proofOk = false → exec .fwConfirm s = .next s)

/-- Nonces, tokens and the policy (R406 to R410). NONCE draws one, NONCE_EXPIRY ends it (R410). DBG_UNLOCK and SET_POLICY take an object that
passes its checks, and refuse another with SEC_TOKEN_BAD (R407, R408); DBG_RELOCK and UNLOCK_EXPIRY end the unlock: halted cores resume,
the trace stops, and after VENDOR there is a new key pair (R409, R452). -/
def Obligations.UnlockAndPolicy : Prop :=
  (∀ (s : State) (path : Path), s.m.pathUp path Reg.SEC_CMD.base = true →
    ∃ t, exec (.nonce path) s = .next t ∧ s.ended t path 8 0 ∧ t.m.fget Fld.SEC_STATUS_NONCE_VALID = 1
      ∧ (∀ i, i < 8 → t.m.fget Fld.SEC_NONCE_NONCE i = leNat (((padTo 32 (Config.drbg s.m.sec.drawn)).drop (4 * i)).take 4))
      ∧ t.m.sec = { s.m.sec with drawn := s.m.sec.drawn + 1 } ∧ t.m.evIn = s.m.evIn) ∧
  (∀ s : State, s.m.mgUp = true → ∃ t, exec .nonceExpiry s = .next t ∧ t.m.fget Fld.SEC_STATUS_NONCE_VALID = 0
    ∧ State.setsOnly [Reg.SEC_STATUS.base] s t) ∧
  (∀ (s : State) (path : Path) (data : List Byte), s.m.pathUp path Reg.SEC_CMD.base = true →
    let tok := s.m.object path data
    let scope := hdrNat tok 4 1
    let signer := hdrNat tok 5 1
    let sound := hdrNat tok 0 4 = 0x44584C53 ∧ uidOk tok = true ∧ s.m.nonceOk tok = true ∧ s.m.signerOk signer (tok.take 64) (tok.drop 64) = true
    (64 ≤ tok.length → sound → scope = 1 ∧ s.m.fget Fld.SEC_POLICY_OWNER_DEBUG = 1 ∧ signer ≤ 3 ∨ scope = 2 ∧ signer = 0xFF →
      ∃ t, exec (.dbgUnlock path data) s = .next t ∧ s.ended t path 9 0 ∧ t.m.sec.unlock = scope
        ∧ t.m.sec.unlockTimed = decide (hdrNat tok 0x30 4 ≠ 0) ∧ t.m.fget Fld.SEC_STATUS_NONCE_VALID = 0
        ∧ (scope = 2 → t.m.sec.keys = [] ∧ t.m.sec.keysDue = [] ∧ t.m.sec.cleared = true)
        ∧ t.m.sec.log = s.m.sec.log ++ [⟨6, 5, s.m.tick.count, sha256 tok⟩]
        ∧ t.m.reports .corrected 0x0F0A 0 scope (hdrNat tok 0x30 4) signer) ∧
    (∀ why, s.m.tokenCheck tok = why → why ≠ 0 → ∃ t, exec (.dbgUnlock path data) s = .next t ∧ s.ended t path 9 10 ∧ t.m.sec = s.m.sec
      ∧ t.m.fget Fld.SEC_ERR_TOKEN_BAD = 1 ∧ t.m.reports .corrected 0x0F0B 0 0 why 0) ∧
    (64 ≤ tok.length ∧ sound ∧ (scope = 1 ∧ s.m.fget Fld.SEC_POLICY_OWNER_DEBUG = 1 ∧ signer ≤ 3 ∨ scope = 2 ∧ signer = 0xFF)
      ↔ s.m.tokenCheck tok = 0)) ∧
  (∀ s : State, s.m.sec.unlock ≠ 0 →
    let closed := fun (t : State) => t.m.sec.unlock = 0 ∧ (∀ c, (t.m.core c).halt = none ∧ (t.m.core c).haltReq = none) ∧ t.m.dbg.devHalt = false
      ∧ t.m.dbg.traceSt ≠ 1 ∧ (∀ i, i < 8 → t.m.fget Fld.DBG_BP_CFG_EN i = 0 ∧ t.m.fget Fld.DBG_WATCH_CFG_EN i = 0)
      ∧ t.m.sec.kem = (if s.m.sec.unlock = 2 then s.m.sec.kem + 1 else s.m.sec.kem)
    (∀ path, s.m.pathUp path Reg.SEC_CMD.base = true → ∃ t, exec (.dbgRelock path) s = .next t ∧ s.ended t path 10 0 ∧ closed t) ∧
    (s.m.mgUp = true → s.m.sec.unlockTimed = true → ∃ t, exec .unlockExpiry s = .next t ∧ closed t) ∧
    (s.m.sec.unlockTimed = false → exec .unlockExpiry s = .next s)) ∧
  (∀ (s : State) (path : Path) (data : List Byte), s.m.pathUp path Reg.SEC_CMD.base = true →
    let d := s.m.object path data
    let stays := fun (result : Nat) => ∃ t, exec (.setPolicy path data) s = .next t ∧ s.ended t path 11 result ∧ t.m.sec = s.m.sec
    (s.m.pathRefused path = false → s.m.plateActive = false → 304 ≤ d.length → s.m.policyCheck d = 0 →
      ∃ t, exec (.setPolicy path data) s = .next t ∧ s.ended t path 11 0
        ∧ (∀ f ∈ Reg.SEC_POLICY.fields, bitsOf (t.m.regs.read Reg.SEC_POLICY 0 0) f.hi f.lo = bitsOf (hdrNat d 0x30 4) f.hi f.lo)
        ∧ t.m.sec.plateKeys = policyKeys (d.take 304) ∧ t.m.fget Fld.SEC_STATUS_NONCE_VALID = 0
        ∧ t.m.sec.log = s.m.sec.log ++ [⟨6, 4, s.m.tick.count, sha256 (d.take 304)⟩]
        ∧ t.m.reports .corrected 0x0F09 0 (t.m.regs.read Reg.SEC_POLICY 0 0) (hdrNat d 4 1) 0) ∧
    (s.m.pathRefused path = true → stays 10) ∧
    (s.m.pathRefused path = false → s.m.plateActive = true → stays 9) ∧
    (s.m.pathRefused path = false → s.m.plateActive = false → d.length < 304 → stays 8) ∧
    (s.m.pathRefused path = false → s.m.plateActive = false → 304 ≤ d.length → s.m.policyCheck d ≠ 0 → stays 10))

/-! ### Power -/

/-- Supply dips: the floor setting and a new minimum at the warning, SUPPLY_WARN at its end with a hold and a rise (R432), PARK due after
20 ms (R433). Temperature: TEMP_SAMPLE raises THERMAL_THROTTLE once per episode and, above the critical level, the floor setting,
THERMAL_CRITICAL and PARK (R436, R437); THERMAL_STEP_TIMER moves the sixteenths taken from B (R436). PROFILE_REQUEST, CAP_WRITE and
DEFAULT_PROFILE_WRITE take or refuse a value (R430, R382). PARK_REQUEST, PARK_ENTRY, ACTIVE_REQUEST, FABRIC_WAKE and IDLE_ENTRY move
between ACTIVE, IDLE and PARK (R445 to R447), D3HOT_ENTRY and D0_ENTRY enter and leave SLEEP, and BMC_WAKE_REQUEST asserts WAKE# until D0
or WAKE_TIMEOUT (R448). -/
def Obligations.PowerStates : Prop :=
  (∀ (s : State) (mv us : Nat), s.m.mgUp = true →
    let least := min mv s.m.pwr.dipMin
    (∃ t, exec (.supplyWarnAssert mv) s = .next t ∧ t.m.fget Fld.PWR_DUTY_DM = 1 ∧ t.m.fget Fld.PWR_DUTY_DH = 1
      ∧ t.m.pwr = { s.m.pwr with dip := .asserted, dipMin := if s.m.pwr.dip = .asserted then least else mv }
      ∧ s.m.regsKeep [Reg.PWR_DUTY.base, Reg.PWR_INPUT.base] t.m ∧ State.sameBut [.regs, .pwr] s t) ∧
    (s.m.pwr.dip = .asserted →
      (∃ t, exec (.supplyWarnClear mv us) s = .next t ∧ t.m.pwr = { s.m.pwr with dip := .hold, dipMin := least, dipUs := us }
        ∧ t.m.fget Fld.PWR_DIP_MIN_MV = min least 0xFFFF ∧ t.m.fget Fld.PWR_DIP_US_US = min us 0xFFFFFFFF
        ∧ t.m.fget Fld.PWR_ERR_SUPPLY_WARN = 1 ∧ t.m.reports .corrected 0x1001 0 least us 0) ∧
      (∃ t, exec (.supplyPark mv) s = .next t ∧ t.m.fget Fld.PWR_ERR_SUPPLY_PARK = 1 ∧ t.m.reports .contained 0x1002 0 least 0 0
        ∧ (s.m.pwr.state = .active ∨ s.m.pwr.state = .idle → t.m.pwr.noSteps = true ∧ t.m.pwr.parkReq = true))) ∧
    (s.m.pwr.dip ≠ .asserted → exec (.supplyWarnClear mv us) s = .next s ∧ exec (.supplyPark mv) s = .next s) ∧
    (s.m.pwr.dip = .hold → exec .warnHoldExpiry s = .next (s.on (fun m => { m with pwr := { m.pwr with dip := .ramp m.rampTicks } }))) ∧
    (s.m.pwr.dip ≠ .hold → exec .warnHoldExpiry s = .next s)) ∧
  (∀ (s : State) (sensor : Nat) (degC : Int), s.m.mgUp = true → sensor < 52 →
    let level := if 40 ≤ sensor then s.m.fget Fld.PWR_THERM_THRESH_HBM_C else s.m.fget Fld.PWR_THERM_THRESH_LOGIC_C
    let critical : Int := if 40 ≤ sensor then 95 else 105
    ∃ t, exec (.tempSample sensor degC) s = .next t ∧ t.m.pwr.temps = kvSet s.m.pwr.temps sensor degC
      ∧ ((level : Int) < degC → t.m.pwr.episode = true)
      ∧ ((level : Int) < degC → s.m.pwr.episode = false → t.m.fget Fld.PWR_ERR_THROTTLE = 1 ∧ t.m.reports .corrected 0x1004 sensor degC.toNat level 0)
      ∧ (degC ≤ critical → sensor ∉ t.m.pwr.critical)
      ∧ (critical < degC → sensor ∈ t.m.pwr.critical)
      ∧ (critical < degC → sensor ∉ s.m.pwr.critical → t.m.fget Fld.PWR_DUTY_DM = 1 ∧ t.m.fget Fld.PWR_DUTY_DH = 1
          ∧ t.m.fget Fld.PWR_ERR_CRITICAL = 1 ∧ t.m.reports .contained 0x1005 sensor degC.toNat 0 0
          ∧ (s.m.pwr.state = .active ∨ s.m.pwr.state = .idle → t.m.pwr.noSteps = true ∧ t.m.pwr.parkReq = true))
      ∧ ((degC : Int) ≤ level → degC ≤ critical → t.m.evIn = s.m.evIn ∧ t.m.regs = s.m.regs)) ∧
  (∀ s : State, s.m.mgUp = true → s.m.pwr.episode = true →
    ∃ t, exec .thermalStepTimer s = .next t ∧ State.sameBut [.pwr] s t
      ∧ (s.m.anyThrottle = true → t.m.pwr.cut = (if 860 * s.m.periodUs < s.m.heatBudget then s.m.pwr.cut + 1 else s.m.pwr.cut)
          ∧ t.m.pwr.episode = true)
      ∧ (s.m.anyThrottle = false → s.m.allCool = true → t.m.pwr.cut = s.m.pwr.cut - 1 ∧ (t.m.pwr.episode = true ↔ 1 < s.m.pwr.cut))
      ∧ (s.m.anyThrottle = false → s.m.allCool = false → t = s)) ∧
  (∀ s : State, s.m.mgUp = false ∨ s.m.pwr.episode = false → exec .thermalStepTimer s = .next s) ∧
  (∀ (s : State) (path : Path) (v : Nat),
    let req := v % 4
    let cooling := fun (air : Bool) => if s.m.pathRefused path then some 4 else if req = 0 then some 3 else if req = 3 ∧ s.m.variant then some 1
      else if 2 ≤ req ∧ air then some 2 else (none : Option Nat)
    let reason := cooling (s.m.fget Fld.PWR_DEFAULT_COOLING == 1)
    (s.m.pathUp path Reg.PWR_PROFILE.base = true →
      ∃ t, exec (.profileRequest path v) s = .next t ∧ t.m.fget Fld.PWR_PROFILE_REQ = s.m.fget Fld.PWR_PROFILE_REQ
        ∧ (reason = none → kvGet? t.m.regs.pend Reg.PWR_PROFILE.base = some req ∧ t.m.evIn = s.m.evIn)
        ∧ (∀ why, reason = some why → t.m.regs.pend = s.m.regs.pend ∧ t.m.fget Fld.PWR_ERR_PROFILE = 1
            ∧ t.m.reports .corrected 0x1007 0 req (pathCode path) why)) ∧
    (s.m.pathUp path Reg.PWR_CAP.base = true →
      let w := v % 4096
      ∃ t, exec (.capWrite path v) s = .next t ∧ t.m.fget Fld.PWR_CAP_WATTS = s.m.fget Fld.PWR_CAP_WATTS
        ∧ (s.m.pathRefused path = false → w = 0 ∨ 900 ≤ w → kvGet? t.m.regs.pend Reg.PWR_CAP.base = some w ∧ t.m.evIn = s.m.evIn)
        ∧ (s.m.pathRefused path = false → 1 ≤ w → w ≤ 899 → t.m.regs.pend = s.m.regs.pend ∧ t.m.fget Fld.PWR_ERR_PROFILE = 1)
        ∧ (s.m.pathRefused path = true → t.m.regs.pend = s.m.regs.pend ∧ t.m.reports .corrected 0x0D05 0 (pathCode path) Reg.PWR_CAP.base 0)) ∧
    (s.m.pathUp path Reg.PWR_DEFAULT.base = true →
      ∃ t, exec (.defaultProfileWrite path v) s = .next t
        ∧ t.m.fget Fld.PWR_DEFAULT_COOLING = (if s.m.pathRefused path then s.m.fget Fld.PWR_DEFAULT_COOLING else bitsOf v 2 2)
        ∧ (cooling (bitsOf v 2 2 == 1) = none → t.m.fget Fld.PWR_DEFAULT_PROFILE = req ∧ s.m.regsKeep [Reg.PWR_DEFAULT.base] t.m)
        ∧ (∀ why, cooling (bitsOf v 2 2 == 1) = some why → t.m.fget Fld.PWR_DEFAULT_PROFILE = s.m.fget Fld.PWR_DEFAULT_PROFILE
            ∧ t.m.fget Fld.PWR_ERR_PROFILE = 1 ∧ t.m.reports .corrected 0x1007 0 req (pathCode path) why))) ∧
  (∀ (s : State) (path : Path), s.m.pathUp path Reg.PWR_STATE_REQ.base = true →
    (s.m.pwr.state = .active ∨ s.m.pwr.state = .idle →
      exec (.parkRequest path) s = .next (s.on (fun m => { m with pwr := { m.pwr with parkReq := true } }))) ∧
    (s.m.pwr.state ≠ .active → s.m.pwr.state ≠ .idle → exec (.parkRequest path) s = .next s) ∧
    (s.m.pwr.state = .park → s.m.pwr.dip ≠ .asserted → s.m.pwr.critical = [] →
      ∃ t, exec (.activeRequest path) s = .next t ∧ t.m.pwr = { s.m.pwr with state := .idle, idleCount := 0 }
        ∧ (s.m.dbg.stopped = false → ∀ i, i < 12 → t.m.fget Fld.HBM_STACK_STATUS_STATE i
            = if s.m.fget Fld.HBM_STACK_STATUS_STATE i = 3 then 2 else s.m.fget Fld.HBM_STACK_STATUS_STATE i)
        ∧ State.sameBut [.regs, .pwr] s t) ∧
    (s.m.pwr.state = .park → s.m.pwr.dip = .asserted ∨ s.m.pwr.critical ≠ [] →
      ∃ t, exec (.activeRequest path) s = .next t ∧ t.m.pwr = s.m.pwr ∧ t.m.fget Fld.PWR_ERR_STATE = 1
        ∧ t.m.reports .corrected 0x1008 0 1 (if s.m.pwr.dip = .asserted then 0 else 1) 0) ∧
    (s.m.pwr.state ≠ .park → exec (.activeRequest path) s = .next s)) ∧
  (∀ s : State,
    let quiet := s.m.running && s.m.pwr.parkReq && s.m.atBoundary && !s.m.stepBusy && !s.m.anyFlight
    let down := fun (t : State) => (∀ p, p < 64 → (s.m.port p).st ≠ .disabled → (t.m.port p).st = .down) ∧
      (∀ i, i < 12 → t.m.fget Fld.HBM_STACK_STATUS_STATE i
        = if s.m.fget Fld.HBM_STACK_STATUS_STATE i = 2 then 3 else s.m.fget Fld.HBM_STACK_STATUS_STATE i) ∧
      t.m.plt = s.m.plt ∧ t.m.pool = s.m.pool ∧ t.m.mem = s.m.mem ∧ t.m.stm = s.m.stm
    (quiet = true → ∃ t, exec .parkEntry s = .next t ∧ t.m.pwr = { s.m.pwr with state := .park, parkReq := false, noSteps := false } ∧ down t) ∧
    (quiet = false → exec .parkEntry s = .next s) ∧
    (s.m.mgUp = true → s.m.pwr.ready = true → s.m.host.linkUp = true → s.m.pwr.perst = false → s.m.pwr.state ≠ .sleep →
      ∃ t, exec .d3hotEntry s = .next t ∧ t.m.pwr = { s.m.pwr with state := .sleep } ∧ down t
        ∧ (s.m.stepOpen = true → t.m.step.cause.isSome = true) ∧ (s.m.stepOpen = false → t.m.step = s.m.step)) ∧
    (s.m.mgUp = true → s.m.pwr.ready = true → s.m.host.linkUp = true → s.m.pwr.perst = false → s.m.pwr.state = .sleep →
      ∃ t, exec .d0Entry s = .next t ∧ t.m.pwr = { s.m.pwr with state := .idle, idleCount := 0, bmcWake := false }
        ∧ (s.m.dbg.frzPin = true → t.m.dbg.stopped = true)
        ∧ (s.m.dbg.frzPin = false → t.m.dbg = s.m.dbg ∧ t.m.host.out = s.m.host.out ++ (if s.m.pwr.bmcWake then [.pin 2 true] else []))) ∧
    (s.m.pwr.state = .sleep → exec .d3hotEntry s = .next s) ∧
    (s.m.pwr.state ≠ .sleep → exec .d0Entry s = .next s) ∧
    (s.m.mgUp = true → s.m.pwr.state = .sleep → s.m.pwr.bmcWake = false →
      exec .bmcWakeRequest s = .next (s.on (fun m => Mod.emit { m with pwr := { m.pwr with bmcWake := true } } (.pin 2 false)))) ∧
    (s.m.pwr.state ≠ .sleep → exec .bmcWakeRequest s = .next s) ∧
    (s.m.pwr.bmcWake = true →
      exec .wakeTimeout s = .next (s.on (fun m => Mod.emit { m with pwr := { m.pwr with bmcWake := false } } (.pin 2 true)))) ∧
    (s.m.pwr.bmcWake = false → exec .wakeTimeout s = .next s)) ∧
  (∀ (s : State) (port : Nat),
    let wakes := s.m.mgUp && s.m.pwr.ready && !s.m.dbg.stopped && s.m.pwr.state == .park && s.m.fget Fld.PWR_CFG_FABRIC_WAKE == 1
      && s.m.activePorts.contains port
    (wakes = true → ∃ t, exec (.fabricWake port) s = .next t ∧ t.m.pwr = { s.m.pwr with state := .idle, idleCount := 0 }
      ∧ State.sameBut [.regs, .pwr] s t) ∧
    (wakes = false → exec (.fabricWake port) s = .next s)) ∧
  (∀ s : State,
    let idle := s.m.running && s.m.pwr.state == .active && !s.m.stepBusy
      && (!s.m.plateActive || decide (max 1 (s.m.fget Fld.PWR_CFG_IDLE_TICKS) ≤ s.m.pwr.idleCount))
    (idle = true → exec .idleEntry s = .next (s.on (fun m => { m with pwr := { m.pwr with state := .idle } }))) ∧
    (idle = false → exec .idleEntry s = .next s))

/-! ### Debug -/

/-- The commands of the debug module. Without an unlock each is discarded with DBG_ERR.LOCKED (R451). HALT stops a core that is in a
stable and not fenced, at once or at its next kernel boundary, and sets DBG_ERR.HALT for another (R455); RESUME releases, STEP runs one
kernel (R457). DBG_MEM_READ and DBG_MEM_WRITE move a sector, with RANGE outside the space and REFUSED where its condition fails (R460). A
freeze stops the clocks at once, or waits for the guard's end, and records tick and cycle (R461, R462); FRZ_N released takes back what it
asked for and waits (log entry 72); READOUT_READY raises FROZEN; FRZ_MEMREAD sets MEMREAD (R10), which brings the memory of a frozen device
back (R464). TRACE_START clears the buffer, TRACE_STOP stops it (R466). -/
def Obligations.DebugCommands : Prop :=
  (∀ (s : State) (scope target : Nat), s.m.sec.unlock = 0 →
    ∀ c ∈ [(Instr.dbgHalt scope target, Reg.DBG_HALT_CTRL), (.dbgResume scope target, Reg.DBG_HALT_CTRL), (.dbgStep scope target, Reg.DBG_HALT_CTRL),
        (.dbgMemRead noEcc, Reg.DBG_MEM_CTRL), (.dbgMemWrite noEcc, Reg.DBG_MEM_CTRL), (.frzCtrlFreeze, Reg.DBG_FRZ_CTRL),
        (.frzMemread, Reg.DBG_FRZ_CTRL), (.traceStart, Reg.DBG_TRACE_CTRL), (.traceStop, Reg.DBG_TRACE_CTRL)],
      s.m.answers c.2.base = true →
      ∃ t, exec c.1 s = .next t ∧ t.m.fget Fld.DBG_ERR_LOCKED = 1 ∧ State.setsOnly [Reg.DBG_ERR.base] s t) ∧
  (∀ (s : State) (scope target : Nat), s.m.answers Reg.DBG_HALT_CTRL.base = true → s.m.sec.unlock ≠ 0 → scope < 4 → target < 4096 →
    let named := match scope with | 0 => [target] | 1 => s.m.ranks target | 2 => s.m.stableCores | _ => []
    let held := fun (c : Nat) => (s.m.core c).halt.isSome
    (∃ t, exec (.dbgHalt scope target) s = .next t
      ∧ (∀ c ∈ named, s.m.haltable c = true →
          if (s.m.core c).run.isNone then (t.m.core c).halt.any (·.request) = true else (t.m.core c).haltReq.any (·.request) = true)
      ∧ (∀ c, c ∉ named ∨ s.m.haltable c = false → t.m.core c = s.m.core c)
      ∧ ((∃ c ∈ named, s.m.haltable c = false) ∨ (scope = 1 ∧ s.m.stableRec? target = none) → t.m.fget Fld.DBG_ERR_HALT = 1)
      ∧ (scope = 2 → t.m.dbg.devHalt = true) ∧ (scope ≠ 2 → t.m.dbg.devHalt = s.m.dbg.devHalt)) ∧
    (∃ t, exec (.dbgResume scope target) s = .next t
      ∧ (∀ c ∈ named, (t.m.core c).halt = none ∧ (t.m.core c).haltReq = none)
      ∧ (∀ c, c ∉ named → t.m.core c = s.m.core c)
      ∧ (scope = 2 → t.m.dbg.devHalt = false) ∧ (scope ≠ 2 → t.m.dbg = s.m.dbg) ∧ State.sameBut [.cores, .dbg] s t) ∧
    (∃ t, exec (.dbgStep scope target) s = .next t
      ∧ (∀ c ∈ named, held c = true → t.m.core c = { s.m.core c with halt := none, stepOne := true, skipBp := true })
      ∧ (∀ c, c ∉ named ∨ held c = false → t.m.core c = s.m.core c)
      ∧ t.m.dbg = { s.m.dbg with devStep := decide (scope = 2) || (s.m.dbg.devStep && s.m.cores.any (fun e => e.2.stepOne)) }
      ∧ State.sameBut [.cores, .dbg] s t)) ∧
  (∀ s : State, s.m.answers Reg.DBG_MEM_CTRL.base = true → s.m.sec.unlock ≠ 0 →
    let space := s.m.fget Fld.DBG_MEM_CTRL_SPACE
    let core := s.m.fget Fld.DBG_MEM_CTRL_CORE
    let addr := s.m.dbgAddr
    let a := addr / 64 * 64
    let k := s.m.fget Fld.DBG_MEM_CTRL_STACK * stackSize + a
    let seen := if s.m.bar2Void a then s.m else s.m.yard .debug a 64 false
    let found := if space = 0 then (List.range 64).map (fun i => seen.byteAt (seen.bar2Loc (a + i)))
      else if space = 1 then (List.range 64).map (fun i => s.m.byteAt (.hbm (k + i)))
      else if space = 2 then s.m.sramRead core a 64
      else (s.m.traceBytes (a / 32) ++ s.m.traceBytes (a / 32 + 1)).map (fun b => (b, false))
    let given := s.m.memData
    (∀ c ∈ [Instr.dbgMemRead noEcc, .dbgMemWrite noEcc],
      (s.m.memOutside space addr = true →
        ∃ t, exec c s = .next t ∧ t.m.fget Fld.DBG_MEM_STATUS_RESULT = 3 ∧ State.setsOnly [Reg.DBG_MEM_STATUS.base] s t) ∧
      (s.m.memOutside space addr = false → s.m.memAllowed space addr = false →
        ∃ t, exec c s = .next t ∧ t.m.fget Fld.DBG_MEM_STATUS_RESULT = 2 ∧ t.m.fget Fld.DBG_ERR_MEM = 1
          ∧ State.setsOnly [Reg.DBG_MEM_STATUS.base, Reg.DBG_ERR.base] s t)) ∧
    (s.m.memOutside space addr = false → s.m.memAllowed space addr = true →
      (∃ t, exec (.dbgMemRead noEcc) s = .next t ∧ t.m.mem = s.m.mem
        ∧ t.m.fget Fld.DBG_MEM_STATUS_RESULT = (if rdPoison found then 1 else 0)
        ∧ (∀ i, i < 16 → t.m.fget Fld.DBG_MEM_DATA_DATA i
            = if rdPoison found then 0xFFFFFFFF else leNat (((rdBytes found).drop (4 * i)).take 4))) ∧
      (∃ t, exec (.dbgMemWrite noEcc) s = .next t
        ∧ (space ≠ 0 ∨ slotOf a = none → t.m.fget Fld.DBG_MEM_STATUS_RESULT = 0)
        ∧ (space = 0 → s.m.plateActive = false → a + 64 ≤ slotBase →
            ∀ i, i < 64 → s.m.stackFailed (a + i) = false → t.m.byteAt (.hbm (a + i)) = (given.getD i 0, false))
        ∧ (space = 1 → ∀ i, i < 64 → s.m.stackFailed (k + i) = false → t.m.byteAt (.hbm (k + i)) = (given.getD i 0, false))
        ∧ (space = 2 → t.m.sramRead core a 64 = given.map (fun b => (b, false)) ∧ t.m.mem.hbm = s.m.mem.hbm)
        ∧ (space = 3 → kvGet? t.m.dbg.trace (a / 32) = some (TraceRec.ofBytes (given.take 32))
            ∧ kvGet? t.m.dbg.trace (a / 32 + 1) = some (TraceRec.ofBytes (given.drop 32)) ∧ t.m.mem = s.m.mem)))) ∧
  (∀ s : State,
    let guard := s.m.tick.running && s.m.inGuard
    let frozen := fun (t : State) => t.m.dbg.stopped = true ∧ t.m.dbg.frzWait = false
      ∧ t.m.get64 Fld.DBG_FRZ_TICK_LO_TICK Fld.DBG_FRZ_TICK_HI_TICK = s.m.tick.count % 2 ^ 48
      ∧ t.m.fget Fld.DBG_FRZ_CYCLE_CYCLE = s.m.tick.cycle % 2 ^ 16
      ∧ (∀ p, p < 64 → (s.m.port p).st ≠ .disabled → (t.m.port p).st = .down)
      ∧ (∀ i, i < 12 → t.m.fget Fld.HBM_STACK_STATUS_STATE i
          = if s.m.fget Fld.HBM_STACK_STATUS_STATE i = 2 ∧ s.m.dbg.memread = false then 3 else s.m.fget Fld.HBM_STACK_STATUS_STATE i)
      ∧ (∀ r, s.m.plt.pending = some r → r.activate = true → t.m.plt.pending = none) ∧ t.m.step = s.m.step ∧ t.m.mem = s.m.mem
    (s.m.dbg.frzPin = true → exec .frzNAssert s = .next s) ∧
    (s.m.dbg.frzPin = false → s.m.freezable = true → guard = false → ∃ t, exec .frzNAssert s = .next t ∧ frozen t ∧ t.m.dbg.frzPin = true) ∧
    (s.m.dbg.frzPin = false → s.m.freezable = true → guard = true →
      ∃ t, exec .frzNAssert s = .next t ∧ t.m.dbg.frzWait = true ∧ t.m.dbg.stopped = s.m.dbg.stopped ∧ State.sameBut [.dbg] s t) ∧
    (s.m.dbg.frzPin = false → s.m.freezable = false →
      exec .frzNAssert s = .next (s.on (fun m => { m with dbg := { m.dbg with frzPin := true } }))) ∧
    (exec .frzNDeassert s
      = .next (s.on (fun m => { m with dbg := { m.dbg with frzPin := false, frzWait := m.dbg.frzWait && m.dbg.frzReg } }))) ∧
    (s.m.answers Reg.DBG_FRZ_CTRL.base = true → s.m.sec.unlock ≠ 0 → s.m.freezable = true → guard = false →
      ∃ t, exec .frzCtrlFreeze s = .next t ∧ frozen t ∧ t.m.dbg.frzReg = true) ∧
    (s.m.mgUp = true → s.m.dbg.stopped = true → s.m.dbg.ready = false →
      ∃ t, exec .readoutReady s = .next t ∧ t.m.dbg = { s.m.dbg with ready := true } ∧ State.sameBut [.evIn, .dbg] s t
        ∧ t.m.reports .device 0x1101 0 (s.m.fget Fld.DBG_FRZ_TICK_LO_TICK) (s.m.fget Fld.DBG_FRZ_CYCLE_CYCLE) (if s.m.dbg.frzReg then 1 else 0)) ∧
    (s.m.dbg.stopped = false ∨ s.m.dbg.ready = true → exec .readoutReady s = .next s) ∧
    (s.m.answers Reg.DBG_FRZ_CTRL.base = true → s.m.sec.unlock ≠ 0 → s.m.dbg.stopped = true → s.m.dbg.memread = false →
      ∃ t, exec .frzMemread s = .next t ∧ t.m.dbg = { s.m.dbg with memread := true }
        ∧ (∀ i, i < 12 → t.m.fget Fld.HBM_STACK_STATUS_STATE i
            = if s.m.fget Fld.HBM_STACK_STATUS_STATE i = 3 then 2 else s.m.fget Fld.HBM_STACK_STATUS_STATE i) ∧ State.sameBut [.regs, .dbg] s t) ∧
    (s.m.answers Reg.DBG_FRZ_CTRL.base = true → s.m.sec.unlock ≠ 0 → s.m.dbg.stopped = false →
      exec .frzMemread s = .next { s with m := { s.m with dbg := { s.m.dbg with memread := true } } })) ∧
  (∀ s : State, s.m.answers Reg.DBG_TRACE_CTRL.base = true → s.m.sec.unlock ≠ 0 →
    (∃ t, exec .traceStart s = .next t ∧ t.m.dbg = { s.m.dbg with trace := [], traceSt := 1, post := none }
      ∧ t.m.fget Fld.DBG_TRACE_PTR_NEXT = 0 ∧ t.m.fget Fld.DBG_TRACE_PTR_WRAPPED = 0 ∧ t.m.fget Fld.DBG_STATUS_TRACE_TRIG = 0) ∧
    (s.m.dbg.traceSt = 1 → exec .traceStop s = .next (s.on (fun m => { m with dbg := { m.dbg with traceSt := 2 } }))) ∧
    (s.m.dbg.traceSt ≠ 1 → exec .traceStop s = .next s))

/-- The TAP (R453, R454): IDCODE, BYPASS and SAMPLE_PRELOAD select and shift out what Table 18-1 gives, the boundary cells being a free
value of the pins; EXTEST, CLAMP and HIGHZ act while PERST# is asserted and are BYPASS with DBG_ERR.EXTEST otherwise; TAP_RESET selects
IDCODE (log entry 71). DBG_ACCESS shifts out the result of the access before and makes its own: all ones and ERR where it is not aligned,
its block does not answer or no unlock opens it (R451), else as through BAR0. -/
def Obligations.TestAccessPort : Prop :=
  (∀ s : State, s.m.mgUp = true →
    let shown := fun (t : State) (ir out : Nat) => t.m.dbg.tapIr = ir ∧ t.m.host.out = s.m.host.out ++ [.tap out]
    let rev := Config.revision.toNat % 16
    (∃ t, exec .idcode s = .next t ∧ shown t 0x01 (rev * 2 ^ 28 + 0x4010 * 2 ^ 12 + 0x2B5 * 2 + 1) ∧ State.sameBut [.host, .dbg] s t) ∧
    (∃ t, exec .bypass s = .next t ∧ shown t 0xFF 0 ∧ State.sameBut [.host, .dbg] s t) ∧
    (∃ t v, exec .samplePreload s = .next t ∧ shown t 0x02 v ∧ State.sameBut [.host, .dbg, .fresh] s t) ∧
    (s.m.pwr.perst = true →
      (∃ t v, exec .extest s = .next t ∧ shown t 0x03 v ∧ t.m.regs = s.m.regs) ∧
      (∃ t, exec .tapClamp s = .next t ∧ shown t 0x04 0 ∧ t.m.regs = s.m.regs) ∧
      (∃ t, exec .highz s = .next t ∧ shown t 0x05 0 ∧ t.m.regs = s.m.regs)) ∧
    (s.m.pwr.perst = false → ∀ c ∈ [Instr.extest, .tapClamp, .highz],
      ∃ t, exec c s = .next t ∧ shown t 0xFF 0 ∧ t.m.fget Fld.DBG_ERR_EXTEST = 1 ∧ s.m.regsKeep [Reg.DBG_ERR.base] t.m)) ∧
  (∀ s : State, exec .tapReset s = .next (s.on (fun m => { m with dbg := { m.dbg with tapIr := 0x01 } }))) ∧
  (∀ (s : State) (write : Bool) (off data : Nat), s.m.mgUp = true → off < 2 ^ 26 →
    let live : Mod := { s.m with pwr := { s.m.pwr with perst := false } }
    let before := match s.m.dbg.tapLast with | some r => r.1 + 2 ^ 32 + (if r.2 then 2 ^ 33 else 0) | none => 0
    let shut := bar0Aligned off = false ∨ live.answers off = false ∨ s.m.sec.unlock = 0 ∧ tapOpen off = false
    (shut → ∃ t, exec (.dbgAccess write off data) s = .next t ∧ t.m.host.out = s.m.host.out ++ [.tap before]
      ∧ t.m.dbg.tapLast = some (0xFFFFFFFF, true) ∧ State.sameBut [.regs, .host, .dbg] s t ∧ s.m.regsKeep [Reg.DBG_ERR.base] t.m) ∧
    (¬ shut → ∃ t, exec (.dbgAccess false off data) s = .next t ∧ t.m.host.out = s.m.host.out ++ [.tap before]
      ∧ t.m.dbg.tapLast = some (s.regRead off, false) ∧ t.m.regs.store = s.m.regs.store ∧ State.sameBut [.regs, .host, .dbg] s t) ∧
    (∀ (r : RegSpec) (i j : Nat), ¬ shut → plainReg off r i j → r.kind = .plain → s.m.disabledReg off = false →
      ∃ t, exec (.dbgAccess true off data) s = .next t ∧ t.m.host.out = s.m.host.out ++ [.tap before] ∧ t.m.dbg.tapLast = some (0, false)
        ∧ t.m.regs.read r i j = r.apply s.m.plateActive (s.m.regs.read r i j) (data % 2 ^ 32) ∧ s.m.regsKeep [off] t.m))

/-! ### Check units -/

/-- The check-value units. CHK_START runs a scan to its CRC (R383, R384), or is refused on a busy unit, one the plate names, for the
reserved mode, or for parameters that break R387 (R389); a snoop waits to attach. CHK_PLATE_JOB_START starts a plate job once its barrier
is complete, once per step, and signals DONE where the unit is busy (R389, R390). CHK_JOB_COMPLETE writes result, bytes and outcome and
gives the events of R388, the message of vector 8 + v and a plate job's DONE; CHK_ABORT ends a host job ABORTED and ignores a plate job
(R389). -/
def Obligations.CheckUnits : Prop :=
  (∀ (s : State) (u : Nat), u < 8 → s.m.answers (Reg.CHK_CTRL.addr u 0) = true →
    let refused := ∃ t, exec (.chkStart u noEcc) s = .next t ∧ t.m.chk = s.m.chk ∧ (t.m.fget Fld.CHK_ERR_REFUSED).testBit u = true
      ∧ t.m.reports .corrected 0x0E04 u 0 0 0 ∧ State.setsAndRaises [Reg.CHK_ERR.base] s t
    (s.m.fget Fld.CHK_CFG_MODE u = 3 → refused) ∧
    (∀ j, s.m.chkRegs u = some j →
      ((s.m.chkRun? u).isSome = true ∨ s.m.chkOwned u = true ∨ j.aliveBad = true → refused) ∧
      (s.m.chkRun? u = none → s.m.chkOwned u = false → j.aliveBad = false →
        (j.mode = .snoop → ∃ t x, exec (.chkStart u noEcc) s = .next t ∧ t.m.chkRun? u = some x ∧ x.st = .waitAttach ∧ x.count = 0
          ∧ x.plateJob = none ∧ x.job = j ∧ State.sameBut [.chk] s t) ∧
        (j.mode ≠ .snoop → s.m.heldPort j.addr j.len = none →
          let d := ((s.m.setChk u (ChkRun.fresh j none)).yard .check j.addr j.len false).devRead j.addr j.len
          let init := if j.crc64 then 0xFFFFFFFFFFFFFFFF else 0xFFFFFFFF
          ∃ t x, exec (.chkStart u noEcc) s = .next t ∧ t.m.chkRun? u = some x ∧ x.job = j ∧ x.scanned = true ∧ t.m.mem = s.m.mem
            ∧ (rdPoison d = false → j.alive = false → x.crc = (rdBytes d).foldl j.crcStep init ∧ x.count = j.len
                ∧ x.st = (if j.mode = .scanSnoop then .waitAttach else .scan))
            ∧ (∀ k, k < j.len → (d.getD k (0, false)).2 = true → (∀ i, i < k → (d.getD i (0, false)).2 = false) → j.alive = false →
                x.poisoned = true ∧ x.count = k))))) ∧
  (∀ (s : State) (ix : Nat) (p : Plate) (j : ChkJob), s.m.running = true → s.m.plate? = some p → p.checks[ix]? = some j → j.unit < 8 →
    let due := s.m.stepBusy && s.m.barrierDone j.start && !s.m.chk.started.contains ix
    (due = false → exec (.chkPlateJobStart ix noEcc) s = .next s) ∧
    (due = true → s.m.chkRun? j.unit = none →
      ∃ t x, exec (.chkPlateJobStart ix noEcc) s = .next t ∧ t.m.chkRun? j.unit = some x ∧ x.plateJob = some ix ∧ x.job = j
        ∧ ix ∈ t.m.chk.started) ∧
    (due = true → s.m.chkRun? j.unit ≠ none →
      ∃ t, exec (.chkPlateJobStart ix noEcc) s = .next t ∧ t.m.chk.runs = s.m.chk.runs ∧ ix ∈ t.m.chk.started
        ∧ t.m.reports .corrected 0x0E04 j.unit 1 ix 0
        ∧ t.m.sched.sigs = s.m.sched.sigs ++ (if j.done = 0xFFFF then [] else [j.done]))) ∧
  (∀ (s : State) (u : Nat) (x : ChkRun), u < 8 → s.m.chkRun? u = some x →
    let closed := fun (t : State) (outcome : Nat) => t.m.chkRun? u = none
      ∧ (∀ v, v ≠ u → t.m.chkRun? v = s.m.chkRun? v)
      ∧ t.m.get64 Fld.CHK_RESULT_LO_RESULT Fld.CHK_RESULT_HI_RESULT u = x.result % 2 ^ 64
      ∧ t.m.get64 Fld.CHK_DONE_LO_DONE Fld.CHK_DONE_HI_DONE u = x.count % 2 ^ 48
      ∧ t.m.fget Fld.CHK_STATUS_OUTCOME u = outcome
      ∧ t.m.sched.sigs = s.m.sched.sigs ++ (if x.plateJob.isSome ∧ x.job.done ≠ 0xFFFF then [x.job.done] else [])
      ∧ (∀ addr data, s.m.host.msixEnable = true → s.m.host.funcMask = false → kvGet? s.m.host.entries (8 + u) = some ⟨addr, data, false⟩ →
          t.m.host.out = s.m.host.out ++ [.msix (8 + u) addr data])
    let tells := fun (t : State) (code d0 d1 d2 : Nat) =>
      if x.plateJob.isSome ∧ x.job.stepFault = true then s.m.reportsCause t.m .contained code u d0 d1 d2 else t.m.reports .contained code u d0 d1 d2
    (s.m.running = true → x.scanned = true → x.finished = true →
      ∃ t, exec (.chkJobComplete u) s = .next t ∧ closed t x.outcome
        ∧ (x.outcome = 2 → (t.m.fget Fld.CHK_ERR_MISMATCH).testBit u = true ∧ tells t 0x0E01 (lo32 x.result) (hi32 x.result) x.plateJob.isSome.toNat)
        ∧ (x.outcome = 3 → (t.m.fget Fld.CHK_ERR_ALIVE).testBit u = true ∧ tells t 0x0E02 (x.bad.getD 0) (x.alive + 2 ^ 16 * x.found) 0)
        ∧ (x.outcome = 4 → (t.m.fget Fld.CHK_ERR_POISON).testBit u = true ∧ tells t 0x0E03 (lo32 x.count) 0 0)
        ∧ (x.outcome ≠ 2 → x.outcome ≠ 3 → x.outcome ≠ 4 → t.m.evIn = s.m.evIn)) ∧
    (s.m.running = true → x.scanned = true → x.finished = false → exec (.chkJobComplete u) s = .next s) ∧
    (s.m.answers (Reg.CHK_CTRL.addr u 0) = true →
      (x.plateJob = none → ∃ t, exec (.chkAbort u) s = .next t ∧ closed t 6 ∧ t.m.evIn = s.m.evIn) ∧
      (x.plateJob ≠ none → exec (.chkAbort u) s = .next s))) ∧
  (∀ x : ChkRun, x.bad = none → x.poisoned = false → x.abandoned = false →
    x.outcome = (if x.job.compare = false then 7
      else if (if x.job.crc64 then x.crc ^^^ 0xFFFFFFFFFFFFFFFF else x.crc ^^^ 0xFFFFFFFF) = x.job.expect then 1 else 2))

end
end

