-- ==== Sys2Proof/Laws/Kv.lean ====
section
/-! SUPPORT. What listing, deleting and keeping entries of a sparse table does to what it reads as, and that each keeps the
canonical form. -/

namespace Sys2Proof.Machine

variable {α : Type}

/-- A key just listed reads as what was listed. -/
@[simp] theorem kvGet?_kvSet_same (m : Kv α) (k : Nat) (v : α) : kvGet? (kvSet m k v) k = some v := by
  induction m with
  | nil => simp [kvSet, kvGet?]
  | cons e m ih =>
    obtain ⟨k', v'⟩ := e
    by_cases h1 : k < k'
    · simp [kvSet, kvGet?, h1]
    · by_cases h2 : k = k'
      · simp [kvSet, kvGet?, h2]
      · simp [kvSet, kvGet?, h1, h2, ih]

/-- Listing a key leaves what every other key reads as. -/
theorem kvGet?_kvSet_other (m : Kv α) {k j : Nat} (v : α) (h : j ≠ k) : kvGet? (kvSet m k v) j = kvGet? m j := by
  induction m with
  | nil => simp [kvSet, kvGet?, h]
  | cons e m ih =>
    obtain ⟨k', v'⟩ := e
    by_cases h1 : k < k'
    · simp [kvSet, kvGet?, h1, h]
    · by_cases h2 : k = k'
      · subst h2; simp [kvSet, kvGet?, h]
      · simp [kvSet, kvGet?, h1, h2, ih]

/-- A key deleted is not listed. -/
@[simp] theorem kvGet?_kvDel_same (m : Kv α) (k : Nat) : kvGet? (kvDel m k) k = none := by
  induction m with
  | nil => rfl
  | cons e m ih =>
    obtain ⟨k', v'⟩ := e
    by_cases h : k' = k
    · simpa [kvDel, h] using ih
    · have h' : ¬k = k' := fun e => h e.symm
      simpa [kvDel, kvGet?, h, h'] using ih

/-- Deleting a key leaves what every other key reads as. -/
theorem kvGet?_kvDel_other (m : Kv α) {k j : Nat} (h : j ≠ k) : kvGet? (kvDel m k) j = kvGet? m j := by
  induction m with
  | nil => rfl
  | cons e m ih =>
    obtain ⟨k', v'⟩ := e
    by_cases hk : k' = k
    · subst hk; simpa [kvDel, kvGet?, h] using ih
    · by_cases hj : j = k'
      · simp [kvDel, kvGet?, hk, hj]
      · simpa [kvDel, kvGet?, hk, hj] using ih

/-- What is kept of a table reads as before where the key is kept, and as nothing elsewhere. -/
theorem kvGet?_kvKeep (m : Kv α) (p : Nat → Bool) (k : Nat) : kvGet? (kvKeep m p) k = if p k then kvGet? m k else none := by
  induction m with
  | nil => simp [kvKeep, kvGet?]
  | cons e m ih =>
    obtain ⟨k', v'⟩ := e
    rw [kvKeep] at ih
    by_cases hk : p k' = true
    · by_cases h : k = k'
      · subst h; simp [kvKeep, kvGet?, hk]
      · simp [kvKeep, kvGet?, hk, h, ih]
    · by_cases h : k = k'
      · subst h; simp [kvKeep, hk, ih]
      · simp [kvKeep, kvGet?, hk, h, ih]

/-- The default form of `kvGet?_kvSet_same`. -/
@[simp] theorem kvGetD_kvSet_same (m : Kv α) (k : Nat) (v d : α) : kvGetD (kvSet m k v) k d = v := by simp [kvGetD]

/-- The default form of `kvGet?_kvSet_other`. -/
theorem kvGetD_kvSet_other (m : Kv α) {k j : Nat} (v d : α) (h : j ≠ k) : kvGetD (kvSet m k v) j d = kvGetD m j d := by
  simp [kvGetD, kvGet?_kvSet_other m v h]

/-- The default form of `kvGet?_kvDel_same`. -/
@[simp] theorem kvGetD_kvDel_same (m : Kv α) (k : Nat) (d : α) : kvGetD (kvDel m k) k d = d := by simp [kvGetD]

/-- The default form of `kvGet?_kvDel_other`. -/
theorem kvGetD_kvDel_other (m : Kv α) {k j : Nat} (d : α) (h : j ≠ k) : kvGetD (kvDel m k) j d = kvGetD m j d := by
  simp [kvGetD, kvGet?_kvDel_other m h]

/-! ### The canonical form -/

/-- A table whose keys lie above `k` has them above every smaller number. -/
theorem kvWfFrom_mono {m : Kv α} {j k : Nat} (h : j ≤ k) (hm : kvWfFrom k m = true) : kvWfFrom j m = true := by
  cases m with
  | nil => rfl
  | cons e m => obtain ⟨k', v'⟩ := e; simp [kvWfFrom] at hm ⊢; exact ⟨by omega, hm.2⟩

/-- Listing a key above `b` keeps the keys above `b` and rising. -/
theorem kvWfFrom_kvSet {m : Kv α} {b k : Nat} (v : α) (hk : b < k) (hm : kvWfFrom b m = true) : kvWfFrom b (kvSet m k v) = true := by
  induction m generalizing b with
  | nil => simp [kvSet, kvWfFrom, hk]
  | cons e m ih =>
    obtain ⟨k', v'⟩ := e
    simp [kvWfFrom] at hm
    by_cases h1 : k < k'
    · simp [kvSet, kvWfFrom, h1, hk, hm.2]
    · by_cases h2 : k = k'
      · subst h2; simp [kvSet, kvWfFrom, hk, hm.2]
      · simp [kvSet, kvWfFrom, h1, h2, hm.1]; exact ih (by omega) hm.2

/-- Listing a key keeps the canonical form. -/
theorem kvWf_kvSet {m : Kv α} (k : Nat) (v : α) (hm : kvWf m = true) : kvWf (kvSet m k v) = true := by
  cases m with
  | nil => rfl
  | cons e m =>
    obtain ⟨k', v'⟩ := e
    simp [kvWf] at hm
    by_cases h1 : k < k'
    · simp [kvSet, kvWf, kvWfFrom, h1, hm]
    · by_cases h2 : k = k'
      · subst h2; simp [kvSet, kvWf, hm]
      · simp [kvSet, kvWf, h1, h2]; exact kvWfFrom_kvSet v (by omega) hm

/-- What is kept of a table whose keys rise above `b` has keys that rise above `b`. -/
theorem kvWfFrom_filter {m : Kv α} {b : Nat} (p : Nat × α → Bool) (hm : kvWfFrom b m = true) : kvWfFrom b (m.filter p) = true := by
  induction m generalizing b with
  | nil => rfl
  | cons e m ih =>
    obtain ⟨k', v'⟩ := e
    simp [kvWfFrom] at hm
    by_cases h : p (k', v') = true
    · simp [List.filter, h, kvWfFrom, hm.1, ih hm.2]
    · simp [List.filter, h]; exact ih (kvWfFrom_mono (by omega) hm.2)

/-- Filtering keeps the canonical form. -/
theorem kvWf_filter {m : Kv α} (p : Nat × α → Bool) (hm : kvWf m = true) : kvWf (m.filter p) = true := by
  induction m with
  | nil => rfl
  | cons e m ih =>
    obtain ⟨k', v'⟩ := e
    simp [kvWf] at hm
    by_cases h : p (k', v') = true
    · simp [List.filter, h, kvWf, kvWfFrom_filter p hm]
    · simp [List.filter, h]
      refine ih ?_
      cases m with
      | nil => rfl
      | cons e m => obtain ⟨k2, v2⟩ := e; simp [kvWfFrom] at hm; simp [kvWf, hm.2]

/-- Deleting a key keeps the canonical form. -/
theorem kvWf_kvDel {m : Kv α} (k : Nat) (hm : kvWf m = true) : kvWf (kvDel m k) = true := kvWf_filter _ hm

/-- Keeping entries keeps the canonical form. -/
theorem kvWf_kvKeep {m : Kv α} (p : Nat → Bool) (hm : kvWf m = true) : kvWf (kvKeep m p) = true := kvWf_filter _ hm

/-! ### Sets -/

/-- A member just added is in the set. -/
@[simp] theorem mem_setAdd_same (m : NatSet) (k : Nat) : k ∈ setAdd m k := by
  induction m with
  | nil => simp [setAdd]
  | cons x m ih => by_cases h1 : k < x <;> by_cases h2 : k = x <;> simp [setAdd, h1, h2, ih]

/-- Adding a member leaves the others. -/
theorem mem_setAdd (m : NatSet) (j k : Nat) : j ∈ setAdd m k ↔ j = k ∨ j ∈ m := by
  induction m with
  | nil => simp [setAdd]
  | cons x m ih =>
    by_cases h1 : k < x
    · simp [setAdd, h1]
    · by_cases h2 : k = x
      · subst h2; simp [setAdd]
      · simp [setAdd, h1, h2, ih]; exact or_left_comm

/-- A member taken out is not in the set; the others stay. -/
theorem mem_setDel (m : NatSet) (j k : Nat) : j ∈ setDel m k ↔ j ≠ k ∧ j ∈ m := by
  simp [setDel, and_comm]

/-- Members above `k` lie above every smaller number. -/
theorem setWfFrom_mono {m : NatSet} {j k : Nat} (h : j ≤ k) (hm : setWfFrom k m = true) : setWfFrom j m = true := by
  cases m with
  | nil => rfl
  | cons x m => simp [setWfFrom] at hm ⊢; exact ⟨by omega, hm.2⟩

/-- Adding a member above `b` keeps the members above `b` and rising. -/
theorem setWfFrom_setAdd {m : NatSet} {b k : Nat} (hk : b < k) (hm : setWfFrom b m = true) : setWfFrom b (setAdd m k) = true := by
  induction m generalizing b with
  | nil => simp [setAdd, setWfFrom, hk]
  | cons x m ih =>
    simp [setWfFrom] at hm
    by_cases h1 : k < x
    · simp [setAdd, setWfFrom, h1, hk, hm.2]
    · by_cases h2 : k = x
      · subst h2; simp [setAdd, setWfFrom, hk, hm.2]
      · simp [setAdd, setWfFrom, h1, h2, hm.1]; exact ih (by omega) hm.2

/-- Adding a member keeps the canonical form. -/
theorem setWf_setAdd {m : NatSet} (k : Nat) (hm : setWf m = true) : setWf (setAdd m k) = true := by
  cases m with
  | nil => rfl
  | cons x m =>
    simp [setWf] at hm
    by_cases h1 : k < x
    · simp [setAdd, setWf, setWfFrom, h1, hm]
    · by_cases h2 : k = x
      · subst h2; simp [setAdd, setWf, hm]
      · simp [setAdd, setWf, h1, h2]; exact setWfFrom_setAdd (by omega) hm

/-- What is kept of members above `b` stays above `b` and rising. -/
theorem setWfFrom_filter {m : NatSet} {b : Nat} (p : Nat → Bool) (hm : setWfFrom b m = true) : setWfFrom b (m.filter p) = true := by
  induction m generalizing b with
  | nil => rfl
  | cons x m ih =>
    simp [setWfFrom] at hm
    by_cases h : p x = true
    · simp [List.filter, h, setWfFrom, hm.1, ih hm.2]
    · simp [List.filter, h]; exact ih (setWfFrom_mono (by omega) hm.2)

/-- Filtering keeps the canonical form. -/
theorem setWf_filter {m : NatSet} (p : Nat → Bool) (hm : setWf m = true) : setWf (m.filter p) = true := by
  induction m with
  | nil => rfl
  | cons x m ih =>
    simp [setWf] at hm
    by_cases h : p x = true
    · simp [List.filter, h, setWf, setWfFrom_filter p hm]
    · simp [List.filter, h]
      refine ih ?_
      cases m with
      | nil => rfl
      | cons y m => simp [setWfFrom] at hm; simp [setWf, hm.2]

/-- Taking a member out keeps the canonical form. -/
theorem setWf_setDel {m : NatSet} (k : Nat) (hm : setWf m = true) : setWf (setDel m k) = true := setWf_filter _ hm

end Sys2Proof.Machine
end

