-- ==== Sys2Proof/Laws/Memory.lean ====
section
/-! SUPPORT. A read after a write, and that every operation on a memory keeps its canonical form. -/

namespace Sys2Proof.Machine

/-- A byte just stored reads as what was stored. -/
@[simp] theorem Memory.get_set_same (m : Memory) (a : Nat) (v : Byte) : (m.set a v).get a = v := by
  unfold Memory.set Memory.get Memory.undef
  by_cases h : v = Config.undefByte m.epoch m.space.code a
  · simp [h]
  · simp [h]

/-- Storing a byte leaves every other byte. -/
theorem Memory.get_set_other (m : Memory) {a b : Nat} (v : Byte) (h : b ≠ a) : (m.set a v).get b = m.get b := by
  unfold Memory.set Memory.get Memory.undef
  by_cases hv : v = Config.undefByte m.epoch m.space.code a
  · simp [hv, kvGet?_kvDel_other m.cells h]
  · simp [hv, kvGet?_kvSet_other m.cells v h]

/-- The poison marks, the space and the epoch stand when a byte is stored. -/
@[simp] theorem Memory.poison_set (m : Memory) (a : Nat) (v : Byte) : (m.set a v).poison = m.poison := rfl
@[simp] theorem Memory.space_set (m : Memory) (a : Nat) (v : Byte) : (m.set a v).space = m.space := rfl
@[simp] theorem Memory.epoch_set (m : Memory) (a : Nat) (v : Byte) : (m.set a v).epoch = m.epoch := rfl

/-- Marks leave the bytes. -/
@[simp] theorem Memory.get_mark (m : Memory) (u a : Nat) : (m.mark u).get a = m.get a := rfl
@[simp] theorem Memory.get_unmark (m : Memory) (u a : Nat) : (m.unmark u).get a = m.get a := rfl

/-- The poison marks stand when bytes are stored. -/
@[simp] theorem Memory.poison_writeBytes (m : Memory) (a : Nat) (bs : List Byte) : (m.writeBytes a bs).poison = m.poison := by
  induction bs generalizing m a with
  | nil => rfl
  | cons b bs ih => simp [Memory.writeBytes, ih]

/-- Bytes outside those stored stand. -/
theorem Memory.get_writeBytes_outside (m : Memory) (a b : Nat) (bs : List Byte) (h : b < a ∨ a + bs.length ≤ b) :
    (m.writeBytes a bs).get b = m.get b := by
  induction bs generalizing m a with
  | nil => rfl
  | cons x bs ih =>
    simp only [List.length_cons] at h
    rw [Memory.writeBytes, ih _ _ (by omega), Memory.get_set_other _ _ (by omega)]

/-- Bytes stored read as what was stored. -/
theorem Memory.get_writeBytes_inside (m : Memory) (a i : Nat) (bs : List Byte) (h : i < bs.length) :
    (m.writeBytes a bs).get (a + i) = bs[i] := by
  induction bs generalizing m a i with
  | nil => simp at h
  | cons x bs ih =>
    cases i with
    | zero => rw [Memory.writeBytes, Nat.add_zero, Memory.get_writeBytes_outside _ _ _ _ (by omega)]; simp
    | succ i =>
      have := ih (m.set a x) (a + 1) i (by simpa using h)
      rw [Memory.writeBytes, show a + (i + 1) = a + 1 + i by omega, this]; rfl

/-- Storing a byte keeps the canonical form. -/
theorem Memory.wf_set {m : Memory} (a : Nat) (v : Byte) (h : m.wf = true) : (m.set a v).wf = true := by
  simp only [Memory.wf, Bool.and_eq_true, List.all_eq_true, decide_eq_true_eq] at h ⊢
  obtain ⟨⟨h1, h2⟩, h3⟩ := h
  have hu : ∀ x, (m.set a v).undef x = m.undef x := fun _ => rfl
  refine ⟨⟨?_, ?_⟩, h3⟩
  · unfold Memory.set; by_cases hv : v = m.undef a
    · simp [hv, kvWf_kvDel a h1]
    · simp [hv, kvWf_kvSet a v h1]
  · intro e he; rw [hu]
    unfold Memory.set at he; by_cases hv : v = m.undef a
    · simp only [hv, if_true, kvDel, List.mem_filter] at he; exact h2 e he.1
    · simp only [hv, if_false] at he
      have : ∀ (l : Kv Byte), e ∈ kvSet l a v → e = (a, v) ∨ e ∈ l := by
        intro l; induction l with
        | nil => intro q; simp [kvSet] at q; exact .inl q
        | cons y l ih =>
          obtain ⟨k', v'⟩ := y
          intro q; by_cases g1 : a < k'
          · simp [kvSet, g1] at q; simpa using q
          · by_cases g2 : a = k'
            · simp [kvSet, g2] at q; simp; rcases q with q | q
              · exact .inl (by rw [q, g2])
              · exact .inr (.inr q)
            · simp [kvSet, g1, g2] at q; rcases q with q | q
              · exact .inr (by simp [q])
              · rcases ih q with r | r
                · exact .inl r
                · exact .inr (by simp [r])
      rcases this _ he with q | q
      · subst q; exact hv
      · exact h2 e q

/-- Storing bytes keeps the canonical form. -/
theorem Memory.wf_writeBytes {m : Memory} (a : Nat) (bs : List Byte) (h : m.wf = true) : (m.writeBytes a bs).wf = true := by
  induction bs generalizing m a with
  | nil => exact h
  | cons b bs ih => exact ih (a + 1) (Memory.wf_set a b h)

/-- Marking keeps the canonical form. -/
theorem Memory.wf_mark {m : Memory} (u : Nat) (h : m.wf = true) : (m.mark u).wf = true := by
  simp only [Memory.wf, Bool.and_eq_true] at h ⊢
  exact ⟨h.1, setWf_setAdd u h.2⟩

/-- Unmarking keeps the canonical form. -/
theorem Memory.wf_unmark {m : Memory} (u : Nat) (h : m.wf = true) : (m.unmark u).wf = true := by
  simp only [Memory.wf, Bool.and_eq_true] at h ⊢
  exact ⟨h.1, setWf_setDel u h.2⟩

/-- Unmarking many units keeps the canonical form. -/
theorem Memory.wf_unmarks (f : Nat → Nat) (us : List Nat) {m : Memory} (h : m.wf = true) :
    (us.foldl (fun (s : Memory) i => s.unmark (f i)) m).wf = true := by
  induction us generalizing m with
  | nil => exact h
  | cons u us ih => exact ih (Memory.wf_unmark _ h)

/-- Storing bytes where poison is kept by words keeps the canonical form. -/
theorem Memory.wf_putWords {m : Memory} (a : Nat) (data : List Byte) (h : m.wf = true) : (m.putWords a data).wf = true :=
  Memory.wf_unmarks (fun i => (a + 3) / 4 + i) _ (Memory.wf_writeBytes a data h)

/-- A memory made undefined, and one that nothing has written, are in canonical form. -/
theorem Memory.wf_forget (m : Memory) : m.forget.wf = true := rfl
theorem Memory.wf_fresh (sp : MemSpace) : (Memory.fresh sp).wf = true := rfl

/-- A memory with entries taken away is in canonical form. -/
theorem Memory.wf_keep {m : Memory} (p q : Nat → Bool) (h : m.wf = true) :
    Memory.wf { m with cells := kvKeep m.cells p, poison := m.poison.filter q } = true := by
  simp only [Memory.wf, Bool.and_eq_true, List.all_eq_true, decide_eq_true_eq] at h ⊢
  exact ⟨⟨kvWf_kvKeep p h.1.1, fun e he => h.1.2 e (List.mem_filter.1 he).1⟩, setWf_filter q h.2⟩

/-- A memory with cells taken away is in canonical form. -/
theorem Memory.wf_keepCells {m : Memory} (p : Nat → Bool) (h : m.wf = true) : Memory.wf { m with cells := kvKeep m.cells p } = true := by
  simp only [Memory.wf, Bool.and_eq_true, List.all_eq_true, decide_eq_true_eq] at h ⊢
  exact ⟨⟨kvWf_kvKeep p h.1.1, fun e he => h.1.2 e (List.mem_filter.1 he).1⟩, h.2⟩

/-- Storing a list of bytes, each at its place, keeps the canonical form. -/
theorem Memory.wf_setAll (b : Nat) (ws : List (Nat × Byte)) {m : Memory} (h : m.wf = true) :
    (ws.foldl (fun (s : Memory) w => s.set (b + w.1) w.2) m).wf = true := by
  induction ws generalizing m with
  | nil => exact h
  | cons w ws ih => exact ih (Memory.wf_set _ _ h)

end Sys2Proof.Machine
end

