-- ==== Sys2Proof/Laws/State.lean ====
section
/-! SUPPORT. What the small updates of the state leave: one lemma per field and update. -/

namespace Sys2Proof.Machine

/-! ### The state -/

@[simp] theorem State.on_pending (s : State) (f : Mod → Mod) : (s.on f).pending = s.pending := rfl
@[simp] theorem State.on_evq (s : State) (f : Mod → Mod) : (s.on f).evq = s.evq := rfl
@[simp] theorem State.on_m (s : State) (f : Mod → Mod) : (s.on f).m = f s.m := rfl
@[simp] theorem State.unit_pending (s : State) (f : Mod → Mod) : (s.unit f).pending = s.pending := rfl
@[simp] theorem State.unit_evq (s : State) (f : Mod → Mod) : (s.unit f).evq = s.evq := rfl
@[simp] theorem State.reg_pending (s : State) (off : Nat) (f : Mod → Mod) : (s.reg off f).pending = s.pending := rfl
@[simp] theorem State.reg_evq (s : State) (off : Nat) (f : Mod → Mod) : (s.reg off f).evq = s.evq := rfl

/-- While the units outside the management die run, a unit's command acts. -/
theorem State.unit_running {s : State} (f : Mod → Mod) (h : s.m.running = true) : s.unit f = { s with m := f s.m } := by
  simp [State.unit, State.on, h]

/-- While they do not, it changes nothing. -/
theorem State.unit_stopped {s : State} (f : Mod → Mod) (h : s.m.running = false) : s.unit f = s := by
  simp [State.unit, State.on, h]

/-- A register command acts where its block answers. -/
theorem State.reg_answers {s : State} {off : Nat} (f : Mod → Mod) (h : s.m.answers off = true) : s.reg off f = { s with m := f s.m } := by
  simp [State.reg, State.on, h]

/-- Elsewhere it changes nothing. -/
theorem State.reg_silent {s : State} {off : Nat} (f : Mod → Mod) (h : s.m.answers off = false) : s.reg off f = s := by
  simp [State.reg, State.on, h]

/-! ### The module -/

@[simp] theorem Mod.fset_variant (m : Mod) (f : Fld) (v i j : Nat) : (m.fset f v i j).variant = m.variant := rfl
@[simp] theorem Mod.fset_evIn (m : Mod) (f : Fld) (v i j : Nat) : (m.fset f v i j).evIn = m.evIn := rfl
@[simp] theorem Mod.fset_host (m : Mod) (f : Fld) (v i j : Nat) : (m.fset f v i j).host = m.host := rfl
@[simp] theorem Mod.fset_pwr (m : Mod) (f : Fld) (v i j : Nat) : (m.fset f v i j).pwr = m.pwr := rfl
@[simp] theorem Mod.fset_tick (m : Mod) (f : Fld) (v i j : Nat) : (m.fset f v i j).tick = m.tick := rfl
@[simp] theorem Mod.fset_plt (m : Mod) (f : Fld) (v i j : Nat) : (m.fset f v i j).plt = m.plt := rfl
@[simp] theorem Mod.fset_sched (m : Mod) (f : Fld) (v i j : Nat) : (m.fset f v i j).sched = m.sched := rfl
@[simp] theorem Mod.fset_cores (m : Mod) (f : Fld) (v i j : Nat) : (m.fset f v i j).cores = m.cores := rfl
@[simp] theorem Mod.fset_step (m : Mod) (f : Fld) (v i j : Nat) : (m.fset f v i j).step = m.step := rfl
@[simp] theorem Mod.fset_mem (m : Mod) (f : Fld) (v i j : Nat) : (m.fset f v i j).mem = m.mem := rfl
@[simp] theorem Mod.fset_pool (m : Mod) (f : Fld) (v i j : Nat) : (m.fset f v i j).pool = m.pool := rfl
@[simp] theorem Mod.fset_pad (m : Mod) (f : Fld) (v i j : Nat) : (m.fset f v i j).pad = m.pad := rfl
@[simp] theorem Mod.fset_stm (m : Mod) (f : Fld) (v i j : Nat) : (m.fset f v i j).stm = m.stm := rfl
@[simp] theorem Mod.fset_groom (m : Mod) (f : Fld) (v i j : Nat) : (m.fset f v i j).groom = m.groom := rfl
@[simp] theorem Mod.fset_coll (m : Mod) (f : Fld) (v i j : Nat) : (m.fset f v i j).coll = m.coll := rfl
@[simp] theorem Mod.fset_chk (m : Mod) (f : Fld) (v i j : Nat) : (m.fset f v i j).chk = m.chk := rfl
@[simp] theorem Mod.fset_fab (m : Mod) (f : Fld) (v i j : Nat) : (m.fset f v i j).fab = m.fab := rfl
@[simp] theorem Mod.fset_sec (m : Mod) (f : Fld) (v i j : Nat) : (m.fset f v i j).sec = m.sec := rfl
@[simp] theorem Mod.fset_dbg (m : Mod) (f : Fld) (v i j : Nat) : (m.fset f v i j).dbg = m.dbg := rfl
@[simp] theorem Mod.fset_fresh (m : Mod) (f : Fld) (v i j : Nat) : (m.fset f v i j).fresh = m.fresh := rfl

@[simp] theorem Mod.fcount_variant (m : Mod) (f : Fld) (n i j : Nat) : (m.fcount f n i j).variant = m.variant := rfl
@[simp] theorem Mod.fcount_evIn (m : Mod) (f : Fld) (n i j : Nat) : (m.fcount f n i j).evIn = m.evIn := rfl
@[simp] theorem Mod.fcount_host (m : Mod) (f : Fld) (n i j : Nat) : (m.fcount f n i j).host = m.host := rfl
@[simp] theorem Mod.fcount_pwr (m : Mod) (f : Fld) (n i j : Nat) : (m.fcount f n i j).pwr = m.pwr := rfl
@[simp] theorem Mod.fcount_tick (m : Mod) (f : Fld) (n i j : Nat) : (m.fcount f n i j).tick = m.tick := rfl
@[simp] theorem Mod.fcount_plt (m : Mod) (f : Fld) (n i j : Nat) : (m.fcount f n i j).plt = m.plt := rfl
@[simp] theorem Mod.fcount_sched (m : Mod) (f : Fld) (n i j : Nat) : (m.fcount f n i j).sched = m.sched := rfl
@[simp] theorem Mod.fcount_cores (m : Mod) (f : Fld) (n i j : Nat) : (m.fcount f n i j).cores = m.cores := rfl
@[simp] theorem Mod.fcount_step (m : Mod) (f : Fld) (n i j : Nat) : (m.fcount f n i j).step = m.step := rfl
@[simp] theorem Mod.fcount_mem (m : Mod) (f : Fld) (n i j : Nat) : (m.fcount f n i j).mem = m.mem := rfl
@[simp] theorem Mod.fcount_pool (m : Mod) (f : Fld) (n i j : Nat) : (m.fcount f n i j).pool = m.pool := rfl
@[simp] theorem Mod.fcount_pad (m : Mod) (f : Fld) (n i j : Nat) : (m.fcount f n i j).pad = m.pad := rfl
@[simp] theorem Mod.fcount_stm (m : Mod) (f : Fld) (n i j : Nat) : (m.fcount f n i j).stm = m.stm := rfl
@[simp] theorem Mod.fcount_groom (m : Mod) (f : Fld) (n i j : Nat) : (m.fcount f n i j).groom = m.groom := rfl
@[simp] theorem Mod.fcount_coll (m : Mod) (f : Fld) (n i j : Nat) : (m.fcount f n i j).coll = m.coll := rfl
@[simp] theorem Mod.fcount_chk (m : Mod) (f : Fld) (n i j : Nat) : (m.fcount f n i j).chk = m.chk := rfl
@[simp] theorem Mod.fcount_fab (m : Mod) (f : Fld) (n i j : Nat) : (m.fcount f n i j).fab = m.fab := rfl
@[simp] theorem Mod.fcount_sec (m : Mod) (f : Fld) (n i j : Nat) : (m.fcount f n i j).sec = m.sec := rfl
@[simp] theorem Mod.fcount_dbg (m : Mod) (f : Fld) (n i j : Nat) : (m.fcount f n i j).dbg = m.dbg := rfl
@[simp] theorem Mod.fcount_fresh (m : Mod) (f : Fld) (n i j : Nat) : (m.fcount f n i j).fresh = m.fresh := rfl

@[simp] theorem Mod.fsat_variant (m : Mod) (f : Fld) (n i j : Nat) : (m.fsat f n i j).variant = m.variant := rfl
@[simp] theorem Mod.fsat_evIn (m : Mod) (f : Fld) (n i j : Nat) : (m.fsat f n i j).evIn = m.evIn := rfl
@[simp] theorem Mod.fsat_host (m : Mod) (f : Fld) (n i j : Nat) : (m.fsat f n i j).host = m.host := rfl
@[simp] theorem Mod.fsat_pwr (m : Mod) (f : Fld) (n i j : Nat) : (m.fsat f n i j).pwr = m.pwr := rfl
@[simp] theorem Mod.fsat_tick (m : Mod) (f : Fld) (n i j : Nat) : (m.fsat f n i j).tick = m.tick := rfl
@[simp] theorem Mod.fsat_plt (m : Mod) (f : Fld) (n i j : Nat) : (m.fsat f n i j).plt = m.plt := rfl
@[simp] theorem Mod.fsat_sched (m : Mod) (f : Fld) (n i j : Nat) : (m.fsat f n i j).sched = m.sched := rfl
@[simp] theorem Mod.fsat_cores (m : Mod) (f : Fld) (n i j : Nat) : (m.fsat f n i j).cores = m.cores := rfl
@[simp] theorem Mod.fsat_step (m : Mod) (f : Fld) (n i j : Nat) : (m.fsat f n i j).step = m.step := rfl
@[simp] theorem Mod.fsat_mem (m : Mod) (f : Fld) (n i j : Nat) : (m.fsat f n i j).mem = m.mem := rfl
@[simp] theorem Mod.fsat_pool (m : Mod) (f : Fld) (n i j : Nat) : (m.fsat f n i j).pool = m.pool := rfl
@[simp] theorem Mod.fsat_pad (m : Mod) (f : Fld) (n i j : Nat) : (m.fsat f n i j).pad = m.pad := rfl
@[simp] theorem Mod.fsat_stm (m : Mod) (f : Fld) (n i j : Nat) : (m.fsat f n i j).stm = m.stm := rfl
@[simp] theorem Mod.fsat_groom (m : Mod) (f : Fld) (n i j : Nat) : (m.fsat f n i j).groom = m.groom := rfl
@[simp] theorem Mod.fsat_coll (m : Mod) (f : Fld) (n i j : Nat) : (m.fsat f n i j).coll = m.coll := rfl
@[simp] theorem Mod.fsat_chk (m : Mod) (f : Fld) (n i j : Nat) : (m.fsat f n i j).chk = m.chk := rfl
@[simp] theorem Mod.fsat_fab (m : Mod) (f : Fld) (n i j : Nat) : (m.fsat f n i j).fab = m.fab := rfl
@[simp] theorem Mod.fsat_sec (m : Mod) (f : Fld) (n i j : Nat) : (m.fsat f n i j).sec = m.sec := rfl
@[simp] theorem Mod.fsat_dbg (m : Mod) (f : Fld) (n i j : Nat) : (m.fsat f n i j).dbg = m.dbg := rfl
@[simp] theorem Mod.fsat_fresh (m : Mod) (f : Fld) (n i j : Nat) : (m.fsat f n i j).fresh = m.fresh := rfl

@[simp] theorem Mod.forBits_variant (m : Mod) (f : Fld) (v i j : Nat) : (m.forBits f v i j).variant = m.variant := rfl
@[simp] theorem Mod.forBits_evIn (m : Mod) (f : Fld) (v i j : Nat) : (m.forBits f v i j).evIn = m.evIn := rfl
@[simp] theorem Mod.forBits_host (m : Mod) (f : Fld) (v i j : Nat) : (m.forBits f v i j).host = m.host := rfl
@[simp] theorem Mod.forBits_pwr (m : Mod) (f : Fld) (v i j : Nat) : (m.forBits f v i j).pwr = m.pwr := rfl
@[simp] theorem Mod.forBits_tick (m : Mod) (f : Fld) (v i j : Nat) : (m.forBits f v i j).tick = m.tick := rfl
@[simp] theorem Mod.forBits_plt (m : Mod) (f : Fld) (v i j : Nat) : (m.forBits f v i j).plt = m.plt := rfl
@[simp] theorem Mod.forBits_sched (m : Mod) (f : Fld) (v i j : Nat) : (m.forBits f v i j).sched = m.sched := rfl
@[simp] theorem Mod.forBits_cores (m : Mod) (f : Fld) (v i j : Nat) : (m.forBits f v i j).cores = m.cores := rfl
@[simp] theorem Mod.forBits_step (m : Mod) (f : Fld) (v i j : Nat) : (m.forBits f v i j).step = m.step := rfl
@[simp] theorem Mod.forBits_mem (m : Mod) (f : Fld) (v i j : Nat) : (m.forBits f v i j).mem = m.mem := rfl
@[simp] theorem Mod.forBits_pool (m : Mod) (f : Fld) (v i j : Nat) : (m.forBits f v i j).pool = m.pool := rfl
@[simp] theorem Mod.forBits_pad (m : Mod) (f : Fld) (v i j : Nat) : (m.forBits f v i j).pad = m.pad := rfl
@[simp] theorem Mod.forBits_stm (m : Mod) (f : Fld) (v i j : Nat) : (m.forBits f v i j).stm = m.stm := rfl
@[simp] theorem Mod.forBits_groom (m : Mod) (f : Fld) (v i j : Nat) : (m.forBits f v i j).groom = m.groom := rfl
@[simp] theorem Mod.forBits_coll (m : Mod) (f : Fld) (v i j : Nat) : (m.forBits f v i j).coll = m.coll := rfl
@[simp] theorem Mod.forBits_chk (m : Mod) (f : Fld) (v i j : Nat) : (m.forBits f v i j).chk = m.chk := rfl
@[simp] theorem Mod.forBits_fab (m : Mod) (f : Fld) (v i j : Nat) : (m.forBits f v i j).fab = m.fab := rfl
@[simp] theorem Mod.forBits_sec (m : Mod) (f : Fld) (v i j : Nat) : (m.forBits f v i j).sec = m.sec := rfl
@[simp] theorem Mod.forBits_dbg (m : Mod) (f : Fld) (v i j : Nat) : (m.forBits f v i j).dbg = m.dbg := rfl
@[simp] theorem Mod.forBits_fresh (m : Mod) (f : Fld) (v i j : Nat) : (m.forBits f v i j).fresh = m.fresh := rfl

@[simp] theorem Mod.set64_variant (m : Mod) (lo hi : Fld) (v i : Nat) : (m.set64 lo hi v i).variant = m.variant := rfl
@[simp] theorem Mod.set64_evIn (m : Mod) (lo hi : Fld) (v i : Nat) : (m.set64 lo hi v i).evIn = m.evIn := rfl
@[simp] theorem Mod.set64_host (m : Mod) (lo hi : Fld) (v i : Nat) : (m.set64 lo hi v i).host = m.host := rfl
@[simp] theorem Mod.set64_pwr (m : Mod) (lo hi : Fld) (v i : Nat) : (m.set64 lo hi v i).pwr = m.pwr := rfl
@[simp] theorem Mod.set64_tick (m : Mod) (lo hi : Fld) (v i : Nat) : (m.set64 lo hi v i).tick = m.tick := rfl
@[simp] theorem Mod.set64_plt (m : Mod) (lo hi : Fld) (v i : Nat) : (m.set64 lo hi v i).plt = m.plt := rfl
@[simp] theorem Mod.set64_sched (m : Mod) (lo hi : Fld) (v i : Nat) : (m.set64 lo hi v i).sched = m.sched := rfl
@[simp] theorem Mod.set64_cores (m : Mod) (lo hi : Fld) (v i : Nat) : (m.set64 lo hi v i).cores = m.cores := rfl
@[simp] theorem Mod.set64_step (m : Mod) (lo hi : Fld) (v i : Nat) : (m.set64 lo hi v i).step = m.step := rfl
@[simp] theorem Mod.set64_mem (m : Mod) (lo hi : Fld) (v i : Nat) : (m.set64 lo hi v i).mem = m.mem := rfl
@[simp] theorem Mod.set64_pool (m : Mod) (lo hi : Fld) (v i : Nat) : (m.set64 lo hi v i).pool = m.pool := rfl
@[simp] theorem Mod.set64_pad (m : Mod) (lo hi : Fld) (v i : Nat) : (m.set64 lo hi v i).pad = m.pad := rfl
@[simp] theorem Mod.set64_stm (m : Mod) (lo hi : Fld) (v i : Nat) : (m.set64 lo hi v i).stm = m.stm := rfl
@[simp] theorem Mod.set64_groom (m : Mod) (lo hi : Fld) (v i : Nat) : (m.set64 lo hi v i).groom = m.groom := rfl
@[simp] theorem Mod.set64_coll (m : Mod) (lo hi : Fld) (v i : Nat) : (m.set64 lo hi v i).coll = m.coll := rfl
@[simp] theorem Mod.set64_chk (m : Mod) (lo hi : Fld) (v i : Nat) : (m.set64 lo hi v i).chk = m.chk := rfl
@[simp] theorem Mod.set64_fab (m : Mod) (lo hi : Fld) (v i : Nat) : (m.set64 lo hi v i).fab = m.fab := rfl
@[simp] theorem Mod.set64_sec (m : Mod) (lo hi : Fld) (v i : Nat) : (m.set64 lo hi v i).sec = m.sec := rfl
@[simp] theorem Mod.set64_dbg (m : Mod) (lo hi : Fld) (v i : Nat) : (m.set64 lo hi v i).dbg = m.dbg := rfl
@[simp] theorem Mod.set64_fresh (m : Mod) (lo hi : Fld) (v i : Nat) : (m.set64 lo hi v i).fresh = m.fresh := rfl

@[simp] theorem Mod.raise_variant (m : Mod) (c : EvClass) (code source d0 d1 d2 : Nat) : (m.raise c code source d0 d1 d2).variant = m.variant := rfl
@[simp] theorem Mod.raise_regs (m : Mod) (c : EvClass) (code source d0 d1 d2 : Nat) : (m.raise c code source d0 d1 d2).regs = m.regs := rfl
@[simp] theorem Mod.raise_host (m : Mod) (c : EvClass) (code source d0 d1 d2 : Nat) : (m.raise c code source d0 d1 d2).host = m.host := rfl
@[simp] theorem Mod.raise_pwr (m : Mod) (c : EvClass) (code source d0 d1 d2 : Nat) : (m.raise c code source d0 d1 d2).pwr = m.pwr := rfl
@[simp] theorem Mod.raise_tick (m : Mod) (c : EvClass) (code source d0 d1 d2 : Nat) : (m.raise c code source d0 d1 d2).tick = m.tick := rfl
@[simp] theorem Mod.raise_plt (m : Mod) (c : EvClass) (code source d0 d1 d2 : Nat) : (m.raise c code source d0 d1 d2).plt = m.plt := rfl
@[simp] theorem Mod.raise_sched (m : Mod) (c : EvClass) (code source d0 d1 d2 : Nat) : (m.raise c code source d0 d1 d2).sched = m.sched := rfl
@[simp] theorem Mod.raise_cores (m : Mod) (c : EvClass) (code source d0 d1 d2 : Nat) : (m.raise c code source d0 d1 d2).cores = m.cores := rfl
@[simp] theorem Mod.raise_step (m : Mod) (c : EvClass) (code source d0 d1 d2 : Nat) : (m.raise c code source d0 d1 d2).step = m.step := rfl
@[simp] theorem Mod.raise_mem (m : Mod) (c : EvClass) (code source d0 d1 d2 : Nat) : (m.raise c code source d0 d1 d2).mem = m.mem := rfl
@[simp] theorem Mod.raise_pool (m : Mod) (c : EvClass) (code source d0 d1 d2 : Nat) : (m.raise c code source d0 d1 d2).pool = m.pool := rfl
@[simp] theorem Mod.raise_pad (m : Mod) (c : EvClass) (code source d0 d1 d2 : Nat) : (m.raise c code source d0 d1 d2).pad = m.pad := rfl
@[simp] theorem Mod.raise_stm (m : Mod) (c : EvClass) (code source d0 d1 d2 : Nat) : (m.raise c code source d0 d1 d2).stm = m.stm := rfl
@[simp] theorem Mod.raise_groom (m : Mod) (c : EvClass) (code source d0 d1 d2 : Nat) : (m.raise c code source d0 d1 d2).groom = m.groom := rfl
@[simp] theorem Mod.raise_coll (m : Mod) (c : EvClass) (code source d0 d1 d2 : Nat) : (m.raise c code source d0 d1 d2).coll = m.coll := rfl
@[simp] theorem Mod.raise_chk (m : Mod) (c : EvClass) (code source d0 d1 d2 : Nat) : (m.raise c code source d0 d1 d2).chk = m.chk := rfl
@[simp] theorem Mod.raise_fab (m : Mod) (c : EvClass) (code source d0 d1 d2 : Nat) : (m.raise c code source d0 d1 d2).fab = m.fab := rfl
@[simp] theorem Mod.raise_sec (m : Mod) (c : EvClass) (code source d0 d1 d2 : Nat) : (m.raise c code source d0 d1 d2).sec = m.sec := rfl
@[simp] theorem Mod.raise_dbg (m : Mod) (c : EvClass) (code source d0 d1 d2 : Nat) : (m.raise c code source d0 d1 d2).dbg = m.dbg := rfl
@[simp] theorem Mod.raise_fresh (m : Mod) (c : EvClass) (code source d0 d1 d2 : Nat) : (m.raise c code source d0 d1 d2).fresh = m.fresh := rfl

@[simp] theorem Mod.fault_variant (m : Mod) (code : Nat) : (m.fault code).variant = m.variant := rfl
@[simp] theorem Mod.fault_regs (m : Mod) (code : Nat) : (m.fault code).regs = m.regs := rfl
@[simp] theorem Mod.fault_evIn (m : Mod) (code : Nat) : (m.fault code).evIn = m.evIn := rfl
@[simp] theorem Mod.fault_host (m : Mod) (code : Nat) : (m.fault code).host = m.host := rfl
@[simp] theorem Mod.fault_pwr (m : Mod) (code : Nat) : (m.fault code).pwr = m.pwr := rfl
@[simp] theorem Mod.fault_tick (m : Mod) (code : Nat) : (m.fault code).tick = m.tick := rfl
@[simp] theorem Mod.fault_plt (m : Mod) (code : Nat) : (m.fault code).plt = m.plt := rfl
@[simp] theorem Mod.fault_sched (m : Mod) (code : Nat) : (m.fault code).sched = m.sched := rfl
@[simp] theorem Mod.fault_cores (m : Mod) (code : Nat) : (m.fault code).cores = m.cores := rfl
@[simp] theorem Mod.fault_mem (m : Mod) (code : Nat) : (m.fault code).mem = m.mem := rfl
@[simp] theorem Mod.fault_pool (m : Mod) (code : Nat) : (m.fault code).pool = m.pool := rfl
@[simp] theorem Mod.fault_pad (m : Mod) (code : Nat) : (m.fault code).pad = m.pad := rfl
@[simp] theorem Mod.fault_stm (m : Mod) (code : Nat) : (m.fault code).stm = m.stm := rfl
@[simp] theorem Mod.fault_groom (m : Mod) (code : Nat) : (m.fault code).groom = m.groom := rfl
@[simp] theorem Mod.fault_coll (m : Mod) (code : Nat) : (m.fault code).coll = m.coll := rfl
@[simp] theorem Mod.fault_chk (m : Mod) (code : Nat) : (m.fault code).chk = m.chk := rfl
@[simp] theorem Mod.fault_fab (m : Mod) (code : Nat) : (m.fault code).fab = m.fab := rfl
@[simp] theorem Mod.fault_sec (m : Mod) (code : Nat) : (m.fault code).sec = m.sec := rfl
@[simp] theorem Mod.fault_dbg (m : Mod) (code : Nat) : (m.fault code).dbg = m.dbg := rfl
@[simp] theorem Mod.fault_fresh (m : Mod) (code : Nat) : (m.fault code).fresh = m.fresh := rfl

@[simp] theorem Mod.emit_variant (m : Mod) (o : Out) : (m.emit o).variant = m.variant := rfl
@[simp] theorem Mod.emit_regs (m : Mod) (o : Out) : (m.emit o).regs = m.regs := rfl
@[simp] theorem Mod.emit_evIn (m : Mod) (o : Out) : (m.emit o).evIn = m.evIn := rfl
@[simp] theorem Mod.emit_pwr (m : Mod) (o : Out) : (m.emit o).pwr = m.pwr := rfl
@[simp] theorem Mod.emit_tick (m : Mod) (o : Out) : (m.emit o).tick = m.tick := rfl
@[simp] theorem Mod.emit_plt (m : Mod) (o : Out) : (m.emit o).plt = m.plt := rfl
@[simp] theorem Mod.emit_sched (m : Mod) (o : Out) : (m.emit o).sched = m.sched := rfl
@[simp] theorem Mod.emit_cores (m : Mod) (o : Out) : (m.emit o).cores = m.cores := rfl
@[simp] theorem Mod.emit_step (m : Mod) (o : Out) : (m.emit o).step = m.step := rfl
@[simp] theorem Mod.emit_mem (m : Mod) (o : Out) : (m.emit o).mem = m.mem := rfl
@[simp] theorem Mod.emit_pool (m : Mod) (o : Out) : (m.emit o).pool = m.pool := rfl
@[simp] theorem Mod.emit_pad (m : Mod) (o : Out) : (m.emit o).pad = m.pad := rfl
@[simp] theorem Mod.emit_stm (m : Mod) (o : Out) : (m.emit o).stm = m.stm := rfl
@[simp] theorem Mod.emit_groom (m : Mod) (o : Out) : (m.emit o).groom = m.groom := rfl
@[simp] theorem Mod.emit_coll (m : Mod) (o : Out) : (m.emit o).coll = m.coll := rfl
@[simp] theorem Mod.emit_chk (m : Mod) (o : Out) : (m.emit o).chk = m.chk := rfl
@[simp] theorem Mod.emit_fab (m : Mod) (o : Out) : (m.emit o).fab = m.fab := rfl
@[simp] theorem Mod.emit_sec (m : Mod) (o : Out) : (m.emit o).sec = m.sec := rfl
@[simp] theorem Mod.emit_dbg (m : Mod) (o : Out) : (m.emit o).dbg = m.dbg := rfl
@[simp] theorem Mod.emit_fresh (m : Mod) (o : Out) : (m.emit o).fresh = m.fresh := rfl

@[simp] theorem Mod.setCore_variant (m : Mod) (c : Nat) (x : CoreRun) : (m.setCore c x).variant = m.variant := rfl
@[simp] theorem Mod.setCore_regs (m : Mod) (c : Nat) (x : CoreRun) : (m.setCore c x).regs = m.regs := rfl
@[simp] theorem Mod.setCore_evIn (m : Mod) (c : Nat) (x : CoreRun) : (m.setCore c x).evIn = m.evIn := rfl
@[simp] theorem Mod.setCore_host (m : Mod) (c : Nat) (x : CoreRun) : (m.setCore c x).host = m.host := rfl
@[simp] theorem Mod.setCore_pwr (m : Mod) (c : Nat) (x : CoreRun) : (m.setCore c x).pwr = m.pwr := rfl
@[simp] theorem Mod.setCore_tick (m : Mod) (c : Nat) (x : CoreRun) : (m.setCore c x).tick = m.tick := rfl
@[simp] theorem Mod.setCore_plt (m : Mod) (c : Nat) (x : CoreRun) : (m.setCore c x).plt = m.plt := rfl
@[simp] theorem Mod.setCore_sched (m : Mod) (c : Nat) (x : CoreRun) : (m.setCore c x).sched = m.sched := rfl
@[simp] theorem Mod.setCore_step (m : Mod) (c : Nat) (x : CoreRun) : (m.setCore c x).step = m.step := rfl
@[simp] theorem Mod.setCore_mem (m : Mod) (c : Nat) (x : CoreRun) : (m.setCore c x).mem = m.mem := rfl
@[simp] theorem Mod.setCore_pool (m : Mod) (c : Nat) (x : CoreRun) : (m.setCore c x).pool = m.pool := rfl
@[simp] theorem Mod.setCore_pad (m : Mod) (c : Nat) (x : CoreRun) : (m.setCore c x).pad = m.pad := rfl
@[simp] theorem Mod.setCore_stm (m : Mod) (c : Nat) (x : CoreRun) : (m.setCore c x).stm = m.stm := rfl
@[simp] theorem Mod.setCore_groom (m : Mod) (c : Nat) (x : CoreRun) : (m.setCore c x).groom = m.groom := rfl
@[simp] theorem Mod.setCore_coll (m : Mod) (c : Nat) (x : CoreRun) : (m.setCore c x).coll = m.coll := rfl
@[simp] theorem Mod.setCore_chk (m : Mod) (c : Nat) (x : CoreRun) : (m.setCore c x).chk = m.chk := rfl
@[simp] theorem Mod.setCore_fab (m : Mod) (c : Nat) (x : CoreRun) : (m.setCore c x).fab = m.fab := rfl
@[simp] theorem Mod.setCore_sec (m : Mod) (c : Nat) (x : CoreRun) : (m.setCore c x).sec = m.sec := rfl
@[simp] theorem Mod.setCore_dbg (m : Mod) (c : Nat) (x : CoreRun) : (m.setCore c x).dbg = m.dbg := rfl
@[simp] theorem Mod.setCore_fresh (m : Mod) (c : Nat) (x : CoreRun) : (m.setCore c x).fresh = m.fresh := rfl

/-! ### Messages -/

/-- What a message signal leaves: everything but the host port. -/
theorem Mod.msix_eq (m : Mod) (v : Nat) : ∃ h, m.msix v = { m with host := h } := by
  unfold Mod.msix
  dsimp only
  split
  · exact ⟨m.host, rfl⟩
  · split
    · exact ⟨_, rfl⟩
    · exact ⟨_, rfl⟩

@[simp] theorem Mod.msix_variant (m : Mod) (v : Nat) : (m.msix v).variant = m.variant := by obtain ⟨h, e⟩ := m.msix_eq v; rw [e]
@[simp] theorem Mod.msix_regs (m : Mod) (v : Nat) : (m.msix v).regs = m.regs := by obtain ⟨h, e⟩ := m.msix_eq v; rw [e]
@[simp] theorem Mod.msix_evIn (m : Mod) (v : Nat) : (m.msix v).evIn = m.evIn := by obtain ⟨h, e⟩ := m.msix_eq v; rw [e]
@[simp] theorem Mod.msix_pwr (m : Mod) (v : Nat) : (m.msix v).pwr = m.pwr := by obtain ⟨h, e⟩ := m.msix_eq v; rw [e]
@[simp] theorem Mod.msix_tick (m : Mod) (v : Nat) : (m.msix v).tick = m.tick := by obtain ⟨h, e⟩ := m.msix_eq v; rw [e]
@[simp] theorem Mod.msix_plt (m : Mod) (v : Nat) : (m.msix v).plt = m.plt := by obtain ⟨h, e⟩ := m.msix_eq v; rw [e]
@[simp] theorem Mod.msix_sched (m : Mod) (v : Nat) : (m.msix v).sched = m.sched := by obtain ⟨h, e⟩ := m.msix_eq v; rw [e]
@[simp] theorem Mod.msix_cores (m : Mod) (v : Nat) : (m.msix v).cores = m.cores := by obtain ⟨h, e⟩ := m.msix_eq v; rw [e]
@[simp] theorem Mod.msix_step (m : Mod) (v : Nat) : (m.msix v).step = m.step := by obtain ⟨h, e⟩ := m.msix_eq v; rw [e]
@[simp] theorem Mod.msix_mem (m : Mod) (v : Nat) : (m.msix v).mem = m.mem := by obtain ⟨h, e⟩ := m.msix_eq v; rw [e]
@[simp] theorem Mod.msix_pool (m : Mod) (v : Nat) : (m.msix v).pool = m.pool := by obtain ⟨h, e⟩ := m.msix_eq v; rw [e]
@[simp] theorem Mod.msix_pad (m : Mod) (v : Nat) : (m.msix v).pad = m.pad := by obtain ⟨h, e⟩ := m.msix_eq v; rw [e]
@[simp] theorem Mod.msix_stm (m : Mod) (v : Nat) : (m.msix v).stm = m.stm := by obtain ⟨h, e⟩ := m.msix_eq v; rw [e]
@[simp] theorem Mod.msix_groom (m : Mod) (v : Nat) : (m.msix v).groom = m.groom := by obtain ⟨h, e⟩ := m.msix_eq v; rw [e]
@[simp] theorem Mod.msix_coll (m : Mod) (v : Nat) : (m.msix v).coll = m.coll := by obtain ⟨h, e⟩ := m.msix_eq v; rw [e]
@[simp] theorem Mod.msix_chk (m : Mod) (v : Nat) : (m.msix v).chk = m.chk := by obtain ⟨h, e⟩ := m.msix_eq v; rw [e]
@[simp] theorem Mod.msix_fab (m : Mod) (v : Nat) : (m.msix v).fab = m.fab := by obtain ⟨h, e⟩ := m.msix_eq v; rw [e]
@[simp] theorem Mod.msix_sec (m : Mod) (v : Nat) : (m.msix v).sec = m.sec := by obtain ⟨h, e⟩ := m.msix_eq v; rw [e]
@[simp] theorem Mod.msix_dbg (m : Mod) (v : Nat) : (m.msix v).dbg = m.dbg := by obtain ⟨h, e⟩ := m.msix_eq v; rw [e]
@[simp] theorem Mod.msix_fresh (m : Mod) (v : Nat) : (m.msix v).fresh = m.fresh := by obtain ⟨h, e⟩ := m.msix_eq v; rw [e]

/-! ### Events of two classes -/

/-- What raising an event of two classes leaves: everything but the records raised and the step's cause. -/
theorem Mod.raiseDual_eq (m : Mod) (b : Bool) (c : EvClass) (code source d0 d1 d2 : Nat) :
    ∃ e x, m.raiseDual b c code source d0 d1 d2 = { m with evIn := e, step := x } := by
  unfold Mod.raiseDual
  split
  · exact ⟨_, _, rfl⟩
  · exact ⟨_, m.step, rfl⟩

@[simp] theorem Mod.raiseDual_variant (m : Mod) (b : Bool) (c : EvClass) (code source d0 d1 d2 : Nat) :
    (m.raiseDual b c code source d0 d1 d2).variant = m.variant := by obtain ⟨e, x, h⟩ := m.raiseDual_eq b c code source d0 d1 d2; rw [h]
@[simp] theorem Mod.raiseDual_regs (m : Mod) (b : Bool) (c : EvClass) (code source d0 d1 d2 : Nat) :
    (m.raiseDual b c code source d0 d1 d2).regs = m.regs := by obtain ⟨e, x, h⟩ := m.raiseDual_eq b c code source d0 d1 d2; rw [h]
@[simp] theorem Mod.raiseDual_host (m : Mod) (b : Bool) (c : EvClass) (code source d0 d1 d2 : Nat) :
    (m.raiseDual b c code source d0 d1 d2).host = m.host := by obtain ⟨e, x, h⟩ := m.raiseDual_eq b c code source d0 d1 d2; rw [h]
@[simp] theorem Mod.raiseDual_pwr (m : Mod) (b : Bool) (c : EvClass) (code source d0 d1 d2 : Nat) :
    (m.raiseDual b c code source d0 d1 d2).pwr = m.pwr := by obtain ⟨e, x, h⟩ := m.raiseDual_eq b c code source d0 d1 d2; rw [h]
@[simp] theorem Mod.raiseDual_tick (m : Mod) (b : Bool) (c : EvClass) (code source d0 d1 d2 : Nat) :
    (m.raiseDual b c code source d0 d1 d2).tick = m.tick := by obtain ⟨e, x, h⟩ := m.raiseDual_eq b c code source d0 d1 d2; rw [h]
@[simp] theorem Mod.raiseDual_plt (m : Mod) (b : Bool) (c : EvClass) (code source d0 d1 d2 : Nat) :
    (m.raiseDual b c code source d0 d1 d2).plt = m.plt := by obtain ⟨e, x, h⟩ := m.raiseDual_eq b c code source d0 d1 d2; rw [h]
@[simp] theorem Mod.raiseDual_sched (m : Mod) (b : Bool) (c : EvClass) (code source d0 d1 d2 : Nat) :
    (m.raiseDual b c code source d0 d1 d2).sched = m.sched := by obtain ⟨e, x, h⟩ := m.raiseDual_eq b c code source d0 d1 d2; rw [h]
@[simp] theorem Mod.raiseDual_cores (m : Mod) (b : Bool) (c : EvClass) (code source d0 d1 d2 : Nat) :
    (m.raiseDual b c code source d0 d1 d2).cores = m.cores := by obtain ⟨e, x, h⟩ := m.raiseDual_eq b c code source d0 d1 d2; rw [h]
@[simp] theorem Mod.raiseDual_mem (m : Mod) (b : Bool) (c : EvClass) (code source d0 d1 d2 : Nat) :
    (m.raiseDual b c code source d0 d1 d2).mem = m.mem := by obtain ⟨e, x, h⟩ := m.raiseDual_eq b c code source d0 d1 d2; rw [h]
@[simp] theorem Mod.raiseDual_pool (m : Mod) (b : Bool) (c : EvClass) (code source d0 d1 d2 : Nat) :
    (m.raiseDual b c code source d0 d1 d2).pool = m.pool := by obtain ⟨e, x, h⟩ := m.raiseDual_eq b c code source d0 d1 d2; rw [h]
@[simp] theorem Mod.raiseDual_pad (m : Mod) (b : Bool) (c : EvClass) (code source d0 d1 d2 : Nat) :
    (m.raiseDual b c code source d0 d1 d2).pad = m.pad := by obtain ⟨e, x, h⟩ := m.raiseDual_eq b c code source d0 d1 d2; rw [h]
@[simp] theorem Mod.raiseDual_stm (m : Mod) (b : Bool) (c : EvClass) (code source d0 d1 d2 : Nat) :
    (m.raiseDual b c code source d0 d1 d2).stm = m.stm := by obtain ⟨e, x, h⟩ := m.raiseDual_eq b c code source d0 d1 d2; rw [h]
@[simp] theorem Mod.raiseDual_groom (m : Mod) (b : Bool) (c : EvClass) (code source d0 d1 d2 : Nat) :
    (m.raiseDual b c code source d0 d1 d2).groom = m.groom := by obtain ⟨e, x, h⟩ := m.raiseDual_eq b c code source d0 d1 d2; rw [h]
@[simp] theorem Mod.raiseDual_coll (m : Mod) (b : Bool) (c : EvClass) (code source d0 d1 d2 : Nat) :
    (m.raiseDual b c code source d0 d1 d2).coll = m.coll := by obtain ⟨e, x, h⟩ := m.raiseDual_eq b c code source d0 d1 d2; rw [h]
@[simp] theorem Mod.raiseDual_chk (m : Mod) (b : Bool) (c : EvClass) (code source d0 d1 d2 : Nat) :
    (m.raiseDual b c code source d0 d1 d2).chk = m.chk := by obtain ⟨e, x, h⟩ := m.raiseDual_eq b c code source d0 d1 d2; rw [h]
@[simp] theorem Mod.raiseDual_fab (m : Mod) (b : Bool) (c : EvClass) (code source d0 d1 d2 : Nat) :
    (m.raiseDual b c code source d0 d1 d2).fab = m.fab := by obtain ⟨e, x, h⟩ := m.raiseDual_eq b c code source d0 d1 d2; rw [h]
@[simp] theorem Mod.raiseDual_sec (m : Mod) (b : Bool) (c : EvClass) (code source d0 d1 d2 : Nat) :
    (m.raiseDual b c code source d0 d1 d2).sec = m.sec := by obtain ⟨e, x, h⟩ := m.raiseDual_eq b c code source d0 d1 d2; rw [h]
@[simp] theorem Mod.raiseDual_dbg (m : Mod) (b : Bool) (c : EvClass) (code source d0 d1 d2 : Nat) :
    (m.raiseDual b c code source d0 d1 d2).dbg = m.dbg := by obtain ⟨e, x, h⟩ := m.raiseDual_eq b c code source d0 d1 d2; rw [h]
@[simp] theorem Mod.raiseDual_fresh (m : Mod) (b : Bool) (c : EvClass) (code source d0 d1 d2 : Nat) :
    (m.raiseDual b c code source d0 d1 d2).fresh = m.fresh := by obtain ⟨e, x, h⟩ := m.raiseDual_eq b c code source d0 d1 d2; rw [h]

end Sys2Proof.Machine
end

