-- ==== Sys2Proof/Laws/DeviceMemory.lean ====
section
/-! SUPPORT. What the operations on device memory and core SRAM do: each keeps the canonical form of the memories and changes nothing
of the module beside them. -/

namespace Sys2Proof.Machine

/-- The canonical form of the memories rests on them alone. -/
theorem Mod.memWf_congr {m n : Mod} (h : n.mem = m.mem) (w : m.memWf) : n.memWf := by unfold Mod.memWf; rw [h]; exact w

/-- Storing a byte changes the memories alone. -/
theorem Mod.putByte_eq (m : Mod) (l : Loc) (v : Byte) : ∃ x, m.putByte l v = { m with mem := x } := by
  unfold Mod.putByte
  split
  · exact ⟨m.mem, rfl⟩
  · split <;> exact ⟨_, rfl⟩

/-- Marking a sector changes the memories alone. -/
theorem Mod.markLoc_eq (m : Mod) (l : Loc) : ∃ x, m.markLoc l = { m with mem := x } := by
  unfold Mod.markLoc
  split
  · exact ⟨m.mem, rfl⟩
  · split <;> exact ⟨_, rfl⟩

/-- Unmarking a sector changes the memories alone. -/
theorem Mod.unmarkLoc_eq (m : Mod) (l : Loc) : ∃ x, m.unmarkLoc l = { m with mem := x } := by
  unfold Mod.unmarkLoc
  split
  · exact ⟨m.mem, rfl⟩
  · split <;> exact ⟨_, rfl⟩

/-- Storing a byte keeps the canonical form. -/
theorem Mod.memWf_putByte {m : Mod} (l : Loc) (v : Byte) (h : m.memWf) : (m.putByte l v).memWf := by
  obtain ⟨h1, h2, h3, h4⟩ := h
  unfold Mod.putByte
  split
  · exact ⟨h1, h2, h3, h4⟩
  · split
    · exact ⟨Memory.wf_set _ _ h1, h2, h3, h4⟩
    · exact ⟨h1, Memory.wf_set _ _ h2, h3, h4⟩
    · exact ⟨h1, h2, h3, h4⟩

/-- Marking a sector keeps the canonical form. -/
theorem Mod.memWf_markLoc {m : Mod} (l : Loc) (h : m.memWf) : (m.markLoc l).memWf := by
  obtain ⟨h1, h2, h3, h4⟩ := h
  unfold Mod.markLoc
  split
  · exact ⟨h1, h2, h3, h4⟩
  · split
    · exact ⟨Memory.wf_mark _ h1, h2, h3, h4⟩
    · exact ⟨h1, Memory.wf_mark _ h2, h3, h4⟩
    · exact ⟨h1, h2, h3, h4⟩

/-- Unmarking a sector keeps the canonical form. -/
theorem Mod.memWf_unmarkLoc {m : Mod} (l : Loc) (h : m.memWf) : (m.unmarkLoc l).memWf := by
  obtain ⟨h1, h2, h3, h4⟩ := h
  unfold Mod.unmarkLoc
  split
  · exact ⟨h1, h2, h3, h4⟩
  · split
    · exact ⟨Memory.wf_unmark _ h1, h2, h3, h4⟩
    · exact ⟨h1, Memory.wf_unmark _ h2, h3, h4⟩
    · exact ⟨h1, h2, h3, h4⟩

/-- A fold of steps each of which changes the memories alone changes them alone. -/
theorem memOnly_foldl {β : Type} (f : Mod → β → Mod) (hf : ∀ m b, ∃ x, f m b = { m with mem := x }) (xs : List β) (m : Mod) :
    ∃ x, xs.foldl f m = { m with mem := x } := by
  induction xs generalizing m with
  | nil => exact ⟨m.mem, rfl⟩
  | cons b xs ih =>
    obtain ⟨x, h⟩ := hf m b
    obtain ⟨y, h2⟩ := ih (f m b)
    exact ⟨y, by rw [List.foldl_cons, h2, h]⟩

/-- A fold of steps each of which keeps the canonical form keeps it. -/
theorem memWf_foldl {β : Type} (f : Mod → β → Mod) (hf : ∀ m b, m.memWf → (f m b).memWf) (xs : List β) {m : Mod} (h : m.memWf) :
    (xs.foldl f m).memWf := by
  induction xs generalizing m with
  | nil => exact h
  | cons b xs ih => exact ih (hf m b h)

/-- Storing bytes changes the memories alone. -/
theorem Mod.putBytes_eq (loc : Nat → Loc) (data : List (Option Byte)) (m : Mod) (a : Nat) :
    ∃ x, Mod.putBytes loc m a data = { m with mem := x } := by
  induction data generalizing m a with
  | nil => exact ⟨m.mem, rfl⟩
  | cons b bs ih =>
    cases b with
    | none => exact ih m (a + 1)
    | some v =>
      obtain ⟨x, h⟩ := m.putByte_eq (loc a) v
      obtain ⟨y, h2⟩ := ih (m.putByte (loc a) v) (a + 1)
      exact ⟨y, by rw [Mod.putBytes, h2, h]⟩

/-- Storing bytes keeps the canonical form. -/
theorem Mod.memWf_putBytes (loc : Nat → Loc) (data : List (Option Byte)) {m : Mod} (a : Nat) (h : m.memWf) :
    (Mod.putBytes loc m a data).memWf := by
  induction data generalizing m a with
  | nil => exact h
  | cons b bs ih =>
    cases b with
    | none => exact ih (a + 1) h
    | some v => exact ih (a + 1) (Mod.memWf_putByte _ _ h)

/-- A write of device memory changes the memories alone. -/
theorem Mod.writeAt_eq (loc : Nat → Loc) (m : Mod) (a : Nat) (data : List (Option Byte)) :
    ∃ x, Mod.writeAt loc m a data = { m with mem := x } := by
  unfold Mod.writeAt
  dsimp only
  obtain ⟨x, h⟩ := Mod.putBytes_eq loc data m a
  obtain ⟨y, h2⟩ := memOnly_foldl (fun (x : Mod) s => if ((data.drop (s - a)).take 64).all Option.isSome then x.unmarkLoc (loc s) else x)
    (fun m b => by
      split
      · exact Mod.unmarkLoc_eq _ _
      · exact ⟨m.mem, rfl⟩) (fullSectors a data.length) (Mod.putBytes loc m a data)
  exact ⟨y, by rw [h2, h]⟩

/-- A write of device memory keeps the canonical form. -/
theorem Mod.memWf_writeAt (loc : Nat → Loc) {m : Mod} (a : Nat) (data : List (Option Byte)) (h : m.memWf) :
    (Mod.writeAt loc m a data).memWf := by
  unfold Mod.writeAt
  refine memWf_foldl _ (fun m b hm => ?_) _ (Mod.memWf_putBytes loc data a h)
  split
  · exact Mod.memWf_unmarkLoc _ hm
  · exact hm

/-- A write at device addresses changes the memories alone. -/
theorem Mod.devWrite_eq (m : Mod) (a : Nat) (data : List Byte) : ∃ x, m.devWrite a data = { m with mem := x } := Mod.writeAt_eq _ _ _ _

/-- A write at device addresses keeps the canonical form. -/
theorem Mod.memWf_devWrite {m : Mod} (a : Nat) (data : List Byte) (h : m.memWf) : (m.devWrite a data).memWf := Mod.memWf_writeAt _ _ _ h

/-- Marking a device address changes the memories alone. -/
theorem Mod.devMark_eq (m : Mod) (a : Nat) : ∃ x, m.devMark a = { m with mem := x } := Mod.markLoc_eq _ _

/-- A write with poison changes the memories alone. -/
theorem Mod.devWriteP_eq (m : Mod) (a : Nat) (data : List (Byte × Bool)) : ∃ x, m.devWriteP a data = { m with mem := x } := by
  unfold Mod.devWriteP
  dsimp only
  obtain ⟨x, h⟩ := m.devWrite_eq a (data.map (fun x => if x.2 then 0xFF else x.1))
  obtain ⟨y, h2⟩ := memOnly_foldl (fun (x : Mod) i => if (data.getD i (0, false)).2 then x.devMark (a + i) else x)
    (fun m b => by
      split
      · exact Mod.devMark_eq _ _
      · exact ⟨m.mem, rfl⟩) (List.range data.length) (m.devWrite a (data.map (fun x => if x.2 then 0xFF else x.1)))
  exact ⟨y, by rw [h2, h]⟩

/-- A write with poison keeps the canonical form. -/
theorem Mod.memWf_devWriteP {m : Mod} (a : Nat) (data : List (Byte × Bool)) (h : m.memWf) : (m.devWriteP a data).memWf := by
  unfold Mod.devWriteP
  refine memWf_foldl _ (fun m b hm => ?_) _ (Mod.memWf_devWrite _ _ h)
  split
  · exact Mod.memWf_markLoc _ hm
  · exact hm

/-- A corrected error changes no memory. -/
@[simp] theorem Mod.foundCe_mem (m : Mod) (k : Nat) : (m.foundCe k).mem = m.mem := by
  unfold Mod.foundCe
  dsimp only
  split <;> rfl

/-- An error not corrected keeps the canonical form. -/
theorem Mod.memWf_foundUe {m : Mod} (b : Bool) (k : Nat) (h : m.memWf) : (m.foundUe b k).memWf := by
  unfold Mod.foundUe
  extract_lets st l m1 m2
  split
  · exact h
  · refine Mod.memWf_congr (m := m.markLoc (.hbm k)) ?_ (Mod.memWf_markLoc (.hbm k) h)
    rw [Mod.raiseDual_mem]
    exact (Mod.set64_mem ..).trans (Mod.fsat_mem ..)

/-- The errors a command meets keep the canonical form. -/
theorem Mod.memWf_eccDev {m : Mod} (b : Bool) (ranges : List (Nat × Nat)) (ecc : Ecc) (h : m.memWf) : (m.eccDev b ranges ecc).memWf := by
  unfold Mod.eccDev
  refine memWf_foldl _ (fun m a hm => ?_) _ (memWf_foldl _ (fun m a hm => ?_) _ h)
  · split
    · exact Mod.memWf_foundUe _ _ hm
    · exact hm
  · split
    · exact Mod.memWf_congr (Mod.foundCe_mem _ _) hm
    · exact hm

/-- A write of core SRAM changes the memories alone. -/
theorem Mod.sramWrite_eq (m : Mod) (c a : Nat) (data : List Byte) : ∃ x, m.sramWrite c a data = { m with mem := x } := ⟨_, rfl⟩

/-- The memories after a write of core SRAM. -/
theorem Mod.sramWrite_mem (m : Mod) (c a : Nat) (data : List Byte) :
    (m.sramWrite c a data).mem = { m.mem with sram := m.mem.sram.putWords (c * sramSize + a) data } := by unfold Mod.sramWrite; rfl

/-- A write of core SRAM keeps the canonical form. -/
theorem Mod.memWf_sramWrite {m : Mod} (c a : Nat) (data : List Byte) (h : m.memWf) : (m.sramWrite c a data).memWf := by
  unfold Mod.memWf
  rw [Mod.sramWrite_mem]
  generalize c * sramSize + a = b
  exact ⟨h.1, h.2.1, Memory.wf_putWords b data h.2.2.1, h.2.2.2⟩

end Sys2Proof.Machine
end

