-- ==== Sys2Proof/Laws/RegFile.lean ====
section
/-! SUPPORT. Reading a register or a field after writing one. -/

namespace Sys2Proof.Machine

/-! ### Fields of a word -/

/-- The bits of a field's value. -/
theorem testBit_bitsOf (w hi lo k : Nat) : (bitsOf w hi lo).testBit k = (decide (k < hi + 1 - lo) && w.testBit (lo + k)) := by
  rw [bitsOf, Nat.testBit_mod_two_pow, Nat.testBit_div_two_pow, Nat.add_comm k lo]

/-- The bits of a word with a field set. -/
theorem testBit_setBits {hi lo : Nat} (w v k : Nat) (h : lo ≤ hi) :
    (setBits w hi lo v).testBit k = if k < lo ∨ hi < k then w.testBit k else v.testBit (k - lo) := by
  have e : setBits w hi lo v
      = 2 ^ (hi + 1) * (w / 2 ^ (hi + 1)) + (2 ^ lo * (v % 2 ^ (hi + 1 - lo)) + w % 2 ^ lo) := by
    unfold setBits; ring_nf
  have hp : (2 : Nat) ^ (hi + 1) = 2 ^ lo * 2 ^ (hi + 1 - lo) := by rw [← Nat.pow_add]; congr 1; omega
  have b1 : w % 2 ^ lo < 2 ^ lo := Nat.mod_lt _ (Nat.two_pow_pos _)
  have b2 : v % 2 ^ (hi + 1 - lo) < 2 ^ (hi + 1 - lo) := Nat.mod_lt _ (Nat.two_pow_pos _)
  have b3 : 2 ^ lo * (v % 2 ^ (hi + 1 - lo)) + w % 2 ^ lo < 2 ^ (hi + 1) := by
    have b4 : 2 ^ lo * (v % 2 ^ (hi + 1 - lo) + 1) ≤ 2 ^ lo * 2 ^ (hi + 1 - lo) := Nat.mul_le_mul_left _ b2
    rw [hp]; rw [Nat.mul_add] at b4; omega
  rw [e, Nat.testBit_two_pow_mul_add _ b3, Nat.testBit_two_pow_mul_add _ b1]
  by_cases h1 : k < hi + 1
  · by_cases h2 : k < lo
    · simp [h1, h2, Nat.testBit_mod_two_pow]
    · have h3 : ¬ hi < k := by omega
      have h4 : k - lo < hi + 1 - lo := by omega
      simp [h1, h2, h3, h4, Nat.testBit_mod_two_pow]
  · have h3 : hi < k := by omega
    simp [h1, h3, Nat.testBit_div_two_pow, show k - (hi + 1) + (hi + 1) = k by omega]

/-- A field just set holds what was set. -/
theorem bitsOf_setBits_same {hi lo : Nat} (w v : Nat) (h : lo ≤ hi) : bitsOf (setBits w hi lo v) hi lo = v % 2 ^ (hi + 1 - lo) := by
  apply Nat.eq_of_testBit_eq; intro k
  rw [testBit_bitsOf, testBit_setBits w v _ h, Nat.testBit_mod_two_pow]
  by_cases hk : k < hi + 1 - lo
  · have h1 : ¬hi < lo + k := by omega
    simp [hk, h1]
  · simp [hk]

/-- Setting a field leaves a field that lies wholly below or above it. -/
theorem bitsOf_setBits_other {hi lo hi2 lo2 : Nat} (w v : Nat) (h : lo ≤ hi) (d : hi2 < lo ∨ hi < lo2) :
    bitsOf (setBits w hi lo v) hi2 lo2 = bitsOf w hi2 lo2 := by
  apply Nat.eq_of_testBit_eq; intro k
  rw [testBit_bitsOf, testBit_bitsOf, testBit_setBits w v _ h]
  by_cases hk : k < hi2 + 1 - lo2
  · have h1 : lo2 + k < lo ∨ hi < lo2 + k := by omega
    simp [h1]
  · simp [hk]

/-- A field's value lies below its width's power of two. -/
theorem bitsOf_lt (w hi lo : Nat) : bitsOf w hi lo < 2 ^ (hi + 1 - lo) := Nat.mod_lt _ (Nat.two_pow_pos _)

/-! ### Registers -/

/-- A register word just written reads as what was written. -/
@[simp] theorem RegFile.read_write_same (rf : RegFile) (r : RegSpec) (i j v : Nat) : (rf.write r i j v).read r i j = v := by
  unfold RegFile.write RegFile.read
  by_cases h : v = r.resetWord <;> simp [h]

/-- Writing a register leaves every register at another offset. -/
theorem RegFile.read_write_other (rf : RegFile) (r q : RegSpec) (i j a b v : Nat) (h : q.addr a b ≠ r.addr i j) :
    (rf.write r i j v).read q a b = rf.read q a b := by
  unfold RegFile.write RegFile.read
  by_cases hv : v = r.resetWord
  · simp [hv, kvGetD_kvDel_other _ _ h]
  · simp [hv, kvGetD_kvSet_other _ _ _ h]

/-- A field just set holds what was set. -/
theorem RegFile.get_set_same (rf : RegFile) (f : Fld) (i j v : Nat) (h : f.lo ≤ f.hi) :
    (rf.set f i j v).get f i j = v % 2 ^ (f.hi + 1 - f.lo) := by
  simp [RegFile.set, RegFile.get, bitsOf_setBits_same _ _ h]

/-- Setting a field leaves the fields of registers at other offsets. -/
theorem RegFile.get_set_otherReg (rf : RegFile) (f g : Fld) (i j a b v : Nat) (h : g.reg.addr a b ≠ f.reg.addr i j) :
    (rf.set f i j v).get g a b = rf.get g a b := by
  simp [RegFile.set, RegFile.get, RegFile.read_write_other _ _ _ _ _ _ _ _ h]

/-- Setting a field leaves the other fields of its register. -/
theorem RegFile.get_set_otherField (rf : RegFile) (f g : Fld) (i j v : Nat) (hr : g.reg = f.reg) (h : f.lo ≤ f.hi)
    (d : g.hi < f.lo ∨ f.hi < g.lo) : (rf.set f i j v).get g i j = rf.get g i j := by
  simp [RegFile.set, RegFile.get, hr, bitsOf_setBits_other _ _ h d]

end Sys2Proof.Machine
end

