-- ==== Sys2Proof/Laws/Fields.lean ====
section
/-! SUPPORT. Reading a field of the module after setting one. -/

namespace Sys2Proof.Machine

/-- A field just set holds what was set. -/
theorem Mod.fget_fset_same (m : Mod) (f : Fld) (v i j : Nat) (h : f.lo ≤ f.hi) : (m.fset f v i j).fget f i j = v % 2 ^ (f.hi + 1 - f.lo) :=
  RegFile.get_set_same _ _ _ _ _ h

/-- Setting a field leaves the fields of registers at other offsets. -/
theorem Mod.fget_fset_otherReg (m : Mod) (f g : Fld) (v i j a b : Nat) (h : g.reg.addr a b ≠ f.reg.addr i j) :
    (m.fset f v i j).fget g a b = m.fget g a b := RegFile.get_set_otherReg _ _ _ _ _ _ _ _ h

/-- Setting a field leaves the other fields of its register. -/
theorem Mod.fget_fset_otherField (m : Mod) (f g : Fld) (v i j : Nat) (hr : g.reg = f.reg) (h : f.lo ≤ f.hi)
    (d : g.hi < f.lo ∨ f.hi < g.lo) : (m.fset f v i j).fget g i j = m.fget g i j := RegFile.get_set_otherField _ _ _ _ _ _ hr h d

/-- Fields stand when an event is raised, a step is faulted, something is sent, a core changes. -/
@[simp] theorem Mod.fget_raise (m : Mod) (c : EvClass) (code source d0 d1 d2 : Nat) (g : Fld) (a b : Nat) :
    (m.raise c code source d0 d1 d2).fget g a b = m.fget g a b := rfl
@[simp] theorem Mod.fget_fault (m : Mod) (code : Nat) (g : Fld) (a b : Nat) : (m.fault code).fget g a b = m.fget g a b := rfl
@[simp] theorem Mod.fget_emit (m : Mod) (o : Out) (g : Fld) (a b : Nat) : (m.emit o).fget g a b = m.fget g a b := rfl
@[simp] theorem Mod.fget_setCore (m : Mod) (c : Nat) (x : CoreRun) (g : Fld) (a b : Nat) : (m.setCore c x).fget g a b = m.fget g a b := rfl
@[simp] theorem Mod.fget_msix (m : Mod) (v : Nat) (g : Fld) (a b : Nat) : (m.msix v).fget g a b = m.fget g a b := by
  obtain ⟨h, e⟩ := m.msix_eq v; rw [e]; rfl
@[simp] theorem Mod.fget_raiseDual (m : Mod) (x : Bool) (c : EvClass) (code source d0 d1 d2 : Nat) (g : Fld) (a b : Nat) :
    (m.raiseDual x c code source d0 d1 d2).fget g a b = m.fget g a b := by
  obtain ⟨e, y, h⟩ := m.raiseDual_eq x c code source d0 d1 d2; rw [h]; rfl

/-- A core just set is what was set; the others stand. -/
@[simp] theorem Mod.core_setCore_same (m : Mod) (c : Nat) (x : CoreRun) : (m.setCore c x).core c = x := by simp [Mod.core, Mod.setCore]
theorem Mod.core_setCore_other (m : Mod) {c d : Nat} (x : CoreRun) (h : d ≠ c) : (m.setCore c x).core d = m.core d := by
  simp [Mod.core, Mod.setCore, kvGetD_kvSet_other _ _ _ h]

/-- The records raised hold the record raised and those before. -/
theorem mem_evInsert (r x : EvRec) (xs : List EvRec) : x ∈ evInsert r xs ↔ x = r ∨ x ∈ xs := by
  induction xs with
  | nil => simp [evInsert]
  | cons y ys ih =>
    unfold evInsert
    split
    · simp
    · simp [ih]; exact or_left_comm

end Sys2Proof.Machine
end

