-- ==== Sys2Proof/Laws/Parts.lean ====
section
/-! SUPPORT. How the parts a chain of operations may change add up. -/

namespace Sys2Proof.Machine

/-- A module is itself in every part. -/
theorem Mod.sameBut_refl (ps : List Part) (m : Mod) : Mod.sameBut ps m m := by constructor <;> intro _ <;> rfl

/-- Two changes in a row. -/
theorem Mod.sameBut_trans {ps : List Part} {l m n : Mod} (h1 : Mod.sameBut ps l m) (h2 : Mod.sameBut ps m n) : Mod.sameBut ps l n := by
  constructor <;> intro hp
  · exact (h2.variant hp).trans (h1.variant hp)
  · exact (h2.regs hp).trans (h1.regs hp)
  · exact (h2.evIn hp).trans (h1.evIn hp)
  · exact (h2.host hp).trans (h1.host hp)
  · exact (h2.pwr hp).trans (h1.pwr hp)
  · exact (h2.tick hp).trans (h1.tick hp)
  · exact (h2.plt hp).trans (h1.plt hp)
  · exact (h2.sched hp).trans (h1.sched hp)
  · exact (h2.cores hp).trans (h1.cores hp)
  · exact (h2.step hp).trans (h1.step hp)
  · exact (h2.mem hp).trans (h1.mem hp)
  · exact (h2.pool hp).trans (h1.pool hp)
  · exact (h2.pad hp).trans (h1.pad hp)
  · exact (h2.stm hp).trans (h1.stm hp)
  · exact (h2.groom hp).trans (h1.groom hp)
  · exact (h2.coll hp).trans (h1.coll hp)
  · exact (h2.chk hp).trans (h1.chk hp)
  · exact (h2.fab hp).trans (h1.fab hp)
  · exact (h2.sec hp).trans (h1.sec hp)
  · exact (h2.dbg hp).trans (h1.dbg hp)
  · exact (h2.fresh hp).trans (h1.fresh hp)

/-- More parts may be named. -/
theorem Mod.sameBut_mono {ps qs : List Part} {m n : Mod} (h : Mod.sameBut ps m n) (hs : ∀ p ∈ ps, p ∈ qs) : Mod.sameBut qs m n := by
  constructor <;> intro hp
  · exact h.variant (fun q => hp (hs _ q))
  · exact h.regs (fun q => hp (hs _ q))
  · exact h.evIn (fun q => hp (hs _ q))
  · exact h.host (fun q => hp (hs _ q))
  · exact h.pwr (fun q => hp (hs _ q))
  · exact h.tick (fun q => hp (hs _ q))
  · exact h.plt (fun q => hp (hs _ q))
  · exact h.sched (fun q => hp (hs _ q))
  · exact h.cores (fun q => hp (hs _ q))
  · exact h.step (fun q => hp (hs _ q))
  · exact h.mem (fun q => hp (hs _ q))
  · exact h.pool (fun q => hp (hs _ q))
  · exact h.pad (fun q => hp (hs _ q))
  · exact h.stm (fun q => hp (hs _ q))
  · exact h.groom (fun q => hp (hs _ q))
  · exact h.coll (fun q => hp (hs _ q))
  · exact h.chk (fun q => hp (hs _ q))
  · exact h.fab (fun q => hp (hs _ q))
  · exact h.sec (fun q => hp (hs _ q))
  · exact h.dbg (fun q => hp (hs _ q))
  · exact h.fresh (fun q => hp (hs _ q))

/-- A last operation that changes some of the parts, after what changes no others. -/
theorem Mod.sameBut_step {ps qs : List Part} {l m n : Mod} (h2 : Mod.sameBut ps m n) (hs : ∀ p ∈ ps, p ∈ qs) (h1 : Mod.sameBut qs l m) :
    Mod.sameBut qs l n := Mod.sameBut_trans h1 (Mod.sameBut_mono h2 hs)

/-- An update of fields, after what changes no other parts. -/
theorem Mod.sameBut_mk {ps : List Part} {l x : Mod} {a1 : RegFile} {a2 : List EvRec} {a3 : HostUnit} {a4 : PwrUnit} {a5 : TickUnit} {a6 : PlateUnit} {a7 : Sched} {a8 : Kv CoreRun} {a9 : StepUnit} {a10 : MemUnit} {a11 : PoolUnit} {a12 : PadUnit} {a13 : StmUnit} {a14 : GroomUnit} {a15 : CollUnit} {a16 : ChkUnit} {a17 : FabUnit} {a18 : SecUnit} {a19 : DbgUnit} {a20 : Nat}
    (h : Mod.sameBut ps l x) (c1 : Part.regs ∉ ps → a1 = x.regs) (c2 : Part.evIn ∉ ps → a2 = x.evIn) (c3 : Part.host ∉ ps → a3 = x.host) (c4 : Part.pwr ∉ ps → a4 = x.pwr) (c5 : Part.tick ∉ ps → a5 = x.tick) (c6 : Part.plt ∉ ps → a6 = x.plt) (c7 : Part.sched ∉ ps → a7 = x.sched) (c8 : Part.cores ∉ ps → a8 = x.cores) (c9 : Part.step ∉ ps → a9 = x.step) (c10 : Part.mem ∉ ps → a10 = x.mem) (c11 : Part.pool ∉ ps → a11 = x.pool) (c12 : Part.pad ∉ ps → a12 = x.pad) (c13 : Part.stm ∉ ps → a13 = x.stm) (c14 : Part.groom ∉ ps → a14 = x.groom) (c15 : Part.coll ∉ ps → a15 = x.coll) (c16 : Part.chk ∉ ps → a16 = x.chk) (c17 : Part.fab ∉ ps → a17 = x.fab) (c18 : Part.sec ∉ ps → a18 = x.sec) (c19 : Part.dbg ∉ ps → a19 = x.dbg) (c20 : Part.fresh ∉ ps → a20 = x.fresh) :
    Mod.sameBut ps l (Mod.mk x.variant a1 a2 a3 a4 a5 a6 a7 a8 a9 a10 a11 a12 a13 a14 a15 a16 a17 a18 a19 a20) := by
  constructor <;> intro hp
  · exact h.variant hp
  · exact (c1 hp).trans (h.regs hp)
  · exact (c2 hp).trans (h.evIn hp)
  · exact (c3 hp).trans (h.host hp)
  · exact (c4 hp).trans (h.pwr hp)
  · exact (c5 hp).trans (h.tick hp)
  · exact (c6 hp).trans (h.plt hp)
  · exact (c7 hp).trans (h.sched hp)
  · exact (c8 hp).trans (h.cores hp)
  · exact (c9 hp).trans (h.step hp)
  · exact (c10 hp).trans (h.mem hp)
  · exact (c11 hp).trans (h.pool hp)
  · exact (c12 hp).trans (h.pad hp)
  · exact (c13 hp).trans (h.stm hp)
  · exact (c14 hp).trans (h.groom hp)
  · exact (c15 hp).trans (h.coll hp)
  · exact (c16 hp).trans (h.chk hp)
  · exact (c17 hp).trans (h.fab hp)
  · exact (c18 hp).trans (h.sec hp)
  · exact (c19 hp).trans (h.dbg hp)
  · exact (c20 hp).trans (h.fresh hp)

/-- An intermediate module. -/
theorem Mod.sameBut_cut {ps : List Part} {l n : Mod} (y : Mod) (h : Mod.sameBut ps l y → Mod.sameBut ps l n) (hy : Mod.sameBut ps l y) :
    Mod.sameBut ps l n := h hy

/-- An intermediate module with something beside it. -/
theorem Mod.sameBut_cut_fst {α : Type} {ps : List Part} {l n : Mod} (y : Mod × α) (h : Mod.sameBut ps l y.1 → Mod.sameBut ps l n)
    (hy : Mod.sameBut ps l y.1) : Mod.sameBut ps l n := h hy

/-- A fold of operations each of which changes no others. -/
theorem Mod.sameBut_foldl {β : Type} {ps : List Part} {l : Mod} (f : Mod → β → Mod) (xs : List β) (m : Mod)
    (hf : ∀ m b, Mod.sameBut ps m (f m b)) (h : Mod.sameBut ps l m) : Mod.sameBut ps l (xs.foldl f m) := by
  induction xs generalizing m with
  | nil => exact h
  | cons b xs ih => exact ih (f m b) (Mod.sameBut_trans h (hf m b))

/-- The same of a fold that carries something beside the module. -/
theorem Mod.sameBut_foldl_fst {α β : Type} {ps : List Part} {l : Mod} (f : Mod × α → β → Mod × α) (xs : List β) (z : Mod × α)
    (hf : ∀ z b, Mod.sameBut ps z.1 (f z b).1) (h : Mod.sameBut ps l z.1) : Mod.sameBut ps l (xs.foldl f z).1 := by
  induction xs generalizing z with
  | nil => exact h
  | cons b xs ih => exact ih (f z b) (Mod.sameBut_trans h (hf z b))

end Sys2Proof.Machine
end

