-- ==== Sys2Proof/Laws/Frames1.lean ====
section
/-! SUPPORT. What each operation of the module changes, part 1 of 6: `f_sameBut` names the parts of the module that operation `f` may
change (an operation that answers a module and something beside it: its first part). The operations stand before those that use them. -/

namespace Sys2Proof.Machine

theorem Mod.fset_sameBut (m : Mod) (a1 : Fld) (a2 : Nat) (a3 : optParam Nat 0) (a4 : optParam Nat 0) : Mod.sameBut [.regs] m (Mod.fset m a1 a2 a3 a4) := by
  unfold Mod.fset
  repeat'
    first
      | with_reducible exact Mod.sameBut_refl _ _
      | with_reducible assumption
      | (extract_lets +onlyGivenNames y; first | (refine Mod.sameBut_cut y (fun hy => ?_) ?_; rotate_left; subst y; rotate_left; clear_value y) | (refine Mod.sameBut_cut_fst y (fun hy => ?_) ?_; rotate_left; subst y; rotate_left; clear_value y) | clear_value y)
      | split
      | dsimp only
      | ((with_reducible apply Mod.sameBut_mk); rotate_left; all_goals (try (intro hp; first | exact (hp (by decide)).elim | rfl)))

theorem Mod.fsat_sameBut (m : Mod) (a1 : Fld) (a2 : optParam Nat 1) (a3 : optParam Nat 0) (a4 : optParam Nat 0) : Mod.sameBut [.regs] m (Mod.fsat m a1 a2 a3 a4) := by
  unfold Mod.fsat
  repeat'
    first
      | with_reducible exact Mod.sameBut_refl _ _
      | with_reducible assumption
      | (extract_lets +onlyGivenNames y; first | (refine Mod.sameBut_cut y (fun hy => ?_) ?_; rotate_left; subst y; rotate_left; clear_value y) | (refine Mod.sameBut_cut_fst y (fun hy => ?_) ?_; rotate_left; subst y; rotate_left; clear_value y) | clear_value y)
      | ((with_reducible apply Mod.sameBut_step (Mod.fset_sameBut _ _ _ _ _)); decide)
      | split
      | dsimp only

theorem Mod.redFlags_sameBut (m : Mod) (a1 : Nat) (a2 : Fl) : Mod.sameBut [.regs] m (Mod.redFlags m a1 a2) := by
  unfold Mod.redFlags
  repeat'
    first
      | with_reducible exact Mod.sameBut_refl _ _
      | with_reducible assumption
      | (extract_lets +onlyGivenNames y; first | (refine Mod.sameBut_cut y (fun hy => ?_) ?_; rotate_left; subst y; rotate_left; clear_value y) | (refine Mod.sameBut_cut_fst y (fun hy => ?_) ?_; rotate_left; subst y; rotate_left; clear_value y) | clear_value y)
      | ((with_reducible apply Mod.sameBut_step (Mod.fsat_sameBut _ _ _ _ _)); decide)
      | split
      | dsimp only
      | ((with_reducible apply Mod.sameBut_mk); rotate_left; all_goals (try (intro hp; first | exact (hp (by decide)).elim | rfl)))

theorem Mod.markLoc_sameBut (m : Mod) (a1 : Loc) : Mod.sameBut [.mem] m (Mod.markLoc m a1) := by
  unfold Mod.markLoc
  repeat'
    first
      | with_reducible exact Mod.sameBut_refl _ _
      | with_reducible assumption
      | (extract_lets +onlyGivenNames y; first | (refine Mod.sameBut_cut y (fun hy => ?_) ?_; rotate_left; subst y; rotate_left; clear_value y) | (refine Mod.sameBut_cut_fst y (fun hy => ?_) ?_; rotate_left; subst y; rotate_left; clear_value y) | clear_value y)
      | split
      | dsimp only
      | ((with_reducible apply Mod.sameBut_mk); rotate_left; all_goals (try (intro hp; first | exact (hp (by decide)).elim | rfl)))

theorem Mod.devMark_sameBut (m : Mod) (a1 : Nat) : Mod.sameBut [.mem] m (Mod.devMark m a1) := by
  unfold Mod.devMark
  repeat'
    first
      | with_reducible exact Mod.sameBut_refl _ _
      | with_reducible assumption
      | (extract_lets +onlyGivenNames y; first | (refine Mod.sameBut_cut y (fun hy => ?_) ?_; rotate_left; subst y; rotate_left; clear_value y) | (refine Mod.sameBut_cut_fst y (fun hy => ?_) ?_; rotate_left; subst y; rotate_left; clear_value y) | clear_value y)
      | ((with_reducible apply Mod.sameBut_step (Mod.markLoc_sameBut _ _)); decide)
      | split
      | dsimp only

theorem Mod.unmarkLoc_sameBut (m : Mod) (a1 : Loc) : Mod.sameBut [.mem] m (Mod.unmarkLoc m a1) := by
  unfold Mod.unmarkLoc
  repeat'
    first
      | with_reducible exact Mod.sameBut_refl _ _
      | with_reducible assumption
      | (extract_lets +onlyGivenNames y; first | (refine Mod.sameBut_cut y (fun hy => ?_) ?_; rotate_left; subst y; rotate_left; clear_value y) | (refine Mod.sameBut_cut_fst y (fun hy => ?_) ?_; rotate_left; subst y; rotate_left; clear_value y) | clear_value y)
      | split
      | dsimp only
      | ((with_reducible apply Mod.sameBut_mk); rotate_left; all_goals (try (intro hp; first | exact (hp (by decide)).elim | rfl)))

theorem Mod.putByte_sameBut (m : Mod) (a1 : Loc) (a2 : Byte) : Mod.sameBut [.mem] m (Mod.putByte m a1 a2) := by
  unfold Mod.putByte
  repeat'
    first
      | with_reducible exact Mod.sameBut_refl _ _
      | with_reducible assumption
      | (extract_lets +onlyGivenNames y; first | (refine Mod.sameBut_cut y (fun hy => ?_) ?_; rotate_left; subst y; rotate_left; clear_value y) | (refine Mod.sameBut_cut_fst y (fun hy => ?_) ?_; rotate_left; subst y; rotate_left; clear_value y) | clear_value y)
      | split
      | dsimp only
      | ((with_reducible apply Mod.sameBut_mk); rotate_left; all_goals (try (intro hp; first | exact (hp (by decide)).elim | rfl)))

theorem Mod.putBytes_sameBut (a0 : Nat → Loc) (m : Mod) (a2 : Nat) (a3 : List (Option Byte)) : Mod.sameBut [.mem] m (Mod.putBytes a0 m a2 a3) := by
  fun_induction Mod.putBytes a0 m a2 a3
  repeat'
    first
      | with_reducible exact Mod.sameBut_refl _ _
      | with_reducible assumption
      | (extract_lets +onlyGivenNames y; first | (refine Mod.sameBut_cut y (fun hy => ?_) ?_; rotate_left; subst y; rotate_left; clear_value y) | (refine Mod.sameBut_cut_fst y (fun hy => ?_) ?_; rotate_left; subst y; rotate_left; clear_value y) | clear_value y)
      | ((with_reducible apply Mod.sameBut_step (Mod.putByte_sameBut _ _ _)); decide)
      | with_reducible refine Mod.sameBut_trans ?_ (by assumption)
      | split
      | dsimp only

theorem Mod.writeAt_sameBut (a0 : Nat → Loc) (m : Mod) (a2 : Nat) (a3 : List (Option Byte)) : Mod.sameBut [.mem] m (Mod.writeAt a0 m a2 a3) := by
  unfold Mod.writeAt
  repeat'
    first
      | with_reducible exact Mod.sameBut_refl _ _
      | with_reducible assumption
      | (extract_lets +onlyGivenNames y; first | (refine Mod.sameBut_cut y (fun hy => ?_) ?_; rotate_left; subst y; rotate_left; clear_value y) | (refine Mod.sameBut_cut_fst y (fun hy => ?_) ?_; rotate_left; subst y; rotate_left; clear_value y) | clear_value y)
      | ((with_reducible apply Mod.sameBut_step (Mod.putBytes_sameBut _ _ _ _)); decide)
      | ((with_reducible apply Mod.sameBut_step (Mod.unmarkLoc_sameBut _ _)); decide)
      | split
      | ((with_reducible apply Mod.sameBut_foldl); intro x e)
      | ((with_reducible apply Mod.sameBut_foldl_fst); intro x e)
      | dsimp only

theorem Mod.devWrite_sameBut (m : Mod) (a1 : Nat) (a2 : List Byte) : Mod.sameBut [.mem] m (Mod.devWrite m a1 a2) := by
  unfold Mod.devWrite
  repeat'
    first
      | with_reducible exact Mod.sameBut_refl _ _
      | with_reducible assumption
      | (extract_lets +onlyGivenNames y; first | (refine Mod.sameBut_cut y (fun hy => ?_) ?_; rotate_left; subst y; rotate_left; clear_value y) | (refine Mod.sameBut_cut_fst y (fun hy => ?_) ?_; rotate_left; subst y; rotate_left; clear_value y) | clear_value y)
      | ((with_reducible apply Mod.sameBut_step (Mod.writeAt_sameBut _ _ _ _)); decide)
      | split
      | dsimp only

theorem Mod.devWriteP_sameBut (m : Mod) (a1 : Nat) (a2 : List (Prod Byte Bool)) : Mod.sameBut [.mem] m (Mod.devWriteP m a1 a2) := by
  unfold Mod.devWriteP
  repeat'
    first
      | with_reducible exact Mod.sameBut_refl _ _
      | with_reducible assumption
      | (extract_lets +onlyGivenNames y; first | (refine Mod.sameBut_cut y (fun hy => ?_) ?_; rotate_left; subst y; rotate_left; clear_value y) | (refine Mod.sameBut_cut_fst y (fun hy => ?_) ?_; rotate_left; subst y; rotate_left; clear_value y) | clear_value y)
      | ((with_reducible apply Mod.sameBut_step (Mod.devWrite_sameBut _ _ _)); decide)
      | ((with_reducible apply Mod.sameBut_step (Mod.devMark_sameBut _ _)); decide)
      | split
      | ((with_reducible apply Mod.sameBut_foldl); intro x e)
      | ((with_reducible apply Mod.sameBut_foldl_fst); intro x e)
      | dsimp only

theorem Mod.trace_sameBut (m : Mod) (a1 : Nat) (a2 : Nat) (a3 : optParam Nat 0) (a4 : optParam Nat 0) (a5 : optParam Nat 0) (a6 : optParam Nat 0) : Mod.sameBut [.regs, .dbg] m (Mod.trace m a1 a2 a3 a4 a5 a6) := by
  unfold Mod.trace
  repeat'
    first
      | with_reducible exact Mod.sameBut_refl _ _
      | with_reducible assumption
      | (extract_lets +onlyGivenNames y; first | (refine Mod.sameBut_cut y (fun hy => ?_) ?_; rotate_left; subst y; rotate_left; clear_value y) | (refine Mod.sameBut_cut_fst y (fun hy => ?_) ?_; rotate_left; subst y; rotate_left; clear_value y) | clear_value y)
      | ((with_reducible apply Mod.sameBut_step (Mod.fset_sameBut _ _ _ _ _)); decide)
      | split
      | dsimp only
      | ((with_reducible apply Mod.sameBut_mk); rotate_left; all_goals (try (intro hp; first | exact (hp (by decide)).elim | rfl)))

theorem Mod.setCore_sameBut (m : Mod) (a1 : Nat) (a2 : CoreRun) : Mod.sameBut [.cores] m (Mod.setCore m a1 a2) := by
  unfold Mod.setCore
  repeat'
    first
      | with_reducible exact Mod.sameBut_refl _ _
      | with_reducible assumption
      | (extract_lets +onlyGivenNames y; first | (refine Mod.sameBut_cut y (fun hy => ?_) ?_; rotate_left; subst y; rotate_left; clear_value y) | (refine Mod.sameBut_cut_fst y (fun hy => ?_) ?_; rotate_left; subst y; rotate_left; clear_value y) | clear_value y)
      | split
      | dsimp only
      | ((with_reducible apply Mod.sameBut_mk); rotate_left; all_goals (try (intro hp; first | exact (hp (by decide)).elim | rfl)))

theorem Mod.haltCore_sameBut (m : Mod) (a1 : HaltReason) (a2 : Nat) : Mod.sameBut [.regs, .cores, .dbg] m (Mod.haltCore m a1 a2) := by
  unfold Mod.haltCore
  repeat'
    first
      | with_reducible exact Mod.sameBut_refl _ _
      | with_reducible assumption
      | (extract_lets +onlyGivenNames y; first | (refine Mod.sameBut_cut y (fun hy => ?_) ?_; rotate_left; subst y; rotate_left; clear_value y) | (refine Mod.sameBut_cut_fst y (fun hy => ?_) ?_; rotate_left; subst y; rotate_left; clear_value y) | clear_value y)
      | ((with_reducible apply Mod.sameBut_step (Mod.trace_sameBut _ _ _ _ _ _ _)); decide)
      | ((with_reducible apply Mod.sameBut_step (Mod.setCore_sameBut _ _ _)); decide)
      | split
      | dsimp only

theorem Mod.haltCores_sameBut (m : Mod) (a1 : HaltReason) (a2 : List Nat) : Mod.sameBut [.regs, .cores, .dbg] m (Mod.haltCores m a1 a2) := by
  unfold Mod.haltCores
  repeat'
    first
      | with_reducible exact Mod.sameBut_refl _ _
      | with_reducible assumption
      | (extract_lets +onlyGivenNames y; first | (refine Mod.sameBut_cut y (fun hy => ?_) ?_; rotate_left; subst y; rotate_left; clear_value y) | (refine Mod.sameBut_cut_fst y (fun hy => ?_) ?_; rotate_left; subst y; rotate_left; clear_value y) | clear_value y)
      | ((with_reducible apply Mod.sameBut_step (Mod.haltCore_sameBut _ _ _)); decide)
      | ((with_reducible apply Mod.sameBut_step (Mod.fset_sameBut _ _ _ _ _)); decide)
      | split
      | ((with_reducible apply Mod.sameBut_foldl); intro x e)
      | ((with_reducible apply Mod.sameBut_foldl_fst); intro x e)
      | dsimp only

theorem Mod.haltDevice_sameBut (m : Mod) (a1 : HaltReason) : Mod.sameBut [.regs, .cores, .dbg] m (Mod.haltDevice m a1) := by
  unfold Mod.haltDevice
  repeat'
    first
      | with_reducible exact Mod.sameBut_refl _ _
      | with_reducible assumption
      | (extract_lets +onlyGivenNames y; first | (refine Mod.sameBut_cut y (fun hy => ?_) ?_; rotate_left; subst y; rotate_left; clear_value y) | (refine Mod.sameBut_cut_fst y (fun hy => ?_) ?_; rotate_left; subst y; rotate_left; clear_value y) | clear_value y)
      | ((with_reducible apply Mod.sameBut_step (Mod.haltCores_sameBut _ _ _)); decide)
      | split
      | dsimp only
      | ((with_reducible apply Mod.sameBut_mk); rotate_left; all_goals (try (intro hp; first | exact (hp (by decide)).elim | rfl)))

theorem Mod.raise_sameBut (m : Mod) (a1 : EvClass) (a2 : Nat) (a3 : Nat) (a4 : optParam Nat 0) (a5 : optParam Nat 0) (a6 : optParam Nat 0) : Mod.sameBut [.evIn] m (Mod.raise m a1 a2 a3 a4 a5 a6) := by
  unfold Mod.raise
  repeat'
    first
      | with_reducible exact Mod.sameBut_refl _ _
      | with_reducible assumption
      | (extract_lets +onlyGivenNames y; first | (refine Mod.sameBut_cut y (fun hy => ?_) ?_; rotate_left; subst y; rotate_left; clear_value y) | (refine Mod.sameBut_cut_fst y (fun hy => ?_) ?_; rotate_left; subst y; rotate_left; clear_value y) | clear_value y)
      | split
      | dsimp only
      | ((with_reducible apply Mod.sameBut_mk); rotate_left; all_goals (try (intro hp; first | exact (hp (by decide)).elim | rfl)))

theorem Mod.traceTrigger_sameBut (m : Mod) : Mod.sameBut [.regs, .dbg] m (Mod.traceTrigger m) := by
  unfold Mod.traceTrigger
  repeat'
    first
      | with_reducible exact Mod.sameBut_refl _ _
      | with_reducible assumption
      | (extract_lets +onlyGivenNames y; first | (refine Mod.sameBut_cut y (fun hy => ?_) ?_; rotate_left; subst y; rotate_left; clear_value y) | (refine Mod.sameBut_cut_fst y (fun hy => ?_) ?_; rotate_left; subst y; rotate_left; clear_value y) | clear_value y)
      | ((with_reducible apply Mod.sameBut_step (Mod.fset_sameBut _ _ _ _ _)); decide)
      | split
      | dsimp only
      | ((with_reducible apply Mod.sameBut_mk); rotate_left; all_goals (try (intro hp; first | exact (hp (by decide)).elim | rfl)))

theorem Mod.watchHit_sameBut (m : Mod) (a1 : Nat) (a2 : Nat) (a3 : Bool) (a4 : Nat) : Mod.sameBut [.regs, .evIn, .cores, .dbg] m (Mod.watchHit m a1 a2 a3 a4) := by
  unfold Mod.watchHit
  repeat'
    first
      | with_reducible exact Mod.sameBut_refl _ _
      | with_reducible assumption
      | (extract_lets +onlyGivenNames y; first | (refine Mod.sameBut_cut y (fun hy => ?_) ?_; rotate_left; subst y; rotate_left; clear_value y) | (refine Mod.sameBut_cut_fst y (fun hy => ?_) ?_; rotate_left; subst y; rotate_left; clear_value y) | clear_value y)
      | ((with_reducible apply Mod.sameBut_step (Mod.trace_sameBut _ _ _ _ _ _ _)); decide)
      | ((with_reducible apply Mod.sameBut_step (Mod.fsat_sameBut _ _ _ _ _)); decide)
      | ((with_reducible apply Mod.sameBut_step (Mod.raise_sameBut _ _ _ _ _ _ _)); decide)
      | ((with_reducible apply Mod.sameBut_step (Mod.haltDevice_sameBut _ _)); decide)
      | ((with_reducible apply Mod.sameBut_step (Mod.traceTrigger_sameBut _)); decide)
      | split
      | dsimp only
      | ((with_reducible apply Mod.sameBut_mk); rotate_left; all_goals (try (intro hp; first | exact (hp (by decide)).elim | rfl)))

theorem Mod.yard_sameBut (m : Mod) (a1 : YardSrc) (a2 : Nat) (a3 : Nat) (a4 : Bool) : Mod.sameBut [.regs, .evIn, .cores, .dbg] m (Mod.yard m a1 a2 a3 a4) := by
  unfold Mod.yard
  repeat'
    first
      | with_reducible exact Mod.sameBut_refl _ _
      | with_reducible assumption
      | (extract_lets +onlyGivenNames y; first | (refine Mod.sameBut_cut y (fun hy => ?_) ?_; rotate_left; subst y; rotate_left; clear_value y) | (refine Mod.sameBut_cut_fst y (fun hy => ?_) ?_; rotate_left; subst y; rotate_left; clear_value y) | clear_value y)
      | ((with_reducible apply Mod.sameBut_step (Mod.watchHit_sameBut _ _ _ _ _)); decide)
      | split
      | ((with_reducible apply Mod.sameBut_foldl); intro x e)
      | ((with_reducible apply Mod.sameBut_foldl_fst); intro x e)
      | dsimp only

theorem Mod.residWrite_sameBut (m : Mod) (a1 : CollOp) (a2 : Nat) (a3 : Nat) (a4 : Bool) (a5 : List (Prod Nat Bool)) : Mod.sameBut [.regs, .evIn, .cores, .mem, .dbg] m (Mod.residWrite m a1 a2 a3 a4 a5) := by
  unfold Mod.residWrite
  repeat'
    first
      | with_reducible exact Mod.sameBut_refl _ _
      | with_reducible assumption
      | (extract_lets +onlyGivenNames y; first | (refine Mod.sameBut_cut y (fun hy => ?_) ?_; rotate_left; subst y; rotate_left; clear_value y) | (refine Mod.sameBut_cut_fst y (fun hy => ?_) ?_; rotate_left; subst y; rotate_left; clear_value y) | clear_value y)
      | ((with_reducible apply Mod.sameBut_step (Mod.devWriteP_sameBut _ _ _)); decide)
      | ((with_reducible apply Mod.sameBut_step (Mod.yard_sameBut _ _ _ _ _)); decide)
      | split
      | dsimp only

theorem Mod.setStable_sameBut (m : Mod) (a1 : Nat) (a2 : StableRun) : Mod.sameBut [.sched] m (Mod.setStable m a1 a2) := by
  unfold Mod.setStable
  repeat'
    first
      | with_reducible exact Mod.sameBut_refl _ _
      | with_reducible assumption
      | (extract_lets +onlyGivenNames y; first | (refine Mod.sameBut_cut y (fun hy => ?_) ?_; rotate_left; subst y; rotate_left; clear_value y) | (refine Mod.sameBut_cut_fst y (fun hy => ?_) ?_; rotate_left; subst y; rotate_left; clear_value y) | clear_value y)
      | split
      | dsimp only
      | ((with_reducible apply Mod.sameBut_mk); rotate_left; all_goals (try (intro hp; first | exact (hp (by decide)).elim | rfl)))

theorem Mod.fenceStable_sameBut (m : Mod) (a1 : Nat) : Mod.sameBut [.sched] m (Mod.fenceStable m a1) := by
  unfold Mod.fenceStable
  repeat'
    first
      | with_reducible exact Mod.sameBut_refl _ _
      | with_reducible assumption
      | (extract_lets +onlyGivenNames y; first | (refine Mod.sameBut_cut y (fun hy => ?_) ?_; rotate_left; subst y; rotate_left; clear_value y) | (refine Mod.sameBut_cut_fst y (fun hy => ?_) ?_; rotate_left; subst y; rotate_left; clear_value y) | clear_value y)
      | ((with_reducible apply Mod.sameBut_step (Mod.setStable_sameBut _ _ _)); decide)
      | split
      | dsimp only

theorem Mod.fault_sameBut (m : Mod) (a1 : Nat) : Mod.sameBut [.step] m (Mod.fault m a1) := by
  unfold Mod.fault
  repeat'
    first
      | with_reducible exact Mod.sameBut_refl _ _
      | with_reducible assumption
      | (extract_lets +onlyGivenNames y; first | (refine Mod.sameBut_cut y (fun hy => ?_) ?_; rotate_left; subst y; rotate_left; clear_value y) | (refine Mod.sameBut_cut_fst y (fun hy => ?_) ?_; rotate_left; subst y; rotate_left; clear_value y) | clear_value y)
      | split
      | dsimp only
      | ((with_reducible apply Mod.sameBut_mk); rotate_left; all_goals (try (intro hp; first | exact (hp (by decide)).elim | rfl)))

theorem Mod.raiseDual_sameBut (m : Mod) (a1 : Bool) (a2 : EvClass) (a3 : Nat) (a4 : Nat) (a5 : optParam Nat 0) (a6 : optParam Nat 0) (a7 : optParam Nat 0) : Mod.sameBut [.evIn, .step] m (Mod.raiseDual m a1 a2 a3 a4 a5 a6 a7) := by
  unfold Mod.raiseDual
  repeat'
    first
      | with_reducible exact Mod.sameBut_refl _ _
      | with_reducible assumption
      | (extract_lets +onlyGivenNames y; first | (refine Mod.sameBut_cut y (fun hy => ?_) ?_; rotate_left; subst y; rotate_left; clear_value y) | (refine Mod.sameBut_cut_fst y (fun hy => ?_) ?_; rotate_left; subst y; rotate_left; clear_value y) | clear_value y)
      | ((with_reducible apply Mod.sameBut_step (Mod.fault_sameBut _ _)); decide)
      | ((with_reducible apply Mod.sameBut_step (Mod.raise_sameBut _ _ _ _ _ _ _)); decide)
      | split
      | dsimp only

theorem Mod.raiseStep_sameBut (m : Mod) (a1 : Nat) (a2 : Nat) (a3 : optParam Nat 0) (a4 : optParam Nat 0) (a5 : optParam Nat 0) : Mod.sameBut [.evIn, .step] m (Mod.raiseStep m a1 a2 a3 a4 a5) := by
  unfold Mod.raiseStep
  repeat'
    first
      | with_reducible exact Mod.sameBut_refl _ _
      | with_reducible assumption
      | (extract_lets +onlyGivenNames y; first | (refine Mod.sameBut_cut y (fun hy => ?_) ?_; rotate_left; subst y; rotate_left; clear_value y) | (refine Mod.sameBut_cut_fst y (fun hy => ?_) ?_; rotate_left; subst y; rotate_left; clear_value y) | clear_value y)
      | ((with_reducible apply Mod.sameBut_step (Mod.raiseDual_sameBut _ _ _ _ _ _ _ _)); decide)
      | split
      | dsimp only

theorem Mod.fenceCore_sameBut (m : Mod) (a1 : Nat) (a2 : Nat) : Mod.sameBut [.regs, .evIn, .sched, .cores, .step] m (Mod.fenceCore m a1 a2) := by
  unfold Mod.fenceCore
  repeat'
    first
      | with_reducible exact Mod.sameBut_refl _ _
      | with_reducible assumption
      | (extract_lets +onlyGivenNames y; first | (refine Mod.sameBut_cut y (fun hy => ?_) ?_; rotate_left; subst y; rotate_left; clear_value y) | (refine Mod.sameBut_cut_fst y (fun hy => ?_) ?_; rotate_left; subst y; rotate_left; clear_value y) | clear_value y)
      | ((with_reducible apply Mod.sameBut_step (Mod.fset_sameBut _ _ _ _ _)); decide)
      | ((with_reducible apply Mod.sameBut_step (Mod.setCore_sameBut _ _ _)); decide)
      | ((with_reducible apply Mod.sameBut_step (Mod.raiseStep_sameBut _ _ _ _ _ _)); decide)
      | ((with_reducible apply Mod.sameBut_step (Mod.fenceStable_sameBut _ _)); decide)
      | split
      | dsimp only
      | ((with_reducible apply Mod.sameBut_mk); rotate_left; all_goals (try (intro hp; first | exact (hp (by decide)).elim | rfl)))

theorem Mod.sramErrors_sameBut (m : Mod) (a1 : Nat) (a2 : Nat) (a3 : List (Prod Nat Nat)) (a4 : Ecc) : Mod.sameBut [.regs, .evIn, .sched, .cores, .step, .mem] m (Mod.sramErrors m a1 a2 a3 a4) := by
  unfold Mod.sramErrors
  repeat'
    first
      | with_reducible exact Mod.sameBut_refl _ _
      | with_reducible assumption
      | (extract_lets +onlyGivenNames y; first | (refine Mod.sameBut_cut y (fun hy => ?_) ?_; rotate_left; subst y; rotate_left; clear_value y) | (refine Mod.sameBut_cut_fst y (fun hy => ?_) ?_; rotate_left; subst y; rotate_left; clear_value y) | clear_value y)
      | ((with_reducible apply Mod.sameBut_step (Mod.raise_sameBut _ _ _ _ _ _ _)); decide)
      | ((with_reducible apply Mod.sameBut_step (Mod.fsat_sameBut _ _ _ _ _)); decide)
      | ((with_reducible apply Mod.sameBut_step (Mod.raiseStep_sameBut _ _ _ _ _ _)); decide)
      | ((with_reducible apply Mod.sameBut_step (Mod.fenceCore_sameBut _ _ _)); decide)
      | split
      | ((with_reducible apply Mod.sameBut_foldl); intro x e)
      | ((with_reducible apply Mod.sameBut_foldl_fst); intro x e)
      | dsimp only
      | ((with_reducible apply Mod.sameBut_mk); rotate_left; all_goals (try (intro hp; first | exact (hp (by decide)).elim | rfl)))

theorem Mod.sliceRead_sameBut (m : Mod) (a1 : CollOp) (a2 : Nat) (a3 : Ecc) : Mod.sameBut [.regs, .evIn, .sched, .cores, .step, .mem] m (Mod.sliceRead m a1 a2 a3).1 := by
  unfold Mod.sliceRead
  repeat'
    first
      | with_reducible exact Mod.sameBut_refl _ _
      | with_reducible assumption
      | (extract_lets +onlyGivenNames y; first | (refine Mod.sameBut_cut y (fun hy => ?_) ?_; rotate_left; subst y; rotate_left; clear_value y) | (refine Mod.sameBut_cut_fst y (fun hy => ?_) ?_; rotate_left; subst y; rotate_left; clear_value y) | clear_value y)
      | ((with_reducible apply Mod.sameBut_step (Mod.sramErrors_sameBut _ _ _ _ _)); decide)
      | split
      | dsimp only

theorem Mod.foundCe_sameBut (m : Mod) (a1 : Nat) : Mod.sameBut [.regs, .evIn] m (Mod.foundCe m a1) := by
  unfold Mod.foundCe
  repeat'
    first
      | with_reducible exact Mod.sameBut_refl _ _
      | with_reducible assumption
      | (extract_lets +onlyGivenNames y; first | (refine Mod.sameBut_cut y (fun hy => ?_) ?_; rotate_left; subst y; rotate_left; clear_value y) | (refine Mod.sameBut_cut_fst y (fun hy => ?_) ?_; rotate_left; subst y; rotate_left; clear_value y) | clear_value y)
      | ((with_reducible apply Mod.sameBut_step (Mod.raise_sameBut _ _ _ _ _ _ _)); decide)
      | ((with_reducible apply Mod.sameBut_step (Mod.fsat_sameBut _ _ _ _ _)); decide)
      | split
      | dsimp only

theorem Mod.set64_sameBut (m : Mod) (a1 : Fld) (a2 : Fld) (a3 : Nat) (a4 : optParam Nat 0) : Mod.sameBut [.regs] m (Mod.set64 m a1 a2 a3 a4) := by
  unfold Mod.set64
  repeat'
    first
      | with_reducible exact Mod.sameBut_refl _ _
      | with_reducible assumption
      | (extract_lets +onlyGivenNames y; first | (refine Mod.sameBut_cut y (fun hy => ?_) ?_; rotate_left; subst y; rotate_left; clear_value y) | (refine Mod.sameBut_cut_fst y (fun hy => ?_) ?_; rotate_left; subst y; rotate_left; clear_value y) | clear_value y)
      | ((with_reducible apply Mod.sameBut_step (Mod.fset_sameBut _ _ _ _ _)); decide)
      | split
      | dsimp only

theorem Mod.foundUe_sameBut (m : Mod) (a1 : Bool) (a2 : Nat) : Mod.sameBut [.regs, .evIn, .step, .mem] m (Mod.foundUe m a1 a2) := by
  unfold Mod.foundUe
  repeat'
    first
      | with_reducible exact Mod.sameBut_refl _ _
      | with_reducible assumption
      | (extract_lets +onlyGivenNames y; first | (refine Mod.sameBut_cut y (fun hy => ?_) ?_; rotate_left; subst y; rotate_left; clear_value y) | (refine Mod.sameBut_cut_fst y (fun hy => ?_) ?_; rotate_left; subst y; rotate_left; clear_value y) | clear_value y)
      | ((with_reducible apply Mod.sameBut_step (Mod.fsat_sameBut _ _ _ _ _)); decide)
      | ((with_reducible apply Mod.sameBut_step (Mod.markLoc_sameBut _ _)); decide)
      | ((with_reducible apply Mod.sameBut_step (Mod.set64_sameBut _ _ _ _ _)); decide)
      | ((with_reducible apply Mod.sameBut_step (Mod.raiseDual_sameBut _ _ _ _ _ _ _ _)); decide)
      | split
      | dsimp only

theorem Mod.eccDev_sameBut (m : Mod) (a1 : Bool) (a2 : List (Prod Nat Nat)) (a3 : Ecc) : Mod.sameBut [.regs, .evIn, .step, .mem] m (Mod.eccDev m a1 a2 a3) := by
  unfold Mod.eccDev
  repeat'
    first
      | with_reducible exact Mod.sameBut_refl _ _
      | with_reducible assumption
      | (extract_lets +onlyGivenNames y; first | (refine Mod.sameBut_cut y (fun hy => ?_) ?_; rotate_left; subst y; rotate_left; clear_value y) | (refine Mod.sameBut_cut_fst y (fun hy => ?_) ?_; rotate_left; subst y; rotate_left; clear_value y) | clear_value y)
      | ((with_reducible apply Mod.sameBut_step (Mod.foundCe_sameBut _ _)); decide)
      | ((with_reducible apply Mod.sameBut_step (Mod.foundUe_sameBut _ _ _)); decide)
      | split
      | ((with_reducible apply Mod.sameBut_foldl); intro x e)
      | ((with_reducible apply Mod.sameBut_foldl_fst); intro x e)
      | dsimp only

theorem Mod.loftMet_sameBut (m : Mod) (a1 : Bool) (a2 : List (Prod Nat Nat)) : Mod.sameBut [.regs, .evIn, .step] m (Mod.loftMet m a1 a2) := by
  unfold Mod.loftMet
  repeat'
    first
      | with_reducible exact Mod.sameBut_refl _ _
      | with_reducible assumption
      | (extract_lets +onlyGivenNames y; first | (refine Mod.sameBut_cut y (fun hy => ?_) ?_; rotate_left; subst y; rotate_left; clear_value y) | (refine Mod.sameBut_cut_fst y (fun hy => ?_) ?_; rotate_left; subst y; rotate_left; clear_value y) | clear_value y)
      | ((with_reducible apply Mod.sameBut_step (Mod.raiseDual_sameBut _ _ _ _ _ _ _ _)); decide)
      | ((with_reducible apply Mod.sameBut_step (Mod.fset_sameBut _ _ _ _ _)); decide)
      | split
      | ((with_reducible apply Mod.sameBut_foldl); intro x e)
      | ((with_reducible apply Mod.sameBut_foldl_fst); intro x e)
      | dsimp only

theorem Mod.readDev_sameBut (m : Mod) (a1 : Bool) (a2 : List (Prod Nat Nat)) (a3 : Ecc) : Mod.sameBut [.regs, .evIn, .step, .mem] m (Mod.readDev m a1 a2 a3) := by
  unfold Mod.readDev
  repeat'
    first
      | with_reducible exact Mod.sameBut_refl _ _
      | with_reducible assumption
      | (extract_lets +onlyGivenNames y; first | (refine Mod.sameBut_cut y (fun hy => ?_) ?_; rotate_left; subst y; rotate_left; clear_value y) | (refine Mod.sameBut_cut_fst y (fun hy => ?_) ?_; rotate_left; subst y; rotate_left; clear_value y) | clear_value y)
      | ((with_reducible apply Mod.sameBut_step (Mod.loftMet_sameBut _ _ _)); decide)
      | ((with_reducible apply Mod.sameBut_step (Mod.eccDev_sameBut _ _ _ _)); decide)
      | split
      | dsimp only

theorem Mod.unitRead_sameBut (m : Mod) (a1 : Bool) (a2 : Nat) (a3 : Nat) (a4 : Ecc) : Mod.sameBut [.regs, .evIn, .step, .mem] m (Mod.unitRead m a1 a2 a3 a4).1 := by
  unfold Mod.unitRead
  repeat'
    first
      | with_reducible exact Mod.sameBut_refl _ _
      | with_reducible assumption
      | (extract_lets +onlyGivenNames y; first | (refine Mod.sameBut_cut y (fun hy => ?_) ?_; rotate_left; subst y; rotate_left; clear_value y) | (refine Mod.sameBut_cut_fst y (fun hy => ?_) ?_; rotate_left; subst y; rotate_left; clear_value y) | clear_value y)
      | ((with_reducible apply Mod.sameBut_step (Mod.readDev_sameBut _ _ _ _)); decide)
      | ((with_reducible apply Mod.sameBut_step (Mod.fault_sameBut _ _)); decide)
      | split
      | dsimp only

theorem Mod.residRead_sameBut (m : Mod) (a1 : CollOp) (a2 : Nat) (a3 : Nat) (a4 : Ecc) : Mod.sameBut [.regs, .evIn, .cores, .step, .mem, .dbg] m (Mod.residRead m a1 a2 a3 a4).1 := by
  unfold Mod.residRead
  repeat'
    first
      | with_reducible exact Mod.sameBut_refl _ _
      | with_reducible assumption
      | (extract_lets +onlyGivenNames y; first | (refine Mod.sameBut_cut y (fun hy => ?_) ?_; rotate_left; subst y; rotate_left; clear_value y) | (refine Mod.sameBut_cut_fst y (fun hy => ?_) ?_; rotate_left; subst y; rotate_left; clear_value y) | clear_value y)
      | ((with_reducible apply Mod.sameBut_step (Mod.unitRead_sameBut _ _ _ _ _)); decide)
      | ((with_reducible apply Mod.sameBut_step (Mod.yard_sameBut _ _ _ _ _)); decide)
      | split
      | dsimp only

theorem Mod.accumSlice_sameBut (m : Mod) (a1 : CollOp) (a2 : Nat) (a3 : Ecc) (a4 : Nat) : Mod.sameBut [.regs, .evIn, .sched, .cores, .step, .mem, .dbg] m (Mod.accumSlice m a1 a2 a3 a4) := by
  unfold Mod.accumSlice
  repeat'
    first
      | with_reducible exact Mod.sameBut_refl _ _
      | with_reducible assumption
      | (extract_lets +onlyGivenNames y; first | (refine Mod.sameBut_cut y (fun hy => ?_) ?_; rotate_left; subst y; rotate_left; clear_value y) | (refine Mod.sameBut_cut_fst y (fun hy => ?_) ?_; rotate_left; subst y; rotate_left; clear_value y) | clear_value y)
      | ((with_reducible apply Mod.sameBut_step (Mod.sliceRead_sameBut _ _ _ _)); decide)
      | ((with_reducible apply Mod.sameBut_step (Mod.residRead_sameBut _ _ _ _ _)); decide)
      | ((with_reducible apply Mod.sameBut_step (Mod.residWrite_sameBut _ _ _ _ _ _)); decide)
      | ((with_reducible apply Mod.sameBut_step (Mod.redFlags_sameBut _ _ _)); decide)
      | split
      | dsimp only

theorem Mod.emit_sameBut (m : Mod) (a1 : Out) : Mod.sameBut [.host] m (Mod.emit m a1) := by
  unfold Mod.emit
  repeat'
    first
      | with_reducible exact Mod.sameBut_refl _ _
      | with_reducible assumption
      | (extract_lets +onlyGivenNames y; first | (refine Mod.sameBut_cut y (fun hy => ?_) ?_; rotate_left; subst y; rotate_left; clear_value y) | (refine Mod.sameBut_cut_fst y (fun hy => ?_) ?_; rotate_left; subst y; rotate_left; clear_value y) | clear_value y)
      | split
      | dsimp only
      | ((with_reducible apply Mod.sameBut_mk); rotate_left; all_goals (try (intro hp; first | exact (hp (by decide)).elim | rfl)))

theorem Mod.msix_sameBut (m : Mod) (a1 : Nat) : Mod.sameBut [.host] m (Mod.msix m a1) := by
  unfold Mod.msix
  repeat'
    first
      | with_reducible exact Mod.sameBut_refl _ _
      | with_reducible assumption
      | (extract_lets +onlyGivenNames y; first | (refine Mod.sameBut_cut y (fun hy => ?_) ?_; rotate_left; subst y; rotate_left; clear_value y) | (refine Mod.sameBut_cut_fst y (fun hy => ?_) ?_; rotate_left; subst y; rotate_left; clear_value y) | clear_value y)
      | ((with_reducible apply Mod.sameBut_step (Mod.emit_sameBut _ _)); decide)
      | split
      | dsimp only
      | ((with_reducible apply Mod.sameBut_mk); rotate_left; all_goals (try (intro hp; first | exact (hp (by decide)).elim | rfl)))

theorem Mod.actRefused_sameBut (m : Mod) (a1 : Nat) (a2 : Nat) (a3 : Nat) : Mod.sameBut [.regs, .evIn, .host] m (Mod.actRefused m a1 a2 a3) := by
  unfold Mod.actRefused
  repeat'
    first
      | with_reducible exact Mod.sameBut_refl _ _
      | with_reducible assumption
      | (extract_lets +onlyGivenNames y; first | (refine Mod.sameBut_cut y (fun hy => ?_) ?_; rotate_left; subst y; rotate_left; clear_value y) | (refine Mod.sameBut_cut_fst y (fun hy => ?_) ?_; rotate_left; subst y; rotate_left; clear_value y) | clear_value y)
      | ((with_reducible apply Mod.sameBut_step (Mod.msix_sameBut _ _)); decide)
      | ((with_reducible apply Mod.sameBut_step (Mod.raise_sameBut _ _ _ _ _ _ _)); decide)
      | ((with_reducible apply Mod.sameBut_step (Mod.fset_sameBut _ _ _ _ _)); decide)
      | split
      | dsimp only

theorem Mod.cancelPending_sameBut (m : Mod) : Mod.sameBut [.regs, .evIn, .host, .plt] m (Mod.cancelPending m) := by
  unfold Mod.cancelPending
  repeat'
    first
      | with_reducible exact Mod.sameBut_refl _ _
      | with_reducible assumption
      | (extract_lets +onlyGivenNames y; first | (refine Mod.sameBut_cut y (fun hy => ?_) ?_; rotate_left; subst y; rotate_left; clear_value y) | (refine Mod.sameBut_cut_fst y (fun hy => ?_) ?_; rotate_left; subst y; rotate_left; clear_value y) | clear_value y)
      | ((with_reducible apply Mod.sameBut_step (Mod.actRefused_sameBut _ _ _ _)); decide)
      | split
      | dsimp only
      | ((with_reducible apply Mod.sameBut_mk); rotate_left; all_goals (try (intro hp; first | exact (hp (by decide)).elim | rfl)))

theorem Mod.actCmd_sameBut (m : Mod) (a1 : Nat) (a2 : Nat) : Mod.sameBut [.regs, .evIn, .host, .plt] m (Mod.actCmd m a1 a2) := by
  unfold Mod.actCmd
  repeat'
    first
      | with_reducible exact Mod.sameBut_refl _ _
      | with_reducible assumption
      | (extract_lets +onlyGivenNames y; first | (refine Mod.sameBut_cut y (fun hy => ?_) ?_; rotate_left; subst y; rotate_left; clear_value y) | (refine Mod.sameBut_cut_fst y (fun hy => ?_) ?_; rotate_left; subst y; rotate_left; clear_value y) | clear_value y)
      | ((with_reducible apply Mod.sameBut_step (Mod.actRefused_sameBut _ _ _ _)); decide)
      | ((with_reducible apply Mod.sameBut_step (Mod.cancelPending_sameBut _)); decide)
      | split
      | dsimp only
      | ((with_reducible apply Mod.sameBut_mk); rotate_left; all_goals (try (intro hp; first | exact (hp (by decide)).elim | rfl)))

theorem Mod.setCtx_sameBut (m : Mod) (a1 : Nat) (a2 : CtxRun) : Mod.sameBut [.stm] m (Mod.setCtx m a1 a2) := by
  unfold Mod.setCtx
  repeat'
    first
      | with_reducible exact Mod.sameBut_refl _ _
      | with_reducible assumption
      | (extract_lets +onlyGivenNames y; first | (refine Mod.sameBut_cut y (fun hy => ?_) ?_; rotate_left; subst y; rotate_left; clear_value y) | (refine Mod.sameBut_cut_fst y (fun hy => ?_) ?_; rotate_left; subst y; rotate_left; clear_value y) | clear_value y)
      | split
      | dsimp only
      | ((with_reducible apply Mod.sameBut_mk); rotate_left; all_goals (try (intro hp; first | exact (hp (by decide)).elim | rfl)))

theorem Mod.gateOne_sameBut (m : Mod) (a1 : StreamDesc) : Mod.sameBut [.stm] m (Mod.gateOne m a1) := by
  unfold Mod.gateOne
  repeat'
    first
      | with_reducible exact Mod.sameBut_refl _ _
      | with_reducible assumption
      | (extract_lets +onlyGivenNames y; first | (refine Mod.sameBut_cut y (fun hy => ?_) ?_; rotate_left; subst y; rotate_left; clear_value y) | (refine Mod.sameBut_cut_fst y (fun hy => ?_) ?_; rotate_left; subst y; rotate_left; clear_value y) | clear_value y)
      | ((with_reducible apply Mod.sameBut_step (Mod.setCtx_sameBut _ _ _)); decide)
      | split
      | dsimp only

theorem Mod.gates_sameBut (m : Mod) : Mod.sameBut [.stm] m (Mod.gates m) := by
  unfold Mod.gates
  repeat'
    first
      | with_reducible exact Mod.sameBut_refl _ _
      | with_reducible assumption
      | (extract_lets +onlyGivenNames y; first | (refine Mod.sameBut_cut y (fun hy => ?_) ?_; rotate_left; subst y; rotate_left; clear_value y) | (refine Mod.sameBut_cut_fst y (fun hy => ?_) ?_; rotate_left; subst y; rotate_left; clear_value y) | clear_value y)
      | ((with_reducible apply Mod.sameBut_step (Mod.gateOne_sameBut _ _)); decide)
      | split
      | ((with_reducible apply Mod.sameBut_foldl); intro x e)
      | ((with_reducible apply Mod.sameBut_foldl_fst); intro x e)
      | dsimp only

theorem Mod.gatesAll_sameBut (m : Mod) : Mod.sameBut [.stm] m (Mod.gatesAll m) := by
  unfold Mod.gatesAll
  repeat'
    first
      | with_reducible exact Mod.sameBut_refl _ _
      | with_reducible assumption
      | (extract_lets +onlyGivenNames y; first | (refine Mod.sameBut_cut y (fun hy => ?_) ?_; rotate_left; subst y; rotate_left; clear_value y) | (refine Mod.sameBut_cut_fst y (fun hy => ?_) ?_; rotate_left; subst y; rotate_left; clear_value y) | clear_value y)
      | ((with_reducible apply Mod.sameBut_step (Mod.gates_sameBut _)); decide)
      | ((with_reducible apply Mod.sameBut_step (Mod.setCtx_sameBut _ _ _)); decide)
      | split
      | ((with_reducible apply Mod.sameBut_foldl); intro x e)
      | ((with_reducible apply Mod.sameBut_foldl_fst); intro x e)
      | dsimp only

theorem Mod.actionsEnd_sameBut (m : Mod) : Mod.sameBut [.step, .stm] m (Mod.actionsEnd m) := by
  unfold Mod.actionsEnd
  repeat'
    first
      | with_reducible exact Mod.sameBut_refl _ _
      | with_reducible assumption
      | (extract_lets +onlyGivenNames y; first | (refine Mod.sameBut_cut y (fun hy => ?_) ?_; rotate_left; subst y; rotate_left; clear_value y) | (refine Mod.sameBut_cut_fst y (fun hy => ?_) ?_; rotate_left; subst y; rotate_left; clear_value y) | clear_value y)
      | ((with_reducible apply Mod.sameBut_step (Mod.gatesAll_sameBut _)); decide)
      | split
      | dsimp only
      | ((with_reducible apply Mod.sameBut_mk); rotate_left; all_goals (try (intro hp; first | exact (hp (by decide)).elim | rfl)))

theorem Mod.setPort_sameBut (m : Mod) (a1 : Nat) (a2 : Port) : Mod.sameBut [.fab] m (Mod.setPort m a1 a2) := by
  unfold Mod.setPort
  repeat'
    first
      | with_reducible exact Mod.sameBut_refl _ _
      | with_reducible assumption
      | (extract_lets +onlyGivenNames y; first | (refine Mod.sameBut_cut y (fun hy => ?_) ?_; rotate_left; subst y; rotate_left; clear_value y) | (refine Mod.sameBut_cut_fst y (fun hy => ?_) ?_; rotate_left; subst y; rotate_left; clear_value y) | clear_value y)
      | split
      | dsimp only
      | ((with_reducible apply Mod.sameBut_mk); rotate_left; all_goals (try (intro hp; first | exact (hp (by decide)).elim | rfl)))

theorem Mod.enqueue_sameBut (m : Mod) (a1 : Nat) (a2 : TFlit) : Mod.sameBut [.fab] m (Mod.enqueue m a1 a2) := by
  unfold Mod.enqueue
  repeat'
    first
      | with_reducible exact Mod.sameBut_refl _ _
      | with_reducible assumption
      | (extract_lets +onlyGivenNames y; first | (refine Mod.sameBut_cut y (fun hy => ?_) ?_; rotate_left; subst y; rotate_left; clear_value y) | (refine Mod.sameBut_cut_fst y (fun hy => ?_) ?_; rotate_left; subst y; rotate_left; clear_value y) | clear_value y)
      | ((with_reducible apply Mod.sameBut_step (Mod.setPort_sameBut _ _ _)); decide)
      | split
      | dsimp only

theorem Mod.place_sameBut (m : Mod) (a1 : Option Nat) (a2 : TFlit) : Mod.sameBut [.regs, .evIn, .fab] m (Mod.place m a1 a2) := by
  unfold Mod.place
  repeat'
    first
      | with_reducible exact Mod.sameBut_refl _ _
      | with_reducible assumption
      | (extract_lets +onlyGivenNames y; first | (refine Mod.sameBut_cut y (fun hy => ?_) ?_; rotate_left; subst y; rotate_left; clear_value y) | (refine Mod.sameBut_cut_fst y (fun hy => ?_) ?_; rotate_left; subst y; rotate_left; clear_value y) | clear_value y)
      | ((with_reducible apply Mod.sameBut_step (Mod.enqueue_sameBut _ _ _)); decide)
      | ((with_reducible apply Mod.sameBut_step (Mod.fsat_sameBut _ _ _ _ _)); decide)
      | ((with_reducible apply Mod.sameBut_step (Mod.raise_sameBut _ _ _ _ _ _ _)); decide)
      | split
      | dsimp only
      | ((with_reducible apply Mod.sameBut_mk); rotate_left; all_goals (try (intro hp; first | exact (hp (by decide)).elim | rfl)))

theorem Mod.reroute_sameBut (m : Mod) (a1 : List TFlit) : Mod.sameBut [.regs, .evIn, .fab] m (Mod.reroute m a1) := by
  unfold Mod.reroute
  repeat'
    first
      | with_reducible exact Mod.sameBut_refl _ _
      | with_reducible assumption
      | (extract_lets +onlyGivenNames y; first | (refine Mod.sameBut_cut y (fun hy => ?_) ?_; rotate_left; subst y; rotate_left; clear_value y) | (refine Mod.sameBut_cut_fst y (fun hy => ?_) ?_; rotate_left; subst y; rotate_left; clear_value y) | clear_value y)
      | ((with_reducible apply Mod.sameBut_step (Mod.place_sameBut _ _ _)); decide)
      | split
      | ((with_reducible apply Mod.sameBut_foldl); intro x e)
      | ((with_reducible apply Mod.sameBut_foldl_fst); intro x e)
      | dsimp only

theorem Mod.portTo_sameBut (m : Mod) (a1 : Nat) (a2 : PortState) (a3 : Nat) : Mod.sameBut [.regs, .evIn, .fab, .dbg] m (Mod.portTo m a1 a2 a3) := by
  unfold Mod.portTo
  repeat'
    first
      | with_reducible exact Mod.sameBut_refl _ _
      | with_reducible assumption
      | (extract_lets +onlyGivenNames y; first | (refine Mod.sameBut_cut y (fun hy => ?_) ?_; rotate_left; subst y; rotate_left; clear_value y) | (refine Mod.sameBut_cut_fst y (fun hy => ?_) ?_; rotate_left; subst y; rotate_left; clear_value y) | clear_value y)
      | ((with_reducible apply Mod.sameBut_step (Mod.fset_sameBut _ _ _ _ _)); decide)
      | ((with_reducible apply Mod.sameBut_step (Mod.setPort_sameBut _ _ _)); decide)
      | ((with_reducible apply Mod.sameBut_step (Mod.raise_sameBut _ _ _ _ _ _ _)); decide)
      | ((with_reducible apply Mod.sameBut_step (Mod.reroute_sameBut _ _)); decide)
      | ((with_reducible apply Mod.sameBut_step (Mod.trace_sameBut _ _ _ _ _ _ _)); decide)
      | split
      | dsimp only

theorem Mod.portsActivate_sameBut (m : Mod) (a1 : Option RouteTab) : Mod.sameBut [.regs, .evIn, .fab, .dbg] m (Mod.portsActivate m a1) := by
  unfold Mod.portsActivate
  repeat'
    first
      | with_reducible exact Mod.sameBut_refl _ _
      | with_reducible assumption
      | (extract_lets +onlyGivenNames y; first | (refine Mod.sameBut_cut y (fun hy => ?_) ?_; rotate_left; subst y; rotate_left; clear_value y) | (refine Mod.sameBut_cut_fst y (fun hy => ?_) ?_; rotate_left; subst y; rotate_left; clear_value y) | clear_value y)
      | ((with_reducible apply Mod.sameBut_step (Mod.trace_sameBut _ _ _ _ _ _ _)); decide)
      | ((with_reducible apply Mod.sameBut_step (Mod.setPort_sameBut _ _ _)); decide)
      | ((with_reducible apply Mod.sameBut_step (Mod.portTo_sameBut _ _ _ _)); decide)
      | split
      | ((with_reducible apply Mod.sameBut_foldl); intro x e)
      | ((with_reducible apply Mod.sameBut_foldl_fst); intro x e)
      | dsimp only

theorem Mod.initWatch_sameBut (m : Mod) (a1 : Plate) : Mod.sameBut [.mem] m (Mod.initWatch m a1) := by
  unfold Mod.initWatch
  repeat'
    first
      | with_reducible exact Mod.sameBut_refl _ _
      | with_reducible assumption
      | (extract_lets +onlyGivenNames y; first | (refine Mod.sameBut_cut y (fun hy => ?_) ?_; rotate_left; subst y; rotate_left; clear_value y) | (refine Mod.sameBut_cut_fst y (fun hy => ?_) ?_; rotate_left; subst y; rotate_left; clear_value y) | clear_value y)
      | ((with_reducible apply Mod.sameBut_step (Mod.devWrite_sameBut _ _ _)); decide)
      | split
      | ((with_reducible apply Mod.sameBut_foldl); intro x e)
      | ((with_reducible apply Mod.sameBut_foldl_fst); intro x e)
      | dsimp only

theorem Mod.setBase_sameBut (m : Mod) (a1 : Fld) (a2 : Fld) (a3 : Nat) : Mod.sameBut [.regs] m (Mod.setBase m a1 a2 a3) := by
  unfold Mod.setBase
  repeat'
    first
      | with_reducible exact Mod.sameBut_refl _ _
      | with_reducible assumption
      | (extract_lets +onlyGivenNames y; first | (refine Mod.sameBut_cut y (fun hy => ?_) ?_; rotate_left; subst y; rotate_left; clear_value y) | (refine Mod.sameBut_cut_fst y (fun hy => ?_) ?_; rotate_left; subst y; rotate_left; clear_value y) | clear_value y)
      | ((with_reducible apply Mod.sameBut_step (Mod.set64_sameBut _ _ _ _ _)); decide)
      | split
      | dsimp only

theorem Mod.snoopAbandonAll_sameBut (m : Mod) : Mod.sameBut [.chk] m (Mod.snoopAbandonAll m) := by
  unfold Mod.snoopAbandonAll
  repeat'
    first
      | with_reducible exact Mod.sameBut_refl _ _
      | with_reducible assumption
      | (extract_lets +onlyGivenNames y; first | (refine Mod.sameBut_cut y (fun hy => ?_) ?_; rotate_left; subst y; rotate_left; clear_value y) | (refine Mod.sameBut_cut_fst y (fun hy => ?_) ?_; rotate_left; subst y; rotate_left; clear_value y) | clear_value y)
      | split
      | dsimp only
      | ((with_reducible apply Mod.sameBut_mk); rotate_left; all_goals (try (intro hp; first | exact (hp (by decide)).elim | rfl)))

theorem Mod.startPlate_sameBut (m : Mod) (a1 : Plate) : Mod.sameBut [.regs, .sched, .cores, .step, .mem, .pool, .pad, .stm, .groom, .coll, .chk, .fab] m (Mod.startPlate m a1) := by
  unfold Mod.startPlate
  repeat'
    first
      | with_reducible exact Mod.sameBut_refl _ _
      | with_reducible assumption
      | (extract_lets +onlyGivenNames y; first | (refine Mod.sameBut_cut y (fun hy => ?_) ?_; rotate_left; subst y; rotate_left; clear_value y) | (refine Mod.sameBut_cut_fst y (fun hy => ?_) ?_; rotate_left; subst y; rotate_left; clear_value y) | clear_value y)
      | ((with_reducible apply Mod.sameBut_step (Mod.fset_sameBut _ _ _ _ _)); decide)
      | ((with_reducible apply Mod.sameBut_step (Mod.setBase_sameBut _ _ _ _)); decide)
      | ((with_reducible apply Mod.sameBut_step (Mod.initWatch_sameBut _ _)); decide)
      | ((with_reducible apply Mod.sameBut_step (Mod.snoopAbandonAll_sameBut _)); decide)
      | split
      | ((with_reducible apply Mod.sameBut_foldl); intro x e)
      | ((with_reducible apply Mod.sameBut_foldl_fst); intro x e)
      | dsimp only
      | ((with_reducible apply Mod.sameBut_mk); rotate_left; all_goals (try (intro hp; first | exact (hp (by decide)).elim | rfl)))

theorem Mod.setMeas_sameBut (m : Mod) (a1 : Nat) (a2 : List Byte) : Mod.sameBut [.regs] m (Mod.setMeas m a1 a2) := by
  unfold Mod.setMeas
  repeat'
    first
      | with_reducible exact Mod.sameBut_refl _ _
      | with_reducible assumption
      | (extract_lets +onlyGivenNames y; first | (refine Mod.sameBut_cut y (fun hy => ?_) ?_; rotate_left; subst y; rotate_left; clear_value y) | (refine Mod.sameBut_cut_fst y (fun hy => ?_) ?_; rotate_left; subst y; rotate_left; clear_value y) | clear_value y)
      | ((with_reducible apply Mod.sameBut_step (Mod.fset_sameBut _ _ _ _ _)); decide)
      | split
      | ((with_reducible apply Mod.sameBut_foldl); intro x e)
      | ((with_reducible apply Mod.sameBut_foldl_fst); intro x e)
      | dsimp only

theorem Mod.extend_sameBut (m : Mod) (a1 : Nat) (a2 : Nat) (a3 : List Byte) : Mod.sameBut [.regs, .sec] m (Mod.extend m a1 a2 a3) := by
  unfold Mod.extend
  repeat'
    first
      | with_reducible exact Mod.sameBut_refl _ _
      | with_reducible assumption
      | (extract_lets +onlyGivenNames y; first | (refine Mod.sameBut_cut y (fun hy => ?_) ?_; rotate_left; subst y; rotate_left; clear_value y) | (refine Mod.sameBut_cut_fst y (fun hy => ?_) ?_; rotate_left; subst y; rotate_left; clear_value y) | clear_value y)
      | ((with_reducible apply Mod.sameBut_step (Mod.setMeas_sameBut _ _ _)); decide)
      | split
      | dsimp only
      | ((with_reducible apply Mod.sameBut_mk); rotate_left; all_goals (try (intro hp; first | exact (hp (by decide)).elim | rfl)))

theorem Mod.upstreamOffset_sameBut (m : Mod) (a1 : Nat) (a2 : Int) : Mod.sameBut [.regs, .evIn, .tick] m (Mod.upstreamOffset m a1 a2) := by
  unfold Mod.upstreamOffset
  repeat'
    first
      | with_reducible exact Mod.sameBut_refl _ _
      | with_reducible assumption
      | (extract_lets +onlyGivenNames y; first | (refine Mod.sameBut_cut y (fun hy => ?_) ?_; rotate_left; subst y; rotate_left; clear_value y) | (refine Mod.sameBut_cut_fst y (fun hy => ?_) ?_; rotate_left; subst y; rotate_left; clear_value y) | clear_value y)
      | ((with_reducible apply Mod.sameBut_step (Mod.raise_sameBut _ _ _ _ _ _ _)); decide)
      | ((with_reducible apply Mod.sameBut_step (Mod.fset_sameBut _ _ _ _ _)); decide)
      | split
      | dsimp only
      | ((with_reducible apply Mod.sameBut_mk); rotate_left; all_goals (try (intro hp; first | exact (hp (by decide)).elim | rfl)))

theorem Mod.moveUpstream_sameBut (m : Mod) (a1 : Nat) : Mod.sameBut [.regs, .evIn, .tick] m (Mod.moveUpstream m a1) := by
  unfold Mod.moveUpstream
  repeat'
    first
      | with_reducible exact Mod.sameBut_refl _ _
      | with_reducible assumption
      | (extract_lets +onlyGivenNames y; first | (refine Mod.sameBut_cut y (fun hy => ?_) ?_; rotate_left; subst y; rotate_left; clear_value y) | (refine Mod.sameBut_cut_fst y (fun hy => ?_) ?_; rotate_left; subst y; rotate_left; clear_value y) | clear_value y)
      | ((with_reducible apply Mod.sameBut_step (Mod.upstreamOffset_sameBut _ _ _)); decide)
      | split
      | dsimp only
      | ((with_reducible apply Mod.sameBut_mk); rotate_left; all_goals (try (intro hp; first | exact (hp (by decide)).elim | rfl)))

theorem Mod.takeSource_sameBut (m : Mod) (a1 : Nat) : Mod.sameBut [.regs, .evIn, .tick] m (Mod.takeSource m a1) := by
  unfold Mod.takeSource
  repeat'
    first
      | with_reducible exact Mod.sameBut_refl _ _
      | with_reducible assumption
      | (extract_lets +onlyGivenNames y; first | (refine Mod.sameBut_cut y (fun hy => ?_) ?_; rotate_left; subst y; rotate_left; clear_value y) | (refine Mod.sameBut_cut_fst y (fun hy => ?_) ?_; rotate_left; subst y; rotate_left; clear_value y) | clear_value y)
      | ((with_reducible apply Mod.sameBut_step (Mod.moveUpstream_sameBut _ _)); decide)
      | split
      | dsimp only
      | ((with_reducible apply Mod.sameBut_mk); rotate_left; all_goals (try (intro hp; first | exact (hp (by decide)).elim | rfl)))

theorem Mod.loadUpstream_sameBut (m : Mod) (a1 : Nat) : Mod.sameBut [.regs] m (Mod.loadUpstream m a1) := by
  unfold Mod.loadUpstream
  repeat'
    first
      | with_reducible exact Mod.sameBut_refl _ _
      | with_reducible assumption
      | (extract_lets +onlyGivenNames y; first | (refine Mod.sameBut_cut y (fun hy => ?_) ?_; rotate_left; subst y; rotate_left; clear_value y) | (refine Mod.sameBut_cut_fst y (fun hy => ?_) ?_; rotate_left; subst y; rotate_left; clear_value y) | clear_value y)
      | split
      | dsimp only
      | ((with_reducible apply Mod.sameBut_mk); rotate_left; all_goals (try (intro hp; first | exact (hp (by decide)).elim | rfl)))

theorem Mod.takeTickTree_sameBut (m : Mod) (a1 : Option Nat) (a2 : Nat) : Mod.sameBut [.regs, .evIn, .tick] m (Mod.takeTickTree m a1 a2) := by
  unfold Mod.takeTickTree
  repeat'
    first
      | with_reducible exact Mod.sameBut_refl _ _
      | with_reducible assumption
      | (extract_lets +onlyGivenNames y; first | (refine Mod.sameBut_cut y (fun hy => ?_) ?_; rotate_left; subst y; rotate_left; clear_value y) | (refine Mod.sameBut_cut_fst y (fun hy => ?_) ?_; rotate_left; subst y; rotate_left; clear_value y) | clear_value y)
      | ((with_reducible apply Mod.sameBut_step (Mod.loadUpstream_sameBut _ _)); decide)
      | ((with_reducible apply Mod.sameBut_step (Mod.takeSource_sameBut _ _)); decide)
      | ((with_reducible apply Mod.sameBut_step (Mod.fset_sameBut _ _ _ _ _)); decide)
      | split
      | dsimp only

theorem Mod.activateFull_sameBut (m : Mod) (a1 : Nat) (a2 : Plate) : Mod.sameBut [.regs, .evIn, .host, .tick, .plt, .sched, .cores, .step, .mem, .pool, .pad, .stm, .groom, .coll, .chk, .fab, .sec, .dbg] m (Mod.activateFull m a1 a2) := by
  unfold Mod.activateFull
  repeat'
    first
      | with_reducible exact Mod.sameBut_refl _ _
      | with_reducible assumption
      | (extract_lets +onlyGivenNames y; first | (refine Mod.sameBut_cut y (fun hy => ?_) ?_; rotate_left; subst y; rotate_left; clear_value y) | (refine Mod.sameBut_cut_fst y (fun hy => ?_) ?_; rotate_left; subst y; rotate_left; clear_value y) | clear_value y)
      | ((with_reducible apply Mod.sameBut_step (Mod.fset_sameBut _ _ _ _ _)); decide)
      | ((with_reducible apply Mod.sameBut_step (Mod.takeTickTree_sameBut _ _ _)); decide)
      | ((with_reducible apply Mod.sameBut_step (Mod.startPlate_sameBut _ _)); decide)
      | ((with_reducible apply Mod.sameBut_step (Mod.extend_sameBut _ _ _ _)); decide)
      | ((with_reducible apply Mod.sameBut_step (Mod.portsActivate_sameBut _ _)); decide)
      | ((with_reducible apply Mod.sameBut_step (Mod.msix_sameBut _ _)); decide)
      | ((with_reducible apply Mod.sameBut_step (Mod.set64_sameBut _ _ _ _ _)); decide)
      | split
      | dsimp only
      | ((with_reducible apply Mod.sameBut_mk); rotate_left; all_goals (try (intro hp; first | exact (hp (by decide)).elim | rfl)))

theorem Mod.hbmTo_sameBut (m : Mod) (a1 : Nat) (a2 : Nat) : Mod.sameBut [.regs] m (Mod.hbmTo m a1 a2) := by
  unfold Mod.hbmTo
  repeat'
    first
      | with_reducible exact Mod.sameBut_refl _ _
      | with_reducible assumption
      | (extract_lets +onlyGivenNames y; first | (refine Mod.sameBut_cut y (fun hy => ?_) ?_; rotate_left; subst y; rotate_left; clear_value y) | (refine Mod.sameBut_cut_fst y (fun hy => ?_) ?_; rotate_left; subst y; rotate_left; clear_value y) | clear_value y)
      | ((with_reducible apply Mod.sameBut_step (Mod.fset_sameBut _ _ _ _ _)); decide)
      | split
      | ((with_reducible apply Mod.sameBut_foldl); intro x e)
      | ((with_reducible apply Mod.sameBut_foldl_fst); intro x e)
      | dsimp only

theorem Mod.parkExit_sameBut (m : Mod) : Mod.sameBut [.regs, .pwr] m (Mod.parkExit m) := by
  unfold Mod.parkExit
  repeat'
    first
      | with_reducible exact Mod.sameBut_refl _ _
      | with_reducible assumption
      | (extract_lets +onlyGivenNames y; first | (refine Mod.sameBut_cut y (fun hy => ?_) ?_; rotate_left; subst y; rotate_left; clear_value y) | (refine Mod.sameBut_cut_fst y (fun hy => ?_) ?_; rotate_left; subst y; rotate_left; clear_value y) | clear_value y)
      | ((with_reducible apply Mod.sameBut_step (Mod.hbmTo_sameBut _ _ _)); decide)
      | split
      | dsimp only
      | ((with_reducible apply Mod.sameBut_mk); rotate_left; all_goals (try (intro hp; first | exact (hp (by decide)).elim | rfl)))

theorem Mod.activeRequest_sameBut (m : Mod) : Mod.sameBut [.regs, .evIn, .pwr] m (Mod.activeRequest m) := by
  unfold Mod.activeRequest
  repeat'
    first
      | with_reducible exact Mod.sameBut_refl _ _
      | with_reducible assumption
      | (extract_lets +onlyGivenNames y; first | (refine Mod.sameBut_cut y (fun hy => ?_) ?_; rotate_left; subst y; rotate_left; clear_value y) | (refine Mod.sameBut_cut_fst y (fun hy => ?_) ?_; rotate_left; subst y; rotate_left; clear_value y) | clear_value y)
      | ((with_reducible apply Mod.sameBut_step (Mod.raise_sameBut _ _ _ _ _ _ _)); decide)
      | ((with_reducible apply Mod.sameBut_step (Mod.fset_sameBut _ _ _ _ _)); decide)
      | ((with_reducible apply Mod.sameBut_step (Mod.parkExit_sameBut _)); decide)
      | split
      | dsimp only

theorem Mod.setGroom_sameBut (m : Mod) (a1 : Nat) (a2 : GroomRun) : Mod.sameBut [.groom] m (Mod.setGroom m a1 a2) := by
  unfold Mod.setGroom
  repeat'
    first
      | with_reducible exact Mod.sameBut_refl _ _
      | with_reducible assumption
      | (extract_lets +onlyGivenNames y; first | (refine Mod.sameBut_cut y (fun hy => ?_) ?_; rotate_left; subst y; rotate_left; clear_value y) | (refine Mod.sameBut_cut_fst y (fun hy => ?_) ?_; rotate_left; subst y; rotate_left; clear_value y) | clear_value y)
      | split
      | dsimp only
      | ((with_reducible apply Mod.sameBut_mk); rotate_left; all_goals (try (intro hp; first | exact (hp (by decide)).elim | rfl)))

theorem Mod.setPass_sameBut (m : Mod) (a1 : Nat) (a2 : GPass) (a3 : Option Elem) : Mod.sameBut [.groom] m (Mod.setPass m a1 a2 a3) := by
  unfold Mod.setPass
  repeat'
    first
      | with_reducible exact Mod.sameBut_refl _ _
      | with_reducible assumption
      | (extract_lets +onlyGivenNames y; first | (refine Mod.sameBut_cut y (fun hy => ?_) ?_; rotate_left; subst y; rotate_left; clear_value y) | (refine Mod.sameBut_cut_fst y (fun hy => ?_) ?_; rotate_left; subst y; rotate_left; clear_value y) | clear_value y)
      | ((with_reducible apply Mod.sameBut_step (Mod.setGroom_sameBut _ _ _)); decide)
      | split
      | dsimp only

theorem Mod.openRow_sameBut (m : Mod) (a1 : Nat) (a2 : Nat) (a3 : Binding) (a4 : Nat) : Mod.sameBut [.mem, .groom] m (Mod.openRow m a1 a2 a3 a4) := by
  unfold Mod.openRow
  repeat'
    first
      | with_reducible exact Mod.sameBut_refl _ _
      | with_reducible assumption
      | (extract_lets +onlyGivenNames y; first | (refine Mod.sameBut_cut y (fun hy => ?_) ?_; rotate_left; subst y; rotate_left; clear_value y) | (refine Mod.sameBut_cut_fst y (fun hy => ?_) ?_; rotate_left; subst y; rotate_left; clear_value y) | clear_value y)
      | ((with_reducible apply Mod.sameBut_step (Mod.devWriteP_sameBut _ _ _)); decide)
      | ((with_reducible apply Mod.sameBut_step (Mod.setGroom_sameBut _ _ _)); decide)
      | split
      | dsimp only

theorem Mod.openAt_sameBut (m : Mod) (a1 : Nat) (a2 : GPass) (a3 : Binding) (a4 : Nat) (a5 : Nat) : Mod.sameBut [.mem, .groom] m (Mod.openAt m a1 a2 a3 a4 a5) := by
  unfold Mod.openAt
  repeat'
    first
      | with_reducible exact Mod.sameBut_refl _ _
      | with_reducible assumption
      | (extract_lets +onlyGivenNames y; first | (refine Mod.sameBut_cut y (fun hy => ?_) ?_; rotate_left; subst y; rotate_left; clear_value y) | (refine Mod.sameBut_cut_fst y (fun hy => ?_) ?_; rotate_left; subst y; rotate_left; clear_value y) | clear_value y)
      | ((with_reducible apply Mod.sameBut_step (Mod.openRow_sameBut _ _ _ _ _)); decide)
      | split
      | dsimp only

theorem Mod.stateWrite_sameBut (m : Mod) (a1 : Nat) (a2 : Nat) (a3 : List (Prod Byte Bool)) : Mod.sameBut [.mem, .pool] m (Mod.stateWrite m a1 a2 a3) := by
  unfold Mod.stateWrite
  repeat'
    first
      | with_reducible exact Mod.sameBut_refl _ _
      | with_reducible assumption
      | (extract_lets +onlyGivenNames y; first | (refine Mod.sameBut_cut y (fun hy => ?_) ?_; rotate_left; subst y; rotate_left; clear_value y) | (refine Mod.sameBut_cut_fst y (fun hy => ?_) ?_; rotate_left; subst y; rotate_left; clear_value y) | clear_value y)
      | ((with_reducible apply Mod.sameBut_step (Mod.devWriteP_sameBut _ _ _)); decide)
      | split
      | ((with_reducible apply Mod.sameBut_foldl); intro x e)
      | ((with_reducible apply Mod.sameBut_foldl_fst); intro x e)
      | dsimp only
      | ((with_reducible apply Mod.sameBut_mk); rotate_left; all_goals (try (intro hp; first | exact (hp (by decide)).elim | rfl)))

theorem Mod.planePut_sameBut (m : Mod) (a1 : Nat) (a2 : StreamEntry) (a3 : Binding) (a4 : Nat) (a5 : Nat) (a6 : Bool) : Mod.sameBut [.mem, .pool] m (Mod.planePut m a1 a2 a3 a4 a5 a6) := by
  unfold Mod.planePut
  repeat'
    first
      | with_reducible exact Mod.sameBut_refl _ _
      | with_reducible assumption
      | (extract_lets +onlyGivenNames y; first | (refine Mod.sameBut_cut y (fun hy => ?_) ?_; rotate_left; subst y; rotate_left; clear_value y) | (refine Mod.sameBut_cut_fst y (fun hy => ?_) ?_; rotate_left; subst y; rotate_left; clear_value y) | clear_value y)
      | ((with_reducible apply Mod.sameBut_step (Mod.stateWrite_sameBut _ _ _ _)); decide)
      | split
      | dsimp only

theorem Mod.groomFlags_sameBut (m : Mod) (a1 : Nat) (a2 : Fl) : Mod.sameBut [.regs] m (Mod.groomFlags m a1 a2) := by
  unfold Mod.groomFlags
  repeat'
    first
      | with_reducible exact Mod.sameBut_refl _ _
      | with_reducible assumption
      | (extract_lets +onlyGivenNames y; first | (refine Mod.sameBut_cut y (fun hy => ?_) ?_; rotate_left; subst y; rotate_left; clear_value y) | (refine Mod.sameBut_cut_fst y (fun hy => ?_) ?_; rotate_left; subst y; rotate_left; clear_value y) | clear_value y)
      | ((with_reducible apply Mod.sameBut_step (Mod.fsat_sameBut _ _ _ _ _)); decide)
      | split
      | dsimp only
      | ((with_reducible apply Mod.sameBut_mk); rotate_left; all_goals (try (intro hp; first | exact (hp (by decide)).elim | rfl)))

theorem Mod.heldElem_sameBut (m : Mod) (a1 : Nat) (a2 : Binding) (a3 : PassEnv) (a4 : Nat) (a5 : Nat) (a6 : Bool) (a7 : GPass) : Mod.sameBut [.regs, .mem, .pool] m (Mod.heldElem m a1 a2 a3 a4 a5 a6 a7).1 := by
  unfold Mod.heldElem
  repeat'
    first
      | with_reducible exact Mod.sameBut_refl _ _
      | with_reducible assumption
      | (extract_lets +onlyGivenNames y; first | (refine Mod.sameBut_cut y (fun hy => ?_) ?_; rotate_left; subst y; rotate_left; clear_value y) | (refine Mod.sameBut_cut_fst y (fun hy => ?_) ?_; rotate_left; subst y; rotate_left; clear_value y) | clear_value y)
      | ((with_reducible apply Mod.sameBut_step (Mod.planePut_sameBut _ _ _ _ _ _ _)); decide)
      | ((with_reducible apply Mod.sameBut_step (Mod.groomFlags_sameBut _ _ _)); decide)
      | split
      | ((with_reducible apply Mod.sameBut_foldl); intro x e)
      | ((with_reducible apply Mod.sameBut_foldl_fst); intro x e)
      | dsimp only

theorem Mod.openRuns_sameBut (m : Mod) (a1 : List (Prod Nat Nat)) : Mod.sameBut [.mem] m (Mod.openRuns m a1) := by
  unfold Mod.openRuns
  repeat'
    first
      | with_reducible exact Mod.sameBut_refl _ _
      | with_reducible assumption
      | (extract_lets +onlyGivenNames y; first | (refine Mod.sameBut_cut y (fun hy => ?_) ?_; rotate_left; subst y; rotate_left; clear_value y) | (refine Mod.sameBut_cut_fst y (fun hy => ?_) ?_; rotate_left; subst y; rotate_left; clear_value y) | clear_value y)
      | ((with_reducible apply Mod.sameBut_step (Mod.unmarkLoc_sameBut _ _)); decide)
      | split
      | ((with_reducible apply Mod.sameBut_foldl); intro x e)
      | ((with_reducible apply Mod.sameBut_foldl_fst); intro x e)
      | dsimp only

theorem Mod.sliceOpen_sameBut (m : Mod) (a1 : GPass) (a2 : Binding) (a3 : SliceEnt) (a4 : GSlice) : Mod.sameBut [.mem] m (Mod.sliceOpen m a1 a2 a3 a4) := by
  unfold Mod.sliceOpen
  repeat'
    first
      | with_reducible exact Mod.sameBut_refl _ _
      | with_reducible assumption
      | (extract_lets +onlyGivenNames y; first | (refine Mod.sameBut_cut y (fun hy => ?_) ?_; rotate_left; subst y; rotate_left; clear_value y) | (refine Mod.sameBut_cut_fst y (fun hy => ?_) ?_; rotate_left; subst y; rotate_left; clear_value y) | clear_value y)
      | ((with_reducible apply Mod.sameBut_step (Mod.openRuns_sameBut _ _)); decide)
      | split
      | dsimp only

theorem Mod.passHeld_sameBut (a0 : Nat) (a1 : Binding) (a2 : SliceEnt) (a3 : GSlice) (a4 : PassEnv) (a5 : Nat) (m : Mod) (a7 : GPass) : Mod.sameBut [.regs, .mem, .pool, .groom] m (Mod.passHeld a0 a1 a2 a3 a4 a5 m a7).1 := by
  induction a5 generalizing m a7 with
  | zero => exact Mod.sameBut_refl _ _
  | succ k ih =>
    unfold Mod.passHeld
    extract_lets i q y
    clear_value q
    split
    · refine Mod.sameBut_trans ?_ (ih _ _)
      exact Mod.sameBut_step (Mod.heldElem_sameBut _ _ _ _ _ _ _ _) (by decide) (Mod.sameBut_step (Mod.openAt_sameBut _ _ _ _ _ _) (by decide)
        (Mod.sameBut_step (Mod.sliceOpen_sameBut _ _ _ _ _) (by decide) (Mod.sameBut_refl _ _)))
    · exact Mod.sameBut_refl _ _

theorem Mod.sliceTaken_sameBut (m : Mod) (a1 : Nat) (a2 : GPass) (a3 : GSlice) : Mod.sameBut [.groom] m (Mod.sliceTaken m a1 a2 a3) := by
  unfold Mod.sliceTaken
  repeat'
    first
      | with_reducible exact Mod.sameBut_refl _ _
      | with_reducible assumption
      | (extract_lets +onlyGivenNames y; first | (refine Mod.sameBut_cut y (fun hy => ?_) ?_; rotate_left; subst y; rotate_left; clear_value y) | (refine Mod.sameBut_cut_fst y (fun hy => ?_) ?_; rotate_left; subst y; rotate_left; clear_value y) | clear_value y)
      | ((with_reducible apply Mod.sameBut_step (Mod.setGroom_sameBut _ _ _)); decide)
      | split
      | dsimp only

theorem Mod.passPoison_sameBut (m : Mod) (a1 : Bool) (a2 : Bool) : Mod.sameBut [.step] m (Mod.passPoison m a1 a2) := by
  unfold Mod.passPoison
  repeat'
    first
      | with_reducible exact Mod.sameBut_refl _ _
      | with_reducible assumption
      | (extract_lets +onlyGivenNames y; first | (refine Mod.sameBut_cut y (fun hy => ?_) ?_; rotate_left; subst y; rotate_left; clear_value y) | (refine Mod.sameBut_cut_fst y (fun hy => ?_) ?_; rotate_left; subst y; rotate_left; clear_value y) | clear_value y)
      | ((with_reducible apply Mod.sameBut_step (Mod.fault_sameBut _ _)); decide)
      | split
      | dsimp only

theorem Mod.afterElem_sameBut (m : Mod) (a1 : Nat) (a2 : Bool) (a3 : GPass) (a4 : Binding) (a5 : SliceEnt) (a6 : GSlice) : Mod.sameBut [.regs, .step, .mem, .pool, .groom] m (Mod.afterElem m a1 a2 a3 a4 a5 a6) := by
  unfold Mod.afterElem
  repeat'
    first
      | with_reducible exact Mod.sameBut_refl _ _
      | with_reducible assumption
      | (extract_lets +onlyGivenNames y; first | (refine Mod.sameBut_cut y (fun hy => ?_) ?_; rotate_left; subst y; rotate_left; clear_value y) | (refine Mod.sameBut_cut_fst y (fun hy => ?_) ?_; rotate_left; subst y; rotate_left; clear_value y) | clear_value y)
      | ((with_reducible apply Mod.sameBut_step (Mod.passHeld_sameBut _ _ _ _ _ _ _ _)); decide)
      | ((with_reducible apply Mod.sameBut_step (Mod.setPass_sameBut _ _ _ _)); decide)
      | ((with_reducible apply Mod.sameBut_step (Mod.passPoison_sameBut _ _ _)); decide)
      | ((with_reducible apply Mod.sameBut_step (Mod.sliceTaken_sameBut _ _ _ _)); decide)
      | split
      | dsimp only

theorem Mod.alignLost_sameBut (m : Mod) (a1 : Nat) (a2 : Nat) : Mod.sameBut [.regs, .evIn, .tick] m (Mod.alignLost m a1 a2) := by
  unfold Mod.alignLost
  repeat'
    first
      | with_reducible exact Mod.sameBut_refl _ _
      | with_reducible assumption
      | (extract_lets +onlyGivenNames y; first | (refine Mod.sameBut_cut y (fun hy => ?_) ?_; rotate_left; subst y; rotate_left; clear_value y) | (refine Mod.sameBut_cut_fst y (fun hy => ?_) ?_; rotate_left; subst y; rotate_left; clear_value y) | clear_value y)
      | ((with_reducible apply Mod.sameBut_step (Mod.raise_sameBut _ _ _ _ _ _ _)); decide)
      | ((with_reducible apply Mod.sameBut_step (Mod.fset_sameBut _ _ _ _ _)); decide)
      | split
      | dsimp only
      | ((with_reducible apply Mod.sameBut_mk); rotate_left; all_goals (try (intro hp; first | exact (hp (by decide)).elim | rfl)))

theorem Mod.placeColl_sameBut (m : Mod) (a1 : Nat) (a2 : TFlit) : Mod.sameBut [.regs, .evIn, .fab] m (Mod.placeColl m a1 a2) := by
  unfold Mod.placeColl
  repeat'
    first
      | with_reducible exact Mod.sameBut_refl _ _
      | with_reducible assumption
      | (extract_lets +onlyGivenNames y; first | (refine Mod.sameBut_cut y (fun hy => ?_) ?_; rotate_left; subst y; rotate_left; clear_value y) | (refine Mod.sameBut_cut_fst y (fun hy => ?_) ?_; rotate_left; subst y; rotate_left; clear_value y) | clear_value y)
      | ((with_reducible apply Mod.sameBut_step (Mod.place_sameBut _ _ _)); decide)
      | ((with_reducible apply Mod.sameBut_step (Mod.enqueue_sameBut _ _ _)); decide)
      | split
      | dsimp only

theorem Mod.launch_sameBut (m : Mod) (a1 : TFlit) : Mod.sameBut [.regs, .evIn, .fab] m (Mod.launch m a1) := by
  unfold Mod.launch
  repeat'
    first
      | with_reducible exact Mod.sameBut_refl _ _
      | with_reducible assumption
      | (extract_lets +onlyGivenNames y; first | (refine Mod.sameBut_cut y (fun hy => ?_) ?_; rotate_left; subst y; rotate_left; clear_value y) | (refine Mod.sameBut_cut_fst y (fun hy => ?_) ?_; rotate_left; subst y; rotate_left; clear_value y) | clear_value y)
      | ((with_reducible apply Mod.sameBut_step (Mod.placeColl_sameBut _ _ _)); decide)
      | ((with_reducible apply Mod.sameBut_step (Mod.place_sameBut _ _ _)); decide)
      | split
      | dsimp only

theorem Mod.originate_sameBut (m : Mod) (a1 : TFlit) : Mod.sameBut [.regs, .evIn, .fab] m (Mod.originate m a1) := by
  unfold Mod.originate
  repeat'
    first
      | with_reducible exact Mod.sameBut_refl _ _
      | with_reducible assumption
      | (extract_lets +onlyGivenNames y; first | (refine Mod.sameBut_cut y (fun hy => ?_) ?_; rotate_left; subst y; rotate_left; clear_value y) | (refine Mod.sameBut_cut_fst y (fun hy => ?_) ?_; rotate_left; subst y; rotate_left; clear_value y) | clear_value y)
      | ((with_reducible apply Mod.sameBut_step (Mod.launch_sameBut _ _)); decide)
      | split
      | dsimp only
      | ((with_reducible apply Mod.sameBut_mk); rotate_left; all_goals (try (intro hp; first | exact (hp (by decide)).elim | rfl)))

end Sys2Proof.Machine
end

