-- ==== Sys2Proof/Laws/Frames2.lean ====
section
/-! SUPPORT. What each operation of the module changes, part 2 of 6: `f_sameBut` names the parts of the module that operation `f` may
change (an operation that answers a module and something beside it: its first part). The operations stand before those that use them. -/

namespace Sys2Proof.Machine

theorem Mod.originateAll_sameBut (m : Mod) (a1 : List TFlit) : Mod.sameBut [.regs, .evIn, .fab] m (Mod.originateAll m a1) := by
  unfold Mod.originateAll
  repeat'
    first
      | with_reducible exact Mod.sameBut_refl _ _
      | with_reducible assumption
      | (extract_lets +onlyGivenNames y; first | (refine Mod.sameBut_cut y (fun hy => ?_) ?_; rotate_left; subst y; rotate_left; clear_value y) | (refine Mod.sameBut_cut_fst y (fun hy => ?_) ?_; rotate_left; subst y; rotate_left; clear_value y) | clear_value y)
      | ((with_reducible apply Mod.sameBut_step (Mod.originate_sameBut _ _)); decide)
      | split
      | ((with_reducible apply Mod.sameBut_foldl); intro x e)
      | ((with_reducible apply Mod.sameBut_foldl_fst); intro x e)
      | dsimp only

theorem Mod.sendXfer_sameBut (m : Mod) (a1 : Nat) (a2 : CollOp) (a3 : Nat) (a4 : Nat) (a5 : Nat) (a6 : Nat) (a7 : List (Prod Byte Bool)) : Mod.sameBut [.regs, .evIn, .fab] m (Mod.sendXfer m a1 a2 a3 a4 a5 a6 a7) := by
  unfold Mod.sendXfer
  repeat'
    first
      | with_reducible exact Mod.sameBut_refl _ _
      | with_reducible assumption
      | (extract_lets +onlyGivenNames y; first | (refine Mod.sameBut_cut y (fun hy => ?_) ?_; rotate_left; subst y; rotate_left; clear_value y) | (refine Mod.sameBut_cut_fst y (fun hy => ?_) ?_; rotate_left; subst y; rotate_left; clear_value y) | clear_value y)
      | ((with_reducible apply Mod.sameBut_step (Mod.originateAll_sameBut _ _)); decide)
      | split
      | dsimp only

theorem Mod.setOp_sameBut (m : Mod) (a1 : Nat) (a2 : OpRun) : Mod.sameBut [.coll] m (Mod.setOp m a1 a2) := by
  unfold Mod.setOp
  repeat'
    first
      | with_reducible exact Mod.sameBut_refl _ _
      | with_reducible assumption
      | (extract_lets +onlyGivenNames y; first | (refine Mod.sameBut_cut y (fun hy => ?_) ?_; rotate_left; subst y; rotate_left; clear_value y) | (refine Mod.sameBut_cut_fst y (fun hy => ?_) ?_; rotate_left; subst y; rotate_left; clear_value y) | clear_value y)
      | split
      | dsimp only
      | ((with_reducible apply Mod.sameBut_mk); rotate_left; all_goals (try (intro hp; first | exact (hp (by decide)).elim | rfl)))

theorem Mod.contribute_sameBut (m : Mod) (a1 : Nat) (a2 : CollOp) (a3 : Nat) (a4 : Nat) (a5 : Nat) (a6 : List (Prod Byte Bool)) (a7 : Contrib) : Mod.sameBut [.regs, .evIn, .coll, .fab] m (Mod.contribute m a1 a2 a3 a4 a5 a6 a7) := by
  unfold Mod.contribute
  repeat'
    first
      | with_reducible exact Mod.sameBut_refl _ _
      | with_reducible assumption
      | (extract_lets +onlyGivenNames y; first | (refine Mod.sameBut_cut y (fun hy => ?_) ?_; rotate_left; subst y; rotate_left; clear_value y) | (refine Mod.sameBut_cut_fst y (fun hy => ?_) ?_; rotate_left; subst y; rotate_left; clear_value y) | clear_value y)
      | ((with_reducible apply Mod.sameBut_step (Mod.sendXfer_sameBut _ _ _ _ _ _ _ _)); decide)
      | ((with_reducible apply Mod.sameBut_step (Mod.setOp_sameBut _ _ _)); decide)
      | split
      | dsimp only

theorem Mod.signal_sameBut (m : Mod) (a1 : Nat) : Mod.sameBut [.sched] m (Mod.signal m a1) := by
  unfold Mod.signal
  repeat'
    first
      | with_reducible exact Mod.sameBut_refl _ _
      | with_reducible assumption
      | (extract_lets +onlyGivenNames y; first | (refine Mod.sameBut_cut y (fun hy => ?_) ?_; rotate_left; subst y; rotate_left; clear_value y) | (refine Mod.sameBut_cut_fst y (fun hy => ?_) ?_; rotate_left; subst y; rotate_left; clear_value y) | clear_value y)
      | split
      | dsimp only
      | ((with_reducible apply Mod.sameBut_mk); rotate_left; all_goals (try (intro hp; first | exact (hp (by decide)).elim | rfl)))

theorem Mod.opSignal_sameBut (m : Mod) (a1 : CollOp) (a2 : Option Nat) (a3 : Nat) : Mod.sameBut [.sched] m (Mod.opSignal m a1 a2 a3) := by
  unfold Mod.opSignal
  repeat'
    first
      | with_reducible exact Mod.sameBut_refl _ _
      | with_reducible assumption
      | (extract_lets +onlyGivenNames y; first | (refine Mod.sameBut_cut y (fun hy => ?_) ?_; rotate_left; subst y; rotate_left; clear_value y) | (refine Mod.sameBut_cut_fst y (fun hy => ?_) ?_; rotate_left; subst y; rotate_left; clear_value y) | clear_value y)
      | ((with_reducible apply Mod.sameBut_step (Mod.signal_sameBut _ _)); decide)
      | split
      | dsimp only

theorem Mod.opDone_sameBut (m : Mod) (a1 : Nat) (a2 : CollOp) : Mod.sameBut [.sched, .step, .coll] m (Mod.opDone m a1 a2) := by
  unfold Mod.opDone
  repeat'
    first
      | with_reducible exact Mod.sameBut_refl _ _
      | with_reducible assumption
      | (extract_lets +onlyGivenNames y; first | (refine Mod.sameBut_cut y (fun hy => ?_) ?_; rotate_left; subst y; rotate_left; clear_value y) | (refine Mod.sameBut_cut_fst y (fun hy => ?_) ?_; rotate_left; subst y; rotate_left; clear_value y) | clear_value y)
      | ((with_reducible apply Mod.sameBut_step (Mod.opSignal_sameBut _ _ _ _)); decide)
      | ((with_reducible apply Mod.sameBut_step (Mod.setOp_sameBut _ _ _)); decide)
      | split
      | dsimp only
      | ((with_reducible apply Mod.sameBut_mk); rotate_left; all_goals (try (intro hp; first | exact (hp (by decide)).elim | rfl)))

theorem Mod.dropXfer_sameBut (m : Mod) (a1 : CollXfer) : Mod.sameBut [.coll] m (Mod.dropXfer m a1) := by
  unfold Mod.dropXfer
  repeat'
    first
      | with_reducible exact Mod.sameBut_refl _ _
      | with_reducible assumption
      | (extract_lets +onlyGivenNames y; first | (refine Mod.sameBut_cut y (fun hy => ?_) ?_; rotate_left; subst y; rotate_left; clear_value y) | (refine Mod.sameBut_cut_fst y (fun hy => ?_) ?_; rotate_left; subst y; rotate_left; clear_value y) | clear_value y)
      | split
      | dsimp only
      | ((with_reducible apply Mod.sameBut_mk); rotate_left; all_goals (try (intro hp; first | exact (hp (by decide)).elim | rfl)))

theorem Mod.setResult_sameBut (m : Mod) (a1 : Nat) (a2 : CollOp) (a3 : Nat) (a4 : Contrib) : Mod.sameBut [.regs, .evIn, .coll, .fab] m (Mod.setResult m a1 a2 a3 a4) := by
  unfold Mod.setResult
  repeat'
    first
      | with_reducible exact Mod.sameBut_refl _ _
      | with_reducible assumption
      | (extract_lets +onlyGivenNames y; first | (refine Mod.sameBut_cut y (fun hy => ?_) ?_; rotate_left; subst y; rotate_left; clear_value y) | (refine Mod.sameBut_cut_fst y (fun hy => ?_) ?_; rotate_left; subst y; rotate_left; clear_value y) | clear_value y)
      | ((with_reducible apply Mod.sameBut_step (Mod.sendXfer_sameBut _ _ _ _ _ _ _ _)); decide)
      | ((with_reducible apply Mod.sameBut_step (Mod.setOp_sameBut _ _ _)); decide)
      | split
      | ((with_reducible apply Mod.sameBut_foldl); intro x e)
      | ((with_reducible apply Mod.sameBut_foldl_fst); intro x e)
      | dsimp only

theorem Mod.takeResult_sameBut (m : Mod) (a1 : Nat) (a2 : CollOp) (a3 : Nat) : Mod.sameBut [.regs, .evIn, .coll, .fab] m (Mod.takeResult m a1 a2 a3) := by
  unfold Mod.takeResult
  repeat'
    first
      | with_reducible exact Mod.sameBut_refl _ _
      | with_reducible assumption
      | (extract_lets +onlyGivenNames y; first | (refine Mod.sameBut_cut y (fun hy => ?_) ?_; rotate_left; subst y; rotate_left; clear_value y) | (refine Mod.sameBut_cut_fst y (fun hy => ?_) ?_; rotate_left; subst y; rotate_left; clear_value y) | clear_value y)
      | ((with_reducible apply Mod.sameBut_step (Mod.setResult_sameBut _ _ _ _ _)); decide)
      | ((with_reducible apply Mod.sameBut_step (Mod.dropXfer_sameBut _ _)); decide)
      | split
      | dsimp only

theorem Mod.dataWrite_sameBut (m : Mod) (a1 : CollOp) (a2 : Nat) (a3 : Contrib) (a4 : Ecc) : Mod.sameBut [.regs, .evIn, .cores, .step, .mem, .dbg] m (Mod.dataWrite m a1 a2 a3 a4) := by
  unfold Mod.dataWrite
  repeat'
    first
      | with_reducible exact Mod.sameBut_refl _ _
      | with_reducible assumption
      | (extract_lets +onlyGivenNames y; first | (refine Mod.sameBut_cut y (fun hy => ?_) ?_; rotate_left; subst y; rotate_left; clear_value y) | (refine Mod.sameBut_cut_fst y (fun hy => ?_) ?_; rotate_left; subst y; rotate_left; clear_value y) | clear_value y)
      | ((with_reducible apply Mod.sameBut_step (Mod.devWriteP_sameBut _ _ _)); decide)
      | ((with_reducible apply Mod.sameBut_step (Mod.eccDev_sameBut _ _ _ _)); decide)
      | ((with_reducible apply Mod.sameBut_step (Mod.yard_sameBut _ _ _ _ _)); decide)
      | split
      | dsimp only

theorem Mod.toGroom_sameBut (m : Mod) (a1 : Nat) (a2 : CollOp) (a3 : Nat) (a4 : Contrib) : Mod.sameBut [.groom] m (Mod.toGroom m a1 a2 a3 a4) := by
  unfold Mod.toGroom
  repeat'
    first
      | with_reducible exact Mod.sameBut_refl _ _
      | with_reducible assumption
      | (extract_lets +onlyGivenNames y; first | (refine Mod.sameBut_cut y (fun hy => ?_) ?_; rotate_left; subst y; rotate_left; clear_value y) | (refine Mod.sameBut_cut_fst y (fun hy => ?_) ?_; rotate_left; subst y; rotate_left; clear_value y) | clear_value y)
      | ((with_reducible apply Mod.sameBut_step (Mod.setGroom_sameBut _ _ _)); decide)
      | split
      | dsimp only

theorem Mod.ledgerWrite_sameBut (m : Mod) (a1 : Nat) (a2 : CollOp) (a3 : Nat) (a4 : Contrib) : Mod.sameBut [.regs, .evIn, .cores, .mem, .coll, .dbg] m (Mod.ledgerWrite m a1 a2 a3 a4) := by
  unfold Mod.ledgerWrite
  repeat'
    first
      | with_reducible exact Mod.sameBut_refl _ _
      | with_reducible assumption
      | (extract_lets +onlyGivenNames y; first | (refine Mod.sameBut_cut y (fun hy => ?_) ?_; rotate_left; subst y; rotate_left; clear_value y) | (refine Mod.sameBut_cut_fst y (fun hy => ?_) ?_; rotate_left; subst y; rotate_left; clear_value y) | clear_value y)
      | ((with_reducible apply Mod.sameBut_step (Mod.yard_sameBut _ _ _ _ _)); decide)
      | ((with_reducible apply Mod.sameBut_step (Mod.redFlags_sameBut _ _ _)); decide)
      | ((with_reducible apply Mod.sameBut_step (Mod.devWriteP_sameBut _ _ _)); decide)
      | split
      | ((with_reducible apply Mod.sameBut_foldl); intro x e)
      | ((with_reducible apply Mod.sameBut_foldl_fst); intro x e)
      | dsimp only
      | ((with_reducible apply Mod.sameBut_mk); rotate_left; all_goals (try (intro hp; first | exact (hp (by decide)).elim | rfl)))

theorem Mod.deliverSlice_sameBut (m : Mod) (a1 : Nat) (a2 : CollOp) (a3 : Nat) (a4 : Ecc) : Mod.sameBut [.regs, .evIn, .cores, .step, .mem, .groom, .coll, .dbg] m (Mod.deliverSlice m a1 a2 a3 a4) := by
  unfold Mod.deliverSlice
  repeat'
    first
      | with_reducible exact Mod.sameBut_refl _ _
      | with_reducible assumption
      | (extract_lets +onlyGivenNames y; first | (refine Mod.sameBut_cut y (fun hy => ?_) ?_; rotate_left; subst y; rotate_left; clear_value y) | (refine Mod.sameBut_cut_fst y (fun hy => ?_) ?_; rotate_left; subst y; rotate_left; clear_value y) | clear_value y)
      | ((with_reducible apply Mod.sameBut_step (Mod.dataWrite_sameBut _ _ _ _ _)); decide)
      | ((with_reducible apply Mod.sameBut_step (Mod.ledgerWrite_sameBut _ _ _ _ _)); decide)
      | ((with_reducible apply Mod.sameBut_step (Mod.toGroom_sameBut _ _ _ _ _)); decide)
      | ((with_reducible apply Mod.sameBut_step (Mod.fault_sameBut _ _)); decide)
      | ((with_reducible apply Mod.sameBut_step (Mod.setOp_sameBut _ _ _)); decide)
      | split
      | dsimp only

theorem Mod.sumTurns_sameBut (a0 : Nat) (a1 : CollOp) (a2 : Nat) (a3 : List Nat) (m : Mod) : Mod.sameBut [.regs, .coll] m (Mod.sumTurns a0 a1 a2 a3 m) := by
  fun_induction Mod.sumTurns a0 a1 a2 a3 m
  repeat'
    first
      | with_reducible exact Mod.sameBut_refl _ _
      | with_reducible assumption
      | (extract_lets +onlyGivenNames y; first | (refine Mod.sameBut_cut y (fun hy => ?_) ?_; rotate_left; subst y; rotate_left; clear_value y) | (refine Mod.sameBut_cut_fst y (fun hy => ?_) ?_; rotate_left; subst y; rotate_left; clear_value y) | clear_value y)
      | ((with_reducible apply Mod.sameBut_step (Mod.dropXfer_sameBut _ _)); decide)
      | ((with_reducible apply Mod.sameBut_step (Mod.setOp_sameBut _ _ _)); decide)
      | ((with_reducible apply Mod.sameBut_step (Mod.redFlags_sameBut _ _ _)); decide)
      | with_reducible refine Mod.sameBut_trans ?_ (by assumption)
      | split
      | ((with_reducible apply Mod.sameBut_foldl); intro x e)
      | ((with_reducible apply Mod.sameBut_foldl_fst); intro x e)
      | dsimp only

theorem Mod.sumWhole_sameBut (m : Mod) (a1 : Nat) (a2 : CollOp) (a3 : Nat) (a4 : Contrib) : Mod.sameBut [.regs, .evIn, .coll, .fab] m (Mod.sumWhole m a1 a2 a3 a4) := by
  unfold Mod.sumWhole
  repeat'
    first
      | with_reducible exact Mod.sameBut_refl _ _
      | with_reducible assumption
      | (extract_lets +onlyGivenNames y; first | (refine Mod.sameBut_cut y (fun hy => ?_) ?_; rotate_left; subst y; rotate_left; clear_value y) | (refine Mod.sameBut_cut_fst y (fun hy => ?_) ?_; rotate_left; subst y; rotate_left; clear_value y) | clear_value y)
      | ((with_reducible apply Mod.sameBut_step (Mod.setOp_sameBut _ _ _)); decide)
      | ((with_reducible apply Mod.sameBut_step (Mod.sendXfer_sameBut _ _ _ _ _ _ _ _)); decide)
      | ((with_reducible apply Mod.sameBut_step (Mod.redFlags_sameBut _ _ _)); decide)
      | ((with_reducible apply Mod.sameBut_step (Mod.setResult_sameBut _ _ _ _ _)); decide)
      | split
      | ((with_reducible apply Mod.sameBut_foldl); intro x e)
      | ((with_reducible apply Mod.sameBut_foldl_fst); intro x e)
      | dsimp only

theorem Mod.sumSlice_sameBut (m : Mod) (a1 : Nat) (a2 : CollOp) (a3 : Nat) : Mod.sameBut [.regs, .evIn, .coll, .fab] m (Mod.sumSlice m a1 a2 a3) := by
  unfold Mod.sumSlice
  repeat'
    first
      | with_reducible exact Mod.sameBut_refl _ _
      | with_reducible assumption
      | (extract_lets +onlyGivenNames y; first | (refine Mod.sameBut_cut y (fun hy => ?_) ?_; rotate_left; subst y; rotate_left; clear_value y) | (refine Mod.sameBut_cut_fst y (fun hy => ?_) ?_; rotate_left; subst y; rotate_left; clear_value y) | clear_value y)
      | ((with_reducible apply Mod.sameBut_step (Mod.sumTurns_sameBut _ _ _ _ _)); decide)
      | ((with_reducible apply Mod.sameBut_step (Mod.sumWhole_sameBut _ _ _ _ _)); decide)
      | split
      | dsimp only

theorem Mod.opProgress_sameBut (m : Mod) (a1 : Nat) (a2 : CollOp) (a3 : Ecc) : Mod.sameBut [.regs, .evIn, .sched, .cores, .step, .mem, .groom, .coll, .fab, .dbg] m (Mod.opProgress m a1 a2 a3) := by
  unfold Mod.opProgress
  repeat'
    first
      | with_reducible exact Mod.sameBut_refl _ _
      | with_reducible assumption
      | (extract_lets +onlyGivenNames y; first | (refine Mod.sameBut_cut y (fun hy => ?_) ?_; rotate_left; subst y; rotate_left; clear_value y) | (refine Mod.sameBut_cut_fst y (fun hy => ?_) ?_; rotate_left; subst y; rotate_left; clear_value y) | clear_value y)
      | ((with_reducible apply Mod.sameBut_step (Mod.sumSlice_sameBut _ _ _ _)); decide)
      | ((with_reducible apply Mod.sameBut_step (Mod.deliverSlice_sameBut _ _ _ _ _)); decide)
      | ((with_reducible apply Mod.sameBut_step (Mod.takeResult_sameBut _ _ _ _)); decide)
      | ((with_reducible apply Mod.sameBut_step (Mod.opDone_sameBut _ _ _)); decide)
      | ((with_reducible apply Mod.sameBut_step (Mod.setOp_sameBut _ _ _)); decide)
      | split
      | ((with_reducible apply Mod.sameBut_foldl); intro x e)
      | ((with_reducible apply Mod.sameBut_foldl_fst); intro x e)
      | dsimp only

theorem Mod.collFormat_sameBut (m : Mod) (a1 : Nat) (a2 : Nat) (a3 : Nat) (a4 : Nat) : Mod.sameBut [.regs, .evIn, .step] m (Mod.collFormat m a1 a2 a3 a4) := by
  unfold Mod.collFormat
  repeat'
    first
      | with_reducible exact Mod.sameBut_refl _ _
      | with_reducible assumption
      | (extract_lets +onlyGivenNames y; first | (refine Mod.sameBut_cut y (fun hy => ?_) ?_; rotate_left; subst y; rotate_left; clear_value y) | (refine Mod.sameBut_cut_fst y (fun hy => ?_) ?_; rotate_left; subst y; rotate_left; clear_value y) | clear_value y)
      | ((with_reducible apply Mod.sameBut_step (Mod.raiseStep_sameBut _ _ _ _ _ _)); decide)
      | ((with_reducible apply Mod.sameBut_step (Mod.fset_sameBut _ _ _ _ _)); decide)
      | split
      | dsimp only

theorem Mod.refuseBad_sameBut (m : Mod) : Mod.sameBut [.regs, .evIn, .step, .coll] m (Mod.refuseBad m) := by
  unfold Mod.refuseBad
  repeat'
    first
      | with_reducible exact Mod.sameBut_refl _ _
      | with_reducible assumption
      | (extract_lets +onlyGivenNames y; first | (refine Mod.sameBut_cut y (fun hy => ?_) ?_; rotate_left; subst y; rotate_left; clear_value y) | (refine Mod.sameBut_cut_fst y (fun hy => ?_) ?_; rotate_left; subst y; rotate_left; clear_value y) | clear_value y)
      | ((with_reducible apply Mod.sameBut_step (Mod.collFormat_sameBut _ _ _ _ _)); decide)
      | ((with_reducible apply Mod.sameBut_step (Mod.dropXfer_sameBut _ _)); decide)
      | split
      | ((with_reducible apply Mod.sameBut_foldl); intro x e)
      | ((with_reducible apply Mod.sameBut_foldl_fst); intro x e)
      | dsimp only

theorem Mod.collProgress_sameBut (m : Mod) (a1 : Ecc) : Mod.sameBut [.regs, .evIn, .sched, .cores, .step, .mem, .groom, .coll, .fab, .dbg] m (Mod.collProgress m a1) := by
  unfold Mod.collProgress
  repeat'
    first
      | with_reducible exact Mod.sameBut_refl _ _
      | with_reducible assumption
      | (extract_lets +onlyGivenNames y; first | (refine Mod.sameBut_cut y (fun hy => ?_) ?_; rotate_left; subst y; rotate_left; clear_value y) | (refine Mod.sameBut_cut_fst y (fun hy => ?_) ?_; rotate_left; subst y; rotate_left; clear_value y) | clear_value y)
      | ((with_reducible apply Mod.sameBut_step (Mod.opProgress_sameBut _ _ _ _)); decide)
      | ((with_reducible apply Mod.sameBut_step (Mod.refuseBad_sameBut _)); decide)
      | split
      | ((with_reducible apply Mod.sameBut_foldl); intro x e)
      | ((with_reducible apply Mod.sameBut_foldl_fst); intro x e)
      | dsimp only

theorem Mod.opRead_sameBut (m : Mod) (a1 : Nat) (a2 : CollOp) (a3 : Nat) : Mod.sameBut [.regs, .sched] m (Mod.opRead m a1 a2 a3) := by
  unfold Mod.opRead
  repeat'
    first
      | with_reducible exact Mod.sameBut_refl _ _
      | with_reducible assumption
      | (extract_lets +onlyGivenNames y; first | (refine Mod.sameBut_cut y (fun hy => ?_) ?_; rotate_left; subst y; rotate_left; clear_value y) | (refine Mod.sameBut_cut_fst y (fun hy => ?_) ?_; rotate_left; subst y; rotate_left; clear_value y) | clear_value y)
      | ((with_reducible apply Mod.sameBut_step (Mod.opSignal_sameBut _ _ _ _)); decide)
      | ((with_reducible apply Mod.sameBut_step (Mod.fset_sameBut _ _ _ _ _)); decide)
      | split
      | dsimp only

theorem Mod.allreduce_sameBut (m : Mod) (a1 : Nat) (a2 : Ecc) : Mod.sameBut [.regs, .evIn, .sched, .cores, .step, .mem, .groom, .coll, .fab, .dbg] m (Mod.allreduce m a1 a2) := by
  unfold Mod.allreduce
  repeat'
    first
      | with_reducible exact Mod.sameBut_refl _ _
      | with_reducible assumption
      | (extract_lets +onlyGivenNames y; first | (refine Mod.sameBut_cut y (fun hy => ?_) ?_; rotate_left; subst y; rotate_left; clear_value y) | (refine Mod.sameBut_cut_fst y (fun hy => ?_) ?_; rotate_left; subst y; rotate_left; clear_value y) | clear_value y)
      | ((with_reducible apply Mod.sameBut_step (Mod.sliceRead_sameBut _ _ _ _)); decide)
      | ((with_reducible apply Mod.sameBut_step (Mod.contribute_sameBut _ _ _ _ _ _ _ _)); decide)
      | ((with_reducible apply Mod.sameBut_step (Mod.opRead_sameBut _ _ _ _)); decide)
      | ((with_reducible apply Mod.sameBut_step (Mod.collProgress_sameBut _ _)); decide)
      | ((with_reducible apply Mod.sameBut_step (Mod.setOp_sameBut _ _ _)); decide)
      | split
      | ((with_reducible apply Mod.sameBut_foldl); intro x e)
      | ((with_reducible apply Mod.sameBut_foldl_fst); intro x e)
      | dsimp only

theorem Mod.applyDue_sameBut (m : Mod) : Mod.sameBut [.regs] m (Mod.applyDue m) := by
  unfold Mod.applyDue
  repeat'
    first
      | with_reducible exact Mod.sameBut_refl _ _
      | with_reducible assumption
      | (extract_lets +onlyGivenNames y; first | (refine Mod.sameBut_cut y (fun hy => ?_) ?_; rotate_left; subst y; rotate_left; clear_value y) | (refine Mod.sameBut_cut_fst y (fun hy => ?_) ?_; rotate_left; subst y; rotate_left; clear_value y) | clear_value y)
      | split
      | ((with_reducible apply Mod.sameBut_foldl); intro x e)
      | ((with_reducible apply Mod.sameBut_foldl_fst); intro x e)
      | dsimp only
      | ((with_reducible apply Mod.sameBut_mk); rotate_left; all_goals (try (intro hp; first | exact (hp (by decide)).elim | rfl)))

theorem Mod.fcount_sameBut (m : Mod) (a1 : Fld) (a2 : optParam Nat 1) (a3 : optParam Nat 0) (a4 : optParam Nat 0) : Mod.sameBut [.regs] m (Mod.fcount m a1 a2 a3 a4) := by
  unfold Mod.fcount
  repeat'
    first
      | with_reducible exact Mod.sameBut_refl _ _
      | with_reducible assumption
      | (extract_lets +onlyGivenNames y; first | (refine Mod.sameBut_cut y (fun hy => ?_) ?_; rotate_left; subst y; rotate_left; clear_value y) | (refine Mod.sameBut_cut_fst y (fun hy => ?_) ?_; rotate_left; subst y; rotate_left; clear_value y) | clear_value y)
      | ((with_reducible apply Mod.sameBut_step (Mod.fset_sameBut _ _ _ _ _)); decide)
      | split
      | dsimp only

theorem Mod.applyRoutes_sameBut (m : Mod) (a1 : Nat) (a2 : Plate) : Mod.sameBut [.regs, .evIn, .host, .tick, .plt, .fab, .dbg] m (Mod.applyRoutes m a1 a2) := by
  unfold Mod.applyRoutes
  repeat'
    first
      | with_reducible exact Mod.sameBut_refl _ _
      | with_reducible assumption
      | (extract_lets +onlyGivenNames y; first | (refine Mod.sameBut_cut y (fun hy => ?_) ?_; rotate_left; subst y; rotate_left; clear_value y) | (refine Mod.sameBut_cut_fst y (fun hy => ?_) ?_; rotate_left; subst y; rotate_left; clear_value y) | clear_value y)
      | ((with_reducible apply Mod.sameBut_step (Mod.takeTickTree_sameBut _ _ _)); decide)
      | ((with_reducible apply Mod.sameBut_step (Mod.fcount_sameBut _ _ _ _ _)); decide)
      | ((with_reducible apply Mod.sameBut_step (Mod.portsActivate_sameBut _ _)); decide)
      | ((with_reducible apply Mod.sameBut_step (Mod.msix_sameBut _ _)); decide)
      | ((with_reducible apply Mod.sameBut_step (Mod.fset_sameBut _ _ _ _ _)); decide)
      | ((with_reducible apply Mod.sameBut_step (Mod.set64_sameBut _ _ _ _ _)); decide)
      | split
      | dsimp only
      | ((with_reducible apply Mod.sameBut_mk); rotate_left; all_goals (try (intro hp; first | exact (hp (by decide)).elim | rfl)))

theorem Mod.askRemote_sameBut (m : Mod) (a1 : Nat) (a2 : Nat) (a3 : Nat) (a4 : Nat) : Mod.sameBut [.regs, .evIn, .fab] m (Mod.askRemote m a1 a2 a3 a4).1 := by
  induction a3 generalizing m a2 a4 with
  | zero => exact Mod.sameBut_refl _ _
  | succ k ih =>
    unfold Mod.askRemote
    split
    · exact Mod.sameBut_refl _ _
    · dsimp only
      refine Mod.sameBut_trans ?_ (ih _ _ _)
      refine Mod.sameBut_trans ?_ (Mod.originate_sameBut _ _)
      constructor <;> intro hp <;> first | rfl | exact (hp (by decide)).elim

theorem Mod.attReply_sameBut (m : Mod) (a1 : AttPath) (a2 : Nat) (a3 : Nat) (a4 : Nat) (a5 : List Byte) : Mod.sameBut [.host] m (Mod.attReply m a1 a2 a3 a4 a5) := by
  unfold Mod.attReply
  repeat'
    first
      | with_reducible exact Mod.sameBut_refl _ _
      | with_reducible assumption
      | (extract_lets +onlyGivenNames y; first | (refine Mod.sameBut_cut y (fun hy => ?_) ?_; rotate_left; subst y; rotate_left; clear_value y) | (refine Mod.sameBut_cut_fst y (fun hy => ?_) ?_; rotate_left; subst y; rotate_left; clear_value y) | clear_value y)
      | ((with_reducible apply Mod.sameBut_step (Mod.msix_sameBut _ _)); decide)
      | ((with_reducible apply Mod.sameBut_step (Mod.emit_sameBut _ _)); decide)
      | split
      | dsimp only
      | ((with_reducible apply Mod.sameBut_mk); rotate_left; all_goals (try (intro hp; first | exact (hp (by decide)).elim | rfl)))

theorem Mod.sramPut_sameBut (m : Mod) (a1 : Nat) (a2 : List (Prod Nat Byte)) : Mod.sameBut [.mem] m (Mod.sramPut m a1 a2) := by
  unfold Mod.sramPut
  repeat'
    first
      | with_reducible exact Mod.sameBut_refl _ _
      | with_reducible assumption
      | (extract_lets +onlyGivenNames y; first | (refine Mod.sameBut_cut y (fun hy => ?_) ?_; rotate_left; subst y; rotate_left; clear_value y) | (refine Mod.sameBut_cut_fst y (fun hy => ?_) ?_; rotate_left; subst y; rotate_left; clear_value y) | clear_value y)
      | split
      | ((with_reducible apply Mod.sameBut_foldl); intro x e)
      | ((with_reducible apply Mod.sameBut_foldl_fst); intro x e)
      | dsimp only
      | ((with_reducible apply Mod.sameBut_mk); rotate_left; all_goals (try (intro hp; first | exact (hp (by decide)).elim | rfl)))

theorem Mod.kernelResult_sameBut (m : Mod) (a1 : Nat) (a2 : KResult) : Mod.sameBut [.regs, .mem] m (Mod.kernelResult m a1 a2) := by
  unfold Mod.kernelResult
  repeat'
    first
      | with_reducible exact Mod.sameBut_refl _ _
      | with_reducible assumption
      | (extract_lets +onlyGivenNames y; first | (refine Mod.sameBut_cut y (fun hy => ?_) ?_; rotate_left; subst y; rotate_left; clear_value y) | (refine Mod.sameBut_cut_fst y (fun hy => ?_) ?_; rotate_left; subst y; rotate_left; clear_value y) | subst y)
      | ((with_reducible apply Mod.sameBut_step (Mod.sramPut_sameBut _ _ _)); decide)
      | ((with_reducible apply Mod.sameBut_step (Mod.fsat_sameBut _ _ _ _ _)); decide)
      | split
      | dsimp only
      | ((with_reducible apply Mod.sameBut_mk); rotate_left; all_goals (try (intro hp; first | exact (hp (by decide)).elim | rfl)))

theorem Mod.attnResult_sameBut (m : Mod) (a1 : Nat) (a2 : Nat) (a3 : AResult) : Mod.sameBut [.regs, .evIn, .mem] m (Mod.attnResult m a1 a2 a3) := by
  unfold Mod.attnResult
  repeat'
    first
      | with_reducible exact Mod.sameBut_refl _ _
      | with_reducible assumption
      | (extract_lets +onlyGivenNames y; first | (refine Mod.sameBut_cut y (fun hy => ?_) ?_; rotate_left; subst y; rotate_left; clear_value y) | (refine Mod.sameBut_cut_fst y (fun hy => ?_) ?_; rotate_left; subst y; rotate_left; clear_value y) | clear_value y)
      | ((with_reducible apply Mod.sameBut_step (Mod.kernelResult_sameBut _ _ _)); decide)
      | ((with_reducible apply Mod.sameBut_step (Mod.raise_sameBut _ _ _ _ _ _ _)); decide)
      | ((with_reducible apply Mod.sameBut_step (Mod.fset_sameBut _ _ _ _ _)); decide)
      | split
      | dsimp only

theorem Mod.workDone_sameBut (m : Mod) (a1 : Nat) : Mod.sameBut [.cores] m (Mod.workDone m a1) := by
  unfold Mod.workDone
  repeat'
    first
      | with_reducible exact Mod.sameBut_refl _ _
      | with_reducible assumption
      | (extract_lets +onlyGivenNames y; first | (refine Mod.sameBut_cut y (fun hy => ?_) ?_; rotate_left; subst y; rotate_left; clear_value y) | (refine Mod.sameBut_cut_fst y (fun hy => ?_) ?_; rotate_left; subst y; rotate_left; clear_value y) | clear_value y)
      | ((with_reducible apply Mod.sameBut_step (Mod.setCore_sameBut _ _ _)); decide)
      | split
      | dsimp only

theorem Mod.bar2BaseWrite_sameBut (m : Mod) (a1 : Bool) (a2 : Nat) : Mod.sameBut [.regs] m (Mod.bar2BaseWrite m a1 a2) := by
  unfold Mod.bar2BaseWrite
  repeat'
    first
      | with_reducible exact Mod.sameBut_refl _ _
      | with_reducible assumption
      | (extract_lets +onlyGivenNames y; first | (refine Mod.sameBut_cut y (fun hy => ?_) ?_; rotate_left; subst y; rotate_left; clear_value y) | (refine Mod.sameBut_cut_fst y (fun hy => ?_) ?_; rotate_left; subst y; rotate_left; clear_value y) | clear_value y)
      | ((with_reducible apply Mod.sameBut_step (Mod.set64_sameBut _ _ _ _ _)); decide)
      | ((with_reducible apply Mod.sameBut_step (Mod.fset_sameBut _ _ _ _ _)); decide)
      | split
      | dsimp only
      | ((with_reducible apply Mod.sameBut_mk); rotate_left; all_goals (try (intro hp; first | exact (hp (by decide)).elim | rfl)))

theorem Mod.holdReq_sameBut (m : Mod) (a1 : Nat) (a2 : LoftReq) : Mod.sameBut [.mem] m (Mod.holdReq m a1 a2) := by
  unfold Mod.holdReq
  repeat'
    first
      | with_reducible exact Mod.sameBut_refl _ _
      | with_reducible assumption
      | (extract_lets +onlyGivenNames y; first | (refine Mod.sameBut_cut y (fun hy => ?_) ?_; rotate_left; subst y; rotate_left; clear_value y) | (refine Mod.sameBut_cut_fst y (fun hy => ?_) ?_; rotate_left; subst y; rotate_left; clear_value y) | clear_value y)
      | split
      | dsimp only
      | ((with_reducible apply Mod.sameBut_mk); rotate_left; all_goals (try (intro hp; first | exact (hp (by decide)).elim | rfl)))

theorem Mod.bar2ReadAt_sameBut (m : Mod) (a1 : Nat) (a2 : Nat) (a3 : Ecc) : Mod.sameBut [.regs, .evIn, .host, .cores, .step, .mem, .dbg] m (Mod.bar2ReadAt m a1 a2 a3) := by
  unfold Mod.bar2ReadAt
  repeat'
    first
      | with_reducible exact Mod.sameBut_refl _ _
      | with_reducible assumption
      | (extract_lets +onlyGivenNames y; first | (refine Mod.sameBut_cut y (fun hy => ?_) ?_; rotate_left; subst y; rotate_left; clear_value y) | (refine Mod.sameBut_cut_fst y (fun hy => ?_) ?_; rotate_left; subst y; rotate_left; clear_value y) | clear_value y)
      | ((with_reducible apply Mod.sameBut_step (Mod.holdReq_sameBut _ _ _)); decide)
      | ((with_reducible apply Mod.sameBut_step (Mod.readDev_sameBut _ _ _ _)); decide)
      | ((with_reducible apply Mod.sameBut_step (Mod.yard_sameBut _ _ _ _ _)); decide)
      | ((with_reducible apply Mod.sameBut_step (Mod.emit_sameBut _ _)); decide)
      | split
      | dsimp only

theorem Mod.putOrHold_sameBut (m : Mod) (a1 : Nat) (a2 : List (Option Byte)) (a3 : Ecc) : Mod.sameBut [.regs, .evIn, .step, .mem] m (Mod.putOrHold m a1 a2 a3) := by
  unfold Mod.putOrHold
  repeat'
    first
      | with_reducible exact Mod.sameBut_refl _ _
      | with_reducible assumption
      | (extract_lets +onlyGivenNames y; first | (refine Mod.sameBut_cut y (fun hy => ?_) ?_; rotate_left; subst y; rotate_left; clear_value y) | (refine Mod.sameBut_cut_fst y (fun hy => ?_) ?_; rotate_left; subst y; rotate_left; clear_value y) | clear_value y)
      | ((with_reducible apply Mod.sameBut_step (Mod.holdReq_sameBut _ _ _)); decide)
      | ((with_reducible apply Mod.sameBut_step (Mod.writeAt_sameBut _ _ _ _)); decide)
      | ((with_reducible apply Mod.sameBut_step (Mod.eccDev_sameBut _ _ _ _)); decide)
      | split
      | dsimp only

theorem Mod.bar2WriteAt_sameBut (m : Mod) (a1 : Nat) (a2 : List (Option Byte)) (a3 : Ecc) (a4 : optParam YardSrc YardSrc.host) : Mod.sameBut [.regs, .evIn, .cores, .step, .mem, .dbg] m (Mod.bar2WriteAt m a1 a2 a3 a4) := by
  unfold Mod.bar2WriteAt
  repeat'
    first
      | with_reducible exact Mod.sameBut_refl _ _
      | with_reducible assumption
      | (extract_lets +onlyGivenNames y; first | (refine Mod.sameBut_cut y (fun hy => ?_) ?_; rotate_left; subst y; rotate_left; clear_value y) | (refine Mod.sameBut_cut_fst y (fun hy => ?_) ?_; rotate_left; subst y; rotate_left; clear_value y) | clear_value y)
      | ((with_reducible apply Mod.sameBut_step (Mod.eccDev_sameBut _ _ _ _)); decide)
      | ((with_reducible apply Mod.sameBut_step (Mod.yard_sameBut _ _ _ _ _)); decide)
      | ((with_reducible apply Mod.sameBut_step (Mod.writeAt_sameBut _ _ _ _)); decide)
      | ((with_reducible apply Mod.sameBut_step (Mod.raise_sameBut _ _ _ _ _ _ _)); decide)
      | ((with_reducible apply Mod.sameBut_step (Mod.fset_sameBut _ _ _ _ _)); decide)
      | ((with_reducible apply Mod.sameBut_step (Mod.putOrHold_sameBut _ _ _ _)); decide)
      | split
      | dsimp only

theorem Mod.padRelease_sameBut (m : Mod) (a1 : Nat) : Mod.sameBut [.pool, .pad] m (Mod.padRelease m a1) := by
  unfold Mod.padRelease
  repeat'
    first
      | with_reducible exact Mod.sameBut_refl _ _
      | with_reducible assumption
      | (extract_lets +onlyGivenNames y; first | (refine Mod.sameBut_cut y (fun hy => ?_) ?_; rotate_left; subst y; rotate_left; clear_value y) | (refine Mod.sameBut_cut_fst y (fun hy => ?_) ?_; rotate_left; subst y; rotate_left; clear_value y) | clear_value y)
      | split
      | ((with_reducible apply Mod.sameBut_foldl); intro x e)
      | ((with_reducible apply Mod.sameBut_foldl_fst); intro x e)
      | dsimp only
      | ((with_reducible apply Mod.sameBut_mk); rotate_left; all_goals (try (intro hp; first | exact (hp (by decide)).elim | rfl)))

theorem Mod.emptyWin_sameBut (m : Mod) (a1 : Nat) : Mod.sameBut [.stm] m (Mod.emptyWin m a1) := by
  unfold Mod.emptyWin
  repeat'
    first
      | with_reducible exact Mod.sameBut_refl _ _
      | with_reducible assumption
      | (extract_lets +onlyGivenNames y; first | (refine Mod.sameBut_cut y (fun hy => ?_) ?_; rotate_left; subst y; rotate_left; clear_value y) | (refine Mod.sameBut_cut_fst y (fun hy => ?_) ?_; rotate_left; subst y; rotate_left; clear_value y) | clear_value y)
      | split
      | dsimp only
      | ((with_reducible apply Mod.sameBut_mk); rotate_left; all_goals (try (intro hp; first | exact (hp (by decide)).elim | rfl)))

theorem Mod.setWin_sameBut (m : Mod) (a1 : Nat) (a2 : Win) : Mod.sameBut [.stm] m (Mod.setWin m a1 a2) := by
  unfold Mod.setWin
  repeat'
    first
      | with_reducible exact Mod.sameBut_refl _ _
      | with_reducible assumption
      | (extract_lets +onlyGivenNames y; first | (refine Mod.sameBut_cut y (fun hy => ?_) ?_; rotate_left; subst y; rotate_left; clear_value y) | (refine Mod.sameBut_cut_fst y (fun hy => ?_) ?_; rotate_left; subst y; rotate_left; clear_value y) | clear_value y)
      | split
      | dsimp only
      | ((with_reducible apply Mod.sameBut_mk); rotate_left; all_goals (try (intro hp; first | exact (hp (by decide)).elim | rfl)))

theorem Mod.tileLate_sameBut (m : Mod) (a1 : StreamDesc) (a2 : Nat) (a3 : Option Nat) : Mod.sameBut [.regs] m (Mod.tileLate m a1 a2 a3) := by
  unfold Mod.tileLate
  repeat'
    first
      | with_reducible exact Mod.sameBut_refl _ _
      | with_reducible assumption
      | (extract_lets +onlyGivenNames y; first | (refine Mod.sameBut_cut y (fun hy => ?_) ?_; rotate_left; subst y; rotate_left; clear_value y) | (refine Mod.sameBut_cut_fst y (fun hy => ?_) ?_; rotate_left; subst y; rotate_left; clear_value y) | clear_value y)
      | ((with_reducible apply Mod.sameBut_step (Mod.fsat_sameBut _ _ _ _ _)); decide)
      | split
      | dsimp only

theorem Mod.barrierComplete_sameBut (m : Mod) (a1 : Nat) : Mod.sameBut [.regs, .sched, .pool, .pad, .stm] m (Mod.barrierComplete m a1) := by
  unfold Mod.barrierComplete
  repeat'
    first
      | with_reducible exact Mod.sameBut_refl _ _
      | with_reducible assumption
      | (extract_lets +onlyGivenNames y; first | (refine Mod.sameBut_cut y (fun hy => ?_) ?_; rotate_left; subst y; rotate_left; clear_value y) | (refine Mod.sameBut_cut_fst y (fun hy => ?_) ?_; rotate_left; subst y; rotate_left; clear_value y) | clear_value y)
      | ((with_reducible apply Mod.sameBut_step (Mod.emptyWin_sameBut _ _)); decide)
      | ((with_reducible apply Mod.sameBut_step (Mod.padRelease_sameBut _ _)); decide)
      | ((with_reducible apply Mod.sameBut_step (Mod.setCtx_sameBut _ _ _)); decide)
      | ((with_reducible apply Mod.sameBut_step (Mod.tileLate_sameBut _ _ _ _)); decide)
      | ((with_reducible apply Mod.sameBut_step (Mod.setWin_sameBut _ _ _)); decide)
      | ((with_reducible apply Mod.sameBut_step (Mod.signal_sameBut _ _)); decide)
      | split
      | ((with_reducible apply Mod.sameBut_foldl); intro x e)
      | ((with_reducible apply Mod.sameBut_foldl_fst); intro x e)
      | dsimp only

theorem Mod.barrierHit_sameBut (m : Mod) (a1 : Nat) : Mod.sameBut [.regs, .evIn, .sched, .step, .pool, .pad, .stm] m (Mod.barrierHit m a1) := by
  unfold Mod.barrierHit
  repeat'
    first
      | with_reducible exact Mod.sameBut_refl _ _
      | with_reducible assumption
      | (extract_lets +onlyGivenNames y; first | (refine Mod.sameBut_cut y (fun hy => ?_) ?_; rotate_left; subst y; rotate_left; clear_value y) | (refine Mod.sameBut_cut_fst y (fun hy => ?_) ?_; rotate_left; subst y; rotate_left; clear_value y) | clear_value y)
      | ((with_reducible apply Mod.sameBut_step (Mod.raiseStep_sameBut _ _ _ _ _ _)); decide)
      | ((with_reducible apply Mod.sameBut_step (Mod.barrierComplete_sameBut _ _)); decide)
      | split
      | dsimp only
      | ((with_reducible apply Mod.sameBut_mk); rotate_left; all_goals (try (intro hp; first | exact (hp (by decide)).elim | rfl)))

theorem Mod.beginRecompute_sameBut (m : Mod) (a1 : Nat) : Mod.sameBut [.pad] m (Mod.beginRecompute m a1) := by
  unfold Mod.beginRecompute
  repeat'
    first
      | with_reducible exact Mod.sameBut_refl _ _
      | with_reducible assumption
      | (extract_lets +onlyGivenNames y; first | (refine Mod.sameBut_cut y (fun hy => ?_) ?_; rotate_left; subst y; rotate_left; clear_value y) | (refine Mod.sameBut_cut_fst y (fun hy => ?_) ?_; rotate_left; subst y; rotate_left; clear_value y) | clear_value y)
      | split
      | ((with_reducible apply Mod.sameBut_foldl); intro x e)
      | ((with_reducible apply Mod.sameBut_foldl_fst); intro x e)
      | dsimp only
      | ((with_reducible apply Mod.sameBut_mk); rotate_left; all_goals (try (intro hp; first | exact (hp (by decide)).elim | rfl)))

theorem Mod.bistStart_sameBut (m : Mod) (a1 : Nat) : Mod.sameBut [.regs, .cores, .mem] m (Mod.bistStart m a1) := by
  unfold Mod.bistStart
  repeat'
    first
      | with_reducible exact Mod.sameBut_refl _ _
      | with_reducible assumption
      | (extract_lets +onlyGivenNames y; first | (refine Mod.sameBut_cut y (fun hy => ?_) ?_; rotate_left; subst y; rotate_left; clear_value y) | (refine Mod.sameBut_cut_fst y (fun hy => ?_) ?_; rotate_left; subst y; rotate_left; clear_value y) | clear_value y)
      | ((with_reducible apply Mod.sameBut_step (Mod.setCore_sameBut _ _ _)); decide)
      | ((with_reducible apply Mod.sameBut_step (Mod.fset_sameBut _ _ _ _ _)); decide)
      | split
      | dsimp only
      | ((with_reducible apply Mod.sameBut_mk); rotate_left; all_goals (try (intro hp; first | exact (hp (by decide)).elim | rfl)))

theorem Mod.keyLow_sameBut (m : Mod) : Mod.sameBut [.evIn, .sec] m (Mod.keyLow m) := by
  unfold Mod.keyLow
  repeat'
    first
      | with_reducible exact Mod.sameBut_refl _ _
      | with_reducible assumption
      | (extract_lets +onlyGivenNames y; first | (refine Mod.sameBut_cut y (fun hy => ?_) ?_; rotate_left; subst y; rotate_left; clear_value y) | (refine Mod.sameBut_cut_fst y (fun hy => ?_) ?_; rotate_left; subst y; rotate_left; clear_value y) | clear_value y)
      | ((with_reducible apply Mod.sameBut_step (Mod.raise_sameBut _ _ _ _ _ _ _)); decide)
      | split
      | dsimp only
      | ((with_reducible apply Mod.sameBut_mk); rotate_left; all_goals (try (intro hp; first | exact (hp (by decide)).elim | rfl)))

theorem Mod.counterCheck_sameBut (m : Mod) (a1 : Bool) : Mod.sameBut [.regs, .evIn, .sec] m (Mod.counterCheck m a1) := by
  unfold Mod.counterCheck
  repeat'
    first
      | with_reducible exact Mod.sameBut_refl _ _
      | with_reducible assumption
      | (extract_lets +onlyGivenNames y; first | (refine Mod.sameBut_cut y (fun hy => ?_) ?_; rotate_left; subst y; rotate_left; clear_value y) | (refine Mod.sameBut_cut_fst y (fun hy => ?_) ?_; rotate_left; subst y; rotate_left; clear_value y) | clear_value y)
      | ((with_reducible apply Mod.sameBut_step (Mod.fset_sameBut _ _ _ _ _)); decide)
      | ((with_reducible apply Mod.sameBut_step (Mod.keyLow_sameBut _)); decide)
      | ((with_reducible apply Mod.sameBut_step (Mod.raise_sameBut _ _ _ _ _ _ _)); decide)
      | split
      | dsimp only
      | ((with_reducible apply Mod.sameBut_mk); rotate_left; all_goals (try (intro hp; first | exact (hp (by decide)).elim | rfl)))

theorem Mod.setMark_sameBut (m : Mod) (a1 : Nat) (a2 : SlotMark) : Mod.sameBut [.sec] m (Mod.setMark m a1 a2) := by
  unfold Mod.setMark
  repeat'
    first
      | with_reducible exact Mod.sameBut_refl _ _
      | with_reducible assumption
      | (extract_lets +onlyGivenNames y; first | (refine Mod.sameBut_cut y (fun hy => ?_) ?_; rotate_left; subst y; rotate_left; clear_value y) | (refine Mod.sameBut_cut_fst y (fun hy => ?_) ?_; rotate_left; subst y; rotate_left; clear_value y) | clear_value y)
      | split
      | dsimp only
      | ((with_reducible apply Mod.sameBut_mk); rotate_left; all_goals (try (intro hp; first | exact (hp (by decide)).elim | rfl)))

theorem Mod.selectSlot_sameBut (a0 : Boot) (a1 : Nat) (m : Mod) (a3 : Option Nat) : Mod.sameBut [.sec] m (Mod.selectSlot a0 a1 m a3).1 := by
  induction a1 generalizing m a3 with
  | zero => exact Mod.sameBut_refl _ _
  | succ k ih =>
    have key : ∀ (x : Mod) (i : Nat) (g : Option Nat), Mod.sameBut [.sec] x
        (if x.slotBoots a0 i then (x, some i, g) else Mod.selectSlot a0 k (x.setMark i .invalid) g).1 := by
      intro x i g
      split
      · exact Mod.sameBut_refl _ _
      · exact Mod.sameBut_trans (Mod.setMark_sameBut _ _ _) (ih _ _)
    unfold Mod.selectSlot
    split
    · refine Mod.sameBut_trans ?_ (key _ _ _)
      split
      · exact Mod.sameBut_refl _ _
      · exact Mod.setMark_sameBut _ _ _
    · split
      · exact Mod.sameBut_trans (Mod.setMark_sameBut _ _ _) (ih _ _)
      · split
        · exact key _ _ _
        · exact Mod.sameBut_refl _ _

theorem Mod.measureBoot_sameBut (m : Mod) (a1 : Option Nat) : Mod.sameBut [.regs, .sec] m (Mod.measureBoot m a1) := by
  unfold Mod.measureBoot
  repeat'
    first
      | with_reducible exact Mod.sameBut_refl _ _
      | with_reducible assumption
      | (extract_lets +onlyGivenNames y; first | (refine Mod.sameBut_cut y (fun hy => ?_) ?_; rotate_left; subst y; rotate_left; clear_value y) | (refine Mod.sameBut_cut_fst y (fun hy => ?_) ?_; rotate_left; subst y; rotate_left; clear_value y) | clear_value y)
      | ((with_reducible apply Mod.sameBut_step (Mod.setMeas_sameBut _ _ _)); decide)
      | ((with_reducible apply Mod.sameBut_step (Mod.extend_sameBut _ _ _ _)); decide)
      | split
      | ((with_reducible apply Mod.sameBut_foldl); intro x e)
      | ((with_reducible apply Mod.sameBut_foldl_fst); intro x e)
      | dsimp only
      | ((with_reducible apply Mod.sameBut_mk); rotate_left; all_goals (try (intro hp; first | exact (hp (by decide)).elim | rfl)))

theorem Mod.showSlot_sameBut (m : Mod) (a1 : Option Nat) : Mod.sameBut [.regs] m (Mod.showSlot m a1) := by
  unfold Mod.showSlot
  repeat'
    first
      | with_reducible exact Mod.sameBut_refl _ _
      | with_reducible assumption
      | (extract_lets +onlyGivenNames y; first | (refine Mod.sameBut_cut y (fun hy => ?_) ?_; rotate_left; subst y; rotate_left; clear_value y) | (refine Mod.sameBut_cut_fst y (fun hy => ?_) ?_; rotate_left; subst y; rotate_left; clear_value y) | clear_value y)
      | ((with_reducible apply Mod.sameBut_step (Mod.fset_sameBut _ _ _ _ _)); decide)
      | split
      | ((with_reducible apply Mod.sameBut_foldl); intro x e)
      | ((with_reducible apply Mod.sameBut_foldl_fst); intro x e)
      | dsimp only

theorem Mod.bootChain_sameBut (m : Mod) (a1 : Boot) : Mod.sameBut [.regs, .evIn, .sec] m (Mod.bootChain m a1) := by
  unfold Mod.bootChain
  repeat'
    first
      | with_reducible exact Mod.sameBut_refl _ _
      | with_reducible assumption
      | (extract_lets +onlyGivenNames y; first | (refine Mod.sameBut_cut y (fun hy => ?_) ?_; rotate_left; subst y; rotate_left; clear_value y) | (refine Mod.sameBut_cut_fst y (fun hy => ?_) ?_; rotate_left; subst y; rotate_left; clear_value y) | clear_value y)
      | ((with_reducible apply Mod.sameBut_step (Mod.selectSlot_sameBut _ _ _ _)); decide)
      | ((with_reducible apply Mod.sameBut_step (Mod.measureBoot_sameBut _ _)); decide)
      | ((with_reducible apply Mod.sameBut_step (Mod.counterCheck_sameBut _ _)); decide)
      | ((with_reducible apply Mod.sameBut_step (Mod.showSlot_sameBut _ _)); decide)
      | ((with_reducible apply Mod.sameBut_step (Mod.fset_sameBut _ _ _ _ _)); decide)
      | ((with_reducible apply Mod.sameBut_step (Mod.raise_sameBut _ _ _ _ _ _ _)); decide)
      | split
      | dsimp only
      | ((with_reducible apply Mod.sameBut_mk); rotate_left; all_goals (try (intro hp; first | exact (hp (by decide)).elim | rfl)))

theorem Mod.perTick_sameBut (m : Mod) : Mod.sameBut [.coll, .fab, .dbg] m (Mod.perTick m) := by
  unfold Mod.perTick
  repeat'
    first
      | with_reducible exact Mod.sameBut_refl _ _
      | with_reducible assumption
      | (extract_lets +onlyGivenNames y; first | (refine Mod.sameBut_cut y (fun hy => ?_) ?_; rotate_left; subst y; rotate_left; clear_value y) | (refine Mod.sameBut_cut_fst y (fun hy => ?_) ?_; rotate_left; subst y; rotate_left; clear_value y) | clear_value y)
      | split
      | dsimp only
      | ((with_reducible apply Mod.sameBut_mk); rotate_left; all_goals (try (intro hp; first | exact (hp (by decide)).elim | rfl)))

theorem Mod.collReplay_sameBut (m : Mod) : Mod.sameBut [.coll] m (Mod.collReplay m) := by
  unfold Mod.collReplay
  repeat'
    first
      | with_reducible exact Mod.sameBut_refl _ _
      | with_reducible assumption
      | (extract_lets +onlyGivenNames y; first | (refine Mod.sameBut_cut y (fun hy => ?_) ?_; rotate_left; subst y; rotate_left; clear_value y) | (refine Mod.sameBut_cut_fst y (fun hy => ?_) ?_; rotate_left; subst y; rotate_left; clear_value y) | clear_value y)
      | split
      | dsimp only
      | ((with_reducible apply Mod.sameBut_mk); rotate_left; all_goals (try (intro hp; first | exact (hp (by decide)).elim | rfl)))

theorem Mod.snoopAbandon_sameBut (m : Mod) (a1 : Nat) : Mod.sameBut [.chk] m (Mod.snoopAbandon m a1) := by
  unfold Mod.snoopAbandon
  repeat'
    first
      | with_reducible exact Mod.sameBut_refl _ _
      | with_reducible assumption
      | (extract_lets +onlyGivenNames y; first | (refine Mod.sameBut_cut y (fun hy => ?_) ?_; rotate_left; subst y; rotate_left; clear_value y) | (refine Mod.sameBut_cut_fst y (fun hy => ?_) ?_; rotate_left; subst y; rotate_left; clear_value y) | clear_value y)
      | split
      | dsimp only
      | ((with_reducible apply Mod.sameBut_mk); rotate_left; all_goals (try (intro hp; first | exact (hp (by decide)).elim | rfl)))

theorem Mod.setObj_sameBut (m : Mod) (a1 : Nat) (a2 : PoolObj) : Mod.sameBut [.pool] m (Mod.setObj m a1 a2) := by
  unfold Mod.setObj
  repeat'
    first
      | with_reducible exact Mod.sameBut_refl _ _
      | with_reducible assumption
      | (extract_lets +onlyGivenNames y; first | (refine Mod.sameBut_cut y (fun hy => ?_) ?_; rotate_left; subst y; rotate_left; clear_value y) | (refine Mod.sameBut_cut_fst y (fun hy => ?_) ?_; rotate_left; subst y; rotate_left; clear_value y) | clear_value y)
      | split
      | dsimp only
      | ((with_reducible apply Mod.sameBut_mk); rotate_left; all_goals (try (intro hp; first | exact (hp (by decide)).elim | rfl)))

theorem Mod.dropObj_sameBut (m : Mod) (a1 : Nat) : Mod.sameBut [.pool] m (Mod.dropObj m a1) := by
  unfold Mod.dropObj
  repeat'
    first
      | with_reducible exact Mod.sameBut_refl _ _
      | with_reducible assumption
      | (extract_lets +onlyGivenNames y; first | (refine Mod.sameBut_cut y (fun hy => ?_) ?_; rotate_left; subst y; rotate_left; clear_value y) | (refine Mod.sameBut_cut_fst y (fun hy => ?_) ?_; rotate_left; subst y; rotate_left; clear_value y) | clear_value y)
      | split
      | ((with_reducible apply Mod.sameBut_foldl); intro x e)
      | ((with_reducible apply Mod.sameBut_foldl_fst); intro x e)
      | dsimp only
      | ((with_reducible apply Mod.sameBut_mk); rotate_left; all_goals (try (intro hp; first | exact (hp (by decide)).elim | rfl)))

theorem Mod.evictOne_some {m x : Mod} {u : Option Nat} (h : m.evictOne u = some x) : Mod.sameBut [.regs, .pool] m x := by
  unfold Mod.evictOne at h
  obtain ⟨e, _, rfl⟩ := Option.map_eq_some_iff.1 h
  dsimp only
  split
  · exact Mod.sameBut_step (Mod.setObj_sameBut _ _ _) (by decide) (Mod.sameBut_mono (Mod.fsat_sameBut _ _ _ _ _) (by decide))
  · exact Mod.sameBut_step (Mod.dropObj_sameBut _ _) (by decide) (Mod.sameBut_mono (Mod.fsat_sameBut _ _ _ _ _) (by decide))

theorem Mod.evictFor_sameBut (a0 : Option Nat) (a1 : Nat) (a2 : Nat) (m : Mod) : Mod.sameBut [.regs, .pool] m (Mod.evictFor a0 a1 a2 m) := by
  induction a2 generalizing m with
  | zero => exact Mod.sameBut_refl _ _
  | succ k ih =>
    unfold Mod.evictFor
    split
    · exact Mod.sameBut_refl _ _
    · split
      · exact Mod.sameBut_trans (Mod.evictOne_some ‹_›) (ih _)
      · exact Mod.sameBut_refl _ _

theorem Mod.moveUpTry_sameBut (m : Mod) (a1 : Nat) (a2 : PoolWant) : Mod.sameBut [.regs, .mem, .pool] m (Mod.moveUpTry m a1 a2).1 := by
  unfold Mod.moveUpTry
  repeat'
    first
      | with_reducible exact Mod.sameBut_refl _ _
      | with_reducible assumption
      | (extract_lets +onlyGivenNames y; first | (refine Mod.sameBut_cut y (fun hy => ?_) ?_; rotate_left; subst y; rotate_left; clear_value y) | (refine Mod.sameBut_cut_fst y (fun hy => ?_) ?_; rotate_left; subst y; rotate_left; clear_value y) | clear_value y)
      | ((with_reducible apply Mod.sameBut_step (Mod.setObj_sameBut _ _ _)); decide)
      | ((with_reducible apply Mod.sameBut_step (Mod.fsat_sameBut _ _ _ _ _)); decide)
      | ((with_reducible apply Mod.sameBut_step (Mod.evictFor_sameBut _ _ _ _)); decide)
      | ((with_reducible apply Mod.sameBut_step (Mod.openRuns_sameBut _ _)); decide)
      | split
      | dsimp only
      | ((with_reducible apply Mod.sameBut_mk); rotate_left; all_goals (try (intro hp; first | exact (hp (by decide)).elim | rfl)))

theorem Mod.retryWaits_sameBut (m : Mod) : Mod.sameBut [.regs, .mem, .pool] m (Mod.retryWaits m) := by
  unfold Mod.retryWaits
  repeat'
    first
      | with_reducible exact Mod.sameBut_refl _ _
      | with_reducible assumption
      | (extract_lets +onlyGivenNames y; first | (refine Mod.sameBut_cut y (fun hy => ?_) ?_; rotate_left; subst y; rotate_left; clear_value y) | (refine Mod.sameBut_cut_fst y (fun hy => ?_) ?_; rotate_left; subst y; rotate_left; clear_value y) | clear_value y)
      | ((with_reducible apply Mod.sameBut_step (Mod.moveUpTry_sameBut _ _ _)); decide)
      | split
      | ((with_reducible apply Mod.sameBut_foldl); intro x e)
      | ((with_reducible apply Mod.sameBut_foldl_fst); intro x e)
      | dsimp only
      | ((with_reducible apply Mod.sameBut_mk); rotate_left; all_goals (try (intro hp; first | exact (hp (by decide)).elim | rfl)))

theorem Mod.bindPass_sameBut (m : Mod) (a1 : Nat) : Mod.sameBut [.groom] m (Mod.bindPass m a1) := by
  unfold Mod.bindPass
  repeat'
    first
      | with_reducible exact Mod.sameBut_refl _ _
      | with_reducible assumption
      | (extract_lets +onlyGivenNames y; first | (refine Mod.sameBut_cut y (fun hy => ?_) ?_; rotate_left; subst y; rotate_left; clear_value y) | (refine Mod.sameBut_cut_fst y (fun hy => ?_) ?_; rotate_left; subst y; rotate_left; clear_value y) | clear_value y)
      | ((with_reducible apply Mod.sameBut_step (Mod.setGroom_sameBut _ _ _)); decide)
      | split
      | dsimp only

theorem Mod.writeBack_sameBut (m : Mod) (a1 : Nat) (a2 : PoolObj) : Mod.sameBut [.regs, .pool, .groom] m (Mod.writeBack m a1 a2) := by
  unfold Mod.writeBack
  repeat'
    first
      | with_reducible exact Mod.sameBut_refl _ _
      | with_reducible assumption
      | (extract_lets +onlyGivenNames y; first | (refine Mod.sameBut_cut y (fun hy => ?_) ?_; rotate_left; subst y; rotate_left; clear_value y) | (refine Mod.sameBut_cut_fst y (fun hy => ?_) ?_; rotate_left; subst y; rotate_left; clear_value y) | clear_value y)
      | ((with_reducible apply Mod.sameBut_step (Mod.bindPass_sameBut _ _)); decide)
      | ((with_reducible apply Mod.sameBut_step (Mod.fsat_sameBut _ _ _ _ _)); decide)
      | ((with_reducible apply Mod.sameBut_step (Mod.setObj_sameBut _ _ _)); decide)
      | split
      | dsimp only

theorem Mod.unpin_sameBut (m : Mod) (a1 : Nat) : Mod.sameBut [.regs, .mem, .pool, .groom] m (Mod.unpin m a1) := by
  unfold Mod.unpin
  repeat'
    first
      | with_reducible exact Mod.sameBut_refl _ _
      | with_reducible assumption
      | (extract_lets +onlyGivenNames y; first | (refine Mod.sameBut_cut y (fun hy => ?_) ?_; rotate_left; subst y; rotate_left; clear_value y) | (refine Mod.sameBut_cut_fst y (fun hy => ?_) ?_; rotate_left; subst y; rotate_left; clear_value y) | clear_value y)
      | ((with_reducible apply Mod.sameBut_step (Mod.retryWaits_sameBut _)); decide)
      | ((with_reducible apply Mod.sameBut_step (Mod.writeBack_sameBut _ _ _)); decide)
      | ((with_reducible apply Mod.sameBut_step (Mod.setObj_sameBut _ _ _)); decide)
      | split
      | dsimp only

theorem Mod.tileUnpin_sameBut (m : Mod) (a1 : StreamDesc) (a2 : TileRun) : Mod.sameBut [.regs, .mem, .pool, .groom] m (Mod.tileUnpin m a1 a2) := by
  unfold Mod.tileUnpin
  repeat'
    first
      | with_reducible exact Mod.sameBut_refl _ _
      | with_reducible assumption
      | (extract_lets +onlyGivenNames y; first | (refine Mod.sameBut_cut y (fun hy => ?_) ?_; rotate_left; subst y; rotate_left; clear_value y) | (refine Mod.sameBut_cut_fst y (fun hy => ?_) ?_; rotate_left; subst y; rotate_left; clear_value y) | clear_value y)
      | ((with_reducible apply Mod.sameBut_step (Mod.unpin_sameBut _ _)); decide)
      | split
      | ((with_reducible apply Mod.sameBut_foldl); intro x e)
      | ((with_reducible apply Mod.sameBut_foldl_fst); intro x e)
      | dsimp only
      | ((with_reducible apply Mod.sameBut_mk); rotate_left; all_goals (try (intro hp; first | exact (hp (by decide)).elim | rfl)))

theorem Mod.setEngine_sameBut (m : Mod) (a1 : Nat) (a2 : StmEngine) : Mod.sameBut [.stm] m (Mod.setEngine m a1 a2) := by
  unfold Mod.setEngine
  repeat'
    first
      | with_reducible exact Mod.sameBut_refl _ _
      | with_reducible assumption
      | (extract_lets +onlyGivenNames y; first | (refine Mod.sameBut_cut y (fun hy => ?_) ?_; rotate_left; subst y; rotate_left; clear_value y) | (refine Mod.sameBut_cut_fst y (fun hy => ?_) ?_; rotate_left; subst y; rotate_left; clear_value y) | clear_value y)
      | split
      | dsimp only
      | ((with_reducible apply Mod.sameBut_mk); rotate_left; all_goals (try (intro hp; first | exact (hp (by decide)).elim | rfl)))

theorem Mod.dropReads_sameBut (m : Mod) (a1 : List Nat) : Mod.sameBut [.fab] m (Mod.dropReads m a1) := by
  unfold Mod.dropReads
  repeat'
    first
      | with_reducible exact Mod.sameBut_refl _ _
      | with_reducible assumption
      | (extract_lets +onlyGivenNames y; first | (refine Mod.sameBut_cut y (fun hy => ?_) ?_; rotate_left; subst y; rotate_left; clear_value y) | (refine Mod.sameBut_cut_fst y (fun hy => ?_) ?_; rotate_left; subst y; rotate_left; clear_value y) | clear_value y)
      | split
      | ((with_reducible apply Mod.sameBut_foldl); intro x e)
      | ((with_reducible apply Mod.sameBut_foldl_fst); intro x e)
      | dsimp only
      | ((with_reducible apply Mod.sameBut_mk); rotate_left; all_goals (try (intro hp; first | exact (hp (by decide)).elim | rfl)))

theorem Mod.tilesAbandon_sameBut (m : Mod) (a1 : StreamDesc) (a2 : List TileRun) : Mod.sameBut [.regs, .mem, .pool, .stm, .groom, .fab] m (Mod.tilesAbandon m a1 a2) := by
  unfold Mod.tilesAbandon
  repeat'
    first
      | with_reducible exact Mod.sameBut_refl _ _
      | with_reducible assumption
      | (extract_lets +onlyGivenNames y; first | (refine Mod.sameBut_cut y (fun hy => ?_) ?_; rotate_left; subst y; rotate_left; clear_value y) | (refine Mod.sameBut_cut_fst y (fun hy => ?_) ?_; rotate_left; subst y; rotate_left; clear_value y) | clear_value y)
      | ((with_reducible apply Mod.sameBut_step (Mod.dropReads_sameBut _ _)); decide)
      | ((with_reducible apply Mod.sameBut_step (Mod.tileUnpin_sameBut _ _ _)); decide)
      | ((with_reducible apply Mod.sameBut_step (Mod.setEngine_sameBut _ _ _)); decide)
      | split
      | ((with_reducible apply Mod.sameBut_foldl); intro x e)
      | ((with_reducible apply Mod.sameBut_foldl_fst); intro x e)
      | dsimp only

theorem Mod.emptyOf_sameBut (m : Mod) (a1 : StreamDesc) (a2 : Win → Bool) : Mod.sameBut [.stm] m (Mod.emptyOf m a1 a2) := by
  unfold Mod.emptyOf
  repeat'
    first
      | with_reducible exact Mod.sameBut_refl _ _
      | with_reducible assumption
      | (extract_lets +onlyGivenNames y; first | (refine Mod.sameBut_cut y (fun hy => ?_) ?_; rotate_left; subst y; rotate_left; clear_value y) | (refine Mod.sameBut_cut_fst y (fun hy => ?_) ?_; rotate_left; subst y; rotate_left; clear_value y) | clear_value y)
      | split
      | dsimp only
      | ((with_reducible apply Mod.sameBut_mk); rotate_left; all_goals (try (intro hp; first | exact (hp (by decide)).elim | rfl)))

theorem Mod.ctxReplay_sameBut (m : Mod) (a1 : StreamDesc) : Mod.sameBut [.regs, .mem, .pool, .stm, .groom, .chk, .fab] m (Mod.ctxReplay m a1) := by
  unfold Mod.ctxReplay
  repeat'
    first
      | with_reducible exact Mod.sameBut_refl _ _
      | with_reducible assumption
      | (extract_lets +onlyGivenNames y; first | (refine Mod.sameBut_cut y (fun hy => ?_) ?_; rotate_left; subst y; rotate_left; clear_value y) | (refine Mod.sameBut_cut_fst y (fun hy => ?_) ?_; rotate_left; subst y; rotate_left; clear_value y) | clear_value y)
      | ((with_reducible apply Mod.sameBut_step (Mod.emptyOf_sameBut _ _ _)); decide)
      | ((with_reducible apply Mod.sameBut_step (Mod.tilesAbandon_sameBut _ _ _)); decide)
      | ((with_reducible apply Mod.sameBut_step (Mod.snoopAbandon_sameBut _ _)); decide)
      | ((with_reducible apply Mod.sameBut_step (Mod.setCtx_sameBut _ _ _)); decide)
      | split
      | dsimp only

theorem Mod.stmReplay_sameBut (m : Mod) : Mod.sameBut [.regs, .mem, .pool, .stm, .groom, .chk, .fab] m (Mod.stmReplay m) := by
  unfold Mod.stmReplay
  repeat'
    first
      | with_reducible exact Mod.sameBut_refl _ _
      | with_reducible assumption
      | (extract_lets +onlyGivenNames y; first | (refine Mod.sameBut_cut y (fun hy => ?_) ?_; rotate_left; subst y; rotate_left; clear_value y) | (refine Mod.sameBut_cut_fst y (fun hy => ?_) ?_; rotate_left; subst y; rotate_left; clear_value y) | clear_value y)
      | ((with_reducible apply Mod.sameBut_step (Mod.ctxReplay_sameBut _ _)); decide)
      | split
      | ((with_reducible apply Mod.sameBut_foldl); intro x e)
      | ((with_reducible apply Mod.sameBut_foldl_fst); intro x e)
      | dsimp only

theorem Mod.replayBegin_sameBut (m : Mod) (a1 : VerdictRec) : Mod.sameBut [.regs, .sched, .step, .mem, .pool, .stm, .groom, .coll, .chk, .fab] m (Mod.replayBegin m a1) := by
  unfold Mod.replayBegin
  repeat'
    first
      | with_reducible exact Mod.sameBut_refl _ _
      | with_reducible assumption
      | (extract_lets +onlyGivenNames y; first | (refine Mod.sameBut_cut y (fun hy => ?_) ?_; rotate_left; subst y; rotate_left; clear_value y) | (refine Mod.sameBut_cut_fst y (fun hy => ?_) ?_; rotate_left; subst y; rotate_left; clear_value y) | clear_value y)
      | ((with_reducible apply Mod.sameBut_step (Mod.stmReplay_sameBut _)); decide)
      | ((with_reducible apply Mod.sameBut_step (Mod.collReplay_sameBut _)); decide)
      | split
      | dsimp only
      | ((with_reducible apply Mod.sameBut_mk); rotate_left; all_goals (try (intro hp; first | exact (hp (by decide)).elim | rfl)))

theorem Mod.stepBoundary_sameBut (m : Mod) : Mod.sameBut [.regs, .sched, .step, .mem, .pool, .stm, .groom, .coll, .chk, .fab] m (Mod.stepBoundary m) := by
  unfold Mod.stepBoundary
  repeat'
    first
      | with_reducible exact Mod.sameBut_refl _ _
      | with_reducible assumption
      | (extract_lets +onlyGivenNames y; first | (refine Mod.sameBut_cut y (fun hy => ?_) ?_; rotate_left; subst y; rotate_left; clear_value y) | (refine Mod.sameBut_cut_fst y (fun hy => ?_) ?_; rotate_left; subst y; rotate_left; clear_value y) | clear_value y)
      | ((with_reducible apply Mod.sameBut_step (Mod.replayBegin_sameBut _ _)); decide)
      | ((with_reducible apply Mod.sameBut_step (Mod.actionsEnd_sameBut _)); decide)
      | ((with_reducible apply Mod.sameBut_step (Mod.gatesAll_sameBut _)); decide)
      | split
      | dsimp only

theorem Mod.slip_sameBut (m : Mod) (a1 : StableRec) (a2 : StableRun) (a3 : FrameNow) (a4 : Nat) (a5 : Bool) : Mod.sameBut [.regs, .evIn, .sched, .step, .dbg] m (Mod.slip m a1 a2 a3 a4 a5) := by
  unfold Mod.slip
  repeat'
    first
      | with_reducible exact Mod.sameBut_refl _ _
      | with_reducible assumption
      | (extract_lets +onlyGivenNames y; first | (refine Mod.sameBut_cut y (fun hy => ?_) ?_; rotate_left; subst y; rotate_left; clear_value y) | (refine Mod.sameBut_cut_fst y (fun hy => ?_) ?_; rotate_left; subst y; rotate_left; clear_value y) | clear_value y)
      | ((with_reducible apply Mod.sameBut_step (Mod.fsat_sameBut _ _ _ _ _)); decide)
      | ((with_reducible apply Mod.sameBut_step (Mod.fset_sameBut _ _ _ _ _)); decide)
      | ((with_reducible apply Mod.sameBut_step (Mod.trace_sameBut _ _ _ _ _ _ _)); decide)
      | ((with_reducible apply Mod.sameBut_step (Mod.setStable_sameBut _ _ _)); decide)
      | ((with_reducible apply Mod.sameBut_step (Mod.raise_sameBut _ _ _ _ _ _ _)); decide)
      | ((with_reducible apply Mod.sameBut_step (Mod.fault_sameBut _ _)); decide)
      | split
      | dsimp only

theorem Mod.endStables_sameBut (m : Mod) : Mod.sameBut [.sched] m (Mod.endStables m) := by
  unfold Mod.endStables
  repeat'
    first
      | with_reducible exact Mod.sameBut_refl _ _
      | with_reducible assumption
      | (extract_lets +onlyGivenNames y; first | (refine Mod.sameBut_cut y (fun hy => ?_) ?_; rotate_left; subst y; rotate_left; clear_value y) | (refine Mod.sameBut_cut_fst y (fun hy => ?_) ?_; rotate_left; subst y; rotate_left; clear_value y) | clear_value y)
      | split
      | dsimp only
      | ((with_reducible apply Mod.sameBut_mk); rotate_left; all_goals (try (intro hp; first | exact (hp (by decide)).elim | rfl)))

theorem Mod.passGates_sameBut (a0 : List Frame) (a1 : Nat) (a2 : Nat) (m : Mod) : Mod.sameBut [.sched] m (Mod.passGates a0 a1 a2 m) := by
  induction a2 generalizing m with
  | zero => exact Mod.sameBut_refl _ _
  | succ k ih =>
    unfold Mod.passGates
    repeat' split
    all_goals first
      | exact Mod.sameBut_refl _ _
      | exact Mod.sameBut_trans (Mod.sameBut_trans (Mod.setStable_sameBut _ _ _) (Mod.signal_sameBut _ _)) (ih _)

theorem Mod.winUsed_sameBut (m : Mod) (a1 : Nat) : Mod.sameBut [.stm] m (Mod.winUsed m a1) := by
  unfold Mod.winUsed
  repeat'
    first
      | with_reducible exact Mod.sameBut_refl _ _
      | with_reducible assumption
      | (extract_lets +onlyGivenNames y; first | (refine Mod.sameBut_cut y (fun hy => ?_) ?_; rotate_left; subst y; rotate_left; clear_value y) | (refine Mod.sameBut_cut_fst y (fun hy => ?_) ?_; rotate_left; subst y; rotate_left; clear_value y) | clear_value y)
      | ((with_reducible apply Mod.sameBut_step (Mod.emptyWin_sameBut _ _)); decide)
      | ((with_reducible apply Mod.sameBut_step (Mod.setWin_sameBut _ _ _)); decide)
      | split
      | dsimp only

theorem Mod.frameDone_sameBut (m : Mod) (a1 : StableRec) : Mod.sameBut [.sched, .stm] m (Mod.frameDone m a1) := by
  unfold Mod.frameDone
  repeat'
    first
      | with_reducible exact Mod.sameBut_refl _ _
      | with_reducible assumption
      | (extract_lets +onlyGivenNames y; first | (refine Mod.sameBut_cut y (fun hy => ?_) ?_; rotate_left; subst y; rotate_left; clear_value y) | (refine Mod.sameBut_cut_fst y (fun hy => ?_) ?_; rotate_left; subst y; rotate_left; clear_value y) | clear_value y)
      | ((with_reducible apply Mod.sameBut_step (Mod.winUsed_sameBut _ _)); decide)
      | ((with_reducible apply Mod.sameBut_step (Mod.signal_sameBut _ _)); decide)
      | ((with_reducible apply Mod.sameBut_step (Mod.setStable_sameBut _ _ _)); decide)
      | split
      | dsimp only

theorem Mod.frameStart_sameBut (m : Mod) (a1 : StableRec) (a2 : StableRun) (a3 : FrameNow) : Mod.sameBut [.regs, .sched, .cores, .pad, .stm, .dbg] m (Mod.frameStart m a1 a2 a3) := by
  unfold Mod.frameStart
  repeat'
    first
      | with_reducible exact Mod.sameBut_refl _ _
      | with_reducible assumption
      | (extract_lets +onlyGivenNames y; first | (refine Mod.sameBut_cut y (fun hy => ?_) ?_; rotate_left; subst y; rotate_left; clear_value y) | (refine Mod.sameBut_cut_fst y (fun hy => ?_) ?_; rotate_left; subst y; rotate_left; clear_value y) | clear_value y)
      | ((with_reducible apply Mod.sameBut_step (Mod.fset_sameBut _ _ _ _ _)); decide)
      | ((with_reducible apply Mod.sameBut_step (Mod.setStable_sameBut _ _ _)); decide)
      | ((with_reducible apply Mod.sameBut_step (Mod.beginRecompute_sameBut _ _)); decide)
      | ((with_reducible apply Mod.sameBut_step (Mod.trace_sameBut _ _ _ _ _ _ _)); decide)
      | ((with_reducible apply Mod.sameBut_step (Mod.frameDone_sameBut _ _)); decide)
      | ((with_reducible apply Mod.sameBut_step (Mod.setCore_sameBut _ _ _)); decide)
      | split
      | ((with_reducible apply Mod.sameBut_foldl); intro x e)
      | ((with_reducible apply Mod.sameBut_foldl_fst); intro x e)
      | dsimp only

theorem Mod.frameBoundary_sameBut (m : Mod) : Mod.sameBut [.regs, .evIn, .sched, .cores, .step, .pad, .stm, .dbg] m (Mod.frameBoundary m) := by
  unfold Mod.frameBoundary
  repeat'
    first
      | with_reducible exact Mod.sameBut_refl _ _
      | with_reducible assumption
      | (extract_lets +onlyGivenNames y; first | (refine Mod.sameBut_cut y (fun hy => ?_) ?_; rotate_left; subst y; rotate_left; clear_value y) | (refine Mod.sameBut_cut_fst y (fun hy => ?_) ?_; rotate_left; subst y; rotate_left; clear_value y) | clear_value y)
      | ((with_reducible apply Mod.sameBut_step (Mod.endStables_sameBut _)); decide)
      | ((with_reducible apply Mod.sameBut_step (Mod.passGates_sameBut _ _ _ _)); decide)
      | ((with_reducible apply Mod.sameBut_step (Mod.slip_sameBut _ _ _ _ _ _)); decide)
      | ((with_reducible apply Mod.sameBut_step (Mod.frameStart_sameBut _ _ _ _)); decide)
      | split
      | ((with_reducible apply Mod.sameBut_foldl); intro x e)
      | ((with_reducible apply Mod.sameBut_foldl_fst); intro x e)
      | dsimp only

theorem Mod.countTicks_sameBut (m : Mod) : Mod.sameBut [.pwr, .cores, .step] m (Mod.countTicks m) := by
  unfold Mod.countTicks
  repeat'
    first
      | with_reducible exact Mod.sameBut_refl _ _
      | with_reducible assumption
      | (extract_lets +onlyGivenNames y; first | (refine Mod.sameBut_cut y (fun hy => ?_) ?_; rotate_left; subst y; rotate_left; clear_value y) | (refine Mod.sameBut_cut_fst y (fun hy => ?_) ?_; rotate_left; subst y; rotate_left; clear_value y) | clear_value y)
      | split
      | dsimp only
      | ((with_reducible apply Mod.sameBut_mk); rotate_left; all_goals (try (intro hp; first | exact (hp (by decide)).elim | rfl)))

theorem Mod.fabUtil_sameBut (m : Mod) : Mod.sameBut [.regs, .fab] m (Mod.fabUtil m) := by
  unfold Mod.fabUtil
  repeat'
    first
      | with_reducible exact Mod.sameBut_refl _ _
      | with_reducible assumption
      | (extract_lets +onlyGivenNames y; first | (refine Mod.sameBut_cut y (fun hy => ?_) ?_; rotate_left; subst y; rotate_left; clear_value y) | (refine Mod.sameBut_cut_fst y (fun hy => ?_) ?_; rotate_left; subst y; rotate_left; clear_value y) | clear_value y)
      | ((with_reducible apply Mod.sameBut_step (Mod.setPort_sameBut _ _ _)); decide)
      | ((with_reducible apply Mod.sameBut_step (Mod.fset_sameBut _ _ _ _ _)); decide)
      | split
      | ((with_reducible apply Mod.sameBut_foldl); intro x e)
      | ((with_reducible apply Mod.sameBut_foldl_fst); intro x e)
      | dsimp only

end Sys2Proof.Machine
end

