-- ==== Sys2Proof/Laws/Frames3.lean ====
section
/-! SUPPORT. What each operation of the module changes, part 3 of 6: `f_sameBut` names the parts of the module that operation `f` may
change (an operation that answers a module and something beside it: its first part). The operations stand before those that use them. -/

namespace Sys2Proof.Machine

theorem Mod.endIndex_sameBut (m : Mod) : Mod.sameBut [.sched] m (Mod.endIndex m) := by
  unfold Mod.endIndex
  repeat'
    first
      | with_reducible exact Mod.sameBut_refl _ _
      | with_reducible assumption
      | (extract_lets +onlyGivenNames y; first | (refine Mod.sameBut_cut y (fun hy => ?_) ?_; rotate_left; subst y; rotate_left; clear_value y) | (refine Mod.sameBut_cut_fst y (fun hy => ?_) ?_; rotate_left; subst y; rotate_left; clear_value y) | clear_value y)
      | split
      | dsimp only
      | ((with_reducible apply Mod.sameBut_mk); rotate_left; all_goals (try (intro hp; first | exact (hp (by decide)).elim | rfl)))

theorem Mod.unitBoundary_sameBut (m : Mod) : Mod.sameBut [.regs, .evIn, .pwr, .sched, .cores, .step, .mem, .pool, .pad, .stm, .groom, .coll, .chk, .fab, .dbg] m (Mod.unitBoundary m) := by
  unfold Mod.unitBoundary
  repeat'
    first
      | with_reducible exact Mod.sameBut_refl _ _
      | with_reducible assumption
      | (extract_lets +onlyGivenNames y; first | (refine Mod.sameBut_cut y (fun hy => ?_) ?_; rotate_left; subst y; rotate_left; clear_value y) | (refine Mod.sameBut_cut_fst y (fun hy => ?_) ?_; rotate_left; subst y; rotate_left; clear_value y) | clear_value y)
      | ((with_reducible apply Mod.sameBut_step (Mod.collProgress_sameBut _ _)); decide)
      | ((with_reducible apply Mod.sameBut_step (Mod.fabUtil_sameBut _)); decide)
      | ((with_reducible apply Mod.sameBut_step (Mod.frameBoundary_sameBut _)); decide)
      | ((with_reducible apply Mod.sameBut_step (Mod.stepBoundary_sameBut _)); decide)
      | ((with_reducible apply Mod.sameBut_step (Mod.endIndex_sameBut _)); decide)
      | ((with_reducible apply Mod.sameBut_step (Mod.countTicks_sameBut _)); decide)
      | split
      | dsimp only
      | ((with_reducible apply Mod.sameBut_mk); rotate_left; all_goals (try (intro hp; first | exact (hp (by decide)).elim | rfl)))

theorem Mod.cancelActivation_sameBut (m : Mod) : Mod.sameBut [.regs, .evIn, .host, .plt] m (Mod.cancelActivation m) := by
  unfold Mod.cancelActivation
  repeat'
    first
      | with_reducible exact Mod.sameBut_refl _ _
      | with_reducible assumption
      | (extract_lets +onlyGivenNames y; first | (refine Mod.sameBut_cut y (fun hy => ?_) ?_; rotate_left; subst y; rotate_left; clear_value y) | (refine Mod.sameBut_cut_fst y (fun hy => ?_) ?_; rotate_left; subst y; rotate_left; clear_value y) | clear_value y)
      | ((with_reducible apply Mod.sameBut_step (Mod.cancelPending_sameBut _)); decide)
      | split
      | dsimp only

theorem Mod.portsPower_sameBut (m : Mod) : Mod.sameBut [.regs, .evIn, .fab, .dbg] m (Mod.portsPower m) := by
  unfold Mod.portsPower
  repeat'
    first
      | with_reducible exact Mod.sameBut_refl _ _
      | with_reducible assumption
      | (extract_lets +onlyGivenNames y; first | (refine Mod.sameBut_cut y (fun hy => ?_) ?_; rotate_left; subst y; rotate_left; clear_value y) | (refine Mod.sameBut_cut_fst y (fun hy => ?_) ?_; rotate_left; subst y; rotate_left; clear_value y) | clear_value y)
      | ((with_reducible apply Mod.sameBut_step (Mod.portTo_sameBut _ _ _ _)); decide)
      | split
      | ((with_reducible apply Mod.sameBut_foldl); intro x e)
      | ((with_reducible apply Mod.sameBut_foldl_fst); intro x e)
      | dsimp only

theorem Mod.freeze_sameBut (m : Mod) : Mod.sameBut [.regs, .evIn, .host, .plt, .fab, .dbg] m (Mod.freeze m) := by
  unfold Mod.freeze
  repeat'
    first
      | with_reducible exact Mod.sameBut_refl _ _
      | with_reducible assumption
      | (extract_lets +onlyGivenNames y; first | (refine Mod.sameBut_cut y (fun hy => ?_) ?_; rotate_left; subst y; rotate_left; clear_value y) | (refine Mod.sameBut_cut_fst y (fun hy => ?_) ?_; rotate_left; subst y; rotate_left; clear_value y) | clear_value y)
      | ((with_reducible apply Mod.sameBut_step (Mod.fset_sameBut _ _ _ _ _)); decide)
      | ((with_reducible apply Mod.sameBut_step (Mod.set64_sameBut _ _ _ _ _)); decide)
      | ((with_reducible apply Mod.sameBut_step (Mod.portsPower_sameBut _)); decide)
      | ((with_reducible apply Mod.sameBut_step (Mod.cancelActivation_sameBut _)); decide)
      | ((with_reducible apply Mod.sameBut_step (Mod.hbmTo_sameBut _ _ _)); decide)
      | split
      | dsimp only
      | ((with_reducible apply Mod.sameBut_mk); rotate_left; all_goals (try (intro hp; first | exact (hp (by decide)).elim | rfl)))

theorem Mod.freezeWaiting_sameBut (m : Mod) : Mod.sameBut [.regs, .evIn, .host, .plt, .fab, .dbg] m (Mod.freezeWaiting m) := by
  unfold Mod.freezeWaiting
  repeat'
    first
      | with_reducible exact Mod.sameBut_refl _ _
      | with_reducible assumption
      | (extract_lets +onlyGivenNames y; first | (refine Mod.sameBut_cut y (fun hy => ?_) ?_; rotate_left; subst y; rotate_left; clear_value y) | (refine Mod.sameBut_cut_fst y (fun hy => ?_) ?_; rotate_left; subst y; rotate_left; clear_value y) | clear_value y)
      | ((with_reducible apply Mod.sameBut_step (Mod.freeze_sameBut _)); decide)
      | split
      | dsimp only

theorem Mod.takeBack_sameBut (m : Mod) : Mod.sameBut [.regs, .evIn, .tick] m (Mod.takeBack m) := by
  unfold Mod.takeBack
  repeat'
    first
      | with_reducible exact Mod.sameBut_refl _ _
      | with_reducible assumption
      | (extract_lets +onlyGivenNames y; first | (refine Mod.sameBut_cut y (fun hy => ?_) ?_; rotate_left; subst y; rotate_left; clear_value y) | (refine Mod.sameBut_cut_fst y (fun hy => ?_) ?_; rotate_left; subst y; rotate_left; clear_value y) | clear_value y)
      | ((with_reducible apply Mod.sameBut_step (Mod.moveUpstream_sameBut _ _)); decide)
      | split
      | dsimp only

theorem Mod.rampStep_sameBut (m : Mod) : Mod.sameBut [.pwr] m (Mod.rampStep m) := by
  unfold Mod.rampStep
  repeat'
    first
      | with_reducible exact Mod.sameBut_refl _ _
      | with_reducible assumption
      | (extract_lets +onlyGivenNames y; first | (refine Mod.sameBut_cut y (fun hy => ?_) ?_; rotate_left; subst y; rotate_left; clear_value y) | (refine Mod.sameBut_cut_fst y (fun hy => ?_) ?_; rotate_left; subst y; rotate_left; clear_value y) | clear_value y)
      | split
      | dsimp only
      | ((with_reducible apply Mod.sameBut_mk); rotate_left; all_goals (try (intro hp; first | exact (hp (by decide)).elim | rfl)))

theorem Mod.setBudget_sameBut (m : Mod) : Mod.sameBut [.regs] m (Mod.setBudget m) := by
  unfold Mod.setBudget
  repeat'
    first
      | with_reducible exact Mod.sameBut_refl _ _
      | with_reducible assumption
      | (extract_lets +onlyGivenNames y; first | (refine Mod.sameBut_cut y (fun hy => ?_) ?_; rotate_left; subst y; rotate_left; clear_value y) | (refine Mod.sameBut_cut_fst y (fun hy => ?_) ?_; rotate_left; subst y; rotate_left; clear_value y) | clear_value y)
      | ((with_reducible apply Mod.sameBut_step (Mod.fset_sameBut _ _ _ _ _)); decide)
      | split
      | dsimp only

theorem Mod.setDuties_sameBut (m : Mod) (a1 : Prod Nat Nat) : Mod.sameBut [.regs] m (Mod.setDuties m a1) := by
  unfold Mod.setDuties
  repeat'
    first
      | with_reducible exact Mod.sameBut_refl _ _
      | with_reducible assumption
      | (extract_lets +onlyGivenNames y; first | (refine Mod.sameBut_cut y (fun hy => ?_) ?_; rotate_left; subst y; rotate_left; clear_value y) | (refine Mod.sameBut_cut_fst y (fun hy => ?_) ?_; rotate_left; subst y; rotate_left; clear_value y) | clear_value y)
      | ((with_reducible apply Mod.sameBut_step (Mod.fset_sameBut _ _ _ _ _)); decide)
      | split
      | dsimp only

theorem Mod.govern_sameBut (m : Mod) (a1 : Nat) : Mod.sameBut [.regs, .pwr] m (Mod.govern m a1) := by
  unfold Mod.govern
  repeat'
    first
      | with_reducible exact Mod.sameBut_refl _ _
      | with_reducible assumption
      | (extract_lets +onlyGivenNames y; first | (refine Mod.sameBut_cut y (fun hy => ?_) ?_; rotate_left; subst y; rotate_left; clear_value y) | (refine Mod.sameBut_cut_fst y (fun hy => ?_) ?_; rotate_left; subst y; rotate_left; clear_value y) | clear_value y)
      | ((with_reducible apply Mod.sameBut_step (Mod.setDuties_sameBut _ _)); decide)
      | split
      | dsimp only
      | ((with_reducible apply Mod.sameBut_mk); rotate_left; all_goals (try (intro hp; first | exact (hp (by decide)).elim | rfl)))

theorem Mod.governBoundary_sameBut (m : Mod) (a1 : Nat) : Mod.sameBut [.regs, .pwr] m (Mod.governBoundary m a1) := by
  unfold Mod.governBoundary
  repeat'
    first
      | with_reducible exact Mod.sameBut_refl _ _
      | with_reducible assumption
      | (extract_lets +onlyGivenNames y; first | (refine Mod.sameBut_cut y (fun hy => ?_) ?_; rotate_left; subst y; rotate_left; clear_value y) | (refine Mod.sameBut_cut_fst y (fun hy => ?_) ?_; rotate_left; subst y; rotate_left; clear_value y) | clear_value y)
      | ((with_reducible apply Mod.sameBut_step (Mod.setBudget_sameBut _)); decide)
      | ((with_reducible apply Mod.sameBut_step (Mod.fset_sameBut _ _ _ _ _)); decide)
      | ((with_reducible apply Mod.sameBut_step (Mod.rampStep_sameBut _)); decide)
      | ((with_reducible apply Mod.sameBut_step (Mod.govern_sameBut _ _)); decide)
      | split
      | dsimp only

theorem Mod.markersSeen_sameBut (m : Mod) : Mod.sameBut [.tick] m (Mod.markersSeen m) := by
  unfold Mod.markersSeen
  repeat'
    first
      | with_reducible exact Mod.sameBut_refl _ _
      | with_reducible assumption
      | (extract_lets +onlyGivenNames y; first | (refine Mod.sameBut_cut y (fun hy => ?_) ?_; rotate_left; subst y; rotate_left; clear_value y) | (refine Mod.sameBut_cut_fst y (fun hy => ?_) ?_; rotate_left; subst y; rotate_left; clear_value y) | clear_value y)
      | split
      | dsimp only
      | ((with_reducible apply Mod.sameBut_mk); rotate_left; all_goals (try (intro hp; first | exact (hp (by decide)).elim | rfl)))

theorem Mod.tickCount_sameBut (m : Mod) : Mod.sameBut [.host, .tick] m (Mod.tickCount m) := by
  unfold Mod.tickCount
  repeat'
    first
      | with_reducible exact Mod.sameBut_refl _ _
      | with_reducible assumption
      | (extract_lets +onlyGivenNames y; first | (refine Mod.sameBut_cut y (fun hy => ?_) ?_; rotate_left; subst y; rotate_left; clear_value y) | (refine Mod.sameBut_cut_fst y (fun hy => ?_) ?_; rotate_left; subst y; rotate_left; clear_value y) | clear_value y)
      | ((with_reducible apply Mod.sameBut_step (Mod.emit_sameBut _ _)); decide)
      | split
      | dsimp only
      | ((with_reducible apply Mod.sameBut_mk); rotate_left; all_goals (try (intro hp; first | exact (hp (by decide)).elim | rfl)))

theorem Mod.takePeriod_sameBut (m : Mod) (a1 : Option Nat) : Mod.sameBut [.regs] m (Mod.takePeriod m a1) := by
  unfold Mod.takePeriod
  repeat'
    first
      | with_reducible exact Mod.sameBut_refl _ _
      | with_reducible assumption
      | (extract_lets +onlyGivenNames y; first | (refine Mod.sameBut_cut y (fun hy => ?_) ?_; rotate_left; subst y; rotate_left; clear_value y) | (refine Mod.sameBut_cut_fst y (fun hy => ?_) ?_; rotate_left; subst y; rotate_left; clear_value y) | clear_value y)
      | ((with_reducible apply Mod.sameBut_step (Mod.fset_sameBut _ _ _ _ _)); decide)
      | split
      | dsimp only

theorem Mod.portBoundary_sameBut (m : Mod) : Mod.sameBut [.fab] m (Mod.portBoundary m) := by
  unfold Mod.portBoundary
  repeat'
    first
      | with_reducible exact Mod.sameBut_refl _ _
      | with_reducible assumption
      | (extract_lets +onlyGivenNames y; first | (refine Mod.sameBut_cut y (fun hy => ?_) ?_; rotate_left; subst y; rotate_left; clear_value y) | (refine Mod.sameBut_cut_fst y (fun hy => ?_) ?_; rotate_left; subst y; rotate_left; clear_value y) | clear_value y)
      | split
      | dsimp only
      | ((with_reducible apply Mod.sameBut_mk); rotate_left; all_goals (try (intro hp; first | exact (hp (by decide)).elim | rfl)))

theorem Mod.followUp_sameBut (m : Mod) : Mod.sameBut [.regs, .evIn, .tick] m (Mod.followUp m) := by
  unfold Mod.followUp
  repeat'
    first
      | with_reducible exact Mod.sameBut_refl _ _
      | with_reducible assumption
      | (extract_lets +onlyGivenNames y; first | (refine Mod.sameBut_cut y (fun hy => ?_) ?_; rotate_left; subst y; rotate_left; clear_value y) | (refine Mod.sameBut_cut_fst y (fun hy => ?_) ?_; rotate_left; subst y; rotate_left; clear_value y) | clear_value y)
      | ((with_reducible apply Mod.sameBut_step (Mod.moveUpstream_sameBut _ _)); decide)
      | split
      | dsimp only

theorem Mod.boundary_sameBut (m : Mod) (a1 : Nat) : Mod.sameBut [.regs, .evIn, .host, .pwr, .tick, .plt, .sched, .cores, .step, .mem, .pool, .pad, .stm, .groom, .coll, .chk, .fab, .dbg] m (Mod.boundary m a1) := by
  unfold Mod.boundary
  repeat'
    first
      | with_reducible exact Mod.sameBut_refl _ _
      | with_reducible assumption
      | (extract_lets +onlyGivenNames y; first | (refine Mod.sameBut_cut y (fun hy => ?_) ?_; rotate_left; subst y; rotate_left; clear_value y) | (refine Mod.sameBut_cut_fst y (fun hy => ?_) ?_; rotate_left; subst y; rotate_left; clear_value y) | clear_value y)
      | ((with_reducible apply Mod.sameBut_step (Mod.freezeWaiting_sameBut _)); decide)
      | ((with_reducible apply Mod.sameBut_step (Mod.perTick_sameBut _)); decide)
      | ((with_reducible apply Mod.sameBut_step (Mod.tickCount_sameBut _)); decide)
      | ((with_reducible apply Mod.sameBut_step (Mod.portBoundary_sameBut _)); decide)
      | ((with_reducible apply Mod.sameBut_step (Mod.unitBoundary_sameBut _)); decide)
      | ((with_reducible apply Mod.sameBut_step (Mod.governBoundary_sameBut _ _)); decide)
      | ((with_reducible apply Mod.sameBut_step (Mod.takePeriod_sameBut _ _)); decide)
      | ((with_reducible apply Mod.sameBut_step (Mod.followUp_sameBut _)); decide)
      | ((with_reducible apply Mod.sameBut_step (Mod.takeBack_sameBut _)); decide)
      | ((with_reducible apply Mod.sameBut_step (Mod.markersSeen_sameBut _)); decide)
      | split
      | dsimp only
      | ((with_reducible apply Mod.sameBut_mk); rotate_left; all_goals (try (intro hp; first | exact (hp (by decide)).elim | rfl)))

theorem Mod.bpHit_sameBut (m : Mod) (a1 : Nat) (a2 : Nat) (a3 : Nat) (a4 : StableRec) : Mod.sameBut [.regs, .evIn, .cores, .dbg] m (Mod.bpHit m a1 a2 a3 a4) := by
  unfold Mod.bpHit
  repeat'
    first
      | with_reducible exact Mod.sameBut_refl _ _
      | with_reducible assumption
      | (extract_lets +onlyGivenNames y; first | (refine Mod.sameBut_cut y (fun hy => ?_) ?_; rotate_left; subst y; rotate_left; clear_value y) | (refine Mod.sameBut_cut_fst y (fun hy => ?_) ?_; rotate_left; subst y; rotate_left; clear_value y) | clear_value y)
      | ((with_reducible apply Mod.sameBut_step (Mod.haltCore_sameBut _ _ _)); decide)
      | ((with_reducible apply Mod.sameBut_step (Mod.haltCores_sameBut _ _ _)); decide)
      | ((with_reducible apply Mod.sameBut_step (Mod.haltDevice_sameBut _ _)); decide)
      | ((with_reducible apply Mod.sameBut_step (Mod.raise_sameBut _ _ _ _ _ _ _)); decide)
      | split
      | dsimp only

theorem Mod.bufferFlit_sameBut (m : Mod) (a1 : TFlit) : Mod.sameBut [.coll] m (Mod.bufferFlit m a1) := by
  unfold Mod.bufferFlit
  repeat'
    first
      | with_reducible exact Mod.sameBut_refl _ _
      | with_reducible assumption
      | (extract_lets +onlyGivenNames y; first | (refine Mod.sameBut_cut y (fun hy => ?_) ?_; rotate_left; subst y; rotate_left; clear_value y) | (refine Mod.sameBut_cut_fst y (fun hy => ?_) ?_; rotate_left; subst y; rotate_left; clear_value y) | clear_value y)
      | split
      | dsimp only
      | ((with_reducible apply Mod.sameBut_mk); rotate_left; all_goals (try (intro hp; first | exact (hp (by decide)).elim | rfl)))

theorem Mod.cancelFor_sameBut (m : Mod) (a1 : Nat) : Mod.sameBut [.regs, .evIn, .host, .plt] m (Mod.cancelFor m a1) := by
  unfold Mod.cancelFor
  repeat'
    first
      | with_reducible exact Mod.sameBut_refl _ _
      | with_reducible assumption
      | (extract_lets +onlyGivenNames y; first | (refine Mod.sameBut_cut y (fun hy => ?_) ?_; rotate_left; subst y; rotate_left; clear_value y) | (refine Mod.sameBut_cut_fst y (fun hy => ?_) ?_; rotate_left; subst y; rotate_left; clear_value y) | clear_value y)
      | ((with_reducible apply Mod.sameBut_step (Mod.cancelPending_sameBut _)); decide)
      | split
      | dsimp only

theorem Mod.lockedWrite_sameBut (m : Mod) (a1 : RegSpec) (a2 : Nat) (a3 : Nat) : Mod.sameBut [.evIn] m (Mod.lockedWrite m a1 a2 a3) := by
  unfold Mod.lockedWrite
  repeat'
    first
      | with_reducible exact Mod.sameBut_refl _ _
      | with_reducible assumption
      | (extract_lets +onlyGivenNames y; first | (refine Mod.sameBut_cut y (fun hy => ?_) ?_; rotate_left; subst y; rotate_left; clear_value y) | (refine Mod.sameBut_cut_fst y (fun hy => ?_) ?_; rotate_left; subst y; rotate_left; clear_value y) | clear_value y)
      | ((with_reducible apply Mod.sameBut_step (Mod.raise_sameBut _ _ _ _ _ _ _)); decide)
      | split
      | dsimp only

theorem Mod.wordWrite_sameBut (m : Mod) (a1 : RegSpec) (a2 : Nat) (a3 : Nat) (a4 : Nat) (a5 : optParam Nat 0) : Mod.sameBut [.regs, .evIn] m (Mod.wordWrite m a1 a2 a3 a4 a5) := by
  unfold Mod.wordWrite
  repeat'
    first
      | with_reducible exact Mod.sameBut_refl _ _
      | with_reducible assumption
      | (extract_lets +onlyGivenNames y; first | (refine Mod.sameBut_cut y (fun hy => ?_) ?_; rotate_left; subst y; rotate_left; clear_value y) | (refine Mod.sameBut_cut_fst y (fun hy => ?_) ?_; rotate_left; subst y; rotate_left; clear_value y) | clear_value y)
      | ((with_reducible apply Mod.sameBut_step (Mod.lockedWrite_sameBut _ _ _ _)); decide)
      | split
      | dsimp only
      | ((with_reducible apply Mod.sameBut_mk); rotate_left; all_goals (try (intro hp; first | exact (hp (by decide)).elim | rfl)))

theorem Mod.mgmtRefused_sameBut (m : Mod) (a1 : Path) (a2 : Nat) : Mod.sameBut [.evIn] m (Mod.mgmtRefused m a1 a2) := by
  unfold Mod.mgmtRefused
  repeat'
    first
      | with_reducible exact Mod.sameBut_refl _ _
      | with_reducible assumption
      | (extract_lets +onlyGivenNames y; first | (refine Mod.sameBut_cut y (fun hy => ?_) ?_; rotate_left; subst y; rotate_left; clear_value y) | (refine Mod.sameBut_cut_fst y (fun hy => ?_) ?_; rotate_left; subst y; rotate_left; clear_value y) | clear_value y)
      | ((with_reducible apply Mod.sameBut_step (Mod.raise_sameBut _ _ _ _ _ _ _)); decide)
      | split
      | dsimp only

theorem Mod.profileRefused_sameBut (m : Mod) (a1 : Path) (a2 : Nat) (a3 : Nat) (a4 : Nat) : Mod.sameBut [.regs, .evIn] m (Mod.profileRefused m a1 a2 a3 a4) := by
  unfold Mod.profileRefused
  repeat'
    first
      | with_reducible exact Mod.sameBut_refl _ _
      | with_reducible assumption
      | (extract_lets +onlyGivenNames y; first | (refine Mod.sameBut_cut y (fun hy => ?_) ?_; rotate_left; subst y; rotate_left; clear_value y) | (refine Mod.sameBut_cut_fst y (fun hy => ?_) ?_; rotate_left; subst y; rotate_left; clear_value y) | clear_value y)
      | ((with_reducible apply Mod.sameBut_step (Mod.mgmtRefused_sameBut _ _ _)); decide)
      | ((with_reducible apply Mod.sameBut_step (Mod.raise_sameBut _ _ _ _ _ _ _)); decide)
      | ((with_reducible apply Mod.sameBut_step (Mod.fset_sameBut _ _ _ _ _)); decide)
      | split
      | dsimp only

theorem Mod.capWrite_sameBut (m : Mod) (a1 : Path) (a2 : Nat) : Mod.sameBut [.regs, .evIn] m (Mod.capWrite m a1 a2) := by
  unfold Mod.capWrite
  repeat'
    first
      | with_reducible exact Mod.sameBut_refl _ _
      | with_reducible assumption
      | (extract_lets +onlyGivenNames y; first | (refine Mod.sameBut_cut y (fun hy => ?_) ?_; rotate_left; subst y; rotate_left; clear_value y) | (refine Mod.sameBut_cut_fst y (fun hy => ?_) ?_; rotate_left; subst y; rotate_left; clear_value y) | clear_value y)
      | ((with_reducible apply Mod.sameBut_step (Mod.profileRefused_sameBut _ _ _ _ _)); decide)
      | ((with_reducible apply Mod.sameBut_step (Mod.wordWrite_sameBut _ _ _ _ _ _)); decide)
      | split
      | dsimp only

theorem Mod.takeVerdict_sameBut (m : Mod) (a1 : VerdictRec) : Mod.sameBut [.step] m (Mod.takeVerdict m a1) := by
  unfold Mod.takeVerdict
  repeat'
    first
      | with_reducible exact Mod.sameBut_refl _ _
      | with_reducible assumption
      | (extract_lets +onlyGivenNames y; first | (refine Mod.sameBut_cut y (fun hy => ?_) ?_; rotate_left; subst y; rotate_left; clear_value y) | (refine Mod.sameBut_cut_fst y (fun hy => ?_) ?_; rotate_left; subst y; rotate_left; clear_value y) | clear_value y)
      | split
      | dsimp only
      | ((with_reducible apply Mod.sameBut_mk); rotate_left; all_goals (try (intro hp; first | exact (hp (by decide)).elim | rfl)))

theorem Mod.stepMismatch_sameBut (m : Mod) (a1 : Nat) (a2 : Nat) : Mod.sameBut [.evIn, .step] m (Mod.stepMismatch m a1 a2) := by
  unfold Mod.stepMismatch
  repeat'
    first
      | with_reducible exact Mod.sameBut_refl _ _
      | with_reducible assumption
      | (extract_lets +onlyGivenNames y; first | (refine Mod.sameBut_cut y (fun hy => ?_) ?_; rotate_left; subst y; rotate_left; clear_value y) | (refine Mod.sameBut_cut_fst y (fun hy => ?_) ?_; rotate_left; subst y; rotate_left; clear_value y) | clear_value y)
      | ((with_reducible apply Mod.sameBut_step (Mod.raiseStep_sameBut _ _ _ _ _ _)); decide)
      | split
      | dsimp only

theorem Mod.faultVerdict_sameBut (m : Mod) (a1 : RedRec) : Mod.sameBut [.fresh] m (Mod.faultVerdict m a1).1 := by
  unfold Mod.faultVerdict
  repeat'
    first
      | with_reducible exact Mod.sameBut_refl _ _
      | with_reducible assumption
      | (extract_lets +onlyGivenNames y; first | (refine Mod.sameBut_cut y (fun hy => ?_) ?_; rotate_left; subst y; rotate_left; clear_value y) | (refine Mod.sameBut_cut_fst y (fun hy => ?_) ?_; rotate_left; subst y; rotate_left; clear_value y) | clear_value y)
      | split
      | dsimp only
      | ((with_reducible apply Mod.sameBut_mk); rotate_left; all_goals (try (intro hp; first | exact (hp (by decide)).elim | rfl)))

theorem Mod.formVerdict_sameBut (m : Mod) (a1 : RedRec) : Mod.sameBut [.evIn, .step, .fresh] m (Mod.formVerdict m a1).1 := by
  unfold Mod.formVerdict
  repeat'
    first
      | with_reducible exact Mod.sameBut_refl _ _
      | with_reducible assumption
      | (extract_lets +onlyGivenNames y; first | (refine Mod.sameBut_cut y (fun hy => ?_) ?_; rotate_left; subst y; rotate_left; clear_value y) | (refine Mod.sameBut_cut_fst y (fun hy => ?_) ?_; rotate_left; subst y; rotate_left; clear_value y) | subst y)
      | ((with_reducible apply Mod.sameBut_step (Mod.faultVerdict_sameBut _ _)); decide)
      | ((with_reducible apply Mod.sameBut_step (Mod.stepMismatch_sameBut _ _ _)); decide)
      | ((with_reducible apply Mod.sameBut_step (Mod.raiseStep_sameBut _ _ _ _ _ _)); decide)
      | split
      | dsimp only
      | ((with_reducible apply Mod.sameBut_mk); rotate_left; all_goals (try (intro hp; first | exact (hp (by decide)).elim | rfl)))

theorem Mod.normProgress_sameBut (m : Mod) : Mod.sameBut [.regs, .evIn, .step, .fab, .fresh] m (Mod.normProgress m) := by
  unfold Mod.normProgress
  repeat'
    first
      | with_reducible exact Mod.sameBut_refl _ _
      | with_reducible assumption
      | (extract_lets +onlyGivenNames y; first | (refine Mod.sameBut_cut y (fun hy => ?_) ?_; rotate_left; subst y; rotate_left; clear_value y) | (refine Mod.sameBut_cut_fst y (fun hy => ?_) ?_; rotate_left; subst y; rotate_left; clear_value y) | clear_value y)
      | ((with_reducible apply Mod.sameBut_step (Mod.formVerdict_sameBut _ _)); decide)
      | ((with_reducible apply Mod.sameBut_step (Mod.takeVerdict_sameBut _ _)); decide)
      | ((with_reducible apply Mod.sameBut_step (Mod.originate_sameBut _ _)); decide)
      | split
      | ((with_reducible apply Mod.sameBut_foldl); intro x e)
      | ((with_reducible apply Mod.sameBut_foldl_fst); intro x e)
      | dsimp only
      | ((with_reducible apply Mod.sameBut_mk); rotate_left; all_goals (try (intro hp; first | exact (hp (by decide)).elim | rfl)))

theorem Mod.childRecord_sameBut (m : Mod) (a1 : Nat) (a2 : RedRec) : Mod.sameBut [.regs, .evIn, .step, .fab, .fresh] m (Mod.childRecord m a1 a2) := by
  unfold Mod.childRecord
  repeat'
    first
      | with_reducible exact Mod.sameBut_refl _ _
      | with_reducible assumption
      | (extract_lets +onlyGivenNames y; first | (refine Mod.sameBut_cut y (fun hy => ?_) ?_; rotate_left; subst y; rotate_left; clear_value y) | (refine Mod.sameBut_cut_fst y (fun hy => ?_) ?_; rotate_left; subst y; rotate_left; clear_value y) | clear_value y)
      | ((with_reducible apply Mod.sameBut_step (Mod.stepMismatch_sameBut _ _ _)); decide)
      | ((with_reducible apply Mod.sameBut_step (Mod.normProgress_sameBut _)); decide)
      | split
      | dsimp only
      | ((with_reducible apply Mod.sameBut_mk); rotate_left; all_goals (try (intro hp; first | exact (hp (by decide)).elim | rfl)))

theorem Mod.forBits_sameBut (m : Mod) (a1 : Fld) (a2 : Nat) (a3 : optParam Nat 0) (a4 : optParam Nat 0) : Mod.sameBut [.regs] m (Mod.forBits m a1 a2 a3 a4) := by
  unfold Mod.forBits
  repeat'
    first
      | with_reducible exact Mod.sameBut_refl _ _
      | with_reducible assumption
      | (extract_lets +onlyGivenNames y; first | (refine Mod.sameBut_cut y (fun hy => ?_) ?_; rotate_left; subst y; rotate_left; clear_value y) | (refine Mod.sameBut_cut_fst y (fun hy => ?_) ?_; rotate_left; subst y; rotate_left; clear_value y) | clear_value y)
      | ((with_reducible apply Mod.sameBut_step (Mod.fset_sameBut _ _ _ _ _)); decide)
      | split
      | dsimp only

theorem Mod.chkEvent_sameBut (m : Mod) (a1 : Nat) (a2 : ChkRun) (a3 : Nat) (a4 : Nat) (a5 : Nat) (a6 : Nat) : Mod.sameBut [.evIn, .step] m (Mod.chkEvent m a1 a2 a3 a4 a5 a6) := by
  unfold Mod.chkEvent
  repeat'
    first
      | with_reducible exact Mod.sameBut_refl _ _
      | with_reducible assumption
      | (extract_lets +onlyGivenNames y; first | (refine Mod.sameBut_cut y (fun hy => ?_) ?_; rotate_left; subst y; rotate_left; clear_value y) | (refine Mod.sameBut_cut_fst y (fun hy => ?_) ?_; rotate_left; subst y; rotate_left; clear_value y) | clear_value y)
      | ((with_reducible apply Mod.sameBut_step (Mod.raiseStep_sameBut _ _ _ _ _ _)); decide)
      | ((with_reducible apply Mod.sameBut_step (Mod.raise_sameBut _ _ _ _ _ _ _)); decide)
      | split
      | dsimp only

theorem Mod.chkEnd_sameBut (m : Mod) (a1 : Nat) (a2 : ChkRun) (a3 : Nat) : Mod.sameBut [.regs, .evIn, .host, .sched, .step, .chk] m (Mod.chkEnd m a1 a2 a3) := by
  unfold Mod.chkEnd
  repeat'
    first
      | with_reducible exact Mod.sameBut_refl _ _
      | with_reducible assumption
      | (extract_lets +onlyGivenNames y; first | (refine Mod.sameBut_cut y (fun hy => ?_) ?_; rotate_left; subst y; rotate_left; clear_value y) | (refine Mod.sameBut_cut_fst y (fun hy => ?_) ?_; rotate_left; subst y; rotate_left; clear_value y) | clear_value y)
      | ((with_reducible apply Mod.sameBut_step (Mod.set64_sameBut _ _ _ _ _)); decide)
      | ((with_reducible apply Mod.sameBut_step (Mod.fset_sameBut _ _ _ _ _)); decide)
      | ((with_reducible apply Mod.sameBut_step (Mod.chkEvent_sameBut _ _ _ _ _ _ _)); decide)
      | ((with_reducible apply Mod.sameBut_step (Mod.forBits_sameBut _ _ _ _ _)); decide)
      | ((with_reducible apply Mod.sameBut_step (Mod.signal_sameBut _ _)); decide)
      | ((with_reducible apply Mod.sameBut_step (Mod.msix_sameBut _ _)); decide)
      | split
      | dsimp only
      | ((with_reducible apply Mod.sameBut_mk); rotate_left; all_goals (try (intro hp; first | exact (hp (by decide)).elim | rfl)))

theorem Mod.chkAbort_sameBut (m : Mod) (a1 : Nat) : Mod.sameBut [.regs, .evIn, .host, .sched, .step, .chk] m (Mod.chkAbort m a1) := by
  unfold Mod.chkAbort
  repeat'
    first
      | with_reducible exact Mod.sameBut_refl _ _
      | with_reducible assumption
      | (extract_lets +onlyGivenNames y; first | (refine Mod.sameBut_cut y (fun hy => ?_) ?_; rotate_left; subst y; rotate_left; clear_value y) | (refine Mod.sameBut_cut_fst y (fun hy => ?_) ?_; rotate_left; subst y; rotate_left; clear_value y) | clear_value y)
      | ((with_reducible apply Mod.sameBut_step (Mod.chkEnd_sameBut _ _ _ _)); decide)
      | split
      | dsimp only

theorem Mod.chkRefused_sameBut (m : Mod) (a1 : Nat) (a2 : Nat) (a3 : Nat) : Mod.sameBut [.regs, .evIn] m (Mod.chkRefused m a1 a2 a3) := by
  unfold Mod.chkRefused
  repeat'
    first
      | with_reducible exact Mod.sameBut_refl _ _
      | with_reducible assumption
      | (extract_lets +onlyGivenNames y; first | (refine Mod.sameBut_cut y (fun hy => ?_) ?_; rotate_left; subst y; rotate_left; clear_value y) | (refine Mod.sameBut_cut_fst y (fun hy => ?_) ?_; rotate_left; subst y; rotate_left; clear_value y) | clear_value y)
      | ((with_reducible apply Mod.sameBut_step (Mod.raise_sameBut _ _ _ _ _ _ _)); decide)
      | ((with_reducible apply Mod.sameBut_step (Mod.forBits_sameBut _ _ _ _ _)); decide)
      | split
      | dsimp only

theorem Mod.setChk_sameBut (m : Mod) (a1 : Nat) (a2 : ChkRun) : Mod.sameBut [.chk] m (Mod.setChk m a1 a2) := by
  unfold Mod.setChk
  repeat'
    first
      | with_reducible exact Mod.sameBut_refl _ _
      | with_reducible assumption
      | (extract_lets +onlyGivenNames y; first | (refine Mod.sameBut_cut y (fun hy => ?_) ?_; rotate_left; subst y; rotate_left; clear_value y) | (refine Mod.sameBut_cut_fst y (fun hy => ?_) ?_; rotate_left; subst y; rotate_left; clear_value y) | clear_value y)
      | split
      | dsimp only
      | ((with_reducible apply Mod.sameBut_mk); rotate_left; all_goals (try (intro hp; first | exact (hp (by decide)).elim | rfl)))

theorem Mod.chkScan_sameBut (m : Mod) (a1 : Nat) (a2 : Ecc) : Mod.sameBut [.regs, .evIn, .cores, .step, .mem, .chk, .dbg] m (Mod.chkScan m a1 a2) := by
  unfold Mod.chkScan
  repeat'
    first
      | with_reducible exact Mod.sameBut_refl _ _
      | with_reducible assumption
      | (extract_lets +onlyGivenNames y; first | (refine Mod.sameBut_cut y (fun hy => ?_) ?_; rotate_left; subst y; rotate_left; clear_value y) | (refine Mod.sameBut_cut_fst y (fun hy => ?_) ?_; rotate_left; subst y; rotate_left; clear_value y) | clear_value y)
      | ((with_reducible apply Mod.sameBut_step (Mod.readDev_sameBut _ _ _ _)); decide)
      | ((with_reducible apply Mod.sameBut_step (Mod.yard_sameBut _ _ _ _ _)); decide)
      | ((with_reducible apply Mod.sameBut_step (Mod.setChk_sameBut _ _ _)); decide)
      | split
      | dsimp only

theorem Mod.chkHostStart_sameBut (m : Mod) (a1 : Nat) (a2 : Ecc) : Mod.sameBut [.regs, .evIn, .cores, .step, .mem, .chk, .dbg] m (Mod.chkHostStart m a1 a2) := by
  unfold Mod.chkHostStart
  repeat'
    first
      | with_reducible exact Mod.sameBut_refl _ _
      | with_reducible assumption
      | (extract_lets +onlyGivenNames y; first | (refine Mod.sameBut_cut y (fun hy => ?_) ?_; rotate_left; subst y; rotate_left; clear_value y) | (refine Mod.sameBut_cut_fst y (fun hy => ?_) ?_; rotate_left; subst y; rotate_left; clear_value y) | clear_value y)
      | ((with_reducible apply Mod.sameBut_step (Mod.chkRefused_sameBut _ _ _ _)); decide)
      | ((with_reducible apply Mod.sameBut_step (Mod.chkScan_sameBut _ _ _)); decide)
      | ((with_reducible apply Mod.sameBut_step (Mod.setChk_sameBut _ _ _)); decide)
      | split
      | dsimp only

theorem Mod.chkShow_sameBut (m : Mod) (a1 : Nat) (a2 : ChkJob) : Mod.sameBut [.regs] m (Mod.chkShow m a1 a2) := by
  unfold Mod.chkShow
  repeat'
    first
      | with_reducible exact Mod.sameBut_refl _ _
      | with_reducible assumption
      | (extract_lets +onlyGivenNames y; first | (refine Mod.sameBut_cut y (fun hy => ?_) ?_; rotate_left; subst y; rotate_left; clear_value y) | (refine Mod.sameBut_cut_fst y (fun hy => ?_) ?_; rotate_left; subst y; rotate_left; clear_value y) | clear_value y)
      | ((with_reducible apply Mod.sameBut_step (Mod.fset_sameBut _ _ _ _ _)); decide)
      | ((with_reducible apply Mod.sameBut_step (Mod.set64_sameBut _ _ _ _ _)); decide)
      | split
      | dsimp only

theorem Mod.chkPlateStart_sameBut (m : Mod) (a1 : Nat) (a2 : Ecc) : Mod.sameBut [.regs, .evIn, .sched, .cores, .step, .mem, .chk, .dbg] m (Mod.chkPlateStart m a1 a2) := by
  unfold Mod.chkPlateStart
  repeat'
    first
      | with_reducible exact Mod.sameBut_refl _ _
      | with_reducible assumption
      | (extract_lets +onlyGivenNames y; first | (refine Mod.sameBut_cut y (fun hy => ?_) ?_; rotate_left; subst y; rotate_left; clear_value y) | (refine Mod.sameBut_cut_fst y (fun hy => ?_) ?_; rotate_left; subst y; rotate_left; clear_value y) | clear_value y)
      | ((with_reducible apply Mod.sameBut_step (Mod.signal_sameBut _ _)); decide)
      | ((with_reducible apply Mod.sameBut_step (Mod.chkRefused_sameBut _ _ _ _)); decide)
      | ((with_reducible apply Mod.sameBut_step (Mod.chkScan_sameBut _ _ _)); decide)
      | ((with_reducible apply Mod.sameBut_step (Mod.setChk_sameBut _ _ _)); decide)
      | ((with_reducible apply Mod.sameBut_step (Mod.chkShow_sameBut _ _ _)); decide)
      | split
      | dsimp only
      | ((with_reducible apply Mod.sameBut_mk); rotate_left; all_goals (try (intro hp; first | exact (hp (by decide)).elim | rfl)))

theorem Mod.poolCopy_sameBut (m : Mod) (a1 : Nat) (a2 : PoolObj) (a3 : Bool) : Mod.sameBut [.regs, .evIn, .cores, .mem, .dbg] m (Mod.poolCopy m a1 a2 a3) := by
  unfold Mod.poolCopy
  repeat'
    first
      | with_reducible exact Mod.sameBut_refl _ _
      | with_reducible assumption
      | (extract_lets +onlyGivenNames y; first | (refine Mod.sameBut_cut y (fun hy => ?_) ?_; rotate_left; subst y; rotate_left; clear_value y) | (refine Mod.sameBut_cut_fst y (fun hy => ?_) ?_; rotate_left; subst y; rotate_left; clear_value y) | clear_value y)
      | ((with_reducible apply Mod.sameBut_step (Mod.yard_sameBut _ _ _ _ _)); decide)
      | ((with_reducible apply Mod.sameBut_step (Mod.devWriteP_sameBut _ _ _)); decide)
      | split
      | ((with_reducible apply Mod.sameBut_foldl); intro x e)
      | ((with_reducible apply Mod.sameBut_foldl_fst); intro x e)
      | dsimp only

theorem Mod.classVector_sameBut (m : Mod) (a1 : EvClass) : Mod.sameBut [.host] m (Mod.classVector m a1) := by
  unfold Mod.classVector
  repeat'
    first
      | with_reducible exact Mod.sameBut_refl _ _
      | with_reducible assumption
      | (extract_lets +onlyGivenNames y; first | (refine Mod.sameBut_cut y (fun hy => ?_) ?_; rotate_left; subst y; rotate_left; clear_value y) | (refine Mod.sameBut_cut_fst y (fun hy => ?_) ?_; rotate_left; subst y; rotate_left; clear_value y) | clear_value y)
      | ((with_reducible apply Mod.sameBut_step (Mod.msix_sameBut _ _)); decide)
      | split
      | dsimp only
      | ((with_reducible apply Mod.sameBut_mk); rotate_left; all_goals (try (intro hp; first | exact (hp (by decide)).elim | rfl)))

theorem Mod.clearPlateMeas_sameBut (m : Mod) : Mod.sameBut [.regs] m (Mod.clearPlateMeas m) := by
  unfold Mod.clearPlateMeas
  repeat'
    first
      | with_reducible exact Mod.sameBut_refl _ _
      | with_reducible assumption
      | (extract_lets +onlyGivenNames y; first | (refine Mod.sameBut_cut y (fun hy => ?_) ?_; rotate_left; subst y; rotate_left; clear_value y) | (refine Mod.sameBut_cut_fst y (fun hy => ?_) ?_; rotate_left; subst y; rotate_left; clear_value y) | clear_value y)
      | ((with_reducible apply Mod.sameBut_step (Mod.setMeas_sameBut _ _ _)); decide)
      | split
      | dsimp only

theorem Mod.clearSlotRegs_sameBut (m : Mod) (a1 : Nat) : Mod.sameBut [.regs] m (Mod.clearSlotRegs m a1) := by
  unfold Mod.clearSlotRegs
  repeat'
    first
      | with_reducible exact Mod.sameBut_refl _ _
      | with_reducible assumption
      | (extract_lets +onlyGivenNames y; first | (refine Mod.sameBut_cut y (fun hy => ?_) ?_; rotate_left; subst y; rotate_left; clear_value y) | (refine Mod.sameBut_cut_fst y (fun hy => ?_) ?_; rotate_left; subst y; rotate_left; clear_value y) | clear_value y)
      | ((with_reducible apply Mod.sameBut_step (Mod.fset_sameBut _ _ _ _ _)); decide)
      | split
      | ((with_reducible apply Mod.sameBut_foldl); intro x e)
      | ((with_reducible apply Mod.sameBut_foldl_fst); intro x e)
      | dsimp only

theorem Mod.clearUnits_sameBut (m : Mod) : Mod.sameBut [.pwr, .tick, .plt, .sched, .cores, .step, .mem, .pool, .pad, .stm, .groom, .coll, .chk, .fab, .sec, .dbg] m (Mod.clearUnits m) := by
  unfold Mod.clearUnits
  repeat'
    first
      | with_reducible exact Mod.sameBut_refl _ _
      | with_reducible assumption
      | (extract_lets +onlyGivenNames y; first | (refine Mod.sameBut_cut y (fun hy => ?_) ?_; rotate_left; subst y; rotate_left; clear_value y) | (refine Mod.sameBut_cut_fst y (fun hy => ?_) ?_; rotate_left; subst y; rotate_left; clear_value y) | clear_value y)
      | split
      | dsimp only
      | ((with_reducible apply Mod.sameBut_mk); rotate_left; all_goals (try (intro hp; first | exact (hp (by decide)).elim | rfl)))

theorem Mod.cmdDone_sameBut (m : Mod) (a1 : Path) (a2 : Nat) (a3 : Nat) : Mod.sameBut [.regs, .host] m (Mod.cmdDone m a1 a2 a3) := by
  unfold Mod.cmdDone
  repeat'
    first
      | with_reducible exact Mod.sameBut_refl _ _
      | with_reducible assumption
      | (extract_lets +onlyGivenNames y; first | (refine Mod.sameBut_cut y (fun hy => ?_) ?_; rotate_left; subst y; rotate_left; clear_value y) | (refine Mod.sameBut_cut_fst y (fun hy => ?_) ?_; rotate_left; subst y; rotate_left; clear_value y) | clear_value y)
      | ((with_reducible apply Mod.sameBut_step (Mod.fset_sameBut _ _ _ _ _)); decide)
      | ((with_reducible apply Mod.sameBut_step (Mod.emit_sameBut _ _)); decide)
      | ((with_reducible apply Mod.sameBut_step (Mod.msix_sameBut _ _)); decide)
      | split
      | dsimp only

theorem Mod.resetCause_sameBut (m : Mod) (a1 : Nat) (a2 : Nat) : Mod.sameBut [.regs] m (Mod.resetCause m a1 a2) := by
  unfold Mod.resetCause
  repeat'
    first
      | with_reducible exact Mod.sameBut_refl _ _
      | with_reducible assumption
      | (extract_lets +onlyGivenNames y; first | (refine Mod.sameBut_cut y (fun hy => ?_) ?_; rotate_left; subst y; rotate_left; clear_value y) | (refine Mod.sameBut_cut_fst y (fun hy => ?_) ?_; rotate_left; subst y; rotate_left; clear_value y) | clear_value y)
      | ((with_reducible apply Mod.sameBut_step (Mod.fset_sameBut _ _ _ _ _)); decide)
      | split
      | dsimp only

theorem Mod.coldBegin_sameBut (m : Mod) (a1 : Nat) : Mod.sameBut [.regs, .evIn, .host, .pwr, .tick, .plt, .sched, .cores, .step, .mem, .pool, .pad, .stm, .groom, .coll, .chk, .fab, .sec, .dbg] m (Mod.coldBegin m a1) := by
  unfold Mod.coldBegin
  repeat'
    first
      | with_reducible exact Mod.sameBut_refl _ _
      | with_reducible assumption
      | (extract_lets +onlyGivenNames y; first | (refine Mod.sameBut_cut y (fun hy => ?_) ?_; rotate_left; subst y; rotate_left; clear_value y) | (refine Mod.sameBut_cut_fst y (fun hy => ?_) ?_; rotate_left; subst y; rotate_left; clear_value y) | clear_value y)
      | ((with_reducible apply Mod.sameBut_step (Mod.resetCause_sameBut _ _ _)); decide)
      | ((with_reducible apply Mod.sameBut_step (Mod.fset_sameBut _ _ _ _ _)); decide)
      | split
      | dsimp only
      | ((with_reducible apply Mod.sameBut_mk); rotate_left; all_goals (try (intro hp; first | exact (hp (by decide)).elim | rfl)))

theorem Mod.selfTest_sameBut (m : Mod) (a1 : Boot) : Mod.sameBut [.regs, .evIn, .sched, .cores, .step] m (Mod.selfTest m a1) := by
  unfold Mod.selfTest
  repeat'
    first
      | with_reducible exact Mod.sameBut_refl _ _
      | with_reducible assumption
      | (extract_lets +onlyGivenNames y; first | (refine Mod.sameBut_cut y (fun hy => ?_) ?_; rotate_left; subst y; rotate_left; clear_value y) | (refine Mod.sameBut_cut_fst y (fun hy => ?_) ?_; rotate_left; subst y; rotate_left; clear_value y) | clear_value y)
      | ((with_reducible apply Mod.sameBut_step (Mod.fenceCore_sameBut _ _ _)); decide)
      | split
      | ((with_reducible apply Mod.sameBut_foldl); intro x e)
      | ((with_reducible apply Mod.sameBut_foldl_fst); intro x e)
      | dsimp only

theorem Mod.raisePrior_sameBut (m : Mod) : Mod.sameBut [.evIn, .pwr] m (Mod.raisePrior m) := by
  unfold Mod.raisePrior
  repeat'
    first
      | with_reducible exact Mod.sameBut_refl _ _
      | with_reducible assumption
      | (extract_lets +onlyGivenNames y; first | (refine Mod.sameBut_cut y (fun hy => ?_) ?_; rotate_left; subst y; rotate_left; clear_value y) | (refine Mod.sameBut_cut_fst y (fun hy => ?_) ?_; rotate_left; subst y; rotate_left; clear_value y) | clear_value y)
      | split
      | ((with_reducible apply Mod.sameBut_foldl); intro x e)
      | ((with_reducible apply Mod.sameBut_foldl_fst); intro x e)
      | dsimp only
      | ((with_reducible apply Mod.sameBut_mk); rotate_left; all_goals (try (intro hp; first | exact (hp (by decide)).elim | rfl)))

theorem Mod.loftReport_sameBut (m : Mod) (a1 : Nat) (a2 : Nat) (a3 : Nat) (a4 : Nat) : Mod.sameBut [.regs] m (Mod.loftReport m a1 a2 a3 a4) := by
  unfold Mod.loftReport
  repeat'
    first
      | with_reducible exact Mod.sameBut_refl _ _
      | with_reducible assumption
      | (extract_lets +onlyGivenNames y; first | (refine Mod.sameBut_cut y (fun hy => ?_) ?_; rotate_left; subst y; rotate_left; clear_value y) | (refine Mod.sameBut_cut_fst y (fun hy => ?_) ?_; rotate_left; subst y; rotate_left; clear_value y) | clear_value y)
      | ((with_reducible apply Mod.sameBut_step (Mod.fset_sameBut _ _ _ _ _)); decide)
      | split
      | dsimp only

theorem Mod.setLoftPort_sameBut (m : Mod) (a1 : Nat) (a2 : LoftPort) : Mod.sameBut [.mem] m (Mod.setLoftPort m a1 a2) := by
  unfold Mod.setLoftPort
  repeat'
    first
      | with_reducible exact Mod.sameBut_refl _ _
      | with_reducible assumption
      | (extract_lets +onlyGivenNames y; first | (refine Mod.sameBut_cut y (fun hy => ?_) ?_; rotate_left; subst y; rotate_left; clear_value y) | (refine Mod.sameBut_cut_fst y (fun hy => ?_) ?_; rotate_left; subst y; rotate_left; clear_value y) | clear_value y)
      | split
      | dsimp only
      | ((with_reducible apply Mod.sameBut_mk); rotate_left; all_goals (try (intro hp; first | exact (hp (by decide)).elim | rfl)))

theorem Mod.heldEnd_sameBut (m : Mod) (a1 : List LoftReq) : Mod.sameBut [.host] m (Mod.heldEnd m a1) := by
  unfold Mod.heldEnd
  repeat'
    first
      | with_reducible exact Mod.sameBut_refl _ _
      | with_reducible assumption
      | (extract_lets +onlyGivenNames y; first | (refine Mod.sameBut_cut y (fun hy => ?_) ?_; rotate_left; subst y; rotate_left; clear_value y) | (refine Mod.sameBut_cut_fst y (fun hy => ?_) ?_; rotate_left; subst y; rotate_left; clear_value y) | clear_value y)
      | ((with_reducible apply Mod.sameBut_step (Mod.emit_sameBut _ _)); decide)
      | split
      | ((with_reducible apply Mod.sameBut_foldl); intro x e)
      | ((with_reducible apply Mod.sameBut_foldl_fst); intro x e)
      | dsimp only

theorem Mod.loftAttach_sameBut (m : Mod) (a1 : Nat) (a2 : Nat) (a3 : Nat) (a4 : Nat) (a5 : Bool) : Mod.sameBut [.regs, .host, .mem] m (Mod.loftAttach m a1 a2 a3 a4 a5) := by
  unfold Mod.loftAttach
  repeat'
    first
      | with_reducible exact Mod.sameBut_refl _ _
      | with_reducible assumption
      | (extract_lets +onlyGivenNames y; first | (refine Mod.sameBut_cut y (fun hy => ?_) ?_; rotate_left; subst y; rotate_left; clear_value y) | (refine Mod.sameBut_cut_fst y (fun hy => ?_) ?_; rotate_left; subst y; rotate_left; clear_value y) | clear_value y)
      | ((with_reducible apply Mod.sameBut_step (Mod.heldEnd_sameBut _ _)); decide)
      | ((with_reducible apply Mod.sameBut_step (Mod.loftReport_sameBut _ _ _ _ _)); decide)
      | ((with_reducible apply Mod.sameBut_step (Mod.set64_sameBut _ _ _ _ _)); decide)
      | ((with_reducible apply Mod.sameBut_step (Mod.setLoftPort_sameBut _ _ _)); decide)
      | split
      | dsimp only

theorem Mod.stackDown_sameBut (m : Mod) (a1 : Nat) (a2 : Nat) : Mod.sameBut [.regs, .evIn] m (Mod.stackDown m a1 a2) := by
  unfold Mod.stackDown
  repeat'
    first
      | with_reducible exact Mod.sameBut_refl _ _
      | with_reducible assumption
      | (extract_lets +onlyGivenNames y; first | (refine Mod.sameBut_cut y (fun hy => ?_) ?_; rotate_left; subst y; rotate_left; clear_value y) | (refine Mod.sameBut_cut_fst y (fun hy => ?_) ?_; rotate_left; subst y; rotate_left; clear_value y) | clear_value y)
      | ((with_reducible apply Mod.sameBut_step (Mod.raise_sameBut _ _ _ _ _ _ _)); decide)
      | ((with_reducible apply Mod.sameBut_step (Mod.fset_sameBut _ _ _ _ _)); decide)
      | split
      | dsimp only

theorem Mod.train_sameBut (m : Mod) (a1 : Boot) : Mod.sameBut [.regs, .evIn, .host, .mem] m (Mod.train m a1) := by
  unfold Mod.train
  repeat'
    first
      | with_reducible exact Mod.sameBut_refl _ _
      | with_reducible assumption
      | (extract_lets +onlyGivenNames y; first | (refine Mod.sameBut_cut y (fun hy => ?_) ?_; rotate_left; subst y; rotate_left; clear_value y) | (refine Mod.sameBut_cut_fst y (fun hy => ?_) ?_; rotate_left; subst y; rotate_left; clear_value y) | clear_value y)
      | ((with_reducible apply Mod.sameBut_step (Mod.stackDown_sameBut _ _ _)); decide)
      | ((with_reducible apply Mod.sameBut_step (Mod.fset_sameBut _ _ _ _ _)); decide)
      | ((with_reducible apply Mod.sameBut_step (Mod.loftReport_sameBut _ _ _ _ _)); decide)
      | ((with_reducible apply Mod.sameBut_step (Mod.loftAttach_sameBut _ _ _ _ _ _)); decide)
      | split
      | ((with_reducible apply Mod.sameBut_foldl); intro x e)
      | ((with_reducible apply Mod.sameBut_foldl_fst); intro x e)
      | dsimp only
      | ((with_reducible apply Mod.sameBut_mk); rotate_left; all_goals (try (intro hp; first | exact (hp (by decide)).elim | rfl)))

theorem Mod.freezePin_sameBut (m : Mod) : Mod.sameBut [.regs, .evIn, .host, .plt, .fab, .dbg] m (Mod.freezePin m) := by
  unfold Mod.freezePin
  repeat'
    first
      | with_reducible exact Mod.sameBut_refl _ _
      | with_reducible assumption
      | (extract_lets +onlyGivenNames y; first | (refine Mod.sameBut_cut y (fun hy => ?_) ?_; rotate_left; subst y; rotate_left; clear_value y) | (refine Mod.sameBut_cut_fst y (fun hy => ?_) ?_; rotate_left; subst y; rotate_left; clear_value y) | clear_value y)
      | ((with_reducible apply Mod.sameBut_step (Mod.freeze_sameBut _)); decide)
      | split
      | dsimp only

theorem Mod.release_sameBut (m : Mod) : Mod.sameBut [.regs, .evIn, .host, .pwr, .plt, .fab, .dbg] m (Mod.release m) := by
  unfold Mod.release
  repeat'
    first
      | with_reducible exact Mod.sameBut_refl _ _
      | with_reducible assumption
      | (extract_lets +onlyGivenNames y; first | (refine Mod.sameBut_cut y (fun hy => ?_) ?_; rotate_left; subst y; rotate_left; clear_value y) | (refine Mod.sameBut_cut_fst y (fun hy => ?_) ?_; rotate_left; subst y; rotate_left; clear_value y) | clear_value y)
      | ((with_reducible apply Mod.sameBut_step (Mod.freezePin_sameBut _)); decide)
      | split
      | dsimp only
      | ((with_reducible apply Mod.sameBut_mk); rotate_left; all_goals (try (intro hp; first | exact (hp (by decide)).elim | rfl)))

theorem Mod.coldEnd_sameBut (m : Mod) (a1 : Boot) : Mod.sameBut [.regs, .evIn, .host, .pwr, .tick, .plt, .sched, .cores, .step, .mem, .fab, .sec, .dbg] m (Mod.coldEnd m a1) := by
  unfold Mod.coldEnd
  repeat'
    first
      | with_reducible exact Mod.sameBut_refl _ _
      | with_reducible assumption
      | (extract_lets +onlyGivenNames y; first | (refine Mod.sameBut_cut y (fun hy => ?_) ?_; rotate_left; subst y; rotate_left; clear_value y) | (refine Mod.sameBut_cut_fst y (fun hy => ?_) ?_; rotate_left; subst y; rotate_left; clear_value y) | clear_value y)
      | ((with_reducible apply Mod.sameBut_step (Mod.release_sameBut _)); decide)
      | ((with_reducible apply Mod.sameBut_step (Mod.raisePrior_sameBut _)); decide)
      | ((with_reducible apply Mod.sameBut_step (Mod.bootChain_sameBut _ _)); decide)
      | ((with_reducible apply Mod.sameBut_step (Mod.train_sameBut _ _)); decide)
      | ((with_reducible apply Mod.sameBut_step (Mod.selfTest_sameBut _ _)); decide)
      | ((with_reducible apply Mod.sameBut_step (Mod.setBudget_sameBut _)); decide)
      | split
      | dsimp only
      | ((with_reducible apply Mod.sameBut_mk); rotate_left; all_goals (try (intro hp; first | exact (hp (by decide)).elim | rfl)))

theorem Mod.collAbandon_sameBut (m : Mod) : Mod.sameBut [.coll] m (Mod.collAbandon m) := by
  unfold Mod.collAbandon
  repeat'
    first
      | with_reducible exact Mod.sameBut_refl _ _
      | with_reducible assumption
      | (extract_lets +onlyGivenNames y; first | (refine Mod.sameBut_cut y (fun hy => ?_) ?_; rotate_left; subst y; rotate_left; clear_value y) | (refine Mod.sameBut_cut_fst y (fun hy => ?_) ?_; rotate_left; subst y; rotate_left; clear_value y) | clear_value y)
      | split
      | dsimp only
      | ((with_reducible apply Mod.sameBut_mk); rotate_left; all_goals (try (intro hp; first | exact (hp (by decide)).elim | rfl)))

theorem Mod.collStale_sameBut (m : Mod) (a1 : TFlit) : Mod.sameBut [.regs, .evIn, .coll] m (Mod.collStale m a1) := by
  unfold Mod.collStale
  repeat'
    first
      | with_reducible exact Mod.sameBut_refl _ _
      | with_reducible assumption
      | (extract_lets +onlyGivenNames y; first | (refine Mod.sameBut_cut y (fun hy => ?_) ?_; rotate_left; subst y; rotate_left; clear_value y) | (refine Mod.sameBut_cut_fst y (fun hy => ?_) ?_; rotate_left; subst y; rotate_left; clear_value y) | clear_value y)
      | ((with_reducible apply Mod.sameBut_step (Mod.fset_sameBut _ _ _ _ _)); decide)
      | ((with_reducible apply Mod.sameBut_step (Mod.fsat_sameBut _ _ _ _ _)); decide)
      | ((with_reducible apply Mod.sameBut_step (Mod.raise_sameBut _ _ _ _ _ _ _)); decide)
      | split
      | dsimp only
      | ((with_reducible apply Mod.sameBut_mk); rotate_left; all_goals (try (intro hp; first | exact (hp (by decide)).elim | rfl)))

theorem Mod.freeEntry_sameBut (m : Mod) (a1 : Nat) (a2 : TFlit) : Mod.sameBut [.fab] m (Mod.freeEntry m a1 a2) := by
  unfold Mod.freeEntry
  repeat'
    first
      | with_reducible exact Mod.sameBut_refl _ _
      | with_reducible assumption
      | (extract_lets +onlyGivenNames y; first | (refine Mod.sameBut_cut y (fun hy => ?_) ?_; rotate_left; subst y; rotate_left; clear_value y) | (refine Mod.sameBut_cut_fst y (fun hy => ?_) ?_; rotate_left; subst y; rotate_left; clear_value y) | clear_value y)
      | ((with_reducible apply Mod.sameBut_step (Mod.setPort_sameBut _ _ _)); decide)
      | split
      | dsimp only

theorem Mod.sendAck_sameBut (m : Mod) (a1 : Nat) (a2 : Nat) : Mod.sameBut [.regs, .evIn, .fab] m (Mod.sendAck m a1 a2) := by
  unfold Mod.sendAck
  repeat'
    first
      | with_reducible exact Mod.sameBut_refl _ _
      | with_reducible assumption
      | (extract_lets +onlyGivenNames y; first | (refine Mod.sameBut_cut y (fun hy => ?_) ?_; rotate_left; subst y; rotate_left; clear_value y) | (refine Mod.sameBut_cut_fst y (fun hy => ?_) ?_; rotate_left; subst y; rotate_left; clear_value y) | clear_value y)
      | ((with_reducible apply Mod.sameBut_step (Mod.place_sameBut _ _ _)); decide)
      | split
      | dsimp only
      | ((with_reducible apply Mod.sameBut_mk); rotate_left; all_goals (try (intro hp; first | exact (hp (by decide)).elim | rfl)))

theorem Mod.applied_sameBut (m : Mod) (a1 : TFlit) : Mod.sameBut [.regs, .evIn, .fab] m (Mod.applied m a1) := by
  unfold Mod.applied
  repeat'
    first
      | with_reducible exact Mod.sameBut_refl _ _
      | with_reducible assumption
      | (extract_lets +onlyGivenNames y; first | (refine Mod.sameBut_cut y (fun hy => ?_) ?_; rotate_left; subst y; rotate_left; clear_value y) | (refine Mod.sameBut_cut_fst y (fun hy => ?_) ?_; rotate_left; subst y; rotate_left; clear_value y) | clear_value y)
      | ((with_reducible apply Mod.sameBut_step (Mod.sendAck_sameBut _ _ _)); decide)
      | split
      | dsimp only
      | ((with_reducible apply Mod.sameBut_mk); rotate_left; all_goals (try (intro hp; first | exact (hp (by decide)).elim | rfl)))

theorem Mod.takeFlit_some {m : Mod} {p : TFlit → Bool} {x : TFlit × Mod} (h : m.takeFlit p = some x) : Mod.sameBut [.regs, .evIn, .fab] m x.2 := by
  unfold Mod.takeFlit at h
  split at h
  · obtain rfl := Option.some.inj h
    refine Mod.sameBut_step (Mod.applied_sameBut _ _) (by decide) (Mod.sameBut_step (Mod.freeEntry_sameBut _ _ _) (by decide) ?_)
    constructor <;> intro hp <;> first | rfl | exact (hp (by decide)).elim
  · cases h

theorem Mod.collFlit_sameBut (m : Mod) (a1 : Ecc) : Mod.sameBut [.regs, .evIn, .sched, .cores, .step, .mem, .groom, .coll, .fab, .dbg] m (Mod.collFlit m a1) := by
  unfold Mod.collFlit
  repeat'
    first
      | with_reducible exact Mod.sameBut_refl _ _
      | with_reducible assumption
      | (extract_lets +onlyGivenNames y; first | (refine Mod.sameBut_cut y (fun hy => ?_) ?_; rotate_left; subst y; rotate_left; clear_value y) | (refine Mod.sameBut_cut_fst y (fun hy => ?_) ?_; rotate_left; subst y; rotate_left; clear_value y) | clear_value y)
      | ((with_reducible apply Mod.sameBut_step (Mod.collProgress_sameBut _ _)); decide)
      | ((with_reducible apply Mod.sameBut_step (Mod.bufferFlit_sameBut _ _)); decide)
      | ((with_reducible apply Mod.sameBut_step (Mod.collStale_sameBut _ _)); decide)
      | ((with_reducible refine Mod.sameBut_mono (Mod.takeFlit_some (m := m) (p := _) (by assumption)) ?_); decide)
      | exact Mod.sameBut_mono (Mod.takeFlit_some (Option.ite_none_left_eq_some.1 ‹_›).2) (by decide)
      | split
      | dsimp only

theorem Mod.collReset_sameBut (m : Mod) : Mod.sameBut [.coll] m (Mod.collReset m) := by
  unfold Mod.collReset
  repeat'
    first
      | with_reducible exact Mod.sameBut_refl _ _
      | with_reducible assumption
      | (extract_lets +onlyGivenNames y; first | (refine Mod.sameBut_cut y (fun hy => ?_) ?_; rotate_left; subst y; rotate_left; clear_value y) | (refine Mod.sameBut_cut_fst y (fun hy => ?_) ?_; rotate_left; subst y; rotate_left; clear_value y) | clear_value y)
      | split
      | dsimp only
      | ((with_reducible apply Mod.sameBut_mk); rotate_left; all_goals (try (intro hp; first | exact (hp (by decide)).elim | rfl)))

theorem Mod.collStart_sameBut (m : Mod) : Mod.sameBut [.coll] m (Mod.collStart m) := by
  unfold Mod.collStart
  repeat'
    first
      | with_reducible exact Mod.sameBut_refl _ _
      | with_reducible assumption
      | (extract_lets +onlyGivenNames y; first | (refine Mod.sameBut_cut y (fun hy => ?_) ?_; rotate_left; subst y; rotate_left; clear_value y) | (refine Mod.sameBut_cut_fst y (fun hy => ?_) ?_; rotate_left; subst y; rotate_left; clear_value y) | clear_value y)
      | split
      | dsimp only
      | ((with_reducible apply Mod.sameBut_mk); rotate_left; all_goals (try (intro hp; first | exact (hp (by decide)).elim | rfl)))

theorem Mod.flipAt_sameBut (m : Mod) (a1 : Nat) : Mod.sameBut [.plt] m (Mod.flipAt m a1) := by
  unfold Mod.flipAt
  repeat'
    first
      | with_reducible exact Mod.sameBut_refl _ _
      | with_reducible assumption
      | (extract_lets +onlyGivenNames y; first | (refine Mod.sameBut_cut y (fun hy => ?_) ?_; rotate_left; subst y; rotate_left; clear_value y) | (refine Mod.sameBut_cut_fst y (fun hy => ?_) ?_; rotate_left; subst y; rotate_left; clear_value y) | clear_value y)
      | split
      | dsimp only
      | ((with_reducible apply Mod.sameBut_mk); rotate_left; all_goals (try (intro hp; first | exact (hp (by decide)).elim | rfl)))

theorem Mod.flipAll_sameBut (m : Mod) (a1 : List Nat) : Mod.sameBut [.plt] m (Mod.flipAll m a1) := by
  unfold Mod.flipAll
  repeat'
    first
      | with_reducible exact Mod.sameBut_refl _ _
      | with_reducible assumption
      | (extract_lets +onlyGivenNames y; first | (refine Mod.sameBut_cut y (fun hy => ?_) ?_; rotate_left; subst y; rotate_left; clear_value y) | (refine Mod.sameBut_cut_fst y (fun hy => ?_) ?_; rotate_left; subst y; rotate_left; clear_value y) | clear_value y)
      | ((with_reducible apply Mod.sameBut_step (Mod.flipAt_sameBut _ _)); decide)
      | split
      | ((with_reducible apply Mod.sameBut_foldl); intro x e)
      | ((with_reducible apply Mod.sameBut_foldl_fst); intro x e)
      | dsimp only

theorem Mod.mergeDev_sameBut (m : Mod) (a1 : Bool) (a2 : Nat) (a3 : Nat) (a4 : Ecc) : Mod.sameBut [.regs, .evIn, .step, .mem] m (Mod.mergeDev m a1 a2 a3 a4) := by
  unfold Mod.mergeDev
  repeat'
    first
      | with_reducible exact Mod.sameBut_refl _ _
      | with_reducible assumption
      | (extract_lets +onlyGivenNames y; first | (refine Mod.sameBut_cut y (fun hy => ?_) ?_; rotate_left; subst y; rotate_left; clear_value y) | (refine Mod.sameBut_cut_fst y (fun hy => ?_) ?_; rotate_left; subst y; rotate_left; clear_value y) | clear_value y)
      | ((with_reducible apply Mod.sameBut_step (Mod.eccDev_sameBut _ _ _ _)); decide)
      | split
      | dsimp only

theorem Mod.writeIdentity_sameBut (m : Mod) (a1 : Precond) (a2 : Ecc) : Mod.sameBut [.regs, .evIn, .step, .mem] m (Mod.writeIdentity m a1 a2) := by
  unfold Mod.writeIdentity
  repeat'
    first
      | with_reducible exact Mod.sameBut_refl _ _
      | with_reducible assumption
      | (extract_lets +onlyGivenNames y; first | (refine Mod.sameBut_cut y (fun hy => ?_) ?_; rotate_left; subst y; rotate_left; clear_value y) | (refine Mod.sameBut_cut_fst y (fun hy => ?_) ?_; rotate_left; subst y; rotate_left; clear_value y) | clear_value y)
      | ((with_reducible apply Mod.sameBut_step (Mod.devWrite_sameBut _ _ _)); decide)
      | ((with_reducible apply Mod.sameBut_step (Mod.mergeDev_sameBut _ _ _ _ _)); decide)
      | split
      | dsimp only

theorem Mod.precondCheck_sameBut (m : Mod) (a1 : Precond) (a2 : Ecc) : Mod.sameBut [.regs, .evIn, .plt, .step, .mem, .groom] m (Mod.precondCheck m a1 a2) := by
  unfold Mod.precondCheck
  repeat'
    first
      | with_reducible exact Mod.sameBut_refl _ _
      | with_reducible assumption
      | (extract_lets +onlyGivenNames y; first | (refine Mod.sameBut_cut y (fun hy => ?_) ?_; rotate_left; subst y; rotate_left; clear_value y) | (refine Mod.sameBut_cut_fst y (fun hy => ?_) ?_; rotate_left; subst y; rotate_left; clear_value y) | clear_value y)
      | ((with_reducible apply Mod.sameBut_step (Mod.unitRead_sameBut _ _ _ _ _)); decide)
      | ((with_reducible apply Mod.sameBut_step (Mod.flipAt_sameBut _ _)); decide)
      | ((with_reducible apply Mod.sameBut_step (Mod.writeIdentity_sameBut _ _ _)); decide)
      | ((with_reducible apply Mod.sameBut_step (Mod.fset_sameBut _ _ _ _ _)); decide)
      | ((with_reducible apply Mod.sameBut_step (Mod.fsat_sameBut _ _ _ _ _)); decide)
      | ((with_reducible apply Mod.sameBut_step (Mod.raise_sameBut _ _ _ _ _ _ _)); decide)
      | split
      | dsimp only
      | ((with_reducible apply Mod.sameBut_mk); rotate_left; all_goals (try (intro hp; first | exact (hp (by decide)).elim | rfl)))

theorem Mod.precondChecks_sameBut (m : Mod) (a1 : Ecc) : Mod.sameBut [.regs, .evIn, .plt, .step, .mem, .groom] m (Mod.precondChecks m a1) := by
  unfold Mod.precondChecks
  repeat'
    first
      | with_reducible exact Mod.sameBut_refl _ _
      | with_reducible assumption
      | (extract_lets +onlyGivenNames y; first | (refine Mod.sameBut_cut y (fun hy => ?_) ?_; rotate_left; subst y; rotate_left; clear_value y) | (refine Mod.sameBut_cut_fst y (fun hy => ?_) ?_; rotate_left; subst y; rotate_left; clear_value y) | clear_value y)
      | ((with_reducible apply Mod.sameBut_step (Mod.precondCheck_sameBut _ _ _)); decide)
      | split
      | ((with_reducible apply Mod.sameBut_foldl); intro x e)
      | ((with_reducible apply Mod.sameBut_foldl_fst); intro x e)
      | dsimp only

theorem Mod.commitActions_sameBut (m : Mod) (a1 : VerdictRec) (a2 : Ecc) : Mod.sameBut [.regs, .evIn, .plt, .step, .mem, .groom] m (Mod.commitActions m a1 a2) := by
  unfold Mod.commitActions
  repeat'
    first
      | with_reducible exact Mod.sameBut_refl _ _
      | with_reducible assumption
      | (extract_lets +onlyGivenNames y; first | (refine Mod.sameBut_cut y (fun hy => ?_) ?_; rotate_left; subst y; rotate_left; clear_value y) | (refine Mod.sameBut_cut_fst y (fun hy => ?_) ?_; rotate_left; subst y; rotate_left; clear_value y) | clear_value y)
      | ((with_reducible apply Mod.sameBut_step (Mod.precondChecks_sameBut _ _)); decide)
      | ((with_reducible apply Mod.sameBut_step (Mod.flipAll_sameBut _ _)); decide)
      | ((with_reducible apply Mod.sameBut_step (Mod.fset_sameBut _ _ _ _ _)); decide)
      | split
      | dsimp only
      | ((with_reducible apply Mod.sameBut_mk); rotate_left; all_goals (try (intro hp; first | exact (hp (by decide)).elim | rfl)))

theorem Mod.opdRead_sameBut (m : Mod) (a1 : Nat) (a2 : Nat) (a3 : StableRec) (a4 : Operand) (a5 : Nat) (a6 : Nat) (a7 : Ecc) : Mod.sameBut [.regs, .evIn, .sched, .cores, .step, .mem, .dbg] m (Mod.opdRead m a1 a2 a3 a4 a5 a6 a7).1 := by
  unfold Mod.opdRead
  repeat'
    first
      | with_reducible exact Mod.sameBut_refl _ _
      | with_reducible assumption
      | (extract_lets +onlyGivenNames y; first | (refine Mod.sameBut_cut y (fun hy => ?_) ?_; rotate_left; subst y; rotate_left; clear_value y) | (refine Mod.sameBut_cut_fst y (fun hy => ?_) ?_; rotate_left; subst y; rotate_left; clear_value y) | clear_value y)
      | ((with_reducible apply Mod.sameBut_step (Mod.unitRead_sameBut _ _ _ _ _)); decide)
      | ((with_reducible apply Mod.sameBut_step (Mod.yard_sameBut _ _ _ _ _)); decide)
      | ((with_reducible apply Mod.sameBut_step (Mod.sramErrors_sameBut _ _ _ _ _)); decide)
      | split
      | dsimp only

theorem Mod.sramWrite_sameBut (m : Mod) (a1 : Nat) (a2 : Nat) (a3 : List Byte) : Mod.sameBut [.mem] m (Mod.sramWrite m a1 a2 a3) := by
  unfold Mod.sramWrite
  repeat'
    first
      | with_reducible exact Mod.sameBut_refl _ _
      | with_reducible assumption
      | (extract_lets +onlyGivenNames y; first | (refine Mod.sameBut_cut y (fun hy => ?_) ?_; rotate_left; subst y; rotate_left; clear_value y) | (refine Mod.sameBut_cut_fst y (fun hy => ?_) ?_; rotate_left; subst y; rotate_left; clear_value y) | clear_value y)
      | split
      | dsimp only
      | ((with_reducible apply Mod.sameBut_mk); rotate_left; all_goals (try (intro hp; first | exact (hp (by decide)).elim | rfl)))

theorem Mod.opdWrite_sameBut (m : Mod) (a1 : Nat) (a2 : StableRec) (a3 : Operand) (a4 : Nat) (a5 : List (Prod Byte Bool)) (a6 : Ecc) : Mod.sameBut [.regs, .evIn, .cores, .step, .mem, .dbg] m (Mod.opdWrite m a1 a2 a3 a4 a5 a6) := by
  unfold Mod.opdWrite
  repeat'
    first
      | with_reducible exact Mod.sameBut_refl _ _
      | with_reducible assumption
      | (extract_lets +onlyGivenNames y; first | (refine Mod.sameBut_cut y (fun hy => ?_) ?_; rotate_left; subst y; rotate_left; clear_value y) | (refine Mod.sameBut_cut_fst y (fun hy => ?_) ?_; rotate_left; subst y; rotate_left; clear_value y) | clear_value y)
      | ((with_reducible apply Mod.sameBut_step (Mod.devWriteP_sameBut _ _ _)); decide)
      | ((with_reducible apply Mod.sameBut_step (Mod.mergeDev_sameBut _ _ _ _ _)); decide)
      | ((with_reducible apply Mod.sameBut_step (Mod.yard_sameBut _ _ _ _ _)); decide)
      | ((with_reducible apply Mod.sameBut_step (Mod.sramWrite_sameBut _ _ _ _)); decide)
      | split
      | dsimp only

theorem Mod.copyWork_sameBut (m : Mod) (a1 : Nat) (a2 : Nat) (a3 : StableRec) (a4 : Kernel) (a5 : Ecc) : Mod.sameBut [.regs, .evIn, .sched, .cores, .step, .mem, .dbg] m (Mod.copyWork m a1 a2 a3 a4 a5) := by
  unfold Mod.copyWork
  repeat'
    first
      | with_reducible exact Mod.sameBut_refl _ _
      | with_reducible assumption
      | (extract_lets +onlyGivenNames y; first | (refine Mod.sameBut_cut y (fun hy => ?_) ?_; rotate_left; subst y; rotate_left; clear_value y) | (refine Mod.sameBut_cut_fst y (fun hy => ?_) ?_; rotate_left; subst y; rotate_left; clear_value y) | clear_value y)
      | ((with_reducible apply Mod.sameBut_step (Mod.opdRead_sameBut _ _ _ _ _ _ _ _)); decide)
      | ((with_reducible apply Mod.sameBut_step (Mod.opdWrite_sameBut _ _ _ _ _ _ _)); decide)
      | split
      | ((with_reducible apply Mod.sameBut_foldl); intro x e)
      | ((with_reducible apply Mod.sameBut_foldl_fst); intro x e)
      | dsimp only

theorem Mod.coreElem_sameBut (m : Mod) (a1 : Nat) (a2 : ElemInstr) : Mod.sameBut [.cores] m (Mod.coreElem m a1 a2) := by
  unfold Mod.coreElem
  repeat'
    first
      | with_reducible exact Mod.sameBut_refl _ _
      | with_reducible assumption
      | (extract_lets +onlyGivenNames y; first | (refine Mod.sameBut_cut y (fun hy => ?_) ?_; rotate_left; subst y; rotate_left; clear_value y) | (refine Mod.sameBut_cut_fst y (fun hy => ?_) ?_; rotate_left; subst y; rotate_left; clear_value y) | clear_value y)
      | ((with_reducible apply Mod.sameBut_step (Mod.setCore_sameBut _ _ _)); decide)
      | split
      | dsimp only

theorem Mod.coreEnd_sameBut (m : Mod) (a1 : Nat) : Mod.sameBut [.regs, .evIn, .sched, .cores, .step, .mem] m (Mod.coreEnd m a1) := by
  unfold Mod.coreEnd
  repeat'
    first
      | with_reducible exact Mod.sameBut_refl _ _
      | with_reducible assumption
      | (extract_lets +onlyGivenNames y; first | (refine Mod.sameBut_cut y (fun hy => ?_) ?_; rotate_left; subst y; rotate_left; clear_value y) | (refine Mod.sameBut_cut_fst y (fun hy => ?_) ?_; rotate_left; subst y; rotate_left; clear_value y) | clear_value y)
      | ((with_reducible apply Mod.sameBut_step (Mod.sramErrors_sameBut _ _ _ _ _)); decide)
      | ((with_reducible apply Mod.sameBut_step (Mod.kernelResult_sameBut _ _ _)); decide)
      | ((with_reducible apply Mod.sameBut_step (Mod.setCore_sameBut _ _ _)); decide)
      | ((with_reducible apply Mod.sameBut_step (Mod.workDone_sameBut _ _)); decide)
      | split
      | dsimp only

theorem Mod.countDrop_sameBut (m : Mod) : Mod.sameBut [.regs] m (Mod.countDrop m) := by
  unfold Mod.countDrop
  repeat'
    first
      | with_reducible exact Mod.sameBut_refl _ _
      | with_reducible assumption
      | (extract_lets +onlyGivenNames y; first | (refine Mod.sameBut_cut y (fun hy => ?_) ?_; rotate_left; subst y; rotate_left; clear_value y) | (refine Mod.sameBut_cut_fst y (fun hy => ?_) ?_; rotate_left; subst y; rotate_left; clear_value y) | clear_value y)
      | ((with_reducible apply Mod.sameBut_step (Mod.fsat_sameBut _ _ _ _ _)); decide)
      | split
      | dsimp only

theorem Mod.countMismatch_sameBut (m : Mod) (a1 : Nat) (a2 : Nat) : Mod.sameBut [.regs, .evIn, .tick] m (Mod.countMismatch m a1 a2) := by
  unfold Mod.countMismatch
  repeat'
    first
      | with_reducible exact Mod.sameBut_refl _ _
      | with_reducible assumption
      | (extract_lets +onlyGivenNames y; first | (refine Mod.sameBut_cut y (fun hy => ?_) ?_; rotate_left; subst y; rotate_left; clear_value y) | (refine Mod.sameBut_cut_fst y (fun hy => ?_) ?_; rotate_left; subst y; rotate_left; clear_value y) | clear_value y)
      | ((with_reducible apply Mod.sameBut_step (Mod.raise_sameBut _ _ _ _ _ _ _)); decide)
      | ((with_reducible apply Mod.sameBut_step (Mod.fset_sameBut _ _ _ _ _)); decide)
      | split
      | dsimp only
      | ((with_reducible apply Mod.sameBut_mk); rotate_left; all_goals (try (intro hp; first | exact (hp (by decide)).elim | rfl)))

end Sys2Proof.Machine
end

