-- ==== Sys2Proof/Laws/Frames4.lean ====
section
/-! SUPPORT. What each operation of the module changes, part 4 of 6: `f_sameBut` names the parts of the module that operation `f` may
change (an operation that answers a module and something beside it: its first part). The operations stand before those that use them. -/

namespace Sys2Proof.Machine

theorem Mod.floorSetting_sameBut (m : Mod) : Mod.sameBut [.regs] m (Mod.floorSetting m) := by
  unfold Mod.floorSetting
  repeat'
    first
      | with_reducible exact Mod.sameBut_refl _ _
      | with_reducible assumption
      | (extract_lets +onlyGivenNames y; first | (refine Mod.sameBut_cut y (fun hy => ?_) ?_; rotate_left; subst y; rotate_left; clear_value y) | (refine Mod.sameBut_cut_fst y (fun hy => ?_) ?_; rotate_left; subst y; rotate_left; clear_value y) | clear_value y)
      | ((with_reducible apply Mod.sameBut_step (Mod.setDuties_sameBut _ _)); decide)
      | split
      | dsimp only

theorem Mod.parkDue_sameBut (m : Mod) : Mod.sameBut [.pwr] m (Mod.parkDue m) := by
  unfold Mod.parkDue
  repeat'
    first
      | with_reducible exact Mod.sameBut_refl _ _
      | with_reducible assumption
      | (extract_lets +onlyGivenNames y; first | (refine Mod.sameBut_cut y (fun hy => ?_) ?_; rotate_left; subst y; rotate_left; clear_value y) | (refine Mod.sameBut_cut_fst y (fun hy => ?_) ?_; rotate_left; subst y; rotate_left; clear_value y) | clear_value y)
      | split
      | dsimp only
      | ((with_reducible apply Mod.sameBut_mk); rotate_left; all_goals (try (intro hp; first | exact (hp (by decide)).elim | rfl)))

theorem Mod.criticalCheck_sameBut (m : Mod) (a1 : Nat) (a2 : Int) : Mod.sameBut [.regs, .evIn, .pwr] m (Mod.criticalCheck m a1 a2) := by
  unfold Mod.criticalCheck
  repeat'
    first
      | with_reducible exact Mod.sameBut_refl _ _
      | with_reducible assumption
      | (extract_lets +onlyGivenNames y; first | (refine Mod.sameBut_cut y (fun hy => ?_) ?_; rotate_left; subst y; rotate_left; clear_value y) | (refine Mod.sameBut_cut_fst y (fun hy => ?_) ?_; rotate_left; subst y; rotate_left; clear_value y) | clear_value y)
      | ((with_reducible apply Mod.sameBut_step (Mod.floorSetting_sameBut _)); decide)
      | ((with_reducible apply Mod.sameBut_step (Mod.parkDue_sameBut _)); decide)
      | ((with_reducible apply Mod.sameBut_step (Mod.raise_sameBut _ _ _ _ _ _ _)); decide)
      | ((with_reducible apply Mod.sameBut_step (Mod.fset_sameBut _ _ _ _ _)); decide)
      | split
      | dsimp only
      | ((with_reducible apply Mod.sameBut_mk); rotate_left; all_goals (try (intro hp; first | exact (hp (by decide)).elim | rfl)))

theorem Mod.ctxVerdict_sameBut (m : Mod) (a1 : StreamDesc) : Mod.sameBut [.regs, .mem, .pool, .stm, .groom, .chk, .fab] m (Mod.ctxVerdict m a1) := by
  unfold Mod.ctxVerdict
  repeat'
    first
      | with_reducible exact Mod.sameBut_refl _ _
      | with_reducible assumption
      | (extract_lets +onlyGivenNames y; first | (refine Mod.sameBut_cut y (fun hy => ?_) ?_; rotate_left; subst y; rotate_left; clear_value y) | (refine Mod.sameBut_cut_fst y (fun hy => ?_) ?_; rotate_left; subst y; rotate_left; clear_value y) | clear_value y)
      | ((with_reducible apply Mod.sameBut_step (Mod.emptyOf_sameBut _ _ _)); decide)
      | ((with_reducible apply Mod.sameBut_step (Mod.tilesAbandon_sameBut _ _ _)); decide)
      | ((with_reducible apply Mod.sameBut_step (Mod.snoopAbandon_sameBut _ _)); decide)
      | ((with_reducible apply Mod.sameBut_step (Mod.setCtx_sameBut _ _ _)); decide)
      | split
      | dsimp only

theorem Mod.dbgHalt_sameBut (m : Mod) (a1 : Nat) (a2 : Nat) : Mod.sameBut [.regs, .cores, .dbg] m (Mod.dbgHalt m a1 a2) := by
  unfold Mod.dbgHalt
  repeat'
    first
      | with_reducible exact Mod.sameBut_refl _ _
      | with_reducible assumption
      | (extract_lets +onlyGivenNames y; first | (refine Mod.sameBut_cut y (fun hy => ?_) ?_; rotate_left; subst y; rotate_left; clear_value y) | (refine Mod.sameBut_cut_fst y (fun hy => ?_) ?_; rotate_left; subst y; rotate_left; clear_value y) | clear_value y)
      | ((with_reducible apply Mod.sameBut_step (Mod.haltDevice_sameBut _ _)); decide)
      | ((with_reducible apply Mod.sameBut_step (Mod.fset_sameBut _ _ _ _ _)); decide)
      | ((with_reducible apply Mod.sameBut_step (Mod.haltCores_sameBut _ _ _)); decide)
      | split
      | dsimp only

theorem Mod.resumeCores_sameBut (m : Mod) (a1 : List Nat) : Mod.sameBut [.cores] m (Mod.resumeCores m a1) := by
  unfold Mod.resumeCores
  repeat'
    first
      | with_reducible exact Mod.sameBut_refl _ _
      | with_reducible assumption
      | (extract_lets +onlyGivenNames y; first | (refine Mod.sameBut_cut y (fun hy => ?_) ?_; rotate_left; subst y; rotate_left; clear_value y) | (refine Mod.sameBut_cut_fst y (fun hy => ?_) ?_; rotate_left; subst y; rotate_left; clear_value y) | clear_value y)
      | ((with_reducible apply Mod.sameBut_step (Mod.setCore_sameBut _ _ _)); decide)
      | split
      | ((with_reducible apply Mod.sameBut_foldl); intro x e)
      | ((with_reducible apply Mod.sameBut_foldl_fst); intro x e)
      | dsimp only

theorem Mod.dbgResume_sameBut (m : Mod) (a1 : Nat) (a2 : Nat) : Mod.sameBut [.cores, .dbg] m (Mod.dbgResume m a1 a2) := by
  unfold Mod.dbgResume
  repeat'
    first
      | with_reducible exact Mod.sameBut_refl _ _
      | with_reducible assumption
      | (extract_lets +onlyGivenNames y; first | (refine Mod.sameBut_cut y (fun hy => ?_) ?_; rotate_left; subst y; rotate_left; clear_value y) | (refine Mod.sameBut_cut_fst y (fun hy => ?_) ?_; rotate_left; subst y; rotate_left; clear_value y) | clear_value y)
      | ((with_reducible apply Mod.sameBut_step (Mod.resumeCores_sameBut _ _)); decide)
      | split
      | dsimp only
      | ((with_reducible apply Mod.sameBut_mk); rotate_left; all_goals (try (intro hp; first | exact (hp (by decide)).elim | rfl)))

theorem Mod.dbgStep_sameBut (m : Mod) (a1 : Nat) (a2 : Nat) : Mod.sameBut [.cores, .dbg] m (Mod.dbgStep m a1 a2) := by
  unfold Mod.dbgStep
  repeat'
    first
      | with_reducible exact Mod.sameBut_refl _ _
      | with_reducible assumption
      | (extract_lets +onlyGivenNames y; first | (refine Mod.sameBut_cut y (fun hy => ?_) ?_; rotate_left; subst y; rotate_left; clear_value y) | (refine Mod.sameBut_cut_fst y (fun hy => ?_) ?_; rotate_left; subst y; rotate_left; clear_value y) | clear_value y)
      | ((with_reducible apply Mod.sameBut_step (Mod.setCore_sameBut _ _ _)); decide)
      | split
      | ((with_reducible apply Mod.sameBut_foldl); intro x e)
      | ((with_reducible apply Mod.sameBut_foldl_fst); intro x e)
      | dsimp only
      | ((with_reducible apply Mod.sameBut_mk); rotate_left; all_goals (try (intro hp; first | exact (hp (by decide)).elim | rfl)))

theorem Mod.vendorOver_sameBut (m : Mod) : Mod.sameBut [.sec] m (Mod.vendorOver m) := by
  unfold Mod.vendorOver
  repeat'
    first
      | with_reducible exact Mod.sameBut_refl _ _
      | with_reducible assumption
      | (extract_lets +onlyGivenNames y; first | (refine Mod.sameBut_cut y (fun hy => ?_) ?_; rotate_left; subst y; rotate_left; clear_value y) | (refine Mod.sameBut_cut_fst y (fun hy => ?_) ?_; rotate_left; subst y; rotate_left; clear_value y) | clear_value y)
      | split
      | dsimp only
      | ((with_reducible apply Mod.sameBut_mk); rotate_left; all_goals (try (intro hp; first | exact (hp (by decide)).elim | rfl)))

theorem Mod.vendorClear_sameBut (m : Mod) : Mod.sameBut [.sec] m (Mod.vendorClear m) := by
  unfold Mod.vendorClear
  repeat'
    first
      | with_reducible exact Mod.sameBut_refl _ _
      | with_reducible assumption
      | (extract_lets +onlyGivenNames y; first | (refine Mod.sameBut_cut y (fun hy => ?_) ?_; rotate_left; subst y; rotate_left; clear_value y) | (refine Mod.sameBut_cut_fst y (fun hy => ?_) ?_; rotate_left; subst y; rotate_left; clear_value y) | clear_value y)
      | split
      | dsimp only
      | ((with_reducible apply Mod.sameBut_mk); rotate_left; all_goals (try (intro hp; first | exact (hp (by decide)).elim | rfl)))

theorem Mod.tokenBad_sameBut (m : Mod) (a1 : Nat) (a2 : Nat) : Mod.sameBut [.regs, .evIn] m (Mod.tokenBad m a1 a2) := by
  unfold Mod.tokenBad
  repeat'
    first
      | with_reducible exact Mod.sameBut_refl _ _
      | with_reducible assumption
      | (extract_lets +onlyGivenNames y; first | (refine Mod.sameBut_cut y (fun hy => ?_) ?_; rotate_left; subst y; rotate_left; clear_value y) | (refine Mod.sameBut_cut_fst y (fun hy => ?_) ?_; rotate_left; subst y; rotate_left; clear_value y) | clear_value y)
      | ((with_reducible apply Mod.sameBut_step (Mod.raise_sameBut _ _ _ _ _ _ _)); decide)
      | ((with_reducible apply Mod.sameBut_step (Mod.fset_sameBut _ _ _ _ _)); decide)
      | split
      | dsimp only

theorem Mod.dbgUnlock_sameBut (m : Mod) (a1 : Path) (a2 : List Byte) : Mod.sameBut [.regs, .evIn, .host, .sec] m (Mod.dbgUnlock m a1 a2) := by
  unfold Mod.dbgUnlock
  repeat'
    first
      | with_reducible exact Mod.sameBut_refl _ _
      | with_reducible assumption
      | (extract_lets +onlyGivenNames y; first | (refine Mod.sameBut_cut y (fun hy => ?_) ?_; rotate_left; subst y; rotate_left; clear_value y) | (refine Mod.sameBut_cut_fst y (fun hy => ?_) ?_; rotate_left; subst y; rotate_left; clear_value y) | clear_value y)
      | ((with_reducible apply Mod.sameBut_step (Mod.cmdDone_sameBut _ _ _ _)); decide)
      | ((with_reducible apply Mod.sameBut_step (Mod.tokenBad_sameBut _ _ _)); decide)
      | ((with_reducible apply Mod.sameBut_step (Mod.vendorClear_sameBut _)); decide)
      | ((with_reducible apply Mod.sameBut_step (Mod.vendorOver_sameBut _)); decide)
      | ((with_reducible apply Mod.sameBut_step (Mod.fset_sameBut _ _ _ _ _)); decide)
      | ((with_reducible apply Mod.sameBut_step (Mod.raise_sameBut _ _ _ _ _ _ _)); decide)
      | ((with_reducible apply Mod.sameBut_step (Mod.extend_sameBut _ _ _ _)); decide)
      | split
      | dsimp only
      | ((with_reducible apply Mod.sameBut_mk); rotate_left; all_goals (try (intro hp; first | exact (hp (by decide)).elim | rfl)))

theorem Mod.defaultWrite_sameBut (m : Mod) (a1 : Path) (a2 : Nat) : Mod.sameBut [.regs, .evIn] m (Mod.defaultWrite m a1 a2) := by
  unfold Mod.defaultWrite
  repeat'
    first
      | with_reducible exact Mod.sameBut_refl _ _
      | with_reducible assumption
      | (extract_lets +onlyGivenNames y; first | (refine Mod.sameBut_cut y (fun hy => ?_) ?_; rotate_left; subst y; rotate_left; clear_value y) | (refine Mod.sameBut_cut_fst y (fun hy => ?_) ?_; rotate_left; subst y; rotate_left; clear_value y) | clear_value y)
      | ((with_reducible apply Mod.sameBut_step (Mod.fset_sameBut _ _ _ _ _)); decide)
      | ((with_reducible apply Mod.sameBut_step (Mod.profileRefused_sameBut _ _ _ _ _)); decide)
      | split
      | dsimp only

theorem Mod.trainStore_sameBut (m : Mod) (a1 : Nat) (a2 : Binding) (a3 : PassEnv) (a4 : Nat) (a5 : Nat) (a6 : Prod Nat Bool) (a7 : Elem) (a8 : Bool) (a9 : GPass) : Mod.sameBut [.regs, .mem, .pool] m (Mod.trainStore m a1 a2 a3 a4 a5 a6 a7 a8 a9).1 := by
  unfold Mod.trainStore
  repeat'
    first
      | with_reducible exact Mod.sameBut_refl _ _
      | with_reducible assumption
      | (extract_lets +onlyGivenNames y; first | (refine Mod.sameBut_cut y (fun hy => ?_) ?_; rotate_left; subst y; rotate_left; clear_value y) | (refine Mod.sameBut_cut_fst y (fun hy => ?_) ?_; rotate_left; subst y; rotate_left; clear_value y) | clear_value y)
      | ((with_reducible apply Mod.sameBut_step (Mod.planePut_sameBut _ _ _ _ _ _ _)); decide)
      | ((with_reducible apply Mod.sameBut_step (Mod.groomFlags_sameBut _ _ _)); decide)
      | split
      | ((with_reducible apply Mod.sameBut_foldl); intro x e)
      | ((with_reducible apply Mod.sameBut_foldl_fst); intro x e)
      | dsimp only

theorem Mod.passElem_sameBut (m : Mod) (a1 : Nat) (a2 : Binding) (a3 : PassEnv) (a4 : Nat) (a5 : Nat) (a6 : Prod Nat Bool) (a7 : Prod Nat Bool) (a8 : GPass) : Mod.sameBut [.regs, .mem, .pool] m (Mod.passElem m a1 a2 a3 a4 a5 a6 a7 a8).1 := by
  unfold Mod.passElem
  repeat'
    first
      | with_reducible exact Mod.sameBut_refl _ _
      | with_reducible assumption
      | (extract_lets +onlyGivenNames y; first | (refine Mod.sameBut_cut y (fun hy => ?_) ?_; rotate_left; subst y; rotate_left; clear_value y) | (refine Mod.sameBut_cut_fst y (fun hy => ?_) ?_; rotate_left; subst y; rotate_left; clear_value y) | clear_value y)
      | ((with_reducible apply Mod.sameBut_step (Mod.heldElem_sameBut _ _ _ _ _ _ _ _)); decide)
      | ((with_reducible apply Mod.sameBut_step (Mod.trainStore_sameBut _ _ _ _ _ _ _ _ _ _)); decide)
      | split
      | dsimp only

theorem Mod.sliceWork_sameBut (m : Mod) (a1 : Nat) (a2 : GPass) (a3 : Binding) (a4 : SliceEnt) (a5 : GSlice) (a6 : PassEnv) : Mod.sameBut [.regs, .mem, .pool, .groom] m (Mod.sliceWork m a1 a2 a3 a4 a5 a6).1 := by
  unfold Mod.sliceWork
  repeat'
    first
      | with_reducible exact Mod.sameBut_refl _ _
      | with_reducible assumption
      | (extract_lets +onlyGivenNames y; first | (refine Mod.sameBut_cut y (fun hy => ?_) ?_; rotate_left; subst y; rotate_left; clear_value y) | (refine Mod.sameBut_cut_fst y (fun hy => ?_) ?_; rotate_left; subst y; rotate_left; clear_value y) | clear_value y)
      | ((with_reducible apply Mod.sameBut_step (Mod.openRow_sameBut _ _ _ _ _)); decide)
      | ((with_reducible apply Mod.sameBut_step (Mod.passElem_sameBut _ _ _ _ _ _ _ _ _)); decide)
      | ((with_reducible apply Mod.sameBut_step (Mod.sliceOpen_sameBut _ _ _ _ _)); decide)
      | split
      | ((with_reducible apply Mod.sameBut_foldl); intro x e)
      | ((with_reducible apply Mod.sameBut_foldl_fst); intro x e)
      | dsimp only

theorem Mod.passEnd_sameBut (m : Mod) (a1 : Nat) (a2 : GPass) (a3 : Nat) : Mod.sameBut [.regs, .groom] m (Mod.passEnd m a1 a2 a3) := by
  unfold Mod.passEnd
  repeat'
    first
      | with_reducible exact Mod.sameBut_refl _ _
      | with_reducible assumption
      | (extract_lets +onlyGivenNames y; first | (refine Mod.sameBut_cut y (fun hy => ?_) ?_; rotate_left; subst y; rotate_left; clear_value y) | (refine Mod.sameBut_cut_fst y (fun hy => ?_) ?_; rotate_left; subst y; rotate_left; clear_value y) | clear_value y)
      | ((with_reducible apply Mod.sameBut_step (Mod.groomFlags_sameBut _ _ _)); decide)
      | ((with_reducible apply Mod.sameBut_step (Mod.setGroom_sameBut _ _ _)); decide)
      | split
      | ((with_reducible apply Mod.sameBut_foldl); intro x e)
      | ((with_reducible apply Mod.sameBut_foldl_fst); intro x e)
      | dsimp only

theorem Mod.passFinish_sameBut (m : Mod) (a1 : Nat) (a2 : GPass) (a3 : Binding) (a4 : PassEnv) : Mod.sameBut [.regs, .step, .mem, .pool, .groom] m (Mod.passFinish m a1 a2 a3 a4) := by
  unfold Mod.passFinish
  repeat'
    first
      | with_reducible exact Mod.sameBut_refl _ _
      | with_reducible assumption
      | (extract_lets +onlyGivenNames y; first | (refine Mod.sameBut_cut y (fun hy => ?_) ?_; rotate_left; subst y; rotate_left; clear_value y) | (refine Mod.sameBut_cut_fst y (fun hy => ?_) ?_; rotate_left; subst y; rotate_left; clear_value y) | clear_value y)
      | ((with_reducible apply Mod.sameBut_step (Mod.heldElem_sameBut _ _ _ _ _ _ _ _)); decide)
      | ((with_reducible apply Mod.sameBut_step (Mod.openRuns_sameBut _ _)); decide)
      | ((with_reducible apply Mod.sameBut_step (Mod.passPoison_sameBut _ _ _)); decide)
      | ((with_reducible apply Mod.sameBut_step (Mod.passEnd_sameBut _ _ _ _)); decide)
      | ((with_reducible apply Mod.sameBut_step (Mod.setGroom_sameBut _ _ _)); decide)
      | split
      | ((with_reducible apply Mod.sameBut_foldl); intro x e)
      | ((with_reducible apply Mod.sameBut_foldl_fst); intro x e)
      | dsimp only

theorem Mod.deferredLost_sameBut (m : Mod) (a1 : Binding) (a2 : Nat) (a3 : Nat) : Mod.sameBut [.evIn, .step] m (Mod.deferredLost m a1 a2 a3) := by
  unfold Mod.deferredLost
  repeat'
    first
      | with_reducible exact Mod.sameBut_refl _ _
      | with_reducible assumption
      | (extract_lets +onlyGivenNames y; first | (refine Mod.sameBut_cut y (fun hy => ?_) ?_; rotate_left; subst y; rotate_left; clear_value y) | (refine Mod.sameBut_cut_fst y (fun hy => ?_) ?_; rotate_left; subst y; rotate_left; clear_value y) | clear_value y)
      | ((with_reducible apply Mod.sameBut_step (Mod.raise_sameBut _ _ _ _ _ _ _)); decide)
      | ((with_reducible apply Mod.sameBut_step (Mod.fault_sameBut _ _)); decide)
      | split
      | dsimp only

theorem Mod.deferredSettle_sameBut (m : Mod) : Mod.sameBut [.sched, .step, .stm] m (Mod.deferredSettle m) := by
  unfold Mod.deferredSettle
  repeat'
    first
      | with_reducible exact Mod.sameBut_refl _ _
      | with_reducible assumption
      | (extract_lets +onlyGivenNames y; first | (refine Mod.sameBut_cut y (fun hy => ?_) ?_; rotate_left; subst y; rotate_left; clear_value y) | (refine Mod.sameBut_cut_fst y (fun hy => ?_) ?_; rotate_left; subst y; rotate_left; clear_value y) | clear_value y)
      | ((with_reducible apply Mod.sameBut_step (Mod.gates_sameBut _)); decide)
      | ((with_reducible apply Mod.sameBut_step (Mod.signal_sameBut _ _)); decide)
      | split
      | ((with_reducible apply Mod.sameBut_foldl); intro x e)
      | ((with_reducible apply Mod.sameBut_foldl_fst); intro x e)
      | dsimp only
      | ((with_reducible apply Mod.sameBut_mk); rotate_left; all_goals (try (intro hp; first | exact (hp (by decide)).elim | rfl)))

theorem Mod.deferredElem_sameBut (m : Mod) (a1 : Binding) (a2 : PassEnv) (a3 : Nat) (a4 : Nat) (a5 : Option Nat) (a6 : GPass) : Mod.sameBut [.regs, .mem, .pool, .groom] m (Mod.deferredElem m a1 a2 a3 a4 a5 a6).1 := by
  unfold Mod.deferredElem
  repeat'
    first
      | with_reducible exact Mod.sameBut_refl _ _
      | with_reducible assumption
      | (extract_lets +onlyGivenNames y; first | (refine Mod.sameBut_cut y (fun hy => ?_) ?_; rotate_left; subst y; rotate_left; clear_value y) | (refine Mod.sameBut_cut_fst y (fun hy => ?_) ?_; rotate_left; subst y; rotate_left; clear_value y) | clear_value y)
      | ((with_reducible apply Mod.sameBut_step (Mod.passElem_sameBut _ _ _ _ _ _ _ _ _)); decide)
      | ((with_reducible apply Mod.sameBut_step (Mod.heldElem_sameBut _ _ _ _ _ _ _ _)); decide)
      | ((with_reducible apply Mod.sameBut_step (Mod.setGroom_sameBut _ _ _)); decide)
      | split
      | dsimp only

theorem Mod.deferredElems_sameBut (a0 : Binding) (a1 : PassEnv) (a2 : List (Prod Nat (Prod Nat (Option Nat)))) (m : Mod) (a4 : GPass) : Mod.sameBut [.regs, .mem, .pool, .groom] m (Mod.deferredElems a0 a1 a2 m a4).1 := by
  fun_induction Mod.deferredElems a0 a1 a2 m a4
  repeat'
    first
      | with_reducible exact Mod.sameBut_refl _ _
      | with_reducible assumption
      | (extract_lets +onlyGivenNames y; first | (refine Mod.sameBut_cut y (fun hy => ?_) ?_; rotate_left; subst y; rotate_left; clear_value y) | (refine Mod.sameBut_cut_fst y (fun hy => ?_) ?_; rotate_left; subst y; rotate_left; clear_value y) | clear_value y)
      | ((with_reducible apply Mod.sameBut_step (Mod.deferredElem_sameBut _ _ _ _ _ _ _)); decide)
      | with_reducible refine Mod.sameBut_trans ?_ (by assumption)
      | split
      | dsimp only

theorem Mod.deferredSlices_sameBut (a0 : Nat) (a1 : Binding) (a2 : PassEnv) (a3 : StepHist) (a4 : List (Prod Nat Nat)) (m : Mod) (a6 : GPass) : Mod.sameBut [.regs, .mem, .pool, .groom] m (Mod.deferredSlices a0 a1 a2 a3 a4 m a6).1 := by
  induction a4 generalizing m a6 with
  | nil =>
    unfold Mod.deferredSlices
    exact Mod.sameBut_mono (Mod.deferredElems_sameBut _ _ _ _ _) (by decide)
  | cons x rest ih =>
    unfold Mod.deferredSlices
    split
    · split
      · split
        · exact Mod.sameBut_refl _ _
        · exact Mod.sameBut_refl _ _
        · rename_i vs fl _
          extract_lets sl todo y
          have hy : Mod.sameBut [.regs, .mem, .pool, .groom] m y.1 := Mod.sameBut_step (Mod.deferredElems_sameBut _ _ _ _ _) (by decide)
            (Mod.sameBut_mono (Mod.groomFlags_sameBut m a1.unit fl) (by decide))
          clear_value y
          split
          · exact Mod.sameBut_trans hy (ih _ _)
          · exact hy
      · exact Mod.sameBut_refl _ _
    · exact Mod.sameBut_refl _ _

theorem Mod.entriesDone_sameBut (m : Mod) (a1 : Nat) (a2 : Nat) : Mod.sameBut [.step] m (Mod.entriesDone m a1 a2) := by
  unfold Mod.entriesDone
  repeat'
    first
      | with_reducible exact Mod.sameBut_refl _ _
      | with_reducible assumption
      | (extract_lets +onlyGivenNames y; first | (refine Mod.sameBut_cut y (fun hy => ?_) ?_; rotate_left; subst y; rotate_left; clear_value y) | (refine Mod.sameBut_cut_fst y (fun hy => ?_) ?_; rotate_left; subst y; rotate_left; clear_value y) | clear_value y)
      | split
      | dsimp only
      | ((with_reducible apply Mod.sameBut_mk); rotate_left; all_goals (try (intro hp; first | exact (hp (by decide)).elim | rfl)))

theorem Mod.deferredGo_sameBut (m : Mod) (a1 : Nat) (a2 : Binding) (a3 : StepHist) (a4 : GPass) (a5 : Ecc) : Mod.sameBut [.regs, .evIn, .sched, .step, .mem, .pool, .stm, .groom] m (Mod.deferredGo m a1 a2 a3 a4 a5) := by
  unfold Mod.deferredGo
  repeat'
    first
      | with_reducible exact Mod.sameBut_refl _ _
      | with_reducible assumption
      | (extract_lets +onlyGivenNames y; first | (refine Mod.sameBut_cut y (fun hy => ?_) ?_; rotate_left; subst y; rotate_left; clear_value y) | (refine Mod.sameBut_cut_fst y (fun hy => ?_) ?_; rotate_left; subst y; rotate_left; clear_value y) | clear_value y)
      | ((with_reducible apply Mod.sameBut_step (Mod.eccDev_sameBut _ _ _ _)); decide)
      | ((with_reducible apply Mod.sameBut_step (Mod.deferredSlices_sameBut _ _ _ _ _ _ _)); decide)
      | ((with_reducible apply Mod.sameBut_step (Mod.setGroom_sameBut _ _ _)); decide)
      | ((with_reducible apply Mod.sameBut_step (Mod.entriesDone_sameBut _ _ _)); decide)
      | ((with_reducible apply Mod.sameBut_step (Mod.passEnd_sameBut _ _ _ _)); decide)
      | ((with_reducible apply Mod.sameBut_step (Mod.deferredSettle_sameBut _)); decide)
      | ((with_reducible apply Mod.sameBut_step (Mod.deferredLost_sameBut _ _ _ _)); decide)
      | split
      | dsimp only
      | ((with_reducible apply Mod.sameBut_mk); rotate_left; all_goals (try (intro hp; first | exact (hp (by decide)).elim | rfl)))

theorem Mod.deferredPass_sameBut (m : Mod) (a1 : Nat) (a2 : Ecc) : Mod.sameBut [.regs, .evIn, .sched, .step, .mem, .pool, .stm, .groom] m (Mod.deferredPass m a1 a2) := by
  unfold Mod.deferredPass
  repeat'
    first
      | with_reducible exact Mod.sameBut_refl _ _
      | with_reducible assumption
      | (extract_lets +onlyGivenNames y; first | (refine Mod.sameBut_cut y (fun hy => ?_) ?_; rotate_left; subst y; rotate_left; clear_value y) | (refine Mod.sameBut_cut_fst y (fun hy => ?_) ?_; rotate_left; subst y; rotate_left; clear_value y) | clear_value y)
      | ((with_reducible apply Mod.sameBut_step (Mod.deferredGo_sameBut _ _ _ _ _ _)); decide)
      | split
      | dsimp only

theorem Mod.degraded_sameBut (m : Mod) (a1 : Nat) (a2 : Nat) (a3 : Nat) : Mod.sameBut [.regs, .evIn] m (Mod.degraded m a1 a2 a3) := by
  unfold Mod.degraded
  repeat'
    first
      | with_reducible exact Mod.sameBut_refl _ _
      | with_reducible assumption
      | (extract_lets +onlyGivenNames y; first | (refine Mod.sameBut_cut y (fun hy => ?_) ?_; rotate_left; subst y; rotate_left; clear_value y) | (refine Mod.sameBut_cut_fst y (fun hy => ?_) ?_; rotate_left; subst y; rotate_left; clear_value y) | clear_value y)
      | ((with_reducible apply Mod.sameBut_step (Mod.raise_sameBut _ _ _ _ _ _ _)); decide)
      | ((with_reducible apply Mod.sameBut_step (Mod.fset_sameBut _ _ _ _ _)); decide)
      | split
      | dsimp only

theorem Mod.deliver_sameBut (m : Mod) (a1 : Nat) (a2 : TFlit) : Mod.sameBut [.regs, .fab] m (Mod.deliver m a1 a2) := by
  unfold Mod.deliver
  repeat'
    first
      | with_reducible exact Mod.sameBut_refl _ _
      | with_reducible assumption
      | (extract_lets +onlyGivenNames y; first | (refine Mod.sameBut_cut y (fun hy => ?_) ?_; rotate_left; subst y; rotate_left; clear_value y) | (refine Mod.sameBut_cut_fst y (fun hy => ?_) ?_; rotate_left; subst y; rotate_left; clear_value y) | clear_value y)
      | ((with_reducible apply Mod.sameBut_step (Mod.freeEntry_sameBut _ _ _)); decide)
      | ((with_reducible apply Mod.sameBut_step (Mod.fsat_sameBut _ _ _ _ _)); decide)
      | split
      | dsimp only
      | ((with_reducible apply Mod.sameBut_mk); rotate_left; all_goals (try (intro hp; first | exact (hp (by decide)).elim | rfl)))

theorem Mod.doeError_sameBut (m : Mod) : Mod.sameBut [.host] m (Mod.doeError m) := by
  unfold Mod.doeError
  repeat'
    first
      | with_reducible exact Mod.sameBut_refl _ _
      | with_reducible assumption
      | (extract_lets +onlyGivenNames y; first | (refine Mod.sameBut_cut y (fun hy => ?_) ?_; rotate_left; subst y; rotate_left; clear_value y) | (refine Mod.sameBut_cut_fst y (fun hy => ?_) ?_; rotate_left; subst y; rotate_left; clear_value y) | clear_value y)
      | split
      | dsimp only
      | ((with_reducible apply Mod.sameBut_mk); rotate_left; all_goals (try (intro hp; first | exact (hp (by decide)).elim | rfl)))

theorem Mod.numEvent_sameBut (m : Mod) (a1 : Nat) (a2 : Nat) (a3 : Nat) (a4 : Nat) : Mod.sameBut [.evIn, .step] m (Mod.numEvent m a1 a2 a3 a4) := by
  unfold Mod.numEvent
  repeat'
    first
      | with_reducible exact Mod.sameBut_refl _ _
      | with_reducible assumption
      | (extract_lets +onlyGivenNames y; first | (refine Mod.sameBut_cut y (fun hy => ?_) ?_; rotate_left; subst y; rotate_left; clear_value y) | (refine Mod.sameBut_cut_fst y (fun hy => ?_) ?_; rotate_left; subst y; rotate_left; clear_value y) | clear_value y)
      | ((with_reducible apply Mod.sameBut_step (Mod.raise_sameBut _ _ _ _ _ _ _)); decide)
      | split
      | dsimp only
      | ((with_reducible apply Mod.sameBut_mk); rotate_left; all_goals (try (intro hp; first | exact (hp (by decide)).elim | rfl)))

theorem Mod.watchEvents_sameBut (m : Mod) (a1 : Nat) (a2 : WatchRec) (a3 : Nat) : Mod.sameBut [.regs, .evIn, .step] m (Mod.watchEvents m a1 a2 a3) := by
  unfold Mod.watchEvents
  repeat'
    first
      | with_reducible exact Mod.sameBut_refl _ _
      | with_reducible assumption
      | (extract_lets +onlyGivenNames y; first | (refine Mod.sameBut_cut y (fun hy => ?_) ?_; rotate_left; subst y; rotate_left; clear_value y) | (refine Mod.sameBut_cut_fst y (fun hy => ?_) ?_; rotate_left; subst y; rotate_left; clear_value y) | clear_value y)
      | ((with_reducible apply Mod.sameBut_step (Mod.numEvent_sameBut _ _ _ _ _)); decide)
      | ((with_reducible apply Mod.sameBut_step (Mod.fset_sameBut _ _ _ _ _)); decide)
      | split
      | dsimp only

theorem Mod.watchMerge_sameBut (m : Mod) (a1 : Nat) (a2 : WatchRec) (a3 : Nat) (a4 : Ecc) : Mod.sameBut [.regs, .evIn, .step, .mem] m (Mod.watchMerge m a1 a2 a3 a4) := by
  unfold Mod.watchMerge
  repeat'
    first
      | with_reducible exact Mod.sameBut_refl _ _
      | with_reducible assumption
      | (extract_lets +onlyGivenNames y; first | (refine Mod.sameBut_cut y (fun hy => ?_) ?_; rotate_left; subst y; rotate_left; clear_value y) | (refine Mod.sameBut_cut_fst y (fun hy => ?_) ?_; rotate_left; subst y; rotate_left; clear_value y) | clear_value y)
      | ((with_reducible apply Mod.sameBut_step (Mod.unitRead_sameBut _ _ _ _ _)); decide)
      | ((with_reducible apply Mod.sameBut_step (Mod.numEvent_sameBut _ _ _ _ _)); decide)
      | ((with_reducible apply Mod.sameBut_step (Mod.fset_sameBut _ _ _ _ _)); decide)
      | ((with_reducible apply Mod.sameBut_step (Mod.devWrite_sameBut _ _ _)); decide)
      | ((with_reducible apply Mod.sameBut_step (Mod.watchEvents_sameBut _ _ _ _)); decide)
      | split
      | dsimp only

theorem Mod.takePending_sameBut (m : Mod) (a1 : Nat) (a2 : Ecc) : Mod.sameBut [.regs, .evIn, .step, .mem] m (Mod.takePending m a1 a2) := by
  unfold Mod.takePending
  repeat'
    first
      | with_reducible exact Mod.sameBut_refl _ _
      | with_reducible assumption
      | (extract_lets +onlyGivenNames y; first | (refine Mod.sameBut_cut y (fun hy => ?_) ?_; rotate_left; subst y; rotate_left; clear_value y) | (refine Mod.sameBut_cut_fst y (fun hy => ?_) ?_; rotate_left; subst y; rotate_left; clear_value y) | clear_value y)
      | ((with_reducible apply Mod.sameBut_step (Mod.eccDev_sameBut _ _ _ _)); decide)
      | ((with_reducible apply Mod.sameBut_step (Mod.devWriteP_sameBut _ _ _)); decide)
      | split
      | dsimp only

theorem Mod.normWrite_sameBut (m : Mod) (a1 : Nat) (a2 : Nat) (a3 : Nat) (a4 : List Nat) (a5 : Nat) : Mod.sameBut [.regs, .evIn, .step, .mem] m (Mod.normWrite m a1 a2 a3 a4 a5) := by
  unfold Mod.normWrite
  repeat'
    first
      | with_reducible exact Mod.sameBut_refl _ _
      | with_reducible assumption
      | (extract_lets +onlyGivenNames y; first | (refine Mod.sameBut_cut y (fun hy => ?_) ?_; rotate_left; subst y; rotate_left; clear_value y) | (refine Mod.sameBut_cut_fst y (fun hy => ?_) ?_; rotate_left; subst y; rotate_left; clear_value y) | clear_value y)
      | ((with_reducible apply Mod.sameBut_step (Mod.devWrite_sameBut _ _ _)); decide)
      | ((with_reducible apply Mod.sameBut_step (Mod.numEvent_sameBut _ _ _ _ _)); decide)
      | ((with_reducible apply Mod.sameBut_step (Mod.fset_sameBut _ _ _ _ _)); decide)
      | split
      | dsimp only

theorem Mod.normGroup_sameBut (m : Mod) (a1 : Nat) (a2 : Nat) (a3 : PassDone → Bool) : Mod.sameBut [.regs, .evIn, .step, .mem] m (Mod.normGroup m a1 a2 a3) := by
  unfold Mod.normGroup
  repeat'
    first
      | with_reducible exact Mod.sameBut_refl _ _
      | with_reducible assumption
      | (extract_lets +onlyGivenNames y; first | (refine Mod.sameBut_cut y (fun hy => ?_) ?_; rotate_left; subst y; rotate_left; clear_value y) | (refine Mod.sameBut_cut_fst y (fun hy => ?_) ?_; rotate_left; subst y; rotate_left; clear_value y) | clear_value y)
      | ((with_reducible apply Mod.sameBut_step (Mod.groomFlags_sameBut _ _ _)); decide)
      | ((with_reducible apply Mod.sameBut_step (Mod.normWrite_sameBut _ _ _ _ _ _)); decide)
      | split
      | ((with_reducible apply Mod.sameBut_foldl); intro x e)
      | ((with_reducible apply Mod.sameBut_foldl_fst); intro x e)
      | dsimp only

theorem Mod.normAll_sameBut (m : Mod) (a1 : Nat) (a2 : PassDone → Bool) : Mod.sameBut [.regs, .evIn, .step, .mem] m (Mod.normAll m a1 a2) := by
  unfold Mod.normAll
  repeat'
    first
      | with_reducible exact Mod.sameBut_refl _ _
      | with_reducible assumption
      | (extract_lets +onlyGivenNames y; first | (refine Mod.sameBut_cut y (fun hy => ?_) ?_; rotate_left; subst y; rotate_left; clear_value y) | (refine Mod.sameBut_cut_fst y (fun hy => ?_) ?_; rotate_left; subst y; rotate_left; clear_value y) | clear_value y)
      | ((with_reducible apply Mod.sameBut_step (Mod.normGroup_sameBut _ _ _ _)); decide)
      | split
      | ((with_reducible apply Mod.sameBut_foldl); intro x e)
      | ((with_reducible apply Mod.sameBut_foldl_fst); intro x e)
      | dsimp only

theorem Mod.mergeAll_sameBut (m : Mod) (a1 : PassDone → Bool) (a2 : Ecc) : Mod.sameBut [.regs, .evIn, .step, .mem] m (Mod.mergeAll m a1 a2) := by
  unfold Mod.mergeAll
  repeat'
    first
      | with_reducible exact Mod.sameBut_refl _ _
      | with_reducible assumption
      | (extract_lets +onlyGivenNames y; first | (refine Mod.sameBut_cut y (fun hy => ?_) ?_; rotate_left; subst y; rotate_left; clear_value y) | (refine Mod.sameBut_cut_fst y (fun hy => ?_) ?_; rotate_left; subst y; rotate_left; clear_value y) | clear_value y)
      | ((with_reducible apply Mod.sameBut_step (Mod.watchMerge_sameBut _ _ _ _ _)); decide)
      | ((with_reducible apply Mod.sameBut_step (Mod.takePending_sameBut _ _ _)); decide)
      | split
      | ((with_reducible apply Mod.sameBut_foldl); intro x e)
      | ((with_reducible apply Mod.sameBut_foldl_fst); intro x e)
      | dsimp only

theorem Mod.flipDeferred_sameBut (m : Mod) (a1 : List Nat) (a2 : List Nat) : Mod.sameBut [.plt] m (Mod.flipDeferred m a1 a2) := by
  unfold Mod.flipDeferred
  repeat'
    first
      | with_reducible exact Mod.sameBut_refl _ _
      | with_reducible assumption
      | (extract_lets +onlyGivenNames y; first | (refine Mod.sameBut_cut y (fun hy => ?_) ?_; rotate_left; subst y; rotate_left; clear_value y) | (refine Mod.sameBut_cut_fst y (fun hy => ?_) ?_; rotate_left; subst y; rotate_left; clear_value y) | clear_value y)
      | ((with_reducible apply Mod.sameBut_step (Mod.flipAll_sameBut _ _)); decide)
      | split
      | dsimp only

theorem Mod.drainSettle_sameBut (m : Mod) (a1 : Ecc) : Mod.sameBut [.regs, .evIn, .plt, .step, .mem, .stm, .groom] m (Mod.drainSettle m a1) := by
  unfold Mod.drainSettle
  repeat'
    first
      | with_reducible exact Mod.sameBut_refl _ _
      | with_reducible assumption
      | (extract_lets +onlyGivenNames y; first | (refine Mod.sameBut_cut y (fun hy => ?_) ?_; rotate_left; subst y; rotate_left; clear_value y) | (refine Mod.sameBut_cut_fst y (fun hy => ?_) ?_; rotate_left; subst y; rotate_left; clear_value y) | clear_value y)
      | ((with_reducible apply Mod.sameBut_step (Mod.normAll_sameBut _ _ _)); decide)
      | ((with_reducible apply Mod.sameBut_step (Mod.mergeAll_sameBut _ _ _)); decide)
      | ((with_reducible apply Mod.sameBut_step (Mod.flipDeferred_sameBut _ _ _)); decide)
      | ((with_reducible apply Mod.sameBut_step (Mod.actionsEnd_sameBut _)); decide)
      | split
      | dsimp only
      | ((with_reducible apply Mod.sameBut_mk); rotate_left; all_goals (try (intro hp; first | exact (hp (by decide)).elim | rfl)))

theorem Mod.drainPass_sameBut (m : Mod) (a1 : Ecc) : Mod.sameBut [.regs, .evIn, .plt, .sched, .step, .mem, .pool, .stm, .groom] m (Mod.drainPass m a1) := by
  unfold Mod.drainPass
  repeat'
    first
      | with_reducible exact Mod.sameBut_refl _ _
      | with_reducible assumption
      | (extract_lets +onlyGivenNames y; first | (refine Mod.sameBut_cut y (fun hy => ?_) ?_; rotate_left; subst y; rotate_left; clear_value y) | (refine Mod.sameBut_cut_fst y (fun hy => ?_) ?_; rotate_left; subst y; rotate_left; clear_value y) | clear_value y)
      | ((with_reducible apply Mod.sameBut_step (Mod.drainSettle_sameBut _ _)); decide)
      | ((with_reducible apply Mod.sameBut_step (Mod.deferredGo_sameBut _ _ _ _ _ _)); decide)
      | split
      | dsimp only
      | ((with_reducible apply Mod.sameBut_mk); rotate_left; all_goals (try (intro hp; first | exact (hp (by decide)).elim | rfl)))

theorem Mod.drawIndex_sameBut (m : Mod) (a1 : Nat) : Mod.sameBut [.regs, .evIn, .sec] m (Mod.drawIndex m a1) := by
  unfold Mod.drawIndex
  repeat'
    first
      | with_reducible exact Mod.sameBut_refl _ _
      | with_reducible assumption
      | (extract_lets +onlyGivenNames y; first | (refine Mod.sameBut_cut y (fun hy => ?_) ?_; rotate_left; subst y; rotate_left; clear_value y) | (refine Mod.sameBut_cut_fst y (fun hy => ?_) ?_; rotate_left; subst y; rotate_left; clear_value y) | clear_value y)
      | ((with_reducible apply Mod.sameBut_step (Mod.fset_sameBut _ _ _ _ _)); decide)
      | ((with_reducible apply Mod.sameBut_step (Mod.keyLow_sameBut _)); decide)
      | split
      | dsimp only
      | ((with_reducible apply Mod.sameBut_mk); rotate_left; all_goals (try (intro hp; first | exact (hp (by decide)).elim | rfl)))

theorem Mod.setInst_sameBut (m : Mod) (a1 : Nat) (a2 : PadInst) : Mod.sameBut [.pad] m (Mod.setInst m a1 a2) := by
  unfold Mod.setInst
  repeat'
    first
      | with_reducible exact Mod.sameBut_refl _ _
      | with_reducible assumption
      | (extract_lets +onlyGivenNames y; first | (refine Mod.sameBut_cut y (fun hy => ?_) ?_; rotate_left; subst y; rotate_left; clear_value y) | (refine Mod.sameBut_cut_fst y (fun hy => ?_) ?_; rotate_left; subst y; rotate_left; clear_value y) | clear_value y)
      | split
      | dsimp only
      | ((with_reducible apply Mod.sameBut_mk); rotate_left; all_goals (try (intro hp; first | exact (hp (by decide)).elim | rfl)))

theorem Mod.dropLayer_sameBut (m : Mod) (a1 : Nat) (a2 : Nat) (a3 : Nat) : Mod.sameBut [.evIn, .pool, .pad] m (Mod.dropLayer m a1 a2 a3) := by
  unfold Mod.dropLayer
  repeat'
    first
      | with_reducible exact Mod.sameBut_refl _ _
      | with_reducible assumption
      | (extract_lets +onlyGivenNames y; first | (refine Mod.sameBut_cut y (fun hy => ?_) ?_; rotate_left; subst y; rotate_left; clear_value y) | (refine Mod.sameBut_cut_fst y (fun hy => ?_) ?_; rotate_left; subst y; rotate_left; clear_value y) | clear_value y)
      | ((with_reducible apply Mod.sameBut_step (Mod.setInst_sameBut _ _ _)); decide)
      | ((with_reducible apply Mod.sameBut_step (Mod.padRelease_sameBut _ _)); decide)
      | ((with_reducible apply Mod.sameBut_step (Mod.raise_sameBut _ _ _ _ _ _ _)); decide)
      | split
      | ((with_reducible apply Mod.sameBut_foldl); intro x e)
      | ((with_reducible apply Mod.sameBut_foldl_fst); intro x e)
      | dsimp only
      | ((with_reducible apply Mod.sameBut_mk); rotate_left; all_goals (try (intro hp; first | exact (hp (by decide)).elim | rfl)))

theorem Mod.e2eAck_sameBut (m : Mod) : Mod.sameBut [.regs, .evIn, .fab] m (Mod.e2eAck m) := by
  unfold Mod.e2eAck
  repeat'
    first
      | with_reducible exact Mod.sameBut_refl _ _
      | with_reducible assumption
      | (extract_lets +onlyGivenNames y; first | (refine Mod.sameBut_cut y (fun hy => ?_) ?_; rotate_left; subst y; rotate_left; clear_value y) | (refine Mod.sameBut_cut_fst y (fun hy => ?_) ?_; rotate_left; subst y; rotate_left; clear_value y) | clear_value y)
      | ((with_reducible apply Mod.sameBut_step (Mod.launch_sameBut _ _)); decide)
      | ((with_reducible refine Mod.sameBut_mono (Mod.takeFlit_some (m := m) (p := _) (by assumption)) ?_); decide)
      | exact Mod.sameBut_mono (Mod.takeFlit_some (Option.ite_none_left_eq_some.1 ‹_›).2) (by decide)
      | split
      | ((with_reducible apply Mod.sameBut_foldl); intro x e)
      | ((with_reducible apply Mod.sameBut_foldl_fst); intro x e)
      | dsimp only
      | ((with_reducible apply Mod.sameBut_mk); rotate_left; all_goals (try (intro hp; first | exact (hp (by decide)).elim | rfl)))

theorem Mod.heldOrLoaded_sameBut (m : Mod) (a1 : Nat) (a2 : GPass) (a3 : Binding) (a4 : SliceEnt) (a5 : GSlice) : Mod.sameBut [.regs, .mem, .pool, .groom] m (Mod.heldOrLoaded m a1 a2 a3 a4 a5).1 := by
  unfold Mod.heldOrLoaded
  repeat'
    first
      | with_reducible exact Mod.sameBut_refl _ _
      | with_reducible assumption
      | (extract_lets +onlyGivenNames y; first | (refine Mod.sameBut_cut y (fun hy => ?_) ?_; rotate_left; subst y; rotate_left; clear_value y) | (refine Mod.sameBut_cut_fst y (fun hy => ?_) ?_; rotate_left; subst y; rotate_left; clear_value y) | clear_value y)
      | ((with_reducible apply Mod.sameBut_step (Mod.passHeld_sameBut _ _ _ _ _ _ _ _)); decide)
      | ((with_reducible apply Mod.sameBut_step (Mod.openAt_sameBut _ _ _ _ _ _)); decide)
      | ((with_reducible apply Mod.sameBut_step (Mod.sliceOpen_sameBut _ _ _ _ _)); decide)
      | split
      | dsimp only

theorem Mod.groomEnd_sameBut (m : Mod) (a1 : Nat) : Mod.sameBut [.regs, .step, .mem, .pool, .groom] m (Mod.groomEnd m a1) := by
  unfold Mod.groomEnd
  split
  · rename_i ps g e sl _ _
    have hb := Mod.sameBut_mono (qs := [.regs, .step, .mem, .pool, .groom]) (Mod.heldOrLoaded_sameBut m a1 ps g e sl) (by decide)
    split
    · rename_i heq
      rw [heq] at hb
      exact Mod.sameBut_step (Mod.afterElem_sameBut _ _ _ _ _ _ _) (by decide) (Mod.sameBut_step (Mod.trainStore_sameBut _ _ _ _ _ _ _ _ _ _) (by decide) hb)
    · rename_i heq
      rw [heq] at hb
      exact Mod.sameBut_step (Mod.afterElem_sameBut _ _ _ _ _ _ _) (by decide) hb
  · exact Mod.sameBut_refl _ _

theorem Mod.elemEndStep_sameBut (m : Mod) (a1 : Engine) : Mod.sameBut [.regs, .evIn, .sched, .cores, .step, .mem, .pool, .groom] m (Mod.elemEndStep m a1) := by
  unfold Mod.elemEndStep
  repeat'
    first
      | with_reducible exact Mod.sameBut_refl _ _
      | with_reducible assumption
      | (extract_lets +onlyGivenNames y; first | (refine Mod.sameBut_cut y (fun hy => ?_) ?_; rotate_left; subst y; rotate_left; clear_value y) | (refine Mod.sameBut_cut_fst y (fun hy => ?_) ?_; rotate_left; subst y; rotate_left; clear_value y) | clear_value y)
      | ((with_reducible apply Mod.sameBut_step (Mod.coreEnd_sameBut _ _)); decide)
      | ((with_reducible apply Mod.sameBut_step (Mod.groomEnd_sameBut _ _)); decide)
      | split
      | dsimp only

theorem Mod.groomElem_sameBut (m : Mod) (a1 : Nat) (a2 : ElemInstr) : Mod.sameBut [.regs, .step, .mem, .pool, .groom] m (Mod.groomElem m a1 a2) := by
  unfold Mod.groomElem
  split
  · rename_i ps g e sl _ _
    have hb := Mod.sameBut_mono (qs := [.regs, .step, .mem, .pool, .groom]) (Mod.heldOrLoaded_sameBut m a1 ps g e sl) (by decide)
    split
    · rename_i heq
      rw [heq] at hb
      exact Mod.sameBut_step (Mod.setPass_sameBut _ _ _ _) (by decide) (Mod.sameBut_step (Mod.passPoison_sameBut _ _ _) (by decide) hb)
    · rename_i heq
      rw [heq] at hb
      exact Mod.sameBut_step (Mod.afterElem_sameBut _ _ _ _ _ _ _) (by decide) hb
  · exact Mod.sameBut_refl _ _

theorem Mod.elemStep_sameBut (m : Mod) (a1 : Engine) (a2 : ElemInstr) : Mod.sameBut [.regs, .cores, .step, .mem, .pool, .groom] m (Mod.elemStep m a1 a2) := by
  unfold Mod.elemStep
  repeat'
    first
      | with_reducible exact Mod.sameBut_refl _ _
      | with_reducible assumption
      | (extract_lets +onlyGivenNames y; first | (refine Mod.sameBut_cut y (fun hy => ?_) ?_; rotate_left; subst y; rotate_left; clear_value y) | (refine Mod.sameBut_cut_fst y (fun hy => ?_) ?_; rotate_left; subst y; rotate_left; clear_value y) | clear_value y)
      | ((with_reducible apply Mod.sameBut_step (Mod.coreElem_sameBut _ _ _)); decide)
      | ((with_reducible apply Mod.sameBut_step (Mod.groomElem_sameBut _ _ _)); decide)
      | split
      | dsimp only

theorem Mod.fwuFailed_sameBut (m : Mod) (a1 : Nat) (a2 : Nat) (a3 : Nat) : Mod.sameBut [.regs, .evIn] m (Mod.fwuFailed m a1 a2 a3) := by
  unfold Mod.fwuFailed
  repeat'
    first
      | with_reducible exact Mod.sameBut_refl _ _
      | with_reducible assumption
      | (extract_lets +onlyGivenNames y; first | (refine Mod.sameBut_cut y (fun hy => ?_) ?_; rotate_left; subst y; rotate_left; clear_value y) | (refine Mod.sameBut_cut_fst y (fun hy => ?_) ?_; rotate_left; subst y; rotate_left; clear_value y) | clear_value y)
      | ((with_reducible apply Mod.sameBut_step (Mod.raise_sameBut _ _ _ _ _ _ _)); decide)
      | ((with_reducible apply Mod.sameBut_step (Mod.fset_sameBut _ _ _ _ _)); decide)
      | split
      | dsimp only

theorem Mod.sessionLost_sameBut (m : Mod) (a1 : Nat) (a2 : Nat) : Mod.sameBut [.regs, .evIn, .sec] m (Mod.sessionLost m a1 a2) := by
  unfold Mod.sessionLost
  repeat'
    first
      | with_reducible exact Mod.sameBut_refl _ _
      | with_reducible assumption
      | (extract_lets +onlyGivenNames y; first | (refine Mod.sameBut_cut y (fun hy => ?_) ?_; rotate_left; subst y; rotate_left; clear_value y) | (refine Mod.sameBut_cut_fst y (fun hy => ?_) ?_; rotate_left; subst y; rotate_left; clear_value y) | clear_value y)
      | ((with_reducible apply Mod.sameBut_step (Mod.setMark_sameBut _ _ _)); decide)
      | ((with_reducible apply Mod.sameBut_step (Mod.fwuFailed_sameBut _ _ _ _)); decide)
      | split
      | dsimp only
      | ((with_reducible apply Mod.sameBut_mk); rotate_left; all_goals (try (intro hp; first | exact (hp (by decide)).elim | rfl)))

theorem Mod.endFail_sameBut (m : Mod) (a1 : Path) (a2 : Nat) : Mod.sameBut [.regs, .evIn, .host, .sec] m (Mod.endFail m a1 a2) := by
  unfold Mod.endFail
  repeat'
    first
      | with_reducible exact Mod.sameBut_refl _ _
      | with_reducible assumption
      | (extract_lets +onlyGivenNames y; first | (refine Mod.sameBut_cut y (fun hy => ?_) ?_; rotate_left; subst y; rotate_left; clear_value y) | (refine Mod.sameBut_cut_fst y (fun hy => ?_) ?_; rotate_left; subst y; rotate_left; clear_value y) | clear_value y)
      | ((with_reducible apply Mod.sameBut_step (Mod.cmdDone_sameBut _ _ _ _)); decide)
      | ((with_reducible apply Mod.sameBut_step (Mod.sessionLost_sameBut _ _ _)); decide)
      | split
      | dsimp only

theorem Mod.fetchRead_sameBut (m : Mod) (a1 : TileRun) (a2 : Nat) (a3 : List (Prod Nat Nat)) (a4 : Ecc) : Mod.sameBut [.regs, .evIn, .cores, .step, .mem, .fab, .dbg] m (Mod.fetchRead m a1 a2 a3 a4).1 := by
  unfold Mod.fetchRead
  repeat'
    first
      | with_reducible exact Mod.sameBut_refl _ _
      | with_reducible assumption
      | (extract_lets +onlyGivenNames y; first | (refine Mod.sameBut_cut y (fun hy => ?_) ?_; rotate_left; subst y; rotate_left; clear_value y) | (refine Mod.sameBut_cut_fst y (fun hy => ?_) ?_; rotate_left; subst y; rotate_left; clear_value y) | clear_value y)
      | ((with_reducible apply Mod.sameBut_step (Mod.dropReads_sameBut _ _)); decide)
      | ((with_reducible apply Mod.sameBut_step (Mod.yard_sameBut _ _ _ _ _)); decide)
      | ((with_reducible apply Mod.sameBut_step (Mod.readDev_sameBut _ _ _ _)); decide)
      | split
      | ((with_reducible apply Mod.sameBut_foldl); intro x e)
      | ((with_reducible apply Mod.sameBut_foldl_fst); intro x e)
      | dsimp only

theorem Mod.stage_sameBut (m : Mod) (a1 : Nat) (a2 : List EtchJob) : Mod.sameBut [.stm] m (Mod.stage m a1 a2) := by
  unfold Mod.stage
  repeat'
    first
      | with_reducible exact Mod.sameBut_refl _ _
      | with_reducible assumption
      | (extract_lets +onlyGivenNames y; first | (refine Mod.sameBut_cut y (fun hy => ?_) ?_; rotate_left; subst y; rotate_left; clear_value y) | (refine Mod.sameBut_cut_fst y (fun hy => ?_) ?_; rotate_left; subst y; rotate_left; clear_value y) | clear_value y)
      | ((with_reducible apply Mod.sameBut_step (Mod.setEngine_sameBut _ _ _)); decide)
      | split
      | dsimp only

theorem Mod.moveUp_sameBut (m : Mod) (a1 : Nat) (a2 : Nat) : Mod.sameBut [.regs, .mem, .pool] m (Mod.moveUp m a1 a2) := by
  unfold Mod.moveUp
  repeat'
    first
      | with_reducible exact Mod.sameBut_refl _ _
      | with_reducible assumption
      | (extract_lets +onlyGivenNames y; first | (refine Mod.sameBut_cut y (fun hy => ?_) ?_; rotate_left; subst y; rotate_left; clear_value y) | (refine Mod.sameBut_cut_fst y (fun hy => ?_) ?_; rotate_left; subst y; rotate_left; clear_value y) | clear_value y)
      | ((with_reducible apply Mod.sameBut_step (Mod.moveUpTry_sameBut _ _ _)); decide)
      | split
      | dsimp only
      | ((with_reducible apply Mod.sameBut_mk); rotate_left; all_goals (try (intro hp; first | exact (hp (by decide)).elim | rfl)))

theorem Mod.fetchAsk_sameBut (m : Mod) (a1 : StreamDesc) (a2 : TileRun) (a3 : Nat) (a4 : List (Prod Nat Nat)) : Mod.sameBut [.regs, .evIn, .mem, .pool, .fab] m (Mod.fetchAsk m a1 a2 a3 a4).1 := by
  unfold Mod.fetchAsk
  repeat'
    first
      | with_reducible exact Mod.sameBut_refl _ _
      | with_reducible assumption
      | (extract_lets +onlyGivenNames y; first | (refine Mod.sameBut_cut y (fun hy => ?_) ?_; rotate_left; subst y; rotate_left; clear_value y) | (refine Mod.sameBut_cut_fst y (fun hy => ?_) ?_; rotate_left; subst y; rotate_left; clear_value y) | clear_value y)
      | ((with_reducible apply Mod.sameBut_step (Mod.askRemote_sameBut _ _ _ _ _)); decide)
      | ((with_reducible apply Mod.sameBut_step (Mod.moveUp_sameBut _ _ _)); decide)
      | split
      | ((with_reducible apply Mod.sameBut_foldl); intro x e)
      | ((with_reducible apply Mod.sameBut_foldl_fst); intro x e)
      | dsimp only

theorem Mod.etchFetch_sameBut (a0 : StreamDesc) (a1 : Ecc) (a2 : Nat) (m : Mod) (a4 : TileRun) : Mod.sameBut [.regs, .evIn, .cores, .step, .mem, .pool, .stm, .fab, .dbg] m (Mod.etchFetch a0 a1 a2 m a4).1 := by
  fun_induction Mod.etchFetch a0 a1 a2 m a4
  repeat'
    first
      | with_reducible exact Mod.sameBut_refl _ _
      | with_reducible assumption
      | (extract_lets +onlyGivenNames y; first | (refine Mod.sameBut_cut y (fun hy => ?_) ?_; rotate_left; subst y; rotate_left; clear_value y) | (refine Mod.sameBut_cut_fst y (fun hy => ?_) ?_; rotate_left; subst y; rotate_left; clear_value y) | clear_value y)
      | ((with_reducible apply Mod.sameBut_step (Mod.fetchAsk_sameBut _ _ _ _ _)); decide)
      | ((with_reducible apply Mod.sameBut_step (Mod.fetchRead_sameBut _ _ _ _ _)); decide)
      | ((with_reducible apply Mod.sameBut_step (Mod.stage_sameBut _ _ _)); decide)
      | with_reducible refine Mod.sameBut_trans ?_ (by assumption)
      | dsimp +zetaDelta only
      | split
      | dsimp only

theorem Mod.nonfiniteOnce_sameBut (m : Mod) (a1 : Nat) (a2 : CollOp) (a3 : Nat) : Mod.sameBut [.regs, .evIn, .coll] m (Mod.nonfiniteOnce m a1 a2 a3) := by
  unfold Mod.nonfiniteOnce
  repeat'
    first
      | with_reducible exact Mod.sameBut_refl _ _
      | with_reducible assumption
      | (extract_lets +onlyGivenNames y; first | (refine Mod.sameBut_cut y (fun hy => ?_) ?_; rotate_left; subst y; rotate_left; clear_value y) | (refine Mod.sameBut_cut_fst y (fun hy => ?_) ?_; rotate_left; subst y; rotate_left; clear_value y) | clear_value y)
      | ((with_reducible apply Mod.sameBut_step (Mod.raise_sameBut _ _ _ _ _ _ _)); decide)
      | ((with_reducible apply Mod.sameBut_step (Mod.fset_sameBut _ _ _ _ _)); decide)
      | ((with_reducible apply Mod.sameBut_step (Mod.setOp_sameBut _ _ _)); decide)
      | split
      | dsimp only

theorem Mod.exchangeSlice_sameBut (m : Mod) (a1 : Nat) (a2 : CollOp) (a3 : Nat) (a4 : Ecc) (a5 : Nat) : Mod.sameBut [.regs, .evIn, .sched, .cores, .step, .mem, .coll, .fab, .dbg] m (Mod.exchangeSlice m a1 a2 a3 a4 a5) := by
  unfold Mod.exchangeSlice
  repeat'
    first
      | with_reducible exact Mod.sameBut_refl _ _
      | with_reducible assumption
      | (extract_lets +onlyGivenNames y; first | (refine Mod.sameBut_cut y (fun hy => ?_) ?_; rotate_left; subst y; rotate_left; clear_value y) | (refine Mod.sameBut_cut_fst y (fun hy => ?_) ?_; rotate_left; subst y; rotate_left; clear_value y) | clear_value y)
      | ((with_reducible apply Mod.sameBut_step (Mod.sliceRead_sameBut _ _ _ _)); decide)
      | ((with_reducible apply Mod.sameBut_step (Mod.residRead_sameBut _ _ _ _ _)); decide)
      | ((with_reducible apply Mod.sameBut_step (Mod.residWrite_sameBut _ _ _ _ _ _)); decide)
      | ((with_reducible apply Mod.sameBut_step (Mod.redFlags_sameBut _ _ _)); decide)
      | ((with_reducible apply Mod.sameBut_step (Mod.nonfiniteOnce_sameBut _ _ _ _)); decide)
      | ((with_reducible apply Mod.sameBut_step (Mod.contribute_sameBut _ _ _ _ _ _ _ _)); decide)
      | split
      | dsimp only

theorem Mod.exchange_sameBut (m : Mod) (a1 : Nat) (a2 : Ecc) : Mod.sameBut [.regs, .evIn, .sched, .cores, .step, .mem, .groom, .coll, .fab, .dbg] m (Mod.exchange m a1 a2) := by
  unfold Mod.exchange
  repeat'
    first
      | with_reducible exact Mod.sameBut_refl _ _
      | with_reducible assumption
      | (extract_lets +onlyGivenNames y; first | (refine Mod.sameBut_cut y (fun hy => ?_) ?_; rotate_left; subst y; rotate_left; clear_value y) | (refine Mod.sameBut_cut_fst y (fun hy => ?_) ?_; rotate_left; subst y; rotate_left; clear_value y) | clear_value y)
      | ((with_reducible apply Mod.sameBut_step (Mod.opRead_sameBut _ _ _ _)); decide)
      | ((with_reducible apply Mod.sameBut_step (Mod.accumSlice_sameBut _ _ _ _ _)); decide)
      | ((with_reducible apply Mod.sameBut_step (Mod.setOp_sameBut _ _ _)); decide)
      | ((with_reducible apply Mod.sameBut_step (Mod.exchangeSlice_sameBut _ _ _ _ _ _)); decide)
      | ((with_reducible apply Mod.sameBut_step (Mod.collProgress_sameBut _ _)); decide)
      | split
      | ((with_reducible apply Mod.sameBut_foldl); intro x e)
      | ((with_reducible apply Mod.sameBut_foldl_fst); intro x e)
      | dsimp only
      | ((with_reducible apply Mod.sameBut_mk); rotate_left; all_goals (try (intro hp; first | exact (hp (by decide)).elim | rfl)))

theorem Mod.markTile_sameBut (m : Mod) (a1 : Nat) (a2 : EtchJob) : Mod.sameBut [.stm] m (Mod.markTile m a1 a2) := by
  unfold Mod.markTile
  repeat'
    first
      | with_reducible exact Mod.sameBut_refl _ _
      | with_reducible assumption
      | (extract_lets +onlyGivenNames y; first | (refine Mod.sameBut_cut y (fun hy => ?_) ?_; rotate_left; subst y; rotate_left; clear_value y) | (refine Mod.sameBut_cut_fst y (fun hy => ?_) ?_; rotate_left; subst y; rotate_left; clear_value y) | clear_value y)
      | ((with_reducible apply Mod.sameBut_step (Mod.setCtx_sameBut _ _ _)); decide)
      | split
      | dsimp only

theorem Mod.snoop_sameBut (m : Mod) (a1 : Nat) (a2 : List (Prod Byte Bool)) : Mod.sameBut [.chk] m (Mod.snoop m a1 a2) := by
  unfold Mod.snoop
  repeat'
    first
      | with_reducible exact Mod.sameBut_refl _ _
      | with_reducible assumption
      | (extract_lets +onlyGivenNames y; first | (refine Mod.sameBut_cut y (fun hy => ?_) ?_; rotate_left; subst y; rotate_left; clear_value y) | (refine Mod.sameBut_cut_fst y (fun hy => ?_) ?_; rotate_left; subst y; rotate_left; clear_value y) | clear_value y)
      | split
      | dsimp only
      | ((with_reducible apply Mod.sameBut_mk); rotate_left; all_goals (try (intro hp; first | exact (hp (by decide)).elim | rfl)))

theorem Mod.tilePut_sameBut (m : Mod) (a1 : StreamDesc) (a2 : Nat) (a3 : List (Prod Byte Bool)) (a4 : Ecc) : Mod.sameBut [.regs, .evIn, .cores, .step, .mem, .chk, .dbg] m (Mod.tilePut m a1 a2 a3 a4) := by
  unfold Mod.tilePut
  repeat'
    first
      | with_reducible exact Mod.sameBut_refl _ _
      | with_reducible assumption
      | (extract_lets +onlyGivenNames y; first | (refine Mod.sameBut_cut y (fun hy => ?_) ?_; rotate_left; subst y; rotate_left; clear_value y) | (refine Mod.sameBut_cut_fst y (fun hy => ?_) ?_; rotate_left; subst y; rotate_left; clear_value y) | clear_value y)
      | ((with_reducible apply Mod.sameBut_step (Mod.snoop_sameBut _ _ _)); decide)
      | ((with_reducible apply Mod.sameBut_step (Mod.devWriteP_sameBut _ _ _)); decide)
      | ((with_reducible apply Mod.sameBut_step (Mod.mergeDev_sameBut _ _ _ _ _)); decide)
      | ((with_reducible apply Mod.sameBut_step (Mod.yard_sameBut _ _ _ _ _)); decide)
      | split
      | dsimp only

theorem Mod.expandJob_sameBut (m : Mod) (a1 : Nat) (a2 : StreamDesc) (a3 : EtchJob) (a4 : Ecc) : Mod.sameBut [.regs, .evIn, .cores, .step, .mem, .stm, .chk, .dbg] m (Mod.expandJob m a1 a2 a3 a4) := by
  unfold Mod.expandJob
  repeat'
    first
      | with_reducible exact Mod.sameBut_refl _ _
      | with_reducible assumption
      | (extract_lets +onlyGivenNames y; first | (refine Mod.sameBut_cut y (fun hy => ?_) ?_; rotate_left; subst y; rotate_left; clear_value y) | (refine Mod.sameBut_cut_fst y (fun hy => ?_) ?_; rotate_left; subst y; rotate_left; clear_value y) | clear_value y)
      | ((with_reducible apply Mod.sameBut_step (Mod.setEngine_sameBut _ _ _)); decide)
      | ((with_reducible apply Mod.sameBut_step (Mod.fsat_sameBut _ _ _ _ _)); decide)
      | ((with_reducible apply Mod.sameBut_step (Mod.tilePut_sameBut _ _ _ _ _)); decide)
      | ((with_reducible apply Mod.sameBut_step (Mod.markTile_sameBut _ _ _)); decide)
      | ((with_reducible apply Mod.sameBut_step (Mod.raiseStep_sameBut _ _ _ _ _ _)); decide)
      | ((with_reducible apply Mod.sameBut_step (Mod.fset_sameBut _ _ _ _ _)); decide)
      | split
      | dsimp only
      | ((with_reducible apply Mod.sameBut_mk); rotate_left; all_goals (try (intro hp; first | exact (hp (by decide)).elim | rfl)))

theorem Mod.fenceServe_sameBut (m : Mod) (a1 : Nat) : Mod.sameBut [.regs, .evIn, .sched, .cores, .step, .mem, .groom, .coll, .fab, .dbg] m (Mod.fenceServe m a1) := by
  unfold Mod.fenceServe
  repeat'
    first
      | with_reducible exact Mod.sameBut_refl _ _
      | with_reducible assumption
      | (extract_lets +onlyGivenNames y; first | (refine Mod.sameBut_cut y (fun hy => ?_) ?_; rotate_left; subst y; rotate_left; clear_value y) | (refine Mod.sameBut_cut_fst y (fun hy => ?_) ?_; rotate_left; subst y; rotate_left; clear_value y) | clear_value y)
      | ((with_reducible apply Mod.sameBut_step (Mod.sendXfer_sameBut _ _ _ _ _ _ _ _)); decide)
      | ((with_reducible apply Mod.sameBut_step (Mod.fset_sameBut _ _ _ _ _)); decide)
      | ((with_reducible apply Mod.sameBut_step (Mod.collProgress_sameBut _ _)); decide)
      | ((with_reducible apply Mod.sameBut_step (Mod.setOp_sameBut _ _ _)); decide)
      | split
      | ((with_reducible apply Mod.sameBut_foldl); intro x e)
      | ((with_reducible apply Mod.sameBut_foldl_fst); intro x e)
      | dsimp only

theorem Mod.fencedRaise_sameBut (m : Mod) : Mod.sameBut [.evIn, .step] m (Mod.fencedRaise m) := by
  unfold Mod.fencedRaise
  repeat'
    first
      | with_reducible exact Mod.sameBut_refl _ _
      | with_reducible assumption
      | (extract_lets +onlyGivenNames y; first | (refine Mod.sameBut_cut y (fun hy => ?_) ?_; rotate_left; subst y; rotate_left; clear_value y) | (refine Mod.sameBut_cut_fst y (fun hy => ?_) ?_; rotate_left; subst y; rotate_left; clear_value y) | clear_value y)
      | ((with_reducible apply Mod.sameBut_step (Mod.raiseStep_sameBut _ _ _ _ _ _)); decide)
      | split
      | ((with_reducible apply Mod.sameBut_foldl); intro x e)
      | ((with_reducible apply Mod.sameBut_foldl_fst); intro x e)
      | dsimp only

theorem Mod.sramFill_sameBut (m : Mod) (a1 : Nat) (a2 : Nat) (a3 : List (Prod Byte Bool)) : Mod.sameBut [.mem] m (Mod.sramFill m a1 a2 a3) := by
  unfold Mod.sramFill
  repeat'
    first
      | with_reducible exact Mod.sameBut_refl _ _
      | with_reducible assumption
      | (extract_lets +onlyGivenNames y; first | (refine Mod.sameBut_cut y (fun hy => ?_) ?_; rotate_left; subst y; rotate_left; clear_value y) | (refine Mod.sameBut_cut_fst y (fun hy => ?_) ?_; rotate_left; subst y; rotate_left; clear_value y) | clear_value y)
      | ((with_reducible apply Mod.sameBut_step (Mod.sramWrite_sameBut _ _ _ _)); decide)
      | split
      | dsimp only

theorem Mod.fillRanks_sameBut (a0 : Nat) (a1 : Nat) (m : Mod) (a3 : List Nat) (a4 : List (Prod Byte Bool)) : Mod.sameBut [.mem] m (Mod.fillRanks a0 a1 m a3 a4) := by
  fun_induction Mod.fillRanks a0 a1 m a3 a4
  repeat'
    first
      | with_reducible exact Mod.sameBut_refl _ _
      | with_reducible assumption
      | (extract_lets +onlyGivenNames y; first | (refine Mod.sameBut_cut y (fun hy => ?_) ?_; rotate_left; subst y; rotate_left; clear_value y) | (refine Mod.sameBut_cut_fst y (fun hy => ?_) ?_; rotate_left; subst y; rotate_left; clear_value y) | clear_value y)
      | ((with_reducible apply Mod.sameBut_step (Mod.sramFill_sameBut _ _ _ _)); decide)
      | with_reducible refine Mod.sameBut_trans ?_ (by assumption)
      | split
      | dsimp only

theorem Mod.resultActions_sameBut (m : Mod) (a1 : Bool) (a2 : Ecc) : Mod.sameBut [.regs, .evIn, .step, .mem] m (Mod.resultActions m a1 a2) := by
  unfold Mod.resultActions
  repeat'
    first
      | with_reducible exact Mod.sameBut_refl _ _
      | with_reducible assumption
      | (extract_lets +onlyGivenNames y; first | (refine Mod.sameBut_cut y (fun hy => ?_) ?_; rotate_left; subst y; rotate_left; clear_value y) | (refine Mod.sameBut_cut_fst y (fun hy => ?_) ?_; rotate_left; subst y; rotate_left; clear_value y) | clear_value y)
      | ((with_reducible apply Mod.sameBut_step (Mod.normAll_sameBut _ _ _)); decide)
      | ((with_reducible apply Mod.sameBut_step (Mod.mergeAll_sameBut _ _ _)); decide)
      | split
      | dsimp only

theorem Mod.groomVerdict_sameBut (m : Mod) : Mod.sameBut [.groom] m (Mod.groomVerdict m) := by
  unfold Mod.groomVerdict
  repeat'
    first
      | with_reducible exact Mod.sameBut_refl _ _
      | with_reducible assumption
      | (extract_lets +onlyGivenNames y; first | (refine Mod.sameBut_cut y (fun hy => ?_) ?_; rotate_left; subst y; rotate_left; clear_value y) | (refine Mod.sameBut_cut_fst y (fun hy => ?_) ?_; rotate_left; subst y; rotate_left; clear_value y) | clear_value y)
      | split
      | dsimp only
      | ((with_reducible apply Mod.sameBut_mk); rotate_left; all_goals (try (intro hp; first | exact (hp (by decide)).elim | rfl)))

theorem Mod.padReleaseAll_sameBut (m : Mod) : Mod.sameBut [.pool, .pad] m (Mod.padReleaseAll m) := by
  unfold Mod.padReleaseAll
  repeat'
    first
      | with_reducible exact Mod.sameBut_refl _ _
      | with_reducible assumption
      | (extract_lets +onlyGivenNames y; first | (refine Mod.sameBut_cut y (fun hy => ?_) ?_; rotate_left; subst y; rotate_left; clear_value y) | (refine Mod.sameBut_cut_fst y (fun hy => ?_) ?_; rotate_left; subst y; rotate_left; clear_value y) | clear_value y)
      | ((with_reducible apply Mod.sameBut_step (Mod.padRelease_sameBut _ _)); decide)
      | split
      | ((with_reducible apply Mod.sameBut_foldl); intro x e)
      | ((with_reducible apply Mod.sameBut_foldl_fst); intro x e)
      | dsimp only

theorem Mod.stmVerdict_sameBut (m : Mod) : Mod.sameBut [.regs, .mem, .pool, .stm, .groom, .chk, .fab] m (Mod.stmVerdict m) := by
  unfold Mod.stmVerdict
  repeat'
    first
      | with_reducible exact Mod.sameBut_refl _ _
      | with_reducible assumption
      | (extract_lets +onlyGivenNames y; first | (refine Mod.sameBut_cut y (fun hy => ?_) ?_; rotate_left; subst y; rotate_left; clear_value y) | (refine Mod.sameBut_cut_fst y (fun hy => ?_) ?_; rotate_left; subst y; rotate_left; clear_value y) | clear_value y)
      | ((with_reducible apply Mod.sameBut_step (Mod.ctxVerdict_sameBut _ _)); decide)
      | split
      | ((with_reducible apply Mod.sameBut_foldl); intro x e)
      | ((with_reducible apply Mod.sameBut_foldl_fst); intro x e)
      | dsimp only

theorem Mod.verdictRegs_sameBut (m : Mod) (a1 : VerdictRec) : Mod.sameBut [.regs] m (Mod.verdictRegs m a1) := by
  unfold Mod.verdictRegs
  repeat'
    first
      | with_reducible exact Mod.sameBut_refl _ _
      | with_reducible assumption
      | (extract_lets +onlyGivenNames y; first | (refine Mod.sameBut_cut y (fun hy => ?_) ?_; rotate_left; subst y; rotate_left; clear_value y) | (refine Mod.sameBut_cut_fst y (fun hy => ?_) ?_; rotate_left; subst y; rotate_left; clear_value y) | clear_value y)
      | ((with_reducible apply Mod.sameBut_step (Mod.fset_sameBut _ _ _ _ _)); decide)
      | ((with_reducible apply Mod.sameBut_step (Mod.set64_sameBut _ _ _ _ _)); decide)
      | split
      | ((with_reducible apply Mod.sameBut_foldl); intro x e)
      | ((with_reducible apply Mod.sameBut_foldl_fst); intro x e)
      | dsimp only

theorem Mod.passDrop_sameBut (m : Mod) (a1 : Nat) : Mod.sameBut [.pool] m (Mod.passDrop m a1) := by
  unfold Mod.passDrop
  repeat'
    first
      | with_reducible exact Mod.sameBut_refl _ _
      | with_reducible assumption
      | (extract_lets +onlyGivenNames y; first | (refine Mod.sameBut_cut y (fun hy => ?_) ?_; rotate_left; subst y; rotate_left; clear_value y) | (refine Mod.sameBut_cut_fst y (fun hy => ?_) ?_; rotate_left; subst y; rotate_left; clear_value y) | clear_value y)
      | ((with_reducible apply Mod.sameBut_step (Mod.dropObj_sameBut _ _)); decide)
      | ((with_reducible apply Mod.sameBut_step (Mod.setObj_sameBut _ _ _)); decide)
      | split
      | ((with_reducible apply Mod.sameBut_foldl); intro x e)
      | ((with_reducible apply Mod.sameBut_foldl_fst); intro x e)
      | dsimp only

theorem Mod.passesDrop_sameBut (m : Mod) : Mod.sameBut [.pool] m (Mod.passesDrop m) := by
  unfold Mod.passesDrop
  repeat'
    first
      | with_reducible exact Mod.sameBut_refl _ _
      | with_reducible assumption
      | (extract_lets +onlyGivenNames y; first | (refine Mod.sameBut_cut y (fun hy => ?_) ?_; rotate_left; subst y; rotate_left; clear_value y) | (refine Mod.sameBut_cut_fst y (fun hy => ?_) ?_; rotate_left; subst y; rotate_left; clear_value y) | clear_value y)
      | ((with_reducible apply Mod.sameBut_step (Mod.passDrop_sameBut _ _)); decide)
      | split
      | ((with_reducible apply Mod.sameBut_foldl); intro x e)
      | ((with_reducible apply Mod.sameBut_foldl_fst); intro x e)
      | dsimp only

theorem Mod.finalActions_sameBut (m : Mod) (a1 : VerdictRec) (a2 : Ecc) : Mod.sameBut [.regs, .evIn, .plt, .sched, .step, .mem, .pool, .pad, .stm, .groom, .coll, .chk, .fab] m (Mod.finalActions m a1 a2) := by
  unfold Mod.finalActions
  repeat'
    first
      | with_reducible exact Mod.sameBut_refl _ _
      | with_reducible assumption
      | (extract_lets +onlyGivenNames y; first | (refine Mod.sameBut_cut y (fun hy => ?_) ?_; rotate_left; subst y; rotate_left; clear_value y) | (refine Mod.sameBut_cut_fst y (fun hy => ?_) ?_; rotate_left; subst y; rotate_left; clear_value y) | clear_value y)
      | ((with_reducible apply Mod.sameBut_step (Mod.commitActions_sameBut _ _ _)); decide)
      | ((with_reducible apply Mod.sameBut_step (Mod.resultActions_sameBut _ _ _)); decide)
      | ((with_reducible apply Mod.sameBut_step (Mod.flipDeferred_sameBut _ _ _)); decide)
      | ((with_reducible apply Mod.sameBut_step (Mod.padReleaseAll_sameBut _)); decide)
      | ((with_reducible apply Mod.sameBut_step (Mod.groomVerdict_sameBut _)); decide)
      | ((with_reducible apply Mod.sameBut_step (Mod.passesDrop_sameBut _)); decide)
      | ((with_reducible apply Mod.sameBut_step (Mod.verdictRegs_sameBut _ _)); decide)
      | ((with_reducible apply Mod.sameBut_step (Mod.stmVerdict_sameBut _)); decide)
      | ((with_reducible apply Mod.sameBut_step (Mod.collAbandon_sameBut _)); decide)
      | ((with_reducible apply Mod.sameBut_step (Mod.endStables_sameBut _)); decide)
      | split
      | dsimp only
      | ((with_reducible apply Mod.sameBut_mk); rotate_left; all_goals (try (intro hp; first | exact (hp (by decide)).elim | rfl)))

theorem Mod.exchanged_sameBut (m : Mod) (a1 : Nat) : Mod.sameBut [.regs, .evIn, .fab, .dbg] m (Mod.exchanged m a1) := by
  unfold Mod.exchanged
  repeat'
    first
      | with_reducible exact Mod.sameBut_refl _ _
      | with_reducible assumption
      | (extract_lets +onlyGivenNames y; first | (refine Mod.sameBut_cut y (fun hy => ?_) ?_; rotate_left; subst y; rotate_left; clear_value y) | (refine Mod.sameBut_cut_fst y (fun hy => ?_) ?_; rotate_left; subst y; rotate_left; clear_value y) | clear_value y)
      | ((with_reducible apply Mod.sameBut_step (Mod.trace_sameBut _ _ _ _ _ _ _)); decide)
      | ((with_reducible apply Mod.sameBut_step (Mod.setPort_sameBut _ _ _)); decide)
      | ((with_reducible apply Mod.sameBut_step (Mod.degraded_sameBut _ _ _ _)); decide)
      | split
      | dsimp only

theorem Mod.flitSlot_sameBut (m : Mod) (a1 : Nat) (a2 : Nat) (a3 : Nat) : Mod.sameBut [.regs, .evIn, .host, .fab, .dbg] m (Mod.flitSlot m a1 a2 a3) := by
  unfold Mod.flitSlot
  repeat'
    first
      | with_reducible exact Mod.sameBut_refl _ _
      | with_reducible assumption
      | (extract_lets +onlyGivenNames y; first | (refine Mod.sameBut_cut y (fun hy => ?_) ?_; rotate_left; subst y; rotate_left; clear_value y) | (refine Mod.sameBut_cut_fst y (fun hy => ?_) ?_; rotate_left; subst y; rotate_left; clear_value y) | clear_value y)
      | ((with_reducible apply Mod.sameBut_step (Mod.exchanged_sameBut _ _)); decide)
      | ((with_reducible apply Mod.sameBut_step (Mod.emit_sameBut _ _)); decide)
      | ((with_reducible apply Mod.sameBut_step (Mod.setPort_sameBut _ _ _)); decide)
      | split
      | dsimp only

theorem Mod.freezeAsk_sameBut (m : Mod) (a1 : Bool) : Mod.sameBut [.regs, .evIn, .host, .plt, .fab, .dbg] m (Mod.freezeAsk m a1) := by
  unfold Mod.freezeAsk
  repeat'
    first
      | with_reducible exact Mod.sameBut_refl _ _
      | with_reducible assumption
      | (extract_lets +onlyGivenNames y; first | (refine Mod.sameBut_cut y (fun hy => ?_) ?_; rotate_left; subst y; rotate_left; clear_value y) | (refine Mod.sameBut_cut_fst y (fun hy => ?_) ?_; rotate_left; subst y; rotate_left; clear_value y) | clear_value y)
      | ((with_reducible apply Mod.sameBut_step (Mod.freeze_sameBut _)); decide)
      | split
      | dsimp only
      | ((with_reducible apply Mod.sameBut_mk); rotate_left; all_goals (try (intro hp; first | exact (hp (by decide)).elim | rfl)))

end Sys2Proof.Machine
end

