-- ==== Sys2Proof/Laws/Frames5.lean ====
section
/-! SUPPORT. What each operation of the module changes, part 5 of 6: `f_sameBut` names the parts of the module that operation `f` may
change (an operation that answers a module and something beside it: its first part). The operations stand before those that use them. -/

namespace Sys2Proof.Machine

theorem Mod.stmReset_sameBut (m : Mod) : Mod.sameBut [.stm, .chk, .fab] m (Mod.stmReset m) := by
  unfold Mod.stmReset
  repeat'
    first
      | with_reducible exact Mod.sameBut_refl _ _
      | with_reducible assumption
      | (extract_lets +onlyGivenNames y; first | (refine Mod.sameBut_cut y (fun hy => ?_) ?_; rotate_left; subst y; rotate_left; clear_value y) | (refine Mod.sameBut_cut_fst y (fun hy => ?_) ?_; rotate_left; subst y; rotate_left; clear_value y) | clear_value y)
      | ((with_reducible apply Mod.sameBut_step (Mod.snoopAbandonAll_sameBut _)); decide)
      | ((with_reducible apply Mod.sameBut_step (Mod.dropReads_sameBut _ _)); decide)
      | split
      | dsimp only
      | ((with_reducible apply Mod.sameBut_mk); rotate_left; all_goals (try (intro hp; first | exact (hp (by decide)).elim | rfl)))

theorem Mod.poolReset_sameBut (m : Mod) : Mod.sameBut [.regs, .pool, .groom] m (Mod.poolReset m) := by
  unfold Mod.poolReset
  repeat'
    first
      | with_reducible exact Mod.sameBut_refl _ _
      | with_reducible assumption
      | (extract_lets +onlyGivenNames y; first | (refine Mod.sameBut_cut y (fun hy => ?_) ?_; rotate_left; subst y; rotate_left; clear_value y) | (refine Mod.sameBut_cut_fst y (fun hy => ?_) ?_; rotate_left; subst y; rotate_left; clear_value y) | clear_value y)
      | ((with_reducible apply Mod.sameBut_step (Mod.dropObj_sameBut _ _)); decide)
      | ((with_reducible apply Mod.sameBut_step (Mod.writeBack_sameBut _ _ _)); decide)
      | split
      | ((with_reducible apply Mod.sameBut_foldl); intro x e)
      | ((with_reducible apply Mod.sameBut_foldl_fst); intro x e)
      | dsimp only
      | ((with_reducible apply Mod.sameBut_mk); rotate_left; all_goals (try (intro hp; first | exact (hp (by decide)).elim | rfl)))

theorem Mod.hostReset_sameBut (m : Mod) : Mod.sameBut [.host] m (Mod.hostReset m) := by
  unfold Mod.hostReset
  repeat'
    first
      | with_reducible exact Mod.sameBut_refl _ _
      | with_reducible assumption
      | (extract_lets +onlyGivenNames y; first | (refine Mod.sameBut_cut y (fun hy => ?_) ?_; rotate_left; subst y; rotate_left; clear_value y) | (refine Mod.sameBut_cut_fst y (fun hy => ?_) ?_; rotate_left; subst y; rotate_left; clear_value y) | clear_value y)
      | split
      | dsimp only
      | ((with_reducible apply Mod.sameBut_mk); rotate_left; all_goals (try (intro hp; first | exact (hp (by decide)).elim | rfl)))

theorem Mod.functionReset_sameBut (m : Mod) : Mod.sameBut [.regs, .host, .sched, .step, .mem, .pool, .pad, .stm, .groom, .coll, .chk, .fab] m (Mod.functionReset m) := by
  unfold Mod.functionReset
  repeat'
    first
      | with_reducible exact Mod.sameBut_refl _ _
      | with_reducible assumption
      | (extract_lets +onlyGivenNames y; first | (refine Mod.sameBut_cut y (fun hy => ?_) ?_; rotate_left; subst y; rotate_left; clear_value y) | (refine Mod.sameBut_cut_fst y (fun hy => ?_) ?_; rotate_left; subst y; rotate_left; clear_value y) | clear_value y)
      | ((with_reducible apply Mod.sameBut_step (Mod.fault_sameBut _ _)); decide)
      | ((with_reducible apply Mod.sameBut_step (Mod.padReleaseAll_sameBut _)); decide)
      | ((with_reducible apply Mod.sameBut_step (Mod.collReset_sameBut _)); decide)
      | ((with_reducible apply Mod.sameBut_step (Mod.stmReset_sameBut _)); decide)
      | ((with_reducible apply Mod.sameBut_step (Mod.poolReset_sameBut _)); decide)
      | ((with_reducible apply Mod.sameBut_step (Mod.fset_sameBut _ _ _ _ _)); decide)
      | ((with_reducible apply Mod.sameBut_step (Mod.hostReset_sameBut _)); decide)
      | split
      | dsimp only
      | ((with_reducible apply Mod.sameBut_mk); rotate_left; all_goals (try (intro hp; first | exact (hp (by decide)).elim | rfl)))

theorem Mod.msixReset_sameBut (m : Mod) : Mod.sameBut [.host] m (Mod.msixReset m) := by
  unfold Mod.msixReset
  repeat'
    first
      | with_reducible exact Mod.sameBut_refl _ _
      | with_reducible assumption
      | (extract_lets +onlyGivenNames y; first | (refine Mod.sameBut_cut y (fun hy => ?_) ?_; rotate_left; subst y; rotate_left; clear_value y) | (refine Mod.sameBut_cut_fst y (fun hy => ?_) ?_; rotate_left; subst y; rotate_left; clear_value y) | clear_value y)
      | split
      | dsimp only
      | ((with_reducible apply Mod.sameBut_mk); rotate_left; all_goals (try (intro hp; first | exact (hp (by decide)).elim | rfl)))

theorem Mod.fundamentalRegs_sameBut (m : Mod) : Mod.sameBut [.regs] m (Mod.fundamentalRegs m) := by
  unfold Mod.fundamentalRegs
  repeat'
    first
      | with_reducible exact Mod.sameBut_refl _ _
      | with_reducible assumption
      | (extract_lets +onlyGivenNames y; first | (refine Mod.sameBut_cut y (fun hy => ?_) ?_; rotate_left; subst y; rotate_left; clear_value y) | (refine Mod.sameBut_cut_fst y (fun hy => ?_) ?_; rotate_left; subst y; rotate_left; clear_value y) | clear_value y)
      | ((with_reducible apply Mod.sameBut_step (Mod.fset_sameBut _ _ _ _ _)); decide)
      | split
      | dsimp only
      | ((with_reducible apply Mod.sameBut_mk); rotate_left; all_goals (try (intro hp; first | exact (hp (by decide)).elim | rfl)))

theorem Mod.unlockLost_sameBut (m : Mod) : Mod.sameBut [.sec] m (Mod.unlockLost m) := by
  unfold Mod.unlockLost
  repeat'
    first
      | with_reducible exact Mod.sameBut_refl _ _
      | with_reducible assumption
      | (extract_lets +onlyGivenNames y; first | (refine Mod.sameBut_cut y (fun hy => ?_) ?_; rotate_left; subst y; rotate_left; clear_value y) | (refine Mod.sameBut_cut_fst y (fun hy => ?_) ?_; rotate_left; subst y; rotate_left; clear_value y) | clear_value y)
      | split
      | dsimp only
      | ((with_reducible apply Mod.sameBut_mk); rotate_left; all_goals (try (intro hp; first | exact (hp (by decide)).elim | rfl)))

theorem Mod.fundamentalBegin_sameBut (m : Mod) (a1 : Nat) : Mod.sameBut [.regs, .evIn, .host, .pwr, .tick, .plt, .sched, .cores, .step, .mem, .pool, .pad, .stm, .groom, .coll, .chk, .fab, .sec, .dbg] m (Mod.fundamentalBegin m a1) := by
  unfold Mod.fundamentalBegin
  repeat'
    first
      | with_reducible exact Mod.sameBut_refl _ _
      | with_reducible assumption
      | (extract_lets +onlyGivenNames y; first | (refine Mod.sameBut_cut y (fun hy => ?_) ?_; rotate_left; subst y; rotate_left; clear_value y) | (refine Mod.sameBut_cut_fst y (fun hy => ?_) ?_; rotate_left; subst y; rotate_left; clear_value y) | clear_value y)
      | ((with_reducible apply Mod.sameBut_step (Mod.portsPower_sameBut _)); decide)
      | ((with_reducible apply Mod.sameBut_step (Mod.fundamentalRegs_sameBut _)); decide)
      | ((with_reducible apply Mod.sameBut_step (Mod.unlockLost_sameBut _)); decide)
      | ((with_reducible apply Mod.sameBut_step (Mod.clearUnits_sameBut _)); decide)
      | ((with_reducible apply Mod.sameBut_step (Mod.msixReset_sameBut _)); decide)
      | ((with_reducible apply Mod.sameBut_step (Mod.hostReset_sameBut _)); decide)
      | ((with_reducible apply Mod.sameBut_step (Mod.resetCause_sameBut _ _ _)); decide)
      | split
      | dsimp only
      | ((with_reducible apply Mod.sameBut_mk); rotate_left; all_goals (try (intro hp; first | exact (hp (by decide)).elim | rfl)))

theorem Mod.fundamentalEnd_sameBut (m : Mod) (a1 : Boot) : Mod.sameBut [.regs, .evIn, .host, .pwr, .tick, .plt, .mem, .fab, .sec, .dbg] m (Mod.fundamentalEnd m a1) := by
  unfold Mod.fundamentalEnd
  repeat'
    first
      | with_reducible exact Mod.sameBut_refl _ _
      | with_reducible assumption
      | (extract_lets +onlyGivenNames y; first | (refine Mod.sameBut_cut y (fun hy => ?_) ?_; rotate_left; subst y; rotate_left; clear_value y) | (refine Mod.sameBut_cut_fst y (fun hy => ?_) ?_; rotate_left; subst y; rotate_left; clear_value y) | clear_value y)
      | ((with_reducible apply Mod.sameBut_step (Mod.release_sameBut _)); decide)
      | ((with_reducible apply Mod.sameBut_step (Mod.bootChain_sameBut _ _)); decide)
      | ((with_reducible apply Mod.sameBut_step (Mod.train_sameBut _ _)); decide)
      | ((with_reducible apply Mod.sameBut_step (Mod.setBudget_sameBut _)); decide)
      | split
      | dsimp only
      | ((with_reducible apply Mod.sameBut_mk); rotate_left; all_goals (try (intro hp; first | exact (hp (by decide)).elim | rfl)))

theorem Mod.fwuFail_sameBut (m : Mod) (a1 : Path) (a2 : Nat) (a3 : Nat) : Mod.sameBut [.regs, .evIn, .host] m (Mod.fwuFail m a1 a2 a3) := by
  unfold Mod.fwuFail
  repeat'
    first
      | with_reducible exact Mod.sameBut_refl _ _
      | with_reducible assumption
      | (extract_lets +onlyGivenNames y; first | (refine Mod.sameBut_cut y (fun hy => ?_) ?_; rotate_left; subst y; rotate_left; clear_value y) | (refine Mod.sameBut_cut_fst y (fun hy => ?_) ?_; rotate_left; subst y; rotate_left; clear_value y) | clear_value y)
      | ((with_reducible apply Mod.sameBut_step (Mod.cmdDone_sameBut _ _ _ _)); decide)
      | ((with_reducible apply Mod.sameBut_step (Mod.fwuFailed_sameBut _ _ _ _)); decide)
      | split
      | dsimp only

theorem Mod.fwuAbort_sameBut (m : Mod) (a1 : Path) : Mod.sameBut [.regs, .evIn, .host, .sec] m (Mod.fwuAbort m a1) := by
  unfold Mod.fwuAbort
  repeat'
    first
      | with_reducible exact Mod.sameBut_refl _ _
      | with_reducible assumption
      | (extract_lets +onlyGivenNames y; first | (refine Mod.sameBut_cut y (fun hy => ?_) ?_; rotate_left; subst y; rotate_left; clear_value y) | (refine Mod.sameBut_cut_fst y (fun hy => ?_) ?_; rotate_left; subst y; rotate_left; clear_value y) | clear_value y)
      | ((with_reducible apply Mod.sameBut_step (Mod.fwuFail_sameBut _ _ _ _)); decide)
      | ((with_reducible apply Mod.sameBut_step (Mod.cmdDone_sameBut _ _ _ _)); decide)
      | ((with_reducible apply Mod.sameBut_step (Mod.sessionLost_sameBut _ _ _)); decide)
      | split
      | dsimp only

theorem Mod.loftDueAll_sameBut (m : Mod) : Mod.sameBut [.regs, .host, .mem] m (Mod.loftDueAll m) := by
  unfold Mod.loftDueAll
  repeat'
    first
      | with_reducible exact Mod.sameBut_refl _ _
      | with_reducible assumption
      | (extract_lets +onlyGivenNames y; first | (refine Mod.sameBut_cut y (fun hy => ?_) ?_; rotate_left; subst y; rotate_left; clear_value y) | (refine Mod.sameBut_cut_fst y (fun hy => ?_) ?_; rotate_left; subst y; rotate_left; clear_value y) | clear_value y)
      | ((with_reducible apply Mod.sameBut_step (Mod.loftAttach_sameBut _ _ _ _ _ _)); decide)
      | split
      | ((with_reducible apply Mod.sameBut_foldl); intro x e)
      | ((with_reducible apply Mod.sameBut_foldl_fst); intro x e)
      | dsimp only

theorem Mod.softBegin_sameBut (m : Mod) : Mod.sameBut [.regs, .evIn, .host, .pwr, .tick, .plt, .sched, .cores, .step, .mem, .pool, .pad, .stm, .groom, .coll, .chk, .fab, .sec, .dbg] m (Mod.softBegin m) := by
  unfold Mod.softBegin
  repeat'
    first
      | with_reducible exact Mod.sameBut_refl _ _
      | with_reducible assumption
      | (extract_lets +onlyGivenNames y; first | (refine Mod.sameBut_cut y (fun hy => ?_) ?_; rotate_left; subst y; rotate_left; clear_value y) | (refine Mod.sameBut_cut_fst y (fun hy => ?_) ?_; rotate_left; subst y; rotate_left; clear_value y) | clear_value y)
      | ((with_reducible apply Mod.sameBut_step (Mod.portsPower_sameBut _)); decide)
      | ((with_reducible apply Mod.sameBut_step (Mod.clearUnits_sameBut _)); decide)
      | ((with_reducible apply Mod.sameBut_step (Mod.hostReset_sameBut _)); decide)
      | split
      | dsimp only
      | ((with_reducible apply Mod.sameBut_mk); rotate_left; all_goals (try (intro hp; first | exact (hp (by decide)).elim | rfl)))

theorem Mod.softReset_sameBut (m : Mod) (a1 : Nat) (a2 : Boot) : Mod.sameBut [.regs, .evIn, .host, .pwr, .tick, .plt, .sched, .cores, .step, .mem, .pool, .pad, .stm, .groom, .coll, .chk, .fab, .sec, .dbg] m (Mod.softReset m a1 a2) := by
  unfold Mod.softReset
  repeat'
    first
      | with_reducible exact Mod.sameBut_refl _ _
      | with_reducible assumption
      | (extract_lets +onlyGivenNames y; first | (refine Mod.sameBut_cut y (fun hy => ?_) ?_; rotate_left; subst y; rotate_left; clear_value y) | (refine Mod.sameBut_cut_fst y (fun hy => ?_) ?_; rotate_left; subst y; rotate_left; clear_value y) | clear_value y)
      | ((with_reducible apply Mod.sameBut_step (Mod.softBegin_sameBut _)); decide)
      | ((with_reducible apply Mod.sameBut_step (Mod.hbmTo_sameBut _ _ _)); decide)
      | ((with_reducible apply Mod.sameBut_step (Mod.release_sameBut _)); decide)
      | ((with_reducible apply Mod.sameBut_step (Mod.bootChain_sameBut _ _)); decide)
      | ((with_reducible apply Mod.sameBut_step (Mod.resetCause_sameBut _ _ _)); decide)
      | ((with_reducible apply Mod.sameBut_step (Mod.loftDueAll_sameBut _)); decide)
      | split
      | dsimp only

theorem Mod.fwuActivate_sameBut (m : Mod) (a1 : Path) (a2 : Boot) : Mod.sameBut [.regs, .evIn, .host, .pwr, .tick, .plt, .sched, .cores, .step, .mem, .pool, .pad, .stm, .groom, .coll, .chk, .fab, .sec, .dbg] m (Mod.fwuActivate m a1 a2) := by
  unfold Mod.fwuActivate
  repeat'
    first
      | with_reducible exact Mod.sameBut_refl _ _
      | with_reducible assumption
      | (extract_lets +onlyGivenNames y; first | (refine Mod.sameBut_cut y (fun hy => ?_) ?_; rotate_left; subst y; rotate_left; clear_value y) | (refine Mod.sameBut_cut_fst y (fun hy => ?_) ?_; rotate_left; subst y; rotate_left; clear_value y) | clear_value y)
      | unfold Mod.inSession
      | ((with_reducible apply Mod.sameBut_step (Mod.fwuFail_sameBut _ _ _ _)); decide)
      | ((with_reducible apply Mod.sameBut_step (Mod.cmdDone_sameBut _ _ _ _)); decide)
      | ((with_reducible apply Mod.sameBut_step (Mod.softReset_sameBut _ _ _)); decide)
      | split
      | dsimp only

theorem Mod.setSession_sameBut (m : Mod) (a1 : FwuSession) : Mod.sameBut [.sec] m (Mod.setSession m a1) := by
  unfold Mod.setSession
  repeat'
    first
      | with_reducible exact Mod.sameBut_refl _ _
      | with_reducible assumption
      | (extract_lets +onlyGivenNames y; first | (refine Mod.sameBut_cut y (fun hy => ?_) ?_; rotate_left; subst y; rotate_left; clear_value y) | (refine Mod.sameBut_cut_fst y (fun hy => ?_) ?_; rotate_left; subst y; rotate_left; clear_value y) | clear_value y)
      | split
      | dsimp only
      | ((with_reducible apply Mod.sameBut_mk); rotate_left; all_goals (try (intro hp; first | exact (hp (by decide)).elim | rfl)))

theorem Mod.fwuBegin_sameBut (m : Mod) (a1 : Path) : Mod.sameBut [.regs, .evIn, .host, .sec] m (Mod.fwuBegin m a1) := by
  unfold Mod.fwuBegin
  repeat'
    first
      | with_reducible exact Mod.sameBut_refl _ _
      | with_reducible assumption
      | (extract_lets +onlyGivenNames y; first | (refine Mod.sameBut_cut y (fun hy => ?_) ?_; rotate_left; subst y; rotate_left; clear_value y) | (refine Mod.sameBut_cut_fst y (fun hy => ?_) ?_; rotate_left; subst y; rotate_left; clear_value y) | clear_value y)
      | ((with_reducible apply Mod.sameBut_step (Mod.fwuFail_sameBut _ _ _ _)); decide)
      | ((with_reducible apply Mod.sameBut_step (Mod.mgmtRefused_sameBut _ _ _)); decide)
      | ((with_reducible apply Mod.sameBut_step (Mod.setMark_sameBut _ _ _)); decide)
      | ((with_reducible apply Mod.sameBut_step (Mod.cmdDone_sameBut _ _ _ _)); decide)
      | ((with_reducible apply Mod.sameBut_step (Mod.setSession_sameBut _ _)); decide)
      | split
      | dsimp only

theorem Mod.fwuBlock_sameBut (m : Mod) (a1 : Path) (a2 : List Byte) : Mod.sameBut [.regs, .evIn, .host, .sec] m (Mod.fwuBlock m a1 a2) := by
  unfold Mod.fwuBlock
  repeat'
    first
      | with_reducible exact Mod.sameBut_refl _ _
      | with_reducible assumption
      | (extract_lets +onlyGivenNames y; first | (refine Mod.sameBut_cut y (fun hy => ?_) ?_; rotate_left; subst y; rotate_left; clear_value y) | (refine Mod.sameBut_cut_fst y (fun hy => ?_) ?_; rotate_left; subst y; rotate_left; clear_value y) | clear_value y)
      | unfold Mod.inSession
      | ((with_reducible apply Mod.sameBut_step (Mod.fwuFail_sameBut _ _ _ _)); decide)
      | ((with_reducible apply Mod.sameBut_step (Mod.cmdDone_sameBut _ _ _ _)); decide)
      | ((with_reducible apply Mod.sameBut_step (Mod.setSession_sameBut _ _)); decide)
      | split
      | dsimp only

theorem Mod.fwuEnd_sameBut (m : Mod) (a1 : Path) : Mod.sameBut [.regs, .evIn, .host, .sec] m (Mod.fwuEnd m a1) := by
  unfold Mod.fwuEnd
  repeat'
    first
      | with_reducible exact Mod.sameBut_refl _ _
      | with_reducible assumption
      | (extract_lets +onlyGivenNames y; first | (refine Mod.sameBut_cut y (fun hy => ?_) ?_; rotate_left; subst y; rotate_left; clear_value y) | (refine Mod.sameBut_cut_fst y (fun hy => ?_) ?_; rotate_left; subst y; rotate_left; clear_value y) | clear_value y)
      | unfold Mod.inSession
      | ((with_reducible apply Mod.sameBut_step (Mod.fwuFail_sameBut _ _ _ _)); decide)
      | ((with_reducible apply Mod.sameBut_step (Mod.endFail_sameBut _ _ _)); decide)
      | ((with_reducible apply Mod.sameBut_step (Mod.setMark_sameBut _ _ _)); decide)
      | ((with_reducible apply Mod.sameBut_step (Mod.cmdDone_sameBut _ _ _ _)); decide)
      | ((with_reducible apply Mod.sameBut_step (Mod.setSession_sameBut _ _)); decide)
      | split
      | ((with_reducible apply Mod.sameBut_foldl); intro x e)
      | ((with_reducible apply Mod.sameBut_foldl_fst); intro x e)
      | dsimp only
      | ((with_reducible apply Mod.sameBut_mk); rotate_left; all_goals (try (intro hp; first | exact (hp (by decide)).elim | rfl)))

theorem Mod.fwuHeader_sameBut (m : Mod) (a1 : Path) (a2 : List Byte) : Mod.sameBut [.regs, .evIn, .host, .sec] m (Mod.fwuHeader m a1 a2) := by
  unfold Mod.fwuHeader
  repeat'
    first
      | with_reducible exact Mod.sameBut_refl _ _
      | with_reducible assumption
      | (extract_lets +onlyGivenNames y; first | (refine Mod.sameBut_cut y (fun hy => ?_) ?_; rotate_left; subst y; rotate_left; clear_value y) | (refine Mod.sameBut_cut_fst y (fun hy => ?_) ?_; rotate_left; subst y; rotate_left; clear_value y) | clear_value y)
      | unfold Mod.inSession
      | ((with_reducible apply Mod.sameBut_step (Mod.fwuFail_sameBut _ _ _ _)); decide)
      | ((with_reducible apply Mod.sameBut_step (Mod.cmdDone_sameBut _ _ _ _)); decide)
      | ((with_reducible apply Mod.sameBut_step (Mod.setSession_sameBut _ _)); decide)
      | split
      | dsimp only

theorem Mod.fwuList_sameBut (m : Mod) (a1 : Path) (a2 : List Byte) : Mod.sameBut [.regs, .evIn, .host, .sec] m (Mod.fwuList m a1 a2) := by
  unfold Mod.fwuList
  repeat'
    first
      | with_reducible exact Mod.sameBut_refl _ _
      | with_reducible assumption
      | (extract_lets +onlyGivenNames y; first | (refine Mod.sameBut_cut y (fun hy => ?_) ?_; rotate_left; subst y; rotate_left; clear_value y) | (refine Mod.sameBut_cut_fst y (fun hy => ?_) ?_; rotate_left; subst y; rotate_left; clear_value y) | clear_value y)
      | unfold Mod.inSession
      | ((with_reducible apply Mod.sameBut_step (Mod.fwuFail_sameBut _ _ _ _)); decide)
      | ((with_reducible apply Mod.sameBut_step (Mod.cmdDone_sameBut _ _ _ _)); decide)
      | ((with_reducible apply Mod.sameBut_step (Mod.setSession_sameBut _ _)); decide)
      | split
      | dsimp only

theorem Mod.indexRange_sameBut (m : Mod) (a1 : Nat) (a2 : Nat) (a3 : Option (Prod Nat Nat)) : Mod.sameBut [.regs, .evIn] m (Mod.indexRange m a1 a2 a3) := by
  unfold Mod.indexRange
  repeat'
    first
      | with_reducible exact Mod.sameBut_refl _ _
      | with_reducible assumption
      | (extract_lets +onlyGivenNames y; first | (refine Mod.sameBut_cut y (fun hy => ?_) ?_; rotate_left; subst y; rotate_left; clear_value y) | (refine Mod.sameBut_cut_fst y (fun hy => ?_) ?_; rotate_left; subst y; rotate_left; clear_value y) | clear_value y)
      | ((with_reducible apply Mod.sameBut_step (Mod.raise_sameBut _ _ _ _ _ _ _)); decide)
      | ((with_reducible apply Mod.sameBut_step (Mod.fset_sameBut _ _ _ _ _)); decide)
      | split
      | dsimp only

theorem Mod.gatherWork_sameBut (m : Mod) (a1 : Nat) (a2 : Nat) (a3 : StableRec) (a4 : Kernel) (a5 : Ecc) : Mod.sameBut [.regs, .evIn, .sched, .cores, .step, .mem, .dbg] m (Mod.gatherWork m a1 a2 a3 a4 a5) := by
  unfold Mod.gatherWork
  repeat'
    first
      | with_reducible exact Mod.sameBut_refl _ _
      | with_reducible assumption
      | (extract_lets +onlyGivenNames y; first | (refine Mod.sameBut_cut y (fun hy => ?_) ?_; rotate_left; subst y; rotate_left; clear_value y) | (refine Mod.sameBut_cut_fst y (fun hy => ?_) ?_; rotate_left; subst y; rotate_left; clear_value y) | clear_value y)
      | ((with_reducible apply Mod.sameBut_step (Mod.opdRead_sameBut _ _ _ _ _ _ _ _)); decide)
      | ((with_reducible apply Mod.sameBut_step (Mod.opdWrite_sameBut _ _ _ _ _ _ _)); decide)
      | ((with_reducible apply Mod.sameBut_step (Mod.indexRange_sameBut _ _ _ _)); decide)
      | split
      | ((with_reducible apply Mod.sameBut_foldl); intro x e)
      | ((with_reducible apply Mod.sameBut_foldl_fst); intro x e)
      | dsimp only

theorem Mod.idleCycle_sameBut (m : Mod) : Mod.sameBut [.tick] m (Mod.idleCycle m) := by
  unfold Mod.idleCycle
  repeat'
    first
      | with_reducible exact Mod.sameBut_refl _ _
      | with_reducible assumption
      | (extract_lets +onlyGivenNames y; first | (refine Mod.sameBut_cut y (fun hy => ?_) ?_; rotate_left; subst y; rotate_left; clear_value y) | (refine Mod.sameBut_cut_fst y (fun hy => ?_) ?_; rotate_left; subst y; rotate_left; clear_value y) | clear_value y)
      | split
      | dsimp only
      | ((with_reducible apply Mod.sameBut_mk); rotate_left; all_goals (try (intro hp; first | exact (hp (by decide)).elim | rfl)))

theorem Mod.kdataWrite_sameBut (m : Mod) (a1 : Nat) (a2 : Nat) : Mod.sameBut [.regs] m (Mod.kdataWrite m a1 a2) := by
  unfold Mod.kdataWrite
  repeat'
    first
      | with_reducible exact Mod.sameBut_refl _ _
      | with_reducible assumption
      | (extract_lets +onlyGivenNames y; first | (refine Mod.sameBut_cut y (fun hy => ?_) ?_; rotate_left; subst y; rotate_left; clear_value y) | (refine Mod.sameBut_cut_fst y (fun hy => ?_) ?_; rotate_left; subst y; rotate_left; clear_value y) | clear_value y)
      | ((with_reducible apply Mod.sameBut_step (Mod.forBits_sameBut _ _ _ _ _)); decide)
      | ((with_reducible apply Mod.sameBut_step (Mod.fset_sameBut _ _ _ _ _)); decide)
      | split
      | dsimp only

theorem Mod.traceKernel_sameBut (m : Mod) (a1 : Nat) (a2 : Nat) (a3 : Nat) (a4 : StableRec) : Mod.sameBut [.regs, .dbg] m (Mod.traceKernel m a1 a2 a3 a4) := by
  unfold Mod.traceKernel
  repeat'
    first
      | with_reducible exact Mod.sameBut_refl _ _
      | with_reducible assumption
      | (extract_lets +onlyGivenNames y; first | (refine Mod.sameBut_cut y (fun hy => ?_) ?_; rotate_left; subst y; rotate_left; clear_value y) | (refine Mod.sameBut_cut_fst y (fun hy => ?_) ?_; rotate_left; subst y; rotate_left; clear_value y) | clear_value y)
      | ((with_reducible apply Mod.sameBut_step (Mod.trace_sameBut _ _ _ _ _ _ _)); decide)
      | split
      | dsimp only

theorem Mod.kernelComplete_sameBut (m : Mod) (a1 : Nat) : Mod.sameBut [.regs, .sched, .cores, .stm, .dbg] m (Mod.kernelComplete m a1) := by
  unfold Mod.kernelComplete
  repeat'
    first
      | with_reducible exact Mod.sameBut_refl _ _
      | with_reducible assumption
      | (extract_lets +onlyGivenNames y; first | (refine Mod.sameBut_cut y (fun hy => ?_) ?_; rotate_left; subst y; rotate_left; clear_value y) | (refine Mod.sameBut_cut_fst y (fun hy => ?_) ?_; rotate_left; subst y; rotate_left; clear_value y) | clear_value y)
      | ((with_reducible apply Mod.sameBut_step (Mod.traceKernel_sameBut _ _ _ _ _)); decide)
      | ((with_reducible apply Mod.sameBut_step (Mod.setCore_sameBut _ _ _)); decide)
      | ((with_reducible apply Mod.sameBut_step (Mod.trace_sameBut _ _ _ _ _ _ _)); decide)
      | ((with_reducible apply Mod.sameBut_step (Mod.frameDone_sameBut _ _)); decide)
      | split
      | dsimp only

theorem Mod.kernelStart_sameBut (m : Mod) (a1 : Nat) : Mod.sameBut [.regs, .evIn, .cores, .dbg] m (Mod.kernelStart m a1) := by
  unfold Mod.kernelStart
  repeat'
    first
      | with_reducible exact Mod.sameBut_refl _ _
      | with_reducible assumption
      | (extract_lets +onlyGivenNames y; first | (refine Mod.sameBut_cut y (fun hy => ?_) ?_; rotate_left; subst y; rotate_left; clear_value y) | (refine Mod.sameBut_cut_fst y (fun hy => ?_) ?_; rotate_left; subst y; rotate_left; clear_value y) | clear_value y)
      | ((with_reducible apply Mod.sameBut_step (Mod.setCore_sameBut _ _ _)); decide)
      | ((with_reducible apply Mod.sameBut_step (Mod.traceKernel_sameBut _ _ _ _ _)); decide)
      | ((with_reducible apply Mod.sameBut_step (Mod.fset_sameBut _ _ _ _ _)); decide)
      | ((with_reducible apply Mod.sameBut_step (Mod.bpHit_sameBut _ _ _ _ _)); decide)
      | split
      | ((with_reducible apply Mod.sameBut_foldl); intro x e)
      | ((with_reducible apply Mod.sameBut_foldl_fst); intro x e)
      | dsimp only

theorem Mod.keyRefused_sameBut (m : Mod) (a1 : AttPath) (a2 : Nat) (a3 : Nat) : Mod.sameBut [.regs, .evIn, .host] m (Mod.keyRefused m a1 a2 a3) := by
  unfold Mod.keyRefused
  repeat'
    first
      | with_reducible exact Mod.sameBut_refl _ _
      | with_reducible assumption
      | (extract_lets +onlyGivenNames y; first | (refine Mod.sameBut_cut y (fun hy => ?_) ?_; rotate_left; subst y; rotate_left; clear_value y) | (refine Mod.sameBut_cut_fst y (fun hy => ?_) ?_; rotate_left; subst y; rotate_left; clear_value y) | clear_value y)
      | ((with_reducible apply Mod.sameBut_step (Mod.attReply_sameBut _ _ _ _ _ _)); decide)
      | ((with_reducible apply Mod.sameBut_step (Mod.raise_sameBut _ _ _ _ _ _ _)); decide)
      | ((with_reducible apply Mod.sameBut_step (Mod.fset_sameBut _ _ _ _ _)); decide)
      | split
      | dsimp only

theorem Mod.ksetWrite_sameBut (m : Mod) (a1 : Nat) : Mod.sameBut [.regs] m (Mod.ksetWrite m a1) := by
  unfold Mod.ksetWrite
  repeat'
    first
      | with_reducible exact Mod.sameBut_refl _ _
      | with_reducible assumption
      | (extract_lets +onlyGivenNames y; first | (refine Mod.sameBut_cut y (fun hy => ?_) ?_; rotate_left; subst y; rotate_left; clear_value y) | (refine Mod.sameBut_cut_fst y (fun hy => ?_) ?_; rotate_left; subst y; rotate_left; clear_value y) | clear_value y)
      | ((with_reducible apply Mod.sameBut_step (Mod.fset_sameBut _ _ _ _ _)); decide)
      | split
      | dsimp only

theorem Mod.loftCfg_sameBut (m : Mod) (a1 : Nat) : Mod.sameBut [.regs, .evIn] m (Mod.loftCfg m a1) := by
  unfold Mod.loftCfg
  repeat'
    first
      | with_reducible exact Mod.sameBut_refl _ _
      | with_reducible assumption
      | (extract_lets +onlyGivenNames y; first | (refine Mod.sameBut_cut y (fun hy => ?_) ?_; rotate_left; subst y; rotate_left; clear_value y) | (refine Mod.sameBut_cut_fst y (fun hy => ?_) ?_; rotate_left; subst y; rotate_left; clear_value y) | clear_value y)
      | ((with_reducible apply Mod.sameBut_step (Mod.wordWrite_sameBut _ _ _ _ _ _)); decide)
      | split
      | dsimp only

theorem Mod.reissue_sameBut (m : Mod) (a1 : Nat) (a2 : LoftReq) : Mod.sameBut [.regs, .evIn, .host, .mem] m (Mod.reissue m a1 a2) := by
  unfold Mod.reissue
  repeat'
    first
      | with_reducible exact Mod.sameBut_refl _ _
      | with_reducible assumption
      | (extract_lets +onlyGivenNames y; first | (refine Mod.sameBut_cut y (fun hy => ?_) ?_; rotate_left; subst y; rotate_left; clear_value y) | (refine Mod.sameBut_cut_fst y (fun hy => ?_) ?_; rotate_left; subst y; rotate_left; clear_value y) | clear_value y)
      | ((with_reducible apply Mod.sameBut_step (Mod.raise_sameBut _ _ _ _ _ _ _)); decide)
      | ((with_reducible apply Mod.sameBut_step (Mod.fset_sameBut _ _ _ _ _)); decide)
      | ((with_reducible apply Mod.sameBut_step (Mod.emit_sameBut _ _)); decide)
      | ((with_reducible apply Mod.sameBut_step (Mod.writeAt_sameBut _ _ _ _)); decide)
      | split
      | dsimp only

theorem Mod.reissueAll_sameBut (m : Mod) (a1 : Nat) : Mod.sameBut [.regs, .evIn, .host, .mem] m (Mod.reissueAll m a1) := by
  unfold Mod.reissueAll
  repeat'
    first
      | with_reducible exact Mod.sameBut_refl _ _
      | with_reducible assumption
      | (extract_lets +onlyGivenNames y; first | (refine Mod.sameBut_cut y (fun hy => ?_) ?_; rotate_left; subst y; rotate_left; clear_value y) | (refine Mod.sameBut_cut_fst y (fun hy => ?_) ?_; rotate_left; subst y; rotate_left; clear_value y) | clear_value y)
      | ((with_reducible apply Mod.sameBut_step (Mod.reissue_sameBut _ _ _)); decide)
      | ((with_reducible apply Mod.sameBut_step (Mod.setLoftPort_sameBut _ _ _)); decide)
      | split
      | ((with_reducible apply Mod.sameBut_foldl); intro x e)
      | ((with_reducible apply Mod.sameBut_foldl_fst); intro x e)
      | dsimp only

theorem Mod.loftRetrain_sameBut (m : Mod) (a1 : Nat) (a2 : Nat) (a3 : Nat) : Mod.sameBut [.regs, .evIn, .host, .mem] m (Mod.loftRetrain m a1 a2 a3) := by
  unfold Mod.loftRetrain
  repeat'
    first
      | with_reducible exact Mod.sameBut_refl _ _
      | with_reducible assumption
      | (extract_lets +onlyGivenNames y; first | (refine Mod.sameBut_cut y (fun hy => ?_) ?_; rotate_left; subst y; rotate_left; clear_value y) | (refine Mod.sameBut_cut_fst y (fun hy => ?_) ?_; rotate_left; subst y; rotate_left; clear_value y) | clear_value y)
      | ((with_reducible apply Mod.sameBut_step (Mod.fset_sameBut _ _ _ _ _)); decide)
      | ((with_reducible apply Mod.sameBut_step (Mod.loftReport_sameBut _ _ _ _ _)); decide)
      | ((with_reducible apply Mod.sameBut_step (Mod.reissueAll_sameBut _ _)); decide)
      | ((with_reducible apply Mod.sameBut_step (Mod.setLoftPort_sameBut _ _ _)); decide)
      | split
      | dsimp only

theorem Mod.logAck_sameBut (m : Mod) (a1 : Nat) : Mod.sameBut [.regs] m (Mod.logAck m a1) := by
  unfold Mod.logAck
  repeat'
    first
      | with_reducible exact Mod.sameBut_refl _ _
      | with_reducible assumption
      | (extract_lets +onlyGivenNames y; first | (refine Mod.sameBut_cut y (fun hy => ?_) ?_; rotate_left; subst y; rotate_left; clear_value y) | (refine Mod.sameBut_cut_fst y (fun hy => ?_) ?_; rotate_left; subst y; rotate_left; clear_value y) | clear_value y)
      | ((with_reducible apply Mod.sameBut_step (Mod.fset_sameBut _ _ _ _ _)); decide)
      | split
      | dsimp only

theorem Mod.sramFound_sameBut (m : Mod) (a1 : Nat) (a2 : Nat) (a3 : Ecc) : Mod.sameBut [.regs, .mem] m (Mod.sramFound m a1 a2 a3) := by
  unfold Mod.sramFound
  repeat'
    first
      | with_reducible exact Mod.sameBut_refl _ _
      | with_reducible assumption
      | (extract_lets +onlyGivenNames y; first | (refine Mod.sameBut_cut y (fun hy => ?_) ?_; rotate_left; subst y; rotate_left; clear_value y) | (refine Mod.sameBut_cut_fst y (fun hy => ?_) ?_; rotate_left; subst y; rotate_left; clear_value y) | clear_value y)
      | ((with_reducible apply Mod.sameBut_step (Mod.fsat_sameBut _ _ _ _ _)); decide)
      | split
      | ((with_reducible apply Mod.sameBut_foldl); intro x e)
      | ((with_reducible apply Mod.sameBut_foldl_fst); intro x e)
      | dsimp only
      | ((with_reducible apply Mod.sameBut_mk); rotate_left; all_goals (try (intro hp; first | exact (hp (by decide)).elim | rfl)))

theorem Mod.memFetch_sameBut (m : Mod) (a1 : Nat) (a2 : Ecc) : Mod.sameBut [.regs, .evIn, .cores, .step, .mem, .dbg] m (Mod.memFetch m a1 a2).1 := by
  unfold Mod.memFetch
  repeat'
    first
      | with_reducible exact Mod.sameBut_refl _ _
      | with_reducible assumption
      | (extract_lets +onlyGivenNames y; first | (refine Mod.sameBut_cut y (fun hy => ?_) ?_; rotate_left; subst y; rotate_left; clear_value y) | (refine Mod.sameBut_cut_fst y (fun hy => ?_) ?_; rotate_left; subst y; rotate_left; clear_value y) | clear_value y)
      | ((with_reducible apply Mod.sameBut_step (Mod.readDev_sameBut _ _ _ _)); decide)
      | ((with_reducible apply Mod.sameBut_step (Mod.yard_sameBut _ _ _ _ _)); decide)
      | ((with_reducible apply Mod.sameBut_step (Mod.foundUe_sameBut _ _ _)); decide)
      | ((with_reducible apply Mod.sameBut_step (Mod.foundCe_sameBut _ _)); decide)
      | ((with_reducible apply Mod.sameBut_step (Mod.sramFound_sameBut _ _ _ _)); decide)
      | split
      | ((with_reducible apply Mod.sameBut_foldl); intro x e)
      | ((with_reducible apply Mod.sameBut_foldl_fst); intro x e)
      | dsimp only

theorem Mod.memRead_sameBut (m : Mod) : Mod.sameBut [.regs, .dbg] m (Mod.memRead m) := by
  unfold Mod.memRead
  repeat'
    first
      | with_reducible exact Mod.sameBut_refl _ _
      | with_reducible assumption
      | (extract_lets +onlyGivenNames y; first | (refine Mod.sameBut_cut y (fun hy => ?_) ?_; rotate_left; subst y; rotate_left; clear_value y) | (refine Mod.sameBut_cut_fst y (fun hy => ?_) ?_; rotate_left; subst y; rotate_left; clear_value y) | clear_value y)
      | ((with_reducible apply Mod.sameBut_step (Mod.hbmTo_sameBut _ _ _)); decide)
      | split
      | dsimp only
      | ((with_reducible apply Mod.sameBut_mk); rotate_left; all_goals (try (intro hp; first | exact (hp (by decide)).elim | rfl)))

theorem Mod.memResult_sameBut (m : Mod) (a1 : Nat) : Mod.sameBut [.regs] m (Mod.memResult m a1) := by
  unfold Mod.memResult
  repeat'
    first
      | with_reducible exact Mod.sameBut_refl _ _
      | with_reducible assumption
      | (extract_lets +onlyGivenNames y; first | (refine Mod.sameBut_cut y (fun hy => ?_) ?_; rotate_left; subst y; rotate_left; clear_value y) | (refine Mod.sameBut_cut_fst y (fun hy => ?_) ?_; rotate_left; subst y; rotate_left; clear_value y) | clear_value y)
      | ((with_reducible apply Mod.sameBut_step (Mod.fset_sameBut _ _ _ _ _)); decide)
      | split
      | dsimp only

theorem Mod.memShow_sameBut (m : Mod) (a1 : List (Prod Byte Bool)) : Mod.sameBut [.regs] m (Mod.memShow m a1) := by
  unfold Mod.memShow
  repeat'
    first
      | with_reducible exact Mod.sameBut_refl _ _
      | with_reducible assumption
      | (extract_lets +onlyGivenNames y; first | (refine Mod.sameBut_cut y (fun hy => ?_) ?_; rotate_left; subst y; rotate_left; clear_value y) | (refine Mod.sameBut_cut_fst y (fun hy => ?_) ?_; rotate_left; subst y; rotate_left; clear_value y) | clear_value y)
      | ((with_reducible apply Mod.sameBut_step (Mod.fset_sameBut _ _ _ _ _)); decide)
      | ((with_reducible apply Mod.sameBut_step (Mod.memResult_sameBut _ _)); decide)
      | split
      | ((with_reducible apply Mod.sameBut_foldl); intro x e)
      | ((with_reducible apply Mod.sameBut_foldl_fst); intro x e)
      | dsimp only

theorem Mod.memReadCmd_sameBut (m : Mod) (a1 : Ecc) : Mod.sameBut [.regs, .evIn, .cores, .step, .mem, .dbg] m (Mod.memReadCmd m a1) := by
  unfold Mod.memReadCmd
  repeat'
    first
      | with_reducible exact Mod.sameBut_refl _ _
      | with_reducible assumption
      | (extract_lets +onlyGivenNames y; first | (refine Mod.sameBut_cut y (fun hy => ?_) ?_; rotate_left; subst y; rotate_left; clear_value y) | (refine Mod.sameBut_cut_fst y (fun hy => ?_) ?_; rotate_left; subst y; rotate_left; clear_value y) | clear_value y)
      | ((with_reducible apply Mod.sameBut_step (Mod.memResult_sameBut _ _)); decide)
      | ((with_reducible apply Mod.sameBut_step (Mod.memFetch_sameBut _ _ _)); decide)
      | ((with_reducible apply Mod.sameBut_step (Mod.memShow_sameBut _ _)); decide)
      | split
      | dsimp only

theorem Mod.memStore_sameBut (m : Mod) (a1 : Nat) (a2 : Ecc) : Mod.sameBut [.regs, .evIn, .cores, .step, .mem, .dbg] m (Mod.memStore m a1 a2) := by
  unfold Mod.memStore
  repeat'
    first
      | with_reducible exact Mod.sameBut_refl _ _
      | with_reducible assumption
      | (extract_lets +onlyGivenNames y; first | (refine Mod.sameBut_cut y (fun hy => ?_) ?_; rotate_left; subst y; rotate_left; clear_value y) | (refine Mod.sameBut_cut_fst y (fun hy => ?_) ?_; rotate_left; subst y; rotate_left; clear_value y) | clear_value y)
      | ((with_reducible apply Mod.sameBut_step (Mod.memResult_sameBut _ _)); decide)
      | ((with_reducible apply Mod.sameBut_step (Mod.bar2WriteAt_sameBut _ _ _ _ _)); decide)
      | ((with_reducible apply Mod.sameBut_step (Mod.writeAt_sameBut _ _ _ _)); decide)
      | ((with_reducible apply Mod.sameBut_step (Mod.sramWrite_sameBut _ _ _ _)); decide)
      | split
      | dsimp only
      | ((with_reducible apply Mod.sameBut_mk); rotate_left; all_goals (try (intro hp; first | exact (hp (by decide)).elim | rfl)))

theorem Mod.memWriteCmd_sameBut (m : Mod) (a1 : Ecc) : Mod.sameBut [.regs, .evIn, .cores, .step, .mem, .dbg] m (Mod.memWriteCmd m a1) := by
  unfold Mod.memWriteCmd
  repeat'
    first
      | with_reducible exact Mod.sameBut_refl _ _
      | with_reducible assumption
      | (extract_lets +onlyGivenNames y; first | (refine Mod.sameBut_cut y (fun hy => ?_) ?_; rotate_left; subst y; rotate_left; clear_value y) | (refine Mod.sameBut_cut_fst y (fun hy => ?_) ?_; rotate_left; subst y; rotate_left; clear_value y) | clear_value y)
      | ((with_reducible apply Mod.sameBut_step (Mod.memResult_sameBut _ _)); decide)
      | ((with_reducible apply Mod.sameBut_step (Mod.memStore_sameBut _ _ _)); decide)
      | split
      | dsimp only

theorem Mod.setHead_sameBut (m : Mod) (a1 : StreamDesc) (a2 : TileRun) : Mod.sameBut [.stm] m (Mod.setHead m a1 a2) := by
  unfold Mod.setHead
  repeat'
    first
      | with_reducible exact Mod.sameBut_refl _ _
      | with_reducible assumption
      | (extract_lets +onlyGivenNames y; first | (refine Mod.sameBut_cut y (fun hy => ?_) ?_; rotate_left; subst y; rotate_left; clear_value y) | (refine Mod.sameBut_cut_fst y (fun hy => ?_) ?_; rotate_left; subst y; rotate_left; clear_value y) | clear_value y)
      | ((with_reducible apply Mod.sameBut_step (Mod.setCtx_sameBut _ _ _)); decide)
      | split
      | dsimp only

theorem Mod.tileDone_sameBut (m : Mod) (a1 : StreamDesc) (a2 : TileRun) : Mod.sameBut [.regs, .evIn, .sched, .step, .mem, .pool, .pad, .stm, .groom, .fab] m (Mod.tileDone m a1 a2) := by
  unfold Mod.tileDone
  repeat'
    first
      | with_reducible exact Mod.sameBut_refl _ _
      | with_reducible assumption
      | (extract_lets +onlyGivenNames y; first | (refine Mod.sameBut_cut y (fun hy => ?_) ?_; rotate_left; subst y; rotate_left; clear_value y) | (refine Mod.sameBut_cut_fst y (fun hy => ?_) ?_; rotate_left; subst y; rotate_left; clear_value y) | clear_value y)
      | ((with_reducible apply Mod.sameBut_step (Mod.setCtx_sameBut _ _ _)); decide)
      | ((with_reducible apply Mod.sameBut_step (Mod.setWin_sameBut _ _ _)); decide)
      | ((with_reducible apply Mod.sameBut_step (Mod.signal_sameBut _ _)); decide)
      | ((with_reducible apply Mod.sameBut_step (Mod.tileLate_sameBut _ _ _ _)); decide)
      | ((with_reducible apply Mod.sameBut_step (Mod.raiseStep_sameBut _ _ _ _ _ _)); decide)
      | ((with_reducible apply Mod.sameBut_step (Mod.fset_sameBut _ _ _ _ _)); decide)
      | ((with_reducible apply Mod.sameBut_step (Mod.dropReads_sameBut _ _)); decide)
      | ((with_reducible apply Mod.sameBut_step (Mod.tileUnpin_sameBut _ _ _)); decide)
      | ((with_reducible apply Mod.sameBut_step (Mod.padRelease_sameBut _ _)); decide)
      | ((with_reducible apply Mod.sameBut_step (Mod.gates_sameBut _)); decide)
      | split
      | dsimp only

theorem Mod.farDone_sameBut (m : Mod) (a1 : StreamDesc) (a2 : TileRun) (a3 : Nat) (a4 : Nat) : Mod.sameBut [.regs, .evIn, .sched, .step, .mem, .pool, .pad, .stm, .groom, .fab] m (Mod.farDone m a1 a2 a3 a4) := by
  unfold Mod.farDone
  repeat'
    first
      | with_reducible exact Mod.sameBut_refl _ _
      | with_reducible assumption
      | (extract_lets +onlyGivenNames y; first | (refine Mod.sameBut_cut y (fun hy => ?_) ?_; rotate_left; subst y; rotate_left; clear_value y) | (refine Mod.sameBut_cut_fst y (fun hy => ?_) ?_; rotate_left; subst y; rotate_left; clear_value y) | clear_value y)
      | ((with_reducible apply Mod.sameBut_step (Mod.tileDone_sameBut _ _ _)); decide)
      | split
      | dsimp only
      | ((with_reducible apply Mod.sameBut_mk); rotate_left; all_goals (try (intro hp; first | exact (hp (by decide)).elim | rfl)))

theorem Mod.moveTile_sameBut (m : Mod) (a1 : StreamDesc) (a2 : TileRun) (a3 : Ecc) : Mod.sameBut [.regs, .evIn, .sched, .cores, .step, .mem, .pool, .pad, .stm, .groom, .chk, .fab, .dbg] m (Mod.moveTile m a1 a2 a3) := by
  unfold Mod.moveTile
  repeat'
    first
      | with_reducible exact Mod.sameBut_refl _ _
      | with_reducible assumption
      | (extract_lets +onlyGivenNames y; first | (refine Mod.sameBut_cut y (fun hy => ?_) ?_; rotate_left; subst y; rotate_left; clear_value y) | (refine Mod.sameBut_cut_fst y (fun hy => ?_) ?_; rotate_left; subst y; rotate_left; clear_value y) | clear_value y)
      | ((with_reducible apply Mod.sameBut_step (Mod.farDone_sameBut _ _ _ _ _)); decide)
      | ((with_reducible apply Mod.sameBut_step (Mod.fetchRead_sameBut _ _ _ _ _)); decide)
      | ((with_reducible apply Mod.sameBut_step (Mod.setHead_sameBut _ _ _)); decide)
      | ((with_reducible apply Mod.sameBut_step (Mod.originateAll_sameBut _ _)); decide)
      | ((with_reducible apply Mod.sameBut_step (Mod.snoop_sameBut _ _ _)); decide)
      | ((with_reducible apply Mod.sameBut_step (Mod.tileDone_sameBut _ _ _)); decide)
      | ((with_reducible apply Mod.sameBut_step (Mod.tilePut_sameBut _ _ _ _ _)); decide)
      | split
      | dsimp only

theorem Mod.nonceDraw_sameBut (m : Mod) (a1 : Path) : Mod.sameBut [.regs, .host, .sec] m (Mod.nonceDraw m a1) := by
  unfold Mod.nonceDraw
  repeat'
    first
      | with_reducible exact Mod.sameBut_refl _ _
      | with_reducible assumption
      | (extract_lets +onlyGivenNames y; first | (refine Mod.sameBut_cut y (fun hy => ?_) ?_; rotate_left; subst y; rotate_left; clear_value y) | (refine Mod.sameBut_cut_fst y (fun hy => ?_) ?_; rotate_left; subst y; rotate_left; clear_value y) | clear_value y)
      | ((with_reducible apply Mod.sameBut_step (Mod.fset_sameBut _ _ _ _ _)); decide)
      | ((with_reducible apply Mod.sameBut_step (Mod.cmdDone_sameBut _ _ _ _)); decide)
      | split
      | ((with_reducible apply Mod.sameBut_foldl); intro x e)
      | ((with_reducible apply Mod.sameBut_foldl_fst); intro x e)
      | dsimp only
      | ((with_reducible apply Mod.sameBut_mk); rotate_left; all_goals (try (intro hp; first | exact (hp (by decide)).elim | rfl)))

theorem Mod.padLow_sameBut (m : Mod) : Mod.sameBut [.regs] m (Mod.padLow m) := by
  unfold Mod.padLow
  repeat'
    first
      | with_reducible exact Mod.sameBut_refl _ _
      | with_reducible assumption
      | (extract_lets +onlyGivenNames y; first | (refine Mod.sameBut_cut y (fun hy => ?_) ?_; rotate_left; subst y; rotate_left; clear_value y) | (refine Mod.sameBut_cut_fst y (fun hy => ?_) ?_; rotate_left; subst y; rotate_left; clear_value y) | clear_value y)
      | ((with_reducible apply Mod.sameBut_step (Mod.fset_sameBut _ _ _ _ _)); decide)
      | split
      | dsimp only

theorem Mod.parkRequest_sameBut (m : Mod) : Mod.sameBut [.pwr] m (Mod.parkRequest m) := by
  unfold Mod.parkRequest
  repeat'
    first
      | with_reducible exact Mod.sameBut_refl _ _
      | with_reducible assumption
      | (extract_lets +onlyGivenNames y; first | (refine Mod.sameBut_cut y (fun hy => ?_) ?_; rotate_left; subst y; rotate_left; clear_value y) | (refine Mod.sameBut_cut_fst y (fun hy => ?_) ?_; rotate_left; subst y; rotate_left; clear_value y) | clear_value y)
      | split
      | dsimp only
      | ((with_reducible apply Mod.sameBut_mk); rotate_left; all_goals (try (intro hp; first | exact (hp (by decide)).elim | rfl)))

theorem Mod.passComplete_sameBut (m : Mod) (a1 : Nat) (a2 : Ecc) : Mod.sameBut [.regs, .evIn, .sched, .step, .mem, .pool, .groom] m (Mod.passComplete m a1 a2) := by
  unfold Mod.passComplete
  repeat'
    first
      | with_reducible exact Mod.sameBut_refl _ _
      | with_reducible assumption
      | (extract_lets +onlyGivenNames y; first | (refine Mod.sameBut_cut y (fun hy => ?_) ?_; rotate_left; subst y; rotate_left; clear_value y) | (refine Mod.sameBut_cut_fst y (fun hy => ?_) ?_; rotate_left; subst y; rotate_left; clear_value y) | clear_value y)
      | ((with_reducible apply Mod.sameBut_step (Mod.passFinish_sameBut _ _ _ _ _)); decide)
      | ((with_reducible apply Mod.sameBut_step (Mod.eccDev_sameBut _ _ _ _)); decide)
      | ((with_reducible apply Mod.sameBut_step (Mod.signal_sameBut _ _)); decide)
      | split
      | dsimp only
      | ((with_reducible apply Mod.sameBut_mk); rotate_left; all_goals (try (intro hp; first | exact (hp (by decide)).elim | rfl)))

theorem Mod.passStart_sameBut (m : Mod) (a1 : Nat) : Mod.sameBut [.step, .groom] m (Mod.passStart m a1) := by
  unfold Mod.passStart
  repeat'
    first
      | with_reducible exact Mod.sameBut_refl _ _
      | with_reducible assumption
      | (extract_lets +onlyGivenNames y; first | (refine Mod.sameBut_cut y (fun hy => ?_) ?_; rotate_left; subst y; rotate_left; clear_value y) | (refine Mod.sameBut_cut_fst y (fun hy => ?_) ?_; rotate_left; subst y; rotate_left; clear_value y) | clear_value y)
      | ((with_reducible apply Mod.sameBut_step (Mod.setGroom_sameBut _ _ _)); decide)
      | split
      | dsimp only
      | ((with_reducible apply Mod.sameBut_mk); rotate_left; all_goals (try (intro hp; first | exact (hp (by decide)).elim | rfl)))

theorem Mod.pcieFunctionReset_sameBut (m : Mod) (a1 : Nat) : Mod.sameBut [.regs, .host, .sched, .step, .mem, .pool, .pad, .stm, .groom, .coll, .chk, .fab] m (Mod.pcieFunctionReset m a1) := by
  unfold Mod.pcieFunctionReset
  repeat'
    first
      | with_reducible exact Mod.sameBut_refl _ _
      | with_reducible assumption
      | (extract_lets +onlyGivenNames y; first | (refine Mod.sameBut_cut y (fun hy => ?_) ?_; rotate_left; subst y; rotate_left; clear_value y) | (refine Mod.sameBut_cut_fst y (fun hy => ?_) ?_; rotate_left; subst y; rotate_left; clear_value y) | clear_value y)
      | ((with_reducible apply Mod.sameBut_step (Mod.resetCause_sameBut _ _ _)); decide)
      | ((with_reducible apply Mod.sameBut_step (Mod.msixReset_sameBut _)); decide)
      | ((with_reducible apply Mod.sameBut_step (Mod.functionReset_sameBut _)); decide)
      | split
      | dsimp only

theorem Mod.periodMismatch_sameBut (m : Mod) (a1 : Nat) (a2 : Nat) : Mod.sameBut [.evIn, .tick] m (Mod.periodMismatch m a1 a2) := by
  unfold Mod.periodMismatch
  repeat'
    first
      | with_reducible exact Mod.sameBut_refl _ _
      | with_reducible assumption
      | (extract_lets +onlyGivenNames y; first | (refine Mod.sameBut_cut y (fun hy => ?_) ?_; rotate_left; subst y; rotate_left; clear_value y) | (refine Mod.sameBut_cut_fst y (fun hy => ?_) ?_; rotate_left; subst y; rotate_left; clear_value y) | clear_value y)
      | ((with_reducible apply Mod.sameBut_step (Mod.raise_sameBut _ _ _ _ _ _ _)); decide)
      | split
      | dsimp only
      | ((with_reducible apply Mod.sameBut_mk); rotate_left; all_goals (try (intro hp; first | exact (hp (by decide)).elim | rfl)))

theorem Mod.periodWrite_sameBut (m : Mod) (a1 : Nat) : Mod.sameBut [.regs, .evIn, .tick] m (Mod.periodWrite m a1) := by
  unfold Mod.periodWrite
  repeat'
    first
      | with_reducible exact Mod.sameBut_refl _ _
      | with_reducible assumption
      | (extract_lets +onlyGivenNames y; first | (refine Mod.sameBut_cut y (fun hy => ?_) ?_; rotate_left; subst y; rotate_left; clear_value y) | (refine Mod.sameBut_cut_fst y (fun hy => ?_) ?_; rotate_left; subst y; rotate_left; clear_value y) | clear_value y)
      | ((with_reducible apply Mod.sameBut_step (Mod.lockedWrite_sameBut _ _ _ _)); decide)
      | ((with_reducible apply Mod.sameBut_step (Mod.fset_sameBut _ _ _ _ _)); decide)
      | split
      | dsimp only
      | ((with_reducible apply Mod.sameBut_mk); rotate_left; all_goals (try (intro hp; first | exact (hp (by decide)).elim | rfl)))

theorem Mod.placeSpill_some {m x : Mod} {r : PadRec} {key size : Nat} (h : m.placeSpill r key size = some x) : Mod.sameBut [.pool, .pad] m x := by
  unfold Mod.placeSpill at h
  split at h
  · cases h
  · obtain ⟨e, _, rfl⟩ := Option.map_eq_some_iff.1 h
    with_reducible apply Mod.sameBut_step (Mod.setInst_sameBut _ _ _)
    · decide
    · constructor <;> intro hp <;> first | rfl | exact (hp (by decide)).elim

theorem Mod.placePages_some {m x : Mod} {r : PadRec} {key size : Nat} (h : m.placePages r key size = some x) : Mod.sameBut [.regs, .pad] m x := by
  unfold Mod.placePages at h
  dsimp only at h
  split at h
  · obtain rfl := Option.some.inj h
    with_reducible apply Mod.sameBut_step (Mod.padLow_sameBut _)
    · decide
    · with_reducible apply Mod.sameBut_step (Mod.setInst_sameBut _ _ _)
      · decide
      · constructor <;> intro hp <;> first | rfl | exact (hp (by decide)).elim
  · cases h

theorem Mod.placeNow_some {m x : Mod} {r : PadRec} {key size : Nat} (h : m.placeNow r key size = some x) : Mod.sameBut [.regs, .pool, .pad] m x := by
  unfold Mod.placeNow at h
  rcases h1 : m.placePages r key size with _ | y
  · rw [h1] at h
    exact Mod.sameBut_mono (Mod.placeSpill_some h) (by decide)
  · rw [h1] at h
    exact Mod.sameBut_mono (Mod.placePages_some (h1.trans h)) (by decide)

theorem Mod.dropNext_some {m x : Mod} {r : PadRec} (h : m.dropNext r = some x) : Mod.sameBut [.evIn, .pool, .pad] m x := by
  unfold Mod.dropNext at h
  obtain ⟨e, _, rfl⟩ := Option.map_eq_some_iff.1 h
  exact Mod.dropLayer_sameBut _ _ _ _

theorem Mod.placeDropping_sameBut (a0 : PadRec) (a1 : Nat) (a2 : Nat) (a3 : Nat) (m : Mod) : Mod.sameBut [.regs, .evIn, .pool, .pad] m (Mod.placeDropping a0 a1 a2 a3 m).1 := by
  generalize hq : Mod.placeDropping a0 a1 a2 a3 m = q
  induction a3 generalizing m with
  | zero => subst hq; exact Mod.sameBut_refl _ _
  | succ k ih =>
    rw [Mod.placeDropping] at hq
    split at hq
    · subst hq; exact Mod.sameBut_refl _ _
    · rename_i y hy
      have hd := Mod.sameBut_mono (qs := [.regs, .evIn, .pool, .pad]) (Mod.dropNext_some hy) (by decide)
      split at hq
      · rename_i z hz
        subst hq
        exact Mod.sameBut_trans hd (Mod.sameBut_mono (Mod.placeNow_some hz) (by decide))
      · exact Mod.sameBut_trans hd (ih y hq)

theorem Mod.stashExhausted_sameBut (m : Mod) (a1 : PadRec) (a2 : Nat) (a3 : Nat) : Mod.sameBut [.regs, .evIn, .step, .pool, .pad] m (Mod.stashExhausted m a1 a2 a3) := by
  unfold Mod.stashExhausted
  repeat'
    first
      | with_reducible exact Mod.sameBut_refl _ _
      | with_reducible assumption
      | (extract_lets +onlyGivenNames y; first | (refine Mod.sameBut_cut y (fun hy => ?_) ?_; rotate_left; subst y; rotate_left; clear_value y) | (refine Mod.sameBut_cut_fst y (fun hy => ?_) ?_; rotate_left; subst y; rotate_left; clear_value y) | clear_value y)
      | ((with_reducible apply Mod.sameBut_step (Mod.padReleaseAll_sameBut _)); decide)
      | ((with_reducible apply Mod.sameBut_step (Mod.fsat_sameBut _ _ _ _ _)); decide)
      | ((with_reducible apply Mod.sameBut_step (Mod.raiseStep_sameBut _ _ _ _ _ _)); decide)
      | split
      | dsimp only

theorem Mod.placeRecord_sameBut (m : Mod) (a1 : PadRec) (a2 : Nat) (a3 : Nat) : Mod.sameBut [.regs, .evIn, .step, .pool, .pad] m (Mod.placeRecord m a1 a2 a3) := by
  unfold Mod.placeRecord
  extract_lets key
  split
  · exact Mod.sameBut_mono (Mod.placeNow_some ‹_›) (by decide)
  · split
    · exact Mod.sameBut_trans (Mod.sameBut_mono (Mod.setInst_sameBut _ _ _) (by decide)) (Mod.sameBut_mono (Mod.dropLayer_sameBut _ _ _ _) (by decide))
    · have hd := Mod.sameBut_mono (qs := [.regs, .evIn, .step, .pool, .pad]) (Mod.placeDropping_sameBut a1 key a3 (m.pad.insts.length + 1) m) (by decide)
      generalize Mod.placeDropping a1 key a3 (m.pad.insts.length + 1) m = y at hd
      split
      · exact hd
      · exact Mod.sameBut_trans hd (Mod.sameBut_mono (Mod.stashExhausted_sameBut _ _ _ _) (by decide))

theorem Mod.setPolicy_sameBut (m : Mod) (a1 : Nat) : Mod.sameBut [.regs] m (Mod.setPolicy m a1) := by
  unfold Mod.setPolicy
  repeat'
    first
      | with_reducible exact Mod.sameBut_refl _ _
      | with_reducible assumption
      | (extract_lets +onlyGivenNames y; first | (refine Mod.sameBut_cut y (fun hy => ?_) ?_; rotate_left; subst y; rotate_left; clear_value y) | (refine Mod.sameBut_cut_fst y (fun hy => ?_) ?_; rotate_left; subst y; rotate_left; clear_value y) | clear_value y)
      | split
      | ((with_reducible apply Mod.sameBut_foldl); intro x e)
      | ((with_reducible apply Mod.sameBut_foldl_fst); intro x e)
      | dsimp only
      | ((with_reducible apply Mod.sameBut_mk); rotate_left; all_goals (try (intro hp; first | exact (hp (by decide)).elim | rfl)))

theorem Mod.showKeys_sameBut (m : Mod) : Mod.sameBut [.regs] m (Mod.showKeys m) := by
  unfold Mod.showKeys
  repeat'
    first
      | with_reducible exact Mod.sameBut_refl _ _
      | with_reducible assumption
      | (extract_lets +onlyGivenNames y; first | (refine Mod.sameBut_cut y (fun hy => ?_) ?_; rotate_left; subst y; rotate_left; clear_value y) | (refine Mod.sameBut_cut_fst y (fun hy => ?_) ?_; rotate_left; subst y; rotate_left; clear_value y) | clear_value y)
      | ((with_reducible apply Mod.sameBut_step (Mod.fset_sameBut _ _ _ _ _)); decide)
      | split
      | ((with_reducible apply Mod.sameBut_foldl); intro x e)
      | ((with_reducible apply Mod.sameBut_foldl_fst); intro x e)
      | dsimp only

theorem Mod.policyRecord_sameBut (m : Mod) (a1 : Path) (a2 : List Byte) : Mod.sameBut [.regs, .evIn, .host, .sec] m (Mod.policyRecord m a1 a2) := by
  unfold Mod.policyRecord
  repeat'
    first
      | with_reducible exact Mod.sameBut_refl _ _
      | with_reducible assumption
      | (extract_lets +onlyGivenNames y; first | (refine Mod.sameBut_cut y (fun hy => ?_) ?_; rotate_left; subst y; rotate_left; clear_value y) | (refine Mod.sameBut_cut_fst y (fun hy => ?_) ?_; rotate_left; subst y; rotate_left; clear_value y) | clear_value y)
      | ((with_reducible apply Mod.sameBut_step (Mod.cmdDone_sameBut _ _ _ _)); decide)
      | ((with_reducible apply Mod.sameBut_step (Mod.mgmtRefused_sameBut _ _ _)); decide)
      | ((with_reducible apply Mod.sameBut_step (Mod.tokenBad_sameBut _ _ _)); decide)
      | ((with_reducible apply Mod.sameBut_step (Mod.fset_sameBut _ _ _ _ _)); decide)
      | ((with_reducible apply Mod.sameBut_step (Mod.setPolicy_sameBut _ _)); decide)
      | ((with_reducible apply Mod.sameBut_step (Mod.showKeys_sameBut _)); decide)
      | ((with_reducible apply Mod.sameBut_step (Mod.raise_sameBut _ _ _ _ _ _ _)); decide)
      | ((with_reducible apply Mod.sameBut_step (Mod.extend_sameBut _ _ _ _)); decide)
      | split
      | dsimp only
      | ((with_reducible apply Mod.sameBut_mk); rotate_left; all_goals (try (intro hp; first | exact (hp (by decide)).elim | rfl)))

theorem Mod.portReset_sameBut (m : Mod) (a1 : Nat) : Mod.sameBut [.regs, .evIn, .fab, .dbg] m (Mod.portReset m a1) := by
  unfold Mod.portReset
  repeat'
    first
      | with_reducible exact Mod.sameBut_refl _ _
      | with_reducible assumption
      | (extract_lets +onlyGivenNames y; first | (refine Mod.sameBut_cut y (fun hy => ?_) ?_; rotate_left; subst y; rotate_left; clear_value y) | (refine Mod.sameBut_cut_fst y (fun hy => ?_) ?_; rotate_left; subst y; rotate_left; clear_value y) | clear_value y)
      | ((with_reducible apply Mod.sameBut_step (Mod.portTo_sameBut _ _ _ _)); decide)
      | split
      | dsimp only
      | ((with_reducible apply Mod.sameBut_mk); rotate_left; all_goals (try (intro hp; first | exact (hp (by decide)).elim | rfl)))

theorem Mod.produced_sameBut (m : Mod) (a1 : EvClass) : Mod.sameBut [.regs] m (Mod.produced m a1) := by
  unfold Mod.produced
  repeat'
    first
      | with_reducible exact Mod.sameBut_refl _ _
      | with_reducible assumption
      | (extract_lets +onlyGivenNames y; first | (refine Mod.sameBut_cut y (fun hy => ?_) ?_; rotate_left; subst y; rotate_left; clear_value y) | (refine Mod.sameBut_cut_fst y (fun hy => ?_) ?_; rotate_left; subst y; rotate_left; clear_value y) | clear_value y)
      | ((with_reducible apply Mod.sameBut_step (Mod.fsat_sameBut _ _ _ _ _)); decide)
      | ((with_reducible apply Mod.sameBut_step (Mod.fcount_sameBut _ _ _ _ _)); decide)
      | split
      | dsimp only

theorem Mod.profileRequest_sameBut (m : Mod) (a1 : Path) (a2 : Nat) : Mod.sameBut [.regs, .evIn] m (Mod.profileRequest m a1 a2) := by
  unfold Mod.profileRequest
  repeat'
    first
      | with_reducible exact Mod.sameBut_refl _ _
      | with_reducible assumption
      | (extract_lets +onlyGivenNames y; first | (refine Mod.sameBut_cut y (fun hy => ?_) ?_; rotate_left; subst y; rotate_left; clear_value y) | (refine Mod.sameBut_cut_fst y (fun hy => ?_) ?_; rotate_left; subst y; rotate_left; clear_value y) | clear_value y)
      | ((with_reducible apply Mod.sameBut_step (Mod.profileRefused_sameBut _ _ _ _ _)); decide)
      | ((with_reducible apply Mod.sameBut_step (Mod.wordWrite_sameBut _ _ _ _ _ _)); decide)
      | split
      | dsimp only

theorem Mod.writeSlotHash_sameBut (m : Mod) (a1 : Nat) (a2 : List Byte) : Mod.sameBut [.regs] m (Mod.writeSlotHash m a1 a2) := by
  unfold Mod.writeSlotHash
  repeat'
    first
      | with_reducible exact Mod.sameBut_refl _ _
      | with_reducible assumption
      | (extract_lets +onlyGivenNames y; first | (refine Mod.sameBut_cut y (fun hy => ?_) ?_; rotate_left; subst y; rotate_left; clear_value y) | (refine Mod.sameBut_cut_fst y (fun hy => ?_) ?_; rotate_left; subst y; rotate_left; clear_value y) | clear_value y)
      | ((with_reducible apply Mod.sameBut_step (Mod.fset_sameBut _ _ _ _ _)); decide)
      | split
      | ((with_reducible apply Mod.sameBut_foldl); intro x e)
      | ((with_reducible apply Mod.sameBut_foldl_fst); intro x e)
      | dsimp only

theorem Mod.setSlot_sameBut (m : Mod) (a1 : Nat) (a2 : Slot) : Mod.sameBut [.plt] m (Mod.setSlot m a1 a2) := by
  unfold Mod.setSlot
  repeat'
    first
      | with_reducible exact Mod.sameBut_refl _ _
      | with_reducible assumption
      | (extract_lets +onlyGivenNames y; first | (refine Mod.sameBut_cut y (fun hy => ?_) ?_; rotate_left; subst y; rotate_left; clear_value y) | (refine Mod.sameBut_cut_fst y (fun hy => ?_) ?_; rotate_left; subst y; rotate_left; clear_value y) | clear_value y)
      | split
      | dsimp only
      | ((with_reducible apply Mod.sameBut_mk); rotate_left; all_goals (try (intro hp; first | exact (hp (by decide)).elim | rfl)))

theorem Mod.proofDone_sameBut (m : Mod) (a1 : Nat) (a2 : Ecc) : Mod.sameBut [.regs, .evIn, .host, .plt, .step, .mem, .sec] m (Mod.proofDone m a1 a2) := by
  unfold Mod.proofDone
  repeat'
    first
      | with_reducible exact Mod.sameBut_refl _ _
      | with_reducible assumption
      | (extract_lets +onlyGivenNames y; first | (refine Mod.sameBut_cut y (fun hy => ?_) ?_; rotate_left; subst y; rotate_left; clear_value y) | (refine Mod.sameBut_cut_fst y (fun hy => ?_) ?_; rotate_left; subst y; rotate_left; clear_value y) | clear_value y)
      | ((with_reducible apply Mod.sameBut_step (Mod.eccDev_sameBut _ _ _ _)); decide)
      | ((with_reducible apply Mod.sameBut_step (Mod.fset_sameBut _ _ _ _ _)); decide)
      | ((with_reducible apply Mod.sameBut_step (Mod.writeSlotHash_sameBut _ _ _)); decide)
      | ((with_reducible apply Mod.sameBut_step (Mod.setSlot_sameBut _ _ _)); decide)
      | ((with_reducible apply Mod.sameBut_step (Mod.msix_sameBut _ _)); decide)
      | split
      | dsimp only
      | ((with_reducible apply Mod.sameBut_mk); rotate_left; all_goals (try (intro hp; first | exact (hp (by decide)).elim | rfl)))

theorem Mod.putRuns_sameBut (a0 : StreamDesc) (a1 : Ecc) (m : Mod) (a3 : List (Prod Nat Nat)) (a4 : List (Prod Byte Bool)) : Mod.sameBut [.regs, .evIn, .cores, .step, .mem, .chk, .dbg] m (Mod.putRuns a0 a1 m a3 a4) := by
  induction a3 generalizing m a4 with
  | nil => exact Mod.sameBut_refl _ _
  | cons r rs ih => exact Mod.sameBut_trans (Mod.tilePut_sameBut _ _ _ _ _) (ih _ _)

theorem Mod.reconcileRow_sameBut (m : Mod) (a1 : Binding) (a2 : Nat) : Mod.sameBut [.mem] m (Mod.reconcileRow m a1 a2) := by
  unfold Mod.reconcileRow
  repeat'
    first
      | with_reducible exact Mod.sameBut_refl _ _
      | with_reducible assumption
      | (extract_lets +onlyGivenNames y; first | (refine Mod.sameBut_cut y (fun hy => ?_) ?_; rotate_left; subst y; rotate_left; clear_value y) | (refine Mod.sameBut_cut_fst y (fun hy => ?_) ?_; rotate_left; subst y; rotate_left; clear_value y) | clear_value y)
      | ((with_reducible apply Mod.sameBut_step (Mod.devWriteP_sameBut _ _ _)); decide)
      | split
      | ((with_reducible apply Mod.sameBut_foldl); intro x e)
      | ((with_reducible apply Mod.sameBut_foldl_fst); intro x e)
      | dsimp only

theorem Mod.reconcileCopy_sameBut (m : Mod) (a1 : Nat) (a2 : Ecc) : Mod.sameBut [.regs, .evIn, .step, .mem, .groom] m (Mod.reconcileCopy m a1 a2) := by
  unfold Mod.reconcileCopy
  repeat'
    first
      | with_reducible exact Mod.sameBut_refl _ _
      | with_reducible assumption
      | (extract_lets +onlyGivenNames y; first | (refine Mod.sameBut_cut y (fun hy => ?_) ?_; rotate_left; subst y; rotate_left; clear_value y) | (refine Mod.sameBut_cut_fst y (fun hy => ?_) ?_; rotate_left; subst y; rotate_left; clear_value y) | clear_value y)
      | ((with_reducible apply Mod.sameBut_step (Mod.reconcileRow_sameBut _ _ _)); decide)
      | ((with_reducible apply Mod.sameBut_step (Mod.eccDev_sameBut _ _ _ _)); decide)
      | ((with_reducible apply Mod.sameBut_step (Mod.setGroom_sameBut _ _ _)); decide)
      | split
      | ((with_reducible apply Mod.sameBut_foldl); intro x e)
      | ((with_reducible apply Mod.sameBut_foldl_fst); intro x e)
      | dsimp only
      | ((with_reducible apply Mod.sameBut_mk); rotate_left; all_goals (try (intro hp; first | exact (hp (by decide)).elim | rfl)))

theorem Mod.refuseFlit_sameBut (m : Mod) (a1 : Nat) (a2 : FlitIn) : Mod.sameBut [.regs, .fab] m (Mod.refuseFlit m a1 a2) := by
  unfold Mod.refuseFlit
  repeat'
    first
      | with_reducible exact Mod.sameBut_refl _ _
      | with_reducible assumption
      | (extract_lets +onlyGivenNames y; first | (refine Mod.sameBut_cut y (fun hy => ?_) ?_; rotate_left; subst y; rotate_left; clear_value y) | (refine Mod.sameBut_cut_fst y (fun hy => ?_) ?_; rotate_left; subst y; rotate_left; clear_value y) | clear_value y)
      | ((with_reducible apply Mod.sameBut_step (Mod.fsat_sameBut _ _ _ _ _)); decide)
      | ((with_reducible apply Mod.sameBut_step (Mod.setPort_sameBut _ _ _)); decide)
      | split
      | dsimp only

theorem Mod.regWrite_sameBut (m : Mod) (a1 : Nat) (a2 : Nat) (a3 : optParam Nat 0) : Mod.sameBut [.regs, .evIn] m (Mod.regWrite m a1 a2 a3) := by
  unfold Mod.regWrite
  repeat'
    first
      | with_reducible exact Mod.sameBut_refl _ _
      | with_reducible assumption
      | (extract_lets +onlyGivenNames y; first | (refine Mod.sameBut_cut y (fun hy => ?_) ?_; rotate_left; subst y; rotate_left; clear_value y) | (refine Mod.sameBut_cut_fst y (fun hy => ?_) ?_; rotate_left; subst y; rotate_left; clear_value y) | clear_value y)
      | ((with_reducible apply Mod.sameBut_step (Mod.wordWrite_sameBut _ _ _ _ _ _)); decide)
      | split
      | dsimp only
      | ((with_reducible apply Mod.sameBut_mk); rotate_left; all_goals (try (intro hp; first | exact (hp (by decide)).elim | rfl)))

theorem Mod.rwFields_sameBut (m : Mod) (a1 : RegSpec) (a2 : Nat) (a3 : Nat) : Mod.sameBut [.regs, .evIn] m (Mod.rwFields m a1 a2 a3) := by
  unfold Mod.rwFields
  repeat'
    first
      | with_reducible exact Mod.sameBut_refl _ _
      | with_reducible assumption
      | (extract_lets +onlyGivenNames y; first | (refine Mod.sameBut_cut y (fun hy => ?_) ?_; rotate_left; subst y; rotate_left; clear_value y) | (refine Mod.sameBut_cut_fst y (fun hy => ?_) ?_; rotate_left; subst y; rotate_left; clear_value y) | clear_value y)
      | ((with_reducible apply Mod.sameBut_step (Mod.wordWrite_sameBut _ _ _ _ _ _)); decide)
      | split
      | dsimp only

theorem Mod.traceStart_sameBut (m : Mod) : Mod.sameBut [.regs, .dbg] m (Mod.traceStart m) := by
  unfold Mod.traceStart
  repeat'
    first
      | with_reducible exact Mod.sameBut_refl _ _
      | with_reducible assumption
      | (extract_lets +onlyGivenNames y; first | (refine Mod.sameBut_cut y (fun hy => ?_) ?_; rotate_left; subst y; rotate_left; clear_value y) | (refine Mod.sameBut_cut_fst y (fun hy => ?_) ?_; rotate_left; subst y; rotate_left; clear_value y) | clear_value y)
      | ((with_reducible apply Mod.sameBut_step (Mod.fset_sameBut _ _ _ _ _)); decide)
      | split
      | dsimp only
      | ((with_reducible apply Mod.sameBut_mk); rotate_left; all_goals (try (intro hp; first | exact (hp (by decide)).elim | rfl)))

theorem Mod.traceStop_sameBut (m : Mod) : Mod.sameBut [.dbg] m (Mod.traceStop m) := by
  unfold Mod.traceStop
  repeat'
    first
      | with_reducible exact Mod.sameBut_refl _ _
      | with_reducible assumption
      | (extract_lets +onlyGivenNames y; first | (refine Mod.sameBut_cut y (fun hy => ?_) ?_; rotate_left; subst y; rotate_left; clear_value y) | (refine Mod.sameBut_cut_fst y (fun hy => ?_) ?_; rotate_left; subst y; rotate_left; clear_value y) | clear_value y)
      | split
      | dsimp only
      | ((with_reducible apply Mod.sameBut_mk); rotate_left; all_goals (try (intro hp; first | exact (hp (by decide)).elim | rfl)))

theorem Mod.routeD_sameBut (m : Mod) (a1 : Nat) (a2 : Nat) (a3 : Nat) (a4 : Nat) (a5 : optParam Nat 0) : Mod.sameBut [.regs, .evIn, .host, .plt, .cores, .step, .mem, .fab, .dbg] m (Mod.routeD m a1 a2 a3 a4 a5) := by
  unfold Mod.routeD
  repeat'
    first
      | with_reducible exact Mod.sameBut_refl _ _
      | with_reducible assumption
      | (extract_lets +onlyGivenNames y; first | (refine Mod.sameBut_cut y (fun hy => ?_) ?_; rotate_left; subst y; rotate_left; clear_value y) | (refine Mod.sameBut_cut_fst y (fun hy => ?_) ?_; rotate_left; subst y; rotate_left; clear_value y) | clear_value y)
      | unfold Mod.whenBit
      | ((with_reducible apply Mod.sameBut_step (Mod.dbgHalt_sameBut _ _ _)); decide)
      | ((with_reducible apply Mod.sameBut_step (Mod.dbgResume_sameBut _ _ _)); decide)
      | ((with_reducible apply Mod.sameBut_step (Mod.dbgStep_sameBut _ _ _)); decide)
      | ((with_reducible apply Mod.sameBut_step (Mod.rwFields_sameBut _ _ _ _)); decide)
      | ((with_reducible apply Mod.sameBut_step (Mod.memReadCmd_sameBut _ _)); decide)
      | ((with_reducible apply Mod.sameBut_step (Mod.memWriteCmd_sameBut _ _)); decide)
      | ((with_reducible apply Mod.sameBut_step (Mod.freezeAsk_sameBut _ _)); decide)
      | ((with_reducible apply Mod.sameBut_step (Mod.memRead_sameBut _)); decide)
      | ((with_reducible apply Mod.sameBut_step (Mod.traceStop_sameBut _)); decide)
      | ((with_reducible apply Mod.sameBut_step (Mod.traceStart_sameBut _)); decide)
      | ((with_reducible apply Mod.sameBut_step (Mod.regWrite_sameBut _ _ _ _)); decide)
      | split
      | dsimp only

end Sys2Proof.Machine
end

