-- ==== Sys2Proof/Laws/Frames6.lean ====
section
/-! SUPPORT. What each operation of the module changes, part 6 of 6: `f_sameBut` names the parts of the module that operation `f` may
change (an operation that answers a module and something beside it: its first part). The operations stand before those that use them. -/

namespace Sys2Proof.Machine

theorem Mod.slotRefused_sameBut (m : Mod) (a1 : Nat) (a2 : Nat) : Mod.sameBut [.regs, .evIn] m (Mod.slotRefused m a1 a2) := by
  unfold Mod.slotRefused
  repeat'
    first
      | with_reducible exact Mod.sameBut_refl _ _
      | with_reducible assumption
      | (extract_lets +onlyGivenNames y; first | (refine Mod.sameBut_cut y (fun hy => ?_) ?_; rotate_left; subst y; rotate_left; clear_value y) | (refine Mod.sameBut_cut_fst y (fun hy => ?_) ?_; rotate_left; subst y; rotate_left; clear_value y) | clear_value y)
      | ((with_reducible apply Mod.sameBut_step (Mod.raise_sameBut _ _ _ _ _ _ _)); decide)
      | ((with_reducible apply Mod.sameBut_step (Mod.fset_sameBut _ _ _ _ _)); decide)
      | split
      | dsimp only

theorem Mod.slotCmd_sameBut (m : Mod) (a1 : Nat) (a2 : Nat) : Mod.sameBut [.regs, .evIn, .host, .plt] m (Mod.slotCmd m a1 a2) := by
  unfold Mod.slotCmd
  repeat'
    first
      | with_reducible exact Mod.sameBut_refl _ _
      | with_reducible assumption
      | (extract_lets +onlyGivenNames y; first | (refine Mod.sameBut_cut y (fun hy => ?_) ?_; rotate_left; subst y; rotate_left; clear_value y) | (refine Mod.sameBut_cut_fst y (fun hy => ?_) ?_; rotate_left; subst y; rotate_left; clear_value y) | clear_value y)
      | ((with_reducible apply Mod.sameBut_step (Mod.setSlot_sameBut _ _ _)); decide)
      | ((with_reducible apply Mod.sameBut_step (Mod.cancelFor_sameBut _ _)); decide)
      | ((with_reducible apply Mod.sameBut_step (Mod.slotRefused_sameBut _ _ _)); decide)
      | ((with_reducible apply Mod.sameBut_step (Mod.clearSlotRegs_sameBut _ _)); decide)
      | split
      | dsimp only

theorem Mod.sourceWrite_sameBut (m : Mod) (a1 : Nat) : Mod.sameBut [.regs, .evIn, .tick] m (Mod.sourceWrite m a1) := by
  unfold Mod.sourceWrite
  repeat'
    first
      | with_reducible exact Mod.sameBut_refl _ _
      | with_reducible assumption
      | (extract_lets +onlyGivenNames y; first | (refine Mod.sameBut_cut y (fun hy => ?_) ?_; rotate_left; subst y; rotate_left; clear_value y) | (refine Mod.sameBut_cut_fst y (fun hy => ?_) ?_; rotate_left; subst y; rotate_left; clear_value y) | clear_value y)
      | ((with_reducible apply Mod.sameBut_step (Mod.lockedWrite_sameBut _ _ _ _)); decide)
      | ((with_reducible apply Mod.sameBut_step (Mod.takeSource_sameBut _ _)); decide)
      | ((with_reducible apply Mod.sameBut_step (Mod.fset_sameBut _ _ _ _ _)); decide)
      | split
      | dsimp only

theorem Mod.stepszWrite_sameBut (m : Mod) (a1 : Nat) : Mod.sameBut [.regs, .evIn, .step] m (Mod.stepszWrite m a1) := by
  unfold Mod.stepszWrite
  repeat'
    first
      | with_reducible exact Mod.sameBut_refl _ _
      | with_reducible assumption
      | (extract_lets +onlyGivenNames y; first | (refine Mod.sameBut_cut y (fun hy => ?_) ?_; rotate_left; subst y; rotate_left; clear_value y) | (refine Mod.sameBut_cut_fst y (fun hy => ?_) ?_; rotate_left; subst y; rotate_left; clear_value y) | clear_value y)
      | ((with_reducible apply Mod.sameBut_step (Mod.fset_sameBut _ _ _ _ _)); decide)
      | ((with_reducible apply Mod.sameBut_step (Mod.raise_sameBut _ _ _ _ _ _ _)); decide)
      | split
      | dsimp only
      | ((with_reducible apply Mod.sameBut_mk); rotate_left; all_goals (try (intro hp; first | exact (hp (by decide)).elim | rfl)))

theorem Mod.stepArm_sameBut (m : Mod) (a1 : Nat) : Mod.sameBut [.regs, .step] m (Mod.stepArm m a1) := by
  unfold Mod.stepArm
  repeat'
    first
      | with_reducible exact Mod.sameBut_refl _ _
      | with_reducible assumption
      | (extract_lets +onlyGivenNames y; first | (refine Mod.sameBut_cut y (fun hy => ?_) ?_; rotate_left; subst y; rotate_left; clear_value y) | (refine Mod.sameBut_cut_fst y (fun hy => ?_) ?_; rotate_left; subst y; rotate_left; clear_value y) | clear_value y)
      | ((with_reducible apply Mod.sameBut_step (Mod.fset_sameBut _ _ _ _ _)); decide)
      | split
      | dsimp only
      | ((with_reducible apply Mod.sameBut_mk); rotate_left; all_goals (try (intro hp; first | exact (hp (by decide)).elim | rfl)))

theorem Mod.tableRefused_sameBut (m : Mod) (a1 : Nat) (a2 : Bool) (a3 : Nat) (a4 : Nat) : Mod.sameBut [.regs, .evIn] m (Mod.tableRefused m a1 a2 a3 a4) := by
  unfold Mod.tableRefused
  repeat'
    first
      | with_reducible exact Mod.sameBut_refl _ _
      | with_reducible assumption
      | (extract_lets +onlyGivenNames y; first | (refine Mod.sameBut_cut y (fun hy => ?_) ?_; rotate_left; subst y; rotate_left; clear_value y) | (refine Mod.sameBut_cut_fst y (fun hy => ?_) ?_; rotate_left; subst y; rotate_left; clear_value y) | clear_value y)
      | ((with_reducible apply Mod.sameBut_step (Mod.raise_sameBut _ _ _ _ _ _ _)); decide)
      | ((with_reducible apply Mod.sameBut_step (Mod.fset_sameBut _ _ _ _ _)); decide)
      | split
      | dsimp only

theorem Mod.tableLoad_sameBut (m : Mod) (a1 : List (Prod Byte Bool)) (a2 : Nat) : Mod.sameBut [.regs, .evIn, .stm] m (Mod.tableLoad m a1 a2).1 := by
  unfold Mod.tableLoad
  repeat'
    first
      | with_reducible exact Mod.sameBut_refl _ _
      | with_reducible assumption
      | (extract_lets +onlyGivenNames y; first | (refine Mod.sameBut_cut y (fun hy => ?_) ?_; rotate_left; subst y; rotate_left; clear_value y) | (refine Mod.sameBut_cut_fst y (fun hy => ?_) ?_; rotate_left; subst y; rotate_left; clear_value y) | clear_value y)
      | ((with_reducible apply Mod.sameBut_step (Mod.tableRefused_sameBut _ _ _ _ _)); decide)
      | ((with_reducible apply Mod.sameBut_step (Mod.setEngine_sameBut _ _ _)); decide)
      | split
      | dsimp only

theorem Mod.tableCmd_sameBut (m : Mod) (a1 : Ecc) : Mod.sameBut [.regs, .evIn, .cores, .step, .mem, .stm, .dbg] m (Mod.tableCmd m a1) := by
  unfold Mod.tableCmd
  repeat'
    first
      | with_reducible exact Mod.sameBut_refl _ _
      | with_reducible assumption
      | (extract_lets +onlyGivenNames y; first | (refine Mod.sameBut_cut y (fun hy => ?_) ?_; rotate_left; subst y; rotate_left; clear_value y) | (refine Mod.sameBut_cut_fst y (fun hy => ?_) ?_; rotate_left; subst y; rotate_left; clear_value y) | clear_value y)
      | ((with_reducible apply Mod.sameBut_step (Mod.readDev_sameBut _ _ _ _)); decide)
      | ((with_reducible apply Mod.sameBut_step (Mod.yard_sameBut _ _ _ _ _)); decide)
      | ((with_reducible apply Mod.sameBut_step (Mod.tableLoad_sameBut _ _ _)); decide)
      | ((with_reducible apply Mod.sameBut_step (Mod.set64_sameBut _ _ _ _ _)); decide)
      | split
      | ((with_reducible apply Mod.sameBut_foldl); intro x e)
      | ((with_reducible apply Mod.sameBut_foldl_fst); intro x e)
      | dsimp only

theorem Mod.ringAddr_sameBut (m : Mod) (a1 : Nat) (a2 : Nat) : Mod.sameBut [.regs, .evIn] m (Mod.ringAddr m a1 a2) := by
  unfold Mod.ringAddr
  repeat'
    first
      | with_reducible exact Mod.sameBut_refl _ _
      | with_reducible assumption
      | (extract_lets +onlyGivenNames y; first | (refine Mod.sameBut_cut y (fun hy => ?_) ?_; rotate_left; subst y; rotate_left; clear_value y) | (refine Mod.sameBut_cut_fst y (fun hy => ?_) ?_; rotate_left; subst y; rotate_left; clear_value y) | clear_value y)
      | ((with_reducible apply Mod.sameBut_step (Mod.fset_sameBut _ _ _ _ _)); decide)
      | ((with_reducible apply Mod.sameBut_step (Mod.regWrite_sameBut _ _ _ _)); decide)
      | split
      | dsimp only

theorem Mod.testStart_sameBut (m : Mod) (a1 : Nat) : Mod.sameBut [.regs, .fab] m (Mod.testStart m a1) := by
  unfold Mod.testStart
  repeat'
    first
      | with_reducible exact Mod.sameBut_refl _ _
      | with_reducible assumption
      | (extract_lets +onlyGivenNames y; first | (refine Mod.sameBut_cut y (fun hy => ?_) ?_; rotate_left; subst y; rotate_left; clear_value y) | (refine Mod.sameBut_cut_fst y (fun hy => ?_) ?_; rotate_left; subst y; rotate_left; clear_value y) | clear_value y)
      | ((with_reducible apply Mod.sameBut_step (Mod.fset_sameBut _ _ _ _ _)); decide)
      | ((with_reducible apply Mod.sameBut_step (Mod.setPort_sameBut _ _ _)); decide)
      | split
      | dsimp only

theorem Mod.testStop_sameBut (m : Mod) (a1 : Nat) : Mod.sameBut [.fab] m (Mod.testStop m a1) := by
  unfold Mod.testStop
  repeat'
    first
      | with_reducible exact Mod.sameBut_refl _ _
      | with_reducible assumption
      | (extract_lets +onlyGivenNames y; first | (refine Mod.sameBut_cut y (fun hy => ?_) ?_; rotate_left; subst y; rotate_left; clear_value y) | (refine Mod.sameBut_cut_fst y (fun hy => ?_) ?_; rotate_left; subst y; rotate_left; clear_value y) | clear_value y)
      | ((with_reducible apply Mod.sameBut_step (Mod.setPort_sameBut _ _ _)); decide)
      | split
      | dsimp only

theorem Mod.ringCtrl_sameBut (m : Mod) (a1 : Nat) : Mod.sameBut [.regs] m (Mod.ringCtrl m a1) := by
  unfold Mod.ringCtrl
  repeat'
    first
      | with_reducible exact Mod.sameBut_refl _ _
      | with_reducible assumption
      | (extract_lets +onlyGivenNames y; first | (refine Mod.sameBut_cut y (fun hy => ?_) ?_; rotate_left; subst y; rotate_left; clear_value y) | (refine Mod.sameBut_cut_fst y (fun hy => ?_) ?_; rotate_left; subst y; rotate_left; clear_value y) | clear_value y)
      | ((with_reducible apply Mod.sameBut_step (Mod.fset_sameBut _ _ _ _ _)); decide)
      | split
      | dsimp only

theorem Mod.ringCons_sameBut (m : Mod) (a1 : Nat) : Mod.sameBut [.regs] m (Mod.ringCons m a1) := by
  unfold Mod.ringCons
  repeat'
    first
      | with_reducible exact Mod.sameBut_refl _ _
      | with_reducible assumption
      | (extract_lets +onlyGivenNames y; first | (refine Mod.sameBut_cut y (fun hy => ?_) ?_; rotate_left; subst y; rotate_left; clear_value y) | (refine Mod.sameBut_cut_fst y (fun hy => ?_) ?_; rotate_left; subst y; rotate_left; clear_value y) | clear_value y)
      | ((with_reducible apply Mod.sameBut_step (Mod.fset_sameBut _ _ _ _ _)); decide)
      | split
      | dsimp only

theorem Mod.thermField_sameBut (m : Mod) (a1 : Fld) (a2 : Nat) (a3 : Nat) : Mod.sameBut [.regs] m (Mod.thermField m a1 a2 a3) := by
  unfold Mod.thermField
  repeat'
    first
      | with_reducible exact Mod.sameBut_refl _ _
      | with_reducible assumption
      | (extract_lets +onlyGivenNames y; first | (refine Mod.sameBut_cut y (fun hy => ?_) ?_; rotate_left; subst y; rotate_left; clear_value y) | (refine Mod.sameBut_cut_fst y (fun hy => ?_) ?_; rotate_left; subst y; rotate_left; clear_value y) | clear_value y)
      | ((with_reducible apply Mod.sameBut_step (Mod.fset_sameBut _ _ _ _ _)); decide)
      | split
      | dsimp only

theorem Mod.unlockEffects_sameBut (m : Mod) : Mod.sameBut [.regs, .cores, .dbg] m (Mod.unlockEffects m) := by
  unfold Mod.unlockEffects
  repeat'
    first
      | with_reducible exact Mod.sameBut_refl _ _
      | with_reducible assumption
      | (extract_lets +onlyGivenNames y; first | (refine Mod.sameBut_cut y (fun hy => ?_) ?_; rotate_left; subst y; rotate_left; clear_value y) | (refine Mod.sameBut_cut_fst y (fun hy => ?_) ?_; rotate_left; subst y; rotate_left; clear_value y) | clear_value y)
      | ((with_reducible apply Mod.sameBut_step (Mod.resumeCores_sameBut _ _)); decide)
      | ((with_reducible apply Mod.sameBut_step (Mod.traceStop_sameBut _)); decide)
      | ((with_reducible apply Mod.sameBut_step (Mod.fset_sameBut _ _ _ _ _)); decide)
      | split
      | ((with_reducible apply Mod.sameBut_foldl); intro x e)
      | ((with_reducible apply Mod.sameBut_foldl_fst); intro x e)
      | dsimp only
      | ((with_reducible apply Mod.sameBut_mk); rotate_left; all_goals (try (intro hp; first | exact (hp (by decide)).elim | rfl)))

theorem Mod.unlockEnd_sameBut (m : Mod) : Mod.sameBut [.regs, .cores, .sec, .dbg] m (Mod.unlockEnd m) := by
  unfold Mod.unlockEnd
  repeat'
    first
      | with_reducible exact Mod.sameBut_refl _ _
      | with_reducible assumption
      | (extract_lets +onlyGivenNames y; first | (refine Mod.sameBut_cut y (fun hy => ?_) ?_; rotate_left; subst y; rotate_left; clear_value y) | (refine Mod.sameBut_cut_fst y (fun hy => ?_) ?_; rotate_left; subst y; rotate_left; clear_value y) | clear_value y)
      | ((with_reducible apply Mod.sameBut_step (Mod.vendorOver_sameBut _)); decide)
      | ((with_reducible apply Mod.sameBut_step (Mod.unlockEffects_sameBut _)); decide)
      | split
      | dsimp only
      | ((with_reducible apply Mod.sameBut_mk); rotate_left; all_goals (try (intro hp; first | exact (hp (by decide)).elim | rfl)))

theorem Mod.secCmd_sameBut (m : Mod) (a1 : Nat) : Mod.sameBut [.regs, .evIn, .host, .cores, .sec, .dbg] m (Mod.secCmd m a1) := by
  unfold Mod.secCmd
  repeat'
    first
      | with_reducible exact Mod.sameBut_refl _ _
      | with_reducible assumption
      | (extract_lets +onlyGivenNames y; first | (refine Mod.sameBut_cut y (fun hy => ?_) ?_; rotate_left; subst y; rotate_left; clear_value y) | (refine Mod.sameBut_cut_fst y (fun hy => ?_) ?_; rotate_left; subst y; rotate_left; clear_value y) | clear_value y)
      | ((with_reducible apply Mod.sameBut_step (Mod.fwuBegin_sameBut _ _)); decide)
      | ((with_reducible apply Mod.sameBut_step (Mod.fwuHeader_sameBut _ _ _)); decide)
      | ((with_reducible apply Mod.sameBut_step (Mod.fwuList_sameBut _ _ _)); decide)
      | ((with_reducible apply Mod.sameBut_step (Mod.fwuBlock_sameBut _ _ _)); decide)
      | ((with_reducible apply Mod.sameBut_step (Mod.fwuEnd_sameBut _ _)); decide)
      | ((with_reducible apply Mod.sameBut_step (Mod.fwuAbort_sameBut _ _)); decide)
      | ((with_reducible apply Mod.sameBut_step (Mod.nonceDraw_sameBut _ _)); decide)
      | ((with_reducible apply Mod.sameBut_step (Mod.dbgUnlock_sameBut _ _ _)); decide)
      | ((with_reducible apply Mod.sameBut_step (Mod.cmdDone_sameBut _ _ _ _)); decide)
      | ((with_reducible apply Mod.sameBut_step (Mod.unlockEnd_sameBut _)); decide)
      | ((with_reducible apply Mod.sameBut_step (Mod.policyRecord_sameBut _ _ _)); decide)
      | split
      | dsimp only

theorem Mod.stableReset_sameBut (m : Mod) (a1 : Nat) (a2 : Nat) : Mod.sameBut [.regs, .evIn, .sched, .cores, .step, .mem] m (Mod.stableReset m a1 a2) := by
  unfold Mod.stableReset
  repeat'
    first
      | with_reducible exact Mod.sameBut_refl _ _
      | with_reducible assumption
      | (extract_lets +onlyGivenNames y; first | (refine Mod.sameBut_cut y (fun hy => ?_) ?_; rotate_left; subst y; rotate_left; clear_value y) | (refine Mod.sameBut_cut_fst y (fun hy => ?_) ?_; rotate_left; subst y; rotate_left; clear_value y) | clear_value y)
      | ((with_reducible apply Mod.sameBut_step (Mod.setStable_sameBut _ _ _)); decide)
      | ((with_reducible apply Mod.sameBut_step (Mod.raiseDual_sameBut _ _ _ _ _ _ _ _)); decide)
      | split
      | ((with_reducible apply Mod.sameBut_foldl); intro x e)
      | ((with_reducible apply Mod.sameBut_foldl_fst); intro x e)
      | dsimp only
      | ((with_reducible apply Mod.sameBut_mk); rotate_left; all_goals (try (intro hp; first | exact (hp (by decide)).elim | rfl)))

theorem Mod.some_ite {c : Prop} [Decidable c] {a x : Mod} {o : Option Mod} (h : (if c then some a else o) = some x) : a = x ∨ o = some x := by
  split at h
  · exact .inl (Option.some.inj h)
  · exact .inr h

theorem Mod.routeA_some {m x : Mod} {b i off v : Nat} (h : m.routeA b i off v = some x) : Mod.sameBut [.regs, .evIn, .host, .tick, .plt, .cores, .step, .mem, .stm, .dbg] m x := by
  unfold Mod.routeA at h
  repeat' (obtain rfl | h := Mod.some_ite h)
  case' inr => cases h
  all_goals
    repeat'
      first
        | with_reducible exact Mod.sameBut_refl _ _
        | unfold Mod.whenBit
        | ((with_reducible apply Mod.sameBut_step (Mod.slotCmd_sameBut _ _ _)); decide)
        | ((with_reducible apply Mod.sameBut_step (Mod.actCmd_sameBut _ _ _)); decide)
        | ((with_reducible apply Mod.sameBut_step (Mod.periodWrite_sameBut _ _)); decide)
        | ((with_reducible apply Mod.sameBut_step (Mod.sourceWrite_sameBut _ _)); decide)
        | ((with_reducible apply Mod.sameBut_step (Mod.bar2BaseWrite_sameBut _ _ _)); decide)
        | ((with_reducible apply Mod.sameBut_step (Mod.fset_sameBut _ _ _ _ _)); decide)
        | ((with_reducible apply Mod.sameBut_step (Mod.stepszWrite_sameBut _ _)); decide)
        | ((with_reducible apply Mod.sameBut_step (Mod.stepArm_sameBut _ _)); decide)
        | ((with_reducible apply Mod.sameBut_step (Mod.kdataWrite_sameBut _ _ _)); decide)
        | ((with_reducible apply Mod.sameBut_step (Mod.ksetWrite_sameBut _ _)); decide)
        | ((with_reducible apply Mod.sameBut_step (Mod.tableCmd_sameBut _ _)); decide)
        | ((with_reducible apply Mod.sameBut_step (Mod.ringAddr_sameBut _ _ _)); decide)
        | split
        | dsimp only

theorem Mod.routeB_some {m x : Mod} {b i v : Nat} (h : m.routeB b i v = some x) : Mod.sameBut [.regs, .evIn, .host, .sched, .cores, .step, .mem, .chk, .fab, .dbg] m x := by
  unfold Mod.routeB at h
  repeat' (obtain rfl | h := Mod.some_ite h)
  case' inr => cases h
  all_goals
    repeat'
      first
        | with_reducible exact Mod.sameBut_refl _ _
        | unfold Mod.whenBit
        | ((with_reducible apply Mod.sameBut_step (Mod.fset_sameBut _ _ _ _ _)); decide)
        | ((with_reducible apply Mod.sameBut_step (Mod.loftCfg_sameBut _ _)); decide)
        | ((with_reducible apply Mod.sameBut_step (Mod.portReset_sameBut _ _)); decide)
        | ((with_reducible apply Mod.sameBut_step (Mod.testStart_sameBut _ _)); decide)
        | ((with_reducible apply Mod.sameBut_step (Mod.testStop_sameBut _ _)); decide)
        | ((with_reducible apply Mod.sameBut_step (Mod.chkAbort_sameBut _ _)); decide)
        | ((with_reducible apply Mod.sameBut_step (Mod.chkHostStart_sameBut _ _ _)); decide)
        | ((with_reducible apply Mod.sameBut_step (Mod.ringCtrl_sameBut _ _)); decide)
        | ((with_reducible apply Mod.sameBut_step (Mod.ringCons_sameBut _ _)); decide)
        | ((with_reducible apply Mod.sameBut_step (Mod.logAck_sameBut _ _)); decide)
        | split
        | dsimp only

theorem Mod.routeC_some {m x : Mod} {b i v : Nat} (h : m.routeC b i v = some x) : Mod.sameBut [.regs, .evIn, .host, .pwr, .sched, .cores, .step, .mem, .sec, .dbg] m x := by
  unfold Mod.routeC at h
  repeat' (obtain rfl | h := Mod.some_ite h)
  case' inr => cases h
  all_goals
    repeat'
      first
        | with_reducible exact Mod.sameBut_refl _ _
        | unfold Mod.whenBit
        | ((with_reducible apply Mod.sameBut_step (Mod.profileRequest_sameBut _ _ _)); decide)
        | ((with_reducible apply Mod.sameBut_step (Mod.capWrite_sameBut _ _ _)); decide)
        | ((with_reducible apply Mod.sameBut_step (Mod.defaultWrite_sameBut _ _ _)); decide)
        | ((with_reducible apply Mod.sameBut_step (Mod.activeRequest_sameBut _)); decide)
        | ((with_reducible apply Mod.sameBut_step (Mod.parkRequest_sameBut _)); decide)
        | ((with_reducible apply Mod.sameBut_step (Mod.thermField_sameBut _ _ _ _)); decide)
        | ((with_reducible apply Mod.sameBut_step (Mod.secCmd_sameBut _ _)); decide)
        | ((with_reducible apply Mod.sameBut_step (Mod.stableReset_sameBut _ _ _)); decide)
        | ((with_reducible apply Mod.sameBut_step (Mod.bistStart_sameBut _ _)); decide)
        | ((with_reducible apply Mod.sameBut_step (Mod.fset_sameBut _ _ _ _ _)); decide)
        | split
        | dsimp only

theorem Mod.regRoute_sameBut (m : Mod) (a1 : Nat) (a2 : Nat) (a3 : optParam Nat 0) : Mod.sameBut [.regs, .evIn, .host, .pwr, .tick, .plt, .sched, .cores, .step, .mem, .stm, .chk, .fab, .sec, .dbg] m (Mod.regRoute m a1 a2 a3) := by
  unfold Mod.regRoute
  repeat'
    first
      | with_reducible exact Mod.sameBut_refl _ _
      | with_reducible assumption
      | (extract_lets +onlyGivenNames y; first | (refine Mod.sameBut_cut y (fun hy => ?_) ?_; rotate_left; subst y; rotate_left; clear_value y) | (refine Mod.sameBut_cut_fst y (fun hy => ?_) ?_; rotate_left; subst y; rotate_left; clear_value y) | clear_value y)
      | unfold Mod.dbgGate
      | ((with_reducible apply Mod.sameBut_step (Mod.routeD_sameBut _ _ _ _ _ _)); decide)
      | ((with_reducible apply Mod.sameBut_step (Mod.regWrite_sameBut _ _ _ _)); decide)
      | ((with_reducible apply Mod.sameBut_step (Mod.fset_sameBut _ _ _ _ _)); decide)
      | with_reducible exact Mod.sameBut_mono (Mod.routeA_some ‹_›) (by decide)
      | with_reducible exact Mod.sameBut_mono (Mod.routeB_some ‹_›) (by decide)
      | with_reducible exact Mod.sameBut_mono (Mod.routeC_some ‹_›) (by decide)
      | split
      | dsimp only

theorem Mod.remoteRefused_sameBut (m : Mod) (a1 : Nat) (a2 : Nat) (a3 : Bool) : Mod.sameBut [.evIn] m (Mod.remoteRefused m a1 a2 a3) := by
  unfold Mod.remoteRefused
  repeat'
    first
      | with_reducible exact Mod.sameBut_refl _ _
      | with_reducible assumption
      | (extract_lets +onlyGivenNames y; first | (refine Mod.sameBut_cut y (fun hy => ?_) ?_; rotate_left; subst y; rotate_left; clear_value y) | (refine Mod.sameBut_cut_fst y (fun hy => ?_) ?_; rotate_left; subst y; rotate_left; clear_value y) | clear_value y)
      | ((with_reducible apply Mod.sameBut_step (Mod.raise_sameBut _ _ _ _ _ _ _)); decide)
      | split
      | dsimp only

theorem Mod.retryRound_sameBut (m : Mod) (a1 : Nat) : Mod.sameBut [.regs, .evIn, .fab, .dbg] m (Mod.retryRound m a1) := by
  unfold Mod.retryRound
  repeat'
    first
      | with_reducible exact Mod.sameBut_refl _ _
      | with_reducible assumption
      | (extract_lets +onlyGivenNames y; first | (refine Mod.sameBut_cut y (fun hy => ?_) ?_; rotate_left; subst y; rotate_left; clear_value y) | (refine Mod.sameBut_cut_fst y (fun hy => ?_) ?_; rotate_left; subst y; rotate_left; clear_value y) | clear_value y)
      | ((with_reducible apply Mod.sameBut_step (Mod.portTo_sameBut _ _ _ _)); decide)
      | ((with_reducible apply Mod.sameBut_step (Mod.fsat_sameBut _ _ _ _ _)); decide)
      | ((with_reducible apply Mod.sameBut_step (Mod.setPort_sameBut _ _ _)); decide)
      | split
      | dsimp only

theorem Mod.rowsServe_sameBut (m : Mod) (a1 : Nat) (a2 : Ecc) : Mod.sameBut [.regs, .evIn, .sched, .cores, .step, .mem, .groom, .coll, .fab, .dbg] m (Mod.rowsServe m a1 a2) := by
  unfold Mod.rowsServe
  repeat'
    first
      | with_reducible exact Mod.sameBut_refl _ _
      | with_reducible assumption
      | (extract_lets +onlyGivenNames y; first | (refine Mod.sameBut_cut y (fun hy => ?_) ?_; rotate_left; subst y; rotate_left; clear_value y) | (refine Mod.sameBut_cut_fst y (fun hy => ?_) ?_; rotate_left; subst y; rotate_left; clear_value y) | clear_value y)
      | ((with_reducible apply Mod.sameBut_step (Mod.sliceRead_sameBut _ _ _ _)); decide)
      | ((with_reducible apply Mod.sameBut_step (Mod.contribute_sameBut _ _ _ _ _ _ _ _)); decide)
      | ((with_reducible apply Mod.sameBut_step (Mod.collFormat_sameBut _ _ _ _ _)); decide)
      | ((with_reducible apply Mod.sameBut_step (Mod.opRead_sameBut _ _ _ _)); decide)
      | ((with_reducible apply Mod.sameBut_step (Mod.collProgress_sameBut _ _)); decide)
      | ((with_reducible apply Mod.sameBut_step (Mod.setOp_sameBut _ _ _)); decide)
      | split
      | ((with_reducible apply Mod.sameBut_foldl); intro x e)
      | ((with_reducible apply Mod.sameBut_foldl_fst); intro x e)
      | dsimp only

theorem Mod.scanWork_sameBut (m : Mod) (a1 : Nat) (a2 : StableRec) (a3 : Kernel) (a4 : Ecc) : Mod.sameBut [.regs, .evIn, .cores, .step, .mem, .dbg] m (Mod.scanWork m a1 a2 a3 a4) := by
  unfold Mod.scanWork
  repeat'
    first
      | with_reducible exact Mod.sameBut_refl _ _
      | with_reducible assumption
      | (extract_lets +onlyGivenNames y; first | (refine Mod.sameBut_cut y (fun hy => ?_) ?_; rotate_left; subst y; rotate_left; clear_value y) | (refine Mod.sameBut_cut_fst y (fun hy => ?_) ?_; rotate_left; subst y; rotate_left; clear_value y) | clear_value y)
      | ((with_reducible apply Mod.sameBut_step (Mod.kernelResult_sameBut _ _ _)); decide)
      | ((with_reducible apply Mod.sameBut_step (Mod.watchMerge_sameBut _ _ _ _ _)); decide)
      | ((with_reducible apply Mod.sameBut_step (Mod.yard_sameBut _ _ _ _ _)); decide)
      | split
      | dsimp only

theorem Mod.scatterWork_sameBut (m : Mod) (a1 : Nat) (a2 : Nat) (a3 : StableRec) (a4 : Kernel) (a5 : Ecc) : Mod.sameBut [.regs, .evIn, .sched, .cores, .step, .mem, .dbg] m (Mod.scatterWork m a1 a2 a3 a4 a5) := by
  unfold Mod.scatterWork
  repeat'
    first
      | with_reducible exact Mod.sameBut_refl _ _
      | with_reducible assumption
      | (extract_lets +onlyGivenNames y; first | (refine Mod.sameBut_cut y (fun hy => ?_) ?_; rotate_left; subst y; rotate_left; clear_value y) | (refine Mod.sameBut_cut_fst y (fun hy => ?_) ?_; rotate_left; subst y; rotate_left; clear_value y) | clear_value y)
      | ((with_reducible apply Mod.sameBut_step (Mod.opdRead_sameBut _ _ _ _ _ _ _ _)); decide)
      | ((with_reducible apply Mod.sameBut_step (Mod.opdWrite_sameBut _ _ _ _ _ _ _)); decide)
      | ((with_reducible apply Mod.sameBut_step (Mod.indexRange_sameBut _ _ _ _)); decide)
      | ((with_reducible apply Mod.sameBut_step (Mod.kernelResult_sameBut _ _ _)); decide)
      | split
      | ((with_reducible apply Mod.sameBut_foldl); intro x e)
      | ((with_reducible apply Mod.sameBut_foldl_fst); intro x e)
      | dsimp only

theorem Mod.sendPending_sameBut (m : Mod) : Mod.sameBut [.host] m (Mod.sendPending m) := by
  unfold Mod.sendPending
  repeat'
    first
      | with_reducible exact Mod.sameBut_refl _ _
      | with_reducible assumption
      | (extract_lets +onlyGivenNames y; first | (refine Mod.sameBut_cut y (fun hy => ?_) ?_; rotate_left; subst y; rotate_left; clear_value y) | (refine Mod.sameBut_cut_fst y (fun hy => ?_) ?_; rotate_left; subst y; rotate_left; clear_value y) | clear_value y)
      | ((with_reducible apply Mod.sameBut_step (Mod.emit_sameBut _ _)); decide)
      | split
      | ((with_reducible apply Mod.sameBut_foldl); intro x e)
      | ((with_reducible apply Mod.sameBut_foldl_fst); intro x e)
      | dsimp only
      | ((with_reducible apply Mod.sameBut_mk); rotate_left; all_goals (try (intro hp; first | exact (hp (by decide)).elim | rfl)))

theorem Mod.normFlags_sameBut (m : Mod) : Mod.sameBut [.regs] m (Mod.normFlags m) := by
  unfold Mod.normFlags
  repeat'
    first
      | with_reducible exact Mod.sameBut_refl _ _
      | with_reducible assumption
      | (extract_lets +onlyGivenNames y; first | (refine Mod.sameBut_cut y (fun hy => ?_) ?_; rotate_left; subst y; rotate_left; clear_value y) | (refine Mod.sameBut_cut_fst y (fun hy => ?_) ?_; rotate_left; subst y; rotate_left; clear_value y) | clear_value y)
      | ((with_reducible apply Mod.sameBut_step (Mod.groomFlags_sameBut _ _ _)); decide)
      | split
      | ((with_reducible apply Mod.sameBut_foldl); intro x e)
      | ((with_reducible apply Mod.sameBut_foldl_fst); intro x e)
      | dsimp only

theorem Mod.sendRecord_sameBut (m : Mod) : Mod.sameBut [.regs, .evIn, .step, .fab, .fresh] m (Mod.sendRecord m) := by
  unfold Mod.sendRecord
  repeat'
    first
      | with_reducible exact Mod.sameBut_refl _ _
      | with_reducible assumption
      | (extract_lets +onlyGivenNames y; first | (refine Mod.sameBut_cut y (fun hy => ?_) ?_; rotate_left; subst y; rotate_left; clear_value y) | (refine Mod.sameBut_cut_fst y (fun hy => ?_) ?_; rotate_left; subst y; rotate_left; clear_value y) | clear_value y)
      | ((with_reducible apply Mod.sameBut_step (Mod.normProgress_sameBut _)); decide)
      | ((with_reducible apply Mod.sameBut_step (Mod.normFlags_sameBut _)); decide)
      | split
      | dsimp only
      | ((with_reducible apply Mod.sameBut_mk); rotate_left; all_goals (try (intro hp; first | exact (hp (by decide)).elim | rfl)))

theorem Mod.shiftHist_sameBut (m : Mod) (a1 : Fld) (a2 : Nat) : Mod.sameBut [.regs] m (Mod.shiftHist m a1 a2) := by
  unfold Mod.shiftHist
  repeat'
    first
      | with_reducible exact Mod.sameBut_refl _ _
      | with_reducible assumption
      | (extract_lets +onlyGivenNames y; first | (refine Mod.sameBut_cut y (fun hy => ?_) ?_; rotate_left; subst y; rotate_left; clear_value y) | (refine Mod.sameBut_cut_fst y (fun hy => ?_) ?_; rotate_left; subst y; rotate_left; clear_value y) | clear_value y)
      | ((with_reducible apply Mod.sameBut_step (Mod.fset_sameBut _ _ _ _ _)); decide)
      | split
      | dsimp only

theorem Mod.sleepEnter_sameBut (m : Mod) : Mod.sameBut [.regs, .evIn, .pwr, .step, .fab, .dbg] m (Mod.sleepEnter m) := by
  unfold Mod.sleepEnter
  repeat'
    first
      | with_reducible exact Mod.sameBut_refl _ _
      | with_reducible assumption
      | (extract_lets +onlyGivenNames y; first | (refine Mod.sameBut_cut y (fun hy => ?_) ?_; rotate_left; subst y; rotate_left; clear_value y) | (refine Mod.sameBut_cut_fst y (fun hy => ?_) ?_; rotate_left; subst y; rotate_left; clear_value y) | clear_value y)
      | ((with_reducible apply Mod.sameBut_step (Mod.fault_sameBut _ _)); decide)
      | ((with_reducible apply Mod.sameBut_step (Mod.hbmTo_sameBut _ _ _)); decide)
      | ((with_reducible apply Mod.sameBut_step (Mod.portsPower_sameBut _)); decide)
      | split
      | dsimp only
      | ((with_reducible apply Mod.sameBut_mk); rotate_left; all_goals (try (intro hp; first | exact (hp (by decide)).elim | rfl)))

theorem Mod.sliceProcess_sameBut (m : Mod) (a1 : Nat) (a2 : Ecc) : Mod.sameBut [.regs, .evIn, .step, .mem, .pool, .groom] m (Mod.sliceProcess m a1 a2) := by
  unfold Mod.sliceProcess
  repeat'
    first
      | with_reducible exact Mod.sameBut_refl _ _
      | with_reducible assumption
      | (extract_lets +onlyGivenNames y; first | (refine Mod.sameBut_cut y (fun hy => ?_) ?_; rotate_left; subst y; rotate_left; clear_value y) | (refine Mod.sameBut_cut_fst y (fun hy => ?_) ?_; rotate_left; subst y; rotate_left; clear_value y) | clear_value y)
      | ((with_reducible apply Mod.sameBut_step (Mod.eccDev_sameBut _ _ _ _)); decide)
      | ((with_reducible apply Mod.sameBut_step (Mod.sliceWork_sameBut _ _ _ _ _ _ _)); decide)
      | ((with_reducible apply Mod.sameBut_step (Mod.sliceTaken_sameBut _ _ _ _)); decide)
      | ((with_reducible apply Mod.sameBut_step (Mod.passPoison_sameBut _ _ _)); decide)
      | split
      | dsimp only

theorem Mod.softRequest_sameBut (m : Mod) (a1 : Path) (a2 : Nat) (a3 : Boot) : Mod.sameBut [.regs, .evIn, .host, .pwr, .tick, .plt, .sched, .cores, .step, .mem, .pool, .pad, .stm, .groom, .coll, .chk, .fab, .sec, .dbg] m (Mod.softRequest m a1 a2 a3) := by
  unfold Mod.softRequest
  repeat'
    first
      | with_reducible exact Mod.sameBut_refl _ _
      | with_reducible assumption
      | (extract_lets +onlyGivenNames y; first | (refine Mod.sameBut_cut y (fun hy => ?_) ?_; rotate_left; subst y; rotate_left; clear_value y) | (refine Mod.sameBut_cut_fst y (fun hy => ?_) ?_; rotate_left; subst y; rotate_left; clear_value y) | clear_value y)
      | ((with_reducible apply Mod.sameBut_step (Mod.mgmtRefused_sameBut _ _ _)); decide)
      | ((with_reducible apply Mod.sameBut_step (Mod.softReset_sameBut _ _ _)); decide)
      | split
      | dsimp only

theorem Mod.stablesStart_sameBut (m : Mod) : Mod.sameBut [.sched] m (Mod.stablesStart m) := by
  unfold Mod.stablesStart
  repeat'
    first
      | with_reducible exact Mod.sameBut_refl _ _
      | with_reducible assumption
      | (extract_lets +onlyGivenNames y; first | (refine Mod.sameBut_cut y (fun hy => ?_) ?_; rotate_left; subst y; rotate_left; clear_value y) | (refine Mod.sameBut_cut_fst y (fun hy => ?_) ?_; rotate_left; subst y; rotate_left; clear_value y) | clear_value y)
      | split
      | dsimp only
      | ((with_reducible apply Mod.sameBut_mk); rotate_left; all_goals (try (intro hp; first | exact (hp (by decide)).elim | rfl)))

theorem Mod.stashTile_sameBut (m : Mod) (a1 : StreamDesc) (a2 : TileRun) (a3 : Ecc) : Mod.sameBut [.regs, .evIn, .sched, .cores, .step, .mem, .pool, .pad, .stm, .groom, .chk, .fab, .dbg] m (Mod.stashTile m a1 a2 a3) := by
  unfold Mod.stashTile
  repeat'
    first
      | with_reducible exact Mod.sameBut_refl _ _
      | with_reducible assumption
      | (extract_lets +onlyGivenNames y; first | (refine Mod.sameBut_cut y (fun hy => ?_) ?_; rotate_left; subst y; rotate_left; clear_value y) | (refine Mod.sameBut_cut_fst y (fun hy => ?_) ?_; rotate_left; subst y; rotate_left; clear_value y) | clear_value y)
      | ((with_reducible apply Mod.sameBut_step (Mod.tileDone_sameBut _ _ _)); decide)
      | ((with_reducible apply Mod.sameBut_step (Mod.sramErrors_sameBut _ _ _ _ _)); decide)
      | ((with_reducible apply Mod.sameBut_step (Mod.putRuns_sameBut _ _ _ _ _)); decide)
      | split
      | ((with_reducible apply Mod.sameBut_foldl); intro x e)
      | ((with_reducible apply Mod.sameBut_foldl_fst); intro x e)
      | dsimp only

theorem Mod.takeConsts_sameBut (m : Mod) : Mod.sameBut [.regs, .step] m (Mod.takeConsts m) := by
  unfold Mod.takeConsts
  repeat'
    first
      | with_reducible exact Mod.sameBut_refl _ _
      | with_reducible assumption
      | (extract_lets +onlyGivenNames y; first | (refine Mod.sameBut_cut y (fun hy => ?_) ?_; rotate_left; subst y; rotate_left; clear_value y) | (refine Mod.sameBut_cut_fst y (fun hy => ?_) ?_; rotate_left; subst y; rotate_left; clear_value y) | clear_value y)
      | ((with_reducible apply Mod.sameBut_step (Mod.fset_sameBut _ _ _ _ _)); decide)
      | split
      | ((with_reducible apply Mod.sameBut_foldl); intro x e)
      | ((with_reducible apply Mod.sameBut_foldl_fst); intro x e)
      | dsimp only
      | ((with_reducible apply Mod.sameBut_mk); rotate_left; all_goals (try (intro hp; first | exact (hp (by decide)).elim | rfl)))

theorem Mod.stmStepStart_sameBut (m : Mod) : Mod.sameBut [.stm] m (Mod.stmStepStart m) := by
  unfold Mod.stmStepStart
  repeat'
    first
      | with_reducible exact Mod.sameBut_refl _ _
      | with_reducible assumption
      | (extract_lets +onlyGivenNames y; first | (refine Mod.sameBut_cut y (fun hy => ?_) ?_; rotate_left; subst y; rotate_left; clear_value y) | (refine Mod.sameBut_cut_fst y (fun hy => ?_) ?_; rotate_left; subst y; rotate_left; clear_value y) | clear_value y)
      | ((with_reducible apply Mod.sameBut_step (Mod.setCtx_sameBut _ _ _)); decide)
      | split
      | ((with_reducible apply Mod.sameBut_foldl); intro x e)
      | ((with_reducible apply Mod.sameBut_foldl_fst); intro x e)
      | dsimp only

theorem Mod.unitsStart_sameBut (m : Mod) : Mod.sameBut [.pad, .stm, .groom, .coll, .chk, .fab] m (Mod.unitsStart m) := by
  unfold Mod.unitsStart
  repeat'
    first
      | with_reducible exact Mod.sameBut_refl _ _
      | with_reducible assumption
      | (extract_lets +onlyGivenNames y; first | (refine Mod.sameBut_cut y (fun hy => ?_) ?_; rotate_left; subst y; rotate_left; clear_value y) | (refine Mod.sameBut_cut_fst y (fun hy => ?_) ?_; rotate_left; subst y; rotate_left; clear_value y) | clear_value y)
      | ((with_reducible apply Mod.sameBut_step (Mod.stmStepStart_sameBut _)); decide)
      | ((with_reducible apply Mod.sameBut_step (Mod.collStart_sameBut _)); decide)
      | split
      | dsimp only
      | ((with_reducible apply Mod.sameBut_mk); rotate_left; all_goals (try (intro hp; first | exact (hp (by decide)).elim | rfl)))

theorem Mod.scalarFlags_sameBut (m : Mod) (a1 : Fl) : Mod.sameBut [.regs] m (Mod.scalarFlags m a1) := by
  unfold Mod.scalarFlags
  repeat'
    first
      | with_reducible exact Mod.sameBut_refl _ _
      | with_reducible assumption
      | (extract_lets +onlyGivenNames y; first | (refine Mod.sameBut_cut y (fun hy => ?_) ?_; rotate_left; subst y; rotate_left; clear_value y) | (refine Mod.sameBut_cut_fst y (fun hy => ?_) ?_; rotate_left; subst y; rotate_left; clear_value y) | clear_value y)
      | split
      | ((with_reducible apply Mod.sameBut_foldl); intro x e)
      | ((with_reducible apply Mod.sameBut_foldl_fst); intro x e)
      | dsimp only
      | ((with_reducible apply Mod.sameBut_mk); rotate_left; all_goals (try (intro hp; first | exact (hp (by decide)).elim | rfl)))

theorem Mod.stepBegin_sameBut (m : Mod) (a1 : Nat) (a2 : Option Nat) : Mod.sameBut [.regs, .evIn, .pwr, .sched, .step, .pad, .stm, .groom, .coll, .chk, .fab] m (Mod.stepBegin m a1 a2) := by
  unfold Mod.stepBegin
  repeat'
    first
      | with_reducible exact Mod.sameBut_refl _ _
      | with_reducible assumption
      | (extract_lets +onlyGivenNames y; first | (refine Mod.sameBut_cut y (fun hy => ?_) ?_; rotate_left; subst y; rotate_left; clear_value y) | (refine Mod.sameBut_cut_fst y (fun hy => ?_) ?_; rotate_left; subst y; rotate_left; clear_value y) | clear_value y)
      | ((with_reducible apply Mod.sameBut_step (Mod.shiftHist_sameBut _ _ _)); decide)
      | ((with_reducible apply Mod.sameBut_step (Mod.fset_sameBut _ _ _ _ _)); decide)
      | ((with_reducible apply Mod.sameBut_step (Mod.takeConsts_sameBut _)); decide)
      | ((with_reducible apply Mod.sameBut_step (Mod.scalarFlags_sameBut _ _)); decide)
      | ((with_reducible apply Mod.sameBut_step (Mod.fencedRaise_sameBut _)); decide)
      | ((with_reducible apply Mod.sameBut_step (Mod.stablesStart_sameBut _)); decide)
      | ((with_reducible apply Mod.sameBut_step (Mod.unitsStart_sameBut _)); decide)
      | split
      | dsimp only
      | ((with_reducible apply Mod.sameBut_mk); rotate_left; all_goals (try (intro hp; first | exact (hp (by decide)).elim | rfl)))

theorem Mod.stepRefused_sameBut (m : Mod) (a1 : Nat) (a2 : Nat) : Mod.sameBut [.regs, .evIn, .host, .step] m (Mod.stepRefused m a1 a2) := by
  unfold Mod.stepRefused
  repeat'
    first
      | with_reducible exact Mod.sameBut_refl _ _
      | with_reducible assumption
      | (extract_lets +onlyGivenNames y; first | (refine Mod.sameBut_cut y (fun hy => ?_) ?_; rotate_left; subst y; rotate_left; clear_value y) | (refine Mod.sameBut_cut_fst y (fun hy => ?_) ?_; rotate_left; subst y; rotate_left; clear_value y) | clear_value y)
      | ((with_reducible apply Mod.sameBut_step (Mod.msix_sameBut _ _)); decide)
      | ((with_reducible apply Mod.sameBut_step (Mod.raise_sameBut _ _ _ _ _ _ _)); decide)
      | ((with_reducible apply Mod.sameBut_step (Mod.fset_sameBut _ _ _ _ _)); decide)
      | split
      | dsimp only
      | ((with_reducible apply Mod.sameBut_mk); rotate_left; all_goals (try (intro hp; first | exact (hp (by decide)).elim | rfl)))

theorem Mod.stopPlate_sameBut (m : Mod) : Mod.sameBut [.regs, .evIn, .host, .sched, .cores, .step, .mem, .stm, .groom, .coll, .chk, .fab, .dbg] m (Mod.stopPlate m) := by
  unfold Mod.stopPlate
  repeat'
    first
      | with_reducible exact Mod.sameBut_refl _ _
      | with_reducible assumption
      | (extract_lets +onlyGivenNames y; first | (refine Mod.sameBut_cut y (fun hy => ?_) ?_; rotate_left; subst y; rotate_left; clear_value y) | (refine Mod.sameBut_cut_fst y (fun hy => ?_) ?_; rotate_left; subst y; rotate_left; clear_value y) | clear_value y)
      | ((with_reducible apply Mod.sameBut_step (Mod.loftDueAll_sameBut _)); decide)
      | ((with_reducible apply Mod.sameBut_step (Mod.portsActivate_sameBut _ _)); decide)
      | ((with_reducible apply Mod.sameBut_step (Mod.snoopAbandonAll_sameBut _)); decide)
      | split
      | dsimp only
      | ((with_reducible apply Mod.sameBut_mk); rotate_left; all_goals (try (intro hp; first | exact (hp (by decide)).elim | rfl)))

theorem Mod.takeLinkHeader_sameBut (m : Mod) (a1 : Nat) (a2 : FlitIn) : Mod.sameBut [.regs, .evIn, .fab, .dbg] m (Mod.takeLinkHeader m a1 a2) := by
  unfold Mod.takeLinkHeader
  repeat'
    first
      | with_reducible exact Mod.sameBut_refl _ _
      | with_reducible assumption
      | (extract_lets +onlyGivenNames y; first | (refine Mod.sameBut_cut y (fun hy => ?_) ?_; rotate_left; subst y; rotate_left; clear_value y) | (refine Mod.sameBut_cut_fst y (fun hy => ?_) ?_; rotate_left; subst y; rotate_left; clear_value y) | clear_value y)
      | ((with_reducible apply Mod.sameBut_step (Mod.setPort_sameBut _ _ _)); decide)
      | ((with_reducible apply Mod.sameBut_step (Mod.retryRound_sameBut _ _)); decide)
      | split
      | ((with_reducible apply Mod.sameBut_foldl); intro x e)
      | ((with_reducible apply Mod.sameBut_foldl_fst); intro x e)
      | dsimp only

theorem Mod.transit_sameBut (m : Mod) (a1 : Nat) (a2 : TFlit) : Mod.sameBut [.regs, .evIn, .fab] m (Mod.transit m a1 a2) := by
  unfold Mod.transit
  repeat'
    first
      | with_reducible exact Mod.sameBut_refl _ _
      | with_reducible assumption
      | (extract_lets +onlyGivenNames y; first | (refine Mod.sameBut_cut y (fun hy => ?_) ?_; rotate_left; subst y; rotate_left; clear_value y) | (refine Mod.sameBut_cut_fst y (fun hy => ?_) ?_; rotate_left; subst y; rotate_left; clear_value y) | clear_value y)
      | ((with_reducible apply Mod.sameBut_step (Mod.fsat_sameBut _ _ _ _ _)); decide)
      | ((with_reducible apply Mod.sameBut_step (Mod.raise_sameBut _ _ _ _ _ _ _)); decide)
      | ((with_reducible apply Mod.sameBut_step (Mod.place_sameBut _ _ _)); decide)
      | split
      | dsimp only
      | ((with_reducible apply Mod.sameBut_mk); rotate_left; all_goals (try (intro hp; first | exact (hp (by decide)).elim | rfl)))

theorem Mod.takePayload_sameBut (m : Mod) (a1 : Nat) (a2 : FlitIn) : Mod.sameBut [.regs, .evIn, .fab] m (Mod.takePayload m a1 a2) := by
  unfold Mod.takePayload
  repeat'
    first
      | with_reducible exact Mod.sameBut_refl _ _
      | with_reducible assumption
      | (extract_lets +onlyGivenNames y; first | (refine Mod.sameBut_cut y (fun hy => ?_) ?_; rotate_left; subst y; rotate_left; clear_value y) | (refine Mod.sameBut_cut_fst y (fun hy => ?_) ?_; rotate_left; subst y; rotate_left; clear_value y) | clear_value y)
      | ((with_reducible apply Mod.sameBut_step (Mod.setPort_sameBut _ _ _)); decide)
      | ((with_reducible apply Mod.sameBut_step (Mod.deliver_sameBut _ _ _)); decide)
      | ((with_reducible apply Mod.sameBut_step (Mod.freeEntry_sameBut _ _ _)); decide)
      | ((with_reducible apply Mod.sameBut_step (Mod.transit_sameBut _ _ _)); decide)
      | split
      | dsimp only

theorem Mod.takeTest_sameBut (m : Mod) (a1 : Nat) (a2 : FlitIn) : Mod.sameBut [.regs] m (Mod.takeTest m a1 a2) := by
  unfold Mod.takeTest
  repeat'
    first
      | with_reducible exact Mod.sameBut_refl _ _
      | with_reducible assumption
      | (extract_lets +onlyGivenNames y; first | (refine Mod.sameBut_cut y (fun hy => ?_) ?_; rotate_left; subst y; rotate_left; clear_value y) | (refine Mod.sameBut_cut_fst y (fun hy => ?_) ?_; rotate_left; subst y; rotate_left; clear_value y) | clear_value y)
      | ((with_reducible apply Mod.sameBut_step (Mod.fsat_sameBut _ _ _ _ _)); decide)
      | split
      | dsimp only

theorem Mod.tapShift_sameBut (m : Mod) (a1 : Nat) (a2 : Nat) : Mod.sameBut [.host, .dbg] m (Mod.tapShift m a1 a2) := by
  unfold Mod.tapShift
  repeat'
    first
      | with_reducible exact Mod.sameBut_refl _ _
      | with_reducible assumption
      | (extract_lets +onlyGivenNames y; first | (refine Mod.sameBut_cut y (fun hy => ?_) ?_; rotate_left; subst y; rotate_left; clear_value y) | (refine Mod.sameBut_cut_fst y (fun hy => ?_) ?_; rotate_left; subst y; rotate_left; clear_value y) | clear_value y)
      | ((with_reducible apply Mod.sameBut_step (Mod.emit_sameBut _ _)); decide)
      | split
      | dsimp only
      | ((with_reducible apply Mod.sameBut_mk); rotate_left; all_goals (try (intro hp; first | exact (hp (by decide)).elim | rfl)))

theorem Mod.tapSample_sameBut (m : Mod) (a1 : Nat) : Mod.sameBut [.host, .dbg, .fresh] m (Mod.tapSample m a1) := by
  unfold Mod.tapSample
  repeat'
    first
      | with_reducible exact Mod.sameBut_refl _ _
      | with_reducible assumption
      | (extract_lets +onlyGivenNames y; first | (refine Mod.sameBut_cut y (fun hy => ?_) ?_; rotate_left; subst y; rotate_left; clear_value y) | (refine Mod.sameBut_cut_fst y (fun hy => ?_) ?_; rotate_left; subst y; rotate_left; clear_value y) | clear_value y)
      | ((with_reducible apply Mod.sameBut_step (Mod.tapShift_sameBut _ _ _)); decide)
      | split
      | dsimp only
      | ((with_reducible apply Mod.sameBut_mk); rotate_left; all_goals (try (intro hp; first | exact (hp (by decide)).elim | rfl)))

theorem Mod.throttleCheck_sameBut (m : Mod) (a1 : Nat) (a2 : Int) : Mod.sameBut [.regs, .evIn, .pwr] m (Mod.throttleCheck m a1 a2) := by
  unfold Mod.throttleCheck
  repeat'
    first
      | with_reducible exact Mod.sameBut_refl _ _
      | with_reducible assumption
      | (extract_lets +onlyGivenNames y; first | (refine Mod.sameBut_cut y (fun hy => ?_) ?_; rotate_left; subst y; rotate_left; clear_value y) | (refine Mod.sameBut_cut_fst y (fun hy => ?_) ?_; rotate_left; subst y; rotate_left; clear_value y) | clear_value y)
      | ((with_reducible apply Mod.sameBut_step (Mod.raise_sameBut _ _ _ _ _ _ _)); decide)
      | ((with_reducible apply Mod.sameBut_step (Mod.fset_sameBut _ _ _ _ _)); decide)
      | split
      | dsimp only
      | ((with_reducible apply Mod.sameBut_mk); rotate_left; all_goals (try (intro hp; first | exact (hp (by decide)).elim | rfl)))

theorem Mod.tileAsk_sameBut (m : Mod) (a1 : StreamDesc) (a2 : TileRun) : Mod.sameBut [.regs, .evIn, .mem, .pool, .fab] m (Mod.tileAsk m a1 a2).1 := by
  unfold Mod.tileAsk
  repeat'
    first
      | with_reducible exact Mod.sameBut_refl _ _
      | with_reducible assumption
      | (extract_lets +onlyGivenNames y; first | (refine Mod.sameBut_cut y (fun hy => ?_) ?_; rotate_left; subst y; rotate_left; clear_value y) | (refine Mod.sameBut_cut_fst y (fun hy => ?_) ?_; rotate_left; subst y; rotate_left; clear_value y) | clear_value y)
      | ((with_reducible apply Mod.sameBut_step (Mod.fetchAsk_sameBut _ _ _ _ _)); decide)
      | split
      | dsimp only

theorem Mod.unstashTile_sameBut (m : Mod) (a1 : StreamDesc) (a2 : TileRun) (a3 : Ecc) : Mod.sameBut [.regs, .evIn, .sched, .cores, .step, .mem, .pool, .pad, .stm, .groom, .chk, .fab, .dbg] m (Mod.unstashTile m a1 a2 a3) := by
  unfold Mod.unstashTile
  repeat'
    first
      | with_reducible exact Mod.sameBut_refl _ _
      | with_reducible assumption
      | (extract_lets +onlyGivenNames y; first | (refine Mod.sameBut_cut y (fun hy => ?_) ?_; rotate_left; subst y; rotate_left; clear_value y) | (refine Mod.sameBut_cut_fst y (fun hy => ?_) ?_; rotate_left; subst y; rotate_left; clear_value y) | clear_value y)
      | ((with_reducible apply Mod.sameBut_step (Mod.yard_sameBut _ _ _ _ _)); decide)
      | ((with_reducible apply Mod.sameBut_step (Mod.readDev_sameBut _ _ _ _)); decide)
      | ((with_reducible apply Mod.sameBut_step (Mod.snoop_sameBut _ _ _)); decide)
      | ((with_reducible apply Mod.sameBut_step (Mod.fillRanks_sameBut _ _ _ _ _)); decide)
      | ((with_reducible apply Mod.sameBut_step (Mod.tileDone_sameBut _ _ _)); decide)
      | split
      | ((with_reducible apply Mod.sameBut_foldl); intro x e)
      | ((with_reducible apply Mod.sameBut_foldl_fst); intro x e)
      | dsimp only

theorem Mod.walkPut_sameBut (m : Mod) (a1 : StreamDesc) (a2 : Nat) (a3 : List Byte) : Mod.sameBut [.mem, .chk] m (Mod.walkPut m a1 a2 a3) := by
  unfold Mod.walkPut
  repeat'
    first
      | with_reducible exact Mod.sameBut_refl _ _
      | with_reducible assumption
      | (extract_lets +onlyGivenNames y; first | (refine Mod.sameBut_cut y (fun hy => ?_) ?_; rotate_left; subst y; rotate_left; clear_value y) | (refine Mod.sameBut_cut_fst y (fun hy => ?_) ?_; rotate_left; subst y; rotate_left; clear_value y) | clear_value y)
      | ((with_reducible apply Mod.sameBut_step (Mod.snoop_sameBut _ _ _)); decide)
      | ((with_reducible apply Mod.sameBut_step (Mod.sramFill_sameBut _ _ _ _)); decide)
      | split
      | dsimp only

theorem Mod.walkSlot_sameBut (m : Mod) (a1 : StreamDesc) (a2 : List Byte) (a3 : Nat) (a4 : Prod Nat (Prod Nat Nat)) (a5 : Ecc) : Mod.sameBut [.regs, .evIn, .step, .mem, .chk] m (Mod.walkSlot m a1 a2 a3 a4 a5).1 := by
  unfold Mod.walkSlot
  repeat'
    first
      | with_reducible exact Mod.sameBut_refl _ _
      | with_reducible assumption
      | (extract_lets +onlyGivenNames y; first | (refine Mod.sameBut_cut y (fun hy => ?_) ?_; rotate_left; subst y; rotate_left; clear_value y) | (refine Mod.sameBut_cut_fst y (fun hy => ?_) ?_; rotate_left; subst y; rotate_left; clear_value y) | clear_value y)
      | ((with_reducible apply Mod.sameBut_step (Mod.unitRead_sameBut _ _ _ _ _)); decide)
      | ((with_reducible apply Mod.sameBut_step (Mod.walkPut_sameBut _ _ _ _)); decide)
      | split
      | dsimp only

theorem Mod.walkSlots_sameBut (a0 : StreamDesc) (a1 : List Byte) (a2 : Nat) (a3 : Ecc) (a4 : Nat) (a5 : Nat) (a6 : List (Prod Nat (Prod Nat Nat))) (m : Mod) (a8 : Option (Prod Nat Nat)) : Mod.sameBut [.regs, .evIn, .step, .mem, .chk] m (Mod.walkSlots a0 a1 a2 a3 a4 a5 a6 m a8).1 := by
  induction a4 generalizing a5 a6 m a8 with
  | zero => exact Mod.sameBut_refl _ _
  | succ k ih =>
    unfold Mod.walkSlots
    split
    · refine Mod.sameBut_trans ?_ (ih _ _ _ _)
      exact Mod.sameBut_mono (Mod.walkPut_sameBut _ _ _ _) (by decide)
    · refine Mod.sameBut_trans ?_ (ih _ _ _ _)
      exact Mod.sameBut_mono (Mod.walkSlot_sameBut _ _ _ _ _ _) (by decide)

theorem Mod.walkBad_sameBut (m : Mod) (a1 : StreamDesc) (a2 : List Nat) : Mod.sameBut [.mem, .chk] m (Mod.walkBad m a1 a2) := by
  unfold Mod.walkBad
  repeat'
    first
      | with_reducible exact Mod.sameBut_refl _ _
      | with_reducible assumption
      | (extract_lets +onlyGivenNames y; first | (refine Mod.sameBut_cut y (fun hy => ?_) ?_; rotate_left; subst y; rotate_left; clear_value y) | (refine Mod.sameBut_cut_fst y (fun hy => ?_) ?_; rotate_left; subst y; rotate_left; clear_value y) | clear_value y)
      | ((with_reducible apply Mod.sameBut_step (Mod.walkPut_sameBut _ _ _ _)); decide)
      | split
      | ((with_reducible apply Mod.sameBut_foldl); intro x e)
      | ((with_reducible apply Mod.sameBut_foldl_fst); intro x e)
      | dsimp only

theorem Mod.walkTile_sameBut (m : Mod) (a1 : StreamDesc) (a2 : TileRun) (a3 : Ecc) : Mod.sameBut [.regs, .evIn, .sched, .step, .mem, .pool, .pad, .stm, .groom, .chk, .fab] m (Mod.walkTile m a1 a2 a3) := by
  unfold Mod.walkTile
  repeat'
    first
      | with_reducible exact Mod.sameBut_refl _ _
      | with_reducible assumption
      | (extract_lets +onlyGivenNames y; first | (refine Mod.sameBut_cut y (fun hy => ?_) ?_; rotate_left; subst y; rotate_left; clear_value y) | (refine Mod.sameBut_cut_fst y (fun hy => ?_) ?_; rotate_left; subst y; rotate_left; clear_value y) | clear_value y)
      | ((with_reducible apply Mod.sameBut_step (Mod.tileDone_sameBut _ _ _)); decide)
      | ((with_reducible apply Mod.sameBut_step (Mod.walkPut_sameBut _ _ _ _)); decide)
      | ((with_reducible apply Mod.sameBut_step (Mod.walkBad_sameBut _ _ _)); decide)
      | ((with_reducible apply Mod.sameBut_step (Mod.unitRead_sameBut _ _ _ _ _)); decide)
      | ((with_reducible apply Mod.sameBut_step (Mod.walkSlots_sameBut _ _ _ _ _ _ _ _ _)); decide)
      | ((with_reducible apply Mod.sameBut_step (Mod.raise_sameBut _ _ _ _ _ _ _)); decide)
      | ((with_reducible apply Mod.sameBut_step (Mod.fset_sameBut _ _ _ _ _)); decide)
      | split
      | dsimp only

theorem Mod.setRun_sameBut (m : Mod) (a1 : StreamDesc) (a2 : TileRun) : Mod.sameBut [.stm] m (Mod.setRun m a1 a2) := by
  unfold Mod.setRun
  repeat'
    first
      | with_reducible exact Mod.sameBut_refl _ _
      | with_reducible assumption
      | (extract_lets +onlyGivenNames y; first | (refine Mod.sameBut_cut y (fun hy => ?_) ?_; rotate_left; subst y; rotate_left; clear_value y) | (refine Mod.sameBut_cut_fst y (fun hy => ?_) ?_; rotate_left; subst y; rotate_left; clear_value y) | clear_value y)
      | ((with_reducible apply Mod.sameBut_step (Mod.setCtx_sameBut _ _ _)); decide)
      | split
      | dsimp only

theorem Mod.engineFetch_sameBut (m : Mod) (a1 : Nat) (a2 : Ecc) : Mod.sameBut [.regs, .evIn, .cores, .step, .mem, .pool, .stm, .fab, .dbg] m (Mod.engineFetch m a1 a2) := by
  unfold Mod.engineFetch
  repeat'
    first
      | with_reducible exact Mod.sameBut_refl _ _
      | with_reducible assumption
      | (extract_lets +onlyGivenNames y; first | (refine Mod.sameBut_cut y (fun hy => ?_) ?_; rotate_left; subst y; rotate_left; clear_value y) | (refine Mod.sameBut_cut_fst y (fun hy => ?_) ?_; rotate_left; subst y; rotate_left; clear_value y) | clear_value y)
      | ((with_reducible apply Mod.sameBut_step (Mod.etchFetch_sameBut _ _ _ _ _)); decide)
      | ((with_reducible apply Mod.sameBut_step (Mod.setRun_sameBut _ _ _)); decide)
      | split
      | ((with_reducible apply Mod.sameBut_foldl); intro x e)
      | ((with_reducible apply Mod.sameBut_foldl_fst); intro x e)
      | dsimp only

theorem Mod.tileDeliver_sameBut (m : Mod) (a1 : StreamDesc) (a2 : Ecc) : Mod.sameBut [.regs, .evIn, .sched, .cores, .step, .mem, .pool, .pad, .stm, .groom, .chk, .fab, .dbg] m (Mod.tileDeliver m a1 a2) := by
  unfold Mod.tileDeliver
  repeat'
    first
      | with_reducible exact Mod.sameBut_refl _ _
      | with_reducible assumption
      | (extract_lets +onlyGivenNames y; first | (refine Mod.sameBut_cut y (fun hy => ?_) ?_; rotate_left; subst y; rotate_left; clear_value y) | (refine Mod.sameBut_cut_fst y (fun hy => ?_) ?_; rotate_left; subst y; rotate_left; clear_value y) | clear_value y)
      | ((with_reducible apply Mod.sameBut_step (Mod.engineFetch_sameBut _ _ _)); decide)
      | ((with_reducible apply Mod.sameBut_step (Mod.tileDone_sameBut _ _ _)); decide)
      | ((with_reducible apply Mod.sameBut_step (Mod.moveTile_sameBut _ _ _ _)); decide)
      | ((with_reducible apply Mod.sameBut_step (Mod.stashTile_sameBut _ _ _ _)); decide)
      | ((with_reducible apply Mod.sameBut_step (Mod.unstashTile_sameBut _ _ _ _)); decide)
      | ((with_reducible apply Mod.sameBut_step (Mod.walkTile_sameBut _ _ _ _)); decide)
      | split
      | dsimp only

theorem Mod.walkStart_sameBut (m : Mod) (a1 : StreamDesc) (a2 : Ecc) : Mod.sameBut [.regs, .evIn, .step, .mem, .stm] m (Mod.walkStart m a1 a2) := by
  unfold Mod.walkStart
  repeat'
    first
      | with_reducible exact Mod.sameBut_refl _ _
      | with_reducible assumption
      | (extract_lets +onlyGivenNames y; first | (refine Mod.sameBut_cut y (fun hy => ?_) ?_; rotate_left; subst y; rotate_left; clear_value y) | (refine Mod.sameBut_cut_fst y (fun hy => ?_) ?_; rotate_left; subst y; rotate_left; clear_value y) | subst y)
      | ((with_reducible apply Mod.sameBut_step (Mod.unitRead_sameBut _ _ _ _ _)); decide)
      | ((with_reducible apply Mod.sameBut_step (Mod.setCtx_sameBut _ _ _)); decide)
      | ((with_reducible apply Mod.sameBut_step (Mod.raiseStep_sameBut _ _ _ _ _ _)); decide)
      | ((with_reducible apply Mod.sameBut_step (Mod.fset_sameBut _ _ _ _ _)); decide)
      | ((with_reducible apply Mod.sameBut_step (Mod.raise_sameBut _ _ _ _ _ _ _)); decide)
      | split
      | dsimp only

theorem Mod.tileStart_sameBut (m : Mod) (a1 : StreamDesc) (a2 : Ecc) : Mod.sameBut [.regs, .evIn, .cores, .step, .mem, .pool, .pad, .stm, .fab, .dbg] m (Mod.tileStart m a1 a2) := by
  unfold Mod.tileStart
  repeat'
    first
      | with_reducible exact Mod.sameBut_refl _ _
      | with_reducible assumption
      | (extract_lets +onlyGivenNames y; first | (refine Mod.sameBut_cut y (fun hy => ?_) ?_; rotate_left; subst y; rotate_left; clear_value y) | (refine Mod.sameBut_cut_fst y (fun hy => ?_) ?_; rotate_left; subst y; rotate_left; clear_value y) | clear_value y)
      | ((with_reducible apply Mod.sameBut_step (Mod.setWin_sameBut _ _ _)); decide)
      | ((with_reducible apply Mod.sameBut_step (Mod.walkStart_sameBut _ _ _)); decide)
      | ((with_reducible apply Mod.sameBut_step (Mod.setInst_sameBut _ _ _)); decide)
      | ((with_reducible apply Mod.sameBut_step (Mod.tileAsk_sameBut _ _ _)); decide)
      | ((with_reducible apply Mod.sameBut_step (Mod.gates_sameBut _)); decide)
      | ((with_reducible apply Mod.sameBut_step (Mod.engineFetch_sameBut _ _ _)); decide)
      | ((with_reducible apply Mod.sameBut_step (Mod.setCtx_sameBut _ _ _)); decide)
      | split
      | dsimp only

theorem Mod.verdictEvent_sameBut (m : Mod) (a1 : VerdictRec) : Mod.sameBut [.evIn] m (Mod.verdictEvent m a1) := by
  unfold Mod.verdictEvent
  repeat'
    first
      | with_reducible exact Mod.sameBut_refl _ _
      | with_reducible assumption
      | (extract_lets +onlyGivenNames y; first | (refine Mod.sameBut_cut y (fun hy => ?_) ?_; rotate_left; subst y; rotate_left; clear_value y) | (refine Mod.sameBut_cut_fst y (fun hy => ?_) ?_; rotate_left; subst y; rotate_left; clear_value y) | clear_value y)
      | ((with_reducible apply Mod.sameBut_step (Mod.raise_sameBut _ _ _ _ _ _ _)); decide)
      | split
      | dsimp only

theorem Mod.verdictSeen_sameBut (m : Mod) (a1 : VerdictRec) : Mod.sameBut [.regs] m (Mod.verdictSeen m a1) := by
  unfold Mod.verdictSeen
  repeat'
    first
      | with_reducible exact Mod.sameBut_refl _ _
      | with_reducible assumption
      | (extract_lets +onlyGivenNames y; first | (refine Mod.sameBut_cut y (fun hy => ?_) ?_; rotate_left; subst y; rotate_left; clear_value y) | (refine Mod.sameBut_cut_fst y (fun hy => ?_) ?_; rotate_left; subst y; rotate_left; clear_value y) | clear_value y)
      | ((with_reducible apply Mod.sameBut_step (Mod.fsat_sameBut _ _ _ _ _)); decide)
      | ((with_reducible apply Mod.sameBut_step (Mod.set64_sameBut _ _ _ _ _)); decide)
      | split
      | dsimp only

theorem Mod.verdictVector_sameBut (m : Mod) : Mod.sameBut [.host] m (Mod.verdictVector m) := by
  unfold Mod.verdictVector
  repeat'
    first
      | with_reducible exact Mod.sameBut_refl _ _
      | with_reducible assumption
      | (extract_lets +onlyGivenNames y; first | (refine Mod.sameBut_cut y (fun hy => ?_) ?_; rotate_left; subst y; rotate_left; clear_value y) | (refine Mod.sameBut_cut_fst y (fun hy => ?_) ?_; rotate_left; subst y; rotate_left; clear_value y) | clear_value y)
      | split
      | dsimp only
      | ((with_reducible apply Mod.sameBut_mk); rotate_left; all_goals (try (intro hp; first | exact (hp (by decide)).elim | rfl)))

theorem Mod.verdictActions_sameBut (m : Mod) (a1 : Ecc) : Mod.sameBut [.regs, .evIn, .host, .tick, .plt, .sched, .step, .mem, .pool, .pad, .stm, .groom, .coll, .chk, .fab, .dbg] m (Mod.verdictActions m a1) := by
  unfold Mod.verdictActions
  repeat'
    first
      | with_reducible exact Mod.sameBut_refl _ _
      | with_reducible assumption
      | (extract_lets +onlyGivenNames y; first | (refine Mod.sameBut_cut y (fun hy => ?_) ?_; rotate_left; subst y; rotate_left; clear_value y) | (refine Mod.sameBut_cut_fst y (fun hy => ?_) ?_; rotate_left; subst y; rotate_left; clear_value y) | clear_value y)
      | ((with_reducible apply Mod.sameBut_step (Mod.verdictSeen_sameBut _ _)); decide)
      | ((with_reducible apply Mod.sameBut_step (Mod.finalActions_sameBut _ _ _)); decide)
      | ((with_reducible apply Mod.sameBut_step (Mod.trace_sameBut _ _ _ _ _ _ _)); decide)
      | ((with_reducible apply Mod.sameBut_step (Mod.verdictVector_sameBut _)); decide)
      | ((with_reducible apply Mod.sameBut_step (Mod.verdictEvent_sameBut _ _)); decide)
      | split
      | dsimp only
      | ((with_reducible apply Mod.sameBut_mk); rotate_left; all_goals (try (intro hp; first | exact (hp (by decide)).elim | rfl)))

theorem Mod.accForget_sameBut (m : Mod) (a1 : Nat) : Mod.sameBut [.mem] m (Mod.accForget m a1) := by
  unfold Mod.accForget
  repeat'
    first
      | with_reducible exact Mod.sameBut_refl _ _
      | with_reducible assumption
      | (extract_lets +onlyGivenNames y; first | (refine Mod.sameBut_cut y (fun hy => ?_) ?_; rotate_left; subst y; rotate_left; clear_value y) | (refine Mod.sameBut_cut_fst y (fun hy => ?_) ?_; rotate_left; subst y; rotate_left; clear_value y) | clear_value y)
      | split
      | dsimp only
      | ((with_reducible apply Mod.sameBut_mk); rotate_left; all_goals (try (intro hp; first | exact (hp (by decide)).elim | rfl)))

theorem Mod.accPut_sameBut (m : Mod) (a1 : Nat) (a2 : List (Prod Nat Byte)) : Mod.sameBut [.mem] m (Mod.accPut m a1 a2) := by
  unfold Mod.accPut
  repeat'
    first
      | with_reducible exact Mod.sameBut_refl _ _
      | with_reducible assumption
      | (extract_lets +onlyGivenNames y; first | (refine Mod.sameBut_cut y (fun hy => ?_) ?_; rotate_left; subst y; rotate_left; clear_value y) | (refine Mod.sameBut_cut_fst y (fun hy => ?_) ?_; rotate_left; subst y; rotate_left; clear_value y) | clear_value y)
      | split
      | ((with_reducible apply Mod.sameBut_foldl); intro x e)
      | ((with_reducible apply Mod.sameBut_foldl_fst); intro x e)
      | dsimp only
      | ((with_reducible apply Mod.sameBut_mk); rotate_left; all_goals (try (intro hp; first | exact (hp (by decide)).elim | rfl)))

theorem Mod.aerRecord_sameBut (m : Mod) (a1 : TlpBad) : Mod.sameBut [.host] m (Mod.aerRecord m a1) := by
  unfold Mod.aerRecord
  repeat'
    first
      | with_reducible exact Mod.sameBut_refl _ _
      | with_reducible assumption
      | (extract_lets +onlyGivenNames y; first | (refine Mod.sameBut_cut y (fun hy => ?_) ?_; rotate_left; subst y; rotate_left; clear_value y) | (refine Mod.sameBut_cut_fst y (fun hy => ?_) ?_; rotate_left; subst y; rotate_left; clear_value y) | clear_value y)
      | split
      | dsimp only
      | ((with_reducible apply Mod.sameBut_mk); rotate_left; all_goals (try (intro hp; first | exact (hp (by decide)).elim | rfl)))

theorem Mod.attnKernel_sameBut (m : Mod) (a1 : Nat) (a2 : Nat) (a3 : Ecc) (a4 : SramRead → Kernel → KEnv → AResult) : Mod.sameBut [.regs, .evIn, .sched, .cores, .step, .mem] m (Mod.attnKernel m a1 a2 a3 a4) := by
  unfold Mod.attnKernel
  repeat'
    first
      | with_reducible exact Mod.sameBut_refl _ _
      | with_reducible assumption
      | (extract_lets +onlyGivenNames y; first | (refine Mod.sameBut_cut y (fun hy => ?_) ?_; rotate_left; subst y; rotate_left; clear_value y) | (refine Mod.sameBut_cut_fst y (fun hy => ?_) ?_; rotate_left; subst y; rotate_left; clear_value y) | clear_value y)
      | unfold Mod.kernelOn
      | ((with_reducible apply Mod.sameBut_step (Mod.accForget_sameBut _ _)); decide)
      | ((with_reducible apply Mod.sameBut_step (Mod.attnResult_sameBut _ _ _ _)); decide)
      | ((with_reducible apply Mod.sameBut_step (Mod.sramErrors_sameBut _ _ _ _ _)); decide)
      | ((with_reducible apply Mod.sameBut_step (Mod.workDone_sameBut _ _)); decide)
      | split
      | dsimp only

theorem Mod.inputSample_sameBut (m : Mod) (a1 : Nat) (a2 : Nat) : Mod.sameBut [.regs] m (Mod.inputSample m a1 a2) := by
  unfold Mod.inputSample
  repeat'
    first
      | with_reducible exact Mod.sameBut_refl _ _
      | with_reducible assumption
      | (extract_lets +onlyGivenNames y; first | (refine Mod.sameBut_cut y (fun hy => ?_) ?_; rotate_left; subst y; rotate_left; clear_value y) | (refine Mod.sameBut_cut_fst y (fun hy => ?_) ?_; rotate_left; subst y; rotate_left; clear_value y) | clear_value y)
      | ((with_reducible apply Mod.sameBut_step (Mod.fset_sameBut _ _ _ _ _)); decide)
      | split
      | dsimp only

theorem Mod.linkDown_sameBut (m : Mod) (a1 : Nat) (a2 : Nat) (a3 : List LoftReq) : Mod.sameBut [.regs, .evIn, .mem] m (Mod.linkDown m a1 a2 a3) := by
  unfold Mod.linkDown
  repeat'
    first
      | with_reducible exact Mod.sameBut_refl _ _
      | with_reducible assumption
      | (extract_lets +onlyGivenNames y; first | (refine Mod.sameBut_cut y (fun hy => ?_) ?_; rotate_left; subst y; rotate_left; clear_value y) | (refine Mod.sameBut_cut_fst y (fun hy => ?_) ?_; rotate_left; subst y; rotate_left; clear_value y) | clear_value y)
      | ((with_reducible apply Mod.sameBut_step (Mod.fset_sameBut _ _ _ _ _)); decide)
      | ((with_reducible apply Mod.sameBut_step (Mod.setLoftPort_sameBut _ _ _)); decide)
      | ((with_reducible apply Mod.sameBut_step (Mod.raise_sameBut _ _ _ _ _ _ _)); decide)
      | split
      | dsimp only

theorem Mod.matKernel_sameBut (m : Mod) (a1 : Nat) (a2 : KOp) (a3 : Ecc) (a4 : SramRead → Kernel → KEnv → MatForm) : Mod.sameBut [.regs, .evIn, .sched, .cores, .step, .mem] m (Mod.matKernel m a1 a2 a3 a4) := by
  unfold Mod.matKernel
  repeat'
    first
      | with_reducible exact Mod.sameBut_refl _ _
      | with_reducible assumption
      | (extract_lets +onlyGivenNames y; first | (refine Mod.sameBut_cut y (fun hy => ?_) ?_; rotate_left; subst y; rotate_left; clear_value y) | (refine Mod.sameBut_cut_fst y (fun hy => ?_) ?_; rotate_left; subst y; rotate_left; clear_value y) | clear_value y)
      | unfold Mod.kernelOn
      | ((with_reducible apply Mod.sameBut_step (Mod.accPut_sameBut _ _ _)); decide)
      | ((with_reducible apply Mod.sameBut_step (Mod.kernelResult_sameBut _ _ _)); decide)
      | ((with_reducible apply Mod.sameBut_step (Mod.sramErrors_sameBut _ _ _ _ _)); decide)
      | ((with_reducible apply Mod.sameBut_step (Mod.workDone_sameBut _ _)); decide)
      | split
      | dsimp only

theorem Mod.recordIn_sameBut (m : Mod) (a1 : EvRec) : Mod.sameBut [.regs, .dbg] m (Mod.recordIn m a1) := by
  unfold Mod.recordIn
  repeat'
    first
      | with_reducible exact Mod.sameBut_refl _ _
      | with_reducible assumption
      | (extract_lets +onlyGivenNames y; first | (refine Mod.sameBut_cut y (fun hy => ?_) ?_; rotate_left; subst y; rotate_left; clear_value y) | (refine Mod.sameBut_cut_fst y (fun hy => ?_) ?_; rotate_left; subst y; rotate_left; clear_value y) | clear_value y)
      | ((with_reducible apply Mod.sameBut_step (Mod.fcount_sameBut _ _ _ _ _)); decide)
      | ((with_reducible apply Mod.sameBut_step (Mod.produced_sameBut _ _)); decide)
      | ((with_reducible apply Mod.sameBut_step (Mod.trace_sameBut _ _ _ _ _ _ _)); decide)
      | ((with_reducible apply Mod.sameBut_step (Mod.traceTrigger_sameBut _)); decide)
      | split
      | dsimp only

theorem Mod.sramKernel_sameBut (m : Mod) (a1 : Nat) (a2 : KOp) (a3 : Ecc) (a4 : SramRead → Kernel → KEnv → KResult) : Mod.sameBut [.regs, .evIn, .sched, .cores, .step, .mem] m (Mod.sramKernel m a1 a2 a3 a4) := by
  unfold Mod.sramKernel
  repeat'
    first
      | with_reducible exact Mod.sameBut_refl _ _
      | with_reducible assumption
      | (extract_lets +onlyGivenNames y; first | (refine Mod.sameBut_cut y (fun hy => ?_) ?_; rotate_left; subst y; rotate_left; clear_value y) | (refine Mod.sameBut_cut_fst y (fun hy => ?_) ?_; rotate_left; subst y; rotate_left; clear_value y) | clear_value y)
      | unfold Mod.kernelOn
      | ((with_reducible apply Mod.sameBut_step (Mod.kernelResult_sameBut _ _ _)); decide)
      | ((with_reducible apply Mod.sameBut_step (Mod.sramErrors_sameBut _ _ _ _ _)); decide)
      | ((with_reducible apply Mod.sameBut_step (Mod.workDone_sameBut _ _)); decide)
      | split
      | dsimp only

theorem Mod.tlpDiscard_sameBut (m : Mod) (a1 : TlpBad) : Mod.sameBut [.evIn, .host] m (Mod.tlpDiscard m a1) := by
  unfold Mod.tlpDiscard
  repeat'
    first
      | with_reducible exact Mod.sameBut_refl _ _
      | with_reducible assumption
      | (extract_lets +onlyGivenNames y; first | (refine Mod.sameBut_cut y (fun hy => ?_) ?_; rotate_left; subst y; rotate_left; clear_value y) | (refine Mod.sameBut_cut_fst y (fun hy => ?_) ?_; rotate_left; subst y; rotate_left; clear_value y) | clear_value y)
      | ((with_reducible apply Mod.sameBut_step (Mod.aerRecord_sameBut _ _)); decide)
      | ((with_reducible apply Mod.sameBut_step (Mod.raise_sameBut _ _ _ _ _ _ _)); decide)
      | split
      | dsimp only

end Sys2Proof.Machine
end

