-- ==== Sys2Proof/Laws/FrameState.lean ====
section
/-! SUPPORT. The frames of the operations that lift a change of the module to the state: what the change leaves of the module, and always
the waiting commands and the event unit's output side. -/

namespace Sys2Proof.Machine

/-- A state is itself in every part. -/
theorem State.sameBut_refl (ps : List Part) (s : State) : State.sameBut ps s s := ⟨rfl, rfl, Mod.sameBut_refl _ _⟩

/-- A change of the module. -/
theorem State.on_sameBut {ps : List Part} {f : Mod → Mod} (s : State) (h : Mod.sameBut ps s.m (f s.m)) : State.sameBut ps s (s.on f) := ⟨rfl, rfl, h⟩

/-- A change of the module while its units run. -/
theorem State.unit_sameBut {ps : List Part} {f : Mod → Mod} (s : State) (h : Mod.sameBut ps s.m (f s.m)) : State.sameBut ps s (s.unit f) := by
  refine State.on_sameBut s ?_
  split
  · exact h
  · exact Mod.sameBut_refl _ _

/-- A change of the module through a register. -/
theorem State.reg_sameBut {ps : List Part} {f : Mod → Mod} (s : State) (off : Nat) (h : Mod.sameBut ps s.m (f s.m)) :
    State.sameBut ps s (s.reg off f) := by
  refine State.on_sameBut s ?_
  split
  · exact h
  · exact Mod.sameBut_refl _ _

/-- A change of the module that a management path asks for. -/
theorem State.via_sameBut {ps : List Part} {f : Mod → Mod} (s : State) (p : Path) (off : Nat) (h : Mod.sameBut ps s.m (f s.m)) :
    State.sameBut ps s (s.via p off f) := by
  refine State.on_sameBut s ?_
  split
  · exact h
  · exact Mod.sameBut_refl _ _

/-- A change of the module that an attestation request asks for. -/
theorem State.att_sameBut {ps : List Part} {f : Mod → Mod} (s : State) (p : AttPath) (h : Mod.sameBut ps s.m (f s.m)) :
    State.sameBut ps s (s.att p f) := by
  refine State.on_sameBut s ?_
  split
  · exact h
  · exact Mod.sameBut_refl _ _

/-- A change of the module through the TAP. -/
theorem State.tap_sameBut {ps : List Part} {f : Mod → Mod} (s : State) (h : Mod.sameBut ps s.m (f s.m)) : State.sameBut ps s (s.tap f) := by
  refine State.on_sameBut s ?_
  split
  · exact h
  · exact Mod.sameBut_refl _ _

end Sys2Proof.Machine
end

