-- ==== Sys2Proof/Laws/MemKept.lean ====
section
/-! SUPPORT. That an operation keeps the canonical form of the memories: how operations add up. -/

namespace Sys2Proof.Machine

/-- `n`'s memories are in canonical form where `m`'s are. -/
def Mod.keepsMem (m n : Mod) : Prop := m.memWf → n.memWf

/-- Nothing changes. -/
theorem Mod.keepsMem_refl (m : Mod) : Mod.keepsMem m m := id

/-- Two operations in a row. -/
theorem Mod.keepsMem_trans {l m n : Mod} (h1 : Mod.keepsMem l m) (h2 : Mod.keepsMem m n) : Mod.keepsMem l n := fun h => h2 (h1 h)

/-- A last operation, after others. -/
theorem Mod.keepsMem_step {l m n : Mod} (h2 : Mod.keepsMem m n) (h1 : Mod.keepsMem l m) : Mod.keepsMem l n := fun h => h2 (h1 h)

/-- An operation that leaves the memories. -/
theorem Mod.keepsMem_of {ps : List Part} {m n : Mod} (h : Mod.sameBut ps m n) (hp : Part.mem ∉ ps) : Mod.keepsMem m n :=
  Mod.memWf_congr (h.mem hp)

/-- An update of fields that leaves the memories. -/
theorem Mod.keepsMem_mk {l x : Mod} {a1 : RegFile} {a2 : List EvRec} {a3 : HostUnit} {a4 : PwrUnit} {a5 : TickUnit} {a6 : PlateUnit} {a7 : Sched} {a8 : Kv CoreRun} {a9 : StepUnit} {a11 : PoolUnit} {a12 : PadUnit} {a13 : StmUnit} {a14 : GroomUnit} {a15 : CollUnit} {a16 : ChkUnit} {a17 : FabUnit} {a18 : SecUnit} {a19 : DbgUnit} {a20 : Nat}
    (h : Mod.keepsMem l x) : Mod.keepsMem l (Mod.mk x.variant a1 a2 a3 a4 a5 a6 a7 a8 a9 x.mem a11 a12 a13 a14 a15 a16 a17 a18 a19 a20) := h

/-- An update of the memories that keeps each one's form. -/
theorem Mod.keepsMem_parts {l x : Mod} {a1 : RegFile} {a2 : List EvRec} {a3 : HostUnit} {a4 : PwrUnit} {a5 : TickUnit} {a6 : PlateUnit} {a7 : Sched} {a8 : Kv CoreRun} {a9 : StepUnit} {a11 : PoolUnit} {a12 : PadUnit} {a13 : StmUnit} {a14 : GroomUnit} {a15 : CollUnit} {a16 : ChkUnit} {a17 : FabUnit} {a18 : SecUnit} {a19 : DbgUnit} {a20 : Nat} {hb lo sr ac : Memory} {ports : Kv LoftPort}
    (h : Mod.keepsMem l x) (hh : x.mem.hbm.wf = true → hb.wf = true) (hl : x.mem.loft.wf = true → lo.wf = true)
    (hs : x.mem.sram.wf = true → sr.wf = true) (ha : x.mem.acc.wf = true → ac.wf = true) :
    Mod.keepsMem l (Mod.mk x.variant a1 a2 a3 a4 a5 a6 a7 a8 a9 ⟨hb, lo, sr, ac, ports⟩ a11 a12 a13 a14 a15 a16 a17 a18 a19 a20) :=
  fun w => ⟨hh (h w).1, hl (h w).2.1, hs (h w).2.2.1, ha (h w).2.2.2⟩

/-- An intermediate module. -/
theorem Mod.keepsMem_cut {l n : Mod} (y : Mod) (h : Mod.keepsMem l y → Mod.keepsMem l n) (hy : Mod.keepsMem l y) : Mod.keepsMem l n := h hy

/-- An intermediate module with something beside it. -/
theorem Mod.keepsMem_cut_fst {α : Type} {l n : Mod} (y : Mod × α) (h : Mod.keepsMem l y.1 → Mod.keepsMem l n) (hy : Mod.keepsMem l y.1) :
    Mod.keepsMem l n := h hy

/-- A fold of operations each of which keeps the form. -/
theorem Mod.keepsMem_foldl {β : Type} {l : Mod} (f : Mod → β → Mod) (xs : List β) (m : Mod) (hf : ∀ m b, Mod.keepsMem m (f m b))
    (h : Mod.keepsMem l m) : Mod.keepsMem l (xs.foldl f m) := by
  induction xs generalizing m with
  | nil => exact h
  | cons b xs ih => exact ih (f m b) (Mod.keepsMem_trans h (hf m b))

/-- The same of a fold that carries something beside the module. -/
theorem Mod.keepsMem_foldl_fst {α β : Type} {l : Mod} (f : Mod × α → β → Mod × α) (xs : List β) (z : Mod × α)
    (hf : ∀ z b, Mod.keepsMem z.1 (f z b).1) (h : Mod.keepsMem l z.1) : Mod.keepsMem l (xs.foldl f z).1 := by
  induction xs generalizing z with
  | nil => exact h
  | cons b xs ih => exact ih (f z b) (Mod.keepsMem_trans h (hf z b))

end Sys2Proof.Machine
end

