-- ==== Sys2Proof/Laws/MemKeptOps.lean ====
section
/-! SUPPORT. Every operation that may change the memories keeps their canonical form (one that may not: `Mod.keepsMem_of` and its frame).
The operations stand before those that use them. -/

namespace Sys2Proof.Machine

theorem Mod.markLoc_keepsMem (m : Mod) (l : Loc) : Mod.keepsMem m (m.markLoc l) := Mod.memWf_markLoc l

theorem Mod.devMark_keepsMem (m : Mod) (a1 : Nat) : Mod.keepsMem m (Mod.devMark m a1) := by
  unfold Mod.devMark
  repeat'
    first
      | with_reducible exact Mod.keepsMem_refl _
      | with_reducible assumption
      | (extract_lets +onlyGivenNames y; first | (refine Mod.keepsMem_cut y (fun hy => ?_) ?_; rotate_left; subst y; rotate_left; clear_value y) | (refine Mod.keepsMem_cut_fst y (fun hy => ?_) ?_; rotate_left; subst y; rotate_left; clear_value y) | clear_value y)
      | (with_reducible apply Mod.keepsMem_step (Mod.markLoc_keepsMem _ _))
      | split
      | dsimp only

theorem Mod.unmarkLoc_keepsMem (m : Mod) (l : Loc) : Mod.keepsMem m (m.unmarkLoc l) := Mod.memWf_unmarkLoc l

theorem Mod.putByte_keepsMem (m : Mod) (l : Loc) (v : Byte) : Mod.keepsMem m (m.putByte l v) := Mod.memWf_putByte l v

theorem Mod.putBytes_keepsMem (a0 : Nat → Loc) (m : Mod) (a2 : Nat) (a3 : List (Option Byte)) : Mod.keepsMem m (Mod.putBytes a0 m a2 a3) := by
  fun_induction Mod.putBytes a0 m a2 a3
  repeat'
    first
      | with_reducible exact Mod.keepsMem_refl _
      | with_reducible assumption
      | (extract_lets +onlyGivenNames y; first | (refine Mod.keepsMem_cut y (fun hy => ?_) ?_; rotate_left; subst y; rotate_left; clear_value y) | (refine Mod.keepsMem_cut_fst y (fun hy => ?_) ?_; rotate_left; subst y; rotate_left; clear_value y) | clear_value y)
      | (with_reducible apply Mod.keepsMem_step (Mod.putByte_keepsMem _ _ _))
      | with_reducible refine Mod.keepsMem_trans ?_ (by assumption)
      | split
      | dsimp only

theorem Mod.writeAt_keepsMem (a0 : Nat → Loc) (m : Mod) (a2 : Nat) (a3 : List (Option Byte)) : Mod.keepsMem m (Mod.writeAt a0 m a2 a3) := by
  unfold Mod.writeAt
  repeat'
    first
      | with_reducible exact Mod.keepsMem_refl _
      | with_reducible assumption
      | (extract_lets +onlyGivenNames y; first | (refine Mod.keepsMem_cut y (fun hy => ?_) ?_; rotate_left; subst y; rotate_left; clear_value y) | (refine Mod.keepsMem_cut_fst y (fun hy => ?_) ?_; rotate_left; subst y; rotate_left; clear_value y) | clear_value y)
      | (with_reducible apply Mod.keepsMem_step (Mod.putBytes_keepsMem _ _ _ _))
      | (with_reducible apply Mod.keepsMem_step (Mod.unmarkLoc_keepsMem _ _))
      | split
      | ((with_reducible apply Mod.keepsMem_foldl); intro x e)
      | ((with_reducible apply Mod.keepsMem_foldl_fst); intro x e)
      | dsimp only

theorem Mod.devWrite_keepsMem (m : Mod) (a1 : Nat) (a2 : List Byte) : Mod.keepsMem m (Mod.devWrite m a1 a2) := by
  unfold Mod.devWrite
  repeat'
    first
      | with_reducible exact Mod.keepsMem_refl _
      | with_reducible assumption
      | (extract_lets +onlyGivenNames y; first | (refine Mod.keepsMem_cut y (fun hy => ?_) ?_; rotate_left; subst y; rotate_left; clear_value y) | (refine Mod.keepsMem_cut_fst y (fun hy => ?_) ?_; rotate_left; subst y; rotate_left; clear_value y) | clear_value y)
      | (with_reducible apply Mod.keepsMem_step (Mod.writeAt_keepsMem _ _ _ _))
      | split
      | dsimp only

theorem Mod.devWriteP_keepsMem (m : Mod) (a1 : Nat) (a2 : List (Prod Byte Bool)) : Mod.keepsMem m (Mod.devWriteP m a1 a2) := by
  unfold Mod.devWriteP
  repeat'
    first
      | with_reducible exact Mod.keepsMem_refl _
      | with_reducible assumption
      | (extract_lets +onlyGivenNames y; first | (refine Mod.keepsMem_cut y (fun hy => ?_) ?_; rotate_left; subst y; rotate_left; clear_value y) | (refine Mod.keepsMem_cut_fst y (fun hy => ?_) ?_; rotate_left; subst y; rotate_left; clear_value y) | clear_value y)
      | (with_reducible apply Mod.keepsMem_step (Mod.devWrite_keepsMem _ _ _))
      | (with_reducible apply Mod.keepsMem_step (Mod.devMark_keepsMem _ _))
      | split
      | ((with_reducible apply Mod.keepsMem_foldl); intro x e)
      | ((with_reducible apply Mod.keepsMem_foldl_fst); intro x e)
      | dsimp only

theorem Mod.residWrite_keepsMem (m : Mod) (a1 : CollOp) (a2 : Nat) (a3 : Nat) (a4 : Bool) (a5 : List (Prod Nat Bool)) : Mod.keepsMem m (Mod.residWrite m a1 a2 a3 a4 a5) := by
  unfold Mod.residWrite
  repeat'
    first
      | with_reducible exact Mod.keepsMem_refl _
      | with_reducible assumption
      | (extract_lets +onlyGivenNames y; first | (refine Mod.keepsMem_cut y (fun hy => ?_) ?_; rotate_left; subst y; rotate_left; clear_value y) | (refine Mod.keepsMem_cut_fst y (fun hy => ?_) ?_; rotate_left; subst y; rotate_left; clear_value y) | clear_value y)
      | (with_reducible apply Mod.keepsMem_step (Mod.devWriteP_keepsMem _ _ _))
      | (with_reducible apply Mod.keepsMem_step (Mod.keepsMem_of (Mod.yard_sameBut _ _ _ _ _) (by decide)))
      | split
      | dsimp only

theorem Mod.sramErrors_keepsMem (m : Mod) (a1 : Nat) (a2 : Nat) (a3 : List (Prod Nat Nat)) (a4 : Ecc) : Mod.keepsMem m (Mod.sramErrors m a1 a2 a3 a4) := by
  unfold Mod.sramErrors
  repeat'
    first
      | with_reducible exact Mod.keepsMem_refl _
      | with_reducible assumption
      | (extract_lets +onlyGivenNames y; first | (refine Mod.keepsMem_cut y (fun hy => ?_) ?_; rotate_left; subst y; rotate_left; clear_value y) | (refine Mod.keepsMem_cut_fst y (fun hy => ?_) ?_; rotate_left; subst y; rotate_left; clear_value y) | subst y)
      | (with_reducible apply Mod.keepsMem_step (Mod.keepsMem_of (Mod.raise_sameBut _ _ _ _ _ _ _) (by decide)))
      | (with_reducible apply Mod.keepsMem_step (Mod.keepsMem_of (Mod.fsat_sameBut _ _ _ _ _) (by decide)))
      | (with_reducible apply Mod.keepsMem_step (Mod.keepsMem_of (Mod.raiseStep_sameBut _ _ _ _ _ _) (by decide)))
      | (with_reducible apply Mod.keepsMem_step (Mod.keepsMem_of (Mod.fenceCore_sameBut _ _ _) (by decide)))
      | split
      | ((with_reducible apply Mod.keepsMem_foldl); intro x e)
      | ((with_reducible apply Mod.keepsMem_foldl_fst); intro x e)
      | dsimp only
      | ((with_reducible apply Mod.keepsMem_mk))
      | ((with_reducible apply Mod.keepsMem_parts); rotate_left; all_goals first | exact fun h => h | exact fun _ => Memory.wf_forget _ | exact Memory.wf_mark _ | exact Memory.wf_keep _ _ | exact Memory.wf_putWords _ _ | skip)

theorem Mod.sliceRead_keepsMem (m : Mod) (a1 : CollOp) (a2 : Nat) (a3 : Ecc) : Mod.keepsMem m (Mod.sliceRead m a1 a2 a3).1 := by
  unfold Mod.sliceRead
  repeat'
    first
      | with_reducible exact Mod.keepsMem_refl _
      | with_reducible assumption
      | (extract_lets +onlyGivenNames y; first | (refine Mod.keepsMem_cut y (fun hy => ?_) ?_; rotate_left; subst y; rotate_left; clear_value y) | (refine Mod.keepsMem_cut_fst y (fun hy => ?_) ?_; rotate_left; subst y; rotate_left; clear_value y) | clear_value y)
      | (with_reducible apply Mod.keepsMem_step (Mod.sramErrors_keepsMem _ _ _ _ _))
      | split
      | dsimp only

theorem Mod.foundUe_keepsMem (m : Mod) (a1 : Bool) (a2 : Nat) : Mod.keepsMem m (Mod.foundUe m a1 a2) := by
  unfold Mod.foundUe
  repeat'
    first
      | with_reducible exact Mod.keepsMem_refl _
      | with_reducible assumption
      | (extract_lets +onlyGivenNames y; first | (refine Mod.keepsMem_cut y (fun hy => ?_) ?_; rotate_left; subst y; rotate_left; clear_value y) | (refine Mod.keepsMem_cut_fst y (fun hy => ?_) ?_; rotate_left; subst y; rotate_left; clear_value y) | clear_value y)
      | (with_reducible apply Mod.keepsMem_step (Mod.keepsMem_of (Mod.fsat_sameBut _ _ _ _ _) (by decide)))
      | (with_reducible apply Mod.keepsMem_step (Mod.markLoc_keepsMem _ _))
      | (with_reducible apply Mod.keepsMem_step (Mod.keepsMem_of (Mod.set64_sameBut _ _ _ _ _) (by decide)))
      | (with_reducible apply Mod.keepsMem_step (Mod.keepsMem_of (Mod.raiseDual_sameBut _ _ _ _ _ _ _ _) (by decide)))
      | split
      | dsimp only

theorem Mod.eccDev_keepsMem (m : Mod) (a1 : Bool) (a2 : List (Prod Nat Nat)) (a3 : Ecc) : Mod.keepsMem m (Mod.eccDev m a1 a2 a3) := by
  unfold Mod.eccDev
  repeat'
    first
      | with_reducible exact Mod.keepsMem_refl _
      | with_reducible assumption
      | (extract_lets +onlyGivenNames y; first | (refine Mod.keepsMem_cut y (fun hy => ?_) ?_; rotate_left; subst y; rotate_left; clear_value y) | (refine Mod.keepsMem_cut_fst y (fun hy => ?_) ?_; rotate_left; subst y; rotate_left; clear_value y) | clear_value y)
      | (with_reducible apply Mod.keepsMem_step (Mod.keepsMem_of (Mod.foundCe_sameBut _ _) (by decide)))
      | (with_reducible apply Mod.keepsMem_step (Mod.foundUe_keepsMem _ _ _))
      | split
      | ((with_reducible apply Mod.keepsMem_foldl); intro x e)
      | ((with_reducible apply Mod.keepsMem_foldl_fst); intro x e)
      | dsimp only

theorem Mod.readDev_keepsMem (m : Mod) (a1 : Bool) (a2 : List (Prod Nat Nat)) (a3 : Ecc) : Mod.keepsMem m (Mod.readDev m a1 a2 a3) := by
  unfold Mod.readDev
  repeat'
    first
      | with_reducible exact Mod.keepsMem_refl _
      | with_reducible assumption
      | (extract_lets +onlyGivenNames y; first | (refine Mod.keepsMem_cut y (fun hy => ?_) ?_; rotate_left; subst y; rotate_left; clear_value y) | (refine Mod.keepsMem_cut_fst y (fun hy => ?_) ?_; rotate_left; subst y; rotate_left; clear_value y) | clear_value y)
      | (with_reducible apply Mod.keepsMem_step (Mod.keepsMem_of (Mod.loftMet_sameBut _ _ _) (by decide)))
      | (with_reducible apply Mod.keepsMem_step (Mod.eccDev_keepsMem _ _ _ _))
      | split
      | dsimp only

theorem Mod.unitRead_keepsMem (m : Mod) (a1 : Bool) (a2 : Nat) (a3 : Nat) (a4 : Ecc) : Mod.keepsMem m (Mod.unitRead m a1 a2 a3 a4).1 := by
  unfold Mod.unitRead
  repeat'
    first
      | with_reducible exact Mod.keepsMem_refl _
      | with_reducible assumption
      | (extract_lets +onlyGivenNames y; first | (refine Mod.keepsMem_cut y (fun hy => ?_) ?_; rotate_left; subst y; rotate_left; clear_value y) | (refine Mod.keepsMem_cut_fst y (fun hy => ?_) ?_; rotate_left; subst y; rotate_left; clear_value y) | clear_value y)
      | (with_reducible apply Mod.keepsMem_step (Mod.readDev_keepsMem _ _ _ _))
      | (with_reducible apply Mod.keepsMem_step (Mod.keepsMem_of (Mod.fault_sameBut _ _) (by decide)))
      | split
      | dsimp only

theorem Mod.residRead_keepsMem (m : Mod) (a1 : CollOp) (a2 : Nat) (a3 : Nat) (a4 : Ecc) : Mod.keepsMem m (Mod.residRead m a1 a2 a3 a4).1 := by
  unfold Mod.residRead
  repeat'
    first
      | with_reducible exact Mod.keepsMem_refl _
      | with_reducible assumption
      | (extract_lets +onlyGivenNames y; first | (refine Mod.keepsMem_cut y (fun hy => ?_) ?_; rotate_left; subst y; rotate_left; clear_value y) | (refine Mod.keepsMem_cut_fst y (fun hy => ?_) ?_; rotate_left; subst y; rotate_left; clear_value y) | clear_value y)
      | (with_reducible apply Mod.keepsMem_step (Mod.unitRead_keepsMem _ _ _ _ _))
      | (with_reducible apply Mod.keepsMem_step (Mod.keepsMem_of (Mod.yard_sameBut _ _ _ _ _) (by decide)))
      | split
      | dsimp only

theorem Mod.accumSlice_keepsMem (m : Mod) (a1 : CollOp) (a2 : Nat) (a3 : Ecc) (a4 : Nat) : Mod.keepsMem m (Mod.accumSlice m a1 a2 a3 a4) := by
  unfold Mod.accumSlice
  repeat'
    first
      | with_reducible exact Mod.keepsMem_refl _
      | with_reducible assumption
      | (extract_lets +onlyGivenNames y; first | (refine Mod.keepsMem_cut y (fun hy => ?_) ?_; rotate_left; subst y; rotate_left; clear_value y) | (refine Mod.keepsMem_cut_fst y (fun hy => ?_) ?_; rotate_left; subst y; rotate_left; clear_value y) | clear_value y)
      | (with_reducible apply Mod.keepsMem_step (Mod.sliceRead_keepsMem _ _ _ _))
      | (with_reducible apply Mod.keepsMem_step (Mod.residRead_keepsMem _ _ _ _ _))
      | (with_reducible apply Mod.keepsMem_step (Mod.residWrite_keepsMem _ _ _ _ _ _))
      | (with_reducible apply Mod.keepsMem_step (Mod.keepsMem_of (Mod.redFlags_sameBut _ _ _) (by decide)))
      | split
      | dsimp only

theorem Mod.initWatch_keepsMem (m : Mod) (a1 : Plate) : Mod.keepsMem m (Mod.initWatch m a1) := by
  unfold Mod.initWatch
  repeat'
    first
      | with_reducible exact Mod.keepsMem_refl _
      | with_reducible assumption
      | (extract_lets +onlyGivenNames y; first | (refine Mod.keepsMem_cut y (fun hy => ?_) ?_; rotate_left; subst y; rotate_left; clear_value y) | (refine Mod.keepsMem_cut_fst y (fun hy => ?_) ?_; rotate_left; subst y; rotate_left; clear_value y) | clear_value y)
      | (with_reducible apply Mod.keepsMem_step (Mod.devWrite_keepsMem _ _ _))
      | split
      | ((with_reducible apply Mod.keepsMem_foldl); intro x e)
      | ((with_reducible apply Mod.keepsMem_foldl_fst); intro x e)
      | dsimp only

theorem Mod.startPlate_keepsMem (m : Mod) (a1 : Plate) : Mod.keepsMem m (Mod.startPlate m a1) := by
  unfold Mod.startPlate
  repeat'
    first
      | with_reducible exact Mod.keepsMem_refl _
      | with_reducible assumption
      | (extract_lets +onlyGivenNames y; first | (refine Mod.keepsMem_cut y (fun hy => ?_) ?_; rotate_left; subst y; rotate_left; clear_value y) | (refine Mod.keepsMem_cut_fst y (fun hy => ?_) ?_; rotate_left; subst y; rotate_left; clear_value y) | clear_value y)
      | (with_reducible apply Mod.keepsMem_step (Mod.keepsMem_of (Mod.fset_sameBut _ _ _ _ _) (by decide)))
      | (with_reducible apply Mod.keepsMem_step (Mod.keepsMem_of (Mod.setBase_sameBut _ _ _ _) (by decide)))
      | (with_reducible apply Mod.keepsMem_step (Mod.initWatch_keepsMem _ _))
      | (with_reducible apply Mod.keepsMem_step (Mod.keepsMem_of (Mod.snoopAbandonAll_sameBut _) (by decide)))
      | split
      | ((with_reducible apply Mod.keepsMem_foldl); intro x e)
      | ((with_reducible apply Mod.keepsMem_foldl_fst); intro x e)
      | dsimp only
      | ((with_reducible apply Mod.keepsMem_mk))

theorem Mod.activateFull_keepsMem (m : Mod) (a1 : Nat) (a2 : Plate) : Mod.keepsMem m (Mod.activateFull m a1 a2) := by
  unfold Mod.activateFull
  repeat'
    first
      | with_reducible exact Mod.keepsMem_refl _
      | with_reducible assumption
      | (extract_lets +onlyGivenNames y; first | (refine Mod.keepsMem_cut y (fun hy => ?_) ?_; rotate_left; subst y; rotate_left; clear_value y) | (refine Mod.keepsMem_cut_fst y (fun hy => ?_) ?_; rotate_left; subst y; rotate_left; clear_value y) | clear_value y)
      | (with_reducible apply Mod.keepsMem_step (Mod.keepsMem_of (Mod.fset_sameBut _ _ _ _ _) (by decide)))
      | (with_reducible apply Mod.keepsMem_step (Mod.keepsMem_of (Mod.takeTickTree_sameBut _ _ _) (by decide)))
      | (with_reducible apply Mod.keepsMem_step (Mod.startPlate_keepsMem _ _))
      | (with_reducible apply Mod.keepsMem_step (Mod.keepsMem_of (Mod.extend_sameBut _ _ _ _) (by decide)))
      | (with_reducible apply Mod.keepsMem_step (Mod.keepsMem_of (Mod.portsActivate_sameBut _ _) (by decide)))
      | (with_reducible apply Mod.keepsMem_step (Mod.keepsMem_of (Mod.msix_sameBut _ _) (by decide)))
      | (with_reducible apply Mod.keepsMem_step (Mod.keepsMem_of (Mod.set64_sameBut _ _ _ _ _) (by decide)))
      | split
      | dsimp only
      | ((with_reducible apply Mod.keepsMem_mk))

theorem Mod.openRow_keepsMem (m : Mod) (a1 : Nat) (a2 : Nat) (a3 : Binding) (a4 : Nat) : Mod.keepsMem m (Mod.openRow m a1 a2 a3 a4) := by
  unfold Mod.openRow
  repeat'
    first
      | with_reducible exact Mod.keepsMem_refl _
      | with_reducible assumption
      | (extract_lets +onlyGivenNames y; first | (refine Mod.keepsMem_cut y (fun hy => ?_) ?_; rotate_left; subst y; rotate_left; clear_value y) | (refine Mod.keepsMem_cut_fst y (fun hy => ?_) ?_; rotate_left; subst y; rotate_left; clear_value y) | clear_value y)
      | (with_reducible apply Mod.keepsMem_step (Mod.devWriteP_keepsMem _ _ _))
      | (with_reducible apply Mod.keepsMem_step (Mod.keepsMem_of (Mod.setGroom_sameBut _ _ _) (by decide)))
      | split
      | dsimp only

theorem Mod.openAt_keepsMem (m : Mod) (a1 : Nat) (a2 : GPass) (a3 : Binding) (a4 : Nat) (a5 : Nat) : Mod.keepsMem m (Mod.openAt m a1 a2 a3 a4 a5) := by
  unfold Mod.openAt
  repeat'
    first
      | with_reducible exact Mod.keepsMem_refl _
      | with_reducible assumption
      | (extract_lets +onlyGivenNames y; first | (refine Mod.keepsMem_cut y (fun hy => ?_) ?_; rotate_left; subst y; rotate_left; clear_value y) | (refine Mod.keepsMem_cut_fst y (fun hy => ?_) ?_; rotate_left; subst y; rotate_left; clear_value y) | clear_value y)
      | (with_reducible apply Mod.keepsMem_step (Mod.openRow_keepsMem _ _ _ _ _))
      | split
      | dsimp only

theorem Mod.stateWrite_keepsMem (m : Mod) (a1 : Nat) (a2 : Nat) (a3 : List (Prod Byte Bool)) : Mod.keepsMem m (Mod.stateWrite m a1 a2 a3) := by
  unfold Mod.stateWrite
  repeat'
    first
      | with_reducible exact Mod.keepsMem_refl _
      | with_reducible assumption
      | (extract_lets +onlyGivenNames y; first | (refine Mod.keepsMem_cut y (fun hy => ?_) ?_; rotate_left; subst y; rotate_left; clear_value y) | (refine Mod.keepsMem_cut_fst y (fun hy => ?_) ?_; rotate_left; subst y; rotate_left; clear_value y) | clear_value y)
      | (with_reducible apply Mod.keepsMem_step (Mod.devWriteP_keepsMem _ _ _))
      | split
      | ((with_reducible apply Mod.keepsMem_foldl); intro x e)
      | ((with_reducible apply Mod.keepsMem_foldl_fst); intro x e)
      | dsimp only
      | ((with_reducible apply Mod.keepsMem_mk))

theorem Mod.planePut_keepsMem (m : Mod) (a1 : Nat) (a2 : StreamEntry) (a3 : Binding) (a4 : Nat) (a5 : Nat) (a6 : Bool) : Mod.keepsMem m (Mod.planePut m a1 a2 a3 a4 a5 a6) := by
  unfold Mod.planePut
  repeat'
    first
      | with_reducible exact Mod.keepsMem_refl _
      | with_reducible assumption
      | (extract_lets +onlyGivenNames y; first | (refine Mod.keepsMem_cut y (fun hy => ?_) ?_; rotate_left; subst y; rotate_left; clear_value y) | (refine Mod.keepsMem_cut_fst y (fun hy => ?_) ?_; rotate_left; subst y; rotate_left; clear_value y) | clear_value y)
      | (with_reducible apply Mod.keepsMem_step (Mod.stateWrite_keepsMem _ _ _ _))
      | split
      | dsimp only

theorem Mod.heldElem_keepsMem (m : Mod) (a1 : Nat) (a2 : Binding) (a3 : PassEnv) (a4 : Nat) (a5 : Nat) (a6 : Bool) (a7 : GPass) : Mod.keepsMem m (Mod.heldElem m a1 a2 a3 a4 a5 a6 a7).1 := by
  unfold Mod.heldElem
  repeat'
    first
      | with_reducible exact Mod.keepsMem_refl _
      | with_reducible assumption
      | (extract_lets +onlyGivenNames y; first | (refine Mod.keepsMem_cut y (fun hy => ?_) ?_; rotate_left; subst y; rotate_left; clear_value y) | (refine Mod.keepsMem_cut_fst y (fun hy => ?_) ?_; rotate_left; subst y; rotate_left; clear_value y) | clear_value y)
      | (with_reducible apply Mod.keepsMem_step (Mod.planePut_keepsMem _ _ _ _ _ _ _))
      | (with_reducible apply Mod.keepsMem_step (Mod.keepsMem_of (Mod.groomFlags_sameBut _ _ _) (by decide)))
      | split
      | ((with_reducible apply Mod.keepsMem_foldl); intro x e)
      | ((with_reducible apply Mod.keepsMem_foldl_fst); intro x e)
      | dsimp only

theorem Mod.openRuns_keepsMem (m : Mod) (a1 : List (Prod Nat Nat)) : Mod.keepsMem m (Mod.openRuns m a1) := by
  unfold Mod.openRuns
  repeat'
    first
      | with_reducible exact Mod.keepsMem_refl _
      | with_reducible assumption
      | (extract_lets +onlyGivenNames y; first | (refine Mod.keepsMem_cut y (fun hy => ?_) ?_; rotate_left; subst y; rotate_left; clear_value y) | (refine Mod.keepsMem_cut_fst y (fun hy => ?_) ?_; rotate_left; subst y; rotate_left; clear_value y) | clear_value y)
      | (with_reducible apply Mod.keepsMem_step (Mod.unmarkLoc_keepsMem _ _))
      | split
      | ((with_reducible apply Mod.keepsMem_foldl); intro x e)
      | ((with_reducible apply Mod.keepsMem_foldl_fst); intro x e)
      | dsimp only

theorem Mod.sliceOpen_keepsMem (m : Mod) (a1 : GPass) (a2 : Binding) (a3 : SliceEnt) (a4 : GSlice) : Mod.keepsMem m (Mod.sliceOpen m a1 a2 a3 a4) := by
  unfold Mod.sliceOpen
  repeat'
    first
      | with_reducible exact Mod.keepsMem_refl _
      | with_reducible assumption
      | (extract_lets +onlyGivenNames y; first | (refine Mod.keepsMem_cut y (fun hy => ?_) ?_; rotate_left; subst y; rotate_left; clear_value y) | (refine Mod.keepsMem_cut_fst y (fun hy => ?_) ?_; rotate_left; subst y; rotate_left; clear_value y) | clear_value y)
      | (with_reducible apply Mod.keepsMem_step (Mod.openRuns_keepsMem _ _))
      | split
      | dsimp only

theorem Mod.passHeld_keepsMem (a0 : Nat) (a1 : Binding) (a2 : SliceEnt) (a3 : GSlice) (a4 : PassEnv) (a5 : Nat) (m : Mod) (a7 : GPass) : Mod.keepsMem m (Mod.passHeld a0 a1 a2 a3 a4 a5 m a7).1 := by
  induction a5 generalizing m a7 with
  | zero => exact Mod.keepsMem_refl _
  | succ k ih =>
    unfold Mod.passHeld
    extract_lets i q y
    clear_value q
    split
    · refine Mod.keepsMem_trans ?_ (ih _ _)
      exact Mod.keepsMem_step (Mod.heldElem_keepsMem _ _ _ _ _ _ _ _) (Mod.keepsMem_step (Mod.openAt_keepsMem _ _ _ _ _ _)
        (Mod.keepsMem_step (Mod.sliceOpen_keepsMem _ _ _ _ _) (Mod.keepsMem_refl _)))
    · exact Mod.keepsMem_refl _

theorem Mod.afterElem_keepsMem (m : Mod) (a1 : Nat) (a2 : Bool) (a3 : GPass) (a4 : Binding) (a5 : SliceEnt) (a6 : GSlice) : Mod.keepsMem m (Mod.afterElem m a1 a2 a3 a4 a5 a6) := by
  unfold Mod.afterElem
  repeat'
    first
      | with_reducible exact Mod.keepsMem_refl _
      | with_reducible assumption
      | (extract_lets +onlyGivenNames y; first | (refine Mod.keepsMem_cut y (fun hy => ?_) ?_; rotate_left; subst y; rotate_left; clear_value y) | (refine Mod.keepsMem_cut_fst y (fun hy => ?_) ?_; rotate_left; subst y; rotate_left; clear_value y) | clear_value y)
      | (with_reducible apply Mod.keepsMem_step (Mod.passHeld_keepsMem _ _ _ _ _ _ _ _))
      | (with_reducible apply Mod.keepsMem_step (Mod.keepsMem_of (Mod.setPass_sameBut _ _ _ _) (by decide)))
      | (with_reducible apply Mod.keepsMem_step (Mod.keepsMem_of (Mod.passPoison_sameBut _ _ _) (by decide)))
      | (with_reducible apply Mod.keepsMem_step (Mod.keepsMem_of (Mod.sliceTaken_sameBut _ _ _ _) (by decide)))
      | split
      | dsimp only

theorem Mod.dataWrite_keepsMem (m : Mod) (a1 : CollOp) (a2 : Nat) (a3 : Contrib) (a4 : Ecc) : Mod.keepsMem m (Mod.dataWrite m a1 a2 a3 a4) := by
  unfold Mod.dataWrite
  repeat'
    first
      | with_reducible exact Mod.keepsMem_refl _
      | with_reducible assumption
      | (extract_lets +onlyGivenNames y; first | (refine Mod.keepsMem_cut y (fun hy => ?_) ?_; rotate_left; subst y; rotate_left; clear_value y) | (refine Mod.keepsMem_cut_fst y (fun hy => ?_) ?_; rotate_left; subst y; rotate_left; clear_value y) | clear_value y)
      | (with_reducible apply Mod.keepsMem_step (Mod.devWriteP_keepsMem _ _ _))
      | (with_reducible apply Mod.keepsMem_step (Mod.eccDev_keepsMem _ _ _ _))
      | (with_reducible apply Mod.keepsMem_step (Mod.keepsMem_of (Mod.yard_sameBut _ _ _ _ _) (by decide)))
      | split
      | dsimp only

theorem Mod.ledgerWrite_keepsMem (m : Mod) (a1 : Nat) (a2 : CollOp) (a3 : Nat) (a4 : Contrib) : Mod.keepsMem m (Mod.ledgerWrite m a1 a2 a3 a4) := by
  unfold Mod.ledgerWrite
  repeat'
    first
      | with_reducible exact Mod.keepsMem_refl _
      | with_reducible assumption
      | (extract_lets +onlyGivenNames y; first | (refine Mod.keepsMem_cut y (fun hy => ?_) ?_; rotate_left; subst y; rotate_left; clear_value y) | (refine Mod.keepsMem_cut_fst y (fun hy => ?_) ?_; rotate_left; subst y; rotate_left; clear_value y) | clear_value y)
      | (with_reducible apply Mod.keepsMem_step (Mod.keepsMem_of (Mod.yard_sameBut _ _ _ _ _) (by decide)))
      | (with_reducible apply Mod.keepsMem_step (Mod.keepsMem_of (Mod.redFlags_sameBut _ _ _) (by decide)))
      | (with_reducible apply Mod.keepsMem_step (Mod.devWriteP_keepsMem _ _ _))
      | split
      | ((with_reducible apply Mod.keepsMem_foldl); intro x e)
      | ((with_reducible apply Mod.keepsMem_foldl_fst); intro x e)
      | dsimp only
      | ((with_reducible apply Mod.keepsMem_mk))

theorem Mod.deliverSlice_keepsMem (m : Mod) (a1 : Nat) (a2 : CollOp) (a3 : Nat) (a4 : Ecc) : Mod.keepsMem m (Mod.deliverSlice m a1 a2 a3 a4) := by
  unfold Mod.deliverSlice
  repeat'
    first
      | with_reducible exact Mod.keepsMem_refl _
      | with_reducible assumption
      | (extract_lets +onlyGivenNames y; first | (refine Mod.keepsMem_cut y (fun hy => ?_) ?_; rotate_left; subst y; rotate_left; clear_value y) | (refine Mod.keepsMem_cut_fst y (fun hy => ?_) ?_; rotate_left; subst y; rotate_left; clear_value y) | clear_value y)
      | (with_reducible apply Mod.keepsMem_step (Mod.dataWrite_keepsMem _ _ _ _ _))
      | (with_reducible apply Mod.keepsMem_step (Mod.ledgerWrite_keepsMem _ _ _ _ _))
      | (with_reducible apply Mod.keepsMem_step (Mod.keepsMem_of (Mod.toGroom_sameBut _ _ _ _ _) (by decide)))
      | (with_reducible apply Mod.keepsMem_step (Mod.keepsMem_of (Mod.fault_sameBut _ _) (by decide)))
      | (with_reducible apply Mod.keepsMem_step (Mod.keepsMem_of (Mod.setOp_sameBut _ _ _) (by decide)))
      | split
      | dsimp only

theorem Mod.opProgress_keepsMem (m : Mod) (a1 : Nat) (a2 : CollOp) (a3 : Ecc) : Mod.keepsMem m (Mod.opProgress m a1 a2 a3) := by
  unfold Mod.opProgress
  repeat'
    first
      | with_reducible exact Mod.keepsMem_refl _
      | with_reducible assumption
      | (extract_lets +onlyGivenNames y; first | (refine Mod.keepsMem_cut y (fun hy => ?_) ?_; rotate_left; subst y; rotate_left; clear_value y) | (refine Mod.keepsMem_cut_fst y (fun hy => ?_) ?_; rotate_left; subst y; rotate_left; clear_value y) | clear_value y)
      | (with_reducible apply Mod.keepsMem_step (Mod.keepsMem_of (Mod.sumSlice_sameBut _ _ _ _) (by decide)))
      | (with_reducible apply Mod.keepsMem_step (Mod.deliverSlice_keepsMem _ _ _ _ _))
      | (with_reducible apply Mod.keepsMem_step (Mod.keepsMem_of (Mod.takeResult_sameBut _ _ _ _) (by decide)))
      | (with_reducible apply Mod.keepsMem_step (Mod.keepsMem_of (Mod.opDone_sameBut _ _ _) (by decide)))
      | (with_reducible apply Mod.keepsMem_step (Mod.keepsMem_of (Mod.setOp_sameBut _ _ _) (by decide)))
      | split
      | ((with_reducible apply Mod.keepsMem_foldl); intro x e)
      | ((with_reducible apply Mod.keepsMem_foldl_fst); intro x e)
      | dsimp only

theorem Mod.collProgress_keepsMem (m : Mod) (a1 : Ecc) : Mod.keepsMem m (Mod.collProgress m a1) := by
  unfold Mod.collProgress
  repeat'
    first
      | with_reducible exact Mod.keepsMem_refl _
      | with_reducible assumption
      | (extract_lets +onlyGivenNames y; first | (refine Mod.keepsMem_cut y (fun hy => ?_) ?_; rotate_left; subst y; rotate_left; clear_value y) | (refine Mod.keepsMem_cut_fst y (fun hy => ?_) ?_; rotate_left; subst y; rotate_left; clear_value y) | clear_value y)
      | (with_reducible apply Mod.keepsMem_step (Mod.opProgress_keepsMem _ _ _ _))
      | (with_reducible apply Mod.keepsMem_step (Mod.keepsMem_of (Mod.refuseBad_sameBut _) (by decide)))
      | split
      | ((with_reducible apply Mod.keepsMem_foldl); intro x e)
      | ((with_reducible apply Mod.keepsMem_foldl_fst); intro x e)
      | dsimp only

theorem Mod.allreduce_keepsMem (m : Mod) (a1 : Nat) (a2 : Ecc) : Mod.keepsMem m (Mod.allreduce m a1 a2) := by
  unfold Mod.allreduce
  repeat'
    first
      | with_reducible exact Mod.keepsMem_refl _
      | with_reducible assumption
      | (extract_lets +onlyGivenNames y; first | (refine Mod.keepsMem_cut y (fun hy => ?_) ?_; rotate_left; subst y; rotate_left; clear_value y) | (refine Mod.keepsMem_cut_fst y (fun hy => ?_) ?_; rotate_left; subst y; rotate_left; clear_value y) | clear_value y)
      | (with_reducible apply Mod.keepsMem_step (Mod.sliceRead_keepsMem _ _ _ _))
      | (with_reducible apply Mod.keepsMem_step (Mod.keepsMem_of (Mod.contribute_sameBut _ _ _ _ _ _ _ _) (by decide)))
      | (with_reducible apply Mod.keepsMem_step (Mod.keepsMem_of (Mod.opRead_sameBut _ _ _ _) (by decide)))
      | (with_reducible apply Mod.keepsMem_step (Mod.collProgress_keepsMem _ _))
      | (with_reducible apply Mod.keepsMem_step (Mod.keepsMem_of (Mod.setOp_sameBut _ _ _) (by decide)))
      | split
      | ((with_reducible apply Mod.keepsMem_foldl); intro x e)
      | ((with_reducible apply Mod.keepsMem_foldl_fst); intro x e)
      | dsimp only

theorem Mod.sramPut_keepsMem (m : Mod) (a1 : Nat) (a2 : List (Nat × Byte)) : Mod.keepsMem m (Mod.sramPut m a1 a2) := by
  intro h
  refine ⟨h.1, h.2.1, ?_, h.2.2.2⟩
  have hun : ∀ (p : Nat → Bool) (us : List Nat) (s : Memory), s.wf = true → (us.foldl (fun (s : Memory) w => if p w then s.unmark w else s) s).wf = true := by
    intro p us
    induction us with
    | nil => exact fun _ h => h
    | cons w us ih =>
      intro s hs
      rw [List.foldl_cons]
      split
      · exact ih _ (Memory.wf_unmark _ hs)
      · exact ih _ hs
  exact hun _ _ _ (Memory.wf_setAll _ a2 h.2.2.1)

theorem Mod.kernelResult_keepsMem (m : Mod) (a1 : Nat) (a2 : KResult) : Mod.keepsMem m (Mod.kernelResult m a1 a2) := by
  unfold Mod.kernelResult
  repeat'
    first
      | with_reducible exact Mod.keepsMem_refl _
      | with_reducible assumption
      | (extract_lets +onlyGivenNames y; first | (refine Mod.keepsMem_cut y (fun hy => ?_) ?_; rotate_left; subst y; rotate_left; clear_value y) | (refine Mod.keepsMem_cut_fst y (fun hy => ?_) ?_; rotate_left; subst y; rotate_left; clear_value y) | subst y)
      | (with_reducible apply Mod.keepsMem_step (Mod.sramPut_keepsMem _ _ _))
      | (with_reducible apply Mod.keepsMem_step (Mod.keepsMem_of (Mod.fsat_sameBut _ _ _ _ _) (by decide)))
      | split
      | dsimp only
      | ((with_reducible apply Mod.keepsMem_mk))

theorem Mod.attnResult_keepsMem (m : Mod) (a1 : Nat) (a2 : Nat) (a3 : AResult) : Mod.keepsMem m (Mod.attnResult m a1 a2 a3) := by
  unfold Mod.attnResult
  repeat'
    first
      | with_reducible exact Mod.keepsMem_refl _
      | with_reducible assumption
      | (extract_lets +onlyGivenNames y; first | (refine Mod.keepsMem_cut y (fun hy => ?_) ?_; rotate_left; subst y; rotate_left; clear_value y) | (refine Mod.keepsMem_cut_fst y (fun hy => ?_) ?_; rotate_left; subst y; rotate_left; clear_value y) | clear_value y)
      | (with_reducible apply Mod.keepsMem_step (Mod.kernelResult_keepsMem _ _ _))
      | (with_reducible apply Mod.keepsMem_step (Mod.keepsMem_of (Mod.raise_sameBut _ _ _ _ _ _ _) (by decide)))
      | (with_reducible apply Mod.keepsMem_step (Mod.keepsMem_of (Mod.fset_sameBut _ _ _ _ _) (by decide)))
      | split
      | dsimp only

theorem Mod.holdReq_keepsMem (m : Mod) (a1 : Nat) (a2 : LoftReq) : Mod.keepsMem m (Mod.holdReq m a1 a2) := by
  unfold Mod.holdReq
  repeat'
    first
      | with_reducible exact Mod.keepsMem_refl _
      | with_reducible assumption
      | (extract_lets +onlyGivenNames y; first | (refine Mod.keepsMem_cut y (fun hy => ?_) ?_; rotate_left; subst y; rotate_left; clear_value y) | (refine Mod.keepsMem_cut_fst y (fun hy => ?_) ?_; rotate_left; subst y; rotate_left; clear_value y) | subst y)
      | split
      | dsimp only
      | ((with_reducible apply Mod.keepsMem_mk))
      | ((with_reducible apply Mod.keepsMem_parts); rotate_left; all_goals first | exact fun h => h | exact fun _ => Memory.wf_forget _ | exact Memory.wf_mark _ | exact Memory.wf_keep _ _ | exact Memory.wf_putWords _ _ | skip)

theorem Mod.bar2ReadAt_keepsMem (m : Mod) (a1 : Nat) (a2 : Nat) (a3 : Ecc) : Mod.keepsMem m (Mod.bar2ReadAt m a1 a2 a3) := by
  unfold Mod.bar2ReadAt
  repeat'
    first
      | with_reducible exact Mod.keepsMem_refl _
      | with_reducible assumption
      | (extract_lets +onlyGivenNames y; first | (refine Mod.keepsMem_cut y (fun hy => ?_) ?_; rotate_left; subst y; rotate_left; clear_value y) | (refine Mod.keepsMem_cut_fst y (fun hy => ?_) ?_; rotate_left; subst y; rotate_left; clear_value y) | clear_value y)
      | (with_reducible apply Mod.keepsMem_step (Mod.holdReq_keepsMem _ _ _))
      | (with_reducible apply Mod.keepsMem_step (Mod.readDev_keepsMem _ _ _ _))
      | (with_reducible apply Mod.keepsMem_step (Mod.keepsMem_of (Mod.yard_sameBut _ _ _ _ _) (by decide)))
      | (with_reducible apply Mod.keepsMem_step (Mod.keepsMem_of (Mod.emit_sameBut _ _) (by decide)))
      | split
      | dsimp only

theorem Mod.putOrHold_keepsMem (m : Mod) (a1 : Nat) (a2 : List (Option Byte)) (a3 : Ecc) : Mod.keepsMem m (Mod.putOrHold m a1 a2 a3) := by
  unfold Mod.putOrHold
  repeat'
    first
      | with_reducible exact Mod.keepsMem_refl _
      | with_reducible assumption
      | (extract_lets +onlyGivenNames y; first | (refine Mod.keepsMem_cut y (fun hy => ?_) ?_; rotate_left; subst y; rotate_left; clear_value y) | (refine Mod.keepsMem_cut_fst y (fun hy => ?_) ?_; rotate_left; subst y; rotate_left; clear_value y) | clear_value y)
      | (with_reducible apply Mod.keepsMem_step (Mod.holdReq_keepsMem _ _ _))
      | (with_reducible apply Mod.keepsMem_step (Mod.writeAt_keepsMem _ _ _ _))
      | (with_reducible apply Mod.keepsMem_step (Mod.eccDev_keepsMem _ _ _ _))
      | split
      | dsimp only

theorem Mod.bar2WriteAt_keepsMem (m : Mod) (a1 : Nat) (a2 : List (Option Byte)) (a3 : Ecc) (a4 : optParam YardSrc YardSrc.host) : Mod.keepsMem m (Mod.bar2WriteAt m a1 a2 a3 a4) := by
  unfold Mod.bar2WriteAt
  repeat'
    first
      | with_reducible exact Mod.keepsMem_refl _
      | with_reducible assumption
      | (extract_lets +onlyGivenNames y; first | (refine Mod.keepsMem_cut y (fun hy => ?_) ?_; rotate_left; subst y; rotate_left; clear_value y) | (refine Mod.keepsMem_cut_fst y (fun hy => ?_) ?_; rotate_left; subst y; rotate_left; clear_value y) | clear_value y)
      | (with_reducible apply Mod.keepsMem_step (Mod.eccDev_keepsMem _ _ _ _))
      | (with_reducible apply Mod.keepsMem_step (Mod.keepsMem_of (Mod.yard_sameBut _ _ _ _ _) (by decide)))
      | (with_reducible apply Mod.keepsMem_step (Mod.writeAt_keepsMem _ _ _ _))
      | (with_reducible apply Mod.keepsMem_step (Mod.keepsMem_of (Mod.raise_sameBut _ _ _ _ _ _ _) (by decide)))
      | (with_reducible apply Mod.keepsMem_step (Mod.keepsMem_of (Mod.fset_sameBut _ _ _ _ _) (by decide)))
      | (with_reducible apply Mod.keepsMem_step (Mod.putOrHold_keepsMem _ _ _ _))
      | split
      | dsimp only

theorem Mod.bistStart_keepsMem (m : Mod) (a1 : Nat) : Mod.keepsMem m (Mod.bistStart m a1) := by
  unfold Mod.bistStart
  repeat'
    first
      | with_reducible exact Mod.keepsMem_refl _
      | with_reducible assumption
      | (extract_lets +onlyGivenNames y; first | (refine Mod.keepsMem_cut y (fun hy => ?_) ?_; rotate_left; subst y; rotate_left; clear_value y) | (refine Mod.keepsMem_cut_fst y (fun hy => ?_) ?_; rotate_left; subst y; rotate_left; clear_value y) | subst y)
      | (with_reducible apply Mod.keepsMem_step (Mod.keepsMem_of (Mod.setCore_sameBut _ _ _) (by decide)))
      | (with_reducible apply Mod.keepsMem_step (Mod.keepsMem_of (Mod.fset_sameBut _ _ _ _ _) (by decide)))
      | split
      | dsimp only
      | ((with_reducible apply Mod.keepsMem_mk))
      | ((with_reducible apply Mod.keepsMem_parts); rotate_left; all_goals first | exact fun h => h | exact fun _ => Memory.wf_forget _ | exact Memory.wf_mark _ | exact Memory.wf_keep _ _ | exact Memory.wf_putWords _ _ | skip)

theorem Mod.moveUpTry_keepsMem (m : Mod) (a1 : Nat) (a2 : PoolWant) : Mod.keepsMem m (Mod.moveUpTry m a1 a2).1 := by
  unfold Mod.moveUpTry
  repeat'
    first
      | with_reducible exact Mod.keepsMem_refl _
      | with_reducible assumption
      | (extract_lets +onlyGivenNames y; first | (refine Mod.keepsMem_cut y (fun hy => ?_) ?_; rotate_left; subst y; rotate_left; clear_value y) | (refine Mod.keepsMem_cut_fst y (fun hy => ?_) ?_; rotate_left; subst y; rotate_left; clear_value y) | clear_value y)
      | (with_reducible apply Mod.keepsMem_step (Mod.keepsMem_of (Mod.setObj_sameBut _ _ _) (by decide)))
      | (with_reducible apply Mod.keepsMem_step (Mod.keepsMem_of (Mod.fsat_sameBut _ _ _ _ _) (by decide)))
      | (with_reducible apply Mod.keepsMem_step (Mod.keepsMem_of (Mod.evictFor_sameBut _ _ _ _) (by decide)))
      | (with_reducible apply Mod.keepsMem_step (Mod.openRuns_keepsMem _ _))
      | split
      | dsimp only
      | ((with_reducible apply Mod.keepsMem_mk))

theorem Mod.retryWaits_keepsMem (m : Mod) : Mod.keepsMem m (Mod.retryWaits m) := by
  unfold Mod.retryWaits
  repeat'
    first
      | with_reducible exact Mod.keepsMem_refl _
      | with_reducible assumption
      | (extract_lets +onlyGivenNames y; first | (refine Mod.keepsMem_cut y (fun hy => ?_) ?_; rotate_left; subst y; rotate_left; clear_value y) | (refine Mod.keepsMem_cut_fst y (fun hy => ?_) ?_; rotate_left; subst y; rotate_left; clear_value y) | clear_value y)
      | (with_reducible apply Mod.keepsMem_step (Mod.moveUpTry_keepsMem _ _ _))
      | split
      | ((with_reducible apply Mod.keepsMem_foldl); intro x e)
      | ((with_reducible apply Mod.keepsMem_foldl_fst); intro x e)
      | dsimp only
      | ((with_reducible apply Mod.keepsMem_mk))

theorem Mod.unpin_keepsMem (m : Mod) (a1 : Nat) : Mod.keepsMem m (Mod.unpin m a1) := by
  unfold Mod.unpin
  repeat'
    first
      | with_reducible exact Mod.keepsMem_refl _
      | with_reducible assumption
      | (extract_lets +onlyGivenNames y; first | (refine Mod.keepsMem_cut y (fun hy => ?_) ?_; rotate_left; subst y; rotate_left; clear_value y) | (refine Mod.keepsMem_cut_fst y (fun hy => ?_) ?_; rotate_left; subst y; rotate_left; clear_value y) | clear_value y)
      | (with_reducible apply Mod.keepsMem_step (Mod.retryWaits_keepsMem _))
      | (with_reducible apply Mod.keepsMem_step (Mod.keepsMem_of (Mod.writeBack_sameBut _ _ _) (by decide)))
      | (with_reducible apply Mod.keepsMem_step (Mod.keepsMem_of (Mod.setObj_sameBut _ _ _) (by decide)))
      | split
      | dsimp only

theorem Mod.tileUnpin_keepsMem (m : Mod) (a1 : StreamDesc) (a2 : TileRun) : Mod.keepsMem m (Mod.tileUnpin m a1 a2) := by
  unfold Mod.tileUnpin
  repeat'
    first
      | with_reducible exact Mod.keepsMem_refl _
      | with_reducible assumption
      | (extract_lets +onlyGivenNames y; first | (refine Mod.keepsMem_cut y (fun hy => ?_) ?_; rotate_left; subst y; rotate_left; clear_value y) | (refine Mod.keepsMem_cut_fst y (fun hy => ?_) ?_; rotate_left; subst y; rotate_left; clear_value y) | clear_value y)
      | (with_reducible apply Mod.keepsMem_step (Mod.unpin_keepsMem _ _))
      | split
      | ((with_reducible apply Mod.keepsMem_foldl); intro x e)
      | ((with_reducible apply Mod.keepsMem_foldl_fst); intro x e)
      | dsimp only
      | ((with_reducible apply Mod.keepsMem_mk))

theorem Mod.tilesAbandon_keepsMem (m : Mod) (a1 : StreamDesc) (a2 : List TileRun) : Mod.keepsMem m (Mod.tilesAbandon m a1 a2) := by
  unfold Mod.tilesAbandon
  repeat'
    first
      | with_reducible exact Mod.keepsMem_refl _
      | with_reducible assumption
      | (extract_lets +onlyGivenNames y; first | (refine Mod.keepsMem_cut y (fun hy => ?_) ?_; rotate_left; subst y; rotate_left; clear_value y) | (refine Mod.keepsMem_cut_fst y (fun hy => ?_) ?_; rotate_left; subst y; rotate_left; clear_value y) | clear_value y)
      | (with_reducible apply Mod.keepsMem_step (Mod.keepsMem_of (Mod.dropReads_sameBut _ _) (by decide)))
      | (with_reducible apply Mod.keepsMem_step (Mod.tileUnpin_keepsMem _ _ _))
      | (with_reducible apply Mod.keepsMem_step (Mod.keepsMem_of (Mod.setEngine_sameBut _ _ _) (by decide)))
      | split
      | ((with_reducible apply Mod.keepsMem_foldl); intro x e)
      | ((with_reducible apply Mod.keepsMem_foldl_fst); intro x e)
      | dsimp only

theorem Mod.ctxReplay_keepsMem (m : Mod) (a1 : StreamDesc) : Mod.keepsMem m (Mod.ctxReplay m a1) := by
  unfold Mod.ctxReplay
  repeat'
    first
      | with_reducible exact Mod.keepsMem_refl _
      | with_reducible assumption
      | (extract_lets +onlyGivenNames y; first | (refine Mod.keepsMem_cut y (fun hy => ?_) ?_; rotate_left; subst y; rotate_left; clear_value y) | (refine Mod.keepsMem_cut_fst y (fun hy => ?_) ?_; rotate_left; subst y; rotate_left; clear_value y) | clear_value y)
      | (with_reducible apply Mod.keepsMem_step (Mod.keepsMem_of (Mod.emptyOf_sameBut _ _ _) (by decide)))
      | (with_reducible apply Mod.keepsMem_step (Mod.tilesAbandon_keepsMem _ _ _))
      | (with_reducible apply Mod.keepsMem_step (Mod.keepsMem_of (Mod.snoopAbandon_sameBut _ _) (by decide)))
      | (with_reducible apply Mod.keepsMem_step (Mod.keepsMem_of (Mod.setCtx_sameBut _ _ _) (by decide)))
      | split
      | dsimp only

theorem Mod.stmReplay_keepsMem (m : Mod) : Mod.keepsMem m (Mod.stmReplay m) := by
  unfold Mod.stmReplay
  repeat'
    first
      | with_reducible exact Mod.keepsMem_refl _
      | with_reducible assumption
      | (extract_lets +onlyGivenNames y; first | (refine Mod.keepsMem_cut y (fun hy => ?_) ?_; rotate_left; subst y; rotate_left; clear_value y) | (refine Mod.keepsMem_cut_fst y (fun hy => ?_) ?_; rotate_left; subst y; rotate_left; clear_value y) | clear_value y)
      | (with_reducible apply Mod.keepsMem_step (Mod.ctxReplay_keepsMem _ _))
      | split
      | ((with_reducible apply Mod.keepsMem_foldl); intro x e)
      | ((with_reducible apply Mod.keepsMem_foldl_fst); intro x e)
      | dsimp only

theorem Mod.replayBegin_keepsMem (m : Mod) (a1 : VerdictRec) : Mod.keepsMem m (Mod.replayBegin m a1) := by
  unfold Mod.replayBegin
  repeat'
    first
      | with_reducible exact Mod.keepsMem_refl _
      | with_reducible assumption
      | (extract_lets +onlyGivenNames y; first | (refine Mod.keepsMem_cut y (fun hy => ?_) ?_; rotate_left; subst y; rotate_left; clear_value y) | (refine Mod.keepsMem_cut_fst y (fun hy => ?_) ?_; rotate_left; subst y; rotate_left; clear_value y) | clear_value y)
      | (with_reducible apply Mod.keepsMem_step (Mod.stmReplay_keepsMem _))
      | (with_reducible apply Mod.keepsMem_step (Mod.keepsMem_of (Mod.collReplay_sameBut _) (by decide)))
      | split
      | dsimp only
      | ((with_reducible apply Mod.keepsMem_mk))

theorem Mod.stepBoundary_keepsMem (m : Mod) : Mod.keepsMem m (Mod.stepBoundary m) := by
  unfold Mod.stepBoundary
  repeat'
    first
      | with_reducible exact Mod.keepsMem_refl _
      | with_reducible assumption
      | (extract_lets +onlyGivenNames y; first | (refine Mod.keepsMem_cut y (fun hy => ?_) ?_; rotate_left; subst y; rotate_left; clear_value y) | (refine Mod.keepsMem_cut_fst y (fun hy => ?_) ?_; rotate_left; subst y; rotate_left; clear_value y) | clear_value y)
      | (with_reducible apply Mod.keepsMem_step (Mod.replayBegin_keepsMem _ _))
      | (with_reducible apply Mod.keepsMem_step (Mod.keepsMem_of (Mod.actionsEnd_sameBut _) (by decide)))
      | (with_reducible apply Mod.keepsMem_step (Mod.keepsMem_of (Mod.gatesAll_sameBut _) (by decide)))
      | split
      | dsimp only

theorem Mod.unitBoundary_keepsMem (m : Mod) : Mod.keepsMem m (Mod.unitBoundary m) := by
  unfold Mod.unitBoundary
  repeat'
    first
      | with_reducible exact Mod.keepsMem_refl _
      | with_reducible assumption
      | (extract_lets +onlyGivenNames y; first | (refine Mod.keepsMem_cut y (fun hy => ?_) ?_; rotate_left; subst y; rotate_left; clear_value y) | (refine Mod.keepsMem_cut_fst y (fun hy => ?_) ?_; rotate_left; subst y; rotate_left; clear_value y) | clear_value y)
      | (with_reducible apply Mod.keepsMem_step (Mod.collProgress_keepsMem _ _))
      | (with_reducible apply Mod.keepsMem_step (Mod.keepsMem_of (Mod.fabUtil_sameBut _) (by decide)))
      | (with_reducible apply Mod.keepsMem_step (Mod.keepsMem_of (Mod.frameBoundary_sameBut _) (by decide)))
      | (with_reducible apply Mod.keepsMem_step (Mod.stepBoundary_keepsMem _))
      | (with_reducible apply Mod.keepsMem_step (Mod.keepsMem_of (Mod.endIndex_sameBut _) (by decide)))
      | (with_reducible apply Mod.keepsMem_step (Mod.keepsMem_of (Mod.countTicks_sameBut _) (by decide)))
      | split
      | dsimp only
      | ((with_reducible apply Mod.keepsMem_mk))

theorem Mod.boundary_keepsMem (m : Mod) (a1 : Nat) : Mod.keepsMem m (Mod.boundary m a1) := by
  unfold Mod.boundary
  repeat'
    first
      | with_reducible exact Mod.keepsMem_refl _
      | with_reducible assumption
      | (extract_lets +onlyGivenNames y; first | (refine Mod.keepsMem_cut y (fun hy => ?_) ?_; rotate_left; subst y; rotate_left; clear_value y) | (refine Mod.keepsMem_cut_fst y (fun hy => ?_) ?_; rotate_left; subst y; rotate_left; clear_value y) | clear_value y)
      | (with_reducible apply Mod.keepsMem_step (Mod.keepsMem_of (Mod.freezeWaiting_sameBut _) (by decide)))
      | (with_reducible apply Mod.keepsMem_step (Mod.keepsMem_of (Mod.perTick_sameBut _) (by decide)))
      | (with_reducible apply Mod.keepsMem_step (Mod.keepsMem_of (Mod.tickCount_sameBut _) (by decide)))
      | (with_reducible apply Mod.keepsMem_step (Mod.keepsMem_of (Mod.portBoundary_sameBut _) (by decide)))
      | (with_reducible apply Mod.keepsMem_step (Mod.unitBoundary_keepsMem _))
      | (with_reducible apply Mod.keepsMem_step (Mod.keepsMem_of (Mod.governBoundary_sameBut _ _) (by decide)))
      | (with_reducible apply Mod.keepsMem_step (Mod.keepsMem_of (Mod.takePeriod_sameBut _ _) (by decide)))
      | (with_reducible apply Mod.keepsMem_step (Mod.keepsMem_of (Mod.followUp_sameBut _) (by decide)))
      | (with_reducible apply Mod.keepsMem_step (Mod.keepsMem_of (Mod.takeBack_sameBut _) (by decide)))
      | (with_reducible apply Mod.keepsMem_step (Mod.keepsMem_of (Mod.markersSeen_sameBut _) (by decide)))
      | split
      | dsimp only
      | ((with_reducible apply Mod.keepsMem_mk))

theorem Mod.chkScan_keepsMem (m : Mod) (a1 : Nat) (a2 : Ecc) : Mod.keepsMem m (Mod.chkScan m a1 a2) := by
  unfold Mod.chkScan
  repeat'
    first
      | with_reducible exact Mod.keepsMem_refl _
      | with_reducible assumption
      | (extract_lets +onlyGivenNames y; first | (refine Mod.keepsMem_cut y (fun hy => ?_) ?_; rotate_left; subst y; rotate_left; clear_value y) | (refine Mod.keepsMem_cut_fst y (fun hy => ?_) ?_; rotate_left; subst y; rotate_left; clear_value y) | clear_value y)
      | (with_reducible apply Mod.keepsMem_step (Mod.readDev_keepsMem _ _ _ _))
      | (with_reducible apply Mod.keepsMem_step (Mod.keepsMem_of (Mod.yard_sameBut _ _ _ _ _) (by decide)))
      | (with_reducible apply Mod.keepsMem_step (Mod.keepsMem_of (Mod.setChk_sameBut _ _ _) (by decide)))
      | split
      | dsimp only

theorem Mod.chkHostStart_keepsMem (m : Mod) (a1 : Nat) (a2 : Ecc) : Mod.keepsMem m (Mod.chkHostStart m a1 a2) := by
  unfold Mod.chkHostStart
  repeat'
    first
      | with_reducible exact Mod.keepsMem_refl _
      | with_reducible assumption
      | (extract_lets +onlyGivenNames y; first | (refine Mod.keepsMem_cut y (fun hy => ?_) ?_; rotate_left; subst y; rotate_left; clear_value y) | (refine Mod.keepsMem_cut_fst y (fun hy => ?_) ?_; rotate_left; subst y; rotate_left; clear_value y) | clear_value y)
      | (with_reducible apply Mod.keepsMem_step (Mod.keepsMem_of (Mod.chkRefused_sameBut _ _ _ _) (by decide)))
      | (with_reducible apply Mod.keepsMem_step (Mod.chkScan_keepsMem _ _ _))
      | (with_reducible apply Mod.keepsMem_step (Mod.keepsMem_of (Mod.setChk_sameBut _ _ _) (by decide)))
      | split
      | dsimp only

theorem Mod.chkPlateStart_keepsMem (m : Mod) (a1 : Nat) (a2 : Ecc) : Mod.keepsMem m (Mod.chkPlateStart m a1 a2) := by
  unfold Mod.chkPlateStart
  repeat'
    first
      | with_reducible exact Mod.keepsMem_refl _
      | with_reducible assumption
      | (extract_lets +onlyGivenNames y; first | (refine Mod.keepsMem_cut y (fun hy => ?_) ?_; rotate_left; subst y; rotate_left; clear_value y) | (refine Mod.keepsMem_cut_fst y (fun hy => ?_) ?_; rotate_left; subst y; rotate_left; clear_value y) | clear_value y)
      | (with_reducible apply Mod.keepsMem_step (Mod.keepsMem_of (Mod.signal_sameBut _ _) (by decide)))
      | (with_reducible apply Mod.keepsMem_step (Mod.keepsMem_of (Mod.chkRefused_sameBut _ _ _ _) (by decide)))
      | (with_reducible apply Mod.keepsMem_step (Mod.chkScan_keepsMem _ _ _))
      | (with_reducible apply Mod.keepsMem_step (Mod.keepsMem_of (Mod.setChk_sameBut _ _ _) (by decide)))
      | (with_reducible apply Mod.keepsMem_step (Mod.keepsMem_of (Mod.chkShow_sameBut _ _ _) (by decide)))
      | split
      | dsimp only
      | ((with_reducible apply Mod.keepsMem_mk))

theorem Mod.poolCopy_keepsMem (m : Mod) (a1 : Nat) (a2 : PoolObj) (a3 : Bool) : Mod.keepsMem m (Mod.poolCopy m a1 a2 a3) := by
  unfold Mod.poolCopy
  repeat'
    first
      | with_reducible exact Mod.keepsMem_refl _
      | with_reducible assumption
      | (extract_lets +onlyGivenNames y; first | (refine Mod.keepsMem_cut y (fun hy => ?_) ?_; rotate_left; subst y; rotate_left; clear_value y) | (refine Mod.keepsMem_cut_fst y (fun hy => ?_) ?_; rotate_left; subst y; rotate_left; clear_value y) | clear_value y)
      | (with_reducible apply Mod.keepsMem_step (Mod.keepsMem_of (Mod.yard_sameBut _ _ _ _ _) (by decide)))
      | (with_reducible apply Mod.keepsMem_step (Mod.devWriteP_keepsMem _ _ _))
      | split
      | ((with_reducible apply Mod.keepsMem_foldl); intro x e)
      | ((with_reducible apply Mod.keepsMem_foldl_fst); intro x e)
      | dsimp only

theorem Mod.clearUnits_keepsMem (m : Mod) : Mod.keepsMem m (Mod.clearUnits m) := by
  unfold Mod.clearUnits
  repeat'
    first
      | with_reducible exact Mod.keepsMem_refl _
      | with_reducible assumption
      | (extract_lets +onlyGivenNames y; first | (refine Mod.keepsMem_cut y (fun hy => ?_) ?_; rotate_left; subst y; rotate_left; clear_value y) | (refine Mod.keepsMem_cut_fst y (fun hy => ?_) ?_; rotate_left; subst y; rotate_left; clear_value y) | clear_value y)
      | split
      | dsimp only
      | ((with_reducible apply Mod.keepsMem_mk))
      | ((with_reducible apply Mod.keepsMem_parts); rotate_left; all_goals first | exact fun h => h | exact fun _ => Memory.wf_forget _ | exact Memory.wf_mark _ | exact Memory.wf_keep _ _ | exact Memory.wf_putWords _ _ | skip)

theorem Mod.coldBegin_keepsMem (m : Mod) (a1 : Nat) : Mod.keepsMem m (Mod.coldBegin m a1) := by
  unfold Mod.coldBegin
  repeat'
    first
      | with_reducible exact Mod.keepsMem_refl _
      | with_reducible assumption
      | (extract_lets +onlyGivenNames y; first | (refine Mod.keepsMem_cut y (fun hy => ?_) ?_; rotate_left; subst y; rotate_left; clear_value y) | (refine Mod.keepsMem_cut_fst y (fun hy => ?_) ?_; rotate_left; subst y; rotate_left; clear_value y) | clear_value y)
      | (with_reducible apply Mod.keepsMem_step (Mod.keepsMem_of (Mod.resetCause_sameBut _ _ _) (by decide)))
      | (with_reducible apply Mod.keepsMem_step (Mod.keepsMem_of (Mod.fset_sameBut _ _ _ _ _) (by decide)))
      | split
      | dsimp only
      | ((with_reducible apply Mod.keepsMem_mk))
      | ((with_reducible apply Mod.keepsMem_parts); rotate_left; all_goals first | exact fun h => h | exact fun _ => Memory.wf_forget _ | exact Memory.wf_mark _ | exact Memory.wf_keep _ _ | exact Memory.wf_putWords _ _ | skip)

theorem Mod.setLoftPort_keepsMem (m : Mod) (a1 : Nat) (a2 : LoftPort) : Mod.keepsMem m (Mod.setLoftPort m a1 a2) := by
  unfold Mod.setLoftPort
  repeat'
    first
      | with_reducible exact Mod.keepsMem_refl _
      | with_reducible assumption
      | (extract_lets +onlyGivenNames y; first | (refine Mod.keepsMem_cut y (fun hy => ?_) ?_; rotate_left; subst y; rotate_left; clear_value y) | (refine Mod.keepsMem_cut_fst y (fun hy => ?_) ?_; rotate_left; subst y; rotate_left; clear_value y) | subst y)
      | split
      | dsimp only
      | ((with_reducible apply Mod.keepsMem_mk))
      | ((with_reducible apply Mod.keepsMem_parts); rotate_left; all_goals first | exact fun h => h | exact fun _ => Memory.wf_forget _ | exact Memory.wf_mark _ | exact Memory.wf_keep _ _ | exact Memory.wf_putWords _ _ | skip)

theorem Mod.loftAttach_keepsMem (m : Mod) (a1 : Nat) (a2 : Nat) (a3 : Nat) (a4 : Nat) (a5 : Bool) : Mod.keepsMem m (Mod.loftAttach m a1 a2 a3 a4 a5) := by
  unfold Mod.loftAttach
  repeat'
    first
      | with_reducible exact Mod.keepsMem_refl _
      | with_reducible assumption
      | (extract_lets +onlyGivenNames y; first | (refine Mod.keepsMem_cut y (fun hy => ?_) ?_; rotate_left; subst y; rotate_left; clear_value y) | (refine Mod.keepsMem_cut_fst y (fun hy => ?_) ?_; rotate_left; subst y; rotate_left; clear_value y) | clear_value y)
      | (with_reducible apply Mod.keepsMem_step (Mod.keepsMem_of (Mod.heldEnd_sameBut _ _) (by decide)))
      | (with_reducible apply Mod.keepsMem_step (Mod.keepsMem_of (Mod.loftReport_sameBut _ _ _ _ _) (by decide)))
      | (with_reducible apply Mod.keepsMem_step (Mod.keepsMem_of (Mod.set64_sameBut _ _ _ _ _) (by decide)))
      | (with_reducible apply Mod.keepsMem_step (Mod.setLoftPort_keepsMem _ _ _))
      | split
      | dsimp only

theorem Mod.train_keepsMem (m : Mod) (a1 : Boot) : Mod.keepsMem m (Mod.train m a1) := by
  unfold Mod.train
  repeat'
    first
      | with_reducible exact Mod.keepsMem_refl _
      | with_reducible assumption
      | (extract_lets +onlyGivenNames y; first | (refine Mod.keepsMem_cut y (fun hy => ?_) ?_; rotate_left; subst y; rotate_left; clear_value y) | (refine Mod.keepsMem_cut_fst y (fun hy => ?_) ?_; rotate_left; subst y; rotate_left; clear_value y) | subst y)
      | (with_reducible apply Mod.keepsMem_step (Mod.keepsMem_of (Mod.stackDown_sameBut _ _ _) (by decide)))
      | (with_reducible apply Mod.keepsMem_step (Mod.keepsMem_of (Mod.fset_sameBut _ _ _ _ _) (by decide)))
      | (with_reducible apply Mod.keepsMem_step (Mod.keepsMem_of (Mod.loftReport_sameBut _ _ _ _ _) (by decide)))
      | (with_reducible apply Mod.keepsMem_step (Mod.loftAttach_keepsMem _ _ _ _ _ _))
      | split
      | ((with_reducible apply Mod.keepsMem_foldl); intro x e)
      | ((with_reducible apply Mod.keepsMem_foldl_fst); intro x e)
      | dsimp only
      | ((with_reducible apply Mod.keepsMem_mk))
      | ((with_reducible apply Mod.keepsMem_parts); rotate_left; all_goals first | exact fun h => h | exact fun _ => Memory.wf_forget _ | exact Memory.wf_mark _ | exact Memory.wf_keep _ _ | exact Memory.wf_putWords _ _ | skip)

theorem Mod.coldEnd_keepsMem (m : Mod) (a1 : Boot) : Mod.keepsMem m (Mod.coldEnd m a1) := by
  unfold Mod.coldEnd
  repeat'
    first
      | with_reducible exact Mod.keepsMem_refl _
      | with_reducible assumption
      | (extract_lets +onlyGivenNames y; first | (refine Mod.keepsMem_cut y (fun hy => ?_) ?_; rotate_left; subst y; rotate_left; clear_value y) | (refine Mod.keepsMem_cut_fst y (fun hy => ?_) ?_; rotate_left; subst y; rotate_left; clear_value y) | clear_value y)
      | (with_reducible apply Mod.keepsMem_step (Mod.keepsMem_of (Mod.release_sameBut _) (by decide)))
      | (with_reducible apply Mod.keepsMem_step (Mod.keepsMem_of (Mod.raisePrior_sameBut _) (by decide)))
      | (with_reducible apply Mod.keepsMem_step (Mod.keepsMem_of (Mod.bootChain_sameBut _ _) (by decide)))
      | (with_reducible apply Mod.keepsMem_step (Mod.train_keepsMem _ _))
      | (with_reducible apply Mod.keepsMem_step (Mod.keepsMem_of (Mod.selfTest_sameBut _ _) (by decide)))
      | (with_reducible apply Mod.keepsMem_step (Mod.keepsMem_of (Mod.setBudget_sameBut _) (by decide)))
      | split
      | dsimp only
      | ((with_reducible apply Mod.keepsMem_mk))

theorem Mod.collFlit_keepsMem (m : Mod) (a1 : Ecc) : Mod.keepsMem m (Mod.collFlit m a1) := by
  unfold Mod.collFlit
  repeat'
    first
      | with_reducible exact Mod.keepsMem_refl _
      | with_reducible assumption
      | (extract_lets +onlyGivenNames y; first | (refine Mod.keepsMem_cut y (fun hy => ?_) ?_; rotate_left; subst y; rotate_left; clear_value y) | (refine Mod.keepsMem_cut_fst y (fun hy => ?_) ?_; rotate_left; subst y; rotate_left; clear_value y) | clear_value y)
      | (with_reducible apply Mod.keepsMem_step (Mod.collProgress_keepsMem _ _))
      | (with_reducible apply Mod.keepsMem_step (Mod.keepsMem_of (Mod.bufferFlit_sameBut _ _) (by decide)))
      | (with_reducible apply Mod.keepsMem_step (Mod.keepsMem_of (Mod.collStale_sameBut _ _) (by decide)))
      | exact Mod.keepsMem_of (Mod.takeFlit_some (m := m) (p := _) (by assumption)) (by decide)
      | exact Mod.keepsMem_of (Mod.takeFlit_some (Option.ite_none_left_eq_some.1 ‹_›).2) (by decide)
      | split
      | dsimp only

theorem Mod.mergeDev_keepsMem (m : Mod) (a1 : Bool) (a2 : Nat) (a3 : Nat) (a4 : Ecc) : Mod.keepsMem m (Mod.mergeDev m a1 a2 a3 a4) := by
  unfold Mod.mergeDev
  repeat'
    first
      | with_reducible exact Mod.keepsMem_refl _
      | with_reducible assumption
      | (extract_lets +onlyGivenNames y; first | (refine Mod.keepsMem_cut y (fun hy => ?_) ?_; rotate_left; subst y; rotate_left; clear_value y) | (refine Mod.keepsMem_cut_fst y (fun hy => ?_) ?_; rotate_left; subst y; rotate_left; clear_value y) | clear_value y)
      | (with_reducible apply Mod.keepsMem_step (Mod.eccDev_keepsMem _ _ _ _))
      | split
      | dsimp only

theorem Mod.writeIdentity_keepsMem (m : Mod) (a1 : Precond) (a2 : Ecc) : Mod.keepsMem m (Mod.writeIdentity m a1 a2) := by
  unfold Mod.writeIdentity
  repeat'
    first
      | with_reducible exact Mod.keepsMem_refl _
      | with_reducible assumption
      | (extract_lets +onlyGivenNames y; first | (refine Mod.keepsMem_cut y (fun hy => ?_) ?_; rotate_left; subst y; rotate_left; clear_value y) | (refine Mod.keepsMem_cut_fst y (fun hy => ?_) ?_; rotate_left; subst y; rotate_left; clear_value y) | clear_value y)
      | (with_reducible apply Mod.keepsMem_step (Mod.devWrite_keepsMem _ _ _))
      | (with_reducible apply Mod.keepsMem_step (Mod.mergeDev_keepsMem _ _ _ _ _))
      | split
      | dsimp only

theorem Mod.precondCheck_keepsMem (m : Mod) (a1 : Precond) (a2 : Ecc) : Mod.keepsMem m (Mod.precondCheck m a1 a2) := by
  unfold Mod.precondCheck
  repeat'
    first
      | with_reducible exact Mod.keepsMem_refl _
      | with_reducible assumption
      | (extract_lets +onlyGivenNames y; first | (refine Mod.keepsMem_cut y (fun hy => ?_) ?_; rotate_left; subst y; rotate_left; clear_value y) | (refine Mod.keepsMem_cut_fst y (fun hy => ?_) ?_; rotate_left; subst y; rotate_left; clear_value y) | clear_value y)
      | (with_reducible apply Mod.keepsMem_step (Mod.unitRead_keepsMem _ _ _ _ _))
      | (with_reducible apply Mod.keepsMem_step (Mod.keepsMem_of (Mod.flipAt_sameBut _ _) (by decide)))
      | (with_reducible apply Mod.keepsMem_step (Mod.writeIdentity_keepsMem _ _ _))
      | (with_reducible apply Mod.keepsMem_step (Mod.keepsMem_of (Mod.fset_sameBut _ _ _ _ _) (by decide)))
      | (with_reducible apply Mod.keepsMem_step (Mod.keepsMem_of (Mod.fsat_sameBut _ _ _ _ _) (by decide)))
      | (with_reducible apply Mod.keepsMem_step (Mod.keepsMem_of (Mod.raise_sameBut _ _ _ _ _ _ _) (by decide)))
      | split
      | dsimp only
      | ((with_reducible apply Mod.keepsMem_mk))

theorem Mod.precondChecks_keepsMem (m : Mod) (a1 : Ecc) : Mod.keepsMem m (Mod.precondChecks m a1) := by
  unfold Mod.precondChecks
  repeat'
    first
      | with_reducible exact Mod.keepsMem_refl _
      | with_reducible assumption
      | (extract_lets +onlyGivenNames y; first | (refine Mod.keepsMem_cut y (fun hy => ?_) ?_; rotate_left; subst y; rotate_left; clear_value y) | (refine Mod.keepsMem_cut_fst y (fun hy => ?_) ?_; rotate_left; subst y; rotate_left; clear_value y) | clear_value y)
      | (with_reducible apply Mod.keepsMem_step (Mod.precondCheck_keepsMem _ _ _))
      | split
      | ((with_reducible apply Mod.keepsMem_foldl); intro x e)
      | ((with_reducible apply Mod.keepsMem_foldl_fst); intro x e)
      | dsimp only

theorem Mod.commitActions_keepsMem (m : Mod) (a1 : VerdictRec) (a2 : Ecc) : Mod.keepsMem m (Mod.commitActions m a1 a2) := by
  unfold Mod.commitActions
  repeat'
    first
      | with_reducible exact Mod.keepsMem_refl _
      | with_reducible assumption
      | (extract_lets +onlyGivenNames y; first | (refine Mod.keepsMem_cut y (fun hy => ?_) ?_; rotate_left; subst y; rotate_left; clear_value y) | (refine Mod.keepsMem_cut_fst y (fun hy => ?_) ?_; rotate_left; subst y; rotate_left; clear_value y) | clear_value y)
      | (with_reducible apply Mod.keepsMem_step (Mod.precondChecks_keepsMem _ _))
      | (with_reducible apply Mod.keepsMem_step (Mod.keepsMem_of (Mod.flipAll_sameBut _ _) (by decide)))
      | (with_reducible apply Mod.keepsMem_step (Mod.keepsMem_of (Mod.fset_sameBut _ _ _ _ _) (by decide)))
      | split
      | dsimp only
      | ((with_reducible apply Mod.keepsMem_mk))

theorem Mod.opdRead_keepsMem (m : Mod) (a1 : Nat) (a2 : Nat) (a3 : StableRec) (a4 : Operand) (a5 : Nat) (a6 : Nat) (a7 : Ecc) : Mod.keepsMem m (Mod.opdRead m a1 a2 a3 a4 a5 a6 a7).1 := by
  unfold Mod.opdRead
  repeat'
    first
      | with_reducible exact Mod.keepsMem_refl _
      | with_reducible assumption
      | (extract_lets +onlyGivenNames y; first | (refine Mod.keepsMem_cut y (fun hy => ?_) ?_; rotate_left; subst y; rotate_left; clear_value y) | (refine Mod.keepsMem_cut_fst y (fun hy => ?_) ?_; rotate_left; subst y; rotate_left; clear_value y) | clear_value y)
      | (with_reducible apply Mod.keepsMem_step (Mod.unitRead_keepsMem _ _ _ _ _))
      | (with_reducible apply Mod.keepsMem_step (Mod.keepsMem_of (Mod.yard_sameBut _ _ _ _ _) (by decide)))
      | (with_reducible apply Mod.keepsMem_step (Mod.sramErrors_keepsMem _ _ _ _ _))
      | split
      | dsimp only

theorem Mod.sramWrite_keepsMem (m : Mod) (a1 a2 : Nat) (a3 : List Byte) : Mod.keepsMem m (Mod.sramWrite m a1 a2 a3) := Mod.memWf_sramWrite a1 a2 a3

theorem Mod.opdWrite_keepsMem (m : Mod) (a1 : Nat) (a2 : StableRec) (a3 : Operand) (a4 : Nat) (a5 : List (Prod Byte Bool)) (a6 : Ecc) : Mod.keepsMem m (Mod.opdWrite m a1 a2 a3 a4 a5 a6) := by
  unfold Mod.opdWrite
  repeat'
    first
      | with_reducible exact Mod.keepsMem_refl _
      | with_reducible assumption
      | (extract_lets +onlyGivenNames y; first | (refine Mod.keepsMem_cut y (fun hy => ?_) ?_; rotate_left; subst y; rotate_left; clear_value y) | (refine Mod.keepsMem_cut_fst y (fun hy => ?_) ?_; rotate_left; subst y; rotate_left; clear_value y) | clear_value y)
      | (with_reducible apply Mod.keepsMem_step (Mod.devWriteP_keepsMem _ _ _))
      | (with_reducible apply Mod.keepsMem_step (Mod.mergeDev_keepsMem _ _ _ _ _))
      | (with_reducible apply Mod.keepsMem_step (Mod.keepsMem_of (Mod.yard_sameBut _ _ _ _ _) (by decide)))
      | (with_reducible apply Mod.keepsMem_step (Mod.sramWrite_keepsMem _ _ _ _))
      | split
      | dsimp only

theorem Mod.copyWork_keepsMem (m : Mod) (a1 : Nat) (a2 : Nat) (a3 : StableRec) (a4 : Kernel) (a5 : Ecc) : Mod.keepsMem m (Mod.copyWork m a1 a2 a3 a4 a5) := by
  unfold Mod.copyWork
  repeat'
    first
      | with_reducible exact Mod.keepsMem_refl _
      | with_reducible assumption
      | (extract_lets +onlyGivenNames y; first | (refine Mod.keepsMem_cut y (fun hy => ?_) ?_; rotate_left; subst y; rotate_left; clear_value y) | (refine Mod.keepsMem_cut_fst y (fun hy => ?_) ?_; rotate_left; subst y; rotate_left; clear_value y) | clear_value y)
      | (with_reducible apply Mod.keepsMem_step (Mod.opdRead_keepsMem _ _ _ _ _ _ _ _))
      | (with_reducible apply Mod.keepsMem_step (Mod.opdWrite_keepsMem _ _ _ _ _ _ _))
      | split
      | ((with_reducible apply Mod.keepsMem_foldl); intro x e)
      | ((with_reducible apply Mod.keepsMem_foldl_fst); intro x e)
      | dsimp only

theorem Mod.coreEnd_keepsMem (m : Mod) (a1 : Nat) : Mod.keepsMem m (Mod.coreEnd m a1) := by
  unfold Mod.coreEnd
  repeat'
    first
      | with_reducible exact Mod.keepsMem_refl _
      | with_reducible assumption
      | (extract_lets +onlyGivenNames y; first | (refine Mod.keepsMem_cut y (fun hy => ?_) ?_; rotate_left; subst y; rotate_left; clear_value y) | (refine Mod.keepsMem_cut_fst y (fun hy => ?_) ?_; rotate_left; subst y; rotate_left; clear_value y) | clear_value y)
      | (with_reducible apply Mod.keepsMem_step (Mod.sramErrors_keepsMem _ _ _ _ _))
      | (with_reducible apply Mod.keepsMem_step (Mod.kernelResult_keepsMem _ _ _))
      | (with_reducible apply Mod.keepsMem_step (Mod.keepsMem_of (Mod.setCore_sameBut _ _ _) (by decide)))
      | (with_reducible apply Mod.keepsMem_step (Mod.keepsMem_of (Mod.workDone_sameBut _ _) (by decide)))
      | split
      | dsimp only

theorem Mod.ctxVerdict_keepsMem (m : Mod) (a1 : StreamDesc) : Mod.keepsMem m (Mod.ctxVerdict m a1) := by
  unfold Mod.ctxVerdict
  repeat'
    first
      | with_reducible exact Mod.keepsMem_refl _
      | with_reducible assumption
      | (extract_lets +onlyGivenNames y; first | (refine Mod.keepsMem_cut y (fun hy => ?_) ?_; rotate_left; subst y; rotate_left; clear_value y) | (refine Mod.keepsMem_cut_fst y (fun hy => ?_) ?_; rotate_left; subst y; rotate_left; clear_value y) | clear_value y)
      | (with_reducible apply Mod.keepsMem_step (Mod.keepsMem_of (Mod.emptyOf_sameBut _ _ _) (by decide)))
      | (with_reducible apply Mod.keepsMem_step (Mod.tilesAbandon_keepsMem _ _ _))
      | (with_reducible apply Mod.keepsMem_step (Mod.keepsMem_of (Mod.snoopAbandon_sameBut _ _) (by decide)))
      | (with_reducible apply Mod.keepsMem_step (Mod.keepsMem_of (Mod.setCtx_sameBut _ _ _) (by decide)))
      | split
      | dsimp only

theorem Mod.trainStore_keepsMem (m : Mod) (a1 : Nat) (a2 : Binding) (a3 : PassEnv) (a4 : Nat) (a5 : Nat) (a6 : Prod Nat Bool) (a7 : Elem) (a8 : Bool) (a9 : GPass) : Mod.keepsMem m (Mod.trainStore m a1 a2 a3 a4 a5 a6 a7 a8 a9).1 := by
  unfold Mod.trainStore
  repeat'
    first
      | with_reducible exact Mod.keepsMem_refl _
      | with_reducible assumption
      | (extract_lets +onlyGivenNames y; first | (refine Mod.keepsMem_cut y (fun hy => ?_) ?_; rotate_left; subst y; rotate_left; clear_value y) | (refine Mod.keepsMem_cut_fst y (fun hy => ?_) ?_; rotate_left; subst y; rotate_left; clear_value y) | clear_value y)
      | (with_reducible apply Mod.keepsMem_step (Mod.planePut_keepsMem _ _ _ _ _ _ _))
      | (with_reducible apply Mod.keepsMem_step (Mod.keepsMem_of (Mod.groomFlags_sameBut _ _ _) (by decide)))
      | split
      | ((with_reducible apply Mod.keepsMem_foldl); intro x e)
      | ((with_reducible apply Mod.keepsMem_foldl_fst); intro x e)
      | dsimp only

theorem Mod.passElem_keepsMem (m : Mod) (a1 : Nat) (a2 : Binding) (a3 : PassEnv) (a4 : Nat) (a5 : Nat) (a6 : Prod Nat Bool) (a7 : Prod Nat Bool) (a8 : GPass) : Mod.keepsMem m (Mod.passElem m a1 a2 a3 a4 a5 a6 a7 a8).1 := by
  unfold Mod.passElem
  repeat'
    first
      | with_reducible exact Mod.keepsMem_refl _
      | with_reducible assumption
      | (extract_lets +onlyGivenNames y; first | (refine Mod.keepsMem_cut y (fun hy => ?_) ?_; rotate_left; subst y; rotate_left; clear_value y) | (refine Mod.keepsMem_cut_fst y (fun hy => ?_) ?_; rotate_left; subst y; rotate_left; clear_value y) | clear_value y)
      | (with_reducible apply Mod.keepsMem_step (Mod.heldElem_keepsMem _ _ _ _ _ _ _ _))
      | (with_reducible apply Mod.keepsMem_step (Mod.trainStore_keepsMem _ _ _ _ _ _ _ _ _ _))
      | split
      | dsimp only

theorem Mod.sliceWork_keepsMem (m : Mod) (a1 : Nat) (a2 : GPass) (a3 : Binding) (a4 : SliceEnt) (a5 : GSlice) (a6 : PassEnv) : Mod.keepsMem m (Mod.sliceWork m a1 a2 a3 a4 a5 a6).1 := by
  unfold Mod.sliceWork
  repeat'
    first
      | with_reducible exact Mod.keepsMem_refl _
      | with_reducible assumption
      | (extract_lets +onlyGivenNames y; first | (refine Mod.keepsMem_cut y (fun hy => ?_) ?_; rotate_left; subst y; rotate_left; clear_value y) | (refine Mod.keepsMem_cut_fst y (fun hy => ?_) ?_; rotate_left; subst y; rotate_left; clear_value y) | clear_value y)
      | (with_reducible apply Mod.keepsMem_step (Mod.openRow_keepsMem _ _ _ _ _))
      | (with_reducible apply Mod.keepsMem_step (Mod.passElem_keepsMem _ _ _ _ _ _ _ _ _))
      | (with_reducible apply Mod.keepsMem_step (Mod.sliceOpen_keepsMem _ _ _ _ _))
      | split
      | ((with_reducible apply Mod.keepsMem_foldl); intro x e)
      | ((with_reducible apply Mod.keepsMem_foldl_fst); intro x e)
      | dsimp only

theorem Mod.passFinish_keepsMem (m : Mod) (a1 : Nat) (a2 : GPass) (a3 : Binding) (a4 : PassEnv) : Mod.keepsMem m (Mod.passFinish m a1 a2 a3 a4) := by
  unfold Mod.passFinish
  repeat'
    first
      | with_reducible exact Mod.keepsMem_refl _
      | with_reducible assumption
      | (extract_lets +onlyGivenNames y; first | (refine Mod.keepsMem_cut y (fun hy => ?_) ?_; rotate_left; subst y; rotate_left; clear_value y) | (refine Mod.keepsMem_cut_fst y (fun hy => ?_) ?_; rotate_left; subst y; rotate_left; clear_value y) | clear_value y)
      | (with_reducible apply Mod.keepsMem_step (Mod.heldElem_keepsMem _ _ _ _ _ _ _ _))
      | (with_reducible apply Mod.keepsMem_step (Mod.openRuns_keepsMem _ _))
      | (with_reducible apply Mod.keepsMem_step (Mod.keepsMem_of (Mod.passPoison_sameBut _ _ _) (by decide)))
      | (with_reducible apply Mod.keepsMem_step (Mod.keepsMem_of (Mod.passEnd_sameBut _ _ _ _) (by decide)))
      | (with_reducible apply Mod.keepsMem_step (Mod.keepsMem_of (Mod.setGroom_sameBut _ _ _) (by decide)))
      | split
      | ((with_reducible apply Mod.keepsMem_foldl); intro x e)
      | ((with_reducible apply Mod.keepsMem_foldl_fst); intro x e)
      | dsimp only

theorem Mod.deferredElem_keepsMem (m : Mod) (a1 : Binding) (a2 : PassEnv) (a3 : Nat) (a4 : Nat) (a5 : Option Nat) (a6 : GPass) : Mod.keepsMem m (Mod.deferredElem m a1 a2 a3 a4 a5 a6).1 := by
  unfold Mod.deferredElem
  repeat'
    first
      | with_reducible exact Mod.keepsMem_refl _
      | with_reducible assumption
      | (extract_lets +onlyGivenNames y; first | (refine Mod.keepsMem_cut y (fun hy => ?_) ?_; rotate_left; subst y; rotate_left; clear_value y) | (refine Mod.keepsMem_cut_fst y (fun hy => ?_) ?_; rotate_left; subst y; rotate_left; clear_value y) | clear_value y)
      | (with_reducible apply Mod.keepsMem_step (Mod.passElem_keepsMem _ _ _ _ _ _ _ _ _))
      | (with_reducible apply Mod.keepsMem_step (Mod.heldElem_keepsMem _ _ _ _ _ _ _ _))
      | (with_reducible apply Mod.keepsMem_step (Mod.keepsMem_of (Mod.setGroom_sameBut _ _ _) (by decide)))
      | split
      | dsimp only

theorem Mod.deferredElems_keepsMem (a0 : Binding) (a1 : PassEnv) (a2 : List (Prod Nat (Prod Nat (Option Nat)))) (m : Mod) (a4 : GPass) : Mod.keepsMem m (Mod.deferredElems a0 a1 a2 m a4).1 := by
  fun_induction Mod.deferredElems a0 a1 a2 m a4
  repeat'
    first
      | with_reducible exact Mod.keepsMem_refl _
      | with_reducible assumption
      | (extract_lets +onlyGivenNames y; first | (refine Mod.keepsMem_cut y (fun hy => ?_) ?_; rotate_left; subst y; rotate_left; clear_value y) | (refine Mod.keepsMem_cut_fst y (fun hy => ?_) ?_; rotate_left; subst y; rotate_left; clear_value y) | clear_value y)
      | (with_reducible apply Mod.keepsMem_step (Mod.deferredElem_keepsMem _ _ _ _ _ _ _))
      | with_reducible refine Mod.keepsMem_trans ?_ (by assumption)
      | split
      | dsimp only

theorem Mod.deferredSlices_keepsMem (a0 : Nat) (a1 : Binding) (a2 : PassEnv) (a3 : StepHist) (a4 : List (Prod Nat Nat)) (m : Mod) (a6 : GPass) : Mod.keepsMem m (Mod.deferredSlices a0 a1 a2 a3 a4 m a6).1 := by
  induction a4 generalizing m a6 with
  | nil =>
    unfold Mod.deferredSlices
    exact Mod.deferredElems_keepsMem _ _ _ _ _
  | cons x rest ih =>
    unfold Mod.deferredSlices
    split
    · split
      · split
        · exact Mod.keepsMem_refl _
        · exact Mod.keepsMem_refl _
        · rename_i vs fl _
          extract_lets sl todo y
          have hy : Mod.keepsMem m y.1 := Mod.keepsMem_step (Mod.deferredElems_keepsMem _ _ _ _ _)
            (Mod.keepsMem_of (Mod.groomFlags_sameBut m a1.unit fl) (by decide))
          clear_value y
          split
          · exact Mod.keepsMem_trans hy (ih _ _)
          · exact hy
      · exact Mod.keepsMem_refl _
    · exact Mod.keepsMem_refl _

theorem Mod.deferredGo_keepsMem (m : Mod) (a1 : Nat) (a2 : Binding) (a3 : StepHist) (a4 : GPass) (a5 : Ecc) : Mod.keepsMem m (Mod.deferredGo m a1 a2 a3 a4 a5) := by
  unfold Mod.deferredGo
  repeat'
    first
      | with_reducible exact Mod.keepsMem_refl _
      | with_reducible assumption
      | (extract_lets +onlyGivenNames y; first | (refine Mod.keepsMem_cut y (fun hy => ?_) ?_; rotate_left; subst y; rotate_left; clear_value y) | (refine Mod.keepsMem_cut_fst y (fun hy => ?_) ?_; rotate_left; subst y; rotate_left; clear_value y) | clear_value y)
      | (with_reducible apply Mod.keepsMem_step (Mod.eccDev_keepsMem _ _ _ _))
      | (with_reducible apply Mod.keepsMem_step (Mod.deferredSlices_keepsMem _ _ _ _ _ _ _))
      | (with_reducible apply Mod.keepsMem_step (Mod.keepsMem_of (Mod.setGroom_sameBut _ _ _) (by decide)))
      | (with_reducible apply Mod.keepsMem_step (Mod.keepsMem_of (Mod.entriesDone_sameBut _ _ _) (by decide)))
      | (with_reducible apply Mod.keepsMem_step (Mod.keepsMem_of (Mod.passEnd_sameBut _ _ _ _) (by decide)))
      | (with_reducible apply Mod.keepsMem_step (Mod.keepsMem_of (Mod.deferredSettle_sameBut _) (by decide)))
      | (with_reducible apply Mod.keepsMem_step (Mod.keepsMem_of (Mod.deferredLost_sameBut _ _ _ _) (by decide)))
      | split
      | dsimp only
      | ((with_reducible apply Mod.keepsMem_mk))

theorem Mod.deferredPass_keepsMem (m : Mod) (a1 : Nat) (a2 : Ecc) : Mod.keepsMem m (Mod.deferredPass m a1 a2) := by
  unfold Mod.deferredPass
  repeat'
    first
      | with_reducible exact Mod.keepsMem_refl _
      | with_reducible assumption
      | (extract_lets +onlyGivenNames y; first | (refine Mod.keepsMem_cut y (fun hy => ?_) ?_; rotate_left; subst y; rotate_left; clear_value y) | (refine Mod.keepsMem_cut_fst y (fun hy => ?_) ?_; rotate_left; subst y; rotate_left; clear_value y) | clear_value y)
      | (with_reducible apply Mod.keepsMem_step (Mod.deferredGo_keepsMem _ _ _ _ _ _))
      | split
      | dsimp only

theorem Mod.watchMerge_keepsMem (m : Mod) (a1 : Nat) (a2 : WatchRec) (a3 : Nat) (a4 : Ecc) : Mod.keepsMem m (Mod.watchMerge m a1 a2 a3 a4) := by
  unfold Mod.watchMerge
  repeat'
    first
      | with_reducible exact Mod.keepsMem_refl _
      | with_reducible assumption
      | (extract_lets +onlyGivenNames y; first | (refine Mod.keepsMem_cut y (fun hy => ?_) ?_; rotate_left; subst y; rotate_left; clear_value y) | (refine Mod.keepsMem_cut_fst y (fun hy => ?_) ?_; rotate_left; subst y; rotate_left; clear_value y) | clear_value y)
      | (with_reducible apply Mod.keepsMem_step (Mod.unitRead_keepsMem _ _ _ _ _))
      | (with_reducible apply Mod.keepsMem_step (Mod.keepsMem_of (Mod.numEvent_sameBut _ _ _ _ _) (by decide)))
      | (with_reducible apply Mod.keepsMem_step (Mod.keepsMem_of (Mod.fset_sameBut _ _ _ _ _) (by decide)))
      | (with_reducible apply Mod.keepsMem_step (Mod.devWrite_keepsMem _ _ _))
      | (with_reducible apply Mod.keepsMem_step (Mod.keepsMem_of (Mod.watchEvents_sameBut _ _ _ _) (by decide)))
      | split
      | dsimp only

theorem Mod.takePending_keepsMem (m : Mod) (a1 : Nat) (a2 : Ecc) : Mod.keepsMem m (Mod.takePending m a1 a2) := by
  unfold Mod.takePending
  repeat'
    first
      | with_reducible exact Mod.keepsMem_refl _
      | with_reducible assumption
      | (extract_lets +onlyGivenNames y; first | (refine Mod.keepsMem_cut y (fun hy => ?_) ?_; rotate_left; subst y; rotate_left; clear_value y) | (refine Mod.keepsMem_cut_fst y (fun hy => ?_) ?_; rotate_left; subst y; rotate_left; clear_value y) | clear_value y)
      | (with_reducible apply Mod.keepsMem_step (Mod.eccDev_keepsMem _ _ _ _))
      | (with_reducible apply Mod.keepsMem_step (Mod.devWriteP_keepsMem _ _ _))
      | split
      | dsimp only

theorem Mod.normWrite_keepsMem (m : Mod) (a1 : Nat) (a2 : Nat) (a3 : Nat) (a4 : List Nat) (a5 : Nat) : Mod.keepsMem m (Mod.normWrite m a1 a2 a3 a4 a5) := by
  unfold Mod.normWrite
  repeat'
    first
      | with_reducible exact Mod.keepsMem_refl _
      | with_reducible assumption
      | (extract_lets +onlyGivenNames y; first | (refine Mod.keepsMem_cut y (fun hy => ?_) ?_; rotate_left; subst y; rotate_left; clear_value y) | (refine Mod.keepsMem_cut_fst y (fun hy => ?_) ?_; rotate_left; subst y; rotate_left; clear_value y) | clear_value y)
      | (with_reducible apply Mod.keepsMem_step (Mod.devWrite_keepsMem _ _ _))
      | (with_reducible apply Mod.keepsMem_step (Mod.keepsMem_of (Mod.numEvent_sameBut _ _ _ _ _) (by decide)))
      | (with_reducible apply Mod.keepsMem_step (Mod.keepsMem_of (Mod.fset_sameBut _ _ _ _ _) (by decide)))
      | split
      | dsimp only

theorem Mod.normGroup_keepsMem (m : Mod) (a1 : Nat) (a2 : Nat) (a3 : PassDone → Bool) : Mod.keepsMem m (Mod.normGroup m a1 a2 a3) := by
  unfold Mod.normGroup
  repeat'
    first
      | with_reducible exact Mod.keepsMem_refl _
      | with_reducible assumption
      | (extract_lets +onlyGivenNames y; first | (refine Mod.keepsMem_cut y (fun hy => ?_) ?_; rotate_left; subst y; rotate_left; clear_value y) | (refine Mod.keepsMem_cut_fst y (fun hy => ?_) ?_; rotate_left; subst y; rotate_left; clear_value y) | clear_value y)
      | (with_reducible apply Mod.keepsMem_step (Mod.keepsMem_of (Mod.groomFlags_sameBut _ _ _) (by decide)))
      | (with_reducible apply Mod.keepsMem_step (Mod.normWrite_keepsMem _ _ _ _ _ _))
      | split
      | ((with_reducible apply Mod.keepsMem_foldl); intro x e)
      | ((with_reducible apply Mod.keepsMem_foldl_fst); intro x e)
      | dsimp only

theorem Mod.normAll_keepsMem (m : Mod) (a1 : Nat) (a2 : PassDone → Bool) : Mod.keepsMem m (Mod.normAll m a1 a2) := by
  unfold Mod.normAll
  repeat'
    first
      | with_reducible exact Mod.keepsMem_refl _
      | with_reducible assumption
      | (extract_lets +onlyGivenNames y; first | (refine Mod.keepsMem_cut y (fun hy => ?_) ?_; rotate_left; subst y; rotate_left; clear_value y) | (refine Mod.keepsMem_cut_fst y (fun hy => ?_) ?_; rotate_left; subst y; rotate_left; clear_value y) | clear_value y)
      | (with_reducible apply Mod.keepsMem_step (Mod.normGroup_keepsMem _ _ _ _))
      | split
      | ((with_reducible apply Mod.keepsMem_foldl); intro x e)
      | ((with_reducible apply Mod.keepsMem_foldl_fst); intro x e)
      | dsimp only

theorem Mod.mergeAll_keepsMem (m : Mod) (a1 : PassDone → Bool) (a2 : Ecc) : Mod.keepsMem m (Mod.mergeAll m a1 a2) := by
  unfold Mod.mergeAll
  repeat'
    first
      | with_reducible exact Mod.keepsMem_refl _
      | with_reducible assumption
      | (extract_lets +onlyGivenNames y; first | (refine Mod.keepsMem_cut y (fun hy => ?_) ?_; rotate_left; subst y; rotate_left; clear_value y) | (refine Mod.keepsMem_cut_fst y (fun hy => ?_) ?_; rotate_left; subst y; rotate_left; clear_value y) | clear_value y)
      | (with_reducible apply Mod.keepsMem_step (Mod.watchMerge_keepsMem _ _ _ _ _))
      | (with_reducible apply Mod.keepsMem_step (Mod.takePending_keepsMem _ _ _))
      | split
      | ((with_reducible apply Mod.keepsMem_foldl); intro x e)
      | ((with_reducible apply Mod.keepsMem_foldl_fst); intro x e)
      | dsimp only

theorem Mod.drainSettle_keepsMem (m : Mod) (a1 : Ecc) : Mod.keepsMem m (Mod.drainSettle m a1) := by
  unfold Mod.drainSettle
  repeat'
    first
      | with_reducible exact Mod.keepsMem_refl _
      | with_reducible assumption
      | (extract_lets +onlyGivenNames y; first | (refine Mod.keepsMem_cut y (fun hy => ?_) ?_; rotate_left; subst y; rotate_left; clear_value y) | (refine Mod.keepsMem_cut_fst y (fun hy => ?_) ?_; rotate_left; subst y; rotate_left; clear_value y) | clear_value y)
      | (with_reducible apply Mod.keepsMem_step (Mod.normAll_keepsMem _ _ _))
      | (with_reducible apply Mod.keepsMem_step (Mod.mergeAll_keepsMem _ _ _))
      | (with_reducible apply Mod.keepsMem_step (Mod.keepsMem_of (Mod.flipDeferred_sameBut _ _ _) (by decide)))
      | (with_reducible apply Mod.keepsMem_step (Mod.keepsMem_of (Mod.actionsEnd_sameBut _) (by decide)))
      | split
      | dsimp only
      | ((with_reducible apply Mod.keepsMem_mk))

theorem Mod.drainPass_keepsMem (m : Mod) (a1 : Ecc) : Mod.keepsMem m (Mod.drainPass m a1) := by
  unfold Mod.drainPass
  repeat'
    first
      | with_reducible exact Mod.keepsMem_refl _
      | with_reducible assumption
      | (extract_lets +onlyGivenNames y; first | (refine Mod.keepsMem_cut y (fun hy => ?_) ?_; rotate_left; subst y; rotate_left; clear_value y) | (refine Mod.keepsMem_cut_fst y (fun hy => ?_) ?_; rotate_left; subst y; rotate_left; clear_value y) | clear_value y)
      | (with_reducible apply Mod.keepsMem_step (Mod.drainSettle_keepsMem _ _))
      | (with_reducible apply Mod.keepsMem_step (Mod.deferredGo_keepsMem _ _ _ _ _ _))
      | split
      | dsimp only
      | ((with_reducible apply Mod.keepsMem_mk))

theorem Mod.heldOrLoaded_keepsMem (m : Mod) (a1 : Nat) (a2 : GPass) (a3 : Binding) (a4 : SliceEnt) (a5 : GSlice) : Mod.keepsMem m (Mod.heldOrLoaded m a1 a2 a3 a4 a5).1 := by
  unfold Mod.heldOrLoaded
  repeat'
    first
      | with_reducible exact Mod.keepsMem_refl _
      | with_reducible assumption
      | (extract_lets +onlyGivenNames y; first | (refine Mod.keepsMem_cut y (fun hy => ?_) ?_; rotate_left; subst y; rotate_left; clear_value y) | (refine Mod.keepsMem_cut_fst y (fun hy => ?_) ?_; rotate_left; subst y; rotate_left; clear_value y) | clear_value y)
      | (with_reducible apply Mod.keepsMem_step (Mod.passHeld_keepsMem _ _ _ _ _ _ _ _))
      | (with_reducible apply Mod.keepsMem_step (Mod.openAt_keepsMem _ _ _ _ _ _))
      | (with_reducible apply Mod.keepsMem_step (Mod.sliceOpen_keepsMem _ _ _ _ _))
      | split
      | dsimp only

theorem Mod.groomEnd_keepsMem (m : Mod) (a1 : Nat) : Mod.keepsMem m (Mod.groomEnd m a1) := by
  unfold Mod.groomEnd
  split
  · rename_i ps g e sl _ _
    have hb := (Mod.heldOrLoaded_keepsMem m a1 ps g e sl)
    split
    · rename_i heq
      rw [heq] at hb
      exact Mod.keepsMem_step (Mod.afterElem_keepsMem _ _ _ _ _ _ _) (Mod.keepsMem_step (Mod.trainStore_keepsMem _ _ _ _ _ _ _ _ _ _) hb)
    · rename_i heq
      rw [heq] at hb
      exact Mod.keepsMem_step (Mod.afterElem_keepsMem _ _ _ _ _ _ _) hb
  · exact Mod.keepsMem_refl _

theorem Mod.elemEndStep_keepsMem (m : Mod) (a1 : Engine) : Mod.keepsMem m (Mod.elemEndStep m a1) := by
  unfold Mod.elemEndStep
  repeat'
    first
      | with_reducible exact Mod.keepsMem_refl _
      | with_reducible assumption
      | (extract_lets +onlyGivenNames y; first | (refine Mod.keepsMem_cut y (fun hy => ?_) ?_; rotate_left; subst y; rotate_left; clear_value y) | (refine Mod.keepsMem_cut_fst y (fun hy => ?_) ?_; rotate_left; subst y; rotate_left; clear_value y) | clear_value y)
      | (with_reducible apply Mod.keepsMem_step (Mod.coreEnd_keepsMem _ _))
      | (with_reducible apply Mod.keepsMem_step (Mod.groomEnd_keepsMem _ _))
      | split
      | dsimp only

theorem Mod.groomElem_keepsMem (m : Mod) (a1 : Nat) (a2 : ElemInstr) : Mod.keepsMem m (Mod.groomElem m a1 a2) := by
  unfold Mod.groomElem
  split
  · rename_i ps g e sl _ _
    have hb := (Mod.heldOrLoaded_keepsMem m a1 ps g e sl)
    split
    · rename_i heq
      rw [heq] at hb
      exact Mod.keepsMem_step (Mod.keepsMem_of (Mod.setPass_sameBut _ _ _ _) (by decide)) (Mod.keepsMem_step (Mod.keepsMem_of (Mod.passPoison_sameBut _ _ _) (by decide)) hb)
    · rename_i heq
      rw [heq] at hb
      exact Mod.keepsMem_step (Mod.afterElem_keepsMem _ _ _ _ _ _ _) hb
  · exact Mod.keepsMem_refl _

theorem Mod.elemStep_keepsMem (m : Mod) (a1 : Engine) (a2 : ElemInstr) : Mod.keepsMem m (Mod.elemStep m a1 a2) := by
  unfold Mod.elemStep
  repeat'
    first
      | with_reducible exact Mod.keepsMem_refl _
      | with_reducible assumption
      | (extract_lets +onlyGivenNames y; first | (refine Mod.keepsMem_cut y (fun hy => ?_) ?_; rotate_left; subst y; rotate_left; clear_value y) | (refine Mod.keepsMem_cut_fst y (fun hy => ?_) ?_; rotate_left; subst y; rotate_left; clear_value y) | clear_value y)
      | (with_reducible apply Mod.keepsMem_step (Mod.keepsMem_of (Mod.coreElem_sameBut _ _ _) (by decide)))
      | (with_reducible apply Mod.keepsMem_step (Mod.groomElem_keepsMem _ _ _))
      | split
      | dsimp only

theorem Mod.fetchRead_keepsMem (m : Mod) (a1 : TileRun) (a2 : Nat) (a3 : List (Prod Nat Nat)) (a4 : Ecc) : Mod.keepsMem m (Mod.fetchRead m a1 a2 a3 a4).1 := by
  unfold Mod.fetchRead
  repeat'
    first
      | with_reducible exact Mod.keepsMem_refl _
      | with_reducible assumption
      | (extract_lets +onlyGivenNames y; first | (refine Mod.keepsMem_cut y (fun hy => ?_) ?_; rotate_left; subst y; rotate_left; clear_value y) | (refine Mod.keepsMem_cut_fst y (fun hy => ?_) ?_; rotate_left; subst y; rotate_left; clear_value y) | clear_value y)
      | (with_reducible apply Mod.keepsMem_step (Mod.keepsMem_of (Mod.dropReads_sameBut _ _) (by decide)))
      | (with_reducible apply Mod.keepsMem_step (Mod.keepsMem_of (Mod.yard_sameBut _ _ _ _ _) (by decide)))
      | (with_reducible apply Mod.keepsMem_step (Mod.readDev_keepsMem _ _ _ _))
      | split
      | ((with_reducible apply Mod.keepsMem_foldl); intro x e)
      | ((with_reducible apply Mod.keepsMem_foldl_fst); intro x e)
      | dsimp only

theorem Mod.moveUp_keepsMem (m : Mod) (a1 : Nat) (a2 : Nat) : Mod.keepsMem m (Mod.moveUp m a1 a2) := by
  unfold Mod.moveUp
  repeat'
    first
      | with_reducible exact Mod.keepsMem_refl _
      | with_reducible assumption
      | (extract_lets +onlyGivenNames y; first | (refine Mod.keepsMem_cut y (fun hy => ?_) ?_; rotate_left; subst y; rotate_left; clear_value y) | (refine Mod.keepsMem_cut_fst y (fun hy => ?_) ?_; rotate_left; subst y; rotate_left; clear_value y) | clear_value y)
      | (with_reducible apply Mod.keepsMem_step (Mod.moveUpTry_keepsMem _ _ _))
      | split
      | dsimp only
      | ((with_reducible apply Mod.keepsMem_mk))

theorem Mod.fetchAsk_keepsMem (m : Mod) (a1 : StreamDesc) (a2 : TileRun) (a3 : Nat) (a4 : List (Prod Nat Nat)) : Mod.keepsMem m (Mod.fetchAsk m a1 a2 a3 a4).1 := by
  unfold Mod.fetchAsk
  repeat'
    first
      | with_reducible exact Mod.keepsMem_refl _
      | with_reducible assumption
      | (extract_lets +onlyGivenNames y; first | (refine Mod.keepsMem_cut y (fun hy => ?_) ?_; rotate_left; subst y; rotate_left; clear_value y) | (refine Mod.keepsMem_cut_fst y (fun hy => ?_) ?_; rotate_left; subst y; rotate_left; clear_value y) | clear_value y)
      | (with_reducible apply Mod.keepsMem_step (Mod.keepsMem_of (Mod.askRemote_sameBut _ _ _ _ _) (by decide)))
      | (with_reducible apply Mod.keepsMem_step (Mod.moveUp_keepsMem _ _ _))
      | split
      | ((with_reducible apply Mod.keepsMem_foldl); intro x e)
      | ((with_reducible apply Mod.keepsMem_foldl_fst); intro x e)
      | dsimp only

theorem Mod.etchFetch_keepsMem (a0 : StreamDesc) (a1 : Ecc) (a2 : Nat) (m : Mod) (a4 : TileRun) : Mod.keepsMem m (Mod.etchFetch a0 a1 a2 m a4).1 := by
  fun_induction Mod.etchFetch a0 a1 a2 m a4
  repeat'
    first
      | with_reducible exact Mod.keepsMem_refl _
      | with_reducible assumption
      | (extract_lets +onlyGivenNames y; first | (refine Mod.keepsMem_cut y (fun hy => ?_) ?_; rotate_left; subst y; rotate_left; clear_value y) | (refine Mod.keepsMem_cut_fst y (fun hy => ?_) ?_; rotate_left; subst y; rotate_left; clear_value y) | clear_value y)
      | (with_reducible apply Mod.keepsMem_step (Mod.fetchAsk_keepsMem _ _ _ _ _))
      | (with_reducible apply Mod.keepsMem_step (Mod.fetchRead_keepsMem _ _ _ _ _))
      | (with_reducible apply Mod.keepsMem_step (Mod.keepsMem_of (Mod.stage_sameBut _ _ _) (by decide)))
      | with_reducible refine Mod.keepsMem_trans ?_ (by assumption)
      | dsimp +zetaDelta only
      | split
      | dsimp only

theorem Mod.exchangeSlice_keepsMem (m : Mod) (a1 : Nat) (a2 : CollOp) (a3 : Nat) (a4 : Ecc) (a5 : Nat) : Mod.keepsMem m (Mod.exchangeSlice m a1 a2 a3 a4 a5) := by
  unfold Mod.exchangeSlice
  repeat'
    first
      | with_reducible exact Mod.keepsMem_refl _
      | with_reducible assumption
      | (extract_lets +onlyGivenNames y; first | (refine Mod.keepsMem_cut y (fun hy => ?_) ?_; rotate_left; subst y; rotate_left; clear_value y) | (refine Mod.keepsMem_cut_fst y (fun hy => ?_) ?_; rotate_left; subst y; rotate_left; clear_value y) | clear_value y)
      | (with_reducible apply Mod.keepsMem_step (Mod.sliceRead_keepsMem _ _ _ _))
      | (with_reducible apply Mod.keepsMem_step (Mod.residRead_keepsMem _ _ _ _ _))
      | (with_reducible apply Mod.keepsMem_step (Mod.residWrite_keepsMem _ _ _ _ _ _))
      | (with_reducible apply Mod.keepsMem_step (Mod.keepsMem_of (Mod.redFlags_sameBut _ _ _) (by decide)))
      | (with_reducible apply Mod.keepsMem_step (Mod.keepsMem_of (Mod.nonfiniteOnce_sameBut _ _ _ _) (by decide)))
      | (with_reducible apply Mod.keepsMem_step (Mod.keepsMem_of (Mod.contribute_sameBut _ _ _ _ _ _ _ _) (by decide)))
      | split
      | dsimp only

theorem Mod.exchange_keepsMem (m : Mod) (a1 : Nat) (a2 : Ecc) : Mod.keepsMem m (Mod.exchange m a1 a2) := by
  unfold Mod.exchange
  repeat'
    first
      | with_reducible exact Mod.keepsMem_refl _
      | with_reducible assumption
      | (extract_lets +onlyGivenNames y; first | (refine Mod.keepsMem_cut y (fun hy => ?_) ?_; rotate_left; subst y; rotate_left; clear_value y) | (refine Mod.keepsMem_cut_fst y (fun hy => ?_) ?_; rotate_left; subst y; rotate_left; clear_value y) | clear_value y)
      | (with_reducible apply Mod.keepsMem_step (Mod.keepsMem_of (Mod.opRead_sameBut _ _ _ _) (by decide)))
      | (with_reducible apply Mod.keepsMem_step (Mod.accumSlice_keepsMem _ _ _ _ _))
      | (with_reducible apply Mod.keepsMem_step (Mod.keepsMem_of (Mod.setOp_sameBut _ _ _) (by decide)))
      | (with_reducible apply Mod.keepsMem_step (Mod.exchangeSlice_keepsMem _ _ _ _ _ _))
      | (with_reducible apply Mod.keepsMem_step (Mod.collProgress_keepsMem _ _))
      | split
      | ((with_reducible apply Mod.keepsMem_foldl); intro x e)
      | ((with_reducible apply Mod.keepsMem_foldl_fst); intro x e)
      | dsimp only
      | ((with_reducible apply Mod.keepsMem_mk))

theorem Mod.tilePut_keepsMem (m : Mod) (a1 : StreamDesc) (a2 : Nat) (a3 : List (Prod Byte Bool)) (a4 : Ecc) : Mod.keepsMem m (Mod.tilePut m a1 a2 a3 a4) := by
  unfold Mod.tilePut
  repeat'
    first
      | with_reducible exact Mod.keepsMem_refl _
      | with_reducible assumption
      | (extract_lets +onlyGivenNames y; first | (refine Mod.keepsMem_cut y (fun hy => ?_) ?_; rotate_left; subst y; rotate_left; clear_value y) | (refine Mod.keepsMem_cut_fst y (fun hy => ?_) ?_; rotate_left; subst y; rotate_left; clear_value y) | clear_value y)
      | (with_reducible apply Mod.keepsMem_step (Mod.keepsMem_of (Mod.snoop_sameBut _ _ _) (by decide)))
      | (with_reducible apply Mod.keepsMem_step (Mod.devWriteP_keepsMem _ _ _))
      | (with_reducible apply Mod.keepsMem_step (Mod.mergeDev_keepsMem _ _ _ _ _))
      | (with_reducible apply Mod.keepsMem_step (Mod.keepsMem_of (Mod.yard_sameBut _ _ _ _ _) (by decide)))
      | split
      | dsimp only

theorem Mod.expandJob_keepsMem (m : Mod) (a1 : Nat) (a2 : StreamDesc) (a3 : EtchJob) (a4 : Ecc) : Mod.keepsMem m (Mod.expandJob m a1 a2 a3 a4) := by
  unfold Mod.expandJob
  repeat'
    first
      | with_reducible exact Mod.keepsMem_refl _
      | with_reducible assumption
      | (extract_lets +onlyGivenNames y; first | (refine Mod.keepsMem_cut y (fun hy => ?_) ?_; rotate_left; subst y; rotate_left; clear_value y) | (refine Mod.keepsMem_cut_fst y (fun hy => ?_) ?_; rotate_left; subst y; rotate_left; clear_value y) | clear_value y)
      | (with_reducible apply Mod.keepsMem_step (Mod.keepsMem_of (Mod.setEngine_sameBut _ _ _) (by decide)))
      | (with_reducible apply Mod.keepsMem_step (Mod.keepsMem_of (Mod.fsat_sameBut _ _ _ _ _) (by decide)))
      | (with_reducible apply Mod.keepsMem_step (Mod.tilePut_keepsMem _ _ _ _ _))
      | (with_reducible apply Mod.keepsMem_step (Mod.keepsMem_of (Mod.markTile_sameBut _ _ _) (by decide)))
      | (with_reducible apply Mod.keepsMem_step (Mod.keepsMem_of (Mod.raiseStep_sameBut _ _ _ _ _ _) (by decide)))
      | (with_reducible apply Mod.keepsMem_step (Mod.keepsMem_of (Mod.fset_sameBut _ _ _ _ _) (by decide)))
      | split
      | dsimp only
      | ((with_reducible apply Mod.keepsMem_mk))

theorem Mod.fenceServe_keepsMem (m : Mod) (a1 : Nat) : Mod.keepsMem m (Mod.fenceServe m a1) := by
  unfold Mod.fenceServe
  repeat'
    first
      | with_reducible exact Mod.keepsMem_refl _
      | with_reducible assumption
      | (extract_lets +onlyGivenNames y; first | (refine Mod.keepsMem_cut y (fun hy => ?_) ?_; rotate_left; subst y; rotate_left; clear_value y) | (refine Mod.keepsMem_cut_fst y (fun hy => ?_) ?_; rotate_left; subst y; rotate_left; clear_value y) | clear_value y)
      | (with_reducible apply Mod.keepsMem_step (Mod.keepsMem_of (Mod.sendXfer_sameBut _ _ _ _ _ _ _ _) (by decide)))
      | (with_reducible apply Mod.keepsMem_step (Mod.keepsMem_of (Mod.fset_sameBut _ _ _ _ _) (by decide)))
      | (with_reducible apply Mod.keepsMem_step (Mod.collProgress_keepsMem _ _))
      | (with_reducible apply Mod.keepsMem_step (Mod.keepsMem_of (Mod.setOp_sameBut _ _ _) (by decide)))
      | split
      | ((with_reducible apply Mod.keepsMem_foldl); intro x e)
      | ((with_reducible apply Mod.keepsMem_foldl_fst); intro x e)
      | dsimp only

theorem Mod.sramFill_keepsMem (m : Mod) (a1 : Nat) (a2 : Nat) (a3 : List (Prod Byte Bool)) : Mod.keepsMem m (Mod.sramFill m a1 a2 a3) := by
  unfold Mod.sramFill
  repeat'
    first
      | with_reducible exact Mod.keepsMem_refl _
      | with_reducible assumption
      | (extract_lets +onlyGivenNames y; first | (refine Mod.keepsMem_cut y (fun hy => ?_) ?_; rotate_left; subst y; rotate_left; clear_value y) | (refine Mod.keepsMem_cut_fst y (fun hy => ?_) ?_; rotate_left; subst y; rotate_left; clear_value y) | clear_value y)
      | (with_reducible apply Mod.keepsMem_step (Mod.sramWrite_keepsMem _ _ _ _))
      | split
      | dsimp only

theorem Mod.fillRanks_keepsMem (a0 : Nat) (a1 : Nat) (m : Mod) (a3 : List Nat) (a4 : List (Prod Byte Bool)) : Mod.keepsMem m (Mod.fillRanks a0 a1 m a3 a4) := by
  fun_induction Mod.fillRanks a0 a1 m a3 a4
  repeat'
    first
      | with_reducible exact Mod.keepsMem_refl _
      | with_reducible assumption
      | (extract_lets +onlyGivenNames y; first | (refine Mod.keepsMem_cut y (fun hy => ?_) ?_; rotate_left; subst y; rotate_left; clear_value y) | (refine Mod.keepsMem_cut_fst y (fun hy => ?_) ?_; rotate_left; subst y; rotate_left; clear_value y) | clear_value y)
      | (with_reducible apply Mod.keepsMem_step (Mod.sramFill_keepsMem _ _ _ _))
      | with_reducible refine Mod.keepsMem_trans ?_ (by assumption)
      | split
      | dsimp only

theorem Mod.resultActions_keepsMem (m : Mod) (a1 : Bool) (a2 : Ecc) : Mod.keepsMem m (Mod.resultActions m a1 a2) := by
  unfold Mod.resultActions
  repeat'
    first
      | with_reducible exact Mod.keepsMem_refl _
      | with_reducible assumption
      | (extract_lets +onlyGivenNames y; first | (refine Mod.keepsMem_cut y (fun hy => ?_) ?_; rotate_left; subst y; rotate_left; clear_value y) | (refine Mod.keepsMem_cut_fst y (fun hy => ?_) ?_; rotate_left; subst y; rotate_left; clear_value y) | clear_value y)
      | (with_reducible apply Mod.keepsMem_step (Mod.normAll_keepsMem _ _ _))
      | (with_reducible apply Mod.keepsMem_step (Mod.mergeAll_keepsMem _ _ _))
      | split
      | dsimp only

theorem Mod.stmVerdict_keepsMem (m : Mod) : Mod.keepsMem m (Mod.stmVerdict m) := by
  unfold Mod.stmVerdict
  repeat'
    first
      | with_reducible exact Mod.keepsMem_refl _
      | with_reducible assumption
      | (extract_lets +onlyGivenNames y; first | (refine Mod.keepsMem_cut y (fun hy => ?_) ?_; rotate_left; subst y; rotate_left; clear_value y) | (refine Mod.keepsMem_cut_fst y (fun hy => ?_) ?_; rotate_left; subst y; rotate_left; clear_value y) | clear_value y)
      | (with_reducible apply Mod.keepsMem_step (Mod.ctxVerdict_keepsMem _ _))
      | split
      | ((with_reducible apply Mod.keepsMem_foldl); intro x e)
      | ((with_reducible apply Mod.keepsMem_foldl_fst); intro x e)
      | dsimp only

theorem Mod.finalActions_keepsMem (m : Mod) (a1 : VerdictRec) (a2 : Ecc) : Mod.keepsMem m (Mod.finalActions m a1 a2) := by
  unfold Mod.finalActions
  repeat'
    first
      | with_reducible exact Mod.keepsMem_refl _
      | with_reducible assumption
      | (extract_lets +onlyGivenNames y; first | (refine Mod.keepsMem_cut y (fun hy => ?_) ?_; rotate_left; subst y; rotate_left; clear_value y) | (refine Mod.keepsMem_cut_fst y (fun hy => ?_) ?_; rotate_left; subst y; rotate_left; clear_value y) | clear_value y)
      | (with_reducible apply Mod.keepsMem_step (Mod.commitActions_keepsMem _ _ _))
      | (with_reducible apply Mod.keepsMem_step (Mod.resultActions_keepsMem _ _ _))
      | (with_reducible apply Mod.keepsMem_step (Mod.keepsMem_of (Mod.flipDeferred_sameBut _ _ _) (by decide)))
      | (with_reducible apply Mod.keepsMem_step (Mod.keepsMem_of (Mod.padReleaseAll_sameBut _) (by decide)))
      | (with_reducible apply Mod.keepsMem_step (Mod.keepsMem_of (Mod.groomVerdict_sameBut _) (by decide)))
      | (with_reducible apply Mod.keepsMem_step (Mod.keepsMem_of (Mod.passesDrop_sameBut _) (by decide)))
      | (with_reducible apply Mod.keepsMem_step (Mod.keepsMem_of (Mod.verdictRegs_sameBut _ _) (by decide)))
      | (with_reducible apply Mod.keepsMem_step (Mod.stmVerdict_keepsMem _))
      | (with_reducible apply Mod.keepsMem_step (Mod.keepsMem_of (Mod.collAbandon_sameBut _) (by decide)))
      | (with_reducible apply Mod.keepsMem_step (Mod.keepsMem_of (Mod.endStables_sameBut _) (by decide)))
      | split
      | dsimp only
      | ((with_reducible apply Mod.keepsMem_mk))

theorem Mod.functionReset_keepsMem (m : Mod) : Mod.keepsMem m (Mod.functionReset m) := by
  unfold Mod.functionReset
  repeat'
    first
      | with_reducible exact Mod.keepsMem_refl _
      | with_reducible assumption
      | (extract_lets +onlyGivenNames y; first | (refine Mod.keepsMem_cut y (fun hy => ?_) ?_; rotate_left; subst y; rotate_left; clear_value y) | (refine Mod.keepsMem_cut_fst y (fun hy => ?_) ?_; rotate_left; subst y; rotate_left; clear_value y) | subst y)
      | (with_reducible apply Mod.keepsMem_step (Mod.keepsMem_of (Mod.fault_sameBut _ _) (by decide)))
      | (with_reducible apply Mod.keepsMem_step (Mod.keepsMem_of (Mod.padReleaseAll_sameBut _) (by decide)))
      | (with_reducible apply Mod.keepsMem_step (Mod.keepsMem_of (Mod.collReset_sameBut _) (by decide)))
      | (with_reducible apply Mod.keepsMem_step (Mod.keepsMem_of (Mod.stmReset_sameBut _) (by decide)))
      | (with_reducible apply Mod.keepsMem_step (Mod.keepsMem_of (Mod.poolReset_sameBut _) (by decide)))
      | (with_reducible apply Mod.keepsMem_step (Mod.keepsMem_of (Mod.fset_sameBut _ _ _ _ _) (by decide)))
      | (with_reducible apply Mod.keepsMem_step (Mod.keepsMem_of (Mod.hostReset_sameBut _) (by decide)))
      | split
      | dsimp only
      | ((with_reducible apply Mod.keepsMem_mk))
      | ((with_reducible apply Mod.keepsMem_parts); rotate_left; all_goals first | exact fun h => h | exact fun _ => Memory.wf_forget _ | exact Memory.wf_mark _ | exact Memory.wf_keep _ _ | exact Memory.wf_putWords _ _ | skip)

theorem Mod.fundamentalBegin_keepsMem (m : Mod) (a1 : Nat) : Mod.keepsMem m (Mod.fundamentalBegin m a1) := by
  unfold Mod.fundamentalBegin
  repeat'
    first
      | with_reducible exact Mod.keepsMem_refl _
      | with_reducible assumption
      | (extract_lets +onlyGivenNames y; first | (refine Mod.keepsMem_cut y (fun hy => ?_) ?_; rotate_left; subst y; rotate_left; clear_value y) | (refine Mod.keepsMem_cut_fst y (fun hy => ?_) ?_; rotate_left; subst y; rotate_left; clear_value y) | clear_value y)
      | (with_reducible apply Mod.keepsMem_step (Mod.keepsMem_of (Mod.portsPower_sameBut _) (by decide)))
      | (with_reducible apply Mod.keepsMem_step (Mod.keepsMem_of (Mod.fundamentalRegs_sameBut _) (by decide)))
      | (with_reducible apply Mod.keepsMem_step (Mod.keepsMem_of (Mod.unlockLost_sameBut _) (by decide)))
      | (with_reducible apply Mod.keepsMem_step (Mod.clearUnits_keepsMem _))
      | (with_reducible apply Mod.keepsMem_step (Mod.keepsMem_of (Mod.msixReset_sameBut _) (by decide)))
      | (with_reducible apply Mod.keepsMem_step (Mod.keepsMem_of (Mod.hostReset_sameBut _) (by decide)))
      | (with_reducible apply Mod.keepsMem_step (Mod.keepsMem_of (Mod.resetCause_sameBut _ _ _) (by decide)))
      | split
      | dsimp only
      | ((with_reducible apply Mod.keepsMem_mk))

theorem Mod.fundamentalEnd_keepsMem (m : Mod) (a1 : Boot) : Mod.keepsMem m (Mod.fundamentalEnd m a1) := by
  unfold Mod.fundamentalEnd
  repeat'
    first
      | with_reducible exact Mod.keepsMem_refl _
      | with_reducible assumption
      | (extract_lets +onlyGivenNames y; first | (refine Mod.keepsMem_cut y (fun hy => ?_) ?_; rotate_left; subst y; rotate_left; clear_value y) | (refine Mod.keepsMem_cut_fst y (fun hy => ?_) ?_; rotate_left; subst y; rotate_left; clear_value y) | clear_value y)
      | (with_reducible apply Mod.keepsMem_step (Mod.keepsMem_of (Mod.release_sameBut _) (by decide)))
      | (with_reducible apply Mod.keepsMem_step (Mod.keepsMem_of (Mod.bootChain_sameBut _ _) (by decide)))
      | (with_reducible apply Mod.keepsMem_step (Mod.train_keepsMem _ _))
      | (with_reducible apply Mod.keepsMem_step (Mod.keepsMem_of (Mod.setBudget_sameBut _) (by decide)))
      | split
      | dsimp only
      | ((with_reducible apply Mod.keepsMem_mk))

theorem Mod.loftDueAll_keepsMem (m : Mod) : Mod.keepsMem m (Mod.loftDueAll m) := by
  unfold Mod.loftDueAll
  repeat'
    first
      | with_reducible exact Mod.keepsMem_refl _
      | with_reducible assumption
      | (extract_lets +onlyGivenNames y; first | (refine Mod.keepsMem_cut y (fun hy => ?_) ?_; rotate_left; subst y; rotate_left; clear_value y) | (refine Mod.keepsMem_cut_fst y (fun hy => ?_) ?_; rotate_left; subst y; rotate_left; clear_value y) | clear_value y)
      | (with_reducible apply Mod.keepsMem_step (Mod.loftAttach_keepsMem _ _ _ _ _ _))
      | split
      | ((with_reducible apply Mod.keepsMem_foldl); intro x e)
      | ((with_reducible apply Mod.keepsMem_foldl_fst); intro x e)
      | dsimp only

theorem Mod.softBegin_keepsMem (m : Mod) : Mod.keepsMem m (Mod.softBegin m) := by
  unfold Mod.softBegin
  repeat'
    first
      | with_reducible exact Mod.keepsMem_refl _
      | with_reducible assumption
      | (extract_lets +onlyGivenNames y; first | (refine Mod.keepsMem_cut y (fun hy => ?_) ?_; rotate_left; subst y; rotate_left; clear_value y) | (refine Mod.keepsMem_cut_fst y (fun hy => ?_) ?_; rotate_left; subst y; rotate_left; clear_value y) | clear_value y)
      | (with_reducible apply Mod.keepsMem_step (Mod.keepsMem_of (Mod.portsPower_sameBut _) (by decide)))
      | (with_reducible apply Mod.keepsMem_step (Mod.clearUnits_keepsMem _))
      | (with_reducible apply Mod.keepsMem_step (Mod.keepsMem_of (Mod.hostReset_sameBut _) (by decide)))
      | split
      | dsimp only
      | ((with_reducible apply Mod.keepsMem_mk))

theorem Mod.softReset_keepsMem (m : Mod) (a1 : Nat) (a2 : Boot) : Mod.keepsMem m (Mod.softReset m a1 a2) := by
  unfold Mod.softReset
  repeat'
    first
      | with_reducible exact Mod.keepsMem_refl _
      | with_reducible assumption
      | (extract_lets +onlyGivenNames y; first | (refine Mod.keepsMem_cut y (fun hy => ?_) ?_; rotate_left; subst y; rotate_left; clear_value y) | (refine Mod.keepsMem_cut_fst y (fun hy => ?_) ?_; rotate_left; subst y; rotate_left; clear_value y) | clear_value y)
      | (with_reducible apply Mod.keepsMem_step (Mod.softBegin_keepsMem _))
      | (with_reducible apply Mod.keepsMem_step (Mod.keepsMem_of (Mod.hbmTo_sameBut _ _ _) (by decide)))
      | (with_reducible apply Mod.keepsMem_step (Mod.keepsMem_of (Mod.release_sameBut _) (by decide)))
      | (with_reducible apply Mod.keepsMem_step (Mod.keepsMem_of (Mod.bootChain_sameBut _ _) (by decide)))
      | (with_reducible apply Mod.keepsMem_step (Mod.keepsMem_of (Mod.resetCause_sameBut _ _ _) (by decide)))
      | (with_reducible apply Mod.keepsMem_step (Mod.loftDueAll_keepsMem _))
      | split
      | dsimp only

theorem Mod.fwuActivate_keepsMem (m : Mod) (a1 : Path) (a2 : Boot) : Mod.keepsMem m (Mod.fwuActivate m a1 a2) := by
  unfold Mod.fwuActivate
  repeat'
    first
      | with_reducible exact Mod.keepsMem_refl _
      | with_reducible assumption
      | (extract_lets +onlyGivenNames y; first | (refine Mod.keepsMem_cut y (fun hy => ?_) ?_; rotate_left; subst y; rotate_left; clear_value y) | (refine Mod.keepsMem_cut_fst y (fun hy => ?_) ?_; rotate_left; subst y; rotate_left; clear_value y) | clear_value y)
      | unfold Mod.inSession
      | (with_reducible apply Mod.keepsMem_step (Mod.keepsMem_of (Mod.fwuFail_sameBut _ _ _ _) (by decide)))
      | (with_reducible apply Mod.keepsMem_step (Mod.keepsMem_of (Mod.cmdDone_sameBut _ _ _ _) (by decide)))
      | (with_reducible apply Mod.keepsMem_step (Mod.softReset_keepsMem _ _ _))
      | split
      | dsimp only

theorem Mod.gatherWork_keepsMem (m : Mod) (a1 : Nat) (a2 : Nat) (a3 : StableRec) (a4 : Kernel) (a5 : Ecc) : Mod.keepsMem m (Mod.gatherWork m a1 a2 a3 a4 a5) := by
  unfold Mod.gatherWork
  repeat'
    first
      | with_reducible exact Mod.keepsMem_refl _
      | with_reducible assumption
      | (extract_lets +onlyGivenNames y; first | (refine Mod.keepsMem_cut y (fun hy => ?_) ?_; rotate_left; subst y; rotate_left; clear_value y) | (refine Mod.keepsMem_cut_fst y (fun hy => ?_) ?_; rotate_left; subst y; rotate_left; clear_value y) | clear_value y)
      | (with_reducible apply Mod.keepsMem_step (Mod.opdRead_keepsMem _ _ _ _ _ _ _ _))
      | (with_reducible apply Mod.keepsMem_step (Mod.opdWrite_keepsMem _ _ _ _ _ _ _))
      | (with_reducible apply Mod.keepsMem_step (Mod.keepsMem_of (Mod.indexRange_sameBut _ _ _ _) (by decide)))
      | split
      | ((with_reducible apply Mod.keepsMem_foldl); intro x e)
      | ((with_reducible apply Mod.keepsMem_foldl_fst); intro x e)
      | dsimp only

theorem Mod.reissue_keepsMem (m : Mod) (a1 : Nat) (a2 : LoftReq) : Mod.keepsMem m (Mod.reissue m a1 a2) := by
  unfold Mod.reissue
  repeat'
    first
      | with_reducible exact Mod.keepsMem_refl _
      | with_reducible assumption
      | (extract_lets +onlyGivenNames y; first | (refine Mod.keepsMem_cut y (fun hy => ?_) ?_; rotate_left; subst y; rotate_left; clear_value y) | (refine Mod.keepsMem_cut_fst y (fun hy => ?_) ?_; rotate_left; subst y; rotate_left; clear_value y) | clear_value y)
      | (with_reducible apply Mod.keepsMem_step (Mod.keepsMem_of (Mod.raise_sameBut _ _ _ _ _ _ _) (by decide)))
      | (with_reducible apply Mod.keepsMem_step (Mod.keepsMem_of (Mod.fset_sameBut _ _ _ _ _) (by decide)))
      | (with_reducible apply Mod.keepsMem_step (Mod.keepsMem_of (Mod.emit_sameBut _ _) (by decide)))
      | (with_reducible apply Mod.keepsMem_step (Mod.writeAt_keepsMem _ _ _ _))
      | split
      | dsimp only

theorem Mod.reissueAll_keepsMem (m : Mod) (a1 : Nat) : Mod.keepsMem m (Mod.reissueAll m a1) := by
  unfold Mod.reissueAll
  repeat'
    first
      | with_reducible exact Mod.keepsMem_refl _
      | with_reducible assumption
      | (extract_lets +onlyGivenNames y; first | (refine Mod.keepsMem_cut y (fun hy => ?_) ?_; rotate_left; subst y; rotate_left; clear_value y) | (refine Mod.keepsMem_cut_fst y (fun hy => ?_) ?_; rotate_left; subst y; rotate_left; clear_value y) | clear_value y)
      | (with_reducible apply Mod.keepsMem_step (Mod.reissue_keepsMem _ _ _))
      | (with_reducible apply Mod.keepsMem_step (Mod.setLoftPort_keepsMem _ _ _))
      | split
      | ((with_reducible apply Mod.keepsMem_foldl); intro x e)
      | ((with_reducible apply Mod.keepsMem_foldl_fst); intro x e)
      | dsimp only

theorem Mod.loftRetrain_keepsMem (m : Mod) (a1 : Nat) (a2 : Nat) (a3 : Nat) : Mod.keepsMem m (Mod.loftRetrain m a1 a2 a3) := by
  unfold Mod.loftRetrain
  repeat'
    first
      | with_reducible exact Mod.keepsMem_refl _
      | with_reducible assumption
      | (extract_lets +onlyGivenNames y; first | (refine Mod.keepsMem_cut y (fun hy => ?_) ?_; rotate_left; subst y; rotate_left; clear_value y) | (refine Mod.keepsMem_cut_fst y (fun hy => ?_) ?_; rotate_left; subst y; rotate_left; clear_value y) | clear_value y)
      | (with_reducible apply Mod.keepsMem_step (Mod.keepsMem_of (Mod.fset_sameBut _ _ _ _ _) (by decide)))
      | (with_reducible apply Mod.keepsMem_step (Mod.keepsMem_of (Mod.loftReport_sameBut _ _ _ _ _) (by decide)))
      | (with_reducible apply Mod.keepsMem_step (Mod.reissueAll_keepsMem _ _))
      | (with_reducible apply Mod.keepsMem_step (Mod.setLoftPort_keepsMem _ _ _))
      | split
      | dsimp only

theorem Mod.sramFound_keepsMem (m : Mod) (a1 : Nat) (a2 : Nat) (a3 : Ecc) : Mod.keepsMem m (Mod.sramFound m a1 a2 a3) := by
  unfold Mod.sramFound
  repeat'
    first
      | with_reducible exact Mod.keepsMem_refl _
      | with_reducible assumption
      | (extract_lets +onlyGivenNames y; first | (refine Mod.keepsMem_cut y (fun hy => ?_) ?_; rotate_left; subst y; rotate_left; clear_value y) | (refine Mod.keepsMem_cut_fst y (fun hy => ?_) ?_; rotate_left; subst y; rotate_left; clear_value y) | subst y)
      | (with_reducible apply Mod.keepsMem_step (Mod.keepsMem_of (Mod.fsat_sameBut _ _ _ _ _) (by decide)))
      | split
      | ((with_reducible apply Mod.keepsMem_foldl); intro x e)
      | ((with_reducible apply Mod.keepsMem_foldl_fst); intro x e)
      | dsimp only
      | ((with_reducible apply Mod.keepsMem_mk))
      | ((with_reducible apply Mod.keepsMem_parts); rotate_left; all_goals first | exact fun h => h | exact fun _ => Memory.wf_forget _ | exact Memory.wf_mark _ | exact Memory.wf_keep _ _ | exact Memory.wf_putWords _ _ | skip)

theorem Mod.memFetch_keepsMem (m : Mod) (a1 : Nat) (a2 : Ecc) : Mod.keepsMem m (Mod.memFetch m a1 a2).1 := by
  unfold Mod.memFetch
  repeat'
    first
      | with_reducible exact Mod.keepsMem_refl _
      | with_reducible assumption
      | (extract_lets +onlyGivenNames y; first | (refine Mod.keepsMem_cut y (fun hy => ?_) ?_; rotate_left; subst y; rotate_left; clear_value y) | (refine Mod.keepsMem_cut_fst y (fun hy => ?_) ?_; rotate_left; subst y; rotate_left; clear_value y) | clear_value y)
      | (with_reducible apply Mod.keepsMem_step (Mod.readDev_keepsMem _ _ _ _))
      | (with_reducible apply Mod.keepsMem_step (Mod.keepsMem_of (Mod.yard_sameBut _ _ _ _ _) (by decide)))
      | (with_reducible apply Mod.keepsMem_step (Mod.foundUe_keepsMem _ _ _))
      | (with_reducible apply Mod.keepsMem_step (Mod.keepsMem_of (Mod.foundCe_sameBut _ _) (by decide)))
      | (with_reducible apply Mod.keepsMem_step (Mod.sramFound_keepsMem _ _ _ _))
      | split
      | ((with_reducible apply Mod.keepsMem_foldl); intro x e)
      | ((with_reducible apply Mod.keepsMem_foldl_fst); intro x e)
      | dsimp only

theorem Mod.memReadCmd_keepsMem (m : Mod) (a1 : Ecc) : Mod.keepsMem m (Mod.memReadCmd m a1) := by
  unfold Mod.memReadCmd
  repeat'
    first
      | with_reducible exact Mod.keepsMem_refl _
      | with_reducible assumption
      | (extract_lets +onlyGivenNames y; first | (refine Mod.keepsMem_cut y (fun hy => ?_) ?_; rotate_left; subst y; rotate_left; clear_value y) | (refine Mod.keepsMem_cut_fst y (fun hy => ?_) ?_; rotate_left; subst y; rotate_left; clear_value y) | clear_value y)
      | (with_reducible apply Mod.keepsMem_step (Mod.keepsMem_of (Mod.memResult_sameBut _ _) (by decide)))
      | (with_reducible apply Mod.keepsMem_step (Mod.memFetch_keepsMem _ _ _))
      | (with_reducible apply Mod.keepsMem_step (Mod.keepsMem_of (Mod.memShow_sameBut _ _) (by decide)))
      | split
      | dsimp only

theorem Mod.memStore_keepsMem (m : Mod) (a1 : Nat) (a2 : Ecc) : Mod.keepsMem m (Mod.memStore m a1 a2) := by
  unfold Mod.memStore
  repeat'
    first
      | with_reducible exact Mod.keepsMem_refl _
      | with_reducible assumption
      | (extract_lets +onlyGivenNames y; first | (refine Mod.keepsMem_cut y (fun hy => ?_) ?_; rotate_left; subst y; rotate_left; clear_value y) | (refine Mod.keepsMem_cut_fst y (fun hy => ?_) ?_; rotate_left; subst y; rotate_left; clear_value y) | clear_value y)
      | (with_reducible apply Mod.keepsMem_step (Mod.keepsMem_of (Mod.memResult_sameBut _ _) (by decide)))
      | (with_reducible apply Mod.keepsMem_step (Mod.bar2WriteAt_keepsMem _ _ _ _ _))
      | (with_reducible apply Mod.keepsMem_step (Mod.writeAt_keepsMem _ _ _ _))
      | (with_reducible apply Mod.keepsMem_step (Mod.sramWrite_keepsMem _ _ _ _))
      | split
      | dsimp only
      | ((with_reducible apply Mod.keepsMem_mk))

theorem Mod.memWriteCmd_keepsMem (m : Mod) (a1 : Ecc) : Mod.keepsMem m (Mod.memWriteCmd m a1) := by
  unfold Mod.memWriteCmd
  repeat'
    first
      | with_reducible exact Mod.keepsMem_refl _
      | with_reducible assumption
      | (extract_lets +onlyGivenNames y; first | (refine Mod.keepsMem_cut y (fun hy => ?_) ?_; rotate_left; subst y; rotate_left; clear_value y) | (refine Mod.keepsMem_cut_fst y (fun hy => ?_) ?_; rotate_left; subst y; rotate_left; clear_value y) | clear_value y)
      | (with_reducible apply Mod.keepsMem_step (Mod.keepsMem_of (Mod.memResult_sameBut _ _) (by decide)))
      | (with_reducible apply Mod.keepsMem_step (Mod.memStore_keepsMem _ _ _))
      | split
      | dsimp only

theorem Mod.tileDone_keepsMem (m : Mod) (a1 : StreamDesc) (a2 : TileRun) : Mod.keepsMem m (Mod.tileDone m a1 a2) := by
  unfold Mod.tileDone
  repeat'
    first
      | with_reducible exact Mod.keepsMem_refl _
      | with_reducible assumption
      | (extract_lets +onlyGivenNames y; first | (refine Mod.keepsMem_cut y (fun hy => ?_) ?_; rotate_left; subst y; rotate_left; clear_value y) | (refine Mod.keepsMem_cut_fst y (fun hy => ?_) ?_; rotate_left; subst y; rotate_left; clear_value y) | clear_value y)
      | (with_reducible apply Mod.keepsMem_step (Mod.keepsMem_of (Mod.setCtx_sameBut _ _ _) (by decide)))
      | (with_reducible apply Mod.keepsMem_step (Mod.keepsMem_of (Mod.setWin_sameBut _ _ _) (by decide)))
      | (with_reducible apply Mod.keepsMem_step (Mod.keepsMem_of (Mod.signal_sameBut _ _) (by decide)))
      | (with_reducible apply Mod.keepsMem_step (Mod.keepsMem_of (Mod.tileLate_sameBut _ _ _ _) (by decide)))
      | (with_reducible apply Mod.keepsMem_step (Mod.keepsMem_of (Mod.raiseStep_sameBut _ _ _ _ _ _) (by decide)))
      | (with_reducible apply Mod.keepsMem_step (Mod.keepsMem_of (Mod.fset_sameBut _ _ _ _ _) (by decide)))
      | (with_reducible apply Mod.keepsMem_step (Mod.keepsMem_of (Mod.dropReads_sameBut _ _) (by decide)))
      | (with_reducible apply Mod.keepsMem_step (Mod.tileUnpin_keepsMem _ _ _))
      | (with_reducible apply Mod.keepsMem_step (Mod.keepsMem_of (Mod.padRelease_sameBut _ _) (by decide)))
      | (with_reducible apply Mod.keepsMem_step (Mod.keepsMem_of (Mod.gates_sameBut _) (by decide)))
      | split
      | dsimp only

theorem Mod.farDone_keepsMem (m : Mod) (a1 : StreamDesc) (a2 : TileRun) (a3 : Nat) (a4 : Nat) : Mod.keepsMem m (Mod.farDone m a1 a2 a3 a4) := by
  unfold Mod.farDone
  repeat'
    first
      | with_reducible exact Mod.keepsMem_refl _
      | with_reducible assumption
      | (extract_lets +onlyGivenNames y; first | (refine Mod.keepsMem_cut y (fun hy => ?_) ?_; rotate_left; subst y; rotate_left; clear_value y) | (refine Mod.keepsMem_cut_fst y (fun hy => ?_) ?_; rotate_left; subst y; rotate_left; clear_value y) | clear_value y)
      | (with_reducible apply Mod.keepsMem_step (Mod.tileDone_keepsMem _ _ _))
      | split
      | dsimp only
      | ((with_reducible apply Mod.keepsMem_mk))

theorem Mod.moveTile_keepsMem (m : Mod) (a1 : StreamDesc) (a2 : TileRun) (a3 : Ecc) : Mod.keepsMem m (Mod.moveTile m a1 a2 a3) := by
  unfold Mod.moveTile
  repeat'
    first
      | with_reducible exact Mod.keepsMem_refl _
      | with_reducible assumption
      | (extract_lets +onlyGivenNames y; first | (refine Mod.keepsMem_cut y (fun hy => ?_) ?_; rotate_left; subst y; rotate_left; clear_value y) | (refine Mod.keepsMem_cut_fst y (fun hy => ?_) ?_; rotate_left; subst y; rotate_left; clear_value y) | clear_value y)
      | (with_reducible apply Mod.keepsMem_step (Mod.farDone_keepsMem _ _ _ _ _))
      | (with_reducible apply Mod.keepsMem_step (Mod.fetchRead_keepsMem _ _ _ _ _))
      | (with_reducible apply Mod.keepsMem_step (Mod.keepsMem_of (Mod.setHead_sameBut _ _ _) (by decide)))
      | (with_reducible apply Mod.keepsMem_step (Mod.keepsMem_of (Mod.originateAll_sameBut _ _) (by decide)))
      | (with_reducible apply Mod.keepsMem_step (Mod.keepsMem_of (Mod.snoop_sameBut _ _ _) (by decide)))
      | (with_reducible apply Mod.keepsMem_step (Mod.tileDone_keepsMem _ _ _))
      | (with_reducible apply Mod.keepsMem_step (Mod.tilePut_keepsMem _ _ _ _ _))
      | split
      | dsimp only

theorem Mod.passComplete_keepsMem (m : Mod) (a1 : Nat) (a2 : Ecc) : Mod.keepsMem m (Mod.passComplete m a1 a2) := by
  unfold Mod.passComplete
  repeat'
    first
      | with_reducible exact Mod.keepsMem_refl _
      | with_reducible assumption
      | (extract_lets +onlyGivenNames y; first | (refine Mod.keepsMem_cut y (fun hy => ?_) ?_; rotate_left; subst y; rotate_left; clear_value y) | (refine Mod.keepsMem_cut_fst y (fun hy => ?_) ?_; rotate_left; subst y; rotate_left; clear_value y) | clear_value y)
      | (with_reducible apply Mod.keepsMem_step (Mod.passFinish_keepsMem _ _ _ _ _))
      | (with_reducible apply Mod.keepsMem_step (Mod.eccDev_keepsMem _ _ _ _))
      | (with_reducible apply Mod.keepsMem_step (Mod.keepsMem_of (Mod.signal_sameBut _ _) (by decide)))
      | split
      | dsimp only
      | ((with_reducible apply Mod.keepsMem_mk))

theorem Mod.pcieFunctionReset_keepsMem (m : Mod) (a1 : Nat) : Mod.keepsMem m (Mod.pcieFunctionReset m a1) := by
  unfold Mod.pcieFunctionReset
  repeat'
    first
      | with_reducible exact Mod.keepsMem_refl _
      | with_reducible assumption
      | (extract_lets +onlyGivenNames y; first | (refine Mod.keepsMem_cut y (fun hy => ?_) ?_; rotate_left; subst y; rotate_left; clear_value y) | (refine Mod.keepsMem_cut_fst y (fun hy => ?_) ?_; rotate_left; subst y; rotate_left; clear_value y) | clear_value y)
      | (with_reducible apply Mod.keepsMem_step (Mod.keepsMem_of (Mod.resetCause_sameBut _ _ _) (by decide)))
      | (with_reducible apply Mod.keepsMem_step (Mod.keepsMem_of (Mod.msixReset_sameBut _) (by decide)))
      | (with_reducible apply Mod.keepsMem_step (Mod.functionReset_keepsMem _))
      | split
      | dsimp only

theorem Mod.proofDone_keepsMem (m : Mod) (a1 : Nat) (a2 : Ecc) : Mod.keepsMem m (Mod.proofDone m a1 a2) := by
  unfold Mod.proofDone
  repeat'
    first
      | with_reducible exact Mod.keepsMem_refl _
      | with_reducible assumption
      | (extract_lets +onlyGivenNames y; first | (refine Mod.keepsMem_cut y (fun hy => ?_) ?_; rotate_left; subst y; rotate_left; clear_value y) | (refine Mod.keepsMem_cut_fst y (fun hy => ?_) ?_; rotate_left; subst y; rotate_left; clear_value y) | clear_value y)
      | (with_reducible apply Mod.keepsMem_step (Mod.eccDev_keepsMem _ _ _ _))
      | (with_reducible apply Mod.keepsMem_step (Mod.keepsMem_of (Mod.fset_sameBut _ _ _ _ _) (by decide)))
      | (with_reducible apply Mod.keepsMem_step (Mod.keepsMem_of (Mod.writeSlotHash_sameBut _ _ _) (by decide)))
      | (with_reducible apply Mod.keepsMem_step (Mod.keepsMem_of (Mod.setSlot_sameBut _ _ _) (by decide)))
      | (with_reducible apply Mod.keepsMem_step (Mod.keepsMem_of (Mod.msix_sameBut _ _) (by decide)))
      | split
      | dsimp only
      | ((with_reducible apply Mod.keepsMem_mk))

theorem Mod.putRuns_keepsMem (a0 : StreamDesc) (a1 : Ecc) (m : Mod) (a3 : List (Prod Nat Nat)) (a4 : List (Prod Byte Bool)) : Mod.keepsMem m (Mod.putRuns a0 a1 m a3 a4) := by
  induction a3 generalizing m a4 with
  | nil => exact Mod.keepsMem_refl _
  | cons r rs ih => exact Mod.keepsMem_trans (Mod.tilePut_keepsMem _ _ _ _ _) (ih _ _)

theorem Mod.reconcileRow_keepsMem (m : Mod) (a1 : Binding) (a2 : Nat) : Mod.keepsMem m (Mod.reconcileRow m a1 a2) := by
  unfold Mod.reconcileRow
  repeat'
    first
      | with_reducible exact Mod.keepsMem_refl _
      | with_reducible assumption
      | (extract_lets +onlyGivenNames y; first | (refine Mod.keepsMem_cut y (fun hy => ?_) ?_; rotate_left; subst y; rotate_left; clear_value y) | (refine Mod.keepsMem_cut_fst y (fun hy => ?_) ?_; rotate_left; subst y; rotate_left; clear_value y) | clear_value y)
      | (with_reducible apply Mod.keepsMem_step (Mod.devWriteP_keepsMem _ _ _))
      | split
      | ((with_reducible apply Mod.keepsMem_foldl); intro x e)
      | ((with_reducible apply Mod.keepsMem_foldl_fst); intro x e)
      | dsimp only

theorem Mod.reconcileCopy_keepsMem (m : Mod) (a1 : Nat) (a2 : Ecc) : Mod.keepsMem m (Mod.reconcileCopy m a1 a2) := by
  unfold Mod.reconcileCopy
  repeat'
    first
      | with_reducible exact Mod.keepsMem_refl _
      | with_reducible assumption
      | (extract_lets +onlyGivenNames y; first | (refine Mod.keepsMem_cut y (fun hy => ?_) ?_; rotate_left; subst y; rotate_left; clear_value y) | (refine Mod.keepsMem_cut_fst y (fun hy => ?_) ?_; rotate_left; subst y; rotate_left; clear_value y) | clear_value y)
      | (with_reducible apply Mod.keepsMem_step (Mod.reconcileRow_keepsMem _ _ _))
      | (with_reducible apply Mod.keepsMem_step (Mod.eccDev_keepsMem _ _ _ _))
      | (with_reducible apply Mod.keepsMem_step (Mod.keepsMem_of (Mod.setGroom_sameBut _ _ _) (by decide)))
      | split
      | ((with_reducible apply Mod.keepsMem_foldl); intro x e)
      | ((with_reducible apply Mod.keepsMem_foldl_fst); intro x e)
      | dsimp only
      | ((with_reducible apply Mod.keepsMem_mk))

theorem Mod.routeD_keepsMem (m : Mod) (a1 : Nat) (a2 : Nat) (a3 : Nat) (a4 : Nat) (a5 : optParam Nat 0) : Mod.keepsMem m (Mod.routeD m a1 a2 a3 a4 a5) := by
  unfold Mod.routeD
  repeat'
    first
      | with_reducible exact Mod.keepsMem_refl _
      | with_reducible assumption
      | (extract_lets +onlyGivenNames y; first | (refine Mod.keepsMem_cut y (fun hy => ?_) ?_; rotate_left; subst y; rotate_left; clear_value y) | (refine Mod.keepsMem_cut_fst y (fun hy => ?_) ?_; rotate_left; subst y; rotate_left; clear_value y) | clear_value y)
      | unfold Mod.whenBit
      | (with_reducible apply Mod.keepsMem_step (Mod.keepsMem_of (Mod.dbgHalt_sameBut _ _ _) (by decide)))
      | (with_reducible apply Mod.keepsMem_step (Mod.keepsMem_of (Mod.dbgResume_sameBut _ _ _) (by decide)))
      | (with_reducible apply Mod.keepsMem_step (Mod.keepsMem_of (Mod.dbgStep_sameBut _ _ _) (by decide)))
      | (with_reducible apply Mod.keepsMem_step (Mod.keepsMem_of (Mod.rwFields_sameBut _ _ _ _) (by decide)))
      | (with_reducible apply Mod.keepsMem_step (Mod.memReadCmd_keepsMem _ _))
      | (with_reducible apply Mod.keepsMem_step (Mod.memWriteCmd_keepsMem _ _))
      | (with_reducible apply Mod.keepsMem_step (Mod.keepsMem_of (Mod.freezeAsk_sameBut _ _) (by decide)))
      | (with_reducible apply Mod.keepsMem_step (Mod.keepsMem_of (Mod.memRead_sameBut _) (by decide)))
      | (with_reducible apply Mod.keepsMem_step (Mod.keepsMem_of (Mod.traceStop_sameBut _) (by decide)))
      | (with_reducible apply Mod.keepsMem_step (Mod.keepsMem_of (Mod.traceStart_sameBut _) (by decide)))
      | (with_reducible apply Mod.keepsMem_step (Mod.keepsMem_of (Mod.regWrite_sameBut _ _ _ _) (by decide)))
      | split
      | dsimp only

theorem Mod.tableCmd_keepsMem (m : Mod) (a1 : Ecc) : Mod.keepsMem m (Mod.tableCmd m a1) := by
  unfold Mod.tableCmd
  repeat'
    first
      | with_reducible exact Mod.keepsMem_refl _
      | with_reducible assumption
      | (extract_lets +onlyGivenNames y; first | (refine Mod.keepsMem_cut y (fun hy => ?_) ?_; rotate_left; subst y; rotate_left; clear_value y) | (refine Mod.keepsMem_cut_fst y (fun hy => ?_) ?_; rotate_left; subst y; rotate_left; clear_value y) | clear_value y)
      | (with_reducible apply Mod.keepsMem_step (Mod.readDev_keepsMem _ _ _ _))
      | (with_reducible apply Mod.keepsMem_step (Mod.keepsMem_of (Mod.yard_sameBut _ _ _ _ _) (by decide)))
      | (with_reducible apply Mod.keepsMem_step (Mod.keepsMem_of (Mod.tableLoad_sameBut _ _ _) (by decide)))
      | (with_reducible apply Mod.keepsMem_step (Mod.keepsMem_of (Mod.set64_sameBut _ _ _ _ _) (by decide)))
      | split
      | ((with_reducible apply Mod.keepsMem_foldl); intro x e)
      | ((with_reducible apply Mod.keepsMem_foldl_fst); intro x e)
      | dsimp only

theorem Mod.stableReset_keepsMem (m : Mod) (a1 : Nat) (a2 : Nat) : Mod.keepsMem m (Mod.stableReset m a1 a2) := by
  unfold Mod.stableReset
  repeat'
    first
      | with_reducible exact Mod.keepsMem_refl _
      | with_reducible assumption
      | (extract_lets +onlyGivenNames y; first | (refine Mod.keepsMem_cut y (fun hy => ?_) ?_; rotate_left; subst y; rotate_left; clear_value y) | (refine Mod.keepsMem_cut_fst y (fun hy => ?_) ?_; rotate_left; subst y; rotate_left; clear_value y) | subst y)
      | (with_reducible apply Mod.keepsMem_step (Mod.keepsMem_of (Mod.setStable_sameBut _ _ _) (by decide)))
      | (with_reducible apply Mod.keepsMem_step (Mod.keepsMem_of (Mod.raiseDual_sameBut _ _ _ _ _ _ _ _) (by decide)))
      | split
      | ((with_reducible apply Mod.keepsMem_foldl); intro x e)
      | ((with_reducible apply Mod.keepsMem_foldl_fst); intro x e)
      | dsimp only
      | ((with_reducible apply Mod.keepsMem_mk))
      | ((with_reducible apply Mod.keepsMem_parts); rotate_left; all_goals first | exact fun h => h | exact fun _ => Memory.wf_forget _ | exact Memory.wf_mark _ | exact Memory.wf_keep _ _ | exact Memory.wf_putWords _ _ | skip)

theorem Mod.routeA_someKept {m x : Mod} {b i off v : Nat} (h : m.routeA b i off v = some x) : Mod.keepsMem m x := by
  unfold Mod.routeA at h
  repeat' (obtain rfl | h := Mod.some_ite h)
  case' inr => cases h
  all_goals
    repeat'
      first
        | with_reducible exact Mod.keepsMem_refl _
        | unfold Mod.whenBit
        | (with_reducible apply Mod.keepsMem_step (Mod.keepsMem_of (Mod.slotCmd_sameBut _ _ _) (by decide)))
        | (with_reducible apply Mod.keepsMem_step (Mod.keepsMem_of (Mod.actCmd_sameBut _ _ _) (by decide)))
        | (with_reducible apply Mod.keepsMem_step (Mod.keepsMem_of (Mod.periodWrite_sameBut _ _) (by decide)))
        | (with_reducible apply Mod.keepsMem_step (Mod.keepsMem_of (Mod.sourceWrite_sameBut _ _) (by decide)))
        | (with_reducible apply Mod.keepsMem_step (Mod.keepsMem_of (Mod.bar2BaseWrite_sameBut _ _ _) (by decide)))
        | (with_reducible apply Mod.keepsMem_step (Mod.keepsMem_of (Mod.fset_sameBut _ _ _ _ _) (by decide)))
        | (with_reducible apply Mod.keepsMem_step (Mod.keepsMem_of (Mod.stepszWrite_sameBut _ _) (by decide)))
        | (with_reducible apply Mod.keepsMem_step (Mod.keepsMem_of (Mod.stepArm_sameBut _ _) (by decide)))
        | (with_reducible apply Mod.keepsMem_step (Mod.keepsMem_of (Mod.kdataWrite_sameBut _ _ _) (by decide)))
        | (with_reducible apply Mod.keepsMem_step (Mod.keepsMem_of (Mod.ksetWrite_sameBut _ _) (by decide)))
        | (with_reducible apply Mod.keepsMem_step (Mod.tableCmd_keepsMem _ _))
        | (with_reducible apply Mod.keepsMem_step (Mod.keepsMem_of (Mod.ringAddr_sameBut _ _ _) (by decide)))
        | split
        | dsimp only

theorem Mod.routeB_someKept {m x : Mod} {b i v : Nat} (h : m.routeB b i v = some x) : Mod.keepsMem m x := by
  unfold Mod.routeB at h
  repeat' (obtain rfl | h := Mod.some_ite h)
  case' inr => cases h
  all_goals
    repeat'
      first
        | with_reducible exact Mod.keepsMem_refl _
        | unfold Mod.whenBit
        | (with_reducible apply Mod.keepsMem_step (Mod.keepsMem_of (Mod.fset_sameBut _ _ _ _ _) (by decide)))
        | (with_reducible apply Mod.keepsMem_step (Mod.keepsMem_of (Mod.loftCfg_sameBut _ _) (by decide)))
        | (with_reducible apply Mod.keepsMem_step (Mod.keepsMem_of (Mod.portReset_sameBut _ _) (by decide)))
        | (with_reducible apply Mod.keepsMem_step (Mod.keepsMem_of (Mod.testStart_sameBut _ _) (by decide)))
        | (with_reducible apply Mod.keepsMem_step (Mod.keepsMem_of (Mod.testStop_sameBut _ _) (by decide)))
        | (with_reducible apply Mod.keepsMem_step (Mod.keepsMem_of (Mod.chkAbort_sameBut _ _) (by decide)))
        | (with_reducible apply Mod.keepsMem_step (Mod.chkHostStart_keepsMem _ _ _))
        | (with_reducible apply Mod.keepsMem_step (Mod.keepsMem_of (Mod.ringCtrl_sameBut _ _) (by decide)))
        | (with_reducible apply Mod.keepsMem_step (Mod.keepsMem_of (Mod.ringCons_sameBut _ _) (by decide)))
        | (with_reducible apply Mod.keepsMem_step (Mod.keepsMem_of (Mod.logAck_sameBut _ _) (by decide)))
        | split
        | dsimp only

theorem Mod.routeC_someKept {m x : Mod} {b i v : Nat} (h : m.routeC b i v = some x) : Mod.keepsMem m x := by
  unfold Mod.routeC at h
  repeat' (obtain rfl | h := Mod.some_ite h)
  case' inr => cases h
  all_goals
    repeat'
      first
        | with_reducible exact Mod.keepsMem_refl _
        | unfold Mod.whenBit
        | (with_reducible apply Mod.keepsMem_step (Mod.keepsMem_of (Mod.profileRequest_sameBut _ _ _) (by decide)))
        | (with_reducible apply Mod.keepsMem_step (Mod.keepsMem_of (Mod.capWrite_sameBut _ _ _) (by decide)))
        | (with_reducible apply Mod.keepsMem_step (Mod.keepsMem_of (Mod.defaultWrite_sameBut _ _ _) (by decide)))
        | (with_reducible apply Mod.keepsMem_step (Mod.keepsMem_of (Mod.activeRequest_sameBut _) (by decide)))
        | (with_reducible apply Mod.keepsMem_step (Mod.keepsMem_of (Mod.parkRequest_sameBut _) (by decide)))
        | (with_reducible apply Mod.keepsMem_step (Mod.keepsMem_of (Mod.thermField_sameBut _ _ _ _) (by decide)))
        | (with_reducible apply Mod.keepsMem_step (Mod.keepsMem_of (Mod.secCmd_sameBut _ _) (by decide)))
        | (with_reducible apply Mod.keepsMem_step (Mod.stableReset_keepsMem _ _ _))
        | (with_reducible apply Mod.keepsMem_step (Mod.bistStart_keepsMem _ _))
        | (with_reducible apply Mod.keepsMem_step (Mod.keepsMem_of (Mod.fset_sameBut _ _ _ _ _) (by decide)))
        | split
        | dsimp only

theorem Mod.regRoute_keepsMem (m : Mod) (a1 : Nat) (a2 : Nat) (a3 : optParam Nat 0) : Mod.keepsMem m (Mod.regRoute m a1 a2 a3) := by
  unfold Mod.regRoute
  repeat'
    first
      | with_reducible exact Mod.keepsMem_refl _
      | with_reducible assumption
      | (extract_lets +onlyGivenNames y; first | (refine Mod.keepsMem_cut y (fun hy => ?_) ?_; rotate_left; subst y; rotate_left; clear_value y) | (refine Mod.keepsMem_cut_fst y (fun hy => ?_) ?_; rotate_left; subst y; rotate_left; clear_value y) | clear_value y)
      | unfold Mod.dbgGate
      | (with_reducible apply Mod.keepsMem_step (Mod.routeD_keepsMem _ _ _ _ _ _))
      | (with_reducible apply Mod.keepsMem_step (Mod.keepsMem_of (Mod.regWrite_sameBut _ _ _ _) (by decide)))
      | (with_reducible apply Mod.keepsMem_step (Mod.keepsMem_of (Mod.fset_sameBut _ _ _ _ _) (by decide)))
      | with_reducible exact Mod.routeA_someKept ‹_›
      | with_reducible exact Mod.routeB_someKept ‹_›
      | with_reducible exact Mod.routeC_someKept ‹_›
      | split
      | dsimp only

theorem Mod.rowsServe_keepsMem (m : Mod) (a1 : Nat) (a2 : Ecc) : Mod.keepsMem m (Mod.rowsServe m a1 a2) := by
  unfold Mod.rowsServe
  repeat'
    first
      | with_reducible exact Mod.keepsMem_refl _
      | with_reducible assumption
      | (extract_lets +onlyGivenNames y; first | (refine Mod.keepsMem_cut y (fun hy => ?_) ?_; rotate_left; subst y; rotate_left; clear_value y) | (refine Mod.keepsMem_cut_fst y (fun hy => ?_) ?_; rotate_left; subst y; rotate_left; clear_value y) | clear_value y)
      | (with_reducible apply Mod.keepsMem_step (Mod.sliceRead_keepsMem _ _ _ _))
      | (with_reducible apply Mod.keepsMem_step (Mod.keepsMem_of (Mod.contribute_sameBut _ _ _ _ _ _ _ _) (by decide)))
      | (with_reducible apply Mod.keepsMem_step (Mod.keepsMem_of (Mod.collFormat_sameBut _ _ _ _ _) (by decide)))
      | (with_reducible apply Mod.keepsMem_step (Mod.keepsMem_of (Mod.opRead_sameBut _ _ _ _) (by decide)))
      | (with_reducible apply Mod.keepsMem_step (Mod.collProgress_keepsMem _ _))
      | (with_reducible apply Mod.keepsMem_step (Mod.keepsMem_of (Mod.setOp_sameBut _ _ _) (by decide)))
      | split
      | ((with_reducible apply Mod.keepsMem_foldl); intro x e)
      | ((with_reducible apply Mod.keepsMem_foldl_fst); intro x e)
      | dsimp only

theorem Mod.scanWork_keepsMem (m : Mod) (a1 : Nat) (a2 : StableRec) (a3 : Kernel) (a4 : Ecc) : Mod.keepsMem m (Mod.scanWork m a1 a2 a3 a4) := by
  unfold Mod.scanWork
  repeat'
    first
      | with_reducible exact Mod.keepsMem_refl _
      | with_reducible assumption
      | (extract_lets +onlyGivenNames y; first | (refine Mod.keepsMem_cut y (fun hy => ?_) ?_; rotate_left; subst y; rotate_left; clear_value y) | (refine Mod.keepsMem_cut_fst y (fun hy => ?_) ?_; rotate_left; subst y; rotate_left; clear_value y) | clear_value y)
      | (with_reducible apply Mod.keepsMem_step (Mod.kernelResult_keepsMem _ _ _))
      | (with_reducible apply Mod.keepsMem_step (Mod.watchMerge_keepsMem _ _ _ _ _))
      | (with_reducible apply Mod.keepsMem_step (Mod.keepsMem_of (Mod.yard_sameBut _ _ _ _ _) (by decide)))
      | split
      | dsimp only

theorem Mod.scatterWork_keepsMem (m : Mod) (a1 : Nat) (a2 : Nat) (a3 : StableRec) (a4 : Kernel) (a5 : Ecc) : Mod.keepsMem m (Mod.scatterWork m a1 a2 a3 a4 a5) := by
  unfold Mod.scatterWork
  repeat'
    first
      | with_reducible exact Mod.keepsMem_refl _
      | with_reducible assumption
      | (extract_lets +onlyGivenNames y; first | (refine Mod.keepsMem_cut y (fun hy => ?_) ?_; rotate_left; subst y; rotate_left; clear_value y) | (refine Mod.keepsMem_cut_fst y (fun hy => ?_) ?_; rotate_left; subst y; rotate_left; clear_value y) | clear_value y)
      | (with_reducible apply Mod.keepsMem_step (Mod.opdRead_keepsMem _ _ _ _ _ _ _ _))
      | (with_reducible apply Mod.keepsMem_step (Mod.opdWrite_keepsMem _ _ _ _ _ _ _))
      | (with_reducible apply Mod.keepsMem_step (Mod.keepsMem_of (Mod.indexRange_sameBut _ _ _ _) (by decide)))
      | (with_reducible apply Mod.keepsMem_step (Mod.kernelResult_keepsMem _ _ _))
      | split
      | ((with_reducible apply Mod.keepsMem_foldl); intro x e)
      | ((with_reducible apply Mod.keepsMem_foldl_fst); intro x e)
      | dsimp only

theorem Mod.sliceProcess_keepsMem (m : Mod) (a1 : Nat) (a2 : Ecc) : Mod.keepsMem m (Mod.sliceProcess m a1 a2) := by
  unfold Mod.sliceProcess
  repeat'
    first
      | with_reducible exact Mod.keepsMem_refl _
      | with_reducible assumption
      | (extract_lets +onlyGivenNames y; first | (refine Mod.keepsMem_cut y (fun hy => ?_) ?_; rotate_left; subst y; rotate_left; clear_value y) | (refine Mod.keepsMem_cut_fst y (fun hy => ?_) ?_; rotate_left; subst y; rotate_left; clear_value y) | clear_value y)
      | (with_reducible apply Mod.keepsMem_step (Mod.eccDev_keepsMem _ _ _ _))
      | (with_reducible apply Mod.keepsMem_step (Mod.sliceWork_keepsMem _ _ _ _ _ _ _))
      | (with_reducible apply Mod.keepsMem_step (Mod.keepsMem_of (Mod.sliceTaken_sameBut _ _ _ _) (by decide)))
      | (with_reducible apply Mod.keepsMem_step (Mod.keepsMem_of (Mod.passPoison_sameBut _ _ _) (by decide)))
      | split
      | dsimp only

theorem Mod.softRequest_keepsMem (m : Mod) (a1 : Path) (a2 : Nat) (a3 : Boot) : Mod.keepsMem m (Mod.softRequest m a1 a2 a3) := by
  unfold Mod.softRequest
  repeat'
    first
      | with_reducible exact Mod.keepsMem_refl _
      | with_reducible assumption
      | (extract_lets +onlyGivenNames y; first | (refine Mod.keepsMem_cut y (fun hy => ?_) ?_; rotate_left; subst y; rotate_left; clear_value y) | (refine Mod.keepsMem_cut_fst y (fun hy => ?_) ?_; rotate_left; subst y; rotate_left; clear_value y) | clear_value y)
      | (with_reducible apply Mod.keepsMem_step (Mod.keepsMem_of (Mod.mgmtRefused_sameBut _ _ _) (by decide)))
      | (with_reducible apply Mod.keepsMem_step (Mod.softReset_keepsMem _ _ _))
      | split
      | dsimp only

theorem Mod.stashTile_keepsMem (m : Mod) (a1 : StreamDesc) (a2 : TileRun) (a3 : Ecc) : Mod.keepsMem m (Mod.stashTile m a1 a2 a3) := by
  unfold Mod.stashTile
  repeat'
    first
      | with_reducible exact Mod.keepsMem_refl _
      | with_reducible assumption
      | (extract_lets +onlyGivenNames y; first | (refine Mod.keepsMem_cut y (fun hy => ?_) ?_; rotate_left; subst y; rotate_left; clear_value y) | (refine Mod.keepsMem_cut_fst y (fun hy => ?_) ?_; rotate_left; subst y; rotate_left; clear_value y) | clear_value y)
      | (with_reducible apply Mod.keepsMem_step (Mod.tileDone_keepsMem _ _ _))
      | (with_reducible apply Mod.keepsMem_step (Mod.sramErrors_keepsMem _ _ _ _ _))
      | (with_reducible apply Mod.keepsMem_step (Mod.putRuns_keepsMem _ _ _ _ _))
      | split
      | ((with_reducible apply Mod.keepsMem_foldl); intro x e)
      | ((with_reducible apply Mod.keepsMem_foldl_fst); intro x e)
      | dsimp only

theorem Mod.stopPlate_keepsMem (m : Mod) : Mod.keepsMem m (Mod.stopPlate m) := by
  unfold Mod.stopPlate
  repeat'
    first
      | with_reducible exact Mod.keepsMem_refl _
      | with_reducible assumption
      | (extract_lets +onlyGivenNames y; first | (refine Mod.keepsMem_cut y (fun hy => ?_) ?_; rotate_left; subst y; rotate_left; clear_value y) | (refine Mod.keepsMem_cut_fst y (fun hy => ?_) ?_; rotate_left; subst y; rotate_left; clear_value y) | clear_value y)
      | (with_reducible apply Mod.keepsMem_step (Mod.loftDueAll_keepsMem _))
      | (with_reducible apply Mod.keepsMem_step (Mod.keepsMem_of (Mod.portsActivate_sameBut _ _) (by decide)))
      | (with_reducible apply Mod.keepsMem_step (Mod.keepsMem_of (Mod.snoopAbandonAll_sameBut _) (by decide)))
      | split
      | dsimp only
      | ((with_reducible apply Mod.keepsMem_mk))

theorem Mod.tileAsk_keepsMem (m : Mod) (a1 : StreamDesc) (a2 : TileRun) : Mod.keepsMem m (Mod.tileAsk m a1 a2).1 := by
  unfold Mod.tileAsk
  repeat'
    first
      | with_reducible exact Mod.keepsMem_refl _
      | with_reducible assumption
      | (extract_lets +onlyGivenNames y; first | (refine Mod.keepsMem_cut y (fun hy => ?_) ?_; rotate_left; subst y; rotate_left; clear_value y) | (refine Mod.keepsMem_cut_fst y (fun hy => ?_) ?_; rotate_left; subst y; rotate_left; clear_value y) | clear_value y)
      | (with_reducible apply Mod.keepsMem_step (Mod.fetchAsk_keepsMem _ _ _ _ _))
      | split
      | dsimp only

theorem Mod.unstashTile_keepsMem (m : Mod) (a1 : StreamDesc) (a2 : TileRun) (a3 : Ecc) : Mod.keepsMem m (Mod.unstashTile m a1 a2 a3) := by
  unfold Mod.unstashTile
  repeat'
    first
      | with_reducible exact Mod.keepsMem_refl _
      | with_reducible assumption
      | (extract_lets +onlyGivenNames y; first | (refine Mod.keepsMem_cut y (fun hy => ?_) ?_; rotate_left; subst y; rotate_left; clear_value y) | (refine Mod.keepsMem_cut_fst y (fun hy => ?_) ?_; rotate_left; subst y; rotate_left; clear_value y) | clear_value y)
      | (with_reducible apply Mod.keepsMem_step (Mod.keepsMem_of (Mod.yard_sameBut _ _ _ _ _) (by decide)))
      | (with_reducible apply Mod.keepsMem_step (Mod.readDev_keepsMem _ _ _ _))
      | (with_reducible apply Mod.keepsMem_step (Mod.keepsMem_of (Mod.snoop_sameBut _ _ _) (by decide)))
      | (with_reducible apply Mod.keepsMem_step (Mod.fillRanks_keepsMem _ _ _ _ _))
      | (with_reducible apply Mod.keepsMem_step (Mod.tileDone_keepsMem _ _ _))
      | split
      | ((with_reducible apply Mod.keepsMem_foldl); intro x e)
      | ((with_reducible apply Mod.keepsMem_foldl_fst); intro x e)
      | dsimp only

theorem Mod.walkPut_keepsMem (m : Mod) (a1 : StreamDesc) (a2 : Nat) (a3 : List Byte) : Mod.keepsMem m (Mod.walkPut m a1 a2 a3) := by
  unfold Mod.walkPut
  repeat'
    first
      | with_reducible exact Mod.keepsMem_refl _
      | with_reducible assumption
      | (extract_lets +onlyGivenNames y; first | (refine Mod.keepsMem_cut y (fun hy => ?_) ?_; rotate_left; subst y; rotate_left; clear_value y) | (refine Mod.keepsMem_cut_fst y (fun hy => ?_) ?_; rotate_left; subst y; rotate_left; clear_value y) | clear_value y)
      | (with_reducible apply Mod.keepsMem_step (Mod.keepsMem_of (Mod.snoop_sameBut _ _ _) (by decide)))
      | (with_reducible apply Mod.keepsMem_step (Mod.sramFill_keepsMem _ _ _ _))
      | split
      | dsimp only

theorem Mod.walkSlot_keepsMem (m : Mod) (a1 : StreamDesc) (a2 : List Byte) (a3 : Nat) (a4 : Prod Nat (Prod Nat Nat)) (a5 : Ecc) : Mod.keepsMem m (Mod.walkSlot m a1 a2 a3 a4 a5).1 := by
  unfold Mod.walkSlot
  repeat'
    first
      | with_reducible exact Mod.keepsMem_refl _
      | with_reducible assumption
      | (extract_lets +onlyGivenNames y; first | (refine Mod.keepsMem_cut y (fun hy => ?_) ?_; rotate_left; subst y; rotate_left; clear_value y) | (refine Mod.keepsMem_cut_fst y (fun hy => ?_) ?_; rotate_left; subst y; rotate_left; clear_value y) | clear_value y)
      | (with_reducible apply Mod.keepsMem_step (Mod.unitRead_keepsMem _ _ _ _ _))
      | (with_reducible apply Mod.keepsMem_step (Mod.walkPut_keepsMem _ _ _ _))
      | split
      | dsimp only

theorem Mod.walkSlots_keepsMem (a0 : StreamDesc) (a1 : List Byte) (a2 : Nat) (a3 : Ecc) (a4 : Nat) (a5 : Nat) (a6 : List (Prod Nat (Prod Nat Nat))) (m : Mod) (a8 : Option (Prod Nat Nat)) : Mod.keepsMem m (Mod.walkSlots a0 a1 a2 a3 a4 a5 a6 m a8).1 := by
  induction a4 generalizing a5 a6 m a8 with
  | zero => exact Mod.keepsMem_refl _
  | succ k ih =>
    unfold Mod.walkSlots
    split
    · refine Mod.keepsMem_trans ?_ (ih _ _ _ _)
      exact (Mod.walkPut_keepsMem _ _ _ _)
    · refine Mod.keepsMem_trans ?_ (ih _ _ _ _)
      exact (Mod.walkSlot_keepsMem _ _ _ _ _ _)

theorem Mod.walkBad_keepsMem (m : Mod) (a1 : StreamDesc) (a2 : List Nat) : Mod.keepsMem m (Mod.walkBad m a1 a2) := by
  unfold Mod.walkBad
  repeat'
    first
      | with_reducible exact Mod.keepsMem_refl _
      | with_reducible assumption
      | (extract_lets +onlyGivenNames y; first | (refine Mod.keepsMem_cut y (fun hy => ?_) ?_; rotate_left; subst y; rotate_left; clear_value y) | (refine Mod.keepsMem_cut_fst y (fun hy => ?_) ?_; rotate_left; subst y; rotate_left; clear_value y) | clear_value y)
      | (with_reducible apply Mod.keepsMem_step (Mod.walkPut_keepsMem _ _ _ _))
      | split
      | ((with_reducible apply Mod.keepsMem_foldl); intro x e)
      | ((with_reducible apply Mod.keepsMem_foldl_fst); intro x e)
      | dsimp only

theorem Mod.walkTile_keepsMem (m : Mod) (a1 : StreamDesc) (a2 : TileRun) (a3 : Ecc) : Mod.keepsMem m (Mod.walkTile m a1 a2 a3) := by
  unfold Mod.walkTile
  repeat'
    first
      | with_reducible exact Mod.keepsMem_refl _
      | with_reducible assumption
      | (extract_lets +onlyGivenNames y; first | (refine Mod.keepsMem_cut y (fun hy => ?_) ?_; rotate_left; subst y; rotate_left; clear_value y) | (refine Mod.keepsMem_cut_fst y (fun hy => ?_) ?_; rotate_left; subst y; rotate_left; clear_value y) | clear_value y)
      | (with_reducible apply Mod.keepsMem_step (Mod.tileDone_keepsMem _ _ _))
      | (with_reducible apply Mod.keepsMem_step (Mod.walkPut_keepsMem _ _ _ _))
      | (with_reducible apply Mod.keepsMem_step (Mod.walkBad_keepsMem _ _ _))
      | (with_reducible apply Mod.keepsMem_step (Mod.unitRead_keepsMem _ _ _ _ _))
      | (with_reducible apply Mod.keepsMem_step (Mod.walkSlots_keepsMem _ _ _ _ _ _ _ _ _))
      | (with_reducible apply Mod.keepsMem_step (Mod.keepsMem_of (Mod.raise_sameBut _ _ _ _ _ _ _) (by decide)))
      | (with_reducible apply Mod.keepsMem_step (Mod.keepsMem_of (Mod.fset_sameBut _ _ _ _ _) (by decide)))
      | split
      | dsimp only

theorem Mod.engineFetch_keepsMem (m : Mod) (a1 : Nat) (a2 : Ecc) : Mod.keepsMem m (Mod.engineFetch m a1 a2) := by
  unfold Mod.engineFetch
  repeat'
    first
      | with_reducible exact Mod.keepsMem_refl _
      | with_reducible assumption
      | (extract_lets +onlyGivenNames y; first | (refine Mod.keepsMem_cut y (fun hy => ?_) ?_; rotate_left; subst y; rotate_left; clear_value y) | (refine Mod.keepsMem_cut_fst y (fun hy => ?_) ?_; rotate_left; subst y; rotate_left; clear_value y) | clear_value y)
      | (with_reducible apply Mod.keepsMem_step (Mod.etchFetch_keepsMem _ _ _ _ _))
      | (with_reducible apply Mod.keepsMem_step (Mod.keepsMem_of (Mod.setRun_sameBut _ _ _) (by decide)))
      | split
      | ((with_reducible apply Mod.keepsMem_foldl); intro x e)
      | ((with_reducible apply Mod.keepsMem_foldl_fst); intro x e)
      | dsimp only

theorem Mod.tileDeliver_keepsMem (m : Mod) (a1 : StreamDesc) (a2 : Ecc) : Mod.keepsMem m (Mod.tileDeliver m a1 a2) := by
  unfold Mod.tileDeliver
  repeat'
    first
      | with_reducible exact Mod.keepsMem_refl _
      | with_reducible assumption
      | (extract_lets +onlyGivenNames y; first | (refine Mod.keepsMem_cut y (fun hy => ?_) ?_; rotate_left; subst y; rotate_left; clear_value y) | (refine Mod.keepsMem_cut_fst y (fun hy => ?_) ?_; rotate_left; subst y; rotate_left; clear_value y) | clear_value y)
      | (with_reducible apply Mod.keepsMem_step (Mod.engineFetch_keepsMem _ _ _))
      | (with_reducible apply Mod.keepsMem_step (Mod.tileDone_keepsMem _ _ _))
      | (with_reducible apply Mod.keepsMem_step (Mod.moveTile_keepsMem _ _ _ _))
      | (with_reducible apply Mod.keepsMem_step (Mod.stashTile_keepsMem _ _ _ _))
      | (with_reducible apply Mod.keepsMem_step (Mod.unstashTile_keepsMem _ _ _ _))
      | (with_reducible apply Mod.keepsMem_step (Mod.walkTile_keepsMem _ _ _ _))
      | split
      | dsimp only

theorem Mod.walkStart_keepsMem (m : Mod) (a1 : StreamDesc) (a2 : Ecc) : Mod.keepsMem m (Mod.walkStart m a1 a2) := by
  unfold Mod.walkStart
  repeat'
    first
      | with_reducible exact Mod.keepsMem_refl _
      | with_reducible assumption
      | (extract_lets +onlyGivenNames y; first | (refine Mod.keepsMem_cut y (fun hy => ?_) ?_; rotate_left; subst y; rotate_left; clear_value y) | (refine Mod.keepsMem_cut_fst y (fun hy => ?_) ?_; rotate_left; subst y; rotate_left; clear_value y) | subst y)
      | (with_reducible apply Mod.keepsMem_step (Mod.unitRead_keepsMem _ _ _ _ _))
      | (with_reducible apply Mod.keepsMem_step (Mod.keepsMem_of (Mod.setCtx_sameBut _ _ _) (by decide)))
      | (with_reducible apply Mod.keepsMem_step (Mod.keepsMem_of (Mod.raiseStep_sameBut _ _ _ _ _ _) (by decide)))
      | (with_reducible apply Mod.keepsMem_step (Mod.keepsMem_of (Mod.fset_sameBut _ _ _ _ _) (by decide)))
      | (with_reducible apply Mod.keepsMem_step (Mod.keepsMem_of (Mod.raise_sameBut _ _ _ _ _ _ _) (by decide)))
      | split
      | dsimp only

theorem Mod.tileStart_keepsMem (m : Mod) (a1 : StreamDesc) (a2 : Ecc) : Mod.keepsMem m (Mod.tileStart m a1 a2) := by
  unfold Mod.tileStart
  repeat'
    first
      | with_reducible exact Mod.keepsMem_refl _
      | with_reducible assumption
      | (extract_lets +onlyGivenNames y; first | (refine Mod.keepsMem_cut y (fun hy => ?_) ?_; rotate_left; subst y; rotate_left; clear_value y) | (refine Mod.keepsMem_cut_fst y (fun hy => ?_) ?_; rotate_left; subst y; rotate_left; clear_value y) | clear_value y)
      | (with_reducible apply Mod.keepsMem_step (Mod.keepsMem_of (Mod.setWin_sameBut _ _ _) (by decide)))
      | (with_reducible apply Mod.keepsMem_step (Mod.walkStart_keepsMem _ _ _))
      | (with_reducible apply Mod.keepsMem_step (Mod.keepsMem_of (Mod.setInst_sameBut _ _ _) (by decide)))
      | (with_reducible apply Mod.keepsMem_step (Mod.tileAsk_keepsMem _ _ _))
      | (with_reducible apply Mod.keepsMem_step (Mod.keepsMem_of (Mod.gates_sameBut _) (by decide)))
      | (with_reducible apply Mod.keepsMem_step (Mod.engineFetch_keepsMem _ _ _))
      | (with_reducible apply Mod.keepsMem_step (Mod.keepsMem_of (Mod.setCtx_sameBut _ _ _) (by decide)))
      | split
      | dsimp only

theorem Mod.verdictActions_keepsMem (m : Mod) (a1 : Ecc) : Mod.keepsMem m (Mod.verdictActions m a1) := by
  unfold Mod.verdictActions
  repeat'
    first
      | with_reducible exact Mod.keepsMem_refl _
      | with_reducible assumption
      | (extract_lets +onlyGivenNames y; first | (refine Mod.keepsMem_cut y (fun hy => ?_) ?_; rotate_left; subst y; rotate_left; clear_value y) | (refine Mod.keepsMem_cut_fst y (fun hy => ?_) ?_; rotate_left; subst y; rotate_left; clear_value y) | clear_value y)
      | (with_reducible apply Mod.keepsMem_step (Mod.keepsMem_of (Mod.verdictSeen_sameBut _ _) (by decide)))
      | (with_reducible apply Mod.keepsMem_step (Mod.finalActions_keepsMem _ _ _))
      | (with_reducible apply Mod.keepsMem_step (Mod.keepsMem_of (Mod.trace_sameBut _ _ _ _ _ _ _) (by decide)))
      | (with_reducible apply Mod.keepsMem_step (Mod.keepsMem_of (Mod.verdictVector_sameBut _) (by decide)))
      | (with_reducible apply Mod.keepsMem_step (Mod.keepsMem_of (Mod.verdictEvent_sameBut _ _) (by decide)))
      | split
      | dsimp only
      | ((with_reducible apply Mod.keepsMem_mk))

theorem Mod.accForget_keepsMem (m : Mod) (a1 : Nat) : Mod.keepsMem m (Mod.accForget m a1) :=
  fun h => ⟨h.1, h.2.1, h.2.2.1, Memory.wf_keepCells _ h.2.2.2⟩

theorem Mod.accPut_keepsMem (m : Mod) (a1 : Nat) (a2 : List (Prod Nat Byte)) : Mod.keepsMem m (Mod.accPut m a1 a2) :=
  fun h => ⟨h.1, h.2.1, h.2.2.1, Memory.wf_setAll _ a2 h.2.2.2⟩

theorem Mod.attnKernel_keepsMem (m : Mod) (a1 : Nat) (a2 : Nat) (a3 : Ecc) (a4 : SramRead → Kernel → KEnv → AResult) : Mod.keepsMem m (Mod.attnKernel m a1 a2 a3 a4) := by
  unfold Mod.attnKernel
  repeat'
    first
      | with_reducible exact Mod.keepsMem_refl _
      | with_reducible assumption
      | (extract_lets +onlyGivenNames y; first | (refine Mod.keepsMem_cut y (fun hy => ?_) ?_; rotate_left; subst y; rotate_left; clear_value y) | (refine Mod.keepsMem_cut_fst y (fun hy => ?_) ?_; rotate_left; subst y; rotate_left; clear_value y) | clear_value y)
      | unfold Mod.kernelOn
      | (with_reducible apply Mod.keepsMem_step (Mod.accForget_keepsMem _ _))
      | (with_reducible apply Mod.keepsMem_step (Mod.attnResult_keepsMem _ _ _ _))
      | (with_reducible apply Mod.keepsMem_step (Mod.sramErrors_keepsMem _ _ _ _ _))
      | (with_reducible apply Mod.keepsMem_step (Mod.keepsMem_of (Mod.workDone_sameBut _ _) (by decide)))
      | split
      | dsimp only

theorem Mod.linkDown_keepsMem (m : Mod) (a1 : Nat) (a2 : Nat) (a3 : List LoftReq) : Mod.keepsMem m (Mod.linkDown m a1 a2 a3) := by
  unfold Mod.linkDown
  repeat'
    first
      | with_reducible exact Mod.keepsMem_refl _
      | with_reducible assumption
      | (extract_lets +onlyGivenNames y; first | (refine Mod.keepsMem_cut y (fun hy => ?_) ?_; rotate_left; subst y; rotate_left; clear_value y) | (refine Mod.keepsMem_cut_fst y (fun hy => ?_) ?_; rotate_left; subst y; rotate_left; clear_value y) | clear_value y)
      | (with_reducible apply Mod.keepsMem_step (Mod.keepsMem_of (Mod.fset_sameBut _ _ _ _ _) (by decide)))
      | (with_reducible apply Mod.keepsMem_step (Mod.setLoftPort_keepsMem _ _ _))
      | (with_reducible apply Mod.keepsMem_step (Mod.keepsMem_of (Mod.raise_sameBut _ _ _ _ _ _ _) (by decide)))
      | split
      | dsimp only

theorem Mod.matKernel_keepsMem (m : Mod) (a1 : Nat) (a2 : KOp) (a3 : Ecc) (a4 : SramRead → Kernel → KEnv → MatForm) : Mod.keepsMem m (Mod.matKernel m a1 a2 a3 a4) := by
  unfold Mod.matKernel
  repeat'
    first
      | with_reducible exact Mod.keepsMem_refl _
      | with_reducible assumption
      | (extract_lets +onlyGivenNames y; first | (refine Mod.keepsMem_cut y (fun hy => ?_) ?_; rotate_left; subst y; rotate_left; clear_value y) | (refine Mod.keepsMem_cut_fst y (fun hy => ?_) ?_; rotate_left; subst y; rotate_left; clear_value y) | clear_value y)
      | unfold Mod.kernelOn
      | (with_reducible apply Mod.keepsMem_step (Mod.accPut_keepsMem _ _ _))
      | (with_reducible apply Mod.keepsMem_step (Mod.kernelResult_keepsMem _ _ _))
      | (with_reducible apply Mod.keepsMem_step (Mod.sramErrors_keepsMem _ _ _ _ _))
      | (with_reducible apply Mod.keepsMem_step (Mod.keepsMem_of (Mod.workDone_sameBut _ _) (by decide)))
      | split
      | dsimp only

theorem Mod.sramKernel_keepsMem (m : Mod) (a1 : Nat) (a2 : KOp) (a3 : Ecc) (a4 : SramRead → Kernel → KEnv → KResult) : Mod.keepsMem m (Mod.sramKernel m a1 a2 a3 a4) := by
  unfold Mod.sramKernel
  repeat'
    first
      | with_reducible exact Mod.keepsMem_refl _
      | with_reducible assumption
      | (extract_lets +onlyGivenNames y; first | (refine Mod.keepsMem_cut y (fun hy => ?_) ?_; rotate_left; subst y; rotate_left; clear_value y) | (refine Mod.keepsMem_cut_fst y (fun hy => ?_) ?_; rotate_left; subst y; rotate_left; clear_value y) | clear_value y)
      | unfold Mod.kernelOn
      | (with_reducible apply Mod.keepsMem_step (Mod.kernelResult_keepsMem _ _ _))
      | (with_reducible apply Mod.keepsMem_step (Mod.sramErrors_keepsMem _ _ _ _ _))
      | (with_reducible apply Mod.keepsMem_step (Mod.keepsMem_of (Mod.workDone_sameBut _ _) (by decide)))
      | split
      | dsimp only

end Sys2Proof.Machine
end

