-- ==== Sys2Proof/WellFormed.lean ====
section
/-! DEFINITION. Which commands are well formed: instance numbers lie in the ranges the manual gives their units. -/

namespace Sys2Proof

/-- The engine exists: one of the 3,072 cores (03_cores.md) or of the groom units G0 to G11 (01_architecture.md). -/
def Engine.inRange : Engine → Bool
  | .core n => decide (n < 3072)
  | .groom n => decide (n < 12)

/-- Each field of an element instruction fits the bits that 07_groom_units.md Table 07-2 gives it. -/
def ElemWord.fits (w : ElemWord) : Bool := decide (w.dst < 32) && decide (w.a < 64) && decide (w.b < 64) && decide (w.c < 64)

/-- The ranges of a command's operands: two slots (02_plate_and_tick.md R42), 3,072 cores, 1,024 barriers (R69), 12 stacks
and groom units, 4 CXL ports, 64 stream engines of 16 contexts (11_streams.md R276), 64 fabric ports of three classes and two
virtual lanes (12_fabric_ports.md R311), 8 reducers and check units, 52 sensors (17_power_reset.md R435), four event
classes, 32 constants, BAR2 sizes (14_host_interface.md Table 14-3), 7-bit I3C addresses. -/
def Instr.wf (i : Instr) : Prop :=
  match i with
  | .registerWrite _ _ => True
  | .readLoSnapshot _ => True
  | .writeHiCommit _ _ => True
  | .pendingFieldApply => True
  | .bar2Write _ _ _ _ => True
  | .bar2Read _ _ _ _ => True
  | .slotOpen slot => slot < 2
  | .slotProve slot => slot < 2
  | .slotClear slot => slot < 2
  | .proofComplete slot _ => slot < 2
  | .plateActivate slot => slot < 2
  | .plateDeactivate => True
  | .plateCancel => True
  | .activationTakesEffect => True
  | .deactivationTakesEffect => True
  | .routeUpdateTakesEffect => True
  | .tickBoundary _ _ => True
  | .tckPeriodWrite _ => True
  | .upstreamFailover => True
  | .tickInEdge _ => True
  | .tickInLost => True
  | .barrierSignal id => id < 1024
  | .stepTimeout => True
  | .kernelStart core => core < 3072
  | .kernelComplete core => core < 3072
  | .matmul core _ => core < 3072
  | .conv core _ => core < 3072
  | .attnForward core _ => core < 3072
  | .attnMerge core _ => core < 3072
  | .attnBackward core _ => core < 3072
  | .attnKvGrad core _ => core < 3072
  | .element core _ => core < 3072
  | .reduce core _ => core < 3072
  | .scan core _ => core < 3072
  | .gather core _ => core < 3072
  | .scatter core _ => core < 3072
  | .transpose core _ => core < 3072
  | .copy core _ => core < 3072
  | .topk core _ => core < 3072
  | .elemEnd eng w => eng.inRange = true ∧ w.fits = true
  | .mov eng w => eng.inRange = true ∧ w.fits = true
  | .add eng w => eng.inRange = true ∧ w.fits = true
  | .sub eng w => eng.inRange = true ∧ w.fits = true
  | .mul eng w => eng.inRange = true ∧ w.fits = true
  | .fma eng w => eng.inRange = true ∧ w.fits = true
  | .fms eng w => eng.inRange = true ∧ w.fits = true
  | .div eng w => eng.inRange = true ∧ w.fits = true
  | .recip eng w => eng.inRange = true ∧ w.fits = true
  | .sqrt eng w => eng.inRange = true ∧ w.fits = true
  | .rsqrt eng w => eng.inRange = true ∧ w.fits = true
  | .exp2 eng w => eng.inRange = true ∧ w.fits = true
  | .log2 eng w => eng.inRange = true ∧ w.fits = true
  | .tanh eng w => eng.inRange = true ∧ w.fits = true
  | .max eng w => eng.inRange = true ∧ w.fits = true
  | .min eng w => eng.inRange = true ∧ w.fits = true
  | .abs eng w => eng.inRange = true ∧ w.fits = true
  | .neg eng w => eng.inRange = true ∧ w.fits = true
  | .sign eng w => eng.inRange = true ∧ w.fits = true
  | .clamp eng w => eng.inRange = true ∧ w.fits = true
  | .cmplt eng w => eng.inRange = true ∧ w.fits = true
  | .cmpeq eng w => eng.inRange = true ∧ w.fits = true
  | .sel eng w => eng.inRange = true ∧ w.fits = true
  | .cvt eng w => eng.inRange = true ∧ w.fits = true
  | .srnd eng w => eng.inRange = true ∧ w.fits = true
  | .nacc eng w => eng.inRange = true ∧ w.fits = true
  | .kernelHang core => core < 3072
  | .stableReset core => core < 3072
  | .coreBist core => core < 3072
  | .bistComplete core _ => core < 3072
  | .coreClrSat core => core < 3072
  | .watchPartialMerge _ _ _ => True
  | .stashPlace stream => stream < 1024
  | .padClrLow => True
  | .stepszNextWrite _ => True
  | .stepNextWrite _ => True
  | .kdataWrite k _ => k < 32
  | .ksetWrite _ => True
  | .stepStart => True
  | .groomPassStart _ => True
  | .groomSliceProcess unit _ => unit < 12
  | .groomPassComplete unit _ => unit < 12
  | .grmClrSat unit => unit < 12
  | .reconcileCopy _ _ => True
  | .sendReductionRecord => True
  | .normRecordReceived => True
  | .verdictReceived => True
  | .verdictActions _ => True
  | .verdictTimeout => True
  | .deferredPass _ _ => True
  | .drainPass _ => True
  | .patrolScrub _ => True
  | .hbmStackDown stack _ => stack < 12
  | .loftLinkDown port _ => port < 4
  | .loftLinkReturn port => port < 4
  | .loftLinkLost port => port < 4
  | .loftRetrain port _ _ => port < 4
  | .lftCfgWrite _ => True
  | .loftPoison port _ _ => port < 4
  | .loftViral port => port < 4
  | .loftDevEvent port _ _ => port < 4
  | .poolMoveUp _ _ => True
  | .poolUnpin _ _ => True
  | .moveUpComplete _ _ => True
  | .writebackComplete _ _ => True
  | .poolExhausted _ _ => True
  | .remoteWrite _ => True
  | .readReq _ => True
  | .readResp => True
  | .streamTileStart stream _ => stream < 1024
  | .streamTileDelivered stream _ => stream < 1024
  | .etchBlockExpand engine _ => engine < 64
  | .decodeTableLoad _ => True
  | .decodeTableSwitch engine => engine < 64
  | .stmClrSat engine => engine < 64
  | .probeTimer port => port < 64
  | .signalDetected port => port < 64
  | .trainingEnd port _ _ _ => port < 64
  | .flitReceived port _ => port < 64
  | .linkRetryTimeout port => port < 64
  | .creditWaitLong port cls vl _ => port < 64 ∧ cls < 3 ∧ vl < 2
  | .controlFlitReceived port _ => port < 64
  | .markReceived port _ _ _ _ => port < 64
  | .echoReceived port _ _ => port < 64
  | .laneFailure port lanes _ => port < 64 ∧ 0 < lanes ∧ lanes < 256
  | .retrainComplete port _ => port < 64
  | .retrainTimeout port => port < 64
  | .portLinkLoss port _ => port < 64
  | .portReset port => port < 64
  | .testStart port => port < 64
  | .testStop port => port < 64
  | .e2eAck => True
  | .e2eAckDue _ cls => cls < 3
  | .e2eTimeout _ cls => cls < 3
  | .exchange _ _ => True
  | .rows _ _ => True
  | .allreduce _ _ => True
  | .fence _ => True
  | .collFlit _ => True
  | .colClrSat reducer => reducer < 8
  | .hostLinkTrained _ _ => True
  | .flr => True
  | .hotReset => True
  | .dlDown => True
  | .perstAssert => True
  | .perstDeassert _ => True
  | .powerApplied _ => True
  | .bar2BaseWrite _ _ => True
  | .bar2Resize lg => 30 ≤ lg ∧ lg ≤ 39
  | .ringCtrlWrite _ => True
  | .ringAddrWrite _ _ => True
  | .ringConsWrite _ => True
  | .eventProduced => True
  | .ringRecordWrite => True
  | .eventDropped => True
  | .coalesceExpiry cls => cls < 4
  | .msixUnmask _ => True
  | .logAckWrite _ => True
  | .doeRequest _ _ => True
  | .doeAbort => True
  | .getInfo _ => True
  | .getEndorsement _ => True
  | .getMeasurements _ => True
  | .getQuote _ _ _ => True
  | .getKemKey _ => True
  | .loadKey _ _ _ _ _ => True
  | .clearKey _ _ => True
  | .keySlotApply => True
  | .mctpControl _ _ => True
  | .pldmMonitoring _ _ => True
  | .eventLogRead _ _ _ => True
  | .fwuBegin _ => True
  | .fwuHeader _ _ => True
  | .fwuList _ _ => True
  | .fwuBlock _ _ => True
  | .fwuEnd _ => True
  | .fwuActivate _ _ => True
  | .fwuAbort _ => True
  | .nonce _ => True
  | .nonceExpiry => True
  | .dbgUnlock _ _ => True
  | .dbgRelock _ => True
  | .unlockExpiry => True
  | .setPolicy _ _ => True
  | .fwConfirm => True
  | .fwConfirmTimeout => True
  | .supplyWarnAssert mv => mv < 48500
  | .supplyWarnClear _ _ => True
  | .warnHoldExpiry => True
  | .supplyPark _ => True
  | .supplyResetAssert mv => mv < 44000
  | .tempSample sensor _ => sensor < 52
  | .thermalStepTimer => True
  | .thermtrip sensor _ => sensor < 52
  | .profileRequest _ _ => True
  | .capWrite _ _ => True
  | .defaultProfileWrite _ _ => True
  | .parkRequest _ => True
  | .parkEntry => True
  | .activeRequest _ => True
  | .fabricWake port => port < 64
  | .idleEntry => True
  | .softReset _ _ _ => True
  | .d3hotEntry => True
  | .d0Entry => True
  | .bmcWakeRequest => True
  | .wakeTimeout => True
  | .mgmtWatchdog _ => True
  | .dbgHalt scope target => scope < 4 ∧ target < 4096
  | .dbgResume scope target => scope < 4 ∧ target < 4096
  | .dbgStep scope target => scope < 4 ∧ target < 4096
  | .dbgMemRead _ => True
  | .dbgMemWrite _ => True
  | .frzNAssert => True
  | .frzCtrlFreeze => True
  | .readoutReady => True
  | .frzMemread => True
  | .traceStart => True
  | .traceStop => True
  | .idcode => True
  | .samplePreload => True
  | .extest => True
  | .tapClamp => True
  | .highz => True
  | .dbgAccess _ _ _ => True
  | .bypass => True
  | .tapReset => True
  | .chkStart unit _ => unit < 8
  | .chkAbort unit => unit < 8
  | .chkPlateJobStart _ _ => True
  | .chkJobComplete unit => unit < 8
  | .flitSlot port _ _ => port < 64
  | .frzNDeassert => True
  | .railFault => True
  | .expanderHotAdd port _ _ _ _ => port < 4
  | .i3cAddressAssign addr => addr < 128

/-- Well-formedness is decidable: `true` exactly on the well-formed commands. -/
def Instr.wfb (i : Instr) : Bool :=
  match i with
  | .registerWrite _ _ => true
  | .readLoSnapshot _ => true
  | .writeHiCommit _ _ => true
  | .pendingFieldApply  => true
  | .bar2Write _ _ _ _ => true
  | .bar2Read _ _ _ _ => true
  | .slotOpen slot => decide (slot < 2)
  | .slotProve slot => decide (slot < 2)
  | .slotClear slot => decide (slot < 2)
  | .proofComplete slot _ => decide (slot < 2)
  | .plateActivate slot => decide (slot < 2)
  | .plateDeactivate  => true
  | .plateCancel  => true
  | .activationTakesEffect  => true
  | .deactivationTakesEffect  => true
  | .routeUpdateTakesEffect  => true
  | .tickBoundary _ _ => true
  | .tckPeriodWrite _ => true
  | .upstreamFailover  => true
  | .tickInEdge _ => true
  | .tickInLost  => true
  | .barrierSignal id => decide (id < 1024)
  | .stepTimeout  => true
  | .kernelStart core => decide (core < 3072)
  | .kernelComplete core => decide (core < 3072)
  | .matmul core _ => decide (core < 3072)
  | .conv core _ => decide (core < 3072)
  | .attnForward core _ => decide (core < 3072)
  | .attnMerge core _ => decide (core < 3072)
  | .attnBackward core _ => decide (core < 3072)
  | .attnKvGrad core _ => decide (core < 3072)
  | .element core _ => decide (core < 3072)
  | .reduce core _ => decide (core < 3072)
  | .scan core _ => decide (core < 3072)
  | .gather core _ => decide (core < 3072)
  | .scatter core _ => decide (core < 3072)
  | .transpose core _ => decide (core < 3072)
  | .copy core _ => decide (core < 3072)
  | .topk core _ => decide (core < 3072)
  | .elemEnd eng w => decide (eng.inRange = true ∧ w.fits = true)
  | .mov eng w => decide (eng.inRange = true ∧ w.fits = true)
  | .add eng w => decide (eng.inRange = true ∧ w.fits = true)
  | .sub eng w => decide (eng.inRange = true ∧ w.fits = true)
  | .mul eng w => decide (eng.inRange = true ∧ w.fits = true)
  | .fma eng w => decide (eng.inRange = true ∧ w.fits = true)
  | .fms eng w => decide (eng.inRange = true ∧ w.fits = true)
  | .div eng w => decide (eng.inRange = true ∧ w.fits = true)
  | .recip eng w => decide (eng.inRange = true ∧ w.fits = true)
  | .sqrt eng w => decide (eng.inRange = true ∧ w.fits = true)
  | .rsqrt eng w => decide (eng.inRange = true ∧ w.fits = true)
  | .exp2 eng w => decide (eng.inRange = true ∧ w.fits = true)
  | .log2 eng w => decide (eng.inRange = true ∧ w.fits = true)
  | .tanh eng w => decide (eng.inRange = true ∧ w.fits = true)
  | .max eng w => decide (eng.inRange = true ∧ w.fits = true)
  | .min eng w => decide (eng.inRange = true ∧ w.fits = true)
  | .abs eng w => decide (eng.inRange = true ∧ w.fits = true)
  | .neg eng w => decide (eng.inRange = true ∧ w.fits = true)
  | .sign eng w => decide (eng.inRange = true ∧ w.fits = true)
  | .clamp eng w => decide (eng.inRange = true ∧ w.fits = true)
  | .cmplt eng w => decide (eng.inRange = true ∧ w.fits = true)
  | .cmpeq eng w => decide (eng.inRange = true ∧ w.fits = true)
  | .sel eng w => decide (eng.inRange = true ∧ w.fits = true)
  | .cvt eng w => decide (eng.inRange = true ∧ w.fits = true)
  | .srnd eng w => decide (eng.inRange = true ∧ w.fits = true)
  | .nacc eng w => decide (eng.inRange = true ∧ w.fits = true)
  | .kernelHang core => decide (core < 3072)
  | .stableReset core => decide (core < 3072)
  | .coreBist core => decide (core < 3072)
  | .bistComplete core _ => decide (core < 3072)
  | .coreClrSat core => decide (core < 3072)
  | .watchPartialMerge _ _ _ => true
  | .stashPlace stream => decide (stream < 1024)
  | .padClrLow  => true
  | .stepszNextWrite _ => true
  | .stepNextWrite _ => true
  | .kdataWrite k _ => decide (k < 32)
  | .ksetWrite _ => true
  | .stepStart  => true
  | .groomPassStart _ => true
  | .groomSliceProcess unit _ => decide (unit < 12)
  | .groomPassComplete unit _ => decide (unit < 12)
  | .grmClrSat unit => decide (unit < 12)
  | .reconcileCopy _ _ => true
  | .sendReductionRecord  => true
  | .normRecordReceived  => true
  | .verdictReceived  => true
  | .verdictActions _ => true
  | .verdictTimeout  => true
  | .deferredPass _ _ => true
  | .drainPass _ => true
  | .patrolScrub _ => true
  | .hbmStackDown stack _ => decide (stack < 12)
  | .loftLinkDown port _ => decide (port < 4)
  | .loftLinkReturn port => decide (port < 4)
  | .loftLinkLost port => decide (port < 4)
  | .loftRetrain port _ _ => decide (port < 4)
  | .lftCfgWrite _ => true
  | .loftPoison port _ _ => decide (port < 4)
  | .loftViral port => decide (port < 4)
  | .loftDevEvent port _ _ => decide (port < 4)
  | .poolMoveUp _ _ => true
  | .poolUnpin _ _ => true
  | .moveUpComplete _ _ => true
  | .writebackComplete _ _ => true
  | .poolExhausted _ _ => true
  | .remoteWrite _ => true
  | .readReq _ => true
  | .readResp  => true
  | .streamTileStart stream _ => decide (stream < 1024)
  | .streamTileDelivered stream _ => decide (stream < 1024)
  | .etchBlockExpand engine _ => decide (engine < 64)
  | .decodeTableLoad _ => true
  | .decodeTableSwitch engine => decide (engine < 64)
  | .stmClrSat engine => decide (engine < 64)
  | .probeTimer port => decide (port < 64)
  | .signalDetected port => decide (port < 64)
  | .trainingEnd port _ _ _ => decide (port < 64)
  | .flitReceived port _ => decide (port < 64)
  | .linkRetryTimeout port => decide (port < 64)
  | .creditWaitLong port cls vl _ => decide (port < 64 ∧ cls < 3 ∧ vl < 2)
  | .controlFlitReceived port _ => decide (port < 64)
  | .markReceived port _ _ _ _ => decide (port < 64)
  | .echoReceived port _ _ => decide (port < 64)
  | .laneFailure port lanes _ => decide (port < 64 ∧ 0 < lanes ∧ lanes < 256)
  | .retrainComplete port _ => decide (port < 64)
  | .retrainTimeout port => decide (port < 64)
  | .portLinkLoss port _ => decide (port < 64)
  | .portReset port => decide (port < 64)
  | .testStart port => decide (port < 64)
  | .testStop port => decide (port < 64)
  | .e2eAck  => true
  | .e2eAckDue _ cls => decide (cls < 3)
  | .e2eTimeout _ cls => decide (cls < 3)
  | .exchange _ _ => true
  | .rows _ _ => true
  | .allreduce _ _ => true
  | .fence _ => true
  | .collFlit _ => true
  | .colClrSat reducer => decide (reducer < 8)
  | .hostLinkTrained _ _ => true
  | .flr  => true
  | .hotReset  => true
  | .dlDown  => true
  | .perstAssert  => true
  | .perstDeassert _ => true
  | .powerApplied _ => true
  | .bar2BaseWrite _ _ => true
  | .bar2Resize lg => decide (30 ≤ lg ∧ lg ≤ 39)
  | .ringCtrlWrite _ => true
  | .ringAddrWrite _ _ => true
  | .ringConsWrite _ => true
  | .eventProduced  => true
  | .ringRecordWrite  => true
  | .eventDropped  => true
  | .coalesceExpiry cls => decide (cls < 4)
  | .msixUnmask _ => true
  | .logAckWrite _ => true
  | .doeRequest _ _ => true
  | .doeAbort  => true
  | .getInfo _ => true
  | .getEndorsement _ => true
  | .getMeasurements _ => true
  | .getQuote _ _ _ => true
  | .getKemKey _ => true
  | .loadKey _ _ _ _ _ => true
  | .clearKey _ _ => true
  | .keySlotApply  => true
  | .mctpControl _ _ => true
  | .pldmMonitoring _ _ => true
  | .eventLogRead _ _ _ => true
  | .fwuBegin _ => true
  | .fwuHeader _ _ => true
  | .fwuList _ _ => true
  | .fwuBlock _ _ => true
  | .fwuEnd _ => true
  | .fwuActivate _ _ => true
  | .fwuAbort _ => true
  | .nonce _ => true
  | .nonceExpiry  => true
  | .dbgUnlock _ _ => true
  | .dbgRelock _ => true
  | .unlockExpiry  => true
  | .setPolicy _ _ => true
  | .fwConfirm  => true
  | .fwConfirmTimeout  => true
  | .supplyWarnAssert mv => decide (mv < 48500)
  | .supplyWarnClear _ _ => true
  | .warnHoldExpiry  => true
  | .supplyPark _ => true
  | .supplyResetAssert mv => decide (mv < 44000)
  | .tempSample sensor _ => decide (sensor < 52)
  | .thermalStepTimer  => true
  | .thermtrip sensor _ => decide (sensor < 52)
  | .profileRequest _ _ => true
  | .capWrite _ _ => true
  | .defaultProfileWrite _ _ => true
  | .parkRequest _ => true
  | .parkEntry  => true
  | .activeRequest _ => true
  | .fabricWake port => decide (port < 64)
  | .idleEntry  => true
  | .softReset _ _ _ => true
  | .d3hotEntry  => true
  | .d0Entry  => true
  | .bmcWakeRequest  => true
  | .wakeTimeout  => true
  | .mgmtWatchdog _ => true
  | .dbgHalt scope target => decide (scope < 4 ∧ target < 4096)
  | .dbgResume scope target => decide (scope < 4 ∧ target < 4096)
  | .dbgStep scope target => decide (scope < 4 ∧ target < 4096)
  | .dbgMemRead _ => true
  | .dbgMemWrite _ => true
  | .frzNAssert  => true
  | .frzCtrlFreeze  => true
  | .readoutReady  => true
  | .frzMemread  => true
  | .traceStart  => true
  | .traceStop  => true
  | .idcode  => true
  | .samplePreload  => true
  | .extest  => true
  | .tapClamp  => true
  | .highz  => true
  | .dbgAccess _ _ _ => true
  | .bypass  => true
  | .tapReset  => true
  | .chkStart unit _ => decide (unit < 8)
  | .chkAbort unit => decide (unit < 8)
  | .chkPlateJobStart _ _ => true
  | .chkJobComplete unit => decide (unit < 8)
  | .flitSlot port _ _ => decide (port < 64)
  | .frzNDeassert  => true
  | .railFault  => true
  | .expanderHotAdd port _ _ _ _ => decide (port < 4)
  | .i3cAddressAssign addr => decide (addr < 128)

end Sys2Proof
end

