-- ==== Sys2Proof/Laws/PerInstr.lean ====
section
/-! SUPPORT. Statements made for every command, one lemma per constructor. -/

namespace Sys2Proof.Laws

/-- The check `wfb` decides well-formedness. -/
def WfDecides.Statement (i : Instr) : Prop := i.wfb = true ↔ i.wf

theorem WfDecides.registerWrite (off : Nat) (word : BusWrite) : WfDecides.Statement (.registerWrite off word) := ⟨fun _ => trivial, fun _ => rfl⟩
theorem WfDecides.readLoSnapshot (read : BusRead) : WfDecides.Statement (.readLoSnapshot read) := ⟨fun _ => trivial, fun _ => rfl⟩
theorem WfDecides.writeHiCommit (off : Nat) (val : Nat) : WfDecides.Statement (.writeHiCommit off val) := ⟨fun _ => trivial, fun _ => rfl⟩
theorem WfDecides.pendingFieldApply : WfDecides.Statement (.pendingFieldApply) := ⟨fun _ => trivial, fun _ => rfl⟩
theorem WfDecides.bar2Write (off : Nat) (data : List (Option Byte)) (ecc : Ecc) (tlp : Option TlpBad) : WfDecides.Statement (.bar2Write off data ecc tlp) := ⟨fun _ => trivial, fun _ => rfl⟩
theorem WfDecides.bar2Read (off : Nat) (len : Nat) (ecc : Ecc) (tlp : Option TlpBad) : WfDecides.Statement (.bar2Read off len ecc tlp) := ⟨fun _ => trivial, fun _ => rfl⟩
theorem WfDecides.slotOpen (slot : Nat) : WfDecides.Statement (.slotOpen slot) := decide_eq_true_iff
theorem WfDecides.slotProve (slot : Nat) : WfDecides.Statement (.slotProve slot) := decide_eq_true_iff
theorem WfDecides.slotClear (slot : Nat) : WfDecides.Statement (.slotClear slot) := decide_eq_true_iff
theorem WfDecides.proofComplete (slot : Nat) (ecc : Ecc) : WfDecides.Statement (.proofComplete slot ecc) := decide_eq_true_iff
theorem WfDecides.plateActivate (slot : Nat) : WfDecides.Statement (.plateActivate slot) := decide_eq_true_iff
theorem WfDecides.plateDeactivate : WfDecides.Statement (.plateDeactivate) := ⟨fun _ => trivial, fun _ => rfl⟩
theorem WfDecides.plateCancel : WfDecides.Statement (.plateCancel) := ⟨fun _ => trivial, fun _ => rfl⟩
theorem WfDecides.activationTakesEffect : WfDecides.Statement (.activationTakesEffect) := ⟨fun _ => trivial, fun _ => rfl⟩
theorem WfDecides.deactivationTakesEffect : WfDecides.Statement (.deactivationTakesEffect) := ⟨fun _ => trivial, fun _ => rfl⟩
theorem WfDecides.routeUpdateTakesEffect : WfDecides.Statement (.routeUpdateTakesEffect) := ⟨fun _ => trivial, fun _ => rfl⟩
theorem WfDecides.tickBoundary (input : InputSample) (energy : Nat) : WfDecides.Statement (.tickBoundary input energy) := ⟨fun _ => trivial, fun _ => rfl⟩
theorem WfDecides.tckPeriodWrite (val : Nat) : WfDecides.Statement (.tckPeriodWrite val) := ⟨fun _ => trivial, fun _ => rfl⟩
theorem WfDecides.upstreamFailover : WfDecides.Statement (.upstreamFailover) := ⟨fun _ => trivial, fun _ => rfl⟩
theorem WfDecides.tickInEdge (err : Int) : WfDecides.Statement (.tickInEdge err) := ⟨fun _ => trivial, fun _ => rfl⟩
theorem WfDecides.tickInLost : WfDecides.Statement (.tickInLost) := ⟨fun _ => trivial, fun _ => rfl⟩
theorem WfDecides.barrierSignal (id : Nat) : WfDecides.Statement (.barrierSignal id) := decide_eq_true_iff
theorem WfDecides.stepTimeout : WfDecides.Statement (.stepTimeout) := ⟨fun _ => trivial, fun _ => rfl⟩
theorem WfDecides.kernelStart (core : Nat) : WfDecides.Statement (.kernelStart core) := decide_eq_true_iff
theorem WfDecides.kernelComplete (core : Nat) : WfDecides.Statement (.kernelComplete core) := decide_eq_true_iff
theorem WfDecides.matmul (core : Nat) (ecc : Ecc) : WfDecides.Statement (.matmul core ecc) := decide_eq_true_iff
theorem WfDecides.conv (core : Nat) (ecc : Ecc) : WfDecides.Statement (.conv core ecc) := decide_eq_true_iff
theorem WfDecides.attnForward (core : Nat) (ecc : Ecc) : WfDecides.Statement (.attnForward core ecc) := decide_eq_true_iff
theorem WfDecides.attnMerge (core : Nat) (ecc : Ecc) : WfDecides.Statement (.attnMerge core ecc) := decide_eq_true_iff
theorem WfDecides.attnBackward (core : Nat) (ecc : Ecc) : WfDecides.Statement (.attnBackward core ecc) := decide_eq_true_iff
theorem WfDecides.attnKvGrad (core : Nat) (ecc : Ecc) : WfDecides.Statement (.attnKvGrad core ecc) := decide_eq_true_iff
theorem WfDecides.element (core : Nat) (ecc : Ecc) : WfDecides.Statement (.element core ecc) := decide_eq_true_iff
theorem WfDecides.reduce (core : Nat) (ecc : Ecc) : WfDecides.Statement (.reduce core ecc) := decide_eq_true_iff
theorem WfDecides.scan (core : Nat) (ecc : Ecc) : WfDecides.Statement (.scan core ecc) := decide_eq_true_iff
theorem WfDecides.gather (core : Nat) (ecc : Ecc) : WfDecides.Statement (.gather core ecc) := decide_eq_true_iff
theorem WfDecides.scatter (core : Nat) (ecc : Ecc) : WfDecides.Statement (.scatter core ecc) := decide_eq_true_iff
theorem WfDecides.transpose (core : Nat) (ecc : Ecc) : WfDecides.Statement (.transpose core ecc) := decide_eq_true_iff
theorem WfDecides.copy (core : Nat) (ecc : Ecc) : WfDecides.Statement (.copy core ecc) := decide_eq_true_iff
theorem WfDecides.topk (core : Nat) (ecc : Ecc) : WfDecides.Statement (.topk core ecc) := decide_eq_true_iff
theorem WfDecides.elemEnd (eng : Engine) (w : ElemWord) : WfDecides.Statement (.elemEnd eng w) := decide_eq_true_iff
theorem WfDecides.mov (eng : Engine) (w : ElemWord) : WfDecides.Statement (.mov eng w) := decide_eq_true_iff
theorem WfDecides.add (eng : Engine) (w : ElemWord) : WfDecides.Statement (.add eng w) := decide_eq_true_iff
theorem WfDecides.sub (eng : Engine) (w : ElemWord) : WfDecides.Statement (.sub eng w) := decide_eq_true_iff
theorem WfDecides.mul (eng : Engine) (w : ElemWord) : WfDecides.Statement (.mul eng w) := decide_eq_true_iff
theorem WfDecides.fma (eng : Engine) (w : ElemWord) : WfDecides.Statement (.fma eng w) := decide_eq_true_iff
theorem WfDecides.fms (eng : Engine) (w : ElemWord) : WfDecides.Statement (.fms eng w) := decide_eq_true_iff
theorem WfDecides.div (eng : Engine) (w : ElemWord) : WfDecides.Statement (.div eng w) := decide_eq_true_iff
theorem WfDecides.recip (eng : Engine) (w : ElemWord) : WfDecides.Statement (.recip eng w) := decide_eq_true_iff
theorem WfDecides.sqrt (eng : Engine) (w : ElemWord) : WfDecides.Statement (.sqrt eng w) := decide_eq_true_iff
theorem WfDecides.rsqrt (eng : Engine) (w : ElemWord) : WfDecides.Statement (.rsqrt eng w) := decide_eq_true_iff
theorem WfDecides.exp2 (eng : Engine) (w : ElemWord) : WfDecides.Statement (.exp2 eng w) := decide_eq_true_iff
theorem WfDecides.log2 (eng : Engine) (w : ElemWord) : WfDecides.Statement (.log2 eng w) := decide_eq_true_iff
theorem WfDecides.tanh (eng : Engine) (w : ElemWord) : WfDecides.Statement (.tanh eng w) := decide_eq_true_iff
theorem WfDecides.max (eng : Engine) (w : ElemWord) : WfDecides.Statement (.max eng w) := decide_eq_true_iff
theorem WfDecides.min (eng : Engine) (w : ElemWord) : WfDecides.Statement (.min eng w) := decide_eq_true_iff
theorem WfDecides.abs (eng : Engine) (w : ElemWord) : WfDecides.Statement (.abs eng w) := decide_eq_true_iff
theorem WfDecides.neg (eng : Engine) (w : ElemWord) : WfDecides.Statement (.neg eng w) := decide_eq_true_iff
theorem WfDecides.sign (eng : Engine) (w : ElemWord) : WfDecides.Statement (.sign eng w) := decide_eq_true_iff
theorem WfDecides.clamp (eng : Engine) (w : ElemWord) : WfDecides.Statement (.clamp eng w) := decide_eq_true_iff
theorem WfDecides.cmplt (eng : Engine) (w : ElemWord) : WfDecides.Statement (.cmplt eng w) := decide_eq_true_iff
theorem WfDecides.cmpeq (eng : Engine) (w : ElemWord) : WfDecides.Statement (.cmpeq eng w) := decide_eq_true_iff
theorem WfDecides.sel (eng : Engine) (w : ElemWord) : WfDecides.Statement (.sel eng w) := decide_eq_true_iff
theorem WfDecides.cvt (eng : Engine) (w : ElemWord) : WfDecides.Statement (.cvt eng w) := decide_eq_true_iff
theorem WfDecides.srnd (eng : Engine) (w : ElemWord) : WfDecides.Statement (.srnd eng w) := decide_eq_true_iff
theorem WfDecides.nacc (eng : Engine) (w : ElemWord) : WfDecides.Statement (.nacc eng w) := decide_eq_true_iff
theorem WfDecides.kernelHang (core : Nat) : WfDecides.Statement (.kernelHang core) := decide_eq_true_iff
theorem WfDecides.stableReset (core : Nat) : WfDecides.Statement (.stableReset core) := decide_eq_true_iff
theorem WfDecides.coreBist (core : Nat) : WfDecides.Statement (.coreBist core) := decide_eq_true_iff
theorem WfDecides.bistComplete (core : Nat) (fail : Option Nat) : WfDecides.Statement (.bistComplete core fail) := decide_eq_true_iff
theorem WfDecides.coreClrSat (core : Nat) : WfDecides.Statement (.coreClrSat core) := decide_eq_true_iff
theorem WfDecides.watchPartialMerge (tensor : Nat) (part : List Byte) (ecc : Ecc) : WfDecides.Statement (.watchPartialMerge tensor part ecc) := ⟨fun _ => trivial, fun _ => rfl⟩
theorem WfDecides.stashPlace (stream : Nat) : WfDecides.Statement (.stashPlace stream) := decide_eq_true_iff
theorem WfDecides.padClrLow : WfDecides.Statement (.padClrLow) := ⟨fun _ => trivial, fun _ => rfl⟩
theorem WfDecides.stepszNextWrite (val : Nat) : WfDecides.Statement (.stepszNextWrite val) := ⟨fun _ => trivial, fun _ => rfl⟩
theorem WfDecides.stepNextWrite (val : Nat) : WfDecides.Statement (.stepNextWrite val) := ⟨fun _ => trivial, fun _ => rfl⟩
theorem WfDecides.kdataWrite (k : Nat) (val : Nat) : WfDecides.Statement (.kdataWrite k val) := decide_eq_true_iff
theorem WfDecides.ksetWrite (val : Nat) : WfDecides.Statement (.ksetWrite val) := ⟨fun _ => trivial, fun _ => rfl⟩
theorem WfDecides.stepStart : WfDecides.Statement (.stepStart) := ⟨fun _ => trivial, fun _ => rfl⟩
theorem WfDecides.groomPassStart (binding : Nat) : WfDecides.Statement (.groomPassStart binding) := ⟨fun _ => trivial, fun _ => rfl⟩
theorem WfDecides.groomSliceProcess (unit : Nat) (ecc : Ecc) : WfDecides.Statement (.groomSliceProcess unit ecc) := decide_eq_true_iff
theorem WfDecides.groomPassComplete (unit : Nat) (ecc : Ecc) : WfDecides.Statement (.groomPassComplete unit ecc) := decide_eq_true_iff
theorem WfDecides.grmClrSat (unit : Nat) : WfDecides.Statement (.grmClrSat unit) := decide_eq_true_iff
theorem WfDecides.reconcileCopy (binding : Nat) (ecc : Ecc) : WfDecides.Statement (.reconcileCopy binding ecc) := ⟨fun _ => trivial, fun _ => rfl⟩
theorem WfDecides.sendReductionRecord : WfDecides.Statement (.sendReductionRecord) := ⟨fun _ => trivial, fun _ => rfl⟩
theorem WfDecides.normRecordReceived : WfDecides.Statement (.normRecordReceived) := ⟨fun _ => trivial, fun _ => rfl⟩
theorem WfDecides.verdictReceived : WfDecides.Statement (.verdictReceived) := ⟨fun _ => trivial, fun _ => rfl⟩
theorem WfDecides.verdictActions (ecc : Ecc) : WfDecides.Statement (.verdictActions ecc) := ⟨fun _ => trivial, fun _ => rfl⟩
theorem WfDecides.verdictTimeout : WfDecides.Statement (.verdictTimeout) := ⟨fun _ => trivial, fun _ => rfl⟩
theorem WfDecides.deferredPass (binding : Nat) (ecc : Ecc) : WfDecides.Statement (.deferredPass binding ecc) := ⟨fun _ => trivial, fun _ => rfl⟩
theorem WfDecides.drainPass (ecc : Ecc) : WfDecides.Statement (.drainPass ecc) := ⟨fun _ => trivial, fun _ => rfl⟩
theorem WfDecides.patrolScrub (ecc : Ecc) : WfDecides.Statement (.patrolScrub ecc) := ⟨fun _ => trivial, fun _ => rfl⟩
theorem WfDecides.hbmStackDown (stack : Nat) (training : Bool) : WfDecides.Statement (.hbmStackDown stack training) := decide_eq_true_iff
theorem WfDecides.loftLinkDown (port : Nat) (held : List LoftReq) : WfDecides.Statement (.loftLinkDown port held) := decide_eq_true_iff
theorem WfDecides.loftLinkReturn (port : Nat) : WfDecides.Statement (.loftLinkReturn port) := decide_eq_true_iff
theorem WfDecides.loftLinkLost (port : Nat) : WfDecides.Statement (.loftLinkLost port) := decide_eq_true_iff
theorem WfDecides.loftRetrain (port : Nat) (width : Nat) (speed : Nat) : WfDecides.Statement (.loftRetrain port width speed) := decide_eq_true_iff
theorem WfDecides.lftCfgWrite (val : Nat) : WfDecides.Statement (.lftCfgWrite val) := ⟨fun _ => trivial, fun _ => rfl⟩
theorem WfDecides.loftPoison (port : Nat) (addr : Nat) (inStep : Bool) : WfDecides.Statement (.loftPoison port addr inStep) := decide_eq_true_iff
theorem WfDecides.loftViral (port : Nat) : WfDecides.Statement (.loftViral port) := decide_eq_true_iff
theorem WfDecides.loftDevEvent (port : Nat) (log : Nat) (head : Nat) : WfDecides.Statement (.loftDevEvent port log head) := decide_eq_true_iff
theorem WfDecides.poolMoveUp (home : Nat) (user : Nat) : WfDecides.Statement (.poolMoveUp home user) := ⟨fun _ => trivial, fun _ => rfl⟩
theorem WfDecides.poolUnpin (home : Nat) (user : Nat) : WfDecides.Statement (.poolUnpin home user) := ⟨fun _ => trivial, fun _ => rfl⟩
theorem WfDecides.moveUpComplete (home : Nat) (ecc : Ecc) : WfDecides.Statement (.moveUpComplete home ecc) := ⟨fun _ => trivial, fun _ => rfl⟩
theorem WfDecides.writebackComplete (home : Nat) (ecc : Ecc) : WfDecides.Statement (.writebackComplete home ecc) := ⟨fun _ => trivial, fun _ => rfl⟩
theorem WfDecides.poolExhausted (home : Nat) (user : Nat) : WfDecides.Statement (.poolExhausted home user) := ⟨fun _ => trivial, fun _ => rfl⟩
theorem WfDecides.remoteWrite (ecc : Ecc) : WfDecides.Statement (.remoteWrite ecc) := ⟨fun _ => trivial, fun _ => rfl⟩
theorem WfDecides.readReq (ecc : Ecc) : WfDecides.Statement (.readReq ecc) := ⟨fun _ => trivial, fun _ => rfl⟩
theorem WfDecides.readResp : WfDecides.Statement (.readResp) := ⟨fun _ => trivial, fun _ => rfl⟩
theorem WfDecides.streamTileStart (stream : Nat) (ecc : Ecc) : WfDecides.Statement (.streamTileStart stream ecc) := decide_eq_true_iff
theorem WfDecides.streamTileDelivered (stream : Nat) (ecc : Ecc) : WfDecides.Statement (.streamTileDelivered stream ecc) := decide_eq_true_iff
theorem WfDecides.etchBlockExpand (engine : Nat) (ecc : Ecc) : WfDecides.Statement (.etchBlockExpand engine ecc) := decide_eq_true_iff
theorem WfDecides.decodeTableLoad (ecc : Ecc) : WfDecides.Statement (.decodeTableLoad ecc) := ⟨fun _ => trivial, fun _ => rfl⟩
theorem WfDecides.decodeTableSwitch (engine : Nat) : WfDecides.Statement (.decodeTableSwitch engine) := decide_eq_true_iff
theorem WfDecides.stmClrSat (engine : Nat) : WfDecides.Statement (.stmClrSat engine) := decide_eq_true_iff
theorem WfDecides.probeTimer (port : Nat) : WfDecides.Statement (.probeTimer port) := decide_eq_true_iff
theorem WfDecides.signalDetected (port : Nat) : WfDecides.Statement (.signalDetected port) := decide_eq_true_iff
theorem WfDecides.trainingEnd (port : Nat) (lanes : Nat) (failed : Nat) (delay : Nat) : WfDecides.Statement (.trainingEnd port lanes failed delay) := decide_eq_true_iff
theorem WfDecides.flitReceived (port : Nat) (f : FlitIn) : WfDecides.Statement (.flitReceived port f) := decide_eq_true_iff
theorem WfDecides.linkRetryTimeout (port : Nat) : WfDecides.Statement (.linkRetryTimeout port) := decide_eq_true_iff
theorem WfDecides.creditWaitLong (port : Nat) (cls : Nat) (vl : Nat) (us : Nat) : WfDecides.Statement (.creditWaitLong port cls vl us) := decide_eq_true_iff
theorem WfDecides.controlFlitReceived (port : Nat) (body : CtlRec) : WfDecides.Statement (.controlFlitReceived port body) := decide_eq_true_iff
theorem WfDecides.markReceived (port : Nat) (arrival : Int) (phase : Nat) (count : Nat) (period : Nat) : WfDecides.Statement (.markReceived port arrival phase count period) := decide_eq_true_iff
theorem WfDecides.echoReceived (port : Nat) (arrival : Int) (turn : Nat) : WfDecides.Statement (.echoReceived port arrival turn) := decide_eq_true_iff
theorem WfDecides.laneFailure (port : Nat) (lanes : Nat) (why : LaneFault) : WfDecides.Statement (.laneFailure port lanes why) := decide_eq_true_iff
theorem WfDecides.retrainComplete (port : Nat) (lastAccepted : Nat) : WfDecides.Statement (.retrainComplete port lastAccepted) := decide_eq_true_iff
theorem WfDecides.retrainTimeout (port : Nat) : WfDecides.Statement (.retrainTimeout port) := decide_eq_true_iff
theorem WfDecides.portLinkLoss (port : Nat) (cause : Nat) : WfDecides.Statement (.portLinkLoss port cause) := decide_eq_true_iff
theorem WfDecides.portReset (port : Nat) : WfDecides.Statement (.portReset port) := decide_eq_true_iff
theorem WfDecides.testStart (port : Nat) : WfDecides.Statement (.testStart port) := decide_eq_true_iff
theorem WfDecides.testStop (port : Nat) : WfDecides.Statement (.testStop port) := decide_eq_true_iff
theorem WfDecides.e2eAck : WfDecides.Statement (.e2eAck) := ⟨fun _ => trivial, fun _ => rfl⟩
theorem WfDecides.e2eAckDue (src : Nat) (cls : Nat) : WfDecides.Statement (.e2eAckDue src cls) := decide_eq_true_iff
theorem WfDecides.e2eTimeout (dest : Nat) (cls : Nat) : WfDecides.Statement (.e2eTimeout dest cls) := decide_eq_true_iff
theorem WfDecides.exchange (op : Nat) (ecc : Ecc) : WfDecides.Statement (.exchange op ecc) := ⟨fun _ => trivial, fun _ => rfl⟩
theorem WfDecides.rows (op : Nat) (ecc : Ecc) : WfDecides.Statement (.rows op ecc) := ⟨fun _ => trivial, fun _ => rfl⟩
theorem WfDecides.allreduce (op : Nat) (ecc : Ecc) : WfDecides.Statement (.allreduce op ecc) := ⟨fun _ => trivial, fun _ => rfl⟩
theorem WfDecides.fence (op : Nat) : WfDecides.Statement (.fence op) := ⟨fun _ => trivial, fun _ => rfl⟩
theorem WfDecides.collFlit (ecc : Ecc) : WfDecides.Statement (.collFlit ecc) := ⟨fun _ => trivial, fun _ => rfl⟩
theorem WfDecides.colClrSat (reducer : Nat) : WfDecides.Statement (.colClrSat reducer) := decide_eq_true_iff
theorem WfDecides.hostLinkTrained (width : Nat) (speed : Nat) : WfDecides.Statement (.hostLinkTrained width speed) := ⟨fun _ => trivial, fun _ => rfl⟩
theorem WfDecides.flr : WfDecides.Statement (.flr) := ⟨fun _ => trivial, fun _ => rfl⟩
theorem WfDecides.hotReset : WfDecides.Statement (.hotReset) := ⟨fun _ => trivial, fun _ => rfl⟩
theorem WfDecides.dlDown : WfDecides.Statement (.dlDown) := ⟨fun _ => trivial, fun _ => rfl⟩
theorem WfDecides.perstAssert : WfDecides.Statement (.perstAssert) := ⟨fun _ => trivial, fun _ => rfl⟩
theorem WfDecides.perstDeassert (boot : Boot) : WfDecides.Statement (.perstDeassert boot) := ⟨fun _ => trivial, fun _ => rfl⟩
theorem WfDecides.powerApplied (boot : Boot) : WfDecides.Statement (.powerApplied boot) := ⟨fun _ => trivial, fun _ => rfl⟩
theorem WfDecides.bar2BaseWrite (hi : Bool) (val : Nat) : WfDecides.Statement (.bar2BaseWrite hi val) := ⟨fun _ => trivial, fun _ => rfl⟩
theorem WfDecides.bar2Resize (lg : Nat) : WfDecides.Statement (.bar2Resize lg) := decide_eq_true_iff
theorem WfDecides.ringCtrlWrite (val : Nat) : WfDecides.Statement (.ringCtrlWrite val) := ⟨fun _ => trivial, fun _ => rfl⟩
theorem WfDecides.ringAddrWrite (off : Nat) (val : Nat) : WfDecides.Statement (.ringAddrWrite off val) := ⟨fun _ => trivial, fun _ => rfl⟩
theorem WfDecides.ringConsWrite (val : Nat) : WfDecides.Statement (.ringConsWrite val) := ⟨fun _ => trivial, fun _ => rfl⟩
theorem WfDecides.eventProduced : WfDecides.Statement (.eventProduced) := ⟨fun _ => trivial, fun _ => rfl⟩
theorem WfDecides.ringRecordWrite : WfDecides.Statement (.ringRecordWrite) := ⟨fun _ => trivial, fun _ => rfl⟩
theorem WfDecides.eventDropped : WfDecides.Statement (.eventDropped) := ⟨fun _ => trivial, fun _ => rfl⟩
theorem WfDecides.coalesceExpiry (cls : Nat) : WfDecides.Statement (.coalesceExpiry cls) := decide_eq_true_iff
theorem WfDecides.msixUnmask (what : Unmask) : WfDecides.Statement (.msixUnmask what) := ⟨fun _ => trivial, fun _ => rfl⟩
theorem WfDecides.logAckWrite (val : Nat) : WfDecides.Statement (.logAckWrite val) := ⟨fun _ => trivial, fun _ => rfl⟩
theorem WfDecides.doeRequest (protocol : Nat) (object : List Byte) : WfDecides.Statement (.doeRequest protocol object) := ⟨fun _ => trivial, fun _ => rfl⟩
theorem WfDecides.doeAbort : WfDecides.Statement (.doeAbort) := ⟨fun _ => trivial, fun _ => rfl⟩
theorem WfDecides.getInfo (via : AttPath) : WfDecides.Statement (.getInfo via) := ⟨fun _ => trivial, fun _ => rfl⟩
theorem WfDecides.getEndorsement (via : AttPath) : WfDecides.Statement (.getEndorsement via) := ⟨fun _ => trivial, fun _ => rfl⟩
theorem WfDecides.getMeasurements (via : AttPath) : WfDecides.Statement (.getMeasurements via) := ⟨fun _ => trivial, fun _ => rfl⟩
theorem WfDecides.getQuote (via : AttPath) (nonce : List Byte) (wait : Nat) : WfDecides.Statement (.getQuote via nonce wait) := ⟨fun _ => trivial, fun _ => rfl⟩
theorem WfDecides.getKemKey (via : AttPath) : WfDecides.Statement (.getKemKey via) := ⟨fun _ => trivial, fun _ => rfl⟩
theorem WfDecides.loadKey (via : AttPath) (slot : Nat) (ciphertext : List Byte) (iv : List Byte) (wrapped : List Byte) : WfDecides.Statement (.loadKey via slot ciphertext iv wrapped) := ⟨fun _ => trivial, fun _ => rfl⟩
theorem WfDecides.clearKey (via : AttPath) (slot : Nat) : WfDecides.Statement (.clearKey via slot) := ⟨fun _ => trivial, fun _ => rfl⟩
theorem WfDecides.keySlotApply : WfDecides.Statement (.keySlotApply) := ⟨fun _ => trivial, fun _ => rfl⟩
theorem WfDecides.mctpControl (sideband : Bool) (req : MctpReq) : WfDecides.Statement (.mctpControl sideband req) := ⟨fun _ => trivial, fun _ => rfl⟩
theorem WfDecides.pldmMonitoring (sideband : Bool) (req : PldmReq) : WfDecides.Statement (.pldmMonitoring sideband req) := ⟨fun _ => trivial, fun _ => rfl⟩
theorem WfDecides.eventLogRead (sideband : Bool) (index : Nat) (ack : Option Nat) : WfDecides.Statement (.eventLogRead sideband index ack) := ⟨fun _ => trivial, fun _ => rfl⟩
theorem WfDecides.fwuBegin (path : Path) : WfDecides.Statement (.fwuBegin path) := ⟨fun _ => trivial, fun _ => rfl⟩
theorem WfDecides.fwuHeader (path : Path) (data : List Byte) : WfDecides.Statement (.fwuHeader path data) := ⟨fun _ => trivial, fun _ => rfl⟩
theorem WfDecides.fwuList (path : Path) (data : List Byte) : WfDecides.Statement (.fwuList path data) := ⟨fun _ => trivial, fun _ => rfl⟩
theorem WfDecides.fwuBlock (path : Path) (data : List Byte) : WfDecides.Statement (.fwuBlock path data) := ⟨fun _ => trivial, fun _ => rfl⟩
theorem WfDecides.fwuEnd (path : Path) : WfDecides.Statement (.fwuEnd path) := ⟨fun _ => trivial, fun _ => rfl⟩
theorem WfDecides.fwuActivate (path : Path) (boot : Boot) : WfDecides.Statement (.fwuActivate path boot) := ⟨fun _ => trivial, fun _ => rfl⟩
theorem WfDecides.fwuAbort (path : Path) : WfDecides.Statement (.fwuAbort path) := ⟨fun _ => trivial, fun _ => rfl⟩
theorem WfDecides.nonce (path : Path) : WfDecides.Statement (.nonce path) := ⟨fun _ => trivial, fun _ => rfl⟩
theorem WfDecides.nonceExpiry : WfDecides.Statement (.nonceExpiry) := ⟨fun _ => trivial, fun _ => rfl⟩
theorem WfDecides.dbgUnlock (path : Path) (token : List Byte) : WfDecides.Statement (.dbgUnlock path token) := ⟨fun _ => trivial, fun _ => rfl⟩
theorem WfDecides.dbgRelock (path : Path) : WfDecides.Statement (.dbgRelock path) := ⟨fun _ => trivial, fun _ => rfl⟩
theorem WfDecides.unlockExpiry : WfDecides.Statement (.unlockExpiry) := ⟨fun _ => trivial, fun _ => rfl⟩
theorem WfDecides.setPolicy (path : Path) (record : List Byte) : WfDecides.Statement (.setPolicy path record) := ⟨fun _ => trivial, fun _ => rfl⟩
theorem WfDecides.fwConfirm : WfDecides.Statement (.fwConfirm) := ⟨fun _ => trivial, fun _ => rfl⟩
theorem WfDecides.fwConfirmTimeout : WfDecides.Statement (.fwConfirmTimeout) := ⟨fun _ => trivial, fun _ => rfl⟩
theorem WfDecides.supplyWarnAssert (mv : Nat) : WfDecides.Statement (.supplyWarnAssert mv) := decide_eq_true_iff
theorem WfDecides.supplyWarnClear (mv : Nat) (us : Nat) : WfDecides.Statement (.supplyWarnClear mv us) := ⟨fun _ => trivial, fun _ => rfl⟩
theorem WfDecides.warnHoldExpiry : WfDecides.Statement (.warnHoldExpiry) := ⟨fun _ => trivial, fun _ => rfl⟩
theorem WfDecides.supplyPark (mv : Nat) : WfDecides.Statement (.supplyPark mv) := ⟨fun _ => trivial, fun _ => rfl⟩
theorem WfDecides.supplyResetAssert (mv : Nat) : WfDecides.Statement (.supplyResetAssert mv) := decide_eq_true_iff
theorem WfDecides.tempSample (sensor : Nat) (degC : Int) : WfDecides.Statement (.tempSample sensor degC) := decide_eq_true_iff
theorem WfDecides.thermalStepTimer : WfDecides.Statement (.thermalStepTimer) := ⟨fun _ => trivial, fun _ => rfl⟩
theorem WfDecides.thermtrip (sensor : Nat) (degC : Int) : WfDecides.Statement (.thermtrip sensor degC) := decide_eq_true_iff
theorem WfDecides.profileRequest (path : Path) (req : Nat) : WfDecides.Statement (.profileRequest path req) := ⟨fun _ => trivial, fun _ => rfl⟩
theorem WfDecides.capWrite (path : Path) (watts : Nat) : WfDecides.Statement (.capWrite path watts) := ⟨fun _ => trivial, fun _ => rfl⟩
theorem WfDecides.defaultProfileWrite (path : Path) (val : Nat) : WfDecides.Statement (.defaultProfileWrite path val) := ⟨fun _ => trivial, fun _ => rfl⟩
theorem WfDecides.parkRequest (path : Path) : WfDecides.Statement (.parkRequest path) := ⟨fun _ => trivial, fun _ => rfl⟩
theorem WfDecides.parkEntry : WfDecides.Statement (.parkEntry) := ⟨fun _ => trivial, fun _ => rfl⟩
theorem WfDecides.activeRequest (path : Path) : WfDecides.Statement (.activeRequest path) := ⟨fun _ => trivial, fun _ => rfl⟩
theorem WfDecides.fabricWake (port : Nat) : WfDecides.Statement (.fabricWake port) := decide_eq_true_iff
theorem WfDecides.idleEntry : WfDecides.Statement (.idleEntry) := ⟨fun _ => trivial, fun _ => rfl⟩
theorem WfDecides.softReset (path : Path) (key : Nat) (boot : Boot) : WfDecides.Statement (.softReset path key boot) := ⟨fun _ => trivial, fun _ => rfl⟩
theorem WfDecides.d3hotEntry : WfDecides.Statement (.d3hotEntry) := ⟨fun _ => trivial, fun _ => rfl⟩
theorem WfDecides.d0Entry : WfDecides.Statement (.d0Entry) := ⟨fun _ => trivial, fun _ => rfl⟩
theorem WfDecides.bmcWakeRequest : WfDecides.Statement (.bmcWakeRequest) := ⟨fun _ => trivial, fun _ => rfl⟩
theorem WfDecides.wakeTimeout : WfDecides.Statement (.wakeTimeout) := ⟨fun _ => trivial, fun _ => rfl⟩
theorem WfDecides.mgmtWatchdog (core : Nat) : WfDecides.Statement (.mgmtWatchdog core) := ⟨fun _ => trivial, fun _ => rfl⟩
theorem WfDecides.dbgHalt (scope : Nat) (target : Nat) : WfDecides.Statement (.dbgHalt scope target) := decide_eq_true_iff
theorem WfDecides.dbgResume (scope : Nat) (target : Nat) : WfDecides.Statement (.dbgResume scope target) := decide_eq_true_iff
theorem WfDecides.dbgStep (scope : Nat) (target : Nat) : WfDecides.Statement (.dbgStep scope target) := decide_eq_true_iff
theorem WfDecides.dbgMemRead (ecc : Ecc) : WfDecides.Statement (.dbgMemRead ecc) := ⟨fun _ => trivial, fun _ => rfl⟩
theorem WfDecides.dbgMemWrite (ecc : Ecc) : WfDecides.Statement (.dbgMemWrite ecc) := ⟨fun _ => trivial, fun _ => rfl⟩
theorem WfDecides.frzNAssert : WfDecides.Statement (.frzNAssert) := ⟨fun _ => trivial, fun _ => rfl⟩
theorem WfDecides.frzCtrlFreeze : WfDecides.Statement (.frzCtrlFreeze) := ⟨fun _ => trivial, fun _ => rfl⟩
theorem WfDecides.readoutReady : WfDecides.Statement (.readoutReady) := ⟨fun _ => trivial, fun _ => rfl⟩
theorem WfDecides.frzMemread : WfDecides.Statement (.frzMemread) := ⟨fun _ => trivial, fun _ => rfl⟩
theorem WfDecides.traceStart : WfDecides.Statement (.traceStart) := ⟨fun _ => trivial, fun _ => rfl⟩
theorem WfDecides.traceStop : WfDecides.Statement (.traceStop) := ⟨fun _ => trivial, fun _ => rfl⟩
theorem WfDecides.idcode : WfDecides.Statement (.idcode) := ⟨fun _ => trivial, fun _ => rfl⟩
theorem WfDecides.samplePreload : WfDecides.Statement (.samplePreload) := ⟨fun _ => trivial, fun _ => rfl⟩
theorem WfDecides.extest : WfDecides.Statement (.extest) := ⟨fun _ => trivial, fun _ => rfl⟩
theorem WfDecides.tapClamp : WfDecides.Statement (.tapClamp) := ⟨fun _ => trivial, fun _ => rfl⟩
theorem WfDecides.highz : WfDecides.Statement (.highz) := ⟨fun _ => trivial, fun _ => rfl⟩
theorem WfDecides.dbgAccess (write : Bool) (off : Nat) (data : Nat) : WfDecides.Statement (.dbgAccess write off data) := ⟨fun _ => trivial, fun _ => rfl⟩
theorem WfDecides.bypass : WfDecides.Statement (.bypass) := ⟨fun _ => trivial, fun _ => rfl⟩
theorem WfDecides.tapReset : WfDecides.Statement (.tapReset) := ⟨fun _ => trivial, fun _ => rfl⟩
theorem WfDecides.chkStart (unit : Nat) (ecc : Ecc) : WfDecides.Statement (.chkStart unit ecc) := decide_eq_true_iff
theorem WfDecides.chkAbort (unit : Nat) : WfDecides.Statement (.chkAbort unit) := decide_eq_true_iff
theorem WfDecides.chkPlateJobStart (job : Nat) (ecc : Ecc) : WfDecides.Statement (.chkPlateJobStart job ecc) := ⟨fun _ => trivial, fun _ => rfl⟩
theorem WfDecides.chkJobComplete (unit : Nat) : WfDecides.Statement (.chkJobComplete unit) := decide_eq_true_iff
theorem WfDecides.flitSlot (port : Nat) (phase : Nat) (turn : Nat) : WfDecides.Statement (.flitSlot port phase turn) := decide_eq_true_iff
theorem WfDecides.frzNDeassert : WfDecides.Statement (.frzNDeassert) := ⟨fun _ => trivial, fun _ => rfl⟩
theorem WfDecides.railFault : WfDecides.Statement (.railFault) := ⟨fun _ => trivial, fun _ => rfl⟩
theorem WfDecides.expanderHotAdd (port : Nat) (capacity : Nat) (width : Nat) (speed : Nat) (ok : Bool) : WfDecides.Statement (.expanderHotAdd port capacity width speed ok) := decide_eq_true_iff
theorem WfDecides.i3cAddressAssign (addr : Nat) : WfDecides.Statement (.i3cAddressAssign addr) := decide_eq_true_iff

end Sys2Proof.Laws
end

