-- ==== Sys2Proof/Tests/Slice0.lean ====
section
/-! SUPPORT. Tests on small states: an ill-formed term for each check of WellFormed, a witness for the premises of each statement, and
expected results worked out by hand from the spec. Each witness names its statement. -/

namespace Sys2Proof.Tests

open Sys2Proof.Machine

set_option Elab.async false

/-! ### Small states -/

/-- A module that has started: rails on, released from PERST#, ready, the tick running at its first cycle, the host link up. -/
def up : Mod :=
  { Mod.reset with
    pwr := { PwrUnit.reset with powered := true, rails := true, started := true, ready := true }
    tick := { TickUnit.reset with running := true }
    host := { HostUnit.reset with linkUp := true } }

/-- An operand in the core's own SRAM. -/
def opd (addr fmt : Nat) : Operand := ⟨.sram, addr, 0, fmt, false, 0, 0⟩

/-- No operand. -/
def noOpd : Operand := ⟨.none, 0, 0, 0, false, 0, 0⟩

/-- A kernel of opcode `op` over rows of four FP32 values. -/
def kern (op : KOp) : Kernel :=
  ⟨op, false, 0, false, false, false, 1, 4, 4, opd 0 0, opd 64 0, opd 128 0, noOpd, none, 0xFFFF, [], 0, List.replicate 24 0⟩

/-- A stable of cores 0 and 1 whose one frame runs two kernels. -/
def stable0 : StableRec := ⟨0, false, 4, [0, 1], [.work 0 0 2 1 0xFFFF 0xFFFF 0xFFFF 0xFFFF 0 0, .fin]⟩

/-- A groom binding on unit 0 with nothing to wait for. -/
def bind0 : Binding := ⟨0, 0, false, false, 0, [], 0, 0, 512, [], [], 0, 0, 0, 0xFFFF, 0xFFFF⟩

/-- A FULL plate of period 8 with kernels of opcode `op`, one stable, one binding and no fabric. -/
def plateOf (op : KOp) : Plate :=
  { hdr := ⟨.full, 0, 1, 8, 0, 0, 0, []⟩, hash := [], signed := false, seed := 0, stables := [stable0], regions := [], barriers := [(0, 2)],
    kernels := [kern op, kern op], streams := [], routes := none, colls := ⟨[], [], [], true, 0⟩, groom := ⟨[bind0], [], 0, 0, 0⟩,
    checks := [], decode := [], tensors := [],
    cfg := ⟨.unclipped, false, true, 1, 0, 0x7F7FFFFF, 0, 100, 4, 1, [], []⟩, tickTree := none, consts := [] }

/-- A stable at its first frame, its cores busy. -/
def run0 : StableRun := ⟨.run, ⟨0, 0, 0⟩, 0, true, none, false, 0, false⟩

/-- A started module with plate `p` active in slot 0 and a step running. -/
def running (p : Plate) : Mod :=
  { up with
    plt := { up.plt with slot0 := ⟨.active, some p, none⟩, active := some 0 }
    step := { StepUnit.reset with phase := .run }
    sched := ⟨[], [], [(0, run0)], []⟩ }

/-- A running module whose core 0 runs kernel 0. -/
def busy (op : KOp) : Mod := (running (plateOf op)).setCore 0 { CoreRun.rest with run := some 0 }

/-- A state around a module. -/
def st (m : Mod) : State := { State.reset with m := m }

/-! ### Witnesses: the queue and the registers -/

theorem test_witness_StepRunsFrontCommand : ({ State.reset with pending := [.plateCancel, .flr] } : State).pending = [.plateCancel, .flr] := by
  decide

theorem test_witness_EmptyQueueIdles : State.reset.pending = [] := by decide

theorem test_witness_CommandFootprint : movesEvents .plateCancel = false := by decide

theorem test_witness_InvariantKept : State.reset.Inv ∧ step State.reset = .next State.reset := by
  refine ⟨⟨by unfold EvtUnit.bounded; decide, by unfold Mod.memWf; decide⟩, rfl⟩

theorem test_witness_ResetState : Reg.TCK_PERIOD ∈ Reg.table ∧ Reg.TCK_PERIOD.fields ≠ []
    ∧ Reg.TCK_PERIOD.fields.all (fun f => decide (7 < f.lo ∨ f.hi < 7)) = true := by decide +kernel

theorem test_witness_UnalignedAndHoles : 0x3FFFFFF % 4 ≠ 0 ∧ 1 % 4 ≠ 0
    ∧ up.mgUp = true ∧ up.host.linkUp = true ∧ up.pwr.state ≠ .sleep ∧ (∀ n ∈ [1, 2, 8], n ≠ 4)
    ∧ (∀ off ∈ [24, 0x3FFFFFC], up.answers off = true ∧ bar0Aligned off = true ∧ Reg.at? off = none) := by decide +kernel

theorem test_witness_FieldAccessCodes : Reg.TCK_ERR ∈ Reg.table
    ∧ Reg.TCK_ERR.fields.any (fun f => f.acc == .w1c && decide (f.hi = f.lo)) = true
    ∧ Reg.TCK_ERR.fields.all (fun f => decide (31 < f.lo ∨ f.hi < 31)) = true := by decide +kernel

theorem test_witness_RegisterWrites : (∀ m ∈ [up, running (plateOf .matmul)],
    (st m).reaches Reg.HBM_SCRUB.base ∧ plainReg Reg.HBM_SCRUB.base Reg.HBM_SCRUB 0 0 ∧ Reg.HBM_SCRUB.kind = .plain) ∧
    ((st (running (plateOf .matmul))).reaches Reg.TCK_PERIOD.base ∧ dbgOpen Reg.TCK_PERIOD.base = true
      ∧ Reg.at? Reg.TCK_PERIOD.base = some (Reg.TCK_PERIOD, 0, 0) ∧ Reg.TCK_PERIOD.fields.any (fun f => f.acc == .rwl) = true
      ∧ (running (plateOf .matmul)).plateActive = true) := by
  unfold State.reaches plainReg
  decide +kernel

/-- A started module whose NUM_SAT_THRESH has 5 pending and 6 due. -/
def pending1 : Mod :=
  { up with regs := { up.regs with pend := [(Reg.NUM_SAT_THRESH.base, 5)], due := [(Reg.NUM_SAT_THRESH.base, 6)] } }

theorem test_witness_PendingFields :
    (st up).reaches Reg.NUM_SAT_THRESH.base ∧ plainReg Reg.NUM_SAT_THRESH.base Reg.NUM_SAT_THRESH 0 0 ∧ Reg.NUM_SAT_THRESH.has .rwp = true
      ∧ pending1.tick.running = true ∧ kvGet? pending1.regs.pend Reg.NUM_SAT_THRESH.base = some 5 ∧ pending1.atBoundary = true
      ∧ Reg.at? Reg.NUM_SAT_THRESH.base = some (Reg.NUM_SAT_THRESH, 0, 0) ∧ kvGet? pending1.regs.due Reg.NUM_SAT_THRESH.base = some 6
      ∧ (st up).reaches Reg.NUM_RATIO_THRESH.base ∧ (∀ v ∈ [0x7F800000, 0xFFFFFFFF], v < 2 ^ 32 ∧ 0x7F800000 ≤ v)
      ∧ (∀ v ∈ [0, 0x7F7FFFFF], v < 2 ^ 32 ∧ v < 0x7F800000) := by
  unfold State.reaches plainReg
  decide +kernel

/-- A started module that has a value for the _LO half of PLT_ACT_TICK and a snapshot of the _HI half of TCK_COUNT. -/
def halves : Mod := { up with regs := { up.regs with lo := [(Reg.PLT_ACT_TICK_LO.base, 7)], snap := [(Reg.TCK_COUNT_HI.base, 9)] } }

theorem test_witness_RegisterPairs :
    ((st up).reaches Reg.PLT_ACT_TICK_LO.base ∧ plainReg Reg.PLT_ACT_TICK_LO.base Reg.PLT_ACT_TICK_LO 0 0
      ∧ Reg.PLT_ACT_TICK_LO.kind = .lo ∧ Reg.PLT_ACT_TICK_LO.has .ro = false) ∧
    ((st up).reaches (Reg.TCK_COUNT_LO.base + 4) ∧ plainReg (Reg.TCK_COUNT_LO.base + 4) Reg.TCK_COUNT_HI 0 0 ∧ Reg.TCK_COUNT_HI.kind = .hi
      ∧ plainReg Reg.TCK_COUNT_LO.base Reg.TCK_COUNT_LO 0 0 ∧ Reg.TCK_COUNT_LO.has .ro = true) ∧
    ((st halves).reaches (Reg.PLT_ACT_TICK_LO.base + 4) ∧ plainReg Reg.PLT_ACT_TICK_LO.base Reg.PLT_ACT_TICK_LO 0 0 ∧ plainReg (Reg.PLT_ACT_TICK_LO.base + 4) Reg.PLT_ACT_TICK_HI 0 0
      ∧ Reg.PLT_ACT_TICK_HI.kind = .hi ∧ kvGet? halves.regs.lo Reg.PLT_ACT_TICK_LO.base = some 7) ∧
    (up.mgUp = true ∧ up.host.linkUp = true ∧ (st up).reaches Reg.TCK_COUNT_LO.base ∧ halfAt .lo Reg.TCK_COUNT_LO.base = true
      ∧ kvGet? up.regs.snap (Reg.TCK_COUNT_LO.base + 4) = none) ∧
    ((st halves).reaches Reg.TCK_COUNT_HI.base ∧ dbgOpen Reg.TCK_COUNT_HI.base = true
      ∧ Reg.at? Reg.TCK_COUNT_HI.base = some (Reg.TCK_COUNT_HI, 0, 0) ∧ kvGet? halves.regs.snap Reg.TCK_COUNT_HI.base = some 9) := by
  unfold State.reaches plainReg
  refine ⟨?_, ?_, ?_, ?_, ?_⟩ <;> decide +kernel

theorem test_witness_ClearCounts :
    (∀ off ∈ [Reg.CORE_CTRL.addr 0 0, Reg.CORE_CTRL.addr 3071 0, Reg.GRM_CTRL.addr 0 0, Reg.GRM_CTRL.addr 11 0, Reg.STM_CTRL.addr 63 0,
      Reg.COL_RCTRL.addr 7 0, Reg.HBM_PAD_CTRL.base], up.answers off = true) := by decide +kernel

theorem test_witness_StepRegisters :
    up.answers Reg.GRM_STEPSZ_NEXT.base = true ∧ 0x7F7FFFFF / 2 ^ 23 % 256 ≠ 255 ∧ 0x7F800000 / 2 ^ 23 % 256 = 255 ∧ 0x7F800000 < 2 ^ 32
      ∧ up.answers Reg.GRM_STEP_NEXT.base = true ∧ up.answers (Reg.GRM_KDATA.addr 0 0) = true ∧ up.answers (Reg.GRM_KDATA.addr 31 0) = true
      ∧ up.answers Reg.GRM_KSET.base = true ∧ up.fget Fld.GRM_KPEND_PEND = 0
      ∧ (up.fset Fld.GRM_KPEND_PEND 0x80000000).fget Fld.GRM_KPEND_PEND ≠ 0 := by decide +kernel

theorem test_witness_PeriodAndLoftConfig :
    ((up.answers Reg.TCK_PERIOD.base = true ∧ up.plateActive = false ∧ (∀ v ∈ [2, 64], 2 ≤ v % 128 ∧ v % 128 ≤ 64)
      ∧ ∀ v ∈ [0, 1, 65, 127], v % 128 < 2 ∨ 64 < v % 128) ∧
    (∀ p ∈ [2, 64], ({ up.tick with periodNext := some p } : TickUnit).running = true ∧ p ≤ 64) ∧
    (running (plateOf .matmul)).plateActive = true) ∧
    (up.answers Reg.LFT_CFG.base = true ∧ up.plateActive = false ∧ (running (plateOf .matmul)).plateActive = true) ∧
    (∀ v ∈ [0x11, 0x71], v % 2 = 1 ∧ ((List.range 4).filter (fun c => (v / 16).testBit c)).length ≠ 2
      ∧ ((List.range 4).filter (fun c => (v / 16).testBit c)).length ≠ 4) ∧
    (∀ v ∈ [0x31, 0xF1], v % 2 = 1 ∧ (((List.range 4).filter (fun c => (v / 16).testBit c)).length = 2
      ∨ ((List.range 4).filter (fun c => (v / 16).testBit c)).length = 4) ∧ up.variant = false) ∧
    (({ up with variant := true } : Mod).variant = true ∧ 2 ∈ (List.range 4).filter (fun c => (0x51 / 16).testBit c)) := by decide +kernel

/-- A started module whose ring is enabled, with two records the host has not consumed. -/
def ringOn : Mod := (up.fset Fld.EVT_RING_CTRL_ENABLE 1).fset Fld.EVT_RING_PROD_INDEX 2

theorem test_witness_WindowAndRing :
    (up.answers Reg.TOP_BAR2_BASE_LO.base = true ∧ (0x40000000 + 2 ^ 32 * (1 % 2 ^ 16)) % up.bar2Size = 0
      ∧ (4 + 2 ^ 32 * (0 % 2 ^ 16)) % up.bar2Size ≠ 0) ∧
    (∀ low ∈ [0x40000000, 4],
      kvGet? ({ up with regs := { up.regs with lo := [(Reg.TOP_BAR2_BASE_LO.base, low)] } } : Mod).regs.lo Reg.TOP_BAR2_BASE_LO.base = some low) ∧
    (39 ≠ up.host.bar2Log2 ∧ 31 ≠ up.host.bar2Log2) ∧
    (up.answers Reg.EVT_RING_CTRL.base = true ∧ ringOn.fget Fld.EVT_RING_CTRL_ENABLE = 1 ∧ up.fget Fld.EVT_RING_CTRL_ENABLE = 0
      ∧ (∀ v ∈ [2 * 6, 2 * 16], 6 ≤ v / 2 % 32 ∧ v / 2 % 32 ≤ 16) ∧ 2 * 16 / 2 % 32 ≠ ringOn.fget Fld.EVT_RING_CTRL_LOG2_SIZE) ∧
    (∀ off ∈ [Reg.EVT_RING_BASE_LO.base, Reg.EVT_SHADOW_HI.base], isRingAddr off = true ∧ ringOn.answers off = true) ∧
    (ringOn.answers Reg.EVT_RING_CONS.base = true
      ∧ (∀ v ∈ [0, 2], (v + 2 ^ 32 - ringOn.fget Fld.EVT_RING_CONS_INDEX) % 2 ^ 32 ≤ ringOn.ringFill)
      ∧ ringOn.ringFill < (3 + 2 ^ 32 - ringOn.fget Fld.EVT_RING_CONS_INDEX) % 2 ^ 32) ∧
    (up.answers Reg.EVT_RING_BASE_LO.base = true ∧ up.answers Reg.EVT_LOG_ACK.base = true) := by decide +kernel

/-! ### Witnesses: plates and the tick -/

/-- A started module with slot 0 in state `x`. -/
def slot0 (x : SlotState) (p : Option Plate) : Mod := { up with plt := { up.plt with slot0 := ⟨x, p, none⟩ } }

/-- A started module whose BAR2 window lies at the top of HBM. -/
def windowTop : Mod := up.set64 Fld.TOP_BAR2_BASE_LO_BASE Fld.TOP_BAR2_BASE_HI_BASE 0x8FC0000000

theorem test_witness_SlotCommands :
    (∀ x ∈ [SlotState.empty, .loading, .proving, .proven, .active, .failed], ((slot0 x none).plt.slot 0).st = x
      ∧ (slot0 x none).answers (Reg.PLT_SLOT_CMD.addr 0 0) = true ∧ (slot0 x none).answers (Reg.PLT_SLOT_CMD.addr 1 0) = true) ∧
    (windowTop.bar2Up = true ∧ (∀ off ∈ [0x20000000, 0x2FFFFFFF], off + ([some 1] : List (Option Byte)).length ≤ windowTop.bar2Size ∧ slotOf (windowTop.bar2Base + off) = some 0)
      ∧ slotOf (windowTop.bar2Base + 0x30000000) = some 1 ∧ (windowTop.plt.slot 0).st ≠ .loading) := by decide +kernel

/-- A started module with plate `p` proven in slot 1 and its activation pending for boundary `n`. -/
def asked (p : Plate) (n : Nat) : Mod :=
  { up with plt := { up.plt with slot1 := ⟨.proven, some p, none⟩, pending := some ⟨true, 1, n⟩ } }

theorem test_witness_ActivationRequests :
    (up.answers Reg.PLT_ACTIVATE.base = true ∧ ((slot0 .proven none).plt.slot 0).st = .proven ∧ (up.plt.slot 0).st ≠ .proven) ∧
    (running (plateOf .matmul)).plateActive = true ∧ (asked (plateOf .matmul) 0).plt.pending.any (fun r => r.activate) = true ∧
    (up.plateActive = false ∧ up.plt.pending.any (fun r => r.activate) = false ∧ up.plt.pending = none) ∧
    ((asked (plateOf .matmul) 0).plt.pending = some ⟨true, 1, 0⟩ ∧ ((asked (plateOf .matmul) 0).plt.slot 1).st = .proven
      ∧ (asked (plateOf .matmul) 0).answers (Reg.PLT_SLOT_CMD.addr 1 0) = true) := by decide +kernel

/-- A plate of another tick period. -/
def plate4 : Plate := { plateOf .matmul with hdr := { (plateOf .matmul).hdr with periodUs := 4 } }

/-- A route update for the active plate of `running (plateOf .matmul)`. -/
def routePlate : Plate := { plateOf .matmul with hdr := { (plateOf .matmul).hdr with kind := .routeUpdate } }

/-- A plate with an empty route table. -/
def routed (p : Plate) : Plate := { p with routes := some ⟨0, 0, [], [], []⟩ }

/-- A started module that follows an upstream neighbour and has no alignment. -/
def astray : Mod := { up with tick := { up.tick with source := 1, edgeSeen := true } }

theorem test_witness_ActivationsAndChecks :
    (∀ p ∈ [plateOf .matmul, plate4], ∀ n ∈ [0, 1], let m := asked p n
      m.running = true ∧ m.atBoundary = true ∧ m.plt.slot 1 = ⟨.proven, some p, none⟩ ∧ p.hdr.kind = .full ∧ m.stepBusy = false
        ∧ m.drained = true) ∧
    ((asked (plateOf .matmul) 0).actCheck (plateOf .matmul) = 0 ∧ (asked plate4 0).actCheck plate4 ≠ 0
      ∧ 0 ≤ (asked plate4 0).tick.count ∧ (asked plate4 1).tick.count < 1) ∧
    (asked (plateOf .matmul) 0).plt.active ≠ some 0 ∧
    ({ asked (plateOf .matmul) 0 with plt := { (asked (plateOf .matmul) 0).plt with slot0 := ⟨.active, some plate4, none⟩, active := some 0 } } : Mod).plt.active
      = some (1 - 1) ∧
    (plate4.hdr.periodUs ≠ up.fget Fld.TCK_PERIOD_PERIOD_US) ∧
    ((routed (plateOf .matmul)).hdr.periodUs = astray.fget Fld.TCK_PERIOD_PERIOD_US ∧ (routed (plateOf .matmul)).routes.isSome = true
      ∧ astray.aligned = false) ∧
    ((plateOf .matmul).routes.isSome = false ∧ (up.fset Fld.CORE_FENCE_FENCED 1 1).plateFenced (plateOf .matmul) = true
      ∧ up.plateFenced (plateOf .matmul) = false) ∧
    ((plateOf .matmul).hdr.kind = .full ∧ routePlate.hdr.kind = .routeUpdate ∧ up.plateFenced routePlate = false ∧ up.actCheck routePlate ≠ 0) := by decide +kernel

/-- A module between steps with `plateOf .matmul` active in slot 0. -/
def idlePlate : Mod := { running (plateOf .matmul) with step := .reset }

theorem test_witness_RouteUpdateAndDeactivation :
    (let m := { running (plateOf .matmul) with
        plt := { (running (plateOf .matmul)).plt with slot1 := ⟨.proven, some routePlate, none⟩, pending := some ⟨true, 1, 0⟩ } }
     m.running = true ∧ m.atBoundary = true ∧ m.plt.slot 1 = ⟨.proven, some routePlate, none⟩ ∧ 0 ≤ m.tick.count
       ∧ (m.epoch = 1 → m.actCheck routePlate = 0) ∧ m.epoch = 1 ∧ m.plt.active = some 0 ∧ (m.plt.slot 0).plate = some (plateOf .matmul)) ∧
    (let m := { idlePlate with plt := { idlePlate.plt with pending := some ⟨false, 0, 0⟩ } }
     m.running = true ∧ m.atBoundary = true ∧ m.plt.active = some 0 ∧ m.stepBusy = false ∧ m.drained = true) ∧
    (running (plateOf .matmul)).stepBusy = true := by decide +kernel

/-- A started module with slot 0 PROVING over a region that begins with the bytes `bs`. -/
def provingOver (bs : List Byte) : Mod :=
  { slot0 .proving none with mem := { up.mem with hbm := { up.mem.hbm with cells := (List.range bs.length).map (fun i => (slotBase + i, bs.getD i 0)) } } }

theorem test_witness_ProofCompletes :
    (∀ x ∈ [0, 1], ({ up with plt := { up.plt with slot0 := ⟨.proving, none, none⟩, slot1 := ⟨.proving, none, none⟩ } } : Mod).plt.slot x
      = ⟨.proving, none, none⟩) ∧ (provingOver []).running = true ∧
    rdPoison (({ slot0 .proving none with mem := { up.mem with hbm := up.mem.hbm.mark (slotBase / 64) } } : Mod).devRead slotBase 128) = true ∧
    (rdPoison ((provingOver [1, 2, 3, 4]).devRead slotBase 128) = false
      ∧ bN (rdBytes ((provingOver [1, 2, 3, 4]).devRead slotBase 128)) 0 4 ≠ 0x50584C53) := by decide +kernel

/-- A module that follows the neighbour of port 3, which is down, with the port `alt` valid after it. -/
def failing (alt : Nat) : Mod :=
  let m := { astray with tick := { astray.tick with port := 3, aligned := true } }
  { m with
    regs := { m.regs with store := kvSet m.regs.store Reg.TCK_UPSTREAM.base (0x83 + 256 * (0x80 + alt)) }
    fab := { m.fab with ports := [(5, Port.rest .active)] } }

theorem test_witness_TickBoundary :
    (up.tick.running = true ∧ up.tick.adopt = none ∧ ({ up.tick with adopt := some 9 } : TickUnit).running = true
      ∧ ({ up with pwr := { up.pwr with state := .park } } : Mod).running = false) ∧
    (let m := failing 5
     m.tick.source = 1 ∧ m.tick.edgeSeen = true ∧ m.upstreamUsable m.tick.port = false ∧ m.firstUpstream = some 5 ∧ (m.port 5).skew = none) ∧
    (let m := failing 6
     m.upstreamUsable m.tick.port = false ∧ m.firstUpstream = none ∧ m.pwr.state ≠ .park ∧ m.aligned = true) ∧
    (({ up.tick with source := 2 } : TickUnit).source = 2 ∧ (-1 : Int).natAbs ≤ 1 ∧ 1 < (2 : Int).natAbs ∧ up.tick.holdover = false) := by
  decide +kernel

/-! ### Witnesses: cores and element programs -/

/-- The frame of `stable0`. -/
def frame0 : FrameNow := ⟨0, 2, 0xFFFF, 0xFFFF, 0xFFFF, 0xFFFF⟩

theorem test_witness_KernelsInOrder :
    (let m := running (plateOf .matmul)
     m.running = true ∧ m.busyStable 0 = some (stable0, frame0) ∧ m.kernel? (frame0.kfirst + (m.core 0).kpos) = some (kern .matmul)
       ∧ (m.core 0).run = none ∧ (m.core 0).kpos < frame0.kcount ∧ (m.core 0).halt = none ∧ (m.core 0).haltReq = none
       ∧ m.coreFencedBit 0 = false ∧ (kern .matmul).sync = false ∧ ∀ b < 8, m.bpMatches b 0 (frame0.kfirst + (m.core 0).kpos) stable0 = false) ∧
    ((busy .matmul).core 0).run.isSome = true ∧ (busy .matmul).stableOf 0 = some stable0 ∧ ((busy .matmul).core 0).done = false ∧
    (((running (plateOf .matmul)).setCore 0 { CoreRun.rest with run := some 1, done := true }).core 0).done = true := by decide +kernel

/-- An ATTN kernel of a phase. -/
def attnKern (phase : Byte) : Kernel := { kern .attn with param := phase :: List.replicate 23 0 }

theorem test_witness_KernelWork :
    (∀ op ∈ [KOp.matmul, .conv, .element, .reduce, .transpose, .topk, .scan], (busy op).running = true
      ∧ (busy op).running? 0 = some (stable0, 0, kern op) ∧ (((busy op).core 0).elem.map (·.index)).getD 0 = 0) ∧
    (∀ ph ∈ [(0, 0), (1, 1), (2, 2), (3, 3)],
      ((running { plateOf .attn with kernels := [attnKern ph.1] }).setCore 0 { CoreRun.rest with run := some 0 }).running? 0
        = some (stable0, 0, attnKern ph.1) ∧ (attnKern ph.1).attnP.phase = ph.2) := by decide +kernel

/-- A COPY of one row from device memory. -/
def copyKern : Kernel := { kern .copy with d0 := 16, d1 := 1, a := { opd 0x1000 0 with space := .device } }

/-- The index word at byte 64 of core 0's SRAM holds the bytes `bs`. -/
def indexed (op : KOp) (bs : List Byte) : Mod :=
  { busy op with mem := { up.mem with sram := { up.mem.sram with cells := (List.range 4).map (fun i => (64 + i, bs.getD i 0)) } } }

theorem test_witness_KernelMoves :
    (∀ op ∈ [KOp.copy, .gather, .scatter], (busy op).running? 0 = some (stable0, 0, kern op) ∧ (kern op).c.space ≠ .device) ∧
    ({ opd 128 0 with space := .device } : Operand).space = .device ∧
    (((running { plateOf .copy with kernels := [copyKern] }).setCore 0 { CoreRun.rest with run := some 0 }).running? 0
      = some (stable0, 0, copyKern) ∧ copyKern.d1 = 1 ∧ copyKern.a.space = .device ∧ copyKern.c.space = .sram ∧ 15 < copyKern.d0) ∧
    (∀ op ∈ [KOp.gather, .scatter], ∀ bs ∈ [[4, 0, 0, 0], [0xFF, 0xFF, 0xFF, 0xFF]], (kern op).d0 = 1 ∧ (kern op).b.space = .sram
      ∧ (indexed op bs).running? 0 = some (stable0, 0, kern op)
      ∧ (let ix := indexOf ((indexed op bs).sramRead 0 ((kern op).b.base (stable0.rank 0)) 4)
         ix.2 = false ∧ (ix.1 < 0 ∨ ((kern op).d2 : Int) ≤ ix.1))) := by decide +kernel

theorem test_witness_CoreResets :
    ((busy .matmul).stableOf 0 = some stable0 ∧ up.stableOf 0 = none ∧ (up.fset Fld.CORE_WDOG_TICKS 0 0).fget Fld.CORE_WDOG_TICKS 0 = 0
      ∧ (busy .matmul).answers (Reg.CORE_CTRL.addr 0 0) = true) ∧
    (let m := ((busy .matmul).setCore 0 { CoreRun.rest with run := some 0, ticks := 2 }).fset Fld.CORE_WDOG_TICKS 1 0
     m.running = true ∧ (m.core 0).run.isSome = true ∧ m.fget Fld.CORE_WDOG_TICKS 0 ≠ 0 ∧ m.fget Fld.CORE_WDOG_TICKS 0 < (m.core 0).ticks
       ∧ m.anyHalted = false) ∧
    ((up.core 0).bist = false ∧ up.stableOf 0 = none ∧ (busy .matmul).coreFencedBit 0 = false ∧ (busy .matmul).stableOf 0 ≠ none
      ∧ ((busy .matmul).fset Fld.CORE_FENCE_FENCED 1 0).coreFencedBit 0 = true ∧ stable0.id = 0
      ∧ (busy .matmul).stable? 0 = some run0) ∧
    ((up.setCore 5 { CoreRun.rest with bist := true }).running = true ∧ ((up.setCore 5 { CoreRun.rest with bist := true }).core 5).bist = true) := by
  decide +kernel

/-- An element whose registers read +0. -/
def elem0 : Elem :=
  ⟨List.replicate 16 Val.zero, [], [none, none, none, none], List.replicate 32 0, 0, 0, 0, 0, 0, 0, 0, 0, 0, 0, [], .none⟩

/-- A slice of one row of two values. -/
def slice0 : SliceEnt := ⟨0, 0, 1, 2, 0, 0⟩

/-- An exchange of this module alone, delivered to binding 0. -/
def exchange0 : CollOp :=
  ⟨.exchange, .direct, 0, .dense, false, false, 0, 0, [0], 0, 0, [slice0], some 0, 0, none, none, 0, 0, 0, 0, 0, 0⟩

/-- A plate whose one operation delivers a slice to binding 0. -/
def slicePlate : Plate := { plateOf .matmul with colls := ⟨[exchange0], [], [], true, 0⟩ }

/-- A pass of binding 0 that has taken `n` slices. -/
def passAt (n : Nat) : GPass := { GPass.start 0 none with taken := n }

/-- Slice 0 as it stands in a groom unit's buffer. -/
def held0 : GSlice := ⟨0, 0, none, [(0, false), (0, false)]⟩

/-- Groom unit 0 in a pass that has taken `n` slices, slice 0 in its buffer. -/
def inPass (n : Nat) (x : Option Elem) : Mod :=
  (running slicePlate).setGroom 0 ⟨some (passAt n), [held0], x, [], [], 0⟩

theorem test_witness_CoreElementInstructions :
    (let m := (busy .element).setCore 0 { CoreRun.rest with run := some 0, elem := some elem0 }
     m.running = true ∧ m.running? 0 = some (stable0, 0, kern .element) ∧ (kern .element).op = .element ∧ (m.core 0).elem = some elem0) ∧
    (elem0.index + 1 < ({ kern .element with d0 := 2 } : Kernel).d0 ∧ (kern .element).d0 ≤ elem0.index + 1) := by decide +kernel

theorem test_witness_GroomElementInstructions :
    (∀ x ∈ [none, some elem0], (inPass 0 x).running = true ∧ (inPass 0 x).groomRuns = true
      ∧ (inPass 0 x).nextSlice 0 = some (passAt 0, bind0, slice0, held0) ∧ ((inPass 0 x).groomUnit 0).elem = x) ∧
    ((inPass 0 none).heldOrLoaded 0 (passAt 0) bind0 slice0 held0).2.2.isSome = true := by decide +kernel

theorem test_witness_ElementResults :
    elem0.v.length = 16 ∧ (∀ d ∈ [0, 15], d < 16) ∧
    (∀ op ∈ [ElemOp.cmplt, .cmpeq, .max, .min, .sel, .sign], op ≠ .nacc ∧ op ≠ .eEnd) ∧
    (let x := { elem0 with v := elem0.v.set 1 (fp32 0x80000000) |>.set 2 (fp32 0x7FC00000) }
     let i : ElemInstr := ⟨.cmpeq, 3, 0, 1, 2, false, false, false⟩
     (x.opdA i).isZero = true ∧ (x.opd i.ftz i.b).isZero = true ∧ (x.opdA i).isNeg ≠ (x.opd i.ftz i.b).isNeg ∧ (x.opd i.ftz i.c).isNan = true) := by
  decide +kernel

theorem test_witness_SmallFormats : 255 < 256 ∧ 15 < 16 := by decide

theorem test_witness_GroomPasses :
    (let m := running (plateOf .matmul)
     m.running = true ∧ m.groomRuns = true ∧ m.binding? 0 = some bind0 ∧ m.lagOf bind0 = 0 ∧ (m.groomUnit 0).pass = none
       ∧ 0 ∉ m.step.passesDone ∧ m.waitDone bind0.wait = true ∧ 0 ∉ m.groom.reconcile) ∧
    (((inPass 0 none).groomUnit bind0.unit).pass.isSome = true ∧ (inPass 0 none).binding? 0 = some bind0) ∧
    ((inPass 0 none).nextSlice 0).isSome = true ∧
    (((inPass 1 none).groomUnit 0).pass = some (passAt 1) ∧ (passAt 1).applies = none ∧ 1 = ((inPass 1 none).slicesOf 0).length) := by decide +kernel

/-! ### Witnesses: steps and verdicts -/

/-- A module between steps with the pair `a` armed. -/
def armed (a : Nat × Option Nat) : Mod := { idlePlate with step := { StepUnit.reset with armed := some a } }

theorem test_witness_StepStarts :
    (∀ a ∈ [(1, some 0x3F800000), (5, some 0x3F800000), (1, none)], (armed a).running = true ∧ (armed a).step.armed = some a
      ∧ (armed a).atBoundary = true ∧ (armed a).plateActive = true ∧ (armed a).stepBusy = false
      ∧ (armed a).step.armTick ≠ some (armed a).tick.count ∧ (armed a).plateChanges = false ∧ (armed a).pwr.parkReq = false
      ∧ (armed a).pwr.noSteps = false ∧ ((armed a).fget Fld.GRM_STEP_STEP + 1) % 2 ^ 32 = 1) ∧
    ¬((((armed (1, none)).plate?.map (·.cfg.reuse)).getD false = true ∧ (armed (1, none)).fget Fld.GRM_STEP_STATUS_SZ_VALID = 1)) ∧
    ({ running (plateOf .matmul) with step := { StepUnit.reset with phase := .run, armed := some (1, none) } } : Mod).stepBusy = true := by
  decide +kernel

/-- A running step whose barrier 0, which expects 2, has count `n` and a signal in flight; barrier 9 is not declared. -/
def signalled (n : Nat) : Mod :=
  { running (plateOf .matmul) with sched := { (running (plateOf .matmul)).sched with barriers := [(0, n)], sigs := [0, 9] } }

theorem test_witness_SignalsAndTimeout :
    (∀ n ∈ [0, 1, 2], (signalled n).running = true ∧ 0 ∈ (signalled n).sched.sigs ∧ (signalled n).barrierExpect 0 = some 2
      ∧ kvGetD (signalled n).sched.barriers 0 0 = n) ∧ 9 ∈ (signalled 0).sched.sigs ∧ (signalled 0).barrierExpect 9 = none ∧
    (let m := { running (plateOf .matmul) with step := { StepUnit.reset with phase := .run, ticks := 100 } }
     m.running = true ∧ m.atBoundary = true ∧ m.framesRun = true ∧ m.plate? = some (plateOf .matmul) ∧ 0 < (plateOf .matmul).cfg.maxStepTicks
       ∧ (plateOf .matmul).cfg.maxStepTicks ≤ m.step.ticks ∧ m.step.cause = none
       ∧ m.sched.stables.filter (fun e => !e.2.ended && m.takesPart e.1) ≠ []) ∧
    (let m := { running (plateOf .matmul) with sched := ⟨[], [], [(0, ⟨.fin, ⟨1, 0, 0⟩, 0, false, none, false, 0, false⟩)], []⟩ }
     m.sched.stables.filter (fun e => !e.2.ended && m.takesPart e.1) = []) := by decide +kernel

/-- A record of one participant with sum of squares `q` in attempt `a`. -/
def record (q a : Nat) : RedRec := ⟨0, 1, a, false, false, false, false, 0, 0, 1, q, 0, 0⟩

theorem test_witness_RecordsAndVerdict :
    (running (plateOf .matmul)).plate? = some (plateOf .matmul) ∧ (record 0 0).fault = false ∧ (record 0 0).mismatch = false ∧
    (record 0 0).count = (plateOf .matmul).cfg.participants ∧ (record 0 0).disagree = false ∧ (record 0 0).expectSet = false ∧
    finite64 (roundFp64 (fp64 0).sqrt.1).code = true ∧ (fp32 (plateOf .matmul).cfg.ceiling).ltB (fp64 (roundFp64 (fp64 0).sqrt.1).code) = false ∧
    finite64 (roundFp64 (fp64 0x7FF0000000000000).sqrt.1).code = false ∧ (record 0 0).attempt ≠ 1 ∧ (record 0 1).attempt = 1 ∧
    (∀ md ∈ [ClipMode.unclipped, .last, .tolerant], ({ (plateOf .matmul).cfg with mode := md } : StepCfg).mode = md) ∧
    withinTol 0 0x3F800000 0x3F800000 = true ∧ withinTol 0 0x3F800000 0x3F000000 = false ∧
    ((record 0 0).cause = 0 ∧ ((record 0 1).step, (record 0 1).epoch, (record 0 1).attempt) ≠ ((record 0 0).step, (record 0 0).epoch, (record 0 0).attempt)
      ∧ ({ record 0 0 with fault := true, cause := 0x0707 } : RedRec).cause ≠ 0) := by decide +kernel

/-- A transport flit of type `t` from module 7 with a payload. -/
def flit (t : Nat) (payload : List Byte) : TFlit := ⟨0, 7, t, 2, 0, false, false, true, 0, 0, 0, 0, 128, payload, none⟩

/-- A running step with a child, module 7, whose flit `f` has arrived. -/
def heard (f : TFlit) : Mod :=
  { running { plateOf .matmul with colls := ⟨[], [], [7], true, 0⟩ } with fab := { FabUnit.reset with inbox := [(0, f)] } }

/-- The 128 bytes of a verdict COMMIT of step 0. -/
def commitBytes : List Byte := verdictBytes (record 0 0) ⟨.commit, 0x3F800000, 0, 0, 0, 0⟩

theorem test_witness_ReductionAndVerdict :
    (let m := { running (plateOf .matmul) with step := { StepUnit.reset with phase := .run, cause := some (0x0707, 0) } }
     m.running = true ∧ m.framesRun = true ∧ m.step.verdict = none ∧ m.step.cause ≠ none ∧ m.isRoot = true ∧ m.normChildren = []) ∧
    ((running (plateOf .matmul)).step.cause = none ∧ (running (plateOf .matmul)).stepWorkDone = false) ∧
    (let f := flit 5 (padTo 128 (record 0 0).bytes)
     (heard f).running = true ∧ (heard f).stepOpen = true ∧ ((heard f).takeFlit isRecordFlit).map (·.1) = some f
       ∧ (heard f).oldRecord (RedRec.ofBytes f.payload) = false ∧ f.src ∈ (heard f).normChildren) ∧
    ({ heard (flit 5 []) with step := { StepUnit.reset with phase := .run, attempt := 1 } } : Mod).oldRecord (record 0 0) = true ∧
    (let f := flit 5 commitBytes
     ((heard f).takeFlit (fun f => f.type == 5 && !isRecordFlit f)).map (·.1) = some f ∧ (VerdictRec.ofBytes f.payload).isSome = true
       ∧ (RedRec.ofBytes f.payload).step = (heard f).fget Fld.GRM_STEP_STEP ∧ (RedRec.ofBytes f.payload).attempt = (heard f).step.attempt) ∧
    (∀ n ∈ [3, 4], let m := { running (plateOf .matmul) with step := { StepUnit.reset with phase := .await, waitTicks := n } }
     m.running = true ∧ m.step.phase = .await ∧ m.step.verdict = none ∧ m.plate? = some (plateOf .matmul)
       ∧ ((plateOf .matmul).cfg.verdictTicks ≤ n ∨ n < (plateOf .matmul).cfg.verdictTicks)) := by decide +kernel

theorem test_witness_VerdictActions : ∀ kind ∈ [VKind.commit, .replay, .skip, .fault],
    let m := { running (plateOf .matmul) with
      step := { StepUnit.reset with phase := .await, verdict := some ⟨kind, 0x3F800000, 0, 0, 0, 0⟩, hist := [⟨0, 0, 0, 0, 0, false, 0⟩] } }
    m.running = true ∧ m.step.verdict = some ⟨kind, 0x3F800000, 0, 0, 0, 0⟩ ∧ m.step.phase = .await ∧ m.step.actTick ≤ m.tick.count
      ∧ m.writebacksOut = false ∧ m.step.defRun = [] := by decide +kernel

/-- A ledger region in stack 0 or in the loft. -/
def ledgerReg (loft : Bool) : Region := ⟨5, .ledger, false, if loft then [] else [0], 8, 1, if loft then loftBase else 0, 0x100000, 0, 0, [], [], []⟩

/-- A plate whose tensor 0 is deferred by one step, with the regions `rs` and the operations `os`. -/
def lagPlate (rs : List Region) (os : List CollOp) : Plate :=
  { plateOf .matmul with regions := rs, colls := ⟨os, [], [], true, 0⟩, tensors := [⟨0, 0, false, 0, false, true, 1, 2, 0, 0⟩] }

/-- What the device keeps of step 0, committed. -/
def hist0 : StepHist := ⟨0, 0, 0, 0, 0x3F800000, true, 0⟩

/-- Step 1 of such a plate with step 0 committed and in the ledger, the first 128 bytes of HBM zeros. -/
def lagging (rs : List Region) (os : List CollOp) : Mod :=
  { (running (lagPlate rs os)).fset Fld.GRM_STEP_STEP 1 with
    mem := { up.mem with hbm := { up.mem.hbm with cells := (List.range 128).map (fun i => (i, 0)) } }
    step := { StepUnit.reset with phase := .run, hist := [⟨1, 0, 0, 0, 0, false, 0⟩, hist0], ledger := [(0, 0)] } }

/-- How the slices of binding 0 go from the start of a deferred pass on `m`. -/
def wayOf (m : Mod) : PassWay :=
  (Mod.deferredSlices 0 bind0 ⟨0, 0, 0, 0, 0x3F800000, false⟩ hist0 ((m.slicesOf 0).drop 0) m (.start 0 (some 0))).2.2

/-- A module with the sector at device address 0 poisoned. -/
def spoilt (m : Mod) : Mod := { m with mem := { m.mem with hbm := m.mem.hbm.mark 0 } }

theorem test_witness_DeferredUpdates :
    (∀ m ∈ [lagging [] [], lagging [ledgerReg true] [exchange0], lagging [ledgerReg false] [exchange0], spoilt (lagging [ledgerReg false] [exchange0])],
      m.running = true ∧ m.binding? 0 = some bind0 ∧ m.groomRuns = true ∧ (m.groomUnit bind0.unit).pass = none ∧ 0 < m.lagOf bind0
        ∧ (m.fget Fld.GRM_STEP_STEP + 2 ^ 32 - m.lagOf bind0) % 2 ^ 32 = 0 ∧ m.histOf 0 = some hist0 ∧ hist0.committed = true
        ∧ (0, 0) ∈ m.step.ledger ∧ m.waitDone bind0.wait = true) ∧
    (wayOf (lagging [] []) = .whole ∧ wayOf (lagging [ledgerReg true] [exchange0]) = .waits
      ∧ wayOf (lagging [ledgerReg false] [exchange0]) = .lost 0 ∧ wayOf (spoilt (lagging [ledgerReg false] [exchange0])) = .lost 1) ∧
    (let m := (lagging [ledgerReg true] [exchange0]).setGroom 0 { GroomRun.rest with pass := some (.start 0 (some 0)) }
     (m.groomUnit bind0.unit).pass = some (.start 0 (some 0)) ∧ (GPass.start 0 (some 0)).applies.bind m.histOf = some hist0) ∧
    (∀ m ∈ [lagging [ledgerReg false] [exchange0], spoilt (lagging [ledgerReg false] [exchange0])],
      m.slicesOf 0 = [(0, 0)] ∧ m.sliceEnt? 0 0 = some slice0 ∧ m.ledgerAt 0 0 0 0 = some (0, 0) ∧ m.stateReady 0 0 slice0.entryBytes = true) ∧
    ((lagging [ledgerReg false] [exchange0]).entryRead bind0 0 0 slice0 hist0 = .bad
      ∧ (spoilt (lagging [ledgerReg false] [exchange0])).entryRead bind0 0 0 slice0 hist0 = .poisoned) ∧
    (∀ d ∈ [none, some 0], ∀ ps ∈ [none, some (GPass.start 0 (some 0))],
      let m := { (lagging [] []).setGroom 0 { GroomRun.rest with pass := ps } with
        plt := { (lagging [] []).plt with pending := some ⟨false, 0, 0⟩ }, step := { (lagging [] []).step with phase := .idle, drainStep := d } }
      m.running = true ∧ m.step.ledger = [(0, 0)] ∧ m.binding? 0 = some bind0 ∧ m.histOf 0 = some hist0 ∧ m.changePending = true
        ∧ m.step.phase = .idle ∧ (m.step.drainStep = none ∨ m.step.drainStep = some 0) ∧ m.unitsHalted = false
        ∧ (m.groomUnit bind0.unit).pass = ps) ∧
    (let m := { running (plateOf .matmul) with
        groom := { up.groom with reconcile := [0] }, tick := { up.tick with count := 2 }, step := { StepUnit.reset with phase := .actions, actTick := 1 } }
     m.running = true ∧ m.binding? 0 = some bind0 ∧ 0 ∈ m.groom.reconcile ∧ m.groom.reconcile = [0] ∧ m.step.draining = false
       ∧ m.step.phase = .actions ∧ m.step.actTick < m.tick.count) := by decide +kernel
/-! ### Witnesses: memory -/

/-- A watch partial of `n` elements of step 0. -/
def partialOf (n : Nat) : List Byte := leBytes 16 0 ++ leBytes 6 n ++ leBytes 42 0

/-- A plate with tensor 0 of 10 elements, not deferred, and a watch table at device address 0. -/
def tensorPlate : Plate :=
  { plateOf .matmul with
    tensors := [⟨0, 0, false, 0, false, true, 0, 10, 0, 0⟩]
    regions := [⟨0, .watch, false, [0], 65536, 0, 0, 65536, 0, 0, [], [], []⟩] }

/-- The watch record of tensor 0 reads as a record of step 0 with no elements. -/
def watched : Mod :=
  { running tensorPlate with mem := { up.mem with hbm := { up.mem.hbm with cells := (List.range 64).map (fun i => (i, 0)) } } }

theorem test_witness_WatchMerge :
    watched.running = true ∧ watched.hasWatch = true ∧ (watched.tensor? 0).map (·.elements) = some 10 ∧
    (let a := Mod.watchMerge.regionBase watched.regions .watch + 64 * 0
     (∀ i < 64, watched.locate (a + i) = .hbm i ∧ i < hbmSize) ∧ rdPoison (watched.devRead a 64) = false
       ∧ (let r := WatchRec.ofBytes (rdBytes (watched.devRead a 64))
          (r.flags.testBit 0 || r.step != (WatchRec.ofBytes (partialOf 9)).step) = false ∧ r.total + (WatchRec.ofBytes (partialOf 9)).total < 10
            ∧ r.total + (WatchRec.ofBytes (partialOf 10)).total = 10 ∧ 10 < r.total + (WatchRec.ofBytes (partialOf 11)).total)) := by
  decide +kernel

/-- A started module whose window begins at device address `a`, a multiple of 1 GiB. -/
def window (a : Nat) : Mod := up.set64 Fld.TOP_BAR2_BASE_LO_BASE Fld.TOP_BAR2_BASE_HI_BASE a

/-- A plate with a banked STATE region of one stack at device address 0. -/
def bankedPlate : Plate := { plateOf .matmul with regions := [⟨1, .state, true, [0], 0, 0, 0, 0x10000, 0, 0, [], [], []⟩] }

/-- A module with that plate active and the window at device address 0. -/
def banked : Mod := (running bankedPlate).set64 Fld.TOP_BAR2_BASE_LO_BASE Fld.TOP_BAR2_BASE_HI_BASE 0

theorem test_witness_HostWrites :
    (∀ a ∈ [0, 0x8FC0000000], (window a).bar2Up = true ∧ (window a).plateActive = false ∧ (window a).bar2Base = a
      ∧ (∀ o ∈ [0, 0x1FFFFFFE], o + [some (1 : Byte), none].length ≤ (window a).bar2Size ∧ a + o + [some (1 : Byte), none].length ≤ slotBase)) ∧
    (∀ k ∈ [0, hbmSize - 1], up.stackFailed k = false) ∧
    (let m := { windowTop with plt := { up.plt with slot0 := ⟨.loading, none, none⟩ } }
     slotOf (m.bar2Base + 0x20000000) = some 0 ∧ (m.plt.slot 0).st = .loading) ∧
    (∀ o ∈ [0, 0xFFFE], slotOf o = none ∧ banked.bar2Base = 0 ∧ banked.bar2Void o = false ∧ banked.heldPort o 2 = none
      ∧ banked.shadowOf o = some (o + 0x10000) ∧ banked.bar2Void (o + 0x10000) = false ∧ banked.heldPort (o + 0x10000) 2 = none) ∧
    (up.bar2Void 0 = false ∧ up.shadowOf 0 = none ∧ banked.bar2Void 0x20000 = true ∧ banked.shadowOf 0x20000 = none) := by decide +kernel

theorem test_witness_HostReads :
    (∀ a ∈ [0, 0x8FC0000000, 0x9000000000], (window a).bar2Up = true ∧ (window a).plateActive = false ∧ (window a).host.linkUp = true
      ∧ (window a).bar2Base = a ∧ 0x3FFFFFFF + 1 ≤ (window a).bar2Size) ∧
    (0x8FC0000000 + 0x3FFFFFFF + 1 ≤ hbmSize ∧ hbmSize ≤ 0x9000000000 ∧ 0x9000000000 + 0x3FFFFFFF + 1 ≤ loftBase) ∧
    (banked.bar2Void 0 = false ∧ banked.heldPort 0 2 = none) ∧
    (∃ h, TlpBad.unsupported 1 = .unsupported h) := by
  refine ⟨by decide +kernel, by decide +kernel, by decide +kernel, ⟨1, rfl⟩⟩

theorem test_witness_HbmErrors :
    (∀ k ∈ [0, hbmSize - 1], k < hbmSize ∧ up.stackFailed k = false ∧ up.mem.hbm.poison.contains (k / 64) = false
      ∧ (up.mem.hbm.mark (k / 64)).poison.contains (k / 64) = true) ∧
    (up.fset Fld.HBM_SCRUB_HOURS 24).fget Fld.HBM_SCRUB_HOURS ≠ 0 ∧ (up.fset Fld.HBM_SCRUB_HOURS 0).fget Fld.HBM_SCRUB_HOURS = 0 ∧
    (∀ s ∈ [0, 11], up.running = true ∧ up.fget Fld.HBM_STACK_STATUS_STATE s ≠ 4
      ∧ (up.fset Fld.HBM_STACK_STATUS_STATE 4 s).fget Fld.HBM_STACK_STATUS_STATE s = 4) := by decide +kernel

/-- A started module whose CXL port 3 is in state `x` with requests held. -/
def loftIn (x : Nat) (held : List LoftReq) : Mod :=
  (up.fset Fld.LFT_PORT_STATUS_STATE x 3).setLoftPort 3 ⟨0x10000000, false, held, false, none⟩

theorem test_witness_LoftPorts :
    ((loftIn 3 []).running = true ∧ (loftIn 3 []).fget Fld.LFT_PORT_STATUS_STATE 3 = 3 ∧ (loftIn 2 []).fget Fld.LFT_PORT_STATUS_STATE 3 = 2) ∧
    (((loftIn 2 [.write (loftPortSize - 2) ([1, 2].map some)]).loftPort 3).held = [.write (loftPortSize - 2) ([1, 2].map some)]
      ∧ loftPortSize - 2 + [1, 2].length ≤ loftPortSize ∧ ((loftIn 2 []).loftPort 3).lost = false) ∧
    (up.loftDisabled 3 = false ∧ (up.loftPort 3).capacity = 0 ∧ (running (plateOf .matmul)).plateActive = true
      ∧ ((running (plateOf .matmul)).loftPort 3).capacity = 0 ∧ (running (plateOf .matmul)).fget Fld.LFT_PORT_STATUS_STATE 3 ≠ 3) ∧
    (∀ m ∈ [loftIn 3 [], loftIn 1 []], m.answers Reg.LFT_CTRL.base = true ∧ m.loftDisabled 3 = false ∧ (m.loftPort 3).capacity ≠ 0
      ∧ (m.loftPort 3).refused = false ∧ (m.loftPort 3).due = none ∧ m.plateActive = false) ∧
    (let m := ((running (plateOf .matmul)).fset Fld.LFT_PORT_STATUS_STATE 3 3).setLoftPort 3 ⟨0x10000000, false, [], false, none⟩
     m.plateActive = true ∧ m.fget Fld.LFT_PORT_STATUS_STATE 3 = 3 ∧ (m.loftPort 3).capacity ≠ 0 ∧ (m.loftPort 3).due = none) := by
  decide +kernel

/-- A plate with a loft region of 4 KiB objects. -/
def pooledPlate : Plate := { plateOf .matmul with regions := [⟨3, .plain, false, [], 0, 1, loftBase, 0x100000, 0, 0x1000, [], [], []⟩] }

/-- Object states of such a plate's first object, with one free page of the pool. -/
def pooled (o : Option PoolObj) (ws : List PoolWait) : Mod :=
  { running pooledPlate with pool := ⟨(o.map (fun x => (loftBase, x))).toList, [7], [], ws⟩ }

/-- The object in state `x`, with `n` pins, written or not, its write-back started or not. -/
def objIn (x : ObjState) (n : Nat) (dirty wb : Bool) : PoolObj := ⟨0x1000, 1, none, x, n, 0, dirty, wb, [3]⟩

theorem test_witness_PoolObjects :
    (∀ o ∈ [none, some (objIn .hbm 0 false false), some (objIn .movingUp 0 false false), some (objIn .evicting 0 true false),
        some (objIn .evicting 0 true true)],
      (pooled o []).running = true ∧ (pooled o []).chunksFull loftBase 1024 = false ∧ ((pooled o []).poolWant loftBase 1024).isSome = true
        ∧ (pooled o []).poolObj? loftBase = o) ∧
    ((pooled none []).poolWant loftBase 1024).all (fun w => decide (pagesFor w.size ≤ ((pooled none []).freePages w.unit).length)) = true ∧
    ((pooled (some (objIn .hbm 2 true false)) []).poolObj? loftBase = some (objIn .hbm 2 true false) ∧ (objIn .hbm 2 true false).pins ≠ 0
      ∧ (objIn .hbm 1 true false).pins = 1 ∧ (objIn .hbm 1 true false).dirty = true ∧ (objIn .hbm 1 true false).owner = 1) ∧
    (let m := (pooled (some (objIn .movingUp 1 false false)) []).fset Fld.LFT_PORT_STATUS_STATE 3 0
     m.running = true ∧ m.poolObj? loftBase = some (objIn .movingUp 1 false false) ∧ m.heldPort loftBase 0x1000 = none ∧ m.pool.waits = []) ∧
    (∀ n ∈ [0, 65536], let m := pooled none [⟨loftBase, 1024, n⟩]
     m.pool.waits.find? (fun x => x.home == loftBase && x.user == 1024) = some ⟨loftBase, 1024, n⟩ ∧ m.poolObj? loftBase = none
       ∧ (m.fget Fld.LFT_POOL_WAIT_TICKS ≤ n ∨ n < m.fget Fld.LFT_POOL_WAIT_TICKS)) ∧
    (let m := { pooled none [⟨loftBase, 1024, 65536⟩] with pool := ⟨[], [], [], [⟨loftBase, 1024, 65536⟩]⟩ }
     (m.poolWant loftBase 1024).all (fun w => (m.evictOne w.unit).isNone
       && decide ((m.freePages w.unit).length + m.queuedPages w.unit < pagesFor w.size)) = true ∧ (m.poolWant loftBase 1024).isSome = true) ∧
    (∀ o ∈ [objIn .movingUp 1 false false, objIn .evicting 0 true true], let m := (pooled (some o) []).fset Fld.LFT_PORT_STATUS_STATE 3 0
     m.poolObj? loftBase = some o ∧ m.heldPort loftBase o.size = none ∧ m.pool.waits = []) ∧
    ((pooled none []).fget Fld.LFT_POOL_WAIT_TICKS ≤ 65536 ∧ 0 < (pooled none []).fget Fld.LFT_POOL_WAIT_TICKS) := by decide +kernel

/-- A stream descriptor of a kind, context 0 of engine 0, with two tiles of 512 bytes and no barrier. -/
def streamOf (k : StreamKind) : StreamDesc :=
  ⟨k, false, false, none, 0, 2, 0, 0x100000, 512, 512, 0, 1, 0, none, 0, none, 0, 1, 1, none, none, 0, none, 1⟩

/-- A plate with that stream, a shed window and a paddock record that may spill or not. -/
def streamPlate (d : StreamDesc) (noSpill : Bool) : Plate :=
  { plateOf .matmul with
    streams := [d]
    regions := [⟨1, .paddock, false, [0], 16, 0, 0x200000, 0x10000, 0x200000, 0, [], [⟨0, 0, 0, 0x10000, 0, 0xFFFF, 0, false, noSpill, 0⟩], []⟩,
      ⟨2, .shed, false, [0], 16, 0, 0x300000, 0x10000, 0x300000, 0, [⟨0, 0, 0x1000, 0⟩], [], []⟩] }

/-- A running step of a plate with its context at tile `n`, tiles in flight, and free pages of the paddock and the spill space. -/
def streamingOn (p : Plate) (n : Nat) (flight : List TileRun) (free spill : NatSet) : Mod :=
  { running p with
    stm := ⟨[(0, { StmEngine.rest with ctxs := [(0, { CtxRun.rest with next := n, ahead := false, flight := flight })] })], []⟩
    pad := ⟨[], free, 0, 0⟩
    pool := ⟨[], [], spill, []⟩ }

/-- The same with the plate of one stream. -/
def streaming (d : StreamDesc) (noSpill : Bool) (n : Nat) (flight : List TileRun) (free spill : NatSet) : Mod :=
  streamingOn (streamPlate d noSpill) n flight free spill

theorem test_witness_PaddockPlacement :
    (∀ x ∈ [(false, [0], []), (false, [], [4]), (true, [], [])],
      let m := streaming (streamOf .stash) x.1 0 [] x.2.1 x.2.2
      m.running = true ∧ m.stream? 0 = some (streamOf .stash) ∧ (m.padRec? 0).map (fun r => (r.noSpill, r.eligible)) = some (x.1, false)
        ∧ m.streamsRun = true ∧ m.framesRun = true ∧ m.step.cause = none ∧ (m.ctx 0).ahead = false ∧ (m.ctx 0).next < (streamOf .stash).tiles
        ∧ m.tileWaitDone (streamOf .stash) 0 = true ∧ kvGet? m.pad.insts (padKey 0 0) = none ∧ m.dropKeys = []) ∧
    (let range := padRange 0 (streaming (streamOf .stash) false 0 [] [0] []).padRegions 0
     pagesFor 512 = 1 ∧ ([0].filter (fun p => decide (range.1 ≤ p) && decide (p < range.1 + range.2))).take 1 = [0]) ∧
    (freeRun [4] (pagesFor 512) = some [4] ∧ freeRun [] (pagesFor 512) = none) ∧
    (let m := streamingOn { streamPlate (streamOf .stash) true with
       regions := [⟨1, .paddock, false, [0], 16, 0, 0x200000, 0x10000, 0x200000, 0, [], [⟨0, 0, 0, 0x10000, 0, 0xFFFF, 0, true, true, 0⟩], []⟩] } 0 [] [] []
     m.running = true ∧ m.stream? 0 = some (streamOf .stash) ∧ (m.padRec? 0).map (fun r => (r.noSpill, r.eligible, r.layer)) = some (true, true, 0)
       ∧ m.streamsRun = true ∧ m.framesRun = true ∧ (m.ctx 0).ahead = false ∧ m.tileWaitDone (streamOf .stash) 0 = true
       ∧ kvGet? m.pad.insts (padKey 0 0) = none ∧ m.dropOk 0 0 = true ∧ 0 < 256) := by decide +kernel

/-! ### Witnesses: the fabric -/

/-- A plate that names port 5, connected to port 3 of module 7, and reaches module 7 through it. -/
def fabricPlate : Plate :=
  { plateOf .matmul with routes := some ⟨8, 16, [5], [(5, (7, 3))], [(7, [5, 0xFF, 0xFF, 0xFF, 0xFF])]⟩ }

/-- A running module with port 5 as `x`. -/
def wired (x : Port) : Mod := (running fabricPlate).setPort 5 x

theorem test_witness_FabricPortStates :
    (∀ x ∈ [PortState.down, .training, .quarantine, .active, .retrain], (wired (Port.rest x)).running = true
      ∧ ((wired (Port.rest x)).port 5).st = x) ∧
    ((wired (Port.rest .training)).port 5).failedLanes = 0 ∧
    (∀ bad ∈ [1, 0x0F, 0x10, 0xF0], (keptHalf (0 ||| bad)).isSome = true ∧ bad % 256 ≠ 0) ∧ (∀ bad ∈ [0x11, 0xFF], keptHalf (0 ||| bad) = none) ∧
    (PortState.active.carries = true ∧ PortState.retrain.carries = true ∧ 5 ∈ (wired (Port.rest .active)).activePorts
      ∧ 5 ∉ ((running (plateOf .matmul)).setPort 5 (Port.rest .retrain)).activePorts ∧ (wired (Port.rest .active)).answers Reg.FAB_CTRL.base = true) ∧
    ((Port.rest .training).attempts < 2 ∧ 2 ≤ ({ Port.rest .training with attempts := 2 } : Port).attempts ∧ 500 ≤ 500 ∧ 500 < 501) ∧
    ((Port.rest .active).lanes ≠ 4 ∧ ({ Port.rest .active with lanes := 4 } : Port).lanes = 4) := by decide +kernel

/-- A good flit of kind `k` from module 7 for this module. -/
def flitIn (k : Nat) : FlitIn :=
  ⟨true, false, k, 0, false, false, 0, [], false, 0, 7, 1, 2, 0, false, false, true, 0, 0, 0, 0, 64, []⟩

/-- A module with an ACTIVE port 5 and the flow from module 7 of class 2 at number 1. -/
def receiving : Mod :=
  { wired (Port.rest .active) with fab := { (wired (Port.rest .active)).fab with rx := [(flowKey 7 2, ⟨1, [], 0, false⟩)] } }

theorem test_witness_FlitsReceived :
    ((wired (Port.rest .active)).running = true ∧ ((wired (Port.rest .active)).port 5).st = .active ∧ 3 < (flitIn 4).kind
      ∧ ((wired (Port.rest .quarantine)).port 5).st = .quarantine ∧ ((wired (Port.rest .retrain)).port 5).st = .retrain
      ∧ ({ flitIn 1 with ok := false } : FlitIn).ok = false) ∧
    ((flitIn 1).ok = true ∧ (flitIn 1).fec = false ∧ (flitIn 1).kind = 1 ∧ (flitIn 1).nak = false
      ∧ (flitIn 1).seq = ((wired (Port.rest .active)).port 5).rxSeq
      ∧ ({ flitIn 1 with seq := 9 } : FlitIn).seq ≠ ((wired (Port.rest .active)).port 5).rxSeq) ∧
    ((flitIn 1).dest = receiving.self ∧ (flitIn 1).type ≠ 6
      ∧ kvGet? receiving.fab.rx (flowKey (flitIn 1).src (flitIn 1).cls) = some ⟨1, [], 0, false⟩
      ∧ (∀ e ∈ [1, 16384], let d := (e + 2 ^ 32 - 1 % 2 ^ 32) % 2 ^ 32
          d < flowWindow ∧ 1 + d ∉ (⟨1, [], 0, false⟩ : RxFlow).above ∧ receiving.fab.waiting (flitTransport { flitIn 1 with e2e := e }) = false)
      ∧ 2 ^ 31 ≤ (0 + 2 ^ 32 - 1 % 2 ^ 32) % 2 ^ 32) ∧
    ((fun (m : Mod) => (m.choose (some 4) 7).isSome && (m.choose (some 5) 7).isNone) (wired (Port.rest .active)) = true
      ∧ 7 ≠ (wired (Port.rest .active)).self ∧ 1 < ({ flitIn 1 with hops := 2 } : FlitIn).hops ∧ (flitIn 1).hops ≤ 1) := by decide +kernel

theorem test_witness_FlitsSent :
    (((wired (Port.rest .active)).port 5).sends = true ∧ ({ Port.rest .active with markDue := true } : Port).markDue = true
      ∧ ({ Port.rest .training with lanes := 8 } : Port).sends = true ∧ (Port.rest .down).sends = false ∧ (Port.rest .training).sends = false) ∧
    ((Port.rest .active).retry = []
      ∧ (∀ n ∈ [7, 8], ({ Port.rest .active with retry := [(0, flit 1 [])], rounds := n } : Port).retry ≠ [] ∧ (n < 8 ∨ 8 ≤ n))) ∧
    (let x : Port := { Port.rest .active with queue := [flit 1 []] }
     100 < 101 ∧ x.creditRaised = false ∧ (∀ f ∈ x.queue, f.cls = 2 ∧ f.vl = 0) ∧ x.credit 2 0 = 0) ∧
    ((wired (Port.rest .active)).answers Reg.FAB_CTRL.base = true ∧ ((wired (Port.rest .quarantine)).port 5).st = .quarantine) := by decide +kernel

/-- What the neighbour of port 5 says of itself. -/
def ctl (state epoch port : Nat) : CtlRec := ⟨7, port, state, epoch, 8, true, [], 0⟩

theorem test_witness_NeighboursAndMarks :
    (((wired (Port.rest .quarantine)).port 5).st = .quarantine ∧ (Port.rest .training).st = .training) ∧
    (∀ x ∈ [{ Port.rest .training with lanes := 4, ctlDue := true }, { Port.rest .training with lanes := 8 }],
      ((wired x).port 5).st = .training ∧ ((wired x).port 5).lanes ≠ 0 ∧ ((wired x).port 5).ctlDue = x.ctlDue) ∧
    ((wired (Port.rest .active)).routes = fabricPlate.routes ∧ fabricPlate.routes.map (fun t => kvGet? t.nbr 5) = some (some (7, 3))
      ∧ (wired (Port.rest .active)).epoch = 1
      ∧ ((7, 3) = ((ctl 4 1 3).module, (ctl 4 1 3).port) ∧ (ctl 4 1 3).state = 4 ∧ (ctl 4 1 3).active = true)
      ∧ ((ctl 3 1 3).state ≠ 4 ∧ (ctl 4 2 3).epoch ≠ 1 ∧ (7, 3) ≠ ((ctl 4 1 2).module, (ctl 4 1 2).port))) ∧
    (4 ≠ (wired (Port.rest .active)).fget Fld.TCK_PERIOD_PERIOD_US ∧ 5 ∉ (wired (Port.rest .active)).tick.periodBad
      ∧ 8 = (wired (Port.rest .active)).fget Fld.TCK_PERIOD_PERIOD_US ∧ 0 = (wired (Port.rest .active)).nearBoundary) ∧
    (let m := { wired (Port.rest .active) with tick := { up.tick with source := 1, edgeSeen := true, port := 5 } }
     m.isUpstream 5 = true ∧ m.plateActive = true ∧ 1 ≠ m.nearBoundary
       ∧ ({ up with tick := { up.tick with source := 1, edgeSeen := true, port := 5 } } : Mod).isUpstream 5 = true ∧ up.plateActive = false) ∧
    (let x : Port := { Port.rest .active with ownMark := some (0, 3), nbrMark := some (0, 0, 3, 8) }
     x.ownMark = some (0, 3) ∧ x.nbrMark = some (0, 0, 3, 8) ∧ 3 ≠ 4
       ∧ (∀ e ∈ [(16000, 0, 8000), (1000000, 0, 500000)], ((e.1 : Int) - 0 - e.2.1) / 2 = e.2.2)
       ∧ (0 - (16000 : Int) - 0).natAbs ≤ 16000 ∧ 16000 < (0 - (16001 : Int) - 0).natAbs ∧ 500000 < ((1000002 : Int) - 0 - 0) / 2) := by
  decide +kernel

/-- A running module with the flow to and from module 7 of class 2 in use and the flit `f` arrived. -/
def flows (tx : TxFlow) (rx : RxFlow) (f : TFlit) : Mod :=
  { wired (Port.rest .active) with
    fab := { (wired (Port.rest .active)).fab with tx := [(flowKey 7 2, tx)], rx := [(flowKey 7 2, rx)], inbox := [(5, f)], reads := [(0, ⟨7, 64, [], false⟩)] } }

theorem test_witness_EndToEnd :
    (let f := { flit 6 [] with tag := 2, addr := 0 }
     let m := flows ⟨1, [flit 1 []], [], 0⟩ .rest f
     m.running = true ∧ (m.takeFlit (fun f => f.type == 6)).map (·.1) = some f ∧ flowKey f.src (f.tag % 4) = flowKey 7 2
       ∧ (kvGetD m.fab.tx (flowKey 7 2) .rest).unacked.any (fun g => g.seq == f.addr % 2 ^ 32) = true) ∧
    ((kvGetD (flows .rest ⟨1, [], 1, true⟩ (flit 1 [])).fab.rx (flowKey 7 2) .rest).due = true
      ∧ (flows .rest ⟨1, [], 1, true⟩ (flit 1 [])).choose none 7 = some (0, 5, 0)
      ∧ (kvGetD (flows .rest .rest (flit 1 [])).fab.rx (flowKey 7 2) .rest).due = false) ∧
    (∀ n ∈ [2, 3], (kvGetD (flows ⟨1, [flit 1 []], [], n⟩ .rest (flit 1 [])).fab.tx (flowKey 7 2) .rest).unacked = [flit 1 []]
      ∧ (kvGetD (flows ⟨1, [flit 1 []], [], n⟩ .rest (flit 1 [])).fab.tx (flowKey 7 2) .rest).timeouts = n ∧ (n < 3 ∨ 3 ≤ n)) ∧
    (flows .rest .rest (flit 6 [])).stepOpen = true ∧ ({ flows .rest .rest (flit 6 []) with step := .reset } : Mod).stepOpen = false ∧
    ((flows .rest .rest (flit 1 [])).takeFlit (fun f => f.type == 1)).map (·.1) = some (flit 1 []) ∧
    ((accessPoints 0 0).all (flows .rest .rest (flit 1 [])).remoteWritable = false ∧ (flit 1 []).poison = false
      ∧ (∀ n ∈ [64, 0x1000], (accessPoints 0x300000 n).all (running (streamPlate (streamOf .fill) false)).remoteWritable = true
          ∧ (running (streamPlate (streamOf .fill) false)).heldPort 0x300000 n = none)
      ∧ (accessPoints (0x300000 + 0xFFC0) 128).all (running (streamPlate (streamOf .fill) false)).remoteWritable = false
      ∧ (running (streamPlate (streamOf .fill) false)).locate 0x300000 ≠ .reserved) ∧
    (let m := ((running pooledPlate).fset Fld.LFT_PORT_STATUS_STATE 2 0).setLoftPort 0 ⟨0x10000000, false, [], false, none⟩
     (accessPoints loftBase 64).all m.remoteWritable = true ∧ (accessPoints loftBase 64).all m.remoteReadable = true
       ∧ (m.heldPort loftBase 64).isSome = true) ∧
    ((flows .rest .rest (flit 2 [])).takeFlit (fun f => f.type == 2)).map (·.1) = some (flit 2 []) ∧
    ((accessPoints 0 64).all (flows .rest .rest (flit 2 [])).remoteReadable = false
      ∧ (accessPoints 0x300000 64).all (running (streamPlate (streamOf .fill) false)).remoteReadable = true) ∧
    (((flows .rest .rest (flit 3 [])).takeFlit (fun f => f.type == 3)).map (·.1) = some (flit 3 [])
      ∧ kvGet? (flows .rest .rest (flit 3 [])).fab.reads (flit 3 []).tag = some ⟨7, 64, [], false⟩
      ∧ (⟨7, 64, [], false⟩ : RemRead).complete = false ∧ (⟨7, 0, [], false⟩ : RemRead).complete = true
      ∧ kvGet? (flows .rest .rest (flit 3 [])).fab.reads 1 = none) := by decide +kernel

/-! ### Witnesses: collectives and streams -/

/-- A running step with one operation of a kind that waits for its input, which is there. -/
def serving (k : CollKind) (mbs : Nat) : Mod :=
  let p := { plateOf .matmul with
    colls := ⟨[{ exchange0 with kind := k, binding := none }], [], [], true, 0⟩, barriers := [(0, 0)]
    cfg := { (plateOf .matmul).cfg with microBatches := mbs } }
  { running p with coll := { up.coll with ops := [(0, { OpRun.rest with st := .waitInput })] } }

/-- A COLL flit of step 0 with tag bits for step `n`. -/
def collFlit0 (n : Nat) : TFlit := { flit 4 (List.replicate 64 0) with tag := 512 * n, len := 64 }

theorem test_witness_CollectiveOperations :
    (∀ k ∈ [CollKind.exchange, .rows, .allreduce, .fence], (serving k 1).running = true
      ∧ (serving k 1).opReady 0 k = some { exchange0 with kind := k, binding := none } ∧ (serving k 1).lastMb ≤ ((serving k 1).opRun 0).mb) ∧
    (((serving .exchange 2).opRun 0).mb < (serving .exchange 2).lastMb ∧ (serving .exchange 2).opReady 0 .exchange ≠ none) ∧
    (∀ k ∈ [CollKind.exchange, .rows, .allreduce, .fence], (running (plateOf .matmul)).opReady 0 k = none) ∧
    (∀ n ∈ [0, 1, 2], let m := { running (plateOf .matmul) with fab := { FabUnit.reset with inbox := [(0, collFlit0 n)] } }
     m.running = true ∧ (m.takeFlit m.collTakes).map (·.1) = some (collFlit0 n) ∧ m.unitsHalted = false) ∧
    ((running (plateOf .matmul)).collNow 0 0 = true ∧ (running (plateOf .matmul)).collNow 1 0 = false
      ∧ (running (plateOf .matmul)).collLater 1 0 = true ∧ (running (plateOf .matmul)).collNow 2 0 = false
      ∧ (running (plateOf .matmul)).collLater 2 0 = false) ∧
    (let m := running { plateOf .matmul with colls := ⟨[{ exchange0 with members := [0, 1] }], [], [], true, 0⟩ }
     m.collInTurn (collFlit0 0) = false ∧ reducerSize < m.reducerBytes (m.reducerOf ((collFlit0 0).addr % 2 ^ 16)) + ({ collFlit0 0 with len := reducerSize + 1 } : TFlit).len) := by
  decide +kernel

/-- A tile in flight with nothing left to fetch. -/
def tile0 : TileRun := ⟨0, 0, none, [], 0, [], 0, 0, [], none⟩

/-- The 144 bytes of a decode table of generation 1 whose 256 symbols have codes of 8 bits. -/
def tableBytes : List Byte :=
  leBytes 4 0x54584C53 ++ leBytes 4 1 ++ leBytes 4 (crc32c (List.replicate 128 0x88)) ++ leBytes 4 0 ++ List.replicate 128 0x88

/-- A staged block, with a table slot its count is held against. -/
def job0 (hdrBad : Bool) (ref : Option Nat) : EtchJob := ⟨0, 0, 0, 0, 0, 16, hdrBad, false, 0, ref, false, []⟩

/-- A running module whose loads of decode tables go to engine 0 alone and find `tableBytes` at address 0. -/
def tabled (staged : List EtchJob) : Mod :=
  let m := Mod.fset (running (streamPlate { streamOf .fill with expand := true } false)) Fld.STM_TBL_MASK_LO_MASK 1
  { m with
    mem := { up.mem with hbm := { up.mem.hbm with cells := (List.range 144).map (fun i => (i, tableBytes.getD i 0)) } }
    stm := ⟨[(0, { StmEngine.rest with staged := staged })], []⟩ }

theorem test_witness_StreamsAndTables :
    (let m := streaming (streamOf .fill) false 0 [] [] []
     m.running = true ∧ m.stream? 0 = some (streamOf .fill) ∧ m.tilesMayBegin (streamOf .fill) (m.ctx 0) = true
       ∧ m.tileWinFree (streamOf .fill) 0 = true ∧ m.tileWaitDone (streamOf .fill) 0 = true ∧ m.tilePlaced (streamOf .fill) 0 = true
       ∧ (m.ctx 0).pinsFull = false) ∧
    (streaming (streamOf .fill) false 2 [] [] []).tilesMayBegin (streamOf .fill) ((streaming (streamOf .fill) false 2 [] [] []).ctx 0) = false ∧
    (∀ k ∈ [StreamKind.fill, .copy, .stash, .unstash, .walk],
      let m := (streaming (streamOf k) false 1 [tile0] [] []).engineFetch 0 noEcc
      let m1 := { m with pad := ⟨[(padKey 0 0, ⟨.pages [0], 512, false⟩)], [], 0, 0⟩ }
      m1.streamsRun = true ∧ (m1.ctx 0).flight = [tile0] ∧ (streamOf k).expand = false ∧ tile0.phase ≠ 5 ∧ m1.portReady (streamOf k) tile0 = true
        ∧ m1.portTaken (streamOf k) tile0 = false ∧ m1.remoteAddr ((streamOf k).dstAt 0) = false) ∧
    (kvGet? ([(padKey 0 0, ⟨.dropped, 512, false⟩)] : Kv PadInst) (padKey (streamOf .stash).winBase 0)).map (·.place) = some .dropped ∧
    (let r : TileRun := ⟨0, 0, none, [], 4, [], 0, 0, [], none⟩
     let m := streaming { streamOf .fill with expand := true } false 1 [r] [] []
     ((m.engineFetch 0 noEcc).ctx 0).flight = [r] ∧ (m.engineFetch 0 noEcc).etchDone { streamOf .fill with expand := true } r = true) ∧
    up.streamsRun = false ∧
    ((tabled [job0 true none]).pickJob 0 = some (job0 true none) ∧ ((tabled [job0 true none]).stream? (16 * 0 + 0)).isSome = true
      ∧ (tabled []).pickJob 0 = none) ∧
    (let m := tabled []
     m.answers Reg.STM_TBL_CMD.base = true ∧ m.get64 Fld.STM_TBL_MASK_LO_MASK Fld.STM_TBL_MASK_HI_MASK = 2 ^ 0
       ∧ rdPoison ((m.yard .stream 0 144 false).devRead 0 144) = false ∧ tableFault (rdBytes ((m.yard .stream 0 144 false).devRead 0 144)) = none
       ∧ (m.engine 0).tab (m.engine 0).cur = none ∧ (m.engine 0).refs 1 = 0) ∧
    (0 < ((tabled [job0 false (some 1)]).engine 0).refs 1
      ∧ rdPoison (({ tabled [] with mem := { up.mem with hbm := up.mem.hbm.mark 0 } } : Mod).devRead 0 144) = true) ∧
    (let x := { StmEngine.rest with load := some ⟨1, []⟩ }
     x.load = some ⟨1, []⟩ ∧ up.atBoundary = true ∧ (up.engine 0).load = none) := by decide +kernel

/-! ### Witnesses: host port, resets, events -/

theorem test_witness_HostPortCommands :
    (up.mgUp = true ∧ up.pwr.started = true ∧ up.pwr.perst = false ∧ up.host.linkUp = true ∧ (∀ w ∈ [1, 8], w ∈ [1, 2, 4, 8]) ∧ 1 ≤ 6 ∧ 6 ≤ 6) ∧
    (16384 < (List.replicate 16385 (0 : Byte)).length ∧ up.host.doe.busy = none ∧ 1 < 2) ∧
    (let good := [1, 1, 0, 0] ++ leBytes 4 8
     let object := fun (o : List Byte) => decide (o.getD 0 0 = 1) && attLen (o.getD 1 0).toNat == some o.length && leNat ((o.drop 4).take 4) == o.length
     good.length ≤ 16384 ∧ object good = true ∧ object [1] = false) ∧
    (up.mctpUp true = true ∧ up.mctpUp false = true) ∧
    ((up.pathRefused .sideband || (decide (1 ≤ 900 % 4096) && decide (900 % 4096 ≤ 899))) = false
      ∧ (up.pathRefused .sideband || (decide (1 ≤ 899 % 4096) && decide (899 % 4096 ≤ 899))) = true) ∧
    (let h := { up.host with msixEnable := true, pba := [0, 127], entries := [(0, ⟨8, 1, false⟩)], coalDue := [2] }
     h.msixEnable = true ∧ h.funcMask = false ∧ 127 ∈ h.pba ∧ kvGet? h.entries 0 = some ⟨8, 1, false⟩ ∧ (kvGetD h.entries 127 .reset).mask = true
       ∧ 2 ∈ h.coalDue ∧ 0 ∉ h.coalDue ∧ kvGet? ({ h with entries := [(2, ⟨8, 1, false⟩)] } : HostUnit).entries 2 = some ⟨8, 1, false⟩) := by
  decide +kernel

/-- A started module with an update session on a path, at a stage of component 0. -/
def session (path : Path) (stage : FwuStage) (header : List Byte) (blocks : Nat) : Mod :=
  { up with sec := { up.sec with session := some ⟨path, stage, 0, header, [], [], [], blocks, [], []⟩ } }

theorem test_witness_ResetEffects :
    (up.mgUp = true ∧ up.pwr.ready = true ∧ up.host.linkUp = true ∧ (running (plateOf .matmul)).stepOpen = true ∧ up.stepOpen = false
      ∧ Reg.at? Reg.TCK_PERIOD.base = some (Reg.TCK_PERIOD, 0, 0)) ∧
    (State.reset.m.mgUp = false ∧ State.reset.m.host.linkUp = false) ∧
    (∀ p ∈ [Path.bar0, .vdm, .sideband], up.pathUp p Reg.PWR_CTRL.base = true ∧ up.pathRefused p = false) ∧
    ({ up with pwr := { up.pwr with ready := false } } : Mod).pathUp .sideband Reg.PWR_CTRL.base = true ∧
    (up.fset Fld.SEC_POLICY_SIDEBAND 1).pathRefused .vdm = true ∧
    ((session .vdm .ended [] 0).pathUp .vdm Reg.SEC_CMD.base = true ∧ (session .vdm .ended [] 0).plateActive = false
      ∧ (running (plateOf .matmul)).plateActive = true) ∧
    (up.pwr.perst = false ∧ up.pwr.rails = true ∧ up.pwr.state ≠ .sleep ∧ (up.fset Fld.PWR_CFG_OFF_ON_PERST 1).fget Fld.PWR_CFG_OFF_ON_PERST = 1) ∧
    (let held : PwrUnit := { up.pwr with perst := true, ready := false }
     held.perst = true ∧ held.powered = true ∧ held.rails = true ∧ held.state ≠ .off ∧ held.started = true ∧ held.ready = false
       ∧ ({ held with state := .off } : PwrUnit).state = .off ∧ ({ held with started := false } : PwrUnit).started = false) ∧
    (State.reset.m.pwr.powered = false ∧ up.pwr.powered = true ∧ up.pwr.rails = true) := by decide +kernel

/-- An event record of a class. -/
def event (c : EvClass) : EvRec := ⟨0, 0, 0x0101, c, false, 0, 0, 0, 0, 0⟩

theorem test_witness_EventRecords :
    (let m := { up with evIn := [event .device, event .corrected] }
     m.mgUp = true ∧ m.evIn = event .device :: [event .corrected] ∧ m.sec.recovery = false) ∧
    (EvtUnit.empty.accepted < 256 ∧ 256 ≤ ({ EvtUnit.empty with accepted := 256 } : EvtUnit).accepted ∧ EvtUnit.empty.others < 1023
      ∧ 1023 ≤ ({ EvtUnit.empty with queue := List.replicate 1023 (event .device) } : EvtUnit).others) ∧
    ([event .device, event .corrected] = [event .device] ++ event .corrected :: [] ∧ (event .corrected).cls.code < 2
      ∧ (∀ q ∈ [event .device], 2 ≤ q.cls.code)) ∧
    (up.atBoundary = true ∧ 0 < ({ EvtUnit.empty with dropsSince := 1 } : EvtUnit).dropsSince ∧ ∀ r ∈ EvtUnit.empty.queue, r.code ≠ 0x0D04) ∧
    (({ EvtUnit.empty with queue := [event .step] } : EvtUnit).queue = event .step :: [] ∧ ringOn.fget Fld.EVT_RING_CTRL_ENABLE = 1
      ∧ (ringOn.fget Fld.EVT_RING_PROD_INDEX + 2 ^ 32 - ringOn.fget Fld.EVT_RING_CONS_INDEX) % 2 ^ 32 < 2 ^ ringOn.fget Fld.EVT_RING_CTRL_LOG2_SIZE
      ∧ ringOn.host.msixEnable = false ∧ ringOn.fget Fld.EVT_RING_CTRL_COALESCE_US = 0) ∧
    (let full := ringOn.fset Fld.EVT_RING_PROD_INDEX (2 ^ ringOn.fget Fld.EVT_RING_CTRL_LOG2_SIZE)
     2 ^ full.fget Fld.EVT_RING_CTRL_LOG2_SIZE ≤ (full.fget Fld.EVT_RING_PROD_INDEX + 2 ^ 32 - full.fget Fld.EVT_RING_CONS_INDEX) % 2 ^ 32) ∧
    up.mctpUp true = true := by decide +kernel

/-! ### Witnesses: security, update, power

Where a premise asks that a signature verifies or that a ciphertext opens, the answer is a free value of Config, and the witness says what it
depends on. -/

theorem test_witness_AttestationAndKeys :
    (up.attUp (.mctp true 5) = true ∧ ({ up with host := { up.host with doe := ⟨some 5, false⟩ } } : Mod).attUp (.doe 5) = true
      ∧ (List.replicate 32 (0 : Byte)).length = 32) ∧
    (∀ q ∈ [0, 2 ^ 20 - 16384, 2 ^ 20 - 1], (up.fset Fld.SEC_ATT_NEXT_NEXT q).fget Fld.SEC_ATT_NEXT_NEXT = q ∧ q < 2 ^ 20) ∧
    2 ^ 20 ≤ (up.fset Fld.SEC_ATT_NEXT_NEXT (2 ^ 20)).fget Fld.SEC_ATT_NEXT_NEXT ∧
    (up.sec.unlock ≠ 2 ∧ ({ up.sec with unlock := 2 } : SecUnit).unlock = 2 ∧ up.sec.keyLowRaised = false
      ∧ 2 ^ 20 - (2 ^ 20 - 16384 + 1) < 16384 ∧ 16384 ≤ 2 ^ 20 - (0 + 1)) ∧
    (15 < 16 ∧ 16 ≤ 16 ∧ (running (plateOf .matmul)).stepBusy = true ∧ up.stepBusy = false) ∧
    ((if ({ up.sec with cleared := true } : SecUnit).cleared then none else Config.kemDecap 0 []).bind
      (fun x => Config.gcmOpen x [] [] []) = (none : Option (List Byte))) ∧
    (up.atBoundary = true ∧ State.reset.m.mgUp = false ∧ ∃ e ∈ ({ up.sec with keysDue := [(3, [1])] } : SecUnit).keysDue, e.1 = 3) := by
  decide +kernel

theorem test_witness_loaded_key (secret key iv wrapped ciphertext : List Byte) (h : Config.kemDecap up.sec.kem ciphertext = some secret)
    (h1 : Config.gcmOpen secret iv (leBytes 1 0 ++ leBytes 8 Config.uid.toNat) wrapped = some key) :
    (if up.sec.cleared then none else Config.kemDecap up.sec.kem ciphertext).bind
      (fun x => Config.gcmOpen x iv (leBytes 1 0 ++ leBytes 8 Config.uid.toNat) wrapped) = some key := by
  rw [show up.sec.cleared = false from rfl, h]
  exact h1

/-- A header of a one-block image of component `c`, whose block list has the digest `d`. -/
def header (c : Nat) (d : List Byte) : List Byte :=
  leBytes 4 0x46584C53 ++ leBytes 2 1 ++ leBytes 1 c ++ leBytes 1 0 ++ leBytes 16 0 ++ leBytes 4 1 ++ leBytes 4 16 ++ leBytes 160 0
    ++ padTo 32 d ++ leBytes 92 0 ++ leBytes 4 5396 ++ List.replicate 5396 0

/-- A block record of 16 bytes. -/
def block0 : List Byte := leBytes 4 0 ++ leBytes 4 16 ++ leBytes 40 0

/-- A module whose policy checks blocks one by one. -/
def blockwise (m : Mod) : Mod := m.fset Fld.SEC_POLICY_BLOCKWISE 1

theorem test_witness_update_session_forms :
    (up.pathUp .vdm Reg.SEC_CMD.base = true ∧ up.pathRefused .vdm = false ∧ up.sec.session = none ∧ up.variant = false
      ∧ (up.fset Fld.SEC_POLICY_SIDEBAND 1).pathRefused .vdm = true ∧ (session .vdm .opened [] 0).sec.session ≠ none ∧ Path.vdm ≠ .sideband) ∧
    ((blockwise (session .vdm .opened [] 0)).fget Fld.SEC_POLICY_BLOCKWISE = 1 ∧ (session .vdm .opened [] 0).fget Fld.SEC_POLICY_BLOCKWISE ≠ 1
      ∧ up.sec.recovery = false) ∧
    (hdrBad (header 0 []) = false ∧ hdrDelta (header 0 []) = false ∧ hdrBad [] = true ∧ hdrBlocks (header 0 []) = 1 ∧ hdrNat (header 1 []) 6 1 = 1) ∧
    (∀ x ∈ (session .vdm .blocks (header 0 []) 1).sec.session, x.imageIn = true ∧ x.comp < hdrNat (header 1 []) 6 1) ∧
    (∀ x ∈ (session .vdm .header (header 0 []) 0).sec.session, x.stage ≠ .opened ∧ x.imageIn = false ∧ x.stage = .header
      ∧ (List.replicate 32 (0 : Byte)).length = 32 * hdrBlocks x.header ∧ ([] : List Byte).length ≠ 32 * hdrBlocks x.header) ∧
    (∀ x ∈ (session .vdm .blocks (header 0 []) 0).sec.session, x.stage = .blocks ∧ x.blocks < hdrBlocks x.header ∧ x.stage ≠ .header) := by
  decide +kernel

theorem test_witness_digests :
    sha256 (List.replicate 32 0) = hdrListHash (header 0 (sha256 (List.replicate 32 0))) ∧ sha256 (List.replicate 32 0) ≠ hdrListHash (header 0 [])
      ∧ (session .vdm .blocks (header 0 []) 0).sec.session.all (fun x => (session .vdm .blocks (header 0 []) 0).blockCheck x block0 == 6) = true
      ∧ (session .vdm .blocks (header 0 []) 0).sec.session.all (fun x =>
          (session .vdm .blocks (header 0 []) 0).blockCheck { x with list := sha256 block0 } block0 == 0) = true := by decide +kernel

theorem test_witness_signed_header (h : List Byte) (m : Mod) (hs : hdrSigned h = false) : m.hdrCheck h ≠ 0 := by
  unfold Mod.hdrCheck
  simp [hs]

theorem test_witness_session_end :
    (let m := session .vdm .blocks (header 0 []) 1
     m.sec.session.all (fun x => x.imageIn && m.endBad x == 0 && (m.resultSet (m.endNew x)).length == 5 && compatible (m.resultSet (m.endNew x))) = true) ∧
    (let old := { FwImage.factory with compat := [] }
     let m := { session .vdm .blocks (header 0 []) 1 with
       sec := { (session .vdm .blocks (header 0 []) 1).sec with images := [(0, old), (1, { old with version := 1 }), (2, old), (3, old), (4, old)] } }
     m.sec.session.all (fun x => m.endBad x == 0 && (m.resultSet (m.endNew x)).length == 5 && !compatible (m.resultSet (m.endNew x))) = true) ∧
    (session .vdm .opened [] 0).sec.session.all (fun x => !x.imageIn) = true := by decide +kernel

theorem test_witness_UpdateSessions :
    ({ up.sec with window := true, testsOk := true, proofOk := true } : SecUnit).window = true ∧ up.sec.window = false ∧ up.sec.testsOk = false
      ∧ State.reset.m.mgUp = false ∧ up.mgUp = true := by
  decide +kernel

theorem test_witness_UnlockAndPolicy :
    (up.pathUp .vdm Reg.SEC_CMD.base = true ∧ up.mgUp = true ∧ up.tokenCheck [] = 1) ∧
    (∀ n ∈ [1, 2], ({ up.sec with unlock := n, unlockTimed := true } : SecUnit).unlock ≠ 0 ∧ up.sec.unlockTimed = false) ∧
    (303 < 304 ∧ up.pathRefused .vdm = false ∧ (up.fset Fld.SEC_POLICY_SIDEBAND 1).pathRefused .vdm = true ∧ up.plateActive = false
      ∧ (running (plateOf .matmul)).plateActive = true ∧ up.policyCheck (List.replicate 304 0) ≠ 0) := by
  decide +kernel

/-- A debug token of a scope that carries the module's UID and the bytes `nonce`. -/
def token (scope signer : Nat) (nonce : List Byte) : List Byte :=
  leBytes 4 0x44584C53 ++ leBytes 1 scope ++ leBytes 1 signer ++ leBytes 2 0 ++ leBytes 8 Config.uid.toNat ++ nonce ++ leBytes 16 0

theorem test_witness_sound_token (h : uidOk (token 2 0xFF (List.replicate 32 0)) = true)
    (h1 : hssOk true Config.vendorKey ((token 2 0xFF (List.replicate 32 0)).take 64) ((token 2 0xFF (List.replicate 32 0)).drop 64) = true) :
    (up.fset Fld.SEC_STATUS_NONCE_VALID 1).tokenCheck (token 2 0xFF (List.replicate 32 0)) = 0 := by
  have a : hdrNat (token 2 0xFF (List.replicate 32 0)) 4 1 = 2 := by decide +kernel
  have b : hdrNat (token 2 0xFF (List.replicate 32 0)) 5 1 = 0xFF := by decide +kernel
  have c : (token 2 0xFF (List.replicate 32 0)).length = 64 := by decide +kernel
  have d : hdrNat (token 2 0xFF (List.replicate 32 0)) 0 4 = 0x44584C53 := by decide +kernel
  have e : (up.fset Fld.SEC_STATUS_NONCE_VALID 1).nonceOk (token 2 0xFF (List.replicate 32 0)) = true := by decide +kernel
  generalize token 2 0xFF (List.replicate 32 0) = t at *
  simp [Mod.tokenCheck, Mod.signerOk, a, b, c, d, e, h, h1]

theorem test_witness_PowerStates :
    (up.mgUp = true ∧ up.pwr.dip ≠ .asserted ∧ up.pwr.dip ≠ .hold ∧ ({ up.pwr with dip := .asserted } : PwrUnit).dip = .asserted) ∧
    (∀ x ∈ [(0, (106 : Int), 105), (51, (96 : Int), 95)], x.1 < 52 ∧ (x.2.2 : Int) < x.2.1) ∧
    ((up.fget Fld.PWR_THERM_THRESH_LOGIC_C : Int) < 106 ∧ (up.fget Fld.PWR_THERM_THRESH_HBM_C : Int) < 96 ∧ 0 ∉ up.pwr.critical) ∧
    (∀ t ∈ [(106 : Int), 20], let m := { up with pwr := { up.pwr with temps := [(0, t)], episode := true } }
     m.pwr.episode = true ∧ (m.anyThrottle = true ∨ m.anyThrottle = false ∧ m.allCool = true)) ∧
    (let t := (up.fget Fld.PWR_THERM_THRESH_LOGIC_C : Int) - 1
     let m := { up with pwr := { up.pwr with temps := [(0, t)], episode := true } }
     m.anyThrottle = false ∧ m.allCool = false) ∧
    (∀ off ∈ [Reg.PWR_PROFILE.base, Reg.PWR_CAP.base, Reg.PWR_DEFAULT.base, Reg.PWR_STATE_REQ.base], up.pathUp .bar0 off = true
      ∧ up.pathUp .sideband off = true) ∧
    (up.pathRefused .bar0 = false ∧ (up.fset Fld.SEC_POLICY_SIDEBAND 1).pathRefused .bar0 = true) ∧
    (∀ w ∈ [0, 900, 4095], w % 4096 = 0 ∨ 900 ≤ w % 4096) ∧ (∀ w ∈ [1, 899], 1 ≤ w % 4096 ∧ w % 4096 ≤ 899) ∧
    (∀ x ∈ [PState.active, .idle, .park, .sleep], ({ up.pwr with state := x } : PwrUnit).state = x) ∧
    (up.pwr.critical = [] ∧ up.dbg.stopped = false ∧ ({ up.pwr with critical := [4] } : PwrUnit).critical ≠ []) ∧
    (let m := { up with pwr := { up.pwr with parkReq := true } }
     (m.running && m.pwr.parkReq && m.atBoundary && !m.stepBusy && !m.anyFlight) = true
       ∧ (up.running && up.pwr.parkReq && up.atBoundary && !up.stepBusy && !up.anyFlight) = false) ∧
    (up.pwr.ready = true ∧ up.host.linkUp = true ∧ up.pwr.perst = false ∧ (running (plateOf .matmul)).stepOpen = true) ∧
    (let m := Mod.fset { running fabricPlate with pwr := { up.pwr with state := .park } } Fld.PWR_CFG_FABRIC_WAKE 1
     (m.mgUp && m.pwr.ready && !m.dbg.stopped && m.pwr.state == .park && m.fget Fld.PWR_CFG_FABRIC_WAKE == 1 && m.activePorts.contains 5) = true) ∧
    (let m := { up with pwr := { up.pwr with state := .active } }
     (m.running && m.pwr.state == .active && !m.stepBusy
       && (!m.plateActive || decide (max 1 (m.fget Fld.PWR_CFG_IDLE_TICKS) ≤ m.pwr.idleCount))) = true) := by decide +kernel

/-! ### Witnesses: debug and check units -/

/-- A module under an OWNER unlock. -/
def unlocked (m : Mod) : Mod := { m with sec := { m.sec with unlock := 1 } }

/-- An unlocked module with DBG_MEM set for space `sp` and address `a`. -/
def memAt (m : Mod) (sp a : Nat) : Mod :=
  ((unlocked m).fset Fld.DBG_MEM_CTRL_SPACE sp).set64 Fld.DBG_MEM_ADDR_LO_ADDR Fld.DBG_MEM_ADDR_HI_ADDR a

theorem test_witness_DebugCommands :
    (up.sec.unlock = 0 ∧ (∀ off ∈ [Reg.DBG_HALT_CTRL.base, Reg.DBG_MEM_CTRL.base, Reg.DBG_FRZ_CTRL.base, Reg.DBG_TRACE_CTRL.base],
      up.answers off = true) ∧ (unlocked up).sec.unlock ≠ 0) ∧
    ((busy .matmul).haltable 0 = true ∧ up.haltable 0 = false ∧ ((busy .matmul).core 0).run.isNone = false ∧ ((busy .matmul).core 1).run.isNone = true
      ∧ (((busy .matmul).setCore 1 { CoreRun.rest with halt := some ⟨true, false, false, 0⟩ }).core 1).halt.isSome = true) ∧
    (∀ x ∈ [(0, hbmSize), (1, stackSize), (2, sramSize), (2, 1)], (memAt up x.1 x.2).memOutside x.1 x.2 = true) ∧
    (∀ x ∈ [(0, 0), (1, stackSize - 64), (3, 0)], (memAt up x.1 x.2).memOutside x.1 x.2 = false ∧ (memAt up x.1 x.2).memAllowed x.1 x.2 = true
      ∧ (memAt up x.1 x.2).fget Fld.DBG_MEM_CTRL_SPACE = x.1 ∧ (memAt up x.1 x.2).dbgAddr = x.2) ∧
    ((memAt up 2 0).memOutside 2 0 = false ∧ (memAt up 2 0).memAllowed 2 0 = false
      ∧ (memAt (up.setCore 0 { CoreRun.rest with halt := some ⟨true, false, false, 0⟩ }) 2 0).memAllowed 2 0 = true) ∧
    (up.dbg.frzPin = false ∧ up.freezable = true ∧ (up.tick.running && up.inGuard) = false
      ∧ (let m := { up with tick := { up.tick with cycle := up.tickLen - 1 } }
         (m.tick.running && m.inGuard) = true) ∧ State.reset.m.freezable = false) ∧
    (let d := { up.dbg with stopped := true }
     d.stopped = true ∧ d.ready = false ∧ d.memread = false ∧ up.dbg.stopped = false
       ∧ ({ up with dbg := d } : Mod).answers Reg.DBG_FRZ_CTRL.base = true) ∧
    (({ up.dbg with traceSt := 1 } : DbgUnit).traceSt = 1 ∧ up.dbg.traceSt ≠ 1) := by decide +kernel

theorem test_witness_TestAccessPort :
    (up.mgUp = true ∧ up.pwr.perst = false ∧ ({ up.pwr with perst := true } : PwrUnit).perst = true) ∧
    (1 < 2 ^ 26 ∧ bar0Aligned 1 = false) ∧
    (let live : Mod := { up with pwr := { up.pwr with perst := false } }
     live.answers Reg.HBM_SCRUB.base = true ∧ up.sec.unlock = 0 ∧ tapOpen Reg.HBM_SCRUB.base = false ∧ bar0Aligned Reg.HBM_SCRUB.base = true
       ∧ (unlocked up).sec.unlock ≠ 0 ∧ Reg.HBM_SCRUB.kind = .plain ∧ up.disabledReg Reg.HBM_SCRUB.base = false) := by decide +kernel

/-- A scan of `n` bytes from address 0. -/
def scanJob (n : Nat) : ChkJob := ⟨0, .scan, false, false, false, false, 0, 0xFFFF, 0xFFFF, 0, n, 0, 0, 0, 0, 0⟩

/-- A plate with a check job for unit 7 that starts with barrier 0. -/
def checkPlate : Plate := { plateOf .matmul with checks := [{ scanJob 16 with unit := 7, start := 0 }] }

theorem test_witness_CheckUnits :
    (up.answers (Reg.CHK_CTRL.addr 0 0) = true ∧ up.answers (Reg.CHK_CTRL.addr 7 0) = true
      ∧ (up.fset Fld.CHK_CFG_MODE 3 0).fget Fld.CHK_CFG_MODE 0 = 3) ∧
    (up.chkRegs 0 = some (scanJob 0) ∧ up.chkRun? 0 = none ∧ up.chkOwned 0 = false ∧ (scanJob 0).aliveBad = false ∧ (scanJob 0).mode ≠ .snoop
      ∧ up.heldPort (scanJob 0).addr (scanJob 0).len = none ∧ ((up.fset Fld.CHK_CFG_MODE 1 0).chkRegs 0).any (fun j => j.mode == .snoop) = true) ∧
    ((running checkPlate).chkOwned 7 = true ∧ ({ scanJob 16 with alive := true } : ChkJob).aliveBad = true) ∧
    (let m := up.fset Fld.CHK_LEN_LO_LEN 64 0
     m.chkRegs 0 = some (scanJob 64) ∧ rdPoison (((m.setChk 0 (ChkRun.fresh (scanJob 64) none)).yard .check 0 64 false).devRead 0 64) = false
       ∧ rdPoison (({ m with mem := { up.mem with hbm := up.mem.hbm.mark 0 } } : Mod).devRead 0 64) = true) ∧
    (∀ n ∈ [1, 2], let m := { running checkPlate with sched := { (running checkPlate).sched with barriers := [(0, n)] } }
     m.running = true ∧ m.plate? = some checkPlate ∧ checkPlate.checks[0]? = some { scanJob 16 with unit := 7, start := 0 }
       ∧ (m.stepBusy && m.barrierDone 0 && !m.chk.started.contains 0) = decide (n = 2) ∧ m.chkRun? 7 = none) ∧
    (let x := { ChkRun.fresh (scanJob 16) none with scanned := true, count := 16 }
     (up.setChk 7 x).chkRun? 7 = some x ∧ x.scanned = true ∧ x.finished = true ∧ ({ x with count := 8 } : ChkRun).finished = false
       ∧ x.plateJob = none ∧ ({ x with plateJob := some 0 } : ChkRun).plateJob ≠ none ∧ x.outcome = 7 ∧ x.bad = none ∧ x.poisoned = false
       ∧ x.abandoned = false ∧ ({ x with bad := some 3 } : ChkRun).outcome = 3 ∧ ({ x with poisoned := true } : ChkRun).outcome = 4) := by
  decide +kernel

/-! ### The checks of WellFormed: each bound and the value past it -/

/-- An element word at the top of its fields. -/
def word0 : ElemWord := ⟨31, 63, 63, 63, false, false, false⟩

theorem test_ill_formed_0 : ([
    .slotOpen 2, .slotProve 2, .slotClear 2, .proofComplete 2 noEcc, .plateActivate 2, .barrierSignal 1024,
    .kernelStart 3072, .kernelComplete 3072, .matmul 3072 noEcc, .conv 3072 noEcc, .attnForward 3072 noEcc, .attnMerge 3072 noEcc,
    .attnBackward 3072 noEcc, .attnKvGrad 3072 noEcc, .element 3072 noEcc, .reduce 3072 noEcc, .scan 3072 noEcc, .gather 3072 noEcc,
    .scatter 3072 noEcc, .transpose 3072 noEcc, .copy 3072 noEcc, .topk 3072 noEcc, .elemEnd (.core 3072) word0, .mov (.core 3072) word0,
    .add (.core 3072) word0, .sub (.core 3072) word0, .mul (.core 3072) word0, .fma (.core 3072) word0, .fms (.core 3072) word0, .div (.core 3072) word0,
    .recip (.core 3072) word0, .sqrt (.core 3072) word0, .rsqrt (.core 3072) word0, .exp2 (.core 3072) word0, .log2 (.core 3072) word0, .tanh (.core 3072) word0,
    .max (.core 3072) word0, .min (.core 3072) word0, .abs (.core 3072) word0, .neg (.core 3072) word0, .sign (.core 3072) word0, .clamp (.core 3072) word0,
    .cmplt (.core 3072) word0, .cmpeq (.core 3072) word0, .sel (.core 3072) word0, .cvt (.core 3072) word0, .srnd (.core 3072) word0, .nacc (.core 3072) word0,
    .kernelHang 3072, .stableReset 3072, .coreBist 3072, .bistComplete 3072 none, .coreClrSat 3072, .stashPlace 1024,
    .kdataWrite 32 0, .groomSliceProcess 12 noEcc, .groomPassComplete 12 noEcc, .grmClrSat 12, .hbmStackDown 12 false, .loftLinkDown 4 []] : List Instr).all (fun i => !i.wfb) = true := by decide +kernel

theorem test_ill_formed_1 : ([
    .loftLinkReturn 4, .loftLinkLost 4, .loftRetrain 4 0 0, .loftPoison 4 0 false, .loftViral 4, .loftDevEvent 4 0 0,
    .streamTileStart 1024 noEcc, .streamTileDelivered 1024 noEcc, .etchBlockExpand 64 noEcc, .decodeTableSwitch 64, .stmClrSat 64, .probeTimer 64,
    .signalDetected 64, .trainingEnd 64 0 0 0, .flitReceived 64 (flitIn 1), .linkRetryTimeout 64, .creditWaitLong 64 2 1 0, .creditWaitLong 63 3 1 0,
    .creditWaitLong 63 2 2 0, .controlFlitReceived 64 (ctl 4 1 3), .markReceived 64 0 0 0 0, .echoReceived 64 0 0, .laneFailure 64 255 .signal, .laneFailure 63 0 .signal,
    .laneFailure 63 256 .signal, .retrainComplete 64 0, .retrainTimeout 64, .portLinkLoss 64 0, .portReset 64, .testStart 64,
    .testStop 64, .e2eAckDue 0 3, .e2eTimeout 0 3, .colClrSat 8, .bar2Resize 29, .bar2Resize 40,
    .coalesceExpiry 4, .supplyWarnAssert 48500, .supplyResetAssert 44000, .tempSample 52 0, .thermtrip 52 0, .fabricWake 64,
    .dbgHalt 4 4095, .dbgHalt 3 4096, .dbgResume 4 4095, .dbgResume 3 4096, .dbgStep 4 4095, .dbgStep 3 4096,
    .chkStart 8 noEcc, .chkAbort 8, .chkJobComplete 8, .flitSlot 64 0 0, .expanderHotAdd 4 0 0 0 false, .i3cAddressAssign 128] : List Instr).all (fun i => !i.wfb) = true := by decide +kernel

theorem test_well_formed_0 : ([
    .slotOpen 1, .slotProve 1, .slotClear 1, .proofComplete 1 noEcc, .plateActivate 1, .barrierSignal 1023,
    .kernelStart 3071, .kernelComplete 3071, .matmul 3071 noEcc, .conv 3071 noEcc, .attnForward 3071 noEcc, .attnMerge 3071 noEcc,
    .attnBackward 3071 noEcc, .attnKvGrad 3071 noEcc, .element 3071 noEcc, .reduce 3071 noEcc, .scan 3071 noEcc, .gather 3071 noEcc,
    .scatter 3071 noEcc, .transpose 3071 noEcc, .copy 3071 noEcc, .topk 3071 noEcc, .elemEnd (.core 3071) word0, .mov (.core 3071) word0,
    .add (.core 3071) word0, .sub (.core 3071) word0, .mul (.core 3071) word0, .fma (.core 3071) word0, .fms (.core 3071) word0, .div (.core 3071) word0,
    .recip (.core 3071) word0, .sqrt (.core 3071) word0, .rsqrt (.core 3071) word0, .exp2 (.core 3071) word0, .log2 (.core 3071) word0, .tanh (.core 3071) word0,
    .max (.core 3071) word0, .min (.core 3071) word0, .abs (.core 3071) word0, .neg (.core 3071) word0, .sign (.core 3071) word0, .clamp (.core 3071) word0,
    .cmplt (.core 3071) word0, .cmpeq (.core 3071) word0, .sel (.core 3071) word0, .cvt (.core 3071) word0, .srnd (.core 3071) word0, .nacc (.core 3071) word0,
    .kernelHang 3071, .stableReset 3071, .coreBist 3071, .bistComplete 3071 none, .coreClrSat 3071, .stashPlace 1023,
    .kdataWrite 31 0, .groomSliceProcess 11 noEcc, .groomPassComplete 11 noEcc, .grmClrSat 11, .hbmStackDown 11 false, .loftLinkDown 3 []] : List Instr).all (fun i => i.wfb) = true := by decide +kernel

theorem test_well_formed_1 : ([
    .loftLinkReturn 3, .loftLinkLost 3, .loftRetrain 3 0 0, .loftPoison 3 0 false, .loftViral 3, .loftDevEvent 3 0 0,
    .streamTileStart 1023 noEcc, .streamTileDelivered 1023 noEcc, .etchBlockExpand 63 noEcc, .decodeTableSwitch 63, .stmClrSat 63, .probeTimer 63,
    .signalDetected 63, .trainingEnd 63 0 0 0, .flitReceived 63 (flitIn 1), .linkRetryTimeout 63, .creditWaitLong 63 2 1 0, .controlFlitReceived 63 (ctl 4 1 3),
    .markReceived 63 0 0 0 0, .echoReceived 63 0 0, .laneFailure 63 255 .signal, .retrainComplete 63 0, .retrainTimeout 63, .portLinkLoss 63 0,
    .portReset 63, .testStart 63, .testStop 63, .e2eAckDue 0 2, .e2eTimeout 0 2, .colClrSat 7,
    .bar2Resize 39, .coalesceExpiry 3, .supplyWarnAssert 48499, .supplyResetAssert 43999, .tempSample 51 0, .thermtrip 51 0,
    .fabricWake 63, .dbgHalt 3 4095, .dbgResume 3 4095, .dbgStep 3 4095, .chkStart 7 noEcc, .chkAbort 7,
    .chkJobComplete 7, .flitSlot 63 0 0, .expanderHotAdd 3 0 0 0 false, .i3cAddressAssign 127] : List Instr).all (fun i => i.wfb) = true := by decide +kernel

theorem test_ill_formed_words :
    ([.mov (.groom 12) word0, .mov (.core 0) { word0 with dst := 32 }, .add (.core 0) { word0 with a := 64 },
      .fma (.core 0) { word0 with b := 64 }, .sel (.core 0) { word0 with c := 64 }] : List Instr).all (fun i => !i.wfb) = true := by decide +kernel

theorem test_no_word_spells_a_command : decodeTableWord 32 0 = none ∧ (st up).withFetchWord 32 0 = st up := by decide +kernel


/-! ### Expected results from the spec -/

/-- A number under a power of two: m × 2^e. -/
def num (neg : Bool) (m : Nat) (e : Int) : Val := .fin neg m e

/-- The code and the flags (OVF, UNF, INX, INV, clamps) that a conversion gives. -/
def conv (f : Fmt) (mode : OvfMode) (ftz : Bool) (v : Val) : Nat × Bool × Bool × Bool × Bool × Nat :=
  let r := f.round mode ftz .nearest v
  (r.code, r.fl.ovf, r.fl.unf, r.fl.inx, r.fl.inv, r.fl.sat)

/-- Source: 04_number_formats.md Table 04-7, the rows of E4M3, E5M2 and FP16. -/
theorem test_conversions_small :
    [conv .e4m3 .sat false (num true 11 (-2)),
      conv .e5m2 .sat false (num true 11 (-2)),
      conv .e4m3 .ieee false (num false 300 0),
      conv .e4m3 .ieee false (num false 460 0),
      conv .e4m3 .ieee false (num false 464 0),
      conv .e4m3 .sat false (num false 470 0),
      conv .e4m3 .ieee false (num false 470 0),
      conv .e5m2 .sat false (num false 61440 0),
      conv .e5m2 .ieee false (num false 61440 0),
      conv .fp16 .ieee false (num false 65519 0),
      conv .fp16 .ieee false (num false 65520 0)] =
      [(0xC3, false, false, false, false, 0),
      (0xC2, false, false, true, false, 0),
      (0x79, false, false, true, false, 0),
      (0x7E, false, false, true, false, 0),
      (0x7E, false, false, true, false, 0),
      (0x7E, false, false, true, false, 1),
      (0x7F, true, false, true, false, 0),
      (0x7B, false, false, true, false, 1),
      (0x7C, true, false, true, false, 0),
      (0x7BFF, false, false, true, false, 0),
      (0x7C00, true, false, true, false, 0)] := by decide +kernel

/-- Source: 04_number_formats.md Table 04-7, the rows of 1.0, FP4, 0.001 (taken as 2147484 × 2^-31) and INT8. -/
theorem test_conversions_other :
    [conv .bf16 .ieee false Val.one,
      conv .fp4 .sat false (num false 7 0),
      conv .fp4 .ieee false (num false 7 0),
      conv .e4m3 .sat false (num false 2147484 (-31)),
      conv .e4m3 .sat true (num false 2147484 (-31)),
      conv .int8 .sat false (num true 7 (-1)),
      conv .int8 .sat false (num false 200 0),
      conv .int8 .sat false .nan] =
      [(0x3F80, false, false, false, false, 0),
      (0x7, false, false, true, false, 1),
      (0x7, true, false, true, false, 0),
      (0x01, false, true, true, false, 0),
      (0x00, false, false, true, false, 0),
      (0xFC, false, false, true, false, 0),
      (0x7F, false, false, true, false, 1),
      (0x00, false, false, false, true, 0)] := by decide +kernel

/-- Source: 04_number_formats.md, the example of R121: one rounding from the 48-bit master, not two. -/
theorem test_master_rounds_once :
    (Fmt.round .e4m3 .sat false .nearest (Fmt.decode .tail48 0x3F8800000010)).code = 0x39
      ∧ (Fmt.round .e4m3 .sat false .nearest (fp32 0x3F880000)).code = 0x38 := by decide +kernel

/-- Source: 04_number_formats.md R123: the exact value is never moved, and the largest finite holds whatever is drawn. -/
theorem test_stochastic_edges :
    (Fmt.round .e4m3 .sat false (.srnd 0xFFFFFFFF) (num true 11 (-2))).code = 0xC3
      ∧ (Fmt.round .e4m3 .sat false (.srnd 0xFFFFFFFF) (num false 460 0)).code = 0x7E
      ∧ (Fmt.round .e4m3 .sat false (.srnd 0xFFFFFFFF) (num false 460 0)).fl = { inx := true }
      ∧ (Fmt.round .int8 .sat false (.srnd 0) (num false 7 (-1))).code = 3
      ∧ (Fmt.round .int8 .sat false (.srnd 0x80000000) (num false 7 (-1))).code = 4 := by decide +kernel

/-- Source: 15_check_units.md Table 15-1, the check values of the string 123456789. -/
theorem test_crc_check_values :
    let s : List Byte := [0x31, 0x32, 0x33, 0x34, 0x35, 0x36, 0x37, 0x38, 0x39]
    crc32c s = 0xE3069283 ∧ crc64 s = 0x995DC9BBDF1939FA := by decide +kernel

/-- Source: the published SHA-256 value of the string abc, which 02_plate_and_tick.md names as the plate hash's function. -/
theorem test_sha256_abc :
    sha256 [0x61, 0x62, 0x63] =
      [0xBA, 0x78, 0x16, 0xBF, 0x8F, 0x01, 0xCF, 0xEA, 0x41, 0x41, 0x40, 0xDE, 0x5D, 0xAE, 0x22, 0x23,
       0xB0, 0x03, 0x61, 0xA3, 0x96, 0x17, 0x7A, 0x9C, 0xB4, 0x10, 0xFF, 0x61, 0xF2, 0x00, 0x15, 0xAD] := by decide +kernel

/-- Source: the published AES-256 example (key 00 to 1F, block 00 11 22 … FF), whose cipher 11_streams.md R298 names. -/
theorem test_aes256_block :
    aes256 ((List.range 32).map (fun i => BitVec.ofNat 8 i)) ((List.range 16).map (fun i => BitVec.ofNat 8 (17 * i))) =
      [0x8E, 0xA2, 0xB7, 0xCA, 0x51, 0x67, 0x45, 0xBF, 0xEA, 0xFC, 0x49, 0x90, 0x4B, 0x49, 0x60, 0x89] := by decide +kernel

/-- Source: 07_groom_units.md Table 07-11 rows 0, 4, 11, 13 and 17; operand codes by Table 07-3. -/
theorem test_element_words :
    (ElemInstr.ofWord 0x10096600).map (fun i => (i.op, i.dst, i.wide, i.nega)) = some (.mul, 0, false, false)
      ∧ (ElemInstr.ofWord 0x1649E408).map (fun i => (i.op, i.dst)) = some (.fma, 18)
      ∧ (ElemInstr.ofWord 0x1A080982).map (fun i => (i.op, i.dst, i.wide, i.ftz)) = some (.fms, 16, true, false)
      ∧ (ElemInstr.ofWord 0x669A6800).map (fun i => (i.op, i.dst)) = some (.nacc, 20)
      ∧ (ElemInstr.ofWord 0).map (fun i => i.op) = some .eEnd := by decide +kernel

/-- Source: the worked example of 05_numeric_watch.md R132: E4M3, margin 1.0, AMAX 13.5. -/
theorem test_scale_rule_example :
    scaleRule .e4m3 0x3F800000 0 0x41580000 = (some 0x4204BDA1, 0)
      ∧ scaleRule .e4m3 0x3F800000 1 0x41580000 = (none, 2)
      ∧ scaleRule .bf16 0x3F800000 0 0x41580000 = (some 0x3F800000, 0) := by decide +kernel

/-- Source: the worked example of 14_host_interface.md R371: a 64 GiB window at 0x80_0000_0000 reaches slot 0 at offset
0xF_E000_0000 and slot 1 at offset 0xF_F000_0000. -/
theorem test_window_reaches_slots :
    slotOf (0x8000000000 + 0xFE0000000) = some 0 ∧ slotOf (0x8000000000 + 0xFEFFFFFFF) = some 0
      ∧ slotOf (0x8000000000 + 0xFF0000000) = some 1 ∧ slotOf (0x8000000000 + 0xFDFFFFFFF) = none := by decide +kernel
end Sys2Proof.Tests
end

section
/-! PROOF. What operations leave of the registers, and writes of locked fields. -/

namespace Sys2Proof.Machine

/-! ### Registers kept -/

/-- Two changes in a row keep the registers that both keep. -/
theorem Mod.regsKeep_trans {offs : List Nat} {l m n : Mod} (h1 : l.regsKeep offs m) (h2 : m.regsKeep offs n) : l.regsKeep offs n :=
  fun r i j h => (h2 r i j h).trans (h1 r i j h)

/-- More registers may be named. -/
theorem Mod.regsKeep_mono {offs offs' : List Nat} {m n : Mod} (h : m.regsKeep offs n) (hs : offs ⊆ offs') : m.regsKeep offs' n :=
  fun r i j ha => h r i j (fun hm => ha (hs hm))

/-- A field of a register that is kept holds its value. -/
theorem Mod.regsKeep_fget {offs : List Nat} {m n : Mod} (h : m.regsKeep offs n) (f : Fld) (i j : Nat) (hf : f.reg.addr i j ∉ offs) :
    n.fget f i j = m.fget f i j := by
  simp [Mod.fget, RegFile.get, h f.reg i j hf]

/-- A change that leaves the register file keeps every register. -/
theorem Mod.regsKeep_of_regs_eq {m n : Mod} (h : n.regs = m.regs) (offs : List Nat) : m.regsKeep offs n := fun _ _ _ _ => by rw [h]

/-- Setting a field keeps every other register. -/
theorem Mod.fset_regsKeep (m : Mod) (f : Fld) (v i j : Nat) : m.regsKeep [f.reg.addr i j] (m.fset f v i j) :=
  fun _ _ _ h => RegFile.read_write_other _ _ _ _ _ _ _ _ (fun e => h (List.mem_singleton.mpr e))

/-! ### One part replaced -/

/-- A new register file changes the registers only. -/
theorem Mod.sameBut_regs (m : Mod) (rf : RegFile) : Mod.sameBut [.regs] m { m with regs := rf } := by
  constructor <;> intro hp
  case regs => exact (hp (by decide)).elim
  all_goals rfl

/-- A new host port changes the host port only. -/
theorem Mod.sameBut_host (m : Mod) (x : HostUnit) : Mod.sameBut [.host] m { m with host := x } := by
  constructor <;> intro hp
  case host => exact (hp (by decide)).elim
  all_goals rfl

/-- A new tick master changes the tick master only. -/
theorem Mod.sameBut_tick (m : Mod) (x : TickUnit) : Mod.sameBut [.tick] m { m with tick := x } := by
  constructor <;> intro hp
  case tick => exact (hp (by decide)).elim
  all_goals rfl

/-! ### Writes of locked fields (R13) -/

/-- No field is locked while no plate is active. -/
theorem Mod.lockedWrite_of_inactive {m : Mod} (h : m.plateActive = false) (r : RegSpec) (off v : Nat) : m.lockedWrite r off v = m := by
  simp [Mod.lockedWrite, h]

/-- While a plate is active a write that meets a locked field is reported. -/
theorem Mod.lockedWrite_reports {m : Mod} (h : m.plateActive = true) {r : RegSpec} (hr : r.has .rwl = true) (off v : Nat) :
    (m.lockedWrite r off v).reports .corrected 0x0101 0 off v 0 := by
  simp [Mod.lockedWrite, h, hr, Mod.reports, Mod.raise, mem_evInsert, lo32]

/-- A write of a register without pending fields: its word takes the value by the access codes, beside the report of a locked one. -/
theorem Mod.wordWrite_eq (m : Mod) {r : RegSpec} (hr : r.has .rwp = false) (i j v : Nat) :
    m.wordWrite r i j v = { m.lockedWrite r (r.addr i j) v with
      regs := m.regs.write r i j (r.apply m.plateActive (m.regs.read r i j) v) } := by
  have frame := m.lockedWrite_sameBut r (r.addr i j) v
  have hregs := frame.regs (by decide)
  have hplt := frame.plt (by decide)
  simp [Mod.wordWrite, hr, hregs, Mod.plateActive, hplt]

/-- A write of a register keeps every other register. -/
theorem Mod.wordWrite_regsKeep (m : Mod) {r : RegSpec} (hr : r.has .rwp = false) (i j v : Nat) :
    m.regsKeep [r.addr i j] (m.wordWrite r i j v) := by
  intro q a b h
  rw [m.wordWrite_eq hr]
  exact RegFile.read_write_other _ _ _ _ _ _ _ _ (fun e => h (List.mem_singleton.mpr e))

/-- A field of a register just written. -/
theorem Mod.wordWrite_fget (m : Mod) (f : Fld) (hr : f.reg.has .rwp = false) (i j v : Nat) :
    (m.wordWrite f.reg i j v).fget f i j = bitsOf (f.reg.apply m.plateActive (m.regs.read f.reg i j) v) f.hi f.lo := by
  rw [m.wordWrite_eq hr]
  simp [Mod.fget, RegFile.get]

/-- While no plate is active a write of a register without pending fields changes that register only. -/
theorem State.wordWrite_setsOnly (s : State) (h : s.m.plateActive = false) {r : RegSpec} (hr : r.has .rwp = false) (i j v : Nat) :
    State.setsOnly [r.addr i j] s { s with m := s.m.wordWrite r i j v } := by
  refine ⟨⟨rfl, rfl, ?_⟩, s.m.wordWrite_regsKeep hr i j v⟩
  rw [s.m.wordWrite_eq hr, Mod.lockedWrite_of_inactive h]
  exact Mod.sameBut_regs _ _

end Sys2Proof.Machine
end

section
/-! PROOF. The tick period (02_plate_and_tick.md R56): a value written waits in `periodNext`, and the boundary takes it. -/

namespace Sys2Proof.Machine

/-! ### Writes of TCK_PERIOD -/

/-- A write under an active plate leaves all but the records raised. -/
theorem Mod.periodWrite_of_active {m : Mod} (h : m.plateActive = true) (v : Nat) : Mod.sameBut [.evIn] m (m.periodWrite v) := by
  rw [show m.periodWrite v = m.lockedWrite Reg.TCK_PERIOD Reg.TCK_PERIOD.base v by simp [Mod.periodWrite, h]]
  exact m.lockedWrite_sameBut _ _ _

/-- A valid value waits for the next boundary. -/
theorem Mod.periodWrite_valid {m : Mod} {v : Nat} (h : m.plateActive = false) (h2 : 2 ≤ v % 128) (h64 : v % 128 ≤ 64) :
    m.periodWrite v = { m with tick := { m.tick with periodNext := some (v % 128) } } := by
  simp [Mod.periodWrite, h, h2, h64]

/-- Any other value sets BAD_PERIOD. -/
theorem Mod.periodWrite_invalid {m : Mod} {v : Nat} (h : m.plateActive = false) (hv : v % 128 < 2 ∨ 64 < v % 128) :
    m.periodWrite v = m.fset Fld.TCK_ERR_BAD_PERIOD 1 := by
  have hbad : ¬(2 ≤ v % 128 ∧ v % 128 ≤ 64) := by omega
  simp [Mod.periodWrite, h, hbad]

/-! ### The boundary leaves no period waiting -/

/-- The count of a boundary takes the period off. -/
theorem Mod.tickCount_periodNext (m : Mod) : m.tickCount.tick.periodNext = none := by
  unfold Mod.tickCount
  dsimp only
  split <;> rfl

/-- A measurement of the upstream port puts no period in wait. -/
theorem Mod.upstreamOffset_periodNext (m : Mod) (p : Nat) (off : Int) : (m.upstreamOffset p off).tick.periodNext = m.tick.periodNext := by
  unfold Mod.upstreamOffset
  dsimp only
  split
  · split <;> rfl
  · split <;> rfl

/-- Nor does the move to an upstream port. -/
theorem Mod.moveUpstream_periodNext (m : Mod) (p : Nat) : (m.moveUpstream p).tick.periodNext = m.tick.periodNext := by
  unfold Mod.moveUpstream
  dsimp only
  split
  · exact Mod.upstreamOffset_periodNext _ _ _
  · rfl

/-- Nor does taking back an upstream port. -/
theorem Mod.takeBack_periodNext (m : Mod) : m.takeBack.tick.periodNext = m.tick.periodNext := by
  unfold Mod.takeBack
  split
  · split
    · exact Mod.moveUpstream_periodNext _ _
    · rfl
  · rfl

/-- Nor does following a first upstream port. -/
theorem Mod.followUp_periodNext (m : Mod) : m.followUp.tick.periodNext = m.tick.periodNext := by
  unfold Mod.followUp
  split
  · split
    · exact Mod.moveUpstream_periodNext _ _
    · rfl
  · rfl

/-- The units and the ports leave the tick master at a boundary. -/
theorem Mod.boundaryUnits_tick (m : Mod) (run : Bool) : (if run then m.unitBoundary else m).portBoundary.tick = m.tick := by
  rw [(Mod.portBoundary_sameBut _).tick (by decide)]
  split
  · exact m.unitBoundary_sameBut.tick (by decide)
  · rfl

/-- After a boundary no period waits. -/
theorem Mod.boundary_periodNext (m : Mod) (energy : Nat) : (m.boundary energy).tick.periodNext = none := by
  have hstart : m.tickCount.perTick.freezeWaiting.tick = m.tickCount.tick :=
    ((Mod.freezeWaiting_sameBut _).tick (by decide)).trans ((Mod.perTick_sameBut _).tick (by decide))
  unfold Mod.boundary
  dsimp only
  rw [(Mod.governBoundary_sameBut _ _).tick (by decide), (Mod.takePeriod_sameBut _ _).tick (by decide)]
  dsimp only
  rw [Mod.followUp_periodNext, Mod.takeBack_periodNext]
  exact (congrArg TickUnit.periodNext ((Mod.boundaryUnits_tick _ _).trans hstart)).trans m.tickCount_periodNext

/-! ### What the governor and the sample of the input set -/

/-- The two duties lie in PWR_DUTY. -/
theorem Mod.setDuties_regsKeep (m : Mod) (d : Nat × Nat) : m.regsKeep [Reg.PWR_DUTY.base] (m.setDuties d) :=
  Mod.regsKeep_trans (Mod.fset_regsKeep m Fld.PWR_DUTY_DM d.1 0 0) (Mod.fset_regsKeep _ Fld.PWR_DUTY_DH d.2 0 0)

/-- The control law sets the duties only. -/
theorem Mod.govern_regsKeep (m : Mod) (energy : Nat) : m.regsKeep [Reg.PWR_DUTY.base] (m.govern energy) := by
  unfold Mod.govern
  dsimp only
  split
  · exact Mod.setDuties_regsKeep { m with pwr := { m.pwr with lowTicks := 0 } } _
  · split
    · split
      · exact Mod.setDuties_regsKeep { m with pwr := { m.pwr with lowTicks := 0 } } _
      · exact Mod.regsKeep_of_regs_eq rfl _
    · exact Mod.regsKeep_of_regs_eq rfl _

/-- The rise after a dip sets no register. -/
theorem Mod.rampStep_regs (m : Mod) : m.rampStep.regs = m.regs := by
  unfold Mod.rampStep
  split <;> rfl

/-- PWR_BUDGET alone shows the budget. -/
theorem Mod.setBudget_regsKeep (m : Mod) : m.regsKeep [Reg.PWR_BUDGET.base] m.setBudget := Mod.fset_regsKeep m Fld.PWR_BUDGET_UJ _ 0 0

/-- The registers the governor sets at a boundary. -/
theorem Mod.governBoundary_regsKeep (m : Mod) (energy : Nat) :
    m.regsKeep [Reg.PWR_DUTY.base, Reg.PWR_ENERGY.base, Reg.PWR_BUDGET.base] (m.governBoundary energy) := by
  have hramp := Mod.regsKeep_trans (m.govern_regsKeep energy) (Mod.regsKeep_of_regs_eq (m.govern energy).rampStep_regs _)
  have henergy := (m.govern energy).rampStep.fset_regsKeep Fld.PWR_ENERGY_UJ (min energy 0xFFFFFF) 0 0
  exact Mod.regsKeep_trans (Mod.regsKeep_trans (Mod.regsKeep_mono hramp (by decide)) (Mod.regsKeep_mono henergy (by decide)))
    (Mod.regsKeep_mono (Mod.setBudget_regsKeep _) (by decide))

/-- The sample of the input is one register. -/
theorem Mod.inputSample_regsKeep (m : Mod) (mv ma : Nat) : m.regsKeep [Reg.PWR_INPUT.base] (m.inputSample mv ma) :=
  Mod.regsKeep_trans (Mod.fset_regsKeep m Fld.PWR_INPUT_MV _ 0 0) (Mod.fset_regsKeep _ Fld.PWR_INPUT_CURRENT _ 0 0)

/-- A verdict's vector leaves all but the host port. -/
theorem State.verdictSend_sameBut (s : State) : State.sameBut [.host] s s.verdictSend := by
  unfold State.verdictSend
  split
  · exact State.on_sameBut s (Mod.sameBut_trans (Mod.sameBut_host _ _) (Mod.msix_sameBut _ _))
  · exact State.sameBut_refl _ _

/-! ### The period taken -/

/-- The boundary puts the period that waits into effect. -/
theorem Mod.boundary_period {m : Mod} {p : Nat} (energy : Nat) (hp : m.tick.periodNext = some p) (h : p < 128) :
    (m.boundary energy).fget Fld.TCK_PERIOD_PERIOD_US = p := by
  unfold Mod.boundary
  dsimp only
  rw [Mod.regsKeep_fget (Mod.governBoundary_regsKeep _ energy) Fld.TCK_PERIOD_PERIOD_US 0 0 (by decide), hp, Mod.takePeriod,
    Mod.fget_fset_same _ _ _ _ _ (by decide)]
  exact Nat.mod_eq_of_lt h

/-- TICK_BOUNDARY while the tick runs: what its register fields and its tick master hold after it comes from the boundary alone. -/
theorem execTickBoundary_running {s : State} (h : s.m.tick.running = true) (mv ma energy : Nat) :
    ∃ t, exec (.tickBoundary ⟨mv, ma⟩ energy) s = .next t ∧ t.m.tick = (s.m.boundary energy).tick
      ∧ t.m.fget Fld.TCK_PERIOD_PERIOD_US = (s.m.boundary energy).fget Fld.TCK_PERIOD_PERIOD_US := by
  have hsend := (State.verdictSend_sameBut
    { s with evq := { s.evq with accepted := 0 }, m := (s.m.boundary energy).inputSample mv ma }).m
  refine ⟨_, by simp [exec, execTickBoundary, h]; rfl, ?_, ?_⟩
  · exact (hsend.tick (by decide)).trans ((Mod.inputSample_sameBut _ _ _).tick (by decide))
  · exact (Mod.regsKeep_fget (Mod.regsKeep_of_regs_eq (hsend.regs (by decide)) []) _ 0 0 (by simp)).trans
      (Mod.regsKeep_fget (Mod.inputSample_regsKeep _ mv ma) _ 0 0 (by decide))

end Sys2Proof.Machine
end

section
/-! PROOF. The loft mode register (10_memory_tiers.md R263): which writes are discarded, and what the others leave. -/

namespace Sys2Proof.Machine

/-- The ports that SET of a written word names. -/
def loftPorts (v : Nat) : List Nat := (List.range 4).filter (fun c => (v / 16).testBit c)

/-- MODE 1 with a SET that names neither two nor four ports, or a port disabled on the part. -/
def loftSetBad (variant : Bool) (v : Nat) : Prop :=
  v % 2 = 1 ∧ ((loftPorts v).length ≠ 2 ∧ (loftPorts v).length ≠ 4 ∨ variant = true ∧ (2 ∈ loftPorts v ∨ 3 ∈ loftPorts v))

/-- SET of the word written. -/
theorem bitsOf_lo32_set (v : Nat) : bitsOf (lo32 v) 7 4 = v / 16 % 16 := by
  simp only [bitsOf, lo32]
  omega

/-- SET's bits name the ports. -/
theorem loftPorts_eq (v : Nat) : (List.range 4).filter (fun c => (v / 16 % 16).testBit c) = loftPorts v := by
  refine List.filter_congr (fun c hc => ?_)
  have h4 : c < 4 := List.mem_range.mp hc
  simpa [h4] using Nat.testBit_mod_two_pow (v / 16) 4 c

/-- SET names port 2 or 3 where its value is 4 or more. -/
theorem four_le_set_iff (v : Nat) : 4 ≤ v / 16 % 16 ↔ 2 ∈ loftPorts v ∨ 3 ∈ loftPorts v := by
  have hset : ∀ n < 16, 4 ≤ n ↔ n.testBit 2 = true ∨ n.testBit 3 = true := by decide
  rw [← loftPorts_eq, hset _ (Nat.mod_lt _ (by decide))]
  simp

/-- A write of LFT_CFG is discarded where no plate is active and its SET is bad, and is a write by the access codes elsewhere. -/
theorem Mod.loftCfg_cases (m : Mod) (v : Nat) :
    (m.plateActive = false ∧ loftSetBad m.variant v ∧ m.loftCfg (lo32 v) = m) ∨
      ((m.plateActive = true ∨ ¬loftSetBad m.variant v) ∧ m.loftCfg (lo32 v) = m.wordWrite Reg.LFT_CFG 0 0 (lo32 v)) := by
  have hmode : lo32 v % 2 = v % 2 := by simp only [lo32]; omega
  have hbad : (lo32 v % 2 == 1 && (((loftPorts v).length != 2 && (loftPorts v).length != 4) || (m.variant && decide (4 ≤ v / 16 % 16))))
      = true ↔ loftSetBad m.variant v := by
    simp [loftSetBad, hmode, four_le_set_iff]
  unfold Mod.loftCfg
  simp only [bitsOf_lo32_set, loftPorts_eq]
  by_cases ha : m.plateActive = true
  · exact .inr ⟨.inl ha, by simp [ha]⟩
  · by_cases hb : loftSetBad m.variant v
    · exact .inl ⟨by simpa using ha, hb, by rw [hbad.mpr hb]; simp [ha]⟩
    · exact .inr ⟨.inr hb, by rw [Bool.eq_false_iff.mpr (fun e => hb (hbad.mp e))]; simp⟩

/-- MODE after a write while no plate is active. -/
theorem lftCfg_apply_mode (old v : Nat) : bitsOf (Reg.LFT_CFG.apply false old (lo32 v)) 0 0 = v % 2 := by
  change bitsOf (setBits _ 0 0 (bitsOf (lo32 v) 0 0)) 0 0 = v % 2
  rw [bitsOf_setBits_same _ _ (by decide)]
  simp only [bitsOf, lo32]
  omega

/-- SET after a write while no plate is active. -/
theorem lftCfg_apply_set (old v : Nat) : bitsOf (Reg.LFT_CFG.apply false old (lo32 v)) 7 4 = v / 16 % 16 := by
  change bitsOf (setBits (setBits old 7 4 (bitsOf (lo32 v) 7 4)) 0 0 _) 7 4 = v / 16 % 16
  rw [bitsOf_setBits_other _ _ (by decide) (by decide), bitsOf_setBits_same _ _ (by decide), bitsOf_lo32_set]
  omega

/-- LFT_CFG holds locked fields only: under an active plate its word stands. -/
theorem lftCfg_apply_locked (old v : Nat) : Reg.LFT_CFG.apply true old v = old := rfl

end Sys2Proof.Machine
end

section
/-! PROOF. The tick period and the loft mode register, assembled. -/

namespace Sys2Proof.Machine

/-- A write of TCK_PERIOD where its block answers. -/
theorem execTckPeriodWrite_answers {s : State} (h : s.m.answers Reg.TCK_PERIOD.base = true) (v : Nat) :
    exec (.tckPeriodWrite v) s = .next { s with m := s.m.periodWrite v } :=
  congrArg Host.Outcome.next (State.reg_answers _ h)

/-- A write of TCK_PERIOD under an active plate leaves all but the records raised, whether its block answers or not. -/
theorem execTckPeriodWrite_of_active {s : State} (h : s.m.plateActive = true) (v : Nat) :
    ∃ t, exec (.tckPeriodWrite v) s = .next t ∧ State.sameBut [.evIn] s t :=
  ⟨_, rfl, State.reg_sameBut s _ (Mod.periodWrite_of_active h v)⟩

/-- A write of LFT_CFG where its block answers. -/
theorem execLftCfgWrite_answers {s : State} (h : s.m.answers Reg.LFT_CFG.base = true) (v : Nat) :
    exec (.lftCfgWrite v) s = .next { s with m := s.m.loftCfg (lo32 v) } :=
  congrArg Host.Outcome.next (State.reg_answers _ h)

/-- A write of TCK_PERIOD that is not locked: a valid value waits, any other sets BAD_PERIOD alone (R56). -/
theorem tckPeriodWrite_unlocked {s : State} (h : s.m.answers Reg.TCK_PERIOD.base = true) (ha : s.m.plateActive = false) (v : Nat) :
    (2 ≤ v % 128 → v % 128 ≤ 64 → ∃ t, exec (.tckPeriodWrite v) s = .next t ∧ State.sameBut [.tick] s t
      ∧ t.m.tick = { s.m.tick with periodNext := some (v % 128) }) ∧
    (v % 128 < 2 ∨ 64 < v % 128 → ∃ t, exec (.tckPeriodWrite v) s = .next t ∧ t.m.fget Fld.TCK_ERR_BAD_PERIOD = 1
      ∧ State.setsOnly [Reg.TCK_ERR.base] s t) := by
  rw [execTckPeriodWrite_answers h]
  constructor
  · intro h2 h64
    refine ⟨_, rfl, ?_⟩
    rw [Mod.periodWrite_valid ha h2 h64]
    exact ⟨⟨rfl, rfl, Mod.sameBut_tick _ _⟩, rfl⟩
  · intro hv
    refine ⟨_, rfl, ?_⟩
    rw [Mod.periodWrite_invalid ha hv]
    exact ⟨Mod.fget_fset_same _ _ _ _ _ (by decide), ⟨rfl, rfl, Mod.fset_sameBut _ _ _ _ _⟩, Mod.fset_regsKeep s.m Fld.TCK_ERR_BAD_PERIOD 1 0 0⟩

/-- The boundary after a valid write: the period is in effect and none waits (R56). -/
theorem tickBoundary_takes_period {s : State} {p : Nat} (hrun : s.m.tick.running = true) (hp : s.m.tick.periodNext = some p) (h64 : p ≤ 64)
    (energy mv ma : Nat) :
    ∃ t, exec (.tickBoundary ⟨mv, ma⟩ energy) s = .next t ∧ t.m.fget Fld.TCK_PERIOD_PERIOD_US = p ∧ t.m.tick.periodNext = none := by
  obtain ⟨t, hexec, htick, hperiod⟩ := execTickBoundary_running hrun mv ma energy
  exact ⟨t, hexec, hperiod.trans (Mod.boundary_period energy hp (by omega)), by rw [htick, Mod.boundary_periodNext]⟩

/-- A write of LFT_CFG that is taken while no plate is active (R263). -/
theorem lftCfg_taken {s : State} (ha : s.m.plateActive = false) (v : Nat) :
    (s.m.wordWrite Reg.LFT_CFG 0 0 (lo32 v)).fget Fld.LFT_CFG_MODE = v % 2
      ∧ (s.m.wordWrite Reg.LFT_CFG 0 0 (lo32 v)).fget Fld.LFT_CFG_SET = v / 16 % 16
      ∧ State.setsOnly [Reg.LFT_CFG.base] s { s with m := s.m.wordWrite Reg.LFT_CFG 0 0 (lo32 v) } := by
  have hmode := s.m.wordWrite_fget Fld.LFT_CFG_MODE (by decide) 0 0 (lo32 v)
  have hset := s.m.wordWrite_fget Fld.LFT_CFG_SET (by decide) 0 0 (lo32 v)
  rw [ha] at hmode hset
  exact ⟨hmode.trans (lftCfg_apply_mode _ _), hset.trans (lftCfg_apply_set _ _), s.wordWrite_setsOnly ha (by decide) 0 0 _⟩

/-- A write of LFT_CFG under an active plate: the fields stand and the write is reported (R13, R263). -/
theorem lftCfg_locked {m : Mod} (ha : m.plateActive = true) (v : Nat) :
    (m.wordWrite Reg.LFT_CFG 0 0 (lo32 v)).fget Fld.LFT_CFG_MODE = m.fget Fld.LFT_CFG_MODE
      ∧ (m.wordWrite Reg.LFT_CFG 0 0 (lo32 v)).fget Fld.LFT_CFG_SET = m.fget Fld.LFT_CFG_SET
      ∧ (m.wordWrite Reg.LFT_CFG 0 0 (lo32 v)).reports .corrected 0x0101 0 Reg.LFT_CFG.base v 0 := by
  have hmode := m.wordWrite_fget Fld.LFT_CFG_MODE (by decide) 0 0 (lo32 v)
  have hset := m.wordWrite_fget Fld.LFT_CFG_SET (by decide) 0 0 (lo32 v)
  have hreport := Mod.lockedWrite_reports ha (r := Reg.LFT_CFG) (by decide) (Reg.LFT_CFG.addr 0 0) (lo32 v)
  rw [ha] at hmode hset
  refine ⟨hmode, hset, ?_⟩
  rw [m.wordWrite_eq (by decide)]
  simpa [Mod.reports, lo32, RegSpec.addr] using hreport

/-- Settles O14: the writes of TCK_PERIOD by their cases, the boundary that takes the period, and LFT_CFG by whether its write is
discarded. -/
theorem periodAndLoftConfig : Obligations.PeriodAndLoftConfig := by
  refine ⟨⟨fun s v h ha => (tckPeriodWrite_unlocked h ha v).1, fun s energy mv ma p hrun hp h64 => ?_,
    fun s v h ha => (tckPeriodWrite_unlocked h ha v).2, fun s v ha => ?_⟩, fun s v h => ?_⟩
  · exact tickBoundary_takes_period hrun hp h64 energy mv ma
  · obtain ⟨t, hexec, hframe⟩ := execTckPeriodWrite_of_active ha v
    exact ⟨t, hexec, hframe.m.regs (by decide), hframe.m.tick (by decide)⟩
  · intro ports bad
    rw [execLftCfgWrite_answers h]
    obtain ⟨hinactive, hbad, e⟩ | ⟨hkept, e⟩ := s.m.loftCfg_cases v <;> rw [e]
    · exact ⟨fun _ _ => rfl, fun _ hgood => (hgood hbad).elim, fun ha => by simp [hinactive] at ha⟩
    · exact ⟨fun ha hbad => (hkept.resolve_left (by simp [ha]) hbad).elim, fun ha _ => ⟨_, rfl, lftCfg_taken ha v⟩,
        fun ha => ⟨_, rfl, lftCfg_locked ha v⟩⟩

end Sys2Proof.Machine
end

section
/-! PROOF. The small number formats (04_number_formats.md R103, R104): what a code of a format without infinity reads as, by its sign,
exponent and fraction fields. -/

namespace Sys2Proof.Machine

/-! ### The fields of a code -/

/-- The sign bit of a code. -/
def FloatSpec.signBit (f : FloatSpec) (c : Nat) : Bool := decide (c / 2 ^ (f.ebits + f.frac) % 2 = 1)

/-- The exponent field of a code. -/
def FloatSpec.expField (f : FloatSpec) (c : Nat) : Nat := c / 2 ^ f.frac % 2 ^ f.ebits

/-- The fraction field of a code. -/
def FloatSpec.fracField (f : FloatSpec) (c : Nat) : Nat := c % 2 ^ f.frac

/-- The significand of a finite code, counted in its last place: the leading one is absent at exponent field 0. -/
def FloatSpec.significand (f : FloatSpec) (c : Nat) : Nat :=
  if f.expField c = 0 then f.fracField c else 2 ^ f.frac + f.fracField c

/-- The exponent of the last place of a finite code: exponent fields 0 and 1 share theirs. -/
def FloatSpec.lastPlace (f : FloatSpec) (c : Nat) : Int := (max (f.expField c) 1 : Nat) - (f.bias : Int) - f.frac

/-- The exponent and fraction fields are all ones: the place of NaN in a format that has NaN and no infinity. -/
def FloatSpec.allOnes (f : FloatSpec) (c : Nat) : Prop := f.expField c = 2 ^ f.ebits - 1 ∧ f.fracField c = 2 ^ f.frac - 1

theorem FloatSpec.expField_mod (f : FloatSpec) (c : Nat) : f.expField (c % 2 ^ (f.ebits + f.frac)) = f.expField c := by
  rw [expField, Nat.add_comm, Nat.pow_add, Nat.mod_mul_right_div_self, Nat.mod_mod, expField]

theorem FloatSpec.fracField_mod (f : FloatSpec) (c : Nat) : f.fracField (c % 2 ^ (f.ebits + f.frac)) = f.fracField c :=
  Nat.mod_mod_of_dvd _ (Nat.pow_dvd_pow _ (Nat.le_add_left _ _))

/-- The significand is largest with the leading one present. -/
theorem FloatSpec.significand_le (f : FloatSpec) (c : Nat) : f.significand c ≤ 2 ^ f.frac + f.fracField c := by
  unfold significand
  split
  · exact Nat.le_add_left _ _
  · exact le_rfl

/-! ### What a code reads as -/

/-- The reading of a code, in terms of its fields. -/
theorem FloatSpec.decode_eq (f : FloatSpec) (c : Nat) :
    f.decode c =
      if f.hasInf && f.expField c == 2 ^ f.ebits - 1 then (if f.fracField c = 0 then .inf (f.signBit c) else .nan)
      else if f.hasNan && !f.hasInf && f.expField c == 2 ^ f.ebits - 1 && f.fracField c == 2 ^ f.frac - 1 then .nan
      else .fin (f.signBit c) (f.significand c) (f.lastPlace c) := by
  have hfin : (if f.expField c = 0 then Val.fin (f.signBit c) (f.fracField c) (1 - (f.bias : Int) - f.frac)
      else .fin (f.signBit c) (2 ^ f.frac + f.fracField c) ((f.expField c : Int) - f.bias - f.frac))
        = .fin (f.signBit c) (f.significand c) (f.lastPlace c) := by
    unfold significand lastPlace
    by_cases hexp : f.expField c = 0
    · simp [hexp]
    · simp [hexp, Nat.max_eq_left (Nat.one_le_iff_ne_zero.mpr hexp)]
  rw [← hfin]
  rfl

/-- The NaN code of a format without infinity (R103). -/
theorem FloatSpec.decode_of_allOnes {f : FloatSpec} (hinf : f.hasInf = false) (hnan : f.hasNan = true) {c : Nat} (h : f.allOnes c) :
    f.decode c = .nan := by
  obtain ⟨hexp, hfrac⟩ := h
  simp [decode_eq, hinf, hnan, hexp, hfrac]

/-- Every other code of a format without infinity is a number, also at the highest exponent field (R103, R104). -/
theorem FloatSpec.decode_of_number {f : FloatSpec} (hinf : f.hasInf = false) {c : Nat} (h : f.hasNan = true → ¬f.allOnes c) :
    f.decode c = .fin (f.signBit c) (f.significand c) (f.lastPlace c) := by
  rw [decode_eq, if_neg (by simp [hinf]), if_neg (by simpa [hinf, allOnes] using h)]

/-! ### Magnitudes compared with a natural number -/

/-- A magnitude of significand at most `b` and last place at most 2^k does not exceed `n` where `b * 2^k` does not. -/
theorem ofNat_not_ltB_fin {n m b k : Nat} {e : Int} (hm : m ≤ b) (he : e ≤ k) (hn : b * 2 ^ k ≤ n) :
    (Val.ofNat n).ltB (.fin false m e) = false := by
  suffices h : m * pow2i (e - min 0 e) ≤ n * pow2i (-min 0 e) by
    simpa [Val.ltB, Val.ofNat, signedAt] using mod_cast h
  obtain hneg | hpos := Int.le_total e 0
  · calc m * pow2i (e - min 0 e)
      _ = m := by simp [pow2i, min_eq_right hneg]
      _ ≤ b * 2 ^ k := hm.trans (Nat.le_mul_of_pos_right _ (by positivity))
      _ ≤ n * pow2i (-min 0 e) := hn.trans (Nat.le_mul_of_pos_right _ (by unfold pow2i; positivity))
  · calc m * pow2i (e - min 0 e)
      _ = m * 2 ^ e.toNat := by simp [pow2i, min_eq_left hpos]
      _ ≤ b * 2 ^ k := Nat.mul_le_mul hm (Nat.pow_le_pow_right (by decide) (by omega))
      _ ≤ n * pow2i (-min 0 e) := hn.trans (Nat.le_mul_of_pos_right _ (by unfold pow2i; positivity))

/-! ### E4M3 (R103) -/

/-- A code of 8 bits is read by the shape of E4M3. -/
theorem Fmt.decode_e4m3 {c : Nat} (hc : c < 256) : Fmt.e4m3.decode c = Fmt.e4m3.spec.decode c :=
  congrArg Fmt.e4m3.spec.decode (Nat.mod_eq_of_lt hc)

theorem e4m3_allOnes_iff {c : Nat} (hc : c < 256) : Fmt.e4m3.spec.allOnes c ↔ c = 0x7F ∨ c = 0xFF := by
  change c / 8 % 16 = 15 ∧ c % 8 = 7 ↔ _
  omega

/-- The significand and last place of a number: at the highest exponent field the highest fraction is left to NaN. -/
theorem e4m3_number_bounds {c : Nat} (h : ¬Fmt.e4m3.spec.allOnes c) :
    (Fmt.e4m3.spec.significand c ≤ 15 ∧ Fmt.e4m3.spec.lastPlace c ≤ (4 : Nat)) ∨
      (Fmt.e4m3.spec.significand c ≤ 14 ∧ Fmt.e4m3.spec.lastPlace c ≤ (5 : Nat)) := by
  have hsig : Fmt.e4m3.spec.significand c ≤ 8 + c % 8 := Fmt.e4m3.spec.significand_le c
  have hplace : Fmt.e4m3.spec.lastPlace c = (max (c / 8 % 16) 1 : Nat) - 7 - 3 := rfl
  have hnumber : ¬(c / 8 % 16 = 15 ∧ c % 8 = 7) := h
  omega

/-- Every code of E4M3 is NaN, at 0x7F and 0xFF, or a number of magnitude at most 448. -/
theorem e4m3_decode_cases {c : Nat} (hc : c < 256) :
    ((c = 0x7F ∨ c = 0xFF) ∧ Fmt.e4m3.decode c = .nan) ∨
      (¬(c = 0x7F ∨ c = 0xFF) ∧ ∃ neg m e, Fmt.e4m3.decode c = .fin neg m e ∧ (Val.ofNat 448).ltB (.fin false m e) = false) := by
  rw [Fmt.decode_e4m3 hc, ← e4m3_allOnes_iff hc]
  by_cases h : Fmt.e4m3.spec.allOnes c
  · exact .inl ⟨h, FloatSpec.decode_of_allOnes rfl rfl h⟩
  · refine .inr ⟨h, _, _, _, FloatSpec.decode_of_number rfl (fun _ => h), ?_⟩
    obtain ⟨hm, he⟩ | ⟨hm, he⟩ := e4m3_number_bounds h
    · exact ofNat_not_ltB_fin hm he (by decide)
    · exact ofNat_not_ltB_fin hm he (by decide)

/-! ### FP4 E2M1 (R104) -/

/-- Every code of FP4 is a number, whose magnitude the three bits below the sign give. -/
theorem fp4_decode {c : Nat} (hc : c < 16) :
    Fmt.fp4.decode c = .fin (decide (8 ≤ c)) (Fmt.fp4.spec.significand (c % 8)) (Fmt.fp4.spec.lastPlace (c % 8)) := by
  have hsign : Fmt.fp4.spec.signBit c = decide (8 ≤ c) := by
    change decide (c / 8 % 2 = 1) = _
    rw [decide_eq_decide]
    omega
  have hexp : Fmt.fp4.spec.expField (c % 8) = Fmt.fp4.spec.expField c := Fmt.fp4.spec.expField_mod c
  have hfrac : Fmt.fp4.spec.fracField (c % 8) = Fmt.fp4.spec.fracField c := Fmt.fp4.spec.fracField_mod c
  have hnumber := FloatSpec.decode_of_number (f := Fmt.fp4.spec) rfl (c := c) (fun hnan => nomatch hnan)
  rw [FloatSpec.significand, FloatSpec.lastPlace, hexp, hfrac, ← hsign]
  exact (congrArg Fmt.fp4.spec.decode (Nat.mod_eq_of_lt hc)).trans hnumber

/-- Twice the eight magnitudes of FP4, in the order of their codes. -/
theorem fp4_twice_magnitudes : ∀ k < 8,
    (Val.fin false (Fmt.fp4.spec.significand k * 2) (Fmt.fp4.spec.lastPlace k)).eqB (Val.ofNat ([0, 1, 2, 3, 4, 6, 8, 12].getD k 0)) = true := by
  decide

/-! ### The statement -/

/-- Settles O29: an E4M3 code by whether its fields are all ones, an FP4 code by its sign and its three bits of magnitude. -/
theorem smallFormats : Obligations.SmallFormats := by
  refine ⟨fun c hc => ?_, by decide, fun c hc => ?_⟩
  · obtain ⟨hcode, e⟩ | ⟨hcode, neg, m, p, e, hle⟩ := e4m3_decode_cases hc <;> rw [e]
    · exact ⟨fun _ h => (nomatch h), iff_of_true rfl hcode, rfl⟩
    · exact ⟨fun _ h => (nomatch h), iff_of_false (by simp [Val.isNan]) hcode, hle⟩
  · rw [fp4_decode hc]
    refine ⟨rfl, rfl, ?_⟩
    simpa [Val.abs, Val.mul, Val.ofNat] using fp4_twice_magnitudes (c % 8) (Nat.mod_lt _ (by decide))

end Sys2Proof.Machine
end

section
/-! PROOF. Combining reduction records (08_step_commit.md R192), and the verdict the root forms from the combined record (R194). -/

namespace Sys2Proof.Machine

/-! ### Combining a child's record (R192) -/

theorem RedRec.sameStep_iff (a b : RedRec) : a.sameStep b = true ↔ (a.step, a.epoch, a.attempt) = (b.step, b.epoch, b.attempt) := by
  simp [RedRec.sameStep, and_assoc]

section
variable (self : Nat) (own child : RedRec)

@[simp] theorem RedRec.combine_fault :
    (RedRec.combine self own child).fault = (own.fault || child.fault || child.mismatch) := rfl

@[simp] theorem RedRec.combine_mismatch :
    (RedRec.combine self own child).mismatch = (own.mismatch || !child.sameStep own || child.mismatch) := rfl

@[simp] theorem RedRec.combine_disagree :
    (RedRec.combine self own child).disagree = (own.disagree || child.expect != own.expect || child.disagree) := rfl

@[simp] theorem RedRec.combine_step : (RedRec.combine self own child).step = own.step := by
  dsimp only [RedRec.combine]
  repeat' split
  all_goals rfl

@[simp] theorem RedRec.combine_attempt : (RedRec.combine self own child).attempt = own.attempt := by
  dsimp only [RedRec.combine]
  repeat' split
  all_goals rfl

variable {self own child}

/-- A cause already in the record is the first one, and stays. -/
theorem RedRec.combine_cause_of_set (h : own.cause ≠ 0) :
    (RedRec.combine self own child).cause = own.cause ∧ (RedRec.combine self own child).source = own.source := by
  simp [RedRec.combine, h]

/-- The child's record of another step, epoch or attempt is a cause of this module's own, STEP_MISMATCH. -/
theorem RedRec.combine_cause_of_differs (h : own.cause = 0) (hd : child.sameStep own = false) :
    (RedRec.combine self own child).cause = 0x0708 ∧ (RedRec.combine self own child).source = self := by
  simp [RedRec.combine, h, hd]

/-- Without another cause the child's is taken over. -/
theorem RedRec.combine_cause_of_child (h : own.cause = 0) (hs : child.sameStep own = true) (hf : child.fault = true) :
    (RedRec.combine self own child).cause = child.cause ∧ (RedRec.combine self own child).source = child.source := by
  simp [RedRec.combine, h, hs, hf]

end

/-! ### The factor and the verdict of a global norm (R194) -/

theorem absurd_iff (ceiling g : Nat) : absurd ceiling g = true ↔ finite64 g = false ∨ (fp32 ceiling).ltB (fp64 g) = true := by
  simp [absurd]

theorem trueFactor_eq (c : StepCfg) (g : Nat) :
    trueFactor c g = if (fp32 c.clipMax).isZero = true ∨ (fp32 c.clipMax).ltB (fp64 g) = false then 0x3F800000
      else (roundFp32 false ((fp32 c.clipMax).div (fp64 g)).1).code := by
  simp [trueFactor]

theorem Mod.clipPred_of_plate {m : Mod} {p : Plate} (hp : m.plate? = some p) :
    m.clipPred = if p.cfg.mode = .unclipped then 0x3F800000 else m.fget Fld.GRM_CLIP_PRED_FACTOR := by
  rw [Mod.clipPred, hp]

/-- The global norm of a sum of squares: its root, rounded once. -/
def globalNorm (sumsq : Nat) : Nat := (roundFp64 (fp64 sumsq).sqrt.1).code

section
variable {c : StepCfg} {pred attempt sumsq : Nat}

/-- Every verdict carries the norm it was formed from. -/
theorem normVerdict_gnorm : (normVerdict c pred attempt sumsq).2.2 = globalNorm sumsq := by
  dsimp only [normVerdict]
  repeat' split
  all_goals rfl

theorem normVerdict_of_absurd (h : absurd c.ceiling (globalNorm sumsq) = true) :
    normVerdict c pred attempt sumsq = (.skip, 0, globalNorm sumsq) := if_pos h

variable (h : ¬absurd c.ceiling (globalNorm sumsq) = true)
include h

/-- A replay commits with the factor of its own norm. -/
theorem normVerdict_of_replay (ha : attempt = 1) :
    normVerdict c pred attempt sumsq = (.commit, trueFactor c (globalNorm sumsq), globalNorm sumsq) :=
  (if_neg h).trans (if_pos ha)

/-- A first attempt in mode TOLERANT commits with the prediction, where the factor is near it. -/
theorem normVerdict_of_tolerant (ha : attempt ≠ 1) (hm : c.mode = .tolerant) :
    normVerdict c pred attempt sumsq =
      if withinTol c.tol (trueFactor c (globalNorm sumsq)) pred then (.commit, pred, globalNorm sumsq)
      else (.replay, trueFactor c (globalNorm sumsq), globalNorm sumsq) :=
  (if_neg h).trans ((if_neg ha).trans (if_pos hm))

/-- A first attempt in another mode commits where the factor is the prediction. -/
theorem normVerdict_of_exact (ha : attempt ≠ 1) (hm : c.mode ≠ .tolerant) :
    normVerdict c pred attempt sumsq =
      if trueFactor c (globalNorm sumsq) = pred then (.commit, trueFactor c (globalNorm sumsq), globalNorm sumsq)
      else (.replay, trueFactor c (globalNorm sumsq), globalNorm sumsq) :=
  (if_neg h).trans ((if_neg ha).trans (if_neg hm))

end

/-! ### What the root makes of a combined record (R194) -/

/-- A combined record that carries a fault, a mismatch, a wrong count, disagreeing tags, or the sum of a replay that diverged. -/
def Mod.recordBad (m : Mod) (c : StepCfg) (r : RedRec) : Prop :=
  r.fault = true ∨ r.mismatch = true ∨ r.count ≠ c.participants ∨ r.disagree = true ∨
    (r.expectSet = true ∧ r.tag ≠ r.expect) ∨ (r.attempt = 1 ∧ m.step.firstSumsq ≠ some r.sumsq)

theorem RedRec.tagsBad_iff (r : RedRec) : r.tagsBad = true ↔ r.disagree = true ∨ (r.expectSet = true ∧ r.tag ≠ r.expect) := by
  simp [RedRec.tagsBad]

section
variable {m : Mod} {p : Plate} {r : RedRec}

/-- The root's checks of the record, in its order, fail exactly for a record that is bad. -/
theorem Mod.recordBad_iff {c : StepCfg} : m.recordBad c r ↔
    (r.fault || r.mismatch) = true ∨ r.count ≠ c.participants ∨ r.tagsBad = true ∨ (r.attempt = 1 ∧ some r.sumsq ≠ m.step.firstSumsq) := by
  rw [Mod.recordBad, RedRec.tagsBad_iff, Bool.or_eq_true, ne_comm (a := some r.sumsq)]
  simp only [or_assoc]

theorem Mod.formVerdict_of_bad (hp : m.plate? = some p) (h : m.recordBad p.cfg r) : (m.formVerdict r).2.kind = .fault := by
  rw [Mod.recordBad_iff] at h
  simp only [Mod.formVerdict, hp, Option.map_some]
  split
  · rfl
  split
  · rfl
  split
  · rfl
  split
  · rfl
  · tauto

/-- A record without fault gets the verdict of its norm; a SKIP carries no factor. -/
theorem Mod.formVerdict_of_good (hp : m.plate? = some p) (h : ¬m.recordBad p.cfg r) :
    let v := (m.formVerdict r).2
    let n := normVerdict p.cfg m.clipPred r.attempt r.sumsq
    v.kind = n.1 ∧ (n.1 ≠ .skip → v.clip = n.2.1) ∧ v.gnorm = globalNorm r.sumsq ∧ v.rootTick = m.tick.count := by
  rw [Mod.recordBad_iff] at h
  push Not at h
  obtain ⟨hflags, hcount, htags, hreplay⟩ := h
  rw [← normVerdict_gnorm (c := p.cfg) (pred := m.clipPred) (attempt := r.attempt)]
  simp only [Mod.formVerdict, hp, Option.map_some]
  rw [if_neg hflags, if_neg (not_not.2 hcount), if_neg htags, if_neg (fun h => h.2 (hreplay h.1))]
  split
  case h_1 hk => exact ⟨hk.symm, fun hne => (hne hk).elim, rfl, rfl⟩
  case h_2 => exact ⟨rfl, fun _ => rfl, rfl, rfl⟩

/-- The kind and the factor of the verdict of a record without fault, where the norm gives a verdict other than SKIP. -/
theorem Mod.formVerdict_of_normVerdict {k : VKind} {f g : Nat} (hp : m.plate? = some p) (h : ¬m.recordBad p.cfg r) (hk : k ≠ .skip)
    (hn : normVerdict p.cfg m.clipPred r.attempt r.sumsq = (k, f, g)) :
    (m.formVerdict r).2.kind = k ∧ (m.formVerdict r).2.clip = f := by
  obtain ⟨hkind, hclip, -, -⟩ := Mod.formVerdict_of_good hp h
  rw [hn] at hkind hclip
  exact ⟨hkind, hclip hk⟩

end

/-! ### The statement -/

/-- Settles O33: the combined record field by field, its cause by which is the first; the verdict by whether the record is bad, then
whether its norm is absurd, then the attempt and the plate's mode. -/
theorem recordsAndVerdict : Obligations.RecordsAndVerdict := by
  refine ⟨fun self own child => ?_, fun m p r hp => ?_⟩
  · have hdiffers : child.sameStep own = false ↔ (child.step, child.epoch, child.attempt) ≠ (own.step, own.epoch, own.attempt) := by
      rw [← Bool.not_eq_true, RedRec.sameStep_iff]
    refine ⟨?_, ?_, ?_, RedRec.combine_cause_of_set, fun h hd => RedRec.combine_cause_of_differs h (hdiffers.2 hd),
      fun h hs => RedRec.combine_cause_of_child h ((RedRec.sameStep_iff _ _).2 (not_not.1 hs)), rfl, rfl, rfl,
      RedRec.combine_step _ _ _, RedRec.combine_attempt _ _ _⟩
    · rw [RedRec.combine_mismatch, Bool.or_eq_true, Bool.or_eq_true, Bool.not_eq_true', hdiffers, or_assoc]
    · rw [RedRec.combine_disagree, Bool.or_eq_true, Bool.or_eq_true, bne_iff_ne, or_assoc]
    · rw [RedRec.combine_fault, Bool.or_eq_true, Bool.or_eq_true, or_assoc]
  · intro cfg v bad g skip c pred
    have hc : trueFactor cfg (globalNorm r.sumsq) = c := trueFactor_eq cfg g
    have hpred : m.clipPred = pred := Mod.clipPred_of_plate hp
    refine ⟨Mod.formVerdict_of_bad hp, fun hgood hskip => ?_, fun hgood hskip => ?_⟩
    · obtain ⟨hkind, -, hgnorm, -⟩ := Mod.formVerdict_of_good hp hgood
      rw [normVerdict_of_absurd ((absurd_iff _ _).2 hskip)] at hkind
      exact ⟨hkind, hgnorm⟩
    · obtain ⟨-, -, hgnorm, htick⟩ := Mod.formVerdict_of_good hp hgood
      have hnorm := mt (absurd_iff cfg.ceiling g).1 hskip
      have hv := fun k f (hk : k ≠ .skip) => Mod.formVerdict_of_normVerdict (k := k) (f := f) (g := g) hp hgood hk
      refine ⟨hgnorm, htick, fun ha => ?_, fun ha hm => ⟨fun hw => ?_, fun hw => ?_⟩, fun ha hm => ?_⟩
      · exact hv .commit c (by decide) (hc ▸ normVerdict_of_replay hnorm ha)
      · have hn := normVerdict_of_tolerant (pred := m.clipPred) hnorm ha hm
        rw [if_pos (by rwa [hc, hpred])] at hn
        exact hpred ▸ hv _ _ (by decide) hn
      · have hn := normVerdict_of_tolerant (pred := m.clipPred) hnorm ha hm
        rw [if_neg (by rw [hc, hpred, hw]; decide), hc] at hn
        exact hv _ _ (by decide) hn
      · have hn := normVerdict_of_exact (pred := m.clipPred) hnorm ha hm
        rw [hc, hpred] at hn
        by_cases he : c = pred
        · obtain ⟨hkind, hclip⟩ := hv .commit c (by decide) (hpred ▸ hn.trans (if_pos he))
          exact ⟨fun _ => hkind, fun hne => (hne he).elim, hclip⟩
        · obtain ⟨hkind, hclip⟩ := hv .replay c (by decide) (hpred ▸ hn.trans (if_neg he))
          exact ⟨fun heq => (he heq).elim, fun _ => hkind, hclip⟩

end Sys2Proof.Machine
end

section
/-! PROOF. Frames of the commands: how a change of the module names the parts it may touch while it keeps the memories in canonical form,
and how such changes add up along a command's meaning. -/

namespace Sys2Proof.Machine

/-! ### Changes that name their parts and keep the memories' form -/

/-- `n` is `m` in every part that `ps` does not list, and the memories keep their canonical form. -/
structure Mod.framed (ps : List Part) (m n : Mod) : Prop where
  rest : Mod.sameBut ps m n
  form : Mod.keepsMem m n

theorem Mod.framed.refl {m : Mod} : Mod.framed [] m m := ⟨Mod.sameBut_refl [] m, Mod.keepsMem_refl m⟩

theorem Mod.framed.mono {ps qs : List Part} {m n : Mod} (h : Mod.framed ps m n) (hs : ∀ p ∈ ps, p ∈ qs) : Mod.framed qs m n :=
  ⟨Mod.sameBut_mono h.rest hs, h.form⟩

/-- A last change, stated before those it follows: the command's meaning is read from its outermost operation inwards. -/
theorem Mod.framed.after {ps qs : List Part} {l m n : Mod} (h2 : Mod.framed qs m n) (h1 : Mod.framed ps l m) : Mod.framed (qs ++ ps) l n :=
  ⟨Mod.sameBut_trans (Mod.sameBut_mono h1.rest (fun _ => List.mem_append_right _)) (Mod.sameBut_mono h2.rest (fun _ => List.mem_append_left _)),
    Mod.keepsMem_trans h1.form h2.form⟩

/-- An operation that leaves the memories. -/
theorem Mod.framed.of {ps : List Part} {m n : Mod} (h : Mod.sameBut ps m n) (hp : ps.contains .mem = false) : Mod.framed ps m n :=
  ⟨h, Mod.keepsMem_of h (by simpa using hp)⟩

/-- A last operation that leaves the memories. -/
theorem Mod.framed.last {ps qs : List Part} {l m n : Mod} (h2 : Mod.sameBut qs m n) (hp : qs.contains .mem = false)
    (h1 : Mod.framed ps l m) : Mod.framed (qs ++ ps) l n := (Mod.framed.of h2 hp).after h1

section
variable {c : Prop} [Decidable c] {ps qs : List Part} {l m n : Mod}

/-- Either of two changes. -/
theorem Mod.framed.ite (h1 : Mod.framed ps l m) (h2 : Mod.framed qs l n) : Mod.framed (ps ++ qs) l (if c then m else n) := by
  split
  · exact h1.mono (fun _ => List.mem_append_left _)
  · exact h2.mono (fun _ => List.mem_append_right _)

/-- A change that a condition lets happen. -/
theorem Mod.framed.when (h : Mod.framed ps l m) : Mod.framed ps l (if c then m else l) := by
  split
  · exact h
  · exact Mod.framed.refl.mono (fun _ hp => nomatch hp)

/-- A change that a condition holds back. -/
theorem Mod.framed.unless (h : Mod.framed ps l m) : Mod.framed ps l (if c then l else m) := by
  split
  · exact Mod.framed.refl.mono (fun _ hp => nomatch hp)
  · exact h

/-- A last change that a condition lets happen. -/
theorem Mod.framed.lastWhen (h2 : Mod.framed qs m n) (h1 : Mod.framed ps l m) : Mod.framed (qs ++ ps) l (if c then n else m) := h2.when.after h1

/-- A last change that a condition holds back. -/
theorem Mod.framed.lastUnless (h2 : Mod.framed qs m n) (h1 : Mod.framed ps l m) : Mod.framed (qs ++ ps) l (if c then m else n) :=
  h2.unless.after h1

end

/-- A fold of changes of the same parts. -/
theorem Mod.framed.foldl {β : Type} {ps : List Part} {f : Mod → β → Mod} (hf : ∀ m b, Mod.framed ps m (f m b)) (xs : List β) (m : Mod) :
    Mod.framed ps m (xs.foldl f m) :=
  ⟨Mod.sameBut_foldl f xs m (fun m b => (hf m b).rest) (Mod.sameBut_refl _ _),
    Mod.keepsMem_foldl f xs m (fun m b => (hf m b).form) (Mod.keepsMem_refl _)⟩

/-! ### One part replaced -/

theorem Mod.sameBut_evIn (m : Mod) (x : List EvRec) : Mod.sameBut [.evIn] m { m with evIn := x } := by
  constructor <;> intro hp
  case evIn => exact (hp (by decide)).elim
  all_goals rfl

theorem Mod.sameBut_pwr (m : Mod) (x : PwrUnit) : Mod.sameBut [.pwr] m { m with pwr := x } := by
  constructor <;> intro hp
  case pwr => exact (hp (by decide)).elim
  all_goals rfl

theorem Mod.sameBut_plt (m : Mod) (x : PlateUnit) : Mod.sameBut [.plt] m { m with plt := x } := by
  constructor <;> intro hp
  case plt => exact (hp (by decide)).elim
  all_goals rfl

theorem Mod.sameBut_sched (m : Mod) (x : Sched) : Mod.sameBut [.sched] m { m with sched := x } := by
  constructor <;> intro hp
  case sched => exact (hp (by decide)).elim
  all_goals rfl

theorem Mod.sameBut_cores (m : Mod) (x : Kv CoreRun) : Mod.sameBut [.cores] m { m with cores := x } := by
  constructor <;> intro hp
  case cores => exact (hp (by decide)).elim
  all_goals rfl

theorem Mod.sameBut_stepUnit (m : Mod) (x : StepUnit) : Mod.sameBut [.step] m { m with step := x } := by
  constructor <;> intro hp
  case step => exact (hp (by decide)).elim
  all_goals rfl

theorem Mod.sameBut_pool (m : Mod) (x : PoolUnit) : Mod.sameBut [.pool] m { m with pool := x } := by
  constructor <;> intro hp
  case pool => exact (hp (by decide)).elim
  all_goals rfl

theorem Mod.sameBut_fab (m : Mod) (x : FabUnit) : Mod.sameBut [.fab] m { m with fab := x } := by
  constructor <;> intro hp
  case fab => exact (hp (by decide)).elim
  all_goals rfl

theorem Mod.sameBut_sec (m : Mod) (x : SecUnit) : Mod.sameBut [.sec] m { m with sec := x } := by
  constructor <;> intro hp
  case sec => exact (hp (by decide)).elim
  all_goals rfl

theorem Mod.sameBut_dbg (m : Mod) (x : DbgUnit) : Mod.sameBut [.dbg] m { m with dbg := x } := by
  constructor <;> intro hp
  case dbg => exact (hp (by decide)).elim
  all_goals rfl

/-! ### Shared operations as last changes -/

section
variable {ps : List Part} {l m : Mod} (h : Mod.framed ps l m)
include h

theorem Mod.framed.regs {x : RegFile} : Mod.framed ([.regs] ++ ps) l { m with regs := x } := .last (m.sameBut_regs x) rfl h

theorem Mod.framed.evIn {x : List EvRec} : Mod.framed ([.evIn] ++ ps) l { m with evIn := x } := .last (m.sameBut_evIn x) rfl h

theorem Mod.framed.host {x : HostUnit} : Mod.framed ([.host] ++ ps) l { m with host := x } := .last (m.sameBut_host x) rfl h

theorem Mod.framed.pwr {x : PwrUnit} : Mod.framed ([.pwr] ++ ps) l { m with pwr := x } := .last (m.sameBut_pwr x) rfl h

theorem Mod.framed.tick {x : TickUnit} : Mod.framed ([.tick] ++ ps) l { m with tick := x } := .last (m.sameBut_tick x) rfl h

theorem Mod.framed.plt {x : PlateUnit} : Mod.framed ([.plt] ++ ps) l { m with plt := x } := .last (m.sameBut_plt x) rfl h

theorem Mod.framed.sched {x : Sched} : Mod.framed ([.sched] ++ ps) l { m with sched := x } := .last (m.sameBut_sched x) rfl h

theorem Mod.framed.step {x : StepUnit} : Mod.framed ([.step] ++ ps) l { m with step := x } := .last (m.sameBut_stepUnit x) rfl h

theorem Mod.framed.pool {x : PoolUnit} : Mod.framed ([.pool] ++ ps) l { m with pool := x } := .last (m.sameBut_pool x) rfl h

theorem Mod.framed.fab {x : FabUnit} : Mod.framed ([.fab] ++ ps) l { m with fab := x } := .last (m.sameBut_fab x) rfl h

theorem Mod.framed.sec {x : SecUnit} : Mod.framed ([.sec] ++ ps) l { m with sec := x } := .last (m.sameBut_sec x) rfl h

theorem Mod.framed.dbg {x : DbgUnit} : Mod.framed ([.dbg] ++ ps) l { m with dbg := x } := .last (m.sameBut_dbg x) rfl h

theorem Mod.framed.fset {f : Fld} {v i j : Nat} : Mod.framed ([.regs] ++ ps) l (m.fset f v i j) := .last (Mod.fset_sameBut m f v i j) rfl h

theorem Mod.framed.fsat {f : Fld} {v i j : Nat} : Mod.framed ([.regs] ++ ps) l (m.fsat f v i j) := .last (Mod.fsat_sameBut m f v i j) rfl h

theorem Mod.framed.raise {k : EvClass} {code source d0 d1 d2 : Nat} : Mod.framed ([.evIn] ++ ps) l (m.raise k code source d0 d1 d2) := .last (Mod.raise_sameBut m k code source d0 d1 d2) rfl h

theorem Mod.framed.emit {o : Out} : Mod.framed ([.host] ++ ps) l (m.emit o) := .last (Mod.emit_sameBut m o) rfl h

theorem Mod.framed.msix {v : Nat} : Mod.framed ([.host] ++ ps) l (m.msix v) := .last (Mod.msix_sameBut m v) rfl h

theorem Mod.framed.portTo {p : Nat} {st : PortState} {cause : Nat} : Mod.framed ([.regs, .evIn, .fab, .dbg] ++ ps) l (m.portTo p st cause) := .last (Mod.portTo_sameBut m p st cause) rfl h

theorem Mod.framed.raiseStep {code source d0 d1 d2 : Nat} : Mod.framed ([.evIn, .step] ++ ps) l (m.raiseStep code source d0 d1 d2) := .last (Mod.raiseStep_sameBut m code source d0 d1 d2) rfl h

theorem Mod.framed.setPort {p : Nat} {x : Port} : Mod.framed ([.fab] ++ ps) l (m.setPort p x) := .last (Mod.setPort_sameBut m p x) rfl h

theorem Mod.framed.trace {k src a b c d : Nat} : Mod.framed ([.regs, .dbg] ++ ps) l (m.trace k src a b c d) :=
  .last (Mod.trace_sameBut m k src a b c d) rfl h

theorem Mod.framed.raiseDual {b : Bool} {k : EvClass} {code source d0 d1 d2 : Nat} :
    Mod.framed ([.evIn, .step] ++ ps) l (m.raiseDual b k code source d0 d1 d2) := .last (Mod.raiseDual_sameBut m b k code source d0 d1 d2) rfl h

end

/-! ### Commands -/

/-- The command completes in every state, leaves the queue, changes the parts of its footprint alone, keeps the memories in canonical form,
and, where it carries no event, tick or reset, leaves the event unit's output side. -/
def CommandFramed (c : Instr) : Prop :=
  ∀ s : State, ∃ t, exec c s = .next t ∧ t.pending = s.pending ∧ Mod.framed (footprint c) s.m t.m ∧ (movesEvents c = false → t.evq = s.evq)

/-- Every part of `ps` is one of the command's footprint. -/
def withinFootprint (c : Instr) (ps : List Part) : Bool := ps.all (fun p => (footprint c).contains p)

theorem Mod.framed.within {c : Instr} {ps : List Part} {m n : Mod} (h : Mod.framed ps m n)
    (hs : ps.all (fun p => (footprint c).contains p) = true) : Mod.framed (footprint c) m n :=
  h.mono (by simpa using hs)

theorem mem_footprint_of_within {c : Instr} {ps : List Part} (h : withinFootprint c ps = true) : ∀ p ∈ ps, p ∈ footprint c := by
  simpa [withinFootprint] using h

section
variable {c : Instr} {ps : List Part} {f : Mod → Mod}

/-- A command whose next state is one change of the module away. -/
theorem commandFramed_of_state {g : State → State} (e : ∀ s, exec c s = .next (g s)) (h : ∀ s, Mod.framed ps s.m (g s).m)
    (hp : ∀ s, (g s).pending = s.pending) (hq : ∀ s, (g s).evq = s.evq)
    (hs : withinFootprint c ps = true) : CommandFramed c :=
  fun s => ⟨_, e s, hp s, (h s).mono (mem_footprint_of_within hs), fun _ => hq s⟩

/-- A command that is a change of the module. -/
theorem commandFramed_on (e : ∀ s, exec c s = .next (s.on f)) (h : ∀ m, Mod.framed ps m (f m))
    (hs : withinFootprint c ps = true) : CommandFramed c :=
  fun s => ⟨_, e s, rfl, (h s.m).mono (mem_footprint_of_within hs), fun _ => rfl⟩

/-- A command of a unit that acts while the units run. -/
theorem commandFramed_unit (e : ∀ s, exec c s = .next (s.unit f)) (h : ∀ m, Mod.framed ps m (f m))
    (hs : withinFootprint c ps = true) : CommandFramed c :=
  fun s => ⟨_, e s, rfl, (h s.m).when.mono (mem_footprint_of_within hs), fun _ => rfl⟩

/-- A command through a register. -/
theorem commandFramed_reg {off : Nat} (e : ∀ s, exec c s = .next (s.reg off f)) (h : ∀ m, Mod.framed ps m (f m))
    (hs : withinFootprint c ps = true) : CommandFramed c :=
  fun s => ⟨_, e s, rfl, (h s.m).when.mono (mem_footprint_of_within hs), fun _ => rfl⟩

/-- A command that a management path brings. -/
theorem commandFramed_via {path : Path} {off : Nat} (e : ∀ s, exec c s = .next (s.via path off f)) (h : ∀ m, Mod.framed ps m (f m)) (hs : withinFootprint c ps = true) : CommandFramed c :=
  fun s => ⟨_, e s, rfl, (h s.m).when.mono (mem_footprint_of_within hs), fun _ => rfl⟩

/-- An attestation request. -/
theorem commandFramed_att {via : AttPath} (e : ∀ s, exec c s = .next (s.att via f)) (h : ∀ m, Mod.framed ps m (f m))
    (hs : withinFootprint c ps = true) : CommandFramed c :=
  fun s => ⟨_, e s, rfl, (h s.m).when.mono (mem_footprint_of_within hs), fun _ => rfl⟩

/-- A command of the TAP. -/
theorem commandFramed_tap (e : ∀ s, exec c s = .next (s.tap f)) (h : ∀ m, Mod.framed ps m (f m))
    (hs : withinFootprint c ps = true) : CommandFramed c :=
  fun s => ⟨_, e s, rfl, (h s.m).when.mono (mem_footprint_of_within hs), fun _ => rfl⟩

end

/-- A command that runs one kernel on a core (03_cores.md R78). -/
theorem Mod.framed.kernelOn {ps : List Part} (m : Mod) (c : Nat) (op : KOp) (ecc : Ecc) (ok : Kernel → Bool)
    {f : Mod → StableRec → Nat → Kernel → Mod} (hf : ∀ m st i k, Mod.framed ps m (f m st i k)) :
    Mod.framed ([.cores] ++ (ps ++ [.regs, .evIn, .sched, .cores, .step, .mem])) m (m.kernelOn c op ecc ok f) := by
  unfold Mod.kernelOn
  split
  · exact .when (.last (Mod.workDone_sameBut _ _) rfl (.after (hf _ _ _ _) ⟨m.sramErrors_sameBut _ _ _ _, m.sramErrors_keepsMem _ _ _ _⟩))
  · exact Mod.framed.refl.mono (fun _ hp => nomatch hp)

end Sys2Proof.Machine
end

section
/-! PROOF. The frame of every command (00_scope.md R1; 95_what_each_step_holds.md): each completes, changes the parts of its footprint alone
and keeps the memories in canonical form. -/

namespace Sys2Proof.Machine

/-! ### Registers -/

/-- A register access routed to the register's meaning. -/
theorem Mod.framed.regRoute (m : Mod) (off v hw : Nat) :
    Mod.framed [.regs, .evIn, .host, .pwr, .tick, .plt, .sched, .cores, .step, .mem, .stm, .chk, .fab, .sec, .dbg] m (m.regRoute off v hw) :=
  ⟨m.regRoute_sameBut off v hw, m.regRoute_keepsMem off v hw⟩

/-- A read of a _LO half keeps the _HI half, in the register file. -/
theorem State.capture_eq (s : State) (off : Nat) : ∃ rf, s.capture off = { s with m := { s.m with regs := rf } } := by
  unfold State.capture
  split
  · exact ⟨_, rfl⟩
  · exact ⟨s.m.regs, rfl⟩

theorem framed_readLoSnapshot (read : BusRead) : CommandFramed (.readLoSnapshot read) := by
  intro s
  obtain ⟨rf, hcap⟩ := s.capture_eq read.off
  refine ⟨_, rfl, ?_⟩
  split
  · split
    · exact ⟨rfl, .within (.emit .refl) rfl, fun _ => rfl⟩
    · split
      · rw [hcap]
        exact ⟨rfl, .within (.emit (.regs .refl)) rfl, fun _ => rfl⟩
      · exact ⟨rfl, .within (.emit .refl) rfl, fun _ => rfl⟩
  · exact ⟨rfl, .within .refl rfl, fun _ => rfl⟩

theorem framed_dbgAccess (write : Bool) (off data : Nat) : CommandFramed (.dbgAccess write off data) := by
  intro s
  refine ⟨_, rfl, ?_⟩
  split
  · unfold State.tapAccess
    split
    · exact ⟨rfl, .within (.dbg (.of (Mod.tapShift_sameBut _ _ _) rfl)) rfl, fun _ => rfl⟩
    · split
      · unfold State.tapLocked
        split
        · exact ⟨rfl, .within (.dbg (.fset (.of (Mod.tapShift_sameBut _ _ _) rfl))) rfl, fun _ => rfl⟩
        · exact ⟨rfl, .within (.dbg (.of (Mod.tapShift_sameBut _ _ _) rfl)) rfl, fun _ => rfl⟩
      · split
        · exact ⟨rfl, .within (.dbg (.after (Mod.framed.regRoute _ _ _ _) (.of (Mod.tapShift_sameBut _ _ _) rfl))) rfl, fun _ => rfl⟩
        · obtain ⟨rf, hcap⟩ := (s.on (fun m => m.tapShift 0x10 m.tapCapture)).capture_eq (off % 2 ^ 26)
          rw [hcap]
          exact ⟨rfl, .within (.dbg (.regs (.of (Mod.tapShift_sameBut _ _ _) rfl))) rfl, fun _ => rfl⟩
  · exact ⟨rfl, .within .refl rfl, fun _ => rfl⟩

theorem framed_bar2Write (off : Nat) (data : List (Option Byte)) (ecc : Ecc) (tlp : Option TlpBad) :
    CommandFramed (.bar2Write off data ecc tlp) := by
  refine commandFramed_on (ps := footprint (.bar2Write off data ecc tlp)) (fun _ => rfl) (fun m => ?_) rfl
  cases tlp with
  | some b => exact .within (.when (.of (m.tlpDiscard_sameBut b) rfl)) rfl
  | none => exact .within (.when ⟨m.bar2WriteAt_sameBut _ _ _ _, m.bar2WriteAt_keepsMem _ _ _ _⟩) rfl

theorem framed_bar2Read (off len : Nat) (ecc : Ecc) (tlp : Option TlpBad) : CommandFramed (.bar2Read off len ecc tlp) := by
  intro s
  refine ⟨_, rfl, ?_⟩
  dsimp only
  split
  · exact ⟨rfl, .within .refl rfl, fun _ => rfl⟩
  · cases tlp with
    | some b => exact ⟨rfl, .within (.emit (.of (Mod.tlpDiscard_sameBut _ b) rfl)) rfl, fun _ => rfl⟩
    | none =>
      dsimp only
      split
      · exact ⟨rfl, .within (.emit .refl) rfl, fun _ => rfl⟩
      · split
        · exact ⟨rfl, .within ⟨Mod.bar2ReadAt_sameBut _ _ _ _, Mod.bar2ReadAt_keepsMem _ _ _ _⟩ rfl, fun _ => rfl⟩
        · split
          · exact ⟨rfl, .within (.emit .refl) rfl, fun _ => rfl⟩
          · exact ⟨rfl, .within (.emit .refl) rfl, fun _ => rfl⟩

theorem framed_ringAddrWrite (off val : Nat) : CommandFramed (.ringAddrWrite off val) := by
  intro s
  refine ⟨_, rfl, ?_⟩
  split
  · exact ⟨rfl, .within (.when (.of (Mod.ringAddr_sameBut _ _ _) rfl)) rfl, fun _ => rfl⟩
  · exact ⟨rfl, .within .refl rfl, fun _ => rfl⟩

/-! ### Plates -/

theorem framed_activationTakesEffect : CommandFramed .activationTakesEffect := by
  refine commandFramed_unit (ps := footprint .activationTakesEffect) (fun _ => rfl) (fun m => ?_) rfl
  split
  · exact .within .refl rfl
  · exact .within (.last (Mod.actRefused_sameBut _ _ _ _) rfl (.plt .refl)) rfl
  · exact .within (.ite ⟨m.activateFull_sameBut _ _, m.activateFull_keepsMem _ _⟩ (.last (Mod.actRefused_sameBut _ _ _ _) rfl (.plt .refl))) rfl

theorem framed_deactivationTakesEffect : CommandFramed .deactivationTakesEffect := by
  refine commandFramed_unit (ps := footprint .deactivationTakesEffect) (fun _ => rfl) (fun m => ?_) rfl
  split
  · split
    · dsimp only
      split
      · exact .within (.msix (.fset (.after ⟨Mod.stopPlate_sameBut _, Mod.stopPlate_keepsMem _⟩ (.plt (.plt .refl))))) rfl
      · exact .within (.msix (.fset (.plt .refl))) rfl
    · exact .within .refl rfl
  · exact .within .refl rfl

theorem framed_routeUpdateTakesEffect : CommandFramed .routeUpdateTakesEffect := by
  refine commandFramed_unit (ps := footprint .routeUpdateTakesEffect) (fun _ => rfl) (fun m => ?_) rfl
  split
  · exact .within (.ite (.of (m.applyRoutes_sameBut _ _) rfl) (.last (Mod.actRefused_sameBut _ _ _ _) rfl (.plt .refl))) rfl
  · exact .within .refl rfl

/-! ### The tick and the step -/

theorem Mod.framed.verdictSend {ps : List Part} {l : Mod} {s : State} (h : Mod.framed ps l s.m) : Mod.framed ([.host] ++ ps) l s.verdictSend.m :=
  .last s.verdictSend_sameBut.m rfl h

theorem framed_tickBoundary (input : InputSample) (energy : Nat) : CommandFramed (.tickBoundary input energy) := by
  intro s
  refine ⟨_, rfl, ?_⟩
  split
  · exact ⟨(State.verdictSend_sameBut _).pending,
      .within (.verdictSend (.last (Mod.inputSample_sameBut _ _ _) rfl ⟨Mod.boundary_sameBut _ _, Mod.boundary_keepsMem _ _⟩)) rfl, nofun⟩
  · exact ⟨rfl, .within .refl rfl, nofun⟩

theorem framed_verdictActions (ecc : Ecc) : CommandFramed (.verdictActions ecc) := by
  intro s
  have hsend := State.verdictSend_sameBut (s.unit (fun m => m.verdictActions ecc))
  exact ⟨_, rfl, hsend.pending, .within (.verdictSend (.when ⟨Mod.verdictActions_sameBut _ _, Mod.verdictActions_keepsMem _ _⟩)) rfl,
    fun _ => hsend.evq⟩

theorem framed_upstreamFailover : CommandFramed .upstreamFailover := by
  refine commandFramed_on (ps := footprint .upstreamFailover) (fun _ => rfl) (fun m => ?_) rfl
  split
  · split
    · exact .within (.of (m.moveUpstream_sameBut _) rfl) rfl
    · exact .within (.last (Mod.alignLost_sameBut _ _ _) rfl (.tick .refl)) rfl
  · exact .within .refl rfl

theorem framed_barrierSignal (id : Nat) : CommandFramed (.barrierSignal id) := by
  refine commandFramed_unit (ps := footprint (.barrierSignal id)) (fun _ => rfl) (fun m => ?_) rfl
  split
  · exact .within (.last (Mod.barrierHit_sameBut _ _) rfl (.sched .refl)) rfl
  · exact .within .refl rfl

theorem framed_stepStart : CommandFramed .stepStart := by
  refine commandFramed_unit (ps := footprint .stepStart) (fun _ => rfl) (fun m => ?_) rfl
  split
  · split
    · split
      · exact .within (.of (m.stepRefused_sameBut _ _) rfl) rfl
      · exact .within (.last (Mod.frameBoundary_sameBut _) rfl (.of (m.stepBegin_sameBut _ _) rfl)) rfl
    · exact .within .refl rfl
  · exact .within .refl rfl

theorem framed_normRecordReceived : CommandFramed .normRecordReceived := by
  refine commandFramed_unit (ps := footprint .normRecordReceived) (fun _ => rfl) (fun m => ?_) rfl
  split
  · exact .within .refl rfl
  · split
    · exact .within .refl rfl
    · next hf => exact .within (.lastUnless (.of (Mod.childRecord_sameBut _ _ _) rfl) (.of (Mod.takeFlit_some hf) rfl)) rfl

theorem framed_verdictReceived : CommandFramed .verdictReceived := by
  refine commandFramed_unit (ps := footprint .verdictReceived) (fun _ => rfl) (fun m => ?_) rfl
  split
  · exact .within .refl rfl
  · split
    · exact .within .refl rfl
    · next hf =>
      have htaken := Mod.takeFlit_some hf
      split
      · exact .within (.of htaken rfl) rfl
      · exact .within (.lastUnless (.last (Mod.takeVerdict_sameBut _ _) rfl
          (.foldl (fun x c => .of (x.originate_sameBut (x.normFlit c _)) rfl) _ _)) (.of htaken rfl)) rfl

/-! ### Cores -/

theorem framed_kernelHang (core : Nat) : CommandFramed (.kernelHang core) := by
  refine commandFramed_unit (ps := footprint (.kernelHang core)) (fun _ => rfl) (fun m => ?_) rfl
  dsimp only
  split
  · exact .within (.when (.after ⟨Mod.stableReset_sameBut _ _ _, Mod.stableReset_keepsMem _ _ _⟩ (.raiseStep .refl))) rfl
  · exact .within .refl rfl

theorem framed_bistComplete (core : Nat) (fail : Option Nat) : CommandFramed (.bistComplete core fail) := by
  refine commandFramed_unit (ps := footprint (.bistComplete core fail)) (fun _ => rfl) (fun m => ?_) rfl
  cases fail with
  | none => exact .within (.unless (.fset (.fset (.fset (.of (m.setCore_sameBut _ _) rfl))))) rfl
  | some part => exact .within (.unless (.raise (.lastUnless (.of (Mod.fenceCore_sameBut _ _ _) rfl) (.fset (.of (m.setCore_sameBut _ _) rfl))))) rfl

/-- An instruction of an element program (07_groom_units.md R164). -/
theorem framed_element {c : Instr} {eng : Engine} {i : ElemInstr} (e : ∀ s, exec c s = .next (s.unit (fun m => m.elemStep eng i)))
    (hs : withinFootprint c [.regs, .cores, .step, .mem, .pool, .groom] = true) : CommandFramed c :=
  commandFramed_unit e (fun m => ⟨m.elemStep_sameBut eng i, m.elemStep_keepsMem eng i⟩) hs

/-! ### Memory -/

theorem framed_patrolScrub (ecc : Ecc) : CommandFramed (.patrolScrub ecc) :=
  commandFramed_unit (fun _ => rfl) (fun _ => .unless (.after (.foldl (fun m k => ⟨m.foundUe_sameBut false k, m.foundUe_keepsMem false k⟩) _ _)
    (.foldl (fun m k => .of (m.foundCe_sameBut k) rfl) _ _))) rfl

theorem framed_loftPoison (port addr : Nat) (inStep : Bool) : CommandFramed (.loftPoison port addr inStep) :=
  commandFramed_unit (fun _ => rfl) (fun m => .when (.raiseDual (.fset ⟨m.markLoc_sameBut _, m.markLoc_keepsMem _⟩))) rfl

theorem framed_loftLinkLost (port : Nat) : CommandFramed (.loftLinkLost port) :=
  commandFramed_unit (fun _ => rfl) (fun m => .when (.raiseStep (.fset (.last (Mod.heldEnd_sameBut _ _) rfl (.last (Mod.loftReport_sameBut _ _ _ _ _) rfl
    ⟨m.setLoftPort_sameBut _ _, m.setLoftPort_keepsMem _ _⟩))))) rfl

theorem framed_loftLinkReturn (port : Nat) : CommandFramed (.loftLinkReturn port) :=
  commandFramed_unit (fun _ => rfl) (fun _ => .when (.after ⟨Mod.reissueAll_sameBut _ _, Mod.reissueAll_keepsMem _ _⟩ (.fset .refl))) rfl

theorem framed_expanderHotAdd (port capacity width speed : Nat) (ok : Bool) : CommandFramed (.expanderHotAdd port capacity width speed ok) :=
  commandFramed_unit (fun _ => rfl) (fun m => .unless (.ite
    (.after ⟨Mod.setLoftPort_sameBut _ _ _, Mod.setLoftPort_keepsMem _ _ _⟩ (.when ⟨m.linkDown_sameBut _ _ _, m.linkDown_keepsMem _ _ _⟩))
    ⟨m.loftAttach_sameBut _ _ _ _ _, m.loftAttach_keepsMem _ _ _ _ _⟩)) rfl

theorem framed_moveUpComplete (home : Nat) (ecc : Ecc) : CommandFramed (.moveUpComplete home ecc) := by
  refine commandFramed_unit (ps := footprint (.moveUpComplete home ecc)) (fun _ => rfl) (fun m => ?_) rfl
  split
  · exact .within (.when (.last (Mod.setObj_sameBut _ _ _) rfl (.after ⟨Mod.poolCopy_sameBut _ _ _ _, Mod.poolCopy_keepsMem _ _ _ _⟩
      (.after ⟨Mod.eccDev_sameBut _ _ _ _, Mod.eccDev_keepsMem _ _ _ _⟩ ⟨Mod.readDev_sameBut _ _ _ _, Mod.readDev_keepsMem _ _ _ _⟩)))) rfl
  · exact .within .refl rfl

theorem framed_writebackComplete (home : Nat) (ecc : Ecc) : CommandFramed (.writebackComplete home ecc) := by
  refine commandFramed_unit (ps := footprint (.writebackComplete home ecc)) (fun _ => rfl) (fun m => ?_) rfl
  split
  · exact .within (.when (.after ⟨Mod.drainSettle_sameBut _ _, Mod.drainSettle_keepsMem _ _⟩ (.last (Mod.deferredSettle_sameBut _) rfl
      (.after ⟨Mod.retryWaits_sameBut _, Mod.retryWaits_keepsMem _⟩ (.last (Mod.dropObj_sameBut _ _) rfl
      (.after ⟨Mod.poolCopy_sameBut _ _ _ _, Mod.poolCopy_keepsMem _ _ _ _⟩ ⟨Mod.eccDev_sameBut _ _ _ _, Mod.eccDev_keepsMem _ _ _ _⟩)))))) rfl
  · exact .within .refl rfl

theorem framed_poolExhausted (home user : Nat) : CommandFramed (.poolExhausted home user) := by
  refine commandFramed_unit (ps := footprint (.poolExhausted home user)) (fun _ => rfl) (fun m => ?_) rfl
  split
  · exact .within (.when (.raiseStep (.pool .refl))) rfl
  · exact .within .refl rfl

theorem framed_stashPlace (stream : Nat) : CommandFramed (.stashPlace stream) := by
  refine commandFramed_unit (ps := footprint (.stashPlace stream)) (fun _ => rfl) (fun m => ?_) rfl
  split
  · dsimp only
    split
    · exact .within (.when (.of (m.placeRecord_sameBut _ _ _) rfl)) rfl
    · exact .within .refl rfl
  · exact .within .refl rfl

/-! ### The fabric -/

theorem framed_trainingEnd (port lanes failed delay : Nat) : CommandFramed (.trainingEnd port lanes failed delay) := by
  refine commandFramed_unit (ps := footprint (.trainingEnd port lanes failed delay)) (fun _ => rfl) (fun m => ?_) rfl
  dsimp only
  split
  · exact .within .refl rfl
  · split
    · exact .within (.portTo .refl) rfl
    · exact .within (.ite (.ite (.portTo .refl) (.setPort .refl)) (.ite (.portTo .refl) (.setPort .refl))) rfl

theorem framed_flitReceived (port : Nat) (f : FlitIn) : CommandFramed (.flitReceived port f) :=
  commandFramed_unit (fun _ => rfl) (fun m => .unless (.ite (.of (m.refuseFlit_sameBut _ _) rfl)
    (.after (.ite (.of (Mod.takePayload_sameBut _ _ _) rfl) (.when (.of (Mod.takeTest_sameBut _ _ _) rfl))) (.of (m.takeLinkHeader_sameBut _ _) rfl)))) rfl

theorem framed_controlFlitReceived (port : Nat) (body : CtlRec) : CommandFramed (.controlFlitReceived port body) := by
  refine commandFramed_unit (ps := footprint (.controlFlitReceived port body)) (fun _ => rfl) (fun m => ?_) rfl
  dsimp only
  split
  · exact .within .refl rfl
  · split
    · exact .within (.last (Mod.exchanged_sameBut _ _) rfl (.setPort .refl)) rfl
    · split
      · exact .within (.ite (.raise (.fset (.portTo (.setPort .refl)))) (.ite (.setPort (.setPort .refl)) (.portTo (.setPort .refl)))) rfl
      · exact .within (.portTo (.setPort .refl)) rfl

theorem framed_markReceived (port : Nat) (arrival : Int) (phase count period : Nat) :
    CommandFramed (.markReceived port arrival phase count period) :=
  commandFramed_unit (fun _ => rfl) (fun _ => .unless (.ite (.last (Mod.periodMismatch_sameBut _ _ _) rfl (.tick (.setPort .refl)))
    (.ite (.lastWhen (.of (Mod.countMismatch_sameBut _ _ _) rfl) (.tick (.setPort .refl))) (.tick (.setPort .refl))))) rfl

theorem framed_echoReceived (port : Nat) (arrival : Int) (turn : Nat) : CommandFramed (.echoReceived port arrival turn) := by
  refine commandFramed_unit (ps := footprint (.echoReceived port arrival turn)) (fun _ => rfl) (fun m => ?_) rfl
  dsimp only
  split
  · exact .within (.ite (.setPort .refl) (.unless (.after (.ite (.portTo .refl)
      (.when (.lastWhen (.portTo .refl) (.raise (.fset .refl))))) (.lastWhen (.of (Mod.upstreamOffset_sameBut _ _ _) rfl) (.setPort .refl))))) rfl
  · exact .within .refl rfl

theorem framed_laneFailure (port lanes : Nat) (why : LaneFault) : CommandFramed (.laneFailure port lanes why) := by
  refine commandFramed_unit (ps := footprint (.laneFailure port lanes why)) (fun _ => rfl) (fun m => ?_) rfl
  dsimp only
  split
  · exact .within .refl rfl
  · split
    · exact .within (.portTo (.setPort .refl)) rfl
    · exact .within (.ite (.setPort .refl) (.last (Mod.degraded_sameBut _ _ _ _) rfl (.trace (.fset (.setPort .refl))))) rfl

theorem framed_e2eTimeout (dest cls : Nat) : CommandFramed (.e2eTimeout dest cls) := by
  refine commandFramed_unit (ps := footprint (.e2eTimeout dest cls)) (fun _ => rfl) (fun m => ?_) rfl
  dsimp only
  split
  · exact .within .refl rfl
  · exact .within (.ite (.raiseDual (.fsat (.fab .refl))) (.after (.foldl (fun m f => .of (m.launch_sameBut f) rfl) _ _) (.fab .refl))) rfl

theorem framed_remoteWrite (ecc : Ecc) : CommandFramed (.remoteWrite ecc) := by
  refine commandFramed_unit (ps := footprint (.remoteWrite ecc)) (fun _ => rfl) (fun m => ?_) rfl
  split
  · exact .within .refl rfl
  · next hf =>
    have htaken := Mod.framed.of (Mod.takeFlit_some hf) rfl
    split
    · exact .within (.last (Mod.remoteRefused_sameBut _ _ _ _) rfl htaken) rfl
    · split
      · exact .within .refl rfl
      · exact .within (.after (.ite (.foldl (fun m d => ⟨m.devMark_sameBut _, m.devMark_keepsMem _⟩) _ _)
          (.after ⟨Mod.devWrite_sameBut _ _ _, Mod.devWrite_keepsMem _ _ _⟩ (.after ⟨Mod.mergeDev_sameBut _ _ _ _ _, Mod.mergeDev_keepsMem _ _ _ _ _⟩
            (.of (Mod.yard_sameBut _ _ _ _ _) rfl)))) htaken) rfl

theorem framed_readReq (ecc : Ecc) : CommandFramed (.readReq ecc) := by
  refine commandFramed_unit (ps := footprint (.readReq ecc)) (fun _ => rfl) (fun m => ?_) rfl
  split
  · exact .within .refl rfl
  · next hf =>
    have htaken := Mod.framed.of (Mod.takeFlit_some hf) rfl
    dsimp only
    split
    · split
      · exact .within .refl rfl
      · exact .within (.last (Mod.originateAll_sameBut _ _) rfl (.after ⟨Mod.readDev_sameBut _ _ _ _, Mod.readDev_keepsMem _ _ _ _⟩
          (.last (Mod.yard_sameBut _ _ _ _ _) rfl htaken))) rfl
    · exact .within (.last (Mod.originateAll_sameBut _ _) rfl (.last (Mod.remoteRefused_sameBut _ _ _ _) rfl htaken)) rfl

theorem framed_readResp : CommandFramed .readResp := by
  refine commandFramed_unit (ps := footprint .readResp) (fun _ => rfl) (fun m => ?_) rfl
  split
  · exact .within .refl rfl
  · next hf =>
    have htaken := Mod.framed.of (Mod.takeFlit_some hf) rfl
    dsimp only
    split
    · exact .within (.lastUnless (.fab .refl) htaken) rfl
    · exact .within htaken rfl

/-! ### Streams and check units -/

theorem framed_streamTileStart (stream : Nat) (ecc : Ecc) : CommandFramed (.streamTileStart stream ecc) := by
  refine commandFramed_unit (ps := footprint (.streamTileStart stream ecc)) (fun _ => rfl) (fun m => ?_) rfl
  split
  · exact .within ⟨m.tileStart_sameBut _ _, m.tileStart_keepsMem _ _⟩ rfl
  · exact .within .refl rfl

theorem framed_streamTileDelivered (stream : Nat) (ecc : Ecc) : CommandFramed (.streamTileDelivered stream ecc) := by
  refine commandFramed_unit (ps := footprint (.streamTileDelivered stream ecc)) (fun _ => rfl) (fun m => ?_) rfl
  split
  · exact .within (.when ⟨m.tileDeliver_sameBut _ _, m.tileDeliver_keepsMem _ _⟩) rfl
  · exact .within .refl rfl

theorem framed_etchBlockExpand (engine : Nat) (ecc : Ecc) : CommandFramed (.etchBlockExpand engine ecc) := by
  refine commandFramed_unit (ps := footprint (.etchBlockExpand engine ecc)) (fun _ => rfl) (fun m => ?_) rfl
  have hfetch : Mod.framed _ m (m.engineFetch engine ecc) := ⟨m.engineFetch_sameBut _ _, m.engineFetch_keepsMem _ _⟩
  split
  · exact .within .refl rfl
  · dsimp only
    split
    · split
      · exact .within (.after ⟨Mod.expandJob_sameBut _ _ _ _ _, Mod.expandJob_keepsMem _ _ _ _ _⟩ hfetch) rfl
      · exact .within hfetch rfl
    · exact .within hfetch rfl

theorem framed_decodeTableSwitch (engine : Nat) : CommandFramed (.decodeTableSwitch engine) := by
  refine commandFramed_unit (ps := footprint (.decodeTableSwitch engine)) (fun _ => rfl) (fun m => ?_) rfl
  dsimp only
  split
  · exact .within (.when (.of (m.setEngine_sameBut _ _) rfl)) rfl
  · exact .within .refl rfl

theorem framed_chkJobComplete (unit : Nat) : CommandFramed (.chkJobComplete unit) := by
  refine commandFramed_unit (ps := footprint (.chkJobComplete unit)) (fun _ => rfl) (fun m => ?_) rfl
  have hscan : Mod.framed _ m (m.chkScan unit ⟨[], [], [], []⟩) := ⟨m.chkScan_sameBut _ _, m.chkScan_keepsMem _ _⟩
  dsimp only
  split
  · exact .within (.lastWhen (.of (Mod.chkEnd_sameBut _ _ _ _) rfl) hscan) rfl
  · exact .within hscan rfl

/-! ### The host port and the event unit -/

theorem framed_msixUnmask (what : Unmask) : CommandFramed (.msixUnmask what) := by
  refine commandFramed_on (ps := footprint (.msixUnmask what)) (fun _ => rfl) (fun m => ?_) rfl
  cases what with
  | entry v addr data => exact .within (.when (.last (Mod.sendPending_sameBut _) rfl (.host .refl))) rfl
  | function => exact .within (.last (Mod.sendPending_sameBut _) rfl (.host .refl)) rfl
  | mask v => exact .within (.when (.host .refl)) rfl
  | maskAll => exact .within (.host .refl) rfl
  | disable => exact .within (.host .refl) rfl

theorem framed_mctpControl (sideband : Bool) (req : MctpReq) : CommandFramed (.mctpControl sideband req) := by
  refine commandFramed_on (ps := footprint (.mctpControl sideband req)) (fun _ => rfl) (fun m => ?_) rfl
  dsimp only
  split
  · exact .within .refl rfl
  · split
    case h_1 => exact .within (.emit (.host .refl)) rfl
    case h_8 => exact .within .refl rfl
    all_goals exact .within (.emit .refl) rfl

theorem framed_pldmMonitoring (sideband : Bool) (req : PldmReq) : CommandFramed (.pldmMonitoring sideband req) := by
  refine commandFramed_on (ps := footprint (.pldmMonitoring sideband req)) (fun _ => rfl) (fun m => ?_) rfl
  dsimp only
  split
  · exact .within .refl rfl
  · cases req with
    | setCap watts => exact .within (.emit (.of (m.capWrite_sameBut _ _) rfl)) rfl
    | readTemp _ | readPower | readVoltage | other _ => exact .within (.emit .refl) rfl

theorem framed_eventLogRead (sideband : Bool) (index : Nat) (ack : Option Nat) : CommandFramed (.eventLogRead sideband index ack) := by
  refine commandFramed_of_state (ps := footprint (.eventLogRead sideband index ack)) (fun _ => rfl) (fun s => ?_) (fun _ => rfl) (fun _ => rfl) rfl
  cases ack with
  | some v => exact .within (.when (.last (Mod.logAck_sameBut _ _) rfl (.emit .refl))) rfl
  | none => exact .within (.when (.emit .refl)) rfl

/-- A record dropped is counted in registers. -/
theorem State.dropRec_framed (s : State) (r : EvRec) : Mod.framed [.regs] s.m (s.dropRec r).m := by
  have hcount := Mod.sameBut_trans (s.m.produced_sameBut r.cls) (Mod.countDrop_sameBut _)
  unfold State.dropRec
  dsimp only
  split
  · exact .of (Mod.sameBut_trans hcount (Mod.fsat_sameBut _ _ _ _ _)) rfl
  · exact .of hcount rfl

/-- A record accepted is counted in registers and seen by the trace. -/
theorem State.accept_framed (s : State) (r : EvRec) : Mod.framed [.regs, .dbg] s.m (s.accept r).m := by
  have hin := s.m.recordIn_sameBut r
  unfold State.accept
  dsimp only
  split
  · exact .of hin rfl
  · dsimp only
    split
    · exact .of hin rfl
    · exact .of (Mod.sameBut_trans hin (Mod.sameBut_mono (Mod.countDrop_sameBut _) (by decide))) rfl

theorem State.accept_pending (s : State) (r : EvRec) : (s.accept r).pending = s.pending := by
  unfold State.accept
  dsimp only
  split <;> rfl

theorem framed_eventProduced : CommandFramed .eventProduced := by
  intro s
  simp only [exec, execEventProduced]
  split
  · exact ⟨s, rfl, rfl, .within .refl rfl, nofun⟩
  · split
    · exact ⟨s, rfl, rfl, .within .refl rfl, nofun⟩
    · split
      · exact ⟨_, rfl, State.accept_pending _ _, .within (.after (State.accept_framed _ _) (.evIn .refl)) rfl, nofun⟩
      · split
        · exact ⟨_, rfl, rfl, .within (.after (State.dropRec_framed _ _) (.evIn .refl)) rfl, nofun⟩
        · exact ⟨s, rfl, rfl, .within .refl rfl, nofun⟩

theorem framed_eventDropped : CommandFramed .eventDropped := by
  intro s
  simp only [exec, execEventDropped]
  split
  · exact ⟨_, rfl, rfl, .within (.of (s.m.recordIn_sameBut _) rfl) rfl, nofun⟩
  · exact ⟨s, rfl, rfl, .within .refl rfl, nofun⟩

theorem framed_ringRecordWrite : CommandFramed .ringRecordWrite := by
  intro s
  simp only [exec, execRingRecordWrite]
  split
  · exact ⟨s, rfl, rfl, .within .refl rfl, nofun⟩
  · split
    · exact ⟨_, rfl, (State.verdictSend_sameBut _).pending, .within (.verdictSend (.last (Mod.classVector_sameBut _ _) rfl
        (.emit (.last (Mod.fcount_sameBut _ _ _ _ _) rfl (.emit .refl))))) rfl, nofun⟩
    · exact ⟨s, rfl, rfl, .within .refl rfl, nofun⟩

/-! ### Resets -/

theorem Mod.framed.coldBegin {ps : List Part} {l m : Mod} {source : Nat} (h : Mod.framed ps l m) :
    Mod.framed ([.regs, .evIn, .host, .pwr, .tick, .plt, .sched, .cores, .step, .mem, .pool, .pad, .stm, .groom, .coll, .chk, .fab, .sec, .dbg]
      ++ ps) l (m.coldBegin source) := .after ⟨m.coldBegin_sameBut source, m.coldBegin_keepsMem source⟩ h

theorem Mod.framed.fundamentalBegin {ps : List Part} {l m : Mod} {source : Nat} (h : Mod.framed ps l m) :
    Mod.framed ([.regs, .evIn, .host, .pwr, .tick, .plt, .sched, .cores, .step, .mem, .pool, .pad, .stm, .groom, .coll, .chk, .fab, .sec, .dbg]
      ++ ps) l (m.fundamentalBegin source) := .after ⟨m.fundamentalBegin_sameBut source, m.fundamentalBegin_keepsMem source⟩ h

theorem Mod.framed.fundamentalEnd {ps : List Part} {l m : Mod} {boot : Boot} (h : Mod.framed ps l m) :
    Mod.framed ([.regs, .evIn, .host, .pwr, .tick, .plt, .mem, .fab, .sec, .dbg] ++ ps) l (m.fundamentalEnd boot) :=
  .after ⟨m.fundamentalEnd_sameBut boot, m.fundamentalEnd_keepsMem boot⟩ h

theorem framed_powerApplied (boot : Boot) : CommandFramed (.powerApplied boot) := by
  intro s
  refine ⟨_, rfl, ?_⟩
  split
  · exact ⟨rfl, .within .refl rfl, nofun⟩
  · exact ⟨rfl, .within (.after ⟨Mod.coldEnd_sameBut _ _, Mod.coldEnd_keepsMem _ _⟩ (.coldBegin .refl)) rfl, nofun⟩

theorem framed_supplyResetAssert (mv : Nat) : CommandFramed (.supplyResetAssert mv) := by
  intro s
  refine ⟨_, rfl, ?_⟩
  split
  · exact ⟨rfl, .within (.coldBegin (.pwr .refl)) rfl, nofun⟩
  · exact ⟨rfl, .within .refl rfl, nofun⟩

theorem framed_thermtrip (sensor : Nat) (degC : Int) : CommandFramed (.thermtrip sensor degC) := by
  intro s
  refine ⟨_, rfl, ?_⟩
  split
  · exact ⟨rfl, .within (.emit (.pwr (.coldBegin (.pwr .refl)))) rfl, nofun⟩
  · exact ⟨rfl, .within .refl rfl, nofun⟩

/-- The entry into OFF replaces power, the host port, the tick master and the security engine. -/
theorem Mod.offEntered_sameBut (m : Mod) (host : HostUnit) (pwr : PwrUnit) (tick : TickUnit) (sec : SecUnit) :
    Mod.sameBut [.host, .pwr, .tick, .sec] m { m with host := host, pwr := pwr, tick := tick, sec := sec } := by
  constructor <;> intro hp
  case host | pwr | tick | sec => exact (hp (by decide)).elim
  all_goals rfl

theorem framed_perstAssert : CommandFramed .perstAssert := by
  intro s
  refine ⟨_, rfl, ?_⟩
  split
  · exact ⟨rfl, .within .refl rfl, nofun⟩
  · dsimp only
    split
    · exact ⟨rfl, .within (.pwr .refl) rfl, nofun⟩
    · split
      · exact ⟨rfl, .within (.of (s.m.offEntered_sameBut _ _ _ _) rfl) rfl, nofun⟩
      · exact ⟨rfl, .within (.fundamentalBegin (.pwr .refl)) rfl, nofun⟩

theorem framed_perstDeassert (boot : Boot) : CommandFramed (.perstDeassert boot) := by
  intro s
  refine ⟨_, rfl, ?_⟩
  split
  · exact ⟨rfl, .within .refl rfl, nofun⟩
  · dsimp only
    split
    · exact ⟨rfl, .within (.pwr .refl) rfl, nofun⟩
    · split
      · exact ⟨rfl, .within (.fundamentalEnd (.fundamentalBegin (.pwr .refl))) rfl, nofun⟩
      · split
        · exact ⟨rfl, .within (.fundamentalEnd (.pwr .refl)) rfl, nofun⟩
        · exact ⟨rfl, .within (.pwr .refl) rfl, nofun⟩

/-! ### Security and power -/

theorem framed_loadKey (via : AttPath) (slot : Nat) (ciphertext iv wrapped : List Byte) : CommandFramed (.loadKey via slot ciphertext iv wrapped) := by
  refine commandFramed_att (ps := footprint (.loadKey via slot ciphertext iv wrapped)) (fun _ => rfl) (fun m => ?_) rfl
  split
  · exact .within (.of (m.attReply_sameBut _ _ _ _ _) rfl) rfl
  · split
    · exact .within (.of (m.attReply_sameBut _ _ _ _ _) rfl) rfl
    · split
      · exact .within (.of (m.keyRefused_sameBut _ _ _) rfl) rfl
      · split
        · exact .within (.of (m.keyRefused_sameBut _ _ _) rfl) rfl
        · exact .within (.last (Mod.attReply_sameBut _ _ _ _ _ _) rfl (.sec .refl)) rfl

theorem framed_getQuote (via : AttPath) (nonce : List Byte) (wait : Nat) : CommandFramed (.getQuote via nonce wait) :=
  commandFramed_att (fun _ => rfl) (fun m => .ite (.of (m.attReply_sameBut _ _ _ _ _) rfl) (.ite (.last (Mod.attReply_sameBut _ _ _ _ _ _) rfl (.raise .refl))
    (.ite (.of (m.attReply_sameBut _ _ _ _ _) rfl) (.ite (.of (m.attReply_sameBut _ _ _ _ _) rfl)
      (.last (Mod.attReply_sameBut _ _ _ _ _ _) rfl (.of (m.drawIndex_sameBut _) rfl)))))) rfl

/-- A command of the debug module, discarded without an unlock (18_debug.md R451). -/
theorem Mod.framed.dbgGate {ps : List Part} {m : Mod} {f : Mod → Mod} (h : Mod.framed ps m (f m)) : Mod.framed ([.regs] ++ ps) m (m.dbgGate f) :=
  .ite (.of (m.fset_sameBut _ _ _ _) rfl) h

/-- A command of the TAP that moves the pins, BYPASS while PERST# is deasserted (18_debug.md R454). -/
theorem Mod.framed.tapPins {ps : List Part} {m : Mod} {f : Mod → Mod} (h : Mod.framed ps m (f m)) :
    Mod.framed (ps ++ ([.host, .dbg] ++ ([.regs] ++ []))) m (m.tapPins f) := .ite h (.last (Mod.tapShift_sameBut _ _ _) rfl (.fset .refl))

/-! ### Every command -/

/-- Every command completes within its footprint. -/
theorem commandFramed (c : Instr) : CommandFramed c := by
  cases c with
  | registerWrite off word => exact commandFramed_reg (fun _ => rfl) (fun m => .when (.regRoute m _ _ _)) rfl
  | readLoSnapshot read => exact framed_readLoSnapshot read
  | writeHiCommit off val => exact commandFramed_reg (fun _ => rfl) (fun m => .when (.regRoute m _ _ _)) rfl
  | pendingFieldApply => exact commandFramed_on (fun _ => rfl) (fun m => .when (.last (Mod.setBudget_sameBut _) rfl (.of m.applyDue_sameBut rfl))) rfl
  | bar2Write off data ecc tlp => exact framed_bar2Write off data ecc tlp
  | bar2Read off len ecc tlp => exact framed_bar2Read off len ecc tlp
  | slotOpen slot => exact commandFramed_reg (fun _ => rfl) (fun m => .of (m.slotCmd_sameBut _ _) rfl) rfl
  | slotProve slot => exact commandFramed_reg (fun _ => rfl) (fun m => .of (m.slotCmd_sameBut _ _) rfl) rfl
  | slotClear slot => exact commandFramed_reg (fun _ => rfl) (fun m => .of (m.slotCmd_sameBut _ _) rfl) rfl
  | proofComplete slot ecc => exact commandFramed_unit (fun _ => rfl) (fun m => .when ⟨m.proofDone_sameBut _ _, m.proofDone_keepsMem _ _⟩) rfl
  | plateActivate slot => exact commandFramed_reg (fun _ => rfl) (fun m => .of (m.actCmd_sameBut _ _) rfl) rfl
  | plateDeactivate => exact commandFramed_reg (fun _ => rfl) (fun m => .of (m.actCmd_sameBut _ _) rfl) rfl
  | plateCancel => exact commandFramed_reg (fun _ => rfl) (fun m => .of (m.actCmd_sameBut _ _) rfl) rfl
  | activationTakesEffect => exact framed_activationTakesEffect
  | deactivationTakesEffect => exact framed_deactivationTakesEffect
  | routeUpdateTakesEffect => exact framed_routeUpdateTakesEffect
  | tickBoundary input energy => exact framed_tickBoundary input energy
  | tckPeriodWrite val => exact commandFramed_reg (fun _ => rfl) (fun m => .of (m.periodWrite_sameBut _) rfl) rfl
  | upstreamFailover => exact framed_upstreamFailover
  | tickInEdge err => exact commandFramed_on (fun _ => rfl) (fun _ => .when (.tick .refl)) rfl
  | tickInLost => exact commandFramed_on (fun _ => rfl) (fun _ => .when (.raise (.fset (.tick .refl)))) rfl
  | barrierSignal id => exact framed_barrierSignal id
  | stepTimeout => exact commandFramed_unit (fun _ => rfl) (fun _ => .when (.raiseStep .refl)) rfl
  | kernelStart core => exact commandFramed_unit (fun _ => rfl) (fun m => .of (m.kernelStart_sameBut _) rfl) rfl
  | kernelComplete core => exact commandFramed_unit (fun _ => rfl) (fun m => .of (m.kernelComplete_sameBut _) rfl) rfl
  | matmul core ecc => exact commandFramed_unit (fun _ => rfl) (fun m => ⟨m.matKernel_sameBut _ _ _ _, m.matKernel_keepsMem _ _ _ _⟩) rfl
  | conv core ecc => exact commandFramed_unit (fun _ => rfl) (fun m => ⟨m.matKernel_sameBut _ _ _ _, m.matKernel_keepsMem _ _ _ _⟩) rfl
  | attnForward core ecc => exact commandFramed_unit (fun _ => rfl) (fun m => ⟨m.attnKernel_sameBut _ _ _ _, m.attnKernel_keepsMem _ _ _ _⟩) rfl
  | attnMerge core ecc => exact commandFramed_unit (fun _ => rfl) (fun m => ⟨m.attnKernel_sameBut _ _ _ _, m.attnKernel_keepsMem _ _ _ _⟩) rfl
  | attnBackward core ecc => exact commandFramed_unit (fun _ => rfl) (fun m => ⟨m.attnKernel_sameBut _ _ _ _, m.attnKernel_keepsMem _ _ _ _⟩) rfl
  | attnKvGrad core ecc => exact commandFramed_unit (fun _ => rfl) (fun m => ⟨m.attnKernel_sameBut _ _ _ _, m.attnKernel_keepsMem _ _ _ _⟩) rfl
  | element core ecc => exact commandFramed_unit (fun _ => rfl) (fun m => .when ⟨m.sramKernel_sameBut _ _ _ _, m.sramKernel_keepsMem _ _ _ _⟩) rfl
  | reduce core ecc => exact commandFramed_unit (fun _ => rfl) (fun m => ⟨m.sramKernel_sameBut _ _ _ _, m.sramKernel_keepsMem _ _ _ _⟩) rfl
  | scan core ecc => exact commandFramed_unit (fun _ => rfl) (fun m => .kernelOn m _ _ _ _ (fun x st _ k => ⟨x.scanWork_sameBut core st k ecc, x.scanWork_keepsMem core st k ecc⟩)) rfl
  | gather core ecc => exact commandFramed_unit (fun _ => rfl) (fun m => .kernelOn m _ _ _ _ (fun x st i k => ⟨x.gatherWork_sameBut core i st k ecc, x.gatherWork_keepsMem core i st k ecc⟩)) rfl
  | scatter core ecc => exact commandFramed_unit (fun _ => rfl) (fun m => .kernelOn m _ _ _ _ (fun x st i k => ⟨x.scatterWork_sameBut core i st k ecc, x.scatterWork_keepsMem core i st k ecc⟩)) rfl
  | transpose core ecc => exact commandFramed_unit (fun _ => rfl) (fun m => ⟨m.sramKernel_sameBut _ _ _ _, m.sramKernel_keepsMem _ _ _ _⟩) rfl
  | copy core ecc => exact commandFramed_unit (fun _ => rfl) (fun m => .kernelOn m _ _ _ _ (fun x st i k => ⟨x.copyWork_sameBut core i st k ecc, x.copyWork_keepsMem core i st k ecc⟩)) rfl
  | topk core ecc => exact commandFramed_unit (fun _ => rfl) (fun m => ⟨m.sramKernel_sameBut _ _ _ _, m.sramKernel_keepsMem _ _ _ _⟩) rfl
  | elemEnd eng w => exact commandFramed_unit (fun _ => rfl) (fun m => ⟨m.elemEndStep_sameBut _, m.elemEndStep_keepsMem _⟩) rfl
  | mov eng w => exact framed_element (fun _ => rfl) rfl
  | add eng w => exact framed_element (fun _ => rfl) rfl
  | sub eng w => exact framed_element (fun _ => rfl) rfl
  | mul eng w => exact framed_element (fun _ => rfl) rfl
  | fma eng w => exact framed_element (fun _ => rfl) rfl
  | fms eng w => exact framed_element (fun _ => rfl) rfl
  | div eng w => exact framed_element (fun _ => rfl) rfl
  | recip eng w => exact framed_element (fun _ => rfl) rfl
  | sqrt eng w => exact framed_element (fun _ => rfl) rfl
  | rsqrt eng w => exact framed_element (fun _ => rfl) rfl
  | exp2 eng w => exact framed_element (fun _ => rfl) rfl
  | log2 eng w => exact framed_element (fun _ => rfl) rfl
  | tanh eng w => exact framed_element (fun _ => rfl) rfl
  | max eng w => exact framed_element (fun _ => rfl) rfl
  | min eng w => exact framed_element (fun _ => rfl) rfl
  | abs eng w => exact framed_element (fun _ => rfl) rfl
  | neg eng w => exact framed_element (fun _ => rfl) rfl
  | sign eng w => exact framed_element (fun _ => rfl) rfl
  | clamp eng w => exact framed_element (fun _ => rfl) rfl
  | cmplt eng w => exact framed_element (fun _ => rfl) rfl
  | cmpeq eng w => exact framed_element (fun _ => rfl) rfl
  | sel eng w => exact framed_element (fun _ => rfl) rfl
  | cvt eng w => exact framed_element (fun _ => rfl) rfl
  | srnd eng w => exact framed_element (fun _ => rfl) rfl
  | nacc eng w => exact framed_element (fun _ => rfl) rfl
  | kernelHang core => exact framed_kernelHang core
  | stableReset core => exact commandFramed_reg (fun _ => rfl) (fun m => ⟨m.stableReset_sameBut _ _, m.stableReset_keepsMem _ _⟩) rfl
  | coreBist core => exact commandFramed_reg (fun _ => rfl) (fun m => ⟨m.bistStart_sameBut _, m.bistStart_keepsMem _⟩) rfl
  | bistComplete core fail => exact framed_bistComplete core fail
  | coreClrSat core => exact commandFramed_reg (fun _ => rfl) (fun _ => .fset (.fset .refl)) rfl
  | watchPartialMerge tensor part ecc => exact commandFramed_unit (fun _ => rfl) (fun m => ⟨m.watchMerge_sameBut _ _ _ _, m.watchMerge_keepsMem _ _ _ _⟩) rfl
  | stashPlace stream => exact framed_stashPlace stream
  | padClrLow => exact commandFramed_reg (fun _ => rfl) (fun _ => .fset .refl) rfl
  | stepszNextWrite val => exact commandFramed_reg (fun _ => rfl) (fun m => .of (m.stepszWrite_sameBut _) rfl) rfl
  | stepNextWrite val => exact commandFramed_reg (fun _ => rfl) (fun m => .of (m.stepArm_sameBut _) rfl) rfl
  | kdataWrite k val => exact commandFramed_reg (fun _ => rfl) (fun m => .of (m.kdataWrite_sameBut _ _) rfl) rfl
  | ksetWrite val => exact commandFramed_reg (fun _ => rfl) (fun m => .of (m.ksetWrite_sameBut _) rfl) rfl
  | stepStart => exact framed_stepStart
  | groomPassStart binding => exact commandFramed_unit (fun _ => rfl) (fun m => .of (m.passStart_sameBut _) rfl) rfl
  | groomSliceProcess unit ecc => exact commandFramed_unit (fun _ => rfl) (fun m => .after ⟨Mod.collProgress_sameBut _ _, Mod.collProgress_keepsMem _ _⟩ ⟨m.sliceProcess_sameBut _ _, m.sliceProcess_keepsMem _ _⟩) rfl
  | groomPassComplete unit ecc => exact commandFramed_unit (fun _ => rfl) (fun m => ⟨m.passComplete_sameBut _ _, m.passComplete_keepsMem _ _⟩) rfl
  | grmClrSat unit => exact commandFramed_reg (fun _ => rfl) (fun _ => .fset .refl) rfl
  | reconcileCopy binding ecc => exact commandFramed_unit (fun _ => rfl) (fun m => .last (Mod.actionsEnd_sameBut _) rfl ⟨m.reconcileCopy_sameBut _ _, m.reconcileCopy_keepsMem _ _⟩) rfl
  | sendReductionRecord => exact commandFramed_unit (fun _ => rfl) (fun m => .of m.sendRecord_sameBut rfl) rfl
  | normRecordReceived => exact framed_normRecordReceived
  | verdictReceived => exact framed_verdictReceived
  | verdictActions ecc => exact framed_verdictActions ecc
  | verdictTimeout => exact commandFramed_unit (fun _ => rfl) (fun _ => .when (.last (Mod.takeVerdict_sameBut _ _) rfl (.last (Mod.faultVerdict_sameBut _ _) rfl (.raise .refl)))) rfl
  | deferredPass binding ecc => exact commandFramed_unit (fun _ => rfl) (fun m => ⟨m.deferredPass_sameBut _ _, m.deferredPass_keepsMem _ _⟩) rfl
  | drainPass ecc => exact commandFramed_unit (fun _ => rfl) (fun m => ⟨m.drainPass_sameBut _, m.drainPass_keepsMem _⟩) rfl
  | patrolScrub ecc => exact framed_patrolScrub ecc
  | hbmStackDown stack training => exact commandFramed_unit (fun _ => rfl) (fun m => .unless (.of (m.stackDown_sameBut _ _) rfl)) rfl
  | loftLinkDown port held => exact commandFramed_unit (fun _ => rfl) (fun m => .when ⟨m.linkDown_sameBut _ _ _, m.linkDown_keepsMem _ _ _⟩) rfl
  | loftLinkReturn port => exact framed_loftLinkReturn port
  | loftLinkLost port => exact framed_loftLinkLost port
  | loftRetrain port width speed => exact commandFramed_reg (fun _ => rfl) (fun m => ⟨m.loftRetrain_sameBut _ _ _, m.loftRetrain_keepsMem _ _ _⟩) rfl
  | lftCfgWrite val => exact commandFramed_reg (fun _ => rfl) (fun m => .of (m.loftCfg_sameBut _) rfl) rfl
  | loftPoison port addr inStep => exact framed_loftPoison port addr inStep
  | loftViral port => exact commandFramed_unit (fun _ => rfl) (fun _ => .when (.raise (.fset (.fset .refl)))) rfl
  | loftDevEvent port log head => exact commandFramed_unit (fun _ => rfl) (fun _ => .when (.raise (.fset .refl))) rfl
  | poolMoveUp home user => exact commandFramed_unit (fun _ => rfl) (fun m => ⟨m.moveUp_sameBut _ _, m.moveUp_keepsMem _ _⟩) rfl
  | poolUnpin home user => exact commandFramed_unit (fun _ => rfl) (fun m => ⟨m.unpin_sameBut _, m.unpin_keepsMem _⟩) rfl
  | moveUpComplete home ecc => exact framed_moveUpComplete home ecc
  | writebackComplete home ecc => exact framed_writebackComplete home ecc
  | poolExhausted home user => exact framed_poolExhausted home user
  | remoteWrite ecc => exact framed_remoteWrite ecc
  | readReq ecc => exact framed_readReq ecc
  | readResp => exact framed_readResp
  | streamTileStart stream ecc => exact framed_streamTileStart stream ecc
  | streamTileDelivered stream ecc => exact framed_streamTileDelivered stream ecc
  | etchBlockExpand engine ecc => exact framed_etchBlockExpand engine ecc
  | decodeTableLoad ecc => exact commandFramed_reg (fun _ => rfl) (fun m => ⟨m.tableCmd_sameBut _, m.tableCmd_keepsMem _⟩) rfl
  | decodeTableSwitch engine => exact framed_decodeTableSwitch engine
  | stmClrSat engine => exact commandFramed_reg (fun _ => rfl) (fun _ => .fset .refl) rfl
  | probeTimer port => exact commandFramed_unit (fun _ => rfl) (fun _ => .when (.emit (.setPort .refl))) rfl
  | signalDetected port => exact commandFramed_unit (fun _ => rfl) (fun _ => .when (.trace (.setPort .refl))) rfl
  | trainingEnd port lanes failed delay => exact framed_trainingEnd port lanes failed delay
  | flitReceived port f => exact framed_flitReceived port f
  | linkRetryTimeout port => exact commandFramed_unit (fun _ => rfl) (fun m => .when (.of (m.retryRound_sameBut _) rfl)) rfl
  | creditWaitLong port cls vl us => exact commandFramed_unit (fun _ => rfl) (fun _ => .when (.raise (.fset (.setPort .refl)))) rfl
  | controlFlitReceived port body => exact framed_controlFlitReceived port body
  | markReceived port arrival phase count period => exact framed_markReceived port arrival phase count period
  | echoReceived port arrival turn => exact framed_echoReceived port arrival turn
  | laneFailure port lanes why => exact framed_laneFailure port lanes why
  | retrainComplete port lastAccepted => exact commandFramed_unit (fun _ => rfl) (fun _ => .unless (.lastUnless (.portTo .refl) (.trace (.setPort .refl)))) rfl
  | retrainTimeout port => exact commandFramed_unit (fun _ => rfl) (fun _ => .when (.portTo .refl)) rfl
  | portLinkLoss port cause => exact commandFramed_unit (fun _ => rfl) (fun _ => .ite (.portTo .refl) (.when (.portTo .refl))) rfl
  | portReset port => exact commandFramed_reg (fun _ => rfl) (fun m => .of (m.portReset_sameBut _) rfl) rfl
  | testStart port => exact commandFramed_reg (fun _ => rfl) (fun m => .of (m.testStart_sameBut _) rfl) rfl
  | testStop port => exact commandFramed_reg (fun _ => rfl) (fun m => .of (m.testStop_sameBut _) rfl) rfl
  | e2eAck => exact commandFramed_unit (fun _ => rfl) (fun m => .after ⟨Mod.collProgress_sameBut _ _, Mod.collProgress_keepsMem _ _⟩ (.of m.e2eAck_sameBut rfl)) rfl
  | e2eAckDue src cls => exact commandFramed_unit (fun _ => rfl) (fun m => .when (.of (m.sendAck_sameBut _ _) rfl)) rfl
  | e2eTimeout dest cls => exact framed_e2eTimeout dest cls
  | exchange op ecc => exact commandFramed_unit (fun _ => rfl) (fun m => ⟨m.exchange_sameBut _ _, m.exchange_keepsMem _ _⟩) rfl
  | rows op ecc => exact commandFramed_unit (fun _ => rfl) (fun m => ⟨m.rowsServe_sameBut _ _, m.rowsServe_keepsMem _ _⟩) rfl
  | allreduce op ecc => exact commandFramed_unit (fun _ => rfl) (fun m => ⟨m.allreduce_sameBut _ _, m.allreduce_keepsMem _ _⟩) rfl
  | fence op => exact commandFramed_unit (fun _ => rfl) (fun m => ⟨m.fenceServe_sameBut _, m.fenceServe_keepsMem _⟩) rfl
  | collFlit ecc => exact commandFramed_unit (fun _ => rfl) (fun m => ⟨m.collFlit_sameBut _, m.collFlit_keepsMem _⟩) rfl
  | colClrSat reducer => exact commandFramed_reg (fun _ => rfl) (fun _ => .fset .refl) rfl
  | hostLinkTrained width speed => exact commandFramed_on (fun _ => rfl) (fun _ => .when (.lastUnless (.raise .refl) (.fset (.fset (.fset (.host .refl)))))) rfl
  | flr => exact commandFramed_on (fun _ => rfl) (fun m => ⟨m.pcieFunctionReset_sameBut _, m.pcieFunctionReset_keepsMem _⟩) rfl
  | hotReset => exact commandFramed_on (fun _ => rfl) (fun m => ⟨m.pcieFunctionReset_sameBut _, m.pcieFunctionReset_keepsMem _⟩) rfl
  | dlDown => exact commandFramed_on (fun _ => rfl) (fun _ => .when (.after ⟨Mod.pcieFunctionReset_sameBut _ _, Mod.pcieFunctionReset_keepsMem _ _⟩ (.raise (.host .refl)))) rfl
  | perstAssert => exact framed_perstAssert
  | perstDeassert boot => exact framed_perstDeassert boot
  | powerApplied boot => exact framed_powerApplied boot
  | bar2BaseWrite hi val => exact commandFramed_reg (fun _ => rfl) (fun m => .of (m.bar2BaseWrite_sameBut _ _) rfl) rfl
  | bar2Resize lg => exact commandFramed_on (fun _ => rfl) (fun _ => .when (.last (Mod.set64_sameBut _ _ _ _ _) rfl (.host .refl))) rfl
  | ringCtrlWrite val => exact commandFramed_reg (fun _ => rfl) (fun m => .of (m.ringCtrl_sameBut _) rfl) rfl
  | ringAddrWrite off val => exact framed_ringAddrWrite off val
  | ringConsWrite val => exact commandFramed_reg (fun _ => rfl) (fun m => .of (m.ringCons_sameBut _) rfl) rfl
  | eventProduced => exact framed_eventProduced
  | ringRecordWrite => exact framed_ringRecordWrite
  | eventDropped => exact framed_eventDropped
  | coalesceExpiry cls => exact commandFramed_on (fun _ => rfl) (fun _ => .ite (.host (.msix .refl)) (.host .refl)) rfl
  | msixUnmask what => exact framed_msixUnmask what
  | logAckWrite val => exact commandFramed_reg (fun _ => rfl) (fun m => .of (m.logAck_sameBut _) rfl) rfl
  | doeRequest protocol object => exact commandFramed_on (fun _ => rfl) (fun m => .unless (.ite (.of m.doeError_sameBut rfl) (.ite (.msix (.emit .refl)) (.ite (.host .refl) (.msix (.emit .refl)))))) rfl
  | doeAbort => exact commandFramed_on (fun _ => rfl) (fun _ => .host .refl) rfl
  | getInfo via => exact commandFramed_att (fun _ => rfl) (fun m => .of (m.attReply_sameBut _ _ _ _ _) rfl) rfl
  | getEndorsement via => exact commandFramed_att (fun _ => rfl) (fun m => .of (m.attReply_sameBut _ _ _ _ _) rfl) rfl
  | getMeasurements via => exact commandFramed_att (fun _ => rfl) (fun m => .of (m.attReply_sameBut _ _ _ _ _) rfl) rfl
  | getQuote via nonce wait => exact framed_getQuote via nonce wait
  | getKemKey via => exact commandFramed_att (fun _ => rfl) (fun m => .of (m.attReply_sameBut _ _ _ _ _) rfl) rfl
  | loadKey via slot ciphertext iv wrapped => exact framed_loadKey via slot ciphertext iv wrapped
  | clearKey via slot => exact commandFramed_att (fun _ => rfl) (fun m => .ite (.of (m.attReply_sameBut _ _ _ _ _) rfl) (.ite (.of (m.attReply_sameBut _ _ _ _ _) rfl) (.last (Mod.attReply_sameBut _ _ _ _ _ _) rfl (.sec .refl)))) rfl
  | keySlotApply => exact commandFramed_on (fun _ => rfl) (fun _ => .when (.sec .refl)) rfl
  | mctpControl sideband req => exact framed_mctpControl sideband req
  | pldmMonitoring sideband req => exact framed_pldmMonitoring sideband req
  | eventLogRead sideband index ack => exact framed_eventLogRead sideband index ack
  | fwuBegin path => exact commandFramed_via (fun _ => rfl) (fun m => .of (m.fwuBegin_sameBut _) rfl) rfl
  | fwuHeader path data => exact commandFramed_via (fun _ => rfl) (fun m => .of (m.fwuHeader_sameBut _ _) rfl) rfl
  | fwuList path data => exact commandFramed_via (fun _ => rfl) (fun m => .of (m.fwuList_sameBut _ _) rfl) rfl
  | fwuBlock path data => exact commandFramed_via (fun _ => rfl) (fun m => .of (m.fwuBlock_sameBut _ _) rfl) rfl
  | fwuEnd path => exact commandFramed_via (fun _ => rfl) (fun m => .of (m.fwuEnd_sameBut _) rfl) rfl
  | fwuActivate path boot => exact commandFramed_via (fun _ => rfl) (fun m => ⟨m.fwuActivate_sameBut _ _, m.fwuActivate_keepsMem _ _⟩) rfl
  | fwuAbort path => exact commandFramed_via (fun _ => rfl) (fun m => .of (m.fwuAbort_sameBut _) rfl) rfl
  | nonce path => exact commandFramed_via (fun _ => rfl) (fun m => .of (m.nonceDraw_sameBut _) rfl) rfl
  | nonceExpiry => exact commandFramed_tap (fun _ => rfl) (fun _ => .fset .refl) rfl
  | dbgUnlock path token => exact commandFramed_via (fun _ => rfl) (fun m => .of (m.dbgUnlock_sameBut _ _) rfl) rfl
  | dbgRelock path => exact commandFramed_via (fun _ => rfl) (fun m => .last (Mod.cmdDone_sameBut _ _ _ _) rfl (.of m.unlockEnd_sameBut rfl)) rfl
  | unlockExpiry => exact commandFramed_tap (fun _ => rfl) (fun m => .when (.of m.unlockEnd_sameBut rfl)) rfl
  | setPolicy path record => exact commandFramed_via (fun _ => rfl) (fun m => .of (m.policyRecord_sameBut _ _) rfl) rfl
  | fwConfirm => exact commandFramed_on (fun _ => rfl) (fun m => .when (.fset (.fset (.sec (.of (m.setMark_sameBut _ _) rfl))))) rfl
  | fwConfirmTimeout => exact commandFramed_on (fun _ => rfl) (fun _ => .when (.raise (.fset (.fset (.sec .refl))))) rfl
  | supplyWarnAssert mv => exact commandFramed_on (fun _ => rfl) (fun _ => .when (.fset (.last (Mod.floorSetting_sameBut _) rfl (.pwr .refl)))) rfl
  | supplyWarnClear mv us => exact commandFramed_on (fun _ => rfl) (fun _ => .when (.raise (.fset (.fset (.fset (.pwr .refl)))))) rfl
  | warnHoldExpiry => exact commandFramed_on (fun _ => rfl) (fun _ => .when (.pwr .refl)) rfl
  | supplyPark mv => exact commandFramed_on (fun _ => rfl) (fun _ => .when (.last (Mod.parkDue_sameBut _) rfl (.raise (.fset (.pwr .refl))))) rfl
  | supplyResetAssert mv => exact framed_supplyResetAssert mv
  | tempSample sensor degC => exact commandFramed_on (fun _ => rfl) (fun _ => .when (.last (Mod.criticalCheck_sameBut _ _ _) rfl (.last (Mod.throttleCheck_sameBut _ _ _) rfl (.pwr .refl)))) rfl
  | thermalStepTimer => exact commandFramed_on (fun _ => rfl) (fun _ => .when (.ite (.when (.pwr .refl)) (.when (.pwr .refl)))) rfl
  | thermtrip sensor degC => exact framed_thermtrip sensor degC
  | profileRequest path req => exact commandFramed_via (fun _ => rfl) (fun m => .of (m.profileRequest_sameBut _ _) rfl) rfl
  | capWrite path watts => exact commandFramed_via (fun _ => rfl) (fun m => .of (m.capWrite_sameBut _ _) rfl) rfl
  | defaultProfileWrite path val => exact commandFramed_via (fun _ => rfl) (fun m => .of (m.defaultWrite_sameBut _ _) rfl) rfl
  | parkRequest path => exact commandFramed_via (fun _ => rfl) (fun m => .of m.parkRequest_sameBut rfl) rfl
  | parkEntry => exact commandFramed_unit (fun _ => rfl) (fun _ => .when (.last (Mod.hbmTo_sameBut _ _ _) rfl (.last (Mod.portsPower_sameBut _) rfl (.pwr .refl)))) rfl
  | activeRequest path => exact commandFramed_via (fun _ => rfl) (fun m => .of m.activeRequest_sameBut rfl) rfl
  | fabricWake port => exact commandFramed_on (fun _ => rfl) (fun m => .when (.of m.parkExit_sameBut rfl)) rfl
  | idleEntry => exact commandFramed_unit (fun _ => rfl) (fun _ => .when (.pwr .refl)) rfl
  | softReset path key boot => exact commandFramed_via (fun _ => rfl) (fun m => ⟨m.softRequest_sameBut _ _ _, m.softRequest_keepsMem _ _ _⟩) rfl
  | d3hotEntry => exact commandFramed_on (fun _ => rfl) (fun m => .when (.of m.sleepEnter_sameBut rfl)) rfl
  | d0Entry => exact commandFramed_on (fun _ => rfl) (fun m => .when (.last (Mod.freezePin_sameBut _) rfl (.lastWhen (.emit (.pwr .refl)) (.of m.parkExit_sameBut rfl)))) rfl
  | bmcWakeRequest => exact commandFramed_on (fun _ => rfl) (fun _ => .when (.emit (.pwr .refl))) rfl
  | wakeTimeout => exact commandFramed_on (fun _ => rfl) (fun _ => .when (.emit (.pwr .refl))) rfl
  | mgmtWatchdog core => exact commandFramed_on (fun _ => rfl) (fun _ => .when (.last (Mod.sessionLost_sameBut _ _ _) rfl (.host (.raise (.fsat .refl))))) rfl
  | dbgHalt scope target => exact commandFramed_reg (fun _ => rfl) (fun m => .dbgGate (.of (m.dbgHalt_sameBut _ _) rfl)) rfl
  | dbgResume scope target => exact commandFramed_reg (fun _ => rfl) (fun m => .dbgGate (.of (m.dbgResume_sameBut _ _) rfl)) rfl
  | dbgStep scope target => exact commandFramed_reg (fun _ => rfl) (fun m => .dbgGate (.of (m.dbgStep_sameBut _ _) rfl)) rfl
  | dbgMemRead ecc => exact commandFramed_reg (fun _ => rfl) (fun m => .dbgGate ⟨m.memReadCmd_sameBut _, m.memReadCmd_keepsMem _⟩) rfl
  | dbgMemWrite ecc => exact commandFramed_reg (fun _ => rfl) (fun m => .dbgGate ⟨m.memWriteCmd_sameBut _, m.memWriteCmd_keepsMem _⟩) rfl
  | frzNAssert => exact commandFramed_on (fun _ => rfl) (fun _ => .unless (.last (Mod.freezeAsk_sameBut _ _) rfl (.dbg .refl))) rfl
  | frzCtrlFreeze => exact commandFramed_reg (fun _ => rfl) (fun m => .dbgGate (.of (m.freezeAsk_sameBut _) rfl)) rfl
  | readoutReady => exact commandFramed_on (fun _ => rfl) (fun _ => .when (.raise (.dbg .refl))) rfl
  | frzMemread => exact commandFramed_reg (fun _ => rfl) (fun m => .dbgGate (.of m.memRead_sameBut rfl)) rfl
  | traceStart => exact commandFramed_reg (fun _ => rfl) (fun m => .dbgGate (.of m.traceStart_sameBut rfl)) rfl
  | traceStop => exact commandFramed_reg (fun _ => rfl) (fun m => .dbgGate (.of m.traceStop_sameBut rfl)) rfl
  | idcode => exact commandFramed_tap (fun _ => rfl) (fun m => .of (m.tapShift_sameBut _ _) rfl) rfl
  | samplePreload => exact commandFramed_tap (fun _ => rfl) (fun m => .of (m.tapSample_sameBut _) rfl) rfl
  | extest => exact commandFramed_tap (fun _ => rfl) (fun m => .tapPins (.of (m.tapSample_sameBut _) rfl)) rfl
  | tapClamp => exact commandFramed_tap (fun _ => rfl) (fun m => .tapPins (.of (m.tapShift_sameBut _ _) rfl)) rfl
  | highz => exact commandFramed_tap (fun _ => rfl) (fun m => .tapPins (.of (m.tapShift_sameBut _ _) rfl)) rfl
  | dbgAccess write off data => exact framed_dbgAccess write off data
  | bypass => exact commandFramed_tap (fun _ => rfl) (fun m => .of (m.tapShift_sameBut _ _) rfl) rfl
  | tapReset => exact commandFramed_on (fun _ => rfl) (fun _ => .dbg .refl) rfl
  | chkStart unit ecc => exact commandFramed_reg (fun _ => rfl) (fun m => ⟨m.chkHostStart_sameBut _ _, m.chkHostStart_keepsMem _ _⟩) rfl
  | chkAbort unit => exact commandFramed_reg (fun _ => rfl) (fun m => .of (m.chkAbort_sameBut _) rfl) rfl
  | chkPlateJobStart job ecc => exact commandFramed_unit (fun _ => rfl) (fun m => ⟨m.chkPlateStart_sameBut _ _, m.chkPlateStart_keepsMem _ _⟩) rfl
  | chkJobComplete unit => exact framed_chkJobComplete unit
  | flitSlot port phase turn => exact commandFramed_unit (fun _ => rfl) (fun m => .of (m.flitSlot_sameBut _ _ _) rfl) rfl
  | frzNDeassert => exact commandFramed_on (fun _ => rfl) (fun _ => .dbg .refl) rfl
  | railFault => exact commandFramed_on (fun _ => rfl) (fun _ => .pwr .refl) rfl
  | expanderHotAdd port capacity width speed ok => exact framed_expanderHotAdd port capacity width speed ok
  | i3cAddressAssign addr => exact commandFramed_on (fun _ => rfl) (fun _ => .when (.host .refl)) rfl

/-- Settles O3, command by command: each is read as the operations it performs, whose frames add up to its footprint. -/
theorem commandFootprint : Obligations.CommandFootprint := fun c s =>
  let ⟨t, he, hpending, hm, hq⟩ := commandFramed c s
  ⟨t, he, hpending, hm.rest, hq⟩

end Sys2Proof.Machine
end

section
/-! PROOF. The invariant of every step: the bounds of the event unit (14_host_interface.md R375; 20_events.md R489, R490) and the canonical
form of the memories. -/

namespace Sys2Proof.Machine

/-! ### The bounds of the event unit -/

theorem lastN_length_le {α : Type} (n : Nat) (xs : List α) : (lastN n xs).length ≤ n := by
  rw [lastN, List.length_drop]
  omega

section
variable {e : EvtUnit} (h : e.bounded)
include h

/-- A record logged: the log and the tail keep their sizes, and the rest stands. -/
theorem EvtUnit.logIn_eq (ix : Nat) (r : EvRec) :
    ∃ log tail, e.logIn ix r = { e with log := log, tail := tail } ∧ log.length ≤ logSize ∧ tail.length ≤ tailSize := by
  obtain ⟨-, -, htail, -⟩ := h
  refine ⟨_, _, rfl, lastN_length_le _ _, ?_⟩
  split
  · exact lastN_length_le _ _
  · exact htail

theorem EvtUnit.logIn_bounded (ix : Nat) (r : EvRec) : (e.logIn ix r).bounded := by
  obtain ⟨log, tail, he, hlog, htail⟩ := EvtUnit.logIn_eq h ix r
  obtain ⟨haccepted, -, -, hothers⟩ := h
  rw [he]
  exact ⟨haccepted, hlog, htail, hothers⟩

/-- A record queued where a place is left, and dropped where none is. -/
theorem EvtUnit.enqueue_bounded (r : EvRec) : (e.enqueue r).bounded := by
  obtain ⟨haccepted, hlog, htail, hothers⟩ := h
  unfold EvtUnit.enqueue
  split
  · next hroom =>
    refine ⟨haccepted, hlog, htail, ?_⟩
    have hone : ([r].filter (fun r => r.code != codeDropped)).length ≤ 1 := List.length_filter_le _ [r]
    simp only [EvtUnit.others, List.filter_append, List.length_append] at hroom ⊢
    omega
  · exact ⟨haccepted, hlog, htail, hothers⟩

/-- EVENT_DROPPED takes none of the places of the other records. -/
theorem EvtUnit.dropped_queued_bounded {r : EvRec} (hr : r.code = codeDropped) (n : Nat) :
    EvtUnit.bounded { e with queue := e.queue ++ [r], dropsSince := n } := by
  obtain ⟨haccepted, hlog, htail, hothers⟩ := h
  refine ⟨haccepted, hlog, htail, ?_⟩
  simpa [EvtUnit.others, hr] using hothers

/-- The record at the front leaves the queue. -/
theorem EvtUnit.unqueue_bounded {r : EvRec} {rs : List EvRec} (hq : e.queue = r :: rs) : EvtUnit.bounded { e with queue := rs } := by
  obtain ⟨haccepted, hlog, htail, hothers⟩ := h
  refine ⟨haccepted, hlog, htail, le_trans ?_ hothers⟩
  simp only [EvtUnit.others, hq]
  exact ((List.sublist_cons_self r rs).filter _).length_le

theorem EvtUnit.queue_emptied_bounded : EvtUnit.bounded { e with queue := [] } := by
  obtain ⟨haccepted, hlog, htail, -⟩ := h
  exact ⟨haccepted, hlog, htail, Nat.zero_le _⟩

/-- A new tick accepts anew. -/
theorem EvtUnit.accepted_reset_bounded : EvtUnit.bounded { e with accepted := 0 } := by
  obtain ⟨-, hlog, htail, hothers⟩ := h
  exact ⟨Nat.zero_le _, hlog, htail, hothers⟩

theorem EvtUnit.accepted_succ_bounded (hroom : e.accepted < acceptLimit) : EvtUnit.bounded { e with accepted := e.accepted + 1 } := by
  obtain ⟨-, hlog, htail, hothers⟩ := h
  exact ⟨hroom, hlog, htail, hothers⟩

theorem EvtUnit.cold_bounded : e.cold.bounded := by
  obtain ⟨-, -, htail, -⟩ := h
  exact ⟨Nat.zero_le _, Nat.zero_le _, htail, Nat.zero_le _⟩

end

/-- A record kept for the next start-up: the tail keeps its size. -/
theorem State.toTail_bounded {s : State} (h : s.evq.bounded) (r : EvRec) : (s.toTail r).evq.bounded := by
  obtain ⟨haccepted, hlog, -, hothers⟩ := h
  exact ⟨haccepted, hlog, lastN_length_le _ _, hothers⟩

theorem State.accept_bounded {s : State} (h : s.evq.bounded) (r : EvRec) : (s.accept r).evq.bounded := by
  have hlog := EvtUnit.logIn_bounded h (s.m.fget Fld.EVT_LOG_HEAD_INDEX) { r with alive := s.m.fget Fld.EVT_ALIVE_NEXT }
  unfold State.accept
  dsimp only
  split
  · exact hlog
  · exact EvtUnit.enqueue_bounded hlog _

/-! ### The commands that move events -/

/-- What a command answers, where it answers a state that keeps the bounds. -/
def EvtBounded (o : Host.Outcome State Fault Refusal) : Prop := ∀ t, o = .next t → t.evq.bounded

theorem evtBounded_next {t : State} (h : t.evq.bounded) : EvtBounded (.next t) := fun _ e => Host.Outcome.next.inj e ▸ h

theorem State.verdictSend_bounded {s : State} (h : s.evq.bounded) : s.verdictSend.evq.bounded := by
  rw [s.verdictSend_sameBut.evq]
  exact h

section
variable {s : State} (h : s.evq.bounded)
include h

theorem evtBounded_eventProduced : EvtBounded (exec .eventProduced s) := by
  simp only [exec, execEventProduced]
  split
  · exact evtBounded_next h
  · split
    · exact evtBounded_next h
    · split
      · next hroom => exact evtBounded_next (State.accept_bounded (EvtUnit.accepted_succ_bounded h hroom) _)
      · split
        · exact evtBounded_next h
        · exact evtBounded_next h

theorem evtBounded_eventDropped : EvtBounded (exec .eventDropped s) := by
  simp only [exec, execEventDropped]
  split
  · exact evtBounded_next (EvtUnit.dropped_queued_bounded (EvtUnit.logIn_bounded h _ _) rfl 0)
  · exact evtBounded_next h

theorem evtBounded_ringRecordWrite : EvtBounded (exec .ringRecordWrite s) := by
  simp only [exec, execRingRecordWrite]
  split
  · exact evtBounded_next h
  · next hq =>
    split
    · exact evtBounded_next (State.verdictSend_bounded (EvtUnit.unqueue_bounded h hq))
    · exact evtBounded_next h

theorem evtBounded_tickBoundary (input : InputSample) (energy : Nat) : EvtBounded (exec (.tickBoundary input energy) s) := by
  refine evtBounded_next ?_
  split
  · exact State.verdictSend_bounded (EvtUnit.accepted_reset_bounded h)
  · exact h

theorem evtBounded_powerApplied (boot : Boot) : EvtBounded (exec (.powerApplied boot) s) := by
  refine evtBounded_next ?_
  split
  · exact h
  · exact EvtUnit.cold_bounded h

theorem evtBounded_supplyResetAssert (mv : Nat) : EvtBounded (exec (.supplyResetAssert mv) s) := by
  refine evtBounded_next ?_
  split
  · exact EvtUnit.cold_bounded (State.toTail_bounded h _)
  · exact h

theorem evtBounded_thermtrip (sensor : Nat) (degC : Int) : EvtBounded (exec (.thermtrip sensor degC) s) := by
  refine evtBounded_next ?_
  split
  · exact EvtUnit.cold_bounded (State.toTail_bounded h _)
  · exact h

theorem evtBounded_perstAssert : EvtBounded (exec .perstAssert s) := by
  refine evtBounded_next ?_
  split
  · exact h
  · dsimp only
    split
    · exact h
    · split
      · exact h
      · exact EvtUnit.queue_emptied_bounded h

theorem evtBounded_perstDeassert (boot : Boot) : EvtBounded (exec (.perstDeassert boot) s) := by
  refine evtBounded_next ?_
  split
  · exact h
  · dsimp only
    split
    · exact h
    · split
      · exact EvtUnit.queue_emptied_bounded h
      · split
        · exact h
        · exact h

/-- Every command keeps the bounds: those that move events one by one, the others because they leave the event unit's output side. -/
theorem evtBounded_exec (c : Instr) : EvtBounded (exec c s) := by
  by_cases hmoves : movesEvents c = false
  · obtain ⟨t, he, -, -, hevq⟩ := commandFramed c s
    rw [he]
    exact evtBounded_next (hevq hmoves ▸ h)
  · cases c
    case eventProduced => exact evtBounded_eventProduced h
    case eventDropped => exact evtBounded_eventDropped h
    case ringRecordWrite => exact evtBounded_ringRecordWrite h
    case tickBoundary input energy => exact evtBounded_tickBoundary h input energy
    case powerApplied boot => exact evtBounded_powerApplied h boot
    case supplyResetAssert mv => exact evtBounded_supplyResetAssert h mv
    case thermtrip sensor degC => exact evtBounded_thermtrip h sensor degC
    case perstAssert => exact evtBounded_perstAssert h
    case perstDeassert boot => exact evtBounded_perstDeassert h boot
    all_goals exact (hmoves rfl).elim

end

/-! ### The statements -/

theorem step_of_pending {c : Instr} {rest : List Instr} {s : State} (h : s.pending = c :: rest) : step s = exec c { s with pending := rest } := by
  rw [step, h]

theorem step_of_idle {s : State} (h : s.pending = []) : step s = .next (s.on Mod.idleCycle) := by
  rw [step, h]

/-- Settles O1. -/
theorem stepRunsFrontCommand : Obligations.StepRunsFrontCommand := fun _ _ _ h => step_of_pending h

/-- Settles O2: the idle cycle by whether it moves the tick's core cycle. -/
theorem emptyQueueIdles : Obligations.EmptyQueueIdles := by
  intro s h
  refine ⟨_, step_of_idle h, State.on_sameBut s (s.m.idleCycle_sameBut), ?_⟩
  rw [State.on_m, Mod.idleCycle]
  split <;> rfl

/-- A command keeps the invariant. -/
theorem State.Inv_exec {c : Instr} {s t : State} (h : s.Inv) (he : exec c s = .next t) : t.Inv := by
  obtain ⟨hevq, hmem⟩ := h
  obtain ⟨u, hu, -, hframed, -⟩ := commandFramed c s
  obtain rfl := Host.Outcome.next.inj (hu.symm.trans he)
  exact ⟨evtBounded_exec hevq c _ hu, hframed.form hmem⟩

/-- Settles O5, by the command that the step runs, or the idle cycle. -/
theorem invariantKept : Obligations.InvariantKept := by
  intro s t h hstep
  cases hp : s.pending with
  | nil =>
    obtain ⟨u, hu, hsame, -⟩ := emptyQueueIdles s hp
    obtain rfl := Host.Outcome.next.inj (hu.symm.trans hstep)
    obtain ⟨hevq, hmem⟩ := h
    exact ⟨hsame.evq ▸ hevq, Mod.memWf_congr (hsame.m.mem (by decide)) hmem⟩
  | cons c rest =>
    rw [step_of_pending hp] at hstep
    exact State.Inv_exec (s := { s with pending := rest }) h hstep

/-- Settles O4: nothing waits or is kept, and the memories are those that nothing has written. -/
theorem invariantAtReset : Obligations.InvariantAtReset :=
  ⟨⟨Nat.zero_le _, Nat.zero_le _, Nat.zero_le _, Nat.zero_le _⟩, Memory.wf_fresh _, Memory.wf_fresh _, Memory.wf_fresh _, Memory.wf_fresh _⟩

end Sys2Proof.Machine
end

section
/-! PROOF. Registers: where the fields of a row lie, what a write does to each of them, and what the reset word holds. -/

namespace Sys2Proof.Machine

/-! ### The layout of a row -/

/-- The fields of a row are listed from the highest to the lowest, with no bit in two of them. -/
def RegSpec.laidOut (r : RegSpec) : Prop :=
  r.fields.Pairwise (fun f g => g.hi < f.lo) ∧ ∀ f ∈ r.fields, f.lo ≤ f.hi

/-- What every row of the table satisfies: its fields' places, its alignment, and which rows with locked fields do more than their access
codes say. -/
theorem table_rows : ∀ r ∈ Reg.table,
    (r.fields.Pairwise (fun f g => g.hi < f.lo) ∧ ∀ f ∈ r.fields, f.lo ≤ f.hi) ∧ (r.base % 4 = 0 ∧ r.s1 % 4 = 0 ∧ r.s2 % 4 = 0)
      ∧ (r.has .rwl = true → r.kind = .plain ∧ (r.base ∈ actingBases → r = Reg.TCK_PERIOD ∨ r = Reg.TCK_SOURCE ∨ r = Reg.LFT_CFG)) := by
  decide +kernel

theorem laidOut_of_mem_table {r : RegSpec} (h : r ∈ Reg.table) : r.laidOut := (table_rows r h).1

/-- The row that holds an offset is one of the table, at that offset. -/
theorem Reg.at?_some {off i j : Nat} {r : RegSpec} (h : Reg.at? off = some (r, i, j)) : r ∈ Reg.table ∧ r.addr i j = off := by
  obtain ⟨q, hq, he⟩ := Option.map_eq_some_iff.1 h
  obtain ⟨rfl, rfl, rfl⟩ := Prod.mk.injEq .. ▸ (by simpa using he : q = r ∧ q.index1 off = i ∧ q.index2 off = j)
  have hh := List.find?_some hq
  simp only [RegSpec.holds, Bool.and_eq_true, decide_eq_true_eq] at hh
  exact ⟨List.mem_of_find?_eq_some hq, hh.2⟩

/-! ### A write, field by field -/

/-- Clearing the bits of `x` in `o`. -/
theorem testBit_sub_and (o x k : Nat) : (o - (o &&& x)).testBit k = (o.testBit k && !x.testBit k) := by
  induction k generalizing o x with
  | zero =>
    have h := Nat.and_le_left (n := o) (m := x)
    have hp : (o &&& x) % 2 = 1 ↔ o % 2 = 1 ∧ x % 2 = 1 := by
      have := congrArg (· = true) (Nat.testBit_and o x 0)
      simpa only [Nat.testBit_zero, decide_eq_true_eq, Bool.and_eq_true, eq_iff_iff] using this
    simp only [Nat.testBit_zero, ← decide_not, ← Bool.decide_and, decide_eq_decide]
    omega
  | succ k ih =>
    have hle := Nat.and_le_left (n := o) (m := x)
    have hp : (o &&& x) % 2 = 1 → o % 2 = 1 := fun h => by
      have := congrArg (· = true) (Nat.testBit_and o x 0)
      simp only [Nat.testBit_zero, h] at this
      simp_all
    have hd : (o &&& x) / 2 = o / 2 &&& x / 2 := Nat.and_div_two
    have : (o - (o &&& x)) / 2 = o / 2 - (o / 2 &&& x / 2) := by omega
    simp only [Nat.testBit_succ, this, ih]

/-- What a field of value `o` holds after a write of `x`, of which its unit set `h` in the same cycle. -/
def FieldSpec.written (f : FieldSpec) (locked : Bool) (o x h : Nat) : Nat :=
  match f.acc with
  | .rw => x
  | .w1c => w1cAfter o x h
  | .w1s => o ||| x
  | .rwl => if locked then o else x
  | .ro | .wo | .rwp => o

theorem w1cAfter_le (o x h : Nat) : w1cAfter o x h ≤ o := by
  have := Nat.and_le_left (n := o - min h o) (m := x)
  dsimp only [w1cAfter]
  omega

theorem FieldSpec.bitsOf_apply {f : FieldSpec} (hf : f.lo ≤ f.hi) (locked : Bool) (old v hw : Nat) :
    bitsOf (f.apply locked old v hw) f.hi f.lo = f.written locked (bitsOf old f.hi f.lo) (bitsOf v f.hi f.lo) (bitsOf hw f.hi f.lo) := by
  have ho := bitsOf_lt old f.hi f.lo
  have hx := bitsOf_lt v f.hi f.lo
  cases hacc : f.acc
  case rw => simp [FieldSpec.apply, FieldSpec.written, hacc, bitsOf_setBits_same _ _ hf, Nat.mod_eq_of_lt hx]
  case w1c =>
    simp only [FieldSpec.apply, FieldSpec.written, hacc, bitsOf_setBits_same _ _ hf]
    exact Nat.mod_eq_of_lt ((w1cAfter_le ..).trans_lt ho)
  case w1s =>
    simp only [FieldSpec.apply, FieldSpec.written, hacc, bitsOf_setBits_same _ _ hf]
    exact Nat.mod_eq_of_lt (Nat.or_lt_two_pow ho hx)
  case rwl =>
    cases locked <;> simp [FieldSpec.apply, FieldSpec.written, hacc, bitsOf_setBits_same _ _ hf, Nat.mod_eq_of_lt hx]
  all_goals simp [FieldSpec.apply, FieldSpec.written, hacc]

/-- A write to one field leaves the bits outside it. -/
theorem FieldSpec.testBit_apply_outside {f : FieldSpec} (hf : f.lo ≤ f.hi) {k : Nat} (hk : k < f.lo ∨ f.hi < k) (locked : Bool) (old v hw : Nat) :
    (f.apply locked old v hw).testBit k = old.testBit k := by
  cases hacc : f.acc
  case rwl => cases locked <;> simp [FieldSpec.apply, hacc, testBit_setBits _ _ _ hf, hk]
  all_goals simp [FieldSpec.apply, hacc, testBit_setBits _ _ _ hf, hk]

theorem bitsOf_congr {w x hi lo : Nat} (h : ∀ k, lo ≤ k → k ≤ hi → w.testBit k = x.testBit k) : bitsOf w hi lo = bitsOf x hi lo := by
  apply Nat.eq_of_testBit_eq; intro k
  rw [testBit_bitsOf, testBit_bitsOf]
  by_cases hk : k < hi + 1 - lo
  · rw [h (lo + k) (by omega) (by omega)]
  · simp [hk]

/-- The fields' writes one after another leave the bits outside all of them. -/
theorem testBit_foldl_apply_outside {fs : List FieldSpec} (hfs : ∀ f ∈ fs, f.lo ≤ f.hi) {k : Nat} (hk : ∀ f ∈ fs, k < f.lo ∨ f.hi < k)
    (locked : Bool) (old v hw : Nat) : (fs.foldl (fun w f => f.apply locked w v hw) old).testBit k = old.testBit k := by
  induction fs generalizing old with
  | nil => rfl
  | cons g gs ih =>
    rw [List.foldl_cons, ih (fun f h => hfs f (.tail _ h)) (fun f h => hk f (.tail _ h)),
      FieldSpec.testBit_apply_outside (hfs g (.head _)) (hk g (.head _))]

/-- After the fields' writes one after another each field holds what its own write leaves. -/
theorem bitsOf_foldl_apply {fs : List FieldSpec} (hd : fs.Pairwise (fun f g => g.hi < f.lo)) (hfs : ∀ f ∈ fs, f.lo ≤ f.hi) {f : FieldSpec}
    (hf : f ∈ fs) (locked : Bool) (old v hw : Nat) :
    bitsOf (fs.foldl (fun w f => f.apply locked w v hw) old) f.hi f.lo
      = f.written locked (bitsOf old f.hi f.lo) (bitsOf v f.hi f.lo) (bitsOf hw f.hi f.lo) := by
  induction fs generalizing old with
  | nil => cases hf
  | cons g gs ih =>
    obtain ⟨hg, hgs⟩ := List.pairwise_cons.1 hd
    rw [List.foldl_cons]
    rcases List.mem_cons.1 hf with rfl | hmem
    · rw [← FieldSpec.bitsOf_apply (hfs f hf)]
      refine bitsOf_congr (fun k hlo hhi => testBit_foldl_apply_outside (fun x h => hfs x (.tail _ h)) (fun x h => ?_) locked _ v hw)
      exact Or.inr ((hg x h).trans_le hlo)
    · rw [ih hgs (fun x h => hfs x (.tail _ h)) hmem]
      have : bitsOf (g.apply locked old v hw) f.hi f.lo = bitsOf old f.hi f.lo :=
        bitsOf_congr (fun k hlo hhi => FieldSpec.testBit_apply_outside (hfs g (.head _)) (Or.inl (hhi.trans_lt (hg f hmem))) locked old v hw)
      rw [this]

/-- A field of a row after a write to the row's register. -/
theorem RegSpec.bitsOf_apply {r : RegSpec} (hr : r.laidOut) {f : FieldSpec} (hf : f ∈ r.fields) (locked : Bool) (old v hw : Nat) :
    bitsOf (r.apply locked old v hw) f.hi f.lo = f.written locked (bitsOf old f.hi f.lo) (bitsOf v f.hi f.lo) (bitsOf hw f.hi f.lo) :=
  bitsOf_foldl_apply hr.1 hr.2 hf locked old v hw

/-- The bits of a row's field after a write. -/
theorem RegSpec.testBit_apply {r : RegSpec} (hr : r.laidOut) {f : FieldSpec} (hf : f ∈ r.fields) (locked : Bool) (old v hw k : Nat)
    (hk : k < f.hi + 1 - f.lo) : (r.apply locked old v hw).testBit (f.lo + k)
      = (f.written locked (bitsOf old f.hi f.lo) (bitsOf v f.hi f.lo) (bitsOf hw f.hi f.lo)).testBit k := by
  rw [← RegSpec.bitsOf_apply hr hf, testBit_bitsOf]
  simp [hk]

@[simp] theorem w1cAfter_zero (o x : Nat) : w1cAfter o x 0 = o - (o &&& x) := by simp [w1cAfter]

/-- A field of one bit that its unit owns: a bit already set that the unit sets again stays, and a write of 1 clears any other (R11). -/
theorem w1cAfter_bit {o x h : Nat} (ho : o < 2) (hx : x < 2) (hh : h < 2) :
    (w1cAfter o x h).testBit 0 = (o.testBit 0 && (h.testBit 0 || !x.testBit 0)) := by
  interval_cases o <;> interval_cases x <;> interval_cases h <;> rfl

/-- Settles O8: each field's write leaves the others' bits, so each field of a row ends as its own access code says. -/
theorem fieldAccessCodes : Obligations.FieldAccessCodes := by
  unfold Obligations.FieldAccessCodes
  intro r hmem locked old v
  have hr := laidOut_of_mem_table hmem
  refine ⟨fun f hf k hk => ?_, fun hw f hf hacc hone => ?_, fun k hk => testBit_foldl_apply_outside hr.2 hk locked old v 0⟩
  · rw [RegSpec.testBit_apply hr hf locked old v 0 k hk]
    have hzero : bitsOf 0 f.hi f.lo = 0 := by simp [bitsOf]
    cases hacc : f.acc <;> simp only [FieldSpec.written, hacc, hzero, w1cAfter_zero, testBit_sub_and, Nat.testBit_or]
    case rwl => cases locked <;> simp [testBit_bitsOf, hk]
    all_goals simp [testBit_bitsOf, hk]
  · have hlt : ∀ w, bitsOf w f.hi f.lo < 2 := fun w => by simpa [hone] using bitsOf_lt w f.hi f.lo
    have := RegSpec.testBit_apply hr hf locked old v hw 0 (by omega)
    rw [Nat.add_zero] at this
    simp only [this, FieldSpec.written, hacc, w1cAfter_bit (hlt _) (hlt _) (hlt _), testBit_bitsOf, Nat.add_zero]
    simp [hone]

/-! ### The reset word -/

/-- The bits of the sum of field values that lie in descending places and fit their fields. -/
theorem testBit_sum_fields {fs : List FieldSpec} (hd : fs.Pairwise (fun f g => g.hi < f.lo)) (hw : ∀ f ∈ fs, f.reset < 2 ^ (f.hi + 1 - f.lo))
    (hfs : ∀ f ∈ fs, f.lo ≤ f.hi) (k : Nat) :
    ((fs.map (fun f : FieldSpec => f.reset * 2 ^ f.lo)).sum.testBit k = fs.any (fun f => decide (f.lo ≤ k) && f.reset.testBit (k - f.lo)))
      ∧ ∀ n, (∀ f ∈ fs, f.hi < n) → (fs.map (fun f : FieldSpec => f.reset * 2 ^ f.lo)).sum < 2 ^ n := by
  induction fs with
  | nil => simp
  | cons f gs ih =>
    obtain ⟨hf, hgs⟩ := List.pairwise_cons.1 hd
    obtain ⟨hbit, hlt⟩ := ih hgs (fun x h => hw x (.tail _ h)) (fun x h => hfs x (.tail _ h))
    have hsmall := hlt f.lo hf
    have hfit := hw f (.head _)
    have hle := hfs f (.head _)
    simp only [List.map_cons, List.sum_cons, List.any_cons]
    refine ⟨?_, fun n hn => ?_⟩
    · rw [Nat.mul_comm, Nat.testBit_two_pow_mul_add _ hsmall, hbit]
      by_cases hk : k < f.lo
      · simp [hk, show ¬f.lo ≤ k by omega]
      · have hnone : gs.any (fun g => decide (g.lo ≤ k) && g.reset.testBit (k - g.lo)) = false := by
          rw [List.any_eq_false]
          intro g hg
          have h1 := hw g (.tail _ hg)
          have h2 := hf g hg
          have h3 := hfs g (.tail _ hg)
          have : g.reset.testBit (k - g.lo) = false := Nat.testBit_lt_two_pow (h1.trans_le (Nat.pow_le_pow_right (by omega) (by omega)))
          simp [this]
        simp [hk, hnone, show f.lo ≤ k by omega]
    · have h1 := hn f (.head _)
      have h2 : f.reset * 2 ^ f.lo + 2 ^ f.lo ≤ 2 ^ (f.hi + 1) := by
        have : (f.reset + 1) * 2 ^ f.lo ≤ 2 ^ (f.hi + 1 - f.lo) * 2 ^ f.lo := Nat.mul_le_mul_right _ hfit
        rw [← Nat.pow_add, show f.hi + 1 - f.lo + f.lo = f.hi + 1 by omega] at this
        rwa [Nat.add_mul, Nat.one_mul] at this
      have h3 : 2 ^ (f.hi + 1) ≤ 2 ^ n := Nat.pow_le_pow_right (by omega) h1
      omega

/-- Every reset value of the table fits its field. -/
theorem reset_lt_of_mem_table {r : RegSpec} (h : r ∈ Reg.table) : ∀ f ∈ r.fields, f.reset < 2 ^ (f.hi + 1 - f.lo) := by
  have hid : ∀ f ∈ Reg.TOP_ID.fields, f.reset < 2 ^ (f.hi + 1 - f.lo) := by
    have := Config.revision.isLt
    simp only [Reg.TOP_ID, List.mem_cons, List.not_mem_nil, or_false, forall_eq_or_imp, forall_eq]
    omega
  have htail : ∀ r ∈ Reg.table.tail, ∀ f ∈ r.fields, f.reset < 2 ^ (f.hi + 1 - f.lo) := by decide +kernel
  have hcons : Reg.table = Reg.TOP_ID :: Reg.table.tail := rfl
  rw [hcons] at h
  rcases List.mem_cons.1 h with rfl | h
  · exact hid
  · exact htail r h

theorem testBit_resetWord {r : RegSpec} (h : r ∈ Reg.table) (k : Nat) :
    r.resetWord.testBit k = r.fields.any (fun f => decide (f.lo ≤ k) && f.reset.testBit (k - f.lo)) :=
  have hr := laidOut_of_mem_table h
  (testBit_sum_fields hr.1 (reset_lt_of_mem_table h) hr.2 k).1

/-- A field's reset value has no bit outside the field. -/
theorem reset_bit_in_field {r : RegSpec} (h : r ∈ Reg.table) {f : FieldSpec} (hf : f ∈ r.fields) {k : Nat} (hlo : f.lo ≤ k)
    (hb : f.reset.testBit (k - f.lo) = true) : k ≤ f.hi := by
  have hfit := reset_lt_of_mem_table h f hf
  have hge := Nat.ge_two_pow_of_testBit hb
  have := (Nat.pow_lt_pow_iff_right (by decide : 1 < 2)).1 (hge.trans_lt hfit)
  omega

/-- Two fields of a row that share a bit are the same. -/
theorem field_eq_of_bit {r : RegSpec} (h : r ∈ Reg.table) {f g : FieldSpec} (hf : f ∈ r.fields) (hg : g ∈ r.fields) {k : Nat}
    (h1 : f.lo ≤ k ∧ k ≤ f.hi) (h2 : g.lo ≤ k ∧ k ≤ g.hi) : f = g := by
  by_contra hne
  have hd : r.fields.Pairwise (fun f g => g.hi < f.lo ∨ f.hi < g.lo) := (laidOut_of_mem_table h).1.imp Or.inl
  have : Std.Symm (fun f g : FieldSpec => g.hi < f.lo ∨ f.hi < g.lo) := ⟨fun _ _ => Or.symm⟩
  have := hd.forall hf hg hne
  omega

theorem bitsOf_resetWord {r : RegSpec} (h : r ∈ Reg.table) {f : FieldSpec} (hf : f ∈ r.fields) : bitsOf r.resetWord f.hi f.lo = f.reset := by
  apply Nat.eq_of_testBit_eq; intro k
  have hle := (laidOut_of_mem_table h).2 f hf
  rw [testBit_bitsOf, testBit_resetWord h]
  by_cases hk : k < f.hi + 1 - f.lo
  · rw [decide_eq_true hk, Bool.true_and, Bool.eq_iff_iff, List.any_eq_true]
    constructor
    · rintro ⟨g, hg, hb⟩
      obtain ⟨hlo, hbit⟩ := Bool.and_eq_true_iff.1 hb
      have hlo := of_decide_eq_true hlo
      obtain rfl := field_eq_of_bit h hf hg (k := f.lo + k) ⟨by omega, by omega⟩ ⟨hlo, reset_bit_in_field h hg hlo hbit⟩
      rwa [Nat.add_sub_cancel_left] at hbit
    · exact fun hb => ⟨f, hf, by simp [hb]⟩
  · have := Nat.testBit_lt_two_pow ((reset_lt_of_mem_table h f hf).trans_le (Nat.pow_le_pow_right (by decide) (not_lt.1 hk)))
    simp [hk, this]

/-- Reserved bits are 0 in the reset word (R15). -/
theorem testBit_resetWord_reserved {r : RegSpec} (h : r ∈ Reg.table) {k : Nat} (hk : ∀ f ∈ r.fields, k < f.lo ∨ f.hi < k) :
    r.resetWord.testBit k = false := by
  rw [testBit_resetWord h, List.any_eq_false]
  intro f hf hb
  obtain ⟨hlo, hbit⟩ := Bool.and_eq_true_iff.1 hb
  have hlo := of_decide_eq_true hlo
  have := reset_bit_in_field h hf hlo hbit
  have := hk f hf
  omega

/-- Settles O6: right after reset no word is stored, so every register reads as its row's reset word, in which each field has its reset value. -/
theorem resetState : Obligations.ResetState := by
  unfold Obligations.ResetState
  refine ⟨fun _ _ _ _ => rfl, fun r h f hf => bitsOf_resetWord h hf, fun r h k hk => testBit_resetWord_reserved h hk, ?_⟩
  have hoff : ∀ off, State.reset.bar0Read off = 0xFFFFFFFF := fun off => by
    have : State.reset.m.answers off = false := rfl
    simp [State.bar0Read, this]
  exact ⟨rfl, rfl, rfl, rfl, rfl, rfl, rfl, rfl, fun _ => rfl, fun _ => rfl, hoff⟩

end Sys2Proof.Machine
end

section
/-! PROOF. Accesses to BAR0 (00_scope.md R9 to R14): what a register write does where no row says more than the access codes, the values
that wait for a boundary, and the halves of pairs. -/

namespace Sys2Proof.Machine

/-! ### Where registers lie -/

theorem addr_aligned {r : RegSpec} (h : r ∈ Reg.table) (i j : Nat) : r.addr i j % 4 = 0 := by
  obtain ⟨-, ⟨hb, h1, h2⟩, -⟩ := table_rows r h
  simp [RegSpec.addr, Nat.add_mod, Nat.mul_mod, hb, h1, h2]

theorem State.regRead_lt (s : State) (off : Nat) : s.regRead off < 2 ^ 32 := by
  unfold State.regRead
  split
  · decide
  · exact Nat.mod_lt _ (by decide)

theorem State.bar0Read_lt (s : State) (off : Nat) : s.bar0Read off < 2 ^ 32 := by
  unfold State.bar0Read
  split
  · exact s.regRead_lt off
  · decide

theorem bar0Aligned_of_unaligned {off : Nat} (h : off % 4 ≠ 0) : bar0Aligned off = false := by simp [bar0Aligned, h]

/-- A register access that changes nothing where its block answers changes nothing. -/
theorem State.reg_self {s : State} {off : Nat} {f : Mod → Mod} (h : s.m.answers off = true → f s.m = s.m) : s.reg off f = s := by
  cases ha : s.m.answers off with
  | false => rw [State.reg_silent _ ha]
  | true => rw [State.reg_answers _ ha, h ha]

theorem Mod.regRoute_of_hole (m : Mod) {off : Nat} (h : Reg.at? off = none) (v hw : Nat) : m.regRoute off v hw = m := by
  simp [Mod.regRoute, h]

theorem State.regRead_of_hole (s : State) {off : Nat} (h : Reg.at? off = none) : s.regRead off = 0 := by
  unfold State.regRead
  simp only [h]
  split <;> rfl

/-- Settles O7. -/
theorem unalignedAndHoles : Obligations.UnalignedAndHoles := by
  unfold Obligations.UnalignedAndHoles
  refine ⟨fun r h i j => addr_aligned h i j, State.bar0Read_lt, fun s off v bytes hw h => ?_, fun s off h => ?_,
    fun s off bytes hup hlink hsleep hb => ?_, fun s off v bytes hw hans hal hhole => ⟨?_, ?_⟩⟩
  · have hno : (bar0Aligned off && bytes == 4) = false := by
      rcases h with h | h
      · simp [bar0Aligned_of_unaligned h]
      · simp [h]
    exact congrArg _ (State.reg_self (fun _ => by simp [hno]))
  · simp [State.bar0Read, bar0Aligned_of_unaligned h]
  · refine ⟨s.on (fun m => m.emit (.completion (List.replicate bytes 0xFF))), ?_, rfl, ⟨rfl, rfl, Mod.sameBut_host _ _⟩⟩
    simp [exec, execReadLoSnapshot, hup, hlink, hsleep, hb]
  · exact congrArg _ (State.reg_self (fun _ => by simp [Mod.regRoute_of_hole _ hhole]))
  · simp [State.bar0Read, hal, hans, State.regRead_of_hole s hhole]

/-! ### Writes that do what the access codes say -/

theorem Mod.routeA_none (m : Mod) {b off : Nat} (h : b ∉ actingBases) (hr : isRingAddr off = false) (i v : Nat) : m.routeA b i off v = none := by
  simp only [actingBases, List.mem_cons, not_or] at h
  simp [Mod.routeA, h, hr]

theorem Mod.routeB_none (m : Mod) {b : Nat} (h : b ∉ actingBases) (i v : Nat) : m.routeB b i v = none := by
  simp only [actingBases, List.mem_cons, not_or] at h
  simp [Mod.routeB, h]

theorem Mod.routeC_none (m : Mod) {b : Nat} (h : b ∉ actingBases) (i v : Nat) : m.routeC b i v = none := by
  simp only [actingBases, List.mem_cons, not_or] at h
  simp [Mod.routeC, h]

/-- A write of a register whose row says no more than its access codes. -/
theorem Mod.regRoute_of_plain {m : Mod} {off i j : Nat} {r : RegSpec} (h : plainReg off r i j) (hd : m.disabledReg off = false) (v hw : Nat) :
    m.regRoute off v hw = m.regWrite off v hw := by
  obtain ⟨hat, hb, hring, hopen⟩ := h
  simp [Mod.regRoute, hd, hat, hopen, Mod.routeA_none m hb hring, Mod.routeB_none m hb, Mod.routeC_none m hb]

/-- A 32-bit write that meets a block that answers. -/
theorem execRegisterWrite_reaches {s : State} {off : Nat} (h : s.m.answers off = true) (ha : bar0Aligned off = true) (v hw : Nat) :
    exec (.registerWrite off ⟨v, 4, hw⟩) s = .next (s.on (fun m => m.regRoute off (lo32 v) hw)) := by
  refine congrArg Host.Outcome.next ?_
  rw [State.reg_answers _ h]
  simp [ha, State.on]

theorem execRegisterWrite_plain {s : State} {off i j : Nat} {r : RegSpec} (h : s.reaches off) (hp : plainReg off r i j) (v hw : Nat) :
    exec (.registerWrite off ⟨v, 4, hw⟩) s = .next (s.on (fun m => m.regWrite off (lo32 v) hw)) := by
  obtain ⟨hans, hal, hd⟩ := h
  rw [execRegisterWrite_reaches hans hal]
  simp only [State.on, Mod.regRoute_of_plain hp hd]

theorem Mod.regWrite_plain {m : Mod} {off i j : Nat} {r : RegSpec} (hat : Reg.at? off = some (r, i, j)) (hk : r.kind = .plain) (v hw : Nat) :
    m.regWrite off v hw = m.wordWrite r i j v hw := by
  simp [Mod.regWrite, hat, hk]

/-- A write of a register's word: the report of a locked field beside the word by the access codes, and the value kept for pending fields. -/
theorem Mod.wordWrite_split (m : Mod) (r : RegSpec) (i j v hw : Nat) :
    m.wordWrite r i j v hw = { m.lockedWrite r (r.addr i j) v with
      regs := { m.regs.write r i j (r.apply m.plateActive (m.regs.read r i j) v hw) with
        pend := if r.has .rwp then kvSet m.regs.pend (r.addr i j) v else m.regs.pend } } := by
  have frame := m.lockedWrite_sameBut r (r.addr i j) v
  have hregs := frame.regs (by decide)
  have hplt := frame.plt (by decide)
  cases hr : r.has .rwp <;> simp only [Mod.wordWrite, hr, hregs, Mod.plateActive, hplt] <;> rfl

theorem Mod.wordWrite_read (m : Mod) (r : RegSpec) (i j v hw : Nat) :
    (m.wordWrite r i j v hw).regs.read r i j = r.apply m.plateActive (m.regs.read r i j) v hw := by
  rw [Mod.wordWrite_split]
  exact RegFile.read_write_same ..

theorem Mod.wordWrite_keeps (m : Mod) (r : RegSpec) (i j v hw : Nat) : m.regsKeep [r.addr i j] (m.wordWrite r i j v hw) := by
  intro q a b h
  rw [Mod.wordWrite_split]
  exact RegFile.read_write_other _ _ _ _ _ _ _ _ (fun e => h (List.mem_singleton.mpr e))

theorem Mod.wordWrite_plt (m : Mod) (r : RegSpec) (i j v hw : Nat) : (m.wordWrite r i j v hw).plt = m.plt :=
  (m.wordWrite_sameBut r i j v hw).plt (by decide)

theorem Mod.wordWrite_evIn_of_inactive {m : Mod} (h : m.plateActive = false) (r : RegSpec) (i j v hw : Nat) :
    (m.wordWrite r i j v hw).evIn = m.evIn := by
  rw [Mod.wordWrite_split, Mod.lockedWrite_of_inactive h]

/-- While a plate is active a locked field keeps its value, and the write is reported. -/
theorem Mod.wordWrite_locked {m : Mod} {r : RegSpec} (hr : r.laidOut) {f : FieldSpec} (hf : f ∈ r.fields) (hacc : f.acc = .rwl)
    (h : m.plateActive = true) (i j v hw : Nat) :
    bitsOf ((m.wordWrite r i j v hw).regs.read r i j) f.hi f.lo = bitsOf (m.regs.read r i j) f.hi f.lo
      ∧ (m.wordWrite r i j v hw).reports .corrected 0x0101 0 (r.addr i j) v 0 := by
  have hhas : r.has .rwl = true := List.any_eq_true.2 ⟨f, hf, by simp [hacc]⟩
  refine ⟨?_, ?_⟩
  · rw [Mod.wordWrite_read, RegSpec.bitsOf_apply hr hf, h]
    simp [FieldSpec.written, hacc]
  · have hrep := Mod.lockedWrite_reports h hhas (r.addr i j) v
    have htick : (m.lockedWrite r (r.addr i j) v).tick = m.tick := (m.lockedWrite_sameBut _ _ _).tick (by decide)
    rw [Mod.wordWrite_split]
    exact hrep

/-! ### Locked fields -/

/-- A row with a locked field stands alone; the rows among them that say more than their access codes are three, each of one place. -/
theorem locked_row {r : RegSpec} (h : r ∈ Reg.table) (hr : r.has .rwl = true) :
    r.kind = .plain ∧ (r.base ∈ actingBases → r = Reg.TCK_PERIOD ∨ r = Reg.TCK_SOURCE ∨ r = Reg.LFT_CFG) :=
  (table_rows r h).2.2 hr

/-- The four halves of the event ring's addresses. -/
theorem isRingAddr_iff (off : Nat) : isRingAddr off = true ↔
    off ∈ [Reg.EVT_RING_BASE_LO.base, Reg.EVT_RING_BASE_HI.base, Reg.EVT_SHADOW_LO.base, Reg.EVT_SHADOW_HI.base] := by
  have hdef : isRingAddr off = (decide (0xF00000 ≤ off) && decide (off ≤ 0xF0000C) && off % 4 == 0) := rfl
  have hmem : off ∈ [Reg.EVT_RING_BASE_LO.base, Reg.EVT_RING_BASE_HI.base, Reg.EVT_SHADOW_LO.base, Reg.EVT_SHADOW_HI.base]
      ↔ off ∈ [0xF00000, 0xF00004, 0xF00008, 0xF0000C] := Iff.rfl
  rw [hdef, hmem]
  simp only [Bool.and_eq_true, decide_eq_true_eq, beq_iff_eq, List.mem_cons, List.not_mem_nil, or_false]
  omega

/-- No half of the event ring's addresses is locked. -/
theorem not_isRingAddr_of_locked {off i j : Nat} {r : RegSpec} (hat : Reg.at? off = some (r, i, j)) (hr : r.has .rwl = true) :
    isRingAddr off = false := by
  by_contra hring
  rw [Bool.not_eq_false, isRingAddr_iff] at hring
  have hnone : ∀ off ∈ [Reg.EVT_RING_BASE_LO.base, Reg.EVT_RING_BASE_HI.base, Reg.EVT_SHADOW_LO.base, Reg.EVT_SHADOW_HI.base],
      (Reg.at? off).any (fun e => e.1.has .rwl) = false := by decide +kernel
  have := hnone off hring
  simp [hat, hr] at this

/-- A write that only reports a locked field. -/
theorem Mod.lockedWrite_locked {m : Mod} {r : RegSpec} {f : FieldSpec} (hf : f ∈ r.fields) (hacc : f.acc = .rwl) (h : m.plateActive = true)
    (i j off v : Nat) : bitsOf ((m.lockedWrite r off v).regs.read r i j) f.hi f.lo = bitsOf (m.regs.read r i j) f.hi f.lo
      ∧ (m.lockedWrite r off v).reports .corrected 0x0101 0 off v 0 := by
  have hhas : r.has .rwl = true := List.any_eq_true.2 ⟨f, hf, by simp [hacc]⟩
  have htick : (m.lockedWrite r off v).tick = m.tick := (m.lockedWrite_sameBut _ _ _).tick (by decide)
  refine ⟨by rw [(m.lockedWrite_sameBut r off v).regs (by decide)], ?_⟩
  exact Mod.lockedWrite_reports h hhas off v

/-- R13 at the routed write: a locked field keeps its value while a plate is active, and the write is reported. -/
theorem Mod.regRoute_locked {m : Mod} {off i j : Nat} {r : RegSpec} {f : FieldSpec} (hat : Reg.at? off = some (r, i, j)) (hopen : dbgOpen off = true)
    (hd : m.disabledReg off = false) (hf : f ∈ r.fields) (hacc : f.acc = .rwl) (h : m.plateActive = true) (v hw : Nat) :
    bitsOf ((m.regRoute off v hw).regs.read r i j) f.hi f.lo = bitsOf (m.regs.read r i j) f.hi f.lo
      ∧ (m.regRoute off v hw).reports .corrected 0x0101 0 off v 0 := by
  obtain ⟨hmem, haddr⟩ := Reg.at?_some hat
  have hhas : r.has .rwl = true := List.any_eq_true.2 ⟨f, hf, by simp [hacc]⟩
  obtain ⟨hkind, hacting⟩ := locked_row hmem hhas
  have hword := Mod.wordWrite_locked (laidOut_of_mem_table hmem) hf hacc h i j v hw
  by_cases hb : r.base ∈ actingBases
  · rcases hacting hb with rfl | rfl | rfl
    · have hroute : m.regRoute off v hw = m.lockedWrite Reg.TCK_PERIOD Reg.TCK_PERIOD.base v := by
        have hA : m.routeA Reg.TCK_PERIOD.base i off v = some (m.periodWrite v) := rfl
        simp [Mod.regRoute, hd, hat, hopen, hA, Mod.periodWrite, h]
      obtain rfl : off = Reg.TCK_PERIOD.base := by simpa [RegSpec.addr, Reg.TCK_PERIOD] using haddr.symm
      rw [hroute]
      exact Mod.lockedWrite_locked hf hacc h i j _ v
    · have hroute : m.regRoute off v hw = m.lockedWrite Reg.TCK_SOURCE Reg.TCK_SOURCE.base v := by
        have hA : m.routeA Reg.TCK_SOURCE.base i off v = some (m.sourceWrite v) := rfl
        simp [Mod.regRoute, hd, hat, hopen, hA, Mod.sourceWrite, h]
      obtain rfl : off = Reg.TCK_SOURCE.base := by simpa [RegSpec.addr, Reg.TCK_SOURCE] using haddr.symm
      rw [hroute]
      exact Mod.lockedWrite_locked hf hacc h i j _ v
    · obtain rfl : off = Reg.LFT_CFG.base := by simpa [RegSpec.addr, Reg.LFT_CFG] using haddr.symm
      have hroute : m.regRoute Reg.LFT_CFG.base v hw = m.wordWrite Reg.LFT_CFG 0 0 v := by
        have hA : m.routeA Reg.LFT_CFG.base i Reg.LFT_CFG.base v = none := rfl
        have hB : m.routeB Reg.LFT_CFG.base i v = some (m.loftCfg v) := rfl
        simp [Mod.regRoute, hd, hat, hopen, hA, hB, Mod.loftCfg, h]
      rw [hroute]
      exact Mod.wordWrite_locked (laidOut_of_mem_table hmem) hf hacc h 0 0 v 0
  · rw [Mod.regRoute_of_plain ⟨hat, hb, not_isRingAddr_of_locked hat hhas, hopen⟩ hd, Mod.regWrite_plain hat hkind, ← haddr]
    exact hword

/-- Settles O9. -/
theorem registerWrites : Obligations.RegisterWrites := by
  unfold Obligations.RegisterWrites
  constructor
  · intro s off v hw i j r hreach hp hk
    have haddr := (Reg.at?_some hp.1).2
    refine ⟨_, execRegisterWrite_plain hreach hp v hw, ?_, ⟨⟨rfl, rfl, ?_⟩, ?_⟩, fun hact => ?_⟩ <;>
      simp only [State.on, Mod.regWrite_plain hp.1 hk]
    · exact Mod.wordWrite_read ..
    · exact s.m.wordWrite_sameBut _ _ _ _ _
    · exact haddr ▸ s.m.wordWrite_keeps r i j (lo32 v) hw
    · exact Mod.wordWrite_evIn_of_inactive hact ..
  · intro s off v hw i j r f hreach hopen hat hf hacc hact
    obtain ⟨hans, hal, hd⟩ := hreach
    obtain ⟨hkeep, hrep⟩ := Mod.regRoute_locked hat hopen hd hf hacc hact (lo32 v) hw
    refine ⟨_, execRegisterWrite_reaches hans hal v hw, hkeep, ?_⟩
    simpa [Mod.reports, lo32] using hrep

/-! ### NUM_RATIO_THRESH -/

/-- A write of NUM_RATIO_THRESH with a finite value does what its access codes say. -/
theorem Mod.regRoute_ratio {m : Mod} (hd : m.disabledReg Reg.NUM_RATIO_THRESH.base = false) {v : Nat} (hv : v < 0x7F800000) (hw : Nat) :
    m.regRoute Reg.NUM_RATIO_THRESH.base v hw = m.wordWrite Reg.NUM_RATIO_THRESH 0 0 v hw := by
  have hat : Reg.at? Reg.NUM_RATIO_THRESH.base = some (Reg.NUM_RATIO_THRESH, 0, 0) := by decide +kernel
  have hopen : dbgOpen Reg.NUM_RATIO_THRESH.base = true := rfl
  have hA : m.routeA Reg.NUM_RATIO_THRESH.base 0 Reg.NUM_RATIO_THRESH.base v = none := rfl
  have hB : m.routeB Reg.NUM_RATIO_THRESH.base 0 v = none := by
    simp only [Mod.routeB, not_le.2 hv, decide_false, Bool.and_false]
    rfl
  have hC : m.routeC Reg.NUM_RATIO_THRESH.base 0 v = none := rfl
  simp [Mod.regRoute, hd, hat, hopen, hA, hB, hC, Mod.regWrite_plain hat rfl]

/-- Refutes O10: in a state whose register file lists the reset value of NUM_RATIO_THRESH as a stored word, a write of a finite value takes
that entry off, and a row of another reset value at the same offset (the statement speaks of every row, of the table or not) reads
differently. -/
theorem not_pendingFields : ¬ Obligations.PendingFields := by
  unfold Obligations.PendingFields
  rintro ⟨-, -, hratio, -⟩
  let s : State := { State.reset with m := { State.reset.m with
    pwr := { State.reset.m.pwr with powered := true, ready := true, perst := false, state := .idle }
    regs := { RegFile.empty with store := [(Reg.NUM_RATIO_THRESH.base, 0)] } } }
  let row : RegSpec := { Reg.NUM_RATIO_THRESH with fields := [⟨0, 0, .rw, 1⟩] }
  obtain ⟨t, he, -, hkeep⟩ := (hratio s 0 0 ⟨rfl, rfl, rfl⟩ (by decide)).2 (by decide)
  have hwrite : exec (.registerWrite Reg.NUM_RATIO_THRESH.base ⟨0, 4, 0⟩) s = .next (s.on (fun m => m.wordWrite Reg.NUM_RATIO_THRESH 0 0 0)) := by
    rw [execRegisterWrite_reaches rfl rfl, State.on, Mod.regRoute_ratio rfl (by decide)]
    rfl
  obtain rfl := Host.Outcome.next.inj (hwrite.symm.trans he)
  have hread := hkeep row 0 0 (by simp)
  have hafter : (s.m.wordWrite Reg.NUM_RATIO_THRESH 0 0 0).regs.read row 0 0 = 1 := rfl
  have hbefore : s.m.regs.read row 0 0 = 0 := rfl
  exact Nat.one_ne_zero (hafter.symm.trans (hread.trans hbefore))

/-! ### Halves of pairs -/

/-- A write of a _LO half waits. -/
theorem Mod.regWrite_lo {m : Mod} {off i j : Nat} {r : RegSpec} (hat : Reg.at? off = some (r, i, j)) (hk : r.kind = .lo) (hro : r.has .ro = false)
    (v hw : Nat) : m.regWrite off v hw = { m with regs := { m.regs with lo := kvSet m.regs.lo off v } } := by
  simp [Mod.regWrite, hat, hk, hro]

section
variable {m : Mod} {off i j k l : Nat} {r q : RegSpec} (hat : Reg.at? (off + 4) = some (r, i, j)) (hk : r.kind = .hi)
  (hlow : Reg.at? off = some (q, k, l))
include hat hk hlow

/-- A write of the _HI half of a read-only pair. -/
theorem Mod.regWrite_hi_readOnly (hro : q.has .ro = true) (v hw : Nat) : m.regWrite (off + 4) v hw = m := by
  simp [Mod.regWrite, hat, hk, hlow, hro]

/-- A write of the _HI half commits both halves. -/
theorem Mod.regWrite_hi (hro : q.has .ro = false) {low : Nat} (hlo : kvGet? m.regs.lo off = some low) (v hw : Nat) :
    m.regWrite (off + 4) v hw = { (m.wordWrite q k l low).wordWrite r i j v with
      regs := { ((m.wordWrite q k l low).wordWrite r i j v).regs with
        snap := kvDel ((m.wordWrite q k l low).wordWrite r i j v).regs.snap (off + 4) } } := by
  simp [Mod.regWrite, hat, hk, hlow, hro, kvGetD, hlo]

end

/-- WRITE_HI_COMMIT of a _HI half whose row says no more than its access codes. -/
theorem execWriteHiCommit_plain {s : State} {off i j : Nat} {r : RegSpec} (h : s.reaches off) (hp : plainReg off r i j) (hk : r.kind = .hi) (v : Nat) :
    exec (.writeHiCommit off v) s = .next (s.on (fun m => m.regWrite off (lo32 v))) := by
  obtain ⟨hans, hal, hd⟩ := h
  have hhalf : halfAt .hi off = true := by simp [halfAt, hp.1, hk]
  refine congrArg Host.Outcome.next ?_
  rw [State.reg_answers _ hans]
  simp [hal, hhalf, State.on, Mod.regRoute_of_plain hp hd]

/-- A register that has been read as the half of a pair reads as what was kept of it. -/
theorem State.regRead_of_snap {s : State} {off i j w : Nat} {r : RegSpec} (hopen : dbgOpen off = true) (hat : Reg.at? off = some (r, i, j))
    (hsnap : kvGet? s.m.regs.snap off = some w) : s.regRead off = w % 2 ^ 32 := by
  simp [State.regRead, hopen, hat, hsnap, lo32]

/-- A read of a _LO half keeps what its _HI half reads as with nothing kept of it. -/
theorem State.capture_lo {s : State} {off : Nat} (h : s.reaches off) (hlo : halfAt .lo off = true) :
    s.capture off = s.on (fun m => { m with regs := { m.regs with
      snap := kvSet (kvDel m.regs.snap (off + 4)) (off + 4)
        (State.regRead { s with m := { s.m with regs := { s.m.regs with snap := kvDel s.m.regs.snap (off + 4) } } } (off + 4)) } }) := by
  obtain ⟨hans, hal, -⟩ := h
  simp [State.capture, hal, hans, hlo, State.on]

/-- Settles O11. -/
theorem registerPairs : Obligations.RegisterPairs := by
  unfold Obligations.RegisterPairs
  refine ⟨fun s off v i j r hreach hp hk hro => ?_, fun s off v i j k l r q hreach hp hk hq hro => ?_,
    fun s off v low i j k l r q hreach hp hk hq hqk hro hlow => ?_, fun s off hup hlink hreach hlo => ?_,
    fun s off w i j r hreach hopen hat hsnap => ?_⟩
  · refine ⟨_, execRegisterWrite_plain hreach hp v 0, ?_, ?_⟩ <;> simp only [State.on, Mod.regWrite_lo hp.1 hk hro]
    exact kvGet?_kvSet_same _ _ _
  · rw [execWriteHiCommit_plain hreach hp hk]
    simp only [State.on, Mod.regWrite_hi_readOnly hp.1 hk hq.1 hro]
  · have hqaddr := (Reg.at?_some hq.1).2
    have hraddr := (Reg.at?_some hp.1).2
    have hother : q.addr k l ≠ r.addr i j := by omega
    have hfirst := s.m.wordWrite_keeps q k l low 0
    have hsecond := (s.m.wordWrite q k l low).wordWrite_keeps r i j (lo32 v) 0
    have hactive : (s.m.wordWrite q k l low).plateActive = s.m.plateActive := by rw [Mod.plateActive, Mod.wordWrite_plt]; rfl
    refine ⟨_, execWriteHiCommit_plain hreach hp hk v, ?_, ?_, fun x a b hx => ?_⟩ <;>
      simp only [State.on, Mod.regWrite_hi hp.1 hk hq.1 hro hlow]
    · exact (hsecond q k l (by simpa using hother)).trans (Mod.wordWrite_read ..)
    · refine (Mod.wordWrite_read ..).trans ?_
      rw [hactive, hfirst r i j (by simpa using hother.symm)]
      rfl
    · simp only [List.mem_cons, List.not_mem_nil, or_false, not_or] at hx
      exact (hsecond x a b (by simpa [hraddr] using hx.2)).trans (hfirst x a b (by simpa [hqaddr] using hx.1))
  · have hsleep : s.m.pwr.state ≠ .sleep := by
      have := hreach.1
      simp only [Mod.answers, Bool.and_eq_true, bne_iff_ne] at this
      tauto
    refine ⟨_, by simp [exec, execReadLoSnapshot, hup, hlink, hsleep]; rfl, ?_, ?_, ?_⟩ <;> rw [State.capture_lo hreach hlo]
    · rfl
    · rfl
    · exact kvGet?_kvSet_same _ _ _
  · obtain ⟨hans, hal, -⟩ := hreach
    simp [State.bar0Read, hal, hans, State.regRead_of_snap hopen hat hsnap]

end Sys2Proof.Machine
end

section
/-! PROOF. Commands that set registers: which parts and which words a command touches, stated for the module and for the state. -/

namespace Sys2Proof.Machine

/-! ### Parts and words -/

/-- `n` is `m` but for the parts `ps` and, of the registers, the words at the offsets `offs`. -/
structure Mod.alters (ps : List Part) (offs : List Nat) (m n : Mod) : Prop where
  parts : Mod.sameBut ps m n
  words : m.regsKeep offs n

theorem Mod.alters.mono {ps qs : List Part} {offs offs' : List Nat} {m n : Mod} (h : Mod.alters ps offs m n) (hp : ∀ p ∈ ps, p ∈ qs)
    (ho : ∀ o ∈ offs, o ∈ offs') : Mod.alters qs offs' m n := ⟨Mod.sameBut_mono h.parts hp, Mod.regsKeep_mono h.words ho⟩

theorem Mod.alters.trans {ps : List Part} {offs : List Nat} {l m n : Mod} (h1 : Mod.alters ps offs l m) (h2 : Mod.alters ps offs m n) :
    Mod.alters ps offs l n := ⟨Mod.sameBut_trans h1.parts h2.parts, Mod.regsKeep_trans h1.words h2.words⟩

section
variable {ps : List Part} {offs : List Nat} {l m : Mod}

theorem Mod.alters.refl : Mod.alters ps offs m m := ⟨Mod.sameBut_refl ps m, fun _ _ _ _ => rfl⟩

/-- A last operation that touches no register. -/
theorem Mod.alters.last {qs : List Part} {n : Mod} (h2 : Mod.sameBut qs m n) (hq : qs.all (ps.contains ·) = true)
    (hr : qs.contains .regs = false) (h : Mod.alters ps offs l m) : Mod.alters ps offs l n :=
  h.trans ⟨Mod.sameBut_mono h2 (by simpa using hq), Mod.regsKeep_of_regs_eq (h2.regs (by simpa using hr)) _⟩

/-- A last field set, of a register whose offset is listed. -/
theorem Mod.alters.fset {f : Fld} {v i j : Nat} (hp : ps.contains .regs = true) (ho : f.reg.addr i j ∈ offs) (h : Mod.alters ps offs l m) :
    Mod.alters ps offs l (m.fset f v i j) :=
  h.trans ⟨Mod.sameBut_mono (m.fset_sameBut f v i j) (by simpa using hp), Mod.regsKeep_mono (m.fset_regsKeep f v i j) (by simpa using ho)⟩

/-- A last record raised. -/
theorem Mod.alters.raise {k : EvClass} {code source d0 d1 d2 : Nat} (hp : ps.contains .evIn = true) (h : Mod.alters ps offs l m) :
    Mod.alters ps offs l (m.raise k code source d0 d1 d2) :=
  .last (m.raise_sameBut k code source d0 d1 d2) (by simpa using hp) rfl h

/-- A last change of the step unit. -/
theorem Mod.alters.step {x : StepUnit} (hp : ps.contains .step = true) (h : Mod.alters ps offs l m) :
    Mod.alters ps offs l { m with step := x } := .last (m.sameBut_stepUnit x) (by simpa using hp) rfl h

end

/-- A state whose module is altered in registers alone. -/
theorem State.setsOnly_of {offs : List Nat} {s : State} {n : Mod} (h : Mod.alters [.regs] offs s.m n) : State.setsOnly offs s { s with m := n } :=
  ⟨⟨rfl, rfl, h.parts⟩, h.words⟩

/-- A state whose module is altered in registers and records raised. -/
theorem State.setsAndRaises_of {offs : List Nat} {s : State} {n : Mod} (h : Mod.alters [.regs, .evIn] offs s.m n) :
    State.setsAndRaises offs s { s with m := n } := ⟨⟨rfl, rfl, h.parts⟩, h.words⟩

/-- A record just raised waits. -/
theorem Mod.raise_reports (m : Mod) (k : EvClass) (code source d0 d1 d2 : Nat) :
    (m.raise k code source d0 d1 d2).reports k code source d0 d1 d2 := by
  simp [Mod.reports, Mod.raise, mem_evInsert, lo32]

/-- Fields stand when the step unit changes. -/
@[simp] theorem Mod.fget_with_step (m : Mod) (x : StepUnit) (f : Fld) (i j : Nat) : { m with step := x }.fget f i j = m.fget f i j := rfl

/-- A field of one bit just set. -/
theorem Mod.fget_fset_bit (m : Mod) (f : Fld) (i j : Nat) (h : f.hi = f.lo) : (m.fset f 1 i j).fget f i j = 1 := by
  rw [Mod.fget_fset_same _ _ _ _ _ h.ge, h, Nat.add_sub_cancel_left]
  rfl

/-- Two instances of different registers of one stride lie apart. -/
theorem addr_ne {q r : RegSpec} (i : Nat) (hs : q.s1 = r.s1) (hb : q.base ≠ r.base) : q.addr i 0 ≠ r.addr i 0 := by
  simpa [RegSpec.addr, hs] using hb

/-! ### How a command's meaning is reached -/

section
variable {c : Instr} {s : State} {f : Mod → Mod}

/-- A command that is a change of the module. -/
theorem exec_on {n : Mod} (e : exec c s = .next (s.on f)) (h : f s.m = n) : exec c s = .next { s with m := n } :=
  e.trans (by rw [State.on, h])

/-- A command through a register whose block answers. -/
theorem exec_reg {off : Nat} (e : exec c s = .next (s.reg off f)) (h : s.m.answers off = true) : exec c s = .next { s with m := f s.m } :=
  e.trans (congrArg _ (State.reg_answers f h))

/-- A command through a register that changes nothing where its block answers. -/
theorem exec_reg_self {off : Nat} (e : exec c s = .next (s.reg off f)) (h : s.m.answers off = true → f s.m = s.m) : exec c s = .next s :=
  e.trans (congrArg _ (State.reg_self h))

/-- A command of a unit while the units run. -/
theorem exec_unit (e : exec c s = .next (s.unit f)) (h : s.m.running = true) : exec c s = .next { s with m := f s.m } :=
  e.trans (congrArg _ (State.unit_running f h))

/-- A command of a unit that changes nothing while the units run. -/
theorem exec_unit_self (e : exec c s = .next (s.unit f)) (h : s.m.running = true → f s.m = s.m) : exec c s = .next s := by
  cases hr : s.m.running with
  | false => exact e.trans (congrArg _ (State.unit_stopped f hr))
  | true => rw [exec_unit e hr, h hr]

end

/-- Settles O12. -/
theorem clearCounts : Obligations.ClearCounts := by
  unfold Obligations.ClearCounts
  intro s u
  have hclear : ∀ f : Fld, f.lo ≤ f.hi → ∀ m : Mod, (m.fset f 0 u).fget f u = 0 := fun f hf m => by
    rw [Mod.fget_fset_same _ _ _ _ _ hf, Nat.zero_mod]
  refine ⟨fun h => ?_, fun h => ?_, fun h => ?_, fun h => ?_, fun h => ?_⟩
  · refine ⟨_, exec_reg rfl h, ?_, hclear _ (by decide) _, State.setsOnly_of ?_⟩
    · exact (Mod.fget_fset_otherReg _ Fld.CORE_VSAT_COUNT Fld.CORE_MSAT_COUNT _ _ _ _ _ (addr_ne u rfl (by decide))).trans (hclear Fld.CORE_MSAT_COUNT (by decide) _)
    · exact .fset rfl (.tail _ (.head _)) (.fset rfl (.head _) .refl)
  · exact ⟨_, exec_reg rfl h, hclear _ (by decide) _, State.setsOnly_of (.fset rfl (.head _) .refl)⟩
  · exact ⟨_, exec_reg rfl h, hclear _ (by decide) _, State.setsOnly_of (.fset rfl (.head _) .refl)⟩
  · exact ⟨_, exec_reg rfl h, hclear _ (by decide) _, State.setsOnly_of (.fset rfl (.head _) .refl)⟩
  · exact ⟨_, exec_reg rfl h, Mod.fget_fset_same _ _ _ _ _ (by decide),
      State.setsOnly_of (.fset rfl (.head _) .refl)⟩

/-! ### Step number, step size, constants -/

theorem finite32_iff (v : Nat) : finite32 v = true ↔ v / 2 ^ 23 % 256 ≠ 255 := by simp [finite32]

section
variable {m : Mod} {v : Nat}

/-- A finite step size is taken. -/
theorem Mod.stepszWrite_finite (hfin : v / 2 ^ 23 % 256 ≠ 255) :
    m.stepszWrite v = { m.fset Fld.GRM_STEPSZ_NEXT_SZ v with step := { m.step with szFresh := true } } := by
  unfold Mod.stepszWrite
  rw [if_pos ((finite32_iff v).2 hfin)]
  dsimp only
  rw [Mod.fset_step]

/-- A step size that is not finite is reported. -/
theorem Mod.stepszWrite_infinite (hinf : v / 2 ^ 23 % 256 = 255) :
    m.stepszWrite v = (m.fset Fld.GRM_STEP_STATUS_BAD_SZ 1).raise .corrected 0x0601 0 v := by
  have hno : finite32 v = false := by simp only [finite32, hinf]; rfl
  simp [Mod.stepszWrite, hno]

/-- A step number arms the step. -/
theorem Mod.stepArm_eq : m.stepArm v = { m.fset Fld.GRM_STEP_NEXT_STEP v with
    step := { m.step with
      armed := some (v % 2 ^ 32, if m.step.szFresh then some (m.fget Fld.GRM_STEPSZ_NEXT_SZ) else none)
      szFresh := false
      armTick := if m.atBoundary then some m.tick.count else none } } := by
  unfold Mod.stepArm
  dsimp only
  rw [Mod.fset_step]

/-- The staged constants and the marks of those that wait lie in different registers. -/
theorem kdata_addr_ne (k : Nat) : Reg.GRM_KDATA.addr k 0 ≠ Reg.GRM_KPEND.addr 0 0 := by
  simp only [RegSpec.addr, Reg.GRM_KDATA, Reg.GRM_KPEND]
  omega

/-- A constant staged holds its value. -/
theorem Mod.kdataWrite_value (k : Nat) (hv : v < 2 ^ 32) : (m.kdataWrite k v).fget Fld.GRM_KDATA_VALUE k = v := by
  unfold Mod.kdataWrite Mod.forBits
  rw [Mod.fget_fset_otherReg _ _ _ _ _ _ _ _ (kdata_addr_ne k), Mod.fget_fset_same _ _ _ _ _ (by decide)]
  exact Nat.mod_eq_of_lt hv

/-- A constant staged is marked. -/
theorem Mod.kdataWrite_pend (k : Nat) {j : Nat} (hj : j < 32) :
    ((m.kdataWrite k v).fget Fld.GRM_KPEND_PEND).testBit j = ((m.fget Fld.GRM_KPEND_PEND).testBit j || decide (j = k)) := by
  have hold : (m.fset Fld.GRM_KDATA_VALUE v k).fget Fld.GRM_KPEND_PEND = m.fget Fld.GRM_KPEND_PEND :=
    Mod.fget_fset_otherReg _ _ _ _ _ _ _ _ (kdata_addr_ne k).symm
  unfold Mod.kdataWrite Mod.forBits
  rw [hold, Mod.fget_fset_same _ _ _ _ _ (by decide), Nat.testBit_mod_two_pow, Nat.testBit_or, Nat.testBit_two_pow]
  simp [Fld.GRM_KPEND_PEND, hj, eq_comm]

theorem Mod.kdataWrite_alters (k : Nat) : Mod.alters [.regs] [Reg.GRM_KDATA.addr k 0, Reg.GRM_KPEND.base] m (m.kdataWrite k v) :=
  .fset rfl (.tail _ (.head _)) (.fset rfl (.head _) .refl)

theorem Mod.ksetWrite_free (h : m.fget Fld.GRM_KPEND_PEND = 0) : m.ksetWrite v = m.fset Fld.GRM_KSET_SET v := by simp [Mod.ksetWrite, h]

theorem Mod.ksetWrite_pending (h : m.fget Fld.GRM_KPEND_PEND ≠ 0) : m.ksetWrite v = m := by simp [Mod.ksetWrite, h]

end

/-- Settles O13. -/
theorem stepRegisters : Obligations.StepRegisters := by
  unfold Obligations.StepRegisters
  refine ⟨fun s v h hv hfin => ?_, fun s v h hv hinf => ?_, fun s v h hv => ?_, fun s k v h hk hv => ?_, fun s v h hpend => ?_,
    fun s v hpend => exec_reg_self rfl (fun _ => Mod.ksetWrite_pending hpend)⟩
  · have halt : Mod.alters [.regs, .step] [Reg.GRM_STEPSZ_NEXT.base] s.m (s.m.stepszWrite v) := by
      rw [Mod.stepszWrite_finite hfin]
      exact .step rfl (.fset rfl (.head _) .refl)
    refine ⟨_, exec_reg rfl h, ?_, ?_, ⟨rfl, rfl, halt.parts⟩, halt.words⟩ <;> simp only [Mod.stepszWrite_finite hfin]
    refine (Mod.fget_with_step _ _ _ _ _).trans ?_
    exact (Mod.fget_fset_same _ _ _ _ _ (by decide)).trans (Nat.mod_eq_of_lt hv)
  · have halt : Mod.alters [.regs, .evIn] [Reg.GRM_STEP_STATUS.base] s.m (s.m.stepszWrite v) := by
      rw [Mod.stepszWrite_infinite hinf]
      exact .raise rfl (.fset rfl (.head _) .refl)
    refine ⟨_, exec_reg rfl h, ?_, ?_, State.setsAndRaises_of halt⟩ <;> simp only [Mod.stepszWrite_infinite hinf]
    · exact Mod.fget_fset_bit s.m Fld.GRM_STEP_STATUS_BAD_SZ 0 0 rfl
    · exact Mod.raise_reports _ _ _ _ _ _ _
  · have halt : Mod.alters [.regs, .step] [Reg.GRM_STEP_NEXT.base] s.m (s.m.stepArm v) := by
      rw [Mod.stepArm_eq]
      exact .step rfl (.fset rfl (.head _) .refl)
    refine ⟨_, exec_reg rfl h, ?_, ?_, ?_, ?_, ⟨rfl, rfl, halt.parts⟩, halt.words⟩ <;> simp only [Mod.stepArm_eq]
    · refine (Mod.fget_with_step _ _ _ _ _).trans ?_
      exact (Mod.fget_fset_same _ _ _ _ _ (by decide)).trans (Nat.mod_eq_of_lt hv)
    · rw [Nat.mod_eq_of_lt hv]
  · exact ⟨_, exec_reg rfl h, Mod.kdataWrite_value k hv, fun j hj => Mod.kdataWrite_pend k hj, State.setsOnly_of (Mod.kdataWrite_alters k)⟩
  · refine ⟨_, exec_reg rfl h, ?_, State.setsOnly_of ?_⟩ <;> simp only [Mod.ksetWrite_free hpend]
    · exact Mod.fget_fset_same _ _ _ _ _ (by decide)
    · exact .fset rfl (.head _) .refl

end Sys2Proof.Machine
end

section
/-! PROOF. The window of BAR2 and the event ring's registers (14_host_interface.md R370, R372, R374). -/

namespace Sys2Proof.Machine

/-! ### 64-bit pairs -/

theorem Mod.set64_alters {ps : List Part} {offs : List Nat} {l m : Mod} {lo hi : Fld} {v i : Nat} (hp : ps.contains .regs = true)
    (ho : lo.reg.addr i 0 ∈ offs ∧ hi.reg.addr i 0 ∈ offs) (h : Mod.alters ps offs l m) : Mod.alters ps offs l (m.set64 lo hi v i) :=
  .fset hp ho.2 (.fset hp ho.1 h)

/-- A pair just set holds what was set, as far as its _HI half is wide. -/
theorem Mod.get64_set64 (m : Mod) {lo hi : Fld} (i v : Nat) (hne : lo.reg.addr i 0 ≠ hi.reg.addr i 0) (hlo : lo.hi = 31 ∧ lo.lo = 0)
    (hhi : hi.lo ≤ hi.hi) : (m.set64 lo hi v i).get64 lo hi i = v % 2 ^ (32 + (hi.hi + 1 - hi.lo)) := by
  have h31 : lo.lo ≤ lo.hi := by omega
  have hlow : (m.set64 lo hi v i).fget lo i = v % 2 ^ 32 := by
    rw [Mod.set64, Mod.fget_fset_otherReg _ _ _ _ _ _ _ _ hne, Mod.fget_fset_same _ _ _ _ _ h31, hlo.1, hlo.2]
  have hhigh : (m.set64 lo hi v i).fget hi i = v / 2 ^ 32 % 2 ^ (hi.hi + 1 - hi.lo) := Mod.fget_fset_same _ _ _ _ _ hhi
  rw [Mod.get64, hlow, hhigh, Nat.pow_add, Nat.mod_mul]

/-- Fields stand when what was kept of a pair changes. -/
theorem Mod.fget_of_store_eq (m : Mod) (rf : RegFile) (h : rf.store = m.regs.store) (f : Fld) (i j : Nat) :
    { m with regs := rf }.fget f i j = m.fget f i j := by
  simp only [Mod.fget, RegFile.get, RegFile.read, h]

/-- The words stand when what was kept of a pair changes. -/
theorem Mod.alters.kept {ps : List Part} {offs : List Nat} {l m : Mod} {rf : RegFile} (hp : ps.contains .regs = true)
    (hs : rf.store = m.regs.store) (h : Mod.alters ps offs l m) : Mod.alters ps offs l { m with regs := rf } :=
  h.trans ⟨Mod.sameBut_mono (m.sameBut_regs rf) (by simpa using hp), fun r i j _ => by simp only [RegFile.read, hs]⟩

/-! ### The window -/

section
variable {m : Mod} {v low : Nat}

theorem Mod.bar2BaseWrite_lo : m.bar2BaseWrite false v = { m with regs := { m.regs with lo := kvSet m.regs.lo Reg.TOP_BAR2_BASE_LO.base v } } := rfl

/-- A write of the base's _HI half that is taken. -/
theorem Mod.bar2BaseWrite_taken (hlow : kvGet? m.regs.lo Reg.TOP_BAR2_BASE_LO.base = some low)
    (h : (low + 2 ^ 32 * (v % 2 ^ 16)) % m.bar2Size = 0) :
    m.bar2BaseWrite true v = Mod.set64 { m with regs := { m.regs with snap := kvDel m.regs.snap Reg.TOP_BAR2_BASE_HI.base } }
      Fld.TOP_BAR2_BASE_LO_BASE Fld.TOP_BAR2_BASE_HI_BASE (low + 2 ^ 32 * (v % 2 ^ 16)) := by
  simp only [Mod.bar2BaseWrite, kvGetD, hlow, Option.getD_some, h, if_true]

/-- A write of the base's _HI half that is discarded. -/
theorem Mod.bar2BaseWrite_bad (hlow : kvGet? m.regs.lo Reg.TOP_BAR2_BASE_LO.base = some low)
    (h : (low + 2 ^ 32 * (v % 2 ^ 16)) % m.bar2Size ≠ 0) : m.bar2BaseWrite true v = m.fset Fld.TOP_HOST_ERR_BASE_BAD 1 := by
  simp only [Mod.bar2BaseWrite, kvGetD, hlow, Option.getD_some, h, if_true, if_false]

theorem Mod.bar2Base_set64 (base : Nat) :
    (m.set64 Fld.TOP_BAR2_BASE_LO_BASE Fld.TOP_BAR2_BASE_HI_BASE base).bar2Base = base % 2 ^ 48 :=
  m.get64_set64 0 base (by decide) ⟨rfl, rfl⟩ (by decide)

/-! ### The ring -/

/-- EVT_RING_CTRL.ENABLE is one bit. -/
theorem Mod.ringEnable_lt : m.fget Fld.EVT_RING_CTRL_ENABLE < 2 := bitsOf_lt _ _ _

/-- The two fields of EVT_RING_CTRL that a write always sets. -/
def Mod.ringFields (m : Mod) (v : Nat) : Mod :=
  (m.fset Fld.EVT_RING_CTRL_COALESCE_US (bitsOf v 15 8)).fset Fld.EVT_RING_CTRL_ENABLE (bitsOf v 0 0)

theorem Mod.ringCtrl_eq : m.ringCtrl v =
    if m.fget Fld.EVT_RING_CTRL_ENABLE = 1 then
      if bitsOf v 5 1 = m.fget Fld.EVT_RING_CTRL_LOG2_SIZE then m.ringFields v else (m.ringFields v).fset Fld.TOP_HOST_ERR_RING_BUSY 1
    else if bitsOf v 5 1 < 6 ∨ 16 < bitsOf v 5 1 then m.ringFields v
    else (m.ringFields v).fset Fld.EVT_RING_CTRL_LOG2_SIZE (bitsOf v 5 1) := by
  simp only [Mod.ringCtrl, Mod.ringFields, beq_iff_eq]

theorem Mod.ringFields_enable : (m.ringFields v).fget Fld.EVT_RING_CTRL_ENABLE = v % 2 := by
  rw [Mod.ringFields, Mod.fget_fset_same _ _ _ _ _ (by decide)]
  simp [Fld.EVT_RING_CTRL_ENABLE, bitsOf]

theorem Mod.ringFields_coalesce : (m.ringFields v).fget Fld.EVT_RING_CTRL_COALESCE_US = v / 2 ^ 8 % 2 ^ 8 := by
  have hkeep := (m.fset Fld.EVT_RING_CTRL_COALESCE_US (bitsOf v 15 8)).fget_fset_otherField Fld.EVT_RING_CTRL_ENABLE
    Fld.EVT_RING_CTRL_COALESCE_US (bitsOf v 0 0) 0 0 rfl (by decide) (by decide)
  rw [Mod.ringFields, hkeep, Mod.fget_fset_same _ _ _ _ _ (by decide)]
  exact Nat.mod_mod _ _

theorem Mod.ringFields_size : (m.ringFields v).fget Fld.EVT_RING_CTRL_LOG2_SIZE = m.fget Fld.EVT_RING_CTRL_LOG2_SIZE := by
  have hfirst := m.fget_fset_otherField Fld.EVT_RING_CTRL_COALESCE_US Fld.EVT_RING_CTRL_LOG2_SIZE (bitsOf v 15 8) 0 0 rfl (by decide) (by decide)
  have hsecond := (m.fset Fld.EVT_RING_CTRL_COALESCE_US (bitsOf v 15 8)).fget_fset_otherField Fld.EVT_RING_CTRL_ENABLE
    Fld.EVT_RING_CTRL_LOG2_SIZE (bitsOf v 0 0) 0 0 rfl (by decide) (by decide)
  exact hsecond.trans hfirst

/-- The fields of EVT_RING_CTRL after a write, and what the write touches. -/
theorem Mod.ringCtrl_spec : (m.ringCtrl v).fget Fld.EVT_RING_CTRL_ENABLE = v % 2
    ∧ (m.ringCtrl v).fget Fld.EVT_RING_CTRL_COALESCE_US = v / 2 ^ 8 % 2 ^ 8
    ∧ (m.ringCtrl v).fget Fld.EVT_RING_CTRL_LOG2_SIZE
      = (if 6 ≤ bitsOf v 5 1 ∧ bitsOf v 5 1 ≤ 16 ∧ m.fget Fld.EVT_RING_CTRL_ENABLE = 0 then bitsOf v 5 1
         else m.fget Fld.EVT_RING_CTRL_LOG2_SIZE)
    ∧ (m.fget Fld.EVT_RING_CTRL_ENABLE = 1 → bitsOf v 5 1 ≠ m.fget Fld.EVT_RING_CTRL_LOG2_SIZE →
        (m.ringCtrl v).fget Fld.TOP_HOST_ERR_RING_BUSY = 1)
    ∧ Mod.alters [.regs] [Reg.EVT_RING_CTRL.base, Reg.TOP_HOST_ERR.base] m (m.ringCtrl v) := by
  have halt : Mod.alters [.regs] [Reg.EVT_RING_CTRL.base, Reg.TOP_HOST_ERR.base] m (m.ringFields v) :=
    .fset rfl (.head _) (.fset rfl (.head _) .refl)
  have hbusy : ∀ f : Fld, f.reg = Reg.EVT_RING_CTRL →
      ((m.ringFields v).fset Fld.TOP_HOST_ERR_RING_BUSY 1).fget f = (m.ringFields v).fget f := fun f hf =>
    Mod.fget_fset_otherReg _ _ _ _ _ _ _ _ (by rw [hf]; decide)
  have hlt := m.ringEnable_lt
  rw [Mod.ringCtrl_eq]
  by_cases hon : m.fget Fld.EVT_RING_CTRL_ENABLE = 1
  · rw [if_pos hon, if_neg (c := 6 ≤ _ ∧ _) (by omega)]
    by_cases hsame : bitsOf v 5 1 = m.fget Fld.EVT_RING_CTRL_LOG2_SIZE
    · rw [if_pos hsame]
      exact ⟨Mod.ringFields_enable, Mod.ringFields_coalesce, Mod.ringFields_size, fun _ h => (h hsame).elim, halt⟩
    · rw [if_neg hsame]
      exact ⟨(hbusy Fld.EVT_RING_CTRL_ENABLE rfl).trans Mod.ringFields_enable, (hbusy Fld.EVT_RING_CTRL_COALESCE_US rfl).trans Mod.ringFields_coalesce, (hbusy Fld.EVT_RING_CTRL_LOG2_SIZE rfl).trans Mod.ringFields_size,
        fun _ _ => Mod.fget_fset_bit _ _ _ _ rfl, .fset rfl (.tail _ (.head _)) halt⟩
  · rw [if_neg hon]
    by_cases hout : bitsOf v 5 1 < 6 ∨ 16 < bitsOf v 5 1
    · rw [if_pos hout, if_neg (c := 6 ≤ _ ∧ _) (by omega)]
      exact ⟨Mod.ringFields_enable, Mod.ringFields_coalesce, Mod.ringFields_size, fun h => (hon h).elim, halt⟩
    · rw [if_neg hout, if_pos (c := 6 ≤ _ ∧ _) (by omega)]
      refine ⟨?_, ?_, ?_, fun h => (hon h).elim, .fset rfl (.head _) halt⟩
      · exact (Mod.fget_fset_otherField _ Fld.EVT_RING_CTRL_LOG2_SIZE Fld.EVT_RING_CTRL_ENABLE _ 0 0 rfl (by decide) (by decide)).trans
          Mod.ringFields_enable
      · exact (Mod.fget_fset_otherField _ Fld.EVT_RING_CTRL_LOG2_SIZE Fld.EVT_RING_CTRL_COALESCE_US _ 0 0 rfl (by decide) (by decide)).trans
          Mod.ringFields_coalesce
      · exact (Mod.fget_fset_same _ _ _ _ _ (by decide)).trans (Nat.mod_eq_of_lt (bitsOf_lt v 5 1))

/-- A write of a register without locked fields touches its word alone. -/
theorem Mod.wordWrite_alters {r : RegSpec} (hr : r.has .rwl = false) (i j hw : Nat) : Mod.alters [.regs] [r.addr i j] m (m.wordWrite r i j v hw) := by
  refine ⟨?_, m.wordWrite_keeps r i j v hw⟩
  rw [Mod.wordWrite_split, show m.lockedWrite r (r.addr i j) v = m by simp [Mod.lockedWrite, hr]]
  exact m.sameBut_regs _

theorem at?_ringBase : Reg.at? Reg.EVT_RING_BASE_LO.base = some (Reg.EVT_RING_BASE_LO, 0, 0)
    ∧ Reg.at? (Reg.EVT_RING_BASE_LO.base + 4) = some (Reg.EVT_RING_BASE_HI, 0, 0) := by decide +kernel

theorem Mod.ringAddr_open (h : m.fget Fld.EVT_RING_CTRL_ENABLE = 0) (off : Nat) : m.ringAddr off v = m.regWrite off v := by
  simp [Mod.ringAddr, h]

theorem Mod.ringAddr_busy (h : m.fget Fld.EVT_RING_CTRL_ENABLE = 1) (off : Nat) : m.ringAddr off v = m.fset Fld.TOP_HOST_ERR_RING_BUSY 1 := by
  simp [Mod.ringAddr, h]

theorem Mod.ringBase_of_store_eq (m : Mod) (rf : RegFile) (h : rf.store = m.regs.store) : { m with regs := rf }.ringBase = m.ringBase := by
  simp only [Mod.ringBase, Mod.fget_of_store_eq _ _ h]

/-- A write of the _HI half commits both words; what was kept of the pair goes. -/
theorem Mod.regWrite_hi_store {off i j k l : Nat} {r q : RegSpec} (hat : Reg.at? (off + 4) = some (r, i, j)) (hk : r.kind = .hi)
    (hlow : Reg.at? off = some (q, k, l)) (hro : q.has .ro = false) (hlo : kvGet? m.regs.lo off = some low) (v hw : Nat) :
    ∃ rf : RegFile, rf.store = ((m.wordWrite q k l low).wordWrite r i j v).regs.store
      ∧ m.regWrite (off + 4) v hw = { (m.wordWrite q k l low).wordWrite r i j v with regs := rf } :=
  ⟨{ ((m.wordWrite q k l low).wordWrite r i j v).regs with
      snap := kvDel ((m.wordWrite q k l low).wordWrite r i j v).regs.snap (off + 4) }, rfl, Mod.regWrite_hi hat hk hlow hro hlo v hw⟩

/-- Committing the ring's address, its _LO half written before. -/
theorem Mod.regWrite_ringBase (hlow : kvGet? m.regs.lo Reg.EVT_RING_BASE_LO.base = some low) (hl : low < 2 ^ 32) (hv : v < 2 ^ 32) :
    (m.regWrite (Reg.EVT_RING_BASE_LO.base + 4) v).ringBase = low / 4096 * 4096 + 2 ^ 32 * v
      ∧ Mod.alters [.regs] [Reg.EVT_RING_BASE_LO.base, Reg.EVT_RING_BASE_HI.base] m (m.regWrite (Reg.EVT_RING_BASE_LO.base + 4) v) := by
  obtain ⟨hlo, hhi⟩ := at?_ringBase
  obtain ⟨rf, hstore, hwrite⟩ := Mod.regWrite_hi_store hhi rfl hlo rfl hlow v 0
  rw [hwrite]
  have h1 := Mod.wordWrite_alters (m := m) (v := low) (r := Reg.EVT_RING_BASE_LO) rfl 0 0 0
  have h2 := Mod.wordWrite_alters (m := m.wordWrite Reg.EVT_RING_BASE_LO 0 0 low) (v := v) (r := Reg.EVT_RING_BASE_HI) rfl 0 0 0
  refine ⟨?_, .kept rfl hstore ((h1.mono (fun _ => id) (by decide)).trans (h2.mono (fun _ => id) (by decide)))⟩
  have hread1 := Mod.wordWrite_read m Reg.EVT_RING_BASE_LO 0 0 low 0
  have hread2 := Mod.wordWrite_read (m.wordWrite Reg.EVT_RING_BASE_LO 0 0 low) Reg.EVT_RING_BASE_HI 0 0 v 0
  have hkeep := h2.words Reg.EVT_RING_BASE_LO 0 0 (by decide)
  have hlaid1 : Reg.EVT_RING_BASE_LO.laidOut := ⟨by decide, by decide⟩
  have hlaid2 : Reg.EVT_RING_BASE_HI.laidOut := ⟨by decide, by decide⟩
  have hf1 := RegSpec.bitsOf_apply hlaid1 (f := ⟨31, 12, .rw, 0⟩) (.head _) m.plateActive (m.regs.read Reg.EVT_RING_BASE_LO 0 0) low 0
  have hf2 := RegSpec.bitsOf_apply hlaid2 (f := ⟨31, 0, .rw, 0⟩) (.head _) (m.wordWrite Reg.EVT_RING_BASE_LO 0 0 low).plateActive
    ((m.wordWrite Reg.EVT_RING_BASE_LO 0 0 low).regs.read Reg.EVT_RING_BASE_HI 0 0) v 0
  rw [← hread1, ← hkeep] at hf1
  rw [← hread2] at hf2
  have hget1 : ∀ w : Mod, w.fget Fld.EVT_RING_BASE_LO_ADDR = bitsOf (w.regs.read Reg.EVT_RING_BASE_LO 0 0) 31 12 := fun _ => rfl
  have hget2 : ∀ w : Mod, w.fget Fld.EVT_RING_BASE_HI_ADDR = bitsOf (w.regs.read Reg.EVT_RING_BASE_HI 0 0) 31 0 := fun _ => rfl
  refine (Mod.ringBase_of_store_eq _ rf hstore).trans ?_
  rw [Mod.ringBase, hget1, hget2, hf1, hf2]
  simp only [FieldSpec.written, bitsOf]
  omega

theorem Mod.ringCons_taken (h : (v + 2 ^ 32 - m.fget Fld.EVT_RING_CONS_INDEX) % 2 ^ 32 ≤ m.ringFill) :
    m.ringCons v = m.fset Fld.EVT_RING_CONS_INDEX v := by
  simp only [Mod.ringCons, h, if_true]

theorem Mod.ringCons_bad (h : m.ringFill < (v + 2 ^ 32 - m.fget Fld.EVT_RING_CONS_INDEX) % 2 ^ 32) :
    m.ringCons v = m.fset Fld.TOP_HOST_ERR_CONS_BAD 1 := by
  simp only [Mod.ringCons, not_le.2 h, if_false]

/-- EVT_LOG_ACK does not go back. -/
theorem Mod.logAck_spec (hv : v < 2 ^ 32) : (m.logAck v).fget Fld.EVT_LOG_ACK_INDEX = max v (m.fget Fld.EVT_LOG_ACK_INDEX)
    ∧ Mod.alters [.regs] [Reg.EVT_LOG_ACK.base] m (m.logAck v) := by
  unfold Mod.logAck
  split
  · next h => exact ⟨(max_eq_right h.le).symm, .refl⟩
  · next h =>
    refine ⟨?_, .fset rfl (.head _) .refl⟩
    rw [max_eq_left (not_lt.1 h), Mod.fget_fset_same _ _ _ _ _ (by decide)]
    exact Nat.mod_eq_of_lt hv

end

/-! ### The registers' commands -/

/-- BAR2_RESIZE clears the window's base. -/
theorem bar2Resize_spec {m : Mod} (n : Nat) :
    let x := Mod.set64 { m with host := { m.host with bar2Log2 := n } } Fld.TOP_BAR2_BASE_LO_BASE Fld.TOP_BAR2_BASE_HI_BASE 0
    x.bar2Base = 0 ∧ Mod.alters [.regs, .host] [Reg.TOP_BAR2_BASE_LO.base, Reg.TOP_BAR2_BASE_HI.base] m x :=
  ⟨Mod.bar2Base_set64 0, Mod.set64_alters rfl ⟨.head _, .tail _ (.head _)⟩ (.last (m.sameBut_host _) rfl rfl .refl)⟩

theorem lo32_of_lt {v : Nat} (h : v < 2 ^ 32) : lo32 v = v := Nat.mod_eq_of_lt h

/-- Settles O15. -/
theorem windowAndRing : Obligations.WindowAndRing := by
  unfold Obligations.WindowAndRing
  refine ⟨fun s v h => ?_, fun s v low h hlt hlow hfit => ?_, fun s v low h hlow hbad => ?_, fun s n h30 h39 hne => ?_, fun s v h => ?_,
    fun s off v hring h hon => ?_, fun s low high h hoff => ?_, fun s v h hv => ⟨fun hfit => ?_, fun hbad => ?_⟩, fun s v h hv => ?_⟩
  · refine ⟨_, exec_reg rfl h, ?_, ?_, State.setsOnly_of (.kept rfl rfl .refl)⟩
    · exact congrArg₂ (· + 2 ^ 32 * ·) (Mod.fget_of_store_eq _ _ rfl _ _ _) (Mod.fget_of_store_eq _ _ rfl _ _ _)
    · exact kvGet?_kvSet_same _ _ _
  · have hmod : lo32 v % 2 ^ 16 = v % 2 ^ 16 := by simp only [lo32]; omega
    have hw := Mod.bar2BaseWrite_taken (m := s.m) (v := lo32 v) hlow (by rwa [hmod])
    rw [hmod] at hw
    refine ⟨_, exec_reg rfl h, ?_, State.setsOnly_of ?_⟩ <;> simp only [hw]
    · rw [Mod.bar2Base_set64]
      omega
    · exact Mod.set64_alters rfl ⟨.head _, .tail _ (.head _)⟩ (.kept rfl rfl .refl)
  · have hmod : lo32 v % 2 ^ 16 = v % 2 ^ 16 := by simp only [lo32]; omega
    have hw := Mod.bar2BaseWrite_bad (m := s.m) (v := lo32 v) hlow (by rwa [hmod])
    refine ⟨_, exec_reg rfl h, ?_, State.setsOnly_of ?_⟩ <;> simp only [hw]
    · exact Mod.fget_fset_bit _ Fld.TOP_HOST_ERR_BASE_BAD 0 0 rfl
    · exact .fset rfl (.head _) .refl
  · obtain ⟨hbase, halt⟩ := bar2Resize_spec (m := s.m) n
    exact ⟨_, exec_on rfl (if_pos ⟨h30, h39, hne⟩), rfl, hbase, rfl, ⟨rfl, rfl, halt.parts⟩, halt.words⟩
  · have hsize : bitsOf (lo32 v) 5 1 = v / 2 % 32 := by simp only [lo32, bitsOf]; omega
    obtain ⟨hen, hco, hlog, hbusy, halt⟩ := Mod.ringCtrl_spec (m := s.m) (v := lo32 v)
    rw [hsize] at hlog hbusy
    refine ⟨_, exec_reg rfl h, hen.trans ?_, hco.trans ?_, hlog, fun hon _ _ hne => hbusy hon hne, State.setsOnly_of halt⟩
    · simp only [lo32]; omega
    · simp only [lo32]; omega
  · refine ⟨_, by simp only [exec, execRingAddrWrite, hring, if_true, State.reg_answers _ h, Mod.ringAddr_busy hon]; rfl, ?_, State.setsOnly_of ?_⟩
    · exact Mod.fget_fset_bit _ Fld.TOP_HOST_ERR_RING_BUSY 0 0 rfl
    · exact .fset rfl (.head _) .refl
  · let t : State := { s with m := { s.m with regs := { s.m.regs with lo := kvSet s.m.regs.lo Reg.EVT_RING_BASE_LO.base (lo32 low) } } }
    have ht : exec (.ringAddrWrite Reg.EVT_RING_BASE_LO.base low) s = .next t := by
      have hring : isRingAddr Reg.EVT_RING_BASE_LO.base = true := rfl
      simp only [exec, execRingAddrWrite, hring, if_true, State.reg_answers _ h, Mod.ringAddr_open hoff, Mod.regWrite_lo at?_ringBase.1 rfl rfl]
      rfl
    have hanswers : t.m.answers Reg.EVT_RING_BASE_HI.base = true := h
    have hoff' : t.m.fget Fld.EVT_RING_CTRL_ENABLE = 0 := (Mod.fget_of_store_eq _ _ rfl _ _ _).trans hoff
    obtain ⟨hbase, halt⟩ := Mod.regWrite_ringBase (m := t.m) (v := lo32 high) (low := lo32 low) (kvGet?_kvSet_same _ _ _)
      (Nat.mod_lt _ (by decide)) (Nat.mod_lt _ (by decide))
    refine ⟨t, { t with m := t.m.regWrite Reg.EVT_RING_BASE_HI.base (lo32 high) }, ht, ?_, hbase, ?_⟩
    · have hring : isRingAddr Reg.EVT_RING_BASE_HI.base = true := rfl
      simp only [exec, execRingAddrWrite, hring, if_true, State.reg_answers _ hanswers, Mod.ringAddr_open hoff']
    · have hkept : Mod.alters [.regs] [Reg.EVT_RING_BASE_LO.base, Reg.EVT_RING_BASE_HI.base] s.m t.m := .kept rfl rfl .refl
      exact State.setsOnly_of (hkept.trans halt)
  · refine ⟨_, exec_reg rfl h, ?_, State.setsOnly_of ?_⟩ <;> simp only [lo32_of_lt hv, Mod.ringCons_taken hfit]
    · exact (Mod.fget_fset_same _ _ _ _ _ (by decide)).trans (Nat.mod_eq_of_lt hv)
    · exact .fset rfl (.head _) .refl
  · refine ⟨_, exec_reg rfl h, ?_, State.setsOnly_of ?_⟩ <;> simp only [lo32_of_lt hv, Mod.ringCons_bad hbad]
    · exact Mod.fget_fset_bit _ Fld.TOP_HOST_ERR_CONS_BAD 0 0 rfl
    · exact .fset rfl (.head _) .refl
  · obtain ⟨hack, halt⟩ := Mod.logAck_spec (m := s.m) hv
    refine ⟨_, exec_reg rfl h, ?_, State.setsOnly_of ?_⟩ <;> simp only [lo32_of_lt hv]
    · exact hack
    · exact halt

end Sys2Proof.Machine
end

section
/-! PROOF. Plate slots, proofs and requests (02_plate_and_tick.md R43 to R54). -/

namespace Sys2Proof.Machine

/-! ### Slots -/

section
variable (p : PlateUnit) (i : Nat) (x : Slot)

@[simp] theorem PlateUnit.slot_setSlot_same : (p.setSlot i x).slot i = x := by
  unfold PlateUnit.setSlot PlateUnit.slot
  split <;> rfl

@[simp] theorem PlateUnit.slot_setSlot_other (hi : i < 2) : (p.setSlot i x).slot (1 - i) = p.slot (1 - i) := by
  match i, hi with
  | 0, _ => rfl
  | 1, _ => rfl

@[simp] theorem PlateUnit.setSlot_active : (p.setSlot i x).active = p.active := by
  unfold PlateUnit.setSlot
  split <;> rfl

@[simp] theorem PlateUnit.setSlot_pending : (p.setSlot i x).pending = p.pending := by
  unfold PlateUnit.setSlot
  split <;> rfl

end

section
variable (m : Mod)

@[simp] theorem Mod.fget_with_plt (x : PlateUnit) (f : Fld) (i j : Nat) : { m with plt := x }.fget f i j = m.fget f i j := (rfl)
@[simp] theorem Mod.fget_setSlot (i : Nat) (x : Slot) (f : Fld) (a b : Nat) : (m.setSlot i x).fget f a b = m.fget f a b := (rfl)
@[simp] theorem Mod.setSlot_plt (i : Nat) (x : Slot) : (m.setSlot i x).plt = m.plt.setSlot i x := rfl

end

/-! ### Records and interrupts -/

section
variable {m : Mod} {k : EvClass} {code source d0 d1 d2 : Nat}

/-- What waits goes on waiting while records and tick stand. -/
theorem Mod.reports_of_eq {n : Mod} (he : n.evIn = m.evIn) (ht : n.tick = m.tick) (h : m.reports k code source d0 d1 d2) :
    n.reports k code source d0 d1 d2 := by
  rw [Mod.reports, he, ht]
  exact h

/-- Of each data word a record keeps 32 bits. -/
theorem Mod.reports_congr {e0 e1 e2 : Nat} (h : m.reports k code source d0 d1 d2) (h0 : lo32 d0 = lo32 e0) (h1 : lo32 d1 = lo32 e1)
    (h2 : lo32 d2 = lo32 e2) : m.reports k code source e0 e1 e2 := by
  rw [Mod.reports, ← h0, ← h1, ← h2]
  exact h

end

theorem lo32_lo32 (v : Nat) : lo32 (lo32 v) = lo32 v := Nat.mod_mod _ _

theorem lo32_hi32 (v : Nat) : lo32 (hi32 v) = lo32 (v / 2 ^ 32) := Nat.mod_mod _ _

/-- A request refused or withdrawn sets PLT_ACT_RESULT and raises ACT_REFUSED. -/
theorem Mod.actRefused_spec (m : Mod) (slot target : Nat) {result : Nat} (hr : result < 8) :
    (m.actRefused slot target result).plt = m.plt ∧ (m.actRefused slot target result).fget Fld.PLT_ACT_RESULT_RESULT = result
      ∧ (m.actRefused slot target result).reports .corrected 0x0203 slot result target 0
      ∧ Mod.alters [.regs, .evIn, .host] [Reg.PLT_ACT_RESULT.base] m (m.actRefused slot target result) := by
  refine ⟨?_, ?_, ?_, ?_⟩ <;> unfold Mod.actRefused
  · simp
  · rw [Mod.fget_msix, Mod.fget_raise, Mod.fget_fset_same _ _ _ _ _ (by decide)]
    exact Nat.mod_eq_of_lt hr
  · exact Mod.reports_of_eq (Mod.msix_evIn _ _) (Mod.msix_tick _ _)
      (Mod.reports_congr (Mod.raise_reports _ _ _ _ _ _ _) rfl (lo32_lo32 _) rfl)
  · exact .last (Mod.msix_sameBut _ _) rfl rfl (.raise rfl (.fset rfl (.head _) .refl))

section
variable {m : Mod} {slot : Nat}

theorem Mod.cancelPending_some {r : PendReq} (h : m.plt.pending = some r) :
    m.cancelPending = ({ m with plt := { m.plt with pending := none } }).actRefused r.slot r.target 5 := by
  simp only [Mod.cancelPending, h]

theorem Mod.cancelPending_none (h : m.plt.pending = none) : m.cancelPending = m := by
  simp only [Mod.cancelPending, h]

/-- A cancellation leaves all of the plate unit but the request. -/
theorem Mod.cancelPending_plt : m.cancelPending.plt = { m.plt with pending := none } := by
  unfold Mod.cancelPending
  split
  · next h => rw [← h]
  · exact (Mod.actRefused_spec _ _ _ (by decide)).1

theorem Mod.cancelFor_plt : (m.cancelFor slot).plt.slot = m.plt.slot ∧ (m.cancelFor slot).plt.active = m.plt.active := by
  unfold Mod.cancelFor
  split
  · split
    · rw [Mod.cancelPending_plt]
      exact ⟨rfl, rfl⟩
    · exact ⟨rfl, rfl⟩
  · exact ⟨rfl, rfl⟩

theorem Mod.cancelFor_pending {target : Nat} (h : m.plt.pending = some ⟨true, slot, target⟩) : m.cancelFor slot = m.cancelPending := by
  simp [Mod.cancelFor, h]

/-! ### Slot commands -/

/-- A slot command refused sets CMD_REFUSED and raises SLOT_CMD_REFUSED (R44). -/
theorem Mod.slotRefused_spec (s : State) (slot cmd : Nat) :
    (s.m.slotRefused slot cmd).plt = s.m.plt ∧ (s.m.slotRefused slot cmd).fget Fld.PLT_ERR_CMD_REFUSED = 1
      ∧ (s.m.slotRefused slot cmd).reports .corrected 0x0201 slot cmd (s.m.plt.slot slot).st.code 0
      ∧ State.setsAndRaises [Reg.PLT_ERR.base] s { s with m := s.m.slotRefused slot cmd } :=
  ⟨rfl, Mod.fget_fset_bit s.m Fld.PLT_ERR_CMD_REFUSED 0 0 rfl, Mod.raise_reports _ _ _ _ _ _ _,
    State.setsAndRaises_of (.raise rfl (.fset rfl (.head _) .refl))⟩

/-- A slot emptied or opened for loading, its pending activation cancelled. -/
theorem Mod.cancelFor_setSlot (hslot : slot < 2) (x : Slot) :
    ((m.cancelFor slot).setSlot slot x).plt.slot slot = x
      ∧ ((m.cancelFor slot).setSlot slot x).plt.slot (1 - slot) = m.plt.slot (1 - slot)
      ∧ ((m.cancelFor slot).setSlot slot x).plt.active = m.plt.active := by
  obtain ⟨hsl, hact⟩ := m.cancelFor_plt (slot := slot)
  simp [hslot, hsl, hact]

end

/-! ### Registers with several instances -/

section
variable (f : Fld) (v : Nat → Nat) (i n : Nat) (m : Mod)

/-- The words `0` to `n − 1` of one place of a register set one after another. -/
def Mod.fsetWords : Mod := (List.range n).foldl (fun x w => x.fset f (v w) i w) m

theorem Mod.fsetWords_succ : Mod.fsetWords f v i (n + 1) m = (Mod.fsetWords f v i n m).fset f (v n) i n := by
  simp [Mod.fsetWords, List.range_succ]

theorem Mod.fget_fsetWords_other {g : Fld} {a b : Nat} (h : ∀ w < n, g.reg.addr a b ≠ f.reg.addr i w) :
    (Mod.fsetWords f v i n m).fget g a b = m.fget g a b := by
  induction n with
  | zero => rfl
  | succ n ih =>
    rw [Mod.fsetWords_succ, Mod.fget_fset_otherReg _ _ _ _ _ _ _ _ (h n n.lt_succ_self), ih fun w hw => h w (Nat.lt_succ_of_lt hw)]

theorem Mod.fget_fsetWords (hf : f.lo ≤ f.hi) (hs : 0 < f.reg.s2) {w : Nat} (hw : w < n) :
    (Mod.fsetWords f v i n m).fget f i w = v w % 2 ^ (f.hi + 1 - f.lo) := by
  induction n with
  | zero => exact (Nat.not_lt_zero _ hw).elim
  | succ n ih =>
    rw [Mod.fsetWords_succ]
    rcases Nat.lt_succ_iff_lt_or_eq.1 hw with hlt | rfl
    · rw [Mod.fget_fset_otherReg, ih hlt]
      have := Nat.mul_lt_mul_of_pos_right hlt hs
      simp only [RegSpec.addr]
      omega
    · exact Mod.fget_fset_same _ _ _ _ _ hf

end

/-! ### What a proof writes of a slot's registers -/

/-- Registers of a slot lie apart from those of another kind. -/
theorem slotReg_ne {q r : RegSpec} {i : Nat} (hi : i < 2) (h : ∀ a < 2, q.addr a 0 ≠ r.addr a 0) : q.addr i 0 ≠ r.addr i 0 := h i hi

theorem slotHash_ne {q : RegSpec} {i : Nat} (hi : i < 2) (h : ∀ a < 2, ∀ w < 8, q.addr a 0 ≠ Reg.PLT_SLOT_HASH.addr a w) :
    ∀ w < 8, q.addr i 0 ≠ Reg.PLT_SLOT_HASH.addr i w := h i hi

/-- PROVE clears the registers that the proof writes, but the result (R48). -/
theorem Mod.clearSlotRegs_spec (m : Mod) {slot : Nat} (hs : slot < 2) :
    (m.clearSlotRegs slot).fget Fld.PLT_SLOT_LEN_LEN slot = 0 ∧ (m.clearSlotRegs slot).fget Fld.PLT_SLOT_EPOCH_EPOCH slot = 0
      ∧ (m.clearSlotRegs slot).fget Fld.PLT_SLOT_FAIL_FAIL slot = 0
      ∧ (∀ w < 8, (m.clearSlotRegs slot).fget Fld.PLT_SLOT_HASH_HASH slot w = 0)
      ∧ (m.clearSlotRegs slot).fget Fld.PLT_SLOT_STATUS_RESULT slot = m.fget Fld.PLT_SLOT_STATUS_RESULT slot := by
  have e : m.clearSlotRegs slot = Mod.fsetWords Fld.PLT_SLOT_HASH_HASH (fun _ => 0) slot 8
      (((m.fset Fld.PLT_SLOT_LEN_LEN 0 slot).fset Fld.PLT_SLOT_EPOCH_EPOCH 0 slot).fset Fld.PLT_SLOT_FAIL_FAIL 0 slot) := rfl
  have hne : ∀ f g : Fld, (∀ a < 2, g.reg.addr a 0 ≠ f.reg.addr a 0) → ∀ n : Mod, ∀ v,
      (n.fset f v slot).fget g slot = n.fget g slot := fun f g h n v => Mod.fget_fset_otherReg _ _ _ _ _ _ _ _ (h slot hs)
  have hh : ∀ g : Fld, (∀ a < 2, ∀ w < 8, g.reg.addr a 0 ≠ Reg.PLT_SLOT_HASH.addr a w) → ∀ n : Mod,
      (Mod.fsetWords Fld.PLT_SLOT_HASH_HASH (fun _ => 0) slot 8 n).fget g slot = n.fget g slot := fun g h n =>
    Mod.fget_fsetWords_other _ _ _ _ _ (h slot hs)
  rw [e]
  refine ⟨?_, ?_, ?_, fun w hw => ?_, ?_⟩
  · rw [hh _ (by decide), hne _ _ (by decide), hne _ _ (by decide), Mod.fget_fset_same _ _ _ _ _ (by decide), Nat.zero_mod]
  · rw [hh _ (by decide), hne _ _ (by decide), Mod.fget_fset_same _ _ _ _ _ (by decide), Nat.zero_mod]
  · rw [hh _ (by decide), Mod.fget_fset_same _ _ _ _ _ (by decide), Nat.zero_mod]
  · rw [Mod.fget_fsetWords _ _ _ _ _ (by decide) (by decide) hw, Nat.zero_mod]
  · rw [hh _ (by decide), hne _ _ (by decide), hne _ _ (by decide), hne _ _ (by decide)]

theorem Mod.clearSlotRegs_plt (m : Mod) (slot : Nat) : (m.clearSlotRegs slot).plt = m.plt :=
  (m.clearSlotRegs_sameBut slot).plt (by decide)

/-- Settles O16. -/
theorem slotCommands : Obligations.SlotCommands := by
  unfold Obligations.SlotCommands
  refine ⟨fun s slot hslot h => ⟨?_, ?_, ?_⟩, fun s off slot data ecc hup hfit hsl hst => ?_⟩
  · refine ⟨_, exec_reg rfl h, ?_⟩
    simp only [Mod.slotCmd]
    split
    · exact Mod.cancelFor_setSlot hslot _
    · exact Mod.slotRefused_spec s slot 1
  · refine ⟨_, exec_reg rfl h, ?_⟩
    simp only [Mod.slotCmd]
    split
    · obtain ⟨hlen, hepoch, hfail, hhash, hres⟩ := s.m.clearSlotRegs_spec hslot
      simp [hslot, hlen, hepoch, hfail, hres, Mod.clearSlotRegs_plt]
      exact hhash
    · exact Mod.slotRefused_spec s slot 2
  · refine ⟨_, exec_reg rfl h, ?_⟩
    simp only [Mod.slotCmd]
    by_cases hbad : (s.m.plt.slot slot).st = .active ∨ (s.m.plt.slot slot).st = .proving
    · rw [if_pos hbad, if_neg (by tauto)]
      exact Mod.slotRefused_spec s slot 3
    · rw [if_neg hbad, if_pos (by tauto)]
      exact Mod.cancelFor_setSlot hslot _
  · have e : exec (.bar2Write off data ecc none) s = .next { s with m := Mod.bar2WriteAt s.m (s.m.bar2Base + off) data ecc } :=
      exec_on rfl (by simp [hup, hfit])
    refine ⟨_, e, ?_⟩
    simp only [Mod.bar2WriteAt, hsl, if_neg hst]
    refine ⟨?_, ?_, State.setsAndRaises_of (.raise rfl (.fset rfl (.head _) .refl))⟩
    · rw [Mod.fget_raise]
      exact Mod.fget_fset_bit s.m Fld.PLT_ERR_WRITE_REFUSED 0 0 rfl
    · exact Mod.reports_congr (Mod.raise_reports _ _ _ _ _ _ _) (lo32_lo32 _) (lo32_hi32 _) rfl

/-! ### Requests -/

/-- A request withdrawn leaves nothing pending, with the result CANCELLED (R51). -/
theorem Mod.cancelPending_spec {m : Mod} {r : PendReq} (h : m.plt.pending = some r) :
    m.cancelPending.plt = { m.plt with pending := none } ∧ m.cancelPending.fget Fld.PLT_ACT_RESULT_RESULT = 5
      ∧ m.cancelPending.reports .corrected 0x0203 r.slot 5 r.target 0 := by
  obtain ⟨hplt, hres, hrep, -⟩ := Mod.actRefused_spec { m with plt := { m.plt with pending := none } } r.slot r.target (result := 5) (by decide)
  rw [Mod.cancelPending_some h]
  exact ⟨hplt, hres, hrep⟩

/-- A slot opened or cleared with its activation pending (R45). -/
theorem Mod.cancelFor_setSlot_pending {m : Mod} {slot target : Nat} (h : m.plt.pending = some ⟨true, slot, target⟩) (x : Slot) :
    ((m.cancelFor slot).setSlot slot x).plt.pending = none
      ∧ ((m.cancelFor slot).setSlot slot x).fget Fld.PLT_ACT_RESULT_RESULT = 5
      ∧ ((m.cancelFor slot).setSlot slot x).reports .corrected 0x0203 slot 5 target 0 := by
  obtain ⟨hplt, hres, hrep⟩ := Mod.cancelPending_spec h
  rw [Mod.cancelFor_pending h, Mod.fget_setSlot, Mod.setSlot_plt, PlateUnit.setSlot_pending, hplt]
  exact ⟨rfl, hres, Mod.reports_of_eq rfl rfl hrep⟩

/-- Settles O17. -/
theorem activationRequests : Obligations.ActivationRequests := by
  unfold Obligations.ActivationRequests
  intro s slot h
  refine ⟨fun hst => ?_, fun hst => ?_, fun hany => ?_, fun hno hnone => ?_, fun r hr => ?_, fun hnone => ?_,
    fun target _ hcmd hst hpend c hc => ?_⟩
  · exact (exec_reg rfl h).trans (by simp [Mod.actCmd, hst])
  · obtain ⟨hplt, hres, hrep, halt⟩ := s.m.actRefused_spec slot s.m.actTarget (result := 1) (by decide)
    have e : s.m.actCmd 1 slot = s.m.actRefused slot s.m.actTarget 1 := by simp [Mod.actCmd, hst]
    exact ⟨_, (exec_reg rfl h).trans (by rw [e]), hplt, hres, hrep, halt.words⟩
  · refine ⟨_, ⟨false, s.m.plt.active.getD 0, 0⟩, exec_reg rfl h, ?_, rfl⟩
    have hreq : (s.m.plateActive || s.m.plt.pending.any (·.activate)) = true := by simpa using hany
    simp only [Mod.actCmd, hreq, if_true]
  · exact exec_reg_self rfl fun _ => by simp [Mod.actCmd, hno, hnone]
  · exact ⟨_, exec_reg rfl h, Mod.cancelPending_spec hr⟩
  · exact exec_reg_self rfl fun _ => Mod.cancelPending_none hnone
  · rcases hc with rfl | rfl
    · refine ⟨_, exec_reg rfl hcmd, ?_⟩
      simp only [Mod.slotCmd, hst, reduceCtorEq, true_or, or_true, if_true]
      exact Mod.cancelFor_setSlot_pending hpend _
    · refine ⟨_, exec_reg rfl hcmd, ?_⟩
      simp only [Mod.slotCmd, hst, reduceCtorEq, or_false, if_false]
      exact Mod.cancelFor_setSlot_pending hpend _

end Sys2Proof.Machine
end

section
/-! PROOF. Plates that become active, route updates and deactivations (02_plate_and_tick.md R50 to R53). -/

namespace Sys2Proof.Machine

/-! ### The conditions of R52 -/

section
variable {m : Mod} {p : Plate}

theorem Mod.actCheck_le : m.actCheck p < 8 := by
  unfold Mod.actCheck
  split_ifs <;> decide

/-- A FULL plate whose period, alignment and resources fit. -/
theorem Mod.actCheck_full (hkind : p.hdr.kind = .full) (hper : p.hdr.periodUs = m.fget Fld.TCK_PERIOD_PERIOD_US)
    (hal : p.routes.isSome = true → m.aligned = true) (hf : m.plateFenced p = false) : m.actCheck p = 0 := by
  unfold Mod.actCheck
  rw [if_neg (by simpa using hper), if_neg (by simpa using hal), if_neg (by simp [hf]), if_neg (by simp [hkind])]

/-- What a route update must match of the active plate. -/
theorem Mod.actCheck_route (hkind : p.hdr.kind = .routeUpdate) (hper : p.hdr.periodUs = m.fget Fld.TCK_PERIOD_PERIOD_US)
    (hal : p.routes.isSome = true → m.aligned = true) (hf : m.plateFenced p = false) :
    m.actCheck p = if m.plate?.map (·.hash) = some p.hdr.baseHash ∧ m.epoch = p.hdr.epoch then 0 else 6 := by
  unfold Mod.actCheck
  rw [if_neg (by simpa using hper), if_neg (by simpa using hal), if_neg (by simp [hf])]
  by_cases h : m.plate?.map (·.hash) = some p.hdr.baseHash ∧ m.epoch = p.hdr.epoch
  · rw [if_pos h, if_neg (by tauto)]
  · rw [if_neg h, if_pos (by tauto)]

/-- Either result of the last check is 0 where it holds and 6 where it does not. -/
theorem Mod.actCheck_route_iff (hkind : p.hdr.kind = .routeUpdate) (hper : p.hdr.periodUs = m.fget Fld.TCK_PERIOD_PERIOD_US)
    (hal : p.routes.isSome = true → m.aligned = true) (hf : m.plateFenced p = false) :
    (m.actCheck p = 0 ↔ ∃ q, m.plate? = some q ∧ q.hash = p.hdr.baseHash ∧ m.epoch = p.hdr.epoch) ∧ (m.actCheck p ≠ 0 → m.actCheck p = 6) := by
  rw [Mod.actCheck_route hkind hper hal hf]
  constructor
  · simp [Option.map_eq_some_iff, ← exists_and_right, and_assoc]
  · split <;> simp

/-- The order of the checks. -/
theorem Mod.actCheck_order : (p.hdr.periodUs ≠ m.fget Fld.TCK_PERIOD_PERIOD_US → m.actCheck p = 2) ∧
      (p.hdr.periodUs = m.fget Fld.TCK_PERIOD_PERIOD_US →
        (p.routes.isSome = true → m.aligned = false → m.actCheck p = 3) ∧
        ((p.routes.isSome = true → m.aligned = true) → m.plateFenced p = true → m.actCheck p = 4)) := by
  refine ⟨fun h => ?_, fun h => ⟨fun hr ha => ?_, fun ha hf => ?_⟩⟩ <;> unfold Mod.actCheck
  · rw [if_pos h]
  · rw [if_neg (by simpa using h), if_pos (by simp [hr, ha])]
  · rw [if_neg (by simpa using h), if_neg (by simpa using ha), if_pos hf]

end

/-! ### What a plate starts with -/

/-- What holds of every value of a map and of every value set holds of every value afterwards. -/
theorem kvGet?_foldl_kvSet {α β : Type} {P : α → Prop} (k : β → Nat) (v : β → α) (hv : ∀ b, P (v b)) (xs : List β) (kv : Kv α)
    (h : ∀ i x, kvGet? kv i = some x → P x) (i : Nat) (x : α) (hx : kvGet? (xs.foldl (fun y b => kvSet y (k b) (v b)) kv) i = some x) : P x := by
  induction xs generalizing kv with
  | nil => exact h i x hx
  | cons b bs ih =>
    refine ih (kvSet kv (k b) (v b)) (fun j y hy => ?_) hx
    by_cases hj : j = k b
    · rw [hj, kvGet?_kvSet_same, Option.some.injEq] at hy
      exact hy ▸ hv b
    · exact h j y (kvGet?_kvSet_other kv (v b) hj ▸ hy)

/-- Every stable starts at END with frame index 0 (R67). -/
theorem stablesInit_rest {p : Plate} {i : Nat} {x : StableRun} (h : kvGet? (stablesInit p) i = some x) : x.st = .fin ∧ x.frame = 0 :=
  kvGet?_foldl_kvSet (P := fun x : StableRun => x.st = .fin ∧ x.frame = 0) (fun s : StableRec => s.id)
    (fun _ => ⟨.fin, ⟨0, 0, 0⟩, 0, false, none, false, 0, false⟩) (fun _ => ⟨rfl, rfl⟩) p.stables [] (fun _ _ h => nomatch h) i x h

/-- The parts that `startPlate` sets before it writes registers and watch records. -/
theorem Mod.startPlate_parts (m : Mod) (p : Plate) :
    (m.startPlate p).plt = m.plt ∧ (m.startPlate p).step = m.step.idle ∧ (m.startPlate p).sched = ⟨[], [], stablesInit p, []⟩ := by
  have hfold : ∀ (v : Nat → Nat) (n : Mod), Mod.sameBut [.regs] n ((List.range 8).foldl (fun x w => x.fset Fld.GRM_RUN_TAG_TAG (v w) w) n) := fun v n =>
    Mod.sameBut_foldl _ _ n (fun x w => x.fset_sameBut _ _ _ _) (Mod.sameBut_refl _ _)
  refine ⟨(m.startPlate_sameBut p).plt (by decide), ?_, ?_⟩ <;> unfold Mod.startPlate <;> dsimp only
  · rw [(Mod.initWatch_sameBut _ p).step (by decide), (Mod.snoopAbandonAll_sameBut _).step (by decide)]
    iterate 5 rw [Mod.fset_step]
    rw [Mod.setBase, Mod.setBase, Mod.set64_step, Mod.set64_step]
    exact (hfold _ _).step (by decide)
  · rw [(Mod.initWatch_sameBut _ p).sched (by decide), (Mod.snoopAbandonAll_sameBut _).sched (by decide)]
    iterate 5 rw [Mod.fset_sched]
    rw [Mod.setBase, Mod.setBase, Mod.set64_sched, Mod.set64_sched]
    exact (hfold _ _).sched (by decide)

/-! ### A request that has taken effect -/

/-- PLT_ACT_DONE and the result OK, with MSI-X 6 (R50, R53). -/
def Mod.actDone (n : Mod) (v : Nat) : Mod :=
  ((n.set64 Fld.PLT_ACT_DONE_LO_TICK Fld.PLT_ACT_DONE_HI_TICK v).fset Fld.PLT_ACT_RESULT_RESULT 0).msix 6

/-- A result set in PLT_ACT_RESULT, with MSI-X 6. -/
theorem Mod.resultOk_spec (n : Mod) : ((n.fset Fld.PLT_ACT_RESULT_RESULT 0).msix 6).fget Fld.PLT_ACT_RESULT_RESULT = 0
    ∧ Mod.sameBut [.regs, .host] n ((n.fset Fld.PLT_ACT_RESULT_RESULT 0).msix 6) := by
  constructor
  · rw [Mod.fget_msix, Mod.fget_fset_same _ _ _ _ _ (by decide), Nat.zero_mod]
  · exact Mod.sameBut_trans (Mod.sameBut_mono (n.fset_sameBut _ _ _ _) (by decide)) (Mod.sameBut_mono (Mod.msix_sameBut _ _) (by decide))

theorem Mod.actDone_spec (n : Mod) (v : Nat) : (n.actDone v).get64 Fld.PLT_ACT_DONE_LO_TICK Fld.PLT_ACT_DONE_HI_TICK = v % 2 ^ 48
    ∧ (n.actDone v).fget Fld.PLT_ACT_RESULT_RESULT = 0 ∧ Mod.sameBut [.regs, .host] n (n.actDone v) := by
  obtain ⟨hres, hrest⟩ := (n.set64 Fld.PLT_ACT_DONE_LO_TICK Fld.PLT_ACT_DONE_HI_TICK v).resultOk_spec
  have hpair := n.get64_set64 (lo := Fld.PLT_ACT_DONE_LO_TICK) (hi := Fld.PLT_ACT_DONE_HI_TICK) 0 v (by decide) ⟨rfl, rfl⟩ (by decide)
  have hkeep : ∀ (x : Mod) (f : Fld), f.reg.addr 0 0 ≠ Reg.PLT_ACT_RESULT.addr 0 0 →
      ((x.fset Fld.PLT_ACT_RESULT_RESULT 0).msix 6).fget f = x.fget f := fun x f hf => by
    rw [Mod.fget_msix, Mod.fget_fset_otherReg _ _ _ _ _ _ _ _ hf]
  refine ⟨?_, hres, Mod.sameBut_trans (Mod.sameBut_mono (n.set64_sameBut _ _ _ _) (by decide)) hrest⟩
  rw [Mod.actDone, Mod.get64, hkeep _ _ (by decide), hkeep _ _ (by decide)]
  exact hpair

/-- The slot of the active plate, where there is one, back to PROVEN. -/
def PlateUnit.retire (p : PlateUnit) : PlateUnit :=
  match p.active with
  | some i => p.setSlot i { p.slot i with st := .proven }
  | none => p

/-- The plate unit after an activation of a FULL plate with regions `rs`. -/
def PlateUnit.activated (p : PlateUnit) (slot : Nat) (rs : List Region) (full : Nat) : PlateUnit :=
  { (p.retire.setSlot slot { p.retire.slot slot with st := .active }).carry rs full with active := some slot, pending := none }

theorem PlateUnit.activated_slot (p : PlateUnit) (slot : Nat) (rs : List Region) (full : Nat) :
    (p.activated slot rs full).slot = (p.retire.setSlot slot { p.retire.slot slot with st := .active }).slot := rfl

theorem PlateUnit.retire_plate (p : PlateUnit) (j : Nat) : (p.retire.slot j).plate = (p.slot j).plate := by
  unfold PlateUnit.retire
  split
  · next i =>
    unfold PlateUnit.setSlot PlateUnit.slot
    split_ifs <;> rfl
  · rfl

/-- What an activation of a FULL plate leaves (R50). -/
theorem Mod.activateFull_parts (m : Mod) (slot : Nat) (p : Plate) :
    (∃ full, (m.activateFull slot p).plt = m.plt.activated slot p.regions full)
      ∧ (m.activateFull slot p).step = m.step.idle ∧ (m.activateFull slot p).sched = ⟨[], [], stablesInit p, []⟩
      ∧ (m.activateFull slot p).get64 Fld.PLT_ACT_DONE_LO_TICK Fld.PLT_ACT_DONE_HI_TICK = m.tick.count % 2 ^ 48
      ∧ (m.activateFull slot p).fget Fld.PLT_ACT_RESULT_RESULT = 0 := by
  obtain ⟨n, full, e, hplt, hstep, hsched⟩ : ∃ (n : Mod) (full : Nat), m.activateFull slot p = n.actDone m.tick.count
      ∧ n.plt = m.plt.activated slot p.regions full ∧ n.step = m.step.idle ∧ n.sched = ⟨[], [], stablesInit p, []⟩ := by
    unfold Mod.activateFull
    refine ⟨_, (m.fget Fld.PLT_FULL_GEN_GEN + 1) % 2 ^ 16, rfl, ?_, ?_, ?_⟩
    · rw [(Mod.extend_sameBut _ _ _ _).plt (by decide), (Mod.portsActivate_sameBut _ _).plt (by decide),
        (Mod.takeTickTree_sameBut _ _ _).plt (by decide), (Mod.startPlate_parts _ p).1, Mod.fset_plt, Mod.fset_plt]
      rfl
    · rw [(Mod.extend_sameBut _ _ _ _).step (by decide), (Mod.portsActivate_sameBut _ _).step (by decide),
        (Mod.takeTickTree_sameBut _ _ _).step (by decide), (Mod.startPlate_parts _ p).2.1, Mod.fset_step, Mod.fset_step]
    · rw [(Mod.extend_sameBut _ _ _ _).sched (by decide), (Mod.portsActivate_sameBut _ _).sched (by decide),
        (Mod.takeTickTree_sameBut _ _ _).sched (by decide), (Mod.startPlate_parts _ p).2.2]
  obtain ⟨hdone, hres, hrest⟩ := n.actDone_spec m.tick.count
  rw [e]
  exact ⟨⟨full, (hrest.plt (by decide)).trans hplt⟩, (hrest.step (by decide)).trans hstep, (hrest.sched (by decide)).trans hsched, hdone, hres⟩

/-- A command of a unit while the units run, its change of the module given by what it comes to. -/
theorem exec_unit_eq {c : Instr} {s : State} {f : Mod → Mod} {n : Mod} (e : exec c s = .next (s.unit f)) (h : s.m.running = true)
    (hf : f s.m = n) : exec c s = .next { s with m := n } := by
  rw [exec_unit e h, hf]

section
variable {m : Mod} {slot target : Nat} {p : Plate}

/-- The request of a proven slot that is due. -/
theorem Mod.dueActivation_proven (hb : m.atBoundary = true) (hpend : m.plt.pending = some ⟨true, slot, target⟩)
    (hs : m.plt.slot slot = ⟨.proven, some p, none⟩) :
    m.dueActivation p.hdr.kind = if target ≤ m.tick.count ∧ (p.hdr.kind = .routeUpdate ∨ (!m.stepBusy && m.drained) = true)
      then some (⟨true, slot, target⟩, some p) else none := by
  simp only [Mod.dueActivation, hpend, hb, hs, true_and, Bool.true_and, decide_eq_true_eq]
  by_cases ht : target ≤ m.tick.count <;> simp [ht]

/-- The plate of the slot made active. -/
theorem Mod.activateFull_plate (hs : m.plt.slot slot = ⟨.proven, some p, none⟩) :
    (m.activateFull slot p).plt.active = some slot ∧ (m.activateFull slot p).plt.pending = none
      ∧ ((m.activateFull slot p).plt.slot slot).st = .active ∧ (m.activateFull slot p).plate? = some p := by
  obtain ⟨⟨full, hplt⟩, -⟩ := m.activateFull_parts slot p
  have hslot : (m.activateFull slot p).plt.slot slot = { m.plt.retire.slot slot with st := .active } := by
    rw [hplt, PlateUnit.activated_slot, PlateUnit.slot_setSlot_same]
  have hplate : (m.plt.retire.slot slot).plate = some p := by rw [PlateUnit.retire_plate, hs]
  have hact : (m.activateFull slot p).plt.active = some slot := by rw [hplt]; rfl
  refine ⟨hact, by rw [hplt]; rfl, by rw [hslot], ?_⟩
  rw [Mod.plate?, hact, Option.bind_some, hslot]
  exact hplate

/-- The plate active before is PROVEN again. -/
theorem Mod.activateFull_before (hslot : slot < 2) (hact : m.plt.active = some (1 - slot)) :
    (m.activateFull slot p).plt.slot (1 - slot) = { m.plt.slot (1 - slot) with st := .proven } := by
  obtain ⟨⟨full, hplt⟩, -⟩ := m.activateFull_parts slot p
  rw [hplt, PlateUnit.activated_slot, PlateUnit.slot_setSlot_other _ _ _ hslot, PlateUnit.retire, hact]
  exact PlateUnit.slot_setSlot_same _ _ _

end

/-- Settles O18. -/
theorem activationsAndChecks : Obligations.ActivationsAndChecks := by
  unfold Obligations.ActivationsAndChecks
  refine ⟨fun m p => ?_, fun s slot target p hrun hb hslot hpend hs hkind => ⟨fun ht hbusy hdr hok => ?_, fun ht hbusy hdr hbad => ?_, fun hwait => ?_⟩⟩
  · obtain ⟨hperiod, hrest⟩ := Mod.actCheck_order (m := m) (p := p)
    refine ⟨hperiod, fun hper => ⟨(hrest hper).1, fun hal => ⟨(hrest hper).2 hal, fun hf => ⟨fun hk => ?_, fun hk => ?_⟩⟩⟩⟩
    · exact Mod.actCheck_full hk hper hal hf
    · exact Mod.actCheck_route_iff hk hper hal hf
  · have hdue := Mod.dueActivation_proven hb hpend hs
    rw [hkind, if_pos ⟨ht, Or.inr (by simp [hbusy, hdr])⟩] at hdue
    obtain ⟨-, hstep, hsched, hdone, hres⟩ := s.m.activateFull_parts slot p
    obtain ⟨hact, hnone, hst, hplate⟩ := Mod.activateFull_plate hs
    refine ⟨_, exec_unit_eq (n := s.m.activateFull slot p) rfl hrun (by simp only [hdue, hok, if_true]), hact, hnone, hst, hplate,
      Mod.activateFull_before hslot, hdone, hres, ?_, fun r _ x hx => ?_⟩
    · rw [Mod.stepBusy, hstep]
      rfl
    · rw [hsched] at hx
      exact stablesInit_rest hx
  · have hdue := Mod.dueActivation_proven hb hpend hs
    rw [hkind, if_pos ⟨ht, Or.inr (by simp [hbusy, hdr])⟩] at hdue
    obtain ⟨hplt, hres, hrep, -⟩ := Mod.actRefused_spec { s.m with plt := { s.m.plt with pending := none } } slot target (Mod.actCheck_le (m := s.m) (p := p))
    refine ⟨_, exec_unit_eq (n := Mod.actRefused { s.m with plt := { s.m.plt with pending := none } } slot target (s.m.actCheck p)) rfl hrun ?_, hplt, hres, hrep⟩
    simp only [hdue, if_neg hbad]
  · have hdue := Mod.dueActivation_proven hb hpend hs
    rw [hkind, if_neg] at hdue
    · exact exec_unit_self rfl fun _ => by simp only [hdue]
    · rintro ⟨ht, h | h⟩
      · exact nomatch h
      · rw [Bool.and_eq_true, Bool.not_eq_true'] at h
        rcases hwait with hw | hw | hw
        · omega
        · exact nomatch hw.symm.trans h.1
        · exact nomatch hw.symm.trans h.2

/-! ### Route updates -/

/-- The plate unit while a route update of plate `u` in a slot takes effect. -/
def PlateUnit.rerouted (p : PlateUnit) (slot : Nat) (u : Plate) : PlateUnit :=
  { (match p.active with
    | some i => p.setSlot i { p.slot i with plate := (p.slot i).plate.map (fun (q : Plate) => Plate.merge q u) }
    | none => p).setSlot slot .empty with pending := none }

section
variable {p : PlateUnit} {slot : Nat} {u : Plate}

theorem PlateUnit.rerouted_empty : (p.rerouted slot u).slot slot = .empty := PlateUnit.slot_setSlot_same _ _ _

theorem PlateUnit.rerouted_active : (p.rerouted slot u).active = p.active := by
  unfold PlateUnit.rerouted
  rw [PlateUnit.setSlot_active]
  split
  · rw [PlateUnit.setSlot_active]
  · rfl

theorem PlateUnit.rerouted_other {i : Nat} (hact : p.active = some i) (hi : i < 2) (hslot : slot < 2) (hne : i ≠ slot) :
    ((p.rerouted slot u).slot i).plate = (p.slot i).plate.map (fun q => Plate.merge q u) := by
  have hsame : ∀ q : PlateUnit, ({ q with pending := none } : PlateUnit).slot i = q.slot i := fun _ => rfl
  obtain rfl : i = 1 - slot := by omega
  rw [PlateUnit.rerouted, hsame, PlateUnit.slot_setSlot_other _ _ _ hslot, hact]
  simp

end

/-- What a route update leaves (R53). -/
theorem Mod.applyRoutes_parts (m : Mod) (slot : Nat) (u : Plate) :
    (m.applyRoutes slot u).plt = m.plt.rerouted slot u ∧ (m.applyRoutes slot u).step = m.step ∧ (m.applyRoutes slot u).sched = m.sched
      ∧ (m.applyRoutes slot u).cores = m.cores ∧ (m.applyRoutes slot u).fget Fld.PLT_ACT_RESULT_RESULT = 0 := by
  obtain ⟨n, e, hn⟩ : ∃ n : Mod, m.applyRoutes slot u = n.actDone m.tick.count
      ∧ Mod.sameBut [.regs, .evIn, .tick, .fab, .dbg] { m with plt := m.plt.rerouted slot u } n := by
    unfold Mod.applyRoutes
    refine ⟨_, rfl, ?_⟩
    refine Mod.sameBut_trans (Mod.sameBut_trans (Mod.sameBut_mono (Mod.fcount_sameBut _ _ _ _) (by decide))
      (Mod.sameBut_mono (Mod.takeTickTree_sameBut _ _ _) (by decide))) (Mod.sameBut_mono (Mod.portsActivate_sameBut _ _) (by decide))
  obtain ⟨-, hres, hrest⟩ := n.actDone_spec m.tick.count
  rw [e]
  exact ⟨(hrest.plt (by decide)).trans (hn.plt (by decide)), (hrest.step (by decide)).trans (hn.step (by decide)),
    (hrest.sched (by decide)).trans (hn.sched (by decide)), (hrest.cores (by decide)).trans (hn.cores (by decide)), hres⟩

/-! ### Deactivation -/

/-- An expander attached touches no byte of HBM. -/
theorem Mod.loftAttach_hbm (m : Mod) (c capacity w speed : Nat) (ok : Bool) : (m.loftAttach c capacity w speed ok).mem.hbm = m.mem.hbm := by
  have hend : (m.heldEnd (m.loftPort c).held).mem.hbm = m.mem.hbm := by rw [(Mod.heldEnd_sameBut _ _).mem (by decide)]
  unfold Mod.loftAttach
  dsimp only
  split_ifs
  · exact hend
  · rw [(Mod.loftReport_sameBut _ _ _ _ _).mem (by decide), Mod.set64_mem]
    exact hend
  · rw [(Mod.loftReport_sameBut _ _ _ _ _).mem (by decide), Mod.set64_mem]
    exact hend
  · rw [(Mod.loftReport_sameBut _ _ _ _ _).mem (by decide)]
    exact hend

theorem Mod.loftDueAll_hbm (m : Mod) : m.loftDueAll.mem.hbm = m.mem.hbm := by
  unfold Mod.loftDueAll
  refine List.foldlRecOn (motive := fun x : Mod => x.mem.hbm = m.mem.hbm) _ _ rfl fun x hx c _ => ?_
  split
  · exact (Mod.loftAttach_hbm _ _ _ _ _ _).trans hx
  · exact hx

/-- Stopping a plate's units leaves HBM. -/
theorem Mod.stopPlate_hbm (m : Mod) : m.stopPlate.mem.hbm = m.mem.hbm := by
  unfold Mod.stopPlate
  rw [Mod.loftDueAll_hbm, (Mod.portsActivate_sameBut _ _).mem (by decide), (Mod.snoopAbandonAll_sameBut _).mem (by decide)]

/-- The module as a deactivation of the plate in slot `i` hands it to the units that stop. -/
def Mod.deactivated (m : Mod) (i : Nat) : Mod :=
  let p : PlateUnit := { m.plt with active := some i, pending := none }
  { m with plt := { p.setSlot i { p.slot i with st := .proven } with active := none } }

/-- The module after the deactivation of the plate in slot `i`. -/
def Mod.deactivate (m : Mod) (i : Nat) : Mod := ((m.deactivated i).stopPlate.fset Fld.PLT_ACT_RESULT_RESULT 0).msix 6

/-- What a deactivation leaves (R51). -/
theorem Mod.deactivate_parts (m : Mod) (i : Nat) : (m.deactivate i).plt = (m.deactivated i).plt
    ∧ (m.deactivate i).fget Fld.PLT_ACT_RESULT_RESULT = 0 ∧ (m.deactivate i).mem.hbm = m.mem.hbm := by
  obtain ⟨hres, hrest⟩ := (m.deactivated i).stopPlate.resultOk_spec
  refine ⟨(hrest.plt (by decide)).trans ((m.deactivated i).stopPlate_sameBut.plt (by decide)), hres, ?_⟩
  rw [Mod.deactivate, hrest.mem (by decide), Mod.stopPlate_hbm, Mod.deactivated]

/-- Settles O19. -/
theorem routeUpdateAndDeactivation : Obligations.RouteUpdateAndDeactivation := by
  unfold Obligations.RouteUpdateAndDeactivation
  refine ⟨fun s slot target p hrun hb hslot hpend hs hkind ht hok => ?_, fun s slot target i hrun hb hi hpend hact hbusy hdr => ?_, fun s hbusy => ?_⟩
  · have hdue := Mod.dueActivation_proven hb hpend hs
    rw [hkind, if_pos ⟨ht, Or.inl rfl⟩] at hdue
    obtain ⟨hplt, hstep, hsched, hcores, hres⟩ := s.m.applyRoutes_parts slot p
    refine ⟨_, exec_unit_eq (n := s.m.applyRoutes slot p) rfl hrun (by simp only [hdue, hok, if_true]), ?_, ?_, ?_, hstep, hsched, hcores,
      fun i q hact hi hne hq => ?_, hres⟩
    · rw [hplt, PlateUnit.rerouted_empty]
    · rw [hplt]
      rfl
    · rw [hplt, PlateUnit.rerouted_active]
    · rw [Mod.plate?, hplt, PlateUnit.rerouted_active, hact, Option.bind_some, PlateUnit.rerouted_other hact hi hslot hne, hq]
      rfl
  · obtain ⟨hplt, hres, hhbm⟩ := s.m.deactivate_parts i
    refine ⟨{ s with m := s.m.deactivate i }, exec_unit_eq rfl hrun ?_, ?_, ?_, ?_, ?_, ?_, ?_⟩
    · simp only [hpend, hb, hbusy, hdr, hact, Bool.not_false, Bool.and_self, if_true, Mod.deactivate, Mod.deactivated]
    · rw [hplt]
      rfl
    · rw [hplt]
      exact PlateUnit.setSlot_pending _ _ _
    · rw [hplt]
      exact PlateUnit.slot_setSlot_same _ _ _
    · rw [hplt]
      exact PlateUnit.slot_setSlot_other _ _ _ hi
    · dsimp only
      exact hres
    · dsimp only
      exact hhbm
  · refine exec_unit_self rfl fun _ => ?_
    split
    · simp [hbusy]
    · rfl

end Sys2Proof.Machine
end

section
/-! PROOF. The end of a proof (02_plate_and_tick.md R43, R46, R48, R497). -/

namespace Sys2Proof.Machine

/-- The first check that fails gives one of the codes listed; where none fails, code and offset are 0. -/
theorem firstBad_code (xs : List (Nat × List Nat)) : firstBad xs = (0, 0) ∨ (firstBad xs).1 ∈ xs.map (·.1) := by
  induction xs with
  | nil => exact .inl rfl
  | cons x xs ih =>
    obtain ⟨c, offs⟩ := x
    cases offs with
    | nil => exact ih.imp id (List.mem_cons_of_mem _)
    | cons o _ => exact .inr (List.mem_cons_self ..)

theorem Mod.lateChecks_codes (m : Mod) (b : List Byte) (tail : List (Byte × Bool)) (e : Option (List Byte)) :
    ∀ c ∈ (m.lateChecks b tail e).map (·.1), 0 < c ∧ c < 256 := by
  have h : (m.lateChecks b tail e).map (·.1) = [4, 5, 6, 0x13, 7, 8, 9, 10, 11, 12, 13, 14, 15, 16, 17, 18] := rfl
  rw [h]
  decide

/-- A result code other than OK that fits its field. -/
theorem failing_code {c : Nat} (hc : 0 < c ∧ c < 256) (x : Nat × Nat × List Byte) : (c, x).1 < 256 ∧ ((c, x).1 = 0 → (c, x).2.1 = 0) :=
  ⟨hc.2, fun h => (hc.1.ne' h).elim⟩

section
variable {m : Mod} {rd : Nat → Nat → List (Byte × Bool)} {e : Option (List Byte)}

/-- A result code fits its field, and a proof found OK has no failing offset. -/
theorem Mod.proof_code : (m.proof rd e).1 < 256 ∧ ((m.proof rd e).1 = 0 → (m.proof rd e).2.1 = 0) := by
  have hlate : ∀ (b : List Byte) (tail : List (Byte × Bool)), (firstBad (m.lateChecks b tail e)).1 < 256
      ∧ ((firstBad (m.lateChecks b tail e)).1 = 0 → (firstBad (m.lateChecks b tail e)).2 = 0) := fun b tail => by
    rcases firstBad_code (m.lateChecks b tail e) with h | h
    · rw [h]
      exact ⟨by decide, fun _ => rfl⟩
    · have hc := m.lateChecks_codes b tail e _ h
      exact ⟨hc.2, fun h0 => (hc.1.ne' h0).elim⟩
  unfold Mod.proof
  dsimp only
  split
  · exact failing_code (by decide) _
  split
  · exact failing_code (by decide) _
  split
  · exact failing_code (by decide) _
  split
  · exact failing_code (by decide) _
  split
  · exact failing_code (by decide) _
  · exact hlate _ _

theorem Mod.proof_poisoned (h : rdPoison (rd 0 128) = true) : (m.proof rd e).1 = 0x13 := by
  simp only [Mod.proof, h, if_true]

/-- A wrong MAGIC is the first thing a proof finds. -/
theorem Mod.proof_magic (h : rdPoison (rd 0 128) = false) (hmagic : bN (rdBytes (rd 0 128)) 0 4 ≠ 0x50584C53) :
    (m.proof rd e).1 = 0x01 ∧ (m.proof rd e).2.1 = 0 := by
  obtain ⟨os, hos⟩ : ∃ os, headerBad (rdBytes (rd 0 128)) = 0 :: os := by
    simp [headerBad, badAt, hmagic]
  simp [Mod.proof, h, hos]

end

/-! ### What the end of a proof writes -/

/-- The result and the failing offset that a proof finds. -/
def Mod.proofFound (m0 : Mod) (slot : Nat) (p : Nat × Nat × Nat × List Byte) : Mod :=
  (m0.fset Fld.PLT_SLOT_STATUS_RESULT p.1 slot).fset Fld.PLT_SLOT_FAIL_FAIL p.2.1 slot

/-- The length and the epoch of the image that a proof has read. -/
def Mod.proofHead (m : Mod) (slot : Nat) (b : List Byte) : Mod :=
  (m.fset Fld.PLT_SLOT_LEN_LEN (bN b 0x10 4) slot).fset Fld.PLT_SLOT_EPOCH_EPOCH (bN b 0x14 4) slot

/-- The registers that a proof's findings fill, but SIGNED and KIND. -/
def Mod.proofMark (m0 : Mod) (slot : Nat) (p : Nat × Nat × Nat × List Byte) : Mod :=
  let m2 := if p.2.2.1 = 0 then m0.proofFound slot p else (m0.proofFound slot p).proofHead slot p.2.2.2
  if p.2.2.1 = 2 then m2.writeSlotHash slot (sha256 p.2.2.2) else m2

section
variable {m : Mod} {slot : Nat} {p : Nat × Nat × Nat × List Byte}

theorem Mod.proofFound_sameBut (m : Mod) (slot : Nat) (p : Nat × Nat × Nat × List Byte) : Mod.sameBut [.regs] m (m.proofFound slot p) :=
  Mod.sameBut_trans (Mod.fset_sameBut _ _ _ _ _) (Mod.fset_sameBut _ _ _ _ _)

theorem Mod.proofHead_sameBut (m : Mod) (slot : Nat) (b : List Byte) : Mod.sameBut [.regs] m (m.proofHead slot b) :=
  Mod.sameBut_trans (Mod.fset_sameBut _ _ _ _ _) (Mod.fset_sameBut _ _ _ _ _)

/-- What holds of the findings and survives length, epoch and hash holds of all that the proof fills. -/
theorem Mod.proofMark_induct {P : Mod → Prop} (h : P (m.proofFound slot p)) (hhead : ∀ n b, P n → P (n.proofHead slot b))
    (hhash : ∀ n b, P n → P (n.writeSlotHash slot b)) : P (m.proofMark slot p) := by
  have h2 : P (if p.2.2.1 = 0 then m.proofFound slot p else (m.proofFound slot p).proofHead slot p.2.2.2) := by
    split
    · exact h
    · exact hhead _ _ h
  unfold Mod.proofMark
  dsimp only
  by_cases hc : p.2.2.1 = 2
  · rw [if_pos hc]
    exact hhash _ _ h2
  · rw [if_neg hc]
    exact h2

theorem Mod.proofMark_sameBut : Mod.sameBut [.regs] m (m.proofMark slot p) :=
  Mod.proofMark_induct (m.proofFound_sameBut slot p) (fun n _ hn => Mod.sameBut_trans hn (n.proofHead_sameBut _ _))
    (fun n _ hn => Mod.sameBut_trans hn (n.writeSlotHash_sameBut _ _))

/-- Length, epoch and hash of a slot lie apart from its status and its failing offset. -/
theorem Mod.proofMark_fget {g : Fld} (hs : slot < 2) (hlen : ∀ a < 2, g.reg.addr a 0 ≠ Reg.PLT_SLOT_LEN.addr a 0)
    (hepoch : ∀ a < 2, g.reg.addr a 0 ≠ Reg.PLT_SLOT_EPOCH.addr a 0) (hhash : ∀ a < 2, ∀ w < 8, g.reg.addr a 0 ≠ Reg.PLT_SLOT_HASH.addr a w) :
    (m.proofMark slot p).fget g slot = (m.proofFound slot p).fget g slot := by
  refine Mod.proofMark_induct (P := fun n => n.fget g slot = (m.proofFound slot p).fget g slot) rfl (fun n b hn => ?_) (fun n h hn => ?_)
  · rw [Mod.proofHead, Mod.fget_fset_otherReg _ _ _ _ _ _ _ _ (hepoch slot hs), Mod.fget_fset_otherReg _ _ _ _ _ _ _ _ (hlen slot hs)]
    exact hn
  · exact (Mod.fget_fsetWords_other Fld.PLT_SLOT_HASH_HASH (fun w => leNat ((h.drop (4 * w)).take 4)) slot 8 n (hhash slot hs)).trans hn

theorem Mod.proofMark_result (hs : slot < 2) : (m.proofMark slot p).fget Fld.PLT_SLOT_STATUS_RESULT slot = p.1 % 256 := by
  rw [Mod.proofMark_fget hs (by decide) (by decide) (by decide), Mod.proofFound,
    Mod.fget_fset_otherReg _ Fld.PLT_SLOT_FAIL_FAIL Fld.PLT_SLOT_STATUS_RESULT _ _ _ _ _ (slotReg_ne hs (by decide))]
  exact Mod.fget_fset_same _ _ _ _ _ (by decide)

theorem Mod.proofMark_fail (hs : slot < 2) : (m.proofMark slot p).fget Fld.PLT_SLOT_FAIL_FAIL slot = p.2.1 % 2 ^ 32 := by
  rw [Mod.proofMark_fget hs (by decide) (by decide) (by decide), Mod.proofFound]
  exact Mod.fget_fset_same _ _ _ _ _ (by decide)

/-- State, SIGNED and KIND of a slot after a proof that found `p`, and the confirmation that an OK proof counts for (R43, R420). -/
def Mod.proofEnd (m3 : Mod) (slot : Nat) (p : Nat × Nat × Nat × List Byte) : Mod :=
  let signed := (bN p.2.2.2 10 2).testBit 0
  let kind := if (headerOf p.2.2.2).kind = .routeUpdate then 1 else 0
  if p.1 = 0 then
    let y := ((m3.fset Fld.PLT_SLOT_STATUS_SIGNED signed.toNat slot).fset Fld.PLT_SLOT_STATUS_KIND kind slot).setSlot slot
      ⟨.proven, some (plateOf p.2.2.2 signed), none⟩
    { y with sec := { y.sec with proofOk := true } }
  else (m3.fset Fld.PLT_SLOT_STATUS_SIGNED 0 slot).setSlot slot ⟨.failed, none, none⟩

/-- What a proof finds in a slot region, the reads' memory errors met. -/
def Mod.slotProof (m : Mod) (slot : Nat) (ecc : Ecc) : Nat × Nat × Nat × List Byte :=
  let m0 := m.eccDev false [(slotBase + slot * slotSize, slotSize)] ecc
  m0.proof (fun o n => m0.devRead (slotBase + slot * slotSize + o) n) (m0.plt.slot slot).expect

theorem Mod.proofDone_eq (m : Mod) (slot : Nat) (ecc : Ecc) : m.proofDone slot ecc
    = (((m.eccDev false [(slotBase + slot * slotSize, slotSize)] ecc).proofMark slot (m.slotProof slot ecc)).proofEnd slot (m.slotProof slot ecc)).msix 5 := rfl

@[simp] theorem Mod.fget_with_sec (m : Mod) (x : SecUnit) (f : Fld) (i j : Nat) : { m with sec := x }.fget f i j = m.fget f i j := (rfl)

/-- A slot proved OK. -/
theorem Mod.proofEnd_ok (h : p.1 = 0) : ∃ y : Plate, (m.proofEnd slot p).plt = m.plt.setSlot slot ⟨.proven, some y, none⟩ := by
  unfold Mod.proofEnd
  dsimp only
  rw [if_pos h]
  exact ⟨_, rfl⟩

/-- A slot whose proof failed. -/
theorem Mod.proofEnd_failed (h : p.1 ≠ 0) : (m.proofEnd slot p).plt = m.plt.setSlot slot ⟨.failed, none, none⟩
    ∧ (m.proofEnd slot p).fget Fld.PLT_SLOT_STATUS_SIGNED slot = 0 := by
  unfold Mod.proofEnd
  dsimp only
  rw [if_neg h, Mod.fget_setSlot, Mod.fget_fset_same _ _ _ _ _ (by decide)]
  exact ⟨rfl, rfl⟩

/-- The end of a proof leaves every field but SIGNED and KIND. -/
theorem Mod.proofEnd_fget {g : Fld} (hg : (g.reg = Reg.PLT_SLOT_STATUS ∧ g.hi < 16) ∨ g.reg.addr slot 0 ≠ Reg.PLT_SLOT_STATUS.addr slot 0) :
    (m.proofEnd slot p).fget g slot = m.fget g slot := by
  have hkeep : ∀ (f : Fld), f.reg = Reg.PLT_SLOT_STATUS → 16 ≤ f.lo → f.lo ≤ f.hi → ∀ (n : Mod) (v : Nat),
      (n.fset f v slot).fget g slot = n.fget g slot := fun f hf hlo hle n v => by
    rcases hg with ⟨hr, hhi⟩ | hne
    · exact Mod.fget_fset_otherField n f g v slot 0 (hr.trans hf.symm) hle (Or.inl (Nat.lt_of_lt_of_le hhi hlo))
    · exact Mod.fget_fset_otherReg n f g v slot 0 slot 0 (hf ▸ hne)
  unfold Mod.proofEnd
  dsimp only
  split_ifs
  · rw [Mod.fget_with_sec, Mod.fget_setSlot, hkeep _ rfl (by decide) (by decide), hkeep _ rfl (by decide) (by decide)]
  · rw [Mod.fget_with_sec, Mod.fget_setSlot, hkeep _ rfl (by decide) (by decide), hkeep _ rfl (by decide) (by decide)]
  · rw [Mod.fget_setSlot, hkeep _ rfl (by decide) (by decide)]

/-- What the end of a proof leaves, in terms of what the proof finds. -/
theorem Mod.proofDone_spec (m : Mod) (ecc : Ecc) (hs : slot < 2) :
    (∃ x : Slot, (m.proofDone slot ecc).plt = m.plt.setSlot slot x
      ∧ ((m.slotProof slot ecc).1 = 0 → x.st = .proven ∧ x.plate.isSome = true)
      ∧ ((m.slotProof slot ecc).1 ≠ 0 → x = ⟨.failed, none, none⟩ ∧ (m.proofDone slot ecc).fget Fld.PLT_SLOT_STATUS_SIGNED slot = 0))
      ∧ (m.proofDone slot ecc).fget Fld.PLT_SLOT_STATUS_RESULT slot = (m.slotProof slot ecc).1
      ∧ (m.proofDone slot ecc).fget Fld.PLT_SLOT_FAIL_FAIL slot = (m.slotProof slot ecc).2.1 % 2 ^ 32 := by
  have hplt : ((m.eccDev false [(slotBase + slot * slotSize, slotSize)] ecc).proofMark slot (m.slotProof slot ecc)).plt = m.plt :=
    (Mod.proofMark_sameBut.plt (by decide)).trans ((m.eccDev_sameBut _ _ _).plt (by decide))
  have hcode : (m.slotProof slot ecc).1 < 256 := Mod.proof_code.1
  rw [Mod.proofDone_eq, Mod.msix_plt, Mod.fget_msix, Mod.fget_msix, Mod.fget_msix]
  refine ⟨?_, ?_, ?_⟩
  · by_cases h : (m.slotProof slot ecc).1 = 0
    · obtain ⟨y, hy⟩ := Mod.proofEnd_ok (m := (m.eccDev false [(slotBase + slot * slotSize, slotSize)] ecc).proofMark slot (m.slotProof slot ecc))
        (slot := slot) h
      exact ⟨_, hplt ▸ hy, fun _ => ⟨rfl, rfl⟩, fun hne => (hne h).elim⟩
    · obtain ⟨hy, hsigned⟩ := Mod.proofEnd_failed (m := (m.eccDev false [(slotBase + slot * slotSize, slotSize)] ecc).proofMark slot (m.slotProof slot ecc))
        (slot := slot) h
      exact ⟨_, hplt ▸ hy, fun h0 => (h h0).elim, fun _ => ⟨rfl, hsigned⟩⟩
  · rw [Mod.proofEnd_fget (Or.inl ⟨rfl, by decide⟩), Mod.proofMark_result hs, Nat.mod_eq_of_lt hcode]
  · rw [Mod.proofEnd_fget (Or.inr (slotReg_ne hs (by decide))), Mod.proofMark_fail hs]

/-- Without memory errors to meet, a read meets none. -/
theorem Mod.eccDev_noEcc (m : Mod) (b : Bool) (ranges : List (Nat × Nat)) : m.eccDev b ranges noEcc = m := rfl

/-- The bytes that a proof reads first. -/
theorem Mod.slotProof_noEcc : m.slotProof slot noEcc
    = m.proof (fun o n => m.devRead (slotBase + slot * slotSize + o) n) (m.plt.slot slot).expect := by
  unfold Mod.slotProof
  rw [Mod.eccDev_noEcc]

theorem Mod.slotProof_poisoned (h : rdPoison (m.devRead (slotBase + slot * slotSize) 128) = true) : (m.slotProof slot noEcc).1 = 0x13 := by
  rw [Mod.slotProof_noEcc]
  refine Mod.proof_poisoned ?_
  rwa [Nat.add_zero]

theorem Mod.slotProof_magic (h : rdPoison (m.devRead (slotBase + slot * slotSize) 128) = false)
    (hmagic : bN (rdBytes (m.devRead (slotBase + slot * slotSize) 128)) 0 4 ≠ 0x50584C53) :
    (m.slotProof slot noEcc).1 = 0x01 ∧ (m.slotProof slot noEcc).2.1 = 0 := by
  rw [Mod.slotProof_noEcc]
  refine Mod.proof_magic ?_ ?_ <;> rwa [Nat.add_zero]

end

/-- Settles O20. -/
theorem proofCompletes : Obligations.ProofCompletes := by
  unfold Obligations.ProofCompletes
  intro s slot ecc hrun hslot hst base
  obtain ⟨⟨x, hplt, hok, hfailed⟩, hres, hfail⟩ := s.m.proofDone_spec ecc hslot
  refine ⟨{ s with m := s.m.proofDone slot ecc }, exec_unit_eq rfl hrun (if_pos hst), ?_, ?_, fun h => ?_, fun h => ?_, fun he hp => ?_, fun he hp hmagic => ?_⟩
  · rw [hplt, PlateUnit.slot_setSlot_other _ _ _ hslot]
  · rw [hplt, PlateUnit.setSlot_active]
  · rw [hres] at h
    have h0 : (s.m.slotProof slot ecc).2.1 = 0 := Mod.proof_code.2 h
    rw [hplt, PlateUnit.slot_setSlot_same]
    exact ⟨(hok h).1, (hok h).2, by rw [hfail, h0, Nat.zero_mod]⟩
  · rw [hres] at h
    rw [hplt, PlateUnit.slot_setSlot_same]
    exact hfailed h
  · subst he
    exact hres.trans (Mod.slotProof_poisoned hp)
  · subst he
    obtain ⟨hcode, hoff⟩ := Mod.slotProof_magic hp hmagic
    exact ⟨hres.trans hcode, hfail.trans (by rw [hoff, Nat.zero_mod])⟩

end Sys2Proof.Machine
end

section
/-! PROOF. The tick boundary and the sources of the tick (02_plate_and_tick.md R57 to R64). -/

namespace Sys2Proof.Machine

/-! ### What changes of the upstream port leave of the tick -/

/-- Count, cycle and adopted count of the tick stand, and it runs as before. -/
structure TickUnit.goesOn (t u : TickUnit) : Prop where
  count : u.count = t.count
  cycle : u.cycle = t.cycle
  running : u.running = t.running
  adopt : u.adopt = t.adopt

theorem TickUnit.goesOn.trans {t u v : TickUnit} (h1 : t.goesOn u) (h2 : u.goesOn v) : t.goesOn v :=
  ⟨h2.count.trans h1.count, h2.cycle.trans h1.cycle, h2.running.trans h1.running, h2.adopt.trans h1.adopt⟩

theorem TickUnit.goesOn.refl (t : TickUnit) : t.goesOn t := ⟨rfl, rfl, rfl, rfl⟩

section
variable (m : Mod)

/-- A change of the upstream port in use. -/
theorem Mod.upstreamOffset_tick (p : Nat) (off : Int) : m.tick.goesOn (m.upstreamOffset p off).tick ∧ (m.upstreamOffset p off).tick.port = m.tick.port := by
  unfold Mod.upstreamOffset
  dsimp only
  split_ifs
  · exact ⟨⟨rfl, rfl, rfl, rfl⟩, rfl⟩
  · exact ⟨⟨rfl, rfl, rfl, rfl⟩, rfl⟩
  · rw [Mod.raise_tick, Mod.fset_tick]
    exact ⟨⟨rfl, rfl, rfl, rfl⟩, rfl⟩
  · exact ⟨⟨rfl, rfl, rfl, rfl⟩, rfl⟩

theorem Mod.moveUpstream_tick (p : Nat) : m.tick.goesOn (m.moveUpstream p).tick ∧ (m.moveUpstream p).tick.port = p := by
  unfold Mod.moveUpstream
  dsimp only
  split
  · next k _ =>
    obtain ⟨hon, hport⟩ := Mod.upstreamOffset_tick { m with tick := { m.tick with port := p, edgeSeen := true } } p (k.2 * 10)
    refine ⟨TickUnit.goesOn.trans ?_ hon, hport⟩
    exact ⟨rfl, rfl, rfl, rfl⟩
  · exact ⟨⟨rfl, rfl, rfl, rfl⟩, rfl⟩

theorem Mod.takeBack_tick : m.tick.goesOn m.takeBack.tick := by
  unfold Mod.takeBack
  split
  · split
    · exact (m.moveUpstream_tick _).1
    · exact .refl _
  · exact .refl _

theorem Mod.followUp_tick : m.tick.goesOn m.followUp.tick := by
  unfold Mod.followUp
  split
  · split
    · exact (m.moveUpstream_tick _).1
    · exact .refl _
  · exact .refl _

/-- The count a boundary shows. -/
theorem Mod.tickCount_tick : m.tickCount.tick.count = m.tick.adopt.getD ((m.tick.count + 1) % 2 ^ 48) ∧ m.tickCount.tick.cycle = 0
    ∧ m.tickCount.tick.adopt = none ∧ m.tickCount.tick.running = m.tick.running := by
  unfold Mod.tickCount
  dsimp only
  split
  · exact ⟨rfl, rfl, rfl, rfl⟩
  · exact ⟨rfl, rfl, rfl, rfl⟩

/-! ### Units at a boundary -/

/-- What a boundary does to the units with no step leaves the memories. -/
theorem Mod.unitBoundary_mem_of_idle (h : m.step.phase = .idle) : m.unitBoundary.mem = m.mem := by
  have hcount : m.countTicks.endIndex.step = m.step := by simp [Mod.countTicks, Mod.endIndex, h]
  have hstep : m.countTicks.endIndex.stepBoundary = m.countTicks.endIndex := by simp [Mod.stepBoundary, hcount, h]
  have hframe : m.countTicks.endIndex.frameBoundary = m.countTicks.endIndex := by
    simp [Mod.frameBoundary, Mod.framesRun, hcount, h]
  have hutil : m.countTicks.endIndex.fabUtil.step = m.step := ((Mod.fabUtil_sameBut _).step (by decide)).trans hcount
  have hcoll : m.countTicks.endIndex.fabUtil.collProgress noEcc = m.countTicks.endIndex.fabUtil := by
    simp [Mod.collProgress, Mod.stepOpen, hutil, h]
  unfold Mod.unitBoundary
  dsimp only
  rw [hstep, hframe, hcoll, (Mod.fabUtil_sameBut _).mem (by decide)]
  rfl

end

section
variable (m : Mod) (energy mv ma : Nat)

/-- The boundary's own part before the units turn. -/
def Mod.boundaryStart : Mod := m.tickCount.perTick.freezeWaiting

/-- The module once the units and ports have turned. -/
def Mod.boundaryUnits : Mod := (if m.running then m.boundaryStart.unitBoundary else m.boundaryStart).portBoundary

/-- The tick master's end of the boundary. -/
def Mod.boundaryEnd (m2 : Mod) : Mod := Mod.takePeriod { m2.markersSeen.takeBack.followUp with regs := m2.regs.boundary m.regs } m.tick.periodNext

theorem Mod.boundary_eq : m.boundary energy = (m.boundaryEnd m.boundaryUnits).governBoundary energy := rfl

theorem Mod.boundaryStart_keeps : m.boundaryStart.mem = m.mem ∧ m.boundaryStart.step = m.step ∧ m.boundaryStart.cores = m.cores
    ∧ m.boundaryStart.sched = m.sched ∧ m.boundaryStart.tick = m.tickCount.tick := by
  have hf := m.tickCount.perTick.freezeWaiting_sameBut
  have hp := m.tickCount.perTick_sameBut
  have ht := m.tickCount_sameBut
  refine ⟨?_, ?_, ?_, ?_, ?_⟩ <;> unfold Mod.boundaryStart
  · rw [hf.mem (by decide), hp.mem (by decide), ht.mem (by decide)]
  · rw [hf.step (by decide), hp.step (by decide), ht.step (by decide)]
  · rw [hf.cores (by decide), hp.cores (by decide), ht.cores (by decide)]
  · rw [hf.sched (by decide), hp.sched (by decide), ht.sched (by decide)]
  · rw [hf.tick (by decide), hp.tick (by decide)]

/-- With the units held, or with no step, a boundary leaves the memories; held units stand. -/
theorem Mod.boundaryUnits_keeps : m.boundaryUnits.tick = m.tickCount.tick
    ∧ (m.running = false ∨ m.step.phase = .idle → m.boundaryUnits.mem = m.mem)
    ∧ (m.running = false → m.boundaryUnits.step = m.step ∧ m.boundaryUnits.cores = m.cores ∧ m.boundaryUnits.sched = m.sched) := by
  obtain ⟨hmem, hstep, hcores, hsched, htick⟩ := m.boundaryStart_keeps
  have hp : ∀ n : Mod, Mod.sameBut [.fab] n n.portBoundary := fun n => n.portBoundary_sameBut
  unfold Mod.boundaryUnits
  refine ⟨?_, fun h => ?_, fun h => ?_⟩
  · rw [(hp _).tick (by decide)]
    split
    · rw [(Mod.unitBoundary_sameBut _).tick (by decide), htick]
    · exact htick
  · rw [(hp _).mem (by decide)]
    split
    · next hr =>
      rcases h with h | h
      · exact nomatch hr.symm.trans h
      · rw [Mod.unitBoundary_mem_of_idle _ (by rw [hstep, h]), hmem]
    · exact hmem
  · rw [h, (hp _).step (by decide), (hp _).cores (by decide), (hp _).sched (by decide)]
    exact ⟨hstep, hcores, hsched⟩

/-- The tick master's end of the boundary touches registers, records and the tick. -/
theorem Mod.boundaryEnd_sameBut (m2 : Mod) : Mod.sameBut [.regs, .evIn, .tick] m2 (m.boundaryEnd m2) := by
  have h1 : Mod.sameBut [.regs, .evIn, .tick] m2 m2.markersSeen.takeBack.followUp :=
    Mod.sameBut_trans (Mod.sameBut_trans (Mod.sameBut_mono m2.markersSeen_sameBut (by decide)) (Mod.takeBack_sameBut _)) (Mod.followUp_sameBut _)
  exact Mod.sameBut_trans (Mod.sameBut_trans h1 (Mod.sameBut_mono (Mod.sameBut_regs _ _) (by decide)))
    (Mod.sameBut_mono (Mod.takePeriod_sameBut _ _) (by decide))

theorem Mod.boundaryEnd_tick (m2 : Mod) : m2.tick.goesOn (m.boundaryEnd m2).tick := by
  have e : (m.boundaryEnd m2).tick = m2.markersSeen.takeBack.followUp.tick := (Mod.takePeriod_sameBut _ _).tick (by decide)
  rw [e]
  refine TickUnit.goesOn.trans (TickUnit.goesOn.trans ?_ m2.markersSeen.takeBack_tick) (Mod.followUp_tick _)
  exact ⟨rfl, rfl, rfl, rfl⟩

/-- The energy of the tick that ends and the input sampled are shown. -/
theorem Mod.inputSample_shows : (m.inputSample mv ma).fget Fld.PWR_INPUT_MV = min mv 0xFFFF
    ∧ (m.inputSample mv ma).fget Fld.PWR_INPUT_CURRENT = min (ma / 10) 0xFFFF
    ∧ (m.inputSample mv ma).fget Fld.PWR_ENERGY_UJ = m.fget Fld.PWR_ENERGY_UJ := by
  have hlt : ∀ x : Nat, min x 0xFFFF % 2 ^ 16 = min x 0xFFFF := fun x => Nat.mod_eq_of_lt (by omega)
  have hmv := (m.fset Fld.PWR_INPUT_MV (min mv 0xFFFF)).fget_fset_otherField Fld.PWR_INPUT_CURRENT Fld.PWR_INPUT_MV (min (ma / 10) 0xFFFF)
    0 0 rfl (by decide) (by decide)
  unfold Mod.inputSample
  refine ⟨?_, ?_, ?_⟩
  · exact hmv.trans ((Mod.fget_fset_same _ _ _ _ _ (by decide)).trans (hlt _))
  · exact (Mod.fget_fset_same _ _ _ _ _ (by decide)).trans (hlt _)
  · rw [Mod.fget_fset_otherReg _ _ Fld.PWR_ENERGY_UJ _ _ _ _ _ (by decide), Mod.fget_fset_otherReg _ _ Fld.PWR_ENERGY_UJ _ _ _ _ _ (by decide)]

theorem Mod.governBoundary_energy : (m.governBoundary energy).fget Fld.PWR_ENERGY_UJ = min energy 0xFFFFFF := by
  unfold Mod.governBoundary Mod.setBudget
  rw [Mod.fget_fset_otherReg _ _ Fld.PWR_ENERGY_UJ _ _ _ _ _ (by decide)]
  exact (Mod.fget_fset_same _ _ _ _ _ (by decide)).trans (Nat.mod_eq_of_lt (lt_of_le_of_lt (Nat.min_le_right _ _) (by decide)))

end

/-- Sending vector 4 touches the host interface alone. -/
theorem State.verdictSend_keeps (s : State) : s.verdictSend.evq = s.evq ∧ s.verdictSend.pending = s.pending ∧ Mod.sameBut [.host] s.m s.verdictSend.m := by
  unfold State.verdictSend
  split
  · exact ⟨rfl, rfl, Mod.sameBut_trans (s.m.sameBut_host _) (Mod.msix_sameBut _ _)⟩
  · exact ⟨rfl, rfl, Mod.sameBut_refl _ _⟩

/-- A field stands where the registers stand. -/
theorem Mod.sameBut.fget {ps : List Part} {m n : Mod} (h : Mod.sameBut ps m n) (hr : Part.regs ∉ ps) (f : Fld) (i j : Nat) :
    n.fget f i j = m.fget f i j := by rw [Mod.fget, h.regs hr, Mod.fget]

/-- The state a boundary leaves while the tick runs. -/
def State.boundary (s : State) (energy mv ma : Nat) : State :=
  State.verdictSend { s with evq := { s.evq with accepted := 0 }, m := (s.m.boundary energy).inputSample mv ma }

section
variable (s : State) (energy mv ma : Nat)

/-- What follows the tick master's end of a boundary leaves everything but registers, power and the host interface. -/
theorem State.boundary_rest : Mod.sameBut [.regs, .pwr, .host] (s.m.boundaryEnd s.m.boundaryUnits) (s.boundary energy mv ma).m := by
  have h1 : Mod.sameBut [.regs, .pwr, .host] (s.m.boundaryEnd s.m.boundaryUnits) (s.m.boundary energy) :=
    Mod.sameBut_mono (Mod.governBoundary_sameBut _ _) (by decide)
  have h2 : Mod.sameBut [.regs, .pwr, .host] (s.m.boundary energy) ((s.m.boundary energy).inputSample mv ma) :=
    Mod.sameBut_mono (Mod.inputSample_sameBut _ _ _) (by decide)
  obtain ⟨-, -, h3⟩ := State.verdictSend_keeps { s with evq := { s.evq with accepted := 0 }, m := (s.m.boundary energy).inputSample mv ma }
  exact Mod.sameBut_trans (Mod.sameBut_trans h1 h2) (Mod.sameBut_mono h3 (by decide))

theorem State.boundary_tick : (s.boundary energy mv ma).m.tick.count = s.m.tick.adopt.getD ((s.m.tick.count + 1) % 2 ^ 48)
    ∧ (s.boundary energy mv ma).m.tick.cycle = 0 ∧ (s.boundary energy mv ma).m.tick.running = s.m.tick.running
    ∧ (s.boundary energy mv ma).m.tick.adopt = none := by
  have e := (s.boundary_rest energy mv ma).tick (by decide)
  have hon := s.m.boundaryEnd_tick s.m.boundaryUnits
  obtain ⟨hcount, hcycle, hadopt, hrun⟩ := s.m.tickCount_tick
  have hunits := s.m.boundaryUnits_keeps.1
  rw [e, hon.count, hon.cycle, hon.running, hon.adopt, hunits]
  exact ⟨hcount, hcycle, hrun, hadopt⟩

/-- What a boundary leaves of the units is what they and the ports make of it. -/
theorem State.boundary_units : (s.boundary energy mv ma).m.mem = s.m.boundaryUnits.mem ∧ (s.boundary energy mv ma).m.step = s.m.boundaryUnits.step
    ∧ (s.boundary energy mv ma).m.cores = s.m.boundaryUnits.cores ∧ (s.boundary energy mv ma).m.sched = s.m.boundaryUnits.sched := by
  have h := Mod.sameBut_trans (Mod.sameBut_mono (s.m.boundaryEnd_sameBut s.m.boundaryUnits) (qs := [.regs, .evIn, .tick, .pwr, .host]) (by decide))
    (Mod.sameBut_mono (s.boundary_rest energy mv ma) (by decide))
  exact ⟨h.mem (by decide), h.step (by decide), h.cores (by decide), h.sched (by decide)⟩

/-- What the management die shows after a boundary. -/
theorem State.boundary_shows : (s.boundary energy mv ma).m.fget Fld.PWR_ENERGY_UJ = min energy 0xFFFFFF
    ∧ (s.boundary energy mv ma).m.fget Fld.PWR_INPUT_MV = min mv 0xFFFF
    ∧ (s.boundary energy mv ma).m.fget Fld.PWR_INPUT_CURRENT = min (ma / 10) 0xFFFF := by
  obtain ⟨-, -, h3⟩ := State.verdictSend_keeps { s with evq := { s.evq with accepted := 0 }, m := (s.m.boundary energy).inputSample mv ma }
  obtain ⟨hmv, hma, henergy⟩ := (s.m.boundary energy).inputSample_shows mv ma
  have hfld : ∀ f : Fld, (s.boundary energy mv ma).m.fget f = ((s.m.boundary energy).inputSample mv ma).fget f := fun f =>
    h3.fget (by decide) f 0 0
  rw [hfld, hfld, hfld]
  exact ⟨henergy.trans ((congrArg (·.fget Fld.PWR_ENERGY_UJ) (s.m.boundary_eq energy)).trans (Mod.governBoundary_energy _ _)), hmv, hma⟩

end

/-! ### The tick's other commands -/

/-- Alignment lost: the phase is held, and the loss is reported once (R61). -/
theorem Mod.alignLost_spec (m : Mod) (p d1 : Nat) : (m.alignLost p d1).tick = { m.tick with aligned := false }
    ∧ (m.pwr.state ≠ .park → m.tick.aligned = true →
        (m.alignLost p d1).fget Fld.TCK_ERR_ALIGN_LOST = 1 ∧ ∃ d0, (m.alignLost p d1).reports .contained 0x0302 p d0 d1 0) := by
  unfold Mod.alignLost
  dsimp only
  constructor
  · split
    · rfl
    · rw [Mod.raise_tick, Mod.fset_tick]
  · intro hpark hal
    rw [if_neg (by simp [hpark, hal])]
    refine ⟨?_, _, Mod.raise_reports _ _ _ _ _ _ _⟩
    rw [Mod.fget_raise]
    exact Mod.fget_fset_bit _ Fld.TCK_ERR_ALIGN_LOST 0 0 rfl

/-- A move to a port that has shown no offset leaves the alignment. -/
theorem Mod.moveUpstream_aligned {m : Mod} {p : Nat} (h : (m.port p).skew = none) : (m.moveUpstream p).aligned = m.aligned := by
  simp only [Mod.moveUpstream, h]
  rfl

/-- The tick master enters holdover. -/
theorem Mod.tickInLost_spec (m : Mod) : ∃ n, n = (Mod.fset { m with tick := { m.tick with holdover := true } } Fld.TCK_ERR_TICK_IN_LOST 1).raise
      .contained 0x0304 0 m.tick.count ∧ n.tick = { m.tick with holdover := true } ∧ n.fget Fld.TCK_ERR_TICK_IN_LOST = 1
      ∧ n.reports .contained 0x0304 0 m.tick.count 0 0 ∧ m.regsKeep [Reg.TCK_ERR.base] n := by
  refine ⟨_, rfl, ?_, ?_, Mod.raise_reports _ _ _ _ _ _ _, ?_⟩
  · rw [Mod.raise_tick, Mod.fset_tick]
  · rw [Mod.fget_raise]
    exact Mod.fget_fset_bit _ Fld.TCK_ERR_TICK_IN_LOST 0 0 rfl
  · exact Mod.regsKeep_mono (Mod.fset_regsKeep { m with tick := { m.tick with holdover := true } } Fld.TCK_ERR_TICK_IN_LOST 1 0 0) (by decide)

/-- Settles O21. -/
theorem tickBoundary : Obligations.TickBoundary := by
  unfold Obligations.TickBoundary
  refine ⟨fun s energy mv ma hrun => ?_, fun s p hrun hsrc hedge hdown hfirst => ?_, fun s hrun hsrc hedge hdown hnone hpark => ?_, fun s err hrun hsrc => ⟨fun h => ?_, fun h => ?_, fun hhold => ?_⟩⟩
  · have e : exec (.tickBoundary ⟨mv, ma⟩ energy) s = .next (s.boundary energy mv ma) := congrArg Host.Outcome.next (if_pos hrun)
    obtain ⟨hcount, hcycle, hrun', hadopt⟩ := s.boundary_tick energy mv ma
    obtain ⟨hmem, hstep, hcores, hsched⟩ := s.boundary_units energy mv ma
    obtain ⟨-, humem, hu⟩ := s.m.boundaryUnits_keeps
    refine ⟨_, e, fun h => ?_, fun n h => ?_, hcycle, hrun'.trans hrun, hadopt, (State.verdictSend_keeps _).1, fun h => hmem.trans (humem h), fun h => ?_,
      s.boundary_shows energy mv ma⟩
    · rw [hcount, h, Option.getD_none]
    · rw [hcount, h, Option.getD_some]
    · exact ⟨hstep.trans (hu h).1, hcores.trans (hu h).2.1, hsched.trans (hu h).2.2⟩
  · obtain ⟨hon, hport⟩ := s.m.moveUpstream_tick p
    refine ⟨{ s with m := s.m.moveUpstream p }, exec_on rfl ?_, hport, hon.count, hon.cycle, Mod.moveUpstream_aligned⟩
    simp [hrun, hsrc, hedge, hdown, hfirst]
  · obtain ⟨htick, hlost⟩ := Mod.alignLost_spec { s.m with tick := { s.m.tick with edgeSeen := false } } s.m.tick.port 1
    refine ⟨{ s with m := Mod.alignLost { s.m with tick := { s.m.tick with edgeSeen := false } } s.m.tick.port 1 }, exec_on rfl ?_, ?_, ?_, fun hal => hlost hpark ?_⟩
    · simp [hrun, hsrc, hedge, hdown, hnone]
    · rw [Mod.aligned, htick]
      simp [hsrc]
    · rw [htick]
    · simpa [Mod.aligned, hsrc] using hal
  · exact exec_on rfl (if_pos ⟨hrun, hsrc, h⟩)
  · exact exec_on rfl (if_neg fun hc => Nat.lt_irrefl _ (Nat.lt_of_lt_of_le h hc.2.2))
  · obtain ⟨n, hn, htick, hfld, hrep, hkeep⟩ := s.m.tickInLost_spec
    refine ⟨{ s with m := n }, exec_on rfl ?_, htick, hfld, hrep, hkeep⟩
    simp [hrun, hsrc, hhold, hn]

end Sys2Proof.Machine
end

section
/-! PROOF. Kernels that start and end on a core (03_cores.md R78, R81). -/

namespace Sys2Proof.Machine

/-- Cores stand where their part stands. -/
theorem Mod.sameBut.core {ps : List Part} {m n : Mod} (h : Mod.sameBut ps m n) (hc : Part.cores ∉ ps) (d : Nat) : n.core d = m.core d := by
  rw [Mod.core, h.cores hc, Mod.core]

section
variable {m : Mod} {c : Nat}

theorem Mod.kernelStart_of_run (h : (m.core c).run.isSome = true) : m.kernelStart c = m := by
  unfold Mod.kernelStart
  split
  · rfl
  · dsimp only
    split
    · rfl
    · simp [h]

/-- A core that starts kernel `i`, with the element it loads for it. -/
def CoreRun.started (x : CoreRun) (i : Nat) (e : Option Elem) : CoreRun := { x with run := some i, done := false, ticks := 0, skipBp := false, elem := e }

/-- A kernel that may start, no breakpoint stopping it: the core runs it. -/
theorem Mod.kernelStart_eq {st : StableRec} {f : FrameNow} {k : Kernel} (hbusy : m.busyStable c = some (st, f))
    (hk : m.kernel? (f.kfirst + (m.core c).kpos) = some k)
    (hgo : ((m.core c).run.isSome || decide (f.kcount ≤ (m.core c).kpos) || (m.core c).halt.isSome || (m.core c).haltReq.isSome || m.coreFencedBit c
      || (k.sync && decide (0 < (m.core c).kpos) && !m.syncMet st (m.core c).kpos)) = false)
    (hbp : ((List.range 8).filter (fun b => !(m.core c).skipBp && m.bpMatches b c (f.kfirst + (m.core c).kpos) st)) = []) :
    ∃ e, m.kernelStart c = ((m.setCore c ((m.core c).started (f.kfirst + (m.core c).kpos) e)).fset Fld.CORE_KERNEL_INDEX
      (f.kfirst + (m.core c).kpos) c).traceKernel 3 c (f.kfirst + (m.core c).kpos) st := by
  refine ⟨if k.op = .element then m.loadElem c k (m.kEnv (st.rank c) k) 0 [] else none, ?_⟩
  simp only [Mod.kernelStart, CoreRun.started, hbusy, hk, hgo, hbp, Bool.false_eq_true, if_false, List.isEmpty_nil, if_true]

/-- What a kernel's start leaves: the other cores, the memories and the schedule. -/
theorem Mod.kernelStart_keeps {i : Nat} {st : StableRec} {x : CoreRun} (d : Nat) :
    (((m.setCore c x).fset Fld.CORE_KERNEL_INDEX i c).traceKernel 3 c i st).core d = (m.setCore c x).core d
      ∧ (((m.setCore c x).fset Fld.CORE_KERNEL_INDEX i c).traceKernel 3 c i st).mem = m.mem
      ∧ (((m.setCore c x).fset Fld.CORE_KERNEL_INDEX i c).traceKernel 3 c i st).sched = m.sched := by
  have h : Mod.sameBut [.regs, .dbg] (m.setCore c x) (((m.setCore c x).fset Fld.CORE_KERNEL_INDEX i c).traceKernel 3 c i st) :=
    Mod.sameBut_trans (Mod.sameBut_mono (Mod.fset_sameBut _ _ _ _ _) (by decide)) (Mod.traceKernel_sameBut _ _ _ _ _)
  exact ⟨h.core (by decide) d, h.mem (by decide), h.sched (by decide)⟩

/-- The change of a core that ends a kernel. -/
def CoreRun.next (x : CoreRun) : CoreRun := { x with run := none, done := false, kpos := x.kpos + 1, ticks := 0, elem := none, stepOne := false }

/-- A core that has ended a kernel, halted where a halt waits for the kernel's end or one kernel was to run (18_debug.md R455, R457). -/
def Mod.kernelEnd (m : Mod) (c i : Nat) (st : StableRec) : Mod :=
  let m1 := (m.setCore c (m.core c).next).traceKernel 4 c i st
  match (m.core c).haltReq with
  | some r => (m1.setCore c ((m.core c).next.stop r)).trace 9 c r.code i
  | none => if (m.core c).stepOne then (m1.setCore c ((m.core c).next.stop ⟨true, false, false, 0⟩)).trace 9 c 1 i else m1

/-- What ends a kernel touches its own core alone. -/
theorem Mod.kernelEnd_core (i : Nat) (st : StableRec) : ((m.kernelEnd c i st).core c).run = none
    ∧ ((m.kernelEnd c i st).core c).kpos = (m.core c).kpos + 1 ∧ ∀ d, d ≠ c → (m.kernelEnd c i st).core d = m.core d := by
  have hfirst : ∀ d, ((m.setCore c (m.core c).next).traceKernel 4 c i st).core d = (m.setCore c (m.core c).next).core d :=
    (Mod.traceKernel_sameBut _ _ _ _ _).core (by decide)
  have hhalted : ∀ (r : HaltReason) (e d : Nat), ((((m.setCore c (m.core c).next).traceKernel 4 c i st).setCore c ((m.core c).next.stop r)).trace 9 c e i).core d
      = (((m.setCore c (m.core c).next).traceKernel 4 c i st).setCore c ((m.core c).next.stop r)).core d := fun r e =>
    (Mod.trace_sameBut _ _ _ _ _ _ _).core (by decide)
  have hothers : ∀ d, d ≠ c → ((m.setCore c (m.core c).next).traceKernel 4 c i st).core d = m.core d := fun d hd =>
    (hfirst d).trans (Mod.core_setCore_other _ _ hd)
  unfold Mod.kernelEnd
  dsimp only
  split
  · rw [hhalted, Mod.core_setCore_same]
    exact ⟨rfl, rfl, fun d hd => by rw [hhalted, Mod.core_setCore_other _ _ hd, hothers d hd]⟩
  · split
    · rw [hhalted, Mod.core_setCore_same]
      exact ⟨rfl, rfl, fun d hd => by rw [hhalted, Mod.core_setCore_other _ _ hd, hothers d hd]⟩
    · rw [hfirst, Mod.core_setCore_same]
      exact ⟨rfl, rfl, hothers⟩

theorem Mod.kernelComplete_eq {i : Nat} {st : StableRec} (hst : m.stableOf c = some st) (hrun : (m.core c).run = some i)
    (hdone : (m.core c).done = true) : m.kernelComplete c = match m.busyStable c with
      | some (_, f) => if (m.kernelEnd c i st).frameFinished st f then (m.kernelEnd c i st).frameDone st else m.kernelEnd c i st
      | none => m.kernelEnd c i st := by
  simp only [Mod.kernelComplete, hst, hrun, hdone, Bool.not_true, Bool.false_eq_true, if_false]
  rfl

/-- A kernel whose work is done ends: the core moves on, and only the frame can follow. -/
theorem Mod.kernelComplete_keeps {i : Nat} {st : StableRec} (hst : m.stableOf c = some st) (hrun : (m.core c).run = some i)
    (hdone : (m.core c).done = true) : ((m.kernelComplete c).core c).run = none ∧ ((m.kernelComplete c).core c).kpos = (m.core c).kpos + 1
      ∧ (∀ d, d ≠ c → (m.kernelComplete c).core d = m.core d) ∧ (m.kernelComplete c).mem = m.mem := by
  have hcore : ∀ d, (m.kernelComplete c).core d = (m.kernelEnd c i st).core d := fun d => by
    rw [Mod.kernelComplete_eq hst hrun hdone]
    split
    · split
      · exact (Mod.frameDone_sameBut _ st).core (by decide) d
      · rfl
    · rfl
  obtain ⟨hnone, hpos, hothers⟩ := m.kernelEnd_core (c := c) i st
  refine ⟨?_, ?_, fun d hd => (hcore d).trans (hothers d hd), (m.kernelComplete_sameBut c).mem (by decide)⟩
  · rw [hcore, hnone]
  · rw [hcore, hpos]

theorem Mod.kernelComplete_of_not_done {i : Nat} (hrun : (m.core c).run = some i) (hdone : (m.core c).done = false) : m.kernelComplete c = m := by
  unfold Mod.kernelComplete
  dsimp only
  rw [hrun, hdone]
  split <;> simp

end

/-- Settles O22. -/
theorem kernelsInOrder : Obligations.KernelsInOrder := by
  unfold Obligations.KernelsInOrder
  refine ⟨fun s c st f k hr hbusy hk hrun hpos hhalt hreq hfence hsync hbp => ?_, fun s c h => ?_, fun s c i st hr hst hrun => ⟨fun hdone => ?_, fun hdone => ?_⟩⟩
  · have hwait : (k.sync && decide (0 < (s.m.core c).kpos) && !s.m.syncMet st (s.m.core c).kpos) = false := by
      rcases hsync with h | h | h
      · simp [h]
      · simp [h]
      · simpa [Mod.syncMet] using fun _ _ => h
    have hstop : ((List.range 8).filter (fun b => !(s.m.core c).skipBp && s.m.bpMatches b c (f.kfirst + (s.m.core c).kpos) st)) = [] := by
      rcases hbp with h | h
      · simp [h]
      · simpa [List.filter_eq_nil_iff] using fun b hb _ => h b hb
    obtain ⟨e, he⟩ := Mod.kernelStart_eq hbusy hk (by simp [hrun, hpos, hhalt, hreq, hfence, hwait]) hstop
    have hkeep := fun d => Mod.kernelStart_keeps (m := s.m) (c := c) (i := f.kfirst + (s.m.core c).kpos) (st := st)
      (x := (s.m.core c).started (f.kfirst + (s.m.core c).kpos) e) d
    have hcore : (s.m.kernelStart c).core c = (s.m.core c).started (f.kfirst + (s.m.core c).kpos) e := by
      rw [he, (hkeep c).1, Mod.core_setCore_same]
    refine ⟨{ s with m := s.m.kernelStart c }, exec_unit_eq rfl hr rfl, ?_, ?_, ?_, ?_, fun d hd => ?_, ?_, ?_⟩
    · rw [hcore]
      rfl
    · rw [hcore]
      rfl
    · rw [hcore]
      rfl
    · rw [hcore]
      rfl
    · rw [he, (hkeep d).1, Mod.core_setCore_other _ _ hd]
    · rw [he, (hkeep c).2.1]
    · rw [he, (hkeep c).2.2]
  · exact exec_unit_self rfl fun _ => Mod.kernelStart_of_run h
  · exact ⟨{ s with m := s.m.kernelComplete c }, exec_unit_eq rfl hr rfl, Mod.kernelComplete_keeps hst hrun hdone⟩
  · exact exec_unit_self rfl fun _ => Mod.kernelComplete_of_not_done hrun hdone

end Sys2Proof.Machine
end

section
/-! PROOF. What watchpoints, traces and errors met leave alone: memories, plates, the kernels that run, and the register fields that reads and
fences depend on. -/

namespace Sys2Proof.Machine

/-! ### Fields that reads and fences depend on -/

/-- A field on which reads or fences depend: of a register in the first two words of a block's row of eight, clear at reset, and not bit 8. -/
structure Fld.isKey (g : Fld) : Prop where
  place : ∀ a b, g.reg.addr a b % 32 < 8
  reset : g.reg.resetWord = 0
  apart : g.hi < 8 ∨ 8 < g.lo

theorem isKey_fenced : Fld.isKey Fld.CORE_FENCE_FENCED := by
  refine ⟨fun a b => ?_, by decide, by decide⟩
  simp only [Fld.CORE_FENCE_FENCED, RegSpec.addr, Reg.CORE_FENCE]
  omega

theorem isKey_stack : Fld.isKey Fld.HBM_STACK_STATUS_STATE := by
  refine ⟨fun a b => ?_, by decide, by decide⟩
  simp only [Fld.HBM_STACK_STATUS_STATE, RegSpec.addr, Reg.HBM_STACK_STATUS]
  omega

theorem isKey_viral : Fld.isKey Fld.LFT_PORT_STATUS_VIRAL := by
  refine ⟨fun a b => ?_, by decide, by decide⟩
  simp only [Fld.LFT_PORT_STATUS_VIRAL, RegSpec.addr, Reg.LFT_PORT_STATUS]
  omega

theorem isKey_mode : Fld.isKey Fld.LFT_CFG_MODE := by
  refine ⟨fun a b => ?_, by decide, by decide⟩
  simp only [Fld.LFT_CFG_MODE, RegSpec.addr, Reg.LFT_CFG]
  omega

theorem isKey_set : Fld.isKey Fld.LFT_CFG_SET := by
  refine ⟨fun a b => ?_, by decide, by decide⟩
  simp only [Fld.LFT_CFG_SET, RegSpec.addr, Reg.LFT_CFG]
  omega

/-- `n` is `m` in the memories, the plates, the kernels that run and every key field. -/
structure Mod.quiet (m n : Mod) : Prop where
  mem : n.mem = m.mem
  plt : n.plt = m.plt
  run : ∀ d, (n.core d).run = (m.core d).run
  keys : ∀ g : Fld, g.isKey → ∀ a b, n.fget g a b = m.fget g a b

theorem Mod.quiet.refl (m : Mod) : Mod.quiet m m := ⟨rfl, rfl, fun _ => rfl, fun _ _ _ _ => rfl⟩

theorem Mod.quiet.trans {l m n : Mod} (h1 : Mod.quiet l m) (h2 : Mod.quiet m n) : Mod.quiet l n :=
  ⟨h2.mem.trans h1.mem, h2.plt.trans h1.plt, fun d => (h2.run d).trans (h1.run d), fun g hg a b => (h2.keys g hg a b).trans (h1.keys g hg a b)⟩

/-- A change of other parts. -/
theorem Mod.quiet.of {ps : List Part} {m n : Mod} (h : Mod.sameBut ps m n)
    (hp : (ps.contains .mem || ps.contains .plt || ps.contains .cores || ps.contains .regs) = false) : Mod.quiet m n := by
  simp only [Bool.or_eq_false_iff, List.contains_eq_mem, decide_eq_false_iff_not] at hp
  obtain ⟨⟨⟨hmem, hplt⟩, hcores⟩, hregs⟩ := hp
  exact ⟨h.mem hmem, h.plt hplt, fun d => congrArg CoreRun.run (h.core hcores d), fun g _ a b => h.fget hregs g a b⟩

theorem Mod.quiet.foldl {β : Type} {f : Mod → β → Mod} (hf : ∀ m b, Mod.quiet m (f m b)) (xs : List β) (m : Mod) : Mod.quiet m (xs.foldl f m) := by
  induction xs generalizing m with
  | nil => exact .refl m
  | cons x xs ih => exact (hf m x).trans (ih _)

section
variable (m : Mod)

/-- A field set of a register in the other six words of its row. -/
theorem Mod.fset_quiet (f : Fld) (v i j : Nat) (hf : 8 ≤ f.reg.addr i j % 32) : Mod.quiet m (m.fset f v i j) :=
  ⟨m.fset_mem f v i j, m.fset_plt f v i j, fun _ => rfl, fun g hg a b => m.fget_fset_otherReg f g v i j a b fun he => by
    have := hg.place a b
    rw [he] at this
    omega⟩

theorem Mod.fsat_quiet (f : Fld) (v i j : Nat) (hf : 8 ≤ f.reg.addr i j % 32) : Mod.quiet m (m.fsat f v i j) := m.fset_quiet f _ i j hf

/-- Fields of the same address in registers clear at reset, with no bit in common. -/
theorem RegFile.get_set_aliased (rf : RegFile) (f g : Fld) (i j a b v : Nat) (hr : g.reg.resetWord = f.reg.resetWord) (hle : f.lo ≤ f.hi)
    (d : g.hi < f.lo ∨ f.hi < g.lo) : (rf.set f i j v).get g a b = rf.get g a b := by
  by_cases h : g.reg.addr a b = f.reg.addr i j
  · have hread : ∀ x : RegFile, x.get g a b = x.get ⟨f.reg, g.hi, g.lo⟩ i j := fun x => by
      simp only [RegFile.get, RegFile.read, h, hr]
    rw [hread, hread]
    exact RegFile.get_set_otherField rf f ⟨f.reg, g.hi, g.lo⟩ i j v rfl hle d
  · exact RegFile.get_set_otherReg _ _ _ _ _ _ _ _ h

/-- The trace trigger is shown in bit 8 of DBG_STATUS. -/
theorem Mod.fset_trig_quiet (v : Nat) : Mod.quiet m (m.fset Fld.DBG_STATUS_TRACE_TRIG v) :=
  ⟨m.fset_mem _ _ _ _, m.fset_plt _ _ _ _, fun _ => rfl, fun g hg a b =>
    RegFile.get_set_aliased m.regs Fld.DBG_STATUS_TRACE_TRIG g 0 0 a b v hg.reset (by decide) hg.apart⟩

theorem Mod.trace_quiet (k src d0 d1 d2 d3 : Nat) : Mod.quiet m (m.trace k src d0 d1 d2 d3) := by
  have hptr : ∀ (n : Mod) (f : Fld) (v : Nat), f.reg = Reg.DBG_TRACE_PTR → Mod.quiet n (n.fset f v) := fun n f v hf =>
    n.fset_quiet f v 0 0 (by rw [hf]; decide)
  have hdbg : ∀ (n : Mod) (x : DbgUnit), Mod.quiet n { n with dbg := x } := fun n x => .of (n.sameBut_dbg x) rfl
  unfold Mod.trace
  split
  · extract_lets ix r _ m1 m2 full m3 stop1 _ m4
    have h2 : Mod.quiet m m2 := (hdbg m _).trans (hptr m1 Fld.DBG_TRACE_PTR_NEXT _ rfl)
    have h3 : Mod.quiet m m3 := by
      simp only [m3]
      split
      · exact h2.trans (hptr m2 Fld.DBG_TRACE_PTR_WRAPPED _ rfl)
      · exact h2
    have h4 : Mod.quiet m m4 := by
      simp only [m4]
      split
      · exact h3.trans (hdbg m3 _)
      · exact h3
    split
    · exact h4.trans (hdbg m4 _)
    · exact h4
  · exact .refl m

/-- A core set without a change of the kernel that it runs. -/
theorem Mod.setCore_quiet (c : Nat) (x : CoreRun) (h : x.run = (m.core c).run) : Mod.quiet m (m.setCore c x) := by
  refine ⟨rfl, rfl, fun d => ?_, fun _ _ _ _ => rfl⟩
  by_cases hd : d = c
  · rw [hd, Mod.core_setCore_same, h]
  · rw [Mod.core_setCore_other _ _ hd]

theorem Mod.haltCore_quiet (r : HaltReason) (c : Nat) : Mod.quiet m (m.haltCore r c) := by
  unfold Mod.haltCore
  dsimp only
  split
  · exact (m.setCore_quiet c ((m.core c).stop r) rfl).trans (Mod.trace_quiet _ _ _ _ _ _ _)
  · exact m.setCore_quiet c _ rfl

theorem Mod.haltCores_quiet (r : HaltReason) (cs : List Nat) : Mod.quiet m (m.haltCores r cs) :=
  .foldl (fun n c => by
    split
    · exact n.haltCore_quiet r c
    · exact n.fset_quiet Fld.DBG_ERR_HALT 1 0 0 (by decide)) cs m

theorem Mod.haltDevice_quiet (r : HaltReason) : Mod.quiet m (m.haltDevice r) :=
  (m.haltCores_quiet r m.stableCores).trans (.of (Mod.sameBut_dbg _ _) rfl)

theorem Mod.traceTrigger_quiet : Mod.quiet m m.traceTrigger := by
  unfold Mod.traceTrigger
  split
  · exact (m.fset_trig_quiet 1).trans (.of (Mod.sameBut_dbg _ _) rfl)
  · exact .refl m

theorem Mod.watchHit_quiet (w a : Nat) (write : Bool) (src : Nat) : Mod.quiet m (m.watchHit w a write src) := by
  unfold Mod.watchHit
  extract_lets typ act m1 _ m2 m3
  have h1 : Mod.quiet m m1 := (m.fsat_quiet Fld.DBG_WATCH_HITS_COUNT 1 w 0 (by
    simp only [RegSpec.addr, Fld.DBG_WATCH_HITS_COUNT, Reg.DBG_WATCH_HITS]
    omega)).trans (Mod.trace_quiet _ _ _ _ _ _ _)
  have h2 : Mod.quiet m m2 := by
    simp only [m2]
    split
    · exact h1.trans ((Mod.quiet.of (m1.sameBut_dbg _) rfl).trans (.of (Mod.raise_sameBut _ _ _ _ _ _ _) rfl))
    · exact h1
  have h3 : Mod.quiet m m3 := by
    simp only [m3]
    split
    · exact h2.trans (m2.haltDevice_quiet _)
    · exact h2
  split
  · exact h3.trans m3.traceTrigger_quiet
  · exact h3

/-- An access that the watchpoints see. -/
theorem Mod.yard_quiet (src : YardSrc) (a n : Nat) (write : Bool) : Mod.quiet m (m.yard src a n write) :=
  .foldl (fun x w => by
    split
    · exact x.watchHit_quiet w a write src.code
    · exact .refl x) _ m

/-! ### Errors met where none are found -/

theorem Mod.raiseDual_quiet (b : Bool) (k : EvClass) (code source d0 d1 d2 : Nat) : Mod.quiet m (m.raiseDual b k code source d0 d1 d2) :=
  .of (m.raiseDual_sameBut b k code source d0 d1 d2) rfl

theorem Mod.loftMet_quiet (b : Bool) (ranges : List (Nat × Nat)) : Mod.quiet m (m.loftMet b ranges) :=
  .foldl (fun x c => by
    split
    · refine (x.fset_quiet Fld.LFT_PORT_ERR_POISON 1 c 0 ?_).trans (Mod.raiseDual_quiet _ _ _ _ _ _ _ _)
      simp only [RegSpec.addr, Fld.LFT_PORT_ERR_POISON, Reg.LFT_PORT_ERR]
      omega
    · exact .refl x) _ m

/-- A read of device memory by a unit, no memory error found. -/
theorem Mod.unitRead_quiet (b : Bool) (a n : Nat) : Mod.quiet m (m.unitRead b a n noEcc).1 := by
  have h := m.loftMet_quiet b [(a, n)]
  have e : m.readDev b [(a, n)] noEcc = m.loftMet b [(a, n)] := congrArg (Mod.loftMet · b [(a, n)]) (m.eccDev_noEcc b [(a, n)])
  unfold Mod.unitRead
  dsimp only
  rw [e]
  split
  · exact h.trans (.of (Mod.fault_sameBut _ _) rfl)
  · exact h

/-- Words of SRAM met poisoned are reported, no error being found. -/
theorem Mod.sramErrors_quiet (c i : Nat) (ranges : List (Nat × Nat)) : Mod.quiet m (m.sramErrors c i ranges noEcc) := by
  unfold Mod.sramErrors
  extract_lets m1 m2 lo hit m3
  have h : Mod.sameBut [.evIn, .step] m m3 := Mod.sameBut_foldl _ _ m (fun x w => x.raiseStep_sameBut _ _ _ _ _) (Mod.sameBut_refl _ _)
  have hue : m3.fget Fld.CORE_ECC_UE c = m.fget Fld.CORE_ECC_UE c := h.fget (by decide) _ _ _
  rw [hue, if_neg (fun hc => Nat.lt_irrefl _ (Nat.lt_of_lt_of_le hc.2 hc.1))]
  exact .of h rfl

end

/-! ### Reads -/

section
variable {m n : Mod}

theorem Mod.quiet.fenced (h : Mod.quiet m n) (c : Nat) : n.coreFencedBit c = m.coreFencedBit c := by
  rw [Mod.coreFencedBit, h.keys _ isKey_fenced, Mod.coreFencedBit]

theorem Mod.quiet.byteAt (h : Mod.quiet m n) (l : Loc) : n.byteAt l = m.byteAt l := by
  cases l with
  | hbm k => simp only [Mod.byteAt, Mod.stackFailed, h.mem, h.keys _ isKey_stack]
  | loft k => simp only [Mod.byteAt, Mod.loftBad, h.mem, h.keys _ isKey_viral]
  | reserved => rfl

theorem Mod.quiet.loftLoc (h : Mod.quiet m n) (a : Nat) : n.loftLoc a = m.loftLoc a := by
  have hcap : n.loftCap = m.loftCap := funext fun c => by rw [Mod.loftCap, h.mem, Mod.loftCap]
  have hset : n.loftSet = m.loftSet := by rw [Mod.loftSet, h.keys _ isKey_set, Mod.loftSet]
  have hserve : n.loftServe a = m.loftServe a := by rw [Mod.loftServe, h.keys _ isKey_mode, hset, hcap, Mod.loftServe]
  rw [Mod.loftLoc, hserve, Mod.loftLoc]

theorem Mod.quiet.region? (h : Mod.quiet m n) (a : Nat) : n.region? a = m.region? a := by
  simp only [Mod.region?, Mod.regions, Mod.plate?, h.plt]

theorem Mod.quiet.locate (h : Mod.quiet m n) (a : Nat) : n.locate a = m.locate a := by
  simp only [Mod.locate, h.region?, h.loftLoc, Mod.sel, h.plt]

theorem Mod.quiet.devRead (h : Mod.quiet m n) (a k : Nat) : n.devRead a k = m.devRead a k := by
  induction k generalizing a with
  | zero => rfl
  | succ k ih => rw [Mod.devRead, h.locate, h.byteAt, ih, Mod.devRead]

theorem Mod.quiet.sramRead (h : Mod.quiet m n) (c a k : Nat) : n.sramRead c a k = m.sramRead c a k := by
  induction k generalizing a with
  | zero => rfl
  | succ k ih => rw [Mod.sramRead, ih, Mod.sramRead, Mod.sramByte, h.mem, Mod.sramByte]

end

end Sys2Proof.Machine
end

section
/-! PROOF. Kernels that move rows (03_cores.md R89, R93, R97). -/

namespace Sys2Proof.Machine

/-! ### What a move touches -/

/-- `n` is `m` after moves to device memory (`dev`) or to SRAM: kernels that run and key fields stand, and the other kind of memory. -/
structure Mod.moved (dev : Bool) (m n : Mod) : Prop where
  run : ∀ d, (n.core d).run = (m.core d).run
  keys : ∀ g : Fld, g.isKey → ∀ a b, n.fget g a b = m.fget g a b
  sram : dev = true → n.mem.sram = m.mem.sram
  device : dev = false → n.mem.hbm = m.mem.hbm ∧ n.mem.loft = m.mem.loft

theorem Mod.moved.trans {b : Bool} {l m n : Mod} (h1 : Mod.moved b l m) (h2 : Mod.moved b m n) : Mod.moved b l n :=
  ⟨fun d => (h2.run d).trans (h1.run d), fun g hg i j => (h2.keys g hg i j).trans (h1.keys g hg i j), fun h => (h2.sram h).trans (h1.sram h),
    fun h => ⟨(h2.device h).1.trans (h1.device h).1, (h2.device h).2.trans (h1.device h).2⟩⟩

theorem Mod.quiet.moved {m n : Mod} (h : Mod.quiet m n) (b : Bool) : Mod.moved b m n :=
  ⟨h.run, h.keys, fun _ => by rw [h.mem], fun _ => by rw [h.mem]; exact ⟨rfl, rfl⟩⟩

theorem Mod.moved.foldl {b : Bool} {α β : Type} {f : α → β → α} {p : α → Mod} (hf : ∀ x y, Mod.moved b (p x) (p (f x y))) (xs : List β) (x : α) :
    Mod.moved b (p x) (p (xs.foldl f x)) := by
  induction xs generalizing x with
  | nil => exact (Mod.quiet.refl _).moved b
  | cons y ys ih => exact (hf x y).trans (ih _)

/-- A change of the memories alone. -/
theorem Mod.moved_mem {b : Bool} (m : Mod) (x : MemUnit) (hs : b = true → x.sram = m.mem.sram)
    (hd : b = false → x.hbm = m.mem.hbm ∧ x.loft = m.mem.loft) : Mod.moved b m { m with mem := x } :=
  ⟨fun _ => rfl, fun _ _ _ _ => rfl, hs, hd⟩

/-! ### Device memory written -/

section
variable (m : Mod)

theorem Mod.putByte_sram (l : Loc) (v : Byte) : (m.putByte l v).mem.sram = m.mem.sram := by
  unfold Mod.putByte
  split
  · rfl
  · split <;> rfl

theorem Mod.putBytes_sram (loc : Nat → Loc) (a : Nat) (data : List (Option Byte)) : (Mod.putBytes loc m a data).mem.sram = m.mem.sram := by
  induction data generalizing m a with
  | nil => rfl
  | cons x xs ih =>
    cases x with
    | none => exact ih _ _
    | some b => exact (ih _ _).trans (m.putByte_sram _ _)

theorem Mod.unmarkLoc_sram (l : Loc) : (m.unmarkLoc l).mem.sram = m.mem.sram := by
  unfold Mod.unmarkLoc
  split
  · rfl
  · split <;> rfl

theorem Mod.markLoc_sram (l : Loc) : (m.markLoc l).mem.sram = m.mem.sram := by
  unfold Mod.markLoc
  split
  · rfl
  · split <;> rfl

/-- What each change of a fold leaves, the fold leaves. -/
theorem Mod.foldl_sram {β : Type} {f : Mod → β → Mod} (hf : ∀ n b, (f n b).mem.sram = n.mem.sram) (xs : List β) :
    (xs.foldl f m).mem.sram = m.mem.sram := by
  induction xs generalizing m with
  | nil => rfl
  | cons x xs ih => exact (ih _).trans (hf m x)

theorem Mod.writeAt_sram (loc : Nat → Loc) (a : Nat) (data : List (Option Byte)) : (Mod.writeAt loc m a data).mem.sram = m.mem.sram := by
  unfold Mod.writeAt
  refine (Mod.foldl_sram _ (fun n b => ?_) _).trans (m.putBytes_sram _ _ _)
  split
  · exact n.unmarkLoc_sram _
  · rfl

/-- A write of device memory leaves every SRAM. -/
theorem Mod.devWriteP_sram (a : Nat) (data : List (Byte × Bool)) : (m.devWriteP a data).mem.sram = m.mem.sram := by
  unfold Mod.devWriteP
  refine (Mod.foldl_sram _ (fun n b => ?_) _).trans (m.writeAt_sram _ _ _)
  split
  · exact n.markLoc_sram _
  · rfl

theorem Mod.devWriteP_moved (a : Nat) (data : List (Byte × Bool)) : Mod.moved true m (m.devWriteP a data) := by
  obtain ⟨x, e⟩ := m.devWriteP_eq a data
  have hs := m.devWriteP_sram a data
  rw [e] at hs ⊢
  exact m.moved_mem x (fun _ => hs) (fun h => nomatch h)

/-! ### Operands -/

variable (c i : Nat) (st : StableRec) (o : Operand) (a k : Nat) (data : List (Byte × Bool))

/-- An operand read, no error being found. -/
theorem Mod.opdRead_quiet : Mod.quiet m (m.opdRead c i st o a k noEcc).1 := by
  unfold Mod.opdRead
  split
  · exact (m.yard_quiet _ _ _ _).trans (Mod.unitRead_quiet _ _ _ _)
  · exact m.sramErrors_quiet _ _ _
  · exact m.sramErrors_quiet _ _ _
  · exact .refl m

/-- What a read of device memory returns. -/
theorem Mod.opdRead_device (h : o.space = .device) : (m.opdRead c i st o a k noEcc).2 = m.devRead a k := by
  have e : ∀ n : Mod, (n.unitRead true a k noEcc).2 = n.devRead a k := fun n => (n.loftMet_quiet true [(a, k)]).devRead a k
  simp only [Mod.opdRead, h]
  rw [e, (m.yard_quiet _ _ _ _).devRead]

/-- What a read of the core's own SRAM returns. -/
theorem Mod.opdRead_sram (h : o.space = .sram) : (m.opdRead c i st o a k noEcc).2 = m.sramRead c a k := by
  simp only [Mod.opdRead, h]
  rw [(m.sramErrors_quiet _ _ _).sramRead]
  simp [opdCore, h]

/-- An operand written touches the space that it names. -/
theorem Mod.opdWrite_moved : Mod.moved (decide (o.space = .device)) m (m.opdWrite c st o a data noEcc) := by
  unfold Mod.opdWrite
  split
  · next h =>
    rw [h]
    exact ((m.yard_quiet _ _ _ _).moved _).trans (Mod.devWriteP_moved _ _ _)
  · next h =>
    rw [h]
    exact m.moved_mem _ (fun h => nomatch h) (fun _ => ⟨rfl, rfl⟩)
  · next h =>
    rw [h]
    exact m.moved_mem _ (fun h => nomatch h) (fun _ => ⟨rfl, rfl⟩)
  · exact (Mod.quiet.refl m).moved _

theorem Mod.opdWrite_sram (h : o.space = .sram) :
    m.opdWrite c st o a data noEcc = m.sramWrite c a (data.map (fun x => if x.2 then 0xFF else x.1)) := by
  simp [Mod.opdWrite, h, opdCore]

/-- Bytes of SRAM just written. -/
theorem Mod.sramWrite_byte (bs : List Byte) {x : Nat} (hx : x < bs.length) : ((m.sramWrite c a bs).sramByte c (a + x)).1 = bs[x] := by
  have h : ∀ (f : Nat → Nat) (us : List Nat) (y : Memory) (b : Nat), (us.foldl (fun s i => s.unmark (f i)) y).get b = y.get b := by
    intro f us
    induction us with
    | nil => exact fun _ _ => rfl
    | cons u us ih => exact fun y b => (ih _ b).trans (y.get_unmark _ _)
  unfold Mod.sramWrite Mod.sramByte Memory.putWords
  dsimp only
  rw [h, ← Nat.add_assoc]
  exact Memory.get_writeBytes_inside _ _ _ _ hx

end

/-! ### The work of each kernel -/

section
variable (m : Mod) (c i : Nat) (st : StableRec) (k : Kernel)

/-- A row read and written. -/
theorem Mod.rowMoved (a out n : Nat) (o : Operand) : Mod.moved (decide (k.c.space = .device)) m
    ((m.opdRead c i st o a n noEcc).1.opdWrite c st k.c out (m.opdRead c i st o a n noEcc).2 noEcc) :=
  ((m.opdRead_quiet c i st o a n).moved _).trans (Mod.opdWrite_moved _ _ _ _ _ _)

theorem Mod.copyWork_moved : Mod.moved (decide (k.c.space = .device)) m (m.copyWork c i st k noEcc) :=
  .foldl (p := id) (fun x _ => x.rowMoved c i st k _ _ _ _) _ m

theorem Mod.indexRange_quiet (bad : Option (Nat × Nat)) : Mod.quiet m (m.indexRange c i bad) := by
  unfold Mod.indexRange
  split
  · refine (m.fset_quiet Fld.CORE_VFLAGS_IDX 1 c 0 ?_).trans (.of (Mod.raise_sameBut _ _ _ _ _ _ _) rfl)
    simp only [RegSpec.addr, Fld.CORE_VFLAGS_IDX, Reg.CORE_VFLAGS]
    omega
  · exact .refl m

theorem Mod.gatherWork_moved : Mod.moved (decide (k.c.space = .device)) m (m.gatherWork c i st k noEcc) := by
  unfold Mod.gatherWork
  refine Mod.moved.trans (.foldl (p := Prod.fst) (fun x row => ?_) _ (m, none)) ((Mod.indexRange_quiet _ _ _ _).moved _)
  have hq := (x.1.opdRead_quiet c i st k.b (k.b.base (st.rank c) + 4 * row) 4).moved (decide (k.c.space = .device))
  dsimp only
  split_ifs
  · exact hq.trans (Mod.opdWrite_moved _ _ _ _ _ _)
  · exact hq.trans (Mod.rowMoved _ _ _ _ _ _ _ _ _)
  · exact hq.trans (Mod.opdWrite_moved _ _ _ _ _ _)

/-- A word written in the other six words of its row. -/
theorem Mod.regWord_quiet (r : RegSpec) (a b v : Nat) (hr : 8 ≤ r.addr a b % 32) : Mod.quiet m { m with regs := m.regs.write r a b v } := by
  refine ⟨rfl, rfl, fun _ => rfl, fun g hg x y => ?_⟩
  simp only [Mod.fget, RegFile.get]
  rw [RegFile.read_write_other]
  intro he
  have := hg.place x y
  rw [he] at this
  omega

/-- Nothing put in an SRAM. -/
theorem Mod.sramPut_nil : m.sramPut c [] = m := by
  have hfold : ∀ (us : List Nat) (x : Memory),
      us.foldl (fun (s : Memory) w => if (List.range 4).all (fun i => ([] : List (Nat × Byte)).any (fun x => c * sramSize + x.1 == w * 4 + i)) then s.unmark w else s) x = x := by
    intro us
    induction us with
    | nil => exact fun _ => rfl
    | cons u us ih => exact fun x => ih x
  have h : m.sramPut c [] = { m with mem := { m.mem with sram := m.mem.sram } } :=
    congrArg (fun y : Memory => { m with mem := { m.mem with sram := y } }) (hfold m.mem.sram.poison m.mem.sram)
  exact h

/-- The flags of a kernel that wrote nothing in its own SRAM. -/
theorem Mod.kernelResult_quiet (mfl vfl : Fl) : Mod.quiet m (m.kernelResult c ⟨[], mfl, vfl⟩) := by
  have hmf : ∀ (n : Mod) (v : Nat), Mod.quiet n { n with regs := n.regs.write Reg.CORE_MFLAGS c 0 v } := fun n v => n.regWord_quiet _ _ _ _ (by
    simp only [RegSpec.addr, Reg.CORE_MFLAGS]
    omega)
  have hvf : ∀ (n : Mod) (v : Nat), Mod.quiet n { n with regs := n.regs.write Reg.CORE_VFLAGS c 0 v } := fun n v => n.regWord_quiet _ _ _ _ (by
    simp only [RegSpec.addr, Reg.CORE_VFLAGS]
    omega)
  have hms : ∀ (n : Mod) (v : Nat), Mod.quiet n (n.fsat Fld.CORE_MSAT_COUNT v c) := fun n v => n.fsat_quiet _ _ _ _ (by
    simp only [RegSpec.addr, Fld.CORE_MSAT_COUNT, Reg.CORE_MSAT]
    omega)
  have hvs : ∀ (n : Mod) (v : Nat), Mod.quiet n (n.fsat Fld.CORE_VSAT_COUNT v c) := fun n v => n.fsat_quiet _ _ _ _ (by
    simp only [RegSpec.addr, Fld.CORE_VSAT_COUNT, Reg.CORE_VSAT]
    omega)
  unfold Mod.kernelResult
  dsimp only
  rw [m.sramPut_nil]
  exact (((hmf m _).trans (hvf _ _)).trans (hms _ _)).trans (hvs _ _)

theorem Mod.scatterWork_moved : Mod.moved (decide (k.c.space = .device)) m (m.scatterWork c i st k noEcc) := by
  unfold Mod.scatterWork
  refine Mod.moved.trans (.foldl (p := Prod.fst) (fun x row => ?_) _ (m, none, Fl.none))
    (((Mod.kernelResult_quiet _ _ _ _).trans (Mod.indexRange_quiet _ _ _ _)).moved _)
  have hq := (x.1.opdRead_quiet c i st k.b (k.b.base (st.rank c) + 4 * row) 4).moved (decide (k.c.space = .device))
  generalize x.1.opdRead c i st k.b (k.b.base (st.rank c) + 4 * row) 4 noEcc = q at hq ⊢
  have hadd : ∀ (dst : Nat) (data : List (Byte × Bool)), Mod.moved (decide (k.c.space = .device)) x.1
      (((q.1.opdRead c i st k.a (k.a.base (st.rank c) + row * k.a.pitch) k.d1 noEcc).1.opdRead c i st k.c dst k.d1 noEcc).1.opdWrite c st k.c dst data
        noEcc) := fun dst data => by
    refine (hq.trans ((q.1.opdRead_quiet c i st k.a (k.a.base (st.rank c) + row * k.a.pitch) k.d1).moved _)).trans ?_
    generalize q.1.opdRead c i st k.a (k.a.base (st.rank c) + row * k.a.pitch) k.d1 noEcc = src
    exact ((src.1.opdRead_quiet c i st k.c dst k.d1).moved _).trans (Mod.opdWrite_moved _ c st k.c _ _)
  dsimp only
  split_ifs <;> dsimp only
  · exact hq
  · exact hadd _ _
  · exact hadd _ _
  · exact hq.trans (q.1.rowMoved c i st k (k.a.base (st.rank c) + row * k.a.pitch) _ k.d1 k.a)
  · exact hq

/-! ### A kernel that runs -/

/-- The errors that a kernel meets in its own SRAM as it starts its work. -/
def Mod.kernelReads : Mod :=
  m.sramErrors c i (if k.op = .attn then k.attnExtent (m.sramRd c) (st.rank c) else k.readExtent (st.rank c)) noEcc

theorem Mod.kernelReads_quiet : Mod.quiet m (m.kernelReads c i st k) := m.sramErrors_quiet _ _ _

variable {m c i st k}

theorem Mod.kernelOn_eq {op : KOp} {ok : Kernel → Bool} {f : Mod → StableRec → Nat → Kernel → Mod} (hrun : m.running? c = some (st, i, k))
    (hop : k.op = op) (hok : ok k = true) : m.kernelOn c op noEcc ok f = (f (m.kernelReads c i st k) st i k).workDone c := by
  simp only [Mod.kernelOn, hrun, hop, hok, Bool.and_true, decide_true, if_true, Mod.kernelReads]

/-- The core that runs a kernel is not fenced. -/
theorem Mod.running?_spec (h : m.running? c = some (st, i, k)) : (m.core c).run = some i ∧ m.coreFencedBit c = false := by
  unfold Mod.running? at h
  split at h
  · next s j _ hj =>
    split at h
    · exact nomatch h
    · next hno =>
      obtain ⟨k', -, he⟩ := Option.map_eq_some_iff.1 h
      obtain ⟨-, rfl, -⟩ := Prod.mk.injEq .. ▸ he
      simp only [Bool.or_eq_true, not_or, Bool.not_eq_true] at hno
      exact ⟨hj, hno.2⟩
  · exact nomatch h

/-- Work done on a core that is not fenced. -/
theorem Mod.workDone_core {n : Mod} (h : n.coreFencedBit c = false) : ((n.workDone c).core c).done = true
    ∧ ((n.workDone c).core c).run = (n.core c).run := by
  unfold Mod.workDone
  rw [h, if_neg (by decide), Mod.core_setCore_same]
  exact ⟨rfl, rfl⟩

/-- A kernel whose work moves rows: done, and only the space of its operand C written. -/
theorem Mod.moveKernel (hrun : m.running? c = some (st, i, k)) {n : Mod} (h : Mod.moved (decide (k.c.space = .device)) (m.kernelReads c i st k) n) :
    ((n.workDone c).core c).done = true ∧ ((n.workDone c).core c).run = some i ∧ (k.c.space = .device → (n.workDone c).mem.sram = m.mem.sram)
      ∧ (k.c.space ≠ .device → (n.workDone c).mem.hbm = m.mem.hbm ∧ (n.workDone c).mem.loft = m.mem.loft) := by
  obtain ⟨hi, hf⟩ := Mod.running?_spec hrun
  have hm := ((m.kernelReads_quiet c i st k).moved _).trans h
  have hfence : n.coreFencedBit c = false := by rw [Mod.coreFencedBit, hm.keys _ isKey_fenced]; exact hf
  obtain ⟨hdone, hr⟩ := Mod.workDone_core hfence
  have hmem := (n.workDone_sameBut c).mem (by decide)
  rw [hmem]
  exact ⟨hdone, hr.trans ((hm.run c).trans hi), fun hs => hm.sram (by simpa using hs), fun hs => hm.device (by simpa using hs)⟩

end

section
variable {m : Mod} {c i : Nat} {st : StableRec} {k : Kernel}

/-- A COPY of one row from device memory to SRAM. -/
theorem Mod.copyWork_one (h1 : k.d1 = 1) (ha : k.a.space = .device) (hc : k.c.space = .sram) {x : Nat} (hx : x < k.d0) :
    ((m.copyWork c i st k noEcc).sramByte c (k.c.base (st.rank c) + x)).1
      = (let b := m.byteAt (m.locate (k.a.base (st.rank c) + x)); if b.2 then 0xFF else b.1) := by
  have hread : ∀ (n a : Nat), m.devRead a n = (List.range n).map (fun j => m.byteAt (m.locate (a + j))) := by
    intro n
    induction n with
    | zero => exact fun _ => rfl
    | succ n ih =>
      intro a
      rw [Mod.devRead, ih, List.range_succ_eq_map, List.map_cons, List.map_map, Nat.add_zero]
      exact congrArg _ (List.map_congr_left fun j _ => by simp only [Function.comp_apply, Nat.succ_eq_add_one, Nat.add_comm j 1, Nat.add_assoc])
  have hone : m.copyWork c i st k noEcc = (m.opdRead c i st k.a (k.a.base (st.rank c)) k.d0 noEcc).1.sramWrite c (k.c.base (st.rank c))
      ((m.devRead (k.a.base (st.rank c)) k.d0).map (fun x => if x.2 then 0xFF else x.1)) := by
    simp only [Mod.copyWork, h1, List.range_one, List.foldl_cons, List.foldl_nil, Nat.zero_mul, Nat.add_zero]
    rw [Mod.opdWrite_sram _ _ _ _ _ _ hc, Mod.opdRead_device _ _ _ _ _ _ _ ha]
  rw [hone, Mod.sramWrite_byte _ _ _ _ (by rw [hread]; simpa using hx)]
  simp only [hread, List.map_map, List.getElem_map, List.getElem_range, Function.comp_apply]

/-- An index out of range: the row selected is none. -/
theorem indexOf_out {d : List (Byte × Bool)} {n : Nat} (hp : (indexOf d).2 = false) (ho : (indexOf d).1 < 0 ∨ (n : Int) ≤ (indexOf d).1) :
    ¬ (indexOf d).2 = true ∧ ¬ (0 ≤ (indexOf d).1 ∧ (indexOf d).1 < n) := by
  refine ⟨by simp [hp], fun h => ?_⟩
  omega

/-- The first index of a kernel with one row in SRAM, as a unit reads it. -/
theorem Mod.firstIndex (hb : k.b.space = .sram) : (m.opdRead c i st k.b (k.b.base (st.rank c) + 4 * 0) 4 noEcc).2
    = m.sramRead c (k.b.base (st.rank c)) 4 := m.opdRead_sram c i st k.b _ 4 hb

theorem Mod.gatherWork_out (h1 : k.d0 = 1) (hb : k.b.space = .sram) (hc : k.c.space = .sram)
    (hp : (indexOf (m.sramRead c (k.b.base (st.rank c)) 4)).2 = false)
    (ho : (indexOf (m.sramRead c (k.b.base (st.rank c)) 4)).1 < 0 ∨ (k.d2 : Int) ≤ (indexOf (m.sramRead c (k.b.base (st.rank c)) 4)).1) :
    ∃ n, m.gatherWork c i st k noEcc = (n.sramWrite c (k.c.base (st.rank c)) (List.replicate k.d1 0)).indexRange c i
      (some (0, leNat (rdBytes (m.sramRead c (k.b.base (st.rank c)) 4)))) ∧ Mod.quiet m n := by
  obtain ⟨hp', ho'⟩ := indexOf_out hp ho
  refine ⟨(m.opdRead c i st k.b (k.b.base (st.rank c) + 4 * 0) 4 noEcc).1, ?_, m.opdRead_quiet _ _ _ _ _ _⟩
  simp only [Mod.gatherWork, h1, List.range_one, List.foldl_cons, List.foldl_nil, Mod.firstIndex hb, if_neg hp', if_neg ho', Nat.zero_mul,
    Nat.add_zero, Mod.opdWrite_sram _ _ _ _ _ _ hc, List.map_replicate]
  rfl

theorem Mod.scatterWork_out (h1 : k.d0 = 1) (hb : k.b.space = .sram)
    (hp : (indexOf (m.sramRead c (k.b.base (st.rank c)) 4)).2 = false)
    (ho : (indexOf (m.sramRead c (k.b.base (st.rank c)) 4)).1 < 0 ∨ (k.d2 : Int) ≤ (indexOf (m.sramRead c (k.b.base (st.rank c)) 4)).1) :
    ∃ n, m.scatterWork c i st k noEcc = n.indexRange c i (some (0, leNat (rdBytes (m.sramRead c (k.b.base (st.rank c)) 4)))) ∧ Mod.quiet m n := by
  obtain ⟨hp', ho'⟩ := indexOf_out hp ho
  refine ⟨(m.opdRead c i st k.b (k.b.base (st.rank c) + 4 * 0) 4 noEcc).1.kernelResult c ⟨[], .none, .none⟩, ?_,
    (m.opdRead_quiet _ _ _ _ _ _).trans (Mod.kernelResult_quiet _ _ _ _)⟩
  simp only [Mod.scatterWork, h1, List.range_one, List.foldl_cons, List.foldl_nil, Mod.firstIndex hb, if_neg hp', if_neg ho']
  rfl

/-- An index out of range is flagged and raised (R89). -/
theorem Mod.indexRange_flags (n : Mod) (ix : Nat) : ((n.indexRange c i (some (0, ix))).workDone c).fget Fld.CORE_VFLAGS_IDX c = 1
    ∧ ((n.indexRange c i (some (0, ix))).workDone c).reports .contained 0x0401 c i 0 ix
    ∧ ((n.indexRange c i (some (0, ix))).workDone c).mem = n.mem := by
  have hd := (n.indexRange c i (some (0, ix))).workDone_sameBut c
  refine ⟨?_, Mod.reports_of_eq (hd.evIn (by decide)) (hd.tick (by decide)) (Mod.raise_reports _ _ _ _ _ _ _), ?_⟩
  · rw [hd.fget (by decide), Mod.indexRange]
    exact (Mod.fget_raise _ _ _ _ _ _ _ _ _ _).trans (Mod.fget_fset_bit _ _ _ _ rfl)
  · rw [hd.mem (by decide), (n.indexRange_sameBut c i _).mem (by decide)]

end

/-- Settles O24. -/
theorem kernelMoves : Obligations.KernelMoves := by
  unfold Obligations.KernelMoves
  intro s c i st k hr hrun
  have hq := s.m.kernelReads_quiet c i st k
  have hcopy : k.op = .copy → exec (.copy c noEcc) s = .next { s with m := ((s.m.kernelReads c i st k).copyWork c i st k noEcc).workDone c } := fun h =>
    exec_unit_eq rfl hr (Mod.kernelOn_eq hrun h rfl)
  have hgather : k.op = .gather → exec (.gather c noEcc) s = .next { s with m := ((s.m.kernelReads c i st k).gatherWork c i st k noEcc).workDone c } := fun h =>
    exec_unit_eq rfl hr (Mod.kernelOn_eq hrun h rfl)
  have hscatter : k.op = .scatter → exec (.scatter c noEcc) s = .next { s with m := ((s.m.kernelReads c i st k).scatterWork c i st k noEcc).workDone c } := fun h =>
    exec_unit_eq rfl hr (Mod.kernelOn_eq hrun h rfl)
  refine ⟨fun e he hop => ?_, fun hop h1 ha hc => ?_, fun h1 hb hc hop hp ho => ?_⟩
  · simp only [List.mem_cons, List.not_mem_nil, or_false] at he
    rcases he with rfl | rfl | rfl
    · exact ⟨_, hcopy hop, Mod.moveKernel hrun (Mod.copyWork_moved _ _ _ _ _)⟩
    · exact ⟨_, hgather hop, Mod.moveKernel hrun (Mod.gatherWork_moved _ _ _ _ _)⟩
    · exact ⟨_, hscatter hop, Mod.moveKernel hrun (Mod.scatterWork_moved _ _ _ _ _)⟩
  · refine ⟨_, hcopy hop, fun x hx => ?_⟩
    have hone := Mod.copyWork_one (m := s.m.kernelReads c i st k) (c := c) (i := i) (st := st) h1 ha hc hx
    rw [hq.locate, hq.byteAt] at hone
    rw [← hone]
    simp only [Mod.sramByte, (Mod.workDone_sameBut _ _).mem (by decide)]
  · rw [← hq.sramRead] at hp ho ⊢
    rcases hop with hop | hop
    · obtain ⟨n, e, hn⟩ := Mod.gatherWork_out (m := s.m.kernelReads c i st k) (i := i) h1 hb hc hp ho
      obtain ⟨hidx, hrep, hmem⟩ := Mod.indexRange_flags (c := c) (i := i) (n.sramWrite c (k.c.base (st.rank c)) (List.replicate k.d1 0))
        (leNat (rdBytes ((s.m.kernelReads c i st k).sramRead c (k.b.base (st.rank c)) 4)))
      rw [if_pos hop]
      refine ⟨_, hgather hop, ?_⟩
      rw [e]
      refine ⟨hidx, hrep, fun h => ?_, fun _ x hx => ?_⟩
      · rw [hop] at h
        exact nomatch h
      · have hbyte := n.sramWrite_byte c (k.c.base (st.rank c)) (List.replicate k.d1 0) (x := x) (by simpa using hx)
        rw [List.getElem_replicate] at hbyte
        simp only [Mod.sramByte, hmem] at hbyte ⊢
        exact hbyte
    · obtain ⟨n, e, hn⟩ := Mod.scatterWork_out (m := s.m.kernelReads c i st k) (i := i) h1 hb hp ho
      obtain ⟨hidx, hrep, hmem⟩ := Mod.indexRange_flags (c := c) (i := i) n
        (leNat (rdBytes ((s.m.kernelReads c i st k).sramRead c (k.b.base (st.rank c)) 4)))
      rw [if_neg (by rw [hop]; decide)]
      refine ⟨_, hscatter hop, ?_⟩
      rw [e]
      refine ⟨hidx, hrep, fun _ => by rw [hmem, hn.mem, hq.mem], fun h => ?_⟩
      rw [hop] at h
      exact nomatch h

end Sys2Proof.Machine
end

section
/-! PROOF. Stable resets, the core watchdog and core self-tests (03_cores.md R95, R96, R99). -/

namespace Sys2Proof.Machine

/-! ### An SRAM forgotten -/

/-- A core's SRAM forgotten, its poison marks with it. -/
def Memory.forgetCore (s : Memory) (c : Nat) : Memory :=
  { s with cells := kvKeep s.cells (fun a => decide (a < c * sramSize) || decide (c * sramSize + sramSize ≤ a)),
           poison := s.poison.filter (fun w => decide (4 * w < c * sramSize) || decide (c * sramSize + sramSize ≤ 4 * w)) }

section
variable {m n : Mod} {c d a : Nat}

/-- The bytes of a core's SRAM as a memory holds them, with their poison. -/
theorem Mod.sramByte_of (h : n.mem.sram = m.mem.sram) (d a : Nat) : n.sramByte d a = m.sramByte d a := by
  rw [Mod.sramByte, h, Mod.sramByte]

theorem Mod.sramByte_forgotten (h : n.mem.sram = m.mem.sram.forgetCore c) (ha : a < sramSize) :
    n.sramByte c a = (n.mem.sram.undef (c * sramSize + a), false) := by
  have hmark : (m.mem.sram.forgetCore c).poison.contains ((c * sramSize + a) / 4) = false := by
    rw [← Bool.not_eq_true]
    simp only [Memory.forgetCore, List.contains_eq_mem, List.mem_filter, decide_eq_true_eq, Bool.or_eq_true, not_and, not_or]
    intro _
    simp only [sramSize] at ha ⊢
    omega
  have hcell : kvGet? (m.mem.sram.forgetCore c).cells (c * sramSize + a) = none := by
    rw [Memory.forgetCore, kvGet?_kvKeep, if_neg]
    simp only [Bool.or_eq_true, decide_eq_true_eq]
    omega
  rw [Mod.sramByte, h, Memory.get, hcell, Option.getD_none, hmark]

theorem Mod.sramByte_other (h : n.mem.sram = m.mem.sram.forgetCore c) (hd : d ≠ c) (ha : a < sramSize) : n.sramByte d a = m.sramByte d a := by
  have hout : d * sramSize + a < c * sramSize ∨ c * sramSize + sramSize ≤ d * sramSize + a := by
    rcases Nat.lt_or_gt_of_ne hd with h | h
    · have := Nat.mul_le_mul_right sramSize (Nat.succ_le_of_lt h)
      rw [Nat.succ_mul] at this
      omega
    · have := Nat.mul_le_mul_right sramSize (Nat.succ_le_of_lt h)
      rw [Nat.succ_mul] at this
      omega
  have hcell : kvGet? (m.mem.sram.forgetCore c).cells (d * sramSize + a) = kvGet? m.mem.sram.cells (d * sramSize + a) := by
    rw [Memory.forgetCore, kvGet?_kvKeep, if_pos]
    simpa using hout
  have hmark : (m.mem.sram.forgetCore c).poison.contains ((d * sramSize + a) / 4) = m.mem.sram.poison.contains ((d * sramSize + a) / 4) := by
    rw [Bool.eq_iff_iff]
    simp only [Memory.forgetCore, List.contains_eq_mem, List.mem_filter, decide_eq_true_eq, Bool.or_eq_true, and_iff_left_iff_imp]
    intro _
    simp only [sramSize] at hout ⊢
    omega
  rw [Mod.sramByte, h, Mod.sramByte, hmark, Memory.get, hcell]
  rfl

end

/-! ### A stable reset -/

/-- What a stable reset does to one core (R96). -/
def Mod.coreReset (x : Mod) (c : Nat) : Mod :=
  let y := { x with mem := { x.mem with sram := x.mem.sram.forgetCore c }, cores := kvSet x.cores c { CoreRun.rest with bist := (x.core c).bist } }
  { y with regs := y.regs.defaultInst [Reg.CORE_STATUS, Reg.CORE_KERNEL, Reg.CORE_UTIL] c }

/-- `n` is `m` with the cores `cs` reset. -/
structure Mod.coresReset (cs : List Nat) (m n : Mod) : Prop where
  inside : ∀ d ∈ cs, n.core d = { CoreRun.rest with bist := (m.core d).bist } ∧ ∀ a < sramSize, n.sramByte d a = (n.mem.sram.undef (d * sramSize + a), false)
  outside : ∀ d, d ∉ cs → n.core d = m.core d ∧ ∀ a < sramSize, n.sramByte d a = m.sramByte d a
  device : n.mem.hbm = m.mem.hbm ∧ n.mem.loft = m.mem.loft
  rest : Mod.sameBut [.regs, .cores, .mem] m n

/-- A self-test in progress is not stopped. -/
theorem Mod.coresReset.bist {cs : List Nat} {m n : Mod} (h : Mod.coresReset cs m n) (d : Nat) : (n.core d).bist = (m.core d).bist := by
  by_cases hd : d ∈ cs
  · rw [(h.inside d hd).1]
  · rw [(h.outside d hd).1]

theorem Mod.coreReset_step (m : Mod) (c : Nat) : Mod.coresReset [c] m (m.coreReset c) := by
  have hs : (m.coreReset c).mem.sram = m.mem.sram.forgetCore c := rfl
  refine ⟨fun d hd => ?_, fun d hd => ?_, ⟨rfl, rfl⟩, ?_⟩
  · obtain rfl := List.mem_singleton.1 hd
    exact ⟨kvGetD_kvSet_same _ _ _ _, fun a ha => Mod.sramByte_forgotten hs ha⟩
  · have hne : d ≠ c := by simpa using hd
    exact ⟨kvGetD_kvSet_other _ _ _ hne, fun a ha => Mod.sramByte_other hs hne ha⟩
  · constructor <;> intro hp
    case regs => exact (hp (by decide)).elim
    case cores => exact (hp (by decide)).elim
    case mem => exact (hp (by decide)).elim
    all_goals rfl

theorem Mod.coresReset_foldl (cs : List Nat) (m : Mod) : Mod.coresReset cs m (cs.foldl Mod.coreReset m) := by
  induction cs using List.reverseRecOn with
  | nil => exact ⟨fun _ h => (nomatch h), fun _ _ => ⟨rfl, fun _ _ => rfl⟩, ⟨rfl, rfl⟩, Mod.sameBut_refl _ _⟩
  | append_singleton cs c ih =>
    rw [List.foldl_append, List.foldl_cons, List.foldl_nil]
    have h := (cs.foldl Mod.coreReset m).coreReset_step c
    have hundef : ((cs.foldl Mod.coreReset m).coreReset c).mem.sram.undef = (cs.foldl Mod.coreReset m).mem.sram.undef := rfl
    refine ⟨fun d hd => ?_, fun d hd => ?_, ⟨h.device.1.trans ih.device.1, h.device.2.trans ih.device.2⟩, Mod.sameBut_trans ih.rest h.rest⟩
    · by_cases hc : d = c
      · subst hc
        obtain ⟨hcore, hbyte⟩ := h.inside d (List.mem_singleton_self d)
        exact ⟨by rw [hcore, ih.bist], hbyte⟩
      · obtain ⟨hcore, hbyte⟩ := h.outside d (by simpa using hc)
        obtain ⟨hcore', hbyte'⟩ := ih.inside d (by simpa [hc] using hd)
        exact ⟨hcore.trans hcore', fun a ha => by rw [hbyte a ha, hbyte' a ha, hundef]⟩
    · simp only [List.mem_append, List.mem_singleton, not_or] at hd
      obtain ⟨hcore, hbyte⟩ := h.outside d (by simpa using hd.2)
      obtain ⟨hcore', hbyte'⟩ := ih.outside d hd.1
      exact ⟨hcore.trans hcore', fun a ha => (hbyte a ha).trans (hbyte' a ha)⟩

/-- A stable whose frames end, unless it is fenced. -/
def Mod.stableEnd (m : Mod) (id : Nat) : Mod :=
  match m.stable? id with
  | some x => if x.st == StableState.fenced then m else m.setStable id { x with st := .fin, busy := false }
  | none => m

section
variable {m : Mod} {c how : Nat} {st : StableRec}

theorem Mod.stableReset_eq (h : m.stableOf c = some st) :
    m.stableReset c how = ((st.cores.foldl Mod.coreReset m).stableEnd st.id).raiseDual true .corrected 0x0403 c st.id how (m.fget Fld.GRM_STEP_STEP) := by
  simp only [Mod.stableReset, h]
  rfl

theorem Mod.stableReset_none (h : m.stableOf c = none) : m.stableReset c how = m := by simp only [Mod.stableReset, h]

theorem Mod.stableEnd_sameBut (m : Mod) (id : Nat) : Mod.sameBut [.sched] m (m.stableEnd id) := by
  unfold Mod.stableEnd
  split
  · split
    · exact Mod.sameBut_refl _ _
    · exact m.sameBut_sched _
  · exact Mod.sameBut_refl _ _

theorem Mod.stableEnd_stable? {id : Nat} {x : StableRun} (h : m.stable? id = some x) (hx : x.st ≠ .fenced) :
    (m.stableEnd id).stable? id = some { x with st := .fin, busy := false } := by
  have e : m.stableEnd id = m.setStable id { x with st := .fin, busy := false } := by simp only [Mod.stableEnd, h, beq_iff_eq, if_neg hx]
  rw [e]
  exact kvGet?_kvSet_same _ _ _

/-- A cause of FAULT stands once there is one. -/
theorem Mod.fault_step_cause (n : Mod) (code : Nat) : (n.fault code).step.cause = (n.step.cause <|> some (code, n.self)) := rfl

/-- A cause of FAULT does not end the step. -/
theorem Mod.raiseDual_stepOpen (n : Mod) (b : Bool) (k : EvClass) (code source d0 d1 d2 : Nat) :
    (n.raiseDual b k code source d0 d1 d2).stepOpen = n.stepOpen := by
  unfold Mod.raiseDual
  split <;> rfl

/-- A record that faults an open step reaches the event unit with the class its step gives it. -/
theorem Mod.raiseDual_reportsCause (n : Mod) (h : n.stepOpen = m.stepOpen) (k : EvClass) (code source d0 d1 d2 : Nat) :
    m.reportsCause (n.raiseDual true k code source d0 d1 d2) k code source d0 d1 d2 := by
  unfold Mod.reportsCause Mod.raiseDual
  rw [Bool.true_and, h]
  split
  · refine ⟨Mod.reports_of_eq rfl rfl (Mod.raise_reports n .step code source d0 d1 d2), ?_⟩
    rw [Mod.fault_step_cause]
    simp
  · exact Mod.raise_reports _ _ _ _ _ _ _

/-- What a stable reset leaves (R96). -/
theorem Mod.stableReset_spec (h : m.stableOf c = some st) : Mod.sameBut [.regs, .evIn, .sched, .cores, .step, .mem] m (m.stableReset c how)
    ∧ (∀ d ∈ st.cores, (m.stableReset c how).core d = { CoreRun.rest with bist := (m.core d).bist }
        ∧ ∀ a < sramSize, (m.stableReset c how).sramByte d a = ((m.stableReset c how).mem.sram.undef (d * sramSize + a), false))
    ∧ (∀ d, d ∉ st.cores → (m.stableReset c how).core d = m.core d ∧ ∀ a < sramSize, (m.stableReset c how).sramByte d a = m.sramByte d a)
    ∧ (m.stableReset c how).mem.hbm = m.mem.hbm ∧ (m.stableReset c how).mem.loft = m.mem.loft
    ∧ (∀ x, m.stable? st.id = some x → x.st ≠ .fenced → (m.stableReset c how).stable? st.id = some { x with st := .fin, busy := false })
    ∧ m.reportsCause (m.stableReset c how) .corrected 0x0403 c st.id how (m.fget Fld.GRM_STEP_STEP) := by
  have hr := Mod.coresReset_foldl st.cores m
  have he := (st.cores.foldl Mod.coreReset m).stableEnd_sameBut st.id
  have hd := ((st.cores.foldl Mod.coreReset m).stableEnd st.id).raiseDual_sameBut true .corrected 0x0403 c st.id how (m.fget Fld.GRM_STEP_STEP)
  have hcore := fun d => (hd.core (by decide) d).trans (he.core (by decide) d)
  have hmem := (hd.mem (by decide)).trans (he.mem (by decide))
  have hstep : ((st.cores.foldl Mod.coreReset m).stableEnd st.id).stepOpen = m.stepOpen := by
    rw [Mod.stepOpen, he.step (by decide), hr.rest.step (by decide), Mod.stepOpen]
  have hbyte : ∀ d a, (((st.cores.foldl Mod.coreReset m).stableEnd st.id).raiseDual true .corrected 0x0403 c st.id how (m.fget Fld.GRM_STEP_STEP)).sramByte d a
      = (st.cores.foldl Mod.coreReset m).sramByte d a := Mod.sramByte_of (by rw [hmem])
  refine ⟨m.stableReset_sameBut c how, ?_⟩
  rw [Mod.stableReset_eq h]
  refine ⟨fun d hin => ?_, fun d hout => ?_, ?_, ?_, fun x hx hx' => ?_, Mod.raiseDual_reportsCause _ hstep _ _ _ _ _ _⟩
  · rw [hcore, hmem]
    exact ⟨(hr.inside d hin).1, fun a ha => (hbyte d a).trans ((hr.inside d hin).2 a ha)⟩
  · rw [hcore]
    exact ⟨(hr.outside d hout).1, fun a ha => (hbyte d a).trans ((hr.outside d hout).2 a ha)⟩
  · rw [hmem]
    exact hr.device.1
  · rw [hmem]
    exact hr.device.2
  · have hsched : (st.cores.foldl Mod.coreReset m).stable? st.id = some x := by
      rw [Mod.stable?, hr.rest.sched (by decide)]
      exact hx
    rw [Mod.stable?, hd.sched (by decide)]
    exact Mod.stableEnd_stable? hsched hx'

end

/-! ### Self-tests -/

section
variable {m : Mod} {c : Nat}

/-- The start of a self-test forgets the core's SRAM. -/
theorem Mod.bistStart_eq (h : m.coreFencedBit c = true ∨ m.stableOf c = none) (hb : (m.core c).bist = false) :
    m.bistStart c = Mod.fset { m.setCore c { m.core c with bist := true } with mem := { m.mem with sram := m.mem.sram.forgetCore c } }
      Fld.CORE_FENCE_BIST 1 c := by
  have hgo : ((m.coreFencedBit c || (m.stableOf c).isNone) && !(m.core c).bist) = true := by
    rcases h with h | h <;> simp [h, hb]
  simp only [Mod.bistStart, hgo, if_true]
  rfl

theorem Mod.bistStart_refused (hf : m.coreFencedBit c = false) (hs : m.stableOf c ≠ none) : m.bistStart c = m := by
  have hno : ((m.coreFencedBit c || (m.stableOf c).isNone) && !(m.core c).bist) = false := by
    simp [hf, Option.isNone_iff_eq_none, hs]
  simp only [Mod.bistStart, hno, Bool.false_eq_true, if_false]

/-- Fields of CORE_FENCE other than one just set. -/
theorem Mod.fget_fence_other (n : Mod) (f g : Fld) (v : Nat) (hf : f.reg = Reg.CORE_FENCE) (hg : g.reg = Reg.CORE_FENCE) (hle : f.lo ≤ f.hi)
    (d : g.hi < f.lo ∨ f.hi < g.lo) : (n.fset f v c).fget g c = n.fget g c :=
  n.fget_fset_otherField f g v c 0 (hg.trans hf.symm) hle d

/-- A self-test that passes. -/
def Mod.bistPassed (m : Mod) (c : Nat) : Mod :=
  (((m.setCore c { m.core c with bist := false }).fset Fld.CORE_FENCE_BIST 2 c).fset Fld.CORE_FENCE_FENCED 0 c).fset Fld.CORE_FENCE_CAUSE 0 c

theorem Mod.bistPassed_spec : ((m.bistPassed c).core c).bist = false ∧ (m.bistPassed c).fget Fld.CORE_FENCE_BIST c = 2
    ∧ (m.bistPassed c).fget Fld.CORE_FENCE_FENCED c = 0 ∧ Mod.sameBut [.regs, .cores] m (m.bistPassed c) := by
  refine ⟨congrArg CoreRun.bist (Mod.core_setCore_same _ _ _), ?_, ?_, ?_⟩ <;> unfold Mod.bistPassed
  · rw [Mod.fget_fence_other _ Fld.CORE_FENCE_CAUSE Fld.CORE_FENCE_BIST _ rfl rfl (by decide) (by decide),
      Mod.fget_fence_other _ Fld.CORE_FENCE_FENCED Fld.CORE_FENCE_BIST _ rfl rfl (by decide) (by decide)]
    exact Mod.fget_fset_same _ _ _ _ _ (by decide)
  · rw [Mod.fget_fence_other _ Fld.CORE_FENCE_CAUSE Fld.CORE_FENCE_FENCED _ rfl rfl (by decide) (by decide)]
    exact Mod.fget_fset_same _ _ _ _ _ (by decide)
  · have hset : ∀ (n : Mod) (f : Fld) (v : Nat), Mod.sameBut [.regs, .cores] n (n.fset f v c) := fun n f v => Mod.sameBut_mono (n.fset_sameBut f v c 0) (by decide)
    exact Mod.sameBut_trans (Mod.sameBut_trans (Mod.sameBut_trans (Mod.sameBut_mono (m.setCore_sameBut c _) (by decide)) (hset _ _ _)) (hset _ _ _)) (hset _ _ _)

/-- A core marked fenced, its kernel abandoned. -/
def Mod.fenceMark (n : Mod) (c cause : Nat) : Mod :=
  let m1 := (n.fset Fld.CORE_FENCE_FENCED 1 c).fset Fld.CORE_FENCE_CAUSE cause c
  m1.setCore c { CoreRun.rest with kpos := (m1.core c).kpos, bist := (m1.core c).bist }

theorem Mod.fenceCore_sameBut_mark (n : Mod) (cause : Nat) (h : n.coreFencedBit c = false) :
    Mod.sameBut [.evIn, .sched, .step] (n.fenceMark c cause) (n.fenceCore c cause) := by
  unfold Mod.fenceCore
  rw [h, if_neg (by decide)]
  dsimp only
  split
  · refine Mod.sameBut_trans ?_ (Mod.sameBut_mono (Mod.raiseStep_sameBut _ _ _ _ _ _) (by decide))
    refine Mod.sameBut_trans ?_ (Mod.sameBut_mono (Mod.fenceStable_sameBut _ _) (by decide))
    exact Mod.sameBut_mono (Mod.sameBut_sched (n.fenceMark c cause) _) (by decide)
  · exact Mod.sameBut_refl _ _

/-- A core fenced shows it, and keeps the outcome of its self-test (R98). -/
theorem Mod.fenceCore_spec (n : Mod) (cause : Nat) (h : n.coreFencedBit c = false) : (n.fenceCore c cause).fget Fld.CORE_FENCE_FENCED c = 1
    ∧ (n.fenceCore c cause).fget Fld.CORE_FENCE_BIST c = n.fget Fld.CORE_FENCE_BIST c ∧ ((n.fenceCore c cause).core c).bist = (n.core c).bist := by
  have hm := n.fenceCore_sameBut_mark cause h
  have hfld : ∀ f : Fld, (n.fenceMark c cause).fget f c = ((n.fset Fld.CORE_FENCE_FENCED 1 c).fset Fld.CORE_FENCE_CAUSE cause c).fget f c := fun f => by
    rw [Mod.fenceMark, Mod.fget_setCore]
  refine ⟨?_, ?_, ?_⟩
  · rw [hm.fget (by decide), hfld, Mod.fget_fence_other _ Fld.CORE_FENCE_CAUSE Fld.CORE_FENCE_FENCED _ rfl rfl (by decide) (by decide)]
    exact Mod.fget_fset_same _ _ _ _ _ (by decide)
  · rw [hm.fget (by decide), hfld, Mod.fget_fence_other _ Fld.CORE_FENCE_CAUSE Fld.CORE_FENCE_BIST _ rfl rfl (by decide) (by decide),
      Mod.fget_fence_other _ Fld.CORE_FENCE_FENCED Fld.CORE_FENCE_BIST _ rfl rfl (by decide) (by decide)]
  · rw [hm.core (by decide), Mod.fenceMark, Mod.core_setCore_same]
    rfl

/-- A core with a self-test that failed, not yet fenced for it. -/
def Mod.bistFailed (m : Mod) (c : Nat) : Mod := (m.setCore c { m.core c with bist := false }).fset Fld.CORE_FENCE_BIST 3 c

/-- A self-test that fails (R99). -/
theorem Mod.bistFailed_spec (part : Nat) : ∃ n : Mod, n = (if (m.bistFailed c).coreFencedBit c then m.bistFailed c else (m.bistFailed c).fenceCore c 2).raise .corrected 0x0407 c part
    ∧ (n.core c).bist = false ∧ n.fget Fld.CORE_FENCE_BIST c = 3 ∧ n.fget Fld.CORE_FENCE_FENCED c = 1 ∧ n.reports .corrected 0x0407 c part 0 0 := by
  have hbist : (m.bistFailed c).fget Fld.CORE_FENCE_BIST c = 3 := Mod.fget_fset_same _ _ _ _ _ (by decide)
  have hcore : ((m.bistFailed c).core c).bist = false := congrArg CoreRun.bist (Mod.core_setCore_same _ _ _)
  refine ⟨_, rfl, ?_, ?_, ?_, Mod.raise_reports _ _ _ _ _ _ _⟩
  · rw [(Mod.raise_sameBut _ _ _ _ _ _ _).core (by decide)]
    split
    · exact hcore
    · next h => exact (Mod.fenceCore_spec _ 2 (by simpa using h)).2.2.trans hcore
  · rw [Mod.fget_raise]
    split
    · exact hbist
    · next h => exact (Mod.fenceCore_spec _ 2 (by simpa using h)).2.1.trans hbist
  · rw [Mod.fget_raise]
    split
    · next h => simpa [Mod.coreFencedBit] using h
    · next h => exact (Mod.fenceCore_spec _ 2 (by simpa using h)).1

end

/-- Settles O25. -/
theorem coreResets : Obligations.CoreResets := by
  unfold Obligations.CoreResets
  refine ⟨fun s c st hst how hhow => ?_, fun s c hst => ?_, fun s c hlim => ?_, fun s c hans hb hgo => ?_, fun s c hf hs => ?_, fun s c hr hb => ⟨?_, fun part => ?_⟩⟩
  · rcases hhow with ⟨rfl, hans⟩ | ⟨rfl, hr, hrun, hlim, hlate, hhalt⟩
    · obtain ⟨-, hspec⟩ := Mod.stableReset_spec (how := 0) hst
      have e : exec (.stableReset c) s = .next { s with m := s.m.stableReset c 0 } := exec_reg (f := fun m => m.stableReset c 0) rfl hans
      exact ⟨_, e, hspec⟩
    · obtain ⟨i, hi⟩ := Option.isSome_iff_exists.1 hrun
      have hm := s.m.raiseStep_sameBut 0x0402 c i st.id (s.m.core c).ticks
      have hst' : (s.m.raiseStep 0x0402 c i st.id (s.m.core c).ticks).stableOf c = some st := by
        rw [Mod.stableOf, Mod.plate?, hm.plt (by decide)]
        exact hst
      obtain ⟨-, hin, hout, hhbm, hloft, hstab, hrep⟩ := Mod.stableReset_spec (how := 1) hst'
      refine ⟨{ s with m := (s.m.raiseStep 0x0402 c i st.id (s.m.core c).ticks).stableReset c 1 }, ?_, fun d hd => ?_, fun d hd => ?_,
        hhbm.trans (congrArg MemUnit.hbm (hm.mem (by decide))), hloft.trans (congrArg MemUnit.loft (hm.mem (by decide))), fun x hx => hstab x ?_, ?_⟩
      · rw [if_neg (by decide)]
        exact exec_unit_eq rfl hr (by simp only [hi, hst, hlim, hlate, hhalt, ne_eq, not_false_eq_true, Bool.not_false, and_self, if_true])
      · have h := hin d hd
        rw [hm.core (by decide)] at h
        exact h
      · have h := hout d hd
        rw [hm.core (by decide)] at h
        exact ⟨h.1, fun a ha => (h.2 a ha).trans (Mod.sramByte_of (by rw [hm.mem (by decide)]) d a)⟩
      · rw [Mod.stable?, hm.sched (by decide)]
        exact hx
      · have hopen : (s.m.raiseStep 0x0402 c i st.id (s.m.core c).ticks).stepOpen = s.m.stepOpen :=
          s.m.raiseDual_stepOpen _ _ _ _ _ _ _
        rw [hm.fget (by decide), Mod.reportsCause, hopen] at hrep
        exact hrep
  · exact exec_reg_self rfl fun _ => Mod.stableReset_none hst
  · refine exec_unit_self rfl fun _ => ?_
    dsimp only
    split
    · exact if_neg fun h => h.1 hlim
    · rfl
  · have e := Mod.bistStart_eq hgo hb
    refine ⟨{ s with m := s.m.bistStart c }, exec_reg rfl hans, ?_⟩
    rw [e]
    refine ⟨congrArg CoreRun.bist (Mod.core_setCore_same _ _ _), Mod.fget_fset_same _ _ _ _ _ (by decide), fun a ha => ?_, rfl, rfl⟩
    exact Mod.sramByte_forgotten (m := s.m) rfl ha
  · exact exec_reg_self rfl fun _ => Mod.bistStart_refused hf hs
  · refine ⟨{ s with m := s.m.bistPassed c }, exec_unit_eq rfl hr ?_, ?_⟩
    · simp only [hb, Bool.not_true, Bool.false_eq_true, if_false]
      rfl
    · obtain ⟨h1, h2, h3, h4⟩ := Mod.bistPassed_spec (m := s.m) (c := c)
      exact ⟨h1, h2, h3, rfl, rfl, h4⟩
  · obtain ⟨n, e, hspec⟩ := Mod.bistFailed_spec (m := s.m) (c := c) part
    refine ⟨{ s with m := n }, exec_unit_eq rfl hr ?_, hspec⟩
    rw [e]
    simp only [hb, Bool.not_true, Bool.false_eq_true, if_false]
    rfl

end Sys2Proof.Machine
end

section
/-! PROOF. Groom units: passes, slices and the elements a unit holds (07_groom_units.md R164, R165, R174, R176, R184). -/

namespace Sys2Proof.Machine

/-! ### What the work of one unit leaves of the groom units -/

theorem Mod.sameBut.groomUnit {ps : List Part} {m n : Mod} (h : Mod.sameBut ps m n) (hg : Part.groom ∉ ps) (d : Nat) : n.groomUnit d = m.groomUnit d := by
  rw [Mod.groomUnit, h.groom hg, Mod.groomUnit]

section
variable (m : Mod) (u : Nat) (x : GroomRun)

@[simp] theorem Mod.groomUnit_setGroom_same : (m.setGroom u x).groomUnit u = x := kvGetD_kvSet_same _ _ _ _

theorem Mod.groomUnit_setGroom_other {d : Nat} (h : d ≠ u) : (m.setGroom u x).groomUnit d = m.groomUnit d := kvGetD_kvSet_other _ _ _ h

end

/-- The other groom units stand. -/
def Mod.onUnit (u : Nat) (m n : Mod) : Prop := ∀ d, d ≠ u → n.groomUnit d = m.groomUnit d

/-- `n` is `m` but for what a unit's elements change: the rows its unit has touched, other units standing. -/
structure Mod.unitWork (u : Nat) (m n : Mod) : Prop where
  others : Mod.onUnit u m n
  own : ∃ t, n.groomUnit u = { m.groomUnit u with touched := t }
  sram : n.mem.sram = m.mem.sram

section
variable {u : Nat} {l m n : Mod}

theorem Mod.onUnit.trans (h1 : Mod.onUnit u l m) (h2 : Mod.onUnit u m n) : Mod.onUnit u l n := fun d hd => (h2 d hd).trans (h1 d hd)

theorem Mod.unitWork.refl (m : Mod) : Mod.unitWork u m m := ⟨fun _ _ => rfl, ⟨_, rfl⟩, rfl⟩

theorem Mod.unitWork.trans (h1 : Mod.unitWork u l m) (h2 : Mod.unitWork u m n) : Mod.unitWork u l n := by
  obtain ⟨t, ht⟩ := h1.own
  obtain ⟨t', ht'⟩ := h2.own
  exact ⟨h1.others.trans h2.others, ⟨t', by rw [ht', ht]⟩, h2.sram.trans h1.sram⟩

/-- A change of other parts than the groom units, every SRAM standing. -/
theorem Mod.unitWork.of {ps : List Part} (h : Mod.sameBut ps m n) (hg : ps.contains .groom = false) (hs : n.mem.sram = m.mem.sram) :
    Mod.unitWork u m n :=
  ⟨fun d _ => h.groomUnit (by simpa using hg) d, ⟨(m.groomUnit u).touched, h.groomUnit (by simpa using hg) u⟩, hs⟩

/-- A change that leaves memories and groom units. -/
theorem Mod.unitWork.apart {ps : List Part} (h : Mod.sameBut ps m n) (hg : (ps.contains .groom || ps.contains .mem) = false) : Mod.unitWork u m n := by
  simp only [Bool.or_eq_false_iff, List.contains_eq_mem, decide_eq_false_iff_not] at hg
  exact .of h (by simpa using hg.1) (by rw [h.mem hg.2])

theorem Mod.unitWork.foldl {β : Type} {f : Mod → β → Mod} (hf : ∀ x y, Mod.unitWork u x (f x y)) (xs : List β) (x : Mod) :
    Mod.unitWork u x (xs.foldl f x) := by
  induction xs generalizing x with
  | nil => exact .refl _
  | cons y ys ih => exact (hf x y).trans (ih _)

end

/-! ### Writes of state -/

section
variable (m : Mod) (u : Nat)

theorem Mod.stateWrite_sram (a : Nat) (data : List (Byte × Bool)) : (m.stateWrite u a data).mem.sram = m.mem.sram := by
  unfold Mod.stateWrite
  split
  · exact m.devWriteP_sram _ _
  · have h := Mod.foldl_sram m (f := fun (x : Mod) (e : Nat × (Byte × Bool)) => x.devWriteP (x.stateAddr u (a + e.1)) [e.2])
      (fun n b => n.devWriteP_sram _ _) ((List.range data.length).zip data)
    dsimp only
    split
    · exact h
    · exact h

theorem Mod.planePut_work (e : StreamEntry) (g : Binding) (i code : Nat) (bad : Bool) : Mod.unitWork u m (m.planePut u e g i code bad) :=
  .of (m.planePut_sameBut u e g i code bad) rfl (m.stateWrite_sram u _ _)

theorem Mod.openRuns_work (runs : List (Nat × Nat)) : Mod.unitWork u m (m.openRuns runs) :=
  .of (m.openRuns_sameBut runs) rfl (Mod.foldl_sram m (fun n _ => Mod.foldl_sram n (fun n _ => n.unmarkLoc_sram _) _) runs)

theorem Mod.groomFlags_work (f : Fl) : Mod.unitWork u m (m.groomFlags u f) := .apart (m.groomFlags_sameBut u f) rfl

theorem Mod.passPoison_work (was now : Bool) : Mod.unitWork u m (m.passPoison was now) := .apart (m.passPoison_sameBut was now) rfl

theorem Mod.sliceOpen_work (ps : GPass) (g : Binding) (e : SliceEnt) (sl : GSlice) : Mod.unitWork u m (m.sliceOpen ps g e sl) := by
  unfold Mod.sliceOpen
  split
  · exact m.openRuns_work u _
  · exact .refl m

theorem Mod.openRow_work (b : Nat) (g : Binding) (r : Nat) : Mod.unitWork u m (m.openRow u b g r) := by
  unfold Mod.openRow
  dsimp only
  have h : Mod.unitWork u m (m.devWriteP (m.outAt (rowCountAt g r)) ((leBytes 8 ((leNat (rdBytes (m.devRead (rowCountAt g r) 4)) + 1) % 2 ^ 32)).map
      (fun x => (x, rdPoison (m.devRead (rowCountAt g r) 4))))) := .of (m.devWriteP_sameBut _ _) rfl (m.devWriteP_sram _ _)
  refine h.trans ⟨fun d hd => Mod.groomUnit_setGroom_other _ _ _ hd, ⟨_, Mod.groomUnit_setGroom_same _ _ _⟩, rfl⟩

theorem Mod.openAt_work (ps : GPass) (g : Binding) (i j : Nat) : Mod.unitWork u m (m.openAt u ps g i j) := by
  unfold Mod.openAt
  split
  · exact m.openRow_work u _ _ _
  · exact .refl m

theorem Mod.heldElem_work (g : Binding) (env : PassEnv) (i j : Nat) (mp : Bool) (ps : GPass) : Mod.unitWork u m (m.heldElem u g env i j mp ps).1 := by
  unfold Mod.heldElem
  extract_lets t mas mv wc from_ outs bad m1 a0 ps1
  have h : Mod.unitWork u m m1 := .foldl (fun y e => y.planePut_work u _ _ _ _ _) outs m
  split
  · exact h
  · exact h.trans (m1.groomFlags_work u _)

theorem Mod.trainStore_work (g : Binding) (env : PassEnv) (i j : Nat) (v : Nat × Bool) (x : Elem) (bad : Bool) (ps : GPass) :
    Mod.unitWork u m (m.trainStore u g env i j v x bad ps).1 := by
  unfold Mod.trainStore
  extract_lets t outs codes m1
  have h : Mod.unitWork u m m1 := .foldl (fun y e => y.planePut_work u _ _ _ _ _) codes m
  split
  · exact h
  · exact h.trans (m1.groomFlags_work u _)

end

/-! ### What the work leaves of the pass -/

/-- Binding and slices taken of a pass stand. -/
def GPass.goesOn (p q : GPass) : Prop := q.binding = p.binding ∧ q.taken = p.taken

theorem GPass.goesOn.refl (p : GPass) : p.goesOn p := ⟨rfl, rfl⟩

theorem GPass.goesOn.trans {p q r : GPass} (h1 : p.goesOn q) (h2 : q.goesOn r) : p.goesOn r := ⟨h2.1.trans h1.1, h2.2.trans h1.2⟩

section
variable (m : Mod) (u : Nat) (g : Binding) (env : PassEnv) (i j : Nat) (ps : GPass)

theorem Mod.maskLoad_goesOn : ps.goesOn (m.maskLoad u g i ps) := by
  unfold Mod.maskLoad
  dsimp only
  split <;> exact ⟨rfl, rfl⟩

theorem Mod.heldElem_goesOn (mp : Bool) : ps.goesOn (m.heldElem u g env i j mp ps).2 := by
  unfold Mod.heldElem
  extract_lets t mas mv wc from_ outs bad m1 a0 ps1
  split <;> exact ⟨rfl, rfl⟩

theorem Mod.trainStore_goesOn (v : Nat × Bool) (x : Elem) (bad : Bool) : ps.goesOn (m.trainStore u g env i j v x bad ps).2 := by
  unfold Mod.trainStore
  extract_lets t outs codes m1
  split <;> exact ⟨rfl, rfl⟩

/-- One element of a slice. -/
theorem Mod.passElem_spec (v rowstep : Nat × Bool) : Mod.unitWork u m (m.passElem u g env i j v rowstep ps).1
    ∧ ps.goesOn (m.passElem u g env i j v rowstep ps).2 := by
  have hq := m.maskLoad_goesOn u g i ps
  unfold Mod.passElem
  dsimp only
  split
  · exact ⟨m.heldElem_work u _ _ _ _ _ _, hq.trans (m.heldElem_goesOn u _ _ _ _ _ _)⟩
  · exact ⟨m.trainStore_work u _ _ _ _ _ _ _ _, hq.trans (m.trainStore_goesOn u _ _ _ _ _ _ _ _)⟩

/-- The elements of a slice, one after another. -/
theorem Mod.sliceWork_spec (e : SliceEnt) (sl : GSlice) : Mod.unitWork u m (m.sliceWork u ps g e sl env).1 ∧ ps.goesOn (m.sliceWork u ps g e sl env).2 := by
  unfold Mod.sliceWork
  refine List.foldlRecOn (motive := fun st : Mod × GPass => Mod.unitWork u m st.1 ∧ ps.goesOn st.2) _ _ ⟨m.sliceOpen_work u _ _ _ _, .refl ps⟩
    fun st hst k _ => ?_
  dsimp only
  split
  · have h := Mod.passElem_spec (st.1.openRow u ps.binding g (elemIndex g e sl (ps.pos + k) / max g.rowLen 1)) u g env (elemIndex g e sl (ps.pos + k)) (ps.pos + k) st.2
      (sl.vals.getD (ps.pos + k) (0, false)) ((st.1.openRow u ps.binding g (elemIndex g e sl (ps.pos + k) / max g.rowLen 1)).rowStep g (elemIndex g e sl (ps.pos + k)))
    exact ⟨(hst.1.trans (st.1.openRow_work u _ _ _)).trans h.1, hst.2.trans h.2⟩
  · have h := Mod.passElem_spec st.1 u g env (elemIndex g e sl (ps.pos + k)) (ps.pos + k) st.2 (sl.vals.getD (ps.pos + k) (0, false))
      (st.1.rowStep g (elemIndex g e sl (ps.pos + k)))
    exact ⟨hst.1.trans h.1, hst.2.trans h.2⟩

/-- Held elements passed. -/
theorem Mod.passHeld_spec (e : SliceEnt) (sl : GSlice) (n : Nat) : Mod.unitWork u m (Mod.passHeld u g e sl env n m ps).1
    ∧ ps.goesOn (Mod.passHeld u g e sl env n m ps).2 := by
  induction n generalizing m ps with
  | zero => exact ⟨.refl m, .refl ps⟩
  | succ n ih =>
    rw [Mod.passHeld]
    dsimp only
    have hq : ps.goesOn (if ps.pos < sl.vals.length then m.maskLoad u g (elemIndex g e sl ps.pos) ps else ps) := by
      split
      · exact m.maskLoad_goesOn u g _ ps
      · exact .refl ps
    generalize (if ps.pos < sl.vals.length then m.maskLoad u g (elemIndex g e sl ps.pos) ps else ps) = q at hq ⊢
    split
    · have h1 := (m.sliceOpen_work u q g e sl).trans (Mod.openAt_work _ u q g (elemIndex g e sl ps.pos) q.pos)
      generalize (m.sliceOpen q g e sl).openAt u q g (elemIndex g e sl ps.pos) q.pos = m1 at h1 ⊢
      have h2 := m1.heldElem_work u g env (elemIndex g e sl ps.pos) q.pos (q.trained g (elemIndex g e sl ps.pos)).2 q
      have h3 := m1.heldElem_goesOn u g env (elemIndex g e sl ps.pos) q.pos q (q.trained g (elemIndex g e sl ps.pos)).2
      generalize m1.heldElem u g env (elemIndex g e sl ps.pos) q.pos (q.trained g (elemIndex g e sl ps.pos)).2 q = y at h2 h3 ⊢
      obtain ⟨h4, h5⟩ := ih y.1 { y.2 with pos := y.2.pos + 1 }
      exact ⟨(h1.trans h2).trans h4, (hq.trans h3).trans h5⟩
    · exact ⟨.refl m, hq⟩

end

end Sys2Proof.Machine
end

section
/-! PROOF. Element programs on a groom unit (07_groom_units.md R164, R165, R174). -/

namespace Sys2Proof.Machine

section
variable (m : Mod) (u : Nat)

theorem Mod.passPoison_self (b : Bool) : m.passPoison b b = m := by
  cases b <;> rfl

theorem Mod.setPass_onUnit (ps : GPass) (x : Option Elem) : Mod.onUnit u m (m.setPass u ps x) := fun _ hd => Mod.groomUnit_setGroom_other _ _ _ hd

theorem Mod.sliceTaken_onUnit (ps : GPass) (sl : GSlice) : Mod.onUnit u m (m.sliceTaken u ps sl) := fun _ hd => Mod.groomUnit_setGroom_other _ _ _ hd

theorem Mod.heldOrLoaded_onUnit (ps : GPass) (g : Binding) (e : SliceEnt) (sl : GSlice) : Mod.onUnit u m (m.heldOrLoaded u ps g e sl).1 := by
  have h := (m.passHeld_spec u g m.passEnv ps e sl sl.vals.length).1
  unfold Mod.heldOrLoaded
  split
  · exact fun _ _ => rfl
  · dsimp only
    split
    · exact ((h.trans (Mod.sliceOpen_work _ u _ g e sl)).trans (Mod.openAt_work _ u _ g _ _)).others
    · exact h.others

/-- An element left: the unit holds none, and no other unit changes. -/
theorem Mod.afterElem_spec (was : Bool) (ps : GPass) (g : Binding) (e : SliceEnt) (sl : GSlice) :
    ((m.afterElem u was ps g e sl).groomUnit u).elem = none ∧ Mod.onUnit u m (m.afterElem u was ps g e sl) := by
  have h := (m.passHeld_spec u g m.passEnv ps e sl sl.vals.length).1.others
  unfold Mod.afterElem
  generalize Mod.passHeld u g e sl m.passEnv sl.vals.length m ps = y at h ⊢
  have hp := (h.trans (y.1.passPoison_work u was y.2.poisoned).others).trans (Mod.setPass_onUnit _ u y.2 none)
  dsimp only
  split
  · exact ⟨congrArg GroomRun.elem (Mod.groomUnit_setGroom_same _ _ _), hp.trans (Mod.sliceTaken_onUnit _ u _ _)⟩
  · exact ⟨congrArg GroomRun.elem (Mod.groomUnit_setGroom_same _ _ _), hp⟩

end

section
variable {s : State} {u : Nat} {ps : GPass} {g : Binding} {sl : SliceEnt} {v : GSlice}

/-- What an element instruction does on a groom unit: on the element held, and where none is held, on the one it loads. -/
def State.groomDoes (s : State) (u : Nat) (ps : GPass) (g : Binding) (sl : SliceEnt) (v : GSlice) (i : Instr) (e : ElemInstr) : Prop :=
  (∀ x, (s.m.groomUnit u).elem = some x → exec i s = .next { s with m := s.m.setPass u ps (some (x.exec e)) }) ∧
  (∀ (q : GPass) (m1 : Mod) (x : Elem), (s.m.groomUnit u).elem = none → s.m.heldOrLoaded u ps g sl v = (m1, q, some x) →
    ∃ t, exec i s = .next t ∧ (t.m.groomUnit u).elem = some (x.exec e) ∧ (t.m.groomUnit u).pass = some q
      ∧ t.m.mem = m1.mem ∧ t.m.regs = m1.regs ∧ (∀ d, d ≠ u → t.m.groomUnit d = m1.groomUnit d))

theorem Mod.groomElem_eq {m m1 : Mod} {q : GPass} {x : Elem} (e : ElemInstr) (hg : m.groomRuns = true) (hn : m.nextSlice u = some (ps, g, sl, v))
    (h : m.heldOrLoaded u ps g sl v = (m1, q, some x)) : m.groomElem u e = (m1.passPoison ps.poisoned q.poisoned).setPass u q (some (x.exec e)) := by
  unfold Mod.groomElem
  rw [hg, hn]
  dsimp only
  rw [h]

/-- Every command that runs an element instruction does so. -/
theorem State.groomDoes_of {i : Instr} {e : ElemInstr} (hr : s.m.running = true) (hg : s.m.groomRuns = true)
    (hn : s.m.nextSlice u = some (ps, g, sl, v)) (hi : exec i s = .next (s.unit (fun m => m.elemStep (.groom u) e))) : s.groomDoes u ps g sl v i e := by
  refine ⟨fun x hx => ?_, fun q m1 x _ h => ?_⟩
  · have h : s.m.heldOrLoaded u ps g sl v = (s.m, ps, some x) := by
      unfold Mod.heldOrLoaded
      rw [hx]
    exact exec_unit_eq hi hr ((Mod.groomElem_eq e hg hn h).trans (by rw [Mod.passPoison_self]))
  · have hp := m1.passPoison_sameBut ps.poisoned q.poisoned
    refine ⟨_, exec_unit_eq hi hr (Mod.groomElem_eq e hg hn h), congrArg GroomRun.elem (Mod.groomUnit_setGroom_same _ _ _),
      congrArg GroomRun.pass (Mod.groomUnit_setGroom_same _ _ _), hp.mem (by decide), hp.regs (by decide), fun d hd => ?_⟩
    exact (Mod.setPass_onUnit _ u _ _ d hd).trans (hp.groomUnit (by decide) d)

/-- END leaves the element. -/
theorem Mod.groomEnd_spec {m : Mod} (hg : m.groomRuns = true) (hn : m.nextSlice u = some (ps, g, sl, v)) :
    ((m.groomEnd u).groomUnit u).elem = none ∧ Mod.onUnit u m (m.groomEnd u) := by
  have h := m.heldOrLoaded_onUnit u ps g sl v
  unfold Mod.groomEnd
  rw [hg, hn]
  dsimp only
  generalize m.heldOrLoaded u ps g sl v = y at h ⊢
  obtain ⟨m1, q, x⟩ := y
  cases x with
  | none =>
    have ha := m1.afterElem_spec u ps.poisoned q g sl v
    exact ⟨ha.1, h.trans ha.2⟩
  | some x =>
    dsimp only
    have hw := fun bad => m1.trainStore_work u g m1.passEnv (elemIndex g sl v q.pos) q.pos (v.vals.getD q.pos (0, false)) x bad q
    have ha := fun bad => Mod.afterElem_spec (m1.trainStore u g m1.passEnv (elemIndex g sl v q.pos) q.pos (v.vals.getD q.pos (0, false)) x bad q).1 u
      ps.poisoned { (m1.trainStore u g m1.passEnv (elemIndex g sl v q.pos) q.pos (v.vals.getD q.pos (0, false)) x bad q).2 with pos := q.pos + 1 } g sl v
    exact ⟨(ha _).1, (h.trans (hw _).others).trans (ha _).2⟩

end

/-- Settles O27: each instruction runs on the element held or the one the unit loads; END stores it and goes past elements held back. -/
theorem groomElementInstructions : Obligations.GroomElementInstructions := by
  unfold Obligations.GroomElementInstructions
  refine ⟨fun s w u ps g sl v hr hg hn => ?_, fun s w u ps g sl v hr hg hn => ?_⟩
  · have d := fun (i : Instr) (op : ElemOp) => State.groomDoes_of (i := i) (e := instrOf op w) hr hg hn
    exact ⟨d _ .mov rfl, d _ .add rfl, d _ .sub rfl, d _ .mul rfl, d _ .fma rfl, d _ .fms rfl, d _ .div rfl, d _ .recip rfl, d _ .sqrt rfl,
      d _ .rsqrt rfl, d _ .exp2 rfl, d _ .log2 rfl, d _ .tanh rfl, d _ .max rfl, d _ .min rfl, d _ .abs rfl, d _ .neg rfl, d _ .sign rfl,
      d _ .clamp rfl, d _ .cmplt rfl, d _ .cmpeq rfl, d _ .sel rfl, d _ .cvt rfl, d _ .srnd rfl, d _ .nacc rfl⟩
  · have h := Mod.groomEnd_spec hg hn
    refine ⟨{ s with m := s.m.groomEnd u }, exec_unit_eq rfl hr rfl, h.1, h.2, (s.m.groomEnd_sameBut u).cores (by decide)⟩

end Sys2Proof.Machine
end

section
/-! PROOF. What an element instruction leaves (04_number_formats.md R108; 07_groom_units.md R164 to R167). -/

namespace Sys2Proof.Machine

/-! ### Rounding of particular values -/

/-- A zero rounds to a zero of its sign. -/
theorem roundInstr_zero (ftz wide neg : Bool) (e : Int) : (roundInstr ftz wide (.fin neg 0 e)).1 = .fin neg 0 (if wide then -165 else -149) := by
  have h : (roundInstr ftz wide (.fin neg 0 e)).1 = (if wide then Fmt.tail48 else Fmt.fp32).decode ((if wide then Fmt.tail48 else Fmt.fp32).spec.signCode neg) := rfl
  rw [h]
  cases wide <;> cases neg <;> rfl

theorem roundInstr_nan (ftz wide : Bool) : (roundInstr ftz wide .nan).1 = .nan := by
  cases wide <;> cases ftz <;> decide

theorem roundInstr_one (ftz wide : Bool) : (roundInstr ftz wide Val.one).1.eqB Val.one = true := by
  cases wide <;> cases ftz <;> decide

/-! ### Comparisons and choices -/

theorem Val.ltB_of_nan {a b : Val} (h : a.isNan = true ∨ b.isNan = true) : a.ltB b = false := by
  cases a <;> cases b <;> simp_all [Val.isNan, Val.ltB]

theorem Val.eqB_of_nan {a b : Val} (h : a.isNan = true ∨ b.isNan = true) : a.eqB b = false := by
  rcases h with h | h <;> simp [Val.eqB, h]

theorem Val.exists_fin_of_isZero {a : Val} (h : a.isZero = true) : ∃ e, a = .fin a.isNeg 0 e := by
  cases a with
  | nan => cases h
  | inf n => cases h
  | fin n m e =>
    obtain rfl : m = 0 := by simpa [Val.isZero] using h
    exact ⟨e, rfl⟩

theorem Val.isNan_of_isZero {a : Val} (h : a.isZero = true) : a.isNan = false := by
  obtain ⟨e, he⟩ := Val.exists_fin_of_isZero h
  rw [he]
  rfl

theorem Val.eq_nan_of_isNan {a : Val} (h : a.isNan = true) : a = .nan := by
  cases a <;> simp_all [Val.isNan]

/-- Zeros of either sign are equal. -/
theorem Val.eqB_of_isZero {a b : Val} (ha : a.isZero = true) (hb : b.isZero = true) : a.eqB b = true := by
  obtain ⟨e, he⟩ := Val.exists_fin_of_isZero ha
  obtain ⟨f, hf⟩ := Val.exists_fin_of_isZero hb
  rw [he, hf]
  simp [Val.eqB, Val.isNan, Val.ltB, signedAt]

theorem Val.max_of_zeros {a b : Val} (ha : a.isZero = true) (hb : b.isZero = true) : a.max b = .fin (a.isNeg && b.isNeg) 0 0 := by
  simp [Val.max, Val.isNan_of_isZero ha, Val.isNan_of_isZero hb, ha, hb]

theorem Val.min_of_zeros {a b : Val} (ha : a.isZero = true) (hb : b.isZero = true) : a.min b = .fin (a.isNeg || b.isNeg) 0 0 := by
  simp [Val.min, Val.isNan_of_isZero ha, Val.isNan_of_isZero hb, ha, hb]

/-! ### The destination and what stands -/

section
variable (x : Elem) (i : ElemInstr)

/-- `y` is `x` but for one V register and the flags. -/
structure Elem.wrote (dst : Nat) (x y : Elem) : Prop where
  other : ∀ j, j ≠ dst → y.v.getD j Val.zero = x.v.getD j Val.zero
  outs : y.outs = x.outs
  acc : y.acc = x.acc
  ins : y.ins = x.ins

theorem Elem.put_wrote {d : Nat} (hd : d < 16) (v : Val) (f : Fl) : Elem.wrote d x ((x.put d v).flag f) := by
  rw [Elem.put, if_pos hd]
  exact ⟨fun j hj => by simp [Elem.flag, List.getD_eq_getElem?_getD, List.getElem?_set_ne hj.symm], rfl, rfl, rfl⟩

theorem Elem.convert_wrote (hd : i.dst < 16) (r : Rnd) : Elem.wrote i.dst x (x.convert i r) := by
  unfold Elem.convert
  split
  · exact ⟨fun _ _ => rfl, rfl, rfl, rfl⟩
  · exact x.put_wrote hd _ _

/-- An instruction other than END and NACC writes its destination alone. -/
theorem Elem.exec_wrote (hd : i.dst < 16) (hn : i.op ≠ .nacc) (he : i.op ≠ .eEnd) : Elem.wrote i.dst x (x.exec i) := by
  unfold Elem.exec
  dsimp only
  split
  case h_1 h => exact (he h).elim
  case h_24 => exact x.convert_wrote i hd _
  case h_25 => exact x.convert_wrote i hd _
  case h_26 h => exact (hn h).elim
  all_goals exact x.put_wrote hd _ _

/-- What the destination holds after an instruction that rounds `r`. -/
theorem Elem.finish_result (hd : i.dst < 16) (hl : x.v.length = 16) (r : ValInv) (e : Fl) :
    (x.finish i r e).v.getD i.dst Val.zero = (roundInstr i.ftz i.wide r.1).1 := by
  have h : i.dst < x.v.length := hl ▸ hd
  simp [Elem.finish, Elem.flag, Elem.put, hd, List.getD_eq_getElem?_getD, List.getElem?_set_self h]

/-- The result of an instruction whose exact value is `v`. -/
theorem Elem.exec_result (hd : i.dst < 16) (hl : x.v.length = 16) {v : Val} (h : x.exec i = x.finish i (v, false) .none) :
    (x.exec i).v.getD i.dst Val.zero = (roundInstr i.ftz i.wide v).1 := by
  rw [h, x.finish_result i hd hl]

end

theorem Val.zero_fin {v : Val} {neg : Bool} {e : Int} (h : v = .fin neg 0 e) : v.isZero = true ∧ v.isNeg = neg := by
  subst h
  exact ⟨rfl, rfl⟩

/-- Settles O28: the destination takes the rounded value of the operation, which for these operands is a zero, a one or a NaN. -/
theorem elementResults : Obligations.ElementResults := by
  unfold Obligations.ElementResults
  intro x i hd hl hn he a b c y r
  have hw := x.exec_wrote i hd hn he
  have res : ∀ {v : Val}, x.exec i = x.finish i (v, false) .none → r = (roundInstr i.ftz i.wide v).1 := fun h => x.exec_result i hd hl h
  refine ⟨hw.other, hw.outs, hw.acc, hw.ins, fun hop hab => ?_, fun hop ha hb => ?_, fun hop ha hb hs => ?_, fun hop ha hb hs => ?_, fun hop => ?_,
    fun hop ha => ?_, fun hop ha => ?_⟩
  · have hz : r = (roundInstr i.ftz i.wide Val.zero).1 := by
      rcases hop with hop | hop
      · exact (res (v := boolVal (a.ltB b)) (by simp only [Elem.exec, hop]; rfl)).trans (by rw [Val.ltB_of_nan hab]; rfl)
      · exact (res (v := boolVal (a.eqB b)) (by simp only [Elem.exec, hop]; rfl)).trans (by rw [Val.eqB_of_nan hab]; rfl)
    exact Val.zero_fin (hz.trans (roundInstr_zero _ _ _ _))
  · have h : r = (roundInstr i.ftz i.wide Val.one).1 :=
      (res (v := boolVal (a.eqB b)) (by simp only [Elem.exec, hop]; rfl)).trans (by rw [Val.eqB_of_isZero ha hb]; rfl)
    rw [h]
    exact roundInstr_one _ _
  · have h := (res (v := a.max b) (by simp only [Elem.exec, hop]; rfl)).trans (by rw [Val.max_of_zeros ha hb, roundInstr_zero])
    have hsign : (a.isNeg && b.isNeg) = false := by
      revert hs
      cases a.isNeg <;> cases b.isNeg <;> simp
    exact hsign ▸ Val.zero_fin h
  · have h := (res (v := a.min b) (by simp only [Elem.exec, hop]; rfl)).trans (by rw [Val.min_of_zeros ha hb, roundInstr_zero])
    have hsign : (a.isNeg || b.isNeg) = true := by
      revert hs
      cases a.isNeg <;> cases b.isNeg <;> simp
    exact hsign ▸ Val.zero_fin h
  · refine (res (v := if !a.isNan && !a.isZero then b else c) (by simp only [Elem.exec, hop]; rfl)).trans ?_
    cases a.isNan <;> cases a.isZero <;> rfl
  · obtain ⟨e, hfin⟩ := Val.exists_fin_of_isZero ha
    have hsig : a.signum = .fin a.isNeg 0 e := by rw [Val.signum, ha, Bool.or_true, if_pos rfl, ← hfin]
    exact Val.zero_fin ((res (v := a.signum) (by simp only [Elem.exec, hop]; rfl)).trans (by rw [hsig, roundInstr_zero]))
  · have hsig : a.signum = .nan := by rw [Val.signum, ha, Bool.true_or, if_pos rfl, Val.eq_nan_of_isNan ha]
    have h := (res (v := a.signum) (by simp only [Elem.exec, hop]; rfl)).trans (by rw [hsig, roundInstr_nan])
    rw [h]
    rfl

end Sys2Proof.Machine
end

section
/-! PROOF. The passes of a groom unit (07_groom_units.md R174, R176, R184). -/

namespace Sys2Proof.Machine

/-! ### Buffers that only grow -/

/-- Passes and elements of the groom units stand, and what their buffers hold stays. -/
def Mod.groomGrows (m n : Mod) : Prop :=
  ∀ d, (n.groomUnit d).pass = (m.groomUnit d).pass ∧ (n.groomUnit d).elem = (m.groomUnit d).elem
    ∧ ∀ y ∈ (m.groomUnit d).buffer, y ∈ (n.groomUnit d).buffer

section
variable {l m n : Mod}

theorem Mod.groomGrows.refl (m : Mod) : Mod.groomGrows m m := fun _ => ⟨rfl, rfl, fun _ h => h⟩

theorem Mod.groomGrows.trans (h1 : Mod.groomGrows l m) (h2 : Mod.groomGrows m n) : Mod.groomGrows l n := fun d => by
  obtain ⟨hp, he, hb⟩ := h1 d
  obtain ⟨hp', he', hb'⟩ := h2 d
  exact ⟨hp'.trans hp, he'.trans he, fun y hy => hb' y (hb y hy)⟩

theorem Mod.groomGrows.of {ps : List Part} (h : Mod.sameBut ps m n) (hg : ps.contains .groom = false) : Mod.groomGrows m n := fun d => by
  rw [h.groomUnit (by simpa using hg) d]
  exact ⟨rfl, rfl, fun _ h => h⟩

theorem Mod.groomGrows.foldl {β : Type} {f : Mod → β → Mod} (hf : ∀ x y, Mod.groomGrows x (f x y)) (xs : List β) (x : Mod) :
    Mod.groomGrows x (xs.foldl f x) := by
  induction xs generalizing x with
  | nil => exact .refl _
  | cons y ys ih => exact (hf x y).trans (ih _)

end

section
variable (m : Mod) (k : Nat) (o : CollOp)

theorem Mod.toGroom_grows (s : Nat) (c : Contrib) : Mod.groomGrows m (m.toGroom k o s c) := by
  unfold Mod.toGroom
  split
  case h_1 g _ =>
    intro d
    by_cases hd : d = g.unit
    · subst hd
      rw [Mod.groomUnit_setGroom_same]
      exact ⟨rfl, rfl, fun y hy => List.mem_append_left _ hy⟩
    · rw [Mod.groomUnit_setGroom_other _ _ _ hd]
      exact Mod.groomGrows.refl m d
  case h_2 => exact .refl m

theorem Mod.deliverSlice_grows (s : Nat) (ecc : Ecc) : Mod.groomGrows m (m.deliverSlice k o s ecc) := by
  unfold Mod.deliverSlice
  extract_lets x
  split
  · exact .refl m
  case h_2 c _ =>
    extract_lets m1 m2
    split_ifs
    · exact .refl m
    · have h1 : Mod.groomGrows m m1 := by
        change Mod.groomGrows m (if _ then _ else if _ then _ else _)
        split_ifs
        · exact .of (m.dataWrite_sameBut o s c ecc) rfl
        · exact .of (m.ledgerWrite_sameBut k o s c) rfl
        · exact m.toGroom_grows k o s c
      have h2 : Mod.groomGrows m1 m2 := by
        change Mod.groomGrows m1 (if _ then _ else _)
        split_ifs
        · exact .of (m1.fault_sameBut _) rfl
        · exact .refl m1
      exact (h1.trans h2).trans (.of (Mod.setOp_sameBut _ k _) rfl)

theorem Mod.opProgress_grows (ecc : Ecc) : Mod.groomGrows m (m.opProgress k o ecc) := by
  unfold Mod.opProgress
  split
  · exact .foldl (fun x s => .of (x.sumSlice_sameBut k o s) rfl) _ m
  split
  · extract_lets m1 x
    have h : Mod.groomGrows m m1 := .foldl (fun x s => ((Mod.groomGrows.of (x.sumSlice_sameBut k o s) rfl).trans
      (.of (Mod.takeResult_sameBut _ k o s) rfl)).trans (Mod.deliverSlice_grows _ k o s ecc)) _ m
    split
    · exact h.trans (.of (m1.opDone_sameBut k o) rfl)
    · exact h.trans (.of (m1.setOp_sameBut k _) rfl)
  · exact .refl m

/-- Collective operations that go on leave passes and elements, and buffers only grow. -/
theorem Mod.collProgress_grows (ecc : Ecc) : Mod.groomGrows m (m.collProgress ecc) := by
  unfold Mod.collProgress
  split
  · exact (Mod.groomGrows.of m.refuseBad_sameBut rfl).trans (.foldl (fun x (e : Nat × CollOp) => x.opProgress_grows e.1 e.2 ecc) _ _)
  · exact .refl m

end

/-! ### Errors met in device memory -/

section
variable (m : Mod) (belongs : Bool)

theorem Mod.foundUe_sram (k : Nat) : (m.foundUe belongs k).mem.sram = m.mem.sram := by
  unfold Mod.foundUe
  extract_lets st l m1 m2
  split
  · rfl
  · have h1 : m1.mem.sram = m.mem.sram := (congrArg MemUnit.sram ((Mod.fsat_sameBut _ _ _ _ _).mem (by decide))).trans (m.markLoc_sram (.hbm k))
    have h2 : m2.mem = m1.mem := (m1.set64_sameBut _ _ _ _).mem (by decide)
    rw [((m2.raiseDual_sameBut _ _ _ _ _ _ _).mem (by decide)), h2, h1]

theorem Mod.eccDev_sram (ranges : List (Nat × Nat)) (ecc : Ecc) : (m.eccDev belongs ranges ecc).mem.sram = m.mem.sram := by
  unfold Mod.eccDev
  extract_lets hit m1
  have h1 : m1.mem.sram = m.mem.sram := Mod.foldl_sram m (fun n a => by
    split
    · exact congrArg MemUnit.sram ((n.foundCe_sameBut _).mem (by decide))
    · rfl) _
  refine (Mod.foldl_sram m1 (fun n a => ?_) _).trans h1
  split
  · exact n.foundUe_sram _ _
  · rfl

theorem Mod.eccDev_work (u : Nat) (ranges : List (Nat × Nat)) (ecc : Ecc) : Mod.unitWork u m (m.eccDev belongs ranges ecc) :=
  .of (m.eccDev_sameBut belongs ranges ecc) rfl (m.eccDev_sram belongs ranges ecc)

end

/-! ### A slice taken, a pass ended -/

section
variable {m : Mod} {u : Nat} {ps : GPass} {g : Binding} {e : SliceEnt} {sl : GSlice}

theorem Mod.sliceProcess_spec (ecc : Ecc) (hg : m.groomRuns = true) (hn : m.nextSlice u = some (ps, g, e, sl)) :
    ∃ q, ((m.sliceProcess u ecc).groomUnit u).pass = some q ∧ q.binding = ps.binding ∧ q.taken = ps.taken + 1 ∧ q.pos = 0
      ∧ ((m.sliceProcess u ecc).groomUnit u).elem = none
      ∧ (∀ y ∈ (m.groomUnit u).buffer, ¬(y.op = sl.op ∧ y.slice = sl.slice) → y ∈ ((m.sliceProcess u ecc).groomUnit u).buffer)
      ∧ Mod.onUnit u m (m.sliceProcess u ecc) := by
  unfold Mod.sliceProcess
  rw [hg, hn]
  dsimp only
  generalize (List.range sl.vals.length).flatMap (fun j => elemRanges g (elemIndex g e sl j)) ++ mergeReads (m.outRuns g (elemRuns g e sl)) = reads
  have h1 := m.eccDev_work true u reads ecc
  generalize m.eccDev true reads ecc = m1 at h1 ⊢
  have h2 := m1.sliceWork_spec u g m1.passEnv ps e sl
  generalize m1.sliceWork u ps g e sl m1.passEnv = y at h2 ⊢
  have h3 := (h1.trans h2.1).trans (y.1.passPoison_work u ps.poisoned y.2.poisoned)
  generalize y.1.passPoison ps.poisoned y.2.poisoned = m2 at h3 ⊢
  have hown := Mod.groomUnit_setGroom_same m2 u { m2.groomUnit u with
    pass := some { y.2 with taken := y.2.taken + 1, pos := 0 }, elem := none,
    buffer := (m2.groomUnit u).buffer.filter (fun y => !(y.op == sl.op && y.slice == sl.slice)),
    count := (m2.groomUnit u).count + sl.vals.length }
  obtain ⟨t, ht⟩ := h3.own
  refine ⟨{ y.2 with taken := y.2.taken + 1, pos := 0 }, congrArg GroomRun.pass hown, h2.2.1, congrArg (· + 1) h2.2.2, rfl,
    congrArg GroomRun.elem hown, fun z hz hne => ?_, h3.others.trans (m2.sliceTaken_onUnit u _ _)⟩
  refine (congrArg GroomRun.buffer hown).symm ▸ List.mem_filter.mpr ⟨by rw [ht]; exact hz, ?_⟩
  simpa using not_and_or.mp hne

/-- The pass ends with its results. -/
theorem Mod.passEnd_spec (m : Mod) (u : Nat) (ps : GPass) (step : Nat) : ((m.passEnd u ps step).groomUnit u).pass = none
    ∧ ((m.passEnd u ps step).groomUnit u).elem = none
    ∧ ∃ r, kvGet? ((m.passEnd u ps step).groomUnit u).results ps.binding = some r ∧ r.step = step := by
  unfold Mod.passEnd
  extract_lets sums gl m1 x
  rw [Mod.groomUnit_setGroom_same]
  exact ⟨rfl, rfl, _, kvGet?_kvSet_same _ _ _, rfl⟩

theorem Mod.passFinish_spec (m : Mod) (u : Nat) (ps : GPass) (g : Binding) (env : PassEnv) : ((m.passFinish u ps g env).groomUnit u).pass = none
    ∧ ((m.passFinish u ps g env).groomUnit u).elem = none
    ∧ (∃ r, kvGet? ((m.passFinish u ps g env).groomUnit u).results ps.binding = some r ∧ r.step = env.step)
    ∧ (m.passFinish u ps g env).mem.sram = m.mem.sram := by
  unfold Mod.passFinish
  extract_lets runs y m1 x
  have hy : Mod.unitWork u m y.1 ∧ ps.goesOn y.2 := List.foldlRecOn (motive := fun st : Mod × GPass => Mod.unitWork u m st.1 ∧ ps.goesOn st.2) _ _
    ⟨m.openRuns_work u _, .refl ps⟩ fun st hst r _ => ⟨hst.1.trans (st.1.heldElem_work u g env _ _ _ _), hst.2.trans (st.1.heldElem_goesOn u g env _ _ _ _)⟩
  have h1 : Mod.unitWork u m m1 := hy.1.trans (y.1.passPoison_work u _ _)
  obtain ⟨hp, he, hr⟩ := Mod.passEnd_spec (m1.setGroom u { x with count := x.count + (runs.map (·.2)).sum }) u y.2 env.step
  refine ⟨hp, he, hy.2.1 ▸ hr, (congrArg MemUnit.sram ((Mod.passEnd_sameBut _ u y.2 env.step).mem (by decide))).trans h1.sram⟩

theorem Mod.signal_sigs (m : Mod) (b : Nat) : (m.signal b).sched.sigs = m.sched.sigs ++ (if b = 0xFFFF then [] else [b]) := by
  unfold Mod.signal
  split <;> simp

end

theorem Mod.passComplete_eq {m : Mod} {u : Nat} {ps : GPass} {g : Binding} (ecc : Ecc) (hg : m.groomRuns = true)
    (hp : (m.groomUnit u).pass = some ps) (hb : m.binding? ps.binding = some g) (ht : ps.taken = (m.slicesOf ps.binding).length)
    (ha : ps.applies = none) : ∃ n reads, n = (m.eccDev true reads ecc).passFinish u ps g m.passEnv
      ∧ m.passComplete u ecc = Mod.signal { n with step := { n.step with passesDone := setAdd n.step.passesDone ps.binding } } g.signal := by
  refine ⟨_, (runElems (m.passRuns ps.binding g)).flatMap (fun r => elemRanges g r.1) ++ mergeReads (m.outRuns g (m.passRuns ps.binding g)), rfl, ?_⟩
  rw [Mod.passComplete, hg, hp]
  dsimp only
  rw [hb]
  exact if_pos ⟨ht, ha⟩

/-- Settles O30: a pass starts at rest, takes its slices in order while other buffers only grow, and at its end keeps its results. -/
theorem groomPasses : Obligations.GroomPasses := by
  unfold Obligations.GroomPasses
  refine ⟨fun s b g hr hg hb hl hp hd hw hrec => ?_, fun s b g hb h => ?_, fun s u ecc ps g e sl hr hg hn => ?_,
    fun s u ecc ps g hr hg hp hb ht ha => ?_⟩
  · have hs : s.m.passStart b = { s.m.setGroom g.unit { s.m.groomUnit g.unit with pass := some (.start b none), elem := none } with
        step := { s.m.step with passesRun := setAdd s.m.step.passesRun b } } := by
      rw [Mod.passStart, hb]
      exact if_pos (by simp [hg, hl, hp, hd, hw, hrec])
    have hown := Mod.groomUnit_setGroom_same s.m g.unit { s.m.groomUnit g.unit with pass := some (.start b none), elem := none }
    refine ⟨{ s with m := s.m.passStart b }, .start b none, exec_unit_eq rfl hr rfl, ?_, rfl, rfl, rfl, rfl, ?_, fun d hd => ?_, ?_⟩
    · rw [hs]
      exact congrArg GroomRun.pass hown
    · rw [hs]
      exact mem_setAdd_same _ _
    · rw [hs]
      exact Mod.groomUnit_setGroom_other s.m g.unit _ hd
    · exact ⟨rfl, rfl, Mod.sameBut_mono (s.m.passStart_sameBut b) (by decide)⟩
  · refine exec_unit_self rfl fun _ => ?_
    simp only [Mod.passStart, hb]
    refine if_neg ?_
    rcases h with h | h | h
    · simp [Option.isNone_eq_false_iff.mpr h]
    · simp [h]
    · simp [h]
  · obtain ⟨q, hp, hb, ht, hpos, he, hbuf, hd⟩ := Mod.sliceProcess_spec ecc hg hn
    have hgrow := (s.m.sliceProcess u ecc).collProgress_grows noEcc
    refine ⟨{ s with m := (s.m.sliceProcess u ecc).collProgress noEcc }, q, exec_unit_eq rfl hr rfl, (hgrow u).1.trans hp, hb, ht, hpos,
      (hgrow u).2.1.trans he, fun y hy hne => (hgrow u).2.2 y (hbuf y hy hne), fun d hdu => ?_⟩
    have h := hgrow d
    rw [hd d hdu] at h
    exact h
  · obtain ⟨n, reads, hn, hm⟩ := Mod.passComplete_eq ecc hg hp hb ht ha
    obtain ⟨hpass, helem, ⟨r, hres, hstep⟩, hsram⟩ := Mod.passFinish_spec (s.m.eccDev true reads ecc) u ps g s.m.passEnv
    rw [← hn] at hpass helem hres hsram
    have hsched : n.sched = s.m.sched := by
      rw [hn]
      exact ((Mod.passFinish_sameBut _ u ps g _).sched (by decide)).trans ((s.m.eccDev_sameBut true reads ecc).sched (by decide))
    have hsig := Mod.signal_sameBut { n with step := { n.step with passesDone := setAdd n.step.passesDone ps.binding } } g.signal
    have hunit := hsig.groomUnit (by decide) u
    refine ⟨{ s with m := s.m.passComplete u ecc }, r, exec_unit_eq rfl hr rfl, ?_⟩
    dsimp only
    rw [hm, hunit, hsig.step (by decide), hsig.mem (by decide), Mod.signal_sigs]
    exact ⟨hpass, helem, hres, hstep, mem_setAdd_same _ _, by rw [hsched], hsram.trans (s.m.eccDev_sram true reads ecc)⟩

end Sys2Proof.Machine
end

section
/-! PROOF. When a step starts, and barrier signals (02_plate_and_tick.md R69, R70, R73; 07_groom_units.md R179, R182). -/

namespace Sys2Proof.Machine

/-! ### The step goes on -/

/-- Of the step's state at most the cause of FAULT changes. -/
def Mod.causeOnly (m n : Mod) : Prop := ∃ c, n.step = { m.step with cause := c }

section
variable {l m n : Mod}

theorem Mod.causeOnly.refl (m : Mod) : Mod.causeOnly m m := ⟨_, rfl⟩

theorem Mod.causeOnly.trans (h1 : Mod.causeOnly l m) (h2 : Mod.causeOnly m n) : Mod.causeOnly l n := by
  obtain ⟨c, hc⟩ := h1
  obtain ⟨d, hd⟩ := h2
  exact ⟨d, by rw [hd, hc]⟩

theorem Mod.causeOnly.of {ps : List Part} (h : Mod.sameBut ps m n) (hs : ps.contains .step = false) : Mod.causeOnly m n :=
  ⟨m.step.cause, h.step (by simpa using hs)⟩

theorem Mod.causeOnly.foldl {β : Type} {f : Mod → β → Mod} (hf : ∀ x y, Mod.causeOnly x (f x y)) (xs : List β) (x : Mod) :
    Mod.causeOnly x (xs.foldl f x) := by
  induction xs generalizing x with
  | nil => exact .refl _
  | cons y ys ih => exact (hf x y).trans (ih _)

end

section
variable (m : Mod)

theorem Mod.fault_causeOnly (code : Nat) : Mod.causeOnly m (m.fault code) := ⟨_, rfl⟩

theorem Mod.raiseDual_causeOnly (b : Bool) (k : EvClass) (code source d0 d1 d2 : Nat) : Mod.causeOnly m (m.raiseDual b k code source d0 d1 d2) := by
  unfold Mod.raiseDual
  split
  · exact (m.raise .step code source d0 d1 d2).fault_causeOnly code
  · exact .refl m

theorem Mod.slip_causeOnly (st : StableRec) (x : StableRun) (f : FrameNow) (fails : Nat) (thr : Bool) : Mod.causeOnly m (m.slip st x f fails thr) := by
  unfold Mod.slip
  extract_lets id consec m1 m2 m3 stream code d2 ix wait due m4
  have h1 : Mod.causeOnly m m1 := .of (Mod.sameBut_trans (m.fset_sameBut _ _ _ _) (Mod.fsat_sameBut _ _ _ _ _)) rfl
  have h2 : Mod.causeOnly m1 m2 := by
    change Mod.causeOnly m1 (if _ then _ else _)
    split
    · exact .of (m1.fsat_sameBut _ _ _ _) rfl
    · exact .refl m1
  have h3 : Mod.causeOnly m2 m3 := .of (m2.trace_sameBut _ _ _) rfl
  have h := (h1.trans h2).trans h3
  split_ifs
  · exact h
  · exact h
  · exact h.trans ((Mod.causeOnly.refl _).trans (Mod.fault_causeOnly _ _))

/-- Frames that start, slip or pass their gates leave the step's state but for the cause of FAULT. -/
theorem Mod.frameBoundary_causeOnly : Mod.causeOnly m m.frameBoundary := by
  unfold Mod.frameBoundary
  extract_lets ss thr m1 vs m2
  have h1 : Mod.causeOnly m m1 := .foldl (fun x s => .of (x.passGates_sameBut s.frames s.id 65536) rfl) ss m
  have h2 : Mod.causeOnly m1 m2 := .foldl (fun x v => by
    split
    · exact x.slip_causeOnly _ _ _ _ _
    · exact .refl x) vs m1
  split_ifs
  · exact .refl m
  · exact .of m.endStables_sameBut rfl
  · exact .refl m
  · exact h1.trans h2
  · exact (h1.trans h2).trans (.foldl (fun x v => by
      split
      · exact .of (x.frameStart_sameBut _ _ _) rfl
      · exact .refl x) vs m2)

theorem Mod.fencedRaise_causeOnly : Mod.causeOnly m m.fencedRaise := .foldl (fun x _ => x.raiseDual_causeOnly _ _ _ _ _ _ _) _ m

end

/-! ### The start of a step -/

section
variable (m : Mod) (num : Nat) (sz : Option Nat)

theorem Mod.takeConsts_hist : m.takeConsts.step.hist = m.step.hist := by
  unfold Mod.takeConsts
  rw [(Mod.fset_sameBut _ _ _ _ _).step (by decide)]

/-- The step that begins: its state, then what its units and stables start with. -/
theorem Mod.stepBegin_eq : ∃ (m4 : Mod) (h : StepHist), m.stepBegin num sz = m4.unitsStart.stablesStart.fencedRaise
    ∧ m4.step.phase = .run ∧ m4.step.attempt = 0 ∧ m4.step.start = m.tick.count ∧ m4.step.armed = none ∧ m4.step.verdict = none
    ∧ m4.step.hist = (h :: m.step.hist).take 5 ∧ h.step = num ∧ h.size = sz.getD (m.fget Fld.GRM_STEPSZ_SZ) ∧ h.committed = false
    ∧ m4.pwr.state = .active := by
  unfold Mod.stepBegin
  extract_lets size hdr bc1 bc2 m1 m2 m3 u _ _ m4
  have h1 : Mod.sameBut [.regs] m m1 := Mod.sameBut_trans (m.shiftHist_sameBut _ _) (Mod.shiftHist_sameBut _ _ _)
  have h2 : Mod.sameBut [.regs] m1 m2 := Mod.sameBut_trans (Mod.sameBut_trans (m1.fset_sameBut _ _ _ _) (Mod.fset_sameBut _ _ _ _ _)) (Mod.fset_sameBut _ _ _ _ _)
  have h3 : Mod.sameBut [.regs] m2 (((m2.fset Fld.GRM_BC1_BC bc1.code).fset Fld.GRM_BC2_BC bc2.code).scalarFlags (bc1.fl.join bc2.fl)) :=
    Mod.sameBut_trans (Mod.sameBut_trans (m2.fset_sameBut _ _ _ _) (Mod.fset_sameBut _ _ _ _ _)) (Mod.scalarFlags_sameBut _ _)
  have hu : u.hist = m.step.hist :=
    (Mod.takeConsts_hist _).trans (congrArg StepUnit.hist ((Mod.sameBut_trans (Mod.sameBut_trans h1 h2) h3).step (by decide)))
  exact ⟨m4, ⟨num, size, bc1.code, bc2.code, m.clipPred, false, 0⟩, rfl, rfl, rfl, rfl, rfl, rfl, by rw [← hu], rfl, rfl, rfl, rfl⟩

/-- Every port may report a wait for credit again. -/
theorem Mod.unitsStart_ports : ∀ e ∈ m.unitsStart.fab.ports, e.2.creditRaised = false := by
  unfold Mod.unitsStart
  extract_lets groom m1 fab _
  rw [(Mod.sameBut_trans (Mod.sameBut_mono (Mod.collStart_sameBut _) (by decide)) (Mod.sameBut_mono (qs := [.coll, .stm])
    (Mod.stmStepStart_sameBut _) (by decide))).fab (by decide)]
  intro e he
  obtain ⟨x, -, rfl⟩ := List.mem_map.mp he
  rfl

/-- A step that starts. -/
theorem Mod.stepStarted_spec (n : Mod) (hn : n = (m.stepBegin num sz).frameBoundary) : ∃ h, n.step.phase = .run ∧ n.step.attempt = 0
    ∧ n.step.start = m.tick.count ∧ n.step.armed = none ∧ n.step.verdict = none ∧ n.step.hist = (h :: m.step.hist).take 5 ∧ h.step = num
    ∧ h.size = sz.getD (m.fget Fld.GRM_STEPSZ_SZ) ∧ h.committed = false ∧ n.plt = m.plt ∧ n.mem = m.mem
    ∧ n.pwr.state = .active ∧ ∀ e ∈ n.fab.ports, e.2.creditRaised = false := by
  have hb := m.stepBegin_sameBut num sz
  have hf := (m.stepBegin num sz).frameBoundary_sameBut
  obtain ⟨m4, h, he, hphase, hattempt, hstart, harmed, hverdict, hhist, hnum, hsize, hcommitted, hpwr⟩ := m.stepBegin_eq num sz
  have hu := m4.unitsStart_sameBut
  have hs := m4.unitsStart.stablesStart_sameBut
  have hr := m4.unitsStart.stablesStart.fencedRaise_sameBut
  obtain ⟨c, hc⟩ : Mod.causeOnly m4 (m.stepBegin num sz).frameBoundary := by
    refine .trans ?_ (Mod.frameBoundary_causeOnly _)
    rw [he]
    exact ((Mod.causeOnly.of hu rfl).trans (.of hs rfl)).trans (Mod.fencedRaise_causeOnly _)
  subst hn
  refine ⟨h, ?_, ?_, ?_, ?_, ?_, ?_, hnum, hsize, hcommitted, (hf.plt (by decide)).trans (hb.plt (by decide)),
    (hf.mem (by decide)).trans (hb.mem (by decide)), ?_, ?_⟩
  · rw [hc]
    exact hphase
  · rw [hc]
    exact hattempt
  · rw [hc]
    exact hstart
  · rw [hc]
    exact harmed
  · rw [hc]
    exact hverdict
  · rw [hc]
    exact hhist
  · rw [hf.pwr (by decide), he, hr.pwr (by decide), hs.pwr (by decide), hu.pwr (by decide), hpwr]
  · rw [hf.fab (by decide), he, hr.fab (by decide), hs.fab (by decide)]
    exact m4.unitsStart_ports

theorem Mod.stepRefused_spec (reason : Nat) : (m.stepRefused num reason).step = { m.step with armed := none, armTick := none }
    ∧ (m.stepRefused num reason).fget Fld.GRM_STEP_STATUS_STALE = 1
    ∧ (m.stepRefused num reason).reports .contained 0x0704 0 num (m.fget Fld.GRM_STEP_STEP) reason
    ∧ m.regsKeep [Reg.GRM_STEP_STATUS.base] (m.stepRefused num reason) ∧ Mod.sameBut [.regs, .evIn, .host, .step] m (m.stepRefused num reason) := by
  unfold Mod.stepRefused
  extract_lets _ m1
  have hmsix := Mod.msix_sameBut ((m1.fset Fld.GRM_STEP_STATUS_STALE 1).raise .contained 0x0704 0 num (m.fget Fld.GRM_STEP_STEP) reason) 7
  have hraise := Mod.raise_sameBut (m1.fset Fld.GRM_STEP_STATUS_STALE 1) .contained 0x0704 0 num (m.fget Fld.GRM_STEP_STEP) reason
  have hregs := (hmsix.regs (by decide)).trans (hraise.regs (by decide))
  refine ⟨?_, ?_, ?_, ?_, ?_⟩
  · rw [hmsix.step (by decide), hraise.step (by decide), (m1.fset_sameBut Fld.GRM_STEP_STATUS_STALE 1 0 0).step (by decide)]
  · rw [Mod.fget, hregs]
    exact Mod.fget_fset_same m1 Fld.GRM_STEP_STATUS_STALE 1 0 0 (by decide)
  · exact Mod.reports_of_eq (hmsix.evIn (by decide)) (hmsix.tick (by decide)) (Mod.raise_reports _ _ _ _ _ _ _)
  · exact Mod.regsKeep_trans (m1.fset_regsKeep Fld.GRM_STEP_STATUS_STALE 1 0 0) (Mod.regsKeep_of_regs_eq hregs _)
  · refine Mod.sameBut_trans (Mod.sameBut_trans (Mod.sameBut_trans (m := m1) ?_ (Mod.sameBut_mono (m1.fset_sameBut _ _ _ _) (by decide)))
      (Mod.sameBut_mono hraise (by decide))) (Mod.sameBut_mono hmsix (by decide))
    exact Mod.sameBut_mono (Mod.sameBut_stepUnit m _) (by decide)

end

/-- Settles O31: the armed pair is judged, and starts the step or is refused with its reason. -/
theorem stepStarts : Obligations.StepStarts := by
  unfold Obligations.StepStarts
  intro s num sz hr harmed next refused
  refine ⟨fun hb hp hbusy htick hch hpark hno => ?_, fun h => ?_⟩
  · have hj : s.m.stepJudged = true := by simp [Mod.stepJudged, hb, hp, hbusy, harmed, htick, hch, hpark, hno]
    have hrefused : ∀ r, s.m.stepStale num sz = some r → refused r := fun r h => by
      obtain ⟨h1, h2, h3, h4, h5⟩ := s.m.stepRefused_spec num r
      refine ⟨{ s with m := s.m.stepRefused num r }, exec_unit_eq rfl hr ?_, h1, h2, h3, h4, rfl, rfl, h5⟩
      simp only [harmed, hj, h, if_true]
    refine ⟨fun hn hs => ?_, fun hn => hrefused 0 (if_pos hn), fun hn hsz hre => hrefused 1 ?_⟩
    · have hstale : s.m.stepStale num sz = none := by
        rw [Mod.stepStale, if_neg (not_not.mpr hn), if_neg]
        rcases hs with hs | ⟨h1, h2⟩
        · simp [hs]
        · simp [h1, h2]
      obtain ⟨h, hspec⟩ := s.m.stepStarted_spec num sz _ rfl
      refine ⟨{ s with m := (s.m.stepBegin num sz).frameBoundary }, h, exec_unit_eq rfl hr ?_, hspec⟩
      simp only [harmed, hj, hstale, if_true]
    · rw [Mod.stepStale, if_neg (not_not.mpr hn), if_pos]
      simpa [hsz] using not_and_or.mp hre
  · refine exec_unit_self rfl fun _ => ?_
    have hj : s.m.stepJudged = false := by
      rcases h with h | h | h <;> simp [Mod.stepJudged, h]
    simp only [harmed, hj, Bool.false_eq_true, if_false]

/-! ### Barrier signals -/

section
variable {l m n : Mod}

/-- Of the schedule at most the signals in flight change. -/
def Mod.sigsOnly (m n : Mod) : Prop := ∃ l, n.sched = { m.sched with sigs := l }

theorem Mod.sigsOnly.refl (m : Mod) : Mod.sigsOnly m m := ⟨_, rfl⟩

theorem Mod.sigsOnly.trans (h1 : Mod.sigsOnly l m) (h2 : Mod.sigsOnly m n) : Mod.sigsOnly l n := by
  obtain ⟨c, hc⟩ := h1
  obtain ⟨d, hd⟩ := h2
  exact ⟨d, by rw [hd, hc]⟩

theorem Mod.sigsOnly.of {ps : List Part} (h : Mod.sameBut ps m n) (hs : ps.contains .sched = false) : Mod.sigsOnly m n :=
  ⟨m.sched.sigs, h.sched (by simpa using hs)⟩

theorem Mod.sigsOnly.foldl {β : Type} {f : Mod → β → Mod} (hf : ∀ x y, Mod.sigsOnly x (f x y)) (xs : List β) (x : Mod) :
    Mod.sigsOnly x (xs.foldl f x) := by
  induction xs generalizing x with
  | nil => exact .refl _
  | cons y ys ih => exact (hf x y).trans (ih _)

theorem Mod.signal_sigsOnly (m : Mod) (b : Nat) : Mod.sigsOnly m (m.signal b) := by
  unfold Mod.signal
  split
  · exact .refl m
  · exact ⟨_, rfl⟩

/-- A barrier that completes leaves the schedule but for the signals it gives. -/
theorem Mod.barrierComplete_sigsOnly (m : Mod) (b : Nat) : Mod.sigsOnly m (m.barrierComplete b) := by
  unfold Mod.barrierComplete
  extract_lets m1
  have h1 : Mod.sigsOnly m m1 := .foldl (fun x (e : Nat × Win) => .of (x.emptyWin_sameBut e.1) rfl) _ m
  refine h1.trans (.foldl (fun x r => ?_) _ m1)
  extract_lets mb k y
  have hy : Mod.sigsOnly x y := by
    change Mod.sigsOnly x (if _ then _ else _)
    split
    · exact .of (x.padRelease_sameBut k) rfl
    · exact .refl x
  split
  · extract_lets c z late w
    have hz : Mod.sigsOnly y z := .of (y.setCtx_sameBut _ _) rfl
    have hw : Mod.sigsOnly z w := (Mod.sigsOnly.of (z.setWin_sameBut _ _) rfl).trans (.of (Mod.tileLate_sameBut _ _ _ _) rfl)
    split
    · exact ((hy.trans hz).trans hw).trans (w.signal_sigsOnly _)
    · exact (hy.trans hz).trans hw
  · exact hy.trans (.of (y.setWin_sameBut _ _) rfl)

end

theorem takeSignal_of_mem {b : Nat} {xs : List Nat} (h : b ∈ xs) : takeSignal b xs = some (xs.erase b) := by
  induction xs with
  | nil => cases h
  | cons x xs ih =>
    by_cases hx : x = b
    · simp [takeSignal, hx]
    · have hb : b ∈ xs := (List.mem_cons.mp h).resolve_left (Ne.symm hx)
      simp [takeSignal, hx, ih hb, List.erase_cons_tail]

section
variable {m : Mod} {b n : Nat}

theorem Mod.barrierDone_iff (h : m.barrierExpect b = some n) : m.barrierDone b = decide (n ≤ kvGetD m.sched.barriers b 0) := by
  rw [Mod.barrierDone, h]

theorem Mod.barrierHit_overrun (h : m.barrierExpect b = some n) (hc : n ≤ kvGetD m.sched.barriers b 0) :
    m.barrierHit b = m.raiseStep 0x0204 b n (m.fget Fld.GRM_STEP_STEP) := by
  rw [Mod.barrierHit, h]
  exact if_pos (by rw [Mod.barrierDone_iff h]; exact decide_eq_true hc)

theorem Mod.barrierHit_counts (h : m.barrierExpect b = some n) (hc : kvGetD m.sched.barriers b 0 < n) : m.barrierHit b =
    if kvGetD m.sched.barriers b 0 + 1 = n then
      Mod.barrierComplete { m with sched := { m.sched with barriers := kvSet m.sched.barriers b (kvGetD m.sched.barriers b 0 + 1) } } b
    else { m with sched := { m.sched with barriers := kvSet m.sched.barriers b (kvGetD m.sched.barriers b 0 + 1) } } := by
  rw [Mod.barrierHit, h]
  exact if_neg (by rw [Mod.barrierDone_iff h]; simpa using hc)

end

/-- A signal taken reaches its barrier. -/
theorem execBarrierSignal_eq {s : State} {b : Nat} {n : Mod} (hr : s.m.running = true) (hb : b ∈ s.m.sched.sigs)
    (h : Mod.barrierHit { s.m with sched := { s.m.sched with sigs := s.m.sched.sigs.erase b } } b = n) :
    exec (.barrierSignal b) s = .next { s with m := n } :=
  exec_unit_eq rfl hr (by rw [takeSignal_of_mem hb]; exact h)

/-- Settles O32: what a signal does follows from the count of its barrier, and a late step is reported with its open stables. -/
theorem signalsAndTimeout : Obligations.SignalsAndTimeout := by
  unfold Obligations.SignalsAndTimeout
  refine ⟨fun s b hr hb => ?_, fun s p hr hb hf hp hlim hlate hc => ?_⟩
  · intro sigs count
    obtain ⟨m1, hm1⟩ : ∃ m1 : Mod, m1 = { s.m with sched := { s.m.sched with sigs := sigs } } := ⟨_, rfl⟩
    have hexec : ∀ {n : Mod}, m1.barrierHit b = n → exec (.barrierSignal b) s = .next { s with m := n } :=
      fun h => execBarrierSignal_eq hr hb (hm1 ▸ h)
    have hexpect : m1.barrierExpect b = s.m.barrierExpect b := by rw [hm1]; rfl
    have hcount : kvGetD m1.sched.barriers b 0 = count := by rw [hm1]
    refine ⟨fun n hn hlt => hexec ?_, fun n hn heq => ?_, fun n hn hle => ?_, fun hn => hexec ?_⟩
    · rw [Mod.barrierHit_counts (hexpect.trans hn) (by omega), hcount, if_neg (by omega), hm1]
    · have hhit := Mod.barrierHit_counts (hexpect.trans hn) (by omega)
      rw [hcount, if_pos heq] at hhit
      refine ⟨{ s with m := m1.barrierHit b }, hexec rfl, ?_⟩
      obtain ⟨l, hl⟩ := Mod.barrierComplete_sigsOnly { m1 with sched := { m1.sched with barriers := kvSet m1.sched.barriers b (count + 1) } } b
      have hsame := Mod.barrierComplete_sameBut { m1 with sched := { m1.sched with barriers := kvSet m1.sched.barriers b (count + 1) } } b
      rw [← hhit] at hl hsame
      have hk : kvGetD (m1.barrierHit b).sched.barriers b 0 = n := by
        rw [hl]
        exact (kvGetD_kvSet_same _ _ _ _).trans heq
      have he : (m1.barrierHit b).barrierExpect b = some n := by
        rw [Mod.barrierExpect, Mod.plate?, hsame.plt (by decide)]
        exact hexpect.trans hn
      refine ⟨?_, hk, ?_⟩
      · rw [Mod.barrierDone_iff he, hk]
        exact decide_eq_true (Nat.le_refl n)
      · rw [hl, hm1]
    · have hhit := Mod.barrierHit_overrun (hexpect.trans hn) (by omega)
      have hstep : m1.fget Fld.GRM_STEP_STEP = s.m.fget Fld.GRM_STEP_STEP := by rw [hm1]; rfl
      have hraise := m1.raiseStep_sameBut 0x0204 b n (m1.fget Fld.GRM_STEP_STEP)
      refine ⟨{ s with m := m1.barrierHit b }, hexec rfl, ?_, ?_, ⟨rfl, rfl, ?_⟩⟩
      · rw [hhit, hraise.sched (by decide), hm1]
      · rw [hhit, hstep]
        exact Mod.raiseDual_reportsCause m1 (by rw [hm1]; rfl) _ _ _ _ _ _
      · rw [hhit]
        exact Mod.sameBut_trans (hm1 ▸ Mod.sameBut_mono (Mod.sameBut_sched s.m _) (by decide)) (Mod.sameBut_mono hraise (by decide))
    · rw [Mod.barrierHit, hexpect, hn, hm1]
  · intro late
    have hmax : (s.m.plate?.map (·.cfg.maxStepTicks)).getD 0 = p.cfg.maxStepTicks := by rw [hp]; rfl
    refine ⟨fun hl => ?_, fun hl => ?_⟩
    · have hpos : 0 < late.length := List.length_pos_of_ne_nil hl
      refine ⟨{ s with m := s.m.raiseStep 0x0701 0 (s.m.fget Fld.GRM_STEP_STEP) p.cfg.maxStepTicks late.length }, exec_unit_eq rfl hr ?_,
        ⟨rfl, rfl, s.m.raiseStep_sameBut _ _ _ _ _⟩, Mod.raiseDual_reportsCause s.m rfl _ _ _ _ _ _⟩
      dsimp only
      rw [hmax]
      exact if_pos (by simp [hb, hf, hlim, hlate, hc, late, hpos])
    · refine exec_unit_self rfl fun _ => if_neg ?_
      have hlen : late.length = 0 := by rw [hl]; rfl
      simp only [late] at hlen
      simp [hlen]

end Sys2Proof.Machine
end

section
/-! PROOF. Sending records, receiving verdicts, and the verdict timeout (08_step_commit.md R188, R193 to R195, R197). -/

namespace Sys2Proof.Machine

/-! ### Flits sent change no register but FAB_UNREACH -/

section
variable (m : Mod)

theorem Mod.fsat_regsKeep (f : Fld) (n i j : Nat) : m.regsKeep [f.reg.addr i j] (m.fsat f n i j) := m.fset_regsKeep f _ i j

theorem Mod.regsKeep_sameBut {ps : List Part} {n : Mod} (h : Mod.sameBut ps m n) (hp : ps.contains .regs = false) (offs : List Nat) :
    m.regsKeep offs n := Mod.regsKeep_of_regs_eq (h.regs (by simpa using hp)) offs

theorem Mod.regsKeep_to {offs : List Nat} {n k : Mod} (h : m.regsKeep offs n) (e : k.regs = n.regs) : m.regsKeep offs k :=
  Mod.regsKeep_trans h (Mod.regsKeep_of_regs_eq e offs)

theorem Mod.place_regsKeep (ingress : Option Nat) (f : TFlit) : m.regsKeep [Reg.FAB_UNREACH.base] (m.place ingress f) := by
  unfold Mod.place
  split
  · exact m.regsKeep_sameBut (m.enqueue_sameBut _ _) rfl _
  · extract_lets m1
    have h : m.regsKeep [Reg.FAB_UNREACH.base] m1 := m.fsat_regsKeep Fld.FAB_UNREACH_COUNT 1 0 0
    split
    · exact h
    · exact m.regsKeep_to h ((Mod.raise_sameBut _ _ _ _ _ _ _).regs (by decide))

theorem Mod.launch_regsKeep (f : TFlit) : m.regsKeep [Reg.FAB_UNREACH.base] (m.launch f) := by
  unfold Mod.launch
  split
  · unfold Mod.placeColl
    extract_lets ps p
    split
    · exact m.place_regsKeep _ _
    · exact m.regsKeep_sameBut (m.enqueue_sameBut _ _) rfl _
  · exact m.place_regsKeep _ _

theorem Mod.originate_regsKeep (f : TFlit) : m.regsKeep [Reg.FAB_UNREACH.base] (m.originate f) := by
  unfold Mod.originate
  extract_lets k w g full w1 _ m1
  split
  · exact Mod.regsKeep_of_regs_eq rfl _
  · exact Mod.regsKeep_trans (m := m1) (Mod.regsKeep_of_regs_eq rfl _) (m1.launch_regsKeep g)

theorem Mod.sendAck_regsKeep (src cls : Nat) : m.regsKeep [Reg.FAB_UNREACH.base] (m.sendAck src cls) := by
  unfold Mod.sendAck
  extract_lets k r f
  exact Mod.regsKeep_trans (m.regsKeep_sameBut (m.sameBut_fab { m.fab with rx := kvSet m.fab.rx k { r with since := 0, due := false } }) rfl _)
    (Mod.place_regsKeep _ _ _)

theorem Mod.applied_regsKeep (f : TFlit) : m.regsKeep [Reg.FAB_UNREACH.base] (m.applied f) := by
  unfold Mod.applied
  split
  · exact Mod.regsKeep_of_regs_eq rfl _
  · extract_lets k r
    generalize advance (r.above.length + 1) (setAdd r.above (r.cum + r.ahead f.seq)) r.cum = y
    obtain ⟨c, a⟩ := y
    dsimp only
    split
    · exact Mod.regsKeep_trans (m.regsKeep_sameBut (m.sameBut_fab _) rfl _) (Mod.sendAck_regsKeep _ _ _)
    · exact Mod.regsKeep_of_regs_eq rfl _

/-- A flit taken from those that wait changes the fabric's state, FAB_UNREACH and records alone. -/
theorem Mod.takeFlit_spec {p : TFlit → Bool} {f : TFlit} {n : Mod} (h : m.takeFlit p = some (f, n)) :
    Mod.sameBut [.regs, .evIn, .fab] m n ∧ m.regsKeep [Reg.FAB_UNREACH.base] n := by
  unfold Mod.takeFlit at h
  split at h
  · rename_i x rest _
    simp only [Option.some.injEq, Prod.mk.injEq] at h
    obtain ⟨rfl, rfl⟩ := h
    have h1 := Mod.freeEntry_sameBut { m with fab := { m.fab with inbox := rest } } x.1 x.2
    have hf : Mod.sameBut [.fab] m (Mod.freeEntry { m with fab := { m.fab with inbox := rest } } x.1 x.2) := Mod.sameBut_trans (Mod.sameBut_fab m _) h1
    exact ⟨Mod.sameBut_trans (Mod.sameBut_mono hf (by decide)) (Mod.applied_sameBut _ _),
      Mod.regsKeep_trans (m.regsKeep_sameBut hf rfl _) (Mod.applied_regsKeep _ _)⟩
  · cases h

end

/-! ### Verdicts and records -/

section
variable {m n : Mod}

theorem snd_ite_congr {α β : Type} {p : Prop} [Decidable p] {a b c d : α × β} (h1 : a.2 = c.2) (h2 : b.2 = d.2) :
    (if p then a else b).2 = (if p then c else d).2 := by
  split
  · exact h1
  · exact h2

/-- What a verdict formed depends on. -/
theorem Mod.formVerdict_snd_congr (hself : n.self = m.self) (hp : n.plate? = m.plate?) (hc : n.clipPred = m.clipPred) (hs : n.step.firstSumsq = m.step.firstSumsq)
    (ht : n.tick = m.tick) (hf : n.fresh = m.fresh) (r : RedRec) : (n.formVerdict r).2 = (m.formVerdict r).2 := by
  have hfault : ∀ {x y : Mod}, x.fresh = y.fresh → x.tick = y.tick → ∀ q, (x.faultVerdict q).2 = (y.faultVerdict q).2 := fun h1 h2 q => by
    simp only [Mod.faultVerdict, h1, h2]
  have hmis : ∀ bits count, (n.stepMismatch bits count).fresh = (m.stepMismatch bits count).fresh ∧ (n.stepMismatch bits count).tick = (m.stepMismatch bits count).tick :=
    fun bits count => by
      have h1 := n.stepMismatch_sameBut bits count
      have h2 := m.stepMismatch_sameBut bits count
      exact ⟨by rw [h1.fresh (by decide), h2.fresh (by decide), hf], by rw [h1.tick (by decide), h2.tick (by decide), ht]⟩
  have hrep : ∀ d1 d2, (n.raiseStep 0x0709 0 r.step d1 d2).fresh = (m.raiseStep 0x0709 0 r.step d1 d2).fresh
      ∧ (n.raiseStep 0x0709 0 r.step d1 d2).tick = (m.raiseStep 0x0709 0 r.step d1 d2).tick := fun d1 d2 => by
    have h1 := n.raiseStep_sameBut 0x0709 0 r.step d1 d2
    have h2 := m.raiseStep_sameBut 0x0709 0 r.step d1 d2
    exact ⟨by rw [h1.fresh (by decide), h2.fresh (by decide), hf], by rw [h1.tick (by decide), h2.tick (by decide), ht]⟩
  unfold Mod.formVerdict
  rw [hp]
  cases m.plate?.map (·.cfg) with
  | none => exact hfault hf ht r
  | some c =>
    dsimp only
    rw [hself, hc, hs]
    refine snd_ite_congr (hfault hf ht r) (snd_ite_congr (hfault (hmis _ _).1 (hmis _ _).2 _) (snd_ite_congr (hfault (hmis _ _).1 (hmis _ _).2 _)
      (snd_ite_congr (hfault (hrep _ _).1 (hrep _ _).2 _) ?_)))
    split
    · simp only [hf, ht, apply_ite Mod.fresh, ite_self]
    · simp only [ht]

end

/-! ### The reduction goes on -/

/-- `n` keeps of `m`'s step what a reduction rests on: phase, wait, the records had. -/
structure Mod.reduces (m n : Mod) : Prop where
  phase : n.step.phase = m.step.phase
  own : n.step.own = m.step.own
  waitTicks : n.step.waitTicks = m.step.waitTicks
  children : n.step.children = m.step.children

section
variable {l m n : Mod}

theorem Mod.reduces.refl (m : Mod) : Mod.reduces m m := ⟨rfl, rfl, rfl, rfl⟩

theorem Mod.reduces.trans (h1 : Mod.reduces l m) (h2 : Mod.reduces m n) : Mod.reduces l n :=
  ⟨h2.phase.trans h1.phase, h2.own.trans h1.own, h2.waitTicks.trans h1.waitTicks, h2.children.trans h1.children⟩

theorem Mod.reduces.of {ps : List Part} (h : Mod.sameBut ps m n) (hs : ps.contains .step = false) : Mod.reduces m n := by
  have e := h.step (by simpa using hs)
  exact ⟨by rw [e], by rw [e], by rw [e], by rw [e]⟩

theorem Mod.causeOnly.reduces (h : Mod.causeOnly m n) : Mod.reduces m n := by
  obtain ⟨c, hc⟩ := h
  exact ⟨by rw [hc], by rw [hc], by rw [hc], by rw [hc]⟩

end

section
variable (m : Mod)

theorem Mod.formVerdict_reduces (r : RedRec) : Mod.reduces m (m.formVerdict r).1 := by
  have hf : ∀ (x : Mod) q, Mod.reduces x (x.faultVerdict q).1 := fun x q => ⟨rfl, rfl, rfl, rfl⟩
  unfold Mod.formVerdict
  split
  · exact hf m r
  · dsimp only
    split
    · exact hf m r
    split
    · exact (m.raiseDual_causeOnly _ _ _ _ _ _ _).reduces.trans (hf _ _)
    split
    · exact (m.raiseDual_causeOnly _ _ _ _ _ _ _).reduces.trans (hf _ _)
    split
    · exact (m.raiseDual_causeOnly _ _ _ _ _ _ _).reduces.trans (hf _ _)
    have h0 : Mod.reduces m (if r.attempt = 0 then { m with step := { m.step with firstSumsq := some r.sumsq } } else m) := by
      split
      · exact ⟨rfl, rfl, rfl, rfl⟩
      · exact .refl m
    split
    · exact ⟨h0.phase, h0.own, h0.waitTicks, h0.children⟩
    · exact h0

/-- Flits sent to the children. -/
theorem Mod.originates_sameBut {β : Type} (f : Mod → β → TFlit) (xs : List β) :
    Mod.sameBut [.regs, .evIn, .fab] m (xs.foldl (fun (x : Mod) c => x.originate (f x c)) m) :=
  Mod.sameBut_foldl _ xs m (fun x c => x.originate_sameBut (f x c)) (Mod.sameBut_refl _ m)

theorem Mod.originates_regsKeep {β : Type} (f : Mod → β → TFlit) (xs : List β) :
    m.regsKeep [Reg.FAB_UNREACH.base] (xs.foldl (fun (x : Mod) c => x.originate (f x c)) m) :=
  List.foldlRecOn (motive := fun n => m.regsKeep [Reg.FAB_UNREACH.base] n) _ _ (Mod.regsKeep_of_regs_eq rfl _)
    fun n hn c _ => Mod.regsKeep_trans hn (n.originate_regsKeep (f n c))

theorem Mod.normProgress_reduces : Mod.reduces m m.normProgress := by
  unfold Mod.normProgress
  extract_lets r all early y m1
  split_ifs
  · exact .refl m
  · have h : Mod.reduces m m1 := (m.formVerdict_reduces r).trans ⟨rfl, rfl, rfl, rfl⟩
    exact h.trans (.of (m1.originates_sameBut (fun x c => x.normFlit c (verdictBytes r y.2)) _) rfl)
  · have hup : ∀ f, Mod.reduces m (Mod.originate { m with step := { m.step with up := some r } } f) := fun f =>
      Mod.reduces.trans (m := { m with step := { m.step with up := some r } }) ⟨rfl, rfl, rfl, rfl⟩ (.of (Mod.originate_sameBut _ f) rfl)
    split
    · split
      · exact hup _
      · exact .refl m
    · exact hup _

/-- A root that has what it needs forms the verdict. -/
theorem Mod.normProgress_verdict (ho : m.stepOpen = true) (hr : m.isRoot = true)
    (h : (m.step.own.isSome && m.normChildren.all (fun c => m.step.children.any (fun e => e.1 == c))) = true ∨ (m.combined.fault || m.combined.mismatch) = true) :
    m.normProgress.step.verdict = some (m.formVerdict m.combined).2 := by
  have hgo : (!m.stepOpen || !((m.step.own.isSome && m.normChildren.all (fun c => m.step.children.any (fun e => e.1 == c)))
      || (m.combined.fault || m.combined.mismatch))) = false := by
    rcases h with h | h
    · simp only [ho, h, Bool.not_true, Bool.true_or, Bool.or_self]
    · simp only [ho, h, Bool.not_true, Bool.or_true, Bool.or_self]
  unfold Mod.normProgress
  extract_lets r all early y m1
  rw [if_neg (by rw [hgo]; decide), if_pos hr, (m1.originates_sameBut (fun x c => x.normFlit c (verdictBytes r y.2)) _).step (by decide)]
  rfl

end

/-! ### Records combined -/

/-- Does a record carry FAULT or MISMATCH? -/
def RedRec.bad (r : RedRec) : Bool := r.fault || r.mismatch

theorem RedRec.combine_bad (self : Nat) (a b : RedRec) (h : a.bad = true ∨ b.bad = true) : (RedRec.combine self a b).bad = true := by
  have hf : (RedRec.combine self a b).fault = (a.fault || b.fault || b.mismatch) := rfl
  have hm : (RedRec.combine self a b).mismatch = (a.mismatch || !b.sameStep a || b.mismatch) := rfl
  simp only [RedRec.bad, Bool.or_eq_true] at h ⊢
  rw [hf, hm]
  simp only [Bool.or_eq_true]
  tauto

theorem RedRec.foldl_combine_bad (self : Nat) (xs : List RedRec) (a : RedRec) (h : a.bad = true ∨ ∃ b ∈ xs, b.bad = true) :
    (xs.foldl (RedRec.combine self) a).bad = true := by
  induction xs generalizing a with
  | nil => simpa using h
  | cons x xs ih =>
    refine ih _ ?_
    rcases h with h | ⟨b, hb, hbad⟩
    · exact .inl (RedRec.combine_bad self a x (.inl h))
    · rcases List.mem_cons.mp hb with rfl | hb
      · exact .inl (RedRec.combine_bad self a b (.inr hbad))
      · exact .inr ⟨b, hb, hbad⟩

/-- A child's bad record makes the combined one bad. -/
theorem Mod.combined_bad {m : Mod} {c : Nat} {r : RedRec} (hc : c ∈ m.normChildren) (hf : m.step.children.find? (fun e => e.1 == c) = some (c, r))
    (hb : r.bad = true) : m.combined.bad = true :=
  RedRec.foldl_combine_bad _ _ _ (.inr ⟨r, List.mem_filterMap.mpr ⟨c, hc, by rw [hf]; rfl⟩, hb⟩)

/-! ### The commands -/

section
variable (m : Mod)

theorem Mod.groomFlags_regsKeep (u : Nat) (f : Fl) : m.regsKeep [Reg.GRM_FLAGS.addr u 0, Reg.GRM_SAT.addr u 0] (m.groomFlags u f) := by
  unfold Mod.groomFlags
  refine Mod.regsKeep_trans (m := { m with regs := m.regs.write Reg.GRM_FLAGS u 0 (m.regs.read Reg.GRM_FLAGS u 0 ||| f.bits) }) (fun r i j h => ?_)
    (Mod.regsKeep_mono (Mod.fsat_regsKeep _ Fld.GRM_SAT_COUNT f.sat u 0) (by simp [Fld.GRM_SAT_COUNT]))
  exact RegFile.read_write_other _ _ _ _ _ _ _ _ (fun e => h (by simp [e]))

/-- The flags of the groom units lie at the second and third word of their blocks. -/
theorem Mod.normFlags_fget (f : Fld) (i j : Nat) (h4 : f.reg.addr i j % 0x10000 ≠ 4) (h8 : f.reg.addr i j % 0x10000 ≠ 8) :
    m.normFlags.fget f i j = m.fget f i j := by
  unfold Mod.normFlags
  refine List.foldlRecOn (motive := fun n : Mod => n.fget f i j = m.fget f i j) _ _ rfl fun n hn u _ => ?_
  refine (Mod.regsKeep_fget (n.groomFlags_regsKeep u _) f i j ?_).trans hn
  simp only [RegSpec.addr, Reg.GRM_FLAGS, Reg.GRM_SAT, List.mem_cons, List.not_mem_nil, or_false, not_or] at h4 h8 ⊢
  omega

/-- The module whose own record has been taken. -/
def Mod.recordTaken (m : Mod) : Mod := { m.normFlags with step := { m.step with own := some m.ownRecord, phase := .await, waitTicks := 0 } }

theorem Mod.recordTaken_step : m.recordTaken.step = { m.step with own := some m.ownRecord, phase := .await, waitTicks := 0 } := rfl

theorem Mod.recordTaken_sameBut : Mod.sameBut [.regs, .step] m m.recordTaken :=
  Mod.sameBut_trans (Mod.sameBut_mono m.normFlags_sameBut (by decide)) (Mod.sameBut_mono (Mod.sameBut_stepUnit _ _) (by decide))

theorem Mod.recordTaken_fget (f : Fld) (i j : Nat) (h4 : f.reg.addr i j % 0x10000 ≠ 4) (h8 : f.reg.addr i j % 0x10000 ≠ 8) :
    m.recordTaken.fget f i j = m.fget f i j := m.normFlags_fget f i j h4 h8

theorem Mod.recordTaken_verdict (r : RedRec) : (m.recordTaken.formVerdict r).2 = (m.formVerdict r).2 := by
  have h := m.recordTaken_sameBut
  have hp : m.recordTaken.plate? = m.plate? := by rw [Mod.plate?, h.plt (by decide), Mod.plate?]
  have hself : m.recordTaken.self = m.self := by rw [Mod.self, m.recordTaken_fget _ _ _ (by decide) (by decide), Mod.self]
  have hclip : m.recordTaken.clipPred = m.clipPred := by rw [Mod.clipPred, hp, m.recordTaken_fget _ _ _ (by decide) (by decide), Mod.clipPred]
  have hsum : m.recordTaken.step.firstSumsq = m.step.firstSumsq := by rw [m.recordTaken_step]
  exact Mod.formVerdict_snd_congr hself hp hclip hsum (h.tick (by decide)) (h.fresh (by decide)) r

theorem Mod.sendRecord_ready (hf : m.framesRun = true) (hv : m.step.verdict = none) (h : m.step.cause ≠ none ∨ m.stepWorkDone = true) :
    m.sendRecord = m.recordTaken.normProgress := by
  have hready : (m.framesRun && (m.step.cause.isSome || m.stepWorkDone)) = true := by
    rcases h with h | h
    · simp [hf, Option.isSome_iff_ne_none.mpr h]
    · simp [hf, h]
  have hphase : m.step.phase ≠ .await := by
    intro e
    simp [Mod.framesRun, e] at hf
  unfold Mod.sendRecord
  extract_lets ready again r wait
  have hw : wait = 0 := if_neg hphase
  rw [if_neg (by simp [ready, hready, hv]), hw]
  rfl

theorem Mod.sendRecord_waits (hc : m.step.cause = none) (h : m.stepWorkDone = false) : m.sendRecord = m := by
  refine if_pos ?_
  simp [hc, h]

end

section
variable {m n : Mod}

theorem Mod.sameBut.isRoot {ps : List Part} (h : Mod.sameBut ps m n) (hp : Part.plt ∉ ps) : n.isRoot = m.isRoot := by
  simp only [Mod.isRoot, Mod.plate?, h.plt hp]

theorem Mod.sameBut.normChildren {ps : List Part} (h : Mod.sameBut ps m n) (hp : Part.plt ∉ ps) : n.normChildren = m.normChildren := by
  simp only [Mod.normChildren, Mod.plate?, h.plt hp]

theorem Mod.causeOnly.stepOpen (h : Mod.causeOnly m n) : n.stepOpen = m.stepOpen := by
  obtain ⟨c, hc⟩ := h
  simp only [Mod.stepOpen, hc]

/-- A child's record is kept in place of the one before, and a bad one makes the root decide. -/
theorem Mod.childRecord_spec (child : Nat) (r : RedRec) (ho : m.stepOpen = true) (hc : child ∈ m.normChildren) :
    (child, r) ∈ (m.childRecord child r).step.children
      ∧ (∀ c q, c ≠ child → ((c, q) ∈ (m.childRecord child r).step.children ↔ (c, q) ∈ m.step.children))
      ∧ (m.isRoot = true → r.bad = true → (m.childRecord child r).step.verdict.isSome = true) := by
  unfold Mod.childRecord
  extract_lets m1 cs
  have h1 : Mod.sameBut [.evIn, .step] m m1 := by
    change Mod.sameBut [.evIn, .step] m (if _ then _ else _)
    split
    · exact Mod.sameBut_refl _ m
    · exact m.stepMismatch_sameBut 1 r.count
  have hcause : Mod.causeOnly m m1 := by
    change Mod.causeOnly m (if _ then _ else _)
    split
    · exact .refl m
    · exact m.raiseDual_causeOnly _ _ _ _ _ _ _
  obtain ⟨m2, hm2⟩ : ∃ m2 : Mod, m2 = { m1 with step := { m1.step with children := cs } } := ⟨_, rfl⟩
  have h2 : Mod.sameBut [.evIn, .step] m m2 := hm2 ▸ Mod.sameBut_trans h1 (Mod.sameBut_mono (Mod.sameBut_stepUnit m1 _) (by decide))
  have hcs : m2.step.children = cs := by rw [hm2]
  have hchildren : m1.step.children = m.step.children := hcause.reduces.children
  rw [← hm2, m2.normProgress_reduces.children, hcs]
  refine ⟨List.mem_append_right _ (List.mem_singleton.mpr rfl), fun c q hne => ?_, fun hr hb => ?_⟩
  · simp [cs, hchildren, hne]
  · have hfind : m2.step.children.find? (fun e => e.1 == child) = some (child, r) := by
      have hnone : (m1.step.children.filter (fun e => e.1 != child)).find? (fun e => e.1 == child) = none :=
        List.find?_eq_none.mpr fun e he => by simpa using (List.mem_filter.mp he).2
      rw [hcs, List.find?_append, hnone]
      simp
    have hopen : m2.stepOpen = true := by rw [hm2]; exact hcause.stepOpen.trans ho
    have hbad := Mod.combined_bad (m := m2) ((h2.normChildren (by decide)).symm ▸ hc) hfind hb
    rw [m2.normProgress_verdict hopen ((h2.isRoot (by decide)).trans hr) (.inr hbad)]
    rfl

theorem Mod.oldRecord_congr (hs : n.step = m.step) (hf : n.fget Fld.GRM_STEP_STEP = m.fget Fld.GRM_STEP_STEP) (r : RedRec) :
    n.oldRecord r = m.oldRecord r := by
  simp only [Mod.oldRecord, hs, hf]

theorem Mod.verdictTick_congr (ht : n.tick = m.tick) (hf : n.fget Fld.TCK_PERIOD_PERIOD_US = m.fget Fld.TCK_PERIOD_PERIOD_US) :
    n.verdictTick = m.verdictTick := by
  have hlen : n.tickLen = m.tickLen := by rw [Mod.tickLen, hf, ht, Mod.tickLen]
  rw [Mod.verdictTick, Mod.inGuard, hlen, ht, Mod.verdictTick, Mod.inGuard]

end

/-- Settles O34: own and children's records decide through the verdict formed of them, and a verdict taken is acted on in its guard. -/
theorem reductionAndVerdict : Obligations.ReductionAndVerdict := by
  unfold Obligations.ReductionAndVerdict
  refine ⟨fun s hr hf hv => ⟨fun h => ?_, fun hc hw => exec_unit_self rfl fun _ => s.m.sendRecord_waits hc hw⟩, fun s f m1 hr ho htake => ?_,
    fun s f m1 v hr ho htake hofb hstep hatt => ?_, fun s p hr hph hv hp => ⟨fun hw => ?_, fun hw => exec_unit_self rfl fun _ => if_neg ?_⟩⟩
  · have hready := s.m.sendRecord_ready hf hv h
    have hred := s.m.recordTaken.normProgress_reduces
    have hsame := Mod.sendRecord_sameBut s.m
    refine ⟨{ s with m := s.m.sendRecord }, exec_unit_eq rfl hr rfl, ?_, ?_, ?_, hsame.mem (by decide), hsame.sched (by decide), fun hroot hch => ?_⟩
    · rw [hready, hred.phase, s.m.recordTaken_step]
    · rw [hready, hred.own, s.m.recordTaken_step]
    · rw [hready, hred.waitTicks, s.m.recordTaken_step]
    · have hb := s.m.recordTaken_sameBut
      have hch' := (hb.normChildren (by decide)).trans hch
      have hcomb : s.m.recordTaken.combined = s.m.ownRecord := by
        rw [Mod.combined, hch', s.m.recordTaken_step]
        rfl
      have hopen : s.m.recordTaken.stepOpen = true := by
        rw [Mod.stepOpen, s.m.recordTaken_step, hv]
        rfl
      rw [hready, Mod.normProgress_verdict _ hopen ((hb.isRoot (by decide)).trans hroot) (.inl (by rw [hch', s.m.recordTaken_step]; rfl)), hcomb, s.m.recordTaken_verdict]
  · intro r
    obtain ⟨hsame, hregs⟩ := s.m.takeFlit_spec htake
    have hold := Mod.oldRecord_congr (hsame.step (by decide)) (Mod.regsKeep_fget hregs _ 0 0 (by decide)) r
    have hch := hsame.normChildren (by decide)
    have hstep := hsame.step (by decide)
    have hexec : ∀ {n : Mod}, (if m1.oldRecord r || !m1.normChildren.contains f.src then m1 else m1.childRecord f.src r) = n →
        exec .normRecordReceived s = .next { s with m := n } := fun h => exec_unit_eq rfl hr ((if_neg (by rw [ho]; decide)).trans (by rw [htake]; exact h))
    refine ⟨fun hnew hc => ?_, fun hyes => hexec (if_pos (by rw [hold, hyes, Bool.true_or]))⟩
    have hopen : m1.stepOpen = true := by rw [Mod.stepOpen, hstep]; exact ho
    obtain ⟨h1, h2, h3⟩ := Mod.childRecord_spec f.src r hopen (hch.symm ▸ hc)
    refine ⟨{ s with m := m1.childRecord f.src r }, hexec (if_neg (by simp [hold, hnew, hch, hc])), h1, fun c q hne => hstep ▸ h2 c q hne, ?_,
      fun hroot hb => h3 ((hsame.isRoot (by decide)).trans hroot) (by simpa [RedRec.bad] using hb)⟩
    exact ((m1.childRecord_sameBut f.src r).mem (by decide)).trans (hsame.mem (by decide))
  · obtain ⟨hsame, hregs⟩ := s.m.takeFlit_spec htake
    have horig := m1.originates_sameBut (fun x c => x.normFlit c f.payload) m1.normChildren
    have hoffs := m1.originates_regsKeep (fun x c => x.normFlit c f.payload) m1.normChildren
    obtain ⟨m2, hm2⟩ : ∃ m2 : Mod, m2 = m1.normChildren.foldl (fun (x : Mod) c => x.originate (x.normFlit c f.payload)) m1 := ⟨_, rfl⟩
    rw [← hm2] at horig hoffs
    have hnow : ¬((RedRec.ofBytes f.payload).step ≠ m1.fget Fld.GRM_STEP_STEP ∨ (RedRec.ofBytes f.payload).attempt ≠ m1.step.attempt) := by
      rw [hsame.step (by decide), Mod.regsKeep_fget hregs Fld.GRM_STEP_STEP 0 0 (by decide)]
      simp [hstep, hatt]
    have htick : m2.verdictTick = s.m.verdictTick :=
      Mod.verdictTick_congr ((horig.tick (by decide)).trans (hsame.tick (by decide))) (Mod.regsKeep_fget (Mod.regsKeep_trans hregs hoffs) _ 0 0 (by decide))
    refine ⟨{ s with m := m2.takeVerdict v }, exec_unit_eq rfl hr ?_, rfl, htick, (horig.mem (by decide)).trans (hsame.mem (by decide)),
      (horig.sched (by decide)).trans (hsame.sched (by decide))⟩
    dsimp only
    rw [ho, htake]
    dsimp only
    rw [hofb]
    dsimp only
    rw [if_neg hnow, ← hm2]
    rfl
  · have hlim : (s.m.plate?.map (·.cfg.verdictTicks)).getD 1000 = p.cfg.verdictTicks := by rw [hp]; rfl
    have hraise := s.m.raise_sameBut .device 0x070A 0 (s.m.fget Fld.GRM_STEP_STEP) s.m.step.attempt p.cfg.verdictTicks
    have hrep := s.m.raise_reports .device 0x070A 0 (s.m.fget Fld.GRM_STEP_STEP) s.m.step.attempt p.cfg.verdictTicks
    generalize he : s.m.raise .device 0x070A 0 (s.m.fget Fld.GRM_STEP_STEP) s.m.step.attempt p.cfg.verdictTicks = m1 at hraise hrep
    obtain ⟨y, hy⟩ : ∃ y, y = m1.faultVerdict { m1.ownRecord with cause := 0x070A, source := s.m.self } := ⟨_, rfl⟩
    have hfresh := m1.faultVerdict_sameBut { m1.ownRecord with cause := 0x070A, source := s.m.self }
    rw [← hy] at hfresh
    refine ⟨{ s with m := y.1.takeVerdict y.2 }, y.2, exec_unit_eq rfl hr ?_, rfl, by rw [hy]; rfl, by rw [hy]; rfl, by rw [hy]; rfl,
      Mod.reports_of_eq (hfresh.evIn (by decide)) (hfresh.tick (by decide)) hrep, rfl, rfl, ?_⟩
    · dsimp only
      rw [hlim, if_pos ⟨hph, by rw [hv]; rfl, hw⟩, he, ← hy]
    · exact Mod.sameBut_trans (Mod.sameBut_trans (Mod.sameBut_mono hraise (by decide)) (Mod.sameBut_mono hfresh (by decide)))
        (Mod.sameBut_mono (y.1.takeVerdict_sameBut y.2) (by decide))
  · rw [hp]
    simp only [Option.map_some, Option.getD_some, not_and, not_le]
    exact fun _ _ => hw

end Sys2Proof.Machine
end

section
/-! PROOF. Deferred passes, drain passes and reconcile copies (08_step_commit.md R209 to R212). -/

namespace Sys2Proof.Machine

/-! ### What the work on memory and watch records leaves of the step -/

/-- Of the step's state at most the cause of FAULT, the events reported once and the passes done change. -/
def Mod.minorStep (m n : Mod) : Prop := ∃ c e d, n.step = { m.step with cause := c, events := e, passesDone := d }

section
variable {l m n : Mod}

theorem Mod.minorStep.refl (m : Mod) : Mod.minorStep m m := ⟨_, _, _, rfl⟩

theorem Mod.minorStep.trans (h1 : Mod.minorStep l m) (h2 : Mod.minorStep m n) : Mod.minorStep l n := by
  obtain ⟨c, e, d, h⟩ := h1
  obtain ⟨c', e', d', h'⟩ := h2
  exact ⟨c', e', d', by rw [h', h]⟩

theorem Mod.minorStep.of {ps : List Part} (h : Mod.sameBut ps m n) (hs : ps.contains .step = false) : Mod.minorStep m n :=
  ⟨m.step.cause, m.step.events, m.step.passesDone, h.step (by simpa using hs)⟩

theorem Mod.causeOnly.minor (h : Mod.causeOnly m n) : Mod.minorStep m n := by
  obtain ⟨c, h⟩ := h
  exact ⟨c, m.step.events, m.step.passesDone, h⟩

theorem Mod.minorStep.foldl {β : Type} {f : Mod → β → Mod} (hf : ∀ x y, Mod.minorStep x (f x y)) (xs : List β) (x : Mod) :
    Mod.minorStep x (xs.foldl f x) := by
  induction xs generalizing x with
  | nil => exact .refl _
  | cons y ys ih => exact (hf x y).trans (ih _)

theorem Mod.minorStep.stepOpen (h : Mod.minorStep m n) : n.stepOpen = m.stepOpen := by
  obtain ⟨c, e, d, h⟩ := h
  simp only [Mod.stepOpen, h]

/-- Of the step stands what its actions rest on. -/
theorem Mod.minorStep.stands (h : Mod.minorStep m n) : n.step.phase = m.step.phase ∧ n.step.ledger = m.step.ledger ∧ n.step.draining = m.step.draining
    ∧ n.step.drainStep = m.step.drainStep ∧ n.step.defRun = m.step.defRun ∧ n.step.actTick = m.step.actTick := by
  obtain ⟨c, e, d, h⟩ := h
  rw [h]
  exact ⟨rfl, rfl, rfl, rfl, rfl, rfl⟩

end

section
variable (m : Mod)

theorem Mod.foundUe_causeOnly (b : Bool) (k : Nat) : Mod.causeOnly m (m.foundUe b k) := by
  unfold Mod.foundUe
  extract_lets st l m1 m2
  split
  · exact .refl m
  · have h : Mod.causeOnly m m2 := ((Mod.causeOnly.of (m.markLoc_sameBut (.hbm k)) rfl).trans (.of (Mod.fsat_sameBut _ _ _ _ _) rfl)).trans
      (.of (m1.set64_sameBut _ _ _ _) rfl)
    exact h.trans (m2.raiseDual_causeOnly _ _ _ _ _ _ _)

theorem Mod.eccDev_causeOnly (b : Bool) (ranges : List (Nat × Nat)) (ecc : Ecc) : Mod.causeOnly m (m.eccDev b ranges ecc) := by
  unfold Mod.eccDev
  extract_lets hit m1
  have h1 : Mod.causeOnly m m1 := .foldl (fun x a => by
    split
    · exact .of (x.foundCe_sameBut _) rfl
    · exact .refl x) _ m
  exact h1.trans (.foldl (fun x a => by
    split
    · exact x.foundUe_causeOnly _ _
    · exact .refl x) _ m1)

theorem Mod.loftMet_causeOnly (b : Bool) (ranges : List (Nat × Nat)) : Mod.causeOnly m (m.loftMet b ranges) :=
  .foldl (fun x c => by
    split
    · exact (Mod.causeOnly.of (x.fset_sameBut _ _ _ _) rfl).trans (Mod.raiseDual_causeOnly _ _ _ _ _ _ _ _)
    · exact .refl x) _ m

theorem Mod.readDev_causeOnly (b : Bool) (ranges : List (Nat × Nat)) (ecc : Ecc) : Mod.causeOnly m (m.readDev b ranges ecc) :=
  (m.eccDev_causeOnly b ranges ecc).trans (Mod.loftMet_causeOnly _ _ _)

theorem Mod.unitRead_causeOnly (b : Bool) (a n : Nat) (ecc : Ecc) : Mod.causeOnly m (m.unitRead b a n ecc).1 := by
  have h := m.readDev_causeOnly b [(a, n)] ecc
  unfold Mod.unitRead
  dsimp only
  split
  · exact h.trans (Mod.fault_causeOnly _ _)
  · exact h

theorem Mod.numEvent_minor (code id d1 d2 : Nat) : Mod.minorStep m (m.numEvent code id d1 d2) := by
  unfold Mod.numEvent
  split
  · exact .refl m
  · exact ⟨m.step.cause, (code, id) :: m.step.events, m.step.passesDone, rfl⟩

/-- An event of the numeric watch with its sticky bit. -/
theorem Mod.stickyEvent_minor (f : Fld) (v code id d1 d2 : Nat) : Mod.minorStep m ((m.fset f v).numEvent code id d1 d2) :=
  (Mod.minorStep.of (m.fset_sameBut f v 0 0) rfl).trans (Mod.numEvent_minor _ _ _ _ _)

theorem Mod.watchEvents_minor (id : Nat) (r : WatchRec) (scale : Nat) : Mod.minorStep m (m.watchEvents id r scale) := by
  unfold Mod.watchEvents
  extract_lets sat zr m1 m2 m3
  have h1 : Mod.minorStep m m1 := by
    change Mod.minorStep m (if _ then _ else _)
    split
    · exact m.stickyEvent_minor _ _ _ _ _ _
    · exact .refl m
  have h2 : Mod.minorStep m1 m2 := by
    change Mod.minorStep m1 (if _ then _ else _)
    split
    · exact m1.numEvent_minor _ _ _ _
    · exact .refl m1
  have h3 : Mod.minorStep m2 m3 := by
    change Mod.minorStep m2 (if _ then _ else _)
    split
    · exact m2.numEvent_minor _ _ _ _
    · exact .refl m2
  split
  · exact ((h1.trans h2).trans h3).trans (m3.stickyEvent_minor _ _ _ _ _ _)
  · exact (h1.trans h2).trans h3

theorem Mod.watchMerge_minor (tensor : Nat) (p : WatchRec) (source : Nat) (ecc : Ecc) : Mod.minorStep m (m.watchMerge tensor p source ecc) := by
  unfold Mod.watchMerge
  split
  · exact .refl m
  · extract_lets a rd m0 r isDone opens m1 r1 r2 r3
    have h0 : Mod.minorStep m m0 := (m.unitRead_causeOnly true a 64 ecc).minor
    have h1 : Mod.minorStep m0 m1 := by
      change Mod.minorStep m0 (if _ then _ else _)
      split
      · exact m0.stickyEvent_minor _ _ _ _ _ _
      · exact .refl m0
    have hw : ∀ (x : Mod) data, Mod.minorStep x (x.devWrite a data) := fun x data => .of (x.devWrite_sameBut a data) rfl
    split_ifs
    · exact h0
    · exact ((h0.trans h1).trans (m1.stickyEvent_minor _ _ _ _ _ _)).trans (hw _ _)
    · exact ((h0.trans h1).trans (m1.watchEvents_minor _ _ _)).trans (hw _ _)
    · exact ((h0.trans h1).trans (m1.watchEvents_minor _ _ _)).trans (hw _ _)
    · exact (h0.trans h1).trans (hw _ _)

theorem Mod.takePending_minor (tensor : Nat) (ecc : Ecc) : Mod.minorStep m (m.takePending tensor ecc) := by
  unfold Mod.takePending
  extract_lets a m1
  split
  · exact (m.eccDev_causeOnly true _ ecc).minor.trans (.of (m1.devWriteP_sameBut _ _) rfl)
  · exact .refl m

theorem Mod.normWrite_minor (group step elements : Nat) (a : List Nat) (flags : Nat) : Mod.minorStep m (m.normWrite group step elements a flags) := by
  unfold Mod.normWrite
  split
  · exact .refl m
  · extract_lets bad fl bytes m1 t a0 a2 root m2
    have h1 : Mod.minorStep m m1 := .of (m.devWrite_sameBut _ _) rfl
    have h2 : Mod.minorStep m1 m2 := by
      change Mod.minorStep m1 (if _ then _ else _)
      split
      · exact m1.numEvent_minor _ _ _ _
      · exact .refl m1
    split
    · exact h1.trans h2
    · exact (h1.trans h2).trans (m2.stickyEvent_minor _ _ _ _ _ _)

theorem Mod.normGroup_minor (group flags : Nat) (p : PassDone → Bool) : Mod.minorStep m (m.normGroup group flags p) := by
  unfold Mod.normGroup
  extract_lets mine units m1 sums rs
  have h1 : Mod.minorStep m m1 := .foldl (fun x _ => .of (x.groomFlags_sameBut _ _) rfl) _ m
  exact h1.trans (m1.normWrite_minor _ _ _ _ _)

theorem Mod.normAll_minor (flags : Nat) (p : PassDone → Bool) : Mod.minorStep m (m.normAll flags p) :=
  .foldl (fun x g => x.normGroup_minor g flags p) _ m

theorem Mod.mergeAll_minor (p : PassDone → Bool) (ecc : Ecc) : Mod.minorStep m (m.mergeAll p ecc) :=
  (Mod.minorStep.foldl (fun x t => x.takePending_minor t ecc) _ m).trans (.foldl (fun x e => by
    split
    · split
      · exact .refl x
      · exact x.watchMerge_minor _ _ _ _
    · exact .refl x) _ _)

/-- Passes settled: their signals are given and they count as done. -/
theorem Mod.deferredSettle_minor : Mod.minorStep m m.deferredSettle := by
  unfold Mod.deferredSettle
  refine (Mod.minorStep.foldl (fun x b => ?_) _ m).trans (.of (Mod.gates_sameBut _) rfl)
  split
  case h_1 g _ =>
    split
    · exact .refl x
    · have h : Mod.minorStep x { x with step := { x.step with passesDone := setAdd x.step.passesDone b } } := ⟨x.step.cause, x.step.events, _, rfl⟩
      dsimp only
      split
      · exact h.trans (.of (Mod.signal_sameBut _ _) rfl)
      · exact h
  · exact .refl x

end

/-! ### A deferred pass -/

/-- The work of a deferred pass on the slices that are left. -/
def Mod.deferredWork (m : Mod) (b : Nat) (g : Binding) (st : StepHist) (ps : GPass) (ecc : Ecc) : Mod × GPass × PassWay :=
  Mod.deferredSlices b g ⟨st.step, st.size, st.bc1, st.bc2, 0x3F800000, false⟩ st
    (((m.eccDev true (m.unitObjRanges g.unit) ecc).slicesOf b).drop ps.taken) (m.eccDev true (m.unitObjRanges g.unit) ecc) ps

section
variable (m : Mod) (b : Nat) (g : Binding) (st : StepHist) (ps : GPass) (ecc : Ecc)

theorem Mod.deferredWork_sameBut : Mod.sameBut [.regs, .evIn, .step, .mem, .pool, .groom] m (m.deferredWork b g st ps ecc).1 :=
  Mod.sameBut_trans (Mod.sameBut_mono (m.eccDev_sameBut true _ ecc) (by decide)) (Mod.sameBut_mono (Mod.deferredSlices_sameBut _ _ _ _ _ _ _) (by decide))

theorem Mod.deferredWork_minor : Mod.minorStep m (m.deferredWork b g st ps ecc).1 :=
  (m.eccDev_causeOnly true _ ecc).minor.trans (.of (Mod.deferredSlices_sameBut _ _ _ _ _ _ _) rfl)

/-- What a pass leaves, by the way its work ends. -/
structure Mod.passLeft (m : Mod) (b : Nat) (g : Binding) (step : Nat) (y : Mod × GPass × PassWay) (n : Mod) : Prop where
  plt : n.plt = m.plt
  mem : n.mem = y.1.mem
  phase : n.step.phase = m.step.phase
  draining : n.step.draining = m.step.draining
  drainStep : n.step.drainStep = m.step.drainStep
  waits : y.2.2 = .waits → n.step.ledger = m.step.ledger ∧ (n.groomUnit g.unit).pass = some y.2.1
  ends : y.2.2 ≠ .waits → n.step.ledger = m.step.ledger.filter (fun e => e != (step, b)) ∧ (n.groomUnit g.unit).pass = none
  whole : y.2.2 = .whole → b ∈ n.step.defRun
  lost : ∀ reason, y.2.2 = .lost reason → b ∈ n.step.defLost ∧ n.reports .device 0x070B 0 g.tensor step reason
    ∧ (m.stepOpen = true → n.step.cause.isSome = true)

theorem Mod.deferredGo_eq : m.deferredGo b g st ps ecc =
    match (m.deferredWork b g st ps ecc).2.2 with
    | .waits => (m.deferredWork b g st ps ecc).1.setGroom g.unit
        { (m.deferredWork b g st ps ecc).1.groomUnit g.unit with pass := some (m.deferredWork b g st ps ecc).2.1 }
    | .whole =>
      let m2 := ((m.deferredWork b g st ps ecc).1.passEnd g.unit (m.deferredWork b g st ps ecc).2.1 st.step).entriesDone st.step b
      Mod.deferredSettle { m2 with step := { m2.step with defRun := setAdd m2.step.defRun b } }
    | .lost reason =>
      let m2 := (((m.deferredWork b g st ps ecc).1.setGroom g.unit { (m.deferredWork b g st ps ecc).1.groomUnit g.unit with pass := none }).entriesDone
        st.step b).deferredLost g st.step reason
      { m2 with step := { m2.step with defLost := setAdd m2.step.defLost b } } := rfl

end

section
variable {m y : Mod} {b step : Nat} {g : Binding} {q : GPass}

theorem Mod.passLeft_waits (hp : y.plt = m.plt) (h : Mod.minorStep m y) :
    Mod.passLeft m b g step (y, q, .waits) (y.setGroom g.unit { y.groomUnit g.unit with pass := some q }) := by
  obtain ⟨hphase, hledger, hdraining, hdrainStep, -, -⟩ := h.stands
  exact ⟨hp, rfl, hphase, hdraining, hdrainStep, fun _ => ⟨hledger, congrArg GroomRun.pass (Mod.groomUnit_setGroom_same _ _ _)⟩,
    fun h => (h rfl).elim, fun h => (nomatch h), fun _ h => (nomatch h)⟩

theorem Mod.passLeft_whole (hp : y.plt = m.plt) (h : Mod.minorStep m y) {x n : Mod} (hx : x = y.passEnd g.unit q step)
    (hn : n = { x.entriesDone step b with step := { (x.entriesDone step b).step with defRun := setAdd (x.entriesDone step b).step.defRun b } }) :
    Mod.passLeft m b g step (y, q, .whole) n.deferredSettle := by
  obtain ⟨hphase, hledger, hdraining, hdrainStep, -, -⟩ := h.stands
  have hend : Mod.sameBut [.regs, .groom] y x := hx ▸ y.passEnd_sameBut g.unit q step
  have hs := n.deferredSettle_sameBut
  obtain ⟨gphase, gledger, gdraining, gdrainStep, gdefRun, -⟩ := n.deferredSettle_minor.stands
  have hstep : n.step = { y.step with ledger := y.step.ledger.filter (fun e => e != (step, b)), defRun := setAdd y.step.defRun b } := by
    rw [← hend.step (by decide), hn]
    rfl
  have hmem : n.mem = y.mem := by rw [← hend.mem (by decide), hn]; rfl
  have hplt : n.plt = y.plt := by rw [← hend.plt (by decide), hn]; rfl
  have hunit : n.groomUnit g.unit = (y.passEnd g.unit q step).groomUnit g.unit := by rw [hn, ← hx]; rfl
  refine ⟨(hs.plt (by decide)).trans (hplt.trans hp), (hs.mem (by decide)).trans hmem, gphase.trans ?_, gdraining.trans ?_, gdrainStep.trans ?_,
    fun h => (nomatch h), fun _ => ⟨gledger.trans ?_, ?_⟩, fun _ => ?_, fun _ h => (nomatch h)⟩
  · rw [hstep]
    exact hphase
  · rw [hstep]
    exact hdraining
  · rw [hstep]
    exact hdrainStep
  · rw [hstep]
    exact congrArg _ hledger
  · rw [hs.groomUnit (by decide), hunit]
    exact (y.passEnd_spec g.unit q step).1
  · rw [gdefRun, hstep]
    exact mem_setAdd_same _ _

theorem Mod.passLeft_lost {reason : Nat} (hp : y.plt = m.plt) (h : Mod.minorStep m y) {n k : Mod}
    (hn : n = (y.setGroom g.unit { y.groomUnit g.unit with pass := none }).entriesDone step b)
    (hk : k = { n.deferredLost g step reason with step := { (n.deferredLost g step reason).step with defLost := setAdd (n.deferredLost g step reason).step.defLost b } }) :
    Mod.passLeft m b g step (y, q, .lost reason) k := by
  obtain ⟨hphase, hledger, hdraining, hdrainStep, -, -⟩ := h.stands
  have hstep : n.step = { y.step with ledger := y.step.ledger.filter (fun e => e != (step, b)) } := by rw [hn]; rfl
  have hopen : n.stepOpen = m.stepOpen := by
    rw [← h.stepOpen, Mod.stepOpen, hstep, Mod.stepOpen]
  have hl := n.deferredLost_sameBut g step reason
  have hunit : k.groomUnit g.unit = { y.groomUnit g.unit with pass := none } := by
    have e : k.groomUnit g.unit = (n.deferredLost g step reason).groomUnit g.unit := by rw [hk]; rfl
    rw [e, hl.groomUnit (by decide), hn]
    exact Mod.groomUnit_setGroom_same _ _ _
  have hcause : Mod.causeOnly n (n.deferredLost g step reason) := by
    unfold Mod.deferredLost
    dsimp only
    split
    · exact Mod.causeOnly.trans (.of (n.raise_sameBut .device 0x070B 0 g.tensor step reason) rfl) (Mod.fault_causeOnly _ _)
    · exact .of (n.raise_sameBut .device 0x070B 0 g.tensor step reason) rfl
  have hrep : k.reports .device 0x070B 0 g.tensor step reason := by
    have e : (n.deferredLost g step reason).reports .device 0x070B 0 g.tensor step reason := by
      unfold Mod.deferredLost
      dsimp only
      split
      · exact Mod.reports_of_eq rfl rfl (n.raise_reports .device 0x070B 0 g.tensor step reason)
      · exact n.raise_reports .device 0x070B 0 g.tensor step reason
    rw [hk]
    exact Mod.reports_of_eq rfl rfl e
  have hfault : m.stepOpen = true → k.step.cause.isSome = true := fun ho => by
    have e : (n.deferredLost g step reason).step.cause.isSome = true := by
      have hr : (n.raise .device 0x070B 0 g.tensor step reason).stepOpen = true := hopen.trans ho
      unfold Mod.deferredLost
      dsimp only
      rw [if_pos hr, Mod.fault_step_cause]
      simp
    rw [hk]
    exact e
  obtain ⟨c, hc⟩ := hcause
  have hkstep : k.step = { y.step with cause := c, ledger := y.step.ledger.filter (fun e => e != (step, b)), defLost := setAdd y.step.defLost b } := by
    rw [hk]
    dsimp only
    rw [hc, hstep]
  have hkmem : k.mem = y.mem := by
    have e : k.mem = (n.deferredLost g step reason).mem := by rw [hk]
    rw [e, hl.mem (by decide), hn]
    rfl
  have hkplt : k.plt = y.plt := by
    have e : k.plt = (n.deferredLost g step reason).plt := by rw [hk]
    rw [e, hl.plt (by decide), hn]
    rfl
  refine ⟨hkplt.trans hp, hkmem, ?_, ?_, ?_, fun h => (nomatch h), fun _ => ⟨?_, ?_⟩, fun h => (nomatch h), fun r hr => ?_⟩
  · rw [hkstep]
    exact hphase
  · rw [hkstep]
    exact hdraining
  · rw [hkstep]
    exact hdrainStep
  · rw [hkstep]
    exact congrArg _ hledger
  · rw [hunit]
  · obtain rfl : reason = r := PassWay.lost.inj hr
    refine ⟨?_, hrep, hfault⟩
    rw [hkstep]
    exact mem_setAdd_same _ _

end

/-- A deferred pass leaves what the way its work ends says. -/
theorem Mod.deferredGo_left (m : Mod) (b : Nat) (g : Binding) (st : StepHist) (ps : GPass) (ecc : Ecc) :
    Mod.passLeft m b g st.step (m.deferredWork b g st ps ecc) (m.deferredGo b g st ps ecc) := by
  have hp := (m.deferredWork_sameBut b g st ps ecc).plt (by decide)
  have hs := m.deferredWork_minor b g st ps ecc
  rw [m.deferredGo_eq]
  generalize m.deferredWork b g st ps ecc = y at hp hs ⊢
  obtain ⟨n, q, w⟩ := y
  cases w with
  | waits => exact Mod.passLeft_waits hp hs
  | whole => exact Mod.passLeft_whole hp hs rfl rfl
  | lost reason => exact Mod.passLeft_lost hp hs rfl rfl

end Sys2Proof.Machine
end

section
/-! PROOF. Drain passes, reconcile copies, and the statement of deferred updates (08_step_commit.md R209 to R212). -/

namespace Sys2Proof.Machine

/-! ### A drain settled -/

/-- What a drain that settles leaves: the ledger and every unit's pass; the actions go on while entries are left. -/
structure Mod.drainGoesOn (m n : Mod) : Prop where
  ledger : n.step.ledger = m.step.ledger
  pass : ∀ d, (n.groomUnit d).pass = (m.groomUnit d).pass
  goesOn : m.step.ledger ≠ [] → m.step.phase = .actions → m.step.draining = true → n.step.phase = .actions ∧ n.step.draining = true

theorem kvGetD_map_pass (xs : Kv GroomRun) (f : GroomRun → GroomRun) (hf : ∀ x, (f x).pass = x.pass) (d : Nat) :
    (kvGetD (xs.map (fun e => (e.1, f e.2))) d GroomRun.rest).pass = (kvGetD xs d GroomRun.rest).pass := by
  induction xs with
  | nil => rfl
  | cons x xs ih =>
    simp only [kvGetD, List.map_cons, kvGet?] at ih ⊢
    split
    · exact hf x.2
    · exact ih

section
variable (m : Mod)

theorem Mod.actionsEnd_ledger : m.actionsEnd.step.ledger = m.step.ledger := by
  unfold Mod.actionsEnd
  split
  · rw [(Mod.gatesAll_sameBut _).step (by decide)]
  · rfl

/-- The actions do not end while a drain is left. -/
theorem Mod.actionsEnd_of_draining (h : m.step.draining = true) : m.actionsEnd = m := by
  refine if_neg ?_
  simp [Mod.actionsOver, h]

/-- The actions end past the guard once no copy and no drain is left. -/
theorem Mod.actionsEnd_over (hp : m.step.phase = .actions) (hr : m.groom.reconcile = []) (hd : m.step.draining = false)
    (ht : m.step.actTick < m.tick.count) : m.actionsEnd.step.phase = .idle := by
  have hc : (m.step.phase == .actions && m.actionsOver && decide ((m.step.actTick : Nat) < m.tick.count)) = true := by
    simp [Mod.actionsOver, hp, hr, hd, ht]
  rw [Mod.actionsEnd, if_pos hc, (Mod.gatesAll_sameBut _).step (by decide)]

/-- The module whose settled drain is cleared away. -/
def Mod.drainCleared (m : Mod) (p : PassDone → Bool) : Mod :=
  { m with
    groom := { m.groom with units := m.groom.units.map (fun e => (e.1, { e.2 with results := e.2.results.filter (fun r => !p r.2) })) }
    step := { m.step with defRun := [], passesDone := [], defLost := [], drainStep := none, draining := !m.step.ledger.isEmpty } }

theorem Mod.drainCleared_goesOn (p : PassDone → Bool) : Mod.drainGoesOn m (m.drainCleared p).actionsEnd := by
  refine ⟨Mod.actionsEnd_ledger _, fun d => ?_, fun hl hp _ => ?_⟩
  · rw [(Mod.actionsEnd_sameBut _).groomUnit (by decide)]
    exact kvGetD_map_pass m.groom.units (fun x => { x with results := x.results.filter (fun r => !p r.2) }) (fun _ => rfl) d
  · have hd : (m.drainCleared p).step.draining = true := by simp [Mod.drainCleared, hl]
    rw [Mod.actionsEnd_of_draining _ hd]
    exact ⟨hp, hd⟩

theorem Mod.drainSettle_goesOn (ecc : Ecc) : Mod.drainGoesOn m (m.drainSettle ecc) := by
  have hrefl : Mod.drainGoesOn m m := ⟨rfl, fun _ => rfl, fun _ hp hd => ⟨hp, hd⟩⟩
  unfold Mod.drainSettle
  split
  · exact hrefl
  case h_2 n _ =>
    extract_lets p m1 units _ m2 _ m3
    split
    · exact hrefl
    · have hflip := m.flipDeferred_sameBut m.step.defRun m.step.defLost
      have hminor : Mod.minorStep m m1 := ((Mod.minorStep.of hflip rfl).trans (Mod.mergeAll_minor _ p ecc)).trans (Mod.normAll_minor _ 17 p)
      have hgroom : m1.groom = m.groom := ((Mod.normAll_sameBut _ 17 p).groom (by decide)).trans
        (((Mod.mergeAll_sameBut _ p ecc).groom (by decide)).trans (hflip.groom (by decide)))
      clear_value m1
      have e : m3 = m1.drainCleared p := rfl
      rw [e]
      obtain ⟨hphase, hledger, hdraining, -, -, -⟩ := hminor.stands
      obtain ⟨h1, h2, h3⟩ := m1.drainCleared_goesOn p
      refine ⟨h1.trans hledger, fun d => (h2 d).trans ?_, fun hl hp hd => h3 (hledger ▸ hl) (hphase.trans hp) (hdraining.trans hd)⟩
      rw [Mod.groomUnit, hgroom, Mod.groomUnit]

/-- No drain settles while entries of its step are left. -/
theorem Mod.drainSettle_waits (ecc : Ecc) {n : Nat} (hd : m.step.drainStep = some n) (h : ∃ e ∈ m.step.ledger, e.1 = n) : m.drainSettle ecc = m := by
  obtain ⟨e, he, hn⟩ := h
  have hany : m.step.ledger.any (fun e => e.1 == n) = true := List.any_eq_true.mpr ⟨e, he, by simpa using hn⟩
  unfold Mod.drainSettle
  rw [hd]
  dsimp only
  rw [if_pos (by rw [hany, Bool.true_or])]

end

/-! ### When a pass begins or goes on -/

section
variable {m : Mod} {b : Nat} {g : Binding} {st : StepHist} {ps : GPass} (ecc : Ecc)

theorem Mod.histOf_step {n : Nat} (h : m.histOf n = some st) : st.step = n := by
  simpa using List.find?_some h

theorem Mod.deferredPass_begins (hb : m.binding? b = some g) (hg : m.groomRuns = true) (hp : (m.groomUnit g.unit).pass = none) (hl : 0 < m.lagOf g)
    (hs : m.histOf ((m.fget Fld.GRM_STEP_STEP + 2 ^ 32 - m.lagOf g) % 2 ^ 32) = some st) (hc : st.committed = true)
    (hledger : ((m.fget Fld.GRM_STEP_STEP + 2 ^ 32 - m.lagOf g) % 2 ^ 32, b) ∈ m.step.ledger) (hw : m.waitDone g.wait = true) :
    m.deferredPass b ecc = m.deferredGo b g st (.start b (some ((m.fget Fld.GRM_STEP_STEP + 2 ^ 32 - m.lagOf g) % 2 ^ 32))) ecc := by
  unfold Mod.deferredPass
  rw [hb]
  dsimp only
  rw [hp]
  dsimp only
  rw [hs]
  exact if_pos (by simpa [hg, hl, hc, hw] using hledger)

theorem Mod.deferredPass_goesOn (hb : m.binding? b = some g) (hg : m.groomRuns = true) (hp : (m.groomUnit g.unit).pass = some ps) (hpb : ps.binding = b)
    (hs : ps.applies.bind m.histOf = some st) : m.deferredPass b ecc = m.deferredGo b g st ps ecc := by
  have hc : (if ps.binding = b ∧ (m.groomRuns || (ps.bound && !m.unitsHalted)) = true then ps.applies.bind m.histOf else none) = some st := by
    rw [if_pos ⟨hpb, by rw [hg, Bool.true_or]⟩, hs]
  unfold Mod.deferredPass
  rw [hb]
  dsimp only
  rw [hp]
  dsimp only
  rw [hc]

/-- The first entry fails its checks or is poisoned: the pass is lost at once. -/
theorem Mod.deferredWork_lost {n op sl reason : Nat} {rest : List (Nat × Nat)} {e : SliceEnt} {p : Nat × Nat} (hsl : m.slicesOf b = (op, sl) :: rest)
    (he : m.sliceEnt? op sl = some e) (hp : m.ledgerAt g.tensor op sl st.step = some p) (hr : m.stateReady g.unit p.1 e.entryBytes = true)
    (h : m.entryRead g op sl e st = .bad ∧ reason = 0 ∨ m.entryRead g op sl e st = .poisoned ∧ reason = 1) :
    m.deferredWork b g st (.start b (some n)) noEcc = (m, .start b (some n), .lost reason) := by
  have hdrop : (m.slicesOf b).drop (GPass.start b (some n)).taken = (op, sl) :: rest := hsl
  unfold Mod.deferredWork
  rw [Mod.eccDev_noEcc, hdrop, Mod.deferredSlices, he, hp]
  dsimp only
  rw [if_pos hr]
  rcases h with ⟨h, rfl⟩ | ⟨h, rfl⟩
  · rw [h]
  · rw [h]

/-- A drain pass works on the oldest entry, then settles. -/
theorem Mod.drainPass_eq {n : Nat} {rest : List (Nat × Nat)} (hl : m.step.ledger = (n, b) :: rest) (hb : m.binding? b = some g)
    (hs : m.histOf n = some st) (hc : m.changePending = true) (hph : m.step.phase = .idle ∨ m.step.phase = .actions)
    (hd : m.step.drainStep = none ∨ m.step.drainStep = some n) (hu : m.unitsHalted = false)
    (hps : (m.groomUnit g.unit).pass = none ∧ ps = .start b (some n)
      ∨ (m.groomUnit g.unit).pass = some ps ∧ ps.binding = b ∧ ps.applies = some n) : m.drainPass ecc =
      (Mod.deferredGo { m with step := { m.step with phase := .actions, draining := true, drainStep := some n } } b g st ps ecc).drainSettle ecc := by
  have hpass : ((m.groomUnit g.unit).pass).getD (.start b (some n)) = ps ∧ ps.binding = b ∧ ps.applies = some n := by
    rcases hps with ⟨h, rfl⟩ | ⟨h, hb, ha⟩
    · rw [h]
      exact ⟨rfl, rfl, rfl⟩
    · rw [h]
      exact ⟨rfl, hb, ha⟩
  obtain ⟨hps, hbind, happ⟩ := hpass
  have hcond : (m.changePending && (m.step.phase == .idle || m.step.phase == .actions) && (m.step.drainStep.isNone || m.step.drainStep == some n)
      && !m.unitsHalted) = true := by
    have h1 : (m.step.phase == .idle || m.step.phase == .actions) = true := by
      rcases hph with h | h <;> rw [h] <;> rfl
    have h2 : (m.step.drainStep.isNone || m.step.drainStep == some n) = true := by
      rcases hd with h | h <;> simp [h]
    rw [hc, h1, h2, hu]
    rfl
  unfold Mod.drainPass
  rw [hl]
  dsimp only
  rw [hb]
  dsimp only
  rw [if_pos hcond, hps, if_pos ⟨hbind, happ⟩, hs]
  rfl

end

/-! ### Reconcile copies -/

section
variable {m : Mod} {b : Nat} {g : Binding} (ecc : Ecc)

theorem Mod.setGroom_reconcile (m : Mod) (u : Nat) (x : GroomRun) : (m.setGroom u x).groom.reconcile = m.groom.reconcile := rfl

/-- A reconcile copy ends the copy due of its binding alone. -/
theorem Mod.reconcileCopy_spec (hb : m.binding? b = some g) (h : b ∈ m.groom.reconcile) :
    (m.reconcileCopy b ecc).groom.reconcile = setDel m.groom.reconcile b ∧ kvGet? ((m.reconcileCopy b ecc).groomUnit g.unit).touched b = none
      ∧ Mod.causeOnly m (m.reconcileCopy b ecc) := by
  unfold Mod.reconcileCopy
  rw [hb]
  dsimp only
  rw [if_pos (List.contains_iff_mem.mpr h)]
  generalize hreads : ((kvGetD (m.groomUnit g.unit).touched b []).flatMap fun r => (rowCountAt g r, 8) :: (g.outs.filter (fun e => e.src == .plane)).map (fun e =>
    ((planeAt e g.first (r * g.rowLen)).1, e.format.rowBytes g.rowLen))) = reads
  have he := m.eccDev_causeOnly true (reads ++ mergeReads (reads.map (fun r => (m.outAt r.1, r.2)))) ecc
  have heg := (m.eccDev_sameBut true (reads ++ mergeReads (reads.map (fun r => (m.outAt r.1, r.2)))) ecc).groom (by decide)
  generalize m.eccDev true (reads ++ mergeReads (reads.map (fun r => (m.outAt r.1, r.2)))) ecc = m1 at he heg
  have hr : Mod.sameBut [.mem] m1 ((kvGetD (m.groomUnit g.unit).touched b []).foldl (fun (y : Mod) r => y.reconcileRow g r) m1) :=
    Mod.sameBut_foldl _ _ m1 (fun x r => x.reconcileRow_sameBut g r) (Mod.sameBut_refl _ _)
  generalize (kvGetD (m.groomUnit g.unit).touched b []).foldl (fun (y : Mod) r => y.reconcileRow g r) m1 = m2 at hr
  refine ⟨?_, ?_, he.trans ((Mod.causeOnly.of hr rfl).trans (.refl m2))⟩
  · exact congrArg (setDel · b) ((Mod.setGroom_reconcile m2 g.unit _).trans (congrArg GroomUnit.reconcile ((hr.groom (by decide)).trans heg)))
  · have hu := Mod.groomUnit_setGroom_same m2 g.unit { m2.groomUnit g.unit with
      touched := kvDel (m2.groomUnit g.unit).touched b,
      count := (m2.groomUnit g.unit).count + (kvGetD (m.groomUnit g.unit).touched b []).length * g.rowLen }
    exact (congrArg (fun x : GroomRun => kvGet? x.touched b) hu).trans (kvGet?_kvDel_same _ _)

end

/-- Settles O36: a pass leaves what the way its work ends says, a drain settles once its step's entries are gone, and copies end one by one. -/
theorem deferredUpdates : Obligations.DeferredUpdates := by
  unfold Obligations.DeferredUpdates
  refine ⟨fun s b ecc g st ps hr hb hg h => ?_, fun s b g st op sl rest e p hr hb hg hp hl => ?_, fun s ecc n b rest g st ps hr hl hb hs hc hph hd hu hps => ?_,
    fun s ecc b g hr hb hrec => ?_⟩
  · intro env m1 y
    have he : s.m.deferredPass b ecc = s.m.deferredGo b g st ps ecc := by
      rcases h with ⟨hp, hl, hs, hc, hledger, hw, rfl⟩ | ⟨hp, hpb, hs⟩
      · exact Mod.deferredPass_begins ecc hb hg hp hl hs hc hledger hw
      · exact Mod.deferredPass_goesOn ecc hb hg hp hpb hs
    have hleft := s.m.deferredGo_left b g st ps ecc
    rw [← he] at hleft
    refine ⟨{ s with m := s.m.deferredPass b ecc }, exec_unit_eq rfl hr rfl, hleft.plt, hleft.mem, hleft.waits, fun hw => ?_, fun reason hw => ?_⟩
    · obtain ⟨hledger, hpass⟩ := hleft.ends (fun h => (nomatch hw.symm.trans h))
      exact ⟨hledger, hleft.whole hw, hpass⟩
    · obtain ⟨hledger, hpass⟩ := hleft.ends (fun h => (nomatch hw.symm.trans h))
      obtain ⟨hlost, hrep, hcause⟩ := hleft.lost reason hw
      exact ⟨hledger, hlost, hpass, hrep, hcause⟩
  · intro n hs hc hledger hw hsl he hat hready
    have heq := Mod.deferredPass_begins noEcc hb hg hp hl hs hc hledger hw
    have hleft := s.m.deferredGo_left b g st (.start b (some n)) noEcc
    have hend : ∀ reason, s.m.entryRead g op sl e st = .bad ∧ reason = 0 ∨ s.m.entryRead g op sl e st = .poisoned ∧ reason = 1 →
        ∃ t, exec (.deferredPass b noEcc) s = .next t ∧ t.m.mem = s.m.mem ∧ t.m.reports .device 0x070B 0 g.tensor st.step reason := fun reason hread => by
      have hwork := Mod.deferredWork_lost (n := n) hsl he hat hready hread
      rw [hwork] at hleft
      exact ⟨{ s with m := s.m.deferredGo b g st (.start b (some n)) noEcc }, exec_unit_eq rfl hr heq, hleft.mem, (hleft.lost reason rfl).2.1⟩
    exact ⟨fun h => hend 0 (.inl ⟨h, rfl⟩), fun h => hend 1 (.inr ⟨h, rfl⟩)⟩
  · intro env m0 m1 y
    have heq := Mod.drainPass_eq ecc hl hb hs hc hph hd hu hps
    have hleft := m0.deferredGo_left b g st ps ecc
    obtain ⟨n1, hn1⟩ : ∃ n1, n1 = m0.deferredGo b g st ps ecc := ⟨_, rfl⟩
    rw [← hn1] at hleft
    have hgo := n1.drainSettle_goesOn ecc
    have hstep : st.step = n := Mod.histOf_step hs
    refine ⟨{ s with m := n1.drainSettle ecc }, exec_unit_eq rfl hr (hn1 ▸ heq), fun hw => ?_, fun hw => ?_, fun hne => ?_⟩
    · obtain ⟨hledger, hpass⟩ := hleft.waits hw
      have hsame : n1.drainSettle ecc = n1 :=
        n1.drainSettle_waits ecc hleft.drainStep ⟨(n, b), hledger ▸ (show (n, b) ∈ s.m.step.ledger from hl ▸ List.mem_cons_self), rfl⟩
      dsimp only
      rw [hsame]
      exact ⟨hledger, hpass, hleft.plt⟩
    · obtain ⟨hledger, hpass⟩ := hleft.ends hw
      refine ⟨(hgo.ledger.trans hledger).trans ?_, (hgo.pass g.unit).trans hpass⟩
      have hm0 : m0.step.ledger = (n, b) :: rest := hl
      rw [hm0, hstep]
      exact List.filter_cons_of_neg (by simp)
    · exact hgo.goesOn (fun h => hne (hgo.ledger.trans h)) hleft.phase hleft.draining
  · obtain ⟨h1, h2, h3⟩ := Mod.reconcileCopy_spec ecc hb hrec
    obtain ⟨hphase, hledger, hdraining, -, -, hact⟩ := h3.minor.stands
    have hend := Mod.actionsEnd_sameBut (s.m.reconcileCopy b ecc)
    have hcopy := s.m.reconcileCopy_sameBut b ecc
    refine ⟨{ s with m := (s.m.reconcileCopy b ecc).actionsEnd }, exec_unit_eq rfl hr rfl, fun x => ?_, ?_, ?_, ?_, fun hone hdr hph ht => ?_⟩
    · dsimp only
      rw [hend.groom (by decide), h1, mem_setDel]
      exact and_comm
    · dsimp only
      rw [hend.groomUnit (by decide), h2]
    · exact (Mod.actionsEnd_ledger _).trans hledger
    · exact (hend.plt (by decide)).trans (hcopy.plt (by decide))
    · refine Mod.actionsEnd_over _ (hphase.trans hph) ?_ (hdraining.trans hdr) ?_
      · rw [h1, hone]
        simp [setDel]
      · rw [hact, hcopy.tick (by decide)]
        exact ht

end Sys2Proof.Machine
end

section
/-! PROOF. Merging a watch partial (05_numeric_watch.md R131, R132). -/

namespace Sys2Proof.Machine

/-! ### Writes after what leaves reads alone -/

section
variable {m n : Mod}

theorem Mod.quiet.withMem (h : Mod.quiet m n) (x : MemUnit) : Mod.quiet { m with mem := x } { n with mem := x } := ⟨rfl, h.plt, h.run, h.keys⟩

theorem Mod.quiet.discards (h : Mod.quiet m n) (l : Loc) : n.discards l = m.discards l := by
  cases l with
  | hbm k => simp only [Mod.discards, Mod.stackFailed, h.keys _ isKey_stack]
  | loft k => simp only [Mod.discards, Mod.loftLost, h.mem]
  | reserved => rfl

theorem Mod.quiet.putByte (h : Mod.quiet m n) (l : Loc) (v : Byte) : Mod.quiet (m.putByte l v) (n.putByte l v) := by
  unfold Mod.putByte
  rw [h.discards]
  split
  · exact h
  · cases l with
    | hbm k => exact h.mem ▸ h.withMem _
    | loft k => exact h.mem ▸ h.withMem _
    | reserved => exact h

theorem Mod.quiet.unmarkLoc (h : Mod.quiet m n) (l : Loc) : Mod.quiet (m.unmarkLoc l) (n.unmarkLoc l) := by
  unfold Mod.unmarkLoc
  rw [h.discards]
  split
  · exact h
  · cases l with
    | hbm k => exact h.mem ▸ h.withMem _
    | loft k => exact h.mem ▸ h.withMem _
    | reserved => exact h

theorem Mod.quiet.putBytes (h : Mod.quiet m n) (loc : Nat → Loc) (a : Nat) (data : List (Option Byte)) :
    Mod.quiet (Mod.putBytes loc m a data) (Mod.putBytes loc n a data) := by
  induction data generalizing m n a with
  | nil => exact h
  | cons x xs ih =>
    cases x with
    | none => exact ih h _
    | some b => exact ih (h.putByte _ _) _

theorem Mod.quiet.writeAt (h : Mod.quiet m n) (loc : Nat → Loc) (a : Nat) (data : List (Option Byte)) :
    Mod.quiet (Mod.writeAt loc m a data) (Mod.writeAt loc n a data) := by
  have hp := h.putBytes loc a data
  unfold Mod.writeAt
  dsimp only
  generalize Mod.putBytes loc m a data = m1 at hp ⊢
  generalize Mod.putBytes loc n a data = n1 at hp ⊢
  generalize fullSectors a data.length = ss
  induction ss generalizing m1 n1 with
  | nil => exact hp
  | cons s ss ih =>
    refine ih _ _ ?_
    dsimp only
    split
    · exact hp.unmarkLoc _
    · exact hp

theorem Mod.quiet.devWrite (h : Mod.quiet m n) (a : Nat) (data : List Byte) : (n.devWrite a data).mem = (m.devWrite a data).mem := by
  have hloc : n.locate = m.locate := funext h.locate
  rw [Mod.devWrite, hloc]
  exact (h.writeAt m.locate a _).mem

end

/-! ### Events of the watch -/

section
variable (m : Mod)

theorem Mod.numEvent_quiet (code id d1 d2 : Nat) : Mod.quiet m (m.numEvent code id d1 d2) := .of (m.numEvent_sameBut code id d1 d2) rfl

/-- An event of the watch with its sticky bit. -/
theorem Mod.stickyEvent_quiet (f : Fld) (hf : f.reg = Reg.NUM_STICKY) (v code id d1 d2 : Nat) : Mod.quiet m ((m.fset f v).numEvent code id d1 d2) :=
  (m.fset_quiet f v 0 0 (by rw [hf]; decide)).trans (Mod.numEvent_quiet _ _ _ _ _)

theorem Mod.watchEvents_quiet (id : Nat) (r : WatchRec) (scale : Nat) : Mod.quiet m (m.watchEvents id r scale) := by
  unfold Mod.watchEvents
  extract_lets sat zr m1 m2 m3
  have h1 : Mod.quiet m m1 := by
    change Mod.quiet m (if _ then _ else _)
    split
    · exact m.stickyEvent_quiet Fld.NUM_STICKY_NONFINITE rfl _ _ _ _ _
    · exact .refl m
  have h2 : Mod.quiet m1 m2 := by
    change Mod.quiet m1 (if _ then _ else _)
    split
    · exact m1.numEvent_quiet _ _ _ _
    · exact .refl m1
  have h3 : Mod.quiet m2 m3 := by
    change Mod.quiet m2 (if _ then _ else _)
    split
    · exact m2.numEvent_quiet _ _ _ _
    · exact .refl m2
  split
  · exact ((h1.trans h2).trans h3).trans (m3.stickyEvent_quiet Fld.NUM_STICKY_CLAMPED rfl _ _ _ _ _)
  · exact (h1.trans h2).trans h3

end

/-! ### The merge -/

/-- The record a partial joins: the open one, or one that starts from zero. -/
def WatchRec.joined (r p : WatchRec) (source : Nat) : WatchRec := if r.flags.testBit 0 || r.step != p.step then r.reopen p.step source else r

/-- A partial joined to a record that goes on, or to one that starts from zero. -/
theorem WatchRec.join_spec (fresh : Bool) (r p : WatchRec) (source : Nat) :
    ((if fresh then r.reopen p.step source else r).join p).total = (if fresh then 0 else r.total) + p.total
      ∧ ((if fresh then r.reopen p.step source else r).join p).zeros = (if fresh then 0 else r.zeros) + p.zeros
      ∧ ((if fresh then r.reopen p.step source else r).join p).sats = (if fresh then 0 else r.sats) + p.sats
      ∧ ((if fresh then r.reopen p.step source else r).join p).nonfin = (if fresh then 0 else r.nonfin) + p.nonfin
      ∧ ((if fresh then r.reopen p.step source else r).join p).amax = (if fresh then p.amax else max r.amax p.amax)
      ∧ ((if fresh then r.reopen p.step source else r).join p).scale = r.scale
      ∧ ((if fresh then r.reopen p.step source else r).join p).step = (if fresh then p.step else r.step) := by
  cases fresh with
  | true => exact ⟨rfl, rfl, rfl, rfl, Nat.zero_max _, rfl, rfl⟩
  | false => exact ⟨rfl, rfl, rfl, rfl, rfl, rfl, rfl⟩

theorem WatchRec.complete_spec (r : WatchRec) (t : TensorRec) (row : Bool) :
    (r.complete t row).total = r.total ∧ (r.complete t row).flags.testBit 0 = true ∧ (r.complete t row).prev = r.scale := by
  have hbit : ∀ a b : Nat, (a ||| b ||| 1).testBit 0 = true := fun a b => by simp
  unfold WatchRec.complete
  dsimp only
  split_ifs <;> exact ⟨rfl, hbit _ _, rfl⟩

/-- `n` is `m` with a record merged into `r` for the partial `p` and stored at `a`: joined, complete, or overcounted. -/
structure Mod.merged (m : Mod) (a : Nat) (d : TensorRec) (r p q : WatchRec) (n : Mod) : Prop where
  mem : n.mem = (m.devWrite a q.bytes).mem
  below : r.total + p.total < d.elements → q = r.join p
  full : r.total + p.total = d.elements → ∃ row, q = (r.join p).complete d row
  above : d.elements < r.total + p.total → q = r.flag 4 ∧ n.fget Fld.NUM_STICKY_OVERCOUNT = 1

section
variable {m : Mod} {tensor source : Nat} {p r : WatchRec} {d : TensorRec}

/-- What a merge stores, by the total it reaches; an overcount is shown. -/
theorem Mod.watchMerge_merged (hw : m.hasWatch = true) (ht : m.tensor? tensor = some d)
    (hp : rdPoison (m.devRead (Mod.watchMerge.regionBase m.regions .watch + 64 * tensor) 64) = false)
    (hr : WatchRec.ofBytes (rdBytes (m.devRead (Mod.watchMerge.regionBase m.regions .watch + 64 * tensor) 64)) = r) :
    ∃ q, Mod.merged m (Mod.watchMerge.regionBase m.regions .watch + 64 * tensor) d (r.joined p source) p q (m.watchMerge tensor p source noEcc) := by
  unfold Mod.watchMerge
  rw [hw, if_pos rfl]
  split
  · rename_i h
    exact nomatch ht.symm.trans h
  · rename_i t h
    obtain rfl : d = t := Option.some.inj (ht.symm.trans h)
    extract_lets a rd m0 r' isDone opens m1 r1 r2 r3
    have h0 : Mod.quiet m m0 := m.unitRead_quiet true a 64
    have hread : rd.2 = m.devRead a 64 := by
      have hq := m.loftMet_quiet true [(a, 64)]
      have e : m.readDev true [(a, 64)] noEcc = m.loftMet true [(a, 64)] := congrArg (Mod.loftMet · true [(a, 64)]) (m.eccDev_noEcc true [(a, 64)])
      have e2 : rd.2 = (m.readDev true [(a, 64)] noEcc).devRead a 64 := rfl
      rw [e2, e, hq.devRead]
    have hr' : r' = r := by rw [← hr, ← hread]
    have h1 : Mod.quiet m m1 := by
      refine h0.trans ?_
      change Mod.quiet m0 (if _ then _ else _)
      split
      · exact m0.stickyEvent_quiet Fld.NUM_STICKY_INCOMPLETE rfl _ _ _ _ _
      · exact .refl m0
    have hr1 : r1 = r.joined p source := by
      change (if isDone || r'.step != p.step then r'.reopen p.step source else r') = _
      rw [WatchRec.joined, ← hr']
    have hpois : ¬rdPoison rd.2 = true := by rw [hread, hp]; decide
    rw [if_neg hpois, ← hr1]
    clear_value m1 r1
    have htotal : r2.total = r1.total + p.total := rfl
    have hq := (m1.stickyEvent_quiet Fld.NUM_STICKY_OVERCOUNT rfl 1 0x0505 tensor p.total p.step)
    split_ifs
    · refine ⟨r1.flag 4, (h1.trans hq).devWrite a _, fun h => (by omega), fun h => (by omega), fun _ => ⟨rfl, ?_⟩⟩
      rw [(Mod.devWrite_sameBut _ a _).fget (by decide), (Mod.numEvent_sameBut _ _ _ _ _).fget (by decide)]
      exact Mod.fget_fset_same m1 Fld.NUM_STICKY_OVERCOUNT 1 0 0 (by decide)
    · exact ⟨r3, (h1.trans (m1.watchEvents_quiet _ _ _)).devWrite a _, fun h => (by omega), fun _ => ⟨_, rfl⟩, fun h => (by omega)⟩
    · exact ⟨r3, (h1.trans (m1.watchEvents_quiet _ _ _)).devWrite a _, fun h => (by omega), fun _ => ⟨_, rfl⟩, fun h => (by omega)⟩
    · exact ⟨r2, h1.devWrite a _, fun _ => rfl, fun h => (by omega), fun h => (by omega)⟩

end

/-- Settles O37: the record read is joined, completed or flagged by the total it reaches, and nothing read changes before it is stored. -/
theorem watchMerge : Obligations.WatchMerge := by
  unfold Obligations.WatchMerge
  intro s tensor part d hr hw ht a r p hloc hp fresh total
  obtain ⟨q, hmem, hopen, hfull, hover⟩ := Mod.watchMerge_merged (p := p) (source := (p.flags / 32) % 2) hw ht hp rfl
  have hjoin : r.joined p ((p.flags / 32) % 2) = if fresh then r.reopen p.step ((p.flags / 32) % 2) else r := rfl
  have htotal : (r.joined p ((p.flags / 32) % 2)).total = if fresh then 0 else r.total := by rw [hjoin]; split <;> rfl
  have hscale : (r.joined p ((p.flags / 32) % 2)).scale = r.scale := by rw [hjoin]; split <;> rfl
  refine ⟨{ s with m := s.m.watchMerge tensor p ((p.flags / 32) % 2) noEcc }, q, exec_unit_eq rfl hr rfl, hmem, fun h => ?_, fun h => ?_, fun h => ?_⟩
  · rw [hopen (htotal ▸ h), hjoin]
    exact WatchRec.join_spec fresh r p _
  · obtain ⟨row, rfl⟩ := hfull (htotal ▸ h)
    obtain ⟨h1, h2, h3⟩ := ((r.joined p ((p.flags / 32) % 2)).join p).complete_spec d row
    exact ⟨h1.trans (congrArg (· + p.total) htotal), h2, h3.trans hscale⟩
  · obtain ⟨rfl, h2⟩ := hover (htotal ▸ h)
    exact ⟨htotal, hscale, h2⟩

end Sys2Proof.Machine
end

section
/-! PROOF. Host accesses through BAR2 (10_memory_tiers.md R247, R248, R259; 14_host_interface.md R364, R365, R371). -/

namespace Sys2Proof.Machine

/-! ### Where accesses lead -/

/-- `n` maps addresses as `m` does and holds requests at the same ports. -/
structure Mod.alike (m n : Mod) : Prop where
  plt : n.plt = m.plt
  ports : n.mem.loftPorts = m.mem.loftPorts
  keys : ∀ g : Fld, g.isKey → ∀ a b, n.fget g a b = m.fget g a b

theorem isKey_portState : Fld.isKey Fld.LFT_PORT_STATUS_STATE := by
  refine ⟨fun a b => ?_, by decide, by decide⟩
  simp only [Fld.LFT_PORT_STATUS_STATE, RegSpec.addr, Reg.LFT_PORT_STATUS]
  omega

section
variable {l m n : Mod}

theorem Mod.alike.trans (h1 : Mod.alike l m) (h2 : Mod.alike m n) : Mod.alike l n :=
  ⟨h2.plt.trans h1.plt, h2.ports.trans h1.ports, fun g hg a b => (h2.keys g hg a b).trans (h1.keys g hg a b)⟩

theorem Mod.quiet.alike (h : Mod.quiet m n) : Mod.alike m n := ⟨h.plt, by rw [h.mem], h.keys⟩

theorem Mod.alike.region? (h : Mod.alike m n) (a : Nat) : n.region? a = m.region? a := by
  simp only [Mod.region?, Mod.regions, Mod.plate?, h.plt]

theorem Mod.alike.locate (h : Mod.alike m n) (a : Nat) : n.locate a = m.locate a := by
  have hcap : n.loftCap = m.loftCap := funext fun c => by rw [Mod.loftCap, h.ports, Mod.loftCap]
  have hset : n.loftSet = m.loftSet := by rw [Mod.loftSet, h.keys _ isKey_set, Mod.loftSet]
  have hserve : n.loftServe = m.loftServe := funext fun a => by rw [Mod.loftServe, h.keys _ isKey_mode, hset, hcap, Mod.loftServe]
  simp only [Mod.locate, h.region?, Mod.loftLoc, hserve, Mod.sel, h.plt]

theorem Mod.alike.bar2Void (h : Mod.alike m n) (a : Nat) : n.bar2Void a = m.bar2Void a := by
  simp only [Mod.bar2Void, h.locate, h.region?, Mod.plateActive, h.plt]

theorem Mod.alike.bar2Loc (h : Mod.alike m n) : n.bar2Loc = m.bar2Loc := funext fun a => by
  rw [Mod.bar2Loc, h.bar2Void, h.locate, Mod.bar2Loc]

theorem Mod.alike.heldPort (h : Mod.alike m n) (a k : Nat) : n.heldPort a k = m.heldPort a k := by
  simp only [Mod.heldPort, h.locate, h.keys _ isKey_portState, h.ports]

theorem Mod.alike.shadowOf (h : Mod.alike m n) (a : Nat) : n.shadowOf a = m.shadowOf a := by
  simp only [Mod.shadowOf, h.region?]

end

section
variable (m : Mod) (loc : Nat → Loc)

theorem Mod.putByte_ports (l : Loc) (v : Byte) : (m.putByte l v).mem.loftPorts = m.mem.loftPorts := by
  unfold Mod.putByte
  split
  · rfl
  · split <;> rfl

theorem Mod.unmarkLoc_ports (l : Loc) : (m.unmarkLoc l).mem.loftPorts = m.mem.loftPorts := by
  unfold Mod.unmarkLoc
  split
  · rfl
  · split <;> rfl

theorem Mod.putBytes_ports (a : Nat) (data : List (Option Byte)) : (Mod.putBytes loc m a data).mem.loftPorts = m.mem.loftPorts := by
  induction data generalizing m a with
  | nil => rfl
  | cons x xs ih =>
    cases x with
    | none => exact ih _ _
    | some b => exact (ih _ _).trans (m.putByte_ports _ _)

theorem Mod.writeAt_ports (a : Nat) (data : List (Option Byte)) : (Mod.writeAt loc m a data).mem.loftPorts = m.mem.loftPorts := by
  unfold Mod.writeAt
  refine List.foldlRecOn (motive := fun n : Mod => n.mem.loftPorts = m.mem.loftPorts) _ _ (Mod.putBytes_ports m loc a data) fun n hn s _ => ?_
  split
  · exact (n.unmarkLoc_ports _).trans hn
  · exact hn

/-- A write of device memory leaves what maps addresses. -/
theorem Mod.writeAt_alike (a : Nat) (data : List (Option Byte)) : Mod.alike m (Mod.writeAt loc m a data) := by
  have h := Mod.writeAt_sameBut loc m a data
  exact ⟨h.plt (by decide), m.writeAt_ports loc a data, fun g _ i j => h.fget (by decide) g i j⟩

end

/-! ### Bytes stored in HBM -/

/-- `n` is `m` with the selected bytes of `data` stored in HBM at `a`, and no other byte changed. -/
def MemUnit.stored (a : Nat) (data : List (Option Byte)) (m n : MemUnit) : Prop :=
  (∀ i b, data[i]? = some (some b) → n.hbm.get (a + i) = b) ∧ (∀ i, data[i]? = some none → n.hbm.get (a + i) = m.hbm.get (a + i))
    ∧ (∀ k, k < a ∨ a + data.length ≤ k → n.hbm.get k = m.hbm.get k) ∧ n.loft = m.loft ∧ n.sram = m.sram

section
variable {m : Mod} {loc : Nat → Loc} {a : Nat} {data : List (Option Byte)}

theorem Mod.putByte_hbm {k : Nat} (h : m.stackFailed k = false) (v : Byte) :
    m.putByte (.hbm k) v = { m with mem := { m.mem with hbm := m.mem.hbm.set k v } } := by
  rw [Mod.putByte]
  exact if_neg (by rw [Mod.discards, h]; decide)

theorem Mod.putBytes_stored (hl : ∀ i, i < data.length → loc (a + i) = .hbm (a + i)) (hs : ∀ i, i < data.length → m.stackFailed (a + i) = false) :
    MemUnit.stored a data m.mem (Mod.putBytes loc m a data).mem := by
  induction data generalizing m a with
  | nil => exact ⟨fun _ _ h => (nomatch h), fun _ h => (nomatch h), fun _ _ => rfl, rfl, rfl⟩
  | cons x xs ih =>
    have hlen : (x :: xs).length = xs.length + 1 := rfl
    have hl' : ∀ i, i < xs.length → loc (a + 1 + i) = .hbm (a + 1 + i) := fun i hi => by
      rw [Nat.add_assoc, Nat.add_comm 1 i]
      exact hl (i + 1) (by omega)
    have hs' : ∀ i, i < xs.length → m.stackFailed (a + 1 + i) = false := fun i hi => by
      rw [Nat.add_assoc, Nat.add_comm 1 i]
      exact hs (i + 1) (by omega)
    have hshift : ∀ i, a + 1 + i = a + (i + 1) := fun i => by omega
    cases x with
    | none =>
      obtain ⟨h1, h2, h3, h4, h5⟩ := ih hl' hs'
      refine ⟨fun i b h => ?_, fun i h => ?_, fun k hk => h3 k (by omega), h4, h5⟩
      · cases i with
        | zero => simp at h
        | succ i => exact hshift i ▸ h1 i b h
      · cases i with
        | zero => exact h3 a (by omega)
        | succ i => exact hshift i ▸ h2 i h
    | some v =>
      have h0 : m.putByte (loc a) v = { m with mem := { m.mem with hbm := m.mem.hbm.set a v } } := by
        have e := hl 0 (by omega)
        have hs0 : m.stackFailed a = false := hs 0 (by omega)
        rw [Nat.add_zero] at e
        rw [e, Mod.putByte_hbm hs0]
      obtain ⟨h1, h2, h3, h4, h5⟩ := ih (m := m.putByte (loc a) v) (a := a + 1) hl' (fun i hi => by rw [h0]; exact hs' i hi)
      have hmem : (m.putByte (loc a) v).mem = { m.mem with hbm := m.mem.hbm.set a v } := by rw [h0]
      rw [hmem] at h2 h3 h4 h5
      have hother : ∀ k, k ≠ a → (m.mem.hbm.set a v).get k = m.mem.hbm.get k := fun k hk => Memory.get_set_other _ _ hk
      refine ⟨fun i b h => ?_, fun i h => ?_, fun k hk => (h3 k (by omega)).trans (hother k (by omega)), h4, h5⟩
      · cases i with
        | zero =>
          obtain rfl : v = b := by simpa using h
          exact (h3 a (by omega)).trans (Memory.get_set_same _ _ _)
        | succ i => exact hshift i ▸ h1 i b h
      · cases i with
        | zero => simp at h
        | succ i => exact hshift i ▸ (h2 i h).trans (hother _ (by omega))

theorem mem_fullSectors {a n s : Nat} (h : s ∈ fullSectors a n) : a ≤ s ∧ s + 64 ≤ a + n := by
  simp only [fullSectors, List.mem_map, List.mem_range] at h
  obtain ⟨i, hi, rfl⟩ := h
  omega

/-- Marks taken off sectors of HBM leave every byte. -/
theorem Mod.writeAt_stored (hl : ∀ i, i < data.length → loc (a + i) = .hbm (a + i)) (hs : ∀ i, i < data.length → m.stackFailed (a + i) = false) :
    MemUnit.stored a data m.mem (Mod.writeAt loc m a data).mem := by
  unfold Mod.writeAt
  refine List.foldlRecOn (motive := fun n : Mod => MemUnit.stored a data m.mem n.mem) _ _ (Mod.putBytes_stored hl hs) fun n hn s hmem => ?_
  split
  · have hrange := mem_fullSectors hmem
    have hloc : loc s = .hbm s := by
      have e := hl (s - a) (by omega)
      rwa [Nat.add_sub_cancel' hrange.1] at e
    rw [hloc, Mod.unmarkLoc]
    split
    · exact hn
    · exact hn
  · exact hn

end

/-! ### Addresses with no plate active -/

section
variable {m : Mod} (h : m.plateActive = false)
include h

theorem Mod.region?_of_inactive (a : Nat) : m.region? a = none := by
  have hp : m.plate? = none := by
    rw [Mod.plate?, show m.plt.active = none by simpa [Mod.plateActive] using h]
    rfl
  rw [Mod.region?, Mod.regions, hp]
  rfl

theorem Mod.locate_hbm {a : Nat} (ha : a < hbmSize) : m.locate a = .hbm a := by
  rw [Mod.locate, if_pos ha, Mod.region?_of_inactive h]

theorem Mod.bar2Void_hbm {a : Nat} (ha : a < hbmSize) : m.bar2Void a = false := by
  rw [Mod.bar2Void, Mod.locate_hbm h ha, h]
  rfl

theorem Mod.bar2Loc_hbm {a : Nat} (ha : a < hbmSize) : m.bar2Loc a = .hbm a := by
  rw [Mod.bar2Loc, Mod.bar2Void_hbm h ha, Mod.locate_hbm h ha]
  rfl

theorem Mod.heldPort_hbm {a n : Nat} (ha : a + n ≤ hbmSize) : m.heldPort a n = none := by
  unfold Mod.heldPort
  extract_lets port
  split
  · rfl
  · rename_i hn
    have hport : ∀ x < hbmSize, port x = none := fun x hx => by
      change (match m.locate x with | .loft k => _ | _ => _) = none
      rw [Mod.locate_hbm h hx]
    rw [List.head?_eq_none_iff, List.filterMap_eq_nil_iff]
    intro i hi
    rw [List.mem_range] at hi
    refine hport _ (Nat.lt_of_lt_of_le (Nat.max_lt.mpr ⟨by omega, ?_⟩) ha)
    omega

omit h in
theorem Mod.locate_reserved {a : Nat} (h1 : hbmSize ≤ a) (h2 : a < loftBase) : m.locate a = .reserved := by
  rw [Mod.locate, if_neg (by omega), if_neg (by omega)]

omit h in
theorem Mod.bar2Loc_reserved {a : Nat} (h1 : hbmSize ≤ a) (h2 : a < loftBase) : m.bar2Loc a = .reserved := by
  rw [Mod.bar2Loc, Mod.locate_reserved h1 h2]
  exact ite_self _

end

/-! ### Writes -/

section
variable (m : Mod) {a : Nat} {data : List (Option Byte)}

/-- A write that a controller serves at once. -/
theorem Mod.putOrHold_served (hv : m.bar2Void a = false) (hp : m.heldPort a data.length = none) :
    m.putOrHold a data noEcc = Mod.writeAt m.bar2Loc m a data := by
  rw [Mod.putOrHold, if_neg (by rw [hv]; decide), hp]
  dsimp only
  rw [Mod.eccDev_noEcc]

/-- A write outside the slot regions, its request not void. -/
theorem Mod.bar2WriteAt_served (hs : slotOf a = none) (hv : m.bar2Void a = false) (hp : m.heldPort a data.length = none) (m1 : Mod)
    (hm1 : m1 = Mod.writeAt (m.yard .host a data.length true).bar2Loc (m.yard .host a data.length true) a data) :
    (m.shadowOf a = none → m.bar2WriteAt a data noEcc = m1) ∧
    (∀ y, m.shadowOf a = some y → m.bar2Void y = false → m.heldPort y data.length = none →
      m.bar2WriteAt a data noEcc = Mod.writeAt m1.bar2Loc m1 y data) := by
  have hy := (m.yard_quiet .host a data.length true).alike
  have h1 : (m.yard .host a data.length true).putOrHold a data noEcc = m1 := by
    rw [Mod.putOrHold_served _ ((hy.bar2Void a).trans hv) ((hy.heldPort a _).trans hp), hm1]
  have hm : Mod.alike m m1 := hy.trans (hm1 ▸ Mod.writeAt_alike _ _ a data)
  have hb : m.bar2WriteAt a data noEcc = match m1.shadowOf a with
      | some y => m1.putOrHold y data noEcc
      | none => m1 := by
    rw [Mod.bar2WriteAt, hs]
    dsimp only
    rw [if_neg (by rw [hv]; decide), h1] <;> rfl
  refine ⟨fun h => ?_, fun y h hyv hyp => ?_⟩
  · rw [hb, hm.shadowOf, h]
  · rw [hb, hm.shadowOf, h]
    exact m1.putOrHold_served ((hm.bar2Void y).trans hyv) ((hm.heldPort y _).trans hyp)

/-- A write to a slot that is LOADING. -/
theorem Mod.bar2WriteAt_loading {slot : Nat} (hs : slotOf a = some slot) (hl : (m.plt.slot slot).st = .loading) :
    m.bar2WriteAt a data noEcc = Mod.writeAt Loc.hbm (m.yard .host a data.length true) a data := by
  rw [Mod.bar2WriteAt, hs]
  dsimp only
  rw [if_pos hl, Mod.eccDev_noEcc]

theorem Mod.yard_stored {loc : Nat → Loc} (hl : ∀ i, i < data.length → loc (a + i) = .hbm (a + i)) (hs : ∀ i, i < data.length → m.stackFailed (a + i) = false) :
    MemUnit.stored a data m.mem (Mod.writeAt loc (m.yard .host a data.length true) a data).mem := by
  have hy := m.yard_quiet .host a data.length true
  rw [← hy.mem]
  exact Mod.writeAt_stored hl fun i hi => by
    rw [Mod.stackFailed, hy.keys _ isKey_stack, ← Mod.stackFailed, hs i hi]

/-- A write to a slot that is not LOADING changes no memory. -/
theorem Mod.bar2WriteAt_refused_mem {slot : Nat} (hs : slotOf a = some slot) (hl : (m.plt.slot slot).st ≠ .loading) :
    (m.bar2WriteAt a data noEcc).mem = m.mem := by
  rw [Mod.bar2WriteAt, hs]
  dsimp only
  rw [if_neg hl, (Mod.raise_sameBut _ _ _ _ _ _ _).mem (by decide), (Mod.fset_sameBut _ _ _ _ _).mem (by decide)]

/-- With no plate active a write below the slot regions is stored at its stack-linear addresses. -/
theorem Mod.bar2WriteAt_stored (ha : m.plateActive = false) (hsize : a + data.length ≤ slotBase)
    (hf : ∀ i, i < data.length → m.stackFailed (a + i) = false) : MemUnit.stored a data m.mem (m.bar2WriteAt a data noEcc).mem := by
  have hb : slotBase < hbmSize := by decide
  have hy := (m.yard_quiet .host a data.length true).alike
  cases hs : slotOf a with
  | none =>
    have hw := (m.bar2WriteAt_served (data := data) hs (Mod.bar2Void_hbm ha (by omega)) (Mod.heldPort_hbm ha (by omega)) _ rfl).1
      (by rw [Mod.shadowOf, Mod.region?_of_inactive ha])
    rw [hw, hy.bar2Loc]
    exact m.yard_stored (fun i hi => Mod.bar2Loc_hbm ha (by omega)) hf
  | some slot =>
    have hzero : data = [] := by
      have : ¬a < slotBase := fun h => by simp [slotOf, show ¬slotBase ≤ a by omega, show ¬slotBase + slotSize ≤ a by omega] at hs
      exact List.length_eq_zero_iff.mp (by omega)
    subst hzero
    by_cases hl : (m.plt.slot slot).st = .loading
    · rw [m.bar2WriteAt_loading hs hl]
      exact m.yard_stored (fun _ _ => rfl) hf
    · rw [m.bar2WriteAt_refused_mem hs hl]
      exact ⟨fun _ _ h => (nomatch h), fun _ h => (nomatch h), fun _ _ => rfl, rfl, rfl⟩

/-- A void write outside the slots has no effect. -/
theorem Mod.bar2WriteAt_void (hs : slotOf a = none) (hv : m.bar2Void a = true) (hsh : m.shadowOf a = none) : m.bar2WriteAt a data noEcc = m := by
  have h1 : m.putOrHold a data noEcc = m := if_pos hv
  rw [Mod.bar2WriteAt, hs]
  dsimp only
  rw [if_pos hv, h1, hsh]

end

/-- Settles O38: watchpoints apart, a served write is the write of its bytes at the live place and at the shadow's. -/
theorem hostWrites : Obligations.HostWrites := by
  unfold Obligations.HostWrites
  intro s off data hup hfit a stored
  have hexec : exec (.bar2Write off data noEcc none) s = .next { s with m := s.m.bar2WriteAt a data noEcc } := exec_on rfl (by simp [hup, hfit, a])
  refine ⟨fun ha hsize hf => ⟨_, hexec, s.m.bar2WriteAt_stored ha hsize hf⟩, fun slot hs hl hf => ⟨_, hexec, ?_⟩, fun hs hv hp => ?_, fun hs hv hsh => ?_⟩
  · have e := s.m.bar2WriteAt_loading (data := data) hs hl
    dsimp only [stored]
    rw [e]
    exact s.m.yard_stored (fun _ _ => rfl) hf
  · intro m1 m2
    obtain ⟨h1, h2⟩ := s.m.bar2WriteAt_served hs hv hp m2 rfl
    have hplt := (s.m.bar2WriteAt_sameBut a data noEcc .host).plt (by decide)
    exact ⟨fun hsh => ⟨_, hexec, congrArg Mod.mem (h1 hsh), hplt⟩, fun y hsh hyv hyp => ⟨_, hexec, congrArg Mod.mem (h2 y hsh hyv hyp), hplt⟩⟩
  · rw [hexec, s.m.bar2WriteAt_void hs hv hsh]

end Sys2Proof.Machine
end

section
/-! PROOF. Host reads through BAR2, and TLPs with an error (14_host_interface.md R364, R365, R371). -/

namespace Sys2Proof.Machine

/-! ### Reads -/

section
variable {m : Mod} {a n : Nat}

theorem Mod.quiet.bar2Bytes {k : Mod} (h : Mod.quiet m k) (a n : Nat) : k.bar2Bytes a n = m.bar2Bytes a n := by
  simp only [Mod.bar2Bytes, h.alike.bar2Loc, h.byteAt]

/-- A read answered at once: it returns what stands at each place, and changes no memory. -/
theorem Mod.bar2ReadAt_spec (h : m.bar2Void a = true ∨ m.heldPort a n = none) : (m.bar2ReadAt a n noEcc).mem = m.mem
    ∧ (m.bar2ReadAt a n noEcc).host.out = m.host.out ++ [.completion (m.bar2Bytes a n)] := by
  have hwait : (if m.bar2Void a then none else m.heldPort a n) = none := by
    split
    · rfl
    · rename_i hv
      exact h.resolve_left hv
  unfold Mod.bar2ReadAt
  rw [hwait]
  extract_lets m1
  have hq : Mod.quiet m m1 := by
    change Mod.quiet m (if _ then _ else _)
    split
    · exact .refl m
    · have hy := m.yard_quiet .host a n false
      have e : (m.yard .host a n false).readDev false [(a, n)] noEcc = (m.yard .host a n false).loftMet false [(a, n)] :=
        congrArg (Mod.loftMet · false [(a, n)]) (Mod.eccDev_noEcc _ false [(a, n)])
      rw [e]
      exact hy.trans (Mod.loftMet_quiet _ _ _)
  have hhost : m1.host = m.host := by
    change (if _ then _ else _ : Mod).host = _
    split
    · rfl
    · rw [(Mod.readDev_sameBut _ _ _ _).host (by decide), (m.yard_sameBut _ _ _ _).host (by decide)]
  refine ⟨hq.mem, ?_⟩
  rw [← hq.bar2Bytes, ← hhost]
  rfl

theorem Mod.bar2Bytes_hbm (h : m.plateActive = false) (ha : a + n ≤ hbmSize) : m.bar2Bytes a n = (List.range n).map (fun i =>
    if m.mem.hbm.poison.contains ((a + i) / 64) || m.stackFailed (a + i) then 0xFF else m.mem.hbm.get (a + i)) :=
  List.map_congr_left fun i hi => by
    have hlt : a + i < hbmSize := by
      have := List.mem_range.mp hi
      omega
    rw [Mod.bar2Loc_hbm h hlt]
    rfl

theorem Mod.bar2Bytes_reserved (h1 : hbmSize ≤ a) (h2 : a + n ≤ loftBase) : m.bar2Bytes a n = List.replicate n 0xFF := by
  rw [List.eq_replicate_iff]
  refine ⟨by simp [Mod.bar2Bytes], fun b hb => ?_⟩
  obtain ⟨i, hi, rfl⟩ := List.mem_map.mp hb
  have hlt := List.mem_range.mp hi
  rw [Mod.bar2Loc_reserved (by omega) (by omega)]
  rfl

end

/-! ### TLPs with an error -/

section
variable (m : Mod) (b : TlpBad)

theorem Mod.tlpDiscard_spec : (m.tlpDiscard b).host = (m.aerRecord b).host
    ∧ ((∃ h, b = .unsupported h) → Mod.sameBut [.host] m (m.tlpDiscard b))
    ∧ ((¬∃ h, b = .unsupported h) → Mod.sameBut [.evIn, .host] m (m.tlpDiscard b) ∧ (m.tlpDiscard b).reports .corrected 0x0D03 0 (tlpWords b).1 (tlpWords b).2 0) := by
  have ha : Mod.sameBut [.host] m (m.aerRecord b) := m.sameBut_host _
  have hraise : Mod.sameBut [.evIn, .host] m ((m.aerRecord b).raise .corrected 0x0D03 0 (tlpWords b).1 (tlpWords b).2) :=
    Mod.sameBut_trans (Mod.sameBut_mono ha (by decide)) (Mod.sameBut_mono (Mod.raise_sameBut _ _ _ _ _ _ _) (by decide))
  cases b with
  | ecrc h => exact ⟨rfl, fun ⟨_, e⟩ => (nomatch e), fun _ => ⟨hraise, Mod.raise_reports _ _ _ _ _ _ _⟩⟩
  | poisoned h => exact ⟨rfl, fun ⟨_, e⟩ => (nomatch e), fun _ => ⟨hraise, Mod.raise_reports _ _ _ _ _ _ _⟩⟩
  | unsupported h => exact ⟨rfl, fun _ => ha, fun hn => (hn ⟨h, rfl⟩).elim⟩

theorem Mod.tlpUp_of_bar2Up (h : m.bar2Up = true) (hl : m.host.linkUp = true) : m.tlpUp = true ∧ m.pwr.state ≠ .sleep := by
  simp only [Mod.bar2Up, Bool.and_eq_true, Bool.not_eq_true', bne_iff_ne, ne_eq] at h
  obtain ⟨⟨⟨⟨⟨hmg, -⟩, hperst⟩, -⟩, hsleep⟩, -⟩ := h
  exact ⟨by simp [Mod.tlpUp, hmg, hl, hperst], hsleep⟩

end

section
variable {s : State} {off n : Nat} (ht : s.m.tlpUp = true)
include ht

theorem execBar2Read_served (hs : s.m.pwr.state ≠ .sleep) (hfit : off + n ≤ s.m.bar2Size) (hup : s.m.bar2Up = true) :
    exec (.bar2Read off n noEcc none) s = .next { s with m := s.m.bar2ReadAt (s.m.bar2Base + off) n noEcc } := by
  refine congrArg Host.Outcome.next ?_
  dsimp only
  rw [if_neg (by rw [ht]; decide), if_neg (by rintro (h | h); exacts [hs h, Nat.not_lt.mpr hfit h]), if_pos hup]
  rfl

theorem execBar2Read_discarded (b : TlpBad) (ecc : Ecc) :
    exec (.bar2Read off n ecc (some b)) s = .next { s with m := (s.m.tlpDiscard b).emit (tlpEnd b) } := by
  refine congrArg Host.Outcome.next ?_
  dsimp only
  rw [if_neg (by rw [ht]; decide)]
  rfl

theorem execBar2Write_discarded (b : TlpBad) (ecc : Ecc) (data : List (Option Byte)) :
    exec (.bar2Write off data ecc (some b)) s = .next { s with m := s.m.tlpDiscard b } := by
  exact exec_on rfl (if_pos ht)

end

/-- Settles O39: a served read returns what stands at the places BAR2 maps, and a TLP in error only reaches AER and its event. -/
theorem hostReads : Obligations.HostReads := by
  unfold Obligations.HostReads
  intro s off hup hlink a
  obtain ⟨ht, hsleep⟩ := s.m.tlpUp_of_bar2Up hup hlink
  refine ⟨fun n hfit => ?_, fun b ecc => ?_⟩
  · have hexec := execBar2Read_served ht hsleep hfit hup
    refine ⟨fun ha hsize => ?_, fun hv hp => ?_, fun ha h1 h2 => ?_⟩
    · obtain ⟨hmem, hout⟩ := Mod.bar2ReadAt_spec (a := a) (.inr (Mod.heldPort_hbm ha hsize))
      exact ⟨_, hexec, hmem, Mod.bar2Bytes_hbm ha hsize ▸ hout⟩
    · obtain ⟨hmem, hout⟩ := Mod.bar2ReadAt_spec (a := a) (.inr hp)
      exact ⟨_, hexec, hmem, hout⟩
    · by_cases hn : a < loftBase
      · have hv : s.m.bar2Void a = true := by
          rw [Mod.bar2Void, Mod.locate_reserved h1 hn]
          rfl
        obtain ⟨hmem, hout⟩ := Mod.bar2ReadAt_spec (n := n) (.inl hv)
        exact ⟨_, hexec, hmem, Mod.bar2Bytes_reserved (m := s.m) h1 h2 ▸ hout⟩
      · have hzero : n = 0 := by omega
        subst hzero
        obtain ⟨hmem, hout⟩ := Mod.bar2ReadAt_spec (m := s.m) (a := a) (n := 0) (.inr (by simp [Mod.heldPort]))
        exact ⟨_, hexec, hmem, hout⟩
  · intro noted unsupported
    obtain ⟨hhost, hun, hbad⟩ := s.m.tlpDiscard_spec b
    refine ⟨fun data => ⟨_, execBar2Write_discarded ht b ecc data, hhost, fun h => ⟨rfl, rfl, hun h⟩, fun h => ⟨⟨rfl, rfl, (hbad h).1⟩, (hbad h).2⟩⟩, fun n => ?_⟩
    have hemit := Mod.emit_sameBut (s.m.tlpDiscard b) (tlpEnd b)
    refine ⟨{ s with m := (s.m.tlpDiscard b).emit (tlpEnd b) }, execBar2Read_discarded ht b ecc, ?_, fun h => ⟨?_, rfl, rfl, ?_⟩, fun h => ⟨?_, ⟨rfl, rfl, ?_⟩, ?_⟩⟩
    · dsimp only [Mod.emit]
      rw [hhost]
      rfl
    · obtain ⟨w, rfl⟩ := h
      rfl
    · exact Mod.sameBut_trans (hun h) hemit
    · cases b with
      | ecrc w => rfl
      | poisoned w => rfl
      | unsupported w => exact (h ⟨w, rfl⟩).elim
    · exact Mod.sameBut_trans (hbad h).1 (Mod.sameBut_mono hemit (by decide))
    · exact Mod.reports_of_eq rfl rfl (hbad h).2

end Sys2Proof.Machine
end

section
/-! PROOF. Memory errors and lost stacks (10_memory_tiers.md R250, R251, R253). -/

namespace Sys2Proof.Machine

section
variable (m : Mod)

theorem Mod.fget_fsat_same (f : Fld) (n i j : Nat) (h : f.lo ≤ f.hi) (hm : f.max < 2 ^ (f.hi + 1 - f.lo)) :
    (m.fsat f n i j).fget f i j = min (m.fget f i j + n) f.max := by
  rw [Mod.fsat, Mod.fget_fset_same _ _ _ _ _ h]
  exact Nat.mod_eq_of_lt (Nat.lt_of_le_of_lt (Nat.min_le_right _ _) hm)

variable {k : Nat}

/-- A corrected error is counted and raised. -/
theorem Mod.foundCe_spec (hs : m.stackFailed k = false) : (m.foundCe k).mem = m.mem
    ∧ (m.foundCe k).fget Fld.HBM_ECC_CE (k / stackSize) = min (m.fget Fld.HBM_ECC_CE (k / stackSize) + 1) Fld.HBM_ECC_CE.max
    ∧ (m.foundCe k).reports .corrected 0x0901 (k / stackSize) (lo32 (k % stackSize)) (hi32 (k % stackSize)) 0 := by
  have h : m.foundCe k = (m.fsat Fld.HBM_ECC_CE 1 (k / stackSize)).raise .corrected 0x0901 (k / stackSize) (lo32 (k % stackSize)) (hi32 (k % stackSize)) := by
    rw [Mod.foundCe]
    exact if_neg (by rw [hs]; decide)
  refine ⟨(m.foundCe_sameBut k).mem (by decide), ?_, ?_⟩
  · rw [h, Mod.fget_raise, m.fget_fsat_same _ _ _ _ (by decide) (by decide)]
  · rw [h]
    exact Mod.raise_reports _ _ _ _ _ _ _

/-- An error not corrected poisons its sector, is counted, keeps its address and is raised. -/
theorem Mod.foundUe_spec (hk : k < 2 ^ 48) (hs : m.stackFailed k = false) (hp : m.mem.hbm.poison.contains (k / 64) = false) :
    (m.foundUe false k).mem = { m.mem with hbm := m.mem.hbm.mark (k / 64) }
    ∧ (m.foundUe false k).fget Fld.HBM_ECC_UE (k / stackSize) = min (m.fget Fld.HBM_ECC_UE (k / stackSize) + 1) Fld.HBM_ECC_UE.max
    ∧ (m.foundUe false k).get64 Fld.HBM_UE_ADDR_LO_ADDR Fld.HBM_UE_ADDR_HI_ADDR (k / stackSize) = k / 64 * 64
    ∧ (m.foundUe false k).reports .contained 0x0902 (k / stackSize) (lo32 (k / 64 * 64 % stackSize)) (hi32 (k / 64 * 64 % stackSize))
        (m.fget Fld.GRM_STEP_STEP) := by
  have hmark : m.markLoc (.hbm k) = { m with mem := { m.mem with hbm := m.mem.hbm.mark (k / 64) } } := by
    rw [Mod.markLoc]
    exact if_neg (by rw [Mod.discards, hs]; decide)
  obtain ⟨m1, hm1⟩ : ∃ m1, m1 = (m.markLoc (.hbm k)).fsat Fld.HBM_ECC_UE 1 (k / stackSize) := ⟨_, rfl⟩
  have h : m.foundUe false k = (m1.set64 Fld.HBM_UE_ADDR_LO_ADDR Fld.HBM_UE_ADDR_HI_ADDR (k / 64 * 64) (k / stackSize)).raise .contained 0x0902
      (k / stackSize) (lo32 (k / 64 * 64 % stackSize)) (hi32 (k / 64 * 64 % stackSize)) (m.fget Fld.GRM_STEP_STEP) := by
    rw [hm1, Mod.foundUe]
    exact if_neg (by rw [hp, hs]; decide)
  have hcount : m1.fget Fld.HBM_ECC_UE (k / stackSize) = min (m.fget Fld.HBM_ECC_UE (k / stackSize) + 1) Fld.HBM_ECC_UE.max := by
    rw [hm1, Mod.fget_fsat_same _ _ _ _ _ (by decide) (by decide), (m.markLoc_sameBut (.hbm k)).fget (by decide)]
  refine ⟨?_, ?_, ?_, ?_⟩
  · rw [h, (Mod.raise_sameBut _ _ _ _ _ _ _).mem (by decide), (Mod.set64_sameBut _ _ _ _ _).mem (by decide), hm1,
      (Mod.fsat_sameBut _ _ _ _ _).mem (by decide), hmark]
  · rw [h, Mod.fget_raise, Mod.set64, Mod.fget_fset_otherReg, Mod.fget_fset_otherReg, hcount]
    · simp only [Fld.HBM_ECC_UE, Fld.HBM_UE_ADDR_LO_ADDR, RegSpec.addr, Reg.HBM_ECC, Reg.HBM_UE_ADDR_LO]
      omega
    · simp only [Fld.HBM_ECC_UE, Fld.HBM_UE_ADDR_HI_ADDR, RegSpec.addr, Reg.HBM_ECC, Reg.HBM_UE_ADDR_HI]
      omega
  · have hne : Fld.HBM_UE_ADDR_LO_ADDR.reg.addr (k / stackSize) 0 ≠ Fld.HBM_UE_ADDR_HI_ADDR.reg.addr (k / stackSize) 0 := by
      simp only [Fld.HBM_UE_ADDR_LO_ADDR, Fld.HBM_UE_ADDR_HI_ADDR, RegSpec.addr, Reg.HBM_UE_ADDR_LO, Reg.HBM_UE_ADDR_HI]
      omega
    have hset := m1.get64_set64 (k / stackSize) (k / 64 * 64) hne ⟨rfl, rfl⟩ (by decide)
    rw [h, Mod.get64, Mod.fget_raise, Mod.fget_raise, ← Mod.get64, hset]
    exact Nat.mod_eq_of_lt (Nat.lt_of_le_of_lt (Nat.div_mul_le_self k 64) hk)
  · rw [h]
    exact Mod.raise_reports _ _ _ _ _ _ _

/-- An error found again is not counted again. -/
theorem Mod.foundUe_known (b : Bool) (hp : m.mem.hbm.poison.contains (k / 64) = true) : m.foundUe b k = m := by
  rw [Mod.foundUe]
  exact if_pos (by rw [hp]; rfl)

/-- A stack that stops answering. -/
theorem Mod.stackDown_spec {st : Nat} (cause : Nat) : (m.stackDown st cause).fget Fld.HBM_STACK_STATUS_STATE st = 4
    ∧ (m.stackDown st cause).reports .device 0x0903 st cause 0 0 ∧ (∀ k, k / stackSize = st → ((m.stackDown st cause).byteAt (.hbm k)).2 = true)
    ∧ Mod.alters [.regs, .evIn] [Reg.HBM_STACK_STATUS.addr st 0] m (m.stackDown st cause) := by
  have hstate : (m.stackDown st cause).fget Fld.HBM_STACK_STATUS_STATE st = 4 := by
    rw [Mod.stackDown, Mod.fget_raise, Mod.fget_fset_same _ _ _ _ _ (by decide)]
    decide
  refine ⟨hstate, Mod.raise_reports _ _ _ _ _ _ _, fun k hk => ?_, .raise rfl (.fset rfl (.head _) .refl)⟩
  have hf : (m.stackDown st cause).stackFailed k = true := by rw [Mod.stackFailed, hk, hstate]; rfl
  rw [Mod.byteAt, hf, Bool.or_true]

end

/-- The errors of a scrub that finds one. -/
theorem execPatrolScrub_eq {s : State} (hr : s.m.running = true) (hh : s.m.fget Fld.HBM_SCRUB_HOURS ≠ 0) {k : Nat} (hk : k < hbmSize)
    (hs : s.m.stackFailed k = false) : exec (.patrolScrub ⟨[k], [], [], []⟩) s = .next { s with m := s.m.foundCe k }
      ∧ exec (.patrolScrub ⟨[], [k], [], []⟩) s = .next { s with m := s.m.foundUe false k } := by
  have halive : [k].filter (fun k => decide (k < hbmSize) && !s.m.stackFailed k) = [k] := by simp [hk, hs]
  refine ⟨exec_unit_eq rfl hr ?_, exec_unit_eq rfl hr ?_⟩
  · rw [if_neg hh]
    dsimp only
    rw [halive]
    rfl
  · rw [if_neg hh]
    dsimp only
    rw [halive]
    rfl

/-- Settles O40: an error of a stack that answers is counted, and marks its sector when it cannot be corrected; a lost stack reads poisoned. -/
theorem hbmErrors : Obligations.HbmErrors := by
  unfold Obligations.HbmErrors
  refine ⟨fun s k hr hh hk hs => ?_, fun s ecc hh => exec_unit_self rfl fun _ => if_pos hh, fun s st training hr hst => ⟨fun hn => ?_, fun h => ?_⟩⟩
  · intro st
    obtain ⟨hce, hue⟩ := execPatrolScrub_eq hr hh hk hs
    have hlt : k < 2 ^ 48 := Nat.lt_of_lt_of_le hk (by decide)
    exact ⟨⟨_, hce, s.m.foundCe_spec hs⟩, fun hp => ⟨_, hue, s.m.foundUe_spec hlt hs hp⟩, fun hp => by rw [hue, s.m.foundUe_known false hp]⟩
  · obtain ⟨h1, h2, h3, h4⟩ := s.m.stackDown_spec (st := st) (if training then 0 else 1)
    exact ⟨_, exec_unit_eq rfl hr (if_neg hn), h1, h2, h3, State.setsAndRaises_of h4⟩
  · exact exec_unit_self rfl fun _ => if_pos h

end Sys2Proof.Machine
end

section
/-! PROOF. CXL port states and events (10_memory_tiers.md R262, R264, R265). -/

namespace Sys2Proof.Machine

/-! ### Ports and what they report -/

section
variable (m : Mod) (c : Nat)

@[simp] theorem Mod.loftPort_setLoftPort_same (p : LoftPort) : (m.setLoftPort c p).loftPort c = p := kvGetD_kvSet_same _ _ _ _

theorem Mod.sameBut.loftPort {ps : List Part} {l n : Mod} (h : Mod.sameBut ps l n) (hp : Part.mem ∉ ps) : n.loftPort c = l.loftPort c := by
  rw [Mod.loftPort, h.mem hp, Mod.loftPort]

/-- A field of a port's status after another register of the port is set. -/
theorem Mod.fget_status_fset {f g : Fld} (hg : g.reg = Reg.LFT_PORT_STATUS) (hf : f.reg = Reg.LFT_PORT_ERR ∨ f.reg = Reg.LFT_PORT_CAP_LO ∨ f.reg = Reg.LFT_PORT_CAP_HI)
    (v : Nat) : (m.fset f v c).fget g c = m.fget g c := by
  refine m.fget_fset_otherReg f g v c 0 c 0 ?_
  rcases hf with h | h | h <;> simp only [hg, h, RegSpec.addr, Reg.LFT_PORT_STATUS, Reg.LFT_PORT_ERR, Reg.LFT_PORT_CAP_LO, Reg.LFT_PORT_CAP_HI] <;> omega

theorem Mod.loftReport_state (st w s : Nat) : (m.loftReport c st w s).fget Fld.LFT_PORT_STATUS_STATE c = st % 8 := by
  rw [Mod.loftReport, Mod.fget_fset_otherField _ Fld.LFT_PORT_STATUS_SPEED Fld.LFT_PORT_STATUS_STATE _ _ _ rfl (by decide) (by decide),
    Mod.fget_fset_otherField _ Fld.LFT_PORT_STATUS_WIDTH Fld.LFT_PORT_STATUS_STATE _ _ _ rfl (by decide) (by decide)]
  exact m.fget_fset_same Fld.LFT_PORT_STATUS_STATE st c 0 (by decide)

theorem Mod.loftReport_viral (st w s : Nat) : (m.loftReport c st w s).fget Fld.LFT_PORT_STATUS_VIRAL c = m.fget Fld.LFT_PORT_STATUS_VIRAL c := by
  rw [Mod.loftReport, Mod.fget_fset_otherField _ Fld.LFT_PORT_STATUS_SPEED Fld.LFT_PORT_STATUS_VIRAL _ _ _ rfl (by decide) (by decide),
    Mod.fget_fset_otherField _ Fld.LFT_PORT_STATUS_WIDTH Fld.LFT_PORT_STATUS_VIRAL _ _ _ rfl (by decide) (by decide),
    Mod.fget_fset_otherField _ Fld.LFT_PORT_STATUS_STATE Fld.LFT_PORT_STATUS_VIRAL _ _ _ rfl (by decide) (by decide)]

theorem Mod.fget_setLoftPort (p : LoftPort) (g : Fld) (a b : Nat) : (m.setLoftPort c p).fget g a b = m.fget g a b :=
  (m.setLoftPort_sameBut c p).fget (by decide) g a b

/-- The completions with poison of the reads among requests that end. -/
def endedReads (held : List LoftReq) : List Out := held.filterMap (fun q => match q with
  | .read _ n => some (Out.completion (List.replicate n 0xFF)) | .write .. => none)

/-- Requests that end give their completions. -/
theorem Mod.heldEnd_out (held : List LoftReq) : (m.heldEnd held).host.out = m.host.out ++ endedReads held := by
  induction held generalizing m with
  | nil => exact (List.append_nil _).symm
  | cons q qs ih =>
    cases q with
    | read a n => exact (ih _).trans (List.append_assoc m.host.out [.completion (List.replicate n 0xFF)] (endedReads qs))
    | write a data => exact ih m

theorem Mod.linkDown_spec (st : Nat) (held : List LoftReq) : (m.linkDown c st held).fget Fld.LFT_PORT_STATUS_STATE c = st % 8
    ∧ (m.linkDown c st held).loftPort c = { m.loftPort c with held := held } ∧ (m.linkDown c st held).fget Fld.LFT_PORT_ERR_LINK_DOWN c = 1
    ∧ (m.linkDown c st held).reports .contained 0x0A01 c held.length 0 0 ∧ (m.linkDown c st held).mem.loft = m.mem.loft
    ∧ (m.linkDown c st held).mem.hbm = m.mem.hbm := by
  unfold Mod.linkDown
  extract_lets _ m1
  have h1 : Mod.sameBut [.regs] (m.setLoftPort c { m.loftPort c with held := held }) m1 := Mod.fset_sameBut _ _ _ _ _
  have h2 := m1.fset_sameBut Fld.LFT_PORT_ERR_LINK_DOWN 1 c 0
  have h3 := (m1.fset Fld.LFT_PORT_ERR_LINK_DOWN 1 c).raise_sameBut .contained 0x0A01 c held.length
  have hmem := (h3.mem (by decide)).trans ((h2.mem (by decide)).trans (h1.mem (by decide)))
  refine ⟨?_, ?_, ?_, Mod.raise_reports _ _ _ _ _ _ _, ?_, ?_⟩
  · rw [Mod.fget_raise, m1.fget_status_fset c rfl (.inl rfl)]
    exact Mod.fget_fset_same _ Fld.LFT_PORT_STATUS_STATE st c 0 (by decide)
  · rw [Mod.loftPort, hmem]
    exact kvGetD_kvSet_same _ _ _ _
  · rw [Mod.fget_raise]
    exact m1.fget_fset_bit Fld.LFT_PORT_ERR_LINK_DOWN c 0 rfl
  · rw [hmem]
    rfl
  · rw [hmem]
    rfl

end

/-! ### Requests reissued -/

/-- What requests reissued at port `c` leave: the ports, HBM, and every register but LFT_PORT_ERR of the port. -/
structure Mod.reissued (c : Nat) (m n : Mod) : Prop where
  ports : n.mem.loftPorts = m.mem.loftPorts
  hbm : n.mem.hbm = m.mem.hbm
  regs : m.regsKeep [Reg.LFT_PORT_ERR.addr c 0] n

section
variable (m : Mod) (c : Nat)

theorem Mod.reissued.refl : Mod.reissued c m m := ⟨rfl, rfl, Mod.regsKeep_of_regs_eq rfl _⟩

theorem Mod.reissued.trans {l m n : Mod} (h1 : Mod.reissued c l m) (h2 : Mod.reissued c m n) : Mod.reissued c l n :=
  ⟨h2.ports.trans h1.ports, h2.hbm.trans h1.hbm, Mod.regsKeep_trans h1.regs h2.regs⟩

theorem Mod.putByte_loft_hbm (k : Nat) (v : Byte) : (m.putByte (.loft k) v).mem.hbm = m.mem.hbm := by
  rw [Mod.putByte]
  split <;> rfl

theorem Mod.putBytes_loft_hbm (f : Nat → Nat) (a : Nat) (data : List (Option Byte)) : (Mod.putBytes (fun x => .loft (f x)) m a data).mem.hbm = m.mem.hbm := by
  induction data generalizing m a with
  | nil => rfl
  | cons x xs ih =>
    cases x with
    | none => exact ih _ _
    | some b => exact (ih _ _).trans (m.putByte_loft_hbm _ _)

theorem Mod.writeAt_loft_hbm (f : Nat → Nat) (a : Nat) (data : List (Option Byte)) : (Mod.writeAt (fun x => .loft (f x)) m a data).mem.hbm = m.mem.hbm := by
  unfold Mod.writeAt
  refine List.foldlRecOn (motive := fun n : Mod => n.mem.hbm = m.mem.hbm) _ _ (m.putBytes_loft_hbm f a data) fun n hn s _ => ?_
  split
  · refine Eq.trans ?_ hn
    rw [Mod.unmarkLoc]
    split <;> rfl
  · exact hn

/-- One request reissued: a read gives a completion, a write none. -/
def Mod.reissuedFor (c : Nat) (q : LoftReq) (m n : Mod) : Prop :=
  Mod.reissued c m n ∧ ∃ out, n.host.out = m.host.out ++ out ∧ out.length = if isHeldRead q then 1 else 0

theorem Mod.reissue_spec (q : LoftReq) : Mod.reissuedFor c q m (m.reissue c q) := by
  unfold Mod.reissue
  split
  case h_1 a n =>
    extract_lets xs bad m1
    have h1 : Mod.alters [.regs, .evIn] [Reg.LFT_PORT_ERR.addr c 0] m m1 := by
      change Mod.alters _ _ m (if _ then _ else _)
      split
      · exact .raise rfl (.fset rfl (.head _) .refl)
      · exact .refl
    have hm := h1.parts.mem (by decide)
    refine ⟨⟨congrArg MemUnit.loftPorts hm, congrArg MemUnit.hbm hm, h1.words⟩, [.completion (xs.map (fun x => if x.2 then 0xFF else x.1))], ?_, rfl⟩
    rw [← h1.parts.host (by decide)]
    rfl
  case h_2 a data =>
    have h := Mod.writeAt_sameBut (fun x => .loft (c * loftPortSize + x)) m a data
    refine ⟨⟨m.writeAt_ports _ a data, m.writeAt_loft_hbm (fun x => c * loftPortSize + x) a data, Mod.regsKeep_of_regs_eq (h.regs (by decide)) _⟩, [], ?_, rfl⟩
    rw [List.append_nil]
    exact congrArg HostUnit.out (h.host (by decide))

theorem Mod.reissue_foldl (held : List LoftReq) : Mod.reissued c m (held.foldl (fun (x : Mod) q => x.reissue c q) m)
    ∧ ∃ out, (held.foldl (fun (x : Mod) q => x.reissue c q) m).host.out = m.host.out ++ out ∧ out.length = (held.filter isHeldRead).length := by
  induction held generalizing m with
  | nil => exact ⟨.refl m c, [], (List.append_nil _).symm, rfl⟩
  | cons q qs ih =>
    obtain ⟨h1, o1, ho1, hl1⟩ := m.reissue_spec c q
    obtain ⟨h2, o2, ho2, hl2⟩ := ih (m.reissue c q)
    refine ⟨h1.trans c h2, o1 ++ o2, ?_, ?_⟩
    · rw [List.foldl_cons, ho2, ho1, List.append_assoc]
    · rw [List.length_append, hl1, hl2, List.filter_cons]
      cases isHeldRead q
      · exact Nat.zero_add _
      · exact Nat.add_comm _ _

/-- All held requests are reissued, and none is held. -/
theorem Mod.reissueAll_spec : (m.reissueAll c).loftPort c = { m.loftPort c with held := [] } ∧ (m.reissueAll c).mem.hbm = m.mem.hbm
    ∧ m.regsKeep [Reg.LFT_PORT_ERR.addr c 0] (m.reissueAll c)
    ∧ ∃ out, (m.reissueAll c).host.out = m.host.out ++ out ∧ out.length = ((m.loftPort c).held.filter isHeldRead).length := by
  obtain ⟨h, out, hout, hlen⟩ := (m.setLoftPort c { m.loftPort c with held := [] }).reissue_foldl c (m.loftPort c).held
  refine ⟨?_, h.hbm, h.regs, out, hout, hlen⟩
  have e : (m.reissueAll c).mem.loftPorts = (m.setLoftPort c { m.loftPort c with held := [] }).mem.loftPorts := h.ports
  rw [Mod.loftPort, e]
  exact kvGetD_kvSet_same _ _ _ _

end

end Sys2Proof.Machine
end

section
/-! PROOF. The statement of CXL ports (10_memory_tiers.md R262, R264, R265). -/

namespace Sys2Proof.Machine

/-! ### Bytes stored behind a port -/

/-- `n` is `m` with `data` stored in the loft at `k`. -/
def MemUnit.loftStored (k : Nat) (data : List Byte) (m n : MemUnit) : Prop :=
  (∀ i b, data[i]? = some b → n.loft.get (k + i) = b) ∧ (∀ j, j < k ∨ k + data.length ≤ j → n.loft.get j = m.loft.get j)

section
variable {m : Mod} {base a : Nat} {data : List Byte}

theorem Mod.putBytes_loftStored (hl : ∀ i, i < data.length → m.loftLost (base + a + i) = false) :
    MemUnit.loftStored (base + a) data m.mem (Mod.putBytes (fun x => .loft (base + x)) m a (data.map some)).mem := by
  induction data generalizing m a with
  | nil => exact ⟨fun _ _ h => (nomatch h), fun _ _ => rfl⟩
  | cons v xs ih =>
    have hlen : (v :: xs).length = xs.length + 1 := rfl
    have hl0 : m.loftLost (base + a) = false := hl 0 (by omega)
    have h0 : m.putByte (.loft (base + a)) v = { m with mem := { m.mem with loft := m.mem.loft.set (base + a) v } } := by
      rw [Mod.putByte]
      exact if_neg (by rw [Mod.discards, hl0]; decide)
    have hl' : ∀ i, i < xs.length → (m.putByte (.loft (base + a)) v).loftLost (base + (a + 1) + i) = false := fun i hi => by
      rw [h0, show base + (a + 1) + i = base + a + (i + 1) by omega]
      exact hl (i + 1) (by omega)
    obtain ⟨h1, h2⟩ := ih hl'
    have hmem : (m.putByte (.loft (base + a)) v).mem = { m.mem with loft := m.mem.loft.set (base + a) v } := by rw [h0]
    rw [hmem] at h2
    refine ⟨fun i b h => ?_, fun j hj => (h2 j (by omega)).trans (Memory.get_set_other _ _ (by omega))⟩
    cases i with
    | zero =>
      obtain rfl : v = b := by simpa using h
      exact (h2 (base + a) (by omega)).trans (Memory.get_set_same _ _ _)
    | succ i => exact (show base + (a + 1) + i = base + a + (i + 1) by omega) ▸ h1 i b h

theorem Mod.writeAt_loftStored (hl : ∀ i, i < data.length → m.loftLost (base + a + i) = false) :
    MemUnit.loftStored (base + a) data m.mem (Mod.writeAt (fun x => .loft (base + x)) m a (data.map some)).mem := by
  unfold Mod.writeAt
  refine List.foldlRecOn (motive := fun n : Mod => MemUnit.loftStored (base + a) data m.mem n.mem) _ _ (Mod.putBytes_loftStored hl) fun n hn s _ => ?_
  split
  · rw [Mod.unmarkLoc]
    split
    · exact hn
    · exact hn
  · exact hn

end

/-! ### The events of a port -/

section
variable (m : Mod) (c : Nat)

/-- A single held write is stored when the link is back. -/
theorem Mod.reissueAll_write {a : Nat} {data : List Byte} (hh : (m.loftPort c).held = [.write a (data.map some)]) (hfit : a + data.length ≤ loftPortSize)
    (hlost : (m.loftPort c).lost = false) : MemUnit.loftStored (c * loftPortSize + a) data m.mem (m.reissueAll c).mem := by
  have e : m.reissueAll c = Mod.writeAt (fun x => .loft (c * loftPortSize + x)) (m.setLoftPort c { m.loftPort c with held := [] }) a (data.map some) := by
    rw [Mod.reissueAll, hh]
    rfl
  rw [e]
  have hp := m.loftPort_setLoftPort_same c { m.loftPort c with held := [] }
  refine Mod.writeAt_loftStored (m := m.setLoftPort c { m.loftPort c with held := [] }) fun i hi => ?_
  have hport : (c * loftPortSize + a + i) / loftPortSize = c := by
    rw [Nat.add_assoc, Nat.mul_comm, Nat.mul_add_div (by decide), Nat.div_eq_of_lt (by omega), Nat.add_zero]
  rw [Mod.loftLost, hport]
  exact (congrArg LoftPort.lost hp).trans hlost

/-- A port that lost its link for good. -/
def Mod.linkLost (m : Mod) (c : Nat) : Mod :=
  ((((m.setLoftPort c { m.loftPort c with held := [], lost := true }).loftReport c 1 0 0).heldEnd (m.loftPort c).held).fset Fld.LFT_PORT_ERR_LINK_LOST 1 c).raiseStep
    0x0A02 c ((m.loftPort c).held.filter isHeldRead).length ((m.loftPort c).held.length - ((m.loftPort c).held.filter isHeldRead).length)

theorem Mod.linkLost_spec : (m.linkLost c).fget Fld.LFT_PORT_STATUS_STATE c = 1 ∧ (m.linkLost c).loftPort c = { m.loftPort c with held := [], lost := true }
    ∧ (m.linkLost c).fget Fld.LFT_PORT_ERR_LINK_LOST c = 1
    ∧ (m.linkLost c).host.out = m.host.out ++ endedReads (m.loftPort c).held
    ∧ m.reportsCause (m.linkLost c) .contained 0x0A02 c ((m.loftPort c).held.filter isHeldRead).length
        ((m.loftPort c).held.length - ((m.loftPort c).held.filter isHeldRead).length) 0
    ∧ (m.linkLost c).mem.loft = m.mem.loft ∧ (m.linkLost c).mem.hbm = m.mem.hbm := by
  unfold Mod.linkLost
  generalize ((m.loftPort c).held.filter isHeldRead).length = reads
  generalize (m.loftPort c).held.length - reads = writes
  have h0 := m.setLoftPort_sameBut c { m.loftPort c with held := [], lost := true }
  have hport := m.loftPort_setLoftPort_same c { m.loftPort c with held := [], lost := true }
  have hloft : (m.setLoftPort c { m.loftPort c with held := [], lost := true }).mem.loft = m.mem.loft := rfl
  have hhbm : (m.setLoftPort c { m.loftPort c with held := [], lost := true }).mem.hbm = m.mem.hbm := rfl
  generalize m.setLoftPort c { m.loftPort c with held := [], lost := true } = m0 at h0 hport hloft hhbm ⊢
  have h1 := m0.loftReport_sameBut c 1 0 0
  have hst := m0.loftReport_state c 1 0 0
  generalize m0.loftReport c 1 0 0 = m1 at h1 hst ⊢
  have h2 := m1.heldEnd_sameBut (m.loftPort c).held
  have hout := m1.heldEnd_out (m.loftPort c).held
  generalize m1.heldEnd (m.loftPort c).held = m2 at h2 hout ⊢
  have h3 := m2.fset_sameBut Fld.LFT_PORT_ERR_LINK_LOST 1 c 0
  have h4 := (m2.fset Fld.LFT_PORT_ERR_LINK_LOST 1 c).raiseStep_sameBut 0x0A02 c reads writes
  have hmem := (h4.mem (by decide)).trans ((h3.mem (by decide)).trans ((h2.mem (by decide)).trans (h1.mem (by decide))))
  refine ⟨?_, ?_, ?_, ?_, ?_, ?_, ?_⟩
  · rw [h4.fget (by decide), m2.fget_status_fset c rfl (.inl rfl), h2.fget (by decide), hst]
  · rw [Mod.loftPort, hmem]
    exact hport
  · rw [h4.fget (by decide)]
    exact m2.fget_fset_bit Fld.LFT_PORT_ERR_LINK_LOST c 0 rfl
  · rw [h4.host (by decide), h3.host (by decide), hout, h1.host (by decide), h0.host (by decide)]
  · refine Mod.raiseDual_reportsCause _ ?_ _ _ _ _ _ _
    rw [Mod.stepOpen, h3.step (by decide), h2.step (by decide), h1.step (by decide), h0.step (by decide), Mod.stepOpen]
  · rw [hmem, hloft]
  · rw [hmem, hhbm]

/-- A poisoned response marks its sector. -/
theorem Mod.loftPoison_marks (k : Nat) {n : Mod} (hb : n.mem = (m.markLoc (.loft k)).mem) : (n.byteAt (.loft k)).2 = true := by
  rw [Mod.byteAt, Mod.loftBad, hb, Mod.markLoc]
  by_cases hl : m.loftLost k = true
  · rw [if_pos (show m.discards (.loft k) = true from hl), show (kvGetD m.mem.loftPorts (k / loftPortSize) .none).lost = true from hl]
    simp
  · rw [if_neg (show ¬m.discards (.loft k) = true from hl)]
    simp [Memory.mark]

/-- An expander comes into use on a port that is not disabled, or is gone from it. -/
theorem Mod.loftAttach_eq (hd : m.loftDisabled c = false) (cap w s : Nat) (ok : Bool) : m.loftAttach c cap w s ok =
    if cap = 0 then (((m.heldEnd (m.loftPort c).held).setLoftPort c .none).set64 Fld.LFT_PORT_CAP_LO_BYTES Fld.LFT_PORT_CAP_HI_BYTES 0 c).loftReport c 1 0 0
    else if ok then
      (((m.heldEnd (m.loftPort c).held).setLoftPort c { m.loftPort c with capacity := cap, refused := false, lost := false, held := [], due := none }).set64
        Fld.LFT_PORT_CAP_LO_BYTES Fld.LFT_PORT_CAP_HI_BYTES cap c).loftReport c 3 w s
    else ((m.heldEnd (m.loftPort c).held).setLoftPort c { m.loftPort c with capacity := cap, refused := true, held := [], due := none }).loftReport c 4 0 0 := by
  have hd' : (m.heldEnd (m.loftPort c).held).loftDisabled c = false := by
    rw [Mod.loftDisabled, (m.heldEnd_sameBut _).variant (by decide), ← Mod.loftDisabled, hd]
  exact if_neg (by rw [hd']; decide)

theorem Mod.loftReport_cap (n : Mod) (p : LoftPort) (st w s : Nat) :
    ((n.setLoftPort c p).loftReport c st w s).loftCap c = if p.refused then 0 else p.capacity := by
  rw [Mod.loftCap, ((n.setLoftPort c p).loftReport_sameBut c st w s).mem (by decide)]
  exact congrArg (fun p : LoftPort => if p.refused then 0 else p.capacity) (n.loftPort_setLoftPort_same c p)

theorem Mod.loftReport_set64_cap (n : Mod) (p : LoftPort) (v st w s : Nat) :
    (((n.setLoftPort c p).set64 Fld.LFT_PORT_CAP_LO_BYTES Fld.LFT_PORT_CAP_HI_BYTES v c).loftReport c st w s).loftCap c = if p.refused then 0 else p.capacity := by
  rw [Mod.loftCap, (Mod.loftReport_sameBut _ c st w s).mem (by decide), ((n.setLoftPort c p).set64_sameBut _ _ _ _).mem (by decide)]
  exact congrArg (fun p : LoftPort => if p.refused then 0 else p.capacity) (n.loftPort_setLoftPort_same c p)

theorem Mod.loftAttach_spec (hd : m.loftDisabled c = false) {cap : Nat} (w s : Nat) (ok : Bool) (hne : cap ≠ 0) :
    (m.loftAttach c cap w s ok).loftCap c = (if ok then cap else 0)
      ∧ (m.loftAttach c cap w s ok).fget Fld.LFT_PORT_STATUS_STATE c = (if ok then 3 else 4) := by
  rw [m.loftAttach_eq c hd, if_neg hne]
  cases ok with
  | true => exact ⟨Mod.loftReport_set64_cap c _ _ _ _ _ _, Mod.loftReport_state _ _ _ _ _⟩
  | false => exact ⟨Mod.loftReport_cap c _ _ _ _ _, Mod.loftReport_state _ _ _ _ _⟩

theorem Mod.loftAttach_removed (hd : m.loftDisabled c = false) (w s : Nat) (ok : Bool) :
    (m.loftAttach c 0 w s ok).loftCap c = 0 ∧ (m.loftAttach c 0 w s ok).fget Fld.LFT_PORT_STATUS_STATE c = 1 := by
  rw [m.loftAttach_eq c hd, if_pos rfl]
  exact ⟨Mod.loftReport_set64_cap c _ _ _ _ _ _, Mod.loftReport_state _ _ _ _ _⟩

/-- A retrain clears VIRAL; with a link it brings the port UP and reissues what it held. -/
theorem Mod.loftRetrain_spec (w s : Nat) (hd : m.loftDisabled c = false) (hcap : (m.loftPort c).capacity ≠ 0) (href : (m.loftPort c).refused = false)
    (hdue : (m.loftPort c).due = none) : (m.loftRetrain c w s).fget Fld.LFT_PORT_STATUS_VIRAL c = 0
      ∧ (m.loftRetrain c w s).fget Fld.LFT_PORT_STATUS_STATE c
        = (if w = 0 then (if m.fget Fld.LFT_PORT_STATUS_STATE c = 3 then 2 else m.fget Fld.LFT_PORT_STATUS_STATE c) else 3)
      ∧ (m.loftRetrain c w s).loftPort c = (if w = 0 then m.loftPort c else { m.loftPort c with lost := false, held := [] }) := by
  have hv : (m.fset Fld.LFT_PORT_STATUS_VIRAL 0 c).fget Fld.LFT_PORT_STATUS_VIRAL c = 0 := m.fget_fset_same Fld.LFT_PORT_STATUS_VIRAL 0 c 0 (by decide)
  have hs : (m.fset Fld.LFT_PORT_STATUS_VIRAL 0 c).fget Fld.LFT_PORT_STATUS_STATE c = m.fget Fld.LFT_PORT_STATUS_STATE c :=
    m.fget_fset_otherField Fld.LFT_PORT_STATUS_VIRAL Fld.LFT_PORT_STATUS_STATE 0 c 0 rfl (by decide) (by decide)
  have hp := (m.fset_sameBut Fld.LFT_PORT_STATUS_VIRAL 0 c 0).loftPort c (by decide)
  unfold Mod.loftRetrain
  extract_lets p m1
  rw [if_neg (by simp [p, hd, hcap, href, hdue])]
  change m1.fget _ c = _ at hv hs
  change m1.loftPort c = _ at hp
  clear_value m1
  by_cases hw : w = 0
  · rw [if_pos hw, if_pos hw, if_pos hw]
    by_cases hst : m.fget Fld.LFT_PORT_STATUS_STATE c = 3
    · rw [if_pos hst, if_pos hst]
      exact ⟨(m1.loftReport_viral c 2 0 0).trans hv, m1.loftReport_state c 2 0 0, ((m1.loftReport_sameBut c 2 0 0).loftPort c (by decide)).trans hp⟩
    · rw [if_neg hst, if_neg hst]
      exact ⟨hv, hs, hp⟩
  · rw [if_neg hw, if_neg hw, if_neg hw]
    have hr := (m1.setLoftPort c { p with lost := false }).loftReport_sameBut c 3 w s
    obtain ⟨h1, -, h3, -⟩ := ((m1.setLoftPort c { p with lost := false }).loftReport c 3 w s).reissueAll_spec c
    have hne : ∀ f : Fld, f.reg = Reg.LFT_PORT_STATUS → f.reg.addr c 0 ∉ [Reg.LFT_PORT_ERR.addr c 0] := fun f hf => by
      simp only [hf, RegSpec.addr, Reg.LFT_PORT_STATUS, Reg.LFT_PORT_ERR, List.mem_singleton]
      omega
    refine ⟨?_, ?_, ?_⟩
    · rw [Mod.regsKeep_fget h3 _ _ _ (hne _ rfl), Mod.loftReport_viral, Mod.fget_setLoftPort, hv]
    · rw [Mod.regsKeep_fget h3 _ _ _ (hne _ rfl), Mod.loftReport_state]
    · rw [h1, hr.loftPort c (by decide), Mod.loftPort_setLoftPort_same]

end

/-- A link that is back brings the port UP with what it held reissued. -/
theorem Mod.linkReturn_spec (m : Mod) (c : Nat) : ((m.fset Fld.LFT_PORT_STATUS_STATE 3 c).reissueAll c).fget Fld.LFT_PORT_STATUS_STATE c = 3
    ∧ (((m.fset Fld.LFT_PORT_STATUS_STATE 3 c).reissueAll c).loftPort c).held = []
    ∧ ((m.fset Fld.LFT_PORT_STATUS_STATE 3 c).reissueAll c).mem.hbm = m.mem.hbm
    ∧ ∃ out, ((m.fset Fld.LFT_PORT_STATUS_STATE 3 c).reissueAll c).host.out = m.host.out ++ out ∧ out.length = ((m.loftPort c).held.filter isHeldRead).length := by
  have hs := m.fset_sameBut Fld.LFT_PORT_STATUS_STATE 3 c 0
  have hstate : (m.fset Fld.LFT_PORT_STATUS_STATE 3 c).fget Fld.LFT_PORT_STATUS_STATE c = 3 := m.fget_fset_same Fld.LFT_PORT_STATUS_STATE 3 c 0 (by decide)
  generalize m.fset Fld.LFT_PORT_STATUS_STATE 3 c = n at hs hstate ⊢
  obtain ⟨h1, h2, h3, out, hout, hlen⟩ := n.reissueAll_spec c
  refine ⟨?_, ?_, h2.trans (congrArg MemUnit.hbm (hs.mem (by decide))), out, hout.trans (by rw [hs.host (by decide)]), hlen.trans (by rw [hs.loftPort (c := c) (by decide)])⟩
  · rw [Mod.regsKeep_fget h3 _ _ _ ?_, hstate]
    simp only [RegSpec.addr, Fld.LFT_PORT_STATUS_STATE, Reg.LFT_PORT_STATUS, Reg.LFT_PORT_ERR, List.mem_singleton]
    omega
  · rw [h1]

/-- A poisoned response, in the step or not. -/
def Mod.loftPoisoned (m : Mod) (c addr : Nat) (inStep : Bool) : Mod :=
  ((m.markLoc (.loft (c * loftPortSize + addr))).fset Fld.LFT_PORT_ERR_POISON 1 c).raiseDual inStep .contained 0x0A03 c (lo32 addr) (hi32 addr)

theorem Mod.loftPoisoned_spec (m : Mod) (c addr : Nat) (inStep : Bool) : ((m.loftPoisoned c addr inStep).byteAt (.loft (c * loftPortSize + addr))).2 = true
    ∧ (m.loftPoisoned c addr inStep).fget Fld.LFT_PORT_ERR_POISON c = 1 ∧ (m.loftPoisoned c addr inStep).mem.loft.cells = m.mem.loft.cells := by
  have hr := ((m.markLoc (.loft (c * loftPortSize + addr))).fset Fld.LFT_PORT_ERR_POISON 1 c).raiseDual_sameBut inStep .contained 0x0A03 c (lo32 addr) (hi32 addr)
  have hmem : (m.loftPoisoned c addr inStep).mem = (m.markLoc (.loft (c * loftPortSize + addr))).mem :=
    (hr.mem (by decide)).trans ((Mod.fset_sameBut _ _ _ _ _).mem (by decide))
  refine ⟨m.loftPoison_marks _ hmem, ?_, ?_⟩
  · rw [Mod.loftPoisoned, Mod.fget_raiseDual]
    exact Mod.fget_fset_bit _ Fld.LFT_PORT_ERR_POISON c 0 rfl
  · rw [hmem, Mod.markLoc]
    split <;> rfl

/-- A port goes viral: every read from it is poisoned. -/
theorem Mod.loftViral_spec (m n : Mod) (c : Nat) (hn : n = ((m.fset Fld.LFT_PORT_STATUS_VIRAL 1 c).fset Fld.LFT_PORT_ERR_VIRAL 1 c).raise .device 0x0A04 c) :
    n.reports .device 0x0A04 c 0 0 0 ∧ n.fget Fld.LFT_PORT_ERR_VIRAL c = 1 ∧ ∀ k, k / loftPortSize = c → (n.byteAt (.loft k)).2 = true := by
  have hv : n.fget Fld.LFT_PORT_STATUS_VIRAL c = 1 := by
    rw [hn, Mod.fget_raise, Mod.fget_status_fset _ c rfl (.inl rfl)]
    exact m.fget_fset_bit Fld.LFT_PORT_STATUS_VIRAL c 0 rfl
  refine ⟨hn ▸ Mod.raise_reports _ _ _ _ _ _ _, ?_, fun k hk => ?_⟩
  · rw [hn, Mod.fget_raise]
    exact Mod.fget_fset_bit _ Fld.LFT_PORT_ERR_VIRAL c 0 rfl
  · rw [Mod.byteAt, hk, Mod.loftBad, hv]
    simp

/-- An expander added or removed on a port that is not disabled, where the port has the other. -/
theorem execExpanderHotAdd_eq {s : State} {c cap width speed : Nat} {ok : Bool} {n : Mod} (hr : s.m.running = true) (hd : s.m.loftDisabled c = false)
    (hgone : (((s.m.loftPort c).capacity == 0 || (s.m.loftPort c).due.isSome) == (cap == 0)) = false)
    (h : (if s.m.plateActive then
        (if s.m.fget Fld.LFT_PORT_STATUS_STATE c = 3 then s.m.linkDown c 1 (s.m.loftPort c).held else s.m).setLoftPort c
          { (if s.m.fget Fld.LFT_PORT_STATUS_STATE c = 3 then s.m.linkDown c 1 (s.m.loftPort c).held else s.m).loftPort c with due := some (cap, width, speed, ok) }
      else s.m.loftAttach c cap width speed ok) = n) : exec (.expanderHotAdd c cap width speed ok) s = .next { s with m := n } :=
  exec_unit_eq rfl hr ((if_neg (by rw [hd, hgone]; decide)).trans h)

/-- Settles O41: each event of a port sets its status and its error bit, and what it held is reissued, ended or kept. -/
theorem loftPortsHold : Obligations.LoftPorts := by
  unfold Obligations.LoftPorts
  refine ⟨fun s c hr hc => ?_, fun s c width speed hans hc hd hcap href hdue => ?_⟩
  · intro up p
    refine ⟨fun hup held => ?_, fun hst => ⟨?_, fun a data hh hfit hlost => ?_, ?_⟩, fun hup addr => ⟨?_, ?_⟩, fun hup => ?_, fun hup log head => ?_,
      fun hd hcap cap width speed ok hne => ⟨fun hp hdown => ?_, fun hp => ?_⟩, fun hd hcap hdue width speed ok => ⟨fun hp hup => ?_, fun hp => ?_⟩⟩
    · obtain ⟨h1, h2, h3, h4, h5, h6⟩ := s.m.linkDown_spec c 2 held
      exact ⟨_, exec_unit_eq rfl hr (if_pos hup), h1, h2, h3, h4, h5, h6⟩
    · obtain ⟨h1, h2, h3, out, hout, hlen⟩ := s.m.linkReturn_spec c
      exact ⟨{ s with m := (s.m.fset Fld.LFT_PORT_STATUS_STATE 3 c).reissueAll c }, out, exec_unit_eq rfl hr (if_pos hst), h1, h2, hout, hlen, h3⟩
    · have hs := s.m.fset_sameBut Fld.LFT_PORT_STATUS_STATE 3 c 0
      have hport := hs.loftPort (c := c) (by decide)
      obtain ⟨h1, h2⟩ := (s.m.fset Fld.LFT_PORT_STATUS_STATE 3 c).reissueAll_write c ((congrArg LoftPort.held hport).trans hh) hfit
        ((congrArg LoftPort.lost hport).trans hlost)
      rw [hs.mem (by decide)] at h2
      exact ⟨{ s with m := (s.m.fset Fld.LFT_PORT_STATUS_STATE 3 c).reissueAll c }, exec_unit_eq rfl hr (if_pos hst), h1, h2⟩
    · obtain ⟨h1, h2, h3, h4, h5, h6, h7⟩ := s.m.linkLost_spec c
      exact ⟨{ s with m := s.m.linkLost c }, exec_unit_eq rfl hr (if_pos (.inl hst)), h1, h2, h3, h4, h5, h6, h7⟩
    · obtain ⟨h1, h2, h3⟩ := s.m.loftPoisoned_spec c addr false
      exact ⟨{ s with m := s.m.loftPoisoned c addr false }, exec_unit_eq rfl hr (if_pos hup), Mod.raise_reports _ _ _ _ _ _ _, h1, h2, h3⟩
    · obtain ⟨h1, -, -⟩ := s.m.loftPoisoned_spec c addr true
      refine ⟨{ s with m := s.m.loftPoisoned c addr true }, exec_unit_eq rfl hr (if_pos hup), Mod.raiseDual_reportsCause _ ?_ _ _ _ _ _ _, h1⟩
      rw [Mod.stepOpen, (Mod.fset_sameBut _ _ _ _ _).step (by decide), (Mod.markLoc_sameBut _ _).step (by decide), Mod.stepOpen]
    · exact ⟨_, exec_unit_eq rfl hr (if_pos hup), Mod.loftViral_spec s.m _ c rfl⟩
    · refine ⟨_, exec_unit_eq rfl hr (if_pos hup), Mod.raise_reports _ _ _ _ _ _ _, ?_, State.setsAndRaises_of (.raise rfl (.fset rfl (.head _) .refl))⟩
      rw [Mod.fget_raise]
      exact s.m.fget_fset_bit Fld.LFT_PORT_ERR_DEV_EVENT c 0 rfl
    · refine execExpanderHotAdd_eq hr hd (by simp [show (s.m.loftPort c).capacity = 0 from hcap, hne]) ?_
      rw [if_pos hp, if_neg hdown]
    · refine ⟨{ s with m := s.m.loftAttach c cap width speed ok }, execExpanderHotAdd_eq hr hd (by simp [show (s.m.loftPort c).capacity = 0 from hcap, hne])
        (if_neg (by rw [hp]; decide)), s.m.loftAttach_spec c hd width speed ok hne⟩
    · obtain ⟨h1, h2, h3, h4, -, -⟩ := s.m.linkDown_spec c 1 p.held
      have hset := (s.m.linkDown c 1 p.held).setLoftPort_sameBut c { p with due := some (0, width, speed, ok) }
      refine ⟨{ s with m := (s.m.linkDown c 1 p.held).setLoftPort c { p with due := some (0, width, speed, ok) } },
        execExpanderHotAdd_eq hr hd (by simp [show (s.m.loftPort c).capacity ≠ 0 from hcap, show (s.m.loftPort c).due = none from hdue]) ?_, ?_, ?_, ?_, ?_⟩
      · rw [if_pos hp, if_pos hup, h2]
      · exact (Mod.fget_setLoftPort _ _ _ _ _ _).trans h1
      · exact Mod.loftPort_setLoftPort_same _ _ _
      · exact Mod.reports_of_eq (hset.evIn (by decide)) (hset.tick (by decide)) h4
      · exact (Mod.fget_setLoftPort _ _ _ _ _ _).trans h3
    · refine ⟨{ s with m := s.m.loftAttach c 0 width speed ok }, execExpanderHotAdd_eq hr hd
        (by simp [show (s.m.loftPort c).capacity ≠ 0 from hcap, show (s.m.loftPort c).due = none from hdue]) (if_neg (by rw [hp]; decide)),
        s.m.loftAttach_removed c hd width speed ok⟩
  · intro st
    obtain ⟨h1, h2, h3⟩ := s.m.loftRetrain_spec c width speed hd hcap href hdue
    exact ⟨{ s with m := s.m.loftRetrain c width speed }, exec_reg (f := fun m => m.loftRetrain c width speed) rfl hans, h1, h2, h3⟩

end Sys2Proof.Machine
end

section
/-! PROOF. The statement of pool objects (10_memory_tiers.md R267 to R271). -/

namespace Sys2Proof.Machine

/-! ### What the pool's data movements leave of core SRAM -/

section
variable (m : Mod)

theorem Mod.readDev_sram (b : Bool) (ranges : List (Nat × Nat)) (ecc : Ecc) : (m.readDev b ranges ecc).mem.sram = m.mem.sram := by
  rw [Mod.readDev, (Mod.loftMet_sameBut _ _ _).mem (by decide), Mod.eccDev_sram]

theorem Mod.unitRead_sram (b : Bool) (a k : Nat) (ecc : Ecc) : (m.unitRead b a k ecc).1.mem.sram = m.mem.sram := by
  unfold Mod.unitRead
  extract_lets m1 d
  have h1 : m1.mem.sram = m.mem.sram := m.readDev_sram b _ ecc
  split
  · rw [(Mod.fault_sameBut _ _).mem (by decide), h1]
  · exact h1

theorem Mod.devWrite_sram (a : Nat) (data : List Byte) : (m.devWrite a data).mem.sram = m.mem.sram := m.writeAt_sram _ _ _

theorem Mod.numEvent_mem (code id d1 d2 : Nat) : (m.numEvent code id d1 d2).mem = m.mem := (m.numEvent_sameBut code id d1 d2).mem (by decide)

theorem Mod.stickyEvent_mem (f : Fld) (v code id d1 d2 : Nat) : ((m.fset f v).numEvent code id d1 d2).mem = m.mem := by
  rw [Mod.numEvent_mem, (m.fset_sameBut f v 0 0).mem (by decide)]

theorem Mod.poolCopy_sram (home : Nat) (o : PoolObj) (up : Bool) : (m.poolCopy home o up).mem.sram = m.mem.sram := by
  refine Mod.foldl_sram m (fun n e => ?_) _
  rw [Mod.devWriteP_sram, (Mod.yard_sameBut _ _ _ _ _).mem (by decide), (Mod.yard_sameBut _ _ _ _ _).mem (by decide)]

theorem Mod.takePending_sram (tensor : Nat) (ecc : Ecc) : (m.takePending tensor ecc).mem.sram = m.mem.sram := by
  unfold Mod.takePending
  extract_lets a m1
  split
  · exact (m1.devWriteP_sram _ _).trans (m.eccDev_sram true _ ecc)
  · rfl

theorem Mod.watchMerge_sram (tensor : Nat) (p : WatchRec) (source : Nat) (ecc : Ecc) :
    (m.watchMerge tensor p source ecc).mem.sram = m.mem.sram := by
  unfold Mod.watchMerge
  split
  · rfl
  · extract_lets a rd m0 r isDone opens m1 r1 r2 r3
    have h0 : m0.mem.sram = m.mem.sram := m.unitRead_sram true a 64 ecc
    have h1 : m1.mem = m0.mem := by
      change (if _ then _ else _ : Mod).mem = _
      split
      · exact m0.stickyEvent_mem _ _ _ _ _ _
      · rfl
    have hw : ∀ (x : Mod) data, x.mem = m1.mem → (x.devWrite a data).mem.sram = m.mem.sram := fun x data hx => by
      rw [x.devWrite_sram, hx, h1, h0]
    split_ifs
    · exact h0
    · exact hw _ _ (m1.stickyEvent_mem _ _ _ _ _ _)
    · exact hw _ _ ((m1.watchEvents_sameBut _ _ _).mem (by decide))
    · exact hw _ _ ((m1.watchEvents_sameBut _ _ _).mem (by decide))
    · exact hw _ _ rfl

theorem Mod.normWrite_sram (group step elements : Nat) (a : List Nat) (flags : Nat) :
    (m.normWrite group step elements a flags).mem.sram = m.mem.sram := by
  unfold Mod.normWrite
  split
  · rfl
  · extract_lets bad fl bytes m1 t a0 a2 root m2
    have h1 : m1.mem.sram = m.mem.sram := m.devWrite_sram _ _
    have h2 : m2.mem = m1.mem := by
      change (if _ then _ else _ : Mod).mem = _
      split
      · exact m1.numEvent_mem _ _ _ _
      · rfl
    split
    · rw [h2, h1]
    · rw [m2.stickyEvent_mem, h2, h1]

theorem Mod.normAll_sram (flags : Nat) (p : PassDone → Bool) : (m.normAll flags p).mem.sram = m.mem.sram :=
  Mod.foldl_sram m (fun x g => by
    unfold Mod.normGroup
    extract_lets mine units m1 sums rs
    exact (m1.normWrite_sram _ _ _ _ _).trans (Mod.foldl_sram x (fun y _ => congrArg MemUnit.sram ((y.groomFlags_sameBut _ _).mem (by decide))) _)) _

theorem Mod.mergeAll_sram (p : PassDone → Bool) (ecc : Ecc) : (m.mergeAll p ecc).mem.sram = m.mem.sram :=
  (Mod.foldl_sram _ (fun x e => by
    split
    · split
      · rfl
      · exact x.watchMerge_sram _ _ _ _
    · rfl) _).trans (Mod.foldl_sram m (fun x t => x.takePending_sram t ecc) _)

theorem Mod.drainSettle_sram (ecc : Ecc) : (m.drainSettle ecc).mem.sram = m.mem.sram := by
  unfold Mod.drainSettle
  split
  · rfl
  · dsimp only
    split
    · rfl
    · rw [(Mod.actionsEnd_sameBut _).mem (by decide)]
      dsimp only
      rw [Mod.normAll_sram, Mod.mergeAll_sram, (Mod.flipDeferred_sameBut _ _ _).mem (by decide)]

end

/-! ### Objects and pages -/

section
variable (m : Mod)

theorem Mod.poolObj?_setObj_same (home : Nat) (o : PoolObj) : (m.setObj home o).poolObj? home = some o := kvGet?_kvSet_same _ _ _

theorem Mod.poolObj?_setObj_other {home h : Nat} (o : PoolObj) (hne : h ≠ home) : (m.setObj home o).poolObj? h = m.poolObj? h :=
  kvGet?_kvSet_other _ _ hne

theorem Mod.poolObj?_congr {m n : Mod} (h : n.pool = m.pool) (home : Nat) : n.poolObj? home = m.poolObj? home := by
  rw [Mod.poolObj?, h, Mod.poolObj?]

theorem Mod.poolObj?_dropObj_same (home : Nat) : (m.dropObj home).poolObj? home = none := by
  unfold Mod.dropObj
  split
  · exact kvGet?_kvDel_same _ _
  · next h => exact h

theorem mem_foldl_setAdd (xs : List Nat) (free : NatSet) (p : Nat) : p ∈ xs.foldl setAdd free ↔ p ∈ xs ∨ p ∈ free := by
  induction xs generalizing free with
  | nil => simp
  | cons x xs ih => rw [List.foldl_cons, ih, mem_setAdd, List.mem_cons, or_assoc, or_left_comm]

/-- The pages of an object that leaves HBM are free. -/
theorem Mod.dropObj_free {home : Nat} {o : PoolObj} (h : m.poolObj? home = some o) : ∀ p ∈ o.pages, p ∈ (m.dropObj home).pool.free := by
  intro p hp
  simp only [Mod.dropObj, h]
  exact (mem_foldl_setAdd _ _ _).2 (.inl hp)

theorem Mod.dropObj_waits (home : Nat) : (m.dropObj home).pool.waits = m.pool.waits := by
  unfold Mod.dropObj
  split <;> rfl

/-- Dropping an object touches the pool alone and depends on it alone. -/
theorem Mod.dropObj_pool {m n : Mod} (h : n.pool = m.pool) (home : Nat) : (n.dropObj home).pool = (m.dropObj home).pool := by
  unfold Mod.dropObj
  rw [Mod.poolObj?_congr h]
  split
  · dsimp only
    rw [h]
  · exact h

theorem Mod.retryWaits_none (h : m.pool.waits = []) : m.retryWaits = m := by
  have e : { m with pool := { m.pool with waits := [] } } = m := by rw [← h]
  rw [Mod.retryWaits, h]
  exact e

/-- No eviction is needed where the pages suffice. -/
theorem Mod.evictFor_enough {unit : Option Nat} {need : Nat} (h : need ≤ (m.freePages unit).length) (n : Nat) : Mod.evictFor unit need n m = m := by
  cases n with
  | zero => rfl
  | succ n => exact if_pos (Nat.le_add_right_of_le h)

/-- An object the request takes into HBM. -/
def PoolWant.takes (w : PoolWant) (pages : List Nat) : PoolObj :=
  ⟨w.size, w.owner, w.unit, if w.create then .hbm else .movingUp, 1, 0, false, false, pages⟩

/-- The module with the free pages `ps` taken for a request. -/
def Mod.taken (m : Mod) (home : Nat) (w : PoolWant) (ps : List Nat) : Mod :=
  let m1 := if w.create then m.openRuns (ps.map (fun p => (m.pageAddr p, pageSize))) else m
  Mod.setObj { m1 with pool := { m1.pool with free := m1.pool.free.filter (fun p => !ps.contains p) } } home (w.takes ps)

theorem Mod.moveUpTry_takes {home : Nat} {w : PoolWant} (ho : m.poolObj? home = none) (h : pagesFor w.size ≤ (m.freePages w.unit).length) :
    m.moveUpTry home w = (m.taken home w ((m.freePages w.unit).take (pagesFor w.size)), true) := by
  unfold Mod.moveUpTry
  rw [ho]
  dsimp only
  rw [m.evictFor_enough h, if_pos (List.length_take_of_le h)]
  rfl

theorem Mod.taken_spec (home : Nat) (w : PoolWant) (ps : List Nat) : (m.taken home w ps).poolObj? home = some (w.takes ps)
    ∧ (∀ p, p ∈ (m.taken home w ps).pool.free ↔ p ∈ m.pool.free ∧ p ∉ ps) ∧ (∀ h, h ≠ home → (m.taken home w ps).poolObj? h = m.poolObj? h)
    ∧ (m.taken home w ps).pool.waits = m.pool.waits ∧ Mod.sameBut [.mem, .pool] m (m.taken home w ps)
    ∧ (w.create = false → Mod.sameBut [.pool] m (m.taken home w ps)) := by
  unfold Mod.taken
  extract_lets m1 p
  have hs : Mod.sameBut [.mem] m m1 := by
    change Mod.sameBut [.mem] m (if _ then _ else _)
    split
    · exact m.openRuns_sameBut _
    · exact Mod.sameBut_refl _ _
  have hpool : m1.pool = m.pool := hs.pool (by decide)
  have hset : ∀ x, Mod.sameBut [.pool] m1 (Mod.setObj { m1 with pool := x } home (w.takes ps)) := fun x => m1.sameBut_pool _
  refine ⟨Mod.poolObj?_setObj_same _ _ _, fun p => ?_, fun h hne => ?_, ?_, ?_, fun hc => ?_⟩
  · simp [Mod.setObj, hpool]
  · rw [Mod.poolObj?_setObj_other _ _ hne]
    exact Mod.poolObj?_congr hpool h
  · exact (rfl : _ = m1.pool.waits).trans (congrArg PoolUnit.waits hpool)
  · exact Mod.sameBut_trans (Mod.sameBut_mono hs (by decide)) (Mod.sameBut_mono (hset _) (by decide))
  · have e : m1 = m := by simp [m1, hc]
    exact e ▸ hset _

end

/-! ### The commands -/

section
variable {s : State} {home user : Nat} {w : PoolWant} (hr : s.m.running = true) (hc : s.m.chunksFull home user = false)
  (hw : s.m.poolWant home user = some w) {n : Mod}
include hr hc hw

/-- A request that its groom unit may make and that is served. -/
theorem execPoolMoveUp_served (h : s.m.moveUpTry home w = (n, true)) : exec (.poolMoveUp home user) s = .next { s with m := n } := by
  refine exec_unit_eq rfl hr ?_
  simp only [Mod.moveUp, hc, hw, Bool.false_eq_true, if_false]
  rw [h]
  rfl

/-- A request that its groom unit may make and that waits. -/
theorem execPoolMoveUp_waits (h : s.m.moveUpTry home w = (s.m, false)) :
    exec (.poolMoveUp home user) s = .next { s with m := { s.m with pool := { s.m.pool with waits := s.m.pool.waits ++ [⟨home, user, 0⟩] } } } := by
  refine exec_unit_eq rfl hr ?_
  simp only [Mod.moveUp, hc, hw, Bool.false_eq_true, if_false]
  rw [h]
  rfl

end

/-- A request for an object that is not in LOFT. -/
theorem Mod.moveUpTry_some {m : Mod} {home : Nat} {o : PoolObj} (w : PoolWant) (h : m.poolObj? home = some o) :
    (o.st = .hbm ∨ o.st = .movingUp → m.moveUpTry home w = (m.setObj home { o with pins := o.pins + 1, age := 0 }, true))
    ∧ (o.st = .evicting → m.moveUpTry home w = if o.wbStarted then (m, false)
        else ((m.setObj home { o with st := .hbm, pins := o.pins + 1, age := 0 }).fsat Fld.LFT_POOL_CANCEL_COUNT, true)) := by
  refine ⟨fun hs => ?_, fun hs => ?_⟩
  · rcases hs with hs | hs <;> simp only [Mod.moveUpTry, h, hs]
  · simp only [Mod.moveUpTry, h, hs]

/-- What the write-back of a DEFERRED object leaves of the pool. -/
theorem Mod.writeBack_pool (m : Mod) (home : Nat) (o : PoolObj) :
    (m.writeBack home o).pool = (m.setObj home { o with st := .evicting, wbStarted := true, pins := 0 }).pool := by
  rw [Mod.writeBack, (Mod.bindPass_sameBut _ _).pool (by decide), (Mod.fsat_sameBut _ _ _ _ _).pool (by decide)]

/-- The last unpin of a written DEFERRED object starts its write-back; any other takes one pin. -/
theorem Mod.unpin_eq {m : Mod} {home : Nat} {o : PoolObj} (ho : m.poolObj? home = some o) (hp : o.pins ≠ 0) (hw : m.pool.waits = []) :
    m.unpin home = if o.pins = 1 ∧ o.dirty = true ∧ o.owner = 1 then m.writeBack home { o with pins := o.pins - 1, age := 0 }
      else m.setObj home { o with pins := o.pins - 1, age := 0 } := by
  have hone : o.pins - 1 = 0 ↔ o.pins = 1 := by omega
  simp only [Mod.unpin, ho, if_neg hp, hone]
  refine Mod.retryWaits_none _ ?_
  split
  · rw [Mod.writeBack_pool]
    exact hw
  · exact hw

/-- The module after the write-back of an object. -/
def Mod.wroteBack (m : Mod) (home : Nat) (o : PoolObj) (ecc : Ecc) : Mod :=
  (((m.eccDev true (m.objRanges o) ecc).poolCopy home o false).dropObj home).retryWaits.deferredSettle.drainSettle ecc

/-- An object whose write-back is done: what stands in core SRAM and in the pool. -/
theorem Mod.wroteBack_spec {m : Mod} {home : Nat} {o : PoolObj} (ecc : Ecc) (ho : m.poolObj? home = some o) (hw : m.pool.waits = []) (n : Mod)
    (hn : n = m.wroteBack home o ecc) :
    n.pool = (m.dropObj home).pool ∧ n.poolObj? home = none ∧ (∀ p ∈ o.pages, p ∈ n.pool.free) ∧ n.mem.sram = m.mem.sram := by
  rw [Mod.wroteBack] at hn
  have hcopy : ((m.eccDev true (m.objRanges o) ecc).poolCopy home o false).pool = m.pool :=
    ((Mod.poolCopy_sameBut _ _ _ _).pool (by decide)).trans ((m.eccDev_sameBut _ _ _).pool (by decide))
  have hram : ((m.eccDev true (m.objRanges o) ecc).poolCopy home o false).mem.sram = m.mem.sram := (Mod.poolCopy_sram _ _ _ _).trans (m.eccDev_sram true _ _)
  generalize (m.eccDev true (m.objRanges o) ecc).poolCopy home o false = x at hcopy hram hn
  have hwait : (x.dropObj home).retryWaits = x.dropObj home := Mod.retryWaits_none _ ((x.dropObj_waits home).trans (by rw [hcopy, hw]))
  have hpool : n.pool = (m.dropObj home).pool := by
    rw [hn, (Mod.drainSettle_sameBut _ _).pool (by decide), (Mod.deferredSettle_sameBut _).pool (by decide), hwait, Mod.dropObj_pool hcopy]
  refine ⟨hpool, (Mod.poolObj?_congr hpool home).trans (m.poolObj?_dropObj_same home), fun p hp => ?_, ?_⟩
  · rw [hpool]
    exact m.dropObj_free ho p hp
  · rw [hn, Mod.drainSettle_sram, (Mod.deferredSettle_sameBut _).mem (by decide), hwait, (x.dropObj_sameBut home).mem (by decide), hram]

/-- A cancelled eviction is counted. -/
theorem Mod.cancelled_spec (m : Mod) (home : Nat) (o : PoolObj) (n : Mod) (hn : n = (m.setObj home o).fsat Fld.LFT_POOL_CANCEL_COUNT) :
    n.pool = (m.setObj home o).pool
    ∧ n.fget Fld.LFT_POOL_CANCEL_COUNT = min (m.fget Fld.LFT_POOL_CANCEL_COUNT + 1) Fld.LFT_POOL_CANCEL_COUNT.max
    ∧ Mod.sameBut [.regs, .pool] m n := by
  have hset := m.setObj_sameBut home o
  generalize m.setObj home o = x at hset hn ⊢
  have hs : Mod.sameBut [.regs] x n := hn ▸ x.fsat_sameBut _ _ _ _
  refine ⟨hs.pool (by decide), ?_, Mod.sameBut_trans (Mod.sameBut_mono hset (by decide)) (Mod.sameBut_mono hs (by decide))⟩
  rw [hn, x.fget_fsat_same Fld.LFT_POOL_CANCEL_COUNT 1 0 0 (by decide) (by decide), hset.fget (by decide)]

/-- The module after the read of an object. -/
def Mod.movedUp (m : Mod) (home : Nat) (o : PoolObj) (ecc : Ecc) : Mod :=
  (((m.readDev true [(home, o.size)] ecc).eccDev true (m.objTail o) ecc).poolCopy home o true).setObj home { o with st := .hbm }

/-- An object whose read is done. -/
theorem Mod.movedUp_spec (m : Mod) (home : Nat) (o : PoolObj) (ecc : Ecc) (n : Mod) (hn : n = m.movedUp home o ecc) :
    n.pool = (m.setObj home { o with st := .hbm }).pool ∧ n.sched = m.sched ∧ n.mem.sram = m.mem.sram := by
  rw [Mod.movedUp] at hn
  have hread := m.readDev_sameBut true [(home, o.size)] ecc
  have hram := m.readDev_sram true [(home, o.size)] ecc
  generalize m.readDev true [(home, o.size)] ecc = x at hread hram hn
  have hecc := x.eccDev_sameBut true (m.objTail o) ecc
  have hram2 := x.eccDev_sram true (m.objTail o) ecc
  generalize x.eccDev true (m.objTail o) ecc = y at hecc hram2 hn
  have hcopy := y.poolCopy_sameBut home o true
  have hram3 := y.poolCopy_sram home o true
  generalize y.poolCopy home o true = z at hcopy hram3 hn
  have hpool : z.pool = m.pool := (hcopy.pool (by decide)).trans ((hecc.pool (by decide)).trans (hread.pool (by decide)))
  refine ⟨?_, ?_, ?_⟩
  · rw [hn, Mod.setObj, hpool]
    rfl
  · rw [hn, (z.setObj_sameBut _ _).sched (by decide), hcopy.sched (by decide), hecc.sched (by decide), hread.sched (by decide)]
  · rw [hn, (z.setObj_sameBut _ _).mem (by decide), hram3, hram2, hram]

/-- The module after the requests `ws` are left, one being withdrawn. -/
def Mod.withdrawn (m : Mod) (ws : List PoolWait) (user owner pages free : Nat) : Mod :=
  Mod.raiseStep { m with pool := { m.pool with waits := ws } } 0x0A06 user owner pages free

/-- A request that is withdrawn faults the step, or raises its event. -/
theorem Mod.withdrawn_spec (m : Mod) (ws : List PoolWait) (user owner pages free : Nat) (n : Mod)
    (hn : n = m.withdrawn ws user owner pages free) :
    n.pool = { m.pool with waits := ws } ∧ m.reportsCause n .contained 0x0A06 user owner pages free ∧ Mod.sameBut [.evIn, .step, .pool] m n := by
  have hset := m.sameBut_pool { m.pool with waits := ws }
  rw [Mod.withdrawn, Mod.raiseStep] at hn
  have hs : Mod.sameBut [.evIn, .step] _ n := hn ▸ Mod.raiseDual_sameBut _ _ _ _ _ _ _ _
  subst hn
  refine ⟨hs.pool (by decide), Mod.raiseDual_reportsCause _ (by rfl) _ _ _ _ _ _, Mod.sameBut_trans (Mod.sameBut_mono hset (by decide)) (Mod.sameBut_mono hs (by decide))⟩

/-- Settles O42: a request pins, cancels, waits or takes pages; an unpin, a read done, a write-back done and a request given up. -/
theorem poolObjects : Obligations.PoolObjects := by
  unfold Obligations.PoolObjects
  refine ⟨fun s home user w hr hc hw => ⟨fun o ho => ?_, fun ho hpages => ?_⟩, fun s home user o hr ho hp hw => ?_,
    fun s home ecc o hr ho hheld => ⟨fun hst => ?_, fun hst hwb hw => ?_⟩, fun s home user w want hr hf hw ho => ⟨fun hold hev hfew => ?_, fun h => ?_⟩⟩
  · obtain ⟨hres, hevict⟩ := s.m.moveUpTry_some w ho
    refine ⟨fun hst => execPoolMoveUp_served hr hc hw (hres hst), fun hst hwb => ?_, fun hst hwb => ?_⟩
    · have h := (hevict hst).trans (if_neg (by rw [hwb]; decide))
      obtain ⟨h1, h2, h3⟩ := s.m.cancelled_spec home { o with st := .hbm, pins := o.pins + 1, age := 0 } _ rfl
      exact ⟨_, execPoolMoveUp_served hr hc hw h, h1, h2, rfl, rfl, h3⟩
    · exact execPoolMoveUp_waits hr hc hw ((hevict hst).trans (if_pos hwb))
  · obtain ⟨h1, h2, h3, h4, h5, h6⟩ := s.m.taken_spec home w ((s.m.freePages w.unit).take (pagesFor w.size))
    exact ⟨_, execPoolMoveUp_served hr hc hw (s.m.moveUpTry_takes ho hpages), h1, h2, h3, h4, ⟨rfl, rfl, h5⟩, fun hc => ⟨rfl, rfl, h6 hc⟩⟩
  · have h := Mod.unpin_eq ho hp hw
    refine ⟨fun hlast => exec_unit_eq rfl hr (h.trans (if_neg hlast)), fun h1 h2 h3 => ?_⟩
    refine ⟨_, exec_unit_eq rfl hr (h.trans (if_pos ⟨h1, h2, h3⟩)), ?_, rfl, rfl, s.m.writeBack_sameBut _ _⟩
    exact (Mod.poolObj?_congr (s.m.writeBack_pool _ _) home).trans (s.m.poolObj?_setObj_same _ _)
  · have e : exec (.moveUpComplete home ecc) s = .next { s with m := s.m.movedUp home o ecc } :=
      exec_unit_eq rfl hr (by simp only [ho, hst, hheld, and_self, if_true, Mod.movedUp])
    exact ⟨_, e, s.m.movedUp_spec home o ecc _ rfl⟩
  · have e : exec (.writebackComplete home ecc) s = .next { s with m := s.m.wroteBack home o ecc } :=
      exec_unit_eq rfl hr (by simp only [ho, hst, hwb, hheld, and_self, if_true, Mod.wroteBack])
    exact ⟨_, e, s.m.wroteBack_spec ecc ho hw _ rfl⟩
  · have e : exec (.poolExhausted home user) s
        = .next { s with m := s.m.withdrawn (s.m.pool.waits.erase w) user want.owner (pagesFor want.size) s.m.pool.free.length } := by
      refine exec_unit_eq rfl hr ?_
      simp only [hf, hw]
      exact if_pos (by simp [hold, ho, hev, hfew])
    obtain ⟨h1, h2, h3⟩ := s.m.withdrawn_spec (s.m.pool.waits.erase w) user want.owner (pagesFor want.size) s.m.pool.free.length _ rfl
    exact ⟨_, e, h1, h2, rfl, rfl, h3⟩
  · refine exec_unit_self rfl fun _ => ?_
    simp only [hf, hw]
    refine if_neg fun hc => ?_
    simp only [Bool.and_eq_true, decide_eq_true_eq, Option.isNone_iff_eq_none] at hc
    obtain ⟨⟨⟨hold, -⟩, hev⟩, -⟩ := hc
    rcases h with h | h
    · omega
    · rw [hev] at h
      exact nomatch h

end Sys2Proof.Machine
end

section
/-! PROOF. The statement of where a stashed tensor is placed (06_backward_pass.md R157, R158, R160). -/

namespace Sys2Proof.Machine

/-! ### Instances released -/

/-- Records reported, the step with them, stand with the parts they lie in. -/
theorem Mod.reportsCause.of_eq {l m n : Mod} {k : EvClass} {code source d0 d1 d2 : Nat} (h : l.reportsCause m k code source d0 d1 d2)
    (he : n.evIn = m.evIn) (ht : n.tick = m.tick) (hs : n.step = m.step) : l.reportsCause n k code source d0 d1 d2 := by
  unfold Mod.reportsCause at h ⊢
  split
  · next ho =>
    rw [if_pos ho] at h
    exact ⟨Mod.reports_of_eq he ht h.1, hs ▸ h.2⟩
  · next ho =>
    rw [if_neg ho] at h
    exact Mod.reports_of_eq he ht h

theorem Mod.sameBut_pad (m : Mod) (x : PadUnit) : Mod.sameBut [.pad] m { m with pad := x } := by
  constructor <;> intro hp
  case pad => exact (hp (by decide)).elim
  all_goals rfl

theorem kvDel_of_none {α : Type} {xs : Kv α} {k : Nat} (h : kvGet? xs k = none) : kvDel xs k = xs := by
  induction xs with
  | nil => rfl
  | cons x xs ih =>
    obtain ⟨j, v⟩ := x
    by_cases hj : k = j
    · rw [kvGet?, if_pos hj] at h
      exact nomatch h
    · rw [kvGet?, if_neg hj] at h
      rw [kvDel, List.filter_cons_of_pos (by simpa using Ne.symm hj)]
      exact congrArg _ (ih h)

theorem PadUnit.release_insts (p : PadUnit) (key : Nat) : (p.release key).insts = kvDel p.insts key := by
  unfold PadUnit.release
  split
  · rfl
  · rfl
  · next h => exact (kvDel_of_none h).symm

theorem PadUnit.release_dropped (p : PadUnit) (key : Nat) : (p.release key).dropped = p.dropped := by
  unfold PadUnit.release
  split <;> rfl

theorem Mod.foldl_padRelease_insts (xs : List (Nat × PadInst)) (m : Mod) (e : Nat × PadInst) :
    e ∈ (xs.foldl (fun x e => x.padRelease e.1) m).pad.insts ↔ e ∈ m.pad.insts ∧ ∀ x ∈ xs, e.1 ≠ x.1 := by
  induction xs generalizing m with
  | nil => simp
  | cons x xs ih =>
    have h : (m.padRelease x.1).pad.insts = kvDel m.pad.insts x.1 := m.pad.release_insts x.1
    rw [List.foldl_cons, ih, h]
    simp [kvDel, and_assoc]

/-- Every stashed tensor is released. -/
theorem Mod.padReleaseAll_insts (m : Mod) : m.padReleaseAll.pad.insts = [] :=
  List.eq_nil_iff_forall_not_mem.2 fun e he => by
    obtain ⟨h1, h2⟩ := (Mod.foldl_padRelease_insts _ m e).1 he
    exact h2 e h1 rfl

/-! ### A unit dropped -/

/-- One stashed tensor dropped. -/
def Mod.dropInst (m : Mod) (e : Nat × PadInst) : Mod := (m.padRelease e.1).setInst e.1 { e.2 with place := .dropped }

/-- The stashed tensor at a key is dropped. -/
def Mod.instDropped (m : Mod) (key : Nat) : Prop := ∃ i, kvGet? m.pad.insts key = some i ∧ i.place = .dropped

theorem Mod.dropInst_same (m : Mod) (e : Nat × PadInst) : (m.dropInst e).instDropped e.1 := ⟨_, kvGet?_kvSet_same _ _ _, rfl⟩

theorem Mod.dropInst_keeps {m : Mod} {key : Nat} (e : Nat × PadInst) (h : m.instDropped key) : (m.dropInst e).instDropped key := by
  obtain ⟨i, hi, hd⟩ := h
  by_cases he : key = e.1
  · exact he ▸ m.dropInst_same e
  · refine ⟨i, ?_, hd⟩
    have h : (m.padRelease e.1).pad.insts = kvDel m.pad.insts e.1 := m.pad.release_insts e.1
    rw [Mod.dropInst, Mod.setInst, kvGet?_kvSet_other _ _ he, h, kvGet?_kvDel_other _ he, hi]

theorem Mod.foldl_dropInst (xs : List (Nat × PadInst)) (m : Mod) (key : Nat) (h : m.instDropped key ∨ ∃ e ∈ xs, e.1 = key) :
    (xs.foldl Mod.dropInst m).instDropped key := by
  induction xs generalizing m with
  | nil => exact h.elim id fun ⟨_, he, _⟩ => nomatch he
  | cons x xs ih =>
    refine ih _ ?_
    rcases h with h | ⟨e, he, hk⟩
    · exact .inl (Mod.dropInst_keeps x h)
    · rcases List.mem_cons.1 he with rfl | he
      · exact .inl (hk ▸ m.dropInst_same e)
      · exact .inr ⟨e, he, hk⟩

theorem Mod.foldl_dropInst_dropped (xs : List (Nat × PadInst)) (m : Mod) : (xs.foldl Mod.dropInst m).pad.dropped = m.pad.dropped := by
  induction xs generalizing m with
  | nil => rfl
  | cons x xs ih => exact (ih _).trans (m.pad.release_dropped x.1)

/-- A unit dropped: each of its instances is, the count goes up, and it is reported. -/
theorem Mod.dropLayer_spec (m : Mod) (layer mb record : Nat) (n : Mod) (hn : n = m.dropLayer layer mb record) :
    (∀ e ∈ m.dropUnit layer mb, n.instDropped e.1) ∧ n.pad.dropped = m.pad.dropped + 1
    ∧ ∃ src, n.reports .contained 0x0702 src layer mb (m.fget Fld.GRM_STEP_STEP) := by
  unfold Mod.dropLayer at hn
  extract_lets us m1 src at hn
  have h1 : m1 = us.foldl Mod.dropInst m := rfl
  subst hn
  refine ⟨fun e he => ?_, ?_, src, Mod.raise_reports _ _ _ _ _ _ _⟩
  · obtain ⟨i, hi, hd⟩ := m.foldl_dropInst us e.1 (.inr ⟨e, he, rfl⟩)
    exact ⟨i, by rw [← h1] at hi; exact hi, hd⟩
  · exact congrArg (· + 1) (Mod.foldl_dropInst_dropped us m)

theorem mem_kvSet_same {α : Type} (xs : Kv α) (k : Nat) (v : α) : (k, v) ∈ kvSet xs k v := by
  induction xs with
  | nil => exact .head _
  | cons x xs ih =>
    rw [kvSet]
    split
    · exact .head _
    · split
      · exact .head _
      · exact .tail _ ih

/-- The stashed tensor a record is about to place belongs to its own layer's unit. -/
theorem Mod.mem_dropUnit_setInst {m : Mod} {record mb size : Nat} {r : PadRec} (hr : m.padRec? record = some r) (he : r.eligible = true)
    (hmb : mb < 256) : (padKey r.id mb, ⟨.pages [], size, false⟩) ∈ (m.setInst (padKey r.id mb) ⟨.pages [], size, false⟩).dropUnit r.layer mb := by
  have hrec : r ∈ m.padRecs := List.mem_of_find?_eq_some hr
  have h1 : padKey r.id mb % 256 = mb := by rw [padKey]; omega
  have h2 : padKey r.id mb / 256 = r.id := by rw [padKey]; omega
  refine List.mem_filter.2 ⟨mem_kvSet_same _ _ _, ?_⟩
  simp only [h1, h2, Bool.and_eq_true, beq_self_eq_true, true_and, List.any_eq_true]
  exact ⟨rfl, r, hrec, by simp [he]⟩

/-! ### Where a stashed tensor is placed -/

section
variable {m : Mod} {r : PadRec} {key size : Nat}

/-- Pages of the record's region that a stashed tensor takes. -/
def Mod.ownPages (m : Mod) (r : PadRec) (size : Nat) : List Nat :=
  (m.pad.free.filter (fun p => decide ((padRange r.id m.padRegions 0).1 ≤ p)
    && decide (p < (padRange r.id m.padRegions 0).1 + (padRange r.id m.padRegions 0).2))).take (pagesFor size)

/-- A stashed tensor placed in the pages `ps` of its region. -/
def Mod.inPages (m : Mod) (key size : Nat) (ps : List Nat) : Mod :=
  (Mod.setInst { m with pad := { m.pad with free := m.pad.free.filter (fun p => !ps.contains p) } } key ⟨.pages ps, size, false⟩).padLow

/-- A stashed tensor placed in the spill pages `ps`. -/
def Mod.inSpill (m : Mod) (key size : Nat) (ps : List Nat) : Mod :=
  Mod.setInst { m with pool := { m.pool with spillFree := m.pool.spillFree.filter (fun p => !ps.contains p) },
                       pad := { m.pad with spilled := m.pad.spilled + 1 } } key ⟨.spill ps, size, false⟩

theorem Mod.placePages_eq : m.placePages r key size
    = if (m.ownPages r size).length = pagesFor size then some (m.inPages key size (m.ownPages r size)) else none := rfl

theorem Mod.placeNow_pages (h : (m.ownPages r size).length = pagesFor size) : m.placeNow r key size = some (m.inPages key size (m.ownPages r size)) := by
  rw [Mod.placeNow, Mod.placePages_eq, if_pos h]
  rfl

theorem Mod.placeNow_noPages (h : (m.ownPages r size).length ≠ pagesFor size) : m.placeNow r key size = m.placeSpill r key size := by
  rw [Mod.placeNow, Mod.placePages_eq, if_neg h]
  rfl

theorem Mod.placeSpill_run (hs : r.noSpill = false) {ps : List Nat} (h : freeRun m.pool.spillFree (pagesFor size) = some ps) :
    m.placeSpill r key size = some (m.inSpill key size ps) := by
  rw [Mod.placeSpill, hs, if_neg (by decide), h]
  rfl

theorem Mod.placeSpill_none (h : r.noSpill = true ∨ freeRun m.pool.spillFree (pagesFor size) = none) : m.placeSpill r key size = none := by
  rw [Mod.placeSpill]
  rcases h with h | h
  · rw [h, if_pos rfl]
  · rw [h]
    split <;> rfl

theorem Mod.inPages_spec (m : Mod) (key size : Nat) (ps : List Nat) : kvGet? (m.inPages key size ps).pad.insts key = some ⟨.pages ps, size, false⟩
    ∧ (∀ p, p ∈ (m.inPages key size ps).pad.free ↔ p ∈ m.pad.free ∧ p ∉ ps)
    ∧ (∀ k, k ≠ key → kvGet? (m.inPages key size ps).pad.insts k = kvGet? m.pad.insts k) ∧ Mod.sameBut [.regs, .pad] m (m.inPages key size ps) := by
  have hs := Mod.setInst_sameBut { m with pad := { m.pad with free := m.pad.free.filter (fun p => !ps.contains p) } } key ⟨.pages ps, size, false⟩
  have hpad : (m.inPages key size ps).pad = _ := (Mod.padLow_sameBut _).pad (by decide)
  refine ⟨?_, fun p => ?_, fun k hk => ?_, ?_⟩
  · rw [hpad]
    exact kvGet?_kvSet_same _ _ _
  · rw [hpad]
    simp [Mod.setInst]
  · rw [hpad]
    exact kvGet?_kvSet_other _ _ hk
  · refine Mod.sameBut_trans (Mod.sameBut_mono (m.sameBut_pad _) (by decide)) (Mod.sameBut_mono (Mod.padLow_sameBut _) (by decide))

theorem Mod.inSpill_spec (m : Mod) (key size : Nat) (ps : List Nat) : kvGet? (m.inSpill key size ps).pad.insts key = some ⟨.spill ps, size, false⟩
    ∧ (m.inSpill key size ps).pad.spilled = m.pad.spilled + 1 ∧ (∀ p, p ∈ (m.inSpill key size ps).pool.spillFree ↔ p ∈ m.pool.spillFree ∧ p ∉ ps)
    ∧ Mod.sameBut [.pool, .pad] m (m.inSpill key size ps) := by
  refine ⟨kvGet?_kvSet_same _ _ _, rfl, fun p => ?_, ?_⟩
  · simp [Mod.inSpill, Mod.setInst]
  · exact Mod.sameBut_trans (Mod.sameBut_mono (m.sameBut_pool _) (by decide)) (Mod.sameBut_mono (Mod.sameBut_pad _ _) (by decide))

/-- A record that cannot be placed: the step faults and every stashed tensor is released. -/
theorem Mod.stashExhausted_spec (m : Mod) (r : PadRec) (mb size : Nat) (n : Mod) (hn : n = m.stashExhausted r mb size) :
    n.pad.insts = [] ∧ m.reportsCause n .contained 0x0703 r.id r.layer mb (pagesFor size)
    ∧ n.fget Fld.HBM_PAD_EXHAUST_COUNT = min (m.fget Fld.HBM_PAD_EXHAUST_COUNT + 1) Fld.HBM_PAD_EXHAUST_COUNT.max := by
  have hrep := m.raiseDual_reportsCause m rfl .contained 0x0703 r.id r.layer mb (pagesFor size)
  have hfget : (m.raiseDual true .contained 0x0703 r.id r.layer mb (pagesFor size)).fget Fld.HBM_PAD_EXHAUST_COUNT = m.fget Fld.HBM_PAD_EXHAUST_COUNT :=
    m.fget_raiseDual _ _ _ _ _ _ _ _ _ _
  rw [Mod.stashExhausted, Mod.raiseStep] at hn
  generalize m.raiseDual true .contained 0x0703 r.id r.layer mb (pagesFor size) = x at hrep hfget hn
  have hsat := x.fsat_sameBut Fld.HBM_PAD_EXHAUST_COUNT 1 0 0
  have hcount := x.fget_fsat_same Fld.HBM_PAD_EXHAUST_COUNT 1 0 0 (by decide) (by decide)
  generalize x.fsat Fld.HBM_PAD_EXHAUST_COUNT = y at hsat hcount hn
  have hall := y.padReleaseAll_sameBut
  refine ⟨hn ▸ y.padReleaseAll_insts, ?_, ?_⟩
  · rw [← hn] at hall
    exact hrep.of_eq ((hall.evIn (by decide)).trans (hsat.evIn (by decide))) ((hall.tick (by decide)).trans (hsat.tick (by decide)))
      ((hall.step (by decide)).trans (hsat.step (by decide)))
  · rw [hn, hall.fget (by decide), hcount, hfget]

theorem Mod.placeRecord_now {mb : Nat} {x : Mod} (h : m.placeNow r (padKey r.id mb) size = some x) : m.placeRecord r mb size = x := by
  simp only [Mod.placeRecord, h]

theorem Mod.placeRecord_dropped {mb : Nat} (h : m.placeNow r (padKey r.id mb) size = none) (he : r.eligible = true) (hok : m.dropOk r.layer mb = true) :
    m.placeRecord r mb size = (m.setInst (padKey r.id mb) ⟨.pages [], size, false⟩).dropLayer r.layer mb r.id := by
  simp only [Mod.placeRecord, h, he, hok, Bool.and_self, if_true]

theorem Mod.placeRecord_exhausted {mb : Nat} (h : m.placeNow r (padKey r.id mb) size = none) (he : r.eligible = false) (hk : m.dropKeys = []) :
    m.placeRecord r mb size = m.stashExhausted r mb size := by
  have hd : Mod.placeDropping r (padKey r.id mb) size (m.pad.insts.length + 1) m = (m, false) := by
    simp only [Mod.placeDropping, Mod.dropNext, hk, leastDrop, Option.map_none]
  simp only [Mod.placeRecord, h, he, Bool.false_and, Bool.false_eq_true, if_false, hd]

end

/-- Settles O43: a stashed tensor goes to its own region's pages, to spill pages, is dropped with its layer's unit, or the stash is exhausted. -/
theorem paddockPlacement : Obligations.PaddockPlacement := by
  unfold Obligations.PaddockPlacement
  intro s stream d r hr hd hrec hkind hrun hframes hcause hahead htile hwait mb key need range own hkey
  have he : ∀ n, s.m.placeRecord r mb d.tileBytes = n → exec (.stashPlace stream) s = .next { s with m := n } := fun n hn => by
    refine exec_unit_eq rfl hr (Eq.trans ?_ hn)
    simp only [hd, hrec]
    exact if_pos ⟨hkind, hrun, hframes, by rw [hcause]; rfl, by rw [hahead]; rfl, htile, hwait, by rw [hkey]; rfl⟩
  have hlate : own.length ≠ need → s.m.placeNow r key d.tileBytes = s.m.placeSpill r key d.tileBytes := Mod.placeNow_noPages
  refine ⟨fun hown => ?_, fun hown hsp ps hps => ?_, fun hown hsp hel hok hmb => ?_, fun hown hsp hel hkeys => ?_⟩
  · obtain ⟨h1, h2, h3, h4⟩ := s.m.inPages_spec key d.tileBytes own
    exact ⟨_, he (s.m.inPages key d.tileBytes own) (Mod.placeRecord_now (Mod.placeNow_pages hown)), h1, h2, h3, rfl, rfl, h4⟩
  · obtain ⟨h1, h2, h3, h4⟩ := s.m.inSpill_spec key d.tileBytes ps
    exact ⟨_, he (s.m.inSpill key d.tileBytes ps) (Mod.placeRecord_now ((hlate hown).trans (Mod.placeSpill_run hsp hps))), h1, h2, h3, rfl, rfl, h4⟩
  · have hset := s.m.setInst_sameBut key ⟨.pages [], d.tileBytes, false⟩
    obtain ⟨h1, h2, src, h3⟩ := Mod.dropLayer_spec (s.m.setInst key ⟨.pages [], d.tileBytes, false⟩) r.layer mb r.id _ rfl
    obtain ⟨i, hi, hdrop⟩ := h1 _ (Mod.mem_dropUnit_setInst hrec hel hmb)
    rw [hset.fget (by decide)] at h3
    exact ⟨_, src, i, he _ (Mod.placeRecord_dropped ((hlate hown).trans (Mod.placeSpill_none hsp)) hel hok), hi, hdrop, h2, h3⟩
  · exact ⟨_, he _ (Mod.placeRecord_exhausted ((hlate hown).trans (Mod.placeSpill_none hsp)) hel hkeys), s.m.stashExhausted_spec r mb d.tileBytes _ rfl⟩

end Sys2Proof.Machine
end

section
/-! PROOF. What the operations of fabric ports leave (12_fabric_ports.md R327 to R332). -/

namespace Sys2Proof.Machine

/-! ### Ports -/

section
variable (m : Mod)

theorem Mod.port_setPort_same (p : Nat) (x : Port) : (m.setPort p x).port p = x := kvGetD_kvSet_same _ _ _ _

theorem Mod.port_setPort_other {p q : Nat} (x : Port) (h : q ≠ p) : (m.setPort p x).port q = m.port q := kvGetD_kvSet_other _ _ _ h

variable {m}

/-- A change that leaves the fabric leaves its ports. -/
theorem Mod.sameBut.port {ps : List Part} {n : Mod} (h : Mod.sameBut ps m n) (hf : Part.fab ∉ ps) (hv : Part.variant ∉ ps) (p : Nat) :
    n.port p = m.port p := by
  rw [Mod.port, Mod.portRest, h.fab hf, h.variant hv, Mod.port, Mod.portRest]

theorem Mod.sameBut.activePorts {ps : List Part} {n : Mod} (h : Mod.sameBut ps m n) (hp : Part.plt ∉ ps) : n.activePorts = m.activePorts := by
  simp only [Mod.activePorts, Mod.routes, Mod.plate?, h.plt hp]

theorem Mod.trace_regsKeep (m : Mod) (kind inst d0 d1 d2 d3 : Nat) : m.regsKeep [Reg.DBG_TRACE_PTR.base] (m.trace kind inst d0 d1 d2 d3) := by
  unfold Mod.trace
  split
  · extract_lets ix r _ m1 m2 full m3 stop1 _ m4
    have h2 : m.regsKeep [Reg.DBG_TRACE_PTR.base] m2 := m1.fset_regsKeep Fld.DBG_TRACE_PTR_NEXT _ 0 0
    have h3 : m.regsKeep [Reg.DBG_TRACE_PTR.base] m3 := by
      change Mod.regsKeep _ m (if _ then _ else _)
      split
      · exact Mod.regsKeep_trans h2 (m2.fset_regsKeep Fld.DBG_TRACE_PTR_WRAPPED _ 0 0)
      · exact h2
    have h4 : m.regsKeep [Reg.DBG_TRACE_PTR.base] m4 := by
      change Mod.regsKeep _ m (if _ then _ else _)
      split
      · exact Mod.regsKeep_to _ h3 rfl
      · exact h3
    split
    · exact Mod.regsKeep_to _ h4 rfl
    · exact h4
  · exact Mod.regsKeep_of_regs_eq rfl _

/-! ### Flits moved between ports -/

/-- `n` is `m` with flits queued or discarded: only queues, FAB_UNREACH and records change. -/
structure Mod.flitsMoved (m n : Mod) : Prop where
  queues : ∀ q, ∃ fs, n.port q = { m.port q with queue := fs }
  regs : m.regsKeep [Reg.FAB_UNREACH.base] n
  events : ∀ r ∈ m.evIn, r ∈ n.evIn
  rest : Mod.sameBut [.regs, .evIn, .fab] m n

theorem Mod.flitsMoved.refl (m : Mod) : Mod.flitsMoved m m :=
  ⟨fun q => ⟨(m.port q).queue, rfl⟩, Mod.regsKeep_of_regs_eq rfl _, fun _ h => h, Mod.sameBut_refl _ _⟩

theorem Mod.flitsMoved.trans {l m n : Mod} (h1 : Mod.flitsMoved l m) (h2 : Mod.flitsMoved m n) : Mod.flitsMoved l n :=
  ⟨fun q => by
    obtain ⟨fs, e1⟩ := h1.queues q
    obtain ⟨gs, e2⟩ := h2.queues q
    exact ⟨gs, by rw [e2, e1]⟩, Mod.regsKeep_trans h1.regs h2.regs, fun r hr => h2.events r (h1.events r hr), Mod.sameBut_trans h1.rest h2.rest⟩

theorem Mod.flitsMoved.reports {m n : Mod} (h : Mod.flitsMoved m n) {k : EvClass} {code source d0 d1 d2 : Nat} (hr : m.reports k code source d0 d1 d2) :
    n.reports k code source d0 d1 d2 := by
  rw [Mod.reports, h.rest.tick (by decide)]
  exact h.events _ hr

theorem Mod.enqueue_port (m : Mod) (p : Nat) (f : TFlit) (q : Nat) :
    (m.enqueue p f).port q = { m.port q with queue := (m.port q).queue ++ if q = p then [f] else [] } := by
  by_cases h : q = p
  · rw [if_pos h, h]
    exact m.port_setPort_same _ _
  · rw [if_neg h, List.append_nil]
    exact m.port_setPort_other _ h

theorem Mod.mem_raise_evIn (m : Mod) (k : EvClass) (code source d0 d1 d2 : Nat) : ∀ r ∈ m.evIn, r ∈ (m.raise k code source d0 d1 d2).evIn :=
  fun r h => by simp [Mod.raise, mem_evInsert, h]

theorem Mod.flitsMoved.of_raise {m d : Mod} (hq : ∀ q, d.port q = m.port q) (hr : m.regsKeep [Reg.FAB_UNREACH.base] d) (he : d.evIn = m.evIn)
    (hs : Mod.sameBut [.regs, .evIn, .fab] m d) (k : EvClass) (code source d0 d1 d2 : Nat) : Mod.flitsMoved m (d.raise k code source d0 d1 d2) := by
  have hraise := d.raise_sameBut k code source d0 d1 d2
  refine ⟨fun q => ⟨(m.port q).queue, ?_⟩, Mod.regsKeep_to _ hr (hraise.regs (by decide)), ?_, Mod.sameBut_trans hs (Mod.sameBut_mono hraise (by decide))⟩
  · rw [hraise.port (by decide) (by decide), hq]
  · rw [← he]
    exact d.mem_raise_evIn _ _ _ _ _ _

theorem Mod.flitsMoved.of_regs {m d : Mod} (hs : Mod.sameBut [.regs] m d) (hr : m.regsKeep [Reg.FAB_UNREACH.base] d) : Mod.flitsMoved m d := by
  refine ⟨fun q => ⟨(m.port q).queue, hs.port (by decide) (by decide) q⟩, hr, ?_, Mod.sameBut_mono hs (by decide)⟩
  rw [hs.evIn (by decide)]
  exact fun _ h => h

theorem Mod.enqueue_moved (m : Mod) (p : Nat) (f : TFlit) : Mod.flitsMoved m (m.enqueue p f) := by
  have hs := m.enqueue_sameBut p f
  refine ⟨fun q => ⟨_, m.enqueue_port p f q⟩, m.regsKeep_sameBut hs rfl _, ?_, Mod.sameBut_mono hs (by decide)⟩
  rw [hs.evIn (by decide)]
  exact fun _ h => h

theorem Mod.place_moved (m : Mod) (ingress : Option Nat) (f : TFlit) : Mod.flitsMoved m (m.place ingress f) := by
  unfold Mod.place
  split
  · exact m.enqueue_moved _ _
  · extract_lets m1
    have hs : Mod.sameBut [.regs] m m1 := m.fsat_sameBut _ _ _ _
    have hr : m.regsKeep [Reg.FAB_UNREACH.base] m1 := m.fsat_regsKeep Fld.FAB_UNREACH_COUNT 1 0 0
    clear_value m1
    have hf := m1.sameBut_fab { m1.fab with unreachRaised := true }
    have hq : ∀ q, Mod.port { m1 with fab := { m1.fab with unreachRaised := true } } q = m1.port q := fun q => by simp only [Mod.port, Mod.portRest]
    have hregs : Mod.regs { m1 with fab := { m1.fab with unreachRaised := true } } = m1.regs := rfl
    generalize ({ m1 with fab := { m1.fab with unreachRaised := true } } : Mod) = d at hf hq hregs ⊢
    split
    · exact .of_regs hs hr
    · exact .of_raise (fun q => (hq q).trans (hs.port (by decide) (by decide) q)) (Mod.regsKeep_to _ hr hregs)
        ((hf.evIn (by decide)).trans (hs.evIn (by decide))) (Mod.sameBut_trans (Mod.sameBut_mono hs (by decide)) (Mod.sameBut_mono hf (by decide))) _ _ _ _ _ _

theorem Mod.reroute_moved (m : Mod) (fs : List TFlit) : Mod.flitsMoved m (m.reroute fs) := by
  induction fs generalizing m with
  | nil => exact .refl m
  | cons f fs ih => exact (m.place_moved _ _).trans (ih _)

/-! ### A port that changes its state -/

/-- What a port keeps as it enters a state. -/
def Port.entering (x : Port) (st : PortState) (cause : Nat) : Port :=
  let y := if x.st.carries && !st.carries then { x with queue := [], retry := [], resend := none, confirmed := false } else x
  if st = .down ∨ st = .failed then
    { Port.rest st with half := y.half, prbs := y.prbs, txCount := y.txCount, rxCount := y.rxCount, creditRaised := y.creditRaised,
                        failedLanes := if cause = 8 then 0 else y.failedLanes }
  else { y with st := st }

theorem Port.entering_st (x : Port) (st : PortState) (cause : Nat) : (x.entering st cause).st = st := by
  unfold Port.entering
  dsimp only
  split <;> rfl

theorem Port.entering_down_retry (x : Port) {st : PortState} (cause : Nat) (h : st = .down ∨ st = .failed) : (x.entering st cause).retry = [] := by
  unfold Port.entering
  dsimp only
  rw [if_pos h]
  rfl

theorem Port.entering_leaves_retry {x : Port} {st : PortState} (cause : Nat) (h1 : x.st.carries = true) (h2 : st.carries = false) :
    (x.entering st cause).retry = [] := by
  unfold Port.entering
  rw [h1, h2]
  dsimp only
  split <;> rfl

theorem Port.entering_down_failedLanes (x : Port) (cause : Nat) :
    (x.entering .down cause).failedLanes = if cause = 8 then 0 else x.failedLanes := by
  unfold Port.entering
  dsimp only
  rw [if_pos (.inl rfl)]
  dsimp only
  split
  · rfl
  · split <;> rfl

/-- `n` is `m` with port `p` in state `st` for the reason `cause`. -/
structure Mod.portMoved (p : Nat) (st : PortState) (cause : Nat) (m n : Mod) : Prop where
  port : ∃ fs, n.port p = { (m.port p).entering st cause with queue := fs }
  others : ∀ q, q ≠ p → ∃ fs, n.port q = { m.port q with queue := fs }
  why : n.fget Fld.FAB_STATUS_CAUSE p = cause
  regs : m.regsKeep [Reg.FAB_STATUS.addr p 0, Reg.FAB_ERR.addr p 0, Reg.DBG_TRACE_PTR.base, Reg.FAB_UNREACH.base] n
  reported : (m.port p).st.carries = true → st.carries = false → p ∈ m.activePorts → cause ≠ 10 → cause ≠ 8 →
    n.reports .contained 0x0B01 p cause st.code (((m.port p).nbr.map (·.module)).getD 0) ∧ n.fget Fld.FAB_ERR_DOWN p = 1
  rest : Mod.sameBut [.regs, .evIn, .fab, .dbg] m n
  events : ∀ r ∈ m.evIn, r ∈ n.evIn
  errs : ∀ g : Fld, g.reg = Reg.FAB_ERR → (g.hi < 3 ∨ 3 < g.lo) → (g.hi < Fld.FAB_ERR_FAILED.lo ∨ Fld.FAB_ERR_FAILED.hi < g.lo) →
    n.fget g p = m.fget g p

theorem Mod.portMoved.st {p cause : Nat} {st : PortState} {m n : Mod} (h : Mod.portMoved p st cause m n) : (n.port p).st = st := by
  obtain ⟨fs, e⟩ := h.port
  rw [e]
  exact Port.entering_st _ _ _

theorem Mod.portMoved.others_st {p cause : Nat} {st : PortState} {m n : Mod} (h : Mod.portMoved p st cause m n) (q : Nat) (hq : q ≠ p) :
    (n.port q).st = (m.port q).st := by
  obtain ⟨fs, e⟩ := h.others q hq
  rw [e]

/-- The registers of a port that a change of its state sets lie apart from those of the trace and of routing. -/
theorem fabPort_apart (p : Nat) : (∀ a, a = Reg.FAB_STATUS.addr p 0 ∨ a = Reg.FAB_ERR.addr p 0 → a ∉ [Reg.DBG_TRACE_PTR.base])
    ∧ ∀ a, a = Reg.FAB_STATUS.addr p 0 ∨ a = Reg.FAB_ERR.addr p 0 → a ∉ [Reg.FAB_UNREACH.base] := by
  simp only [RegSpec.addr, Reg.FAB_STATUS, Reg.FAB_ERR, Reg.DBG_TRACE_PTR, Reg.FAB_UNREACH, List.mem_singleton]
  exact ⟨fun a ha => by omega, fun a ha => by omega⟩

theorem Mod.portTo_moved (m : Mod) (p : Nat) {st : PortState} {cause : Nat} (hc : cause < 256) (hx : (m.port p).st ≠ .disabled) :
    Mod.portMoved p st cause m (m.portTo p st cause) := by
  unfold Mod.portTo
  extract_lets x leaves owed y _ z m1 m2 m3
  rw [if_neg hx]
  have hz : z = x.entering st cause := rfl
  clear_value z
  have hset := m.setPort_sameBut p z
  have hport : (m.setPort p z).port p = z := m.port_setPort_same p z
  have hothers : ∀ q, q ≠ p → (m.setPort p z).port q = m.port q := fun q hq => m.port_setPort_other z hq
  have hact : (m.setPort p z).activePorts = m.activePorts := hset.activePorts (by decide)
  have hregs : (m.setPort p z).regs = m.regs := rfl
  have s1 : Mod.sameBut [.regs] (m.setPort p z) m1 := (m.setPort p z).fset_sameBut Fld.FAB_STATUS_CAUSE cause p 0
  have r1 : (m.setPort p z).regsKeep [Reg.FAB_STATUS.addr p 0] m1 := (m.setPort p z).fset_regsKeep Fld.FAB_STATUS_CAUSE cause p 0
  have c1 : m1.fget Fld.FAB_STATUS_CAUSE p = cause :=
    ((m.setPort p z).fget_fset_same Fld.FAB_STATUS_CAUSE cause p 0 (by decide)).trans (Nat.mod_eq_of_lt hc)
  clear_value m1
  generalize m.setPort p z = m0 at *
  have k2 : Mod.sameBut [.regs] m1 m2 ∧ m1.regsKeep [Reg.FAB_ERR.addr p 0] m2
      ∧ ∀ g : Fld, g.reg = Reg.FAB_ERR → (g.hi < Fld.FAB_ERR_FAILED.lo ∨ Fld.FAB_ERR_FAILED.hi < g.lo) → m2.fget g p = m1.fget g p := by
    by_cases hcond : st = .failed
    on_goal 1 => rw [show m2 = _ from if_pos hcond]
    on_goal 2 => rw [show m2 = _ from if_neg hcond]
    · exact ⟨m1.fset_sameBut _ _ _ _, m1.fset_regsKeep Fld.FAB_ERR_FAILED _ _ _, fun g hr hg => m1.fget_fset_otherField Fld.FAB_ERR_FAILED g 1 p 0 hr (by decide) hg⟩
    · exact ⟨Mod.sameBut_refl _ _, Mod.regsKeep_of_regs_eq rfl _, fun _ _ _ => rfl⟩
  obtain ⟨s2, r2, e2⟩ := k2
  clear_value m2
  have k3 : Mod.sameBut [.regs, .evIn] m2 m3 ∧ m2.regsKeep [Reg.FAB_ERR.addr p 0] m3
      ∧ ((leaves && m.activePorts.contains p && cause != 10 && cause != 8) = true →
        m3.reports .contained 0x0B01 p cause st.code ((x.nbr.map (·.module)).getD 0) ∧ m3.fget Fld.FAB_ERR_DOWN p = 1)
      ∧ (∀ r ∈ m2.evIn, r ∈ m3.evIn) ∧ ∀ g : Fld, g.reg = Reg.FAB_ERR → (g.hi < 3 ∨ 3 < g.lo) → m3.fget g p = m2.fget g p := by
    by_cases hcond : (leaves && m.activePorts.contains p && cause != 10 && cause != 8) = true
    on_goal 1 => rw [show m3 = _ from if_pos hcond]
    on_goal 2 => rw [show m3 = _ from if_neg hcond]
    · have hs := m2.fset_sameBut Fld.FAB_ERR_DOWN 1 p 0
      have hr := m2.fset_regsKeep Fld.FAB_ERR_DOWN 1 p 0
      have hb := m2.fget_fset_bit Fld.FAB_ERR_DOWN p 0 rfl
      have ho : ∀ g : Fld, g.reg = Reg.FAB_ERR → (g.hi < 3 ∨ 3 < g.lo) → (m2.fset Fld.FAB_ERR_DOWN 1 p).fget g p = m2.fget g p := fun g hr hg =>
        m2.fget_fset_otherField Fld.FAB_ERR_DOWN g 1 p 0 hr (by decide) hg
      generalize m2.fset Fld.FAB_ERR_DOWN 1 p = d at hs hr hb ho ⊢
      have hraise := d.raise_sameBut .contained 0x0B01 p cause st.code ((x.nbr.map (·.module)).getD 0)
      refine ⟨Mod.sameBut_trans (Mod.sameBut_mono hs (by decide)) (Mod.sameBut_mono hraise (by decide)),
        Mod.regsKeep_to _ hr (hraise.regs (by decide)), fun _ => ⟨Mod.raise_reports _ _ _ _ _ _ _, ?_⟩, ?_, fun g hg hd => ?_⟩
      · exact (Mod.fget_raise _ _ _ _ _ _ _ _ _ _).trans hb
      · rw [← hs.evIn (by decide)]
        exact d.mem_raise_evIn _ _ _ _ _ _
      · exact (Mod.fget_raise _ _ _ _ _ _ _ _ _ _).trans (ho g hg hd)
    · exact ⟨Mod.sameBut_refl _ _, Mod.regsKeep_of_regs_eq rfl _, fun hc => (hcond hc).elim, fun _ h => h, fun _ _ _ => rfl⟩
  obtain ⟨s3, r3, d3, v3, e3⟩ := k3
  clear_value m3
  have s4 := m3.trace_sameBut 7 p st.code cause 0 0
  have r4 := m3.trace_regsKeep 7 p st.code cause 0 0
  generalize m3.trace 7 p st.code cause = m4 at s4 r4 ⊢
  have hmove := m4.reroute_moved owed
  generalize m4.reroute owed = n at hmove ⊢
  have s04 : Mod.sameBut [.regs, .evIn, .dbg] m0 m4 :=
    Mod.sameBut_trans (Mod.sameBut_mono s1 (by decide)) (Mod.sameBut_trans (Mod.sameBut_mono s2 (by decide))
      (Mod.sameBut_trans (Mod.sameBut_mono s3 (by decide)) (Mod.sameBut_mono s4 (by decide))))
  have hfar := fabPort_apart p
  have hne : Fld.FAB_STATUS_CAUSE.reg.addr p 0 ∉ [Reg.FAB_ERR.addr p 0] := by
    simp only [Fld.FAB_STATUS_CAUSE, Reg.FAB_STATUS, Reg.FAB_ERR, RegSpec.addr, List.mem_singleton]
    omega
  refine ⟨?_, fun q hq => ?_, ?_, ?_, fun hx hst hact hc10 hc8 => ?_, ?_, fun r hr => ?_, fun g hg h3 hf => ?_⟩
  · obtain ⟨fs, e⟩ := hmove.queues p
    exact ⟨fs, by rw [e, s04.port (by decide) (by decide), hport, hz]⟩
  · obtain ⟨fs, e⟩ := hmove.queues q
    exact ⟨fs, by rw [e, s04.port (by decide) (by decide), hothers q hq]⟩
  · rw [Mod.regsKeep_fget hmove.regs _ _ _ (hfar.2 _ (.inl rfl)), Mod.regsKeep_fget r4 _ _ _ (hfar.1 _ (.inl rfl)), Mod.regsKeep_fget r3 _ _ _ hne,
      Mod.regsKeep_fget r2 _ _ _ hne, c1]
  · refine Mod.regsKeep_trans (Mod.regsKeep_of_regs_eq hregs _) (Mod.regsKeep_trans (Mod.regsKeep_mono r1 ?_) (Mod.regsKeep_trans (Mod.regsKeep_mono r2 ?_)
      (Mod.regsKeep_trans (Mod.regsKeep_mono r3 ?_) (Mod.regsKeep_trans (Mod.regsKeep_mono r4 ?_) (Mod.regsKeep_mono hmove.regs ?_))))) <;> simp
  · have hl : leaves = true := by simp [leaves, x, hx, hst]
    obtain ⟨hrep, hbit⟩ := d3 (by simp [hl, hact, hc10, hc8])
    refine ⟨hmove.reports (Mod.reports_of_eq (s4.evIn (by decide)) (s4.tick (by decide)) hrep), ?_⟩
    rw [Mod.regsKeep_fget hmove.regs _ _ _ (hfar.2 _ (.inr rfl)), Mod.regsKeep_fget r4 _ _ _ (hfar.1 _ (.inr rfl)), hbit]
  · exact Mod.sameBut_trans (Mod.sameBut_mono hset (by decide)) (Mod.sameBut_trans (Mod.sameBut_mono s04 (by decide)) (Mod.sameBut_mono hmove.rest (by decide)))
  · refine hmove.events r ?_
    rw [s4.evIn (by decide)]
    refine v3 r ?_
    rwa [s2.evIn (by decide), s1.evIn (by decide), hset.evIn (by decide)]
  · have haddr : g.reg.addr p 0 = Reg.FAB_ERR.addr p 0 := by rw [hg]
    have hst : g.reg.addr p 0 ∉ [Reg.FAB_STATUS.addr p 0] := by
      rw [haddr]
      simp only [Reg.FAB_STATUS, Reg.FAB_ERR, RegSpec.addr, List.mem_singleton]
      omega
    rw [Mod.regsKeep_fget hmove.regs _ _ _ (hfar.2 _ (.inr haddr)), Mod.regsKeep_fget r4 _ _ _ (hfar.1 _ (.inr haddr)), e3 g hg h3, e2 g hg hf,
      Mod.regsKeep_fget r1 _ _ _ hst, hset.fget (by decide)]

end
end Sys2Proof.Machine
end

section
/-! PROOF. The statement of the states of a fabric port (12_fabric_ports.md R307, R308, R316, R321, R322, R327 to R329). -/

namespace Sys2Proof.Machine

/-! ### What ends a port's state -/

/-- What the statement says of the module `n` whose port `p` has come to `st` for the reason `cause`. -/
structure Mod.portEnded (p : Nat) (st : PortState) (cause : Nat) (m n : Mod) : Prop where
  state : (n.port p).st = st
  why : n.fget Fld.FAB_STATUS_CAUSE p = cause
  retry : (n.port p).retry = []
  others : ∀ q, q ≠ p → (n.port q).st = (m.port q).st
  reported : st = .down → (m.port p).st.carries = true → p ∈ m.activePorts → cause ≠ 8 →
    n.reports .contained 0x0B01 p cause PortState.down.code (((m.port p).nbr.map (·.module)).getD 0) ∧ n.fget Fld.FAB_ERR_DOWN p = 1

/-- `n` is `m` but for what port `p` holds beside its state and its neighbour. -/
structure Mod.portKept (p : Nat) (m n : Mod) : Prop where
  st : (n.port p).st = (m.port p).st
  nbr : (n.port p).nbr = (m.port p).nbr
  others : ∀ q, q ≠ p → n.port q = m.port q
  active : n.activePorts = m.activePorts

theorem Mod.portKept.refl (p : Nat) (m : Mod) : Mod.portKept p m m := ⟨rfl, rfl, fun _ _ => rfl, rfl⟩

theorem Mod.setPort_kept (m : Mod) (p : Nat) (x : Port) (hs : x.st = (m.port p).st) (hn : x.nbr = (m.port p).nbr) : Mod.portKept p m (m.setPort p x) :=
  ⟨by rw [m.port_setPort_same, hs], by rw [m.port_setPort_same, hn], fun q hq => m.port_setPort_other x hq, (m.setPort_sameBut p x).activePorts (by decide)⟩

section
variable {m n : Mod} {p cause : Nat} {st : PortState}

/-- A port that goes to a state that keeps no flits. -/
theorem Mod.portTo_ended (hk : Mod.portKept p m n) (hc : cause < 256) (hd : (m.port p).st ≠ .disabled)
    (hst : st = .down ∨ st = .failed ∨ (m.port p).st.carries = true ∧ st.carries = false) (h10 : st = .down → cause ≠ 10) :
    Mod.portEnded p st cause m (n.portTo p st cause) := by
  have h := n.portTo_moved p (st := st) hc (by rw [hk.st]; exact hd)
  refine ⟨h.st, h.why, ?_, fun q hq => (h.others_st q hq).trans (by rw [hk.others q hq]), fun hdown hcar hin hc8 => ?_⟩
  · obtain ⟨fs, hp⟩ := h.port
    rw [hp]
    change (Port.entering _ _ _).retry = []
    rcases hst with hs | hs | hs
    · exact Port.entering_down_retry _ _ (.inl hs)
    · exact Port.entering_down_retry _ _ (.inr hs)
    · exact Port.entering_leaves_retry _ (by rw [hk.st]; exact hs.1) hs.2
  · subst hdown
    have := h.reported (by rw [hk.st]; exact hcar) rfl (by rw [hk.active]; exact hin) (h10 rfl) hc8
    rw [hk.nbr] at this
    exact this

/-! ### A port reset -/

theorem RegFile.defaultInst_portRegs_read (rf : RegFile) (p : Nat) (r : RegSpec) (i j : Nat)
    (h : r.addr i j ∉ [Reg.FAB_TEST_CNT.addr p 0, Reg.FAB_UTIL.addr p 0]) : (rf.defaultInst portRegs p).read r i j = rf.read r i j := by
  simp only [List.mem_cons, List.not_mem_nil, or_false, not_or] at h
  change ((rf.write Reg.FAB_TEST_CNT p 0 _).write Reg.FAB_UTIL p 0 _).read r i j = _
  rw [RegFile.read_write_other _ _ _ _ _ _ _ _ h.2, RegFile.read_write_other _ _ _ _ _ _ _ _ h.1]

/-- A port reset leaves a port DOWN with no lane failed. -/
theorem Mod.portReset_spec (m : Mod) (p : Nat) (hd : (m.port p).st ≠ .disabled) :
    Mod.portEnded p .down 8 m (m.portReset p) ∧ ((m.portReset p).port p).failedLanes = 0 := by
  have h := m.portTo_moved p (st := .down) (cause := 8) (by decide) hd
  have he := Mod.portTo_ended (.refl p m) (cause := 8) (by decide) hd (.inl rfl) (fun _ => by decide)
  have hregs : (m.portTo p .down 8).regsKeep [Reg.FAB_TEST_CNT.addr p 0, Reg.FAB_UTIL.addr p 0] (m.portReset p) :=
    fun r i j hr => RegFile.defaultInst_portRegs_read _ p r i j hr
  have hs := (m.portTo p .down 8).sameBut_regs ((m.portTo p .down 8).regs.defaultInst portRegs p)
  have hport : ∀ q, (m.portReset p).port q = (m.portTo p .down 8).port q := fun q => hs.port (by decide) (by decide) q
  refine ⟨⟨?_, ?_, ?_, fun q hq => ?_, fun _ _ _ h8 => (h8 rfl).elim⟩, ?_⟩
  · rw [hport, he.state]
  · rw [Mod.regsKeep_fget hregs, he.why]
    simp only [Fld.FAB_STATUS_CAUSE, Reg.FAB_STATUS, Reg.FAB_TEST_CNT, Reg.FAB_UTIL, RegSpec.addr, List.mem_cons, List.not_mem_nil, or_false]
    omega
  · rw [hport, he.retry]
  · rw [hport, he.others q hq]
  · obtain ⟨fs, e⟩ := h.port
    rw [hport, e]
    exact ((m.port p).entering_down_failedLanes 8).trans (if_pos rfl)

/-! ### RETRAIN -/

/-- A port that keeps half of its lanes is in RETRAIN at x4, its other ports standing. -/
theorem Mod.laneFailed_spec (m : Mod) (p lanes half : Nat) (y : Port) (n : Mod)
    (hn : n = (((m.setPort p y).fset Fld.FAB_STATUS_CAUSE 3 p).trace 7 p 5 3).degraded p lanes half) :
    n.port p = y ∧ (n.reports .contained 0x0B02 p lanes half 0 ∧ n.fget Fld.FAB_ERR_DEGRADED p = 1) ∧ n.fget Fld.FAB_STATUS_CAUSE p = 3
    ∧ ∀ q, q ≠ p → n.port q = m.port q := by
  have hport : (m.setPort p y).port p = y := m.port_setPort_same p y
  have hother : ∀ q, q ≠ p → (m.setPort p y).port q = m.port q := fun q hq => m.port_setPort_other y hq
  generalize m.setPort p y = x at *
  have h1 := x.fset_sameBut Fld.FAB_STATUS_CAUSE 3 p 0
  have c1 := x.fget_fset_same Fld.FAB_STATUS_CAUSE 3 p 0 (by decide)
  generalize x.fset Fld.FAB_STATUS_CAUSE 3 p = y1 at *
  have h2 := y1.trace_sameBut 7 p 5 3 0 0
  have r2 := y1.trace_regsKeep 7 p 5 3 0 0
  generalize y1.trace 7 p 5 3 = y2 at *
  have h3 := y2.fset_sameBut Fld.FAB_ERR_DEGRADED 1 p 0
  have r3 := y2.fset_regsKeep Fld.FAB_ERR_DEGRADED 1 p 0
  have b3 := y2.fget_fset_bit Fld.FAB_ERR_DEGRADED p 0 rfl
  rw [Mod.degraded] at hn
  generalize y2.fset Fld.FAB_ERR_DEGRADED 1 p = y3 at *
  have h4 := y3.raise_sameBut .contained 0x0B02 p lanes half 0
  have hn4 : ∀ q, n.port q = x.port q := fun q => by
    rw [hn, h4.port (by decide) (by decide), h3.port (by decide) (by decide), h2.port (by decide) (by decide), h1.port (by decide) (by decide)]
  refine ⟨(hn4 p).trans hport, ⟨hn ▸ Mod.raise_reports _ _ _ _ _ _ _, ?_⟩, ?_, fun q hq => (hn4 q).trans (hother q hq)⟩
  · rw [hn, Mod.fget_raise, b3]
  · rw [hn, Mod.fget_raise, Mod.regsKeep_fget r3, Mod.regsKeep_fget r2 _ _ _ ((fabPort_apart p).1 _ (.inl rfl)), c1]
    · rfl
    · simp only [Fld.FAB_STATUS_CAUSE, Fld.FAB_ERR_DEGRADED, Reg.FAB_STATUS, Reg.FAB_ERR, RegSpec.addr, List.mem_singleton]
      omega

theorem Port.acked_kept (x : Port) (seq : Nat) : (x.acked seq).lanes = x.lanes ∧ (x.acked seq).st = x.st ∧ (x.acked seq).nbr = x.nbr := by
  unfold Port.acked
  split <;> exact ⟨rfl, rfl, rfl⟩

end

/-- A port whose RETRAIN completed. -/
def Port.retrained (x : Port) (seq : Nat) : Port :=
  { x.acked seq with st := .active, resend := if (x.acked seq).retry.length = 0 then none else some 0 }

theorem PortState.ne_disabled_of_carries {st : PortState} (h : st.carries = true) : st ≠ .disabled := by
  rintro rfl
  exact nomatch h

section
variable {s : State} {p : Nat} (hr : s.m.running = true)
include hr

/-- A training attempt of a port in TRAINING that ends, the failed lanes leaving no half. -/
theorem execTrainingEnd_noHalf {lanes failed delay : Nat} (hst : (s.m.port p).st = .training) (hk : keptHalf ((s.m.port p).failedLanes ||| failed) = none) :
    exec (.trainingEnd p lanes failed delay) s = .next { s with m := s.m.portTo p .failed 3 } := by
  refine exec_unit_eq rfl hr ((if_neg (fun h => h hst)).trans ?_)
  simp only [hk]

/-- A training attempt of a port in TRAINING that ends with a half whose lanes may be kept. -/
theorem execTrainingEnd_half {lanes failed delay half : Nat} (hst : (s.m.port p).st = .training)
    (hk : keptHalf ((s.m.port p).failedLanes ||| failed) = some half) {n : Mod}
    (h : (if lanes = 8 ∨ lanes = 4 then
        if 500 < delay then s.m.portTo p .failed 9
        else s.m.setPort p { s.m.port p with lanes := if lanes = 8 ∧ ((s.m.port p).failedLanes ||| failed) = 0 then 8 else 4, half := half,
                                             failedLanes := (s.m.port p).failedLanes ||| failed, ctlDue := true }
      else if 2 ≤ (s.m.port p).attempts then s.m.portTo p .failed 3
      else s.m.setPort p { s.m.port p with attempts := (s.m.port p).attempts + 1, lanes := 0, ctlDue := false, nbr := none }) = n) :
    exec (.trainingEnd p lanes failed delay) s = .next { s with m := n } := by
  refine exec_unit_eq rfl hr ((if_neg (fun h => h hst)).trans (Eq.trans ?_ h))
  simp only [hk]

/-- Lanes that fail on a port that carries, in both halves. -/
theorem execLaneFailure_noHalf {lanes : Nat} {why : LaneFault} (hcar : (s.m.port p).st.carries = true) (hl : lanes % 256 ≠ 0)
    (hk : keptHalf ((s.m.port p).failedLanes ||| lanes) = none) : exec (.laneFailure p lanes why) s
      = .next { s with m := (s.m.setPort p { s.m.port p with failedLanes := (s.m.port p).failedLanes ||| lanes }).portTo p .down 3 } := by
  refine exec_unit_eq rfl hr ((if_neg (by simp [hcar, hl])).trans ?_)
  simp only [hk]

/-- Lanes that fail on a port that carries, in the half out of use, or in one half of a port that uses both. -/
theorem execLaneFailure_half {lanes half : Nat} {why : LaneFault} (hcar : (s.m.port p).st.carries = true) (hl : lanes % 256 ≠ 0)
    (hk : keptHalf ((s.m.port p).failedLanes ||| lanes) = some half) {n : Mod}
    (h : (if (s.m.port p).lanes = 4 then s.m.setPort p { s.m.port p with failedLanes := (s.m.port p).failedLanes ||| lanes }
        else (((s.m.setPort p { s.m.port p with st := .retrain, lanes := 4, half := half, failedLanes := (s.m.port p).failedLanes ||| lanes, ownMark := none,
                                                nbrMark := none }).fset Fld.FAB_STATUS_CAUSE 3 p).trace 7 p 5 3).degraded p lanes half) = n) :
    exec (.laneFailure p lanes why) s = .next { s with m := n } := by
  refine exec_unit_eq rfl hr ((if_neg (by simp [hcar, hl])).trans (Eq.trans ?_ h))
  simp only [hk]

/-- RETRAIN that completes. -/
theorem execRetrainComplete_eq {seq : Nat} (hst : (s.m.port p).st = .retrain) {n : Mod}
    (h : (if s.m.activePorts.contains p then (s.m.setPort p ((s.m.port p).retrained seq)).trace 7 p 4 3
      else ((s.m.setPort p ((s.m.port p).retrained seq)).trace 7 p 4 3).portTo p .quarantine 10) = n) :
    exec (.retrainComplete p seq) s = .next { s with m := n } :=
  exec_unit_eq rfl hr ((if_neg (fun h => h hst)).trans h)

end

/-- Settles O44: each command takes its port from its state to the one Table 12-6 gives, with its cause, and leaves the others. -/
theorem fabricPortStates : Obligations.FabricPortStates := by
  unfold Obligations.FabricPortStates
  intro s p hp x ends degraded
  have hends : ∀ {c st cause n}, exec c s = .next { s with m := n } → Mod.portEnded p st cause s.m n → ends c st cause := fun e h =>
    ⟨_, e, h.state, h.why, h.retry, h.others, h.reported⟩
  refine ⟨fun hr => ⟨fun hst => ?_, fun hst => ?_, fun hst lanes failed delay => ?_, fun hcar lanes why hlanes => ?_, fun hst seq => ?_,
    fun hcar cause hcause => ?_, fun hst cause => ?_⟩, fun hans => ⟨fun hcar => ?_, fun hst => ?_⟩⟩
  · exact exec_unit_eq rfl hr (if_pos hst)
  · have ht := (s.m.setPort p { x with st := .training, probing := false, attempts := 0, lanes := 0, nbr := none }).trace_sameBut 7 p 2 0 0 0
    refine ⟨_, exec_unit_eq rfl hr (if_pos hst), ?_, fun q hq => ?_⟩
    · exact (ht.port (by decide) (by decide) p).trans (s.m.port_setPort_same _ _)
    · exact (ht.port (by decide) (by decide) q).trans (s.m.port_setPort_other _ hq)
  · have hd : (s.m.port p).st ≠ .disabled := fun h => by rw [h] at hst; exact nomatch hst
    refine ⟨fun hk => ?_, fun half hk => ⟨fun hl hdelay => ?_, fun hl hdelay => ?_, fun h8 h4 hatt => ?_, fun h8 h4 hatt => ?_⟩⟩
    · exact hends (execTrainingEnd_noHalf hr hst hk) (Mod.portTo_ended (.refl p _) (by decide) hd (.inr (.inl rfl)) (fun h => nomatch h))
    · exact execTrainingEnd_half hr hst hk ((if_pos hl).trans (if_neg (by omega)))
    · exact hends (execTrainingEnd_half hr hst hk ((if_pos hl).trans (if_pos hdelay)))
        (Mod.portTo_ended (.refl p _) (by decide) hd (.inr (.inl rfl)) (fun h => nomatch h))
    · exact execTrainingEnd_half hr hst hk ((if_neg (by omega)).trans (if_neg (Nat.not_le.2 hatt)))
    · exact hends (execTrainingEnd_half hr hst hk ((if_neg (by omega)).trans (if_pos hatt)))
        (Mod.portTo_ended (.refl p _) (by decide) hd (.inr (.inl rfl)) (fun h => nomatch h))
  · have hd := PortState.ne_disabled_of_carries hcar
    refine ⟨fun hk => ?_, fun half hk => ⟨fun h4 => ?_, fun h4 => ?_⟩⟩
    · exact hends (execLaneFailure_noHalf hr hcar hlanes hk)
        (Mod.portTo_ended (s.m.setPort_kept p _ rfl rfl) (by decide) hd (.inl rfl) (fun _ => by decide))
    · obtain ⟨h1, h2, h3, h5⟩ := s.m.laneFailed_spec p lanes half _ _ rfl
      exact ⟨_, execLaneFailure_half hr hcar hlanes hk (if_neg h4), h1, h2, h3, h5⟩
    · exact execLaneFailure_half hr hcar hlanes hk (if_pos h4)
  · have hd : (s.m.port p).st ≠ .disabled := fun h => by rw [h] at hst; exact nomatch hst
    have hx := Port.acked_kept (s.m.port p) seq
    have ht := (s.m.setPort p ((s.m.port p).retrained seq)).trace_sameBut 7 p 4 3 0 0
    have hport : ∀ q, ((s.m.setPort p ((s.m.port p).retrained seq)).trace 7 p 4 3).port q = (s.m.setPort p ((s.m.port p).retrained seq)).port q :=
      fun q => ht.port (by decide) (by decide) q
    refine ⟨fun hin => ⟨_, execRetrainComplete_eq hr hst (if_pos (by simpa using hin)), ?_⟩, fun hin => ?_, ?_⟩
    · simp only [hport, s.m.port_setPort_same]
      refine ⟨rfl, hx.1, rfl, ?_, fun q hq => s.m.port_setPort_other _ hq⟩
      simp only [Port.retrained, List.length_eq_zero_iff]
      rfl
    · have h := Mod.portTo_ended (.refl p ((s.m.setPort p ((s.m.port p).retrained seq)).trace 7 p 4 3)) (st := .quarantine) (cause := 10) (by decide)
        (by rw [hport, s.m.port_setPort_same]; exact fun h => nomatch h) (.inr (.inr ⟨by rw [hport, s.m.port_setPort_same]; rfl, rfl⟩)) (fun h => nomatch h)
      refine hends (execRetrainComplete_eq hr hst (if_neg (by simpa using hin))) ⟨h.state, h.why, h.retry, fun q hq => ?_, fun h => nomatch h⟩
      rw [h.others q hq, hport, s.m.port_setPort_other _ hq]
    · exact hends (exec_unit_eq rfl hr (if_pos hst)) (Mod.portTo_ended (.refl p _) (by decide) hd (.inl rfl) (fun _ => by decide))
  · have hd := PortState.ne_disabled_of_carries hcar
    have hc : (if cause = 2 ∨ cause = 3 then cause else 1) = cause := by
      split <;> omega
    refine hends (exec_unit_eq rfl hr ((if_pos hcar).trans (by rw [hc]))) (Mod.portTo_ended (.refl p _) ?_ hd (.inl rfl) (fun _ => ?_)) <;> omega
  · have hnc : (s.m.port p).st.carries = false := by rw [show (s.m.port p).st = .quarantine from hst]; rfl
    have h := Mod.portTo_ended (.refl p s.m) (st := .down) (cause := 1) (by decide) (fun h => by rw [h] at hst; exact nomatch hst) (.inl rfl) (fun _ => by decide)
    exact ⟨_, exec_unit_eq rfl hr ((if_neg (by rw [hnc]; decide)).trans (if_pos hst)), h.state, h.why⟩
  · exact hends (exec_reg (f := fun m => m.portReset p) rfl hans) (s.m.portReset_spec p (PortState.ne_disabled_of_carries hcar)).1
  · obtain ⟨h1, h2⟩ := s.m.portReset_spec p hst
    exact ⟨_, exec_reg (f := fun m => m.portReset p) rfl hans, h1.state, h2⟩

end Sys2Proof.Machine
end

section
/-! PROOF. The statement of flits received on a fabric port (12_fabric_ports.md R310, R311, R314, R320, R331, R333, R334). -/

namespace Sys2Proof.Machine

/-! ### What a port's link layer keeps of a port -/

/-- `y` is `x` in all that the link layer's acknowledgements depend on. -/
structure Port.sameLink (x y : Port) : Prop where
  rxSeq : y.rxSeq = x.rxSeq
  ackDue : y.ackDue = x.ackDue
  nakSent : y.nakSent = x.nakSent
  st : y.st = x.st

theorem Port.sameLink.trans {x y z : Port} (h1 : x.sameLink y) (h2 : y.sameLink z) : x.sameLink z :=
  ⟨h2.rxSeq.trans h1.rxSeq, h2.ackDue.trans h1.ackDue, h2.nakSent.trans h1.nakSent, h2.st.trans h1.st⟩

theorem Port.sameLink.refl (x : Port) : x.sameLink x := ⟨rfl, rfl, rfl, rfl⟩

theorem Port.sameLink.of_eq {x y : Port} (h : y = x) : x.sameLink y := h ▸ .refl x

theorem Port.acked_sameLink (x : Port) (seq : Nat) : x.sameLink (x.acked seq) ∧ (x.acked seq).freed = x.freed := by
  unfold Port.acked
  split <;> exact ⟨⟨rfl, rfl, rfl, rfl⟩, rfl⟩

section
variable (m : Mod)

/-! ### A buffer entry given back -/

theorem Mod.freeEntry_port_same {p : Nat} (hp : p < 64) (f : TFlit) : (m.freeEntry p f).port p
    = { m.port p with freed := kvSet (m.port p).freed (f.cls * 2 + f.vl) (kvGetD (m.port p).freed (f.cls * 2 + f.vl) 0 + 1) } := by
  rw [Mod.freeEntry, if_neg (Nat.not_le.2 hp)]
  exact m.port_setPort_same _ _

theorem Mod.freeEntry_port_other {p q : Nat} (f : TFlit) (h : q ≠ p) : (m.freeEntry p f).port q = m.port q := by
  unfold Mod.freeEntry
  split
  · rfl
  · exact m.port_setPort_other _ h

theorem Mod.freeEntry_sameLink (p : Nat) (f : TFlit) (q : Nat) : (m.port q).sameLink ((m.freeEntry p f).port q) := by
  unfold Mod.freeEntry
  split
  · exact .refl _
  · by_cases h : q = p
    · rw [h, m.port_setPort_same]
      exact ⟨rfl, rfl, rfl, rfl⟩
    · exact .of_eq (m.port_setPort_other _ h)

theorem Mod.freeEntry_inbox (p : Nat) (f : TFlit) : (m.freeEntry p f).fab.inbox = m.fab.inbox := by
  unfold Mod.freeEntry
  split <;> rfl

theorem Mod.freeEntry_regs (p : Nat) (f : TFlit) : (m.freeEntry p f).regs = m.regs := (m.freeEntry_sameBut p f).regs (by decide)

/-! ### A flit delivered -/

theorem Mod.port_of_ports {m n : Mod} (h : n.fab.ports = m.fab.ports) (hv : n.variant = m.variant) (q : Nat) : n.port q = m.port q := by
  rw [Mod.port, Mod.portRest, h, hv, Mod.port, Mod.portRest]

theorem Mod.deliver_sameLink (p : Nat) (f : TFlit) (q : Nat) : (m.port q).sameLink ((m.deliver p f).port q) := by
  have hports : ∀ (x : FabUnit), x.ports = m.fab.ports → Mod.port { m with fab := x } q = m.port q := fun x hx =>
    Mod.port_of_ports (m := m) (n := { m with fab := x }) hx rfl q
  have hsat : ∀ (n : Mod), n.port q = m.port q → (m.port q).sameLink (((n.fsat Fld.FAB_DUP_COUNT).freeEntry p f).port q) := fun n hn =>
    .trans (.of_eq (((n.fsat_sameBut _ _ _ _).port (by decide) (by decide) q).trans hn)) (Mod.freeEntry_sameLink _ p f q)
  unfold Mod.deliver
  extract_lets k isNew r
  split_ifs
  · exact .of_eq (hports _ rfl)
  · exact m.freeEntry_sameLink p f q
  · exact hsat _ (hports _ rfl)
  · exact m.freeEntry_sameLink p f q
  · exact hsat m rfl
  · exact .of_eq (hports _ rfl)

/-- Is a flit a duplicate of one its flow has applied or holds? -/
def Mod.duplicate (r : RxFlow) (f : TFlit) : Prop :=
  2 ^ 31 ≤ r.ahead f.seq ∨ r.cum + r.ahead f.seq ∈ r.above ∨ r.ahead f.seq < flowWindow ∧ m.fab.waiting f = true

variable {m}

theorem Mod.deliver_new {p : Nat} {f : TFlit} {r : RxFlow} (ht : f.type ≠ 6) (hr : kvGet? m.fab.rx (flowKey f.src f.cls) = some r)
    (hw : r.ahead f.seq < flowWindow) (hd : ¬m.duplicate r f) : (m.deliver p f).fab.inbox = m.fab.inbox ++ [(p, f)] := by
  simp only [Mod.duplicate, not_or, not_and] at hd
  obtain ⟨h1, h2, h3⟩ := hd
  have hget : kvGetD m.fab.rx (flowKey f.src f.cls) .rest = r := by rw [kvGetD, hr]; rfl
  unfold Mod.deliver
  dsimp only
  rw [if_neg ht, hget, hr, if_neg (by simp), if_neg (by rw [List.contains_iff_mem]; exact fun h => h.elim h1 h2), if_neg (by omega), if_neg (h3 hw)]

theorem Mod.deliver_dup {p : Nat} (hp : p < 64) {f : TFlit} {r : RxFlow} (ht : f.type ≠ 6) (hr : kvGet? m.fab.rx (flowKey f.src f.cls) = some r)
    (hd : m.duplicate r f) : (m.deliver p f).fab.inbox = m.fab.inbox
      ∧ (m.deliver p f).fget Fld.FAB_DUP_COUNT = min (m.fget Fld.FAB_DUP_COUNT + 1) Fld.FAB_DUP_COUNT.max
      ∧ kvGetD ((m.deliver p f).port p).freed (f.cls * 2 + f.vl) 0 = kvGetD (m.port p).freed (f.cls * 2 + f.vl) 0 + 1 := by
  have hget : kvGetD m.fab.rx (flowKey f.src f.cls) .rest = r := by rw [kvGetD, hr]; rfl
  have hfree : ∀ n : Mod, n.fab.inbox = m.fab.inbox → n.regs = m.regs → n.port p = m.port p →
      ((n.fsat Fld.FAB_DUP_COUNT).freeEntry p f).fab.inbox = m.fab.inbox
      ∧ ((n.fsat Fld.FAB_DUP_COUNT).freeEntry p f).fget Fld.FAB_DUP_COUNT = min (m.fget Fld.FAB_DUP_COUNT + 1) Fld.FAB_DUP_COUNT.max
      ∧ kvGetD (((n.fsat Fld.FAB_DUP_COUNT).freeEntry p f).port p).freed (f.cls * 2 + f.vl) 0 = kvGetD (m.port p).freed (f.cls * 2 + f.vl) 0 + 1 := by
    intro n hi hregs hport
    have hs := n.fsat_sameBut Fld.FAB_DUP_COUNT 1 0 0
    have hc := n.fget_fsat_same Fld.FAB_DUP_COUNT 1 0 0 (by decide) (by decide)
    generalize n.fsat Fld.FAB_DUP_COUNT = y at hs hc ⊢
    refine ⟨?_, ?_, ?_⟩
    · rw [y.freeEntry_inbox, hs.fab (by decide), hi]
    · rw [(y.freeEntry_sameBut p f).fget (by decide), hc, Mod.fget, hregs]
      rfl
    · rw [y.freeEntry_port_same hp, hs.port (by decide) (by decide), hport]
      exact kvGetD_kvSet_same _ _ _ _
  unfold Mod.deliver
  dsimp only
  rw [if_neg ht, hget, hr, if_neg (by simp)]
  by_cases h : 2 ^ 31 ≤ r.ahead f.seq ∨ r.above.contains (r.cum + r.ahead f.seq) = true
  · rw [if_pos h]
    exact hfree _ rfl rfl (Mod.port_of_ports (m := m) rfl rfl p)
  · have hw : r.ahead f.seq < flowWindow ∧ m.fab.waiting f = true := by
      simp only [List.contains_iff_mem] at h
      rcases hd with hd | hd | hd
      · exact (h (.inl hd)).elim
      · exact (h (.inr hd)).elim
      · exact hd
    rw [if_neg h, if_neg (by omega), if_pos hw.2]
    exact hfree m rfl rfl rfl

/-! ### A flit forwarded -/

theorem Mod.choose_congr {m n : Mod} (hr : n.routes = m.routes) (hs : ∀ q, (n.port q).st = (m.port q).st) (ingress : Option Nat) (dest : Nat) :
    n.choose ingress dest = m.choose ingress dest := by
  simp only [Mod.choose, hr, hs]

/-- The port a flit is placed on is not the one it came by. -/
theorem Mod.choose_ne {m : Mod} {ingress : Option Nat} {dest c q act : Nat} (h : m.choose ingress dest = some (c, q, act)) : some q ≠ ingress := by
  unfold Mod.choose at h
  obtain ⟨x, -, hx⟩ := List.exists_of_findSome?_eq_some h
  dsimp only at hx
  split at hx
  · next hc =>
    simp only [Option.some.injEq, Prod.mk.injEq] at hx
    obtain ⟨-, rfl, -⟩ := hx
    exact hc.2.2
  · exact nomatch hx

variable {m : Mod} {p : Nat} {f : TFlit}

/-- Flits moved leave what the link layer depends on, and the flits that wait to be applied. -/
theorem Mod.flitsMoved.sameLink {n : Mod} (h : Mod.flitsMoved m n) (q : Nat) : (m.port q).sameLink (n.port q) := by
  obtain ⟨fs, e⟩ := h.queues q
  rw [e]
  exact ⟨rfl, rfl, rfl, rfl⟩

/-- A count of the fabric that goes up by one, with a record the first time and a note of it in the fabric. -/
structure Mod.counted (g : Fld) (m n : Mod) : Prop where
  count : n.fget g = min (m.fget g + 1) g.max
  port : ∀ q, n.port q = m.port q
  inbox : n.fab.inbox = m.fab.inbox

theorem Mod.counted_of (m : Mod) (g : Fld) (hlo : g.lo ≤ g.hi) (hmax : g.max < 2 ^ (g.hi + 1 - g.lo)) (b : Bool) (x : FabUnit)
    (hp : x.ports = (m.fsat g).fab.ports) (hi : x.inbox = (m.fsat g).fab.inbox) (k : EvClass) (code source d0 d1 d2 : Nat) :
    Mod.counted g m (if b then m.fsat g else Mod.raise { m.fsat g with fab := x } k code source d0 d1 d2) := by
  have hc := m.fget_fsat_same g 1 0 0 hlo hmax
  have hs := m.fsat_sameBut g 1 0 0
  generalize m.fsat g = y at hc hs hp hi ⊢
  have hport : ∀ q, y.port q = m.port q := fun q => hs.port (by decide) (by decide) q
  have hfab : y.fab = m.fab := hs.fab (by decide)
  split
  · exact ⟨hc, hport, by rw [hfab]⟩
  · have hx := y.sameBut_fab x
    have hxp : ∀ q, Mod.port { y with fab := x } q = y.port q := fun q => Mod.port_of_ports (n := { y with fab := x }) hp rfl q
    have hxi : Mod.fab { y with fab := x } = x := rfl
    generalize ({ y with fab := x } : Mod) = z at hx hxp hxi ⊢
    have hr := z.raise_sameBut k code source d0 d1 d2
    refine ⟨?_, fun q => ?_, ?_⟩
    · rw [Mod.fget_raise, hx.fget (by decide), hc]
    · rw [hr.port (by decide) (by decide), hxp, hport]
    · rw [hr.fab (by decide), hxi, hi, hfab]

theorem Mod.place_unreachable {ingress : Option Nat} (hc : m.choose ingress f.dest = none) : Mod.counted Fld.FAB_UNREACH_COUNT m (m.place ingress f) := by
  rw [Mod.place, hc]
  exact m.counted_of Fld.FAB_UNREACH_COUNT (by decide) (by decide) _ _ (by rfl) (by rfl) _ _ _ _ _ _

theorem Mod.place_inbox (m : Mod) (ingress : Option Nat) (f : TFlit) : (m.place ingress f).fab.inbox = m.fab.inbox := by
  cases hc : m.choose ingress f.dest with
  | none => exact (Mod.place_unreachable hc).inbox
  | some x =>
    rw [Mod.place, hc]
    rfl

theorem Mod.transit_spent (hh : f.hops ≤ 1) : Mod.counted Fld.FAB_TTL_COUNT m (m.transit p f) := by
  rw [Mod.transit, if_pos hh]
  exact m.counted_of Fld.FAB_TTL_COUNT (by decide) (by decide) _ _ (by rfl) (by rfl) _ _ _ _ _ _

theorem Mod.transit_sameLink (q : Nat) : (m.port q).sameLink ((m.transit p f).port q) := by
  by_cases hh : f.hops ≤ 1
  · exact .of_eq ((Mod.transit_spent hh).port q)
  · rw [Mod.transit, if_neg hh]
    exact (m.place_moved _ _).sameLink q

theorem Mod.transit_inbox : (m.transit p f).fab.inbox = m.fab.inbox := by
  by_cases hh : f.hops ≤ 1
  · exact (Mod.transit_spent hh).inbox
  · rw [Mod.transit, if_neg hh, Mod.place_inbox]

theorem Mod.transit_chosen (hh : 1 < f.hops) {c q act : Nat} (hc : m.choose (some p) f.dest = some (c, q, act)) :
    (m.transit p f).port q = { m.port q with queue := (m.port q).queue ++ [{ f with hops := f.hops - 1, vl := vlAfter act f.vl, via := some p }] } := by
  rw [Mod.transit, if_neg (by omega), Mod.place, hc]
  exact (m.enqueue_port _ _ q).trans (by rw [if_pos rfl])

theorem Mod.transit_unreachable (hh : 1 < f.hops) (hc : m.choose (some p) f.dest = none) : Mod.counted Fld.FAB_UNREACH_COUNT m (m.transit p f) := by
  rw [Mod.transit, if_neg (by omega)]
  exact Mod.place_unreachable hc

/-! ### Header and payload -/

/-- A port with the credits of a flit added. -/
def Port.credited (x : Port) (f : FlitIn) : Port :=
  { x with credits := (List.range 6).foldl (fun c k => kvSet c k (kvGetD c k 0 + f.credits.getD k 0)) x.credits }

/-- A port with a flit's header taken: credits added and, with ACK, flits acknowledged. -/
def Port.headed (x : Port) (f : FlitIn) : Port := if f.ackValid then (x.credited f).acked f.ackSeq else x.credited f

theorem Port.headed_sameLink (x : Port) (f : FlitIn) : x.sameLink (x.headed f) ∧ (x.headed f).freed = x.freed := by
  have h : x.sameLink (x.credited f) := ⟨rfl, rfl, rfl, rfl⟩
  have hf : (x.credited f).freed = x.freed := rfl
  unfold Port.headed
  generalize x.credited f = y at h hf ⊢
  split
  · exact ⟨h.trans (y.acked_sameLink f.ackSeq).1, (y.acked_sameLink f.ackSeq).2.trans hf⟩
  · exact ⟨h, hf⟩

theorem Mod.takeLinkHeader_eq (m : Mod) (p : Nat) (f : FlitIn) (hn : f.nak = false) : m.takeLinkHeader p f = m.setPort p ((m.port p).headed f) := by
  unfold Mod.takeLinkHeader Port.headed Port.credited
  dsimp only
  rw [hn]
  split
  · rfl
  · rfl

/-- A port that accepts a PAYLOAD flit. -/
def Port.accepting (x : Port) : Port :=
  { x with rxSeq := (x.rxSeq + 1) % 4096, ackDue := some true, nakSent := false, rxCount := x.rxCount + 1 }

theorem Mod.takePayload_accepted {f : FlitIn} (hst : (m.port p).st = .active) (hseq : f.seq = (m.port p).rxSeq) :
    m.takePayload p f = if f.dest = m.self then (m.setPort p (m.port p).accepting).deliver p (flitTransport f)
      else ((m.setPort p (m.port p).accepting).transit p (flitTransport f)).freeEntry p (flitTransport f) := by
  unfold Mod.takePayload
  dsimp only
  rw [if_neg (fun h => h hst), if_pos hseq]
  rfl

theorem Mod.takePayload_outOfOrder {f : FlitIn} (hst : (m.port p).st = .active) (hseq : f.seq ≠ (m.port p).rxSeq) :
    m.takePayload p f = if (m.port p).nakSent = true ∨ (m.port p).ackDue = some false then m
      else m.setPort p { m.port p with ackDue := some false } := by
  unfold Mod.takePayload
  dsimp only
  rw [if_neg (fun h => h hst), if_neg hseq]

theorem Mod.takePayload_inactive {f : FlitIn} (hst : (m.port p).st ≠ .active) : m.takePayload p f = m := if_pos hst

end

section
variable {s : State} {p : Nat} {f : FlitIn} (hr : s.m.running = true)
include hr

/-- A flit that fails its checks. -/
theorem execFlitReceived_refused (hst : (s.m.port p).st = .quarantine ∨ (s.m.port p).st.carries = true) (hf : f.ok = false ∨ f.fec = true ∨ 3 < f.kind) :
    exec (.flitReceived p f) s = .next { s with m := s.m.refuseFlit p f } := by
  refine exec_unit_eq rfl hr ((if_neg (by rcases hst with h | h <;> simp [h])).trans (if_pos ?_))
  rcases hf with h | h | h <;> simp [h]

/-- A good PAYLOAD flit. -/
theorem execFlitReceived_payload (hst : (s.m.port p).st = .quarantine ∨ (s.m.port p).st.carries = true) (hok : f.ok = true) (hfec : f.fec = false) (hk : f.kind = 1)
    (hn : f.nak = false) : exec (.flitReceived p f) s = .next { s with m := (s.m.setPort p ((s.m.port p).headed f)).takePayload p f } := by
  refine exec_unit_eq rfl hr ((if_neg (by rcases hst with h | h <;> simp [h])).trans ((if_neg (by simp [hok, hfec, hk])).trans ?_))
  dsimp only
  rw [if_pos hk, s.m.takeLinkHeader_eq p f hn]

end

theorem Mod.refuseFlit_spec (m : Mod) (p : Nat) (f : FlitIn) : (m.refuseFlit p f).port p = { m.port p with ackDue := some false }
    ∧ (m.refuseFlit p f).fab.inbox = m.fab.inbox
    ∧ (m.refuseFlit p f).fget Fld.FAB_CRC_COUNT p = min (m.fget Fld.FAB_CRC_COUNT p + 1) Fld.FAB_CRC_COUNT.max := by
  unfold Mod.refuseFlit
  extract_lets x m1
  have hs : Mod.sameBut [.regs] (m.setPort p { x with ackDue := some false }) m1 := (m.setPort p { x with ackDue := some false }).fsat_sameBut Fld.FAB_CRC_COUNT 1 p 0
  have hc : m1.fget Fld.FAB_CRC_COUNT p = min (m.fget Fld.FAB_CRC_COUNT p + 1) Fld.FAB_CRC_COUNT.max :=
    (Mod.fget_fsat_same (m.setPort p { x with ackDue := some false }) Fld.FAB_CRC_COUNT 1 p 0 (by decide) (by decide)).trans
      (by rw [(m.setPort_sameBut p { x with ackDue := some false }).fget (by decide)])
  have hport : m1.port p = { x with ackDue := some false } := (hs.port (by decide) (by decide) p).trans (m.port_setPort_same p _)
  have hin : m1.fab.inbox = m.fab.inbox := (congrArg FabUnit.inbox (hs.fab (by decide))).trans rfl
  clear_value m1
  split
  · have h2 := m1.fsat_sameBut Fld.FAB_FEC_UNCORR_COUNT 1 p 0
    refine ⟨(h2.port (by decide) (by decide) p).trans hport, by rw [h2.fab (by decide), hin], ?_⟩
    rw [Mod.regsKeep_fget (m1.fsat_regsKeep Fld.FAB_FEC_UNCORR_COUNT 1 p 0), hc]
    simp only [Fld.FAB_CRC_COUNT, Fld.FAB_FEC_UNCORR_COUNT, Reg.FAB_CRC, Reg.FAB_FEC_UNCORR, RegSpec.addr, List.mem_singleton]
    omega
  · exact ⟨hport, hin, hc⟩

/-- What a port that accepts a flit does with it, in the words of the statement. -/
structure Mod.flitTaken (p : Nat) (f : FlitIn) (m n : Mod) : Prop where
  rxSeq : (n.port p).rxSeq = ((m.port p).rxSeq + 1) % 4096
  ackDue : (n.port p).ackDue = some true
  nakSent : (n.port p).nakSent = false
  st : (n.port p).st = (m.port p).st
  here : ∀ r, f.dest = m.self → f.type ≠ 6 → kvGet? m.fab.rx (flowKey f.src f.cls) = some r →
    (r.ahead f.e2e < flowWindow → ¬m.duplicate r (flitTransport f) → n.fab.inbox = m.fab.inbox ++ [(p, flitTransport f)])
    ∧ (m.duplicate r (flitTransport f) → n.fab.inbox = m.fab.inbox
        ∧ n.fget Fld.FAB_DUP_COUNT = min (m.fget Fld.FAB_DUP_COUNT + 1) Fld.FAB_DUP_COUNT.max
        ∧ kvGetD (n.port p).freed (f.cls * 2 + f.vl) 0 = kvGetD (m.port p).freed (f.cls * 2 + f.vl) 0 + 1)
  away : f.dest ≠ m.self → n.fab.inbox = m.fab.inbox
    ∧ (1 < f.hops → ∀ c q act, m.choose (some p) f.dest = some (c, q, act) → (n.port q).queue = (m.port q).queue
        ++ [{ flitTransport f with hops := f.hops - 1, vl := vlAfter act f.vl, via := some p }])
    ∧ (1 < f.hops → m.choose (some p) f.dest = none → n.fget Fld.FAB_UNREACH_COUNT = min (m.fget Fld.FAB_UNREACH_COUNT + 1) Fld.FAB_UNREACH_COUNT.max)
    ∧ (f.hops ≤ 1 → n.fget Fld.FAB_TTL_COUNT = min (m.fget Fld.FAB_TTL_COUNT + 1) Fld.FAB_TTL_COUNT.max)

/-- A port that accepts a flit, the module's ports else and its flows standing. -/
theorem Mod.takePayload_taken {m n : Mod} {p : Nat} (hp : p < 64) (f : FlitIn) {x : Port} (hn : n = m.setPort p x) (hx : (m.port p).sameLink x)
    (hfree : x.freed = (m.port p).freed) (hst : (m.port p).st = .active) (hseq : f.seq = (m.port p).rxSeq) : Mod.flitTaken p f m (n.takePayload p f) := by
  have hport : n.port p = x := hn ▸ m.port_setPort_same p x
  rw [Mod.takePayload_accepted (by rw [hport, hx.st, hst]) (by rw [hport, hx.rxSeq, hseq]), hport]
  have hs : Mod.sameBut [.fab] m (n.setPort p x.accepting) := by
    subst hn
    exact Mod.sameBut_trans (m.setPort_sameBut p x) (Mod.setPort_sameBut _ p _)
  have hkp : (n.setPort p x.accepting).port p = x.accepting := n.port_setPort_same p _
  have hko : ∀ q, q ≠ p → (n.setPort p x.accepting).port q = m.port q := fun q hq => by
    rw [n.port_setPort_other _ hq, hn, m.port_setPort_other _ hq]
  have hin : (n.setPort p x.accepting).fab.inbox = m.fab.inbox := by rw [hn]; rfl
  have hrx : (n.setPort p x.accepting).fab.rx = m.fab.rx := by rw [hn]; rfl
  have hself : n.self = m.self := hn ▸ (m.setPort_sameBut p x).fget (by decide) _ _ _
  rw [hself]
  generalize n.setPort p x.accepting = k at *
  have hacc : ∀ y : Port, x.accepting.sameLink y → y.rxSeq = ((m.port p).rxSeq + 1) % 4096 ∧ y.ackDue = some true ∧ y.nakSent = false ∧ y.st = (m.port p).st :=
    fun y h => ⟨h.rxSeq.trans (by rw [← hx.rxSeq]; rfl), h.ackDue, h.nakSent, h.st.trans hx.st⟩
  have hkst : ∀ q, (k.port q).st = (m.port q).st := fun q => by
    by_cases hq : q = p
    · rw [hq, hkp]
      exact hx.st
    · rw [hko q hq]
  by_cases hd : f.dest = m.self
  · rw [if_pos hd]
    obtain ⟨h1, h2, h3, h4⟩ := hacc _ (hkp ▸ k.deliver_sameLink p (flitTransport f) p)
    refine ⟨h1, h2, h3, h4, fun r _ ht hflow => ?_, fun h => (h hd).elim⟩
    rw [← hrx] at hflow
    have hdup : k.duplicate r (flitTransport f) ↔ m.duplicate r (flitTransport f) := by
      simp only [Mod.duplicate, FabUnit.waiting, hin]
    refine ⟨fun hw hnew => ?_, fun h => ?_⟩
    · rw [Mod.deliver_new (f := flitTransport f) ht hflow hw (fun h => hnew (hdup.1 h)), hin]
    · obtain ⟨e1, e2, e3⟩ := Mod.deliver_dup (f := flitTransport f) hp ht hflow (hdup.2 h)
      refine ⟨e1.trans hin, e2.trans (by rw [hs.fget (by decide)]), e3.trans ?_⟩
      rw [hkp]
      exact congrArg (fun c => kvGetD c _ 0 + 1) hfree
  · rw [if_neg hd]
    have hfreed := (k.transit p (flitTransport f)).freeEntry_sameBut p (flitTransport f)
    obtain ⟨h1, h2, h3, h4⟩ := hacc _ (hkp ▸ (Mod.transit_sameLink (m := k) (p := p) (f := flitTransport f) p).trans
      (Mod.freeEntry_sameLink _ p (flitTransport f) p))
    refine ⟨h1, h2, h3, h4, fun r h => (hd h).elim, fun _ => ⟨?_, fun hh c q act hc => ?_, fun hh hc => ?_, fun hh => ?_⟩⟩
    · rw [Mod.freeEntry_inbox, Mod.transit_inbox, hin]
    · have hck : k.choose (some p) (flitTransport f).dest = some (c, q, act) := by
        rw [← hc]
        exact Mod.choose_congr (by simp only [Mod.routes, Mod.plate?, hs.plt (by decide)]) hkst _ _
      have hq : q ≠ p := fun h => Mod.choose_ne hc (congrArg some h)
      rw [Mod.freeEntry_port_other _ _ hq, Mod.transit_chosen hh hck, hko q hq]
      rfl
    · have hck : k.choose (some p) (flitTransport f).dest = none := by
        rw [← hc]
        exact Mod.choose_congr (by simp only [Mod.routes, Mod.plate?, hs.plt (by decide)]) hkst _ _
      rw [hfreed.fget (by decide), (Mod.transit_unreachable hh hck).count, hs.fget (by decide)]
    · rw [hfreed.fget (by decide), (Mod.transit_spent hh).count, hs.fget (by decide)]

/-- Settles O45: a flit is refused, accepted, found out of order, or comes to a port in RETRAIN. -/
theorem flitsReceived : Obligations.FlitsReceived := by
  unfold Obligations.FlitsReceived
  intro s p f hp hr x
  obtain ⟨hlink, hfreed⟩ := Port.headed_sameLink (s.m.port p) f
  have hhead : (s.m.setPort p ((s.m.port p).headed f)).port p = (s.m.port p).headed f := s.m.port_setPort_same p _
  refine ⟨fun hst hf => ?_, fun hok hfec hk hn => ⟨fun hst hseq => ?_, fun hst hseq => ?_, fun hst => ?_⟩⟩
  · obtain ⟨h1, h2, h3⟩ := s.m.refuseFlit_spec p f
    exact ⟨_, execFlitReceived_refused hr hst hf, h1, h2, h3⟩
  · have e := execFlitReceived_payload hr (.inr (by rw [show (s.m.port p).st = .active from hst]; rfl)) hok hfec hk hn
    have h := Mod.takePayload_taken hp f rfl hlink hfreed hst hseq
    exact ⟨_, e, h.rxSeq, h.ackDue, h.nakSent, h.st, h.here, h.away⟩
  · have e := execFlitReceived_payload hr (.inr (by rw [show (s.m.port p).st = .active from hst]; rfl)) hok hfec hk hn
    refine ⟨_, e, ?_⟩
    rw [Mod.takePayload_outOfOrder (by rw [hhead, hlink.st]; exact hst) (by rw [hhead, hlink.rxSeq]; exact hseq), hhead, hlink.nakSent, hlink.ackDue]
    split
    · next h =>
      refine ⟨by rw [hhead, hlink.rxSeq], rfl, by rw [hhead, hlink.nakSent], ?_⟩
      rw [hhead, hlink.ackDue]
      split
      · rfl
      · next hnak => exact h.resolve_left hnak
    · next h =>
      rw [not_or] at h
      rw [Mod.port_setPort_same]
      exact ⟨hlink.rxSeq, rfl, hlink.nakSent, (if_neg h.1).symm⟩
  · have e := execFlitReceived_payload hr (.inr (by rw [show (s.m.port p).st = .retrain from hst]; rfl)) hok hfec hk hn
    refine ⟨_, e, ?_⟩
    rw [Mod.takePayload_inactive (by rw [hhead, hlink.st, show (s.m.port p).st = .retrain from hst]; exact fun h => nomatch h), hhead]
    exact ⟨hlink.rxSeq, rfl, hlink.ackDue⟩

end Sys2Proof.Machine
end

section
/-! PROOF. The statement of flits sent on a fabric port (12_fabric_ports.md R309, R312, R313, R315, R317, R320). -/

namespace Sys2Proof.Machine

/-! ### What a port sends -/

/-- `y` is `x` in its state and in the mark that is due. -/
def Port.sameMark (x y : Port) : Prop := y.st = x.st ∧ y.markDue = x.markDue

/-- The port after a choice, if there is one, has the state and the mark of `x`. -/
def Port.choiceKeeps (x : Port) (o : Option (FlitKind × Nat × Option TFlit × Port)) : Prop := ∀ c ∈ o, x.sameMark c.2.2.2

theorem Port.choiceKeeps.orElse {x : Port} {o q : Option (FlitKind × Nat × Option TFlit × Port)} (h1 : x.choiceKeeps o) (h2 : x.choiceKeeps q) :
    x.choiceKeeps (o <|> q) := by
  cases o with
  | none => exact h2
  | some c => exact h1

theorem Port.choiceKeeps.getD {x y : Port} {o : Option (FlitKind × Nat × Option TFlit × Port)} (h : x.choiceKeeps o) (hy : x.sameMark y) :
    x.sameMark (o.getD (.idle, 0, none, y)).2.2.2 := by
  cases o with
  | none => exact hy
  | some c => exact h c rfl

theorem Port.takeClass_sameMark {x y z : Port} {cls : Nat} {f : TFlit} (hy : x.sameMark y) (h : y.takeClass cls = some (f, z)) : x.sameMark z := by
  unfold Port.takeClass at h
  split at h
  · simp only [Option.some.injEq, Prod.mk.injEq] at h
    obtain ⟨-, rfl⟩ := h
    exact hy
  · exact nomatch h

theorem Port.pickSlot_sameMark (x : Port) : x.sameMark x.pickSlot.2.2.2 := by
  unfold Port.pickSlot
  extract_lets beReady may pay waited again be test
  have hw : x.sameMark waited := ⟨rfl, rfl⟩
  have hpay : ∀ c y, x.sameMark y → x.choiceKeeps (pay c y) := fun c y hy r hr => by
    change r ∈ (match if may = true then y.takeClass c else none with
      | some (f, z) => some (FlitKind.payload, (z.sendNew f).1, some f, (z.sendNew f).2)
      | none => none) at hr
    split at hr
    · next f z hz =>
      obtain rfl := Option.some.inj hr
      split at hz
      · exact ⟨(Port.takeClass_sameMark hy hz).1, (Port.takeClass_sameMark hy hz).2⟩
      · exact nomatch hz
    · exact nomatch hr
  have hagain : x.choiceKeeps again := fun r hr => by
    change r ∈ (match if (x.st == .active) = true then x.resend else none with
      | some n => _
      | none => none) at hr
    split at hr
    · obtain ⟨e, -, rfl⟩ := Option.map_eq_some_iff.1 hr
      exact hw
    · exact nomatch hr
  have hbe : ∀ y, x.sameMark y → x.choiceKeeps (be y) := fun y hy => hpay 1 _ hy
  have htest : x.choiceKeeps test := fun r hr => by
    change r ∈ (if _ then _ else _) at hr
    split at hr
    · obtain rfl := Option.some.inj hr
      exact hw
    · exact nomatch hr
  clear_value waited pay again be test
  split
  · exact hw
  · split
    · exact ((hpay _ _ hw).orElse ((hbe _ ⟨rfl, rfl⟩).orElse ((hpay _ _ hw).orElse htest))).getD hw
    · exact (hagain.orElse ((hpay _ _ hw).orElse ((hpay _ _ hw).orElse ((hbe _ ⟨rfl, rfl⟩).orElse htest)))).getD hw

theorem padTo_length (n : Nat) (bs : List Byte) : (padTo n bs).length = n := by
  simp only [padTo, List.length_append, List.length_take, List.length_replicate]
  omega

theorem leBytes_length (n v : Nat) : (leBytes n v).length = n := by
  induction n generalizing v with
  | zero => rfl
  | succ n ih => rw [leBytes, List.length_cons, ih]

theorem TFlit.body_length (f : TFlit) : f.body.length = 224 := by
  simp [TFlit.body, leBytes_length, padTo_length]

/-! ### The exchange of CONTROL flits -/

/-- A port whose training the exchange of CONTROL flits ends, or the port itself. -/
theorem Mod.exchanged_port (m : Mod) (p : Nat) : (m.exchanged p).port p = m.port p ∨ (m.port p).st = .training ∧ (m.exchanged p).port p = (m.port p).trained := by
  unfold Mod.exchanged
  extract_lets x m1
  have hm1 : m1.port p = x.trained := ((m.setPort p x.trained).trace_sameBut 7 p 3 0 0 0).port (by decide) (by decide) p |>.trans (m.port_setPort_same p _)
  clear_value m1
  split
  · next h =>
    refine .inr ⟨h.1, ?_⟩
    split
    · exact ((m1.degraded_sameBut _ _ _).port (by decide) (by decide) p).trans hm1
    · exact hm1
  · exact .inl rfl

theorem Mod.exchanged_port_other (m : Mod) {p q : Nat} (hq : q ≠ p) : (m.exchanged p).port q = m.port q := by
  unfold Mod.exchanged
  extract_lets x m1
  have hm1 : m1.port q = m.port q := ((m.setPort p x.trained).trace_sameBut 7 p 3 0 0 0).port (by decide) (by decide) q |>.trans (m.port_setPort_other _ hq)
  clear_value m1
  split
  · split
    · exact ((m1.degraded_sameBut _ _ _).port (by decide) (by decide) q).trans hm1
    · exact hm1
  · rfl

/-! ### A slot -/

/-- What the statement says of a slot of a port that sends. -/
structure Mod.slotSent (p phase : Nat) (m n : Mod) : Prop where
  flit : ∃ body, body.length = 248 ∧ n.host.out = m.host.out ++ [.flit p (body ++ leBytes 8 (crc64 body))]
  others : ∀ q, q ≠ p → n.port q = m.port q
  st : (m.port p).st ≠ .training → (n.port p).st = (m.port p).st
  ackDue : (n.port p).ackDue = none
  markDue : (n.port p).markDue = false
  ownMark : (m.port p).markDue = true → (n.port p).ownMark = some ((phase : Int), m.tick.count)

/-- A flit sent, and the exchange ended where it was the last of it. -/
theorem Mod.slotSent_of {m : Mod} {p phase : Nat} {w : Port} {bytes : List Byte} (hb : bytes.length = 248) (hst : w.st = (m.port p).st) (hack : w.ackDue = none)
    (hmark : w.markDue = false) (hown : (m.port p).markDue = true → w.ownMark = some ((phase : Int), m.tick.count)) :
    Mod.slotSent p phase m (((m.setPort p w).emit (.flit p (bytes ++ leBytes 8 (crc64 bytes)))).exchanged p) := by
  have hsame : ((m.setPort p w).emit (.flit p (bytes ++ leBytes 8 (crc64 bytes)))).port p = w :=
    ((Mod.emit_sameBut _ _).port (by decide) (by decide) p).trans (m.port_setPort_same p w)
  have hother : ∀ q, q ≠ p → ((m.setPort p w).emit (.flit p (bytes ++ leBytes 8 (crc64 bytes)))).port q = m.port q := fun q hq =>
    ((Mod.emit_sameBut _ _).port (by decide) (by decide) q).trans (m.port_setPort_other w hq)
  have hout : ((m.setPort p w).emit (.flit p (bytes ++ leBytes 8 (crc64 bytes)))).host.out = m.host.out ++ [.flit p (bytes ++ leBytes 8 (crc64 bytes))] := rfl
  generalize (m.setPort p w).emit (.flit p (bytes ++ leBytes 8 (crc64 bytes))) = n at hsame hother hout ⊢
  have hflit : ∃ body, body.length = 248 ∧ (n.exchanged p).host.out = m.host.out ++ [.flit p (body ++ leBytes 8 (crc64 body))] :=
    ⟨bytes, hb, by rw [(n.exchanged_sameBut p).host (by decide), hout]⟩
  have hq : ∀ q, q ≠ p → (n.exchanged p).port q = m.port q := fun q hq => (n.exchanged_port_other hq).trans (hother q hq)
  rcases n.exchanged_port p with h | ⟨ht, h⟩
  · rw [hsame] at h
    exact ⟨hflit, hq, fun _ => by rw [h, hst], by rw [h, hack], by rw [h, hmark], fun hm => by rw [h, hown hm]⟩
  · rw [hsame] at h ht
    exact ⟨hflit, hq, fun hn => (hn (hst.symm.trans ht)).elim, by rw [h]; rfl, by rw [h]; exact hmark, fun hm => by rw [h]; exact hown hm⟩

theorem Mod.flitSlot_sent (m : Mod) (p phase turn : Nat) (hs : (m.port p).sends = true) : Mod.slotSent p phase m (m.flitSlot p phase turn) := by
  have hkeep := (m.port p).pickSlot_sameMark
  unfold Mod.flitSlot
  extract_lets x
  rw [if_neg (by rw [hs]; decide)]
  change x.sameMark x.pickSlot.2.2.2 at hkeep
  generalize x.pickSlot = c at hkeep ⊢
  obtain ⟨kind, seq, fl, y⟩ := c
  dsimp only at hkeep ⊢
  have hmark : x.sameMark y.returnCredits.2 := hkeep
  generalize y.returnCredits = c at hmark ⊢
  obtain ⟨cr, z⟩ := c
  dsimp only at hmark ⊢
  generalize (if kind = .test then prbsBits 1792 z.prbs else (0, z.prbs)) = t
  obtain ⟨tb, sr⟩ := t
  dsimp only
  refine Mod.slotSent_of ?_ hmark.1 rfl rfl (fun hm => if_pos (hmark.2.trans hm))
  rw [List.length_append]
  have hadd : ∀ a b : Nat, a = 24 → b = 224 → a + b = 248 := fun a b ha hb => by omega
  refine hadd _ _ ?_ ?_
  · simp only [List.length_append, leBytes_length]
  · split
    · exact TFlit.body_length _
    · exact padTo_length _ _
    · exact leBytes_length _ _
    · exact leBytes_length _ _

/-! ### The other commands -/

/-- Settles O46: a slot carries a flit, a retry timeout sends again or gives up, a long wait is reported, tests start and stop. -/
theorem flitsSent : Obligations.FlitsSent := by
  unfold Obligations.FlitsSent
  intro s p hp x
  refine ⟨fun hr => ⟨fun phase turn => ⟨fun hs => ?_, fun hs => ?_⟩, fun hst => ⟨fun hret => ?_, fun hret hrounds => ?_, fun hret hrounds => ?_⟩,
    fun cls vl us hus hraised hq hcredit => ?_⟩, fun hans => ⟨fun hst => ?_, ?_⟩⟩
  · have h := s.m.flitSlot_sent p phase turn hs
    obtain ⟨body, hb, hout⟩ := h.flit
    exact ⟨_, body, exec_unit_eq rfl hr rfl, hb, hout, h.others, h.st, h.ackDue, h.markDue, h.ownMark⟩
  · exact exec_unit_self rfl fun _ => if_pos (by rw [hs]; rfl)
  · refine exec_unit_self rfl fun _ => (if_pos hst).trans (if_pos ?_)
    rw [show (s.m.port p).retry = [] from hret]
    rfl
  · have e : exec (.linkRetryTimeout p) s = .next { s with m := (s.m.setPort p { x with resend := some 0, rounds := x.rounds + 1 }).fsat Fld.FAB_REPLAY_COUNT 1 p } :=
      exec_unit_eq rfl hr ((if_pos hst).trans ((if_neg (fun h => hret (List.length_eq_zero_iff.1 h))).trans (if_neg (Nat.not_le.2 hrounds))))
    have hset := s.m.setPort_sameBut p { x with resend := some 0, rounds := x.rounds + 1 }
    have hport := s.m.port_setPort_same p { x with resend := some 0, rounds := x.rounds + 1 }
    generalize s.m.setPort p { x with resend := some 0, rounds := x.rounds + 1 } = n at e hset hport
    refine ⟨_, e, ((n.fsat_sameBut _ _ _ _).port (by decide) (by decide) p).trans hport, ?_⟩
    exact (n.fget_fsat_same Fld.FAB_REPLAY_COUNT 1 p 0 (by decide) (by decide)).trans (by rw [hset.fget (by decide)])
  · have e : exec (.linkRetryTimeout p) s = .next { s with m := s.m.portTo p .down 2 } :=
      exec_unit_eq rfl hr ((if_pos hst).trans ((if_neg (fun h => hret (List.length_eq_zero_iff.1 h))).trans (if_pos hrounds)))
    have h := s.m.portTo_moved p (st := .down) (cause := 2) (by decide) (fun h => by rw [h] at hst; exact nomatch hst)
    exact ⟨_, e, h.st, h.why⟩
  · have e : exec (.creditWaitLong p cls vl us) s = .next { s with m :=
        ((s.m.setPort p { x with creditRaised := true }).fset Fld.FAB_ERR_CREDIT_WAIT 1 p).raise .contained 0x0B05 p (cls + 4 * vl) us } := by
      refine exec_unit_eq rfl hr (if_pos ?_)
      obtain ⟨f, hf, hcls, hvl⟩ := hq
      have hany : (s.m.port p).queue.any (fun f => f.cls == cls && f.vl == vl) = true := List.any_eq_true.2 ⟨f, hf, by simp [hcls, hvl]⟩
      simp only [show (s.m.port p).creditRaised = false from hraised, show (s.m.port p).credit cls vl = 0 from hcredit, hany, hus, decide_true, Bool.not_false,
        Bool.and_self, beq_self_eq_true]
    have hport := s.m.port_setPort_same p { x with creditRaised := true }
    generalize s.m.setPort p { x with creditRaised := true } = n at e hport
    refine ⟨_, e, ?_, ?_, Mod.raise_reports _ _ _ _ _ _ _⟩
    · exact ((Mod.raise_sameBut _ _ _ _ _ _ _).port (by decide) (by decide) p).trans (((n.fset_sameBut _ _ _ _).port (by decide) (by decide) p).trans hport)
    · exact (Mod.fget_raise _ _ _ _ _ _ _ _ _ _).trans (n.fget_fset_bit Fld.FAB_ERR_CREDIT_WAIT p 0 rfl)
  · have e : exec (.testStart p) s = .next { s with m :=
        ((s.m.setPort p { x with test := true }).fset Fld.FAB_TEST_CNT_FLITS 0 p).fset Fld.FAB_TEST_CNT_ERRORS 0 p } := (exec_reg (f := fun m => m.testStart p) rfl hans).trans (congrArg (fun n => Host.Outcome.next { s with m := n }) (if_pos hst))
    have hport := s.m.port_setPort_same p { x with test := true }
    generalize s.m.setPort p { x with test := true } = n at e hport
    refine ⟨_, e, ?_, ?_, ?_⟩
    · exact ((Mod.fset_sameBut _ _ _ _ _).port (by decide) (by decide) p).trans (((n.fset_sameBut _ _ _ _).port (by decide) (by decide) p).trans hport)
    · exact (Mod.fget_fset_otherField _ Fld.FAB_TEST_CNT_ERRORS Fld.FAB_TEST_CNT_FLITS 0 p 0 rfl (by decide) (by decide)).trans
        (n.fget_fset_same Fld.FAB_TEST_CNT_FLITS 0 p 0 (by decide))
    · exact Mod.fget_fset_same _ Fld.FAB_TEST_CNT_ERRORS 0 p 0 (by decide)
  · exact exec_reg (f := fun m => m.testStop p) rfl hans

end Sys2Proof.Machine
end

section
/-! PROOF. The statement of control flits, marks and echoes (12_fabric_ports.md R316 to R319, R321 to R323, R325, R326; 02_plate_and_tick.md
R60, R63). -/

namespace Sys2Proof.Machine

/-! ### CONTROL flits -/

/-- A port that a CONTROL flit has reached. -/
def Mod.told (m : Mod) (p : Nat) (b : CtlRec) : Port := { m.port p with nbr := some b, loopback := b.module == m.self }

section
variable {s : State} {p : Nat} {b : CtlRec} (hr : s.m.running = true)
include hr

/-- A CONTROL flit that reaches a port that is not ACTIVE. -/
theorem execControlFlit_exchange (hst : (s.m.port p).st = .quarantine ∨ (s.m.port p).st = .training ∧ (s.m.port p).lanes ≠ 0) :
    exec (.controlFlitReceived p b) s = .next { s with m := (s.m.setPort p (s.m.told p b)).exchanged p } := by
  refine exec_unit_eq rfl hr ((if_neg ?_).trans (if_pos ?_))
  · rcases hst with h | ⟨h, hl⟩ <;> simp [*]
  · rcases hst with h | ⟨h, hl⟩ <;> rw [h] <;> exact fun h => nomatch h

/-- A CONTROL flit that reaches an ACTIVE port whose neighbour the plate names. -/
theorem execControlFlit_active {tab : RouteTab} {e : Nat × Nat} (hst : (s.m.port p).st = .active) (ht : s.m.routes = some tab) (he : kvGet? tab.nbr p = some e)
    {n : Mod} (h : (if e.1 ≠ b.module ∨ e.2 ≠ b.port then
        (((s.m.setPort p (s.m.told p b)).portTo p .quarantine 6).fset Fld.FAB_ERR_NBR_MISMATCH 1 p).raise .contained 0x0B03 p
          (identWord e.1 e.2) (identWord b.module b.port) b.epoch
      else if b.state = 4 ∧ b.active ∧ b.epoch = s.m.epoch then
        (s.m.setPort p (s.m.told p b)).setPort p { (s.m.setPort p (s.m.told p b)).port p with confirmed := true }
      else (s.m.setPort p (s.m.told p b)).portTo p .quarantine 5) = n) :
    exec (.controlFlitReceived p b) s = .next { s with m := n } := by
  refine exec_unit_eq rfl hr ((if_neg (by simp [hst])).trans ((if_neg (fun h => h hst)).trans (Eq.trans ?_ h)))
  rw [ht, Option.map_some, Option.bind_some, he]
  rfl

end

/-- A port at x4 is reported. -/
theorem Mod.degraded_spec (m : Mod) (p failed half : Nat) : (m.degraded p failed half).reports .contained 0x0B02 p failed half 0
    ∧ (m.degraded p failed half).fget Fld.FAB_ERR_DEGRADED p = 1 :=
  ⟨Mod.raise_reports _ _ _ _ _ _ _, (Mod.fget_raise _ _ _ _ _ _ _ _ _ _).trans (m.fget_fset_bit Fld.FAB_ERR_DEGRADED p 0 rfl)⟩

/-- The exchange at a port in TRAINING that has sent its own CONTROL flit. -/
theorem Mod.exchanged_trained {m : Mod} {p : Nat} (hst : (m.port p).st = .training) (hl : (m.port p).lanes ≠ 0) (hn : (m.port p).nbr.isSome = true)
    (hc : (m.port p).ctlDue = false) : (m.exchanged p).port p = (m.port p).trained
      ∧ ((m.port p).lanes = 4 → (m.exchanged p).reports .contained 0x0B02 p (m.port p).failedLanes (m.port p).half 0
        ∧ (m.exchanged p).fget Fld.FAB_ERR_DEGRADED p = 1) := by
  unfold Mod.exchanged
  extract_lets x m1
  rw [if_pos ⟨hst, hl, hn, by rw [hc]; decide⟩]
  have hm1 : m1.port p = x.trained := ((m.setPort p x.trained).trace_sameBut 7 p 3 0 0 0).port (by decide) (by decide) p |>.trans (m.port_setPort_same p _)
  clear_value m1
  by_cases h4 : x.lanes = 4
  · rw [if_pos h4]
    exact ⟨((m1.degraded_sameBut _ _ _).port (by decide) (by decide) p).trans hm1, fun _ => m1.degraded_spec _ _ _⟩
  · rw [if_neg h4]
    exact ⟨hm1, fun h => (h4 h).elim⟩

theorem Mod.exchanged_waits {m : Mod} {p : Nat} (h : (m.port p).st ≠ .training ∨ (m.port p).ctlDue = true) : m.exchanged p = m :=
  if_neg fun ⟨hst, _, _, hc⟩ => h.elim (fun h => h hst) hc

theorem Port.entering_leaves_confirmed {x : Port} {st : PortState} (cause : Nat) (h1 : x.st.carries = true) (h2 : st.carries = false) :
    (x.entering st cause).confirmed = false := by
  unfold Port.entering
  rw [h1, h2]
  dsimp only
  split <;> rfl

/-- An ACTIVE port that its neighbour's CONTROL flit takes back to QUARANTINE. -/
theorem Mod.unconfirmed_spec {m : Mod} {p cause : Nat} (hst : (m.port p).st = .active) (hc : cause < 256) :
    ((m.portTo p .quarantine cause).port p).st = .quarantine ∧ ((m.portTo p .quarantine cause).port p).confirmed = false
      ∧ (m.portTo p .quarantine cause).fget Fld.FAB_STATUS_CAUSE p = cause := by
  have h := m.portTo_moved p (st := .quarantine) hc (by rw [hst]; exact fun h => nomatch h)
  refine ⟨h.st, ?_, h.why⟩
  obtain ⟨fs, e⟩ := h.port
  rw [e]
  exact Port.entering_leaves_confirmed cause (by rw [hst]; rfl) rfl

/-! ### Marks -/

/-- A mark of another count on the upstream port under a plate. -/
theorem Mod.countMismatch_active {m : Mod} (p count : Nat) (h : m.plateActive = true) :
    (m.countMismatch p count).tick.aligned = false ∧ (m.countMismatch p count).fget Fld.TCK_ERR_COUNT_MISMATCH = 1
      ∧ (m.countMismatch p count).reports .device 0x0301 p (lo32 m.nearBoundary) (lo32 count) 0 ∧ (m.countMismatch p count).tick.count = m.tick.count
      ∧ (m.countMismatch p count).tick.valid = m.tick.valid := by
  rw [Mod.countMismatch, if_pos h]
  have hs := Mod.fset_sameBut { m with tick := { m.tick with aligned := false } } Fld.TCK_ERR_COUNT_MISMATCH 1 0 0
  have hb := Mod.fget_fset_bit { m with tick := { m.tick with aligned := false } } Fld.TCK_ERR_COUNT_MISMATCH 0 0 rfl
  have ht := hs.tick (by decide)
  generalize Mod.fset { m with tick := { m.tick with aligned := false } } Fld.TCK_ERR_COUNT_MISMATCH 1 = n at hb ht ⊢
  have htick := (n.raise_sameBut .device 0x0301 p (lo32 m.nearBoundary) (lo32 count) 0).tick (by decide)
  refine ⟨?_, (Mod.fget_raise _ _ _ _ _ _ _ _ _ _).trans hb, Mod.raise_reports _ _ _ _ _ _ _, ?_, ?_⟩ <;> rw [htick, ht]

/-- A mark of another count on the upstream port with no plate active. -/
theorem Mod.countMismatch_free {m : Mod} (p count : Nat) (h : m.plateActive = false) :
    (m.countMismatch p count).tick.adopt.isSome = true ∧ (m.countMismatch p count).tick.valid = m.tick.valid := by
  rw [Mod.countMismatch, if_neg (by rw [h]; decide)]
  exact ⟨rfl, rfl⟩

/-- A mark of another period is reported once. -/
theorem Mod.periodMismatch_reports {m : Mod} {p : Nat} (period : Nat) (h : p ∉ m.tick.periodBad) :
    (m.periodMismatch p period).reports .contained 0x0303 p period (m.fget Fld.TCK_PERIOD_PERIOD_US) 0 := by
  rw [Mod.periodMismatch, if_neg (by simpa using h)]
  exact Mod.raise_reports _ _ _ _ _ _ _

/-- The module a mark has reached, with the number of marks of the port that were good before it set to `n`. -/
def Mod.marked (m : Mod) (p : Nat) (x : Port) (n : Nat) : Mod :=
  { m.setPort p x with tick := { (m.setPort p x).tick with valid := kvSet (m.setPort p x).tick.valid p n } }

theorem Mod.marked_spec (m : Mod) (p : Nat) (x : Port) (n : Nat) : (m.marked p x n).port p = x ∧ Mod.sameBut [.fab, .tick] m (m.marked p x n)
    ∧ kvGetD (m.marked p x n).tick.valid p 0 = n ∧ (m.marked p x n).tick.periodBad = m.tick.periodBad ∧ (m.marked p x n).tick.count = m.tick.count
    ∧ (m.marked p x n).nearBoundary = m.nearBoundary := by
  have hset := m.setPort_sameBut p x
  have ht := hset.tick (by decide)
  have hport := m.port_setPort_same p x
  have hnear : (m.marked p x n).nearBoundary = m.nearBoundary := rfl
  rw [Mod.marked] at hnear ⊢
  generalize m.setPort p x = y at hset ht hport hnear ⊢
  have hs := y.sameBut_tick { y.tick with valid := kvSet y.tick.valid p n }
  refine ⟨(hs.port (by decide) (by decide) p).trans hport, Mod.sameBut_trans (Mod.sameBut_mono hset (by decide)) (Mod.sameBut_mono hs (by decide)),
    kvGetD_kvSet_same _ _ _ _, ?_, ?_, hnear⟩ <;> rw [ht]

/-! ### Echoes -/

/-- The module with delay and offset measured for port `p`. -/
def Mod.measured (m : Mod) (p : Nat) (delay off : Int) : Mod :=
  let m1 := m.setPort p { m.port p with skew := some ((delay / 10).toNat, off / 10), ownMark := none }
  if m.isUpstream p then m1.upstreamOffset p off else m1

/-- What an echo for marks of one tick number does. -/
def Mod.echoed (m : Mod) (p : Nat) (delay off : Int) : Mod :=
  if 500000 < delay then (m.measured p delay off).portTo p .failed 9
  else if 16000 < off.natAbs then
    let m3 := ((m.measured p delay off).fset Fld.FAB_ERR_SKEW 1 p).raise .contained 0x0B04 p ((off / 10) % 2 ^ 32).toNat (delay / 10).toNat
    if (m.port p).st = .active then m3.portTo p .quarantine 4 else m3
  else m.measured p delay off

/-- The states of a port whose neighbour marks its flits. -/
def Port.marks (x : Port) : Prop := x.st = .quarantine ∨ x.st.carries = true ∨ x.st = .training

theorem Port.marks_sends {x : Port} (h : x.marks) : ¬(!(x.st == .quarantine || x.st.carries || x.st == .training)) = true := by
  rcases h with h | h | h <;> simp [h]

section
variable {s : State} {p : Nat} (hr : s.m.running = true)
include hr

theorem execMarkReceived_eq {arrival : Int} {phase count period : Nat} (hst : (s.m.port p).marks) {n : Mod} {x : Port}
    (hx : x = { s.m.port p with nbrMark := some (arrival, phase, count, period), echoDue := true })
    (h : (if period ≠ s.m.fget Fld.TCK_PERIOD_PERIOD_US then (s.m.marked p x 0).periodMismatch p period
      else if count ≠ s.m.nearBoundary then if s.m.isUpstream p then (s.m.marked p x 0).countMismatch p count else s.m.marked p x 0
      else s.m.marked p x (kvGetD s.m.tick.valid p 0 + 1)) = n) : exec (.markReceived p arrival phase count period) s = .next { s with m := n } := by
  subst hx
  exact exec_unit_eq rfl hr ((if_neg (Port.marks_sends hst)).trans h)

theorem execEchoReceived_eq {arrival ts ta : Int} {turn own phase count period : Nat} (ho : (s.m.port p).ownMark = some (ts, own))
    (hn : (s.m.port p).nbrMark = some (ta, phase, count, period)) {n : Mod}
    (h : (if own ≠ count then s.m.setPort p { s.m.port p with ownMark := none }
      else if !((s.m.port p).st == .quarantine || (s.m.port p).st.carries || (s.m.port p).st == .training) then s.m
      else s.m.echoed p ((arrival - ts - turn) / 2) (ta - (arrival - ts - turn) / 2 - phase)) = n) :
    exec (.echoReceived p arrival turn) s = .next { s with m := n } := by
  refine exec_unit_eq rfl hr (Eq.trans ?_ h)
  simp only [Mod.echoed, Mod.measured, ho, hn]

end

theorem Mod.measured_port (m : Mod) (p : Nat) (delay off : Int) :
    (m.measured p delay off).port p = { m.port p with skew := some ((delay / 10).toNat, off / 10), ownMark := none } := by
  have hport := m.port_setPort_same p { m.port p with skew := some ((delay / 10).toNat, off / 10), ownMark := none }
  rw [Mod.measured]
  generalize m.setPort p { m.port p with skew := some ((delay / 10).toNat, off / 10), ownMark := none } = m1 at hport ⊢
  dsimp only
  split
  · exact ((m1.upstreamOffset_sameBut p off).port (by decide) (by decide) p).trans hport
  · exact hport

/-- An echo within bounds, or beyond one of them. -/
theorem Mod.echoed_spec (m : Mod) (p : Nat) (delay off : Int) (hd : (m.port p).st ≠ .disabled) (n : Mod) (hn : n = m.echoed p delay off) :
    (delay ≤ 500000 → off.natAbs ≤ 16000 → n.port p = { m.port p with skew := some ((delay / 10).toNat, off / 10), ownMark := none })
    ∧ (500000 < delay → (n.port p).st = .failed ∧ n.fget Fld.FAB_STATUS_CAUSE p = 9)
    ∧ (delay ≤ 500000 → 16000 < off.natAbs → n.fget Fld.FAB_ERR_SKEW p = 1
        ∧ n.reports .contained 0x0B04 p ((off / 10) % 2 ^ 32).toNat (delay / 10).toNat 0
        ∧ (n.port p).st = (if (m.port p).st = .active then .quarantine else (m.port p).st)) := by
  have hport := m.measured_port p delay off
  unfold Mod.echoed at hn
  generalize m.measured p delay off = m2 at hport hn
  have hst : (m2.port p).st = (m.port p).st := by rw [hport]
  refine ⟨fun h1 h2 => ?_, fun h1 => ?_, fun h1 h2 => ?_⟩
  · rw [hn, if_neg (by omega), if_neg (by omega), hport]
  · rw [hn, if_pos h1]
    have h := m2.portTo_moved p (st := .failed) (cause := 9) (by decide) (by rw [hst]; exact hd)
    exact ⟨h.st, h.why⟩
  · rw [if_neg (by omega), if_pos h2] at hn
    have hs := m2.fset_sameBut Fld.FAB_ERR_SKEW 1 p 0
    have hb := m2.fget_fset_bit Fld.FAB_ERR_SKEW p 0 rfl
    generalize m2.fset Fld.FAB_ERR_SKEW 1 p = y at hs hb hn
    have hrep := y.raise_reports .contained 0x0B04 p ((off / 10) % 2 ^ 32).toNat (delay / 10).toNat 0
    have hraise := y.raise_sameBut .contained 0x0B04 p ((off / 10) % 2 ^ 32).toNat (delay / 10).toNat 0
    have hbit : (y.raise .contained 0x0B04 p ((off / 10) % 2 ^ 32).toNat (delay / 10).toNat).fget Fld.FAB_ERR_SKEW p = 1 :=
      (Mod.fget_raise _ _ _ _ _ _ _ _ _ _).trans hb
    generalize y.raise .contained 0x0B04 p ((off / 10) % 2 ^ 32).toNat (delay / 10).toNat = m3 at hrep hraise hbit hn
    have hst3 : (m3.port p).st = (m.port p).st := by
      rw [hraise.port (by decide) (by decide), hs.port (by decide) (by decide), hst]
    by_cases ha : (m.port p).st = .active
    · rw [if_pos ha] at hn ⊢
      have h := m3.portTo_moved p (st := .quarantine) (cause := 4) (by decide) (by rw [hst3]; exact hd)
      rw [hn]
      refine ⟨(h.errs Fld.FAB_ERR_SKEW rfl (.inl (by decide)) (.inl (by decide))).trans hbit, ?_, h.st⟩
      rw [Mod.reports, h.rest.tick (by decide)]
      exact h.events _ hrep
    · rw [if_neg ha] at hn ⊢
      rw [hn]
      exact ⟨hbit, hrep, hst3⟩

/-- Settles O47: a CONTROL flit, a mark and an echo, each by the state of its port. -/
theorem neighboursAndMarks : Obligations.NeighboursAndMarks := by
  unfold Obligations.NeighboursAndMarks
  intro s p hp hr x
  refine ⟨fun b => ?_, fun arrival phase count period hst => ?_, fun arrival ts ta turn own phase count period hst ho hn => ?_⟩
  · intro y
    have hy : (s.m.setPort p y).port p = y := s.m.port_setPort_same p y
    refine ⟨fun hst => ?_, fun hst hl => ⟨fun hc => ?_, fun hc => ?_⟩, fun tab e hst ht he => ⟨fun hb hb4 hba hbe => ?_, fun hb hno => ?_, fun hb => ?_⟩⟩
    · refine (execControlFlit_exchange hr (.inl hst)).trans ?_
      rw [Mod.exchanged_waits]
      · rfl
      · exact .inl (by rw [show s.m.told p b = y from rfl, hy, show y.st = .quarantine from hst]; exact fun h => nomatch h)
    · refine (execControlFlit_exchange hr (.inr ⟨hst, hl⟩)).trans ?_
      rw [Mod.exchanged_waits]
      · rfl
      · exact .inr (by rw [show s.m.told p b = y from rfl, hy]; exact hc)
    · have h := Mod.exchanged_trained (m := s.m.setPort p y) (p := p) (by rw [hy]; exact hst) (by rw [hy]; exact hl) (by rw [hy]; rfl) (by rw [hy]; exact hc)
      rw [hy] at h
      exact ⟨_, execControlFlit_exchange hr (.inr ⟨hst, hl⟩), h.1, h.2⟩
    · refine ⟨_, execControlFlit_active hr hst ht he ((if_neg (by simp [hb])).trans (if_pos ⟨hb4, hba, hbe⟩)), ?_, rfl, rfl, ?_⟩
      · refine (Mod.port_setPort_same _ _ _).trans ?_
        rw [show s.m.told p b = y from rfl, hy]
      · exact Mod.sameBut_trans (s.m.setPort_sameBut p _) (Mod.setPort_sameBut _ _ _)
    · have h := Mod.unconfirmed_spec (m := s.m.setPort p y) (p := p) (cause := 5) (by rw [hy]; exact hst) (by decide)
      refine ⟨_, execControlFlit_active hr hst ht he ((if_neg (by simp [hb])).trans (if_neg fun ⟨h4, ha, he⟩ => ?_)), h⟩
      rcases hno with h | h | h
      · exact h h4
      · rw [h] at ha
        exact nomatch ha
      · exact h he
    · have hne : e.1 ≠ b.module ∨ e.2 ≠ b.port := by
        by_contra hc
        simp only [not_or, not_not] at hc
        exact hb (Prod.ext hc.1 hc.2)
      have h := Mod.unconfirmed_spec (m := s.m.setPort p y) (p := p) (cause := 6) (by rw [hy]; exact hst) (by decide)
      have e1 := execControlFlit_active hr hst ht he (if_pos hne)
      rw [show s.m.told p b = y from rfl] at e1
      generalize (s.m.setPort p y).portTo p .quarantine 6 = n at h e1
      have hs := n.fset_sameBut Fld.FAB_ERR_NBR_MISMATCH 1 p 0
      have hk := n.fset_regsKeep Fld.FAB_ERR_NBR_MISMATCH 1 p 0
      have hbit := n.fget_fset_bit Fld.FAB_ERR_NBR_MISMATCH p 0 rfl
      generalize n.fset Fld.FAB_ERR_NBR_MISMATCH 1 p = k at hs hk hbit e1
      have hraise := k.raise_sameBut .contained 0x0B03 p (identWord e.1 e.2) (identWord b.module b.port) b.epoch
      refine ⟨_, e1, ?_, ?_, (Mod.fget_raise _ _ _ _ _ _ _ _ _ _).trans hbit, Mod.raise_reports _ _ _ _ _ _ _⟩
      · exact (congrArg Port.st ((hraise.port (by decide) (by decide) p).trans (hs.port (by decide) (by decide) p))).trans h.1
      · refine (Mod.fget_raise _ _ _ _ _ _ _ _ _ _).trans ((Mod.regsKeep_fget hk _ _ _ ?_).trans h.2.2)
        simp only [Fld.FAB_STATUS_CAUSE, Fld.FAB_ERR_NBR_MISMATCH, Reg.FAB_STATUS, Reg.FAB_ERR, RegSpec.addr, List.mem_singleton]
        omega
  · have hexec := fun y hy n h => execMarkReceived_eq (arrival := arrival) (phase := phase) (count := count) (period := period) (x := y) (n := n) hr hst hy h
    replace hexec := hexec _ rfl
    change ∃ t : State, _ ∧ t.m.port p = { s.m.port p with nbrMark := some (arrival, phase, count, period), echoDue := true } ∧ _
    generalize ({ s.m.port p with nbrMark := some (arrival, phase, count, period), echoDue := true } : Port) = y at hexec ⊢
    have hmark : ∀ n, (s.m.marked p y n).port p = y := fun n => (s.m.marked_spec p y n).1
    have hspec := fun n => (s.m.marked_spec p y n).2
    by_cases hper : period = s.m.fget Fld.TCK_PERIOD_PERIOD_US
    · by_cases hcount : count = s.m.nearBoundary
      · have e := hexec _ ((if_neg (fun h => h hper)).trans (if_neg (fun h => h hcount)))
        exact ⟨_, e, hmark _, fun h => (h hper).elim, fun _ _ => (hspec _).2.1, fun _ h => (h hcount).elim⟩
      · obtain ⟨hs, hvalid, -, htick, hnear⟩ := hspec 0
        have hact : (s.m.marked p y 0).plateActive = s.m.plateActive :=
          congrArg (fun q : PlateUnit => q.active.isSome) (hs.plt (by decide))
        have hm0 := hmark 0
        have e := fun n h => hexec n ((if_neg (fun h => h hper)).trans ((if_pos hcount).trans h))
        generalize s.m.marked p y 0 = k at hs hvalid htick hnear hact hm0 e
        by_cases hup : s.m.isUpstream p = true
        · have hcm := k.countMismatch_sameBut p count
          refine ⟨_, e _ (if_pos hup), (hcm.port (by decide) (by decide) p).trans hm0, fun h => (h hper).elim, fun _ h => (hcount h).elim, fun _ _ => ?_⟩
          cases hpa : s.m.plateActive with
          | true =>
            obtain ⟨h1, h2, h3, h4, h5⟩ := Mod.countMismatch_active p count (hact.trans hpa)
            rw [hnear] at h3
            exact ⟨by rw [h5, hvalid], fun _ _ => ⟨h1, h2, h3, h4.trans htick⟩, fun _ h => Bool.noConfusion h⟩
          | false =>
            obtain ⟨h1, h2⟩ := Mod.countMismatch_free p count (hact.trans hpa)
            exact ⟨by rw [h2, hvalid], fun _ h => Bool.noConfusion h, fun _ _ => h1⟩
        · exact ⟨_, e _ (if_neg hup), hm0, fun h => (h hper).elim, fun _ h => (hcount h).elim,
            fun _ _ => ⟨hvalid, fun h => (hup h).elim, fun h => (hup h).elim⟩⟩
    · obtain ⟨hs, -, hbad, -, -⟩ := hspec 0
      have hm0 := hmark 0
      have e := hexec _ (if_pos hper)
      generalize s.m.marked p y 0 = k at hs hbad hm0 e
      have hpm := k.periodMismatch_sameBut p period
      refine ⟨_, e, (hpm.port (by decide) (by decide) p).trans hm0, fun _ hb => ?_, fun h => (hper h).elim, fun h => (hper h).elim⟩
      have h := k.periodMismatch_reports (p := p) period (by rw [hbad]; exact hb)
      rwa [hs.fget (by decide)] at h
  · intro delay off
    have hd : (s.m.port p).st ≠ .disabled := fun h => by
      rcases hst with h' | h' | h' <;> rw [h] at h' <;> exact nomatch h'
    refine ⟨fun hne => execEchoReceived_eq hr ho hn (if_pos hne), fun heq => ?_⟩
    refine ⟨_, execEchoReceived_eq hr ho hn ((if_neg (fun h => h heq)).trans (if_neg ?_)), s.m.echoed_spec p delay off hd _ rfl⟩
    exact Port.marks_sends hst

end Sys2Proof.Machine
end

section
/-! PROOF. What flits sent, taken and applied leave of the flows and remote reads (12_fabric_ports.md R333 to R336). -/

namespace Sys2Proof.Machine

/-! ### Flits sent -/

/-- `n` has the sender's flows and the remote reads of `m`. -/
structure Mod.sameSends (m n : Mod) : Prop where
  tx : n.fab.tx = m.fab.tx
  reads : n.fab.reads = m.fab.reads
  lostTo : n.fab.lostTo = m.fab.lostTo

/-- `n` has the flows of both ends and the remote reads of `m`. -/
structure Mod.sameFlows (m n : Mod) : Prop where
  toSameSends : Mod.sameSends m n
  rx : n.fab.rx = m.fab.rx

theorem Mod.sameSends.trans {l m n : Mod} (h1 : Mod.sameSends l m) (h2 : Mod.sameSends m n) : Mod.sameSends l n :=
  ⟨h2.tx.trans h1.tx, h2.reads.trans h1.reads, h2.lostTo.trans h1.lostTo⟩

theorem Mod.sameFlows.trans {l m n : Mod} (h1 : Mod.sameFlows l m) (h2 : Mod.sameFlows m n) : Mod.sameFlows l n :=
  ⟨h1.toSameSends.trans h2.toSameSends, h2.rx.trans h1.rx⟩

theorem Mod.sameFlows.of_eq {m n : Mod} (h : n.fab = m.fab) : Mod.sameFlows m n := ⟨⟨by rw [h], by rw [h], by rw [h]⟩, by rw [h]⟩

theorem Mod.sameFlows.of {ps : List Part} {m n : Mod} (h : Mod.sameBut ps m n) (hf : ps.contains .fab = false) : Mod.sameFlows m n :=
  .of_eq (h.fab (by simpa using hf))

section
variable (m : Mod)

theorem Mod.enqueue_sameFlows (p : Nat) (f : TFlit) : Mod.sameFlows m (m.enqueue p f) := ⟨⟨rfl, rfl, rfl⟩, rfl⟩

theorem Mod.place_sameFlows (ingress : Option Nat) (f : TFlit) : Mod.sameFlows m (m.place ingress f) := by
  unfold Mod.place
  split
  · exact m.enqueue_sameFlows _ _
  · extract_lets m1
    have h1 : Mod.sameFlows m m1 := .of (m.fsat_sameBut _ _ _ _) rfl
    clear_value m1
    split
    · exact h1
    · have h2 : Mod.sameFlows m1 { m1 with fab := { m1.fab with unreachRaised := true } } := ⟨⟨rfl, rfl, rfl⟩, rfl⟩
      exact (h1.trans h2).trans (.of (Mod.raise_sameBut _ _ _ _ _ _ _) rfl)

theorem Mod.launch_sameFlows (f : TFlit) : Mod.sameFlows m (m.launch f) := by
  unfold Mod.launch Mod.placeColl
  extract_lets ps p
  split
  · split
    · exact m.place_sameFlows _ _
    · exact m.enqueue_sameFlows _ _
  · exact m.place_sameFlows _ _

theorem Mod.foldl_launch_sameFlows (fs : List TFlit) : Mod.sameFlows m (fs.foldl Mod.launch m) := by
  induction fs generalizing m with
  | nil => exact .of_eq rfl
  | cons f fs ih => exact (m.launch_sameFlows f).trans (ih _)

theorem Mod.sendAck_sameSends (src cls : Nat) : Mod.sameSends m (m.sendAck src cls) := by
  unfold Mod.sendAck
  extract_lets k r f
  have h : Mod.sameSends m { m with fab := { m.fab with rx := kvSet m.fab.rx k { r with since := 0, due := false } } } := ⟨rfl, rfl, rfl⟩
  exact h.trans (Mod.place_sameFlows _ _ _).toSameSends

theorem Mod.applied_sameSends (f : TFlit) : Mod.sameSends m (m.applied f) := by
  unfold Mod.applied
  split
  · exact ⟨rfl, rfl, rfl⟩
  · extract_lets k r
    generalize advance (r.above.length + 1) (setAdd r.above (r.cum + r.ahead f.seq)) r.cum = y
    obtain ⟨c, a⟩ := y
    dsimp only
    have h : ∀ x, Mod.sameSends m { m with fab := { m.fab with rx := x } } := fun x => ⟨rfl, rfl, rfl⟩
    split
    · exact (h _).trans (Mod.sendAck_sameSends _ _ _)
    · exact h _

theorem Mod.freeEntry_sameFlows (p : Nat) (f : TFlit) : Mod.sameFlows m (m.freeEntry p f) := by
  unfold Mod.freeEntry
  split
  · exact .of_eq rfl
  · exact ⟨⟨rfl, rfl, rfl⟩, rfl⟩

end

/-! ### Flits taken -/

/-- A change of the fabric, of FAB_UNREACH and of records is quiet. -/
theorem Mod.quiet_of_fabric {m n : Mod} (hs : Mod.sameBut [.regs, .evIn, .fab] m n) (hr : m.regsKeep [Reg.FAB_UNREACH.base] n) : Mod.quiet m n :=
  ⟨hs.mem (by decide), hs.plt (by decide), fun d => congrArg CoreRun.run (hs.core (by decide) d), fun g hg a b => Mod.regsKeep_fget hr g a b fun h => by
    have := hg.place a b
    rw [List.mem_singleton.1 h] at this
    exact Nat.not_lt.2 (by decide) this⟩

/-- The flit taken is one that was asked for. -/
theorem takeInbox_pred {p : TFlit → Bool} {xs rest : List (Nat × TFlit)} {x : Nat × TFlit} (h : takeInbox p xs = some (x, rest)) : p x.2 = true := by
  induction xs generalizing rest with
  | nil => cases h
  | cons y ys ih =>
    rw [takeInbox] at h
    split at h
    · next hy =>
      cases h
      exact hy
    · split at h
      · next z r hz =>
        cases h
        exact ih hz
      · cases h

/-- What a flit taken leaves of the sender's flows and the remote reads. -/
theorem Mod.takeFlit_sameSends {m n : Mod} {p : TFlit → Bool} {f : TFlit} (h : m.takeFlit p = some (f, n)) : Mod.sameSends m n ∧ p f = true := by
  unfold Mod.takeFlit at h
  split at h
  · rename_i x rest hx
    simp only [Option.some.injEq, Prod.mk.injEq] at h
    obtain ⟨rfl, rfl⟩ := h
    have h1 : Mod.sameSends m { m with fab := { m.fab with inbox := rest } } := ⟨rfl, rfl, rfl⟩
    exact ⟨(h1.trans (Mod.freeEntry_sameFlows _ _ _).toSameSends).trans (Mod.applied_sameSends _ _), takeInbox_pred hx⟩
  · cases h

theorem Mod.takeFlit_quiet {m n : Mod} {p : TFlit → Bool} {f : TFlit} (h : m.takeFlit p = some (f, n)) : Mod.quiet m n := by
  obtain ⟨hs, hr⟩ := m.takeFlit_spec h
  exact Mod.quiet_of_fabric hs hr

/-! ### Flits originated -/

section
variable (m : Mod)

/-- A change of the fabric that leaves its ports. -/
theorem Mod.flitsMoved.of_fab (x : FabUnit) (h : x.ports = m.fab.ports) : Mod.flitsMoved m { m with fab := x } := by
  have hs : Mod.sameBut [.fab] m { m with fab := x } := m.sameBut_fab x
  have hv : Mod.variant { m with fab := x } = m.variant := rfl
  have hp : (Mod.fab { m with fab := x }).ports = m.fab.ports := h
  have he : Mod.evIn { m with fab := x } = m.evIn := rfl
  generalize ({ m with fab := x } : Mod) = n at hs hv hp he ⊢
  exact ⟨fun q => ⟨(m.port q).queue, Mod.port_of_ports hp hv q⟩, m.regsKeep_sameBut hs rfl _, fun r hr => he ▸ hr, Mod.sameBut_mono hs (by decide)⟩

theorem Mod.launch_moved (f : TFlit) : Mod.flitsMoved m (m.launch f) := by
  unfold Mod.launch Mod.placeColl
  extract_lets ps p
  split
  · split
    · exact m.place_moved _ _
    · exact m.enqueue_moved _ _
  · exact m.place_moved _ _

/-- The flow of a flit originated counts one more; every other flow stands. -/
theorem Mod.originate_tx (f : TFlit) : ∃ w : TxFlow, (m.originate f).fab.tx = kvSet m.fab.tx (flowKey f.dest f.cls) w
    ∧ w.next = (kvGetD m.fab.tx (flowKey f.dest f.cls) .rest).next + 1 ∧ w.timeouts = (kvGetD m.fab.tx (flowKey f.dest f.cls) .rest).timeouts := by
  unfold Mod.originate
  extract_lets k w g full w1 _ m1
  have h1 : m1.fab.tx = kvSet m.fab.tx k w1 := rfl
  have hw : w1.next = w.next + 1 ∧ w1.timeouts = w.timeouts := ⟨rfl, rfl⟩
  clear_value m1 w1
  refine ⟨w1, ?_, hw⟩
  split
  · exact h1
  · rw [(m1.launch_sameFlows g).toSameSends.tx, h1]

theorem Mod.originate_moved (f : TFlit) : Mod.flitsMoved m (m.originate f) := by
  unfold Mod.originate
  extract_lets k w g full w1 _ m1
  have h1 : Mod.flitsMoved m m1 := .of_fab m { m.fab with tx := kvSet m.fab.tx k w1 } rfl
  clear_value m1
  split
  · exact h1
  · exact h1.trans (m1.launch_moved g)

theorem Mod.originateAll_moved (fs : List TFlit) : Mod.flitsMoved m (m.originateAll fs) := by
  unfold Mod.originateAll
  induction fs generalizing m with
  | nil => exact .refl m
  | cons f fs ih => exact (m.originate_moved f).trans (ih _)

/-- Flits originated on one flow are counted there. -/
theorem Mod.originateAll_next {k : Nat} (fs : List TFlit) (hfs : ∀ f ∈ fs, flowKey f.dest f.cls = k) :
    (kvGetD (m.originateAll fs).fab.tx k .rest).next = (kvGetD m.fab.tx k .rest).next + fs.length := by
  unfold Mod.originateAll
  induction fs generalizing m with
  | nil => rfl
  | cons f fs ih =>
    obtain ⟨w, htx, hnext, -⟩ := m.originate_tx f
    rw [List.foldl_cons, ih _ fun g hg => hfs g (List.mem_cons_of_mem _ hg), htx, hfs f List.mem_cons_self, kvGetD_kvSet_same, hnext,
      hfs f List.mem_cons_self, List.length_cons, Nat.add_assoc, Nat.add_comm 1]

end

/-! ### The timeouts of flows -/

/-- `n` has the timeouts of every flow of `m`. -/
def Mod.sameTimeouts (m n : Mod) : Prop := ∀ k, (kvGetD n.fab.tx k .rest).timeouts = (kvGetD m.fab.tx k .rest).timeouts

theorem Mod.sameTimeouts.refl (m : Mod) : Mod.sameTimeouts m m := fun _ => rfl

theorem Mod.sameTimeouts.trans {l m n : Mod} (h1 : Mod.sameTimeouts l m) (h2 : Mod.sameTimeouts m n) : Mod.sameTimeouts l n := fun k =>
  (h2 k).trans (h1 k)

theorem Mod.sameTimeouts.of {ps : List Part} {m n : Mod} (h : Mod.sameBut ps m n) (hf : ps.contains .fab = false) : Mod.sameTimeouts m n := fun k => by
  rw [h.fab (by simpa using hf)]

theorem Mod.sameTimeouts.foldl {β : Type} {f : Mod → β → Mod} (hf : ∀ x y, Mod.sameTimeouts x (f x y)) (xs : List β) (m : Mod) :
    Mod.sameTimeouts m (xs.foldl f m) := by
  induction xs generalizing m with
  | nil => exact .refl m
  | cons x xs ih => exact (hf m x).trans (ih _)

section
variable (m : Mod) (k : Nat) (o : CollOp)

theorem Mod.originate_timeouts (f : TFlit) : Mod.sameTimeouts m (m.originate f) := fun j => by
  obtain ⟨w, htx, -, ht⟩ := m.originate_tx f
  rw [htx]
  by_cases hj : j = flowKey f.dest f.cls
  · rw [hj, kvGetD_kvSet_same, ht]
  · rw [kvGetD_kvSet_other _ _ _ hj]

theorem Mod.sendXfer_timeouts (s mb form i : Nat) (data : List (Byte × Bool)) : Mod.sameTimeouts m (m.sendXfer k o s mb form i data) :=
  .foldl (fun x f => x.originate_timeouts f) _ m

theorem Mod.setResult_timeouts (s : Nat) (c : Contrib) : Mod.sameTimeouts m (m.setResult k o s c) := by
  unfold Mod.setResult
  extract_lets x half
  exact (Mod.sameTimeouts.of (m.setOp_sameBut k _) rfl).trans (.foldl (fun y i => y.sendXfer_timeouts k o _ _ _ _ _) _ _)

theorem Mod.sumWhole_timeouts (s : Nat) (c : Contrib) : Mod.sameTimeouts m (m.sumWhole k o s c) := by
  unfold Mod.sumWhole
  extract_lets x ss m1 part p r
  have h1 : Mod.sameTimeouts m m1 := .of (m.setOp_sameBut k _) rfl
  clear_value m1
  have h2 : ∀ f, Mod.sameTimeouts m (m1.redFlags o.reducer f) := fun f => h1.trans (.of (m1.redFlags_sameBut _ f) rfl)
  split
  · refine (h2 _).trans (.foldl (fun y u => ?_) _ _)
    split
    · exact y.sendXfer_timeouts k o _ _ _ _ _
    · exact y.sendXfer_timeouts k o _ _ _ _ _
  · exact (h2 _).trans (.foldl (fun y u => y.setResult_timeouts k o u _) _ _)

theorem Mod.sumSlice_timeouts (s : Nat) : Mod.sameTimeouts m (m.sumSlice k o s) := by
  unfold Mod.sumSlice
  split
  · exact .refl m
  · extract_lets turns m1
    have h1 : Mod.sameTimeouts m m1 := .of (Mod.sumTurns_sameBut k o s _ m) rfl
    clear_value m1
    split
    · split
      · exact h1.trans (m1.sumWhole_timeouts k o s _)
      · exact h1
    · exact h1

theorem Mod.takeResult_timeouts (s : Nat) : Mod.sameTimeouts m (m.takeResult k o s) := by
  unfold Mod.takeResult
  split
  · exact .refl m
  · split
    · exact .refl m
    · split
      · exact .refl m
      · exact (Mod.sameTimeouts.of (m.dropXfer_sameBut _) rfl).trans (Mod.setResult_timeouts _ k o s _)

theorem Mod.opProgress_timeouts (ecc : Ecc) : Mod.sameTimeouts m (m.opProgress k o ecc) := by
  unfold Mod.opProgress
  split
  · exact .foldl (fun x s => x.sumSlice_timeouts k o s) _ m
  split
  · extract_lets m1 x
    have h : Mod.sameTimeouts m m1 := .foldl (fun x s => ((x.sumSlice_timeouts k o s).trans (Mod.takeResult_timeouts _ k o s)).trans
      (.of (Mod.deliverSlice_sameBut _ k o s ecc) rfl)) _ m
    split
    · exact h.trans (.of (m1.opDone_sameBut k o) rfl)
    · exact h.trans (.of (m1.setOp_sameBut k _) rfl)
  · exact .refl m

/-- Collective operations that go on time out no flow. -/
theorem Mod.collProgress_timeouts (ecc : Ecc) : Mod.sameTimeouts m (m.collProgress ecc) := by
  unfold Mod.collProgress
  split
  · exact (Mod.sameTimeouts.of m.refuseBad_sameBut rfl).trans (.foldl (fun x (e : Nat × CollOp) => x.opProgress_timeouts e.1 e.2 ecc) _ _)
  · exact .refl m

end

end Sys2Proof.Machine
end

section
/-! PROOF. The statement of end-to-end delivery and remote accesses (10_memory_tiers.md R249, 12_fabric_ports.md R333 to R337). -/

namespace Sys2Proof.Machine

/-! ### Acknowledgements -/

section
variable {s : State}

/-- A flow refilled sends at once what its room allows. -/
theorem TxFlow.refill_fst (w : TxFlow) : w.refill.1.timeouts = w.timeouts ∧ w.refill.1.unacked = w.unacked ++ w.waiting.take (flowWindow - w.unacked.length)
    ∧ w.refill.1.waiting = w.waiting.drop (flowWindow - w.unacked.length) := ⟨rfl, rfl, rfl⟩

/-- An acknowledgement of a flit not yet acknowledged. -/
theorem Mod.e2eAck_flow {m m1 : Mod} {f : TFlit} (hf : m.takeFlit (fun f => f.type == 6) = some (f, m1))
    (hg : ∃ g ∈ (kvGetD m.fab.tx (flowKey f.src (f.tag % 4)) .rest).unacked, g.seq = f.addr % 2 ^ 32) :
    kvGetD m.e2eAck.fab.tx (flowKey f.src (f.tag % 4)) .rest
      = (TxFlow.refill { kvGetD m.fab.tx (flowKey f.src (f.tag % 4)) .rest with
          unacked := ((kvGetD m.fab.tx (flowKey f.src (f.tag % 4)) .rest).unacked.dropWhile (fun g => g.seq != f.addr % 2 ^ 32)).drop 1, timeouts := 0 }).1
    ∧ m.e2eAck.stepOpen = m.stepOpen := by
  obtain ⟨hsends, -⟩ := Mod.takeFlit_sameSends hf
  have hs1 := (m.takeFlit_spec hf).1
  unfold Mod.e2eAck
  rw [hf]
  dsimp only
  rw [hsends.tx]
  generalize kvGetD m.fab.tx (flowKey f.src (f.tag % 4)) TxFlow.rest = w at hg ⊢
  obtain ⟨g, hmem, hseq⟩ := hg
  have hany : w.unacked.any (fun g => g.seq == f.addr % 2 ^ 32) = true := List.any_eq_true.2 ⟨g, hmem, beq_iff_eq.2 hseq⟩
  rw [if_pos hany]
  generalize TxFlow.refill { w with unacked := (w.unacked.dropWhile (fun g => g.seq != f.addr % 2 ^ 32)).drop 1, timeouts := 0 } = y
  obtain ⟨w1, out⟩ := y
  dsimp only
  have htx : (Mod.fab { m1 with fab := { m1.fab with tx := kvSet m.fab.tx (flowKey f.src (f.tag % 4)) w1, lostTo := setDel m1.fab.lostTo (flowKey f.src (f.tag % 4)) } }).tx
      = kvSet m.fab.tx (flowKey f.src (f.tag % 4)) w1 := rfl
  have hs2 := m1.sameBut_fab { m1.fab with tx := kvSet m.fab.tx (flowKey f.src (f.tag % 4)) w1, lostTo := setDel m1.fab.lostTo (flowKey f.src (f.tag % 4)) }
  generalize ({ m1 with fab := { m1.fab with tx := kvSet m.fab.tx (flowKey f.src (f.tag % 4)) w1, lostTo := setDel m1.fab.lostTo (flowKey f.src (f.tag % 4)) } } : Mod) = d
    at htx hs2 ⊢
  refine ⟨by rw [(d.foldl_launch_sameFlows out).toSameSends.tx, htx, kvGetD_kvSet_same], ?_⟩
  have hs3 : Mod.sameBut [.regs, .evIn, .fab] d (out.foldl Mod.launch d) := Mod.sameBut_foldl _ out d (fun x f => x.launch_sameBut f) (Mod.sameBut_refl _ d)
  rw [Mod.stepOpen, hs3.step (by decide), hs2.step (by decide), hs1.step (by decide), Mod.stepOpen]

/-- With no step open no collective operation goes on. -/
theorem Mod.collProgress_closed {m : Mod} (h : m.stepOpen = false) (ecc : Ecc) : m.collProgress ecc = m := by
  rw [Mod.collProgress, h]
  rfl

theorem execE2eAck_spec (hr : s.m.running = true) {f : TFlit} {m1 : Mod} (hf : s.m.takeFlit (fun f => f.type == 6) = some (f, m1))
    (hg : ∃ g ∈ (kvGetD s.m.fab.tx (flowKey f.src (f.tag % 4)) .rest).unacked, g.seq = f.addr % 2 ^ 32) :
    let k := flowKey f.src (f.tag % 4)
    let w := kvGetD s.m.fab.tx k .rest
    ∃ t, exec .e2eAck s = .next t ∧ (kvGetD t.m.fab.tx k .rest).timeouts = 0
      ∧ (s.m.stepOpen = false →
          let rest := (w.unacked.dropWhile (fun g => g.seq != f.addr % 2 ^ 32)).drop 1
          (kvGetD t.m.fab.tx k .rest).unacked = rest ++ w.waiting.take (flowWindow - rest.length)
            ∧ (kvGetD t.m.fab.tx k .rest).waiting = w.waiting.drop (flowWindow - rest.length)) := by
  intro k w
  obtain ⟨hflow, hstep⟩ := Mod.e2eAck_flow hf hg
  refine ⟨_, exec_unit_eq (n := s.m.e2eAck.collProgress noEcc) rfl hr rfl, ?_, fun hopen => ?_⟩
  · change (kvGetD (Mod.fab (Mod.collProgress _ _)).tx _ _).timeouts = 0
    rw [Mod.collProgress_timeouts, hflow]
    rfl
  · intro rest
    change (kvGetD (Mod.fab (Mod.collProgress _ _)).tx _ _).unacked = _ ∧ (kvGetD (Mod.fab (Mod.collProgress _ _)).tx _ _).waiting = _
    rw [Mod.collProgress_closed (hstep.trans hopen), hflow]
    exact ⟨rfl, rfl⟩

/-- An acknowledgement sent tells the cumulative point. -/
theorem Mod.sendAck_spec (m : Mod) (src cls : Nat) :
    kvGet? (m.sendAck src cls).fab.rx (flowKey src cls) = some { kvGetD m.fab.rx (flowKey src cls) .rest with since := 0, due := false }
    ∧ ∀ c p act, m.choose none src = some (c, p, act) →
        ∃ f : TFlit, ((m.sendAck src cls).port p).queue = (m.port p).queue ++ [f] ∧ f.type = 6 ∧ f.dest = src ∧ f.tag = cls
          ∧ f.addr = ((kvGetD m.fab.rx (flowKey src cls) .rest).cum + 2 ^ 32 - 1) % 2 ^ 32 := by
  unfold Mod.sendAck
  extract_lets k r f
  have hrx : (Mod.fab { m with fab := { m.fab with rx := kvSet m.fab.rx k { r with since := 0, due := false } } }).rx = kvSet m.fab.rx k { r with since := 0, due := false } := rfl
  have hmoved := Mod.flitsMoved.of_fab m { m.fab with rx := kvSet m.fab.rx k { r with since := 0, due := false } } rfl
  have hroutes : Mod.routes { m with fab := { m.fab with rx := kvSet m.fab.rx k { r with since := 0, due := false } } } = m.routes := rfl
  have hports : (Mod.fab { m with fab := { m.fab with rx := kvSet m.fab.rx k { r with since := 0, due := false } } }).ports = m.fab.ports := rfl
  have hv : Mod.variant { m with fab := { m.fab with rx := kvSet m.fab.rx k { r with since := 0, due := false } } } = m.variant := rfl
  generalize ({ m with fab := { m.fab with rx := kvSet m.fab.rx k { r with since := 0, due := false } } } : Mod) = d at hrx hmoved hroutes hports hv ⊢
  refine ⟨by rw [(d.place_sameFlows none f).rx, hrx, kvGet?_kvSet_same], fun c p act hc => ?_⟩
  have hd : d.choose none f.dest = some (c, p, act) := (Mod.choose_congr hroutes (fun q => by rw [Mod.port_of_ports hports hv]) none src).trans hc
  refine ⟨{ f with hops := f.hops - 1, vl := vlAfter act f.vl, via := none }, ?_, rfl, rfl, rfl, rfl⟩
  rw [Mod.place, hd]
  dsimp only
  rw [d.enqueue_port, if_pos rfl, Mod.port_of_ports hports hv]

theorem execE2eAckDue_spec (hr : s.m.running = true) (src cls : Nat) :
    let k := flowKey src cls
    let r := kvGetD s.m.fab.rx k .rest
    (r.due = true → ∃ t, exec (.e2eAckDue src cls) s = .next t ∧ kvGet? t.m.fab.rx k = some { r with since := 0, due := false }
      ∧ (∀ c p act, s.m.choose none src = some (c, p, act) →
          ∃ f, (t.m.port p).queue = (s.m.port p).queue ++ [f] ∧ f.type = 6 ∧ f.dest = src ∧ f.tag = cls ∧ f.addr = (r.cum + 2 ^ 32 - 1) % 2 ^ 32)) ∧
    (r.due = false → exec (.e2eAckDue src cls) s = .next s) := by
  intro k r
  obtain ⟨hrx, hq⟩ := s.m.sendAck_spec src cls
  exact ⟨fun hd => ⟨_, exec_unit_eq rfl hr (if_pos hd), hrx, hq⟩, fun hd => exec_unit_self rfl fun _ => (if_neg (by rw [hd]; decide))⟩

/-! ### Timeouts -/

/-- A remote read whose request is given up. -/
def RemRead.given (r : RemRead) : RemRead := { r with got := [(0, List.replicate r.len ((0xFF : Byte), true))], poisoned := true }

theorem RemRead.given_complete (r : RemRead) : r.given.complete = true := by
  simp [RemRead.given, RemRead.complete]

theorem FabUnit.readLost_eq (u : FabUnit) {f : TFlit} (ht : f.type = 2) : u.readLost f
    = match kvGet? u.reads f.tag with
      | some r => { u with reads := kvSet u.reads f.tag r.given }
      | none => u := if_neg (by rw [ht]; decide)

/-- A read is given up. -/
def FabUnit.readEnded (u : FabUnit) (tag : Nat) : Prop := ∃ q, kvGet? u.reads tag = some q ∧ q.poisoned = true ∧ q.complete = true

/-- A read that has ended stays so, and one that is there stays there. -/
theorem FabUnit.readLost_keeps (u : FabUnit) (f : TFlit) (tag : Nat) :
    (u.readEnded tag → (u.readLost f).readEnded tag) ∧ ((kvGet? u.reads tag).isSome = true → (kvGet? (u.readLost f).reads tag).isSome = true) := by
  by_cases ht : f.type = 2
  · rw [u.readLost_eq ht]
    cases hr : kvGet? u.reads f.tag with
    | none => exact ⟨id, id⟩
    | some r =>
      dsimp only
      rw [FabUnit.readEnded, FabUnit.readEnded]
      dsimp only
      by_cases h : tag = f.tag
      · rw [h, kvGet?_kvSet_same]
        exact ⟨fun _ => ⟨_, rfl, rfl, r.given_complete⟩, fun _ => rfl⟩
      · rw [kvGet?_kvSet_other _ _ h]
        exact ⟨id, id⟩
  · rw [FabUnit.readLost, if_pos ht]
    exact ⟨id, id⟩

theorem FabUnit.readLost_ends (u : FabUnit) {f : TFlit} (ht : f.type = 2) (hr : (kvGet? u.reads f.tag).isSome = true) : (u.readLost f).readEnded f.tag := by
  obtain ⟨r, hr⟩ := Option.isSome_iff_exists.1 hr
  rw [u.readLost_eq ht, hr]
  exact ⟨_, kvGet?_kvSet_same _ _ _, rfl, r.given_complete⟩

theorem FabUnit.foldl_readLost_keeps (fs : List TFlit) (u : FabUnit) {tag : Nat} (h : u.readEnded tag) : (fs.foldl FabUnit.readLost u).readEnded tag := by
  induction fs generalizing u with
  | nil => exact h
  | cons g gs ih => exact ih _ ((u.readLost_keeps g tag).1 h)

theorem FabUnit.foldl_readLost_ends (fs : List TFlit) (u : FabUnit) {f : TFlit} (hf : f ∈ fs) (ht : f.type = 2) (hr : (kvGet? u.reads f.tag).isSome = true) :
    (fs.foldl FabUnit.readLost u).readEnded f.tag := by
  induction fs generalizing u with
  | nil => cases hf
  | cons g gs ih =>
    rcases List.mem_cons.1 hf with rfl | hf
    · exact FabUnit.foldl_readLost_keeps gs _ (u.readLost_ends ht hr)
    · exact ih _ hf ((u.readLost_keeps g f.tag).2 hr)

/-- A flow given up. -/
theorem FabUnit.giveUp_spec (u : FabUnit) (k : Nat) (w : TxFlow) :
    kvGet? (u.giveUp k w).tx k = some { w with unacked := [], waiting := [], timeouts := 0 } ∧ k ∈ (u.giveUp k w).lostTo
    ∧ ∀ f ∈ w.unacked, f.type = 2 → (kvGet? u.reads f.tag).isSome = true → (u.giveUp k w).readEnded f.tag :=
  ⟨kvGet?_kvSet_same _ _ _, mem_setAdd_same _ _, fun _ hf ht hr => FabUnit.foldl_readLost_ends _ u (List.mem_append_left _ hf) ht hr⟩

theorem execE2eTimeout_spec (hr : s.m.running = true) (dest cls : Nat) :
    let k := flowKey dest cls
    let w := kvGetD s.m.fab.tx k .rest
    (w.unacked = [] → exec (.e2eTimeout dest cls) s = .next s) ∧
    (∀ g rest, w.unacked = g :: rest →
      (w.timeouts < 3 → ∃ t, exec (.e2eTimeout dest cls) s = .next t ∧ kvGet? t.m.fab.tx k
          = some { w with unacked := w.unacked.map (fun f => { f with retx := true }), timeouts := w.timeouts + 1 }) ∧
      (3 ≤ w.timeouts → ∃ t, exec (.e2eTimeout dest cls) s = .next t
          ∧ kvGet? t.m.fab.tx k = some { w with unacked := [], waiting := [], timeouts := 0 } ∧ k ∈ t.m.fab.lostTo
          ∧ (s.m.reportsCause t.m .contained 0x0B08 0 dest cls g.seq)
          ∧ (∀ f ∈ w.unacked, f.type = 2 → ∀ r, kvGet? s.m.fab.reads f.tag = some r →
              ∃ q, kvGet? t.m.fab.reads f.tag = some q ∧ q.poisoned = true ∧ q.complete = true))) := by
  intro k w
  refine ⟨fun hw => exec_unit_self rfl fun _ => ?_, fun g rest hw => ⟨fun ht => ?_, fun ht => ?_⟩⟩
  · change (match w.unacked with | [] => _ | _ :: _ => _) = _
    rw [hw]
  · refine ⟨_, exec_unit_eq (n := (w.unacked.map (fun f => { f with retx := true })).foldl Mod.launch { s.m with fab := { s.m.fab with
        tx := kvSet s.m.fab.tx k { w with unacked := w.unacked.map (fun f => { f with retx := true }), timeouts := w.timeouts + 1 } } }) rfl hr ?_, ?_⟩
    · change (match w.unacked with | [] => _ | _ :: _ => _) = _
      rw [hw]
      exact if_neg (Nat.not_le.2 ht)
    · change kvGet? (Mod.fab (List.foldl _ _ _)).tx k = _
      rw [(Mod.foldl_launch_sameFlows _ _).toSameSends.tx]
      exact kvGet?_kvSet_same _ _ _
  · obtain ⟨htx, hlost, hreads⟩ := s.m.fab.giveUp_spec k w
    have hm1 := s.m.sameBut_fab (s.m.fab.giveUp k w)
    have hfab : Mod.fab { s.m with fab := s.m.fab.giveUp k w } = s.m.fab.giveUp k w := rfl
    obtain ⟨m1, e⟩ : ∃ m1 : Mod, m1 = { s.m with fab := s.m.fab.giveUp k w } := ⟨_, rfl⟩
    rw [← e] at hm1 hfab
    have hm2 : Mod.sameBut [.fab, .regs] s.m (m1.fsat Fld.FAB_E2E_LOST_COUNT) :=
      Mod.sameBut_trans (Mod.sameBut_mono hm1 (by decide)) (Mod.sameBut_mono (m1.fsat_sameBut _ _ _ _) (by decide))
    have hfab2 : (m1.fsat Fld.FAB_E2E_LOST_COUNT).fab = s.m.fab.giveUp k w := ((m1.fsat_sameBut _ _ _ _).fab (by decide)).trans hfab
    refine ⟨_, exec_unit_eq (n := (m1.fsat Fld.FAB_E2E_LOST_COUNT).raiseDual true .contained 0x0B08 0 dest cls g.seq) rfl hr ?_, ?_⟩
    · change (match w.unacked with | [] => _ | _ :: _ => _) = _
      rw [hw, e]
      exact if_pos ht
    · generalize m1.fsat Fld.FAB_E2E_LOST_COUNT = m2 at hm2 hfab2
      have hfab3 : (m2.raiseDual true .contained 0x0B08 0 dest cls g.seq).fab = s.m.fab.giveUp k w := ((m2.raiseDual_sameBut _ _ _ _ _ _ _).fab (by decide)).trans hfab2
      have hrep := Mod.raiseDual_reportsCause (m := s.m) m2 (by rw [Mod.stepOpen, hm2.step (by decide), Mod.stepOpen]) .contained 0x0B08 0 dest cls g.seq
      generalize m2.raiseDual true .contained 0x0B08 0 dest cls g.seq = n at hfab3 hrep
      change kvGet? n.fab.tx k = _ ∧ k ∈ n.fab.lostTo ∧ _ ∧ ∀ f ∈ w.unacked, f.type = 2 → ∀ r, _ → ∃ q, kvGet? n.fab.reads f.tag = _ ∧ _
      rw [hfab3]
      exact ⟨htx, hlost, hrep, fun f hf h2 r hr => hreads f hf h2 (by rw [hr]; rfl)⟩

end

/-! ### Remote writes -/

section
variable {m n : Mod}

theorem Mod.alike.remoteWritable (h : Mod.alike m n) : n.remoteWritable = m.remoteWritable := funext fun a => by
  simp only [Mod.remoteWritable, h.region?]

theorem Mod.alike.remoteReadable (h : Mod.alike m n) : n.remoteReadable = m.remoteReadable := funext fun a => by
  simp only [Mod.remoteReadable, h.region?]

/-- `n` is `m` with sectors marked poisoned. -/
structure Mod.moreMarked (m n : Mod) : Prop where
  rest : Mod.sameBut [.mem] m n
  ports : n.mem.loftPorts = m.mem.loftPorts
  hbm : n.mem.hbm.cells = m.mem.hbm.cells
  loft : n.mem.loft.cells = m.mem.loft.cells
  poison : ∀ l, (m.byteAt l).2 = true → (n.byteAt l).2 = true

theorem Mod.moreMarked.refl (m : Mod) : Mod.moreMarked m m := ⟨Mod.sameBut_refl _ _, rfl, rfl, rfl, fun _ h => h⟩

theorem Mod.moreMarked.trans {l m n : Mod} (h1 : Mod.moreMarked l m) (h2 : Mod.moreMarked m n) : Mod.moreMarked l n :=
  ⟨Mod.sameBut_trans h1.rest h2.rest, h2.ports.trans h1.ports, h2.hbm.trans h1.hbm, h2.loft.trans h1.loft, fun k h => h2.poison k (h1.poison k h)⟩

theorem Mod.moreMarked.alike (h : Mod.moreMarked m n) : Mod.alike m n :=
  ⟨h.rest.plt (by decide), h.ports, fun g _ a b => h.rest.fget (by decide) g a b⟩

/-- A place of memory marked poisoned reads so. -/
theorem Mod.markLoc_poisoned (m : Mod) {l : Loc} (hl : l ≠ .reserved) : ((m.markLoc l).byteAt l).2 = true := by
  cases l with
  | reserved => exact (hl rfl).elim
  | loft k => exact m.loftPoison_marks k rfl
  | hbm k =>
    rw [Mod.byteAt, Mod.stackFailed, (m.markLoc_sameBut (.hbm k)).fget (by decide), ← Mod.stackFailed, Mod.markLoc]
    by_cases h : m.stackFailed k = true
    · rw [h, Bool.or_true]
    · rw [if_neg (show ¬m.discards (.hbm k) = true from h)]
      simp [Memory.mark]

theorem Mod.markLoc_moreMarked (m : Mod) (l : Loc) : Mod.moreMarked m (m.markLoc l) := by
  have hs := m.markLoc_sameBut l
  refine ⟨hs, ?_, ?_, ?_, ?_⟩
  · unfold Mod.markLoc
    split
    · rfl
    · split <;> rfl
  · unfold Mod.markLoc
    split
    · rfl
    · split <;> rfl
  · unfold Mod.markLoc
    split
    · rfl
    · split <;> rfl
  · intro j hj
    have hstack : (m.markLoc l).stackFailed = m.stackFailed := funext fun k => by rw [Mod.stackFailed, hs.fget (by decide), Mod.stackFailed]
    have hmem : ((m.markLoc l).mem.hbm.poison = m.mem.hbm.poison ∨ ∃ u, (m.markLoc l).mem.hbm.poison = setAdd m.mem.hbm.poison u)
        ∧ ((m.markLoc l).mem.loft.poison = m.mem.loft.poison ∨ ∃ u, (m.markLoc l).mem.loft.poison = setAdd m.mem.loft.poison u)
        ∧ (m.markLoc l).mem.loftPorts = m.mem.loftPorts := by
      unfold Mod.markLoc
      split
      · exact ⟨.inl rfl, .inl rfl, rfl⟩
      · split
        · exact ⟨.inr ⟨_, rfl⟩, .inl rfl, rfl⟩
        · exact ⟨.inl rfl, .inr ⟨_, rfl⟩, rfl⟩
        · exact ⟨.inl rfl, .inl rfl, rfl⟩
    obtain ⟨hh, hf, hp⟩ := hmem
    have hbad : (m.markLoc l).loftBad = m.loftBad := funext fun c => by rw [Mod.loftBad, hs.fget (by decide), hp, Mod.loftBad]
    have hgrow : ∀ {p q : NatSet} {u : Nat}, (q = p ∨ ∃ v, q = setAdd p v) → p.contains u = true → q.contains u = true := fun hq hu => by
      rcases hq with rfl | ⟨v, rfl⟩
      · exact hu
      · exact List.contains_iff_mem.2 ((mem_setAdd _ _ _).2 (.inr (List.contains_iff_mem.1 hu)))
    cases j with
    | reserved => cases hj
    | hbm k =>
      rw [Mod.byteAt, Bool.or_eq_true] at hj ⊢
      rw [hstack]
      exact hj.imp (hgrow hh) id
    | loft k =>
      rw [Mod.byteAt, Bool.or_eq_true] at hj ⊢
      rw [hbad]
      exact hj.imp (hgrow hf) id

/-- Three sectors marked. -/
theorem Mod.foldl_devMark_spec (a : Nat) (ds : List Nat) (m : Mod) : Mod.moreMarked m (ds.foldl (fun x d => x.devMark (a + d)) m)
    ∧ ∀ d ∈ ds, m.locate (a + d) ≠ .reserved →
      ((ds.foldl (fun x d => x.devMark (a + d)) m).byteAt ((ds.foldl (fun x d => x.devMark (a + d)) m).locate (a + d))).2 = true := by
  induction ds generalizing m with
  | nil => exact ⟨.refl m, fun d hd => nomatch hd⟩
  | cons e ds ih =>
    obtain ⟨hm, hp⟩ := ih (m.devMark (a + e))
    have h1 : Mod.moreMarked m (m.devMark (a + e)) := m.markLoc_moreMarked _
    refine ⟨h1.trans hm, fun d hd hl => ?_⟩
    rw [List.foldl_cons]
    rcases List.mem_cons.1 hd with rfl | hd
    · rw [(h1.trans hm).alike.locate]
      exact hm.poison _ (m.markLoc_poisoned hl)
    · exact hp d hd (by rw [h1.alike.locate]; exact hl)

end

section
variable {s : State}

theorem execRemoteWrite_spec (hr : s.m.running = true) {f : TFlit} {m1 : Mod} (hf : s.m.takeFlit (fun f => f.type == 1) = some (f, m1)) :
    let data := f.payload.take f.len
    let allowed := (accessPoints f.addr f.len).all s.m.remoteWritable
    (allowed = true → (s.m.heldPort f.addr f.len).isSome = true → exec (.remoteWrite noEcc) s = .next s) ∧
    (allowed = false →
      ∃ t, exec (.remoteWrite noEcc) s = .next t ∧ t.m.mem = s.m.mem ∧ t.m.reports .contained 0x0904 f.src (lo32 f.addr) (hi32 f.addr) 1) ∧
    (allowed = true → s.m.heldPort f.addr f.len = none → f.poison = true →
      ∃ t, exec (.remoteWrite noEcc) s = .next t ∧ t.m.mem.hbm.cells = s.m.mem.hbm.cells ∧ t.m.mem.loft.cells = s.m.mem.loft.cells
        ∧ ∀ d, d = 0 ∨ d = 64 ∨ d = 128 → s.m.locate (f.addr + d) ≠ .reserved → (t.m.byteAt (t.m.locate (f.addr + d))).2 = true) ∧
    (allowed = true → s.m.heldPort f.addr f.len = none → f.poison = false →
      ∃ t, exec (.remoteWrite noEcc) s = .next t ∧ t.m.mem = ((m1.yard .fabric f.addr data.length true).devWrite f.addr data).mem) := by
  intro data allowed
  have hq := Mod.takeFlit_quiet hf
  have hall : (accessPoints f.addr f.len).all m1.remoteWritable = allowed := by rw [hq.alike.remoteWritable]
  have hheld : m1.heldPort f.addr f.len = s.m.heldPort f.addr f.len := hq.alike.heldPort _ _
  have key : ∀ {n : Mod}, (if !(accessPoints f.addr f.len).all m1.remoteWritable then m1.remoteRefused f.src f.addr true
      else if (m1.heldPort f.addr f.len).isSome then s.m
      else if f.poison then [0, 64, 128].foldl (fun x d => x.devMark (f.addr + d)) m1
      else ((m1.yard .fabric f.addr data.length true).mergeDev false f.addr data.length noEcc).devWrite f.addr data) = n →
      exec (.remoteWrite noEcc) s = .next { s with m := n } := fun h => exec_unit_eq rfl hr (by rw [hf]; exact h)
  rw [hall, hheld] at key
  refine ⟨fun ha hh => ?_, fun ha => ⟨_, key (if_pos (by rw [ha]; rfl)), ?_, ?_⟩, fun ha hh hp => ?_, fun ha hh hp => ?_⟩
  · exact key ((if_neg (by rw [ha]; decide)).trans (if_pos hh))
  · exact ((m1.remoteRefused_sameBut _ _ _).mem (by decide)).trans hq.mem
  · exact Mod.raise_reports _ _ _ _ _ _ _
  · obtain ⟨hm, hmark⟩ := Mod.foldl_devMark_spec f.addr [0, 64, 128] m1
    refine ⟨_, key ((if_neg (by rw [ha]; decide)).trans ((if_neg (by rw [hh]; decide)).trans (if_pos hp))), ?_, ?_, fun d hd hl => ?_⟩
    · exact hm.hbm.trans (by rw [hq.mem])
    · exact hm.loft.trans (by rw [hq.mem])
    · exact hmark d (by simpa using hd) (by rw [hq.alike.locate]; exact hl)
  · exact ⟨_, key ((if_neg (by rw [ha]; decide)).trans ((if_neg (by rw [hh]; decide)).trans (if_neg (by rw [hp]; decide)))), by rw [Mod.mergeDev, Mod.eccDev_noEcc]⟩

end

/-! ### Remote reads -/

/-- `n` has the stored bytes of `m`. -/
structure Mod.cellsKept (m n : Mod) : Prop where
  hbm : n.mem.hbm.cells = m.mem.hbm.cells
  loft : n.mem.loft = m.mem.loft
  sram : n.mem.sram = m.mem.sram

theorem Mod.cellsKept.of_mem {m n : Mod} (h : n.mem = m.mem) : Mod.cellsKept m n := ⟨by rw [h], by rw [h], by rw [h]⟩

theorem Mod.cellsKept.trans {l m n : Mod} (h1 : Mod.cellsKept l m) (h2 : Mod.cellsKept m n) : Mod.cellsKept l n :=
  ⟨h2.hbm.trans h1.hbm, h2.loft.trans h1.loft, h2.sram.trans h1.sram⟩

theorem Mod.cellsKept.foldl {β : Type} {f : Mod → β → Mod} (hf : ∀ x y, Mod.cellsKept x (f x y)) (xs : List β) (m : Mod) : Mod.cellsKept m (xs.foldl f m) := by
  induction xs generalizing m with
  | nil => exact .of_mem rfl
  | cons x xs ih => exact (hf m x).trans (ih _)

theorem Mod.foundUe_cellsKept (m : Mod) (b : Bool) (k : Nat) : Mod.cellsKept m (m.foundUe b k) := by
  unfold Mod.foundUe
  extract_lets st l m1 m2
  split
  · exact .of_mem rfl
  · have hmark : Mod.cellsKept m (m.markLoc (.hbm k)) := by
      unfold Mod.markLoc
      split
      · exact .of_mem rfl
      · exact ⟨rfl, rfl, rfl⟩
    exact hmark.trans (.of_mem (((m2.raiseDual_sameBut _ _ _ _ _ _ _).mem (by decide)).trans
      (((m1.set64_sameBut _ _ _ _).mem (by decide)).trans ((Mod.fsat_sameBut _ _ _ _ _).mem (by decide)))))

/-- A read finds errors and changes no byte. -/
theorem Mod.readDev_cellsKept (m : Mod) (b : Bool) (ranges : List (Nat × Nat)) (ecc : Ecc) : Mod.cellsKept m (m.readDev b ranges ecc) := by
  have hecc : Mod.cellsKept m (m.eccDev b ranges ecc) := by
    unfold Mod.eccDev
    extract_lets hit m1
    refine Mod.cellsKept.trans (m := m1) (.foldl (fun x a => ?_) _ m) (.foldl (fun x a => ?_) _ m1)
    · split
      · exact .of_mem (Mod.foundCe_mem _ _)
      · exact .of_mem rfl
    · split
      · exact x.foundUe_cellsKept b _
      · exact .of_mem rfl
  exact hecc.trans (.of_mem ((Mod.loftMet_sameBut _ _ _).mem (by decide)))

/-- The flits of a response are those of its flow, one for each 192 bytes. -/
theorem respFlits_spec (req : TFlit) (data : List (Byte × Bool)) (k off : Nat) (hk : data.length ≤ off + 192 * k) :
    (respFlits req data k off).length = (data.length - off + 191) / 192 ∧ ∀ f ∈ respFlits req data k off, flowKey f.dest f.cls = flowKey req.src req.cls := by
  induction k generalizing off with
  | zero =>
    refine ⟨?_, fun f hf => nomatch hf⟩
    rw [respFlits, List.length_nil]
    omega
  | succ k ih =>
    rw [respFlits]
    split
    · refine ⟨?_, fun f hf => nomatch hf⟩
      rw [List.length_nil]
      omega
    · obtain ⟨hlen, hflow⟩ := ih (off + 192) (by omega)
      refine ⟨?_, fun f hf => ?_⟩
      · rw [List.length_cons, hlen]
        omega
      · rcases List.mem_cons.1 hf with rfl | hf
        · rfl
        · exact hflow f hf

theorem Mod.devRead_length (m : Mod) (a n : Nat) : (m.devRead a n).length = n := by
  induction n generalizing a with
  | zero => rfl
  | succ n ih => rw [Mod.devRead, List.length_cons, ih]

section
variable {s : State}

/-- A response to a remote read, sent from a state with the flows and bytes of `m`. -/
theorem Mod.respond_spec {m m2 : Mod} (htx : m2.fab.tx = m.fab.tx) (hc : Mod.cellsKept m m2) (req : TFlit) {data : List (Byte × Bool)} {n : Nat} (hd : data.length = n) :
    let t := m2.originateAll (respFlits req data (n / 192 + 1) 0)
    t.mem.hbm.cells = m.mem.hbm.cells ∧ t.mem.loft = m.mem.loft ∧ t.mem.sram = m.mem.sram
      ∧ (kvGetD t.fab.tx (flowKey req.src req.cls) .rest).next = (kvGetD m.fab.tx (flowKey req.src req.cls) .rest).next + (n + 191) / 192 := by
  intro t
  obtain ⟨hlen, hflow⟩ := respFlits_spec req data (n / 192 + 1) 0 (by omega)
  have hmem : t.mem = m2.mem := (m2.originateAll_moved _).rest.mem (by decide)
  refine ⟨by rw [hmem, hc.hbm], by rw [hmem, hc.loft], by rw [hmem, hc.sram], ?_⟩
  rw [m2.originateAll_next _ hflow, hlen, htx, hd, Nat.sub_zero]

theorem execReadReq_spec (hr : s.m.running = true) {f : TFlit} {m1 : Mod} (ecc : Ecc) (hf : s.m.takeFlit (fun f => f.type == 2) = some (f, m1)) :
    let n := leNat (f.payload.take 4)
    let allowed := (accessPoints f.addr n).all s.m.remoteReadable
    (allowed = true → (s.m.heldPort f.addr n).isSome = true → exec (.readReq ecc) s = .next s) ∧
    (allowed = false ∨ s.m.heldPort f.addr n = none →
      ∃ t, exec (.readReq ecc) s = .next t ∧ t.m.mem.hbm.cells = s.m.mem.hbm.cells ∧ t.m.mem.loft = s.m.mem.loft
        ∧ t.m.mem.sram = s.m.mem.sram
        ∧ (kvGetD t.m.fab.tx (flowKey f.src f.cls) .rest).next = (kvGetD s.m.fab.tx (flowKey f.src f.cls) .rest).next + (n + 191) / 192
        ∧ (allowed = false → t.m.reports .contained 0x0904 f.src (lo32 f.addr) (hi32 f.addr) 0)) := by
  intro n allowed
  have hq := Mod.takeFlit_quiet hf
  have hall : (accessPoints f.addr n).all m1.remoteReadable = allowed := by rw [hq.alike.remoteReadable]
  have hheld : m1.heldPort f.addr n = s.m.heldPort f.addr n := hq.alike.heldPort _ _
  have htx := (Mod.takeFlit_sameSends hf).1.tx
  obtain ⟨m2, e2⟩ : ∃ m2 : Mod, m2 = (m1.yard .fabric f.addr n false).readDev false [(f.addr, n)] ecc := ⟨_, rfl⟩
  obtain ⟨m3, e3⟩ : ∃ m3 : Mod, m3 = m1.remoteRefused f.src f.addr false := ⟨_, rfl⟩
  have key : ∀ {x : Mod}, (if (accessPoints f.addr n).all m1.remoteReadable then
        if (m1.heldPort f.addr n).isSome then s.m
        else m2.originateAll (respFlits f (m2.devRead f.addr n) (n / 192 + 1) 0)
      else m3.originateAll (respFlits f (List.replicate n ((0xFF : Byte), true)) (n / 192 + 1) 0)) = x →
      exec (.readReq ecc) s = .next { s with m := x } := fun h => exec_unit_eq rfl hr (by rw [hf]; subst e2 e3; exact h)
  rw [hall, hheld] at key
  refine ⟨fun ha hh => key ((if_pos ha).trans (if_pos hh)), fun h => ?_⟩
  by_cases ha : allowed = true
  · have hh : s.m.heldPort f.addr n = none := h.resolve_left (by rw [ha]; decide)
    have hs2 := (m1.yard .fabric f.addr n false).readDev_sameBut false [(f.addr, n)] ecc
    have hc2 := (m1.yard .fabric f.addr n false).readDev_cellsKept false [(f.addr, n)] ecc
    rw [← e2] at hs2 hc2
    have hy := m1.yard_sameBut .fabric f.addr n false
    have hc : Mod.cellsKept s.m m2 := (Mod.cellsKept.of_mem ((hy.mem (by decide)).trans hq.mem)).trans hc2
    obtain ⟨h1, h2, h3, h4⟩ := Mod.respond_spec (by rw [hs2.fab (by decide), hy.fab (by decide), htx]) hc f (m2.devRead_length f.addr n)
    exact ⟨_, key ((if_pos ha).trans (if_neg (by rw [hh]; decide))), h1, h2, h3, h4, fun h => Bool.noConfusion (ha.symm.trans h)⟩
  · have hs3 := m1.remoteRefused_sameBut f.src f.addr false
    have hrep : m3.reports .contained 0x0904 f.src (lo32 f.addr) (hi32 f.addr) 0 := e3 ▸ Mod.raise_reports _ _ _ _ _ _ _
    rw [← e3] at hs3
    obtain ⟨h1, h2, h3, h4⟩ := Mod.respond_spec (by rw [hs3.fab (by decide), htx]) (.of_mem ((hs3.mem (by decide)).trans hq.mem)) f
      (List.length_replicate (n := n) (a := ((0xFF : Byte), true)))
    exact ⟨_, key (if_neg ha), h1, h2, h3, h4, fun _ => (m3.originateAll_moved _).reports hrep⟩

theorem execReadResp_spec (hr : s.m.running = true) {f : TFlit} {m1 : Mod} (hf : s.m.takeFlit (fun f => f.type == 3) = some (f, m1)) :
    (∀ r, kvGet? s.m.fab.reads f.tag = some r →
      (r.complete = false →
        ∃ t, exec .readResp s = .next t ∧ kvGet? t.m.fab.reads f.tag
            = some { r with got := kvSet r.got f.addr ((f.payload.take f.len).map (fun b => (b, f.poison))), poisoned := r.poisoned || f.poison }
          ∧ State.sameBut [.regs, .evIn, .fab] s t) ∧
      (r.complete = true → exec .readResp s = .next { s with m := m1 })) ∧
    (kvGet? s.m.fab.reads f.tag = none → exec .readResp s = .next { s with m := m1 }) := by
  have hreads := (Mod.takeFlit_sameSends hf).1.reads
  have hs1 := (s.m.takeFlit_spec hf).1
  refine ⟨fun r hget => ⟨fun hc => ?_, fun hc => ?_⟩, fun hget => ?_⟩
  · refine ⟨_, exec_unit_eq (n := { m1 with fab := { m1.fab with
        reads := kvSet m1.fab.reads f.tag { r with got := kvSet r.got f.addr ((f.payload.take f.len).map (fun b => (b, f.poison))), poisoned := r.poisoned || f.poison } } }) rfl hr ?_,
      kvGet?_kvSet_same _ _ _, rfl, rfl, Mod.sameBut_trans hs1 (Mod.sameBut_mono (m1.sameBut_fab _) (by decide))⟩
    rw [hf]
    dsimp only
    rw [hreads, hget]
    exact if_neg (by rw [hc]; decide)
  · refine exec_unit_eq rfl hr ?_
    rw [hf]
    dsimp only
    rw [hreads, hget]
    exact if_pos hc
  · refine exec_unit_eq rfl hr ?_
    rw [hf]
    dsimp only
    rw [hreads, hget]

end

/-- Settles O48: end-to-end delivery and remote accesses. -/
theorem endToEnd : Obligations.EndToEnd := by
  unfold Obligations.EndToEnd
  exact fun s hr => ⟨fun _ _ hf => execE2eAck_spec hr hf, execE2eAckDue_spec hr, execE2eTimeout_spec hr, fun _ _ hf => execRemoteWrite_spec hr hf,
    fun _ _ ecc hf => execReadReq_spec hr ecc hf, fun _ _ hf => execReadResp_spec hr hf⟩

end Sys2Proof.Machine
end

section
/-! PROOF. What stream engines leave alone as they move bytes (11_streams.md R280 to R291): tiles in flight, windows, signals and records. -/

namespace Sys2Proof.Machine

/-! ### Records that stay -/

/-- What `m` reports, and a cause of FAULT, stand in `n`. -/
structure Mod.recordsKept (m n : Mod) : Prop where
  tick : n.tick = m.tick
  events : ∀ r ∈ m.evIn, r ∈ n.evIn
  cause : m.step.cause.isSome = true → n.step.cause.isSome = true

theorem Mod.recordsKept.trans {l m n : Mod} (h1 : Mod.recordsKept l m) (h2 : Mod.recordsKept m n) : Mod.recordsKept l n :=
  ⟨h2.tick.trans h1.tick, fun r hr => h2.events r (h1.events r hr), fun h => h2.cause (h1.cause h)⟩

theorem Mod.recordsKept.refl (m : Mod) : Mod.recordsKept m m := ⟨rfl, fun _ h => h, id⟩

theorem Mod.recordsKept.of {ps : List Part} {m n : Mod} (h : Mod.sameBut ps m n)
    (hp : (ps.contains .evIn || ps.contains .step || ps.contains .tick) = false) : Mod.recordsKept m n := by
  simp only [Bool.or_eq_false_iff, List.contains_eq_mem, decide_eq_false_iff_not] at hp
  obtain ⟨⟨hev, hstep⟩, htick⟩ := hp
  exact ⟨h.tick htick, fun r hr => by rw [h.evIn hev]; exact hr, fun hc => by rw [h.step hstep]; exact hc⟩

theorem Mod.recordsKept.foldl {β : Type} {f : Mod → β → Mod} (hf : ∀ x y, Mod.recordsKept x (f x y)) (xs : List β) (m : Mod) :
    Mod.recordsKept m (xs.foldl f m) := by
  induction xs generalizing m with
  | nil => exact .refl m
  | cons x xs ih => exact (hf m x).trans (ih _)

theorem Mod.recordsKept.reports {m n : Mod} (h : Mod.recordsKept m n) {k : EvClass} {code source d0 d1 d2 : Nat} (hr : m.reports k code source d0 d1 d2) :
    n.reports k code source d0 d1 d2 := by
  rw [Mod.reports, h.tick]
  exact h.events _ hr

theorem Mod.recordsKept.reportsCause {l m n : Mod} (h : Mod.recordsKept m n) {k : EvClass} {code source d0 d1 d2 : Nat}
    (hr : l.reportsCause m k code source d0 d1 d2) : l.reportsCause n k code source d0 d1 d2 := by
  unfold Mod.reportsCause at hr ⊢
  split
  · next ho =>
    rw [if_pos ho] at hr
    exact ⟨h.reports hr.1, h.cause hr.2⟩
  · next ho =>
    rw [if_neg ho] at hr
    exact h.reports hr

section
variable (m : Mod)

theorem Mod.raise_recordsKept (k : EvClass) (code source d0 d1 d2 : Nat) : Mod.recordsKept m (m.raise k code source d0 d1 d2) :=
  ⟨rfl, m.mem_raise_evIn k code source d0 d1 d2, id⟩

theorem Mod.fault_recordsKept (code : Nat) : Mod.recordsKept m (m.fault code) :=
  ⟨rfl, fun _ h => h, fun h => by
    rw [Mod.fault_step_cause]
    obtain ⟨x, hx⟩ := Option.isSome_iff_exists.1 h
    rw [hx]
    rfl⟩

theorem Mod.raiseDual_recordsKept (b : Bool) (k : EvClass) (code source d0 d1 d2 : Nat) : Mod.recordsKept m (m.raiseDual b k code source d0 d1 d2) := by
  unfold Mod.raiseDual
  split
  · exact (m.raise_recordsKept _ _ _ _ _ _).trans (Mod.fault_recordsKept _ _)
  · exact m.raise_recordsKept _ _ _ _ _ _

theorem Mod.watchHit_recordsKept (w a : Nat) (write : Bool) (src : Nat) : Mod.recordsKept m (m.watchHit w a write src) := by
  unfold Mod.watchHit
  extract_lets typ act m1 _ m2 m3
  have h1 : Mod.recordsKept m m1 := (Mod.recordsKept.of (m.fsat_sameBut _ _ _ _) rfl).trans (.of (Mod.trace_sameBut _ _ _ _ _ _ _) rfl)
  have h2 : Mod.recordsKept m1 m2 := by
    change Mod.recordsKept m1 (if _ then _ else _)
    split
    · have hd : Mod.recordsKept m1 { m1 with dbg := { m1.dbg with watchRaised := setAdd m1.dbg.watchRaised w } } := .of (m1.sameBut_dbg _) rfl
      exact hd.trans (Mod.raise_recordsKept _ _ _ _ _ _ _)
    · exact .refl m1
  have h3 : Mod.recordsKept m2 m3 := by
    change Mod.recordsKept m2 (if _ then _ else _)
    split
    · exact .of (m2.haltDevice_sameBut _) rfl
    · exact .refl m2
  clear_value m1 m2 m3
  split
  · exact ((h1.trans h2).trans h3).trans (.of m3.traceTrigger_sameBut rfl)
  · exact (h1.trans h2).trans h3

theorem Mod.yard_recordsKept (src : YardSrc) (a n : Nat) (write : Bool) : Mod.recordsKept m (m.yard src a n write) :=
  .foldl (fun x w => by
    split
    · exact x.watchHit_recordsKept _ _ _ _
    · exact .refl x) _ m

theorem Mod.eccDev_recordsKept (b : Bool) (ranges : List (Nat × Nat)) (ecc : Ecc) : Mod.recordsKept m (m.eccDev b ranges ecc) := by
  unfold Mod.eccDev
  extract_lets hit m1
  refine Mod.recordsKept.trans (m := m1) (.foldl (fun x a => ?_) _ m) (.foldl (fun x a => ?_) _ m1)
  · split
    · unfold Mod.foundCe
      extract_lets st l
      split
      · exact .refl x
      · exact (Mod.recordsKept.of (x.fsat_sameBut _ _ _ _) rfl).trans (Mod.raise_recordsKept _ _ _ _ _ _ _)
    · exact .refl x
  · split
    · unfold Mod.foundUe
      extract_lets st l m2 m3
      split
      · exact .refl x
      · have h : Mod.recordsKept x m3 := ((Mod.recordsKept.of (x.markLoc_sameBut _) rfl).trans (.of (Mod.fsat_sameBut _ _ _ _ _) rfl)).trans
          (.of (m2.set64_sameBut _ _ _ _) rfl)
        exact h.trans (m3.raiseDual_recordsKept _ _ _ _ _ _ _)
    · exact .refl x

/-- Bytes of a tile stored. -/
theorem Mod.tilePut_recordsKept (d : StreamDesc) (a : Nat) (data : List (Byte × Bool)) (ecc : Ecc) : Mod.recordsKept m (m.tilePut d a data ecc) :=
  (((m.yard_recordsKept .stream a data.length true).trans (Mod.eccDev_recordsKept _ _ _ _)).trans (.of (Mod.devWriteP_sameBut _ _ _) rfl)).trans
    (.of (Mod.snoop_sameBut _ _ _) rfl)

end

/-! ### Contexts and windows -/

section
variable (m : Mod)

theorem Mod.ctx_setCtx_same (i : Nat) (x : CtxRun) : (m.setCtx i x).ctx i = x := by
  simp only [Mod.ctx, Mod.setCtx, kvGetD_kvSet_same]

theorem Mod.ctx_setCtx_other {i j : Nat} (x : CtxRun) (h : j ≠ i) : (m.setCtx i x).ctx j = m.ctx j := by
  simp only [Mod.ctx, Mod.setCtx]
  by_cases he : j / 16 = i / 16
  · rw [he, kvGetD_kvSet_same, kvGetD_kvSet_other _ _ _ (by omega)]
  · rw [kvGetD_kvSet_other _ _ _ he]

theorem Mod.win_setWin_same (w : Nat) {x : Win} (h : x.st ≠ .empty) : (m.setWin w x).win w = x := by
  simp only [Mod.win, Mod.setWin, if_neg h, kvGetD_kvSet_same]

/-- A context's tiles in flight, by tile and step. -/
def Mod.flightIds (m : Mod) (i : Nat) : List (Nat × Nat) := (m.ctx i).flight.map (fun x => (x.tile, x.step))

/-- `n` has the windows and the tiles in flight of `m`. -/
structure Mod.tilesKept (m n : Mod) : Prop where
  wins : n.stm.wins = m.stm.wins
  flights : ∀ i, n.flightIds i = m.flightIds i

theorem Mod.tilesKept.refl (m : Mod) : Mod.tilesKept m m := ⟨rfl, fun _ => rfl⟩

variable {m} in
theorem Mod.tilesKept.trans {l n : Mod} (h1 : Mod.tilesKept l m) (h2 : Mod.tilesKept m n) : Mod.tilesKept l n :=
  ⟨h2.wins.trans h1.wins, fun i => (h2.flights i).trans (h1.flights i)⟩

variable {m} in
theorem Mod.tilesKept.of_stm {n : Mod} (h : n.stm = m.stm) : Mod.tilesKept m n := ⟨by rw [h], fun i => by simp only [Mod.flightIds, Mod.ctx, h]⟩

variable {m} in
theorem Mod.tilesKept.of {ps : List Part} {n : Mod} (h : Mod.sameBut ps m n) (hp : ps.contains .stm = false) : Mod.tilesKept m n :=
  .of_stm (h.stm (by simpa using hp))

theorem Mod.tilesKept.foldl {β : Type} {f : Mod → β → Mod} (hf : ∀ x y, Mod.tilesKept x (f x y)) (xs : List β) (m : Mod) :
    Mod.tilesKept m (xs.foldl f m) := by
  induction xs generalizing m with
  | nil => exact .refl m
  | cons x xs ih => exact (hf m x).trans (ih _)

/-- A context that changes in all but its tiles in flight. -/
theorem Mod.setCtx_tilesKept (i : Nat) (x : CtxRun) (h : x.flight.map (fun r => (r.tile, r.step)) = m.flightIds i) : Mod.tilesKept m (m.setCtx i x) :=
  ⟨rfl, fun j => by
    by_cases hj : j = i
    · rw [hj, Mod.flightIds, Mod.ctx_setCtx_same, h]
    · rw [Mod.flightIds, Mod.ctx_setCtx_other m x hj, Mod.flightIds]⟩

theorem Mod.stage_tilesKept (e : Nat) (js : List EtchJob) : Mod.tilesKept m (m.stage e js) :=
  ⟨rfl, fun i => by
    simp only [Mod.flightIds, Mod.ctx, Mod.stage, Mod.setEngine, Mod.engine]
    by_cases h : i / 16 = e
    · rw [h, kvGetD_kvSet_same]
    · rw [kvGetD_kvSet_other _ _ _ h]⟩

/-- Contexts that turn to the next step keep their tiles in flight. -/
theorem Mod.gates_flight (i : Nat) : (m.gates.ctx i).flight = (m.ctx i).flight ∧ m.gates.stm.wins = m.stm.wins := by
  suffices h : ∀ (ds : List StreamDesc) (x : Mod), ((ds.foldl Mod.gateOne x).ctx i).flight = (x.ctx i).flight ∧ (ds.foldl Mod.gateOne x).stm.wins = x.stm.wins from h _ m
  intro ds
  induction ds with
  | nil => exact fun _ => ⟨rfl, rfl⟩
  | cons d ds ih =>
    intro x
    obtain ⟨hf, hw⟩ := ih (x.gateOne d)
    have hone : ((x.gateOne d).ctx i).flight = (x.ctx i).flight ∧ (x.gateOne d).stm.wins = x.stm.wins := by
      unfold Mod.gateOne
      extract_lets c free
      split
      · refine ⟨?_, rfl⟩
        by_cases hi : i = d.id
        · rw [hi, Mod.ctx_setCtx_same]
        · rw [Mod.ctx_setCtx_other x _ hi]
      · exact ⟨rfl, rfl⟩
    exact ⟨hf.trans hone.1, hw.trans hone.2⟩

/-! ### Engines that fetch -/

/-- A tile asked for stays the tile it is. -/
theorem Mod.fetchAsk_id (d : StreamDesc) (r : TileRun) (module : Nat) (rs : List (Nat × Nat)) :
    (m.fetchAsk d r module rs).2.tile = r.tile ∧ (m.fetchAsk d r module rs).2.step = r.step := by
  unfold Mod.fetchAsk
  split
  · generalize rs.map sectorRange = qs
    suffices h : ∀ (z : Mod × TileRun), (qs.foldl (fun (z : Mod × TileRun) q =>
        let y := z.1.askRemote module q.1 (q.2 / 65536 + 1) q.2
        (y.1, { z.2 with tags := z.2.tags ++ y.2 })) z).2.tile = z.2.tile ∧ (qs.foldl (fun (z : Mod × TileRun) q =>
        let y := z.1.askRemote module q.1 (q.2 / 65536 + 1) q.2
        (y.1, { z.2 with tags := z.2.tags ++ y.2 })) z).2.step = z.2.step from h (m, r)
    induction qs with
    | nil => exact fun _ => ⟨rfl, rfl⟩
    | cons q qs ih => exact fun z => ih _
  · exact ⟨rfl, rfl⟩

theorem Mod.etchFetch_spec (d : StreamDesc) (ecc : Ecc) (k : Nat) (m : Mod) (r : TileRun) :
    Mod.tilesKept m (Mod.etchFetch d ecc k m r).1 ∧ (Mod.etchFetch d ecc k m r).2.tile = r.tile ∧ (Mod.etchFetch d ecc k m r).2.step = r.step := by
  induction k generalizing m r with
  | zero => exact ⟨.refl m, rfl, rfl⟩
  | succ k ih =>
    have hgo : ∀ (n : Mod) (q : TileRun), Mod.tilesKept m n → q.tile = r.tile → q.step = r.step →
        Mod.tilesKept m (Mod.etchFetch d ecc k n q).1 ∧ (Mod.etchFetch d ecc k n q).2.tile = r.tile ∧ (Mod.etchFetch d ecc k n q).2.step = r.step := fun n q hn ht hs => by
      obtain ⟨h1, h2, h3⟩ := ih n q
      exact ⟨hn.trans h1, h2.trans ht, h3.trans hs⟩
    have hask : ∀ (n : Mod) (q : TileRun) (module : Nat) (rs : List (Nat × Nat)), Mod.tilesKept m n → q.tile = r.tile → q.step = r.step →
        Mod.tilesKept m (n.fetchAsk d q module rs).1 ∧ (n.fetchAsk d q module rs).2.tile = r.tile ∧ (n.fetchAsk d q module rs).2.step = r.step :=
      fun n q module rs hn ht hs => by
        obtain ⟨h2, h3⟩ := n.fetchAsk_id d q module rs
        exact ⟨hn.trans (.of (n.fetchAsk_sameBut d q module rs) rfl), h2.trans ht, h3.trans hs⟩
    rw [Mod.etchFetch]
    extract_lets r1 y z r2 e m1 r3 n r4 y2
    split
    · exact ⟨.refl m, rfl, rfl⟩
    split
    · split
      · exact ⟨.refl m, rfl, rfl⟩
      · obtain ⟨hy, ht, hs⟩ := hask m r1 (fabModule d.src) (d.etchRanges r1) (.refl m) rfl rfl
        exact hgo y.1 y.2 hy ht hs
    split
    · exact ⟨.refl m, rfl, rfl⟩
    have hz : Mod.tilesKept m z.1 := .of (m.fetchRead_sameBut r _ _ ecc) rfl
    split
    · have hm1 : Mod.tilesKept m m1 := hz.trans (z.1.stage_tilesKept e _)
      split
      · exact ⟨hm1, rfl, rfl⟩
      · exact hgo m1 r3 hm1 rfl rfl
    · split
      · exact ⟨hz.trans (z.1.stage_tilesKept e _), rfl, rfl⟩
      · have hy : Mod.tilesKept m y2.1 ∧ y2.2.tile = r.tile ∧ y2.2.step = r.step := by
          change Mod.tilesKept m (if _ then _ else _ : Mod × TileRun).1 ∧ (if _ then _ else _ : Mod × TileRun).2.tile = _ ∧ (if _ then _ else _ : Mod × TileRun).2.step = _
          split
          · exact hask z.1 r4 (fabModule d.src) (d.etchRanges r4) hz rfl rfl
          · exact ⟨hz, rfl, rfl⟩
        exact hgo y2.1 y2.2 hy.1 hy.2.1 hy.2.2

/-- An engine that fetches leaves its contexts' windows and which tiles are in flight. -/
theorem Mod.engineFetch_tilesKept (e : Nat) (ecc : Ecc) : Mod.tilesKept m (m.engineFetch e ecc) :=
  .foldl (fun x q => by
    obtain ⟨hk, ht, hs⟩ := Mod.etchFetch_spec q.2.1 ecc 16 x q.2.2
    refine hk.trans (Mod.setCtx_tilesKept _ _ _ ?_)
    rw [Mod.flightIds, List.map_map]
    refine List.map_congr_left fun y _ => ?_
    dsimp only [Function.comp]
    split
    · next h => rw [h.1, h.2]
    · rfl) _ m

end

end Sys2Proof.Machine
end

section
/-! PROOF. The statement of stream tiles, expansion and decode tables (11_streams.md R280, R281, R287, R290, R291, R299, R302 to R305). -/

namespace Sys2Proof.Machine

/-! ### Tiles that start -/

section
variable (m : Mod)

theorem Mod.tileAsk_id (d : StreamDesc) (r : TileRun) : (m.tileAsk d r).2.tile = r.tile ∧ (m.tileAsk d r).2.step = r.step := by
  unfold Mod.tileAsk
  split
  · split
    · exact m.fetchAsk_id d r _ _
    · exact m.fetchAsk_id d r _ _
  · split
    · exact m.fetchAsk_id d r _ _
    · exact m.fetchAsk_id d r _ _
  · exact ⟨rfl, rfl⟩

/-- The start of a walk leaves the tiles in flight. -/
theorem Mod.walkStart_tilesKept (d : StreamDesc) (ecc : Ecc) : Mod.tilesKept m (m.walkStart d ecc) := by
  unfold Mod.walkStart
  extract_lets z b c broken y blocks room
  have hz : Mod.tilesKept m z.1 := .of (m.unitRead_sameBut true _ 64 ecc) rfl
  have hc : c.flight.map (fun r => (r.tile, r.step)) = z.1.flightIds d.id := rfl
  have hset : ∀ (x : Mod) (w : CtxRun), Mod.tilesKept z.1 x → w.flight = c.flight → Mod.tilesKept m (x.setCtx d.id w) := fun x w hx hw =>
    (hz.trans hx).trans (x.setCtx_tilesKept _ _ (by rw [hw, hc, hx.flights]))
  have hbroken : ∀ (x : Mod) (bad : Bool), Mod.tilesKept z.1 x → Mod.tilesKept m (broken x bad) := fun x bad hx => by
    have h0 : Mod.tilesKept m (x.setCtx d.id { c with walk := if bad then [] else b, overflow := false }) := hset x _ hx rfl
    change Mod.tilesKept m (let y := x.setCtx d.id { c with walk := if bad then [] else b, overflow := false }
      if bad then (y.fset Fld.STM_ERR_POISON 1 (d.id / 16)).raiseStep 0x0801 d.id 0 (y.dstLow d 0) 0 else y)
    generalize x.setCtx d.id { c with walk := if bad then [] else b, overflow := false } = n at h0
    dsimp only
    split
    · exact (h0.trans (.of (n.fset_sameBut _ _ _ _) rfl)).trans (.of (Mod.raiseStep_sameBut _ _ _ _ _ _) rfl)
    · exact h0
  have hy : Mod.tilesKept z.1 y.1 := .of (z.1.unitRead_sameBut true _ _ ecc) rfl
  have hover := hset y.1 { c with walk := b, overflow := true } hy rfl
  have hwalk := hset y.1 { c with walk := b, overflow := false } hy rfl
  clear_value broken y c b z
  split
  · exact hbroken z.1 _ (.refl _)
  split
  · exact hbroken y.1 true hy
  split
  · generalize y.1.setCtx d.id { c with walk := b, overflow := true } = n at hover ⊢
    exact (hover.trans (.of (n.fset_sameBut _ _ _ _) rfl)).trans (.of (Mod.raise_sameBut _ _ _ _ _ _ _) rfl)
  · exact hwalk

/-- A tile that may start is in flight, its window filling. -/
theorem Mod.tileStart_spec (d : StreamDesc) (ecc : Ecc) (h1 : m.tilesMayBegin d (m.ctx d.id) = true) (h2 : m.tileWinFree d (m.ctx d.id).next = true)
    (h3 : m.tileWaitDone d (m.ctx d.id).next = true) (h4 : m.tilePlaced d (m.ctx d.id).next = true) (h5 : (m.ctx d.id).pinsFull = false) :
    (m.tileStart d ecc).flightIds d.id = m.flightIds d.id ++ [((m.ctx d.id).next, m.tileStep (m.ctx d.id))]
    ∧ ∀ w, m.tileWindow d (m.ctx d.id).next = some w → ((m.tileStart d ecc).win w).st = .filling := by
  unfold Mod.tileStart
  extract_lets c t step m1 m2 m3 y c1
  rw [if_pos (by rw [h1, h2, h3, h4, h5]; rfl)]
  have hm1 : ∀ i, m1.flightIds i = m.flightIds i := fun i => by
    change Mod.flightIds (match m.tileWindow d t with | some w => _ | none => _) i = _
    split <;> rfl
  have hw1 : ∀ w, m.tileWindow d t = some w → (m1.win w).st = .filling := fun w hw => by
    change Win.st (Mod.win (match m.tileWindow d t with | some w => m.setWin w ⟨.filling, 0, d.id, t, step⟩ | none => m) w) = _
    rw [hw]
    dsimp only
    rw [Mod.win_setWin_same m w (by simp)]
  have h12 : Mod.tilesKept m1 m2 := by
    change Mod.tilesKept m1 (if _ then _ else _)
    split
    · exact m1.walkStart_tilesKept d ecc
    · exact .refl m1
  have h23 : Mod.tilesKept m2 m3 := by
    change Mod.tilesKept m2 (match d.kind, kvGet? m2.pad.insts (padKey d.winBase t) with
      | .unstash, some i => m2.setInst (padKey d.winBase t) { i with begun := true }
      | _, _ => m2)
    split
    · exact .of (m2.setInst_sameBut _ _) rfl
    · exact .refl m2
  have h3y : Mod.tilesKept m3 y.1 := .of (m3.tileAsk_sameBut d _) rfl
  have hid : y.2.tile = t ∧ y.2.step = step := m3.tileAsk_id d _
  have hall := (h12.trans h23).trans h3y
  have hfetch := Mod.engineFetch_tilesKept (y.1.setCtx d.id { c1 with next := t + 1, flight := c1.flight ++ [y.2] }) (d.id / 16) ecc
  have hwins : (y.1.setCtx d.id { c1 with next := t + 1, flight := c1.flight ++ [y.2] }).stm.wins = y.1.stm.wins := rfl
  have hflight : (y.1.setCtx d.id { c1 with next := t + 1, flight := c1.flight ++ [y.2] }).flightIds d.id = y.1.flightIds d.id ++ [(y.2.tile, y.2.step)] := by
    rw [Mod.flightIds, Mod.ctx_setCtx_same, List.map_append]
    rfl
  generalize y.1.setCtx d.id { c1 with next := t + 1, flight := c1.flight ++ [y.2] } = n at hfetch hwins hflight ⊢
  obtain ⟨hg, hgw⟩ := (n.engineFetch (d.id / 16) ecc).gates_flight d.id
  refine ⟨?_, fun w hw => ?_⟩
  · rw [Mod.flightIds, hg, ← Mod.flightIds, hfetch.flights, hflight, hall.flights, hm1, hid.1, hid.2]
  · rw [Mod.win, hgw, hfetch.wins, hwins, hall.wins]
    exact hw1 w hw

end

/-! ### Tiles delivered -/

/-- `n` has the streams' state, the plates and the signals of `m`. -/
structure Mod.streamsKept (m n : Mod) : Prop where
  stm : n.stm = m.stm
  plt : n.plt = m.plt
  sigs : n.sched.sigs = m.sched.sigs

theorem Mod.streamsKept.refl (m : Mod) : Mod.streamsKept m m := ⟨rfl, rfl, rfl⟩

theorem Mod.streamsKept.trans {l m n : Mod} (h1 : Mod.streamsKept l m) (h2 : Mod.streamsKept m n) : Mod.streamsKept l n :=
  ⟨h2.stm.trans h1.stm, h2.plt.trans h1.plt, h2.sigs.trans h1.sigs⟩

theorem Mod.streamsKept.of {ps : List Part} {m n : Mod} (h : Mod.sameBut ps m n) (hp : (ps.contains .stm || ps.contains .plt || ps.contains .sched) = false) :
    Mod.streamsKept m n := by
  simp only [Bool.or_eq_false_iff, List.contains_eq_mem, decide_eq_false_iff_not] at hp
  obtain ⟨⟨hstm, hplt⟩, hsched⟩ := hp
  exact ⟨h.stm hstm, h.plt hplt, by rw [h.sched hsched]⟩

theorem Mod.streamsKept.foldl {β : Type} {f : Mod → β → Mod} (hf : ∀ x y, Mod.streamsKept x (f x y)) (xs : List β) (m : Mod) :
    Mod.streamsKept m (xs.foldl f m) := by
  induction xs generalizing m with
  | nil => exact .refl m
  | cons x xs ih => exact (hf m x).trans (ih _)

theorem Mod.tileWindow_congr {m n : Mod} (h : n.plt = m.plt) (d : StreamDesc) (t : Nat) : n.tileWindow d t = m.tileWindow d t := by
  simp only [Mod.tileWindow, Mod.padRec?, Mod.padRecs, Mod.regions, Mod.plate?, h]

section
variable (m : Mod)

/-- A core that leaves its stable gives no signal. -/
theorem Mod.fenceCore_streamsKept (c cause : Nat) : Mod.streamsKept m (m.fenceCore c cause) := by
  unfold Mod.fenceCore
  extract_lets m1 x _ m2
  split
  · exact .refl m
  · have h2 : Mod.streamsKept m m2 := ((Mod.streamsKept.of (m.fset_sameBut _ _ _ _) rfl).trans (.of (Mod.fset_sameBut _ _ _ _ _) rfl)).trans (.of (m1.setCore_sameBut _ _) rfl)
    clear_value m2
    split
    · next s _ =>
      have h3 : Mod.streamsKept m2 { m2 with sched := { m2.sched with fences := m2.sched.fences ++ [(c, cause, s.id)] } } := ⟨rfl, rfl, rfl⟩
      generalize ({ m2 with sched := { m2.sched with fences := m2.sched.fences ++ [(c, cause, s.id)] } } : Mod) = m3 at h3 ⊢
      have h4 : Mod.streamsKept m3 (m3.fenceStable c) := by
        unfold Mod.fenceStable
        split
        · split
          · exact ⟨rfl, rfl, rfl⟩
          · exact .refl m3
        · exact .refl m3
      exact ((h2.trans h3).trans h4).trans (.of (Mod.raiseStep_sameBut _ _ _ _ _ _) rfl)
    · exact h2

theorem Mod.sramErrors_streamsKept (c i : Nat) (ranges : List (Nat × Nat)) (ecc : Ecc) : Mod.streamsKept m (m.sramErrors c i ranges ecc) := by
  unfold Mod.sramErrors
  extract_lets m1 m2 lo hit m3
  have h1 : Mod.streamsKept m m1 := .foldl (fun x a => (Mod.streamsKept.of (x.fsat_sameBut _ _ _ _) rfl).trans (.of (Mod.raise_sameBut _ _ _ _ _ _ _) rfl)) _ m
  have h2 : Mod.streamsKept m1 m2 := .foldl (fun x a => by
    dsimp only
    split
    · exact .refl x
    · have hx : ∀ y, Mod.streamsKept x { x with mem := y } := fun y => ⟨rfl, rfl, rfl⟩
      exact (hx _).trans (.of (Mod.fsat_sameBut _ _ _ _ _) rfl)) _ m1
  have h3 : Mod.streamsKept m2 m3 := .foldl (fun x w => .of (x.raiseStep_sameBut _ _ _ _ _) rfl) _ m2
  have h := (h1.trans h2).trans h3
  clear_value m1 m2 m3
  split
  · exact h.trans (m3.fenceCore_streamsKept _ _)
  · exact h

/-- The signal a tile gives. -/
def StreamDesc.signals (d : StreamDesc) (t : Nat) : List Nat := (d.signal.map (fun g => g + t * d.signalStride)).toList.filter (fun b => b != 0xFFFF)

/-- `n` is what a tile that ends leaves of the streams and signals of `m`. -/
structure Mod.tileEnded (d : StreamDesc) (r : TileRun) (m n : Mod) : Prop where
  flight : (n.ctx d.id).flight = (m.ctx d.id).flight.drop 1
  window : ∀ w, m.tileWindow d r.tile = some w → (n.win w).st = .ready ∧ (n.win w).tile = r.tile ∧ (n.win w).step = r.step
  sigs : n.sched.sigs = m.sched.sigs ++ d.signals r.tile

theorem Mod.tileEnded.before {d : StreamDesc} {r : TileRun} {l m n : Mod} (h : Mod.tileEnded d r m n) (h0 : Mod.streamsKept l m) : Mod.tileEnded d r l n :=
  ⟨h.flight.trans (by simp only [Mod.ctx, h0.stm]), fun w hw => h.window w (by rw [Mod.tileWindow_congr h0.plt]; exact hw), by rw [h.sigs, h0.sigs]⟩

theorem Mod.tileEnded.as {d : StreamDesc} {r q : TileRun} {m n : Mod} (h : Mod.tileEnded d q m n) (ht : q.tile = r.tile) (hs : q.step = r.step) :
    Mod.tileEnded d r m n := by
  obtain ⟨hf, hw, hsigs⟩ := h
  rw [ht] at hw hsigs
  rw [hs] at hw
  exact ⟨hf, hw, hsigs⟩

theorem Mod.tileDone_spec (d : StreamDesc) (r : TileRun) : Mod.tileEnded d r m (m.tileDone d r) := by
  unfold Mod.tileDone
  extract_lets c m1 m2 m3 m4 m5 m6 m7
  have hc : (m1.ctx d.id).flight = (m.ctx d.id).flight.drop 1 := by rw [show m1.ctx d.id = _ from m.ctx_setCtx_same _ _]
  have hp : m1.plt = m.plt := rfl
  have hs1 : m1.sched = m.sched := rfl
  clear_value m1
  have h2 : m2.plt = m1.plt ∧ m2.sched = m1.sched ∧ (m2.ctx d.id).flight = (m1.ctx d.id).flight
      ∧ ∀ w, m1.tileWindow d r.tile = some w → (m2.win w).st = .ready ∧ (m2.win w).tile = r.tile ∧ (m2.win w).step = r.step := by
    have e : m2 = match m1.tileWindow d r.tile with | some w => m1.setWin w ⟨.ready, m1.winUses w d, d.id, r.tile, r.step⟩ | none => m1 := rfl
    clear_value m2
    generalize m1.tileWindow d r.tile = o at e ⊢
    cases o with
    | none => exact ⟨by rw [e], by rw [e], by rw [e], fun w hw => nomatch hw⟩
    | some w =>
      have hwin : m2.win w = ⟨.ready, m1.winUses w d, d.id, r.tile, r.step⟩ := by rw [e]; exact m1.win_setWin_same w fun h => nomatch h
      refine ⟨by rw [e]; rfl, by rw [e]; rfl, by rw [e]; rfl, fun v hv => ?_⟩
      cases hv
      rw [hwin]
      exact ⟨rfl, rfl, rfl⟩
  obtain ⟨h2p, h2s, h2f, h2w⟩ := h2
  have h3 : m3.stm = m2.stm ∧ m3.sched.sigs = m2.sched.sigs ++ d.signals r.tile := by
    change (match d.signal with | some g => m2.signal (g + r.tile * d.signalStride) | none => m2).stm = _ ∧ (match d.signal with | some g => m2.signal (g + r.tile * d.signalStride) | none => m2).sched.sigs = _
    rw [StreamDesc.signals]
    cases d.signal with
    | none => exact ⟨rfl, (List.append_nil _).symm⟩
    | some g =>
      refine ⟨(m2.signal_sameBut _).stm (by decide), ?_⟩
      dsimp only
      by_cases hb : g + r.tile * d.signalStride = 0xFFFF
      · simp [Mod.signal, hb]
      · simp [Mod.signal, hb]
  have h4 : Mod.streamsKept m3 m4 := .of (m3.tileLate_sameBut d _ _) rfl
  have h5 : Mod.streamsKept m4 m5 := by
    change Mod.streamsKept m4 (match r.bad with | some k => (m4.fset Fld.STM_ERR_POISON 1 (d.id / 16)).raiseStep 0x0801 d.id r.tile (m4.dstLow d r.tile) k | none => m4)
    split
    · exact (Mod.streamsKept.of (m4.fset_sameBut _ _ _ _) rfl).trans (.of (Mod.raiseStep_sameBut _ _ _ _ _ _) rfl)
    · exact .refl m4
  have h6 : Mod.streamsKept m5 m6 := (Mod.streamsKept.of (m5.tileUnpin_sameBut d r) rfl).trans (.of (Mod.dropReads_sameBut _ _) rfl)
  have h7 : Mod.streamsKept m6 m7 := by
    change Mod.streamsKept m6 (if _ then _ else _)
    split
    · exact .of (m6.padRelease_sameBut _) rfl
    · exact .refl m6
  have h := ((h4.trans h5).trans h6).trans h7
  obtain ⟨hg, hgw⟩ := m7.gates_flight d.id
  have hgs : m7.gates.sched = m7.sched := m7.gates_sameBut.sched (by decide)
  clear_value m2 m3 m4 m5 m6 m7
  refine ⟨?_, fun w hw => ?_, ?_⟩
  · rw [hg, show m7.ctx d.id = m2.ctx d.id by simp only [Mod.ctx, h.stm, h3.1], h2f, hc]
  · have hwin : m7.gates.win w = m2.win w := by simp only [Mod.win, hgw, h.stm, h3.1]
    rw [hwin]
    exact h2w w (by rw [Mod.tileWindow_congr hp]; exact hw)
  · rw [hgs, h.sigs, h3.2, h2s, hs1]

theorem Mod.tilePut_streamsKept (d : StreamDesc) (a : Nat) (data : List (Byte × Bool)) (ecc : Ecc) : Mod.streamsKept m (m.tilePut d a data ecc) :=
  .of (m.tilePut_sameBut d a data ecc) rfl

/-- A tile that has a request its port can grant is moved. -/
theorem Mod.moveTile_spec (d : StreamDesc) (r : TileRun) (ecc : Ecc) (hk : d.kind = .fill ∨ d.kind = .copy) (hp : m.portReady d r = true) (h5 : r.phase ≠ 5)
    (hnear : d.kind = .copy → m.remoteAddr (d.dstAt r.tile) = false) : Mod.tileEnded d r m (m.moveTile d r ecc) := by
  have hfar : (d.kind == .copy && m.remoteAddr (d.dstAt r.tile)) = false := by
    rcases hk with h | h
    · rw [h]; rfl
    · rw [h, hnear h]; rfl
  have hready : m.fetchReady r (fabModule (d.srcAt r.tile)) [(m.tileSrc r.step (fabDev (d.srcAt r.tile)), d.tileBytes)] = true
      ∧ (m.heldPort (if d.kind = .fill then m.shedAddr ((m.tileWindow d r.tile).getD 0) else fabDev (d.dstAt r.tile)) d.tileBytes).isNone = true ∧ m.stagingRoom d = true := by
    unfold Mod.portReady at hp
    rcases hk with h | h <;>
    · rw [h] at hp hfar ⊢
      dsimp only at hp
      rw [hfar] at hp
      simp only [Bool.and_eq_true, Bool.false_or] at hp
      obtain ⟨⟨⟨-, h1⟩, h2⟩, h3⟩ := hp
      exact ⟨h1, h2, h3⟩
  obtain ⟨hr, hh, hroom⟩ := hready
  unfold Mod.moveTile
  extract_lets src rs dst far module z r1
  rw [if_neg h5, if_neg (by
    rw [show m.fetchReady r (fabModule src) rs = true from hr, show far = false from hfar, Option.isNone_iff_eq_none.1 (show (m.heldPort dst d.tileBytes).isNone = true from hh), hroom]
    decide), if_neg (by rw [show far = false from hfar]; decide)]
  have hz : Mod.streamsKept m z.1 := .of (m.fetchRead_sameBut r _ rs ecc) rfl
  have hput : Mod.streamsKept m (z.1.tilePut d dst z.2.1 ecc) := hz.trans (z.1.tilePut_streamsKept d dst _ ecc)
  exact ((Mod.tileDone_spec _ d r1).before hput).as rfl rfl

theorem Mod.putRuns_streamsKept (d : StreamDesc) (ecc : Ecc) (rs : List (Nat × Nat)) (data : List (Byte × Bool)) : Mod.streamsKept m (Mod.putRuns d ecc m rs data) :=
  .of (Mod.putRuns_sameBut d ecc m rs data) rfl

theorem Mod.stashTile_spec (d : StreamDesc) (r : TileRun) (ecc : Ecc) {i : PadInst} (hi : kvGet? m.pad.insts (padKey d.winBase r.tile) = some i)
    (h : i.place = .dropped ∨ (m.ranks (d.aux % 256)).all m.sramFree = true ∧ m.runsFree (m.padRuns i) = true) : Mod.tileEnded d r m (m.stashTile d r ecc) := by
  unfold Mod.stashTile
  rw [hi]
  dsimp only
  by_cases hd : i.place = .dropped
  · rw [if_pos hd]
    exact m.tileDone_spec d r
  · obtain ⟨h1, h2⟩ := h.resolve_left hd
    rw [if_neg hd, if_neg (by rw [h1, h2]; decide)]
    have hs : ∀ (f : Nat) (part off : Nat), Mod.streamsKept m ((m.ranks (d.aux % 256)).foldl (fun (x : Mod) c => x.sramErrors c 0xFFFFFFFF [(off, part)] ecc) m) := fun _ part off =>
      .foldl (fun x c => x.sramErrors_streamsKept _ _ _ _) _ m
    exact (Mod.tileDone_spec _ d r).before ((hs 0 _ _).trans (Mod.putRuns_streamsKept _ _ _ _ _))

theorem Mod.unstashTile_spec (d : StreamDesc) (r : TileRun) (ecc : Ecc) {i : PadInst} (hi : kvGet? m.pad.insts (padKey d.winBase r.tile) = some i)
    (hd : i.place ≠ .dropped) (h1 : (m.ranks (d.aux % 256)).all m.sramFree = true) (h2 : m.runsFree (m.padRuns i) = true) :
    Mod.tileEnded d r m (m.unstashTile d r ecc) := by
  unfold Mod.unstashTile
  rw [hi]
  dsimp only
  rw [if_neg (by rw [h1, h2]; simp [hd])]
  generalize m.padRuns i = runs
  have h3 : Mod.streamsKept m (runs.foldl (fun (x : Mod) q => x.yard .stream q.1 q.2 false) m) := .foldl (fun x q => .of (x.yard_sameBut _ _ _ _) rfl) _ m
  generalize runs.foldl (fun (x : Mod) q => x.yard .stream q.1 q.2 false) m = x1 at h3 ⊢
  have h4 : Mod.streamsKept x1 (x1.readDev true runs ecc) := .of (x1.readDev_sameBut _ _ _) rfl
  generalize x1.readDev true runs ecc = x2 at h4 ⊢
  refine ((Mod.tileDone_spec _ d _).before (((h3.trans h4).trans (.of (Mod.fillRanks_sameBut _ _ x2 _ _) rfl)).trans (.of (Mod.snoop_sameBut _ _ _) rfl))).as rfl rfl

theorem Mod.walkTile_spec (d : StreamDesc) (r : TileRun) (ecc : Ecc) (h : m.sramFree (m.walkCore d) = true) : Mod.tileEnded d r m (m.walkTile d r ecc) := by
  unfold Mod.walkTile
  extract_lets c b base slots z es y m1
  rw [if_neg (by rw [h]; decide)]
  have hput : ∀ (x : Mod) (a : Nat) (data : List Byte), Mod.streamsKept x (x.walkPut d a data) := fun x a data => .of (x.walkPut_sameBut d a data) rfl
  have hz : Mod.streamsKept m z.1 := .of (m.unitRead_sameBut true _ _ ecc) rfl
  have hy : Mod.streamsKept m y.1 := hz.trans (.of (Mod.walkSlots_sameBut d b base ecc slots 0 es z.1 none) rfl)
  have hm1 : Mod.streamsKept m m1 := by
    change Mod.streamsKept m (match y.2 with
      | some (seq, blk) => (y.1.fset Fld.STM_ERR_KV_PAGE 1 (d.id / 16)).raise .contained 0x0806 d.id r.tile seq blk
      | none => y.1)
    split
    · exact (hy.trans (.of (Mod.fset_sameBut _ _ _ _ _) rfl)).trans (.of (Mod.raise_sameBut _ _ _ _ _ _ _) rfl)
    · exact hy
  clear_value z es y m1
  split
  · exact (Mod.tileDone_spec _ d r).before (hput m _ _)
  split
  · exact (Mod.tileDone_spec _ d r).before (.of (m.walkBad_sameBut d _) rfl)
  split
  · exact ((Mod.tileDone_spec _ d _).before (hz.trans (hput z.1 _ _))).as rfl rfl
  · exact (Mod.tileDone_spec _ d r).before hm1

end

end Sys2Proof.Machine
end

section
/-! PROOF. The statement of streams and decode tables: deliveries, the expander, tables (11_streams.md R287, R299, R302 to R305). -/

namespace Sys2Proof.Machine

/-! ### The module's own number -/

/-- `n` has the number of `m`. -/
def Mod.idKept (m n : Mod) : Prop := n.self = m.self

theorem Mod.idKept.trans {l m n : Mod} (h1 : Mod.idKept l m) (h2 : Mod.idKept m n) : Mod.idKept l n := Eq.trans h2 h1

theorem Mod.idKept.refl (m : Mod) : Mod.idKept m m := Eq.refl m.self

theorem Mod.idKept.of {ps : List Part} {m n : Mod} (h : Mod.sameBut ps m n) (hp : ps.contains .regs = false) : Mod.idKept m n :=
  h.fget (by simpa using hp) _ _ _

theorem Mod.idKept.of_regsKeep {offs : List Nat} {m n : Mod} (h : m.regsKeep offs n) (ho : 0xC40000 ∉ offs) : Mod.idKept m n :=
  Mod.regsKeep_fget h Fld.FAB_ID_MODULE 0 0 ho

theorem Mod.idKept.foldl {β : Type} {f : Mod → β → Mod} (hf : ∀ x y, Mod.idKept x (f x y)) (xs : List β) (m : Mod) : Mod.idKept m (xs.foldl f m) := by
  induction xs generalizing m with
  | nil => exact .refl m
  | cons x xs ih => exact (hf m x).trans (ih _)

section
variable (m : Mod)

theorem Mod.fset_idKept (f : Fld) (v i j : Nat) (h : f.reg.addr i j ≠ 0xC40000) : Mod.idKept m (m.fset f v i j) :=
  .of_regsKeep (m.fset_regsKeep f v i j) fun hm => h (List.mem_singleton.1 hm).symm

theorem Mod.fsat_idKept (f : Fld) (v i j : Nat) (h : f.reg.addr i j ≠ 0xC40000) : Mod.idKept m (m.fsat f v i j) := m.fset_idKept f _ i j h

theorem Mod.trace_idKept (k i d0 d1 d2 d3 : Nat) : Mod.idKept m (m.trace k i d0 d1 d2 d3) := .of_regsKeep (m.trace_regsKeep k i d0 d1 d2 d3) (by decide)

theorem Mod.haltDevice_idKept (r : HaltReason) : Mod.idKept m (m.haltDevice r) := by
  refine Mod.idKept.trans (m := m.haltCores r m.stableCores) (.foldl (fun x c => ?_) _ m) (.of (Mod.sameBut_dbg _ _) rfl)
  split
  · unfold Mod.haltCore
    dsimp only
    split
    · exact (Mod.idKept.of (x.setCore_sameBut c _) rfl).trans (Mod.trace_idKept _ _ _ _ _ _ _)
    · exact .of (x.setCore_sameBut c _) rfl
  · exact x.fset_idKept Fld.DBG_ERR_HALT 1 0 0 (by decide)

theorem Mod.watchHit_idKept (w a : Nat) (write : Bool) (src : Nat) : Mod.idKept m (m.watchHit w a write src) := by
  unfold Mod.watchHit
  extract_lets typ act m1 _ m2 m3
  have h1 : Mod.idKept m m1 := (m.fsat_idKept Fld.DBG_WATCH_HITS_COUNT 1 w 0 (by
    simp only [RegSpec.addr, Fld.DBG_WATCH_HITS_COUNT, Reg.DBG_WATCH_HITS]
    omega)).trans (Mod.trace_idKept _ _ _ _ _ _ _)
  have h2 : Mod.idKept m1 m2 := by
    change Mod.idKept m1 (if _ then _ else _)
    split
    · have hd : Mod.idKept m1 { m1 with dbg := { m1.dbg with watchRaised := setAdd m1.dbg.watchRaised w } } := .of (m1.sameBut_dbg _) rfl
      exact hd.trans (.of (Mod.raise_sameBut _ _ _ _ _ _ _) rfl)
    · exact .refl m1
  have h3 : Mod.idKept m2 m3 := by
    change Mod.idKept m2 (if _ then _ else _)
    split
    · exact m2.haltDevice_idKept _
    · exact .refl m2
  clear_value m1 m2 m3
  have h := (h1.trans h2).trans h3
  split
  · refine h.trans ?_
    unfold Mod.traceTrigger
    split
    · exact (m3.fset_idKept Fld.DBG_STATUS_TRACE_TRIG 1 0 0 (by decide)).trans (.of (Mod.sameBut_dbg _ _) rfl)
    · exact .refl m3
  · exact h

theorem Mod.yard_idKept (src : YardSrc) (a n : Nat) (write : Bool) : Mod.idKept m (m.yard src a n write) :=
  .foldl (fun x w => by
    split
    · exact x.watchHit_idKept _ _ _ _
    · exact .refl x) _ m

theorem Mod.readDev_idKept (b : Bool) (ranges : List (Nat × Nat)) (ecc : Ecc) : Mod.idKept m (m.readDev b ranges ecc) := by
  unfold Mod.readDev Mod.eccDev
  extract_lets hit m1
  have h1 : Mod.idKept m m1 := .foldl (fun x a => by
    split
    · unfold Mod.foundCe
      extract_lets st l
      split
      · exact .refl x
      · refine (x.fsat_idKept Fld.HBM_ECC_CE 1 st 0 ?_).trans (.of (Mod.raise_sameBut _ _ _ _ _ _ _) rfl)
        simp only [RegSpec.addr, Fld.HBM_ECC_CE, Reg.HBM_ECC]
        omega
    · exact .refl x) _ m
  refine (h1.trans (.foldl (fun x a => ?_) _ m1)).trans (.foldl (fun x c => ?_) _ _)
  · split
    · unfold Mod.foundUe
      extract_lets st l m2 m3
      split
      · exact .refl x
      · have h2 : Mod.idKept x m2 := (Mod.idKept.of (x.markLoc_sameBut _) rfl).trans (Mod.fsat_idKept _ Fld.HBM_ECC_UE 1 st 0 (by
          simp only [RegSpec.addr, Fld.HBM_ECC_UE, Reg.HBM_ECC]
          omega))
        have h3 : Mod.idKept m2 m3 := (m2.fset_idKept Fld.HBM_UE_ADDR_LO_ADDR _ st 0 (by
          simp only [RegSpec.addr, Fld.HBM_UE_ADDR_LO_ADDR, Reg.HBM_UE_ADDR_LO]
          omega)).trans (Mod.fset_idKept _ Fld.HBM_UE_ADDR_HI_ADDR _ st 0 (by
          simp only [RegSpec.addr, Fld.HBM_UE_ADDR_HI_ADDR, Reg.HBM_UE_ADDR_HI]
          omega))
        exact (h2.trans h3).trans (.of (m3.raiseDual_sameBut _ _ _ _ _ _ _) rfl)
    · exact .refl x
  · split
    · refine (x.fset_idKept Fld.LFT_PORT_ERR_POISON 1 c 0 ?_).trans (.of (Mod.raiseDual_sameBut _ _ _ _ _ _ _ _) rfl)
      simp only [RegSpec.addr, Fld.LFT_PORT_ERR_POISON, Reg.LFT_PORT_ERR]
      omega
    · exact .refl x

theorem Mod.evictFor_idKept (unit : Option Nat) (need k : Nat) (m : Mod) : Mod.idKept m (Mod.evictFor unit need k m) := by
  induction k generalizing m with
  | zero => exact .refl m
  | succ k ih =>
    rw [Mod.evictFor]
    split
    · exact .refl m
    · split
      · next x hx =>
        refine Mod.idKept.trans ?_ (ih x)
        obtain ⟨e, -, rfl⟩ := Option.map_eq_some_iff.1 hx
        have h1 : Mod.idKept m (m.fsat Fld.LFT_POOL_EVICT_COUNT) := m.fsat_idKept Fld.LFT_POOL_EVICT_COUNT 1 0 0 (by decide)
        dsimp only
        split
        · exact h1.trans (.of (Mod.setObj_sameBut _ _ _) rfl)
        · exact h1.trans (.of (Mod.dropObj_sameBut _ _) rfl)
      · exact .refl m

theorem Mod.moveUp_idKept (home user : Nat) : Mod.idKept m (m.moveUp home user) := by
  have htry : ∀ w, Mod.idKept m (m.moveUpTry home w).1 := fun w => by
    unfold Mod.moveUpTry
    split
    · split
      · exact .of (m.setObj_sameBut _ _) rfl
      · exact .of (m.setObj_sameBut _ _) rfl
      · split
        · exact .refl m
        · exact (Mod.idKept.of (m.setObj_sameBut _ _) rfl).trans (Mod.fsat_idKept _ Fld.LFT_POOL_CANCEL_COUNT 1 0 0 (by decide))
      · exact .refl m
    · extract_lets need m1 ps o m2 _
      have h1 : Mod.idKept m m1 := Mod.evictFor_idKept _ _ _ m
      have h2 : Mod.idKept m1 m2 := by
        change Mod.idKept m1 (if _ then _ else _)
        split
        · exact .of (m1.openRuns_sameBut _) rfl
        · exact .refl m1
      clear_value m1 m2
      split
      · exact ((h1.trans h2).trans (.of (m2.sameBut_pool _) rfl)).trans (.of (Mod.setObj_sameBut _ _ _) rfl)
      · exact h1
  unfold Mod.moveUp
  split
  · exact .refl m
  · next w _ =>
    extract_lets r
    split
    · exact htry w
    · exact (htry w).trans (.of (Mod.sameBut_pool _ _) rfl)

theorem Mod.askRemote_idKept (module a k n : Nat) (m : Mod) : Mod.idKept m (m.askRemote module a k n).1 := by
  induction k generalizing m a n with
  | zero => exact .refl m
  | succ k ih =>
    rw [Mod.askRemote]
    split
    · exact .refl m
    · extract_lets part tag f _ m1
      have h1 : Mod.idKept m m1 := .of (m.sameBut_fab _) rfl
      clear_value m1
      exact (h1.trans (.of_regsKeep (m1.originate_regsKeep f) (by decide))).trans (ih _ _ _)

theorem Mod.fetchAsk_idKept (d : StreamDesc) (r : TileRun) (module : Nat) (rs : List (Nat × Nat)) : Mod.idKept m (m.fetchAsk d r module rs).1 := by
  unfold Mod.fetchAsk
  split
  · generalize rs.map sectorRange = qs
    suffices h : ∀ (z : Mod × TileRun), Mod.idKept z.1 (qs.foldl (fun (z : Mod × TileRun) q =>
        let y := z.1.askRemote module q.1 (q.2 / 65536 + 1) q.2
        (y.1, { z.2 with tags := z.2.tags ++ y.2 })) z).1 from h (m, r)
    induction qs with
    | nil => exact fun z => .refl z.1
    | cons q qs ih => exact fun z => (Mod.askRemote_idKept _ _ _ _ z.1).trans (ih _)
  · exact .foldl (fun x h => x.moveUp_idKept h _) _ m

theorem Mod.fetchRead_idKept (r : TileRun) (module : Nat) (rs : List (Nat × Nat)) (ecc : Ecc) : Mod.idKept m (m.fetchRead r module rs ecc).1 := by
  unfold Mod.fetchRead
  split
  · exact .of (m.dropReads_sameBut _) rfl
  · exact (Mod.idKept.foldl (fun x q => x.yard_idKept _ _ _ _) rs m).trans (Mod.readDev_idKept _ _ _ _)

theorem Mod.etchFetch_idKept (d : StreamDesc) (ecc : Ecc) (k : Nat) (m : Mod) (r : TileRun) : Mod.idKept m (Mod.etchFetch d ecc k m r).1 := by
  induction k generalizing m r with
  | zero => exact .refl m
  | succ k ih =>
    rw [Mod.etchFetch]
    extract_lets r1 y z r2 e m1 r3 n r4 y2
    split
    · exact .refl m
    split
    · split
      · exact .refl m
      · exact (m.fetchAsk_idKept d r1 _ _).trans (ih y.1 y.2)
    split
    · exact .refl m
    have hz : Mod.idKept m z.1 := m.fetchRead_idKept r _ _ ecc
    split
    · have hm1 : Mod.idKept m m1 := hz.trans (.of (z.1.stage_sameBut e _) rfl)
      split
      · exact hm1
      · exact hm1.trans (ih m1 r3)
    · split
      · exact hz.trans (.of (z.1.stage_sameBut e _) rfl)
      · have hy : Mod.idKept m y2.1 := by
          change Mod.idKept m (if _ then _ else _ : Mod × TileRun).1
          split
          · exact hz.trans (z.1.fetchAsk_idKept d r4 _ _)
          · exact hz
        exact hy.trans (ih y2.1 y2.2)

/-- An engine that fetches does not change the module's number. -/
theorem Mod.engineFetch_self (e : Nat) (ecc : Ecc) : (m.engineFetch e ecc).self = m.self := by
  change Mod.idKept m (m.engineFetch e ecc)
  unfold Mod.engineFetch
  exact .foldl (fun x q => (Mod.etchFetch_idKept q.2.1 ecc 16 x q.2.2).trans
    (.of (Mod.setRun_sameBut (Mod.etchFetch q.2.1 ecc 16 x q.2.2).1 q.2.1 (Mod.etchFetch q.2.1 ecc 16 x q.2.2).2) rfl)) _ m

end

/-! ### Deliveries -/

theorem Mod.stream?_id {m : Mod} {id : Nat} {d : StreamDesc} (h : m.stream? id = some d) : d.id = id := by
  obtain ⟨p, -, hp⟩ := Option.bind_eq_some_iff.1 h
  simpa using List.find?_some hp

section
variable {m : Mod}

/-- A tile without a request its port can grant is not held up by another. -/
theorem Mod.portTaken_of_idle {d : StreamDesc} {r : TileRun} (h : m.portReady d r = false) : m.portTaken d r = false := by
  rw [Mod.portTaken, h]
  rfl

theorem Mod.tileDeliver_spec (d : StreamDesc) (ecc : Ecc) {r : TileRun} {rest : List TileRun} (hf : ((m.engineFetch (d.id / 16) ecc).ctx d.id).flight = r :: rest)
    (h : (d.expand = false ∧ r.phase ≠ 5 ∧ (m.engineFetch (d.id / 16) ecc).portReady d r = true ∧ (m.engineFetch (d.id / 16) ecc).portTaken d r = false
          ∧ (d.kind = .copy → m.remoteAddr (d.dstAt r.tile) = false))
        ∨ (d.kind = .stash ∧ ∃ i, kvGet? (m.engineFetch (d.id / 16) ecc).pad.insts (padKey d.winBase r.tile) = some i ∧ i.place = .dropped)
        ∨ (d.kind = .fill ∧ d.expand = true ∧ (m.engineFetch (d.id / 16) ecc).etchDone d r = true)) :
    Mod.tileEnded d r (m.engineFetch (d.id / 16) ecc) (m.tileDeliver d ecc) := by
  have hself := m.engineFetch_self (d.id / 16) ecc
  unfold Mod.tileDeliver
  dsimp only
  rw [hf]
  dsimp only
  generalize m.engineFetch (d.id / 16) ecc = n at h hself ⊢
  rcases h with ⟨he, h5, hready, htaken, hnear⟩ | ⟨hk, i, hi, hd⟩ | ⟨hk, he, hdone⟩
  · rw [if_neg (by rw [htaken]; decide)]
    have hnear' : d.kind = .copy → n.remoteAddr (d.dstAt r.tile) = false := fun h => by rw [Mod.remoteAddr, hself]; exact hnear h
    have hplace : d.kind = .stash ∨ d.kind = .unstash → ∃ i, kvGet? n.pad.insts (padKey d.winBase r.tile) = some i ∧ i.place ≠ .dropped
        ∧ (n.ranks (d.aux % 256)).all n.sramFree = true ∧ n.runsFree (n.padRuns i) = true := fun hk => by
      have h : (kvGet? n.pad.insts (padKey d.winBase r.tile)).any (fun i =>
          i.place != .dropped && (n.ranks (d.aux % 256)).all n.sramFree && n.runsFree (n.padRuns i)) = true := by
        unfold Mod.portReady at hready
        rcases hk with h | h <;>
        · rw [h] at hready
          exact hready
      cases hi : kvGet? n.pad.insts (padKey d.winBase r.tile) with
      | none =>
        rw [hi] at h
        cases h
      | some i =>
        rw [hi] at h
        simp only [Option.any_some, Bool.and_eq_true, bne_iff_ne] at h
        obtain ⟨⟨hd, hfree⟩, hruns⟩ := h
        exact ⟨i, rfl, hd, hfree, hruns⟩
    cases hk : d.kind with
    | fill =>
      dsimp only
      rw [if_neg (by rw [he]; decide)]
      exact n.moveTile_spec d r ecc (.inl hk) hready h5 hnear'
    | copy => exact n.moveTile_spec d r ecc (.inr hk) hready h5 hnear'
    | stash =>
      obtain ⟨i, hi, -, h1, h2⟩ := hplace (.inl hk)
      exact n.stashTile_spec d r ecc hi (.inr ⟨h1, h2⟩)
    | unstash =>
      obtain ⟨i, hi, hd, h1, h2⟩ := hplace (.inr hk)
      exact n.unstashTile_spec d r ecc hi hd h1 h2
    | walk =>
      refine n.walkTile_spec d r ecc ?_
      unfold Mod.portReady at hready
      rw [hk] at hready
      exact hready
  · have hidle : n.portReady d r = false := by
      unfold Mod.portReady
      rw [hk]
      dsimp only
      rw [hi]
      simp [hd]
    rw [if_neg (by rw [Mod.portTaken_of_idle hidle]; decide), hk]
    exact n.stashTile_spec d r ecc hi (.inl hd)
  · have hidle : n.portReady d r = false := by
      unfold Mod.portReady
      rw [hk]
      dsimp only
      rw [he]
      rfl
    rw [if_neg (by rw [Mod.portTaken_of_idle hidle]; decide), hk]
    dsimp only
    rw [if_pos he, if_pos hdone]
    exact n.tileDone_spec d r

end

/-! ### The expander -/

theorem leastJob_mem {xs : List (Nat × EtchJob)} {x : Nat × EtchJob} (h : leastJob xs = some x) : x ∈ xs := by
  induction xs with
  | nil => cases h
  | cons y ys ih =>
    rw [leastJob] at h
    split at h
    · next f hf =>
      split at h
      · cases h
        exact List.mem_cons_of_mem _ (ih hf)
      · cases h
        exact List.mem_cons_self
    · cases h
      exact List.mem_cons_self

section
variable {m : Mod}

/-- The block taken is one of the engine's sixteen contexts. -/
theorem Mod.pickJob_ctx {e : Nat} {j : EtchJob} (h : m.pickJob e = some j) : j.ctx < 16 := by
  unfold Mod.pickJob at h
  obtain ⟨x, hx, rfl⟩ := Option.map_eq_some_iff.1 h
  obtain ⟨k, hk, rfl⟩ := List.mem_map.1 (leastJob_mem hx)
  obtain ⟨c, hc, hfind⟩ := List.mem_filterMap.1 (List.mem_filter.1 hk).1
  have : k.ctx = c := by simpa using List.find?_some hfind
  rw [this]
  exact List.mem_range.1 hc

theorem Mod.markTile_staged (stream : Nat) (j : EtchJob) (e : Nat) : ((m.markTile stream j).engine e).staged = (m.engine e).staged := by
  simp only [Mod.markTile, Mod.engine, Mod.setCtx]
  by_cases h : e = stream / 16
  · rw [h, kvGetD_kvSet_same]
  · rw [kvGetD_kvSet_other _ _ _ h]

/-- A block expanded, or found bad, leaves the staging. -/
theorem Mod.expandJob_spec (e : Nat) (d : StreamDesc) (j : EtchJob) (ecc : Ecc) :
    ((m.expandJob e d j ecc).engine e).staged = (m.engine e).staged.erase j
    ∧ (∀ code, (m.engine e).expand (m.etchKey d.key) j = .bad code → m.reportsCause (m.expandJob e d j ecc) .contained 0x0802 d.id j.block code j.tile)
    ∧ ((m.engine e).expand (m.etchKey d.key) j = .gone →
        m.reportsCause (m.expandJob e d j ecc) .contained 0x0805 d.id j.block (blkGen (rdBytes j.data)) (m.engine e).gens) := by
  unfold Mod.expandJob
  extract_lets x m1 dst poison w
  have hstaged : (m1.engine e).staged = x.staged.erase j := by
    rw [show m1.engine e = _ from kvGetD_kvSet_same _ _ _ _]
  have hopen : m1.stepOpen = m.stepOpen := by rw [Mod.stepOpen, (m.setEngine_sameBut e _).step (by decide), Mod.stepOpen]
  have hput : ∀ (n : Mod) (a : Nat) (data : List (Byte × Bool)), ((n.tilePut d a data ecc).engine e).staged = (n.engine e).staged := fun n a data => by
    rw [Mod.engine, (n.tilePut_sameBut d a data ecc).stm (by decide), Mod.engine]
  clear_value m1
  have hbad : ∀ (f : Fld) (v code d0 d1 d2 : Nat) (n : Mod), n = (((m1.fset f v e).raiseStep code d.id d0 d1 d2).markTile d.id j).tilePut d dst poison ecc →
      (n.engine e).staged = x.staged.erase j ∧ m.reportsCause n .contained code d.id d0 d1 d2 := fun f v code d0 d1 d2 n hn => by
    have hs1 := m1.fset_sameBut f v e 0
    have hrep : m.reportsCause ((m1.fset f v e).raiseStep code d.id d0 d1 d2) .contained code d.id d0 d1 d2 :=
      Mod.raiseDual_reportsCause _ (by rw [Mod.stepOpen, hs1.step (by decide), ← Mod.stepOpen, hopen]) _ _ _ _ _ _
    have hs2 := (m1.fset f v e).raiseStep_sameBut code d.id d0 d1 d2
    have hst : (((m1.fset f v e).raiseStep code d.id d0 d1 d2).engine e).staged = x.staged.erase j := by
      rw [Mod.engine, hs2.stm (by decide), hs1.stm (by decide), ← Mod.engine, hstaged]
    generalize (m1.fset f v e).raiseStep code d.id d0 d1 d2 = n1 at hrep hst hn
    have hmark : Mod.recordsKept n1 (n1.markTile d.id j) := .of (n1.markTile_sameBut d.id j) rfl
    have hms : ((n1.markTile d.id j).engine e).staged = x.staged.erase j := n1.markTile_staged d.id j e |>.trans hst
    generalize n1.markTile d.id j = n2 at hmark hms hn
    rw [hn]
    exact ⟨(hput n2 _ _).trans hms, (hmark.trans (n2.tilePut_recordsKept d dst poison ecc)).reportsCause hrep⟩
  cases hx : x.expand (m.etchKey d.key) j with
  | good raw =>
    refine ⟨?_, fun _ h => Expanded.noConfusion h, fun h => Expanded.noConfusion h⟩
    dsimp only
    rw [hput, Mod.engine, (Mod.fsat_sameBut _ _ _ _ _).stm (by decide)]
    exact hstaged
  | bad code =>
    obtain ⟨hs, hr⟩ := hbad Fld.STM_ERR_ETCH_BAD 1 0x0802 j.block code j.tile _ rfl
    exact ⟨hs, fun c h => by cases h; exact hr, fun h => Expanded.noConfusion h⟩
  | gone =>
    obtain ⟨hs, hr⟩ := hbad Fld.STM_ERR_TABLE_GONE 1 0x0805 j.block (blkGen (rdBytes j.data)) x.gens _ rfl
    exact ⟨hs, fun _ h => Expanded.noConfusion h, fun _ => hr⟩
  | poisoned => exact ⟨(hput m1 _ _).trans hstaged, fun _ h => Expanded.noConfusion h, fun h => Expanded.noConfusion h⟩

end

/-! ### Decode tables -/

/-- A mask of one engine. -/
theorem range_filter_testBit {e : Nat} (he : e < 64) : (List.range 64).filter (fun i => (2 ^ e).testBit i) = [e] := by
  simp only [Nat.testBit_two_pow]
  have h : ∀ e < 64, (List.range 64).filter (fun i => decide (e = i)) = [e] := by decide
  exact h e he

section
variable {s : State}

/-- A load on one engine: what the command does. -/
theorem Mod.tableCmd_one (m : Mod) {e a : Nat} (he : e < 64) (hmask : m.get64 Fld.STM_TBL_MASK_LO_MASK Fld.STM_TBL_MASK_HI_MASK = 2 ^ e)
    (ha : m.get64 Fld.STM_TBL_ADDR_LO_ADDR Fld.STM_TBL_ADDR_HI_ADDR = a) {m1 : Mod} (hm1 : (m.yard .stream a 144 false).readDev false [(a, 144)] noEcc = m1)
    {b : List (Byte × Bool)} (hb : m1.devRead a 144 = b) : m.tableCmd noEcc
      = (m1.tableLoad b e).1.set64 Fld.STM_TBL_RESULT_LO_REFUSED Fld.STM_TBL_RESULT_HI_REFUSED (if (m1.tableLoad b e).2 then 0 + 2 ^ e else 0) := by
  unfold Mod.tableCmd
  dsimp only
  rw [hmask, range_filter_testBit he, ha, hm1, hb]
  rfl

/-- An engine with a load accepted: the slot that is not current empty. -/
def StmEngine.loading (x : StmEngine) (t : DecTable) : StmEngine :=
  { (if 1 - x.cur = 0 then { x with tab0 := none } else { x with tab1 := none }) with load := some t }

theorem StmEngine.loading_spec (x : StmEngine) (t : DecTable) : (x.loading t).load = some t ∧ (x.loading t).cur = x.cur ∧ (x.loading t).tab (1 - x.cur) = none := by
  unfold StmEngine.loading StmEngine.tab
  split <;> exact ⟨rfl, rfl, rfl⟩

/-- What a load's result leaves (R304). -/
theorem Mod.tableResult (n : Mod) {e : Nat} (he : e < 64) (b : Bool) : let t := n.set64 Fld.STM_TBL_RESULT_LO_REFUSED Fld.STM_TBL_RESULT_HI_REFUSED (if b then 0 + 2 ^ e else 0)
    t.get64 Fld.STM_TBL_RESULT_LO_REFUSED Fld.STM_TBL_RESULT_HI_REFUSED = (if b then 2 ^ e else 0) ∧ t.stm = n.stm
      ∧ (∀ f : Fld, f.reg = Reg.STM_ERR → t.fget f e = n.fget f e) ∧ Mod.recordsKept n t := by
  intro t
  have hs := n.set64_sameBut Fld.STM_TBL_RESULT_LO_REFUSED Fld.STM_TBL_RESULT_HI_REFUSED (if b then 0 + 2 ^ e else 0) 0
  refine ⟨?_, hs.stm (by decide), fun f hf => ?_, .of hs rfl⟩
  · rw [Mod.get64_set64 n 0 _ (by decide) ⟨rfl, rfl⟩ (by decide)]
    split
    · rw [Nat.zero_add]
      exact Nat.mod_eq_of_lt (Nat.pow_lt_pow_right (by decide) he)
    · rfl
  · have h1 : f.reg.addr e 0 ≠ Reg.STM_TBL_RESULT_LO.addr 0 0 ∧ f.reg.addr e 0 ≠ Reg.STM_TBL_RESULT_HI.addr 0 0 := by
      rw [hf]
      simp only [RegSpec.addr, Reg.STM_ERR, Reg.STM_TBL_RESULT_LO, Reg.STM_TBL_RESULT_HI]
      omega
    change ((n.fset _ _ 0).fset _ _ 0).fget f e = _
    rw [Mod.fget_fset_otherReg _ _ _ _ _ _ _ _ h1.2, Mod.fget_fset_otherReg _ _ _ _ _ _ _ _ h1.1]

theorem execDecodeTableLoad_spec {e : Nat} (hans : s.m.answers Reg.STM_TBL_CMD.base = true) (he : e < 64)
    (hmask : s.m.get64 Fld.STM_TBL_MASK_LO_MASK Fld.STM_TBL_MASK_HI_MASK = 2 ^ e) :
    let a := s.m.get64 Fld.STM_TBL_ADDR_LO_ADDR Fld.STM_TBL_ADDR_HI_ADDR
    let b := (s.m.yard .stream a 144 false).devRead a 144
    let x := s.m.engine e
    let fault := if rdPoison b then some 0 else tableFault (rdBytes b)
    let gen := (tableOf (rdBytes b)).gen
    let same := (x.tab x.cur).any (fun q => q.gen == gen)
    let refusedMask := fun (t : State) => t.m.get64 Fld.STM_TBL_RESULT_LO_REFUSED Fld.STM_TBL_RESULT_HI_REFUSED
    (fault = none → same = false → x.refs (1 - x.cur) = 0 →
      ∃ t, exec (.decodeTableLoad noEcc) s = .next t ∧ (t.m.engine e).load = some (tableOf (rdBytes b)) ∧ (t.m.engine e).cur = x.cur
        ∧ (t.m.engine e).tab (1 - x.cur) = none ∧ refusedMask t = 0) ∧
    (∀ k, fault = some k → ∃ t, exec (.decodeTableLoad noEcc) s = .next t ∧ t.m.stm = s.m.stm ∧ refusedMask t = 2 ^ e
      ∧ t.m.fget Fld.STM_ERR_TABLE_BAD e = 1 ∧ t.m.reports .corrected 0x0803 e gen k 0) ∧
    (fault = none → same = false → 0 < x.refs (1 - x.cur) →
      ∃ t, exec (.decodeTableLoad noEcc) s = .next t ∧ t.m.stm = s.m.stm ∧ refusedMask t = 2 ^ e ∧ t.m.fget Fld.STM_ERR_TABLE_BUSY e = 1
        ∧ t.m.reports .corrected 0x0804 e (1 - x.cur) (x.refs (1 - x.cur)) 0) := by
  intro a b x fault gen same refusedMask
  have hs1 := s.m.yard_sameBut .stream a 144 false
  have hs2 := (s.m.yard .stream a 144 false).readDev_sameBut false [(a, 144)] noEcc
  have hread : ((s.m.yard .stream a 144 false).readDev false [(a, 144)] noEcc).devRead a 144 = b :=
    ((s.m.yard .stream a 144 false).loftMet_quiet false [(a, 144)]).devRead a 144
  have hstm := (hs2.stm (by decide)).trans (hs1.stm (by decide))
  have key : ∃ m1 : Mod, m1.stm = s.m.stm ∧ exec (.decodeTableLoad noEcc) s = .next { s with
      m := (m1.tableLoad b e).1.set64 Fld.STM_TBL_RESULT_LO_REFUSED Fld.STM_TBL_RESULT_HI_REFUSED (if (m1.tableLoad b e).2 then 0 + 2 ^ e else 0) } :=
    ⟨_, hstm, (exec_reg (f := fun m => m.tableCmd noEcc) rfl hans).trans
      (congrArg (fun n => Host.Outcome.next { s with m := n }) (s.m.tableCmd_one he hmask rfl rfl hread))⟩
  obtain ⟨m1, hst, key⟩ := key
  have hx : m1.engine e = x := by rw [Mod.engine, hst, ← Mod.engine]
  have hload : m1.tableLoad b e = match fault with
      | some k => (m1.tableRefused e false gen k, true)
      | none =>
        if same then (m1.tableRefused e false gen 2, true)
        else if 0 < x.refs (1 - x.cur) then (m1.tableRefused e true (1 - x.cur) (x.refs (1 - x.cur)), true)
        else (m1.setEngine e (x.loading (tableOf (rdBytes b))), false) := by
    unfold Mod.tableLoad
    rw [hx]
    rfl
  have hrefused : ∀ (n : Mod), n.stm = s.m.stm → m1.tableLoad b e = (n, true) →
      ∃ t : State, exec (.decodeTableLoad noEcc) s = .next t ∧ t.m.stm = s.m.stm ∧ refusedMask t = 2 ^ e
        ∧ (∀ f : Fld, f.reg = Reg.STM_ERR → t.m.fget f e = n.fget f e) ∧ Mod.recordsKept n t.m := fun n hn hl => by
    rw [hl] at key
    obtain ⟨h1, h2, h3, h4⟩ := n.tableResult he true
    exact ⟨_, key, h2.trans hn, h1, h3, h4⟩
  refine ⟨fun hf hsame hrefs => ?_, fun k hf => ?_, fun hf hsame hrefs => ?_⟩
  · rw [hf, hsame, hrefs] at hload
    dsimp only at hload
    rw [if_neg (by decide), if_neg (by decide)] at hload
    rw [hload] at key
    obtain ⟨h1, h2, -, -⟩ := Mod.tableResult (m1.setEngine e (x.loading (tableOf (rdBytes b)))) he false
    obtain ⟨hl, hc, ht⟩ := x.loading_spec (tableOf (rdBytes b))
    refine ⟨_, key, ?_⟩
    dsimp only at h1 h2 ⊢
    generalize (m1.setEngine e (x.loading (tableOf (rdBytes b)))).set64 Fld.STM_TBL_RESULT_LO_REFUSED Fld.STM_TBL_RESULT_HI_REFUSED (if false then 0 + 2 ^ e else 0) = n
      at h1 h2 ⊢
    have hen : n.engine e = x.loading (tableOf (rdBytes b)) := by
      rw [Mod.engine, h2]
      exact kvGetD_kvSet_same _ _ _ _
    rw [hen]
    exact ⟨hl, hc, ht, h1⟩
  · rw [hf] at hload
    have hsr := m1.tableRefused_sameBut e false gen k
    obtain ⟨t, ht, hst', hm, hfld, hrec⟩ := hrefused _ ((hsr.stm (by decide)).trans hst) hload
    refine ⟨t, ht, hst', hm, ?_, hrec.reports (Mod.raise_reports _ _ _ _ _ _ _)⟩
    rw [hfld _ rfl, Mod.tableRefused, if_neg (by decide), Mod.fget_raise]
    exact Mod.fget_fset_bit _ Fld.STM_ERR_TABLE_BAD e 0 rfl
  · rw [hf, hsame] at hload
    dsimp only at hload
    rw [if_neg (by decide), if_pos hrefs] at hload
    have hsr := m1.tableRefused_sameBut e true (1 - x.cur) (x.refs (1 - x.cur))
    obtain ⟨t, ht, hst', hm, hfld, hrec⟩ := hrefused _ ((hsr.stm (by decide)).trans hst) hload
    refine ⟨t, ht, hst', hm, ?_, hrec.reports (Mod.raise_reports _ _ _ _ _ _ _)⟩
    rw [hfld _ rfl, Mod.tableRefused, if_pos rfl, Mod.fget_raise]
    exact Mod.fget_fset_bit _ Fld.STM_ERR_TABLE_BUSY e 0 rfl

/-- An engine whose load becomes current. -/
def StmEngine.switched (x : StmEngine) (t : DecTable) : StmEngine :=
  { (if 1 - x.cur = 0 then { x with tab0 := some t } else { x with tab1 := some t }) with
    cur := 1 - x.cur, load := none, staged := x.staged.map (fun j => if x.blocked j then { j with ref := some (1 - x.cur) } else j) }

theorem StmEngine.switched_spec (x : StmEngine) (t : DecTable) :
    (x.switched t).cur = 1 - x.cur ∧ (x.switched t).load = none ∧ (x.switched t).tab (1 - x.cur) = some t := by
  unfold StmEngine.switched StmEngine.tab
  split <;> exact ⟨rfl, rfl, rfl⟩

theorem execDecodeTableSwitch_eq (e : Nat) : exec (.decodeTableSwitch e) s = .next (s.unit (fun m => match (m.engine e).load with
    | some t => if m.atBoundary then m.setEngine e ((m.engine e).switched t) else m
    | none => m)) := rfl

theorem execDecodeTableSwitch_spec (hr : s.m.running = true) (e : Nat) :
    (∀ tab, (s.m.engine e).load = some tab → s.m.atBoundary = true →
      ∃ t, exec (.decodeTableSwitch e) s = .next t ∧ (t.m.engine e).cur = 1 - (s.m.engine e).cur ∧ (t.m.engine e).load = none
        ∧ (t.m.engine e).tab (1 - (s.m.engine e).cur) = some tab ∧ State.sameBut [.stm] s t) ∧
    ((s.m.engine e).load = none ∨ s.m.atBoundary = false → exec (.decodeTableSwitch e) s = .next s) := by
  refine ⟨fun tab hl hb => ?_, fun h => exec_unit_self (execDecodeTableSwitch_eq e) fun _ => ?_⟩
  · refine ⟨_, exec_unit_eq (n := s.m.setEngine e ((s.m.engine e).switched tab)) (execDecodeTableSwitch_eq e) hr (by rw [hl]; exact if_pos hb), ?_⟩
    have he : (s.m.setEngine e ((s.m.engine e).switched tab)).engine e = (s.m.engine e).switched tab := kvGetD_kvSet_same _ _ _ _
    obtain ⟨hc, hl', ht⟩ := (s.m.engine e).switched_spec tab
    dsimp only
    rw [he]
    exact ⟨hc, hl', ht, rfl, rfl, s.m.setEngine_sameBut e _⟩
  · rcases h with h | h
    · rw [h]
    · split
      · exact if_neg (by rw [h]; decide)
      · rfl

end

/-- Settles O50: stream tiles, expansion and decode tables. -/
theorem streamsAndTables : Obligations.StreamsAndTables := by
  unfold Obligations.StreamsAndTables
  refine ⟨fun s id d ecc hr hd => ?_, fun s e ecc hr hrun => ?_, fun s e hans he hmask => execDecodeTableLoad_spec hans he hmask,
    fun s e hr => execDecodeTableSwitch_spec hr e⟩
  · obtain rfl := Mod.stream?_id hd
    intro c
    have hstart : exec (.streamTileStart d.id ecc) s = .next { s with m := s.m.tileStart d ecc } := exec_unit_eq rfl hr (by rw [hd])
    refine ⟨fun h1 h2 h3 h4 h5 => ?_, fun h => ?_, fun r rest hrun => ?_, fun hrun => ?_⟩
    · obtain ⟨hfl, hwin⟩ := s.m.tileStart_spec d ecc h1 h2 h3 h4 h5
      exact ⟨_, hstart, hfl, hwin, (s.m.tileStart_sameBut d ecc).sched (by decide)⟩
    · refine hstart.trans ?_
      have hno : s.m.tileStart d ecc = s.m := if_neg (by
        rcases h with h | h | h
        · simp [show s.m.tilesMayBegin d (s.m.ctx d.id) = false from h]
        · simp [show s.m.tileWinFree d (s.m.ctx d.id).next = false from h]
        · simp [show s.m.tileWaitDone d (s.m.ctx d.id).next = false from h])
      rw [hno]
    · intro m0 hf h
      obtain ⟨hfl, hwin, hsigs⟩ := Mod.tileDeliver_spec d ecc hf h
      have hs := s.m.engineFetch_sameBut (d.id / 16) ecc
      refine ⟨_, exec_unit_eq (n := s.m.tileDeliver d ecc) rfl hr (by rw [hd]; exact if_pos hrun), ?_, fun w hw => hwin w ?_, ?_⟩
      · exact hfl.trans (by rw [hf]; rfl)
      · rw [Mod.tileWindow_congr (hs.plt (by decide))]
        exact hw
      · exact hsigs.trans (by rw [hs.sched (by decide)]; rfl)
    · exact exec_unit_self rfl fun _ => by
        rw [hd]
        exact if_neg (by rw [hrun]; decide)
  · intro m1
    have key : ∀ {n : Mod}, (match m1.pickJob e with
        | some j => match m1.stream? (16 * e + j.ctx) with
          | some d => m1.expandJob e d j ecc
          | none => m1
        | none => m1) = n → exec (.etchBlockExpand e ecc) s = .next { s with m := n } := fun h =>
      exec_unit_eq rfl hr ((if_neg (by rw [hrun]; decide)).trans h)
    refine ⟨fun j d hj hd => ?_, fun hj => key (by rw [hj])⟩
    obtain ⟨h1, h2, h3⟩ := Mod.expandJob_spec (m := m1) e d j ecc
    exact ⟨_, key (n := m1.expandJob e d j ecc) (by rw [hj]; dsimp only; rw [hd]), h1, h2, h3⟩

end Sys2Proof.Machine
end

section
/-! PROOF. The statement of the host port, DOE, MCTP and MSI-X (14_host_interface.md R362, R377 to R380, R398). -/

namespace Sys2Proof.Machine

section
variable (m : Mod)

/-! ### Messages -/

/-- A message signalled leaves DOE, the table and the masks. -/
theorem Mod.msix_spec (v : Nat) : (m.msix v).host.doe = m.host.doe ∧ (∀ o ∈ m.host.out, o ∈ (m.msix v).host.out)
    ∧ (m.msix v).host.coalDue = m.host.coalDue ∧ (m.msix v).host.coalOpen = m.host.coalOpen := by
  unfold Mod.msix
  extract_lets e
  split
  · exact ⟨rfl, fun _ h => h, rfl, rfl⟩
  · split
    · exact ⟨rfl, fun _ h => h, rfl, rfl⟩
    · exact ⟨rfl, fun _ h => List.mem_append_left _ h, rfl, rfl⟩

theorem Mod.msix_sent {v addr data : Nat} (he : m.host.msixEnable = true) (hf : m.host.funcMask = false)
    (hv : kvGet? m.host.entries v = some ⟨addr, data, false⟩) : m.msix v = m.emit (.msix v addr data) := by
  unfold Mod.msix
  have hd : kvGetD m.host.entries v .reset = ⟨addr, data, false⟩ := by rw [kvGetD, hv]; rfl
  rw [hd, he, hf]
  rfl

/-- What the messages that waited leave, with the masks open: an unmasked one is sent, a masked one waits. -/
structure Mod.pendingSent (m n : Mod) : Prop where
  entries : n.host.entries = m.host.entries
  enable : n.host.msixEnable = m.host.msixEnable
  mask : n.host.funcMask = m.host.funcMask
  out : ∀ o ∈ m.host.out, o ∈ n.host.out
  fewer : ∀ v, v ∉ m.host.pba → v ∉ n.host.pba
  masked : ∀ v, (kvGetD m.host.entries v .reset).mask = true → (v ∈ n.host.pba ↔ v ∈ m.host.pba)

theorem Mod.pendingSent.trans {l m n : Mod} (h1 : Mod.pendingSent l m) (h2 : Mod.pendingSent m n) : Mod.pendingSent l n :=
  ⟨h2.entries.trans h1.entries, h2.enable.trans h1.enable, h2.mask.trans h1.mask, fun o ho => h2.out o (h1.out o ho), fun v hv => h2.fewer v (h1.fewer v hv),
    fun v hv => (h2.masked v (by rw [h1.entries]; exact hv)).trans (h1.masked v hv)⟩

/-- One message that waits, sent if it may be. -/
def Mod.sendOne (m : Mod) (v : Nat) : Mod :=
  let e := kvGetD m.host.entries v .reset
  if m.host.msixEnable && !m.host.funcMask && !e.mask then
    let m1 := m.emit (.msix v e.addr e.data)
    { m1 with host := { m1.host with pba := setDel m1.host.pba v } }
  else m

theorem Mod.sendPending_eq : m.sendPending = m.host.pba.foldl Mod.sendOne m := rfl

theorem Mod.sendOne_spec (v : Nat) : Mod.pendingSent m (m.sendOne v) := by
  unfold Mod.sendOne
  extract_lets e m1 _
  split
  · next h =>
    have hmask : e.mask = false := by
      simp only [Bool.and_eq_true, Bool.not_eq_true'] at h
      exact h.2
    exact ⟨rfl, rfl, rfl, fun o ho => List.mem_append_left _ ho, fun w hw hm => hw ((mem_setDel _ _ _).1 hm).2, fun w hw =>
      (mem_setDel _ _ _).trans ⟨fun h => h.2, fun h => ⟨fun hv => by
        rw [hv] at hw
        exact Bool.noConfusion (hmask.symm.trans hw), h⟩⟩⟩
  · exact ⟨rfl, rfl, rfl, fun _ ho => ho, fun _ hw => hw, fun _ _ => Iff.rfl⟩

theorem Mod.foldl_sendOne_spec (vs : List Nat) : Mod.pendingSent m (vs.foldl Mod.sendOne m) := by
  induction vs generalizing m with
  | nil => exact ⟨rfl, rfl, rfl, fun _ h => h, fun _ h => h, fun _ _ => Iff.rfl⟩
  | cons v vs ih => exact (m.sendOne_spec v).trans (ih _)

theorem Mod.foldl_sendOne_sent (vs : List Nat) {v addr data : Nat} (hv : v ∈ vs) (he : m.host.msixEnable = true) (hf : m.host.funcMask = false)
    (hentry : kvGet? m.host.entries v = some ⟨addr, data, false⟩) :
    Out.msix v addr data ∈ (vs.foldl Mod.sendOne m).host.out ∧ v ∉ (vs.foldl Mod.sendOne m).host.pba := by
  induction vs generalizing m with
  | nil => cases hv
  | cons w ws ih =>
    by_cases hw : v = w
    · subst hw
      have hrest := (m.sendOne v).foldl_sendOne_spec ws
      have hone : m.sendOne v = { m.emit (.msix v addr data) with host := { (m.emit (.msix v addr data)).host with pba := setDel m.host.pba v } } := by
        have hd : kvGetD m.host.entries v .reset = ⟨addr, data, false⟩ := by rw [kvGetD, hentry]; rfl
        unfold Mod.sendOne
        rw [hd, he, hf]
        rfl
      refine ⟨hrest.out _ ?_, hrest.fewer _ ?_⟩
      · rw [hone]
        exact List.mem_append_right _ (List.mem_singleton.2 rfl)
      · rw [hone]
        exact fun h => ((mem_setDel _ _ _).1 h).1 rfl
    · have h1 := m.sendOne_spec w
      exact ih _ ((List.mem_cons.1 hv).resolve_left hw) (h1.enable.trans he) (h1.mask.trans hf) (by rw [h1.entries]; exact hentry)

end

/-! ### The link, DOE and MCTP -/

section
variable {s : State}

theorem execHostLinkTrained_spec {width speed : Nat} (hup : s.m.mgUp = true) (hst : s.m.pwr.started = true) (hp : s.m.pwr.perst = false)
    (hw : width ∈ [1, 2, 4, 8]) (h1 : 1 ≤ speed) (h6 : speed ≤ 6) :
    ∃ t, exec (.hostLinkTrained width speed) s = .next t ∧ t.m.host = { s.m.host with linkUp := true }
      ∧ t.m.fget Fld.TOP_LINK_WIDTH = width ∧ t.m.fget Fld.TOP_LINK_SPEED = speed ∧ t.m.fget Fld.TOP_LINK_FLIT = (if speed = 6 then 1 else 0)
      ∧ State.sameBut [.regs, .evIn, .host] s t ∧ s.m.regsKeep [Reg.TOP_LINK.addr 0 0] t.m
      ∧ (width = 8 ∧ speed = 6 → t.m.evIn = s.m.evIn)
      ∧ (width ≠ 8 ∨ speed ≠ 6 → t.m.reports .corrected 0x0D01 0 (t.m.regs.read Reg.TOP_LINK 0 0) 0 0) := by
  have hw8 : width ≤ 8 := by
    simp only [List.mem_cons, List.not_mem_nil, or_false] at hw
    omega
  have hs1 := s.m.sameBut_host { s.m.host with linkUp := true }
  obtain ⟨m1, e1⟩ : ∃ m1 : Mod, m1 = { s.m with host := { s.m.host with linkUp := true } } := ⟨_, rfl⟩
  have hh1 : m1.host = { s.m.host with linkUp := true } := by rw [e1]
  have hr1 : m1.regs = s.m.regs := by rw [e1]
  rw [← e1] at hs1
  obtain ⟨m2, e2⟩ : ∃ m2 : Mod, m2 = ((m1.fset Fld.TOP_LINK_WIDTH width).fset Fld.TOP_LINK_SPEED speed).fset Fld.TOP_LINK_FLIT (if speed = 6 then 1 else 0) := ⟨_, rfl⟩
  have hs2 : Mod.sameBut [.regs] m1 m2 := e2 ▸ Mod.sameBut_trans (Mod.sameBut_trans (Mod.fset_sameBut _ _ _ _ _) (Mod.fset_sameBut _ _ _ _ _)) (Mod.fset_sameBut _ _ _ _ _)
  have hkeep : s.m.regsKeep [Reg.TOP_LINK.addr 0 0] m2 := by
    rw [e2]
    exact Mod.regsKeep_trans (Mod.regsKeep_trans (Mod.regsKeep_trans (Mod.regsKeep_of_regs_eq hr1 _) (Mod.fset_regsKeep _ Fld.TOP_LINK_WIDTH _ 0 0))
      (Mod.fset_regsKeep _ Fld.TOP_LINK_SPEED _ 0 0)) (Mod.fset_regsKeep _ Fld.TOP_LINK_FLIT _ 0 0)
  have hwidth : m2.fget Fld.TOP_LINK_WIDTH = width := by
    rw [e2, Mod.fget_fset_otherField _ Fld.TOP_LINK_FLIT Fld.TOP_LINK_WIDTH _ _ _ rfl (by decide) (by decide),
      Mod.fget_fset_otherField _ Fld.TOP_LINK_SPEED Fld.TOP_LINK_WIDTH _ _ _ rfl (by decide) (by decide), Mod.fget_fset_same _ _ _ _ _ (by decide)]
    exact Nat.mod_eq_of_lt (Nat.lt_of_le_of_lt hw8 (by decide))
  have hspeed : m2.fget Fld.TOP_LINK_SPEED = speed := by
    rw [e2, Mod.fget_fset_otherField _ Fld.TOP_LINK_FLIT Fld.TOP_LINK_SPEED _ _ _ rfl (by decide) (by decide), Mod.fget_fset_same _ _ _ _ _ (by decide)]
    exact Nat.mod_eq_of_lt (Nat.lt_of_le_of_lt h6 (by decide))
  have hflit : m2.fget Fld.TOP_LINK_FLIT = if speed = 6 then 1 else 0 := by
    rw [e2, Mod.fget_fset_same _ _ _ _ _ (by decide)]
    split <;> rfl
  have hexec : exec (.hostLinkTrained width speed) s
      = .next { s with m := if width = 8 ∧ speed = 6 then m2 else m2.raise .corrected 0x0D01 0 (m2.regs.read Reg.TOP_LINK 0 0) } := by
    refine exec_on rfl ((if_pos ?_).trans (by rw [e2, e1]))
    rw [hup, hst, hp, List.contains_iff_mem.2 hw]
    simp [h1, h6]
  have hfield : ∀ {n : Mod}, n.regs = m2.regs → n.fget Fld.TOP_LINK_WIDTH = width ∧ n.fget Fld.TOP_LINK_SPEED = speed ∧ n.fget Fld.TOP_LINK_FLIT = (if speed = 6 then 1 else 0) := fun h => by
    simp only [Mod.fget, h]
    exact ⟨hwidth, hspeed, hflit⟩
  have hs12 : Mod.sameBut [.regs, .evIn, .host] s.m m2 := Mod.sameBut_trans (Mod.sameBut_mono hs1 (by decide)) (Mod.sameBut_mono hs2 (by decide))
  refine ⟨_, hexec, ?_⟩
  by_cases hfull : width = 8 ∧ speed = 6
  · rw [if_pos hfull]
    obtain ⟨hf1, hf2, hf3⟩ := hfield (n := m2) rfl
    exact ⟨(hs2.host (by decide)).trans hh1, hf1, hf2, hf3, ⟨rfl, rfl, hs12⟩, hkeep, fun _ => (hs2.evIn (by decide)).trans (hs1.evIn (by decide)),
      fun h => (h.elim (fun h => h hfull.1) fun h => h hfull.2).elim⟩
  · rw [if_neg hfull]
    have hs3 := m2.raise_sameBut .corrected 0x0D01 0 (m2.regs.read Reg.TOP_LINK 0 0) 0 0
    have hrep := m2.raise_reports .corrected 0x0D01 0 (m2.regs.read Reg.TOP_LINK 0 0) 0 0
    have hregs : (m2.raise .corrected 0x0D01 0 (m2.regs.read Reg.TOP_LINK 0 0)).regs = m2.regs := hs3.regs (by decide)
    generalize m2.raise .corrected 0x0D01 0 (m2.regs.read Reg.TOP_LINK 0 0) = n at hs3 hrep hregs ⊢
    obtain ⟨hf1, hf2, hf3⟩ := hfield hregs
    exact ⟨((hs3.host (by decide)).trans (hs2.host (by decide))).trans hh1, hf1, hf2, hf3, ⟨rfl, rfl, Mod.sameBut_trans hs12 (Mod.sameBut_mono hs3 (by decide))⟩,
      Mod.regsKeep_to _ hkeep hregs, fun h => (hfull h).elim, fun _ => by rw [hregs]; exact hrep⟩

theorem execDoeRequest_spec (protocol : Nat) (object : List Byte) (hup : s.m.mgUp = true) (hl : s.m.host.linkUp = true) (hp : s.m.pwr.perst = false) :
    let code := (object.getD 1 0).toNat
    let req := leNat ((object.drop 2).take 2)
    let good := decide (object.getD 0 0 = 1) && attLen code == some object.length && leNat ((object.drop 4).take 4) == object.length
    ∃ t, exec (.doeRequest protocol object) s = .next t ∧ State.sameBut [.host] s t
      ∧ (16384 < object.length ∨ s.m.host.doe.busy ≠ none ∨ 1 < protocol → t.m.host = { s.m.host with doe := ⟨none, true⟩ })
      ∧ (object.length ≤ 16384 → s.m.host.doe.busy = none → protocol = 0 →
          Out.doe 0 (doeDiscovery (object.getD 0 0).toNat) ∈ t.m.host.out ∧ t.m.host.doe = s.m.host.doe)
      ∧ (object.length ≤ 16384 → s.m.host.doe.busy = none → protocol = 1 → good = true → t.m.host = { s.m.host with doe := ⟨some req, false⟩ })
      ∧ (object.length ≤ 16384 → s.m.host.doe.busy = none → protocol = 1 → good = false →
          Out.doe (code + 0x80) (attObject req code 2 0 []) ∈ t.m.host.out ∧ t.m.host.doe = s.m.host.doe) := by
  intro code req good
  have hgate : (!(s.m.mgUp && s.m.host.linkUp && !s.m.pwr.perst)) = false := by rw [hup, hl, hp]; rfl
  have hgood : good = true ↔ (object.getD 0 0).toNat = 1 ∧ attLen code = some object.length ∧ leNat ((object.drop 4).take 4) = object.length := by
    have hbyte : object.getD 0 0 = 1 ↔ (object.getD 0 0).toNat = 1 := ⟨fun h => by rw [h]; rfl, fun h => BitVec.eq_of_toNat_eq h⟩
    simp only [good, Bool.and_eq_true, decide_eq_true_eq, beq_iff_eq, hbyte, and_assoc]
  have answered : ∀ (o : Out) (n : Mod), n = (s.m.emit o).msix 16 → Mod.sameBut [.host] s.m n ∧ o ∈ n.host.out ∧ n.host.doe = s.m.host.doe := fun o n hn => by
    obtain ⟨hdoe, hout, -⟩ := (s.m.emit o).msix_spec 16
    rw [hn]
    exact ⟨Mod.sameBut_trans (s.m.emit_sameBut o) (Mod.msix_sameBut _ _), hout _ (List.mem_append_right _ (List.mem_singleton.2 rfl)), hdoe⟩
  by_cases hbad : 16384 < object.length ∨ s.m.host.doe.busy.isSome = true ∨ 1 < protocol
  · refine ⟨_, exec_on rfl ((if_neg (by rw [hgate]; decide)).trans (if_pos hbad)), ⟨rfl, rfl, s.m.sameBut_host _⟩, fun _ => rfl, fun h1 h2 h3 => ?_, fun h1 h2 h3 => ?_,
      fun h1 h2 h3 => ?_⟩
    all_goals
      rw [h2, h3] at hbad
      simp only [Option.isSome_none, Bool.false_eq_true, false_or] at hbad
      omega
  · have hnot : ¬(16384 < object.length ∨ s.m.host.doe.busy ≠ none ∨ 1 < protocol) := fun h =>
      hbad (h.imp_right (Or.imp_left Option.isSome_iff_ne_none.2))
    by_cases h0 : protocol = 0
    · obtain ⟨hs, ho, hd⟩ := answered (.doe 0 (doeDiscovery (object.getD 0 0).toNat)) _ rfl
      refine ⟨_, exec_on rfl ((if_neg (by rw [hgate]; decide)).trans ((if_neg hbad).trans (if_pos h0))), ⟨rfl, rfl, hs⟩, fun h => (hnot h).elim, fun _ _ _ => ⟨ho, hd⟩,
        fun _ _ h => ?_, fun _ _ h => ?_⟩
      all_goals omega
    · by_cases hg : good = true
      · refine ⟨_, exec_on rfl ((if_neg (by rw [hgate]; decide)).trans ((if_neg hbad).trans ((if_neg h0).trans (if_pos (hgood.1 hg))))), ⟨rfl, rfl, s.m.sameBut_host _⟩,
          fun h => (hnot h).elim, fun _ _ h => (h0 h).elim, fun _ _ _ _ => rfl, fun _ _ _ h => Bool.noConfusion (hg.symm.trans h)⟩
      · have hobj : attObject req code 2 0 [] = leBytes 1 1 ++ leBytes 1 (code + 0x80) ++ leBytes 2 req ++ leBytes 4 12 ++ leBytes 1 2 ++ leBytes 3 0 := List.append_nil _
        obtain ⟨hs, ho, hd⟩ := answered (.doe (code + 0x80) (attObject req code 2 0 [])) _ rfl
        refine ⟨_, exec_on (n := (s.m.emit (.doe (code + 0x80) (attObject req code 2 0 []))).msix 16) rfl ((if_neg (by rw [hgate]; decide)).trans ((if_neg hbad).trans
          ((if_neg h0).trans ((if_neg fun h => hg (hgood.2 h)).trans (by rw [hobj]))))), ⟨rfl, rfl, hs⟩, fun h => (hnot h).elim, fun _ _ h => (h0 h).elim, fun _ _ _ h => (hg h).elim, fun _ _ _ _ => ⟨ho, hd⟩⟩

theorem execMctpControl_spec {sideband : Bool} (e code : Nat) (h : s.m.mctpUp sideband = true) :
    let b := bindingCode sideband
    (∃ t, exec (.mctpControl sideband (.setEid e)) s = .next t ∧ kvGet? t.m.host.eids b = some (e % 256)
      ∧ (∀ k, k ≠ b → kvGet? t.m.host.eids k = kvGet? s.m.host.eids k)
      ∧ t.m.host.out = s.m.host.out ++ [.mctp b 0 (leBytes 1 0 ++ leBytes 1 (e % 256))] ∧ State.sameBut [.host] s t) ∧
    (∃ t, exec (.mctpControl sideband .getEid) s = .next t ∧ State.sameBut [.host] s t
      ∧ t.m.host = { s.m.host with out := s.m.host.out ++ [.mctp b 0 (leBytes 1 0 ++ leBytes 1 (kvGetD s.m.host.eids b 0))] }) ∧
    (∃ t, exec (.mctpControl sideband (.other code)) s = .next t ∧ State.sameBut [.host] s t
      ∧ t.m.host = { s.m.host with out := s.m.host.out ++ [.mctp b 0 (leBytes 1 5)] }) := by
  intro b
  have hup : ¬(!s.m.mctpUp sideband) = true := by rw [h]; decide
  refine ⟨⟨_, exec_on rfl (if_neg hup), kvGet?_kvSet_same _ _ _, fun k hk => kvGet?_kvSet_other _ _ hk, rfl, rfl, rfl, ?_⟩,
    ⟨_, exec_on rfl (if_neg hup), ⟨rfl, rfl, s.m.emit_sameBut _⟩, rfl⟩, ⟨_, exec_on rfl (if_neg hup), ⟨rfl, rfl, s.m.emit_sameBut _⟩, rfl⟩⟩
  exact Mod.sameBut_trans (s.m.sameBut_host { s.m.host with eids := kvSet s.m.host.eids b (e % 256) }) (Mod.emit_sameBut _ _)

/-! ### Telemetry and the cap -/

/-- A value refused sets a sticky bit and reports. -/
theorem Mod.profileRefused_kept (m : Mod) (path : Path) (off req reason : Nat) :
    (m.profileRefused path off req reason).fget Fld.PWR_CAP_WATTS = m.fget Fld.PWR_CAP_WATTS
    ∧ (m.profileRefused path off req reason).regs.pend = m.regs.pend ∧ (m.profileRefused path off req reason).host = m.host := by
  unfold Mod.profileRefused Mod.mgmtRefused
  extract_lets m1
  have h1 : m1.regs = m.regs ∧ m1.host = m.host := by
    change (if reason = 4 then _ else _ : Mod).regs = _ ∧ (if reason = 4 then _ else _ : Mod).host = _
    split <;> exact ⟨rfl, rfl⟩
  clear_value m1
  refine ⟨?_, ?_, h1.2⟩
  · rw [Mod.fget_raise, Mod.fget_fset_otherReg _ Fld.PWR_ERR_PROFILE Fld.PWR_CAP_WATTS _ _ _ _ _ (by decide), Mod.fget, h1.1, Mod.fget]
  · exact (rfl : _ = m1.regs.pend).trans (congrArg RegFile.pend h1.1)

/-- A cap written waits for the boundary, or is refused. -/
theorem Mod.capWrite_spec (m : Mod) (path : Path) (watts : Nat) :
    let refused := m.pathRefused path || (decide (1 ≤ watts % 4096) && decide (watts % 4096 ≤ 899))
    (m.capWrite path watts).fget Fld.PWR_CAP_WATTS = m.fget Fld.PWR_CAP_WATTS ∧ (m.capWrite path watts).host = m.host
    ∧ (refused = false → kvGet? (m.capWrite path watts).regs.pend (Reg.PWR_CAP.addr 0 0) = some (watts % 4096))
    ∧ (refused = true → (m.capWrite path watts).regs.pend = m.regs.pend) := by
  intro refused
  unfold Mod.capWrite
  extract_lets off w
  by_cases hp : m.pathRefused path = true
  · rw [if_pos hp]
    obtain ⟨hf, hpend, hh⟩ := m.profileRefused_kept path off w 4
    exact ⟨hf, hh, fun h => by simp [refused, hp] at h, fun _ => hpend⟩
  rw [if_neg hp]
  by_cases hr : 1 ≤ w ∧ w ≤ 899
  · rw [if_pos hr]
    obtain ⟨hf, hpend, hh⟩ := m.profileRefused_kept path off w 5
    have hyes : refused = true := by simpa [refused] using Or.inr hr
    exact ⟨hf, hh, fun h => Bool.noConfusion (h.symm.trans hyes), fun _ => hpend⟩
  · rw [if_neg hr]
    have hno : refused = false := by
      simp only [refused, Bool.or_eq_false_iff, Bool.and_eq_false_iff, decide_eq_false_iff_not]
      exact ⟨by simpa using hp, by simp only [w] at hr; omega⟩
    refine ⟨?_, (m.wordWrite_sameBut _ _ _ _ _).host (by decide), fun _ => ?_, fun h => Bool.noConfusion (h.symm.trans hno)⟩
    · have hrow : Reg.PWR_CAP.laidOut := (table_rows Reg.PWR_CAP (by decide)).1
      have hf : (⟨11, 0, .rwp, 0⟩ : FieldSpec) ∈ Reg.PWR_CAP.fields := List.mem_singleton.2 rfl
      rw [Mod.fget, RegFile.get, show Fld.PWR_CAP_WATTS.reg = Reg.PWR_CAP from rfl, Mod.wordWrite_read]
      exact RegSpec.bitsOf_apply hrow hf _ _ _ _
    · rw [Mod.wordWrite_split]
      exact kvGet?_kvSet_same _ _ _

theorem execPldmMonitoring_spec {sideband : Bool} (sensor watts : Nat) (h : s.m.mctpUp sideband = true) :
    let b := bindingCode sideband
    let path := if sideband then Path.sideband else .vdm
    let refused := s.m.pathRefused path || (decide (1 ≤ watts % 4096) && decide (watts % 4096 ≤ 899))
    (∃ t, exec (.pldmMonitoring sideband (.readTemp sensor)) s = .next t ∧ State.sameBut [.host] s t
      ∧ t.m.host = { s.m.host with out := s.m.host.out ++ [.mctp b 1 (leBytes 1 0 ++ leBytes 2 (kvGetD s.m.pwr.temps sensor 0).toNat)] }) ∧
    (∃ t, exec (.pldmMonitoring sideband .readVoltage) s = .next t ∧ State.sameBut [.host] s t
      ∧ t.m.host = { s.m.host with out := s.m.host.out ++ [.mctp b 1 (leBytes 1 0 ++ leBytes 2 (s.m.fget Fld.PWR_INPUT_MV))] }) ∧
    (∃ t, exec (.pldmMonitoring sideband (.setCap watts)) s = .next t ∧ t.m.fget Fld.PWR_CAP_WATTS = s.m.fget Fld.PWR_CAP_WATTS
      ∧ (refused = false → kvGet? t.m.regs.pend (Reg.PWR_CAP.addr 0 0) = some (watts % 4096))
      ∧ (refused = true → t.m.regs.pend = s.m.regs.pend)
      ∧ t.m.host = { s.m.host with out := s.m.host.out ++ [.mctp b 1 (leBytes 1 (if refused then 2 else 0))] }) := by
  intro b path refused
  have hup : ¬(!s.m.mctpUp sideband) = true := by rw [h]; decide
  refine ⟨⟨_, exec_on rfl (if_neg hup), ⟨rfl, rfl, s.m.emit_sameBut _⟩, rfl⟩, ⟨_, exec_on rfl (if_neg hup), ⟨rfl, rfl, s.m.emit_sameBut _⟩, rfl⟩,
    _, exec_on rfl (if_neg hup), ?_⟩
  obtain ⟨hf, hh, h1, h2⟩ := s.m.capWrite_spec path watts
  have he : ∀ o, ((s.m.capWrite path watts).emit o).host = { s.m.host with out := s.m.host.out ++ [o] } := fun o => by rw [Mod.emit, hh]
  exact ⟨hf, h1, h2, he _⟩

/-! ### MSI-X -/

theorem execMsixUnmask_spec {v : Nat} (addr data : Nat) (hv : v < 128) :
    (∃ t, exec (.msixUnmask (.entry v addr data)) s = .next t ∧ State.sameBut [.host] s t ∧ kvGet? t.m.host.entries v = some ⟨addr, data, false⟩
      ∧ (s.m.host.msixEnable = true → s.m.host.funcMask = false → v ∈ s.m.host.pba → Out.msix v addr data ∈ t.m.host.out ∧ v ∉ t.m.host.pba)) ∧
    (∃ t, exec (.msixUnmask .function) s = .next t ∧ State.sameBut [.host] s t ∧ t.m.host.msixEnable = true ∧ t.m.host.funcMask = false
      ∧ (kvGet? s.m.host.entries v = some ⟨addr, data, false⟩ → v ∈ s.m.host.pba → Out.msix v addr data ∈ t.m.host.out ∧ v ∉ t.m.host.pba)
      ∧ ((kvGetD s.m.host.entries v .reset).mask = true → (v ∈ t.m.host.pba ↔ v ∈ s.m.host.pba))) := by
  refine ⟨⟨_, exec_on rfl (if_pos hv), ?_⟩, ⟨_, exec_on rfl rfl, ?_⟩⟩
  · have hs := s.m.sameBut_host { s.m.host with entries := kvSet s.m.host.entries v ⟨addr, data, false⟩ }
    have hspec := Mod.foldl_sendOne_spec { s.m with host := { s.m.host with entries := kvSet s.m.host.entries v ⟨addr, data, false⟩ } } s.m.host.pba
    have hentry : kvGet? (kvSet s.m.host.entries v (⟨addr, data, false⟩ : MsixEntry)) v = some ⟨addr, data, false⟩ := kvGet?_kvSet_same _ _ _
    exact ⟨⟨rfl, rfl, Mod.sameBut_trans hs (Mod.sendPending_sameBut _)⟩, (congrArg (fun es => kvGet? es v) hspec.entries).trans hentry,
      fun he hf hm => Mod.foldl_sendOne_sent _ _ hm he hf hentry⟩
  · have hs := s.m.sameBut_host { s.m.host with msixEnable := true, funcMask := false }
    have hspec := Mod.foldl_sendOne_spec { s.m with host := { s.m.host with msixEnable := true, funcMask := false } } s.m.host.pba
    exact ⟨⟨rfl, rfl, Mod.sameBut_trans hs (Mod.sendPending_sameBut _)⟩, hspec.enable, hspec.mask,
      fun hentry hm => Mod.foldl_sendOne_sent _ _ hm rfl rfl hentry, fun hm => hspec.masked v hm⟩

theorem execCoalesceExpiry_spec (cls : Nat) : ∃ t, exec (.coalesceExpiry cls) s = .next t ∧ State.sameBut [.host] s t ∧ cls ∉ t.m.host.coalDue
    ∧ (cls ∈ s.m.host.coalDue → t.m.host.coalOpen = s.m.host.coalOpen
        ∧ ∀ addr data, s.m.host.msixEnable = true → s.m.host.funcMask = false → kvGet? s.m.host.entries cls = some ⟨addr, data, false⟩ →
            t.m.host.out = s.m.host.out ++ [.msix cls addr data])
    ∧ (cls ∉ s.m.host.coalDue → cls ∉ t.m.host.coalOpen ∧ t.m.host.out = s.m.host.out) := by
  by_cases hd : cls ∈ s.m.host.coalDue
  · obtain ⟨-, -, -, hopen⟩ := s.m.msix_spec cls
    refine ⟨_, exec_on rfl (if_pos (List.contains_iff_mem.2 hd)), ⟨rfl, rfl, Mod.sameBut_trans (s.m.msix_sameBut cls) (Mod.sameBut_host _ _)⟩,
      fun h => ((mem_setDel _ _ _).1 h).1 rfl, fun _ => ⟨hopen, fun addr data he hf hv => ?_⟩, fun h => (h hd).elim⟩
    exact (congrArg (fun n : Mod => n.host.out) (s.m.msix_sent he hf hv) : (s.m.msix cls).host.out = _)
  · exact ⟨_, exec_on rfl (if_neg fun h => hd (List.contains_iff_mem.1 h)), ⟨rfl, rfl, s.m.sameBut_host _⟩, hd, fun h => (hd h).elim,
      fun _ => ⟨fun h => ((mem_setDel _ _ _).1 h).1 rfl, rfl⟩⟩

end

/-- Settles O51: the commands of the host port. -/
theorem hostPortCommands : Obligations.HostPortCommands := by
  unfold Obligations.HostPortCommands
  exact ⟨fun _ _ _ hup hst hp hw h1 h6 => execHostLinkTrained_spec hup hst hp hw h1 h6, fun _ protocol object hup hl hp => execDoeRequest_spec protocol object hup hl hp,
    fun _ => rfl, fun _ _ e code h => execMctpControl_spec e code h, fun s addr h => exec_on rfl (if_pos h), fun _ _ sensor watts h => execPldmMonitoring_spec sensor watts h,
    fun _ _ addr data hv => execMsixUnmask_spec addr data hv, fun _ cls => execCoalesceExpiry_spec cls⟩

end Sys2Proof.Machine
end

section
/-! PROOF. The statement of event records (14_host_interface.md R373 to R378, 20_events.md R488 to R490). -/

namespace Sys2Proof.Machine

/-! ### Records counted -/

section
variable (m : Mod)

theorem Mod.fget_fcount_same (f : Fld) (n i j : Nat) (h : f.lo ≤ f.hi) : (m.fcount f n i j).fget f i j = (m.fget f i j + n) % 2 ^ (f.hi + 1 - f.lo) :=
  Mod.fget_fset_same _ _ _ _ _ h

theorem Mod.traceTrigger_regsKeep : m.regsKeep [Reg.DBG_STATUS.base] m.traceTrigger := by
  unfold Mod.traceTrigger
  split
  · exact m.fset_regsKeep Fld.DBG_STATUS_TRACE_TRIG 1 0 0
  · exact Mod.regsKeep_of_regs_eq rfl _

theorem EvClass.code_lt (c : EvClass) : c.code < 4 := by cases c <;> decide

/-- The class counts lie apart from the event unit's other registers. -/
theorem EvClass.count_apart (c : EvClass) : Reg.EVT_CLASS_COUNT.addr c.code 0 ∉ [Reg.EVT_ALIVE.base, Reg.EVT_LOG_HEAD.base, Reg.EVT_DROPPED.base, Reg.NUM_DROPPED.base,
    Reg.DBG_TRACE_PTR.base, Reg.DBG_STATUS.base] := by cases c <;> decide

/-- A record produced: ALIVE and its class count advance. -/
theorem Mod.produced_spec (c : EvClass) : (m.produced c).fget Fld.EVT_ALIVE_NEXT = (m.fget Fld.EVT_ALIVE_NEXT + 1) % 2 ^ 32
    ∧ (m.produced c).fget Fld.EVT_CLASS_COUNT_COUNT c.code = min (m.fget Fld.EVT_CLASS_COUNT_COUNT c.code + 1) 0xFFFFFFFF
    ∧ m.regsKeep [Reg.EVT_ALIVE.base, Reg.EVT_CLASS_COUNT.addr c.code 0] (m.produced c) := by
  have hne := c.count_apart
  simp only [List.mem_cons, List.not_mem_nil, not_or, or_false] at hne
  obtain ⟨hne, -⟩ := hne
  refine ⟨?_, ?_, ?_⟩
  · rw [Mod.produced, Mod.fsat, Mod.fget_fset_otherReg _ Fld.EVT_CLASS_COUNT_COUNT Fld.EVT_ALIVE_NEXT _ _ _ _ _ (Ne.symm hne)]
    exact m.fget_fcount_same Fld.EVT_ALIVE_NEXT 1 0 0 (by decide)
  · rw [Mod.produced, Mod.fget_fsat_same _ Fld.EVT_CLASS_COUNT_COUNT 1 _ _ (by decide) (by decide), Mod.fcount,
      Mod.fget_fset_otherReg _ Fld.EVT_ALIVE_NEXT Fld.EVT_CLASS_COUNT_COUNT _ _ _ _ _ hne]
    rfl
  · exact Mod.regsKeep_trans (Mod.regsKeep_mono (m.fset_regsKeep Fld.EVT_ALIVE_NEXT _ 0 0) (by simp [Fld.EVT_ALIVE_NEXT, RegSpec.addr]))
      (Mod.regsKeep_mono (Mod.fset_regsKeep _ Fld.EVT_CLASS_COUNT_COUNT _ _ 0) (by simp [Fld.EVT_CLASS_COUNT_COUNT]))

/-- A record accepted: it is counted and takes an index of the log. -/
theorem Mod.recordIn_spec (r : EvRec) : (m.recordIn r).fget Fld.EVT_ALIVE_NEXT = (m.fget Fld.EVT_ALIVE_NEXT + 1) % 2 ^ 32
    ∧ (m.recordIn r).fget Fld.EVT_CLASS_COUNT_COUNT r.cls.code = min (m.fget Fld.EVT_CLASS_COUNT_COUNT r.cls.code + 1) 0xFFFFFFFF
    ∧ (m.recordIn r).fget Fld.EVT_LOG_HEAD_INDEX = (m.fget Fld.EVT_LOG_HEAD_INDEX + 1) % 2 ^ 32
    ∧ (m.recordIn r).fget Fld.EVT_DROPPED_COUNT = m.fget Fld.EVT_DROPPED_COUNT := by
  obtain ⟨hal, hcls, hkeep⟩ := m.produced_spec r.cls
  have hne := r.cls.count_apart
  simp only [List.mem_cons, List.not_mem_nil, not_or, or_false] at hne
  obtain ⟨-, hhead, hdrop, -, hptr, hst⟩ := hne
  unfold Mod.recordIn
  extract_lets m1 m2 trig
  have h1 : m1.fget Fld.EVT_LOG_HEAD_INDEX = (m.fget Fld.EVT_LOG_HEAD_INDEX + 1) % 2 ^ 32 := by
    refine (Mod.fget_fcount_same _ Fld.EVT_LOG_HEAD_INDEX 1 0 0 (by decide)).trans ?_
    rw [Mod.regsKeep_fget hkeep Fld.EVT_LOG_HEAD_INDEX 0 0 (by
      simp only [List.mem_cons, List.not_mem_nil, or_false, not_or]
      exact ⟨by decide, Ne.symm hhead⟩)]
    rfl
  have hk1 : (m.produced r.cls).regsKeep [Reg.EVT_LOG_HEAD.base] m1 := (m.produced r.cls).fset_regsKeep Fld.EVT_LOG_HEAD_INDEX _ 0 0
  have hk2 : m1.regsKeep [Reg.DBG_TRACE_PTR.base] m2 := m1.trace_regsKeep _ _ _ _ _ _
  have hk3 : m2.regsKeep [Reg.DBG_STATUS.base] (if trig ≠ 0 ∧ trig = r.code then m2.traceTrigger else m2) := by
    split
    · exact m2.traceTrigger_regsKeep
    · exact Mod.regsKeep_of_regs_eq rfl _
  clear_value m1 m2 trig
  have hk : ∀ (f : Fld) (i : Nat), f.reg.addr i 0 ≠ Reg.DBG_TRACE_PTR.base → f.reg.addr i 0 ≠ Reg.DBG_STATUS.base →
      (if trig ≠ 0 ∧ trig = r.code then m2.traceTrigger else m2).fget f i = m1.fget f i := fun f i ha hb => by
    rw [Mod.regsKeep_fget hk3 f i 0 (fun h => hb (List.mem_singleton.1 h)), Mod.regsKeep_fget hk2 f i 0 (fun h => ha (List.mem_singleton.1 h))]
  refine ⟨?_, ?_, ?_, ?_⟩
  · rw [hk _ _ (by decide) (by decide), Mod.regsKeep_fget hk1 _ _ _ (by decide), hal]
  · rw [hk _ _ hptr hst, Mod.regsKeep_fget hk1 _ _ _ (fun h => hhead (List.mem_singleton.1 h)), hcls]
  · rw [hk _ _ (by decide) (by decide), h1]
  · rw [hk _ _ (by decide) (by decide), Mod.regsKeep_fget hk1 _ _ _ (by decide), Mod.regsKeep_fget hkeep _ _ _ (by
      simp only [List.mem_cons, List.not_mem_nil, or_false, not_or]
      exact ⟨by decide, Ne.symm hdrop⟩)]

theorem Mod.countDrop_spec : m.countDrop.fget Fld.EVT_DROPPED_COUNT = min (m.fget Fld.EVT_DROPPED_COUNT + 1) 0xFFFFFFFF
    ∧ m.regsKeep [Reg.EVT_DROPPED.base] m.countDrop :=
  ⟨m.fget_fsat_same Fld.EVT_DROPPED_COUNT 1 0 0 (by decide) (by decide), m.fset_regsKeep Fld.EVT_DROPPED_COUNT _ 0 0⟩

end

/-! ### Records accepted and dropped -/

theorem EvClass.droppable_iff (c : EvClass) : c.droppable = true ↔ c.code < 2 := by cases c <;> decide

theorem takeDroppable_split {a b : List EvRec} {d : EvRec} (hd : d.cls.code < 2) (ha : ∀ q ∈ a, 2 ≤ q.cls.code) : takeDroppable (a ++ d :: b) = some (d, a ++ b) := by
  induction a with
  | nil => exact if_pos (d.cls.droppable_iff.2 hd)
  | cons q qs ih =>
    have hq : ¬q.cls.droppable = true := fun h => Nat.not_lt.2 (ha q List.mem_cons_self) (q.cls.droppable_iff.1 h)
    rw [List.cons_append, takeDroppable, if_neg hq, ih fun x hx => ha x (List.mem_cons_of_mem _ hx)]
    rfl

theorem takeDroppable_none {a : List EvRec} (ha : ∀ q ∈ a, 2 ≤ q.cls.code) : takeDroppable a = none := by
  induction a with
  | nil => rfl
  | cons q qs ih =>
    have hq : ¬q.cls.droppable = true := fun h => Nat.not_lt.2 (ha q List.mem_cons_self) (q.cls.droppable_iff.1 h)
    rw [takeDroppable, if_neg hq, ih fun x hx => ha x (List.mem_cons_of_mem _ hx)]

section
variable {s : State}

theorem execEventProduced_some (hup : s.m.mgUp = true) {r : EvRec} {rest : List EvRec} (he : s.m.evIn = r :: rest) : exec .eventProduced s
    = if s.evq.accepted < acceptLimit then .next (State.accept { s with evq := { s.evq with accepted := s.evq.accepted + 1 }, m := { s.m with evIn := rest } } r)
      else match takeDroppable (r :: rest) with
        | some (d, rest) => .next (State.dropRec { s with m := { s.m with evIn := rest } } d)
        | none => .next s := by
  change execEventProduced s = _
  rw [execEventProduced, if_neg (by rw [hup]; decide), he] <;> rfl

/-- A record logged leaves the queue. -/
theorem EvtUnit.logIn_spec (e : EvtUnit) (ix : Nat) (q : EvRec) : (e.logIn ix q).accepted = e.accepted ∧ (e.logIn ix q).queue = e.queue
    ∧ (e.logIn ix q).dropsSince = e.dropsSince ∧ (e.logIn ix q).log = lastN 4096 (e.log ++ [(ix, q)])
    ∧ (e.logIn ix q).tail = if q.cls = .device ∧ q.prior = false then lastN 32 (e.tail ++ [q]) else e.tail := by
  have hlog : e.logIn ix q = { e with log := lastN logSize (e.log ++ [(ix, q)]), tail := if q.cls = .device ∧ !q.prior then lastN tailSize (e.tail ++ [q]) else e.tail } := by
    rw [EvtUnit.logIn]
  have h32 : tailSize = 32 := by decide
  have h4096 : logSize = 4096 := by decide
  rw [hlog, h4096, h32]
  dsimp only
  refine ⟨rfl, rfl, rfl, rfl, ?_⟩
  by_cases hq : q.cls = .device ∧ q.prior = false
  · rw [if_pos hq, if_pos ⟨hq.1, by rw [hq.2]; rfl⟩]
  · rw [if_neg hq, if_neg fun h => hq ⟨h.1, by simpa using h.2⟩]

theorem EvtUnit.enqueue_room {e : EvtUnit} (h : e.others < 1023) (q : EvRec) : e.enqueue q = { e with queue := e.queue ++ [q] } := if_pos h

theorem EvtUnit.enqueue_full {e : EvtUnit} (h : ¬e.others < 1023) (q : EvRec) : e.enqueue q = { e with dropsSince := e.dropsSince + 1 } := if_neg h

/-- An accepted record, its log entry given. -/
theorem State.accept_eq (u : State) (r : EvRec) {q : EvRec} (hq : { r with alive := u.m.fget Fld.EVT_ALIVE_NEXT } = q) {e : EvtUnit}
    (he : u.evq.logIn (u.m.fget Fld.EVT_LOG_HEAD_INDEX) q = e) :
    u.accept r = if u.m.sec.recovery then { u with evq := e, m := u.m.recordIn r }
      else { u with evq := e.enqueue q, m := if e.others < 1023 then u.m.recordIn r else (u.m.recordIn r).countDrop } := by
  subst hq he
  rfl

/-- What an accepted record `q` leaves in `t`, the log entry having gone to `head`. -/
def State.Accepted (u t : State) (r q : EvRec) (head : Nat) : Prop :=
  t.m.evIn = u.m.evIn ∧ t.evq.accepted = u.evq.accepted ∧ t.pending = u.pending
    ∧ t.m.fget Fld.EVT_ALIVE_NEXT = (u.m.fget Fld.EVT_ALIVE_NEXT + 1) % 2 ^ 32
    ∧ t.m.fget Fld.EVT_LOG_HEAD_INDEX = (u.m.fget Fld.EVT_LOG_HEAD_INDEX + 1) % 2 ^ 32
    ∧ t.m.fget Fld.EVT_CLASS_COUNT_COUNT r.cls.code = min (u.m.fget Fld.EVT_CLASS_COUNT_COUNT r.cls.code + 1) 0xFFFFFFFF
    ∧ t.evq.log = lastN 4096 (u.evq.log ++ [(head, q)])
    ∧ t.evq.tail = (if q.cls = .device ∧ q.prior = false then lastN 32 (u.evq.tail ++ [q]) else u.evq.tail)
    ∧ (u.m.sec.recovery = false → u.evq.others < 1023 → t.evq.queue = u.evq.queue ++ [q] ∧ t.evq.dropsSince = u.evq.dropsSince
        ∧ t.m.fget Fld.EVT_DROPPED_COUNT = u.m.fget Fld.EVT_DROPPED_COUNT)
    ∧ (u.m.sec.recovery = false → 1023 ≤ u.evq.others → t.evq.queue = u.evq.queue ∧ t.evq.dropsSince = u.evq.dropsSince + 1
        ∧ t.m.fget Fld.EVT_DROPPED_COUNT = min (u.m.fget Fld.EVT_DROPPED_COUNT + 1) 0xFFFFFFFF)
    ∧ Mod.sameBut [.regs, .dbg] u.m t.m

section
variable {u t : State} {r q : EvRec} {head : Nat} {e1 : EvtUnit}
variable (he : e1.accepted = u.evq.accepted ∧ e1.queue = u.evq.queue ∧ e1.dropsSince = u.evq.dropsSince
  ∧ e1.log = lastN 4096 (u.evq.log ++ [(head, q)]) ∧ e1.tail = if q.cls = .device ∧ q.prior = false then lastN 32 (u.evq.tail ++ [q]) else u.evq.tail)
include he

theorem State.accepted_recovery (hrec : u.m.sec.recovery = true) : u.Accepted { u with evq := e1, m := u.m.recordIn r } r q head := by
  obtain ⟨eacc, -, -, elog, etail⟩ := he
  obtain ⟨hal, hcls, hhead, -⟩ := u.m.recordIn_spec r
  have hs := u.m.recordIn_sameBut r
  exact ⟨hs.evIn (by decide), eacc, rfl, hal, hhead, hcls, elog, etail, fun h => Bool.noConfusion (h.symm.trans hrec),
    fun h => Bool.noConfusion (h.symm.trans hrec), hs⟩

theorem State.accepted_room (hroom : u.evq.others < 1023) :
    u.Accepted { u with evq := { e1 with queue := e1.queue ++ [q] }, m := u.m.recordIn r } r q head := by
  obtain ⟨eacc, equeue, edrops, elog, etail⟩ := he
  obtain ⟨hal, hcls, hhead, hdrop⟩ := u.m.recordIn_spec r
  have hs := u.m.recordIn_sameBut r
  exact ⟨hs.evIn (by decide), eacc, rfl, hal, hhead, hcls, elog, etail, fun _ _ => ⟨congrArg (· ++ [q]) equeue, edrops, hdrop⟩,
    fun _ h => (Nat.not_le.2 hroom h).elim, hs⟩

theorem State.accepted_full (hroom : ¬u.evq.others < 1023) :
    u.Accepted { u with evq := { e1 with dropsSince := e1.dropsSince + 1 }, m := (u.m.recordIn r).countDrop } r q head := by
  obtain ⟨eacc, equeue, edrops, elog, etail⟩ := he
  obtain ⟨hal, hcls, hhead, hdrop⟩ := u.m.recordIn_spec r
  obtain ⟨hc1, hc2⟩ := (u.m.recordIn r).countDrop_spec
  have hsd : Mod.sameBut [.regs, .dbg] u.m (u.m.recordIn r).countDrop := Mod.sameBut_trans (u.m.recordIn_sameBut r) (Mod.sameBut_mono (Mod.countDrop_sameBut _) (by decide))
  have hne := r.cls.count_apart
  simp only [List.mem_cons, List.not_mem_nil, not_or, or_false] at hne
  refine ⟨hsd.evIn (by decide), eacc, rfl, ?_, ?_, ?_, elog, etail, fun _ h => (hroom h).elim, fun _ _ => ⟨equeue, congrArg (· + 1) edrops, ?_⟩, hsd⟩
  · exact (Mod.regsKeep_fget hc2 Fld.EVT_ALIVE_NEXT 0 0 (by decide)).trans hal
  · exact (Mod.regsKeep_fget hc2 Fld.EVT_LOG_HEAD_INDEX 0 0 (by decide)).trans hhead
  · exact (Mod.regsKeep_fget hc2 Fld.EVT_CLASS_COUNT_COUNT _ 0 (fun h => hne.2.2.1 (List.mem_singleton.1 h))).trans hcls
  · exact hc1.trans (by rw [hdrop])

end

/-- A record within the tick's limit. -/
theorem State.accept_spec (u : State) (r : EvRec) :
    u.Accepted (u.accept r) r { r with alive := u.m.fget Fld.EVT_ALIVE_NEXT } (u.m.fget Fld.EVT_LOG_HEAD_INDEX) := by
  generalize hq : ({ r with alive := u.m.fget Fld.EVT_ALIVE_NEXT } : EvRec) = q
  have he := u.evq.logIn_spec (u.m.fget Fld.EVT_LOG_HEAD_INDEX) q
  generalize he1 : u.evq.logIn (u.m.fget Fld.EVT_LOG_HEAD_INDEX) q = e1 at he
  have hoth : e1.others = u.evq.others := by rw [EvtUnit.others, he.2.1, ← EvtUnit.others]
  rw [u.accept_eq r hq he1, hoth]
  by_cases hrec : u.m.sec.recovery = true
  · rw [if_pos hrec]
    exact u.accepted_recovery he hrec
  · rw [if_neg hrec]
    by_cases hroom : u.evq.others < 1023
    · rw [EvtUnit.enqueue_room (hoth ▸ hroom), if_pos hroom]
      exact u.accepted_room he hroom
    · rw [EvtUnit.enqueue_full (hoth ▸ hroom), if_neg hroom]
      exact u.accepted_full he hroom

/-- A record dropped. -/
theorem State.dropRec_spec (u : State) (d : EvRec) : (u.dropRec d).m.evIn = u.m.evIn ∧ (u.dropRec d).evq = { u.evq with dropsSince := u.evq.dropsSince + 1 }
    ∧ (u.dropRec d).m.fget Fld.EVT_ALIVE_NEXT = (u.m.fget Fld.EVT_ALIVE_NEXT + 1) % 2 ^ 32
    ∧ (u.dropRec d).m.fget Fld.EVT_DROPPED_COUNT = min (u.m.fget Fld.EVT_DROPPED_COUNT + 1) 0xFFFFFFFF
    ∧ (d.block = 5 → (u.dropRec d).m.fget Fld.NUM_DROPPED_COUNT = min (u.m.fget Fld.NUM_DROPPED_COUNT + 1) 0xFFFFFFFF)
    ∧ (u.dropRec d).m.fget Fld.EVT_LOG_HEAD_INDEX = u.m.fget Fld.EVT_LOG_HEAD_INDEX := by
  obtain ⟨hal, -, hkeep⟩ := u.m.produced_spec d.cls
  obtain ⟨hc1, hc2⟩ := (u.m.produced d.cls).countDrop_spec
  have hne := d.cls.count_apart
  simp only [List.mem_cons, List.not_mem_nil, not_or, or_false] at hne
  obtain ⟨-, hhead, hdrop, hnum, -⟩ := hne
  have hs : Mod.sameBut [.regs] u.m (u.m.produced d.cls).countDrop := Mod.sameBut_trans (u.m.produced_sameBut _) (Mod.countDrop_sameBut _)
  have hkeepf : ∀ f : Fld, f.reg.addr 0 0 ≠ Reg.EVT_ALIVE.base → f.reg.addr 0 0 ≠ Reg.EVT_CLASS_COUNT.addr d.cls.code 0 →
      (u.m.produced d.cls).fget f = u.m.fget f := fun f h1 h2 => Mod.regsKeep_fget hkeep f 0 0 (by simpa using ⟨h1, h2⟩)
  have hd : ∀ f : Fld, f.reg.addr 0 0 ≠ Reg.EVT_DROPPED.base → (u.m.produced d.cls).countDrop.fget f = (u.m.produced d.cls).fget f := fun f h =>
    Mod.regsKeep_fget hc2 f 0 0 (fun hm => h (List.mem_singleton.1 hm))
  have halive := (hd Fld.EVT_ALIVE_NEXT (by decide)).trans hal
  have hlog := (hd Fld.EVT_LOG_HEAD_INDEX (by decide)).trans (hkeepf Fld.EVT_LOG_HEAD_INDEX (by decide) (Ne.symm hhead))
  have hcount := hc1.trans (by rw [hkeepf Fld.EVT_DROPPED_COUNT (by decide) (Ne.symm hdrop)])
  have hnumd := (hd Fld.NUM_DROPPED_COUNT (by decide)).trans (hkeepf Fld.NUM_DROPPED_COUNT (by decide) (Ne.symm hnum))
  unfold State.dropRec
  dsimp only
  generalize (u.m.produced d.cls).countDrop = m1 at hs halive hlog hcount hnumd ⊢
  by_cases hb : d.block = 5
  · rw [if_pos hb]
    have hk := m1.fset_regsKeep Fld.NUM_DROPPED_COUNT (min (m1.fget Fld.NUM_DROPPED_COUNT + 1) Fld.NUM_DROPPED_COUNT.max) 0 0
    exact ⟨((m1.fsat_sameBut _ _ _ _).evIn (by decide)).trans (hs.evIn (by decide)), rfl, (Mod.regsKeep_fget hk _ _ _ (by decide)).trans halive,
      (Mod.regsKeep_fget hk _ _ _ (by decide)).trans hcount, fun _ => (m1.fget_fsat_same Fld.NUM_DROPPED_COUNT 1 0 0 (by decide) (by decide)).trans (by rw [hnumd, show Fld.NUM_DROPPED_COUNT.max = 0xFFFFFFFF by decide]),
      (Mod.regsKeep_fget hk _ _ _ (by decide)).trans hlog⟩
  · rw [if_neg hb]
    exact ⟨hs.evIn (by decide), rfl, halive, hcount, fun h => (hb h).elim, hlog⟩

/-- The event unit with the record `r` announcing its drops in the log at `head` and in the queue. -/
def EvtUnit.announce (e : EvtUnit) (head : Nat) (r : EvRec) : EvtUnit :=
  { e.logIn head r with queue := (e.logIn head r).queue ++ [r], dropsSince := 0 }

theorem EvtUnit.announce_spec (e : EvtUnit) (head : Nat) (r : EvRec) : (e.announce head r).queue = e.queue ++ [r] ∧ (e.announce head r).dropsSince = 0
    ∧ (e.announce head r).log = lastN 4096 (e.log ++ [(head, r)]) ∧ (e.announce head r).accepted = e.accepted := by
  obtain ⟨eacc, equeue, -, elog, -⟩ := e.logIn_spec head r
  unfold EvtUnit.announce
  generalize e.logIn head r = e1 at eacc equeue elog ⊢
  exact ⟨congrArg (· ++ [r]) equeue, rfl, elog, eacc⟩

/-- The record that announces the drops. -/
def State.dropNotice (s : State) : EvRec :=
  ⟨s.m.tick.count, 0, codeDropped, .corrected, false, 0, lo32 s.evq.dropsSince, s.m.fget Fld.EVT_DROPPED_COUNT, 0, s.m.fget Fld.EVT_ALIVE_NEXT⟩

theorem execEventDropped_eq (h : (s.m.mgUp && s.m.atBoundary && decide (0 < s.evq.dropsSince) && !s.evq.dropWaits) = true) :
    exec .eventDropped s = .next { s with m := s.m.recordIn s.dropNotice, evq := s.evq.announce (s.m.fget Fld.EVT_LOG_HEAD_INDEX) s.dropNotice } := by
  change execEventDropped s = _
  rw [execEventDropped, if_pos h]
  rfl

theorem execEventDropped_spec (hup : s.m.mgUp = true) (hb : s.m.atBoundary = true) (h0 : 0 < s.evq.dropsSince) (hw : ∀ r ∈ s.evq.queue, r.code ≠ 0x0D04) :
    ∃ t r, exec .eventDropped s = .next t ∧ t.evq.queue = s.evq.queue ++ [r] ∧ t.evq.dropsSince = 0
      ∧ r.code = 0x0D04 ∧ r.cls = .corrected ∧ r.d0 = lo32 s.evq.dropsSince ∧ r.d1 = s.m.fget Fld.EVT_DROPPED_COUNT
      ∧ r.alive = s.m.fget Fld.EVT_ALIVE_NEXT ∧ t.m.fget Fld.EVT_ALIVE_NEXT = (r.alive + 1) % 2 ^ 32
      ∧ t.evq.log = lastN 4096 (s.evq.log ++ [(s.m.fget Fld.EVT_LOG_HEAD_INDEX, r)]) ∧ t.evq.accepted = s.evq.accepted := by
  have hwait : s.evq.dropWaits = false := by
    rw [EvtUnit.dropWaits, List.any_eq_false]
    exact fun r hr h => hw r hr (beq_iff_eq.1 h)
  have hgate : (s.m.mgUp && s.m.atBoundary && decide (0 < s.evq.dropsSince) && !s.evq.dropWaits) = true := by
    rw [hup, hb, hwait, decide_eq_true h0]
    rfl
  have hex := execEventDropped_eq hgate
  obtain ⟨equeue, edrops, elog, eacc⟩ := s.evq.announce_spec (s.m.fget Fld.EVT_LOG_HEAD_INDEX) s.dropNotice
  generalize s.evq.announce (s.m.fget Fld.EVT_LOG_HEAD_INDEX) s.dropNotice = e at hex equeue edrops elog eacc
  exact ⟨_, _, hex, equeue, edrops, rfl, rfl, rfl, rfl, rfl, (s.m.recordIn_spec _).1, elog, eacc⟩

theorem execEventDropped_not (h : s.m.mgUp = false ∨ s.m.atBoundary = false ∨ s.evq.dropsSince = 0 ∨ ∃ r ∈ s.evq.queue, r.code = 0x0D04) :
    exec .eventDropped s = .next s := by
  refine if_neg fun hg => ?_
  simp only [Bool.and_eq_true, decide_eq_true_eq, Bool.not_eq_true'] at hg
  obtain ⟨⟨⟨hup, hb⟩, h0⟩, hw⟩ := hg
  rcases h with h | h | h | ⟨r, hr, hc⟩
  · exact Bool.noConfusion (h.symm.trans hup)
  · exact Bool.noConfusion (h.symm.trans hb)
  · omega
  · exact Bool.noConfusion (hw.symm.trans (List.any_eq_true.2 ⟨r, hr, beq_iff_eq.2 hc⟩))

/-! ### The ring -/

/-- The class vector of a record. -/
theorem Mod.classVector_out (m : Mod) (c : EvClass) : (m.classVector c).evIn = m.evIn
    ∧ (m.host.msixEnable = false → (m.classVector c).host.out = m.host.out ∧ (m.classVector c).host.msixEnable = false)
    ∧ (m.fget Fld.EVT_RING_CTRL_COALESCE_US = 0 → m.classVector c = m.msix c.vector) := by
  refine ⟨(m.classVector_sameBut c).evIn (by decide), fun he => ?_, fun h => if_pos h⟩
  have hm : m.msix c.vector = m := if_pos (by rw [he]; rfl)
  unfold Mod.classVector
  dsimp only
  rw [hm]
  split
  · exact ⟨rfl, he⟩
  · split <;> exact ⟨rfl, he⟩

/-- Vector 4 of a verdict, with MSI-X off or vector 4 open. -/
theorem State.verdictSend_out (u : State) : (u.m.host.msixEnable = false → u.verdictSend.m.host.out = u.m.host.out)
    ∧ (u.m.host.verdictDue = false → u.verdictSend = u)
    ∧ ∀ a4 d4, u.m.host.verdictDue = true → u.m.host.msixEnable = true → u.m.host.funcMask = false → kvGet? u.m.host.entries 4 = some ⟨a4, d4, false⟩ →
        (∀ q, q ∈ u.evq.queue ∨ q ∈ u.m.evIn → q.cls ≠ .step) → u.verdictSend.m.host.out = u.m.host.out ++ [.msix 4 a4 d4] := by
  refine ⟨fun he => ?_, fun h => if_neg (by rw [h]; exact Bool.false_ne_true), fun a4 d4 hv he hf h4 hq => ?_⟩
  · unfold State.verdictSend
    split
    · have hm : Mod.msix { u.m with host := { u.m.host with verdictDue := false } } 4 = { u.m with host := { u.m.host with verdictDue := false } } :=
        if_pos (by rw [he]; rfl)
      rw [State.on, hm]
    · rfl
  · have hw : u.stepRecordWaits = false := by
      have h1 : u.m.evIn.any (fun r => r.cls == .step) = false := List.any_eq_false.2 fun r hr h => hq r (.inr hr) (beq_iff_eq.1 h)
      have h2 : u.evq.queue.any (fun r => r.cls == .step) = false := List.any_eq_false.2 fun r hr h => hq r (.inl hr) (beq_iff_eq.1 h)
      rw [State.stepRecordWaits, h1, h2, Bool.or_self, Bool.and_false]
    have hsend : u.verdictSend = u.on (fun m => Mod.msix { m with host := { m.host with verdictDue := false } } 4) := if_pos (by rw [hv, hw]; rfl)
    rw [hsend, State.on]
    have hm := Mod.msix_sent { u.m with host := { u.m.host with verdictDue := false } } he hf h4
    rw [hm]
    rfl

theorem execRingRecordWrite_spec (hup : s.m.mgUp = true) {r : EvRec} {rest : List EvRec} (hq : s.evq.queue = r :: rest) :
    let size := 2 ^ s.m.fget Fld.EVT_RING_CTRL_LOG2_SIZE
    let prod := s.m.fget Fld.EVT_RING_PROD_INDEX
    let fill := (prod + 2 ^ 32 - s.m.fget Fld.EVT_RING_CONS_INDEX) % 2 ^ 32
    let base := s.m.fget Fld.EVT_RING_BASE_LO_ADDR * 4096 + 2 ^ 32 * s.m.fget Fld.EVT_RING_BASE_HI_ADDR
    let shadow := s.m.fget Fld.EVT_SHADOW_LO_ADDR * 4 + 2 ^ 32 * s.m.fget Fld.EVT_SHADOW_HI_ADDR
    let wrote := s.m.host.out ++ [.hostWrite (base + 32 * (prod % size)) r.bytes, .hostWrite shadow (leBytes 4 ((prod + 1) % 2 ^ 32))]
    (s.m.fget Fld.EVT_RING_CTRL_ENABLE = 1 → fill < size →
      ∃ t, exec .ringRecordWrite s = .next t ∧ t.evq = { s.evq with queue := rest } ∧ t.m.fget Fld.EVT_RING_PROD_INDEX = (prod + 1) % 2 ^ 32
        ∧ s.m.regsKeep [Reg.EVT_RING_PROD.base] t.m
        ∧ (s.m.host.msixEnable = false → t.m.host.out = wrote)
        ∧ (∀ addr data, s.m.host.msixEnable = true → s.m.host.funcMask = false → s.m.fget Fld.EVT_RING_CTRL_COALESCE_US = 0 →
            kvGet? s.m.host.entries r.cls.vector = some ⟨addr, data, false⟩ →
            (s.m.host.verdictDue = false → t.m.host.out = wrote ++ [.msix r.cls.vector addr data])
              ∧ ∀ a4 d4, s.m.host.verdictDue = true → kvGet? s.m.host.entries 4 = some ⟨a4, d4, false⟩ →
                  (∀ q, q ∈ rest ∨ q ∈ s.m.evIn → q.cls ≠ .step) →
                  t.m.host.out = wrote ++ [.msix r.cls.vector addr data, .msix 4 a4 d4])) ∧
    (s.m.fget Fld.EVT_RING_CTRL_ENABLE = 0 ∨ size ≤ fill → exec .ringRecordWrite s = .next s) := by
  intro size prod fill base shadow wrote
  have hexec : ∀ {o : Host.Outcome State Fault Refusal}, (if s.m.mgUp && s.m.ringOpen then
      let i := s.m.fget Fld.EVT_RING_PROD_INDEX
      let m1 := s.m.emit (.hostWrite (s.m.ringBase + 32 * (i % s.m.ringSize)) r.bytes)
      let m2 := m1.fcount Fld.EVT_RING_PROD_INDEX
      let m3 := m2.emit (.hostWrite m2.shadowAddr (leBytes 4 (m2.fget Fld.EVT_RING_PROD_INDEX)))
      .next (State.verdictSend { s with evq := { s.evq with queue := rest }, m := m3.classVector r.cls })
    else .next s) = o → exec .ringRecordWrite s = o := fun h => by
    change execRingRecordWrite s = _
    rw [execRingRecordWrite, hq]; exact h
  refine ⟨fun hen hfill => ?_, fun h => hexec (if_neg ?_)⟩
  · have hopen : (s.m.mgUp && s.m.ringOpen) = true := by
      rw [hup, Mod.ringOpen, hen, decide_eq_true (show s.m.ringFill < s.m.ringSize from hfill)]
      rfl
    obtain ⟨m3, hout, hhost, hprod, hkeep, hev⟩ : ∃ m3 : Mod, exec .ringRecordWrite s = .next (State.verdictSend { s with evq := { s.evq with queue := rest }, m := m3.classVector r.cls })
        ∧ m3.host = { s.m.host with out := wrote } ∧ m3.fget Fld.EVT_RING_PROD_INDEX = (prod + 1) % 2 ^ 32 ∧ s.m.regsKeep [Reg.EVT_RING_PROD.base] m3 ∧ m3.evIn = s.m.evIn := by
      refine ⟨_, hexec (if_pos hopen), ?_⟩
      dsimp only
      obtain ⟨m1, e1⟩ : ∃ m1 : Mod, m1 = s.m.emit (.hostWrite (s.m.ringBase + 32 * (s.m.fget Fld.EVT_RING_PROD_INDEX % s.m.ringSize)) r.bytes) := ⟨_, rfl⟩
      have hm1 : m1.host = { s.m.host with out := s.m.host.out ++ [.hostWrite (base + 32 * (prod % size)) r.bytes] } := by rw [e1]; rfl
      have hs1 : Mod.sameBut [.host] s.m m1 := e1 ▸ s.m.emit_sameBut _
      rw [← e1]
      have hp : (m1.fcount Fld.EVT_RING_PROD_INDEX).fget Fld.EVT_RING_PROD_INDEX = (prod + 1) % 2 ^ 32 := by
        rw [Mod.fget_fcount_same _ _ _ _ _ (by decide), hs1.fget (by decide)]
        rfl
      have hk : s.m.regsKeep [Reg.EVT_RING_PROD.base] (m1.fcount Fld.EVT_RING_PROD_INDEX) :=
        Mod.regsKeep_trans (s.m.regsKeep_sameBut hs1 rfl _) (m1.fset_regsKeep Fld.EVT_RING_PROD_INDEX _ 0 0)
      have hs2 : Mod.sameBut [.regs] m1 (m1.fcount Fld.EVT_RING_PROD_INDEX) := m1.fcount_sameBut _ _ _ _
      generalize m1.fcount Fld.EVT_RING_PROD_INDEX = m2 at hp hk hs2 ⊢
      have hsh : m2.shadowAddr = shadow := by
        rw [Mod.shadowAddr, Mod.regsKeep_fget hk _ _ _ (by decide), Mod.regsKeep_fget hk _ _ _ (by decide)]
      have hs3 := m2.emit_sameBut (.hostWrite m2.shadowAddr (leBytes 4 (m2.fget Fld.EVT_RING_PROD_INDEX)))
      refine ⟨?_, (hs3.fget (by decide) _ _ _).trans hp, Mod.regsKeep_to _ hk (hs3.regs (by decide)), ?_⟩
      · rw [Mod.emit, hsh, hp, hs2.host (by decide), hm1]
        dsimp only
        rw [List.append_assoc]
        rfl
      · rw [hs3.evIn (by decide), hs2.evIn (by decide), hs1.evIn (by decide)]
    have hcs := m3.classVector_sameBut r.cls
    obtain ⟨hevq, -, hvs⟩ := State.verdictSend_keeps { s with evq := { s.evq with queue := rest }, m := m3.classVector r.cls }
    obtain ⟨hce, hcoff, hcnow⟩ := m3.classVector_out r.cls
    obtain ⟨hvoff, hvno, hvyes⟩ := State.verdictSend_out { s with evq := { s.evq with queue := rest }, m := m3.classVector r.cls }
    refine ⟨_, hout, hevq, ?_, ?_, fun hoff => ?_, fun addr data he hf hco hv => ?_⟩
    · exact ((hvs.fget (by decide) _ _ _).trans (hcs.fget (by decide) _ _ _)).trans hprod
    · exact Mod.regsKeep_to _ (Mod.regsKeep_to _ hkeep (hcs.regs (by decide))) (hvs.regs (by decide))
    · obtain ⟨h1, h2⟩ := hcoff (by rw [hhost]; exact hoff)
      exact (hvoff h2).trans (h1.trans (by rw [hhost]))
    · have hco3 : m3.fget Fld.EVT_RING_CTRL_COALESCE_US = 0 := (Mod.regsKeep_fget hkeep _ _ _ (by decide)).trans hco
      have hsent : m3.classVector r.cls = m3.emit (.msix r.cls.vector addr data) :=
        (hcnow hco3).trans (m3.msix_sent (by rw [hhost]; exact he) (by rw [hhost]; exact hf) (by rw [hhost]; exact hv))
      have hh : (m3.classVector r.cls).host = { s.m.host with out := wrote ++ [.msix r.cls.vector addr data] } := by rw [hsent, Mod.emit, hhost]
      dsimp only at hvno hvyes
      rw [hh] at hvno hvyes
      refine ⟨fun hd => ?_, fun a4 d4 hd h4 hns => ?_⟩
      · rw [hvno hd]
        exact congrArg HostUnit.out hh
      · refine (hvyes a4 d4 hd he hf h4 fun q hq => hns q ?_).trans (List.append_assoc _ _ _)
        rw [hce, hev] at hq
        exact hq
  · rw [hup, Bool.true_and, Mod.ringOpen]
    rcases h with h | h
    · rw [h]
      exact Bool.false_ne_true
    · rw [decide_eq_false (Nat.not_lt.2 (show s.m.ringSize ≤ s.m.ringFill from h)), Bool.and_false]
      exact Bool.false_ne_true

/-! ### The log -/

theorem execEventLogRead_spec {sideband : Bool} (index v : Nat) (h : s.m.mctpUp sideband = true) :
    let said := s.m.host.out ++ [Out.mctp (bindingCode sideband) 0x7E (match kvGet? s.evq.log index with | some r => r.bytes | none => List.replicate 32 0)]
    (∃ t, exec (.eventLogRead sideband index none) s = .next t ∧ t.m.host = { s.m.host with out := said } ∧ State.sameBut [.host] s t) ∧
    (∃ t, exec (.eventLogRead sideband index (some v)) s = .next t ∧ t.m.host = { s.m.host with out := said }
      ∧ t.m.fget Fld.EVT_LOG_ACK_INDEX = (if s.m.fget Fld.EVT_LOG_ACK_INDEX ≤ lo32 v then lo32 v else s.m.fget Fld.EVT_LOG_ACK_INDEX)
      ∧ s.m.regsKeep [Reg.EVT_LOG_ACK.base] t.m) := by
  intro said
  have hshown : s.evq.shown index = match kvGet? s.evq.log index with | some r => r.bytes | none => List.replicate 32 0 := by
    rw [EvtUnit.shown]
    cases kvGet? s.evq.log index <;> rfl
  have hhost : (s.m.emit (.mctp (bindingCode sideband) 0x7E (s.evq.shown index))).host = { s.m.host with out := said } := by
    rw [Mod.emit, hshown]
  have hs := s.m.emit_sameBut (.mctp (bindingCode sideband) 0x7E (s.evq.shown index))
  refine ⟨⟨_, exec_on rfl (if_pos h), hhost, rfl, rfl, hs⟩, ⟨_, exec_on rfl (if_pos h), ?_⟩⟩
  dsimp only
  generalize s.m.emit (.mctp (bindingCode sideband) 0x7E (s.evq.shown index)) = m1 at hhost hs ⊢
  have hack : m1.fget Fld.EVT_LOG_ACK_INDEX = s.m.fget Fld.EVT_LOG_ACK_INDEX := hs.fget (by decide) _ _ _
  refine ⟨((m1.logAck_sameBut _).host (by decide)).trans hhost, ?_, ?_⟩
  · rw [Mod.logAck, hack]
    by_cases hv : lo32 v < s.m.fget Fld.EVT_LOG_ACK_INDEX
    · rw [if_pos hv, if_neg (Nat.not_le.2 hv), hack]
    · rw [if_neg hv, if_pos (Nat.not_lt.1 hv), Mod.fget_fset_same _ _ _ _ _ (by decide)]
      exact Nat.mod_mod _ _
  · refine Mod.regsKeep_trans (s.m.regsKeep_sameBut hs rfl _) ?_
    unfold Mod.logAck
    split
    · exact Mod.regsKeep_of_regs_eq rfl _
    · exact m1.fset_regsKeep Fld.EVT_LOG_ACK_INDEX _ 0 0

end

/-- Settles O53: event records from their producer to ring and log. -/
theorem eventRecords : Obligations.EventRecords := by
  unfold Obligations.EventRecords
  refine ⟨fun s r rest hup he => ?_, fun _ hup hb h0 hw => execEventDropped_spec hup hb h0 hw, fun _ h => execEventDropped_not h,
    fun _ _ _ hup hq => execRingRecordWrite_spec hup hq, fun _ _ index v h => execEventLogRead_spec index v h⟩
  intro alive r1 head
  have hexec := execEventProduced_some hup he
  refine ⟨fun hacc => ?_, fun hacc a b d hsplit hd ha => ?_, fun hacc hall => ?_⟩
  · rw [if_pos (show s.evq.accepted < acceptLimit from hacc)] at hexec
    obtain ⟨h1, h2, h3, h4, h5, h6, h7, h8, h9, h10, h11⟩ := State.accept_spec { s with evq := { s.evq with accepted := s.evq.accepted + 1 }, m := { s.m with evIn := rest } } r
    have hs : Mod.sameBut [.evIn] s.m { s.m with evIn := rest } := s.m.sameBut_evIn rest
    exact ⟨_, hexec, h1, h2, h4, h5, h6, h7, h8, h9, h10, h3, rfl, Mod.sameBut_trans (Mod.sameBut_mono hs (by decide)) (Mod.sameBut_mono h11 (by decide))⟩
  · rw [if_neg (Nat.not_lt.2 (show acceptLimit ≤ s.evq.accepted from hacc)), hsplit, takeDroppable_split hd ha] at hexec
    obtain ⟨h1, h2, h3, h4, h5, h6⟩ := State.dropRec_spec { s with m := { s.m with evIn := a ++ b } } d
    exact ⟨_, hexec, h1, h2, h3, h4, h5, h6⟩
  · rw [if_neg (Nat.not_lt.2 (show acceptLimit ≤ s.evq.accepted from hacc)), takeDroppable_none hall] at hexec
    exact hexec

end Sys2Proof.Machine
end

section
/-! PROOF. The statement of the test access port (18_debug.md R451, R453, R454). -/

namespace Sys2Proof.Machine

section
variable {s : State}

/-! ### The instructions of the TAP -/

theorem State.tap_powered (h : s.m.mgUp = true) (f : Mod → Mod) : s.tap f = { s with m := f s.m } := by
  rw [State.tap, State.on, if_pos h]

theorem exec_tap {c : Instr} {f : Mod → Mod} {n : Mod} (e : exec c s = .next (s.tap f)) (h : s.m.mgUp = true) (hn : f s.m = n) :
    exec c s = .next { s with m := n } := by
  rw [e, State.tap_powered h, hn]

theorem Mod.tapSample_spec (m : Mod) (ir : Nat) : (m.tapSample ir).dbg.tapIr = ir
    ∧ (m.tapSample ir).host.out = m.host.out ++ [.tap (Config.boundaryCells m.fresh)] ∧ (m.tapSample ir).regs = m.regs :=
  ⟨rfl, rfl, rfl⟩

/-- EXTEST, CLAMP and HIGHZ under PERST#. -/
theorem Mod.tapPins_held {m : Mod} (h : m.pwr.perst = true) (f : Mod → Mod) : m.tapPins f = f m := if_pos h

theorem Mod.tapPins_free {m : Mod} (h : m.pwr.perst = false) (f : Mod → Mod) : m.tapPins f = (m.fset Fld.DBG_ERR_EXTEST 1).tapShift 0xFF 0 :=
  if_neg (by rw [h]; decide)

/-- What the refused instructions of R454 leave. -/
theorem Mod.extestRefused_spec (m : Mod) :
    let n := (m.fset Fld.DBG_ERR_EXTEST 1).tapShift 0xFF 0
    (n.dbg.tapIr = 0xFF ∧ n.host.out = m.host.out ++ [.tap 0]) ∧ n.fget Fld.DBG_ERR_EXTEST = 1 ∧ m.regsKeep [Reg.DBG_ERR.base] n := by
  have hout : (m.fset Fld.DBG_ERR_EXTEST 1).host.out = m.host.out := by rw [(m.fset_sameBut Fld.DBG_ERR_EXTEST 1 0 0).host (by decide)]
  refine ⟨⟨rfl, congrArg (· ++ [Out.tap 0]) hout⟩, ?_, Mod.regsKeep_trans (m.fset_regsKeep Fld.DBG_ERR_EXTEST 1 0 0) (Mod.regsKeep_of_regs_eq rfl _)⟩
  exact m.fget_fset_same Fld.DBG_ERR_EXTEST 1 0 0 (by decide)

/-! ### The TAP's access -/

/-- A read of a _LO half leaves the stored words. -/
theorem State.capture_keeps (s : State) (off : Nat) : ∃ rf, s.capture off = { s with m := { s.m with regs := rf } } ∧ rf.store = s.m.regs.store := by
  unfold State.capture
  split
  · exact ⟨_, rfl, rfl⟩
  · exact ⟨s.m.regs, rfl, rfl⟩

theorem State.tapLocked_spec (s : State) (write : Bool) (off : Nat) : ∃ n, s.tapLocked write off = { s with m := n } ∧ Mod.sameBut [.regs] s.m n
    ∧ s.m.regsKeep [Reg.DBG_ERR.base] n := by
  unfold State.tapLocked
  split
  · exact ⟨_, rfl, s.m.fset_sameBut _ _ _ _, s.m.fset_regsKeep Fld.DBG_ERR_LOCKED 1 0 0⟩
  · exact ⟨s.m, rfl, Mod.sameBut_refl _ _, Mod.regsKeep_of_regs_eq rfl _⟩

theorem State.tapAccess_shut {off : Nat} {write : Bool}
    (h : bar0Aligned off = false ∨ Mod.answers { s.m with pwr := { s.m.pwr with perst := false } } off = false ∨ s.m.sec.unlock = 0 ∧ tapOpen off = false)
    (data shown : Nat) : ∃ n, s.tapAccess write off data shown = State.tapResult { s with m := n } 0xFFFFFFFF true ∧ Mod.sameBut [.regs] s.m n
      ∧ s.m.regsKeep [Reg.DBG_ERR.base] n := by
  unfold State.tapAccess
  by_cases hgate : (!bar0Aligned off || !Mod.answers { s.m with pwr := { s.m.pwr with perst := false } } off) = true
  · exact ⟨s.m, if_pos hgate, Mod.sameBut_refl _ _, Mod.regsKeep_of_regs_eq rfl _⟩
  · rw [if_neg hgate]
    have hlock : (s.m.sec.unlock == 0 && !tapOpen off) = true := by
      rcases h with h | h | ⟨hu, ho⟩
      · exact (hgate (by rw [h]; rfl)).elim
      · exact (hgate (by rw [h, Bool.not_false, Bool.or_true])).elim
      · rw [hu, ho]
        rfl
    rw [if_pos hlock]
    obtain ⟨n, hn, hs, hk⟩ := s.tapLocked_spec write off
    exact ⟨n, by rw [hn], hs, hk⟩

theorem State.tapAccess_open {off : Nat} {write : Bool}
    (h : ¬(bar0Aligned off = false ∨ Mod.answers { s.m with pwr := { s.m.pwr with perst := false } } off = false ∨ s.m.sec.unlock = 0 ∧ tapOpen off = false))
    (data shown : Nat) : s.tapAccess write off data shown
      = if write then (s.on (fun m => m.regRoute off data)).tapResult 0 false else (s.capture off).tapResult shown false := by
  simp only [not_or, not_and, Bool.not_eq_false] at h
  obtain ⟨ha, hans, hopen⟩ := h
  rw [State.tapAccess, if_neg (by rw [ha, hans]; decide), if_neg]
  rw [Bool.and_eq_true, beq_iff_eq, Bool.not_eq_true']
  exact fun hu => Bool.noConfusion (hu.2.symm.trans (hopen hu.1))

/-- The access of a read, and of the write of a register that does no more than its access codes say. -/
theorem State.tapAccess_read {off : Nat}
    (h : ¬(bar0Aligned off = false ∨ Mod.answers { s.m with pwr := { s.m.pwr with perst := false } } off = false ∨ s.m.sec.unlock = 0 ∧ tapOpen off = false))
    (data shown : Nat) : ∃ rf, s.tapAccess false off data shown = State.tapResult { s with m := { s.m with regs := rf } } shown false ∧ rf.store = s.m.regs.store := by
  obtain ⟨rf, hrf, hstore⟩ := s.capture_keeps off
  refine ⟨rf, ?_, hstore⟩
  rw [State.tapAccess_open h, if_neg (by decide), hrf]

theorem State.tapAccess_plain {off i j : Nat} {r : RegSpec}
    (h : ¬(bar0Aligned off = false ∨ Mod.answers { s.m with pwr := { s.m.pwr with perst := false } } off = false ∨ s.m.sec.unlock = 0 ∧ tapOpen off = false))
    (hp : plainReg off r i j) (hk : r.kind = .plain) (hd : s.m.disabledReg off = false) (data shown : Nat) :
    s.tapAccess true off data shown = State.tapResult { s with m := s.m.wordWrite r i j data } 0 false := by
  rw [State.tapAccess_open h, if_pos rfl, State.on, Mod.regRoute_of_plain hp hd, Mod.regWrite_plain hp.1 hk]

/-- DBG_ACCESS on a powered TAP: the access is made on the state with the last result shifted out. -/
theorem execDbgAccess_eq (hup : s.m.mgUp = true) {off : Nat} (hoff : off < 2 ^ 26) (write : Bool) (data : Nat) : exec (.dbgAccess write off data) s
    = .next (State.tapAccess { s with m := s.m.tapShift 0x10 s.m.tapCapture } write off (lo32 data) (s.regRead off)) := by
  change execDbgAccess write off data s = _
  rw [execDbgAccess, if_pos hup, Nat.mod_eq_of_lt hoff]
  rfl

theorem Mod.tapCapture_eq (m : Mod) : m.tapCapture = match m.dbg.tapLast with | some r => r.1 + 2 ^ 32 + (if r.2 then 2 ^ 33 else 0) | none => 0 := by
  rw [Mod.tapCapture]
  cases m.dbg.tapLast <;> rfl

end

/-- Settles O59: the test access port. -/
theorem testAccessPort : Obligations.TestAccessPort := by
  unfold Obligations.TestAccessPort
  refine ⟨fun s hup => ?_, fun _ => rfl, fun s write off data hup hoff => ?_⟩
  · intro shown rev
    refine ⟨⟨_, exec_tap rfl hup rfl, ⟨rfl, rfl⟩, rfl, rfl, s.m.tapShift_sameBut _ _⟩, ⟨_, exec_tap rfl hup rfl, ⟨rfl, rfl⟩, rfl, rfl, s.m.tapShift_sameBut _ _⟩,
      ⟨_, _, exec_tap rfl hup rfl, ⟨rfl, rfl⟩, rfl, rfl, s.m.tapSample_sameBut _⟩, fun hp => ⟨?_, ?_, ?_⟩, fun hp c hc => ?_⟩
    · exact ⟨_, _, exec_tap rfl hup (Mod.tapPins_held hp _), ⟨rfl, rfl⟩, rfl⟩
    · exact ⟨_, exec_tap rfl hup (Mod.tapPins_held hp _), ⟨rfl, rfl⟩, rfl⟩
    · exact ⟨_, exec_tap rfl hup (Mod.tapPins_held hp _), ⟨rfl, rfl⟩, rfl⟩
    · have hexec : exec c s = .next { s with m := (s.m.fset Fld.DBG_ERR_EXTEST 1).tapShift 0xFF 0 } := by
        simp only [List.mem_cons, List.not_mem_nil, or_false] at hc
        rcases hc with rfl | rfl | rfl <;> exact exec_tap rfl hup (Mod.tapPins_free hp _)
      exact ⟨_, hexec, s.m.extestRefused_spec⟩
  · intro live before shut
    have hcap : s.m.tapCapture = before := s.m.tapCapture_eq
    have hexec := fun (w : Bool) => execDbgAccess_eq hup hoff w data
    have hsh : Mod.sameBut [.host, .dbg] s.m (s.m.tapShift 0x10 s.m.tapCapture) := s.m.tapShift_sameBut _ _
    have hout : (s.m.tapShift 0x10 s.m.tapCapture).host.out = s.m.host.out ++ [.tap before] := by rw [← hcap]; rfl
    have hregs : (s.m.tapShift 0x10 s.m.tapCapture).regs = s.m.regs := hsh.regs (by decide)
    have hplt : (s.m.tapShift 0x10 s.m.tapCapture).plateActive = s.m.plateActive := rfl
    refine ⟨fun h => ?_, fun h => ?_, fun r i j h hplain hk hd => ?_⟩
    · obtain ⟨n, hn, hs, hkeep⟩ := State.tapAccess_shut (s := { s with m := s.m.tapShift 0x10 s.m.tapCapture }) (write := write) h (lo32 data) (s.regRead off)
      have hexec := (hexec write).trans (congrArg Host.Outcome.next hn)
      refine ⟨_, hexec, ?_, rfl, ⟨rfl, rfl, ?_⟩, ?_⟩
      · exact (congrArg HostUnit.out (hs.host (by decide))).trans hout
      · exact Mod.sameBut_trans (Mod.sameBut_mono hsh (by decide)) (Mod.sameBut_trans (Mod.sameBut_mono hs (by decide)) (Mod.sameBut_mono (n.sameBut_dbg _) (by decide)))
      · exact Mod.regsKeep_trans (Mod.regsKeep_trans (Mod.regsKeep_of_regs_eq hregs _) hkeep) (Mod.regsKeep_of_regs_eq rfl _)
    · obtain ⟨rf, hrf, hstore⟩ := State.tapAccess_read (s := { s with m := s.m.tapShift 0x10 s.m.tapCapture }) h (lo32 data) (s.regRead off)
      have hexec := (hexec false).trans (congrArg Host.Outcome.next hrf)
      refine ⟨_, hexec, hout, rfl, hstore, rfl, rfl, ?_⟩
      exact Mod.sameBut_trans (Mod.sameBut_mono hsh (by decide)) (Mod.sameBut_trans (Mod.sameBut_mono (Mod.sameBut_regs _ rf) (by decide)) (Mod.sameBut_mono (Mod.sameBut_dbg _ _) (by decide)))
    · have haddr := (Reg.at?_some hplain.1).2
      have hexec := (hexec true).trans (congrArg Host.Outcome.next (State.tapAccess_plain (s := { s with m := s.m.tapShift 0x10 s.m.tapCapture }) h hplain hk hd (lo32 data) (s.regRead off)))
      have hw := (s.m.tapShift 0x10 s.m.tapCapture).wordWrite_sameBut r i j (lo32 data)
      refine ⟨_, hexec, (congrArg HostUnit.out (hw.host (by decide))).trans hout, rfl, ?_, ?_⟩
      · exact (Mod.wordWrite_read (s.m.tapShift 0x10 s.m.tapCapture) r i j (lo32 data) 0).trans (by rw [hregs, hplt]; rfl)
      · exact Mod.regsKeep_trans (Mod.regsKeep_trans (Mod.regsKeep_of_regs_eq hregs _) (haddr ▸ Mod.wordWrite_keeps _ r i j (lo32 data) 0)) (Mod.regsKeep_of_regs_eq rfl _)

end Sys2Proof.Machine
end

section
/-! PROOF. The statement of the check-value units (15_check_units.md R383 to R390). -/

namespace Sys2Proof.Machine

/-! ### Registers of the check units -/

section
variable {m n : Mod}

theorem Mod.get64_of_regsKeep {offs : List Nat} (h : m.regsKeep offs n) (lo hi : Fld) (i : Nat) (hlo : lo.reg.addr i 0 ∉ offs) (hhi : hi.reg.addr i 0 ∉ offs) :
    n.get64 lo hi i = m.get64 lo hi i := by
  rw [Mod.get64, Mod.regsKeep_fget h lo i 0 hlo, Mod.regsKeep_fget h hi i 0 hhi, Mod.get64]

theorem Mod.set64_regsKeep (m : Mod) (lo hi : Fld) (v i : Nat) : m.regsKeep [lo.reg.addr i 0, hi.reg.addr i 0] (m.set64 lo hi v i) :=
  Mod.regsKeep_trans (Mod.regsKeep_mono (m.fset_regsKeep lo v i 0) (by simp)) (Mod.regsKeep_mono (Mod.fset_regsKeep _ hi (v / 2 ^ 32) i 0) (by simp))

theorem Mod.forBits_regsKeep (m : Mod) (f : Fld) (v i j : Nat) : m.regsKeep [f.reg.addr i j] (m.forBits f v i j) := m.fset_regsKeep f _ i j

/-- A bit set in a field is set. -/
theorem Mod.forBits_testBit (m : Mod) (f : Fld) {v : Nat} (i j : Nat) (hf : f.lo ≤ f.hi) (hv : v < f.hi + 1 - f.lo) :
    ((m.forBits f (2 ^ v) i j).fget f i j).testBit v = true := by
  rw [Mod.forBits, Mod.fget_fset_same _ _ _ _ _ hf, Nat.testBit_mod_two_pow, Nat.testBit_or, Nat.testBit_two_pow_self, decide_eq_true hv]
  simp

end

/-! ### A job's bytes -/

section
variable {x : ChkRun} {bs : List (Byte × Bool)}

theorem ChkRun.aliveStep_off (h : x.job.alive = false) (b : Byte) : x.aliveStep b = x := by
  rw [ChkRun.aliveStep]
  dsimp only
  rw [if_pos (by rw [h]; rfl)]

theorem ChkRun.aliveStep_job (x : ChkRun) (b : Byte) : (x.aliveStep b).job = x.job ∧ (x.aliveStep b).plateJob = x.plateJob := by
  unfold ChkRun.aliveStep
  extract_lets j p v
  split
  · exact ⟨rfl, rfl⟩
  · split
    · exact ⟨rfl, rfl⟩
    · split
      · split <;> exact ⟨rfl, rfl⟩
      · exact ⟨rfl, rfl⟩

theorem ChkRun.byte_job (x : ChkRun) (b : Byte × Bool) : (x.byte b).job = x.job ∧ (x.byte b).plateJob = x.plateJob := by
  unfold ChkRun.byte
  split
  · exact ⟨rfl, rfl⟩
  · split
    · exact ⟨rfl, rfl⟩
    · exact x.aliveStep_job b.1

theorem ChkRun.feed_job (x : ChkRun) (bs : List (Byte × Bool)) : (x.feed bs).job = x.job ∧ (x.feed bs).plateJob = x.plateJob := by
  induction bs generalizing x with
  | nil => exact ⟨rfl, rfl⟩
  | cons b bs ih => exact ⟨(ih (x.byte b)).1.trans (x.byte_job b).1, (ih (x.byte b)).2.trans (x.byte_job b).2⟩

/-- A job with nothing more to process takes no byte. -/
theorem ChkRun.feed_finished (h : x.finished = true) (bs : List (Byte × Bool)) : x.feed bs = x := by
  induction bs with
  | nil => rfl
  | cons b bs ih =>
    have hb : x.byte b = x := if_pos h
    rw [ChkRun.feed, List.foldl_cons, hb]
    exact ih

theorem ChkRun.not_finished (hb : x.broken = false) (hc : x.count < x.job.total) : ¬x.finished = true := by
  rw [ChkRun.finished, hb, Bool.false_or, beq_iff_eq]
  exact Nat.ne_of_lt hc

/-- A byte that is not poisoned, of a job that checks no alive counts. -/
theorem ChkRun.byte_clean (ha : x.job.alive = false) (hb : x.broken = false) (hc : x.count < x.job.total) {b : Byte × Bool} (hp : b.2 = false) :
    x.byte b = { x with crc := x.job.crcStep x.crc b.1, count := x.count + 1 } := by
  rw [ChkRun.byte, if_neg (x.not_finished hb hc), if_neg (by rw [hp]; decide)]
  dsimp only
  rw [ChkRun.aliveStep_off ha]

theorem ChkRun.feed_clean (ha : x.job.alive = false) (hb : x.broken = false) (hp : ∀ b ∈ bs, b.2 = false) (hc : x.count + bs.length ≤ x.job.total) :
    x.feed bs = { x with crc := (rdBytes bs).foldl x.job.crcStep x.crc, count := x.count + bs.length } := by
  induction bs generalizing x with
  | nil => rfl
  | cons b bs ih =>
    rw [List.length_cons] at hc
    have hbyte := ChkRun.byte_clean ha hb (by omega) (hp b List.mem_cons_self)
    rw [ChkRun.feed, List.foldl_cons, hbyte]
    refine (ih (x := { x with crc := x.job.crcStep x.crc b.1, count := x.count + 1 }) ha hb (fun c hcm => hp c (List.mem_cons_of_mem _ hcm)) ?_).trans ?_
    · change x.count + 1 + bs.length ≤ x.job.total
      omega
    · rw [List.length_cons, ← Nat.add_assoc, Nat.add_right_comm]
      rfl

/-- The first poisoned byte ends the job. -/
theorem ChkRun.feed_poisoned (ha : x.job.alive = false) (hb : x.broken = false) {k : Nat} (hk : k < bs.length) (hc : x.count + bs.length ≤ x.job.total)
    (hp : (bs.getD k (0, false)).2 = true) (hfirst : ∀ i, i < k → (bs.getD i (0, false)).2 = false) :
    (x.feed bs).poisoned = true ∧ (x.feed bs).count = x.count + k := by
  induction bs generalizing x k with
  | nil => exact (Nat.not_lt_zero _ hk).elim
  | cons b bs ih =>
    rw [List.length_cons] at hc hk
    rw [ChkRun.feed, List.foldl_cons]
    cases k with
    | zero =>
      have hbyte : x.byte b = { x with poisoned := true } := (if_neg (x.not_finished hb (by omega))).trans (if_pos hp)
      rw [hbyte]
      have hfin : ({ x with poisoned := true } : ChkRun).finished = true := by
        rw [ChkRun.finished, ChkRun.broken]
        simp
      have hend : List.foldl ChkRun.byte { x with poisoned := true } bs = _ := ChkRun.feed_finished hfin bs
      rw [hend]
      exact ⟨rfl, rfl⟩
    | succ k =>
      rw [ChkRun.byte_clean ha hb (by omega) (show b.2 = false from hfirst 0 (by omega))]
      obtain ⟨h1, h2⟩ := ih (x := { x with crc := x.job.crcStep x.crc b.1, count := x.count + 1 }) ha hb (k := k) (by omega)
        (by change x.count + 1 + bs.length ≤ x.job.total; omega) hp fun i hi => hfirst (i + 1) (by omega)
      exact ⟨h1, h2.trans (by dsimp only; omega)⟩

end

/-! ### Starts -/

section
variable {m : Mod}

theorem Mod.setChk_spec (m : Mod) (v : Nat) (x : ChkRun) : (m.setChk v x).chkRun? v = some x ∧ ∀ w, w ≠ v → (m.setChk v x).chkRun? w = m.chkRun? w :=
  ⟨kvGet?_kvSet_same _ _ _, fun _ hw => kvGet?_kvSet_other _ _ hw⟩

/-- A refused start. -/
theorem Mod.chkRefused_spec (m : Mod) {v : Nat} (hv : v < 8) (kind job : Nat) : (m.chkRefused v kind job).chk = m.chk
    ∧ ((m.chkRefused v kind job).fget Fld.CHK_ERR_REFUSED).testBit v = true ∧ (m.chkRefused v kind job).reports .corrected 0x0E04 v kind job 0
    ∧ Mod.sameBut [.regs, .evIn] m (m.chkRefused v kind job) ∧ m.regsKeep [Reg.CHK_ERR.base] (m.chkRefused v kind job) := by
  have hs := m.chkRefused_sameBut v kind job
  refine ⟨hs.chk (by decide), ?_, ?_, Mod.sameBut_mono hs (by decide), ?_⟩ <;> rw [Mod.chkRefused]
  · rw [Mod.fget_raise]
    exact m.forBits_testBit Fld.CHK_ERR_REFUSED 0 0 (by decide) hv
  · exact Mod.raise_reports _ _ _ _ _ _ _
  · have hk : m.regsKeep [Reg.CHK_ERR.base] (m.forBits Fld.CHK_ERR_REFUSED (2 ^ v)) := m.forBits_regsKeep Fld.CHK_ERR_REFUSED (2 ^ v) 0 0
    generalize m.forBits Fld.CHK_ERR_REFUSED (2 ^ v) = k at hk ⊢
    exact Mod.regsKeep_trans hk (Mod.regsKeep_of_regs_eq ((k.raise_sameBut _ _ _ _ _ _).regs (by decide)) _)

/-- A job whose scan is read, or that a lost link holds. -/
theorem Mod.chkScan_scanned {v : Nat} {x : ChkRun} (hx : m.chkRun? v = some x) (h : x.scanned = true) (ecc : Ecc) : m.chkScan v ecc = m := by
  rw [Mod.chkScan, hx]
  exact if_pos (by rw [h]; rfl)

/-- What a scan leaves of its job. -/
theorem Mod.chkScan_job {v : Nat} {x : ChkRun} (hx : m.chkRun? v = some x) (ecc : Ecc) :
    (∃ y, (m.chkScan v ecc).chkRun? v = some y ∧ y.job = x.job ∧ y.plateJob = x.plateJob) ∧ (m.chkScan v ecc).chk.started = m.chk.started := by
  rw [Mod.chkScan, hx]
  dsimp only
  split
  · exact ⟨⟨x, hx, rfl, rfl⟩, rfl⟩
  · refine ⟨⟨_, (Mod.setChk_spec _ _ _).1, (x.feed_job _).1, (x.feed_job _).2⟩, ?_⟩
    have hs := Mod.sameBut_trans (Mod.sameBut_mono (m.yard_sameBut .check x.job.addr x.job.len false) (by decide))
      (Mod.sameBut_mono (Mod.readDev_sameBut _ x.plateJob.isSome [(x.job.addr, x.job.len)] ecc) (show _ ⊆ [Part.regs, .evIn, .cores, .step, .mem, .dbg] by decide))
    have hstarted := congrArg ChkUnit.started (hs.chk (by decide))
    exact hstarted

/-- A scan that no lost link holds. -/
theorem Mod.chkScan_read {v : Nat} {x : ChkRun} (hx : m.chkRun? v = some x) (hn : x.scanned = false) (hh : m.heldPort x.job.addr x.job.len = none) :
    let y := x.feed ((m.yard .check x.job.addr x.job.len false).devRead x.job.addr x.job.len)
    (m.chkScan v noEcc).chkRun? v = some { y with scanned := true, st := if x.job.mode = .scanSnoop && !y.broken then ChkState.waitAttach else .scan }
      ∧ (m.chkScan v noEcc).mem = m.mem := by
  intro y
  have hread : ∀ b : Bool, Mod.quiet (m.yard .check x.job.addr x.job.len false) ((m.yard .check x.job.addr x.job.len false).readDev b [(x.job.addr, x.job.len)] noEcc) := fun b => by
    have e : (m.yard .check x.job.addr x.job.len false).readDev b [(x.job.addr, x.job.len)] noEcc = _ :=
      congrArg (Mod.loftMet · b [(x.job.addr, x.job.len)]) (Mod.eccDev_noEcc _ b [(x.job.addr, x.job.len)])
    rw [e]
    exact Mod.loftMet_quiet _ _ _
  rw [Mod.chkScan, hx]
  dsimp only
  rw [if_neg (by rw [hn, hh]; decide), (hread _).devRead]
  refine ⟨(Mod.setChk_spec _ _ _).1, ?_⟩
  exact ((hread _).mem).trans ((m.yard_sameBut _ _ _ _).mem (by decide))

end

/-! ### Endings -/

/-- A job's end written to its unit's registers. -/
def Mod.chkNoted (m : Mod) (v : Nat) (x : ChkRun) (outcome : Nat) : Mod :=
  let m0 := { m with chk := { m.chk with runs := kvDel m.chk.runs v } }
  let m1 := (m0.set64 Fld.CHK_RESULT_LO_RESULT Fld.CHK_RESULT_HI_RESULT x.result v).set64 Fld.CHK_DONE_LO_DONE Fld.CHK_DONE_HI_DONE
    x.count v
  let m1a := match x.lastAlive with
    | some a => m1.fset Fld.CHK_ALIVE_LAST a v
    | none => m1
  (m1a.fset Fld.CHK_STATUS_OUTCOME outcome v).fset Fld.CHK_STATUS_PLATE x.plateJob.isSome.toNat v

/-- The errors of a job's end, with their events. -/
def Mod.chkTold (m : Mod) (v : Nat) (x : ChkRun) : Nat → Mod
  | 2 => (m.forBits Fld.CHK_ERR_MISMATCH (2 ^ v)).chkEvent v x 0x0E01 (lo32 x.result) (hi32 x.result) x.plateJob.isSome.toNat
  | 3 => ((m.fset Fld.CHK_BAD_REC_BAD_REC (x.bad.getD 0) v).forBits Fld.CHK_ERR_ALIVE (2 ^ v)).chkEvent v x 0x0E02 (x.bad.getD 0) (x.alive + 2 ^ 16 * x.found) 0
  | 4 => (m.forBits Fld.CHK_ERR_POISON (2 ^ v)).chkEvent v x 0x0E03 (lo32 x.count) 0 0
  | _ => m

theorem Mod.chkEnd_eq (m : Mod) (v : Nat) (x : ChkRun) (outcome : Nat) : m.chkEnd v x outcome
    = (if x.plateJob.isSome then ((m.chkNoted v x outcome).chkTold v x outcome).signal x.job.done else (m.chkNoted v x outcome).chkTold v x outcome).msix (8 + v) := by
  unfold Mod.chkEnd Mod.chkNoted Mod.chkTold
  rfl

section
variable (m : Mod) (v : Nat) (x : ChkRun)

theorem Mod.sameBut_chk (u : ChkUnit) : Mod.sameBut [.chk] m { m with chk := u } := by
  constructor <;> intro hp
  case chk => exact (hp (by decide)).elim
  all_goals rfl

theorem Mod.fsetSome_spec (f : Fld) (o : Option Nat) (i : Nat) :
    let n := match o with
      | some a => m.fset f a i
      | none => m
    Mod.sameBut [.regs] m n ∧ m.regsKeep [f.reg.addr i 0] n := by
  cases o with
  | some a => exact ⟨m.fset_sameBut _ _ _ _, m.fset_regsKeep f a i 0⟩
  | none => exact ⟨Mod.sameBut_refl _ _, Mod.regsKeep_of_regs_eq rfl _⟩

theorem Mod.chkNoted_spec {outcome : Nat} (ho : outcome < 8) : Mod.sameBut [.regs, .chk] m (m.chkNoted v x outcome) ∧ (m.chkNoted v x outcome).chkRun? v = none
    ∧ (∀ w, w ≠ v → (m.chkNoted v x outcome).chkRun? w = m.chkRun? w)
    ∧ (m.chkNoted v x outcome).get64 Fld.CHK_RESULT_LO_RESULT Fld.CHK_RESULT_HI_RESULT v = x.result % 2 ^ 64
    ∧ (m.chkNoted v x outcome).get64 Fld.CHK_DONE_LO_DONE Fld.CHK_DONE_HI_DONE v = x.count % 2 ^ 48
    ∧ (m.chkNoted v x outcome).fget Fld.CHK_STATUS_OUTCOME v = outcome := by
  unfold Mod.chkNoted
  extract_lets _ m0 m1 m1a
  have hs0 : Mod.sameBut [.chk] m m0 := m.sameBut_chk _
  have hdel : m0.chk.runs = kvDel m.chk.runs v := rfl
  have hsR := m0.set64_sameBut Fld.CHK_RESULT_LO_RESULT Fld.CHK_RESULT_HI_RESULT x.result v
  have hR := m0.get64_set64 (lo := Fld.CHK_RESULT_LO_RESULT) (hi := Fld.CHK_RESULT_HI_RESULT) v x.result (addr_ne v rfl (by decide)) (by decide) (by decide)
  have hs1 : Mod.sameBut [.regs] _ m1 := Mod.set64_sameBut (m0.set64 Fld.CHK_RESULT_LO_RESULT Fld.CHK_RESULT_HI_RESULT x.result v) Fld.CHK_DONE_LO_DONE Fld.CHK_DONE_HI_DONE x.count v
  have hk1 : Mod.regsKeep _ _ m1 := Mod.set64_regsKeep (m0.set64 Fld.CHK_RESULT_LO_RESULT Fld.CHK_RESULT_HI_RESULT x.result v) Fld.CHK_DONE_LO_DONE Fld.CHK_DONE_HI_DONE x.count v
  have hD : m1.get64 Fld.CHK_DONE_LO_DONE Fld.CHK_DONE_HI_DONE v = _ := Mod.get64_set64 (m0.set64 Fld.CHK_RESULT_LO_RESULT Fld.CHK_RESULT_HI_RESULT x.result v)
    (lo := Fld.CHK_DONE_LO_DONE) (hi := Fld.CHK_DONE_HI_DONE) v x.count (addr_ne v rfl (by decide)) (by decide) (by decide)
  obtain ⟨hs2, hk2⟩ : Mod.sameBut [.regs] m1 m1a ∧ m1.regsKeep [Reg.CHK_ALIVE.addr v 0] m1a := m1.fsetSome_spec Fld.CHK_ALIVE_LAST x.lastAlive v
  generalize m0.set64 Fld.CHK_RESULT_LO_RESULT Fld.CHK_RESULT_HI_RESULT x.result v = mR at hsR hR hs1 hk1
  clear_value m1a m1 m0
  have hO := m1a.fget_fset_same Fld.CHK_STATUS_OUTCOME outcome v 0 (by decide)
  have hs3 := m1a.fset_sameBut Fld.CHK_STATUS_OUTCOME outcome v 0
  have hk3 : m1a.regsKeep [Reg.CHK_STATUS.addr v 0] _ := m1a.fset_regsKeep Fld.CHK_STATUS_OUTCOME outcome v 0
  generalize m1a.fset Fld.CHK_STATUS_OUTCOME outcome v = m2 at hO hs3 hk3 ⊢
  have hP := m2.fget_fset_otherField Fld.CHK_STATUS_PLATE Fld.CHK_STATUS_OUTCOME x.plateJob.isSome.toNat v 0 rfl (by decide) (by decide)
  have hs4 := m2.fset_sameBut Fld.CHK_STATUS_PLATE x.plateJob.isSome.toNat v 0
  have hk4 : m2.regsKeep [Reg.CHK_STATUS.addr v 0] _ := m2.fset_regsKeep Fld.CHK_STATUS_PLATE x.plateJob.isSome.toNat v 0
  generalize m2.fset Fld.CHK_STATUS_PLATE x.plateJob.isSome.toNat v = n at hP hs4 hk4 ⊢
  have hsn : Mod.sameBut [.regs] m0 n := Mod.sameBut_trans hsR (Mod.sameBut_trans hs1 (Mod.sameBut_trans hs2 (Mod.sameBut_trans hs3 hs4)))
  have hk : m1.regsKeep [Reg.CHK_ALIVE.addr v 0, Reg.CHK_STATUS.addr v 0] n :=
    Mod.regsKeep_trans (Mod.regsKeep_mono hk2 (by simp)) (Mod.regsKeep_trans (Mod.regsKeep_mono hk3 (by simp)) (Mod.regsKeep_mono hk4 (by simp)))
  have happart : ∀ {q r : RegSpec}, q.s1 = 0x100 → r.s1 = 0x100 → q.base ≠ r.base → q.addr v 0 ≠ r.addr v 0 := fun hq hr => addr_ne v (hq.trans hr.symm)
  have hruns : n.chk.runs = kvDel m.chk.runs v := by rw [hsn.chk (by decide), hdel]
  refine ⟨Mod.sameBut_trans (Mod.sameBut_mono hs0 (by decide)) (Mod.sameBut_mono hsn (by decide)), ?_, fun w hw => ?_, ?_, ?_, ?_⟩
  · rw [Mod.chkRun?, hruns, kvGet?_kvDel_same]
  · rw [Mod.chkRun?, hruns, kvGet?_kvDel_other _ hw, Mod.chkRun?]
  · rw [Mod.get64_of_regsKeep hk, Mod.get64_of_regsKeep hk1]
    · exact hR
    all_goals
      simp only [List.mem_cons, List.not_mem_nil, or_false, not_or]
      exact ⟨happart rfl rfl (by decide), happart rfl rfl (by decide)⟩
  · rw [Mod.get64_of_regsKeep hk]
    · exact hD
    all_goals
      simp only [List.mem_cons, List.not_mem_nil, or_false, not_or]
      exact ⟨happart rfl rfl (by decide), happart rfl rfl (by decide)⟩
  · rw [hP, hO]
    exact Nat.mod_eq_of_lt ho

theorem Mod.chkEvent_spec (code d0 d1 d2 : Nat) : Mod.sameBut [.evIn, .step] m (m.chkEvent v x code d0 d1 d2)
    ∧ (if x.plateJob.isSome ∧ x.job.stepFault = true then m.reportsCause (m.chkEvent v x code d0 d1 d2) .contained code v d0 d1 d2
        else (m.chkEvent v x code d0 d1 d2).reports .contained code v d0 d1 d2) := by
  refine ⟨m.chkEvent_sameBut _ _ _ _ _ _, ?_⟩
  unfold Mod.chkEvent
  by_cases h : x.plateJob.isSome = true ∧ x.job.stepFault = true
  · rw [if_pos h, if_pos (Bool.and_eq_true_iff.2 h)]
    exact Mod.raiseDual_reportsCause m rfl _ _ _ _ _ _
  · rw [if_neg h, if_neg (fun h1 => h (Bool.and_eq_true_iff.1 h1))]
    exact Mod.raise_reports _ _ _ _ _ _ _

/-- What an end with an error tells of it. -/
def Mod.chkTells (m n : Mod) (v : Nat) (x : ChkRun) (code d0 d1 d2 : Nat) : Prop :=
  if x.plateJob.isSome ∧ x.job.stepFault = true then m.reportsCause n .contained code v d0 d1 d2 else n.reports .contained code v d0 d1 d2

theorem Mod.chkTells_kept {m n k : Mod} {v : Nat} {x : ChkRun} {code d0 d1 d2 : Nat} (h : Mod.chkTells m n v x code d0 d1 d2) (hk : Mod.recordsKept n k) :
    Mod.chkTells m k v x code d0 d1 d2 := by
  unfold Mod.chkTells at h ⊢
  split
  · next hs =>
    rw [if_pos hs] at h
    exact hk.reportsCause h
  · next hs =>
    rw [if_neg hs] at h
    exact hk.reports h

/-- An error bit set with its event. -/
theorem Mod.chkBit_spec {m k : Mod} {f : Fld} (hf : f.reg = Reg.CHK_ERR ∧ f.lo ≤ f.hi ∧ f.hi + 1 - f.lo = 8) {v : Nat} (hv : v < 8) (x : ChkRun) (code d0 d1 d2 : Nat)
    (hs : Mod.sameBut [.regs] m k) (hk : m.regsKeep [Reg.CHK_BAD_REC.addr v 0, Reg.CHK_ERR.base] k) :
    let n := (k.forBits f (2 ^ v)).chkEvent v x code d0 d1 d2
    Mod.sameBut [.regs, .evIn, .step] m n ∧ m.regsKeep [Reg.CHK_BAD_REC.addr v 0, Reg.CHK_ERR.base] n ∧ (n.fget f).testBit v = true
      ∧ Mod.chkTells m n v x code d0 d1 d2 := by
  obtain ⟨hreg, hle, hw⟩ := hf
  have hb := k.forBits_testBit f 0 0 hle (v := v) (by omega)
  have hsb := k.forBits_sameBut f (2 ^ v) 0 0
  have hkb := k.forBits_regsKeep f (2 ^ v) 0 0
  rw [hreg] at hkb
  have haddr : Reg.CHK_ERR.addr 0 0 = Reg.CHK_ERR.base := by decide
  rw [haddr] at hkb
  generalize k.forBits f (2 ^ v) = b at hb hsb hkb ⊢
  obtain ⟨hse, hrep⟩ := b.chkEvent_spec v x code d0 d1 d2
  have hopen : b.stepOpen = m.stepOpen := by rw [Mod.stepOpen, hsb.step (by decide), hs.step (by decide), Mod.stepOpen]
  intro n
  have hregs : n.regs = b.regs := hse.regs (by decide)
  refine ⟨?_, ?_, ?_, ?_⟩
  · exact Mod.sameBut_trans (Mod.sameBut_mono (Mod.sameBut_trans hs hsb) (by decide)) (Mod.sameBut_mono hse (by decide))
  · exact Mod.regsKeep_trans hk (Mod.regsKeep_trans (Mod.regsKeep_mono hkb (by simp)) (Mod.regsKeep_of_regs_eq hregs _))
  · rw [Mod.fget, hregs]
    exact hb
  · unfold Mod.chkTells
    unfold Mod.reportsCause at hrep ⊢
    rw [hopen] at hrep
    exact hrep

/-- The errors of an end that has one, and nothing told otherwise. -/
theorem Mod.chkTold_spec (hv : v < 8) (outcome : Nat) :
    Mod.sameBut [.regs, .evIn, .step] m (m.chkTold v x outcome) ∧ m.regsKeep [Reg.CHK_BAD_REC.addr v 0, Reg.CHK_ERR.base] (m.chkTold v x outcome)
    ∧ (outcome = 2 → ((m.chkTold v x outcome).fget Fld.CHK_ERR_MISMATCH).testBit v = true
        ∧ m.chkTells (m.chkTold v x outcome) v x 0x0E01 (lo32 x.result) (hi32 x.result) x.plateJob.isSome.toNat)
    ∧ (outcome = 3 → ((m.chkTold v x outcome).fget Fld.CHK_ERR_ALIVE).testBit v = true
        ∧ m.chkTells (m.chkTold v x outcome) v x 0x0E02 (x.bad.getD 0) (x.alive + 2 ^ 16 * x.found) 0)
    ∧ (outcome = 4 → ((m.chkTold v x outcome).fget Fld.CHK_ERR_POISON).testBit v = true ∧ m.chkTells (m.chkTold v x outcome) v x 0x0E03 (lo32 x.count) 0 0)
    ∧ (outcome ≠ 2 → outcome ≠ 3 → outcome ≠ 4 → m.chkTold v x outcome = m) := by
  have hrefl := Mod.sameBut_refl [.regs] m
  have hkeep := Mod.regsKeep_of_regs_eq (m := m) rfl [Reg.CHK_BAD_REC.addr v 0, Reg.CHK_ERR.base]
  by_cases h2 : outcome = 2
  · subst h2
    obtain ⟨h1, h2, h3, h4⟩ := Mod.chkBit_spec (f := Fld.CHK_ERR_MISMATCH) (by decide) hv x 0x0E01 (lo32 x.result) (hi32 x.result) x.plateJob.isSome.toNat hrefl hkeep
    exact ⟨h1, h2, fun _ => ⟨h3, h4⟩, fun h => by omega, fun h => by omega, fun h => (h rfl).elim⟩
  · by_cases h3 : outcome = 3
    · subst h3
      obtain ⟨h1, h2, h3, h4⟩ := Mod.chkBit_spec (f := Fld.CHK_ERR_ALIVE) (by decide) hv x 0x0E02 (x.bad.getD 0) (x.alive + 2 ^ 16 * x.found) 0
        (m.fset_sameBut Fld.CHK_BAD_REC_BAD_REC (x.bad.getD 0) v 0) (Mod.regsKeep_mono (m.fset_regsKeep Fld.CHK_BAD_REC_BAD_REC (x.bad.getD 0) v 0) (List.cons_subset.2 ⟨List.mem_cons_self, List.nil_subset _⟩))
      exact ⟨h1, h2, fun h => by omega, fun _ => ⟨h3, h4⟩, fun h => by omega, fun _ h => (h rfl).elim⟩
    · by_cases h4 : outcome = 4
      · subst h4
        obtain ⟨h1, h2, h3, h4⟩ := Mod.chkBit_spec (f := Fld.CHK_ERR_POISON) (by decide) hv x 0x0E03 (lo32 x.count) 0 0 hrefl hkeep
        exact ⟨h1, h2, fun h => by omega, fun h => by omega, fun _ => ⟨h3, h4⟩, fun _ _ h => (h rfl).elim⟩
      · have he : m.chkTold v x outcome = m := by
          unfold Mod.chkTold
          split
          · exact (h2 rfl).elim
          · exact (h3 rfl).elim
          · exact (h4 rfl).elim
          · rfl
        rw [he]
        exact ⟨Mod.sameBut_refl _ _, hkeep, fun h => (h2 h).elim, fun h => (h3 h).elim, fun h => (h4 h).elim, fun _ _ _ => rfl⟩

end

theorem ChkRun.outcome_lt (x : ChkRun) : x.outcome < 8 := by
  unfold ChkRun.outcome
  repeat' split
  all_goals decide

/-- What the end of a job leaves. -/
def Mod.chkClosed (m n : Mod) (v : Nat) (x : ChkRun) (outcome : Nat) : Prop :=
  n.chkRun? v = none
    ∧ (∀ w, w ≠ v → n.chkRun? w = m.chkRun? w)
    ∧ n.get64 Fld.CHK_RESULT_LO_RESULT Fld.CHK_RESULT_HI_RESULT v = x.result % 2 ^ 64
    ∧ n.get64 Fld.CHK_DONE_LO_DONE Fld.CHK_DONE_HI_DONE v = x.count % 2 ^ 48
    ∧ n.fget Fld.CHK_STATUS_OUTCOME v = outcome
    ∧ n.sched.sigs = m.sched.sigs ++ (if x.plateJob.isSome ∧ x.job.done ≠ 0xFFFF then [x.job.done] else [])
    ∧ (∀ addr data, m.host.msixEnable = true → m.host.funcMask = false → kvGet? m.host.entries (8 + v) = some ⟨addr, data, false⟩ →
        n.host.out = m.host.out ++ [.msix (8 + v) addr data])

theorem Mod.chkSignal_spec (m : Mod) (x : ChkRun) :
    let n := if x.plateJob.isSome then m.signal x.job.done else m
    Mod.sameBut [.sched] m n ∧ n.sched.sigs = m.sched.sigs ++ (if x.plateJob.isSome ∧ x.job.done ≠ 0xFFFF then [x.job.done] else []) := by
  by_cases hp : x.plateJob.isSome = true
  · rw [if_pos hp]
    refine ⟨m.signal_sameBut _, (m.signal_sigs _).trans ?_⟩
    by_cases hd : x.job.done = 0xFFFF
    · rw [if_pos hd, if_neg fun h => h.2 hd]
    · rw [if_neg hd, if_pos ⟨hp, hd⟩]
  · rw [if_neg hp, if_neg fun h => hp h.1]
    exact ⟨Mod.sameBut_refl _ _, (List.append_nil _).symm⟩

/-- The end of a job: what it closes, what it tells. -/
theorem Mod.chkEnd_spec (m : Mod) {v : Nat} (hv : v < 8) (x : ChkRun) {outcome : Nat} (ho : outcome < 8) :
    m.chkClosed (m.chkEnd v x outcome) v x outcome
    ∧ (outcome = 2 → ((m.chkEnd v x outcome).fget Fld.CHK_ERR_MISMATCH).testBit v = true
        ∧ m.chkTells (m.chkEnd v x outcome) v x 0x0E01 (lo32 x.result) (hi32 x.result) x.plateJob.isSome.toNat)
    ∧ (outcome = 3 → ((m.chkEnd v x outcome).fget Fld.CHK_ERR_ALIVE).testBit v = true
        ∧ m.chkTells (m.chkEnd v x outcome) v x 0x0E02 (x.bad.getD 0) (x.alive + 2 ^ 16 * x.found) 0)
    ∧ (outcome = 4 → ((m.chkEnd v x outcome).fget Fld.CHK_ERR_POISON).testBit v = true
        ∧ m.chkTells (m.chkEnd v x outcome) v x 0x0E03 (lo32 x.count) 0 0)
    ∧ (outcome ≠ 2 → outcome ≠ 3 → outcome ≠ 4 → (m.chkEnd v x outcome).evIn = m.evIn) := by
  rw [Mod.chkEnd_eq]
  obtain ⟨hs1, hnone, hother, hres, hdone, hout⟩ := m.chkNoted_spec v x ho
  generalize m.chkNoted v x outcome = m1 at hs1 hnone hother hres hdone hout ⊢
  obtain ⟨hs2, hk2, t2, t3, t4, tn⟩ := m1.chkTold_spec v x hv outcome
  generalize m1.chkTold v x outcome = m2 at hs2 hk2 t2 t3 t4 tn ⊢
  obtain ⟨hs3, hsig⟩ := m2.chkSignal_spec x
  generalize (if x.plateJob.isSome then m2.signal x.job.done else m2 : Mod) = m3 at hs3 hsig ⊢
  have hs4 := m3.msix_sameBut (8 + v)
  have hhost : m3.host = m.host := by rw [hs3.host (by decide), hs2.host (by decide), hs1.host (by decide)]
  have hsent := fun addr data (he : m.host.msixEnable = true) (hf : m.host.funcMask = false) (hk : kvGet? m.host.entries (8 + v) = some ⟨addr, data, false⟩) =>
    m3.msix_sent (v := 8 + v) (addr := addr) (data := data) (by rw [hhost]; exact he) (by rw [hhost]; exact hf) (by rw [hhost]; exact hk)
  have hemit : ∀ o, (m3.emit o).host.out = m.host.out ++ [o] := fun o => by rw [Mod.emit, hhost]
  generalize m3.msix (8 + v) = m4 at hs4 hsent ⊢
  have hregs : m4.regs = m2.regs := by rw [hs4.regs (by decide), hs3.regs (by decide)]
  have hk4 : m1.regsKeep [Reg.CHK_BAD_REC.addr v 0, Reg.CHK_ERR.base] m4 := Mod.regsKeep_trans hk2 (Mod.regsKeep_of_regs_eq hregs _)
  have hfget : ∀ f : Fld, m4.fget f = m2.fget f := fun f => by rw [Mod.fget, hregs, Mod.fget]
  have hrec : Mod.recordsKept m2 m4 := (Mod.recordsKept.of hs3 rfl).trans (.of hs4 rfl)
  have htells : ∀ {code d0 d1 d2 : Nat}, m1.chkTells m2 v x code d0 d1 d2 → m.chkTells m4 v x code d0 d1 d2 := fun h => by
    have h4 := Mod.chkTells_kept h hrec
    unfold Mod.chkTells Mod.reportsCause at h4 ⊢
    rw [show m1.stepOpen = m.stepOpen by rw [Mod.stepOpen, hs1.step (by decide), Mod.stepOpen]] at h4
    exact h4
  have hchk : m4.chk = m1.chk := by rw [hs4.chk (by decide), hs3.chk (by decide), hs2.chk (by decide)]
  have happart : ∀ r : RegSpec, r.s1 = 0x100 → r.base % 0x100 ≠ 0 → r.base ≠ Reg.CHK_BAD_REC.base → r.addr v 0 ∉ [Reg.CHK_BAD_REC.addr v 0, Reg.CHK_ERR.base] := fun r hs hm hb => by
    simp only [List.mem_cons, List.not_mem_nil, or_false, not_or]
    refine ⟨addr_ne v hs hb, ?_⟩
    simp only [RegSpec.addr, hs, Reg.CHK_ERR]
    omega
  refine ⟨⟨?_, fun w hw => ?_, ?_, ?_, ?_, ?_, fun addr data he hf hk => ?_⟩, fun h => ?_, fun h => ?_, fun h => ?_, fun h2 h3 h4 => ?_⟩
  · rw [Mod.chkRun?, hchk]
    exact hnone
  · rw [Mod.chkRun?, hchk]
    exact hother w hw
  · rw [Mod.get64_of_regsKeep hk4 _ _ _ (happart _ rfl (by decide) (by decide)) (happart _ rfl (by decide) (by decide))]
    exact hres
  · rw [Mod.get64_of_regsKeep hk4 _ _ _ (happart _ rfl (by decide) (by decide)) (happart _ rfl (by decide) (by decide))]
    exact hdone
  · rw [Mod.regsKeep_fget hk4 _ _ _ (happart _ rfl (by decide) (by decide))]
    exact hout
  · rw [hs4.sched (by decide), hsig, hs2.sched (by decide), hs1.sched (by decide)]
  · rw [hsent addr data he hf hk]
    exact hemit _
  · exact ⟨by rw [hfget]; exact (t2 h).1, htells (t2 h).2⟩
  · exact ⟨by rw [hfget]; exact (t3 h).1, htells (t3 h).2⟩
  · exact ⟨by rw [hfget]; exact (t4 h).1, htells (t4 h).2⟩
  · rw [hs4.evIn (by decide), hs3.evIn (by decide), tn h2 h3 h4, hs1.evIn (by decide)]

/-! ### The commands -/

section
variable {s : State}

theorem Mod.chkHostStart_refused {m : Mod} {v : Nat} (h : m.chkRegs v = none ∨ ∃ j, m.chkRegs v = some j ∧ ((m.chkRun? v).isSome = true ∨ m.chkOwned v = true ∨ j.aliveBad = true))
    (ecc : Ecc) : m.chkHostStart v ecc = m.chkRefused v 0 0 := by
  rcases h with h | ⟨j, hj, h⟩
  · rw [Mod.chkHostStart, h]
  · rw [Mod.chkHostStart, hj]
    refine if_pos ?_
    rcases h with h | h | h
    · rw [h, Bool.true_or, Bool.true_or]
    · rw [h, Bool.or_true, Bool.true_or]
    · rw [h, Bool.or_true]

theorem Mod.chkHostStart_taken {m : Mod} {v : Nat} {j : ChkJob} (hj : m.chkRegs v = some j) (hr : m.chkRun? v = none) (ho : m.chkOwned v = false) (ha : j.aliveBad = false)
    (ecc : Ecc) : m.chkHostStart v ecc = (m.setChk v (ChkRun.fresh j none)).chkScan v ecc := by
  rw [Mod.chkHostStart, hj]
  exact if_neg (by rw [hr, ho, ha]; decide)

theorem Mod.chkRegs_reserved {m : Mod} {v : Nat} (h : m.fget Fld.CHK_CFG_MODE v = 3) : m.chkRegs v = none := by
  rw [Mod.chkRegs, h]
  rfl

theorem Mod.chkPlateStart_eq {m : Mod} {ix : Nat} {p : Plate} {j : ChkJob} (hp : m.plate? = some p) (hj : p.checks[ix]? = some j) (ecc : Ecc) :
    m.chkPlateStart ix ecc = if m.stepBusy && m.barrierDone j.start && !m.chk.started.contains ix then
      let m1 := { m with chk := { m.chk with started := setAdd m.chk.started ix } }
      if (m.chkRun? j.unit).isSome then (m1.chkRefused j.unit 1 ix).signal j.done
      else ((m1.chkShow j.unit j).setChk j.unit (ChkRun.fresh j (some ix))).chkScan j.unit ecc
    else m := by
  have hb : m.plate?.bind (fun p => p.checks[ix]?) = some j := by rw [hp]; exact hj
  rw [Mod.chkPlateStart, hb]

/-- The scan of a host job that starts at once. -/
theorem ChkRun.scan_spec {j : ChkJob} (hm : j.mode ≠ .snoop) {d : List (Byte × Bool)} (hd : d.length = j.len) :
    let y := (ChkRun.fresh j none).feed d
    (rdPoison d = false → j.alive = false → y.crc = (rdBytes d).foldl j.crcStep (if j.crc64 then 0xFFFFFFFFFFFFFFFF else 0xFFFFFFFF) ∧ y.count = j.len ∧ y.broken = false)
      ∧ (∀ k, k < j.len → (d.getD k (0, false)).2 = true → (∀ i, i < k → (d.getD i (0, false)).2 = false) → j.alive = false → y.poisoned = true ∧ y.count = k) := by
  have htotal : 0 + d.length ≤ j.total := by
    rw [ChkJob.total, if_neg hm, hd]
    omega
  refine ⟨fun hp ha => ?_, fun k hk hpk hfirst ha => ?_⟩
  · have hclean : ∀ b ∈ d, b.2 = false := fun b hb => by
      have := List.any_eq_false.1 hp b hb
      simpa using this
    rw [ChkRun.feed_clean (x := ChkRun.fresh j none) ha rfl hclean htotal]
    exact ⟨rfl, (Nat.zero_add _).trans hd, rfl⟩
  · obtain ⟨h1, h2⟩ := ChkRun.feed_poisoned (x := ChkRun.fresh j none) ha rfl (hd ▸ hk) htotal hpk hfirst
    exact ⟨h1, h2.trans (Nat.zero_add _)⟩

theorem execChkStart_spec {u : Nat} (hu : u < 8) (hans : s.m.answers (Reg.CHK_CTRL.addr u 0) = true) :
    let refused := ∃ t, exec (.chkStart u noEcc) s = .next t ∧ t.m.chk = s.m.chk ∧ (t.m.fget Fld.CHK_ERR_REFUSED).testBit u = true
      ∧ t.m.reports .corrected 0x0E04 u 0 0 0 ∧ State.setsAndRaises [Reg.CHK_ERR.base] s t
    (s.m.fget Fld.CHK_CFG_MODE u = 3 → refused) ∧
    (∀ j, s.m.chkRegs u = some j →
      ((s.m.chkRun? u).isSome = true ∨ s.m.chkOwned u = true ∨ j.aliveBad = true → refused) ∧
      (s.m.chkRun? u = none → s.m.chkOwned u = false → j.aliveBad = false →
        (j.mode = .snoop → ∃ t x, exec (.chkStart u noEcc) s = .next t ∧ t.m.chkRun? u = some x ∧ x.st = .waitAttach ∧ x.count = 0
          ∧ x.plateJob = none ∧ x.job = j ∧ State.sameBut [.chk] s t) ∧
        (j.mode ≠ .snoop → s.m.heldPort j.addr j.len = none →
          let d := ((s.m.setChk u (ChkRun.fresh j none)).yard .check j.addr j.len false).devRead j.addr j.len
          let init := if j.crc64 then 0xFFFFFFFFFFFFFFFF else 0xFFFFFFFF
          ∃ t x, exec (.chkStart u noEcc) s = .next t ∧ t.m.chkRun? u = some x ∧ x.job = j ∧ x.scanned = true ∧ t.m.mem = s.m.mem
            ∧ (rdPoison d = false → j.alive = false → x.crc = (rdBytes d).foldl j.crcStep init ∧ x.count = j.len
                ∧ x.st = (if j.mode = .scanSnoop then .waitAttach else .scan))
            ∧ (∀ k, k < j.len → (d.getD k (0, false)).2 = true → (∀ i, i < k → (d.getD i (0, false)).2 = false) → j.alive = false →
                x.poisoned = true ∧ x.count = k)))) := by
  intro refused
  have hexec : ∀ {n : Mod}, s.m.chkHostStart u noEcc = n → exec (.chkStart u noEcc) s = .next { s with m := n } := fun h =>
    (exec_reg (f := fun m => m.chkHostStart u noEcc) rfl hans).trans (by rw [h])
  have href : s.m.chkHostStart u noEcc = s.m.chkRefused u 0 0 → refused := fun h => by
    obtain ⟨h1, h2, h3, h4, h5⟩ := s.m.chkRefused_spec hu 0 0
    exact ⟨_, hexec h, h1, h2, h3, ⟨rfl, rfl, h4⟩, h5⟩
  refine ⟨fun h3 => href (Mod.chkHostStart_refused (.inl (Mod.chkRegs_reserved h3)) _), fun j hj => ⟨fun h => href (Mod.chkHostStart_refused (.inr ⟨j, hj, h⟩) _),
    fun hr ho ha => ?_⟩⟩
  have htaken := Mod.chkHostStart_taken hj hr ho ha noEcc
  obtain ⟨hrun, -⟩ := s.m.setChk_spec u (ChkRun.fresh j none)
  refine ⟨fun hm => ?_, fun hm hh => ?_⟩
  · have hscan := Mod.chkScan_scanned hrun (show (ChkRun.fresh j none).scanned = true from decide_eq_true hm) noEcc
    exact ⟨_, _, hexec (htaken.trans hscan), hrun, if_pos hm, rfl, rfl, rfl, rfl, rfl, s.m.sameBut_chk _⟩
  · intro d init
    have hhold : (s.m.setChk u (ChkRun.fresh j none)).heldPort j.addr j.len = none := by
      have hal : Mod.alike s.m (s.m.setChk u (ChkRun.fresh j none)) := ⟨rfl, rfl, fun _ _ _ _ => rfl⟩
      rw [hal.heldPort, hh]
    obtain ⟨hx, hmem⟩ := Mod.chkScan_read hrun (show (ChkRun.fresh j none).scanned = false from decide_eq_false hm) hhold
    obtain ⟨hclean, hpois⟩ := ChkRun.scan_spec hm (d := d) (Mod.devRead_length _ _ _)
    refine ⟨_, _, hexec (htaken.trans rfl), hx, ((ChkRun.fresh j none).feed_job _).1, rfl, hmem, fun hp hal => ?_, hpois⟩
    obtain ⟨h1, h2, h3⟩ := hclean hp hal
    refine ⟨h1, h2, ?_⟩
    have hj' : (ChkRun.fresh j none).job = j := rfl
    have hb : (ChkRun.feed (ChkRun.fresh j none) (((s.m.setChk u (ChkRun.fresh j none)).yard .check (ChkRun.fresh j none).job.addr (ChkRun.fresh j none).job.len false).devRead
      (ChkRun.fresh j none).job.addr (ChkRun.fresh j none).job.len)).broken = false := h3
    rw [hb, hj']
    by_cases hss : j.mode = .scanSnoop
    · rw [if_pos hss, if_pos (by rw [decide_eq_true hss]; rfl)]
    · rw [if_neg hss, if_neg (by rw [decide_eq_false hss]; decide)]

theorem execChkPlateJobStart_spec {ix : Nat} {p : Plate} {j : ChkJob} (hrun : s.m.running = true) (hp : s.m.plate? = some p) (hj : p.checks[ix]? = some j) (hu : j.unit < 8) :
    let due := s.m.stepBusy && s.m.barrierDone j.start && !s.m.chk.started.contains ix
    (due = false → exec (.chkPlateJobStart ix noEcc) s = .next s) ∧
    (due = true → s.m.chkRun? j.unit = none →
      ∃ t x, exec (.chkPlateJobStart ix noEcc) s = .next t ∧ t.m.chkRun? j.unit = some x ∧ x.plateJob = some ix ∧ x.job = j
        ∧ ix ∈ t.m.chk.started) ∧
    (due = true → s.m.chkRun? j.unit ≠ none →
      ∃ t, exec (.chkPlateJobStart ix noEcc) s = .next t ∧ t.m.chk.runs = s.m.chk.runs ∧ ix ∈ t.m.chk.started
        ∧ t.m.reports .corrected 0x0E04 j.unit 1 ix 0
        ∧ t.m.sched.sigs = s.m.sched.sigs ++ (if j.done = 0xFFFF then [] else [j.done])) := by
  intro due
  have heq := Mod.chkPlateStart_eq hp hj noEcc
  refine ⟨fun hd => exec_unit_self rfl fun _ => ?_, fun hd hr => ?_, fun hd hr => ?_⟩
  · rw [heq]
    exact if_neg (by rw [show (s.m.stepBusy && s.m.barrierDone j.start && !s.m.chk.started.contains ix) = false from hd]; decide)
  · rw [if_pos hd] at heq
    dsimp only at heq
    rw [if_neg (by rw [hr]; decide)] at heq
    have hshow := Mod.chkShow_sameBut { s.m with chk := { s.m.chk with started := setAdd s.m.chk.started ix } } j.unit j
    generalize Mod.chkShow _ j.unit j = m1 at heq hshow
    have hstarted : m1.chk.started = setAdd s.m.chk.started ix := congrArg ChkUnit.started (hshow.chk (by decide))
    obtain ⟨⟨y, hy, hjob, hpj⟩, hst⟩ := Mod.chkScan_job (m1.setChk_spec j.unit (ChkRun.fresh j (some ix))).1 noEcc
    refine ⟨_, y, exec_unit_eq (f := fun m => m.chkPlateStart ix noEcc) rfl hrun heq, hy, hpj, hjob, ?_⟩
    dsimp only
    rw [hst, Mod.setChk, hstarted]
    exact mem_setAdd_same _ _
  · rw [if_pos hd] at heq
    dsimp only at heq
    rw [if_pos (Option.isSome_iff_ne_none.2 hr)] at heq
    obtain ⟨hchk, -, hrep, hs, -⟩ := Mod.chkRefused_spec { s.m with chk := { s.m.chk with started := setAdd s.m.chk.started ix } } hu 1 ix
    generalize Mod.chkRefused _ j.unit 1 ix = m1 at heq hchk hrep hs
    have hsig := m1.signal_sameBut j.done
    have hchk2 := (hsig.chk (by decide)).trans hchk
    refine ⟨_, exec_unit_eq (f := fun m => m.chkPlateStart ix noEcc) rfl hrun heq, (congrArg ChkUnit.runs hchk2 :), ?_, (Mod.recordsKept.of hsig rfl).reports hrep, ?_⟩
    · rw [show (m1.signal j.done).chk.started = setAdd s.m.chk.started ix from congrArg ChkUnit.started hchk2]
      exact mem_setAdd_same _ _
    · exact (m1.signal_sigs _).trans (by rw [hs.sched (by decide)])

/-- The end of a job that has nothing more to process, and its abort. -/
theorem execChkEnd_spec {u : Nat} {x : ChkRun} (hx : s.m.chkRun? u = some x) :
    (s.m.running = true → x.scanned = true → x.finished = true → exec (.chkJobComplete u) s = .next { s with m := s.m.chkEnd u x x.outcome }) ∧
    (s.m.running = true → x.scanned = true → x.finished = false → exec (.chkJobComplete u) s = .next s) ∧
    (s.m.answers (Reg.CHK_CTRL.addr u 0) = true →
      (x.plateJob = none → exec (.chkAbort u) s = .next { s with m := s.m.chkEnd u x 6 }) ∧
      (x.plateJob ≠ none → exec (.chkAbort u) s = .next s)) := by
  have hjob : x.scanned = true → ∀ {n : Mod}, (if x.finished && (x.scanned || x.broken || x.job.total == 0) then s.m.chkEnd u x x.outcome else s.m) = n →
      s.m.running = true → exec (.chkJobComplete u) s = .next { s with m := n } := fun hsc n hn hrun => by
    refine exec_unit_eq rfl hrun ?_
    dsimp only
    rw [Mod.chkScan_scanned hx hsc, hx]
    exact hn
  have habort : ∀ {n : Mod}, (if x.plateJob.isSome then s.m else s.m.chkEnd u x 6) = n → s.m.answers (Reg.CHK_CTRL.addr u 0) = true →
      exec (.chkAbort u) s = .next { s with m := n } := fun hn hans =>
    (exec_reg (f := fun m => m.chkAbort u) rfl hans).trans (by rw [Mod.chkAbort, hx]; dsimp only; rw [hn])
  refine ⟨fun hrun hsc hf => hjob hsc (if_pos (by rw [hf, hsc]; rfl)) hrun, fun hrun hsc hf => hjob hsc (if_neg (by rw [hf, Bool.false_and]; decide)) hrun,
    fun hans => ⟨fun hp => habort (if_neg (by rw [hp]; decide)) hans, fun hp => habort (if_pos (Option.isSome_iff_ne_none.2 hp)) hans⟩⟩

end

/-- Settles O60: the check-value units. -/
theorem checkUnits : Obligations.CheckUnits := by
  unfold Obligations.CheckUnits
  refine ⟨fun _ _ hu hans => execChkStart_spec hu hans, fun _ _ _ _ hrun hp hj hu => execChkPlateJobStart_spec hrun hp hj hu, fun s u x hu hx => ?_, fun x hb hp ha => ?_⟩
  · intro closed tells
    obtain ⟨hdone, hnot, habort⟩ := execChkEnd_spec hx
    refine ⟨fun hrun hsc hf => ?_, hnot, fun hans => ⟨fun hp => ?_, (habort hans).2⟩⟩
    · obtain ⟨hc, h2, h3, h4, hn⟩ := s.m.chkEnd_spec hu x x.outcome_lt
      exact ⟨_, hdone hrun hsc hf, hc, h2, h3, h4, hn⟩
    · obtain ⟨hc, -, -, -, hn⟩ := s.m.chkEnd_spec hu x (outcome := 6) (by decide)
      exact ⟨_, (habort hans).1 hp, hc, hn (by decide) (by decide) (by decide)⟩
  · rw [ChkRun.outcome, hb, hp, ha]
    cases hc : x.job.compare
    · rfl
    · rfl

end Sys2Proof.Machine
end

section
/-! PROOF. Supply dips, temperature and profiles (17_power_reset.md R426 to R437). -/

namespace Sys2Proof.Machine

/-! ### The duty settings and the errors of the power unit -/

section
variable (m : Mod)

theorem Mod.floorSetting_spec : m.floorSetting.fget Fld.PWR_DUTY_DM = 1 ∧ m.floorSetting.fget Fld.PWR_DUTY_DH = 1
    ∧ Mod.sameBut [.regs] m m.floorSetting ∧ m.regsKeep [Reg.PWR_DUTY.base] m.floorSetting := by
  have hs := m.setDuties_sameBut (1, 1)
  have hk1 : m.regsKeep [Reg.PWR_DUTY.base] _ := m.fset_regsKeep Fld.PWR_DUTY_DM 1 0 0
  have hm := m.fget_fset_same Fld.PWR_DUTY_DM 1 0 0 (by decide)
  unfold Mod.floorSetting Mod.setDuties at hs ⊢
  dsimp only at hs ⊢
  generalize m.fset Fld.PWR_DUTY_DM 1 = m1 at hk1 hm hs ⊢
  have hk2 : m1.regsKeep [Reg.PWR_DUTY.base] _ := m1.fset_regsKeep Fld.PWR_DUTY_DH 1 0 0
  exact ⟨(m1.fget_fset_otherField Fld.PWR_DUTY_DH Fld.PWR_DUTY_DM 1 0 0 rfl (by decide) (by decide)).trans hm,
    m1.fget_fset_same Fld.PWR_DUTY_DH 1 0 0 (by decide), hs, Mod.regsKeep_trans hk1 hk2⟩

/-- PARK is due: nothing but the requests of the power unit moves. -/
theorem Mod.parkDue_spec : (m.pwr.state = .active ∨ m.pwr.state = .idle → m.parkDue = { m with pwr := { m.pwr with noSteps := true, parkReq := true } })
    ∧ (¬(m.pwr.state = .active ∨ m.pwr.state = .idle) → m.parkDue = m) :=
  ⟨fun h => if_pos h, fun h => if_neg h⟩

theorem Mod.parkDue_keeps : m.parkDue.regs = m.regs ∧ m.parkDue.evIn = m.evIn ∧ m.parkDue.tick = m.tick ∧ m.parkDue.pwr.temps = m.pwr.temps
    ∧ m.parkDue.pwr.episode = m.pwr.episode ∧ m.parkDue.pwr.critical = m.pwr.critical ∧ m.parkDue.pwr.state = m.pwr.state
    ∧ (m.pwr.state = .active ∨ m.pwr.state = .idle → m.parkDue.pwr.noSteps = true ∧ m.parkDue.pwr.parkReq = true) := by
  by_cases h : m.pwr.state = .active ∨ m.pwr.state = .idle
  · rw [m.parkDue_spec.1 h]
    exact ⟨rfl, rfl, rfl, rfl, rfl, rfl, rfl, fun _ => ⟨rfl, rfl⟩⟩
  · rw [m.parkDue_spec.2 h]
    exact ⟨rfl, rfl, rfl, rfl, rfl, rfl, rfl, fun hs => (h hs).elim⟩

end

/-! ### Supply -/

section
variable {s : State}

theorem execSupplyWarnAssert_spec (hup : s.m.mgUp = true) (mv : Nat) :
    ∃ t, exec (.supplyWarnAssert mv) s = .next t ∧ t.m.fget Fld.PWR_DUTY_DM = 1 ∧ t.m.fget Fld.PWR_DUTY_DH = 1
      ∧ t.m.pwr = { s.m.pwr with dip := .asserted, dipMin := if s.m.pwr.dip = .asserted then min mv s.m.pwr.dipMin else mv }
      ∧ s.m.regsKeep [Reg.PWR_DUTY.base, Reg.PWR_INPUT.base] t.m ∧ State.sameBut [.regs, .pwr] s t := by
  refine ⟨_, exec_on rfl (if_pos hup), ?_⟩
  dsimp only
  have hp := s.m.sameBut_pwr { s.m.pwr with dip := .asserted, dipMin := if s.m.pwr.dip = .asserted then min mv s.m.pwr.dipMin else mv }
  obtain ⟨hm, hh, hs, hk⟩ := Mod.floorSetting_spec { s.m with pwr := { s.m.pwr with dip := .asserted, dipMin := if s.m.pwr.dip = .asserted then min mv s.m.pwr.dipMin else mv } }
  generalize Mod.floorSetting _ = m1 at hm hh hs hk ⊢
  have hk2 : m1.regsKeep [Reg.PWR_INPUT.base] _ := m1.fset_regsKeep Fld.PWR_INPUT_MV (min mv 0xFFFF) 0 0
  refine ⟨(Mod.regsKeep_fget hk2 _ _ _ (by decide)).trans hm, (Mod.regsKeep_fget hk2 _ _ _ (by decide)).trans hh, hs.pwr (by decide), ?_, rfl, rfl, ?_⟩
  · exact Mod.regsKeep_trans (Mod.regsKeep_of_regs_eq rfl _) (Mod.regsKeep_trans (Mod.regsKeep_mono hk (by decide)) (Mod.regsKeep_mono hk2 (by decide)))
  · exact Mod.sameBut_trans (Mod.sameBut_mono hp (by decide)) (Mod.sameBut_trans (Mod.sameBut_mono hs (by decide)) (Mod.sameBut_mono (m1.fset_sameBut Fld.PWR_INPUT_MV (min mv 0xFFFF) 0 0) (by decide)))

theorem execSupplyWarnClear_spec (hup : s.m.mgUp = true) (hd : s.m.pwr.dip = .asserted) (mv us : Nat) :
    let least := min mv s.m.pwr.dipMin
    ∃ t, exec (.supplyWarnClear mv us) s = .next t ∧ t.m.pwr = { s.m.pwr with dip := .hold, dipMin := least, dipUs := us }
        ∧ t.m.fget Fld.PWR_DIP_MIN_MV = min least 0xFFFF ∧ t.m.fget Fld.PWR_DIP_US_US = min us 0xFFFFFFFF
        ∧ t.m.fget Fld.PWR_ERR_SUPPLY_WARN = 1 ∧ t.m.reports .corrected 0x1001 0 least us 0 := by
  intro least
  refine ⟨_, exec_on rfl (if_pos (by rw [hup, hd]; rfl)), rfl, ?_⟩
  dsimp only
  generalize ({ s.m with pwr := { s.m.pwr with dip := .hold, dipMin := min mv s.m.pwr.dipMin, dipUs := us } } : Mod) = m1
  have hmin := m1.fget_fset_same Fld.PWR_DIP_MIN_MV (min least 0xFFFF) 0 0 (by decide)
  generalize m1.fset Fld.PWR_DIP_MIN_MV (min least 0xFFFF) = m2 at hmin ⊢
  have hk3 : m2.regsKeep [Reg.PWR_DIP_US.base] _ := m2.fset_regsKeep Fld.PWR_DIP_US_US (min us 0xFFFFFFFF) 0 0
  have hus := m2.fget_fset_same Fld.PWR_DIP_US_US (min us 0xFFFFFFFF) 0 0 (by decide)
  generalize m2.fset Fld.PWR_DIP_US_US (min us 0xFFFFFFFF) = m3 at hk3 hus ⊢
  have hk4 : m3.regsKeep [Reg.PWR_ERR.base] _ := m3.fset_regsKeep Fld.PWR_ERR_SUPPLY_WARN 1 0 0
  have herr := m3.fget_fset_bit Fld.PWR_ERR_SUPPLY_WARN 0 0 rfl
  generalize m3.fset Fld.PWR_ERR_SUPPLY_WARN 1 = m4 at hk4 herr ⊢
  refine ⟨?_, ?_, herr, Mod.raise_reports _ _ _ _ _ _ _⟩
  · rw [Mod.fget_raise, Mod.regsKeep_fget hk4 _ _ _ (by decide), Mod.regsKeep_fget hk3 _ _ _ (by decide), hmin]
    exact Nat.mod_eq_of_lt (by simp only [Fld.PWR_DIP_MIN_MV]; omega)
  · rw [Mod.fget_raise, Mod.regsKeep_fget hk4 _ _ _ (by decide), hus]
    exact Nat.mod_eq_of_lt (by simp only [Fld.PWR_DIP_US_US]; omega)

theorem execSupplyPark_spec (hup : s.m.mgUp = true) (hd : s.m.pwr.dip = .asserted) (mv : Nat) :
    ∃ t, exec (.supplyPark mv) s = .next t ∧ t.m.fget Fld.PWR_ERR_SUPPLY_PARK = 1 ∧ t.m.reports .contained 0x1002 0 (min mv s.m.pwr.dipMin) 0 0
        ∧ (s.m.pwr.state = .active ∨ s.m.pwr.state = .idle → t.m.pwr.noSteps = true ∧ t.m.pwr.parkReq = true) := by
  refine ⟨_, exec_on rfl (if_pos (by rw [hup, hd]; rfl)), ?_⟩
  dsimp only
  have hs1 := Mod.fset_sameBut { s.m with pwr := { s.m.pwr with dipMin := min mv s.m.pwr.dipMin } } Fld.PWR_ERR_SUPPLY_PARK 1 0 0
  have herr := Mod.fget_fset_bit { s.m with pwr := { s.m.pwr with dipMin := min mv s.m.pwr.dipMin } } Fld.PWR_ERR_SUPPLY_PARK 0 0 rfl
  generalize Mod.fset _ Fld.PWR_ERR_SUPPLY_PARK 1 = m1 at hs1 herr ⊢
  have hrep := m1.raise_reports .contained 0x1002 0 (min mv s.m.pwr.dipMin) 0 0
  have hs2 := m1.raise_sameBut .contained 0x1002 0 (min mv s.m.pwr.dipMin) 0 0
  generalize m1.raise .contained 0x1002 0 (min mv s.m.pwr.dipMin) = m2 at hrep hs2 ⊢
  obtain ⟨hr, he, ht, -, -, -, -, hpark⟩ := m2.parkDue_keeps
  have hst : m2.pwr.state = s.m.pwr.state := by rw [hs2.pwr (by decide), hs1.pwr (by decide)]
  refine ⟨?_, Mod.reports_of_eq he ht hrep, fun h => hpark (by rw [hst]; exact h)⟩
  rw [Mod.fget, hr, hs2.regs (by decide)]
  exact herr

end

/-! ### Temperature -/

section
variable (m : Mod) (sensor : Nat) (degC : Int)

theorem Mod.throttleCheck_spec : ∃ n, m.throttleCheck sensor degC = n ∧ n.pwr = { m.pwr with episode := m.pwr.episode || decide ((m.throttleLevel sensor : Int) < degC) }
    ∧ ((m.throttleLevel sensor : Int) < degC → m.pwr.episode = false → n.fget Fld.PWR_ERR_THROTTLE = 1 ∧ n.reports .corrected 0x1004 sensor degC.toNat (m.throttleLevel sensor) 0)
    ∧ (degC ≤ (m.throttleLevel sensor : Int) → n = m) ∧ n.tick = m.tick := by
  refine ⟨_, rfl, ?_⟩
  unfold Mod.throttleCheck
  by_cases hlev : (m.throttleLevel sensor : Int) < degC
  · cases hep : m.pwr.episode
    · rw [if_pos ⟨hlev, rfl⟩, decide_eq_true hlev]
      have herr := Mod.fget_fset_bit { m with pwr := { m.pwr with episode := true } } Fld.PWR_ERR_THROTTLE 0 0 rfl
      have hs := Mod.fset_sameBut { m with pwr := { m.pwr with episode := true } } Fld.PWR_ERR_THROTTLE 1 0 0
      generalize Mod.fset _ Fld.PWR_ERR_THROTTLE 1 = m1 at herr hs ⊢
      exact ⟨hs.pwr (by decide), fun _ _ => ⟨herr, Mod.raise_reports _ _ _ _ _ _ _⟩, fun h => by omega, hs.tick (by decide)⟩
    · rw [if_neg (fun h => Bool.false_ne_true h.2)]
      refine ⟨?_, fun _ h => Bool.noConfusion h, fun _ => rfl, rfl⟩
      rw [Bool.true_or, ← hep]
  · rw [if_neg (fun h => hlev h.1), decide_eq_false hlev, Bool.or_false]
    exact ⟨rfl, fun h => (hlev h).elim, fun _ => rfl, rfl⟩

/-- A sensor above its critical level for the first time. -/
theorem Mod.criticalCheck_first (hc : criticalLevel sensor < degC) (hn : sensor ∉ m.pwr.critical) :
    let n := m.criticalCheck sensor degC
    n.pwr.temps = m.pwr.temps ∧ n.pwr.episode = m.pwr.episode ∧ sensor ∈ n.pwr.critical ∧ n.fget Fld.PWR_DUTY_DM = 1 ∧ n.fget Fld.PWR_DUTY_DH = 1
      ∧ n.fget Fld.PWR_ERR_CRITICAL = 1 ∧ n.reports .contained 0x1005 sensor degC.toNat 0 0
      ∧ (m.pwr.state = .active ∨ m.pwr.state = .idle → n.pwr.noSteps = true ∧ n.pwr.parkReq = true)
      ∧ n.fget Fld.PWR_ERR_THROTTLE = m.fget Fld.PWR_ERR_THROTTLE ∧ n.tick = m.tick ∧ ∀ r ∈ m.evIn, r ∈ n.evIn := by
  intro n
  have hn' : m.criticalCheck sensor degC = n := rfl
  rw [Mod.criticalCheck, if_pos hc, if_neg (by rw [List.contains_iff_mem]; exact hn)] at hn'
  dsimp only at hn'
  obtain ⟨hm, hh, hs, hk⟩ := Mod.floorSetting_spec { m with pwr := { m.pwr with critical := setAdd m.pwr.critical sensor } }
  generalize Mod.floorSetting _ = m1 at hm hh hs hk hn'
  have hs1 := m1.fset_sameBut Fld.PWR_ERR_CRITICAL 1 0 0
  have hk1 : m1.regsKeep [Reg.PWR_ERR.base] _ := m1.fset_regsKeep Fld.PWR_ERR_CRITICAL 1 0 0
  have herr := m1.fget_fset_bit Fld.PWR_ERR_CRITICAL 0 0 rfl
  have hoth := m1.fget_fset_otherField Fld.PWR_ERR_CRITICAL Fld.PWR_ERR_THROTTLE 1 0 0 rfl (by decide) (by decide)
  generalize m1.fset Fld.PWR_ERR_CRITICAL 1 = m2 at hs1 hk1 herr hoth hn'
  have hrep := m2.raise_reports .contained 0x1005 sensor degC.toNat 0 0
  have hs2 := m2.raise_sameBut .contained 0x1005 sensor degC.toNat 0 0
  have hev := m2.mem_raise_evIn .contained 0x1005 sensor degC.toNat 0 0
  generalize m2.raise .contained 0x1005 sensor degC.toNat = m3 at hrep hs2 hev hn'
  obtain ⟨hr, he, ht, htemps, hep, hcrit, -, hpark⟩ := m3.parkDue_keeps
  rw [hn'] at hr he ht htemps hep hcrit hpark
  clear_value n
  have hpwr : m3.pwr = { m.pwr with critical := setAdd m.pwr.critical sensor } := by rw [hs2.pwr (by decide), hs1.pwr (by decide), hs.pwr (by decide)]
  have hregs : n.regs = m2.regs := hr.trans (hs2.regs (by decide))
  have hf : ∀ f : Fld, n.fget f = m2.fget f := fun f => by rw [Mod.fget, hregs, Mod.fget]
  refine ⟨?_, ?_, ?_, ?_, ?_, ?_, Mod.reports_of_eq he ht hrep, fun h => hpark (by rw [hpwr]; exact h), ?_, ?_, fun r hr => ?_⟩
  · rw [htemps, hpwr]
  · rw [hep, hpwr]
  · rw [hcrit, hpwr]
    exact mem_setAdd_same _ _
  · rw [hf, Mod.regsKeep_fget hk1 _ _ _ (by decide), hm]
  · rw [hf, Mod.regsKeep_fget hk1 _ _ _ (by decide), hh]
  · rw [hf, herr]
  · rw [hf, hoth, Mod.regsKeep_fget hk _ _ _ (by decide)]
    rfl
  · rw [ht, hs2.tick (by decide), hs1.tick (by decide), hs.tick (by decide)]
  · rw [he]
    refine hev _ ?_
    rw [hs1.evIn (by decide), hs.evIn (by decide)]
    exact hr

/-- A sensor not above its critical level, or not for the first time. -/
theorem Mod.criticalCheck_rest (h : degC ≤ criticalLevel sensor ∨ criticalLevel sensor < degC ∧ sensor ∈ m.pwr.critical) :
    ∃ xs, m.criticalCheck sensor degC = { m with pwr := { m.pwr with critical := xs } }
      ∧ (degC ≤ criticalLevel sensor → sensor ∉ xs) ∧ (criticalLevel sensor < degC → sensor ∈ xs) := by
  rcases h with h | ⟨h, hm⟩
  · refine ⟨_, if_neg (by omega), fun _ hx => ((mem_setDel _ _ _).1 hx).1 rfl, fun hc => by omega⟩
  · refine ⟨m.pwr.critical, (if_pos h).trans ((if_pos (List.contains_iff_mem.2 hm)).trans rfl), fun hc => by omega, fun _ => hm⟩

end

end Sys2Proof.Machine
end

section
/-! PROOF. The statement of the power states (17_power_reset.md R426 to R449): temperature, profiles, and what a module in PARK or SLEEP
keeps. -/

namespace Sys2Proof.Machine

/-! ### Samples -/

theorem Mod.throttleLevel_eq (m : Mod) (sensor : Nat) : m.throttleLevel sensor = if 40 ≤ sensor then m.fget Fld.PWR_THERM_THRESH_HBM_C else m.fget Fld.PWR_THERM_THRESH_LOGIC_C := by
  rw [Mod.throttleLevel, isHbmSensor]
  by_cases h : 40 ≤ sensor
  · rw [if_pos h, if_pos (decide_eq_true h)]
  · rw [if_neg h, if_neg (by rw [decide_eq_false h]; decide)]

theorem criticalLevel_eq (sensor : Nat) : criticalLevel sensor = if 40 ≤ sensor then 95 else 105 := by
  rw [criticalLevel, isHbmSensor]
  by_cases h : 40 ≤ sensor
  · rw [if_pos h, if_pos (decide_eq_true h)]
  · rw [if_neg h, if_neg (by rw [decide_eq_false h]; decide)]

section
variable {s : State}

theorem execTempSample_spec (hup : s.m.mgUp = true) {sensor : Nat} (hsen : sensor < 52) (degC : Int) :
    let level := s.m.throttleLevel sensor
    let critical := criticalLevel sensor
    ∃ t, exec (.tempSample sensor degC) s = .next t ∧ t.m.pwr.temps = kvSet s.m.pwr.temps sensor degC
      ∧ ((level : Int) < degC → t.m.pwr.episode = true)
      ∧ ((level : Int) < degC → s.m.pwr.episode = false → t.m.fget Fld.PWR_ERR_THROTTLE = 1 ∧ t.m.reports .corrected 0x1004 sensor degC.toNat level 0)
      ∧ (degC ≤ critical → sensor ∉ t.m.pwr.critical)
      ∧ (critical < degC → sensor ∈ t.m.pwr.critical)
      ∧ (critical < degC → sensor ∉ s.m.pwr.critical → t.m.fget Fld.PWR_DUTY_DM = 1 ∧ t.m.fget Fld.PWR_DUTY_DH = 1
          ∧ t.m.fget Fld.PWR_ERR_CRITICAL = 1 ∧ t.m.reports .contained 0x1005 sensor degC.toNat 0 0
          ∧ (s.m.pwr.state = .active ∨ s.m.pwr.state = .idle → t.m.pwr.noSteps = true ∧ t.m.pwr.parkReq = true))
      ∧ ((degC : Int) ≤ level → degC ≤ critical → t.m.evIn = s.m.evIn ∧ t.m.regs = s.m.regs) := by
  intro level critical
  obtain ⟨n, hn, hpwr, hthr, hsame, htick⟩ := Mod.throttleCheck_spec { s.m with pwr := { s.m.pwr with temps := kvSet s.m.pwr.temps sensor degC } } sensor degC
  have hlev : Mod.throttleLevel { s.m with pwr := { s.m.pwr with temps := kvSet s.m.pwr.temps sensor degC } } sensor = level := rfl
  rw [hlev] at hpwr hthr hsame
  have hexec : exec (.tempSample sensor degC) s = .next { s with m := n.criticalCheck sensor degC } :=
    exec_on rfl ((if_pos (by rw [hup, decide_eq_true hsen]; rfl)).trans (by rw [hn]))
  have hep : (level : Int) < degC → n.pwr.episode = true := fun h => by rw [hpwr, decide_eq_true h, Bool.or_true]
  have hsn : degC ≤ level → n.evIn = s.m.evIn ∧ n.regs = s.m.regs := fun h => by
    rw [hsame h]
    exact ⟨rfl, rfl⟩
  have htemps : n.pwr.temps = kvSet s.m.pwr.temps sensor degC := by rw [hpwr]
  have hcrit : n.pwr.critical = s.m.pwr.critical := by rw [hpwr]
  have hst : n.pwr.state = s.m.pwr.state := by rw [hpwr]
  by_cases hfirst : criticalLevel sensor < degC ∧ sensor ∉ s.m.pwr.critical
  · obtain ⟨hc, hnew⟩ := hfirst
    obtain ⟨h1, h2, h3, h4, h5, h6, h7, h8, h9, h10, h11⟩ := n.criticalCheck_first sensor degC hc (by rw [hcrit]; exact hnew)
    refine ⟨_, hexec, h1.trans htemps, fun h => h2.trans (hep h), fun h he => ?_, fun h => (Int.not_le.2 hc h).elim, fun _ => h3,
      fun _ _ => ⟨h4, h5, h6, h7, fun h => h8 (by rw [hst]; exact h)⟩, fun _ h => (Int.not_le.2 hc h).elim⟩
    obtain ⟨t1, t2⟩ := hthr h he
    refine ⟨h9.trans t1, ?_⟩
    rw [Mod.reports] at t2 ⊢
    rw [h10]
    exact h11 _ t2
  · have hrest : degC ≤ criticalLevel sensor ∨ criticalLevel sensor < degC ∧ sensor ∈ n.pwr.critical := by
      rcases Int.lt_or_le (criticalLevel sensor) degC with h | h
      · exact .inr ⟨h, by rw [hcrit]; exact Classical.not_not.1 fun hx => hfirst ⟨h, hx⟩⟩
      · exact .inl h
    obtain ⟨xs, hx, hout, hin⟩ := n.criticalCheck_rest sensor degC hrest
    rw [hx] at hexec
    exact ⟨_, hexec, htemps, hep, fun h he => hthr h he, hout, hin, fun h hne => (hfirst ⟨h, hne⟩).elim, fun h _ => hsn h⟩

theorem execThermalStepTimer_spec (hup : s.m.mgUp = true) (hep : s.m.pwr.episode = true) :
    ∃ t, exec .thermalStepTimer s = .next t ∧ State.sameBut [.pwr] s t
      ∧ (s.m.anyThrottle = true → t.m.pwr.cut = (if 860 * s.m.periodUs < s.m.heatBudget then s.m.pwr.cut + 1 else s.m.pwr.cut)
          ∧ t.m.pwr.episode = true)
      ∧ (s.m.anyThrottle = false → s.m.allCool = true → t.m.pwr.cut = s.m.pwr.cut - 1 ∧ (t.m.pwr.episode = true ↔ 1 < s.m.pwr.cut))
      ∧ (s.m.anyThrottle = false → s.m.allCool = false → t = s) := by
  have hexec : ∀ {n : Mod}, (if s.m.anyThrottle then if floorWatts * s.m.periodUs < s.m.heatBudget then { s.m with pwr := { s.m.pwr with cut := s.m.pwr.cut + 1 } } else s.m
      else if s.m.allCool then { s.m with pwr := { s.m.pwr with cut := s.m.pwr.cut - 1, episode := decide (1 < s.m.pwr.cut) } } else s.m) = n →
      exec .thermalStepTimer s = .next { s with m := n } := fun h => exec_on rfl ((if_pos (by rw [hup, hep]; rfl)).trans h)
  have hsame := fun x => s.m.sameBut_pwr x
  cases hany : s.m.anyThrottle
  · cases hcool : s.m.allCool
    · exact ⟨s, hexec ((if_neg (by rw [hany]; decide)).trans (if_neg (by rw [hcool]; decide))), ⟨rfl, rfl, Mod.sameBut_refl _ _⟩, fun h => Bool.noConfusion h,
        fun _ h => Bool.noConfusion h, fun _ _ => rfl⟩
    · exact ⟨_, hexec ((if_neg (by rw [hany]; decide)).trans (if_pos hcool)), ⟨rfl, rfl, hsame _⟩, fun h => Bool.noConfusion h,
        fun _ _ => ⟨rfl, decide_eq_true_iff⟩, fun _ h => Bool.noConfusion h⟩
  · by_cases hheat : 860 * s.m.periodUs < s.m.heatBudget
    · rw [if_pos hheat]
      exact ⟨_, hexec ((if_pos hany).trans (if_pos hheat)), ⟨rfl, rfl, hsame _⟩, fun _ => ⟨rfl, hep⟩, fun h => Bool.noConfusion h, fun h => Bool.noConfusion h⟩
    · rw [if_neg hheat]
      exact ⟨s, hexec ((if_pos hany).trans (if_neg hheat)), ⟨rfl, rfl, Mod.sameBut_refl _ _⟩, fun _ => ⟨rfl, hep⟩, fun h => Bool.noConfusion h, fun h => Bool.noConfusion h⟩

end

/-! ### Profiles -/

/-- A command that a request on a path runs. -/
theorem exec_via {c : Instr} {s : State} {f : Mod → Mod} {path : Path} {off : Nat} (e : exec c s = .next (s.via path off f)) (h : s.m.pathUp path off = true) :
    exec c s = .next { s with m := f s.m } := by
  rw [e, State.via, State.on, if_pos h]

section
variable (m : Mod) (path : Path)

/-- A refused profile or cap. -/
theorem Mod.profileRefused_told (off req reason : Nat) : (m.profileRefused path off req reason).fget Fld.PWR_ERR_PROFILE = 1
    ∧ (m.profileRefused path off req reason).reports .corrected 0x1007 0 req (pathCode path) reason
    ∧ m.regsKeep [Reg.PWR_ERR.base] (m.profileRefused path off req reason)
    ∧ (reason = 4 → (m.profileRefused path off req reason).reports .corrected 0x0D05 0 (pathCode path) off 0) := by
  unfold Mod.profileRefused
  extract_lets m1
  have hreg : m1.regs = m.regs ∧ m1.tick = m.tick ∧ (reason = 4 → m1.reports .corrected 0x0D05 0 (pathCode path) off 0) := by
    by_cases h : reason = 4
    · rw [show m1 = m.mgmtRefused path off from if_pos h]
      exact ⟨rfl, rfl, fun _ => Mod.raise_reports _ _ _ _ _ _ _⟩
    · rw [show m1 = m from if_neg h]
      exact ⟨rfl, rfl, fun hr => (h hr).elim⟩
  obtain ⟨hr, ht, hrep⟩ := hreg
  clear_value m1
  have herr := m1.fget_fset_bit Fld.PWR_ERR_PROFILE 0 0 rfl
  have hk : m1.regsKeep [Reg.PWR_ERR.base] _ := m1.fset_regsKeep Fld.PWR_ERR_PROFILE 1 0 0
  have hs := m1.fset_sameBut Fld.PWR_ERR_PROFILE 1 0 0
  generalize m1.fset Fld.PWR_ERR_PROFILE 1 = m2 at herr hk hs ⊢
  have hs2 := m2.raise_sameBut .corrected 0x1007 0 req (pathCode path) reason
  have hkept := m2.raise_recordsKept .corrected 0x1007 0 req (pathCode path) reason
  refine ⟨herr, Mod.raise_reports _ _ _ _ _ _ _, ?_, fun h => ?_⟩
  · exact Mod.regsKeep_trans (Mod.regsKeep_of_regs_eq hr _) (Mod.regsKeep_trans hk (Mod.regsKeep_of_regs_eq (hs2.regs (by decide)) _))
  · exact hkept.reports ((Mod.recordsKept.of hs rfl).reports (hrep h))

/-- A write of a register whose fields wait for the boundary. -/
theorem Mod.wordWrite_waits {r : RegSpec} (hr : r.laidOut) {f : FieldSpec} (hf : f ∈ r.fields) (hacc : f.acc = .rwp) (hl : r.has .rwl = false) (v : Nat) :
    bitsOf ((m.wordWrite r 0 0 v).regs.read r 0 0) f.hi f.lo = bitsOf (m.regs.read r 0 0) f.hi f.lo
      ∧ kvGet? (m.wordWrite r 0 0 v).regs.pend (r.addr 0 0) = some v ∧ (m.wordWrite r 0 0 v).evIn = m.evIn := by
  refine ⟨?_, ?_, ?_⟩
  · rw [Mod.wordWrite_read, RegSpec.bitsOf_apply hr hf]
    simp only [FieldSpec.written, hacc]
  · have hp : r.has .rwp = true := List.any_eq_true.2 ⟨f, hf, by rw [hacc]; rfl⟩
    rw [Mod.wordWrite_split]
    dsimp only
    rw [if_pos hp]
    exact kvGet?_kvSet_same _ _ _
  · rw [Mod.wordWrite_split]
    have hq : m.lockedWrite r (r.addr 0 0) v = m := if_neg (by rw [hl, Bool.and_false]; decide)
    rw [hq]

/-- Why a profile is refused: the path, no profile, the variant, air cooling. -/
theorem Mod.profileReason_eq (req cooling : Nat) : m.profileReason path req cooling = if m.pathRefused path then some 4 else if req = 0 then some 3
    else if req = 3 ∧ m.variant then some 1 else if 2 ≤ req ∧ (cooling == 1) = true then some 2 else none := by
  rw [Mod.profileReason]
  simp only [beq_iff_eq]

end

section
variable {m : Mod} {path : Path}

theorem Mod.profileRequest_taken {v : Nat} (h : m.profileReason path (v % 4) (m.fget Fld.PWR_DEFAULT_COOLING) = none) :
    m.profileRequest path v = m.wordWrite Reg.PWR_PROFILE 0 0 (v % 4) := by
  rw [Mod.profileRequest, h]

theorem Mod.profileRequest_refused {v why : Nat} (h : m.profileReason path (v % 4) (m.fget Fld.PWR_DEFAULT_COOLING) = some why) :
    m.profileRequest path v = m.profileRefused path Reg.PWR_PROFILE.base (v % 4) why := by
  rw [Mod.profileRequest, h]

theorem Mod.defaultWrite_taken {v : Nat} {m1 : Mod} (hm : (if m.pathRefused path then m else m.fset Fld.PWR_DEFAULT_COOLING (bitsOf v 2 2)) = m1)
    (h : m.profileReason path (v % 4) (bitsOf v 2 2) = none) : m.defaultWrite path v = m1.fset Fld.PWR_DEFAULT_PROFILE (v % 4) := by
  rw [Mod.defaultWrite, h, ← hm]

theorem Mod.defaultWrite_refused {v why : Nat} {m1 : Mod} (hm : (if m.pathRefused path then m else m.fset Fld.PWR_DEFAULT_COOLING (bitsOf v 2 2)) = m1)
    (h : m.profileReason path (v % 4) (bitsOf v 2 2) = some why) : m.defaultWrite path v = m1.profileRefused path Reg.PWR_DEFAULT.base (v % 4) why := by
  rw [Mod.defaultWrite, h, ← hm]

end

section
variable {s : State} {path : Path}

theorem execProfileRequest_spec (hup : s.m.pathUp path Reg.PWR_PROFILE.base = true) (v : Nat) :
    let reason := s.m.profileReason path (v % 4) (s.m.fget Fld.PWR_DEFAULT_COOLING)
    ∃ t, exec (.profileRequest path v) s = .next t ∧ t.m.fget Fld.PWR_PROFILE_REQ = s.m.fget Fld.PWR_PROFILE_REQ
        ∧ (reason = none → kvGet? t.m.regs.pend Reg.PWR_PROFILE.base = some (v % 4) ∧ t.m.evIn = s.m.evIn)
        ∧ (∀ why, reason = some why → t.m.regs.pend = s.m.regs.pend ∧ t.m.fget Fld.PWR_ERR_PROFILE = 1
            ∧ t.m.reports .corrected 0x1007 0 (v % 4) (pathCode path) why) := by
  intro reason
  have hexec : ∀ {n : Mod}, s.m.profileRequest path v = n → exec (.profileRequest path v) s = .next { s with m := n } := fun h =>
    (exec_via (f := fun m => m.profileRequest path v) rfl hup).trans (by rw [h])
  cases hreason : reason with
  | none =>
    obtain ⟨hreq, hpend, hev⟩ := s.m.wordWrite_waits (table_rows Reg.PWR_PROFILE (by decide)).1 (f := ⟨1, 0, .rwp, 1⟩) (List.mem_singleton.2 rfl) rfl (by decide) (v % 4)
    exact ⟨_, hexec (Mod.profileRequest_taken hreason), hreq, fun _ => ⟨hpend, hev⟩, fun _ h => nomatch h⟩
  | some why =>
    obtain ⟨herr, hrep, hk, -⟩ := s.m.profileRefused_told path Reg.PWR_PROFILE.base (v % 4) why
    obtain ⟨-, hpend, -⟩ := s.m.profileRefused_kept path Reg.PWR_PROFILE.base (v % 4) why
    refine ⟨_, hexec (Mod.profileRequest_refused hreason), Mod.regsKeep_fget hk _ _ _ (by decide), (fun h => nomatch h), fun w h => ?_⟩
    cases h
    exact ⟨hpend, herr, hrep⟩

theorem execCapWrite_spec (hup : s.m.pathUp path Reg.PWR_CAP.base = true) (v : Nat) :
    let w := v % 4096
    ∃ t, exec (.capWrite path v) s = .next t ∧ t.m.fget Fld.PWR_CAP_WATTS = s.m.fget Fld.PWR_CAP_WATTS
        ∧ (s.m.pathRefused path = false → w = 0 ∨ 900 ≤ w → kvGet? t.m.regs.pend Reg.PWR_CAP.base = some w ∧ t.m.evIn = s.m.evIn)
        ∧ (s.m.pathRefused path = false → 1 ≤ w → w ≤ 899 → t.m.regs.pend = s.m.regs.pend ∧ t.m.fget Fld.PWR_ERR_PROFILE = 1)
        ∧ (s.m.pathRefused path = true → t.m.regs.pend = s.m.regs.pend ∧ t.m.reports .corrected 0x0D05 0 (pathCode path) Reg.PWR_CAP.base 0) := by
  intro w
  have hexec : ∀ {n : Mod}, (if s.m.pathRefused path then s.m.profileRefused path Reg.PWR_CAP.base w 4 else if 1 ≤ w ∧ w ≤ 899 then s.m.profileRefused path Reg.PWR_CAP.base w 5
      else s.m.wordWrite Reg.PWR_CAP 0 0 w) = n → exec (.capWrite path v) s = .next { s with m := n } := fun h =>
    (exec_via (f := fun m => m.capWrite path v) rfl hup).trans (by rw [← h]; rfl)
  have hkept := fun reason => s.m.profileRefused_kept path Reg.PWR_CAP.base w reason
  have htold := fun reason => s.m.profileRefused_told path Reg.PWR_CAP.base w reason
  by_cases hp : s.m.pathRefused path = true
  · exact ⟨_, hexec (if_pos hp), (hkept 4).1, fun h => Bool.noConfusion (h.symm.trans hp), fun h => Bool.noConfusion (h.symm.trans hp), fun _ => ⟨(hkept 4).2.1, (htold 4).2.2.2 rfl⟩⟩
  · by_cases hw : 1 ≤ w ∧ w ≤ 899
    · exact ⟨_, hexec ((if_neg hp).trans (if_pos hw)), (hkept 5).1, fun _ h => by omega, fun _ _ _ => ⟨(hkept 5).2.1, (htold 5).1⟩, fun h => (hp h).elim⟩
    · obtain ⟨hreq, hpend, hev⟩ := s.m.wordWrite_waits (table_rows Reg.PWR_CAP (by decide)).1 (f := ⟨11, 0, .rwp, 0⟩) (List.mem_singleton.2 rfl) rfl (by decide) w
      exact ⟨_, hexec ((if_neg hp).trans (if_neg hw)), hreq, fun _ _ => ⟨hpend, hev⟩, fun _ h1 h2 => (hw ⟨h1, h2⟩).elim, fun h => (hp h).elim⟩

theorem execDefaultProfileWrite_spec (hup : s.m.pathUp path Reg.PWR_DEFAULT.base = true) (v : Nat) :
    let reason := s.m.profileReason path (v % 4) (bitsOf v 2 2)
    ∃ t, exec (.defaultProfileWrite path v) s = .next t
        ∧ t.m.fget Fld.PWR_DEFAULT_COOLING = (if s.m.pathRefused path then s.m.fget Fld.PWR_DEFAULT_COOLING else bitsOf v 2 2)
        ∧ (reason = none → t.m.fget Fld.PWR_DEFAULT_PROFILE = v % 4 ∧ s.m.regsKeep [Reg.PWR_DEFAULT.base] t.m)
        ∧ (∀ why, reason = some why → t.m.fget Fld.PWR_DEFAULT_PROFILE = s.m.fget Fld.PWR_DEFAULT_PROFILE
            ∧ t.m.fget Fld.PWR_ERR_PROFILE = 1 ∧ t.m.reports .corrected 0x1007 0 (v % 4) (pathCode path) why) := by
  intro reason
  have hexec : ∀ {n : Mod}, s.m.defaultWrite path v = n → exec (.defaultProfileWrite path v) s = .next { s with m := n } := fun h =>
    (exec_via (f := fun m => m.defaultWrite path v) rfl hup).trans (by rw [h])
  have hcool : ∃ m1, (if s.m.pathRefused path then s.m else s.m.fset Fld.PWR_DEFAULT_COOLING (bitsOf v 2 2)) = m1
      ∧ m1.fget Fld.PWR_DEFAULT_COOLING = (if s.m.pathRefused path then s.m.fget Fld.PWR_DEFAULT_COOLING else bitsOf v 2 2)
      ∧ m1.fget Fld.PWR_DEFAULT_PROFILE = s.m.fget Fld.PWR_DEFAULT_PROFILE ∧ s.m.regsKeep [Reg.PWR_DEFAULT.base] m1 := by
    refine ⟨_, rfl, ?_⟩
    by_cases hp : s.m.pathRefused path = true
    · rw [if_pos hp, if_pos hp]
      exact ⟨rfl, rfl, Mod.regsKeep_of_regs_eq rfl _⟩
    · rw [if_neg hp, if_neg hp]
      refine ⟨(s.m.fget_fset_same Fld.PWR_DEFAULT_COOLING _ 0 0 (by decide)).trans (Nat.mod_eq_of_lt ?_),
        s.m.fget_fset_otherField Fld.PWR_DEFAULT_COOLING Fld.PWR_DEFAULT_PROFILE _ 0 0 rfl (by decide) (by decide), s.m.fset_regsKeep Fld.PWR_DEFAULT_COOLING _ 0 0⟩
      exact Nat.mod_lt _ (by decide)
  obtain ⟨m1, hm1, hc, hprof, hk⟩ := hcool
  cases hreason : reason with
  | none =>
    refine ⟨_, hexec (Mod.defaultWrite_taken hm1 hreason), ?_, fun _ => ⟨?_, ?_⟩, fun _ h => nomatch h⟩
    · exact (m1.fget_fset_otherField Fld.PWR_DEFAULT_PROFILE Fld.PWR_DEFAULT_COOLING _ 0 0 rfl (by decide) (by decide)).trans hc
    · exact (m1.fget_fset_same Fld.PWR_DEFAULT_PROFILE _ 0 0 (by decide)).trans (Nat.mod_mod _ _)
    · exact Mod.regsKeep_trans hk (m1.fset_regsKeep Fld.PWR_DEFAULT_PROFILE _ 0 0)
  | some why =>
    obtain ⟨herr, hrep, hk2, -⟩ := m1.profileRefused_told path Reg.PWR_DEFAULT.base (v % 4) why
    refine ⟨_, hexec (Mod.defaultWrite_refused hm1 hreason), ?_, (fun h => nomatch h), fun w h => ?_⟩
    · rw [Mod.regsKeep_fget hk2 _ _ _ (by decide)]
      exact hc
    · cases h
      exact ⟨(Mod.regsKeep_fget hk2 _ _ _ (by decide)).trans hprof, herr, hrep⟩

end

end Sys2Proof.Machine
end

section
/-! PROOF. The statement of the power states (17_power_reset.md R445 to R449): ports and stacks of a module that rests, and the states. -/

namespace Sys2Proof.Machine

/-! ### Stacks and ports that go to rest -/

/-- A stack's state is in its own register. -/
theorem stack_addr_ne {i k : Nat} (h : i ≠ k) : Fld.HBM_STACK_STATUS_STATE.reg.addr i 0 ≠ Fld.HBM_STACK_STATUS_STATE.reg.addr k 0 := by
  simp only [Fld.HBM_STACK_STATUS_STATE, Reg.HBM_STACK_STATUS, RegSpec.addr]
  omega

section
variable (m : Mod)

theorem Mod.foldl_hbmTo {a b : Nat} (hb : b < 8) (ks : List Nat) (hn : ks.Nodup) (i : Nat) :
    (ks.foldl (fun (x : Mod) k => if x.fget Fld.HBM_STACK_STATUS_STATE k = a then x.fset Fld.HBM_STACK_STATUS_STATE b k else x) m).fget Fld.HBM_STACK_STATUS_STATE i
      = if i ∈ ks ∧ m.fget Fld.HBM_STACK_STATUS_STATE i = a then b else m.fget Fld.HBM_STACK_STATUS_STATE i := by
  induction ks generalizing m with
  | nil => exact (if_neg (fun h => List.not_mem_nil h.1)).symm
  | cons k ks ih =>
    obtain ⟨hk, hks⟩ := List.nodup_cons.1 hn
    rw [List.foldl_cons, ih _ hks]
    have hother : i ≠ k → (if m.fget Fld.HBM_STACK_STATUS_STATE k = a then m.fset Fld.HBM_STACK_STATUS_STATE b k else m).fget Fld.HBM_STACK_STATUS_STATE i
        = m.fget Fld.HBM_STACK_STATUS_STATE i := fun hik => by
      split
      · exact m.fget_fset_otherReg _ _ _ _ _ _ _ (stack_addr_ne hik)
      · rfl
    by_cases hik : i = k
    · subst hik
      rw [if_neg (fun h => hk h.1)]
      by_cases ha : m.fget Fld.HBM_STACK_STATUS_STATE i = a
      · rw [if_pos ha, if_pos ⟨List.mem_cons_self, ha⟩]
        exact (m.fget_fset_same Fld.HBM_STACK_STATUS_STATE b i 0 (by decide)).trans (Nat.mod_eq_of_lt hb)
      · rw [if_neg ha, if_neg (fun h => ha h.2)]
    · rw [hother hik]
      simp only [List.mem_cons, hik, false_or]

theorem Mod.hbmTo_spec {a b : Nat} (hb : b < 8) {i : Nat} (hi : i < 12) :
    (m.hbmTo a b).fget Fld.HBM_STACK_STATUS_STATE i = if m.fget Fld.HBM_STACK_STATUS_STATE i = a then b else m.fget Fld.HBM_STACK_STATUS_STATE i := by
  rw [Mod.hbmTo, m.foldl_hbmTo hb _ List.nodup_range]
  simp only [List.mem_range, hi, true_and]

/-- A change of stack states leaves the registers of other blocks. -/
theorem Mod.hbmTo_fget (a b : Nat) (f : Fld) (i j : Nat) (hf : ∀ k, f.reg.addr i j ≠ Reg.HBM_STACK_STATUS.addr k 0) : (m.hbmTo a b).fget f i j = m.fget f i j := by
  unfold Mod.hbmTo
  generalize List.range 12 = ks
  induction ks generalizing m with
  | nil => rfl
  | cons k ks ih =>
    rw [List.foldl_cons, ih]
    split
    · exact m.fget_fset_otherReg _ _ _ _ _ _ _ (hf k)
    · rfl

end

/-- The register at an offset lies outside the fabric block, and is not the trace's pointer. -/
def offFabric (a : Nat) : Prop := (a < 0xC00000 ∨ 0xC41000 ≤ a) ∧ a ≠ 0x1200408

/-- `n` is `m` with the ports `ps` DOWN, but for disabled ones. -/
structure Mod.portsDown (ps : List Nat) (m n : Mod) : Prop where
  st : ∀ p, (n.port p).st = if p ∈ ps ∧ (m.port p).st ≠ .disabled then .down else (m.port p).st
  far : ∀ (f : Fld) (i j : Nat), offFabric (f.reg.addr i j) → n.fget f i j = m.fget f i j

theorem Mod.portTo_down {m : Mod} {p : Nat} (hp : p < 64) : Mod.portsDown [p] m (if (m.port p).st = .disabled then m else m.portTo p .down 11) := by
  by_cases hd : (m.port p).st = .disabled
  · rw [if_pos hd]
    refine ⟨fun q => ?_, fun _ _ _ _ => rfl⟩
    by_cases hq : q = p
    · rw [hq, if_neg (fun h => h.2 hd)]
    · rw [if_neg (fun h => hq (List.mem_singleton.1 h.1))]
  · rw [if_neg hd]
    have h := m.portTo_moved p (st := .down) (cause := 11) (by decide) hd
    refine ⟨fun q => ?_, fun f i j hf => Mod.regsKeep_fget h.regs f i j ?_⟩
    · by_cases hq : q = p
      · rw [hq, h.st, if_pos ⟨List.mem_singleton.2 rfl, hd⟩]
      · rw [h.others_st q hq, if_neg (fun hm => hq (List.mem_singleton.1 hm.1))]
    · generalize f.reg.addr i j = a at hf ⊢
      obtain ⟨hblock, htrace⟩ := hf
      simp only [List.mem_cons, List.not_mem_nil, or_false, not_or]
      refine ⟨?_, ?_, htrace, ?_⟩ <;> simp only [RegSpec.addr, Reg.FAB_STATUS, Reg.FAB_ERR, Reg.FAB_UNREACH] <;> omega

theorem Mod.portsDown_foldl (m : Mod) (ps : List Nat) (hps : ∀ p ∈ ps, p < 64) :
    Mod.portsDown ps m (ps.foldl (fun x p => if (x.port p).st = .disabled then x else x.portTo p .down 11) m) := by
  induction ps generalizing m with
  | nil => exact ⟨fun p => (if_neg (fun h => List.not_mem_nil h.1)).symm, fun _ _ _ _ => rfl⟩
  | cons q qs ih =>
    have h1 := Mod.portTo_down (m := m) (hps q List.mem_cons_self)
    rw [List.foldl_cons]
    generalize (if (m.port q).st = .disabled then m else m.portTo q .down 11 : Mod) = m1 at h1 ⊢
    have h2 := ih m1 fun p hp => hps p (List.mem_cons_of_mem _ hp)
    refine ⟨fun p => ?_, fun f i j hf => (h2.far f i j hf).trans (h1.far f i j hf)⟩
    rw [h2.st, h1.st]
    simp only [List.mem_cons, List.not_mem_nil, or_false]
    by_cases hd : (m.port p).st = .disabled
    · simp [hd]
    · by_cases hq : p = q
      · simp [hq ▸ hd, hq]
      · simp [hq]

theorem Mod.portsPower_spec (m : Mod) : Mod.portsDown (List.range 64) m m.portsPower := m.portsDown_foldl _ fun _ => List.mem_range.1

/-- The ports DOWN and the stacks in self-refresh. -/
theorem Mod.rested_spec (m : Mod) : (∀ p, p < 64 → (m.port p).st ≠ .disabled → ((m.portsPower.hbmTo 2 3).port p).st = .down)
    ∧ (∀ i, i < 12 → (m.portsPower.hbmTo 2 3).fget Fld.HBM_STACK_STATUS_STATE i = if m.fget Fld.HBM_STACK_STATUS_STATE i = 2 then 3 else m.fget Fld.HBM_STACK_STATUS_STATE i)
    ∧ Mod.sameBut [.regs, .evIn, .fab, .dbg] m (m.portsPower.hbmTo 2 3) := by
  have h := m.portsPower_spec
  have hs := m.portsPower_sameBut
  generalize m.portsPower = n at h hs ⊢
  have hs2 := n.hbmTo_sameBut 2 3
  refine ⟨fun p hp hd => ?_, fun i hi => ?_, Mod.sameBut_trans hs (Mod.sameBut_mono hs2 (by decide))⟩
  · rw [hs2.port (by decide) (by decide), h.st, if_pos ⟨List.mem_range.2 hp, hd⟩]
  · have hfar : offFabric (Fld.HBM_STACK_STATUS_STATE.reg.addr i 0) := by
      simp only [offFabric, Fld.HBM_STACK_STATUS_STATE, Reg.HBM_STACK_STATUS, RegSpec.addr]
      omega
    rw [n.hbmTo_spec (by decide) hi, h.far _ _ _ hfar]

/-- PARK left. -/
theorem Mod.parkExit_spec (m : Mod) : m.parkExit.pwr = { m.pwr with state := .idle, idleCount := 0 } ∧ Mod.sameBut [.regs, .pwr] m m.parkExit
    ∧ (m.dbg.stopped = false → ∀ i, i < 12 → m.parkExit.fget Fld.HBM_STACK_STATUS_STATE i
        = if m.fget Fld.HBM_STACK_STATUS_STATE i = 3 then 2 else m.fget Fld.HBM_STACK_STATUS_STATE i) := by
  have hs := m.parkExit_sameBut
  unfold Mod.parkExit at hs ⊢
  dsimp only at hs ⊢
  by_cases hd : m.dbg.stopped = true
  · rw [if_pos hd] at hs ⊢
    exact ⟨rfl, hs, fun h => Bool.noConfusion (h.symm.trans hd)⟩
  · rw [if_neg hd] at hs ⊢
    exact ⟨(Mod.hbmTo_sameBut _ 3 2).pwr (by decide), hs, fun _ i hi => Mod.hbmTo_spec _ (by decide) hi⟩

/-! ### The freeze -/

/-- The debug unit is kept but for the trace. -/
def Mod.dbgKept (m n : Mod) : Prop := ∃ tr st post, n.dbg = { m.dbg with trace := tr, traceSt := st, post := post }

theorem Mod.dbgKept.of_eq {m n : Mod} (h : n.dbg = m.dbg) : Mod.dbgKept m n := ⟨m.dbg.trace, m.dbg.traceSt, m.dbg.post, h⟩

theorem Mod.dbgKept.trans {l m n : Mod} (h1 : Mod.dbgKept l m) (h2 : Mod.dbgKept m n) : Mod.dbgKept l n := by
  obtain ⟨tr1, st1, post1, h1⟩ := h1
  obtain ⟨tr, st, post, h2⟩ := h2
  exact ⟨tr, st, post, by rw [h2, h1]⟩

theorem Mod.trace_dbgKept (m : Mod) (kind inst d0 d1 d2 d3 : Nat) : Mod.dbgKept m (m.trace kind inst d0 d1 d2 d3) := by
  unfold Mod.trace
  extract_lets ix r _ m1 m2 full m3 stop1 _ m4
  split
  · have h1 : Mod.dbgKept m m1 := ⟨_, _, _, rfl⟩
    have h3 : m3.dbg = m1.dbg := by
      change (if full = true then m2.fset Fld.DBG_TRACE_PTR_WRAPPED 1 else m2 : Mod).dbg = m1.dbg
      split
      · rfl
      · rfl
    have h4 : Mod.dbgKept m3 m4 := by
      change Mod.dbgKept m3 (if stop1 = true then { m3 with dbg := { m3.dbg with traceSt := 2 } } else m3)
      split
      · exact ⟨_, _, _, rfl⟩
      · exact .of_eq rfl
    refine (h1.trans (.of_eq h3)).trans (h4.trans ?_)
    split
    · exact ⟨_, _, _, rfl⟩
    · exact .of_eq rfl
  · exact .of_eq rfl

theorem Mod.portTo_dbgKept (m : Mod) (p : Nat) (st : PortState) (cause : Nat) : Mod.dbgKept m (m.portTo p st cause) := by
  unfold Mod.portTo
  extract_lets x leaves owed y _ z m1 m2 m3
  split
  · exact .of_eq rfl
  · have h1 : m1.dbg = m.dbg := ((Mod.fset_sameBut (m.setPort p z) Fld.FAB_STATUS_CAUSE cause p 0).dbg (by decide)).trans ((m.setPort_sameBut p z).dbg (by decide))
    clear_value m1
    have h2 : m2.dbg = m1.dbg := by
      change (if st = .failed then m1.fset Fld.FAB_ERR_FAILED 1 p else m1 : Mod).dbg = m1.dbg
      split
      · exact (m1.fset_sameBut _ _ _ _).dbg (by decide)
      · rfl
    clear_value m2
    have h3 : m3.dbg = m2.dbg := by
      change (if _ then _ else m2 : Mod).dbg = m2.dbg
      split
      · rw [(Mod.raise_sameBut _ _ _ _ _ _ _).dbg (by decide), (m2.fset_sameBut _ _ _ _).dbg (by decide)]
      · rfl
    clear_value m3
    have h4 := m3.trace_dbgKept 7 p st.code cause 0 0
    exact (Mod.dbgKept.of_eq (h3.trans (h2.trans h1))).trans (h4.trans (.of_eq ((Mod.reroute_sameBut _ _).dbg (by decide))))

theorem Mod.portsPower_dbgKept (m : Mod) : Mod.dbgKept m m.portsPower := by
  unfold Mod.portsPower
  generalize List.range 64 = ps
  induction ps generalizing m with
  | nil => exact .of_eq rfl
  | cons p ps ih =>
    rw [List.foldl_cons]
    refine Mod.dbgKept.trans ?_ (ih _)
    split
    · exact .of_eq rfl
    · exact m.portTo_dbgKept _ _ _

/-- A pending activation is cancelled, the registers of other blocks kept. -/
theorem Mod.cancelActivation_spec (m : Mod) : (∀ r, m.plt.pending = some r → r.activate = true → m.cancelActivation.plt.pending = none)
    ∧ Mod.sameBut [.regs, .evIn, .host, .plt] m m.cancelActivation
    ∧ (∀ (f : Fld) (i j : Nat), f.reg.addr i j ≠ Reg.PLT_ACT_RESULT.base → m.cancelActivation.fget f i j = m.fget f i j) := by
  refine ⟨fun r hr ha => ?_, m.cancelActivation_sameBut, fun f i j hf => ?_⟩
  · unfold Mod.cancelActivation
    rw [if_pos (by rw [hr]; exact ha)]
    unfold Mod.cancelPending
    rw [hr]
    exact congrArg PlateUnit.pending ((Mod.actRefused_sameBut { m with plt := { m.plt with pending := none } } r.slot r.target 5).plt (by decide))
  · unfold Mod.cancelActivation
    split
    · unfold Mod.cancelPending
      split
      · rfl
      · next r hr =>
        unfold Mod.actRefused
        rw [(Mod.msix_sameBut _ _).fget (by decide), Mod.fget_raise, Mod.fget_fset_otherReg _ _ _ _ _ _ _ _ hf]
        rfl
    · rfl

/-- What the freeze edge leaves. -/
structure Mod.frozen (m n : Mod) : Prop where
  stopped : n.dbg.stopped = true
  wait : n.dbg.frzWait = false
  pin : n.dbg.frzPin = m.dbg.frzPin
  reg : n.dbg.frzReg = m.dbg.frzReg
  tick : n.get64 Fld.DBG_FRZ_TICK_LO_TICK Fld.DBG_FRZ_TICK_HI_TICK = m.tick.count % 2 ^ 48
  cycle : n.fget Fld.DBG_FRZ_CYCLE_CYCLE = m.tick.cycle % 2 ^ 16
  ports : ∀ p, p < 64 → (m.port p).st ≠ .disabled → (n.port p).st = .down
  hbm : ∀ i, i < 12 → n.fget Fld.HBM_STACK_STATUS_STATE i
    = if m.fget Fld.HBM_STACK_STATUS_STATE i = 2 ∧ m.dbg.memread = false then 3 else m.fget Fld.HBM_STACK_STATUS_STATE i
  pending : ∀ r, m.plt.pending = some r → r.activate = true → n.plt.pending = none
  rest : Mod.sameBut [.regs, .evIn, .host, .plt, .fab, .dbg] m n

theorem Mod.freeze_spec (m : Mod) : Mod.frozen m m.freeze := by
  have hsame := m.freeze_sameBut
  generalize hr : m.freeze = n at hsame ⊢
  unfold Mod.freeze at hr
  extract_lets _ m1 m2 m3 at hr
  have hd1 : m1.dbg = { m.dbg with stopped := true, frzWait := false, ready := false } := rfl
  have hs1 : Mod.sameBut [.dbg] m m1 := m.sameBut_dbg _
  have hst : Mod.sameBut [.regs] m1 (m1.set64 Fld.DBG_FRZ_TICK_LO_TICK Fld.DBG_FRZ_TICK_HI_TICK m.tick.count) := Mod.set64_sameBut _ _ _ _ _
  have htick := m1.get64_set64 (lo := Fld.DBG_FRZ_TICK_LO_TICK) (hi := Fld.DBG_FRZ_TICK_HI_TICK) 0 m.tick.count (by decide) (by decide) (by decide)
  have hkt := m1.set64_regsKeep Fld.DBG_FRZ_TICK_LO_TICK Fld.DBG_FRZ_TICK_HI_TICK m.tick.count 0
  have hm2 : m2 = (m1.set64 Fld.DBG_FRZ_TICK_LO_TICK Fld.DBG_FRZ_TICK_HI_TICK m.tick.count).fset Fld.DBG_FRZ_CYCLE_CYCLE m.tick.cycle := rfl
  generalize m1.set64 Fld.DBG_FRZ_TICK_LO_TICK Fld.DBG_FRZ_TICK_HI_TICK m.tick.count = mt at hst htick hkt hm2
  have hsc := mt.fset_sameBut Fld.DBG_FRZ_CYCLE_CYCLE m.tick.cycle 0 0
  have hkc : mt.regsKeep [Reg.DBG_FRZ_CYCLE.base] _ := mt.fset_regsKeep Fld.DBG_FRZ_CYCLE_CYCLE m.tick.cycle 0 0
  have hcyc := mt.fget_fset_same Fld.DBG_FRZ_CYCLE_CYCLE m.tick.cycle 0 0 (by decide)
  rw [show mt.fset Fld.DBG_FRZ_CYCLE_CYCLE m.tick.cycle = m2 from hm2.symm] at hsc hkc hcyc
  clear_value m2 m1
  obtain ⟨hpend, hsa, hka⟩ := m2.cancelActivation_spec
  have hm3 : m3 = m2.cancelActivation.portsPower := rfl
  generalize m2.cancelActivation = ma at hpend hsa hka hm3
  have hdown := ma.portsPower_spec
  have hsp := ma.portsPower_sameBut
  have hdk := ma.portsPower_dbgKept
  rw [← hm3] at hdown hsp hdk
  clear_value m3
  have hs2 : Mod.sameBut [.regs, .dbg] m m2 := Mod.sameBut_trans (Mod.sameBut_mono hs1 (by decide)) (Mod.sameBut_trans (Mod.sameBut_mono hst (by decide)) (Mod.sameBut_mono hsc (by decide)))
  have hsma : Mod.sameBut [.regs, .evIn, .host, .plt, .dbg] m ma := Mod.sameBut_trans (Mod.sameBut_mono hs2 (by decide)) (Mod.sameBut_mono hsa (by decide))
  have hdbg : ma.dbg = { m.dbg with stopped := true, frzWait := false, ready := false } := by
    rw [hsa.dbg (by decide), hsc.dbg (by decide), hst.dbg (by decide), hd1]
  obtain ⟨tr, st, post, hdk⟩ := hdk
  rw [hdbg] at hdk
  have hend : Mod.sameBut [.regs] m3 n
      ∧ (∀ (f : Fld) (i j : Nat), (∀ k, f.reg.addr i j ≠ Reg.HBM_STACK_STATUS.addr k 0) → n.fget f i j = m3.fget f i j)
      ∧ ∀ i, i < 12 → n.fget Fld.HBM_STACK_STATUS_STATE i
        = if m3.fget Fld.HBM_STACK_STATUS_STATE i = 2 ∧ m.dbg.memread = false then 3 else m3.fget Fld.HBM_STACK_STATUS_STATE i := by
    rw [← hr]
    cases hmr : m.dbg.memread
    · refine ⟨m3.hbmTo_sameBut 2 3, fun f i j hf => m3.hbmTo_fget 2 3 f i j hf, fun i hi => ?_⟩
      rw [if_neg Bool.false_ne_true, m3.hbmTo_spec (by decide) hi]
      simp only [and_true]
    · refine ⟨Mod.sameBut_refl _ _, fun _ _ _ _ => rfl, fun i hi => (if_neg fun h => Bool.noConfusion h.2).symm⟩
  obtain ⟨hsn, hfar, hhbm⟩ := hend
  have hkeep : ∀ f : Fld, offFabric (f.reg.addr 0 0) → (∀ k, f.reg.addr 0 0 ≠ Reg.HBM_STACK_STATUS.addr k 0) → f.reg.addr 0 0 ≠ Reg.PLT_ACT_RESULT.base →
      n.fget f = m2.fget f := fun f h1 h2 h3 => by rw [hfar f 0 0 h2, hdown.far f 0 0 h1, hka f 0 0 h3]
  have hdbgn : n.dbg = _ := (hsn.dbg (by decide)).trans hdk
  have hoff : ∀ a ∈ [0x1200304, 0x1200308, 0x120030C], offFabric a ∧ (∀ k, a ≠ Reg.HBM_STACK_STATUS.addr k 0) ∧ a ≠ Reg.PLT_ACT_RESULT.base := fun a ha => by
    simp only [List.mem_cons, List.not_mem_nil, or_false] at ha
    refine ⟨⟨by omega, by omega⟩, fun k => ?_, ?_⟩
    · simp only [RegSpec.addr, Reg.HBM_STACK_STATUS]
      omega
    · simp only [Reg.PLT_ACT_RESULT]
      omega
  obtain ⟨l1, l2, l3⟩ := hoff (Fld.DBG_FRZ_TICK_LO_TICK.reg.addr 0 0) (by decide)
  obtain ⟨u1, u2, u3⟩ := hoff (Fld.DBG_FRZ_TICK_HI_TICK.reg.addr 0 0) (by decide)
  obtain ⟨c1, c2, c3⟩ := hoff (Fld.DBG_FRZ_CYCLE_CYCLE.reg.addr 0 0) (by decide)
  refine ⟨by rw [hdbgn], by rw [hdbgn], by rw [hdbgn], by rw [hdbgn], ?_, ?_, fun p hp hd => ?_, fun i hi => ?_, fun r hr ha => ?_, hsame⟩
  · rw [Mod.get64, hkeep _ l1 l2 l3, hkeep _ u1 u2 u3, ← Mod.get64, Mod.get64_of_regsKeep hkc _ _ _ (by decide) (by decide)]
    exact htick
  · rw [hkeep _ c1 c2 c3, hcyc]
    rfl
  · rw [hsn.port (by decide) (by decide), hdown.st, hsma.port (by decide) (by decide), if_pos ⟨List.mem_range.2 hp, hd⟩]
  · have hstack : m3.fget Fld.HBM_STACK_STATUS_STATE i = m.fget Fld.HBM_STACK_STATUS_STATE i := by
      have ha : Fld.HBM_STACK_STATUS_STATE.reg.addr i 0 = 0x800000 + i * 0x100 := by simp only [Fld.HBM_STACK_STATUS_STATE, Reg.HBM_STACK_STATUS, RegSpec.addr, Nat.zero_mul, Nat.add_zero]
      have hne : ∀ b ∈ [0x1200304, 0x1200308, 0x120030C, Reg.PLT_ACT_RESULT.base], Fld.HBM_STACK_STATUS_STATE.reg.addr i 0 ≠ b := fun b hb => by
        rw [ha]
        simp only [List.mem_cons, List.not_mem_nil, or_false, Reg.PLT_ACT_RESULT] at hb
        omega
      rw [hdown.far _ _ _ (by rw [ha, offFabric]; omega), hka _ _ _ (hne Reg.PLT_ACT_RESULT.base (by decide)), Mod.regsKeep_fget hkc _ _ _ (fun h => hne Reg.DBG_FRZ_CYCLE.base (by decide) (List.mem_singleton.1 h)),
        Mod.regsKeep_fget hkt _ _ _ (fun h => ?_), hs1.fget (by decide)]
      rcases List.mem_cons.1 h with h | h
      · exact hne 0x1200304 (by decide) h
      · exact hne 0x1200308 (by decide) (List.mem_singleton.1 h)
    rw [hhbm i hi, hstack]
  · have hp : n.plt = ma.plt := by rw [hsn.plt (by decide), hsp.plt (by decide)]
    rw [hp]
    exact hpend r (by rw [hs2.plt (by decide)]; exact hr) ha

/-! ### The commands -/

section
variable {s : State}

theorem Mod.criticals_isEmpty {xs : NatSet} : (!xs.isEmpty) = true ↔ xs ≠ [] := by cases xs <;> simp

theorem execActiveRequest_spec {path : Path} (hup : s.m.pathUp path Reg.PWR_STATE_REQ.base = true) :
    (s.m.pwr.state = .park → s.m.pwr.dip ≠ .asserted → s.m.pwr.critical = [] →
      ∃ t, exec (.activeRequest path) s = .next t ∧ t.m.pwr = { s.m.pwr with state := .idle, idleCount := 0 }
        ∧ (s.m.dbg.stopped = false → ∀ i, i < 12 → t.m.fget Fld.HBM_STACK_STATUS_STATE i
            = if s.m.fget Fld.HBM_STACK_STATUS_STATE i = 3 then 2 else s.m.fget Fld.HBM_STACK_STATUS_STATE i)
        ∧ State.sameBut [.regs, .pwr] s t) ∧
    (s.m.pwr.state = .park → s.m.pwr.dip = .asserted ∨ s.m.pwr.critical ≠ [] →
      ∃ t, exec (.activeRequest path) s = .next t ∧ t.m.pwr = s.m.pwr ∧ t.m.fget Fld.PWR_ERR_STATE = 1
        ∧ t.m.reports .corrected 0x1008 0 1 (if s.m.pwr.dip = .asserted then 0 else 1) 0) ∧
    (s.m.pwr.state ≠ .park → exec (.activeRequest path) s = .next s) := by
  have hexec : ∀ {n : Mod}, s.m.activeRequest = n → exec (.activeRequest path) s = .next { s with m := n } := fun h =>
    (exec_via (f := Mod.activeRequest) rfl hup).trans (by rw [h])
  refine ⟨fun hst hdip hcrit => ?_, fun hst href => ?_, fun hst => hexec (if_pos hst)⟩
  · obtain ⟨h1, h2, h3⟩ := s.m.parkExit_spec
    refine ⟨_, hexec ((if_neg fun h => h hst).trans (if_neg ?_)), h1, h3, rfl, rfl, h2⟩
    rw [Mod.criticals_isEmpty]
    exact fun h => h.elim hdip (fun h => h hcrit)
  · have hs := s.m.fset_sameBut Fld.PWR_ERR_STATE 1 0 0
    have hb := s.m.fget_fset_bit Fld.PWR_ERR_STATE 0 0 rfl
    have hexec := hexec ((if_neg fun h => h hst).trans (if_pos (by rw [Mod.criticals_isEmpty]; exact href)))
    generalize s.m.fset Fld.PWR_ERR_STATE 1 = m1 at hs hb hexec
    exact ⟨_, hexec, hs.pwr (by decide), hb, Mod.raise_reports _ _ _ _ _ _ _⟩

/-- What a module that goes to rest leaves. -/
def Mod.rests (m n : Mod) : Prop :=
  (∀ p, p < 64 → (m.port p).st ≠ .disabled → (n.port p).st = .down) ∧
      (∀ i, i < 12 → n.fget Fld.HBM_STACK_STATUS_STATE i = if m.fget Fld.HBM_STACK_STATUS_STATE i = 2 then 3 else m.fget Fld.HBM_STACK_STATUS_STATE i) ∧
      n.plt = m.plt ∧ n.pool = m.pool ∧ n.mem = m.mem ∧ n.stm = m.stm

theorem Mod.rests_of {m k : Mod} (hs : Mod.sameBut [.step, .pwr] m k) : Mod.rests m (k.portsPower.hbmTo 2 3) := by
  obtain ⟨h1, h2, h3⟩ := k.rested_spec
  refine ⟨fun p hp hd => h1 p hp (by rw [hs.port (by decide) (by decide)]; exact hd), fun i hi => ?_, ?_, ?_, ?_, ?_⟩
  · rw [h2 i hi, hs.fget (by decide)]
  · rw [h3.plt (by decide), hs.plt (by decide)]
  · rw [h3.pool (by decide), hs.pool (by decide)]
  · rw [h3.mem (by decide), hs.mem (by decide)]
  · rw [h3.stm (by decide), hs.stm (by decide)]

theorem execParkEntry_spec :
    let quiet := s.m.running && s.m.pwr.parkReq && s.m.atBoundary && !s.m.stepBusy && !s.m.anyFlight
    (quiet = true → ∃ t, exec .parkEntry s = .next t ∧ t.m.pwr = { s.m.pwr with state := .park, parkReq := false, noSteps := false } ∧ Mod.rests s.m t.m) ∧
    (quiet = false → exec .parkEntry s = .next s) := by
  intro quiet
  have hquiet : quiet = (s.m.running && (s.m.pwr.parkReq && s.m.atBoundary && !s.m.stepBusy && !s.m.anyFlight)) := by simp only [quiet, Bool.and_assoc]
  rw [hquiet]
  refine ⟨fun h => ?_, fun h => exec_unit_self rfl fun hr => if_neg (by rw [hr, Bool.true_and] at h; rw [h]; decide)⟩
  obtain ⟨hr, hq⟩ := Bool.and_eq_true_iff.1 h
  have hp := s.m.sameBut_pwr { s.m.pwr with state := .park, parkReq := false, noSteps := false }
  refine ⟨_, exec_unit_eq rfl hr (if_pos hq), ?_, Mod.rests_of (Mod.sameBut_mono hp (by decide))⟩
  exact (Mod.rested_spec _).2.2.pwr (by decide)

theorem execD3hotEntry_spec (hup : s.m.mgUp = true) (hready : s.m.pwr.ready = true) (hlink : s.m.host.linkUp = true) (hp : s.m.pwr.perst = false)
    (hst : s.m.pwr.state ≠ .sleep) :
    ∃ t, exec .d3hotEntry s = .next t ∧ t.m.pwr = { s.m.pwr with state := .sleep } ∧ Mod.rests s.m t.m
        ∧ (s.m.stepOpen = true → t.m.step.cause.isSome = true) ∧ (s.m.stepOpen = false → t.m.step = s.m.step) := by
  have hgate : (s.m.mgUp && s.m.pwr.ready && s.m.host.linkUp && !s.m.pwr.perst && s.m.pwr.state != .sleep) = true := by
    rw [hup, hready, hlink, hp, bne_iff_ne.2 hst]
    rfl
  have hk : ∃ k, s.m.sleepEnter = ({ k with pwr := { k.pwr with state := .sleep } } : Mod).portsPower.hbmTo 2 3 ∧ Mod.sameBut [.step] s.m k
      ∧ (s.m.stepOpen = true → k.step.cause.isSome = true) ∧ (s.m.stepOpen = false → k.step = s.m.step) := by
    refine ⟨_, rfl, ?_⟩
    by_cases ho : s.m.stepOpen = true
    · rw [if_pos ho]
      refine ⟨s.m.fault_sameBut _, fun _ => ?_, fun h => Bool.noConfusion (h.symm.trans ho)⟩
      rw [Mod.fault_step_cause]
      simp
    · rw [if_neg ho]
      exact ⟨Mod.sameBut_refl _ _, fun h => (ho h).elim, fun _ => rfl⟩
  obtain ⟨k, hk, hs, hc, hn⟩ := hk
  have hpw : k.pwr = s.m.pwr := hs.pwr (by decide)
  have hs2 := (Mod.rested_spec { k with pwr := { k.pwr with state := .sleep } }).2.2
  refine ⟨_, exec_on rfl ((if_pos hgate).trans hk), ?_, Mod.rests_of (Mod.sameBut_trans (Mod.sameBut_mono hs (by decide)) (Mod.sameBut_mono (k.sameBut_pwr _) (by decide))), fun h => ?_, fun h => ?_⟩
  · exact (hs2.pwr (by decide)).trans (by rw [hpw])
  · exact (congrArg (fun x => x.cause.isSome) (hs2.step (by decide))).trans (hc h)
  · exact (hs2.step (by decide)).trans (hn h)

theorem execD0Entry_spec (hup : s.m.mgUp = true) (hready : s.m.pwr.ready = true) (hlink : s.m.host.linkUp = true) (hp : s.m.pwr.perst = false)
    (hst : s.m.pwr.state = .sleep) :
    ∃ t, exec .d0Entry s = .next t ∧ t.m.pwr = { s.m.pwr with state := .idle, idleCount := 0, bmcWake := false }
        ∧ (s.m.dbg.frzPin = true → t.m.dbg.stopped = true)
        ∧ (s.m.dbg.frzPin = false → t.m.dbg = s.m.dbg ∧ t.m.host.out = s.m.host.out ++ (if s.m.pwr.bmcWake then [.pin 2 true] else [])) := by
  have hgate : (s.m.mgUp && s.m.pwr.ready && s.m.host.linkUp && !s.m.pwr.perst && s.m.pwr.state == .sleep) = true := by
    rw [hup, hready, hlink, hp, hst]
    rfl
  obtain ⟨hexit, hsx, -⟩ := s.m.parkExit_spec
  have hwake : ∃ k, (if s.m.pwr.bmcWake then Mod.emit { s.m.parkExit with pwr := { s.m.parkExit.pwr with bmcWake := false } } (.pin 2 true) else s.m.parkExit) = k
      ∧ k.pwr = { s.m.pwr with state := .idle, idleCount := 0, bmcWake := false } ∧ k.dbg = s.m.dbg
      ∧ k.host.out = s.m.host.out ++ (if s.m.pwr.bmcWake then [.pin 2 true] else []) := by
    refine ⟨_, rfl, ?_⟩
    have hhost : s.m.parkExit.host = s.m.host := hsx.host (by decide)
    have hdbg : s.m.parkExit.dbg = s.m.dbg := hsx.dbg (by decide)
    cases hb : s.m.pwr.bmcWake
    · rw [if_neg Bool.false_ne_true, if_neg Bool.false_ne_true]
      refine ⟨?_, hdbg, by rw [hhost, List.append_nil]⟩
      rw [hexit, ← hb]
    · rw [if_pos rfl, if_pos rfl]
      generalize s.m.parkExit = e at hexit hhost hdbg ⊢
      exact ⟨congrArg (fun x : PwrUnit => { x with bmcWake := false }) hexit, hdbg, congrArg (fun h : HostUnit => h.out ++ [Out.pin 2 true]) hhost⟩
  obtain ⟨k, hk, hpw, hdbg, hout⟩ := hwake
  have hexec : exec .d0Entry s = .next { s with m := k.freezePin } := exec_on rfl ((if_pos hgate).trans (by rw [← hk]))
  cases hf : s.m.dbg.frzPin
  · have hno : k.freezePin = k := if_neg (by rw [hdbg, hf, Bool.false_and]; decide)
    rw [hno] at hexec
    exact ⟨_, hexec, hpw, fun h => Bool.noConfusion h, fun _ => ⟨hdbg, hout⟩⟩
  · have hend : k.freezePin.dbg.stopped = true ∧ k.freezePin.pwr = k.pwr := by
      refine ⟨?_, k.freezePin_sameBut.pwr (by decide)⟩
      unfold Mod.freezePin
      by_cases hfz : (k.dbg.frzPin && k.freezable) = true
      · rw [if_pos hfz]
        exact k.freeze_spec.stopped
      · rw [if_neg hfz]
        by_contra hstop
        refine hfz ?_
        rw [Mod.freezable, hpw, hdbg, hf, hready]
        rw [hdbg, Bool.not_eq_true] at hstop
        rw [hstop]
        rfl
    exact ⟨_, hexec, hend.2.trans hpw, fun _ => hend.1, fun h => Bool.noConfusion h⟩

end

/-- Settles O57: supply, temperature, profiles and power states. -/
theorem powerStates : Obligations.PowerStates := by
  unfold Obligations.PowerStates
  refine ⟨fun s mv us hup => ?_, fun s sensor degC hup hs => ?_, fun s hup hep => execThermalStepTimer_spec hup hep, fun s h => ?_, fun s path v => ?_,
    fun s path hup => ?_, fun s => ?_, fun s port => ?_, fun s => ?_⟩
  · refine ⟨execSupplyWarnAssert_spec hup mv, fun hd => ⟨execSupplyWarnClear_spec hup hd mv us, execSupplyPark_spec hup hd mv⟩, fun hd => ?_, fun hd => ?_, fun hd => ?_⟩
    · have hno : ¬(s.m.mgUp && s.m.pwr.dip == .asserted) = true := fun h => hd (beq_iff_eq.1 (Bool.and_eq_true_iff.1 h).2)
      exact ⟨exec_on rfl (if_neg hno), exec_on rfl (if_neg hno)⟩
    · exact (exec_on rfl (if_pos (by rw [hup, hd]; rfl)) : exec .warnHoldExpiry s = .next { s with m := { s.m with pwr := { s.m.pwr with dip := .ramp s.m.rampTicks } } })
    · exact exec_on rfl (if_neg fun h => hd (beq_iff_eq.1 (Bool.and_eq_true_iff.1 h).2))
  · have h := execTempSample_spec hup hs degC
    rw [s.m.throttleLevel_eq, criticalLevel_eq] at h
    exact h
  · refine exec_on rfl (if_neg fun hg => ?_)
    obtain ⟨hg1, hg2⟩ := Bool.and_eq_true_iff.1 hg
    exact h.elim (fun h => Bool.noConfusion (h.symm.trans hg1)) (fun h => Bool.noConfusion (h.symm.trans hg2))
  · intro req cooling reason
    have hreason : ∀ c, cooling (c == 1) = s.m.profileReason path req c := fun c => (s.m.profileReason_eq path req c).symm
    refine ⟨fun hup => ?_, fun hup => execCapWrite_spec hup v, fun hup => ?_⟩
    · rw [show reason = _ from hreason _]
      exact execProfileRequest_spec hup v
    · rw [hreason]
      exact execDefaultProfileWrite_spec hup v
  · obtain ⟨h1, h2, h3⟩ := execActiveRequest_spec hup
    have hpark : ∀ {n : Mod}, s.m.parkRequest = n → exec (.parkRequest path) s = .next { s with m := n } := fun h =>
      (exec_via (f := Mod.parkRequest) rfl hup).trans (by rw [h])
    exact ⟨fun h => hpark (if_pos h), fun ha hi => hpark (if_neg fun h => h.elim ha hi), h1, h2, h3⟩
  · intro quiet down
    obtain ⟨h1, h2⟩ := execParkEntry_spec (s := s)
    refine ⟨h1, h2, fun hup hr hl hp hst => execD3hotEntry_spec hup hr hl hp hst, fun hup hr hl hp hst => execD0Entry_spec hup hr hl hp hst, fun hst => ?_, fun hst => ?_,
      fun hup hst hb => ?_, fun hst => ?_, fun hb => exec_on rfl (if_pos hb), fun hb => exec_on rfl (if_neg (by rw [hb]; decide))⟩
    · exact exec_on rfl (if_neg (by rw [hst, Bool.and_comm]; exact Bool.false_ne_true))
    · exact exec_on rfl (if_neg fun h => hst (beq_iff_eq.1 (Bool.and_eq_true_iff.1 h).2))
    · exact exec_on rfl (if_pos (by rw [hup, hst, hb]; rfl))
    · exact exec_on rfl (if_neg fun h => hst (beq_iff_eq.1 (Bool.and_eq_true_iff.1 (Bool.and_eq_true_iff.1 h).1).2))
  · intro wakes
    refine ⟨fun h => ?_, fun h => exec_on rfl (if_neg fun hw => Bool.noConfusion (h.symm.trans hw))⟩
    obtain ⟨h1, h2, -⟩ := s.m.parkExit_spec
    exact ⟨_, exec_on rfl (if_pos h), h1, rfl, rfl, h2⟩
  · intro idle
    have hidle : idle = (s.m.running && (s.m.pwr.state == .active && !s.m.stepBusy
        && (!s.m.plateActive || decide (max 1 (s.m.fget Fld.PWR_CFG_IDLE_TICKS) ≤ s.m.pwr.idleCount)))) := by simp only [idle, Bool.and_assoc]
    rw [hidle]
    refine ⟨fun h => ?_, fun h => exec_unit_self rfl fun hr => if_neg (by rw [hr, Bool.true_and] at h; rw [h]; decide)⟩
    obtain ⟨hr, hi⟩ := Bool.and_eq_true_iff.1 h
    exact exec_unit_eq rfl hr (if_pos hi)

end Sys2Proof.Machine
end

section
/-! PROOF. The debug commands that halt and release cores, freeze the device and trace (18_debug.md R451 to R458, R461 to R466). -/

namespace Sys2Proof.Machine

/-! ### Halt -/

/-- Is a core asked to halt, at once where it runs nothing and at its next kernel boundary otherwise? -/
def CoreRun.asked (x y : CoreRun) : Prop := if x.run.isNone then y.halt.any (·.request) = true else y.haltReq.any (·.request) = true

/-- `n` is `m` with the cores `ps` asked to halt, those that can. -/
structure Mod.halts (ps : List Nat) (m n : Mod) : Prop where
  done : ∀ c ∈ ps, m.haltable c = true → (m.core c).asked (n.core c)
  others : ∀ c, c ∉ ps ∨ m.haltable c = false → n.core c = m.core c
  run : ∀ c, (n.core c).run = (m.core c).run
  haltable : ∀ c, n.haltable c = m.haltable c
  refused : ∀ c ∈ ps, m.haltable c = false → n.fget Fld.DBG_ERR_HALT = 1
  sticky : m.fget Fld.DBG_ERR_HALT = 1 → n.fget Fld.DBG_ERR_HALT = 1
  dbg : Mod.dbgKept m n
  rest : Mod.sameBut [.regs, .cores, .dbg] m n

/-- The reason of a halt asked for. -/
def HaltReason.asked : HaltReason := ⟨true, false, false, 0⟩

/-- Requests join: one that asks to halt stays. -/
theorem HaltReason.join_asked (q : HaltReason) : (q.join .asked).request = true := Bool.or_true _

section
variable {m n : Mod}

theorem Mod.haltable_congr (hp : n.plt = m.plt) (hf : ∀ c, n.fget Fld.CORE_FENCE_FENCED c = m.fget Fld.CORE_FENCE_FENCED c) (c : Nat) : n.haltable c = m.haltable c := by
  rw [Mod.haltable, hf, Mod.stableOf, Mod.plate?, hp, Mod.haltable, Mod.stableOf, Mod.plate?]

/-- The fence of a core lies apart from the debug registers. -/
theorem fence_apart (c : Nat) : Fld.CORE_FENCE_FENCED.reg.addr c 0 ∉ [Reg.DBG_ERR.base] ∧ Fld.CORE_FENCE_FENCED.reg.addr c 0 ∉ [Reg.DBG_TRACE_PTR.base] := by
  simp only [Fld.CORE_FENCE_FENCED, Reg.CORE_FENCE, RegSpec.addr, Reg.DBG_ERR, Reg.DBG_TRACE_PTR, List.mem_singleton]
  omega

/-- What halting one core that can be halted leaves. -/
theorem Mod.haltCore_spec (m : Mod) (c : Nat) : (m.core c).asked ((m.haltCore .asked c).core c) ∧ ((m.haltCore .asked c).core c).run = (m.core c).run
    ∧ (∀ d, d ≠ c → (m.haltCore .asked c).core d = m.core d) ∧ m.regsKeep [Reg.DBG_TRACE_PTR.base] (m.haltCore .asked c) ∧ Mod.dbgKept m (m.haltCore .asked c) := by
  unfold Mod.haltCore CoreRun.asked
  extract_lets x
  have hx : m.core c = x := rfl
  clear_value x
  rw [hx]
  by_cases hrun : x.run.isNone = true
  · rw [if_pos hrun, if_pos hrun]
    have hk := (m.setCore c (x.stop .asked)).trace_regsKeep 9 c HaltReason.asked.code (m.fget Fld.CORE_KERNEL_INDEX c) 0 0
    have hd := (m.setCore c (x.stop .asked)).trace_dbgKept 9 c HaltReason.asked.code (m.fget Fld.CORE_KERNEL_INDEX c) 0 0
    have hs := (m.setCore c (x.stop .asked)).trace_sameBut 9 c HaltReason.asked.code (m.fget Fld.CORE_KERNEL_INDEX c) 0 0
    have hregs : (m.setCore c (x.stop .asked)).regs = m.regs := rfl
    have hdbg : (m.setCore c (x.stop .asked)).dbg = m.dbg := rfl
    have hsame := m.core_setCore_same c (x.stop .asked)
    have hother := fun d (h : d ≠ c) => m.core_setCore_other (x.stop .asked) h
    generalize m.setCore c (x.stop .asked) = k at *
    generalize k.trace 9 c HaltReason.asked.code (m.fget Fld.CORE_KERNEL_INDEX c) = n at *
    have hcore : ∀ d, n.core d = k.core d := fun d => by rw [Mod.core, hs.cores (by decide), Mod.core]
    refine ⟨?_, ?_, fun d h => (hcore d).trans (hother d h), Mod.regsKeep_trans (Mod.regsKeep_of_regs_eq hregs _) hk, (Mod.dbgKept.of_eq hdbg).trans hd⟩
    · rw [hcore, hsame]
      cases hh : x.halt with
      | none => rw [CoreRun.stop, hh]; rfl
      | some q => rw [CoreRun.stop, hh]; exact q.join_asked
    · rw [hcore, hsame]
      rfl
  · rw [if_neg hrun, if_neg hrun]
    refine ⟨?_, ?_, fun d h => m.core_setCore_other _ h, Mod.regsKeep_of_regs_eq rfl _, .of_eq rfl⟩
    · rw [m.core_setCore_same]
      cases hh : x.haltReq with
      | none => rfl
      | some q => exact q.join_asked
    · rw [m.core_setCore_same]

theorem Mod.halts_one (m : Mod) (c : Nat) : Mod.halts [c] m (if m.haltable c then m.haltCore .asked c else m.fset Fld.DBG_ERR_HALT 1) := by
  by_cases hc : m.haltable c = true
  · rw [if_pos hc]
    obtain ⟨h1, h2, h3, h4, h5⟩ := m.haltCore_spec c
    have hs := m.haltCore_sameBut .asked c
    generalize m.haltCore .asked c = n at *
    refine ⟨fun d hd _ => ?_, fun d hd => ?_, fun d => ?_, Mod.haltable_congr (hs.plt (by decide)) fun d => Mod.regsKeep_fget h4 _ _ _ (fence_apart d).2, fun d hd hf => ?_,
      fun he => ?_, h5, hs⟩
    · rw [List.mem_singleton.1 hd]
      exact h1
    · by_cases he : d = c
      · rw [he] at hd
        exact hd.elim (fun h => (h (List.mem_singleton.2 rfl)).elim) (fun h => Bool.noConfusion (h.symm.trans hc))
      · exact h3 d he
    · by_cases he : d = c
      · rw [he, h2]
      · rw [h3 d he]
    · rw [List.mem_singleton.1 hd] at hf
      exact Bool.noConfusion (hf.symm.trans hc)
    · rw [Mod.regsKeep_fget h4 _ _ _ (by decide)]
      exact he
  · rw [if_neg hc]
    have hb := m.fget_fset_bit Fld.DBG_ERR_HALT 0 0 rfl
    have hs := m.fset_sameBut Fld.DBG_ERR_HALT 1 0 0
    have hk : m.regsKeep [Reg.DBG_ERR.base] _ := m.fset_regsKeep Fld.DBG_ERR_HALT 1 0 0
    generalize m.fset Fld.DBG_ERR_HALT 1 = n at *
    have hcore : ∀ d, n.core d = m.core d := fun d => by rw [Mod.core, hs.cores (by decide), Mod.core]
    exact ⟨fun d hd h => (hc (by rw [← List.mem_singleton.1 hd]; exact h)).elim, fun d _ => hcore d, fun d => by rw [hcore],
      Mod.haltable_congr (hs.plt (by decide)) fun d => Mod.regsKeep_fget hk _ _ _ (fence_apart d).1, fun _ _ _ => hb, fun _ => hb, .of_eq (hs.dbg (by decide)), Mod.sameBut_mono hs (by decide)⟩

theorem CoreRun.asked_congr {x x' y : CoreRun} (h : x'.run = x.run) : x'.asked y ↔ x.asked y := by rw [CoreRun.asked, h, CoreRun.asked]

theorem Mod.haltCores_spec (m : Mod) (cs : List Nat) : Mod.halts cs m (m.haltCores .asked cs) := by
  unfold Mod.haltCores
  induction cs generalizing m with
  | nil => exact ⟨fun _ h => (nomatch h), fun _ _ => rfl, fun _ => rfl, fun _ => rfl, fun _ h => (nomatch h), id, .of_eq rfl, Mod.sameBut_refl _ _⟩
  | cons c cs ih =>
    have h1 := m.halts_one c
    rw [List.foldl_cons]
    generalize (if m.haltable c then m.haltCore .asked c else m.fset Fld.DBG_ERR_HALT 1 : Mod) = k at h1 ⊢
    have h2 := ih k
    generalize cs.foldl _ k = n at h2 ⊢
    refine ⟨fun d hd hh => ?_, fun d hd => ?_, fun d => (h2.run d).trans (h1.run d), fun d => (h2.haltable d).trans (h1.haltable d), fun d hd hh => ?_,
      fun h => h2.sticky (h1.sticky h), h1.dbg.trans h2.dbg, Mod.sameBut_trans h1.rest h2.rest⟩
    · by_cases hin : d ∈ cs
      · exact (CoreRun.asked_congr (h1.run d)).1 (h2.done d hin (by rw [h1.haltable]; exact hh))
      · have he : d = c := (List.mem_cons.1 hd).resolve_right hin
        rw [h2.others d (.inl hin)]
        exact h1.done d (List.mem_singleton.2 he) hh
    · have hd1 : d ∉ [c] ∨ m.haltable d = false := hd.imp (fun h hm => h (List.mem_cons.2 (.inl (List.mem_singleton.1 hm)))) id
      have hd2 : d ∉ cs ∨ k.haltable d = false := hd.imp (fun h hm => h (List.mem_cons_of_mem _ hm)) (fun h => by rw [h1.haltable]; exact h)
      rw [h2.others d hd2, h1.others d hd1]
    · rcases List.mem_cons.1 hd with he | hin
      · exact h2.sticky (h1.refused d (List.mem_singleton.2 he) hh)
      · exact h2.refused d hin (by rw [h1.haltable]; exact hh)

end

/-! ### Resume and step -/

section
variable (m : Mod)

theorem Mod.resumeCores_spec (cs : List Nat) : (∀ c ∈ cs, ((m.resumeCores cs).core c).halt = none ∧ ((m.resumeCores cs).core c).haltReq = none)
    ∧ (∀ c, c ∉ cs → (m.resumeCores cs).core c = m.core c) ∧ (∀ c, (m.core c).halt = none ∧ (m.core c).haltReq = none →
      ((m.resumeCores cs).core c).halt = none ∧ ((m.resumeCores cs).core c).haltReq = none) := by
  unfold Mod.resumeCores
  induction cs generalizing m with
  | nil => exact ⟨fun _ h => (nomatch h), fun _ _ => rfl, fun _ h => h⟩
  | cons c cs ih =>
    rw [List.foldl_cons]
    have hstep : ∀ n, n = (if (kvGet? m.cores c).isSome then m.setCore c (m.core c).resume else m) →
        ((n.core c).halt = none ∧ (n.core c).haltReq = none) ∧ ∀ d, d ≠ c → n.core d = m.core d := fun n hn => by
      rw [hn]
      split
      · rw [m.core_setCore_same]
        exact ⟨⟨rfl, rfl⟩, fun d hd => m.core_setCore_other _ hd⟩
      · next hnone =>
        have hrest : m.core c = .rest := by rw [Mod.core, kvGetD, Option.not_isSome_iff_eq_none.1 hnone]; rfl
        rw [hrest]
        exact ⟨⟨rfl, rfl⟩, fun _ _ => rfl⟩
    obtain ⟨hc, ho⟩ := hstep _ rfl
    generalize (if (kvGet? m.cores c).isSome then m.setCore c (m.core c).resume else m : Mod) = k at hc ho ⊢
    obtain ⟨h1, h2, h3⟩ := ih k
    refine ⟨fun d hd => ?_, fun d hd => ?_, fun d hd => ?_⟩
    · rcases List.mem_cons.1 hd with rfl | h
      · exact h3 d hc
      · exact h1 d h
    · obtain ⟨hne, hnot⟩ := not_or.1 (fun h => hd (List.mem_cons.2 h))
      rw [h2 d hnot, ho d hne]
    · by_cases he : d = c
      · exact he ▸ h3 c hc
      · exact h3 d (by rw [ho d he]; exact hd)

/-- A core stepped. -/
theorem Mod.stepCores_spec (cs : List Nat) :
    let n := cs.foldl (fun (x : Mod) c => if (x.core c).halt.isSome then x.setCore c (x.core c).stepKernel else x) m
    (∀ c ∈ cs, (m.core c).halt.isSome = true → n.core c = { m.core c with halt := none, stepOne := true, skipBp := true })
      ∧ (∀ c, c ∉ cs ∨ (m.core c).halt.isSome = false → n.core c = m.core c) := by
  induction cs generalizing m with
  | nil => exact ⟨fun _ h => (nomatch h), fun _ _ => rfl⟩
  | cons c cs ih =>
    rw [List.foldl_cons]
    have hstep : ∀ n, n = (if (m.core c).halt.isSome then m.setCore c (m.core c).stepKernel else m) →
        ((m.core c).halt.isSome = true → n.core c = { m.core c with halt := none, stepOne := true, skipBp := true })
          ∧ ((m.core c).halt.isSome = false → n.core c = m.core c) ∧ ∀ d, d ≠ c → n.core d = m.core d := fun n hn => by
      rw [hn]
      cases hh : (m.core c).halt.isSome
      · exact ⟨fun h => Bool.noConfusion h, fun _ => rfl, fun _ _ => rfl⟩
      · rw [if_pos rfl]
        refine ⟨fun _ => ?_, fun h => Bool.noConfusion h, fun d hd => m.core_setCore_other _ hd⟩
        rw [m.core_setCore_same]
        exact if_pos hh
    obtain ⟨hc, hn, ho⟩ := hstep _ rfl
    generalize (if (m.core c).halt.isSome then m.setCore c (m.core c).stepKernel else m : Mod) = k at hc hn ho ⊢
    obtain ⟨h1, h2⟩ := ih k
    refine ⟨fun d hd hh => ?_, fun d hd => ?_⟩
    · by_cases he : d = c
      · subst he
        have hk := hc hh
        rw [h2 d (.inr (by rw [hk]; rfl)), hk]
      · have hin := (List.mem_cons.1 hd).resolve_left he
        rw [h1 d hin (by rw [ho d he]; exact hh), ho d he]
    · by_cases he : d = c
      · subst he
        have hh : (m.core d).halt.isSome = false := hd.resolve_left fun h => h List.mem_cons_self
        rw [h2 d (.inr (by rw [hn hh]; exact hh)), hn hh]
      · rw [h2 d (hd.imp (fun h hm => h (List.mem_cons_of_mem _ hm)) (fun h => by rw [ho d he]; exact h)), ho d he]

end

end Sys2Proof.Machine
end

section
/-! PROOF. The debug module's memory access (18_debug.md R460). -/

namespace Sys2Proof.Machine

/-! ### Whole sectors stored -/

section
variable {m n : Mod}

theorem Mod.byteAt_hbm_congr (hm : n.mem = m.mem) (hf : ∀ i, n.fget Fld.HBM_STACK_STATUS_STATE i = m.fget Fld.HBM_STACK_STATUS_STATE i) (k : Nat) :
    n.byteAt (.hbm k) = m.byteAt (.hbm k) := by
  simp only [Mod.byteAt, Mod.stackFailed, hm, hf]

/-- A sector lies in one stack. -/
theorem Mod.stackFailed_sector {a i : Nat} (ha : a % 64 = 0) (hi : i < 64) : m.stackFailed (a + i) = m.stackFailed a := by
  rw [Mod.stackFailed, show (a + i) / stackSize = a / stackSize by simp only [stackSize]; omega, Mod.stackFailed]

theorem fullSectors_one {a : Nat} (ha : a % 64 = 0) : fullSectors a 64 = [a] := by
  rw [fullSectors, show (a + 64) / 64 - (a + 63) / 64 = 1 by omega]
  simp only [List.range_one, List.map_cons, List.map_nil, List.cons.injEq, and_true]
  omega

/-- A whole sector stored is as written, its mark off. -/
theorem Mod.writeAt_sector {loc : Nat → Loc} {a : Nat} {bs : List Byte} (ha : a % 64 = 0) (hb : bs.length = 64) (hl : ∀ i, i < 64 → loc (a + i) = .hbm (a + i))
    (hs : m.stackFailed a = false) {i : Nat} (hi : i < 64) : (Mod.writeAt loc m a (bs.map some)).byteAt (.hbm (a + i)) = (bs.getD i 0, false) := by
  have hlen : (bs.map some).length = 64 := (List.length_map _).trans hb
  have hstored := Mod.writeAt_stored (m := m) (loc := loc) (a := a) (data := bs.map some) (fun i hi => hl i (by omega)) (fun i hi => by
    rw [Mod.stackFailed_sector ha (by omega)]
    exact hs)
  have hsame := Mod.writeAt_sameBut loc m a (bs.map some)
  have hfail : (Mod.writeAt loc m a (bs.map some)).stackFailed (a + i) = false := by
    rw [Mod.stackFailed_sector ha hi, Mod.stackFailed, hsame.fget (by decide)]
    exact hs
  have hpoison : (Mod.writeAt loc m a (bs.map some)).mem.hbm.poison.contains (a / 64) = false := by
    have hput := Mod.putBytes_sameBut loc m a (bs.map some)
    have hall : (((bs.map some).drop (a - a)).take 64).all Option.isSome = true := by
      rw [List.all_eq_true]
      intro x hx
      obtain ⟨b, -, rfl⟩ := List.mem_map.1 (List.mem_of_mem_drop (List.mem_of_mem_take hx))
      rfl
    have hdis : (Mod.putBytes loc m a (bs.map some)).discards (.hbm a) = false := by
      rw [Mod.discards, Mod.stackFailed, hput.fget (by decide)]
      exact hs
    have hloc : loc a = .hbm a := hl 0 (by decide)
    unfold Mod.writeAt
    dsimp only
    rw [hlen, fullSectors_one ha, List.foldl_cons, List.foldl_nil, if_pos hall, hloc, Mod.unmarkLoc, if_neg (by rw [hdis]; decide)]
    dsimp only
    rw [← Bool.not_eq_true, List.contains_iff_mem, Memory.unmark]
    exact fun h => ((mem_setDel _ _ _).1 h).1 rfl
  have hget : bs[i]? = some (bs.getD i 0) := by
    rw [List.getD_eq_getElem?_getD, List.getElem?_eq_getElem (by omega)]
    rfl
  have hbyte := hstored.1 i (bs.getD i 0) (by rw [List.getElem?_map, hget]; rfl)
  rw [Mod.byteAt, hbyte, hfail, show (a + i) / 64 = a / 64 by omega, hpoison]
  rfl

/-- Sixteen words of SRAM stored are as written, their marks off. -/
theorem Mod.sramWrite_sector {c a : Nat} {bs : List Byte} (ha : a % 64 = 0) (hb : bs.length = 64) :
    (m.sramWrite c a bs).sramRead c a 64 = bs.map (fun b => (b, false)) := by
  have hbase : (c * sramSize + a) % 4 = 0 := by simp only [sramSize]; omega
  have hmarks : ∀ (ws : List Nat) (y : Memory) (w : Nat), w ∈ ws → (ws.foldl (fun s i => s.unmark ((c * sramSize + a + 3) / 4 + i)) y).poison.contains ((c * sramSize + a + 3) / 4 + w) = false := by
    have hkept : ∀ (ws : List Nat) (y : Memory) (v : Nat), v ∉ y.poison → v ∉ (ws.foldl (fun s i => s.unmark ((c * sramSize + a + 3) / 4 + i)) y).poison := by
      intro ws
      induction ws with
      | nil => exact fun _ _ h => h
      | cons w ws ih => exact fun y v h => ih _ v fun hm => h ((mem_setDel _ _ _).1 hm).2
    intro ws
    induction ws with
    | nil => exact fun _ _ h => (nomatch h)
    | cons w ws ih =>
      intro y v hv
      by_cases he : v = w
      · rw [← Bool.not_eq_true, List.contains_iff_mem]
        exact hkept ws _ _ fun hm => ((mem_setDel _ _ _).1 hm).1 (by rw [he])
      · exact ih _ v ((List.mem_cons.1 hv).resolve_left he)
  have hbyte : ∀ x (hx : x < bs.length), (m.sramWrite c a bs).sramByte c (a + x) = (bs[x], false) := fun x hx => by
    refine Prod.ext (m.sramWrite_byte c a bs hx) ?_
    unfold Mod.sramWrite Mod.sramByte Memory.putWords
    dsimp only
    have hw : (c * sramSize + (a + x)) / 4 = (c * sramSize + a + 3) / 4 + x / 4 := by omega
    rw [hw]
    exact hmarks _ _ _ (List.mem_range.2 (by omega))
  have hread : ∀ (k x : Nat), x + k = bs.length → (m.sramWrite c a bs).sramRead c (a + x) k = (bs.drop x).map (fun b => (b, false)) := by
    intro k
    induction k with
    | zero =>
      intro x hx
      rw [Mod.sramRead, List.drop_eq_nil_of_le (by omega)]
      rfl
    | succ k ih =>
      intro x hx
      rw [Mod.sramRead, hbyte x (by omega), Nat.add_assoc, ih (x + 1) (by omega), List.drop_eq_getElem_cons (i := x) (by omega)]
      rfl
  have h := hread 64 0 (by omega)
  rwa [List.drop_zero, Nat.add_zero] at h

/-- A write of a sector below the slot regions, from any source, with no plate active. -/
theorem Mod.bar2WriteAt_plain (src : YardSrc) (hp : m.plateActive = false) {a : Nat} (data : List (Option Byte)) (hsize : a + data.length ≤ slotBase) (h0 : a < slotBase) :
    m.bar2WriteAt a data noEcc src = Mod.writeAt (m.yard src a data.length true).bar2Loc (m.yard src a data.length true) a data := by
  have hb : slotBase < hbmSize := by decide
  have hs : slotOf a = none := by
    have hss : 0 < slotSize := by decide
    rw [slotOf, if_neg (by omega), if_neg (by omega)]
  have hy := (m.yard_quiet src a data.length true).alike
  have hv := Mod.bar2Void_hbm hp (a := a) (by omega)
  have h1 : (m.yard src a data.length true).putOrHold a data noEcc = Mod.writeAt (m.yard src a data.length true).bar2Loc (m.yard src a data.length true) a data :=
    Mod.putOrHold_served _ ((hy.bar2Void a).trans hv) ((hy.heldPort a _).trans (Mod.heldPort_hbm hp (by omega)))
  have hm := hy.trans (Mod.writeAt_alike (m := m.yard src a data.length true) (m.yard src a data.length true).bar2Loc a data)
  have hsh : (Mod.writeAt (m.yard src a data.length true).bar2Loc (m.yard src a data.length true) a data).shadowOf a = none := by
    rw [hm.shadowOf, Mod.shadowOf, Mod.region?_of_inactive hp]
  rw [Mod.bar2WriteAt, hs]
  dsimp only
  rw [if_neg (by rw [hv]; decide), h1, hsh]

end

/-! ### The end of a command -/

section
variable (m : Mod)

theorem Mod.memResult_spec {r : Nat} (hr : r < 8) : (m.memResult r).fget Fld.DBG_MEM_STATUS_RESULT = r ∧ Mod.sameBut [.regs] m (m.memResult r)
    ∧ (r = 2 → (m.memResult r).fget Fld.DBG_ERR_MEM = 1 ∧ m.regsKeep [Reg.DBG_MEM_STATUS.base, Reg.DBG_ERR.base] (m.memResult r))
    ∧ (r ≠ 2 → m.regsKeep [Reg.DBG_MEM_STATUS.base] (m.memResult r)) := by
  unfold Mod.memResult
  extract_lets m1
  have hs : Mod.sameBut [.regs] m m1 := m.fset_sameBut _ _ _ _
  have hk : m.regsKeep [Reg.DBG_MEM_STATUS.base] m1 := m.fset_regsKeep Fld.DBG_MEM_STATUS_RESULT r 0 0
  have hv : m1.fget Fld.DBG_MEM_STATUS_RESULT = r := (m.fget_fset_same Fld.DBG_MEM_STATUS_RESULT r 0 0 (by decide)).trans (Nat.mod_eq_of_lt hr)
  clear_value m1
  by_cases h2 : r = 2
  · rw [if_pos h2]
    have hk2 : m1.regsKeep [Reg.DBG_ERR.base] _ := m1.fset_regsKeep Fld.DBG_ERR_MEM 1 0 0
    exact ⟨(Mod.regsKeep_fget hk2 _ _ _ (by decide)).trans hv, Mod.sameBut_trans hs (m1.fset_sameBut _ _ _ _),
      fun _ => ⟨m1.fget_fset_bit Fld.DBG_ERR_MEM 0 0 rfl, Mod.regsKeep_trans (Mod.regsKeep_mono hk (by decide)) (Mod.regsKeep_mono hk2 (by decide))⟩, fun h => (h h2).elim⟩
  · rw [if_neg h2]
    exact ⟨hv, hs, fun h => (h2 h).elim, fun _ => hk⟩

theorem leNat_lt (bs : List Byte) : leNat bs < 256 ^ bs.length := by
  induction bs with
  | nil => decide
  | cons b bs ih =>
    have hb := b.isLt
    rw [leNat, List.length_cons, Nat.pow_succ]
    omega

/-- Words put into DBG_MEM_DATA, each in its place. -/
theorem Mod.memWords_spec (v : Nat → Nat) (ks : List Nat) (hn : ks.Nodup) (i : Nat) :
    (ks.foldl (fun (x : Mod) k => x.fset Fld.DBG_MEM_DATA_DATA (v k) k) m).fget Fld.DBG_MEM_DATA_DATA i
      = if i ∈ ks then v i % 2 ^ 32 else m.fget Fld.DBG_MEM_DATA_DATA i := by
  induction ks generalizing m with
  | nil => exact (if_neg List.not_mem_nil).symm
  | cons k ks ih =>
    obtain ⟨hk, hks⟩ := List.nodup_cons.1 hn
    rw [List.foldl_cons, ih _ hks]
    by_cases hik : i = k
    · subst hik
      rw [if_neg hk, if_pos List.mem_cons_self]
      exact m.fget_fset_same Fld.DBG_MEM_DATA_DATA (v i) i 0 (by decide)
    · have hne : Fld.DBG_MEM_DATA_DATA.reg.addr i 0 ≠ Fld.DBG_MEM_DATA_DATA.reg.addr k 0 := by
        simp only [Fld.DBG_MEM_DATA_DATA, Reg.DBG_MEM_DATA, RegSpec.addr]
        omega
      rw [m.fget_fset_otherReg _ _ _ _ _ _ _ hne]
      simp only [List.mem_cons, hik, false_or]

/-- A sector shown: its words, or all ones where it is poisoned. -/
theorem Mod.memShow_spec (d : List (Byte × Bool)) : (m.memShow d).mem = m.mem
    ∧ (m.memShow d).fget Fld.DBG_MEM_STATUS_RESULT = (if rdPoison d then 1 else 0)
    ∧ ∀ i, i < 16 → (m.memShow d).fget Fld.DBG_MEM_DATA_DATA i = if rdPoison d then 0xFFFFFFFF else leNat (((rdBytes d).drop (4 * i)).take 4) := by
  have hs := m.memShow_sameBut d
  refine ⟨hs.mem (by decide), ?_⟩
  unfold Mod.memShow
  extract_lets bytes m1
  have hwords : ∀ i, i < 16 → m1.fget Fld.DBG_MEM_DATA_DATA i = leNat ((bytes.drop (4 * i)).take 4) := fun i hi => by
    refine (m.memWords_spec (fun i => leNat ((bytes.drop (4 * i)).take 4)) (List.range 16) List.nodup_range i).trans ?_
    rw [if_pos (List.mem_range.2 hi)]
    refine Nat.mod_eq_of_lt (Nat.lt_of_lt_of_le (leNat_lt _) ?_)
    exact (Nat.pow_le_pow_right (by decide) (List.length_take_le 4 _)).trans (by decide)
  clear_value m1
  obtain ⟨hres, -, -, hk⟩ := m1.memResult_spec (r := if rdPoison d then 1 else 0) (by split <;> decide)
  refine ⟨hres, fun i hi => ?_⟩
  have hne : Fld.DBG_MEM_DATA_DATA.reg.addr i 0 ∉ [Reg.DBG_MEM_STATUS.base] := by
    simp only [Fld.DBG_MEM_DATA_DATA, Reg.DBG_MEM_DATA, RegSpec.addr, Reg.DBG_MEM_STATUS, List.mem_singleton]
    omega
  rw [Mod.regsKeep_fget (hk (by split <;> decide)) _ _ _ hne, hwords i hi]
  by_cases hp : rdPoison d = true
  · rw [if_pos hp, show bytes = List.replicate 64 0xFF from if_pos hp, List.drop_replicate, List.take_replicate, show min 4 (64 - 4 * i) = 4 by omega]
    decide
  · rw [if_neg hp, show bytes = rdBytes d from if_neg hp]

end

end Sys2Proof.Machine
end

section
/-! PROOF. The statement of the debug commands (18_debug.md R451 to R466). -/

namespace Sys2Proof.Machine

section
variable {s : State}

/-- A command of the debug module under an unlock. -/
theorem exec_gated {c : Instr} {off : Nat} {f : Mod → Mod} {n : Mod} (e : exec c s = .next (s.reg off (fun m => m.dbgGate f))) (h : s.m.answers off = true)
    (hu : s.m.sec.unlock ≠ 0) (hn : f s.m = n) : exec c s = .next { s with m := n } :=
  (exec_reg (f := fun m => m.dbgGate f) e h).trans (by rw [Mod.dbgGate, if_neg hu, hn])

theorem exec_locked {c : Instr} {off : Nat} {f : Mod → Mod} (e : exec c s = .next (s.reg off (fun m => m.dbgGate f))) (h : s.m.answers off = true)
    (hu : s.m.sec.unlock = 0) : ∃ t, exec c s = .next t ∧ t.m.fget Fld.DBG_ERR_LOCKED = 1 ∧ State.setsOnly [Reg.DBG_ERR.base] s t := by
  have he : exec c s = .next { s with m := s.m.fset Fld.DBG_ERR_LOCKED 1 } :=
    (exec_reg (f := fun m => m.dbgGate f) e h).trans (by rw [Mod.dbgGate, if_pos hu])
  have hs : Mod.sameBut [.regs] s.m (s.m.fset Fld.DBG_ERR_LOCKED 1) := s.m.fset_sameBut _ _ _ _
  have hk : s.m.regsKeep [Reg.DBG_ERR.base] (s.m.fset Fld.DBG_ERR_LOCKED 1) := s.m.fset_regsKeep Fld.DBG_ERR_LOCKED 1 0 0
  have hv : (s.m.fset Fld.DBG_ERR_LOCKED 1).fget Fld.DBG_ERR_LOCKED = 1 := s.m.fget_fset_bit Fld.DBG_ERR_LOCKED 0 0 rfl
  exact ⟨_, he, hv, ⟨rfl, rfl, hs⟩, hk⟩

/-! ### Halt, resume, step -/

theorem Mod.ranks_none {m : Mod} {id : Nat} (h : m.stableRec? id = none) : m.ranks id = [] := by rw [Mod.ranks, h]; rfl

/-- A HALT that names a stable the plate has, one core, or none. -/
theorem Mod.dbgHalt_spec (m : Mod) (scope target : Nat) :
    (∀ c ∈ m.scopeCores scope target, m.haltable c = true → (m.core c).asked ((m.dbgHalt scope target).core c))
      ∧ (∀ c, c ∉ m.scopeCores scope target ∨ m.haltable c = false → (m.dbgHalt scope target).core c = m.core c)
      ∧ ((∃ c ∈ m.scopeCores scope target, m.haltable c = false) ∨ (scope = 1 ∧ m.stableRec? target = none) → (m.dbgHalt scope target).fget Fld.DBG_ERR_HALT = 1)
      ∧ (scope = 2 → (m.dbgHalt scope target).dbg.devHalt = true) ∧ (scope ≠ 2 → (m.dbgHalt scope target).dbg.devHalt = m.dbg.devHalt) := by
  have h := m.haltCores_spec (m.scopeCores scope target)
  obtain ⟨tr, st, post, hdbg⟩ := h.dbg
  have hdev : (m.haltCores .asked (m.scopeCores scope target)).dbg.devHalt = m.dbg.devHalt := by rw [hdbg]
  by_cases h2 : scope = 2
  · subst h2
    have he : m.dbgHalt 2 target = { m.haltCores .asked (m.scopeCores 2 target) with dbg := { (m.haltCores .asked (m.scopeCores 2 target)).dbg with devHalt := true } } := by
      rw [Mod.dbgHalt, if_pos rfl, Mod.haltDevice]
      rfl
    rw [he]
    generalize m.haltCores .asked (m.scopeCores 2 target) = n at h
    exact ⟨h.done, h.others, fun hr => hr.elim (fun ⟨c, hc, hf⟩ => h.refused c hc hf) (fun hr => (nomatch hr.1)), fun _ => rfl, fun hn => (hn rfl).elim⟩
  · by_cases h1 : scope = 1 ∧ (m.stableRec? target).isNone = true
    · obtain ⟨h1, hnone⟩ := h1
      subst h1
      have he : m.dbgHalt 1 target = m.fset Fld.DBG_ERR_HALT 1 := by rw [Mod.dbgHalt, if_neg h2, if_pos ⟨rfl, hnone⟩]
      have hcs : m.scopeCores 1 target = [] := Mod.ranks_none (Option.isNone_iff_eq_none.1 hnone)
      rw [he, hcs]
      exact ⟨fun _ hc => (nomatch hc), fun _ _ => rfl, fun _ => m.fget_fset_bit Fld.DBG_ERR_HALT 0 0 rfl, fun hn => (h2 hn).elim, fun _ => rfl⟩
    · have he : m.dbgHalt scope target = m.haltCores .asked (m.scopeCores scope target) := by
        rw [Mod.dbgHalt, if_neg h2, if_neg h1]
        rfl
      rw [he]
      exact ⟨h.done, h.others, fun hr => hr.elim (fun ⟨c, hc, hf⟩ => h.refused c hc hf) (fun hr => (h1 ⟨hr.1, Option.isNone_iff_eq_none.2 hr.2⟩).elim),
        fun hn => (h2 hn).elim, fun _ => hdev⟩

theorem Mod.dbgResume_spec (m : Mod) (scope target : Nat) :
    (∀ c ∈ m.scopeCores scope target, ((m.dbgResume scope target).core c).halt = none ∧ ((m.dbgResume scope target).core c).haltReq = none)
      ∧ (∀ c, c ∉ m.scopeCores scope target → (m.dbgResume scope target).core c = m.core c)
      ∧ (scope = 2 → (m.dbgResume scope target).dbg.devHalt = false) ∧ (scope ≠ 2 → (m.dbgResume scope target).dbg = m.dbg) := by
  obtain ⟨h1, h2, -⟩ := m.resumeCores_spec (m.scopeCores scope target)
  have hs := m.resumeCores_sameBut (m.scopeCores scope target)
  unfold Mod.dbgResume
  extract_lets m1
  by_cases hsc : scope = 2
  · rw [if_pos hsc]
    exact ⟨h1, h2, fun _ => rfl, fun h => (h hsc).elim⟩
  · rw [if_neg hsc]
    exact ⟨h1, h2, fun h => (hsc h).elim, fun _ => hs.dbg (by decide)⟩

theorem Mod.dbgStep_spec (m : Mod) (scope target : Nat) :
    (∀ c ∈ m.scopeCores scope target, (m.core c).halt.isSome = true → (m.dbgStep scope target).core c = { m.core c with halt := none, stepOne := true, skipBp := true })
      ∧ (∀ c, c ∉ m.scopeCores scope target ∨ (m.core c).halt.isSome = false → (m.dbgStep scope target).core c = m.core c)
      ∧ (m.dbgStep scope target).dbg = { m.dbg with devStep := decide (scope = 2) || (m.dbg.devStep && m.cores.any (fun e => e.2.stepOne)) } := by
  obtain ⟨h1, h2⟩ := m.stepCores_spec (m.scopeCores scope target)
  refine ⟨h1, h2, ?_⟩
  have hs : Mod.sameBut [.cores] m ((m.scopeCores scope target).foldl (fun (x : Mod) c => if (x.core c).halt.isSome then x.setCore c (x.core c).stepKernel else x) m) := by
    refine Mod.sameBut_foldl _ _ _ (fun x c => ?_) (Mod.sameBut_refl _ _)
    split
    · exact x.setCore_sameBut _ _
    · exact Mod.sameBut_refl _ _
  have hd := hs.dbg (by decide)
  unfold Mod.dbgStep
  dsimp only
  rw [hd]
  rfl

/-! ### Memory -/

/-- The sector a READ finds in a space. -/
def Mod.memFound (m : Mod) (space : Nat) : List (Byte × Bool) :=
  let a := m.dbgAddr / 64 * 64
  let k := m.fget Fld.DBG_MEM_CTRL_STACK * stackSize + a
  let seen := if m.bar2Void a then m else m.yard .debug a 64 false
  if space = 0 then (List.range 64).map (fun i => seen.byteAt (seen.bar2Loc (a + i)))
  else if space = 1 then (List.range 64).map (fun i => m.byteAt (.hbm (k + i)))
  else if space = 2 then m.sramRead (m.fget Fld.DBG_MEM_CTRL_CORE) a 64
  else (m.traceBytes (a / 32) ++ m.traceBytes (a / 32 + 1)).map (fun b => (b, false))

/-- A READ that meets no memory error. -/
theorem Mod.memFetch_spec (m : Mod) (space : Nat) : (m.memFetch space noEcc).1.mem = m.mem ∧ (m.memFetch space noEcc).2 = m.memFound space := by
  match space with
  | 0 =>
    obtain ⟨m1, he, hq⟩ : ∃ m1, (m.memFetch 0 noEcc) = (m1, (List.range 64).map (fun i => m1.byteAt (m1.bar2Loc (m.dbgAddr / 64 * 64 + i))))
        ∧ Mod.quiet (if m.bar2Void (m.dbgAddr / 64 * 64) then m else m.yard .debug (m.dbgAddr / 64 * 64) 64 false) m1 := by
      refine ⟨_, rfl, ?_⟩
      split
      · exact .refl m
      · exact Mod.loftMet_quiet _ _ _
    have hseen : Mod.quiet m (if m.bar2Void (m.dbgAddr / 64 * 64) then m else m.yard .debug (m.dbgAddr / 64 * 64) 64 false) := by
      split
      · exact .refl m
      · exact m.yard_quiet _ _ _ _
    have hfound : m.memFound 0 = (List.range 64).map (fun i => m1.byteAt (m1.bar2Loc (m.dbgAddr / 64 * 64 + i))) := by
      rw [Mod.memFound, if_pos rfl, hq.alike.bar2Loc]
      simp only [hq.byteAt]
    rw [he, hfound]
    exact ⟨hq.mem.trans hseen.mem, rfl⟩
  | 1 => exact ⟨rfl, by rw [Mod.memFound, if_neg (by decide), if_pos rfl]; rfl⟩
  | 2 => exact ⟨rfl, by rw [Mod.memFound, if_neg (by decide), if_neg (by decide), if_pos rfl]; rfl⟩
  | n + 3 => exact ⟨rfl, by rw [Mod.memFound, if_neg (by omega), if_neg (by omega), if_neg (by omega)]; rfl⟩

theorem Mod.memData_length (m : Mod) : m.memData.length = 64 := by
  rw [Mod.memData, List.length_flatMap]
  simp only [leBytes_length]
  rfl

theorem Mod.sramRead_congr {m n : Mod} (h : n.mem = m.mem) : n.sramRead = m.sramRead := by
  funext c a k
  induction k generalizing a with
  | zero => rfl
  | succ k ih => rw [Mod.sramRead, ih, Mod.sramByte, h, ← Mod.sramByte, Mod.sramRead]

/-! ### What a WRITE stores -/

section
variable (m : Mod)

theorem Mod.memResult_ok : (m.memResult 0).fget Fld.DBG_MEM_STATUS_RESULT = 0 ∧ (m.memResult 0).mem = m.mem ∧ (m.memResult 0).dbg = m.dbg
    ∧ ∀ k, (m.memResult 0).byteAt (.hbm k) = m.byteAt (.hbm k) := by
  obtain ⟨hres, hs, -, hk⟩ := m.memResult_spec (r := 0) (by decide)
  refine ⟨hres, hs.mem (by decide), hs.dbg (by decide), Mod.byteAt_hbm_congr (hs.mem (by decide)) fun i => Mod.regsKeep_fget (hk (by decide)) _ _ _ ?_⟩
  simp only [Fld.HBM_STACK_STATUS_STATE, Reg.HBM_STACK_STATUS, RegSpec.addr, Reg.DBG_MEM_STATUS, List.mem_singleton]
  omega

theorem Mod.memStore_device (h : slotOf (m.dbgAddr / 64 * 64) = none) :
    m.memStore 0 noEcc = (m.bar2WriteAt (m.dbgAddr / 64 * 64) (m.memData.map some) noEcc .debug).memResult 0 := by
  rw [Mod.memStore, h]

theorem Mod.memStore_result (space : Nat) (h : space ≠ 0 ∨ slotOf (m.dbgAddr / 64 * 64) = none) : (m.memStore space noEcc).fget Fld.DBG_MEM_STATUS_RESULT = 0 := by
  match space with
  | 0 => rw [m.memStore_device (h.resolve_left fun h => h rfl), (Mod.memResult_ok _).1]
  | 1 => exact (Mod.memResult_ok _).1
  | 2 => exact (Mod.memResult_ok _).1
  | _ + 3 => exact (Mod.memResult_ok _).1

theorem Mod.memStore_plain (hp : m.plateActive = false) (hsize : m.dbgAddr / 64 * 64 + 64 ≤ slotBase) {i : Nat} (hi : i < 64)
    (hf : m.stackFailed (m.dbgAddr / 64 * 64 + i) = false) :
    (m.memStore 0 noEcc).byteAt (.hbm (m.dbgAddr / 64 * 64 + i)) = (m.memData.getD i 0, false) := by
  have ha : m.dbgAddr / 64 * 64 % 64 = 0 := Nat.mul_mod_left _ _
  have hlt : slotBase < hbmSize := by decide
  have hdata : (m.memData.map some).length = 64 := (List.length_map _).trans m.memData_length
  have hnone : slotOf (m.dbgAddr / 64 * 64) = none := by
    rw [slotOf, if_neg (by omega), if_neg (by omega)]
  have hq := m.yard_quiet .debug (m.dbgAddr / 64 * 64) (m.memData.map some).length true
  have hact : (m.yard .debug (m.dbgAddr / 64 * 64) (m.memData.map some).length true).plateActive = false := by
    rw [Mod.plateActive, hq.plt]
    exact hp
  have hfail : (m.yard .debug (m.dbgAddr / 64 * 64) (m.memData.map some).length true).stackFailed (m.dbgAddr / 64 * 64) = false := by
    rw [Mod.stackFailed, hq.keys _ isKey_stack, ← Mod.stackFailed, ← Mod.stackFailed_sector ha hi]
    exact hf
  rw [m.memStore_device hnone, (Mod.memResult_ok _).2.2.2, Mod.bar2WriteAt_plain .debug hp _ (by omega) (by omega)]
  exact Mod.writeAt_sector ha m.memData_length (fun i hi => Mod.bar2Loc_hbm hact (by omega)) hfail hi

theorem stackSize_sector (n a : Nat) (ha : a % 64 = 0) : (n * stackSize + a) % 64 = 0 := by
  have hs : stackSize = 64 * 805306368 := by decide
  rw [hs, Nat.add_mod, ha, ← Nat.mul_assoc, Nat.mul_comm n 64, Nat.mul_assoc, Nat.mul_mod_right]

theorem Mod.memStore_one : m.memStore 1 noEcc
    = (Mod.writeAt (fun x => .hbm x) m (m.fget Fld.DBG_MEM_CTRL_STACK * stackSize + m.dbgAddr / 64 * 64) (m.memData.map some)).memResult 0 := by
  rw [Mod.memStore]

theorem Mod.memStore_hbm {i : Nat} (hi : i < 64) (hf : m.stackFailed (m.fget Fld.DBG_MEM_CTRL_STACK * stackSize + m.dbgAddr / 64 * 64 + i) = false) :
    (m.memStore 1 noEcc).byteAt (.hbm (m.fget Fld.DBG_MEM_CTRL_STACK * stackSize + m.dbgAddr / 64 * 64 + i)) = (m.memData.getD i 0, false) := by
  have hk : (m.fget Fld.DBG_MEM_CTRL_STACK * stackSize + m.dbgAddr / 64 * 64) % 64 = 0 := stackSize_sector _ _ (Nat.mul_mod_left _ _)
  rw [m.memStore_one, (Mod.memResult_ok _).2.2.2]
  refine Mod.writeAt_sector hk m.memData_length (fun _ _ => rfl) ?_ hi
  rw [← Mod.stackFailed_sector hk hi]
  exact hf

theorem Mod.withSram_hbm (x : Memory) : ({ m with mem := { m.mem with sram := x } } : Mod).mem.hbm = m.mem.hbm := rfl

theorem Mod.sramWrite_hbm (c a : Nat) (bs : List Byte) : (m.sramWrite c a bs).mem.hbm = m.mem.hbm := m.withSram_hbm _

theorem Mod.memStore_sram : (m.memStore 2 noEcc).sramRead (m.fget Fld.DBG_MEM_CTRL_CORE) (m.dbgAddr / 64 * 64) 64 = m.memData.map (fun b => (b, false))
    ∧ (m.memStore 2 noEcc).mem.hbm = m.mem.hbm := by
  have hm : (m.memStore 2 noEcc).mem = (m.sramWrite (m.fget Fld.DBG_MEM_CTRL_CORE) (m.dbgAddr / 64 * 64) m.memData).mem := by
    rw [Mod.memStore, (Mod.memResult_ok _).2.1]
  rw [Mod.sramRead_congr hm, hm]
  exact ⟨Mod.sramWrite_sector (Nat.mul_mod_left _ _) m.memData_length, m.sramWrite_hbm _ _ _⟩

theorem Mod.memStore_trace : kvGet? (m.memStore 3 noEcc).dbg.trace (m.dbgAddr / 64 * 64 / 32) = some (TraceRec.ofBytes (m.memData.take 32))
    ∧ kvGet? (m.memStore 3 noEcc).dbg.trace (m.dbgAddr / 64 * 64 / 32 + 1) = some (TraceRec.ofBytes (m.memData.drop 32)) ∧ (m.memStore 3 noEcc).mem = m.mem := by
  have he : m.memStore 3 noEcc = Mod.memResult { m with dbg := { m.dbg with trace := kvSet (kvSet m.dbg.trace (m.dbgAddr / 64 * 64 / 32) (TraceRec.ofBytes (m.memData.take 32))) (m.dbgAddr / 64 * 64 / 32 + 1) (TraceRec.ofBytes (m.memData.drop 32)) } } 0 := by
    rw [Mod.memStore] <;> exact fun h => (nomatch h)
  have hd : (m.memStore 3 noEcc).dbg.trace = kvSet (kvSet m.dbg.trace (m.dbgAddr / 64 * 64 / 32) (TraceRec.ofBytes (m.memData.take 32)))
      (m.dbgAddr / 64 * 64 / 32 + 1) (TraceRec.ofBytes (m.memData.drop 32)) := by
    rw [he, (Mod.memResult_ok _).2.2.1]
  have hm : (m.memStore 3 noEcc).mem = m.mem := by
    rw [he, (Mod.memResult_ok _).2.1]
  rw [hd]
  refine ⟨?_, kvGet?_kvSet_same _ _ _, hm⟩
  rw [kvGet?_kvSet_other _ _ (by omega)]
  exact kvGet?_kvSet_same _ _ _

end

end

/-! ### The commands of the debug module -/

section
variable {s : State}

theorem Mod.memCmd_outside {m : Mod} (h : m.memOutside (m.fget Fld.DBG_MEM_CTRL_SPACE) m.dbgAddr = true) :
    m.memReadCmd noEcc = m.memResult 3 ∧ m.memWriteCmd noEcc = m.memResult 3 := ⟨if_pos h, if_pos h⟩

theorem Mod.memCmd_refused {m : Mod} (h : m.memOutside (m.fget Fld.DBG_MEM_CTRL_SPACE) m.dbgAddr = false) (ha : m.memAllowed (m.fget Fld.DBG_MEM_CTRL_SPACE) m.dbgAddr = false) :
    m.memReadCmd noEcc = m.memResult 2 ∧ m.memWriteCmd noEcc = m.memResult 2 := by
  rw [Mod.memReadCmd, Mod.memWriteCmd, h, ha]
  exact ⟨rfl, rfl⟩

theorem Mod.memCmd_served {m : Mod} (h : m.memOutside (m.fget Fld.DBG_MEM_CTRL_SPACE) m.dbgAddr = false) (ha : m.memAllowed (m.fget Fld.DBG_MEM_CTRL_SPACE) m.dbgAddr = true) :
    m.memReadCmd noEcc = (m.memFetch (m.fget Fld.DBG_MEM_CTRL_SPACE) noEcc).1.memShow (m.memFound (m.fget Fld.DBG_MEM_CTRL_SPACE))
      ∧ m.memWriteCmd noEcc = m.memStore (m.fget Fld.DBG_MEM_CTRL_SPACE) noEcc := by
  rw [Mod.memReadCmd, Mod.memWriteCmd, h, ha, ← (m.memFetch_spec _).2]
  exact ⟨rfl, rfl⟩

/-- DBG_MEM_READ and DBG_MEM_WRITE where the address or the space's condition fails. -/
theorem memCmds_discarded (h : s.m.answers Reg.DBG_MEM_CTRL.base = true) (hu : s.m.sec.unlock ≠ 0) : ∀ c ∈ [Instr.dbgMemRead noEcc, .dbgMemWrite noEcc],
    (s.m.memOutside (s.m.fget Fld.DBG_MEM_CTRL_SPACE) s.m.dbgAddr = true →
      ∃ t, exec c s = .next t ∧ t.m.fget Fld.DBG_MEM_STATUS_RESULT = 3 ∧ State.setsOnly [Reg.DBG_MEM_STATUS.base] s t) ∧
    (s.m.memOutside (s.m.fget Fld.DBG_MEM_CTRL_SPACE) s.m.dbgAddr = false → s.m.memAllowed (s.m.fget Fld.DBG_MEM_CTRL_SPACE) s.m.dbgAddr = false →
      ∃ t, exec c s = .next t ∧ t.m.fget Fld.DBG_MEM_STATUS_RESULT = 2 ∧ t.m.fget Fld.DBG_ERR_MEM = 1
        ∧ State.setsOnly [Reg.DBG_MEM_STATUS.base, Reg.DBG_ERR.base] s t) := by
  obtain ⟨h3, hs3, -, hk3⟩ := s.m.memResult_spec (r := 3) (by decide)
  obtain ⟨h2, hs2, he2, -⟩ := s.m.memResult_spec (r := 2) (by decide)
  have hall : ∀ (c : Instr) (f : Mod → Mod), exec c s = .next (s.reg Reg.DBG_MEM_CTRL.base (fun m => m.dbgGate f)) →
      (f s.m = s.m.memResult 3 → ∃ t, exec c s = .next t ∧ t.m.fget Fld.DBG_MEM_STATUS_RESULT = 3 ∧ State.setsOnly [Reg.DBG_MEM_STATUS.base] s t) ∧
      (f s.m = s.m.memResult 2 → ∃ t, exec c s = .next t ∧ t.m.fget Fld.DBG_MEM_STATUS_RESULT = 2 ∧ t.m.fget Fld.DBG_ERR_MEM = 1
        ∧ State.setsOnly [Reg.DBG_MEM_STATUS.base, Reg.DBG_ERR.base] s t) := fun c f e =>
    ⟨fun hf => ⟨_, exec_gated e h hu hf, h3, ⟨rfl, rfl, hs3⟩, hk3 (by decide)⟩, fun hf => ⟨_, exec_gated e h hu hf, h2, (he2 rfl).1, ⟨rfl, rfl, hs2⟩, (he2 rfl).2⟩⟩
  have hread := hall (.dbgMemRead noEcc) (fun x => x.memReadCmd noEcc) rfl
  have hwrite := hall (.dbgMemWrite noEcc) (fun x => x.memWriteCmd noEcc) rfl
  intro c hc
  obtain rfl | rfl := List.mem_pair.1 hc
  · exact ⟨fun ho => hread.1 (Mod.memCmd_outside ho).1, fun ho ha => hread.2 (Mod.memCmd_refused ho ha).1⟩
  · exact ⟨fun ho => hwrite.1 (Mod.memCmd_outside ho).2, fun ho ha => hwrite.2 (Mod.memCmd_refused ho ha).2⟩

/-- What the freeze leaves of the state it is asked in. -/
structure Mod.froze (m n : Mod) : Prop where
  stopped : n.dbg.stopped = true
  wait : n.dbg.frzWait = false
  tick : n.get64 Fld.DBG_FRZ_TICK_LO_TICK Fld.DBG_FRZ_TICK_HI_TICK = m.tick.count % 2 ^ 48
  cycle : n.fget Fld.DBG_FRZ_CYCLE_CYCLE = m.tick.cycle % 2 ^ 16
  ports : ∀ p, p < 64 → (m.port p).st ≠ .disabled → (n.port p).st = .down
  hbm : ∀ i, i < 12 → n.fget Fld.HBM_STACK_STATUS_STATE i
    = if m.fget Fld.HBM_STACK_STATUS_STATE i = 2 ∧ m.dbg.memread = false then 3 else m.fget Fld.HBM_STACK_STATUS_STATE i
  pending : ∀ r, m.plt.pending = some r → r.activate = true → n.plt.pending = none
  step : n.step = m.step
  mem : n.mem = m.mem

/-- A freeze made at once, whatever of FRZ_N and DBG_FRZ_CTRL asked for it. -/
theorem Mod.freeze_froze (m : Mod) (pin reg : Bool) :
    Mod.froze m ({ m with dbg := { m.dbg with frzPin := pin, frzReg := reg } } : Mod).freeze
      ∧ (({ m with dbg := { m.dbg with frzPin := pin, frzReg := reg } } : Mod).freeze).dbg.frzPin = pin
      ∧ (({ m with dbg := { m.dbg with frzPin := pin, frzReg := reg } } : Mod).freeze).dbg.frzReg = reg := by
  have h := ({ m with dbg := { m.dbg with frzPin := pin, frzReg := reg } } : Mod).freeze_spec
  generalize ({ m with dbg := { m.dbg with frzPin := pin, frzReg := reg } } : Mod).freeze = n at h ⊢
  exact ⟨⟨h.stopped, h.wait, h.tick, h.cycle, h.ports, h.hbm, h.pending, h.rest.step (by decide), h.rest.mem (by decide)⟩, h.pin, h.reg⟩

/-- A freeze asked for where it is honoured: at once, or at the guard's end. -/
theorem Mod.freezeAsk_honoured {m : Mod} (reg : Bool) (hf : m.freezable = true) :
    ((m.tick.running && m.inGuard) = false → m.freezeAsk reg
        = ({ m with dbg := { m.dbg with frzPin := m.dbg.frzPin, frzReg := reg || (m.dbg.frzWait && m.dbg.frzReg) } } : Mod).freeze)
      ∧ ((m.tick.running && m.inGuard) = true → m.freezeAsk reg
        = { m with dbg := { m.dbg with frzReg := reg || (m.dbg.frzWait && m.dbg.frzReg), frzWait := true } }) := by
  have hn : ¬(!m.freezable) = true := by rw [hf]; decide
  rw [Mod.freezeAsk, if_neg hn]
  exact ⟨fun hg => if_neg fun h => Bool.noConfusion (hg.symm.trans h), fun hg => if_pos hg⟩

/-- FRZ_N_ASSERT. -/
theorem execFrzNAssert_spec :
    (s.m.dbg.frzPin = true → exec .frzNAssert s = .next s) ∧
    (s.m.dbg.frzPin = false → s.m.freezable = true → (s.m.tick.running && s.m.inGuard) = false →
      ∃ t, exec .frzNAssert s = .next t ∧ Mod.froze s.m t.m ∧ t.m.dbg.frzPin = true) ∧
    (s.m.dbg.frzPin = false → s.m.freezable = true → (s.m.tick.running && s.m.inGuard) = true →
      ∃ t, exec .frzNAssert s = .next t ∧ t.m.dbg.frzWait = true ∧ t.m.dbg.stopped = s.m.dbg.stopped ∧ State.sameBut [.dbg] s t) ∧
    (s.m.dbg.frzPin = false → s.m.freezable = false →
      exec .frzNAssert s = .next (s.on (fun m => { m with dbg := { m.dbg with frzPin := true } }))) := by
  have hasked : ∀ n, s.m.dbg.frzPin = false → ({ s.m with dbg := { s.m.dbg with frzPin := true } } : Mod).freezeAsk false = n → exec .frzNAssert s = .next { s with m := n } :=
    fun n hp hn => exec_on rfl ((if_neg (by rw [hp]; decide)).trans hn)
  refine ⟨fun hp => exec_on rfl (if_pos hp), fun hp hf hg => ?_, fun hp hf hg => ?_, fun hp hf => ?_⟩
  · obtain ⟨h, hpin, -⟩ := s.m.freeze_froze true (false || (s.m.dbg.frzWait && s.m.dbg.frzReg))
    exact ⟨_, hasked _ hp ((Mod.freezeAsk_honoured (m := { s.m with dbg := { s.m.dbg with frzPin := true } }) false hf).1 hg), h, hpin⟩
  · exact ⟨_, hasked _ hp ((Mod.freezeAsk_honoured (m := { s.m with dbg := { s.m.dbg with frzPin := true } }) false hf).2 hg), rfl, rfl, rfl, rfl, s.m.sameBut_dbg _⟩
  · have hf' : ({ s.m with dbg := { s.m.dbg with frzPin := true } } : Mod).freezable = false := hf
    exact hasked _ hp (if_pos (by rw [hf']; rfl))

/-- FRZ_CTRL_FREEZE outside the guard. -/
theorem execFrzCtrlFreeze_spec (h : s.m.answers Reg.DBG_FRZ_CTRL.base = true) (hu : s.m.sec.unlock ≠ 0) (hf : s.m.freezable = true)
    (hg : (s.m.tick.running && s.m.inGuard) = false) : ∃ t, exec .frzCtrlFreeze s = .next t ∧ Mod.froze s.m t.m ∧ t.m.dbg.frzReg = true := by
  obtain ⟨hz, -, hreg⟩ := s.m.freeze_froze s.m.dbg.frzPin (true || (s.m.dbg.frzWait && s.m.dbg.frzReg))
  exact ⟨_, exec_gated (f := fun x => x.freezeAsk true) rfl h hu ((Mod.freezeAsk_honoured true hf).1 hg), hz, hreg.trans (Bool.true_or _)⟩

theorem execReadoutReady_spec :
    (s.m.mgUp = true → s.m.dbg.stopped = true → s.m.dbg.ready = false →
      ∃ t, exec .readoutReady s = .next t ∧ t.m.dbg = { s.m.dbg with ready := true } ∧ State.sameBut [.evIn, .dbg] s t
        ∧ t.m.reports .device 0x1101 0 (s.m.fget Fld.DBG_FRZ_TICK_LO_TICK) (s.m.fget Fld.DBG_FRZ_CYCLE_CYCLE) (if s.m.dbg.frzReg then 1 else 0)) ∧
    (s.m.dbg.stopped = false ∨ s.m.dbg.ready = true → exec .readoutReady s = .next s) := by
  refine ⟨fun hup hs hr => ?_, fun h => exec_on rfl (if_neg ?_)⟩
  · have hdbg := s.m.sameBut_dbg { s.m.dbg with ready := true }
    have he : ∀ n, ({ s.m with dbg := { s.m.dbg with ready := true } } : Mod).raise .device 0x1101 0 (s.m.fget Fld.DBG_FRZ_TICK_LO_TICK)
        (s.m.fget Fld.DBG_FRZ_CYCLE_CYCLE) (if s.m.dbg.frzReg then 1 else 0) = n → exec .readoutReady s = .next { s with m := n } := fun n hn => exec_on rfl ((if_pos (by rw [hup, hs, hr]; rfl)).trans hn)
    have hkd : ({ s.m with dbg := { s.m.dbg with ready := true } } : Mod).dbg = { s.m.dbg with ready := true } := rfl
    generalize ({ s.m with dbg := { s.m.dbg with ready := true } } : Mod) = k at hdbg he hkd
    have hraise := k.raise_sameBut .device 0x1101 0 (s.m.fget Fld.DBG_FRZ_TICK_LO_TICK) (s.m.fget Fld.DBG_FRZ_CYCLE_CYCLE) (if s.m.dbg.frzReg then 1 else 0)
    refine ⟨_, he _ rfl, (hraise.dbg (by decide)).trans hkd,
      ⟨rfl, rfl, Mod.sameBut_trans (Mod.sameBut_mono hdbg (by decide)) (Mod.sameBut_mono hraise (by decide))⟩, k.raise_reports _ _ _ _ _ _⟩
  · rcases h with h | h <;> simp [h]

/-- FRZ_MEMREAD. -/
theorem execFrzMemread_spec (h : s.m.answers Reg.DBG_FRZ_CTRL.base = true) (hu : s.m.sec.unlock ≠ 0) :
    (s.m.dbg.stopped = true → s.m.dbg.memread = false →
      ∃ t, exec .frzMemread s = .next t ∧ t.m.dbg = { s.m.dbg with memread := true }
        ∧ (∀ i, i < 12 → t.m.fget Fld.HBM_STACK_STATUS_STATE i
            = if s.m.fget Fld.HBM_STACK_STATUS_STATE i = 3 then 2 else s.m.fget Fld.HBM_STACK_STATUS_STATE i) ∧ State.sameBut [.regs, .dbg] s t) ∧
    (s.m.dbg.stopped = false → exec .frzMemread s = .next { s with m := { s.m with dbg := { s.m.dbg with memread := true } } }) := by
  refine ⟨fun hs hm => ?_, fun hs => exec_gated (f := Mod.memRead) rfl h hu (if_neg (by rw [hs]; exact fun h => (nomatch h)))⟩
  have hdbg := s.m.sameBut_dbg { s.m.dbg with memread := true }
  have hread : s.m.memRead = ({ s.m with dbg := { s.m.dbg with memread := true } } : Mod).hbmTo 3 2 := if_pos (by rw [hs, hm]; rfl)
  have hstate : ∀ i, ({ s.m with dbg := { s.m.dbg with memread := true } } : Mod).fget Fld.HBM_STACK_STATUS_STATE i = s.m.fget Fld.HBM_STACK_STATUS_STATE i := fun _ => rfl
  generalize hk : ({ s.m with dbg := { s.m.dbg with memread := true } } : Mod) = k at hdbg hread hstate
  have hkd : k.dbg = { s.m.dbg with memread := true } := by rw [← hk]
  refine ⟨_, exec_gated (f := Mod.memRead) rfl h hu hread, ((k.hbmTo_sameBut 3 2).dbg (by decide)).trans hkd, fun i hi => ?_,
    rfl, rfl, Mod.sameBut_trans (Mod.sameBut_mono hdbg (by decide)) (Mod.sameBut_mono (k.hbmTo_sameBut 3 2) (by decide))⟩
  rw [k.hbmTo_spec (by decide) hi, hstate]

theorem Mod.traceStart_spec (m : Mod) : m.traceStart.dbg = { m.dbg with trace := [], traceSt := 1, post := none }
    ∧ m.traceStart.fget Fld.DBG_TRACE_PTR_NEXT = 0 ∧ m.traceStart.fget Fld.DBG_TRACE_PTR_WRAPPED = 0 ∧ m.traceStart.fget Fld.DBG_STATUS_TRACE_TRIG = 0 := by
  unfold Mod.traceStart
  extract_lets _ m1
  have hd : m1.dbg = { m.dbg with trace := [], traceSt := 1, post := none } := rfl
  clear_value m1
  refine ⟨hd, ?_, ?_, ?_⟩
  · rw [Mod.fget_fset_otherReg _ _ _ _ _ _ _ _ (by decide), Mod.fget_fset_otherField _ Fld.DBG_TRACE_PTR_WRAPPED Fld.DBG_TRACE_PTR_NEXT _ _ _ rfl (by decide) (.inl (by decide))]
    exact m1.fget_fset_same Fld.DBG_TRACE_PTR_NEXT 0 0 0 (by decide)
  · rw [Mod.fget_fset_otherReg _ _ _ _ _ _ _ _ (by decide)]
    exact Mod.fget_fset_same _ Fld.DBG_TRACE_PTR_WRAPPED 0 0 0 (by decide)
  · exact Mod.fget_fset_same _ Fld.DBG_STATUS_TRACE_TRIG 0 0 0 (by decide)

end

/-- Settles O58: each command is the change of the module that its clause names, gated by the unlock (R451 to R466). -/
theorem debugCommands : Obligations.DebugCommands := by
  unfold Obligations.DebugCommands
  refine ⟨fun s scope target hu c hc ha => ?_, fun s scope target ha hu hscope htarget => ?_, fun s ha hu => ?_, fun s => ?_, fun s ha hu => ⟨?_, fun ht => ?_, fun ht => ?_⟩⟩
  · simp only [List.mem_cons, List.not_mem_nil, or_false] at hc
    rcases hc with rfl | rfl | rfl | rfl | rfl | rfl | rfl | rfl | rfl
    · exact exec_locked (f := fun x => x.dbgHalt (scope % 4) (target % 4096)) rfl ha hu
    · exact exec_locked (f := fun x => x.dbgResume (scope % 4) (target % 4096)) rfl ha hu
    · exact exec_locked (f := fun x => x.dbgStep (scope % 4) (target % 4096)) rfl ha hu
    · exact exec_locked (f := fun x => x.memReadCmd noEcc) rfl ha hu
    · exact exec_locked (f := fun x => x.memWriteCmd noEcc) rfl ha hu
    · exact exec_locked (f := fun x => x.freezeAsk true) rfl ha hu
    · exact exec_locked (f := Mod.memRead) rfl ha hu
    · exact exec_locked (f := Mod.traceStart) rfl ha hu
    · exact exec_locked (f := Mod.traceStop) rfl ha hu
  · intro named held
    have hn : named = s.m.scopeCores scope target := rfl
    clear_value named
    subst hn
    have hs : scope % 4 = scope := Nat.mod_eq_of_lt hscope
    have ht : target % 4096 = target := Nat.mod_eq_of_lt htarget
    obtain ⟨hr1, hr2, hr3, hr4⟩ := s.m.dbgResume_spec scope target
    obtain ⟨hst1, hst2, hst3⟩ := s.m.dbgStep_spec scope target
    exact ⟨⟨_, exec_gated (f := fun x => x.dbgHalt (scope % 4) (target % 4096)) (n := s.m.dbgHalt scope target) rfl ha hu (by rw [hs, ht]), s.m.dbgHalt_spec scope target⟩,
      ⟨_, exec_gated (f := fun x => x.dbgResume (scope % 4) (target % 4096)) (n := s.m.dbgResume scope target) rfl ha hu (by rw [hs, ht]), hr1, hr2, hr3, hr4, rfl, rfl, s.m.dbgResume_sameBut _ _⟩,
      ⟨_, exec_gated (f := fun x => x.dbgStep (scope % 4) (target % 4096)) (n := s.m.dbgStep scope target) rfl ha hu (by rw [hs, ht]), hst1, hst2, hst3, rfl, rfl, s.m.dbgStep_sameBut _ _⟩⟩
  · intro space core addr a k seen found given
    refine ⟨memCmds_discarded ha hu, fun ho hal => ⟨?_, ?_⟩⟩
    · obtain ⟨hmem, hres, hdata⟩ := (s.m.memFetch space noEcc).1.memShow_spec (s.m.memFound space)
      exact ⟨_, exec_gated (f := fun x => x.memReadCmd noEcc) rfl ha hu (Mod.memCmd_served ho hal).1, hmem.trans (s.m.memFetch_spec space).1, hres, hdata⟩
    · refine ⟨_, exec_gated (f := fun x => x.memWriteCmd noEcc) rfl ha hu (Mod.memCmd_served ho hal).2, s.m.memStore_result space, fun h0 hp hsize i hi hf => ?_,
        fun h1 i hi hf => ?_, fun h2 => ?_, fun h3 => ?_⟩
      · rw [show s.m.fget Fld.DBG_MEM_CTRL_SPACE = 0 from h0]
        exact s.m.memStore_plain hp hsize hi hf
      · rw [show s.m.fget Fld.DBG_MEM_CTRL_SPACE = 1 from h1]
        exact s.m.memStore_hbm hi hf
      · rw [show s.m.fget Fld.DBG_MEM_CTRL_SPACE = 2 from h2]
        exact s.m.memStore_sram
      · rw [show s.m.fget Fld.DBG_MEM_CTRL_SPACE = 3 from h3]
        exact s.m.memStore_trace
  · intro guard frozen
    obtain ⟨hp1, hp2, hp3, hp4⟩ := execFrzNAssert_spec (s := s)
    have hfrozen : ∀ t : State, Mod.froze s.m t.m → frozen t := fun t h => ⟨h.stopped, h.wait, h.tick, h.cycle, h.ports, h.hbm, h.pending, h.step, h.mem⟩
    refine ⟨hp1, fun hp hf hg => ?_, hp3, hp4, rfl, fun ha hu hf hg => ?_, execReadoutReady_spec.1, execReadoutReady_spec.2,
      fun ha hu => (execFrzMemread_spec ha hu).1, fun ha hu => (execFrzMemread_spec ha hu).2⟩
    · obtain ⟨t, he, ht, hpin⟩ := hp2 hp hf hg
      exact ⟨t, he, hfrozen t ht, hpin⟩
    · obtain ⟨t, he, ht, hreg⟩ := execFrzCtrlFreeze_spec ha hu hf hg
      exact ⟨t, he, hfrozen t ht, hreg⟩
  · exact ⟨_, exec_gated (f := Mod.traceStart) rfl ha hu rfl, s.m.traceStart_spec⟩
  · exact exec_gated (f := Mod.traceStop) rfl ha hu (if_pos ht)
  · exact exec_gated (f := Mod.traceStop) rfl ha hu (if_neg ht)

end Sys2Proof.Machine
end

section
/-! PROOF. The statement of the attestation protocol and the key slots (16_security_and_update.md R398 to R405). -/

namespace Sys2Proof.Machine

/-! ### Runs of bytes -/

/-- A block of a run of blocks of one length. -/
theorem flatMap_block {α : Type} {f : α → List Byte} {d : Nat} (hf : ∀ x, (f x).length = d) (rest : List Byte) :
    ∀ (xs : List α) (k : Nat) (hk : k < xs.length), ((xs.flatMap f ++ rest).drop (d * k)).take d = f xs[k] := by
  intro xs
  induction xs with
  | nil => exact fun k hk => (Nat.not_lt_zero k hk).elim
  | cons x xs ih =>
    intro k hk
    rw [List.flatMap_cons, List.append_assoc]
    cases k with
    | zero => exact List.take_left' (hf x)
    | succ k =>
      rw [Nat.mul_succ, Nat.add_comm, ← List.drop_drop, List.drop_left' (hf x)]
      exact ih k (Nat.lt_of_succ_lt_succ hk)

theorem flatMap_block_length {α : Type} {f : α → List Byte} {d : Nat} (hf : ∀ x, (f x).length = d) (xs : List α) : (xs.flatMap f).length = d * xs.length := by
  induction xs with
  | nil => rfl
  | cons x xs ih => rw [List.flatMap_cons, List.length_append, hf, ih, List.length_cons, Nat.mul_succ, Nat.add_comm]

theorem shaRound_length (v : List Word) (kw : Word × Word) : (shaRound v kw).length = v.length := by
  unfold shaRound
  split <;> rfl

theorem shaRounds_length (kws : List (Word × Word)) (v : List Word) : (kws.foldl shaRound v).length = v.length := by
  induction kws generalizing v with
  | nil => rfl
  | cons kw kws ih => rw [List.foldl_cons, ih, shaRound_length]

theorem shaBlocks_length (n : Nat) (h : List Word) (bs : List Byte) : (shaBlocks n h bs).length = h.length := by
  induction n generalizing h bs with
  | zero => rfl
  | succ n ih => rw [shaBlocks, ih, shaBlock, List.length_zipWith, shaRounds_length, Nat.min_self]

theorem sha256_length (bs : List Byte) : (sha256 bs).length = 32 := by
  have hword : ∀ w : Word, (beBytes 4 w.toNat).length = 4 := fun w => by rw [beBytes, List.length_reverse, leBytes_length]
  rw [sha256, flatMap_block_length hword, shaBlocks_length]
  rfl

theorem Mod.meas_length (m : Mod) (r : Nat) : (m.meas r).length = 32 :=
  flatMap_block_length (f := fun w => leBytes 4 (m.fget Fld.SEC_MEAS_MEAS r w)) (fun _ => leBytes_length _ _) (List.range 8)

theorem Mod.allMeas_length (m : Mod) : m.allMeas.length = 256 := flatMap_block_length m.meas_length (List.range 8)

/-! ### Answers -/

section
variable {s : State} {via : AttPath}

/-- A request served: the answer, after what the request changed. -/
theorem att_served {c : Instr} {f : Mod → Mod} (e : exec c s = .next (s.att via f)) (h : s.m.attUp via = true) {n : Mod} {code status wait : Nat} {body : List Byte}
    (hf : f s.m = n.attReply via code status wait body) (hn : n.host = s.m.host) :
    ∃ t, exec c s = .next t ∧ s.replied t via code status wait body ∧ t.pending = s.pending ∧ t.evq = s.evq ∧ Mod.sameBut [.host] n t.m := by
  refine ⟨_, exec_on e ((if_pos h).trans hf), ?_, rfl, rfl, n.attReply_sameBut _ _ _ _ _⟩
  cases via with
  | doe req =>
    have hmsix := Mod.msix_spec (m := Mod.emit { n with host := { n.host with doe := ⟨none, n.host.doe.error⟩ } } (.doe (code + 0x80) (attObject req code status wait body))) 16
    exact ⟨congrArg (·.busy) hmsix.1, hmsix.2.1 _ (List.mem_append_right _ List.mem_cons_self)⟩
  | mctp sideband req => exact congrArg (fun x : HostUnit => x.out ++ [Out.mctp (bindingCode sideband) 0x7E (attObject req code status wait body)]) hn

/-- A request that is only answered. -/
theorem att_answered {c : Instr} {f : Mod → Mod} (e : exec c s = .next (s.att via f)) (h : s.m.attUp via = true) {code status wait : Nat} {body : List Byte}
    (hf : f s.m = s.m.attReply via code status wait body) : ∃ t, exec c s = .next t ∧ s.replied t via code status wait body ∧ State.sameBut [.host] s t := by
  obtain ⟨t, he, hr, hp, hq, hs⟩ := att_served e h hf rfl
  exact ⟨t, he, hr, hp, hq, hs⟩

end

/-! ### Quotes -/

section
variable (m : Mod)

theorem Mod.quoteBody_spec (q : Nat) {nonce : List Byte} (hn : nonce.length = 32) : (m.quoteBody q nonce).length = 384
    ∧ ((m.quoteBody q nonce).drop 16).take 4 = leBytes 4 q ∧ ((m.quoteBody q nonce).drop 40).take 32 = nonce := by
  have hpad : padTo 32 nonce = nonce := by
    rw [padTo, hn, List.take_of_length_le (Nat.le_of_eq hn)]
    exact List.append_nil _
  unfold Mod.quoteBody
  extract_lets flags
  rw [hpad]
  refine ⟨?_, ?_, ?_⟩
  · simp only [List.length_append, leBytes_length, sha256_length, m.allMeas_length, hn]
  · simp only [List.append_assoc]
    rw [← List.append_assoc, ← List.append_assoc, ← List.append_assoc, List.drop_left' (by simp only [List.length_append, leBytes_length]), List.take_left' (leBytes_length _ _)]
  · simp only [List.append_assoc]
    rw [← List.append_assoc, ← List.append_assoc, ← List.append_assoc, ← List.append_assoc, ← List.append_assoc, ← List.append_assoc, ← List.append_assoc, ← List.append_assoc,
      List.drop_left' (by simp only [List.length_append, leBytes_length]), List.take_left' hn]

/-- The warning that few indices are left. -/
theorem Mod.keyLow_spec : Mod.sameBut [.evIn, .sec] m m.keyLow ∧ m.keyLow.sec.counterOpen = m.sec.counterOpen
    ∧ (attIndices - m.fget Fld.SEC_ATT_NEXT_NEXT < 16384 → m.sec.keyLowRaised = false →
        m.keyLow.reports .corrected 0x0F06 0 (attIndices - m.fget Fld.SEC_ATT_NEXT_NEXT) 0 0 ∧ m.keyLow.sec.keyLowRaised = true)
    ∧ (16384 ≤ attIndices - m.fget Fld.SEC_ATT_NEXT_NEXT ∨ m.sec.keyLowRaised = true → m.keyLow.evIn = m.evIn) := by
  unfold Mod.keyLow
  extract_lets left
  split
  · rename_i h
    have hraised : m.sec.keyLowRaised = false := by simpa using h.2
    have hs := m.sameBut_sec { m.sec with keyLowRaised := true }
    have hsec : ({ m with sec := { m.sec with keyLowRaised := true } } : Mod).sec = { m.sec with keyLowRaised := true } := rfl
    generalize ({ m with sec := { m.sec with keyLowRaised := true } } : Mod) = k at hs hsec
    have hraise := k.raise_sameBut .corrected 0x0F06 0 left 0 0
    have hsec' := (hraise.sec (by decide)).trans hsec
    refine ⟨Mod.sameBut_trans (Mod.sameBut_mono hs (by decide)) (Mod.sameBut_mono hraise (by decide)), congrArg (·.counterOpen) hsec',
      fun _ _ => ⟨k.raise_reports _ _ _ _ _ _, congrArg (·.keyLowRaised) hsec'⟩, fun hor => ?_⟩
    rcases hor with hor | hor
    · exact (Nat.not_lt.2 hor h.1).elim
    · exact Bool.noConfusion (hor.symm.trans hraised)
  · rename_i h
    exact ⟨Mod.sameBut_refl _ _, rfl, fun h1 h2 => (h ⟨h1, by rw [h2]; rfl⟩).elim, fun _ => rfl⟩

/-- What drawing the next index changes. -/
structure Mod.drawn (q marks : Nat) (m n : Mod) : Prop where
  next : n.fget Fld.SEC_ATT_NEXT_NEXT = q + 1
  opened : n.sec.counterOpen = true
  marks : n.fget Fld.SEC_ATT_MARKS_MARKS = if q = 4096 * marks then marks + 1 else marks
  regs : m.regsKeep [Reg.SEC_ATT_NEXT.base, Reg.SEC_ATT_MARKS.base] n
  low : 2 ^ 20 - (q + 1) < 16384 → m.sec.keyLowRaised = false → n.reports .corrected 0x0F06 0 (2 ^ 20 - (q + 1)) 0 0 ∧ n.sec.keyLowRaised = true
  quiet : 16384 ≤ 2 ^ 20 - (q + 1) ∨ m.sec.keyLowRaised = true → n.evIn = m.evIn
  host : n.host = m.host

/-- The mark of the first index not covered, blown (R402). -/
theorem Mod.markBlown_spec {q marks : Nat} (hq : q < 2 ^ 20) (hm : m.fget Fld.SEC_ATT_MARKS_MARKS = marks) :
    Mod.sameBut [.regs] m (if q = 4096 * marks then m.fset Fld.SEC_ATT_MARKS_MARKS (marks + 1) else m)
      ∧ m.regsKeep [Reg.SEC_ATT_MARKS.base] (if q = 4096 * marks then m.fset Fld.SEC_ATT_MARKS_MARKS (marks + 1) else m)
      ∧ (if q = 4096 * marks then m.fset Fld.SEC_ATT_MARKS_MARKS (marks + 1) else m).fget Fld.SEC_ATT_MARKS_MARKS = if q = 4096 * marks then marks + 1 else marks := by
  by_cases h : q = 4096 * marks
  · simp only [if_pos h]
    refine ⟨m.fset_sameBut _ _ _ _, m.fset_regsKeep Fld.SEC_ATT_MARKS_MARKS _ 0 0, ?_⟩
    have hv := m.fget_fset_same Fld.SEC_ATT_MARKS_MARKS (marks + 1) 0 0 (by decide)
    have hlt : marks + 1 < 2 ^ (Fld.SEC_ATT_MARKS_MARKS.hi + 1 - Fld.SEC_ATT_MARKS_MARKS.lo) := by
      have hw : 2 ^ (Fld.SEC_ATT_MARKS_MARKS.hi + 1 - Fld.SEC_ATT_MARKS_MARKS.lo) = 512 := by decide
      omega
    rw [hv, Nat.mod_eq_of_lt hlt]
  · simp only [if_neg h]
    exact ⟨Mod.sameBut_refl _ _, Mod.regsKeep_of_regs_eq rfl _, hm⟩

theorem Mod.drawIndex_spec {q marks : Nat} (hq : q < 2 ^ 20) (hm : m.fget Fld.SEC_ATT_MARKS_MARKS = marks) : Mod.drawn q marks m (m.drawIndex q) := by
  rw [Mod.drawIndex, hm]
  obtain ⟨hs1, hk1, hm1⟩ := m.markBlown_spec hq hm
  generalize (if q = 4096 * marks then m.fset Fld.SEC_ATT_MARKS_MARKS (marks + 1) else m) = m1 at hs1 hk1 hm1 ⊢
  have hs2 : Mod.sameBut [.regs] m1 (m1.fset Fld.SEC_ATT_NEXT_NEXT (q + 1)) := m1.fset_sameBut _ _ _ _
  have hk2 : m1.regsKeep [Reg.SEC_ATT_NEXT.base] (m1.fset Fld.SEC_ATT_NEXT_NEXT (q + 1)) := m1.fset_regsKeep Fld.SEC_ATT_NEXT_NEXT _ 0 0
  have hm2 : (m1.fset Fld.SEC_ATT_NEXT_NEXT (q + 1)).fget Fld.SEC_ATT_NEXT_NEXT = q + 1 := by
    have hw : 2 ^ (Fld.SEC_ATT_NEXT_NEXT.hi + 1 - Fld.SEC_ATT_NEXT_NEXT.lo) = 2097152 := by decide
    rw [m1.fget_fset_same Fld.SEC_ATT_NEXT_NEXT (q + 1) 0 0 (by decide), hw, Nat.mod_eq_of_lt (by omega)]
  generalize m1.fset Fld.SEC_ATT_NEXT_NEXT (q + 1) = m2 at hs2 hk2 hm2 ⊢
  have hs := Mod.sameBut_trans hs1 hs2
  have hs3 := m2.sameBut_sec { m2.sec with counterOpen := true }
  have hk3 := Mod.regsKeep_of_regs_eq (hs3.regs (by decide)) []
  have hsec : ({ m2 with sec := { m2.sec with counterOpen := true } } : Mod).sec = { m.sec with counterOpen := true } := by
    rw [← hs.sec (by decide)]
  generalize ({ m2 with sec := { m2.sec with counterOpen := true } } : Mod) = m3 at hs3 hk3 hsec ⊢
  have hn3 : m3.fget Fld.SEC_ATT_NEXT_NEXT = q + 1 := (hs3.fget (by decide) _ _ _).trans hm2
  obtain ⟨hlow, hopen, hrep, hq'⟩ := m3.keyLow_spec
  rw [hn3, hsec, show attIndices = 2 ^ 20 from rfl] at hrep hq'
  have hkl : m3.regsKeep [] m3.keyLow := Mod.regsKeep_of_regs_eq (hlow.regs (by decide)) _
  have hkeep := Mod.regsKeep_trans (Mod.regsKeep_mono hk3 (offs' := [Reg.SEC_ATT_NEXT.base, Reg.SEC_ATT_MARKS.base]) (by decide)) (Mod.regsKeep_mono hkl (by decide))
  refine ⟨(hlow.fget (by decide) _ _ _).trans hn3, hopen.trans (by rw [hsec]), ?_, ?_, hrep, fun h => ?_, ?_⟩
  · rw [hlow.fget (by decide), hs3.fget (by decide), Mod.regsKeep_fget hk2 _ _ _ (by decide), hm1]
  · exact Mod.regsKeep_trans (Mod.regsKeep_trans (Mod.regsKeep_mono hk1 (by decide)) (Mod.regsKeep_mono hk2 (by decide))) hkeep
  · rw [hq' h, hs3.evIn (by decide), hs.evIn (by decide)]
  · rw [hlow.host (by decide), hs3.host (by decide), hs.host (by decide)]

end

/-! ### The attestation protocol -/

section
variable {s : State} {via : AttPath}

theorem Mod.infoBody_spec (m : Mod) : m.infoBody.take 8 = leBytes 8 Config.uid.toNat ∧ (m.infoBody.drop 8).take 4 = leBytes 4 (m.fget Fld.SEC_SVN_FUSED) := by
  rw [Mod.infoBody]
  simp only [List.append_assoc]
  rw [List.take_left' (leBytes_length _ _), List.drop_left' (leBytes_length _ _), List.take_left' (leBytes_length _ _)]
  exact ⟨rfl, rfl⟩

theorem Mod.measBody_spec (m : Mod) : (m.allMeas ++ m.sec.log.flatMap MeasEntry.bytes).drop 256 = m.sec.log.flatMap MeasEntry.bytes
    ∧ ∀ k, k < 8 → ((m.allMeas ++ m.sec.log.flatMap MeasEntry.bytes).drop (32 * k)).take 32 = m.meas k := by
  refine ⟨List.drop_left' m.allMeas_length, fun k hk => ?_⟩
  have h := flatMap_block (f := m.meas) m.meas_length (m.sec.log.flatMap MeasEntry.bytes) (List.range 8) k (by rwa [List.length_range])
  rwa [List.getElem_range] at h

/-- A quote signed. -/
theorem execGetQuote_signed (h : s.m.attUp via = true) {nonce : List Byte} (hn : nonce.length = 32) {wait : Nat} (hq : s.m.fget Fld.SEC_ATT_NEXT_NEXT < 2 ^ 20)
    (hw : s.m.quoteWait wait = 0) (hu : s.m.sec.unlock ≠ 2) :
    ∃ t body, exec (.getQuote via nonce wait) s = .next t ∧ s.replied t via 4 0 0 (body ++ Config.attSign (s.m.fget Fld.SEC_ATT_NEXT_NEXT) body)
      ∧ body.length = 384 ∧ (body.drop 16).take 4 = leBytes 4 (s.m.fget Fld.SEC_ATT_NEXT_NEXT) ∧ (body.drop 40).take 32 = nonce
      ∧ Mod.drawn (s.m.fget Fld.SEC_ATT_NEXT_NEXT) (s.m.fget Fld.SEC_ATT_MARKS_MARKS) s.m (s.m.drawIndex (s.m.fget Fld.SEC_ATT_NEXT_NEXT))
      ∧ Mod.sameBut [.host] (s.m.drawIndex (s.m.fget Fld.SEC_ATT_NEXT_NEXT)) t.m := by
  have hd := s.m.drawIndex_spec hq rfl
  obtain ⟨hlen, hidx, hnon⟩ := s.m.quoteBody_spec (s.m.fget Fld.SEC_ATT_NEXT_NEXT) hn
  obtain ⟨t, he, hr, -, -, hs⟩ := att_served (c := .getQuote via nonce wait) rfl h ((if_neg (not_not_intro hn)).trans ((if_neg (Nat.not_le.2 hq)).trans
    ((if_neg (by rw [hw]; decide)).trans (if_neg hu)))) hd.host
  exact ⟨t, _, he, hr, hlen, hidx, hnon, hd, hs⟩

/-- A key that cannot be unwrapped. -/
theorem execLoadKey_refused {slot why : Nat} {ciphertext iv wrapped : List Byte} {f : Mod → Mod}
    (e : exec (.loadKey via slot ciphertext iv wrapped) s = .next (s.att via f)) (h : s.m.attUp via = true) (hf : f s.m = s.m.keyRefused via slot why) :
    ∃ t, exec (.loadKey via slot ciphertext iv wrapped) s = .next t ∧ s.replied t via 6 4 0 [] ∧ t.m.sec = s.m.sec ∧ t.m.fget Fld.SEC_ERR_KEY_REFUSED = 1
      ∧ t.m.reports .corrected 0x0F08 0 slot why 0 := by
  have hset := s.m.fset_sameBut Fld.SEC_ERR_KEY_REFUSED 1 0 0
  have hbit : (s.m.fset Fld.SEC_ERR_KEY_REFUSED 1).fget Fld.SEC_ERR_KEY_REFUSED = 1 := s.m.fget_fset_bit Fld.SEC_ERR_KEY_REFUSED 0 0 rfl
  rw [Mod.keyRefused] at hf
  generalize s.m.fset Fld.SEC_ERR_KEY_REFUSED 1 = k at hset hbit hf
  have hraise := k.raise_sameBut .corrected 0x0F08 0 slot why 0
  have hrep := k.raise_reports .corrected 0x0F08 0 slot why 0
  generalize k.raise .corrected 0x0F08 0 slot why = n at hraise hrep hf
  obtain ⟨t, he, hr, -, -, hs⟩ := att_served e h hf ((hraise.host (by decide)).trans (hset.host (by decide)))
  refine ⟨t, he, hr, ?_, ?_, Mod.reports_of_eq (hs.evIn (by decide)) (hs.tick (by decide)) hrep⟩
  · rw [hs.sec (by decide), hraise.sec (by decide), hset.sec (by decide)]
  · rw [hs.fget (by decide), hraise.fget (by decide), hbit]

end

/-- The keys accepted, each in its slot. -/
theorem kvGet?_keysApplied {α : Type} (due : List (Nat × α)) (k : Nat) : ∀ keys : Kv α,
    (∀ v, (∃ e ∈ due, e.1 = k) → (∀ e ∈ due, e.1 = k → e.2 = v) → kvGet? (due.foldl (fun x e => kvSet x e.1 e.2) keys) k = some v)
      ∧ ((∀ e ∈ due, e.1 ≠ k) → kvGet? (due.foldl (fun x e => kvSet x e.1 e.2) keys) k = kvGet? keys k) := by
  induction due with
  | nil => exact fun keys => ⟨fun v ⟨e, he, _⟩ => (nomatch he), fun _ => rfl⟩
  | cons d due ih =>
    intro keys
    obtain ⟨h1, h2⟩ := ih (kvSet keys d.1 d.2)
    rw [List.foldl_cons]
    refine ⟨fun v hex hall => ?_, fun hnone => ?_⟩
    · by_cases hlater : ∃ e ∈ due, e.1 = k
      · exact h1 v hlater fun e he => hall e (List.mem_cons_of_mem _ he)
      · have hd : d.1 = k := by
          obtain ⟨e, he, hk⟩ := hex
          rcases List.mem_cons.1 he with rfl | he
          · exact hk
          · exact (hlater ⟨e, he, hk⟩).elim
        rw [h2 fun e he hk => hlater ⟨e, he, hk⟩, ← hd, kvGet?_kvSet_same, hall d List.mem_cons_self hd]
    · rw [h2 fun e he => hnone e (List.mem_cons_of_mem _ he), kvGet?_kvSet_other _ _ (Ne.symm (hnone d List.mem_cons_self))]

/-- Settles O54: each request object is answered by the branch its clause names, after the change that goes with it (R398 to R405). -/
theorem attestationAndKeys : Obligations.AttestationAndKeys := by
  unfold Obligations.AttestationAndKeys
  refine ⟨fun s via h => ⟨?_, att_answered rfl h rfl, ?_, att_answered rfl h rfl⟩, fun s via nonce wait h hn => ?_, fun s via nonce wait h hn => ?_,
    fun s via slot ciphertext iv wrapped h => ?_, fun s hup hb => ?_, fun s h => ?_⟩
  · obtain ⟨t, he, hr, hs⟩ := att_answered (c := .getInfo via) rfl h rfl
    exact ⟨t, _, he, hr, s.m.infoBody_spec.1, s.m.infoBody_spec.2, hs⟩
  · obtain ⟨t, he, hr, hs⟩ := att_answered (c := .getMeasurements via) rfl h rfl
    exact ⟨t, _, he, hr, s.m.measBody_spec.1, s.m.measBody_spec.2, hs⟩
  · intro q marks left
    have hwait : s.m.quoteWait wait = left := rfl
    have hn' : ¬nonce.length ≠ 32 := not_not_intro hn
    refine ⟨fun hq => ?_, fun hq hl => ?_, fun hq hl hu => ?_, fun hq hl hu => ?_⟩
    · have hraise := s.m.raise_sameBut .contained 0x0F07 0 0 0 0
      obtain ⟨t, he, hr, -, -, hs⟩ := att_served (c := .getQuote via nonce wait) rfl h ((if_neg hn').trans (if_pos hq)) (hraise.host (by decide))
      exact ⟨t, he, hr, Mod.reports_of_eq (hs.evIn (by decide)) (hs.tick (by decide)) (s.m.raise_reports _ _ _ _ _ _),
        (hs.sec (by decide)).trans (hraise.sec (by decide)), (hs.regs (by decide)).trans (hraise.regs (by decide))⟩
    · refine att_answered rfl h ?_
      exact (if_neg hn').trans ((if_neg (Nat.not_le.2 hq)).trans (if_pos hl))
    · refine att_answered rfl h ?_
      exact (if_neg hn').trans ((if_neg (Nat.not_le.2 hq)).trans ((if_neg (by rw [hwait, hl]; decide)).trans (if_pos hu)))
    · obtain ⟨t, body, he, hr, hlen, hidx, hnon, hd, hs⟩ := execGetQuote_signed h hn hq (hwait.trans hl) hu
      refine ⟨t, body, he, hr, hlen, hidx, hnon, (hs.fget (by decide) _ _ _).trans hd.next, ?_, (hs.fget (by decide) _ _ _).trans hd.marks, Mod.regsKeep_to _ hd.regs (hs.regs (by decide)),
        fun h1 h2 => ⟨Mod.reports_of_eq (hs.evIn (by decide)) (hs.tick (by decide)) (hd.low h1 h2).1, ?_⟩, fun h1 => (hs.evIn (by decide)).trans (hd.quiet h1)⟩
      · rw [hs.sec (by decide), hd.opened]
      · rw [hs.sec (by decide), (hd.low h1 h2).2]
  · refine att_answered rfl h ?_
    exact if_pos hn
  · intro sized secret key
    have hfit : slot < 16 → sized → ¬(16 ≤ slot ∨ ciphertext.length ≠ 1568 ∨ iv.length ≠ 12 ∨ wrapped.length ≠ 48) := fun hs hz => by
      obtain ⟨h1, h2, h3⟩ := hz
      omega
    have hdecap : s.m.decap ciphertext = secret := rfl
    refine ⟨fun hbad => ?_, fun hs hz hb => ?_, fun hs hz hb hk => ?_, fun k hs hz hb hk => ?_, fun hs hb => ?_, fun hs => ?_, fun hs hb => ?_⟩
    · refine att_answered rfl h ?_
      refine if_pos (hbad.imp_right fun hz => ?_)
      by_contra hc
      exact hz ⟨by omega, by omega, by omega⟩
    · refine att_answered rfl h ?_
      exact (if_neg (hfit hs hz)).trans (if_pos hb)
    · have hb' : ¬s.m.stepBusy = true := by rw [hb]; decide
      by_cases hsec : secret = none
      · rw [if_pos hsec]
        exact execLoadKey_refused rfl h ((if_neg (hfit hs hz)).trans ((if_neg hb').trans (by simp only [hdecap, hsec])))
      · obtain ⟨x, hx⟩ := Option.ne_none_iff_exists'.1 hsec
        have hopen : Config.gcmOpen x iv (leBytes 1 slot ++ leBytes 8 Config.uid.toNat) wrapped = none := by
          have hbind : secret.bind (fun x => Config.gcmOpen x iv (leBytes 1 slot ++ leBytes 8 Config.uid.toNat) wrapped) = none := hk
          rwa [hx] at hbind
        rw [if_neg hsec]
        exact execLoadKey_refused rfl h ((if_neg (hfit hs hz)).trans ((if_neg hb').trans (by simp only [hdecap, hx, hopen])))
    · have hb' : ¬s.m.stepBusy = true := by rw [hb]; decide
      have hbind : secret.bind (fun x => Config.gcmOpen x iv (leBytes 1 slot ++ leBytes 8 Config.uid.toNat) wrapped) = some k := hk
      obtain ⟨x, hx, hopen⟩ := Option.bind_eq_some_iff.1 hbind
      have hload := s.m.sameBut_sec { s.m.sec with keysDue := kvSet s.m.sec.keysDue slot k }
      obtain ⟨t, he, hr, hp, hq, ht⟩ := att_served (c := .loadKey via slot ciphertext iv wrapped) rfl h (n := { s.m with sec := { s.m.sec with keysDue := kvSet s.m.sec.keysDue slot k } })
        ((if_neg (hfit hs hz)).trans ((if_neg hb').trans (by simp only [hdecap, hx, hopen]; rfl))) rfl
      have hsec := ht.sec (by decide)
      refine ⟨t, he, hr, ?_, ?_, hp, hq, Mod.sameBut_trans (Mod.sameBut_mono hload (by decide)) (Mod.sameBut_mono ht (by decide))⟩
      · rw [hsec]
        exact kvGet?_kvSet_same _ _ _
      · rw [hsec]
    · have hb' : ¬s.m.stepBusy = true := by rw [hb]; decide
      have hclear := s.m.sameBut_sec { s.m.sec with keys := kvDel s.m.sec.keys slot, keysDue := kvDel s.m.sec.keysDue slot }
      obtain ⟨t, he, hr, hp, hq, ht⟩ := att_served (c := .clearKey via slot) rfl h ((if_neg (Nat.not_le.2 hs)).trans (if_neg hb')) rfl
      have hsec := ht.sec (by decide)
      refine ⟨t, he, hr, ?_, ?_, fun k hk => ?_, hp, hq, Mod.sameBut_trans (Mod.sameBut_mono hclear (by decide)) (Mod.sameBut_mono ht (by decide))⟩
      · rw [hsec]
        exact kvGet?_kvDel_same _ _
      · rw [hsec]
        exact kvGet?_kvDel_same _ _
      · rw [hsec]
        exact kvGet?_kvDel_other _ hk
    · refine att_answered rfl h ?_
      exact if_pos hs
    · refine att_answered rfl h ?_
      exact (if_neg (Nat.not_le.2 hs)).trans (if_pos hb)
  · refine ⟨_, exec_on rfl (if_pos (by rw [hup, hb]; rfl)), rfl, ⟨rfl, rfl, s.m.sameBut_sec _⟩, fun k key => ?_, fun k => ?_⟩
    · exact (kvGet?_keysApplied s.m.sec.keysDue k s.m.sec.keys).1 key
    · exact (kvGet?_keysApplied s.m.sec.keysDue k s.m.sec.keys).2
  · refine exec_on rfl (if_neg ?_)
    rcases h with h | h <;> simp [h]

end Sys2Proof.Machine
end

section
/-! PROOF. The end of a security command, the measurement registers, the nonce and the unlock (16_security_and_update.md R397, R406 to R410). -/

namespace Sys2Proof.Machine

/-! ### Registers written in a row -/

theorem Mod.foldl_regsKeep {β : Type} {f : Mod → β → Mod} {offs : List Nat} : ∀ (ks : List β), (∀ x, ∀ k ∈ ks, Mod.regsKeep offs x (f x k)) → ∀ m : Mod,
    m.regsKeep offs (ks.foldl f m) := by
  intro ks
  induction ks with
  | nil => exact fun _ m => Mod.regsKeep_of_regs_eq rfl _
  | cons k ks ih =>
    exact fun h m => Mod.regsKeep_trans (h m k List.mem_cons_self) (ih (fun x j hj => h x j (List.mem_cons_of_mem _ hj)) (f m k))

/-- The words of a register file's instances, each as put. -/
theorem Mod.wordsPut_fget {F : Fld} (hF : F.lo ≤ F.hi) (hstep : ∀ i k, i ≠ k → F.reg.addr i 0 ≠ F.reg.addr k 0) (v : Nat → Nat) {i : Nat} :
    ∀ (ks : List Nat) (m : Mod), ks.Nodup → i ∈ ks → (ks.foldl (fun (x : Mod) k => x.fset F (v k) k) m).fget F i = v i % 2 ^ (F.hi + 1 - F.lo) := by
  intro ks
  induction ks with
  | nil => exact fun _ _ h => (nomatch h)
  | cons k ks ih =>
    intro m hn hi
    obtain ⟨hk, hks⟩ := List.nodup_cons.1 hn
    rw [List.foldl_cons]
    by_cases hin : i ∈ ks
    · exact ih _ hks hin
    · have he : i = k := (List.mem_cons.1 hi).resolve_right hin
      subst he
      have hkeep : Mod.regsKeep (ks.map (F.reg.addr · 0)) (m.fset F (v i) i) (ks.foldl (fun (x : Mod) k => x.fset F (v k) k) (m.fset F (v i) i)) :=
        Mod.foldl_regsKeep ks (fun x k hk => Mod.regsKeep_mono (x.fset_regsKeep F (v k) k 0) (List.cons_subset.2 ⟨List.mem_map_of_mem hk, List.nil_subset _⟩)) _
      rw [Mod.regsKeep_fget hkeep _ _ _ fun hm => ?_, m.fget_fset_same F (v i) i 0 hF]
      obtain ⟨k, hk', he⟩ := List.mem_map.1 hm
      exact hstep i k (fun h => hin (h ▸ hk')) he.symm

/-! ### The end of a command -/

section
variable {s : State} {path : Path}

theorem Mod.cmdDone_regsKeep (m : Mod) (path : Path) (code result : Nat) : m.regsKeep [Reg.SEC_CMD_STATUS.base] (m.cmdDone path code result) := by
  unfold Mod.cmdDone
  extract_lets m1
  have h1 : m.regsKeep [Reg.SEC_CMD_STATUS.base] m1 := by
    cases path with
    | bar0 => exact Mod.regsKeep_trans (m.fset_regsKeep Fld.SEC_CMD_STATUS_CODE code 0 0) (Mod.fset_regsKeep _ Fld.SEC_CMD_STATUS_RESULT result 0 0)
    | vdm => exact Mod.regsKeep_of_regs_eq rfl _
    | sideband => exact Mod.regsKeep_of_regs_eq rfl _
  clear_value m1
  split
  · exact Mod.regsKeep_to _ h1 ((Mod.msix_sameBut _ _).regs (by decide))
  · exact h1

/-- What a message adds to the output comes behind what was sent before. -/
theorem Mod.msix_out (m : Mod) (v : Nat) : ∃ more, (m.msix v).host.out = m.host.out ++ more := by
  unfold Mod.msix
  extract_lets e
  split
  · exact ⟨[], (List.append_nil _).symm⟩
  · split
    · exact ⟨[], (List.append_nil _).symm⟩
    · exact ⟨_, rfl⟩

theorem cmdDone_ended (n : Mod) (hn : n.host.out = s.m.host.out) {code result : Nat} (hc : code < 256) (hr : result < 256) :
    s.ended { s with m := n.cmdDone path code result } path code result := by
  unfold State.ended
  have hvec : ∀ (k : Mod) (f : Fld), (if code ≤ 7 then k.msix 17 else k).fget f = k.fget f := fun k f => by
    split
    · exact (k.msix_sameBut 17).fget (by decide) f 0 0
    · rfl
  have hmore : ∀ (k : Mod), ∃ more, (if code ≤ 7 then k.msix 17 else k).host.out = k.host.out ++ more := fun k => by
    split
    · exact k.msix_out 17
    · exact ⟨[], (List.append_nil _).symm⟩
  cases path with
  | bar0 =>
    refine ⟨(hvec ((n.fset Fld.SEC_CMD_STATUS_CODE code).fset Fld.SEC_CMD_STATUS_RESULT result) _).trans ?_,
      (hvec ((n.fset Fld.SEC_CMD_STATUS_CODE code).fset Fld.SEC_CMD_STATUS_RESULT result) _).trans ?_⟩
    · rw [Mod.fget_fset_otherField _ Fld.SEC_CMD_STATUS_RESULT Fld.SEC_CMD_STATUS_CODE _ _ _ rfl (by decide) (.inr (by decide)),
        Mod.fget_fset_same _ Fld.SEC_CMD_STATUS_CODE _ _ _ (by decide)]
      exact Nat.mod_eq_of_lt hc
    · rw [Mod.fget_fset_same _ Fld.SEC_CMD_STATUS_RESULT _ _ _ (by decide)]
      exact Nat.mod_eq_of_lt hr
  | vdm =>
    obtain ⟨more, hm⟩ := hmore (n.emit (.mctp 0 1 (leBytes 1 result)))
    exact ⟨more, hm.trans (by rw [Mod.emit, hn, List.append_assoc]; rfl)⟩
  | sideband =>
    obtain ⟨more, hm⟩ := hmore (n.emit (.mctp 1 1 (leBytes 1 result)))
    exact ⟨more, hm.trans (by rw [Mod.emit, hn, List.append_assoc]; rfl)⟩

/-- A security command: what it changed, and then its end. -/
theorem via_ended {c : Instr} {f : Mod → Mod} (e : exec c s = .next (s.via path Reg.SEC_CMD.base f)) (h : s.m.pathUp path Reg.SEC_CMD.base = true) {n : Mod} {code result : Nat}
    (hf : f s.m = n.cmdDone path code result) (hn : n.host.out = s.m.host.out) (hc : code < 256) (hr : result < 256) :
    ∃ t, exec c s = .next t ∧ s.ended t path code result ∧ Mod.sameBut [.regs, .host] n t.m ∧ n.regsKeep [Reg.SEC_CMD_STATUS.base] t.m ∧ t.evq = s.evq ∧ t.pending = s.pending :=
  ⟨{ s with m := n.cmdDone path code result }, (exec_via e h).trans (by rw [hf]), cmdDone_ended n hn hc hr, n.cmdDone_sameBut _ _ _, n.cmdDone_regsKeep _ _ _, rfl, rfl⟩

end

/-! ### Measurements, nonces and tokens -/

section
variable (m : Mod)

theorem Mod.setMeas_regsKeep (r : Nat) (v : List Byte) : m.regsKeep ((List.range 8).map (Reg.SEC_MEAS.addr r)) (m.setMeas r v) :=
  Mod.foldl_regsKeep _ (fun x w hw => Mod.regsKeep_mono (x.fset_regsKeep Fld.SEC_MEAS_MEAS _ r w) (List.cons_subset.2 ⟨List.mem_map_of_mem hw, List.nil_subset _⟩)) m

theorem Mod.extend_spec (r kind : Nat) (d : List Byte) : (m.extend r kind d).sec = { m.sec with log := m.sec.log ++ [⟨r, kind, m.tick.count, d⟩] }
    ∧ m.regsKeep ((List.range 8).map (Reg.SEC_MEAS.addr r)) (m.extend r kind d) := by
  unfold Mod.extend
  extract_lets m1
  have hk : m.regsKeep _ m1 := m.setMeas_regsKeep r _
  have hs : Mod.sameBut [.regs] m m1 := m.setMeas_sameBut _ _
  clear_value m1
  have hs2 := m1.sameBut_sec { m1.sec with log := m1.sec.log ++ [⟨r, kind, m.tick.count, d⟩] }
  refine ⟨?_, Mod.regsKeep_to _ hk (hs2.regs (by decide))⟩
  exact congrArg (fun u : SecUnit => { u with log := u.log ++ [(⟨r, kind, m.tick.count, d⟩ : MeasEntry)] }) (hs.sec (by decide))

/-- The measurement registers and the status of a command lie apart from the others. -/
theorem measRegs_apart : ∀ a ∈ (List.range 8).map (Reg.SEC_MEAS.addr 6), 0x11001C0 ≤ a ∧ a < 0x11001E0 := by decide

theorem Mod.vendorOver_sec : m.vendorOver.sec = if m.sec.unlock = 2 then { m.sec with kem := m.sec.kem + 1, cleared := false } else m.sec := by
  unfold Mod.vendorOver
  split <;> rfl

/-! ### The end of the unlock -/

theorem Mod.enOff_fget (ks : List Nat) {i : Nat} (_hi : i < 8) (hks : ∀ k ∈ ks, k < 8) : ∀ x : Mod,
    let n := ks.foldl (fun (x : Mod) i => (x.fset Fld.DBG_BP_CFG_EN 0 i).fset Fld.DBG_WATCH_CFG_EN 0 i) x
    (i ∈ ks ∨ x.fget Fld.DBG_BP_CFG_EN i = 0 → n.fget Fld.DBG_BP_CFG_EN i = 0) ∧ (i ∈ ks ∨ x.fget Fld.DBG_WATCH_CFG_EN i = 0 → n.fget Fld.DBG_WATCH_CFG_EN i = 0) := by
  induction ks with
  | nil => exact fun x => ⟨fun h => h.resolve_left (fun h => (nomatch h)), fun h => h.resolve_left (fun h => (nomatch h))⟩
  | cons k ks ih =>
    intro x
    have hk8 := hks k List.mem_cons_self
    have hbw : Fld.DBG_BP_CFG_EN.reg.addr i 0 ≠ Fld.DBG_WATCH_CFG_EN.reg.addr k 0 := by
      simp only [Fld.DBG_BP_CFG_EN, Fld.DBG_WATCH_CFG_EN, Reg.DBG_BP_CFG, Reg.DBG_WATCH_CFG, RegSpec.addr]
      omega
    have hwb : Fld.DBG_WATCH_CFG_EN.reg.addr i 0 ≠ Fld.DBG_BP_CFG_EN.reg.addr k 0 := by
      simp only [Fld.DBG_BP_CFG_EN, Fld.DBG_WATCH_CFG_EN, Reg.DBG_BP_CFG, Reg.DBG_WATCH_CFG, RegSpec.addr]
      omega
    have hstep : ((i = k ∨ x.fget Fld.DBG_BP_CFG_EN i = 0) → ((x.fset Fld.DBG_BP_CFG_EN 0 k).fset Fld.DBG_WATCH_CFG_EN 0 k).fget Fld.DBG_BP_CFG_EN i = 0)
        ∧ ((i = k ∨ x.fget Fld.DBG_WATCH_CFG_EN i = 0) → ((x.fset Fld.DBG_BP_CFG_EN 0 k).fset Fld.DBG_WATCH_CFG_EN 0 k).fget Fld.DBG_WATCH_CFG_EN i = 0) := by
      by_cases hik : i = k
      · subst hik
        refine ⟨fun _ => ?_, fun _ => ?_⟩
        · rw [Mod.fget_fset_otherReg _ _ _ _ _ _ _ _ hbw, Mod.fget_fset_same _ Fld.DBG_BP_CFG_EN _ _ _ (by decide), Nat.zero_mod]
        · rw [Mod.fget_fset_same _ Fld.DBG_WATCH_CFG_EN _ _ _ (by decide), Nat.zero_mod]
      · have hbb : Fld.DBG_BP_CFG_EN.reg.addr i 0 ≠ Fld.DBG_BP_CFG_EN.reg.addr k 0 := by
          simp only [Fld.DBG_BP_CFG_EN, Reg.DBG_BP_CFG, RegSpec.addr]
          omega
        have hww : Fld.DBG_WATCH_CFG_EN.reg.addr i 0 ≠ Fld.DBG_WATCH_CFG_EN.reg.addr k 0 := by
          simp only [Fld.DBG_WATCH_CFG_EN, Reg.DBG_WATCH_CFG, RegSpec.addr]
          omega
        rw [Mod.fget_fset_otherReg _ _ _ _ _ _ _ _ hbw, Mod.fget_fset_otherReg _ _ _ _ _ _ _ _ hbb, Mod.fget_fset_otherReg _ _ _ _ _ _ _ _ hww,
          Mod.fget_fset_otherReg _ _ _ _ _ _ _ _ hwb]
        exact ⟨fun h => h.resolve_left hik, fun h => h.resolve_left hik⟩
    obtain ⟨h1, h2⟩ := ih (fun j hj => hks j (List.mem_cons_of_mem _ hj)) ((x.fset Fld.DBG_BP_CFG_EN 0 k).fset Fld.DBG_WATCH_CFG_EN 0 k)
    refine ⟨fun h => h1 ?_, fun h => h2 ?_⟩
    · rcases h with h | h
      · exact (List.mem_cons.1 h).symm.imp_right fun e => hstep.1 (.inl e)
      · exact .inr (hstep.1 (.inr h))
    · rcases h with h | h
      · exact (List.mem_cons.1 h).symm.imp_right fun e => hstep.2 (.inl e)
      · exact .inr (hstep.2 (.inr h))

/-- What the end of an unlock leaves. -/
structure Mod.unlocked (m n : Mod) : Prop where
  unlock : n.sec.unlock = 0
  cores : ∀ c, (n.core c).halt = none ∧ (n.core c).haltReq = none
  dev : n.dbg.devHalt = false
  trace : n.dbg.traceSt ≠ 1
  off : ∀ i, i < 8 → n.fget Fld.DBG_BP_CFG_EN i = 0 ∧ n.fget Fld.DBG_WATCH_CFG_EN i = 0
  kem : n.sec.kem = if m.sec.unlock = 2 then m.sec.kem + 1 else m.sec.kem

theorem kvGet?_of_notMem {α : Type} {x : Kv α} {k : Nat} (h : k ∉ x.map (·.1)) : kvGet? x k = none := by
  induction x with
  | nil => rfl
  | cons e x ih =>
    obtain ⟨hne, hx⟩ := not_or.1 fun h' => h (List.mem_cons.2 h')
    rw [kvGet?, if_neg hne, ih hx]

theorem Mod.unlockEffects_spec : (∀ c, (m.unlockEffects.core c).halt = none ∧ (m.unlockEffects.core c).haltReq = none) ∧ m.unlockEffects.dbg.devHalt = false
    ∧ m.unlockEffects.dbg.traceSt ≠ 1 ∧ ∀ i, i < 8 → m.unlockEffects.fget Fld.DBG_BP_CFG_EN i = 0 ∧ m.unlockEffects.fget Fld.DBG_WATCH_CFG_EN i = 0 := by
  unfold Mod.unlockEffects
  extract_lets m1 _ m2
  have hcores : ∀ c, (m2.core c).halt = none ∧ (m2.core c).haltReq = none := fun c => by
    obtain ⟨h1, h2, -⟩ := m.resumeCores_spec (m.cores.map (·.1))
    by_cases hc : c ∈ m.cores.map (·.1)
    · exact h1 c hc
    · have hnone : kvGet? m.cores c = none := kvGet?_of_notMem hc
      change (m1.core c).halt = none ∧ (m1.core c).haltReq = none
      rw [show m1.core c = m.core c from h2 c hc, Mod.core, kvGetD, hnone]
      exact ⟨rfl, rfl⟩
  have hdev : m2.dbg.devHalt = false := rfl
  clear_value m2
  have hen := fun i hi => Mod.enOff_fget (List.range 8) (i := i) hi (fun k hk => List.mem_range.1 hk) m2
  have hs : Mod.sameBut [.regs] m2 ((List.range 8).foldl (fun (x : Mod) i => (x.fset Fld.DBG_BP_CFG_EN 0 i).fset Fld.DBG_WATCH_CFG_EN 0 i) m2) :=
    Mod.sameBut_foldl _ _ _ (fun x i => Mod.sameBut_trans (x.fset_sameBut _ _ _ _) (Mod.fset_sameBut _ _ _ _ _)) (Mod.sameBut_refl _ _)
  generalize ((List.range 8).foldl (fun (x : Mod) i => (x.fset Fld.DBG_BP_CFG_EN 0 i).fset Fld.DBG_WATCH_CFG_EN 0 i) m2) = m3 at hs hen ⊢
  have hst := m3.traceStop_sameBut
  refine ⟨fun c => ?_, ?_, ?_, fun i hi => ?_⟩
  · rw [hst.core (by decide), hs.core (by decide)]
    exact hcores c
  · have hkeep : m3.traceStop.dbg.devHalt = m3.dbg.devHalt := by
      unfold Mod.traceStop
      split <;> rfl
    rw [hkeep, hs.dbg (by decide), hdev]
  · unfold Mod.traceStop
    split
    · exact (by decide : (2 : Nat) ≠ 1)
    · rename_i h
      exact h
  · rw [hst.fget (by decide), hst.fget (by decide)]
    exact ⟨(hen i hi).1 (.inl (List.mem_range.2 hi)), (hen i hi).2 (.inl (List.mem_range.2 hi))⟩

theorem Mod.unlockEnd_spec (hu : m.sec.unlock ≠ 0) : Mod.unlocked m m.unlockEnd ∧ m.unlockEnd.host = m.host := by
  have hhost : m.unlockEnd.host = m.host := m.unlockEnd_sameBut.host (by decide)
  refine ⟨?_, hhost⟩
  have he : m.unlockEnd = Mod.unlockEffects { m.vendorOver with sec := { m.vendorOver.sec with unlock := 0, unlockTimed := false } } := if_neg hu
  have hkem : m.vendorOver.sec.kem = if m.sec.unlock = 2 then m.sec.kem + 1 else m.sec.kem := by
    rw [m.vendorOver_sec]
    split <;> rfl
  have hsec : ({ m.vendorOver with sec := { m.vendorOver.sec with unlock := 0, unlockTimed := false } } : Mod).sec = { m.vendorOver.sec with unlock := 0, unlockTimed := false } := rfl
  rw [he]
  generalize ({ m.vendorOver with sec := { m.vendorOver.sec with unlock := 0, unlockTimed := false } } : Mod) = k at hsec ⊢
  obtain ⟨hcores, hdev, htrace, hoff⟩ := k.unlockEffects_spec
  have hs := k.unlockEffects_sameBut.sec (by decide)
  exact ⟨by rw [hs, hsec], hcores, hdev, htrace, hoff, by rw [hs, hsec]; exact hkem⟩

end

end Sys2Proof.Machine
end

section
/-! PROOF. The statement of nonces, tokens, unlocks and the policy (16_security_and_update.md R406 to R410). -/

namespace Sys2Proof.Machine

/-! ### Checks of an object -/

section
variable (m : Mod)

theorem Mod.fget_lt (f : Fld) (i j : Nat) : m.fget f i j < 2 ^ (f.hi + 1 - f.lo) := Nat.mod_lt _ (Nat.two_pow_pos _)

/-- The debug tokens that are accepted (R408). -/
theorem Mod.tokenCheck_eq_zero (t : List Byte) :
    64 ≤ t.length ∧ (hdrNat t 0 4 = 0x44584C53 ∧ uidOk t = true ∧ m.nonceOk t = true ∧ m.signerOk (hdrNat t 5 1) (t.take 64) (t.drop 64) = true)
      ∧ (hdrNat t 4 1 = 1 ∧ m.fget Fld.SEC_POLICY_OWNER_DEBUG = 1 ∧ hdrNat t 5 1 ≤ 3 ∨ hdrNat t 4 1 = 2 ∧ hdrNat t 5 1 = 0xFF) ↔ m.tokenCheck t = 0 := by
  have hown : m.fget Fld.SEC_POLICY_OWNER_DEBUG < 2 := m.fget_lt Fld.SEC_POLICY_OWNER_DEBUG 0 0
  unfold Mod.tokenCheck
  extract_lets scope signer
  by_cases h1 : t.length < 64 ∨ hdrNat t 0 4 ≠ 0x44584C53
  · rw [if_pos h1]
    exact ⟨fun h => by omega, fun h => (nomatch h)⟩
  rw [if_neg h1]
  cases h2 : uidOk t
  · exact ⟨fun h => Bool.noConfusion h.2.1.2.1, fun h => (nomatch h)⟩
  cases h3 : m.nonceOk t
  · exact ⟨fun h => Bool.noConfusion h.2.1.2.2.1, fun h => (nomatch h)⟩
  simp only [Bool.not_true, Bool.false_eq_true, if_false, true_and]
  by_cases h4 : (scope ≠ 1 ∧ scope ≠ 2) ∨ (scope = 1 ∧ (m.fget Fld.SEC_POLICY_OWNER_DEBUG = 0 ∨ 3 < signer)) ∨ (scope = 2 ∧ signer ≠ 0xFF)
  · rw [if_pos h4]
    exact ⟨fun h => by omega, fun h => (nomatch h)⟩
  rw [if_neg h4]
  cases h5 : m.signerOk signer (t.take 64) (t.drop 64)
  · exact ⟨fun h => Bool.noConfusion h.2.1.2, fun h => (nomatch h)⟩
  · exact ⟨fun _ => rfl, fun _ => ⟨by omega, ⟨by omega, rfl⟩, by omega⟩⟩

theorem Mod.tokenCheck_lt (t : List Byte) : m.tokenCheck t < 8 := by
  unfold Mod.tokenCheck
  extract_lets scope signer
  split_ifs <;> decide

/-- An object refused (R407, R408). -/
theorem Mod.tokenBad_spec (kind why : Nat) : (m.tokenBad kind why).fget Fld.SEC_ERR_TOKEN_BAD = 1 ∧ (m.tokenBad kind why).reports .corrected 0x0F0B 0 kind why 0 := by
  unfold Mod.tokenBad
  have h := m.fget_fset_bit Fld.SEC_ERR_TOKEN_BAD 0 0 rfl
  generalize m.fset Fld.SEC_ERR_TOKEN_BAD 1 = k at h ⊢
  exact ⟨((k.raise_sameBut _ _ _ _ _ _).fget (by decide) _ _ _).trans h, k.raise_reports _ _ _ _ _ _⟩

/-! ### The policy word -/

theorem setBits_fields {w : Nat} : ∀ (fs : List FieldSpec) (a : Nat), (∀ f ∈ fs, f.lo ≤ f.hi) → fs.Pairwise (fun f g => g.hi < f.lo ∨ f.hi < g.lo) →
    (∀ f ∈ fs, bitsOf (fs.foldl (fun a f => setBits a f.hi f.lo (bitsOf w f.hi f.lo)) a) f.hi f.lo = bitsOf w f.hi f.lo)
      ∧ ∀ hi lo : Nat, (∀ f ∈ fs, hi < f.lo ∨ f.hi < lo) → bitsOf (fs.foldl (fun a f => setBits a f.hi f.lo (bitsOf w f.hi f.lo)) a) hi lo = bitsOf a hi lo := by
  intro fs
  induction fs with
  | nil => exact fun a _ _ => ⟨fun f hf => (nomatch hf), fun _ _ _ => rfl⟩
  | cons g fs ih =>
    intro a hle hp
    obtain ⟨hg, hfs⟩ := List.pairwise_cons.1 hp
    have hglo := hle g List.mem_cons_self
    obtain ⟨h1, h2⟩ := ih (setBits a g.hi g.lo (bitsOf w g.hi g.lo)) (fun f hf => hle f (List.mem_cons_of_mem _ hf)) hfs
    rw [List.foldl_cons]
    refine ⟨fun f hf => ?_, fun hi lo hall => ?_⟩
    · rcases List.mem_cons.1 hf with rfl | hf
      · rw [h2 f.hi f.lo fun e he => (hg e he).symm, bitsOf_setBits_same _ _ hglo]
        exact Nat.mod_eq_of_lt (Nat.mod_lt _ (Nat.two_pow_pos _))
      · exact h1 f hf
    · rw [h2 hi lo fun f hf => hall f (List.mem_cons_of_mem _ hf), bitsOf_setBits_other _ _ hglo (hall g List.mem_cons_self)]

theorem Mod.setPolicy_spec (w : Nat) : (∀ f ∈ Reg.SEC_POLICY.fields, bitsOf ((m.setPolicy w).regs.read Reg.SEC_POLICY 0 0) f.hi f.lo = bitsOf w f.hi f.lo)
    ∧ m.regsKeep [Reg.SEC_POLICY.base] (m.setPolicy w) := by
  refine ⟨fun f hf => ?_, fun r i j h => RegFile.read_write_other _ _ _ _ _ _ _ _ fun e => h (List.mem_singleton.2 e)⟩
  have hread : (m.setPolicy w).regs.read Reg.SEC_POLICY 0 0 = Reg.SEC_POLICY.fields.foldl (fun a f => setBits a f.hi f.lo (bitsOf w f.hi f.lo)) 0 :=
    RegFile.read_write_same _ _ _ _ _
  rw [hread]
  exact (setBits_fields Reg.SEC_POLICY.fields 0 (by decide) (by decide)).1 f hf

theorem Mod.showKeys_regsKeep : m.regsKeep ((List.range 4).flatMap fun k => (List.range 8).map (Reg.SEC_PKEY_HASH.addr k)) m.showKeys := by
  unfold Mod.showKeys
  refine Mod.foldl_regsKeep _ (fun x k hk => ?_) m
  refine Mod.foldl_regsKeep _ (fun y w hw => Mod.regsKeep_mono (y.fset_regsKeep Fld.SEC_PKEY_HASH_HASH _ k w) (List.cons_subset.2 ⟨?_, List.nil_subset _⟩)) x
  exact List.mem_flatMap.2 ⟨k, hk, List.mem_map_of_mem hw⟩

/-! ### Objects accepted -/

/-- A nonce drawn. -/
theorem Mod.nonceDraw_spec (path : Path) : ∃ n : Mod, m.nonceDraw path = n.cmdDone path 8 0 ∧ n.fget Fld.SEC_STATUS_NONCE_VALID = 1
    ∧ (∀ i, i < 8 → n.fget Fld.SEC_NONCE_NONCE i = leNat (((padTo 32 (Config.drbg m.sec.drawn)).drop (4 * i)).take 4))
    ∧ n.sec = { m.sec with drawn := m.sec.drawn + 1 } ∧ n.host = m.host ∧ n.evIn = m.evIn := by
  unfold Mod.nonceDraw
  extract_lets d m1 _ _
  have hword : ∀ i, i < 8 → m1.fget Fld.SEC_NONCE_NONCE i = leNat ((d.drop (4 * i)).take 4) := fun i hi => by
    have h := Mod.wordsPut_fget (F := Fld.SEC_NONCE_NONCE) (by decide) (fun i k hik => by
      simp only [Fld.SEC_NONCE_NONCE, Reg.SEC_NONCE, RegSpec.addr]
      omega) (fun i => leNat ((d.drop (4 * i)).take 4)) (List.range 8) m List.nodup_range (List.mem_range.2 hi)
    refine h.trans (Nat.mod_eq_of_lt (Nat.lt_of_lt_of_le (leNat_lt _) ?_))
    exact (Nat.pow_le_pow_right (by decide) (List.length_take_le 4 _)).trans (by decide)
  have hs : Mod.sameBut [.regs] m m1 := Mod.sameBut_foldl _ _ _ (fun x i => x.fset_sameBut _ _ _ _) (Mod.sameBut_refl _ _)
  clear_value m1
  have hsec : ({ m1 with sec := { m1.sec with drawn := m1.sec.drawn + 1 } } : Mod).sec = { m.sec with drawn := m.sec.drawn + 1 } :=
    congrArg (fun u : SecUnit => { u with drawn := u.drawn + 1 }) (hs.sec (by decide))
  have hs2 := m1.sameBut_sec { m1.sec with drawn := m1.sec.drawn + 1 }
  generalize ({ m1 with sec := { m1.sec with drawn := m1.sec.drawn + 1 } } : Mod) = m2 at hsec hs2 ⊢
  have hs3 := m2.fset_sameBut Fld.SEC_STATUS_NONCE_VALID 1 0 0
  refine ⟨_, rfl, m2.fget_fset_bit Fld.SEC_STATUS_NONCE_VALID 0 0 rfl, fun i hi => ?_, (hs3.sec (by decide)).trans hsec, ?_, ?_⟩
  · rw [Mod.fget_fset_otherReg _ _ _ _ _ _ _ _ (by simp only [Fld.SEC_NONCE_NONCE, Fld.SEC_STATUS_NONCE_VALID, Reg.SEC_NONCE, Reg.SEC_STATUS, RegSpec.addr]; omega), hs2.fget (by decide),
      hword i hi]
  · rw [hs3.host (by decide), hs2.host (by decide), hs.host (by decide)]
  · rw [hs3.evIn (by decide), hs2.evIn (by decide), hs.evIn (by decide)]

/-- An object accepted: its digest in M6 and the log, and its event. -/
theorem Mod.measured_spec (kind : Nat) (d : List Byte) (code d0 d1 d2 : Nat) :
    let n := (m.extend 6 kind d).raise .corrected code 0 d0 d1 d2
    n.sec = { m.sec with log := m.sec.log ++ [⟨6, kind, m.tick.count, d⟩] } ∧ n.host = m.host ∧ n.reports .corrected code 0 d0 d1 d2
      ∧ m.regsKeep ((List.range 8).map (Reg.SEC_MEAS.addr 6)) n := by
  intro n
  obtain ⟨hsec, hk⟩ := m.extend_spec 6 kind d
  have hs := m.extend_sameBut 6 kind d
  have hn : n = (m.extend 6 kind d).raise .corrected code 0 d0 d1 d2 := rfl
  clear_value n
  subst hn
  generalize m.extend 6 kind d = k at hsec hk hs ⊢
  have hr := k.raise_sameBut .corrected code 0 d0 d1 d2
  exact ⟨(hr.sec (by decide)).trans hsec, (hr.host (by decide)).trans (hs.host (by decide)), k.raise_reports _ _ _ _ _ _, Mod.regsKeep_to _ hk (hr.regs (by decide))⟩

theorem notMem_measRegs {a : Nat} (h : a < 0x11001C0) : a ∉ (List.range 8).map (Reg.SEC_MEAS.addr 6) := fun hm => Nat.not_lt.2 (measRegs_apart a hm).1 h

/-- A debug token accepted. -/
theorem Mod.dbgUnlock_spec (path : Path) {t : List Byte} (h : m.tokenCheck t = 0) : ∃ n : Mod, m.dbgUnlock path t = n.cmdDone path 9 0 ∧ n.sec.unlock = hdrNat t 4 1
    ∧ n.sec.unlockTimed = decide (hdrNat t 0x30 4 ≠ 0) ∧ n.fget Fld.SEC_STATUS_NONCE_VALID = 0
    ∧ (hdrNat t 4 1 = 2 → n.sec.keys = [] ∧ n.sec.keysDue = [] ∧ n.sec.cleared = true) ∧ n.sec.log = m.sec.log ++ [⟨6, 5, m.tick.count, sha256 t⟩]
    ∧ n.host = m.host ∧ n.reports .corrected 0x0F0A 0 (hdrNat t 4 1) (hdrNat t 0x30 4) (hdrNat t 5 1) := by
  rw [Mod.dbgUnlock, h]
  generalize hscope : hdrNat t 4 1 = scope
  generalize decide (hdrNat t 0x30 4 ≠ 0) = timed
  have h1 : Mod.sameBut [.sec] m (if scope = 2 then m.vendorClear else m.vendorOver) ∧ (if scope = 2 then m.vendorClear else m.vendorOver).sec.log = m.sec.log
      ∧ (scope = 2 → (if scope = 2 then m.vendorClear else m.vendorOver).sec.keys = [] ∧ (if scope = 2 then m.vendorClear else m.vendorOver).sec.keysDue = []
        ∧ (if scope = 2 then m.vendorClear else m.vendorOver).sec.cleared = true) := by
    by_cases hsc : scope = 2
    · rw [if_pos hsc]
      exact ⟨m.sameBut_sec _, rfl, fun _ => ⟨rfl, rfl, rfl⟩⟩
    · rw [if_neg hsc]
      refine ⟨m.vendorOver_sameBut, ?_, fun hn => (hsc hn).elim⟩
      rw [m.vendorOver_sec]
      split <;> rfl
  simp only [ne_eq, not_true_eq_false, if_false]
  generalize (if scope = 2 then m.vendorClear else m.vendorOver) = m1 at h1 ⊢
  obtain ⟨hs1, hlog, hclear⟩ := h1
  have hsec : ({ m1 with sec := { m1.sec with unlock := scope, unlockTimed := timed } } : Mod).sec = { m1.sec with unlock := scope, unlockTimed := timed } := rfl
  have hs2 := m1.sameBut_sec { m1.sec with unlock := scope, unlockTimed := timed }
  generalize ({ m1 with sec := { m1.sec with unlock := scope, unlockTimed := timed } } : Mod) = m2 at hsec hs2 ⊢
  have hs3 := m2.fset_sameBut Fld.SEC_STATUS_NONCE_VALID 0 0 0
  have hnonce : (m2.fset Fld.SEC_STATUS_NONCE_VALID 0).fget Fld.SEC_STATUS_NONCE_VALID = 0 := m2.fget_fset_same Fld.SEC_STATUS_NONCE_VALID 0 0 0 (by decide)
  generalize m2.fset Fld.SEC_STATUS_NONCE_VALID 0 = m3 at hs3 hnonce ⊢
  obtain ⟨hn, hhost, hrep, hk⟩ := m3.measured_spec 5 (sha256 t) 0x0F0A scope (hdrNat t 0x30 4) (hdrNat t 5 1)
  have htick : m3.tick = m.tick := by rw [hs3.tick (by decide), hs2.tick (by decide), hs1.tick (by decide)]
  rw [hs3.sec (by decide), hsec, htick] at hn
  have hhost' : m3.host = m.host := by rw [hs3.host (by decide), hs2.host (by decide), hs1.host (by decide)]
  refine ⟨_, rfl, by rw [hn], by rw [hn], ?_, fun hsc => by rw [hn]; exact hclear hsc, by rw [hn]; exact congrArg (· ++ _) hlog, hhost.trans hhost', hrep⟩
  rw [Mod.regsKeep_fget hk _ _ _ (notMem_measRegs (by decide)), hnonce]

/-- A policy record accepted. -/
theorem Mod.policyRecord_spec (path : Path) {d : List Byte} (hp : m.pathRefused path = false) (ha : m.plateActive = false) (hl : 304 ≤ d.length) (h : m.policyCheck d = 0) :
    ∃ n : Mod, m.policyRecord path d = n.cmdDone path 11 0
      ∧ (∀ f ∈ Reg.SEC_POLICY.fields, bitsOf (n.regs.read Reg.SEC_POLICY 0 0) f.hi f.lo = bitsOf (hdrNat d 0x30 4) f.hi f.lo)
      ∧ n.sec.plateKeys = policyKeys (d.take 304) ∧ n.fget Fld.SEC_STATUS_NONCE_VALID = 0 ∧ n.sec.log = m.sec.log ++ [⟨6, 4, m.tick.count, sha256 (d.take 304)⟩]
      ∧ n.host = m.host ∧ n.reports .corrected 0x0F09 0 (n.regs.read Reg.SEC_POLICY 0 0) (hdrNat d 4 1) 0 := by
  have hne : ¬ (0 : Nat) ≠ 0 := fun h => h rfl
  rw [Mod.policyRecord, if_neg (by rw [hp]; decide), if_neg (by rw [ha]; decide), if_neg (by omega), h]
  dsimp only
  rw [if_neg hne]
  obtain ⟨hbits, hk1⟩ := m.setPolicy_spec (hdrNat d 0x30 4)
  have hs1 := m.setPolicy_sameBut (hdrNat d 0x30 4)
  generalize m.setPolicy (hdrNat d 0x30 4) = k at hbits hk1 hs1 ⊢
  have hs2 := k.fset_sameBut Fld.SEC_STATUS_NONCE_VALID 0 0 0
  have hk2 : k.regsKeep [Reg.SEC_STATUS.base] (k.fset Fld.SEC_STATUS_NONCE_VALID 0) := k.fset_regsKeep Fld.SEC_STATUS_NONCE_VALID 0 0 0
  have hnonce : (k.fset Fld.SEC_STATUS_NONCE_VALID 0).fget Fld.SEC_STATUS_NONCE_VALID = 0 := k.fget_fset_same Fld.SEC_STATUS_NONCE_VALID 0 0 0 (by decide)
  generalize k.fset Fld.SEC_STATUS_NONCE_VALID 0 = m1 at hs2 hk2 hnonce ⊢
  have hsec : ({ m1 with sec := { m1.sec with plateKeys := policyKeys (d.take 304), policyRec := d.take 304 } } : Mod).sec
    = { m1.sec with plateKeys := policyKeys (d.take 304), policyRec := d.take 304 } := rfl
  have hs3 := m1.sameBut_sec { m1.sec with plateKeys := policyKeys (d.take 304), policyRec := d.take 304 }
  generalize ({ m1 with sec := { m1.sec with plateKeys := policyKeys (d.take 304), policyRec := d.take 304 } } : Mod) = m2 at hsec hs3 ⊢
  have hs4 := m2.showKeys_sameBut
  have hk4 := m2.showKeys_regsKeep
  generalize m2.showKeys = m3 at hs4 hk4 ⊢
  obtain ⟨hn, hhost, hrep, hk⟩ := m3.measured_spec 4 (sha256 (d.take 304)) 0x0F09 (m3.regs.read Reg.SEC_POLICY 0 0) (hdrNat d 4 1) 0
  have htick : m3.tick = m.tick := by rw [hs4.tick (by decide), hs3.tick (by decide), hs2.tick (by decide), hs1.tick (by decide)]
  have hlog : m1.sec.log = m.sec.log := by rw [hs2.sec (by decide), hs1.sec (by decide)]
  rw [hs4.sec (by decide), hsec, htick] at hn
  have hread : ∀ n : Mod, m3.regsKeep ((List.range 8).map (Reg.SEC_MEAS.addr 6)) n → n.regs.read Reg.SEC_POLICY 0 0 = m3.regs.read Reg.SEC_POLICY 0 0 :=
    fun n hn => hn Reg.SEC_POLICY 0 0 (by decide)
  refine ⟨_, rfl, fun f hf => ?_, by rw [hn], ?_, by rw [hn]; exact congrArg (· ++ _) hlog, ?_, ?_⟩
  · rw [hread _ hk, hk4 Reg.SEC_POLICY 0 0 (by decide), hs3.regs (by decide), hk2 Reg.SEC_POLICY 0 0 (by decide)]
    exact hbits f hf
  · rw [Mod.regsKeep_fget hk _ _ _ (by decide), Mod.regsKeep_fget hk4 _ _ _ (by decide), hs3.fget (by decide), hnonce]
  · rw [hhost, hs4.host (by decide), hs3.host (by decide), hs2.host (by decide), hs1.host (by decide)]
  · rw [hread _ hk]
    exact hrep

end

/-! ### The statement -/

section
variable {s : State} {path : Path}

theorem execDbgUnlock_refused (h : s.m.pathUp path Reg.SEC_CMD.base = true) {data : List Byte} (hw : s.m.tokenCheck (s.m.object path data) ≠ 0) :
    ∃ t, exec (.dbgUnlock path data) s = .next t ∧ s.ended t path 9 10 ∧ t.m.sec = s.m.sec ∧ t.m.fget Fld.SEC_ERR_TOKEN_BAD = 1
      ∧ t.m.reports .corrected 0x0F0B 0 0 (s.m.tokenCheck (s.m.object path data)) 0 := by
  have hbad := s.m.tokenBad_sameBut 0 (s.m.tokenCheck (s.m.object path data))
  obtain ⟨hbit, hrep⟩ := s.m.tokenBad_spec 0 (s.m.tokenCheck (s.m.object path data))
  have hcmd : s.m.dbgUnlock path (s.m.object path data) = (s.m.tokenBad 0 (s.m.tokenCheck (s.m.object path data))).cmdDone path 9 10 := if_pos hw
  generalize s.m.tokenBad 0 (s.m.tokenCheck (s.m.object path data)) = n at hbad hbit hrep hcmd
  obtain ⟨t, he, hend, hs, hk, -, -⟩ := via_ended (c := .dbgUnlock path data) rfl h hcmd (congrArg (·.out) (hbad.host (by decide))) (by decide) (by decide)
  exact ⟨t, he, hend, (hs.sec (by decide)).trans (hbad.sec (by decide)), (Mod.regsKeep_fget hk _ _ _ (by decide)).trans hbit,
    Mod.reports_of_eq (hs.evIn (by decide)) (hs.tick (by decide)) hrep⟩

/-- A policy record refused: nothing of the security engine changes. -/
theorem execSetPolicy_stays (h : s.m.pathUp path Reg.SEC_CMD.base = true) {data : List Byte} {n : Mod} {result : Nat}
    (hcmd : s.m.policyRecord path (s.m.object path data) = n.cmdDone path 11 result) (hn : Mod.sameBut [.regs, .evIn] s.m n) (hr : result < 256) :
    ∃ t, exec (.setPolicy path data) s = .next t ∧ s.ended t path 11 result ∧ t.m.sec = s.m.sec := by
  obtain ⟨t, he, hend, hs, -, -, -⟩ := via_ended (c := .setPolicy path data) rfl h hcmd (congrArg (·.out) (hn.host (by decide))) (by decide) hr
  exact ⟨t, he, hend, (hs.sec (by decide)).trans (hn.sec (by decide))⟩

end

/-- Settles O56: every command ends with the result its clause names, after the change of the security engine that goes with it (R406 to R410). -/
theorem unlockAndPolicy : Obligations.UnlockAndPolicy := by
  unfold Obligations.UnlockAndPolicy
  refine ⟨fun s path h => ?_, fun s h => ?_, fun s path data h => ?_, fun s hu => ?_, fun s path data h => ?_⟩
  · obtain ⟨n, hcmd, hv, hw, hsec, hhost, hev⟩ := s.m.nonceDraw_spec path
    obtain ⟨t, he, hend, hs, hk, -, -⟩ := via_ended (c := .nonce path) rfl h hcmd (congrArg (·.out) hhost) (by decide) (by decide)
    refine ⟨t, he, hend, (Mod.regsKeep_fget hk _ _ _ (by decide)).trans hv, fun i hi => ?_, (hs.sec (by decide)).trans hsec, (hs.evIn (by decide)).trans hev⟩
    rw [Mod.regsKeep_fget hk _ _ _ (by simp only [Fld.SEC_NONCE_NONCE, Reg.SEC_NONCE, Reg.SEC_CMD_STATUS, RegSpec.addr, List.mem_singleton]; omega)]
    exact hw i hi
  · have hs := s.m.fset_sameBut Fld.SEC_STATUS_NONCE_VALID 0 0 0
    have hk : s.m.regsKeep [Reg.SEC_STATUS.base] (s.m.fset Fld.SEC_STATUS_NONCE_VALID 0) := s.m.fset_regsKeep Fld.SEC_STATUS_NONCE_VALID 0 0 0
    have hv : (s.m.fset Fld.SEC_STATUS_NONCE_VALID 0).fget Fld.SEC_STATUS_NONCE_VALID = 0 := s.m.fget_fset_same Fld.SEC_STATUS_NONCE_VALID 0 0 0 (by decide)
    exact ⟨_, exec_on rfl (if_pos h), hv, ⟨rfl, rfl, hs⟩, hk⟩
  · intro tok scope signer sound
    have hiff : 64 ≤ tok.length ∧ sound ∧ (scope = 1 ∧ s.m.fget Fld.SEC_POLICY_OWNER_DEBUG = 1 ∧ signer ≤ 3 ∨ scope = 2 ∧ signer = 0xFF) ↔ s.m.tokenCheck tok = 0 :=
      s.m.tokenCheck_eq_zero tok
    refine ⟨fun hlen hsound hscope => ?_, fun why hwhy hne => ?_, hiff⟩
    · obtain ⟨n, hcmd, hun, htimed, hnonce, hclear, hlog, hhost, hrep⟩ := s.m.dbgUnlock_spec path (hiff.1 ⟨hlen, hsound, hscope⟩)
      obtain ⟨t, he, hend, hs, hk, -, -⟩ := via_ended (c := .dbgUnlock path data) rfl h hcmd (congrArg (·.out) hhost) (by decide) (by decide)
      have hsec := hs.sec (by decide)
      refine ⟨t, he, hend, by rw [hsec]; exact hun, by rw [hsec]; exact htimed, (Mod.regsKeep_fget hk _ _ _ (by decide)).trans hnonce, fun h2 => by rw [hsec]; exact hclear h2,
        by rw [hsec]; exact hlog, Mod.reports_of_eq (hs.evIn (by decide)) (hs.tick (by decide)) hrep⟩
    · subst hwhy
      exact execDbgUnlock_refused h hne
  · intro closed
    obtain ⟨hun, hhost⟩ := s.m.unlockEnd_spec hu
    refine ⟨fun path h => ?_, fun hup ht => ⟨_, exec_on rfl ((if_pos hup).trans (if_pos ht)), hun.unlock, hun.cores, hun.dev, hun.trace, hun.off, hun.kem⟩, fun ht => ?_⟩
    · obtain ⟨t, he, hend, hs, hk, -, -⟩ := via_ended (c := .dbgRelock path) (n := s.m.unlockEnd) rfl h rfl (congrArg (·.out) hhost) (by decide) (by decide)
      refine ⟨t, he, hend, ?_, fun c => ?_, ?_, ?_, fun i hi => ?_, ?_⟩
      · rw [hs.sec (by decide), hun.unlock]
      · rw [hs.core (by decide)]
        exact hun.cores c
      · rw [hs.dbg (by decide), hun.dev]
      · rw [hs.dbg (by decide)]
        exact hun.trace
      · rw [Mod.regsKeep_fget hk _ _ _ (by simp only [Fld.DBG_BP_CFG_EN, Reg.DBG_BP_CFG, Reg.SEC_CMD_STATUS, RegSpec.addr, List.mem_singleton]; omega),
          Mod.regsKeep_fget hk _ _ _ (by simp only [Fld.DBG_WATCH_CFG_EN, Reg.DBG_WATCH_CFG, Reg.SEC_CMD_STATUS, RegSpec.addr, List.mem_singleton]; omega)]
        exact hun.off i hi
      · rw [hs.sec (by decide), hun.kem]
    · have hsame : (if s.m.sec.unlockTimed = true then s.m.unlockEnd else s.m) = s.m := if_neg (by rw [ht]; decide)
      exact exec_on (n := s.m) rfl ((congrArg (fun x => if s.m.mgUp = true then x else s.m) hsame).trans (ite_self _))
  · intro d stays
    refine ⟨fun hp ha hl hc => ?_, fun hp => ?_, fun hp ha => ?_, fun hp ha hl => ?_, fun hp ha hl hc => ?_⟩
    · obtain ⟨n, hcmd, hbits, hkeys, hnonce, hlog, hhost, hrep⟩ := s.m.policyRecord_spec path hp ha hl hc
      obtain ⟨t, he, hend, hs, hk, -, -⟩ := via_ended (c := .setPolicy path data) rfl h hcmd (congrArg (·.out) hhost) (by decide) (by decide)
      have hread := hk Reg.SEC_POLICY 0 0 (by decide)
      refine ⟨t, he, hend, fun f hf => by rw [hread]; exact hbits f hf, by rw [hs.sec (by decide), hkeys], (Mod.regsKeep_fget hk _ _ _ (by decide)).trans hnonce,
        by rw [hs.sec (by decide), hlog], ?_⟩
      rw [hread]
      exact Mod.reports_of_eq (hs.evIn (by decide)) (hs.tick (by decide)) hrep
    · exact execSetPolicy_stays h (if_pos hp) (Mod.sameBut_mono (s.m.mgmtRefused_sameBut path 11) (by decide)) (by decide)
    · exact execSetPolicy_stays h ((if_neg (by rw [hp]; decide)).trans (if_pos ha)) (Mod.sameBut_refl _ _) (by decide)
    · exact execSetPolicy_stays h ((if_neg (by rw [hp]; decide)).trans ((if_neg (by rw [ha]; decide)).trans (if_pos hl))) (Mod.sameBut_refl _ _) (by decide)
    · exact execSetPolicy_stays h ((if_neg (by rw [hp]; decide)).trans ((if_neg (by rw [ha]; decide)).trans ((if_neg (Nat.not_lt.2 hl)).trans (if_pos hc))))
        (s.m.tokenBad_sameBut 1 _) (by decide)

end Sys2Proof.Machine
end

section
/-! PROOF. The commands of an update session (16_security_and_update.md R411 to R419). -/

namespace Sys2Proof.Machine

/-! ### Commands of the session -/

section
variable (m : Mod) {path : Path} {code : Nat} {f : FwuSession → Mod}

theorem Mod.inSession_none (h : m.sec.session = none) : m.inSession path code f = m.fwuFail path code 5 := by
  rw [Mod.inSession, h]

theorem Mod.inSession_some {x : FwuSession} (h : m.sec.session = some x) : m.inSession path code f = if x.path = path then f x else m.fwuFail path code 1 := by
  rw [Mod.inSession, h]

theorem Mod.fwuFailed_spec (cmd result comp : Nat) : (m.fwuFailed cmd result comp).fget Fld.SEC_ERR_FWU_FAILED = 1
    ∧ (m.fwuFailed cmd result comp).reports .corrected 0x0F01 0 cmd result comp ∧ m.regsKeep [Reg.SEC_ERR.base] (m.fwuFailed cmd result comp) := by
  unfold Mod.fwuFailed
  have h := m.fget_fset_bit Fld.SEC_ERR_FWU_FAILED 0 0 rfl
  have hk : m.regsKeep [Reg.SEC_ERR.base] (m.fset Fld.SEC_ERR_FWU_FAILED 1) := m.fset_regsKeep Fld.SEC_ERR_FWU_FAILED 1 0 0
  generalize m.fset Fld.SEC_ERR_FWU_FAILED 1 = k at h hk ⊢
  have hr := k.raise_sameBut .corrected 0x0F01 0 cmd result comp
  exact ⟨(hr.fget (by decide) _ _ _).trans h, k.raise_reports _ _ _ _ _ _, Mod.regsKeep_to _ hk (hr.regs (by decide))⟩

theorem Mod.fwuFailed_recordsKept (cmd result comp : Nat) : Mod.recordsKept m (m.fwuFailed cmd result comp) := by
  rw [Mod.fwuFailed]
  exact (Mod.recordsKept.of (m.fset_sameBut Fld.SEC_ERR_FWU_FAILED 1 0 0) rfl).trans (Mod.raise_recordsKept _ _ _ _ _ _ _)

theorem SecUnit.mark_setMark (u : SecUnit) (i : Nat) (k : SlotMark) : (u.setMark i k).mark i = k := by
  unfold SecUnit.setMark SecUnit.mark
  split <;> rfl

/-- What the loss of a session leaves. -/
structure Mod.sessionEnded (m n : Mod) : Prop where
  session : n.sec.session = none
  failed : n.fget Fld.SEC_ERR_FWU_FAILED = 1
  mark : m.variant = false → n.sec.mark m.targetSlot = .invalid
  rest : Mod.sameBut [.regs, .evIn, .sec] m n
  regs : m.regsKeep [Reg.SEC_ERR.base] n
  records : Mod.recordsKept m n

theorem Mod.sessionLost_spec {x : FwuSession} (h : m.sec.session = some x) (cmd result : Nat) : Mod.sessionEnded m (m.sessionLost cmd result) := by
  have hrest := m.sessionLost_sameBut cmd result
  rw [Mod.sessionLost, h] at hrest ⊢
  dsimp only at hrest ⊢
  have h1 : Mod.sameBut [.sec] m (if m.variant then m else m.setMark m.targetSlot .invalid)
      ∧ (m.variant = false → (if m.variant then m else m.setMark m.targetSlot .invalid).sec.mark m.targetSlot = .invalid) := by
    cases hv : m.variant
    · exact ⟨m.sameBut_sec _, fun _ => m.sec.mark_setMark _ _⟩
    · exact ⟨Mod.sameBut_refl _ _, fun hn => Bool.noConfusion hn⟩
  generalize (if m.variant then m else m.setMark m.targetSlot .invalid) = m1 at h1 hrest ⊢
  obtain ⟨hs1, hmark⟩ := h1
  have hs2 := m1.sameBut_sec { m1.sec with session := none }
  have hsec : ({ m1 with sec := { m1.sec with session := none } } : Mod).sec = { m1.sec with session := none } := rfl
  generalize ({ m1 with sec := { m1.sec with session := none } } : Mod) = m2 at hs2 hsec hrest ⊢
  obtain ⟨hbit, hrep, hk⟩ := m2.fwuFailed_spec cmd result x.comp
  have hs3 := m2.fwuFailed_sameBut cmd result x.comp
  have hrec := m2.fwuFailed_recordsKept cmd result x.comp
  have hregs : m2.regs = m.regs := (hs2.regs (by decide)).trans (hs1.regs (by decide))
  refine ⟨?_, hbit, fun hv => ?_, hrest, Mod.regsKeep_trans (Mod.regsKeep_of_regs_eq hregs _) hk,
    ((Mod.recordsKept.of hs1 rfl).trans (Mod.recordsKept.of hs2 rfl)).trans hrec⟩
  · rw [hs3.sec (by decide), hsec]
  · rw [hs3.sec (by decide), hsec]
    exact hmark hv

end

section
variable {s : State} {path : Path}

/-- A command that fails. -/
theorem fwu_fails {c : Instr} {f : Mod → Mod} (e : exec c s = .next (s.via path Reg.SEC_CMD.base f)) (h : s.m.pathUp path Reg.SEC_CMD.base = true) {code result : Nat}
    (hf : f s.m = s.m.fwuFail path code result) (hc : code < 256) (hr : result < 256) :
    ∃ t, exec c s = .next t ∧ s.ended t path code result ∧ t.m.sec = s.m.sec
      ∧ t.m.reports .corrected 0x0F01 0 code result ((s.m.sec.session.map (·.comp)).getD 0) := by
  have hs1 := s.m.fwuFailed_sameBut code result ((s.m.sec.session.map (·.comp)).getD 0)
  obtain ⟨-, hrep, -⟩ := s.m.fwuFailed_spec code result ((s.m.sec.session.map (·.comp)).getD 0)
  rw [Mod.fwuFail] at hf
  generalize s.m.fwuFailed code result ((s.m.sec.session.map (·.comp)).getD 0) = n at hs1 hrep hf
  obtain ⟨t, he, hend, hs, -, -, -⟩ := via_ended e h hf (congrArg (·.out) (hs1.host (by decide))) hc hr
  exact ⟨t, he, hend, (hs.sec (by decide)).trans (hs1.sec (by decide)), Mod.reports_of_eq (hs.evIn (by decide)) (hs.tick (by decide)) hrep⟩

/-- A command that moves the session on. -/
theorem fwu_moves {c : Instr} {f : Mod → Mod} (e : exec c s = .next (s.via path Reg.SEC_CMD.base f)) (h : s.m.pathUp path Reg.SEC_CMD.base = true) {code : Nat} {y : FwuSession}
    (hf : f s.m = (s.m.setSession y).cmdDone path code 0) (hc : code < 256) :
    ∃ t, exec c s = .next t ∧ s.ended t path code 0 ∧ t.m.sec = { s.m.sec with session := some y } ∧ t.m.evIn = s.m.evIn := by
  obtain ⟨t, he, hend, hs, -, -, -⟩ := via_ended e h hf rfl hc (by decide)
  exact ⟨t, he, hend, hs.sec (by decide), hs.evIn (by decide)⟩

theorem fwu_endsLost {c : Instr} {f : Mod → Mod} (e : exec c s = .next (s.via path Reg.SEC_CMD.base f)) (h : s.m.pathUp path Reg.SEC_CMD.base = true) {x : FwuSession}
    (hx : s.m.sec.session = some x) {cmd code result : Nat} {r : Nat} (hf : f s.m = (s.m.sessionLost cmd r).cmdDone path code result) (hc : code < 256) (hr : result < 256) :
    ∃ t, exec c s = .next t ∧ s.ended t path code result ∧ t.m.sec.session = none ∧ t.m.fget Fld.SEC_ERR_FWU_FAILED = 1
      ∧ (s.m.variant = false → t.m.sec.mark s.m.targetSlot = .invalid) := by
  obtain ⟨hses, hbit, hmark, hrest, -, -⟩ := s.m.sessionLost_spec hx cmd r
  obtain ⟨t, he, hend, hs, hk, -, -⟩ := via_ended e h hf (congrArg (·.out) (hrest.host (by decide))) hc hr
  exact ⟨t, he, hend, by rw [hs.sec (by decide), hses], (Mod.regsKeep_fget hk _ _ _ (by decide)).trans hbit, fun hv => by rw [hs.sec (by decide)]; exact hmark hv⟩

end

/-! ### Results are bytes -/

section
variable (m : Mod)

theorem Mod.hdrCheck_lt (h : List Byte) : m.hdrCheck h < 256 := by
  unfold Mod.hdrCheck
  split_ifs <;> decide

theorem Mod.blockCheck_lt (x : FwuSession) (r : List Byte) : m.blockCheck x r < 256 := by
  unfold Mod.blockCheck
  extract_lets len
  split_ifs <;> decide

theorem Mod.imageResult_lt {h raw : List Byte} {e : Nat} (he : m.imageResult h raw = .error e) : e < 256 := by
  unfold Mod.imageResult at he
  extract_lets base out at he
  have hout : ∀ e, out = .error e → e < 256 := fun e he => by
    simp only [out] at he
    split at he
    · split at he
      · cases he
        decide
      · split at he
        · split at he <;> cases he
          decide
        · cases he
          decide
    · cases he
  clear_value out
  cases out with
  | error e' =>
    cases he
    exact hout _ rfl
  | ok p =>
    dsimp only at he
    split_ifs at he <;> cases he <;> decide

theorem Mod.endCheck_lt (x : FwuSession) (c : List Byte × List Byte × List Byte) : (m.endCheck x c).1 < 256 := by
  unfold Mod.endCheck
  extract_lets h late
  have hlate : late < 256 := by
    simp only [late]
    split_ifs
    · exact m.hdrCheck_lt h
    all_goals decide
  by_cases hl : late ≠ 0
  · rw [if_pos hl]
    exact hlate
  · rw [if_neg hl]
    split
    · exact m.imageResult_lt (by assumption)
    · exact (by decide : (0 : Nat) < 256)

theorem Mod.endBad_lt (x : FwuSession) : m.endBad x < 256 := by
  unfold Mod.endBad
  cases h : (x.checks.map (fun c => m.endCheck x c)).find? (fun r => r.1 != 0) with
  | none => exact (by decide : (0 : Nat) < 256)
  | some r =>
    obtain ⟨c, -, rfl⟩ := List.mem_map.1 (List.mem_of_find?_eq_some h)
    exact m.endCheck_lt x c

end

end Sys2Proof.Machine
end

section
/-! PROOF. The statement of update sessions and confirmation (16_security_and_update.md R411 to R421, 17_power_reset.md R444). -/

namespace Sys2Proof.Machine

section
variable {s : State} {path : Path}

/-! ### FWU_BEGIN and commands out of session -/

theorem execFwuBegin_spec (h : s.m.pathUp path Reg.SEC_CMD.base = true) :
    (s.m.pathRefused path = false → s.m.sec.session = none →
      ∃ t, exec (.fwuBegin path) s = .next t ∧ s.ended t path 1 0 ∧ t.m.sec.session = some ⟨path, .opened, 0, [], [], [], [], 0, [], []⟩
        ∧ (s.m.variant = false → t.m.sec.mark (1 - s.m.fget Fld.SEC_STATUS_SLOT) = .invalid) ∧ t.m.evIn = s.m.evIn) ∧
    (s.m.pathRefused path = true → ∃ t, exec (.fwuBegin path) s = .next t ∧ s.ended t path 1 1 ∧ t.m.sec = s.m.sec
      ∧ t.m.reports .corrected 0x0D05 0 (pathCode path) 1 0) ∧
    (s.m.pathRefused path = false → s.m.sec.session ≠ none → ∃ t, exec (.fwuBegin path) s = .next t ∧ s.ended t path 1 1 ∧ t.m.sec = s.m.sec) := by
  refine ⟨fun hp hx => ?_, fun hp => ?_, fun hp hx => ?_⟩
  · have hcmd : s.m.fwuBegin path = (Mod.setSession (if s.m.variant then s.m else s.m.setMark s.m.targetSlot .invalid) ⟨path, .opened, 0, [], [], [], [], 0, [], []⟩).cmdDone path 1 0 :=
      (if_neg (by rw [hp]; decide)).trans (if_neg (by rw [hx]; decide))
    have h1 : Mod.sameBut [.sec] s.m (if s.m.variant then s.m else s.m.setMark s.m.targetSlot .invalid)
        ∧ (s.m.variant = false → (if s.m.variant then s.m else s.m.setMark s.m.targetSlot .invalid).sec.mark (1 - s.m.fget Fld.SEC_STATUS_SLOT) = .invalid) := by
      cases hv : s.m.variant
      · have ht : s.m.targetSlot = 1 - s.m.fget Fld.SEC_STATUS_SLOT := if_neg (by rw [hv]; decide)
        refine ⟨s.m.setMark_sameBut _ _, fun _ => ?_⟩
        rw [← ht]
        exact s.m.sec.mark_setMark _ _
      · exact ⟨Mod.sameBut_refl _ _, fun hn => Bool.noConfusion hn⟩
    generalize (if s.m.variant then s.m else s.m.setMark s.m.targetSlot .invalid) = m1 at h1 hcmd
    obtain ⟨hs1, hmark⟩ := h1
    obtain ⟨t, he, hend, hs, -, -, -⟩ := via_ended (c := .fwuBegin path) rfl h hcmd (congrArg (·.out) (hs1.host (by decide))) (by decide) (by decide)
    have hsec : t.m.sec = { m1.sec with session := some ⟨path, .opened, 0, [], [], [], [], 0, [], []⟩ } := hs.sec (by decide)
    exact ⟨t, he, hend, by rw [hsec], fun hv => by rw [hsec]; exact hmark hv, (hs.evIn (by decide)).trans (hs1.evIn (by decide))⟩
  · have hs1 := s.m.mgmtRefused_sameBut path 1
    have hrep : (s.m.mgmtRefused path 1).reports .corrected 0x0D05 0 (pathCode path) 1 0 := s.m.raise_reports _ _ _ _ _ _
    have hcmd : s.m.fwuBegin path = (s.m.mgmtRefused path 1).fwuFail path 1 1 := if_pos hp
    rw [Mod.fwuFail] at hcmd
    generalize s.m.mgmtRefused path 1 = k at hs1 hrep hcmd
    have hs2 := k.fwuFailed_sameBut 1 1 ((k.sec.session.map (·.comp)).getD 0)
    have hrec := k.fwuFailed_recordsKept 1 1 ((k.sec.session.map (·.comp)).getD 0)
    generalize k.fwuFailed 1 1 ((k.sec.session.map (·.comp)).getD 0) = n at hs2 hrec hcmd
    obtain ⟨t, he, hend, hs, -, -, -⟩ := via_ended (c := .fwuBegin path) rfl h hcmd (congrArg (·.out) ((hs2.host (by decide)).trans (hs1.host (by decide)))) (by decide) (by decide)
    exact ⟨t, he, hend, by rw [hs.sec (by decide), hs2.sec (by decide), hs1.sec (by decide)], Mod.reports_of_eq (hs.evIn (by decide)) (hs.tick (by decide)) (hrec.reports hrep)⟩
  · have hcmd : s.m.fwuBegin path = s.m.fwuFail path 1 1 := (if_neg (by rw [hp]; decide)).trans (if_pos (Option.isSome_iff_ne_none.2 hx))
    obtain ⟨t, he, hend, hsec, -⟩ := fwu_fails (c := .fwuBegin path) rfl h hcmd (by decide) (by decide)
    exact ⟨t, he, hend, hsec⟩

/-- A session command that comes without a session, or on another path than it. -/
theorem fwu_outside {c : Instr} {f : Mod → Mod} {g : FwuSession → Mod} {code : Nat} (e : exec c s = .next (s.via path Reg.SEC_CMD.base f))
    (h : s.m.pathUp path Reg.SEC_CMD.base = true) (hf : f s.m = s.m.inSession path code g) (hc : code < 256) :
    (s.m.sec.session = none → ∃ t, exec c s = .next t ∧ s.ended t path code 5 ∧ t.m.sec = s.m.sec ∧ t.m.reports .corrected 0x0F01 0 code 5 0) ∧
    (∀ x, s.m.sec.session = some x → x.path ≠ path → ∃ t, exec c s = .next t ∧ s.ended t path code 1 ∧ t.m.sec = s.m.sec
      ∧ t.m.reports .corrected 0x0F01 0 code 1 x.comp) := by
  refine ⟨fun hx => ?_, fun x hx hp => ?_⟩
  · obtain ⟨t, he, hend, hsec, hrep⟩ := fwu_fails e h (hf.trans (s.m.inSession_none hx)) hc (by decide)
    rw [hx] at hrep
    exact ⟨t, he, hend, hsec, hrep⟩
  · obtain ⟨t, he, hend, hsec, hrep⟩ := fwu_fails e h (hf.trans ((s.m.inSession_some hx).trans (if_neg hp))) hc (by decide)
    rw [hx] at hrep
    exact ⟨t, he, hend, hsec, hrep⟩

/-- A session command of the session's path that fails. -/
theorem fwu_failsOwn {c : Instr} {f : Mod → Mod} {g : FwuSession → Mod} {code result : Nat} (e : exec c s = .next (s.via path Reg.SEC_CMD.base f))
    (h : s.m.pathUp path Reg.SEC_CMD.base = true) (hf : f s.m = s.m.inSession path code g) {x : FwuSession} (hx : s.m.sec.session = some x) (hp : x.path = path)
    (hg : g x = s.m.fwuFail path code result) (hc : code < 256) (hr : result < 256) :
    ∃ t, exec c s = .next t ∧ s.ended t path code result ∧ t.m.sec = s.m.sec ∧ t.m.reports .corrected 0x0F01 0 code result x.comp := by
  obtain ⟨t, he, hend, hsec, hrep⟩ := fwu_fails e h (hf.trans ((s.m.inSession_some hx).trans ((if_pos hp).trans hg))) hc hr
  rw [hx] at hrep
  exact ⟨t, he, hend, hsec, hrep⟩

end

section
variable {m : Mod} {path : Path} {h : List Byte} {x : FwuSession}

/-! ### The branches of FWU_HEADER, FWU_LIST and FWU_BLOCK -/

/-- FWU_HEADER in its session. -/
def Mod.headerIn (m : Mod) (path : Path) (h : List Byte) (x : FwuSession) : Mod :=
  if !(x.stage == .opened || x.imageIn) then m.fwuFail path 2 5
  else if hdrBad h || (m.sec.recovery && hdrDelta h) then m.fwuFail path 2 8
  else if x.stage == .blocks && decide (hdrNat h 6 1 ≤ x.comp) then m.fwuFail path 2 5
  else if (if m.fget Fld.SEC_POLICY_BLOCKWISE = 1 then 0 else m.hdrCheck h) ≠ 0 then m.fwuFail path 2 (if m.fget Fld.SEC_POLICY_BLOCKWISE = 1 then 0 else m.hdrCheck h)
  else (m.setSession { x with stage := .header, comp := hdrNat h 6 1, header := h, list := [], hashes := [], plain := [], blocks := 0 }).cmdDone path 2 0

theorem Mod.fwuHeader_eq : m.fwuHeader path h = m.inSession path 2 (m.headerIn path h) := rfl

theorem Mod.headerIn_order (h1 : x.stage ≠ .opened) (h2 : x.imageIn = false) : m.headerIn path h x = m.fwuFail path 2 5 :=
  if_pos (by rw [h2, Bool.or_false, beq_eq_false_iff_ne.2 h1]; rfl)

theorem headerStage_due (h1 : x.stage = .opened ∨ x.imageIn = true) : ¬(!(x.stage == .opened || x.imageIn)) = true := by
  rcases h1 with h1 | h1 <;> simp [h1]

theorem Mod.headerIn_format (h1 : x.stage = .opened ∨ x.imageIn = true) (h2 : hdrBad h = true) : m.headerIn path h x = m.fwuFail path 2 8 :=
  (if_neg (headerStage_due h1)).trans (if_pos (by rw [h2]; rfl))

theorem Mod.headerIn_unsigned (h1 : x.stage = .opened) (h2 : hdrBad h = false) (h3 : m.sec.recovery = false) (h4 : m.fget Fld.SEC_POLICY_BLOCKWISE ≠ 1) (h5 : m.hdrCheck h ≠ 0) :
    m.headerIn path h x = m.fwuFail path 2 (m.hdrCheck h) := by
  rw [Mod.headerIn, if_neg (headerStage_due (.inl h1)), if_neg (by rw [h2, h3]; exact fun h => (nomatch h)), if_neg (by rw [h1]; exact fun h => (nomatch h)), if_neg h4, if_pos h5]

theorem Mod.headerIn_moves (h1 : x.stage = .opened ∨ x.imageIn = true ∧ x.comp < hdrNat h 6 1) (h2 : hdrBad h = false) (h3 : m.sec.recovery = false ∨ hdrDelta h = false)
    (h4 : m.fget Fld.SEC_POLICY_BLOCKWISE = 1 ∨ m.hdrCheck h = 0) : m.headerIn path h x
      = (m.setSession { x with stage := .header, comp := hdrNat h 6 1, header := h, list := [], hashes := [], plain := [], blocks := 0 }).cmdDone path 2 0 := by
  have hdelta : ¬(hdrBad h || (m.sec.recovery && hdrDelta h)) = true := by rcases h3 with h3 | h3 <;> simp [h2, h3]
  have hcomp : ¬(x.stage == .blocks && decide (hdrNat h 6 1 ≤ x.comp)) = true := by
    rcases h1 with h1 | ⟨-, h1⟩
    · rw [h1]
      exact fun h => (nomatch h)
    · rw [decide_eq_false (Nat.not_le.2 h1), Bool.and_false]
      decide
  have hsum : ¬(if m.fget Fld.SEC_POLICY_BLOCKWISE = 1 then 0 else m.hdrCheck h) ≠ 0 := by
    rcases h4 with h4 | h4
    · rw [if_pos h4]
      exact fun h => h rfl
    · rw [h4, ite_self]
      exact fun h => h rfl
  rw [Mod.headerIn, if_neg (headerStage_due (h1.imp_right And.left)), if_neg hdelta, if_neg hcomp, if_neg hsum]

/-- FWU_LIST in its session. -/
def Mod.listIn (m : Mod) (path : Path) (h : List Byte) (x : FwuSession) : Mod :=
  if x.stage ≠ .header then m.fwuFail path 3 5
  else if h.length ≠ 32 * hdrBlocks x.header then m.fwuFail path 3 8
  else if m.fget Fld.SEC_POLICY_BLOCKWISE = 0 ∧ sha256 h ≠ hdrListHash x.header then m.fwuFail path 3 6
  else (m.setSession { x with stage := .blocks, list := h }).cmdDone path 3 0

theorem Mod.fwuList_eq : m.fwuList path h = m.inSession path 3 (m.listIn path h) := rfl

/-- The session after a block taken. -/
def FwuSession.withBlock (x : FwuSession) (record p : List Byte) : FwuSession :=
  let y := { x with blocks := x.blocks + 1, hashes := x.hashes ++ sha256 record, plain := padTo (65536 * x.blocks) x.plain ++ p }
  if y.imageIn then { y with images := kvSet y.images y.comp (imageOf y.header y.plain), checks := y.checks ++ [(y.header, y.list, y.hashes)] } else y

/-- The end of FWU_BLOCK, its plaintext opened or not. -/
def Mod.blockOpened (m : Mod) (path : Path) (record : List Byte) (x : FwuSession) : Option (List Byte) → Mod
  | none => m.fwuFail path 4 6
  | some p => (m.setSession (x.withBlock record p)).cmdDone path 4 0

/-- FWU_BLOCK in its session. -/
def Mod.blockIn (m : Mod) (path : Path) (record : List Byte) (x : FwuSession) : Mod :=
  if x.stage ≠ .blocks ∨ x.blocks = hdrBlocks x.header then m.fwuFail path 4 5
  else if m.blockCheck x record ≠ 0 then m.fwuFail path 4 (m.blockCheck x record)
  else m.blockOpened path record x (blockPlain x.header record x.blocks)

theorem Mod.fwuBlock_eq : m.fwuBlock path h = m.inSession path 4 (m.blockIn path h) := by
  unfold Mod.fwuBlock
  refine congrArg (m.inSession path 4) (funext fun x => ?_)
  unfold Mod.blockIn
  dsimp only
  split
  · rfl
  · split
    · rfl
    · cases blockPlain x.header h x.blocks <;> rfl

theorem FwuSession.withBlock_spec (record p : List Byte) (hst : x.stage = .blocks) : (x.withBlock record p).blocks = x.blocks + 1
    ∧ (x.withBlock record p).hashes = x.hashes ++ sha256 record ∧ (x.withBlock record p).plain = padTo (65536 * x.blocks) x.plain ++ p
    ∧ (x.blocks + 1 = hdrBlocks x.header → kvGet? (x.withBlock record p).images x.comp = some (imageOf x.header (x.withBlock record p).plain)) := by
  unfold FwuSession.withBlock
  extract_lets y
  by_cases hin : y.imageIn = true
  · rw [if_pos hin]
    exact ⟨rfl, rfl, rfl, fun _ => kvGet?_kvSet_same _ _ _⟩
  · rw [if_neg hin]
    refine ⟨rfl, rfl, rfl, fun hb => (hin ?_).elim⟩
    rw [FwuSession.imageIn, show y.stage = .blocks from hst, show y.blocks = hdrBlocks y.header from hb]
    simp

/-! ### FWU_END -/

/-- The images with those of a slot replaced by a set of five. -/
def Mod.slotImages (m : Mod) (set : List FwImage) : Kv FwImage :=
  (set.zip (List.range 5)).foldl (fun (k : Kv FwImage) e => kvSet k (m.targetSlot * 8 + e.2) e.1) m.sec.images

theorem Mod.slotImages_get {set : List FwImage} (hl : set.length = 5) {c : Nat} (hc : c < 5) : kvGet? (m.slotImages set) (m.targetSlot * 8 + c) = set[c]? := by
  have hmap : m.slotImages set = ((set.zip (List.range 5)).map fun e => (m.targetSlot * 8 + e.2, e.1)).foldl (fun k e => kvSet k e.1 e.2) m.sec.images := by
    rw [Mod.slotImages, List.foldl_map]
  have hlen : (set.zip (List.range 5)).length = 5 := by rw [List.length_zip, hl, List.length_range]; rfl
  have hat : ∀ k (hk : k < (set.zip (List.range 5)).length), (set.zip (List.range 5))[k] = (set[k], k) := fun k hk => by
    rw [List.getElem_zip, List.getElem_range]
  rw [hmap, List.getElem?_eq_getElem (by omega)]
  refine (kvGet?_keysApplied _ (m.targetSlot * 8 + c) m.sec.images).1 _ ?_ ?_
  · refine ⟨(m.targetSlot * 8 + c, set[c]), List.mem_map.2 ⟨(set[c], c), ?_, rfl⟩, rfl⟩
    rw [← hat c (by omega)]
    exact List.getElem_mem _
  · intro e he hec
    obtain ⟨z, hz, rfl⟩ := List.mem_map.1 he
    obtain ⟨k, hk, rfl⟩ := List.getElem_of_mem hz
    rw [hat k hk] at hec ⊢
    have hkc : k = c := Nat.add_left_cancel hec
    subst hkc
    rfl

/-- FWU_END in its session. -/
def Mod.endIn (m : Mod) (path : Path) (x : FwuSession) : Mod :=
  if !x.imageIn then m.fwuFail path 5 5
  else if m.endBad x ≠ 0 then m.endFail path (m.endBad x)
  else if (m.resultSet (m.endNew x)).length ≠ 5 then m.fwuFail path 5 5
  else if !compatible (m.resultSet (m.endNew x)) then m.endFail path 4
  else (Mod.setSession (Mod.setMark { m with sec := { m.sec with images := m.slotImages (m.resultSet (m.endNew x)) } } m.targetSlot .trial) { x with stage := .ended }).cmdDone path 5 0

theorem Mod.fwuEnd_eq : m.fwuEnd path = m.inSession path 5 (m.endIn path) := rfl

theorem SecUnit.setMark_images (u : SecUnit) (i : Nat) (k : SlotMark) : (u.setMark i k).images = u.images := by
  unfold SecUnit.setMark
  split <;> rfl

end

section
variable {s : State} {path : Path} {x : FwuSession} (h : s.m.pathUp path Reg.SEC_CMD.base = true) (hx : s.m.sec.session = some x) (hp : x.path = path)
include h hx hp

theorem execFwuEnd_taken (h1 : x.imageIn = true) (h2 : s.m.endBad x = 0) (h3 : (s.m.resultSet (s.m.endNew x)).length = 5) (h4 : compatible (s.m.resultSet (s.m.endNew x)) = true) :
    ∃ t, exec (.fwuEnd path) s = .next t ∧ s.ended t path 5 0 ∧ t.m.sec.session = some { x with stage := .ended }
      ∧ t.m.sec.mark s.m.targetSlot = .trial ∧ (∀ c, c < 5 → t.m.sec.image? s.m.targetSlot c = (s.m.resultSet (s.m.endNew x))[c]?) ∧ t.m.evIn = s.m.evIn := by
  have hcmd : s.m.fwuEnd path = (Mod.setSession (Mod.setMark { s.m with sec := { s.m.sec with images := s.m.slotImages (s.m.resultSet (s.m.endNew x)) } } s.m.targetSlot .trial)
      { x with stage := .ended }).cmdDone path 5 0 := by
    rw [Mod.fwuEnd_eq, s.m.inSession_some hx, if_pos hp, Mod.endIn, if_neg (by rw [h1]; decide), if_neg (fun hn => hn h2), if_neg (fun hn => hn h3), if_neg (by rw [h4]; decide)]
  have himg := fun c (hc : c < 5) => s.m.slotImages_get h3 hc
  generalize s.m.slotImages (s.m.resultSet (s.m.endNew x)) = imgs at hcmd himg
  have hsec : (Mod.setMark { s.m with sec := { s.m.sec with images := imgs } } s.m.targetSlot .trial).sec = ({ s.m.sec with images := imgs } : SecUnit).setMark s.m.targetSlot .trial := rfl
  have hs1 : Mod.sameBut [.sec] s.m (Mod.setMark { s.m with sec := { s.m.sec with images := imgs } } s.m.targetSlot .trial) :=
    Mod.sameBut_trans (s.m.sameBut_sec _) (Mod.setMark_sameBut _ _ _)
  generalize Mod.setMark { s.m with sec := { s.m.sec with images := imgs } } s.m.targetSlot .trial = k at hcmd hsec hs1
  obtain ⟨t, he, hend, hs, -, -, -⟩ := via_ended (c := .fwuEnd path) rfl h hcmd (congrArg (·.out) (hs1.host (by decide))) (by decide) (by decide)
  have hts : t.m.sec = { k.sec with session := some { x with stage := .ended } } := hs.sec (by decide)
  refine ⟨t, he, hend, by rw [hts], ?_, fun c hc => ?_, (hs.evIn (by decide)).trans (hs1.evIn (by decide))⟩
  · rw [hts, hsec]
    exact SecUnit.mark_setMark _ _ _
  · rw [hts, hsec, ← himg c hc]
    exact congrArg (kvGet? · (s.m.targetSlot * 8 + c)) (SecUnit.setMark_images _ _ _)

theorem execFwuEnd_lost {result : Nat} (hr : result < 256) (hcmd : s.m.endIn path x = s.m.endFail path result) :
    ∃ t, exec (.fwuEnd path) s = .next t ∧ s.ended t path 5 result ∧ t.m.sec.session = none ∧ t.m.fget Fld.SEC_ERR_FWU_FAILED = 1
      ∧ (s.m.variant = false → t.m.sec.mark s.m.targetSlot = .invalid) := by
  refine fwu_endsLost (c := .fwuEnd path) (cmd := 5) (r := result) rfl h hx ?_ (by decide) hr
  rw [Mod.fwuEnd_eq, s.m.inSession_some hx, if_pos hp, hcmd, Mod.endFail]

end

/-! ### The watchdog of the management controller, and confirmation -/

section
variable {s : State}

theorem execMgmtWatchdog_spec (core : Nat) (hup : s.m.mgUp = true) :
    ∃ t, exec (.mgmtWatchdog core) s = .next t ∧ t.m.sec.session = none ∧ t.m.host.doe.busy = none
      ∧ t.m.fget Fld.PWR_WDOG_COUNT = min (s.m.fget Fld.PWR_WDOG_COUNT + 1) 0xFFFFFFFF
      ∧ t.m.reports .corrected 0x1009 core 0 (t.m.fget Fld.PWR_WDOG_COUNT) 0
      ∧ (s.m.sec.session = none → State.sameBut [.regs, .evIn, .host] s t ∧ s.m.regsKeep [Reg.PWR_WDOG.base] t.m) := by
  have hs1 := s.m.fsat_sameBut Fld.PWR_WDOG_COUNT 1 0 0
  have hk1 : s.m.regsKeep [Reg.PWR_WDOG.base] (s.m.fsat Fld.PWR_WDOG_COUNT) := s.m.fset_regsKeep Fld.PWR_WDOG_COUNT _ 0 0
  have hc1 : (s.m.fsat Fld.PWR_WDOG_COUNT).fget Fld.PWR_WDOG_COUNT = min (s.m.fget Fld.PWR_WDOG_COUNT + 1) 0xFFFFFFFF :=
    s.m.fget_fsat_same Fld.PWR_WDOG_COUNT 1 0 0 (by decide) (by decide)
  have he : ∀ n, Mod.sessionLost { (s.m.fsat Fld.PWR_WDOG_COUNT).raise .corrected 0x1009 core 0 ((s.m.fsat Fld.PWR_WDOG_COUNT).fget Fld.PWR_WDOG_COUNT) with
      host := { ((s.m.fsat Fld.PWR_WDOG_COUNT).raise .corrected 0x1009 core 0 ((s.m.fsat Fld.PWR_WDOG_COUNT).fget Fld.PWR_WDOG_COUNT)).host with
        doe := ⟨none, ((s.m.fsat Fld.PWR_WDOG_COUNT).raise .corrected 0x1009 core 0 ((s.m.fsat Fld.PWR_WDOG_COUNT).fget Fld.PWR_WDOG_COUNT)).host.doe.error⟩ } } 0 0 = n →
      exec (.mgmtWatchdog core) s = .next { s with m := n } := fun n hn => exec_on rfl ((if_pos hup).trans hn)
  generalize s.m.fsat Fld.PWR_WDOG_COUNT = m1 at hs1 hk1 hc1 he
  have hs2 := m1.raise_sameBut .corrected 0x1009 core 0 (m1.fget Fld.PWR_WDOG_COUNT) 0
  have hrep := m1.raise_reports .corrected 0x1009 core 0 (m1.fget Fld.PWR_WDOG_COUNT) 0
  generalize m1.raise .corrected 0x1009 core 0 (m1.fget Fld.PWR_WDOG_COUNT) = m2 at hs2 hrep he
  have hs3 := m2.sameBut_host { m2.host with doe := ⟨none, m2.host.doe.error⟩ }
  have hdoe : ({ m2 with host := { m2.host with doe := ⟨none, m2.host.doe.error⟩ } } : Mod).host.doe.busy = none := rfl
  generalize ({ m2 with host := { m2.host with doe := ⟨none, m2.host.doe.error⟩ } } : Mod) = m3 at hs3 hdoe he
  have hcount : m3.fget Fld.PWR_WDOG_COUNT = m1.fget Fld.PWR_WDOG_COUNT := by rw [hs3.fget (by decide), hs2.fget (by decide)]
  have hrep3 : m3.reports .corrected 0x1009 core 0 (m1.fget Fld.PWR_WDOG_COUNT) 0 := Mod.reports_of_eq (hs3.evIn (by decide)) (hs3.tick (by decide)) hrep
  have hsec : m3.sec = s.m.sec := by rw [hs3.sec (by decide), hs2.sec (by decide), hs1.sec (by decide)]
  cases hx : s.m.sec.session with
  | none =>
    have hx3 : m3.sec.session = none := by rw [hsec, hx]
    have hlost : m3.sessionLost 0 0 = m3 := by rw [Mod.sessionLost, hx3]
    have hall := Mod.sameBut_trans (Mod.sameBut_mono hs1 (qs := [.regs, .evIn, .host]) (by decide)) (Mod.sameBut_trans (Mod.sameBut_mono hs2 (by decide)) (Mod.sameBut_mono hs3 (by decide)))
    refine ⟨_, he _ hlost, hx3, hdoe, hcount.trans hc1, ?_, fun _ => ⟨⟨rfl, rfl, hall⟩, Mod.regsKeep_to _ hk1 ((hs3.regs (by decide)).trans (hs2.regs (by decide)))⟩⟩
    rw [hcount]
    exact hrep3
  | some x =>
    have hx3 : m3.sec.session = some x := by rw [hsec, hx]
    have hl := m3.sessionLost_spec hx3 0 0
    have hcount4 : (m3.sessionLost 0 0).fget Fld.PWR_WDOG_COUNT = m1.fget Fld.PWR_WDOG_COUNT := (Mod.regsKeep_fget hl.regs _ _ _ (by decide)).trans hcount
    refine ⟨_, he _ rfl, hl.session, ?_, hcount4.trans hc1, ?_, fun hn => (nomatch hn)⟩
    · rw [hl.rest.host (by decide), hdoe]
    · rw [hcount4]
      exact hl.records.reports hrep3

theorem SecUnit.slotSvn_le (u : SecUnit) (slot : Nat) : u.slotSvn slot ≤ 64 := by
  have hmin : ∀ (xs : List Nat) (a : Nat), xs.foldl min a ≤ a := by
    intro xs
    induction xs with
    | nil => exact fun a => Nat.le_refl a
    | cons y xs ih => exact fun a => (ih (min a y)).trans (Nat.min_le_left a y)
  exact hmin _ _

theorem execFwConfirm_spec (hup : s.m.mgUp = true) (hw : s.m.sec.window = true) (ht : s.m.sec.testsOk = true) (hp : s.m.sec.proofOk = true) :
    ∃ t, exec .fwConfirm s = .next t ∧ t.m.sec.mark (s.m.fget Fld.SEC_STATUS_SLOT) = .confirmed ∧ t.m.sec.window = false ∧ t.m.sec.prefer = s.m.fget Fld.SEC_STATUS_SLOT
      ∧ t.m.fget Fld.SEC_SVN_FUSED = max (s.m.fget Fld.SEC_SVN_FUSED) (s.m.sec.slotSvn (s.m.fget Fld.SEC_STATUS_SLOT))
      ∧ s.m.regsKeep [Reg.SEC_CONFIRM.base, Reg.SEC_SVN.base] t.m ∧ State.sameBut [.regs, .sec] s t := by
  have hs1 := s.m.setMark_sameBut s.m.bootedSlot .confirmed
  have hsec1 : (s.m.setMark s.m.bootedSlot .confirmed).sec = s.m.sec.setMark s.m.bootedSlot .confirmed := rfl
  have hmark := s.m.sec.mark_setMark s.m.bootedSlot .confirmed
  have himg := s.m.sec.setMark_images s.m.bootedSlot .confirmed
  have he : ∀ n, (({ s.m.setMark s.m.bootedSlot .confirmed with sec := { (s.m.setMark s.m.bootedSlot .confirmed).sec with window := false, prefer := s.m.bootedSlot } } : Mod).fset
      Fld.SEC_CONFIRM_SECONDS 0).fset Fld.SEC_SVN_FUSED
        (max ({ s.m.setMark s.m.bootedSlot .confirmed with sec := { (s.m.setMark s.m.bootedSlot .confirmed).sec with window := false, prefer := s.m.bootedSlot } } : Mod).fusedSvn
          (({ s.m.setMark s.m.bootedSlot .confirmed with sec := { (s.m.setMark s.m.bootedSlot .confirmed).sec with window := false, prefer := s.m.bootedSlot } } : Mod).sec.slotSvn s.m.bootedSlot)) = n →
      exec .fwConfirm s = .next { s with m := n } := fun n hn => exec_on rfl ((if_pos (by rw [hup, hw, ht, hp]; rfl)).trans hn)
  rw [← hsec1] at hmark himg
  generalize s.m.setMark s.m.bootedSlot .confirmed = m1 at hs1 hsec1 hmark himg he
  have hs2 := m1.sameBut_sec { m1.sec with window := false, prefer := s.m.bootedSlot }
  have hsec2 : ({ m1 with sec := { m1.sec with window := false, prefer := s.m.bootedSlot } } : Mod).sec = { m1.sec with window := false, prefer := s.m.bootedSlot } := rfl
  generalize ({ m1 with sec := { m1.sec with window := false, prefer := s.m.bootedSlot } } : Mod) = m2 at hs2 hsec2 he
  have hsvn : m2.sec.slotSvn s.m.bootedSlot = s.m.sec.slotSvn s.m.bootedSlot := by
    simp only [SecUnit.slotSvn, SecUnit.image?, hsec2, himg]
  have hfused : m2.fusedSvn = s.m.fget Fld.SEC_SVN_FUSED := by rw [Mod.fusedSvn, hs2.fget (by decide), hs1.fget (by decide)]
  rw [hsvn, hfused] at he
  have hs3 := m2.fset_sameBut Fld.SEC_CONFIRM_SECONDS 0 0 0
  have hk3 : m2.regsKeep [Reg.SEC_CONFIRM.base] (m2.fset Fld.SEC_CONFIRM_SECONDS 0) := m2.fset_regsKeep Fld.SEC_CONFIRM_SECONDS 0 0 0
  generalize m2.fset Fld.SEC_CONFIRM_SECONDS 0 = m3 at hs3 hk3 he
  have hs4 := m3.fset_sameBut Fld.SEC_SVN_FUSED (max (s.m.fget Fld.SEC_SVN_FUSED) (s.m.sec.slotSvn s.m.bootedSlot)) 0 0
  have hk4 : m3.regsKeep [Reg.SEC_SVN.base] _ := m3.fset_regsKeep Fld.SEC_SVN_FUSED (max (s.m.fget Fld.SEC_SVN_FUSED) (s.m.sec.slotSvn s.m.bootedSlot)) 0 0
  have hv4 := m3.fget_fset_same Fld.SEC_SVN_FUSED (max (s.m.fget Fld.SEC_SVN_FUSED) (s.m.sec.slotSvn s.m.bootedSlot)) 0 0 (by decide)
  have hlt : max (s.m.fget Fld.SEC_SVN_FUSED) (s.m.sec.slotSvn s.m.bootedSlot) < 2 ^ (Fld.SEC_SVN_FUSED.hi + 1 - Fld.SEC_SVN_FUSED.lo) := by
    have hw : 2 ^ (Fld.SEC_SVN_FUSED.hi + 1 - Fld.SEC_SVN_FUSED.lo) = 128 := by decide
    have h1 := s.m.fget_lt Fld.SEC_SVN_FUSED 0 0
    have h2 := s.m.sec.slotSvn_le s.m.bootedSlot
    omega
  rw [Nat.mod_eq_of_lt hlt] at hv4
  have hregs : m2.regs = s.m.regs := (hs2.regs (by decide)).trans (hs1.regs (by decide))
  have hsec : (m3.fset Fld.SEC_SVN_FUSED (max (s.m.fget Fld.SEC_SVN_FUSED) (s.m.sec.slotSvn s.m.bootedSlot))).sec = { m1.sec with window := false, prefer := s.m.bootedSlot } := by
    rw [hs4.sec (by decide), hs3.sec (by decide), hsec2]
  refine ⟨_, he _ rfl, ?_, by rw [hsec], by rw [hsec]; rfl, hv4, ?_, rfl, rfl, ?_⟩
  · rw [hsec]
    exact hmark
  · exact Mod.regsKeep_trans (Mod.regsKeep_of_regs_eq hregs _) (Mod.regsKeep_trans (Mod.regsKeep_mono hk3 (by decide)) (Mod.regsKeep_mono hk4 (by decide)))
  · exact Mod.sameBut_trans (Mod.sameBut_mono (Mod.sameBut_trans hs1 hs2) (by decide)) (Mod.sameBut_mono (Mod.sameBut_trans hs3 hs4) (by decide))

theorem execFwConfirmTimeout_spec (hup : s.m.mgUp = true) (hw : s.m.sec.window = true) :
    ∃ t, exec .fwConfirmTimeout s = .next t ∧ t.m.sec = { s.m.sec with window := false } ∧ t.m.fget Fld.SEC_ERR_CONFIRM_TIMEOUT = 1
      ∧ t.m.reports .device 0x0F03 0 (s.m.fget Fld.SEC_STATUS_SLOT) ((!s.m.sec.testsOk).toNat + 2 * (!s.m.sec.proofOk).toNat) 0 := by
  have he : ∀ n, ((({ s.m with sec := { s.m.sec with window := false } } : Mod).fset Fld.SEC_CONFIRM_SECONDS 0).fset Fld.SEC_ERR_CONFIRM_TIMEOUT 1).raise .device 0x0F03 0 s.m.bootedSlot
      ((!s.m.sec.testsOk).toNat + 2 * (!s.m.sec.proofOk).toNat) = n → exec .fwConfirmTimeout s = .next { s with m := n } :=
    fun n hn => exec_on rfl ((if_pos (by rw [hup, hw]; rfl)).trans hn)
  have hsec : ({ s.m with sec := { s.m.sec with window := false } } : Mod).sec = { s.m.sec with window := false } := rfl
  generalize ({ s.m with sec := { s.m.sec with window := false } } : Mod) = m1 at hsec he
  have hs2 := m1.fset_sameBut Fld.SEC_CONFIRM_SECONDS 0 0 0
  generalize m1.fset Fld.SEC_CONFIRM_SECONDS 0 = m2 at hs2 he
  have hs3 := m2.fset_sameBut Fld.SEC_ERR_CONFIRM_TIMEOUT 1 0 0
  have hbit : (m2.fset Fld.SEC_ERR_CONFIRM_TIMEOUT 1).fget Fld.SEC_ERR_CONFIRM_TIMEOUT = 1 := m2.fget_fset_bit Fld.SEC_ERR_CONFIRM_TIMEOUT 0 0 rfl
  generalize m2.fset Fld.SEC_ERR_CONFIRM_TIMEOUT 1 = m3 at hs3 hbit he
  have hs4 := m3.raise_sameBut .device 0x0F03 0 s.m.bootedSlot ((!s.m.sec.testsOk).toNat + 2 * (!s.m.sec.proofOk).toNat) 0
  refine ⟨_, he _ rfl, ?_, (hs4.fget (by decide) _ _ _).trans hbit, m3.raise_reports _ _ _ _ _ _⟩
  rw [hs4.sec (by decide), hs3.sec (by decide), hs2.sec (by decide), hsec]

end

/-- Settles O55: every session command takes the branch of its checks, and confirmation changes the slot and the fuses (R411 to R421, R444). -/
theorem updateSessions : Obligations.UpdateSessions := by
  unfold Obligations.UpdateSessions
  refine ⟨fun s path h => ?_, fun s path data x h hx hp => ?_, fun s path x h hx => ?_, fun s path h hx => ?_, fun s core hup => execMgmtWatchdog_spec core hup,
    fun s hup hw => ⟨execFwConfirm_spec hup hw, execFwConfirmTimeout_spec hup hw⟩, fun s h => ?_, fun s hup hw h => ?_⟩
  · obtain ⟨hb1, hb2, hb3⟩ := execFwuBegin_spec (s := s) h
    refine ⟨hb1, hb2, hb3, fun data c hc => ?_⟩
    simp only [List.mem_cons, List.not_mem_nil, or_false] at hc
    rcases hc with rfl | rfl | rfl | rfl
    · exact fwu_outside (g := s.m.headerIn path (s.m.object path data)) rfl h rfl (show 2 < 256 by decide)
    · exact fwu_outside (g := s.m.listIn path (s.m.object path data)) rfl h rfl (show 3 < 256 by decide)
    · exact fwu_outside (g := s.m.blockIn path (s.m.object path data)) rfl h Mod.fwuBlock_eq (show 4 < 256 by decide)
    · exact fwu_outside (g := s.m.endIn path) rfl h rfl (show 5 < 256 by decide)
  · intro hd comp blockwise fails moves
    have hbw : s.m.fget Fld.SEC_POLICY_BLOCKWISE < 2 := s.m.fget_lt Fld.SEC_POLICY_BLOCKWISE 0 0
    have hon : blockwise = true → s.m.fget Fld.SEC_POLICY_BLOCKWISE = 1 := fun hb => beq_iff_eq.1 hb
    have hoff : blockwise = false → s.m.fget Fld.SEC_POLICY_BLOCKWISE ≠ 1 := fun hb => beq_eq_false_iff_ne.1 hb
    have header : ∀ result, result < 256 → s.m.headerIn path hd x = s.m.fwuFail path 2 result → fails (.fwuHeader path data) 2 result :=
      fun result hr hg => fwu_failsOwn (g := s.m.headerIn path hd) rfl h rfl hx hp hg (by decide) hr
    have list : ∀ result, result < 256 → s.m.listIn path hd x = s.m.fwuFail path 3 result → fails (.fwuList path data) 3 result :=
      fun result hr hg => fwu_failsOwn (g := s.m.listIn path hd) rfl h rfl hx hp hg (by decide) hr
    have block : ∀ result, result < 256 → s.m.blockIn path hd x = s.m.fwuFail path 4 result → fails (.fwuBlock path data) 4 result :=
      fun result hr hg => fwu_failsOwn (g := s.m.blockIn path hd) rfl h Mod.fwuBlock_eq hx hp hg (by decide) hr
    have own : ∀ code g, s.m.inSession path code g = g x := fun code g => (s.m.inSession_some hx).trans (if_pos hp)
    refine ⟨fun h1 h2 h3 h4 => ?_, fun h1 h2 => header 5 (by decide) (Mod.headerIn_order h1 h2), fun h1 h2 => header 8 (by decide) (Mod.headerIn_format h1 h2),
      fun h1 h2 h3 h4 h5 => header _ (s.m.hdrCheck_lt _) (Mod.headerIn_unsigned h1 h2 h3 (hoff h4) h5), fun h1 h2 h3 => ?_, fun h1 => list 5 (by decide) (if_pos h1),
      fun h1 h2 => list 8 (by decide) ((if_neg (not_not_intro h1)).trans (if_pos h2)), fun h1 h2 h3 h4 => list 6 (by decide) ?_, fun p h1 h2 h3 h4 => ?_,
      fun h1 => block 5 (by decide) (if_pos (h1.imp_left id)), fun h1 h2 h3 => block _ (s.m.blockCheck_lt x hd) ?_, fun h1 h2 h3 h4 => block 6 (by decide) ?_⟩
    · exact fwu_moves (c := .fwuHeader path data) rfl h ((own 2 (s.m.headerIn path hd)).trans (Mod.headerIn_moves h1 h2 h3 (h4.imp_left hon))) (by decide)
    · have hsum : ¬(s.m.fget Fld.SEC_POLICY_BLOCKWISE = 0 ∧ sha256 hd ≠ hdrListHash x.header) := fun hn => h3.elim (fun hb => by have := hon hb; omega) (fun he => hn.2 he)
      exact fwu_moves (c := .fwuList path data) rfl h ((own 3 (s.m.listIn path hd)).trans ((if_neg (not_not_intro h1)).trans ((if_neg (not_not_intro h2)).trans (if_neg hsum)))) (by decide)
    · have hzero : s.m.fget Fld.SEC_POLICY_BLOCKWISE = 0 := by
        have := hoff h3
        omega
      exact (if_neg (not_not_intro h1)).trans ((if_neg (not_not_intro h2)).trans (if_pos ⟨hzero, h4⟩))
    · have hdue : ¬(x.stage ≠ .blocks ∨ x.blocks = hdrBlocks x.header) := fun hn => hn.elim (fun hn => hn h1) (Nat.ne_of_lt h2)
      have hcmd : s.m.fwuBlock path hd = (s.m.setSession (x.withBlock hd p)).cmdDone path 4 0 := by
        rw [Mod.fwuBlock_eq, own, Mod.blockIn, if_neg hdue, if_neg (not_not_intro h3), h4, Mod.blockOpened]
      obtain ⟨t, he, hend, hsec, -⟩ := fwu_moves (c := .fwuBlock path data) rfl h hcmd (by decide)
      obtain ⟨hb1, hb2, hb3, hb4⟩ := x.withBlock_spec hd p h1
      exact ⟨t, _, he, hend, hsec, hb1, hb2, hb3, hb4⟩
    · exact (if_neg fun hn => hn.elim (fun hn => hn h1) h2).trans (if_pos h3)
    · rw [Mod.blockIn, if_neg fun hn => hn.elim (fun hn => hn h1) h2, if_neg (not_not_intro h3), h4, Mod.blockOpened]
  · intro set lost
    refine ⟨fun hp h1 h2 h3 h4 => execFwuEnd_taken h hx hp h1 h2 h3 h4, fun hp h1 h2 => execFwuEnd_lost h hx hp (s.m.endBad_lt x) ((if_neg (by rw [h1]; decide)).trans (if_pos h2)),
      fun hp h1 h2 h3 h4 => execFwuEnd_lost h hx hp (by decide) ?_, fun hp h1 => ?_, ?_⟩
    · rw [Mod.endIn, if_neg (by rw [h1]; decide), if_neg (not_not_intro h2), if_neg (not_not_intro h3), if_pos (by rw [h4]; rfl)]
    · obtain ⟨t, he, hend, hsec, -⟩ := fwu_failsOwn (c := .fwuEnd path) (g := s.m.endIn path) (result := 5) rfl h rfl hx hp (if_pos (by rw [h1]; rfl)) (by decide) (by decide)
      exact ⟨t, he, hend, hsec⟩
    · exact fwu_endsLost (c := .fwuAbort path) (cmd := 7) (r := 0) rfl h hx (if_neg (by rw [hx]; exact fun h => (nomatch h))) (by decide) (by decide)
  · obtain ⟨t, he, hend, hsec, -⟩ := fwu_fails (c := .fwuAbort path) (code := 7) (result := 5) rfl h (if_pos (by rw [hx]; rfl)) (by decide) (by decide)
    exact ⟨t, he, hend, hsec⟩
  · have hn : (s.m.mgUp && s.m.sec.window) = false := by rcases h with h | h <;> simp [h]
    exact ⟨exec_on rfl (if_neg (by rw [hn]; exact fun h => (nomatch h))), exec_on rfl (if_neg (by rw [hn]; decide))⟩
  · refine exec_on rfl (if_neg ?_)
    rcases h with h | h <;> simp [h]

end Sys2Proof.Machine
end

section
/-! PROOF. What a function reset does (14_host_interface.md R366, R376, R379; 10_memory_tiers.md R273; 17_power_reset.md R443). -/

namespace Sys2Proof.Machine

section
variable {m : Mod}

/-! ### The pool released -/

/-- What `kvSet` leaves in a map: the entry set and entries that stood there. -/
theorem mem_kvSet {α : Type} {k : Nat} {v : α} {e : Nat × α} : ∀ {xs : Kv α}, e ∈ kvSet xs k v → e = (k, v) ∨ e ∈ xs := by
  intro xs
  induction xs with
  | nil => exact fun h => .inl (List.mem_singleton.1 h)
  | cons x xs ih =>
    intro h
    rw [kvSet] at h
    split at h
    · exact (List.mem_cons.1 h).imp_right id
    · split at h
      · exact (List.mem_cons.1 h).imp_right (List.mem_cons_of_mem _)
      · rcases List.mem_cons.1 h with h | h
        · exact .inr (List.mem_cons.2 (.inl h))
        · exact (ih h).imp_right (List.mem_cons_of_mem _)

theorem kvGet?_ne_none_of_mem {α : Type} {e : Nat × α} : ∀ {xs : Kv α}, e ∈ xs → kvGet? xs e.1 ≠ none := by
  intro xs
  induction xs with
  | nil => exact fun h => (List.not_mem_nil h).elim
  | cons x xs ih =>
    intro h
    rw [kvGet?]
    split
    · exact Option.some_ne_none _
    · next hne => exact (List.mem_cons.1 h).elim (fun he => (hne (congrArg Prod.fst he)).elim) ih

/-- Dropping an object takes every entry of its key and no other. -/
theorem Mod.mem_dropObj_objs {home : Nat} {e : Nat × PoolObj} : e ∈ (m.dropObj home).pool.objs ↔ e ∈ m.pool.objs ∧ e.1 ≠ home := by
  unfold Mod.dropObj
  split
  · exact List.mem_filter.trans (and_congr_right' (decide_eq_true_iff))
  · next h =>
    exact ⟨fun he => ⟨he, fun hk => kvGet?_ne_none_of_mem he (hk ▸ h)⟩, And.left⟩

theorem Mod.foldl_dropObj_objs {e : Nat × PoolObj} (xs : List (Nat × PoolObj)) : ∀ m : Mod,
    e ∈ (xs.foldl (fun (x : Mod) d => x.dropObj d.1) m).pool.objs → e ∈ m.pool.objs ∧ ∀ d ∈ xs, e.1 ≠ d.1 := by
  induction xs with
  | nil => exact fun m h => ⟨h, fun d hd => (List.not_mem_nil hd).elim⟩
  | cons x xs ih =>
    intro m h
    obtain ⟨h1, h2⟩ := ih (m.dropObj x.1) h
    obtain ⟨h3, h4⟩ := Mod.mem_dropObj_objs.1 h1
    exact ⟨h3, List.forall_mem_cons.2 ⟨h4, h2⟩⟩

/-- No request waits, no object is pinned and none is being read (R273). -/
def PoolUnit.released (p : PoolUnit) : Prop := p.waits = [] ∧ ∀ o ∈ p.objs, o.2.pins = 0 ∧ o.2.st ≠ .movingUp

theorem Mod.writeBack_released {home : Nat} {o : PoolObj} (h : m.pool.released) : (m.writeBack home o).pool.released := by
  rw [Mod.writeBack_pool]
  obtain ⟨hw, ho⟩ := h
  refine ⟨hw, fun e he => ?_⟩
  rcases mem_kvSet he with rfl | he
  · exact ⟨rfl, nofun⟩
  · exact ho e he

theorem Mod.foldl_writeBack_released (xs : List (Nat × PoolObj)) : ∀ m : Mod, m.pool.released →
    (xs.foldl (fun (x : Mod) e => x.writeBack e.1 e.2) m).pool.released := by
  induction xs with
  | nil => exact fun m h => h
  | cons x xs ih => exact fun m h => ih _ (Mod.writeBack_released h)

theorem Mod.writeBack_regsKeep (home : Nat) (o : PoolObj) : m.regsKeep [Reg.LFT_POOL_EVICT.base] (m.writeBack home o) := by
  have hset := m.setObj_sameBut home { o with st := .evicting, wbStarted := true, pins := 0 }
  rw [Mod.writeBack]
  generalize m.setObj home { o with st := .evicting, wbStarted := true, pins := 0 } = x at hset ⊢
  have hk : x.regsKeep [Reg.LFT_POOL_EVICT.base] (x.fsat Fld.LFT_POOL_EVICT_COUNT) := x.fsat_regsKeep Fld.LFT_POOL_EVICT_COUNT 1 0 0
  exact Mod.regsKeep_trans (Mod.regsKeep_of_regs_eq (hset.regs (by decide)) _) (Mod.regsKeep_to _ hk ((Mod.bindPass_sameBut _ _).regs (by decide)))

/-- The pool at a function reset. -/
theorem Mod.poolReset_spec (m : Mod) : m.poolReset.pool.released ∧ m.regsKeep [Reg.LFT_POOL_EVICT.base] m.poolReset := by
  unfold Mod.poolReset
  extract_lets m1 _ m2
  have hd : Mod.sameBut [.pool] m m1 := Mod.sameBut_foldl _ _ _ (fun x (e : Nat × PoolObj) => x.dropObj_sameBut e.1) (Mod.sameBut_refl _ _)
  have hrel : m2.pool.released := by
    refine ⟨rfl, fun o ho => ?_⟩
    obtain ⟨e, he, rfl⟩ := List.mem_map.1 ho
    obtain ⟨h1, h2⟩ := Mod.foldl_dropObj_objs _ m he
    exact ⟨rfl, fun hst => h2 e (List.mem_filter.2 ⟨h1, beq_iff_eq.2 hst⟩) rfl⟩
  have hregs : m2.regs = m.regs := hd.regs (by decide)
  clear_value m2
  refine ⟨Mod.foldl_writeBack_released _ m2 hrel, ?_⟩
  exact Mod.regsKeep_trans (Mod.regsKeep_of_regs_eq hregs _) (Mod.foldl_regsKeep _ (fun x e _ => x.writeBack_regsKeep e.1 e.2) m2)

theorem Mod.padReleaseAll_released (h : m.pool.released) : m.padReleaseAll.pool.released := by
  unfold Mod.padReleaseAll
  have key : ∀ (xs : List (Nat × PadInst)) (x : Mod), x.pool.released → (xs.foldl (fun x e => x.padRelease e.1) x).pool.released := by
    intro xs
    induction xs with
    | nil => exact fun x h => h
    | cons e xs ih => exact fun x h => ih _ ⟨h.1, h.2⟩
  exact key _ m h

/-! ### Registers at their defaults -/

/-- A register at a reset of level `k`: its reset value where it defaults there, and its value elsewhere. -/
theorem RegFile.read_defaults (rf : RegFile) (k : Nat) {off i j : Nat} {r : RegSpec} (hat : Reg.at? off = some (r, i, j)) :
    (rf.defaults k).read r i j = if r.ret.defaultsAt k then r.resetWord else rf.read r i j := by
  obtain ⟨-, haddr⟩ := Reg.at?_some hat
  have hoff : offDefaults k off = r.ret.defaultsAt k := by rw [offDefaults, hat]
  rw [RegFile.read, RegFile.defaults, kvGetD, kvGet?_kvKeep, haddr, hoff]
  cases r.ret.defaultsAt k
  · rw [if_pos Bool.not_false, if_neg Bool.false_ne_true, RegFile.read, haddr, kvGetD]
  · rw [if_neg (by decide), if_pos rfl, Option.getD_none]

/-! ### The function reset -/

/-- What a function reset from `source` leaves of a module. -/
structure Mod.functionEnded (m n : Mod) (source : Nat) : Prop where
  cause : n.step.cause = if m.stepOpen then (m.step.cause <|> some (0x0707, m.self)) else m.step.cause
  runs : n.chk.runs = []
  wins : n.stm.wins = []
  engines : ∀ e ∈ n.stm.engines, e.2.ctxs = [] ∧ e.2.staged = []
  ops : n.coll.ops = []
  pool : n.pool.released
  mem : n.mem = { m.mem with sram := m.mem.sram.forget, acc := m.mem.acc.forget }
  regs : ∀ (off i j : Nat) (r : RegSpec), Reg.at? off = some (r, i, j) → off ≠ Reg.HBM_PAD_LOW.base → off ≠ Reg.PWR_RESET_CAUSE.base →
    off ≠ Reg.LFT_POOL_EVICT.base → n.regs.read r i j = if r.ret.defaultsAt 1 then r.resetWord else m.regs.read r i j
  msix : n.host.msixEnable = false ∧ n.host.entries = [] ∧ n.host.pba = [] ∧ n.host.doe = ⟨none, false⟩
  kind : n.fget Fld.PWR_RESET_CAUSE_KIND = 4
  source : n.fget Fld.PWR_RESET_CAUSE_SOURCE = source

/-- PWR_RESET_CAUSE after a reset. -/
theorem Mod.resetCause_spec (m : Mod) {kind source : Nat} (hk : kind < 8) (hs : source < 256) :
    (m.resetCause kind source).fget Fld.PWR_RESET_CAUSE_KIND = kind ∧ (m.resetCause kind source).fget Fld.PWR_RESET_CAUSE_SOURCE = source
      ∧ m.regsKeep [Reg.PWR_RESET_CAUSE.base] (m.resetCause kind source) := by
  rw [Mod.resetCause]
  refine ⟨?_, ?_, ?_⟩
  · rw [Mod.fget_fset_otherField _ Fld.PWR_RESET_CAUSE_SOURCE Fld.PWR_RESET_CAUSE_KIND _ _ _ rfl (by decide) (by decide), Mod.fget_fset_same _ _ _ _ _ (by decide)]
    exact Nat.mod_eq_of_lt hk
  · rw [Mod.fget_fset_same _ _ _ _ _ (by decide)]
    exact Nat.mod_eq_of_lt hs
  · exact Mod.regsKeep_trans (m.fset_regsKeep Fld.PWR_RESET_CAUSE_KIND kind 0 0) ((m.fset Fld.PWR_RESET_CAUSE_KIND kind).fset_regsKeep Fld.PWR_RESET_CAUSE_SOURCE source 0 0)

/-- Check jobs end and no step number is armed. -/
def Mod.jobsEnded (m : Mod) : Mod :=
  { m with chk := { m.chk with runs := [] }, step := { m.step with armed := none, armTick := none, szFresh := false } }

/-- Jobs, streams, collectives, pins and stashed tensors end. -/
def Mod.unitsReset (m : Mod) : Mod := m.jobsEnded.poolReset.stmReset.collReset.padReleaseAll

/-- Registers of level 1 at their defaults, core SRAM undefined, no frame in progress. -/
def Mod.levelReset (m : Mod) : Mod :=
  let stables := m.sched.stables.map (fun (e : Nat × StableRun) => (e.1, { e.2 with frame := 0, late := false, slips := 0, lag := false }))
  { m with regs := m.regs.defaults 1, mem := { m.mem with sram := m.mem.sram.forget, acc := m.mem.acc.forget }, sched := { m.sched with stables := stables } }

/-- The module with the cause of a fault where a step is open. -/
def Mod.stepFaulted (m : Mod) : Mod := if m.stepOpen then m.fault 0x0707 else m

theorem Mod.functionReset_eq (m : Mod) : m.functionReset
    = m.stepFaulted.unitsReset.levelReset.hostReset.fset Fld.HBM_PAD_LOW_PAGES (m.stepFaulted.unitsReset.levelReset.fget Fld.HBM_PAD_TOTAL_PAGES) := rfl

theorem Mod.stepFaulted_spec (m : Mod) : Mod.sameBut [.step] m m.stepFaulted
    ∧ m.stepFaulted.step.cause = if m.stepOpen then (m.step.cause <|> some (0x0707, m.self)) else m.step.cause := by
  unfold Mod.stepFaulted
  split
  · exact ⟨m.fault_sameBut _, rfl⟩
  · exact ⟨Mod.sameBut_refl _ _, rfl⟩

theorem Mod.jobsEnded_sameBut (m : Mod) : Mod.sameBut [.step, .chk] m m.jobsEnded := Mod.sameBut_trans (Mod.sameBut_mono (m.sameBut_chk _) (by decide))
  (Mod.sameBut_mono (Mod.sameBut_stepUnit { m with chk := { m.chk with runs := [] } } _) (by decide))

/-- What the units hold after a function reset, and what stands. -/
theorem Mod.unitsReset_spec (m : Mod) : Mod.sameBut [.regs, .step, .pool, .pad, .stm, .groom, .coll, .chk, .fab] m m.unitsReset
    ∧ m.unitsReset.step.cause = m.step.cause ∧ m.unitsReset.chk.runs = [] ∧ m.unitsReset.stm.wins = []
    ∧ (∀ e ∈ m.unitsReset.stm.engines, e.2.ctxs = [] ∧ e.2.staged = []) ∧ m.unitsReset.coll.ops = [] ∧ m.unitsReset.pool.released
    ∧ m.regsKeep [Reg.LFT_POOL_EVICT.base] m.unitsReset := by
  have hj := m.jobsEnded_sameBut
  have hcause : m.jobsEnded.step.cause = m.step.cause ∧ m.jobsEnded.chk.runs = [] := ⟨rfl, rfl⟩
  unfold Mod.unitsReset
  generalize m.jobsEnded = a at hj hcause ⊢
  obtain ⟨hp, hpk⟩ := a.poolReset_spec
  have hps := a.poolReset_sameBut
  generalize a.poolReset = b at hp hpk hps ⊢
  have hss := b.stmReset_sameBut
  have hst : b.stmReset.stm.wins = [] ∧ (∀ e ∈ b.stmReset.stm.engines, e.2.ctxs = [] ∧ e.2.staged = []) ∧ (b.chk.runs = [] → b.stmReset.chk.runs = []) := by
    refine ⟨rfl, fun e he => ?_, fun h => ?_⟩
    · obtain ⟨x, -, rfl⟩ := List.mem_map.1 he
      exact ⟨rfl, rfl⟩
    · exact (congrArg (List.map _) h).trans rfl
  generalize b.stmReset = c at hss hst ⊢
  have hcs := c.collReset_sameBut
  have hops : c.collReset.coll.ops = [] := rfl
  generalize c.collReset = d at hcs hops ⊢
  have hds := d.padReleaseAll_sameBut
  have hdp := Mod.padReleaseAll_released (m := d)
  generalize d.padReleaseAll = e at hds hdp ⊢
  have hse : Mod.sameBut [.pool, .pad, .stm, .coll, .chk, .fab] b e := Mod.sameBut_trans (Mod.sameBut_mono hss (by decide))
    (Mod.sameBut_trans (Mod.sameBut_mono hcs (by decide)) (Mod.sameBut_mono hds (by decide)))
  obtain ⟨hwins, heng, hruns⟩ := hst
  refine ⟨Mod.sameBut_trans (Mod.sameBut_mono hj (by decide)) (Mod.sameBut_trans (Mod.sameBut_mono hps (by decide)) (Mod.sameBut_mono hse (by decide))), ?_, ?_, ?_, ?_, ?_, ?_, ?_⟩
  · rw [hse.step (by decide), hps.step (by decide), hcause.1]
  · rw [hds.chk (by decide), hcs.chk (by decide)]
    exact hruns (by rw [hps.chk (by decide), hcause.2])
  · rw [hds.stm (by decide), hcs.stm (by decide), hwins]
  · rw [hds.stm (by decide), hcs.stm (by decide)]
    exact heng
  · rw [hds.coll (by decide), hops]
  · exact hdp (by rw [hcs.pool (by decide), hss.pool (by decide)]; exact hp)
  · exact Mod.regsKeep_trans (Mod.regsKeep_of_regs_eq (hj.regs (by decide)) _) (Mod.regsKeep_to _ hpk (hse.regs (by decide)))

/-- What the registers of a level and the memories hold after a function reset. -/
theorem Mod.levelReset_spec (m : Mod) : Mod.sameBut [.regs, .mem, .sched] m m.levelReset ∧ m.levelReset.mem = { m.mem with sram := m.mem.sram.forget, acc := m.mem.acc.forget }
    ∧ m.levelReset.regs = m.regs.defaults 1 := by
  refine ⟨?_, rfl, rfl⟩
  constructor <;> intro hp
  case regs | mem | sched => exact (hp (by decide)).elim
  all_goals rfl

/-- The parts of a function reset that the registers, memories and units show (R18, R376). -/
theorem Mod.functionReset_spec (m : Mod) {source : Nat} (hs : source < 256) : Mod.functionEnded m (m.functionReset.msixReset.resetCause 4 source) source := by
  rw [Mod.functionReset_eq]
  obtain ⟨hf, hcause⟩ := m.stepFaulted_spec
  generalize m.stepFaulted = a at hf hcause ⊢
  obtain ⟨hu, hucause, hruns, hwins, heng, hops, hpool, hukeep⟩ := a.unitsReset_spec
  generalize a.unitsReset = b at hu hucause hruns hwins heng hops hpool hukeep ⊢
  obtain ⟨hl, hmem, hregs⟩ := b.levelReset_spec
  generalize b.levelReset = c at hl hmem hregs ⊢
  have hh := c.hostReset_sameBut
  have hdoe : c.hostReset.host.doe = ⟨none, false⟩ := rfl
  generalize c.hostReset = d at hh hdoe ⊢
  have hp := d.fset_sameBut Fld.HBM_PAD_LOW_PAGES (c.fget Fld.HBM_PAD_TOTAL_PAGES) 0 0
  have hpk : d.regsKeep [Reg.HBM_PAD_LOW.base] (d.fset Fld.HBM_PAD_LOW_PAGES (c.fget Fld.HBM_PAD_TOTAL_PAGES)) := d.fset_regsKeep Fld.HBM_PAD_LOW_PAGES _ 0 0
  generalize d.fset Fld.HBM_PAD_LOW_PAGES (c.fget Fld.HBM_PAD_TOTAL_PAGES) = e at hp hpk ⊢
  have hx := e.msixReset_sameBut
  have hxs : e.msixReset.host.msixEnable = false ∧ e.msixReset.host.entries = [] ∧ e.msixReset.host.pba = [] ∧ e.msixReset.host.doe = e.host.doe := ⟨rfl, rfl, rfl, rfl⟩
  generalize e.msixReset = x at hx hxs ⊢
  obtain ⟨hkind, hsource, hck⟩ := x.resetCause_spec (kind := 4) (by decide) hs
  have hcs := x.resetCause_sameBut 4 source
  generalize x.resetCause 4 source = n at hkind hsource hck hcs ⊢
  have hsame : Mod.sameBut [.regs, .host] c n := Mod.sameBut_trans (Mod.sameBut_mono hh (by decide))
    (Mod.sameBut_trans (Mod.sameBut_mono hp (by decide)) (Mod.sameBut_trans (Mod.sameBut_mono hx (by decide)) (Mod.sameBut_mono hcs (by decide))))
  have hcb : Mod.sameBut [.regs, .mem, .sched, .host] b n := Mod.sameBut_trans (Mod.sameBut_mono hl (by decide)) (Mod.sameBut_mono hsame (by decide))
  refine ⟨?_, ?_, ?_, ?_, ?_, ?_, ?_, ?_, ?_, hkind, hsource⟩
  · rw [hcb.step (by decide), hucause, hcause]
  · rw [hcb.chk (by decide), hruns]
  · rw [hcb.stm (by decide), hwins]
  · rw [hcb.stm (by decide)]
    exact heng
  · rw [hcb.coll (by decide), hops]
  · rw [hcb.pool (by decide)]
    exact hpool
  · rw [hsame.mem (by decide), hmem, hu.mem (by decide), hf.mem (by decide)]
  · intro off i j r hat hlow hcs' hev
    obtain ⟨-, haddr⟩ := Reg.at?_some hat
    have hdk : d.regs.read r i j = (b.regs.defaults 1).read r i j := by rw [hh.regs (by decide), hregs]
    have hbk : b.regs.read r i j = m.regs.read r i j := by
      rw [hukeep r i j (by rw [haddr]; exact fun h => hev (List.mem_singleton.1 h)), hf.regs (by decide)]
    rw [hck r i j (by rw [haddr]; exact fun h => hcs' (List.mem_singleton.1 h)), hx.regs (by decide),
      hpk r i j (by rw [haddr]; exact fun h => hlow (List.mem_singleton.1 h)), hdk, RegFile.read_defaults _ _ hat, hbk]
  · rw [hcs.host (by decide)]
    obtain ⟨h1, h2, h3, h4⟩ := hxs
    exact ⟨h1, h2, h3, by rw [h4, hp.host (by decide), hdoe]⟩

/-- A function reset that the PCIe port brings about: the parts that stand. -/
theorem Mod.pcieFunctionReset_spec (h1 : m.mgUp = true) (h2 : m.pwr.ready = true) {source : Nat} (hs : source < 256) :
    Mod.functionEnded m (m.pcieFunctionReset source) source
    ∧ Mod.sameBut [.regs, .host, .sched, .step, .mem, .pool, .pad, .stm, .groom, .coll, .chk, .fab] m (m.pcieFunctionReset source)
    ∧ (m.pcieFunctionReset source).host.linkUp = m.host.linkUp := by
  have he : m.pcieFunctionReset source = m.functionReset.msixReset.resetCause 4 source := if_pos (by rw [h1, h2]; rfl)
  rw [he]
  have hf := m.functionReset_sameBut
  have hl : m.functionReset.host.linkUp = m.host.linkUp := by
    rw [Mod.functionReset_eq, (Mod.fset_sameBut _ _ _ _ _).host (by decide)]
    have hh : Mod.sameBut [.regs, .step, .mem, .sched, .pool, .pad, .stm, .groom, .coll, .chk, .fab] m m.stepFaulted.unitsReset.levelReset :=
      Mod.sameBut_trans (Mod.sameBut_mono m.stepFaulted_spec.1 (by decide)) (Mod.sameBut_trans (Mod.sameBut_mono m.stepFaulted.unitsReset_spec.1 (by decide))
        (Mod.sameBut_mono m.stepFaulted.unitsReset.levelReset_spec.1 (by decide)))
    generalize m.stepFaulted.unitsReset.levelReset = x at hh ⊢
    have hx : x.hostReset.host.linkUp = x.host.linkUp := rfl
    rw [hx, hh.host (by decide)]
  have hspec := m.functionReset_spec hs
  generalize m.functionReset = f at hf hl hspec ⊢
  have hx := f.msixReset_sameBut
  have hxl : f.msixReset.host.linkUp = f.host.linkUp := rfl
  generalize f.msixReset = x at hx hxl hspec ⊢
  have hc := x.resetCause_sameBut 4 source
  refine ⟨hspec, Mod.sameBut_trans hf (Mod.sameBut_trans (Mod.sameBut_mono hx (by decide)) (Mod.sameBut_mono hc (by decide))), ?_⟩
  rw [hc.host (by decide), hxl, hl]

/-- The three function resets: what a module that serves them is left with, and what absorbs them (R366, R440). -/
theorem execFunctionResets (s : State) :
    (s.m.mgUp = true → s.m.pwr.ready = true → ∀ c source, source < 256 → exec c s = .next (s.on (fun m => m.pcieFunctionReset source)) →
      ∃ t, exec c s = .next t ∧ Mod.functionEnded s.m t.m source ∧ t.m.plt = s.m.plt ∧ t.m.tick = s.m.tick ∧ t.m.pwr = s.m.pwr
        ∧ t.m.cores = s.m.cores ∧ t.evq = s.evq ∧ t.m.evIn = s.m.evIn)
    ∧ (s.m.mgUp = false ∨ s.m.pwr.ready = false → exec .flr s = .next s ∧ exec .hotReset s = .next s)
    ∧ (s.m.host.linkUp = false → exec .dlDown s = .next s) := by
  refine ⟨fun h1 h2 c source hs he => ?_, fun h => ?_, fun h => ?_⟩
  · obtain ⟨hspec, hsame, -⟩ := Mod.pcieFunctionReset_spec (m := s.m) h1 h2 hs
    exact ⟨_, he, hspec, hsame.plt (by decide), hsame.tick (by decide), hsame.pwr (by decide), hsame.cores (by decide), rfl, hsame.evIn (by decide)⟩
  · have hn : (s.m.mgUp && s.m.pwr.ready) = false := by rcases h with h | h <;> simp [h]
    have ha : ∀ source, s.m.pcieFunctionReset source = s.m := fun _ => if_neg (by rw [hn]; decide)
    exact ⟨exec_on rfl (ha 9), exec_on rfl (ha 10)⟩
  · exact exec_on rfl (if_neg (by rw [h]; decide))

/-- DL_DOWN on a link that was up. -/
theorem execDlDown_spec {s : State} (h1 : s.m.mgUp = true) (h2 : s.m.pwr.ready = true) (hl : s.m.host.linkUp = true) :
    ∃ t, exec .dlDown s = .next t ∧ Mod.functionEnded s.m t.m 11 ∧ t.m.plt = s.m.plt ∧ t.m.tick = s.m.tick ∧ t.m.pwr = s.m.pwr
      ∧ t.m.cores = s.m.cores ∧ t.evq = s.evq ∧ t.m.host.linkUp = false ∧ t.m.reports .contained 0x0D02 0 0 0 0 := by
  have hrep := Mod.raise_reports { s.m with host := { s.m.host with linkUp := false } } .contained 0x0D02 0 0 0 0
  obtain ⟨hspec, hsame, hlink⟩ := Mod.pcieFunctionReset_spec (m := Mod.raise { s.m with host := { s.m.host with linkUp := false } } .contained 0x0D02 0) h1 h2 (source := 11) (by decide)
  refine ⟨_, exec_on rfl (if_pos hl), ⟨hspec.cause, hspec.runs, hspec.wins, hspec.engines, hspec.ops, hspec.pool, hspec.mem, hspec.regs, hspec.msix, hspec.kind, hspec.source⟩,
    hsame.plt (by decide), hsame.tick (by decide), hsame.pwr (by decide), hsame.cores (by decide), rfl, hlink, ?_⟩
  exact Mod.reports_of_eq (hsame.evIn (by decide)) (hsame.tick (by decide)) hrep

end

end Sys2Proof.Machine
end

section
/-! PROOF. What the steps of a start-up keep: training, the boot chain, the release of the host interface (Table 17-4; 16_security_and_update.md R394 to
R397; 18_debug.md R465). -/

namespace Sys2Proof.Machine

/-- No plate is loaded and no access to loft is held: nothing for a start-up step to go on with. -/
structure Mod.unloaded (m : Mod) : Prop where
  plt : m.plt = ⟨.empty, .empty, none, none, [], [], []⟩
  held : ∀ c, (m.loftPort c).held = []

/-- What every step of a start-up keeps: the parts that a reset has cleared, the record of the reset and the events that wait. -/
structure Mod.bootKept (m n : Mod) : Prop where
  same : Mod.sameBut [.regs, .evIn, .sec, .mem, .cores, .fab, .dbg] m n
  cause : ∀ f : Fld, f.reg = Reg.PWR_RESET_CAUSE → n.fget f = m.fget f
  events : ∀ r ∈ m.evIn, r ∈ n.evIn
  memory : n.mem = { m.mem with loftPorts := n.mem.loftPorts }
  held : (∀ c, (m.loftPort c).held = []) → ∀ c, (n.loftPort c).held = []
  keys : n.sec.keys = m.sec.keys ∧ n.sec.unlock = m.sec.unlock
  ended : (m.sec.keysDue = [] → n.sec.keysDue = []) ∧ (m.sec.session = none → n.sec.session = none)

theorem Mod.bootKept.refl (m : Mod) : Mod.bootKept m m := ⟨Mod.sameBut_refl _ _, fun _ _ => rfl, fun _ h => h, rfl, id, ⟨rfl, rfl⟩, ⟨id, id⟩⟩

theorem Mod.bootKept.trans {l m n : Mod} (h1 : Mod.bootKept l m) (h2 : Mod.bootKept m n) : Mod.bootKept l n :=
  ⟨Mod.sameBut_trans h1.same h2.same, fun f hf => (h2.cause f hf).trans (h1.cause f hf), fun r hr => h2.events r (h1.events r hr),
    by rw [h2.memory, h1.memory], fun h => h2.held (h1.held h), ⟨h2.keys.1.trans h1.keys.1, h2.keys.2.trans h1.keys.2⟩,
    ⟨fun h => h2.ended.1 (h1.ended.1 h), fun h => h2.ended.2 (h1.ended.2 h)⟩⟩

theorem Mod.bootKept.unloaded {m n : Mod} (h : Mod.bootKept m n) (hm : m.unloaded) : n.unloaded :=
  ⟨(h.same.plt (by decide)).trans hm.plt, h.held hm.held⟩

theorem Mod.bootKept.foldl {β : Type} {f : Mod → β → Mod} (hf : ∀ x k, x.unloaded → Mod.bootKept x (f x k)) : ∀ (ks : List β) (m : Mod), m.unloaded →
    Mod.bootKept m (ks.foldl f m) := by
  intro ks
  induction ks with
  | nil => exact fun m _ => .refl m
  | cons k ks ih => exact fun m h => (hf m k h).trans (ih _ ((hf m k h).unloaded h))

theorem Mod.bootKept.foldlAll {β : Type} {f : Mod → β → Mod} (hf : ∀ x k, Mod.bootKept x (f x k)) : ∀ (ks : List β) (m : Mod), Mod.bootKept m (ks.foldl f m) := by
  intro ks
  induction ks with
  | nil => exact fun m => .refl m
  | cons k ks ih => exact fun m => (hf m k).trans (ih _)

/-- A step that changes registers, cores, fabric or the debug module. -/
theorem Mod.bootKept.of {ps : List Part} {m n : Mod} (hs : Mod.sameBut ps m n) (hp : ∀ p ∈ ps, p ∈ [Part.regs, .cores, .fab, .dbg])
    (hc : ∀ f : Fld, f.reg = Reg.PWR_RESET_CAUSE → n.fget f = m.fget f) : Mod.bootKept m n := by
  have hev : n.evIn = m.evIn := hs.evIn fun h => (by decide : Part.evIn ∉ [Part.regs, .cores, .fab, .dbg]) (hp _ h)
  have hmem : n.mem = m.mem := hs.mem fun h => (by decide : Part.mem ∉ [Part.regs, .cores, .fab, .dbg]) (hp _ h)
  have hsec : n.sec = m.sec := hs.sec fun h => (by decide : Part.sec ∉ [Part.regs, .cores, .fab, .dbg]) (hp _ h)
  have hport : ∀ c, n.loftPort c = m.loftPort c := fun c => by rw [Mod.loftPort, hmem, Mod.loftPort]
  refine ⟨Mod.sameBut_mono hs fun p h => (by decide : ∀ p ∈ [Part.regs, .cores, .fab, .dbg], p ∈ [Part.regs, .evIn, .sec, .mem, .cores, .fab, .dbg]) p (hp p h),
    hc, ?_, ?_, fun h c => ?_, ?_, ?_⟩
  · rw [hev]
    exact fun _ h => h
  · rw [hmem]
  · rw [hport, h c]
  · rw [hsec]
    exact ⟨rfl, rfl⟩
  · rw [hsec]
    exact ⟨id, id⟩

section
variable {m : Mod}

theorem Mod.fset_booted (m : Mod) (f : Fld) (v i j : Nat) (h : Reg.PWR_RESET_CAUSE.base ≠ f.reg.addr i j) : Mod.bootKept m (m.fset f v i j) :=
  .of (m.fset_sameBut f v i j) (by decide) fun g hg => m.fget_fset_otherReg f g v i j 0 0 (by rw [hg]; exact h)

theorem Mod.raise_booted (m : Mod) (k : EvClass) (code source d0 d1 d2 : Nat) : Mod.bootKept m (m.raise k code source d0 d1 d2) :=
  ⟨Mod.sameBut_mono (m.raise_sameBut _ _ _ _ _ _) (by decide), fun _ _ => rfl, m.mem_raise_evIn _ _ _ _ _ _, rfl, id, ⟨rfl, rfl⟩, ⟨id, id⟩⟩

/-- A step of the security engine that keeps keys and unlock. -/
theorem Mod.sec_booted (m : Mod) (u : SecUnit) (h1 : u.keys = m.sec.keys ∧ u.unlock = m.sec.unlock) (h2 : m.sec.keysDue = [] → u.keysDue = [])
    (h3 : m.sec.session = none → u.session = none) : Mod.bootKept m { m with sec := u } :=
  ⟨Mod.sameBut_mono (m.sameBut_sec u) (by decide), fun _ _ => rfl, fun _ h => h, rfl, id, h1, ⟨h2, h3⟩⟩

theorem Mod.setBudget_booted (m : Mod) : Mod.bootKept m m.setBudget :=
  .of m.setBudget_sameBut (by decide) fun f hf => Mod.regsKeep_fget m.setBudget_regsKeep f 0 0 (by rw [hf]; decide)

/-! ### Memories -/

theorem Mod.hbmTo_booted (m : Mod) (a b : Nat) : Mod.bootKept m (m.hbmTo a b) := by
  refine .of (m.hbmTo_sameBut a b) (by decide) fun f hf => m.hbmTo_fget a b f 0 0 fun k => ?_
  rw [hf]
  simp only [RegSpec.addr, Reg.PWR_RESET_CAUSE, Reg.HBM_STACK_STATUS]
  omega

theorem Mod.stackSet_booted (m : Mod) (v i : Nat) : Mod.bootKept m (m.fset Fld.HBM_STACK_STATUS_STATE v i) := by
  refine m.fset_booted _ _ _ _ ?_
  simp only [RegSpec.addr, Fld.HBM_STACK_STATUS_STATE, Reg.PWR_RESET_CAUSE, Reg.HBM_STACK_STATUS]
  omega

theorem Mod.stackDown_booted (m : Mod) (i cause : Nat) : Mod.bootKept m (m.stackDown i cause) := (m.stackSet_booted 4 i).trans (Mod.raise_booted _ _ _ _ _ _ _)

theorem loftStatus_apart (c : Nat) : Reg.PWR_RESET_CAUSE.base ≠ Reg.LFT_PORT_STATUS.addr c 0 ∧ Reg.PWR_RESET_CAUSE.base ≠ Reg.LFT_PORT_CAP_LO.addr c 0
    ∧ Reg.PWR_RESET_CAUSE.base ≠ Reg.LFT_PORT_CAP_HI.addr c 0 := by
  simp only [RegSpec.addr, Reg.PWR_RESET_CAUSE, Reg.LFT_PORT_STATUS, Reg.LFT_PORT_CAP_LO, Reg.LFT_PORT_CAP_HI]
  omega

theorem Mod.loftReport_booted (m : Mod) (c st width speed : Nat) : Mod.bootKept m (m.loftReport c st width speed) := by
  obtain ⟨h, -, -⟩ := loftStatus_apart c
  exact ((m.fset_booted Fld.LFT_PORT_STATUS_STATE st c 0 h).trans (Mod.fset_booted _ Fld.LFT_PORT_STATUS_WIDTH width c 0 h)).trans
    (Mod.fset_booted _ Fld.LFT_PORT_STATUS_SPEED speed c 0 h)

theorem Mod.loftCap_booted (m : Mod) (v c : Nat) : Mod.bootKept m (m.set64 Fld.LFT_PORT_CAP_LO_BYTES Fld.LFT_PORT_CAP_HI_BYTES v c) := by
  obtain ⟨-, hlo, hhi⟩ := loftStatus_apart c
  exact (m.fset_booted Fld.LFT_PORT_CAP_LO_BYTES v c 0 hlo).trans (Mod.fset_booted _ Fld.LFT_PORT_CAP_HI_BYTES (v / 2 ^ 32) c 0 hhi)

theorem Mod.sameBut_mem (m : Mod) (x : MemUnit) : Mod.sameBut [.mem] m { m with mem := x } := by
  constructor <;> intro hp
  case mem => exact (hp (by decide)).elim
  all_goals rfl

/-- Loft ports that hold nothing. -/
theorem Mod.loftPorts_booted (m : Mod) (ports : Kv LoftPort) (h : (∀ c, (m.loftPort c).held = []) → ∀ c, (kvGetD ports c .none).held = []) :
    Mod.bootKept m { m with mem := { m.mem with loftPorts := ports } } :=
  ⟨Mod.sameBut_mono (m.sameBut_mem _) (by decide), fun _ _ => rfl, fun _ h => h, rfl, h, ⟨rfl, rfl⟩, ⟨id, id⟩⟩

theorem Mod.setLoftPort_booted (m : Mod) (c : Nat) {p : LoftPort} (hp : p.held = []) : Mod.bootKept m (m.setLoftPort c p) := by
  refine m.loftPorts_booted _ fun h d => ?_
  by_cases hd : d = c
  · rw [hd, kvGetD_kvSet_same, hp]
  · rw [kvGetD_kvSet_other _ _ _ hd]
    exact h d

theorem Mod.loftAttach_booted {m : Mod} (h : m.unloaded) (c cap w s : Nat) (ok : Bool) : Mod.bootKept m (m.loftAttach c cap w s ok) := by
  have hheld : m.heldEnd (m.loftPort c).held = m := by rw [h.held c]; rfl
  cases hd : m.loftDisabled c
  · rw [m.loftAttach_eq c hd, hheld]
    split
    · exact ((m.setLoftPort_booted c rfl).trans (Mod.loftCap_booted _ _ _)).trans (Mod.loftReport_booted _ _ _ _ _)
    · split
      · exact ((m.setLoftPort_booted c rfl).trans (Mod.loftCap_booted _ _ _)).trans (Mod.loftReport_booted _ _ _ _ _)
      · exact (m.setLoftPort_booted c rfl).trans (Mod.loftReport_booted _ _ _ _ _)
  · have he : m.loftAttach c cap w s ok = m := by
      rw [Mod.loftAttach]
      dsimp only
      rw [hheld, if_pos hd]
    rw [he]
    exact .refl m

theorem Mod.loftDueAll_booted (h : m.unloaded) : Mod.bootKept m m.loftDueAll := by
  refine Mod.bootKept.foldl (fun x c hx => ?_) _ m h
  split
  · exact Mod.loftAttach_booted hx _ _ _ _ _
  · exact .refl x

theorem Mod.train_booted (h : m.unloaded) (boot : Boot) : Mod.bootKept m (m.train boot) := by
  have h1 : ∀ x : Mod, x.unloaded → Mod.bootKept x ((List.range 12).foldl (fun (x : Mod) i =>
      if boot.stackFail.contains i then x.stackDown i 0 else x.fset Fld.HBM_STACK_STATUS_STATE 2 i) x) := by
    refine Mod.bootKept.foldl (fun x i _ => ?_) _
    split
    · exact x.stackDown_booted i 0
    · exact x.stackSet_booted 2 i
  unfold Mod.train
  have hk1 := h1 m h
  generalize (List.range 12).foldl (fun (x : Mod) i => if boot.stackFail.contains i then x.stackDown i 0 else x.fset Fld.HBM_STACK_STATUS_STATE 2 i) m = a at hk1 ⊢
  have hk2 := hk1.trans (a.loftPorts_booted [] fun _ _ => rfl)
  dsimp only
  generalize ({ a with mem := { a.mem with loftPorts := [] } } : Mod) = b at hk2 ⊢
  have hk3 := Mod.bootKept.foldl (f := fun (x : Mod) c => if x.loftDisabled c then x else x.loftReport c 1 0 0) (fun x c _ => by
    split
    · exact .refl x
    · exact x.loftReport_booted _ _ _ _) (List.range 4) b (hk2.unloaded h)
  generalize (List.range 4).foldl (fun (x : Mod) c => if x.loftDisabled c then x else x.loftReport c 1 0 0) b = d at hk3 ⊢
  refine (hk2.trans hk3).trans (Mod.bootKept.foldl (fun x e hx => ?_) _ d ((hk2.trans hk3).unloaded h))
  split
  · exact Mod.loftAttach_booted hx _ _ _ _ _
  · exact .refl x

/-! ### Cores -/

theorem Mod.fenceCore_booted (h : m.unloaded) (c cause : Nat) : Mod.bootKept m (m.fenceCore c cause) := by
  have hapart : Reg.PWR_RESET_CAUSE.base ≠ Reg.CORE_FENCE.addr c 0 := by
    simp only [RegSpec.addr, Reg.PWR_RESET_CAUSE, Reg.CORE_FENCE]
    omega
  unfold Mod.fenceCore
  split
  · exact .refl m
  · extract_lets m1 x _ m2
    have hk : Mod.bootKept m m1 := (m.fset_booted Fld.CORE_FENCE_FENCED 1 c 0 hapart).trans (Mod.fset_booted _ Fld.CORE_FENCE_CAUSE cause c 0 hapart)
    have hk2 : Mod.bootKept m1 m2 := .of (m1.setCore_sameBut c _) (by decide) fun _ _ => rfl
    have hnone : m.stableOf c = none := by rw [Mod.stableOf, Mod.plate?, h.plt]; rfl
    rw [hnone]
    exact hk.trans hk2

theorem Mod.selfTest_booted (h : m.unloaded) (boot : Boot) : Mod.bootKept m (m.selfTest boot) := by
  refine Mod.bootKept.foldl (fun x e hx => ?_) _ m h
  split
  · exact Mod.fenceCore_booted hx _ _
  · exact .refl x

/-! ### The boot chain -/

theorem Mod.setMark_booted (m : Mod) (i : Nat) (k : SlotMark) : Mod.bootKept m (m.setMark i k) := by
  have h : ∀ u : SecUnit, (u.setMark i k).keys = u.keys ∧ (u.setMark i k).unlock = u.unlock ∧ (u.setMark i k).keysDue = u.keysDue
      ∧ (u.setMark i k).session = u.session := fun u => by
    unfold SecUnit.setMark
    split <;> exact ⟨rfl, rfl, rfl, rfl⟩
  obtain ⟨h1, h2, h3, h4⟩ := h m.sec
  exact m.sec_booted _ ⟨h1, h2⟩ (fun h => h3.trans h) (fun h => h4.trans h)

theorem Mod.selectSlot_booted (boot : Boot) : ∀ (n : Nat) (m : Mod) (gone : Option Nat), Mod.bootKept m (Mod.selectSlot boot n m gone).1 := by
  intro n
  induction n with
  | zero => exact fun m _ => .refl m
  | succ n ih =>
    intro m gone
    have attempt : ∀ x i, Mod.bootKept m x →
        Mod.bootKept m (if x.slotBoots boot i then (x, some i, gone) else Mod.selectSlot boot n (x.setMark i .invalid) gone).1 := by
      intro x i hx
      split
      · exact hx
      · exact (hx.trans (x.setMark_booted i .invalid)).trans (ih _ _)
    rw [Mod.selectSlot]
    split
    · refine attempt _ _ ?_
      split
      · exact .refl m
      · exact m.setMark_booted _ _
    · split
      · exact (m.setMark_booted _ _).trans (ih _ _)
      · split
        · exact attempt _ _ (.refl m)
        · exact .refl m

theorem Mod.showSlot_booted (m : Mod) (slot : Option Nat) : Mod.bootKept m (m.showSlot slot) := by
  unfold Mod.showSlot
  extract_lets im least m1
  have h1 : Mod.bootKept m m1 := by
    refine Mod.bootKept.foldlAll (fun x c => x.fset_booted _ _ c 0 ?_) _ m
    simp only [RegSpec.addr, Fld.SEC_FW_VER_VERSION, Reg.PWR_RESET_CAUSE, Reg.SEC_FW_VER]
    omega
  clear_value m1
  exact ((h1.trans (m1.fset_booted Fld.SEC_FW_BUNDLE_BUNDLE _ 0 0 (by decide))).trans (Mod.fset_booted _ Fld.SEC_SVN_SLOT_MIN _ 0 0 (by decide))).trans
    (Mod.fset_booted _ Fld.SEC_STATUS_SLOT _ 0 0 (by decide))

theorem Mod.keyLow_booted (m : Mod) : Mod.bootKept m m.keyLow := by
  unfold Mod.keyLow
  dsimp only
  split
  · exact (m.sec_booted { m.sec with keyLowRaised := true } ⟨rfl, rfl⟩ id id).trans (Mod.raise_booted _ _ _ _ _ _ _)
  · exact .refl m

theorem Mod.counterCheck_booted (m : Mod) (bad : Bool) : Mod.bootKept m (m.counterCheck bad) := by
  unfold Mod.counterCheck
  split
  · extract_lets old next m1
    have h1 : Mod.bootKept m m1 := (m.fset_booted Fld.SEC_ATT_NEXT_NEXT next 0 0 (by decide)).trans (Mod.fset_booted _ Fld.SEC_ERR_COUNTER_SKIP 1 0 0 (by decide))
    clear_value m1
    exact ((h1.trans (m1.sec_booted { m1.sec with counterOpen := false } ⟨rfl, rfl⟩ id id)).trans (Mod.raise_booted _ _ _ _ _ _ _)).trans (Mod.keyLow_booted _)
  · exact .refl m

theorem Mod.setMeas_booted (m : Mod) (r : Nat) (v : List Byte) : Mod.bootKept m (m.setMeas r v) :=
  .of (m.setMeas_sameBut r v) (by decide) fun f hf => Mod.regsKeep_fget (m.setMeas_regsKeep r v) f 0 0 (by
    rw [hf]
    simp only [List.mem_map, not_exists, not_and, RegSpec.addr, Reg.PWR_RESET_CAUSE, Reg.SEC_MEAS]
    omega)

theorem Mod.extend_booted (m : Mod) (r kind : Nat) (d : List Byte) : Mod.bootKept m (m.extend r kind d) := by
  unfold Mod.extend
  extract_lets m1
  have h1 : Mod.bootKept m m1 := m.setMeas_booted _ _
  clear_value m1
  exact h1.trans (m1.sec_booted { m1.sec with log := m1.sec.log ++ [⟨r, kind, m.tick.count, d⟩] } ⟨rfl, rfl⟩ id id)

theorem Mod.measureBoot_booted (m : Mod) (slot : Option Nat) : Mod.bootKept m (m.measureBoot slot) := by
  unfold Mod.measureBoot
  extract_lets _ m1 m2 m3
  have h1 : Mod.bootKept m m1 := (m.sec_booted { m.sec with log := [] } ⟨rfl, rfl⟩ id id).trans
    (Mod.bootKept.foldlAll (fun x r => x.setMeas_booted r (List.replicate 32 0)) _ _)
  clear_value m1
  have h2 : Mod.bootKept m1 m2 := (m1.extend_booted _ _ _).trans (Mod.extend_booted _ _ _ _)
  clear_value m2
  have h3 : Mod.bootKept m2 m3 := by
    cases slot with
    | none => exact .refl m2
    | some i =>
      refine Mod.bootKept.foldlAll (fun x c => ?_) _ m2
      split
      · exact x.extend_booted _ _ _
      · exact .refl x
  clear_value m3
  exact ((h1.trans h2).trans h3).trans (m3.extend_booted _ _ _)

/-- The boot chain ends any session and drops keys that were due (R394, R405). -/
theorem Mod.bootChain_booted (m : Mod) (boot : Boot) : Mod.bootKept m (m.bootChain boot) ∧ (m.bootChain boot).sec.session = none := by
  unfold Mod.bootChain
  extract_lets _ u p trial m1 _ m2 m3
  have h0 : Mod.bootKept m { m with sec := u } := m.sec_booted u ⟨rfl, rfl⟩ (fun _ => rfl) (fun _ => rfl)
  have h1 : Mod.bootKept { m with sec := u } m1 := (((Mod.selectSlot_booted boot 8 { m with sec := u } none).trans (Mod.showSlot_booted _ _)).trans
    (Mod.counterCheck_booted _ _)).trans (Mod.measureBoot_booted _ _)
  have h2 : Mod.bootKept m1 m2 := (m1.sec_booted { m1.sec with recovery := p.2.1.isNone, window := trial } ⟨rfl, rfl⟩ id id).trans
    (Mod.fset_booted _ Fld.SEC_CONFIRM_SECONDS _ 0 0 (by decide))
  have h3 : Mod.bootKept m2 m3 := by
    change Mod.bootKept m2 (match p.2.2 with
      | some g => (m2.fset Fld.SEC_ERR_FALLBACK 1).raise .corrected 0x0F02 0 g (m2.fget Fld.SEC_FW_BUNDLE_BUNDLE)
      | none => m2)
    split
    · exact (m2.fset_booted Fld.SEC_ERR_FALLBACK 1 0 0 (by decide)).trans (Mod.raise_booted _ _ _ _ _ _ _)
    · exact .refl m2
  have h4 : Mod.bootKept m3 (if p.2.1.isNone then m3.raise .device 0x0F04 0 else m3) := by
    split
    · exact m3.raise_booted _ _ _ _ _ _
    · exact .refl m3
  have hrest := ((h1.trans h2).trans h3).trans h4
  exact ⟨h0.trans hrest, hrest.ended.2 rfl⟩

/-! ### The release of the host interface -/

theorem Mod.portsPower_booted (m : Mod) : Mod.bootKept m m.portsPower := by
  have hs := m.portsPower_sameBut
  have hfar := m.portsPower_spec.far
  have hcause : ∀ f : Fld, f.reg = Reg.PWR_RESET_CAUSE → m.portsPower.fget f = m.fget f := fun f hf => hfar f 0 0 (by rw [hf]; simp only [offFabric]; decide)
  have hev : ∀ (ks : List Nat) (x : Mod), ∀ r ∈ x.evIn, r ∈ (ks.foldl (fun (x : Mod) p => if (x.port p).st = .disabled then x else x.portTo p .down 11) x).evIn := by
    intro ks
    induction ks with
    | nil => exact fun x r h => h
    | cons k ks ih =>
      intro x r h
      refine ih _ r ?_
      dsimp only
      split
      · exact h
      · next hd => exact (x.portTo_moved k (by decide) hd).events r h
  exact ⟨Mod.sameBut_mono hs (by decide), hcause, hev _ m, by rw [hs.mem (by decide)], fun h c => by rw [Mod.loftPort, hs.mem (by decide)]; exact h c,
    by rw [hs.sec (by decide)]; exact ⟨rfl, rfl⟩, by rw [hs.sec (by decide)]; exact ⟨id, id⟩⟩

theorem Mod.freeze_booted (h : m.unloaded) : Mod.bootKept m m.freeze := by
  unfold Mod.freeze
  extract_lets _ m1 m2 m3
  have h1 : Mod.bootKept m m1 := .of (m.sameBut_dbg _) (by decide) fun _ _ => rfl
  have h2 : Mod.bootKept m1 m2 := ((m1.fset_booted Fld.DBG_FRZ_TICK_LO_TICK _ 0 0 (by decide)).trans (Mod.fset_booted _ Fld.DBG_FRZ_TICK_HI_TICK _ 0 0 (by decide))).trans
    (Mod.fset_booted _ Fld.DBG_FRZ_CYCLE_CYCLE _ 0 0 (by decide))
  have hu := (h1.trans h2).unloaded h
  have h3 : Mod.bootKept m2 m3 := by
    have he : m2.cancelActivation = m2 := if_neg (by rw [hu.plt]; decide)
    change Mod.bootKept m2 m2.cancelActivation.portsPower
    rw [he]
    exact m2.portsPower_booted
  split
  · exact (h1.trans h2).trans h3
  · exact ((h1.trans h2).trans h3).trans (m3.hbmTo_booted 2 3)

/-- The module whose host interface is released: READY and IDLE, or in SLEEP where it was found there. -/
def Mod.opened (m : Mod) : Mod :=
  { m with pwr := { m.pwr with ready := true, started := true, state := if m.pwr.state = .sleep then .sleep else .idle } }

theorem Mod.release_booted (h : m.unloaded) : Mod.bootKept m.opened m.release := by
  have he : m.release = m.opened.freezePin := rfl
  have hu : m.opened.unloaded := ⟨h.plt, h.held⟩
  rw [he, Mod.freezePin]
  split
  · exact Mod.freeze_booted hu
  · exact .refl _

end

end Sys2Proof.Machine
end

section
/-! PROOF. What the soft, fundamental and cold resets leave (17_power_reset.md R434, R438, R441 to R443, R449, R450, Table 17-7). -/

namespace Sys2Proof.Machine

section
variable {k m : Mod}

/-! ### Parts cleared -/

theorem Mod.cleared.of {ps : List Part} {n : Mod} (h : k.cleared m) (hs : Mod.sameBut ps m n)
    (hp : ∀ p ∈ ps, p ∈ [Part.regs, .evIn, .host, .pwr, .tick, .cores, .fab, .dbg]) : k.cleared n := by
  have hk : Mod.sameBut [.regs, .evIn, .host, .pwr, .tick, .cores, .fab, .dbg] m n := Mod.sameBut_mono hs hp
  refine ⟨(hk.plt (by decide)).trans h.plt, (hk.step (by decide)).trans h.step, (hk.sched (by decide)).trans h.sched, (hk.pool (by decide)).trans h.pool,
    (hk.pad (by decide)).trans h.pad, (hk.stm (by decide)).trans h.stm, (hk.groom (by decide)).trans h.groom, (hk.coll (by decide)).trans h.coll,
    (hk.chk (by decide)).trans h.chk, ?_, ?_⟩
  · rw [hk.sec (by decide)]
    exact h.keys
  · rw [hk.mem (by decide)]
    exact h.mem

theorem Mod.bootKept.cleared {n : Mod} (hb : Mod.bootKept m n) (h : k.cleared m) : k.cleared n := by
  obtain ⟨hkeys, hdue, hses⟩ := h.keys
  have hs := hb.same
  refine ⟨(hs.plt (by decide)).trans h.plt, (hs.step (by decide)).trans h.step, (hs.sched (by decide)).trans h.sched, (hs.pool (by decide)).trans h.pool,
    (hs.pad (by decide)).trans h.pad, (hs.stm (by decide)).trans h.stm, (hs.groom (by decide)).trans h.groom, (hs.coll (by decide)).trans h.coll,
    (hs.chk (by decide)).trans h.chk, ⟨hb.keys.1.trans hkeys, hb.ended.1 hdue, hb.ended.2 hses⟩, ?_⟩
  rw [hb.memory]
  exact h.mem

theorem Mod.unloaded.of {ps : List Part} {n : Mod} (h : m.unloaded) (hs : Mod.sameBut ps m n) (hp : (ps.contains .plt || ps.contains .mem) = false) : n.unloaded := by
  simp only [Bool.or_eq_false_iff, List.contains_eq_mem, decide_eq_false_iff_not] at hp
  obtain ⟨hplt, hmem⟩ := hp
  refine ⟨(hs.plt hplt).trans h.plt, fun c => ?_⟩
  rw [Mod.loftPort, hs.mem hmem]
  exact h.held c

/-- Loft ports with their held accesses dropped hold nothing. -/
theorem held_dropped (ports : Kv LoftPort) (c : Nat) : (kvGetD (ports.map fun (e : Nat × LoftPort) => (e.1, { e.2 with held := [] })) c .none).held = [] := by
  induction ports with
  | nil => rfl
  | cons e ports ih =>
    rw [List.map_cons, kvGetD, kvGet?]
    split
    · rfl
    · exact ih

/-- Every unit outside MG cleared (R54, R450). -/
theorem Mod.clearUnits_spec (hm : m.mem = k.mem) : k.cleared m.clearUnits ∧ m.clearUnits.unloaded ∧ m.clearUnits.pwr = { m.pwr with ready := false, idleCount := 0 }
    ∧ m.clearUnits.tick = m.tick.softReset ∧ m.clearUnits.sec.unlock = m.sec.unlock := by
  refine ⟨⟨rfl, rfl, rfl, rfl, rfl, rfl, rfl, rfl, rfl, ⟨rfl, rfl, rfl⟩, ?_⟩, ⟨rfl, fun c => held_dropped m.mem.loftPorts c⟩, rfl, rfl, rfl⟩
  rw [← hm]
  exact ⟨rfl, rfl, rfl, rfl⟩

/-! ### The end of a start-up -/

/-- What the release of the host interface leaves of a cleared module. -/
theorem Mod.release_spec (hc : k.cleared m) (hu : m.unloaded) : k.cleared m.release ∧ Mod.bootKept m.opened m.release ∧ m.release.pwr = m.opened.pwr := by
  have hb := Mod.release_booted hu
  exact ⟨hb.cleared ⟨hc.plt, hc.step, hc.sched, hc.pool, hc.pad, hc.stm, hc.groom, hc.coll, hc.chk, hc.keys, hc.mem⟩, hb, hb.same.pwr (by decide)⟩

/-- `n` is the module `m` started: the parts cleared at a reset of `k` stand, the record of the reset too, the host interface is released. -/
structure Mod.startedFrom (k m n : Mod) : Prop where
  cleared : k.cleared n
  ready : n.pwr.ready = true
  state : n.pwr.state = if m.pwr.state = .sleep then .sleep else .idle
  tick : n.tick = m.tick
  host : n.host = m.host
  unlock : n.sec.unlock = m.sec.unlock
  cause : ∀ f : Fld, f.reg = Reg.PWR_RESET_CAUSE → n.fget f = m.fget f

/-- Steps of a start-up, then the release. -/
theorem Mod.startedFrom_of {b : Mod} (hc : k.cleared m) (hu : m.unloaded) (hb : Mod.bootKept m b) : Mod.startedFrom k m b.release := by
  obtain ⟨hcl, hrel, hpwr⟩ := Mod.release_spec (hb.cleared hc) (hb.unloaded hu)
  refine ⟨hcl, by rw [hpwr]; rfl, ?_, (hrel.same.tick (by decide)).trans (hb.same.tick (by decide)), (hrel.same.host (by decide)).trans (hb.same.host (by decide)),
    hrel.keys.2.trans hb.keys.2, fun f hf => (hrel.cause f hf).trans (hb.cause f hf)⟩
  rw [hpwr, ← hb.same.pwr (by decide)]
  rfl

/-! ### The soft reset -/

theorem Mod.softBegin_spec (m : Mod) : m.cleared m.softBegin ∧ m.softBegin.unloaded ∧ m.softBegin.pwr = { m.pwr with ready := false, idleCount := 0 }
    ∧ m.softBegin.tick = m.tick.softReset ∧ m.softBegin.host = { m.host with doe := ⟨none, false⟩, coalOpen := [], coalDue := [], verdictDue := false } := by
  unfold Mod.softBegin
  have hp := Mod.portsPower_sameBut { m with regs := m.regs.softReset }
  extract_lets m1
  have h1 : Mod.sameBut [.regs, .evIn, .fab, .dbg] m m1 := Mod.sameBut_trans (Mod.sameBut_mono (m.sameBut_regs _) (by decide)) hp
  clear_value m1
  have hh := m1.hostReset_sameBut
  have hhost : m1.hostReset.host = { m1.host with doe := ⟨none, false⟩, coalOpen := [], coalDue := [], verdictDue := false } := rfl
  generalize m1.hostReset = x at hh hhost ⊢
  obtain ⟨hc, hu, hpwr, htick, -⟩ := Mod.clearUnits_spec (k := m) (m := x) ((hh.mem (by decide)).trans (h1.mem (by decide)))
  have hx := x.clearUnits_sameBut
  refine ⟨hc, hu, ?_, ?_, ?_⟩
  · rw [hpwr, hh.pwr (by decide), h1.pwr (by decide)]
  · rw [htick, hh.tick (by decide), h1.tick (by decide)]
  · rw [hx.host (by decide), hhost, h1.host (by decide)]

/-- A soft reset that the module takes. -/
theorem Mod.softReset_spec (h1 : m.mgUp = true) (h2 : m.pwr.ready = true) {source : Nat} (hs : source < 256) (boot : Boot) {n : Mod} (hn : m.softReset source boot = n) :
    m.cleared n ∧ n.pwr.ready = true ∧ n.pwr.state = (if m.pwr.state = .sleep then .sleep else .idle) ∧ n.tick.count = 0
    ∧ n.host = { m.host with doe := ⟨none, false⟩, coalOpen := [], coalDue := [], verdictDue := false }
    ∧ n.fget Fld.PWR_RESET_CAUSE_KIND = 3 ∧ n.fget Fld.PWR_RESET_CAUSE_SOURCE = source := by
  rw [Mod.softReset, if_pos (by rw [h1, h2]; rfl)] at hn
  obtain ⟨hc, hu, hpwr, htick, hhost⟩ := m.softBegin_spec
  generalize m.softBegin = a at hc hu hpwr htick hhost hn
  extract_lets b at hn
  have hb : Mod.bootKept a b := by
    change Mod.bootKept a (if _ then _ else _)
    split
    · exact .refl a
    · exact a.hbmTo_booted 3 2
  clear_value b
  have hd := hb.trans (Mod.loftDueAll_booted (hb.unloaded hu))
  generalize b.loftDueAll = d at hd hn
  obtain ⟨hkind, hsource, -⟩ := d.resetCause_spec (kind := 3) (by decide) hs
  have hcs := d.resetCause_sameBut 3 source
  generalize d.resetCause 3 source = e at hkind hsource hcs hn
  obtain ⟨hst, -⟩ := e.bootChain_booted boot
  have h := Mod.startedFrom_of ((hd.cleared hc).of hcs (by decide)) ((hd.unloaded hu).of hcs rfl) hst
  rw [hn] at h
  refine ⟨h.cleared, h.ready, ?_, ?_, ?_, (h.cause _ rfl).trans hkind, (h.cause _ rfl).trans hsource⟩
  · rw [h.state, hcs.pwr (by decide), hd.same.pwr (by decide), hpwr]
  · rw [h.tick, hcs.tick (by decide), hd.same.tick (by decide), htick]
    rfl
  · rw [h.host, hcs.host (by decide), hd.same.host (by decide), hhost]

/-! ### The fundamental reset -/

/-- What a fundamental reset holds before its training. -/
structure Mod.heldReset (m n : Mod) (source : Nat) : Prop where
  cleared : m.cleared n
  unloaded : n.unloaded
  pwr : n.pwr = { m.pwr with ready := false, idleCount := 0, state := .idle, bmcWake := false }
  host : n.host.linkUp = false ∧ n.host.msixEnable = false ∧ n.host.entries = []
  unlock : n.sec.unlock = 0
  profile : n.fget Fld.PWR_PROFILE_REQ = m.fget Fld.PWR_DEFAULT_PROFILE
  kind : n.fget Fld.PWR_RESET_CAUSE_KIND = 2
  source : n.fget Fld.PWR_RESET_CAUSE_SOURCE = source

/-- The host port and the power unit as a fundamental reset leaves them. -/
def Mod.hostPortLost (m : Mod) : Mod :=
  { m with host := { m.host with linkUp := false, bar2Log2 := 30, aer := [], aerHead := none }, pwr := { m.pwr with state := .idle, bmcWake := false } }

theorem Mod.hostPortLost_sameBut (m : Mod) : Mod.sameBut [.host, .pwr] m m.hostPortLost :=
  Mod.sameBut_trans (Mod.sameBut_mono (m.sameBut_host { m.host with linkUp := false, bar2Log2 := 30, aer := [], aerHead := none }) (by decide))
    (Mod.sameBut_mono (Mod.sameBut_pwr { m with host := { m.host with linkUp := false, bar2Log2 := 30, aer := [], aerHead := none } } _) (by decide))

theorem Mod.fundamentalBegin_eq (m : Mod) (source : Nat) :
    m.fundamentalBegin source = Mod.resetCause (m.fundamentalRegs.portsPower.hostReset.msixReset.clearUnits.unlockLost).hostPortLost 2 source := rfl

theorem Mod.fundamentalRegs_profile (m : Mod) : m.fundamentalRegs.fget Fld.PWR_PROFILE_REQ = m.fget Fld.PWR_DEFAULT_PROFILE := by
  rw [Mod.fundamentalRegs, Mod.fget_fset_same _ _ _ _ _ (by decide)]
  exact Nat.mod_eq_of_lt (m.fget_lt Fld.PWR_DEFAULT_PROFILE 0 0)

theorem Mod.fundamentalBegin_spec (m : Mod) {source : Nat} (hs : source < 256) : Mod.heldReset m (m.fundamentalBegin source) source := by
  rw [Mod.fundamentalBegin_eq]
  have hr := m.fundamentalRegs_sameBut
  have hprof := m.fundamentalRegs_profile
  generalize m.fundamentalRegs = a at hr hprof ⊢
  have hp := a.portsPower_sameBut
  have hpf : a.portsPower.fget Fld.PWR_PROFILE_REQ = a.fget Fld.PWR_PROFILE_REQ := a.portsPower_spec.far _ 0 0 (by simp only [offFabric]; decide)
  generalize a.portsPower = b at hp hpf ⊢
  have hhx : Mod.sameBut [.host] b b.hostReset.msixReset := Mod.sameBut_trans b.hostReset_sameBut b.hostReset.msixReset_sameBut
  have hhost : b.hostReset.msixReset.host.msixEnable = false ∧ b.hostReset.msixReset.host.entries = [] := ⟨rfl, rfl⟩
  generalize b.hostReset.msixReset = c at hhx hhost ⊢
  have hmem : c.mem = m.mem := by rw [hhx.mem (by decide), hp.mem (by decide), hr.mem (by decide)]
  obtain ⟨hc, hu, hpwr, -, -⟩ := Mod.clearUnits_spec (k := m) (m := c) hmem
  have hcs := c.clearUnits_sameBut
  generalize c.clearUnits = d at hc hu hpwr hcs ⊢
  have hkeys : d.unlockLost.sec.keys = d.sec.keys ∧ d.unlockLost.sec.keysDue = d.sec.keysDue ∧ d.unlockLost.sec.session = d.sec.session
      ∧ d.unlockLost.sec.unlock = 0 := ⟨rfl, rfl, rfl, rfl⟩
  have hds : Mod.sameBut [.sec] d d.unlockLost := d.sameBut_sec _
  generalize d.unlockLost = e at hkeys hds ⊢
  have hes := e.hostPortLost_sameBut
  have hel : e.hostPortLost.host.linkUp = false ∧ e.hostPortLost.host.msixEnable = e.host.msixEnable ∧ e.hostPortLost.host.entries = e.host.entries := ⟨rfl, rfl, rfl⟩
  have hepwr : e.hostPortLost.pwr = { e.pwr with state := .idle, bmcWake := false } := rfl
  generalize e.hostPortLost = f at hes hel hepwr ⊢
  obtain ⟨hkind, hsource, hck⟩ := f.resetCause_spec (kind := 2) (by decide) hs
  have hfs := f.resetCause_sameBut 2 source
  generalize f.resetCause 2 source = n at hkind hsource hck hfs ⊢
  have hen : Mod.sameBut [.regs, .host, .pwr] e n := Mod.sameBut_trans (Mod.sameBut_mono hes (by decide)) (Mod.sameBut_mono hfs (by decide))
  have hdn : Mod.sameBut [.regs, .host, .pwr, .sec] d n := Mod.sameBut_trans (Mod.sameBut_mono hds (by decide)) (Mod.sameBut_mono hen (by decide))
  obtain ⟨k1, k2, k3, k4⟩ := hkeys
  obtain ⟨l1, l2, l3⟩ := hc.keys
  refine ⟨⟨?_, ?_, ?_, ?_, ?_, ?_, ?_, ?_, ?_, ?_, ?_⟩, hu.of hdn rfl, ?_, ?_, ?_, ?_, hkind, hsource⟩
  · rw [hdn.plt (by decide), hc.plt]
  · rw [hdn.step (by decide), hc.step]
  · rw [hdn.sched (by decide), hc.sched]
  · rw [hdn.pool (by decide), hc.pool]
  · rw [hdn.pad (by decide), hc.pad]
  · rw [hdn.stm (by decide), hc.stm]
  · rw [hdn.groom (by decide), hc.groom]
  · rw [hdn.coll (by decide), hc.coll]
  · rw [hdn.chk (by decide), hc.chk]
  · rw [hen.sec (by decide)]
    exact ⟨k1.trans l1, k2.trans l2, k3.trans l3⟩
  · rw [hdn.mem (by decide)]
    exact hc.mem
  · rw [hfs.pwr (by decide), hepwr, hds.pwr (by decide), hpwr, hhx.pwr (by decide), hp.pwr (by decide), hr.pwr (by decide)]
  · obtain ⟨h1, h2, h3⟩ := hel
    rw [hfs.host (by decide)]
    rw [hds.host (by decide), hcs.host (by decide)] at h2 h3
    exact ⟨h1, h2.trans hhost.1, h3.trans hhost.2⟩
  · rw [hen.sec (by decide), k4]
  · have hregs : f.regs = b.regs := by
      rw [hes.regs (by decide), hds.regs (by decide), hcs.regs (by decide), hhx.regs (by decide)]
    rw [Mod.regsKeep_fget hck _ 0 0 (by decide), Mod.fget, hregs, ← Mod.fget, hpf, hprof]

theorem Mod.runTick_sameBut (m : Mod) : Mod.sameBut [.tick] m { m with tick := { m.tick with running := true } } := m.sameBut_tick _

/-- The end of a fundamental reset of a cleared module. -/
theorem Mod.fundamentalEnd_started (hc : k.cleared m) (hu : m.unloaded) (boot : Boot) :
    Mod.startedFrom k { m with tick := { m.tick with running := true } } (m.fundamentalEnd boot) := by
  unfold Mod.fundamentalEnd
  have ht := m.runTick_sameBut
  generalize ({ m with tick := { m.tick with running := true } } : Mod) = a at ht ⊢
  have hua := hu.of ht rfl
  have h1 := a.setBudget_booted
  have h2 := h1.trans (Mod.train_booted (h1.unloaded hua) boot)
  exact Mod.startedFrom_of (hc.of ht (by decide)) hua (h2.trans (Mod.bootChain_booted _ boot).1)

/-- The end of any fundamental reset: power, tick and session. -/
theorem Mod.fundamentalEnd_spec (m : Mod) (boot : Boot) : (m.fundamentalEnd boot).pwr = m.opened.pwr ∧ (m.fundamentalEnd boot).tick.running = true
    ∧ (m.fundamentalEnd boot).sec.session = none := by
  unfold Mod.fundamentalEnd
  have ht := m.runTick_sameBut
  have hrun : ({ m with tick := { m.tick with running := true } } : Mod).tick.running = true := rfl
  generalize ({ m with tick := { m.tick with running := true } } : Mod) = a at ht hrun ⊢
  have h1 := a.setBudget_sameBut
  generalize a.setBudget = b at h1 ⊢
  have h2 := b.train_sameBut boot
  generalize b.train boot = c at h2 ⊢
  have h3 := c.bootChain_sameBut boot
  have hs := (c.bootChain_booted boot).2
  generalize c.bootChain boot = d at h3 hs ⊢
  have h4 := d.opened.freezePin_sameBut
  have hdo : d.release = d.opened.freezePin := rfl
  have hsec : d.opened.sec = d.sec := rfl
  have htk : d.opened.tick = d.tick := rfl
  rw [hdo]
  refine ⟨?_, ?_, ?_⟩
  · have hp : d.pwr = m.pwr := by rw [h3.pwr (by decide), h2.pwr (by decide), h1.pwr (by decide), ht.pwr (by decide)]
    rw [h4.pwr (by decide), Mod.opened, Mod.opened, hp]
  · rw [h4.tick (by decide), htk, h3.tick (by decide), h2.tick (by decide), h1.tick (by decide), hrun]
  · rw [h4.sec (by decide), hsec, hs]

end

end Sys2Proof.Machine
end

section
/-! PROOF. The statement of the resets: cold resets and the commands (14_host_interface.md R366; 16_security_and_update.md R419; 17_power_reset.md R424, R434,
R438, R440 to R443, R449, R450). -/

namespace Sys2Proof.Machine

section
variable {m : Mod}

/-! ### The cold reset -/

/-- The module as a cold reset clears it. -/
def Mod.coldCleared (m : Mod) : Mod :=
  let sec := { m.sec with log := [], keys := [], keysDue := [], unlock := 0, unlockTimed := false, session := none, recovery := false, testsOk := false, proofOk := false, window := false }
  { m with
    regs := m.regs.defaults 4, evIn := []
    host := { HostUnit.reset with out := m.host.out, sbAddr := m.host.sbAddr }
    pwr := { PwrUnit.reset with perst := m.pwr.perst, trip := m.pwr.trip, prior := m.pwr.prior }
    tick := .reset, plt := ⟨.empty, .empty, none, none, [], [], []⟩, sched := ⟨[], [], [], []⟩, cores := [], step := .reset
    mem := ⟨m.mem.hbm.forget, m.mem.loft.forget, m.mem.sram.forget, m.mem.acc.forget, []⟩
    pool := ⟨[], [], [], []⟩, pad := ⟨[], [], 0, 0⟩, stm := ⟨[], []⟩, groom := ⟨[], [], []⟩, coll := ⟨[], [], [], [], false⟩
    chk := ⟨[], []⟩, fab := .reset, sec := sec, dbg := { DbgUnit.reset with frzPin := m.dbg.frzPin } }

theorem Mod.coldBegin_eq (m : Mod) (source : Nat) :
    m.coldBegin source = Mod.resetCause (m.coldCleared.fset Fld.PWR_PROFILE_REQ (m.coldCleared.fget Fld.PWR_DEFAULT_PROFILE)) 1 source := rfl

/-- What the beginning of a cold reset leaves. -/
structure Mod.coldHeld (m n : Mod) (source : Nat) : Prop where
  cleared : m.cleared n
  unloaded : n.unloaded
  evIn : n.evIn = []
  pwr : n.pwr = { PwrUnit.reset with perst := m.pwr.perst, trip := m.pwr.trip, prior := m.pwr.prior }
  host : n.host = { HostUnit.reset with out := m.host.out, sbAddr := m.host.sbAddr }
  tick : n.tick = .reset
  unlock : n.sec.unlock = 0
  kind : n.fget Fld.PWR_RESET_CAUSE_KIND = 1
  source : n.fget Fld.PWR_RESET_CAUSE_SOURCE = source

theorem Mod.coldBegin_spec (m : Mod) {source : Nat} (hs : source < 256) : Mod.coldHeld m (m.coldBegin source) source := by
  rw [Mod.coldBegin_eq]
  have hc : m.cleared m.coldCleared := ⟨rfl, rfl, rfl, rfl, rfl, rfl, rfl, rfl, rfl, ⟨rfl, rfl, rfl⟩, ⟨rfl, rfl, rfl, rfl⟩⟩
  have hu : m.coldCleared.unloaded := ⟨rfl, fun _ => rfl⟩
  have hev : m.coldCleared.evIn = [] := rfl
  have hpwr : m.coldCleared.pwr = { PwrUnit.reset with perst := m.pwr.perst, trip := m.pwr.trip, prior := m.pwr.prior } := rfl
  have hhost : m.coldCleared.host = { HostUnit.reset with out := m.host.out, sbAddr := m.host.sbAddr } := rfl
  have htick : m.coldCleared.tick = .reset := rfl
  have hunlock : m.coldCleared.sec.unlock = 0 := rfl
  generalize m.coldCleared = a at hc hu hev hpwr hhost htick hunlock ⊢
  have hf := a.fset_sameBut Fld.PWR_PROFILE_REQ (a.fget Fld.PWR_DEFAULT_PROFILE) 0 0
  generalize a.fset Fld.PWR_PROFILE_REQ (a.fget Fld.PWR_DEFAULT_PROFILE) = b at hf ⊢
  obtain ⟨hkind, hsource, -⟩ := b.resetCause_spec (kind := 1) (by decide) hs
  have hs2 := Mod.sameBut_trans hf (b.resetCause_sameBut 1 source)
  exact ⟨hc.of hs2 (by decide), hu.of hs2 rfl, (hs2.evIn (by decide)).trans hev, (hs2.pwr (by decide)).trans hpwr, (hs2.host (by decide)).trans hhost,
    (hs2.tick (by decide)).trans htick, by rw [hs2.sec (by decide), hunlock], hkind, hsource⟩

/-- The events kept for a start-up are raised, at the tick that runs. -/
theorem Mod.raisePrior_spec (m : Mod) : (∀ r ∈ m.evIn, r ∈ m.raisePrior.evIn)
    ∧ (∀ r ∈ m.pwr.prior, { r with tick := m.tick.count, cycle := m.tick.cycle } ∈ m.raisePrior.evIn) ∧ m.raisePrior.pwr = { m.pwr with prior := [] } := by
  have key : ∀ (rs : List EvRec) (x : Mod), x.tick = m.tick → x.pwr = m.pwr →
      let y := rs.foldl (fun (x : Mod) r => { x with evIn := evInsert { r with tick := x.tick.count, cycle := x.tick.cycle } x.evIn }) x
      (∀ r ∈ x.evIn, r ∈ y.evIn) ∧ (∀ r ∈ rs, { r with tick := m.tick.count, cycle := m.tick.cycle } ∈ y.evIn) ∧ y.pwr = m.pwr := by
    intro rs
    induction rs with
    | nil => exact fun x _ hp => ⟨fun _ h => h, fun r h => (List.not_mem_nil h).elim, hp⟩
    | cons q rs ih =>
      intro x ht hp
      obtain ⟨h1, h2, h3⟩ := ih { x with evIn := evInsert { q with tick := x.tick.count, cycle := x.tick.cycle } x.evIn } ht hp
      refine ⟨fun r hr => h1 r ((mem_evInsert _ _ _).2 (.inr hr)), fun r hr => ?_, h3⟩
      rcases List.mem_cons.1 hr with rfl | hr
      · exact h1 _ ((mem_evInsert _ _ _).2 (.inl (by rw [ht])))
      · exact h2 r hr
  obtain ⟨h1, h2, h3⟩ := key m.pwr.prior m rfl rfl
  unfold Mod.raisePrior
  extract_lets m1
  exact ⟨h1, h2, congrArg (fun p : PwrUnit => { p with prior := [] }) h3⟩

/-- The supply is up, the tick runs and the straps are read (Table 17-5). -/
def Mod.poweredUp (m : Mod) (straps : Nat) : Mod :=
  { m with pwr := { m.pwr with powered := true, rails := true, trip := false }, tick := { m.tick with running := true },
           host := { m.host with sbAddr := 0x48 + straps % 4 } }

theorem Mod.coldEnd_eq (m : Mod) (boot : Boot) :
    m.coldEnd boot = (((((m.poweredUp boot.straps).setBudget.selfTest boot).train boot).bootChain boot).raisePrior).release := rfl

/-- What a cold reset ends with. -/
structure Mod.coldStarted (m n : Mod) (boot : Boot) : Prop where
  cleared : m.cleared n
  pwr : n.pwr = { PwrUnit.reset with powered := true, rails := true, ready := true, started := true, perst := m.pwr.perst }
  tick : n.tick = { TickUnit.reset with running := true }
  host : n.host = { HostUnit.reset with out := m.host.out, sbAddr := 0x48 + boot.straps % 4 }
  unlock : n.sec.unlock = 0
  prior : ∀ r ∈ m.pwr.prior, { r with tick := 0, cycle := 0 } ∈ n.evIn

theorem Mod.coldEnd_spec {a : Mod} {source : Nat} (h : Mod.coldHeld m a source) (boot : Boot) : Mod.coldStarted m (a.coldEnd boot) boot
    ∧ (a.coldEnd boot).fget Fld.PWR_RESET_CAUSE_KIND = 1 ∧ (a.coldEnd boot).fget Fld.PWR_RESET_CAUSE_SOURCE = source := by
  rw [Mod.coldEnd_eq]
  have hp : Mod.sameBut [.pwr, .tick, .host] a (a.poweredUp boot.straps) := by
    constructor <;> intro hp
    case pwr | tick | host => exact (hp (by decide)).elim
    all_goals rfl
  have hpwr : (a.poweredUp boot.straps).pwr = { a.pwr with powered := true, rails := true, trip := false } := rfl
  have htick : (a.poweredUp boot.straps).tick = { a.tick with running := true } := rfl
  have hhost : (a.poweredUp boot.straps).host = { a.host with sbAddr := 0x48 + boot.straps % 4 } := rfl
  generalize a.poweredUp boot.straps = b at hp hpwr htick hhost ⊢
  have hub := h.unloaded.of hp rfl
  have k1 := b.setBudget_booted
  have k2 := k1.trans (Mod.selfTest_booted (k1.unloaded hub) boot)
  have k3 := k2.trans (Mod.train_booted (k2.unloaded hub) boot)
  have k4 := k3.trans (Mod.bootChain_booted _ boot).1
  generalize ((b.setBudget.selfTest boot).train boot).bootChain boot = c at k4 ⊢
  obtain ⟨hold, hprior, hppwr⟩ := c.raisePrior_spec
  have hps := c.raisePrior_sameBut
  have hpcause : ∀ f : Fld, c.raisePrior.fget f = c.fget f := fun f => by rw [Mod.fget, hps.regs (by decide), ← Mod.fget]
  generalize c.raisePrior = d at hold hprior hppwr hps hpcause ⊢
  have hcl : m.cleared d := (k4.cleared (h.cleared.of hp (by decide))).of hps (by decide)
  obtain ⟨hrc, hrel, hrpwr⟩ := Mod.release_spec hcl ((k4.unloaded hub).of hps rfl)
  have hcpwr : c.pwr = { a.pwr with powered := true, rails := true, trip := false } := (k4.same.pwr (by decide)).trans hpwr
  have hctick : c.tick = { TickUnit.reset with running := true } := by rw [k4.same.tick (by decide), htick, h.tick]
  have hcause : ∀ f : Fld, f.reg = Reg.PWR_RESET_CAUSE → d.release.fget f = a.fget f := fun f hf => by
    rw [hrel.cause f hf]
    exact (hpcause f).trans ((k4.cause f hf).trans (by rw [Mod.fget, hp.regs (by decide), ← Mod.fget]))
  refine ⟨⟨hrc, ?_, ?_, ?_, ?_, fun r hr => ?_⟩, (hcause _ rfl).trans h.kind, (hcause _ rfl).trans h.source⟩
  · rw [hrpwr, Mod.opened, hppwr, hcpwr, h.pwr]
    rfl
  · rw [hrel.same.tick (by decide)]
    exact (hps.tick (by decide)).trans hctick
  · rw [hrel.same.host (by decide)]
    refine (hps.host (by decide)).trans ?_
    rw [k4.same.host (by decide), hhost, h.host]
  · rw [hrel.keys.2]
    exact (congrArg SecUnit.unlock (hps.sec (by decide))).trans (by rw [k4.keys.2, hp.sec (by decide), h.unlock])
  · have hr' : r ∈ c.pwr.prior := by
      rw [hcpwr, h.pwr]
      exact hr
    have hmem := hprior r hr'
    rw [hctick] at hmem
    exact hrel.events _ hmem

theorem Mod.powerSource_eq (m : Mod) : m.powerSource = if m.pwr.trip then 3 else if ∃ r ∈ m.pwr.prior, r.code = 0x1003 then 2 else 1 := by
  simp only [Mod.powerSource, List.any_eq_true, beq_iff_eq]

theorem Mod.powerSource_lt (m : Mod) : m.powerSource < 256 := by
  unfold Mod.powerSource
  split
  · decide
  · split <;> decide

end

end Sys2Proof.Machine
end

section
/-! PROOF. The statement of the resets (14_host_interface.md R366; 16_security_and_update.md R419; 17_power_reset.md R424, R434, R438, R440 to R443, R449,
R450). -/

namespace Sys2Proof.Machine

section
variable {s : State}

/-! ### Soft resets -/

theorem execSoftReset_spec {path : Path} {key : Nat} (boot : Boot) (hup : s.m.pathUp path Reg.PWR_CTRL.base = true) (hmg : s.m.mgUp = true)
    (hkey : path = .bar0 → key = 0x5EF7) :
    (s.m.pathRefused path = false → s.m.pwr.ready = true →
      ∃ t, exec (.softReset path key boot) s = .next t ∧ s.m.cleared t.m ∧ t.m.pwr.ready = true
        ∧ t.m.pwr.state = (if s.m.pwr.state = .sleep then .sleep else .idle) ∧ t.m.tick.count = 0
        ∧ t.m.host.linkUp = s.m.host.linkUp ∧ t.m.host.entries = s.m.host.entries ∧ t.m.host.doe = ⟨none, false⟩
        ∧ t.m.fget Fld.PWR_RESET_CAUSE_KIND = 3 ∧ t.m.fget Fld.PWR_RESET_CAUSE_SOURCE = (if path = .bar0 then 6 else 7)) ∧
    (s.m.pathRefused path = false → s.m.pwr.ready = false → exec (.softReset path key boot) s = .next s) ∧
    (s.m.pathRefused path = true → ∃ t, exec (.softReset path key boot) s = .next t ∧ State.sameBut [.evIn] s t
      ∧ t.m.reports .corrected 0x0D05 0 (pathCode path) Reg.PWR_CTRL.base 0) := by
  have he : exec (.softReset path key boot) s = .next { s with m := s.m.softRequest path key boot } :=
    exec_via (f := fun m => m.softRequest path key boot) rfl hup
  have hk : ¬(path = .bar0 ∧ key ≠ 0x5EF7) := fun h => h.2 (hkey h.1)
  have hsrc : (if path = .bar0 then 6 else 7) < 256 := by split <;> decide
  refine ⟨fun hp hr => ?_, fun hp hr => ?_, fun hp => ?_⟩
  · have hreq : s.m.softRequest path key boot = s.m.softReset (if path = .bar0 then 6 else 7) boot := (if_neg hk).trans (if_neg (by rw [hp]; decide))
    obtain ⟨hc, hready, hstate, htick, hhost, hkind, hsource⟩ := Mod.softReset_spec hmg hr hsrc boot hreq.symm
    refine ⟨_, he, hc, hready, hstate, htick, ?_, ?_, ?_, hkind, hsource⟩ <;> rw [hhost]
  · have hreq : s.m.softRequest path key boot = s.m := (if_neg hk).trans ((if_neg (by rw [hp]; decide)).trans (if_neg (by rw [hr, Bool.and_false]; decide)))
    rw [he, hreq]
  · have hreq : s.m.softRequest path key boot = s.m.raise .corrected 0x0D05 0 (pathCode path) Reg.PWR_CTRL.base := (if_neg hk).trans (if_pos hp)
    refine ⟨_, he, ⟨rfl, rfl, ?_⟩, ?_⟩
    · rw [hreq]
      exact s.m.raise_sameBut _ _ _ _ _ _
    · rw [hreq]
      exact s.m.raise_reports _ _ _ _ _ _

theorem execFwuActivate_spec {path : Path} (boot : Boot) {x : FwuSession} (hup : s.m.pathUp path Reg.SEC_CMD.base = true) (hmg : s.m.mgUp = true)
    (hr : s.m.pwr.ready = true) (hx : s.m.sec.session = some x) (hp : x.path = path) (hend : x.stage = .ended) :
    (s.m.plateActive = false → ∃ t, exec (.fwuActivate path boot) s = .next t ∧ s.m.cleared t.m ∧ t.m.pwr.ready = true
      ∧ t.m.pwr.state = (if s.m.pwr.state = .sleep then .sleep else .idle) ∧ t.m.fget Fld.PWR_RESET_CAUSE_KIND = 3 ∧ t.m.fget Fld.PWR_RESET_CAUSE_SOURCE = 8) ∧
    (s.m.plateActive = true → ∃ t, exec (.fwuActivate path boot) s = .next t ∧ State.sameBut [.regs, .host] s t
      ∧ (path = .bar0 → t.m.fget Fld.SEC_CMD_STATUS_RESULT = 9)) := by
  have hin : ∀ g, s.m.inSession path 6 g = g x := fun g => (s.m.inSession_some hx).trans (if_pos hp)
  have hopen : ¬(x.stage ≠ .ended) := not_not_intro hend
  refine ⟨fun ha => ?_, fun ha => ?_⟩
  · have hf : s.m.fwuActivate path boot = (s.m.softReset 8 boot).cmdDone path 6 0 := (hin _).trans ((if_neg hopen).trans (if_neg (by rw [ha]; decide)))
    have hspec := Mod.softReset_spec hmg hr (source := 8) (by decide) boot rfl
    have he : exec (.fwuActivate path boot) s = .next { s with m := (s.m.softReset 8 boot).cmdDone path 6 0 } := (exec_via rfl hup).trans (by rw [hf])
    generalize s.m.softReset 8 boot = n at hspec he
    obtain ⟨hc, hready, hstate, -, -, hkind, hsource⟩ := hspec
    have hs := n.cmdDone_sameBut path 6 0
    have hk := n.cmdDone_regsKeep path 6 0
    refine ⟨_, he, hc.of hs (by decide), ?_, ?_, ?_, ?_⟩
    · exact (congrArg PwrUnit.ready (hs.pwr (by decide))).trans hready
    · exact (congrArg PwrUnit.state (hs.pwr (by decide))).trans hstate
    · exact (Mod.regsKeep_fget hk Fld.PWR_RESET_CAUSE_KIND 0 0 (by decide)).trans hkind
    · exact (Mod.regsKeep_fget hk Fld.PWR_RESET_CAUSE_SOURCE 0 0 (by decide)).trans hsource
  · have hf : s.m.fwuActivate path boot = s.m.cmdDone path 6 9 := (hin _).trans ((if_neg hopen).trans (if_pos ha))
    obtain ⟨t, he, hended, hs, -, hq, hpend⟩ := via_ended (c := .fwuActivate path boot) rfl hup hf rfl (by decide) (by decide)
    refine ⟨t, he, ⟨hpend, hq, hs⟩, fun hb => ?_⟩
    rw [hb] at hended
    exact hended.2

/-! ### PERST# -/

/-- The module with PERST# driven to a level. -/
def Mod.perstAt (m : Mod) (b : Bool) : Mod := { m with pwr := { m.pwr with perst := b } }

theorem Mod.perstAt_fget (m : Mod) (b : Bool) (f : Fld) : (m.perstAt b).fget f = m.fget f := rfl

theorem execPerstAssert_spec (h : s.m.pwr.perst = false) :
    ((s.m.mgUp = false ∨ s.m.pwr.rails = false ∨ s.m.pwr.started = false) →
      exec .perstAssert s = .next (s.on (fun m => { m with pwr := { m.pwr with perst := true } }))) ∧
    (s.m.mgUp = true → s.m.pwr.rails = true → s.m.pwr.started = true →
      s.m.pwr.state ≠ .sleep ∨ s.m.fget Fld.PWR_CFG_OFF_ON_PERST = 0 →
      ∃ t, exec .perstAssert s = .next t ∧ s.m.cleared t.m ∧ t.m.pwr.perst = true ∧ t.m.pwr.ready = false ∧ t.m.host.linkUp = false
        ∧ t.m.host.msixEnable = false ∧ t.m.host.entries = [] ∧ t.m.sec.unlock = 0 ∧ t.evq.queue = [] ∧ t.evq.log = s.evq.log
        ∧ t.m.fget Fld.PWR_PROFILE_REQ = s.m.fget Fld.PWR_DEFAULT_PROFILE
        ∧ t.m.fget Fld.PWR_RESET_CAUSE_KIND = 2 ∧ t.m.fget Fld.PWR_RESET_CAUSE_SOURCE = 4) ∧
    (s.m.mgUp = true → s.m.pwr.rails = true → s.m.pwr.started = true → s.m.pwr.state = .sleep → s.m.fget Fld.PWR_CFG_OFF_ON_PERST = 1 →
      ∃ t, exec .perstAssert s = .next t ∧ t.m.pwr.state = .off ∧ t.m.pwr.ready = false ∧ t.m.tick.running = false ∧ t.m.regs = s.m.regs
        ∧ t.m.host.linkUp = false ∧ t.m.sec.counterOpen = false ∧ t.evq = s.evq) := by
  have he : exec .perstAssert s = .next (if !(s.m.perstAt true).mgUp || !s.m.pwr.rails || !s.m.pwr.started then { s with m := s.m.perstAt true }
      else if s.m.pwr.state == .sleep && (s.m.perstAt true).fget Fld.PWR_CFG_OFF_ON_PERST == 1 then
        { s with m := { s.m.perstAt true with pwr := { (s.m.perstAt true).pwr with state := .off, ready := false }, host := { s.m.host with linkUp := false },
                                              tick := { s.m.tick with running := false }, sec := { s.m.sec with counterOpen := false } } }
      else { s with evq := { s.evq with queue := [] }, m := (s.m.perstAt true).fundamentalBegin 4 }) :=
    congrArg Host.Outcome.next (if_neg (by rw [h]; decide))
  have hmg : (s.m.perstAt true).mgUp = s.m.mgUp := rfl
  rw [hmg, Mod.perstAt_fget] at he
  refine ⟨fun hn => ?_, fun h1 h2 h3 h4 => ?_, fun h1 h2 h3 h4 h5 => ?_⟩
  · rw [he, if_pos (by rcases hn with h | h | h <;> simp [h])]
    rfl
  · have hoff : (s.m.pwr.state == .sleep && s.m.fget Fld.PWR_CFG_OFF_ON_PERST == 1) = false := by
      rcases h4 with h4 | h4 <;> simp [h4]
    rw [if_neg (by rw [h1, h2, h3]; decide), if_neg (by rw [hoff]; decide)] at he
    have hheld := (s.m.perstAt true).fundamentalBegin_spec (source := 4) (by decide)
    have hdef := s.m.perstAt_fget true Fld.PWR_DEFAULT_PROFILE
    generalize (s.m.perstAt true).fundamentalBegin 4 = n at he hheld
    obtain ⟨hl, hx, hent⟩ := hheld.host
    have hc := hheld.cleared
    refine ⟨_, he, ⟨hc.plt, hc.step, hc.sched, hc.pool, hc.pad, hc.stm, hc.groom, hc.coll, hc.chk, hc.keys, hc.mem⟩, ?_, ?_, hl, hx, hent, hheld.unlock, rfl, rfl,
      hheld.profile.trans hdef, hheld.kind, hheld.source⟩
    · exact (congrArg PwrUnit.perst hheld.pwr).trans rfl
    · exact (congrArg PwrUnit.ready hheld.pwr).trans rfl
  · rw [if_neg (by rw [h1, h2, h3]; decide), if_pos (by rw [h4, h5]; rfl)] at he
    exact ⟨_, he, rfl, rfl, rfl, rfl, rfl, rfl, rfl⟩

theorem execPerstDeassert_spec (boot : Boot) (h : s.m.pwr.perst = true) (hpow : s.m.pwr.powered = true) (hrails : s.m.pwr.rails = true) :
    (s.m.pwr.state ≠ .off → s.m.pwr.started = false →
      exec (.perstDeassert boot) s = .next (s.on (fun m => { m with pwr := { m.pwr with perst := false } }))) ∧
    (s.m.pwr.state ≠ .off → s.m.pwr.started = true → s.m.pwr.ready = false →
      ∃ t, exec (.perstDeassert boot) s = .next t ∧ t.m.pwr.perst = false ∧ t.m.pwr.ready = true
        ∧ t.m.pwr.state = (if s.m.pwr.state = .sleep then .sleep else .idle) ∧ t.m.tick.running = true ∧ t.m.sec.session = none) ∧
    (s.m.pwr.state = .off → ∃ t, exec (.perstDeassert boot) s = .next t ∧ s.m.cleared t.m ∧ t.m.pwr.perst = false ∧ t.m.pwr.ready = true
      ∧ t.m.pwr.state = .idle ∧ t.evq.queue = [] ∧ t.m.fget Fld.PWR_RESET_CAUSE_KIND = 2 ∧ t.m.fget Fld.PWR_RESET_CAUSE_SOURCE = 5) := by
  have he : exec (.perstDeassert boot) s = .next (if s.m.pwr.state = .off then
        { s with evq := { s.evq with queue := [] }, m := ((s.m.perstAt false).fundamentalBegin 5).fundamentalEnd boot }
      else if s.m.pwr.started && !s.m.pwr.ready then { s with m := (s.m.perstAt false).fundamentalEnd boot }
      else { s with m := s.m.perstAt false }) :=
    congrArg Host.Outcome.next ((if_neg (by rw [h]; decide)).trans (if_neg (by rw [hpow, hrails]; decide)))
  refine ⟨fun h1 h2 => ?_, fun h1 h2 h3 => ?_, fun h1 => ?_⟩
  · rw [he, if_neg h1, if_neg (by rw [h2, Bool.false_and]; decide)]
    rfl
  · rw [if_neg h1, if_pos (by rw [h2, h3]; rfl)] at he
    obtain ⟨hpwr, htick, hses⟩ := (s.m.perstAt false).fundamentalEnd_spec boot
    generalize (s.m.perstAt false).fundamentalEnd boot = n at he hpwr htick hses
    exact ⟨_, he, (congrArg PwrUnit.perst hpwr).trans rfl, (congrArg PwrUnit.ready hpwr).trans rfl, (congrArg PwrUnit.state hpwr).trans rfl, htick, hses⟩
  · rw [if_pos h1] at he
    have hheld := (s.m.perstAt false).fundamentalBegin_spec (source := 5) (by decide)
    generalize (s.m.perstAt false).fundamentalBegin 5 = b at he hheld
    have hst := Mod.fundamentalEnd_started hheld.cleared hheld.unloaded boot
    have hpwr := (b.fundamentalEnd_spec boot).1
    generalize b.fundamentalEnd boot = n at he hst hpwr
    have hc := hst.cleared
    refine ⟨_, he, ⟨hc.plt, hc.step, hc.sched, hc.pool, hc.pad, hc.stm, hc.groom, hc.coll, hc.chk, hc.keys, hc.mem⟩, ?_, hst.ready, ?_, rfl,
      (hst.cause _ rfl).trans hheld.kind, (hst.cause _ rfl).trans hheld.source⟩
    · exact (congrArg PwrUnit.perst hpwr).trans (congrArg PwrUnit.perst hheld.pwr)
    · rw [Mod.opened, hheld.pwr] at hpwr
      exact (congrArg PwrUnit.state hpwr).trans rfl

/-! ### Cold resets -/

theorem execPowerApplied_spec (boot : Boot) :
    (s.m.pwr.powered = true ∧ s.m.pwr.rails = true → exec (.powerApplied boot) s = .next s) ∧
    (s.m.pwr.powered = false ∨ s.m.pwr.rails = false →
      ∃ t, exec (.powerApplied boot) s = .next t ∧ s.m.cleared t.m ∧ t.m.pwr.powered = true ∧ t.m.pwr.rails = true ∧ t.m.pwr.ready = true
        ∧ t.m.pwr.state = .idle ∧ t.m.tick.running = true ∧ t.m.tick.count = 0 ∧ t.m.host.sbAddr = 0x48 + boot.straps % 4
        ∧ t.m.host.out = s.m.host.out ∧ t.m.sec.unlock = 0 ∧ t.evq = { EvtUnit.empty with tail := s.evq.tail }
        ∧ t.m.pwr.prior = [] ∧ (∀ r ∈ s.m.pwr.prior, { r with tick := 0, cycle := 0 } ∈ t.m.evIn)
        ∧ t.m.fget Fld.PWR_RESET_CAUSE_KIND = 1
        ∧ t.m.fget Fld.PWR_RESET_CAUSE_SOURCE = (if s.m.pwr.trip then 3 else if ∃ r ∈ s.m.pwr.prior, r.code = 0x1003 then 2 else 1)) := by
  refine ⟨fun ⟨h1, h2⟩ => congrArg Host.Outcome.next (if_pos (by rw [h1, h2]; rfl)), fun h => ?_⟩
  have hn : (s.m.pwr.powered && s.m.pwr.rails) = false := by rcases h with h | h <;> simp [h]
  have he : exec (.powerApplied boot) s = .next { s with evq := s.evq.cold, m := (s.m.coldBegin s.m.powerSource).coldEnd boot } :=
    congrArg Host.Outcome.next (if_neg (by rw [hn]; decide))
  obtain ⟨hst, hkind, hsource⟩ := Mod.coldEnd_spec (s.m.coldBegin_spec s.m.powerSource_lt) boot
  generalize (s.m.coldBegin s.m.powerSource).coldEnd boot = n at he hst hkind hsource
  have hpwr := hst.pwr
  exact ⟨_, he, hst.cleared, congrArg PwrUnit.powered hpwr, congrArg PwrUnit.rails hpwr, congrArg PwrUnit.ready hpwr, congrArg PwrUnit.state hpwr,
    congrArg TickUnit.running hst.tick, congrArg TickUnit.count hst.tick, congrArg HostUnit.sbAddr hst.host, (congrArg HostUnit.out hst.host).trans rfl, hst.unlock, rfl,
    congrArg PwrUnit.prior hpwr, hst.prior, hkind, hsource.trans s.m.powerSource_eq⟩

/-- A cold reset that hardware begins, with a record written to the persistent tail. -/
theorem coldBegin_toTail (s : State) (r : EvRec) {source : Nat} (hs : source < 256) : Mod.coldHeld (s.toTail r).m ((s.toTail r).m.coldBegin source) source
    ∧ ((s.toTail r).m.coldBegin source).pwr.prior = s.m.pwr.prior ++ [r] := by
  have h := (s.toTail r).m.coldBegin_spec hs
  exact ⟨h, congrArg PwrUnit.prior h.pwr⟩

theorem execSupplyResetAssert_spec (mv : Nat) (h : s.m.pwr.powered = true) :
    let r := s.m.priorRec 0x1003 0 (if s.m.pwr.dip = .none then mv else min mv s.m.pwr.dipMin)
    ∃ t, exec (.supplyResetAssert mv) s = .next t ∧ s.m.cleared t.m ∧ t.m.pwr.powered = false ∧ t.m.evIn = []
      ∧ t.evq = { EvtUnit.empty with tail := lastN tailSize (s.evq.tail ++ [r]) } ∧ t.m.pwr.prior = s.m.pwr.prior ++ [r]
      ∧ t.m.fget Fld.PWR_RESET_CAUSE_KIND = 1 ∧ t.m.fget Fld.PWR_RESET_CAUSE_SOURCE = 2 := by
  intro r
  have he : exec (.supplyResetAssert mv) s = .next { s.toTail r with evq := (s.toTail r).evq.cold, m := (s.toTail r).m.coldBegin 2 } :=
    congrArg Host.Outcome.next (if_pos h)
  obtain ⟨hheld, hprior⟩ := coldBegin_toTail s r (source := 2) (by decide)
  generalize (s.toTail r).m.coldBegin 2 = n at he hheld hprior
  have hc := hheld.cleared
  exact ⟨_, he, ⟨hc.plt, hc.step, hc.sched, hc.pool, hc.pad, hc.stm, hc.groom, hc.coll, hc.chk, hc.keys, hc.mem⟩, congrArg PwrUnit.powered hheld.pwr, hheld.evIn, rfl,
    hprior, hheld.kind, hheld.source⟩

theorem execThermtrip_spec (sensor : Nat) (degC : Int) (h : s.m.pwr.powered = true) :
    let r := s.m.priorRec 0x1006 sensor degC.toNat
    ∃ t, exec (.thermtrip sensor degC) s = .next t ∧ s.m.cleared t.m ∧ t.m.pwr.powered = false ∧ t.m.pwr.trip = true
      ∧ t.m.host.out = s.m.host.out ++ [.pin 1 false]
      ∧ t.evq = { EvtUnit.empty with tail := lastN tailSize (s.evq.tail ++ [r]) } ∧ t.m.pwr.prior = s.m.pwr.prior ++ [r] := by
  intro r
  have he : exec (.thermtrip sensor degC) s = .next { s.toTail r with
      evq := (s.toTail r).evq.cold
      m := Mod.emit { (s.toTail r).m.coldBegin 3 with pwr := { ((s.toTail r).m.coldBegin 3).pwr with trip := true } } (.pin 1 false) } :=
    congrArg Host.Outcome.next (if_pos h)
  obtain ⟨hheld, hprior⟩ := coldBegin_toTail s r (source := 3) (by decide)
  generalize (s.toTail r).m.coldBegin 3 = n at he hheld hprior
  have hc := hheld.cleared
  exact ⟨_, he, ⟨hc.plt, hc.step, hc.sched, hc.pool, hc.pad, hc.stm, hc.groom, hc.coll, hc.chk, hc.keys, hc.mem⟩, congrArg PwrUnit.powered hheld.pwr, rfl,
    congrArg (· ++ [Out.pin 1 false]) ((congrArg HostUnit.out hheld.host).trans rfl), rfl, hprior⟩

end

/-! ### The statement -/

/-- Settles O52: every reset clears the parts of its level, records its cause and ends, or is held, in the power state of Table 17-4 (R366, R434, R438, R440 to
R443, R449, R450). -/
theorem resetEffects : Obligations.ResetEffects := by
  unfold Obligations.ResetEffects
  refine ⟨fun s hmg hr => ?_, fun s h => (execFunctionResets s).2.1 h, fun s h => (execFunctionResets s).2.2 h, fun s path key boot hup hmg hkey => execSoftReset_spec boot hup hmg hkey,
    fun s key boot hk => ?_, fun s path boot x hup hmg hr hx hp hend => execFwuActivate_spec boot hup hmg hr hx hp hend, fun s h => execPerstAssert_spec h,
    fun s boot h hpow hrails => execPerstDeassert_spec boot h hpow hrails, fun s boot => execPowerApplied_spec boot, fun s mv sensor degC h => ?_, fun s => rfl⟩
  · intro function
    have ended : ∀ (t : State) (source : Nat), Mod.functionEnded s.m t.m source → t.m.plt = s.m.plt → t.m.tick = s.m.tick → t.m.pwr = s.m.pwr →
        t.m.cores = s.m.cores → t.evq = s.evq → function t source := fun t source hf h1 h2 h3 h4 h5 => by
      obtain ⟨hx1, hx2, hx3, hx4⟩ := hf.msix
      exact ⟨fun ho => hf.cause.trans (if_pos ho), fun ho => hf.cause.trans (if_neg (by rw [ho]; decide)), hf.runs, hf.wins, hf.engines, hf.ops, hf.pool.1, hf.pool.2,
        hf.mem, hf.regs, hx1, hx2, hx3, hx4, hf.kind, hf.source, h1, h2, h3, h4, h5⟩
    obtain ⟨hfun, -, -⟩ := execFunctionResets s
    obtain ⟨t1, e1, f1, p1, p2, p3, p4, p5, v1⟩ := hfun hmg hr .flr 9 (by decide) rfl
    obtain ⟨t2, e2, f2, q1, q2, q3, q4, q5, v2⟩ := hfun hmg hr .hotReset 10 (by decide) rfl
    refine ⟨⟨t1, e1, ended t1 9 f1 p1 p2 p3 p4 p5, v1⟩, ⟨t2, e2, ended t2 10 f2 q1 q2 q3 q4 q5, v2⟩, fun hl => ?_⟩
    obtain ⟨t3, e3, f3, r1, r2, r3, r4, r5, hlink, hrep⟩ := execDlDown_spec hmg hr hl
    exact ⟨t3, e3, ended t3 11 f3 r1 r2 r3 r4 r5, hlink, hrep⟩
  · refine exec_on rfl (n := s.m) ?_
    dsimp only
    split
    · exact if_pos ⟨rfl, hk⟩
    · rfl
  · exact ⟨execSupplyResetAssert_spec mv h, execThermtrip_spec sensor degC h⟩

end Sys2Proof.Machine
end
